-- ==== Sys2Proof/Word.lean ====
section
/-!
DEFINITION. The word types of the model, sparse maps as plain lists, and the shape of a register-table row.
-/
namespace Sys2Proof

abbrev Byte := BitVec 8
abbrev W16 := BitVec 16
abbrev Word := BitVec 32
abbrev W64 := BitVec 64

/-- A sparse map from numbers to values, as plain data: pairs with strictly rising keys and no entry equal to what
an unlisted key reads as. The operations (`SMap.get`, `SMap.set`) stand in Machine/Ops.lean. -/
abbrev SMap (α : Type) := List (Nat × α)

/-- A bit range [hi:lo] of a 32-bit register (notation of R8). -/
structure Bits where
  hi : Nat
  lo : Nat
deriving DecidableEq, Repr

/-- The access codes of R9; reserved bits (RSV) have no field. -/
inductive Access
  | rw | ro | wo | w1c
deriving DecidableEq, Repr

/-- When a field's value is checked: `plain` and `setup` fields at the write (R526); `shadow` fields at the commit
(R76); `free` fields at their use (CAP_SQ_W0 to W3, R62). `setup` fields are written only in DISABLED and READY (R82). -/
inductive FieldKind
  | plain | setup | shadow | free
deriving DecidableEq, Repr

/-- One field of a register table: where it lies, its access code, its reset value, its range of allowed values. -/
structure FieldRow where
  bits : Bits
  acc : Access
  reset : Nat
  lo : Nat
  hi : Nat
  kind : FieldKind
deriving DecidableEq, Repr

/-- One register table: `c1 × c2` registers at `base + i * s1 + j * s2`. -/
structure RegRow where
  base : Nat
  s1 : Nat
  c1 : Nat
  s2 : Nat
  c2 : Nat
  fields : List FieldRow
deriving DecidableEq, Repr

end Sys2Proof
end

