-- ==== Sys2Proof/Syntax.lean ====
section
/-!
DEFINITION. The commands the block takes: their operand types, and Instr, one constructor per row of
spec/opcode_table.json. A command is something that reaches the block (a register access, a message, a frame, a pin
event, a ring command the module has taken) or the moment at which one of its own engines or timers acts. Operands
hold what the command brings from outside: measured times, pixels, message fields and bytes, results of reads on
other nodes. A time `t` of a port is a count of FCLK cycles; `tail` holds the pixels of a line that the command's edge
closes.
-/
namespace Sys2Proof

/-- A camera port P00 to P35, and the context C00 to C35 of the same number (R6). -/
abbrev PortId := Fin 36

/-- Who makes a register access (R23): a session's REG_ACCESS that arrived on a port, a debug operation by one of the
paths of R489 (0 NET_A, 1 NET_B, 2 JTAG, 3 UART), or the control cores' register bus. -/
inductive BusSource
  | session (n : Fin 256) (port : Fin 2)
  | debug (path : Fin 4)
  | control
deriving DecidableEq, Repr

/-- The two walkers of an engine's program (R195): the instruction sequencer and the badger that runs ahead. -/
inductive Walker
  | execute | badger
deriving DecidableEq, Repr

/-- A physical engine position: cluster CLn and position X0 to X16 (R162). -/
structure EngPos where
  cl : Fin 8
  x : Fin 17
deriving DecidableEq, Repr

/-- The task a plan slot or a job gap starts: of a stream's stage, 0 to 7 the analysis stages of its set-up, 8 to 11 the
picture stages residual demosaic, HDR merge, denoise and tone (unit and index within the unit), or of a job. -/
inductive TaskRef
  | stream (c : PortId) (stage : Fin 12) (unit idx : Nat)
  | job (id stage task : Nat)
deriving DecidableEq, Repr

/-- A memory error that a read meets (R293, R294, R318, R321): the address of its word, whether it is uncorrectable, and whether
it arises on the DRAM link, where a write can meet it too. -/
structure MemErr where
  addr : Nat
  uncorrectable : Bool
  link : Bool
deriving DecidableEq, Repr

/-- Whose write transfer is acknowledged (R333). -/
inductive Writer
  | engine (e : EngPos)
  | dma (ch : Fin 64)
deriving DecidableEq, Repr

/-- The check of R189 that fails. -/
inductive EngCheck
  | residue | parity | sequencer
deriving DecidableEq, Repr

/-- The header of a taken submission entry (R392): its session, its tag and its FENCE flag. -/
structure CmdHdr where
  session : Fin 256
  tag : Word
  fence : Bool
deriving DecidableEq, Repr

/-- What a read through a window brings back: the bytes, or a status code of the remote node (R429), or nothing after
the last try (R432). -/
inductive Remote
  | data (bytes : List Byte)
  | status (code : W16)
  | unanswered
deriving DecidableEq, Repr

/-- A receiver's answer to the probe of a BIND or REFRESH (R430): status and epoch of its header. A probe that is missing went
unanswered. -/
structure Probe where
  status : W16
  epoch : Word
deriving DecidableEq, Repr

/-- Whose a slot of a DRAM channel is (R322): the read, the write or the remote share. -/
inductive SlotShare
  | read | write | remote
deriving DecidableEq, Repr

/-- A node's address as frames carry it, which says their form (R375, R439): a MAC address in the Ethernet form, an IPv4
address in the UDP form. -/
inductive Peer
  | mac (address : Nat)
  | ip (address : Word)
deriving DecidableEq, Repr

/-- The header of a received YWP message (R376), with the port, the source address (R375, R439) and the destination MAC
address of its frame. The type is the command's own and the length is the payload's. -/
structure Hdr where
  port : Fin 2
  peer : Peer
  dmac : Nat
  version : Byte
  resp : Bool
  ackReq : Bool
  src : W16
  dst : W16
  session : W16
  seq : Word
  epoch : Word
deriving DecidableEq, Repr

/-- A received WAKE (R377, R411): its header, and its payload, which should be empty (R378). -/
structure WakeMsg where
  hdr : Hdr
  payload : List Byte
deriving DecidableEq, Repr

/-- A received Ethernet frame, as far as the ports look at it (R414, R416, R420, R439). -/
structure RxFrame where
  bytes : Nat
  dmac : Nat
  smac : Nat
  /-- PCP and VID of an IEEE 802.1Q tag. -/
  tag : Option (Fin 8 × Nat)
  /-- Sequence number of an R-TAG. -/
  rtag : Option W16
  etherType : W16
deriving DecidableEq, Repr

/-- A debug request as it arrived (R477): path 0 NET_A, 1 NET_B, 2 JTAG, 3 UART; source address, destination MAC address,
version, source and destination node, session field and seq of a DEBUG message. -/
structure DbgHdr where
  path : Fin 4
  peer : Peer
  dmac : Nat
  version : Byte
  node : W16
  dst : W16
  session : W16
  seq : Word
deriving DecidableEq, Repr

/-- An instruction of the IEEE 1149.1 TAP (R476, R479); EXTEST with what it drives on the boundary-scan pins. -/
inductive TapInstr
  | idcode | bypass | dbgmsg | sample | extest (pins : List Bool)
deriving DecidableEq, Repr

/-- One firmware image of a slot (R469): its 256 header bytes and the bytes that follow them. -/
structure Image where
  header : List Byte
  body : List Byte
deriving DecidableEq, Repr

/-- A firmware slot (R469): the SC, PMC and control images. -/
structure SlotImage where
  sc : Image
  pmc : Image
  control : Image
deriving DecidableEq, Repr


/-- The commands of the block: one constructor per row of spec/opcode_table.json, named by its mnemonic. -/
inductive Instr where
  /-- REGISTER_WRITE (R526): A write to a register that has no row of its own is checked for size, range, domain and reserved values, then applied or refused. -/
  | registerWrite (src : BusSource) (off size : Nat) (value : Word)
  /-- PORT_ENABLE (R46): Setting CAP_PORT_CFG.enable puts the port in RESETTING with RST_N low, clears the frame sequence counter and restores the calibration record. -/
  | portEnable (src : BusSource) (p : PortId) (cfg : Word)
  /-- PORT_DISABLE (R47): Clearing CAP_PORT_CFG.enable returns the port to DISABLED, aborting training, or is refused in ACTIVE. -/
  | portDisable (src : BusSource) (p : PortId) (cfg : Word)
  /-- RST_LOW_EXPIRY (R46): After rst_low_us the port drives RST_N high. -/
  | rstLowExpiry (p : PortId)
  /-- RST_SETTLE_EXPIRY (R46): After rst_settle_us the bus is initialised, with RSTDAA and DISEC in I3C mode, and the port enters READY. -/
  | rstSettleExpiry (p : PortId)
  /-- FRAME_START (R54): A VSYNC active edge closes any open line and frame, assigns the sequence number, makes the early check, stamps and releases frame-start sensor writes. -/
  | frameStart (p : PortId) (t : Nat) (tail : List W16)
  /-- FRAME_END (R55): At a frame end the frame-end stamp is taken, measurements are updated and frame-end sensor writes are released. -/
  | frameEnd (p : PortId) (t : Nat) (tail : List W16)
  /-- PORT_LINE_START (R16): At a line start the port opens a line in its input queue, or drops it as OVERRUN when the queue is full; at the first active line a late batch flags LATE_WRITE. -/
  | portLineStart (p : PortId) (t hblank : Nat) (tail : List W16)
  /-- PORT_LINE_END (R49): At a line end the port pads a short line, drops extra pixels of a long line, or discards lines of a long frame, and closes the line in the queue. -/
  | portLineEnd (p : PortId) (t : Nat) (pixels : List W16)
  /-- PCLK_LOSS_TIMEOUT (R49): No PCLK edge for 4 096 FCLK cycles within a line closes the line and frame as short and raises SIGNAL_LOST. -/
  | pclkLossTimeout (p : PortId) (t : Nat) (pixels : List W16)
  /-- FRAME_END_TIMEOUT (R49): In ACTIVE, no frame end within twice the admitted period closes the frame as short and raises SIGNAL_LOST. -/
  | frameEndTimeout (p : PortId) (t : Nat) (tail : List W16)
  /-- TRAIN_START (R42): A write of CAP_TRAIN_CTL.start in READY starts deskew training; in other states it is refused. -/
  | trainStart (src : BusSource) (p : PortId)
  /-- TRAIN_ABORT (R43): A write of CAP_TRAIN_CTL.abort ends training with ABORTED and keeps the previous taps. -/
  | trainAbort (src : BusSource) (p : PortId)
  /-- TRAIN_NO_SIGNAL_TIMEOUT (R42): No pixel for 16 777 216 FCLK cycles during training ends it with FAIL_NO_SIGNAL. -/
  | trainNoSignalTimeout (p : PortId)
  /-- TRAIN_DONE (R43): When the tap sweep and verification end, training reports PASS and writes the taps, or reports FAIL_EYE or FAIL_VERIFY. -/
  | trainDone (p : PortId) (sweep : List (List (Bool × W16))) (verify : List (Bool × W16))
  /-- TRIG_MODE_WRITE (R56): A write of CAP_TRIG_CFG.mode sets OFF, FREE_RUN or NET_TIME, latching the start time for NET_TIME. -/
  | trigModeWrite (src : BusSource) (p : PortId) (cfg : Word)
  /-- TRIG_FREE_RUN_PULSE (R56): Every div FCLK cycles in FREE_RUN, or before gPTP sync with allow_free_run, TRIG is pulsed. -/
  | trigFreeRunPulse (p : PortId)
  /-- TRIG_NET_TIME_PULSE (R56): At each scheduled 802.1AS time in NET_TIME mode TRIG is pulsed. -/
  | trigNetTimePulse (p : PortId)
  /-- TRIG_PULSE_END (R56): After width_us the TRIG pulse returns to its inactive level. -/
  | trigPulseEnd (p : PortId)
  /-- STROBE_EDGE (R59): An active STROBE edge is stamped for the first two edges of a frame, or sets STROBE_OVF. -/
  | strobeEdge (p : PortId)
  /-- SQ_PUSH (R62): CAP_SQ_PUSH.push copies CAP_SQ_W0–W3 into the sensor queue, or is refused as BAD_ENTRY, NOT_READY, FULL or LATE_PUSH. -/
  | sqPush (src : BusSource) (p : PortId)
  /-- SENSOR_TRANSACTION_START (R63): The bus controller starts the next transaction of a released batch or an IMMEDIATE entry. -/
  | sensorTransactionStart (p : PortId)
  /-- SENSOR_TRANSACTION_DONE (R63): A transaction ends with ACK, or with a NACK that is retried or discards the rest of the batch; a READ sets read_valid. -/
  | sensorTransactionDone (p : PortId) (ack : Bool) (rdata : List Byte)
  /-- SENSOR_BUS_TIMEOUT (R63): timeout_us passing between start and stop fails the transaction with TIMEOUT, retried or reported by SENSOR_BUS_ERROR. -/
  | sensorBusTimeout (p : PortId)
  /-- IN_BAND_INTERRUPT (R61): An I3C in-band interrupt or hot-join request is NACKed and counted in CAP_CNT_BUS_ERROR. -/
  | inBandInterrupt (p : PortId)
  /-- MEAS_SNAPSHOT (R53): A read of CAP_MEAS_SEQ copies the whole measurement set into the readable measurement registers. -/
  | measSnapshot (src : BusSource) (p : PortId)
  /-- CAP_CNT_CLR (R65): Writing CAP_CNT_CLR clears the selected port counters. -/
  | capCntClr (src : BusSource) (p : PortId) (mask : Word)
  /-- LANE_LINE_START (R69): In the context's line slot with the whole line queued, the lane starts the line, tagging it with slot, bank and sequence number. -/
  | laneLineStart (c : PortId)
  /-- LANE_OUTPUT_LINE (R110): A crop line leaving the lane is written into every stripe slot that contains it, with edge-mode lines and margins. -/
  | laneOutputLine (c : PortId)
  /-- STRIPE_READY (R110): When the writes of a stripe are acknowledged, capture adds 1 to the stripe object and, for the last stripe, to the frame object. -/
  | stripeReady (c : PortId)
  /-- FE_COMMIT (R76): A write of FE_COMMIT.commit checks the shadow set and target frame and snapshots it as a pending commit with a new psid, or refuses it. -/
  | feCommit (src : BusSource) (c : PortId) (next withExposure : Bool)
  /-- FE_TBL_DATA_ACCESS (R107): An access to FE_TBL_DATA reads or writes the shadow table word at index and increments index. -/
  | feTblDataAccess (src : BusSource) (c : PortId) (write : Option Word)
  /-- STATS_RECORD_DONE (R96): Once the record of a frame is complete it is written to its slot, the statistics object advanced and STATS_READY raised. -/
  | statsRecordDone (c : PortId)
  /-- AE_UPDATE (R101): The AE loop forms the next exposure set from a frame's record. -/
  | aeUpdate (c : PortId)
  /-- AWB_UPDATE (R102): The AWB loop forms new loop gains from a frame's record for the next copy. -/
  | awbUpdate (c : PortId)
  /-- TRIM_UPDATE (R105): In SENSOR_TRIM mode the trim code is adjusted from a usable frame's optical-black means. -/
  | trimUpdate (c : PortId)
  /-- HIST_RESET_WRITE (R126): A write of NIS_HIST_CTL.reset requests a history reset at the next frame. -/
  | histResetWrite (src : BusSource) (c : PortId)
  /-- NIS_TBL_DATA_ACCESS (R137): An access to NIS_TBL_DATA reads or writes the tone table word at index and increments index. -/
  | nisTblDataAccess (src : BusSource) (c : PortId) (write : Option Word)
  /-- OUTPUT_RESUME (R135): A write of NIS_OUTk_CTL.resume resumes a suspended window destination from the next frame start. -/
  | outputResume (src : BusSource) (c : PortId) (k : Fin 4)
  /-- CAL_START (R141): A write of CAL_CTX_CTL.start begins a calibration run of the given kind, purpose and source, or refuses it. -/
  | calStart (src : BusSource) (c : PortId) (ctl : Word)
  /-- CAL_ABORT (R155): A write of CAL_CTX_CTL.abort ends the run with ABORTED and applies nothing. -/
  | calAbort (src : BusSource) (c : PortId)
  /-- CAL_STORE (R157): A write of CAL_CTX_CTL.store starts storing the context's calibration record to flash. -/
  | calStore (src : BusSource) (c : PortId)
  /-- CAL_STORE_DONE (R157): A flash store ends, overwriting the older copy, or fails with last_error FLASH. -/
  | calStoreDone (c : PortId) (ok : Bool)
  /-- CAL_RESULT_READY (R145): A run's result is computed, checked for plausibility and agreement, then applied, stored, repeated or rejected. -/
  | calResultReady (c : PortId)
  /-- CAL_CNT_CLR (R160): Writing CAL_CNT_CLR clears the selected calibration counters. -/
  | calCntClr (src : BusSource) (c : PortId) (mask : Word)
  /-- TASK_START (R194): When a task's plan waits are met and its slot opens, the engine checks shapes, clears its state and starts both walkers. -/
  | taskStart (cl : Fin 8) (logical : Fin 17) (task : TaskRef)
  /-- ENGINE_NOP (R201): The NOP instruction does nothing. -/
  | engineNop (e : EngPos) (w : Walker)
  /-- END (R202): END ends the task's program. -/
  | endOp (e : EngPos) (w : Walker)
  /-- LOOP (R208): LOOP opens a hardware loop level, latching its count and strides. -/
  | loop (e : EngPos) (w : Walker)
  /-- SETP (R204): SETP writes an immediate to a scalar register. -/
  | setp (e : EngPos) (w : Walker)
  /-- ALU (R205): ALU performs scalar arithmetic on registers or an immediate. -/
  | alu (e : EngPos) (w : Walker)
  /-- LDP (R204): LDP loads a scalar register from the argument block. -/
  | ldp (e : EngPos) (w : Walker)
  /-- SLOT (R206): SLOT empties a slot and binds an address program to it, latching its register values. -/
  | slot (e : EngPos) (w : Walker)
  /-- FETCH (R242): FETCH checks and issues the read transfers of one tile into a queue or the resident area. -/
  | fetch (e : EngPos) (w : Walker) (errs : List MemErr)
  /-- TILE_ARRIVED (R240): The last byte of a fetched tile reaches staging memory and the tile can be popped. -/
  | tileArrived (e : EngPos) (queue : Fin 4)
  /-- WLOAD (R212): WLOAD loads a B block into the array bank that the last MM did not read. -/
  | wload (e : EngPos) (w : Walker)
  /-- MM (R213): MM multiplies a QA tile by the loaded block into accumulator rows. -/
  | mm (e : EngPos) (w : Walker)
  /-- MMF (R216): MMF computes a fused product g(A × B1) × B2 into accumulator rows. -/
  | mmf (e : EngPos) (w : Walker)
  /-- RFU (R219): RFU applies a row-wise function to accumulator rows. -/
  | rfu (e : EngPos) (w : Walker)
  /-- TLOAD (R220): TLOAD loads an RFU table from a QX tile. -/
  | tload (e : EngPos) (w : Walker)
  /-- WB (R221): WB converts accumulator rows and issues write transfers through a slot. -/
  | wb (e : EngPos) (w : Walker)
  /-- WRITE_ACKNOWLEDGED (R333): A write transfer of an engine or DMA is acknowledged by its destination. -/
  | writeAcknowledged (writer : Writer)
  /-- GATE (R222): GATE decides whether row r is reused, copying the previous output, or computed by running its body. -/
  | gate (e : EngPos) (w : Walker)
  /-- SWAIT (R227): SWAIT waits until a sync object meets a threshold. -/
  | swait (e : EngPos) (w : Walker)
  /-- SWAIT_TIMEOUT (R228): An SWAIT timeout aborts the task with WAIT_TIMEOUT, not run again. -/
  | swaitTimeout (e : EngPos)
  /-- SSIG (R227): SSIG adds a value to a sync object once earlier writes are acknowledged. -/
  | ssig (e : EngPos) (w : Walker)
  /-- FENCE (R198): FENCE waits for every earlier write of the task to be acknowledged. -/
  | fence (e : EngPos) (w : Walker)
  /-- CONV2D (R232): CALL of library routine CONV2D runs a grouped 2-D convolution. -/
  | conv2d (e : EngPos) (w : Walker)
  /-- GEMM (R232): CALL of library routine GEMM runs a matrix product. -/
  | gemm (e : EngPos) (w : Walker)
  /-- POOL (R232): CALL of library routine POOL runs max or average pooling. -/
  | pool (e : EngPos) (w : Walker)
  /-- RESIZE (R232): CALL of library routine RESIZE runs a bilinear resize. -/
  | resize (e : EngPos) (w : Walker)
  /-- ELTWISE (R232): CALL of library routine ELTWISE applies a function element by element. -/
  | eltwise (e : EngPos) (w : Walker)
  /-- NORM (R232): CALL of library routine NORM normalises each row and scales by a vector. -/
  | norm (e : EngPos) (w : Walker)
  /-- SOFTMAX (R232): CALL of library routine SOFTMAX computes a softmax per row. -/
  | softmax (e : EngPos) (w : Walker)
  /-- ATTENTION (R232): CALL of library routine ATTENTION runs a fused softmax attention product. -/
  | attention (e : EngPos) (w : Walker)
  /-- LIB_COPY (R232): CALL of library routine COPY converts format or transposes. -/
  | libCopy (e : EngPos) (w : Walker)
  /-- ARGMAX (R232): CALL of library routine ARGMAX writes the index of each row maximum. -/
  | argmax (e : EngPos) (w : Walker)
  /-- TOPK (R232): CALL of library routine TOPK writes the count largest values and indices per row. -/
  | topk (e : EngPos) (w : Walker)
  /-- NMS (R232): CALL of library routine NMS runs non-maximum suppression over boxes. -/
  | nms (e : EngPos) (w : Walker)
  /-- TASK_COMPLETE (R202): After END with every write acknowledged, the task completes and its plan and hand-over signals are applied. -/
  | taskComplete (e : EngPos)
  /-- ENGINE_FAULT_DETECTED (R189): A residue, parity or sequencer check fails, stopping the engine at once and starting an abort. -/
  | engineFaultDetected (e : EngPos) (check : EngCheck)
  /-- ENGINE_WATCHDOG (R190): The engine watchdog expires, giving a program fault or an engine fault. -/
  | engineWatchdog (e : EngPos)
  /-- ABORT_COMPLETE (R268): When the last outstanding transfer of an aborted task has returned, the abort is complete and the task is re-run or reported. -/
  | abortComplete (e : EngPos)
  /-- RERUN_START (R270): The spare, holding the faulted name, restarts the task from its first instruction suppressing its first n SSIGs. -/
  | rerunStart (e : EngPos)
  /-- RESIDENT_SET_LOAD (R256): The cluster hub loads a resident set into a position before the stage's first task or after a takeover. -/
  | residentSetLoad (cl : Fin 8) (logical : Fin 17) (c : PortId) (stage : Fin 12)
  /-- ROTATION_GROUP_EXCHANGE (R259): When every member of a rotation group has ended its step, shares are passed round the cluster ring. -/
  | rotationGroupExchange (c : PortId) (stage : Fin 8)
  /-- CANCELLATION_COMPLETE (R273): The last outstanding read of cancelled tiles returns and the cancellation completes. -/
  | cancellationComplete (e : EngPos)
  /-- ROTATION_DUE (R503): Every rotate_ms a cluster with a working spare falls due for a rotation. -/
  | rotationDue (cl : Fin 8)
  /-- ROTATION (R164): In a reserved gap the self-tested spare takes a scheduled name, with resident contents copied over the ring. -/
  | rotation (cl : Fin 8)
  /-- ROTATION_SKIP (R503): A rotation that finds no gap within 100 ms is skipped. -/
  | rotationSkip (cl : Fin 8)
  /-- SWEEP_DONE (R504): A self-test sweep of a position ends, passing or failing, moving it among SPARE, QUARANTINED and OFFLINE. -/
  | sweepDone (e : EngPos) (pass full : Bool)
  /-- ENG_X_CNT_CLR (R192): Writing ENG_X_CNT_CLR clears the selected engine counters. -/
  | engXCntClr (src : BusSource) (e : EngPos) (mask : Word)
  /-- ALLOC (R281): The ALLOC command places a new zeroed SPM or DRAM region and returns its handle, or refuses with the largest size possible. -/
  | alloc (h : CmdHdr) (memory kind stack : Byte) (size : W64)
  /-- FREE (R284): The FREE command checks the region and waits for its users before releasing it. -/
  | free (h : CmdHdr) (region : Word)
  /-- RELEASE_ZERO_FILL (R284): Once users of a released region have ended, its handle goes stale, gather entries flush and zero filling begins. -/
  | releaseZeroFill (region : Word)
  /-- RELEASE_DONE (R284): When the zero fill ends the space returns to the free pool and the completion is written. -/
  | releaseDone (region : Word)
  /-- FILL (R287): The FILL command is checked and waits for its wait object before writing a pattern. -/
  | fill (h : CmdHdr) (dst : Word) (dstOff len pattern : W64) (waitObj sigObj : W16) (waitThr waitTimeout : Word)
  /-- COPY (R287): The COPY command is checked and waits for its wait object before copying between SPM regions. -/
  | copy (h : CmdHdr) (dst srcRegion : Word) (dstOff len srcOff : W64) (waitObj sigObj : W16) (waitThr waitTimeout : Word)
  /-- FILL_COPY_WRITE_START (R287): When its wait object meets the threshold, a FILL or COPY begins writing. -/
  | fillCopyWriteStart (stack : Fin 8)
  /-- FILL_COPY_WAIT_TIMEOUT (R310): A FILL or COPY wait timeout completes the command with WAIT_TIMEOUT, writing nothing. -/
  | fillCopyWaitTimeout (stack : Fin 8)
  /-- FILL_COPY_DONE (R287): When a FILL or COPY's writes are acknowledged it advances sig_obj and writes its completion. -/
  | fillCopyDone (stack : Fin 8)
  /-- NARROW_WRITE (R291): A narrow SPM write merges into a gather entry and is acknowledged, evicting an entry when needed. -/
  | narrowWrite (addr : Nat) (bytes : List Byte)
  /-- GATHER_IDLE_FLUSH (R291): A gather entry idle for 256 ACLK cycles is written to its bank. -/
  | gatherIdleFlush (line : Nat)
  /-- SCRUB_VISIT (R295): Every interval cycles the hedgehog reads the next line of each bank, correcting or reporting errors. -/
  | scrubVisit (stack : Fin 8) (errs : List MemErr)
  /-- STACK_ZEROING_DONE (R296): A stack switched on from off finishes its zero fill and starts granting requests. -/
  | stackZeroingDone (stack : Fin 8)
  /-- SPM_ST_CNT_CLR (R297): Writing SPM_ST_CNT_CLR clears the selected stack counters. -/
  | spmStCntClr (src : BusSource) (stack : Fin 8) (mask : Word)
  /-- SYNC_OP_SIGNAL (R300): SYNC_OP SIGNAL adds 1 to an object unless it is plan-owned. -/
  | syncOpSignal (h : CmdHdr) (obj : W16)
  /-- SYNC_OP_ADD (R300): SYNC_OP ADD adds a value to an object unless it is plan-owned. -/
  | syncOpAdd (h : CmdHdr) (obj : W16) (value : Word)
  /-- SYNC_OP_RESET (R300): SYNC_OP RESET sets an object to a value unless it is plan-owned. -/
  | syncOpReset (h : CmdHdr) (obj : W16) (value : Word)
  /-- SYNC_OP_WAIT (R300): SYNC_OP WAIT waits for an object to meet a threshold, or completes with BUSY at the limit of 512. -/
  | syncOpWait (h : CmdHdr) (obj : W16) (threshold timeout : Word)
  /-- SYNC_WAIT_MET (R302): A host WAIT whose object meets its threshold completes with OK. -/
  | syncWaitMet (session : Fin 256) (tag : Word)
  /-- SYNC_WAIT_TIMEOUT (R310): A host WAIT timeout completes with WAIT_TIMEOUT. -/
  | syncWaitTimeout (session : Fin 256) (tag : Word)
  /-- SYN_CNT_CLR (R314): Writing SYN_CNT_CLR clears the selected sync counters. -/
  | synCntClr (src : BusSource) (mask : Word)
  /-- DRAM_WCK_TRACK (R317): Every 16 ms each channel tracks its write-clock phase. -/
  | dramWckTrack (ch : Fin 16)
  /-- DRAM_ZQ_CALIBRATE (R317): Every 128 ms each channel calibrates its drive impedance. -/
  | dramZqCalibrate (ch : Fin 16)
  /-- DRAM_SLOT_ADVANCE (R322): Every 16 MCLK cycles the channel's slot wheel advances one position; a transfer of the share named
  takes the slot when it is of that share (R323). -/
  | dramSlotAdvance (ch : Fin 16) (by_ : Option SlotShare)
  /-- DMA (R329): The DMA command waits for a free session channel and then runs its descriptor list. -/
  | dma (h : CmdHdr) (addr : W64)
  /-- DMA_DESCRIPTOR_RUN (R331): A channel checks and fetches a descriptor, waits if asked, and moves its data. -/
  | dmaDescriptorRun (ch : Fin 64) (desc : Remote) (errs : List MemErr) (fill : Nat)
  /-- DMA_WAIT_MET (R331): A descriptor's wait object meets its threshold and the data move begins. -/
  | dmaWaitMet (ch : Fin 64) (errs : List MemErr) (fill : Nat)
  /-- DMA_WAIT_TIMEOUT (R331): A descriptor wait timeout ends the list with WAIT_TIMEOUT. -/
  | dmaWaitTimeout (ch : Fin 64)
  /-- DMA_DESCRIPTOR_DONE (R331): When every write of a descriptor is acknowledged, sig_obj advances and the completion is written. -/
  | dmaDescriptorDone (ch : Fin 64)
  /-- DMA_PACE_RESUME (R334): A paced channel resumes writing when the queue fill falls to its low mark. -/
  | dmaPaceResume (ch : Fin 64) (fill : Nat)
  /-- DMA_TRANSFER_FAIL (R335): A failing transfer makes the channel halt, latching address, direction, cause and bytes_done. -/
  | dmaTransferFail (ch : Fin 64)
  /-- DMA_HALTED (R335): When the last outstanding transfer of a halting channel returns, it enters HALTED and raises DMA_HALTED. -/
  | dmaHalted (ch : Fin 64)
  /-- DMA_RETRY (R336): Action RETRY moves the halted descriptor's bytes again from bytes_done. -/
  | dmaRetry (src : BusSource) (ch : Fin 64)
  /-- DMA_SKIP (R336): Action SKIP completes the halted descriptor with its error and goes on with the next. -/
  | dmaSkip (src : BusSource) (ch : Fin 64)
  /-- DMA_ABORT (R336): Action ABORT completes the halted descriptor with its error and ends the list. -/
  | dmaAbort (src : BusSource) (ch : Fin 64)
  /-- PLAN_CHANNEL_SKIP (R337): Firmware writes SKIP to a halted plan-owned channel and applies its signal so the plan goes on. -/
  | planChannelSkip (ch : Fin 64)
  /-- CLIP_FRAME_COPY (R326): Once an output's last stripe is written, the frame slot is copied to the clip ring unless FROZEN. -/
  | clipFrameCopy (c : PortId) (k : Fin 4)
  /-- CLIP_HEADER_UPDATE (R326): When a clip copy's writes return, the ring header is rewritten with newest_index and freeze state. -/
  | clipHeaderUpdate (c : PortId) (k : Fin 4)
  /-- FREEZE (R328): CLIP_CTL FREEZE sets FROZEN, or FREEZE_PENDING with a frame count. -/
  | freeze (h : CmdHdr) (region after : Word)
  /-- THAW (R328): CLIP_CTL THAW clears FROZEN and FREEZE_PENDING. -/
  | thaw (h : CmdHdr) (region : Word)
  /-- ADMIT (R345): The ADMIT command reads the set-up record and hands it to the fox, or refuses a bad address. -/
  | admitStream (h : CmdHdr) (setup report : W64) (reportLen : Word) (rec : Remote)
  /-- ADMIT_COMPLETE (R356): The fox finishes its checks, writes the report and admits the stream or refuses it. -/
  | admitComplete (c : PortId)
  /-- RELEASE (R352): The RELEASE command ends a stream after its ready stripes complete. -/
  | release (h : CmdHdr) (stream : Word)
  /-- RELEASE_COMPLETE (R352): After the last task, output and delivery complete, the stream's resources are freed and the RELEASE completes. -/
  | releaseComplete (c : PortId)
  /-- DEADLINE_MISSED (R355): A deadline passing without its completion raises DEADLINE_MISSED. -/
  | deadlineMissed (c : PortId) (subject : Nat) (frameIndex : Word) (stripe : W16) (lateness : Nat)
  /-- DELIVERY_COPY (R349): When a stage unit ends, its delivery copies the unit to the remote window. -/
  | deliveryCopy (c : PortId) (j : Fin 4)
  /-- RESUME_DELIVERY (R350): RESUME_DELIVERY resumes a suspended delivery and returns its uncopied count. -/
  | resumeDelivery (h : CmdHdr) (stream : Word) (delivery : Byte)
  /-- JOB (R365): The JOB command reads a job record, checks it and puts it in the dispatch queue. -/
  | job (h : CmdHdr) (record : W64) (rec : Remote)
  /-- JOB_DISPATCH (R366): A job task is dispatched into a long enough gap between plan slots, after its expiry is tested. -/
  | jobDispatch (job : Nat) (stage task : Nat) (cl : Fin 8) (logical : Fin 17)
  /-- JOB_PREEMPT (R366): A job task still running 1 800 cycles before the next plan slot is stopped and queued again. -/
  | jobPreempt (e : EngPos)
  /-- WITHDRAW (R396): WITHDRAW completes matching jobs with WITHDRAWN, stopping running tasks. -/
  | withdraw (h : CmdHdr) (jobTag : Word)
  /-- MODE_CHANGE_REQUEST (R370): A write of PWR_MODE.request replans every stream for the new mode. -/
  | modeChangeRequest (src : BusSource) (mode : Fin 4)
  /-- MODE_REPLAN_DONE (R370): Replanning ends; a failure refuses the change with MODE_REFUSED, success stops jobs and streams. -/
  | modeReplanDone
  /-- MODE_CLOCK_SWITCH (R370): When every stream has stopped, ACLK relocks, DRAM changes rate and new plans are installed. -/
  | modeClockSwitch
  /-- MODE_CHANGED (R370): When every stream is ACTIVE again, PWR_MODE shows the new mode and MODE_CHANGED is raised. -/
  | modeChanged
  /-- THERMAL_CAP_UPDATE (R371): Every 100 ms the PMC recomputes the cap in force and the fox's T_limit. -/
  | thermalCapUpdate
  /-- PLAN_OVER_CAP (R373): While plans exceed the cap PLAN_OVER_CAP is raised once a second. -/
  | planOverCap
  /-- SYS_ADM_CNT_CLR (R374): Writing SYS_ADM_CNT_CLR clears the selected admission counters. -/
  | sysAdmCntClr (src : BusSource) (mask : Word)
  /-- YWP_FRAME_DISCARD (R378): A short, misaddressed, reserved-type or wrong-direction YWP frame is silently discarded. -/
  | ywpFrameDiscard (port : Fin 2) (frame : List Byte)
  /-- ARP_REQUEST (R375): An ARP request for the module's address is answered. -/
  | arpRequest (port : Fin 2) (target sender : Word)
  /-- NET_RX_FRAME (R16): A received frame is classed and queued, or dropped when too long or when the receive queue is full. -/
  | netRxFrame (port : Fin 2) (frame : RxFrame)
  /-- ATTACH (R382): An ATTACH message is queued, or answered with NOT_READY, BUSY or SESSION_LIMIT. -/
  | attach (m : Hdr) (payload : List Byte)
  /-- ATTACH_SERVE (R383): A waiting ATTACH is served: version agreed, rings checked and probed, and a session made. -/
  | attachServe (probe : Remote)
  /-- DETACH (R385): A host DETACH ends its session and is answered once R344 has been applied. -/
  | detach (m : Hdr) (payload : List Byte)
  /-- KEEPALIVE (R385): KEEPALIVE refreshes the session and is answered with the NOTIFY payload. -/
  | keepalive (m : Hdr) (payload : List Byte)
  /-- SESSION_KEEPALIVE_TIMEOUT (R385): Nothing received for 3 × keepalive_ms ends the session with a DETACH. -/
  | sessionKeepaliveTimeout (session : Fin 256)
  /-- REG_ACCESS (R406): REG_ACCESS executes up to 32 register reads and writes in order and journals the writes. -/
  | regAccess (m : Hdr) (payload : List Byte)
  /-- DOORBELL (R389): DOORBELL advances ring counts and supplies inline submission entries. -/
  | doorbell (m : Hdr) (payload : List Byte)
  /-- SUBMISSION_ENTRY_TAKE (R390): The module reads and takes a submission entry from a session when completion room allows. -/
  | submissionEntryTake (session : Fin 256) (entry : Remote)
  /-- NOP (R393): The NOP command completes at once with OK. -/
  | nop (h : CmdHdr)
  /-- RESERVED_OPCODE (R393): A submission entry with a reserved opcode completes with REFUSED. -/
  | reservedOpcode (h : CmdHdr) (opcode : Byte)
  /-- LOAD_PKG (R395): LOAD_PKG checks a package and its signature and returns a package handle or a loader error. -/
  | loadPkg (h : CmdHdr) (region : Word) (offset size : W64)
  /-- UNLOAD_PKG (R395): UNLOAD_PKG unloads a package not named by a stream or job. -/
  | unloadPkg (h : CmdHdr) (package : Word)
  /-- SET_EVENTS (R393): SET_EVENTS replaces the session's event mask. -/
  | setEvents (h : CmdHdr) (mask : Word)
  /-- COMPLETION_WRITE (R399): A completion waiting for a free completion entry is written once room appears. -/
  | completionWrite (session : Fin 256)
  /-- EVENTS_LOST (R405): When 2 event entries are free again, one EVENTS_LOST carrying the count is written. -/
  | eventsLost (session : Fin 256)
  /-- NOTIFY (R391): After a written entry is acknowledged, NOTIFY sends the ring counts at most once per notify_us. -/
  | notify (session : Fin 256)
  /-- JOURNAL_READ (R408): JOURNAL_READ returns up to 16 change journal entries. -/
  | journalRead (m : Hdr) (payload : List Byte)
  /-- WAKE (R411): WAKE starts a wake from STANDBY on an enabled port, or is answered per state. -/
  | wake (m : WakeMsg)
  /-- WIN_WRITE (R429): A WIN_WRITE to an exported window is checked and applied, and answered after acknowledgement. -/
  | winWrite (m : Hdr) (payload : List Byte)
  /-- WIN_READ (R429): A WIN_READ is checked and answered with the data. -/
  | winRead (m : Hdr) (payload : List Byte)
  /-- WIN_SYNC (R432): A WIN_SYNC signals or adds to an object of the window's range, deduplicated by seq. -/
  | winSync (m : Hdr) (payload : List Byte)
  /-- WIN_CREDIT (R436): A WIN_CREDIT updates a multicast receiver's applied and limit, or marks it dropped. -/
  | winCredit (m : Hdr) (payload : List Byte)
  /-- WIN_BIND (R430): WIN_BIND BIND probes receivers and binds a free local window, returning a binding handle. -/
  | winBind (m : Hdr) (payload : List Byte) (probes : List Probe)
  /-- WIN_UNBIND (R430): WIN_BIND UNBIND stops new accesses to a local window and frees it once transfers return. -/
  | winUnbind (m : Hdr) (payload : List Byte)
  /-- WIN_REFRESH (R430): WIN_BIND REFRESH gives the receivers of an existing binding new generations. -/
  | winRefresh (m : Hdr) (payload : List Byte) (probes : List Probe)
  /-- WINDOW_RESPONSE (R432): A response to a sent window message completes the remote access. -/
  | windowResponse (m : Hdr) (status : W16) (data : List Byte)
  /-- WIN_RETRY_TIMEOUT (R432): An unanswered window message is resent after retry_100us, or fails as a remote error after the last try. -/
  | winRetryTimeout (node session : W16) (seq : Word)
  /-- MULTICAST_RESEND (R437): A multicast receiver whose applied has not advanced for a retry timeout is resent bytes from applied. -/
  | multicastResend (w : Fin 64) (receiver : Fin 16)
  /-- RECEIVER_DROPPED (R437): A receiver not advancing for credit_timeout_ms is dropped from the transfer with DROPPED credit and an event. -/
  | receiverDropped (w : Fin 64) (receiver : Fin 16)
  /-- WINDOW_OPEN (R427): Setting YWP_EXP_CTL.open opens an exported window. -/
  | windowOpen (src : BusSource) (n : Fin 256) (ctl : Word)
  /-- WINDOW_CLOSE (R428): Clearing YWP_EXP_CTL.open closes the window after accepted writes and advances its generation. -/
  | windowClose (src : BusSource) (n : Fin 256) (ctl : Word)
  /-- TALKER_CONFIG_WRITE (R424): A write of a NET_TLK_ register advances the talker generation, or is refused while an output names it. -/
  | talkerConfigWrite (src : BusSource) (t : Fin 144) (reg : Fin 4) (value : Word)
  /-- NET_TIME_SNAPSHOT (R440): A read of NET_TIME_NS samples the clock and copies its seconds into NET_TIME_SL and NET_TIME_SH. -/
  | netTimeSnapshot (src : BusSource)
  /-- LINK_UP (R413): A port's link comes up and LINK_UP is raised. -/
  | linkUp (port : Fin 2) (fast : Bool)
  /-- LINK_DOWN (R413): A port's link goes down and LINK_DOWN is raised. -/
  | linkDown (port : Fin 2)
  /-- GPTP_SYNC_RECEIVE (R421): A received Sync message updates the offset and may bring the clock to SYNCED. -/
  | gptpSyncReceive (port : Fin 2) (domain : Nat) (offsetNs : Int)
  /-- GPTP_SYNC_TIMEOUT (R421): Sync stopping for 3 intervals on the slave port enters HOLDOVER or switches slave port. -/
  | gptpSyncTimeout (port : Fin 2)
  /-- GPTP_HOLDOVER_EXPIRY (R421): HOLDOVER lasting holdover_s enters UNSYNCED. -/
  | gptpHoldoverExpiry
  /-- GPTP_CLOCK_STEP (R423): An offset above 1 µs steps the clock at the next gate cycle start. -/
  | gptpClockStep
  /-- QBV_CYCLE_START (R417): A gate cycle starts, applying the latest gate control list. -/
  | qbvCycleStart (port : Fin 2)
  /-- PLAN_WINDOW_OPEN (R418): A PLAN window opens and the stream's queued frames are sent. -/
  | planWindowOpen (port : Fin 2) (c : PortId)
  /-- PLAN_WINDOW_END (R415): At a PLAN window's end, plan frames not started are discarded and counted late. -/
  | planWindowEnd (port : Fin 2) (c : PortId)
  /-- NET_CNT_CLR (R440): Writing NET_CNT_CLR clears the selected port counters. -/
  | netCntClr (src : BusSource) (port : Fin 2) (mask : Word)
  /-- YWP_CNT_CLR (R441): Writing YWP_CNT_CLR clears the selected YWP counters. -/
  | ywpCntClr (src : BusSource) (mask : Word)
  /-- START_CONDITION (R443): VIN and EN in range for 50 ms start the module from OFF, leading to power good and boot. -/
  | startCondition (vinMv : Nat)
  /-- SUPPLY_LOW_ENTER (R444): VIN entering 8.0–9.0 V sets LOW and raises SUPPLY_WARNING. -/
  | supplyLowEnter (vinMv : Nat)
  /-- SUPPLY_HIGH_ENTER (R444): VIN entering 60–70 V sets HIGH and raises SUPPLY_WARNING. -/
  | supplyHighEnter (vinMv : Nat)
  /-- HIGH_VOLTAGE_TIMEOUT (R444): VIN above 60 V for more than 1 s enters HOLDUP. -/
  | highVoltageTimeout (vinMv : Nat)
  /-- HOLDUP_ENTER (R447): VIN out of range disconnects the input and runs from the hold-up bus. -/
  | holdupEnter (vinMv : Nat)
  /-- HOLDUP_RECONNECT (R444): VIN returning within 8.0–60 V in HOLDUP reconnects the input. -/
  | holdupReconnect (vinMv : Nat)
  /-- BROWN_OUT (R448): The intermediate bus at 22 V resets every domain and switches the module OFF. -/
  | brownOut
  /-- EN_OFF (R449): EN reading off for 20 ms takes the module to OFF in the orderly way. -/
  | enOff
  /-- REQUEST_RUN (R454): PWR_STATE_REQ target RUN moves the module from IDLE to RUN. -/
  | requestRun (src : BusSource)
  /-- REQUEST_IDLE (R454): PWR_STATE_REQ target IDLE moves RUN to IDLE if no work is running. -/
  | requestIdle (src : BusSource)
  /-- REQUEST_STANDBY (R455): PWR_STATE_REQ target STANDBY starts the orderly entry to STANDBY. -/
  | requestStandby (src : BusSource)
  /-- REQUEST_OFF (R455): PWR_STATE_REQ target OFF starts the orderly entry to OFF. -/
  | requestOff (src : BusSource)
  /-- STANDBY_DRAIN_TIMEOUT (R455): After 50 ms, running job tasks are stopped and DMA channels aborted during entry to STANDBY or OFF. -/
  | standbyDrainTimeout
  /-- POWER_TRANSITION_DONE (R454): A power state transition finishes switching domains and the new state is reached. -/
  | powerTransitionDone
  /-- WAKE_READY (R457): The wake sequence ends, restoring saved state with a new epoch, and READY is reached in IDLE. -/
  | wakeReady
  /-- AUTO_IDLE_SAMPLE (R458): Every 1 ms the PMC samples the RUN to IDLE condition and begins the move after auto_idle_ms. -/
  | autoIdleSample
  /-- POWER_SAMPLE (R460): At 10 kHz VIN and input current are sampled, energy accumulated and job dispatch gated by the cap. -/
  | powerSample (vinMv iinMa : Nat) (rails : Word)
  /-- COLD_PLATE_SAMPLE (R461): Every 10 ms the cold-plate temperature is updated and thermal warnings raised. -/
  | coldPlateSample (bp0 bp1 : Int)
  /-- TEMP_SENSOR_CHECK (R461): Every second the base-plate sensors are checked and a failing one left out. -/
  | tempSensorCheck (bp0 bp1 : Option Int)
  /-- THERMAL_TRIP (R463): Cold plate at 95 °C or die at 125 °C for 1 s enters STANDBY. -/
  | thermalTrip
  /-- HARD_THERMAL_TRIP (R463): The die comparator at 140 °C switches the module OFF at once. -/
  | hardThermalTrip
  /-- ENERGY_SNAPSHOT (R464): A read of PWR_ENERGY_LO copies the high word into PWR_ENERGY_HI. -/
  | energySnapshot (src : BusSource)
  /-- PWR_CNT_CLR (R464): Writing PWR_CNT_CLR clears the selected power counters. -/
  | pwrCntClr (src : BusSource) (mask : Word)
  /-- STATUS (R478): Debug STATUS returns life cycle, level, baseline, failures and identity. -/
  | status (d : DbgHdr)
  /-- PASSWORD (R480): Debug PASSWORD opens OBSERVE in FIELD on a matching password, or counts a failure. -/
  | password (d : DbgHdr) (pw : List Byte)
  /-- CHALLENGE (R481): Debug CHALLENGE returns a fresh nonce for a level. -/
  | challenge (d : DbgHdr) (level : Byte)
  /-- RESPONSE (R481): Debug RESPONSE verifies a signed nonce and opens the level, or starts the FULL zero fill. -/
  | response (d : DbgHdr) (level : Byte) (key signature : List Byte)
  /-- LOCK (R483): Debug LOCK returns the level to the baseline. -/
  | lock (d : DbgHdr)
  /-- REG_READ (R478): Debug REG_READ reads registers as REG_ACCESS does. -/
  | regRead (d : DbgHdr) (payload : List Byte)
  /-- REG_WRITE (R478): Debug REG_WRITE writes registers as REG_ACCESS does. -/
  | regWrite (d : DbgHdr) (payload : List Byte)
  /-- MEM_READ (R478): Debug MEM_READ reads SPM, DRAM or window memory. -/
  | memRead (d : DbgHdr) (addr : W64) (len : Word) (rec : Remote)
  /-- MEM_WRITE (R478): Debug MEM_WRITE writes SPM, DRAM or window memory. -/
  | memWrite (d : DbgHdr) (addr : W64) (data : List Byte)
  /-- SYNC_RESET (R478): Debug SYNC_RESET sets a sync object to a value. -/
  | syncReset (d : DbgHdr) (obj : W16) (value : Word)
  /-- HALT (R479): Debug HALT stops both control pairs or an idle engine position. -/
  | halt (d : DbgHdr) (target : W16)
  /-- RESUME (R479): Debug RESUME restarts halted control pairs or an engine position. -/
  | resume (d : DbgHdr) (target : W16)
  /-- TRACE_READ (R478): Debug TRACE_READ returns entries of the event trace. -/
  | traceRead (d : DbgHdr) (start : Word) (max : Byte)
  /-- DEBUG_JOURNAL_READ (R478): Debug JOURNAL_READ returns change journal entries. -/
  | debugJournalRead (d : DbgHdr) (start : Word) (max : Byte)
  /-- ATTEST (R473): Debug ATTEST returns a report signed with the identity key over the nonce. -/
  | attest (d : DbgHdr) (nonce : List Byte)
  /-- IDENTITY (R472): Debug IDENTITY returns the device ID and identity public key. -/
  | identity (d : DbgHdr)
  /-- PROVISION (R467): Debug PROVISION burns owner and password data, generates the identity key and moves BLANK to OPEN. -/
  | provision (d : DbgHdr) (ownerHash salt pwHash : List Byte) (floor : Byte)
  /-- LIFECYCLE (R466): Debug LIFECYCLE burns a life-cycle change that takes effect at the next boot. -/
  | lifecycle (d : DbgHdr) (target : Byte)
  /-- SET_PASSWORD (R480): Debug SET_PASSWORD writes the next free password slot. -/
  | setPassword (d : DbgHdr) (salt hash : List Byte)
  /-- DEBUG_RESERVED_OP (R478): A DEBUG request with a reserved op completes with REFUSED. -/
  | debugReservedOp (d : DbgHdr) (op : Byte)
  /-- DEBUG_FRAME_DISCARD (R477): A UART or DBGMSG debug frame with a bad CRC is discarded. -/
  | debugFrameDiscard (frame : List Byte)
  /-- NONCE_EXPIRY (R481): A challenge nonce becomes invalid after 30 s. -/
  | nonceExpiry
  /-- BACKOFF_EXPIRY (R482): The authentication back-off ends and PASSWORD and RESPONSE are served again. -/
  | backoffExpiry
  /-- ZERO_FILL_DONE (R484): When all regions and SPM are zero, FULL opens, ZERO_FILL_DONE is raised and rings resume. -/
  | zeroFillDone
  /-- DBG_CNT_CLR (R492): Writing DBG_CNT_CLR clears the selected debug counters. -/
  | dbgCntClr (src : BusSource) (mask : Word)
  /-- SYS_RESET (R496): A write of SYS_RESET with key 0xB007 and go makes a system reset when no stream is admitted. -/
  | sysReset (src : BusSource) (value : Word)
  /-- TAP_RESET (R494): TRST_N or five TCK cycles with TMS high reset the TAP controller. -/
  | tapReset
  /-- DRAM_TRAINING_DONE (R317): DRAM training from the stored record or in full completes, storing a new record when trained. -/
  | dramTrainingDone (recordOk : Bool) (dieTemp : Int) (ms : Nat)
  /-- FIRMWARE_VERIFIED (R470): Slot verification ends: a passing slot starts the PMC firmware, otherwise boot failure. -/
  | firmwareVerified (a b : SlotImage)
  /-- CP_SELF_TEST_DONE (R498): The control pairs' start-up self-test ends and firmware initialises the module. -/
  | cpSelfTestDone (cp0 cp1 settingsOk : Bool)
  /-- BOOT_READY (R499): Boot reaches READY in IDLE and serves waiting ATTACH requests. -/
  | bootReady
  /-- CONTROL_MISMATCH (R507): A lockstep compare mismatch stops a control pair and the other pair takes over its duties. -/
  | controlMismatch (pair : Fin 2)
  /-- CONTROL_WATCHDOG (R507): A control pair's watchdog expires, stopping it, with takeover by the other pair. -/
  | controlWatchdog (pair : Fin 2)
  /-- CP_RESUME_DUTIES (R507): 10 ms after its fault a recovered pair takes back its duties, or is OFFLINE. -/
  | cpResumeDuties (pair : Fin 2) (pass : Bool)
  /-- STORM_COUNT_CLEAR (R497): 60 s without a CONTROL_FAULT boot clears the storm count. -/
  | stormCountClear
  /-- FAULT_LOG_FLUSH (R510): Logged faults are written to flash in a batch at most every 100 ms. -/
  | faultLogFlush (ok : Bool)
  /-- FLOG_INDEX_SELECT (R510): A write of SYS_FLOG_IDX.index copies that fault-log entry into SYS_FLOG_DATA0–7. -/
  | flogIndexSelect (src : BusSource) (value : Word)
  /-- FLOG_CLEAR (R510): A write of SYS_FLOG_IDX.clear empties the fault log from debug at FULL, else AUTH_FAILED. -/
  | flogClear (src : BusSource)
  /-- SYS_FLT_CNT_CLR (R512): Writing SYS_FLT_CNT_CLR clears the selected fault-class counters. -/
  | sysFltCntClr (src : BusSource) (mask : Word)
  /-- SUPPLY_NORMAL (R444): VIN returning into 9.0–60 V from LOW or HIGH restores the NORMAL condition in PWR_SUPPLY_STAT. -/
  | supplyNormal (vinMv : Nat)
  /-- SUPPLY_LOST (R454): VIN falling below 4 V clears the input stage's held state, so off_cause reads POWER_ON and a module that was requested OFF may start again. -/
  | supplyLost
  /-- PER_BANK_REFRESH (R317): Each DRAM channel periodically refreshes its banks in slots that the fox does not book. -/
  | perBankRefresh (ch : Fin 16) (bank : Fin 16)
  /-- PREEMPTION_VERIFICATION (R420): The IEEE 802.3br verification with the link partner completes and sets NET_PORT_STAT.preempt_active, which enables preemption of preemptable classes. -/
  | preemptionVerification (port : Fin 2) (ok : Bool)
  /-- SEQUENCE_RECOVERY_RESET (R420): An IEEE 802.1CB vector recovery stream resets its history after 100 ms without frames. -/
  | sequenceRecoveryReset (stream : Fin 128)
  /-- PEER_DELAY_MEASUREMENT (R420): Each port periodically makes its IEEE 802.1AS peer-to-peer delay measurement with its link partner. -/
  | peerDelayMeasurement (port : Fin 2) (delayNs : Nat)
  /-- EXTEST (R479): The JTAG EXTEST instruction drives the boundary-scan pins at FULL, and is decoded as BYPASS while any stream is admitted.
  The operand is the instruction that the TAP takes: the others of R476 come by the same register. -/
  | extest (d : DbgHdr) (instruction : TapInstr)
deriving DecidableEq, Repr

end Sys2Proof
end

