-- ==== Sys2Proof/Decode.lean ====
section
/-!
DEFINITION. The decoder of the command table. The block takes commands and fetches none: no row of spec/opcode_table.json
has bits, so no word spells a command (assumption log 1).
-/
namespace Sys2Proof

/-- The command that a word spells by the table's bits: none, since the table gives no row any. -/
def decodeTableWord (_nbits _w : Nat) : Option Instr := none

end Sys2Proof
end

