-- ==== Sys2Proof/Config.lean ====
section
/-!
DEFINITION. The free values: what the spec leaves open. Every one is a constant without a body, so that nothing can be
proved about its value; a statement about the machine holds for every value. Each is applied to the operands it depends
on, or to the counter `Module.draws` of the state, which advances with each draw (assumption log 2).
-/
namespace Sys2Proof.Config

/-- Nanoseconds that pass on the 802.1AS clock between two samples of it (R3, R421; assumption log 3). -/
opaque elapsedNs : Nat → Nat

/-- The n-th draw of the random source: epochs, generations, retry times, nonces (R378, R410, R428, R481). -/
opaque random : Nat → Nat

/-- The n-th free choice among alternatives the spec allows (a placement, a lane, an engine; R281, R67, R366). -/
opaque choice : Nat → Nat

/-- The n-th value the spec does not state (assumption log 2). -/
opaque value : Nat → Word

/-- SHA-384 (R469 to R475; assumption log 6): the standard is named, not restated, by the spec. -/
opaque sha384 : List Byte → List Byte

/-- ECDSA on brainpoolP384r1: whether a signature verifies for key and hash (R470, R474, R481; log 6). -/
opaque ecdsaVerify : (key hash signature : List Byte) → Bool

/-- ECDSA on brainpoolP384r1: the signature the SC makes with its private key over a hash (R473; log 6). -/
opaque ecdsaSign : (identity hash : List Byte) → List Byte

/-- The identity public key that the SC generates at PROVISION (R467; log 6). -/
opaque identityKey : Nat → List Byte

/-- Results of the RFU functions that the spec bounds and does not fix, by function code and operand (R179: 9 RECIP to 15
GELU); the functions take it where it lies within the bound. -/
opaque rfu : (fn : Nat) → Word → Word

/-- The NaN that an RFU function gives for its operands (R179; log 2). -/
opaque rfuNan : Word → Word → Word → Word

/-- Which of two zeros of opposite sign MIN and MAX give (R179; log 2). -/
opaque zeroPick : Word → Word → Bool

/-- The element that an MX store writes for a NaN or an infinity in a block of scale 255 (R178; log 2). -/
opaque mxElem : (fmt : Nat) → Word → Nat

/-- A point of an RFU table that no TLOAD of the task has loaded (R182; log 2). -/
opaque tablePoint : Nat → Word

/-- Which values a sum of more than two FP32 values adds next: the order of its additions is open (R131, R253; log 21). -/
opaque sumPick : Nat → Nat

/-- Programs, address programs and weights of the resident picture stages 8 to 11 and what they declare (R117; the
firmware image holds them; log 21): instruction words, bytes of an address program each, bytes. -/
opaque residentCode : Nat → List Nat
opaque residentAps : Nat → List (List Byte)
opaque residentParams : Nat → List Byte

/-- What the networks of the resident picture stages form (R120; log 79), by what the stage reads, and the row, column and
channel: the signed residual of residual demosaic; the merged value of HDR merge; denoise's spatial estimate at a strength
and the weight of its history; tone's local gain at a strength. Values are FP32 but for the residual. -/
opaque netResidual : (input : List Byte) → (row col ch : Nat) → Int
opaque netMerge : (scaled : List (Nat × List Nat)) → (row col ch : Nat) → Word
opaque netSpatial : (strength : Nat) → (input : List Byte) → (row col ch : Nat) → Word
opaque netWeight : (input history : List Byte) → (row col : Nat) → Word
opaque netGain : (strength : Nat) → (input : List Byte) → (row col : Nat) → Word

/-- How many columns sideways a user picture stage reaches: how the fox tells is not stated (R118; log 80). -/
opaque sideReach : (code : List Nat) → Nat

/-- Values that the resident library leaves open (R232; log 22): by what is open, what the call reads, and a number. -/
opaque libValue : (what : Nat) → (inputs : List Byte) → (i : Nat) → Word

/-- Where an output pixel of RESIZE samples its input along an axis (R232; log 22): the sizes and the output index give the
first input index and the weight of the next. -/
opaque resizeAt : (input output i : Nat) → Nat × Word

/-- The loader finds that an accumulator range which a variant derives from its shapes at their maxima leaves the
limits (R236; log 27): by the variant's instructions and the maxima. -/
opaque derivedLimit : (code : List Nat) → (maxima : List Nat) → Bool

/-- DRAM units that a task reads and writes, by its program, which of its memory lies in DRAM, and all units that it touches
(R247, R249; log 29). -/
opaque dramTouched : (code : List Nat) → (inDram : List Bool) → (units : Nat) → Nat × Nat

/-- ACLK cycles that a task of a resident picture stage takes, output formatting being stage 12, by its pixels (R356; log
29). -/
opaque residentCycles : (stage pixels : Nat) → Nat

/-- The DISP code of a NaN, by the NaN (R121; log 84). -/
opaque nanCode : Nat → Nat

/-- Fields of the IPv4 packets that the module sends which the spec leaves open: identification, TTL, UDP source port, and
whether a UDP checksum is sent (R375; log 86). -/
opaque ipField : Nat → Nat

/-- The MAC address behind an IPv4 address, as the network tells it (R375; log 86). -/
opaque arpMac : Nat → Nat

/-- The resident library in a firmware image, by the hash of its headers: instructions and address programs (R193; log 22). -/
opaque libraryImage : (hash : List Byte) → List Nat × List (List Byte)

/-- Codes of IEEE 1722 for an output format: event bits, and depth, pixel format, rate, colour space and sequence of the RVF
header (R425; log 86). -/
opaque rvfCode : (format part : Nat) → Nat

end Sys2Proof.Config
end

