-- ==== Sys2Proof/Machine/Regs.lean ====
section
/-!
DEFINITION. The register map: where every register of the spec lies in register space, its fields, and for each
field its access code, reset value and the values a write may set (R9, R26, R27, R526). One row per register
table of spec/; the docstring of each offset names its rule. A reset the spec gives as "boot", "OTP", "stored" or
"start value" stands as 0 here (assumption log 4).
-/
namespace Sys2Proof


/-- SYS_ID, 01_organisation.md R34. -/
def SYS_ID : Nat := 0x000000
def SYS_ID_part : Bits := ⟨31, 16⟩
def SYS_ID_issue : Bits := ⟨15, 8⟩
def SYS_ID_generation : Bits := ⟨7, 4⟩
/-- SYS_FEAT_ENG, 01_organisation.md R34. -/
def SYS_FEAT_ENG : Nat := 0x000010
def SYS_FEAT_ENG_mac_cols : Bits := ⟨30, 24⟩
def SYS_FEAT_ENG_mac_rows : Bits := ⟨23, 17⟩
def SYS_FEAT_ENG_engines_per_cluster : Bits := ⟨16, 12⟩
def SYS_FEAT_ENG_clusters : Bits := ⟨11, 8⟩
def SYS_FEAT_ENG_engines_physical : Bits := ⟨7, 0⟩
/-- SYS_FEAT_MEM, 01_organisation.md R34. -/
def SYS_FEAT_MEM : Nat := 0x000014
def SYS_FEAT_MEM_dram_gib : Bits := ⟨23, 16⟩
def SYS_FEAT_MEM_spm_mib : Bits := ⟨15, 0⟩
/-- SYS_FEAT_FMT, 01_organisation.md R34. -/
def SYS_FEAT_FMT : Nat := 0x000018
def SYS_FEAT_FMT_mxfp4 : Bits := ⟨8, 8⟩
def SYS_FEAT_FMT_mxfp6 : Bits := ⟨7, 7⟩
def SYS_FEAT_FMT_mxfp8 : Bits := ⟨6, 6⟩
def SYS_FEAT_FMT_mxint8 : Bits := ⟨5, 5⟩
def SYS_FEAT_FMT_bf16 : Bits := ⟨4, 4⟩
def SYS_FEAT_FMT_fp8_e5m2 : Bits := ⟨3, 3⟩
def SYS_FEAT_FMT_fp8_e4m3 : Bits := ⟨2, 2⟩
def SYS_FEAT_FMT_int4 : Bits := ⟨1, 1⟩
def SYS_FEAT_FMT_int8 : Bits := ⟨0, 0⟩
/-- SYS_FEAT_IO, 01_organisation.md R34. -/
def SYS_FEAT_IO : Nat := 0x00001C
def SYS_FEAT_IO_sessions_max : Bits := ⟨24, 16⟩
def SYS_FEAT_IO_net_ports : Bits := ⟨15, 12⟩
def SYS_FEAT_IO_lanes : Bits := ⟨11, 8⟩
def SYS_FEAT_IO_ports : Bits := ⟨7, 0⟩
/-- SYS_FEAT_CTL, 01_organisation.md R34. -/
def SYS_FEAT_CTL : Nat := 0x000020
def SYS_FEAT_CTL_addr_slots : Bits := ⟨27, 24⟩
def SYS_FEAT_CTL_loop_levels : Bits := ⟨23, 20⟩
def SYS_FEAT_CTL_chain_stages : Bits := ⟨19, 16⟩
def SYS_FEAT_CTL_sync_objects : Bits := ⟨15, 0⟩
/-- SYS_LIB_VER, 01_organisation.md R34. -/
def SYS_LIB_VER : Nat := 0x000024
def SYS_LIB_VER_major : Bits := ⟨31, 24⟩
def SYS_LIB_VER_minor : Bits := ⟨23, 16⟩
def SYS_LIB_VER_build : Bits := ⟨15, 0⟩
/-- SYS_FW_VER, 01_organisation.md R34. -/
def SYS_FW_VER : Nat := 0x000028
def SYS_FW_VER_major : Bits := ⟨31, 24⟩
def SYS_FW_VER_minor : Bits := ⟨23, 16⟩
def SYS_FW_VER_build : Bits := ⟨15, 0⟩
/-- SYS_ADM_STAT, 12_admission_modes.md R374. -/
def SYS_ADM_STAT : Nat := 0x000100
def SYS_ADM_STAT_mode : Bits := ⟨29, 28⟩
def SYS_ADM_STAT_changing : Bits := ⟨27, 27⟩
def SYS_ADM_STAT_jobs : Bits := ⟨26, 16⟩
def SYS_ADM_STAT_streams : Bits := ⟨5, 0⟩
/-- SYS_ADM_POWER, 12_admission_modes.md R374. -/
def SYS_ADM_POWER : Nat := 0x000104
def SYS_ADM_POWER_cap_dw : Bits := ⟨31, 16⟩
def SYS_ADM_POWER_planned_dw : Bits := ⟨15, 0⟩
/-- SYS_ADM_REPORT, 12_admission_modes.md R374. -/
def SYS_ADM_REPORT : Nat := 0x000108
def SYS_ADM_REPORT_handle : Bits := ⟨31, 0⟩
/-- SYS_ADM_CNT_REFUSED, 12_admission_modes.md R374. -/
def SYS_ADM_CNT_REFUSED : Nat := 0x000110
def SYS_ADM_CNT_REFUSED_count : Bits := ⟨31, 0⟩
/-- SYS_ADM_CNT_EXPIRED, 12_admission_modes.md R374. -/
def SYS_ADM_CNT_EXPIRED : Nat := 0x000114
def SYS_ADM_CNT_EXPIRED_count : Bits := ⟨31, 0⟩
/-- SYS_ADM_CNT_PREEMPT, 12_admission_modes.md R374. -/
def SYS_ADM_CNT_PREEMPT : Nat := 0x000118
def SYS_ADM_CNT_PREEMPT_count : Bits := ⟨31, 0⟩
/-- SYS_ADM_CNT_MISSED, 12_admission_modes.md R374. -/
def SYS_ADM_CNT_MISSED : Nat := 0x00011C
def SYS_ADM_CNT_MISSED_count : Bits := ⟨31, 0⟩
/-- SYS_ADM_CNT_CLR, 12_admission_modes.md R374. -/
def SYS_ADM_CNT_CLR : Nat := 0x000120
def SYS_ADM_CNT_CLR_clear : Bits := ⟨3, 0⟩
/-- SYS_BOOT_STAT, 17_boot_reset_faults.md R512. -/
def SYS_BOOT_STAT : Nat := 0x000200
def SYS_BOOT_STAT_backoff_default : Bits := ⟨11, 11⟩
def SYS_BOOT_STAT_settings_default : Bits := ⟨10, 10⟩
def SYS_BOOT_STAT_halted : Bits := ⟨9, 9⟩
def SYS_BOOT_STAT_ready : Bits := ⟨8, 8⟩
def SYS_BOOT_STAT_storm : Bits := ⟨5, 4⟩
def SYS_BOOT_STAT_cause : Bits := ⟨2, 0⟩
/-- SYS_RESET, 17_boot_reset_faults.md R512. -/
def SYS_RESET : Nat := 0x000204
def SYS_RESET_key : Bits := ⟨31, 16⟩
def SYS_RESET_go : Bits := ⟨0, 0⟩
/-- SYS_CP_STAT, 17_boot_reset_faults.md R512. -/
def SYS_CP_STAT : Nat := 0x000208
def SYS_CP_STAT_faults : Bits := ⟨15, 8⟩
def SYS_CP_STAT_cp1 : Bits := ⟨5, 4⟩
def SYS_CP_STAT_cp0 : Bits := ⟨1, 0⟩
/-- SYS_FLT_CNT, 17_boot_reset_faults.md R512. -/
def SYS_FLT_CNT (i : Nat) : Nat := 0x000210 + i * 0x4
def SYS_FLT_CNT_count : Bits := ⟨31, 0⟩
/-- SYS_FLT_CNT_CLR, 17_boot_reset_faults.md R512. -/
def SYS_FLT_CNT_CLR : Nat := 0x000250
def SYS_FLT_CNT_CLR_clear : Bits := ⟨15, 0⟩
/-- SYS_FLOG_IDX, 17_boot_reset_faults.md R512. -/
def SYS_FLOG_IDX : Nat := 0x000260
def SYS_FLOG_IDX_clear : Bits := ⟨31, 31⟩
def SYS_FLOG_IDX_count : Bits := ⟨24, 16⟩
def SYS_FLOG_IDX_index : Bits := ⟨7, 0⟩
/-- SYS_FLOG_DATA, 17_boot_reset_faults.md R512. -/
def SYS_FLOG_DATA (i : Nat) : Nat := 0x000270 + i * 0x4
def SYS_FLOG_DATA_data : Bits := ⟨31, 0⟩
/-- CAP_PORT_CFG, 02_camera_ports.md R65. -/
def CAP_PORT_CFG (i : Nat) : Nat := 0x010000 + i * 0x1000
def CAP_PORT_CFG_strobe_pol : Bits := ⟨15, 15⟩
def CAP_PORT_CFG_strobe_en : Bits := ⟨14, 14⟩
def CAP_PORT_CFG_pclk_edge : Bits := ⟨13, 13⟩
def CAP_PORT_CFG_vsync_pol : Bits := ⟨12, 12⟩
def CAP_PORT_CFG_hsync_pol : Bits := ⟨11, 11⟩
def CAP_PORT_CFG_vsync_mode : Bits := ⟨10, 10⟩
def CAP_PORT_CFG_hsync_mode : Bits := ⟨9, 9⟩
def CAP_PORT_CFG_mosaic : Bits := ⟨8, 6⟩
def CAP_PORT_CFG_width : Bits := ⟨5, 3⟩
def CAP_PORT_CFG_ddr : Bits := ⟨2, 2⟩
def CAP_PORT_CFG_signalling : Bits := ⟨1, 1⟩
def CAP_PORT_CFG_enable : Bits := ⟨0, 0⟩
/-- CAP_PORT_STATE, 02_camera_ports.md R65. -/
def CAP_PORT_STATE (i : Nat) : Nat := 0x010004 + i * 0x1000
def CAP_PORT_STATE_mismatch_run : Bits := ⟨9, 8⟩
def CAP_PORT_STATE_drift : Bits := ⟨7, 7⟩
def CAP_PORT_STATE_signal_lost : Bits := ⟨6, 6⟩
def CAP_PORT_STATE_in_frame : Bits := ⟨5, 5⟩
def CAP_PORT_STATE_trained : Bits := ⟨4, 4⟩
def CAP_PORT_STATE_state : Bits := ⟨2, 0⟩
/-- CAP_GEOM, 02_camera_ports.md R65. -/
def CAP_GEOM (i : Nat) : Nat := 0x010008 + i * 0x1000
def CAP_GEOM_height : Bits := ⟨31, 16⟩
def CAP_GEOM_width : Bits := ⟨15, 0⟩
/-- CAP_GEOM_OFS, 02_camera_ports.md R65. -/
def CAP_GEOM_OFS (i : Nat) : Nat := 0x01000C + i * 0x1000
def CAP_GEOM_OFS_v_offset : Bits := ⟨31, 16⟩
def CAP_GEOM_OFS_h_offset : Bits := ⟨15, 0⟩
/-- CAP_PAD, 02_camera_ports.md R65. -/
def CAP_PAD (i : Nat) : Nat := 0x010010 + i * 0x1000
def CAP_PAD_value : Bits := ⟨15, 0⟩
/-- CAP_FRAME_PERIOD, 02_camera_ports.md R65. -/
def CAP_FRAME_PERIOD (i : Nat) : Nat := 0x010014 + i * 0x1000
def CAP_FRAME_PERIOD_period : Bits := ⟨31, 0⟩
/-- CAP_SENSOR_CTL, 02_camera_ports.md R65. -/
def CAP_SENSOR_CTL (i : Nat) : Nat := 0x010018 + i * 0x1000
def CAP_SENSOR_CTL_rst_settle_us : Bits := ⟨31, 16⟩
def CAP_SENSOR_CTL_rst_low_us : Bits := ⟨15, 0⟩
/-- CAP_MEAS_SEQ, 02_camera_ports.md R65. -/
def CAP_MEAS_SEQ (i : Nat) : Nat := 0x010020 + i * 0x1000
def CAP_MEAS_SEQ_seq : Bits := ⟨31, 0⟩
/-- CAP_MEAS_LINE, 02_camera_ports.md R65. -/
def CAP_MEAS_LINE (i : Nat) : Nat := 0x010024 + i * 0x1000
def CAP_MEAS_LINE_max_width : Bits := ⟨31, 16⟩
def CAP_MEAS_LINE_min_width : Bits := ⟨15, 0⟩
/-- CAP_MEAS_FRAME, 02_camera_ports.md R65. -/
def CAP_MEAS_FRAME (i : Nat) : Nat := 0x010028 + i * 0x1000
def CAP_MEAS_FRAME_strobe_ovf : Bits := ⟨24, 24⟩
def CAP_MEAS_FRAME_late_write : Bits := ⟨23, 23⟩
def CAP_MEAS_FRAME_early_dropped : Bits := ⟨22, 22⟩
def CAP_MEAS_FRAME_signal_lost : Bits := ⟨21, 21⟩
def CAP_MEAS_FRAME_overrun : Bits := ⟨20, 20⟩
def CAP_MEAS_FRAME_long_lines : Bits := ⟨19, 19⟩
def CAP_MEAS_FRAME_short_lines : Bits := ⟨18, 18⟩
def CAP_MEAS_FRAME_long : Bits := ⟨17, 17⟩
def CAP_MEAS_FRAME_short : Bits := ⟨16, 16⟩
def CAP_MEAS_FRAME_lines : Bits := ⟨15, 0⟩
/-- CAP_MEAS_PERIOD, 02_camera_ports.md R65. -/
def CAP_MEAS_PERIOD (i : Nat) : Nat := 0x01002C + i * 0x1000
def CAP_MEAS_PERIOD_period : Bits := ⟨31, 0⟩
/-- CAP_MEAS_LPERIOD, 02_camera_ports.md R65. -/
def CAP_MEAS_LPERIOD (i : Nat) : Nat := 0x010030 + i * 0x1000
def CAP_MEAS_LPERIOD_max : Bits := ⟨31, 16⟩
def CAP_MEAS_LPERIOD_min : Bits := ⟨15, 0⟩
/-- CAP_MEAS_BLANK, 02_camera_ports.md R65. -/
def CAP_MEAS_BLANK (i : Nat) : Nat := 0x010034 + i * 0x1000
def CAP_MEAS_BLANK_hblank_min : Bits := ⟨15, 0⟩
/-- CAP_MEAS_VBLANK, 02_camera_ports.md R65. -/
def CAP_MEAS_VBLANK (i : Nat) : Nat := 0x010038 + i * 0x1000
def CAP_MEAS_VBLANK_vblank : Bits := ⟨31, 0⟩
/-- CAP_CNT_SHORT_FRAME, 02_camera_ports.md R65. -/
def CAP_CNT_SHORT_FRAME (i : Nat) : Nat := 0x010040 + i * 0x1000
def CAP_CNT_SHORT_FRAME_count : Bits := ⟨31, 0⟩
/-- CAP_CNT_LONG_FRAME, 02_camera_ports.md R65. -/
def CAP_CNT_LONG_FRAME (i : Nat) : Nat := 0x010044 + i * 0x1000
def CAP_CNT_LONG_FRAME_count : Bits := ⟨31, 0⟩
/-- CAP_CNT_SHORT_LINE, 02_camera_ports.md R65. -/
def CAP_CNT_SHORT_LINE (i : Nat) : Nat := 0x010048 + i * 0x1000
def CAP_CNT_SHORT_LINE_count : Bits := ⟨31, 0⟩
/-- CAP_CNT_LONG_LINE, 02_camera_ports.md R65. -/
def CAP_CNT_LONG_LINE (i : Nat) : Nat := 0x01004C + i * 0x1000
def CAP_CNT_LONG_LINE_count : Bits := ⟨31, 0⟩
/-- CAP_CNT_EARLY_DROP, 02_camera_ports.md R65. -/
def CAP_CNT_EARLY_DROP (i : Nat) : Nat := 0x010050 + i * 0x1000
def CAP_CNT_EARLY_DROP_count : Bits := ⟨31, 0⟩
/-- CAP_CNT_OVERRUN, 02_camera_ports.md R65. -/
def CAP_CNT_OVERRUN (i : Nat) : Nat := 0x010054 + i * 0x1000
def CAP_CNT_OVERRUN_count : Bits := ⟨31, 0⟩
/-- CAP_CNT_SIGNAL_LOST, 02_camera_ports.md R65. -/
def CAP_CNT_SIGNAL_LOST (i : Nat) : Nat := 0x010058 + i * 0x1000
def CAP_CNT_SIGNAL_LOST_count : Bits := ⟨31, 0⟩
/-- CAP_CNT_BUS_ERROR, 02_camera_ports.md R65. -/
def CAP_CNT_BUS_ERROR (i : Nat) : Nat := 0x01005C + i * 0x1000
def CAP_CNT_BUS_ERROR_count : Bits := ⟨31, 0⟩
/-- CAP_CNT_CLR, 02_camera_ports.md R65. -/
def CAP_CNT_CLR (i : Nat) : Nat := 0x010060 + i * 0x1000
def CAP_CNT_CLR_clear : Bits := ⟨7, 0⟩
/-- CAP_TRAIN_CTL, 02_camera_ports.md R65. -/
def CAP_TRAIN_CTL (i : Nat) : Nat := 0x010070 + i * 0x1000
def CAP_TRAIN_CTL_abort : Bits := ⟨1, 1⟩
def CAP_TRAIN_CTL_start : Bits := ⟨0, 0⟩
/-- CAP_TRAIN_PAT, 02_camera_ports.md R65. -/
def CAP_TRAIN_PAT (i : Nat) : Nat := 0x010074 + i * 0x1000
def CAP_TRAIN_PAT_pattern_b : Bits := ⟨31, 16⟩
def CAP_TRAIN_PAT_pattern_a : Bits := ⟨15, 0⟩
/-- CAP_TRAIN_STAT, 02_camera_ports.md R65. -/
def CAP_TRAIN_STAT (i : Nat) : Nat := 0x010078 + i * 0x1000
def CAP_TRAIN_STAT_min_eye : Bits := ⟨15, 8⟩
def CAP_TRAIN_STAT_line : Bits := ⟨7, 3⟩
def CAP_TRAIN_STAT_result : Bits := ⟨2, 0⟩
/-- CAP_DESKEW, 02_camera_ports.md R65. -/
def CAP_DESKEW (i : Nat) (j : Nat) : Nat := 0x010080 + i * 0x1000 + j * 0x4
def CAP_DESKEW_tap3 : Bits := ⟨30, 24⟩
def CAP_DESKEW_tap2 : Bits := ⟨22, 16⟩
def CAP_DESKEW_tap1 : Bits := ⟨14, 8⟩
def CAP_DESKEW_tap0 : Bits := ⟨6, 0⟩
/-- CAP_DESKEW4, 02_camera_ports.md R65. -/
def CAP_DESKEW4 (i : Nat) : Nat := 0x010090 + i * 0x1000
def CAP_DESKEW4_sync_tap : Bits := ⟨6, 0⟩
/-- CAP_TRIG_CFG, 02_camera_ports.md R65. -/
def CAP_TRIG_CFG (i : Nat) : Nat := 0x0100A0 + i * 0x1000
def CAP_TRIG_CFG_width_us : Bits := ⟨19, 4⟩
def CAP_TRIG_CFG_polarity : Bits := ⟨3, 3⟩
def CAP_TRIG_CFG_allow_free_run : Bits := ⟨2, 2⟩
def CAP_TRIG_CFG_mode : Bits := ⟨1, 0⟩
/-- CAP_TRIG_DIV, 02_camera_ports.md R65. -/
def CAP_TRIG_DIV (i : Nat) : Nat := 0x0100A4 + i * 0x1000
def CAP_TRIG_DIV_div : Bits := ⟨31, 0⟩
/-- CAP_TRIG_PERIOD, 02_camera_ports.md R65. -/
def CAP_TRIG_PERIOD (i : Nat) : Nat := 0x0100A8 + i * 0x1000
def CAP_TRIG_PERIOD_period_ns : Bits := ⟨31, 0⟩
/-- CAP_TRIG_START_NS, 02_camera_ports.md R65. -/
def CAP_TRIG_START_NS (i : Nat) : Nat := 0x0100AC + i * 0x1000
def CAP_TRIG_START_NS_ns : Bits := ⟨31, 0⟩
/-- CAP_TRIG_START_SL, 02_camera_ports.md R65. -/
def CAP_TRIG_START_SL (i : Nat) : Nat := 0x0100B0 + i * 0x1000
def CAP_TRIG_START_SL_s_lo : Bits := ⟨31, 0⟩
/-- CAP_TRIG_START_SH, 02_camera_ports.md R65. -/
def CAP_TRIG_START_SH (i : Nat) : Nat := 0x0100B4 + i * 0x1000
def CAP_TRIG_START_SH_s_hi : Bits := ⟨15, 0⟩
/-- CAP_BUS_CFG, 02_camera_ports.md R65. -/
def CAP_BUS_CFG (i : Nat) : Nat := 0x0100C0 + i * 0x1000
def CAP_BUS_CFG_timeout_us : Bits := ⟨23, 8⟩
def CAP_BUS_CFG_retries : Bits := ⟨7, 6⟩
def CAP_BUS_CFG_pullup : Bits := ⟨5, 5⟩
def CAP_BUS_CFG_i3c_rate : Bits := ⟨4, 2⟩
def CAP_BUS_CFG_protocol : Bits := ⟨1, 0⟩
/-- CAP_SQ_W0, 02_camera_ports.md R65. -/
def CAP_SQ_W0 (i : Nat) : Nat := 0x0100D0 + i * 0x1000
def CAP_SQ_W0_target : Bits := ⟨15, 9⟩
def CAP_SQ_W0_data_bytes : Bits := ⟨8, 6⟩
def CAP_SQ_W0_reg16 : Bits := ⟨5, 5⟩
def CAP_SQ_W0_next : Bits := ⟨4, 4⟩
def CAP_SQ_W0_release : Bits := ⟨3, 2⟩
def CAP_SQ_W0_op : Bits := ⟨1, 0⟩
/-- CAP_SQ_W1, 02_camera_ports.md R65. -/
def CAP_SQ_W1 (i : Nat) : Nat := 0x0100D4 + i * 0x1000
def CAP_SQ_W1_reg : Bits := ⟨15, 0⟩
/-- CAP_SQ_W2, 02_camera_ports.md R65. -/
def CAP_SQ_W2 (i : Nat) : Nat := 0x0100D8 + i * 0x1000
def CAP_SQ_W2_data : Bits := ⟨31, 0⟩
/-- CAP_SQ_W3, 02_camera_ports.md R65. -/
def CAP_SQ_W3 (i : Nat) : Nat := 0x0100DC + i * 0x1000
def CAP_SQ_W3_frame : Bits := ⟨31, 0⟩
/-- CAP_SQ_PUSH, 02_camera_ports.md R65. -/
def CAP_SQ_PUSH (i : Nat) : Nat := 0x0100E0 + i * 0x1000
def CAP_SQ_PUSH_push : Bits := ⟨0, 0⟩
/-- CAP_SQ_STAT, 02_camera_ports.md R65. -/
def CAP_SQ_STAT (i : Nat) : Nat := 0x0100E4 + i * 0x1000
def CAP_SQ_STAT_read_valid : Bits := ⟨12, 12⟩
def CAP_SQ_STAT_last_error : Bits := ⟨11, 9⟩
def CAP_SQ_STAT_fill : Bits := ⟨8, 0⟩
/-- CAP_SQ_RDATA, 02_camera_ports.md R65. -/
def CAP_SQ_RDATA (i : Nat) : Nat := 0x0100E8 + i * 0x1000
def CAP_SQ_RDATA_data : Bits := ⟨31, 0⟩
/-- CAP_MEAS_STAMP_NS, 02_camera_ports.md R66. -/
def CAP_MEAS_STAMP_NS (i : Nat) (j : Nat) : Nat := 0x010100 + i * 0x1000 + j * 0xC
def CAP_MEAS_STAMP_NS_ns : Bits := ⟨31, 0⟩
/-- CAP_MEAS_STAMP_SL, 02_camera_ports.md R66. -/
def CAP_MEAS_STAMP_SL (i : Nat) (j : Nat) : Nat := 0x010104 + i * 0x1000 + j * 0xC
def CAP_MEAS_STAMP_SL_s_lo : Bits := ⟨31, 0⟩
/-- CAP_MEAS_STAMP_SH, 02_camera_ports.md R66. -/
def CAP_MEAS_STAMP_SH (i : Nat) (j : Nat) : Nat := 0x010108 + i * 0x1000 + j * 0xC
def CAP_MEAS_STAMP_SH_present : Bits := ⟨17, 17⟩
def CAP_MEAS_STAMP_SH_valid : Bits := ⟨16, 16⟩
def CAP_MEAS_STAMP_SH_s_hi : Bits := ⟨15, 0⟩
/-- FE_CROP_XY, 03_contexts_front_end.md R107. -/
def FE_CROP_XY (i : Nat) : Nat := 0x040000 + i * 0x400
def FE_CROP_XY_y0 : Bits := ⟨31, 16⟩
def FE_CROP_XY_x0 : Bits := ⟨15, 0⟩
/-- FE_CROP_WH, 03_contexts_front_end.md R107. -/
def FE_CROP_WH (i : Nat) : Nat := 0x040004 + i * 0x400
def FE_CROP_WH_h : Bits := ⟨31, 16⟩
def FE_CROP_WH_w : Bits := ⟨15, 0⟩
/-- FE_EXP_CFG, 03_contexts_front_end.md R107. -/
def FE_EXP_CFG (i : Nat) : Nat := 0x040008 + i * 0x400
def FE_EXP_CFG_gain_unit : Bits := ⟨31, 16⟩
def FE_EXP_CFG_tpl_count : Bits := ⟨8, 5⟩
def FE_EXP_CFG_awb_en : Bits := ⟨4, 4⟩
def FE_EXP_CFG_ae_en : Bits := ⟨3, 3⟩
def FE_EXP_CFG_ne : Bits := ⟨1, 0⟩
/-- FE_STAT_CFG, 03_contexts_front_end.md R107. -/
def FE_STAT_CFG (i : Nat) : Nat := 0x04000C + i * 0x400
def FE_STAT_CFG_sync_obj : Bits := ⟨28, 16⟩
def FE_STAT_CFG_slots : Bits := ⟨15, 8⟩
def FE_STAT_CFG_sync_en : Bits := ⟨2, 2⟩
def FE_STAT_CFG_notify : Bits := ⟨1, 1⟩
def FE_STAT_CFG_en : Bits := ⟨0, 0⟩
/-- FE_STAT_DEST, 03_contexts_front_end.md R107. -/
def FE_STAT_DEST (i : Nat) : Nat := 0x040010 + i * 0x400
def FE_STAT_DEST_region : Bits := ⟨31, 0⟩
/-- FE_EXP_TPL, 03_contexts_front_end.md R107. -/
def FE_EXP_TPL (i : Nat) (j : Nat) : Nat := 0x040020 + i * 0x400 + j * 0x4
def FE_EXP_TPL_reg : Bits := ⟨31, 16⟩
def FE_EXP_TPL_source : Bits := ⟨15, 14⟩
def FE_EXP_TPL_shift : Bits := ⟨13, 10⟩
def FE_EXP_TPL_bytes : Bits := ⟨9, 8⟩
def FE_EXP_TPL_target : Bits := ⟨7, 1⟩
def FE_EXP_TPL_reg16 : Bits := ⟨0, 0⟩
/-- FE_OB_XY, 03_contexts_front_end.md R107. -/
def FE_OB_XY (i : Nat) : Nat := 0x040040 + i * 0x400
def FE_OB_XY_y : Bits := ⟨31, 16⟩
def FE_OB_XY_x : Bits := ⟨15, 0⟩
/-- FE_OB_WH, 03_contexts_front_end.md R107. -/
def FE_OB_WH (i : Nat) : Nat := 0x040044 + i * 0x400
def FE_OB_WH_h : Bits := ⟨31, 16⟩
def FE_OB_WH_w : Bits := ⟨15, 0⟩
/-- FE_BL_CFG, 03_contexts_front_end.md R107. -/
def FE_BL_CFG (i : Nat) : Nat := 0x040048 + i * 0x400
def FE_BL_CFG_track_shift : Bits := ⟨5, 2⟩
def FE_BL_CFG_mode : Bits := ⟨1, 0⟩
/-- FE_BL_FIXED_A, 03_contexts_front_end.md R107. -/
def FE_BL_FIXED_A (i : Nat) : Nat := 0x04004C + i * 0x400
def FE_BL_FIXED_A_ch1 : Bits := ⟨31, 16⟩
def FE_BL_FIXED_A_ch0 : Bits := ⟨15, 0⟩
/-- FE_BL_FIXED_B, 03_contexts_front_end.md R107. -/
def FE_BL_FIXED_B (i : Nat) : Nat := 0x040050 + i * 0x400
def FE_BL_FIXED_B_ch3 : Bits := ⟨31, 16⟩
def FE_BL_FIXED_B_ch2 : Bits := ⟨15, 0⟩
/-- FE_DPC_CFG, 03_contexts_front_end.md R107. -/
def FE_DPC_CFG (i : Nat) : Nat := 0x040054 + i * 0x400
def FE_DPC_CFG_static_count : Bits := ⟨28, 16⟩
def FE_DPC_CFG_dyn_rel : Bits := ⟨15, 8⟩
def FE_DPC_CFG_dyn_en : Bits := ⟨1, 1⟩
def FE_DPC_CFG_static_en : Bits := ⟨0, 0⟩
/-- FE_DPC_DYN, 03_contexts_front_end.md R107. -/
def FE_DPC_DYN (i : Nat) : Nat := 0x040058 + i * 0x400
def FE_DPC_DYN_abs : Bits := ⟨15, 0⟩
/-- FE_DM_CFG, 03_contexts_front_end.md R107. -/
def FE_DM_CFG (i : Nat) : Nat := 0x04005C + i * 0x400
def FE_DM_CFG_ir_sub : Bits := ⟨17, 17⟩
def FE_DM_CFG_lsc_en : Bits := ⟨16, 16⟩
def FE_DM_CFG_thresh : Bits := ⟨15, 0⟩
/-- FE_IR_SUB, 03_contexts_front_end.md R107. -/
def FE_IR_SUB (i : Nat) : Nat := 0x040060 + i * 0x400
def FE_IR_SUB_kb : Bits := ⟨23, 16⟩
def FE_IR_SUB_kg : Bits := ⟨15, 8⟩
def FE_IR_SUB_kr : Bits := ⟨7, 0⟩
/-- FE_WB_GAIN_A, 03_contexts_front_end.md R107. -/
def FE_WB_GAIN_A (i : Nat) : Nat := 0x040064 + i * 0x400
def FE_WB_GAIN_A_g : Bits := ⟨31, 16⟩
def FE_WB_GAIN_A_r : Bits := ⟨15, 0⟩
/-- FE_WB_GAIN_B, 03_contexts_front_end.md R107. -/
def FE_WB_GAIN_B (i : Nat) : Nat := 0x040068 + i * 0x400
def FE_WB_GAIN_B_b : Bits := ⟨15, 0⟩
/-- FE_AE_CFG, 03_contexts_front_end.md R107. -/
def FE_AE_CFG (i : Nat) : Nat := 0x04006C + i * 0x400
def FE_AE_CFG_lines_max : Bits := ⟨31, 16⟩
def FE_AE_CFG_target : Bits := ⟨15, 0⟩
/-- FE_AE_GAIN, 03_contexts_front_end.md R107. -/
def FE_AE_GAIN (i : Nat) : Nat := 0x040070 + i * 0x400
def FE_AE_GAIN_dgain_max : Bits := ⟨31, 16⟩
def FE_AE_GAIN_again_max : Bits := ⟨15, 0⟩
/-- FE_EXP_VAL_A, 03_contexts_front_end.md R107. -/
def FE_EXP_VAL_A (i : Nat) : Nat := 0x040074 + i * 0x400
def FE_EXP_VAL_A_trim : Bits := ⟨31, 16⟩
def FE_EXP_VAL_A_lines : Bits := ⟨15, 0⟩
/-- FE_EXP_VAL_B, 03_contexts_front_end.md R107. -/
def FE_EXP_VAL_B (i : Nat) : Nat := 0x040078 + i * 0x400
def FE_EXP_VAL_B_dgain : Bits := ⟨31, 16⟩
def FE_EXP_VAL_B_again : Bits := ⟨15, 0⟩
/-- FE_TRIM_CFG, 03_contexts_front_end.md R107. -/
def FE_TRIM_CFG (i : Nat) : Nat := 0x04007C + i * 0x400
def FE_TRIM_CFG_max_step : Bits := ⟨31, 24⟩
def FE_TRIM_CFG_step : Bits := ⟨23, 16⟩
def FE_TRIM_CFG_target : Bits := ⟨15, 0⟩
/-- FE_COMMIT_FRAME, 03_contexts_front_end.md R107. -/
def FE_COMMIT_FRAME (i : Nat) : Nat := 0x040080 + i * 0x400
def FE_COMMIT_FRAME_frame : Bits := ⟨31, 0⟩
/-- FE_COMMIT, 03_contexts_front_end.md R107. -/
def FE_COMMIT (i : Nat) : Nat := 0x040084 + i * 0x400
def FE_COMMIT_with_exposure : Bits := ⟨2, 2⟩
def FE_COMMIT_next : Bits := ⟨1, 1⟩
def FE_COMMIT_commit : Bits := ⟨0, 0⟩
/-- FE_COMMIT_STAT, 03_contexts_front_end.md R107. -/
def FE_COMMIT_STAT (i : Nat) : Nat := 0x040088 + i * 0x400
def FE_COMMIT_STAT_superseded : Bits := ⟨5, 5⟩
def FE_COMMIT_STAT_pending : Bits := ⟨4, 4⟩
def FE_COMMIT_STAT_last_error : Bits := ⟨3, 0⟩
/-- FE_COMMIT_PSID, 03_contexts_front_end.md R107. -/
def FE_COMMIT_PSID (i : Nat) : Nat := 0x04008C + i * 0x400
def FE_COMMIT_PSID_psid : Bits := ⟨31, 0⟩
/-- FE_COMMIT_APPLY, 03_contexts_front_end.md R107. -/
def FE_COMMIT_APPLY (i : Nat) : Nat := 0x040090 + i * 0x400
def FE_COMMIT_APPLY_frame : Bits := ⟨31, 0⟩
/-- FE_CTX_STAT, 03_contexts_front_end.md R107. -/
def FE_CTX_STAT (i : Nat) : Nat := 0x040094 + i * 0x400
def FE_CTX_STAT_resident : Bits := ⟨8, 8⟩
def FE_CTX_STAT_bank : Bits := ⟨7, 7⟩
def FE_CTX_STAT_slot : Bits := ⟨6, 4⟩
def FE_CTX_STAT_lane : Bits := ⟨2, 0⟩
/-- FE_FRAME_ESID, 03_contexts_front_end.md R107. -/
def FE_FRAME_ESID (i : Nat) : Nat := 0x040098 + i * 0x400
def FE_FRAME_ESID_exp_failed : Bits := ⟨17, 17⟩
def FE_FRAME_ESID_exp_late : Bits := ⟨16, 16⟩
def FE_FRAME_ESID_esid : Bits := ⟨15, 0⟩
/-- FE_TBL_ADDR, 03_contexts_front_end.md R107. -/
def FE_TBL_ADDR (i : Nat) : Nat := 0x0400A0 + i * 0x400
def FE_TBL_ADDR_table : Bits := ⟨31, 28⟩
def FE_TBL_ADDR_index : Bits := ⟨12, 0⟩
/-- FE_TBL_DATA, 03_contexts_front_end.md R107. -/
def FE_TBL_DATA (i : Nat) : Nat := 0x0400A4 + i * 0x400
def FE_TBL_DATA_data : Bits := ⟨31, 0⟩
/-- FE_LANE_STAT, 03_contexts_front_end.md R107. -/
def FE_LANE_STAT (i : Nat) : Nat := 0x070000 + i * 0x100
def FE_LANE_STAT_slots_used : Bits := ⟨5, 0⟩
/-- FE_LANE_LINES, 03_contexts_front_end.md R107. -/
def FE_LANE_LINES (i : Nat) : Nat := 0x070004 + i * 0x100
def FE_LANE_LINES_count : Bits := ⟨31, 0⟩
/-- NIS_STRIPE_CFG, 04_neural_picture_stages.md R137. -/
def NIS_STRIPE_CFG (i : Nat) : Nat := 0x080000 + i * 0x400
def NIS_STRIPE_CFG_slots : Bits := ⟨17, 14⟩
def NIS_STRIPE_CFG_edge : Bits := ⟨13, 12⟩
def NIS_STRIPE_CFG_halo : Bits := ⟨11, 8⟩
def NIS_STRIPE_CFG_height : Bits := ⟨1, 0⟩
/-- NIS_IN_REGION, 04_neural_picture_stages.md R137. -/
def NIS_IN_REGION (i : Nat) : Nat := 0x080004 + i * 0x400
def NIS_IN_REGION_handle : Bits := ⟨31, 0⟩
/-- NIS_USER_PKG, 04_neural_picture_stages.md R137. -/
def NIS_USER_PKG (i : Nat) (j : Nat) : Nat := 0x080008 + i * 0x400 + j * 0x4
def NIS_USER_PKG_handle : Bits := ⟨31, 0⟩
/-- NIS_HIST_REGION, 04_neural_picture_stages.md R137. -/
def NIS_HIST_REGION (i : Nat) : Nat := 0x080018 + i * 0x400
def NIS_HIST_REGION_handle : Bits := ⟨31, 0⟩
/-- NIS_IN_SYNC, 04_neural_picture_stages.md R137. -/
def NIS_IN_SYNC (i : Nat) : Nat := 0x08001C + i * 0x400
def NIS_IN_SYNC_frame_en : Bits := ⟨29, 29⟩
def NIS_IN_SYNC_frame_obj : Bits := ⟨28, 16⟩
def NIS_IN_SYNC_stripe_obj : Bits := ⟨12, 0⟩
/-- NIS_PAD_A, 04_neural_picture_stages.md R137. -/
def NIS_PAD_A (i : Nat) : Nat := 0x080020 + i * 0x400
def NIS_PAD_A_ch1 : Bits := ⟨31, 16⟩
def NIS_PAD_A_ch0 : Bits := ⟨15, 0⟩
/-- NIS_PAD_B, 04_neural_picture_stages.md R137. -/
def NIS_PAD_B (i : Nat) : Nat := 0x080024 + i * 0x400
def NIS_PAD_B_ch3 : Bits := ⟨31, 16⟩
def NIS_PAD_B_ch2 : Bits := ⟨15, 0⟩
/-- NIS_STAGE_SEL, 04_neural_picture_stages.md R137. -/
def NIS_STAGE_SEL (i : Nat) : Nat := 0x080028 + i * 0x400
def NIS_STAGE_SEL_tone : Bits := ⟨7, 6⟩
def NIS_STAGE_SEL_denoise : Bits := ⟨5, 4⟩
def NIS_STAGE_SEL_hdr : Bits := ⟨3, 2⟩
def NIS_STAGE_SEL_demosaic : Bits := ⟨1, 0⟩
/-- NIS_DMS_CFG, 04_neural_picture_stages.md R137. -/
def NIS_DMS_CFG (i : Nat) : Nat := 0x08002C + i * 0x400
def NIS_DMS_CFG_strength : Bits := ⟨7, 0⟩
/-- NIS_HDR_CFG, 04_neural_picture_stages.md R137. -/
def NIS_HDR_CFG (i : Nat) : Nat := 0x080030 + i * 0x400
def NIS_HDR_CFG_phase : Bits := ⟨3, 2⟩
def NIS_HDR_CFG_exposures : Bits := ⟨1, 0⟩
/-- NIS_HDR_RATIO, 04_neural_picture_stages.md R137. -/
def NIS_HDR_RATIO (i : Nat) : Nat := 0x080034 + i * 0x400
def NIS_HDR_RATIO_ratio2 : Bits := ⟨31, 16⟩
def NIS_HDR_RATIO_ratio1 : Bits := ⟨15, 0⟩
/-- NIS_DN_CFG, 04_neural_picture_stages.md R137. -/
def NIS_DN_CFG (i : Nat) : Nat := 0x080038 + i * 0x400
def NIS_DN_CFG_reset_on_commit : Bits := ⟨20, 20⟩
def NIS_DN_CFG_warm_frames : Bits := ⟨19, 16⟩
def NIS_DN_CFG_w_max : Bits := ⟨15, 8⟩
def NIS_DN_CFG_spatial : Bits := ⟨7, 0⟩
/-- NIS_HIST_CTL, 04_neural_picture_stages.md R137. -/
def NIS_HIST_CTL (i : Nat) : Nat := 0x08003C + i * 0x400
def NIS_HIST_CTL_reset : Bits := ⟨0, 0⟩
/-- NIS_HIST_STAT, 04_neural_picture_stages.md R137. -/
def NIS_HIST_STAT (i : Nat) : Nat := 0x080040 + i * 0x400
def NIS_HIST_STAT_warming : Bits := ⟨16, 16⟩
def NIS_HIST_STAT_j : Bits := ⟨15, 0⟩
/-- NIS_DMR_CFG, 04_neural_picture_stages.md R137. -/
def NIS_DMR_CFG (i : Nat) : Nat := 0x080044 + i * 0x400
def NIS_DMR_CFG_max_reuse : Bits := ⟨31, 24⟩
def NIS_DMR_CFG_tone : Bits := ⟨17, 17⟩
def NIS_DMR_CFG_demosaic : Bits := ⟨16, 16⟩
def NIS_DMR_CFG_thresh : Bits := ⟨15, 0⟩
/-- NIS_TONE_CFG, 04_neural_picture_stages.md R137. -/
def NIS_TONE_CFG (i : Nat) : Nat := 0x080048 + i * 0x400
def NIS_TONE_CFG_curve : Bits := ⟨9, 8⟩
def NIS_TONE_CFG_local : Bits := ⟨7, 0⟩
/-- NIS_TBL_ADDR, 04_neural_picture_stages.md R137. -/
def NIS_TBL_ADDR (i : Nat) : Nat := 0x08004C + i * 0x400
def NIS_TBL_ADDR_table : Bits := ⟨31, 28⟩
def NIS_TBL_ADDR_index : Bits := ⟨7, 0⟩
/-- NIS_TBL_DATA, 04_neural_picture_stages.md R137. -/
def NIS_TBL_DATA (i : Nat) : Nat := 0x080050 + i * 0x400
def NIS_TBL_DATA_data : Bits := ⟨31, 0⟩
/-- NIS_CNT_ROWS_COMPUTED, 04_neural_picture_stages.md R137. -/
def NIS_CNT_ROWS_COMPUTED (i : Nat) : Nat := 0x080054 + i * 0x400
def NIS_CNT_ROWS_COMPUTED_count : Bits := ⟨31, 0⟩
/-- NIS_CNT_ROWS_REUSED, 04_neural_picture_stages.md R137. -/
def NIS_CNT_ROWS_REUSED (i : Nat) : Nat := 0x080058 + i * 0x400
def NIS_CNT_ROWS_REUSED_count : Bits := ⟨31, 0⟩
/-- NIS_FRAME_INDEX, 04_neural_picture_stages.md R137. -/
def NIS_FRAME_INDEX (i : Nat) : Nat := 0x08005C + i * 0x400
def NIS_FRAME_INDEX_count : Bits := ⟨31, 0⟩
/-- NIS_OUT_CFG, 04_neural_picture_stages.md R137. -/
def NIS_OUT_CFG (i : Nat) (j : Nat) : Nat := 0x080100 + i * 0x400 + j * 0x40
def NIS_OUT_CFG_slots : Bits := ⟨27, 24⟩
def NIS_OUT_CFG_t_layout : Bits := ⟨23, 22⟩
def NIS_OUT_CFG_t_type : Bits := ⟨21, 20⟩
def NIS_OUT_CFG_t_ch : Bits := ⟨19, 18⟩
def NIS_OUT_CFG_range : Bits := ⟨17, 17⟩
def NIS_OUT_CFG_matrix : Bits := ⟨16, 16⟩
def NIS_OUT_CFG_format : Bits := ⟨10, 8⟩
def NIS_OUT_CFG_sy : Bits := ⟨7, 6⟩
def NIS_OUT_CFG_sx : Bits := ⟨5, 4⟩
def NIS_OUT_CFG_kind : Bits := ⟨3, 2⟩
def NIS_OUT_CFG_en : Bits := ⟨0, 0⟩
/-- NIS_OUT_WIN_XY, 04_neural_picture_stages.md R137. -/
def NIS_OUT_WIN_XY (i : Nat) (j : Nat) : Nat := 0x080104 + i * 0x400 + j * 0x40
def NIS_OUT_WIN_XY_y0 : Bits := ⟨31, 16⟩
def NIS_OUT_WIN_XY_x0 : Bits := ⟨15, 0⟩
/-- NIS_OUT_WIN_WH, 04_neural_picture_stages.md R137. -/
def NIS_OUT_WIN_WH (i : Nat) (j : Nat) : Nat := 0x080108 + i * 0x400 + j * 0x40
def NIS_OUT_WIN_WH_h : Bits := ⟨31, 16⟩
def NIS_OUT_WIN_WH_w : Bits := ⟨15, 0⟩
/-- NIS_OUT_DEST, 04_neural_picture_stages.md R137. -/
def NIS_OUT_DEST (i : Nat) (j : Nat) : Nat := 0x08010C + i * 0x400 + j * 0x40
def NIS_OUT_DEST_sync_obj : Bits := ⟨28, 16⟩
def NIS_OUT_DEST_per_frame : Bits := ⟨15, 15⟩
def NIS_OUT_DEST_window : Bits := ⟨3, 3⟩
def NIS_OUT_DEST_avtp : Bits := ⟨2, 2⟩
def NIS_OUT_DEST_clip : Bits := ⟨1, 1⟩
/-- NIS_OUT_REGION, 04_neural_picture_stages.md R137. -/
def NIS_OUT_REGION (i : Nat) (j : Nat) : Nat := 0x080110 + i * 0x400 + j * 0x40
def NIS_OUT_REGION_handle : Bits := ⟨31, 0⟩
/-- NIS_OUT_CLIP, 04_neural_picture_stages.md R137. -/
def NIS_OUT_CLIP (i : Nat) (j : Nat) : Nat := 0x080114 + i * 0x400 + j * 0x40
def NIS_OUT_CLIP_handle : Bits := ⟨31, 0⟩
/-- NIS_OUT_NET, 04_neural_picture_stages.md R137. -/
def NIS_OUT_NET (i : Nat) (j : Nat) : Nat := 0x080118 + i * 0x400 + j * 0x40
def NIS_OUT_NET_handle : Bits := ⟨31, 0⟩
/-- NIS_OUT_TQ0, 04_neural_picture_stages.md R137. -/
def NIS_OUT_TQ0 (i : Nat) (j : Nat) : Nat := 0x08011C + i * 0x400 + j * 0x40
def NIS_OUT_TQ0_scale : Bits := ⟨31, 16⟩
def NIS_OUT_TQ0_offset : Bits := ⟨15, 0⟩
/-- NIS_OUT_TQ1, 04_neural_picture_stages.md R137. -/
def NIS_OUT_TQ1 (i : Nat) (j : Nat) : Nat := 0x080120 + i * 0x400 + j * 0x40
def NIS_OUT_TQ1_scale : Bits := ⟨31, 16⟩
def NIS_OUT_TQ1_offset : Bits := ⟨15, 0⟩
/-- NIS_OUT_TQ2, 04_neural_picture_stages.md R137. -/
def NIS_OUT_TQ2 (i : Nat) (j : Nat) : Nat := 0x080124 + i * 0x400 + j * 0x40
def NIS_OUT_TQ2_scale : Bits := ⟨31, 16⟩
def NIS_OUT_TQ2_offset : Bits := ⟨15, 0⟩
/-- NIS_OUT_TQ3, 04_neural_picture_stages.md R137. -/
def NIS_OUT_TQ3 (i : Nat) (j : Nat) : Nat := 0x080128 + i * 0x400 + j * 0x40
def NIS_OUT_TQ3_scale : Bits := ⟨31, 16⟩
def NIS_OUT_TQ3_offset : Bits := ⟨15, 0⟩
/-- NIS_OUT_LAT, 04_neural_picture_stages.md R137. -/
def NIS_OUT_LAT (i : Nat) (j : Nat) : Nat := 0x08012C + i * 0x400 + j * 0x40
def NIS_OUT_LAT_lambda_ns : Bits := ⟨31, 0⟩
/-- NIS_OUT_CTL, 04_neural_picture_stages.md R137. -/
def NIS_OUT_CTL (i : Nat) (j : Nat) : Nat := 0x080130 + i * 0x400 + j * 0x40
def NIS_OUT_CTL_resume : Bits := ⟨0, 0⟩
/-- NIS_OUT_STAT, 04_neural_picture_stages.md R137. -/
def NIS_OUT_STAT (i : Nat) (j : Nat) : Nat := 0x080134 + i * 0x400 + j * 0x40
def NIS_OUT_STAT_dest_dropped : Bits := ⟨31, 16⟩
def NIS_OUT_STAT_window_halted : Bits := ⟨0, 0⟩
/-- NIS_RES_VER, 04_neural_picture_stages.md R137. -/
def NIS_RES_VER : Nat := 0x09F000
def NIS_RES_VER_major : Bits := ⟨31, 24⟩
def NIS_RES_VER_minor : Bits := ⟨23, 16⟩
def NIS_RES_VER_build : Bits := ⟨15, 0⟩
/-- CAL_CTX_CTL, 05_calibration.md R160. -/
def CAL_CTX_CTL (i : Nat) : Nat := 0x0A0000 + i * 0x100
def CAL_CTX_CTL_source : Bits := ⟨10, 10⟩
def CAL_CTX_CTL_purpose : Bits := ⟨9, 8⟩
def CAL_CTX_CTL_kind : Bits := ⟨6, 4⟩
def CAL_CTX_CTL_store : Bits := ⟨2, 2⟩
def CAL_CTX_CTL_abort : Bits := ⟨1, 1⟩
def CAL_CTX_CTL_start : Bits := ⟨0, 0⟩
/-- CAL_CTX_CFG, 05_calibration.md R160. -/
def CAL_CTX_CFG (i : Nat) : Nat := 0x0A0004 + i * 0x100
def CAL_CTX_CFG_dtemp : Bits := ⟨31, 24⟩
def CAL_CTX_CFG_auto_store : Bits := ⟨12, 12⟩
def CAL_CTX_CFG_apply_dpc : Bits := ⟨11, 11⟩
def CAL_CTX_CFG_apply_bl : Bits := ⟨10, 10⟩
def CAL_CTX_CFG_temp_src : Bits := ⟨9, 9⟩
def CAL_CTX_CFG_temp_en : Bits := ⟨8, 8⟩
def CAL_CTX_CFG_frames : Bits := ⟨3, 0⟩
/-- CAL_CTX_BUF, 05_calibration.md R160. -/
def CAL_CTX_BUF (i : Nat) : Nat := 0x0A0008 + i * 0x100
def CAL_CTX_BUF_handle : Bits := ⟨31, 0⟩
/-- CAL_CTX_REF, 05_calibration.md R160. -/
def CAL_CTX_REF (i : Nat) : Nat := 0x0A000C + i * 0x100
def CAL_CTX_REF_handle : Bits := ⟨31, 0⟩
/-- CAL_LIM_BL, 05_calibration.md R160. -/
def CAL_LIM_BL (i : Nat) : Nat := 0x0A0010 + i * 0x100
def CAL_LIM_BL_bl_hi : Bits := ⟨31, 16⟩
def CAL_LIM_BL_bl_lo : Bits := ⟨15, 0⟩
/-- CAL_LIM_STEP, 05_calibration.md R160. -/
def CAL_LIM_STEP (i : Nat) : Nat := 0x0A0014 + i * 0x100
def CAL_LIM_STEP_max_spread : Bits := ⟨31, 16⟩
def CAL_LIM_STEP_max_step : Bits := ⟨15, 0⟩
/-- CAL_LIM_AGREE, 05_calibration.md R160. -/
def CAL_LIM_AGREE (i : Nat) : Nat := 0x0A0018 + i * 0x100
def CAL_LIM_AGREE_reject_run : Bits := ⟨31, 24⟩
def CAL_LIM_AGREE_agree_dpc : Bits := ⟨23, 16⟩
def CAL_LIM_AGREE_agree_bl : Bits := ⟨15, 0⟩
/-- CAL_DPC_TH, 05_calibration.md R160. -/
def CAL_DPC_TH (i : Nat) : Nat := 0x0A001C + i * 0x100
def CAL_DPC_TH_max_defects : Bits := ⟨28, 16⟩
def CAL_DPC_TH_cold_rel : Bits := ⟨15, 8⟩
def CAL_DPC_TH_hot_th : Bits := ⟨7, 0⟩
/-- CAL_CTX_STAT, 05_calibration.md R160. -/
def CAL_CTX_STAT (i : Nat) : Nat := 0x0A0020 + i * 0x100
def CAL_CTX_STAT_stored : Bits := ⟨11, 11⟩
def CAL_CTX_STAT_valid : Bits := ⟨10, 10⟩
def CAL_CTX_STAT_running : Bits := ⟨9, 9⟩
def CAL_CTX_STAT_runs : Bits := ⟨8, 7⟩
def CAL_CTX_STAT_last_kind : Bits := ⟨6, 4⟩
def CAL_CTX_STAT_last_error : Bits := ⟨3, 0⟩
/-- CAL_CAL_FIRST, 05_calibration.md R160. -/
def CAL_CAL_FIRST (i : Nat) : Nat := 0x0A0024 + i * 0x100
def CAL_CAL_FIRST_seq : Bits := ⟨31, 0⟩
/-- CAL_CAL_LAST, 05_calibration.md R160. -/
def CAL_CAL_LAST (i : Nat) : Nat := 0x0A0028 + i * 0x100
def CAL_CAL_LAST_seq : Bits := ⟨31, 0⟩
/-- CAL_CTX_TEMP, 05_calibration.md R160. -/
def CAL_CTX_TEMP (i : Nat) : Nat := 0x0A002C + i * 0x100
def CAL_CTX_TEMP_t_cal : Bits := ⟨31, 16⟩
def CAL_CTX_TEMP_host_temp : Bits := ⟨15, 0⟩
/-- CAL_RES_BL_A, 05_calibration.md R160. -/
def CAL_RES_BL_A (i : Nat) : Nat := 0x0A0030 + i * 0x100
def CAL_RES_BL_A_ch1 : Bits := ⟨31, 16⟩
def CAL_RES_BL_A_ch0 : Bits := ⟨15, 0⟩
/-- CAL_RES_BL_B, 05_calibration.md R160. -/
def CAL_RES_BL_B (i : Nat) : Nat := 0x0A0034 + i * 0x100
def CAL_RES_BL_B_ch3 : Bits := ⟨31, 16⟩
def CAL_RES_BL_B_ch2 : Bits := ⟨15, 0⟩
/-- CAL_RES_DS_A, 05_calibration.md R160. -/
def CAL_RES_DS_A (i : Nat) : Nat := 0x0A0038 + i * 0x100
def CAL_RES_DS_A_ch1 : Bits := ⟨31, 16⟩
def CAL_RES_DS_A_ch0 : Bits := ⟨15, 0⟩
/-- CAL_RES_DS_B, 05_calibration.md R160. -/
def CAL_RES_DS_B (i : Nat) : Nat := 0x0A003C + i * 0x100
def CAL_RES_DS_B_ch3 : Bits := ⟨31, 16⟩
def CAL_RES_DS_B_ch2 : Bits := ⟨15, 0⟩
/-- CAL_RES_DPC, 05_calibration.md R160. -/
def CAL_RES_DPC (i : Nat) : Nat := 0x0A0040 + i * 0x100
def CAL_RES_DPC_total : Bits := ⟨28, 16⟩
def CAL_RES_DPC_found : Bits := ⟨12, 0⟩
/-- CAL_LAST_SEQ, 05_calibration.md R160. -/
def CAL_LAST_SEQ (i : Nat) : Nat := 0x0A0044 + i * 0x100
def CAL_LAST_SEQ_seq : Bits := ⟨31, 0⟩
/-- CAL_LAST_NS, 05_calibration.md R160. -/
def CAL_LAST_NS (i : Nat) : Nat := 0x0A0048 + i * 0x100
def CAL_LAST_NS_ns : Bits := ⟨31, 0⟩
/-- CAL_LAST_SL, 05_calibration.md R160. -/
def CAL_LAST_SL (i : Nat) : Nat := 0x0A004C + i * 0x100
def CAL_LAST_SL_s_lo : Bits := ⟨31, 0⟩
/-- CAL_LAST_SH, 05_calibration.md R160. -/
def CAL_LAST_SH (i : Nat) : Nat := 0x0A0050 + i * 0x100
def CAL_LAST_SH_valid : Bits := ⟨16, 16⟩
def CAL_LAST_SH_s_hi : Bits := ⟨15, 0⟩
/-- CAL_CNT_RUN, 05_calibration.md R160. -/
def CAL_CNT_RUN (i : Nat) : Nat := 0x0A0060 + i * 0x100
def CAL_CNT_RUN_count : Bits := ⟨31, 0⟩
/-- CAL_CNT_PASS, 05_calibration.md R160. -/
def CAL_CNT_PASS (i : Nat) : Nat := 0x0A0064 + i * 0x100
def CAL_CNT_PASS_count : Bits := ⟨31, 0⟩
/-- CAL_CNT_IMPLAUSIBLE, 05_calibration.md R160. -/
def CAL_CNT_IMPLAUSIBLE (i : Nat) : Nat := 0x0A0068 + i * 0x100
def CAL_CNT_IMPLAUSIBLE_count : Bits := ⟨31, 0⟩
/-- CAL_CNT_DISAGREE, 05_calibration.md R160. -/
def CAL_CNT_DISAGREE (i : Nat) : Nat := 0x0A006C + i * 0x100
def CAL_CNT_DISAGREE_count : Bits := ⟨31, 0⟩
/-- CAL_CNT_REFUSED, 05_calibration.md R160. -/
def CAL_CNT_REFUSED (i : Nat) : Nat := 0x0A0070 + i * 0x100
def CAL_CNT_REFUSED_count : Bits := ⟨31, 0⟩
/-- CAL_CNT_TRACK_REJECT, 05_calibration.md R160. -/
def CAL_CNT_TRACK_REJECT (i : Nat) : Nat := 0x0A0074 + i * 0x100
def CAL_CNT_TRACK_REJECT_count : Bits := ⟨31, 0⟩
/-- CAL_CNT_CLR, 05_calibration.md R160. -/
def CAL_CNT_CLR (i : Nat) : Nat := 0x0A0078 + i * 0x100
def CAL_CNT_CLR_clear : Bits := ⟨5, 0⟩
/-- CAL_MON_STAT, 05_calibration.md R160. -/
def CAL_MON_STAT : Nat := 0x0B0000
def CAL_MON_STAT_die_temp : Bits := ⟨31, 16⟩
def CAL_MON_STAT_volt_ok : Bits := ⟨15, 8⟩
def CAL_MON_STAT_therm_ok : Bits := ⟨7, 0⟩
/-- CAL_FLASH_STAT, 05_calibration.md R160. -/
def CAL_FLASH_STAT : Nat := 0x0B0004
def CAL_FLASH_STAT_last : Bits := ⟨17, 16⟩
def CAL_FLASH_STAT_stores : Bits := ⟨15, 0⟩
/-- ENG_X_STAT, 06_engines_arithmetic.md R192. -/
def ENG_X_STAT (i : Nat) (j : Nat) : Nat := 0x100000 + i * 0x40000 + j * 0x2000
def ENG_X_STAT_logical : Bits := ⟨20, 16⟩
def ENG_X_STAT_last_fault : Bits := ⟨11, 8⟩
def ENG_X_STAT_state : Bits := ⟨2, 0⟩
/-- ENG_X_ARITH, 06_engines_arithmetic.md R192. -/
def ENG_X_ARITH (i : Nat) (j : Nat) : Nat := 0x100004 + i * 0x40000 + j * 0x2000
def ENG_X_ARITH_mx_nan_scale : Bits := ⟨6, 6⟩
def ENG_X_ARITH_int32_sat : Bits := ⟨5, 5⟩
def ENG_X_ARITH_int_sat : Bits := ⟨4, 4⟩
def ENG_X_ARITH_fp_sat : Bits := ⟨3, 3⟩
def ENG_X_ARITH_inf_out : Bits := ⟨2, 2⟩
def ENG_X_ARITH_nan_out : Bits := ⟨1, 1⟩
def ENG_X_ARITH_nan_in : Bits := ⟨0, 0⟩
/-- ENG_X_CNT_TASK, 06_engines_arithmetic.md R192. -/
def ENG_X_CNT_TASK (i : Nat) (j : Nat) : Nat := 0x100008 + i * 0x40000 + j * 0x2000
def ENG_X_CNT_TASK_count : Bits := ⟨31, 0⟩
/-- ENG_X_CNT_BUSY, 06_engines_arithmetic.md R192. -/
def ENG_X_CNT_BUSY (i : Nat) (j : Nat) : Nat := 0x10000C + i * 0x40000 + j * 0x2000
def ENG_X_CNT_BUSY_count : Bits := ⟨31, 0⟩
/-- ENG_X_CNT_FAULT, 06_engines_arithmetic.md R192. -/
def ENG_X_CNT_FAULT (i : Nat) (j : Nat) : Nat := 0x100010 + i * 0x40000 + j * 0x2000
def ENG_X_CNT_FAULT_count : Bits := ⟨31, 0⟩
/-- ENG_X_CNT_ROWS_GATED, 06_engines_arithmetic.md R192. -/
def ENG_X_CNT_ROWS_GATED (i : Nat) (j : Nat) : Nat := 0x100014 + i * 0x40000 + j * 0x2000
def ENG_X_CNT_ROWS_GATED_count : Bits := ⟨31, 0⟩
/-- ENG_X_CNT_ROWS_REUSED, 06_engines_arithmetic.md R192. -/
def ENG_X_CNT_ROWS_REUSED (i : Nat) (j : Nat) : Nat := 0x100018 + i * 0x40000 + j * 0x2000
def ENG_X_CNT_ROWS_REUSED_count : Bits := ⟨31, 0⟩
/-- ENG_X_CNT_CLR, 06_engines_arithmetic.md R192. -/
def ENG_X_CNT_CLR (i : Nat) (j : Nat) : Nat := 0x100020 + i * 0x40000 + j * 0x2000
def ENG_X_CNT_CLR_clear : Bits := ⟨4, 0⟩
/-- ENG_X_ST, 17_boot_reset_faults.md R512. -/
def ENG_X_ST (i : Nat) (j : Nat) : Nat := 0x100024 + i * 0x40000 + j * 0x2000
def ENG_X_ST_passes : Bits := ⟨31, 16⟩
def ENG_X_ST_swept : Bits := ⟨1, 1⟩
def ENG_X_ST_last_ok : Bits := ⟨0, 0⟩
/-- ENG_MAP, 06_engines_arithmetic.md R192. -/
def ENG_MAP (i : Nat) (j : Nat) : Nat := 0x300000 + i * 0x1000 + j * 0x4
def ENG_MAP_phys3 : Bits := ⟨28, 24⟩
def ENG_MAP_phys2 : Bits := ⟨20, 16⟩
def ENG_MAP_phys1 : Bits := ⟨12, 8⟩
def ENG_MAP_phys0 : Bits := ⟨4, 0⟩
/-- ENG_CL_STAT, 06_engines_arithmetic.md R192. -/
def ENG_CL_STAT (i : Nat) : Nat := 0x300014 + i * 0x1000
def ENG_CL_STAT_swaps : Bits := ⟨31, 16⟩
def ENG_CL_STAT_spare : Bits := ⟨1, 0⟩
/-- ENG_CL_RING, 06_engines_arithmetic.md R192. -/
def ENG_CL_RING (i : Nat) : Nat := 0x300018 + i * 0x1000
def ENG_CL_RING_crc_errors : Bits := ⟨31, 0⟩
/-- ENG_FEAT_RATE0, 06_engines_arithmetic.md R192. -/
def ENG_FEAT_RATE0 : Nat := 0x380000
def ENG_FEAT_RATE0_int8 : Bits := ⟨31, 16⟩
def ENG_FEAT_RATE0_int4 : Bits := ⟨15, 0⟩
/-- ENG_FEAT_RATE1, 06_engines_arithmetic.md R192. -/
def ENG_FEAT_RATE1 : Nat := 0x380004
def ENG_FEAT_RATE1_fp8 : Bits := ⟨31, 16⟩
def ENG_FEAT_RATE1_bf16 : Bits := ⟨15, 0⟩
/-- ENG_FEAT_RATE2, 06_engines_arithmetic.md R192. -/
def ENG_FEAT_RATE2 : Nat := 0x380008
def ENG_FEAT_RATE2_mxint8 : Bits := ⟨31, 16⟩
def ENG_FEAT_RATE2_mxfp8 : Bits := ⟨15, 0⟩
/-- ENG_FEAT_RATE3, 06_engines_arithmetic.md R192. -/
def ENG_FEAT_RATE3 : Nat := 0x38000C
def ENG_FEAT_RATE3_mxfp6 : Bits := ⟨31, 16⟩
def ENG_FEAT_RATE3_mxfp4 : Bits := ⟨15, 0⟩
/-- ENG_FEAT_ACC, 06_engines_arithmetic.md R192. -/
def ENG_FEAT_ACC : Nat := 0x380010
def ENG_FEAT_ACC_int_k_log2 : Bits := ⟨28, 24⟩
def ENG_FEAT_ACC_fp_group : Bits := ⟨23, 16⟩
def ENG_FEAT_ACC_acc_rows : Bits := ⟨15, 0⟩
/-- ENG_FEAT_RFU, 06_engines_arithmetic.md R192. -/
def ENG_FEAT_RFU : Nat := 0x380014
def ENG_FEAT_RFU_tables : Bits := ⟨27, 24⟩
def ENG_FEAT_RFU_table_entries : Bits := ⟨23, 12⟩
def ENG_FEAT_RFU_lanes : Bits := ⟨5, 0⟩
/-- ENG_FEAT_FUSE, 06_engines_arithmetic.md R192. -/
def ENG_FEAT_FUSE : Nat := 0x380018
def ENG_FEAT_FUSE_n1_max_8bit : Bits := ⟨31, 16⟩
def ENG_FEAT_FUSE_n1_max_16bit : Bits := ⟨15, 0⟩
/-- ENG_FEAT_FN, 06_engines_arithmetic.md R192. -/
def ENG_FEAT_FN : Nat := 0x38001C
def ENG_FEAT_FN_functions : Bits := ⟨20, 0⟩
/-- ENG_ACLK, 06_engines_arithmetic.md R192. -/
def ENG_ACLK : Nat := 0x380020
def ENG_ACLK_aclk_mhz : Bits := ⟨15, 0⟩
/-- ENG_ST_CFG, 17_boot_reset_faults.md R512. -/
def ENG_ST_CFG : Nat := 0x380024
def ENG_ST_CFG_rotate_ms : Bits := ⟨15, 0⟩
/-- SPM_ST_STAT, 09_scratchpad.md R297. -/
def SPM_ST_STAT (i : Nat) : Nat := 0x400000 + i * 0x8000
def SPM_ST_STAT_free_4k : Bits := ⟨31, 16⟩
def SPM_ST_STAT_state : Bits := ⟨1, 0⟩
/-- SPM_ST_CE, 09_scratchpad.md R297. -/
def SPM_ST_CE (i : Nat) : Nat := 0x400004 + i * 0x8000
def SPM_ST_CE_count : Bits := ⟨31, 0⟩
/-- SPM_ST_UE, 09_scratchpad.md R297. -/
def SPM_ST_UE (i : Nat) : Nat := 0x400008 + i * 0x8000
def SPM_ST_UE_count : Bits := ⟨31, 0⟩
/-- SPM_ST_CONFLICT, 09_scratchpad.md R297. -/
def SPM_ST_CONFLICT (i : Nat) : Nat := 0x40000C + i * 0x8000
def SPM_ST_CONFLICT_count : Bits := ⟨31, 0⟩
/-- SPM_ST_UE_ADDR, 09_scratchpad.md R297. -/
def SPM_ST_UE_ADDR (i : Nat) : Nat := 0x400010 + i * 0x8000
def SPM_ST_UE_ADDR_source : Bits := ⟨31, 29⟩
def SPM_ST_UE_ADDR_addr : Bits := ⟨28, 3⟩
def SPM_ST_UE_ADDR_valid : Bits := ⟨0, 0⟩
/-- SPM_ST_POISONED, 09_scratchpad.md R297. -/
def SPM_ST_POISONED (i : Nat) : Nat := 0x400014 + i * 0x8000
def SPM_ST_POISONED_words : Bits := ⟨15, 0⟩
/-- SPM_ST_SCRUB, 09_scratchpad.md R297. -/
def SPM_ST_SCRUB (i : Nat) : Nat := 0x400018 + i * 0x8000
def SPM_ST_SCRUB_sweeps : Bits := ⟨31, 16⟩
def SPM_ST_SCRUB_row : Bits := ⟨13, 0⟩
/-- SPM_ST_GATHER, 09_scratchpad.md R297. -/
def SPM_ST_GATHER (i : Nat) : Nat := 0x40001C + i * 0x8000
def SPM_ST_GATHER_entries : Bits := ⟨6, 0⟩
/-- SPM_ST_CNT_CLR, 09_scratchpad.md R297. -/
def SPM_ST_CNT_CLR (i : Nat) : Nat := 0x400020 + i * 0x8000
def SPM_ST_CNT_CLR_clear : Bits := ⟨2, 0⟩
/-- SPM_ZONE, 09_scratchpad.md R297. -/
def SPM_ZONE (i : Nat) : Nat := 0x440000 + i * 0x4
def SPM_ZONE_spread : Bits := ⟨31, 0⟩
/-- SPM_SCRUB_CFG, 09_scratchpad.md R297. -/
def SPM_SCRUB_CFG : Nat := 0x440008
def SPM_SCRUB_CFG_interval : Bits := ⟨31, 16⟩
def SPM_SCRUB_CFG_en : Bits := ⟨0, 0⟩
/-- SPM_ECC_CFG, 09_scratchpad.md R297. -/
def SPM_ECC_CFG : Nat := 0x44000C
def SPM_ECC_CFG_ce_threshold : Bits := ⟨15, 0⟩
/-- SPM_REGIONS, 09_scratchpad.md R297. -/
def SPM_REGIONS : Nat := 0x440010
def SPM_REGIONS_count : Bits := ⟨13, 0⟩
/-- SYN_PEEK_SEL, 10_sync_objects.md R314. -/
def SYN_PEEK_SEL : Nat := 0x480000
def SYN_PEEK_SEL_obj : Bits := ⟨12, 0⟩
/-- SYN_PEEK_VAL, 10_sync_objects.md R314. -/
def SYN_PEEK_VAL : Nat := 0x480004
def SYN_PEEK_VAL_value : Bits := ⟨31, 0⟩
/-- SYN_STAT, 10_sync_objects.md R314. -/
def SYN_STAT : Nat := 0x480008
def SYN_STAT_host_waits : Bits := ⟨25, 16⟩
def SYN_STAT_owned : Bits := ⟨13, 0⟩
/-- SYN_CNT_TIMEOUT, 10_sync_objects.md R314. -/
def SYN_CNT_TIMEOUT : Nat := 0x48000C
def SYN_CNT_TIMEOUT_count : Bits := ⟨31, 0⟩
/-- SYN_CNT_REFUSED, 10_sync_objects.md R314. -/
def SYN_CNT_REFUSED : Nat := 0x480010
def SYN_CNT_REFUSED_count : Bits := ⟨31, 0⟩
/-- SYN_CNT_CLR, 10_sync_objects.md R314. -/
def SYN_CNT_CLR : Nat := 0x480014
def SYN_CNT_CLR_clear : Bits := ⟨1, 0⟩
/-- SYN_OWN, 10_sync_objects.md R314. -/
def SYN_OWN (i : Nat) : Nat := 0x480100 + i * 0x4
def SYN_OWN_owned : Bits := ⟨31, 0⟩
/-- DDR_CFG, 11_dram_dma.md R340. -/
def DDR_CFG : Nat := 0x500000
def DDR_CFG_inline_ecc_next : Bits := ⟨0, 0⟩
/-- DDR_STAT, 11_dram_dma.md R340. -/
def DDR_STAT : Nat := 0x500004
def DDR_STAT_train_ms : Bits := ⟨31, 16⟩
def DDR_STAT_rate_100mt : Bits := ⟨15, 4⟩
def DDR_STAT_train_src : Bits := ⟨3, 2⟩
def DDR_STAT_inline_ecc : Bits := ⟨0, 0⟩
/-- DDR_CH_CE, 11_dram_dma.md R340. -/
def DDR_CH_CE (i : Nat) : Nat := 0x501000 + i * 0x100
def DDR_CH_CE_count : Bits := ⟨31, 0⟩
/-- DDR_CH_UE, 11_dram_dma.md R340. -/
def DDR_CH_UE (i : Nat) : Nat := 0x501004 + i * 0x100
def DDR_CH_UE_count : Bits := ⟨31, 0⟩
/-- DDR_CH_UE_ADDR_LO, 11_dram_dma.md R340. -/
def DDR_CH_UE_ADDR_LO (i : Nat) : Nat := 0x501008 + i * 0x100
def DDR_CH_UE_ADDR_LO_addr : Bits := ⟨31, 6⟩
/-- DDR_CH_UE_ADDR_HI, 11_dram_dma.md R340. -/
def DDR_CH_UE_ADDR_HI (i : Nat) : Nat := 0x50100C + i * 0x100
def DDR_CH_UE_ADDR_HI_valid : Bits := ⟨31, 31⟩
def DDR_CH_UE_ADDR_HI_addr : Bits := ⟨15, 0⟩
/-- DDR_CH_SLOTS, 11_dram_dma.md R340. -/
def DDR_CH_SLOTS (i : Nat) : Nat := 0x501010 + i * 0x100
def DDR_CH_SLOTS_idle : Bits := ⟨31, 0⟩
/-- DMA_CH_STAT, 11_dram_dma.md R341. -/
def DMA_CH_STAT (i : Nat) : Nat := 0x580000 + i * 0x40
def DMA_CH_STAT_owned : Bits := ⟨7, 7⟩
def DMA_CH_STAT_direction : Bits := ⟨6, 5⟩
def DMA_CH_STAT_cause : Bits := ⟨4, 2⟩
def DMA_CH_STAT_state : Bits := ⟨1, 0⟩
/-- DMA_CH_CTL, 11_dram_dma.md R341. -/
def DMA_CH_CTL (i : Nat) : Nat := 0x580004 + i * 0x40
def DMA_CH_CTL_action : Bits := ⟨1, 0⟩
/-- DMA_CH_PACE, 11_dram_dma.md R341. -/
def DMA_CH_PACE (i : Nat) : Nat := 0x580008 + i * 0x40
def DMA_CH_PACE_high : Bits := ⟨9, 5⟩
def DMA_CH_PACE_low : Bits := ⟨4, 0⟩
/-- DMA_CH_ERR_ADDR_LO, 11_dram_dma.md R341. -/
def DMA_CH_ERR_ADDR_LO (i : Nat) : Nat := 0x58000C + i * 0x40
def DMA_CH_ERR_ADDR_LO_addr : Bits := ⟨31, 0⟩
/-- DMA_CH_ERR_ADDR_HI, 11_dram_dma.md R341. -/
def DMA_CH_ERR_ADDR_HI (i : Nat) : Nat := 0x580010 + i * 0x40
def DMA_CH_ERR_ADDR_HI_addr : Bits := ⟨15, 0⟩
/-- DMA_CH_DESC_LO, 11_dram_dma.md R341. -/
def DMA_CH_DESC_LO (i : Nat) : Nat := 0x580014 + i * 0x40
def DMA_CH_DESC_LO_addr : Bits := ⟨31, 0⟩
/-- DMA_CH_DESC_HI, 11_dram_dma.md R341. -/
def DMA_CH_DESC_HI (i : Nat) : Nat := 0x580018 + i * 0x40
def DMA_CH_DESC_HI_addr : Bits := ⟨15, 0⟩
/-- DMA_CH_DONE, 11_dram_dma.md R341. -/
def DMA_CH_DONE (i : Nat) : Nat := 0x58001C + i * 0x40
def DMA_CH_DONE_bytes_done : Bits := ⟨31, 0⟩
/-- DMA_OWN, 11_dram_dma.md R341. -/
def DMA_OWN (i : Nat) : Nat := 0x5C0000 + i * 0x4
def DMA_OWN_owned : Bits := ⟨31, 0⟩
/-- DMA_CNT_HALT, 11_dram_dma.md R341. -/
def DMA_CNT_HALT : Nat := 0x5C0008
def DMA_CNT_HALT_count : Bits := ⟨31, 0⟩
/-- NET_PORT_CFG, 14_network_peers.md R440. -/
def NET_PORT_CFG (i : Nat) : Nat := 0x600000 + i * 0x1000
def NET_PORT_CFG_max_frame : Bits := ⟨31, 16⟩
def NET_PORT_CFG_preempt_en : Bits := ⟨3, 3⟩
def NET_PORT_CFG_adv_1g : Bits := ⟨2, 2⟩
def NET_PORT_CFG_adv_2g5 : Bits := ⟨1, 1⟩
def NET_PORT_CFG_enable : Bits := ⟨0, 0⟩
/-- NET_PORT_STAT, 14_network_peers.md R440. -/
def NET_PORT_STAT (i : Nat) : Nat := 0x600004 + i * 0x1000
def NET_PORT_STAT_preempt_active : Bits := ⟨7, 7⟩
def NET_PORT_STAT_ptp_role : Bits := ⟨6, 5⟩
def NET_PORT_STAT_speed : Bits := ⟨4, 3⟩
def NET_PORT_STAT_link : Bits := ⟨0, 0⟩
/-- NET_MAC_LO, 14_network_peers.md R440. -/
def NET_MAC_LO (i : Nat) : Nat := 0x600008 + i * 0x1000
def NET_MAC_LO_mac : Bits := ⟨31, 0⟩
/-- NET_MAC_HI, 14_network_peers.md R440. -/
def NET_MAC_HI (i : Nat) : Nat := 0x60000C + i * 0x1000
def NET_MAC_HI_mac : Bits := ⟨15, 0⟩
/-- NET_PCP_MAP, 14_network_peers.md R440. -/
def NET_PCP_MAP (i : Nat) : Nat := 0x600010 + i * 0x1000
def NET_PCP_MAP_map : Bits := ⟨23, 0⟩
/-- NET_TC_CFG, 14_network_peers.md R440. -/
def NET_TC_CFG (i : Nat) : Nat := 0x600014 + i * 0x1000
def NET_TC_CFG_preemptable : Bits := ⟨23, 16⟩
def NET_TC_CFG_mode7 : Bits := ⟨15, 14⟩
def NET_TC_CFG_modes : Bits := ⟨13, 0⟩
/-- NET_CBS_SLOPE, 14_network_peers.md R440. -/
def NET_CBS_SLOPE (i : Nat) (j : Nat) : Nat := 0x600020 + i * 0x1000 + j * 0x4
def NET_CBS_SLOPE_idle_kbps : Bits := ⟨31, 0⟩
/-- NET_QBV_CYCLE, 14_network_peers.md R440. -/
def NET_QBV_CYCLE (i : Nat) : Nat := 0x600040 + i * 0x1000
def NET_QBV_CYCLE_cycle_ns : Bits := ⟨31, 0⟩
/-- NET_VLAN, 14_network_peers.md R440. -/
def NET_VLAN (i : Nat) : Nat := 0x600044 + i * 0x1000
def NET_VLAN_tagged : Bits := ⟨12, 12⟩
def NET_VLAN_vid : Bits := ⟨11, 0⟩
/-- NET_CNT_RX_DROP, 14_network_peers.md R440. -/
def NET_CNT_RX_DROP (i : Nat) (j : Nat) : Nat := 0x600080 + i * 0x1000 + j * 0x4
def NET_CNT_RX_DROP_count : Bits := ⟨31, 0⟩
/-- NET_CNT_TX_LATE, 14_network_peers.md R440. -/
def NET_CNT_TX_LATE (i : Nat) : Nat := 0x6000A0 + i * 0x1000
def NET_CNT_TX_LATE_count : Bits := ⟨31, 0⟩
/-- NET_CNT_CB_ELIM, 14_network_peers.md R440. -/
def NET_CNT_CB_ELIM (i : Nat) : Nat := 0x6000A4 + i * 0x1000
def NET_CNT_CB_ELIM_count : Bits := ⟨31, 0⟩
/-- NET_CNT_QCI_DROP, 14_network_peers.md R440. -/
def NET_CNT_QCI_DROP (i : Nat) : Nat := 0x6000A8 + i * 0x1000
def NET_CNT_QCI_DROP_count : Bits := ⟨31, 0⟩
/-- NET_CNT_CLR, 14_network_peers.md R440. -/
def NET_CNT_CLR (i : Nat) : Nat := 0x6000B0 + i * 0x1000
def NET_CNT_CLR_clear : Bits := ⟨10, 0⟩
/-- NET_NODE, 14_network_peers.md R440. -/
def NET_NODE : Nat := 0x620000
def NET_NODE_node : Bits := ⟨15, 0⟩
/-- NET_GPTP_CFG, 14_network_peers.md R440. -/
def NET_GPTP_CFG : Nat := 0x620004
def NET_GPTP_CFG_holdover_s : Bits := ⟨31, 16⟩
def NET_GPTP_CFG_sync_thresh : Bits := ⟨15, 8⟩
def NET_GPTP_CFG_domain : Bits := ⟨6, 0⟩
/-- NET_GPTP_STAT, 14_network_peers.md R440. -/
def NET_GPTP_STAT : Nat := 0x620008
def NET_GPTP_STAT_offset_ns : Bits := ⟨31, 16⟩
def NET_GPTP_STAT_slave_port : Bits := ⟨3, 2⟩
def NET_GPTP_STAT_state : Bits := ⟨1, 0⟩
/-- NET_TIME_NS, 14_network_peers.md R440. -/
def NET_TIME_NS : Nat := 0x62000C
def NET_TIME_NS_ns : Bits := ⟨31, 0⟩
/-- NET_TIME_SL, 14_network_peers.md R440. -/
def NET_TIME_SL : Nat := 0x620010
def NET_TIME_SL_s_lo : Bits := ⟨31, 0⟩
/-- NET_TIME_SH, 14_network_peers.md R440. -/
def NET_TIME_SH : Nat := 0x620014
def NET_TIME_SH_valid : Bits := ⟨16, 16⟩
def NET_TIME_SH_s_hi : Bits := ⟨15, 0⟩
/-- NET_TLK_DMAC_LO, 14_network_peers.md R440. -/
def NET_TLK_DMAC_LO (i : Nat) : Nat := 0x630000 + i * 0x20
def NET_TLK_DMAC_LO_dmac : Bits := ⟨31, 0⟩
/-- NET_TLK_DMAC_HI, 14_network_peers.md R440. -/
def NET_TLK_DMAC_HI (i : Nat) : Nat := 0x630004 + i * 0x20
def NET_TLK_DMAC_HI_pcp : Bits := ⟨30, 28⟩
def NET_TLK_DMAC_HI_vid : Bits := ⟨27, 16⟩
def NET_TLK_DMAC_HI_dmac : Bits := ⟨15, 0⟩
/-- NET_TLK_CFG, 14_network_peers.md R440. -/
def NET_TLK_CFG (i : Nat) : Nat := 0x630008 + i * 0x20
def NET_TLK_CFG_ports : Bits := ⟨18, 17⟩
def NET_TLK_CFG_replicate : Bits := ⟨16, 16⟩
def NET_TLK_CFG_uid : Bits := ⟨15, 0⟩
/-- NET_TLK_PRES, 14_network_peers.md R440. -/
def NET_TLK_PRES (i : Nat) : Nat := 0x63000C + i * 0x20
def NET_TLK_PRES_pres_ns : Bits := ⟨31, 0⟩
/-- NET_TLK_GEN, 14_network_peers.md R440. -/
def NET_TLK_GEN (i : Nat) : Nat := 0x630010 + i * 0x20
def NET_TLK_GEN_gen : Bits := ⟨15, 0⟩
/-- NET_PSFP_MAC_LO, 14_network_peers.md R440. -/
def NET_PSFP_MAC_LO (i : Nat) : Nat := 0x640000 + i * 0x10
def NET_PSFP_MAC_LO_mac : Bits := ⟨31, 0⟩
/-- NET_PSFP_MAC_HI, 14_network_peers.md R440. -/
def NET_PSFP_MAC_HI (i : Nat) : Nat := 0x640004 + i * 0x10
def NET_PSFP_MAC_HI_en : Bits := ⟨31, 31⟩
def NET_PSFP_MAC_HI_ports : Bits := ⟨30, 29⟩
def NET_PSFP_MAC_HI_vid : Bits := ⟨27, 16⟩
def NET_PSFP_MAC_HI_mac : Bits := ⟨15, 0⟩
/-- NET_PSFP_SDU, 14_network_peers.md R440. -/
def NET_PSFP_SDU (i : Nat) : Nat := 0x640008 + i * 0x10
def NET_PSFP_SDU_max_sdu : Bits := ⟨15, 0⟩
/-- NET_PSFP_METER, 14_network_peers.md R440. -/
def NET_PSFP_METER (i : Nat) : Nat := 0x64000C + i * 0x10
def NET_PSFP_METER_cir : Bits := ⟨31, 12⟩
def NET_PSFP_METER_cbs : Bits := ⟨11, 0⟩
/-- YWP_CFG, 14_network_peers.md R441. -/
def YWP_CFG : Nat := 0x680000
def YWP_CFG_ethertype : Bits := ⟨31, 16⟩
def YWP_CFG_udp_en : Bits := ⟨1, 1⟩
def YWP_CFG_eth_en : Bits := ⟨0, 0⟩
/-- YWP_UDP, 14_network_peers.md R441. -/
def YWP_UDP : Nat := 0x680004
def YWP_UDP_prefix : Bits := ⟨21, 16⟩
def YWP_UDP_port : Bits := ⟨15, 0⟩
/-- YWP_IPV4_A, 14_network_peers.md R441. -/
def YWP_IPV4_A : Nat := 0x680008
def YWP_IPV4_A_addr : Bits := ⟨31, 0⟩
/-- YWP_IPV4_B, 14_network_peers.md R441. -/
def YWP_IPV4_B : Nat := 0x68000C
def YWP_IPV4_B_addr : Bits := ⟨31, 0⟩
/-- YWP_WIN_CFG, 14_network_peers.md R441. -/
def YWP_WIN_CFG : Nat := 0x680010
def YWP_WIN_CFG_credit_timeout_ms : Bits := ⟨31, 16⟩
def YWP_WIN_CFG_retries : Bits := ⟨15, 12⟩
def YWP_WIN_CFG_retry_100us : Bits := ⟨11, 0⟩
/-- YWP_CREDIT_WIN, 14_network_peers.md R441. -/
def YWP_CREDIT_WIN : Nat := 0x680014
def YWP_CREDIT_WIN_bytes : Bits := ⟨31, 0⟩
/-- YWP_CNT_CLOSED, 14_network_peers.md R441. -/
def YWP_CNT_CLOSED : Nat := 0x680020
def YWP_CNT_CLOSED_count : Bits := ⟨31, 0⟩
/-- YWP_CNT_RESENT, 14_network_peers.md R441. -/
def YWP_CNT_RESENT : Nat := 0x680024
def YWP_CNT_RESENT_count : Bits := ⟨31, 0⟩
/-- YWP_CNT_DROPPED, 14_network_peers.md R441. -/
def YWP_CNT_DROPPED : Nat := 0x680028
def YWP_CNT_DROPPED_count : Bits := ⟨31, 0⟩
/-- YWP_CNT_DUP, 14_network_peers.md R441. -/
def YWP_CNT_DUP : Nat := 0x68002C
def YWP_CNT_DUP_count : Bits := ⟨31, 0⟩
/-- YWP_CNT_CLR, 14_network_peers.md R441. -/
def YWP_CNT_CLR : Nat := 0x680030
def YWP_CNT_CLR_clear : Bits := ⟨3, 0⟩
/-- YWP_EXP_REGION, 14_network_peers.md R441. -/
def YWP_EXP_REGION (i : Nat) : Nat := 0x681000 + i * 0x20
def YWP_EXP_REGION_handle : Bits := ⟨31, 0⟩
/-- YWP_EXP_OFS, 14_network_peers.md R441. -/
def YWP_EXP_OFS (i : Nat) : Nat := 0x681004 + i * 0x20
def YWP_EXP_OFS_ofs_4k : Bits := ⟨31, 0⟩
/-- YWP_EXP_CTL, 14_network_peers.md R441. -/
def YWP_EXP_CTL (i : Nat) : Nat := 0x681008 + i * 0x20
def YWP_EXP_CTL_size_m1 : Bits := ⟨31, 14⟩
def YWP_EXP_CTL_arrive : Bits := ⟨5, 5⟩
def YWP_EXP_CTL_sync : Bits := ⟨4, 4⟩
def YWP_EXP_CTL_read : Bits := ⟨3, 3⟩
def YWP_EXP_CTL_write : Bits := ⟨2, 2⟩
def YWP_EXP_CTL_open : Bits := ⟨0, 0⟩
/-- YWP_EXP_SYNC, 14_network_peers.md R441. -/
def YWP_EXP_SYNC (i : Nat) : Nat := 0x68100C + i * 0x20
def YWP_EXP_SYNC_first : Bits := ⟨28, 16⟩
def YWP_EXP_SYNC_count : Bits := ⟨8, 0⟩
/-- YWP_EXP_ARRIVE, 14_network_peers.md R441. -/
def YWP_EXP_ARRIVE (i : Nat) : Nat := 0x681010 + i * 0x20
def YWP_EXP_ARRIVE_obj : Bits := ⟨12, 0⟩
/-- YWP_EXP_GEN, 14_network_peers.md R441. -/
def YWP_EXP_GEN (i : Nat) : Nat := 0x681014 + i * 0x20
def YWP_EXP_GEN_gen : Bits := ⟨15, 0⟩
/-- YWP_BIND_TGT, 14_network_peers.md R441. -/
def YWP_BIND_TGT (i : Nat) : Nat := 0x684000 + i * 0x10
def YWP_BIND_TGT_window : Bits := ⟨31, 16⟩
def YWP_BIND_TGT_node : Bits := ⟨15, 0⟩
/-- YWP_BIND_STAT, 14_network_peers.md R441. -/
def YWP_BIND_STAT (i : Nat) : Nat := 0x684004 + i * 0x10
def YWP_BIND_STAT_bind_gen : Bits := ⟨31, 16⟩
def YWP_BIND_STAT_kind : Bits := ⟨15, 14⟩
def YWP_BIND_STAT_receivers : Bits := ⟨13, 9⟩
def YWP_BIND_STAT_flags : Bits := ⟨3, 0⟩
/-- YWP_BIND_SIZE, 14_network_peers.md R441. -/
def YWP_BIND_SIZE (i : Nat) : Nat := 0x684008 + i * 0x10
def YWP_BIND_SIZE_size_4k : Bits := ⟨31, 0⟩
/-- PWR_STATE, 15_power.md R464. -/
def PWR_STATE : Nat := 0x700000
def PWR_STATE_target : Bits := ⟨7, 4⟩
def PWR_STATE_state : Bits := ⟨3, 0⟩
/-- PWR_STATE_REQ, 15_power.md R464. -/
def PWR_STATE_REQ : Nat := 0x700004
def PWR_STATE_REQ_target : Bits := ⟨3, 0⟩
/-- PWR_MODE, 15_power.md R464. -/
def PWR_MODE : Nat := 0x700008
def PWR_MODE_mode : Bits := ⟨17, 16⟩
def PWR_MODE_request : Bits := ⟨1, 0⟩
/-- PWR_CFG, 15_power.md R464. -/
def PWR_CFG : Nat := 0x70000C
def PWR_CFG_auto_idle_ms : Bits := ⟨31, 16⟩
def PWR_CFG_standby_spm : Bits := ⟨3, 3⟩
def PWR_CFG_wake_b : Bits := ⟨2, 2⟩
def PWR_CFG_wake_a : Bits := ⟨1, 1⟩
def PWR_CFG_auto_run : Bits := ⟨0, 0⟩
/-- PWR_DOM_CFG, 15_power.md R464. -/
def PWR_DOM_CFG : Nat := 0x700010
def PWR_DOM_CFG_fe_b : Bits := ⟨9, 9⟩
def PWR_DOM_CFG_fe_a : Bits := ⟨8, 8⟩
def PWR_DOM_CFG_cluster : Bits := ⟨7, 0⟩
/-- PWR_DOM_STAT, 15_power.md R464. -/
def PWR_DOM_STAT : Nat := 0x700014
def PWR_DOM_STAT_ctl : Bits := ⟨29, 29⟩
def PWR_DOM_STAT_net : Bits := ⟨28, 28⟩
def PWR_DOM_STAT_ddr : Bits := ⟨27, 26⟩
def PWR_DOM_STAT_fe : Bits := ⟨25, 24⟩
def PWR_DOM_STAT_spm : Bits := ⟨23, 16⟩
def PWR_DOM_STAT_eng : Bits := ⟨15, 0⟩
/-- PWR_DOM_RET, 15_power.md R464. -/
def PWR_DOM_RET : Nat := 0x700018
def PWR_DOM_RET_spm : Bits := ⟨7, 0⟩
/-- PWR_IN, 15_power.md R464. -/
def PWR_IN : Nat := 0x700020
def PWR_IN_iin_ma : Bits := ⟨31, 16⟩
def PWR_IN_vin_10mv : Bits := ⟨15, 0⟩
/-- PWR_IN_P, 15_power.md R464. -/
def PWR_IN_P : Nat := 0x700024
def PWR_IN_P_p_100ms_dw : Bits := ⟨31, 16⟩
def PWR_IN_P_p_1s_dw : Bits := ⟨15, 0⟩
/-- PWR_RAIL_P, 15_power.md R464. -/
def PWR_RAIL_P : Nat := 0x700028
def PWR_RAIL_P_other : Bits := ⟨31, 24⟩
def PWR_RAIL_P_dram : Bits := ⟨23, 16⟩
def PWR_RAIL_P_spm : Bits := ⟨15, 8⟩
def PWR_RAIL_P_eng : Bits := ⟨7, 0⟩
/-- PWR_ENERGY_LO, 15_power.md R464. -/
def PWR_ENERGY_LO : Nat := 0x700030
def PWR_ENERGY_LO_mj : Bits := ⟨31, 0⟩
/-- PWR_ENERGY_HI, 15_power.md R464. -/
def PWR_ENERGY_HI : Nat := 0x700034
def PWR_ENERGY_HI_mj_hi : Bits := ⟨31, 0⟩
/-- PWR_CAP, 15_power.md R464. -/
def PWR_CAP : Nat := 0x700038
def PWR_CAP_thermal_dw : Bits := ⟨31, 16⟩
def PWR_CAP_supply_dw : Bits := ⟨15, 0⟩
/-- PWR_TEMP, 15_power.md R464. -/
def PWR_TEMP : Nat := 0x70003C
def PWR_TEMP_cold_plate : Bits := ⟨31, 16⟩
def PWR_TEMP_die_max : Bits := ⟨15, 0⟩
/-- PWR_TEMP_STAT, 15_power.md R464. -/
def PWR_TEMP_STAT : Nat := 0x700040
def PWR_TEMP_STAT_cap_held : Bits := ⟨3, 3⟩
def PWR_TEMP_STAT_bp1_ok : Bits := ⟨2, 2⟩
def PWR_TEMP_STAT_bp0_ok : Bits := ⟨1, 1⟩
def PWR_TEMP_STAT_over_85 : Bits := ⟨0, 0⟩
/-- PWR_SUPPLY_STAT, 15_power.md R464. -/
def PWR_SUPPLY_STAT : Nat := 0x700044
def PWR_SUPPLY_STAT_en : Bits := ⟨2, 2⟩
def PWR_SUPPLY_STAT_supply : Bits := ⟨1, 0⟩
/-- PWR_CAUSE, 15_power.md R464. -/
def PWR_CAUSE : Nat := 0x700048
def PWR_CAUSE_standby_cause : Bits := ⟨15, 8⟩
def PWR_CAUSE_off_cause : Bits := ⟨7, 0⟩
/-- PWR_CNT_HOLDUP, 15_power.md R464. -/
def PWR_CNT_HOLDUP : Nat := 0x700050
def PWR_CNT_HOLDUP_count : Bits := ⟨31, 0⟩
/-- PWR_CNT_STANDBY, 15_power.md R464. -/
def PWR_CNT_STANDBY : Nat := 0x700054
def PWR_CNT_STANDBY_count : Bits := ⟨31, 0⟩
/-- PWR_CNT_TRIP, 15_power.md R464. -/
def PWR_CNT_TRIP : Nat := 0x700058
def PWR_CNT_TRIP_count : Bits := ⟨31, 0⟩
/-- PWR_CNT_CLR, 15_power.md R464. -/
def PWR_CNT_CLR : Nat := 0x700060
def PWR_CNT_CLR_clear : Bits := ⟨2, 0⟩
/-- SEC_LC, 16_security_debug.md R491. -/
def SEC_LC : Nat := 0x780000
def SEC_LC_customer_locked : Bits := ⟨8, 8⟩
def SEC_LC_next : Bits := ⟨5, 4⟩
def SEC_LC_lc : Bits := ⟨1, 0⟩
/-- SEC_DEVID, 16_security_debug.md R491. -/
def SEC_DEVID (i : Nat) : Nat := 0x780010 + i * 0x4
def SEC_DEVID_id : Bits := ⟨31, 0⟩
/-- SEC_BOOT, 16_security_debug.md R491. -/
def SEC_BOOT : Nat := 0x780020
def SEC_BOOT_svn_image : Bits := ⟨31, 24⟩
def SEC_BOOT_svn_otp : Bits := ⟨23, 16⟩
def SEC_BOOT_result : Bits := ⟨10, 8⟩
def SEC_BOOT_other_ok : Bits := ⟨2, 2⟩
def SEC_BOOT_fallback : Bits := ⟨1, 1⟩
def SEC_BOOT_slot : Bits := ⟨0, 0⟩
/-- SEC_PKG_POLICY, 16_security_debug.md R491. -/
def SEC_PKG_POLICY : Nat := 0x780024
def SEC_PKG_POLICY_floor : Bits := ⟨5, 4⟩
def SEC_PKG_POLICY_policy : Bits := ⟨1, 0⟩
/-- SEC_KEYS, 16_security_debug.md R491. -/
def SEC_KEYS : Nat := 0x780028
def SEC_KEYS_identity : Bits := ⟨4, 4⟩
def SEC_KEYS_passwords : Bits := ⟨3, 1⟩
def SEC_KEYS_owner : Bits := ⟨0, 0⟩
/-- DBG_LEVEL, 16_security_debug.md R492. -/
def DBG_LEVEL : Nat := 0x7C0000
def DBG_LEVEL_backoff_ms : Bits := ⟨31, 16⟩
def DBG_LEVEL_failures : Bits := ⟨15, 8⟩
def DBG_LEVEL_nonce : Bits := ⟨5, 5⟩
def DBG_LEVEL_filling : Bits := ⟨4, 4⟩
def DBG_LEVEL_baseline : Bits := ⟨3, 2⟩
def DBG_LEVEL_level : Bits := ⟨1, 0⟩
/-- DBG_CFG, 16_security_debug.md R492. -/
def DBG_CFG : Nat := 0x7C0004
def DBG_CFG_net_en : Bits := ⟨0, 0⟩
/-- DBG_TRACE, 16_security_debug.md R492. -/
def DBG_TRACE : Nat := 0x7C0008
def DBG_TRACE_next : Bits := ⟨31, 0⟩
/-- DBG_CNT_FAIL, 16_security_debug.md R492. -/
def DBG_CNT_FAIL : Nat := 0x7C000C
def DBG_CNT_FAIL_count : Bits := ⟨31, 0⟩
/-- DBG_CNT_OPEN, 16_security_debug.md R492. -/
def DBG_CNT_OPEN : Nat := 0x7C0010
def DBG_CNT_OPEN_count : Bits := ⟨31, 0⟩
/-- DBG_CNT_CLR, 16_security_debug.md R492. -/
def DBG_CNT_CLR : Nat := 0x7C0014
def DBG_CNT_CLR_clear : Bits := ⟨1, 0⟩
/-- JNL_NEXT, 16_security_debug.md R493. -/
def JNL_NEXT : Nat := 0x7E0000
def JNL_NEXT_number : Bits := ⟨31, 0⟩
/-- JNL_OLDEST, 16_security_debug.md R493. -/
def JNL_OLDEST : Nat := 0x7E0004
def JNL_OLDEST_number : Bits := ⟨31, 0⟩

def regRows0 : List RegRow := [
  ⟨SYS_ID, 0x4, 1, 0x4, 1, [⟨SYS_ID_part, .ro, 29238, 0, 65535, .plain⟩, ⟨SYS_ID_issue, .ro, 2, 0, 255, .plain⟩, ⟨SYS_ID_generation, .ro, 1, 0, 15, .plain⟩]⟩,
  ⟨SYS_FEAT_ENG, 0x4, 1, 0x4, 1, [⟨SYS_FEAT_ENG_mac_cols, .ro, 48, 0, 127, .plain⟩, ⟨SYS_FEAT_ENG_mac_rows, .ro, 48, 0, 127, .plain⟩, ⟨SYS_FEAT_ENG_engines_per_cluster, .ro, 17, 0, 31, .plain⟩, ⟨SYS_FEAT_ENG_clusters, .ro, 8, 0, 15, .plain⟩, ⟨SYS_FEAT_ENG_engines_physical, .ro, 136, 0, 255, .plain⟩]⟩,
  ⟨SYS_FEAT_MEM, 0x4, 1, 0x4, 1, [⟨SYS_FEAT_MEM_dram_gib, .ro, 64, 0, 255, .plain⟩, ⟨SYS_FEAT_MEM_spm_mib, .ro, 512, 0, 65535, .plain⟩]⟩,
  ⟨SYS_FEAT_FMT, 0x4, 1, 0x4, 1, [⟨SYS_FEAT_FMT_mxfp4, .ro, 1, 0, 1, .plain⟩, ⟨SYS_FEAT_FMT_mxfp6, .ro, 1, 0, 1, .plain⟩, ⟨SYS_FEAT_FMT_mxfp8, .ro, 1, 0, 1, .plain⟩, ⟨SYS_FEAT_FMT_mxint8, .ro, 1, 0, 1, .plain⟩, ⟨SYS_FEAT_FMT_bf16, .ro, 1, 0, 1, .plain⟩, ⟨SYS_FEAT_FMT_fp8_e5m2, .ro, 1, 0, 1, .plain⟩, ⟨SYS_FEAT_FMT_fp8_e4m3, .ro, 1, 0, 1, .plain⟩, ⟨SYS_FEAT_FMT_int4, .ro, 1, 0, 1, .plain⟩, ⟨SYS_FEAT_FMT_int8, .ro, 1, 0, 1, .plain⟩]⟩,
  ⟨SYS_FEAT_IO, 0x4, 1, 0x4, 1, [⟨SYS_FEAT_IO_sessions_max, .ro, 256, 0, 511, .plain⟩, ⟨SYS_FEAT_IO_net_ports, .ro, 2, 0, 15, .plain⟩, ⟨SYS_FEAT_IO_lanes, .ro, 8, 0, 15, .plain⟩, ⟨SYS_FEAT_IO_ports, .ro, 36, 0, 255, .plain⟩]⟩,
  ⟨SYS_FEAT_CTL, 0x4, 1, 0x4, 1, [⟨SYS_FEAT_CTL_addr_slots, .ro, 4, 0, 15, .plain⟩, ⟨SYS_FEAT_CTL_loop_levels, .ro, 6, 0, 15, .plain⟩, ⟨SYS_FEAT_CTL_chain_stages, .ro, 8, 0, 15, .plain⟩, ⟨SYS_FEAT_CTL_sync_objects, .ro, 8192, 0, 65535, .plain⟩]⟩,
  ⟨SYS_LIB_VER, 0x4, 1, 0x4, 1, [⟨SYS_LIB_VER_major, .ro, 0, 0, 255, .plain⟩, ⟨SYS_LIB_VER_minor, .ro, 0, 0, 255, .plain⟩, ⟨SYS_LIB_VER_build, .ro, 0, 0, 65535, .plain⟩]⟩,
  ⟨SYS_FW_VER, 0x4, 1, 0x4, 1, [⟨SYS_FW_VER_major, .ro, 0, 0, 255, .plain⟩, ⟨SYS_FW_VER_minor, .ro, 0, 0, 255, .plain⟩, ⟨SYS_FW_VER_build, .ro, 0, 0, 65535, .plain⟩]⟩,
  ⟨SYS_ADM_STAT, 0x4, 1, 0x4, 1, [⟨SYS_ADM_STAT_mode, .ro, 0, 0, 3, .plain⟩, ⟨SYS_ADM_STAT_changing, .ro, 0, 0, 1, .plain⟩, ⟨SYS_ADM_STAT_jobs, .ro, 0, 0, 2047, .plain⟩, ⟨SYS_ADM_STAT_streams, .ro, 0, 0, 63, .plain⟩]⟩,
  ⟨SYS_ADM_POWER, 0x4, 1, 0x4, 1, [⟨SYS_ADM_POWER_cap_dw, .ro, 0, 0, 65535, .plain⟩, ⟨SYS_ADM_POWER_planned_dw, .ro, 0, 0, 65535, .plain⟩]⟩,
  ⟨SYS_ADM_REPORT, 0x4, 1, 0x4, 1, [⟨SYS_ADM_REPORT_handle, .rw, 0, 0, 4294967295, .plain⟩]⟩,
  ⟨SYS_ADM_CNT_REFUSED, 0x4, 1, 0x4, 1, [⟨SYS_ADM_CNT_REFUSED_count, .ro, 0, 0, 4294967295, .plain⟩]⟩,
  ⟨SYS_ADM_CNT_EXPIRED, 0x4, 1, 0x4, 1, [⟨SYS_ADM_CNT_EXPIRED_count, .ro, 0, 0, 4294967295, .plain⟩]⟩,
  ⟨SYS_ADM_CNT_PREEMPT, 0x4, 1, 0x4, 1, [⟨SYS_ADM_CNT_PREEMPT_count, .ro, 0, 0, 4294967295, .plain⟩]⟩,
  ⟨SYS_ADM_CNT_MISSED, 0x4, 1, 0x4, 1, [⟨SYS_ADM_CNT_MISSED_count, .ro, 0, 0, 4294967295, .plain⟩]⟩,
  ⟨SYS_ADM_CNT_CLR, 0x4, 1, 0x4, 1, [⟨SYS_ADM_CNT_CLR_clear, .wo, 0, 0, 15, .plain⟩]⟩,
  ⟨SYS_BOOT_STAT, 0x4, 1, 0x4, 1, [⟨SYS_BOOT_STAT_backoff_default, .ro, 0, 0, 1, .plain⟩, ⟨SYS_BOOT_STAT_settings_default, .ro, 0, 0, 1, .plain⟩, ⟨SYS_BOOT_STAT_halted, .ro, 0, 0, 1, .plain⟩, ⟨SYS_BOOT_STAT_ready, .ro, 0, 0, 1, .plain⟩, ⟨SYS_BOOT_STAT_storm, .ro, 0, 0, 3, .plain⟩, ⟨SYS_BOOT_STAT_cause, .ro, 0, 0, 7, .plain⟩]⟩,
  ⟨SYS_RESET, 0x4, 1, 0x4, 1, [⟨SYS_RESET_key, .wo, 0, 0, 65535, .plain⟩, ⟨SYS_RESET_go, .wo, 0, 0, 1, .plain⟩]⟩,
  ⟨SYS_CP_STAT, 0x4, 1, 0x4, 1, [⟨SYS_CP_STAT_faults, .ro, 0, 0, 255, .plain⟩, ⟨SYS_CP_STAT_cp1, .ro, 0, 0, 3, .plain⟩, ⟨SYS_CP_STAT_cp0, .ro, 0, 0, 3, .plain⟩]⟩,
  ⟨SYS_FLT_CNT 0, 0x4, 16, 0x4, 1, [⟨SYS_FLT_CNT_count, .ro, 0, 0, 4294967295, .plain⟩]⟩]

def regRows1 : List RegRow := [
  ⟨SYS_FLT_CNT_CLR, 0x4, 1, 0x4, 1, [⟨SYS_FLT_CNT_CLR_clear, .wo, 0, 0, 65535, .plain⟩]⟩,
  ⟨SYS_FLOG_IDX, 0x4, 1, 0x4, 1, [⟨SYS_FLOG_IDX_clear, .wo, 0, 0, 1, .plain⟩, ⟨SYS_FLOG_IDX_count, .ro, 0, 0, 511, .plain⟩, ⟨SYS_FLOG_IDX_index, .rw, 0, 0, 255, .plain⟩]⟩,
  ⟨SYS_FLOG_DATA 0, 0x4, 8, 0x4, 1, [⟨SYS_FLOG_DATA_data, .ro, 0, 0, 4294967295, .plain⟩]⟩,
  ⟨CAP_PORT_CFG 0, 0x1000, 36, 0x4, 1, [⟨CAP_PORT_CFG_strobe_pol, .rw, 0, 0, 1, .plain⟩, ⟨CAP_PORT_CFG_strobe_en, .rw, 0, 0, 1, .plain⟩, ⟨CAP_PORT_CFG_pclk_edge, .rw, 0, 0, 1, .plain⟩, ⟨CAP_PORT_CFG_vsync_pol, .rw, 0, 0, 1, .plain⟩, ⟨CAP_PORT_CFG_hsync_pol, .rw, 0, 0, 1, .plain⟩, ⟨CAP_PORT_CFG_vsync_mode, .rw, 0, 0, 1, .plain⟩, ⟨CAP_PORT_CFG_hsync_mode, .rw, 0, 0, 1, .plain⟩, ⟨CAP_PORT_CFG_mosaic, .rw, 0, 0, 5, .plain⟩, ⟨CAP_PORT_CFG_width, .rw, 0, 0, 4, .plain⟩, ⟨CAP_PORT_CFG_ddr, .rw, 0, 0, 1, .plain⟩, ⟨CAP_PORT_CFG_signalling, .rw, 0, 0, 1, .plain⟩, ⟨CAP_PORT_CFG_enable, .rw, 0, 0, 1, .plain⟩]⟩,
  ⟨CAP_PORT_STATE 0, 0x1000, 36, 0x4, 1, [⟨CAP_PORT_STATE_mismatch_run, .ro, 0, 0, 3, .plain⟩, ⟨CAP_PORT_STATE_drift, .ro, 0, 0, 1, .plain⟩, ⟨CAP_PORT_STATE_signal_lost, .ro, 0, 0, 1, .plain⟩, ⟨CAP_PORT_STATE_in_frame, .ro, 0, 0, 1, .plain⟩, ⟨CAP_PORT_STATE_trained, .ro, 0, 0, 1, .plain⟩, ⟨CAP_PORT_STATE_state, .ro, 0, 0, 7, .plain⟩]⟩,
  ⟨CAP_GEOM 0, 0x1000, 36, 0x4, 1, [⟨CAP_GEOM_height, .rw, 0, 16, 8192, .plain⟩, ⟨CAP_GEOM_width, .rw, 0, 16, 8192, .plain⟩]⟩,
  ⟨CAP_GEOM_OFS 0, 0x1000, 36, 0x4, 1, [⟨CAP_GEOM_OFS_v_offset, .rw, 0, 0, 65535, .plain⟩, ⟨CAP_GEOM_OFS_h_offset, .rw, 0, 0, 65535, .plain⟩]⟩,
  ⟨CAP_PAD 0, 0x1000, 36, 0x4, 1, [⟨CAP_PAD_value, .rw, 0, 0, 65535, .plain⟩]⟩,
  ⟨CAP_FRAME_PERIOD 0, 0x1000, 36, 0x4, 1, [⟨CAP_FRAME_PERIOD_period, .ro, 0, 0, 4294967295, .plain⟩]⟩,
  ⟨CAP_SENSOR_CTL 0, 0x1000, 36, 0x4, 1, [⟨CAP_SENSOR_CTL_rst_settle_us, .rw, 1000, 0, 65535, .plain⟩, ⟨CAP_SENSOR_CTL_rst_low_us, .rw, 1000, 1, 65535, .plain⟩]⟩,
  ⟨CAP_MEAS_SEQ 0, 0x1000, 36, 0x4, 1, [⟨CAP_MEAS_SEQ_seq, .ro, 0, 0, 4294967295, .plain⟩]⟩,
  ⟨CAP_MEAS_LINE 0, 0x1000, 36, 0x4, 1, [⟨CAP_MEAS_LINE_max_width, .ro, 0, 0, 65535, .plain⟩, ⟨CAP_MEAS_LINE_min_width, .ro, 0, 0, 65535, .plain⟩]⟩,
  ⟨CAP_MEAS_FRAME 0, 0x1000, 36, 0x4, 1, [⟨CAP_MEAS_FRAME_strobe_ovf, .ro, 0, 0, 1, .plain⟩, ⟨CAP_MEAS_FRAME_late_write, .ro, 0, 0, 1, .plain⟩, ⟨CAP_MEAS_FRAME_early_dropped, .ro, 0, 0, 1, .plain⟩, ⟨CAP_MEAS_FRAME_signal_lost, .ro, 0, 0, 1, .plain⟩, ⟨CAP_MEAS_FRAME_overrun, .ro, 0, 0, 1, .plain⟩, ⟨CAP_MEAS_FRAME_long_lines, .ro, 0, 0, 1, .plain⟩, ⟨CAP_MEAS_FRAME_short_lines, .ro, 0, 0, 1, .plain⟩, ⟨CAP_MEAS_FRAME_long, .ro, 0, 0, 1, .plain⟩, ⟨CAP_MEAS_FRAME_short, .ro, 0, 0, 1, .plain⟩, ⟨CAP_MEAS_FRAME_lines, .ro, 0, 0, 65535, .plain⟩]⟩,
  ⟨CAP_MEAS_PERIOD 0, 0x1000, 36, 0x4, 1, [⟨CAP_MEAS_PERIOD_period, .ro, 0, 0, 4294967295, .plain⟩]⟩,
  ⟨CAP_MEAS_LPERIOD 0, 0x1000, 36, 0x4, 1, [⟨CAP_MEAS_LPERIOD_max, .ro, 0, 0, 65535, .plain⟩, ⟨CAP_MEAS_LPERIOD_min, .ro, 0, 0, 65535, .plain⟩]⟩,
  ⟨CAP_MEAS_BLANK 0, 0x1000, 36, 0x4, 1, [⟨CAP_MEAS_BLANK_hblank_min, .ro, 0, 0, 65535, .plain⟩]⟩,
  ⟨CAP_MEAS_VBLANK 0, 0x1000, 36, 0x4, 1, [⟨CAP_MEAS_VBLANK_vblank, .ro, 0, 0, 4294967295, .plain⟩]⟩,
  ⟨CAP_CNT_SHORT_FRAME 0, 0x1000, 36, 0x4, 1, [⟨CAP_CNT_SHORT_FRAME_count, .ro, 0, 0, 4294967295, .plain⟩]⟩,
  ⟨CAP_CNT_LONG_FRAME 0, 0x1000, 36, 0x4, 1, [⟨CAP_CNT_LONG_FRAME_count, .ro, 0, 0, 4294967295, .plain⟩]⟩,
  ⟨CAP_CNT_SHORT_LINE 0, 0x1000, 36, 0x4, 1, [⟨CAP_CNT_SHORT_LINE_count, .ro, 0, 0, 4294967295, .plain⟩]⟩]

def regRows2 : List RegRow := [
  ⟨CAP_CNT_LONG_LINE 0, 0x1000, 36, 0x4, 1, [⟨CAP_CNT_LONG_LINE_count, .ro, 0, 0, 4294967295, .plain⟩]⟩,
  ⟨CAP_CNT_EARLY_DROP 0, 0x1000, 36, 0x4, 1, [⟨CAP_CNT_EARLY_DROP_count, .ro, 0, 0, 4294967295, .plain⟩]⟩,
  ⟨CAP_CNT_OVERRUN 0, 0x1000, 36, 0x4, 1, [⟨CAP_CNT_OVERRUN_count, .ro, 0, 0, 4294967295, .plain⟩]⟩,
  ⟨CAP_CNT_SIGNAL_LOST 0, 0x1000, 36, 0x4, 1, [⟨CAP_CNT_SIGNAL_LOST_count, .ro, 0, 0, 4294967295, .plain⟩]⟩,
  ⟨CAP_CNT_BUS_ERROR 0, 0x1000, 36, 0x4, 1, [⟨CAP_CNT_BUS_ERROR_count, .ro, 0, 0, 4294967295, .plain⟩]⟩,
  ⟨CAP_CNT_CLR 0, 0x1000, 36, 0x4, 1, [⟨CAP_CNT_CLR_clear, .wo, 0, 0, 255, .plain⟩]⟩,
  ⟨CAP_TRAIN_CTL 0, 0x1000, 36, 0x4, 1, [⟨CAP_TRAIN_CTL_abort, .wo, 0, 0, 1, .plain⟩, ⟨CAP_TRAIN_CTL_start, .wo, 0, 0, 1, .plain⟩]⟩,
  ⟨CAP_TRAIN_PAT 0, 0x1000, 36, 0x4, 1, [⟨CAP_TRAIN_PAT_pattern_b, .rw, 43690, 0, 65535, .plain⟩, ⟨CAP_TRAIN_PAT_pattern_a, .rw, 21845, 0, 65535, .plain⟩]⟩,
  ⟨CAP_TRAIN_STAT 0, 0x1000, 36, 0x4, 1, [⟨CAP_TRAIN_STAT_min_eye, .ro, 0, 0, 255, .plain⟩, ⟨CAP_TRAIN_STAT_line, .ro, 0, 0, 31, .plain⟩, ⟨CAP_TRAIN_STAT_result, .ro, 0, 0, 7, .plain⟩]⟩,
  ⟨CAP_DESKEW 0 0, 0x1000, 36, 0x4, 4, [⟨CAP_DESKEW_tap3, .rw, 64, 0, 127, .plain⟩, ⟨CAP_DESKEW_tap2, .rw, 64, 0, 127, .plain⟩, ⟨CAP_DESKEW_tap1, .rw, 64, 0, 127, .plain⟩, ⟨CAP_DESKEW_tap0, .rw, 64, 0, 127, .plain⟩]⟩,
  ⟨CAP_DESKEW4 0, 0x1000, 36, 0x4, 1, [⟨CAP_DESKEW4_sync_tap, .rw, 64, 0, 127, .plain⟩]⟩,
  ⟨CAP_TRIG_CFG 0, 0x1000, 36, 0x4, 1, [⟨CAP_TRIG_CFG_width_us, .rw, 10, 1, 65535, .plain⟩, ⟨CAP_TRIG_CFG_polarity, .rw, 0, 0, 1, .plain⟩, ⟨CAP_TRIG_CFG_allow_free_run, .rw, 0, 0, 1, .plain⟩, ⟨CAP_TRIG_CFG_mode, .rw, 0, 0, 2, .plain⟩]⟩,
  ⟨CAP_TRIG_DIV 0, 0x1000, 36, 0x4, 1, [⟨CAP_TRIG_DIV_div, .rw, 20000000, 1, 4294967295, .plain⟩]⟩,
  ⟨CAP_TRIG_PERIOD 0, 0x1000, 36, 0x4, 1, [⟨CAP_TRIG_PERIOD_period_ns, .rw, 33333333, 100000, 4294967295, .plain⟩]⟩,
  ⟨CAP_TRIG_START_NS 0, 0x1000, 36, 0x4, 1, [⟨CAP_TRIG_START_NS_ns, .rw, 0, 0, 999999999, .plain⟩]⟩,
  ⟨CAP_TRIG_START_SL 0, 0x1000, 36, 0x4, 1, [⟨CAP_TRIG_START_SL_s_lo, .rw, 0, 0, 4294967295, .plain⟩]⟩,
  ⟨CAP_TRIG_START_SH 0, 0x1000, 36, 0x4, 1, [⟨CAP_TRIG_START_SH_s_hi, .rw, 0, 0, 65535, .plain⟩]⟩,
  ⟨CAP_BUS_CFG 0, 0x1000, 36, 0x4, 1, [⟨CAP_BUS_CFG_timeout_us, .rw, 10000, 1, 65535, .plain⟩, ⟨CAP_BUS_CFG_retries, .rw, 0, 0, 3, .plain⟩, ⟨CAP_BUS_CFG_pullup, .rw, 0, 0, 1, .plain⟩, ⟨CAP_BUS_CFG_i3c_rate, .rw, 0, 0, 2, .plain⟩, ⟨CAP_BUS_CFG_protocol, .rw, 1, 0, 3, .plain⟩]⟩,
  ⟨CAP_SQ_W0 0, 0x1000, 36, 0x4, 1, [⟨CAP_SQ_W0_target, .rw, 0, 0, 127, .free⟩, ⟨CAP_SQ_W0_data_bytes, .rw, 1, 0, 7, .free⟩, ⟨CAP_SQ_W0_reg16, .rw, 0, 0, 1, .free⟩, ⟨CAP_SQ_W0_next, .rw, 0, 0, 1, .free⟩, ⟨CAP_SQ_W0_release, .rw, 0, 0, 3, .free⟩, ⟨CAP_SQ_W0_op, .rw, 0, 0, 3, .free⟩]⟩,
  ⟨CAP_SQ_W1 0, 0x1000, 36, 0x4, 1, [⟨CAP_SQ_W1_reg, .rw, 0, 0, 65535, .free⟩]⟩]

def regRows3 : List RegRow := [
  ⟨CAP_SQ_W2 0, 0x1000, 36, 0x4, 1, [⟨CAP_SQ_W2_data, .rw, 0, 0, 4294967295, .free⟩]⟩,
  ⟨CAP_SQ_W3 0, 0x1000, 36, 0x4, 1, [⟨CAP_SQ_W3_frame, .rw, 0, 0, 4294967295, .free⟩]⟩,
  ⟨CAP_SQ_PUSH 0, 0x1000, 36, 0x4, 1, [⟨CAP_SQ_PUSH_push, .wo, 0, 0, 1, .plain⟩]⟩,
  ⟨CAP_SQ_STAT 0, 0x1000, 36, 0x4, 1, [⟨CAP_SQ_STAT_read_valid, .ro, 0, 0, 1, .plain⟩, ⟨CAP_SQ_STAT_last_error, .ro, 0, 0, 7, .plain⟩, ⟨CAP_SQ_STAT_fill, .ro, 0, 0, 511, .plain⟩]⟩,
  ⟨CAP_SQ_RDATA 0, 0x1000, 36, 0x4, 1, [⟨CAP_SQ_RDATA_data, .ro, 0, 0, 4294967295, .plain⟩]⟩,
  ⟨CAP_MEAS_STAMP_NS 0 0, 0x1000, 36, 0xC, 4, [⟨CAP_MEAS_STAMP_NS_ns, .ro, 0, 0, 4294967295, .plain⟩]⟩,
  ⟨CAP_MEAS_STAMP_SL 0 0, 0x1000, 36, 0xC, 4, [⟨CAP_MEAS_STAMP_SL_s_lo, .ro, 0, 0, 4294967295, .plain⟩]⟩,
  ⟨CAP_MEAS_STAMP_SH 0 0, 0x1000, 36, 0xC, 4, [⟨CAP_MEAS_STAMP_SH_present, .ro, 0, 0, 1, .plain⟩, ⟨CAP_MEAS_STAMP_SH_valid, .ro, 0, 0, 1, .plain⟩, ⟨CAP_MEAS_STAMP_SH_s_hi, .ro, 0, 0, 65535, .plain⟩]⟩,
  ⟨FE_CROP_XY 0, 0x400, 36, 0x4, 1, [⟨FE_CROP_XY_y0, .rw, 0, 0, 65535, .setup⟩, ⟨FE_CROP_XY_x0, .rw, 0, 0, 65535, .setup⟩]⟩,
  ⟨FE_CROP_WH 0, 0x400, 36, 0x4, 1, [⟨FE_CROP_WH_h, .rw, 0, 0, 65535, .setup⟩, ⟨FE_CROP_WH_w, .rw, 0, 0, 65535, .setup⟩]⟩,
  ⟨FE_EXP_CFG 0, 0x400, 36, 0x4, 1, [⟨FE_EXP_CFG_gain_unit, .rw, 256, 0, 65535, .setup⟩, ⟨FE_EXP_CFG_tpl_count, .rw, 0, 0, 8, .setup⟩, ⟨FE_EXP_CFG_awb_en, .rw, 0, 0, 1, .setup⟩, ⟨FE_EXP_CFG_ae_en, .rw, 0, 0, 1, .setup⟩, ⟨FE_EXP_CFG_ne, .rw, 0, 0, 3, .setup⟩]⟩,
  ⟨FE_STAT_CFG 0, 0x400, 36, 0x4, 1, [⟨FE_STAT_CFG_sync_obj, .rw, 0, 0, 8191, .setup⟩, ⟨FE_STAT_CFG_slots, .rw, 1, 1, 255, .setup⟩, ⟨FE_STAT_CFG_sync_en, .rw, 0, 0, 1, .setup⟩, ⟨FE_STAT_CFG_notify, .rw, 0, 0, 1, .setup⟩, ⟨FE_STAT_CFG_en, .rw, 0, 0, 1, .setup⟩]⟩,
  ⟨FE_STAT_DEST 0, 0x400, 36, 0x4, 1, [⟨FE_STAT_DEST_region, .rw, 0, 0, 4294967295, .setup⟩]⟩,
  ⟨FE_EXP_TPL 0 0, 0x400, 36, 0x4, 8, [⟨FE_EXP_TPL_reg, .rw, 0, 0, 65535, .setup⟩, ⟨FE_EXP_TPL_source, .rw, 0, 0, 3, .setup⟩, ⟨FE_EXP_TPL_shift, .rw, 0, 0, 15, .setup⟩, ⟨FE_EXP_TPL_bytes, .rw, 0, 0, 3, .setup⟩, ⟨FE_EXP_TPL_target, .rw, 0, 0, 127, .setup⟩, ⟨FE_EXP_TPL_reg16, .rw, 0, 0, 1, .setup⟩]⟩,
  ⟨FE_OB_XY 0, 0x400, 36, 0x4, 1, [⟨FE_OB_XY_y, .rw, 0, 0, 65535, .shadow⟩, ⟨FE_OB_XY_x, .rw, 0, 0, 65535, .shadow⟩]⟩,
  ⟨FE_OB_WH 0, 0x400, 36, 0x4, 1, [⟨FE_OB_WH_h, .rw, 0, 0, 65535, .shadow⟩, ⟨FE_OB_WH_w, .rw, 0, 0, 65535, .shadow⟩]⟩,
  ⟨FE_BL_CFG 0, 0x400, 36, 0x4, 1, [⟨FE_BL_CFG_track_shift, .rw, 3, 0, 8, .shadow⟩, ⟨FE_BL_CFG_mode, .rw, 0, 0, 2, .shadow⟩]⟩,
  ⟨FE_BL_FIXED_A 0, 0x400, 36, 0x4, 1, [⟨FE_BL_FIXED_A_ch1, .rw, 0, 0, 32767, .shadow⟩, ⟨FE_BL_FIXED_A_ch0, .rw, 0, 0, 32767, .shadow⟩]⟩,
  ⟨FE_BL_FIXED_B 0, 0x400, 36, 0x4, 1, [⟨FE_BL_FIXED_B_ch3, .rw, 0, 0, 32767, .shadow⟩, ⟨FE_BL_FIXED_B_ch2, .rw, 0, 0, 32767, .shadow⟩]⟩,
  ⟨FE_DPC_CFG 0, 0x400, 36, 0x4, 1, [⟨FE_DPC_CFG_static_count, .rw, 0, 0, 4096, .shadow⟩, ⟨FE_DPC_CFG_dyn_rel, .rw, 32, 0, 255, .shadow⟩, ⟨FE_DPC_CFG_dyn_en, .rw, 0, 0, 1, .shadow⟩, ⟨FE_DPC_CFG_static_en, .rw, 0, 0, 1, .shadow⟩]⟩]

def regRows4 : List RegRow := [
  ⟨FE_DPC_DYN 0, 0x400, 36, 0x4, 1, [⟨FE_DPC_DYN_abs, .rw, 1024, 0, 65535, .shadow⟩]⟩,
  ⟨FE_DM_CFG 0, 0x400, 36, 0x4, 1, [⟨FE_DM_CFG_ir_sub, .rw, 0, 0, 1, .shadow⟩, ⟨FE_DM_CFG_lsc_en, .rw, 0, 0, 1, .shadow⟩, ⟨FE_DM_CFG_thresh, .rw, 256, 0, 65535, .shadow⟩]⟩,
  ⟨FE_IR_SUB 0, 0x400, 36, 0x4, 1, [⟨FE_IR_SUB_kb, .rw, 0, 0, 255, .shadow⟩, ⟨FE_IR_SUB_kg, .rw, 0, 0, 255, .shadow⟩, ⟨FE_IR_SUB_kr, .rw, 0, 0, 255, .shadow⟩]⟩,
  ⟨FE_WB_GAIN_A 0, 0x400, 36, 0x4, 1, [⟨FE_WB_GAIN_A_g, .rw, 4096, 0, 65535, .shadow⟩, ⟨FE_WB_GAIN_A_r, .rw, 4096, 0, 65535, .shadow⟩]⟩,
  ⟨FE_WB_GAIN_B 0, 0x400, 36, 0x4, 1, [⟨FE_WB_GAIN_B_b, .rw, 4096, 0, 65535, .shadow⟩]⟩,
  ⟨FE_AE_CFG 0, 0x400, 36, 0x4, 1, [⟨FE_AE_CFG_lines_max, .rw, 65535, 0, 65535, .shadow⟩, ⟨FE_AE_CFG_target, .rw, 12288, 0, 65535, .shadow⟩]⟩,
  ⟨FE_AE_GAIN 0, 0x400, 36, 0x4, 1, [⟨FE_AE_GAIN_dgain_max, .rw, 65535, 0, 65535, .shadow⟩, ⟨FE_AE_GAIN_again_max, .rw, 65535, 0, 65535, .shadow⟩]⟩,
  ⟨FE_EXP_VAL_A 0, 0x400, 36, 0x4, 1, [⟨FE_EXP_VAL_A_trim, .rw, 0, 0, 65535, .shadow⟩, ⟨FE_EXP_VAL_A_lines, .rw, 0, 0, 65535, .shadow⟩]⟩,
  ⟨FE_EXP_VAL_B 0, 0x400, 36, 0x4, 1, [⟨FE_EXP_VAL_B_dgain, .rw, 0, 0, 65535, .shadow⟩, ⟨FE_EXP_VAL_B_again, .rw, 0, 0, 65535, .shadow⟩]⟩,
  ⟨FE_TRIM_CFG 0, 0x400, 36, 0x4, 1, [⟨FE_TRIM_CFG_max_step, .rw, 4, 0, 255, .shadow⟩, ⟨FE_TRIM_CFG_step, .rw, 0, 0, 255, .shadow⟩, ⟨FE_TRIM_CFG_target, .rw, 4096, 0, 65535, .shadow⟩]⟩,
  ⟨FE_COMMIT_FRAME 0, 0x400, 36, 0x4, 1, [⟨FE_COMMIT_FRAME_frame, .rw, 0, 0, 4294967295, .plain⟩]⟩,
  ⟨FE_COMMIT 0, 0x400, 36, 0x4, 1, [⟨FE_COMMIT_with_exposure, .wo, 0, 0, 1, .plain⟩, ⟨FE_COMMIT_next, .wo, 0, 0, 1, .plain⟩, ⟨FE_COMMIT_commit, .wo, 0, 0, 1, .plain⟩]⟩,
  ⟨FE_COMMIT_STAT 0, 0x400, 36, 0x4, 1, [⟨FE_COMMIT_STAT_superseded, .w1c, 0, 0, 1, .plain⟩, ⟨FE_COMMIT_STAT_pending, .ro, 0, 0, 1, .plain⟩, ⟨FE_COMMIT_STAT_last_error, .ro, 0, 0, 15, .plain⟩]⟩,
  ⟨FE_COMMIT_PSID 0, 0x400, 36, 0x4, 1, [⟨FE_COMMIT_PSID_psid, .ro, 0, 0, 4294967295, .plain⟩]⟩,
  ⟨FE_COMMIT_APPLY 0, 0x400, 36, 0x4, 1, [⟨FE_COMMIT_APPLY_frame, .ro, 0, 0, 4294967295, .plain⟩]⟩,
  ⟨FE_CTX_STAT 0, 0x400, 36, 0x4, 1, [⟨FE_CTX_STAT_resident, .ro, 0, 0, 1, .plain⟩, ⟨FE_CTX_STAT_bank, .ro, 0, 0, 1, .plain⟩, ⟨FE_CTX_STAT_slot, .ro, 0, 0, 7, .plain⟩, ⟨FE_CTX_STAT_lane, .ro, 0, 0, 7, .plain⟩]⟩,
  ⟨FE_FRAME_ESID 0, 0x400, 36, 0x4, 1, [⟨FE_FRAME_ESID_exp_failed, .ro, 0, 0, 1, .plain⟩, ⟨FE_FRAME_ESID_exp_late, .ro, 0, 0, 1, .plain⟩, ⟨FE_FRAME_ESID_esid, .ro, 0, 0, 65535, .plain⟩]⟩,
  ⟨FE_TBL_ADDR 0, 0x400, 36, 0x4, 1, [⟨FE_TBL_ADDR_table, .rw, 0, 0, 4, .plain⟩, ⟨FE_TBL_ADDR_index, .rw, 0, 0, 8191, .plain⟩]⟩,
  ⟨FE_TBL_DATA 0, 0x400, 36, 0x4, 1, [⟨FE_TBL_DATA_data, .rw, 0, 0, 4294967295, .plain⟩]⟩,
  ⟨FE_LANE_STAT 0, 0x100, 8, 0x4, 1, [⟨FE_LANE_STAT_slots_used, .ro, 0, 0, 63, .plain⟩]⟩]

def regRows5 : List RegRow := [
  ⟨FE_LANE_LINES 0, 0x100, 8, 0x4, 1, [⟨FE_LANE_LINES_count, .ro, 0, 0, 4294967295, .plain⟩]⟩,
  ⟨NIS_STRIPE_CFG 0, 0x400, 36, 0x4, 1, [⟨NIS_STRIPE_CFG_slots, .rw, 2, 2, 15, .setup⟩, ⟨NIS_STRIPE_CFG_edge, .rw, 1, 0, 2, .setup⟩, ⟨NIS_STRIPE_CFG_halo, .rw, 4, 0, 8, .setup⟩, ⟨NIS_STRIPE_CFG_height, .rw, 1, 0, 3, .setup⟩]⟩,
  ⟨NIS_IN_REGION 0, 0x400, 36, 0x4, 1, [⟨NIS_IN_REGION_handle, .rw, 0, 0, 4294967295, .setup⟩]⟩,
  ⟨NIS_USER_PKG 0 0, 0x400, 36, 0x4, 4, [⟨NIS_USER_PKG_handle, .rw, 0, 0, 4294967295, .setup⟩]⟩,
  ⟨NIS_HIST_REGION 0, 0x400, 36, 0x4, 1, [⟨NIS_HIST_REGION_handle, .rw, 0, 0, 4294967295, .setup⟩]⟩,
  ⟨NIS_IN_SYNC 0, 0x400, 36, 0x4, 1, [⟨NIS_IN_SYNC_frame_en, .rw, 0, 0, 1, .setup⟩, ⟨NIS_IN_SYNC_frame_obj, .rw, 0, 0, 8191, .setup⟩, ⟨NIS_IN_SYNC_stripe_obj, .rw, 0, 0, 8191, .setup⟩]⟩,
  ⟨NIS_PAD_A 0, 0x400, 36, 0x4, 1, [⟨NIS_PAD_A_ch1, .rw, 0, 0, 65535, .setup⟩, ⟨NIS_PAD_A_ch0, .rw, 0, 0, 65535, .setup⟩]⟩,
  ⟨NIS_PAD_B 0, 0x400, 36, 0x4, 1, [⟨NIS_PAD_B_ch3, .rw, 0, 0, 65535, .setup⟩, ⟨NIS_PAD_B_ch2, .rw, 0, 0, 65535, .setup⟩]⟩,
  ⟨NIS_STAGE_SEL 0, 0x400, 36, 0x4, 1, [⟨NIS_STAGE_SEL_tone, .rw, 0, 0, 2, .setup⟩, ⟨NIS_STAGE_SEL_denoise, .rw, 0, 0, 2, .setup⟩, ⟨NIS_STAGE_SEL_hdr, .rw, 0, 0, 2, .setup⟩, ⟨NIS_STAGE_SEL_demosaic, .rw, 0, 0, 2, .setup⟩]⟩,
  ⟨NIS_DMS_CFG 0, 0x400, 36, 0x4, 1, [⟨NIS_DMS_CFG_strength, .rw, 128, 0, 255, .shadow⟩]⟩,
  ⟨NIS_HDR_CFG 0, 0x400, 36, 0x4, 1, [⟨NIS_HDR_CFG_phase, .rw, 0, 0, 2, .setup⟩, ⟨NIS_HDR_CFG_exposures, .rw, 1, 1, 3, .setup⟩]⟩,
  ⟨NIS_HDR_RATIO 0, 0x400, 36, 0x4, 1, [⟨NIS_HDR_RATIO_ratio2, .rw, 256, 256, 65535, .shadow⟩, ⟨NIS_HDR_RATIO_ratio1, .rw, 256, 256, 65535, .shadow⟩]⟩,
  ⟨NIS_DN_CFG 0, 0x400, 36, 0x4, 1, [⟨NIS_DN_CFG_reset_on_commit, .rw, 0, 0, 1, .setup⟩, ⟨NIS_DN_CFG_warm_frames, .rw, 4, 1, 15, .setup⟩, ⟨NIS_DN_CFG_w_max, .rw, 224, 0, 255, .shadow⟩, ⟨NIS_DN_CFG_spatial, .rw, 128, 0, 255, .shadow⟩]⟩,
  ⟨NIS_HIST_CTL 0, 0x400, 36, 0x4, 1, [⟨NIS_HIST_CTL_reset, .wo, 0, 0, 1, .plain⟩]⟩,
  ⟨NIS_HIST_STAT 0, 0x400, 36, 0x4, 1, [⟨NIS_HIST_STAT_warming, .ro, 0, 0, 1, .plain⟩, ⟨NIS_HIST_STAT_j, .ro, 0, 0, 65535, .plain⟩]⟩,
  ⟨NIS_DMR_CFG 0, 0x400, 36, 0x4, 1, [⟨NIS_DMR_CFG_max_reuse, .rw, 8, 1, 255, .shadow⟩, ⟨NIS_DMR_CFG_tone, .rw, 0, 0, 1, .shadow⟩, ⟨NIS_DMR_CFG_demosaic, .rw, 0, 0, 1, .shadow⟩, ⟨NIS_DMR_CFG_thresh, .rw, 0, 0, 65535, .shadow⟩]⟩,
  ⟨NIS_TONE_CFG 0, 0x400, 36, 0x4, 1, [⟨NIS_TONE_CFG_curve, .rw, 0, 0, 2, .shadow⟩, ⟨NIS_TONE_CFG_local, .rw, 128, 0, 255, .shadow⟩]⟩,
  ⟨NIS_TBL_ADDR 0, 0x400, 36, 0x4, 1, [⟨NIS_TBL_ADDR_table, .rw, 0, 0, 0, .plain⟩, ⟨NIS_TBL_ADDR_index, .rw, 0, 0, 255, .plain⟩]⟩,
  ⟨NIS_TBL_DATA 0, 0x400, 36, 0x4, 1, [⟨NIS_TBL_DATA_data, .rw, 0, 0, 4294967295, .plain⟩]⟩,
  ⟨NIS_CNT_ROWS_COMPUTED 0, 0x400, 36, 0x4, 1, [⟨NIS_CNT_ROWS_COMPUTED_count, .ro, 0, 0, 4294967295, .plain⟩]⟩]

def regRows6 : List RegRow := [
  ⟨NIS_CNT_ROWS_REUSED 0, 0x400, 36, 0x4, 1, [⟨NIS_CNT_ROWS_REUSED_count, .ro, 0, 0, 4294967295, .plain⟩]⟩,
  ⟨NIS_FRAME_INDEX 0, 0x400, 36, 0x4, 1, [⟨NIS_FRAME_INDEX_count, .ro, 0, 0, 4294967295, .plain⟩]⟩,
  ⟨NIS_OUT_CFG 0 0, 0x400, 36, 0x40, 4, [⟨NIS_OUT_CFG_slots, .rw, 2, 1, 8, .setup⟩, ⟨NIS_OUT_CFG_t_layout, .rw, 0, 0, 1, .setup⟩, ⟨NIS_OUT_CFG_t_type, .rw, 0, 0, 3, .setup⟩, ⟨NIS_OUT_CFG_t_ch, .rw, 0, 0, 2, .setup⟩, ⟨NIS_OUT_CFG_range, .rw, 0, 0, 1, .setup⟩, ⟨NIS_OUT_CFG_matrix, .rw, 0, 0, 1, .setup⟩, ⟨NIS_OUT_CFG_format, .rw, 0, 0, 6, .setup⟩, ⟨NIS_OUT_CFG_sy, .rw, 0, 0, 3, .setup⟩, ⟨NIS_OUT_CFG_sx, .rw, 0, 0, 3, .setup⟩, ⟨NIS_OUT_CFG_kind, .rw, 0, 0, 3, .setup⟩, ⟨NIS_OUT_CFG_en, .rw, 0, 0, 1, .setup⟩]⟩,
  ⟨NIS_OUT_WIN_XY 0 0, 0x400, 36, 0x40, 4, [⟨NIS_OUT_WIN_XY_y0, .rw, 0, 0, 65535, .setup⟩, ⟨NIS_OUT_WIN_XY_x0, .rw, 0, 0, 65535, .setup⟩]⟩,
  ⟨NIS_OUT_WIN_WH 0 0, 0x400, 36, 0x40, 4, [⟨NIS_OUT_WIN_WH_h, .rw, 0, 0, 65535, .setup⟩, ⟨NIS_OUT_WIN_WH_w, .rw, 0, 0, 65535, .setup⟩]⟩,
  ⟨NIS_OUT_DEST 0 0, 0x400, 36, 0x40, 4, [⟨NIS_OUT_DEST_sync_obj, .rw, 0, 0, 8191, .setup⟩, ⟨NIS_OUT_DEST_per_frame, .rw, 0, 0, 1, .setup⟩, ⟨NIS_OUT_DEST_window, .rw, 0, 0, 1, .setup⟩, ⟨NIS_OUT_DEST_avtp, .rw, 0, 0, 1, .setup⟩, ⟨NIS_OUT_DEST_clip, .rw, 0, 0, 1, .setup⟩]⟩,
  ⟨NIS_OUT_REGION 0 0, 0x400, 36, 0x40, 4, [⟨NIS_OUT_REGION_handle, .rw, 0, 0, 4294967295, .setup⟩]⟩,
  ⟨NIS_OUT_CLIP 0 0, 0x400, 36, 0x40, 4, [⟨NIS_OUT_CLIP_handle, .rw, 0, 0, 4294967295, .setup⟩]⟩,
  ⟨NIS_OUT_NET 0 0, 0x400, 36, 0x40, 4, [⟨NIS_OUT_NET_handle, .rw, 0, 0, 4294967295, .setup⟩]⟩,
  ⟨NIS_OUT_TQ0 0 0, 0x400, 36, 0x40, 4, [⟨NIS_OUT_TQ0_scale, .rw, 23544, 0, 65535, .shadow⟩, ⟨NIS_OUT_TQ0_offset, .rw, 0, 0, 65535, .shadow⟩]⟩,
  ⟨NIS_OUT_TQ1 0 0, 0x400, 36, 0x40, 4, [⟨NIS_OUT_TQ1_scale, .rw, 23544, 0, 65535, .shadow⟩, ⟨NIS_OUT_TQ1_offset, .rw, 0, 0, 65535, .shadow⟩]⟩,
  ⟨NIS_OUT_TQ2 0 0, 0x400, 36, 0x40, 4, [⟨NIS_OUT_TQ2_scale, .rw, 23544, 0, 65535, .shadow⟩, ⟨NIS_OUT_TQ2_offset, .rw, 0, 0, 65535, .shadow⟩]⟩,
  ⟨NIS_OUT_TQ3 0 0, 0x400, 36, 0x40, 4, [⟨NIS_OUT_TQ3_scale, .rw, 23544, 0, 65535, .shadow⟩, ⟨NIS_OUT_TQ3_offset, .rw, 0, 0, 65535, .shadow⟩]⟩,
  ⟨NIS_OUT_LAT 0 0, 0x400, 36, 0x40, 4, [⟨NIS_OUT_LAT_lambda_ns, .ro, 0, 0, 4294967295, .plain⟩]⟩,
  ⟨NIS_OUT_CTL 0 0, 0x400, 36, 0x40, 4, [⟨NIS_OUT_CTL_resume, .wo, 0, 0, 1, .plain⟩]⟩,
  ⟨NIS_OUT_STAT 0 0, 0x400, 36, 0x40, 4, [⟨NIS_OUT_STAT_dest_dropped, .ro, 0, 0, 65535, .plain⟩, ⟨NIS_OUT_STAT_window_halted, .ro, 0, 0, 1, .plain⟩]⟩,
  ⟨NIS_RES_VER, 0x4, 1, 0x4, 1, [⟨NIS_RES_VER_major, .ro, 0, 0, 255, .plain⟩, ⟨NIS_RES_VER_minor, .ro, 0, 0, 255, .plain⟩, ⟨NIS_RES_VER_build, .ro, 0, 0, 65535, .plain⟩]⟩,
  ⟨CAL_CTX_CTL 0, 0x100, 36, 0x4, 1, [⟨CAL_CTX_CTL_source, .wo, 0, 0, 1, .plain⟩, ⟨CAL_CTX_CTL_purpose, .wo, 0, 0, 3, .plain⟩, ⟨CAL_CTX_CTL_kind, .wo, 0, 0, 4, .plain⟩, ⟨CAL_CTX_CTL_store, .wo, 0, 0, 1, .plain⟩, ⟨CAL_CTX_CTL_abort, .wo, 0, 0, 1, .plain⟩, ⟨CAL_CTX_CTL_start, .wo, 0, 0, 1, .plain⟩]⟩,
  ⟨CAL_CTX_CFG 0, 0x100, 36, 0x4, 1, [⟨CAL_CTX_CFG_dtemp, .rw, 128, 0, 255, .plain⟩, ⟨CAL_CTX_CFG_auto_store, .rw, 0, 0, 1, .plain⟩, ⟨CAL_CTX_CFG_apply_dpc, .rw, 0, 0, 1, .plain⟩, ⟨CAL_CTX_CFG_apply_bl, .rw, 1, 0, 1, .plain⟩, ⟨CAL_CTX_CFG_temp_src, .rw, 0, 0, 1, .plain⟩, ⟨CAL_CTX_CFG_temp_en, .rw, 0, 0, 1, .plain⟩, ⟨CAL_CTX_CFG_frames, .rw, 4, 1, 15, .plain⟩]⟩,
  ⟨CAL_CTX_BUF 0, 0x100, 36, 0x4, 1, [⟨CAL_CTX_BUF_handle, .rw, 0, 0, 4294967295, .plain⟩]⟩]

def regRows7 : List RegRow := [
  ⟨CAL_CTX_REF 0, 0x100, 36, 0x4, 1, [⟨CAL_CTX_REF_handle, .rw, 0, 0, 4294967295, .plain⟩]⟩,
  ⟨CAL_LIM_BL 0, 0x100, 36, 0x4, 1, [⟨CAL_LIM_BL_bl_hi, .rw, 16384, 0, 65535, .plain⟩, ⟨CAL_LIM_BL_bl_lo, .rw, 256, 0, 65535, .plain⟩]⟩,
  ⟨CAL_LIM_STEP 0, 0x100, 36, 0x4, 1, [⟨CAL_LIM_STEP_max_spread, .rw, 1024, 0, 65535, .plain⟩, ⟨CAL_LIM_STEP_max_step, .rw, 512, 0, 65535, .plain⟩]⟩,
  ⟨CAL_LIM_AGREE 0, 0x100, 36, 0x4, 1, [⟨CAL_LIM_AGREE_reject_run, .rw, 16, 1, 255, .plain⟩, ⟨CAL_LIM_AGREE_agree_dpc, .rw, 8, 0, 255, .plain⟩, ⟨CAL_LIM_AGREE_agree_bl, .rw, 64, 0, 65535, .plain⟩]⟩,
  ⟨CAL_DPC_TH 0, 0x100, 36, 0x4, 1, [⟨CAL_DPC_TH_max_defects, .rw, 4096, 0, 4096, .plain⟩, ⟨CAL_DPC_TH_cold_rel, .rw, 64, 0, 255, .plain⟩, ⟨CAL_DPC_TH_hot_th, .rw, 32, 0, 255, .plain⟩]⟩,
  ⟨CAL_CTX_STAT 0, 0x100, 36, 0x4, 1, [⟨CAL_CTX_STAT_stored, .ro, 0, 0, 1, .plain⟩, ⟨CAL_CTX_STAT_valid, .ro, 0, 0, 1, .plain⟩, ⟨CAL_CTX_STAT_running, .ro, 0, 0, 1, .plain⟩, ⟨CAL_CTX_STAT_runs, .ro, 0, 0, 3, .plain⟩, ⟨CAL_CTX_STAT_last_kind, .ro, 0, 0, 7, .plain⟩, ⟨CAL_CTX_STAT_last_error, .ro, 0, 0, 15, .plain⟩]⟩,
  ⟨CAL_CAL_FIRST 0, 0x100, 36, 0x4, 1, [⟨CAL_CAL_FIRST_seq, .ro, 0, 0, 4294967295, .plain⟩]⟩,
  ⟨CAL_CAL_LAST 0, 0x100, 36, 0x4, 1, [⟨CAL_CAL_LAST_seq, .ro, 0, 0, 4294967295, .plain⟩]⟩,
  ⟨CAL_CTX_TEMP 0, 0x100, 36, 0x4, 1, [⟨CAL_CTX_TEMP_t_cal, .ro, 0, 0, 65535, .plain⟩, ⟨CAL_CTX_TEMP_host_temp, .rw, 0, 0, 65535, .plain⟩]⟩,
  ⟨CAL_RES_BL_A 0, 0x100, 36, 0x4, 1, [⟨CAL_RES_BL_A_ch1, .ro, 0, 0, 65535, .plain⟩, ⟨CAL_RES_BL_A_ch0, .ro, 0, 0, 65535, .plain⟩]⟩,
  ⟨CAL_RES_BL_B 0, 0x100, 36, 0x4, 1, [⟨CAL_RES_BL_B_ch3, .ro, 0, 0, 65535, .plain⟩, ⟨CAL_RES_BL_B_ch2, .ro, 0, 0, 65535, .plain⟩]⟩,
  ⟨CAL_RES_DS_A 0, 0x100, 36, 0x4, 1, [⟨CAL_RES_DS_A_ch1, .ro, 0, 0, 65535, .plain⟩, ⟨CAL_RES_DS_A_ch0, .ro, 0, 0, 65535, .plain⟩]⟩,
  ⟨CAL_RES_DS_B 0, 0x100, 36, 0x4, 1, [⟨CAL_RES_DS_B_ch3, .ro, 0, 0, 65535, .plain⟩, ⟨CAL_RES_DS_B_ch2, .ro, 0, 0, 65535, .plain⟩]⟩,
  ⟨CAL_RES_DPC 0, 0x100, 36, 0x4, 1, [⟨CAL_RES_DPC_total, .ro, 0, 0, 8191, .plain⟩, ⟨CAL_RES_DPC_found, .ro, 0, 0, 8191, .plain⟩]⟩,
  ⟨CAL_LAST_SEQ 0, 0x100, 36, 0x4, 1, [⟨CAL_LAST_SEQ_seq, .ro, 0, 0, 4294967295, .plain⟩]⟩,
  ⟨CAL_LAST_NS 0, 0x100, 36, 0x4, 1, [⟨CAL_LAST_NS_ns, .ro, 0, 0, 4294967295, .plain⟩]⟩,
  ⟨CAL_LAST_SL 0, 0x100, 36, 0x4, 1, [⟨CAL_LAST_SL_s_lo, .ro, 0, 0, 4294967295, .plain⟩]⟩,
  ⟨CAL_LAST_SH 0, 0x100, 36, 0x4, 1, [⟨CAL_LAST_SH_valid, .ro, 0, 0, 1, .plain⟩, ⟨CAL_LAST_SH_s_hi, .ro, 0, 0, 65535, .plain⟩]⟩,
  ⟨CAL_CNT_RUN 0, 0x100, 36, 0x4, 1, [⟨CAL_CNT_RUN_count, .ro, 0, 0, 4294967295, .plain⟩]⟩,
  ⟨CAL_CNT_PASS 0, 0x100, 36, 0x4, 1, [⟨CAL_CNT_PASS_count, .ro, 0, 0, 4294967295, .plain⟩]⟩]

def regRows8 : List RegRow := [
  ⟨CAL_CNT_IMPLAUSIBLE 0, 0x100, 36, 0x4, 1, [⟨CAL_CNT_IMPLAUSIBLE_count, .ro, 0, 0, 4294967295, .plain⟩]⟩,
  ⟨CAL_CNT_DISAGREE 0, 0x100, 36, 0x4, 1, [⟨CAL_CNT_DISAGREE_count, .ro, 0, 0, 4294967295, .plain⟩]⟩,
  ⟨CAL_CNT_REFUSED 0, 0x100, 36, 0x4, 1, [⟨CAL_CNT_REFUSED_count, .ro, 0, 0, 4294967295, .plain⟩]⟩,
  ⟨CAL_CNT_TRACK_REJECT 0, 0x100, 36, 0x4, 1, [⟨CAL_CNT_TRACK_REJECT_count, .ro, 0, 0, 4294967295, .plain⟩]⟩,
  ⟨CAL_CNT_CLR 0, 0x100, 36, 0x4, 1, [⟨CAL_CNT_CLR_clear, .wo, 0, 0, 63, .plain⟩]⟩,
  ⟨CAL_MON_STAT, 0x4, 1, 0x4, 1, [⟨CAL_MON_STAT_die_temp, .ro, 0, 0, 65535, .plain⟩, ⟨CAL_MON_STAT_volt_ok, .ro, 0, 0, 255, .plain⟩, ⟨CAL_MON_STAT_therm_ok, .ro, 0, 0, 255, .plain⟩]⟩,
  ⟨CAL_FLASH_STAT, 0x4, 1, 0x4, 1, [⟨CAL_FLASH_STAT_last, .ro, 0, 0, 3, .plain⟩, ⟨CAL_FLASH_STAT_stores, .ro, 0, 0, 65535, .plain⟩]⟩,
  ⟨ENG_X_STAT 0 0, 0x40000, 8, 0x2000, 17, [⟨ENG_X_STAT_logical, .ro, 0, 0, 31, .plain⟩, ⟨ENG_X_STAT_last_fault, .ro, 0, 0, 15, .plain⟩, ⟨ENG_X_STAT_state, .ro, 1, 0, 7, .plain⟩]⟩,
  ⟨ENG_X_ARITH 0 0, 0x40000, 8, 0x2000, 17, [⟨ENG_X_ARITH_mx_nan_scale, .w1c, 0, 0, 1, .plain⟩, ⟨ENG_X_ARITH_int32_sat, .w1c, 0, 0, 1, .plain⟩, ⟨ENG_X_ARITH_int_sat, .w1c, 0, 0, 1, .plain⟩, ⟨ENG_X_ARITH_fp_sat, .w1c, 0, 0, 1, .plain⟩, ⟨ENG_X_ARITH_inf_out, .w1c, 0, 0, 1, .plain⟩, ⟨ENG_X_ARITH_nan_out, .w1c, 0, 0, 1, .plain⟩, ⟨ENG_X_ARITH_nan_in, .w1c, 0, 0, 1, .plain⟩]⟩,
  ⟨ENG_X_CNT_TASK 0 0, 0x40000, 8, 0x2000, 17, [⟨ENG_X_CNT_TASK_count, .ro, 0, 0, 4294967295, .plain⟩]⟩,
  ⟨ENG_X_CNT_BUSY 0 0, 0x40000, 8, 0x2000, 17, [⟨ENG_X_CNT_BUSY_count, .ro, 0, 0, 4294967295, .plain⟩]⟩,
  ⟨ENG_X_CNT_FAULT 0 0, 0x40000, 8, 0x2000, 17, [⟨ENG_X_CNT_FAULT_count, .ro, 0, 0, 4294967295, .plain⟩]⟩,
  ⟨ENG_X_CNT_ROWS_GATED 0 0, 0x40000, 8, 0x2000, 17, [⟨ENG_X_CNT_ROWS_GATED_count, .ro, 0, 0, 4294967295, .plain⟩]⟩,
  ⟨ENG_X_CNT_ROWS_REUSED 0 0, 0x40000, 8, 0x2000, 17, [⟨ENG_X_CNT_ROWS_REUSED_count, .ro, 0, 0, 4294967295, .plain⟩]⟩,
  ⟨ENG_X_CNT_CLR 0 0, 0x40000, 8, 0x2000, 17, [⟨ENG_X_CNT_CLR_clear, .wo, 0, 0, 31, .plain⟩]⟩,
  ⟨ENG_X_ST 0 0, 0x40000, 8, 0x2000, 17, [⟨ENG_X_ST_passes, .ro, 0, 0, 65535, .plain⟩, ⟨ENG_X_ST_swept, .ro, 0, 0, 1, .plain⟩, ⟨ENG_X_ST_last_ok, .ro, 0, 0, 1, .plain⟩]⟩,
  ⟨ENG_MAP 0 0, 0x1000, 8, 0x4, 5, [⟨ENG_MAP_phys3, .ro, 0, 0, 31, .plain⟩, ⟨ENG_MAP_phys2, .ro, 0, 0, 31, .plain⟩, ⟨ENG_MAP_phys1, .ro, 0, 0, 31, .plain⟩, ⟨ENG_MAP_phys0, .ro, 0, 0, 31, .plain⟩]⟩,
  ⟨ENG_CL_STAT 0, 0x1000, 8, 0x4, 1, [⟨ENG_CL_STAT_swaps, .ro, 0, 0, 65535, .plain⟩, ⟨ENG_CL_STAT_spare, .ro, 0, 0, 3, .plain⟩]⟩,
  ⟨ENG_CL_RING 0, 0x1000, 8, 0x4, 1, [⟨ENG_CL_RING_crc_errors, .ro, 0, 0, 4294967295, .plain⟩]⟩,
  ⟨ENG_FEAT_RATE0, 0x4, 1, 0x4, 1, [⟨ENG_FEAT_RATE0_int8, .ro, 2304, 0, 65535, .plain⟩, ⟨ENG_FEAT_RATE0_int4, .ro, 4608, 0, 65535, .plain⟩]⟩]

def regRows9 : List RegRow := [
  ⟨ENG_FEAT_RATE1, 0x4, 1, 0x4, 1, [⟨ENG_FEAT_RATE1_fp8, .ro, 1152, 0, 65535, .plain⟩, ⟨ENG_FEAT_RATE1_bf16, .ro, 576, 0, 65535, .plain⟩]⟩,
  ⟨ENG_FEAT_RATE2, 0x4, 1, 0x4, 1, [⟨ENG_FEAT_RATE2_mxint8, .ro, 2304, 0, 65535, .plain⟩, ⟨ENG_FEAT_RATE2_mxfp8, .ro, 1152, 0, 65535, .plain⟩]⟩,
  ⟨ENG_FEAT_RATE3, 0x4, 1, 0x4, 1, [⟨ENG_FEAT_RATE3_mxfp6, .ro, 1152, 0, 65535, .plain⟩, ⟨ENG_FEAT_RATE3_mxfp4, .ro, 4608, 0, 65535, .plain⟩]⟩,
  ⟨ENG_FEAT_ACC, 0x4, 1, 0x4, 1, [⟨ENG_FEAT_ACC_int_k_log2, .ro, 16, 0, 31, .plain⟩, ⟨ENG_FEAT_ACC_fp_group, .ro, 32, 0, 255, .plain⟩, ⟨ENG_FEAT_ACC_acc_rows, .ro, 512, 0, 65535, .plain⟩]⟩,
  ⟨ENG_FEAT_RFU, 0x4, 1, 0x4, 1, [⟨ENG_FEAT_RFU_tables, .ro, 4, 0, 15, .plain⟩, ⟨ENG_FEAT_RFU_table_entries, .ro, 256, 0, 4095, .plain⟩, ⟨ENG_FEAT_RFU_lanes, .ro, 48, 0, 63, .plain⟩]⟩,
  ⟨ENG_FEAT_FUSE, 0x4, 1, 0x4, 1, [⟨ENG_FEAT_FUSE_n1_max_8bit, .ro, 4096, 0, 65535, .plain⟩, ⟨ENG_FEAT_FUSE_n1_max_16bit, .ro, 2048, 0, 65535, .plain⟩]⟩,
  ⟨ENG_FEAT_FN, 0x4, 1, 0x4, 1, [⟨ENG_FEAT_FN_functions, .ro, 2097151, 0, 2097151, .plain⟩]⟩,
  ⟨ENG_ACLK, 0x4, 1, 0x4, 1, [⟨ENG_ACLK_aclk_mhz, .ro, 900, 0, 65535, .plain⟩]⟩,
  ⟨ENG_ST_CFG, 0x4, 1, 0x4, 1, [⟨ENG_ST_CFG_rotate_ms, .rw, 1000, 100, 65535, .plain⟩]⟩,
  ⟨SPM_ST_STAT 0, 0x8000, 8, 0x4, 1, [⟨SPM_ST_STAT_free_4k, .ro, 16384, 0, 65535, .plain⟩, ⟨SPM_ST_STAT_state, .ro, 1, 0, 3, .plain⟩]⟩,
  ⟨SPM_ST_CE 0, 0x8000, 8, 0x4, 1, [⟨SPM_ST_CE_count, .ro, 0, 0, 4294967295, .plain⟩]⟩,
  ⟨SPM_ST_UE 0, 0x8000, 8, 0x4, 1, [⟨SPM_ST_UE_count, .ro, 0, 0, 4294967295, .plain⟩]⟩,
  ⟨SPM_ST_CONFLICT 0, 0x8000, 8, 0x4, 1, [⟨SPM_ST_CONFLICT_count, .ro, 0, 0, 4294967295, .plain⟩]⟩,
  ⟨SPM_ST_UE_ADDR 0, 0x8000, 8, 0x4, 1, [⟨SPM_ST_UE_ADDR_source, .ro, 0, 0, 7, .plain⟩, ⟨SPM_ST_UE_ADDR_addr, .ro, 0, 0, 67108863, .plain⟩, ⟨SPM_ST_UE_ADDR_valid, .ro, 0, 0, 1, .plain⟩]⟩,
  ⟨SPM_ST_POISONED 0, 0x8000, 8, 0x4, 1, [⟨SPM_ST_POISONED_words, .ro, 0, 0, 65535, .plain⟩]⟩,
  ⟨SPM_ST_SCRUB 0, 0x8000, 8, 0x4, 1, [⟨SPM_ST_SCRUB_sweeps, .ro, 0, 0, 65535, .plain⟩, ⟨SPM_ST_SCRUB_row, .ro, 0, 0, 16383, .plain⟩]⟩,
  ⟨SPM_ST_GATHER 0, 0x8000, 8, 0x4, 1, [⟨SPM_ST_GATHER_entries, .ro, 0, 0, 127, .plain⟩]⟩,
  ⟨SPM_ST_CNT_CLR 0, 0x8000, 8, 0x4, 1, [⟨SPM_ST_CNT_CLR_clear, .wo, 0, 0, 7, .plain⟩]⟩,
  ⟨SPM_ZONE 0, 0x4, 2, 0x4, 1, [⟨SPM_ZONE_spread, .ro, 0, 0, 4294967295, .plain⟩]⟩,
  ⟨SPM_SCRUB_CFG, 0x4, 1, 0x4, 1, [⟨SPM_SCRUB_CFG_interval, .rw, 4096, 64, 65535, .plain⟩, ⟨SPM_SCRUB_CFG_en, .rw, 1, 0, 1, .plain⟩]⟩]

def regRows10 : List RegRow := [
  ⟨SPM_ECC_CFG, 0x4, 1, 0x4, 1, [⟨SPM_ECC_CFG_ce_threshold, .rw, 1024, 1, 65535, .plain⟩]⟩,
  ⟨SPM_REGIONS, 0x4, 1, 0x4, 1, [⟨SPM_REGIONS_count, .ro, 0, 0, 16383, .plain⟩]⟩,
  ⟨SYN_PEEK_SEL, 0x4, 1, 0x4, 1, [⟨SYN_PEEK_SEL_obj, .rw, 0, 0, 8191, .plain⟩]⟩,
  ⟨SYN_PEEK_VAL, 0x4, 1, 0x4, 1, [⟨SYN_PEEK_VAL_value, .ro, 0, 0, 4294967295, .plain⟩]⟩,
  ⟨SYN_STAT, 0x4, 1, 0x4, 1, [⟨SYN_STAT_host_waits, .ro, 0, 0, 1023, .plain⟩, ⟨SYN_STAT_owned, .ro, 0, 0, 16383, .plain⟩]⟩,
  ⟨SYN_CNT_TIMEOUT, 0x4, 1, 0x4, 1, [⟨SYN_CNT_TIMEOUT_count, .ro, 0, 0, 4294967295, .plain⟩]⟩,
  ⟨SYN_CNT_REFUSED, 0x4, 1, 0x4, 1, [⟨SYN_CNT_REFUSED_count, .ro, 0, 0, 4294967295, .plain⟩]⟩,
  ⟨SYN_CNT_CLR, 0x4, 1, 0x4, 1, [⟨SYN_CNT_CLR_clear, .wo, 0, 0, 3, .plain⟩]⟩,
  ⟨SYN_OWN 0, 0x4, 256, 0x4, 1, [⟨SYN_OWN_owned, .ro, 0, 0, 4294967295, .plain⟩]⟩,
  ⟨DDR_CFG, 0x4, 1, 0x4, 1, [⟨DDR_CFG_inline_ecc_next, .rw, 0, 0, 1, .plain⟩]⟩,
  ⟨DDR_STAT, 0x4, 1, 0x4, 1, [⟨DDR_STAT_train_ms, .ro, 0, 0, 65535, .plain⟩, ⟨DDR_STAT_rate_100mt, .ro, 96, 0, 4095, .plain⟩, ⟨DDR_STAT_train_src, .ro, 0, 0, 3, .plain⟩, ⟨DDR_STAT_inline_ecc, .ro, 0, 0, 1, .plain⟩]⟩,
  ⟨DDR_CH_CE 0, 0x100, 16, 0x4, 1, [⟨DDR_CH_CE_count, .ro, 0, 0, 4294967295, .plain⟩]⟩,
  ⟨DDR_CH_UE 0, 0x100, 16, 0x4, 1, [⟨DDR_CH_UE_count, .ro, 0, 0, 4294967295, .plain⟩]⟩,
  ⟨DDR_CH_UE_ADDR_LO 0, 0x100, 16, 0x4, 1, [⟨DDR_CH_UE_ADDR_LO_addr, .ro, 0, 0, 67108863, .plain⟩]⟩,
  ⟨DDR_CH_UE_ADDR_HI 0, 0x100, 16, 0x4, 1, [⟨DDR_CH_UE_ADDR_HI_valid, .ro, 0, 0, 1, .plain⟩, ⟨DDR_CH_UE_ADDR_HI_addr, .ro, 0, 0, 65535, .plain⟩]⟩,
  ⟨DDR_CH_SLOTS 0, 0x100, 16, 0x4, 1, [⟨DDR_CH_SLOTS_idle, .ro, 0, 0, 4294967295, .plain⟩]⟩,
  ⟨DMA_CH_STAT 0, 0x40, 64, 0x4, 1, [⟨DMA_CH_STAT_owned, .ro, 0, 0, 1, .plain⟩, ⟨DMA_CH_STAT_direction, .ro, 0, 0, 3, .plain⟩, ⟨DMA_CH_STAT_cause, .ro, 0, 0, 7, .plain⟩, ⟨DMA_CH_STAT_state, .ro, 0, 0, 3, .plain⟩]⟩,
  ⟨DMA_CH_CTL 0, 0x40, 64, 0x4, 1, [⟨DMA_CH_CTL_action, .wo, 0, 0, 3, .plain⟩]⟩,
  ⟨DMA_CH_PACE 0, 0x40, 64, 0x4, 1, [⟨DMA_CH_PACE_high, .rw, 12, 1, 16, .plain⟩, ⟨DMA_CH_PACE_low, .rw, 8, 0, 15, .plain⟩]⟩,
  ⟨DMA_CH_ERR_ADDR_LO 0, 0x40, 64, 0x4, 1, [⟨DMA_CH_ERR_ADDR_LO_addr, .ro, 0, 0, 4294967295, .plain⟩]⟩]

def regRows11 : List RegRow := [
  ⟨DMA_CH_ERR_ADDR_HI 0, 0x40, 64, 0x4, 1, [⟨DMA_CH_ERR_ADDR_HI_addr, .ro, 0, 0, 65535, .plain⟩]⟩,
  ⟨DMA_CH_DESC_LO 0, 0x40, 64, 0x4, 1, [⟨DMA_CH_DESC_LO_addr, .ro, 0, 0, 4294967295, .plain⟩]⟩,
  ⟨DMA_CH_DESC_HI 0, 0x40, 64, 0x4, 1, [⟨DMA_CH_DESC_HI_addr, .ro, 0, 0, 65535, .plain⟩]⟩,
  ⟨DMA_CH_DONE 0, 0x40, 64, 0x4, 1, [⟨DMA_CH_DONE_bytes_done, .ro, 0, 0, 4294967295, .plain⟩]⟩,
  ⟨DMA_OWN 0, 0x4, 2, 0x4, 1, [⟨DMA_OWN_owned, .ro, 0, 0, 4294967295, .plain⟩]⟩,
  ⟨DMA_CNT_HALT, 0x4, 1, 0x4, 1, [⟨DMA_CNT_HALT_count, .ro, 0, 0, 4294967295, .plain⟩]⟩,
  ⟨NET_PORT_CFG 0, 0x1000, 2, 0x4, 1, [⟨NET_PORT_CFG_max_frame, .rw, 2000, 1522, 9216, .plain⟩, ⟨NET_PORT_CFG_preempt_en, .rw, 1, 0, 1, .plain⟩, ⟨NET_PORT_CFG_adv_1g, .rw, 1, 0, 1, .plain⟩, ⟨NET_PORT_CFG_adv_2g5, .rw, 1, 0, 1, .plain⟩, ⟨NET_PORT_CFG_enable, .rw, 1, 0, 1, .plain⟩]⟩,
  ⟨NET_PORT_STAT 0, 0x1000, 2, 0x4, 1, [⟨NET_PORT_STAT_preempt_active, .ro, 0, 0, 1, .plain⟩, ⟨NET_PORT_STAT_ptp_role, .ro, 0, 0, 3, .plain⟩, ⟨NET_PORT_STAT_speed, .ro, 0, 0, 3, .plain⟩, ⟨NET_PORT_STAT_link, .ro, 0, 0, 1, .plain⟩]⟩,
  ⟨NET_MAC_LO 0, 0x1000, 2, 0x4, 1, [⟨NET_MAC_LO_mac, .ro, 0, 0, 4294967295, .plain⟩]⟩,
  ⟨NET_MAC_HI 0, 0x1000, 2, 0x4, 1, [⟨NET_MAC_HI_mac, .ro, 0, 0, 65535, .plain⟩]⟩,
  ⟨NET_PCP_MAP 0, 0x1000, 2, 0x4, 1, [⟨NET_PCP_MAP_map, .rw, 16434824, 0, 16777215, .plain⟩]⟩,
  ⟨NET_TC_CFG 0, 0x1000, 2, 0x4, 1, [⟨NET_TC_CFG_preemptable, .rw, 31, 0, 255, .plain⟩, ⟨NET_TC_CFG_mode7, .ro, 0, 0, 3, .plain⟩, ⟨NET_TC_CFG_modes, .rw, 8192, 0, 16383, .plain⟩]⟩,
  ⟨NET_CBS_SLOPE 0 0, 0x1000, 2, 0x4, 8, [⟨NET_CBS_SLOPE_idle_kbps, .rw, 0, 0, 4294967295, .plain⟩]⟩,
  ⟨NET_QBV_CYCLE 0, 0x1000, 2, 0x4, 1, [⟨NET_QBV_CYCLE_cycle_ns, .rw, 125000, 50000, 100000000, .plain⟩]⟩,
  ⟨NET_VLAN 0, 0x1000, 2, 0x4, 1, [⟨NET_VLAN_tagged, .rw, 0, 0, 1, .plain⟩, ⟨NET_VLAN_vid, .rw, 0, 0, 4095, .plain⟩]⟩,
  ⟨NET_CNT_RX_DROP 0 0, 0x1000, 2, 0x4, 8, [⟨NET_CNT_RX_DROP_count, .ro, 0, 0, 4294967295, .plain⟩]⟩,
  ⟨NET_CNT_TX_LATE 0, 0x1000, 2, 0x4, 1, [⟨NET_CNT_TX_LATE_count, .ro, 0, 0, 4294967295, .plain⟩]⟩,
  ⟨NET_CNT_CB_ELIM 0, 0x1000, 2, 0x4, 1, [⟨NET_CNT_CB_ELIM_count, .ro, 0, 0, 4294967295, .plain⟩]⟩,
  ⟨NET_CNT_QCI_DROP 0, 0x1000, 2, 0x4, 1, [⟨NET_CNT_QCI_DROP_count, .ro, 0, 0, 4294967295, .plain⟩]⟩,
  ⟨NET_CNT_CLR 0, 0x1000, 2, 0x4, 1, [⟨NET_CNT_CLR_clear, .wo, 0, 0, 2047, .plain⟩]⟩]

def regRows12 : List RegRow := [
  ⟨NET_NODE, 0x4, 1, 0x4, 1, [⟨NET_NODE_node, .rw, 0, 0, 65534, .plain⟩]⟩,
  ⟨NET_GPTP_CFG, 0x4, 1, 0x4, 1, [⟨NET_GPTP_CFG_holdover_s, .rw, 10, 1, 65535, .plain⟩, ⟨NET_GPTP_CFG_sync_thresh, .rw, 10, 1, 255, .plain⟩, ⟨NET_GPTP_CFG_domain, .rw, 0, 0, 127, .plain⟩]⟩,
  ⟨NET_GPTP_STAT, 0x4, 1, 0x4, 1, [⟨NET_GPTP_STAT_offset_ns, .ro, 0, 0, 65535, .plain⟩, ⟨NET_GPTP_STAT_slave_port, .ro, 2, 0, 3, .plain⟩, ⟨NET_GPTP_STAT_state, .ro, 0, 0, 3, .plain⟩]⟩,
  ⟨NET_TIME_NS, 0x4, 1, 0x4, 1, [⟨NET_TIME_NS_ns, .ro, 0, 0, 4294967295, .plain⟩]⟩,
  ⟨NET_TIME_SL, 0x4, 1, 0x4, 1, [⟨NET_TIME_SL_s_lo, .ro, 0, 0, 4294967295, .plain⟩]⟩,
  ⟨NET_TIME_SH, 0x4, 1, 0x4, 1, [⟨NET_TIME_SH_valid, .ro, 0, 0, 1, .plain⟩, ⟨NET_TIME_SH_s_hi, .ro, 0, 0, 65535, .plain⟩]⟩,
  ⟨NET_TLK_DMAC_LO 0, 0x20, 144, 0x4, 1, [⟨NET_TLK_DMAC_LO_dmac, .rw, 0, 0, 4294967295, .plain⟩]⟩,
  ⟨NET_TLK_DMAC_HI 0, 0x20, 144, 0x4, 1, [⟨NET_TLK_DMAC_HI_pcp, .rw, 0, 0, 7, .plain⟩, ⟨NET_TLK_DMAC_HI_vid, .rw, 0, 0, 4095, .plain⟩, ⟨NET_TLK_DMAC_HI_dmac, .rw, 0, 0, 65535, .plain⟩]⟩,
  ⟨NET_TLK_CFG 0, 0x20, 144, 0x4, 1, [⟨NET_TLK_CFG_ports, .rw, 1, 0, 3, .plain⟩, ⟨NET_TLK_CFG_replicate, .rw, 0, 0, 1, .plain⟩, ⟨NET_TLK_CFG_uid, .rw, 0, 0, 65535, .plain⟩]⟩,
  ⟨NET_TLK_PRES 0, 0x20, 144, 0x4, 1, [⟨NET_TLK_PRES_pres_ns, .rw, 2000000, 0, 4294967295, .plain⟩]⟩,
  ⟨NET_TLK_GEN 0, 0x20, 144, 0x4, 1, [⟨NET_TLK_GEN_gen, .ro, 1, 0, 65535, .plain⟩]⟩,
  ⟨NET_PSFP_MAC_LO 0, 0x10, 64, 0x4, 1, [⟨NET_PSFP_MAC_LO_mac, .rw, 0, 0, 4294967295, .plain⟩]⟩,
  ⟨NET_PSFP_MAC_HI 0, 0x10, 64, 0x4, 1, [⟨NET_PSFP_MAC_HI_en, .rw, 0, 0, 1, .plain⟩, ⟨NET_PSFP_MAC_HI_ports, .rw, 0, 0, 3, .plain⟩, ⟨NET_PSFP_MAC_HI_vid, .rw, 0, 0, 4095, .plain⟩, ⟨NET_PSFP_MAC_HI_mac, .rw, 0, 0, 65535, .plain⟩]⟩,
  ⟨NET_PSFP_SDU 0, 0x10, 64, 0x4, 1, [⟨NET_PSFP_SDU_max_sdu, .rw, 2000, 0, 65535, .plain⟩]⟩,
  ⟨NET_PSFP_METER 0, 0x10, 64, 0x4, 1, [⟨NET_PSFP_METER_cir, .rw, 0, 0, 1048575, .plain⟩, ⟨NET_PSFP_METER_cbs, .rw, 0, 0, 4095, .plain⟩]⟩,
  ⟨YWP_CFG, 0x4, 1, 0x4, 1, [⟨YWP_CFG_ethertype, .rw, 34997, 0, 65535, .plain⟩, ⟨YWP_CFG_udp_en, .rw, 0, 0, 1, .plain⟩, ⟨YWP_CFG_eth_en, .rw, 1, 0, 1, .plain⟩]⟩,
  ⟨YWP_UDP, 0x4, 1, 0x4, 1, [⟨YWP_UDP_prefix, .rw, 24, 8, 30, .plain⟩, ⟨YWP_UDP_port, .rw, 17236, 0, 65535, .plain⟩]⟩,
  ⟨YWP_IPV4_A, 0x4, 1, 0x4, 1, [⟨YWP_IPV4_A_addr, .rw, 0, 0, 4294967295, .plain⟩]⟩,
  ⟨YWP_IPV4_B, 0x4, 1, 0x4, 1, [⟨YWP_IPV4_B_addr, .rw, 0, 0, 4294967295, .plain⟩]⟩,
  ⟨YWP_WIN_CFG, 0x4, 1, 0x4, 1, [⟨YWP_WIN_CFG_credit_timeout_ms, .rw, 20, 1, 65535, .plain⟩, ⟨YWP_WIN_CFG_retries, .rw, 3, 0, 15, .plain⟩, ⟨YWP_WIN_CFG_retry_100us, .rw, 20, 1, 4095, .plain⟩]⟩]

def regRows13 : List RegRow := [
  ⟨YWP_CREDIT_WIN, 0x4, 1, 0x4, 1, [⟨YWP_CREDIT_WIN_bytes, .rw, 65536, 4096, 1048576, .plain⟩]⟩,
  ⟨YWP_CNT_CLOSED, 0x4, 1, 0x4, 1, [⟨YWP_CNT_CLOSED_count, .ro, 0, 0, 4294967295, .plain⟩]⟩,
  ⟨YWP_CNT_RESENT, 0x4, 1, 0x4, 1, [⟨YWP_CNT_RESENT_count, .ro, 0, 0, 4294967295, .plain⟩]⟩,
  ⟨YWP_CNT_DROPPED, 0x4, 1, 0x4, 1, [⟨YWP_CNT_DROPPED_count, .ro, 0, 0, 4294967295, .plain⟩]⟩,
  ⟨YWP_CNT_DUP, 0x4, 1, 0x4, 1, [⟨YWP_CNT_DUP_count, .ro, 0, 0, 4294967295, .plain⟩]⟩,
  ⟨YWP_CNT_CLR, 0x4, 1, 0x4, 1, [⟨YWP_CNT_CLR_clear, .wo, 0, 0, 15, .plain⟩]⟩,
  ⟨YWP_EXP_REGION 0, 0x20, 256, 0x4, 1, [⟨YWP_EXP_REGION_handle, .rw, 0, 0, 4294967295, .plain⟩]⟩,
  ⟨YWP_EXP_OFS 0, 0x20, 256, 0x4, 1, [⟨YWP_EXP_OFS_ofs_4k, .rw, 0, 0, 4294967295, .plain⟩]⟩,
  ⟨YWP_EXP_CTL 0, 0x20, 256, 0x4, 1, [⟨YWP_EXP_CTL_size_m1, .rw, 0, 0, 262143, .plain⟩, ⟨YWP_EXP_CTL_arrive, .rw, 0, 0, 1, .plain⟩, ⟨YWP_EXP_CTL_sync, .rw, 0, 0, 1, .plain⟩, ⟨YWP_EXP_CTL_read, .rw, 0, 0, 1, .plain⟩, ⟨YWP_EXP_CTL_write, .rw, 0, 0, 1, .plain⟩, ⟨YWP_EXP_CTL_open, .rw, 0, 0, 1, .plain⟩]⟩,
  ⟨YWP_EXP_SYNC 0, 0x20, 256, 0x4, 1, [⟨YWP_EXP_SYNC_first, .rw, 0, 0, 8191, .plain⟩, ⟨YWP_EXP_SYNC_count, .rw, 0, 0, 256, .plain⟩]⟩,
  ⟨YWP_EXP_ARRIVE 0, 0x20, 256, 0x4, 1, [⟨YWP_EXP_ARRIVE_obj, .rw, 0, 0, 8191, .plain⟩]⟩,
  ⟨YWP_EXP_GEN 0, 0x20, 256, 0x4, 1, [⟨YWP_EXP_GEN_gen, .ro, 0, 0, 65535, .plain⟩]⟩,
  ⟨YWP_BIND_TGT 0, 0x10, 64, 0x4, 1, [⟨YWP_BIND_TGT_window, .ro, 0, 0, 65535, .plain⟩, ⟨YWP_BIND_TGT_node, .ro, 0, 0, 65535, .plain⟩]⟩,
  ⟨YWP_BIND_STAT 0, 0x10, 64, 0x4, 1, [⟨YWP_BIND_STAT_bind_gen, .ro, 1, 0, 65535, .plain⟩, ⟨YWP_BIND_STAT_kind, .ro, 0, 0, 3, .plain⟩, ⟨YWP_BIND_STAT_receivers, .ro, 0, 0, 31, .plain⟩, ⟨YWP_BIND_STAT_flags, .ro, 0, 0, 15, .plain⟩]⟩,
  ⟨YWP_BIND_SIZE 0, 0x10, 64, 0x4, 1, [⟨YWP_BIND_SIZE_size_4k, .ro, 0, 0, 4294967295, .plain⟩]⟩,
  ⟨PWR_STATE, 0x4, 1, 0x4, 1, [⟨PWR_STATE_target, .ro, 2, 0, 15, .plain⟩, ⟨PWR_STATE_state, .ro, 2, 0, 15, .plain⟩]⟩,
  ⟨PWR_STATE_REQ, 0x4, 1, 0x4, 1, [⟨PWR_STATE_REQ_target, .wo, 0, 0, 15, .plain⟩]⟩,
  ⟨PWR_MODE, 0x4, 1, 0x4, 1, [⟨PWR_MODE_mode, .ro, 0, 0, 3, .plain⟩, ⟨PWR_MODE_request, .wo, 0, 0, 3, .plain⟩]⟩,
  ⟨PWR_CFG, 0x4, 1, 0x4, 1, [⟨PWR_CFG_auto_idle_ms, .rw, 0, 0, 65535, .plain⟩, ⟨PWR_CFG_standby_spm, .rw, 0, 0, 1, .plain⟩, ⟨PWR_CFG_wake_b, .rw, 1, 0, 1, .plain⟩, ⟨PWR_CFG_wake_a, .rw, 1, 0, 1, .plain⟩, ⟨PWR_CFG_auto_run, .rw, 1, 0, 1, .plain⟩]⟩,
  ⟨PWR_DOM_CFG, 0x4, 1, 0x4, 1, [⟨PWR_DOM_CFG_fe_b, .rw, 1, 0, 1, .plain⟩, ⟨PWR_DOM_CFG_fe_a, .rw, 1, 0, 1, .plain⟩, ⟨PWR_DOM_CFG_cluster, .rw, 255, 0, 255, .plain⟩]⟩]

def regRows14 : List RegRow := [
  ⟨PWR_DOM_STAT, 0x4, 1, 0x4, 1, [⟨PWR_DOM_STAT_ctl, .ro, 1, 0, 1, .plain⟩, ⟨PWR_DOM_STAT_net, .ro, 1, 0, 1, .plain⟩, ⟨PWR_DOM_STAT_ddr, .ro, 3, 0, 3, .plain⟩, ⟨PWR_DOM_STAT_fe, .ro, 0, 0, 3, .plain⟩, ⟨PWR_DOM_STAT_spm, .ro, 0, 0, 255, .plain⟩, ⟨PWR_DOM_STAT_eng, .ro, 0, 0, 65535, .plain⟩]⟩,
  ⟨PWR_DOM_RET, 0x4, 1, 0x4, 1, [⟨PWR_DOM_RET_spm, .ro, 0, 0, 255, .plain⟩]⟩,
  ⟨PWR_IN, 0x4, 1, 0x4, 1, [⟨PWR_IN_iin_ma, .ro, 0, 0, 65535, .plain⟩, ⟨PWR_IN_vin_10mv, .ro, 0, 0, 65535, .plain⟩]⟩,
  ⟨PWR_IN_P, 0x4, 1, 0x4, 1, [⟨PWR_IN_P_p_100ms_dw, .ro, 0, 0, 65535, .plain⟩, ⟨PWR_IN_P_p_1s_dw, .ro, 0, 0, 65535, .plain⟩]⟩,
  ⟨PWR_RAIL_P, 0x4, 1, 0x4, 1, [⟨PWR_RAIL_P_other, .ro, 0, 0, 255, .plain⟩, ⟨PWR_RAIL_P_dram, .ro, 0, 0, 255, .plain⟩, ⟨PWR_RAIL_P_spm, .ro, 0, 0, 255, .plain⟩, ⟨PWR_RAIL_P_eng, .ro, 0, 0, 255, .plain⟩]⟩,
  ⟨PWR_ENERGY_LO, 0x4, 1, 0x4, 1, [⟨PWR_ENERGY_LO_mj, .ro, 0, 0, 4294967295, .plain⟩]⟩,
  ⟨PWR_ENERGY_HI, 0x4, 1, 0x4, 1, [⟨PWR_ENERGY_HI_mj_hi, .ro, 0, 0, 4294967295, .plain⟩]⟩,
  ⟨PWR_CAP, 0x4, 1, 0x4, 1, [⟨PWR_CAP_thermal_dw, .ro, 0, 0, 65535, .plain⟩, ⟨PWR_CAP_supply_dw, .ro, 0, 0, 65535, .plain⟩]⟩,
  ⟨PWR_TEMP, 0x4, 1, 0x4, 1, [⟨PWR_TEMP_cold_plate, .ro, 0, 0, 65535, .plain⟩, ⟨PWR_TEMP_die_max, .ro, 0, 0, 65535, .plain⟩]⟩,
  ⟨PWR_TEMP_STAT, 0x4, 1, 0x4, 1, [⟨PWR_TEMP_STAT_cap_held, .ro, 0, 0, 1, .plain⟩, ⟨PWR_TEMP_STAT_bp1_ok, .ro, 0, 0, 1, .plain⟩, ⟨PWR_TEMP_STAT_bp0_ok, .ro, 0, 0, 1, .plain⟩, ⟨PWR_TEMP_STAT_over_85, .ro, 0, 0, 1, .plain⟩]⟩,
  ⟨PWR_SUPPLY_STAT, 0x4, 1, 0x4, 1, [⟨PWR_SUPPLY_STAT_en, .ro, 1, 0, 1, .plain⟩, ⟨PWR_SUPPLY_STAT_supply, .ro, 0, 0, 3, .plain⟩]⟩,
  ⟨PWR_CAUSE, 0x4, 1, 0x4, 1, [⟨PWR_CAUSE_standby_cause, .ro, 0, 0, 255, .plain⟩, ⟨PWR_CAUSE_off_cause, .ro, 0, 0, 255, .plain⟩]⟩,
  ⟨PWR_CNT_HOLDUP, 0x4, 1, 0x4, 1, [⟨PWR_CNT_HOLDUP_count, .ro, 0, 0, 4294967295, .plain⟩]⟩,
  ⟨PWR_CNT_STANDBY, 0x4, 1, 0x4, 1, [⟨PWR_CNT_STANDBY_count, .ro, 0, 0, 4294967295, .plain⟩]⟩,
  ⟨PWR_CNT_TRIP, 0x4, 1, 0x4, 1, [⟨PWR_CNT_TRIP_count, .ro, 0, 0, 4294967295, .plain⟩]⟩,
  ⟨PWR_CNT_CLR, 0x4, 1, 0x4, 1, [⟨PWR_CNT_CLR_clear, .wo, 0, 0, 7, .plain⟩]⟩,
  ⟨SEC_LC, 0x4, 1, 0x4, 1, [⟨SEC_LC_customer_locked, .ro, 0, 0, 1, .plain⟩, ⟨SEC_LC_next, .ro, 0, 0, 3, .plain⟩, ⟨SEC_LC_lc, .ro, 0, 0, 3, .plain⟩]⟩,
  ⟨SEC_DEVID 0, 0x4, 4, 0x4, 1, [⟨SEC_DEVID_id, .ro, 0, 0, 4294967295, .plain⟩]⟩,
  ⟨SEC_BOOT, 0x4, 1, 0x4, 1, [⟨SEC_BOOT_svn_image, .ro, 0, 0, 255, .plain⟩, ⟨SEC_BOOT_svn_otp, .ro, 0, 0, 255, .plain⟩, ⟨SEC_BOOT_result, .ro, 0, 0, 7, .plain⟩, ⟨SEC_BOOT_other_ok, .ro, 0, 0, 1, .plain⟩, ⟨SEC_BOOT_fallback, .ro, 0, 0, 1, .plain⟩, ⟨SEC_BOOT_slot, .ro, 0, 0, 1, .plain⟩]⟩,
  ⟨SEC_PKG_POLICY, 0x4, 1, 0x4, 1, [⟨SEC_PKG_POLICY_floor, .ro, 0, 0, 3, .plain⟩, ⟨SEC_PKG_POLICY_policy, .rw, 0, 0, 2, .plain⟩]⟩]

def regRows15 : List RegRow := [
  ⟨SEC_KEYS, 0x4, 1, 0x4, 1, [⟨SEC_KEYS_identity, .ro, 0, 0, 1, .plain⟩, ⟨SEC_KEYS_passwords, .ro, 0, 0, 7, .plain⟩, ⟨SEC_KEYS_owner, .ro, 0, 0, 1, .plain⟩]⟩,
  ⟨DBG_LEVEL, 0x4, 1, 0x4, 1, [⟨DBG_LEVEL_backoff_ms, .ro, 0, 0, 65535, .plain⟩, ⟨DBG_LEVEL_failures, .ro, 0, 0, 255, .plain⟩, ⟨DBG_LEVEL_nonce, .ro, 0, 0, 1, .plain⟩, ⟨DBG_LEVEL_filling, .ro, 0, 0, 1, .plain⟩, ⟨DBG_LEVEL_baseline, .ro, 0, 0, 3, .plain⟩, ⟨DBG_LEVEL_level, .ro, 0, 0, 3, .plain⟩]⟩,
  ⟨DBG_CFG, 0x4, 1, 0x4, 1, [⟨DBG_CFG_net_en, .rw, 1, 0, 1, .plain⟩]⟩,
  ⟨DBG_TRACE, 0x4, 1, 0x4, 1, [⟨DBG_TRACE_next, .ro, 0, 0, 4294967295, .plain⟩]⟩,
  ⟨DBG_CNT_FAIL, 0x4, 1, 0x4, 1, [⟨DBG_CNT_FAIL_count, .ro, 0, 0, 4294967295, .plain⟩]⟩,
  ⟨DBG_CNT_OPEN, 0x4, 1, 0x4, 1, [⟨DBG_CNT_OPEN_count, .ro, 0, 0, 4294967295, .plain⟩]⟩,
  ⟨DBG_CNT_CLR, 0x4, 1, 0x4, 1, [⟨DBG_CNT_CLR_clear, .wo, 0, 0, 3, .plain⟩]⟩,
  ⟨JNL_NEXT, 0x4, 1, 0x4, 1, [⟨JNL_NEXT_number, .ro, 0, 0, 4294967295, .plain⟩]⟩,
  ⟨JNL_OLDEST, 0x4, 1, 0x4, 1, [⟨JNL_OLDEST_number, .ro, 0, 0, 4294967295, .plain⟩]⟩]

/-- Every register row of the spec. -/
def regRows : List RegRow :=
  regRows0 ++ regRows1 ++ regRows2 ++ regRows3 ++ regRows4 ++ regRows5 ++ regRows6 ++ regRows7 ++ regRows8 ++ regRows9 ++ regRows10 ++ regRows11 ++ regRows12 ++ regRows13 ++ regRows14 ++ regRows15

/-- The indices (i, j) at which a row holds offset `off`, if it does. -/
def RegRow.at? (r : RegRow) (off : Nat) : Option (Nat × Nat) :=
  if off < r.base then none
  else
    let d := off - r.base
    let i := d / r.s1
    let j := d % r.s1 / r.s2
    if i < r.c1 && j < r.c2 && d % r.s1 % r.s2 == 0 then some (i, j) else none

/-- The row and indices of the register at `off`; `none` where the offset holds no register (R26). -/
def findReg (off : Nat) : Option (RegRow × Nat × Nat) :=
  regRows.findSome? fun r => (r.at? off).map fun ij => (r, ij.1, ij.2)

/-- Insert the low bits of `v` into field `b` of `w`. -/
def Bits.put (b : Bits) (w : Word) (v : Nat) : Word :=
  let mask := (2 ^ (b.hi - b.lo + 1) - 1) <<< b.lo
  (w &&& ~~~(BitVec.ofNat 32 mask)) ||| (BitVec.ofNat 32 (v <<< b.lo) &&& BitVec.ofNat 32 mask)

/-- The value of field `b` of `w`. -/
def Bits.of (b : Bits) (w : Word) : Nat := (w.toNat >>> b.lo) % 2 ^ (b.hi - b.lo + 1)

/-- The reset value of the register at `off` (R9 tables); 0 where there is none. The reset of ENG_X_STAT.logical
and of the ENG_MAP registers is the identity map (R162, R192). -/
def regReset (off : Nat) : Word :=
  match findReg off with
  | none => 0
  | some (r, _, j) =>
    let w := r.fields.foldl (fun w f => f.bits.put w f.reset) (0 : Word)
    if r.base = ENG_X_STAT 0 0 then ENG_X_STAT_logical.put w j
    else if r.base = ENG_MAP 0 0 then
      if j = 4 then ENG_MAP_phys0.put w 16
      else ENG_MAP_phys3.put (ENG_MAP_phys2.put (ENG_MAP_phys1.put (ENG_MAP_phys0.put w (4 * j))
        (4 * j + 1)) (4 * j + 2)) (4 * j + 3)
    else w

end Sys2Proof
end

