-- ==== Sys2Proof/Machine/State.lean ====
section
/-!
DEFINITION. The state of the block, as plain data: every register, memory, queue, counter, mode and pin the spec gives
the module, its reasons for stopping, and the state right after reset.
-/
namespace Sys2Proof.Machine
open Sys2Proof

/-- Why a run stops. -/
inductive Fault
  /-- Raised by the supply commands when VIN is above the absolute rating of R520: the spec gives no behaviour beyond
  the ratings. Safe: the model stops where nothing is stated. -/
  | beyondRatings
deriving DecidableEq, Repr

/-- Why a command has no meaning. -/
inductive Refusal
  /-- Raised by an arm of `exec` whose command has no meaning yet. Safe: the run stops. -/
  | notModelled (mnemonic : String)
deriving DecidableEq, Repr

/-! ### Time, events, messages -/

/-- A timestamp (R4): 48 bits of seconds and 32 bits of nanoseconds; with `valid` clear, `ns` holds the frame sequence
number that stands in. -/
structure Stamp where
  valid : Bool
  sec : Nat
  ns : Word
deriving DecidableEq, Repr

/-- An event as raised (R401, R402): its code, context (0xFF none), module-wide number, stamp and fields. -/
structure Event where
  code : W16
  ctx : Byte
  number : Word
  stamp : Stamp
  p0 : W16
  p1 : Word
  p2 : Word
  p3 : Word
deriving DecidableEq, Repr

/-- A change journal entry (R489); `source` is 0 NET_A, 1 NET_B, 2 JTAG, 3 UART. -/
structure JEntry where
  number : Word
  kind : Byte
  source : Fin 4
  session : W16
  object : Word
  old : Word
  new : Word
  stamp : Stamp
deriving DecidableEq, Repr

/-- A completion entry without its phase bit (R397). -/
structure Compl where
  tag : Word
  status : Byte
  more : Bool
  opcode : Byte
  result : W64
deriving DecidableEq, Repr

/-- A YWP message that the module sends (R376); src_node is the module's own. -/
structure Msg where
  version : Byte
  type : Byte
  resp : Bool
  ackReq : Bool
  dst : W16
  session : W16
  seq : Word
  status : W16
  retryMs : W16
  epoch : Word
  payload : List Byte
deriving DecidableEq, Repr

/-- An AVTP frame of an IEEE 1722 stream (R425). -/
structure AvtpFrame where
  talker : Nat
  seqNum : Nat
  rtag : Option Nat
  line : Nat
  width : Nat
  height : Nat
  format : Nat
  tv : Bool
  timestamp : Word
  bytes : List Byte
deriving DecidableEq, Repr

/-- What leaves the module: YWP messages with their destination address, the VID of their IEEE 802.1Q tag and the sequence
number of their R-TAG, ARP answers, AVTP frames, the frames of the JTAG and UART paths, and the transactions that a port starts on its sensor bus: operation, target, the bytes of the register address or of the CCC code,
the data bytes that follow, both in the order of the bus (R63), and how many bytes a READ asks for. -/
inductive Out
  | ywp (port : Fin 2) (dest : Peer) (vid rtag : Option Nat) (tclass : Nat) (m : Msg)
  | arp (port : Fin 2) (address target : Word)
  | avtp (port : Fin 2) (f : AvtpFrame)
  | debug (path : Fin 4) (frame : List Byte)
  | sensor (p : PortId) (op target : Nat) (address data : List Byte) (nread : Nat)
deriving DecidableEq, Repr

/-! ### Sessions (13_host_link) -/

/-- A command taken from a submission ring and not completed (R390, R392). -/
structure Taken where
  /-- The 64 bytes of its submission entry (R392, R394). -/
  entry : List Byte
  started : Bool
  /-- Its place in the order in which entries of all sessions are taken (R288). -/
  order : Nat
  /-- Of FILL and COPY, what the check at the take found: a status (R287). -/
  check : Nat
deriving DecidableEq, Repr

/-- A session (R382, R384 to R391, R405 to R407). -/
structure Session where
  gen : Nat
  node : W16
  port : Fin 2
  /-- Where the session's messages go (R439). -/
  peer : Peer
  version : Byte
  ringWindow : W16
  ringGen : W16
  ringEpoch : Word
  keepaliveMs : Nat
  sqOff : Nat
  cqOff : Nat
  eqOff : Nat
  sqN : Nat
  cqN : Nat
  eqN : Nat
  mask : Word
  notifyUs : Nat
  replicate : Bool
  tclass : Nat
  sqTail : Word
  sqHead : Word
  cqTail : Word
  cqHead : Word
  eqTail : Word
  eqHead : Word
  /-- Copies of submission entries by their count: inline ones (R389) and those read ahead (R390). -/
  inline : List (Word × List Byte)
  taken : List Taken
  /-- Completions that wait for a free entry, oldest first (R399). -/
  cqWait : List Compl
  /-- Events lost since the last EVENTS_LOST, and the number of the first of them (R405). -/
  lost : Nat
  firstLost : Word
  /-- An entry the module has written has been acknowledged since the last NOTIFY (R391). -/
  ackPending : Bool
  lastNotify : Word × Word × Word
  notifyAt : Nat
  /-- seq and response (status and payload) of the last REG_ACCESS (R407). -/
  lastReg : Option (Word × Nat × List Byte)
  txSeq : Word
deriving DecidableEq, Repr

/-- An ATTACH that waits to be served (R410). -/
structure AttachReq where
  m : Hdr
  payload : List Byte
deriving DecidableEq, Repr

/-- An ATTACH already answered (R384): its sender, its seq, when, and the response. -/
structure AttachDone where
  src : W16
  seq : Word
  at_ : Nat
  resp : Out
deriving DecidableEq, Repr

/-! ### Windows and the network (14_network_peers) -/

/-- A receiver of a binding (R430). -/
structure Receiver where
  node : W16
  window : W16
  gen : W16
  ip : Word
  epoch : Word
deriving DecidableEq, Repr

/-- A binding of a local window (R430). `unbinding` holds the header of an UNBIND that waits for the outstanding
transfers. -/
structure Binding where
  flags : Byte
  tclass : Nat
  size : Nat
  receivers : List Receiver
  unbinding : Option Hdr
  transfers : Nat
deriving DecidableEq, Repr

/-- Who waits for a command's completion: session number and generation, tag and opcode. -/
structure CmdRef where
  session : Fin 256
  gen : Nat
  tag : Word
  opcode : Byte
deriving DecidableEq, Repr

/-- What an outstanding window message of the module is for (R432). -/
inductive WinUse
  | completion (session : Fin 256)
  | event (session : Fin 256)
  | debug (d : DbgHdr)
  | dmaWrite (ch : Fin 64) (lo len : Nat)
  | dmaRead (ch : Fin 64) (lo len : Nat)
  | engine (e : EngPos) (transfer : Word)
  | report (cmd : CmdRef) (status : Byte) (result : W64)
  | plain
deriving DecidableEq, Repr

/-- A window message that the module has sent and that is not answered (R432). -/
structure WinOut where
  node : W16
  session : W16
  seq : Word
  port : Fin 2
  peer : Peer
  tclass : Nat
  window : Option (Fin 64)
  off : Nat
  len : Nat
  msg : Msg
  tries : Nat
  use : WinUse
deriving DecidableEq, Repr

/-- One receiver's progress in a multicast transfer (R436, R437). -/
structure McRecv where
  applied : Nat
  limit : Nat
  sent : Nat
  resends : Nat
  dropped : Bool
deriving DecidableEq, Repr

/-- One write of a multicast transfer (R436): its offset in the window, its length, the local address that is read for each
receiver, and the bytes when they came through a window or from a pattern. -/
structure McChunk where
  off : Nat
  len : Nat
  src : Option Nat
  data : List Byte
deriving DecidableEq, Repr

/-- A multicast transfer in progress through a local window (R436). -/
structure McSend where
  window : Fin 64
  number : Word
  ch : Fin 64
  /-- The transfer's writes in order. -/
  chunks : List McChunk
  recv : List McRecv
deriving DecidableEq, Repr

/-- A multicast transfer as a receiver sees it (R436). -/
structure McRx where
  src : W16
  window : W16
  transfer : Word
  applied : Nat
  credited : Nat
  dropped : Bool
deriving DecidableEq, Repr

/-- The last WIN_SYNC of a source node (R432): its seq and the answer's status. -/
structure SyncSeen where
  node : W16
  seq : Word
  status : W16
deriving DecidableEq, Repr

/-- A booked PLAN window of a port's gate list (R417, R419): its start and length in ns within the cycle. -/
structure Gate where
  ctx : PortId
  start : Nat
  len : Nat
deriving DecidableEq, Repr

/-- A frame of a stream in a port's transmit queue (R418): an AVTP frame or a window write. -/
structure PlanFrame where
  ctx : PortId
  out : Out
deriving DecidableEq, Repr

/-- One network port: sizes of the frames in its receive queue (R14), plan frames that wait for their window, its gate
list and the list that applies from the next cycle (R417), the open PLAN window with its frames not yet started, consecutive Sync messages below the
threshold (R421), whether it is synchronised, and its last peer delay. -/
structure NetPort where
  rxq : List Nat
  txq : List PlanFrame
  gates : List Gate
  nextGates : List Gate
  windowOpen : Option (PortId × List PlanFrame)
  good : Nat
  synced : Bool
  delayNs : Nat
  plannedFast : Bool
deriving DecidableEq, Repr

/-- IEEE 802.1CB vector recovery of one stream (R420): its last number and the history of the last 32. -/
structure Recovery where
  dmac : Nat
  vid : Nat
  last : Nat
  history : List Bool
  seen : Bool
deriving DecidableEq, Repr

/-! ### The scratchpad, DRAM and DMA (09_scratchpad, 11_dram_dma) -/

/-- A region's life (R284): live; released and waiting for its users; being zero filled. -/
inductive RegionPhase
  | live | waiting | zeroing
deriving DecidableEq, Repr

/-- An allocated region (R281, R282, R284). -/
structure Region where
  gen : Nat
  base : Nat
  size : Nat
  spread : Bool
  phase : RegionPhase
  freeBy : Option CmdRef
deriving DecidableEq, Repr

/-- An open gather entry (R291): the bytes written, and its place in the order of last writes. -/
structure GatherEntry where
  bytes : List (Option Byte)
  age : Nat
deriving DecidableEq, Repr

/-- A FILL or COPY that has been checked and is not complete (R286, R287). -/
structure FillCmd where
  cmd : CmdRef
  copy : Bool
  dst : Word
  src : Word
  dstAddr : Nat
  srcAddr : Nat
  len : Nat
  pattern : W64
  waitObj : W16
  waitThr : Word
  sigObj : W16
  ofJob : Bool
  writing : Bool
  status : Byte
  /-- It has ended, and its completion waits for room (R399). -/
  finished : Bool
deriving DecidableEq, Repr

/-- A DMA descriptor (R330). -/
structure Desc where
  op : Nat
  wait : Bool
  signal : Bool
  complete : Bool
  last : Bool
  waitObj : Nat
  waitThr : Word
  src : Nat
  pattern : W64
  dst : Nat
  rowBytes : Nat
  rows : Nat
  srcPitch : Int
  dstPitch : Int
  waitTimeout : Nat
  sigObj : Nat
  next : Nat
  tag : Word
deriving DecidableEq, Repr

/-- The AVTP frames of one output stripe, which a descriptor of op 2 sends, a row a frame (R134, R330, R425): the frames' common
fields, the first line, and for YUV420_8 the address of CbCr line 0 and the chroma bytes of a frame. -/
structure AvtpMove where
  c : PortId
  k : Fin 4
  line0 : Nat
  width : Nat
  height : Nat
  format : Nat
  tv : Bool
  timestamp : Word
  chroma : Nat
  chromaLen : Nat
  pitch : Nat
deriving DecidableEq, Repr

/-- What a plan-owned channel moves (R134, R247, R349): an output's clip copy, window stripe or AVTP stripe, a delivery. -/
inductive PlanMove
  | clip (c : PortId) (k : Fin 4) (frame : Word)
  | output (c : PortId) (k : Fin 4) (frame : Word) (stripe : Nat)
  | delivery (c : PortId) (j : Fin 4) (frame : Word) (stripe : Nat)
  | avtp (x : AvtpMove)
deriving DecidableEq, Repr

/-- A move that waits for its plan-owned channel (R247). -/
structure PlanJob where
  ch : Fin 64
  mv : PlanMove
  desc : Desc
deriving DecidableEq, Repr

/-- What the module keeps of an output's clip ring (R325, R326, R328): the flags and counts of the ring header, and the
copies whose writes have returned. -/
structure Clip where
  frozen : Bool
  pend : Bool
  left : Nat
  newest : Word
  seq : Word
  dropped : Nat
  done : List Word
deriving DecidableEq, Repr

/-- Who runs a channel (R329). -/
inductive DmaOwner
  | free
  | session (cmd : CmdRef)
  | plan (mv : PlanMove)
deriving DecidableEq, Repr

/-- Where a channel stands in R331: not running, about to fetch, waiting on an object, moving, halting, halted. -/
inductive DmaPhase
  | idle | fetch | waiting | moving | halting | halted
deriving DecidableEq, Repr

/-- The failure of a transfer (R335): address, direction (R341) and cause (R341). -/
structure DmaFail where
  addr : Nat
  direction : Nat
  cause : Nat
deriving DecidableEq, Repr

/-- A DMA channel (R329 to R336). `plan` tells that it is plan-owned; `todo` is where the next transfer starts,
`outstanding` the transfers issued and not returned, `acked` the acknowledged byte ranges. -/
structure DmaCh where
  planOwned : Bool
  owner : DmaOwner
  phase : DmaPhase
  addr : Nat
  desc : Option Desc
  todo : Nat
  outstanding : Nat
  acked : List (Nat × Nat)
  fail : Option DmaFail
  code : Byte
  discard : Bool
  paceLow : Nat
  paceHigh : Nat
  paced : Bool
  detached : Bool
  /-- Chunks read through a window for a multicast transfer that has not begun (R436). -/
  held : List McChunk
deriving DecidableEq, Repr

/-- A host WAIT (R300, R301). -/
structure HostWait where
  session : Fin 256
  tag : Word
  obj : Nat
  thr : Word
deriving DecidableEq, Repr

/-! ### Camera ports, contexts and calibration (02 to 05) -/

/-- When a sensor transaction runs (R62). -/
inductive SqRelease
  | immediate | frameStart | frameEnd
deriving DecidableEq, Repr

/-- A sensor transaction: an entry pushed by CAP_SQ_PUSH, or a write of an exposure batch (R62, R98). `op` is 0 WRITE,
1 READ, 2 CCC. -/
structure SqEntry where
  release : SqRelease
  next : Bool
  frame : Word
  op : Nat
  target : Nat
  reg16 : Bool
  reg : Nat
  nbytes : Nat
  data : Word
deriving DecidableEq, Repr

/-- A released batch (R63): of the frame named, at its start or its end, made by the front end or of host entries. -/
structure SqBatch where
  exposure : Bool
  atStart : Bool
  frame : Word
  entries : List SqEntry
deriving DecidableEq, Repr

/-- The transaction on the bus: the tries made before, and whether its entry heads the first batch. -/
structure SqXfer where
  entry : SqEntry
  inBatch : Bool
  tries : Nat
deriving DecidableEq, Repr

/-- The line being received (R49): whether its start found the input queue full. -/
structure OpenLine where
  overrun : Bool
deriving DecidableEq, Repr

/-- The frame being received by a port (R48 to R53). `flags` has the bits of CAP_MEAS_FRAME[24:16]; `lines` counts the
active lines within the geometry, `extra` those beyond it, `edges` the HSYNC edges since its start (R40); times are FCLK
counts; `cal` says that a calibration run uses the frame (R141, R142). -/
structure PortFrame where
  seq : Word
  flags : Nat
  dropped : Bool
  cal : Bool
  sof : Stamp
  strobes : List Stamp
  start : Nat
  period : Nat
  vblank : Nat
  lines : Nat
  extra : Nat
  edges : Nat
  widths : Option (Nat × Nat)
  periods : Option (Nat × Nat)
  hblank : Option Nat
  lineAt : Option Nat
  open_ : Option OpenLine
deriving DecidableEq, Repr

/-- The measurement set of a frame that has ended (R53, R66). -/
structure Meas where
  frame : PortFrame
  eof : Stamp
deriving DecidableEq, Repr

/-- A camera port (02_camera_ports). Its state, configuration, counters and taps are registers. -/
structure Port where
  rstHigh : Bool
  trigHigh : Bool
  /-- Start time latched by NET_TIME and the time of its last pulse once it has started, in 802.1AS ns; when the mode was
  written or the port came up, and the last free-run pulse, on the model clock (R56, R57). -/
  trigStart : Nat
  trigNet : Option Nat
  trigFrom : Nat
  trigLast : Option Nat
  queue : List SqEntry
  batches : List SqBatch
  xfer : Option SqXfer
  frame : Option PortFrame
  meas : Option Meas
  lastStart : Option Nat
  lastEnd : Option Nat
  lastAccepted : Option Nat
  dropRun : Bool
deriving DecidableEq, Repr

/-- An exposure set (R98): lines, gain codes, trim code. -/
structure ExpVals where
  lines : Nat
  again : Nat
  dgain : Nat
  trim : Nat
deriving DecidableEq, Repr

/-- An issued exposure set (R99): at the start of which frame, its esid, and how its batch fared. -/
structure ExpIssue where
  frame : Word
  esid : Nat
  vals : ExpVals
  late : Bool
  failed : Bool
deriving DecidableEq, Repr

/-- A parameter set (R72 to R81, R114): shadow registers by offset, the defect map, the lens-shading grids (word w of
channel c under 512 c + w), the tone table, and what the copy works out: black levels and gains. -/
structure ParamSet where
  psid : Word
  regs : SMap Word
  dpc : SMap Word
  lsc : SMap Word
  tone : SMap Word
  bl : List Nat
  wb : List Nat
deriving DecidableEq, Repr

/-- A pending commit (R76, R78). -/
structure Commit where
  target : Word
  set : ParamSet
deriving DecidableEq, Repr

/-- A line of a frame on its way to the lane: its pixels, whether some are padding, whether it takes a place of the port
input queue (R16, R49). -/
structure LaneLine where
  px : List Nat
  padded : Bool
  queued : Bool
deriving DecidableEq, Repr

/-- A pixel behind the demosaic (R71). -/
structure Pix where
  r : Nat
  g : Nat
  b : Nat
  ir : Nat
deriving DecidableEq, Repr

/-- A frame in a lane (R69 to R74, R93 to R96): its lines as they come from the port, how many have entered the lane, the
crop lines emitted (before white balance), the stripes signalled, and, once ended, its flags and stamps. -/
structure LaneFrame where
  seq : Word
  index : Word
  set : ParamSet
  sof : Stamp
  lateWrite : Bool
  lines : List LaneLine
  passed : Nat
  out : List (List Pix)
  signalled : Nat
  ended : Option Meas
  recorded : Bool
  cal : Bool
deriving DecidableEq, Repr

/-- A statistics record as the loops receive it (R95, R96, R101, R102). -/
structure StatRec where
  seq : Word
  flags : Nat
  set : ParamSet
  vals : ExpVals
  meanG : Nat
  sums : Nat × Nat × Nat
  aeDone : Bool
  awbDone : Bool
deriving DecidableEq, Repr

/-- A context's part of the front end (03_contexts_front_end, 04_neural_picture_stages). -/
structure Ctx where
  dpc : SMap Word
  lsc : SMap Word
  tone : SMap Word
  current : ParamSet
  banks : ParamSet × ParamSet
  pending : Option Commit
  psid : Word
  /-- Exposure sets of commits that wait for the start of their frame (R99). -/
  expWait : List (Word × ExpVals)
  expNow : ExpVals
  esid : Nat
  issued : List ExpIssue
  expBase : Nat × ExpVals
  /-- The first batch after admission is due (R104). -/
  first : Bool
  aeNext : Option ExpVals
  trimNext : Option Nat
  est : List Nat
  trim : Nat
  trimDue : Option (List Nat)
  rejects : Nat
  loopWb : List Nat
  start : ExpVals
  startWb : List Nat
  endedSeq : Option Word
  frames : List LaneFrame
  lastRec : Option StatRec
  /-- Frames delivered since admission (R111). -/
  index : Word
  histReset : Bool
  lastGood : Bool
  blocks : SMap ParamSet
  /-- By stage: the unit in progress and its tasks started; units completed. -/
  started : SMap (Nat × List Nat)
  ended : SMap (Nat × List Nat)
  /-- By unit modulo 16: rows that its gated stages reused (R128). -/
  rowsReused : SMap Nat
  /-- By unit modulo 16: 1 where HDR merge left an exposure out (R120). -/
  hdrWarm : SMap Nat
  /-- By buffer of the HDR input history: 1 + the sequence number of the frame it holds whole (R120, R124). -/
  hdrHeld : SMap Nat
  /-- History count of the frame with each index modulo 4 (R126). -/
  jAt : SMap Nat
deriving DecidableEq, Repr

/-- What a calibration run found (R145, R146): black levels, dark signals, new defects by (y, x), the result map, taps. -/
structure CalResult where
  bl : List Nat
  ds : List Int
  found : List (Nat × Nat)
  map : List Word
  taps : List Nat
  minEye : Nat
deriving DecidableEq, Repr

/-- A calibration in progress (R138 to R149). -/
structure CalRun where
  kind : Nat
  purpose : Nat
  region : Bool
  /-- Runs finished and the result of the last of them. -/
  runs : Nat
  prev : Option CalResult
  /-- Of the run in progress: usable frames, the esid of the first, frames counted against the allowance (of all runs). -/
  usable : Nat
  esid : Option Nat
  taken : Nat
  obSums : List Nat
  taps : Option (List Nat × Nat × Nat)
  first : Option Word
  last : Option Word
  lastStamp : Option (Word × Stamp)
  begun : Bool
  grant : Bool
deriving DecidableEq, Repr

/-- A calibration record in flash (R157). -/
structure CalCopy where
  generation : Word
  version : Nat
  part : Nat
  crc : Word
  portCfg : Word
  geom : Word
  geomOfs : Word
  taps : List Word
  bl : List Nat
  ds : List Int
  dpc : List Word
  tCal : Int
  seq : Word
  stamp : Stamp
  start : ExpVals
  startWb : List Nat
deriving DecidableEq, Repr

/-- A context's calibration (05_calibration): the run, the last dark signals and result, a store in progress, whether a
result has been passed or loaded (R156): black level and taps. -/
structure Cal where
  run : Option CalRun
  ds : List Int
  storing : Option CalCopy
  /-- R156: a black-level result has passed, such a result has gone to FE_BL_FIXED, a DESKEW result has passed. -/
  blOk : Bool
  blSet : Bool
  tapsOk : Bool
  /-- A black level to be applied at the next frame-end copy in TRACK mode, or a map and level in FIXED mode (R151). -/
  applyBl : Option (List Nat)
  applyMap : Option (List Word)
  lastStamp : Word × Stamp
deriving DecidableEq, Repr

/-! ### Power, security, boot (15, 16, 17) -/

/-- Why a power transition runs (R454): also a system reset on its way (R496), made through debug or not. -/
inductive PowerCause
  | boot | request | auto | thermal | enOff | reset (byDebug : Bool)
deriving DecidableEq, Repr

/-- A power-state transition in progress (R454, R455): whether POWER_STATE has been raised for it, whether the 50 ms of
step 4 have passed, a move to RUN (R459) or a wake that follows it. -/
structure Transition where
  target : Nat
  cause : PowerCause
  announced : Bool
  drained : Bool
  thenRun : Bool
  thenWake : Bool
deriving DecidableEq, Repr

/-- The stages of a boot (R498): from power good to READY; `failure` is the boot failure state of R471 (also R497). -/
inductive BootPhase
  | off | verifying | selfTest | init | ready | failure
deriving DecidableEq, Repr

/-- One-time-programmable memory (R468). -/
structure Otp where
  lc : Nat
  lcNext : Nat
  deviceId : List Byte
  vendorHash : List Byte
  ownerHash : List Byte
  ownerWritten : Bool
  passwords : List (List Byte × List Byte)
  floor : Nat
  identity : Option (List Byte)
  fuses : Nat
  macA : Nat
  macB : Nat
  /-- Factory trims of the 8 thermal and 8 voltage monitors, added to a reading in 1/16 °C and mV (R159). -/
  thermTrim : List Int
  voltTrim : List Int
deriving DecidableEq, Repr

/-- A DRAM training record (R317): part and issue of the module, the data rates it covers in units of 100 MT/s, the die
temperature of the training in 1/16 °C. -/
structure TrainRec where
  generation : Nat
  part : Nat
  issue : Nat
  rates : List Nat
  temp : Int
  crc : Word
deriving DecidableEq, Repr

/-- A copy of a record of one number in flash (R500): the settings (node ID in bits 15 to 0, inline ECC in bit 16) or the
back-off count. -/
structure FlashRec where
  generation : Nat
  value : Nat
  crc : Word
deriving DecidableEq, Repr

/-- Flash (R469, R500): firmware slots A and B, none until the ROM first reads them, settings and back-off count, two copies of
each, the inline ECC setting last used, fault log (newest first), calibration records, training record. -/
structure Flash where
  slots : Option (SlotImage × SlotImage)
  settings : SMap FlashRec
  eccUsed : Bool
  backoff : SMap FlashRec
  faultLog : List Event
  /-- The two copies of the DRAM training record (R317). -/
  train : SMap TrainRec
  /-- Two copies for each context, by 2 c and 2 c + 1. -/
  cal : SMap CalCopy
deriving DecidableEq, Repr

/-! ### Engines (06_engines_arithmetic, 07_engine_programs, 08_streaming_tiling) -/

/-- An entry of an address program (R223). -/
structure ApEntry where
  op : Nat
  arg : Nat
  value : Nat
deriving DecidableEq, Repr

/-- A slot's binding (R206): the address program and the scalar registers as SLOT latched them. -/
structure SlotBind where
  entries : List ApEntry
  regs : List Word
deriving DecidableEq, Repr

/-- An open loop level (R208): its count, its counter, the first and last instruction of its body, and the scalar
registers latched at its entry for STRIDE_PR. -/
structure LoopLevel where
  level : Nat
  count : Nat
  i : Nat
  top : Nat
  last : Nat
  regs : List Word
deriving DecidableEq, Repr

/-- A walker (R195). `barriers` counts the SWAIT, FENCE and CALL instructions it has completed or passed, `gates` the
GATEs; `gate` is the gate body the badger is in: its number, the GATE's index and the body's last. -/
structure WalkerSt where
  pc : Nat
  regs : List Word
  loops : List LoopLevel
  slots : List (Option SlotBind)
  barriers : Nat
  gates : Nat
  gate : Option (Nat × Nat × Nat)
  ended : Bool
deriving DecidableEq, Repr

/-- Bytes of a tile that a window read still has to bring: the message's seq and how far into its bytes the row part
begins, the row, the byte offset in the row, the length, and the first message of its read transfer (R242, R431). -/
structure TileHole where
  seq : Word
  from_ : Nat
  row : Nat
  off : Nat
  len : Nat
  xfer : Word
deriving DecidableEq, Repr

/-- A span of row j of a tile: where it lies in memory and in the row. -/
structure Piece where
  addr : Nat
  row : Nat
  off : Nat
  len : Nat
deriving DecidableEq, Repr

/-- A fetched tile (R224, R225, R240): raw rows, the rectangle of rows and elements that are inside, the padding element
and its width in bits, MX scale bytes, the reads outstanding, and its read transfers that are not issued yet (R243), each with whether it brings
scale bytes. -/
structure Tile where
  bits : Nat
  raw : List (List Byte)
  scale : List (List Byte)
  j0 : Nat
  j1 : Nat
  e0 : Nat
  e1 : Nat
  pad : Nat
  holes : List TileHole
  todo : List (Bool × List Piece)
  arrived : Bool
  gate : Option Nat
deriving DecidableEq, Repr

/-- The exact sum of an unfinished group (R174, R215): in units of 2^-320, and the special operands met. -/
structure Part where
  sum : Int
  nan : Bool
  pinf : Bool
  ninf : Bool
deriving DecidableEq, Repr

/-- An accumulator row (R199, R215): its type, its 48 cells, products since kstart, and the open group per column. -/
structure AccRow where
  fp : Bool
  cells : List Word
  k : Nat
  part : List Part
deriving DecidableEq, Repr

/-- A B block in an array bank (R212): format, rows and columns, its bytes and its scale bytes. -/
structure Bank where
  fmt : Nat
  k : Nat
  n : Nat
  rows : List (List Byte)
  scale : List (List Byte)
deriving DecidableEq, Repr

/-- Why a task stops (R267, R294): the completion status, the fault code of ENG_X_STAT, whether it is an engine fault. -/
structure Abort where
  status : Nat
  code : Nat
  engine : Bool
deriving DecidableEq, Repr

/-- A write transfer of the write-back unit (R225, R242): values and bit masks. -/
structure EngWrite where
  addr : Nat
  bytes : List (Byte × Byte)
  /-- Its merge in a window waits for a read that is not issued yet; the messages of the read that have not returned: seq,
  offset, length. -/
  ask : Bool
  needs : List (Word × Nat × Nat)
  /-- It must not be issued: what stops the task when its turn comes (R265). -/
  stop : Option Abort
deriving DecidableEq, Repr

/-- What gates a picture task (R127, R186): threshold and limit, halo, whether frame f − 1 allows reuse, the parity of
the frame, and the rows decided so far. -/
structure GateTask where
  thresh : Nat
  maxReuse : Nat
  rho : Nat
  allow : Bool
  parity : Nat
  rows : List (Int × Bool)
  /-- The state buffers (R124): where they begin, the bytes of each, their pitch, their lines, the buffer line of row 0. -/
  area : Nat
  size : Nat
  pitch : Nat
  lines : Nat
  line0 : Nat
  /-- Output rows above row 0, and the reuse counts of the rows from there as the task read them at its start (R188). -/
  above : Nat
  counts : List Nat
deriving DecidableEq, Repr

/-- A task on an engine (R194). `code` and `aps` are what firmware has placed in its instruction and address-program
memory (R193), `access` its access set (R264); `abort` is set while it is being aborted (R268). -/
structure EngTask where
  ref : TaskRef
  args : Nat
  code : List Nat
  aps : List (List ApEntry)
  sync : List Nat
  access : List (Nat × Nat × Bool)
  resBase : Nat
  variant : Nat
  exec : WalkerSt
  badger : WalkerSt
  qa : List Tile
  qb : List Tile
  qx : List Tile
  res : SMap Tile
  /-- By RES index: WLOADs passed by the badger; 16 +: executed; 32 +: FETCHes passed by execute; 48 +: issued. -/
  resCnt : SMap Nat
  keepF : Option Tile
  keepV : Option Tile
  keepW : Option Tile
  acc : SMap AccRow
  ra : SMap Word
  rb : SMap Word
  tables : SMap (List Word)
  bank0 : Bank
  bank1 : Bank
  /-- QB tiles that an MMF has popped so far (R217). -/
  blocks : List Tile
  /-- The bank that the last WLOAD filled, the bank that the last MM read. -/
  filled : Nat
  readBank : Nat
  writes : List EngWrite
  issued : Nat
  /-- SSIG instructions applied, and how many of a re-run's first ones are suppressed (R268, R270). -/
  sigs : Nat
  skip : Nat
  gate : Option GateTask
  decisions : List Bool
  rerun : Bool
  abort : Option Abort
  /-- The code of a check that failed after END or beside another abort: the position is handled as faulted (R269, R275). -/
  late : Option Nat
  /-- Cancelled reads that have not returned (R273). -/
  cancelled : Nat
  /-- The badger's RES counts when it entered the gate body that it is in (R273). -/
  gateRes : SMap Nat
  /-- The template's use of the resident area (R211): 0 NONE, 1 FUSED, 2 WEIGHTS. -/
  resUse : Nat
  /-- A no-op task, which runs no instruction (R236). -/
  idle : Bool
  /-- What a routine has read through windows so far: the spans, and a tile with a row of each (R232). -/
  lib : Option (List (Nat × Nat) × Tile)
deriving DecidableEq, Repr

/-- A resident set on a position (R255, R258): whose it is, its share, its first RES index, its bytes. -/
structure ResSet where
  c : Nat
  stage : Nat
  share : Nat
  first : Nat
  bytes : List Byte
deriving DecidableEq, Repr

/-- A physical engine position: the task placed on it and not started (with its SSIG count to suppress and whether it is
a re-run), the running task, its resident sets, its engine faults since power good, consecutive passing sweeps, and
when it last passed a sweep. -/
structure Eng where
  assigned : Option (TaskRef × Nat × Bool)
  task : Option EngTask
  sets : List ResSet
  faults : Nat
  passed : Nat
  lastPass : Option Nat
  quarantined : Bool
  /-- The access set of a task that has left while cancelled reads of its tiles were outstanding (R266). -/
  drain : List (Nat × Nat × Bool)
deriving DecidableEq, Repr

/-- Units of DRAM per ms in the read, write and remote share (R246, R323). -/
structure DramUse where
  read : Nat
  write : Nat
  remote : Nat
deriving DecidableEq, Repr

/-- What a plan books for a stage (R247, R271, R356, R358): ACLK cycles of one task; ACLK cycles per ms on each engine that it
names, over the frame period and within a stripe period; bytes of SPM per ms; DRAM. -/
structure Booking where
  cycles : Nat
  load : Nat
  peak : Nat
  spm : Nat
  dram : DramUse
deriving DecidableEq, Repr

/-- What the fox placed for one analysis stage (R238, R255, R258, R363): its logical engines (17 n + m), its program, the
variant chosen, its weights, its resident share size and, by engine, first index (R255), its template's use of the resident
area, what it books, and the shape values of its argument blocks at admission, block by block (R274). -/
structure StagePlan where
  engines : List Nat
  code : List Nat
  aps : List (List ApEntry)
  start : Nat
  variant : Nat
  shapes : List (Nat × Nat × Nat)
  weights : Nat
  resBytes : Nat
  resFrom : Nat
  resFirst : List Nat
  group : Nat
  resUse : Nat
  book : Booking
  limits : List (List Nat)
deriving DecidableEq, Repr

/-- What the fox placed for one picture stage (R117, R122, R123): stage 8 to 11, its engine, its program, where its
argument blocks and its output buffers lie in plan-reserved SPM, its halo, and whether it is gated. -/
structure PicPlan where
  stage : Nat
  engine : Nat
  code : List Nat
  aps : List (List ApEntry)
  start : Nat
  args : Nat
  /-- Its four parameter blocks (R115, R122): where they begin, the bytes of each. -/
  params : Nat
  paramLen : Nat
  /-- The reuse counts of its output rows, a byte each (R188). -/
  counts : Nat
  buf : Nat
  halo : Nat
  below : Nat
  inFmt : Nat
  outFmt : Nat
  gateable : Bool
  /-- The shape entries of a user stage's template (R236), and its use of the resident area (R211). -/
  shapes : List (Nat × Nat × Nat)
  resUse : Nat
  /-- The resident set of a user stage (R255): its bytes, where they lie in its package, its first RES index. -/
  resBytes : Nat
  resFrom : Nat
  resFirst : Nat
  book : Booking
deriving DecidableEq, Repr

/-! ### Streams, jobs, packages (12_admission_modes) -/

/-- A stage entry of a set-up or job record (R347). -/
structure StageSetup where
  package : Word
  template : Nat
  frameUnit : Bool
  tasks : Nat
  deadline : Nat
  weightsView : Nat
  writable : Nat
  syncEntries : Nat
  argsSlots : Nat
  sync : List Nat
  access : List Word
  argsRegion : Word
  argsOffset : Nat
deriving DecidableEq, Repr

/-- A delivery entry (R349) and its suspension (R350): `resume` asks for it to go on from the next frame start. -/
structure Delivery where
  after : Nat
  slots : Nat
  srcRegion : Word
  srcOffset : Nat
  bytes : Nat
  window : Word
  deadline : Nat
  suspended : Bool
  resume : Bool
  notCopied : Word
deriving DecidableEq, Repr

/-- A set-up record (R346). -/
structure Setup where
  ctx : Nat
  allowSpill : Bool
  framePeriod : Nat
  linePeriod : Nat
  vblank : Nat
  calFrames : Nat
  tclass : Nat
  handover : List Nat
  stages : List StageSetup
  deliveries : List Delivery
deriving DecidableEq, Repr

/-- What a plan books of what its power estimate counts (R358): engine time in millionths of an engine, the engines that
it uses, SPM and DRAM traffic in MB/s. -/
structure PowerUse where
  eng : Nat
  engines : List Nat
  spm : Nat
  dram : Nat
deriving DecidableEq, Repr

/-- What the fox booked for a stream (R356): lane and parameter slot (R67), the engine of each stage, channels, the
objects it owns, and what its power estimate counts. -/
structure Plan where
  lane : Nat
  slot : Nat
  engines : List Nat
  channels : List Nat
  objects : List Nat
  power : PowerUse
  stages : List StagePlan
  pics : List PicPlan
  /-- PLAN windows booked: port and length in ns (R419). -/
  net : List (Nat × Nat)
  /-- Λ of each output in ns (R136). -/
  lat : List (Nat × Nat)
  /-- DRAM that the stream books in all (R247, R323). -/
  dram : DramUse
deriving DecidableEq, Repr

/-- A stream's life: admitted and not yet ACTIVE; its port ACTIVE; released, its last frame still running (R352);
stopped for a mode change (R370). -/
inductive StreamPhase
  | waiting | active | releasing | stopped
deriving DecidableEq, Repr

/-- An admitted stream (R345, R352); `order` counts admissions. -/
structure Stream where
  gen : Nat
  order : Nat
  setup : Setup
  plan : Plan
  phase : StreamPhase
  /-- The RELEASE that waits for its end, and the port of its session. -/
  releaseBy : Option (CmdRef × Fin 2)
  /-- Outputs whose window destination goes on from the next frame start (R135). -/
  outResume : List Nat
  /-- Deadlines already reported (R355): subject, frame index, stripe. -/
  late : List (Nat × Word × W16)
deriving DecidableEq, Repr

/-- An ADMIT in the fox's hands (R345, R360). -/
structure AdmitReq where
  cmd : CmdRef
  /-- The port of its session and the set-up's address, for the change journal (R489). -/
  port : Fin 2
  addr : Nat
  setup : Setup
  malformed : Option Nat
  report : Nat
  reportLen : Nat
deriving DecidableEq, Repr

/-- One task of a job (R366): not dispatched, running, or ended. -/
inductive JobTaskState
  | queued | running (e : EngPos) | ended
deriving DecidableEq, Repr

/-- A job (R364 to R367). `expiry` is a time on the 802.1AS clock or on the CCLK count. -/
inductive Expiry
  | none | absolute (ns : Nat) | relative (at_ : Nat)
deriving DecidableEq, Repr

structure Job where
  id : Nat
  cmd : CmdRef
  stages : List StageSetup
  handover : List Nat
  /-- The hand-over objects' values when the chain was accepted (R261). -/
  handBase : List Word
  expiry : Expiry
  dispatched : Bool
  /-- By stage: each task with the count of applied SSIGs that a re-dispatch suppresses, and whether it has been run again
  after an engine fault (R267). -/
  tasks : List (List (JobTaskState × Nat × Bool))
  /-- WITHDRAW commands that wait for this job (R396). -/
  withdrawing : Bool
  /-- It has ended, and its completion waits for room (R399). -/
  held : Bool
  outcome : Option (Byte × Nat × Nat)
  /-- By 65 536 × stage + task: the variant chosen at its dispatch (R248), and one more than the cluster in which a task
  that is run again stays (R267). -/
  variants : SMap Nat
  clusters : SMap Nat
deriving DecidableEq, Repr

/-- A WITHDRAW that waits for its jobs (R396): how many it acts on, and those not yet completed. -/
structure Withdraw where
  cmd : CmdRef
  count : Nat
  left : List Nat
deriving DecidableEq, Repr

/-- A mode change in progress (R370): its target and whether the replanning and the clock switch are done. -/
inductive ModePhase
  | replanning | stopping | starting
deriving DecidableEq, Repr

structure ModeChange where
  target : Nat
  phase : ModePhase
  /-- The new plans of the streams, in admission order. -/
  plans : List (Nat × Plan)
deriving DecidableEq, Repr

/-- A loaded package (R395). -/
structure Package where
  gen : Nat
  region : Word
  addr : Nat
  size : Nat
deriving DecidableEq, Repr

/-- Everything the spec gives the module, but for the queue of commands. -/
structure Module where
  /-- Registers by register-space offset, unlisted ones at their reset value (Machine/Regs.lean). -/
  regs : SMap Word
  /-- SPM and DRAM by device address, unlisted bytes 0. -/
  mem : List Host.Cell
  /-- Model clock in ns since power good, the 802.1AS clock as an offset from it, and the draws of free values made. -/
  now : Nat
  ptpOffset : Int
  draws : Nat
  /-- The status and value that answer the last register access (R26, R406), or a narrow access not served (R527). -/
  busStatus : W16
  busValue : Word
  /-- What the module has handed to its transmit queues and debug lines, oldest first. -/
  outbox : List Out
  /-- The next frame sequence number of each context and the last one given (R48). -/
  seqNext : SMap Word
  seqLast : SMap Word
  evNext : Word
  trace : List Event
  heldEvents : List Event
  journal : List JEntry
  sessions : SMap Session
  /-- The session whose turn it was last (R343), and how many entries have been taken: a count of the model's own. -/
  lastTurn : Nat
  takeNo : Nat
  sessionGen : SMap Nat
  attachWait : List AttachReq
  attachDone : List AttachDone
  noSessionAt : SMap Nat
  notReadyAt : SMap Nat
  epoch : Word
  packages : SMap Package
  packageGen : SMap Nat
  binds : SMap Binding
  winOut : List WinOut
  winSeq : Word
  mcNext : SMap Word
  mcSend : List McSend
  mcRx : List McRx
  syncSeen : List SyncSeen
  netPorts : SMap NetPort
  recovery : SMap Recovery
  /-- Flow meters (R420): tokens in units of 1e-9 bytes and the time they were counted. -/
  meters : SMap (Nat × Nat)
  rtags : SMap Nat
  /-- The next R-TAG sequence number of replicated YWP messages, by destination address (R420). -/
  cbNext : SMap Nat
  avtpSeq : SMap Nat
  clockStep : Option Int
  ports : SMap Port
  ctxs : SMap Ctx
  cals : SMap Cal
  engines : SMap Eng
  /-- Clusters with a rotation due (R503), and the order of passing sweeps. -/
  rotDue : List Nat
  sweepNo : Nat
  regions : SMap Region
  regionGen : SMap Nat
  gather : SMap GatherEntry
  gatherAge : Nat
  poison : List Nat
  ueSectors : List Nat
  /-- Errors in memory that no read has met yet: a field of the model's own (assumption log 81). -/
  latent : List MemErr
  fills : SMap (List FillCmd)
  dma : SMap DmaCh
  planMoves : List PlanJob
  /-- By 4 c + k. -/
  clips : SMap Clip
  /-- Position in the slot wheel of each DRAM channel (R322). -/
  wheel : SMap Nat
  syncs : SMap Word
  syncOwner : SMap Nat
  hostWaits : List HostWait
  streams : SMap Stream
  streamGen : SMap Nat
  admitting : Option AdmitReq
  jobs : List Job
  nextJob : Nat
  withdraws : List Withdraw
  modeChange : Option ModeChange
  jobsGated : Bool
  transition : Option Transition
  offHeld : Bool
  holdupHigh : Bool
  idleSamples : Nat
  powerSamples : List (Nat × Nat)
  energyPj : Nat
  atRisk : Bool
  /-- The last entry to STANDBY was a thermal trip (R457). -/
  tripped : Bool
  otp : Otp
  flash : Flash
  nonce : Option (Nat × List Byte)
  backoff : Bool
  backoffEnd : Nat
  fullFill : Option DbgHdr
  cpHalted : Bool
  engHalted : List Nat
  /-- The instruction of the debug TAP (R476, R479). -/
  tap : TapInstr
  boot : BootPhase
  dramReady : Bool
  dramFillDue : Bool
  fwHash : List Byte
  /-- The resident library as boot verified it, instructions and address programs: what firmware copies into the library memory
  of every engine whose domain is switched on (R193, 17_boot_reset_faults, after R499). -/
  library : List Nat × List (List Byte)
  fwVersion : Word
  flogPending : List Event
  cpFaults : Nat × Nat
  doubleRecord : Bool
deriving DecidableEq, Repr

/-- The state: the module and the commands that wait, first in, first out. -/
structure State extends Module where
  pending : List Instr
deriving DecidableEq, Repr

/-- The SC has read OTP: in BLANK the level and its baseline are FULL (R465, R492). -/
def resetRegs : SMap Word := [(0x7C0000, 0b1010)]

/-- OTP of a module in BLANK with nothing written (assumption log 4). -/
def Otp.blank : Otp :=
  { lc := 0, lcNext := 0, deviceId := List.replicate 16 0, vendorHash := List.replicate 48 0
    ownerHash := List.replicate 48 0, ownerWritten := false, passwords := [], floor := 0, identity := none, fuses := 0
    macA := 0, macB := 0, thermTrim := List.replicate 8 0, voltTrim := List.replicate 8 0 }

/-- Flash as it leaves the factory: settings and back-off count zero, no other record; the firmware slots hold what the first
FIRMWARE_VERIFIED names (assumption log 4). -/
def Flash.blank : Flash :=
  { slots := none, settings := [(0, ⟨1, 0, 0xC514CFAD⟩)], eccUsed := false, backoff := [(0, ⟨1, 0, 0xC514CFAD⟩)], faultLog := []
    train := [], cal := [] }

/-- The module at power good, with the domains of IDLE on and the SC about to verify the firmware (R443, R498 steps 1
to 4). -/
def Module.reset : Module :=
  { regs := resetRegs, mem := [], now := 0, ptpOffset := 0, draws := 0, busStatus := 0, busValue := 0, outbox := []
    seqNext := [], seqLast := [], evNext := 0, trace := [], heldEvents := [], journal := [], sessions := [], lastTurn := 0, takeNo := 0
    sessionGen := [], attachWait := [], attachDone := [], noSessionAt := [], notReadyAt := [], epoch := 0, packages := []
    packageGen := [], binds := [], winOut := [], winSeq := 0, mcNext := [], mcSend := [], mcRx := [], syncSeen := []
    netPorts := [], recovery := [], meters := [], rtags := [], cbNext := [], avtpSeq := [], clockStep := none, ports := [], ctxs := []
    cals := [], engines := [], rotDue := [], sweepNo := 0, regions := [], regionGen := [], gather := [], gatherAge := 0
    poison := [], ueSectors := [], latent := [], fills := [], dma := [], planMoves := [], clips := [], wheel := [], syncs := []
    syncOwner := [], hostWaits := [], streams := [], streamGen := [], admitting := none, jobs := [], nextJob := 0
    withdraws := [], modeChange := none, jobsGated := false, transition := none, offHeld := false, holdupHigh := false
    idleSamples := 0, powerSamples := [], energyPj := 0, atRisk := false, tripped := false, otp := Otp.blank
    flash := Flash.blank, nonce := none, backoff := false, backoffEnd := 0, fullFill := none, cpHalted := false
    engHalted := [], tap := .idcode, boot := .verifying, dramReady := false, dramFillDue := false, fwHash := [], library := ([], [])
    fwVersion := 0, flogPending := [], cpFaults := (0, 0), doubleRecord := false }

/-- The machine right after reset: every register at the value the spec gives for reset, nothing waiting. -/
def State.reset : State := { Module.reset with pending := [] }

end Sys2Proof.Machine
end

