-- ==== Sys2Proof/Machine/Ops.lean ====
section
/-!
DEFINITION. The named operations over sparse maps, registers, memory, sync objects, time, events, completions and
messages that every meaning is written with.
-/
namespace Sys2Proof

/-! ### Sparse maps -/

/-- The value listed for key `k`, if one is. -/
def SMap.find? {α : Type} (m : SMap α) (k : Nat) : Option α :=
  match m with
  | [] => none
  | (k', v) :: t => if k' = k then some v else SMap.find? t k

/-- List `v` under key `k`, keeping the keys rising. -/
def SMap.insert {α : Type} (m : SMap α) (k : Nat) (v : α) : SMap α :=
  match m with
  | [] => [(k, v)]
  | (k', v') :: t =>
    if k < k' then (k, v) :: (k', v') :: t
    else if k = k' then (k, v) :: t
    else (k', v') :: SMap.insert t k v

/-- Drop key `k`. -/
def SMap.erase {α : Type} (m : SMap α) (k : Nat) : SMap α := m.filter fun e => e.1 != k

/-- Read key `k`, unlisted keys reading as `d`. -/
def SMap.get {α : Type} (d : α) (m : SMap α) (k : Nat) : α := (m.find? k).getD d

/-- Write `v` to key `k`; a value that unlisted keys read as is not listed. -/
def SMap.set {α : Type} [DecidableEq α] (d : α) (m : SMap α) (k : Nat) (v : α) : SMap α :=
  if v = d then m.erase k else m.insert k v

/-- Change the value listed for key `k`; nothing where none is. -/
def SMap.adjust {α : Type} (m : SMap α) (k : Nat) (f : α → α) : SMap α :=
  match m.find? k with
  | some v => m.insert k (f v)
  | none => m

/-- The lowest number at or above `lo` and below `hi` that is not a key. -/
def SMap.freeKey {α : Type} (m : SMap α) (lo hi : Nat) : Option Nat :=
  ((List.range (hi - lo)).map (· + lo)).find? fun k => (m.find? k).isNone

/-! ### Bytes -/

/-- The low `n` bytes of `v`, least significant first (R7). -/
def leBytes (n v : Nat) : List Byte := (List.range n).map fun i => BitVec.ofNat 8 (v >>> (8 * i))

/-- The low `n` bytes of `v`, most significant first (R7: network headers; R63: the sensor bus). -/
def beBytes (n v : Nat) : List Byte := (leBytes n v).reverse

/-- The number that bytes spell, least significant first (R7). -/
def ofLe (b : List Byte) : Nat :=
  match b with
  | [] => 0
  | x :: t => x.toNat + 256 * ofLe t

/-- The number that bytes spell, most significant first (R7, R64). -/
def ofBe (b : List Byte) : Nat := ofLe b.reverse

/-- The number at offset `o`, `n` bytes wide, of a little-endian layout. -/
def fieldAt (b : List Byte) (o n : Nat) : Nat := ofLe ((b.drop o).take n)

/-- Bits [hi:lo] of a number. -/
def bitsOf (v hi lo : Nat) : Nat := (v >>> lo) % 2 ^ (hi + 1 - lo)

/-- A two's complement reading of the low `n` bits. -/
def signedOf (n v : Nat) : Int := if v % 2 ^ n < 2 ^ (n - 1) then (v % 2 ^ n : Nat) else (v % 2 ^ n : Nat) - (2 ^ n : Nat)

/-- The low `n` bits of an integer. -/
def twos (n : Nat) (i : Int) : Nat := (i % (2 ^ n : Nat)).toNat

/-- Bytes cut or filled up with zeros to the width of their field. -/
def fit (n : Nat) (l : List Byte) : List Byte := (l ++ List.replicate n 0).take n

/-- Replace element `i` of a list. -/
def setAt {α : Type} (l : List α) (i : Nat) (v : α) : List α :=
  match l, i with
  | [], _ => []
  | _ :: t, 0 => v :: t
  | x :: t, i + 1 => x :: setAt t i v

/-- CRC-32C of bytes (R157, R477, R500; assumption log 7). -/
def crc32c (b : List Byte) : Word :=
  let step := fun (c : Word) (x : Byte) =>
    (List.range 8).foldl (fun c _ => if c.getLsbD 0 then (c >>> 1) ^^^ 0x82F63B78#32 else c >>> 1)
      (c ^^^ x.setWidth 32)
  ~~~ (b.foldl step (~~~ 0#32))

/-! ### Records in two copies (R157, R317, R500) -/

/-- The generation of copy `i`, counting from 1; 0 where there is no good copy. -/
def copyGen {α : Type} (copy : Nat → Option α) (gen : α → Nat) (i : Nat) : Nat := ((copy i).map fun r => gen r + 1).getD 0

/-- The good copy with the highest generation. -/
def newestCopy {α : Type} (copy : Nat → Option α) (gen : α → Nat) : Option α :=
  if copyGen copy gen 0 < copyGen copy gen 1 then copy 1 else copy 0

/-- The copy that a store overwrites: the older, and one that is no good before one that is. -/
def olderCopy {α : Type} (copy : Nat → Option α) (gen : α → Nat) : Nat :=
  if copyGen copy gen 0 ≤ copyGen copy gen 1 then 0 else 1

/-- The generation of the record that a store writes: above that of both copies. -/
def nextCopyGen {α : Type} (copy : Nat → Option α) (gen : α → Nat) : Nat :=
  max 1 (max (copyGen copy gen 0) (copyGen copy gen 1))

/-! ### Status codes (R380) -/

def stOk : Nat := 0
def stNotReady : Nat := 1
def stBusy : Nat := 2
def stRefused : Nat := 3
def stExpired : Nat := 4
def stAbortedFault : Nat := 5
def stWaitTimeout : Nat := 6
def stShapeExceedsPlan : Nat := 7
def stRegionOverflow : Nat := 8
def stWindowClosed : Nat := 9
def stBusError : Nat := 10
def stCalImplausible : Nat := 11
def stCalDisagree : Nat := 12
def stAuthFailed : Nat := 13
def stWithdrawn : Nat := 14
def stNoSession : Nat := 32
def stBadVersion : Nat := 33
def stBadMessage : Nat := 34
def stSessionLimit : Nat := 35

/-! ### Addresses (R375, R439) -/

/-- The form of frames to an address: UDP for an IPv4 address (R375, R439). -/
def Peer.udp (p : Peer) : Bool := match p with | .ip _ => true | .mac _ => false
def Hdr.udp (h : Hdr) : Bool := h.peer.udp

/-- A node's address in the Ethernet form (R439). -/
def nodeMac (node : W16) : Nat := 0x025957000000 + node.toNat

/-- The address of what the module originates for a node that it hears from at an address (R439; the IPv4 address of a host
without a binding: assumption log 82). -/
def originTo (node : W16) (p : Peer) : Peer := match p with | .ip a => .ip a | .mac _ => .mac (nodeMac node)

/-- The 802.1CB stream that messages to an address form (R420). -/
def Peer.stream (p : Peer) : Nat := match p with | .mac a => a | .ip a => 2 ^ 48 + a.toNat

namespace Machine

/-! ### Records of one number in flash (R500) -/

/-- The bytes of a record of one number that its CRC covers (their order is the model's, assumption log 76). -/
def FlashRec.bytes (r : FlashRec) : List Byte := leBytes 4 r.generation ++ leBytes 4 r.value

/-- A copy of such a record, when its CRC matches (R500). -/
def goodRec (l : SMap FlashRec) (i : Nat) : Option FlashRec := (l.find? i).filter fun r => r.crc = crc32c r.bytes

/-- The number that such a record holds: its good copy with the highest generation. -/
def recValue (l : SMap FlashRec) : Option Nat := (newestCopy (goodRec l) (·.generation)).map (·.value)

/-- Store such a record over its older copy (R500). -/
def recStore (l : SMap FlashRec) (v : Nat) : SMap FlashRec :=
  let r : FlashRec := ⟨nextCopyGen (goodRec l) (·.generation), v, 0⟩
  l.insert (olderCopy (goodRec l) (·.generation)) { r with crc := crc32c r.bytes }

/-! ### Registers -/

/-- The word a register holds. -/
def Module.rd (m : Module) (off : Nat) : Word := SMap.get (regReset off) m.regs off

/-- Store a word in a register. -/
def Module.wr (m : Module) (off : Nat) (v : Word) : Module :=
  { m with regs := SMap.set (regReset off) m.regs off v }

/-- The value of a register field. -/
def Module.fld (m : Module) (off : Nat) (b : Bits) : Nat := b.of (m.rd off)

/-- Store a register field. -/
def Module.setFld (m : Module) (off : Nat) (b : Bits) (v : Nat) : Module := m.wr off (b.put (m.rd off) v)

/-- Whether a one-bit field is set. -/
def Module.bit (m : Module) (off : Nat) (b : Bits) : Bool := m.fld off b = 1

/-- Add to a counter field that saturates. -/
def Module.satAdd (m : Module) (off : Nat) (b : Bits) (n : Nat) : Module :=
  m.setFld off b (min (m.fld off b + n) (2 ^ (b.hi + 1 - b.lo) - 1))

/-- Add to a 32-bit counter that saturates at 0xFFFF_FFFF. -/
def Module.count (m : Module) (off : Nat) (n : Nat) : Module :=
  m.wr off (BitVec.ofNat 32 (min ((m.rd off).toNat + n) 0xFFFFFFFF))

/-- Clear the 32-bit counters at `base + 4 * i` for the bits i below `n` set in `mask` (the CNT_CLR registers). -/
def Module.clearCounters (m : Module) (base n mask : Nat) : Module :=
  (List.range n).foldl (fun m i => if mask.testBit i then m.wr (base + 4 * i) 0 else m) m

/-! ### Free values -/

/-- The next draw of the random source. -/
def Module.draw (m : Module) : Nat × Module := (Config.random m.draws, { m with draws := m.draws + 1 })

/-- The next free choice among `n` alternatives, numbered from 0. -/
def Module.pick (m : Module) (n : Nat) : Nat × Module :=
  (Config.choice m.draws % n, { m with draws := m.draws + 1 })

/-- The next value that the spec leaves open. -/
def Module.open_ (m : Module) : Word × Module := (Config.value m.draws, { m with draws := m.draws + 1 })

/-! ### Time (R3, R4, R421) -/

/-- Sample the clock: some time has passed since the sample before. -/
def Module.tick (m : Module) : Module :=
  { m with now := m.now + Config.elapsedNs m.draws, draws := m.draws + 1 }

/-- The 802.1AS time in ns at the last sample. -/
def Module.ptp (m : Module) : Nat := ((m.now : Int) + m.ptpOffset).toNat

/-- Stamps are valid in SYNCED and HOLDOVER (R421). -/
def Module.timeValid (m : Module) : Bool := m.fld NET_GPTP_STAT NET_GPTP_STAT_state != 0

/-- A stamp of the last sample; without a valid time, `seq` stands in (R4) and the seconds are a free value. -/
def Module.stamp (m : Module) (seq : Word) : Stamp :=
  if m.timeValid then ⟨true, m.ptp / 1000000000 % 2 ^ 48, BitVec.ofNat 32 (m.ptp % 1000000000)⟩
  else ⟨false, Config.random m.draws % 2 ^ 48, seq⟩

/-! ### Sync objects (R298, R302, R307) -/

/-- The value of a sync object. -/
def Module.sync (m : Module) (o : Nat) : Word := SMap.get 0 m.syncs o

/-- Set a sync object. -/
def Module.setSync (m : Module) (o : Nat) (v : Word) : Module := { m with syncs := SMap.set 0 m.syncs o v }

/-- Add to a sync object, modulo 2^32 (R298). -/
def Module.addSync (m : Module) (o : Nat) (v : Word) : Module := m.setSync o (m.sync o + v)

/-- Value `v` meets threshold `t` (R302). -/
def meets (v t : Word) : Bool := (v - t).toNat < 2 ^ 31

/-- The object belongs to an admitted stream's plan (R307). -/
def Module.owned (m : Module) (o : Nat) : Bool := (m.syncOwner.find? o).isSome

/-- An addition by a party that is no producer of the owning stream: discarded and counted when the object is
plan-owned (R308). -/
def Module.guestAdd (m : Module) (o : Nat) (v : Word) : Module :=
  if m.owned o then m.count SYN_CNT_REFUSED 1 else m.addSync o v

/-! ### Messages -/

/-- The module's node ID (R438). -/
def Module.node (m : Module) : W16 := BitVec.ofNat 16 (m.fld NET_NODE NET_NODE_node)

/-- A port's own MAC address (R414). -/
def Module.portMac (m : Module) (p : Nat) : Nat :=
  (m.rd (NET_MAC_LO p)).toNat + m.fld (NET_MAC_HI p) NET_MAC_HI_mac * 2 ^ 32

/-- The broadcast MAC address. -/
def broadcastMac : Nat := 0xFFFFFFFFFFFF

/-- YWP frames to this MAC address are accepted (R439): to the port's MAC or the node address; broadcast only for WAKE. -/
def Module.macFor (m : Module) (p dmac : Nat) (wake : Bool) : Bool :=
  dmac = m.portMac p || dmac = nodeMac m.node || (wake && dmac = broadcastMac)

/-- The epoch field of a message of this type (R376): 0 in ATTACH, WAKE and DEBUG. -/
def Module.epochOf (m : Module) (type : Nat) : Word := if type = 0x01 || type = 0x08 || type = 0x20 then 0 else m.epoch

/-- Hand a frame to its transmit queue or line. -/
def Module.emit (m : Module) (o : Out) : Module := { m with outbox := m.outbox ++ [o] }

/-- The session field of an attached session: number and generation (R376). -/
def sessionField (n : Nat) (s : Session) : W16 := BitVec.ofNat 16 (s.gen * 256 + n)

/-- The session that a session field names, when it is attached with that generation (R378). -/
def Module.sessionOf (m : Module) (f : W16) : Option (Nat × Session) :=
  match m.sessions.find? (f.toNat % 256) with
  | some s => if s.gen = f.toNat / 256 then some (f.toNat % 256, s) else none
  | none => none

/-- The form is accepted and sent (R441). -/
def Module.formOn (m : Module) (udp : Bool) : Bool :=
  if udp then m.bit YWP_CFG YWP_CFG_udp_en else m.bit YWP_CFG YWP_CFG_eth_en

/-- A YWP message as it leaves a port: under NET_VLAN.tagged with the port's VID (R440). -/
def Module.ywpOut (m : Module) (port : Fin 2) (dest : Peer) (rtag : Option Nat) (tclass : Nat) (x : Msg) : Out :=
  .ywp port dest (if m.bit (NET_VLAN port.val) NET_VLAN_tagged then some (m.fld (NET_VLAN port.val) NET_VLAN_vid) else none)
    rtag tclass x

/-- A message as the frames that carry it, each with its port: one, or under REPLICATE one on each, with one R-TAG sequence
number (R382, R420). -/
def Module.frames (m : Module) (port : Fin 2) (dest : Peer) (replicate : Bool) (tclass : Nat) (x : Msg) :
    List (Fin 2 × Out) × Module :=
  if replicate then
    let n := SMap.get 0 m.cbNext dest.stream
    ([(0, m.ywpOut 0 dest (some n) tclass x), (1, m.ywpOut 1 dest (some n) tclass x)],
      { m with cbNext := SMap.set 0 m.cbNext dest.stream ((n + 1) % 65536) })
  else ([(port, m.ywpOut port dest none tclass x)], m)

/-- Send a message (R382, R420). -/
def Module.send (m : Module) (port : Fin 2) (dest : Peer) (replicate : Bool) (tclass : Nat) (x : Msg) : Module :=
  let (l, m) := m.frames port dest replicate tclass x
  l.foldl (fun m o => m.emit o.2) m

/-- Send a message that the module originates: nothing leaves in a form that is not enabled (R441). -/
def Module.originate (m : Module) (port : Fin 2) (dest : Peer) (replicate : Bool) (tclass : Nat) (x : Msg) : Module :=
  if m.formOn dest.udp then m.send port dest replicate tclass x else m

/-- Send a request that is answered within the same step, and when it goes unanswered again up to retries times, each resend
counted (R432). -/
def Module.request (m : Module) (port : Fin 2) (dest : Peer) (replicate : Bool) (tclass : Nat) (x : Msg)
    (answered : Bool) : Module :=
  let m := m.originate port dest replicate tclass x
  if answered then m
  else
    let n := m.fld YWP_WIN_CFG YWP_WIN_CFG_retries
    ((List.range n).foldl (fun m _ => m.originate port dest replicate tclass x) m).count YWP_CNT_RESENT n

/-- Answer a message in its form, on its port and to its source address (R375, R377, R439): its type with RESP, its seq, a
status and a payload. A message of a session is answered as the session's messages travel (R382). -/
def Module.answer (m : Module) (h : Hdr) (type status retry : Nat) (payload : List Byte) : Module :=
  let x : Msg := ⟨h.version, BitVec.ofNat 8 type, true, false, h.src, h.session, h.seq, BitVec.ofNat 16 status,
    BitVec.ofNat 16 retry, m.epochOf type, payload⟩
  match m.sessionOf h.session with
  | some (_, s) => m.send h.port h.peer s.replicate s.tclass x
  | none => m.send h.port h.peer false 0 x

/-- Answer a message whose sender asks for it (ACK_REQ, R376). -/
def Module.answerIf (m : Module) (h : Hdr) (type status retry : Nat) (payload : List Byte) : Module :=
  if h.ackReq then m.answer h type status retry payload else m

/-- A frame of the UART and of DBGMSG (R477): its mark, the payload's length, the payload, the payload's CRC-32C. -/
def uartFrame (p : List Byte) : List Byte := [0x59, 0x57] ++ leBytes 2 p.length ++ p ++ leBytes 4 (crc32c p).toNat

/-- Answer on a debug path (R477): a port carries the status in the header, JTAG and UART before the payload. -/
def Module.debugSend (m : Module) (d : DbgHdr) (status retry : Nat) (p : List Byte) : Module :=
  if h : d.path.val < 2 then
    m.answer ⟨⟨d.path.val, h⟩, d.peer, d.dmac, d.version, false, true, d.node, d.dst, 0, d.seq, 0⟩ 0x20 status retry p
  else m.emit (.debug d.path (uartFrame (leBytes 2 status ++ p)))

/-- Answer a debug operation on the path it came by (R477, R478): the op, three reserved bytes, the body. -/
def Module.debugAnswer (m : Module) (d : DbgHdr) (op status retry : Nat) (body : List Byte) : Module :=
  m.debugSend d status retry (leBytes 4 op ++ body)

/-- Send a message of a session: its next seq, its port, form and class (R376, R382). -/
def Module.sendSession (m : Module) (n : Nat) (type : Nat) (ackReq : Bool) (payload : List Byte) : Module :=
  match m.sessions.find? n with
  | none => m
  | some s =>
    let x : Msg := ⟨s.version, BitVec.ofNat 8 type, false, ackReq, s.node, sessionField n s, s.txSeq, 0, 0, m.epoch,
      payload⟩
    let m := { m with sessions := m.sessions.insert n { s with txSeq := s.txSeq + 1 } }
    m.originate s.port s.peer s.replicate s.tclass x

/-- The WIN_WRITE payload of R431 for a unicast write. -/
def winWritePayload (window gen flags transfer position offset : Nat) (data : List Byte) : List Byte :=
  leBytes 2 window ++ leBytes 2 gen ++ leBytes 2 flags ++ leBytes 2 data.length ++ leBytes 4 transfer
    ++ leBytes 4 position ++ leBytes 8 offset ++ data

/-- Write into a session's ring window by one WIN_WRITE (R386, R388), and keep it until it is answered (R432). -/
def Module.ringWrite (m : Module) (n : Nat) (offset : Nat) (data : List Byte) (use : WinUse) : Module :=
  match m.sessions.find? n with
  | none => m
  | some s =>
    let x : Msg := ⟨s.version, 0x10, false, true, s.node, sessionField n s, s.txSeq, 0, 0, s.ringEpoch,
      winWritePayload s.ringWindow.toNat s.ringGen.toNat 0 0 0 offset data⟩
    let w : WinOut := ⟨s.node, sessionField n s, s.txSeq, s.port, s.peer, s.tclass, none, offset, data.length, x, 0, use⟩
    let m := { m with sessions := m.sessions.insert n { s with txSeq := s.txSeq + 1 }, winOut := m.winOut ++ [w] }
    m.originate s.port s.peer s.replicate s.tclass x

/-! ### Events (R401 to R405) -/

/-- The 32 bytes of an event entry (R401). -/
def eventBytes (e : Event) (phase : Nat) : List Byte :=
  leBytes 2 e.code.toNat ++ leBytes 1 (phase + if e.stamp.valid then 2 else 0) ++ [e.ctx]
    ++ leBytes 4 e.number.toNat ++ leBytes 6 e.stamp.sec ++ leBytes 4 e.stamp.ns.toNat ++ leBytes 2 e.p0.toNat
    ++ leBytes 4 e.p1.toNat ++ leBytes 4 e.p2.toNat ++ leBytes 4 e.p3.toNat

/-- The phase bit of the entry with count `c` in a ring of `n` entries (R387). -/
def phaseBit (c : Word) (n : Nat) : Nat := 1 - c.toNat / n % 2

/-- Entries of a ring that hold something not yet consumed. -/
def ringUsed (tail head : Word) : Nat := (tail - head).toNat

/-- Free entries of a session's event ring. -/
def eqFree (s : Session) : Nat := s.eqN - ringUsed s.eqTail s.eqHead

/-- Write an event entry to a session's event ring. -/
def Module.writeEvent (m : Module) (n : Nat) (e : Event) : Module :=
  match m.sessions.find? n with
  | none => m
  | some s =>
    let data := eventBytes e (phaseBit s.eqTail s.eqN)
    let off := s.eqOff + s.eqTail.toNat % s.eqN * 32
    let m := { m with sessions := m.sessions.insert n { s with eqTail := s.eqTail + 1 } }
    m.ringWrite n off data (.event (BitVec.ofNat 8 n).toFin)

/-- The next event with the given fields: it takes the next number and a stamp (R402); the trace keeps the last 512
(R478). -/
def Module.makeEvent (m : Module) (code ctx : Nat) (seq : Word) (p0 p1 p2 p3 : Nat) : Event × Module :=
  let m := m.tick
  let e : Event := ⟨BitVec.ofNat 16 code, BitVec.ofNat 8 ctx, m.evNext, m.stamp seq, BitVec.ofNat 16 p0,
    BitVec.ofNat 32 p1, BitVec.ofNat 32 p2, BitVec.ofNat 32 p3⟩
  let tr := m.trace ++ [e]
  (e, ({ m with evNext := m.evNext + 1, trace := tr.drop (tr.length - 512) }).wr DBG_TRACE (m.evNext + 1))

/-- Write the EVENTS_LOST entry of a session whose event ring has two free entries again (R405); firmware does (R479). -/
def Module.writeLost (m : Module) (n : Nat) : Module :=
  match m.sessions.find? n with
  | none => m
  | some s =>
    if s.lost = 0 || eqFree s < 2 || m.cpHalted then m
    else
      let (e, m) := m.makeEvent 0x0D01 0xFF 0 0 s.lost s.firstLost.toNat 0
      let m := { m with sessions := m.sessions.adjust n fun s => { s with lost := 0, firstLost := 0 } }
      m.writeEvent n e

/-- Group 13 is always delivered; another group when its mask bit is set (R403). -/
def wants (s : Session) (e : Event) : Bool := e.code.toNat / 256 = 13 || s.mask.getLsbD (e.code.toNat / 256)

/-- Deliver an event to one session: written with two entries free, unless the session still has lost events to be told of;
otherwise lost for that session (R405). -/
def Module.deliverTo (m : Module) (e : Event) (n : Nat) : Module :=
  match m.sessions.find? n with
  | none => m
  | some s =>
    if wants s e then
      if s.lost = 0 && 2 ≤ eqFree s then m.writeEvent n e
      else
        let s := { s with lost := s.lost + 1, firstLost := if s.lost = 0 then e.number else s.firstLost }
        { m with sessions := m.sessions.insert n s }
    else m

/-- Before an event takes its number, every EVENTS_LOST that is due is written, so that each ring is in event-number order
(R402, R405). -/
def Module.writeAllLost (m : Module) : Module := (m.sessions.map (·.1)).foldl (fun m n => m.writeLost n) m

/-- Deliver an event to every session that wants it, or hold it while the control pairs are halted (R402, R479). -/
def Module.deliver (m : Module) (e : Event) : Module :=
  if m.cpHalted then { m with heldEvents := m.heldEvents ++ [e] }
  else (m.sessions.map (·.1)).foldl (fun m n => m.deliverTo e n) m

/-- Raise an event of a context, whose last frame sequence number is `seq` (R401). -/
def Module.raiseSeq (m : Module) (code ctx : Nat) (seq : Word) (p0 p1 p2 p3 : Nat) : Module :=
  let (e, m) := m.writeAllLost.makeEvent code ctx seq p0 p1 p2 p3
  m.deliver e

/-- Raise an event without a context. -/
def Module.raise (m : Module) (code p0 p1 p2 p3 : Nat) : Module := m.raiseSeq code 0xFF 0 p0 p1 p2 p3

/-- The sequence number of a context's last frame start, 0 before the first (R4, R401; assumption log 13). -/
def Module.lastSeq (m : Module) (c : Nat) : Word := SMap.get 0 m.seqLast c

/-- Raise an event of a context. -/
def Module.raiseCtx (m : Module) (code c p0 p1 p2 p3 : Nat) : Module := m.raiseSeq code c (m.lastSeq c) p0 p1 p2 p3

/-- Count a fault of class `cls` (R509). -/
def Module.countFault (m : Module) (cls : Nat) : Module := m.count (SYS_FLT_CNT (cls - 1)) 1

/-- Count a logged fault, raise its event, and keep the event for the fault log (R509, R510). -/
def Module.faultSeq (m : Module) (cls code ctx : Nat) (seq : Word) (p0 p1 p2 p3 : Nat) : Module :=
  let (e, m) := (m.countFault cls).writeAllLost.makeEvent code ctx seq p0 p1 p2 p3
  ({ m with flogPending := m.flogPending ++ [e] }).deliver e

/-- A logged fault without a context. -/
def Module.fault (m : Module) (cls code p0 p1 p2 p3 : Nat) : Module := m.faultSeq cls code 0xFF 0 p0 p1 p2 p3

/-- A logged fault that raises no event (R509: FLASH, brown-out): its log entry carries the class in p1, as
CONTROL_FAULT does (assumption log 8). -/
def Module.silentFault (m : Module) (cls : Nat) : Module :=
  let m := (m.countFault cls).tick
  let e : Event := ⟨0x0C01, 0xFF, 0, m.stamp 0, 0, BitVec.ofNat 32 cls, 0, 0⟩
  { m with flogPending := m.flogPending ++ [e] }

/-- A store to flash at once: one that fails is a fault of class FLASH and leaves what was stored (R500, R509); which it is, is
free (assumption log 76). -/
def Module.storeFlash (m : Module) (f : Flash → Flash) : Module :=
  let (bad, m) := m.pick 2
  if bad = 1 then m.silentFault 16 else { m with flash := f m.flash }

/-! ### Completions (R397 to R399) -/

/-- The 16 bytes of a completion entry (R397). -/
def complBytes (c : Compl) (phase : Nat) : List Byte :=
  leBytes 4 c.tag.toNat ++ [c.status] ++ leBytes 1 (phase + if c.more then 2 else 0) ++ [c.opcode, 0]
    ++ leBytes 8 c.result.toNat

/-- Write a completion entry to a session's completion ring. -/
def Module.writeCompl (m : Module) (n : Nat) (c : Compl) : Module :=
  match m.sessions.find? n with
  | none => m
  | some s =>
    let data := complBytes c (phaseBit s.cqTail s.cqN)
    let off := s.cqOff + s.cqTail.toNat % s.cqN * 16
    let m := { m with sessions := m.sessions.insert n { s with cqTail := s.cqTail + 1 } }
    m.ringWrite n off data (.completion (BitVec.ofNat 8 n).toFin)

/-- The session's completion ring has a free entry and no completion waits (R399). -/
def cqRoom (s : Session) : Bool := s.cqWait.isEmpty && ringUsed s.cqTail s.cqHead < s.cqN

/-- Fields of the entry of a taken command (R392). -/
def Taken.tag (t : Taken) : Word := BitVec.ofNat 32 (fieldAt t.entry 4 4)
def Taken.opcode (t : Taken) : Byte := BitVec.ofNat 8 (fieldAt t.entry 0 1)
def Taken.fence (t : Taken) : Bool := (fieldAt t.entry 1 1).testBit 0

/-- Drop the first started command with this tag and opcode. -/
def dropTaken (l : List Taken) (tag : Word) (op : Byte) : List Taken :=
  match l with
  | [] => []
  | t :: r => if t.tag = tag ∧ t.opcode = op ∧ t.started then r else t :: dropTaken r tag op

/-- The session that a command came from, while it is still attached. -/
def Module.cmdSession (m : Module) (c : CmdRef) : Option Session :=
  match m.sessions.find? c.session.val with
  | some s => if s.gen = c.gen then some s else none
  | none => none

/-- A completion of the command would wait: for room (R399), or for the end of a halt, in which no ring is served (R479). -/
def Module.complWaits (m : Module) (c : CmdRef) : Bool :=
  match m.cmdSession c with
  | none => false
  | some s => !cqRoom s || m.cpHalted

/-- Complete a command: its entry is written, or waits, and the command with it (R399, R479); with MORE the command goes on.
The completion of a detached session is discarded (R338, R344). -/
def Module.completeMore (m : Module) (c : CmdRef) (status : Nat) (more : Bool) (result : Nat) (tag : Word) : Module :=
  match m.cmdSession c with
  | none => m
  | some s =>
    let e : Compl := ⟨tag, BitVec.ofNat 8 status, more, c.opcode, BitVec.ofNat 64 result⟩
    if m.complWaits c then { m with sessions := m.sessions.insert c.session.val { s with cqWait := s.cqWait ++ [e] } }
    else
      let taken := if more then s.taken else dropTaken s.taken c.tag c.opcode
      ({ m with sessions := m.sessions.insert c.session.val { s with taken := taken } }).writeCompl c.session.val e

/-- Complete a command with its last entry. -/
def Module.complete (m : Module) (c : CmdRef) (status result : Nat) : Module :=
  m.completeMore c status false result c.tag

/-- A submission entry holds these operands: offset, size and value of each (R394). -/
def entryHas (l : List (Nat × Nat × Nat)) (entry : List Byte) : Bool := l.all fun x => fieldAt entry x.1 x.2.1 = x.2.2

/-- The oldest command of the list that is taken and not started, with this tag and opcode, may start: with FENCE only
as the session's oldest (R392); its operands are those of its entry (R394). -/
def canStart (l : List Taken) (tag : Word) (op : Byte) (operands : List Byte → Bool) : Bool :=
  match l.findIdx? (fun t => t.tag = tag ∧ t.opcode = op ∧ ¬ t.started) with
  | none => false
  | some i => match l[i]? with
    | none => false
    | some t => (!t.fence || i = 0) && operands t.entry

/-- Mark the oldest such command started. -/
def markStarted (l : List Taken) (tag : Word) (op : Byte) : List Taken :=
  match l with
  | [] => []
  | t :: r =>
    if t.tag = tag ∧ t.opcode = op ∧ ¬ t.started then { t with started := true } :: r
    else t :: markStarted r tag op

/-- A ring command of a session may start: it has been taken with these operands and not started, its FENCE is met, and the
control pairs serve rings (R390, R392, R479). -/
def Module.startsNow (m : Module) (s : Session) (tag : Word) (op : Nat) (operands : List Byte → Bool) : Bool :=
  canStart s.taken tag (BitVec.ofNat 8 op) operands && !m.cpHalted && m.fullFill.isNone

/-- A ring command runs when its session is attached and it may start; then `f` runs with the command started (assumption
log 9). -/
def Module.command (m : Module) (h : CmdHdr) (op : Nat) (operands : List Byte → Bool) (f : CmdRef → Module → Module) :
    Module :=
  match m.sessions.find? h.session.val with
  | none => m
  | some s =>
    if m.startsNow s h.tag op operands then
      let s := { s with taken := markStarted s.taken h.tag (BitVec.ofNat 8 op) }
      f ⟨h.session, s.gen, h.tag, BitVec.ofNat 8 op⟩ { m with sessions := m.sessions.insert h.session.val s }
    else m

/-- The opcodes of the commands that are carried out one at a time: ADMIT, RELEASE, LOAD_PKG, UNLOAD_PKG, ALLOC and FREE
(R343, R393). -/
def serialOps : List Nat := [1, 2, 5, 6, 7, 8]

/-- No ADMIT, RELEASE, package load or unload, region allocation or release is being carried out, or waits to be completed
(R343, R399). -/
def Module.serialFree (m : Module) : Bool :=
  m.admitting.isNone && m.regions.all (·.2.phase = .live) && m.streams.all (·.2.phase ≠ .releasing) &&
    (m.sessions.all fun e => e.2.cqWait.all fun x => !serialOps.contains x.opcode.toNat) &&
    m.winOut.all fun x => match x.use with
      | .report .. => false
      | _ => true

/-- The taken command of a session that a row with this tag and opcode starts. -/
def Module.toStart (m : Module) (h : CmdHdr) (op : Byte) : Option Taken :=
  (m.sessions.find? h.session.val).bind fun s => s.taken.find? fun t => t.tag = h.tag ∧ t.opcode = op ∧ ¬ t.started

/-- ADMIT, RELEASE, package load and unload, region allocation and release are carried out one at a time, in the order in
which they are taken (R343): the one with this tag and opcode is next. -/
def Module.serialTurn (m : Module) (h : CmdHdr) (op : Nat) : Bool :=
  m.serialFree && match m.toStart h (BitVec.ofNat 8 op) with
    | none => false
    | some t => m.sessions.all fun e => e.2.taken.all fun x =>
        x.started || !serialOps.contains x.opcode.toNat || t.order ≤ x.order

/-! ### The change journal (R488 to R490) -/

/-- Enter a change in the journal: it keeps the last 1 024 entries. -/
def Module.journalEntry (m : Module) (kind : Nat) (source : Fin 4) (session : W16) (object old new : Nat) : Module :=
  let m := m.tick
  let n := m.rd JNL_NEXT
  let st := m.stamp 0
  let e : JEntry := ⟨n, BitVec.ofNat 8 kind, source, session, BitVec.ofNat 32 object, BitVec.ofNat 32 old,
    BitVec.ofNat 32 new, if st.valid then st else { st with ns := 0 }⟩
  let j := m.journal ++ [e]
  let j := j.drop (j.length - 1024)
  let oldest := match j with
    | [] => n
    | x :: _ => x.number
  (({ m with journal := j }).wr JNL_NEXT (n + 1)).wr JNL_OLDEST oldest

/-- The 32 bytes of a journal entry (R489). -/
def journalBytes (e : JEntry) : List Byte :=
  leBytes 4 e.number.toNat ++ [e.kind] ++ leBytes 1 (e.source.val + if e.stamp.valid then 8 else 0)
    ++ leBytes 2 e.session.toNat ++ leBytes 4 e.object.toNat ++ leBytes 4 e.old.toNat ++ leBytes 4 e.new.toNat
    ++ leBytes 6 e.stamp.sec ++ leBytes 2 0 ++ leBytes 4 e.stamp.ns.toNat

/-- The answer to a journal read (R408): oldest, next, count and the entries from the later of `start` and oldest. -/
def Module.journalAnswer (m : Module) (start : Word) (max : Nat) : List Byte :=
  let oldest := m.rd JNL_OLDEST
  let skip := (start - oldest).toNat
  let l := if skip < m.journal.length then m.journal.drop skip
    else if skip < 2 ^ 31 then [] else m.journal
  let l := l.take max
  leBytes 4 oldest.toNat ++ leBytes 4 (m.rd JNL_NEXT).toNat ++ leBytes 1 l.length ++ leBytes 3 0
    ++ l.flatMap journalBytes

/-! ### Power and domains (R27, R450) -/

/-- The power state (R453). -/
def Module.power (m : Module) : Nat := m.fld PWR_STATE PWR_STATE_state

/-- A state transition is in progress (R454). -/
def Module.moving (m : Module) : Bool := m.fld PWR_STATE PWR_STATE_target != m.power

/-- Firmware runs: READY has been reached and the module is in IDLE or RUN (R409, R411). -/
def Module.ready (m : Module) : Bool := m.boot = .ready && (m.power = 2 || m.power = 3)

/-- SPM stack `s` is on, not in retention. -/
def Module.spmOn (m : Module) (s : Nat) : Bool := (m.fld PWR_DOM_STAT PWR_DOM_STAT_spm).testBit s

/-- The cycles that requests to each stack have lost to others since the count was last brought up to date: how many is not
stated for a command, a free value (R277; assumption log 2). -/
def Module.lostCycles (m : Module) : Module :=
  (List.range 8).foldl (fun m s =>
    if m.spmOn s then
      let (n, m) := m.open_
      m.wr (SPM_ST_CONFLICT s) (m.rd (SPM_ST_CONFLICT s) + BitVec.ofNat 32 n.toNat)
    else m) m

/-- DRAM is on. -/
def Module.dramOn (m : Module) : Bool := m.fld PWR_DOM_STAT PWR_DOM_STAT_ddr = 3

/-- The domain of engine position X of cluster n is on: ENGnA holds X0 to X8, ENGnB X9 to X16 (R10). -/
def Module.engOn (m : Module) (cl x : Nat) : Bool :=
  (m.fld PWR_DOM_STAT PWR_DOM_STAT_eng).testBit (2 * cl + if x ≤ 8 then 0 else 1)

/-- FE_A holds ports P00 to P17 and lanes FE0 to FE3, FE_B the others (R10). -/
def Module.feOn (m : Module) (port : Nat) : Bool :=
  (m.fld PWR_DOM_STAT PWR_DOM_STAT_fe).testBit (if port < 18 then 0 else 1)

/-- The module is entering STANDBY or OFF. -/
def Module.leaving (m : Module) : Bool :=
  match m.transition with
  | some t => t.target ≤ 1
  | none => false

/-- The engine and front-end domains that a state powers (R450, R452): the words of PWR_DOM_STAT. -/
def Module.engDomains (m : Module) (st : Nat) : Nat :=
  if st = 3 then ((List.range 8).filter fun n => (m.fld PWR_DOM_CFG PWR_DOM_CFG_cluster).testBit n).foldl
    (fun w n => w + 3 * 4 ^ n) 0
  else 0
def Module.feDomains (m : Module) (st : Nat) : Nat :=
  if st = 3 then m.fld PWR_DOM_CFG PWR_DOM_CFG_fe_a + 2 * m.fld PWR_DOM_CFG PWR_DOM_CFG_fe_b else 0

/-- The move from IDLE to RUN is under way (R451). -/
def Module.entersRun (m : Module) : Bool :=
  m.power = 2 && match m.transition with
    | some t => t.target = 3
    | none => false

/-- On the way to RUN the front-end halves and then the stacks come on before any half-cluster (R451); a stack that comes
from off is in ZEROING (R296). How far the ramp has come shows where a stack or position on it reports (assumption log
85). -/
def Module.rampSpm (m : Module) : Module :=
  if m.entersRun then
    ((m.setFld PWR_DOM_STAT PWR_DOM_STAT_fe (m.feDomains 3)).setFld PWR_DOM_STAT PWR_DOM_STAT_spm 255).setFld
      PWR_DOM_RET PWR_DOM_RET_spm 0
  else m

/-- A duty of firmware waits while the control pairs are halted (R479, R506). -/
def Module.firmware (m : Module) (k : Module → Module) : Module := if m.cpHalted then m else k m

/-- Begin a move to another power state (R454). -/
def Module.startMove (m : Module) (target : Nat) (cause : PowerCause) : Module :=
  { m.setFld PWR_STATE PWR_STATE_target target with
    transition := some ⟨target, cause, false, false, false, false⟩ }

/-- A ring command that needs RUN (R458, R459): in IDLE it first takes the module to RUN under auto_run, and otherwise
completes with NOT_READY; during RUN to IDLE the move ends first and the module then returns to RUN. -/
def Module.commandRun (m : Module) (h : CmdHdr) (op : Nat) (operands : List Byte → Bool)
    (f : CmdRef → Module → Module) : Module :=
  if m.moving then
    match m.transition with
    | some t =>
      if t.target = 2 && ((m.sessions.find? h.session.val).map fun s => m.startsNow s h.tag op operands).getD false then
        { m with transition := some { t with thenRun := true } }
      else m
    | none => m
  else if m.power = 3 then m.command h op operands f
  else if m.power = 2 then
    m.command h op operands fun c m' =>
      if m.bit PWR_CFG PWR_CFG_auto_run then m.startMove 3 .auto else m'.complete c stNotReady 0
  else m

/-- The session field of a command's session, attached or not. -/
def Module.cmdField (m : Module) (c : CmdRef) : Nat :=
  match m.cmdSession c with
  | some s => (sessionField c.session.val s).toNat
  | none => c.gen * 256 + c.session.val

/-- The end of an ADMIT: STREAM_ADMITTED for a stream that is admitted, then the completion (R360, R399). -/
def Module.admitEnd (m : Module) (c : CmdRef) (status result : Nat) : Module :=
  (if status = stOk then m.raiseCtx 0x0806 (result % 64) (m.cmdField c) result 0 0 else m).complete c status result

/-- The outcome of a command: the module's new state, the queue untouched; in OFF only the input stage works, and nothing
changes (R450, R453). -/
def ok (s : State) (m : Module) : Host.Outcome State Fault Refusal :=
  .next (if s.boot = .off then s else { s with toModule := m })

/-- The outcome of a command of the input stage, which works in OFF too. -/
def okInput (s : State) (m : Module) : Host.Outcome State Fault Refusal := .next { s with toModule := m }

end Machine
end Sys2Proof
end

