-- ==== Sys2Proof/Machine/Flags.lean ====
section
/-!
DEFINITION. The number formats of the engines (R167 to R170) and every conversion with the flags of ENG_X_ARITH that it
sets (R173 to R182): exact values, one rounding, saturation, requantisation, MX blocks, the element functions.
-/
namespace Sys2Proof.Machine

/-! ### Values -/

/-- A floating-point value: NaN, an infinity, or ±m × 2^e. -/
inductive Fv
  | nan
  | inf (neg : Bool)
  | fin (neg : Bool) (m : Nat) (e : Int)
deriving DecidableEq, Repr

/-- The mantissa with its sign. -/
def signed (neg : Bool) (m : Nat) : Int := if neg then -(m : Int) else m

/-- A floating-point format (R167, R168): exponent bits, mantissa bits, bias, and which encodings are special: 0 as
IEEE 754, 1 E4M3, 2 none. -/
structure FpFmt where
  eb : Nat
  mb : Nat
  bias : Int
  kind : Nat

def fp32 : FpFmt := ⟨8, 23, 127, 0⟩
def bf16 : FpFmt := ⟨8, 7, 127, 0⟩
def fp16 : FpFmt := ⟨5, 10, 15, 0⟩
def e4m3 : FpFmt := ⟨4, 3, 7, 1⟩
def e5m2 : FpFmt := ⟨5, 2, 15, 0⟩
def e2m3 : FpFmt := ⟨2, 3, 1, 2⟩
def e3m2 : FpFmt := ⟨3, 2, 3, 2⟩
def e2m1 : FpFmt := ⟨2, 1, 1, 2⟩

/-- The value of an encoding (R168). -/
def FpFmt.decode (f : FpFmt) (w : Nat) : Fv :=
  let neg := w.testBit (f.eb + f.mb)
  let e := w / 2 ^ f.mb % 2 ^ f.eb
  let m := w % 2 ^ f.mb
  if f.kind = 0 ∧ e = 2 ^ f.eb - 1 then (if m = 0 then .inf neg else .nan)
  else if f.kind = 1 ∧ e = 15 ∧ m = 7 then .nan
  else if e = 0 then .fin neg m (1 - f.bias - f.mb)
  else .fin neg (m + 2 ^ f.mb) ((e : Int) - f.bias - f.mb)

/-- m / 2^k, halves to even. -/
def rne (m k : Nat) : Nat :=
  let q := m / 2 ^ k
  let r := 2 * (m % 2 ^ k)
  if 2 ^ k < r ∨ (r = 2 ^ k ∧ q % 2 = 1) then q + 1 else q

/-- The encoding, without its sign, of m × 2^e rounded to nearest even, subnormals kept, the exponent unbounded above. -/
def FpFmt.roundCode (f : FpFmt) (m : Nat) (e : Int) : Nat :=
  if m = 0 then 0
  else
    let low := 1 - f.bias - f.mb
    let ex := max ((Nat.log2 m : Int) + e - f.mb) low
    let q := if ex ≤ e then m * 2 ^ (e - ex).toNat else rne m (ex - e).toNat
    (ex - low).toNat * 2 ^ f.mb + q

/-- The encoding of the largest finite value. -/
def FpFmt.maxCode (f : FpFmt) : Nat :=
  match f.kind with
  | 0 => (2 ^ f.eb - 1) * 2 ^ f.mb - 1
  | 1 => 126
  | _ => 2 ^ (f.eb + f.mb) - 1

/-- The sign bit. -/
def FpFmt.signBit (f : FpFmt) (neg : Bool) : Nat := if neg then 2 ^ (f.eb + f.mb) else 0

/-- The encoding of infinity in a format that has one. -/
def FpFmt.infCode (f : FpFmt) : Nat := (2 ^ f.eb - 1) * 2 ^ f.mb

/-- Every NaN the array writes. -/
def f32nan : Word := 0x7FC00000

/-- A value rounded once to binary32 (R174, R179). -/
def Fv.toF32 (v : Fv) : Word :=
  match v with
  | .nan => f32nan
  | .inf neg => BitVec.ofNat 32 (fp32.signBit neg + fp32.infCode)
  | .fin neg m e => BitVec.ofNat 32 (fp32.signBit neg + min fp32.infCode (fp32.roundCode m e))

/-- The value of a binary32 word. -/
def ofF32 (w : Word) : Fv := fp32.decode w.toNat

def isNan32 (w : Word) : Bool := ofF32 w = .nan

/-- An integer as a value. -/
def ofInt (i : Int) : Fv := .fin (i < 0) i.natAbs 0

/-- The exact sum. -/
def Fv.add (a b : Fv) : Fv :=
  match a, b with
  | .nan, _ => .nan
  | _, .nan => .nan
  | .inf x, .inf y => if x = y then .inf x else .nan
  | .inf x, _ => .inf x
  | _, .inf y => .inf y
  | .fin n1 m1 e1, .fin n2 m2 e2 =>
    let e := min e1 e2
    let s := signed n1 m1 * 2 ^ (e1 - e).toNat + signed n2 m2 * 2 ^ (e2 - e).toNat
    .fin (if s = 0 then n1 && n2 else decide (s < 0)) s.natAbs e

/-- The exact product. -/
def Fv.mul (a b : Fv) : Fv :=
  match a, b with
  | .nan, _ => .nan
  | _, .nan => .nan
  | .inf x, .inf y => .inf (x ^^ y)
  | .inf x, .fin y m _ => if m = 0 then .nan else .inf (x ^^ y)
  | .fin x m _, .inf y => if m = 0 then .nan else .inf (x ^^ y)
  | .fin x m e, .fin y n f => .fin (x ^^ y) (m * n) (e + f)

/-- The negated value. -/
def Fv.neg (a : Fv) : Fv :=
  match a with
  | .nan => .nan
  | .inf x => .inf (!x)
  | .fin x m e => .fin (!x) m e

/-- a < b for values that are not NaN. -/
def Fv.lt (a b : Fv) : Bool :=
  match a, b with
  | .nan, _ => false
  | _, .nan => false
  | .inf x, .inf y => x && !y
  | .inf x, .fin .. => x
  | .fin .., .inf y => !y
  | .fin n1 m1 e1, .fin n2 m2 e2 =>
    let e := min e1 e2
    decide (signed n1 m1 * 2 ^ (e1 - e).toNat < signed n2 m2 * 2 ^ (e2 - e).toNat)

/-- The value is zero. -/
def Fv.isZero (a : Fv) : Bool :=
  match a with
  | .fin _ 0 _ => true
  | _ => false

/-- Round a finite value to an integer, halves to even. -/
def roundInt (neg : Bool) (m : Nat) (e : Int) : Int :=
  signed neg (if 0 ≤ e then m * 2 ^ e.toNat else rne m (-e).toNat)

/-- A binary32 word as INT32 (R199): halves to even, saturating, NaN to 0. -/
def f32ToInt (w : Word) : Word :=
  match ofF32 w with
  | .nan => 0
  | .inf neg => if neg then 0x80000000 else 0x7FFFFFFF
  | .fin n m e => BitVec.ofInt 32 (max (-2147483648) (min 2147483647 (roundInt n m e)))

/-- An INT32 word as binary32 (R179). -/
def intToF32 (w : Word) : Word := (ofInt w.toInt).toF32

/-! ### Formats (R167 to R170) -/

/-- Bits of an element by format code. -/
def fmtBits (f : Nat) : Nat :=
  match f with
  | 2 => 4 | 11 => 4 | 9 => 6 | 10 => 6 | 5 => 16 | 12 => 16 | 14 => 16 | 15 => 16 | 13 => 32 | 16 => 32 | _ => 8

/-- An integer format of the array. -/
def isInt (f : Nat) : Bool := f ≤ 2

/-- An MX format. -/
def isMx (f : Nat) : Bool := 6 ≤ f && f ≤ 11

/-- The floating-point element format of a code, when it has one. -/
def fpOf (f : Nat) : Option FpFmt :=
  match f with
  | 3 => some e4m3 | 4 => some e5m2 | 5 => some bf16 | 7 => some e4m3 | 8 => some e5m2 | 9 => some e2m3
  | 10 => some e3m2 | 11 => some e2m1 | 12 => some fp16 | 13 => some fp32 | _ => none

/-- The integer that an element of an integer format spells. -/
def intElem (f w : Nat) : Int :=
  match f with
  | 1 => (w % 256 : Nat)
  | 15 => (w % 65536 : Nat)
  | _ => signedOf (fmtBits f) w

/-- The value of an element, before its block scale (R167). -/
def elemVal (f w : Nat) : Fv :=
  match fpOf f with
  | some p => p.decode w
  | none => if f = 6 then .fin (signedOf 8 w < 0) (signedOf 8 w).natAbs (-6) else ofInt (intElem f w)

/-- A value times its E8M0 block scale (R169). -/
def scaleBy (v : Fv) (x : Byte) : Fv :=
  if x = 255 then .nan
  else match v with
    | .fin n m e => .fin n m (e + x.toNat - 127)
    | v => v

/-- Element e of packed bytes (R170). -/
def elemBits (bits : Nat) (row : List Byte) (e : Nat) : Nat :=
  let lo := e * bits / 8
  ofLe ((row.drop lo).take ((e * bits % 8 + bits + 7) / 8)) / 2 ^ (e * bits % 8) % 2 ^ bits

/-- Elements that a row of bytes holds. -/
def elemsIn (bits : Nat) (row : List Byte) : Nat := row.length * 8 / bits

/-! ### Flags of ENG_X_ARITH (R192) -/

def arNanIn : Nat := 1
def arNanOut : Nat := 2
def arInfOut : Nat := 4
def arFpSat : Nat := 8
def arIntSat : Nat := 16
def arInt32Sat : Nat := 32
def arMxNan : Nat := 64

/-- A flag when a condition holds. -/
def flagIf (c : Bool) (f : Nat) : Nat := if c then f else 0

/-! ### Stores (R176 to R178) -/

/-- Clamp, with int_sat when it clamps. -/
def clampFlag (lo hi v : Int) : Int × Nat := (clampI lo hi v, flagIf (decide (v < lo || hi < v)) arIntSat)
where clampI (lo hi v : Int) : Int := max lo (min hi v)

/-- Requantisation of an INT32 accumulator (R176). -/
def requant (acc beta mu : Word) (sigma : Nat) (zo lo hi : Int) : Int × Nat :=
  let s := acc.toInt + beta.toInt
  let t := max (-2147483648) (min 2147483647 s)
  let p := t * mu.toInt
  let r := if sigma = 0 then p else Int.fdiv (p + 2 ^ (sigma - 1)) (2 ^ sigma)
  let (y, fl) := clampFlag lo hi (r + zo)
  (y, fl ||| flagIf (decide (t ≠ s)) arInt32Sat)

/-- Quantisation of an FP32 value (R177): v × scale rounded to FP32, then to an integer; a NaN gives z_o. -/
def quantise (v scale : Word) (zo lo hi : Int) : Int × Nat :=
  match ofF32 ((ofF32 v).mul (ofF32 scale)).toF32 with
  | .nan => (zo, 0)
  | .inf neg => (if neg then lo else hi, arIntSat)
  | .fin n m e => clampFlag lo hi (roundInt n m e + zo)

/-- An FP32 value stored in a floating-point format (R177): encoding and flags. An infinity in E4M3 saturates (assumption
log 23). -/
def floatStore (f : Nat) (sat : Bool) (v : Word) : Nat × Nat :=
  if f = 13 then
    (v.toNat, flagIf (isNan32 v) arNanOut ||| flagIf (match ofF32 v with | .inf _ => true | _ => false) arInfOut)
  else match fpOf f with
    | none => (0, 0)
    | some p =>
      let top := v.getLsbD 31
      match ofF32 v with
      | .nan =>
        if f = 3 ∨ f = 4 then (0x7F + p.signBit top, arNanOut)
        else (p.infCode + 2 ^ (p.mb - 1), arNanOut)
      | .inf neg =>
        if f = 3 then (p.signBit neg + p.maxCode, arFpSat) else (p.signBit neg + p.infCode, arInfOut)
      | .fin neg m e =>
        let k := p.roundCode m e
        if k ≤ p.maxCode then (p.signBit neg + k, 0)
        else if f = 3 || sat then (p.signBit neg + p.maxCode, arFpSat)
        else (p.signBit neg + p.infCode, arInfOut)

/-- The exponent of an element format's largest power of two (R178). -/
def mxEmax (f : Nat) : Int := match f with | 7 => 8 | 8 => 15 | 9 => 2 | 10 => 4 | 11 => 2 | _ => 0

/-- floor(log2) of a finite value's magnitude; none for zero. -/
def Fv.log2 (v : Fv) : Option Int :=
  match v with
  | .fin _ m e => if m = 0 then none else some ((Nat.log2 m : Int) + e)
  | _ => none

/-- The scale byte of a block of FP32 values (R178). -/
def mxScale (f : Nat) (l : List Word) : Nat :=
  if l.any fun w => match ofF32 w with | .fin .. => false | _ => true then 255
  else match (l.filterMap fun w => (ofF32 w).log2) with
    | [] => 0
    | x :: t => (max 0 (min 254 (t.foldl max x - mxEmax f + 127))).toNat

/-- An element of an MX block with scale byte x (R178): encoding and flags. -/
def mxStore (f x : Nat) (v : Word) : Nat × Nat :=
  match ofF32 v with
  | .fin neg m e =>
    let e := e - ((x : Int) - 127)
    match fpOf f with
    | some p =>
      let k := p.roundCode m e
      if k ≤ p.maxCode then (p.signBit neg + k, 0) else (p.signBit neg + p.maxCode, arFpSat)
    | none =>
      let i := roundInt neg m (e + 6)
      (twos 8 (max (-128) (min 127 i)), flagIf (decide (i < -128 || 127 < i)) arFpSat)
  | _ => (Config.mxElem f v % 2 ^ fmtBits f, flagIf (isNan32 v) arNanOut)

/-! ### The row-wise function unit (R179 to R182) -/

/-- A NaN result: which NaN is open. -/
def rfuNan (x y z : Word) : Word := if isNan32 (Config.rfuNan x y z) then Config.rfuNan x y z else f32nan

/-- An exact value rounded, or a NaN. -/
def rfuRound (x y z : Word) (v : Fv) : Word :=
  match v with
  | .nan => rfuNan x y z
  | v => v.toF32

def fAdd (x y : Word) : Word := rfuRound x y 0 ((ofF32 x).add (ofF32 y))
def fSub (x y : Word) : Word := rfuRound x y 0 ((ofF32 x).add (ofF32 y).neg)
def fMul (x y : Word) : Word := rfuRound x y 0 ((ofF32 x).mul (ofF32 y))
def fFma (x y z : Word) : Word := rfuRound x y z (((ofF32 x).mul (ofF32 y)).add (ofF32 z))

/-- The smaller of two values; a NaN operand gives NaN. -/
def fMin (x y : Word) : Word :=
  if isNan32 x || isNan32 y then rfuNan x y 0
  else if (ofF32 x).lt (ofF32 y) then x
  else if (ofF32 y).lt (ofF32 x) then y
  else if x = y || Config.zeroPick x y then x else y

/-- The larger of two values; a NaN operand gives NaN. -/
def fMax (x y : Word) : Word :=
  if isNan32 x || isNan32 y then rfuNan x y 0
  else if (ofF32 x).lt (ofF32 y) then y
  else if (ofF32 y).lt (ofF32 x) then x
  else if x = y || Config.zeroPick x y then x else y

/-- x < 0. -/
def fNeg (x : Word) : Bool := (ofF32 x).lt (.fin false 0 0)

/-- n × 10^-3 < x. -/
def aboveMilli (x : Word) (n : Int) : Bool := (ofInt n).lt ((ofF32 x).mul (ofInt 1000))
def belowMilli (x : Word) (n : Int) : Bool := ((ofF32 x).mul (ofInt 1000)).lt (ofInt n)

def f32inf : Word := 0x7F800000
def f32one : Word := 0x3F800000

/-! The approximated functions: R179 bounds each result by n ulp of the exact value. `fixOne` is one in the fixed-point
arithmetic that encloses the exact value here; its error is far below an ulp (assumption log 63). -/

/-- Fraction bits, and one. -/
def fixBits : Nat := 250
def fixOne : Int := 2 ^ fixBits

/-- The finite value of a word in fixed point; an infinity stands as ±2^128, what an overflow rounds to. -/
def toFix (w : Word) : Int :=
  match ofF32 w with
  | .fin neg m e => signed neg m * 2 ^ (e + fixBits).toNat
  | .inf neg => if neg then -(2 ^ 128 * fixOne) else 2 ^ 128 * fixOne
  | .nan => 0

/-- ulp(y) of R179 in fixed point. -/
def ulpFix (y : Int) : Int := 2 ^ (max ((Nat.log2 y.natAbs : Int) - fixBits) (-126) - 23 + fixBits).toNat

/-- A function's result for the exact value y: the configured word when it lies within n ulp, else y rounded. -/
def within (fn n : Nat) (x : Word) (y : Int) : Word :=
  let c := Config.rfu fn x
  if !isNan32 c && (toFix c - y).natAbs ≤ (n * ulpFix y).natAbs + y.natAbs / 2 ^ 60 + 2 ^ 50 then c
  else (Fv.fin (decide (y < 0)) y.natAbs (-(fixBits : Int))).toF32

/-- The product of two fixed-point numbers. -/
def mulFix (a b : Int) : Int := Int.fdiv (a * b) fixOne

/-- 2 artanh z for 0 ≤ z ≤ 1/3. -/
def artanhFix (z : Int) : Int :=
  ((List.range 90).foldl (fun (s : Int × Int) i => (s.1 + Int.fdiv (2 * s.2) (2 * i + 1), mulFix s.2 (mulFix z z)))
    ((0, z) : Int × Int)).1

/-- ln 2. -/
def ln2Fix : Int := artanhFix (Int.fdiv fixOne 3)

/-- e^x. -/
def expFix (x : Int) : Int :=
  let k := Int.fdiv x ln2Fix
  let r := x - k * ln2Fix
  let s := ((List.range 70).foldl (fun (s : Int × Int) i => (s.1 + s.2, Int.fdiv (mulFix s.2 r) (i + 1)))
    ((0, fixOne) : Int × Int)).1
  if 0 ≤ k then s * 2 ^ k.toNat else Int.fdiv s (2 ^ (-k).toNat)

/-- ln (m × 2^e) for m > 0. -/
def logFix (m : Nat) (e : Int) : Int :=
  let l := Nat.log2 m
  let f := Int.fdiv (m * fixOne) (2 ^ l)
  artanhFix (Int.fdiv ((f - fixOne) * fixOne) (f + fixOne)) + (e + l) * ln2Fix

/-- 1 / (1 + e^−x); beyond ±140 it differs from its limit by less than the enclosure's error. -/
def sigmoidFix (x : Int) : Int :=
  Int.fdiv (fixOne * fixOne) (fixOne + expFix (-(max (-140 * fixOne) (min (140 * fixOne) x))))

/-- tanh x. -/
def tanhFix (x : Int) : Int :=
  let e := expFix (2 * x)
  Int.fdiv ((e - fixOne) * fixOne) (e + fixOne)

/-- 0.5x (1 + tanh u) = x / (1 + e^−2u) with u = 0.797 884 56 (x + 0.044 715 x³); below −16 it is zero to within the
enclosure's error. -/
def geluFix (x : Int) : Int :=
  let u := Int.fdiv (79788456 * (1000000 * x + 44715 * mulFix x (mulFix x x))) 100000000000000
  if x < -16 * fixOne then 0 else mulFix x (sigmoidFix (2 * u))

/-- RECIP. -/
def fRecip (x : Word) : Word :=
  if isNan32 x then rfuNan x 0 0
  else match ofF32 x with
    | .inf neg => if neg then 0x80000000 else 0
    | .fin neg 0 _ => if neg then 0xFF800000 else f32inf
    | .fin neg m e => within 9 1 x (signed neg (2 ^ ((fixBits : Int) - e).toNat / m))
    | .nan => rfuNan x 0 0

/-- RSQRT; for −0 and +infinity R179 states no value. -/
def fRsqrt (x : Word) : Word :=
  if isNan32 x || fNeg x then rfuNan x 0 0 else if x = 0 then f32inf
  else match ofF32 x with
    | .fin _ m e =>
      if m = 0 then Config.rfu 10 x else within 10 1 x (Nat.sqrt (2 ^ (2 * (fixBits : Int) - e).toNat / m) : Nat)
    | _ => Config.rfu 10 x

/-- EXP. -/
def fExp (x : Word) : Word :=
  if isNan32 x then rfuNan x 0 0
  else if aboveMilli x 88722 then f32inf else if belowMilli x (-103973) then 0 else within 11 2 x (expFix (toFix x))

/-- LOG; for −0 and +infinity R179 states no value. -/
def fLog (x : Word) : Word :=
  if isNan32 x || fNeg x then rfuNan x 0 0 else if x = 0 then 0xFF800000
  else match ofF32 x with
    | .fin _ m e => if m = 0 then Config.rfu 12 x else within 12 2 x (logFix m e)
    | _ => Config.rfu 12 x

/-- TANH. -/
def fTanh (x : Word) : Word :=
  if isNan32 x then rfuNan x 0 0
  else if !belowMilli x 9020 then f32one
  else if !aboveMilli x (-9020) then 0xBF800000
  else within 13 2 x (tanhFix (toFix x))

/-- SIGMOID; for an infinity R179 states no value. -/
def fSigmoid (x : Word) : Word :=
  match ofF32 x with
  | .nan => rfuNan x 0 0
  | .inf _ => Config.rfu 14 x
  | _ => within 14 2 x (sigmoidFix (toFix x))

/-- GELU; for an infinity R179 states no value. -/
def fGelu (x : Word) : Word :=
  match ofF32 x with
  | .nan => rfuNan x 0 0
  | .inf _ => Config.rfu 15 x
  | _ => within 15 4 x (geluFix (toFix x))

/-- floor of a finite value that is not negative. -/
def floorNat (m : Nat) (e : Int) : Nat := if 0 ≤ e then m * 2 ^ e.toNat else m / 2 ^ (-e).toNat

/-- TABLE (R182): the points, then x0 and q. -/
def fTable (t : List Word) (x : Word) : Word :=
  let y := fun i => (t[i]?).getD (Config.tablePoint i)
  if isNan32 x then rfuNan x 0 0
  else
    let u := fMul (fSub x (y 256)) (y 257)
    match ofF32 u with
    | .nan => rfuNan x 0 0
    | .inf neg => if neg then y 0 else y 255
    | .fin neg m e =>
      if neg || m = 0 then y 0
      else if !(ofF32 u).lt (ofInt 255) then y 255
      else
        let i := floorNat m e
        fFma (fSub u (ofInt i).toF32) (fSub (y (i + 1)) (y i)) (y i)

/-- An element function by its code (R179). -/
def rfuElem (fn : Nat) (tbl : List Word) (x y z : Word) : Word :=
  match fn with
  | 0 => x
  | 1 => fAdd x y
  | 2 => fSub x y
  | 3 => fMul x y
  | 4 => fFma x y z
  | 5 => fMin x y
  | 6 => fMax x y
  | 7 => fMin (fMax x y) z
  | 8 => if isNan32 x then rfuNan x 0 0 else if fNeg x || x = 0x80000000 then 0 else x
  | 9 => fRecip x
  | 10 => fRsqrt x
  | 11 => fExp x
  | 12 => fLog x
  | 13 => fTanh x
  | 14 => fSigmoid x
  | 15 => fGelu x
  | _ => fTable tbl x

/-- Add in pairs until three are left (R180). -/
def pairUp (l : List Word) : List Word :=
  match l with
  | a :: b :: t => fAdd a b :: pairUp t
  | l => l

/-- RSUM (R180). -/
def rowSum (l : List Word) : Word :=
  let lane := fun i => (((List.range ((l.length + 47) / 48)).filterMap fun j => l[48 * j + i]?).foldl
    (fun (a : Option Word) x => some (match a with | none => x | some s => fAdd s x)) none).getD 0
  let s := pairUp (pairUp (pairUp (pairUp ((List.range 48).map lane))))
  fAdd (fAdd ((s[0]?).getD 0) ((s[1]?).getD 0)) ((s[2]?).getD 0)

/-- RMAX (R179). -/
def rowMax (l : List Word) : Word :=
  match l with
  | [] => 0
  | x :: t => t.foldl fMax x

/-- NORMSTAT (R181): mean and reciprocal standard deviation. -/
def normStat (l : List Word) (eps : Word) : Word × Word :=
  let r := fRecip (ofInt l.length).toF32
  let mean := fMul (rowSum l) r
  let var := fMul (rowSum (l.map fun x => fMul (fSub x mean) (fSub x mean))) r
  (mean, fRsqrt (fAdd var eps))

/-- e and l of a softmax row (R184): a NaN in the row, or a maximum of +infinity, makes every value NaN. -/
def softExp (l : List Word) : List Word × Word :=
  let mx := rowMax l
  if l.any isNan32 || mx = f32inf then (l.map fun x => rfuNan x mx 0, rfuNan mx 0 0)
  else
    let e := l.map fun x => fExp (fSub x mx)
    (e, rowSum e)

/-- A standalone SOFTMAX (R184). -/
def softmaxRow (l : List Word) : List Word :=
  let (e, s) := softExp l
  let r := fRecip s
  e.map fun x => fMul x r

/-! ### Quotients and means (R131, R253) -/

/-- n / d rounded to FP32. -/
def ratio32 (n d : Nat) : Word :=
  (Fv.fin false (2 * (n * 2 ^ 60 / d) + if n * 2 ^ 60 % d = 0 then 0 else 1) (-61)).toF32

/-- x / y rounded to FP32, for a finite y that is not zero. -/
def fDiv (x y : Word) : Word :=
  match ofF32 x, ofF32 y with
  | .fin a m e, .fin b n f =>
    if n = 0 then rfuNan x y 0
    else (Fv.fin (a ^^ b) (2 * (m * 2 ^ 60 / n) + if m * 2 ^ 60 % n = 0 then 0 else 1) (e - f - 61)).toF32
  | _, _ => rfuNan x y 0

/-- The FP32 sum of values in some order of additions, each rounded: which two are added at each step is not stated
(Config.sumPick, assumption log 21). -/
def sumF (fuel : Nat) (l : List Word) : Word :=
  match fuel, l with
  | _, [] => 0
  | _, [a] => a
  | 0, a :: _ => a
  | fuel + 1, l =>
    let i := Config.sumPick (2 * l.length) % l.length
    let r := l.eraseIdx i
    let j := Config.sumPick (2 * l.length + 1) % r.length
    sumF fuel (r.eraseIdx j ++ [fAdd ((l[i]?).getD 0) ((r[j]?).getD 0)])

/-- The mean of n FP32 values: their sum divided by n. -/
def meanF (l : List Word) : Word :=
  match l with
  | [a] => a
  | [a, b] => fDiv (fAdd a b) (ratio32 2 1)
  | l => fDiv (sumF l.length l) (ratio32 l.length 1)

end Sys2Proof.Machine
end

