-- ==== Sys2Proof/Machine/Memory.lean ====
section
/-!
DEFINITION. The device address space: where an address lands (R22 to R25, R278 to R280, R316), reads and writes of SPM
and DRAM with the gather buffer, poisoned words and uncorrectable sectors (R290 to R294, R320, R321), and regions
(R281 to R284, R324).
-/
namespace Sys2Proof.Machine

/-! ### Where an address lands -/

/-- What a device address reaches (R22, R24, R25). -/
inductive Space
  | spm | dram | window (w : Fin 64) (off : Nat) | registers | unmapped
deriving DecidableEq, Repr

def spmSize : Nat := 0x20000000
def dramBase : Nat := 0x1000000000
def windowBase : Nat := 0x3000000000

/-- The end of usable DRAM: the top 1/32 holds check bits under inline ECC (R25). -/
def Module.dramEnd (m : Module) : Nat :=
  if m.bit DDR_STAT DDR_STAT_inline_ecc then 0x1F80000000 else 0x2000000000

/-- The space of an address (R22, R25). -/
def Module.spaceOf (m : Module) (a : Nat) : Space :=
  if a < spmSize then .spm
  else if dramBase ≤ a ∧ a < m.dramEnd then .dram
  else if 0x2000000000 ≤ a ∧ a < 0x2001000000 then .registers
  else if windowBase ≤ a ∧ a < 0x4000000000 then
    .window (BitVec.ofNat 6 ((a - windowBase) / 0x40000000)).toFin ((a - windowBase) % 0x40000000)
  else .unmapped

/-- XOR of the named bits of a number. -/
def xorBits (a : Nat) (l : List Nat) : Bool := l.foldl (fun x i => x ^^ a.testBit i) false

/-- The stack hash h of R279. -/
def stackHash (a : Nat) : Nat :=
  (xorBits a [6, 9, 12, 15, 18, 21, 24]).toNat + 2 * (xorBits a [7, 10, 13, 16, 19, 22, 25]).toNat
    + 4 * (xorBits a [8, 11, 14, 17, 20, 23]).toNat

/-- Granule g is SPREAD (R278). -/
def Module.spread (m : Module) (g : Nat) : Bool :=
  (m.rd (SPM_ZONE (g / 32))).getLsbD (g % 32)

/-- The physical stack of an SPM address (R279). -/
def Module.stackOf (m : Module) (a : Nat) : Nat :=
  if m.spread (bitsOf a 25 20) then bitsOf a 28 26 ^^^ stackHash a else bitsOf a 28 26

/-- Some line of [a, a + n) in SPM lies in a stack with a property. -/
def Module.anyStack (m : Module) (a n : Nat) (p : Nat → Bool) : Bool :=
  n ≠ 0 && a < spmSize && (List.range ((a + n - 1) / 64 - a / 64 + 1)).any fun i => p (m.stackOf ((a / 64 + i) * 64))

/-- An access reaches a stack that is off or in retention: it is not served (R527). -/
def Module.spmOff (m : Module) (a n : Nat) : Bool := m.anyStack a n fun s => !m.spmOn s

/-- An access reaches a stack that is being zero filled after it was switched on: it waits (R296, R527). -/
def Module.spmBusy (m : Module) (a n : Nat) : Bool :=
  m.anyStack a n fun s => m.spmOn s && m.fld (SPM_ST_STAT s) SPM_ST_STAT_state = 1

/-- The bank of a physical offset within its stack (R280). -/
def bankOf (o : Nat) : Nat :=
  (xorBits o [6, 12, 18, 24]).toNat + 2 * (xorBits o [7, 13, 19, 25]).toNat + 4 * (xorBits o [8, 14, 20]).toNat
    + 8 * (xorBits o [9, 15, 21]).toNat + 16 * (xorBits o [10, 16, 22]).toNat + 32 * (xorBits o [11, 17, 23]).toNat

/-- The row of a physical offset within its bank (R280). -/
def rowOf (o : Nat) : Nat := bitsOf o 25 12

/-- The channel of a DRAM address (R316). -/
def channelOf (a : Nat) : Nat :=
  let d := a - dramBase
  bitsOf d 11 8 ^^^ bitsOf d 15 12 ^^^ bitsOf d 19 16 ^^^ bitsOf d 23 20

/-- The offset within its channel of a DRAM address, and its bank (R316). -/
def channelOffset (a : Nat) : Nat := (bitsOf (a - dramBase) 35 12 <<< 8) ||| bitsOf (a - dramBase) 7 0
def dramBankOf (a : Nat) : Nat :=
  let q := channelOffset a
  bitsOf q 11 8 ^^^ bitsOf q 15 12 ^^^ bitsOf q 27 24

/-! ### The canonical form -/

/-- The canonical form of memory: addresses strictly rising, and no entry equal to what an unlisted address reads as. -/
def Memory.wf (l : List Host.Cell) : Bool := decide (l.Pairwise fun a b => a.1 < b.1) && l.all fun c => c.2 != 0

/-! ### Bytes -/

/-- The byte an open gather entry holds for an address. -/
def Module.gathered (m : Module) (a : Nat) : Option Byte :=
  match m.gather.find? (a / 64) with
  | none => none
  | some e => match e.bytes[a % 64]? with
    | some (some b) => some b
    | _ => none

/-- What a read of one byte returns: the bank with an open entry merged over it (R292). -/
def Module.byte (m : Module) (a : Nat) : Byte :=
  match m.gathered a with
  | some b => b
  | none => SMap.get 0 m.mem a

/-- `n` bytes from address `a`. -/
def Module.bytes (m : Module) (a n : Nat) : List Byte := (List.range n).map fun i => m.byte (a + i)

/-- A little-endian number in memory. -/
def Module.num (m : Module) (a n : Nat) : Nat := ofLe (m.bytes a n)

/-- Store one byte in its bank or DRAM. -/
def Module.putByte (m : Module) (a : Nat) (b : Byte) : Module := { m with mem := SMap.set 0 m.mem a b }

/-- Store bytes from address `a`. -/
def Module.putBytes (m : Module) (a : Nat) (l : List Byte) : Module :=
  match l with
  | [] => m
  | b :: t => (m.putByte a b).putBytes (a + 1) t

/-! ### Poisoned words and uncorrectable sectors (R294, R320, R321) -/

/-- The unit of a bad spot: 8-byte words in SPM, 64-byte sectors in DRAM. -/
def badUnit (a : Nat) : Nat := if a < spmSize then 8 else 64

/-- The first address of the word or sector that holds an address. -/
def spotOf (a : Nat) : Nat := a / badUnit a * badUnit a

/-- Bad spots (by their first address) that touch [a, a + n). -/
def Module.badIn (m : Module) (a n : Nat) : List Nat :=
  (m.poison.map (· * 8) ++ m.ueSectors.map (· * 64)).filter fun x => x < a + n && a < x + badUnit x && 0 < n

/-- A write over part of a bad spot is not applied: in SPM, and in DRAM under inline ECC (R294, R321). -/
def Module.merges (m : Module) (x : Nat) : Bool := x < spmSize || m.bit DDR_STAT DDR_STAT_inline_ecc

/-- Bad spots that [a, a + n) covers only in part and that a write therefore leaves unchanged. -/
def Module.badPartly (m : Module) (a n : Nat) : List Nat :=
  (m.badIn a n).filter fun x => m.merges x && !(a ≤ x && x + badUnit x ≤ a + n)

/-- The lowest of some addresses. -/
def lowest (l : List Nat) : Option Nat := l.foldl (fun o x => some (match o with | none => x | some y => min x y)) none

/-- Write-covered bad spots are clear again, and so are errors not met yet; SPM_ST_POISONED counts the poisoned words
(R294). -/
def Module.clearBad (m : Module) (a n : Nat) : Module :=
  let gone := m.poison.filter fun w => a ≤ w * 8 && w * 8 + 8 ≤ a + n
  let m := { m with
    poison := m.poison.filter fun w => !(a ≤ w * 8 && w * 8 + 8 ≤ a + n)
    ueSectors := m.ueSectors.filter fun x => !(a ≤ x * 64 && x * 64 + 64 ≤ a + n)
    latent := m.latent.filter fun e => !(a ≤ spotOf e.addr && spotOf e.addr + badUnit e.addr ≤ a + n) }
  gone.foldl (fun m w =>
    let s := m.stackOf (w * 8)
    m.setFld (SPM_ST_POISONED s) SPM_ST_POISONED_words (m.fld (SPM_ST_POISONED s) SPM_ST_POISONED_words - 1)) m

/-! ### Errors that reads meet (R293, R294, R318, R321) -/

/-- A corrected SPM word: counted, and an event at each multiple of the threshold (R293). -/
def Module.spmCorrected (m : Module) (a : Nat) : Module :=
  let s := m.stackOf a
  let m := (m.count (SPM_ST_CE s) 1).countFault 4
  let ce := (m.rd (SPM_ST_CE s)).toNat
  if ce % max 1 (m.fld SPM_ECC_CFG SPM_ECC_CFG_ce_threshold) = 0 then m.raise 0x0601 s ce 0 0 else m

/-- An uncorrectable SPM word found by the first read that meets it (R294). -/
def Module.spmPoison (m : Module) (source a : Nat) : Module :=
  let s := m.stackOf a
  let m := { m with poison := m.poison ++ [a / 8] }
  let m := (m.count (SPM_ST_UE s) 1).satAdd (SPM_ST_POISONED s) SPM_ST_POISONED_words 1
  let m := ((m.setFld (SPM_ST_UE_ADDR s) SPM_ST_UE_ADDR_source source).setFld (SPM_ST_UE_ADDR s) SPM_ST_UE_ADDR_addr
    (bitsOf a 28 3)).setFld (SPM_ST_UE_ADDR s) SPM_ST_UE_ADDR_valid 1
  m.fault 5 0x0602 (s + 8 * source) (a / 8 * 8) 0 0

/-- An uncorrectable DRAM read: counted, latched and reported at each read that meets it (R321). -/
def Module.dramMet (m : Module) (a : Nat) : Module :=
  let c := channelOf a
  let sec := a / 64 * 64
  let m := m.count (DDR_CH_UE c) 1
  let m := m.wr (DDR_CH_UE_ADDR_LO c) (BitVec.ofNat 32 sec)
  let m := (m.setFld (DDR_CH_UE_ADDR_HI c) DDR_CH_UE_ADDR_HI_addr (sec / 2 ^ 32)).setFld (DDR_CH_UE_ADDR_HI c)
    DDR_CH_UE_ADDR_HI_valid 1
  m.fault 7 0x0603 c sec (sec / 2 ^ 32) 0

/-- An error at a word that a read meets. A poisoned word or an uncorrectable sector is its own mark: nothing more is
found there (R294, R321). Without inline ECC an error in the array is not detected (R321; assumption log 81). -/
def Module.meetErr (m : Module) (source : Nat) (e : MemErr) : Module :=
  match m.spaceOf e.addr with
  | .spm =>
    if m.poison.contains (e.addr / 8) then m
    else if e.uncorrectable then m.spmPoison source e.addr else m.spmCorrected e.addr
  | .dram =>
    if m.ueSectors.contains (e.addr / 64) || !e.link && !m.bit DDR_STAT DDR_STAT_inline_ecc then m
    else if e.uncorrectable then { m with ueSectors := m.ueSectors ++ [e.addr / 64] }
    else (m.count (DDR_CH_CE (channelOf e.addr)) 1).countFault 6
  | _ => m

/-- A read of some spans reaches the word or sector of an error: the module checks every word it reads (R293). -/
def MemErr.touched (spans : List (Nat × Nat)) (e : MemErr) : Bool :=
  let x := spotOf e.addr
  spans.any fun s => x < s.1 + s.2 && s.1 < x + badUnit e.addr && 0 < s.2

/-- Errors appear in memory: in an SPM word, in the DRAM array, or on the DRAM link for the next access to a sector; the
operands of rows that read say which (assumption log 81). -/
def Module.upset (m : Module) (errs : List MemErr) : Module := { m with latent := m.latent ++ errs }

/-- The errors that a reader meets are corrected or reported; the others stay (R293, R294). -/
def Module.meetWhere (m : Module) (source : Nat) (hit : MemErr → Bool) : Module :=
  let m' := { m with latent := m.latent.filter (!hit ·) }
  (m.latent.filter hit).foldl (fun m e => m.meetErr source e) m'

/-- A read of some spans meets the errors in the words it reads. -/
def Module.meet (m : Module) (source : Nat) (spans : List (Nat × Nat)) : Module :=
  m.meetWhere source (MemErr.touched spans)

/-- The lines of SPM that hold a span: a narrow read reads them whole (R292). -/
def lineSpan (s : Nat × Nat) : Nat × Nat :=
  if s.1 < spmSize && s.2 ≠ 0 then (s.1 / 64 * 64, (s.1 + s.2 + 63) / 64 * 64 - s.1 / 64 * 64) else s

/-- A read by a control core, DMA or the network meets the errors in the words it reads (R292, R293). -/
def Module.meetLines (m : Module) (source : Nat) (spans : List (Nat × Nat)) : Module :=
  m.meet source (spans.map lineSpan)

/-- A write of [a, a + n) to DRAM meets the errors on the link that link ECC corrects (R318). -/
def Module.meetLink (m : Module) (a n : Nat) : Module :=
  m.meetWhere 1 fun e => e.link && !e.uncorrectable && dramBase ≤ e.addr && MemErr.touched [(a, n)] e

/-- The first and the last word or sector of [a, a + n) where the span covers them in part: a write reads them and
merges (R293); of DRAM only under inline ECC (R320). -/
def Module.edges (m : Module) (a n : Nat) : List (Nat × Nat) :=
  if n = 0 || spmSize ≤ a && !m.bit DDR_STAT DDR_STAT_inline_ecc then []
  else
    [spotOf a, spotOf (a + n - 1)].filterMap fun x =>
      if a ≤ x && x + badUnit a ≤ a + n then none else some (x, badUnit a)

/-- A direct write over [a, a + n) reads the words or sectors that it covers in part (R293, R320). -/
def Module.meetPartly (m : Module) (source a n : Nat) : Module := m.meet source (m.edges a n)

/-- Every uncorrectable sector in DRAM that a read of [a, a + n) meets is reported (R321). -/
def Module.reportBad (m : Module) (a n : Nat) : Module :=
  ((m.badIn a n).filter fun x => !(x < spmSize)).foldl Module.dramMet m

/-- Every uncorrectable sector in DRAM that the merge reads of a write of [a, a + n) meet is reported (R321). -/
def Module.reportPartly (m : Module) (a n : Nat) : Module :=
  ((m.badPartly a n).filter fun x => !(x < spmSize)).foldl Module.dramMet m

/-- Whether [a, a + n), whose errors a read has met, holds a bad word or sector, which is reported. -/
def Module.readBad (m : Module) (a n : Nat) : Bool × Module :=
  let bad := !(m.badIn a n).isEmpty
  (bad, if bad then m.reportBad a n else m)

/-- A read of [a, a + n) by a control core, DMA or the network: whether it meets a word or sector that is bad, and the state
with what it met reported. -/
def Module.readMeets (m : Module) (source a n : Nat) : Bool × Module := (m.meetLines source [(a, n)]).readBad a n

/-! ### Writes and the gather buffer (R290 to R294) -/

/-- The open entries of a stack. -/
def Module.gatherCount (m : Module) (s : Nat) : Nat :=
  (m.gather.filter fun e => m.stackOf (e.1 * 64) = s).length

/-- Report the open entries of a stack (R297). -/
def Module.reportGather (m : Module) (s : Nat) : Module :=
  m.setFld (SPM_ST_GATHER s) SPM_ST_GATHER_entries (m.gatherCount s)

/-- Store those of some optional bytes that are present and do not lie in a bad spot left standing. -/
def Module.putSome (m : Module) (a : Nat) (l : List (Option Byte)) (bad : List Nat) : Module :=
  match l with
  | [] => m
  | none :: t => m.putSome (a + 1) t bad
  | some b :: t =>
    if bad.any fun x => x ≤ a && a < x + badUnit x then m.putSome (a + 1) t bad
    else (m.putByte a b).putSome (a + 1) t bad

/-- Word w (0 to 7) of an entry is wholly written. -/
def wordFull (l : List (Option Byte)) (w : Nat) : Bool := ((l.drop (8 * w)).take 8).all Option.isSome

/-- Word w (0 to 7) of an entry is written in part. -/
def wordPart (l : List (Option Byte)) (w : Nat) : Bool := ((l.drop (8 * w)).take 8).any Option.isSome && !wordFull l w

/-- Write a gather entry out to its bank: words it fills in part are read and merged, and bytes for a poisoned word that
it does not fill are dropped (R291, R293, R294). -/
def Module.flushLine (m : Module) (line : Nat) : Module :=
  match m.gather.find? line with
  | none => m
  | some e =>
    let s := m.stackOf (line * 64)
    let m := { m with gather := m.gather.erase line }
    let m := (List.range 8).foldl
      (fun m w => if wordFull e.bytes w then m.clearBad (line * 64 + 8 * w) 8
        else if wordPart e.bytes w then m.meet 2 [(line * 64 + 8 * w, 8)] else m) m
    (m.putSome (line * 64) e.bytes (m.badIn (line * 64) 64)).reportGather s

/-- Write out the entries of the lines that [a, a + n) touches (R291, R292). -/
def Module.flushSpan (m : Module) (a n : Nat) : Module :=
  ((m.gather.map (·.1)).filter fun l => l * 64 < a + n && a < l * 64 + 64).foldl Module.flushLine m

/-- A direct write of bytes to SPM or DRAM: open entries of its lines go first (R292), words and sectors it covers are
clear again, and bad ones it covers in part are left unchanged; a sector's merge read is reported (R294, R321). -/
def Module.write (m : Module) (a : Nat) (l : List Byte) : Module :=
  let m := ((m.flushSpan a l.length).meetLink a l.length).meetPartly 1 a l.length
  let bad := m.badPartly a l.length
  let m := m.reportPartly a l.length
  (m.clearBad a l.length).putSome a (l.map some) bad

/-- Zeros over [a, a + n): the open gather entries there are first written to the banks; unlisted bytes read as zero (R284
steps 3 and 4, R291). -/
def Module.zero (m : Module) (a n : Nat) : Module :=
  let m := m.flushSpan a n
  { m with mem := m.mem.filter fun c => !(a ≤ c.1 && c.1 < a + n) }.clearBad a n

/-- What lies in physical stack s is zero (R279, R296). -/
def Module.zeroStack (m : Module) (s : Nat) : Module :=
  { m with mem := m.mem.filter fun c => spmSize ≤ c.1 || m.stackOf c.1 ≠ s }

/-! ### Narrow writes (R290, R291) -/

/-- Merge bytes over an entry from offset `o`. -/
def mergeBytes (e : List (Option Byte)) (o : Nat) (l : List Byte) : List (Option Byte) :=
  match l with
  | [] => e
  | b :: t => mergeBytes (setAt e o (some b)) (o + 1) t

/-- The least recently written entry of a stack. -/
def Module.oldestEntry (m : Module) (s : Nat) : Option Nat :=
  ((m.gather.filter fun e => m.stackOf (e.1 * 64) = s).foldl
    (fun (o : Option (Nat × Nat)) e => match o with
      | none => some (e.1, e.2.age)
      | some (l, g) => if e.2.age < g then some (e.1, e.2.age) else some (l, g)) none).map (·.1)

/-- Merge a narrow write within one line into the line's entry, evicting the least recently written entry of a full
buffer; a filled entry is written out (R291). -/
def Module.narrowLine (m : Module) (a : Nat) (l : List Byte) : Module :=
  let line := a / 64
  let s := m.stackOf a
  let m := if (m.gather.find? line).isNone && m.gatherCount s ≥ 64 then
      match m.oldestEntry s with
      | some o => m.flushLine o
      | none => m
    else m
  let old := match m.gather.find? line with
    | some e => e.bytes
    | none => List.replicate 64 none
  let e := mergeBytes old (a % 64) l
  let m := ({ m with gather := m.gather.insert line ⟨e, m.gatherAge⟩, gatherAge := m.gatherAge + 1 }).reportGather s
  if e.all Option.isSome then m.flushLine line else m

/-- A write to SPM by a control core, DMA or the network: whole aligned lines go to the banks directly, the rest through
the gather buffer (R290). -/
def Module.spmWriteGo (fuel : Nat) (m : Module) (a : Nat) (l : List Byte) : Module :=
  match fuel with
  | 0 => m
  | fuel + 1 =>
    if l.isEmpty then m
    else
      let n := 64 - a % 64
      if a % 64 = 0 ∧ 64 ≤ l.length then Module.spmWriteGo fuel (m.write a (l.take 64)) (a + 64) (l.drop 64)
      else Module.spmWriteGo fuel (m.narrowLine a (l.take n)) (a + n) (l.drop n)

/-- A write by a control core, DMA or the network to SPM or DRAM (R290, R320, R333). -/
def Module.store (m : Module) (a : Nat) (l : List Byte) : Module :=
  if a < spmSize then Module.spmWriteGo (l.length / 64 + 2) m a l else m.write a l

/-! ### Regions (R281, R282, R324) -/

/-- The number part of a handle: number and memory bit (R282); the reserved bit is ignored (R32). -/
def handleKey (h : Word) : Nat := h.toNat % 2 ^ 15

/-- The handle of a region. -/
def handleOf (key gen : Nat) : Nat := gen * 65536 + key

/-- The region that a current handle names (R282). -/
def Module.region? (m : Module) (h : Word) : Option Region :=
  match m.regions.find? (handleKey h) with
  | some r => if r.gen = h.toNat / 65536 ∧ r.phase ≠ .zeroing then some r else none
  | none => none

/-- A handle names a DRAM region (R282). -/
def isDramHandle (h : Word) : Bool := h.getLsbD 14

/-- Plan-reserved SPM is held under keys that no handle reaches: from `hiddenKey` on. -/
def hiddenKey : Nat := 65536

/-- What the plans of a mode change hold until the clocks switch lies this much above (R370). -/
def heldFrom : Nat := 4096

/-- Some allocated region holds the byte (R283); a region that is being zero filled is no longer allocated, and
plan-reserved SPM is no region. -/
def Module.inRegion1 (m : Module) (a : Nat) : Bool :=
  m.regions.any fun r => r.1 < hiddenKey && r.2.phase ≠ .zeroing && r.2.base ≤ a && a < r.2.base + r.2.size

/-- Allocated regions hold a span of at most 4 KiB: its first and its last byte. -/
def Module.inRegion (m : Module) (a n : Nat) : Bool := n = 0 || m.inRegion1 a && m.inRegion1 (a + n - 1)

/-- Advance a generation from 1 to 65 535, skipping 0 (R282, R395, R428, R430). -/
def nextGen (g : Nat) : Nat := if g ≥ 65535 then 1 else g + 1

/-- Sort addresses and sizes by address. -/
def insertSpan (l : List (Nat × Nat)) (s : Nat × Nat) : List (Nat × Nat) :=
  match l with
  | [] => [s]
  | x :: t => if s.1 ≤ x.1 then s :: x :: t else x :: insertSpan t s

/-- The gaps that sorted spans leave in [lo, hi). -/
def gapsOf (lo hi : Nat) (l : List (Nat × Nat)) : List (Nat × Nat) :=
  match l with
  | [] => if lo < hi then [(lo, hi - lo)] else []
  | (a, n) :: t =>
    if lo < a then (lo, min a hi - lo) :: gapsOf (max lo (a + n)) hi t else gapsOf (max lo (a + n)) hi t

/-- A granule holds a region in some stack (R278). -/
def Module.granuleUsed (m : Module) (g : Nat) : Bool :=
  m.regions.any fun r => r.2.base < spmSize && r.2.base % 2 ^ 26 < (g + 1) * 2 ^ 20 &&
    g * 2 ^ 20 < r.2.base % 2 ^ 26 + r.2.size

/-- Where a region of a kind can lie in a stack: free space in granules of the kind or that no region uses, whose kind
firmware may change (R278, R281). -/
def Module.spmGaps (m : Module) (s : Nat) (spread : Bool) : List (Nat × Nat) :=
  let base := s * 2 ^ 26
  let used := (m.regions.filter fun r => r.2.base / 2 ^ 26 = s && r.2.base < spmSize).map
    fun r => (r.2.base, r.2.size)
  let other := ((List.range 64).filter fun g => m.granuleUsed g && m.spread g != spread).map
    fun g => (base + g * 2 ^ 20, 2 ^ 20)
  gapsOf base (base + 2 ^ 26) ((used ++ other).foldl insertSpan [])

/-- The free space of DRAM (R324). -/
def Module.dramGaps (m : Module) : List (Nat × Nat) :=
  gapsOf dramBase m.dramEnd (((m.regions.filter fun r => !(r.2.base < spmSize)).map
    fun r => (r.2.base, r.2.size)).foldl insertSpan [])

/-- The largest gap, in bytes. -/
def largest (l : List (Nat × Nat)) : Nat := l.foldl (fun x g => max x g.2) 0

/-- A place for `n` bytes: a free choice among the gaps that hold them and the 4 KiB steps within (R281). -/
def Module.place (m : Module) (gaps : List (Nat × Nat)) (n : Nat) : Option Nat × Module :=
  let l := gaps.filter fun g => n ≤ g.2
  if l.isEmpty then (none, m)
  else
    let (i, m) := m.pick l.length
    let g := (l[i]?).getD (0, 0)
    let (j, m) := m.pick ((g.2 - n) / 4096 + 1)
    (some (g.1 + j * 4096), m)

/-- The free 4 KiB units of a stack (R297). -/
def Module.freeUnits (m : Module) (s : Nat) : Nat :=
  16384 - ((m.regions.filter fun r => r.1 < heldFrom + hiddenKey && r.2.base / 2 ^ 26 = s && r.2.base < spmSize).foldl
    (fun x r => x + r.2.size / 4096) 0)

/-- Report free space and region counts (R297). -/
def Module.reportRegions (m : Module) : Module :=
  let m := (List.range 8).foldl
    (fun m s => m.setFld (SPM_ST_STAT s) SPM_ST_STAT_free_4k (m.freeUnits s)) m
  m.setFld SPM_REGIONS SPM_REGIONS_count (m.regions.filter fun r => r.1 < hiddenKey && r.2.base < spmSize).length

/-- Give the granules of a span a kind (R278). -/
def Module.zoneSpan (m : Module) (base size : Nat) (spread : Bool) : Module :=
  let lo := base % 2 ^ 26 / 2 ^ 20
  let hi := (base % 2 ^ 26 + size - 1) / 2 ^ 20
  (List.range (hi - lo + 1)).foldl (fun m i =>
    let g := lo + i
    m.setFld (SPM_ZONE (g / 32)) ⟨g % 32, g % 32⟩ spread.toNat) m

/-- A free key at or after a freely chosen start, cyclically from `lo` to `lo + n - 1`. -/
def Module.freeFrom {α : Type} (m : Module) (t : SMap α) (lo n : Nat) : Option Nat × Module :=
  let (s, m) := m.pick n
  match t.freeKey (lo + s) (lo + n) with
  | some k => (some k, m)
  | none => (t.freeKey lo (lo + s), m)

/-- Enter a new zeroed region (R281): its handle, or none when every number is taken. -/
def Module.enterRegion (m : Module) (dram : Bool) (base size : Nat) (spread : Bool) : Option Nat × Module :=
  let lo := if dram then 0x4001 else 1
  match m.freeFrom m.regions lo 16383 with
  | (none, m) => (none, m)
  | (some k, m) =>
    let gen := SMap.get 1 m.regionGen k
    let m := if dram then m else m.zoneSpan base size spread
    let m := { m.zero base size with regions := m.regions.insert k ⟨gen, base, size, spread, .live, none⟩ }
    (some (handleOf k gen), m.reportRegions)

/-- Every byte of [a, a + n) lies in the region (R282). -/
def Region.holds (r : Region) (off n : Nat) : Bool := off + n ≤ r.size

end Sys2Proof.Machine
end

