-- ==== Sys2Proof/Machine/Pixels.lean ====
section
/-!
DEFINITION. What a front-end lane computes (03_contexts_front_end R70, R71, R74, R83 to R95): the corrections from the
raw lines of a frame and one parameter set, and the statistics of the corrected pixels.
-/
namespace Sys2Proof.Machine

/-- floor(a / b) for integers, b > 0. -/
def fdiv (a : Int) (b : Nat) : Int := Int.fdiv a b

/-- The mean of k values with sum s, halves upwards (R83). -/
def roundMean (s : Int) (k : Nat) : Int := fdiv (2 * s + k) (2 * k)

/-- A value kept within bounds. -/
def clampI (lo hi v : Int) : Int := max lo (min hi v)

/-- A field of a register as a parameter set holds it (R77). -/
def ParamSet.fld (s : ParamSet) (off : Nat) (b : Bits) : Nat := b.of (SMap.get (regReset off) s.regs off)

/-- What a lane works on: the context, the geometry, the crop, the data width and mosaic, the parameter set of the tag
(R72), and the frame's raw lines. -/
structure LaneIn where
  c : Nat
  w : Nat
  h : Nat
  x0 : Nat
  y0 : Nat
  cw : Nat
  ch : Nat
  bits : Nat
  mosaic : Nat
  set : ParamSet
  raw : List (List Nat)

/-- The coordinate mirror of R74. -/
def mirror (n : Nat) (i : Int) : Nat :=
  if i < 0 then (-i).toNat else if (n : Int) ≤ i then (2 * ((n : Int) - 1) - i).toNat else i.toNat

/-- The data width of CAP_PORT_CFG.width (R65). -/
def dataBits (code : Nat) : Nat := 8 + 2 * code

/-! ### Mosaic (R65, R83) -/

/-- A colour site: 0 R, 1 G, 2 B, 3 IR. -/
def bayerSite (mosaic x y : Nat) : Nat :=
  let k := match mosaic with | 0 => 0 | 1 => 1 | 2 => 2 | _ => 3
  let i := (x + k) % 2
  let j := (y + k / 2) % 2
  if i = 0 ∧ j = 0 then 0 else if i = 1 ∧ j = 1 then 2 else 1

/-- The RGB-IR 4 × 4 pattern (R83). -/
def rgbirSite (x y : Nat) : Nat :=
  match y % 4, x % 4 with
  | 0, 0 => 2
  | 0, 2 => 0
  | 2, 0 => 0
  | 2, 2 => 2
  | 0, _ => 1
  | 2, _ => 1
  | _, 0 => 1
  | _, 2 => 1
  | _, _ => 3

/-- The site at a coordinate. -/
def LaneIn.site (l : LaneIn) (x y : Nat) : Nat := if l.mosaic = 4 then rgbirSite x y else bayerSite l.mosaic x y

/-- The channel at a coordinate (R83): R, Gr, Gb, B; or R, G, B, IR; or 0. -/
def LaneIn.chan (l : LaneIn) (x y : Nat) : Nat :=
  if l.mosaic = 5 then 0
  else if l.mosaic = 4 then rgbirSite x y
  else match bayerSite l.mosaic x y with
    | 0 => 0
    | 2 => 3
    | _ =>
      -- the green of a row that holds R is Gr
      if bayerSite l.mosaic (x + 1) y = 0 then 1 else 2

/-! ### Black level (R71, R84) -/

/-- The left-aligned value of a raw pixel (R71). -/
def LaneIn.val (l : LaneIn) (x y : Nat) : Nat := ((l.raw[y]?.getD [])[x]?.getD 0) * 2 ^ (16 - l.bits)

/-- The black-level correction of R84. -/
def blackLevel (v bl : Nat) : Nat :=
  let d := v - bl
  if d = 0 then 0 else min 65535 ((d * (16384 * 65535 / (65535 - bl)) + 8192) / 16384)

/-- A pixel behind the black level; coordinates beyond the frame are mirrored. -/
def LaneIn.bl (l : LaneIn) (x y : Int) : Nat :=
  let x := mirror l.w x
  let y := mirror l.h y
  blackLevel (l.val x y) ((l.set.bl[l.chan x y]?).getD 0)

/-! ### Defective pixels (R87 to R89) -/

/-- The offsets of the same-channel neighbours (R88): the two with y offset 0, then the two with x offset 0; for R and
B of RGB-IR the four diagonals. -/
def LaneIn.near (l : LaneIn) (x y : Nat) : List (Int × Int) :=
  if l.mosaic = 5 then [(-1, 0), (1, 0), (0, -1), (0, 1)]
  else if l.mosaic = 4 ∧ (l.site x y = 0 ∨ l.site x y = 2) then [(-2, -2), (2, -2), (-2, 2), (2, 2)]
  else [(-2, 0), (2, 0), (0, -2), (0, 2)]

/-- Sort numbers. -/
def insertNat (l : List Nat) (v : Nat) : List Nat :=
  match l with
  | [] => [v]
  | x :: t => if v ≤ x then v :: x :: t else x :: insertNat t v
def sortNat (l : List Nat) : List Nat := l.foldl insertNat []

/-- round_mean of the two middle values of four (R88). -/
def medianOf (l : List Nat) : Nat :=
  let s := sortNat l
  (roundMean ((s[1]?.getD 0 : Nat) + (s[2]?.getD 0 : Nat)) 2).toNat

/-- The entries of the static map in use (R87). With static_en clear no pixel counts as in the map, so the dynamic test of
R89 takes those pixels too (DESIGN CHOICE, assumption log 75). -/
def ParamSet.map (s : ParamSet) (c : Nat) : List Word :=
  if s.fld (FE_DPC_CFG c) FE_DPC_CFG_static_en = 1 then
    (List.range (min 4096 (s.fld (FE_DPC_CFG c) FE_DPC_CFG_static_count))).map fun i => SMap.get 0 s.dpc i
  else []

/-- Position and method of a map entry (R87). -/
def mapY (e : Word) : Nat := e.toNat / 2 ^ 19
def mapX (e : Word) : Nat := e.toNat / 2 ^ 6 % 2 ^ 13
def mapMethod (e : Word) : Nat := e.toNat / 2 ^ 4 % 4

/-- The method of a pixel in the static map. -/
def LaneIn.defect (l : LaneIn) (x y : Nat) : Option Nat :=
  ((l.set.map l.c).find? fun e => mapX e = x ∧ mapY e = y).map mapMethod

/-- A replacement from four neighbour values by method (R88). -/
def replaceBy (diag : Bool) (method : Nat) (v : List Nat) : Nat :=
  if method = 1 && !diag then (roundMean ((v[0]?.getD 0 : Nat) + (v[1]?.getD 0 : Nat)) 2).toNat
  else if method = 2 && !diag then (roundMean ((v[2]?.getD 0 : Nat) + (v[3]?.getD 0 : Nat)) 2).toNat
  else medianOf v

/-- A pixel behind static correction: its neighbours are taken behind the black level (R88; assumption log 16). -/
def LaneIn.st (l : LaneIn) (xi yi : Int) : Nat :=
  let x := mirror l.w xi
  let y := mirror l.h yi
  match l.defect x y with
  | none => l.bl x y
  | some k => replaceBy (l.mosaic = 4 && (l.site x y = 0 || l.site x y = 2)) k
      ((l.near x y).map fun o => l.bl ((x : Int) + o.1) ((y : Int) + o.2))

/-- The dynamic test replaces this pixel (R89). -/
def LaneIn.dynHit (l : LaneIn) (x y : Nat) : Bool :=
  if l.set.fld (FE_DPC_CFG l.c) FE_DPC_CFG_dyn_en = 0 || (l.defect x y).isSome then false
  else
    let v := (l.near x y).map fun o => l.st ((x : Int) + o.1) ((y : Int) + o.2)
    let hi := v.foldl max 0
    let lo := v.foldl min 65535
    let th := l.set.fld (FE_DPC_DYN l.c) FE_DPC_DYN_abs + hi * l.set.fld (FE_DPC_CFG l.c) FE_DPC_CFG_dyn_rel / 256
    let p := l.st x y
    hi + th < p || p + th < lo

/-- A pixel behind both defect corrections (R88, R89). -/
def LaneIn.dpc (l : LaneIn) (xi yi : Int) : Nat :=
  let x := mirror l.w xi
  let y := mirror l.h yi
  if l.dynHit x y then medianOf ((l.near x y).map fun o => l.st ((x : Int) + o.1) ((y : Int) + o.2)) else l.st x y

/-! ### Lens shading (R90) -/

/-- Gain point (i, j) of a channel's grid: words hold two points, row by row (R90, R107). -/
def ParamSet.grid (s : ParamSet) (ch i j : Nat) : Nat :=
  let p := 33 * j + i
  let w := (SMap.get 0 s.lsc (512 * ch + p / 2)).toNat
  if p % 2 = 0 then w % 65536 else w / 65536

/-- The interpolated gain at (x, y) of the crop (R90). -/
def lscGain (g : Nat → Nat → Nat) (cw ch x y : Nat) : Nat :=
  let px := x * (32 * 1048576 / (cw - 1))
  let py := y * (24 * 1048576 / (ch - 1))
  let (i, a) := if 32 ≤ px / 2 ^ 20 then (31, 4096) else (px / 2 ^ 20, px / 256 % 4096)
  let (j, b) := if 24 ≤ py / 2 ^ 20 then (23, 4096) else (py / 2 ^ 20, py / 256 % 4096)
  let top := g i j * (4096 - a) + g (i + 1) j * a
  let bot := g i (j + 1) * (4096 - a) + g (i + 1) (j + 1) * a
  (top * (4096 - b) + bot * b + 8388608) / 2 ^ 24

/-- A pixel behind lens shading (R90): pixels outside the crop are not shaded. -/
def LaneIn.lsc (l : LaneIn) (xi yi : Int) : Nat :=
  let x := mirror l.w xi
  let y := mirror l.h yi
  let v := l.dpc x y
  if l.set.fld (FE_DM_CFG l.c) FE_DM_CFG_lsc_en = 1 && l.x0 ≤ x && x < l.x0 + l.cw && l.y0 ≤ y && y < l.y0 + l.ch then
    min 65535 ((v * lscGain (l.set.grid (l.chan x y)) l.cw l.ch (x - l.x0) (y - l.y0) + 2048) / 4096)
  else v

/-! ### Demosaic (R91, R92) -/

/-- The site at a coordinate that may lie beyond the frame: the mirror keeps the phase (R74). -/
def LaneIn.siteI (l : LaneIn) (x y : Int) : Nat := l.site (mirror l.w x) (mirror l.h y)

/-- The directional green estimate (R91). -/
def LaneIn.gTilde (l : LaneIn) (x y : Int) : Int :=
  let v := fun (dx dy : Int) => (l.lsc (x + dx) (y + dy) : Int)
  if l.siteI x y = 1 then v 0 0
  else
    let c0 := v 0 0
    let lapH := if l.mosaic = 4 then 0 else 2 * c0 - v (-2) 0 - v 2 0
    let lapV := if l.mosaic = 4 then 0 else 2 * c0 - v 0 (-2) - v 0 2
    let gl := v (-1) 0
    let gr := v 1 0
    let gu := v 0 (-1)
    let gd := v 0 1
    let dh : Int := (gl - gr).natAbs + lapH.natAbs
    let dv : Int := (gu - gd).natAbs + lapV.natAbs
    let eh := 2 * (gl + gr) + lapH
    let ev := 2 * (gu + gd) + lapV
    let t : Int := l.set.fld (FE_DM_CFG l.c) FE_DM_CFG_thresh
    let g := if dh + t < dv then fdiv (eh + 2) 4 else if dv + t < dh then fdiv (ev + 2) 4 else fdiv (eh + ev + 4) 8
    clampI 0 65535 g

/-- The bilinear green estimate (R91). -/
def LaneIn.gHat (l : LaneIn) (x y : Int) : Int :=
  if l.siteI x y = 1 then l.lsc x y
  else roundMean ((l.lsc (x - 1) y : Int) + l.lsc (x + 1) y + l.lsc x (y - 1) + l.lsc x (y + 1)) 4

/-- Offsets within the 7 × 7 window of RGB-IR (R93) by rising Euclidean distance: a site that the mirror of the last column
or line leaves without a nearer one of a colour finds it at squared distance 5 or 10 (R92). -/
def rings : List (List (Int × Int)) :=
  let o := (List.range 7).flatMap fun (j : Nat) => (List.range 7).map fun (i : Nat) => ((i : Int) - 3, (j : Int) - 3)
  [1, 2, 4, 5, 8, 9, 10, 13, 18].map fun d => o.filter fun p => p.1 * p.1 + p.2 * p.2 = d

/-- The sites of kind k nearest to p (R92); a site that two offsets reach through the mirror counts for both (DEDUCED from
R92's table of counts, assumption log 75). -/
def LaneIn.nearest (l : LaneIn) (k : Nat) (x y : Int) : List (Int × Int) :=
  ((rings.map fun r => (r.map fun o => (x + o.1, y + o.2)).filter fun q => l.siteI q.1 q.2 = k).find?
    (!·.isEmpty)).getD []

/-- R or B at a pixel (R92). -/
def LaneIn.colour (l : LaneIn) (k : Nat) (x y : Int) : Int :=
  if l.siteI x y = k then l.lsc x y
  else
    let q := l.nearest k x y
    clampI 0 65535 (l.gTilde x y + roundMean ((q.map fun p => (l.lsc p.1 p.2 : Int) - l.gHat p.1 p.2).sum) q.length)

/-- IR at a pixel of RGB-IR (R92). -/
def LaneIn.infra (l : LaneIn) (x y : Int) : Int :=
  if l.siteI x y = 3 then l.lsc x y
  else
    let q := l.nearest 3 x y
    roundMean ((q.map fun p => (l.lsc p.1 p.2 : Int)).sum) q.length

/-- The infrared subtraction (R92). -/
def irSub (v ir k : Nat) : Nat := v - ir * k / 256

/-- The demosaiced pixel at a frame coordinate (R91, R92); monochrome has Y for R, G and B. -/
def LaneIn.pix (l : LaneIn) (x y : Nat) : Pix :=
  if l.mosaic = 5 then ⟨l.lsc x y, l.lsc x y, l.lsc x y, 0⟩
  else
    let r := (l.colour 0 x y).toNat
    let g := (l.gTilde x y).toNat
    let b := (l.colour 2 x y).toNat
    let ir := if l.mosaic = 4 then (l.infra x y).toNat else 0
    if l.mosaic = 4 && l.set.fld (FE_DM_CFG l.c) FE_DM_CFG_ir_sub = 1 then
      let k := l.set.fld (FE_IR_SUB l.c)
      ⟨irSub r ir (k FE_IR_SUB_kr), irSub g ir (k FE_IR_SUB_kg), irSub b ir (k FE_IR_SUB_kb), ir⟩
    else ⟨r, g, b, ir⟩

/-- A crop line behind the demosaic. -/
def LaneIn.cropLine (l : LaneIn) (y : Nat) : List Pix := (List.range l.cw).map fun x => l.pix (l.x0 + x) (l.y0 + y)

/-! ### White balance (R94) -/

/-- A gain with 12 fractional bits. -/
def balance (x g : Nat) : Nat := min 65535 ((x * g + 2048) / 4096)

/-- The white-balanced pixel; IR and Y are not balanced. -/
def whiteBalance (mono : Bool) (wb : List Nat) (p : Pix) : Pix :=
  if mono then p
  else ⟨balance p.r ((wb[0]?).getD 0), balance p.g ((wb[1]?).getD 0), balance p.b ((wb[2]?).getD 0), p.ir⟩

/-! ### Optical black and statistics (R85, R95) -/

/-- The optical-black mean of a channel over the pixels of the frame inside the window, before any correction; 0 without a
pixel (R85). -/
def LaneIn.obMean (l : LaneIn) (ch : Nat) : Nat :=
  let f := l.set.fld
  let x := f (FE_OB_XY l.c) FE_OB_XY_x
  let y := f (FE_OB_XY l.c) FE_OB_XY_y
  let px := ((List.range (f (FE_OB_WH l.c) FE_OB_WH_h)).flatMap fun j => (List.range (f (FE_OB_WH l.c) FE_OB_WH_w)).map
    fun i => (x + i, y + j)).filter fun p => l.chan p.1 p.2 = ch && p.1 < l.w && p.2 < l.h
  if px.isEmpty then 0 else (roundMean ((px.map fun p => (l.val p.1 p.2 : Int)).sum) px.length).toNat

/-- The four optical-black means. -/
def LaneIn.ob (l : LaneIn) : List Nat := (List.range 4).map l.obMean

/-- Static corrections of a frame: map entries inside the geometry (R89). -/
def LaneIn.staticCount (l : LaneIn) : Nat := ((l.set.map l.c).filter fun e => mapX e < l.w && mapY e < l.h).length

/-- Dynamic corrections of a frame (R89). -/
def LaneIn.dynCount (l : LaneIn) : Nat :=
  ((List.range l.h).map fun y => ((List.range l.w).filter fun x => l.dynHit x y).length).sum

/-- A pixel of emitted crop lines. -/
def outAt (out : List (List Pix)) (x y : Nat) : Pix := ((out[y]?.getD [])[x]?).getD ⟨0, 0, 0, 0⟩

/-- A 256-bin histogram. -/
def histogram (l : List Nat) : List Byte := (List.range 256).flatMap fun b => leBytes 4 (l.filter (· / 256 = b)).length

/-- The pixels of zone (k, j) of a crop (R95). -/
def zonePixels (cw ch k j : Nat) : List (Nat × Nat) :=
  let xs := (List.range cw).filter fun x => k * cw / 16 ≤ x && x < (k + 1) * cw / 16
  let ys := (List.range ch).filter fun y => j * ch / 12 ≤ y && y < (j + 1) * ch / 12
  ys.flatMap fun y => xs.map fun x => (x, y)

/-- The sums of one zone (R95): r, g, b, sharpness, saturated pixels. -/
structure Zone where
  r : Nat
  g : Nat
  b : Nat
  sharp : Nat
  sat : Nat

/-- The statistics of a zone. -/
def zoneOf (out : List (List Pix)) (cw ch k j : Nat) : Zone :=
  let px := zonePixels cw ch k j
  let at_ := fun (p : Nat × Nat) => outAt out p.1 p.2
  let sharp := fun (p : Nat × Nat) =>
    let g := fun (x : Int) => ((outAt out (mirror cw x) p.2).g : Int)
    (2 * g p.1 - g ((p.1 : Int) - 1) - g ((p.1 : Int) + 1)).natAbs / 64
  ⟨(px.map fun p => (at_ p).r / 64).sum, (px.map fun p => (at_ p).g / 64).sum, (px.map fun p => (at_ p).b / 64).sum,
    (px.map sharp).sum, (px.filter fun p => 
      0xFF00 ≤ (at_ p).r || 0xFF00 ≤ (at_ p).g || 0xFF00 ≤ (at_ p).b || 0xFF00 ≤ (at_ p).ir).length⟩

/-- The 192 zones, row by row. -/
def zonesOf (out : List (List Pix)) (cw ch : Nat) : List Zone :=
  (List.range 12).flatMap fun j => (List.range 16).map fun k => zoneOf out cw ch k j

/-- A zone's 24 bytes (R95). -/
def zoneBytes (z : Zone) : List Byte :=
  leBytes 4 z.r ++ leBytes 4 z.g ++ leBytes 4 z.b ++ leBytes 4 z.sharp ++ leBytes 4 z.sat ++ leBytes 4 0

/-- A stamp as seconds, reserved bytes and nanoseconds (R95); absent stamps are zero. -/
def stampBytes (s : Option Stamp) : List Byte :=
  match s with
  | none => leBytes 12 0
  | some s => leBytes 6 s.sec ++ leBytes 2 0 ++ leBytes 4 s.ns.toNat

/-- The statistics record (R95). -/
def statBytes (l : LaneIn) (f : LaneFrame) (e : Meas) (esid flags : Nat) (v : ExpVals) : List Byte :=
  let zs := zonesOf f.out l.cw l.ch
  let ob := l.ob
  let wb := f.set.wb
  let flat := f.out.flatMap id
  let stb0 := e.frame.strobes[0]?
  let stb1 := e.frame.strobes[1]?
  let isValid := fun (s : Option Stamp) => match s with | some s => s.valid.toNat | none => 0
  let trim := if f.set.fld (FE_BL_CFG l.c) FE_BL_CFG_mode = 2 then v.trim else 0
  leBytes 4 f.seq.toNat ++ leBytes 2 esid ++ leBytes 2 flags ++ leBytes 4 f.set.psid.toNat ++ leBytes 2 16 ++ leBytes 2 12
    ++ ob.flatMap (leBytes 2) ++ ((List.range 3).flatMap fun i => leBytes 2 ((wb[i]?).getD 0)) ++ leBytes 2 0
    ++ leBytes 4 l.staticCount ++ leBytes 4 l.dynCount ++ leBytes 2 v.lines ++ leBytes 2 v.again ++ leBytes 2 v.dgain
    ++ leBytes 2 trim ++ leBytes 16 0 ++ histogram (flat.map (·.g)) ++ histogram (flat.map fun p => max p.r (max p.g p.b))
    ++ zs.flatMap zoneBytes ++ stampBytes (some e.frame.sof) ++ stampBytes (some e.eof) ++ stampBytes stb0
    ++ stampBytes stb1
    ++ leBytes 1 (e.frame.sof.valid.toNat + 2 * e.eof.valid.toNat + 4 * isValid stb0 + 8 * isValid stb1
        + 16 * stb0.isSome.toNat + 32 * stb1.isSome.toNat) ++ leBytes 1423 0

end Sys2Proof.Machine
end

