-- ==== Sys2Proof/Machine/Sensor.lean ====
section
/-!
DEFINITION. The sensor control bus of a camera port (02_camera_ports R60 to R64): the queue, released batches, and the
transactions on the bus.
-/
namespace Sys2Proof.Machine

/-! ### Ports and contexts as stored -/

/-- A port at rest. -/
def Port.rest : Port := ⟨false, false, 0, none, 0, none, [], [], none, none, none, none, none, none, false⟩

/-- A camera port. -/
def Module.port (m : Module) (p : Nat) : Port := SMap.get Port.rest m.ports p

/-- Store a port. -/
def Module.setPort (m : Module) (p : Nat) (x : Port) : Module := { m with ports := SMap.set Port.rest m.ports p x }

/-- The state of a port (R44): 0 DISABLED, 1 RESETTING, 2 READY, 3 TRAINING, 4 ACTIVE. -/
def Module.portState (m : Module) (p : Nat) : Nat := m.fld (CAP_PORT_STATE p) CAP_PORT_STATE_state

/-- Store the state of a port. -/
def Module.setPortState (m : Module) (p st : Nat) : Module := m.setFld (CAP_PORT_STATE p) CAP_PORT_STATE_state st

/-- The frame that started last, 0xFFFF_FFFF before the first (R62, R76). -/
def Module.startedSeq (m : Module) (p : Nat) : Word := (m.seqLast.find? p).getD 0xFFFFFFFF

/-- A parameter set in which every register reads its reset value. -/
def ParamSet.rest : ParamSet := ⟨0, [], [], [], [], [0, 0, 0, 0], [4096, 4096, 4096]⟩

/-- Exposure values before any are stored (assumption log 4). -/
def ExpVals.zero : ExpVals := ⟨0, 0, 0, 0⟩

/-- A context at rest. -/
def Ctx.rest : Ctx :=
  { dpc := [], lsc := [], tone := [], current := ParamSet.rest, banks := (ParamSet.rest, ParamSet.rest), pending := none,
    psid := 0, expWait := [], expNow := ExpVals.zero, esid := 0, issued := [], expBase := (0, ExpVals.zero),
    first := false, aeNext := none, trimNext := none, est := [0, 0, 0, 0], trim := 0, trimDue := none, rejects := 0,
    loopWb := [4096, 4096, 4096], start := ExpVals.zero, startWb := [4096, 4096, 4096], endedSeq := none, frames := [],
    lastRec := none, index := 0, histReset := false, lastGood := true, blocks := [], started := [], ended := [],
    rowsReused := [], hdrWarm := [], hdrHeld := [], jAt := [] }

/-- A context. -/
def Module.ctx (m : Module) (c : Nat) : Ctx := SMap.get Ctx.rest m.ctxs c

/-- Store a context. -/
def Module.setCtx (m : Module) (c : Nat) (x : Ctx) : Module := { m with ctxs := SMap.set Ctx.rest m.ctxs c x }

/-- What the frames carry when no set is in effect for frame k itself: the last set issued for a frame before it that was
not discarded, or the base (R99, R100). -/
def carryOf (ne : Nat) (k : Word) (base : Nat × ExpVals) (l : List ExpIssue) : Nat × ExpVals :=
  l.foldl (fun b i =>
    if !i.failed && (k - (i.frame + BitVec.ofNat 32 ne)).toNat < 2 ^ 31 then (i.esid, i.vals) else b) base

/-- The esid, the values and the EXP_LATE and EXP_FAILED flags that frame k carries (R99, R100). A batch that was late and
was then discarded makes the frame EXP_FAILED alone (DESIGN CHOICE, assumption log 75). -/
def Module.carried (m : Module) (c : Nat) (k : Word) : Nat × ExpVals × Bool × Bool :=
  let x := m.ctx c
  let ne := m.fld (FE_EXP_CFG c) FE_EXP_CFG_ne
  let (e, v) := carryOf ne k x.expBase x.issued
  match x.issued.find? fun i => i.frame + BitVec.ofNat 32 ne = k with
  | some i => (e, v, i.late && !i.failed, i.failed)
  | none => (e, v, false, false)

/-- Report the esid of frame k, the frame that started last, with its marks (R99, R100, R107): at its start, and again when
a batch turns late or fails, which changes the marks of a frame that has started when Ne is small. -/
def Module.reportEsid (m : Module) (c : Nat) (k : Word) : Module :=
  let (e, _, late, failed) := m.carried c k
  ((m.setFld (FE_FRAME_ESID c) FE_FRAME_ESID_esid e).setFld (FE_FRAME_ESID c) FE_FRAME_ESID_exp_late late.toNat).setFld
    (FE_FRAME_ESID c) FE_FRAME_ESID_exp_failed failed.toNat

/-- Frame n has started and not ended. -/
def Module.inFrame (m : Module) (p : Nat) (n : Word) : Bool :=
  match (m.port p).frame with
  | some f => f.seq = n
  | none => false

/-! ### The queue (R62) -/

/-- Host entries that a port holds: waiting, in released batches, or on the bus. -/
def Port.fill (x : Port) : Nat :=
  x.queue.length + ((x.batches.filter (!·.exposure)).map (·.entries.length)).sum
    + match x.xfer with
      | some t => if t.inBatch then 0 else 1
      | none => 0

/-- Report the fill of the queue (R65). -/
def Module.reportFill (m : Module) (p : Nat) : Module :=
  m.setFld (CAP_SQ_STAT p) CAP_SQ_STAT_fill (m.port p).fill

/-- Latch a reason in CAP_SQ_STAT.last_error (R62, R63): 0 NONE, 1 NACK, 2 TIMEOUT, 3 LATE_PUSH, 4 FULL, 5 BAD_ENTRY. -/
def Module.sqError (m : Module) (p e : Nat) : Module := m.setFld (CAP_SQ_STAT p) CAP_SQ_STAT_last_error e

/-- The CCCs that may be queued (R61): ENEC, DISEC, RSTDAA, ENTDAA, SETDASA, GETPID, GETBCR, GETDCR, GETSTATUS, by their
MIPI I3C codes (assumption log 15). -/
def cccOk (code : Nat) : Bool :=
  [0x00, 0x01, 0x06, 0x07, 0x80, 0x81, 0x87, 0x8D, 0x8E, 0x8F, 0x90].contains code

/-- The entry that CAP_SQ_W0 to CAP_SQ_W3 hold (R62). -/
def Module.sqEntry (m : Module) (p : Nat) : SqEntry :=
  let f := m.fld (CAP_SQ_W0 p)
  { release := if f CAP_SQ_W0_release = 1 then .frameStart else if f CAP_SQ_W0_release = 2 then .frameEnd else .immediate,
    next := f CAP_SQ_W0_next = 1, frame := m.rd (CAP_SQ_W3 p), op := f CAP_SQ_W0_op, target := f CAP_SQ_W0_target,
    reg16 := f CAP_SQ_W0_reg16 = 1, reg := m.fld (CAP_SQ_W1 p) CAP_SQ_W1_reg, nbytes := f CAP_SQ_W0_data_bytes,
    data := m.rd (CAP_SQ_W2 p) }

/-- A reserved encoding in the words of an entry (R62 case 1, R61). A CCC pushed while the protocol is I²C is no reserved
encoding: it is queued and sent as any entry (DESIGN CHOICE: the spec does not say; assumption log 72). A CCC that R61
does not list counts as a reserved encoding, so its push is REFUSED with BAD_ENTRY (DESIGN CHOICE, assumption log 84). -/
def Module.sqBad (m : Module) (p : Nat) : Bool :=
  let f := m.fld (CAP_SQ_W0 p)
  f CAP_SQ_W0_op = 3 || f CAP_SQ_W0_release = 3 || f CAP_SQ_W0_data_bytes = 0 || 4 < f CAP_SQ_W0_data_bytes ||
    f CAP_SQ_W0_op = 2 && !cccOk (m.fld (CAP_SQ_W1 p) CAP_SQ_W1_reg % 256)

/-- The target frame of an entry has passed (R62 case 4). -/
def Module.sqLate (m : Module) (p : Nat) (e : SqEntry) : Bool :=
  let n := m.startedSeq p
  !e.next && match e.release with
    | .immediate => false
    | .frameStart => 2 ^ 31 ≤ (e.frame - n - 1).toNat
    | .frameEnd => 2 ^ 31 ≤ (e.frame - n).toNat || e.frame = n && !m.inFrame p n

/-- CAP_SQ_PUSH.push: the four cases in order, then the entry is queued; a READ clears read_valid (R62, R64). The status
of the write and the state. -/
def Module.sqPush (m : Module) (p : Nat) : Nat × Module :=
  let e := m.sqEntry p
  if m.sqBad p then (stRefused, m.sqError p 5)
  else if m.portState p = 0 then (stNotReady, m.sqError p 0)
  else if 256 ≤ (m.port p).fill then (stBusy, m.sqError p 4)
  else if m.sqLate p e then (stRefused, m.sqError p 3)
  else
    let x := m.port p
    let m := (m.setPort p { x with queue := x.queue ++ [e] }).reportFill p
    (stOk, if e.op = 1 then m.setFld (CAP_SQ_STAT p) CAP_SQ_STAT_read_valid 0 else m)

/-! ### Batches (R54 step 4, R55, R63) -/

/-- An entry is released at the start or the end of frame n. -/
def SqEntry.dueAt (e : SqEntry) (atStart : Bool) (n : Word) : Bool :=
  e.release = (if atStart then .frameStart else .frameEnd) && (e.next || e.frame = n)

/-- Release the batches of a frame start or frame end: the exposure batch first, then the host's entries in push order. -/
def Module.releaseBatches (m : Module) (p : Nat) (atStart : Bool) (n : Word) (exposure : List SqEntry) : Module :=
  let x := m.port p
  let host := x.queue.filter (·.dueAt atStart n)
  let b1 := if exposure.isEmpty then [] else [SqBatch.mk true atStart n exposure]
  let b2 := if host.isEmpty then [] else [SqBatch.mk false atStart n host]
  (m.setPort p { x with queue := x.queue.filter (!·.dueAt atStart n), batches := x.batches ++ b1 ++ b2 }).reportFill p

/-- The frame-start batches of frame n are complete (R54 step 5); with `exposure` the exposure batch alone (R99). -/
def Port.batchesDone (x : Port) (n : Word) (exposure : Bool) : Bool :=
  !x.batches.any fun b => b.atStart && b.frame = n && (b.exposure || !exposure)

/-- Mark the exposure set issued at the start of frame n as late or failed (R99), and report it (R100). -/
def Module.exposureMark (m : Module) (p : Nat) (n : Word) (failed : Bool) : Module :=
  let x := m.ctx p
  (m.setCtx p { x with issued := x.issued.map fun i =>
    if i.frame = n then if failed then { i with failed := true } else { i with late := true } else i }).reportEsid p
      (m.startedSeq p)

/-! ### Transactions (R63, R64) -/

/-- The bytes that address the register of a transaction, 8 or 16 bits long, or that carry its CCC code: most significant
byte first (R62, R63, R65). -/
def SqEntry.address (e : SqEntry) : List Byte := beBytes (if e.op ≠ 2 ∧ e.reg16 then 2 else 1) e.reg

/-- The data bytes of a transaction, most significant byte first (R63): a READ sends none. -/
def SqEntry.payload (e : SqEntry) : List Byte := if e.op = 1 then [] else beBytes e.nbytes e.data.toNat

/-- Put a transaction on the bus. -/
def Module.busSend (m : Module) (p : PortId) (e : SqEntry) : Module :=
  m.emit (.sensor p e.op e.target e.address e.payload (if e.op = 1 then e.nbytes else 0))

/-- SENSOR_TRANSACTION_START: the next entry of the first released batch, or, with no batch waiting, the first IMMEDIATE
entry (R63). The bus is usable from READY on (R44). -/
def sensorTransactionStart (p : PortId) (m : Module) : Module :=
  let x := m.port p
  if m.portState p < 2 || x.xfer.isSome then m
  else match x.batches with
    | b :: _ => match b.entries with
      | e :: _ => (m.setPort p { x with xfer := some ⟨e, true, 0⟩ }).busSend p e
      | [] => m
    | [] => match x.queue.find? (·.release = .immediate) with
      | some e =>
        let x := { x with queue := x.queue.erase e, xfer := some ⟨e, false, 0⟩ }
        (m.setPort p x).busSend p e
      | none => m

/-- The entry on the bus is done; an empty batch is complete. -/
def Module.sqFinish (m : Module) (p : Nat) (t : SqXfer) : Module :=
  let x := m.port p
  let bs := if t.inBatch then match x.batches with
      | b :: r => if b.entries.length ≤ 1 then r else { b with entries := b.entries.drop 1 } :: r
      | [] => []
    else x.batches
  (m.setPort p { x with xfer := none, batches := bs }).reportFill p

/-- After the last try: the rest of the batch, or the IMMEDIATE entry alone, is discarded; the failure is counted and
reported (R63, R404). -/
def Module.sqFail (m : Module) (p : Nat) (t : SqXfer) (err : Nat) : Module :=
  let x := m.port p
  let go := fun (m : Module) (frame : Word) (lost : Nat) (bs : List SqBatch) =>
    let m := (m.setPort p { x with xfer := none, batches := bs }).reportFill p
    ((m.count (CAP_CNT_BUS_ERROR p) 1).sqError p err).raiseCtx 0x0104 p err frame.toNat
      (t.entry.reg * 65536 + t.entry.target * 512 + t.entry.op) lost
  if t.inBatch then match x.batches with
    | b :: r =>
      let m := if b.exposure then m.exposureMark p b.frame true else m
      go m b.frame b.entries.length r
    | [] => go m 0 1 []
  else go m 0 1 x.batches

/-- A failed try is retried CAP_BUS_CFG.retries times (R63). -/
def Module.sqTryFailed (m : Module) (p : PortId) (err : Nat) : Module :=
  let x := m.port p
  match x.xfer with
  | none => m
  | some t =>
    if t.tries < m.fld (CAP_BUS_CFG p) CAP_BUS_CFG_retries then
      (m.setPort p { x with xfer := some { t with tries := t.tries + 1 } }).busSend p t.entry
    else m.sqFail p t err

/-- SENSOR_TRANSACTION_DONE: with ACK the entry is done, a READ leaves its data; with a NACK it is retried or fails. -/
def sensorTransactionDone (p : PortId) (ack : Bool) (rdata : List Byte) (m : Module) : Module :=
  match (m.port p).xfer with
  | none => m
  | some t =>
    if !ack then m.sqTryFailed p 1
    else
      let m := if t.entry.op = 1 then
          (m.wr (CAP_SQ_RDATA p) (BitVec.ofNat 32 (ofBe (rdata.take t.entry.nbytes)))).setFld (CAP_SQ_STAT p)
            CAP_SQ_STAT_read_valid 1
        else m
      m.sqFinish p t

/-- SENSOR_BUS_TIMEOUT: timeout_us has passed since the start condition (R63). -/
def sensorBusTimeout (p : PortId) (m : Module) : Module := m.sqTryFailed p 2

/-- IN_BAND_INTERRUPT: an in-band interrupt or hot-join request in I3C mode is NACKed and counted (R61). -/
def inBandInterrupt (p : PortId) (m : Module) : Module :=
  if 2 ≤ m.portState p ∧ m.fld (CAP_BUS_CFG p) CAP_BUS_CFG_protocol = 3 then m.count (CAP_CNT_BUS_ERROR p) 1 else m

/-- Entering DISABLED empties the queue (R63). -/
def Port.clearQueue (x : Port) : Port := { x with queue := [], batches := [], xfer := none }

def execSensorTransactionStart (p : PortId) (s : State) := ok s (sensorTransactionStart p s.toModule)
def execSensorTransactionDone (p : PortId) (ack : Bool) (rdata : List Byte) (s : State) :=
  ok s (sensorTransactionDone p ack rdata s.toModule)
def execSensorBusTimeout (p : PortId) (s : State) := ok s (sensorBusTimeout p s.toModule)
def execInBandInterrupt (p : PortId) (s : State) := ok s (inBandInterrupt p s.toModule)

end Sys2Proof.Machine
end

