-- ==== Sys2Proof/Machine/Context.lean ====
section
/-!
DEFINITION. Contexts (03_contexts_front_end R67 to R82, R97 to R105): parameter sets and commits, exposure sets, loops,
table ports, residency.
-/
namespace Sys2Proof.Machine

/-- The context is bound to a lane (R67, R68). -/
def Module.resident (m : Module) (c : Nat) : Bool := m.bit (FE_CTX_STAT c) FE_CTX_STAT_resident

/-- Width and height of the configured geometry. -/
def Module.geom (m : Module) (c : Nat) : Nat × Nat := (m.fld (CAP_GEOM c) CAP_GEOM_width, m.fld (CAP_GEOM c) CAP_GEOM_height)

/-! ### Parameter sets (R75 to R81, R114) -/

/-- The register-table rows of context registers that hold shadow fields. -/
def shadowRows : List RegRow := regRows.filter fun r => r.fields.any (·.kind = .shadow)

/-- The shadow registers of context c, with their rows (R75, R114). -/
def shadowRegs (c : Nat) : List (Nat × RegRow) :=
  shadowRows.flatMap fun r => (List.range r.c2).map fun j => (r.base + c * r.s1 + j * r.s2, r)

/-- The shadow register at each offset of a context, as a set holds it. -/
def Module.shadowMap (m : Module) (c : Nat) : SMap Word :=
  (shadowRegs c).foldl (fun s e => SMap.set (regReset e.1) s e.1 (m.rd e.1)) []

/-- The fixed black levels of a set (R85). -/
def ParamSet.fixedBl (s : ParamSet) (c : Nat) : List Nat :=
  [s.fld (FE_BL_FIXED_A c) FE_BL_FIXED_A_ch0, s.fld (FE_BL_FIXED_A c) FE_BL_FIXED_A_ch1,
    s.fld (FE_BL_FIXED_B c) FE_BL_FIXED_B_ch2, s.fld (FE_BL_FIXED_B c) FE_BL_FIXED_B_ch3]

/-- The white-balance gains of a set. -/
def ParamSet.fixedWb (s : ParamSet) (c : Nat) : List Nat :=
  [s.fld (FE_WB_GAIN_A c) FE_WB_GAIN_A_r, s.fld (FE_WB_GAIN_A c) FE_WB_GAIN_A_g, s.fld (FE_WB_GAIN_B c) FE_WB_GAIN_B_b]

/-- The exposure set that the manual registers of a set hold (R107). -/
def ParamSet.expVals (s : ParamSet) (c : Nat) : ExpVals :=
  ⟨s.fld (FE_EXP_VAL_A c) FE_EXP_VAL_A_lines, s.fld (FE_EXP_VAL_B c) FE_EXP_VAL_B_again,
    s.fld (FE_EXP_VAL_B c) FE_EXP_VAL_B_dgain, s.fld (FE_EXP_VAL_A c) FE_EXP_VAL_A_trim⟩

/-- The mode of the black level in a set (R85): 0 FIXED, 1 TRACK, 2 SENSOR_TRIM. -/
def ParamSet.blMode (s : ParamSet) (c : Nat) : Nat := s.fld (FE_BL_CFG c) FE_BL_CFG_mode

/-- The whole shadow set as one snapshot (R77). -/
def Module.shadowSet (m : Module) (c : Nat) (psid : Word) : ParamSet :=
  let x := m.ctx c
  let s : ParamSet := ⟨psid, m.shadowMap c, x.dpc, x.lsc, x.tone, [], []⟩
  { s with bl := s.fixedBl c, wb := s.fixedWb c }

/-- The shadow fields of a register row. -/
def shadowOk (r : RegRow) (w : Word) : Bool :=
  r.fields.all fun f => f.kind ≠ .shadow || f.lo ≤ f.bits.of w && f.bits.of w ≤ f.hi

/-- The set has no optical-black window: its size is zero (R140, R154). -/
def ParamSet.obEmpty (s : ParamSet) (c : Nat) : Bool := s.fld (FE_OB_WH c) FE_OB_WH_w = 0 || s.fld (FE_OB_WH c) FE_OB_WH_h = 0

/-- The crop lies inside the geometry, with even edges and at least 16 pixels each way (R70). -/
def Module.cropOk (m : Module) (c : Nat) : Bool :=
  let (w, h) := m.geom c
  let x := m.fld (FE_CROP_XY c) FE_CROP_XY_x0
  let y := m.fld (FE_CROP_XY c) FE_CROP_XY_y0
  let cw := m.fld (FE_CROP_WH c) FE_CROP_WH_w
  let ch := m.fld (FE_CROP_WH c) FE_CROP_WH_h
  x + cw ≤ w && y + ch ≤ h && x % 2 = 0 && y % 2 = 0 && cw % 2 = 0 && ch % 2 = 0 && 16 ≤ cw && 16 ≤ ch

/-- The optical-black window of a set has a size and lies inside the geometry (R76). -/
def ParamSet.obInside (s : ParamSet) (c w h : Nat) : Bool :=
  let ow := s.fld (FE_OB_WH c) FE_OB_WH_w
  let oh := s.fld (FE_OB_WH c) FE_OB_WH_h
  ow ≠ 0 && oh ≠ 0 && s.fld (FE_OB_XY c) FE_OB_XY_x + ow ≤ w && s.fld (FE_OB_XY c) FE_OB_XY_y + oh ≤ h

/-- A defect map is in ascending (y, x) order and inside the geometry (R76). -/
def mapOk (l : List Word) (w h : Nat) : Bool :=
  (l.all fun e => mapX e < w && mapY e < h) && (l.zip (l.drop 1)).all fun p => p.1.toNat / 64 < p.2.toNat / 64

/-- The defect map of a shadow set, whatever static_en holds. -/
def ParamSet.fullMap (s : ParamSet) (c : Nat) : List Word :=
  (List.range (min 4096 (s.fld (FE_DPC_CFG c) FE_DPC_CFG_static_count))).map fun i => SMap.get 0 s.dpc i

/-- The target of a commit with `next`: the earliest frame for which it is still accepted (R76). -/
def Module.earliestTarget (m : Module) (c : Nat) (withExp : Bool) : Word :=
  let n := m.startedSeq c
  let ne := m.fld (FE_EXP_CFG c) FE_EXP_CFG_ne
  let a := if (m.ctx c).endedSeq = some n then 2 else 1
  n + BitVec.ofNat 32 (if withExp then max a (ne + 1) else a)

/-- A frame number lies between 1 and 2^31 − 1 ahead of another (R76). -/
def aheadOf (t n : Word) : Bool := 1 ≤ (t - n).toNat && (t - n).toNat < 2 ^ 31

/-- The first condition of R76 that a commit fails, as FE_COMMIT_STAT.last_error codes it. R76 gives no order of the two
reasons of its third condition: AE_OWNS_EXPOSURE comes before LATE (DESIGN CHOICE, assumption log 75). -/
def Module.commitError (m : Module) (c : Nat) (t : Word) (withExp : Bool) (s : ParamSet) : Option Nat :=
  let n := m.startedSeq c
  let (w, h) := m.geom c
  let ne := BitVec.ofNat 32 (m.fld (FE_EXP_CFG c) FE_EXP_CFG_ne)
  if m.portState c = 0 then some 5
  else if !aheadOf t n || (t - 1 = n && (m.ctx c).endedSeq = some n) then some 1
  else if withExp && m.bit (FE_EXP_CFG c) FE_EXP_CFG_ae_en then some 4
  else if withExp && !aheadOf (t - ne) n then some 1
  else if !mapOk (s.fullMap c) w h then some 2
  else if !(shadowRegs c).all (fun e => shadowOk e.2 (m.rd e.1)) then some 3
  else if s.blMode c ≠ 0 && !s.obInside c w h then some 3
  else none

/-- A write of FE_COMMIT (R76 to R78): the status of the write and the state. -/
def Module.feCommit (m : Module) (c : Nat) (next withExp : Bool) : Nat × Module :=
  let x := m.ctx c
  let t := if next then m.earliestTarget c withExp else m.rd (FE_COMMIT_FRAME c)
  let psid := x.psid + 1
  let s := m.shadowSet c psid
  match m.commitError c t withExp s with
  | some e => (if e = 5 then stNotReady else stRefused, m.setFld (FE_COMMIT_STAT c) FE_COMMIT_STAT_last_error e)
  | none =>
    let ne := BitVec.ofNat 32 (m.fld (FE_EXP_CFG c) FE_EXP_CFG_ne)
    let m := if x.pending.isSome then m.setFld (FE_COMMIT_STAT c) FE_COMMIT_STAT_superseded 1 else m
    let wait := match x.pending with
      | some old => x.expWait.filter fun e => !(e.1 = old.target - ne)
      | none => x.expWait
    let wait := if withExp then wait ++ [(t - ne, s.expVals c)] else wait
    let m := m.setCtx c { x with pending := some ⟨t, s⟩, psid := psid, expWait := wait }
    let m := (m.setFld (FE_COMMIT_STAT c) FE_COMMIT_STAT_pending 1).setFld (FE_COMMIT_STAT c) FE_COMMIT_STAT_last_error 0
    (stOk, (m.wr (FE_COMMIT_PSID c) psid).wr (FE_COMMIT_APPLY c) t)

/-! The parameter block of a frame (R115): its layout is the model's choice (assumption log 79). -/

/-- The NIS_ shadow registers of a context (R114, R137). -/
def nisRegs (c : Nat) : List (Nat × RegRow) := (shadowRegs c).filter fun e => 0x080000 ≤ e.1 && e.1 < 0x0A0000

/-- The NIS_ part of a parameter set: the words of its shadow registers in the order of R137, then the tone table. -/
def ParamSet.nisBlock (s : ParamSet) (c : Nat) : List Byte :=
  ((nisRegs c).flatMap fun e => leBytes 4 (SMap.get (regReset e.1) s.regs e.1).toNat) ++
    (List.range 129).flatMap fun i => leBytes 4 (SMap.get 0 s.tone i).toNat

/-- Bytes kept for a NIS_ part, before the package's own parameters. -/
def nisBlockLen : Nat := 640

/-- The copy for frame t (R73, R79, R81): the committed set if it targets t, otherwise the current set; loop gains,
tracked black levels and calibration results take their place. A commit resets the history of its frame when
NIS_DN_CFG.reset_on_commit is set (R126). -/
def Module.copySet (m : Module) (c : Nat) (t : Word) : Module :=
  let x := m.ctx c
  let hit : Bool := match x.pending with
    | some p => p.target = t
    | none => false
  let base := match x.pending with
    | some p => if p.target = t then p.set else x.current
    | none => x.current
  let s := { base with
    wb := if m.bit (FE_EXP_CFG c) FE_EXP_CFG_awb_en then x.loopWb else base.fixedWb c
    bl := if base.blMode c = 1 then x.est else base.fixedBl c }
  let bank := m.fld (FE_CTX_STAT c) FE_CTX_STAT_bank
  let banks := if bank = 0 then (x.banks.1, s) else (s, x.banks.2)
  let reset := x.histReset || hit && m.bit (NIS_DN_CFG c) NIS_DN_CFG_reset_on_commit
  let m := m.setCtx c { x with current := s, pending := if hit then none else x.pending, banks := banks, histReset := reset }
  if hit then m.setFld (FE_COMMIT_STAT c) FE_COMMIT_STAT_pending 0 else m

/-! ### Table ports (R107, R137) -/

/-- An access to FE_TBL_DATA: the word at index, written when a value is given, and index + 1; none beyond the table. -/
def Module.feTable (m : Module) (c : Nat) (write : Option Word) : Option (Word × Module) :=
  let t := m.fld (FE_TBL_ADDR c) FE_TBL_ADDR_table
  let i := m.fld (FE_TBL_ADDR c) FE_TBL_ADDR_index
  let x := m.ctx c
  let m' := m.setFld (FE_TBL_ADDR c) FE_TBL_ADDR_index ((i + 1) % 8192)
  if t = 0 then
    if 4096 ≤ i then none
    else match write with
      | none => some (SMap.get 0 x.dpc i, m')
      | some v => some (v, m'.setCtx c { x with dpc := SMap.set 0 x.dpc i v })
  else if 4 < t ∨ 413 ≤ i then none
  else
    let k := 512 * (t - 1) + i
    match write with
    | none => some (SMap.get 0 x.lsc k, m')
    | some v => some (v, m'.setCtx c { x with lsc := SMap.set 0 x.lsc k v })

/-- An access to NIS_TBL_DATA (R137). -/
def Module.nisTable (m : Module) (c : Nat) (write : Option Word) : Option (Word × Module) :=
  let i := m.fld (NIS_TBL_ADDR c) NIS_TBL_ADDR_index
  let x := m.ctx c
  let m' := m.setFld (NIS_TBL_ADDR c) NIS_TBL_ADDR_index ((i + 1) % 256)
  if m.fld (NIS_TBL_ADDR c) NIS_TBL_ADDR_table ≠ 0 ∨ 128 < i then none
  else match write with
    | none => some (SMap.get 0 x.tone i, m')
    | some v => some (v, m'.setCtx c { x with tone := SMap.set 0 x.tone i v })

/-! ### Exposure sets (R98 to R100, R104) -/

/-- The values of an exposure set by template source (R107): 0 LINES, 1 AGAIN, 2 DGAIN, 3 TRIM. -/
def ExpVals.source (v : ExpVals) (s : Nat) : Nat :=
  match s with | 0 => v.lines | 1 => v.again | 2 => v.dgain | _ => v.trim

/-- The writes of an exposure batch for the start of frame n, by the templates in order (R98). -/
def Module.expWrites (m : Module) (c : Nat) (n : Word) (v : ExpVals) : List SqEntry :=
  (List.range (min 8 (m.fld (FE_EXP_CFG c) FE_EXP_CFG_tpl_count))).map fun k =>
    let f := m.fld (FE_EXP_TPL c k)
    { release := .frameStart, next := false, frame := n, op := 0, target := f FE_EXP_TPL_target,
      reg16 := f FE_EXP_TPL_reg16 = 1, reg := f FE_EXP_TPL_reg, nbytes := f FE_EXP_TPL_bytes + 1,
      data := BitVec.ofNat 32 (v.source (f FE_EXP_TPL_source) / 2 ^ f FE_EXP_TPL_shift) }

/-- The exposure set that frame n's start issues, if a new one is due: the first after admission, that of a commit, the
AE loop's, a new trim code (R99, R101, R104, R105). -/
def Ctx.dueExposure (x : Ctx) (n : Word) : Option ExpVals :=
  let v := if x.first then x.start else x.expNow
  let w := x.expWait.find? (·.1 = n)
  let v := match w with | some e => e.2 | none => v
  let v := match x.aeNext with | some a => { a with trim := v.trim } | none => v
  let v := match x.trimNext with | some t => { v with trim := t } | none => v
  if x.first || w.isSome || x.aeNext.isSome || x.trimNext.isSome then some v else none

/-- Issue the exposure set of the start of frame n (R98, R99): the next esid, and the writes of its batch. -/
def Module.issueExposure (m : Module) (c : Nat) (n : Word) : List SqEntry × Module :=
  let x := m.ctx c
  match x.dueExposure n with
  | none => ([], m)
  | some v =>
    let esid := (x.esid + 1) % 65536
    let old := x.issued ++ [ExpIssue.mk n esid v false false]
    let drop := old.take (old.length - 8)
    let base := drop.foldl (fun b i => if i.failed then b else (i.esid, i.vals)) x.expBase
    let x := { x with esid := esid, expNow := v, issued := old.drop (old.length - 8), expBase := base, first := false,
                      expWait := x.expWait.filter (·.1 ≠ n), aeNext := none, trimNext := none }
    (m.expWrites c n v, m.setCtx c x)

/-! ### Residency (R67, R81, R86, R104) -/

/-- The lane FE0 to FE7 of lane l of the half that serves context c. -/
def laneOf (c l : Nat) : Nat := if c < 18 then l else 4 + l

/-- Bind a context to a lane and slot: the lane loads the current set into the live bank (R67, R81), and into the other
one, and bank A shows as live (DESIGN CHOICES, assumption log 84). -/
def Module.bindLane (m : Module) (c lane slot : Nat) : Module :=
  let st := (FE_CTX_STAT_lane.put (FE_CTX_STAT_slot.put (FE_CTX_STAT_resident.put 0 1) slot) lane)
  let m := m.wr (FE_CTX_STAT c) st
  let x := m.ctx c
  let m := m.setCtx c { x with banks := (x.current, x.current), frames := [] }
  m.setFld (FE_LANE_STAT (laneOf c lane)) ⟨slot, slot⟩ 1

/-- Release a context's lane and slot; lane, slot and bank then read 0 (DESIGN CHOICE, assumption log 84). -/
def Module.unbindLane (m : Module) (c : Nat) : Module :=
  if m.resident c then
    let lane := laneOf c (m.fld (FE_CTX_STAT c) FE_CTX_STAT_lane)
    let slot := m.fld (FE_CTX_STAT c) FE_CTX_STAT_slot
    (m.wr (FE_CTX_STAT c) 0).setFld (FE_LANE_STAT lane) ⟨slot, slot⟩ 0
  else m

/-- Free lane and slot pairs of the half of context c. -/
def Module.freeSlots (m : Module) (c : Nat) : List (Nat × Nat) :=
  (List.range 4).flatMap fun l => ((List.range 6).filter fun s =>
    !((m.rd (FE_LANE_STAT (laneOf c l))).getLsbD s)).map fun s => (l, s)

/-- What admission starts afresh in a context (R86, R104, R111, R126): tracking from the fixed levels, loops and exposure
from the start values, frame index 0, history reset, gated rows counted from 0 (R137); both banks hold the set that results
(DESIGN CHOICE, assumption log 84). -/
def Module.startContext (m : Module) (c : Nat) : Module :=
  let x := m.ctx c
  let s := x.current
  let x := { x with est := s.fixedBl c, trim := x.start.trim, trimDue := none, rejects := 0, loopWb := x.startWb,
                    first := true, aeNext := none, trimNext := none, lastRec := none, index := 0, histReset := true,
                    lastGood := true, started := [], ended := [], rowsReused := [], hdrWarm := [],
                    hdrHeld := [], jAt := [] }
  let s := { s with
    bl := if s.blMode c = 1 then x.est else s.bl
    wb := if m.bit (FE_EXP_CFG c) FE_EXP_CFG_awb_en then x.loopWb else s.wb }
  let m := m.setCtx c { x with current := s, banks := (s, s) }
  (m.wr (NIS_CNT_ROWS_COMPUTED c) 0).wr (NIS_CNT_ROWS_REUSED c) 0

/-! ### Stripe geometry (R108, R112) -/

/-- The stripe buffer of a context: height, halo, crop size, stripes of a frame, bytes per pixel, pitch, bytes of a
slot, slots, edge mode. -/
structure StripeGeom where
  h : Nat
  a : Nat
  w : Nat
  lines : Nat
  count : Nat
  bpp : Nat
  pitch : Nat
  slot : Nat
  slots : Nat
  edge : Nat

/-- The context has a monochrome mosaic. -/
def Module.mono (m : Module) (c : Nat) : Bool := m.fld (CAP_PORT_CFG c) CAP_PORT_CFG_mosaic = 5

/-- Round up to a multiple of 64 bytes. -/
def up64 (n : Nat) : Nat := (n + 63) / 64 * 64

/-- Round up to 4 KiB. -/
def up4k (n : Nat) : Nat := (n + 4095) / 4096 * 4096

/-- The stripe geometry of a context (R108, R112). -/
def Module.stripes (m : Module) (c : Nat) : StripeGeom :=
  let f := m.fld (NIS_STRIPE_CFG c)
  let h := 8 * 2 ^ f NIS_STRIPE_CFG_height
  let a := f NIS_STRIPE_CFG_halo
  let w := m.fld (FE_CROP_WH c) FE_CROP_WH_w
  let n := m.fld (FE_CROP_WH c) FE_CROP_WH_h
  let bpp := if m.mono c then 2 else 8
  let pitch := up64 ((w + 16) * bpp)
  ⟨h, a, w, n, (n + h - 1) / h, bpp, pitch, 64 + (h + 2 * a) * pitch, f NIS_STRIPE_CFG_slots, f NIS_STRIPE_CFG_edge⟩

/-- The crop lines that stripe k needs before it is ready (R110). -/
def StripeGeom.need (g : StripeGeom) (k : Nat) : Nat := min (k * g.h + g.h + g.a) g.lines

/-- Where the slot of stripe k of the frame with index f lies (R112). -/
def StripeGeom.slotAt (g : StripeGeom) (base : Nat) (f : Word) (k : Nat) : Nat :=
  base + (f.toNat * g.count + k) % max 1 g.slots * g.slot

end Sys2Proof.Machine
end

