-- ==== Sys2Proof/Machine/Calib.lean ====
section
/-!
DEFINITION. Calibration and trimming (05_calibration): runs, results, plausibility and agreement, tracking limits,
storage and restore, the temperature trigger.
-/
namespace Sys2Proof.Machine

/-- A context's calibration at rest. -/
def Cal.rest : Cal := ⟨none, [0, 0, 0, 0], none, false, false, false, none, none, (0, ⟨false, 0, 0⟩)⟩

/-- A context's calibration. -/
def Module.cal (m : Module) (c : Nat) : Cal := SMap.get Cal.rest m.cals c

/-- Store a context's calibration. -/
def Module.setCal (m : Module) (c : Nat) (x : Cal) : Module := { m with cals := SMap.set Cal.rest m.cals c x }

/-- CAL_CTX_STAT.last_error codes (R160). -/
def calBusy : Nat := 1
def calNoAllowance : Nat := 2
def calNoLane : Nat := 3
def calNoWindow : Nat := 4
def calPortState : Nat := 5
def calBadRef : Nat := 6
def calShort : Nat := 7
def calImplausible : Nat := 8
def calDisagree : Nat := 9
def calAborted : Nat := 10
def calFlash : Nat := 11

/-- The port is in DIFF mode. -/
def Module.diff (m : Module) (c : Nat) : Bool := m.bit (CAP_PORT_CFG c) CAP_PORT_CFG_signalling

/-- The context is calibrated (R156): in TRACK and SENSOR_TRIM modes the passed black level has gone to FE_BL_FIXED, where
est_c starts at admission (R86) and which is the pedestal (assumption log 69). -/
def Module.calibrated (m : Module) (c : Nat) : Bool :=
  (m.cal c).blOk && ((m.ctx c).current.blMode c = 0 || (m.cal c).blSet) && (!m.diff c || (m.cal c).tapsOk)

/-- Report validity (R156). -/
def Module.reportValid (m : Module) (c : Nat) : Module :=
  m.setFld (CAL_CTX_STAT c) CAL_CTX_STAT_valid (m.calibrated c).toNat

/-- What a lane works on for a frame of the context: the geometry, the crop and the lines given (R69, R70). -/
def Module.laneIn (m : Module) (c : Nat) (set : ParamSet) (raw : List (List Nat)) : LaneIn :=
  let f := m.fld (CAP_PORT_CFG c)
  { c := c, w := (m.geom c).1, h := (m.geom c).2, x0 := m.fld (FE_CROP_XY c) FE_CROP_XY_x0,
    y0 := m.fld (FE_CROP_XY c) FE_CROP_XY_y0, cw := m.fld (FE_CROP_WH c) FE_CROP_WH_w,
    ch := m.fld (FE_CROP_WH c) FE_CROP_WH_h, bits := dataBits (f CAP_PORT_CFG_width), mosaic := f CAP_PORT_CFG_mosaic,
    set := set, raw := raw }

/-- The channels a mosaic has (R83). -/
def chansOf (mosaic : Nat) : List Nat := if mosaic = 5 then [0] else [0, 1, 2, 3]

/-! ### Regions of a run (R139, R143) -/

/-- Pitch of a line of the accumulation region, of a supplied reference. -/
def calPitch (w bytes : Nat) : Nat := (w * bytes + 63) / 64 * 64

/-- The accumulation region when it is large enough (R143). -/
def Module.calBuf (m : Module) (c : Nat) : Option Region :=
  let (w, h) := m.geom c
  match m.region? (m.rd (CAL_CTX_BUF c)) with
  | some r => if h * calPitch w 4 + 16384 ≤ r.size then some r else none
  | none => none

/-- The supplied reference when it is large enough (R139). -/
def Module.calRef (m : Module) (c : Nat) : Option Region :=
  let (w, h) := m.geom c
  match m.region? (m.rd (CAL_CTX_REF c)) with
  | some r => if h * calPitch w 2 ≤ r.size then some r else none
  | none => none

/-- A kind that takes a dark or flat reference. -/
def darkKind (k : Nat) : Bool := 1 ≤ k && k ≤ 3

/-- The run accumulates pixels (R143). -/
def CalRun.sums (r : CalRun) : Bool := darkKind r.kind && !r.region

/-- A run of a kind that counts against an allowance and marks frames CAL: captured darks and flats, and DESKEW (R142). -/
def CalRun.marks (r : CalRun) : Bool := r.kind = 4 || r.sums

/-- The region that a run reads or sums in is not open, or too small: BAD_REF (R139, R143). -/
def Module.calNoRegion (m : Module) (c : Nat) (r : CalRun) : Bool :=
  r.region && (m.calRef c).isNone || r.sums && (m.calBuf c).isNone

/-- A frame that starts now is used by the run in progress (R141, R142). -/
def Module.calUses (m : Module) (c : Nat) : Bool :=
  match (m.cal c).run with
  | some r => if r.kind = 4 then r.taps.isNone
    else !r.region && r.usable < m.fld (CAL_CTX_CFG c) CAL_CTX_CFG_frames
  | none => false

/-- A frame that a DESKEW run uses is marked CAL (R142). -/
def Module.calMark (m : Module) (c : Nat) (n : Word) : Module :=
  match (m.cal c).run with
  | some r =>
    if r.kind = 4 && r.taps.isNone then
      let m := m.setCal c { m.cal c with run := some { r with first := some (r.first.getD n), last := some n } }
      (m.wr (CAL_CAL_FIRST c) (r.first.getD n)).wr (CAL_CAL_LAST c) n
    else m
  | none => m

/-- Add the pixels of a raw line to the sums, or take them back (R141, R143). -/
def Module.calAddLine (m : Module) (c y : Nat) (px : List Nat) (add : Bool) : Module :=
  match m.calBuf c with
  | none => m
  | some r =>
    let base := r.base + y * calPitch (m.geom c).1 4
    (List.range px.length).foldl (fun m x =>
      let a := base + 4 * x
      let l := m.laneIn c ParamSet.rest [px]
      let v := l.val x 0
      m.write a (leBytes 4 (if add then m.num a 4 + v else m.num a 4 - v))) m

/-! ### The end of a run (R147, R149, R155) -/

/-- Raise CAL_RESULT for a run (R404). -/
def Module.calEvent (m : Module) (c : Nat) (r : CalRun) (err status : Nat) : Module :=
  m.raiseCtx 0x0401 c (err + 16 * r.kind + 256 * r.purpose + 1024 * min r.runs 3)
    (if darkKind r.kind || r.kind = 4 then (r.first.map BitVec.toNat).getD 0 else 0)
    (if darkKind r.kind || r.kind = 4 then (r.last.map BitVec.toNat).getD 0 else 0) status

/-- Report the state of a context's calibration. -/
def Module.calReport (m : Module) (c : Nat) (running : Bool) (runs kind err : Nat) : Module :=
  let f := CAL_CTX_STAT c
  (((m.setFld f CAL_CTX_STAT_running running.toNat).setFld f CAL_CTX_STAT_runs runs).setFld f CAL_CTX_STAT_last_kind
    kind).setFld f CAL_CTX_STAT_last_error err

/-- Abort a training (R43): the previous taps stay in use. -/
def Module.trainAbort (m : Module) (p : Nat) : Module :=
  if m.portState p = 3 then
    (m.setFld (CAP_TRAIN_STAT p) CAP_TRAIN_STAT_result 6).setPortState p 2
  else m

/-- End a run: its lane slot is released, and its end is reported (R144, R147). Without a stated status the event carries
a free one (assumption log 2). -/
def Module.calEnd (m : Module) (c err : Nat) (status : Option Nat) : Module :=
  match (m.cal c).run with
  | none => m
  | some r =>
    let m := m.setCal c { m.cal c with run := none }
    let m := if r.grant then m.unbindLane c else m
    let m := m.setCtx c { m.ctx c with frames := (m.ctx c).frames.map fun f => { f with cal := false } }
    let m := m.setPort c { m.port c with frame := (m.port c).frame.map fun f => { f with cal := false } }
    let m := if r.kind = 4 then m.trainAbort c else m
    let m := m.calReport c false (min r.runs 3) r.kind err
    match status with
    | some s => m.calEvent c r err s
    | none =>
      let (v, m) := m.open_
      m.calEvent c r err (v.toNat % 256)

/-- A run ends with ABORTED (R155). -/
def Module.calAbort (m : Module) (c : Nat) : Module := m.calEnd c calAborted none

/-- Begin one of the runs of a calibration: empty sums, or a training (R138, R143), each of which needs the port in READY and
in DIFF mode (R140, R148). A frame in progress is used by the training from here on, and is marked CAL (R142; DEDUCED,
assumption log 77). -/
def Module.calBegin (m : Module) (c : Nat) (r : CalRun) : Module :=
  let r := { r with usable := 0, esid := none, obSums := [0, 0, 0, 0], taps := none, begun := true }
  if r.kind = 4 && (m.portState c ≠ 2 || !m.diff c) then
    (m.setCal c { m.cal c with run := some r }).calEnd c calPortState none
  else
  let m := (m.setCal c { m.cal c with run := some r }).count (CAL_CNT_RUN c) 1
  if r.kind = 4 then
    let m := (m.setPortState c 3).wr (CAP_TRAIN_STAT c) (CAP_TRAIN_STAT_result.put 0 1)
    match (m.port c).frame with
    | some f => (m.setPort c { m.port c with frame := some { f with cal := true } }).calMark c f.seq
    | none => m
  else if r.sums then match m.calBuf c with
    | some reg => m.write reg.base (List.replicate ((m.geom c).2 * calPitch (m.geom c).1 4) 0)
    | none => m
  else m

/-! ### CAL_START (R138 to R144) -/

/-- Frames a run may mark CAL: A of R142. -/
def allowance (n purpose : Nat) : Nat := if purpose = 0 then n else 3 * n

/-- FCLK cycles per ms that a stream books of a lane (R69, R356). -/
def Module.laneCost (m : Module) (c line : Nat) : Nat := (((m.geom c).1 + 8) * 1000000 + line - 1) / max 1 line

/-- What a calibration run without a stream books of a lane: at the shortest line period that the port has measured, nothing
before it has measured one (R144; DEDUCED, assumption log 77). -/
def Module.calCost (m : Module) (c : Nat) : Nat :=
  match ((m.port c).meas).bind (·.frame.periods) with
  | some l => m.laneCost c (max 1 (l.1 * 5 / 3))
  | none => 0

/-- FCLK cycles per ms booked on lane l of the half of context c: by streams, and by runs with a slot of their own. -/
def Module.laneBooked (m : Module) (c l : Nat) : Nat :=
  ((m.streams.filter fun e => (e.1 < 18) = (c < 18) && e.2.plan.lane = l).map fun e =>
    m.laneCost e.1 e.2.setup.linePeriod).sum +
  ((m.cals.filter fun e => (e.1 < 18) = (c < 18) && (match e.2.run with | some r => r.grant | none => false) &&
    m.fld (FE_CTX_STAT e.1) FE_CTX_STAT_lane = l).map fun e => m.calCost e.1).sum

/-- Lane and slot pairs with room for a cost: of a domain that is on, booked to at most 95 % (R67, R356). -/
def Module.lanesAt (m : Module) (c cost : Nat) : List (Nat × Nat) :=
  if !m.feOn c then [] else (m.freeSlots c).filter fun e => m.laneBooked c e.1 + cost ≤ 570000

/-- Lane and slot pairs that the planner may grant to a run, under the checks for a stream (R70, R144). -/
def Module.calLanes (m : Module) (c : Nat) : List (Nat × Nat) := if m.cropOk c then m.lanesAt c (m.calCost c) else []

/-- Why a run is refused (R140, R142, R144, R155), as last_error codes it. -/
def Module.calRefuse (m : Module) (c kind purpose : Nat) (region : Bool) : Option Nat :=
  let n := m.fld (CAL_CTX_CFG c) CAL_CTX_CFG_frames
  let cur := (m.ctx c).current
  let st := m.portState c
  if (m.cal c).run.isSome then some calBusy
  else if kind = 4 && (st ≠ 2 || !m.diff c) then some calPortState
  else if !region && kind ≠ 4 && st ≠ 2 && st ≠ 4 then some calPortState
  else if kind = 0 && cur.obEmpty c then some calNoWindow
  else match m.streams.find? c with
    | some s => if (kind = 4 || darkKind kind && !region) && s.setup.calFrames < allowance n purpose then
        some calNoAllowance else none
    | none => if kind ≠ 4 && !region && (m.calLanes c).isEmpty then some calNoLane else none

/-- Start a run of a kind, for a purpose, from a source; the status of the register write and the state. -/
def Module.calStart (m : Module) (c kind purpose : Nat) (region : Bool) : Nat × Module :=
  let region := region && darkKind kind
  if 4 < kind then (stRefused, m)
  else match m.calRefuse c kind purpose region with
    | some e => (stRefused, (m.setFld (CAL_CTX_STAT c) CAL_CTX_STAT_last_error e).count (CAL_CNT_REFUSED c) 1)
    | none =>
      let grant := !region && kind ≠ 4 && (m.streams.find? c).isNone
      let m := if grant then
          let l := m.calLanes c
          let (i, m) := m.pick l.length
          match l[i]? with
          | some (lane, slot) => m.bindLane c lane slot
          | none => m
        else m
      let r : CalRun := ⟨kind, purpose, region, 0, none, 0, none, 0, [0, 0, 0, 0], none, none, none, none, true, grant⟩
      let m := (m.setCal c { m.cal c with run := some r }).calReport c true 0 kind 0
      let m := (m.wr (CAL_CAL_FIRST c) 0).wr (CAL_CAL_LAST c) 0
      if m.calNoRegion c r then (stOk, m.calEnd c calBadRef none)
      else (stOk, m.calBegin c r)

/-! ### Frames of a run (R141, R142) -/

/-- The flags of a frame that R86 names: SHORT, LONG, SIGNAL_LOST, OVERRUN, EARLY_DROPPED. -/
def usableFlags (flags : Nat) : Bool := flags &&& 0b001110011 = 0

/-- Take a frame's lines back out of the sums (R141). -/
def Module.calTakeBack (m : Module) (c : Nat) (f : LaneFrame) : Module :=
  (List.range f.passed).foldl (fun m y => match f.lines[y]? with
    | some l => m.calAddLine c y l.px false
    | none => m) m

/-- The end of a frame that a run uses: a usable one, which the lane has seen, counts for a captured run, others are skipped;
every one, those that the port dropped as well, counts against the allowance (R141, R142). -/
def Module.calFrame (m : Module) (c : Nat) (f : PortFrame) (lane : Option LaneFrame) (esid : Nat) (ob : List Nat) : Module :=
  match (m.cal c).run with
  | none => m
  | some r =>
    if r.region || r.kind = 4 && r.taps.isSome then m
    else
      let good := r.kind ≠ 4 && lane.isSome && usableFlags f.flags && (r.esid.isNone || r.esid = some esid)
      let marks := r.marks
      let r' := if good then
          { r with usable := r.usable + 1, esid := some esid, taken := r.taken + 1,
                   obSums := (r.obSums.zip ob).map fun p => p.1 + p.2,
                   first := if r.first.isNone && marks then some f.seq else r.first,
                   last := if marks then some f.seq else r.last, lastStamp := some (f.seq, f.sof) }
        else { r with taken := r.taken + 1, last := if marks && r.first.isSome then some f.seq else r.last }
      let m := match lane with
        | some g => if good || !r.sums then m else m.calTakeBack c g
        | none => m
      let m := if good then m
        else m.setCtx c { m.ctx c with
          frames := (m.ctx c).frames.map fun g => if g.seq = f.seq then { g with cal := false } else g }
      let m := m.setCal c { m.cal c with run := some r' }
      let m := if marks then (m.wr (CAL_CAL_FIRST c) (r'.first.getD 0)).wr (CAL_CAL_LAST c) (r'.last.getD 0) else m
      let n := m.fld (CAL_CTX_CFG c) CAL_CTX_CFG_frames
      if marks && r'.usable < n && allowance n r.purpose ≤ r'.taken then
        (m.calEnd c calShort (some stCalImplausible)).count (CAL_CNT_IMPLAUSIBLE c) 1
      else m

/-! ### Results (R145, R146) -/

/-- The mean raw value A(p) of a pixel: from the sums over n frames, or from the reference. -/
def Module.calMean (m : Module) (c : Nat) (r : CalRun) (x y : Nat) : Nat :=
  let w := (m.geom c).1
  if r.region then match m.calRef c with
    | some reg => m.num (reg.base + y * calPitch w 2 + 2 * x) 2
    | none => 0
  else match m.calBuf c with
    | some reg => (roundMean (m.num (reg.base + y * calPitch w 4 + 4 * x) 4 : Nat) (max 1 r.usable)).toNat
    | none => 0

/-- The coordinates of a rectangle. -/
def rect (x y w h : Nat) : List (Nat × Nat) := (List.range h).flatMap fun j => (List.range w).map fun i => (x + i, y + j)

/-- round_mean over some values, 0 without any. -/
def meanOf (l : List Nat) : Nat := if l.isEmpty then 0 else (roundMean (l.sum : Nat) l.length).toNat

/-- The black levels and dark signals of BL_DARK (R145). -/
def Module.calDark (m : Module) (l : LaneIn) (r : CalRun) (ch : Nat) : Nat × Int :=
  let map := l.set.fullMap l.c
  let px := (rect l.x0 l.y0 l.cw l.ch).filter fun p =>
    l.chan p.1 p.2 = ch && !map.any fun e => mapX e = p.1 && mapY e = p.2
  let bl := meanOf (px.map fun p => m.calMean l.c r p.1 p.2)
  let f := l.set.fld
  let ob := (rect (f (FE_OB_XY l.c) FE_OB_XY_x) (f (FE_OB_XY l.c) FE_OB_XY_y) (f (FE_OB_WH l.c) FE_OB_WH_w)
    (f (FE_OB_WH l.c) FE_OB_WH_h)).filter fun p => l.chan p.1 p.2 = ch
  (bl, if ob.isEmpty then 0 else (bl : Int) - meanOf (ob.map fun p => m.calMean l.c r p.1 p.2))

/-- The defective pixels of DPC_DARK (R145), over the crop (assumption log 17). -/
def Module.calHot (m : Module) (l : LaneIn) (r : CalRun) : List (Nat × Nat) :=
  let th := m.fld (CAL_DPC_TH l.c) CAL_DPC_TH_hot_th * 64
  let px := rect l.x0 l.y0 l.cw l.ch
  let mu := (List.range 4).map fun ch => meanOf ((px.filter fun p => l.chan p.1 p.2 = ch).map fun p =>
    m.calMean l.c r p.1 p.2)
  px.filter fun p => (mu[l.chan p.1 p.2]?).getD 0 + th < m.calMean l.c r p.1 p.2

/-- The defective pixels of DPC_FLAT (R145). -/
def Module.calDim (m : Module) (l : LaneIn) (r : CalRun) : List (Nat × Nat) :=
  let cold := m.fld (CAL_DPC_TH l.c) CAL_DPC_TH_cold_rel
  let a := fun (p : Nat × Nat) => m.calMean l.c r p.1 p.2 - (l.set.bl[l.chan p.1 p.2]?).getD 0
  let zone := fun (k j : Nat) =>
    let px := (zonePixels l.cw l.ch k j).map fun p => (l.x0 + p.1, l.y0 + p.2)
    let mu := (List.range 4).map fun ch => meanOf ((px.filter fun p => l.chan p.1 p.2 = ch).map a)
    px.filter fun p =>
      let u := (mu[l.chan p.1 p.2]?).getD 0
      a p * 256 < u * (256 - cold) || u * (256 + cold) < a p * 256
  (List.range 12).flatMap fun j => (List.range 16).flatMap fun k => zone k j

/-- The method of a new defect (R146). -/
def calMethod (l : LaneIn) (found : List (Nat × Nat)) (p : Nat × Nat) : Nat :=
  let hit := fun (o : Int × Int) => found.any fun q => (q.1 : Int) = p.1 + o.1 && (q.2 : Int) = p.2 + o.2
  let n := l.near p.1 p.2
  if n.any (fun o => o.1 = 0 && hit o) then 1 else if n.any (fun o => o.2 = 0 && hit o) then 2 else 0

/-- Insert a map entry in (y, x) order; an entry for the same pixel stays. -/
def insertEntry (l : List Word) (e : Word) : List Word :=
  match l with
  | [] => [e]
  | x :: t =>
    if e.toNat / 64 < x.toNat / 64 then e :: x :: t
    else if e.toNat / 64 = x.toNat / 64 then x :: t
    else x :: insertEntry t e

/-- The result of the run in progress (R145, R146). -/
def Module.calCompute (m : Module) (c : Nat) (r : CalRun) : CalResult :=
  let cur := (m.ctx c).current
  let l := m.laneIn c cur []
  let old := cur.fullMap c
  match r.kind with
  | 0 => ⟨r.obSums.map fun s => (roundMean (s : Nat) (max 1 r.usable)).toNat, [0, 0, 0, 0], [], old, [], 0⟩
  | 1 =>
    let v := (List.range 4).map fun ch => if (chansOf l.mosaic).contains ch then m.calDark l r ch else (0, 0)
    ⟨v.map (·.1), v.map (·.2), [], old, [], 0⟩
  | 4 => match r.taps with
    | some (t, eye, _) => ⟨[], [], [], old, t, eye⟩
    | none => ⟨[], [], [], old, [], 0⟩
  | k =>
    let all := if k = 2 then m.calHot l r else m.calDim l r
    let found := all.filter fun p => !old.any fun e => mapX e = p.1 && mapY e = p.2
    let entries := found.map fun p => BitVec.ofNat 32 (p.2 * 2 ^ 19 + p.1 * 2 ^ 6 + calMethod l all p * 16)
    ⟨[], [], found, entries.foldl insertEntry old, [], 0⟩

/-- The absolute difference of two numbers. -/
def diffNat (a b : Nat) : Nat := (a - b) + (b - a)

/-- The taps in use, data lines 0 to 15 and the sync tap. -/
def Module.tapsOf (m : Module) (c : Nat) : List Nat :=
  ((List.range 4).flatMap fun k => [m.fld (CAP_DESKEW c k) CAP_DESKEW_tap0, m.fld (CAP_DESKEW c k) CAP_DESKEW_tap1,
    m.fld (CAP_DESKEW c k) CAP_DESKEW_tap2, m.fld (CAP_DESKEW c k) CAP_DESKEW_tap3])
    ++ [m.fld (CAP_DESKEW4 c) CAP_DESKEW4_sync_tap]

/-- Write taps (R43, R153): a list of data taps and the sync tap. -/
def Module.writeTaps (m : Module) (c : Nat) (data : List Nat) (sync : Nat) : Module :=
  let b := fun (j : Nat) => match j with
    | 0 => CAP_DESKEW_tap0 | 1 => CAP_DESKEW_tap1 | 2 => CAP_DESKEW_tap2 | _ => CAP_DESKEW_tap3
  let m := (List.range data.length).foldl (fun m i =>
    m.setFld (CAP_DESKEW c (i / 4)) (b (i % 4)) ((data[i]?).getD 64)) m
  (m.setFld (CAP_DESKEW4 c) CAP_DESKEW4_sync_tap sync).setFld (CAP_PORT_STATE c) CAP_PORT_STATE_trained 1

/-- A result is plausible (R147). For DESKEW, `taps` tells whether the training passed. -/
def Module.calPlausible (m : Module) (c : Nat) (r : CalRun) (x : CalResult) : Bool :=
  let ch := chansOf (m.fld (CAP_PORT_CFG c) CAP_PORT_CFG_mosaic)
  let bl := ch.map fun i => (x.bl[i]?).getD 0
  let cur := ch.map fun i => ((m.ctx c).current.bl[i]?).getD 0
  if r.kind ≤ 1 then
    bl.all (fun v => m.fld (CAL_LIM_BL c) CAL_LIM_BL_bl_lo ≤ v && v ≤ m.fld (CAL_LIM_BL c) CAL_LIM_BL_bl_hi) &&
      bl.foldl max 0 - bl.foldl min 65535 ≤ m.fld (CAL_LIM_STEP c) CAL_LIM_STEP_max_spread &&
      (r.purpose ≠ 0 || (bl.zip cur).all fun p => diffNat p.1 p.2 ≤ m.fld (CAL_LIM_STEP c) CAL_LIM_STEP_max_step)
  else if r.kind = 4 then
    let used := m.tapsOf c
    let sync := (r.taps.map (·.2.2)).getD 0
    !x.taps.isEmpty && 12 ≤ x.minEye && (r.purpose ≠ 0 || ((x.taps.zip used).all fun p => diffNat p.1 p.2 ≤ 16) &&
      diffNat sync ((used[16]?).getD 64) ≤ 16)
  else
    x.map.length ≤ m.fld (CAL_DPC_TH c) CAL_DPC_TH_max_defects && m.fld (CAL_DPC_TH c) CAL_DPC_TH_max_defects ≤ 4096

/-- Two runs agree (R149). -/
def Module.calAgree (m : Module) (c : Nat) (a b : CalResult) : Bool :=
  (a.bl.zip b.bl).all (fun p => diffNat p.1 p.2 ≤ m.fld (CAL_LIM_AGREE c) CAL_LIM_AGREE_agree_bl) &&
    (a.found.filter fun p => !b.found.contains p).length + (b.found.filter fun p => !a.found.contains p).length
      ≤ m.fld (CAL_LIM_AGREE c) CAL_LIM_AGREE_agree_dpc &&
    (a.taps.zip b.taps).all fun p => diffNat p.1 p.2 ≤ 2

/-! ### Applying and storing (R151, R153, R156, R157) -/

/-- The context's temperature, 1/16 °C (R154). -/
def Module.ctxTemp (m : Module) (c : Nat) : Int :=
  if m.bit (CAL_CTX_CFG c) CAL_CTX_CFG_temp_src then signedOf 16 (m.fld (CAL_CTX_TEMP c) CAL_CTX_TEMP_host_temp)
  else signedOf 16 (m.fld CAL_MON_STAT CAL_MON_STAT_die_temp)

/-- Store four black levels in a set's fixed registers. -/
def ParamSet.putBl (s : ParamSet) (c : Nat) (bl : List Nat) : ParamSet :=
  let g := fun i => (bl[i]?).getD 0
  let w := fun (off : Nat) (b : Bits) (v : Nat) (r : SMap Word) =>
    SMap.set (regReset off) r off (b.put (SMap.get (regReset off) r off) v)
  { s with regs := w (FE_BL_FIXED_B c) FE_BL_FIXED_B_ch3 (g 3) (w (FE_BL_FIXED_B c) FE_BL_FIXED_B_ch2 (g 2)
      (w (FE_BL_FIXED_A c) FE_BL_FIXED_A_ch1 (g 1) (w (FE_BL_FIXED_A c) FE_BL_FIXED_A_ch0 (g 0) s.regs))) }

/-- A defect map as a table. -/
def mapTable (l : List Word) : SMap Word :=
  ((List.range l.length).map fun i => (i, (l[i]?).getD 0)).filter fun e => e.2 ≠ 0

/-- Store a defect map in a set. -/
def ParamSet.putMap (s : ParamSet) (c : Nat) (l : List Word) : ParamSet :=
  let off := FE_DPC_CFG c
  { s with
    dpc := mapTable l
    regs := SMap.set (regReset off) s.regs off (FE_DPC_CFG_static_count.put (SMap.get (regReset off) s.regs off)
      l.length) }

/-- Store four black levels in the shadow registers. -/
def Module.shadowBl (m : Module) (c : Nat) (bl : List Nat) : Module :=
  let g := fun i => (bl[i]?).getD 0
  (((m.setFld (FE_BL_FIXED_A c) FE_BL_FIXED_A_ch0 (g 0)).setFld (FE_BL_FIXED_A c) FE_BL_FIXED_A_ch1 (g 1)).setFld
    (FE_BL_FIXED_B c) FE_BL_FIXED_B_ch2 (g 2)).setFld (FE_BL_FIXED_B c) FE_BL_FIXED_B_ch3 (g 3)

/-- Store a defect map in the shadow table. -/
def Module.shadowDefects (m : Module) (c : Nat) (l : List Word) : Module :=
  (m.setCtx c { m.ctx c with dpc := mapTable l }).setFld (FE_DPC_CFG c) FE_DPC_CFG_static_count l.length

/-- The last applied result: the last frame it used and that frame's start (R160). -/
def Module.calLast (m : Module) (c : Nat) (r : CalRun) : Module :=
  match r.lastStamp with
  | none => m
  | some (q, s) =>
    let m := m.setCal c { m.cal c with lastStamp := (q, s) }
    let m := ((m.wr (CAL_LAST_SEQ c) q).wr (CAL_LAST_NS c) s.ns).wr (CAL_LAST_SL c) (BitVec.ofNat 32 s.sec)
    (m.setFld (CAL_LAST_SH c) CAL_LAST_SH_s_hi (s.sec / 2 ^ 32)).setFld (CAL_LAST_SH c) CAL_LAST_SH_valid s.valid.toNat

/-- Apply a black-level result (R151): to the shadow and a pending commit in FIXED mode, to the next copy in FIXED and
TRACK mode; T_cal and the stamp follow. -/
def Module.applyBl (m : Module) (c : Nat) (r : CalRun) (bl : List Nat) : Module :=
  let mode := (m.ctx c).current.blMode c
  let m := if mode = 0 then
      let m := m.shadowBl c bl
      let x := m.ctx c
      m.setCtx c { x with pending := x.pending.map fun p => { p with set := p.set.putBl c bl } }
    else m
  let m := if mode = 2 then m else m.setCal c { m.cal c with applyBl := some bl }
  (m.setFld (CAL_CTX_TEMP c) CAL_CTX_TEMP_t_cal (twos 16 (m.ctxTemp c))).calLast c r

/-- Apply a defect map (R151). -/
def Module.applyMap (m : Module) (c : Nat) (r : CalRun) (l : List Word) : Module :=
  let m := (m.shadowDefects c l).calLast c r
  let x := m.ctx c
  let m := m.setCtx c { x with pending := x.pending.map fun p => { p with set := p.set.putMap c l } }
  m.setCal c { m.cal c with applyMap := some l }

/-- What a frame-end copy takes from a calibration (R151): in FIXED mode the levels, in TRACK mode est_c, and the map. -/
def Module.applyAtCopy (m : Module) (c : Nat) : Module :=
  let k := m.cal c
  let x := m.ctx c
  let x := match k.applyBl with
    | none => x
    | some bl => { x with current := if x.current.blMode c = 0 then x.current.putBl c bl else x.current
                          est := if x.current.blMode c = 1 then bl else x.est }
  let x := match k.applyMap with
    | none => x
    | some l => { x with current := x.current.putMap c l }
  if k.applyBl.isNone && k.applyMap.isNone then m
  else (m.setCtx c x).setCal c { k with applyBl := none, applyMap := none }

/-- The layout version of the records that the model's firmware writes and takes (R158 names it; DESIGN CHOICE, assumption
log 76). -/
def calVersion : Nat := 1

/-- The bytes of a record that its CRC covers (R157; their order is the model's, assumption log 76). -/
def CalCopy.bytes (r : CalCopy) : List Byte :=
  let vals := fun (l : List Nat) => l.flatMap (leBytes 2)
  leBytes 4 r.generation.toNat ++ leBytes 2 r.version ++ leBytes 2 r.part ++ leBytes 4 r.portCfg.toNat ++
    leBytes 4 r.geom.toNat ++ leBytes 4 r.geomOfs.toNat ++ r.taps.flatMap (fun w => leBytes 4 w.toNat) ++ vals r.bl ++
    vals (r.ds.map (twos 16)) ++ leBytes 2 r.dpc.length ++ r.dpc.flatMap (fun w => leBytes 4 w.toNat) ++
    leBytes 2 (twos 16 r.tCal) ++ leBytes 4 r.seq.toNat ++ leBytes 6 r.stamp.sec ++ leBytes 4 r.stamp.ns.toNat ++
    leBytes 1 r.stamp.valid.toNat ++ vals [r.start.lines, r.start.again, r.start.dgain, r.start.trim] ++ vals r.startWb

/-- A copy's CRC, record version and part match (R158). -/
def Module.calGood (m : Module) (r : CalCopy) : Bool :=
  r.crc = crc32c r.bytes && r.version = calVersion && r.part = m.fld SYS_ID SYS_ID_part

/-- A copy of a context's record, when it is good. -/
def Module.calCopyAt (m : Module) (c i : Nat) : Option CalCopy := (m.flash.cal.find? (2 * c + i)).filter m.calGood

/-- The good copy of a context's record with the highest generation (R158). -/
def Module.calNewest (m : Module) (c : Nat) : Option CalCopy :=
  newestCopy (m.calCopyAt c) (·.generation.toNat)

/-- The geometry block of a record equals the port's settings: data width, mosaic, signalling, DDR, geometry and offsets
(R157, R158). -/
def Module.calMatches (m : Module) (c : Nat) (r : CalCopy) : Bool :=
  bitsOf r.portCfg.toNat 8 1 = bitsOf (m.rd (CAP_PORT_CFG c)).toNat 8 1 && r.geom = m.rd (CAP_GEOM c) &&
    r.geomOfs = m.rd (CAP_GEOM_OFS c)

/-- The record of the values in use (R157), of a generation: those of the current set, with a result that waits for its
copy; the start values are the shadow registers'. -/
def Module.calRecord (m : Module) (c : Nat) (gen : Word) : CalCopy :=
  let cur := (m.ctx c).current
  let k := m.cal c
  let s := m.shadowSet c 0
  let r : CalCopy :=
    { generation := gen, version := calVersion, part := m.fld SYS_ID SYS_ID_part, crc := 0
      portCfg := m.rd (CAP_PORT_CFG c), geom := m.rd (CAP_GEOM c), geomOfs := m.rd (CAP_GEOM_OFS c)
      taps := ((List.range 4).map fun k => m.rd (CAP_DESKEW c k)) ++ [m.rd (CAP_DESKEW4 c)]
      bl := k.applyBl.getD (if cur.blMode c = 1 then (m.ctx c).est else cur.fixedBl c), ds := k.ds
      dpc := k.applyMap.getD (cur.fullMap c), tCal := signedOf 16 (m.fld (CAL_CTX_TEMP c) CAL_CTX_TEMP_t_cal)
      seq := k.lastStamp.1, stamp := k.lastStamp.2, start := s.expVals c, startWb := s.fixedWb c }
  { r with crc := crc32c r.bytes }

/-- Report whether the record in flash matches the values in use: geometry block, taps, black levels and map (R160). -/
def Module.reportStored (m : Module) (c : Nat) : Module :=
  let same : Bool := match m.calNewest c with
    | some r =>
      let u := m.calRecord c r.generation
      m.calMatches c r && r.taps = u.taps && r.bl = u.bl && r.dpc = u.dpc
    | none => false
  m.setFld (CAL_CTX_STAT c) CAL_CTX_STAT_stored same.toNat

/-- Start a store to flash (R157). -/
def Module.calStoreStart (m : Module) (c : Nat) : Module :=
  let gen := nextCopyGen (m.calCopyAt c) (·.generation.toNat)
  m.setCal c { m.cal c with storing := some (m.calRecord c (BitVec.ofNat 32 gen)) }

/-- The copy that a store overwrites (R157). -/
def Module.calOlder (m : Module) (c : Nat) : Nat := olderCopy (m.calCopyAt c) (·.generation.toNat)

/-- CAL_STORE_DONE: the older copy is overwritten, and its start values are those of the next admission (R104); or the store
fails and both copies stay (R157, R160, R509). -/
def calStoreDone (c : PortId) (good : Bool) (m : Module) : Module :=
  match (m.cal c).storing with
  | none => m
  | some r =>
    let m := m.setCal c { m.cal c with storing := none }
    let m := m.satAdd CAL_FLASH_STAT CAL_FLASH_STAT_stores 1
    if good then
      let m := { m with flash := { m.flash with cal := m.flash.cal.insert (2 * c.val + m.calOlder c) r } }
      let m := m.setCtx c { m.ctx c with start := r.start, startWb := r.startWb }
      (m.setFld CAL_FLASH_STAT CAL_FLASH_STAT_last 1).reportStored c
    else
      let m := (m.setFld CAL_FLASH_STAT CAL_FLASH_STAT_last 2).setFld (CAL_CTX_STAT c) CAL_CTX_STAT_last_error calFlash
      let (v, m) := m.open_
      m.faultSeq 16 0x0401 c (m.lastSeq c) (calFlash + 16 * m.fld (CAL_CTX_STAT c) CAL_CTX_STAT_last_kind) 0 0
        (v.toNat % 256)

/-- Power goes while records are being stored: the copy that a store overwrites is as before, whole, or torn, which fails its
CRC; the other copy stays (R157). Which it is, is free (assumption log 76). -/
def Module.tornStores (m : Module) : Module :=
  let flash := (List.range 36).foldl (fun (fl : Flash) c =>
    match (m.cal c).storing with
    | none => fl
    | some r =>
      let k := Config.choice (m.draws + c) % 3
      let torn := { r with crc := r.crc + 1 }
      if k = 0 then fl else { fl with cal := fl.cal.insert (2 * c + m.calOlder c) (if k = 1 then r else torn) }) m.flash
  { m with flash := flash, draws := m.draws + 36 }

/-- The last frame of which a port knows the start: the one that it receives, else the last that ended. -/
def Module.lastFrame (m : Module) (p : Nat) : Option (Word × Stamp) :=
  match (m.port p).frame, (m.port p).meas with
  | some f, _ => some (f.seq, f.sof)
  | none, some e => some (e.frame.seq, e.frame.sof)
  | none, none => none

/-- Where a passed result goes, by purpose (R148): applied, stored, and counted for R156; a dark signal is kept with an
applied result. The last frame of a DESKEW result is the last that its port has started (DESIGN CHOICE, assumption log
84). -/
def Module.calPass (m : Module) (c : Nat) (r : CalRun) (x : CalResult) : Module :=
  let cfg := fun b => m.bit (CAL_CTX_CFG c) b
  let confirmed := r.purpose = 1 || r.purpose = 3
  let m := if r.kind ≤ 1 then
      let k := m.cal c
      let m := m.setCal c { k with blOk := k.blOk || confirmed,
                                   blSet := k.blSet || confirmed && (m.ctx c).current.blMode c = 0 }
      if confirmed || r.purpose = 0 && cfg CAL_CTX_CFG_apply_bl then
        (m.setCal c { m.cal c with ds := if r.kind = 1 then x.ds else (m.cal c).ds }).applyBl c r x.bl
      else m
    else if r.kind = 4 then
      let m := m.setCal c { m.cal c with tapsOk := (m.cal c).tapsOk || confirmed }
      if r.purpose ≠ 2 && m.portState c = 2 then
        (m.writeTaps c x.taps ((r.taps.map (·.2.2)).getD 64)).calLast c { r with lastStamp := m.lastFrame c }
      else m
    else if confirmed || r.purpose = 0 && cfg CAL_CTX_CFG_apply_dpc then m.applyMap c r x.map
    else m
  let m := ((m.count (CAL_CNT_PASS c) 1).reportValid c).reportStored c
  if r.purpose = 1 || r.purpose = 3 && cfg CAL_CTX_CFG_auto_store then m.calStoreStart c else m

/-- Report a result in CAL_RES_BL, CAL_RES_DS and CAL_RES_DPC, and write the map into the accumulation region (R146). -/
def Module.calShow (m : Module) (c : Nat) (r : CalRun) (x : CalResult) : Module :=
  let g := fun i => (x.bl[i]?).getD 0
  let d := fun i => twos 16 ((x.ds[i]?).getD 0)
  if r.kind ≤ 1 then
    let m := (m.wr (CAL_RES_BL_A c) (BitVec.ofNat 32 (g 1 * 65536 + g 0))).wr (CAL_RES_BL_B c)
      (BitVec.ofNat 32 (g 3 * 65536 + g 2))
    if r.kind = 0 then m
    else (m.wr (CAL_RES_DS_A c) (BitVec.ofNat 32 (d 1 * 65536 + d 0))).wr (CAL_RES_DS_B c)
      (BitVec.ofNat 32 (d 3 * 65536 + d 2))
  else if r.kind = 4 then m
  else
    let m := (m.setFld (CAL_RES_DPC c) CAL_RES_DPC_total x.map.length).setFld (CAL_RES_DPC c) CAL_RES_DPC_found
      x.found.length
    match m.region? (m.rd (CAL_CTX_BUF c)) with
    | some reg =>
      if 16384 ≤ reg.size then m.write (reg.base + reg.size - 16384) ((x.map.take 4096).flatMap fun e => leBytes 4 e.toNat)
      else m
    | none => m

/-- The data of the run in progress is complete: N usable frames, all of their lines in, a finished training, or a
supplied reference. -/
def Module.calReady (m : Module) (c : Nat) (r : CalRun) : Bool :=
  if r.region then true
  else if r.kind = 4 then r.taps.isSome
  else m.fld (CAL_CTX_CFG c) CAL_CTX_CFG_frames ≤ r.usable &&
    (m.ctx c).frames.all fun f => !f.cal || f.ended.isNone || f.lines.length ≤ f.passed

/-- CAL_RESULT_READY: the result is computed and checked; then the calibration ends, or its next run begins (R145 to
R149); a region that is gone by now fails the run (R139, R143), and a run that has used its allowance cannot go on
(R142). -/
def calResultReady (c : PortId) (m : Module) : Module := m.firmware fun m =>
  match (m.cal c).run with
  | none => m
  | some r =>
    if !m.calReady c r then m
    else if m.calNoRegion c r then m.calEnd c calBadRef none
    else
      let x := m.calCompute c r
      let r' := { r with runs := r.runs + 1, prev := some x }
      let m := (m.setCal c { m.cal c with run := some r' }).calShow c r' x
      if !m.calPlausible c r x then
        (m.calEnd c calImplausible (some stCalImplausible)).count (CAL_CNT_IMPLAUSIBLE c) 1
      else
        let agreed := match r.prev with
          | some y => m.calAgree c y x
          | none => false
        if r.purpose = 0 || agreed then
          (m.calPass c r' x).calEnd c 0 (some stOk)
        else if 3 ≤ r'.runs then (m.calEnd c calDisagree (some stCalDisagree)).count (CAL_CNT_DISAGREE c) 1
        else if r.marks && allowance (m.fld (CAL_CTX_CFG c) CAL_CTX_CFG_frames) r.purpose ≤ r.taken then
          (m.calEnd c calShort (some stCalImplausible)).count (CAL_CNT_IMPLAUSIBLE c) 1
        else (m.setFld (CAL_CTX_STAT c) CAL_CTX_STAT_runs r'.runs).calBegin c r'

/-! ### Tracking (R85, R86, R105, R150) -/

/-- The next tracked level (R85). -/
def trackStep (k est ob : Nat) : Nat :=
  if k = 0 then ob else (clampI 0 65535 ((est : Int) + fdiv ((ob : Int) - est + 2 ^ (k - 1) : Int) (2 ^ k))).toNat

/-- At the end of a usable frame of a resident context in TRACK or SENSOR_TRIM mode: within the limits the level moves,
or the trim loop gets the means, for a monochrome mosaic that of its one channel (DESIGN CHOICE, assumption log 75: R105
names ob_0 to ob_3); otherwise the frame is rejected (R150). -/
def Module.track (m : Module) (c : Nat) (s : ParamSet) (ob : List Nat) : Module :=
  let mode := s.blMode c
  if mode ≠ 1 ∧ mode ≠ 2 then m
  else
    let x := m.ctx c
    let ch := chansOf (m.fld (CAP_PORT_CFG c) CAP_PORT_CFG_mosaic)
    let ref := if mode = 1 then x.est else s.fixedBl c
    let fits := ch.all fun i =>
      let o := (ob[i]?).getD 0
      m.fld (CAL_LIM_BL c) CAL_LIM_BL_bl_lo ≤ o && o ≤ m.fld (CAL_LIM_BL c) CAL_LIM_BL_bl_hi &&
        diffNat o ((ref[i]?).getD 0) ≤ m.fld (CAL_LIM_STEP c) CAL_LIM_STEP_max_step
    if fits then
      let k := s.fld (FE_BL_CFG c) FE_BL_CFG_track_shift
      if mode = 1 then
        m.setCtx c { x with rejects := 0, est := (x.est.zip ob).map fun p => trackStep k p.1 p.2 }
      else m.setCtx c { x with rejects := 0, trimDue := some (ch.map fun i => (ob[i]?).getD 0) }
    else
      let m := (m.setCtx c { x with rejects := x.rejects + 1 }).count (CAL_CNT_TRACK_REJECT c) 1
      if x.rejects + 1 = m.fld (CAL_LIM_AGREE c) CAL_LIM_AGREE_reject_run then
        m.raiseCtx 0x0401 c (calImplausible + 4096) 0 0 stCalImplausible
      else m

/-- TRIM_UPDATE: the trim code follows the mean of the optical-black means; the new code goes out with the next batch
(R105). The round() of R105 takes halves upwards, and the loop goes on from its own code also after a manual exposure set
has sent another (DESIGN CHOICES, assumption log 75); FE_TRIM_CFG comes from the current set at the time of the row
(DESIGN CHOICE, assumption log 84). -/
def trimUpdate (c : PortId) (m : Module) : Module := m.firmware fun m =>
  let x := m.ctx c
  match x.trimDue with
  | none => m
  | some ob =>
    let s := x.current
    let step := s.fld (FE_TRIM_CFG c) FE_TRIM_CFG_step
    let x := { x with trimDue := none }
    if step = 0 then m.setCtx c x
    else
      let o := roundMean (ob.sum : Nat) (max 1 ob.length)
      let mx : Int := s.fld (FE_TRIM_CFG c) FE_TRIM_CFG_max_step
      let d := clampI (-mx) mx (roundMean (o - s.fld (FE_TRIM_CFG c) FE_TRIM_CFG_target) step)
      let t := (clampI 0 65535 ((x.trim : Int) + d)).toNat
      m.setCtx c { x with trim := t, trimNext := some t }

/-! ### Restore and the temperature trigger (R154, R158) -/

/-- Load a record into taps, shadow and current sets (R158). -/
def Module.calLoad (m : Module) (c : Nat) (r : CalCopy) : Module :=
  let m := (List.range 4).foldl (fun m k => m.wr (CAP_DESKEW c k) ((r.taps[k]?).getD 0)) m
  let m := (m.wr (CAP_DESKEW4 c) ((r.taps[4]?).getD 0)).setFld (CAP_PORT_STATE c) CAP_PORT_STATE_trained 1
  let m := (m.shadowBl c r.bl).shadowDefects c r.dpc
  let v := r.start
  let m := (m.setFld (FE_EXP_VAL_A c) FE_EXP_VAL_A_lines v.lines).setFld (FE_EXP_VAL_A c) FE_EXP_VAL_A_trim v.trim
  let m := (m.setFld (FE_EXP_VAL_B c) FE_EXP_VAL_B_again v.again).setFld (FE_EXP_VAL_B c) FE_EXP_VAL_B_dgain v.dgain
  let w := fun i => (r.startWb[i]?).getD 4096
  let m := ((m.setFld (FE_WB_GAIN_A c) FE_WB_GAIN_A_r (w 0)).setFld (FE_WB_GAIN_A c) FE_WB_GAIN_A_g (w 1)).setFld
    (FE_WB_GAIN_B c) FE_WB_GAIN_B_b (w 2)
  let x := m.ctx c
  let sh := m.shadowSet c x.current.psid
  let put := fun (off : Nat) (l : SMap Word) => SMap.set (regReset off) l off (SMap.get (regReset off) sh.regs off)
  let cur := (x.current.putBl c r.bl).putMap c r.dpc
  let cur := { cur with
    regs := put (FE_EXP_VAL_A c) (put (FE_EXP_VAL_B c) (put (FE_WB_GAIN_A c) (put (FE_WB_GAIN_B c) cur.regs)))
    bl := r.bl, wb := r.startWb }
  let m := m.setCtx c { x with current := cur, start := v, startWb := r.startWb, loopWb := r.startWb, expNow := v, expBase := (x.esid, v) }
  let m := m.setCal c { m.cal c with ds := r.ds, blOk := true, blSet := true, tapsOk := true, lastStamp := (r.seq, r.stamp) }
  let m := m.setFld (CAL_CTX_TEMP c) CAL_CTX_TEMP_t_cal (twos 16 r.tCal)
  (m.reportStored c).setFld (CAL_CTX_STAT c) CAL_CTX_STAT_valid 1

/-- When a port leaves DISABLED its calibration is that of a matching record, or none (R156, R158). -/
def Module.calRestore (m : Module) (c : Nat) : Module :=
  let m := (m.setCal c { m.cal c with blOk := false, blSet := false, tapsOk := false }).setFld (CAL_CTX_STAT c) CAL_CTX_STAT_valid 0
  let m := m.setFld (CAL_CTX_STAT c) CAL_CTX_STAT_stored 0
  match m.calNewest c with
  | some r => if m.calMatches c r then m.calLoad c r else m
  | none => m

/-- The temperature trigger at a frame end (R154). -/
def Module.calTrigger (m : Module) (c : Nat) : Module :=
  if !m.bit (CAL_CTX_CFG c) CAL_CTX_CFG_temp_en || (m.cal c).run.isSome then m
  else
    let t := m.ctxTemp c
    let t0 := signedOf 16 (m.fld (CAL_CTX_TEMP c) CAL_CTX_TEMP_t_cal)
    let cur := (m.ctx c).current
    if (t - t0).natAbs < m.fld (CAL_CTX_CFG c) CAL_CTX_CFG_dtemp || cur.blMode c ≠ 0 then m
    else if !cur.obEmpty c then (m.calStart c 0 0 false).2
    else m.raiseCtx 0x0402 c 0 (twos 32 t) (twos 32 t0) 0

/-- A write of CAL_CTX_CTL (R141, R155, R157, R160). -/
def Module.calCtl (m : Module) (c : Nat) (v : Word) : Nat × Module :=
  let f := fun (b : Bits) => b.of v
  let m := if f CAL_CTX_CTL_abort = 1 then m.calAbort c else m
  let m := if f CAL_CTX_CTL_store = 1 then m.calStoreStart c else m
  if f CAL_CTX_CTL_start = 1 then
    m.calStart c (f CAL_CTX_CTL_kind) (f CAL_CTX_CTL_purpose) (f CAL_CTX_CTL_source = 1)
  else (stOk, m)

def execCalStoreDone (c : PortId) (good : Bool) (s : State) := ok s (calStoreDone c good s.toModule)
def execCalResultReady (c : PortId) (s : State) := ok s (calResultReady c s.toModule)
def execTrimUpdate (c : PortId) (s : State) := ok s (trimUpdate c s.toModule)

end Sys2Proof.Machine
end

