-- ==== Sys2Proof/Machine/Capture.lean ====
section
/-!
DEFINITION. Camera ports (02_camera_ports): states, frames and lines, measurement, training, TRIG and STROBE.
-/
namespace Sys2Proof.Machine

/-! ### Frame flags (R65): bits of CAP_MEAS_FRAME[24:16] -/

def flShort : Nat := 1
def flLong : Nat := 2
def flShortLines : Nat := 4
def flLongLines : Nat := 8
def flOverrun : Nat := 16
def flSignalLost : Nat := 32
def flEarly : Nat := 64
def flLateWrite : Nat := 128
def flStrobeOvf : Nat := 256

/-- Set a flag of a frame. -/
def PortFrame.flag (f : PortFrame) (b : Nat) : PortFrame := { f with flags := f.flags ||| b }

/-- A mismatched frame (R52): SHORT, LONG, short or long lines. -/
def mismatched (flags : Nat) : Bool := flags &&& 15 ≠ 0

/-- Store the frame being received. -/
def Module.setFrame (m : Module) (p : Nat) (f : Option PortFrame) : Module := m.setPort p { m.port p with frame := f }

/-- Change the lane's record of frame n. -/
def Module.adjustLane (m : Module) (c : Nat) (n : Word) (f : LaneFrame → LaneFrame) : Module :=
  let x := m.ctx c
  if x.frames.any (·.seq = n) then
    m.setCtx c { x with frames := x.frames.map fun g => if g.seq = n then f g else g }
  else m

/-- The lane's record of frame n. -/
def Module.laneFrame (m : Module) (c : Nat) (n : Word) : Option LaneFrame := (m.ctx c).frames.find? (·.seq = n)

/-! ### Domains and states (R44 to R47, R58) -/

/-- A port enters DISABLED (R44, R45, R63): RST_N low, TRIG inactive, the queue, the frame in progress and the conditions
of CAP_PORT_STATE gone; a calibration ends. That CAP_SQ_STAT.read_valid is cleared too is a DESIGN CHOICE (assumption
log 72): R64 names only the push of another READ. -/
def Module.disablePort (m : Module) (p : Nat) : Module :=
  let m := m.calAbort p
  let x := m.port p
  let m := m.setPort p { x.clearQueue with rstHigh := false, trigHigh := false, trigNet := none, trigLast := none,
                                           frame := none, lastStart := none, lastEnd := none, lastAccepted := none,
                                           dropRun := false }
  (((m.wr (CAP_PORT_STATE p) 0).wr (CAP_FRAME_PERIOD p) 0).reportFill p).setFld (CAP_SQ_STAT p) CAP_SQ_STAT_read_valid 0

/-- Setting enable (R46, R158): RESETTING with RST_N low, the frame sequence counter cleared, the calibration restored. A
commit that is pending stays, with its target, while the exposure sets that wait go: a DESIGN CHOICE (assumption log 84). -/
def Module.enablePort (m : Module) (p : Nat) : Module :=
  let m := { m with seqNext := m.seqNext.erase p, seqLast := m.seqLast.erase p }
  let x := m.ctx p
  let m := m.setCtx p { x with endedSeq := none, issued := [], expBase := (x.esid, x.expNow), expWait := [], frames := [] }
  (m.setPortState p 1).calRestore p

/-- The set-up fields of a context can be written: its port is DISABLED or READY, and no stream is admitted that read them
(R47, R82, R351). -/
def Module.setupOpen (m : Module) (p : Nat) : Bool :=
  (m.portState p = 0 || m.portState p = 2) && (m.streams.find? p).isNone

/-- A write of CAP_PORT_CFG (R46, R47, R351): `v` has passed the checks of R526. -/
def Module.portCfgWrite (m : Module) (p : Nat) (v : Word) : Nat × Module :=
  let old := m.rd (CAP_PORT_CFG p)
  let st := m.portState p
  let on := v.getLsbD 0
  let same := old ||| 1 = v ||| 1
  let ddrBad := CAP_PORT_CFG_ddr.of v = 1 && (CAP_PORT_CFG_signalling.of v = 0 || (m.geom p).1 % 2 = 1)
  if ddrBad || (st = 4 && !on) || (!m.setupOpen p && !same) then (stRefused, m)
  else
    let m := m.wr (CAP_PORT_CFG p) v
    if on && !old.getLsbD 0 then (stOk, m.enablePort p)
    else if !on && old.getLsbD 0 then (stOk, (m.trainAbort p).disablePort p)
    else (stOk, (m.reportValid p).reportStored p)

/-- RST_LOW_EXPIRY: RST_N is driven high (R46 step 2). -/
def rstLowExpiry (p : PortId) (m : Module) : Module :=
  if m.portState p = 1 then m.setPort p { m.port p with rstHigh := true } else m

/-- RST_SETTLE_EXPIRY: the bus is initialised, with RSTDAA and DISEC in I3C mode, and the port enters READY (R46 step 3,
R61; CCC codes and the event byte: assumption log 15). TRIG works from here on (R44): NET_TIME times before it are past. -/
def rstSettleExpiry (p : PortId) (m : Module) : Module :=
  if m.portState p = 1 && (m.port p).rstHigh then
    let m := if m.fld (CAP_BUS_CFG p) CAP_BUS_CFG_protocol = 3 then
        (m.emit (.sensor p 2 0x7E [0x06] [] 0)).emit (.sensor p 2 0x7E [0x01] [0x09] 0)
      else m
    let m := m.tick
    (m.setPort p { m.port p with trigFrom := m.now }).setPortState p 2
  else m

/-! ### Lines (R16, R40, R49) -/

/-- The padding pixel, masked to the data width (R65). -/
def Module.padPixel (m : Module) (p : Nat) : Nat :=
  m.fld (CAP_PAD p) CAP_PAD_value % 2 ^ dataBits (m.fld (CAP_PORT_CFG p) CAP_PORT_CFG_width)

/-- A line of padding. -/
def Module.padLine (m : Module) (p : Nat) : LaneLine := ⟨List.replicate (m.geom p).1 (m.padPixel p), true, false⟩

/-- Lines of a context in its port's input queue (R14, R16). -/
def Module.queuedLines (m : Module) (c : Nat) : Nat :=
  ((m.ctx c).frames.map fun f => ((f.lines.drop f.passed).filter (·.queued)).length).sum

/-- Merge a width into the smallest and largest of a frame. -/
def mergeRange (r : Option (Nat × Nat)) (v : Nat) : Option (Nat × Nat) :=
  match r with
  | none => some (v, v)
  | some (a, b) => some (min a v, max b v)

/-- The samples of an open line from its first active pixel on: in PULSE mode the active pixels begin h_offset PCLK cycles
after the HSYNC edge, of two samples each with DDR (R38, R40). -/
def Module.activeOf (m : Module) (p : Nat) (px : List W16) : List W16 :=
  if m.bit (CAP_PORT_CFG p) CAP_PORT_CFG_hsync_mode then
    px.drop (m.fld (CAP_GEOM_OFS p) CAP_GEOM_OFS_h_offset * if m.bit (CAP_PORT_CFG p) CAP_PORT_CFG_ddr then 2 else 1)
  else px

/-- In PULSE mode a line has ended once its CAP_GEOM.width pixels are taken (R40). -/
def Module.lineTaken (m : Module) (p : Nat) (px : List W16) : Bool :=
  m.bit (CAP_PORT_CFG p) CAP_PORT_CFG_hsync_mode && (m.geom p).1 ≤ (m.activeOf p px).length

/-- Close the open line with the samples received (R39, R40, R49): short lines are padded, pixels beyond the width dropped, an
OVERRUN line padded whole, a line beyond the height discarded. `lost` closes it under SIGNAL_LOST; `cut` says that a
frame-start edge came inside the line, which closes it as short whatever it carries (R50). -/
def Module.closeLine (m : Module) (p : Nat) (pixels : List W16) (lost cut : Bool) : Module :=
  match (m.port p).frame with
  | none => m
  | some f => match f.open_ with
    | none => m
    | some o =>
      let (w, h) := m.geom p
      let pixels := m.activeOf p pixels
      let n := pixels.length
      let got := if m.bit (CAP_PORT_CFG p) CAP_PORT_CFG_hsync_mode then min n w else n
      let f := { f with open_ := none, widths := mergeRange f.widths got }
      if h ≤ f.lines then m.setFrame p (some { f with extra := f.extra + 1 })
      else
        let bits := dataBits (m.fld (CAP_PORT_CFG p) CAP_PORT_CFG_width)
        let px := (pixels.take w).map fun v => v.toNat % 2 ^ bits
        let line : LaneLine := if o.overrun then m.padLine p
          else ⟨px ++ List.replicate (w - px.length) (m.padPixel p), px.length < w, true⟩
        let m := m.adjustLane p f.seq fun g => { g with lines := g.lines ++ [line] }
        let f := { f with lines := f.lines + 1 }
        let short := cut || (!o.overrun && !lost && got < w)
        let cases := [(o.overrun, flOverrun, CAP_CNT_OVERRUN p), (short, flShortLines, CAP_CNT_SHORT_LINE p),
          (!o.overrun && w < got, flLongLines, CAP_CNT_LONG_LINE p)].filter (·.1)
        cases.foldl (fun m k => m.count k.2.2 1) (m.setFrame p (some (cases.foldl (fun f k => f.flag k.2.1) f)))

/-! ### The end of a frame (R49, R52, R53, R55, R73, R79) -/

/-- The measurement set of a frame, as CAP_MEAS_FRAME packs flags and lines. -/
def measFrame (f : PortFrame) : Nat := f.flags * 65536 + min (f.lines + f.extra) 65535

/-- R52: three mismatched frames in a row raise DRIFT; a matching one clears the run. -/
def Module.driftCheck (m : Module) (p : Nat) (f : PortFrame) : Module :=
  if mismatched f.flags then
    let run := min 3 (m.fld (CAP_PORT_STATE p) CAP_PORT_STATE_mismatch_run + 1)
    let m := m.setFld (CAP_PORT_STATE p) CAP_PORT_STATE_mismatch_run run
    if run = 3 && !m.bit (CAP_PORT_STATE p) CAP_PORT_STATE_drift then
      let m := m.setFld (CAP_PORT_STATE p) CAP_PORT_STATE_drift 1
      m.raiseCtx 0x0101 p ((m.rd (CAP_PORT_STATE p)).toNat % 65536) f.seq.toNat (measFrame f) 0
    else m
  else (m.setFld (CAP_PORT_STATE p) CAP_PORT_STATE_mismatch_run 0).setFld (CAP_PORT_STATE p) CAP_PORT_STATE_drift 0

/-- The context's part of a frame end (R73, R79, R85, R106, R141, R150, R154). -/
def Module.contextFrameEnd (m : Module) (c : Nat) (e : Meas) : Module :=
  let f := e.frame
  let m := match m.laneFrame c f.seq with
    | none => m
    | some g =>
      let ob := (m.laneIn c g.set (g.lines.map LaneLine.px)).ob
      let m := if usableFlags f.flags && m.resident c && (m.streams.find? c).isSome then m.track c g.set ob else m
      let m := if f.cal then m.calFrame c f (some g) (m.carried c f.seq).1 ob else m
      m.adjustLane c f.seq fun g => { g with ended := some e }
  let m := if f.cal && (m.laneFrame c f.seq).isNone then m.calFrame c f none 0 [] else m
  let x := m.ctx c
  let good := f.flags &&& 0b000110001 = 0 && (x.lastGood || !f.dropped)
  let m := m.setCtx c { x with endedSeq := some f.seq, lastGood := good }
  ((((m.applyAtCopy c).copySet c (f.seq + 1)).reportValid c).reportStored c).calTrigger c

/-- The stream of the port has been released or stopped for a mode change: the port leaves ACTIVE (R47). -/
def Module.leaveActive (m : Module) (p : Nat) : Module :=
  match m.streams.find? p with
  | some s =>
    if m.portState p = 4 && (s.phase = .releasing || s.phase = .stopped) then
      ((m.setPortState p 2).wr (CAP_FRAME_PERIOD p) 0).setPort p { m.port p with lastAccepted := none }
    else m
  | none => m

/-- Close the frame being received (R49, R55): missing lines are padding, the stamp is taken, the measurements are
updated, the writes of the frame end released, the parameters of the next frame copied. `cut` says that a frame-start edge
came inside a line: the frame is SHORT even when that was its last line (R50). -/
def Module.closeFrame (m : Module) (p : Nat) (t : Nat) (pixels : List W16) (lost cut : Bool) : Module :=
  let m := m.closeLine p pixels lost cut
  match (m.port p).frame with
  | none => m
  | some f =>
    let h := (m.geom p).2
    let short := cut || f.lines < h
    let f := if short then f.flag flShort else f
    let f := if 0 < f.extra then f.flag flLong else f
    let m := if short && !lost then m.count (CAP_CNT_SHORT_FRAME p) 1 else m
    let m := if 0 < f.extra then m.count (CAP_CNT_LONG_FRAME p) 1 else m
    let m := m.adjustLane p f.seq fun g => { g with lines := g.lines ++ List.replicate (h - f.lines) (m.padLine p) }
    let m := m.tick
    let e : Meas := ⟨f, m.stamp f.seq⟩
    let m := m.setPort p { m.port p with frame := none, meas := some e, lastEnd := some t }
    let m := (m.setFld (CAP_PORT_STATE p) CAP_PORT_STATE_in_frame 0).driftCheck p f
    let m := (m.contextFrameEnd p e).releaseBatches p false f.seq []
    m.leaveActive p

/-- FRAME_END: in LEVEL mode the VSYNC inactive edge, in PULSE mode the end of the last of CAP_GEOM.height lines (R40), a line
that is still open counting once its pixels are taken. -/
def frameEnd (p : PortId) (t : Nat) (tail : List W16) (m : Module) : Module :=
  match (m.port p).frame with
  | none => m
  | some f =>
    let lines := f.lines + if f.open_.isSome && m.lineTaken p tail then 1 else 0
    if m.bit (CAP_PORT_CFG p) CAP_PORT_CFG_vsync_mode && lines < (m.geom p).2 then m
    else m.closeFrame p t tail false false

/-- SIGNAL_LOST (R49): the line and the frame are closed as short; lines received count the line broken off. -/
def Module.signalLost (m : Module) (p : Nat) (t : Nat) (pixels : List W16) : Module :=
  let m := m.closeLine p pixels true false
  match (m.port p).frame with
  | none => m
  | some f =>
    let m := m.setFrame p (some ((f.flag flShort).flag flSignalLost))
    let m := (m.count (CAP_CNT_SIGNAL_LOST p) 1).setFld (CAP_PORT_STATE p) CAP_PORT_STATE_signal_lost 1
    let m := m.raiseCtx 0x0102 p 0 f.seq.toNat (f.lines + f.extra) 0
    m.closeFrame p t [] true false

/-- PCLK_LOSS_TIMEOUT: no PCLK edge for 4 096 FCLK cycles within a line (R49). -/
def pclkLossTimeout (p : PortId) (t : Nat) (pixels : List W16) (m : Module) : Module :=
  match (m.port p).frame with
  | some f => if f.open_.isSome then m.signalLost p t pixels else m
  | none => m

/-- FRAME_END_TIMEOUT: in ACTIVE no frame end within twice the admitted period of the frame start (R49). -/
def frameEndTimeout (p : PortId) (t : Nat) (tail : List W16) (m : Module) : Module :=
  match (m.port p).frame with
  | some f =>
    if m.portState p = 4 && f.start + 2 * (m.rd (CAP_FRAME_PERIOD p)).toNat ≤ t then m.signalLost p t tail else m
  | none => m

/-! ### The start of a frame (R48, R51, R54, R106, R111, R115, R126) -/

/-- The report of a stream's ADMIT has not been acknowledged: the ADMIT has not completed (R360). -/
def Module.reportOut (m : Module) (c : Nat) (s : Stream) : Bool :=
  m.winOut.any fun x => match x.use with
    | .report _ st v => st = BitVec.ofNat 8 stOk && v.toNat = s.gen * 65536 + c
    | _ => false

/-- The admitted frame period in FCLK cycles, rounded to the nearest (R351). -/
def Stream.fclkPeriod (s : Stream) : Word := BitVec.ofNat 32 ((s.setup.framePeriod * 6 + 5) / 10)

/-- The port enters ACTIVE at a frame start when a stream waits for it, after its ADMIT has completed (R47, R360); in ACTIVE
CAP_FRAME_PERIOD shows the admitted period (R65). -/
def Module.enterActive (m : Module) (p : Nat) : Module :=
  match m.streams.find? p with
  | some s =>
    if s.phase = .waiting && m.portState p = 2 && !m.reportOut p s then
      let m := (m.setPortState p 4).wr (CAP_FRAME_PERIOD p) s.fclkPeriod
      let m := { m with streams := m.streams.insert p { s with phase := .active } }
      m.setPort p { m.port p with lastAccepted := none, dropRun := false }
    else m
  | none => m

/-- The frame starts early (R51). -/
def Module.early (m : Module) (p : Nat) (t : Nat) : Bool :=
  m.portState p = 4 && match (m.port p).lastAccepted with
    | none => false
    | some a => t - a < (m.rd (CAP_FRAME_PERIOD p)).toNat * 49 / 50

/-- Zero the reuse counts of a context's gated rows (R188). -/
def Module.zeroCounts (m : Module) (c : Nat) : Module :=
  match m.streams.find? c with
  | none => m
  | some s =>
    let g := m.stripes c
    s.plan.pics.foldl (fun m p => if p.gateable then m.zero p.counts (g.count * (g.h + 2 * p.below)) else m) m

/-- The history count of a frame that is delivered (R126); a reset zeroes the reuse counts of the rows (R188). -/
def Module.historyStart (m : Module) (c : Nat) : Module :=
  let x := m.ctx c
  let st := NIS_HIST_STAT c
  let reset := x.histReset || !x.lastGood
  let j := if reset then 0 else min 65535 (m.fld st NIS_HIST_STAT_j + 1)
  let m := m.setCtx c { x with histReset := false }
  let m := if reset then m.zeroCounts c else m
  (m.setFld st NIS_HIST_STAT_j j).setFld st NIS_HIST_STAT_warming
    (if j < m.fld (NIS_DN_CFG c) NIS_DN_CFG_warm_frames then 1 else 0)

/-- Write the NIS_ part of a frame's set into parameter block (frame index mod 4) of every picture stage (R115). -/
def Module.writeBlocks (m : Module) (c : Nat) (f : Nat) (set : ParamSet) : Module :=
  match m.streams.find? c with
  | none => m
  | some s => s.plan.pics.foldl (fun m p => m.write (p.params + f % 4 * p.paramLen) (set.nisBlock c)) m

/-- A frame that enters the lane: its record, and, for a stream, its index, its parameter block and its history count
(R111, R115, R126). -/
def Module.laneStart (m : Module) (c : Nat) (n : Word) (sof : Stamp) : Module :=
  let x := m.ctx c
  let stream := (m.streams.find? c).isSome
  let g : LaneFrame := ⟨n, x.index, x.current, sof, false, [], 0, [], 0, none, !stream, m.calUses c⟩
  let m := m.setCtx c { x with frames := x.frames ++ [g] }
  if stream then
    let x := m.ctx c
    let m := m.setCtx c { x with index := x.index + 1, blocks := x.blocks.insert (x.index.toNat % 4) x.current }
    let m := ((m.wr (NIS_FRAME_INDEX c) x.index).writeBlocks c x.index.toNat x.current).historyStart c
    m.setCtx c { m.ctx c with jAt := (m.ctx c).jAt.insert (x.index.toNat % 4) (m.fld (NIS_HIST_STAT c) NIS_HIST_STAT_j) }
  else m

/-- The resume of a delivery or of a window destination takes effect at a frame start (R135, R350). -/
def Module.resumeAtStart (m : Module) (c : Nat) : Module :=
  match m.streams.find? c with
  | none => m
  | some s =>
    let ds := s.setup.deliveries.map fun d => if d.resume then { d with suspended := false, resume := false } else d
    let m := s.outResume.foldl (fun m k => m.setFld (NIS_OUT_STAT c k) NIS_OUT_STAT_window_halted 0) m
    { m with streams := m.streams.insert c { s with setup := { s.setup with deliveries := ds }, outResume := [] } }

/-- A commit for the first frame has no frame end before it: it is applied at that frame's start (assumption log 18). -/
def Module.copyFirst (m : Module) (c : Nat) (n : Word) : Module :=
  match (m.ctx c).pending with
  | some q => if q.target = n then m.copySet c n else m
  | none => m

/-- FRAME_START: a VSYNC active edge (R54): open line and frame are closed, the frame gets its number, the early check is
made, the stamp taken, the lane's frame begun, the exposure and host batches released. That CAP_MEAS_PERIOD and
CAP_MEAS_VBLANK of the first frame after DISABLED, which has no frame before it, read 0 is a DESIGN CHOICE (assumption
log 84). -/
def frameStart (p : PortId) (t : Nat) (tail : List W16) (m : Module) : Module :=
  if m.portState p < 2 then m
  else
    let c := p.val
    let cut : Bool := match (m.port c).frame with
      | some f => f.open_.isSome && !m.lineTaken c tail
      | none => false
    let m := m.closeFrame c t tail false cut
    let n := SMap.get 0 m.seqNext c
    let m := { m with seqNext := SMap.set 0 m.seqNext c (n + 1), seqLast := m.seqLast.insert c n }
    let m := m.enterActive c
    let drop := m.early c t
    let x := m.port c
    let m := m.tick
    let sof := m.stamp n
    let f : PortFrame := { seq := n, flags := if drop then flEarly else 0, dropped := drop, cal := m.calUses c, sof := sof, strobes := [],
                           start := t, period := (x.lastStart.map fun a => t - a).getD 0,
                           vblank := (x.lastEnd.map fun a => t - a).getD 0, lines := 0, extra := 0, edges := 0, widths := none,
                           periods := none, hblank := none, lineAt := none, open_ := none }
    let active : Bool := decide (m.portState c = 4)
    let m := m.setPort c { x with frame := some f, lastStart := some t,
                                  lastAccepted := if active && !drop then some t else x.lastAccepted,
                                  dropRun := if active then drop else x.dropRun }
    let m := ((m.setFld (CAP_PORT_STATE c) CAP_PORT_STATE_signal_lost 0).setFld (CAP_PORT_STATE c)
      CAP_PORT_STATE_in_frame 1).calMark c n
    let m := if drop then
        let m := m.count (CAP_CNT_EARLY_DROP c) 1
        if x.dropRun then m else m.raiseCtx 0x0103 c 0 n.toNat (min f.period 0xFFFFFFFF) 0
      else m
    let m := m.copyFirst c n
    let m := if !drop && m.resident c && (active || (m.streams.find? c).isNone) then m.laneStart c n sof else m
    let m := if drop then m else m.resumeAtStart c
    let (batch, m) := m.issueExposure c n
    (m.releaseBatches c true n batch).reportEsid c n

/-! ### Lines of a frame (R16, R40, R54 step 5) -/

/-- PORT_LINE_START: an HSYNC active edge; outside a frame it is ignored; it closes a line that is still open (R49). In
PULSE mode of VSYNC the first active line is the one that the v_offset-th edge after the VSYNC edge starts (with 0, the
first; DEDUCED, assumption log 73), and lines beyond the height are blanking (R40). -/
def portLineStart (p : PortId) (t hblank : Nat) (tail : List W16) (m : Module) : Module :=
  let c := p.val
  let m := m.closeLine c tail false false
  match (m.port c).frame with
  | none => m
  | some f =>
    let f := { f with edges := f.edges + 1 }
    let m := m.setFrame c (some f)
    if m.bit (CAP_PORT_CFG c) CAP_PORT_CFG_vsync_mode &&
      (f.edges < m.fld (CAP_GEOM_OFS c) CAP_GEOM_OFS_v_offset || (m.geom c).2 ≤ f.lines) then m
    else
      let m := if f.lines = 0 && f.extra = 0 && f.lineAt.isNone && !(m.port c).batchesDone f.seq false then
          let m := m.setFrame c (some (f.flag flLateWrite))
          let m := m.adjustLane c f.seq fun g => { g with lateWrite := true }
          let m := if (m.port c).batchesDone f.seq true then m
            else m.exposureMark c f.seq false
          m.raiseCtx 0x0105 c 0 f.seq.toNat 0 0
        else m
      match (m.port c).frame with
      | none => m
      | some f =>
        let full := (m.laneFrame c f.seq).isSome && 2 ≤ m.queuedLines c && f.lines < (m.geom c).2
        m.setFrame c (some { f with
          lineAt := some t, open_ := some ⟨full⟩
          periods := match f.lineAt with | some a => mergeRange f.periods (t - a) | none => f.periods
          hblank := if f.lineAt.isNone then f.hblank else some (match f.hblank with
            | some b => min b hblank | none => hblank) })

/-- PORT_LINE_END: the inactive edge in LEVEL mode, the last of the line's pixels in PULSE mode; a PULSE line that lacks
pixels stays open for the next edge to close (R40, R49). -/
def portLineEnd (p : PortId) (_t : Nat) (pixels : List W16) (m : Module) : Module :=
  if m.bit (CAP_PORT_CFG p) CAP_PORT_CFG_hsync_mode && !m.lineTaken p pixels then m else m.closeLine p pixels false false

/-! ### Measurement (R53, R66) -/

/-- Write a stamp into its three registers (R66). -/
def Module.wrStamp (m : Module) (p i : Nat) (s : Option Stamp) : Module :=
  match s with
  | none => ((m.wr (CAP_MEAS_STAMP_NS p i) 0).wr (CAP_MEAS_STAMP_SL p i) 0).wr (CAP_MEAS_STAMP_SH p i) 0
  | some s =>
    ((m.wr (CAP_MEAS_STAMP_NS p i) s.ns).wr (CAP_MEAS_STAMP_SL p i) (BitVec.ofNat 32 s.sec)).wr
      (CAP_MEAS_STAMP_SH p i) (BitVec.ofNat 32 (s.sec / 2 ^ 32 % 65536 + 65536 * s.valid.toNat + 131072))

/-- A read of CAP_MEAS_SEQ copies the measurement set into the readable registers (R53); before any frame end nothing is
measured. Widths, line periods and the horizontal blanking of a frame too short to have them read 0, a DESIGN CHOICE
(assumption log 84). -/
def Module.measCopy (m : Module) (p : Nat) : Module :=
  match (m.port p).meas with
  | none => m
  | some e =>
    let f := e.frame
    let w := f.widths.getD (0, 0)
    let l := f.periods.getD (0, 0)
    let m := (m.wr (CAP_MEAS_SEQ p) f.seq).wr (CAP_MEAS_LINE p)
      (BitVec.ofNat 32 (min w.2 65535 * 65536 + min w.1 65535))
    let m := (m.wr (CAP_MEAS_FRAME p) (BitVec.ofNat 32 (measFrame f))).wr (CAP_MEAS_PERIOD p)
      (BitVec.ofNat 32 (min f.period 0xFFFFFFFF))
    let m := m.wr (CAP_MEAS_LPERIOD p) (BitVec.ofNat 32 (min l.2 65535 * 65536 + min l.1 65535))
    let m := (m.wr (CAP_MEAS_BLANK p) (BitVec.ofNat 32 (min (f.hblank.getD 0) 65535))).wr (CAP_MEAS_VBLANK p)
      (BitVec.ofNat 32 (min f.vblank 0xFFFFFFFF))
    (((m.wrStamp p 0 (some f.sof)).wrStamp p 1 (some e.eof)).wrStamp p 2 f.strobes[0]?).wrStamp p 3 f.strobes[1]?

/-! ### STROBE (R59) -/

/-- Attach a STROBE stamp to a frame: the first two edges, then STROBE_OVF. -/
def PortFrame.strobe (f : PortFrame) (s : Stamp) : PortFrame :=
  if f.strobes.length < 2 then { f with strobes := f.strobes ++ [s] } else f.flag flStrobeOvf

/-- STROBE_EDGE: an active edge belongs to the frame that started last, also after its end (R59). -/
def strobeEdge (p : PortId) (m : Module) : Module :=
  let c := p.val
  if m.portState c < 2 || !m.bit (CAP_PORT_CFG c) CAP_PORT_CFG_strobe_en then m
  else
    let m := m.tick
    let x := m.port c
    match x.frame with
    | some f => m.setFrame c (some (f.strobe (m.stamp f.seq)))
    | none => match x.meas with
      | none => m
      | some e =>
        if m.startedSeq c ≠ e.frame.seq then m
        else
          let e := { e with frame := e.frame.strobe (m.stamp e.frame.seq) }
          let m := m.setPort c { x with meas := some e }
          m.adjustLane c e.frame.seq fun g => { g with ended := g.ended.map fun _ => e }

/-! ### TRIG (R56, R57) -/

/-- TRIG is driven in READY, TRAINING and ACTIVE (R44). -/
def Module.trigMode (m : Module) (p : Nat) : Nat := if m.portState p < 2 then 0 else m.fld (CAP_TRIG_CFG p) CAP_TRIG_CFG_mode

/-- The table's limit on width_us (R65, R526): below the period of the mode written, the free-run period counting too
where NET_TIME may free-run (assumption log 74). -/
def Module.trigWidthBad (m : Module) (p : Nat) (v : Word) : Bool :=
  let w := CAP_TRIG_CFG_width_us.of v
  let mode := CAP_TRIG_CFG_mode.of v
  (mode = 1 || mode = 2 && CAP_TRIG_CFG_allow_free_run.of v = 1) && m.fld (CAP_TRIG_DIV p) CAP_TRIG_DIV_div ≤ 600 * w ||
    mode = 2 && m.fld (CAP_TRIG_PERIOD p) CAP_TRIG_PERIOD_period_ns ≤ 1000 * w

/-- A write of CAP_TRIG_CFG: NET_TIME latches the start time when the mode is entered (R56). -/
def Module.trigCfgWrite (m : Module) (p : Nat) (v : Word) : Module :=
  let old := m.fld (CAP_TRIG_CFG p) CAP_TRIG_CFG_mode
  let new := CAP_TRIG_CFG_mode.of v
  let m := m.wr (CAP_TRIG_CFG p) v
  if new = old then m
  else
    let m := m.tick
    let s := (m.rd (CAP_TRIG_START_SL p)).toNat + m.fld (CAP_TRIG_START_SH p) CAP_TRIG_START_SH_s_hi * 2 ^ 32
    let x := { m.port p with trigNet := none, trigFrom := m.now, trigLast := none, trigHigh := false }
    m.setPort p (if new = 2 then { x with trigStart := s * 1000000000 + (m.rd (CAP_TRIG_START_NS p)).toNat } else x)

/-- TRIG_FREE_RUN_PULSE: in FREE_RUN, or in NET_TIME with allow_free_run until gPTP has synchronised (R56, R57). -/
def trigFreeRunPulse (p : PortId) (m : Module) : Module :=
  let c := p.val
  let x := m.port c
  let mode := m.trigMode c
  if mode = 1 || mode = 2 && x.trigNet.isNone && !m.timeValid && m.bit (CAP_TRIG_CFG c) CAP_TRIG_CFG_allow_free_run then
    let m := m.tick
    m.setPort c { x with trigHigh := true, trigLast := some m.now }
  else m

/-- The scheduled time `at_` may be the first of a NET_TIME trigger: it lies after the mode was written, and at least one
period after the last free-run pulse, both as the time that really passes, which a step of the 802.1AS clock does not
change (R56, R57). -/
def Module.trigFirst (m : Module) (x : Port) (at_ period : Nat) : Bool :=
  let here : Int := (at_ : Int) - m.ptpOffset
  (x.trigFrom : Int) < here && match x.trigLast with
    | none => true
    | some l => (l : Int) + (period : Int) ≤ here

/-- TRIG_NET_TIME_PULSE: a scheduled 802.1AS time has come, the first that R56 and R57 allow or one after the last pulse;
once started the trigger keeps running. -/
def trigNetTimePulse (p : PortId) (m : Module) : Module :=
  let c := p.val
  let x := m.port c
  if m.trigMode c ≠ 2 || x.trigNet.isNone && !m.timeValid then m
  else
    let m := m.tick
    let period := max 1 (m.rd (CAP_TRIG_PERIOD c)).toNat
    let at_ := x.trigStart + (m.ptp - x.trigStart) / period * period
    let due : Bool := match x.trigNet with
      | some a => a < at_
      | none => m.trigFirst x at_ period
    if x.trigStart ≤ m.ptp && due then m.setPort c { x with trigHigh := true, trigNet := some at_ }
    else m

/-- TRIG_PULSE_END: TRIG returns to its inactive level (R56). -/
def trigPulseEnd (p : PortId) (m : Module) : Module := m.setPort p { m.port p with trigHigh := false }

/-! ### Training (R42, R43) -/

/-- A write of CAP_TRAIN_CTL: start is taken in READY alone and refused elsewhere; abort ends a training (R43). A run of
another kind ends with ABORTED when the port leaves READY (R155). With both bits set, start counts (DESIGN CHOICE, assumption
log 72). -/
def Module.trainCtl (m : Module) (p : Nat) (v : Word) : Nat × Module :=
  if CAP_TRAIN_CTL_start.of v = 1 then
    if m.portState p = 2 then
      let m := m.calAbort p
      (stOk, (m.setPortState p 3).wr (CAP_TRAIN_STAT p) (CAP_TRAIN_STAT_result.put 0 1))
    else (stRefused, m)
  else if CAP_TRAIN_CTL_abort.of v = 1 && m.portState p = 3 then
    let m := m.trainAbort p
    (stOk, m.calAbort p)
  else (stOk, m)

/-- The longest run of passing taps (R42): first tap and length; runs do not wrap. DESIGN CHOICE (assumption log 84): of equally
long runs the first. -/
def longestRun (l : List Bool) : Nat × Nat :=
  let s := (List.range l.length).foldl (fun (a : (Nat × Nat) × Nat) i =>
    if l[i]?.getD false then
      let n := a.2 + 1
      ((if a.1.2 < n then (i + 1 - n, n) else a.1), n)
    else (a.1, 0)) ((0, 0), 0)
  s.1

/-- What the sweep of a training finds (R42): a failing line with its eye, or the taps; and the narrowest eye. -/
def trainSweep (w : Nat) (table : List (List Bool)) : (Option Nat) × List Nat × Nat :=
  let runs := (List.range w).map fun j => longestRun (((table[j]?).getD []).take 128)
  let bad := (List.range w).find? fun j => ((runs[j]?).getD (0, 0)).2 < 12
  let seen := match bad with | some j => runs.take (j + 1) | none => runs
  (bad, runs.map fun r => (2 * r.1 + r.2 - 1) / 2, seen.foldl (fun a r => min a r.2) 128)

/-- Report the end of a training and return to READY. -/
def Module.trainEnd (m : Module) (p result line eye : Nat) : Module :=
  let w := CAP_TRAIN_STAT_min_eye.put (CAP_TRAIN_STAT_line.put (CAP_TRAIN_STAT_result.put 0 result) line) eye
  (m.wr (CAP_TRAIN_STAT p) w).setPortState p 2

/-- The calibration run that waits for this training gets its outcome (R145): taps, narrowest eye, sync tap. -/
def Module.trainResult (m : Module) (p : Nat) (x : List Nat × Nat × Nat) : Module :=
  match (m.cal p).run with
  | some r => if r.kind = 4 then m.setCal p { m.cal p with run := some { r with taps := some x } } else m
  | none => m

/-- A DESKEW run is in progress. -/
def Module.calDeskew (m : Module) (p : Nat) : Bool :=
  match (m.cal p).run with
  | some r => r.kind = 4
  | none => false

/-- TRAIN_NO_SIGNAL_TIMEOUT (R42). -/
def trainNoSignalTimeout (p : PortId) (m : Module) : Module :=
  if m.portState p = 3 then (m.trainEnd p 5 0 0).trainResult p ([], 0, 0) else m

/-- What a training pixel should be on data line j: pattern_a at the even places of a line, pattern_b at the odd ones
(R42); only the lines of the data width are looked at, which masks the patterns (R65). -/
def Module.trainWant (m : Module) (p : Nat) (odd : Bool) : W16 :=
  BitVec.ofNat 16 (m.fld (CAP_TRAIN_PAT p) (if odd then CAP_TRAIN_PAT_pattern_b else CAP_TRAIN_PAT_pattern_a))

/-- A data line passes at a tap when every pixel looked at has the wanted bit (R42). -/
def Module.tapOk (m : Module) (p j : Nat) (px : List (Bool × W16)) : Bool :=
  px.all fun x => x.2.getLsbD j = (m.trainWant p x.1).getLsbD j

/-- The sweep's table (R42): by data line and tap, over the first 4 096 active pixels taken at the tap. -/
def Module.trainTable (m : Module) (p w : Nat) (sweep : List (List (Bool × W16))) : List (List Bool) :=
  (List.range w).map fun j => sweep.map fun px => m.tapOk p j (px.take 4096)

/-- TRAIN_DONE: `sweep` has, for each tap from 0, the active pixels received with it, each with the parity of its place in
its line, and `verify` the 65 536 pixels of the verification; compared with the patterns they give the result (R42, R43).
Until the pixels of a phase have come the training goes on. A DESKEW run takes the taps as its result instead (R145). -/
def trainDone (p : PortId) (sweep : List (List (Bool × W16))) (verify : List (Bool × W16)) (m : Module) : Module :=
  if m.portState p ≠ 3 || sweep.length < 128 || sweep.any (·.length < 4096) then m
  else
    let w := dataBits (m.fld (CAP_PORT_CFG p) CAP_PORT_CFG_width)
    let table := m.trainTable p w (sweep.take 128)
    let verifyErrors := ((List.range w).filter fun j => !m.tapOk p j (verify.take 65536)).length
    let (bad, taps, eye) := trainSweep w table
    let sync := ((sortNat taps)[w / 2]?).getD 64
    match bad with
    | some j => (m.trainEnd p 3 j eye).trainResult p ([], eye, 0)
    | none =>
      if verify.length < 65536 then m
      else if verifyErrors ≠ 0 then (m.trainEnd p 4 0 eye).trainResult p ([], eye, 0)
      else
        let m := (m.trainEnd p 2 0 eye).trainResult p (taps, eye, sync)
        if m.calDeskew p then m else (m.writeTaps p taps sync).reportStored p

def execRstLowExpiry (p : PortId) (s : State) := ok s (rstLowExpiry p s.toModule)
def execRstSettleExpiry (p : PortId) (s : State) := ok s (rstSettleExpiry p s.toModule)
def execFrameStart (p : PortId) (t : Nat) (tail : List W16) (s : State) := ok s (frameStart p t tail s.toModule)
def execFrameEnd (p : PortId) (t : Nat) (tail : List W16) (s : State) := ok s (frameEnd p t tail s.toModule)
def execPortLineStart (p : PortId) (t hblank : Nat) (tail : List W16) (s : State) :=
  ok s (portLineStart p t hblank tail s.toModule)
def execPortLineEnd (p : PortId) (t : Nat) (pixels : List W16) (s : State) := ok s (portLineEnd p t pixels s.toModule)
def execPclkLossTimeout (p : PortId) (t : Nat) (pixels : List W16) (s : State) :=
  ok s (pclkLossTimeout p t pixels s.toModule)
def execFrameEndTimeout (p : PortId) (t : Nat) (tail : List W16) (s : State) :=
  ok s (frameEndTimeout p t tail s.toModule)
def execTrainNoSignalTimeout (p : PortId) (s : State) := ok s (trainNoSignalTimeout p s.toModule)
def execTrainDone (p : PortId) (sweep : List (List (Bool × W16))) (verify : List (Bool × W16)) (s : State) :=
  ok s (trainDone p sweep verify s.toModule)
def execTrigFreeRunPulse (p : PortId) (s : State) := ok s (trigFreeRunPulse p s.toModule)
def execTrigNetTimePulse (p : PortId) (s : State) := ok s (trigNetTimePulse p s.toModule)
def execTrigPulseEnd (p : PortId) (s : State) := ok s (trigPulseEnd p s.toModule)
def execStrobeEdge (p : PortId) (s : State) := ok s (strobeEdge p s.toModule)

end Sys2Proof.Machine
end

