-- ==== Sys2Proof/Machine/Lane.lean ====
section
/-!
DEFINITION. What leaves a lane (03_contexts_front_end R69 to R73, R93, R96, R101, R102; 04_neural_picture_stages R108 to
R113): lines into stripe slots, stripes, statistics records, the AE and AWB loops.
-/
namespace Sys2Proof.Machine

/-! ### Edge modes (R109) -/

/-- The coordinate that stands for one outside the picture: none for PAD. MIRROR states none for a distance beyond the
picture's far edge. -/
def edgeAt (mode n : Nat) (i : Int) : Option Nat :=
  if 0 ≤ i ∧ i < n then some i.toNat
  else if mode = 0 then some (if i < 0 then 0 else n - 1)
  else if mode = 1 then
    let k := if i < 0 then -i else 2 * ((n : Int) - 1) - i
    if 0 ≤ k ∧ k < n then some k.toNat else none
  else none

/-- A pixel in LIN16 or Y16 (R116). -/
def pixBytes (mono : Bool) (p : Pix) : List Byte :=
  if mono then leBytes 2 p.g else leBytes 2 p.r ++ leBytes 2 p.g ++ leBytes 2 p.b ++ leBytes 2 p.ir

/-- The PAD pixel (R109, R137). -/
def Module.padPix (m : Module) (c : Nat) : Pix :=
  let a := m.fld (NIS_PAD_A c)
  let b := m.fld (NIS_PAD_B c)
  if m.mono c then ⟨a NIS_PAD_A_ch0, a NIS_PAD_A_ch0, a NIS_PAD_A_ch0, 0⟩
  else ⟨a NIS_PAD_A_ch0, a NIS_PAD_A_ch1, b NIS_PAD_B_ch2, b NIS_PAD_B_ch3⟩

/-- A line with its 8 margin columns on each side (R109, R112). -/
def Module.lineBytes (m : Module) (c : Nat) (g : StripeGeom) (l : List Pix) : List Byte :=
  (List.range (g.w + 16)).flatMap fun (i : Nat) =>
    pixBytes (m.mono c) (match edgeAt g.edge g.w ((i : Int) - 8) with
      | some x => (l[x]?).getD (m.padPix c)
      | none => m.padPix c)

/-- A whole line of PAD pixels, or, for a MIRROR distance that the spec does not state, of free values (assumption
log 2). -/
def Module.edgeLine (m : Module) (c : Nat) (g : StripeGeom) : List Byte × Module :=
  let n := (g.w + 16) * g.bpp
  if g.edge = 1 then
    ((List.range n).map (fun i => (Config.value (m.draws + i)).setWidth 8), { m with draws := m.draws + n })
  else ((List.range (g.w + 16)).flatMap fun _ => pixBytes (m.mono c) (m.padPix c), m)

/-! ### Headers (R113) -/

/-- The fields of a stripe or output header. -/
structure HeadIn where
  seq : Word
  stripe : Nat
  lines : Nat
  psid : Word
  esid : Nat
  flags : Nat
  index : Word
  reused : Nat
  sof : Stamp

/-- The 64 bytes of a header (R113). -/
def headerBytes (x : HeadIn) : List Byte :=
  leBytes 4 x.seq.toNat ++ leBytes 2 x.stripe ++ leBytes 2 x.lines ++ leBytes 4 x.psid.toNat ++ leBytes 2 x.esid
    ++ leBytes 2 x.flags ++ leBytes 4 x.index.toNat ++ leBytes 4 x.reused ++ leBytes 6 x.sof.sec ++ leBytes 2 0
    ++ leBytes 4 x.sof.ns.toNat ++ leBytes 1 x.sof.valid.toNat ++ leBytes 27 0

/-- The header of stripe k of a frame in the lane. -/
def Module.stripeHead (m : Module) (c : Nat) (g : StripeGeom) (f : LaneFrame) (k : Nat) : List Byte :=
  let (esid, _, late, failed) := m.carried c f.seq
  let y0 := m.fld (FE_CROP_XY c) FE_CROP_XY_y0
  let held := (f.lines.drop (y0 + (k * g.h - g.a))).take (g.need k - (k * g.h - g.a))
  let flags := (held.any (·.padded)).toNat + 2 * (decide (k = 0)).toNat + 4 * (decide (k + 1 = g.count)).toNat
    + 16 * late.toNat + 32 * failed.toNat + 64 * f.lateWrite.toNat
  headerBytes ⟨f.seq, k, min g.h (g.lines - k * g.h), f.set.psid, esid, flags, f.index, 0, f.sof⟩

/-! ### Lines through the lane -/

/-- A frame that needs nothing more from the lane. -/
def Module.laneDone (m : Module) (c : Nat) (f : LaneFrame) : Bool :=
  f.ended.isSome && f.recorded && f.lines.length ≤ f.passed &&
    ((m.streams.find? c).isNone || (m.stripes c).count ≤ f.signalled)

/-- Drop the frames that are done. -/
def Module.laneTidy (m : Module) (c : Nat) : Module :=
  let x := m.ctx c
  m.setCtx c { x with frames := x.frames.filter fun f => !m.laneDone c f }

/-- Replace one frame of the lane. -/
def Module.putLane (m : Module) (c : Nat) (f : LaneFrame) : Module := m.adjustLane c f.seq fun _ => f

/-- LANE_LINE_START: the next whole line in the port's input queue enters the lane of its resident context; the first of
a frame makes the idle bank live, the first frame's too, for which no copy need have been made (DESIGN CHOICE, assumption
log 84); a calibration run accumulates its raw values, and fails when its region is gone (R69, R72,
R73, R143). -/
def laneLineStart (c : PortId) (m : Module) : Module :=
  if !m.resident c then m
  else match (m.ctx c).frames.find? (fun f => f.passed < f.lines.length) with
    | none => m
    | some f =>
      let st := FE_CTX_STAT c
      let m := if f.passed = 0 then m.setFld st FE_CTX_STAT_bank (1 - m.fld st FE_CTX_STAT_bank) else m
      let lane := laneOf c (m.fld st FE_CTX_STAT_lane)
      let m := m.wr (FE_LANE_LINES lane) (m.rd (FE_LANE_LINES lane) + 1)
      let m := match (m.cal c).run, f.lines[f.passed]? with
        | some r, some l =>
          if !(f.cal && r.sums) then m
          else if m.calNoRegion c r then m.calEnd c calBadRef none
          else m.calAddLine c f.passed l.px true
        | _, _ => m
      (m.adjustLane c f.seq fun g => { g with passed := g.passed + 1 }).laneTidy c

/-- How far from the pixel that it emits the demosaic reads (R91 to R93). -/
def LaneIn.radius (l : LaneIn) : Nat := if l.mosaic = 4 then 3 else if l.mosaic = 5 then 0 else 2

/-- A map entry whose replacement reads lines below it: every method but HORIZONTAL, which acts as MEDIAN for R and B of
RGB-IR (R88). -/
def LaneIn.mapBelow (l : LaneIn) (e : Word) : Bool :=
  mapMethod e ≠ 1 || (l.mosaic = 4 && (l.site (mapX e) (mapY e) = 0 || l.site (mapX e) (mapY e) = 2))

/-- The last input line that the corrected line y reads: the window of the demosaic; the neighbours of the dynamic test;
and those of the mapped defects on these lines, in the columns that the crop's window reads (R88, R89, R93; assumption
log 19). -/
def LaneIn.reach (l : LaneIn) (y : Nat) : Nat :=
  let near := if l.mosaic = 5 then 1 else 2
  let test := near * l.set.fld (FE_DPC_CFG l.c) FE_DPC_CFG_dyn_en
  let z := y + l.radius + test
  let r := l.radius + test
  let read := fun e => mapY e ≤ z && l.x0 ≤ mapX e + r && mapX e < l.x0 + l.cw + r
  (l.set.map l.c).foldl (fun a e => if read e && l.mapBelow e then max a (mapY e + near) else a) z

/-- The lines that must have entered the lane before crop line y leaves it (R93): input line y + 2, or y + 3 for RGB-IR, and
every line that its value reads. -/
def LaneIn.due (l : LaneIn) (y : Nat) : Nat :=
  min l.h (1 + max (l.reach (l.y0 + y)) (l.y0 + y + if l.mosaic = 4 then 3 else 2))

/-- Write an edge line of a slot: a line of the picture by REPLICATE or MIRROR, or PAD (R109, R110). -/
def Module.writeEdge (m : Module) (c : Nat) (g : StripeGeom) (base k j : Nat) (out : List (List Pix)) : Module :=
  let l : Int := (k * g.h : Nat) + (j : Int) - (g.a : Nat)
  if 0 ≤ l ∧ l < g.lines then m
  else match edgeAt g.edge g.lines l with
    | some y => m.write (base + 64 + j * g.pitch) (m.lineBytes c g ((out[y]?).getD []))
    | none =>
      let (b, m) := m.edgeLine c g
      m.write (base + 64 + j * g.pitch) b

/-- Write crop line y into the slot of stripe k when it holds the line; the last line that the stripe needs brings its
edge-mode lines and its header (R110, R113). -/
def Module.writeStripe (m : Module) (c : Nat) (g : StripeGeom) (region : Nat) (f : LaneFrame) (bal : List (List Pix))
    (y k : Nat) : Module :=
  let base := g.slotAt region f.index k
  let lo := k * g.h - g.a
  if y < lo || g.need k ≤ y then m
  else
    let m := m.write (base + 64 + (y + g.a - k * g.h) * g.pitch) (m.lineBytes c g ((bal[y]?).getD []))
    if y + 1 = g.need k then
      let m := (List.range (g.h + 2 * g.a)).foldl (fun m j => m.writeEdge c g base k j bal) m
      m.write base (m.stripeHead c g f k)
    else m

/-- A stripe slot that contains line y of a frame lies in a stack that is being zero filled: the line waits (R296, R527). -/
def Module.slotBusy (m : Module) (g : StripeGeom) (region : Nat) (f : LaneFrame) (y : Nat) : Bool :=
  (List.range g.count).any fun k => k * g.h - g.a ≤ y && y < g.need k &&
    m.spmBusy (g.slotAt region f.index k) (64 + (g.h + 2 * g.a) * g.pitch)

/-- LANE_OUTPUT_LINE: the next crop line leaves the lane, corrected (R83), white balanced (R94), and is written into
every stripe slot that contains it (R110). -/
def laneOutputLine (c : PortId) (m : Module) : Module :=
  if !m.resident c || (m.streams.find? c.val).isNone then m
  else
    let g := m.stripes c
    match (m.ctx c).frames.find? (fun f => f.out.length < g.lines) with
    | none => m
    | some f =>
      let l := m.laneIn c f.set ((f.lines.take f.passed).map LaneLine.px)
      let y := f.out.length
      if f.passed < l.due y then m
      else
        let f := { f with out := f.out ++ [l.cropLine y] }
        match m.region? (m.rd (NIS_IN_REGION c)) with
        | none => m.putLane c f
        | some r =>
          if m.slotBusy g r.base f y then m else
          let m := m.putLane c f
          let bal := f.out.map fun p => p.map (whiteBalance (m.mono c) f.set.wb)
          (List.range g.count).foldl (fun m k => m.writeStripe c g r.base f bal y k) m

/-- STRIPE_READY: every line of the next stripe has been written and acknowledged; its objects advance (R110, R111,
R20). -/
def stripeReady (c : PortId) (m : Module) : Module :=
  if (m.streams.find? c.val).isNone then m
  else
    let g := m.stripes c
    match (m.ctx c).frames.find? (fun f => f.signalled < g.count) with
    | none => m
    | some f =>
      if f.out.length < g.need f.signalled then m
      else
        let s := NIS_IN_SYNC c
        let m := m.addSync (m.fld s NIS_IN_SYNC_stripe_obj) 1
        let m := if f.signalled + 1 = g.count && m.bit s NIS_IN_SYNC_frame_en then
            m.addSync (m.fld s NIS_IN_SYNC_frame_obj) 1
          else m
        (m.putLane c { f with signalled := f.signalled + 1 }).laneTidy c

/-! ### Statistics records (R95, R96) -/

/-- STATS_RECORD_DONE: the record of the oldest frame whose last crop line has left the lane and which has ended is
written to its slot; its object advances; STATS_READY is raised; the loops receive it. -/
def statsRecordDone (c : PortId) (m : Module) : Module :=
  let n := m.fld (FE_CROP_WH c) FE_CROP_WH_h
  match (m.ctx c).frames.find? (fun f => !f.recorded) with
  | none => m
  | some f => match f.ended with
    | none => m
    | some e =>
      let busy := m.bit (FE_STAT_CFG c) FE_STAT_CFG_en && match m.region? (m.rd (FE_STAT_DEST c)) with
        | some r => m.spmBusy r.base r.size
        | none => false
      if f.out.length < n || busy then m
      else
        let (esid, v, late, failed) := m.carried c f.seq
        let flags := e.frame.flags + 512 * late.toNat + 1024 * failed.toNat
        let l := m.laneIn c f.set (f.lines.map LaneLine.px)
        let cfg := FE_STAT_CFG c
        let slot := f.seq.toNat % max 1 (m.fld cfg FE_STAT_CFG_slots)
        let zs := zonesOf f.out l.cw l.ch
        let ok := zs.filter (·.sat = 0)
        let sum := fun (z : Zone → Nat) => (ok.map z).sum
        let mean := (roundMean ((zs.map (·.g)).sum * 64 : Nat) (max 1 (l.cw * l.ch))).toNat
        let x := m.ctx c
        let m := m.setCtx c { x with lastRec := some ⟨f.seq, flags, f.set, v, mean, (sum (·.r), sum (·.g), sum (·.b)),
          false, false⟩ }
        let m := (m.putLane c { f with recorded := true }).laneTidy c
        if !m.bit cfg FE_STAT_CFG_en then m
        else
          let m := match m.region? (m.rd (FE_STAT_DEST c)) with
            | some r =>
              if (slot + 1) * 8192 ≤ r.size then m.write (r.base + slot * 8192) (statBytes l f e esid flags v) else m
            | none => m
          let m := if m.bit cfg FE_STAT_CFG_sync_en then m.addSync (m.fld cfg FE_STAT_CFG_sync_obj) 1 else m
          if m.bit cfg FE_STAT_CFG_notify then
            m.raiseCtx 0x0201 c slot f.seq.toNat (esid + 65536 * flags) f.set.psid.toNat
          else m

/-! ### The loops (R101, R102) -/

/-- The nearest whole number to n / d, halves upwards. -/
def roundDiv (n d : Nat) : Nat := (2 * n + d) / (2 * max 1 d)

/-- The next exposure set from a record (R101): E' is num / den; a gain code is at least 1 (assumption log 20). -/
def aeStep (target mean unit linesMax againMax dgainMax : Nat) (v : ExpVals) : ExpVals :=
  -- r = rn / rd, between 1/2 and 2
  let (rn, rd) := if mean = 0 ∨ 2 * mean ≤ target then (2, 1) else if 2 * target ≤ mean then (1, 2) else (target, mean)
  let unit := max 1 unit
  let num := v.lines * v.again * v.dgain * rn
  let den := unit * unit * rd
  let lines := max 1 (min linesMax (num / den))
  let again := max 1 (min againMax (roundDiv (num * unit) (den * lines)))
  let dgain := max 1 (min dgainMax (roundDiv (num * unit * unit) (den * lines * again)))
  ⟨lines, again, dgain, v.trim⟩

/-- The flags of a record from which AE does not update (R101): SHORT, LONG, SIGNAL_LOST, EXP_FAILED. -/
def aeSkips (flags : Nat) : Bool := flags &&& 0b10000100011 ≠ 0

/-- AE_UPDATE: the loop takes the last record and forms the set of the next frame start. FE_AE_CFG and FE_AE_GAIN come
from the current set, which is no longer that of the record's frame (DESIGN CHOICE, assumption log 84). -/
def aeUpdate (c : PortId) (m : Module) : Module := m.firmware fun m =>
  let x := m.ctx c
  match x.lastRec with
  | none => m
  | some r =>
    if r.aeDone || !m.bit (FE_EXP_CFG c) FE_EXP_CFG_ae_en then m
    else
      let x := { x with lastRec := some { r with aeDone := true } }
      if aeSkips r.flags then m.setCtx c x
      else
        let s := x.current
        let v := aeStep (s.fld (FE_AE_CFG c) FE_AE_CFG_target) r.meanG (m.fld (FE_EXP_CFG c) FE_EXP_CFG_gain_unit)
          (s.fld (FE_AE_CFG c) FE_AE_CFG_lines_max) (s.fld (FE_AE_GAIN c) FE_AE_GAIN_again_max)
          (s.fld (FE_AE_GAIN c) FE_AE_GAIN_dgain_max) r.vals
        m.setCtx c { x with aeNext := some v }

/-- A target gain of R102: 4 096 × sum_g / sum, kept within 1 to 65 535; a sum of 0 gives the largest (assumption
log 20). -/
def awbTarget (g s : Nat) : Nat := if s = 0 then 65535 else max 1 (min 65535 (roundDiv (4096 * g) s))

/-- One step of a loop gain (R102). -/
def awbStep (g t : Nat) : Nat := (clampI 0 65535 ((g : Int) + roundMean ((t : Int) - g) 4)).toNat

/-- AWB_UPDATE: the loop gains for the next copy. -/
def awbUpdate (c : PortId) (m : Module) : Module := m.firmware fun m =>
  let x := m.ctx c
  match x.lastRec with
  | none => m
  | some r =>
    if r.awbDone || !m.bit (FE_EXP_CFG c) FE_EXP_CFG_awb_en then m
    else
      let g := fun i => (x.loopWb[i]?).getD 4096
      m.setCtx c { x with
        lastRec := some { r with awbDone := true }
        loopWb := [awbStep (g 0) (awbTarget r.sums.2.1 r.sums.1), 4096,
          awbStep (g 2) (awbTarget r.sums.2.1 r.sums.2.2)] }

def execLaneLineStart (c : PortId) (s : State) := ok s (laneLineStart c s.toModule)
def execLaneOutputLine (c : PortId) (s : State) := ok s (laneOutputLine c s.toModule)
def execStripeReady (c : PortId) (s : State) := ok s (stripeReady c s.toModule)
def execStatsRecordDone (c : PortId) (s : State) := ok s (statsRecordDone c s.toModule)
def execAeUpdate (c : PortId) (s : State) := ok s (aeUpdate c s.toModule)
def execAwbUpdate (c : PortId) (s : State) := ok s (awbUpdate c s.toModule)

end Sys2Proof.Machine
end

