-- ==== Sys2Proof/Machine/Wire.lean ====
section
/-!
DEFINITION. Frames as bytes (R7, R375, R376, R416, R425): headers in network byte order, as the module writes and reads
them. The layouts of IEEE 802.3, 802.1Q, 802.1CB and 1722 and of RFC 768 and 791 are PRESUMED (assumption log 86).
-/
namespace Sys2Proof.Machine

/-- A field of a header in network byte order: `n` bytes at offset `o` (R7). -/
def headAt (b : List Byte) (o n : Nat) : Nat := ofBe ((b.drop o).take n)

/-! ### The header of YWP (R376) -/

/-- The 24-byte header of a message that node `src` sends (R376). -/
def Msg.header (src : W16) (x : Msg) : List Byte :=
  [x.version, x.type] ++ beBytes 2 (x.resp.toNat + 2 * x.ackReq.toNat) ++ beBytes 2 src.toNat ++ beBytes 2 x.dst.toNat
    ++ beBytes 2 x.session.toNat ++ beBytes 2 x.payload.length ++ beBytes 4 x.seq.toNat ++ beBytes 2 x.status.toNat
    ++ beBytes 2 x.retryMs.toNat ++ beBytes 4 x.epoch.toNat

/-- A message as node `src` sends it: the header in network byte order, the payload as it is (R376). -/
def Msg.wire (src : W16) (x : Msg) : List Byte := x.header src ++ x.payload

/-- What a received message's header says, for the rows that act on it (R376). -/
def headerOf (port : Fin 2) (peer : Peer) (dmac : Nat) (b : List Byte) : Hdr :=
  { port := port, peer := peer, dmac := dmac, version := BitVec.ofNat 8 (headAt b 0 1)
    resp := (headAt b 2 2).testBit 0, ackReq := (headAt b 2 2).testBit 1
    src := BitVec.ofNat 16 (headAt b 4 2), dst := BitVec.ofNat 16 (headAt b 6 2)
    session := BitVec.ofNat 16 (headAt b 8 2), seq := BitVec.ofNat 32 (headAt b 12 4)
    epoch := BitVec.ofNat 32 (headAt b 20 4) }

/-! ### Internet checksums (R375) -/

/-- The sum of the 16-bit words of some bytes. -/
def wordSum (l : List Byte) : Nat :=
  match l with
  | [] => 0
  | [a] => a.toNat * 256
  | a :: b :: t => a.toNat * 256 + b.toNat + wordSum t

/-- A sum folded to 16 bits with its carries. -/
def fold16 (n : Nat) : Nat :=
  let a := n % 65536 + n / 65536
  a % 65536 + a / 65536

/-- What a UDP checksum covers: the pseudo header of two addresses, then the datagram. -/
def udpSum (src dst : Nat) (udp : List Byte) : Nat :=
  fold16 (wordSum (beBytes 4 src ++ beBytes 4 dst ++ beBytes 2 17 ++ beBytes 2 udp.length ++ udp))

/-! ### Sent frames -/

/-- The lowest PCP of a class on a port (R416); 0 when no PCP has the class. -/
def Module.pcpOf (m : Module) (p cls : Nat) : Nat :=
  ((List.range 8).find? fun k => bitsOf (m.fld (NET_PCP_MAP p) NET_PCP_MAP_map) (3 * k + 2) (3 * k) = cls).getD 0

/-- A port's own IPv4 address (R375, R441). -/
def Module.ownIp (m : Module) (p : Nat) : Nat := (m.rd (if p = 0 then YWP_IPV4_A else YWP_IPV4_B)).toNat

/-- An IEEE 802.1Q tag and an R-TAG before an EtherType. -/
def tagBytes (tag : Option (Nat × Nat)) (rtag : Option Nat) : List Byte :=
  (match tag with
    | some (pcp, vid) => beBytes 2 0x8100 ++ beBytes 2 (pcp * 8192 + vid)
    | none => []) ++
  match rtag with
    | some n => beBytes 2 0xF1C1 ++ beBytes 2 0 ++ beBytes 2 n
    | none => []

/-- A UDP datagram in its IPv4 packet: no options, DF set (R375). Identification, TTL, source port and checksum are open;
a checksum is 0 or right. -/
def ipPacket (src dst port : Nat) (data : List Byte) : List Byte :=
  let head := fun (sum : Nat) => beBytes 2 (Config.ipField 2) ++ beBytes 2 port ++ beBytes 2 (8 + data.length) ++ beBytes 2 sum
  let sum := if Config.ipField 3 % 2 = 0 then 0 else 65535 - udpSum src dst (head 0 ++ data)
  let ip := fun (check : Nat) => [0x45, 0] ++ beBytes 2 (28 + data.length) ++ beBytes 2 (Config.ipField 0) ++ beBytes 2 0x4000
    ++ beBytes 1 (Config.ipField 1) ++ [17] ++ beBytes 2 check ++ beBytes 4 src ++ beBytes 4 dst
  ip (65535 - fold16 (wordSum (ip 0))) ++ head sum ++ data

/-- The AVTP stream header and the RVF header of a frame, 32 B (R425): sv and tv, stream ID, timestamp, size, the line
carried, and codes of depth and format, which are open. -/
def AvtpFrame.header (mac uid : Nat) (f : AvtpFrame) : List Byte :=
  [0x07, BitVec.ofNat 8 (0x80 + f.tv.toNat)] ++ beBytes 1 f.seqNum ++ [0] ++ beBytes 6 mac ++ beBytes 2 uid
    ++ beBytes 4 f.timestamp.toNat ++ beBytes 2 f.width ++ beBytes 2 f.height ++ beBytes 2 (10 + f.bytes.length)
    ++ beBytes 2 (Config.rvfCode f.format 0) ++ beBytes 6 (Config.rvfCode f.format 1) ++ beBytes 2 f.line

/-- An AVTP frame from its destination MAC to its line bytes, without the FCS (R425). -/
def Module.avtpBytes (m : Module) (f : AvtpFrame) : List Byte :=
  let hi := NET_TLK_DMAC_HI f.talker
  let dmac := (m.rd (NET_TLK_DMAC_LO f.talker)).toNat + m.fld hi NET_TLK_DMAC_HI_dmac * 2 ^ 32
  beBytes 6 dmac ++ beBytes 6 (m.portMac 0)
    ++ tagBytes (some (m.fld hi NET_TLK_DMAC_HI_pcp, m.fld hi NET_TLK_DMAC_HI_vid)) f.rtag ++ beBytes 2 0x22F0
    ++ f.header (m.portMac 0) (m.fld (NET_TLK_CFG f.talker) NET_TLK_CFG_uid) ++ leBytes 2 (f.line % 8192) ++ f.bytes

/-- A YWP message as a frame (R375, R376, R439): directly, or in a UDP datagram to an address whose MAC the network tells. -/
def Module.ywpBytes (m : Module) (port : Fin 2) (dest : Peer) (vid rtag : Option Nat) (tclass : Nat) (x : Msg) :
    List Byte :=
  let tags := tagBytes (vid.map fun v => (m.pcpOf port.val tclass, v)) rtag
  let smac := beBytes 6 (m.portMac port.val)
  match dest with
  | .mac a => beBytes 6 a ++ smac ++ tags ++ beBytes 2 (m.fld YWP_CFG YWP_CFG_ethertype) ++ x.wire m.node
  | .ip a => beBytes 6 (Config.arpMac a.toNat) ++ smac ++ tags ++ beBytes 2 0x0800
      ++ ipPacket (m.ownIp port.val) a.toNat (m.fld YWP_UDP YWP_UDP_port) (x.wire m.node)

/-- What leaves on a network port, byte by byte, without the FCS; nothing for the other interfaces. -/
def Module.frameBytes (m : Module) (o : Out) : List Byte :=
  match o with
  | .ywp port dest vid rtag tclass x => m.ywpBytes port dest vid rtag tclass x
  | .avtp _ f => m.avtpBytes f
  | _ => []

/-- The bytes of a frame with its FCS (R425). -/
def Module.frameLen (m : Module) (o : Out) : Nat := (m.frameBytes o).length + 4

/-! ### Received frames (R375) -/

/-- The message in the UDP datagram of an IPv4 packet, with the source address: no options, no fragment, the port's address,
the YWP port, checksums right; a UDP checksum of 0 is taken (R375). -/
def Module.datagram (m : Module) (port : Fin 2) (b : List Byte) : Option (Peer × List Byte) :=
  let n := headAt b 2 2
  let udp := (b.take n).drop 20
  if headAt b 0 1 = 0x45 && 28 ≤ n && n ≤ b.length && headAt b 6 2 % 0x4000 = 0 && headAt b 9 1 = 17 &&
      fold16 (wordSum (b.take 20)) = 65535 && headAt b 16 4 = m.ownIp port.val && m.ownIp port.val ≠ 0 &&
      headAt udp 2 2 = m.fld YWP_UDP YWP_UDP_port && headAt udp 4 2 = n - 20 &&
      (headAt udp 6 2 = 0 || udpSum (headAt b 12 4) (headAt b 16 4) udp = 65535) then
    some (.ip (BitVec.ofNat 32 (headAt b 12 4)), udp.drop 8)
  else none

/-- The message in a frame of either enabled form, behind a tag and an R-TAG where they stand, with its source address
(R375, R439, R441). -/
def Module.ywpIn (m : Module) (port : Fin 2) (f : List Byte) : Option (Peer × List Byte) :=
  let o := if headAt f 12 2 = 0x8100 then 16 else 12
  let o := if headAt f o 2 = 0xF1C1 then o + 6 else o
  let type := headAt f o 2
  if type = m.fld YWP_CFG YWP_CFG_ethertype && m.formOn false then some (.mac (headAt f 6 6), f.drop (o + 2))
  else if type = 0x0800 && m.formOn true then m.datagram port (f.drop (o + 2))
  else none

/-- A message type that R377 calls reserved. -/
def reservedType (t : Nat) : Bool := t = 0 || 0x09 ≤ t && t ≤ 0x0F || 0x15 ≤ t && t ≤ 0x1F || 0x21 ≤ t

/-- A YWP message is discarded in silence (R378): it is shorter than its header and length, addressed to another node, or
broadcast and no WAKE, its type is reserved, or RESP is set on a type that only the module sends (NOTIFY). -/
def Module.discardsMsg (m : Module) (b : List Byte) : Bool :=
  let type := headAt b 1 1
  let dst := headAt b 6 2
  b.length < 24 || b.length < 24 + headAt b 10 2 || dst ≠ m.node.toNat && dst ≠ 0xFFFF || dst = 0xFFFF && type ≠ 0x08
    || reservedType type || type = 0x06 && (headAt b 2 2).testBit 0

/-- A frame is discarded: it carries no message in an accepted form, its destination MAC is not the module's, or its message
is (R375, R378, R439). -/
def Module.discards (m : Module) (port : Fin 2) (f : List Byte) : Bool :=
  match m.ywpIn port f with
  | none => true
  | some (_, b) => !m.macFor port.val (headAt f 0 6) (headAt b 1 1 = 0x08) || m.discardsMsg b

end Sys2Proof.Machine
end

