-- ==== Sys2Proof/Machine/Window.lean ====
section
/-!
DEFINITION. Sending through local windows (R24, R418, R430 to R434): bindings, WIN_WRITE and WIN_READ, and the transmit
queue of a stream's frames.
-/
namespace Sys2Proof.Machine

/-- The binding of local window w while accesses may use it: an UNBIND stops them at once (R430, R435). -/
def Module.binding? (m : Module) (w : Nat) : Option Binding :=
  match m.binds.find? w with
  | some b => if b.unbinding.isNone then some b else none
  | none => none

/-- An access to a local window fails at once: not bound, beyond the binding's size, or a read through a multicast
binding (R24, R434). -/
def Module.windowBad (m : Module) (w off n : Nat) (read : Bool) : Bool :=
  match m.binding? w with
  | none => true
  | some b => b.size < off + n || read && b.receivers.length ≠ 1

/-- An access of an engine or a control core to a local window fails at once: as any other, and through a multicast binding
(R434). -/
def Module.coreBad (m : Module) (w off n : Nat) : Bool := m.windowBad w off n true

/-- The window is bound for multicast (R430). -/
def Module.multicast (m : Module) (w : Nat) : Bool :=
  match m.binding? w with
  | none => false
  | some b => b.receivers.length ≠ 1

/-- Flags of WIN_BIND (R430). -/
def Binding.udp (b : Binding) : Bool := b.flags.getLsbD 0
def Binding.replicate (b : Binding) : Bool := b.flags.getLsbD 1
def Binding.port (b : Binding) : Fin 2 := if b.flags.getLsbD 2 then 1 else 0
def Binding.arrive (b : Binding) : Bool := b.flags.getLsbD 3

/-- Where the messages of a binding to a receiver go (R439): the node address, or the bound IPv4 address. -/
def Binding.peer (b : Binding) (r : Receiver) : Peer := if b.udp then .ip r.ip else .mac (nodeMac r.node)

/-! ### Network ports and channels -/

/-- A port at rest. -/
def NetPort.rest : NetPort := ⟨[], [], [], [], none, 0, false, 0, true⟩

/-- A network port. -/
def Module.netPort (m : Module) (p : Nat) : NetPort := SMap.get NetPort.rest m.netPorts p

/-- Store a network port. -/
def Module.setNetPort (m : Module) (p : Nat) (x : NetPort) : Module :=
  { m with netPorts := SMap.set NetPort.rest m.netPorts p x }

/-- A channel at rest. -/
def DmaCh.rest : DmaCh :=
  ⟨false, .free, .idle, 0, none, 0, 0, [], none, 0, false, 0, 0, false, false, []⟩

/-- A channel. -/
def Module.chan (m : Module) (ch : Nat) : DmaCh := SMap.get DmaCh.rest m.dma ch

/-! ### The transmit queue of a stream's frames (R14, R16, R418) -/

/-- The stream whose output or delivery a channel carries. -/
def DmaOwner.stream (o : DmaOwner) : Option PortId :=
  match o with
  | .plan (.output c _ _ _) => some c
  | .plan (.delivery c _ _ _) => some c
  | .plan (.avtp x) => some x.c
  | _ => none

/-- The stream whose frames the messages of a window access are (R418). -/
def Module.useStream (m : Module) (use : WinUse) : Option PortId :=
  match use with
  | .dmaWrite ch _ _ => (m.chan ch.val).owner.stream
  | _ => none

/-- Bytes in a port's transmit queue (R14): frames that wait for their window, and those of the window that is open. -/
def Module.txBytes (m : Module) (p : Nat) : Nat :=
  let x := m.netPort p
  ((x.txq ++ ((x.windowOpen.map (·.2)).getD [])).map fun f => m.frameLen f.out).sum

/-- Frames fit the transmit queues of their ports (R14). -/
def Module.txRoom (m : Module) (l : List (Fin 2 × Out)) : Bool :=
  l.all fun o => m.txBytes o.1.val + m.frameLen o.2 ≤ 65536

/-- Queue frames of a stream, each on its port, for the first window that opens after (R418). -/
def Module.txQueue (m : Module) (c : PortId) (l : List (Fin 2 × Out)) : Module :=
  l.foldl (fun m o =>
    let x := m.netPort o.1.val
    m.setNetPort o.1.val { x with txq := x.txq ++ [PlanFrame.mk c o.2] }) m

/-- The class of a window access' messages: of its stream (R418), or of the binding. -/
def Module.classFor (m : Module) (use : WinUse) (tclass : Nat) : Nat :=
  match (m.useStream use).bind fun c => m.streams.find? c.val with
  | some s => s.setup.tclass
  | none => tclass

/-- Hand a window message to its ports: a stream's waits for its window (R418), any other leaves (R441). -/
def Module.winHand (m : Module) (use : WinUse) (port : Fin 2) (dest : Peer) (replicate : Bool) (tclass : Nat) (x : Msg) :
    Module :=
  match m.useStream use with
  | none => m.originate port dest replicate tclass x
  | some c =>
    if m.formOn dest.udp then
      let (l, m) := m.frames port dest replicate (m.classFor use tclass) x
      m.txQueue c l
    else m

/-- A window message of this access finds room: only a stream's waits in a queue (R16). -/
def Module.winRoom (m : Module) (use : WinUse) (port : Fin 2) (dest : Peer) (replicate : Bool) (tclass : Nat) (x : Msg) :
    Bool :=
  (m.useStream use).isNone || m.txRoom (m.frames port dest replicate (m.classFor use tclass) x).1

/-! ### Messages to one receiver -/

/-- A window message to a receiver (R431). -/
def Module.winMsg (m : Module) (r : Receiver) (type : Nat) (ackReq : Bool) (payload : List Byte) : Msg :=
  ⟨0x10, BitVec.ofNat 8 type, false, ackReq, r.node, 0, m.winSeq, 0, 0, r.epoch, payload⟩

/-- Send a window message to a receiver of a binding, and keep it until it is answered (R431, R432). -/
def Module.winSend (m : Module) (w : Fin 64) (b : Binding) (r : Receiver) (type : Nat) (off len : Nat)
    (payload : List Byte) (use : WinUse) : Module :=
  let x := m.winMsg r type true payload
  let o : WinOut := ⟨r.node, 0, m.winSeq, b.port, b.peer r, b.tclass, some w, off, len, x, 0, use⟩
  let m := { m with
    winSeq := m.winSeq + 1
    winOut := m.winOut ++ [o]
    binds := m.binds.adjust w.val fun b => { b with transfers := b.transfers + 1 } }
  m.winHand use b.port (b.peer r) b.replicate b.tclass x

/-- The payload of a unicast write to a receiver, ARRIVE when it is the last of a descriptor of such a binding (R433). -/
def Receiver.write (r : Receiver) (off : Nat) (data : List Byte) (arrive : Bool) : List Byte :=
  winWritePayload r.window.toNat r.gen.toNat (if arrive then 2 else 0) 0 0 off data

/-- A unicast write through a local window. -/
def Module.winWriteTo (m : Module) (w : Fin 64) (off : Nat) (data : List Byte) (arrive : Bool) (use : WinUse) :
    Module :=
  match m.binding? w.val with
  | none => m
  | some b => match b.receivers with
    | [] => m
    | r :: _ => m.winSend w b r 0x10 off data.length (r.write off data arrive) use

/-- Such a write finds room in the transmit queue (R16). -/
def Module.writeRoom (m : Module) (w : Fin 64) (off : Nat) (data : List Byte) (use : WinUse) : Bool :=
  match m.binding? w.val with
  | none => true
  | some b => match b.receivers with
    | [] => true
    | r :: _ => m.winRoom use b.port (b.peer r) b.replicate b.tclass (m.winMsg r 0x10 true (r.write off data false))

/-- The payload of a read from a receiver (R431). -/
def Receiver.read (r : Receiver) (off len : Nat) : List Byte :=
  leBytes 2 r.window.toNat ++ leBytes 2 r.gen.toNat ++ leBytes 4 len ++ leBytes 8 off

/-- A read through a local window (R431). -/
def Module.winReadFrom (m : Module) (w : Fin 64) (off len : Nat) (use : WinUse) : Module :=
  match m.binding? w.val with
  | none => m
  | some b => match b.receivers with
    | [] => m
    | r :: _ => m.winSend w b r 0x11 off len (r.read off len) use

/-- A read through a local window that is answered within the same step (R432). -/
def Module.askWindow (m : Module) (w : Fin 64) (off len : Nat) (answered : Bool) : Module :=
  match m.binding? w.val with
  | none => m
  | some b => match b.receivers with
    | [] => m
    | r :: _ => { m with winSeq := m.winSeq + 1 }.request b.port (b.peer r) b.replicate b.tclass
        (m.winMsg r 0x11 true (r.read off len)) answered

/-- An unacknowledged write of the module overlaps these bytes of the window (R432). -/
def Module.winOverlap (m : Module) (w : Fin 64) (off len : Nat) : Bool :=
  m.winOut.any fun x => x.window = some w && x.msg.type = 0x10 && x.off < off + len && off < x.off + x.len

/-- The outstanding message with this node, session field and seq. -/
def Module.winFind (m : Module) (node session : W16) (seq : Word) : Option WinOut :=
  m.winOut.find? fun x => x.node = node ∧ x.session = session ∧ x.seq = seq

/-- Drop an outstanding message; its binding has one transfer less. -/
def Module.winDrop (m : Module) (x : WinOut) : Module :=
  let m := { m with winOut := m.winOut.erase x }
  match x.window with
  | none => m
  | some w => { m with binds := m.binds.adjust w.val fun b => { b with transfers := b.transfers - 1 } }

end Sys2Proof.Machine
end

