-- ==== Sys2Proof/Machine/Engine.lean ====
section
/-!
DEFINITION. Engine positions and the two walkers of a task (06_engines_arithmetic, 07_engine_programs R193 to R211, R223
to R228; 08_streaming_tiling R239 to R243, R265): scalar instructions, loops, slots, fetches, write transfers, waits.
-/
namespace Sys2Proof.Machine

/-! ### Positions, names, tasks -/

/-- An idle position. -/
def Eng.rest : Eng := ⟨none, none, [], 0, 0, none, false, []⟩

/-- The number of a position. -/
def posKey (e : EngPos) : Nat := e.cl.val * 17 + e.x.val

/-- A position. -/
def Module.eng (m : Module) (e : EngPos) : Eng := SMap.get Eng.rest m.engines (posKey e)

/-- Store a position. -/
def Module.setEng (m : Module) (e : EngPos) (x : Eng) : Module :=
  { m with engines := SMap.set Eng.rest m.engines (posKey e) x }

/-- Store a position's task. -/
def Module.putTask (m : Module) (e : EngPos) (t : EngTask) : Module := m.setEng e { m.eng e with task := some t }

/-- The ENG_MAP field of a logical name. -/
def mapBits (n : Nat) : Bits :=
  match n % 4 with | 0 => ENG_MAP_phys0 | 1 => ENG_MAP_phys1 | 2 => ENG_MAP_phys2 | _ => ENG_MAP_phys3

/-- The position that holds a logical name (R162); 31 none. -/
def Module.physOf (m : Module) (cl n : Nat) : Nat := m.fld (ENG_MAP cl (n / 4)) (mapBits n)

/-- The position that holds a logical name, when one does. -/
def Module.posOf (m : Module) (cl : Fin 8) (n : Nat) : Option EngPos :=
  let p := m.physOf cl n
  if h : p < 17 then some ⟨cl, ⟨p, h⟩⟩ else none

/-- The logical name that a position holds (R192). -/
def Module.nameOf (m : Module) (e : EngPos) : Nat := m.fld (ENG_X_STAT e.cl e.x) ENG_X_STAT_logical

/-- The state of a position (R192): 1 IDLE, 2 RUNNING, 3 SPARE, 4 QUARANTINED, 5 OFFLINE. -/
def Module.engState (m : Module) (e : EngPos) : Nat := m.fld (ENG_X_STAT e.cl e.x) ENG_X_STAT_state
def Module.setEngState (m : Module) (e : EngPos) (v : Nat) : Module := m.setFld (ENG_X_STAT e.cl e.x) ENG_X_STAT_state v

/-- Set flags of ENG_X_ARITH, which are sticky (R192). -/
def Module.arith (m : Module) (e : EngPos) (f : Nat) : Module :=
  m.wr (ENG_X_ARITH e.cl e.x) (m.rd (ENG_X_ARITH e.cl e.x) ||| BitVec.ofNat 32 f)

/-- A walker at the first instruction of a variant (R194). -/
def WalkerSt.begin (pc : Nat) : WalkerSt :=
  ⟨pc, List.replicate 16 0, [], [none, none, none, none], 0, 0, none, false⟩

/-- A walker of a task. -/
def EngTask.walk (t : EngTask) (w : Walker) : WalkerSt := match w with | .execute => t.exec | .badger => t.badger

/-- Store a walker. -/
def EngTask.setWalk (t : EngTask) (w : Walker) (s : WalkerSt) : EngTask :=
  match w with | .execute => { t with exec := s } | .badger => { t with badger := s }

/-- Read transfers of a tile that have not returned: its window reads, and at least one until it has arrived (R243). -/
def Tile.outstanding (x : Tile) : Nat := if x.arrived then 0 else max 1 (x.holes.map (·.xfer)).eraseDups.length

/-- Every tile of a task. -/
def EngTask.tiles (t : EngTask) : List Tile :=
  t.qa ++ t.qb ++ t.qx ++ t.res.map (·.2) ++ (t.lib.map (·.2)).toList

/-- Read transfers outstanding for a task's tiles. -/
def EngTask.tilesOut (t : EngTask) : Nat := (t.tiles.map (·.outstanding)).sum

/-- Read transfers outstanding of a task: its tiles', cancelled ones and those that merges in windows wait for (R225,
R243). -/
def EngTask.readsOut (t : EngTask) : Nat := t.tilesOut + t.cancelled + (t.writes.filter (!·.needs.isEmpty)).length

/-- The engine stops a task at once (R189, R265, R268): nothing more is issued; queues, accumulators and row registers are
discarded, the resident area becomes invalid. -/
def Module.abortTask (m : Module) (e : EngPos) (a : Abort) : Module :=
  match (m.eng e).task with
  | none => m
  | some t =>
    if t.abort.isSome then m
    else
      let t := { t with abort := some a, writes := [], qa := [], qb := [], qx := [], res := [], acc := [], ra := [],
                        rb := [], lib := none, cancelled := t.cancelled + t.tilesOut }
      let m := m.setEng e { m.eng e with task := some t, sets := [] }
      if a.code = 0 then m
      else (m.setFld (ENG_X_STAT e.cl e.x) ENG_X_STAT_last_fault a.code).count (ENG_X_CNT_FAULT e.cl e.x) 1

/-- The fault codes of ENG_X_STAT (R192). -/
def efShape : Nat := 6
def efOverflow : Nat := 7

/-- REGION_OVERFLOW (R265). -/
def abOverflow : Abort := ⟨stRegionOverflow, efOverflow, false⟩

/-! ### The instruction word (R200, R203) -/

/-- `n` bytes at offset `o` of an instruction word. -/
def opnd (w o n : Nat) : Nat := w / 256 ^ o % 256 ^ n

/-- The loop counter of a level: 0 while the level is not open (R208). -/
def WalkerSt.counter (s : WalkerSt) (level : Nat) : Nat := ((s.loops.find? (·.level = level)).map (·.i)).getD 0

/-- A scalar register. -/
def WalkerSt.reg (s : WalkerSt) (i : Nat) : Word := (s.regs[i]?).getD 0

/-- A scalar source (R203). -/
def WalkerSt.source (s : WalkerSt) (b : Nat) : Word :=
  if b < 16 then s.reg b else BitVec.ofNat 32 (s.counter (b - 16))

/-- Write a scalar register. -/
def WalkerSt.setReg (s : WalkerSt) (i : Nat) (v : Word) : WalkerSt := { s with regs := setAt s.regs i v }

/-- The instruction after `pc`, with loop returns: where bodies end together the innermost level advances first (R208). -/
def nextPc (pc : Nat) (l : List LoopLevel) : Nat × List LoopLevel :=
  match l with
  | [] => (pc + 1, [])
  | x :: t =>
    if pc = x.last then
      if x.i + 1 < x.count then (x.top, { x with i := x.i + 1 } :: t) else nextPc pc t
    else (pc + 1, x :: t)

/-- Go on after the instruction at the walker's pc. -/
def WalkerSt.advance (s : WalkerSt) : WalkerSt :=
  let (pc, l) := nextPc s.pc s.loops
  { s with pc := pc, loops := l }

/-- The badger has not left a gate body, or the gate has been decided (R241). -/
def EngTask.gateOpen (t : EngTask) : Bool :=
  match t.badger.gate with
  | none => true
  | some (n, g, last) => (g < t.badger.pc && t.badger.pc ≤ last) || n < t.decisions.length

/-- The badger's gate is behind it once it has left the body. -/
def WalkerSt.leaveGate (s : WalkerSt) : WalkerSt :=
  match s.gate with
  | some (_, g, last) => if g < s.pc && s.pc ≤ last then s else { s with gate := none }
  | none => s

/-- Run the instruction at a walker's pc when it has the opcode: a walker that has ended, a task that is being aborted
and a badger that waits at the end of a gate body run nothing. -/
def Module.instr (m : Module) (e : EngPos) (w : Walker) (op : Nat)
    (f : Module → EngTask → WalkerSt → Nat → Module) : Module :=
  match (m.eng e).task with
  | none => m
  | some t =>
    let s := t.walk w
    let word := (t.code[s.pc]?).getD 0
    if t.abort.isSome || s.ended || opnd word 0 1 ≠ op || !(t.code[s.pc]?).isSome || (w = .badger && !t.gateOpen) then m
    else f m t s.leaveGate word

/-- Pass the instruction. -/
def Module.pass (m : Module) (e : EngPos) (w : Walker) (t : EngTask) (s : WalkerSt) : Module :=
  m.putTask e (t.setWalk w s.advance)

/-- An instruction of the execute walker alone: the badger passes it. -/
def Module.execOnly (m : Module) (e : EngPos) (w : Walker) (op : Nat)
    (f : Module → EngTask → WalkerSt → Nat → Module) : Module :=
  m.instr e w op fun m t s word => match w with
    | .badger => m.pass e w t s
    | .execute => f m t s word

/-- SWAIT, FENCE and CALL: the badger does not pass them until the execute walker has completed them (R195). -/
def Module.barrier (m : Module) (e : EngPos) (w : Walker) (op : Nat)
    (f : Module → EngTask → WalkerSt → Nat → Module) : Module :=
  m.instr e w op fun m t s word => match w with
    | .badger =>
      if s.barriers < t.exec.barriers then m.pass e w t { s with barriers := s.barriers + 1 } else m
    | .execute => f m t { s with barriers := s.barriers + 1 } word

/-- Every write of the task has been acknowledged. -/
def EngTask.acked (t : EngTask) : Bool := t.issued = 0 && t.writes.isEmpty

/-! ### Scalar instructions (R201 to R208) -/

/-- NOP (R201). -/
def engineNop (e : EngPos) (w : Walker) (m : Module) : Module := m.instr e w 0x00 fun m t s _ => m.pass e w t s

/-- END (R202): the walker stops; tiles still queued are discarded when the execute walker ends (R196). -/
def endOp (e : EngPos) (w : Walker) (m : Module) : Module :=
  m.instr e w 0x01 fun m t s _ => match w with
    | .badger => m.putTask e (t.setWalk w { s with ended := true })
    | .execute => m.putTask e { t.setWalk w { s with ended := true } with
        qa := [], qb := [], qx := [], keepF := none, keepV := none, keepW := none
        cancelled := t.cancelled + ((t.qa ++ t.qb ++ t.qx).map (·.outstanding)).sum }

/-- LOOP (R207, R208). -/
def loop (e : EngPos) (w : Walker) (m : Module) : Module :=
  m.instr e w 0x02 fun m t s i =>
    let n := if (opnd i 1 1).testBit 0 then (s.reg (opnd i 3 1)).toNat else opnd i 4 4
    let body := opnd i 8 2
    let s := if n = 0 then { s with pc := s.pc + body }.advance
      else { s with pc := s.pc + 1, loops := ⟨opnd i 2 1, n, 0, s.pc + 1, s.pc + body, s.regs⟩ :: s.loops }
    m.putTask e (t.setWalk w s)

/-- SETP (R204). -/
def setp (e : EngPos) (w : Walker) (m : Module) : Module :=
  m.instr e w 0x03 fun m t s i => m.pass e w t (s.setReg (opnd i 2 1) (BitVec.ofNat 32 (opnd i 4 4)))

/-- The ALU operations (R205). -/
def aluOp (op : Nat) (a b : Word) : Word :=
  match op with
  | 0 => a + b
  | 1 => a - b
  | 2 => a * b
  | 3 => a <<< (b.toNat % 32)
  | 4 => a >>> (b.toNat % 32)
  | 5 => a.sshiftRight (b.toNat % 32)
  | 6 => a &&& b
  | 7 => a ||| b
  | 8 => if a.toNat ≤ b.toNat then a else b
  | 9 => if a.toNat ≤ b.toNat then b else a
  | 10 => if a.toInt ≤ b.toInt then a else b
  | 11 => if a.toInt ≤ b.toInt then b else a
  | _ => if b = 0 then 0 else BitVec.ofNat 32 ((a.toNat + b.toNat - 1) / b.toNat)

/-- ALU (R204, R205). -/
def alu (e : EngPos) (w : Walker) (m : Module) : Module :=
  m.instr e w 0x04 fun m t s i =>
    let b := if (opnd i 1 1).testBit 0 then BitVec.ofNat 32 (opnd i 8 4) else s.source (opnd i 5 1)
    m.pass e w t (s.setReg (opnd i 3 1) (aluOp (opnd i 2 1) (s.source (opnd i 4 1)) b))

/-- Which of the engine's paths reads an SPM word, as SPM_ST_UE_ADDR.source (R297): 0 its own stack, 1 the hub. -/
def engSource (e : EngPos) (m : Module) (a : Nat) : Nat := if a < spmSize && m.stackOf a = e.cl.val then 0 else 1

/-- Report what a read of an engine meets (R293, R294, R321), and whether it meets a bad word. -/
def Module.engRead (m : Module) (e : EngPos) (a n : Nat) : Bool × Module := (m.meet (engSource e m a) [(a, n)]).readBad a n

/-- The abort of a task that reads a poisoned word (R294, R321). -/
def abPoison : Abort := ⟨stAbortedFault, 0, false⟩

/-- Report what reads of an engine meet, and whether one meets a bad word (R293, R294, R321). -/
def Module.engReads (m : Module) (e : EngPos) (l : List (Nat × Nat)) : Bool × Module :=
  l.foldl (fun (a : Bool × Module) x => let (bad, m) := a.2.engRead e x.1 x.2; (a.1 || bad, m)) (false, m)

/-- LDP (R204): a poisoned word aborts the task (R294); it waits for a stack that is being zero filled (R296, R527). -/
def ldp (e : EngPos) (w : Walker) (m : Module) : Module :=
  m.instr e w 0x05 fun m t s i =>
    let a := t.args + opnd i 4 2
    if m.spmBusy a 4 then m else
    let (bad, m) := m.engRead e a 4
    if bad then m.abortTask e abPoison
    else m.pass e w t (s.setReg (opnd i 2 1) (BitVec.ofNat 32 (m.num a 4)))

/-- SLOT (R204, R206). -/
def slotOp (e : EngPos) (w : Walker) (m : Module) : Module :=
  m.instr e w 0x06 fun m t s i =>
    let b := (t.aps[opnd i 4 2]?).map fun p => SlotBind.mk p s.regs
    m.pass e w t { s with slots := setAt s.slots (opnd i 2 1) b }

/-! ### Address programs (R223 to R226) -/

/-- The entries of an address program from its 128 bytes (R223). -/
def apOf (b : List Byte) : List ApEntry :=
  ((List.range 16).map fun i => ApEntry.mk (fieldAt b (8 * i) 1) (fieldAt b (8 * i + 1) 1) (fieldAt b (8 * i + 2)
    6)).takeWhile (·.op ≠ 0)

/-- What a slot addresses at the walker's counters: ring base and size, address of row 0, pitch, tile shape, format,
padding, the origin of dimensions 0 to 2 with the counters added and their extents, the MX scale base. -/
structure SlotView where
  base : Int
  wrap : Nat
  addr : Int
  pitch : Int
  rows : Nat
  rowBytes : Nat
  fmt : Nat
  pad : Nat
  c0 : Int
  c1 : Int
  c2 : Int
  x0 : Option Nat
  x1 : Option Nat
  x2 : Option Nat
  scale : Option Int

/-- A register operand of an entry: 15 names none. -/
def SlotBind.opt (b : SlotBind) (i : Nat) : Option Word := if i = 15 then none else some ((b.regs[i]?).getD 0)

/-- The base field of view v of the argument block (R122). -/
def Module.viewBase (m : Module) (t : EngTask) (v : Nat) : Int := (m.num (t.args + 32 * v) 8 : Nat)

/-- Evaluate a slot (R223, R224). -/
def Module.slotView (m : Module) (t : EngTask) (s : WalkerSt) (b : SlotBind) : SlotView :=
  let viaView := fun (x : ApEntry) => m.viewBase t (x.arg % 8) + signedOf 48 x.value
    + ((b.opt (x.arg / 16)).map (·.toInt)).getD 0
  let ent := fun op => b.entries.find? (·.op = op)
  let base := match ent 1, ent 2 with
    | some x, _ => (x.value : Int)
    | none, some x => viaView x
    | none, none => 0
  let stride := (b.entries.map fun x =>
    let l := s.loops.find? (·.level = x.arg % 16)
    let i : Int := ((l.map (·.i)).getD 0 : Nat)
    if x.op = 3 then signedOf 48 x.value * i
    else if x.op = 4 then ((l.map fun q => ((q.regs[x.arg / 16]?).getD 0).toInt).getD 0) * i
    else 0).sum
  let rows := ((ent 5).map fun x => x.value % 65536).getD 0
  let rb := ((ent 5).map fun x => x.value / 65536 % 65536).getD 0
  let pitch := match ent 6 with
    | some x => signedOf 48 x.value + ((b.opt (x.arg / 16)).map (·.toInt)).getD 0
    | none => (rb : Int)
  let coord := fun d => (b.entries.map fun x =>
    if x.op = 7 ∧ x.arg / 16 % 4 = d then signedOf 16 x.value * (s.counter (x.arg % 16) : Int) else 0).sum
  let ext := fun d => b.entries.find? fun x => x.op = 8 && x.arg % 4 = d
  let origin := fun d => ((ext d).map fun x => signedOf 16 (x.value / 2 ^ 32)).getD 0
  let lim := fun d => (ext d).map fun x => match b.opt (x.arg / 16) with
    | some r => r.toNat
    | none => x.value % 2 ^ 32
  { base := base, addr := base + stride, pitch := pitch, rows := rows, rowBytes := rb
    wrap := match ent 11 with
      | some x => (match b.opt (x.arg / 16) with | some r => r.toNat | none => x.value % 2 ^ 40)
      | none => 0
    fmt := ((ent 10).map (·.arg)).getD 1
    pad := ((ent 9).map fun x => x.value % 2 ^ 32).getD 0
    c0 := origin 0 + coord 0, c1 := origin 1 + coord 1, c2 := origin 2 + coord 2
    x0 := lim 0, x1 := lim 1, x2 := lim 2
    scale := (ent 12).map viaView }

/-- The words of the argument block that a slot's evaluation reads: the bases of the views that it names (R122, R223). -/
def SlotBind.words (b : SlotBind) (args : Nat) : List (Nat × Nat) :=
  ((b.entries.filter fun x => x.op = 2 || x.op = 12).map fun x => (args + 32 * (x.arg % 8), 8)).eraseDups

/-- Some of some spans lies in a stack that is being zero filled: the access waits (R296, R527). -/
def Module.anyBusy (m : Module) (l : List (Nat × Nat)) : Bool := l.any fun x => m.spmBusy x.1 x.2

/-- The interval of offsets below `n` whose coordinate, starting at c, lies in the extent. -/
def insideSpan (c : Int) (ext : Option Nat) (n : Nat) : Nat × Nat :=
  match ext with
  | none => (0, n)
  | some x => ((max 0 (-c)).toNat, (max 0 (min (n : Int) ((x : Int) - c))).toNat)

/-- The rectangle of inside rows and elements (R224). -/
def SlotView.inside (v : SlotView) : (Nat × Nat) × (Nat × Nat) :=
  let d2 : Bool := match v.x2 with
    | none => true
    | some x => decide (0 ≤ v.c2 && v.c2 < x)
  if d2 then (insideSpan v.c0 v.x0 v.rows, insideSpan v.c1 v.x1 (v.rowBytes * 8 / fmtBits v.fmt)) else ((0, 0), (0, 0))

/-- An address in the 48-bit device space. -/
def devAddr (a : Int) : Nat := twos 48 a

/-- Split a span that begins `o` bytes into a WRAP ring at every end of the ring (R224). -/
def SlotView.laps (v : SlotView) (fuel o row off len : Nat) : List Piece :=
  match fuel with
  | 0 => []
  | fuel + 1 =>
    let n := min len (v.wrap - o)
    ⟨devAddr (v.base + o), row, off, n⟩ :: if n = len then [] else v.laps fuel 0 row (off + n) (len - n)

/-- Where a span lies, reduced into its WRAP ring when it has one (R224). -/
def SlotView.ring (v : SlotView) (a : Int) (row off len : Nat) : List Piece :=
  if v.wrap = 0 then [⟨devAddr a, row, off, len⟩]
  else v.laps (len / v.wrap + 2) (Int.emod (a - v.base) v.wrap).toNat row off len

/-- The spans of the rows that hold inside elements, in row order (R242). -/
def SlotView.spans (v : SlotView) : List Piece :=
  let ((j0, j1), (e0, e1)) := v.inside
  let bits := fmtBits v.fmt
  let lo := e0 * bits / 8
  let hi := (e1 * bits + 7) / 8
  if hi ≤ lo then []
  else (List.range (j1 - j0)).flatMap fun i =>
    let j := j0 + i
    v.ring (v.addr + (j : Int) * v.pitch + lo) j lo (hi - lo)

/-- Cut a piece at 4 KiB boundaries. -/
def cut4k (fuel : Nat) (p : Piece) : List Piece :=
  match fuel with
  | 0 => [p]
  | fuel + 1 =>
    let n := 4096 - p.addr % 4096
    if p.len ≤ n then [p] else { p with len := n } :: cut4k fuel ⟨p.addr + n, p.row, p.off + n, p.len - n⟩

/-- Group consecutive contiguous pieces into transfers within 4 KiB (R242). -/
def transfers (l : List Piece) : List (List Piece) :=
  ((l.flatMap fun p => cut4k (p.len / 4096 + 1) p).foldl (fun (a : List (List Piece)) p => match a with
    | (q :: t) :: r => if q.addr + q.len = p.addr && p.addr % 4096 ≠ 0 then (p :: q :: t) :: r else [p] :: (q :: t) :: r
    | a => [p] :: a) []).reverse.map List.reverse

/-- First address and length of a transfer. -/
def transferSpan (t : List Piece) : Nat × Nat :=
  match t with
  | [] => (0, 0)
  | p :: _ => (p.addr, (t.map (·.len)).sum)

/-- A span lies in the access set (R264, R265). -/
def EngTask.mayAccess (t : EngTask) (write : Bool) (a n : Nat) : Bool :=
  t.access.any fun x => x.1 ≤ a && a + n ≤ x.1 + x.2.1 && (!write || x.2.2)

/-- Bytes per element block of an MX format (R226). -/
def mxBlock (f : Nat) : Nat := if fmtBits f = 8 then 32 else if fmtBits f = 6 then 24 else 16

/-- The scale bytes of an MX tile (R226): for an A operand, a row of scales for each tile row, one for each 32 elements;
for a B operand (`down`), a row of scales for each 32 tile rows, one for each element (assumption log 24). -/
def SlotView.scaleSpans (v : SlotView) (down : Bool) : List Piece :=
  match v.scale with
  | none => []
  | some sb =>
    if !isMx v.fmt then []
    else
      let ((j0, j1), (e0, e1)) := v.inside
      let d := mxBlock v.fmt
      let a := sb + Int.fdiv (v.addr - v.base) d
      if j1 ≤ j0 || e1 ≤ e0 then []
      else if down then
        (List.range ((j1 + 31) / 32)).map fun b =>
          ⟨devAddr (a + Int.fdiv ((32 * b : Nat) * v.pitch) d + e0), b, e0, e1 - e0⟩
      else (List.range (j1 - j0)).map fun i =>
        let j := j0 + i
        let lo := e0 / 32
        ⟨devAddr (a + Int.fdiv ((j : Int) * v.pitch) d + lo), j, lo, (e1 + 31) / 32 - lo⟩

/-! ### FETCH and the queues (R210, R239 to R243, R265, R294) -/

/-- Replace bytes of a row. -/
def spliceRow (row : List Byte) (off : Nat) (b : List Byte) : List Byte :=
  row.take off ++ b ++ row.drop (off + b.length)

/-- Replace bytes of a tile's rows. -/
def splice (rows : List (List Byte)) (row off : Nat) (b : List Byte) : List (List Byte) :=
  match rows[row]? with
  | none => rows
  | some r => setAt rows row (spliceRow r off b)

/-- Read one transfer's pieces from SPM or DRAM into rows. -/
def Module.readPieces (m : Module) (rows : List (List Byte)) (l : List Piece) : List (List Byte) :=
  l.foldl (fun rows p => splice rows p.row p.off (m.bytes p.addr p.len)) rows

/-- The messages of at most 1 024 B of a window access of n bytes: offset and length (R431). -/
def windowCuts (n : Nat) : List (Nat × Nat) :=
  (List.range ((n + 1023) / 1024)).map fun i => (1024 * i, min 1024 (n - 1024 * i))

/-- Send the messages of a read transfer through a window: the seq, offset and length of each (R431, R432). -/
def Module.engAsk (m : Module) (e : EngPos) (w : Fin 64) (off n : Nat) : List (Word × Nat × Nat) × Module :=
  let x := m.winSeq
  (windowCuts n).foldl (fun (a : List (Word × Nat × Nat) × Module) c =>
    (a.1 ++ [(a.2.winSeq, c.1, c.2)], a.2.winReadFrom w (off + c.1) c.2 (.engine e x))) ([], m)

/-- The holes that the messages of a read transfer of some pieces fill. -/
def holesOf (sc : Bool) (l : List Piece) (msgs : List (Word × Nat × Nat)) : List TileHole :=
  let x := ((msgs.head?).map (·.1)).getD 0
  (l.foldl (fun (h : List TileHole × Nat) p =>
    (h.1 ++ msgs.filterMap (fun c =>
      let lo := max c.2.1 h.2
      let hi := min (c.2.1 + c.2.2) (h.2 + p.len)
      if hi ≤ lo then none
      else some ⟨c.1, lo - c.2.1, p.row, p.off + (lo - h.2) + (if sc then 65536 else 0), hi - lo, x⟩), h.2 + p.len)) ([], 0)).1

/-- Issue a read transfer of a tile; `sc` tells that it brings scale bytes. One that lies outside the access set is not
issued and stops the engine (R265). -/
def Module.issueRead (m : Module) (e : EngPos) (t : EngTask) (sc : Bool) (x : Tile) (l : List Piece) :
    Except Abort Tile × Module :=
  let (a, n) := transferSpan l
  if !t.mayAccess false a n then (.error abOverflow, m)
  else match m.spaceOf a with
    | .window w off =>
      if m.windowBad w off n true || m.multicast w then (.error ⟨stBusError, 0, false⟩, m)
      else
        let (msgs, m) := m.engAsk e w off n
        (.ok { x with holes := x.holes ++ holesOf sc l msgs }, m)
    | .spm | .dram =>
      let (bad, m) := m.engRead e a n
      if bad then (.error abPoison, m)
      else if sc then (.ok { x with scale := m.readPieces x.scale l }, m)
      else (.ok { x with raw := m.readPieces x.raw l }, m)
    | _ => (.error ⟨stBusError, 0, false⟩, m)

/-- Change the tiles of a task. -/
def EngTask.mapTiles (t : EngTask) (f : Tile → Tile) : EngTask :=
  { t with qa := t.qa.map f, qb := t.qb.map f, qx := t.qx.map f, res := t.res.map fun r => (r.1, f r.2)
           lib := t.lib.map fun r => (r.1, f r.2) }

/-- Store a tile in place of the one whose transfers are being issued. -/
def EngTask.putIssuing (t : EngTask) (y : Tile) : EngTask := t.mapTiles fun x => if x.todo.isEmpty then x else y

/-- Issue the read transfers of the tile that the badger fetched last, in order, while fewer than 6 are outstanding
(R242, R243). -/
def Module.pumpReads (m : Module) (fuel : Nat) (e : EngPos) : Module :=
  match fuel, (m.eng e).task with
  | 0, _ => m
  | _, none => m
  | fuel + 1, some t => match t.tiles.find? (!·.todo.isEmpty) with
    | none => m
    | some x => match x.todo with
      | [] => m
      | (sc, l) :: rest =>
        let mine := (x.holes.map (·.xfer)).eraseDups.length
        if 6 ≤ t.readsOut - x.outstanding + mine || m.spmBusy (transferSpan l).1 (transferSpan l).2 then m
        else match m.issueRead e t sc x l with
          | (.error a, m) => m.abortTask e a
          | (.ok y, m) => (m.putTask e (t.putIssuing { y with todo := rest })).pumpReads fuel e

/-- A queue by its number: 0 QA, 1 QB, 2 QX. -/
def EngTask.queue (t : EngTask) (q : Nat) : List Tile := match q with | 0 => t.qa | 1 => t.qb | _ => t.qx

/-- Store a queue. -/
def EngTask.setQueue (t : EngTask) (q : Nat) (l : List Tile) : EngTask :=
  match q with | 0 => { t with qa := l } | 1 => { t with qb := l } | _ => { t with qx := l }

/-- One of the RES counts. -/
def EngTask.resCount (t : EngTask) (k : Nat) : Nat := SMap.get 0 t.resCnt k
def EngTask.resUp (t : EngTask) (k : Nat) : EngTask := { t with resCnt := SMap.set 0 t.resCnt k (t.resCount k + 1) }

/-- Where a picture task's rows go for the next frame's comparison (R124, R186): the buffer, its lines, the line of row 0,
and the input view: where row 0 begins, its pitch, the bytes of a row, rows above and below. -/
structure GateBuf where
  base : Nat
  pitch : Nat
  lines : Nat
  line0 : Int
  viewBase : Int
  viewPitch : Int
  width : Int
  first : Int
  last : Int

/-- The bytes [lo, hi) of memory that lie in row l of a view and in [a, a + n): where they begin, and how many. -/
def rowPart (base pitch width l : Int) (a n : Nat) : Int × Nat :=
  let r := base + l * pitch
  let lo := max (a : Int) r
  (lo, (min ((a : Int) + n) (r + width) - lo).toNat)

/-- The rows of a view of which [a, a + n) may hold bytes. -/
def rowsOf (base pitch : Int) (a n : Nat) : List Int :=
  let l0 := Int.fdiv ((a : Int) - base) (max 1 pitch)
  let l1 := Int.fdiv ((a : Int) + n - 1 - base) (max 1 pitch)
  (List.range (l1 + 1 - l0).toNat).map fun (i : Nat) => l0 + (i : Int)

/-- Copy the bytes of input rows that a transfer reads to the input-state buffer (R186); rows beyond the buffer's lines are
edge lines and are not kept. -/
def Module.gateCopy (m : Module) (g : GateBuf) (l : List Piece) : Module :=
  l.foldl (fun m p => (rowsOf g.viewBase g.viewPitch p.addr p.len).foldl (fun m r =>
    let (lo, n) := rowPart g.viewBase g.viewPitch g.width r p.addr p.len
    let line := g.line0 + r
    if n = 0 || r < g.first || g.last ≤ r || line < 0 || g.lines ≤ line then m
    else m.write ((g.base : Int) + line * g.pitch + (lo - (g.viewBase + r * g.viewPitch))).toNat (m.bytes lo.toNat n)) m) m

/-- A read transfer is made whole: it lies in the access set and meets no bad word (R265, R294, R321). -/
def Module.readable (m : Module) (t : EngTask) (l : List Piece) : Bool :=
  let (a, n) := transferSpan l
  t.mayAccess false a n && (m.badIn a n).isEmpty

/-- FETCH (R210, R239, R242, R243): the badger issues a tile's reads when its queue has room, fewer than 6 reads are
outstanding and every read of the fetch before is issued; a FETCH to RES waits for every earlier WLOAD from its index. The
execute walker passes it. -/
def fetchWith (gate : EngPos → EngTask → Module → Option GateBuf) (e : EngPos) (w : Walker) (errs : List MemErr)
    (m : Module) : Module :=
  m.instr e w 0x10 fun m t s i =>
    let q := opnd i 3 1
    let ri := opnd i 4 2 + t.resBase
    match w with
    | .execute => m.pass e w (if q = 3 then t.resUp (32 + ri) else t) s
    | .badger =>
      match (s.slots[opnd i 2 1]?).getD none with
      | none => m.pass e w t s
      | some b =>
        if (if q = 3 then t.resCount (16 + ri) < t.resCount ri else decide (3 ≤ (t.queue q).length)) || 6 ≤ t.readsOut ||
            t.tiles.any (!·.todo.isEmpty) || m.anyBusy (b.words t.args) then m
        else
          let (bad, m) := m.engReads e (b.words t.args)
          if bad then m.abortTask e abPoison else
          let v := m.slotView t s b
          let ((j0, j1), (e0, e1)) := v.inside
          let sp := v.spans
          let todo := (transfers sp).map (fun l => (false, l)) ++
            (transfers (v.scaleSpans (q = 1 || q = 3))).map fun l => (true, l)
          let tile : Tile := ⟨fmtBits v.fmt, List.replicate v.rows (List.replicate v.rowBytes 0),
            List.replicate v.rows (List.replicate (max 1 (v.rowBytes * 8 / fmtBits v.fmt)) 0x7F), j0, j1, e0, e1, v.pad, [],
            todo, false, t.badger.gate.map (·.1)⟩
          let m := if (opnd i 1 1).testBit 0 then match gate e t m with
              | some g => m.gateCopy g ((transfers sp).takeWhile (m.readable t)).flatten
              | none => m
            else m
          let t := if q = 3 then
              ({ t with
                res := t.res.insert ri tile
                cancelled := t.cancelled + ((t.res.find? ri).map fun (x : Tile) => x.outstanding).getD 0 }).resUp (48 + ri)
            else t.setQueue q (t.queue q ++ [tile])
          ((m.upset errs).pass e w t s).pumpReads (todo.length + 1) e

/-- Pack elements of `bits` bits, the first lowest (R170). -/
def packElems (bits : Nat) (l : List Nat) : List Byte :=
  let v := l.reverse.foldl (fun a x => a * 2 ^ bits + x % 2 ^ bits) 0
  leBytes ((l.length * bits + 7) / 8) v

/-- A tile's row with the padding element in every place that is not inside (R225). -/
def Tile.row (t : Tile) (j : Nat) : List Byte :=
  let r := (t.raw[j]?).getD []
  if t.j0 ≤ j && j < t.j1 && t.e0 = 0 && elemsIn t.bits r ≤ t.e1 then r
  else packElems t.bits ((List.range (elemsIn t.bits r)).map fun x =>
    if t.j0 ≤ j && j < t.j1 && t.e0 ≤ x && x < t.e1 then elemBits t.bits r x else t.pad % 2 ^ t.bits)

/-- All rows of a tile. -/
def Tile.rows (t : Tile) : List (List Byte) := (List.range t.raw.length).map t.row

/-- The bytes of a tile in row order. -/
def Tile.bytes (t : Tile) : List Byte := t.rows.flatMap id

/-- Every read of a tile has been issued and has returned. -/
def Tile.complete (x : Tile) : Bool := x.holes.isEmpty && x.todo.isEmpty

/-- Mark the first tile that is complete and not yet arrived. -/
def arriveFirst (l : List Tile) : List Tile :=
  match l with
  | [] => []
  | x :: t =>
    if x.arrived then x :: arriveFirst t
    else if x.complete then { x with arrived := true } :: t else x :: t

/-- Read transfers of a task that wait to be issued, and one. -/
def EngTask.todoLen (t : EngTask) : Nat := (t.tiles.map (·.todo.length)).sum + 1

/-- TILE_ARRIVED: the last byte of the oldest tile in flight is in staging memory (R240); reads that waited are issued. -/
def tileArrived (e : EngPos) (queue : Fin 4) (m : Module) : Module :=
  match (m.eng e).task with
  | none => m
  | some t =>
    let t := if queue.val = 3 then
        match List.find? (fun (x : Nat × Tile) => !x.2.arrived && x.2.complete) t.res with
        | some (k, x) => { t with res := t.res.insert k { x with arrived := true } }
        | none => t
      else t.setQueue queue.val (arriveFirst (t.queue queue.val))
    (m.putTask e t).pumpReads t.todoLen e

/-- The tile at the head of a queue, when it has arrived. -/
def EngTask.head (t : EngTask) (q : Nat) : Option Tile :=
  match t.queue q with
  | x :: _ => if x.arrived then some x else none
  | [] => none

/-- Drop the head of a queue. -/
def EngTask.drop (t : EngTask) (q : Nat) : EngTask := t.setQueue q ((t.queue q).drop 1)

/-! ### Write transfers (R225, R242, R243, R265) -/

/-- The bytes that a masked write leaves at an address. -/
def Module.maskBytes (m : Module) (a : Nat) (l : List (Byte × Byte)) : List Byte :=
  (List.range l.length).map fun i =>
    let (v, k) := (l[i]?).getD (0, 0)
    if k = 255 then v else (v &&& k) ||| (m.byte (a + i) &&& ~~~k)

/-- Bad spots of which a masked write leaves some bit as it was: a partial write (R225, R293, R294). -/
def Module.badMasked (m : Module) (a : Nat) (l : List (Byte × Byte)) : List Nat :=
  (m.badIn a l.length).filter fun x => m.merges x && (!(a ≤ x && x + badUnit x ≤ a + l.length) ||
    (List.range (badUnit x)).any fun i => ((l[x + i - a]?).getD (0, 0)).2 ≠ 255)

/-- The words and sectors that a masked write of an engine reads to merge (R225, R293). -/
def Module.meetMasked (m : Module) (e : EngPos) (a : Nat) (l : List (Byte × Byte)) : Module :=
  let inner := (List.range l.length).filterMap fun i =>
    if ((l[i]?).getD (0, 255)).2 = 255 || !m.merges (a + i) then none else some (spotOf (a + i), badUnit (a + i))
  m.meet (engSource e m a) (m.edges a l.length ++ inner)

/-- A masked write that leaves bad spots standing: they keep what they hold. -/
def Module.writeMasked (m : Module) (a : Nat) (l : List (Byte × Byte)) (bad : List Nat) : Module :=
  let b := m.maskBytes a l
  let m := m.flushSpan a l.length
  let m := ((m.badIn a l.length).filter (!bad.contains ·)).foldl (fun m x => m.clearBad x (badUnit x)) m
  m.putSome a (b.map some) bad

/-- Issue one write transfer: the reason to stop, or the state after it. A write that covers a bad word in part is not
applied there and fails (R294, R321). -/
def Module.issueWrite (m : Module) (e : EngPos) (x : EngWrite) : Option Abort × Module :=
  match m.spaceOf x.addr with
  | .window w off =>
    if m.windowBad w off x.bytes.length false || m.multicast w then (some ⟨stBusError, 0, false⟩, m)
    else
      let use := WinUse.engine e m.winSeq
      (none, (windowCuts x.bytes.length).foldl (fun m c =>
        m.winWriteTo w (off + c.1) (((x.bytes.drop c.1).take c.2).map (·.1)) false use) m)
  | .spm | .dram =>
    let m := m.meetMasked e x.addr x.bytes
    let bad := m.badMasked x.addr x.bytes
    if bad.isEmpty then (none, m.write x.addr (m.maskBytes x.addr x.bytes))
    else
      let m := (bad.filter (spmSize ≤ ·)).foldl Module.dramMet (m.writeMasked x.addr x.bytes bad)
      (some abPoison, m)
  | _ => (some ⟨stBusError, 0, false⟩, m)

/-- A write transfer waits: for a stack that is being zero filled (R296, R527), or for an unacknowledged write of the module to
the same bytes of a window (R432). -/
def Module.writeHeld (m : Module) (a n : Nat) : Bool :=
  m.spmBusy a n || match m.spaceOf a with
    | .window w off => m.winOverlap w off n
    | _ => false

/-- Issue waiting write transfers while fewer than 16 are outstanding (R243); the read of a merge in a window is issued
while fewer than 6 reads are (R225). -/
def Module.pump (m : Module) (fuel : Nat) (e : EngPos) : Module :=
  match fuel with
  | 0 => m
  | fuel + 1 => match (m.eng e).task with
    | none => m
    | some t => match t.writes with
      | [] => m
      | x :: r =>
        if 16 ≤ t.issued || !x.needs.isEmpty || t.abort.isSome || m.writeHeld x.addr x.bytes.length then m
        else if x.stop.isSome then m.abortTask e (x.stop.getD abOverflow)
        else if x.ask then match m.spaceOf x.addr with
          | .window w off =>
            if 6 ≤ t.readsOut then m
            else if m.windowBad w off x.bytes.length true then m.abortTask e ⟨stBusError, 0, false⟩
            else
              let (msgs, m) := m.engAsk e w off x.bytes.length
              m.putTask e { t with writes := { x with ask := false, needs := msgs } :: r }
          | _ => m.abortTask e ⟨stBusError, 0, false⟩
        else
          let m := m.putTask e { t with writes := r, issued := t.issued + 1 }
          match m.issueWrite e x with
          | (some a, m) => (m.putTask e { t with writes := r }).abortTask e a
          | (none, m) => m.pump fuel e

/-- An acknowledged write transfer makes room for the next. -/
def Module.ackWrite (m : Module) (e : EngPos) : Module :=
  match (m.eng e).task with
  | none => m
  | some t => (m.putTask e { t with issued := t.issued - 1 }).pump (t.writes.length + 1) e

/-- Window writes of an engine that are not answered. -/
def Module.engWindow (m : Module) (e : EngPos) : List WinOut :=
  m.winOut.filter fun x => match x.use with
    | .engine e' _ => e' = e
    | _ => false

/-- Write transfers of an engine in windows that have not returned. -/
def Module.engWritesOut (m : Module) (e : EngPos) : Nat :=
  (((m.engWindow e).filter (·.msg.type = 0x10)).map (·.use)).eraseDups.length

/-- Go on with the transfers of every engine that wait. -/
def Module.pumpAll (m : Module) : Module :=
  (m.engines : List (Nat × Eng)).foldl (fun (m : Module) x => match x.2.task with
    | none => m
    | some t =>
      let e : EngPos := ⟨(BitVec.ofNat 3 (x.1 / 17)).toFin, ⟨x.1 % 17, Nat.mod_lt _ (by decide)⟩⟩
      (m.pump (t.writes.length + 1) e).pumpReads ((t.tiles.map (·.todo.length)).sum + 1) e) m

/-- WRITE_ACKNOWLEDGED for an engine: a write to SPM or DRAM is acknowledged (R333 counts DMA's). -/
def Module.engineAck (m : Module) (e : EngPos) : Module :=
  match (m.eng e).task with
  | none => m
  | some t =>
    if m.engWritesOut e < t.issued then m.ackWrite e else m

/-- Queue a write transfer, and say whether those after it follow. Bytes that are written under a mask in a window are read
first (R225). A transfer outside the access set stops the task when its turn comes: those before it are issued (R265). -/
def Module.queueWrite (m : Module) (t : EngTask) (x : EngWrite) : Bool × EngTask × Module :=
  let put := fun (x : EngWrite) => { t with writes := t.writes ++ [x] }
  let stop := fun (a : Abort) => (false, put { x with stop := some a }, m)
  if !t.mayAccess true x.addr x.bytes.length then stop abOverflow
  else match m.spaceOf x.addr with
    | .window w off =>
      if x.bytes.all (·.2 = 255) then (true, put x, m)
      else if !t.mayAccess false x.addr x.bytes.length then stop abOverflow
      else if m.windowBad w off x.bytes.length true then stop ⟨stBusError, 0, false⟩
      else (true, put { x with ask := true }, m)
    | _ => (true, put x, m)

/-- Queue the write transfers of a tile in order, up to the first that must not be issued (R265). -/
def Module.queueWrites (m : Module) (t : EngTask) (l : List EngWrite) : EngTask × Module :=
  match l with
  | [] => (t, m)
  | x :: r => match m.queueWrite t x with
    | (true, t, m) => m.queueWrites t r
    | (false, t, m) => (t, m)

/-- A write transfer of masked bytes. -/
def EngWrite.of (a : Nat) (b : List (Byte × Byte)) : EngWrite := ⟨a, b, false, [], none⟩

/-- What stops the task when its turn comes (R265). -/
def EngWrite.stopper (a : Abort) : EngWrite := ⟨0, [], false, [], some a⟩

/-- Spans of masked bytes in order as write transfers: contiguous ones merged, within 4 KiB (R242). -/
def mergeWrites (l : List (Nat × List (Byte × Byte))) : List EngWrite :=
  let ps := ((l.zip (List.range l.length)).filter (!·.1.2.isEmpty)).map fun (x, i) => Piece.mk x.1 i 0 x.2.length
  (transfers ps).map fun t => .of (transferSpan t).1 (t.flatMap fun p =>
    ((((l[p.row]?).map (·.2)).getD []).drop p.off).take p.len)

/-- Contiguous bytes as write transfers within 4 KiB. -/
def plainWrites (a : Nat) (b : List Byte) : List EngWrite := mergeWrites [(a, b.map fun x => (x, 255))]

/-- Store rows of packed elements through a slot: `row j` gives the elements of tile row j; only inside elements are
written (R223, R225). -/
def SlotView.writes (v : SlotView) (m n : Nat) (elem : Nat → Nat → Nat) : List EngWrite :=
  let bits := fmtBits v.fmt
  let ((j0, j1), (e0, e1)) := v.inside
  let hi := min e1 n
  let sp := (SlotView.spans { v with
    rows := min v.rows m
    rowBytes := (min (v.rowBytes * 8 / bits) n * bits + 7) / 8 }).filter fun p => j0 ≤ p.row && p.row < j1
  let byteOf := fun (row : Nat) (x : Nat) =>
    (List.range 8).foldl (fun (a : Nat × Nat) b =>
      let el := (8 * x + b) / bits
      if e0 ≤ el && el < hi then
        (a.1 + (if (elem row el).testBit ((8 * x + b) % bits) then 2 ^ b else 0), a.2 + 2 ^ b)
      else a) (0, 0)
  (transfers sp).map fun t => .of (transferSpan t).1 (t.flatMap fun p => (List.range p.len).map fun k =>
    let (a, b) := byteOf p.row (p.off + k)
    (BitVec.ofNat 8 a, BitVec.ofNat 8 b))

/-! ### Waits and signals (R198, R227, R228) -/

/-- FENCE (R198): every earlier write has been acknowledged. -/
def fence (e : EngPos) (w : Walker) (m : Module) : Module :=
  m.barrier e w 0x22 fun m t s _ => if t.acked then m.pass e w t s else m

/-- The object that a sync instruction names: a sync table entry, or the number in a register. -/
def syncObj (t : EngTask) (s : WalkerSt) (i : Nat) : Nat :=
  if (opnd i 1 1).testBit 0 then (s.reg (opnd i 2 1)).toNat else (t.sync[opnd i 2 1]?).getD 0

/-- The number that a sync instruction adds a register to. -/
def syncNum (s : WalkerSt) (i : Nat) : Word :=
  BitVec.ofNat 32 (opnd i 4 4) + (if (opnd i 1 1).testBit 1 then s.reg (opnd i 3 1) else 0)

/-- SWAIT (R227): an object number above 8 191 aborts the task with BUS_ERROR. -/
def swait (e : EngPos) (w : Walker) (m : Module) : Module :=
  m.barrier e w 0x20 fun m t s i =>
    if 8192 ≤ syncObj t s i then m.abortTask e ⟨stBusError, 0, false⟩
    else if meets (m.sync (syncObj t s i)) (syncNum s i) then m.pass e w t s else m

/-- SWAIT_TIMEOUT (R228, R310): the execute walker waits at a SWAIT with a timeout whose object does not meet its
threshold. -/
def swaitTimeout (e : EngPos) (m : Module) : Module :=
  m.instr e .execute 0x20 fun m t s i =>
    if opnd i 8 4 = 0 || 8192 ≤ syncObj t s i || meets (m.sync (syncObj t s i)) (syncNum s i) then m
    else (m.count SYN_CNT_TIMEOUT 1).abortTask e ⟨stWaitTimeout, 0, false⟩

/-- A task of a job is no producer of a plan-owned object (R308). -/
def refIsJob (r : TaskRef) : Bool := match r with | .job .. => true | .stream .. => false

/-- SSIG (R227): once earlier writes are acknowledged, a value is added to the object; the first ones of a re-run are
suppressed (R270). -/
def ssig (e : EngPos) (w : Walker) (m : Module) : Module :=
  m.execOnly e w 0x21 fun m t s i =>
    let o := syncObj t s i
    if !t.acked then m
    else if 8192 ≤ o then m.abortTask e ⟨stBusError, 0, false⟩
    else
      let m := if t.sigs < t.skip then m
        else if refIsJob t.ref then m.guestAdd o (syncNum s i) else m.addSync o (syncNum s i)
      m.pass e w { t with sigs := t.sigs + 1 } s

def execEngineNop (e : EngPos) (w : Walker) (s : State) := ok s (engineNop e w s.toModule)
def execEndOp (e : EngPos) (w : Walker) (s : State) := ok s (endOp e w s.toModule)
def execLoop (e : EngPos) (w : Walker) (s : State) := ok s (loop e w s.toModule)
def execSetp (e : EngPos) (w : Walker) (s : State) := ok s (setp e w s.toModule)
def execAlu (e : EngPos) (w : Walker) (s : State) := ok s (alu e w s.toModule)
def execLdp (e : EngPos) (w : Walker) (s : State) := ok s (ldp e w s.toModule)
def execSlot (e : EngPos) (w : Walker) (s : State) := ok s (slotOp e w s.toModule)
def execTileArrived (e : EngPos) (queue : Fin 4) (s : State) := ok s (tileArrived e queue s.toModule)
def execFence (e : EngPos) (w : Walker) (s : State) := ok s (fence e w s.toModule)
def execSwait (e : EngPos) (w : Walker) (s : State) := ok s (swait e w s.toModule)
def execSwaitTimeout (e : EngPos) (s : State) := ok s (swaitTimeout e s.toModule)
def execSsig (e : EngPos) (w : Walker) (s : State) := ok s (ssig e w s.toModule)

end Sys2Proof.Machine
end

