-- ==== Sys2Proof/Machine/Compute.lean ====
section
/-!
DEFINITION. The computing instructions of an engine (R171 to R188, R199, R212 to R222): the array, fused products, the
row-wise function unit, write-back, dormouse gates; and FETCH, which feeds the gates.
-/
namespace Sys2Proof.Machine

/-! ### Accumulator rows (R199, R215) -/

def Part.zero : Part := ⟨0, false, false, false⟩

/-- An unwritten accumulator row: zero (R194). -/
def AccRow.rest : AccRow := ⟨false, List.replicate 48 0, 0, List.replicate 48 Part.zero⟩

def EngTask.accRow (t : EngTask) (r : Nat) : AccRow := SMap.get AccRow.rest t.acc r
def EngTask.setRow (t : EngTask) (r : Nat) (x : AccRow) : EngTask := { t with acc := SMap.set AccRow.rest t.acc r x }

/-- A row as INT32, as FP32 (R199). -/
def AccRow.toInt (r : AccRow) : AccRow := if r.fp then { r with fp := false, cells := r.cells.map f32ToInt } else r
def AccRow.toFp (r : AccRow) : AccRow := if r.fp then r else { r with fp := true, cells := r.cells.map intToF32 }

/-- The exponent of the unit in which open groups are summed. -/
def partExp : Int := -320

/-- Add an exact product to an open group (R174). -/
def Part.add (p : Part) (v : Fv) : Part :=
  match v with
  | .nan => { p with nan := true }
  | .inf neg => if neg then { p with ninf := true } else { p with pinf := true }
  | .fin neg m e => { p with sum := p.sum + signed neg m * 2 ^ (e - partExp).toNat }

/-- The sum of a group (R174). -/
def Part.value (p : Part) : Fv :=
  if p.nan || (p.pinf && p.ninf) then .nan
  else if p.pinf then .inf false
  else if p.ninf then .inf true
  else .fin (p.sum < 0) p.sum.natAbs partExp

/-- Close a group: one rounding into the accumulator (R174). -/
def closeGroup (cell : Word) (p : Part) : Word := ((ofF32 cell).add p.value).toF32

/-- One floating-point accumulation of a column: products are taken in K order, every 32nd from kstart closes a group. -/
def fpColumn (k0 : Nat) (cell : Word) (p : Part) (l : List Fv) : Word × Part :=
  match l with
  | [] => (cell, p)
  | v :: t =>
    let p := p.add v
    if (k0 + 1) % 32 = 0 then fpColumn (k0 + 1) (closeGroup cell p) Part.zero t else fpColumn (k0 + 1) cell p t

/-- The exact sum of integer products. -/
def intColumn (l : List Int) : Int := l.foldl (· + ·) 0

/-- The effective flags of an MM or MMF (R215). -/
structure AccFlags where
  clear : Bool
  kstart : Bool
  kend : Bool

/-- Accumulate one row: `prod c` gives the products of column c in K order, exact; columns from n on are unchanged. Integer formats ignore
kstart, so their clear always discards an unfinished group (R215). -/
def AccRow.accumulate (r : AccRow) (int : Bool) (f : AccFlags) (n k : Nat) (prodI : Nat → List Int)
    (prodF : Nat → List Fv) : AccRow :=
  if int then
    let r := if f.clear then { r with fp := false } else r.toInt
    let r := if f.clear then { r with part := (List.range 48).map fun c =>
        if c < n then Part.zero else (r.part[c]?).getD Part.zero } else r
    { r with cells := (List.range 48).map fun c =>
        let x := (r.cells[c]?).getD 0
        if c < n then (if f.clear then 0 else x) + BitVec.ofInt 32 (intColumn (prodI c)) else x }
  else
    let r := if f.clear then { r with fp := true } else r.toFp
    let k0 := if f.kstart then 0 else r.k
    let go := (List.range 48).map fun c =>
      let x := (r.cells[c]?).getD 0
      let p := (r.part[c]?).getD Part.zero
      if c < n then
        let (x, p) := fpColumn k0 (if f.clear then 0 else x) (if f.clear || f.kstart then Part.zero else p) (prodF c)
        if f.kend && (k0 + k) % 32 ≠ 0 then (closeGroup x p, Part.zero) else (x, p)
      else (x, p)
    { r with cells := go.map (·.1), part := go.map (·.2), k := k0 + k }

/-- The second product of an MMF with an INT8 intermediate into a row (R183, R216): the FP32 row takes the INT32 sum as FP32
in columns 0 to n − 1 (assumption log 26). -/
def AccRow.fusedInt (r : AccRow) (f : AccFlags) (n : Nat) (prodI : Nat → List Int) : AccRow :=
  let old := r.toInt
  let r := if f.clear then { r with fp := true } else r.toFp
  { r with
    part := (List.range 48).map fun c => if f.clear && c < n then Part.zero else (r.part[c]?).getD Part.zero
    cells := (List.range 48).map fun c =>
      let x := (r.cells[c]?).getD 0
      if c < n then intToF32 ((if f.clear then 0 else (old.cells[c]?).getD 0) + BitVec.ofInt 32 (intColumn (prodI c))) else x }

/-- The iteration mask holds for the first pass, for the last pass (R215). -/
def WalkerSt.maskFirst (s : WalkerSt) (mask : Nat) : Bool :=
  (List.range 6).all fun l => !mask.testBit l || s.counter l = 0
def WalkerSt.maskLast (s : WalkerSt) (mask : Nat) : Bool :=
  (List.range 6).all fun l => !mask.testBit l || match s.loops.find? (·.level = l) with
    | some x => x.i + 1 = x.count
    | none => true

/-- The effective flags of an instruction. -/
def WalkerSt.accFlags (s : WalkerSt) (flags mask : Nat) : AccFlags :=
  ⟨flags.testBit 0 && s.maskFirst mask, flags.testBit 1 && s.maskFirst mask, flags.testBit 2 && s.maskLast mask⟩

/-- A row range with an optional scalar register, when it lies within 0 to 511 (R213, R221). -/
def rowRange (s : WalkerSt) (row reg m : Nat) : Option Nat :=
  let a : Int := (row : Int) + if reg < 16 then (s.reg reg).toInt else 0
  if 0 ≤ a ∧ a + m ≤ 512 then some a.toNat else none

/-! ### WLOAD and MM (R212 to R215) -/

/-- The bank that the next MM reads. -/
def EngTask.nextBank (t : EngTask) : Bank := if t.filled = 0 then t.bank0 else t.bank1

/-- Fill the bank that the last MM did not read. -/
def EngTask.fillBank (t : EngTask) (b : Bank) : EngTask :=
  if t.readBank = 0 then { t with bank1 := b, filled := 1 } else { t with bank0 := b, filled := 0 }

/-- A block from a tile. -/
def bankOfTile (fmt k n : Nat) (x : Tile) : Bank := ⟨fmt, k, n, x.rows, x.scale⟩

/-- A block from the bytes of a RES index of a resident set: rows of n elements without gaps, then scale rows (assumption
log 25). -/
def bankOfBytes (fmt k n : Nat) (b : List Byte) : Bank :=
  let rb := (n * fmtBits fmt + 7) / 8
  ⟨fmt, k, n, (List.range k).map fun r => (b.drop (r * rb)).take rb,
    (List.range ((k + 31) / 32)).map fun r => (b.drop (k * rb + r * n)).take n⟩

/-- The bytes that a resident set of the position holds at a RES index (R255). -/
def Eng.resBytes (x : Eng) (i : Nat) : Option (List Byte) :=
  (x.sets.find? fun r => r.first ≤ i && i < r.first + (r.bytes.length + 8191) / 8192).map fun r =>
    (r.bytes.drop ((i - r.first) * 8192)).take 8192

/-- WLOAD (R212): from RES it does not consume the tile; an index that nothing has filled loads zeros. -/
def wload (e : EngPos) (w : Walker) (m : Module) : Module :=
  m.instr e w 0x11 fun m t s i =>
    let fromRes := (opnd i 1 1).testBit 0
    let ri := opnd i 5 1 + t.resBase
    let fmt := opnd i 2 1
    let k := opnd i 3 1
    let n := opnd i 4 1
    match w with
    | .badger => m.pass e w (if fromRes then t.resUp ri else t) s
    | .execute =>
      if fromRes then
        let t' := t.resUp (16 + ri)
        match t.res.find? ri with
        | some x =>
          if x.arrived && t.resCount (32 + ri) ≤ t.resCount (48 + ri) then
            m.pass e w (t'.fillBank (bankOfTile fmt k n x)) s
          else m
        | none =>
          if t.resCount (48 + ri) < t.resCount (32 + ri) then m
          else
            let b := match (m.eng e).resBytes ri with
              | some l => bankOfBytes fmt k n l
              | none => ⟨fmt, k, n, [], []⟩
            m.pass e w (t'.fillBank b) s
      else match t.head 1 with
        | none => m
        | some x => m.pass e w ((t.drop 1).fillBank (bankOfTile fmt k n x)) s

/-- Element t of row j of an A operand: none beyond what the tile holds (R213). -/
def aBits (bits : Nat) (rows : List (List Byte)) (j t : Nat) : Option Nat :=
  match rows[j]? with
  | none => none
  | some r => if t < elemsIn bits r then some (elemBits bits r t) else none

/-- Element (t, c) of a block: zero beyond what the WLOAD filled. -/
def Bank.bits (b : Bank) (t c : Nat) : Nat :=
  if t < b.k && c < b.n then ((b.rows[t]?).map fun r => elemBits (fmtBits b.fmt) r c).getD 0 else 0

/-- The value of an element of a block with its scale. -/
def Bank.val (b : Bank) (t c : Nat) : Fv :=
  let v := elemVal b.fmt (b.bits t c)
  if isMx b.fmt && t < b.k && c < b.n then scaleBy v ((((b.scale[t / 32]?).getD [])[c]?).getD 0x7F) else v

/-- The value of an A element with its scale. -/
def aVal (fmt : Nat) (scale : List (List Byte)) (j t w : Nat) : Fv :=
  if isMx fmt then scaleBy (elemVal fmt w) ((((scale[j]?).getD [])[t / 32]?).getD 0x7F) else elemVal fmt w

/-- Products of row j with column c in K order: integers. -/
def prodInt (fa : Nat) (za : Int) (rows : List (List Byte)) (b : Bank) (k j c : Nat) : List Int :=
  (List.range k).map fun t => match aBits (fmtBits fa) rows j t with
    | some x => (intElem fa x - za) * intElem b.fmt (b.bits t c)
    | none => 0

/-- Products of row j with column c in K order: floating-point and MX. -/
def prodFp (fa : Nat) (rows scale : List (List Byte)) (b : Bank) (k j c : Nat) : List Fv :=
  (List.range k).map fun t => match aBits (fmtBits fa) rows j t with
    | some x => (aVal fa scale j t x).mul (b.val t c)
    | none => (Fv.fin false 0 0).mul (b.val t c)

/-- The flags that the A operand of a product sets: a NaN operand and an MX scale of 255. -/
def aFlags (fa : Nat) (rows scale : List (List Byte)) (k m : Nat) : Nat :=
  let nan := (List.range m).any fun j => (List.range k).any fun t => match aBits (fmtBits fa) rows j t with
    | some x => aVal fa scale j t x = .nan
    | none => false
  flagIf (!isInt fa && nan) arNanIn ||| flagIf (isMx fa && scale.any (·.contains 255)) arMxNan

/-- The flags that k rows and n columns of a block set. -/
def bankFlags (b : Bank) (k n : Nat) : Nat :=
  let nan := (List.range k).any fun t => (List.range n).any fun c => b.val t c = .nan
  flagIf nan arNanIn ||| flagIf (isMx b.fmt && b.scale.any (·.contains 255)) arMxNan

/-- The flags that the operands of a product set: NaN operands and MX scales of 255. -/
def operandFlags (fa : Nat) (rows scale : List (List Byte)) (b : Bank) (k m n : Nat) : Nat :=
  aFlags fa rows scale k m ||| bankFlags b k n

/-- MM (R213 to R215). -/
def mm (e : EngPos) (w : Walker) (m : Module) : Module :=
  m.execOnly e w 0x12 fun m t s i =>
    match t.head 0 with
    | none => m
    | some x =>
      let fa := opnd i 2 1
      let rows := opnd i 4 2
      let k := opnd i 6 1
      let n := opnd i 7 1
      let za := signedOf 16 (opnd i 8 2)
      match rowRange s (opnd i 10 2) (opnd i 13 1) rows with
      | none => m.abortTask e abOverflow
      | some r0 =>
        let b := { t.nextBank with fmt := opnd i 3 1 }
        let f := s.accFlags (opnd i 1 1) (opnd i 12 1 % 64)
        let xr := x.rows
        let t := (List.range rows).foldl (fun (t : EngTask) j => t.setRow (r0 + j) ((t.accRow (r0 + j)).accumulate
          (isInt fa) f n k (prodInt fa za xr b k j) (prodFp fa xr x.scale b k j))) t
        let m := m.arith e (operandFlags fa xr x.scale b k rows n)
        m.pass e w { t.drop 0 with readBank := t.filled } s

/-! ### MMF (R183 to R185, R216 to R218) -/

/-- k_max of a format pair by the A format (R214). -/
def kMax (fa fb : Nat) : Nat := if (fa = 2 && fb = 2) || fa = 11 then 96 else 48

/-- An element of an MMF's B1 or B2 blocks as one matrix: block index and place within it. -/
def blockAt (blocks : List Tile) (fmt i k n : Nat) : Bank :=
  match blocks[i]? with
  | some x => bankOfTile fmt k n x
  | none => ⟨fmt, k, n, [], []⟩

/-- One row of S (R183 step 1): column c0 of column group g, over every k block. -/
def fusedS (fa fb1 k1 km : Nat) (x : Tile) (blocks : List Tile) (j c : Nat) : Word × Bool :=
  let nk := (k1 + km - 1) / km
  let g := c / 48
  let prodsI := (List.range nk).flatMap fun q =>
    let b := blockAt blocks fb1 (g * nk + q) (min km (k1 - q * km)) 48
    (List.range (min km (k1 - q * km))).map fun u => match aBits (fmtBits fa) x.rows j (q * km + u) with
      | some v => intElem fa v * intElem fb1 (b.bits u (c % 48))
      | none => 0
  let prodsF := (List.range nk).flatMap fun q =>
    let b := blockAt blocks fb1 (g * nk + q) (min km (k1 - q * km)) 48
    (List.range (min km (k1 - q * km))).map fun u => match aBits (fmtBits fa) x.rows j (q * km + u) with
      | some v => (aVal fa x.scale j (q * km + u) v).mul (b.val u (c % 48))
      | none => (Fv.fin false 0 0).mul (b.val u (c % 48))
  if isInt fa then (BitVec.ofInt 32 (intColumn prodsI), false)
  else
    let (a, p) := fpColumn 0 0 Part.zero prodsF
    (if k1 % 32 = 0 then a else closeGroup a p, true)

/-- A word of a fusion tile. -/
def wordAt (l : List Byte) (i : Nat) : Word := BitVec.ofNat 32 (fieldAt l (4 * i) 4)

/-- A row of S behind steps 1 and 2 of R183: what the RFU reads. -/
def fusedScaled (fa fb1 k1 km n1 : Nat) (bias : Bool) (fus : List Byte) (x : Tile) (blocks : List Tile) (j : Nat) :
    List Word :=
  (List.range n1).map fun c =>
    let (v, fp) := fusedS fa fb1 k1 km x blocks j c
    let v := if fp then v else fMul (intToF32 v) (wordAt fus 0)
    let v := fMul v (wordAt fus 1)
    if bias then fAdd v (wordAt fus (4 + c)) else v

/-- A row of S behind steps 1 to 3 of R183, and for SOFTMAX the row sum (R184). -/
def fusedRow (g : Nat) (tbl : List Word) (row : List Word) : List Word × Word :=
  if g = 20 then softExp row else (row.map fun v => rfuElem g tbl v 0 0, 0)

/-- The flags that the blocks of a fused operation set: B1 in column groups of k blocks, then B2 (R216). -/
def blockFlags (fb1 fb2 k1 n1 n2 km km2 nb1 : Nat) (blocks : List Tile) : Nat :=
  (List.range blocks.length).foldl (fun f i => f |||
    if i < nb1 then
      let nk := (k1 + km - 1) / km
      let k := min km (k1 - i % nk * km)
      bankFlags (blockAt blocks fb1 i k 48) k (min 48 (n1 - i / nk * 48))
    else
      bankFlags (blockAt blocks fb2 i km2 n2) km2 n2) 0

/-- The intermediate of a value (R183 step 4): encoding and flags. -/
def interOf (inter : Nat) (fus : List Byte) (v : Word) : Nat × Nat :=
  if inter = 0 then
    let (y, f) := quantise v (wordAt fus 2) (wordAt fus 3).toInt (-128) 127
    (twos 8 y, f)
  else floatStore inter false v

/-- The B1 and B2 blocks of an MMF (R217). -/
def mmfBlocks (i : Nat) : Nat × Nat :=
  let km := kMax (opnd i 2 1) (opnd i 3 1)
  let km2 := kMax (opnd i 5 1) (opnd i 4 1)
  ((opnd i 12 1 + km - 1) / km * ((opnd i 10 2 + 47) / 48), (opnd i 10 2 + km2 - 1) / km2)

/-- MMF (R216): once its QA tile is there (R196), the blocks are popped as they arrive; with all of them the products are
computed. The result of an
integer second product is the INT32 sum as FP32 (assumption log 26). -/
def mmf (e : EngPos) (w : Walker) (m : Module) : Module :=
  m.execOnly e w 0x13 fun m t s i =>
    let flags := opnd i 1 1
    let fa := opnd i 2 1
    let fb1 := opnd i 3 1
    let fb2 := opnd i 4 1
    let inter := opnd i 5 1
    let g := opnd i 6 1
    let rows := opnd i 8 2
    let n1 := opnd i 10 2
    let k1 := opnd i 12 1
    let n2 := opnd i 13 1
    let km := kMax fa fb1
    let km2 := kMax inter fb2
    let (nb1, nb2) := mmfBlocks i
    match rowRange s (opnd i 14 2) 0xFF rows with
    | none => m.abortTask e abOverflow
    | some r0 =>
      if (t.head 0).isNone then m
      else if t.blocks.length < nb1 + nb2 then match t.head 1 with
        | none => m
        | some b => m.putTask e { t.drop 1 with blocks := t.blocks ++ [b] }
      else
        let kept := if flags.testBit 3 then t.keepF else none
        match t.head 0, (match kept with | some f => some f | none => t.head 2) with
        | some x, some fusT =>
          let fus := fusT.bytes
          let tbl := SMap.get [] t.tables (opnd i 7 1 % 4)
          let f := s.accFlags flags (opnd i 7 1 / 4)
          let pre := (List.range rows).map fun j => fusedScaled fa fb1 k1 km n1 (flags.testBit 4) fus x t.blocks j
          let rws := pre.map (fusedRow g tbl)
          let enc := rws.map fun r => r.1.map (interOf inter fus)
          let nan := pre.any (·.any isNan32) || (inter ≠ 0 && rws.any (·.1.any isNan32))
          let fl := (enc.map fun r => r.foldl (fun a v => a ||| v.2) 0).foldl (· ||| ·)
            (aFlags fa x.rows x.scale k1 rows ||| blockFlags fb1 fb2 k1 n1 n2 km km2 nb1 t.blocks ||| flagIf nan arNanIn)
          let pv := fun (j c : Nat) => (((enc[j]?).getD [])[c]?).map (·.1)
          let b2 := fun (u c : Nat) => (blockAt t.blocks fb2 (nb1 + u / km2) km2 n2).val (u % km2) c
          let b2i := fun (u c : Nat) =>
            intElem fb2 ((blockAt t.blocks fb2 (nb1 + u / km2) km2 n2).bits (u % km2) c)
          let za := (wordAt fus 3).toInt
          let n1b := nb2 * km2
          let t := (List.range rows).foldl (fun (t : EngTask) j =>
            let old := t.accRow (r0 + j)
            let prodI := fun c => (List.range n1).map fun u => match pv j u with
              | some v => (intElem 0 v - za) * b2i u c
              | none => 0
            let prodF := fun c => (List.range n1b).map fun u => match pv j u with
              | some v => (elemVal inter v).mul (b2 u c)
              | none => (Fv.fin false 0 0).mul (b2 u c)
            let new := if inter = 0 then old.fusedInt f n2 prodI else old.accumulate false f n2 n1b prodI prodF
            let scale := fRecip ((rws[j]?).map (·.2) |>.getD 0)
            let new := if g = 20 then
                { new with cells := (List.range 48).map fun c =>
                    let v := (new.cells[c]?).getD 0
                    if c < n2 then fMul v scale else v }
              else new
            t.setRow (r0 + j) new) t
          let t := { t.drop 0 with blocks := [], keepF := some fusT }
          let t := if kept.isSome then t else t.drop 2
          let m := m.arith e fl
          m.pass e w t s
        | _, _ => m

/-! ### RFU and TLOAD (R219, R220) -/

/-- A QX tile as words. -/
def Tile.words (t : Tile) : List Word :=
  let b := t.bytes
  (List.range (b.length / 4)).map (wordAt b)

/-- The tiles at the head of QX that `n` pops bring, when they have arrived. -/
def EngTask.headsX (t : EngTask) (n : Nat) : Option (List Tile) :=
  let l := t.qx.take n
  if l.length = n && l.all (·.arrived) then some l else none

/-- The vectors of an RFU instruction for y and z, and how many are popped (R196, R219). -/
def EngTask.vectors (t : EngTask) (keep yv zv : Bool) : Option (Option Tile × Option Tile × Nat) :=
  if !yv && !zv then some (none, none, 0)
  else match (if keep then t.keepV else none) with
    | some v => some (if yv then some v else none, if zv then some v else none, 0)
    | none =>
      if keep || !(yv && zv) then match t.headsX 1 with
        | some [v] => some (if yv then some v else none, if zv then some v else none, 1)
        | _ => none
      else match t.headsX 2 with
        | some [a, b] => some (some a, some b, 2)
        | _ => none

/-- The elements of a logical row (R219). -/
def EngTask.logical (t : EngTask) (row span len q : Nat) : List Word :=
  (List.range len).map fun x => ((t.accRow (row + q * span + x / 48)).toFp.cells[x % 48]?).getD 0

/-- Store the elements of a logical row: an element at or beyond len keeps its bits. -/
def EngTask.setLogical (t : EngTask) (row span len q : Nat) (l : List Word) : EngTask :=
  (List.range ((len + 47) / 48)).foldl (fun (t : EngTask) k =>
    let r := t.accRow (row + q * span + k)
    t.setRow (row + q * span + k) { r with fp := true, cells := (List.range 48).map fun c =>
      if 48 * k + c < len then (l[48 * k + c]?).getD 0 else (r.cells[c]?).getD 0 }) t

/-- One logical row of an RFU instruction. -/
def EngTask.rfuRow (t : EngTask) (fn row span len q : Nat) (tbl : List Word) (imm : Word) (y z : Nat → Word) : EngTask :=
  let l := t.logical row span len q
  let key := row + q * span
  match fn with
  | 17 => { t with ra := t.ra.insert key (rowSum l) }
  | 18 => { t with ra := t.ra.insert key (rowMax l) }
  | 19 => { t with ra := t.ra.insert key (normStat l imm).1, rb := t.rb.insert key (normStat l imm).2 }
  | 20 => t.setLogical row span len q (softmaxRow l)
  | _ => t.setLogical row span len q ((List.range len).map fun x => rfuElem fn tbl ((l[x]?).getD 0) (y x) (z x))

/-- RFU (R219). -/
def rfu (e : EngPos) (w : Walker) (m : Module) : Module :=
  m.execOnly e w 0x14 fun m t s i =>
    let fn := opnd i 2 1
    let span := opnd i 3 1
    let row := opnd i 4 2
    let rows := opnd i 6 2
    let len := opnd i 8 2
    let sy := opnd i 10 1 % 16
    let sz := opnd i 10 1 / 16
    let imm : Word := BitVec.ofNat 32 (opnd i 12 4)
    if 512 < row + rows * span then m.abortTask e abOverflow
    else match t.vectors ((opnd i 1 1).testBit 0) (sy = 1) (sz = 1) with
      | none => m
      | some (vy, vz, pops) =>
        let tbl := SMap.get [] t.tables (opnd i 11 1 % 4)
        let src := fun (k : Nat) (v : Option Tile) (t : EngTask) (q x : Nat) => match k with
          | 1 => ((v.map fun v => v.words).getD [])[x % 48]?.getD 0
          | 2 => SMap.get 0 t.ra (row + q * span)
          | 3 => SMap.get 0 t.rb (row + q * span)
          | _ => imm
        let nan := (List.range rows).any fun q => (t.logical row span len q).any isNan32 ||
          (List.range len).any fun x => (1 ≤ fn && fn ≤ 7 && isNan32 (src sy vy t q x)) ||
            ((fn = 4 || fn = 7) && isNan32 (src sz vz t q x)) || (fn = 19 && isNan32 imm)
        let t := (List.range rows).foldl (fun (t : EngTask) q =>
          t.rfuRow fn row span len q tbl imm (src sy vy t q) (src sz vz t q)) t
        let t := if pops = 0 then t
          else { t with qx := t.qx.drop pops, keepV := match vz with | some v => some v | none => vy }
        (m.arith e (flagIf nan arNanIn)).pass e w t s

/-- TLOAD (R220). -/
def tload (e : EngPos) (w : Walker) (m : Module) : Module :=
  m.execOnly e w 0x15 fun m t s i =>
    match t.head 2 with
    | none => m
    | some x => m.pass e w { t.drop 2 with tables := t.tables.insert (opnd i 2 1 % 4) x.words } s

/-! ### WB (R176 to R178, R221) -/

/-- What a store writes for the cell of a row: encoding and flags. -/
def wbCell (mode fmt : Nat) (sat : Bool) (zo lo hi : Int) (tile : List Byte) (r : AccRow) (c : Nat) : Nat × Nat :=
  let v := (r.cells[c]?).getD 0
  let vi := if r.fp then f32ToInt v else v
  let vf := if r.fp then v else intToF32 v
  match mode with
  | 0 =>
    let (y, f) := requant vi (wordAt (tile.drop (12 * c)) 0) (wordAt (tile.drop (12 * c)) 1) (fieldAt tile (12 * c + 8) 1)
      zo lo hi
    (twos (fmtBits fmt) y, f)
  | 1 =>
    let (l, h) := if fmt = 16 then (-2147483648, 2147483647) else (lo, hi)
    let (y, f) := quantise vf (wordAt tile 0) zo l h
    (twos (fmtBits fmt) y, f)
  | 2 => floatStore fmt sat vf
  | _ => (v.toNat, if fmt = 13 then (floatStore 13 false v).2 else 0)

/-- The clamp bounds of a WB (R221). -/
def wbBound (fmt b : Nat) : Int := if fmt = 1 then (b : Int) else signedOf 8 b

/-- Where state buffer i of a gated stage begins (R124): 0 and 1 hold its input by parity, 2 and 3 its output. -/
def GateTask.buf (g : GateTask) (i : Nat) : Nat := g.area + i * g.size

/-- Where a row of a view lies in a state buffer; a row beyond its lines is not kept. -/
def GateTask.at_ (g : GateTask) (i : Nat) (r : Int) : Option Nat :=
  let l := (g.line0 : Int) + r
  if 0 ≤ l ∧ l < g.lines then some (g.buf i + l.toNat * g.pitch) else none

/-- The output view of a task (R122): where row 0 begins, its pitch, the bytes of a row. -/
def Module.outView (m : Module) (args : Nat) : Int × Int × Nat :=
  ((m.num (args + 96) 8 : Nat), (m.num (args + 104) 4 : Nat),
    m.num (args + 108) 2 * if m.num (args + 116) 1 ≥ 4 then 2 else 8)

/-- The mirror of writes in the new output-state buffer (R187, R222): the bytes that the body of the last decided gate
writes into its row. -/
def Module.gateMirror (m : Module) (t : EngTask) (s : WalkerSt) (l : List EngWrite) : List EngWrite :=
  match t.gate, s.gate with
  | some g, some _ => match g.rows.getLast? with
    | none => []
    | some (r, _) => match g.at_ (2 + g.parity) r with
      | none => []
      | some d =>
        let (base, pitch, wid) := m.outView t.args
        l.filterMap fun x =>
          let (lo, n) := rowPart base pitch wid r x.addr x.bytes.length
          if n = 0 then none
          else some (.of (d + (lo - (base + r * pitch)).toNat) ((x.bytes.drop (lo - (x.addr : Int)).toNat).take n))
  | _, _ => []

/-- Queue a task's writes, then go on. -/
def Module.storeRows (m : Module) (e : EngPos) (w : Walker) (t : EngTask) (s : WalkerSt) (l : List EngWrite) : Module :=
  let (t, m) := m.queueWrites t (l ++ m.gateMirror t s l)
  (m.pass e w t s).pump 17 e

/-- WB (R221). -/
def wb (e : EngPos) (w : Walker) (m : Module) : Module :=
  m.execOnly e w 0x16 fun m t s i =>
    let flags := opnd i 1 1
    let fmt := opnd i 3 1
    let rows := opnd i 6 2
    let n := opnd i 8 1
    let mode := opnd i 9 1
    let zo := signedOf 16 (opnd i 10 2)
    let lo := wbBound fmt (opnd i 12 1)
    let hi := wbBound fmt (opnd i 13 1)
    let kept := if flags.testBit 0 then t.keepW else none
    let needs := mode ≤ 1
    match rowRange s (opnd i 4 2) (opnd i 14 1) rows, (s.slots[opnd i 2 1]?).getD none with
    | none, _ => m.abortTask e abOverflow
    | some _, none => m.pass e w t s
    | some r0, some b =>
      if m.anyBusy (b.words t.args) then m else
      match (if needs then (match kept with | some x => some (some x) | none => (t.head 2).map some) else some none) with
      | none => m
      | some tile =>
        let (bad, m) := m.engReads e (b.words t.args)
        if bad then m.abortTask e abPoison else
        let v := { m.slotView t s b with fmt := fmt }
        let ((j0, j1), (e0, e1)) := v.inside
        let bytes := (tile.map (·.bytes)).getD []
        let inCols := (List.range n).filter fun c => e0 ≤ c && c < e1
        let inRows := (List.range rows).filter fun j => j0 ≤ j && j < j1
        let rowF := fun j => (t.accRow (r0 + j)).toFp
        let blk := fun j => inCols.map fun c => ((rowF j).cells[c]?).getD 0
        let cell := fun j c =>
          if mode = 3 then mxStore fmt (mxScale fmt (blk j)) (((rowF j).cells[c]?).getD 0)
          else wbCell mode fmt (flags.testBit 1) zo lo hi bytes (t.accRow (r0 + j)) c
        let fl := (inRows.map fun j => (inCols.map fun c => (cell j c).2).foldl (· ||| ·) 0).foldl (· ||| ·) 0
        let fl := fl ||| flagIf (mode = 3 && inRows.any fun j => mxScale fmt (blk j) = 255) arMxNan
        let l := v.writes rows n fun j c => (cell j c).1
        let sc := if mode = 3 then
            mergeWrites <| ((SlotView.scaleSpans { v with rowBytes := (n * fmtBits fmt + 7) / 8 } false).filter
              (·.row < rows)).map fun p => (p.addr, [(BitVec.ofNat 8 (mxScale fmt (blk p.row)), (255 : Byte))])
          else []
        let t := if needs then { (if kept.isSome then t else t.drop 2) with keepW := tile } else t
        (m.arith e fl).storeRows e w t s (l ++ sc)

/-! ### Dormouse gates (R127, R186, R187, R222, R241, R273) -/

/-- thresh / 65 535 rounded to FP32. -/
def thresh32 (n : Nat) : Word :=
  let q := n * 2 ^ 60 / 65535
  (Fv.fin false (2 * q + if n * 2 ^ 60 % 65535 = 0 then 0 else 1) (-61)).toF32

/-- Two elements of a working format differ by at most the threshold (R127, R186). -/
def nearEnough (fmt thresh a b : Nat) : Bool :=
  if fmt = 2 ∨ fmt = 5 then
    let d := fSub (elemVal 12 a).toF32 (elemVal 12 b).toF32
    let d := d &&& 0x7FFFFFFF
    !isNan32 d && !(ofF32 (thresh32 thresh)).lt (ofF32 d)
  else (a - b) + (b - a) ≤ thresh

/-- Where the current input rows go (R186). -/
def Module.gateIn (t : EngTask) (m : Module) : Option GateBuf :=
  t.gate.map fun g => ⟨g.buf g.parity, g.pitch, g.lines, g.line0, (m.num (t.args + 64) 8 : Nat),
    (m.num (t.args + 72) 4 : Nat), (m.num (t.args + 76) 2 * if m.num (t.args + 84) 1 ≥ 4 then 2 else 8 : Nat),
    -(m.num (t.args + 80) 2 : Nat), (m.num (t.args + 78) 2 + m.num (t.args + 82) 2 : Nat)⟩

/-- Input row l of the view that the argument block names is close to the row of frame f − 1; a row that the state buffer
does not keep is an edge line, made from rows that it keeps. -/
def Module.rowClose (m : Module) (args : Nat) (g : GateTask) (l : Int) : Bool :=
  let fmt := m.num (args + 84) 1
  let n := m.num (args + 76) 2 * (if 4 ≤ fmt then 1 else 4)
  let cur := ((m.num (args + 64) 8 : Nat) + l * (m.num (args + 72) 4 : Nat)).toNat
  match g.at_ (1 - g.parity) l with
  | none => true
  | some old => (List.range n).all fun i => nearEnough fmt g.thresh (m.num (cur + 2 * i) 2) (m.num (old + 2 * i) 2)

/-- The reuse count of output row r as the task read it at its start (R188); a row outside the output has none. -/
def GateTask.count (g : GateTask) (r : Int) : Option Nat :=
  if 0 ≤ r + g.above then g.counts[(r + g.above).toNat]? else none

/-- The gate decision for output row r (R127, R186). -/
def Module.gateReuse (m : Module) (args : Nat) (g : GateTask) (r : Int) : Bool :=
  let lines : Int := (m.num (args + 78) 2 : Nat)
  let above : Int := (m.num (args + 80) 2 : Nat)
  let below : Int := (m.num (args + 82) 2 : Nat)
  g.allow && (match g.count r with | some n => decide (n < g.maxReuse) | none => false) &&
    (List.range (2 * g.rho + 1)).all fun i =>
      let l := r - g.rho + i
      l < -above || lines + below ≤ l || m.rowClose args g l

/-- What the decision for output row r reads, and the copy of a reused row: the views in the argument block, the rows of this
frame and of frame f − 1, the output row of frame f − 1 (R127, R186, R187). -/
def Module.gateSpans (m : Module) (args : Nat) (g : GateTask) (r : Int) : List (Nat × Nat) :=
  let n := m.num (args + 76) 2 * if 4 ≤ m.num (args + 84) 1 then 2 else 8
  let row := fun (l : Int) => match g.at_ (1 - g.parity) l with
    | none => []
    | some old => [(((m.num (args + 64) 8 : Nat) + l * (m.num (args + 72) 4 : Nat)).toNat, n), (old, n)]
  let out := match g.at_ (3 - g.parity) r with
    | some old => if m.gateReuse args g r then [(old, (m.outView args).2.2)] else []
    | none => []
  (args + 64, 64) :: ((List.range (2 * g.rho + 1)).flatMap fun i => row (r - g.rho + i)) ++ out

/-- A tile was fetched inside gate body `no`. -/
def ofGate (no : Nat) (x : Tile) : Bool := x.gate = some no

/-- Cancel the tiles of a skipped body, in every queue and in RES; the badger's RES counts are again those it entered the
body with (R273). -/
def EngTask.cancelGate (t : EngTask) (no : Nat) : EngTask :=
  let keep := fun (k : Nat) => 16 ≤ k && k < 48
  { t with qa := t.qa.filter (!ofGate no ·), qb := t.qb.filter (!ofGate no ·), qx := t.qx.filter (!ofGate no ·)
           res := t.res.filter fun x => !ofGate no x.2
           resCnt := match t.badger.gate with
             | some (k, _) => if k = no then t.gateRes.foldl (fun s x => SMap.set 0 s x.1 x.2) (t.resCnt.filter fun x => keep x.1)
               else t.resCnt
             | none => t.resCnt
           cancelled := t.cancelled + ((t.tiles.filter (ofGate no)).map (·.outstanding)).sum }

/-- A walker leaves a skipped body: loops opened in it are closed (R241, R273). -/
def WalkerSt.skipBody (s : WalkerSt) (g last : Nat) : WalkerSt :=
  { s with pc := last, gate := none, loops := s.loops.filter fun l => !(g < l.top && l.last ≤ last) }.advance

/-- The stage of a picture task. -/
def refStage (r : TaskRef) : Nat := match r with | .stream _ st _ _ => st.val | .job _ st _ => st

/-- Where a reused row is copied, and its bytes: to the output view and to the new output-state buffer (R187). -/
def Module.reuseRow (m : Module) (args : Nat) (g : GateTask) (r : Int) : List (Nat × List Byte) :=
  let (base, pitch, n) := m.outView args
  match g.at_ (3 - g.parity) r, g.at_ (2 + g.parity) r with
  | some old, some new => let b := m.bytes old n; [((base + r * pitch).toNat, b), (new, b)]
  | _, _ => []

/-- The writes that copy a reused row (R187). -/
def Module.reuseWrites (m : Module) (t : EngTask) (g : GateTask) (r : Int) : List EngWrite :=
  (m.reuseRow t.args g r).flatMap fun x => plainWrites x.1 x.2

/-- The badger leaves the body of gate `no` that is skipped: where it stands inside, it goes on after it (R241, R273). -/
def EngTask.badgerSkip (t : EngTask) (no : Nat) : EngTask :=
  match t.badger.gate with
  | some (k, g, last) =>
    if k = no then
      if g < t.badger.pc && t.badger.pc ≤ last then { t with badger := t.badger.skipBody g last }
      else { t with badger := { t.badger with gate := none } }
    else t
  | none => t

/-- GATE (R222): a no-op unless the task runs gated. -/
def gate (e : EngPos) (w : Walker) (m : Module) : Module :=
  m.instr e w 0x17 fun m t s i =>
    let last := s.pc + opnd i 4 2
    match t.gate with
    | none => m.pass e w t s
    | some g => match w with
      | .badger =>
        let s' := { s with gates := s.gates + 1 }
        match t.decisions[s.gates]? with
        | some true => m.putTask e (t.setWalk w (s'.skipBody s.pc last))
        | some false => m.pass e w t s'
        | none => m.pass e w { t with gateRes := t.resCnt.filter fun x => x.1 < 16 || 48 ≤ x.1 }
            { s' with gate := some (s.gates, s.pc, last) }
      | .execute =>
        let r := (s.reg (opnd i 2 1)).toInt
        if m.anyBusy (m.gateSpans t.args g r) then m else
        let (bad, m) := m.engReads e (m.gateSpans t.args g r)
        if bad then m.abortTask e abPoison else
        let reuse := m.gateReuse t.args g r
        let no := t.decisions.length
        let t := { t with decisions := t.decisions ++ [reuse], gate := some { g with rows := g.rows ++ [(r, reuse)] } }
        let m := m.count (ENG_X_CNT_ROWS_GATED e.cl e.x) 1
        if !reuse then m.pass e w t { s with gate := some (no, s.pc, last) }
        else
          let m := m.count (ENG_X_CNT_ROWS_REUSED e.cl e.x) 1
          let t := (t.cancelGate no).badgerSkip no
          let (t, m) := m.queueWrites t (m.reuseWrites t g r)
          (m.putTask e (t.setWalk w (s.skipBody s.pc last))).pump 17 e

/-- FETCH (R210, R242). -/
def fetch (e : EngPos) (w : Walker) (errs : List MemErr) (m : Module) : Module :=
  fetchWith (fun _ t m => Module.gateIn t m) e w errs m

/-- CANCELLATION_COMPLETE: the last outstanding read of cancelled tiles has returned (R273), those in windows too; regions
that a task that has left held for it are free of it (R266). -/
def cancellationComplete (e : EngPos) (m : Module) : Module :=
  let x := m.eng e
  if ((x.task.map fun t => t.abort.isSome).getD false) && (m.engWindow e).any (·.msg.type ≠ 0x10) then m else
  let m := m.setEng e { x with drain := [], task := x.task.map fun t => { t with cancelled := 0 } }
  match x.task with
  | none => m
  | some t => m.pumpReads t.todoLen e

def execFetch (e : EngPos) (w : Walker) (errs : List MemErr) (s : State) := ok s (fetch e w errs s.toModule)
def execWload (e : EngPos) (w : Walker) (s : State) := ok s (wload e w s.toModule)
def execMm (e : EngPos) (w : Walker) (s : State) := ok s (mm e w s.toModule)
def execMmf (e : EngPos) (w : Walker) (s : State) := ok s (mmf e w s.toModule)
def execRfu (e : EngPos) (w : Walker) (s : State) := ok s (rfu e w s.toModule)
def execTload (e : EngPos) (w : Walker) (s : State) := ok s (tload e w s.toModule)
def execWb (e : EngPos) (w : Walker) (s : State) := ok s (wb e w s.toModule)
def execGate (e : EngPos) (w : Walker) (s : State) := ok s (gate e w s.toModule)
def execCancellationComplete (e : EngPos) (s : State) := ok s (cancellationComplete e s.toModule)

end Sys2Proof.Machine
end

