-- ==== Sys2Proof/Machine/Library.lean ====
section
/-!
DEFINITION. The resident library (07_engine_programs R230 to R232): CALL of each routine. What the spec leaves open of a
routine (the layout of its tables, its ties, its samples) is a free value (assumption log 22).
-/
namespace Sys2Proof.Machine

/-- A view of the argument block (R122). -/
structure LibView where
  base : Nat
  pitch : Nat
  width : Nat
  lines : Nat
  /-- Lines of one array of a K-blocked view: above + lines + below (R252). -/
  all : Nat
  /-- Its working format code (R116, R122). -/
  code : Nat

/-- An operation record (R231). -/
structure LibRec where
  fa : Nat
  fb : Nat
  fo : Nat
  flags : Nat
  za : Int
  zo : Int
  lo : Int
  hi : Int
  kh : Nat
  kw : Nat
  sh : Nat
  sw : Nat
  dh : Nat
  dw : Nat
  pt : Nat
  pl : Nat
  cin : Nat
  cout : Nat
  groups : Nat
  fn : Nat
  scalar : Word
  requant : Nat
  vector : Nat
  count : Nat

/-- A call: the module as the routine finds it, its task, its views, its record, and the bytes that it reads, on which every
value that the routine leaves open depends (R175, R194). -/
structure LibCall where
  m : Module
  t : EngTask
  inp : LibView
  out : LibView
  wts : LibView
  par : LibView
  aux : LibView
  r : LibRec
  key : List Byte

/-- Where the scale bytes of the elements of a read lie (R169; their place is the model's choice, assumption log 22): for pixels of
`kc` channels from channel `off` on, `nb` scales a pixel from an address; for the rows of a weight block from row `off` of
its reduction dimension on, 48 scales for each 32 rows. -/
inductive LibScale
  | pix (at_ nb kc off : Nat)
  | col (at_ off : Nat)
deriving DecidableEq, Repr

/-- What a routine reads: n elements in a format from element `start` behind an address, with their scales. -/
structure LibRead where
  base : Nat
  start : Nat
  n : Nat
  fmt : Nat
  scale : Option LibScale
deriving DecidableEq, Repr

/-- Elements that a routine stores: they follow one another from element `start` behind an address. -/
structure LibRow where
  base : Nat
  start : Nat
  bits : Nat
  elems : List Nat

/-- A tile of a routine: what it reads, what it then stores (R252). -/
structure LibTile where
  reads : List LibRead
  rows : List LibRow

/-- What a routine does: it refuses its record, or works on tiles in order; with the flags it sets and the blocks of B that
it leaves in RES (R252). -/
structure LibOut where
  bad : Bool
  tiles : List LibTile
  flags : Nat
  res : List Tile

/-- View i of a task's argument block. -/
def Module.libView (m : Module) (t : EngTask) (i : Nat) : LibView :=
  let a := t.args + 32 * (i % 8)
  ⟨m.num a 8, m.num (a + 8) 4, m.num (a + 12) 2, m.num (a + 14) 2, m.num (a + 14) 2 + m.num (a + 16) 2 + m.num (a + 18) 2,
    m.num (a + 20) 1⟩

/-- A byte that a routine has read through a window. -/
def EngTask.libAt (t : EngTask) (a : Nat) : Option Byte :=
  t.lib.bind fun l => (l.1.zip l.2.raw).findSome? fun x => if x.1.1 ≤ a && a < x.1.1 + x.1.2 then x.2[a - x.1.1]? else none

/-- A byte as a routine reads it: through a window as it has come back. -/
def Module.libByte (m : Module) (t : EngTask) (a : Nat) : Byte :=
  match m.spaceOf a with
  | .window _ _ => (t.libAt a).getD 0
  | _ => m.byte a

def Module.libNum (m : Module) (t : EngTask) (a n : Nat) : Nat := ofLe ((List.range n).map fun i => m.libByte t (a + i))

/-- The record at an address (R231). -/
def Module.libRec (m : Module) (t : EngTask) (a : Nat) : LibRec :=
  let f := fun o n => m.libNum t (a + o) n
  { fa := f 0 1, fb := f 1 1, fo := f 2 1, flags := f 3 1, za := signedOf 16 (f 4 2), zo := signedOf 16 (f 6 2),
    lo := signedOf 16 (f 8 2), hi := signedOf 16 (f 10 2), kh := f 12 1, kw := f 13 1, sh := f 14 1, sw := f 15 1,
    dh := f 16 1, dw := f 17 1, pt := f 18 1, pl := f 19 1, cin := f 20 2, cout := f 22 2, groups := f 24 2,
    fn := f 26 1, scalar := BitVec.ofNat 32 (f 28 4), requant := f 32 4, vector := f 36 4, count := f 40 4 }

/-- The address of a line of a view. -/
def LibView.line (v : LibView) (l : Nat) : Nat := devAddr ((v.base : Int) + (l * v.pitch : Nat))

/-- Element i of the packed elements from an address. -/
def LibCall.elem (c : LibCall) (fmt a i : Nat) : Nat :=
  let b := fmtBits fmt
  c.m.libNum c.t (a + i * b / 8) ((i * b % 8 + b + 7) / 8) / 2 ^ (i * b % 8) % 2 ^ b

/-- The value of such an element, under the scale byte at an address (R169). -/
def LibCall.elemV (c : LibCall) (fmt a i : Nat) (scale : Nat) : Fv :=
  let v := elemVal fmt (c.elem fmt a i)
  if isMx fmt then scaleBy v (c.m.libByte c.t scale) else v

/-- Where the scale byte of element i of a read lies. -/
def LibScale.addr (x : LibScale) (i : Nat) : Nat :=
  match x with
  | .pix a nb kc off => a + i / max 1 kc * nb + (off + i % max 1 kc) / 32
  | .col a off => a + (off + i / 48) / 32 * 48 + i % 48

/-- The bytes that a read takes: its elements', and their scales'. -/
def LibRead.spans (x : LibRead) : List (Nat × Nat) :=
  let b := fmtBits x.fmt
  let lo := x.start * b / 8
  let own := (devAddr ((x.base + lo : Nat) : Int), ((x.start + x.n) * b + 7) / 8 - lo)
  own :: match x.scale with
    | some (.pix a nb kc _) =>
      [(a + x.start / max 1 kc * nb, (x.start + x.n + kc - 1) / max 1 kc * nb - x.start / max 1 kc * nb)]
    | some (.col a off) => [(a + off / 32 * 48, ((off + x.n / 48 + 31) / 32 - off / 32) * 48)]
    | none => []

/-- Element i of line l of a view in a format. -/
def LibCall.bits (c : LibCall) (v : LibView) (fmt l i : Nat) : Nat := c.elem fmt (v.line l) i

/-- Its value. -/
def LibCall.val (c : LibCall) (v : LibView) (fmt l i : Nat) : Fv := elemVal fmt (c.bits v fmt l i)

/-- Channel ch of pixel x of line l of a K-blocked view of n channels: the line's address in its block's array, and the
element there (R252). -/
def LibView.blocked (v : LibView) (kt n l x ch : Nat) : Nat × Nat :=
  let b := ch / kt
  (devAddr ((v.base : Int) + ((b * v.all + l) * v.pitch : Nat)), x * min (n - b * kt) kt + ch % kt)

/-- The scale bytes of an MX view of n channels lie behind its last array: pixel by pixel, a byte for each 32 channels (R169;
assumption log 22). -/
def LibView.scaleAt (v : LibView) (arrays n l x ch : Nat) : Nat :=
  devAddr ((v.base : Int) + (arrays * v.all * v.pitch + (l * v.width + x) * ((n + 31) / 32) + ch / 32 : Nat))

/-- The scale bytes of MX weights lie behind the last of their blocks: for each N group and tap (`g`), 48 for each 32 rows of
the reduction dimension of `k` (assumption log 22). -/
def LibView.colScale (v : LibView) (fmt kt blocks k g : Nat) : Nat :=
  v.base + blocks * (kt * 48 * fmtBits fmt / 8) + g * ((k + 31) / 32 * 48)

/-- Row r, column n of block i of the weights, blocks of kt × 48 elements one after another (R252): where the block
begins, and the element there. -/
def LibView.block (v : LibView) (fmt kt i r n : Nat) : Nat × Nat :=
  (v.base + i * (kt * 48 * fmtBits fmt / 8), r * 48 + n)

/-- An integer format. -/
def intFmt (f : Nat) : Bool := isInt f || f = 14 || f = 15 || f = 16

/-- The value of an input element with its zero point taken off, as FP32. -/
def LibCall.inVal (c : LibCall) (v : LibView) (l i : Nat) : Word :=
  if intFmt c.r.fa then (ofInt (intElem c.r.fa (c.bits v c.r.fa l i) - c.r.za)).toF32 else (c.val v c.r.fa l i).toF32

/-- The range of an integer format. -/
def intRange (f : Nat) : Int × Int :=
  match f with
  | 1 => (0, 255) | 2 => (-8, 7) | 14 => (-32768, 32767) | 15 => (0, 65535) | 16 => (-2147483648, 2147483647)
  | _ => (-128, 127)

/-- An element to store: its value as FP32, its encoding and flags where the format is not MX. -/
structure LibElem where
  value : Word
  enc : Nat
  flags : Nat

/-- Store an FP32 value in the output format without a scale. -/
def LibCall.plain (c : LibCall) (clamp : Bool) (v : Word) : LibElem :=
  let f := c.r.fo
  if intFmt f then
    let (lo, hi) := intRange f
    let (y, fl) := quantise v f32one c.r.zo (if clamp then max lo c.r.lo else lo) (if clamp then min hi c.r.hi else hi)
    ⟨v, twos (fmtBits f) y, fl⟩
  else if isMx f then ⟨v, 0, 0⟩
  else ⟨v, (floatStore f false v).1, (floatStore f false v).2⟩

/-- Store an accumulator cell for output channel n by the record's tile (R176, R177, R221). -/
def LibCall.cell (c : LibCall) (fp : Bool) (v : Word) (n : Nat) : LibElem :=
  let tile := (List.range (12 * n + 16)).map fun i => c.m.libByte c.t (c.par.base + c.r.requant + i)
  let row : AccRow := { AccRow.rest with fp := fp, cells := List.replicate (n + 1) v }
  let f := c.r.fo
  let w := if fp then v else intToF32 v
  if isMx f then ⟨w, 0, 0⟩
  else if f = 16 && !fp then ⟨w, v.toNat, 0⟩
  else
    let (x, fl) := wbCell (if intFmt f then (if fp then 1 else 0) else 2) f false c.r.zo c.r.lo c.r.hi tile row n
    ⟨w, x, fl⟩

/-- Elements of a line that a routine stores together: of an MX format, of one block of 32, with all the values of the block and
the place of its scale byte (R178). -/
structure LibLine where
  base : Nat
  start : Nat
  elems : List LibElem
  whole : List Word
  scale : Nat

/-- What is stored of a line: elements and scale byte, and the flags (R178). -/
def LibLine.store (fmt : Nat) (x : LibLine) : LibRow × List LibRow × Nat :=
  if isMx fmt then
    let s := mxScale fmt x.whole
    let l := x.elems.map fun e => mxStore fmt s e.value
    (⟨x.base, x.start, fmtBits fmt, l.map (·.1)⟩, [⟨x.scale, 0, 8, [s]⟩],
      l.foldl (fun a y => a ||| y.2) (flagIf (s = 255) arMxNan))
  else (⟨x.base, x.start, fmtBits fmt, x.elems.map (·.enc)⟩, [], x.elems.foldl (fun a e => a ||| e.flags) 0)

/-- What a routine does on tiles of lines: each stores its elements, then its scale bytes (R226). -/
def libStores (fmt : Nat) (l : List (List LibRead × List LibLine)) : LibOut :=
  let go := l.map fun x => (x.1, x.2.map (·.store fmt))
  ⟨false, go.map fun x => ⟨x.1, x.2.map (·.1) ++ x.2.flatMap (·.2.1)⟩,
    go.foldl (fun a x => x.2.foldl (fun a y => a ||| y.2.2) a) 0, []⟩

/-- The lines of n elements from element lo of output line l: an MX format in blocks of 32 (R178). -/
def LibCall.lineOf (c : LibCall) (fmt total l lo n : Nat) (elem : Nat → LibElem) : List LibLine :=
  let at_ := c.out.line l
  if isMx fmt then (List.range ((n + 31) / 32)).map fun b =>
    let es := (List.range (min 32 (n - 32 * b))).map fun i => elem (lo + 32 * b + i)
    ⟨at_, lo + 32 * b, es, es.map (·.value),
      devAddr ((c.out.base : Int) + (c.out.all * c.out.pitch + l * ((total + 31) / 32) + lo / 32 + b : Nat))⟩
  else [⟨at_, lo, (List.range n).map fun i => elem (lo + i), [], 0⟩]

/-- A routine on lines of n elements of the output, in column tiles of at most 16 KiB (R252); `need` gives what a tile reads: of
its line, its first element and their number. -/
def LibCall.rows (c : LibCall) (fmt lines n : Nat) (need : Nat → Nat → Nat → List LibRead) (elem : Nat → Nat → LibElem) :
    LibOut :=
  let w := 131072 / fmtBits fmt
  libStores fmt <| (List.range lines).flatMap fun l => (List.range ((n + w - 1) / w)).map fun q =>
    let k := min w (n - q * w)
    (need l (q * w) k, c.lineOf fmt n l (q * w) k (elem l))

/-- BAD_RECORD. -/
def libBad : LibOut := ⟨true, [], 0, []⟩

/-- Formats that the RFU loads, and formats that a store may have (R167). -/
def loadOk (f : Nat) : Bool := f ≤ 5 || 12 ≤ f && f ≤ 16
def storeOk (f : Nat) : Bool := f ≤ 13 || f = 16

/-- The clamp bounds lie inside an integer output format (R176). -/
def LibRec.clampOk (r : LibRec) : Bool :=
  !intFmt r.fo || (intRange r.fo).1 ≤ r.lo && r.lo ≤ (intRange r.fo).2 && (intRange r.fo).1 ≤ r.hi && r.hi ≤ (intRange r.fo).2

/-- The geometry of a window: sizes, strides and dilations of at least 1. -/
def LibRec.windowOk (r : LibRec) : Bool :=
  r.kh ≠ 0 && r.kw ≠ 0 && r.sh ≠ 0 && r.sw ≠ 0 && r.dh ≠ 0 && r.dw ≠ 0

/-- A call of a routine whose record gives no zero points (R232). -/
def LibCall.noZero (c : LibCall) : LibCall := { c with r := { c.r with za := 0, zo := 0 } }

/-- The zero points that A allows (R171). -/
def zaOk (fmt : Nat) (z : Int) : Bool :=
  if fmt = 2 then -8 ≤ z && z ≤ 7 else if fmt ≤ 1 then -128 ≤ z && z ≤ 255 else z = 0

/-- One accumulation of exact products: the INT32 or FP32 result (R173, R174). -/
def LibCall.dot (c : LibCall) (ints : List (Int × Int)) (fps : List (Fv × Fv)) : Word :=
  if isInt c.r.fa then BitVec.ofInt 32 (intColumn (ints.map fun p => p.1 * p.2))
  else
    let (a, p) := fpColumn 0 0 Part.zero (fps.map fun q => q.1.mul q.2)
    if fps.length % 32 = 0 then a else closeGroup a p

/-- A pair of formats of R172. -/
def fmtPair (a b : Nat) : Bool :=
  (a ≤ 1 && (b = 0 || b = 2)) || (a = 2 && b = 2) || ((a = 3 || a = 4) && (b = 3 || b = 4)) || (a = 5 && b = 5) ||
    (a = 6 && b = 6) || (7 ≤ a && a ≤ 10 && 7 ≤ b && b ≤ 10) || (a = 11 && b = 11)

/-- Tile rows of CONV2D and GEMM for M rows (R252). -/
def tileRows (fa kt rows : Nat) : Nat :=
  let mm := min 256 (131072 / (kt * fmtBits fa) / 16 * 16)
  16 * (((rows + (rows + mm - 1) / mm - 1) / max 1 ((rows + mm - 1) / mm) + 15) / 16)

/-- The channel groups that a routine forms one after another: N groups of 48; for an MX output blocks of 32, so that a tile
holds whole blocks (R178, R252). -/
def LibRec.channelGroups (r : LibRec) (groups : List (Nat × Nat)) : List (Nat × Nat) :=
  if isMx r.fo then (List.range ((r.cout + 31) / 32)).map fun j => (32 * j, min 32 (r.cout - 32 * j)) else groups

/-- A K-blocked output of n channels, in the order in which its tiles are stored (R252): `groups` gives first channel and
channels of each channel group, `tiles` the pixels of each tile of a group; `need` what a tile of a group reads. -/
def LibCall.blockedTiles (c : LibCall) (kt n : Nat) (groups : List (Nat × Nat)) (tiles : List (List (Nat × Nat)))
    (need : Nat × Nat → List (Nat × Nat) → List LibRead) (cell : Nat → Nat → Nat → LibElem) : LibOut :=
  libStores c.r.fo <| (c.r.channelGroups groups).flatMap fun g => tiles.map fun px =>
    (need g px, px.flatMap fun (l, p) =>
      let whole := if isMx c.r.fo then (List.range g.2).map fun k => (cell l p (g.1 + k)).value else []
      (List.range ((g.1 + g.2 + kt - 1) / kt)).filterMap fun b =>
        let lo := max g.1 (b * kt)
        let hi := min (g.1 + g.2) (b * kt + kt)
        if hi ≤ lo then none
        else
          let (a, i) := c.out.blocked kt n l p lo
          some ⟨a, i, (List.range (hi - lo)).map fun k => cell l p (lo + k), whole,
            c.out.scaleAt ((n + kt - 1) / kt) n l p g.1⟩)

/-- What a tile reads of the lines of a K-blocked view of n channels: pixels [x0, x1) of line l, the blocks that hold channels
[c0, c1) (R242, R252). -/
def LibView.blockedReads (v : LibView) (fmt kt n l x0 x1 c0 c1 : Nat) : List LibRead :=
  ((List.range ((n + kt - 1) / kt)).filter fun b => b * kt < c1 && c0 < b * kt + kt).map fun b =>
    let kc := min (n - b * kt) kt
    ⟨(v.blocked kt n l 0 (b * kt)).1, x0 * kc, (x1 - x0) * kc, fmt,
      if isMx fmt then some (.pix (v.scaleAt ((n + kt - 1) / kt) n l 0 0) ((n + 31) / 32) kc (b * kt)) else none⟩

/-- The blocks of the weights of N group and tap g, of the reduction dimension of k in all `blocks` (R252). -/
def LibView.blocks (v : LibView) (fmt kt blocks k g : Nat) : List LibRead :=
  (List.range ((k + kt - 1) / kt)).map fun q =>
    ⟨(v.block fmt kt (g * ((k + kt - 1) / kt) + q) 0 0).1, 0, kt * 48, fmt,
      if isMx fmt then some (.col (v.colScale fmt kt blocks k g) (q * kt)) else none⟩

/-- The REQUANT tile of n channels or the scale of a QUANT tile (R221); the other modes have no tile. -/
def LibCall.tileRead (c : LibCall) (n : Nat) : List LibRead :=
  let k := if !intFmt c.r.fo then 0 else if !isInt c.r.fa then 4 else if c.r.fo = 16 then 0 else 12 * n
  if k = 0 then [] else [⟨c.par.base + c.r.requant, 0, k, 0, none⟩]

/-- The blocks of B that a routine leaves in RES: when its template uses RES for weights, they fit 12 indices and the engine
holds no resident set (R252). -/
def LibCall.resTiles (c : LibCall) (kt blocks : Nat) (held : Bool) : List Tile :=
  if c.t.resUse ≠ 2 || 12 < blocks || held then []
  else (List.range blocks).map fun i =>
    ⟨fmtBits c.r.fb, (List.range kt).map fun r => packElems (fmtBits c.r.fb) ((List.range 48).map fun n =>
        let w := c.wts.block c.r.fb kt i r n
        c.elem c.r.fb w.1 w.2), [], 0, kt, 0, 48, 0, [], [], true, none⟩

/-- The position holds a resident set. -/
def LibCall.held (c : LibCall) : Bool :=
  (c.m.engines : List (Nat × Eng)).any fun x => !x.2.sets.isEmpty && (x.2.task.map (·.ref)) = some c.t.ref

/-- CONV2D: NHWC, K-blocked; the weights lie by group, output channel group, tap and input channel block (R252; groups:
assumption log 22). -/
def libConv (c : LibCall) : LibOut :=
  let r := c.r
  if !(fmtPair r.fa r.fb && storeOk r.fo && r.windowOk && zaOk r.fa r.za && r.clampOk) || r.cin = 0 || r.cout = 0 ||
      r.groups = 0 || r.cin % r.groups ≠ 0 || r.cout % r.groups ≠ 0 then libBad
  else
    let kt := kMax r.fa r.fb
    let cg := r.cin / r.groups
    let ng := r.cout / r.groups
    let kb := (cg + kt - 1) / kt
    let gb := (ng + 47) / 48
    let blocks := r.groups * gb * (r.kh * r.kw) * kb
    let groups := (List.range r.groups).flatMap fun g => (List.range gb).map fun j =>
      (g * ng + 48 * j, min 48 (ng - 48 * j))
    let mt := max 1 (tileRows r.fa kt c.out.width)
    let tiles := (List.range c.out.lines).flatMap fun l => (List.range ((c.out.width + mt - 1) / mt)).map fun q =>
      (List.range (min mt (c.out.width - q * mt))).map fun x => (l, q * mt + x)
    let wgroup := fun (n : Nat) => n / ng * gb + n % ng / 48
    let need := fun (g : Nat × Nat) (px : List (Nat × Nat)) =>
      let oy := ((px.head?).map (·.1)).getD 0
      let ox := ((px.head?).map (·.2)).getD 0
      let c0 := g.1 / ng * cg
      let c1 := ((g.1 + g.2 - 1) / ng + 1) * cg
      let x0 := ((ox * r.sw : Nat) : Int) - (r.pl : Nat)
      let x1 := (((ox + px.length - 1) * r.sw + (r.kw - 1) * r.dw : Nat) : Int) - (r.pl : Nat) + 1
      let ins := (List.range r.kh).flatMap fun ty =>
        let iy : Int := ((oy * r.sh + ty * r.dh : Nat) : Int) - (r.pt : Nat)
        if 0 ≤ iy ∧ iy < c.inp.lines then
          c.inp.blockedReads r.fa kt r.cin iy.toNat x0.toNat (min x1.toNat c.inp.width) c0 c1
        else []
      let ws := (((List.range g.2).map fun k => wgroup (g.1 + k)).eraseDups).flatMap fun i =>
        (List.range (r.kh * r.kw)).flatMap fun tap => c.wts.blocks r.fb kt blocks cg (i * (r.kh * r.kw) + tap)
      ins ++ ws ++ c.tileRead r.cout
    let o := c.blockedTiles kt r.cout groups tiles need fun oy ox n =>
      let g := n / ng
      let taps := (List.range (r.kh * r.kw)).flatMap fun tap => (List.range cg).map fun ci =>
        let iy : Int := ((oy * r.sh + tap / r.kw * r.dh : Nat) : Int) - (r.pt : Nat)
        let ix : Int := ((ox * r.sw + tap % r.kw * r.dw : Nat) : Int) - (r.pl : Nat)
        let inside : Bool := decide (0 ≤ iy ∧ iy < c.inp.lines ∧ 0 ≤ ix ∧ ix < c.inp.width)
        let wt := wgroup n * (r.kh * r.kw) + tap
        (inside, c.inp.blocked kt r.cin iy.toNat ix.toNat (g * cg + ci),
          c.inp.scaleAt ((r.cin + kt - 1) / kt) r.cin iy.toNat ix.toNat (g * cg + ci),
          c.wts.block r.fb kt (wt * kb + ci / kt) (ci % kt) (n % ng % 48),
          c.wts.colScale r.fb kt blocks cg wt + ci / 32 * 48 + n % ng % 48)
      let v := c.dot
        (taps.map fun (i, x, _, w, _) => (if i then intElem r.fa (c.elem r.fa x.1 x.2) - r.za else 0,
          intElem r.fb (c.elem r.fb w.1 w.2)))
        (taps.map fun (i, x, xs, w, ws) => (if i then c.elemV r.fa x.1 x.2 xs else Fv.fin false 0 0,
          c.elemV r.fb w.1 w.2 ws))
      c.cell (!isInt r.fa) v n
    { o with res := c.resTiles kt blocks c.held }

/-- GEMM: out = in × weights, K-blocked (R252). -/
def libGemm (c : LibCall) : LibOut :=
  let r := c.r
  if !(fmtPair r.fa r.fb && storeOk r.fo && zaOk r.fa r.za && r.clampOk) || r.cin = 0 || r.cout = 0 then libBad
  else
    let kt := kMax r.fa r.fb
    let kb := (r.cin + kt - 1) / kt
    let blocks := (r.cout + 47) / 48 * kb
    let groups := (List.range ((r.cout + 47) / 48)).map fun j => (48 * j, min 48 (r.cout - 48 * j))
    let mt := max 1 (tileRows r.fa kt c.inp.lines)
    let tiles := (List.range ((c.inp.lines + mt - 1) / mt)).map fun q =>
      (List.range (min mt (c.inp.lines - q * mt))).map fun x => (q * mt + x, 0)
    let need := fun (g : Nat × Nat) (px : List (Nat × Nat)) =>
      (px.flatMap fun p => c.inp.blockedReads r.fa kt r.cin p.1 0 1 0 r.cin) ++
        ((List.range ((g.1 + g.2 + 47) / 48)).filter (g.1 / 48 ≤ ·)).flatMap (c.wts.blocks r.fb kt blocks r.cin) ++
        c.tileRead r.cout
    let o := c.blockedTiles kt r.cout groups tiles need fun l _ n =>
      let l := (List.range r.cin).map fun k =>
        (c.inp.blocked kt r.cin l 0 k, c.inp.scaleAt kb r.cin l 0 k, c.wts.block r.fb kt (n / 48 * kb + k / kt) (k % kt) (n % 48),
          c.wts.colScale r.fb kt blocks r.cin (n / 48) + k / 32 * 48 + n % 48)
      let v := c.dot
        (l.map fun (x, _, w, _) => (intElem r.fa (c.elem r.fa x.1 x.2) - r.za, intElem r.fb (c.elem r.fb w.1 w.2)))
        (l.map fun (x, xs, w, ws) => (c.elemV r.fa x.1 x.2 xs, c.elemV r.fb w.1 w.2 ws))
      c.cell (!isInt r.fa) v n
    { o with res := c.resTiles kt blocks c.held }

/-- Elements of a pixel of a view: those of its working format (R116); of a view without one, from its pitch (assumption log
22). -/
def LibView.chans (v : LibView) (fmt : Nat) : Nat :=
  if 1 ≤ v.code && v.code ≤ 3 then 4 else if 4 ≤ v.code && v.code ≤ 6 then 1
  else max 1 (v.pitch * 8 / fmtBits fmt / max 1 v.width)

/-- What a tile reads of line l of a view: n elements from element lo. -/
def LibView.part (v : LibView) (fmt l lo n : Nat) : LibRead := ⟨v.line l, lo, n, fmt, none⟩

/-- A logical row of a routine: at most 86 × 48 elements (R219, R252). -/
def rowMaxLen : Nat := 86 * 48

/-- The lowest code of a format, the padding of maxima (R253). -/
def lowCode (f : Nat) : Nat :=
  match f with
  | 0 => 0x80 | 2 => 8 | 3 => 0xFE | 4 => 0xFC | 5 => 0xFF80 | 12 => 0xFC00 | 13 => 0xFF800000
  | 14 => 0x8000 | 16 => 0x80000000 | _ => 0

/-- POOL (R253): the maximum of the window, where padding has the lowest code; or the average of its inside elements, whose
value over a window without one is free. -/
def libPool (c : LibCall) : LibOut :=
  let r := c.r
  if !(loadOk r.fa && storeOk r.fo && r.windowOk) then libBad
  else
    let ch := c.inp.chans r.fa
    let low := if intFmt r.fa then (ofInt (intElem r.fa (lowCode r.fa) - r.za)).toF32 else (elemVal r.fa (lowCode r.fa)).toF32
    let need := fun (oy lo n : Nat) => (List.range r.kh).filterMap fun ty =>
      let iy : Int := ((oy * r.sh + ty * r.dh : Nat) : Int) - (r.pt : Nat)
      let x0 := ((lo / ch * r.sw : Nat) : Int) - (r.pl : Nat)
      let x1 := min ((((lo + n - 1) / ch * r.sw + (r.kw - 1) * r.dw : Nat) : Int) - (r.pl : Nat) + 1) (c.inp.width : Int)
      if 0 ≤ iy ∧ iy < c.inp.lines then some (c.inp.part r.fa iy.toNat (x0.toNat * ch) ((x1.toNat - x0.toNat) * ch)) else none
    c.rows r.fo c.out.lines (c.out.width * ch) need fun oy e =>
      let win := (List.range (r.kh * r.kw)).filterMap fun tap =>
        let iy : Int := ((oy * r.sh + tap / r.kw * r.dh : Nat) : Int) - (r.pt : Nat)
        let ix : Int := ((e / ch * r.sw + tap % r.kw * r.dw : Nat) : Int) - (r.pl : Nat)
        if 0 ≤ iy ∧ iy < c.inp.lines ∧ 0 ≤ ix ∧ ix < c.inp.width then
          some (c.inVal c.inp iy.toNat (ix.toNat * ch + e % ch))
        else none
      let v := if r.flags.testBit 2 then
          (if win.isEmpty then Config.libValue 4 c.key (oy * 65536 + e) else meanF win)
        else if win.length < r.kh * r.kw then rowMax (win ++ [low]) else rowMax win
      c.plain false (if r.flags.testBit 0 then rfuElem 8 [] v 0 0 else v)

/-- a + w (b − a). -/
def lerpF (a b w : Word) : Word := fAdd a (fMul w (fSub b a))

/-- RESIZE: bilinear between the samples; where they lie is free (Config.resizeAt). -/
def libResize (c : LibCall) : LibOut :=
  if !(loadOk c.r.fa && storeOk c.r.fo) then libBad
  else
    let d := c.noZero
    let ch := c.inp.chans c.r.fa
    let need := fun (l _ _ : Nat) =>
      let y := (Config.resizeAt c.inp.lines c.out.lines l).1
      ([min y (c.inp.lines - 1), min (y + 1) (c.inp.lines - 1)].eraseDups).map fun y =>
        c.inp.part c.r.fa y 0 (c.inp.width * ch)
    c.rows c.r.fo c.out.lines (c.out.width * ch) need fun l e =>
      let (y, wy) := Config.resizeAt c.inp.lines c.out.lines l
      let (x, wx) := Config.resizeAt c.inp.width c.out.width (e / ch)
      let at_ := fun (dy dx : Nat) => d.inVal d.inp (min (y + dy) (c.inp.lines - 1))
        (min (x + dx) (c.inp.width - 1) * ch + e % ch)
      d.plain false (lerpF (lerpF (at_ 0 0) (at_ 0 1) wx) (lerpF (at_ 1 0) (at_ 1 1) wx) wy)

/-- ELTWISE: fn over the elements of in and aux; the record's scalar is the third operand. -/
def libEltwise (c : LibCall) : LibOut :=
  if !(loadOk c.r.fa && storeOk c.r.fo && c.r.clampOk) || 16 < c.r.fn then libBad
  else c.rows c.r.fo c.inp.lines (c.inp.width * c.inp.chans c.r.fa)
      (fun l lo n => [c.inp.part c.r.fa l lo n, c.aux.part c.r.fa l lo n]) fun l i =>
    c.plain true (rfuElem c.r.fn [] (c.inVal c.inp l i) (c.inVal c.aux l i) c.r.scalar)

/-- A row of the input as FP32. -/
def LibCall.row (c : LibCall) (l : Nat) : List Word := (List.range c.inp.width).map (c.inVal c.inp l)

/-- What a tile of a routine on whole rows of the input reads. -/
def LibCall.rowNeed (c : LibCall) (l _ _ : Nat) : List LibRead := [c.inp.part c.r.fa l 0 c.inp.width]

/-- The longest row of NORMSTAT (R181): the staging capacity of ENG_FEAT_FUSE. -/
def LibCall.rowLimit (c : LibCall) : Nat := c.m.fld ENG_FEAT_FUSE ENG_FEAT_FUSE_n1_max_8bit

/-- NORM: NORMSTAT of the row (R181), then the vector. -/
def libNorm (c : LibCall) : LibOut :=
  if !(loadOk c.r.fa && storeOk c.r.fo) || c.rowLimit < c.inp.width then libBad
  else
    let d := c.noZero
    let need := fun (l lo n : Nat) => c.rowNeed l lo n ++ [⟨c.par.base + c.r.vector, 4 * lo, 4 * n, 0, none⟩]
    d.rows c.r.fo c.inp.lines c.inp.width need fun l i =>
      let x := d.row l
      let (mu, rs) := normStat x c.r.scalar
      let w : Word := BitVec.ofNat 32 (c.m.libNum c.t (c.par.base + c.r.vector + 4 * i) 4)
      d.plain false (fMul (fMul (fSub ((x[i]?).getD 0) mu) rs) w)

/-- SOFTMAX (R184). -/
def libSoftmax (c : LibCall) : LibOut :=
  if !(loadOk c.r.fa && storeOk c.r.fo) || rowMaxLen < c.inp.width then libBad
  else
    let d := c.noZero
    d.rows c.r.fo c.inp.lines c.inp.width c.rowNeed fun l i => d.plain false (((softmaxRow (d.row l))[i]?).getD 0)

/-- A tile of a view: `m` rows from row j, `n` elements from element e; elements outside the view are zero. -/
def LibCall.tile (c : LibCall) (v : LibView) (fmt j m e n : Nat) : Tile :=
  let raw := (List.range m).map fun y => packElems (fmtBits fmt) ((List.range n).map fun x =>
    if j + y < v.lines && e + x < v.width then c.bits v fmt (j + y) (e + x) else 0)
  ⟨fmtBits fmt, raw, [], 0, m, 0, n, 0, [], [], true, none⟩

/-- The intermediate format of ATTENTION (R183, R216): the one that pairs with the format of K^T and V. -/
def attInter (fb : Nat) : Option Nat :=
  if fb = 0 || fb = 2 then some 0 else if fb = 3 || fb = 4 then some 3 else if fb = 5 then some 5 else none

/-- ATTENTION: MMF with SOFTMAX over Q, K^T and V (R183, R184), within the limits of the intermediate (R185) for tiles of 64
query rows (R252). -/
def libAttention (c : LibCall) : LibOut :=
  let r := c.r
  let k1 := c.inp.width
  let n1 := c.wts.width
  let n2 := c.aux.width
  match attInter r.fb with
  | none => libBad
  | some inter =>
    let size := if inter = 5 then 2 else 1
    if !(fmtPair r.fa r.fb && storeOk r.fo) || 4096 / size < n1 || 98304 < min 64 c.inp.lines * n1 * size || 255 < k1 then
      libBad
    else
      let d := c.noZero
      let km := kMax r.fa r.fb
      let nk := (k1 + km - 1) / km
      let blocks := (List.range ((n1 + 47) / 48)).flatMap fun g => (List.range nk).map fun q =>
        c.tile c.wts r.fb (q * km) (min km (k1 - q * km)) (48 * g) 48
      let fus := (List.range (16 + 4 * n1)).map fun i => c.m.libByte c.t (c.par.base + r.requant + i)
      let x := c.tile c.inp r.fa 0 c.inp.lines 0 k1
      let all := (List.range k1).map (fun l => c.wts.part r.fb l 0 n1) ++
        (List.range n1).map (fun l => c.aux.part r.fb l 0 n2) ++ [⟨c.par.base + r.requant, 0, 16 + 4 * n1, 0, none⟩]
      let rows := (List.range c.inp.lines).map fun l =>
        let (row, s) := fusedRow 20 [] (fusedScaled r.fa r.fb k1 km n1 false fus x blocks l)
        (row.map (interOf inter fus), s)
      let fl := rows.foldl (fun a r => r.1.foldl (fun a v => a ||| v.2) a) 0
      let o := d.rows r.fo c.inp.lines n2 (fun l _ _ => c.inp.part r.fa l 0 k1 :: all) fun l n =>
        let (enc, s) := (rows[l]?).getD ([], 0)
        let pairs := (List.range n1).map fun u => (((enc[u]?).map (·.1)).getD 0, c.bits c.aux r.fb u n)
        let v := if inter = 0 then
            intToF32 (BitVec.ofInt 32 (intColumn (pairs.map fun p =>
              (intElem 0 p.1 - (wordAt fus 3).toInt) * intElem r.fb p.2)))
          else
            let (a, q) := fpColumn 0 0 Part.zero (pairs.map fun p => (elemVal inter p.1).mul (elemVal r.fb p.2))
            if n1 % 32 = 0 then a else closeGroup a q
        d.plain false (fMul v (fRecip s))
      { o with flags := o.flags ||| fl ||| flagIf (inter ≠ 0 && rows.any fun r => r.1.any fun v => elemVal inter v.1 = .nan) arNanIn }

/-- COPY: format conversion, or transpose of the pixels when flagged; with relu as the flags say. -/
def libCopy (c : LibCall) : LibOut :=
  let ch := c.inp.chans c.r.fa
  let put := fun v => c.plain false (if c.r.flags.testBit 0 then rfuElem 8 [] v 0 0 else v)
  if !(loadOk c.r.fa && storeOk c.r.fo) then libBad
  else if c.r.flags.testBit 1 then
    c.rows c.r.fo c.inp.width (c.inp.lines * ch)
      (fun l lo n => (List.range ((lo + n + ch - 1) / ch - lo / ch)).map fun y => c.inp.part c.r.fa (lo / ch + y) (l * ch) ch)
      fun l i => put (c.inVal c.inp (i / ch) (l * ch + i % ch))
  else c.rows c.r.fo c.inp.lines (c.inp.width * ch) (fun l lo n => [c.inp.part c.r.fa l lo n]) fun l i => put (c.inVal c.inp l i)

/-- The indices of a row's maximum. -/
def argmaxes (l : List Word) : List Nat :=
  (List.range l.length).filter fun i => l.all fun y => !(ofF32 ((l[i]?).getD 0)).lt (ofF32 y)

/-- The bytes of an output row. -/
def byteElems (l : List Byte) : List LibElem := l.map fun b => ⟨0, b.toNat, 0⟩

/-- ARGMAX: the index of the row maximum as INT32; which of equal maxima is free. -/
def libArgmax (c : LibCall) : LibOut :=
  if !loadOk c.r.fa || rowMaxLen < c.inp.width then libBad
  else
    let d := c.noZero
    c.rows 16 c.inp.lines 1 c.rowNeed fun l _ =>
      let best := argmaxes (d.row l)
      let k := (Config.libValue 6 c.key l).toNat
      ⟨0, (best[k % max 1 best.length]?).getD (k % max 1 c.inp.width), 0⟩

/-- Choose n of a row's largest values: of equal ones, and in what order they stand, is free (`pick`). -/
def topOf (pick : Nat → Nat) (v : Nat → Word) (n : Nat) (l : List Nat) : List Nat :=
  match n with
  | 0 => []
  | n + 1 =>
    let best := l.filter fun i => l.all fun j => !(ofF32 (v i)).lt (ofF32 (v j))
    let l' := if best.isEmpty then l else best
    match l'[pick n % max 1 l'.length]? with
    | none => []
    | some i => i :: topOf pick v n (l.erase i)

/-- Put the elements of a list in a free order. -/
def freeOrder (pick : Nat → Nat) (n : Nat) (l : List Nat) : List Nat :=
  match n with
  | 0 => []
  | n + 1 =>
    match l[pick n % max 1 l.length]? with
    | none => []
    | some i => i :: freeOrder pick n (l.erase i)

/-- TOPK: the count largest values of each row and their indices as INT32; their order and whether the indices follow the
values one by one or all together is free. -/
def libTopk (c : LibCall) : LibOut :=
  let r := c.r
  if !loadOk r.fa || r.count = 0 || c.inp.width < r.count || rowMaxLen < c.inp.width then libBad
  else
    let d := c.noZero
    libStores 1 <| (List.range c.inp.lines).map fun l =>
      let row := d.row l
      let top := topOf (fun n => (Config.libValue 7 c.key (l * 65536 + n)).toNat) (fun i => (row[i]?).getD 0) r.count
        (List.range c.inp.width)
      let top := freeOrder (fun n => (Config.libValue 8 c.key n).toNat) r.count top
      let val := fun i => c.bits c.inp r.fa l i
      let bytes := if (Config.libValue 9 [] 0).toNat % 2 = 0 then
          packElems (fmtBits r.fa) (top.map val) ++ top.flatMap (leBytes 4)
        else top.flatMap fun i => packElems (fmtBits r.fa) [val i] ++ leBytes 4 i
      (c.rowNeed l 0 0, [⟨c.out.line l, 0, byteElems bytes, [], 0⟩])

/-- The FP32 fields of a box: x0, y0, x1, y1, score. -/
def LibCall.box (c : LibCall) (l i : Nat) : Fv := ofF32 (BitVec.ofNat 32 (c.bits c.inp 13 l i))

/-- The smaller and the larger of two values. -/
def Fv.least (a b : Fv) : Fv := if a.lt b then a else b
def Fv.most (a b : Fv) : Fv := if a.lt b then b else a

/-- A width or height, none when negative. -/
def Fv.extent (hi lo : Fv) : Fv :=
  let d := hi.add (lo.mul (Fv.fin true 1 0))
  Fv.most d (Fv.fin false 0 0)

/-- Boxes a and b overlap by more than the threshold, by exact arithmetic: intersection > threshold × union. -/
def LibCall.overlap (c : LibCall) (a b : Nat) : Bool :=
  let x := fun (f : Fv → Fv → Fv) i => f (c.box a i) (c.box b i)
  let area := fun l => (Fv.extent (c.box l 2) (c.box l 0)).mul (Fv.extent (c.box l 3) (c.box l 1))
  let inter := (Fv.extent (x Fv.least 2) (x Fv.most 0)).mul (Fv.extent (x Fv.least 3) (x Fv.most 1))
  let union := ((area a).add (area b)).add (inter.mul (Fv.fin true 1 0))
  ((ofF32 c.r.scalar).mul union).lt inter

/-- Keep boxes in order of score; one that overlaps a kept one by more than the threshold is suppressed. -/
def LibCall.keepBoxes (c : LibCall) (l kept : List Nat) : List Nat :=
  match l with
  | [] => kept
  | i :: t => c.keepBoxes t (if kept.any (c.overlap i) then kept else kept ++ [i])

/-- NMS: the boxes that survive, best score first, at most count of them; of equal scores which comes first is free. -/
def libNms (c : LibCall) : LibOut :=
  if c.r.count = 0 then libBad
  else
    let order := topOf (fun n => (Config.libValue 10 c.key n).toNat) (fun l => BitVec.ofNat 32 (c.bits c.inp 13 l 4))
      c.inp.lines (List.range c.inp.lines)
    let kept := (c.keepBoxes order []).take c.r.count
    libStores 1 [((List.range c.inp.lines).map fun l => c.inp.part 13 l 0 5, (List.range kept.length).map fun k =>
      ⟨c.out.line k, 0, byteElems ((List.range 20).map fun i => c.m.libByte c.t (c.inp.line ((kept[k]?).getD 0) + i)), [], 0⟩)]

/-- The flags that the operands of a read set (R192): a NaN operand, an MX scale of 255. -/
def LibCall.readFlags (c : LibCall) (x : LibRead) : Nat :=
  let idx := (List.range x.n).map (x.start + ·)
  let scale := fun (i : Nat) => ((x.scale.map (·.addr i)).getD 0)
  let nan := ((fpOf x.fmt).isSome || isMx x.fmt) && idx.any fun i => c.elemV x.fmt x.base i (scale i) = .nan
  flagIf nan arNanIn ||| flagIf (x.scale.isSome && idx.any fun i => c.m.libByte c.t (scale i) = 255) arMxNan

/-- The first reason for which the reads of a tile stop the task (R265, R294). -/
def Module.libCheck (m : Module) (e : EngPos) (t : EngTask) (l : List (Nat × Nat)) : Option Abort × Module :=
  match l with
  | [] => (none, m)
  | (a, n) :: r =>
    if n = 0 then m.libCheck e t r
    else if !t.mayAccess false a n then (some abOverflow, m)
    else match m.spaceOf a with
      | .window w off => if m.windowBad w off n true then (some ⟨stBusError, 0, false⟩, m) else m.libCheck e t r
      | .spm | .dram =>
        let (bad, m) := m.engRead e a n
        if bad then (some abPoison, m) else m.libCheck e t r
      | _ => (some ⟨stBusError, 0, false⟩, m)

/-- The bytes that elements from element `start` on take, with their bit masks: where the first lies, and the bytes (R170,
R225). -/
def elemBytes (bits start : Nat) (l : List Nat) : Nat × List (Byte × Byte) :=
  let lo := start * bits / 8
  let hi := ((start + l.length) * bits + 7) / 8
  (lo, (List.range (hi - lo)).map fun k =>
    let (v, k) := (List.range 8).foldl (fun (a : Nat × Nat) b =>
      let i := 8 * (lo + k) + b
      let e := i / bits
      if start ≤ e && e < start + l.length then
        (a.1 + (if ((l[e - start]?).getD 0).testBit (i % bits) then 2 ^ b else 0), a.2 + 2 ^ b)
      else a) (0, 0)
    (BitVec.ofNat 8 v, BitVec.ofNat 8 k))

/-- The bytes of stored elements, with their masks: where they begin, and they. -/
def LibRow.bytes (x : LibRow) : Nat × List (Byte × Byte) :=
  let (o, b) := elemBytes x.bits x.start x.elems
  (devAddr ((x.base + o : Nat) : Int), b)

/-- A routine works on its tiles in order (R252, R265): the write transfers of those whose reads can be made, and what stops the
task at the first that cannot; spans already read are not read again. -/
def Module.libTiles (m : Module) (e : EngPos) (t : EngTask) (done : List (Nat × Nat)) (l : List LibTile) :
    List EngWrite × Module :=
  match l with
  | [] => ([], m)
  | x :: r =>
    let spans := (x.reads.flatMap (·.spans)).eraseDups.filter (!done.contains ·)
    match m.libCheck e t spans with
    | (some a, m) => ([.stopper a], m)
    | (none, m) =>
      let (w, m) := m.libTiles e t (done ++ spans) r
      (mergeWrites (x.rows.map (·.bytes)) ++ w, m)

/-- Spans in windows that a routine reads and has not asked for. -/
def Module.libMissing (m : Module) (t : EngTask) (l : List (Nat × Nat)) : List (Nat × Nat) :=
  l.eraseDups.filter fun x => x.2 ≠ 0 && (match m.spaceOf x.1 with | .window _ _ => true | _ => false) &&
    t.mayAccess false x.1 x.2 && !((t.lib.map (·.1)).getD []).contains x

/-- Ask for spans in windows: a row of the routine's tile for each (R242, R243). -/
def EngTask.libAsk (t : EngTask) (l : List (Nat × Nat)) : EngTask :=
  let (old, x) := t.lib.getD ([], ⟨8, [], [], 0, 0, 0, 0, 0, [], [], false, none⟩)
  let todo := (l.zip (List.range l.length)).flatMap fun (s, i) =>
    (transfers [⟨s.1, old.length + i, 0, s.2⟩]).map fun p => (false, p)
  { t with lib := some (old ++ l, { x with
      raw := x.raw ++ l.map fun s => List.replicate s.2 0, todo := x.todo ++ todo, arrived := false }) }

/-- What a routine leaves in the registers and accumulator rows that it may use: free values. -/
def libLeft (key : List Byte) (k : Nat) : Word := Config.libValue 11 key k

/-- The walkers after a call: S0 holds the status, S1 to S7 what the routine left, the slots are empty (R230). -/
def WalkerSt.afterCall (s : WalkerSt) (key : List Byte) (status : Nat) : WalkerSt :=
  { s with
    regs := (List.range 16).map fun i =>
      if i = 0 then BitVec.ofNat 32 status else if i < 8 then libLeft key i else (s.regs[i]?).getD 0
    slots := [none, none, none, none] }

/-- The task after a call: queues and keep tiles gone, accumulator rows and RES as the routine left them (R230, R252). -/
def EngTask.afterCall (t : EngTask) (key : List Byte) (res : List Tile) : EngTask :=
  { t with
    qa := [], qb := [], qx := [], keepF := none, keepV := none, keepW := none
    cancelled := t.cancelled + ((t.qa ++ t.qb ++ t.qx).map (·.outstanding)).sum
    lib := none
    res := ((List.range res.length).zip res).foldl (fun s x => s.insert x.1 x.2) t.res
    acc := (List.range 512).map fun r => (r, { AccRow.rest with
      fp := (libLeft key (65536 * r + 64)).getLsbD 0
      cells := (List.range 48).map fun c => libLeft key (65536 * r + 65 + c) }) }

/-- The words of the argument block that a call reads: those of the views that S0 names (R122, R230). -/
def callWords (t : EngTask) (s : WalkerSt) (views : Nat) : List (Nat × Nat) :=
  ([0, 1, 2, 3, 4].filter fun k => k = 1 || k = 3 || views.testBit (k - 1)).map fun k =>
    (t.args + 32 * ((s.reg 0).toNat / 16 ^ k % 16 % 8), 32)

/-- CALL of routine `id` (R230, R232): both walkers stand at the CALL; the record is read, then what the routine reads, tile by
tile with what it stores, and both walkers go on. What lies in windows is asked for first, and the routine waits for it.
`views` names the views it reads: bit 0 in, 1 weights, 2 params, 3 aux; a call that is skipped or refuses its record reads
nothing but the record. -/
def Module.libCall (m : Module) (e : EngPos) (w : Walker) (id views : Nat) (f : LibCall → LibOut) : Module :=
  m.barrier e w 0x30 fun m t s i =>
    let words := callWords t s views
    if opnd i 2 2 ≠ id || t.badger.pc ≠ s.pc || t.badger.barriers + 1 ≠ s.barriers || m.anyBusy words ||
        (t.lib.map fun l => !l.2.complete).getD false then m
    else
      let v := fun k => m.libView t ((s.reg 0).toNat / 16 ^ k)
      let a := devAddr (((v 3).base : Int) + (s.reg 1).toNat)
      let ask := fun (l : List (Nat × Nat)) => (m.putTask e (t.libAsk l)).pumpReads (t.libAsk l).todoLen e
      let rec_ := m.libMissing t [(a, 64)]
      if !rec_.isEmpty then ask rec_ else
      let c : LibCall := ⟨m, t, v 0, v 1, v 2, v 3, v 4, m.libRec t a, []⟩
      let empty := [(0, v 0), (1, v 2), (2, v 3), (3, v 4)].any fun x =>
        views.testBit x.1 && (x.2.width = 0 || x.2.lines = 0)
      let reads := fun (o : LibOut) => ((o.tiles.flatMap (·.reads)).eraseDups.flatMap (·.spans)).eraseDups
      let plan := if empty then ⟨false, [], 0, []⟩ else f c
      let missing := m.libMissing t (reads plan)
      if !missing.isEmpty then ask missing else
      if m.anyBusy ((a, 64) :: reads plan) then m else
      let c := { c with key := ((a, 64) :: reads plan).flatMap fun x => (List.range x.2).map fun i => m.libByte t (x.1 + i) }
      let o := if empty then plan else f c
      let (bad, m) := m.engReads e words
      if bad then m.abortTask e abPoison else
      match m.libCheck e t [(a, 64)] with
      | (some b, m) => m.abortTask e b
      | (none, m) =>
        let (l, m) := m.libTiles e t [(a, 64)] (if o.bad then [] else o.tiles)
        let fl := (o.tiles.flatMap (·.reads)).eraseDups.foldl (fun f x => f ||| c.readFlags x) o.flags
        let st := if empty then 1 else if o.bad then 2 else 0
        let t := t.afterCall c.key o.res
        let bd := { t.badger with barriers := t.badger.barriers + 1 }
        let t := { t with badger := (bd.afterCall c.key st).advance }
        (m.arith e fl).storeRows e w t (s.afterCall c.key st) l

def conv2d (e : EngPos) (w : Walker) (m : Module) : Module := m.libCall e w 1 0b0111 libConv
def gemm (e : EngPos) (w : Walker) (m : Module) : Module := m.libCall e w 2 0b0111 libGemm
def pool (e : EngPos) (w : Walker) (m : Module) : Module := m.libCall e w 3 0b0001 libPool
def resize (e : EngPos) (w : Walker) (m : Module) : Module := m.libCall e w 4 0b0001 libResize
def eltwise (e : EngPos) (w : Walker) (m : Module) : Module := m.libCall e w 5 0b1001 libEltwise
def norm (e : EngPos) (w : Walker) (m : Module) : Module := m.libCall e w 6 0b0101 libNorm
def softmax (e : EngPos) (w : Walker) (m : Module) : Module := m.libCall e w 7 0b0001 libSoftmax
def attention (e : EngPos) (w : Walker) (m : Module) : Module := m.libCall e w 8 0b1111 libAttention
def copyRoutine (e : EngPos) (w : Walker) (m : Module) : Module := m.libCall e w 9 0b0001 libCopy
def argmax (e : EngPos) (w : Walker) (m : Module) : Module := m.libCall e w 10 0b0001 libArgmax
def topk (e : EngPos) (w : Walker) (m : Module) : Module := m.libCall e w 11 0b0001 libTopk
def nms (e : EngPos) (w : Walker) (m : Module) : Module := m.libCall e w 12 0b0001 libNms

def execConv2d (e : EngPos) (w : Walker) (s : State) := ok s (conv2d e w s.toModule)
def execGemm (e : EngPos) (w : Walker) (s : State) := ok s (gemm e w s.toModule)
def execPool (e : EngPos) (w : Walker) (s : State) := ok s (pool e w s.toModule)
def execResize (e : EngPos) (w : Walker) (s : State) := ok s (resize e w s.toModule)
def execEltwise (e : EngPos) (w : Walker) (s : State) := ok s (eltwise e w s.toModule)
def execNorm (e : EngPos) (w : Walker) (s : State) := ok s (norm e w s.toModule)
def execSoftmax (e : EngPos) (w : Walker) (s : State) := ok s (softmax e w s.toModule)
def execAttention (e : EngPos) (w : Walker) (s : State) := ok s (attention e w s.toModule)
def execLibCopy (e : EngPos) (w : Walker) (s : State) := ok s (copyRoutine e w s.toModule)
def execArgmax (e : EngPos) (w : Walker) (s : State) := ok s (argmax e w s.toModule)
def execTopk (e : EngPos) (w : Walker) (s : State) := ok s (topk e w s.toModule)
def execNms (e : EngPos) (w : Walker) (s : State) := ok s (nms e w s.toModule)

end Sys2Proof.Machine
end

