-- ==== Sys2Proof/Machine/Package.lean ====
section
/-!
DEFINITION. Model packages (07_engine_programs R234 to R237; 08_streaming_tiling R248 to R250; 13_host_link R395;
16_security_debug R474, R475): their sections and templates, the run-time tiler, the loader's checks, LOAD_PKG and
UNLOAD_PKG.
-/
namespace Sys2Proof.Machine

/-! ### Sections, instructions, templates -/

/-- The directory entries of a package at an address: type, offset, size (R234). -/
def Module.pkgDir (m : Module) (a : Nat) : List (Nat × Nat × Nat) :=
  (List.range (m.num (a + 8) 4)).map fun i =>
    let d := a + 64 + 16 * i
    (m.num d 2, m.num (d + 8) 4, m.num (d + 12) 4)

/-- Address and size of a section; size 0 when the package has none of the type. -/
def Module.pkgSec (m : Module) (a type : Nat) : Nat × Nat :=
  match (m.pkgDir a).find? (·.1 = type) with
  | some (_, o, n) => (a + o, n)
  | none => (a, 0)

/-- Section types (R234). -/
def secProgram : Nat := 1
def secAddress : Nat := 2
def secTemplate : Nat := 3
def secWeights : Nat := 4
def secParams : Nat := 5
def secDecl : Nat := 6
def secImports : Nat := 7
def secSignature : Nat := 8

/-- The instructions and the address programs of a package. -/
def Module.pkgCode (m : Module) (a : Nat) : List Nat :=
  let (s, n) := m.pkgSec a secProgram
  (List.range (n / 16)).map fun i => m.num (s + 16 * i) 16
def Module.pkgAps (m : Module) (a : Nat) : List (List ApEntry) :=
  let (s, n) := m.pkgSec a secAddress
  (List.range (n / 128)).map fun i => apOf (m.bytes (s + 128 * i) 128)

/-- A variant entry of a tiling record: extents, base cycles, cycles per tile, bytes per tile (R249). -/
structure Variant where
  extent : List Nat
  base : Nat
  perTile : Nat
  bytes : Nat

/-- A task template with its tiling record (R235, R249). A shape entry is offset, size, maximum. -/
structure Template where
  variants : Nat
  sync : Nat
  res : Nat
  shapes : List (Nat × Nat × Nat)
  start : List Nat
  decl : Nat
  tiled : List Nat
  resBytes : Nat
  resOffset : Nat
  var : List Variant

/-- Templates of a package (R249). -/
def Module.pkgTemplates (m : Module) (a : Nat) : Nat := (m.pkgSec a secTemplate).2 / 224

/-- Template t of a package (R235, R249). -/
def Module.template (m : Module) (a t : Nat) : Template :=
  let (s, _) := m.pkgSec a secTemplate
  let b := m.bytes (s + 128 * t) 128
  let r := m.bytes (s + 128 * m.pkgTemplates a + 96 * t) 96
  { variants := fieldAt b 0 1, sync := fieldAt b 1 1, res := fieldAt b 2 1
    shapes := (List.range (fieldAt b 3 1)).map fun i =>
      (fieldAt b (16 + 8 * i) 2, fieldAt b (18 + 8 * i) 1, fieldAt b (20 + 8 * i) 4)
    start := (List.range 4).map fun v => fieldAt b (8 + 2 * v) 2
    decl := fieldAt b 80 4
    tiled := (List.range 4).map fun d => fieldAt r d 1
    resBytes := fieldAt r 4 4, resOffset := fieldAt r 8 4
    var := (List.range 4).map fun v =>
      ⟨(List.range 4).map fun d => fieldAt r (16 + 20 * v + 2 * d) 2, fieldAt r (24 + 20 * v) 4, fieldAt r (28 + 20 * v) 4,
        fieldAt r (32 + 20 * v) 4⟩ }

/-- A stage declaration: role, input and output format, halo, MAC, gateable, history bytes (R235). -/
structure StageDecl where
  role : Nat
  inFmt : Nat
  outFmt : Nat
  halo : Nat
  mac : Nat
  gateable : Bool
  hist : Nat

/-- Declaration i of a package; a template without one (0xFFFF_FFFF) declares no role (R235). -/
def Module.stageDecl (m : Module) (a i : Nat) : StageDecl :=
  let (s, n) := m.pkgSec a secDecl
  if n / 16 ≤ i then ⟨0, 0, 0, 0, 0, false, 0⟩
  else
  let b := m.bytes (s + 16 * i) 16
  ⟨fieldAt b 0 1, fieldAt b 1 1, fieldAt b 2 1, fieldAt b 3 1, fieldAt b 4 4, fieldAt b 8 1 ≠ 0, fieldAt b 9 1⟩

/-- The shape values of an argument block (R236). -/
def Module.shapeVals (m : Module) (args : Nat) (l : List (Nat × Nat × Nat)) : List Nat :=
  l.map fun s => m.num (args + s.1) s.2.1

/-- The tiles of a variant, in unsigned 64-bit arithmetic (R250). -/
def Template.tiles (t : Template) (shape : List Nat) (x : Variant) : Nat :=
  (List.range 4).foldl (fun n d =>
    let e := (x.extent[d]?).getD 0
    match t.tiled[d]? with
    | some i => if i = 255 || e = 0 then n else n * (((shape[i]?).getD 0 + e - 1) / e) % 2 ^ 64
    | none => n) 1

/-- The cost of a variant, in unsigned 64-bit arithmetic (R250). -/
def Template.cost (t : Template) (shape : List Nat) (v : Nat) : Nat :=
  match t.var[v]? with
  | none => 0
  | some x => (x.base + t.tiles shape x * x.perTile) % 2 ^ 64

/-- The variant that the run-time tiler chooses (R250): the cheapest, the lower index on a tie; 0 for a no-op. -/
def Template.choose (t : Template) (shape : List Nat) : Nat :=
  if shape.any (· = 0) then 0
  else ((List.range t.variants).foldl (fun (b : Nat × Nat) v =>
    if t.cost shape v < b.2 then (v, t.cost shape v) else b) (0, 2 ^ 64 - 1)).1

/-- The template's cost at given shapes (R250, R366). -/
def Template.estimate (t : Template) (shape : List Nat) : Nat := t.cost shape (t.choose shape)

/-! ### The loader (R33, R209, R234 to R237) -/

/-- The loader error codes (R237). -/
def leHeader : Nat := 1
def leGeneration : Nat := 2
def leLibrary : Nat := 3
def leFormat : Nat := 4
def leOpcode : Nat := 5
def lePair : Nat := 6
def leNest : Nat := 7
def leBody : Nat := 8
def leSlot : Nat := 9
def leLimit : Nat := 10
def leSync : Nat := 11
def leSignature : Nat := 12

/-- The first error of a list of checks. -/
def firstError (l : List (Bool × Nat)) : Nat := ((l.find? (·.1)).map (·.2)).getD 0

/-- The entries of an address program with an op. -/
def apCount (p : List ApEntry) (op : Nat) : Nat := (p.filter (·.op = op)).length

/-- Rows, row bytes and format of an address program. -/
def apShape (p : List ApEntry) : Nat × Nat × Nat :=
  let e := ((p.find? (·.op = 5)).map (·.value)).getD 0
  (e % 65536, e / 65536 % 65536, ((p.find? (·.op = 10)).map (·.arg)).getD 1)

/-- An MX slot's strides and pitch divide by the element bytes of a block (R226); without a PITCH entry the pitch is a
row's bytes. -/
def apDivides (p : List ApEntry) : Bool :=
  let (_, row, fmt) := apShape p
  let ok := fun (v : Int) => v % (mxBlock fmt : Int) = 0
  !isMx fmt || (p.all fun x => (x.op ≠ 3 && x.op ≠ 6) || ok (signedOf 48 x.value)) && (p.any (·.op = 6) || ok row)

/-- The bytes of a tile in a queue (R211, R226): its rows, and the scale bytes that follow those of an MX slot, one for
32 elements along a row, or down the rows for the blocks of QB and RES. -/
def apTile (p : List ApEntry) (queue : Nat) : Nat :=
  let (rows, row, fmt) := apShape p
  let elems := row * 8 / max 1 (fmtBits fmt)
  rows * row + if !(isMx fmt && p.any (·.op = 12)) then 0
    else if queue = 1 ∨ queue = 3 then (rows + 31) / 32 * elems else rows * ((elems + 31) / 32)

/-- What is wrong with an address program (R223, R226, R237). -/
def apError (p : List ApEntry) : Nat :=
  let dims := (p.filter (·.op = 8)).map (·.arg % 4)
  firstError [
    (p.any (12 < ·.op), leOpcode),
    (apCount p 5 ≠ 1 || apCount p 1 + apCount p 2 ≠ 1, leSlot),
    ([6, 9, 10, 11, 12].any fun o => 1 < apCount p o, leSlot),
    (dims.any fun d => 1 < (dims.filter (· = d)).length, leSlot),
    (p.any fun x => (x.op = 2 || x.op = 12) && 7 < x.arg % 16, leLimit),
    (p.any fun x => (x.op = 3 || x.op = 4 || x.op = 7) && 5 < x.arg % 16, leLimit),
    (p.any fun x => x.op = 7 && x.arg / 16 % 4 = 3 || x.op = 8 && x.arg % 4 = 3, leLimit),
    (p.any fun x => x.op = 5 && (x.value % 65536 = 0 || 512 < x.value % 65536 || x.value / 65536 % 65536 = 0 ||
      16384 < x.value / 65536 % 65536), leLimit),
    (p.any fun x => x.op = 10 && 16 < x.arg, leLimit),
    (!apDivides p, leLimit)]

/-- Where the loader's walk of a variant stands: bodies open (level, or none for a gate, and last index), the address
program of each slot, and the fmt_b of the last WLOAD in program order. -/
structure PkgWalk where
  bodies : List (Option Nat × Nat)
  slots : List (Option Nat)
  fmtB : Option Nat

/-- A row range known at load, or a register that fixes it at run time (R213, R221). -/
def rowsOk (row m s : Nat) : Bool := if s = 255 then row + m ≤ 512 else s ≤ 15

/-- The clamp bounds of a WB lie inside its output format (R176): a byte can miss only INT4's. -/
def boundsOk (fmt lo hi : Nat) : Bool :=
  fmt ≠ 2 || [lo, hi].all fun b => -8 ≤ signedOf 8 b && signedOf 8 b ≤ 7

/-- The output formats of a write-back mode (R221). -/
def wbFormats (mode : Nat) : List Nat :=
  match mode with
  | 0 => [0, 1, 2] | 1 => [0, 1, 2, 16] | 2 => [5, 12, 3, 4, 13] | 3 => [6, 7, 8, 9, 10, 11] | _ => [16, 13]

/-- The largest tile of a queue (R211). -/
def queueLimit (q : Nat) : Nat := match q with | 0 => 16384 | 1 => 8192 | 2 => 4096 | _ => 8192

/-- The address program that a slot holds at this point of the walk. -/
def PkgWalk.ap (w : PkgWalk) (aps : List (List ApEntry)) (slot : Nat) : Option (List ApEntry) :=
  match (w.slots[slot]?).getD none with
  | some i => aps[i]?
  | none => none

/-- What is wrong with an instruction at index i of its program, 0 nothing (R200 to R228, R237). -/
def instrError (aps : List (List ApEntry)) (t : Template) (w : PkgWalk) (i x : Nat) : Nat :=
  let f := opnd x
  let inner := w.bodies.head?
  let beyond := fun (n : Nat) => inner.any fun b => b.2 < i + n
  match f 0 1 with
  | 0x00 => 0
  | 0x22 => 0
  | 0x01 => if w.bodies.isEmpty then 0 else leBody
  | 0x02 => firstError [
      (5 < f 2 1 || f 8 2 = 0 || 4095 < f 8 2 || (f 1 1).testBit 0 && 15 < f 3 1, leLimit),
      (w.bodies.any fun b => b.1.any fun l => l ≤ f 2 1, leNest),
      (beyond (f 8 2), leBody)]
  | 0x03 => firstError [(15 < f 2 1, leLimit)]
  | 0x04 => firstError [(12 < f 2 1 || 15 < f 3 1 || 0x15 < f 4 1 || !(f 1 1).testBit 0 && 0x15 < f 5 1, leLimit)]
  | 0x05 => firstError [(15 < f 2 1 || f 4 2 % 4 ≠ 0 || 256 ≤ f 4 2, leLimit)]
  | 0x06 => firstError [(3 < f 2 1, leLimit), (aps.length ≤ f 4 2, leSlot)]
  | 0x10 =>
    if 3 < f 2 1 || 3 < f 3 1 then leLimit
    else match w.ap aps (f 2 1) with
      | none => leSlot
      | some p => firstError [
          (queueLimit (f 3 1) < apTile p (f 3 1), leLimit),
          (f 3 1 = 3 && (t.res ≠ 2 || 11 < f 4 2 || f 4 2 < (t.resBytes + 8191) / 8192), leLimit)]
  | 0x11 => firstError [
      (11 < f 2 1 || f 4 1 = 0 || 48 < f 4 1 || f 3 1 = 0 || 96 < f 3 1, leLimit),
      ((f 1 1).testBit 0 && (t.res ≠ 2 || 11 < f 5 1), leLimit)]
  | 0x12 => firstError [
      (!fmtPair (f 2 1) (f 3 1) || w.fmtB ≠ some (f 3 1), lePair),
      (f 4 2 = 0 || 512 < f 4 2 || f 6 1 = 0 || kMax (f 2 1) (f 3 1) < f 6 1 || f 7 1 = 0 || 48 < f 7 1, leLimit),
      (!zaOk (f 2 1) (signedOf 16 (f 8 2)) || !rowsOk (f 10 2) (f 4 2) (f 13 1), leLimit)]
  | 0x13 =>
    let e := if f 5 1 = 5 then 2 else 1
    firstError [
      (!([0, 3, 5].contains (f 5 1)) || !([0, 8, 13, 14, 15, 16, 20].contains (f 6 1)) || t.res ≠ 1, leLimit),
      (!fmtPair (f 2 1) (f 3 1) || !fmtPair (f 5 1) (f 4 1), lePair),
      (f 8 2 = 0 || 512 < f 8 2 || f 10 2 = 0 || 4096 / e < f 10 2 || f 12 1 = 0 || f 13 1 = 0 || 48 < f 13 1 ||
        512 < f 14 2 + f 8 2, leLimit),
      (98304 < f 8 2 * f 10 2 * e || (f 1 1).testBit 4 && 1020 < f 10 2, leLimit),
      (f 6 1 = 20 && (f 1 1 % 8 ≠ 7 || f 7 1 / 4 ≠ 0), leLimit)]
  | 0x14 => firstError [
      (20 < f 2 1 || f 3 1 = 0 || 86 < f 3 1 || 512 < f 4 2 + f 6 2 * f 3 1, leLimit),
      (f 8 2 ≤ (f 3 1 - 1) * 48 || f 3 1 * 48 < f 8 2 || 3 < f 10 1 % 16 || 3 < f 10 1 / 16, leLimit),
      (f 2 1 = 19 && 4096 < f 8 2, leLimit)]
  | 0x15 => 0
  | 0x16 =>
    if 3 < f 2 1 || 4 < f 9 1 then leLimit
    else match w.ap aps (f 2 1) with
      | none => leSlot
      | some p => firstError [
          ((apShape p).2.2 ≠ f 3 1, leSlot),
          (!(wbFormats (f 9 1)).contains (f 3 1) || f 8 1 = 0 || 48 < f 8 1 || f 9 1 = 3 && 32 < f 8 1, leLimit),
          (f 9 1 ≤ 1 && !boundsOk (f 3 1) (f 12 1) (f 13 1), leLimit),
          (f 6 2 = 0 || min 512 (apShape p).1 < f 6 2 || !rowsOk (f 4 2) (f 6 2) (f 14 1), leLimit)]
  | 0x17 => firstError [(15 < f 2 1 || f 4 2 = 0, leLimit), (beyond (f 4 2), leBody)]
  | 0x20 => firstError [
      ((f 1 1).testBit 0 && 15 < f 2 1 || (f 1 1).testBit 1 && 15 < f 3 1, leLimit),
      (!(f 1 1).testBit 0 && t.sync ≤ f 2 1, leSync)]
  | 0x21 => firstError [
      ((f 1 1).testBit 0 && 15 < f 2 1 || (f 1 1).testBit 1 && 15 < f 3 1, leLimit),
      (!(f 1 1).testBit 0 && t.sync ≤ f 2 1, leSync)]
  | 0x30 => firstError [
      (w.bodies.any fun b => b.1.any fun l => l ≤ 2, leNest),
      (f 2 2 = 0 || 12 < f 2 2, leLibrary)]
  | _ => leOpcode

/-- The walk after an instruction. -/
def PkgWalk.after (w : PkgWalk) (i x : Nat) : PkgWalk :=
  let f := opnd x
  let w := match f 0 1 with
    | 0x02 => { w with bodies := (some (f 2 1), i + f 8 2) :: w.bodies }
    | 0x17 => { w with bodies := (none, i + f 4 2) :: w.bodies }
    | 0x06 => { w with slots := setAt w.slots (f 2 1) (some (f 4 2)) }
    | 0x30 => { w with slots := [none, none, none, none] }
    | 0x11 => { w with fmtB := some (f 2 1) }
    | _ => w
  { w with bodies := w.bodies.filter fun b => i < b.2 }

/-- Walk a variant from index i: error and index, or none at its top-level END. -/
def walkVariant (aps : List (List ApEntry)) (t : Template) (w : PkgWalk) (i : Nat) (code : List Nat) : Option (Nat × Nat) :=
  match code with
  | [] => some (leBody, i)
  | x :: rest =>
    match instrError aps t w i x with
    | 0 => if opnd x 0 1 = 0x01 then none else walkVariant aps t (w.after i x) (i + 1) rest
    | e => some (e, i)

/-- The length of a variant from its first instruction: to its top-level END. -/
def variantLen (w : PkgWalk) (i : Nat) (code : List Nat) : Nat :=
  match code with
  | [] => 0
  | x :: rest => if opnd x 0 1 = 0x01 then 1 else 1 + variantLen (w.after i x) (i + 1) rest

/-- What firmware places of a program for one variant: instructions, and address programs that its SLOTs name (R193,
R238). -/
def progSize (code : List Nat) (start : Nat) : Nat × Nat :=
  let body := (code.drop start).take (variantLen ⟨[], [none, none, none, none], none⟩ start (code.drop start))
  (body.length, ((body.filter fun x => opnd x 0 1 = 0x06).map fun x => opnd x 4 2).eraseDups.length)

/-- The program of that size fits an engine's memories beside what they hold: 4 096 instructions, 64 address programs. -/
def memFits (held size : Nat × Nat) : Bool := held.1 + size.1 ≤ 4096 && held.2 + size.2 ≤ 64

/-- What a picture stage has placed, as a stage of one engine. -/
def PicPlan.asStage (p : PicPlan) : StagePlan :=
  ⟨[p.engine], p.code, p.aps, p.start, 0, p.shapes, 0, p.resBytes, p.resFrom, [p.resFirst], 1, p.resUse, p.book, []⟩

/-- What a plan has placed for stage 0 to 11. -/
def Plan.stageOf (p : Plan) (i : Nat) : Option StagePlan :=
  if i < 8 then p.stages[i]? else (p.pics.find? (·.stage = i)).map (·.asStage)

/-- All that the plans of the admitted streams have placed on engines. -/
def Module.placed (m : Module) : List StagePlan :=
  m.streams.flatMap fun e => e.2.plan.stages ++ e.2.plan.pics.map (·.asStage)

/-- What placed stages hold of a logical engine's memories (R238): instructions and address programs. -/
def memHeld (q : Nat) (l : List StagePlan) : Nat × Nat :=
  let s := (l.filter (·.engines.contains q)).map fun p => progSize p.code p.start
  ((s.map (·.1)).sum, (s.map (·.2)).sum)

/-! What a variant derives from its shapes at their maxima (R236): a pass over its instructions in order keeps the least and
the greatest value of every scalar register that it can tell. -/

/-- Register values that are known: least and greatest. -/
abbrev Ranges := SMap (Nat × Nat)

/-- A range of a scalar source: a register's, or a loop counter's below the greatest count of its level (R203, R208). -/
def Ranges.source (r : Ranges) (counts : SMap Nat) (b : Nat) : Option (Nat × Nat) :=
  if b < 16 then r.find? b
  else match counts.find? (b - 16) with
    | some n => some (0, n - 1)
    | none => if counts.any (·.1 = 100 + (b - 16)) then none else some (0, 0)

/-- The range of an ALU result, where the operation rises with its operands and does not wrap, or the operands are single
values (R205). -/
def rangeOf (op : Nat) (a b : Nat × Nat) : Option (Nat × Nat) :=
  let one := fun (x y : Nat) => (aluOp op (BitVec.ofNat 32 x) (BitVec.ofNat 32 y)).toNat
  let fit := fun (lo hi : Nat) => if hi < 2 ^ 32 then some (lo, hi) else none
  if a.1 = a.2 && b.1 = b.2 then let v := one a.1 b.1; some (v, v)
  else match op with
    | 0 => fit (a.1 + b.1) (a.2 + b.2)
    | 1 => if b.2 ≤ a.1 then some (a.1 - b.2, a.2 - b.1) else none
    | 2 => fit (a.1 * b.1) (a.2 * b.2)
    | 3 => if b.1 = b.2 && b.1 < 32 then fit (a.1 * 2 ^ b.1) (a.2 * 2 ^ b.1) else none
    | 4 => if b.1 = b.2 && b.1 < 32 then some (a.1 / 2 ^ b.1, a.2 / 2 ^ b.1) else none
    | 6 => some (0, min a.2 b.2)
    | 8 => some (min a.1 b.1, min a.2 b.2)
    | 9 => some (max a.1 b.1, max a.2 b.2)
    | 12 => if b.1 = b.2 && 0 < b.1 then some ((a.1 + b.1 - 1) / b.1, (a.2 + b.1 - 1) / b.1) else none
    | _ => none

/-- The 32-bit word at an offset of the argument block with every shape at its maximum, where shapes give all of it. -/
def shapeWord (shapes : List (Nat × Nat × Nat)) (off : Nat) : Option Nat :=
  let byte := fun (o : Nat) => (shapes.find? fun s => s.1 ≤ o && o < s.1 + s.2.1).map fun s => s.2.2 / 256 ^ (o - s.1) % 256
  match byte off, byte (off + 1), byte (off + 2), byte (off + 3) with
  | some a, some b, some c, some d => some (a + 256 * b + 65536 * c + 16777216 * d)
  | _, _, _, _ => none

/-- Registers that instructions i + 1 to i + n write, of a list that begins at the instruction after i. -/
def bodyWrites (code : List Nat) (n : Nat) : List Nat :=
  (code.take n).filterMap fun x => match opnd x 0 1 with
    | 0x03 => some (opnd x 2 1)
    | 0x04 => some (opnd x 3 1)
    | 0x05 => some (opnd x 2 1)
    | _ => none

/-- What the pass finds: within the limits, beyond them, or not told. -/
inductive Derived
  | within | beyond | open_
deriving DecidableEq, Repr

/-- The rows from a register's value on, of a range of `n` rows after `row`: at most 512 (R213, R221). -/
def rowsDerived (v : Option (Nat × Nat)) (row n : Nat) : Derived :=
  match v with
  | none => .open_
  | some (lo, hi) => if row + hi + n ≤ 512 then .within else if 512 < row + lo + n then .beyond else .open_

/-- Pass over a variant (R236). Inside a loop body a register that the body writes from a value of the body before is not
told; a write of a body from values that the body does not write is. -/
def derive (shapes : List (Nat × Nat × Nat)) (r : Ranges) (counts : SMap Nat) (code : List Nat) : Derived :=
  match code with
  | [] => .within
  | x :: rest =>
    let f := opnd x
    let put := fun (d : Nat) (v : Option (Nat × Nat)) => match v with
      | some v => r.insert d v
      | none => r.erase d
    let go := fun (d : Derived) (r : Ranges) (counts : SMap Nat) => match d with
      | .beyond => Derived.beyond
      | .within => derive shapes r counts rest
      | .open_ => match derive shapes r counts rest with
        | .beyond => .beyond
        | _ => .open_
    match f 0 1 with
    | 0x02 =>
      let n := if (f 1 1).testBit 0 then r.find? (f 3 1) else some (f 4 4, f 4 4)
      let r := (bodyWrites rest (f 8 2)).foldl (fun (r : Ranges) d => r.erase d) r
      go .within r (match n with
        | some n => (counts.erase (100 + f 2 1)).insert (f 2 1) n.2
        | none => (counts.erase (f 2 1)).insert (100 + f 2 1) 0)
    | 0x03 => go .within (put (f 2 1) (some (f 4 4, f 4 4))) counts
    | 0x04 =>
      let a := r.source counts (f 4 1)
      let b := if (f 1 1).testBit 0 then some (f 8 4, f 8 4) else r.source counts (f 5 1)
      go .within (put (f 3 1) (match a, b with | some a, some b => rangeOf (f 2 1) a b | _, _ => none)) counts
    | 0x05 => go .within (put (f 2 1) ((shapeWord shapes (f 4 2)).map fun v => (v, v))) counts
    | 0x12 => go (if f 13 1 = 255 then .within else rowsDerived (r.find? (f 13 1)) (f 10 2) (f 4 2)) r counts
    | 0x16 => go (if f 14 1 = 255 then .within else rowsDerived (r.find? (f 14 1)) (f 4 2) (f 6 2)) r counts
    | _ => go .within r counts

/-- A range that a variant derives from its shapes at their maxima leaves the limits (R236); where the pass does not tell,
the loader's verdict is a free value (assumption log 27). -/
def derivedBad (shapes : List (Nat × Nat × Nat)) (body : List Nat) : Bool :=
  let zero : Ranges := (List.range 16).foldl (fun (r : Ranges) i => r.insert i (0, 0)) []
  match derive shapes zero [] body with
  | .within => false
  | .beyond => true
  | .open_ => Config.derivedLimit body (shapes.map (·.2.2))

/-- A stage declaration has a field out of range: a reserved role or working format (R235, R237). -/
def StageDecl.bad (d : StageDecl) : Bool := 4 < d.role || 6 < d.inFmt || 6 < d.outFmt

/-- An opcode of R199 to R228 that is not reserved. -/
def knownOp (x : Nat) : Bool :=
  [0x00, 0x01, 0x02, 0x03, 0x04, 0x05, 0x06, 0x10, 0x11, 0x12, 0x13, 0x14, 0x15, 0x16, 0x17, 0x20, 0x21, 0x22, 0x30].contains
    (opnd x 0 1)

/-- What is wrong with a template itself (R235, R249): `decls` and `weights` are what the package holds. -/
def templateBad (t : Template) (nshapes decls weights : Nat) : Bool :=
  t.variants = 0 || 4 < t.variants || 8 < t.sync || 2 < t.res || 8 < nshapes ||
    t.shapes.any (fun s => (s.2.1 ≠ 2 && s.2.1 ≠ 4) || 256 < s.1 + s.2.1) ||
    (t.decl ≠ 0xFFFFFFFF && decls ≤ t.decl) ||
    t.tiled.any (fun d => d ≠ 255 && nshapes ≤ d) ||
    98304 < t.resBytes || (t.resBytes ≠ 0 && t.res ≠ 2) || t.resOffset % 64 ≠ 0 ||
    weights < t.resOffset + t.resBytes ||
    (List.range t.variants).any fun v => (List.range 4).any fun d =>
      (t.tiled[d]?).getD 255 ≠ 255 && (((t.var[v]?).map fun x => (x.extent[d]?).getD 0).getD 0) = 0

/-- The first error of a template's variants. -/
def variantsError (code : List Nat) (aps : List (List ApEntry)) (t : Template) (l : List Nat) : Option (Nat × Nat) :=
  match l with
  | [] => none
  | v :: rest =>
    let s := (t.start[v]?).getD 0
    let w : PkgWalk := ⟨[], [none, none, none, none], none⟩
    if code.length ≤ s then some (leBody, s)
    else match walkVariant aps t w s (code.drop s) with
      | some e => some e
      | none =>
        let body := (code.drop s).take (variantLen w s (code.drop s))
        if derivedBad t.shapes body then some (leLimit, s)
        else variantsError code aps t rest

/-- The signature of a package passes (R474): `n` bytes of the package before the section. -/
def Module.signatureOk (m : Module) (a n s : Nat) : Bool :=
  let b := m.bytes s 256
  let key := (b.drop 8).take 96
  let signer := fieldAt b 2 1
  let hash := if signer = 0 then m.otp.ownerHash else m.otp.vendorHash
  fieldAt b 0 2 = 1 && signer ≤ 1 && !(signer = 0 && m.otp.lc = 3) && (signer = 1 || m.otp.ownerWritten) &&
    Config.sha384 key = hash && Config.ecdsaVerify key (Config.sha384 (m.bytes a n)) ((b.drop 104).take 96)

/-- A directory breaks R234. -/
def dirBad (l : List (Nat × Nat × Nat)) (size : Nat) : Bool :=
  let first := 64 + 16 * l.length
  l.any (fun e => e.1 = 0 || 8 < e.1 || e.2.1 % 64 ≠ 0 || e.2.1 < first || size < e.2.1 + e.2.2) ||
    l.any (fun e => 1 < (l.filter (·.1 = e.1)).length) ||
    l.any (fun e => l.any fun x => e.1 ≠ x.1 && e.2.1 < x.2.1 + x.2.2 && x.2.1 < e.2.1 + e.2.2) ||
    l.any (fun e => e.1 = secSignature && (e.2.2 ≠ 256 || l.any fun x => e.2.1 < x.2.1))

/-- A package holds a section that it does not use (R234): one without contents, instructions or an IMPORTS list that no
template or routine call needs, address programs that no SLOT names, declarations that no template names. Whether
WEIGHTS and PARAMS are used cannot be told from a package (assumption log 27). -/
def Module.secUnused (m : Module) (a : Nat) : Bool :=
  let code := m.pkgCode a
  let has := fun type => (m.pkgDir a).any (·.1 = type)
  let runs := fun op => code.any fun x => opnd x 0 1 = op
  (m.pkgDir a).any (·.2.2 = 0) || has secProgram && m.pkgTemplates a = 0 || has secImports && !runs 0x30 ||
    has secAddress && !runs 0x06 ||
    has secDecl && (List.range (m.pkgTemplates a)).all fun t => (m.template a t).decl = 0xFFFFFFFF

/-- What the header alone shows (R33, R234): an error code, or 0. -/
def Module.headerError (m : Module) (a n : Nat) : Nat :=
  if n < 64 || m.bytes a 4 ≠ [0x4B, 0x4D, 0x50, 0x31] || m.num (a + 4) 2 ≠ 1 || m.num (a + 16) 8 ≠ n then leHeader
  else if m.fld SYS_ID SYS_ID_generation < m.num (a + 6) 1 then leGeneration
  else 0

/-- The loader's verdict on a package of `n` bytes at an address: error code and index (R33, R234 to R237, R475; the
order among its checks is assumption log 27). -/
def Module.loaderError (m : Module) (a n : Nat) : Nat × Nat :=
  if m.headerError a n ≠ 0 then (m.headerError a n, 0)
  else if n < 64 + 16 * m.num (a + 8) 4 then (leHeader, 0)
  else if dirBad (m.pkgDir a) n || m.secUnused a then (leHeader, 0)
  else
    let minor := m.fld SYS_LIB_VER SYS_LIB_VER_minor
    let (is, inn) := m.pkgSec a secImports
    let badImport := (List.range (inn / 4)).any fun i =>
      let id := m.num (is + 4 * i) 2
      id = 0 || 12 < id || minor < m.num (is + 4 * i + 2) 2
    if m.num (a + 24) 2 ≠ m.fld SYS_LIB_VER SYS_LIB_VER_major || minor < m.num (a + 26) 2 || badImport then (leLibrary, 0)
    else if BitVec.ofNat 32 (m.num (a + 28) 4) &&& ~~~ m.rd SYS_FEAT_FMT ≠ 0 then (leFormat, 0)
    else
      let aps := m.pkgAps a
      match aps.findIdx? (apError · ≠ 0) with
      | some i => (((aps[i]?).map apError).getD 0, i)
      | none =>
        let code := m.pkgCode a
        let decls := (m.pkgSec a secDecl).2 / 16
        match code.findIdx? (!knownOp ·), (List.range decls).any fun i => (m.stageDecl a i).bad with
        | some i, _ => (leOpcode, i)
        | none, true => (leLimit, 0)
        | none, false =>
        let w := (m.pkgSec a secWeights).2
        let each := (List.range (m.pkgTemplates a)).findSome? fun i =>
          let t := m.template a i
          if templateBad t t.shapes.length decls w then some (leLimit, (t.start[0]?).getD 0)
          else variantsError code aps t (List.range t.variants)
        match each with
        | some e => e
        | none =>
          let policy := m.fld SEC_PKG_POLICY SEC_PKG_POLICY_policy
          let (ss, sn) := m.pkgSec a secSignature
          if policy = 2 && sn = 0 || policy ≠ 0 && sn ≠ 0 && !m.signatureOk a (ss - a) ss then (leSignature, 0) else (0, 0)

/-! ### LOAD_PKG and UNLOAD_PKG (R395) -/

/-- The loaded package that a current handle names. -/
def Module.package? (m : Module) (h : Word) : Option Package :=
  match m.packages.find? (h.toNat % 1024) with
  | some p => if p.gen = h.toNat / 65536 then some p else none
  | none => none

/-- LOAD_PKG (R395): the region and the span are checked, then the package, its header before anything else of it is read
(R33). -/
def loadStart (region : Word) (offset size : W64) (c : CmdRef) (m : Module) : Module :=
  match m.region? region with
  | none => m.complete c stRefused 0
  | some r =>
    if offset.toNat % 64 ≠ 0 || r.size < offset.toNat + size.toNat || r.phase ≠ .live then m.complete c stRefused 0
    else if 1023 ≤ m.packages.length then m.complete c stBusy 0
    else
      let a := r.base + offset.toNat
      let head := min 64 size.toNat
      let (bad, m) := m.readMeets 1 a head
      if bad then m.complete c stBusError 0
      else if m.headerError a size.toNat ≠ 0 then m.complete c stRefused (m.headerError a size.toNat * 2 ^ 32)
      else
        let (bad, m) := m.readMeets 1 a size.toNat
        let (e, i) := m.loaderError a size.toNat
        if bad then m.complete c stBusError 0
        else if e ≠ 0 then m.complete c stRefused (i + e * 2 ^ 32)
        else match m.freeFrom m.packages 1 1023 with
          | (none, m) => m.complete c stBusy 0
          | (some k, m) =>
            let gen := SMap.get 1 m.packageGen k
            let p : Package := ⟨gen, region, a, size.toNat⟩
            ({ m with packages := m.packages.insert k p }).complete c stOk (gen * 65536 + k)

/-- LOAD_PKG from an SPM region needs RUN (R458). -/
def loadPkg (h : CmdHdr) (region : Word) (offset size : W64) (m : Module) : Module :=
  let q := entryHas [(8, 4, region.toNat), (16, 8, offset.toNat), (24, 8, size.toNat)]
  if !m.serialTurn h 0x05 then m
  else if isDramHandle region then m.command h 0x05 q (loadStart region offset size)
  else m.commandRun h 0x05 q (loadStart region offset size)

/-- Unload a package: its number's generation advances. -/
def Module.dropPackage (m : Module) (k : Nat) : Module :=
  match m.packages.find? k with
  | none => m
  | some p => { m with packages := m.packages.erase k, packageGen := SMap.set 1 m.packageGen k (nextGen p.gen) }

/-- Two package handles are the same: their reserved bits are ignored (R32, R395). -/
def samePkg (a b : Word) : Bool := (a ^^^ b) &&& 0xFFFF03FF = 0

/-- A stream names a package: its stages, and the user packages of its picture stages (R123, R395). -/
def Module.streamNames (m : Module) (c : Nat) (s : Stream) (h : Word) : Bool :=
  (s.setup.stages.any fun x => samePkg x.package h) || (List.range 4).any fun i => s.plan.pics.any fun p =>
    p.stage = 8 + i && samePkg (m.rd (NIS_USER_PKG c i)) h

/-- UNLOAD_PKG (R256, R395). -/
def unloadStart (package : Word) (c : CmdRef) (m : Module) : Module :=
  match m.package? package with
  | none => m.complete c stRefused 0
  | some _ =>
    if (m.streams.any fun e => m.streamNames e.1 e.2 package) || m.jobs.any (·.stages.any fun x => samePkg x.package package) then
      m.complete c stRefused 0
    else (m.dropPackage (package.toNat % 1024)).complete c stOk 0

def unloadPkg (h : CmdHdr) (package : Word) (m : Module) : Module :=
  if m.serialTurn h 0x06 then m.command h 0x06 (entryHas [(8, 4, package.toNat)]) (unloadStart package) else m

def execLoadPkg (h : CmdHdr) (region : Word) (offset size : W64) (s : State) := ok s (loadPkg h region offset size s.toModule)
def execUnloadPkg (h : CmdHdr) (package : Word) (s : State) := ok s (unloadPkg h package s.toModule)

end Sys2Proof.Machine
end

