-- ==== Sys2Proof/Machine/Operands.lean ====
section
/-!
DEFINITION. Operand forms: the layouts of descriptors and set-up records that commands name (R330, R346, R347, R349,
R364), read from their bytes.
-/
namespace Sys2Proof.Machine

/-- A DMA descriptor from its 64 bytes (R330). -/
def descOf (b : List Byte) : Desc :=
  let f := fieldAt b 1 1
  { op := fieldAt b 0 1, wait := f.testBit 0, signal := f.testBit 1, complete := f.testBit 2, last := f.testBit 3,
    waitObj := fieldAt b 2 2, waitThr := BitVec.ofNat 32 (fieldAt b 4 4), src := fieldAt b 8 6,
    pattern := BitVec.ofNat 64 (fieldAt b 8 8), dst := fieldAt b 16 6, rowBytes := fieldAt b 24 4,
    rows := fieldAt b 28 4, srcPitch := signedOf 32 (fieldAt b 32 4), dstPitch := signedOf 32 (fieldAt b 36 4),
    waitTimeout := fieldAt b 40 4, sigObj := fieldAt b 44 2, next := fieldAt b 48 8,
    tag := BitVec.ofNat 32 (fieldAt b 56 4) }

/-- The checks of R331 step 1 on a fetched descriptor: `plan` allows op 2. -/
def descForm (d : Desc) (plan : Bool) : Bool :=
  (d.op ≤ 1 || plan && d.op = 2) && (!d.wait || d.waitObj < 8192 && d.waitTimeout ≠ 0) &&
    (!d.signal || d.sigObj < 8192) && d.rows ≤ 65535 && d.rowBytes ≤ 16777216 && (d.op ≠ 1 || d.rowBytes % 8 = 0)

/-- `n` little-endian values of `w` bytes from offset `o`. -/
def arrayAt (b : List Byte) (o w n : Nat) : List Nat := (List.range n).map fun i => fieldAt b (o + w * i) w

/-- A stage entry (R347). -/
def stageOf (b : List Byte) : StageSetup :=
  { package := BitVec.ofNat 32 (fieldAt b 0 4), template := fieldAt b 4 2, frameUnit := fieldAt b 6 1 = 1,
    tasks := fieldAt b 7 1, deadline := fieldAt b 8 4, weightsView := fieldAt b 12 1, writable := fieldAt b 13 1,
    syncEntries := fieldAt b 14 1, argsSlots := fieldAt b 15 1, sync := arrayAt b 16 2 8,
    access := (arrayAt b 32 4 4).map (BitVec.ofNat 32), argsRegion := BitVec.ofNat 32 (fieldAt b 48 4),
    argsOffset := fieldAt b 52 4 }

/-- A delivery entry (R349). -/
def deliveryOf (b : List Byte) : Delivery :=
  { after := fieldAt b 0 1, slots := fieldAt b 1 1, srcRegion := BitVec.ofNat 32 (fieldAt b 4 4),
    srcOffset := fieldAt b 8 4, bytes := fieldAt b 12 4, window := BitVec.ofNat 32 (fieldAt b 16 4),
    deadline := fieldAt b 20 4, suspended := false, resume := false, notCopied := 0 }

/-- A set-up record (R346): header, stage entries, delivery entries. -/
def setupOf (b : List Byte) : Setup :=
  let ns := fieldAt b 2 1
  let nd := fieldAt b 3 1
  { ctx := fieldAt b 0 1, allowSpill := (fieldAt b 1 1).testBit 0, framePeriod := fieldAt b 4 4,
    linePeriod := fieldAt b 8 4, vblank := fieldAt b 12 4, calFrames := fieldAt b 16 1, tclass := fieldAt b 17 1,
    handover := arrayAt b 20 2 7,
    stages := (List.range (min ns 8)).map fun i => stageOf ((b.drop (64 + 64 * i)).take 64),
    deliveries := (List.range (min nd 4)).map fun j => deliveryOf ((b.drop (64 + 64 * ns + 32 * j)).take 32) }

/-- The length of a set-up record from its header (R346). -/
def setupLen (b : List Byte) : Nat := 64 + 64 * min (fieldAt b 2 1) 8 + 32 * min (fieldAt b 3 1) 4

/-- A field of a set-up record that the spec calls reserved or out of range (R346, R347, R349): its byte offset, the
first one in the record's order. -/
def setupBad (b : List Byte) : Option Nat :=
  let ns := fieldAt b 2 1
  let nd := fieldAt b 3 1
  let chk := fun (l : List (Bool × Nat)) => (l.find? (·.1)).map (·.2)
  let head := chk [(35 < fieldAt b 0 1, 0), (8 < ns, 2), (4 < nd, 3), (fieldAt b 4 4 = 0, 4), (fieldAt b 8 4 = 0, 8),
    (7 < fieldAt b 17 1, 17)]
  let stage := fun i =>
    let o := 64 + 64 * i
    chk [(1 < fieldAt b (o + 6) 1, o + 6), (fieldAt b (o + 7) 1 = 0 || 16 < fieldAt b (o + 7) 1, o + 7),
      (fieldAt b (o + 12) 1 ≠ 255 && 8 ≤ fieldAt b (o + 12) 1, o + 12), (8 < fieldAt b (o + 14) 1, o + 14),
      (fieldAt b (o + 15) 1 = 0, o + 15), (fieldAt b (o + 52) 4 % 256 ≠ 0, o + 52)]
  let deliv := fun j =>
    let o := 64 + 64 * ns + 32 * j
    chk [(ns ≤ fieldAt b o 1, o), (fieldAt b (o + 1) 1 = 0, o + 1),
      (fieldAt b (o + 12) 4 = 0 || 16777216 < fieldAt b (o + 12) 4, o + 12)]
  match head with
  | some x => some x
  | none => match (List.range ns).findSome? stage with
    | some x => some x
    | none => (List.range nd).findSome? deliv

/-- A job record (R364): its stages, and its expiry given the clocks. -/
def jobStages (b : List Byte) : List StageSetup :=
  (List.range (min (fieldAt b 0 1) 8)).map fun i => stageOf ((b.drop (64 + 64 * i)).take 64)

/-- The checks of R347 and R364 on a job record's fields. -/
def jobForm (b : List Byte) : Bool :=
  let ns := fieldAt b 0 1
  1 ≤ ns && ns ≤ 8 && fieldAt b 1 1 ≤ 2 && (fieldAt b 1 1 ≠ 2 || 1 ≤ fieldAt b 4 4) &&
    (List.range ns).all fun i =>
      let o := 64 + 64 * i
      1 ≤ fieldAt b (o + 7) 1 && fieldAt b (o + 7) 1 ≤ 16 && (fieldAt b (o + 12) 1 = 255 || fieldAt b (o + 12) 1 < 8) &&
        fieldAt b (o + 14) 1 ≤ 8 && fieldAt b (o + 15) 1 ≠ 0 &&
        fieldAt b (o + 52) 4 % 256 = 0

/-- The length of a job record from its header (R364). -/
def jobLen (b : List Byte) : Nat := 64 + 64 * min (fieldAt b 0 1) 8

end Sys2Proof.Machine
end

