-- ==== Sys2Proof/Machine/Dma.lean ====
section
/-!
DEFINITION. The DMA block (11_dram_dma R329 to R339): channels, descriptor lists, transfers, halts and their recovery,
and the DRAM controllers' own steps (R317, R322).
-/
namespace Sys2Proof.Machine

/-- What DMA_CH_STAT.state reads for a channel (R341). -/
def DmaCh.stat (c : DmaCh) : Nat :=
  match c.phase with
  | .idle => 0
  | .halted => 3
  | _ => if c.paced then 2 else 1

/-- Store a channel and report its state and owner (R341). -/
def Module.setChan (m : Module) (ch : Nat) (c : DmaCh) : Module :=
  let m := { m with dma := SMap.set DmaCh.rest m.dma ch c }
  let m := (m.setFld (DMA_CH_STAT ch) DMA_CH_STAT_state c.stat).setFld (DMA_CH_STAT ch) DMA_CH_STAT_owned
    c.planOwned.toNat
  m.setFld (DMA_OWN (ch / 32)) ⟨ch % 32, ch % 32⟩ c.planOwned.toNat

/-- Store an address in a register pair (R341). -/
def Module.wrAddr (m : Module) (lo hi a : Nat) : Module :=
  (m.wr lo (BitVec.ofNat 32 a)).wr hi (BitVec.ofNat 32 (a / 2 ^ 32 % 65536))

/-- A channel is free: no plan owns it, no list runs on it, and no completion of its last list waits for room (R329, R399). -/
def Module.chanFree (m : Module) (ch : Nat) : Bool :=
  !(m.chan ch).planOwned && (m.chan ch).owner = .free && m.sessions.all fun e => e.2.cqWait.all fun x =>
    !(x.opcode = 0x0C && !x.more && x.result.toNat / 2 ^ 32 % 64 = ch)

/-- The lowest free channel that no plan owns (R329). -/
def Module.freeChan (m : Module) : Option Nat := (List.range 64).find? m.chanFree

/-- Start a list on a channel (R329, R331). -/
def Module.startList (m : Module) (ch : Nat) (c : CmdRef) (addr : Nat) : Module :=
  let m := m.setChan ch { DmaCh.rest with owner := .session c, phase := .fetch, addr := addr }
  m.wrAddr (DMA_CH_DESC_LO ch) (DMA_CH_DESC_HI ch) addr

/-- A channel is free again; a plan-owned one stays plan-owned (R329). -/
def Module.freeChannel (m : Module) (ch : Nat) : Module :=
  m.setChan ch { DmaCh.rest with planOwned := (m.chan ch).planOwned }

/-- DMA: the list runs on the lowest free channel; without one the command waits (R329). In IDLE it takes the module to
RUN under auto_run, and otherwise runs in IDLE (R458). -/
def dmaCmd (h : CmdHdr) (addr : W64) (m : Module) : Module :=
  match m.freeChan with
  | none => m
  | some ch =>
    let f := fun c (m : Module) => m.startList ch c addr.toNat
    let q := entryHas [(8, 8, addr.toNat)]
    if m.power = 2 && !m.moving && !m.bit PWR_CFG PWR_CFG_auto_run then m.command h 0x0C q f
    else m.commandRun h 0x0C q f

/-- The completion result of a descriptor (R398). -/
def dmaResult (tag : Word) (ch : Nat) : Nat := tag.toNat + ch * 2 ^ 32

/-- End a list with one completion entry, whatever complete holds (R331, R336), and free the channel. -/
def Module.endList (m : Module) (ch : Nat) (code : Nat) (tag : Word) : Module :=
  match (m.chan ch).owner with
  | .session c => (m.freeChannel ch).completeMore c code false (dmaResult tag ch) c.tag
  | _ => m.freeChannel ch

/-! ### Transfers (R332, R335) -/

/-- Why a transfer's access to memory or a window fails at once (R335): its cause. A stack that is off serves nothing
(R527); a narrow SPM write over a poisoned word is acknowledged by the gather buffer (R294). -/
def Module.accessCause (m : Module) (read : Bool) (a n : Nat) : Option Nat :=
  match m.spaceOf a with
  | .unmapped => some 1
  | .registers => some 1
  | .window w off => if m.windowBad w.val off n read then some 1 else none
  | .spm =>
    if m.spmOff a n then some 6
    else if !m.inRegion1 a then some 2
    else if !read || (m.badIn a n).isEmpty then none else some 3
  | .dram =>
    if !m.dramOn then some 6
    else if !m.inRegion1 a then some 2
    else if (if read then m.badIn a n else m.badPartly a n).isEmpty then none else some 3

/-- An address lies in the window apertures. -/
def inWindows (a : Nat) : Bool := windowBase ≤ a && a < 0x4000000000

/-- The direction of a failing access (R335, R341). -/
def dirOf (read : Bool) (a : Nat) : Nat := (if read then 0 else 1) + if inWindows a then 2 else 0

/-- How far one transfer reaches from an address: to the next 1 024 B boundary of a window, otherwise to the next 4 KiB
boundary (R242, R332). -/
def reach (a : Nat) : Nat := if inWindows a then 1024 - a % 1024 else 4096 - a % 4096

/-- The bytes of a descriptor (R330). -/
def Desc.total (d : Desc) : Nat := d.rowBytes * d.rows

/-- Source and destination addresses of byte p of a descriptor (R330). -/
def Desc.srcAt (d : Desc) (p : Nat) : Nat :=
  (((d.src : Int) + (p / d.rowBytes : Nat) * d.srcPitch + (p % d.rowBytes : Nat)) % (2 ^ 48 : Nat)).toNat
def Desc.dstAt (d : Desc) (p : Nat) : Nat :=
  (((d.dst : Int) + (p / d.rowBytes : Nat) * d.dstPitch + (p % d.rowBytes : Nat)) % (2 ^ 48 : Nat)).toNat

/-- The length of the transfer at byte p: within its row and within reach on both sides (R332). -/
def Desc.chunk (d : Desc) (p : Nat) : Nat :=
  let left := d.rowBytes - p % d.rowBytes
  if d.op = 1 then min left (reach (d.dstAt p)) else min (min left (reach (d.dstAt p))) (reach (d.srcAt p))

/-- Byte p of a FILL row and the `n` bytes from it (R330): the pattern repeats in every word of the row. -/
def Desc.fillBytes (d : Desc) (p n : Nat) : List Byte :=
  (List.range n).map fun i => BitVec.ofNat 8 (d.pattern.toNat >>> (8 * ((p % d.rowBytes + i) % 8)))

/-- Why the transfer at byte p fails: the source first, then the destination. -/
def Module.chunkFail (m : Module) (d : Desc) (p : Nat) : Option DmaFail :=
  let n := d.chunk p
  match (if d.op = 1 then none else m.accessCause true (d.srcAt p) n) with
  | some c => some ⟨d.srcAt p, dirOf true (d.srcAt p), c⟩
  | none => (m.accessCause false (d.dstAt p) n).map fun c => ⟨d.dstAt p, dirOf false (d.dstAt p), c⟩

/-- Record acknowledged bytes (R335). -/
def addAcked (l : List (Nat × Nat)) (lo n : Nat) : List (Nat × Nat) := if n = 0 then l else insertSpan l (lo, lo + n)

/-- The longest acknowledged prefix (R335). -/
def prefixDone (l : List (Nat × Nat)) : Nat := l.foldl (fun x s => if s.1 ≤ x then max x s.2 else x) 0

/-- Report the bad DRAM sectors that a failing transfer of `n` bytes met (R321): in its read, or in a write's merge reads. -/
def Module.failReport (m : Module) (f : DmaFail) (n : Nat) : Module :=
  if f.cause ≠ 3 then m else if f.direction % 2 = 0 then m.reportBad f.addr n else m.reportPartly f.addr n

/-- What `n` bytes from byte p of a descriptor meet: the read of the source, and the merge reads of the DRAM sectors that
the write covers in part (R293, R320). -/
def Module.dmaMeets (m : Module) (d : Desc) (p n : Nat) : Module :=
  let m := if d.op = 1 then m else m.meetLines 5 [(d.srcAt p, n)]
  if d.dstAt p < spmSize then m else m.meetPartly 5 (d.dstAt p) n

/-- The transfer of `n` bytes from byte p waits for a stack that is being zero filled (R296, R527). -/
def Module.dmaBusy (m : Module) (d : Desc) (p n : Nat) : Bool :=
  d.op ≠ 1 && m.spmBusy (d.srcAt p) n || m.spmBusy (d.dstAt p) n

/-- The fill of a queue, in sixteenths of its depth, that a channel finds before a transfer (R334): as the command tells it for
its first transfer, and otherwise free (assumption log 2). -/
def Module.fillNow (m : Module) (queued : Bool) (told : Option Nat) : Nat × Module :=
  match queued, told with
  | false, _ => (0, m)
  | true, some f => (f, m)
  | true, none => m.pick 17

/-- The rest of a row between local memories as its transfers go: how many bytes have moved, the failure that stops them, whether
the channel waits for its queue. -/
structure RowRun where
  bytes : Nat
  fail : Option DmaFail
  paced : Bool
  m : Module

/-- The transfers of the rest of a row, up to its end, the first that fails (R335), or one that finds its queue at the high
mark (R334); the first of them has been let through. -/
def DmaCh.rowRun (c : DmaCh) (d : Desc) (fuel : Nat) (x : RowRun) : RowRun :=
  match fuel with
  | 0 => x
  | fuel + 1 =>
    let p := c.todo + x.bytes
    if d.rowBytes ≤ c.todo % d.rowBytes + x.bytes then x
    else
      let (fill, m) := x.m.fillNow (x.bytes ≠ 0 && !(d.dstAt p < spmSize)) none
      if x.bytes ≠ 0 && !(d.dstAt p < spmSize) && c.paceHigh ≤ fill then { x with paced := true, m := m }
      else
        let n := d.chunk p
        let m := m.dmaMeets d p n
        match m.chunkFail d p with
        | some f => { x with fail := some f, m := m.failReport f n }
        | none => c.rowRun d fuel { x with bytes := x.bytes + n, m := m }

/-- The rest of a row between local memories: the part before a failing or waiting transfer moves, read before it is
written. -/
def Module.moveRow (m : Module) (ch : Nat) (c : DmaCh) (d : Desc) : Bool × Module :=
  let x := c.rowRun d (d.rowBytes / 1024 + 4) ⟨0, none, false, m⟩
  let data := if d.op = 1 then d.fillBytes c.todo x.bytes else x.m.bytes (d.srcAt c.todo) x.bytes
  let m := x.m.store (d.dstAt c.todo) data
  let c := { c with todo := c.todo + x.bytes, acked := addAcked c.acked c.todo x.bytes, fail := x.fail, paced := x.paced }
  (x.fail.isNone && !x.paced, m.setChan ch c)

/-- Transfers outstanding in the block (R332). -/
def Module.dmaOutstanding (m : Module) : Nat := (m.dma.map (·.2.outstanding)).sum

/-! ### Multicast as the sender (R436) -/

/-- The bytes of the transfer before write i. -/
def chunkPos (l : List McChunk) (i : Nat) : Nat := ((l.take i).map (·.len)).sum

/-- The end of the last whole write at or below `hi`. -/
def chunkEnd (l : List McChunk) (hi : Nat) : Nat :=
  (List.range (l.length + 1)).foldl (fun x i => if chunkPos l i ≤ hi then max x (chunkPos l i) else x) 0

/-- A multicast transfer is over: every receiver has credited every byte or been dropped (R437). -/
def McSend.finished (t : McSend) : Bool := t.recv.all fun r => r.dropped || chunkPos t.chunks t.chunks.length ≤ r.applied

/-- One WIN_WRITE of a multicast transfer to one receiver: MULTICAST, LAST on the final write, no ACK_REQ (R436). -/
def Module.mcMsg (m : Module) (b : Binding) (r : Receiver) (t : McSend) (i : Nat) (x : McChunk) : Msg :=
  let flags := 1 + (if i + 1 = t.chunks.length then 4 + (if b.arrive then 2 else 0) else 0)
  let data := match x.src with
    | some a => m.bytes a x.len
    | none => x.data
  m.winMsg r 0x10 false
    (winWritePayload r.window.toNat r.gen.toNat flags t.number.toNat (chunkPos t.chunks i) x.off data)

/-- Why write i of a transfer fails (R335): its read of the source, or a destination outside the transfer's window. -/
def Module.mcBad (m : Module) (t : McSend) (i : Nat) (x : McChunk) : Option DmaFail :=
  let dst := ((m.chan t.ch.val).desc.map (·.dstAt (chunkPos t.chunks i))).getD 0
  match x.src.bind fun a => (m.accessCause true a x.len).map fun c => DmaFail.mk a (dirOf true a) c with
  | some f => some f
  | none => match m.spaceOf dst with
    | .window w off => if w = t.window && !m.windowBad w.val off x.len false then none else some ⟨dst, 3, 1⟩
    | _ => some ⟨dst, dirOf false dst, 1⟩

/-- A multicast transfer as its writes go out: whether one has failed, or the next waits for a transmit queue (R16) or a stack
that is being zero filled (R527). -/
structure McTurn where
  t : McSend
  fail : Option DmaFail
  waits : Bool
  m : Module

/-- Send write i of a transfer to receiver k: the source is read for each receiver (R293, R436). -/
def McTurn.send (x : McTurn) (b : Binding) (i k : Nat) : McTurn :=
  match b.receivers[k]?, x.t.chunks[i]?, x.t.recv[k]? with
  | some r, some y, some e =>
    let use := WinUse.dmaWrite x.t.ch 0 0
    if x.fail.isSome || x.waits then x
    else if (y.src.map (x.m.spmBusy · y.len)).getD false ||
        !x.m.winRoom use b.port (b.peer r) b.replicate b.tclass (x.m.mcMsg b r x.t i y) then { x with waits := true }
    else
      let m := match y.src with
        | some a => x.m.meetLines 5 [(a, y.len)]
        | none => x.m
      match m.mcBad x.t i y with
      | some f => { x with fail := some f, m := m.failReport f y.len }
      | none =>
        { x with
          t := { x.t with recv := setAt x.t.recv k { e with sent := max e.sent (chunkPos x.t.chunks (i + 1)) } }
          m := { m with winSeq := m.winSeq + 1 }.winHand use b.port (b.peer r) b.replicate b.tclass (m.mcMsg b r x.t i y) }
  | _, _, _ => x

/-- Send every receiver of a transfer the bytes below its limit that it has not been sent, each write to every receiver in
turn (R436). -/
def Module.mcPump (m : Module) (t : McSend) : McTurn :=
  match m.binding? t.window.val with
  | none => ⟨t, none, false, m⟩
  | some b =>
    (List.range t.chunks.length).foldl (fun x i => (List.range t.recv.length).foldl (fun (x : McTurn) k =>
      match x.t.recv[k]? with
      | some e =>
        if !e.dropped && e.sent ≤ chunkPos t.chunks i && chunkPos t.chunks (i + 1) ≤ e.limit then x.send b i k else x
      | none => x) x) ⟨t, none, false, m⟩

/-- Send receiver k again every write from position `lo` that ends at or below `hi` (R437). -/
def Module.mcSpan (m : Module) (t : McSend) (k lo hi : Nat) : McTurn :=
  match m.binding? t.window.val with
  | none => ⟨t, none, false, m⟩
  | some b => (List.range t.chunks.length).foldl (fun (x : McTurn) i =>
      if lo ≤ chunkPos t.chunks i && chunkPos t.chunks (i + 1) ≤ hi then x.send b i k else x) ⟨t, none, false, m⟩

/-- The writes of a multicast transfer from byte p (R436). -/
def Module.mcChunks (m : Module) (d : Desc) (fuel p : Nat) : List McChunk :=
  match fuel with
  | 0 => []
  | fuel + 1 =>
    if d.total ≤ p then []
    else
      let n := d.chunk p
      let off := match m.spaceOf (d.dstAt p) with
        | .window _ off => off
        | _ => 0
      (if d.op = 1 then ⟨off, n, none, d.fillBytes p n⟩ else ⟨off, n, some (d.srcAt p), []⟩) :: m.mcChunks d fuel (p + n)

/-- Begin a multicast transfer of these writes: each receiver starts with 16 KiB of credit (R436). -/
def Module.mcBegin (m : Module) (ch : Fin 64) (c : DmaCh) (d : Desc) (w : Fin 64) (l : List McChunk) : Module :=
  let n := SMap.get 0 m.mcNext w.val
  let rs := ((m.binding? w.val).map (·.receivers.length)).getD 0
  let x := { m with mcNext := SMap.set 0 m.mcNext w.val (n + 1) }.mcPump ⟨w, n, ch, l, List.replicate rs ⟨0, 16384, 0, 0, false⟩⟩
  match x.fail with
  | some f => x.m.setChan ch.val { c with fail := some f, held := [] }
  | none =>
    { x.m with mcSend := x.m.mcSend ++ [x.t] }.setChan ch.val { c with todo := d.total, outstanding := 1, held := [] }

/-! ### The AVTP frames of a plan (R134, R330, R425) -/

/-- The frame of one output line, numbered on its talker. -/
def Module.avtpFrame (m : Module) (x : AvtpMove) (line : Nat) (data : List Byte) : AvtpFrame :=
  let t := 4 * x.c.val + x.k.val
  ⟨t, SMap.get 0 m.avtpSeq t,
    if m.bit (NET_TLK_CFG t) NET_TLK_CFG_replicate then some (SMap.get 0 m.rtags t) else none, line, x.width, x.height,
    x.format, x.tv, x.timestamp, data⟩

/-- The frame on each port of its talker. -/
def Module.avtpOuts (m : Module) (f : AvtpFrame) : List (Fin 2 × Out) :=
  ((List.finRange 2).filter fun p => (m.fld (NET_TLK_CFG f.talker) NET_TLK_CFG_ports).testBit p.val).map fun p =>
    (p, .avtp p f)

/-- One row of a descriptor of op 2: the line is read, with its half of the CbCr line (R426), and its frame queued on the
talker's ports (R418); it waits for room (R16) and for a stack that is being zero filled. -/
def Module.avtpStep (m : Module) (ch : Fin 64) (c : DmaCh) (d : Desc) (x : AvtpMove) : Bool × Module :=
  let line := x.line0 + c.todo / d.rowBytes
  let a := d.srcAt c.todo
  let b := x.chroma + line / 2 * x.pitch + line % 2 * x.chromaLen
  let f := m.avtpFrame x line (m.bytes a d.rowBytes ++ m.bytes b x.chromaLen)
  if m.spmBusy a d.rowBytes || m.spmBusy b x.chromaLen || !m.txRoom (m.avtpOuts f) then (false, m.setChan ch.val c)
  else
    let m := m.meetLines 5 [(a, d.rowBytes), (b, x.chromaLen)]
    let fails := fun (a n : Nat) => if n = 0 then none else (m.accessCause true a n).map fun q => DmaFail.mk a (dirOf true a) q
    match fails a d.rowBytes, fails b x.chromaLen with
    | some q, _ => (false, (m.failReport q d.rowBytes).setChan ch.val { c with fail := some q })
    | none, some q => (false, (m.failReport q x.chromaLen).setChan ch.val { c with fail := some q })
    | none, none =>
      let m := { m.txQueue x.c (m.avtpOuts f) with
        avtpSeq := SMap.set 0 m.avtpSeq f.talker ((f.seqNum + 1) % 256)
        rtags := match f.rtag with
          | some n => SMap.set 0 m.rtags f.talker ((n + 1) % 65536)
          | none => m.rtags }
      (true, m.setChan ch.val { c with todo := c.todo + d.rowBytes, acked := addAcked c.acked c.todo d.rowBytes })

/-! ### Issuing -/

/-- An unacknowledged write of the module overlaps the bytes of a window at an address (R432). -/
def Module.addrOverlap (m : Module) (a n : Nat) : Bool :=
  match m.spaceOf a with
  | .window w off => m.winOverlap w off n
  | _ => false

/-- One transfer through windows, one at a time so that ARRIVE and the order of overlapping writes hold (R432, R433): whether
the channel may go on with the next, and the state after it. -/
def Module.windowStep (m : Module) (ch : Fin 64) (c : DmaCh) (d : Desc) : Bool × Module :=
  let p := c.todo
  let n := d.chunk p
  let stay := (false, m.setChan ch.val c)
  if d.op ≠ 1 && inWindows (d.srcAt p) then
    match m.chunkFail d p, m.spaceOf (d.srcAt p) with
    | none, .window w off =>
      if inWindows (d.dstAt p) && (c.outstanding ≠ 0 || m.addrOverlap (d.dstAt p) n) then stay
      else
        let m := m.setChan ch.val { c with todo := p + n, outstanding := c.outstanding + 1 }
        (true, m.winReadFrom w off n (.dmaRead ch p n))
    | f, _ => (false, m.setChan ch.val { c with fail := f })
  else match m.spaceOf (d.dstAt p) with
    | .window w off =>
      if m.multicast w.val then
        if p = 0 then (false, m.mcBegin ch c d w (m.mcChunks d (d.total + 1) 0))
        else (false, m.setChan ch.val { c with fail := some ⟨d.dstAt p, 3, 1⟩ })
      else
        let lastOne := d.total ≤ p + n
        let arrive := lastOne && ((m.binding? w.val).map Binding.arrive).getD false
        let use := WinUse.dmaWrite ch p n
        if m.winOverlap w off n || arrive && c.outstanding ≠ 0 || !m.writeRoom w off (List.replicate n 0) use then stay
        else
          let m := m.dmaMeets d p n
          match m.chunkFail d p with
          | some f => (false, (m.failReport f n).setChan ch.val { c with fail := some f })
          | none =>
            let data := if d.op = 1 then d.fillBytes p n else m.bytes (d.srcAt p) n
            let m := m.setChan ch.val { c with todo := p + n, outstanding := c.outstanding + 1 }
            (true, m.winWriteTo w off data arrive use)
    | _ => stay

/-- One transfer of a descriptor, or a row between local memories, unless it waits for its queue (R334) or for a stack that is
being zero filled (R527): whether the channel may go on with the next, and the state after it. -/
def Module.dmaStep (m : Module) (ch : Fin 64) (c : DmaCh) (d : Desc) (told : Option Nat) : Bool × Module :=
  let p := c.todo
  let dst := d.dstAt p
  let queued := d.op = 2 || inWindows dst || !(dst < spmSize)
  let (fill, m) := m.fillNow queued told
  if queued && (c.paced && c.paceLow < fill || !c.paced && c.paceHigh ≤ fill) then
    (false, m.setChan ch.val { c with paced := true })
  else
    let c := { c with paced := false }
    match c.owner with
    | .plan (.avtp x) => m.avtpStep ch c d x
    | _ =>
      let inside := (d.op = 1 || !inWindows (d.srcAt p)) && !inWindows dst
      if m.dmaBusy d p (if inside then d.rowBytes - p % d.rowBytes else d.chunk p) then (false, m.setChan ch.val c)
      else if inside then m.moveRow ch.val c d
      else m.windowStep ch c d

/-- Issue transfers until the descriptor is issued, a transfer fails, the channel is paced, or 16 of the channel or 512 of
the block are outstanding (R332). -/
def Module.dmaIssue (m : Module) (fuel : Nat) (ch : Fin 64) (told : Option Nat) : Module :=
  match fuel with
  | 0 => m
  | fuel + 1 =>
    let c := m.chan ch.val
    match c.desc with
    | none => m
    | some d =>
      if c.phase ≠ .moving ∨ c.fail.isSome ∨ d.total ≤ c.todo ∨ 16 ≤ c.outstanding ∨ 512 ≤ m.dmaOutstanding then m
      else match m.dmaStep ch c d told with
        | (false, m) => m
        | (true, m) => m.dmaIssue fuel ch none

/-- A channel issues on. -/
def Module.dmaGo (m : Module) (ch : Fin 64) (told : Option Nat) : Module :=
  m.dmaIssue (((m.chan ch.val).desc.map (·.rows)).getD 0 + 64) ch told

/-- Begin or go on moving a descriptor's data (R331 step 3). -/
def Module.dmaMove (m : Module) (ch : Fin 64) (told : Option Nat) : Module :=
  (m.setChan ch.val { m.chan ch.val with phase := .moving }).dmaGo ch told

/-- A channel begins a descriptor: nothing moved yet, and the marks latched as they stand (R334). -/
def Module.beginDesc (m : Module) (ch : Nat) (c : DmaCh) (d : Desc) : DmaCh :=
  { c with desc := some d, todo := 0, acked := [], fail := none, held := [],
           paceLow := m.fld (DMA_CH_PACE ch) DMA_CH_PACE_low, paceHigh := m.fld (DMA_CH_PACE ch) DMA_CH_PACE_high }

/-- A descriptor that has been read is checked, waits if asked, and moves (R331). -/
def Module.dmaRead (m : Module) (ch : Fin 64) (b : List Byte) (fill : Nat) : Module :=
  let c := m.chan ch.val
  let d := descOf b
  if !descForm d false then m.endList ch.val stRefused d.tag
  else
    let c := m.beginDesc ch.val c d
    if d.wait && !meets (m.sync d.waitObj) d.waitThr then m.setChan ch.val { c with phase := .waiting }
    else (m.setChan ch.val c).dmaMove ch (some fill)

/-- A descriptor fetch that fails halts the channel with cause DESC_FETCH (R335). -/
def Module.fetchFail (m : Module) (ch : Nat) (a : Nat) : Module :=
  m.setChan ch { m.chan ch with fail := some ⟨a, 0, 7⟩, desc := none, todo := 0, acked := [] }

/-- DMA_DESCRIPTOR_RUN: a channel that stands before a descriptor checks its address, fetches it, waits if asked, and
moves its data (R331). Nothing starts while a completion of its session waits for room (R399). -/
def dmaDescriptorRun (ch : Fin 64) (desc : Remote) (errs : List MemErr) (fill : Nat) (m : Module) : Module :=
  let c := m.chan ch.val
  let held := match c.owner with
    | .session x => match m.cmdSession x with
      | some s => !s.cqWait.isEmpty
      | none => false
    | _ => false
  if c.phase ≠ .fetch || c.fail.isSome || held then m
  else if c.addr % 64 ≠ 0 then m.endList ch.val stRefused 0
  else if m.spmBusy c.addr 64 then m
  else
    let a := c.addr
    let m := (m.upset errs).meetLines 5 [(a, 64)]
    match m.accessCause true a 64, m.spaceOf a, desc with
    | none, .window w off, .data b => (m.askWindow w off 64 true).dmaRead ch (fit 64 b) fill
    | none, .window w off, _ => (m.askWindow w off 64 (desc ≠ .unanswered)).fetchFail ch.val a
    | none, _, _ => m.dmaRead ch (m.bytes a 64) fill
    | some c, _, _ => (if c = 3 then m.reportBad a 64 else m).fetchFail ch.val a

/-- DMA_WAIT_MET: the wait object meets the threshold and the data move begins (R331 step 2, R302). -/
def dmaWaitMet (ch : Fin 64) (errs : List MemErr) (fill : Nat) (m : Module) : Module :=
  let c := m.chan ch.val
  match c.phase, c.desc with
  | .waiting, some d => if meets (m.sync d.waitObj) d.waitThr then (m.upset errs).dmaMove ch (some fill) else m
  | _, _ => m

/-- DMA_WAIT_TIMEOUT: the list ends with WAIT_TIMEOUT, unless the wait is met in the same cycle (R331, R310, R339). -/
def dmaWaitTimeout (ch : Fin 64) (m : Module) : Module :=
  let c := m.chan ch.val
  match c.phase, c.desc with
  | .waiting, some d =>
    if meets (m.sync d.waitObj) d.waitThr then m
    else (m.count SYN_CNT_TIMEOUT 1).endList ch.val stWaitTimeout d.tag
  | _, _ => m

/-- A clip ring at admission (R325). -/
def Clip.rest : Clip := ⟨false, false, 0, 0xFFFFFFFF, 0, 0, []⟩

/-- A clip copy waits until the ring header names the copy before it, so that a reader finds intact the frames that R327
says. -/
def Module.clipWaits (m : Module) (mv : PlanMove) : Bool :=
  match mv with
  | .clip c k _ => !(SMap.get Clip.rest m.clips (4 * c.val + k.val)).done.isEmpty
  | _ => false

/-- The next move that waits for a plan-owned channel at rest starts (R247). -/
def Module.planNext (m : Module) (ch : Nat) : Module :=
  let c := m.chan ch
  if !c.planOwned || c.phase ≠ .idle then m
  else match m.planMoves.find? (·.ch.val = ch) with
    | none => m
    | some j =>
      if m.clipWaits j.mv then m
      else
        let m := { m with planMoves := m.planMoves.erase j }
        (m.setChan ch (m.beginDesc ch { DmaCh.rest with planOwned := true, owner := .plan j.mv } j.desc)).dmaMove j.ch none

/-- Go on after a descriptor that has completed: the list's next, or the channel is free (R331 step 5). -/
def Module.nextDesc (m : Module) (ch : Nat) (d : Desc) : Module :=
  if d.last then (m.freeChannel ch).planNext ch
  else
    let m := m.setChan ch { m.chan ch with phase := .fetch, addr := d.next, desc := none, fail := none, todo := 0,
                                           acked := [], outstanding := 0 }
    m.wrAddr (DMA_CH_DESC_LO ch) (DMA_CH_DESC_HI ch) d.next

/-- A copy to a clip ring whose writes have all returned waits for its header update (R326). -/
def Module.clipCopied (m : Module) (o : DmaOwner) : Module :=
  match o with
  | .plan (.clip c k frame) =>
    let key := 4 * c.val + k.val
    let x := SMap.get Clip.rest m.clips key
    { m with clips := m.clips.insert key { x with done := x.done ++ [frame] } }
  | _ => m

/-- The completion of one descriptor (R331 step 4): an entry when complete or last is set, MORE unless it is the last. -/
def Module.descEntry (m : Module) (ch : Nat) (d : Desc) (code : Nat) (ends : Bool) : Module :=
  match (m.chan ch).owner with
  | .session c =>
    if d.complete || d.last || ends then m.completeMore c code (!(d.last || ends)) (dmaResult d.tag ch) c.tag else m
  | _ => m

/-- Apply a descriptor's signal: of a session it is a guest's (R308), of a plan its own. -/
def Module.descSignal (m : Module) (ch : Nat) (d : Desc) : Module :=
  if !d.signal then m
  else match (m.chan ch).owner with
    | .plan _ => m.addSync d.sigObj 1
    | _ => m.guestAdd d.sigObj 1

/-- DMA_DESCRIPTOR_DONE: with every write acknowledged sig_obj advances, then the completion is written (R331, R21). -/
def dmaDescriptorDone (ch : Fin 64) (m : Module) : Module :=
  let c := m.chan ch.val
  match c.phase, c.desc with
  | .moving, some d =>
    if c.fail.isNone ∧ c.outstanding = 0 ∧ d.total ≤ c.todo then
      let m := (m.lostCycles.descSignal ch.val d).clipCopied c.owner
      (m.descEntry ch.val d stOk false).nextDesc ch.val d
    else m
  | _, _ => m

/-- DMA_PACE_RESUME: a paced channel goes on when the queue's fill is at its low mark or below (R334). -/
def dmaPaceResume (ch : Fin 64) (fill : Nat) (m : Module) : Module :=
  let c := m.chan ch.val
  if c.paced ∧ c.phase = .moving ∧ fill ≤ c.paceLow then m.dmaGo ch (some fill) else m

/-- The code that SKIP and ABORT complete a halted descriptor with (R336). -/
def haltCode (cause : Nat) : Nat := if cause = 4 then stWindowClosed else stBusError

/-- What a failing transfer latches (R335): address, direction, cause, descriptor address, bytes_done. -/
def Module.latchHalt (m : Module) (ch : Nat) (c : DmaCh) (f : DmaFail) : Module :=
  let m := m.wrAddr (DMA_CH_ERR_ADDR_LO ch) (DMA_CH_ERR_ADDR_HI ch) f.addr
  let m := (m.setFld (DMA_CH_STAT ch) DMA_CH_STAT_direction f.direction).setFld (DMA_CH_STAT ch) DMA_CH_STAT_cause
    f.cause
  let m := m.wrAddr (DMA_CH_DESC_LO ch) (DMA_CH_DESC_HI ch) c.addr
  m.wr (DMA_CH_DONE ch) (BitVec.ofNat 32 (min (prefixDone c.acked) 0xFFFFFFFF))

/-- Suspend a delivery whose copy failed (R350): its copies that wait for the channel are not made. -/
def Module.suspendDelivery (m : Module) (c : PortId) (j : Fin 4) (frame stripe : Nat) (code : Nat) : Module :=
  let mine := fun (q : PlanJob) => match q.mv with
    | .delivery c' j' _ _ => c' = c && j' = j
    | _ => false
  let n := (m.planMoves.filter mine).length
  let m := { m with planMoves := m.planMoves.filter (!mine ·), streams := m.streams.adjust c.val fun s =>
    match s.setup.deliveries[j.val]? with
    | some d => { s with setup := { s.setup with
        deliveries := setAt s.setup.deliveries j.val { d with
          suspended := true, resume := false, notCopied := BitVec.ofNat 32 (min (d.notCopied.toNat + n) 0xFFFFFFFF) } } }
    | none => s }
  m.raiseCtx 0x0301 c.val (16 + j.val) frame stripe code

/-- The stripe of an output's window copy that a waiting move belongs to. -/
def PlanJob.stripeOf (q : PlanJob) (c : PortId) (k : Fin 4) : Option (Word × Nat) :=
  match q.mv with
  | .output c' k' f st => if c' = c ∧ k' = k then some (f, st) else none
  | _ => none

/-- Suspend an output's window destination (R135): its copies that wait for the channel are not sent, and each of their
stripes is counted once. -/
def Module.suspendOutput (m : Module) (c : PortId) (k : Fin 4) (frame stripe : Nat) (code : Nat) : Module :=
  let lost := (m.planMoves.filterMap (·.stripeOf c k)).eraseDups.filter (· ≠ (BitVec.ofNat 32 frame, stripe))
  let m := { m with planMoves := m.planMoves.filter fun q => (q.stripeOf c k).isNone }
  let m := m.satAdd (NIS_OUT_STAT c.val k.val) NIS_OUT_STAT_dest_dropped lost.length
  let m := m.setFld (NIS_OUT_STAT c.val k.val) NIS_OUT_STAT_window_halted 1
  let m := { m with streams := m.streams.adjust c.val fun s => { s with outResume := s.outResume.filter (· ≠ k.val) } }
  m.raiseCtx 0x0301 c.val k.val frame stripe code

/-- DMA_TRANSFER_FAIL: the first failing transfer makes the channel halt (R335); a plan's copy to a window, on whichever side
it fails, suspends its destination (R135, R350). -/
def dmaTransferFail (ch : Fin 64) (m : Module) : Module :=
  let c := m.chan ch.val
  match c.fail with
  | none => m
  | some f =>
    if c.phase = .halting ∨ c.phase = .halted then m
    else
      let m := (m.setChan ch.val { c with phase := .halting, paced := false }).latchHalt ch.val c f
      match c.owner with
      | .plan (.delivery x j frame stripe) => m.suspendDelivery x j frame.toNat stripe (haltCode f.cause)
      | .plan (.output x k frame stripe) => m.suspendOutput x k frame.toNat stripe (haltCode f.cause)
      | _ => m

/-- DMA_HALTED: with its last transfer returned, a halting channel is HALTED and says so (R335). -/
def dmaHalted (ch : Fin 64) (m : Module) : Module :=
  let c := m.chan ch.val
  match c.phase, c.fail with
  | .halting, some f =>
    if c.outstanding = 0 then
      let m := ((m.setChan ch.val { c with phase := .halted }).latchHalt ch.val c f).count DMA_CNT_HALT 1
      let sess := match c.owner with
        | .session x => match m.cmdSession x with
          | some s => (sessionField x.session.val s).toNat
          | none => x.gen * 256 + x.session.val
        | _ => 0
      m.raise 0x0701 (ch.val + 64 * f.direction + 256 * f.cause + 2048 * c.planOwned.toNat) f.addr
        (f.addr / 2 ^ 32 % 65536 + 65536 * sess) (min (prefixDone c.acked) 0xFFFFFFFF)
    else m
  | _, _ => m

/-- Take a channel out of HALTED: its cause reads NONE again. -/
def Module.unhalt (m : Module) (ch : Nat) : Module := m.setFld (DMA_CH_STAT ch) DMA_CH_STAT_cause 0

/-- RETRY: the bytes from bytes_done move again; after DESC_FETCH the descriptor is fetched again (R336). -/
def Module.retryChan (m : Module) (ch : Fin 64) (c : DmaCh) : Module :=
  let m := m.unhalt ch.val
  match c.desc with
  | none => m.setChan ch.val { c with phase := .fetch, fail := none }
  | some _ =>
    let n := prefixDone c.acked
    (m.setChan ch.val { c with fail := none, todo := n, acked := addAcked [] 0 n, held := [] }).dmaMove ch none

/-- SKIP: the descriptor completes with the halt's code, without its signal, and the list goes on (R336). -/
def Module.skipChan (m : Module) (ch : Nat) (c : DmaCh) (cause : Nat) : Module :=
  let m := m.unhalt ch
  match c.desc with
  | none => m.endList ch stBusError 0
  | some d => (m.descEntry ch d (haltCode cause) false).nextDesc ch d

/-- ABORT: the descriptor completes as SKIP does, and the list ends (R336). -/
def Module.abortChan (m : Module) (ch : Nat) (c : DmaCh) (cause : Nat) : Module :=
  let m := m.unhalt ch
  match c.desc with
  | none => m.endList ch stBusError 0
  | some d => (m.descEntry ch d (haltCode cause) true).freeChannel ch

/-- A write of DMA_CH_CTL.action: refused for a channel that is not HALTED or is plan-owned; 0 does nothing (R336,
R341). -/
def Module.chanAction (m : Module) (ch : Fin 64) (action : Nat) : Option Module :=
  let c := m.chan ch.val
  if action = 0 then some m
  else if c.planOwned then none
  else match c.phase, c.fail with
    | .halted, some f =>
      if action = 1 then some (m.retryChan ch c)
      else if action = 2 then some (m.skipChan ch.val c f.cause)
      else some (m.abortChan ch.val c f.cause)
    | _, _ => none

/-- PLAN_CHANNEL_SKIP: firmware writes SKIP to a halted plan-owned channel and applies the descriptor's signal, so that
the plan goes on (R337); not while the control pairs are halted (R479). -/
def planChannelSkip (ch : Fin 64) (m : Module) : Module :=
  let c := m.chan ch.val
  match c.phase, c.desc with
  | .halted, some d =>
    if c.planOwned && !m.cpHalted then ((m.unhalt ch.val).descSignal ch.val d).nextDesc ch.val d else m
  | _, _ => m

/-! ### Responses of remote nodes (R333, R335) -/

/-- A DMA transfer through a window has returned: acknowledged, or failed with a cause; then the channel issues on. -/
def Module.dmaReturn (m : Module) (ch : Fin 64) (lo n : Nat) (cause : Option (DmaFail)) : Module :=
  let c := m.chan ch.val
  let c := { c with outstanding := c.outstanding - 1 }
  match cause with
  | none =>
    let m := m.setChan ch.val { c with acked := addAcked c.acked lo n }
    if c.paced then m else m.dmaGo ch none
  | some f => m.setChan ch.val { c with fail := match c.fail with | none => some f | some x => some x }

/-- The data of a DMA read through a window: written to its destination (R332); one that cannot be written yet is read
again (assumption log 81). -/
def Module.dmaData (m : Module) (ch : Fin 64) (lo n : Nat) (data : List Byte) : Module :=
  let c := m.chan ch.val
  match c.desc with
  | none => m.dmaReturn ch lo n none
  | some d =>
    let dst := d.dstAt lo
    let back := { c with outstanding := c.outstanding - 1 }
    if m.spmBusy dst n then m.setChan ch.val { back with todo := lo } else
    let m := if dst < spmSize then m else m.meetPartly 5 dst n
    match m.accessCause false dst n with
    | some cause =>
      let f : DmaFail := ⟨dst, dirOf false dst, cause⟩
      (m.failReport f n).dmaReturn ch lo n (some f)
    | none => match m.spaceOf dst with
      | .window w off =>
        if m.multicast w.val then
          if inWindows (d.dstAt 0) && (d.dstAt 0 - windowBase) / 0x40000000 ≠ w.val then
            m.dmaReturn ch lo n (some ⟨dst, 3, 1⟩)
          else
            let l := c.held ++ [⟨off, n, none, data⟩]
            if d.total ≤ lo + n then m.mcBegin ch back d w l
            else (m.setChan ch.val { back with held := l }).dmaGo ch none
        else if m.winOverlap w off n || !m.writeRoom w off data (.dmaWrite ch lo n) then
          m.setChan ch.val { back with todo := lo }
        else
          let arrive := d.total ≤ lo + n && ((m.binding? w.val).map Binding.arrive).getD false
          m.winWriteTo w off data arrive (.dmaWrite ch lo n)
      | _ => (m.store dst data).dmaReturn ch lo n none

/-! ### Detach and shutdown (R338, R455) -/

/-- A session's DMA at its detach: halted channels are aborted, running ones finish, and nothing is reported (R338). -/
def Module.detachDma (m : Module) (n gen : Nat) : Module :=
  (List.range 64).foldl (fun m ch =>
    let c := m.chan ch
    match c.owner with
    | .session x =>
      if x.session.val = n ∧ x.gen = gen ∧ c.phase = .halted then (m.unhalt ch).freeChannel ch else m
    | _ => m) m

/-- Abort every session channel (R455 step 4, R484 step 4): the spec does not state the code its list ends with
(assumption log 2). -/
def Module.abortAllDma (m : Module) : Module :=
  (List.range 64).foldl (fun m ch =>
    let c := m.chan ch
    match c.owner with
    | .session _ =>
      let (v, m) := m.open_
      (m.unhalt ch).endList ch (v.toNat % 256) ((c.desc.map (·.tag)).getD 0)
    | _ => m) m

/-! ### Zero fill of a stack that is switched on (R296) -/

/-- Keep a multicast transfer whose writes have gone out; one that has failed ends, and its channel halts (R335, R436). -/
def McTurn.keep (x : McTurn) : Module :=
  let rest := x.m.mcSend.filter fun y => !(y.window = x.t.window && y.number = x.t.number)
  match x.fail with
  | some f => { x.m with mcSend := rest }.dmaReturn x.t.ch 0 0 (some f)
  | none => { x.m with mcSend := rest ++ [x.t] }

/-- Channels and multicast transfers that waited for a stack or a transmit queue go on (R16, R527). -/
def Module.dmaGoOn (m : Module) : Module :=
  let m := (List.finRange 64).foldl (fun m ch =>
    if (m.chan ch.val).phase = .moving && !(m.chan ch.val).paced then m.dmaGo ch none else m) m
  m.mcSend.foldl (fun m t => (m.mcPump t).keep) m

/-! ### DRAM controllers (R317, R322) -/

/-- DRAM_WCK_TRACK and DRAM_ZQ_CALIBRATE: done in slots that nothing books; no state the spec names changes (R317). -/
def dramWckTrack (_ch : Fin 16) (m : Module) : Module := m
def dramZqCalibrate (_ch : Fin 16) (m : Module) : Module := m

/-- PER_BANK_REFRESH: likewise hidden (R317, R323). -/
def perBankRefresh (_ch _bank : Fin 16) (m : Module) : Module := m

/-- Whose share the position of a channel's slot wheel belongs to: R, R, W, R, R, W, R, R, W, X (R322). -/
def slotShare (i : Nat) : SlotShare := if i % 10 = 9 then .remote else if i % 3 = 2 then .write else .read

/-- DRAM_SLOT_ADVANCE: a transfer takes the slot when it is of the share that the position belongs to (R323); the wheel
advances one position whether or not the slot is used, and an unused slot counts (R322, R340). -/
def dramSlotAdvance (ch : Fin 16) (by_ : Option SlotShare) (m : Module) : Module :=
  if !m.dramOn then m
  else
    let i := SMap.get 0 m.wheel ch.val
    let m := { m with wheel := SMap.set 0 m.wheel ch.val ((i + 1) % 10) }
    if by_ = some (slotShare i) then m else m.wr (DDR_CH_SLOTS ch.val) (m.rd (DDR_CH_SLOTS ch.val) + 1)

def execDma (h : CmdHdr) (addr : W64) (s : State) := ok s (dmaCmd h addr s.toModule)
def execDmaDescriptorRun (ch : Fin 64) (desc : Remote) (errs : List MemErr) (fill : Nat) (s : State) :=
  ok s (dmaDescriptorRun ch desc errs fill s.toModule)
def execDmaWaitMet (ch : Fin 64) (errs : List MemErr) (fill : Nat) (s : State) :=
  ok s (dmaWaitMet ch errs fill s.toModule)
def execDmaWaitTimeout (ch : Fin 64) (s : State) := ok s (dmaWaitTimeout ch s.toModule)
def execDmaDescriptorDone (ch : Fin 64) (s : State) := ok s (dmaDescriptorDone ch s.toModule)
def execDmaPaceResume (ch : Fin 64) (fill : Nat) (s : State) := ok s (dmaPaceResume ch fill s.toModule)
def execDmaTransferFail (ch : Fin 64) (s : State) := ok s (dmaTransferFail ch s.toModule)
def execDmaHalted (ch : Fin 64) (s : State) := ok s (dmaHalted ch s.toModule)
def execPlanChannelSkip (ch : Fin 64) (s : State) := ok s (planChannelSkip ch s.toModule)
def execDramWckTrack (ch : Fin 16) (s : State) := ok s (dramWckTrack ch s.toModule)
def execDramZqCalibrate (ch : Fin 16) (s : State) := ok s (dramZqCalibrate ch s.toModule)
def execPerBankRefresh (ch bank : Fin 16) (s : State) := ok s (perBankRefresh ch bank s.toModule)
def execDramSlotAdvance (ch : Fin 16) (by_ : Option SlotShare) (s : State) := ok s (dramSlotAdvance ch by_ s.toModule)

end Sys2Proof.Machine
end

