-- ==== Sys2Proof/Machine/Spm.lean ====
section
/-!
DEFINITION. The scratchpad commands (09_scratchpad): allocation, fill and copy, narrow writes and the gather buffer, the
scrubber.
-/
namespace Sys2Proof.Machine

/-! ### ALLOC (R281, R324) -/

/-- The stack with the most free space, the lowest on a tie (R281). -/
def Module.emptiestStack (m : Module) : Nat :=
  (List.range 8).foldl (fun b s => if m.freeUnits b < m.freeUnits s then s else b) 0

/-- Where ALLOC may place a region: the gaps of the memory, kind and stack named (R281, R324). -/
def Module.allocGaps (m : Module) (dram spread : Bool) (stack : Nat) : List (Nat × Nat) :=
  if dram then m.dramGaps
  else if spread then (List.range 8).flatMap fun s => m.spmGaps s true
  else m.spmGaps (if stack = 255 then m.emptiestStack else stack) false

/-- The operands of ALLOC name a memory, for SPM a kind, and for LOCAL a stack (R394). -/
def allocForm (memory kind stack : Nat) : Bool :=
  memory = 1 || memory = 0 && (kind = 1 || kind = 0 && (stack ≤ 7 || stack = 255))

/-- ALLOC rounds the size up to 4 KiB, places a zeroed region and returns its handle, or refuses with the largest size
it could have placed (R281, R324, R398). -/
def allocStart (memory kind stack : Byte) (size : W64) (c : CmdRef) (m : Module) : Module :=
  let dram := memory.toNat = 1
  let n := (size.toNat + 4095) / 4096 * 4096
  if !allocForm memory.toNat kind.toNat stack.toNat then m.complete c stRefused 0
  else
    let gaps := m.allocGaps dram (kind.toNat = 1) stack.toNat
    let refuse := fun (m : Module) =>
      m.complete c stRefused (min (largest gaps) (if dram then 2 ^ 36 else 2 ^ 26) / 4096 * 2 ^ 32)
    if n = 0 ∨ (dram = false ∧ 2 ^ 26 < n) then refuse m
    else
      match m.place gaps n with
      | (none, m) => refuse m
      | (some base, m) =>
        match m.enterRegion dram base n (!dram && kind.toNat = 1) with
        | (none, m) => refuse m
        | (some h, m) => m.complete c stOk h

/-- ALLOC (R281, R324): an SPM region needs RUN (R458). -/
def allocCmd (h : CmdHdr) (memory kind stack : Byte) (size : W64) (m : Module) : Module :=
  let q := entryHas [(8, 1, memory.toNat), (9, 1, kind.toNat), (10, 1, stack.toNat), (16, 8, size.toNat)]
  if !m.serialTurn h 0x07 then m
  else if memory.toNat = 0 then m.commandRun h 0x07 q (allocStart memory kind stack size)
  else m.command h 0x07 q (allocStart memory kind stack size)

/-! ### FILL and COPY (R286 to R288) -/

/-- An SPM region that the handle names. -/
def Module.spmRegion? (m : Module) (h : Word) : Option Region := if isDramHandle h then none else m.region? h

/-- A named object is a sync object (R286): 0xFFFF names none. -/
def objForm (o : W16) : Bool := o.toNat < 8192 || o = 0xFFFF

/-- The queue of FILL and COPY commands of a destination stack (R288). -/
def Module.fillQueue (m : Module) (s : Nat) : List FillCmd := (m.fills.find? s).getD []

/-- Store a stack's queue; an empty one is not listed. -/
def Module.setFills (m : Module) (s : Nat) (l : List FillCmd) : Module :=
  { m with fills := if l.isEmpty then m.fills.erase s else m.fills.insert s l }

/-- The check of a FILL or COPY when it is taken (R287), on the operands of its entry (R286): its status. -/
def Module.fillCheck (m : Module) (copy : Bool) (b : List Byte) : Nat :=
  let n := fieldAt b 24 8
  let dst := BitVec.ofNat 32 (fieldAt b 8 4)
  match m.spmRegion? dst, m.spmRegion? (if copy then BitVec.ofNat 32 (fieldAt b 12 4) else dst) with
  | some d, some r =>
    if fieldAt b 16 8 % 8 ≠ 0 || n % 8 ≠ 0 || copy && fieldAt b 32 8 % 8 ≠ 0 ||
        !objForm (BitVec.ofNat 16 (fieldAt b 40 2)) || !objForm (BitVec.ofNat 16 (fieldAt b 42 2)) ||
        fieldAt b 40 2 ≠ 0xFFFF && fieldAt b 48 4 = 0 then stRefused
    else if n ≠ 0 && (!d.holds (fieldAt b 16 8) n || copy && !r.holds (fieldAt b 32 8) n) then stRegionOverflow
    else stOk
  | _, _ => stRefused

/-- What the check at the take of an entry finds (R287). -/
def Module.takeCheck (m : Module) (b : List Byte) : Nat :=
  if fieldAt b 0 1 = 0x09 then m.fillCheck false b else if fieldAt b 0 1 = 0x0A then m.fillCheck true b else stOk

/-- A taken FILL or COPY that has passed its check and not started. -/
def Taken.fillWaits (t : Taken) : Bool :=
  !t.started && (t.opcode = 0x09 || t.opcode = 0x0A) && t.check = stOk && fieldAt t.entry 24 8 ≠ 0

/-- It names a region (R284, R286). -/
def Module.fillNames (m : Module) (t : Taken) (r : Region) : Bool :=
  let is := fun (o : Nat) => match m.spmRegion? (BitVec.ofNat 32 (fieldAt t.entry o 4)) with
    | some x => x.base = r.base
    | none => false
  t.fillWaits && (is 8 || t.opcode = 0x0A && is 12)

/-- The stack that a FILL or COPY writes (R288). -/
def Module.fillStack (m : Module) (t : Taken) : Option Nat :=
  (m.spmRegion? (BitVec.ofNat 32 (fieldAt t.entry 8 4))).map (·.base / 2 ^ 26)

/-- No FILL or COPY of any session that was taken earlier still has to start at the same stack (R288). -/
def Module.fillTurn (m : Module) (t : Taken) : Bool :=
  m.sessions.all fun e => e.2.taken.all fun x => !x.fillWaits || t.order ≤ x.order || m.fillStack x ≠ m.fillStack t

/-- A FILL or COPY whose check at the take failed completes with its status, one of length 0 at once with success
(R286, R287); any other queues at its destination stack. -/
def fillStart (copy : Bool) (dst src : Word) (dstOff len pattern : W64) (waitObj sigObj : W16) (waitThr : Word)
    (check : Nat) (c : CmdRef) (m : Module) : Module :=
  if check ≠ stOk then m.complete c check 0
  else if len = 0 then (if sigObj = 0xFFFF then m else m.guestAdd sigObj.toNat 1).complete c stOk 0
  else match m.spmRegion? dst, (if copy then m.spmRegion? src else m.spmRegion? dst) with
  | some d, some r =>
    let s := d.base / 2 ^ 26
    m.setFills s (m.fillQueue s ++ [⟨c, copy, dst, if copy then src else dst, d.base + dstOff.toNat,
      r.base + pattern.toNat, len.toNat, pattern, waitObj, waitThr, sigObj, false, false, 0, false⟩])
  | _, _ => m.complete c stRefused 0

/-- Start a FILL or COPY in its turn (R288). -/
def Module.fillCommand (m : Module) (h : CmdHdr) (op : Nat) (operands : List Byte → Bool)
    (f : Nat → CmdRef → Module → Module) : Module :=
  match m.toStart h (BitVec.ofNat 8 op) with
  | none => m
  | some t => if m.fillTurn t then m.commandRun h op operands (f t.check) else m

/-- The operands that FILL and COPY share (R286, R394). -/
def fillOperands (dst : Word) (dstOff len pattern : W64) (waitObj sigObj : W16) (waitThr waitTimeout : Word) :
    List (Nat × Nat × Nat) :=
  [(8, 4, dst.toNat), (16, 8, dstOff.toNat), (24, 8, len.toNat), (32, 8, pattern.toNat), (40, 2, waitObj.toNat),
    (42, 2, sigObj.toNat), (44, 4, waitThr.toNat), (48, 4, waitTimeout.toNat)]

/-- FILL (R286). -/
def fillCmd (h : CmdHdr) (dst : Word) (dstOff len pattern : W64) (waitObj sigObj : W16) (waitThr waitTimeout : Word)
    (m : Module) : Module :=
  m.fillCommand h 0x09 (entryHas (fillOperands dst dstOff len pattern waitObj sigObj waitThr waitTimeout))
    (fillStart false dst 0 dstOff len pattern waitObj sigObj waitThr)

/-- COPY (R286). -/
def copyCmd (h : CmdHdr) (dst src : Word) (dstOff len srcOff : W64) (waitObj sigObj : W16)
    (waitThr waitTimeout : Word) (m : Module) : Module :=
  m.fillCommand h 0x0A
    (entryHas ((12, 4, src.toNat) :: fillOperands dst dstOff len srcOff waitObj sigObj waitThr waitTimeout))
    (fillStart true dst src dstOff len srcOff waitObj sigObj waitThr)

/-- The bytes of a FILL: the pattern repeated in every word, little-endian (R286). -/
def patternBytes (p : W64) (n : Nat) : List Byte := (List.range (n / 8)).flatMap fun _ => leBytes 8 p.toNat

/-- Write a started command's bytes: a COPY reads every source byte first and stops at a poisoned word (R287, R294). -/
def Module.fillWrite (m : Module) (f : FillCmd) : Nat × Module :=
  if f.copy then
    let m := m.meet 3 [(f.srcAddr, f.len)]
    match lowest (m.badIn f.srcAddr f.len) with
    | none => (stOk, m.write f.dstAddr (m.bytes f.srcAddr f.len))
    | some x =>
      let n := x - f.srcAddr
      (stBusError, if n = 0 then m else m.write f.dstAddr (m.bytes f.srcAddr n))
  else (stOk, m.write f.dstAddr (patternBytes f.pattern f.len))

/-- A command waits for a stack that is being zero filled (R296, R527). -/
def Module.fillBusy (m : Module) (f : FillCmd) : Bool :=
  m.spmBusy f.dstAddr f.len || f.copy && m.spmBusy f.srcAddr f.len

/-- The command at the front of a stack's queue begins writing when its wait object meets the threshold (R287, R288). -/
def fillCopyWriteStart (s : Fin 8) (m : Module) : Module :=
  match m.fillQueue s.val with
  | f :: t =>
    if !f.writing && (f.waitObj = 0xFFFF || meets (m.sync f.waitObj.toNat) f.waitThr) && !m.fillBusy f then
      let (st, m) := m.fillWrite f
      m.setFills s.val ({ f with writing := true, status := BitVec.ofNat 8 st } :: t)
    else m
  | [] => m

/-- End the FILL or COPY at the front of a stack's queue: it leaves once its completion does not wait (R399). -/
def Module.endFill (m : Module) (s : Nat) (f : FillCmd) (rest : List FillCmd) (status : Nat) : Module :=
  (m.setFills s (if m.complWaits f.cmd then { f with writing := true, finished := true } :: rest else rest)).complete
    f.cmd status 0

/-- A wait that times out completes the command with WAIT_TIMEOUT; it writes nothing (R287, R310). A wait that is met in
the same cycle is met. -/
def fillCopyWaitTimeout (s : Fin 8) (m : Module) : Module :=
  match m.fillQueue s.val with
  | f :: t =>
    if !f.writing && f.waitObj ≠ 0xFFFF && !meets (m.sync f.waitObj.toNat) f.waitThr then
      (m.count SYN_CNT_TIMEOUT 1).endFill s.val f t stWaitTimeout
    else m
  | [] => m

/-- When its writes are acknowledged a command advances sig_obj and then completes (R287, R20, R21). A signal to a
plan-owned object is discarded (R308). -/
def fillCopyDone (s : Fin 8) (m : Module) : Module :=
  match m.fillQueue s.val with
  | f :: t =>
    if f.writing && !f.finished then
      let m := m.lostCycles
      let m := if f.status.toNat = stOk && f.sigObj ≠ 0xFFFF then m.guestAdd f.sigObj.toNat 1 else m
      m.endFill s.val f t f.status.toNat
    else m
  | [] => m

/-! ### The gather buffer, the scrubber -/

/-- A narrow SPM write of a control core, DMA or the network: bytes of one or more lines (R290, R291). A stack that is
off or in retention serves nothing and answers NOT_READY (R527); one that is being zero filled lets it wait (R296). -/
def narrowWrite (addr : Nat) (l : List Byte) (m : Module) : Module :=
  if spmSize < addr + l.length || m.spmBusy addr l.length then m
  else if m.spmOff addr l.length then { m with busStatus := BitVec.ofNat 16 stNotReady, busValue := 0 }
  else m.store addr l

/-- An entry that 256 ACLK cycles have passed without a write to is written out (R291). -/
def gatherIdleFlush (line : Nat) (m : Module) : Module := m.flushLine line

/-- The scrubber reads the next row's line of every bank of a stack that is on, correcting and reporting what it meets;
a sweep ends after row 16 383 (R293 to R295). -/
def scrubVisit (s : Fin 8) (errs : List MemErr) (m : Module) : Module :=
  if m.bit SPM_SCRUB_CFG SPM_SCRUB_CFG_en && m.spmOn s.val && m.fld (SPM_ST_STAT s.val) SPM_ST_STAT_state = 2 then
    let row := m.fld (SPM_ST_SCRUB s.val) SPM_ST_SCRUB_row
    let m := (m.upset errs).meetWhere 4 fun e =>
      e.addr < spmSize && m.stackOf e.addr = s.val && rowOf (e.addr % 2 ^ 26) = row
    let m := if row = 16383 then m.satAdd (SPM_ST_SCRUB s.val) SPM_ST_SCRUB_sweeps 1 else m
    m.setFld (SPM_ST_SCRUB s.val) SPM_ST_SCRUB_row ((row + 1) % 16384)
  else m

/-! ### The meanings -/

def execAlloc (h : CmdHdr) (memory kind stack : Byte) (size : W64) (s : State) :=
  ok s (allocCmd h memory kind stack size s.toModule)
def execFill (h : CmdHdr) (dst : Word) (dstOff len pattern : W64) (waitObj sigObj : W16) (waitThr waitTimeout : Word)
    (s : State) := ok s (fillCmd h dst dstOff len pattern waitObj sigObj waitThr waitTimeout s.toModule)
def execCopy (h : CmdHdr) (dst srcRegion : Word) (dstOff len srcOff : W64) (waitObj sigObj : W16)
    (waitThr waitTimeout : Word) (s : State) :=
  ok s (copyCmd h dst srcRegion dstOff len srcOff waitObj sigObj waitThr waitTimeout s.toModule)
def execFillCopyWriteStart (stack : Fin 8) (s : State) := ok s (fillCopyWriteStart stack s.toModule)
def execFillCopyWaitTimeout (stack : Fin 8) (s : State) := ok s (fillCopyWaitTimeout stack s.toModule)
def execFillCopyDone (stack : Fin 8) (s : State) := ok s (fillCopyDone stack s.toModule)
def execNarrowWrite (addr : Nat) (bytes : List Byte) (s : State) := ok s (narrowWrite addr bytes s.toModule)
def execGatherIdleFlush (line : Nat) (s : State) := ok s (gatherIdleFlush line s.toModule)
def execScrubVisit (stack : Fin 8) (errs : List MemErr) (s : State) := ok s (scrubVisit stack errs s.toModule)

end Sys2Proof.Machine
end

