-- ==== Sys2Proof/Machine/HostLink.lean ====
section
/-!
DEFINITION. The host link (13_host_link): how a message is gated, attaching, doorbells, rings, keepalive and the end of
a session.
-/
namespace Sys2Proof.Machine

/-! ### The gate of a message (R375, R378, R409, R411) -/

/-- A message leaves its port's receive queue (R14). -/
def Module.popRx (m : Module) (port : Fin 2) : Module :=
  { m with netPorts := m.netPorts.adjust port.val fun p => { p with rxq := p.rxq.drop 1 } }

/-- The message is addressed to the module, in its frame and its header, and is no response (R378, R439): only WAKE may be
broadcast. -/
def Module.addressed (m : Module) (h : Hdr) (wake : Bool) : Bool :=
  !h.resp && m.formOn h.udp && m.macFor h.port.val h.dmac wake && (h.dst = m.node && h.dst ≠ 0xFFFF || wake && h.dst = 0xFFFF)

/-- Answer at most once per source node every 10 ms (R378, R409, R411); the times are kept in the map given. -/
def Module.limited (m : Module) (times : SMap Nat) (node : W16) : Bool × Module :=
  let m := m.tick
  match times.find? node.toNat with
  | some t => (10000000 ≤ m.now - t, m)
  | none => (true, m)

/-- Answer NOT_READY, at most once per source node every 10 ms (R409, R411). -/
def Module.answerNotReady (m : Module) (h : Hdr) (type status retry : Nat) : Module :=
  match m.limited m.notReadyAt h.src with
  | (true, m) => { m with notReadyAt := m.notReadyAt.insert h.src.toNat m.now }.answer h type status retry []
  | (false, m) => m

/-- Answer NO_SESSION, at most once per source node every 10 ms (R378). -/
def Module.answerNoSession (m : Module) (h : Hdr) (type : Nat) : Module :=
  match m.limited m.noSessionAt h.src with
  | (true, m) => { m with noSessionAt := m.noSessionAt.insert h.src.toNat m.now }.answer h type stNoSession 0 []
  | (false, m) => m

/-- The firmware's estimate of the time left to READY, rounded up to 10 ms and limited to 10 to 1 000 (R409): a free
value within these bounds; 1 000 in the boot failure state (R471). -/
def Module.estimate (m : Module) : Nat × Module :=
  if m.boot = .failure then (1000, m)
  else
    let (i, m) := m.pick 100
    (10 + 10 * i, m)

/-- Before READY and in STANDBY the module answers a message that asks a response with NOT_READY (R409, R411): in
STANDBY with retry_ms 0 while no wake is in progress. `always` marks the types that are answered without ACK_REQ. -/
def Module.notReadyAnswer (m : Module) (h : Hdr) (type : Nat) (always : Bool) : Module :=
  if !always && !h.ackReq then m
  else if m.power = 1 && !m.moving then m.answerNotReady h type stNotReady 0
  else
    let (e, m) := m.estimate
    m.answerNotReady h type stNotReady e

/-- The gate of a message that needs no session (R378, R409): its payload has the length of its layout. -/
def Module.gate (m : Module) (h : Hdr) (type : Nat) (always lenOk : Bool) (k : Module → Module) : Module :=
  let m := m.popRx h.port
  if !m.addressed h false then m
  else if !m.ready then m.notReadyAnswer h type always
  else if !lenOk then m.answer h type stBadMessage 0 []
  else k m

/-- The gate of a message of a session (R378): attached, generation and epoch right, version agreed, length right. -/
def Module.gateSession (m : Module) (h : Hdr) (type : Nat) (lenOk : Bool) (k : Nat → Session → Module → Module) :
    Module :=
  let m := m.popRx h.port
  if !m.addressed h false then m
  else if !m.ready then m.notReadyAnswer h type false
  else match m.sessionOf h.session with
    | none => m.answerNoSession h type
    | some (n, s) =>
      if h.epoch ≠ m.epoch then m.answerNoSession h type
      else if h.version ≠ s.version then m.answer h type stBadVersion 0 []
      else if !lenOk then m.answer h type stBadMessage 0 []
      else k n s m

/-- Change a session. -/
def Module.setSession (m : Module) (n : Nat) (s : Session) : Module := { m with sessions := m.sessions.insert n s }

/-- The NOTIFY payload (R391). -/
def notifyPayload (s : Session) : List Byte :=
  leBytes 4 s.sqHead.toNat ++ leBytes 4 s.cqTail.toNat ++ leBytes 4 s.eqTail.toNat ++ leBytes 4 0

/-! ### The end of a session (R344, R385) -/

/-- Report the accepted jobs (R374). -/
def Module.setJobs (m : Module) (l : List Job) : Module :=
  { m with jobs := l }.setFld SYS_ADM_STAT SYS_ADM_STAT_jobs l.length

/-- What a detach leaves of a session's commands (R344, R338): undispatched jobs and waits are withdrawn, halted channels
aborted; running tasks and channels end unreported. -/
def Module.dropCommands (m : Module) (n gen : Nat) : Module :=
  let m := m.setJobs (m.jobs.filter fun j => !(j.cmd.session.val = n && j.cmd.gen = gen && !j.dispatched))
  let l := m.hostWaits.filter fun w => w.session.val ≠ n
  let m := { m with hostWaits := l }.setFld SYN_STAT SYN_STAT_host_waits l.length
  let m := { m with withdraws := m.withdraws.filter fun w => w.cmd.session.val ≠ n }
  let m := m.setJobs (m.jobs.filter fun j => !(j.held && j.cmd.session.val = n && j.cmd.gen = gen))
  let m := (List.range 8).foldl (fun m s => m.setFills s ((m.fillQueue s).filter fun f =>
    !(f.finished && f.cmd.session.val = n && f.cmd.gen = gen))) m
  m.detachDma n gen

/-- End a session (R385): DETACH with the reason unless the host asked, R344, and SESSION_DETACHED to the others. -/
def Module.endSession (m : Module) (n reason : Nat) (byHost : Bool) : Module :=
  match m.sessions.find? n with
  | none => m
  | some s =>
    let m := if byHost then m else m.sendSession n 0x02 false (leBytes 4 reason)
    let f := sessionField n s
    let m := m.dropCommands n s.gen
    let m := { m with sessions := m.sessions.erase n, winOut := m.winOut.filter fun x => x.session ≠ f || f = 0 }
    m.raise 0x0D02 f.toNat reason 0 0

/-- End every session (R455 step 5). -/
def Module.endAllSessions (m : Module) (reason : Nat) : Module :=
  (m.sessions.map (·.1)).foldl (fun m n => m.endSession n reason false) m

/-! ### ATTACH (R381 to R384, R410) -/

/-- An ATTACH answered within the last 5 s from this node with this seq (R384). -/
def Module.attachSeen (m : Module) (h : Hdr) : Option AttachDone :=
  m.attachDone.find? fun d => d.src = h.src ∧ d.seq = h.seq ∧ m.now - d.at_ < 5000000000

/-- Answer an ATTACH and keep the answer for 5 s (R384). -/
def Module.attachAnswer (m : Module) (h : Hdr) (version : Byte) (status retry : Nat) (payload : List Byte) : Module :=
  let x : Msg := ⟨version, 0x01, true, false, h.src, h.session, h.seq, BitVec.ofNat 16 status, BitVec.ofNat 16 retry,
    m.epoch, payload⟩
  let o := m.ywpOut h.port h.peer none 0 x
  let m := m.tick
  { m with attachDone := (m.attachDone.filter fun (d : AttachDone) => m.now - d.at_ < 5000000000) ++ [AttachDone.mk h.src h.seq m.now o] }.emit o

/-- ATTACH is queued; a repeat of an answered one gets the same response, of a waiting one nothing; with 64 waiting BUSY
and a random retry, with sessions_max sessions SESSION_LIMIT (R378, R384, R410). -/
def attach (h : Hdr) (payload : List Byte) (m : Module) : Module :=
  m.gate h 0x01 true true fun m =>
    let m := m.tick
    match m.attachSeen h with
    | some d => m.emit d.resp
    | none =>
      if m.attachWait.any fun a => a.m.src = h.src ∧ a.m.seq = h.seq then m
      else if payload.length ≠ 64 then m.attachAnswer h h.version stBadMessage 0 []
      else if 256 ≤ m.sessions.length then m.attachAnswer h h.version stSessionLimit 0 []
      else if 64 ≤ m.attachWait.length then
        let (r, m) := m.draw
        m.attachAnswer h h.version stBusy (50 + r % 351) []
      else { m with attachWait := m.attachWait ++ [AttachReq.mk h payload] }

/-- A ring's entry count: a power of two from 64 to 65 536 (R381). -/
def ringCount (n : Nat) : Bool := (List.range 11).any fun i => n = 2 ^ (i + 6)

/-- Two spans overlap. -/
def spansMeet (a n b k : Nat) : Bool := a < b + k && b < a + n

/-- The payload offset of the first bad field of an ATTACH (R381, R382, R384), rings that overlap included (the later
ring's offset; assumption log 14). -/
def attachBad (b : List Byte) : Option Nat :=
  let f := fieldAt b
  let laps := fun (i j : Nat) => spansMeet (f (8 + 8 * i) 8) (f (32 + 4 * i) 4 * (64 >>> (2 * i % 3)))
    (f (8 + 8 * j) 8) (f (32 + 4 * j) 4 * (64 >>> (2 * j % 3)))
  let l : List (Bool × Nat) := [(f 6 2 < 100 || 60000 < f 6 2, 6), (f 8 8 % 64 ≠ 0, 8),
    (f 16 8 % 64 ≠ 0 || laps 0 1, 16), (f 24 8 % 64 ≠ 0 || laps 0 2 || laps 1 2, 24), (!ringCount (f 32 4), 32),
    (!ringCount (f 36 4), 36), (!ringCount (f 40 4), 40), (7 < f 51 1, 51)]
  (l.find? (·.1)).map (·.2)

/-- The 32-byte payload of an ATTACH response (R384). -/
def Module.attachPayload (m : Module) (field : Nat) (bad : Nat) : List Byte :=
  leBytes 2 field ++ leBytes 2 m.node.toNat ++ leBytes 4 m.epoch.toNat ++ leBytes 4 (m.rd SYS_ID).toNat
    ++ leBytes 4 (m.rd SYS_FW_VER).toNat ++ leBytes 2 bad ++ leBytes 14 0

/-- The generation of a session number that is given again: 1 to 254 (R376, R384). -/
def nextSessionGen (g : Nat) : Nat := if 254 ≤ g then 1 else g + 1

/-- A new session from its ATTACH (R382). -/
def newSession (h : Hdr) (b : List Byte) (gen : Nat) : Session :=
  let f := fieldAt b
  { gen := gen, node := h.src, port := h.port, peer := originTo h.src h.peer, version := 0x10,
    ringWindow := BitVec.ofNat 16 (f 2 2), ringGen := BitVec.ofNat 16 (f 4 2), ringEpoch := 0, keepaliveMs := f 6 2,
    sqOff := f 8 8, cqOff := f 16 8, eqOff := f 24 8, sqN := f 32 4, cqN := f 36 4, eqN := f 40 4,
    mask := BitVec.ofNat 32 (f 44 4), notifyUs := f 48 2, replicate := (f 50 1).testBit 0, tclass := f 51 1,
    sqTail := 0, sqHead := 0, cqTail := 0, cqHead := 0, eqTail := 0, eqHead := 0, inline := [], taken := [],
    cqWait := [], lost := 0, firstLost := 0, ackPending := false, lastNotify := (0, 0, 0), notifyAt := 0,
    lastReg := none, txSeq := 0 }

/-- The read of 64 B at sq_offset by which the module probes a ring window (R383). -/
def Module.probeRead (m : Module) (h : Hdr) (b : List Byte) (answered : Bool) : Module :=
  let x : Msg := ⟨0x10, 0x11, false, true, h.src, 0, m.winSeq, 0, 0, 0,
    (b.drop 2).take 4 ++ leBytes 4 64 ++ (b.drop 8).take 8⟩
  { m with winSeq := m.winSeq + 1 }.request h.port (originTo h.src h.peer) false 0 x answered

/-- A remote node has answered. -/
def Remote.answered (r : Remote) : Bool := r ≠ .unanswered

/-- ATTACH_SERVE: the oldest waiting ATTACH is served: version, fields, rings, first read, then a session with the lowest
free number (R383, R384). -/
def attachServe (probe : Remote) (m : Module) : Module := m.firmware fun m =>
  match m.attachWait with
  | [] => m
  | a :: rest =>
    if !m.ready then m
    else
      let b := a.payload
      let m := { m with attachWait := rest }
      if fieldAt b 1 1 < 0x10 ∨ 0x10 < fieldAt b 0 1 then m.attachAnswer a.m a.m.version stBadVersion 0 [0x10, 0x10]
      else match attachBad b with
        | some o => m.attachAnswer a.m 0x10 stRefused 0 (m.attachPayload 0 o)
        | none =>
          let m := m.probeRead a.m b (Remote.answered probe)
          match probe with
          | .data _ =>
            match m.sessions.freeKey 0 256 with
            | none => m.attachAnswer a.m 0x10 stSessionLimit 0 []
            | some n =>
              let gen := nextSessionGen (SMap.get 0 m.sessionGen n)
              let s := newSession a.m b gen
              let m := { m with sessions := m.sessions.insert n s, sessionGen := SMap.set 0 m.sessionGen n gen }
              m.attachAnswer a.m 0x10 stOk 0 (m.attachPayload (sessionField n s).toNat 0xFFFF)
          | .status c => m.attachAnswer a.m 0x10 (if c.toNat = stWindowClosed then stWindowClosed else stRefused) 0
              (m.attachPayload 0 0xFFFF)
          | .unanswered => m.attachAnswer a.m 0x10 stRefused 0 (m.attachPayload 0 0xFFFF)

/-! ### Messages of a session -/

/-- A status code that R380 calls reserved. -/
def reservedStatus (v : Nat) : Bool := 15 ≤ v && v ≤ 31 || 36 ≤ v

/-- DETACH of a host: the session ends, and the answer OK follows (R385); a reserved reason is refused (R378). -/
def detach (h : Hdr) (payload : List Byte) (m : Module) : Module :=
  m.gateSession h 0x02 (payload.length = 4) fun n s m =>
    if reservedStatus (fieldAt payload 0 4) then m.answer h 0x02 stRefused 0 [] else
    let m := m.endSession n (fieldAt payload 0 4) true
    m.send h.port h.peer s.replicate s.tclass
      ⟨h.version, 0x02, true, false, h.src, h.session, h.seq, 0, 0, m.epoch, []⟩

/-- KEEPALIVE is answered with the NOTIFY payload when an answer is asked (R377, R376). -/
def keepalive (h : Hdr) (payload : List Byte) (m : Module) : Module :=
  m.gateSession h 0x03 payload.isEmpty fun _ s m => m.answerIf h 0x03 stOk 0 (notifyPayload s)

/-- A session that has sent nothing for 3 × keepalive_ms ends (R385); the spec does not state the reason code. -/
def sessionKeepaliveTimeout (n : Fin 256) (m : Module) : Module :=
  let (v, m) := m.open_
  m.endSession n.val (v.toNat % 65536) false

/-- A count lies ahead of the one held (R389). -/
def ahead (new old : Word) : Bool := 1 ≤ (new - old).toNat && (new - old).toNat < 2 ^ 31

/-- The later of two counts (R389). -/
def advance (new old : Word) : Word := if ahead new old then new else old

/-- The inline entries of a doorbell (R389): those at or beyond sq_head replace earlier copies. -/
def inlineEntries (old : List (Word × List Byte)) (head tail : Word) (b : List Byte) (n : Nat) :
    List (Word × List Byte) :=
  (List.range n).foldl (fun l i =>
    let c := tail - BitVec.ofNat 32 n + BitVec.ofNat 32 i
    if (c - head).toNat < 2 ^ 31 then l.filter (·.1 ≠ c) ++ [(c, (b.drop (16 + 64 * i)).take 64)] else l) old

/-- DOORBELL takes the counts that lie ahead, or is discarded whole when a ring would overflow (R389). -/
def doorbell (h : Hdr) (b : List Byte) (m : Module) : Module :=
  let n := fieldAt b 12 1
  m.gateSession h 0x05 (b.length = 16 + 64 * n) fun sn s m =>
    if 16 < n then m.answer h 0x05 stRefused 0 []
    else
      let tail := BitVec.ofNat 32 (fieldAt b 0 4)
      let s' := { s with sqTail := advance tail s.sqTail,
                         cqHead := advance (BitVec.ofNat 32 (fieldAt b 4 4)) s.cqHead,
                         eqHead := advance (BitVec.ofNat 32 (fieldAt b 8 4)) s.eqHead }
      if s.sqN < ringUsed s'.sqTail s'.sqHead || s.cqN < ringUsed s'.cqTail s'.cqHead ||
          s.eqN < ringUsed s'.eqTail s'.eqHead then m.answer h 0x05 stBadMessage 0 []
      else
        let s' := { s' with inline := inlineEntries s.inline s.sqHead tail b n }
        (m.setSession sn s').answerIf h 0x05 stOk 0 (notifyPayload s')

/-- Commands taken and not completed, of all sessions (R390). -/
def Module.takenAll (m : Module) : Nat := (m.sessions.map (·.2.taken.length)).sum

/-- The module may take an entry of a session (R390, R343): an entry is there, its earlier commands have started, and the
completions it may owe fit its ring. -/
def Module.canTake (m : Module) (s : Session) : Bool :=
  s.sqTail ≠ s.sqHead && s.taken.all (·.started) && s.taken.length + ringUsed s.cqTail s.cqHead < s.cqN &&
    m.takenAll < 4096

/-- The session whose turn is next: in ascending order from the one after the last (R343). -/
def Module.nextTurn (m : Module) : Option Nat :=
  let l := (m.sessions.filter fun e => m.canTake e.2).map (·.1)
  match l.find? (m.lastTurn < ·) with
  | some n => some n
  | none => l.head?

/-- Rings are served: READY, no halt, no fill of R484, and no entry to STANDBY or OFF (R455, R479, R484). -/
def Module.serving (m : Module) : Bool :=
  m.ready && !m.cpHalted && m.fullFill.isNone && match m.transition with
    | some t => t.target = 2 || t.target = 3
    | none => true

/-- The commands of an opcode that are taken and not started, of all sessions. -/
def Module.unstarted (m : Module) (op : Byte) : Nat :=
  (m.sessions.map fun e => (e.2.taken.filter fun t => !t.started && t.opcode = op).length).sum

/-- An entry waits in its submission ring: a JOB while the dispatch queue is full or will be (R365, R390), a DMA while no free
channel is left for it (R329). -/
def Module.entryWaits (m : Module) (b : List Byte) : Bool :=
  fieldAt b 0 1 = 0x03 && 1024 ≤ m.jobs.length + m.unstarted 0x03 ||
    fieldAt b 0 1 = 0x0C && ((List.range 64).filter m.chanFree).length ≤ m.unstarted 0x0C

/-- Take a submission entry: its command waits to start; sq_head advances (R390, R392). One that waits in its ring holds back
that ring only (R343); FILL and COPY are checked (R287). -/
def Module.takeEntry (m : Module) (n : Nat) (s : Session) (b : List Byte) : Module :=
  if m.entryWaits b then { m with lastTurn := n }
  else
    let t : Taken := ⟨b.take 64, false, m.takeNo, m.takeCheck b⟩
    { m.setSession n { s with sqHead := s.sqHead + 1, taken := s.taken ++ [t],
                              inline := s.inline.filter (·.1 ≠ s.sqHead) } with lastTurn := n, takeNo := m.takeNo + 1 }

/-- How many entries a ring read fetches (R389, R390): up to 16 that are there, short of the end of the ring and of a copy
that is held. -/
def readCount (s : Session) : Nat :=
  let n := min 16 (min (ringUsed s.sqTail s.sqHead) (s.sqN - s.sqHead.toNat % s.sqN))
  ((List.range n).takeWhile fun i => !s.inline.any fun e => e.1 = s.sqHead + BitVec.ofNat 32 i).length

/-- Read a session's submission ring by one WIN_READ (R386, R390). -/
def Module.ringRead (m : Module) (n : Nat) (s : Session) (answered : Bool) : Module :=
  let x : Msg := ⟨s.version, 0x11, false, true, s.node, sessionField n s, s.txSeq, 0, 0, s.ringEpoch,
    leBytes 2 s.ringWindow.toNat ++ leBytes 2 s.ringGen.toNat ++ leBytes 4 (64 * readCount s)
      ++ leBytes 8 (s.sqOff + s.sqHead.toNat % s.sqN * 64)⟩
  (m.setSession n { s with txSeq := s.txSeq + 1 }).request s.port s.peer s.replicate s.tclass x answered

/-- Hold the entries that a ring read brings. -/
def holdEntries (s : Session) (b : List Byte) : Session :=
  { s with
    txSeq := s.txSeq + 1
    inline := s.inline ++ (List.range (readCount s)).map fun i =>
      (s.sqHead + BitVec.ofNat 32 i, (b.drop (64 * i)).take 64) }

/-- SUBMISSION_ENTRY_TAKE: from a copy that is held, or from a read of the ring; a ring access that fails ends the session,
and so does one that brings other than the bytes asked for (R385, R389, R390). -/
def submissionEntryTake (n : Fin 256) (entry : Remote) (m : Module) : Module :=
  match m.sessions.find? n.val with
  | none => m
  | some s =>
    if !m.serving || m.nextTurn ≠ some n.val then m
    else match s.inline.find? (·.1 = s.sqHead) with
      | some (_, b) => m.takeEntry n.val s b
      | none =>
        let m := m.ringRead n.val s (Remote.answered entry)
        match entry with
        | .data b =>
          if b.length = 64 * readCount s then
            let s := holdEntries s b
            (m.setSession n.val s).takeEntry n.val s (b.take 64)
          else m.endSession n.val stBusError false
        | .status c =>
          m.endSession n.val (if c.toNat = stWindowClosed then stWindowClosed else stBusError) false
        | .unanswered => m.endSession n.val stBusError false

/-! ### Simple commands and ring upkeep -/

/-- NOP completes at once with OK (R393). -/
def nop (h : CmdHdr) (m : Module) : Module := m.command h 0x00 (entryHas []) fun c m => m.complete c stOk 0

/-- An entry with a reserved opcode, or of SYNC_OP or CLIP_CTL with a reserved op (R298, R328, R393). -/
def reservedEntry (b : List Byte) : Bool :=
  16 ≤ fieldAt b 0 1 || fieldAt b 0 1 = 0x0B && 4 ≤ fieldAt b 10 1 || fieldAt b 0 1 = 0x0D && 2 ≤ fieldAt b 12 1

/-- A reserved opcode completes with REFUSED (R393); so does an entry of SYNC_OP or CLIP_CTL with a reserved op (R300,
R328). -/
def reservedOpcode (h : CmdHdr) (opcode : Byte) (m : Module) : Module :=
  m.command h opcode.toNat reservedEntry fun c m => m.complete c stRefused 0

/-- SET_EVENTS: the mask applies to events raised after it (R393, R403). -/
def setEvents (h : CmdHdr) (mask : Word) (m : Module) : Module :=
  m.command h 0x0E (entryHas [(8, 4, mask.toNat)]) fun c m =>
    let m := { m with sessions := m.sessions.adjust c.session.val fun s => { s with mask := mask } }
    m.complete c stOk 0

/-- What waited with a completion goes on (R399): the command is completed; a job leaves the queue, a FILL or COPY its
stack's. -/
def Module.settleCompl (m : Module) (n : Nat) (s : Session) (e : Compl) : Module :=
  let of := fun (c : CmdRef) => c.session.val = n && c.gen = s.gen && c.tag = e.tag && c.opcode = e.opcode
  let m := match m.jobs.find? fun j => j.held && of j.cmd with
    | some j => m.setJobs (m.jobs.filter (·.id ≠ j.id))
    | none => m
  (List.range 8).foldl (fun m k => match m.fillQueue k with
    | f :: t => if f.finished && of f.cmd then m.setFills k t else m
    | [] => m) m

/-- COMPLETION_WRITE: a completion that waits is written once an entry is free (R399); firmware writes it (R479). -/
def completionWrite (n : Fin 256) (m : Module) : Module := m.firmware fun m =>
  match m.sessions.find? n.val with
  | none => m
  | some s => match s.cqWait with
    | [] => m
    | e :: t =>
      if ringUsed s.cqTail s.cqHead < s.cqN then
        let taken := if e.more then s.taken else dropTaken s.taken e.tag e.opcode
        let m := m.setSession n.val { s with cqWait := t, taken := taken }
        (if e.more then m else m.settleCompl n.val s e).writeCompl n.val e
      else m

/-- EVENTS_LOST (R405). -/
def eventsLost (n : Fin 256) (m : Module) : Module := m.writeLost n.val

/-- NOTIFY: after a written entry is acknowledged, with counts that have changed, at most once per notify_us (R391). -/
def notify (n : Fin 256) (m : Module) : Module := m.firmware fun m =>
  let m := m.tick
  match m.sessions.find? n.val with
  | none => m
  | some s =>
    let now := (s.sqHead, s.cqTail, s.eqTail)
    if s.ackPending && now ≠ s.lastNotify && (s.notifyAt + s.notifyUs * 1000 ≤ m.now || s.notifyAt = 0) then
      let s := { s with ackPending := false, lastNotify := now, notifyAt := m.now }
      (m.setSession n.val s).sendSession n.val 0x06 false (notifyPayload s)
    else m

/-- JOURNAL_READ returns up to 16 entries and changes nothing (R408); NOT_READY while the control pairs are halted (R479,
assumption log 85). -/
def journalRead (h : Hdr) (b : List Byte) (m : Module) : Module :=
  m.gateSession h 0x07 (b.length = 8) fun _ _ m =>
    let k := fieldAt b 4 1
    if m.cpHalted then m.answer h 0x07 stNotReady 0 []
    else if k = 0 ∨ 16 < k then m.answer h 0x07 stRefused 0 []
    else m.answer h 0x07 stOk 0 (m.journalAnswer (BitVec.ofNat 32 (fieldAt b 0 4)) k)

/-- A discarded frame leaves the queue and nothing else (R375, R378); any other is a command of its own. -/
def ywpFrameDiscard (port : Fin 2) (frame : List Byte) (m : Module) : Module :=
  if m.discards port frame then m.popRx port else m

/-- An ARP request for the module's address on a port is answered (R375). -/
def arpRequest (port : Fin 2) (target sender : Word) (m : Module) : Module :=
  let m := m.popRx port
  let own := m.rd (if port = 0 then YWP_IPV4_A else YWP_IPV4_B)
  if target = own && own ≠ 0 then m.emit (.arp port own sender) else m

def execYwpFrameDiscard (port : Fin 2) (frame : List Byte) (s : State) := ok s (ywpFrameDiscard port frame s.toModule)
def execArpRequest (port : Fin 2) (target sender : Word) (s : State) := ok s (arpRequest port target sender s.toModule)
def execAttach (m : Hdr) (payload : List Byte) (s : State) := ok s (attach m payload s.toModule)
def execAttachServe (probe : Remote) (s : State) := ok s (attachServe probe s.toModule)
def execDetach (m : Hdr) (payload : List Byte) (s : State) := ok s (detach m payload s.toModule)
def execKeepalive (m : Hdr) (payload : List Byte) (s : State) := ok s (keepalive m payload s.toModule)
def execSessionKeepaliveTimeout (session : Fin 256) (s : State) := ok s (sessionKeepaliveTimeout session s.toModule)
def execDoorbell (m : Hdr) (payload : List Byte) (s : State) := ok s (doorbell m payload s.toModule)
def execSubmissionEntryTake (session : Fin 256) (entry : Remote) (s : State) :=
  ok s (submissionEntryTake session entry s.toModule)
def execNop (h : CmdHdr) (s : State) := ok s (nop h s.toModule)
def execReservedOpcode (h : CmdHdr) (opcode : Byte) (s : State) := ok s (reservedOpcode h opcode s.toModule)
def execSetEvents (h : CmdHdr) (mask : Word) (s : State) := ok s (setEvents h mask s.toModule)
def execCompletionWrite (session : Fin 256) (s : State) := ok s (completionWrite session s.toModule)
def execEventsLost (session : Fin 256) (s : State) := ok s (eventsLost session s.toModule)
def execNotify (session : Fin 256) (s : State) := ok s (notify session s.toModule)
def execJournalRead (m : Hdr) (payload : List Byte) (s : State) := ok s (journalRead m payload s.toModule)

end Sys2Proof.Machine
end

