-- ==== Sys2Proof/Machine/Network.lean ====
section
/-!
DEFINITION. Network ports, TSN and peer windows (14_network_peers): received frames, links, 802.1AS, gates, exported
windows, bindings and multicast.
-/
namespace Sys2Proof.Machine

/-! ### Received frames (R16, R414, R416, R420, R439) -/

/-- The class of a frame: 7 for an 802.1AS frame, otherwise by the port's PCP map; untagged as PCP 0 (R416). -/
def Module.frameClass (m : Module) (p : Nat) (f : RxFrame) : Nat :=
  if f.etherType = 0x88F7 then 7
  else
    let pcp := match f.tag with | some (x, _) => x.val | none => 0
    bitsOf (m.fld (NET_PCP_MAP p) NET_PCP_MAP_map) (3 * pcp + 2) (3 * pcp)

/-- The VID of a tagged frame; 0 for a priority tag or none. -/
def frameVid (f : RxFrame) : Nat := match f.tag with | some (_, v) => v | none => 0

/-- Frames a port receives: to its MAC, to the node address, broadcast, and 802.1AS frames (R416, R439). -/
def Module.macAccepts (m : Module) (p : Nat) (f : RxFrame) : Bool :=
  m.macFor p f.dmac true || f.etherType = 0x88F7

/-- The enabled ingress filter that matches a frame (R420, R440). -/
def Module.filterOf (m : Module) (p : Nat) (f : RxFrame) : Option Nat :=
  (List.range 64).find? fun i =>
    m.bit (NET_PSFP_MAC_HI i) NET_PSFP_MAC_HI_en && (m.fld (NET_PSFP_MAC_HI i) NET_PSFP_MAC_HI_ports).testBit p &&
      m.fld (NET_PSFP_MAC_HI i) NET_PSFP_MAC_HI_vid = (frameVid f) &&
      (m.rd (NET_PSFP_MAC_LO i)).toNat + m.fld (NET_PSFP_MAC_HI i) NET_PSFP_MAC_HI_mac * 2 ^ 32 = f.dmac

/-- Whether a filter passes a frame: maximum SDU size, and one colour-blind meter of CIR (100 kbit/s units) and CBS
(64 B units) (R420). -/
def Module.filterPass (m : Module) (i : Nat) (f : RxFrame) : Bool × Module :=
  if m.fld (NET_PSFP_SDU i) NET_PSFP_SDU_max_sdu < f.bytes then (false, m)
  else
    let cir := m.fld (NET_PSFP_METER i) NET_PSFP_METER_cir
    if cir = 0 then (true, m)
    else
      let m := m.tick
      let full := m.fld (NET_PSFP_METER i) NET_PSFP_METER_cbs * 64 * 1000000000
      let have_ := match m.meters.find? i with
        | none => full
        | some (t, at_) => min full (t + cir * 12500 * (m.now - at_))
      let need := f.bytes * 1000000000
      if need ≤ have_ then (true, { m with meters := m.meters.insert i (have_ - need, m.now) })
      else (false, { m with meters := m.meters.insert i (have_, m.now) })

/-- The outcome of vector recovery for one sequence number (R420: history 32): accepted, or a duplicate or 32 or more away
from the last; and the stream's record after it. -/
def Recovery.take (r : Recovery) (seq : Nat) : Bool × Recovery :=
  if !r.seen then (true, { r with last := seq, seen := true, history := true :: List.replicate 31 false })
  else
    let d := (seq + 65536 - r.last) % 65536
    if d = 0 then (false, r)
    else if d < 32 then
      (true, { r with last := seq, history := (true :: List.replicate (d - 1) false ++ r.history).take 32 })
    else
      let k := 65536 - d
      if k < 32 && !(r.history[k]?.getD true) then (true, { r with history := setAt r.history k true })
      else (false, r)

/-- A frame of YWP by its EtherType: of either form (R375, R441). -/
def Module.ywpType (m : Module) (f : RxFrame) : Bool :=
  f.etherType.toNat = m.fld YWP_CFG YWP_CFG_ethertype || f.etherType = 0x0800

/-- Eliminate duplicates of a YWP frame that carries an R-TAG (R420): streams are told apart by destination MAC and VID, at
most 128. -/
def Module.recover (m : Module) (f : RxFrame) : Bool × Module :=
  match if m.ywpType f then f.rtag else none with
  | none => (true, m)
  | some seq =>
    let hit := List.find? (fun (e : Nat × Recovery) => e.2.dmac = f.dmac && e.2.vid = frameVid f) m.recovery
    match hit, m.recovery.freeKey 0 128 with
    | some (k, r), _ =>
      let (good, r) := r.take seq.toNat
      (good, { m with recovery := m.recovery.insert k r })
    | none, none => (true, m)
    | none, some k =>
      let (good, r) := (Recovery.mk f.dmac (frameVid f) 0 [] false).take seq.toNat
      (good, { m with recovery := m.recovery.insert k r })

/-- NET_RX_FRAME: a frame is classed; it is dropped and counted when it is longer than max_frame or when the 64 KiB
receive queue is full, dropped for a foreign VID, by an ingress filter or as a duplicate, and queued otherwise. -/
def netRxFrame (port : Fin 2) (f : RxFrame) (m : Module) : Module :=
  let p := port.val
  let cls := m.frameClass p f
  if !m.bit PWR_DOM_STAT PWR_DOM_STAT_net || !m.bit (NET_PORT_CFG p) NET_PORT_CFG_enable then m
  else if m.fld (NET_PORT_CFG p) NET_PORT_CFG_max_frame < f.bytes then m.count (NET_CNT_RX_DROP p cls) 1
  else if (frameVid f) ≠ 0 && (frameVid f) ≠ m.fld (NET_VLAN p) NET_VLAN_vid then m
  else if !m.macAccepts p f then m
  else
    let (pass, m) := match m.filterOf p f with
      | none => (true, m)
      | some i => m.filterPass i f
    if !pass then m.count (NET_CNT_QCI_DROP p) 1
    else match m.recover f with
      | (false, m) => m.count (NET_CNT_CB_ELIM p) 1
      | (true, m) =>
        let x := m.netPort p
        if 65536 < x.rxq.sum + f.bytes then m.count (NET_CNT_RX_DROP p cls) 1
        else m.setNetPort p { x with rxq := x.rxq ++ [f.bytes] }

/-! ### Links, preemption, peer delay (R412, R413, R420) -/

/-- LINK_UP (R413). -/
def linkUp (port : Fin 2) (fast : Bool) (m : Module) : Module :=
  let p := port.val
  let adv := if fast then m.bit (NET_PORT_CFG p) NET_PORT_CFG_adv_2g5 else m.bit (NET_PORT_CFG p) NET_PORT_CFG_adv_1g
  if m.bit PWR_DOM_STAT PWR_DOM_STAT_net && m.bit (NET_PORT_CFG p) NET_PORT_CFG_enable && adv then
    let m := (m.setFld (NET_PORT_STAT p) NET_PORT_STAT_link 1).setFld (NET_PORT_STAT p) NET_PORT_STAT_speed
      (if fast then 2 else 1)
    m.raise 0x0901 p 0 0 0
  else m

/-- Frames of a stream leave their port in its window (R418). -/
def Module.emitFrames (m : Module) (l : List PlanFrame) : Module := l.foldl (fun m (f : PlanFrame) => m.emit f.out) m

/-- LINK_DOWN (R413): a fault of class LINK (R509). Inside a PLAN window some of its frames have been sent before; the others
are discarded at its end (R415, R435). -/
def linkDown (port : Fin 2) (m : Module) : Module :=
  let p := port.val
  if m.bit (NET_PORT_STAT p) NET_PORT_STAT_link then
    let m := match (m.netPort p).windowOpen with
      | none => m
      | some (c, l) =>
        let (n, m) := m.pick (l.length + 1)
        (m.emitFrames (l.take n)).setNetPort p { m.netPort p with windowOpen := some (c, l.drop n) }
    let m := (m.setFld (NET_PORT_STAT p) NET_PORT_STAT_link 0).setFld (NET_PORT_STAT p) NET_PORT_STAT_speed 0
    (m.setFld (NET_PORT_STAT p) NET_PORT_STAT_preempt_active 0).fault 11 0x0902 p 0 0 0
  else m

/-- PREEMPTION_VERIFICATION (R417, R420, R440). -/
def preemptionVerification (port : Fin 2) (good : Bool) (m : Module) : Module :=
  m.setFld (NET_PORT_STAT port.val) NET_PORT_STAT_preempt_active
    (good && m.bit (NET_PORT_CFG port.val) NET_PORT_CFG_preempt_en).toNat

/-- SEQUENCE_RECOVERY_RESET: the history of a recovery stream is reset (R420). -/
def sequenceRecoveryReset (k : Fin 128) (m : Module) : Module := { m with recovery := m.recovery.erase k.val }

/-- PEER_DELAY_MEASUREMENT (R420). -/
def peerDelayMeasurement (port : Fin 2) (delay : Nat) (m : Module) : Module :=
  m.setNetPort port.val { m.netPort port.val with delayNs := delay }

/-! ### 802.1AS (R421 to R423) -/

/-- The role of a port in 802.1AS (R440): 0 DISABLED, 1 SLAVE, 2 PASSIVE. -/
def Module.setRole (m : Module) (p r : Nat) : Module := m.setFld (NET_PORT_STAT p) NET_PORT_STAT_ptp_role r

/-- The slave port is `p`: its role is SLAVE, a synchronised other port is PASSIVE; GPTP_SYNCED names it (R422). -/
def Module.becomeSlave (m : Module) (p : Nat) : Module :=
  let m := m.setFld NET_GPTP_STAT NET_GPTP_STAT_slave_port p
  let m := (m.setRole p 1).setRole (1 - p) (if (m.netPort (1 - p)).synced then 2 else 0)
  m.raise 0x0903 p 0 0 0

/-- Saturate an offset to 16 signed bits (R440). -/
def satOffset (o : Int) : Nat := twos 16 (max (-32768) (min 32767 o))

/-- Slew the clock against an offset of at most 1 µs, by at most 100 ppm of the time that has passed (R423). -/
def Module.slew (m : Module) (o : Int) : Module :=
  let t := m.tick
  let k := min o.natAbs ((t.now - m.now) / 10000)
  { t with ptpOffset := if 0 ≤ o then t.ptpOffset - (k : Nat) else t.ptpOffset + (k : Nat), clockStep := none }

/-- GPTP_SYNC_RECEIVE: the offset is reported; 8 consecutive ones below sync_thresh synchronise the port, and the clock
with it (R421, R422). The clock follows the Sync messages of its port: beyond 1 µs it is stepped at the next gate cycle
start, within it slews (R423). -/
def gptpSyncReceive (port : Fin 2) (domain : Nat) (o : Int) (m : Module) : Module :=
  let p := port.val
  if !m.bit PWR_DOM_STAT PWR_DOM_STAT_net || m.fld NET_GPTP_CFG NET_GPTP_CFG_domain ≠ domain then m
  else
    let slave := m.fld NET_GPTP_STAT NET_GPTP_STAT_slave_port
    let x := m.netPort p
    let good := if o.natAbs < m.fld NET_GPTP_CFG NET_GPTP_CFG_sync_thresh * 10 then x.good + 1 else 0
    let enters := m.fld NET_GPTP_STAT NET_GPTP_STAT_state ≠ 1 && 8 ≤ good
    let m := m.setNetPort p { x with good := good, synced := x.synced || 8 ≤ good }
    let m := if slave = p || slave = 2 || enters then
        let m := m.setFld NET_GPTP_STAT NET_GPTP_STAT_offset_ns (satOffset o)
        if 1000 < o.natAbs then { m with clockStep := some o } else m.slew o
      else m.setRole p 2
    if enters then (m.setFld NET_GPTP_STAT NET_GPTP_STAT_state 1).becomeSlave p else m

/-- GPTP_SYNC_TIMEOUT: the slave port loses Sync: the other port takes over when it is synchronised, otherwise HOLDOVER
(R421, R422). -/
def gptpSyncTimeout (port : Fin 2) (m : Module) : Module :=
  let p := port.val
  let m := m.setNetPort p { m.netPort p with good := 0, synced := false }
  if m.fld NET_GPTP_STAT NET_GPTP_STAT_state = 1 && m.fld NET_GPTP_STAT NET_GPTP_STAT_slave_port = p then
    if (m.netPort (1 - p)).synced then m.becomeSlave (1 - p)
    else ((m.setRole p 0).setFld NET_GPTP_STAT NET_GPTP_STAT_state 2).fault 12 0x0904 p 0 0 0
  else m.setRole p 0

/-- GPTP_HOLDOVER_EXPIRY: HOLDOVER has lasted holdover_s (R421). -/
def gptpHoldoverExpiry (m : Module) : Module :=
  if m.fld NET_GPTP_STAT NET_GPTP_STAT_state = 2 then
    (m.setFld NET_GPTP_STAT NET_GPTP_STAT_state 0).setFld NET_GPTP_STAT NET_GPTP_STAT_slave_port 2
  else m

/-- GPTP_CLOCK_STEP: the clock is stepped by the offset, once (R423). -/
def gptpClockStep (m : Module) : Module :=
  match m.clockStep with
  | none => m
  | some o => { m with clockStep := none, ptpOffset := m.ptpOffset - o }

/-! ### Gates (R415 to R418) -/

/-- QBV_CYCLE_START: the latest gate control list applies (R417). -/
def qbvCycleStart (port : Fin 2) (m : Module) : Module :=
  m.setNetPort port.val { m.netPort port.val with gates := (m.netPort port.val).nextGates }

/-- PLAN_WINDOW_OPEN: the frames of the stream that reached the queue before are sent in this window (R418). -/
def planWindowOpen (port : Fin 2) (c : PortId) (m : Module) : Module :=
  let x := m.netPort port.val
  if !x.gates.any (·.ctx = c) then m
  else m.setNetPort port.val
    { x with txq := x.txq.filter (·.ctx ≠ c), windowOpen := some (c, x.txq.filter (·.ctx = c)) }

/-- How many of some frames end within `t` ns at 1 Gbit/s, one after another with 20 bytes of preamble and gap each (R419). -/
def Module.framesIn (m : Module) (l : List PlanFrame) (t : Nat) : Nat :=
  ((List.range l.length).filter fun i =>
    ((l.take i).map fun f => (m.frameLen f.out + 20) * 8).sum + ((l[i]?).map fun f => m.frameLen f.out * 8).getD 0 ≤ t).length

/-- How many frames of the open window go out: all at the planned speed, those that fit the window at a lower one, none
without link (R415). -/
def Module.framesGo (m : Module) (p : Nat) (c : PortId) (l : List PlanFrame) : Nat :=
  let x := m.netPort p
  if !m.bit (NET_PORT_STAT p) NET_PORT_STAT_link then 0
  else if x.plannedFast && m.fld (NET_PORT_STAT p) NET_PORT_STAT_speed = 1 then
    m.framesIn l (((x.gates.find? (·.ctx = c)).map (·.len)).getD 0)
  else l.length

/-- PLAN_WINDOW_END: the frames that went out in the window have left, the others are discarded and counted (R415); what waited
for room in the queue goes on (R16). -/
def planWindowEnd (port : Fin 2) (c : PortId) (m : Module) : Module :=
  let x := m.netPort port.val
  match x.windowOpen with
  | some (c', l) =>
    if c' = c then
      let n := m.framesGo port.val c l
      let m := m.emitFrames (l.take n)
      ((m.setNetPort port.val { x with windowOpen := none }).count (NET_CNT_TX_LATE port.val) (l.length - n)).dmaGoOn
    else m
  | none => m

/-! ### Exported windows (R427 to R433) -/

/-- The region of exported window n. -/
def Module.expRegion (m : Module) (n : Nat) : Option Region := m.region? (m.rd (YWP_EXP_REGION n))

/-- The device address and the size of exported window n (R427, R441). -/
def Module.expBase (m : Module) (n : Nat) : Nat :=
  ((m.expRegion n).map (·.base)).getD 0 + (m.rd (YWP_EXP_OFS n)).toNat * 4096
def Module.expSize (m : Module) (n : Nat) : Nat := (m.fld (YWP_EXP_CTL n) YWP_EXP_CTL_size_m1 + 1) * 4096

/-- Close exported window n: its generation advances (R428). -/
def Module.closeWindow (m : Module) (n : Nat) : Module :=
  if m.bit (YWP_EXP_CTL n) YWP_EXP_CTL_open then
    (m.setFld (YWP_EXP_CTL n) YWP_EXP_CTL_open 0).setFld (YWP_EXP_GEN n) YWP_EXP_GEN_gen
      (nextGen (m.fld (YWP_EXP_GEN n) YWP_EXP_GEN_gen))
  else m

/-- Close every exported window (R455, R484). -/
def Module.closeAllWindows (m : Module) : Module := (List.range 256).foldl Module.closeWindow m

/-- The access a window message asks for. -/
inductive WinAccess
  | write | read | sync
deriving DecidableEq, Repr

/-- Window w grants an access (R441). -/
def Module.grants (m : Module) (w : Nat) (a : WinAccess) : Bool :=
  match a with
  | .write => m.bit (YWP_EXP_CTL w) YWP_EXP_CTL_write
  | .read => m.bit (YWP_EXP_CTL w) YWP_EXP_CTL_read
  | .sync => m.bit (YWP_EXP_CTL w) YWP_EXP_CTL_sync

/-- The first of R429's checks that fails for a message to exported window `w`: its answer. -/
def Module.winCheck (m : Module) (h : Hdr) (w gen : Nat) (a : WinAccess) (off n : Nat) : Option Nat :=
  let on := match m.expRegion w with
    | none => true
    | some r => if r.base < spmSize then !m.spmOff (m.expBase w + if a = .sync then 0 else off) (max n 1) else m.dramOn
  if 255 < w then some stWindowClosed
  else if !on then some stNotReady
  else if h.epoch ≠ 0 ∧ h.epoch ≠ m.epoch then some stWindowClosed
  else if !m.bit (YWP_EXP_CTL w) YWP_EXP_CTL_open || m.fld (YWP_EXP_GEN w) YWP_EXP_GEN_gen ≠ gen then
    some stWindowClosed
  else if !m.grants w a then some stRefused
  else match a with
    | .sync => if m.fld (YWP_EXP_SYNC w) YWP_EXP_SYNC_count ≤ off then some stRefused else none
    | _ => if m.expSize w < off + n then some stBusError else none

/-- Count the answers of R429's generation check. -/
def Module.winClosedCount (m : Module) (h : Hdr) (w gen : Nat) : Module :=
  if (h.epoch = 0 || h.epoch = m.epoch) &&
      (255 < w || !m.bit (YWP_EXP_CTL w) YWP_EXP_CTL_open || m.fld (YWP_EXP_GEN w) YWP_EXP_GEN_gen ≠ gen) then
    m.count YWP_CNT_CLOSED 1
  else m

/-- The arrival of a descriptor's last write (R433). -/
def Module.arriveAt (m : Module) (w : Nat) (arrive : Bool) : Module :=
  if arrive && m.bit (YWP_EXP_CTL w) YWP_EXP_CTL_arrive then
    m.guestAdd (m.fld (YWP_EXP_ARRIVE w) YWP_EXP_ARRIVE_obj) 1
  else m

/-- The epoch of a node as a response has last told it to a binding, or 0 (R431). -/
def Module.epochKnown (m : Module) (node : W16) : Word :=
  (m.binds.findSome? fun e => (e.2.receivers.find? fun r => r.node = node && r.epoch ≠ 0).map (·.epoch)).getD 0

/-- Send a WIN_CREDIT (R431, R436). -/
def Module.sendCredit (m : Module) (port : Fin 2) (dest : Peer) (dst : W16) (w gen flags : Nat) (transfer : Word)
    (applied limit : Nat) : Module :=
  let x : Msg := ⟨0x10, 0x13, false, false, dst, 0, m.winSeq, 0, 0, m.epochKnown dst,
    leBytes 2 w ++ leBytes 2 gen ++ leBytes 2 flags ++ leBytes 2 0 ++ leBytes 4 transfer.toNat ++ leBytes 4 applied
      ++ leBytes 4 limit⟩
  { m with winSeq := m.winSeq + 1 }.originate port dest false 0 x

/-- A multicast write as its receiver takes it (R436): applied when it joins what is applied without a gap; a credit
goes back after each 8 KiB and after LAST. -/
def Module.mcReceive (m : Module) (h : Hdr) (w gen flags : Nat) (transfer : Word) (pos : Nat) (addr : Nat)
    (data : List Byte) : Module :=
  let same := fun (x : McRx) => x.src = h.src && x.window.toNat = w
  let old := match m.mcRx.find? fun x => same x && x.transfer = transfer with
    | some x => x
    | none => ⟨h.src, BitVec.ofNat 16 w, transfer, 0, 0, false⟩
  if old.dropped || old.applied < pos then m
  else
    let fresh := old.applied < pos + data.length
    let m := if fresh then m.store addr data else m
    let applied := max old.applied (pos + data.length)
    let last := flags.testBit 2
    let m := if fresh && last then m.arriveAt w (flags.testBit 1) else m
    let credit := last || 8192 ≤ applied - old.credited
    let x := { old with applied := applied, credited := if credit then applied else old.credited }
    let m := { m with mcRx := m.mcRx.filter (fun y => !same y) ++ [x] }
    if credit then m.sendCredit h.port (originTo h.src h.peer) h.src w gen 0 transfer applied
      (applied + (m.rd YWP_CREDIT_WIN).toNat)
    else m

/-- An access through an exported window waits for a stack that is being zero filled (R296, R527). -/
def Module.winWaits (m : Module) (h : Hdr) (a : WinAccess) (w gen off n : Nat) : Bool :=
  (m.winCheck h w gen a off n).isNone && m.spmBusy (m.expBase w + off) n

/-- WIN_WRITE (R429, R431 to R433). -/
def winWrite (h : Hdr) (b : List Byte) (m : Module) : Module :=
  let n := fieldAt b 6 2
  if m.winWaits h .write (fieldAt b 0 2) (fieldAt b 2 2) (fieldAt b 16 8) n then m else
  m.gate h 0x10 false (24 ≤ b.length && b.length = 24 + n) fun m =>
    let w := fieldAt b 0 2
    let gen := fieldAt b 2 2
    let flags := fieldAt b 4 2
    let off := fieldAt b 16 8
    if n = 0 ∨ 1024 < n then m.answerIf h 0x10 stRefused 0 []
    else
      match m.winCheck h w gen .write off n with
      | some st => (if st = stWindowClosed then m.winClosedCount h w gen else m).answerIf h 0x10 st 0 []
      | none =>
        let a := m.expBase w + off
        let data := b.drop 24
        if flags.testBit 0 then m.mcReceive h w gen flags (BitVec.ofNat 32 (fieldAt b 8 4)) (fieldAt b 12 4) a data
        else
          let m := if a < spmSize then m else m.meetPartly 1 a n
          if !(a < spmSize) && !(m.badPartly a n).isEmpty then (m.reportPartly a n).answerIf h 0x10 stBusError 0 []
          else ((m.store a data).arriveAt w (flags.testBit 1)).answerIf h 0x10 stOk 0 []

/-- WIN_READ (R429, R431): a poisoned word gives BUS_ERROR (R294, R321). -/
def winRead (h : Hdr) (b : List Byte) (m : Module) : Module :=
  if m.winWaits h .read (fieldAt b 0 2) (fieldAt b 2 2) (fieldAt b 8 8) (fieldAt b 4 4) then m else
  m.gate h 0x11 false (b.length = 16) fun m =>
    let w := fieldAt b 0 2
    let gen := fieldAt b 2 2
    let n := fieldAt b 4 4
    let off := fieldAt b 8 8
    if 1024 < n then m.answerIf h 0x11 stRefused 0 []
    else
      match m.winCheck h w gen .read off n with
      | some st => (if st = stWindowClosed then m.winClosedCount h w gen else m).answerIf h 0x11 st 0 []
      | none =>
        let a := m.expBase w + off
        let (bad, m) := m.readMeets 1 a n
        if bad then m.answerIf h 0x11 stBusError 0 [] else m.answerIf h 0x11 stOk 0 (m.bytes a n)

/-- Remember the answer to a node's last WIN_SYNC, for up to 1 024 nodes, replacing the least recent (R432). -/
def Module.syncRemember (m : Module) (h : Hdr) (st : Nat) : Module :=
  let l := m.syncSeen.filter (·.node ≠ h.src) ++ [SyncSeen.mk h.src h.seq (BitVec.ofNat 16 st)]
  { m with syncSeen := l.drop (l.length - 1024) }

/-- WIN_SYNC (R308, R429, R431, R432): a repeat is answered again and not applied. -/
def winSync (h : Hdr) (b : List Byte) (m : Module) : Module :=
  m.gate h 0x12 false (b.length = 12) fun m =>
    match m.syncSeen.find? fun x => x.node = h.src ∧ x.seq = h.seq with
    | some x => (m.count YWP_CNT_DUP 1).answerIf h 0x12 x.status.toNat 0 []
    | none =>
      let w := fieldAt b 0 2
      let gen := fieldAt b 2 2
      let op := fieldAt b 4 1
      let idx := fieldAt b 6 2
      match m.winCheck h w gen .sync idx 0 with
      | some st =>
        ((if st = stWindowClosed then m.winClosedCount h w gen else m).syncRemember h st).answerIf h 0x12 st 0 []
      | none =>
        let o := m.fld (YWP_EXP_SYNC w) YWP_EXP_SYNC_first + idx
        if m.owned o then ((m.count SYN_CNT_REFUSED 1).syncRemember h stRefused).answerIf h 0x12 stRefused 0 []
        else if 1 < op then (m.syncRemember h stRefused).answerIf h 0x12 stRefused 0 []
        else
          let v := if op = 0 then 1 else BitVec.ofNat 32 (fieldAt b 8 4)
          ((m.addSync o v).syncRemember h stOk).answerIf h 0x12 stOk 0 []

/-! ### Bindings (R430) -/

/-- A binding handle of kind WINDOW (R430). -/
def bindHandle (gen w : Nat) : Nat := gen * 65536 + 0x4000 + w

/-- The current handle of local window w, 0 when it is not bound. -/
def Module.bindHandleOf (m : Module) (w : Nat) : Nat :=
  if (m.binds.find? w).isSome then bindHandle (m.fld (YWP_BIND_STAT w) YWP_BIND_STAT_bind_gen) w else 0

/-- The local window of a current binding handle of kind WINDOW (R430). -/
def Module.windowOf (m : Module) (h : Word) : Option Nat :=
  let w := h.toNat % 256
  if w < 64 && m.bindHandleOf w ≠ 0 && m.bindHandleOf w / 16384 = h.toNat / 16384 then some w else none

/-- A stream that is admitted names a binding handle: in a delivery, or as the network handle of an enabled output
(R430). -/
def Module.streamNamesBinding (m : Module) (h : Nat) : Bool :=
  m.streams.any fun e =>
    e.2.setup.deliveries.any (fun d => d.window.toNat / 16384 = h / 16384 && d.window.toNat % 256 = h % 256) ||
      (List.range 4).any fun k => m.bit (NIS_OUT_CFG e.1 k) NIS_OUT_CFG_en &&
        (m.rd (NIS_OUT_NET e.1 k)).toNat / 16384 = h / 16384 && (m.rd (NIS_OUT_NET e.1 k)).toNat % 256 = h % 256

/-- The receivers of a WIN_BIND payload (R430), with the epochs known of their nodes (R431). -/
def Module.receiversOf (m : Module) (b : List Byte) (n : Nat) : List Receiver :=
  (List.range n).map fun i =>
    let f := fieldAt (b.drop (16 + 16 * i))
    let node := BitVec.ofNat 16 (f 0 2)
    ⟨node, BitVec.ofNat 16 (f 2 2), BitVec.ofNat 16 (f 4 2), BitVec.ofNat 32 (f 8 4), m.epochKnown node⟩

/-- The response of WIN_BIND (R430). -/
def bindPayload (handle : Nat) (rx : Option (Receiver × Nat)) : List Byte :=
  match rx with
  | none => leBytes 4 handle ++ leBytes 4 0 ++ leBytes 1 0xFF ++ leBytes 3 0
  | some (r, i) => leBytes 4 handle ++ leBytes 2 r.node.toNat ++ leBytes 2 r.window.toNat ++ leBytes 1 i ++ leBytes 3 0

/-- Refuse a WIN_BIND. -/
def Module.bindRefuse (m : Module) (h : Hdr) : Module := m.answer h 0x14 stRefused 0 (bindPayload 0 none)

/-- The value checks of BIND and REFRESH (R430). -/
def bindForm (b : List Byte) : Bool :=
  let size := fieldAt b 4 4
  fieldAt b 1 1 < 64 && size ≠ 0 && size % 4096 = 0 && size ≤ 2 ^ 30 && 1 ≤ fieldAt b 8 1 && fieldAt b 8 1 ≤ 16 &&
    fieldAt b 3 1 < 8

/-- Send the probes of a BIND or REFRESH: a WIN_READ of length 0 at offset size to each receiver (R430). -/
def Module.sendProbes (m : Module) (b : List Byte) (rs : List Receiver) (probes : List Probe) : Module :=
  let flags := BitVec.ofNat 8 (fieldAt b 2 1)
  (List.range rs.length).foldl (fun m i => match rs[i]? with
    | none => m
    | some r => { m with winSeq := m.winSeq + 1 }.request (if flags.getLsbD 2 then 1 else 0)
        (if flags.getLsbD 0 then .ip r.ip else .mac (nodeMac r.node)) (flags.getLsbD 1) (fieldAt b 3 1)
        (m.winMsg r 0x11 true (r.read (fieldAt b 4 4) 0)) (probes[i]?).isSome) m

/-- The first receiver whose probe does not succeed: its index and status. -/
def probeFail (n : Nat) (probes : List Probe) : Option (Nat × Nat) :=
  (List.range n).findSome? fun i =>
    let st := ((probes[i]?).map (·.status.toNat)).getD stBusError
    if st = stOk then none else some (i, st)

/-- The receivers with the epochs that the probes' responses tell (R431). -/
def learnProbes (rs : List Receiver) (probes : List Probe) : List Receiver :=
  (List.range rs.length).filterMap fun i => (rs[i]?).map fun r =>
    { r with epoch := ((probes[i]?).map (·.epoch)).getD r.epoch }

/-- Report a binding in its registers (R441). -/
def Module.reportBinding (m : Module) (w : Nat) : Module :=
  match m.binds.find? w with
  | none =>
    let m := (m.wr (YWP_BIND_TGT w) 0).wr (YWP_BIND_SIZE w) 0
    ((m.setFld (YWP_BIND_STAT w) YWP_BIND_STAT_kind 0).setFld (YWP_BIND_STAT w) YWP_BIND_STAT_receivers 0).setFld
      (YWP_BIND_STAT w) YWP_BIND_STAT_flags 0
  | some b =>
    let r := b.receivers.head?
    let m := (m.setFld (YWP_BIND_TGT w) YWP_BIND_TGT_window ((r.map (·.window.toNat)).getD 0)).setFld
      (YWP_BIND_TGT w) YWP_BIND_TGT_node ((r.map (·.node.toNat)).getD 0)
    let m := (m.wr (YWP_BIND_SIZE w) (BitVec.ofNat 32 (b.size / 4096))).setFld (YWP_BIND_STAT w) YWP_BIND_STAT_kind
      (if b.receivers.length = 1 then 1 else 2)
    (m.setFld (YWP_BIND_STAT w) YWP_BIND_STAT_receivers b.receivers.length).setFld (YWP_BIND_STAT w)
      YWP_BIND_STAT_flags (b.flags.toNat % 16)

/-- Advance a binding generation (R430). -/
def Module.bumpBind (m : Module) (w : Nat) : Module :=
  m.setFld (YWP_BIND_STAT w) YWP_BIND_STAT_bind_gen (nextGen (m.fld (YWP_BIND_STAT w) YWP_BIND_STAT_bind_gen))

/-- The gate of WIN_BIND, a session's message: NOT_READY while the control pairs are halted (R479; assumption log 85). -/
def Module.gateBind (m : Module) (h : Hdr) (lenOk : Bool) (k : Module → Module) : Module :=
  m.gateSession h 0x14 lenOk fun _ _ m => if m.cpHalted then m.answer h 0x14 stNotReady 0 [] else k m

/-- WIN_BIND with op BIND, or with a reserved op (R430). -/
def winBind (h : Hdr) (b : List Byte) (probes : List Probe) (m : Module) : Module :=
  let n := fieldAt b 8 1
  if fieldAt b 0 1 = 1 ∨ fieldAt b 0 1 = 2 then m
  else m.gateBind h (16 ≤ b.length && b.length = 16 + 16 * n) fun m =>
    let w := fieldAt b 1 1
    if fieldAt b 0 1 ≠ 0 || !bindForm b || (m.binds.find? w).isSome then m.bindRefuse h
    else
      let rs := m.receiversOf b n
      let m := m.sendProbes b rs probes
      match probeFail n probes with
      | some (i, st) => m.answer h 0x14 st 0 (bindPayload 0 ((rs[i]?).map fun r => (r, i)))
      | none =>
        let bd : Binding := ⟨BitVec.ofNat 8 (fieldAt b 2 1), fieldAt b 3 1, fieldAt b 4 4, learnProbes rs probes, none, 0⟩
        let m := ({ m with binds := m.binds.insert w bd }.bumpBind w).reportBinding w
        m.answer h 0x14 stOk 0 (bindPayload (m.bindHandleOf w) none)

/-- An UNBIND is over once no transfer through the window is outstanding: the window is free (R430). -/
def Module.finishUnbind (m : Module) (w : Nat) : Module :=
  match m.binds.find? w with
  | none => m
  | some b => match b.unbinding with
    | none => m
    | some h =>
      if b.transfers = 0 && !m.mcSend.any (·.window.val = w) then
        let old := m.bindHandleOf w
        let m := ({ m with binds := m.binds.erase w }.bumpBind w).reportBinding w
        m.answer h 0x14 stOk 0 (bindPayload old none)
      else m

/-! ### Multicast as the sender (R436, R437) -/

/-- The transfer in progress through a window. -/
def Module.mcOf (m : Module) (w : Fin 64) : Option McSend := m.mcSend.find? (·.window = w)

/-- Some receiver of a transfer that goes on has credit for bytes it has not been sent. -/
def McSend.wantsMore (t : McSend) : Bool := t.recv.any fun r => !r.dropped && r.sent < chunkEnd t.chunks r.limit

/-- Store a transfer after its writes have gone out. One that is over ends, and its channel's descriptor has every byte
acknowledged (R437); one that has failed, or would send through a window that UNBIND has stopped (UNMAPPED, R435), ends too. -/
def McTurn.settle (x : McTurn) : Module :=
  let t := x.t
  let w := t.window.val
  let rest := x.m.mcSend.filter fun y => !(y.window = t.window && y.number = t.number)
  if x.fail.isSome then x.keep.finishUnbind w
  else if t.finished then
    ({ x.m with mcSend := rest }.dmaReturn t.ch 0 (chunkPos t.chunks t.chunks.length) none).finishUnbind w
  else if (x.m.binding? w).isNone && t.wantsMore then
    ({ x.m with mcSend := rest }.dmaReturn t.ch 0 0 (some ⟨windowBase + w * 0x40000000, 3, 1⟩)).finishUnbind w
  else x.keep

/-- WIN_CREDIT: a receiver's applied and limit advance and the bytes below its limit go out; with DROPPED the module, as
receiver, leaves the transfer (R431, R436, R437). -/
def winCredit (h : Hdr) (b : List Byte) (m : Module) : Module :=
  m.gate h 0x13 false (b.length = 20) fun m =>
    let w := fieldAt b 0 2
    let gen := fieldAt b 2 2
    let number := BitVec.ofNat 32 (fieldAt b 8 4)
    if (fieldAt b 4 2).testBit 0 then
      { m with mcRx := m.mcRx.map fun x =>
          if x.src = h.src && x.window.toNat = w && x.transfer = number then { x with dropped := true } else x }
    else
      let hit := m.mcSend.findSome? fun t =>
        if t.number = number then
          match m.binds.find? t.window.val with
          | none => none
          | some bd => (bd.receivers.findIdx? fun r =>
              r.node = h.src && r.window.toNat = w && r.gen.toNat = gen).map fun i => (t, i)
        else none
      match hit with
      | none => m
      | some (t, i) => match t.recv[i]? with
        | none => m
        | some r =>
          if r.dropped then m
          else
            let a := max r.applied (fieldAt b 12 4)
            let r' := { r with applied := a, limit := max r.limit (fieldAt b 16 4),
                               resends := if r.applied < a then 0 else r.resends }
            (m.mcPump { t with recv := setAt t.recv i r' }).settle

/-- MULTICAST_RESEND: a receiver whose applied has not advanced is sent its bytes again from applied, at most retries
times (R437); each write sent again is counted (R432). -/
def multicastResend (w : Fin 64) (rx : Fin 16) (m : Module) : Module :=
  match m.mcOf w with
  | none => m
  | some t => match t.recv[rx.val]? with
    | none => m
    | some r =>
      if (m.binding? w.val).isNone || r.dropped || r.sent ≤ r.applied || m.fld YWP_WIN_CFG YWP_WIN_CFG_retries ≤ r.resends then m
      else
        let x := m.mcSpan t rx.val (chunkEnd t.chunks r.applied) r.sent
        if x.waits then m
        else
          let t := { x.t with recv := setAt x.t.recv rx.val { r with resends := r.resends + 1 } }
          { x with t := t, m := x.m.count YWP_CNT_RESENT (x.m.winSeq - m.winSeq).toNat }.settle

/-- RECEIVER_DROPPED: a receiver that has not advanced for credit_timeout_ms is dropped from the transfer (R437). -/
def receiverDropped (w : Fin 64) (rx : Fin 16) (m : Module) : Module :=
  match m.mcOf w, m.binds.find? w.val with
  | some t, some bd => match t.recv[rx.val]?, bd.receivers[rx.val]? with
    | some r, some x =>
      if r.dropped || chunkPos t.chunks t.chunks.length ≤ r.applied then m
      else
        let m := m.sendCredit bd.port (bd.peer x) x.node x.window.toNat x.gen.toNat 1 t.number r.applied r.limit
        let m := (m.count YWP_CNT_DROPPED 1).raise 0x0905 w.val x.node.toNat t.number.toNat 0
        McTurn.settle ⟨{ t with recv := setAt t.recv rx.val { r with dropped := true } }, none, false, m⟩
    | _, _ => m
  | _, _ => m

/-! ### UNBIND and REFRESH (R430) -/

/-- WIN_BIND with op UNBIND: new accesses fail at once; refused for a window that is not bound and for a binding that an
admitted stream names (R430). -/
def winUnbind (h : Hdr) (b : List Byte) (m : Module) : Module :=
  let n := fieldAt b 8 1
  if fieldAt b 0 1 ≠ 1 then m
  else m.gateBind h (16 ≤ b.length && b.length = 16 + 16 * n) fun m =>
    let w := fieldAt b 1 1
    match m.binding? w with
    | none => m.bindRefuse h
    | some bd =>
      if 63 < w || m.streamNamesBinding (m.bindHandleOf w) then m.bindRefuse h
      else { m with binds := m.binds.insert w { bd with unbinding := some h } }.finishUnbind w

/-- REFRESH matches the binding in all but the generations (R430). -/
def refreshMatches (bd : Binding) (b : List Byte) (rs : List Receiver) : Bool :=
  bd.flags.toNat % 16 = fieldAt b 2 1 % 16 && bd.size = fieldAt b 4 4 && bd.tclass = fieldAt b 3 1 &&
    bd.receivers.map (fun r => (r.node, r.window, r.ip)) = rs.map (fun r => (r.node, r.window, r.ip))

/-- WIN_BIND with op REFRESH: every receiver gets a new generation, the handle stays (R430). -/
def winRefresh (h : Hdr) (b : List Byte) (probes : List Probe) (m : Module) : Module :=
  let n := fieldAt b 8 1
  if fieldAt b 0 1 ≠ 2 then m
  else m.gateBind h (16 ≤ b.length && b.length = 16 + 16 * n) fun m =>
    let w := fieldAt b 1 1
    let rs := m.receiversOf b n
    match m.binding? w with
    | none => m.bindRefuse h
    | some bd =>
      if !bindForm b || !refreshMatches bd b rs then m.bindRefuse h
      else
        let m := m.sendProbes b rs probes
        match probeFail n probes with
        | some (i, st) => m.answer h 0x14 st 0 (bindPayload 0 ((rs[i]?).map fun r => (r, i)))
        | none =>
          let m := { m with binds := m.binds.insert w { bd with receivers := learnProbes rs probes } }
          (m.reportBinding w).answer h 0x14 stOk 0 (bindPayload (m.bindHandleOf w) none)

def execNetRxFrame (port : Fin 2) (frame : RxFrame) (s : State) := ok s (netRxFrame port frame s.toModule)
def execLinkUp (port : Fin 2) (fast : Bool) (s : State) := ok s (linkUp port fast s.toModule)
def execLinkDown (port : Fin 2) (s : State) := ok s (linkDown port s.toModule)
def execPreemptionVerification (port : Fin 2) (good : Bool) (s : State) :=
  ok s (preemptionVerification port good s.toModule)
def execSequenceRecoveryReset (stream : Fin 128) (s : State) := ok s (sequenceRecoveryReset stream s.toModule)
def execPeerDelayMeasurement (port : Fin 2) (delayNs : Nat) (s : State) :=
  ok s (peerDelayMeasurement port delayNs s.toModule)
def execGptpSyncReceive (port : Fin 2) (domain : Nat) (offsetNs : Int) (s : State) :=
  ok s (gptpSyncReceive port domain offsetNs s.toModule)
def execGptpSyncTimeout (port : Fin 2) (s : State) := ok s (gptpSyncTimeout port s.toModule)
def execGptpHoldoverExpiry (s : State) := ok s (gptpHoldoverExpiry s.toModule)
def execGptpClockStep (s : State) := ok s (gptpClockStep s.toModule)
def execQbvCycleStart (port : Fin 2) (s : State) := ok s (qbvCycleStart port s.toModule)
def execPlanWindowOpen (port : Fin 2) (c : PortId) (s : State) := ok s (planWindowOpen port c s.toModule)
def execPlanWindowEnd (port : Fin 2) (c : PortId) (s : State) := ok s (planWindowEnd port c s.toModule)
def execWinWrite (m : Hdr) (payload : List Byte) (s : State) := ok s (winWrite m payload s.toModule)
def execWinRead (m : Hdr) (payload : List Byte) (s : State) := ok s (winRead m payload s.toModule)
def execWinSync (m : Hdr) (payload : List Byte) (s : State) := ok s (winSync m payload s.toModule)
def execWinCredit (m : Hdr) (payload : List Byte) (s : State) := ok s (winCredit m payload s.toModule)
def execMulticastResend (w : Fin 64) (receiver : Fin 16) (s : State) := ok s (multicastResend w receiver s.toModule)
def execReceiverDropped (w : Fin 64) (receiver : Fin 16) (s : State) := ok s (receiverDropped w receiver s.toModule)
def execWinBind (m : Hdr) (payload : List Byte) (probes : List Probe) (s : State) :=
  ok s (winBind m payload probes s.toModule)
def execWinUnbind (m : Hdr) (payload : List Byte) (s : State) := ok s (winUnbind m payload s.toModule)
def execWinRefresh (m : Hdr) (payload : List Byte) (probes : List Probe) (s : State) :=
  ok s (winRefresh m payload probes s.toModule)

end Sys2Proof.Machine
end

