-- ==== Sys2Proof/Machine/Report.lean ====
section
/-!
DEFINITION. The fox's reports (R361, R362) and the caps it plans against (R371, R372, R446).
-/
namespace Sys2Proof.Machine

/-- An entry of a report (R361). -/
structure RepEntry where
  check : Nat
  reason : Nat
  resource : Nat
  subject : Nat
  need : Nat
  available : Nat
  stream : Nat
deriving DecidableEq, Repr

/-- The 32 bytes of a report entry (R361). -/
def repBytes (e : RepEntry) : List Byte :=
  leBytes 1 e.check ++ leBytes 1 e.reason ++ leBytes 2 e.resource ++ leBytes 4 e.subject ++ leBytes 8 e.need
    ++ leBytes 8 e.available ++ leBytes 4 e.stream ++ leBytes 4 0

/-- A report of at most `len` bytes: a 32 B header, then the entries that fit; TRUNCATED when some do not (R361). -/
def reportBytes (len failed flags mode ctx stream cap : Nat) (l : List RepEntry) : List Byte :=
  let k := (len - 32) / 32
  let l' := l.take k
  leBytes 2 1 ++ leBytes 2 l'.length ++ leBytes 1 failed ++ leBytes 1 (flags + if k < l.length then 1 else 0)
    ++ leBytes 1 mode ++ leBytes 1 ctx ++ leBytes 4 stream ++ leBytes 4 cap ++ leBytes 16 0 ++ l'.flatMap repBytes

/-- The mode whose clocks run (R369): during a mode change, from the clock switch on, the new one, which PWR_MODE shows
only at the end (R370, R459). -/
def Module.mode (m : Module) : Nat :=
  match m.modeChange with
  | some x => if x.phase = .starting then x.target else m.fld PWR_MODE PWR_MODE_mode
  | none => m.fld PWR_MODE PWR_MODE_mode

/-- The cap in force, 0.1 W (R446, R374). -/
def Module.cap (m : Module) : Nat := m.fld SYS_ADM_POWER SYS_ADM_POWER_cap_dw

/-- The cap at 70 °C and below and its fall per °C, 0.1 W (R371). -/
def capBase (mode : Nat) : Nat := if mode = 1 then 1850 else if mode = 2 then 950 else 1500
def capFall (mode : Nat) : Nat := if mode = 1 then 40 else if mode = 2 then 10 else 30

/-- The thermal cap at a cold-plate temperature in 1/16 °C: linear from 70 °C, held from 85 °C on, rounded down to 0.5 W
(R371, R462). -/
def thermalCap (mode : Nat) (t : Int) : Nat :=
  let above := (max 0 (min t (85 * 16) - 70 * 16)).toNat
  (capBase mode * 16 - capFall mode * above) / 80 * 5

/-- The supply cap of 12 A × VIN, rounded down to 0.5 W, for VIN in mV averaged over some samples: rounded once (R446). -/
def supplyCap (l : List Nat) : Nat := if l.isEmpty then 0 else 12 * l.sum / (500 * l.length) * 5

/-- The cold-plate temperature, 1/16 °C (R464). -/
def Module.coldPlate (m : Module) : Int := signedOf 16 (m.fld PWR_TEMP PWR_TEMP_cold_plate)

/-- The thermal cap now: at its 85 °C value when both base-plate sensors have failed (R461). -/
def Module.thermalNow (m : Module) : Nat :=
  if m.bit PWR_TEMP_STAT PWR_TEMP_STAT_cap_held then thermalCap m.mode (85 * 16) else thermalCap m.mode m.coldPlate

/-- The mean of some numbers. -/
def mean (l : List Nat) : Nat := if l.isEmpty then 0 else l.sum / l.length

/-- Recompute the cap in force from the mean VIN of the last second and the temperature (R446, R371). -/
def Module.updateCap (m : Module) : Module :=
  let sup := supplyCap ((m.powerSamples.take 10000).map (·.1))
  let th := m.thermalNow
  let m := (m.setFld PWR_CAP PWR_CAP_thermal_dw th).setFld PWR_CAP PWR_CAP_supply_dw (min sup 65535)
  m.setFld SYS_ADM_POWER SYS_ADM_POWER_cap_dw (min th sup)

/-- The coefficients of R358: mW of a fully booked engine, of a TB/s of SPM, of a GB/s of DRAM, and P_fixed. -/
def pEng (mode : Nat) : Nat := if mode = 2 then 500 else 830
def pSpm (mode : Nat) : Nat := if mode = 2 then 450 else 480
def pDram : Nat := 39
def pFixed (mode : Nat) : Nat := if mode = 2 then 11000 else 14000

/-- The sum of R358 without P_fixed and the 1/16 of each engine, in nW (1e-6 mW). -/
def PowerUse.sum (mode : Nat) (u : PowerUse) : Nat := u.eng * pEng mode + u.spm * pSpm mode + u.dram * (pDram * 1000)

/-- Divide a sum in nW by 0.93, in mW rounded up (R358). -/
def overLoss (nw : Nat) : Nat := (nw * 100 + 92999999) / 93000000

/-- The 1/16 of each engine that some plans use, once, in ASSURED and COOL, in nW (R358). -/
def sparePower (mode : Nat) (l : List PowerUse) : Nat :=
  if mode = 1 then 0 else (l.flatMap (·.engines)).eraseDups.length * (62500 * pEng mode)

/-- The estimate of some plans together, in mW (R358): P_fixed counts once, so it is 0 without a plan. -/
def powerOf (mode : Nat) (l : List PowerUse) : Nat :=
  if l.isEmpty then 0 else overLoss (pFixed mode * 1000000 + (l.map (·.sum mode)).sum + sparePower mode l)

/-- The estimate of one plan without P_fixed, in mW (R372; assumption log 67). -/
def PowerUse.own (mode : Nat) (u : PowerUse) : Nat := overLoss (u.sum mode + sparePower mode [u])

/-- The total estimate of all plans (R358, R374). -/
def Module.plannedPower (m : Module) : Nat := powerOf m.mode (m.streams.map (·.2.plan.power))

/-- Report the total estimate in 0.1 W (R374). -/
def Module.reportPlanned (m : Module) : Module :=
  (m.setFld SYS_ADM_POWER SYS_ADM_POWER_planned_dw (min (m.plannedPower / 100) 65535)).setFld SYS_ADM_STAT
    SYS_ADM_STAT_streams m.streams.length

/-- T_limit in 1/16 °C: where the thermal cap falls below the total estimate; none when it never does (R372). -/
def Module.tLimit (m : Module) : Option Int :=
  let p := m.fld SYS_ADM_POWER SYS_ADM_POWER_planned_dw
  if p ≤ thermalCap m.mode (85 * 16) then none
  else some (70 * 16 + ((capBase m.mode : Int) - p) * 16 / capFall m.mode)

/-- The handle of a stream (R345). -/
def streamHandle (c : Nat) (s : Stream) : Nat := s.gen * 65536 + c

/-- Insert a stream by descending power. -/
def byPower (mode : Nat) (l : List (Nat × Stream)) (x : Nat × Stream) : List (Nat × Stream) :=
  match l with
  | [] => [x]
  | y :: t =>
    if y.2.plan.power.own mode < x.2.plan.power.own mode then x :: y :: t else y :: byPower mode t x

/-- Write a report into the SYS_ADM_REPORT region, when it names one (R370, R372). -/
def Module.writeReport (m : Module) (b : Nat → List Byte) : Module :=
  match m.region? (m.rd SYS_ADM_REPORT) with
  | none => m
  | some r => m.store r.base ((b r.size).take r.size)

/-- The thermal report: one POWER entry per stream in descending order of estimated power (R372). -/
def Module.thermalReport (m : Module) : Module :=
  let l := ((m.streams : List (Nat × Stream)).foldl (byPower m.mode) []).map fun e =>
    RepEntry.mk 9 0 0xFFFF 0xFFFFFFFF (e.2.plan.power.own m.mode) (m.cap * 100) (streamHandle e.1 e.2)
  m.writeReport fun n => reportBytes n 9 8 m.mode 0 0 m.cap l

/-- PLAN_AT_RISK when the cold plate reaches T_limit − 3 °C, once per approach, with the thermal report (R372). -/
def Module.checkRisk (m : Module) : Module :=
  match m.tLimit with
  | none => { m with atRisk := false }
  | some t =>
    if t - 48 ≤ m.coldPlate then
      if m.atRisk then m
      else
        let m := { m with atRisk := true }.fault 13 0x0804 0 (twos 32 t) (m.fld SYS_ADM_POWER SYS_ADM_POWER_planned_dw)
          m.cap
        m.thermalReport
    else { m with atRisk := false }

end Sys2Proof.Machine
end

