-- ==== Sys2Proof/Machine/Picture.lean ====
section
/-!
DEFINITION. Picture stages and outputs (04_neural_picture_stages R116 to R135; 14_network_peers R424 to R426): the buffers
and argument blocks of picture tasks, what a stage's write-back adds at the picture's edges, output formatting, output
slots and headers, and the copies that follow.
-/
namespace Sys2Proof.Machine

/-! ### Buffers (R116 to R118, R122, R124) -/

/-- Bytes per pixel of a working format (R116). -/
def pixSize (f : Nat) : Nat := if 4 ≤ f then 2 else 8

/-- The plan of a picture stage's ring of two stripe buffers: pitch, bytes of one buffer, column 0 of picture line kh. -/
def PicPlan.pitch (p : PicPlan) (g : StripeGeom) : Nat := up64 ((g.w + 16) * pixSize p.outFmt)
def PicPlan.size (p : PicPlan) (g : StripeGeom) : Nat := (g.h + 2 * p.below) * p.pitch g
def PicPlan.base (p : PicPlan) (g : StripeGeom) (u : Nat) : Nat :=
  p.buf + u % 2 * p.size g + p.below * p.pitch g + 8 * pixSize p.outFmt

/-- Where a stage reads or writes: column 0 of picture line kh, pitch, halo lines, format. -/
structure PicView where
  base : Nat
  pitch : Nat
  halo : Nat
  fmt : Nat

/-- The view of the input stripe of unit u = f × S + k. -/
def Module.stripeView (m : Module) (c : Nat) (u : Nat) : PicView :=
  let g := m.stripes c
  let base := ((m.region? (m.rd (NIS_IN_REGION c))).map (·.base)).getD 0
  ⟨base + u % max 1 g.slots * g.slot + 64 + g.a * g.pitch + 8 * g.bpp, g.pitch, g.a, if m.mono c then 4 else 1⟩

/-- The view that a stage writes. -/
def PicPlan.view (p : PicPlan) (g : StripeGeom) (u : Nat) : PicView := ⟨p.base g u, p.pitch g, p.below, p.outFmt⟩

/-- What the stage after those given reads for unit u: the last one's output, or the input stripe. -/
def Module.picSource (m : Module) (c u : Nat) (before : List PicPlan) : PicView :=
  match before.getLast? with
  | some p => if p.code.isEmpty then m.stripeView c u else p.view (m.stripes c) u
  | none => m.stripeView c u

/-- A view of the argument block (R122). -/
def viewBytes (v : PicView) (w lines above below : Nat) : List Byte :=
  leBytes 8 v.base ++ leBytes 4 v.pitch ++ leBytes 2 w ++ leBytes 2 lines ++ leBytes 2 above ++ leBytes 2 below
    ++ leBytes 1 v.fmt ++ leBytes 11 0

/-- NIS_STAGE_SEL of picture stage 8 + i: 0 OFF, 1 RESIDENT, 2 USER (R137). -/
def Module.stageSel (m : Module) (c i : Nat) : Nat :=
  m.fld (NIS_STAGE_SEL c) (match i with
    | 0 => NIS_STAGE_SEL_demosaic | 1 => NIS_STAGE_SEL_hdr | 2 => NIS_STAGE_SEL_denoise | _ => NIS_STAGE_SEL_tone)

/-- The history region of a context. -/
def Module.histBase (m : Module) (c : Nat) : Nat := ((m.region? (m.rd (NIS_HIST_REGION c))).map (·.base)).getD 0

/-- Lines and pitches of the history buffers (R124): denoise with `hb` bytes per pixel, HDR input, dormouse state. -/
def dnPitch (g : StripeGeom) (hb : Nat) : Nat := up64 (g.w * hb)
def hdrPitch (g : StripeGeom) : Nat := up64 (g.w * g.bpp)

/-- A stage's bit of NIS_DMR_CFG in a parameter set (R127). -/
def ParamSet.gatedStage (s : ParamSet) (c stage : Nat) : Bool :=
  stage = 8 && s.fld (NIS_DMR_CFG c) NIS_DMR_CFG_demosaic = 1 || stage = 11 && s.fld (NIS_DMR_CFG c) NIS_DMR_CFG_tone = 1

/-- Lines of a state buffer of a gated stage (R124): the frame's stripes and the stage's output halo above and below. -/
def stateLines (g : StripeGeom) (below : Nat) : Nat := g.count * g.h + 2 * below

/-- Bytes of a state buffer: each begins at a multiple of 4 KiB (R124). -/
def stateSize (g : StripeGeom) (below : Nat) : Nat := up4k (stateLines g below * hdrPitch g)

/-- Where the buffers of R124 begin: denoise pair, HDR inputs, and the state of each stage that the set gates in order
(stage, base), with the end. -/
def Module.histMap (m : Module) (c : Nat) (hb : Nat) (pics : List PicPlan) (set : ParamSet) :
    Nat × Nat × List (Nat × Nat) × Nat :=
  let g := m.stripes c
  let n := g.count * g.h
  let b0 := m.histBase c
  let b1 := if pics.any (·.stage = 10) then b0 + 2 * up4k (n * dnPitch g hb) else b0
  let e := m.fld (NIS_HDR_CFG c) NIS_HDR_CFG_exposures
  let b2 := if pics.any (·.stage = 9) then b1 + e * up4k (n * hdrPitch g) else b1
  let st := (pics.filter fun p => p.gateable && set.gatedStage c p.stage).foldl
    (fun (a : List (Nat × Nat) × Nat) p => (a.1 ++ [(p.stage, a.2)], a.2 + 4 * stateSize g p.below)) ([], b2)
  (b0, b1, st.1, st.2)

/-- The parameter set of the frame with an index (R115). -/
def Module.block (m : Module) (c : Nat) (f : Nat) : ParamSet := SMap.get ParamSet.rest (m.ctx c).blocks (f % 4)

/-- Where the reuse counts of a stripe of a stage lie, and how many they are (R188). -/
def PicPlan.countsAt (p : PicPlan) (g : StripeGeom) (k : Nat) : Nat × Nat :=
  (p.counts + k * (g.h + 2 * p.below), g.h + 2 * p.below)

/-- What gates a picture task of unit u, when the stage is gated (R127). A stage whose state buffers do not lie in the
history region (its bit was clear at admission) is not gated (assumption log 80). -/
def Module.gateOf (m : Module) (c u : Nat) (pics : List PicPlan) (p : PicPlan) (hb : Nat) : Option GateTask :=
  let g := m.stripes c
  let f := u / max 1 g.count
  let k := u % max 1 g.count
  let s := m.block c f
  match ((m.histMap c hb pics s).2.2.1.find? (·.1 = p.stage)).map (·.2), m.region? (m.rd (NIS_HIST_REGION c)) with
  | some area, some r =>
    if r.base + r.size < area + 4 * stateSize g p.below then none
    else
      let j := SMap.get 0 (m.ctx c).jAt (f % 4)
      let (a, n) := p.countsAt g k
      some ⟨s.fld (NIS_DMR_CFG c) NIS_DMR_CFG_thresh, s.fld (NIS_DMR_CFG c) NIS_DMR_CFG_max_reuse, p.halo,
        1 ≤ f && 1 ≤ j && (m.block c (f + 3)).psid = s.psid, f % 2, [], area, stateSize g p.below, hdrPitch g,
        stateLines g p.below, k * g.h + p.below, p.below, (m.bytes a n).map (·.toNat)⟩
  | _, _ => none

/-- The stripe header that a unit's input slot holds: its address. -/
def Module.headAt (m : Module) (c u : Nat) : Nat :=
  let g := m.stripes c
  (m.stripeView c u).base - 8 * g.bpp - g.a * g.pitch - 64

/-- Exposures of a context's HDR merge. -/
def Module.exposures (m : Module) (c : Nat) : Nat := max 1 (m.fld (NIS_HDR_CFG c) NIS_HDR_CFG_exposures)

/-- The history buffer `i` of a stage and its pitch (R124): denoise by parity, HDR input by slot. -/
def Module.histBuf (m : Module) (c : Nat) (pics : List PicPlan) (hb stage i : Nat) : Nat × Nat :=
  let g := m.stripes c
  let n := g.count * g.h
  let (b0, b1, _, _) := m.histMap c hb pics ParamSet.rest
  if stage = 10 then (b0 + i * up4k (n * dnPitch g hb), dnPitch g hb) else (b1 + i * up4k (n * hdrPitch g), hdrPitch g)

/-- The 256-byte argument block of a picture task (R122): the parameter view is the frame's parameter block, then the
package's own parameters (R115). -/
def Module.picArgs (m : Module) (c u : Nat) (pics : List PicPlan) (p : PicPlan) (hb : Nat) : List Byte :=
  let g := m.stripes c
  let f := u / max 1 g.count
  let k := u % max 1 g.count
  let src := m.picSource c u (pics.takeWhile (·.stage < p.stage))
  let dst := p.view g u
  let none_ : List Byte := leBytes 32 0
  let kh := k * g.h
  let n := g.count * g.h
  let seq := m.num (m.headAt c u) 4
  let hist := fun (rd : Bool) =>
    if p.stage = 10 then
      let (b, dn) := m.histBuf c pics hb 10 (if rd then (f + 1) % 2 else f % 2)
      viewBytes ⟨b + kh * dn, dn, 0, p.outFmt⟩ g.w g.h (if rd then min kh p.below else 0)
        (if rd then min p.below (n - kh - g.h) else 0)
    else if p.stage = 9 then
      let (b, hp) := m.histBuf c pics hb 9 (if rd then 0 else seq % m.exposures c)
      viewBytes ⟨b + kh * hp, hp, 0, src.fmt⟩ g.w g.h 0 0
    else none_
  let head := m.bytes (m.headAt c u) 64
  let gate := match m.gateOf c u pics p hb with
    | some t => viewBytes ⟨t.area + t.parity * t.size + t.line0 * t.pitch, t.pitch, 0, src.fmt⟩ g.w g.h p.below p.below
    | none => none_
  head ++ viewBytes src g.w g.h src.halo src.halo ++
    (if p.code.isEmpty then none_ else viewBytes dst g.w g.h p.below p.below) ++ hist true ++ hist false ++
    viewBytes ⟨p.params + f % 4 * p.paramLen, p.paramLen, 0, 0⟩ p.paramLen 1 0 0 ++ gate

/-! ### Edges (R109, R118) -/

/-- The PAD pixel in a working format. -/
def Module.padWords (m : Module) (c fmt : Nat) : List Byte :=
  let one := fun (v : Nat) => if fmt = 2 || fmt = 5 then leBytes 2 (floatStore 12 true (thresh32 v)).1 else leBytes 2 v
  let p := m.padPix c
  if 4 ≤ fmt then one p.g else one p.r ++ one p.g ++ one p.b ++ if fmt = 3 then leBytes 2 0 else one p.ir

/-- Row `y` of a picture as stage p's buffers hold it: in the stripe's own buffer, or in that of the stripe before. -/
def PicPlan.rowAt (p : PicPlan) (g : StripeGeom) (u : Nat) (y : Int) : Option Nat :=
  let k := u % max 1 g.count
  let at_ := fun (u : Nat) (kh : Int) =>
    if -(p.below : Int) ≤ y - kh ∧ y - kh < g.h + p.below then
      some (((p.base g u : Nat) : Int) + (y - kh) * p.pitch g).toNat
    else none
  match at_ u (k * g.h : Nat) with
  | some a => some a
  | none => if k = 0 then none else at_ (u + 1) ((k * g.h : Nat) - (g.h : Int))

/-- Rows of a stage's output outside the picture, and its margins, take the edge mode of its own output (R118). A row whose
mirror image neither stripe buffer holds stays as it is: nothing reads it. -/
def Module.edgeOut (m : Module) (c u : Nat) (p : PicPlan) : Module :=
  let g := m.stripes c
  let v := p.view g u
  let b := pixSize v.fmt
  let kh := u % max 1 g.count * g.h
  let line := fun (j : Int) => ((v.base : Int) + j * v.pitch).toNat
  let m := (List.range (g.h + 2 * v.halo)).foldl (fun m (i : Nat) =>
    let j : Int := (i : Int) - v.halo
    let y : Int := kh + j
    if 0 ≤ y ∧ y < g.lines then m
    else match edgeAt g.edge g.lines y with
      | some y' => match p.rowAt g u y' with
        | some a => m.write (line j) (m.bytes a (g.w * b))
        | none => m
      | none => if g.edge = 2 then m.write (line j) ((List.range g.w).flatMap fun _ => m.padWords c v.fmt) else m) m
  (List.range (g.h + 2 * v.halo)).foldl (fun m (i : Nat) =>
    let a := line ((i : Int) - v.halo)
    let px := fun (x : Int) => match edgeAt g.edge g.w x with
      | some x' => m.bytes (a + x' * b) b
      | none => m.padWords c v.fmt
    let left := (List.range 8).flatMap fun (q : Nat) => px ((q : Int) - 8)
    let right := (List.range 8).flatMap fun (q : Nat) => px ((g.w : Int) + q)
    (m.write (a - 8 * b) left).write (a + g.w * b) right) m

/-! ### Formatting (R121, R130 to R132) -/

/-- A number of a working format as a DISP value (R121); a NaN, for which the rule states no result, gives a free code
(DESIGN CHOICE, assumption log 84). -/
def dispOf (fmt v : Nat) : Nat :=
  if fmt = 2 || fmt = 5 then match elemVal 12 v with
    | .fin neg n e => if neg then 0 else (min 65535 (roundInt false (n * 65535) e)).toNat
    | .inf neg => if neg then 0 else 65535
    | .nan => Config.nanCode v % 65536
  else v

/-- An output: its window, scale, size, format, matrix, range, tensor type, layout and channels (R130 to R132). -/
structure OutGeom where
  x0 : Nat
  y0 : Nat
  sx : Nat
  sy : Nat
  wo : Nat
  ho : Nat
  fmt : Nat
  bt601 : Bool
  full : Bool
  ttype : Nat
  nchw : Bool
  chans : Nat

/-- The geometry of output k. -/
def Module.outGeom (m : Module) (c k : Nat) : OutGeom :=
  let f := m.fld (NIS_OUT_CFG c k)
  let g := m.stripes c
  let whole := f NIS_OUT_CFG_kind ≤ 1
  let sx := if f NIS_OUT_CFG_kind = 0 then 1 else 2 ^ f NIS_OUT_CFG_sx
  let sy := if f NIS_OUT_CFG_kind = 0 then 1 else 2 ^ f NIS_OUT_CFG_sy
  let w := if whole then g.w else m.fld (NIS_OUT_WIN_WH c k) NIS_OUT_WIN_WH_w
  let h := if whole then g.lines else m.fld (NIS_OUT_WIN_WH c k) NIS_OUT_WIN_WH_h
  ⟨if whole then 0 else m.fld (NIS_OUT_WIN_XY c k) NIS_OUT_WIN_XY_x0,
    if whole then 0 else m.fld (NIS_OUT_WIN_XY c k) NIS_OUT_WIN_XY_y0, sx, sy, w / sx, h / sy, f NIS_OUT_CFG_format,
    f NIS_OUT_CFG_matrix = 1, f NIS_OUT_CFG_range = 1, f NIS_OUT_CFG_t_type, f NIS_OUT_CFG_t_layout = 1,
    match f NIS_OUT_CFG_t_ch with | 0 => 3 | 1 => 4 | _ => 1⟩

/-- Element size of a tensor. -/
def OutGeom.elem (o : OutGeom) : Nat := if o.ttype ≤ 1 then 1 else 2

/-- The planes of an output: lines and pitch of each (R132). -/
def OutGeom.planes (o : OutGeom) : List (Nat × Nat) :=
  match o.fmt with
  | 0 => [(o.ho, up64 o.wo), (o.ho / 2, up64 o.wo)]
  | 1 => [(o.ho, up64 (2 * o.wo)), (o.ho / 2, up64 (2 * o.wo))]
  | 2 => [(o.ho, up64 (2 * o.wo))]
  | 3 => [(o.ho, up64 (4 * o.wo))]
  | 4 => [(o.ho, up64 (3 * o.wo))]
  | 5 => [(o.ho, up64 (4 * o.wo))]
  | _ => if o.nchw then List.replicate o.chans (o.ho, up64 (o.wo * o.elem))
    else [(o.ho, up64 (o.wo * o.chans * o.elem))]

/-- Bytes of an output frame slot: header and planes (R133). -/
def OutGeom.slotBytes (o : OutGeom) : Nat := 64 + (o.planes.map fun p => p.1 * p.2).sum

/-- Where a plane begins in its slot. -/
def OutGeom.planeAt (o : OutGeom) (i : Nat) : Nat := 64 + ((o.planes.take i).map fun p => p.1 * p.2).sum

/-- The output lines of stripe k: first and one past the last. -/
def OutGeom.lines (o : OutGeom) (g : StripeGeom) (k : Nat) : Nat × Nat :=
  let f := fun (y : Nat) => min o.ho ((y - o.y0 + o.sy - 1) / o.sy)
  (f (k * g.h), f (min (k * g.h + g.h) g.lines))

/-- FP32 constants of a matrix (R131): kr, 1 − kr − kb, kb, 2 (1 − kb), 2 (1 − kr), in 1e-4. -/
def OutGeom.kr (o : OutGeom) : Nat := if o.bt601 then 2990 else 2126
def OutGeom.kb (o : OutGeom) : Nat := if o.bt601 then 1140 else 722

/-- y, cb and cr of a pixel. -/
def OutGeom.yuv (o : OutGeom) (p : Word × Word × Word) : Word × Word × Word :=
  let k := fun n => ratio32 n 10000
  let y := fAdd (fAdd (fMul (k o.kr) p.1) (fMul (k (10000 - o.kr - o.kb)) p.2.1)) (fMul (k o.kb) p.2.2)
  (y, fDiv (fSub p.2.2 y) (k (2 * (10000 - o.kb))), fDiv (fSub p.1 y) (k (2 * (10000 - o.kr))))

/-- A code: off + gain × v, rounded half to even and clamped. -/
def codeOf (off gain top : Nat) (v : Word) : Nat :=
  match ofF32 (fAdd (ratio32 off 1) (fMul (ratio32 gain 1) v)) with
  | .fin neg n e => (max 0 (min (top : Int) (roundInt neg n e))).toNat
  | _ => 0

/-- Luma and chroma codes in 8 or 10 bits. -/
def OutGeom.yCode (o : OutGeom) (ten : Bool) (v : Word) : Nat :=
  if o.full then codeOf 0 (if ten then 1023 else 255) (if ten then 1023 else 255) v
  else codeOf (if ten then 64 else 16) (if ten then 876 else 219) (if ten then 1023 else 255) v
def OutGeom.cCode (o : OutGeom) (ten : Bool) (v : Word) : Nat :=
  if o.full then codeOf (if ten then 512 else 128) (if ten then 1023 else 255) (if ten then 1023 else 255) v
  else codeOf (if ten then 512 else 128) (if ten then 896 else 224) (if ten then 1023 else 255) v

/-- A code's bytes: one, or a word with the value in [15:6]. -/
def codeBytes (ten : Bool) (v : Nat) : List Byte := if ten then leBytes 2 (v * 64) else leBytes 1 v

/-- Channel i (R, G, B, IR) of pixel (x, line j of the stripe) as x = v / 65 535. -/
def Module.outPix (m : Module) (v : PicView) (x : Nat) (j : Nat) (i : Nat) : Word :=
  let a := v.base + j * v.pitch + x * pixSize v.fmt
  thresh32 (dispOf v.fmt (m.num (a + if 4 ≤ v.fmt then 0 else 2 * i) 2))

/-- A scaled output value: the mean of its box. -/
def Module.outBox (m : Module) (o : OutGeom) (v : PicView) (kh r cx i : Nat) : Word :=
  meanF ((List.range o.sy).flatMap fun dy => (List.range o.sx).map fun dx =>
    m.outPix v (o.x0 + cx * o.sx + dx) (o.y0 + r * o.sy + dy - kh) i)

/-- R, G and B of an output pixel. -/
def Module.outRgb (m : Module) (o : OutGeom) (v : PicView) (kh r cx : Nat) : Word × Word × Word :=
  (m.outBox o v kh r cx 0, m.outBox o v kh r cx 1, m.outBox o v kh r cx 2)

/-- A tensor element (R131). -/
def Module.tensorElem (m : Module) (o : OutGeom) (s : ParamSet) (c k : Nat) (v : PicView) (kh r cx ch : Nat) : List Byte :=
  let i := if o.chans = 1 then 1 else ch
  let off := match (if o.chans = 1 then 0 else ch) with
    | 0 => NIS_OUT_TQ0 c k | 1 => NIS_OUT_TQ1 c k | 2 => NIS_OUT_TQ2 c k | _ => NIS_OUT_TQ3 c k
  let x := if o.chans = 1 && v.fmt < 4 then (o.yuv (m.outRgb o v kh r cx)).1 else m.outBox o v kh r cx i
  let y := fAdd (fMul x (elemVal 12 (s.fld off NIS_OUT_TQ0_scale)).toF32)
    (ofInt (signedOf 16 (s.fld off NIS_OUT_TQ0_offset))).toF32
  match o.ttype with
  | 0 => leBytes 1 (twos 8 (quantise y f32one 0 (-128) 127).1)
  | 1 => leBytes 1 (twos 8 (quantise y f32one 0 0 255).1)
  | 2 => leBytes 2 (floatStore 12 true y).1
  | _ => leBytes 2 (floatStore 5 true y).1

/-- The bytes of output line r in plane i (R132). -/
def Module.outLine (m : Module) (o : OutGeom) (s : ParamSet) (c k : Nat) (v : PicView) (kh i r : Nat) : List Byte :=
  let yuv := fun r cx => o.yuv (m.outRgb o v kh r cx)
  let ten := o.fmt = 1 || o.fmt = 3
  if o.fmt ≤ 1 then
    if i = 0 then (List.range o.wo).flatMap fun cx => codeBytes ten (o.yCode ten (yuv r cx).1)
    else (List.range (o.wo / 2)).flatMap fun p =>
      let q := [yuv (2 * r) (2 * p), yuv (2 * r) (2 * p + 1), yuv (2 * r + 1) (2 * p), yuv (2 * r + 1) (2 * p + 1)]
      codeBytes ten (o.cCode ten (meanF (q.map (·.2.1)))) ++ codeBytes ten (o.cCode ten (meanF (q.map (·.2.2))))
  else if o.fmt ≤ 3 then (List.range (o.wo / 2)).flatMap fun p =>
    let a := yuv r (2 * p)
    let b := yuv r (2 * p + 1)
    codeBytes ten (o.yCode ten a.1) ++ codeBytes ten (o.cCode ten (meanF [a.2.1, b.2.1])) ++
      codeBytes ten (o.yCode ten b.1) ++ codeBytes ten (o.cCode ten (meanF [a.2.2, b.2.2]))
  else if o.fmt = 4 then (List.range o.wo).flatMap fun cx => (List.range 3).flatMap fun ch =>
    leBytes 1 (codeOf 0 255 255 (m.outBox o v kh r cx ch))
  else if o.fmt = 5 then (List.range o.wo).flatMap fun cx =>
    let q := fun ch => codeOf 0 1023 1023 (m.outBox o v kh r cx ch)
    leBytes 4 (q 0 + 1024 * q 1 + 1048576 * q 2)
  else if o.nchw then (List.range o.wo).flatMap fun cx => m.tensorElem o s c k v kh r cx i
  else (List.range o.wo).flatMap fun cx => (List.range o.chans).flatMap fun ch => m.tensorElem o s c k v kh r cx ch

/-- Write the output lines of a stripe into the planes of a slot. -/
def Module.outLines (m : Module) (o : OutGeom) (s : ParamSet) (c k : Nat) (v : PicView) (g : StripeGeom) (st slot : Nat) :
    Module :=
  let (r0, r1) := o.lines g st
  (List.range o.planes.length).foldl (fun m i =>
    let pitch := ((o.planes[i]?).getD (0, 0)).2
    let half := o.fmt ≤ 1 && i = 1
    let lo := if half then r0 / 2 else r0
    let hi := if half then r1 / 2 else r1
    (List.range (hi - lo)).foldl (fun m j =>
      m.write (slot + o.planeAt i + (lo + j) * pitch) (m.outLine o s c k v (st * g.h) i (lo + j))) m) m

/-! ### Slots, headers and copies (R133 to R135, R425) -/

/-- Rewrite an output slot's header with a stripe (R133): the input stripe's header, the lines written so far, the flags
and the reused rows merged. -/
def Module.outHeader (m : Module) (c : Nat) (o : OutGeom) (g : StripeGeom) (slot st : Nat) (head : List Byte)
    (flags reused : Nat) : Module :=
  let seq := fieldAt head 0 4
  let old := st ≠ 0 && m.num slot 4 = seq
  let fl := fieldAt head 14 2 ||| flags ||| (if old then m.num (slot + 14) 2 else 0)
  let n := reused + if old then m.num (slot + 20) 4 else 0
  let stamp : Stamp := ⟨fieldAt head 36 1 % 2 = 1, fieldAt head 24 6, BitVec.ofNat 32 (fieldAt head 32 4)⟩
  let _ := c
  m.write slot (headerBytes ⟨BitVec.ofNat 32 seq, st, (o.lines g st).2, BitVec.ofNat 32 (fieldAt head 8 4),
    fieldAt head 12 2, fl, BitVec.ofNat 32 (fieldAt head 16 4), n, stamp⟩)

/-- A copy descriptor of the plan. -/
def planDesc (src dst n rows : Nat) (sp dp : Int) : Desc :=
  { op := 0, wait := false, signal := false, complete := false, last := true, waitObj := 0, waitThr := 0, src := src,
    pattern := 0, dst := dst, rowBytes := n, rows := rows, srcPitch := sp, dstPitch := dp, waitTimeout := 0, sigObj := 0,
    next := 0, tag := 0 }

/-- Queue a move on one of a stream's channels and start it when the channel is at rest. -/
def Module.planMove (m : Module) (s : Stream) (i : Nat) (mv : PlanMove) (d : Desc) : Module :=
  match s.plan.channels[i % max 1 s.plan.channels.length]? with
  | none => m
  | some ch =>
    { m with planMoves := m.planMoves ++ [PlanJob.mk (BitVec.ofNat 6 ch).toFin mv d] }.planNext ch

/-- Send an output stripe as AVTP frames, a line each, by a descriptor of op 2 (R134, R330, R425, R426). -/
def Module.avtpStripe (m : Module) (c : PortId) (k : Fin 4) (s : Stream) (o : OutGeom) (g : StripeGeom) (slot st : Nat)
    (head : List Byte) : Module :=
  let (r0, r1) := o.lines g st
  let pitch := ((o.planes[0]?).getD (0, 0)).2
  let width := match o.fmt with | 0 => o.wo | 2 => 2 * o.wo | 3 => 4 * o.wo | _ => 3 * o.wo
  let stamp := BitVec.ofNat 32 (fieldAt head 24 6 * 1000000000 + fieldAt head 32 4) + m.rd (NET_TLK_PRES (4 * c.val + k.val))
  let x : AvtpMove := ⟨c, k, r0, o.wo, o.ho, o.fmt, fieldAt head 36 1 % 2 = 1, stamp, slot + o.planeAt 1,
    if o.fmt = 0 then width / 2 else 0, pitch⟩
  if r1 ≤ r0 then m
  else m.planMove s k.val (.avtp x) { planDesc (slot + 64 + r0 * pitch) 0 width (r1 - r0) pitch 0 with op := 2 }

/-- The aperture of the local window that a binding handle names (R24). -/
def Module.apertureOf (m : Module) (h : Word) : Nat := windowBase + ((m.windowOf h).getD (h.toNat % 64)) * 0x40000000

/-- Copy an output stripe and its header to the remote buffer of the same layout, unless the destination is suspended
(R134, R135). -/
def Module.windowStripe (m : Module) (c : PortId) (k : Fin 4) (s : Stream) (o : OutGeom) (g : StripeGeom)
    (base slot st : Nat) (f : Word) : Module :=
  let stat := NIS_OUT_STAT c.val k.val
  if m.bit stat NIS_OUT_STAT_window_halted then m.satAdd stat NIS_OUT_STAT_dest_dropped 1
  else
    let w := m.apertureOf (m.rd (NIS_OUT_NET c.val k.val))
    let mv := PlanMove.output c k f st
    let (r0, r1) := o.lines g st
    let m := (List.range o.planes.length).foldl (fun m i =>
      let pitch := ((o.planes[i]?).getD (0, 0)).2
      let half := o.fmt ≤ 1 && i = 1
      let lo := if half then r0 / 2 else r0
      let hi := if half then r1 / 2 else r1
      let a := slot + o.planeAt i + lo * pitch
      if hi ≤ lo then m else m.planMove s k.val mv (planDesc a (w + (a - base)) pitch (hi - lo) pitch pitch)) m
    m.planMove s k.val mv (planDesc slot (w + (slot - base)) 64 1 64 64)

/-- Output k after the last picture stage of a stripe: lines, header, object, further destinations (R133, R134); a
missed stripe keeps what its slot held (R272). -/
def Module.outStripe (m : Module) (c : PortId) (k : Fin 4) (s : Stream) (v : PicView) (u : Nat) (head : List Byte)
    (flags reused : Nat) (missed : Bool) : Module :=
  if !m.bit (NIS_OUT_CFG c.val k.val) NIS_OUT_CFG_en then m
  else
    let g := m.stripes c.val
    let o := m.outGeom c.val k.val
    let st := u % max 1 g.count
    let f := u / max 1 g.count
    let base := ((m.region? (m.rd (NIS_OUT_REGION c.val k.val))).map (·.base)).getD 0
    let slot := base + f % max 1 (m.fld (NIS_OUT_CFG c.val k.val) NIS_OUT_CFG_slots) * o.slotBytes
    let m := if missed then m else
      (m.outLines o (m.block c.val f) c.val k.val v g st slot).outHeader c.val o g slot st head flags reused
    let dest := NIS_OUT_DEST c.val k.val
    let m := if !m.bit dest NIS_OUT_DEST_per_frame || st + 1 = g.count then
        m.addSync (m.fld dest NIS_OUT_DEST_sync_obj) 1
      else m
    let m := if m.bit dest NIS_OUT_DEST_avtp then m.avtpStripe c k s o g slot st head else m
    if m.bit dest NIS_OUT_DEST_window then m.windowStripe c k s o g base slot st (BitVec.ofNat 32 f) else m

/-- Every output of a stripe. -/
def Module.outputs (m : Module) (c : PortId) (s : Stream) (v : PicView) (u : Nat) (head : List Byte)
    (flags reused : Nat) (missed : Bool) : Module :=
  (List.finRange 4).foldl (fun m k => m.outStripe c k s v u head flags reused missed) m

end Sys2Proof.Machine
end

