-- ==== Sys2Proof/Machine/Resident.lean ====
section
/-!
DEFINITION. What the resident picture stages write (04_neural_picture_stages R120): the formulas around their networks. What
a network forms is a free function of what the stage reads (assumption log 79). The values stand in the stage's output view
when its task ends.
-/
namespace Sys2Proof.Machine

/-- What a resident stage works on: its input and output views, the unit's frame and stripe, the frame's set, history count
and sequence number, and the stage's history. -/
structure ResIn where
  c : Nat
  g : StripeGeom
  p : PicPlan
  u : Nat
  src : PicView
  set : ParamSet
  j : Nat
  seq : Nat
  pics : List PicPlan
  hb : Nat

/-- The first picture line of the unit's stripe. -/
def ResIn.kh (r : ResIn) : Nat := r.u % max 1 r.g.count * r.g.h
def ResIn.frame (r : ResIn) : Nat := r.u / max 1 r.g.count

/-- Channels of a pixel of a working format. -/
def channels (f : Nat) : Nat := if 4 ≤ f then 1 else 4

/-- Channel i of pixel x in row y (from the stripe's first line) of a view. -/
def Module.pixAt (m : Module) (v : PicView) (y : Int) (x i : Nat) : Nat :=
  m.num ((v.base : Int) + y * v.pitch + (x * pixSize v.fmt + 2 * i : Nat)).toNat 2

/-- Where row y of a view lies with its margins, and its bytes. -/
def PicView.row (v : PicView) (w : Nat) (y : Int) : Nat × Nat :=
  (((v.base : Int) + y * v.pitch - (8 * pixSize v.fmt : Nat)).toNat, (w + 16) * pixSize v.fmt)

/-- What a stage reads of its input for output row y: the rows within its halo, with their margins (R117, R118, R128). -/
def Module.rowData (m : Module) (r : ResIn) (y : Int) : List Byte :=
  (List.range (2 * r.p.halo + 1)).flatMap fun (i : Nat) =>
    let (a, n) := r.src.row r.g.w (y + (i : Int) - r.p.halo)
    m.bytes a n

/-- The rows of a history buffer that lie in the stripe. -/
def Module.histSpans (m : Module) (r : ResIn) (i bpp : Nat) : List (Nat × Nat) :=
  let (b, pitch) := m.histBuf r.c r.pics r.hb r.p.stage i
  (List.range r.g.h).map fun y => (b + (r.kh + y) * pitch, r.g.w * bpp)

/-- The memory that a resident stage reads for a unit: its input with halo and margins, and its history. -/
def Module.residentReads (m : Module) (r : ResIn) : List (Nat × Nat) :=
  ((List.range (r.g.h + 2 * r.src.halo)).map fun (i : Nat) => r.src.row r.g.w ((i : Int) - r.src.halo)) ++
    match r.p.stage with
    | 9 => (List.range (m.exposures r.c)).flatMap fun i => m.histSpans r i (pixSize r.src.fmt)
    | 10 => m.histSpans r ((r.frame + 1) % 2) (pixSize r.p.outFmt)
    | _ => []

/-- Residual demosaic: in + ((res × strength + 64) >> 7), clamped. -/
def residualOut (input strength : Nat) (res : Int) : Nat :=
  (max 0 (min 65535 ((input : Int) + Int.fdiv (res * strength + 64) 128))).toNat

/-- A value of exposure i in the units of exposure 0, in 1/256: its ratio is 8.8. -/
def hdrScaled (v ratio : Nat) : Nat := v * ratio

/-- The exposure index of a frame, and the ratio of an index in a set. -/
def hdrIndex (seq phase e : Nat) : Nat := (seq + phase) % max 1 e
def ParamSet.hdrRatio (s : ParamSet) (c i : Nat) : Nat :=
  match i with
  | 0 => 256
  | 1 => s.fld (NIS_HDR_RATIO c) NIS_HDR_RATIO_ratio1
  | _ => s.fld (NIS_HDR_RATIO c) NIS_HDR_RATIO_ratio2

/-- The smaller of two FP32 weights. -/
def minF (a b : Word) : Word := if (ofF32 a).lt (ofF32 b) then a else b

/-- Denoise: the weight w′ of the history: at most (w_max / 256) × min(j, K) / K. -/
def denoiseWeight (w : Word) (wmax j k : Nat) : Word := minF w (ratio32 (wmax * min j k) (256 * max 1 k))

/-- Denoise: (1 − w′) × s + w′ × hist; a weight of 0 keeps the history out (R126). -/
def denoiseOut (w s hist : Word) : Word :=
  if w &&& 0x7FFFFFFF = 0 then s else fAdd (fMul (fSub f32one w) s) (fMul w hist)

/-! Tone curves: from a value and to a code in 1/65 535, to the nearest code (assumption log 79). -/

/-- The largest code k for which (a k / b)^p ≤ (v / 65 535)^q: `a k` rises with k. -/
def rootCode (a : Nat → Int) (b p q v : Nat) : Nat :=
  ((List.range 16).map (15 - ·)).foldl (fun k i =>
    let t := k + 2 ^ i
    if t ≤ 65535 ∧ (0 < a t → (a t).toNat ^ p * 65535 ^ q ≤ v ^ q * b ^ p) then t else k) 0

/-- The BT.709 OETF: 4.5 L below 0.018, then 1.099 L^0.45 − 0.099. -/
def oetf709 (v : Nat) : Nat :=
  if 1000 * v < 18 * 65535 then (9 * v + 1) / 2
  else min 65535 (rootCode (fun k => (2 * (k : Int) - 1) * 1000 + 99 * 131070) (1099 * 131070) 20 9 v)

/-- The sRGB transfer function: 12.92 L up to 0.0031308, then 1.055 L^(1/2.4) − 0.055. -/
def oetfSrgb (v : Nat) : Nat :=
  if 10000000 * v ≤ 31308 * 65535 then (2 * 1292 * v + 100) / 200
  else min 65535 (rootCode (fun k => (2 * (k : Int) - 1) * 1000 + 55 * 131070) (1055 * 131070) 12 5 v)

/-- Point i of the tone table of a set (R137): the even point in [15:0]. -/
def ParamSet.tonePoint (s : ParamSet) (i : Nat) : Nat := (SMap.get 0 s.tone (i / 2)).toNat / (if i % 2 = 0 then 1 else 65536) % 65536

/-- The 257-point table with linear interpolation: the points lie evenly over 0 to 65 535. -/
def ParamSet.toneTable (s : ParamSet) (v : Nat) : Nat :=
  let t := v * 256
  let i := t / 65535
  let a : Int := s.tonePoint i
  let b : Int := s.tonePoint (min 256 (i + 1))
  (a + Int.fdiv (2 * (b - a) * (t % 65535 : Nat) + 65535) (2 * 65535)).toNat

/-- The curve that NIS_TONE_CFG.curve names. -/
def ParamSet.toneCurve (s : ParamSet) (c v : Nat) : Nat :=
  match s.fld (NIS_TONE_CFG c) NIS_TONE_CFG_curve with
  | 0 => oetf709 v
  | 1 => oetfSrgb v
  | _ => s.toneTable v

/-- Tone: the local gain, the clip at 1.0, the curve; a NaN gives a free code (DESIGN CHOICE, assumption log 84). -/
def ParamSet.toneOut (s : ParamSet) (c : Nat) (gain x : Word) : Nat :=
  s.toneCurve c (min 65535 (match ofF32 (fMul gain x) with
    | .fin neg n e => if neg then 0 else (roundInt false (n * 65535) e).toNat
    | .inf neg => if neg then 0 else 65535
    | .nan => Config.nanCode (fMul gain x).toNat))

/-- A value of a working format as FP32, 1.0 full scale. -/
def valueOf (fmt v : Nat) : Word := if fmt = 2 || fmt = 5 then (elemVal 12 v).toF32 else thresh32 v

/-- An FP32 value as FP16. -/
def halfOf (v : Word) : Nat := (floatStore 12 true v).1

/-- The frames that HDR merge takes for a stripe: exposure index and where row 0 of the stripe lies, the current frame
first; an exposure whose frame the history does not hold is left out. -/
def Module.mergeInputs (m : Module) (r : ResIn) : List (Nat × PicView) :=
  let e := m.exposures r.c
  let phase := m.fld (NIS_HDR_CFG r.c) NIS_HDR_CFG_phase
  (hdrIndex r.seq phase e, r.src) :: (List.range (e - 1)).filterMap fun i =>
    let q := (r.seq + 2 ^ 32 - (i + 1)) % 2 ^ 32
    if SMap.get 0 (m.ctx r.c).hdrHeld (q % e) = q + 1 then
      let (b, pitch) := m.histBuf r.c r.pics r.hb 9 (q % e)
      some (hdrIndex q phase e, ⟨b + r.kh * pitch, pitch, 0, r.src.fmt⟩)
    else none

/-- Output channel ch of pixel x in row y of the stripe (R120). -/
def Module.residentValue (m : Module) (r : ResIn) (data hist : List Byte) (y : Int) (x ch : Nat) : Nat :=
  let row := (y + r.p.below).toNat
  let s := r.set
  match r.p.stage with
  | 8 =>
    if ch = 3 && m.fld (CAP_PORT_CFG r.c) CAP_PORT_CFG_mosaic ≠ 4 then 0
    else residualOut (m.pixAt r.src y x ch) (s.fld (NIS_DMS_CFG r.c) NIS_DMS_CFG_strength)
      (Config.netResidual data row x ch)
  | 9 =>
    let l := (m.mergeInputs r).map fun e => (e.1, (List.range (r.g.w * channels r.src.fmt)).map fun i =>
      hdrScaled (m.pixAt e.2 y (i / channels r.src.fmt) (i % channels r.src.fmt)) (s.hdrRatio r.c e.1))
    halfOf (Config.netMerge l row x ch)
  | 10 =>
    let (b, pitch) := m.histBuf r.c r.pics r.hb 10 ((r.frame + 1) % 2)
    let w := denoiseWeight (Config.netWeight data hist row x) (s.fld (NIS_DN_CFG r.c) NIS_DN_CFG_w_max) r.j
      (m.fld (NIS_DN_CFG r.c) NIS_DN_CFG_warm_frames)
    halfOf (denoiseOut w (Config.netSpatial (s.fld (NIS_DN_CFG r.c) NIS_DN_CFG_spatial) data row x ch)
      (valueOf 2 (m.pixAt ⟨b + r.kh * pitch, pitch, 0, r.p.outFmt⟩ y x ch)))
  | _ =>
    if ch = 3 then 0
    else s.toneOut r.c (Config.netGain (s.fld (NIS_TONE_CFG r.c) NIS_TONE_CFG_local) data row x)
      (valueOf r.src.fmt (m.pixAt r.src y x ch))

/-- Row y of a resident stage's output. -/
def Module.residentRow (m : Module) (r : ResIn) (hist : List Byte) (y : Int) : List Byte :=
  let data := m.rowData r y
  (List.range r.g.w).flatMap fun x => (List.range (channels r.p.outFmt)).flatMap fun ch =>
    leBytes 2 (m.residentValue r data hist y x ch)

/-- What a resident stage leaves in its history: HDR merge its input in the slot of its sequence number, denoise its output
in the buffer of its parity (R120, R124). -/
def Module.residentHistory (m : Module) (r : ResIn) (v : PicView) (slot : Nat) : Module :=
  let (b, pitch) := m.histBuf r.c r.pics r.hb r.p.stage slot
  (List.range (min r.g.h (r.g.lines - r.kh))).foldl (fun m y =>
    m.write (b + (r.kh + y) * pitch) (m.bytes (v.base + y * v.pitch) (r.g.w * pixSize v.fmt))) m

/-- The output rows of a unit that lie inside the picture. -/
def ResIn.rows (r : ResIn) : List Int :=
  ((List.range (r.g.h + 2 * r.p.below)).map fun (i : Nat) => (i : Int) - r.p.below).filter fun y =>
    0 ≤ (r.kh : Int) + y && (r.kh : Int) + y < r.g.lines

/-- The current input rows of a gated unit go to the input-state buffer of the frame's parity (R186). -/
def Module.keepInput (m : Module) (r : ResIn) (t : GateTask) : Module :=
  (List.range (r.g.h + 2 * r.src.halo)).foldl (fun m (i : Nat) =>
    let y := (i : Int) - r.src.halo
    match t.at_ t.parity y with
    | some a => m.write a (m.bytes ((r.src.base : Int) + y * r.src.pitch).toNat (r.g.w * pixSize r.src.fmt))
    | none => m) m

/-- The gate of a resident stage (R127, R186, R187): every output row of the unit that its program has not decided is
compared, on the argument block at `args`; the reused ones are copied, and the input is kept for the next frame. The gate
with all rows decided. -/
def Module.residentGate (m : Module) (r : ResIn) (args : Nat) (t : GateTask) : GateTask × Module :=
  let open_ := r.rows.filter fun y => !t.rows.any (·.1 = y)
  let t' := { t with rows := t.rows ++ open_.map fun y => (y, m.gateReuse args t y) }
  let m := (open_.filter fun y => t'.rows.contains (y, true)).foldl (fun m y =>
    (m.reuseRow args t y).foldl (fun m x => m.write x.1 x.2) m) m
  (t', m.keepInput r t)

/-- The output of a resident stage for a unit (R120): every row inside the picture that its task has computed; a reused row
stays as it was copied (R127). A gated stage's rows go to its output-state buffer too (R187). -/
def Module.residentOut (m : Module) (r : ResIn) (gate : Option GateTask) : Module :=
  let dst := r.p.view r.g r.u
  let hist := if r.p.stage = 10 then
      (m.histSpans r ((r.frame + 1) % 2) (pixSize r.p.outFmt)).flatMap fun x => m.bytes x.1 x.2
    else []
  let rows := r.rows.filter fun y => !((gate.map fun t => t.rows.contains (y, true)).getD false)
  let out := rows.map fun y => (y, m.residentRow r hist y)
  let m := out.foldl (fun m e =>
    let m := m.write ((dst.base : Int) + e.1 * dst.pitch).toNat e.2
    match gate.bind fun t => t.at_ (2 + t.parity) e.1 with
    | some a => m.write a e.2
    | none => m) m
  match r.p.stage with
  | 9 => m.residentHistory r r.src (r.seq % m.exposures r.c)
  | 10 => m.residentHistory r dst (r.frame % 2)
  | _ => m

end Sys2Proof.Machine
end

