-- ==== Sys2Proof/Machine/Tasks.lean ====
section
/-!
DEFINITION. The life of a task (07_engine_programs R194, R202, R236; 08_streaming_tiling R255 to R275;
06_engines_arithmetic R162 to R164, R189, R190; 17_boot_reset_faults R502 to R505): starts, completions with their plan
signals, aborts, re-runs and reports, resident sets and rotation groups, the cluster's map and its spare.
-/
namespace Sys2Proof.Machine

/-! ### Starting (R194, R236, R274) -/

/-- What a task is started with. -/
structure TaskStart where
  ref : TaskRef
  args : Nat
  code : List Nat
  aps : List (List ApEntry)
  start : Nat
  sync : List Nat
  access : List (Nat × Nat × Bool)
  resBase : Nat
  variant : Nat
  shapes : List (Nat × Nat × Nat)
  gate : Option GateTask
  skip : Nat
  rerun : Bool
  /-- The template's use of the resident area (R211). -/
  resUse : Nat

/-- The SHAPE_EXCEEDS_PLAN abort (R236). -/
def abShape : Abort := ⟨stShapeExceedsPlan, efShape, false⟩

/-- The engine state of a task at its start (R194). -/
def EngTask.begin (x : TaskStart) : EngTask :=
  let none_ : Bank := ⟨0, 0, 0, [], []⟩
  { ref := x.ref, args := x.args, code := x.code, aps := x.aps, sync := x.sync, access := x.access, resBase := x.resBase
    variant := x.variant, exec := WalkerSt.begin x.start, badger := WalkerSt.begin x.start, qa := [], qb := [], qx := []
    res := [], resCnt := [], keepF := none, keepV := none, keepW := none, acc := [], ra := [], rb := [], tables := []
    bank0 := none_, bank1 := none_, blocks := [], filled := 0, readBank := 1, writes := [], issued := 0, sigs := 0
    skip := x.skip, gate := x.gate, decisions := [], rerun := x.rerun, abort := none, late := none, cancelled := 0
    gateRes := [], resUse := x.resUse, idle := false, lib := none }

/-- A task that runs no instruction of its variant (R236, R274). -/
def EngTask.noOp (t : EngTask) : EngTask :=
  { t with exec := { t.exec with ended := true }, badger := { t.badger with ended := true }, idle := true }

/-- Start a task on a position: the shape check, then both walkers (R194, R236). -/
def Module.beginTask (m : Module) (e : EngPos) (x : TaskStart) : Module :=
  let t := EngTask.begin x
  let (bad, m) := m.engReads e (x.shapes.map fun s => (x.args + s.1, s.2.1))
  let vals := m.shapeVals x.args x.shapes
  let zero := vals.any (· = 0) || x.code.isEmpty
  let exceeds := (vals.zip x.shapes).any fun p => p.2.2.2 < p.1
  let m := (m.setEng e { m.eng e with task := some (if zero then t.noOp else t), assigned := none }).setEngState e 2
  if bad then m.abortTask e abPoison else if !zero && exceeds then m.abortTask e abShape else m

/-- The mode in which position tests run (R163): ASSURED or COOL. -/
def Module.tests (m : Module) : Bool := m.mode ≠ 1

/-- A position may take a task: powered, past its power-on sweep, idle, not halted by debug (R165, R451, R479). -/
def Module.free (m : Module) (e : EngPos) : Bool :=
  m.power = 3 && m.engOn e.cl e.x && m.bit (ENG_X_ST e.cl e.x) ENG_X_ST_last_ok && m.engState e = 1 && (m.eng e).task.isNone && !m.engHalted.contains (posKey e)

/-! ### What a plan waits for (R116 to R125, R262) -/

/-- Stripes of a frame. -/
def Module.perFrame (m : Module) (c : Nat) : Nat := max 1 (m.stripes c).count

/-- Units that a stage has completed. -/
def Ctx.unitsEnded (x : Ctx) (stage : Nat) : Nat := (SMap.get (0, []) x.ended stage).1

/-- The stripes with picture work done: those of the last picture stage. -/
def Module.pictureDone (m : Module) (c : Nat) (s : Stream) (n : Nat) : Bool :=
  match s.plan.pics.getLast? with
  | none => true
  | some p => n ≤ (m.ctx c).unitsEnded p.stage

/-- Capture has signalled n stripes since the stream's first frame (R110). -/
def Module.stripesReady (m : Module) (c n : Nat) : Bool :=
  meets (m.sync (m.fld (NIS_IN_SYNC c) NIS_IN_SYNC_stripe_obj)) (BitVec.ofNat 32 n)

/-- The waits of unit u of analysis stage i are met: of the first stage, the input stripes and the outputs made from
them; of a later stage, its hand-over object (R262). -/
def Module.analysisReady (m : Module) (c : Nat) (s : Stream) (i u : Nat) : Bool :=
  let sp := m.perFrame c
  match s.setup.stages[i]? with
  | none => false
  | some st =>
    if i = 0 then
      let n := if st.frameUnit then (u + 1) * sp else u + 1
      m.stripesReady c n && m.pictureDone c s n
    else match s.setup.stages[i - 1]? with
      | none => false
      | some pr =>
        let n := match pr.frameUnit, st.frameUnit with
          | false, true => (u + 1) * sp
          | true, false => u / sp + 1
          | _, _ => u + 1
        meets (m.sync ((s.setup.handover[i - 1]?).getD 0)) (BitVec.ofNat 32 (n * pr.tasks))

/-- The waits of unit u of a picture stage are met: its stripe, the stage before, and, where history is kept, every task
of the frame before (R125). -/
def Module.pictureReady (m : Module) (c : Nat) (s : Stream) (p : PicPlan) (u : Nat) : Bool :=
  let before := (s.plan.pics.takeWhile (·.stage < p.stage)).getLast?
  let hist := s.plan.pics.any fun q => q.stage = 9 || q.stage = 10
  m.stripesReady c (u + 1) && (match before with
    | none => true
    | some q => u + 1 ≤ (m.ctx c).unitsEnded q.stage) &&
  (!hist || m.pictureDone c s (u / m.perFrame c * m.perFrame c))

/-- Task idx of unit u is the next that the plan starts of a stage with n tasks per unit: the state after it, if so. -/
def Ctx.startTask (x : Ctx) (stage n u idx : Nat) : Option Ctx :=
  let (v, l) := SMap.get (0, []) x.started stage
  if u ≠ v || n ≤ idx || l.contains idx then none
  else
    let l := l ++ [idx]
    some { x with started := SMap.set (0, []) x.started stage (if n ≤ l.length then (v + 1, []) else (v, l)) }

/-! ### Resident sets and rotation groups (R255 to R259) -/

/-- Exchanges of a rotation group so far. -/
def Ctx.exchanges (x : Ctx) (stage : Nat) : Nat := (SMap.get (0, []) x.ended (64 + stage)).1

/-- The share that member k of a stage's group holds now (R258): share 0 outside a group. -/
def Module.shareNow (m : Module) (c stage : Nat) (p : StagePlan) (k : Nat) : Nat :=
  if p.group ≤ 1 then 0 else (k + (m.ctx c).exchanges stage) % p.group

/-- The position holds the stage's resident set with this share. -/
def Eng.holds (x : Eng) (c stage share : Nat) : Bool := x.sets.any fun r => r.c = c && r.stage = stage && r.share = share

/-- The first RES index of a stage's resident set on its engine k (R255). -/
def StagePlan.resAt (p : StagePlan) (k : Nat) : Nat := (p.resFirst[k % max 1 p.resFirst.length]?).getD 0

/-- The place of a logical engine in a stage's list. -/
def StagePlan.member (p : StagePlan) (cl n : Nat) : Option Nat := p.engines.findIdx? (· = 17 * cl + n)

/-- The task that is placed on a position is a job's that uses the resident area (R257). -/
def Module.areaTaken (m : Module) (x : Eng) : Bool :=
  match x.assigned with
  | some (.job id i _, _) => match (m.jobs.find? (·.id = id)).bind (·.stages[i]?) with
    | some st => match m.package? st.package with
      | some p => (m.template p.addr st.template).res ≠ 0
      | none => false
    | none => false
  | _ => false

/-- RESIDENT_SET_LOAD (R256): the hub loads the set, or the share, from the loaded package; not beside a job's task that uses
the resident area (R257). A bad word of the package leaves the set out: its task waits (R293, R294, R321; assumption log
88). -/
def residentSetLoad (cl : Fin 8) (logical : Fin 17) (c : PortId) (stage : Fin 12) (m : Module) : Module :=
  match m.streams.find? c.val, m.posOf cl logical with
  | some s, some e =>
    match s.plan.stageOf stage.val with
    | none => m
    | some p => match p.member cl logical with
      | none => m
      | some k =>
        let share := m.shareNow c stage p k
        let x := m.eng e
        if p.resBytes = 0 || x.task.isSome || x.holds c stage share || !m.engOn e.cl e.x || m.areaTaken x then m
        else
          let l := x.sets.filter fun r => !(r.c = c.val && r.stage = stage.val)
          let (bad, m) := m.readMeets 1 (p.resFrom + share * p.resBytes) p.resBytes
          let b := m.bytes (p.resFrom + share * p.resBytes) p.resBytes
          if bad then m else m.setEng e { x with sets := l ++ [ResSet.mk c stage share (p.resAt k) b] }
  | _, _ => m

/-- Step s of a unit has ended on every member (R259). -/
def stepEnded (r steps : Nat) (codes : List Nat) (u : Nat) : Bool :=
  (List.range r).all fun k => codes.contains (u * (r * r) + steps * r + k)

/-- ROTATION_GROUP_EXCHANGE (R259): every member of the group has ended its step; each share goes to the member before. -/
def rotationGroupExchange (c : PortId) (stage : Fin 8) (m : Module) : Module :=
  match m.streams.find? c.val with
  | none => m
  | some s => match s.plan.stages[stage.val]? with
    | none => m
    | some p =>
      let x := m.ctx c
      let n := x.exchanges stage
      let (u, codes) := SMap.get (0, []) x.ended stage.val
      let unit := n / max 1 p.group
      let step := n % max 1 p.group
      if p.group < 2 || !(unit < u || unit = u && stepEnded p.group step codes u) then m
      else
        let pos := p.engines.map fun q => m.posOf (BitVec.ofNat 3 (q / 17)).toFin (q % 17)
        let sets := pos.map fun o => match o with
          | some e => (m.eng e).sets.find? fun r => r.c = c.val && r.stage = stage.val
          | none => none
        let m := (List.range p.group).foldl (fun m k =>
          match (pos[k]?).getD none, (sets[(k + 1) % p.group]?).getD none with
          | some e, some r =>
            let y := m.eng e
            let others := y.sets.filter fun q => !(q.c = c.val && q.stage = stage.val)
            m.setEng e { y with sets := others ++ [{ r with first := p.resAt k }] }
          | _, _ => m) m
        m.setCtx c { m.ctx c with ended := SMap.set (0, []) x.ended (64 + stage.val) (n + 1, []) }

/-! ### TASK_START -/

/-- The access set that a stage entry gives (R264, R347): regions and, for a job, bound windows; then the package. -/
def Module.stageAccess (m : Module) (st : StageSetup) : List (Nat × Nat × Bool) :=
  let mem := (List.range 4).filterMap fun i =>
    let h := (st.access[i]?).getD 0
    let wr := st.writable.testBit i
    if h = 0 then none
    else if st.writable.testBit (4 + i) then
      (m.windowOf h).bind fun w => (m.binding? w).map fun b => (windowBase + w * 0x40000000, b.size, wr)
    else (m.region? h).map fun r => (r.base, r.size, wr)
  mem ++ ((m.package? st.package).map fun p => (p.addr, p.size, false)).toList

/-- The argument block of a task of an analysis stage (R348). -/
def Module.stageArgs (m : Module) (st : StageSetup) (u idx : Nat) : Nat :=
  ((m.region? st.argsRegion).map (·.base)).getD 0 + st.argsOffset
    + (u % max 1 st.argsSlots * st.tasks + idx) * 256

/-- Denoise history bytes per pixel (R124): 8 for the resident stage, otherwise as the user package declares. -/
def Module.histBytes (m : Module) (c : Nat) : Nat :=
  if m.fld (NIS_STAGE_SEL c) NIS_STAGE_SEL_denoise ≠ 2 then 8
  else match m.package? (m.rd (NIS_USER_PKG c 2)) with
    | none => 8
    | some p => (m.stageDecl p.addr (m.template p.addr 0).decl).hist

/-- What a picture task may use (R122 to R124): the stripes, the history, the plan's buffers and argument block, its
package. -/
def Module.pictureAccess (m : Module) (c : Nat) (s : Stream) (p : PicPlan) : List (Nat × Nat × Bool) :=
  let g := m.stripes c
  let reg := fun (h : Word) (w : Bool) => ((m.region? h).map fun r => (r.base, r.size, w)).toList
  reg (m.rd (NIS_IN_REGION c)) false ++ reg (m.rd (NIS_HIST_REGION c)) true ++
    s.plan.pics.map (fun q => (q.buf, 2 * q.size g, decide (q.stage = p.stage))) ++ [(p.args, 256 + 4 * p.paramLen, false)] ++
    ((m.package? (m.rd (NIS_USER_PKG c (p.stage - 8)))).map fun k => (k.addr, k.size, false)).toList

/-- The shape entries of a stage's template for an argument block of a stream: the plan that a value must not exceed is the
value that the block held at admission (R274). -/
def StagePlan.limited (p : StagePlan) (block : Nat) : List (Nat × Nat × Nat) :=
  match p.limits[block]? with
  | none => p.shapes
  | some l => (p.shapes.zip l).map fun e => (e.1.1, e.1.2.1, e.2)

/-- What task idx of unit u of an analysis stage starts with. -/
def Module.analysisStart (m : Module) (c : PortId) (s : Stream) (i : Fin 12) (u idx skip : Nat) (rerun : Bool) :
    Option TaskStart :=
  match s.setup.stages[i.val]?, s.plan.stages[i.val]? with
  | some st, some p =>
    let extra := match m.package? st.package with
      | some k => [(p.weights, (m.pkgSec k.addr secWeights).2, false)]
      | none => []
    some ⟨.stream c i u idx, m.stageArgs st u idx, p.code, p.aps, p.start, st.sync.take st.syncEntries,
      m.stageAccess st ++ extra, p.resAt idx, p.variant, p.limited (u % max 1 st.argsSlots * st.tasks + idx), none, skip,
      rerun, p.resUse⟩
  | _, _ => none

/-- A gated task reads and writes its state buffers in the history region; the argument block of unit u is written
first (R122, R186). -/
def Module.pictureStart (m : Module) (c : PortId) (s : Stream) (i : Fin 12) (p : PicPlan) (u skip : Nat) (rerun : Bool) :
    TaskStart × Module :=
  let hb := m.histBytes c
  let m := m.write p.args (m.picArgs c u s.plan.pics p hb)
  (⟨.stream c i u 0, p.args, p.code, p.aps, p.start, [], m.pictureAccess c s p, p.resFirst, 0, p.shapes,
    m.gateOf c u s.plan.pics p hb, skip, rerun, p.resUse⟩, m)

/-- Start a task of a stream on a position. -/
def Module.startStream (m : Module) (e : EngPos) (s : Stream) (c : PortId) (i : Fin 12) (u idx skip : Nat) (rerun : Bool) :
    Module :=
  if i.val < 8 then match m.analysisStart c s i u idx skip rerun with
    | none => m
    | some x => m.beginTask e x
  else match s.plan.pics.find? (·.stage = i.val) with
    | none => m
    | some p =>
      let (x, m) := m.pictureStart c s i p u skip rerun
      m.beginTask e x

/-- The logical engine of task idx of a stage (R258, R356). -/
def StagePlan.engineOf (p : StagePlan) (idx : Nat) : Option Nat := p.engines[idx % max 1 p.engines.length]?

/-- The resident set of a stage's task is present on the position (R255, R258). -/
def Module.setPresent (m : Module) (e : EngPos) (c stage : Nat) (p : StagePlan) (idx : Nat) : Bool :=
  p.resBytes = 0 ||
    if p.group ≤ 1 then (m.eng e).holds c stage 0
    else
      let k := idx % p.group
      let step := idx / p.group
      (m.ctx c).exchanges stage % p.group = step % p.group && (m.eng e).holds c stage ((k + step) % p.group)

/-- The stage's plan places task idx of unit u here and its waits are met: the context after its start. -/
def Module.planStart (m : Module) (e : EngPos) (cl : Fin 8) (n : Fin 17) (c : PortId) (s : Stream) (i : Fin 12)
    (u idx : Nat) : Option Ctx :=
  let x := m.ctx c
  let here := 17 * cl.val + n.val
  if i.val < 8 then
    match s.setup.stages[i.val]?, s.plan.stages[i.val]? with
    | some st, some p =>
      if p.engineOf idx = some here && m.analysisReady c s i u && m.setPresent e c i p idx then x.startTask i st.tasks u idx
      else none
    | _, _ => none
  else match s.plan.pics.find? (·.stage = i.val) with
    | some p =>
      if p.engine = here && m.pictureReady c s p u && m.setPresent e c i p.asStage idx then x.startTask i 1 u idx else none
    | none => none

/-! Jobs (R261, R364, R366) -/

/-- The job with an id. -/
def Module.job? (m : Module) (id : Nat) : Option Job := m.jobs.find? (·.id = id)

/-- Change a job. -/
def Module.adjustJob (m : Module) (id : Nat) (f : Job → Job) : Module :=
  { m with jobs := m.jobs.map fun j => if j.id = id then f j else j }

/-- Task k of stage i of a job. -/
def Job.task? (j : Job) (i k : Nat) : Option (JobTaskState × Nat × Bool) := ((j.tasks[i]?).getD [])[k]?

/-- Set task k of stage i. -/
def Job.setTask (j : Job) (i k : Nat) (v : JobTaskState × Nat × Bool) : Job :=
  { j with tasks := setAt j.tasks i (setAt ((j.tasks[i]?).getD []) k v) }

/-- The number of a task among a job's. -/
def jobKey (i k : Nat) : Nat := 65536 * i + k

/-- The variant that a job task runs: chosen at its first dispatch, and kept (R248). -/
def Module.jobVariant (m : Module) (j : Job) (st : StageSetup) (i k : Nat) : Nat :=
  match j.variants.find? (jobKey i k), m.package? st.package with
  | some v, _ => v
  | none, some p =>
    let t := m.template p.addr st.template
    t.choose (m.shapeVals (m.stageArgs st 0 k) t.shapes)
  | none, none => 0

/-- A job task's program fits into the instruction memory that the plans leave free on a logical engine (R238). -/
def Module.jobFits (m : Module) (j : Job) (st : StageSetup) (i k q : Nat) : Bool :=
  match m.package? st.package with
  | none => true
  | some p =>
    let s := ((m.template p.addr st.template).start[m.jobVariant j st i k]?).getD 0
    memFits (memHeld q m.placed) (progSize (m.pkgCode p.addr) s)

/-- What a job task starts with (R248, R264, R364): the variant that its dispatch chose. -/
def Module.jobStart (m : Module) (j : Job) (i k skip : Nat) (rerun : Bool) : Option TaskStart :=
  match j.stages[i]? with
  | none => none
  | some st => match m.package? st.package with
    | none => none
    | some p =>
      let t := m.template p.addr st.template
      let args := m.stageArgs st 0 k
      let v := SMap.get 0 j.variants (jobKey i k)
      some ⟨.job j.id i k, args, m.pkgCode p.addr, m.pkgAps p.addr, (t.start[v]?).getD 0, st.sync.take st.syncEntries,
        m.stageAccess st, 0, v, t.shapes, none, skip, rerun, t.res⟩

/-- Start a dispatched job task on a position. -/
def Module.startJob (m : Module) (e : EngPos) (id i k skip : Nat) (rerun : Bool) : Module :=
  match m.job? id with
  | none => m
  | some j => match m.jobStart j i k skip rerun with
    | none => m
    | some x => m.beginTask e x

/-- A task that starts waits while its argument block lies in a stack that is being zero filled (R296, R527). -/
def Module.orWait (m' m : Module) (e : EngPos) : Module :=
  if ((m'.eng e).task.map fun t => m.spmBusy t.args 256).getD false then m else m'

/-- TASK_START (R194): the plan's waits are met on an idle position that holds the logical name, or the job task was
dispatched to it. -/
def taskStart (cl : Fin 8) (logical : Fin 17) (task : TaskRef) (m : Module) : Module :=
  match m.posOf cl logical with
  | none => m
  | some e =>
    if !m.free e || logical.val = 16 && m.tests then m
    else match task, (m.eng e).assigned with
      | .stream c i u idx, none => match m.streams.find? c.val with
        | none => m
        | some s => match m.planStart e cl logical c s i u idx with
          | none => m
          | some x => ((m.setCtx c x).startStream e s c i u idx 0 false).orWait m e
      | .job id i k, some (.job id' i' k', n, false) =>
        if id = id' && i = i' && k = k' then (m.startJob e id i k n false).orWait m e else m
      | _, _ => m

/-- RERUN_START (R270): the position that took the faulted name runs the task again from its first instruction. -/
def rerunStart (e : EngPos) (m : Module) : Module :=
  if !m.free e then m
  else match (m.eng e).assigned with
    | some (.stream c i u idx, n, true) => match m.streams.find? c.val with
      | none => m.setEng e { m.eng e with assigned := none }
      | some s =>
        let there := match s.plan.stageOf i.val with
          | some p => p.resBytes = 0 || (m.eng e).sets.any fun r => r.c = c.val && r.stage = i.val
          | none => true
        if there then (m.startStream e s c i u idx n true).orWait m e else m
    | some (.job id i k, n, true) => (m.startJob e id i k n true).orWait m e
    | _ => m

/-! ### The end of a job (R261, R267, R365, R396) -/

/-- A WITHDRAW whose last job has completed completes with their number (R396). -/
def Module.withdrawDone (m : Module) (id : Nat) : Module :=
  let l := (m.withdraws : List Withdraw).map fun w => { w with left := w.left.filter (· ≠ id) }
  let m := { m with withdraws := l }
  let done := m.withdraws.filter (·.left.isEmpty)
  let m := { m with withdraws := m.withdraws.filter (!·.left.isEmpty) }
  done.foldl (fun m w => m.complete w.cmd stOk w.count) m

/-- Complete a job: it leaves the queue (R365, R398), once its completion does not wait (R399). -/
def Module.endJob (m : Module) (j : Job) (status result : Nat) : Module :=
  let waits := m.complWaits j.cmd
  let m := if waits then
      m.adjustJob j.id fun j => { j with held := true, tasks := j.tasks.map fun l => l.map fun _ => (.ended, 0, false) }
    else
      let l := m.jobs.filter (·.id ≠ j.id)
      { m with jobs := l }.setFld SYS_ADM_STAT SYS_ADM_STAT_jobs l.length
  (m.complete j.cmd status result).withdrawDone j.id

/-- Complete a job that has nothing left to do: every task has ended, or one has failed or it is withdrawn and none
runs. -/
def Module.settleJob (m : Module) (id : Nat) : Module :=
  match m.job? id with
  | none => m
  | some j =>
    if j.held then m else
    let all := j.tasks.flatMap fun l => l.map (·.1)
    let runs := all.any fun t => match t with
      | .running _ => true
      | _ => false
    if runs then m
    else if j.withdrawing then m.endJob j stWithdrawn 0
    else match j.outcome with
      | some (st, i, k) => m.endJob j st.toNat (if st.toNat = stExpired then 0 else i + k * 256)
      | none => if all.all (· = .ended) then m.endJob j stOk 0 else m

/-! ### Plan signals (R202, R261, R262, R272) -/

/-- Note the end of task idx of unit u in a stage of n tasks per unit. -/
def Ctx.endTask (x : Ctx) (stage n u idx : Nat) : Ctx :=
  let (v, l) := SMap.get (0, []) x.ended stage
  let l := l ++ [u * n + idx]
  let full := (List.range n).all fun k => l.contains (v * n + k)
  let next := if full then (v + 1, l.filter fun q => (v + 1) * n ≤ q) else (v, l)
  { x with ended := SMap.set (0, []) x.ended stage next }

/-- HDR history that the merge of a frame with sequence number `seq` lacks (R120). -/
def Ctx.hdrMissing (x : Ctx) (e seq : Nat) : Bool :=
  (List.range (e - 1)).any fun i =>
    let q := (seq + 2 ^ 32 - (i + 1)) % 2 ^ 32
    SMap.get 0 x.hdrHeld (q % e) ≠ q + 1

/-- Rows that a gated task reused. -/
def GateTask.reused (g : GateTask) : Nat := (g.rows.filter (·.2)).length

/-- The reuse counts that a gated task leaves: one more for a reused row, 0 for a computed one (R188). -/
def GateTask.newCounts (g : GateTask) : List Nat :=
  g.rows.foldl (fun l (r : Int × Bool) => match g.count r.1 with
    | some n => setAt l (r.1 + (g.above : Int)).toNat (if r.2 then min 255 (n + 1) else 0)
    | none => l) g.counts

/-- A gated task's last write: its reuse counts (R188, R269). -/
def Module.writeCounts (m : Module) (g : StripeGeom) (p : PicPlan) (k : Nat) (gate : Option GateTask) : Module :=
  match gate with
  | none => m
  | some t => m.write (p.countsAt g k).1 (t.newCounts.map fun n => BitVec.ofNat 8 n)

/-- What a context notes when a picture task of unit u ends: rows reused by the unit, the exposures that HDR merge left out,
and the frame that its history holds once its last stripe is there (R120, R128). -/
def Ctx.notePicture (x : Ctx) (first : Bool) (stage u sp e seq reused : Nat) (missed : Bool) : Ctx :=
  let k := u % 16
  let x := if first then { x with rowsReused := x.rowsReused.erase k, hdrWarm := x.hdrWarm.erase k } else x
  let x := { x with rowsReused := SMap.set 0 x.rowsReused k (SMap.get 0 x.rowsReused k + reused) }
  if stage ≠ 9 then x
  else
    let x := if x.hdrMissing e seq then { x with hdrWarm := SMap.set 0 x.hdrWarm k 1 } else x
    let lost := 2 ^ 33 + seq
    let held := SMap.get 0 x.hdrHeld (seq % e)
    let next := if missed then lost else if u % sp + 1 = sp && held ≠ lost then seq + 1 else held
    { x with hdrHeld := SMap.set 0 x.hdrHeld (seq % e) next }

/-- What a picture stage of a plan works on for unit u. -/
def Module.resIn (m : Module) (c : PortId) (s : Stream) (p : PicPlan) (u : Nat) : ResIn :=
  let g := m.stripes c
  let f := u / max 1 g.count
  let seq := m.num (m.headAt c u) 4
  ⟨c, g, p, u, m.picSource c u (s.plan.pics.takeWhile (·.stage < p.stage)), m.block c f, SMap.get 0 (m.ctx c).jAt (f % 4), seq,
    s.plan.pics, m.histBytes c⟩

/-- The stage's program is the resident library's, and forms its values at the task's end (R120). -/
def Module.runsResident (m : Module) (c : PortId) (p : PicPlan) : Bool := !p.code.isEmpty && m.stageSel c (p.stage - 8) = 1

/-- What the outputs that a picture task of the last stage forms read: the view that they format, inside the picture. -/
def Module.outputReads (m : Module) (c : PortId) (s : Stream) (p : PicPlan) (u : Nat) : List (Nat × Nat) :=
  if (s.plan.pics.getLast?.map (·.stage)) ≠ some p.stage then []
  else
    let r := m.resIn c s p u
    let v := if p.code.isEmpty then r.src else p.view r.g u
    (r.rows.filter fun (y : Int) => decide (0 ≤ y ∧ y < (r.g.h : Int))).map fun y => (((v.base : Int) + y * v.pitch).toNat, r.g.w * pixSize v.fmt)

/-- The memory that a picture task has read when it ends, beside what its instructions read: the stripe's header, what a
resident stage and the output formatting read (R293, R294, R354). -/
def Module.pictureReads (m : Module) (t : EngTask) : List (Nat × Nat) :=
  match t.ref with
  | .job .. => []
  | .stream c i u _ => match m.streams.find? c.val with
    | none => []
    | some s => match s.plan.pics.find? (·.stage = i.val) with
      | none => []
      | some p => (m.headAt c u, 64) :: (if m.runsResident c p && !t.idle then m.residentReads (m.resIn c s p u) else []) ++
          m.outputReads c s p u

/-- A gated resident stage decides the rows that its program has left, as it ends (R127, R186, R187). -/
def Module.decideRows (m : Module) (e : EngPos) (t : EngTask) : EngTask × Module :=
  match t.ref, t.gate with
  | .stream c i u _, some g => match m.streams.find? c.val with
    | none => (t, m)
    | some s => match s.plan.pics.find? (·.stage = i.val) with
      | none => (t, m)
      | some p =>
        if !m.runsResident c p || t.idle then (t, m)
        else
          let (g', m) := m.residentGate (m.resIn c s p u) t.args g
          let m := m.count (ENG_X_CNT_ROWS_GATED e.cl e.x) (g'.rows.length - g.rows.length)
          ({ t with gate := some g' }, m.count (ENG_X_CNT_ROWS_REUSED e.cl e.x) (g'.reused - g.reused))
  | _, _ => (t, m)

/-- The end of a picture task (R118, R126 to R129, R133, R187, R188): `missed` for one that is reported and not re-run,
whose stripe keeps what its buffers held; `idle` for a no-op, which writes nothing of its stage (R236). DORMOUSE marks a stripe of which at least one row was reused (DESIGN CHOICE,
assumption log 84). -/
def Module.pictureEnd (m : Module) (c : PortId) (s : Stream) (stage u : Nat) (gate : Option GateTask) (idle missed : Bool) :
    Module :=
  match s.plan.pics.find? (·.stage = stage) with
  | none => m
  | some p =>
    let g := m.stripes c
    let sp := max 1 g.count
    let f := u / sp
    let head := m.bytes (m.headAt c u) 64
    let seq := fieldAt head 0 4
    let e := m.exposures c
    let src := m.picSource c u (s.plan.pics.takeWhile (·.stage < stage))
    let j := SMap.get 0 (m.ctx c).jAt (f % 4)
    let m := if missed || idle || p.code.isEmpty then m
      else (if m.runsResident c p then m.residentOut (m.resIn c s p u) gate else m).edgeOut c u p
    let first := (s.plan.pics.head?.map (·.stage)) = some stage
    let n := if missed then 0 else (gate.map (·.reused)).getD 0
    let x := (m.ctx c).notePicture first stage u sp e seq n missed
    let m := m.setCtx c (x.endTask stage 1 u 0)
    let m := if missed then m else
      (m.count (NIS_CNT_ROWS_REUSED c) n).count (NIS_CNT_ROWS_COMPUTED c) ((gate.map (·.rows.length)).getD 0 - n)
    let m := if (s.plan.pics.getLast?.map (·.stage)) ≠ some stage then m
      else
        let x := m.ctx c
        let k := m.fld (NIS_DN_CFG c) NIS_DN_CFG_warm_frames
        let reused := SMap.get 0 x.rowsReused (u % 16)
        let warm := j < k || SMap.get 0 x.hdrWarm (u % 16) = 1
        let flags := (if warm then 8 else 0) + if reused ≠ 0 then 128 else 0
        let v := if p.code.isEmpty then src else p.view g u
        m.outputs c s v u head flags reused missed
    if missed then m else m.writeCounts g p (u % sp) gate

/-- The plan signals of a task (R20, R202, R261, R262). -/
def Module.planSignals (m : Module) (t : EngTask) (missed : Bool) : Module :=
  match t.ref with
  | .job id i k =>
    let h := ((m.job? id).bind fun j => if i + 1 < j.stages.length then j.handover[i]? else none)
    let m := match h with
      | some o => m.guestAdd o 1
      | none => m
    (m.adjustJob id fun j => j.setTask i k (.ended, 0, false)).settleJob id
  | .stream c i u idx =>
    match m.streams.find? c.val with
    | none => m
    | some s =>
      if 8 ≤ i.val then m.pictureEnd c s i u t.gate t.idle missed
      else match s.setup.stages[i.val]? with
        | none => m
        | some st =>
          let m := if i.val + 1 < s.setup.stages.length then m.addSync ((s.setup.handover[i.val]?).getD 0) 1 else m
          m.setCtx c ((m.ctx c).endTask i st.tasks u idx)

/-! ### The map (R162 to R164, R269, R504, R505) -/

/-- Give a logical name a position; 31 none. -/
def Module.setMap (m : Module) (cl : Fin 8) (n p : Nat) : Module := m.setFld (ENG_MAP cl (n / 4)) (mapBits n) p

/-- Tell a position which name it holds. -/
def Module.setName (m : Module) (e : EngPos) (n : Nat) : Module := m.setFld (ENG_X_STAT e.cl e.x) ENG_X_STAT_logical n

/-- ENGINE_MAP_CHANGED for a name (R164, R404). -/
def Module.mapEvent (m : Module) (cl : Fin 8) (cause n old new : Nat) : Module := m.raise 0x0502 (cl.val + 8 * cause) n old new

/-- The cluster's spare (R192): 0 READY, 1 TESTING, 2 NONE, 3 SCHEDULED. -/
def Module.spare (m : Module) (cl : Fin 8) : Nat := m.fld (ENG_CL_STAT cl) ENG_CL_STAT_spare
def Module.setSpare (m : Module) (cl : Fin 8) (v : Nat) : Module := m.setFld (ENG_CL_STAT cl) ENG_CL_STAT_spare v

/-- The position of a working spare (R271, R505): E16's, in state SPARE, in ASSURED or COOL. -/
def Module.workingSpare (m : Module) (cl : Fin 8) : Option EngPos :=
  match m.posOf cl 16 with
  | some e => if m.tests && m.engState e = 3 then some e else none
  | none => none

/-- The name of position e moves to the position that held E16, and e becomes E16 in a state (R164). -/
def Module.swapSpare (m : Module) (e sp : EngPos) (cause state spare : Nat) : Module :=
  let n := m.nameOf e
  let m := (m.setMap e.cl n sp.x).setMap e.cl 16 e.x
  let m := ((m.setName sp n).setName e 16).setEngState sp 1
  let m := (m.setEngState e state).setSpare e.cl spare
  let m := m.satAdd (ENG_CL_STAT e.cl) ENG_CL_STAT_swaps 1
  let m := m.setEng e { m.eng e with passed := 0 }
  let m := m.setFld (ENG_X_ST e.cl e.x) ENG_X_ST_passes 0
  (m.mapEvent e.cl cause n e.x sp.x).mapEvent e.cl cause 16 sp.x e.x

/-- A position is lost with its name (R164, R271): OFFLINE, the name without a position. -/
def Module.loseName (m : Module) (e : EngPos) : Module :=
  let n := m.nameOf e
  let m := (m.setMap e.cl n 31).setEngState e 5
  let m := m.satAdd (ENG_CL_STAT e.cl) ENG_CL_STAT_swaps 1
  let m := m.setEng e { m.eng e with sets := [], assigned := none }
  m.mapEvent e.cl 0 n e.x 31

/-- ENGINE_FAULT (R404) for a task on a position that held name n. -/
def Module.faultEvent (m : Module) (e : EngPos) (n code : Nat) (t : EngTask) (rerun quarantined logged : Bool) : Module :=
  let p0 := n + 32 * e.cl.val + 256 * code + (if rerun then 4096 else 0) + (if quarantined then 8192 else 0)
  let go := fun (ctx : Nat) (seq : Word) (p0 p1 p2 : Nat) (m : Module) =>
    if logged then m.faultSeq 1 0x0501 ctx seq p0 p1 p2 e.x else m.raiseSeq 0x0501 ctx seq p0 p1 p2 e.x
  match t.ref with
  | .job id i k => go 0xFF 0 (p0 + 16384) (((m.job? id).map (·.cmd.tag.toNat)).getD 0) (k + 65536 * i) m
  | .stream c i u _ =>
    let sp := m.perFrame c
    let frame := i.val < 8 && match m.streams.find? c.val with
      | some s => ((s.setup.stages[i.val]?).map (·.frameUnit)).getD false
      | none => false
    go c.val (m.lastSeq c) p0 (if frame then u else u / sp) ((if frame then 0xFFFF else u % sp) + 65536 * i.val) m

/-- The position has had an engine fault (R189, R269, R504): what becomes of it, and the position that its name moves to.
A second fault since power good makes it OFFLINE. -/
def Module.faultPosition (m : Module) (e : EngPos) : Option EngPos × Module :=
  let x := m.eng e
  let m := m.setEng e { x with faults := x.faults + 1, sets := [] }
  match m.workingSpare e.cl with
  | some sp =>
    if sp = e then (none, m.loseName e)
    else (some sp, m.swapSpare e sp 0 (if 2 ≤ x.faults + 1 then 5 else 4) 2)
  | none => (none, m.loseName e)

/-! ### TASK_COMPLETE (R202, R269) -/

/-- The reads of cancelled tiles that a task leaves outstanding hold its access set until CANCELLATION_COMPLETE (R266). -/
def Eng.leave (x : Eng) : Eng :=
  { x with task := none
           drain := match x.task with
             | some t => if t.cancelled ≠ 0 then x.drain ++ t.access else x.drain
             | none => x.drain }

/-- A task leaves its position. The cycles it took (BUSY), the ring flits of its cluster that were sent again, and the
cycles that stacks lost to conflicts are not stated for a command: free values (R166, R192, R277; assumption log 2). -/
def Module.leaveTask (m : Module) (e : EngPos) : Module :=
  let (n, m) := m.open_
  let (crc, m) := m.open_
  let m := (m.setEng e (m.eng e).leave).setEngState e 1
  let m := m.wr (ENG_X_CNT_BUSY e.cl e.x) (m.rd (ENG_X_CNT_BUSY e.cl e.x) + n)
  (m.satAdd (ENG_CL_RING e.cl) ENG_CL_RING_crc_errors crc.toNat).lostCycles

/-- TASK_COMPLETE: END has executed and every write has been acknowledged; the plan's signals follow. A check that failed
after END leaves the task complete and its position handled as faulted (R269). A bad word in what a picture task reads as it
ends aborts it instead (R294, R354). -/
def taskComplete (e : EngPos) (m : Module) : Module :=
  match (m.eng e).task with
  | none => m
  | some t =>
    if !t.exec.ended || !t.acked || t.abort.isSome || !(m.engWindow e).isEmpty then m
    else
      let n := m.nameOf e
      let (bad, m) := m.engReads e (m.pictureReads t)
      if bad then m.abortTask e abPoison else
      let (t, m) := m.decideRows e t
      let m := (m.leaveTask e).count (ENG_X_CNT_TASK e.cl e.x) 1
      let m := m.planSignals t false
      match t.late with
      | none => m
      | some code =>
        let m := m.faultEvent e n code t false ((m.workingSpare e.cl).isSome && (m.eng e).faults = 0) true
        (m.faultPosition e).2

/-! ### Faults and aborts (R189, R190, R267 to R275) -/

/-- An engine fault of a position with this code (R189): the task is aborted, or, where END has executed or another abort
has begun, the position is noted as faulted (R269, R275). -/
def Module.engineFault (m : Module) (e : EngPos) (code : Nat) : Module :=
  match (m.eng e).task with
  | none => m
  | some t =>
    if t.exec.ended || (t.abort.map fun a => !a.engine).getD false then
      if t.late.isSome then m
      else
        let m := m.putTask e { t with late := some code }
        (m.setFld (ENG_X_STAT e.cl e.x) ENG_X_STAT_last_fault code).count (ENG_X_CNT_FAULT e.cl e.x) 1
    else m.abortTask e ⟨stAbortedFault, code, true⟩

/-- A failed sweep (R502, R504): reported as class SELF_TEST; a SPARE becomes QUARANTINED, a QUARANTINED position that holds
E16 OFFLINE. A scheduled position that fails gives its name to a working spare. -/
def Module.sweepFailed (m : Module) (e : EngPos) : Module :=
  let n := m.nameOf e
  let st := m.engState e
  let m := m.setFld (ENG_X_STAT e.cl e.x) ENG_X_STAT_last_fault 5
  let x := m.eng e
  let m := m.setEng e { x with passed := 0, sets := [] }
  let m := m.setFld (ENG_X_ST e.cl e.x) ENG_X_ST_passes 0
  let ev := fun (q : Bool) (m : Module) =>
    m.faultSeq 2 0x0501 0xFF 0 (n + 32 * e.cl.val + 256 * 5 + if q then 8192 else 0) 0 0 e.x
  if st = 4 then (ev false m).setEngState e 5
  else if n = 16 then ((ev true m).setEngState e 4).setSpare e.cl 2
  else match m.workingSpare e.cl with
    | some sp => (ev true m).swapSpare e sp 0 4 2
    | none => (ev true m).setEngState e 4

/-- ENGINE_FAULT_DETECTED (R189, R504): a check fails while the engine works, or in a position that tests itself. -/
def engineFaultDetected (e : EngPos) (check : EngCheck) (m : Module) : Module :=
  let code := match check with
    | .residue => 1
    | .parity => 2
    | .sequencer => 3
  match (m.eng e).task with
  | some _ => m.engineFault e code
  | none =>
    if m.nameOf e = 16 && (m.engState e = 3 || m.engState e = 4) then (m.count (ENG_X_CNT_FAULT e.cl e.x) 1).sweepFailed e
    else m

/-- The execute walker waits to pop an empty queue (R190, R196): an MMF its QA tile, then its blocks, then its fusion tile; an
RFU one QX tile for each VEC operand. -/
def EngTask.waitsToPop (t : EngTask) : Bool :=
  let i := (t.code[t.exec.pc]?).getD 0
  match opnd i 0 1 with
  | 0x11 => !(opnd i 1 1).testBit 0 && t.qb.isEmpty
  | 0x12 => t.qa.isEmpty
  | 0x13 => t.qa.isEmpty || (if t.blocks.length < (mmfBlocks i).1 + (mmfBlocks i).2 then t.qb.isEmpty
      else t.qx.isEmpty && !((opnd i 1 1).testBit 3 && t.keepF.isSome))
  | 0x14 => (t.vectors ((opnd i 1 1).testBit 0) (opnd i 10 1 % 16 = 1) (opnd i 10 1 / 16 = 1)).isNone
  | 0x15 => t.qx.isEmpty
  | 0x16 => opnd i 9 1 ≤ 1 && t.qx.isEmpty && !((opnd i 1 1).testBit 0 && t.keepW.isSome)
  | _ => false

/-- ENGINE_WATCHDOG (R189, R190): a program fault when the execute walker waits to pop a queue, the badger stands at END and
no read is outstanding; otherwise an engine fault. -/
def engineWatchdog (e : EngPos) (m : Module) : Module :=
  match (m.eng e).task with
  | none => m
  | some t =>
    let reads := t.cancelled ≠ 0 || (t.qa ++ t.qb ++ t.qx).any (!·.arrived) || t.res.any (!·.2.arrived) ||
      t.writes.any (!·.needs.isEmpty)
    if !t.exec.ended && t.waitsToPop && t.badger.ended && !reads && t.abort.isNone then
      m.abortTask e ⟨stAbortedFault, 4, false⟩
    else m.engineFault e 4

/-- The status by which a preempted task is told apart: no status of R380. -/
def stPreempted : Nat := 255

/-- STRIPE_MISSED, and the task's plan signals (R272). -/
def Module.missTask (m : Module) (e : EngPos) (n status : Nat) (t : EngTask) : Module :=
  match t.ref with
  | .job .. => m
  | .stream c i u _ =>
    let sp := m.perFrame c
    let frame := i.val < 8 && match m.streams.find? c.val with
      | some s => ((s.setup.stages[i.val]?).map (·.frameUnit)).getD false
      | none => false
    let m := m.raiseCtx 0x0503 c (n + 32 * e.cl.val + 256 * i.val) (if frame then u else u / sp)
      (if frame then 0xFFFFFFFF else u % sp) status
    m.planSignals t true

/-- A job task is aborted and not run again (R267, R396): TASK_ABORTED, and the job's outcome. -/
def Module.failJobTask (m : Module) (e : EngPos) (n status : Nat) (t : EngTask) : Module :=
  match t.ref with
  | .stream .. => m
  | .job id i k =>
    match m.job? id with
    | none => m
    | some j =>
      let f := match m.cmdSession j.cmd with
        | some s => (sessionField j.cmd.session.val s).toNat
        | none => 0
      let m := m.raise 0x0504 status j.cmd.tag.toNat (i + 256 * k) (n + 32 * e.cl.val + 65536 * f)
      (m.adjustJob id fun j =>
        { j.setTask i k (.ended, 0, false) with
          outcome := match j.outcome with
            | some o => some o
            | none => some (BitVec.ofNat 8 status, i, k) }).settleJob id

/-- A position may take a job's task at once (R257): one that uses the resident area goes where no resident set is. -/
def Module.takesJob (m : Module) (e : EngPos) (resUse : Nat) : Bool :=
  m.free e && (m.eng e).assigned.isNone && (resUse = 0 || (m.eng e).sets.isEmpty)

/-- A position of the cluster that may take a job's task at once, with room for its program (R238, R267). -/
def Module.nextFree (m : Module) (cl : Fin 8) (t : EngTask) : Option EngPos :=
  let fits := fun (q : Nat) => match t.ref with
    | .stream .. => true
    | .job id i k => match m.job? id with
      | none => true
      | some j => match j.stages[i]? with
        | some st => m.jobFits j st i k q
        | none => true
  (List.range 16).findSome? fun n => match m.posOf cl n with
    | some e => if m.takesJob e t.resUse && fits (17 * cl.val + n) then some e else none
    | none => none

/-- Run an aborted task again (R267, R270): on the position that took the name; a job's without one on the next free engine
of the cluster, at once or as soon as one is dispatched to. -/
def Module.rerunTask (m : Module) (cl : Fin 8) (sp : Option EngPos) (t : EngTask) : Module :=
  let n := max t.sigs t.skip
  match t.ref, sp with
  | .stream .., some p => m.setEng p { m.eng p with assigned := some (t.ref, n, true) }
  | .stream .., none => m
  | .job id i k, _ =>
    match (match sp with | some p => some p | none => m.nextFree cl t) with
    | some p =>
      let m := m.setEng p { m.eng p with assigned := some (t.ref, n, true) }
      m.adjustJob id fun j => j.setTask i k (.running p, n, true)
    | none => m.adjustJob id fun j =>
      { j.setTask i k (.queued, n, true) with clusters := SMap.set 0 j.clusters (jobKey i k) (cl.val + 1) }

/-- ABORT_COMPLETE: the last outstanding transfer has returned; the position and the task are handled by cause, kind of
task and mode (R267 to R272, R275); it is firmware's work (R479, R506). -/
def abortComplete (e : EngPos) (m : Module) : Module := m.firmware fun m =>
  match (m.eng e).task with
  | none => m
  | some t => match t.abort with
    | none => m
    | some a =>
      if t.issued ≠ 0 || t.cancelled ≠ 0 || !(m.engWindow e).isEmpty then m
      else
        let n := m.nameOf e
        let m := m.leaveTask e
        let code := if a.engine then some a.code else t.late
        let spareThere := match m.workingSpare e.cl with
          | some sp => sp ≠ e
          | none => false
        let gone := match t.ref with
          | .job id _ _ => ((m.job? id).map (·.withdrawing)).getD true
          | .stream .. => false
        let again := a.engine && m.tests && !t.rerun && !gone && (refIsJob t.ref || spareThere)
        let m := match code with
          | some k => m.faultEvent e n k t again (spareThere && (m.eng e).faults = 0) true
          | none => if a.code = 4 then m.faultEvent e n 4 t false false false else m
        let (sp, m) := match code with
          | some _ => m.faultPosition e
          | none => (none, m)
        if again then m.rerunTask e.cl sp t
        else match t.ref with
          | .stream .. => m.missTask e n a.status t
          | .job id i k =>
            if a.status = stPreempted then
              (m.adjustJob id fun j => j.setTask i k (.queued, max t.sigs t.skip, t.rerun)).settleJob id
            else m.failJobTask e n a.status t

/-! ### Rotation and sweeps (R164, R502 to R504) -/

/-- ROTATION_DUE (R503): every rotate_ms in a cluster with a working spare. -/
def rotationDue (cl : Fin 8) (m : Module) : Module :=
  if (m.workingSpare cl).isNone || m.power ≠ 3 || m.rotDue.contains cl.val then m
  else { m with rotDue := m.rotDue ++ [cl.val] }

/-- Position of name n of a cluster has gone longer since its last passing sweep than another (R503). -/
def Module.longer (m : Module) (cl : Fin 8) (n k : Nat) : Bool :=
  let age := fun n => match m.posOf cl n with
    | some e => (m.eng e).lastPass
    | none => some m.sweepNo
  match age n, age k with
  | none, some _ => true
  | some a, some b => a < b
  | _, none => false

/-- The name that the spare takes (R503): a position never swept first, lowest name first. -/
def Module.rotationName (m : Module) (cl : Fin 8) : Nat :=
  (List.range 16).foldl (fun b n => if (m.posOf cl n).isSome && ((m.posOf cl b).isNone || m.longer cl n b) then n else b) 0

/-- ROTATION (R164, R503): between two tasks of the outgoing engine; its resident contents move over the ring. The spare's
last full sweep has passed. -/
def rotation (cl : Fin 8) (m : Module) : Module :=
  match m.workingSpare cl, m.posOf cl (m.rotationName cl) with
  | some sp, some e =>
    if !m.rotDue.contains cl.val || !m.free e || (m.eng e).assigned.isSome || (m.eng sp).passed = 0 then m
    else
      let sets := (m.eng e).sets
      let m := { m with rotDue := m.rotDue.filter (· ≠ cl.val) }
      let m := m.setEng sp { m.eng sp with sets := sets }
      let m := m.setEng e { m.eng e with sets := [] }
      m.swapSpare e sp 1 3 1
  | _, _ => m

/-- ROTATION_SKIP (R503): counted in swaps as nothing. -/
def rotationSkip (cl : Fin 8) (m : Module) : Module := { m with rotDue := m.rotDue.filter (· ≠ cl.val) }

/-- The spare of a cluster that has been switched on tests itself again (R502, R504): from the words of PWR_DOM_STAT before and
after. -/
def Module.testSpares (m : Module) (old eng : Nat) : Module :=
  (List.finRange 8).foldl (fun m cl =>
    if eng.testBit (2 * cl.val) && !old.testBit (2 * cl.val) && m.tests && m.spare cl = 0 then m.setSpare cl 1 else m) m

/-- On the way to RUN the half-clusters come on one by one, ENG0A first (R451): all up to the one that holds a position. -/
def Module.rampEng (m : Module) (e : EngPos) : Module :=
  if !m.entersRun then m
  else
    let m := m.rampSpm
    let old := m.fld PWR_DOM_STAT PWR_DOM_STAT_eng
    let eng := old ||| m.engDomains 3 % (4 ^ e.cl.val * if e.x.val ≤ 8 then 2 else 4)
    (m.setFld PWR_DOM_STAT PWR_DOM_STAT_eng eng).testSpares old eng

/-- SWEEP_DONE (R502, R504): the power-on sweep of a position, or a full sweep of the one that holds E16. -/
def sweepDone (e : EngPos) (pass full : Bool) (m : Module) : Module :=
  let m := m.rampEng e
  let st := m.engState e
  let n := m.nameOf e
  let test := m.tests && n = 16 && (st = 3 || st = 4)
  if !m.engOn e.cl e.x || (m.eng e).task.isSome || st = 5 || full && !test then m
  else
    let m := if full then m.setFld (ENG_X_ST e.cl e.x) ENG_X_ST_swept 1 else m
    let m := m.setFld (ENG_X_ST e.cl e.x) ENG_X_ST_last_ok pass.toNat
    if !pass then m.sweepFailed e
    else
      let x := m.eng e
      let no := if full then m.sweepNo + 1 else m.sweepNo
      let passed := x.passed + if full then 1 else 0
      let m := { m with sweepNo := no }.setEng e { x with passed := passed, lastPass := some no }
      let m := m.satAdd (ENG_X_ST e.cl e.x) ENG_X_ST_passes 1
      if !full then if m.tests && n = 16 && st = 1 then (m.setEngState e 3).setSpare e.cl 1 else m
      else if st = 3 then m.setSpare e.cl 0
      else if 16 ≤ passed then (m.setEngState e 3).setSpare e.cl 0
      else m

/-! ### Acknowledgements (R202, R333) -/

/-- WRITE_ACKNOWLEDGED: a write transfer to SPM or DRAM is acknowledged. DMA's local writes are acknowledged as they are
made; the acknowledgement lets a channel that stands still issue on. -/
def writeAcknowledged (writer : Writer) (m : Module) : Module :=
  match writer with
  | .engine e => m.engineAck e
  | .dma ch => if (m.chan ch.val).paced then m else m.dmaGo ch none

def execTaskStart (cl : Fin 8) (logical : Fin 17) (task : TaskRef) (s : State) := ok s (taskStart cl logical task s.toModule)
def execTaskComplete (e : EngPos) (s : State) := ok s (taskComplete e s.toModule)
def execEngineFaultDetected (e : EngPos) (check : EngCheck) (s : State) := ok s (engineFaultDetected e check s.toModule)
def execEngineWatchdog (e : EngPos) (s : State) := ok s (engineWatchdog e s.toModule)
def execAbortComplete (e : EngPos) (s : State) := ok s (abortComplete e s.toModule)
def execRerunStart (e : EngPos) (s : State) := ok s (rerunStart e s.toModule)
def execResidentSetLoad (cl : Fin 8) (logical : Fin 17) (c : PortId) (stage : Fin 12) (s : State) :=
  ok s (residentSetLoad cl logical c stage s.toModule)
def execRotationGroupExchange (c : PortId) (stage : Fin 8) (s : State) := ok s (rotationGroupExchange c stage s.toModule)
def execRotationDue (cl : Fin 8) (s : State) := ok s (rotationDue cl s.toModule)
def execRotation (cl : Fin 8) (s : State) := ok s (rotation cl s.toModule)
def execRotationSkip (cl : Fin 8) (s : State) := ok s (rotationSkip cl s.toModule)
def execSweepDone (e : EngPos) (pass full : Bool) (s : State) := ok s (sweepDone e pass full s.toModule)
def execWriteAcknowledged (writer : Writer) (s : State) := ok s (writeAcknowledged writer s.toModule)

end Sys2Proof.Machine
end

