-- ==== Sys2Proof/Machine/Remote.lean ====
section
/-!
DEFINITION. Answers of remote nodes to the window messages the module has sent, and their resending (R385, R391, R432,
R435): for rings, DMA channels, engines and debug.
-/
namespace Sys2Proof.Machine

/-- The bytes that a window read brings fill the holes of a tile. -/
def Tile.fill (t : Tile) (seq : Word) (data : List Byte) : Tile :=
  let mine := t.holes.filter (·.seq = seq)
  let t := { t with holes := t.holes.filter (·.seq ≠ seq) }
  mine.foldl (fun t h =>
    let b := (data.drop h.from_).take h.len
    if h.off < 65536 then { t with raw := splice t.raw h.row h.off b }
    else { t with scale := splice t.scale h.row (h.off - 65536) b }) t

/-- The bytes that a window read brings complete the masked write that waits for them (R225). -/
def EngWrite.merge (x : EngWrite) (seq : Word) (data : List Byte) : EngWrite :=
  match x.needs.find? (·.1 = seq) with
  | none => x
  | some (_, o, n) =>
    let part := (((x.bytes.drop o).take n).zip data).map fun p => ((p.1.1 &&& p.1.2) ||| (p.2 &&& ~~~p.1.2), (255 : Byte))
    { x with needs := x.needs.filter (·.1 ≠ seq), bytes := x.bytes.take o ++ part ++ x.bytes.drop (o + n) }

/-- A window read of an engine has returned. -/
def Module.engineData (m : Module) (e : EngPos) (seq : Word) (data : List Byte) : Module :=
  match (m.eng e).task with
  | none => m
  | some t =>
    let f := fun (x : Tile) => x.fill seq data
    let t := { t.mapTiles f with writes := t.writes.map (·.merge seq data) }
    ((m.putTask e t).pump (t.writes.length + 1) e).pumpReads t.todoLen e

/-- The last message of a write transfer of an engine has returned (R243). -/
def Module.engineWrote (m : Module) (x : WinOut) (e : EngPos) : Module :=
  if m.winOut.any (·.use = x.use) then m else m.ackWrite e

/-- A window access of an engine has failed: the task is aborted with the code (R265). -/
def Module.engineFailed (m : Module) (x : WinOut) (e : EngPos) (status : Nat) : Module :=
  match (m.eng e).task with
  | none => m
  | some _ =>
    let m := m.abortTask e ⟨if status = stWindowClosed then stWindowClosed else stBusError, 0, false⟩
    if x.msg.type = 0x10 then m.engineWrote x e else m

/-- The failure of a DMA access at an address (R335). -/
def remoteFail (read : Bool) (a status : Nat) : DmaFail := ⟨a, dirOf read a, if status = stWindowClosed then 4 else 5⟩

/-- The last message of an ADMIT's report has returned: STREAM_ADMITTED is raised for a stream that is admitted, then the
command completes (R21, R360). -/
def Module.reportDone (m : Module) (x : WinOut) (c : CmdRef) (status result : Nat) : Module :=
  if m.winOut.any (·.use = x.use) then m else m.admitEnd c status result

/-- A window access has failed: with the remote node's status, or unanswered (R385, R432). -/
def Module.winFailed (m : Module) (x : WinOut) (status : Nat) : Module :=
  let code := if status = stWindowClosed then stWindowClosed else stBusError
  match x.use with
  | .completion n => m.endSession n.val code false
  | .event n => m.endSession n.val code false
  | .debug d => m.debugAnswer d 8 code 0 []
  | .dmaWrite ch lo n =>
    m.dmaReturn ch lo n (some (remoteFail false (((m.chan ch.val).desc.map (·.dstAt lo)).getD 0) status))
  | .dmaRead ch lo n =>
    m.dmaReturn ch lo n (some (remoteFail true (((m.chan ch.val).desc.map (·.srcAt lo)).getD 0) status))
  | .engine e _ => m.engineFailed x e status
  | .report c st v => m.reportDone x c st.toNat v.toNat
  | .plain => m

/-- A window access has succeeded: a read with the bytes asked for. -/
def Module.winDone (m : Module) (x : WinOut) (data : List Byte) : Module :=
  let noted := fun (n : Fin 256) (m : Module) =>
    { m with sessions := m.sessions.adjust n.val fun s => { s with ackPending := true } }
  match x.use with
  | .completion n => noted n m
  | .event n => noted n m
  | .debug d => m.debugAnswer d 8 stOk 0 []
  | .dmaWrite ch lo n => m.dmaReturn ch lo n none
  | .dmaRead ch lo n => m.dmaData ch lo n data
  | .engine e _ => if x.msg.type = 0x10 then m.engineWrote x e else m.engineData e x.seq data
  | .report c st v => m.reportDone x c st.toNat v.toNat
  | .plain => m

/-- The receiver's epoch as the response gives it (R431). -/
def Module.learnEpoch (m : Module) (x : WinOut) (epoch : Word) : Module :=
  match x.window with
  | some w => { m with binds := m.binds.adjust w.val fun b =>
      { b with receivers := b.receivers.map fun r => if r.node = x.node then { r with epoch := epoch } else r } }
  | none => match m.sessionOf x.session with
    | some (n, s) => m.setSession n { s with ringEpoch := epoch }
    | none => m

/-- The UNBIND of the message's window may be over (R430); writes that waited for these bytes go on (R432). -/
def Module.afterReturn (m : Module) (x : WinOut) : Module :=
  match x.window with
  | some w => (m.pumpAll).finishUnbind w.val
  | none => m

/-- WINDOW_RESPONSE: the answer to a message that is outstanding ends its access; any other is discarded (R432). A read
answered with OK and other than the bytes asked for is a remote failure. -/
def windowResponse (h : Hdr) (status : W16) (data : List Byte) (m : Module) : Module :=
  let m := m.popRx h.port
  if !h.resp || !m.formOn h.udp || h.dst ≠ m.node then m
  else match m.winFind h.src h.session h.seq with
    | none => m
    | some x =>
      let m := (m.winDrop x).learnEpoch x h.epoch
      let good := status.toNat = stOk && (x.msg.type ≠ 0x11 || data.length = x.len)
      (if good then m.winDone x data else m.winFailed x status.toNat).afterReturn x

/-- An outstanding message travels on both ports: as its binding or session says (R382, R430). -/
def Module.winReplicates (m : Module) (x : WinOut) : Bool :=
  match x.window with
  | some w => ((m.binds.find? w.val).map Binding.replicate).getD false
  | none => match m.sessionOf x.session with
    | some (_, s) => s.replicate
    | none => false

/-- Send an outstanding message once more; a stream's waits for room in its queue (R16, R418). -/
def Module.winResend (m : Module) (x : WinOut) : Module :=
  if !m.winRoom x.use x.port x.peer (m.winReplicates x) x.tclass x.msg then m
  else
    let m := { m with winOut := m.winOut.map fun y => if y = x then { x with tries := x.tries + 1 } else y }
    (m.count YWP_CNT_RESENT 1).winHand x.use x.port x.peer (m.winReplicates x) x.tclass x.msg

/-- WIN_RETRY_TIMEOUT: an unanswered message is sent again, or fails after the last try (R432). -/
def winRetryTimeout (node session : W16) (seq : Word) (m : Module) : Module :=
  match m.winFind node session seq with
  | none => m
  | some x =>
    if x.tries < m.fld YWP_WIN_CFG YWP_WIN_CFG_retries then m.winResend x
    else ((m.winDrop x).winFailed x stBusError).afterReturn x

def execWindowResponse (m : Hdr) (status : W16) (data : List Byte) (s : State) :=
  ok s (windowResponse m status data s.toModule)
def execWinRetryTimeout (node session : W16) (seq : Word) (s : State) :=
  ok s (winRetryTimeout node session seq s.toModule)

/-- A stack switched on from off has been zero filled and grants requests (R296): what lies in it, by R279, is zero. -/
def stackZeroingDone (s : Fin 8) (m : Module) : Module :=
  let m := m.rampSpm
  if m.spmOn s.val && m.fld (SPM_ST_STAT s.val) SPM_ST_STAT_state = 1 then
    ((m.zeroStack s.val).setFld (SPM_ST_STAT s.val) SPM_ST_STAT_state 2).dmaGoOn.pumpAll
  else m

def execStackZeroingDone (stack : Fin 8) (s : State) := ok s (stackZeroingDone stack s.toModule)

end Sys2Proof.Machine
end

