-- ==== Sys2Proof/Machine/Fox.lean ====
section
/-!
DEFINITION. The fox's check FORM (12_admission_modes R356, R357, R362).
-/
namespace Sys2Proof.Machine

/-! ### Programs of a chain (R227, R228, R263, R311) -/

/-- The instructions of every variant of a template. -/
def Module.templateCode (m : Module) (a i : Nat) : List Nat :=
  let t := m.template a i
  let code := m.pkgCode a
  (List.range t.variants).flatMap fun v =>
    let s := (t.start[v]?).getD 0
    (code.drop s).take (variantLen ⟨[], [none, none, none, none], none⟩ s (code.drop s))

/-- What a stage's programs wait on and signal: sync table objects, and whether a register names an object. A wait has
its timeout. -/
structure StageSync where
  waits : List (Nat × Nat)
  sigs : List Nat
  waitS : List Nat
  sigS : Bool

/-- The waits and signals of a stage entry. -/
def Module.stageSync (m : Module) (st : StageSetup) : StageSync :=
  match m.package? st.package with
  | none => ⟨[], [], [], false⟩
  | some p =>
    let code := m.templateCode p.addr st.template
    let obj := fun x => (st.sync[opnd x 2 1]?).getD 0
    let w := code.filter fun x => opnd x 0 1 = 0x20
    let g := code.filter fun x => opnd x 0 1 = 0x21
    let s := fun x => (opnd x 1 1).testBit 0
    ⟨(w.filter (!s ·)).map fun x => (obj x, opnd x 8 4), (g.filter (!s ·)).map obj,
      (w.filter s).map fun x => opnd x 8 4, g.any s⟩

/-- The objects that stage i of a chain signals and waits on: those of its programs, and its hand-overs (R263). -/
def signalsOf (l : List StageSync) (handover : List Nat) (i : Nat) : List Nat :=
  ((l[i]?).map (·.sigs)).getD [] ++ if i + 1 < l.length then [(handover[i]?).getD 0] else []
def waitsOf (l : List StageSync) (handover : List Nat) (i : Nat) : List Nat :=
  ((l[i]?).map fun s => s.waits.map (·.1)).getD [] ++ if i = 0 then [] else [(handover[i - 1]?).getD 0]

/-- The edges of a chain's graph: from, to, object (R311): one from each stage that signals an object to each that waits on
it, hand-overs among them. -/
def chainEdges (l : List StageSync) (handover : List Nat) : List (Nat × Nat × Nat) :=
  (List.range l.length).flatMap fun x => (List.range l.length).flatMap fun y =>
    ((signalsOf l handover x).filter fun o => (waitsOf l handover y).contains o).map fun o => (x, y, o)

/-- The nodes that a set of nodes reaches. -/
def reachFrom (es : List (Nat × Nat × Nat)) (fuel : Nat) (set : List Nat) : List Nat :=
  match fuel with
  | 0 => set
  | fuel + 1 =>
    reachFrom es fuel (set ++ ((es.filter fun e => set.contains e.1 && !set.contains e.2.1).map (·.2.1)).eraseDups)

/-- The objects on the cycles of a graph (R311). -/
def cycleObjects (es : List (Nat × Nat × Nat)) : List Nat :=
  ((es.filter fun e => (reachFrom es 8 [e.2.1]).contains e.1).map (·.2.2)).eraseDups

/-! ### FORM (R356, R357, R362) -/

/-- An entry of check FORM. -/
def formEntry (reason subject need available : Nat) : RepEntry := ⟨1, reason, 0xFFFF, subject, need, available, 0⟩

/-- The first failing item of a list. -/
def firstFail (l : List (Bool × RepEntry)) : Option (List RepEntry) := (l.find? (·.1)).map fun e => [e.2]

/-- What the FORM checks of a stream look at. -/
structure FormIn where
  c : Nat
  setup : Setup
  geom : StripeGeom
  outs : List Nat
  stagesOn : List Nat

/-- The inputs of the checks. -/
def Module.formIn (m : Module) (s : Setup) : FormIn :=
  let c := s.ctx
  ⟨c, s, m.stripes c, (List.range 4).filter fun k => m.bit (NIS_OUT_CFG c k) NIS_OUT_CFG_en,
    (List.range 4).filter fun i => m.stageSel c i ≠ 0⟩

/-- The declaration of picture stage 8 + i: that of the table of R117 or of the user package. -/
def Module.picDecl (m : Module) (c i : Nat) : StageDecl :=
  if m.stageSel c i = 2 then match m.package? (m.rd (NIS_USER_PKG c i)) with
    | some p => m.stageDecl p.addr (m.template p.addr 0).decl
    | none => ⟨0, 0, 0, 0, 0, false, 0⟩
  else match i with
    | 0 => ⟨1, 1, 1, 1, 1200, true, 0⟩
    | 1 => ⟨2, 1, 2, 0, 900, false, 0⟩
    | 2 => ⟨3, 1, 2, 2, 2600, false, 8⟩
    | _ => ⟨4, 1, 3, 1, 700, true, 0⟩

/-- The user package of picture stage 8 + i, when it replaces the resident one (R123). -/
def Module.userPkg (m : Module) (c i : Nat) : Option Package :=
  if m.stageSel c i = 2 then m.package? (m.rd (NIS_USER_PKG c i)) else none

/-- The program of picture stage 8 + i, its address programs, and the parameters of its package (R115, R117, R123). -/
def Module.picCode (m : Module) (c i : Nat) : List Nat :=
  if m.stageSel c i = 2 then ((m.userPkg c i).map fun p => m.pkgCode p.addr).getD [] else Config.residentCode (8 + i)
def Module.picAps (m : Module) (c i : Nat) : List (List ApEntry) :=
  if m.stageSel c i = 2 then ((m.userPkg c i).map fun p => m.pkgAps p.addr).getD []
  else (Config.residentAps (8 + i)).map apOf
def Module.picOwn (m : Module) (c i : Nat) : List Byte :=
  match m.stageSel c i with
  | 0 => []
  | 1 => Config.residentParams (8 + i)
  | _ => match m.userPkg c i with
    | some p => let (s, n) := m.pkgSec p.addr secParams; m.bytes s n
    | none => []

/-- The format that picture stage 8 + i reads and writes, after a format: mono formats are 3 above the colour ones. -/
def picFormats (i inFmt : Nat) : Nat × Nat :=
  let y := if 4 ≤ inFmt then 3 else 0
  (inFmt, (match i with | 0 => 1 | 1 => 2 | 2 => 2 | _ => 3) + y)

/-- The input format of each enabled picture stage, in order. -/
def picInputs (l : List Nat) (fmt : Nat) : List (Nat × Nat) :=
  match l with
  | [] => []
  | i :: t => (i, fmt) :: picInputs t (picFormats i fmt).2

/-- The user package of picture stage 8 + i matches R123. -/
def Module.picPackageOk (m : Module) (c i inFmt : Nat) : Bool :=
  match m.package? (m.rd (NIS_USER_PKG c i)) with
  | none => false
  | some p =>
    let d := m.picDecl c i
    let (s, n) := m.pkgSec p.addr secSignature
    d.role = i + 1 && d.inFmt = inFmt && d.outFmt = (picFormats i inFmt).2 && (i ≠ 2 || [8, 16, 32].contains d.hist) &&
      !(m.fld SEC_PKG_POLICY SEC_PKG_POLICY_policy = 2 && n = 0) &&
      !(m.fld SEC_PKG_POLICY SEC_PKG_POLICY_policy ≠ 0 && n ≠ 0 && !m.signatureOk p.addr (s - p.addr) s)

/-- History bytes that a context's stages need (R124). -/
def Module.histNeed (m : Module) (x : FormIn) : Nat :=
  let n := x.geom.count * x.geom.h
  let dn := if x.stagesOn.contains 2 then 2 * up4k (n * dnPitch x.geom (m.picDecl x.c 2).hist) else 0
  let hdr := if x.stagesOn.contains 1 then
      m.fld (NIS_HDR_CFG x.c) NIS_HDR_CFG_exposures * up4k (n * hdrPitch x.geom) else 0
  let on := fun i => m.bit (NIS_DMR_CFG x.c) (if i = 0 then NIS_DMR_CFG_demosaic else NIS_DMR_CFG_tone)
  let gated := x.stagesOn.filter fun i => (i = 0 || i = 3) && on i && (m.picDecl x.c i).gateable
  dn + hdr + (gated.map fun i =>
    4 * stateSize x.geom ((x.stagesOn.filter (i < ·)).map fun j => (m.picDecl x.c j).halo).sum).sum

/-- A talker's handle: kind TALKER, its current generation (R424, R430). -/
def Module.talkerHandle (m : Module) (t : Nat) : Nat := m.fld (NET_TLK_GEN t) NET_TLK_GEN_gen * 65536 + 0x8000 + t

/-- The reserved bits [13:8] of a binding handle are ignored (R32). -/
def sameBinding (a b : Nat) : Bool := a / 16384 = b / 16384 && a % 256 = b % 256

/-- A network handle of an output is current: the talker's for AVTP, a bound window's for a window. -/
def Module.netHandleOk (m : Module) (c k : Nat) : Bool :=
  let h := m.rd (NIS_OUT_NET c k)
  let d := NIS_OUT_DEST c k
  (!m.bit d NIS_OUT_DEST_avtp || sameBinding h.toNat (m.talkerHandle (4 * c + k))) &&
    (!m.bit d NIS_OUT_DEST_window || (m.windowOf h).isSome)

/-- A user picture stage keeps R228: the plan gives a picture task no sync table, so its program must name no object. -/
def Module.picSyncOk (m : Module) (c i : Nat) : Bool :=
  match m.userPkg c i with
  | none => true
  | some p => (m.template p.addr 0).sync = 0 &&
      (m.templateCode p.addr 0).all fun x => opnd x 0 1 ≠ 0x20 && opnd x 0 1 ≠ 0x21

/-- Stale handles in the set-up and in the context's registers (R356). -/
def Module.formHandles (m : Module) (x : FormIn) : Option (List RepEntry) :=
  let c := x.c
  let stale := fun (h : Word) => (!(m.region? h).isSome, formEntry 2 h.toNat 0 0)
  let hist := m.histNeed x ≠ 0
  let reg := fun (on : Bool) (h : Word) => if on then [stale h] else []
  firstFail <|
    x.setup.stages.flatMap (fun st => ((List.range 4).filter fun i => (st.access[i]?).getD 0 ≠ 0 &&
        !st.writable.testBit (4 + i)).map (fun i => stale ((st.access[i]?).getD 0)) ++ [stale st.argsRegion]) ++
      x.setup.deliveries.flatMap (fun d => [stale d.srcRegion, (!(m.windowOf d.window).isSome, formEntry 2 d.window.toNat 0 0)]) ++
      [stale (m.rd (NIS_IN_REGION c))] ++ reg hist (m.rd (NIS_HIST_REGION c)) ++
      reg (m.bit (FE_STAT_CFG c) FE_STAT_CFG_en) (m.rd (FE_STAT_DEST c)) ++
      x.outs.flatMap fun k => [stale (m.rd (NIS_OUT_REGION c k)),
        (!m.netHandleOk c k, formEntry 2 (m.rd (NIS_OUT_NET c k)).toNat 0 0)] ++
        reg (m.bit (NIS_OUT_DEST c k) NIS_OUT_DEST_clip) (m.rd (NIS_OUT_CLIP c k))

/-- Packages that are not loaded or do not match (R123, R227, R235). -/
def Module.formPackages (m : Module) (x : FormIn) : Option (List RepEntry) :=
  let stages := (x.setup.stages.zip (List.range 8)).flatMap fun (st, i) =>
    match m.package? st.package with
    | none => [(true, formEntry 3 i 0 0)]
    | some p =>
      [(decide (m.pkgTemplates p.addr ≤ st.template), formEntry 3 i 0 0),
        (decide (st.syncEntries < (m.template p.addr st.template).sync), formEntry 1 (64 + 64 * i + 14) 0 0)]
  let pics := ((picInputs x.stagesOn (if m.mono x.c then 4 else 1)).filter fun e => m.stageSel x.c e.1 = 2).map
    fun e => (!m.picPackageOk x.c e.1 e.2, formEntry 3 (8 + e.1) 0 0)
  firstFail (stages ++ pics)

/-- The line bytes of an AVTP frame (R426). -/
def OutGeom.lineBytes (o : OutGeom) : Nat :=
  match o.fmt with | 0 => o.wo + o.wo / 2 | 2 => 2 * o.wo | 3 => 4 * o.wo | _ => 3 * o.wo

/-- The register whose field breaks R130, R132, R134 or R426 for an output, if any (R362). -/
def Module.outError (m : Module) (x : FormIn) (k : Nat) : Option Nat :=
  let c := x.c
  let o := m.outGeom c k
  let kind := m.fld (NIS_OUT_CFG c k) NIS_OUT_CFG_kind
  let w := o.wo * o.sx
  let h := o.ho * o.sy
  let t := 4 * c + k
  let frame := o.lineBytes + 56 + if m.bit (NET_TLK_CFG t) NET_TLK_CFG_replicate then 6 else 0
  let tooLong := (List.range 2).any fun p => (m.fld (NET_TLK_CFG t) NET_TLK_CFG_ports).testBit p &&
    m.fld (NET_PORT_CFG p) NET_PORT_CFG_max_frame < frame
  let bad : List (Bool × Nat) := [
    (x.geom.h < o.sy || o.fmt ≤ 1 && x.geom.h < 2 * o.sy || (kind = 3) ≠ (o.fmt = 6) || 7 ≤ o.fmt ||
      o.fmt = 6 && o.chans = 4 && m.fld (CAP_PORT_CFG c) CAP_PORT_CFG_mosaic ≠ 4, NIS_OUT_CFG c k),
    (2 ≤ kind && (o.x0 % (2 * o.sx) ≠ 0 || o.y0 % (2 * o.sy) ≠ 0 || x.geom.w ≤ o.x0 || x.geom.lines ≤ o.y0),
      NIS_OUT_WIN_XY c k),
    (2 ≤ kind && (w = 0 || h = 0 || m.fld (NIS_OUT_WIN_WH c k) NIS_OUT_WIN_WH_w % (2 * o.sx) ≠ 0 ||
      m.fld (NIS_OUT_WIN_WH c k) NIS_OUT_WIN_WH_h % (2 * o.sy) ≠ 0) || x.geom.w < o.x0 + w || x.geom.lines < o.y0 + h,
      NIS_OUT_WIN_WH c k),
    (m.bit (NIS_OUT_DEST c k) NIS_OUT_DEST_avtp && (!([0, 2, 3, 4].contains o.fmt) || tooLong), NIS_OUT_DEST c k)]
  (bad.find? (·.1)).map (·.2)

/-- Crop, halo, HDR, MAC and output rules (R70, R117 to R120, R130). -/
def Module.formGeometry (m : Module) (x : FormIn) : Option (List RepEntry) :=
  let c := x.c
  let (gw, gh) := m.geom c
  let x0 := m.fld (FE_CROP_XY c) FE_CROP_XY_x0
  let y0 := m.fld (FE_CROP_XY c) FE_CROP_XY_y0
  let w := x.geom.w
  let h := x.geom.lines
  let halo := (x.stagesOn.map fun i => (m.picDecl c i).halo).sum
  let mac := (x.stagesOn.map fun i => (m.picDecl c i).mac).sum
  firstFail <|
    [(x0 % 2 ≠ 0 || y0 % 2 ≠ 0 || gw < x0 + w || gh < y0 + h, formEntry 6 (FE_CROP_XY c) 0 0),
      (w % 2 ≠ 0 || h % 2 ≠ 0 || w < 16 || h < 16, formEntry 6 (FE_CROP_WH c) 0 0),
      (decide (x.geom.a < halo), formEntry 6 (NIS_STRIPE_CFG c) halo x.geom.a),
      (m.mono c && x.stagesOn.contains 0, formEntry 6 (NIS_STAGE_SEL c) 0 0),
      (x.stagesOn.contains 1 && m.stageSel c 1 = 1 && m.fld (NIS_HDR_CFG c) NIS_HDR_CFG_exposures ≤ 1,
        formEntry 6 (NIS_HDR_CFG c) 0 0),
      (x.stagesOn.contains 1 && m.bit (FE_EXP_CFG c) FE_EXP_CFG_ae_en, formEntry 6 (FE_EXP_CFG c) 0 0),
      (x.stagesOn.any fun i => m.stageSel c i = 2 && 8 < Config.sideReach (m.picCode c i),
        formEntry 6 (NIS_STAGE_SEL c) 0 0),
      (decide (8000 < mac), formEntry 14 c mac 8000)] ++
    x.outs.map fun k => ((m.outError x k).isSome, formEntry 6 ((m.outError x k).getD 0) 0 0)

/-- Region sizes (R97, R112, R124, R133, R325, R348). -/
def Module.formSizes (m : Module) (x : FormIn) : Option (List RepEntry) :=
  let c := x.c
  let small := fun (h : Word) (spm dram : Bool) (need : Nat) => match m.region? h with
    | none => (true, formEntry 7 h.toNat need 0)
    | some r =>
      let d := isDramHandle h
      let ok := need ≤ r.size && (!d || dram) && (d || spm)
      (!ok, formEntry 7 h.toNat need (if !d && !spm || d && !dram then 0 else r.size))
  let stat := if m.bit (FE_STAT_CFG c) FE_STAT_CFG_en then
      [small (m.rd (FE_STAT_DEST c)) true true (m.fld (FE_STAT_CFG c) FE_STAT_CFG_slots * 8192)] else []
  let hist := if m.histNeed x = 0 then [] else [small (m.rd (NIS_HIST_REGION c)) true true (m.histNeed x)]
  firstFail <| stat ++ [small (m.rd (NIS_IN_REGION c)) true false (x.geom.slots * x.geom.slot)] ++ hist ++
    x.setup.stages.map (fun st => small st.argsRegion true true (st.argsOffset + st.argsSlots * st.tasks * 256)) ++
    x.outs.flatMap fun k =>
      let b := (m.outGeom c k).slotBytes
      [small (m.rd (NIS_OUT_REGION c k)) true false (m.fld (NIS_OUT_CFG c k) NIS_OUT_CFG_slots * b)] ++
        if m.bit (NIS_OUT_DEST c k) NIS_OUT_DEST_clip then
          [small (m.rd (NIS_OUT_CLIP c k)) false true (256 + 2 * ((b + 255) / 256 * 256))] else []

/-- The objects of a stream by role (R307): each sync table entry is of the one role of the tables. -/
def Module.streamObjects (m : Module) (x : FormIn) : List Nat × List Nat :=
  let c := x.c
  let i := NIS_IN_SYNC c
  ([m.fld i NIS_IN_SYNC_stripe_obj] ++
    (if m.bit i NIS_IN_SYNC_frame_en then [m.fld i NIS_IN_SYNC_frame_obj] else []) ++
    (if m.bit (FE_STAT_CFG c) FE_STAT_CFG_en && m.bit (FE_STAT_CFG c) FE_STAT_CFG_sync_en then
      [m.fld (FE_STAT_CFG c) FE_STAT_CFG_sync_obj] else []) ++
    x.outs.map (fun k => m.fld (NIS_OUT_DEST c k) NIS_OUT_DEST_sync_obj) ++
    x.setup.handover.take (x.setup.stages.length - 1),
    (x.setup.stages.flatMap fun st => st.sync.take st.syncEntries).eraseDups)

/-- The objects' rules (R228, R263, R307, R311, R313). -/
def Module.formObjects (m : Module) (x : FormIn) : Option (List RepEntry) :=
  let (roles, tables) := m.streamObjects x
  let all := roles ++ tables
  let twice := (List.range roles.length).filterMap fun i => match roles[i]? with
    | some o => if (roles.drop (i + 1) ++ tables).contains o then some o else none
    | none => none
  let ss := x.setup.stages.map m.stageSync
  let sigs := ss.flatMap (·.sigs)
  let cyc := cycleObjects (chainEdges ss x.setup.handover)
  match firstFail <|
    ((List.range (x.setup.stages.length - 1)).map fun i =>
      (decide (8192 ≤ (x.setup.handover[i]?).getD 0), formEntry 1 (20 + 2 * i) 0 0)) ++
    (x.setup.stages.zip (List.range 8)).flatMap (fun (st, i) => (List.range st.syncEntries).map fun k =>
      (decide (8192 ≤ (st.sync[k]?).getD 0), formEntry 1 (64 + 64 * i + 16 + 2 * k) 0 0)) ++
    all.map (fun o => (m.owned o, formEntry 8 o 0 0)) ++ twice.map (fun o => (true, formEntry 10 o 0 0)) ++
    x.stagesOn.map (fun i => (!m.picSyncOk x.c i, formEntry 10 0xFFFFFFFF 0 0)) ++
    ss.flatMap (fun s => [(!s.waitS.isEmpty || s.sigS, formEntry 10 0xFFFFFFFF 0 0)] ++
      s.waits.map fun w => (!sigs.contains w.1, formEntry 10 w.1 0 0)) with
  | some e => some e
  | none => if cyc.isEmpty then none else some (cyc.map fun o => formEntry 9 o 0 0)

/-- Traffic of a stream on the network (R418, R419): for each port, frames' bytes of its largest unit and that unit's
period in ns. -/
def Module.netUnits (m : Module) (x : FormIn) (p : Nat) : List (Nat × Nat) :=
  let c := x.c
  let stripe := x.geom.h * x.setup.linePeriod
  let win := fun (h : Word) (bytes period : Nat) => match (m.windowOf h).bind m.binding? with
    | none => []
    | some b =>
      if b.port.val = p || b.replicate then
        let per := 90 + (if b.udp then 28 else 0) + if b.replicate then 6 else 0
        [(b.receivers.length * (bytes + (bytes + 1023) / 1024 * per), period)]
      else []
  x.outs.flatMap (fun k =>
    let o := m.outGeom c k
    let t := 4 * c + k
    let lines := (x.geom.h + o.sy - 1) / o.sy
    let av := if m.bit (NIS_OUT_DEST c k) NIS_OUT_DEST_avtp && (m.fld (NET_TLK_CFG t) NET_TLK_CFG_ports).testBit p then
        [(lines * (o.lineBytes + 76 + if m.bit (NET_TLK_CFG t) NET_TLK_CFG_replicate then 6 else 0), stripe)] else []
    let rows := (o.planes.map fun q => (q.1 * lines + o.ho - 1) / max 1 o.ho * q.2).sum
    av ++ if m.bit (NIS_OUT_DEST c k) NIS_OUT_DEST_window then win (m.rd (NIS_OUT_NET c k)) (rows + 64) stripe else []) ++
  x.setup.deliveries.flatMap fun d =>
    win d.window d.bytes (if ((x.setup.stages[d.after]?).map (·.frameUnit)).getD false then x.setup.framePeriod else stripe)

/-- The stream sends anything on the network. -/
def Module.netUsed (m : Module) (x : FormIn) : Bool :=
  !x.setup.deliveries.isEmpty || x.outs.any fun k =>
    m.bit (NIS_OUT_DEST x.c k) NIS_OUT_DEST_avtp || m.bit (NIS_OUT_DEST x.c k) NIS_OUT_DEST_window

/-- The mode of a traffic class on a port (R416). -/
def Module.classMode (m : Module) (p cl : Nat) : Nat :=
  if cl = 7 then 0 else bitsOf (m.fld (NET_TC_CFG p) NET_TC_CFG_modes) (2 * cl + 1) (2 * cl)

/-- The traffic class is a PLAN class, and the talkers' PCPs map to it (R418). -/
def Module.formClass (m : Module) (x : FormIn) : Option (List RepEntry) :=
  let cl := x.setup.tclass
  let bad := (List.range 2).any fun p => !(m.netUnits x p).isEmpty && m.classMode p cl ≠ 2
  let pcp := x.outs.any fun k => m.bit (NIS_OUT_DEST x.c k) NIS_OUT_DEST_avtp && (List.range 2).any fun p =>
    let t := 4 * x.c + k
    (m.fld (NET_TLK_CFG t) NET_TLK_CFG_ports).testBit p &&
      bitsOf (m.fld (NET_PCP_MAP p) NET_PCP_MAP_map) (3 * m.fld (NET_TLK_DMAC_HI t) NET_TLK_DMAC_HI_pcp + 2)
        (3 * m.fld (NET_TLK_DMAC_HI t) NET_TLK_DMAC_HI_pcp) ≠ cl
  firstFail [(m.netUsed x && (bad || pcp), formEntry 1 17 0 0)]

/-- Trigger period and blanking (R57, R103, R356). -/
def Module.formTiming (m : Module) (x : FormIn) : Option (List RepEntry) :=
  let c := x.c
  let mode := m.fld (CAP_TRIG_CFG c) CAP_TRIG_CFG_mode
  let period := if mode = 1 then (m.fld (CAP_TRIG_DIV c) CAP_TRIG_DIV_div) * 5 / 3
    else m.fld (CAP_TRIG_PERIOD c) CAP_TRIG_PERIOD_period_ns
  let loops := m.bit (FE_EXP_CFG c) FE_EXP_CFG_ae_en || m.bit (FE_EXP_CFG c) FE_EXP_CFG_awb_en
  firstFail [(mode ≠ 0 && period < x.setup.framePeriod, formEntry 12 c x.setup.framePeriod period),
    (loops && x.setup.vblank < 100000, formEntry 13 c 100000 x.setup.vblank)]

/-- The first FORM check of a set-up that fails: handles, packages, context, geometry, sizes, objects, window access,
trigger and blanking, in the order of R356. -/
def Module.formOf (m : Module) (x : FormIn) : Option (List RepEntry) :=
  let first := fun (l : List (Unit → Option (List RepEntry))) => l.findSome? fun f => f ()
  first [
    fun _ => m.formClass x,
    fun _ => m.formHandles x,
    fun _ => m.formPackages x,
    fun _ => (m.streams.find? x.c).map fun s => [formEntry 4 (streamHandle x.c s) 0 0],
    fun _ => firstFail [(!m.calibrated x.c, formEntry 5 x.c 0 0)],
    fun _ => m.formGeometry x,
    fun _ => m.formSizes x,
    fun _ => m.formObjects x,
    fun _ => firstFail ((x.setup.stages.zip (List.range 8)).map fun (st, i) =>
      (decide (16 ≤ st.writable), formEntry 11 i 0 0)),
    fun _ => m.formTiming x]

/-- Check FORM of an ADMIT: its record's fields, then the rest. -/
def Module.form (m : Module) (q : AdmitReq) : Option (List RepEntry) :=
  match q.malformed with
  | some o => some [formEntry 1 o 0 0]
  | none => m.formOf (m.formIn q.setup)

end Sys2Proof.Machine
end

