-- ==== Sys2Proof/Machine/Planner.lean ====
section
/-!
DEFINITION. The fox's planner (12_admission_modes R356 to R363): what a set-up books of each resource, which stages are
spilled, where its stages are placed, and the checks of all that. What only the fox's packing decides (which engine, which
slot in a period) is a free choice within what the rules bound (assumption log 29).
-/
namespace Sys2Proof.Machine

/-! ### Rates -/

/-- A number per period in ns, per ms. -/
def perMs (n ns : Nat) : Nat := n * 1000000 / max 1 ns

/-- The units of 256 B that some bytes take (R244). -/
def unitsIn (bytes : Nat) : Nat := (bytes + 255) / 256

/-- The stripe period of a set-up, and the period of a stage's unit, in ns. -/
def FormIn.stripeNs (x : FormIn) : Nat := x.geom.h * x.setup.linePeriod
def FormIn.unitNs (x : FormIn) (st : StageSetup) : Nat := if st.frameUnit then x.setup.framePeriod else x.stripeNs

/-- Units of a stage per frame. -/
def unitsOf (st : StageSetup) (g : StripeGeom) : Nat := if st.frameUnit then 1 else g.count

def DramUse.none : DramUse := ⟨0, 0, 0⟩
def DramUse.add (a b : DramUse) : DramUse := ⟨a.read + b.read, a.write + b.write, a.remote + b.remote⟩
def DramUse.sum (l : List DramUse) : DramUse := l.foldl .add .none

/-- A share of DRAM: 0 read, 1 write, 2 remote (R361). -/
def DramUse.share (u : DramUse) (k : Nat) : Nat := match k with | 0 => u.read | 1 => u.write | _ => u.remote

/-- ACLK cycles per ms of the mode, and the ns that some cycles take (R369). -/
def Module.aclkMs (m : Module) : Nat := if m.mode = 2 then 675000 else 900000
def Module.cycleNs (m : Module) (n : Nat) : Nat := (n * 1000000 + m.aclkMs - 1) / m.aclkMs

/-! ### What the stages book (R122, R244, R247, R249, R250, R358, R363) -/

/-- The weights of a stage whose package lies in DRAM: bytes; 0 elsewhere (R363). -/
def Module.copyBytes (m : Module) (st : StageSetup) : Nat :=
  match m.package? st.package with
  | some p => if p.addr < spmSize then 0 else (m.pkgSec p.addr secWeights).2
  | none => 0

/-- The template of a stage, with its shape values in block 0 (R248). -/
def Module.stageTemplate (m : Module) (st : StageSetup) : Option (Template × List Nat) :=
  (m.package? st.package).map fun p =>
    let t := m.template p.addr st.template
    (t, m.shapeVals (m.stageArgs st 0 0) t.shapes)

/-- ACLK cycles of one task of an analysis stage, by its tiler's estimate, and the units that it touches (R249, R250). -/
def Module.taskCost (m : Module) (st : StageSetup) : Nat × Nat :=
  match m.stageTemplate st with
  | none => (0, 0)
  | some (t, shape) => match t.var[t.choose shape]? with
    | some v => (t.estimate shape, unitsIn (t.tiles shape v * v.bytes))
    | none => (t.estimate shape, 0)

/-- Units that a unit of an analysis stage reads and writes in DRAM (R247): its tasks' units, where all their memory lies
there; none where no memory does but spilled weights, which are read once; otherwise how its program divides them is open
(R363, assumption log 29). -/
def Module.stageDram (m : Module) (st : StageSetup) (spilled : Bool) : Nat × Nat :=
  let w := if spilled then unitsIn (m.copyBytes st) else 0
  let hs := (List.range 4).filter fun i => (st.access[i]?).getD 0 ≠ 0
  let inDram := hs.map fun i => isDramHandle ((st.access[i]?).getD 0)
  let total := (m.taskCost st).2 * st.tasks
  let writes := hs.any fun i => st.writable.testBit i && isDramHandle ((st.access[i]?).getD 0)
  if inDram.all (!·) then (w, 0)
  else
    let code := ((m.package? st.package).map fun p => m.pkgCode p.addr).getD []
    let t := Config.dramTouched code (inDram ++ [spilled]) total
    let wr := if writes then min t.2 total else 0
    let rd := if inDram.all id && (spilled || m.copyBytes st = 0) then total - wr else min t.1 (total - wr)
    (max rd w, wr)

/-- What an analysis stage books (R247, R271, R356): a FRAME unit's time lies anywhere in the frame. -/
def Module.stageBook (m : Module) (x : FormIn) (st : StageSetup) (group : Nat) (spilled : Bool) : Booking :=
  let (cyc, touched) := m.taskCost st
  let ns := x.unitNs st
  let n := max 1 group
  let (r, w) := m.stageDram st spilled
  ⟨cyc, cyc * n * unitsOf st x.geom * 1000000 / max 1 x.setup.framePeriod,
    if st.frameUnit then 0 else perMs (cyc * n) ns, perMs ((touched * st.tasks - (r + w)) * 256) ns,
    ⟨perMs r ns, perMs w ns, 0⟩⟩

/-- The bytes of its history region that a picture stage reads and writes for a stripe (R124, R128). -/
def Module.histTraffic (m : Module) (x : FormIn) (p : PicPlan) : Nat × Nat :=
  let g := x.geom
  let rows := g.h + 2 * p.below
  let gate := p.gateable && m.bit (NIS_DMR_CFG x.c) (if p.stage = 8 then NIS_DMR_CFG_demosaic else NIS_DMR_CFG_tone)
  match p.stage with
  | 10 => (rows * dnPitch g (m.histBytes x.c), g.h * dnPitch g (m.histBytes x.c))
  | 9 => ((m.fld (NIS_HDR_CFG x.c) NIS_HDR_CFG_exposures - 1) * (g.h * hdrPitch g), g.h * hdrPitch g)
  | _ => if gate then (2 * rows * hdrPitch g, 2 * rows * hdrPitch g) else (0, 0)

/-- What a picture stage books, of its task's cycles; the last formats the outputs too (R117, R356). -/
def Module.picBook (m : Module) (x : FormIn) (cycles : Nat) (p : PicPlan) : Booking :=
  let ns := x.stripeNs
  let dram := isDramHandle (m.rd (NIS_HIST_REGION x.c))
  let (r, w) := m.histTraffic x p
  ⟨cycles, cycles * x.geom.count * 1000000 / max 1 x.setup.framePeriod, perMs cycles ns,
    perMs (2 * p.size x.geom + if dram then 0 else r + w) ns,
    if dram then ⟨perMs (unitsIn r) ns, perMs (unitsIn w) ns, 0⟩ else .none⟩

/-- What a stream books besides its stages (R97, R323): statistics, clip copies, deliveries from DRAM. -/
def Module.copyDram (m : Module) (x : FormIn) : DramUse :=
  let frame := fun (n : Nat) => perMs n x.setup.framePeriod
  let stat := if m.bit (FE_STAT_CFG x.c) FE_STAT_CFG_en && isDramHandle (m.rd (FE_STAT_DEST x.c)) then frame 32 else 0
  let clips := (x.outs.filter fun k => m.bit (NIS_OUT_DEST x.c k) NIS_OUT_DEST_clip).map fun k =>
    frame (unitsIn (m.outGeom x.c k).slotBytes)
  let out := (x.setup.deliveries.filter fun d => isDramHandle d.srcRegion).map fun d =>
    perMs (unitsIn d.bytes) (match x.setup.stages[d.after]? with | some st => x.unitNs st | none => x.stripeNs)
  ⟨0, stat + clips.sum, out.sum⟩

/-- SPM traffic of a stream besides its stages, in bytes per ms (R358): the lane's lines, the outputs written, their copies,
deliveries from SPM. -/
def Module.copySpm (m : Module) (x : FormIn) : Nat :=
  let outs := x.outs.map fun k =>
    let n := perMs (m.outGeom x.c k).slotBytes x.setup.framePeriod
    n * (1 + ([NIS_OUT_DEST_clip, NIS_OUT_DEST_avtp, NIS_OUT_DEST_window].filter (m.bit (NIS_OUT_DEST x.c k) ·)).length)
  let del := (x.setup.deliveries.filter fun d => !isDramHandle d.srcRegion).map fun d =>
    perMs d.bytes (match x.setup.stages[d.after]? with | some st => x.unitNs st | none => x.stripeNs)
  perMs x.geom.slot x.stripeNs + outs.sum + del.sum

/-! ### LANE, SPM, DRAM, DMA, NETWORK (R67, R323, R329, R363, R419) -/

/-- An entry whose need and available the fox works out from its packing: free values. -/
def Module.freeEntry (m : Module) (check reason resource subject : Nat) : RepEntry × Module :=
  let (a, m) := m.open_
  let (b, m) := m.open_
  (⟨check, reason, resource, subject, a.toNat, b.toNat, 0⟩, m)

/-- An entry of a resource that falls short. -/
def shortfall (check resource subject need available : Nat) : RepEntry := ⟨check, 0, resource, subject, need, available, 0⟩

/-- Lane and slot pairs that may take the stream (R67, R356). -/
def Module.lanesFor (m : Module) (c line : Nat) : List (Nat × Nat) := m.lanesAt c (m.laneCost c line)

/-- Check LANE. -/
def Module.checkLane (m : Module) (x : FormIn) : List RepEntry :=
  let line := x.setup.linePeriod
  if !(m.lanesFor x.c line).isEmpty then []
  else
    let best := ((if m.feOn x.c then m.freeSlots x.c else []).map fun e => 570000 - m.laneBooked x.c e.1).foldl max 0
    [shortfall 2 0xFFFF 0xFFFFFFFF (m.laneCost x.c line) best]

/-- Which stages are spilled to cover a shortfall, in the order of R363: `l` lists units per frame, index and size. -/
def spillStages (fuel : Nat) (l : List (Nat × Nat × Nat)) (short : Nat) : List Nat :=
  match fuel with
  | 0 => []
  | fuel + 1 =>
    if short = 0 then []
    else match l with
      | [] => []
      | h :: _ =>
        let low := l.foldl (fun (v : Nat) (e : Nat × Nat × Nat) => min v e.1) h.1
        let group := l.filter fun (e : Nat × Nat × Nat) => e.1 = low
        let cover := group.filter fun (e : Nat × Nat × Nat) => short ≤ e.2.2
        let best := match cover with
          | y :: r => r.foldl (fun (b e : Nat × Nat × Nat) => if e.2.2 < b.2.2 then e else b) y
          | [] => group.foldl (fun (b e : Nat × Nat × Nat) => if b.2.2 < e.2.2 then e else b) ((group.head?).getD h)
        best.2.1 :: spillStages fuel (l.filter (·.2.1 ≠ best.2.1)) (short - best.2.2)

/-- Free space of the SPREAD kind, in bytes. -/
def Module.spreadFree (m : Module) : Nat :=
  (((List.range 8).flatMap fun s => m.spmGaps s true).map (·.2)).sum

/-- The resident set of a picture stage's user package: its use of the area, its bytes, where they lie (R211, R255). -/
def Module.picRes (m : Module) (c i : Nat) : Nat × Nat × Nat :=
  match m.userPkg c i with
  | none => (0, 0, 0)
  | some p =>
    let t := m.template p.addr 0
    (t.res, t.resBytes, (m.pkgSec p.addr secWeights).1 + t.resOffset)

/-- The plan of the enabled picture stages without their places: stage, formats, halo, halo below, gateable (R117, R118). -/
def Module.picRows (m : Module) (x : FormIn) : List PicPlan :=
  let fmt := if m.mono x.c then 4 else 1
  let zero : Booking := ⟨0, 0, 0, 0, .none⟩
  let l := (picInputs x.stagesOn fmt).map fun e =>
    let d := m.picDecl x.c e.1
    let below := ((x.stagesOn.filter (e.1 < ·)).map fun j => (m.picDecl x.c j).halo).sum
    let (use, bytes, src) := m.picRes x.c e.1
    PicPlan.mk (8 + e.1) 0 (m.picCode x.c e.1) (m.picAps x.c e.1) 0 0 0 (up64 (nisBlockLen + (m.picOwn x.c e.1).length)) 0 0
      d.halo below e.2 (picFormats e.1 e.2).2 ((e.1 = 0 || e.1 = 3) && d.gateable) [] use bytes src 0 zero
  if l.isEmpty && !x.outs.isEmpty then
    [PicPlan.mk 11 0 [] [] 0 0 0 (up64 nisBlockLen) 0 0 0 0 fmt fmt false [] 0 0 0 0 zero]
  else l

/-- Plan-reserved SPM of a picture stage before its stripe buffers (R122, R188): its argument block, its four parameter
blocks, the reuse counts of its stripes' rows. -/
def picHead (p : PicPlan) (g : StripeGeom) : Nat :=
  up4k (256 + 4 * p.paramLen + if p.gateable then g.count * (g.h + 2 * p.below) else 0)

/-- Plan-reserved SPM of a picture stage: that, and its ring of two stripe buffers. -/
def picSpm (p : PicPlan) (g : StripeGeom) : Nat := picHead p g + if p.code.isEmpty then 0 else up4k (2 * p.size g)

/-- The need of check SPM without and with its spilled stages, and the spilled stages (R363). -/
def Module.spmNeed (m : Module) (x : FormIn) : Nat × Nat × List Nat :=
  let l := (x.setup.stages.zip (List.range 8)).map fun (st, i) => (unitsOf st x.geom, i, m.copyBytes st)
  let need := (l.map (·.2.2)).sum + ((m.picRows x).map fun p => picSpm p x.geom).sum
  let out := if x.setup.allowSpill then spillStages 8 (l.filter (·.2.2 ≠ 0)) (need - m.spreadFree) else []
  (need, need - ((l.filter fun e => out.contains e.2.1).map (·.2.2)).sum, out)

/-- Spilling is tried for the set-up: SPILL_TRIED (R363). -/
def Module.spillTried (m : Module) (x : FormIn) : Bool := x.setup.allowSpill && m.spreadFree < (m.spmNeed x).1

/-- SPILLED entries of an admitted set-up: the bytes left in DRAM, the read units per ms booked for them (R362, R363). -/
def Module.spillEntries (m : Module) (x : FormIn) (out : List Nat) : List RepEntry :=
  (x.setup.stages.zip (List.range 8)).filterMap fun (st, i) =>
    let n := m.copyBytes st
    if out.contains i then some ⟨4, 19, 0xFFFF, i, n, perMs (unitsIn n) (x.unitNs st), 0⟩ else none

/-- Check SPM: bytes, and that what is reserved finds its place. -/
def Module.checkSpm (m : Module) (x : FormIn) (placed : Bool) : List RepEntry :=
  let rest := (m.spmNeed x).2.1
  if placed && rest ≤ m.spreadFree then [] else [shortfall 4 0xFFFF 0xFFFFFFFF rest m.spreadFree]

/-- Units per ms of share k that may be booked: 88 %, or 80 % with inline ECC (R246, R322, R323, R363). -/
def Module.shareUnits (m : Module) (k : Nat) : Nat :=
  16 * (if m.mode = 2 then 50000 else 75000) * (match k with | 0 => 6 | 1 => 3 | _ => 1) / 10 *
    (if m.bit DDR_STAT DDR_STAT_inline_ecc then 80 else 88) / 100

/-- Check DRAM: each share beside what the admitted streams book (R323). -/
def Module.checkDram (m : Module) (use : DramUse) : List RepEntry :=
  let held := DramUse.sum (m.streams.map (·.2.plan.dram))
  (List.range 3).filterMap fun k =>
    let left := m.shareUnits k - held.share k
    if left < use.share k then some (shortfall 5 k 0xFFFFFFFF (use.share k) left) else none

/-- Channels that a plan takes: one per output with a clip, AVTP or window destination and one per delivery (assumption log
30). -/
def Module.channelsFor (m : Module) (x : FormIn) : Nat :=
  (x.outs.filter fun k => [NIS_OUT_DEST_clip, NIS_OUT_DEST_avtp, NIS_OUT_DEST_window].any (m.bit (NIS_OUT_DEST x.c k) ·)).length
    + x.setup.deliveries.length

/-- Channels at rest that no plan owns. -/
def Module.freeChannels (m : Module) : List Nat :=
  (List.range 64).filter m.chanFree

/-- Check DMA. -/
def Module.checkDma (m : Module) (x : FormIn) : List RepEntry :=
  let n := m.freeChannels.length
  if n < m.channelsFor x then [shortfall 6 0xFFFF 0xFFFFFFFF (m.channelsFor x) n] else []

/-- The stream's wire bytes of a unit: what it sends in units of one period is one unit's. -/
def unitSums (l : List (Nat × Nat)) : List (Nat × Nat) := l.map fun u => (((l.filter (·.2 = u.2)).map (·.1)).sum, u.2)

/-- The PLAN window that the stream books on a port, in ns (R419). -/
def Module.netWindow (m : Module) (x : FormIn) (p : Nat) : Nat :=
  let cyc := m.fld (NET_QBV_CYCLE p) NET_QBV_CYCLE_cycle_ns
  let slow := m.fld (NET_PORT_STAT p) NET_PORT_STAT_speed = 1
  match (unitSums (m.netUnits x p)).foldl (fun (b : Nat × Nat) u => if b.1 < u.1 then u else b) (0, 1) with
  | (0, _) => 0
  | (b, t) =>
    let n := (cyc + t - 1) / max 1 t
    let bits := (n * b + m.fld (NET_PORT_CFG p) NET_PORT_CFG_max_frame + 20) * 8
    if slow then bits else (bits * 2 + 4) / 5

/-- Check NETWORK of a port (R419): the need in ns per ms against 750 000. -/
def Module.checkNet (m : Module) (x : FormIn) (p : Nat) : List RepEntry :=
  let w := m.netWindow x p
  let cyc := max 1 (m.fld (NET_QBV_CYCLE p) NET_QBV_CYCLE_cycle_ns)
  let booked := (m.streams.map fun e => ((e.2.plan.net.filter (·.1 = p)).map (·.2)).sum).sum
  let need := ((booked + w) * 1000000 + 20000 * cyc) / cyc
  if w ≠ 0 && 750000 < need then [shortfall 7 (p * 8 + x.setup.tclass) 0xFFFFFFFF need 750000] else []

/-! ### Engines (R238, R255, R258, R271, R505) -/

/-- Scheduled engines of a cluster in the mode (R369). -/
def Module.engineNames (m : Module) : Nat := if m.tests then 16 else 17

/-- Logical engine q = 17 n + m is there to work (R452, R504): its position is powered, neither QUARANTINED nor OFFLINE. -/
def Module.engineUp (m : Module) (q : Nat) : Bool :=
  let cl : Fin 8 := (BitVec.ofNat 3 (q / 17)).toFin
  q % 17 < m.engineNames && match m.posOf cl (q % 17) with
    | some e => m.engOn cl e.x && m.engState e ≠ 4 && m.engState e ≠ 5
    | none => false

/-- The logical engine's cluster keeps a fault margin: outside ASSURED and COOL, or with a working spare (R505). -/
def Module.spared (m : Module) (q : Nat) : Bool := !m.tests || (m.workingSpare (BitVec.ofNat 3 (q / 17)).toFin).isSome

/-- The engines that work may be placed on (R356, R505): in ASSURED and COOL those of clusters with a working spare, while
there is one. -/
def Module.planEngines (m : Module) : List Nat :=
  let up := (List.range (17 * 8)).filter m.engineUp
  let l := up.filter m.spared
  if l.isEmpty then up else l

/-- Check FAULT_MARGIN fails for every placement: no powered cluster has a working spare (R505). -/
def Module.noSpare (m : Module) : Bool := m.tests && ((List.range (17 * 8)).filter m.engineUp).all (!m.spared ·)

/-- The ACLK cycles per ms of one logical engine that may be booked (R271). -/
def Module.engineCap (m : Module) : Nat := m.aclkMs * (if m.tests then 15 else 16) / 16

/-- A stage's tasks on a logical engine. -/
def StagePlan.times (p : StagePlan) (q : Nat) : Nat := (p.engines.filter (· = q)).length

/-- Cycles per ms that placed stages book on a logical engine: over frame periods, and in any stripe period. -/
def bookedOn (q : Nat) (l : List StagePlan) : Nat × Nat :=
  ((l.map fun p => p.times q * p.book.load).sum, (l.map fun p => p.times q * p.book.peak).sum)

/-- What is left of a logical engine beside placed stages: over frame periods, and in any stripe period. -/
def Module.roomOn (m : Module) (q : Nat) (l : List StagePlan) : Nat :=
  let b := bookedOn q l
  m.engineCap - max b.1 b.2

/-- One more task of a stage fits beside placed stages and those chosen before (R271). -/
def Module.hasRoom (m : Module) (l : List StagePlan) (p : StagePlan) (chosen : List Nat) (q : Nat) : Bool :=
  let b := bookedOn q l
  let n := (chosen.filter (· = q)).length + 1
  b.1 + n * p.book.load ≤ m.engineCap && b.2 + n * p.book.peak ≤ m.engineCap

/-- The RES indices that resident sets take on a logical engine: first index and number (R255). -/
def resSpans (q : Nat) (l : List StagePlan) : List (Nat × Nat) :=
  l.flatMap fun p => match p.engines.findIdx? (· = q) with
    | some k => if p.resBytes = 0 then [] else [(p.resAt k, (p.resBytes + 8191) / 8192)]
    | none => []

/-- The first index from which a set of n indices lies beside the others in the resident area of 12 (R255). -/
def resFit (l : List (Nat × Nat)) (n : Nat) : Option Nat :=
  (List.range (13 - n)).find? fun s => n ≤ 12 && l.all fun e => s + n ≤ e.1 || e.1 + e.2 ≤ s

/-- The resident area of a logical engine takes the stage: room for its set, and no set beside a FUSED stage (R255). -/
def resTakes (l : List StagePlan) (p : StagePlan) (q : Nat) : Bool :=
  (p.resUse ≠ 1 || (resSpans q l).isEmpty) &&
    (p.resBytes = 0 || (l.all fun o => o.resUse ≠ 1 || !o.engines.contains q) &&
      (resFit (resSpans q l) ((p.resBytes + 8191) / 8192)).isSome)

/-- Choose n logical engines among those allowed, each with the cycles for one more share of the stage (`ok`, given those
chosen before); a group takes neighbours of one cluster. -/
def Module.chooseEngines (m : Module) (l : List Nat) (n group : Nat) (ok : List Nat → Nat → Bool) : List Nat × Module :=
  if group ≤ 1 then
    (List.range n).foldl (fun (a : List Nat × Module) _ =>
      let l := l.filter (ok a.1)
      let (i, m) := a.2.pick (max 1 l.length)
      (a.1 ++ (l[i]?).toList, m)) ([], m)
  else
    let l := l.filter (ok [])
    let starts := l.filter fun q => (List.range group).all fun k => l.contains (q + k) && (q + k) / 17 = q / 17
    let (i, m) := m.pick (max 1 starts.length)
    match starts[i]? with
    | some q => ((List.range group).map (q + ·), m)
    | none => ([], m)

/-- INSTR_MEMORY (R238, R362): of the engines with time for the stage, the one with the most free instructions, with the
need and what is free of the memory that is short. -/
def memoryEntry (l : List StagePlan) (prog : Nat × Nat) (room : List Nat) : RepEntry :=
  let q := room.foldl (fun b q => if (memHeld q l).1 < (memHeld b l).1 then q else b) ((room.head?).getD 0)
  let held := memHeld q l
  let (need, left) := if held.1 + prog.1 ≤ 4096 then (prog.2, 64 - held.2) else (prog.1, 4096 - held.1)
  ⟨3, 18, q / 17, q / 17 * 32 + q % 17, need, left, 0⟩

/-- Place stage i beside the stages placed before (R238, R255, R258, R271): its engines and the first index of its resident set
on each, or the entry of check ENGINES that says why there are not enough. -/
def Module.placeStage (m : Module) (i tasks : Nat) (p : StagePlan) (before : List StagePlan) :
    Except RepEntry StagePlan × Module :=
  let l := m.placed ++ before
  let n := if p.group ≤ 1 then tasks else p.group
  let room := m.planEngines.filter (m.hasRoom l p [])
  let prog := progSize p.code p.start
  let mem := room.filter fun q => memFits (memHeld q l) prog
  let (es, m) := m.chooseEngines (mem.filter (resTakes l p)) n p.group (m.hasRoom l p)
  if es.length = n && n ≠ 0 then
    let first := fun q => if p.resBytes = 0 then 0 else (resFit (resSpans q l) ((p.resBytes + 8191) / 8192)).getD 0
    (.ok { p with engines := es, resFirst := es.map first }, m)
  else if !room.isEmpty && mem.isEmpty then (.error (memoryEntry l prog room), m)
  else
    let left := (m.planEngines.map fun q => m.roomOn q l).sum
    (.error (shortfall 3 0xFFFF i (n * max p.book.load p.book.peak) left), m)

/-- Place stages one after another: stage number, tasks, stage. -/
def Module.placeStages (m : Module) (l : List (Nat × Nat × StagePlan)) : Except RepEntry (List StagePlan) × Module :=
  l.foldl (fun (a : Except RepEntry (List StagePlan) × Module) e => match a with
    | (.error r, m) => (.error r, m)
    | (.ok done, m) => match m.placeStage e.1 e.2.1 e.2.2 done with
      | (.ok p, m) => (.ok (done ++ [p]), m)
      | (.error r, m) => (.error r, m)) (.ok [], m)

/-! ### Memory of the plan (R122, R188, R363) -/

/-- Reserve SPM for a plan: SPREAD granules; none when no gap holds it. -/
def Module.reserve (m : Module) (c i size : Nat) : Option Nat × Module :=
  if size = 0 then (some 0, m)
  else
    let n := up4k size
    match m.place ((List.range 8).flatMap fun s => m.spmGaps s true) n with
    | (none, m) => (none, m)
    | (some base, m) =>
      let m := m.zoneSpan base n true
      (some base, ({ m with
        regions := m.regions.insert (hiddenKey + 64 * c + i) ⟨0, base, n, true, .live, none⟩ }).reportRegions)

/-- Free the plan-reserved SPM of a stream. -/
def Module.unreserve (m : Module) (c : Nat) : Module :=
  { m with regions := m.regions.filter fun r => !(hiddenKey + 64 * c ≤ r.1 && r.1 < hiddenKey + 64 * c + 64) }.reportRegions

/-- Reserve a list of sizes, each under its number: their bases, or none. -/
def Module.reserveAll (m : Module) (c : Nat) (l : List (Nat × Nat)) : Option (List Nat) × Module :=
  l.foldl (fun (a : Option (List Nat) × Module) e => match a with
    | (none, m) => (none, m)
    | (some done, m) => match m.reserve c e.1 e.2 with
      | (some b, m) => (some (done ++ [b]), m)
      | (none, m) => (none, m)) (some [], m)

/-- Reserve what a set-up needs: the bases of its weight copies and of its picture stages. -/
def Module.reservePlan (m : Module) (x : FormIn) (out : List Nat) : Option (List Nat × List Nat) × Module :=
  let w := (x.setup.stages.zip (List.range 8)).map fun (st, i) => (i, if out.contains i then 0 else m.copyBytes st)
  let pics := (m.picRows x).map fun p => (8 + p.stage, picSpm p x.geom)
  let (r, m) := m.reserveAll x.c (w ++ pics)
  (r.map fun l => (l.take w.length, l.drop w.length), m)

/-- Where the weights of an analysis stage lie: in its package, or in the copy at a base (R363). -/
def Module.weightsAt (m : Module) (st : StageSetup) (spilled : Bool) (base : Nat) : Nat :=
  match m.package? st.package with
  | some p => if spilled || m.copyBytes st = 0 then (m.pkgSec p.addr secWeights).1 else base
  | none => 0

/-- The weight copies of a plan: source, bytes, place (R363). -/
def Module.weightCopies (m : Module) (s : Setup) (p : Plan) : List (Nat × Nat × Nat) :=
  (s.stages.zip p.stages).filterMap fun (st, q) => match m.package? st.package with
    | some k =>
      let (ws, n) := m.pkgSec k.addr secWeights
      if q.weights = ws || n = 0 then none else some (ws, n, q.weights)
    | none => none

/-- A source of a weight copy holds a bad word (R293, R294, R321). -/
def Module.meetCopies (m : Module) (l : List (Nat × Nat × Nat)) : Bool × Module :=
  l.foldl (fun (a : Bool × Module) e =>
    let (bad, m) := a.2.readMeets 1 e.1 e.2.1
    (a.1 || bad, m)) (false, m)

/-- Fill the plan-reserved SPM of a stream: zero, then the weight copies and each package's own parameters after the frame's
part of every parameter block (R115, R122, R363). -/
def Module.fillPlan (m : Module) (c : Nat) (s : Setup) (p : Plan) : Module :=
  let mine := (m.regions : List (Nat × Region)).filter fun r => hiddenKey + 64 * c ≤ r.1 && r.1 < hiddenKey + 64 * c + 64
  let m := mine.foldl (fun (m : Module) r => m.zero r.2.base r.2.size) m
  let m := (m.weightCopies s p).foldl (fun (m : Module) e => m.write e.2.2 (m.bytes e.1 e.2.1)) m
  p.pics.foldl (fun (m : Module) q =>
    let own := m.picOwn c (q.stage - 8)
    (List.range 4).foldl (fun (m : Module) b => m.write (q.params + b * q.paramLen + nisBlockLen) own) m) m

/-! ### The stages of a plan -/

/-- The members of a stage's rotation group: R when its tasks are R × R and its weights are R shares that exceed the
resident area (R258; assumption log 31). -/
def groupOf (st : StageSetup) (t : Template) (weights : Nat) : Nat :=
  ([4, 3, 2].find? fun r => st.tasks = r * r && t.res = 2 && t.resBytes ≠ 0 && 98304 < r * t.resBytes &&
    t.resOffset + r * t.resBytes ≤ weights).getD 1

/-- An analysis stage without its engines: its program, variant, resident set, weights and bookings, and the shape values of
its argument blocks (R238, R248, R255, R258, R274, R363). -/
def Module.draftStage (m : Module) (x : FormIn) (st : StageSetup) (spilled : Bool) (base : Nat) : Option StagePlan :=
  (m.package? st.package).map fun p =>
    let t := m.template p.addr st.template
    let (ws, wn) := m.pkgSec p.addr secWeights
    let v := t.choose (m.shapeVals (m.stageArgs st 0 0) t.shapes)
    let group := groupOf st t wn
    let blocks := (List.range (st.argsSlots * st.tasks)).map fun b => m.shapeVals (m.stageArgs st 0 0 + 256 * b) t.shapes
    ⟨[], m.pkgCode p.addr, m.pkgAps p.addr, (t.start[v]?).getD 0, v, t.shapes, m.weightsAt st spilled base, t.resBytes,
      ws + t.resOffset, [], group, t.res, m.stageBook x st group spilled, blocks⟩

/-- The picture stages of a plan without their engines, at their bases (R115, R122, R188). -/
def Module.draftPics (m : Module) (x : FormIn) (bases : List Nat) : List PicPlan :=
  ((m.picRows x).zip (List.range 8)).map fun (p, i) =>
    let b := (bases[i]?).getD 0
    { p with args := b, params := b + 256, counts := b + 256 + 4 * p.paramLen, buf := b + picHead p x.geom }

/-- The variant of a user picture stage, by the shape values of its argument block, its shape entries (R236, R248), and the
cycles of its task; a resident stage's are the firmware's (assumption log 29). A value that the block of a later stripe holds
may be as great as the template's maximum or the value at admission. -/
def Module.picVariant (m : Module) (x : FormIn) (pics : List PicPlan) (p : PicPlan) : PicPlan :=
  let g := x.geom
  let pixels := g.w * (g.h + 2 * p.below)
  let format := if (pics.getLast?).map (·.stage) = some p.stage then Config.residentCycles 12 pixels else 0
  match m.userPkg x.c (p.stage - 8) with
  | none => { p with book := m.picBook x (format + if p.code.isEmpty then 0 else Config.residentCycles p.stage pixels) p }
  | some k =>
    let t := m.template k.addr 0
    let b := m.picArgs x.c 0 pics p (m.picDecl x.c 2).hist
    let vals := t.shapes.map fun s => fieldAt b s.1 s.2.1
    { p with
      start := (t.start[t.choose vals]?).getD 0
      shapes := (t.shapes.zip vals).map fun e => (e.1.1, e.1.2.1, max e.1.2.2 e.2)
      book := m.picBook x (format + t.estimate vals) p }

/-- Place the stages of a plan on engines: analysis stages, then picture stages. -/
def Module.placePlan (m : Module) (x : FormIn) (stages : List StagePlan) (pics : List PicPlan) :
    Except RepEntry (List StagePlan × List PicPlan) × Module :=
  let a := (stages.zip (List.range 8)).map fun (p, i) => (i, ((x.setup.stages[i]?).map (·.tasks)).getD 1, p)
  let b := pics.map fun p => (p.stage, 1, p.asStage)
  match m.placeStages (a ++ b) with
  | (.error r, m) => (.error r, m)
  | (.ok l, m) =>
    (.ok (l.take stages.length, (pics.zip (l.drop stages.length)).map fun (p, s) =>
      { p with engine := (s.engines.head?).getD 0, resFirst := (s.resFirst.head?).getD 0 }), m)

/-! ### DEADLINE, POWER, FAULT_MARGIN (R136, R353, R358, R359) -/

/-- Cycles that a stage's unit takes on one of its engines. -/
def StagePlan.cyclesOn (p : StagePlan) (q : Nat) : Nat := p.times q * (max 1 p.group * p.book.cycles)

/-- Cycles of a unit of a stage: those of its busiest engine. -/
def StagePlan.unitCycles (p : StagePlan) : Nat := (p.engines.map p.cyclesOn).foldl max 0

/-- Cycles of one round of all that is placed, on the busiest of the stage's engines: each task of each stage runs once. -/
def roundCycles (l : List StagePlan) (p : StagePlan) : Nat :=
  (p.engines.map fun q => (l.map (·.cyclesOn q)).sum).foldl max 0

/-- Cycles that a chain of stages takes: at least one unit after another, at most one round of all after another. -/
def chainCycles (l chain : List StagePlan) : Nat × Nat :=
  ((chain.map (·.unitCycles)).sum, (chain.map (roundCycles l)).sum)

/-- The longest slot that may delay a chain by a fault: of its own stages, of all that is placed (R359). -/
def longestTask (l : List StagePlan) : Nat := (l.map (·.book.cycles)).foldl max 0

/-- A bound of a plan: its subject in a report, its deadline, the stages of its chain, and what adds to their time in ns: at
least, at most (R353). -/
structure Bound where
  subject : Nat
  deadline : Nat
  chain : List StagePlan
  least : Nat
  most : Nat

/-- The declared deadlines of a plan (R353, R362). A STRIPE stage after a FRAME stage waits for the frame's last stripe; a copy
is made in the period of its unit, and leaves in a network cycle after. -/
def Module.boundsOf (m : Module) (x : FormIn) (p : Plan) : List Bound :=
  let pics := p.pics.map (·.asStage)
  let wait := fun (i : Nat) =>
    let before := x.setup.stages.take (i + 1)
    if before.any (·.frameUnit) && !((x.setup.stages[i]?).map (·.frameUnit)).getD true then
      (x.geom.count - 1) * x.stripeNs
    else 0
  let cyc := ((List.range 2).map fun q => m.fld (NET_QBV_CYCLE q) NET_QBV_CYCLE_cycle_ns).foldl max 0
  let a := (x.setup.stages.zip (List.range 8)).map fun (st, i) =>
    Bound.mk i st.deadline (pics ++ p.stages.take (i + 1)) (wait i) (wait i)
  let b := (x.setup.deliveries.zip (List.range 4)).map fun (d, j) =>
    let w := wait d.after
    let copy := match x.setup.stages[d.after]? with | some st => x.unitNs st | none => 0
    Bound.mk (16 + j) d.deadline (pics ++ p.stages.take (d.after + 1)) w (w + copy + 2 * cyc)
  (a ++ b).filter (·.deadline ≠ 0)

/-- The time of a bound in ns: at least, at most; `late` cycles more for a fault (R359). -/
def Module.boundNs (m : Module) (l : List StagePlan) (b : Bound) (late : Nat × Nat) : Nat × Nat :=
  let (lo, hi) := chainCycles l b.chain
  (m.cycleNs (lo + late.1) + b.least, m.cycleNs (hi + late.2) + b.most)

/-- The slot times decide between two bounds: within the limit or not; the need when not. -/
def Module.judge (m : Module) (limit : Nat) (t : Nat × Nat) : Option Nat × Module :=
  if t.2 ≤ limit then (none, m)
  else
    let (v, m) := if t.1 ≤ limit then m.pick 2 else (1, m)
    if v = 0 then (none, m)
    else
      let lo := max t.1 (limit + 1)
      let (n, m) := m.pick (max lo t.2 - lo + 1)
      (some (lo + n), m)

/-- Judge each of some bounds: subject, limit, times. -/
def Module.judgeAll (m : Module) (l : List (Nat × Nat × Nat × Nat)) : List (Nat × Nat × Nat) × Module :=
  l.foldl (fun (a : List (Nat × Nat × Nat) × Module) e => match a.2.judge e.2.1 e.2.2 with
    | (some n, m) => (a.1 ++ [(e.1, e.2.1, n)], m)
    | (none, m) => (a.1, m)) ([], m)

/-- Λ of an output in ns for a plan offset P (R136). -/
def Module.latency (m : Module) (x : FormIn) (p : Nat) : Nat :=
  let d := if m.fld (CAP_PORT_CFG x.c) CAP_PORT_CFG_mosaic = 4 then 3 else 2
  (x.geom.h + x.geom.a + d + 1) * x.setup.linePeriod + ((m.geom x.c).1 + 104) * 5 / 3 + 100 + p

/-- Check DEADLINE on a placed plan: Λ of each output, declared deadlines, history order (R115, R125, R356); with the outputs'
Λ. -/
def Module.checkDeadline (m : Module) (x : FormIn) (p : Plan) : List RepEntry × List (Nat × Nat) × Module :=
  let pics := p.pics.map (·.asStage)
  let l := m.placed ++ p.stages ++ pics
  let (lo, hi) := chainCycles l pics
  let (lat, m) := x.outs.foldl (fun (a : List (Nat × Nat) × Module) k =>
    let (n, m) := a.2.pick (m.cycleNs hi - m.cycleNs lo + 1)
    (a.1 ++ [(k, m.latency x (m.cycleNs lo + n))], m)) ([], m)
  let limit := 2 * x.setup.framePeriod
  let e1 := lat.filterMap fun r => if limit < r.2 then some ⟨8, 16, 0xFFFF, r.1, r.2, limit, 0⟩ else none
  let (late, m) := m.judgeAll ((m.boundsOf x p).map fun b => (b.subject, b.deadline, m.boundNs l b (0, 0)))
  let e2 := late.map fun r => RepEntry.mk 8 17 0xFFFF r.1 r.2.2 r.2.1 0
  let all := chainCycles l (pics ++ p.stages)
  let gap := x.setup.framePeriod - (x.geom.count - 1) * x.stripeNs
  let (order, m) := if x.stagesOn.contains 1 || x.stagesOn.contains 2 then
      m.judgeAll [(x.c, gap, m.cycleNs all.1, m.cycleNs all.2)]
    else ([], m)
  (e1 ++ e2 ++ order.map fun r => RepEntry.mk 8 15 0xFFFF r.1 r.2.2 r.2.1 0, lat, m)

/-- What a placed plan books, for its power estimate (R358). -/
def Module.powerUse (m : Module) (x : FormIn) (p : Plan) : PowerUse :=
  let l := p.stages ++ p.pics.map (·.asStage)
  let load := (l.map fun s => s.engines.length * s.book.load).sum
  let spm := (l.map (·.book.spm)).sum + m.copySpm x
  ⟨load * 1000000 / m.aclkMs, (l.flatMap (·.engines)).eraseDups, (spm + 999) / 1000,
    ((p.dram.read + p.dram.write + p.dram.remote) * 256 + 999) / 1000⟩

/-- Check POWER: all plans within the cap in force (R356, R358). -/
def Module.checkPower (m : Module) (use : PowerUse) : List RepEntry :=
  let total := powerOf m.mode (m.streams.map (·.2.plan.power) ++ [use])
  if m.cap * 100 < total then [shortfall 9 0xFFFF 0xFFFFFFFF total (m.cap * 100)] else []

/-- What a stream's checks look at, of an admitted stream (R359). -/
def Module.streamIn (m : Module) (s : Stream) : FormIn := m.formIn s.setup

/-- Check FAULT_MARGIN (R359, R505): with a fault at the end of a task, its slot and 3 600 cycles add to a chain once. The
plan's own bounds, and those of the admitted streams that share an engine with it. -/
def Module.checkMargin (m : Module) (x : FormIn) (p : Plan) : List RepEntry × Module :=
  let mine := p.stages ++ p.pics.map (·.asStage)
  let l := m.placed ++ mine
  let worst := longestTask l + 3600
  let own := (m.boundsOf x p).map fun b => (b.subject, b.deadline, m.boundNs l b (longestTask b.chain + 3600, worst))
  let shares := fun (e : Nat × Stream) => e.2.plan.engines.any p.engines.contains
  let others := (m.streams.filter shares).flatMap fun e => (m.boundsOf (m.streamIn e.2) e.2.plan).map fun b =>
    (b.subject, b.deadline, 0, (m.boundNs l b (0, worst)).2)
  let (late, m) := m.judgeAll (own ++ others)
  let need := (late.map fun r => r.2.2 - r.2.1).foldl max 0
  if m.noSpare then
    let (n, m) := m.open_
    ([shortfall 10 0xFFFF 0xFFFFFFFF n.toNat 0], m)
  else if late.isEmpty then ([], m) else ([shortfall 10 0xFFFF 0xFFFFFFFF need 0], m)

/-- Checks 8 to 10 on a placed plan (R357): the entries of those that fail, and the plan with its Λ and its power. -/
def Module.placedChecks (m : Module) (x : FormIn) (p : Plan) : List RepEntry × Plan × Module :=
  let (dl, lat, m) := m.checkDeadline x p
  let use := m.powerUse x p
  let pw := m.checkPower use
  let (fm, m) := if pw.isEmpty && m.tests then m.checkMargin x p else ([], m)
  (dl ++ pw ++ fm, { p with power := use, lat := lat }, m)

/-! ### The plan -/

/-- Write the weights' address into the view that each argument block of a stage keeps for it, as a control core writes
(R290, R348, R364). -/
def Module.writeWeights (m : Module) (st : StageSetup) (sets addr : Nat) : Module :=
  if st.weightsView = 255 then m
  else match m.region? st.argsRegion with
    | none => m
    | some r => (List.range (sets * st.tasks)).foldl (fun m i =>
        let a := r.base + st.argsOffset + 256 * i + 32 * st.weightsView
        if st.argsOffset + 256 * i + 256 ≤ r.size then m.store a (leBytes 8 addr) else m) m

/-- Argument blocks of a stage lie in a stack that is being zero filled: a write to them waits (R296, R527). -/
def Module.argsBusy (m : Module) (st : StageSetup) (sets : Nat) : Bool :=
  st.weightsView ≠ 255 && match m.region? st.argsRegion with
    | some r => m.spmBusy (r.base + st.argsOffset) (256 * sets * st.tasks)
    | none => false

/-- Checks 2 to 10 of a set-up (R356, R357): the entries of those that fail, or its plan, with the stages that it spills. Checks
2 to 7 look at what was free before; the memory of the plan is reserved in the state that follows. -/
def Module.makePlan (m : Module) (x : FormIn) : Except (List RepEntry) Plan × List Nat × Module :=
  let out := (m.spmNeed x).2.2
  let (mem, m1) := m.reservePlan x out
  let (wb, pb) := mem.getD ([], [])
  let drafts := (x.setup.stages.zip (List.range 8)).filterMap fun (st, i) =>
    m.draftStage x st (out.contains i) ((wb[i]?).getD 0)
  let pics := m.draftPics x pb
  let pics := pics.map (m.picVariant x pics)
  let dram := DramUse.add (.sum (drafts.map (·.book.dram) ++ pics.map (·.book.dram))) (m.copyDram x)
  let (eng, m2) := m1.placePlan x drafts pics
  let ee := match eng with | .error r => [r] | .ok _ => []
  let fails := m.checkLane x ++ ee ++ m.checkSpm x mem.isSome ++ m.checkDram dram ++ m.checkDma x ++ m.checkNet x 0 ++
    m.checkNet x 1
  match fails, eng with
  | [], .ok (stages, pics) =>
    let lanes := m.lanesFor x.c x.setup.linePeriod
    let (i, m3) := m2.pick (max 1 lanes.length)
    let (lane, slot) := (lanes[i]?).getD (0, 0)
    let (roles, tables) := m.streamObjects x
    let net := (List.range 2).filterMap fun p =>
      let w := m.netWindow x p
      if w = 0 then none else some (p, w)
    let plan : Plan := ⟨lane, slot, stages.flatMap (·.engines) ++ pics.map (·.engine),
      m.freeChannels.take (m.channelsFor x), roles ++ tables, ⟨0, [], 0, 0⟩, stages, pics, net, [], dram⟩
    match m3.placedChecks x plan with
    | ([], plan, m4) => (.ok plan, out, m4)
    | (fails, _, m4) => (.error fails, out, m4)
  | fails, _ => (.error fails, out, m2)

end Sys2Proof.Machine
end

