-- ==== Sys2Proof/Machine/Admission.lean ====
section
/-!
DEFINITION. Streams from ADMIT to RELEASE (12_admission_modes R345 to R363), deliveries (R349, R350), deadlines (R355) and
clip rings (R325 to R328).
-/
namespace Sys2Proof.Machine

/-- A record that a command names: `n` bytes at an address in a region, or through a window as they come back; the status
when it cannot be read (R345, R365). -/
def Module.recordRead (m : Module) (a n : Nat) (rec : Remote) : Except Nat (List Byte) :=
  match m.accessCause true a n, m.spaceOf a, rec with
  | some _, _, _ => .error stBusError
  | none, .window _ _, .data b => if n ≤ b.length then .ok (b.take n) else .error stBusError
  | none, .window _ _, .status c => .error (if c.toNat = stWindowClosed then stWindowClosed else stBusError)
  | none, .window _ _, .unanswered => .error stBusError
  | none, _, _ => if m.inRegion a n then .ok (m.bytes a n) else .error stBusError

/-- Read a record that a command names (R345, R365): what the read meets, and the window messages that ask for it. -/
def Module.recordFetch (m : Module) (a n : Nat) (rec : Remote) : Except Nat (List Byte) × Module :=
  let m := (m.readMeets 1 a n).2
  (m.recordRead a n rec, match m.spaceOf a with
    | .window w off =>
      if m.coreBad w.val off n then m
      else (List.range ((n + 1023) / 1024)).foldl (fun m i =>
        m.askWindow w (off + 1024 * i) (min 1024 (n - 1024 * i)) (rec ≠ .unanswered)) m
    | _ => m)

/-- A record that a command names lies in a stack that is being zero filled: its read waits (R296, R527). -/
def Module.recordBusy (m : Module) (a : Nat) (len : List Byte → Nat) : Bool :=
  m.spmBusy a 64 || m.spmBusy a (len (m.bytes a 64))

/-- The messages of at most 1 024 B that write some bytes through a window. -/
def windowParts (off : Nat) (l : List Byte) : List (Nat × List Byte) :=
  (List.range ((l.length + 1023) / 1024)).map fun i => (off + 1024 * i, (l.drop (1024 * i)).take 1024)

/-- Write bytes at a device address in a region or through an open window; elsewhere nothing. -/
def Module.writeOut (m : Module) (a : Nat) (l : List Byte) (use : WinUse) : Module :=
  match m.spaceOf a with
  | .window w off => (windowParts off l).foldl (fun m p =>
      if m.coreBad w.val p.1 p.2.length then m else m.winWriteTo w p.1 p.2 false use) m
  | _ => if (m.accessCause false a l.length).isNone && m.inRegion a l.length then m.store a l else m

/-- The port of a command's session. -/
def Module.cmdPort (m : Module) (c : CmdRef) : Fin 2 := ((m.cmdSession c).map (·.port)).getD 0

/-! ### ADMIT (R345) -/

def admitStart (setup report : W64) (reportLen : Word) (rec : Remote) (c : CmdRef) (m : Module) : Module :=
  let a := setup.toNat
  if a % 64 ≠ 0 || report ≠ 0 && reportLen.toNat < 64 then (m.count SYS_ADM_CNT_REFUSED 1).complete c stRefused 0
  else match m.recordFetch a 64 rec with
    | (.error st, m) => m.complete c st 0
    | (.ok h, m) => match m.recordFetch a (setupLen h) rec with
      | (.error st, m) => m.complete c st 0
      | (.ok b, m) => { m with admitting := some ⟨c, m.cmdPort c, a, setupOf b, setupBad b, report.toNat, reportLen.toNat⟩ }

/-- ADMIT: it waits for an earlier command of R343 and for a mode change (R370). -/
def admitStream (h : CmdHdr) (setup report : W64) (reportLen : Word) (rec : Remote) (m : Module) : Module :=
  if !m.serialTurn h 0x01 || m.modeChange.isSome || m.recordBusy setup.toNat setupLen then m else
    m.commandRun h 0x01 (entryHas [(8, 8, setup.toNat), (16, 8, report.toNat), (24, 4, reportLen.toNat)])
      (admitStart setup report reportLen rec)

/-! ### ADMIT_COMPLETE (R351, R356 to R363) -/

/-- The lowest failing check of some entries. -/
def lowestCheck (l : List RepEntry) : Nat := match l with
  | [] => 0
  | e :: t => t.foldl (fun v x => min v x.check) e.check

/-- The bytes of an ADMIT's report (R361). -/
def Module.admitBytes (m : Module) (q : AdmitReq) (failed : Nat) (tried : Bool) (stream : Nat) (l : List RepEntry) :
    List Byte :=
  reportBytes q.reportLen failed (if tried then 2 else 0) m.mode q.setup.ctx stream m.cap l

/-- Write the report of an ADMIT, when one is asked for, then complete the command: once the write has been acknowledged
(R21, R360, R361). -/
def Module.admitReport (m : Module) (q : AdmitReq) (failed : Nat) (tried : Bool) (stream : Nat) (l : List RepEntry)
    (status result : Nat) : Module :=
  let use := WinUse.report q.cmd (BitVec.ofNat 8 status) (BitVec.ofNat 64 result)
  let m := if q.report = 0 then m else m.writeOut q.report (m.admitBytes q failed tried stream l) use
  if m.winOut.any (·.use = use) then m else m.admitEnd q.cmd status result

/-- The report of an ADMIT would overlap a write that is not acknowledged (R432), or it or an argument block lies in a stack
that is being zero filled (R296, R527): it waits. -/
def Module.reportWaits (m : Module) (q : AdmitReq) : Bool :=
  q.report ≠ 0 && (m.addrOverlap q.report q.reportLen || m.spmBusy q.report q.reportLen) ||
    q.setup.stages.any fun st => m.argsBusy st st.argsSlots

/-- Refuse an ADMIT with the entries of the checks that failed. -/
def Module.refuseAdmit (m : Module) (q : AdmitReq) (tried : Bool) (l : List RepEntry) : Module :=
  let f := lowestCheck l
  (m.count SYS_ADM_CNT_REFUSED 1).admitReport q f tried 0 l stRefused (f * 2 ^ 32)

/-- Insert a stream by its order of admission. -/
def inOrder (l : List (Nat × Stream)) (x : Nat × Stream) : List (Nat × Stream) :=
  match l with
  | [] => [x]
  | y :: t => if x.2.order < y.2.order then x :: y :: t else y :: inOrder t x

/-- The streams in admission order. -/
def Module.byAdmission (m : Module) : List (Nat × Stream) := (m.streams : List (Nat × Stream)).foldl inOrder []

/-- The gate control lists of both ports from the plans: windows one after another in admission order, from the next cycle
(R417, R419). -/
def Module.buildGates (m : Module) : Module :=
  let byOrder := (List.range 2).map fun p =>
    ((m.byAdmission.filter fun e => e.2.plan.net.any (·.1 = p)).foldl (fun (a : List Gate × Nat) e =>
      let w := ((e.2.plan.net.filter (·.1 = p)).map (·.2)).sum
      (a.1 ++ [Gate.mk (if h : e.1 < 36 then ⟨e.1, h⟩ else 0) a.2 w], a.2 + w)) ([], 0)).1
  let set := fun (m : Module) (p : Nat) (g : List Gate) =>
    m.setNetPort p { m.netPort p with
      nextGates := g, plannedFast := m.fld (NET_PORT_STAT p) NET_PORT_STAT_speed ≠ 1 }
  set (set m 0 ((byOrder[0]?).getD [])) 1 ((byOrder[1]?).getD [])

/-- Slot size and number of slots of an output's clip ring (R325). -/
def Module.clipSlots (m : Module) (c k : Nat) (r : Region) : Nat × Nat :=
  let b := ((m.outGeom c k).slotBytes + 255) / 256 * 256
  (b, (r.size - 256) / max 1 b)

/-- Write the first 64 B of an output's ring header (R325, R326). -/
def Module.clipHeader (m : Module) (c k : Nat) : Module :=
  match m.region? (m.rd (NIS_OUT_CLIP c k)) with
  | none => m
  | some r =>
    let x := SMap.get Clip.rest m.clips (4 * c + k)
    let (b, n) := m.clipSlots c k r
    m.store r.base (leBytes 4 b ++ leBytes 2 n ++ leBytes 2 (x.frozen.toNat + 2 * x.pend.toNat) ++
      leBytes 4 x.newest.toNat ++ leBytes 4 x.seq.toNat ++ leBytes 4 x.left ++ leBytes 4 x.dropped ++ leBytes 40 0)

/-- Output k of a context has a destination. -/
def Module.outDest (m : Module) (c k : Nat) (b : Bits) : Bool :=
  m.bit (NIS_OUT_CFG c k) NIS_OUT_CFG_en && m.bit (NIS_OUT_DEST c k) b

/-- What admission, and a re-admission after a mode change, sets up (R307, R325, R348, R136): Λ, objects at
0, context afresh, weights in the argument blocks, clip ring headers. -/
def Module.installStream (m : Module) (c : Nat) (s : Stream) : Module :=
  let m := (List.range 4).foldl (fun m k =>
    m.wr (NIS_OUT_LAT c k) (BitVec.ofNat 32 (((s.plan.lat.find? (·.1 = k)).map (·.2)).getD 0))) m
  let m := s.plan.objects.foldl (fun (m : Module) o =>
    { m with syncOwner := m.syncOwner.insert o c }.setSync o 0) m
  let m := m.startContext c
  let m := (s.setup.stages.zip s.plan.stages).foldl (fun m (st, p) => m.writeWeights st st.argsSlots p.weights) m
  (List.range 4).foldl (fun m k =>
    if m.outDest c k NIS_OUT_DEST_clip then
      { m with clips := m.clips.insert (4 * c + k) Clip.rest }.clipHeader c k
    else m) m

/-- A calibration that holds a lane slot of its own goes on in the stream's. -/
def Module.handLane (m : Module) (c : Nat) : Module :=
  match (m.cal c).run with
  | some r => (m.unbindLane c).setCal c { m.cal c with run := some { r with grant := false } }
  | none => m

/-- Take channels for a plan. -/
def Module.ownChannels (m : Module) (l : List Nat) : Module :=
  l.foldl (fun (m : Module) ch => m.setChan ch { m.chan ch with planOwned := true }) m

/-- Take what a stream's plan books: lane and slot, channels, objects. -/
def Module.takePlan (m : Module) (c : Nat) (s : Stream) : Module :=
  let m := ((m.handLane c).bindLane c s.plan.lane s.plan.slot).ownChannels s.plan.channels
  let m := s.plan.objects.foldl (fun (m : Module) o => { m with syncOwner := m.syncOwner.insert o c }) m
  { m with streams := m.streams.insert c s }

/-- Admit a stream whose plan is booked (R351, R356, R360). -/
def Module.enterStream (m : Module) (q : AdmitReq) (x : FormIn) (p : Plan) (tried : Bool) (l : List RepEntry) : Module :=
  let c := x.c
  let gen := SMap.get 1 m.streamGen c
  let order := (m.streams.map (·.2.order)).foldl max 0 + 1
  let s : Stream := ⟨gen, order, q.setup, p, .waiting, none, [], []⟩
  let m := (m.takePlan c s).fillPlan c q.setup p
  let m := m.wr (CAP_FRAME_PERIOD c) s.fclkPeriod
  let m := (List.range 4).foldl (fun m k => m.setFld (NIS_OUT_STAT c k) NIS_OUT_STAT_window_halted 0) m
  let m := ((m.installStream c s).buildGates).reportPlanned
  let h := streamHandle c s
  let m := m.journalEntry 1 (q.port.castLE (by omega)) (BitVec.ofNat 16 (m.cmdField q.cmd)) h 0 q.addr
  m.admitReport q 0 tried h l stOk h

/-- ADMIT_COMPLETE: the fox finishes the ADMIT of the context: FORM, checks 2 to 7, the plan, checks 8 to 10 on it; the report,
STREAM_ADMITTED and the completion (R356 to R361, R399). A bad word of the weights to be copied ends it with BUS_ERROR (R293,
R294, R321; assumption log 88). During a fill of R484 it waits (assumption log 9); on the way to STANDBY or OFF nothing is admitted any more
(R455, assumption log 85). -/
def admitComplete (c : PortId) (m : Module) : Module := m.firmware fun m =>
  match m.admitting with
  | none => m
  | some q =>
    if m.fullFill.isSome || m.reportWaits q || q.setup.ctx ≠ c.val && q.setup.ctx < 36 then m
    else if m.leaving then { m with admitting := none }.complete q.cmd stNotReady 0
    else
      let m := { m with admitting := none }
      match m.form q with
      | some l => m.refuseAdmit q false l
      | none =>
        let x := m.formIn q.setup
        let tried := m.spillTried x
        match m.makePlan x with
        | (.error fails, _, m') => { m with draws := m'.draws }.refuseAdmit q tried fails
        | (.ok p, spilled, m') =>
          let (bad, m') := m'.meetCopies (m'.weightCopies q.setup p)
          if bad then (m'.unreserve x.c).complete q.cmd stBusError 0
          else m'.enterStream q x p tried (m.spillEntries x spilled)

/-! ### RELEASE (R352) -/

/-- The stream that a current handle names; reserved bits are ignored (R345, R32). -/
def Module.streamOf (m : Module) (h : Word) : Option (PortId × Stream) :=
  let k := h.toNat % 64
  if hk : k < 36 then match m.streams.find? k with
    | some s => if s.gen = h.toNat / 65536 then some (⟨k, hk⟩, s) else none
    | none => none
  else none

/-- Begin to release a stream: its port leaves ACTIVE at the next frame end, its calibration ends (R47, R155, R352). -/
def Module.beginRelease (m : Module) (c : Nat) (s : Stream) (by_ : Option (CmdRef × Fin 2)) : Module :=
  { m with streams := m.streams.insert c { s with phase := .releasing, releaseBy := by_ } }.calAbort c

def releaseStart (stream : Word) (c : CmdRef) (m : Module) : Module :=
  match m.streamOf stream with
  | none => m.complete c stRefused 0
  | some (k, s) => m.beginRelease k.val s (some (c, m.cmdPort c))

/-- RELEASE: it waits for an earlier command of R343 and for a mode change (R370). -/
def release (h : CmdHdr) (stream : Word) (m : Module) : Module :=
  if !m.serialTurn h 0x02 || m.modeChange.isSome then m
  else m.command h 0x02 (entryHas [(8, 4, stream.toNat)]) (releaseStart stream)

/-- A task of the stream is on an engine, or waits there to be run again. -/
def Module.streamRuns (m : Module) (c : Nat) : Bool :=
  let of := fun (r : TaskRef) => match r with
    | .stream c' _ _ _ => c'.val = c
    | .job .. => false
  m.engines.any fun e => ((e.2.task.map fun t => of t.ref).getD false) || ((e.2.assigned.map fun a => of a.1).getD false)

/-- Units of a stage that have started have all ended. -/
def Ctx.stageIdle (x : Ctx) (stage : Nat) : Bool :=
  SMap.get (0, []) x.started stage = (x.unitsEnded stage, []) && (SMap.get (0, []) x.ended stage).2.isEmpty

/-- Frames of output k that are complete. -/
def Module.framesOut (m : Module) (c : Nat) (s : Stream) : Nat :=
  match s.plan.pics.getLast? with
  | some p => (m.ctx c).unitsEnded p.stage / m.perFrame c
  | none => 0

/-- Every task, output and delivery of the stream's ready stripes has completed (R352, R370). -/
def Module.streamDrained (m : Module) (c : Nat) (s : Stream) : Bool :=
  let x := m.ctx c
  let g := m.stripes c
  m.portState c ≠ 4 && !m.streamRuns c && (x.frames.all fun f => f.cal || g.count ≤ f.signalled) &&
    ((List.range s.setup.stages.length).all fun i => x.stageIdle i && !m.analysisReady c s i (x.unitsEnded i)) &&
    (s.plan.pics.all fun p => x.stageIdle p.stage && !m.pictureReady c s p (x.unitsEnded p.stage)) &&
    (s.plan.channels.all fun ch => (m.chan ch).phase = .idle && m.planMoves.all (·.ch.val ≠ ch)) &&
    ((s.setup.deliveries.zip (List.range 4)).all fun d => x.unitsEnded (32 + d.2) = x.unitsEnded d.1.after) &&
    ((List.range 4).all fun k => !m.outDest c k NIS_OUT_DEST_clip ||
      (x.unitsEnded (48 + k) = m.framesOut c s && (SMap.get Clip.rest m.clips (4 * c + k)).done.isEmpty)) &&
    (List.range 2).all fun p => (m.netPort p).txq.all (·.ctx.val ≠ c) && match (m.netPort p).windowOpen with
      | some w => w.1.val ≠ c || w.2.isEmpty
      | none => true

/-- Free what a stream's plan holds; plan-owned objects keep their values (R308, R352). -/
def Module.dropStream (m : Module) (c : Nat) (s : Stream) : Module :=
  let m := s.plan.channels.foldl (fun (m : Module) ch => m.setChan ch DmaCh.rest) m
  let m := (m.unbindLane c).unreserve c
  let owners := m.syncOwner.filter fun e => e.2 ≠ c
  let engines := (m.engines : List (Nat × Eng)).map fun e => (e.1, { e.2 with sets := e.2.sets.filter (·.c ≠ c) })
  let clips := m.clips.filter fun e => e.1 / 4 ≠ c
  let m := { m with
    syncOwner := owners, engines := engines, clips := clips
    planMoves := m.planMoves.filter fun j => !s.plan.channels.contains j.ch.val
    streams := m.streams.erase c, streamGen := SMap.set 1 m.streamGen c (nextGen s.gen) }
  let m := (List.range 4).foldl (fun m k => m.wr (NIS_OUT_LAT c k) 0) (m.wr (CAP_FRAME_PERIOD c) 0)
  (m.setCtx c { m.ctx c with frames := [] }).buildGates.reportPlanned

/-- The end of a release: STREAM_RELEASED, then the completion of the RELEASE (R352, R399). -/
def Module.endRelease (m : Module) (c : Nat) (s : Stream) : Module :=
  let m := m.dropStream c s
  match s.releaseBy with
  | none => m.raiseCtx 0x0807 c 0 (streamHandle c s) 0 0
  | some (r, p) =>
    let h := streamHandle c s
    let m := m.journalEntry 2 (p.castLE (by omega)) (BitVec.ofNat 16 (m.cmdField r)) h h 0
    (m.raiseCtx 0x0807 c (m.cmdField r) h 0 0).complete r stOk 0

/-! ### DEADLINE_MISSED (R353, R355) -/

/-- A subject of DEADLINE_MISSED has a deadline: a stage, a delivery that is not suspended, an output. -/
def Module.hasDeadline (m : Module) (c : Nat) (s : Stream) (subject : Nat) : Bool :=
  if subject < 8 then match s.setup.stages[subject]? with
    | some st => st.deadline ≠ 0
    | none => false
  else if 16 ≤ subject && subject < 20 then match s.setup.deliveries[subject - 16]? with
    | some d => d.deadline ≠ 0 && !d.suspended
    | none => false
  else if 32 ≤ subject && subject < 36 then m.bit (NIS_OUT_CFG c (subject - 32)) NIS_OUT_CFG_en
  else false

/-- A delivery counts as sent: its copy has been made, and none of the ports that it leaves by has link (R353, R415). -/
def Module.sentDark (m : Module) (c : PortId) (s : Stream) (subject : Nat) (frame : Word) (stripe : W16) : Bool :=
  match (if 16 ≤ subject then s.setup.deliveries[subject - 16]? else none) with
  | none => false
  | some d =>
    let u := if ((s.setup.stages[d.after]?).map (·.frameUnit)).getD false then frame.toNat
      else frame.toNat * m.perFrame c + stripe.toNat
    u < (m.ctx c).unitsEnded (16 + subject) && match (m.windowOf d.window).bind m.binds.find? with
      | none => false
      | some b => (List.finRange 2).all fun p =>
          !(b.replicate || b.port = p) || !m.bit (NET_PORT_STAT p.val) NET_PORT_STAT_link

/-- DEADLINE_MISSED: a deadline of a frame that has been delivered has passed without its completion; once for each unit
(R355). -/
def deadlineMissed (c : PortId) (subject : Nat) (frame : Word) (stripe : W16) (lateness : Nat) (m : Module) : Module :=
  match m.streams.find? c.val with
  | none => m
  | some s =>
    if !m.hasDeadline c s subject || (m.ctx c).index.toNat ≤ frame.toNat || s.late.contains (subject, frame, stripe) ||
        m.sentDark c s subject frame stripe then m
    else
      let late := s.late ++ [(subject, frame, stripe)]
      let m := { m with streams := m.streams.insert c.val { s with late := late.drop (late.length - 64) } }
      (m.count SYS_ADM_CNT_MISSED 1).raiseCtx 0x0801 c subject frame.toNat (stripe.toNat + 65536 * s.gen)
        (min lateness 0xFFFFFFFF)

/-! ### Deliveries (R349, R350) -/

/-- Count one more under a progress key of a context. -/
def Ctx.progress (x : Ctx) (key : Nat) : Ctx := { x with ended := SMap.set (0, []) x.ended key (x.unitsEnded key + 1, []) }

/-- Change a delivery of a stream. -/
def Stream.setDelivery (s : Stream) (j : Nat) (d : Delivery) : Stream :=
  { s with setup := { s.setup with deliveries := setAt s.setup.deliveries j d } }

/-- DELIVERY_COPY: the next unit of the stage has ended and is copied to its slot in the window; a suspended delivery counts
it instead. -/
def deliveryCopy (c : PortId) (j : Fin 4) (m : Module) : Module :=
  match m.streams.find? c.val with
  | none => m
  | some s => match s.setup.deliveries[j.val]? with
    | none => m
    | some d =>
      let x := m.ctx c
      let u := x.unitsEnded (32 + j.val)
      if x.unitsEnded d.after ≤ u then m
      else
        let m := m.setCtx c (x.progress (32 + j.val))
        if d.suspended then
          { m with streams := m.streams.insert c.val (s.setDelivery j
            { d with notCopied := BitVec.ofNat 32 (min (d.notCopied.toNat + 1) 0xFFFFFFFF) }) }
        else
          let sp := m.perFrame c
          let frame := ((s.setup.stages[d.after]?).map (·.frameUnit)).getD false
          let o := u % max 1 d.slots * d.bytes
          let src := ((m.region? d.srcRegion).map (·.base)).getD 0 + d.srcOffset + o
          let mv := PlanMove.delivery c j (BitVec.ofNat 32 (if frame then u else u / sp))
            (if frame then 0xFFFFFFFF else u % sp)
          m.planMove s (s.plan.channels.length - s.setup.deliveries.length + j.val) mv
            (planDesc src (m.apertureOf d.window + o) d.bytes 1 d.bytes d.bytes)

def resumeStart (stream : Word) (delivery : Nat) (c : CmdRef) (m : Module) : Module :=
  match m.streamOf stream with
  | none => m.complete c stRefused 0
  | some (k, s) => match s.setup.deliveries[delivery]? with
    | none => m.complete c stRefused 0
    | some d =>
      if !d.suspended then m.complete c stOk 0
      else
        ({ m with streams := m.streams.insert k.val (s.setDelivery delivery { d with resume := true, notCopied := 0 }) }).complete
          c stOk d.notCopied.toNat

/-- RESUME_DELIVERY: the delivery goes on from the next frame start; the units not copied are returned and cleared (R350). -/
def resumeDelivery (h : CmdHdr) (stream : Word) (delivery : Byte) (m : Module) : Module :=
  m.command h 0x0F (entryHas [(8, 4, stream.toNat), (12, 1, delivery.toNat)]) (resumeStart stream delivery.toNat)

/-- A write of NIS_OUTk_CTL.resume (R135). -/
def Module.resumeOutput (m : Module) (c k : Nat) : Module :=
  { m with streams := m.streams.adjust c fun s =>
    if m.bit (NIS_OUT_STAT c k) NIS_OUT_STAT_window_halted && !s.outResume.contains k then
      { s with outResume := s.outResume ++ [k] }
    else s }

/-! ### Clip rings (R325 to R328) -/

/-- The copies of an output that wait for their channel are frames skipped once the ring is FROZEN (R326, R328). -/
def Module.clipFreeze (m : Module) (c k : Nat) : Module :=
  let mine := fun (j : PlanJob) => match j.mv with
    | .clip c' k' _ => c'.val = c && k'.val = k
    | _ => false
  let n := (m.planMoves.filter mine).length
  { m with
    planMoves := m.planMoves.filter fun j => !mine j
    clips := m.clips.adjust (4 * c + k) fun x => { x with
      frozen := true, pend := false, left := 0, dropped := min (x.dropped + n) 0xFFFFFFFF } }

/-- CLIP_FRAME_COPY: the next complete frame of an output is copied to its slot of the ring, or skipped while FROZEN. -/
def clipFrameCopy (c : PortId) (k : Fin 4) (m : Module) : Module :=
  match m.streams.find? c.val, m.region? (m.rd (NIS_OUT_CLIP c k)) with
  | some s, some r =>
    let x := m.ctx c
    let f := x.unitsEnded (48 + k.val)
    if !m.outDest c k NIS_OUT_DEST_clip || m.framesOut c s ≤ f then m
    else
      let m := m.setCtx c (x.progress (48 + k.val))
      let y := SMap.get Clip.rest m.clips (4 * c.val + k.val)
      if y.frozen then
        { m with clips := m.clips.insert (4 * c.val + k.val) { y with dropped := min (y.dropped + 1) 0xFFFFFFFF } }.clipHeader
          c k
      else
        let n := (m.outGeom c k).slotBytes
        let (b, slots) := m.clipSlots c k r
        let base := ((m.region? (m.rd (NIS_OUT_REGION c k))).map (·.base)).getD 0
        let src := base + f % max 1 (m.fld (NIS_OUT_CFG c k) NIS_OUT_CFG_slots) * n
        m.planMove s k.val (.clip c k (BitVec.ofNat 32 f)) (planDesc src (r.base + 256 + f % max 1 slots * b) n 1 n n)
  | _, _ => m

/-- CLIP_HEADER_UPDATE: every write of a copy has returned: newest_index and newest_seq, and under FREEZE_PENDING the count
that ends in FROZEN, in one write of the header (R326); then the next copy may start (R327). -/
def clipHeaderUpdate (c : PortId) (k : Fin 4) (m : Module) : Module :=
  let key := 4 * c.val + k.val
  match m.clips.find? key, m.region? (m.rd (NIS_OUT_CLIP c k)) with
  | some y, some r => match y.done with
    | [] => m
    | f :: rest =>
      let (b, slots) := m.clipSlots c k r
      let seq := BitVec.ofNat 32 (m.num (r.base + 256 + f.toNat % max 1 slots * b) 4)
      let left := if y.pend then y.left - 1 else y.left
      let m := { m with clips := m.clips.insert key { y with newest := f, seq := seq, left := left, done := rest } }
      let m := (if y.pend && left = 0 then m.clipFreeze c k else m).clipHeader c k
      (((m.streams.find? c.val).map (·.plan.channels)).getD []).foldl Module.planNext m
  | _, _ => m

/-- The outputs of admitted streams whose clip ring a current handle names (R328). -/
def Module.clipsOf (m : Module) (h : Word) : List (Nat × Nat) :=
  if (m.region? h).isNone then []
  else m.streams.flatMap fun e => ((List.range 4).filter fun k =>
    m.outDest e.1 k NIS_OUT_DEST_clip && handleKey (m.rd (NIS_OUT_CLIP e.1 k)) = handleKey h &&
      (m.rd (NIS_OUT_CLIP e.1 k)).toNat / 65536 = h.toNat / 65536).map fun k => (e.1, k)

/-- Apply FREEZE or THAW to the rings that a handle names; the header is written, then the command completes. -/
def clipCtl (region : Word) (f : Module → Nat → Nat → Module) (c : CmdRef) (m : Module) : Module :=
  let l := m.clipsOf region
  if l.isEmpty then m.complete c stRefused 0
  else (l.foldl (fun m e => (f m e.1 e.2).clipHeader e.1 e.2) m).complete c stOk 0

/-- CLIP_CTL FREEZE (R328). -/
def freeze (h : CmdHdr) (region after : Word) (m : Module) : Module :=
  m.command h 0x0D (entryHas [(8, 4, region.toNat), (12, 1, 0), (16, 4, after.toNat)]) <| clipCtl region fun m c k =>
    if after = 0 then m.clipFreeze c k
    else { m with clips := m.clips.adjust (4 * c + k) fun x => { x with pend := true, left := after.toNat } }

/-- CLIP_CTL THAW (R328). -/
def thaw (h : CmdHdr) (region : Word) (m : Module) : Module :=
  m.command h 0x0D (entryHas [(8, 4, region.toNat), (12, 1, 1)]) <| clipCtl region fun m c k =>
    { m with clips := m.clips.adjust (4 * c + k) fun x => { x with frozen := false, pend := false, left := 0 } }

/-! ### The commands -/

def execAdmitStream (h : CmdHdr) (setup report : W64) (reportLen : Word) (rec : Remote) (s : State) :=
  ok s (admitStream h setup report reportLen rec s.toModule)
def execAdmitComplete (c : PortId) (s : State) := ok s (admitComplete c s.toModule)
def execRelease (h : CmdHdr) (stream : Word) (s : State) := ok s (release h stream s.toModule)
def execDeadlineMissed (c : PortId) (subject : Nat) (frameIndex : Word) (stripe : W16) (lateness : Nat) (s : State) :=
  ok s (deadlineMissed c subject frameIndex stripe lateness s.toModule)
def execDeliveryCopy (c : PortId) (j : Fin 4) (s : State) := ok s (deliveryCopy c j s.toModule)
def execResumeDelivery (h : CmdHdr) (stream : Word) (delivery : Byte) (s : State) :=
  ok s (resumeDelivery h stream delivery s.toModule)
def execClipFrameCopy (c : PortId) (k : Fin 4) (s : State) := ok s (clipFrameCopy c k s.toModule)
def execClipHeaderUpdate (c : PortId) (k : Fin 4) (s : State) := ok s (clipHeaderUpdate c k s.toModule)
def execFreeze (h : CmdHdr) (region after : Word) (s : State) := ok s (freeze h region after s.toModule)
def execThaw (h : CmdHdr) (region : Word) (s : State) := ok s (thaw h region s.toModule)

end Sys2Proof.Machine
end

