-- ==== Sys2Proof/Machine/Mode.lean ====
section
/-!
DEFINITION. Operating modes and the cap: a mode change (R369, R370, R163, R164), the cap's recomputation (R371) and
PLAN_OVER_CAP (R373).
-/
namespace Sys2Proof.Machine

/-- SYS_ADM_STAT.changing follows the mode change (R374). -/
def Module.setModeChange (m : Module) (x : Option ModeChange) : Module :=
  { m with modeChange := x }.setFld SYS_ADM_STAT SYS_ADM_STAT_changing x.isSome.toNat

/-- A write of PWR_MODE.request (R370, R464): 3 is refused, BUSY while a change is in progress, the mode in use changes
nothing; BUSY during the fill of R484 (R487). -/
def Module.modeRequest (m : Module) (mode : Nat) : Nat × Module :=
  if mode = 3 then (stRefused, m)
  else if m.modeChange.isSome || m.fullFill.isSome then (stBusy, m)
  else if mode = m.mode then (stOk, m)
  else (stOk, m.setModeChange (some ⟨mode, .replanning, []⟩))

/-- The module as the fox plans it in the new mode. -/
def Module.inMode (m : Module) (mode : Nat) : Module :=
  ({ m with modeChange := none }.setFld PWR_MODE PWR_MODE_mode mode).updateCap

/-- The module without its streams and calibration runs, which the new mode's plans are made against (R370 step 1). -/
def Module.unplanned (m : Module) : Module :=
  let m := (m.streams : List (Nat × Stream)).foldl (fun (m : Module) e => m.dropStream e.1 e.2) m
  (List.range 36).foldl (fun m c => m.calAbort c) m

/-- Plan a stream as a new admission in the mode that `m` is in (R370 step 1): the entries of the checks that fail, or its
new plan. -/
def Module.replan (m : Module) (s : Stream) : Except (List RepEntry) Plan × Module :=
  let x := m.formIn s.setup
  match m.formOf x with
  | some l => (.error l, m)
  | none => match m.makePlan x with
    | (.error l, _, m') => (.error l, { m with draws := m'.draws })
    | (.ok p, _, m') => (.ok p, m')

/-- Plan the streams of a list one after another: entries of those that fail, their number, the plans. -/
def planAll (l : List (Nat × Stream)) (m : Module) : List RepEntry × Nat × List (Nat × Plan) × Module :=
  l.foldl (fun (a : List RepEntry × Nat × List (Nat × Plan) × Module) e =>
    let h := streamHandle e.1 e.2
    match a.2.2.2.replan e.2 with
    | (.ok p, m) => (a.1, a.2.1, a.2.2.1 ++ [(e.1, p)], m.takePlan e.1 { e.2 with plan := p })
    | (.error rep, m) => (a.1 ++ rep.map fun r => { r with stream := h }, a.2.1 + 1, a.2.2.1, m)) ([], 0, [], m)

/-- Hold what the new plans take until the clocks switch: their SPM under keys of its own, and their channels. -/
def Module.holdPlans (m : Module) (plans : List (Nat × Plan)) (regions : SMap Region) : Module :=
  let m := ((regions : List (Nat × Region)).filter fun r => hiddenKey ≤ r.1).foldl (fun (m : Module) r =>
    let m := m.zoneSpan r.2.base r.2.size true
    { m with regions := m.regions.insert (heldFrom + r.1) r.2 }) m
  plans.foldl (fun (m : Module) e => m.ownChannels e.2.channels) m

/-- Free the channels of the new plans that no stream owns, and the SPM held for them: the change does not go on. -/
def Module.dropHeld (m : Module) (plans : List (Nat × Plan)) : Module :=
  let own := m.streams.flatMap fun e => e.2.plan.channels
  let gone := (plans.flatMap fun e => e.2.channels).filter fun ch => !own.contains ch
  let m := gone.foldl (fun (m : Module) ch => m.setChan ch DmaCh.rest) m
  { m with regions := m.regions.filter fun r => r.1 < heldFrom + hiddenKey }.reportRegions

/-- Put the new plans in the place of the old: SPM, channels, lanes and objects (R370 step 6). -/
def Module.swapPlans (m : Module) (plans : List (Nat × Plan)) : Module :=
  let fresh := plans.flatMap fun e => e.2.channels
  let old := (m.streams.flatMap fun e => e.2.plan.channels).filter fun ch => !fresh.contains ch
  let m := old.foldl (fun (m : Module) ch => m.setChan ch DmaCh.rest) m
  let kept := m.regions.filter fun r => r.1 < hiddenKey
  let held := (m.regions : List (Nat × Region)).filter fun r => heldFrom + hiddenKey ≤ r.1
  let regions := held.foldl (fun (t : SMap Region) r => t.insert (r.1 - heldFrom) r.2) kept
  let m := ({ m with regions := regions }).reportRegions
  let m := plans.foldl (fun (m : Module) e => m.unbindLane e.1) m
  plans.foldl (fun (m : Module) e => match m.streams.find? e.1 with
    | none => m
    | some s =>
      let s := { s with plan := e.2, phase := .waiting, late := [] }
      let m := (m.takePlan e.1 s).fillPlan e.1 s.setup e.2
      m.installStream e.1 s) m

/-- Every engine position, in order. -/
def allPositions : List EngPos := (List.finRange 8).flatMap fun cl => (List.finRange 17).map fun x => ⟨cl, x⟩

/-- Stop every running job task and take back those placed and not started (R366, R370 step 3): preemption. -/
def Module.preemptAll (m : Module) : Module :=
  allPositions.foldl (fun m e =>
    let x := m.eng e
    let m := match x.assigned with
      | some (.job id i t, n, r) =>
        ((m.setEng e { x with assigned := none }).adjustJob id fun j => j.setTask i t (.queued, n, r)).count
          SYS_ADM_CNT_PREEMPT 1
      | _ => m
    match (m.eng e).task with
    | some t =>
      if refIsJob t.ref && t.abort.isNone && !t.exec.ended then
        (m.abortTask e ⟨stPreempted, 0, false⟩).count SYS_ADM_CNT_PREEMPT 1
      else m
    | none => m) m

/-- MODE_REPLAN_DONE: with a stream that fails the change is refused and reported; otherwise jobs stop, calibrations end,
and every port leaves ACTIVE at its next frame end (R370 steps 2 to 4). -/
def modeReplanDone (m : Module) : Module := m.firmware fun m =>
  match m.modeChange with
  | none => m
  | some x =>
    if x.phase ≠ .replanning || m.admitting.isSome then m
    else
      let l := m.byAdmission.filter fun e => e.2.phase ≠ .releasing
      let (rep, failed, plans, m') := planAll l (m.inMode x.target).unplanned
      let cap := m'.cap
      let m := { m with draws := m'.draws }
      if failed ≠ 0 then
        let m := m.writeReport fun n => reportBytes n (lowestCheck rep) 4 x.target 0 0 cap rep
        (m.setModeChange none).raise 0x0802 x.target failed 0 0
      else
        let m := { m with modeChange := some { x with phase := .stopping, plans := plans } }.preemptAll
        let m := m.holdPlans plans m'.regions
        let m := (List.range 36).foldl (fun m c => m.calAbort c) m
        let streams := (m.streams : List (Nat × Stream)).map fun e =>
          (e.1, if e.2.phase = .releasing then e.2 else { e.2 with phase := .stopped })
        { m with streams := streams }

/-- The spare roles of a cluster under the new mode (R163, R164, R370 step 6, R505), whether or not it is powered: firmware
keeps positions and map in CTL (R504). In MAXIMUM a working E16 is scheduled; otherwise a name without a position takes
that of E16, or E16 begins its sweeps. -/
def Module.spareRole (m : Module) (cl : Fin 8) : Module :=
  match m.posOf cl 16 with
  | none => m.setSpare cl 2
  | some e =>
    if m.engState e ≠ 1 && m.engState e ≠ 3 then m.setSpare cl 2
    else if !m.tests then (m.setEngState e 1).setSpare cl 3
    else match (List.range 16).find? fun n => (m.posOf cl n).isNone with
      | some n =>
        let m := (((m.setMap cl n e.x).setMap cl 16 31).setName e n).setEngState e 1
        let m := (m.setSpare cl 2).satAdd (ENG_CL_STAT cl) ENG_CL_STAT_swaps 1
        (m.mapEvent cl 2 n 31 e.x).mapEvent cl 2 16 e.x 31
      | none =>
        if m.engState e = 3 then m
        else
          ((m.setEng e { m.eng e with passed := 0 }).setFld (ENG_X_ST cl e.x) ENG_X_ST_passes 0).setEngState e 3
            |>.setSpare cl 1

/-- No task is on any engine. -/
def Module.enginesIdle (m : Module) : Bool := m.engines.all fun e => e.2.task.isNone && e.2.assigned.isNone

/-- MODE_CLOCK_SWITCH: every stream has stopped: the clocks change, the new plans are installed and the spare roles follow;
each port enters ACTIVE at its next frame start (R370 steps 5 to 7). -/
def modeClockSwitch (m : Module) : Module := m.firmware fun m =>
  match m.modeChange with
  | none => m
  | some x =>
    if x.phase ≠ .stopping || !m.enginesIdle || !(m.streams.all fun e => e.2.phase = .stopped && m.streamDrained e.1 e.2)
    then m
    else
      let m := { m with modeChange := some { x with phase := .starting } }.updateCap
      let engines := (m.engines : List (Nat × Eng)).map fun e => (e.1, { e.2 with sets := [] })
      let m := { m with engines := engines }
      let m := (List.finRange 8).foldl (fun m cl => m.spareRole cl) m
      (m.swapPlans x.plans).buildGates.reportPlanned

/-- MODE_CHANGED: every stream is ACTIVE in the new mode (R370 step 8). -/
def modeChanged (m : Module) : Module := m.firmware fun m =>
  match m.modeChange with
  | none => m
  | some x =>
    if x.phase ≠ .starting || m.streams.any (·.2.phase = .waiting) then m
    else
      let old := m.fld PWR_MODE PWR_MODE_mode
      let m := (m.setFld PWR_MODE PWR_MODE_mode x.target).setFld SYS_ADM_STAT SYS_ADM_STAT_mode x.target
      (m.setModeChange none).raise 0x0803 x.target old x.plans.length 0

/-- A mode change that EN off or a thermal trip stops where it stands: PWR_MODE shows the mode whose clocks were last
locked (R459). -/
def Module.stopModeChange (m : Module) : Module :=
  match m.modeChange with
  | none => m
  | some x =>
    let md := m.mode
    (((m.dropHeld x.plans).setModeChange none).setFld PWR_MODE PWR_MODE_mode md).setFld SYS_ADM_STAT SYS_ADM_STAT_mode md

/-! ### The cap (R371 to R373) -/

/-- THERMAL_CAP_UPDATE: every 100 ms the cap in force and T_limit are worked out again (R371, R372). -/
def thermalCapUpdate (m : Module) : Module := m.updateCap.checkRisk

/-- PLAN_OVER_CAP: once a second while the plans alone exceed the cap (R373); a fault of class THERMAL (R509). -/
def planOverCap (m : Module) : Module :=
  let planned := m.fld SYS_ADM_POWER SYS_ADM_POWER_planned_dw
  if planned ≤ m.cap then m
  else m.fault 13 0x0805 0 (m.fld PWR_IN_P PWR_IN_P_p_100ms_dw) planned m.cap

def execModeReplanDone (s : State) := ok s (modeReplanDone s.toModule)
def execModeClockSwitch (s : State) := ok s (modeClockSwitch s.toModule)
def execModeChanged (s : State) := ok s (modeChanged s.toModule)
def execThermalCapUpdate (s : State) := ok s (thermalCapUpdate s.toModule)
def execPlanOverCap (s : State) := ok s (planOverCap s.toModule)

end Sys2Proof.Machine
end

