-- ==== Sys2Proof/Machine/Jobs.lean ====
section
/-!
DEFINITION. Releasing a region (R284, R266) and jobs (R364 to R368, R396).
-/
namespace Sys2Proof.Machine

/-! ### FREE (R284) -/

/-- A stream's set-up names a region (R97, R284): its stages and deliveries, and the region handles of its registers. -/
def Module.streamNamesRegion (m : Module) (c : Nat) (s : Stream) (h : Word) : Bool :=
  let is := fun (x : Word) => handleKey x = handleKey h && x.toNat / 65536 = h.toNat / 65536
  let reg := fun (on : Bool) (o : Nat) => on && is (m.rd o)
  (s.setup.stages.any fun st => is st.argsRegion || (List.range 4).any fun i =>
      !st.writable.testBit (4 + i) && is ((st.access[i]?).getD 0)) ||
    (s.setup.deliveries.any fun d => is d.srcRegion) || reg true (NIS_IN_REGION c) || reg true (NIS_HIST_REGION c) ||
    reg (m.bit (FE_STAT_CFG c) FE_STAT_CFG_en) (FE_STAT_DEST c) || (List.range 4).any fun k =>
      m.bit (NIS_OUT_CFG c k) NIS_OUT_CFG_en && (is (m.rd (NIS_OUT_REGION c k)) ||
        reg (m.bit (NIS_OUT_DEST c k) NIS_OUT_DEST_clip) (NIS_OUT_CLIP c k))

/-- A FREE is refused: a stream, an open exported window or a loaded package names the region (R284, R427, R395). -/
def Module.regionHeld (m : Module) (h : Word) : Bool :=
  let is := fun (x : Word) => handleKey x = handleKey h && x.toNat / 65536 = h.toNat / 65536
  (m.streams.any fun e => m.streamNamesRegion e.1 e.2 h) ||
    ((List.range 256).any fun n => m.bit (YWP_EXP_CTL n) YWP_EXP_CTL_open && is (m.rd (YWP_EXP_REGION n))) ||
    m.packages.any fun p => is p.2.region

def freeStart (region : Word) (c : CmdRef) (m : Module) : Module :=
  match m.region? region with
  | none => m.complete c stRefused 0
  | some r =>
    if m.regionHeld region then m.complete c stRefused 0
    else { m with regions := m.regions.insert (handleKey region) { r with phase := .waiting, freeBy := some c } }

/-- FREE (R284 step 1): of an SPM region it needs RUN (R458); it waits for an earlier command of R343. -/
def freeCmd (h : CmdHdr) (region : Word) (m : Module) : Module :=
  if !m.serialTurn h 0x08 then m
  else if isDramHandle region then m.command h 0x08 (entryHas [(8, 4, region.toNat)]) (freeStart region)
  else m.commandRun h 0x08 (entryHas [(8, 4, region.toNat)]) (freeStart region)

/-- Two spans share a byte. -/
def spansShare (a n b k : Nat) : Bool := a < b + k && b < a + n

/-- A running or dispatched task, the cancelled reads of one that has ended, or a fill, copy or DMA transfer in progress,
uses the region (R266, R284 step 2); so does the descriptor of a channel that halts or has halted (R338). -/
def Module.regionUsed (m : Module) (r : Region) : Bool :=
  let meets := fun (a n : Nat) => spansShare a n r.base r.size
  (m.engines.any fun e =>
    (match e.2.task with
      | some t => t.access.any fun x => meets x.1 x.2.1
      | none => false) || (e.2.drain.any fun x => meets x.1 x.2.1) ||
    match e.2.assigned with
    | some (.job id i _, _) => match (m.job? id).bind (·.stages[i]?) with
      | some st => (m.stageAccess st).any fun x => meets x.1 x.2.1
      | none => false
    | some (.stream c i _ _, _) => match (m.streams.find? c.val).bind (·.setup.stages[i.val]?) with
      | some st => (m.stageAccess st).any fun x => meets x.1 x.2.1
      | none => false
    | none => false) ||
    (m.fills.any fun e => e.2.any fun f => meets f.dstAddr f.len || f.copy && meets f.srcAddr f.len) ||
    (m.sessions.any fun e => e.2.taken.any fun t => m.fillNames t r) ||
    m.dma.any fun e => match e.2.desc with
      | some d => [DmaPhase.moving, .halting, .halted].contains e.2.phase && (List.range d.rows).any fun i =>
          meets (d.dstAt (i * d.rowBytes)) d.rowBytes || d.op = 0 && meets (d.srcAt (i * d.rowBytes)) d.rowBytes
      | none => false

/-- RELEASE_ZERO_FILL: the region's users have ended and its stacks serve: its handle goes stale, its gather entries are
written out, and it is filled with zeros (R284 steps 3 and 4). -/
def releaseZeroFill (region : Word) (m : Module) : Module := m.firmware fun m =>
  match m.region? region with
  | none => m
  | some r =>
    if r.phase ≠ .waiting || m.regionUsed r || m.spmOff r.base r.size || m.spmBusy r.base r.size then m
    else { m.zero r.base r.size with regions := m.regions.insert (handleKey region) { r with phase := .zeroing } }

/-- RELEASE_DONE: the space is free again; the completion is written (R284 step 5). -/
def releaseDone (region : Word) (m : Module) : Module := m.firmware fun m =>
  let k := handleKey region
  match m.regions.find? k with
  | none => m
  | some r =>
    if r.phase ≠ .zeroing || r.gen ≠ region.toNat / 65536 then m
    else
      let m := { m with regions := m.regions.erase k, regionGen := SMap.set 1 m.regionGen k (nextGen r.gen) }.reportRegions
      match r.freeBy with
      | some c => m.complete c stOk 0
      | none => m

/-! ### JOB (R364, R365) -/

/-- A stage entry of a job holds: package and template, sync table, current handles, an argument region that holds its
blocks (R227, R235, R347). -/
def Module.jobStageOk (m : Module) (st : StageSetup) : Bool :=
  match m.package? st.package, m.region? st.argsRegion with
  | some p, some r =>
    st.template < m.pkgTemplates p.addr && (m.template p.addr st.template).sync ≤ st.syncEntries &&
      (st.sync.take st.syncEntries).all (· < 8192) && st.argsOffset + st.tasks * 256 ≤ r.size &&
      (List.range 4).all fun i =>
        let h := (st.access[i]?).getD 0
        h = 0 || if st.writable.testBit (4 + i) then (m.windowOf h).isSome else (m.region? h).isSome
  | _, _ => false

/-- The objects of a job's chain keep R228, R263, R308, R311 and R313. -/
def Module.jobChainOk (m : Module) (stages : List StageSetup) (handover : List Nat) : Bool :=
  let hs := handover.take (stages.length - 1)
  let ss := stages.map m.stageSync
  let sigs := ss.flatMap (·.sigs)
  hs.all (fun o => o < 8192 && !m.owned o && !sigs.contains o && ss.all fun s => s.waits.all (·.1 ≠ o)) &&
    sigs.all (fun o => !m.owned o) &&
    ss.all (fun s => s.waits.all (fun w => sigs.contains w.1 || w.2 ≠ 0) && s.waitS.all (· ≠ 0)) &&
    (cycleObjects (chainEdges ss handover)).isEmpty

/-- The expiry of a job record (R364, R367). -/
def Module.jobExpiry (m : Module) (b : List Byte) : Expiry :=
  match fieldAt b 1 1 with
  | 1 => .absolute (fieldAt b 8 6 * 1000000000 + fieldAt b 16 4)
  | 2 => .relative (m.now + fieldAt b 4 4 * 1000)
  | _ => .none

/-- The expiry has passed; in the same cycle the dispatch wins (R367). -/
def Module.expired (m : Module) (x : Expiry) : Bool :=
  match x with
  | .none => false
  | .absolute t => t < m.ptp
  | .relative t => t < m.now

/-- Accept a job, or complete it at once (R365, R367). -/
def Module.jobAccept (m : Module) (c : CmdRef) (b : List Byte) : Module :=
  let stages := jobStages b
  let handover := arrayAt b 20 2 7
  let m := m.tick
  if !jobForm b || !stages.all m.jobStageOk || !m.jobChainOk stages handover || fieldAt b 1 1 = 1 && !m.timeValid then
    (m.count SYS_ADM_CNT_REFUSED 1).complete c stRefused 0
  else
    let x := m.jobExpiry b
    if m.expired x then (m.count SYS_ADM_CNT_EXPIRED 1).complete c stExpired 0
    else
      let j : Job := ⟨m.nextJob, c, stages, handover, handover.map m.sync, x, false,
        stages.map fun st => List.replicate st.tasks (.queued, 0, false), false, false, none, [], []⟩
      { m with nextJob := m.nextJob + 1 }.setJobs (m.jobs ++ [j])

def jobRead (record : W64) (rec : Remote) (c : CmdRef) (m : Module) : Module :=
  let a := record.toNat
  if a % 64 ≠ 0 then (m.count SYS_ADM_CNT_REFUSED 1).complete c stRefused 0
  else match m.recordFetch a 64 rec with
    | (.error st, m) => m.complete c st 0
    | (.ok h, m) => match m.recordFetch a (jobLen h) rec with
      | (.error st, m) => m.complete c st 0
      | (.ok b, m) => m.jobAccept c b

/-- JOB (R364, R365). -/
def jobCmd (h : CmdHdr) (record : W64) (rec : Remote) (m : Module) : Module :=
  if m.recordBusy record.toNat jobLen then m else m.commandRun h 0x03 (entryHas [(8, 8, record.toNat)]) (jobRead record rec)

/-! ### Dispatch and preemption (R366, R367, R257, R261) -/

/-- Job tasks are being dispatched: in RUN, not gated by the cap (R373), no mode change past its replanning (R370), firmware
running (R479). -/
def Module.dispatching (m : Module) : Bool :=
  m.power = 3 && !m.moving && !m.jobsGated && !m.cpHalted && m.fullFill.isNone && match m.modeChange with
    | some x => x.phase = .replanning
    | none => true

/-- The hand-over that stage i of a job waits for (R261). -/
def Module.handed (m : Module) (j : Job) (i : Nat) : Bool :=
  i = 0 || match j.handover[i - 1]?, j.handBase[i - 1]?, j.stages[i - 1]? with
    | some o, some v, some st => meets (m.sync o) (v + BitVec.ofNat 32 st.tasks)
    | _, _, _ => false

/-- The tiler's estimate of a job task in ACLK cycles: the gap that it needs, but for a constant (R250, R366). -/
def Module.jobCost (m : Module) (st : StageSetup) (k : Nat) : Nat :=
  match m.package? st.package with
  | some p =>
    let t := m.template p.addr st.template
    t.estimate (m.shapeVals (m.stageArgs st 0 k) t.shapes)
  | none => 0

/-- How the stage's template uses the resident area (R211, R257). -/
def Module.stageRes (m : Module) (st : StageSetup) : Nat :=
  match m.package? st.package with
  | some p => (m.template p.addr st.template).res
  | none => 0

/-- A task that waits to be run again in this cluster may take the position: it goes before other jobs' tasks (R267). -/
def Module.rerunWaits (m : Module) (cl : Fin 8) (e : EngPos) : Bool :=
  m.jobs.any fun j => (List.range j.stages.length).any fun i => match j.stages[i]? with
    | none => false
    | some st => (List.range st.tasks).any fun k => match j.task? i k with
      | some (.queued, _, true) => SMap.get 0 j.clusters (jobKey i k) = cl.val + 1 && m.takesJob e (m.stageRes st)
      | _ => false

/-- A queued job task may be placed on position e with logical name q: its job is not at its end, its hand-over is met, its
program and its use of the resident area fit, and it does not belong to another cluster (R238, R257, R261, R267). -/
def Module.jobMayPlace (m : Module) (e : EngPos) (cl : Fin 8) (q : Nat) (j : Job) (i k : Nat) (st : StageSetup) : Bool :=
  let home := SMap.get 0 j.clusters (jobKey i k)
  !j.withdrawing && j.outcome.isNone && m.handed j i && m.takesJob e (m.stageRes st) && m.jobFits j st i k q &&
    (home = 0 || home = cl.val + 1)

/-- A task of an earlier job may be placed there and needs no longer gap: dispatch takes jobs in acceptance order, and one that
cannot be placed holds nothing back (R365, R366). -/
def Module.jobAhead (m : Module) (e : EngPos) (cl : Fin 8) (q : Nat) (id cost : Nat) : Bool :=
  (m.jobs.takeWhile (·.id ≠ id)).any fun j => (List.range j.stages.length).any fun i => match j.stages[i]? with
    | none => false
    | some st => (List.range st.tasks).any fun k => match j.task? i k with
      | some (.queued, _, _) => m.jobMayPlace e cl q j i k st && m.jobCost st k ≤ cost
      | _ => false

/-- JOB_DISPATCH: a queued task is placed on an idle logical engine; before the first one the expiry is tested, and the
weights' address is written before a stage's first task (R364, R366, R367), and its variant is chosen (R248). A task that
is run again stays in its cluster (R267). The length of the gap is the plan's. -/
def jobDispatch (job stage task : Nat) (cl : Fin 8) (logical : Fin 17) (m : Module) : Module :=
  match m.job? job, m.posOf cl logical with
  | some j, some e =>
    match j.task? stage task, j.stages[stage]? with
    | some (.queued, n, again), some st =>
      let home := SMap.get 0 j.clusters (jobKey stage task)
      let q := 17 * cl.val + logical.val
      let behind := home = 0 && (m.rerunWaits cl e || m.jobAhead e cl q job (m.jobCost st task))
      let first := (List.range st.tasks).all fun k => (j.variants.find? (jobKey stage k)).isNone
      if !m.dispatching || !m.jobMayPlace e cl q j stage task st || (logical.val = 16 && m.tests) || behind ||
          first && m.argsBusy st 1 then m
      else
        let m := m.tick
        if !j.dispatched && m.expired j.expiry then (m.count SYS_ADM_CNT_EXPIRED 1).endJob j stExpired 0
        else
          let m := match m.package? st.package with
            | some p => if first then m.writeWeights st 1 (m.pkgSec p.addr secWeights).1 else m
            | none => m
          let m := m.setEng e { m.eng e with assigned := some (.job job stage task, n, again) }
          let v := m.jobVariant j st stage task
          m.adjustJob job fun j =>
            { j.setTask stage task (.running e, n, again) with
              dispatched := true, variants := j.variants.insert (jobKey stage task) v }
    | _, _ => m
  | _, _ => m

/-- JOB_PREEMPT: a job task that still runs is stopped and queued again (R366). -/
def jobPreempt (e : EngPos) (m : Module) : Module := m.firmware fun m =>
  match (m.eng e).task with
  | none => m
  | some t =>
    if refIsJob t.ref && t.abort.isNone && !t.exec.ended then
      (m.abortTask e ⟨stPreempted, 0, false⟩).count SYS_ADM_CNT_PREEMPT 1
    else m

/-! ### WITHDRAW (R396) -/

/-- Stop a dispatched job: its running tasks are aborted, those placed and not started taken back. -/
def Module.stopJob (m : Module) (id status : Nat) : Module :=
  allPositions.foldl (fun m e =>
    let x := m.eng e
    let m := match x.assigned with
      | some (.job id' i k, _) =>
        if id' = id then (m.setEng e { x with assigned := none }).adjustJob id fun j => j.setTask i k (.ended, 0, false)
        else m
      | _ => m
    match (m.eng e).task with
    | some t => match t.ref with
      | .job id' _ _ => if id' = id && t.abort.isNone then m.abortTask e ⟨status, 0, false⟩ else m
      | .stream .. => m
    | none => m) m

/-- Withdraw one job. -/
def Module.withdrawJob (m : Module) (id : Nat) : Module :=
  match m.job? id with
  | none => m
  | some j =>
    if j.held then m
    else if !j.dispatched then m.endJob j stWithdrawn 0
    else ((m.adjustJob id fun j => { j with withdrawing := true }).stopJob id stWithdrawn).settleJob id

def withdrawStart (tag : Word) (c : CmdRef) (m : Module) : Module :=
  let ids := (m.jobs.filter fun j => !j.held && j.cmd.session = c.session && j.cmd.gen = c.gen && j.cmd.tag = tag).map (·.id)
  if ids.isEmpty then m.complete c stOk 0
  else ids.foldl Module.withdrawJob { m with withdraws := m.withdraws ++ [⟨c, ids.length, ids⟩] }

/-- WITHDRAW (R396). -/
def withdraw (h : CmdHdr) (jobTag : Word) (m : Module) : Module :=
  m.command h 0x04 (entryHas [(8, 4, jobTag.toNat)]) (withdrawStart jobTag)

/-! ### The commands -/

def execFree (h : CmdHdr) (region : Word) (s : State) := ok s (freeCmd h region s.toModule)
def execReleaseZeroFill (region : Word) (s : State) := ok s (releaseZeroFill region s.toModule)
def execReleaseDone (region : Word) (s : State) := ok s (releaseDone region s.toModule)
def execJob (h : CmdHdr) (record : W64) (rec : Remote) (s : State) := ok s (jobCmd h record rec s.toModule)
def execJobDispatch (job : Nat) (stage task : Nat) (cl : Fin 8) (logical : Fin 17) (s : State) :=
  ok s (jobDispatch job stage task cl logical s.toModule)
def execJobPreempt (e : EngPos) (s : State) := ok s (jobPreempt e s.toModule)
def execWithdraw (h : CmdHdr) (jobTag : Word) (s : State) := ok s (withdraw h jobTag s.toModule)

end Sys2Proof.Machine
end

