-- ==== Sys2Proof/Machine/Level.lean ====
section
/-!
DEFINITION. The debug level and the answers of debug operations (16_security_debug R465, R476, R477, R483).
-/
namespace Sys2Proof.Machine

/-- The debug level (R476): 0 LOCKED, 1 OBSERVE, 2 FULL. -/
def Module.level (m : Module) : Nat := m.fld DBG_LEVEL DBG_LEVEL_level

/-- The baseline that the module holds (R465). -/
def Module.baseline (m : Module) : Nat := m.fld DBG_LEVEL DBG_LEVEL_baseline

/-- The baseline of a life-cycle state (R465). -/
def baselineOf (lc : Nat) : Nat := if lc = 0 then 2 else if lc = 1 then 1 else 0

/-- A change of level is entered in the change journal and raises DEBUG_LEVEL (R483, R489). -/
def Module.setLevel (m : Module) (source : Fin 4) (v : Nat) : Module :=
  let old := m.level
  if v = old then m
  else ((m.setFld DBG_LEVEL DBG_LEVEL_level v).journalEntry 3 source 0 0 old v).raise 0x0B01 (v + 4 * old) 0 0 0

/-- The fill of R484 stops: FULL does not open, and the RESPONSE completes with NOT_READY; a region whose fill has not begun
stays (R487). -/
def Module.stopFill (m : Module) : Module :=
  match m.fullFill with
  | none => m
  | some d =>
    let keep := fun (r : Region) => if r.phase = .waiting && r.freeBy.isNone then { r with phase := .live } else r
    let m := { m with fullFill := none, regions := m.regions.map fun (e : Nat × Region) => (e.1, keep e.2) }
    (m.setFld DBG_LEVEL DBG_LEVEL_filling 0).debugAnswer d 3 stNotReady 0 []

/-- Every FILL and COPY is aborted (R484 step 4): the spec states no code (assumption log 2). -/
def Module.abortFills (m : Module) : Module :=
  (List.range 8).foldl (fun m s =>
    let l := m.fillQueue s
    l.foldl (fun (m : Module) f =>
      let (v, m) := m.open_
      if f.finished then m else m.complete f.cmd (v.toNat % 256) 0) (m.setFills s [])) m

/-- With every stream released the fill goes on (R484 steps 4 to 6): jobs are withdrawn, fills, copies and DMA aborted,
exported windows closed, packages unloaded, and every region is released as by a FREE. -/
def Module.fillWork (m : Module) : Module :=
  if m.fullFill.isNone || !m.streams.isEmpty then m
  else
    let m := (m.jobs.map (·.id)).foldl Module.withdrawJob m
    let m := m.abortFills.abortAllDma.closeAllWindows
    let m := (m.packages.map (·.1)).foldl Module.dropPackage m
    let free := fun (r : Region) => if r.phase = .live then { r with phase := .waiting } else r
    { m with regions := m.regions.map fun (e : Nat × Region) => (e.1, free e.2) }

end Sys2Proof.Machine
end

