-- ==== Sys2Proof/Machine/Power.lean ====
section
/-!
DEFINITION. Supply, domains, power states, measurement and temperature (15_power R442 to R464).
-/
namespace Sys2Proof.Machine

/-! ### Domains (R10, R27, R28, R450 to R452) -/

/-- The domain of the register block that holds an offset is on (R27, R28). DESIGN CHOICE (assumption log 33): where a
block is split over several domains and an offset holds no register of it, the spec names no domain; an offset beyond the last port,
context, engine or stack of its block goes with the domain that the same arithmetic gives. -/
def Module.blockOn (m : Module) (off : Nat) : Bool :=
  let ctl := m.bit PWR_DOM_STAT PWR_DOM_STAT_ctl
  if off < 0x010000 then true
  else if off < 0x040000 then m.feOn ((off - 0x010000) / 0x1000)
  else if off < 0x070000 then m.feOn ((off - 0x040000) / 0x400)
  else if off < 0x080000 then m.feOn (if (off - 0x070000) / 0x100 < 4 then 0 else 35)
  else if off < 0x100000 then ctl
  else if off < 0x300000 then m.engOn ((off - 0x100000) / 0x40000) (off % 0x40000 / 0x2000)
  else if off < 0x308000 then m.engOn ((off - 0x300000) / 0x1000) 0
  else if off < 0x400000 then m.engOn 0 0
  else if off < 0x440000 then m.spmOn ((off - 0x400000) / 0x8000)
  else if off < 0x480000 then m.spmOn 0
  else if off < 0x500000 then ctl
  else if off < 0x580000 then
    (m.fld PWR_DOM_STAT PWR_DOM_STAT_ddr).testBit (if 0x501800 ≤ off && off < 0x502000 then 1 else 0)
  else if off < 0x600000 then ctl
  else if off < 0x700000 then m.bit PWR_DOM_STAT PWR_DOM_STAT_net
  else if off < 0x7E0000 then true
  else ctl

/-- A register of a block that is off keeps its value: taps in always-on retention (R45); positions, their faults and the
map (R504); stacks in retention (R450); training values (R457), journal counts (R455), monitors and firmware version. -/
def Module.keptOff (m : Module) (off : Nat) : Bool :=
  (match findReg off with
    | some (r, _, _) => [CAP_DESKEW 0 0, CAP_DESKEW4 0, ENG_X_STAT 0 0, ENG_MAP 0 0, ENG_CL_STAT 0, DDR_CFG, DDR_STAT,
        JNL_NEXT, JNL_OLDEST, NIS_RES_VER, CAL_MON_STAT].contains r.base
    | none => false) ||
    (0x400000 ≤ off && off < 0x480000 &&
      (m.fld PWR_DOM_RET PWR_DOM_RET_spm).testBit (if off < 0x440000 then (off - 0x400000) / 0x8000 else 0))

/-- Registers of the blocks that are off are at reset, but for those kept. -/
def Module.dropOff (m : Module) : Module := { m with regs := m.regs.filter fun e => m.blockOn e.1 || m.keptOff e.1 }

/-- A front-end half goes off (R45, R456): its ports are DISABLED and lose queue and measurements; its contexts keep only
what the neural stages hold. -/
def Module.feOff (m : Module) (half : Nat) : Module :=
  ((List.range 36).filter fun c => decide (c / 18 = half)).foldl (fun m c =>
    let m := m.disablePort c
    let m := { m with seqNext := m.seqNext.erase c, seqLast := m.seqLast.erase c }.setPort c Port.rest
    let m := m.setCtx c { Ctx.rest with tone := (m.ctx c).tone }
    ((m.setCal c { m.cal c with blOk := false, tapsOk := false }).setFld (CAL_CTX_STAT c) CAL_CTX_STAT_valid 0).reportStored c) m

/-- A job's task, running or placed on a position that is switched off, is queued again as a preempted one is, for any
cluster (R366, R452, assumption log 83). -/
def Module.requeue (m : Module) (e : EngPos) : Module :=
  let back := fun (m : Module) (r : TaskRef) (n : Nat) => match r with
    | .job id i k => (m.adjustJob id fun j =>
        { j.setTask i k (.queued, n, false) with clusters := j.clusters.erase (jobKey i k) }).settleJob id
    | .stream .. => m
  match (m.eng e).task, (m.eng e).assigned with
  | some t, _ => back m t.ref (max t.sigs t.skip)
  | none, some (r, n, _) => back m r n
  | none, none => m

/-- Positions whose half-cluster is off hold no task and no staging contents; consecutive sweeps start again (R504). -/
def Module.engOff (m : Module) (eng : Nat) : Module :=
  allPositions.foldl (fun m e =>
    if eng.testBit (2 * e.cl.val + if e.x.val ≤ 8 then 0 else 1) then m
    else
      let m := m.requeue e
      m.setEng e { m.eng e with assigned := none, task := none, sets := [], passed := 0 }) m

/-- SPM contents and regions are lost: their handles are stale, and so are the packages in them (R296, R456). -/
def Module.loseSpm (m : Module) : Module :=
  let gone := m.regions.filter fun e => hiddenKey ≤ e.1 || !isDramHandle (BitVec.ofNat 32 e.1)
  let m := (m.packages.filter fun e => !isDramHandle e.2.region).foldl (fun (m : Module) e => m.dropPackage e.1) m
  let gens := gone.foldl (fun g e => if e.1 < hiddenKey then SMap.set 1 g e.1 (nextGen e.2.gen) else g) m.regionGen
  { m with
    regions := m.regions.filter fun e => !(hiddenKey ≤ e.1 || !isDramHandle (BitVec.ofNat 32 e.1))
    regionGen := gens, mem := m.mem.filter fun c => spmSize ≤ c.1, gather := [], poison := []
    latent := m.latent.filter (spmSize ≤ ·.addr) }

/-- Switch the domains as a state powers them (R450); a cluster switched on tests its spare again (R502, R504). -/
def Module.switchTo (m : Module) (st : Nat) : Module :=
  let f := fun b => m.fld PWR_DOM_STAT b
  let held := f PWR_DOM_STAT_spm ||| m.fld PWR_DOM_RET PWR_DOM_RET_spm
  let eng := m.engDomains st
  let fe := m.feDomains st
  let spm := if st = 3 then 255 else 0
  let ret := if st = 2 || st = 1 && m.bit PWR_CFG PWR_CFG_standby_spm then held else 0
  let oldFe := f PWR_DOM_STAT_fe
  let oldEng := f PWR_DOM_STAT_eng
  let m := (List.range 2).foldl (fun m h => if oldFe.testBit h && !fe.testBit h then m.feOff h else m) m
  let m := m.engOff eng
  let m := if held ≠ 0 && spm = 0 && ret = 0 then m.loseSpm else m
  let d := fun (m : Module) b v => m.setFld PWR_DOM_STAT b v
  let m := d (d (d m PWR_DOM_STAT_eng eng) PWR_DOM_STAT_fe fe) PWR_DOM_STAT_spm spm
  let m := d (d (d m PWR_DOM_STAT_ddr (if 2 ≤ st then 3 else 0)) PWR_DOM_STAT_ctl (if 2 ≤ st then 1 else 0))
    PWR_DOM_STAT_net (if 1 ≤ st then 1 else 0)
  ((m.setFld PWR_DOM_RET PWR_DOM_RET_spm ret).dropOff).testSpares oldEng eng

/-! ### Leaving a state (R454 to R456) -/

/-- The condition of RUN to IDLE (R454): no stream admitted, no job accepted and not completed, no FILL, COPY or DMA
command running. -/
def Module.quiet (m : Module) : Bool :=
  m.streams.isEmpty && m.jobs.isEmpty && (m.fills.all fun e => e.2.isEmpty) && m.dma.all fun e => match e.2.owner with
    | .session _ => false
    | _ => true

/-- The module is on its way to OFF, or a system reset (R455, R496). -/
def Module.goingOff (m : Module) : Bool :=
  match m.transition with
  | some t => t.target = 0
  | none => false

/-- POWER_STATE is raised once no stream is left (R453, R455 step 3); after a thermal trip it is the fault's event (R509). -/
def Module.announce (m : Module) : Module :=
  match m.transition with
  | none => m
  | some t =>
    if 2 ≤ t.target || t.announced || !m.streams.isEmpty then m
    else
      let p := t.target + 16 * m.power
      let m := { m with transition := some { t with announced := true } }
      if t.cause = .thermal then m.fault 13 0x0A01 p 0 0 0 else m.raise 0x0A01 p 0 0 0

/-- The move to STANDBY or OFF begins: a mode change stops where it stands, and so does a fill of R484 (R459, R487). -/
def Module.beginLeave (m : Module) (target : Nat) (cause : PowerCause) : Module :=
  (m.stopModeChange.stopFill).startMove target cause

/-- Enter STANDBY or OFF under EN off or a thermal trip (R455 steps 2 and 3): every stream is released first. -/
def Module.leave (m : Module) (target : Nat) (cause : PowerCause) : Module :=
  let m := m.beginLeave target cause
  let m := (m.streams : List (Nat × Stream)).foldl (fun m e =>
    if e.2.phase = .releasing then m else m.beginRelease e.1 e.2 none) m
  m.announce

/-- A transition that R454 lists for a request. -/
def requestListed (st target : Nat) : Bool :=
  (st = 2 && target = 3) || (st = 3 && target = 2) || ((st = 2 || st = 3) && target ≤ 1)

/-- A write of PWR_STATE_REQ.target (R454, R487); POWER_STATE of an entry to STANDBY or OFF follows the answer (R455). -/
def Module.powerRequest (m : Module) (target : Nat) : Nat × Module :=
  let st := m.power
  if target ≠ st && !requestListed st target then (stRefused, m)
  else if m.moving || m.fullFill.isSome then (stBusy, m)
  else if target = st then (stOk, m)
  else if target = 3 then (stOk, m.startMove 3 .request)
  else if target = 2 then if m.quiet then (stOk, m.startMove 2 .request) else (stRefused, m)
  else if m.streams.isEmpty then (stOk, m.beginLeave target .request)
  else (stRefused, m)

/-- Sessions end with DETACH reason NOT_READY, exported windows close, bindings are freed (R455 steps 5 and 6). -/
def Module.closeLinks (m : Module) : Module :=
  let m := (m.endAllSessions stNotReady).closeAllWindows
  let m := { m with
    binds := [], winOut := [], mcSend := [], mcRx := [], syncSeen := [], attachWait := [], attachDone := [] }
  (List.range 64).foldl (fun m w => m.reportBinding w) m

/-- What CTL holds is lost, but for what firmware saves (R455 step 7, R456). -/
def Module.loseCtl (m : Module) : Module :=
  (({ m.tornStores with
    heldEvents := [], sessions := [], ports := [], ctxs := [], cals := [], fills := [], dma := [], planMoves := []
    clips := [], syncs := [], syncOwner := [], hostWaits := [], streams := [], admitting := none, withdraws := []
    modeChange := none, rotDue := [] }).setJobs []).reportPlanned

/-- The nonce of a CHALLENGE is no longer valid (R481). -/
def Module.dropNonce (m : Module) : Module := { m with nonce := none }.setFld DBG_LEVEL DBG_LEVEL_nonce 0

/-- Faults logged in flash, the newest first, the last 256 (R510). -/
def Flash.addFaults (f : Flash) (l : List Event) : Flash := { f with faultLog := (l.reverse ++ f.faultLog).take 256 }

/-- The module is OFF (R448, R450, R456, R464): flash, OTP and the cause remain; faults not yet written may be lost (R510).
What has left the module has left it. -/
def Module.goOff (m : Module) (cause : Nat) (held : Bool) : Module :=
  let m := m.tornStores
  let (k, m) := m.pick (m.flogPending.length + 1)
  let x := { Module.reset with
    regs := [], boot := .off, otp := m.otp, flash := m.flash.addFaults (m.flogPending.take k), outbox := m.outbox
    now := m.now, draws := m.draws, offHeld := held }
  ((x.wr PWR_STATE 0).wr PWR_DOM_STAT 0).setFld PWR_CAUSE PWR_CAUSE_off_cause cause

/-- WAKE starts (R457): CTL and DRAM come on and the firmware is loaded and verified. -/
def Module.beginWake (m : Module) : Module :=
  let m := (m.startMove 2 .boot).setFld PWR_DOM_STAT PWR_DOM_STAT_ctl 1
  let m := (m.setFld PWR_DOM_STAT PWR_DOM_STAT_ddr 3).setFld SYS_BOOT_STAT SYS_BOOT_STAT_ready 0
  { m.setFld SYS_BOOT_STAT SYS_BOOT_STAT_cause 3 with boot := .verifying, dramReady := true }

/-- OBSERVE goes to the baseline at the entry to STANDBY (R485); the source in the journal entry is a free choice. -/
def Module.standbyLevel (m : Module) : Module :=
  let (src, m) := m.pick 4
  if m.level = 1 then m.setLevel (BitVec.ofNat 2 src).toFin m.baseline else m

/-- The module is in STANDBY (R450, R455, R456, R481, R485). -/
def Module.enterStandby (m : Module) (t : Transition) : Module :=
  let m := m.closeLinks.dropNonce.standbyLevel
  let m := (m.loseCtl.switchTo 1).setFld PWR_STATE PWR_STATE_state 1
  let m := { m with boot := .ready }
  let hot := t.cause = .thermal
  let m := (m.setFld PWR_CAUSE PWR_CAUSE_standby_cause (if hot then 1 else 0)).count PWR_CNT_STANDBY 1
  let m := { m with transition := none, idleSamples := 0, tripped := hot }
  if t.thenWake then m.beginWake else m

/-- The change between IDLE and RUN is done (R451, R453, R459). -/
def Module.arrive (m : Module) (t : Transition) : Module :=
  let old := m.power
  let m := (m.switchTo t.target).setFld PWR_STATE PWR_STATE_state t.target
  let m := { m with transition := none, idleSamples := 0 }
  let m := if t.target = 3 then m.reportRegions else { m with rotDue := [] }
  let m := m.raise 0x0A01 (t.target + 16 * old) 0 0 0
  if t.thenRun && t.target = 2 then m.startMove 3 .auto else m

/-! ### Starting over (R482, R494 to R498) -/

/-- Report the written password slots, the owner key and the identity (R491). -/
def Module.reportKeys (m : Module) : Module :=
  let m := (m.setFld SEC_KEYS SEC_KEYS_identity m.otp.identity.isSome.toNat).setFld SEC_KEYS SEC_KEYS_passwords
    m.otp.passwords.length
  m.setFld SEC_KEYS SEC_KEYS_owner m.otp.ownerWritten.toNat

/-- The back-off after failure n (R482), in ms. -/
def backoffMs (n : Nat) : Nat := 1000 * 2 ^ min (n - 3) 6

/-- Hold the back-off of failure n from the last sample on. -/
def Module.holdBackoff (m : Module) (n : Nat) : Module :=
  if n < 3 then m
  else { m with backoff := true, backoffEnd := m.now + backoffMs n * 1000000 }

/-- Steps 2 to 4 of the boot timeline (R498): the life-cycle state that OTP now names, the baseline level, the owner's items
unless they are locked (R468), the stored back-off restarted in full (R482), whose record may fail its check (R500), the
ports' MAC addresses (R414). -/
def Module.readOtp (m : Module) : Module :=
  let lc := m.otp.lcNext
  let m := { m with otp := { m.otp with lc := lc } }.reportKeys
  let m := ((m.setFld SEC_LC SEC_LC_lc lc).setFld SEC_LC SEC_LC_next lc).setFld SEC_LC SEC_LC_customer_locked
    (decide (lc = 3)).toNat
  let m := (List.range 4).foldl (fun m k => m.wr (SEC_DEVID k) (BitVec.ofNat 32 (fieldAt m.otp.deviceId (4 * k) 4))) m
  let floor := if lc = 0 || lc = 3 then 0 else m.otp.floor
  let m := (m.setFld SEC_PKG_POLICY SEC_PKG_POLICY_floor floor).setFld SEC_PKG_POLICY SEC_PKG_POLICY_policy
    (max floor (m.fld SEC_PKG_POLICY SEC_PKG_POLICY_policy))
  let m := m.setFld SEC_BOOT SEC_BOOT_svn_otp m.otp.fuses
  let m := (m.setFld DBG_LEVEL DBG_LEVEL_level (baselineOf lc)).setFld DBG_LEVEL DBG_LEVEL_baseline (baselineOf lc)
  let (bad, m) := m.pick 2
  let read := if bad = 1 then none else recValue m.flash.backoff
  let stored := read.getD 3
  let m := m.setFld SYS_BOOT_STAT SYS_BOOT_STAT_backoff_default read.isNone.toNat
  let m := (m.setFld DBG_LEVEL DBG_LEVEL_failures (max (m.fld DBG_LEVEL DBG_LEVEL_failures) stored)).holdBackoff stored
  let mac := fun (m : Module) (p a : Nat) =>
    (m.wr (NET_MAC_LO p) (BitVec.ofNat 32 a)).wr (NET_MAC_HI p) (BitVec.ofNat 32 (a / 2 ^ 32 % 2 ^ 16))
  mac (mac m 0 m.otp.macA) 1 m.otp.macB

/-- A reset of every domain except AON (R494): AON registers are kept; as an entry to OFF it clears the journal, returns the
level to the baseline and the mode to ASSURED (R485, R490, R495); the boot starts at step 2. `cause` as SYS_BOOT_STAT has it.
A system reset made through debug clears the storm count (R497). -/
def Module.restart (m : Module) (cause : Nat) (byDebug : Bool) : Module :=
  let m := m.tornStores
  let (k, m) := m.pick (m.flogPending.length + 1)
  let keep := m.regs.filter fun e => decide (e.1 < 0x010000) || (0x700000 ≤ e.1 && e.1 < 0x7E0000)
  let x := { Module.reset with
    regs := keep, otp := m.otp, flash := m.flash.addFaults (m.flogPending.take k), outbox := m.outbox
    now := m.now, draws := m.draws, trace := m.trace, evNext := m.evNext, powerSamples := m.powerSamples
    energyPj := m.energyPj, holdupHigh := m.holdupHigh, backoff := m.backoff, backoffEnd := m.backoffEnd, tap := m.tap
    doubleRecord := m.doubleRecord, cpFaults := m.cpFaults }
  let x := ((x.wr PWR_STATE 0x22).wr PWR_DOM_STAT (regReset PWR_DOM_STAT)).wr PWR_DOM_RET 0
  let x := ((x.wr PWR_MODE 0).wr SYS_ADM_STAT 0).setFld SYS_ADM_POWER SYS_ADM_POWER_planned_dw 0
  let x := ((x.setFld SYS_BOOT_STAT SYS_BOOT_STAT_ready 0).setFld SYS_BOOT_STAT SYS_BOOT_STAT_cause cause).setFld
    SYS_BOOT_STAT SYS_BOOT_STAT_halted 0
  let x := if byDebug then x.setFld SYS_BOOT_STAT SYS_BOOT_STAT_storm 0 else x
  ((x.setFld DBG_LEVEL DBG_LEVEL_nonce 0).setFld DBG_LEVEL DBG_LEVEL_filling 0).readOtp

/-- POWER_TRANSITION_DONE: to IDLE or RUN, or to STANDBY or OFF once the streams are released and running work has ended
(R454, R455), or on the way of a system reset to its restart (R496). A wake ends with WAKE_READY. -/
def powerTransitionDone (m : Module) : Module :=
  match m.transition with
  | none => m
  | some t =>
    if 2 ≤ t.target then if m.power ≤ 1 || m.boot ≠ .ready then m else m.arrive t
    else if t.target = 1 && m.power ≠ 1 && m.boot ≠ .ready then m
    else if !m.streams.isEmpty || !m.enginesIdle || !m.dma.all (fun e => e.2.phase = .idle || e.2.phase = .halted) ||
        (!t.drained && !m.fills.isEmpty) then m
    else
      let m := m.announce
      if t.target = 1 then m.enterStandby t
      else match t.cause with
        | .reset d => m.closeLinks.restart 1 d
        | .enOff => m.closeLinks.goOff 1 false
        | _ => m.closeLinks.goOff 2 true

/-- Ports that are still ACTIVE leave it: the frame in progress is cut (R455 step 2). -/
def Module.cutStreams (m : Module) : Module :=
  m.streams.foldl (fun (m : Module) e =>
    if m.portState e.1 = 4 then
      let p := m.port e.1
      let m := m.setPort e.1 { p with frame := p.frame.map fun f => { f with dropped := true } }
      ((m.setCtx e.1 { m.ctx e.1 with frames := [] }).setPortState e.1 2).wr (CAP_FRAME_PERIOD e.1) 0
    else m) m

/-- STANDBY_DRAIN_TIMEOUT: 50 ms have passed (R455 steps 2 and 4): ports that are still ACTIVE leave it, also in the fill of
R484; after that job tasks that still run are stopped and DMA channels aborted. -/
def standbyDrainTimeout (m : Module) : Module :=
  match m.transition with
  | none => if m.fullFill.isSome then m.cutStreams else m
  | some t =>
    if 2 ≤ t.target then if m.fullFill.isSome then m.cutStreams else m
    else if !m.streams.isEmpty then m.cutStreams
    else
      let m := { m with transition := some { t with drained := true } }
      (m.jobs.foldl (fun (m : Module) j => m.stopJob j.id stNotReady) m).abortAllDma

/-- RELEASE_COMPLETE: the last task, output and delivery has completed (R352); with the last stream an entry to STANDBY or
OFF, or a fill of R484, goes on. -/
def releaseComplete (c : PortId) (m : Module) : Module := m.firmware fun m =>
  match m.streams.find? c.val with
  | none => m
  | some s =>
    if s.phase = .releasing && m.streamDrained c s then (m.endRelease c s).announce.fillWork else m

/-! ### WAKE (R411, R457, R459) -/

/-- The wake bit of a port (R464). -/
def Module.wakeOn (m : Module) (port : Nat) : Bool := m.bit PWR_CFG (if port = 0 then PWR_CFG_wake_a else PWR_CFG_wake_b)

/-- After a thermal trip no wake starts above 80 °C (R454, R457). -/
def Module.tooHot (m : Module) : Bool := m.tripped && 80 * 16 < m.coldPlate

/-- WAKE by power state (R378, R411, R457, R459): OK in IDLE and RUN, NOT_READY before READY; in STANDBY it starts a wake, on a
port with its wake bit set; during the entry to STANDBY the wake follows the entry. It has no payload. -/
def wake (h : Hdr) (payload : List Byte) (m : Module) : Module :=
  let m := m.popRx h.port
  if !m.addressed h true then m
  else if (m.ready || m.power = 1) && !payload.isEmpty then m.answer h 0x08 stBadMessage 0 []
  else if m.power = 1 && m.moving && !m.leaving && !m.wakeOn h.port.val then m.answerNotReady h 0x08 stRefused 0
  else match m.transition with
    | some t =>
      if t.target = 1 then
        if !m.wakeOn h.port.val then m.answerNotReady h 0x08 stRefused 0
        else if t.cause = .thermal && 80 * 16 < m.coldPlate then m.answerNotReady h 0x08 stNotReady 1000
        else { m with transition := some { t with thenWake := true } }.answerNotReady h 0x08 stNotReady 200
      else if m.ready then m.answer h 0x08 stOk 0 []
      else m.notReadyAnswer h 0x08 true
    | none =>
      if m.ready then m.answer h 0x08 stOk 0 []
      else if m.power = 1 then
        if !m.wakeOn h.port.val then m.answerNotReady h 0x08 stRefused 0
        else if m.tooHot then m.answerNotReady h 0x08 stNotReady 1000
        else (m.answerNotReady h 0x08 stNotReady 200).beginWake
      else m.notReadyAnswer h 0x08 true

/-- The SC blows rollback fuses until their number is the smallest svn of the running slot; there are 64 (R468, R470). -/
def Module.blowFuses (m : Module) : Module :=
  let n := max m.otp.fuses (min 64 (m.fld SEC_BOOT SEC_BOOT_svn_image))
  { m.setFld SEC_BOOT SEC_BOOT_svn_otp n with otp := { m.otp with fuses := n } }

/-- WAKE_READY: the saved state is back, a new epoch is chosen, and READY is reached in IDLE, unless the wake has been stopped
(R456, R457, R459). -/
def wakeReady (m : Module) : Module :=
  if m.power ≠ 1 || m.boot ≠ .init || m.leaving || m.cpHalted then m
  else
    let (e, m) := m.draw
    let m := ((m.switchTo 2).setFld PWR_STATE PWR_STATE_state 2).blowFuses
    { m.setFld SYS_BOOT_STAT SYS_BOOT_STAT_ready 1 with
      epoch := BitVec.ofNat 32 (1 + e % 0xFFFFFFFF), boot := .ready, transition := none, tripped := false }

/-! ### The supply (R443 to R449) -/

/-- The supply condition (R464): 0 NORMAL, 1 LOW, 2 HIGH, 3 HOLDUP. -/
def Module.supply (m : Module) : Nat := m.fld PWR_SUPPLY_STAT PWR_SUPPLY_STAT_supply
def Module.setSupply (m : Module) (v : Nat) : Module := m.setFld PWR_SUPPLY_STAT PWR_SUPPLY_STAT_supply v

/-- Enter LOW, HIGH or HOLDUP: SUPPLY_WARNING with VIN in mV, a fault of class SUPPLY (R444, R509). -/
def Module.supplyEnter (m : Module) (v mv : Nat) : Module := (m.setSupply v).fault 14 0x0A02 0 mv 0 0

def supplyLowEnter (mv : Nat) (m : Module) : Module :=
  if (m.supply = 0 || m.supply = 2) && 8000 ≤ mv && mv < 9000 then m.supplyEnter 1 mv else m
def supplyHighEnter (mv : Nat) (m : Module) : Module :=
  if m.supply ≤ 1 && 60000 < mv && mv ≤ 70000 then m.supplyEnter 2 mv else m
def supplyNormal (mv : Nat) (m : Module) : Module :=
  if (m.supply = 1 || m.supply = 2) && 9000 ≤ mv && mv ≤ 60000 then m.setSupply 0 else m

/-- HIGH_VOLTAGE_TIMEOUT: VIN above 60 V for more than 1 s. -/
def highVoltageTimeout (mv : Nat) (m : Module) : Module :=
  if m.supply = 2 && 60000 < mv then { m with holdupHigh := true }.supplyEnter 3 mv else m

/-- HOLDUP_ENTER: VIN below 8.0 V or above 70 V. -/
def holdupEnter (mv : Nat) (m : Module) : Module :=
  if m.supply ≠ 3 && (mv < 8000 || 70000 < mv) then { m with holdupHigh := decide (60000 < mv) }.supplyEnter 3 mv else m

/-- HOLDUP_RECONNECT: the episode ends in reconnection (R444, R447). -/
def holdupReconnect (mv : Nat) (m : Module) : Module :=
  if m.supply = 3 && 8000 ≤ mv && mv ≤ 60000 then
    let m := { m with holdupHigh := false }.count PWR_CNT_HOLDUP 1
    if mv < 9000 then m.supplyEnter 1 mv else m.setSupply 0
  else m

/-- BROWN_OUT: every domain is held in reset and conversion is off (R448); a fault of class SUPPLY. -/
def brownOut (m : Module) : Module :=
  let m := m.silentFault 14
  m.goOff (if m.supply = 3 && m.holdupHigh then 4 else 3) false

/-- SUPPLY_LOST: VIN below 4 V; in OFF the input stage keeps nothing (R454, R464). -/
def supplyLost (m : Module) : Module :=
  if m.boot = .off then { m with offHeld := false }.setFld PWR_CAUSE PWR_CAUSE_off_cause 0 else m

/-- EN_OFF: the orderly way to OFF from any state; a transition in progress stops (R449, R455, R459), and a requested OFF or a
system reset on its way ends in OFF, with EN_OFF as its cause. In OFF it ends the hold of an OFF request (R454). -/
def enOff (m : Module) : Module :=
  if m.boot = .off then { m with offHeld := false }
  else
    let m := m.setFld PWR_SUPPLY_STAT PWR_SUPPLY_STAT_en 0
    if m.goingOff then
      { m with transition := m.transition.map fun t => { t with cause := .enOff, thenRun := false, thenWake := false } }
    else m.leave 0 .enOff

/-! ### Automatic moves, measurement, temperature (R458 to R463) -/

/-- AUTO_IDLE_SAMPLE: every 1 ms the condition of RUN to IDLE is sampled (R458). -/
def autoIdleSample (m : Module) : Module :=
  let ms := m.fld PWR_CFG PWR_CFG_auto_idle_ms
  if m.power ≠ 3 || m.moving then m
  else if ms = 0 || !m.quiet || m.fullFill.isSome then { m with idleSamples := 0 }
  else if ms < m.idleSamples + 1 then { m with idleSamples := 0 }.startMove 2 .auto
  else { m with idleSamples := m.idleSamples + 1 }

/-- POWER_SAMPLE: one sample of 10 kHz: means over 100 ms and 1 s, energy (mV × mA × 100 µs, in units of 100 pJ), and the
dispatch of jobs under the cap (R460, R373). -/
def powerSample (mv ma : Nat) (rails : Word) (m : Module) : Module :=
  let m := { m with
    powerSamples := ((mv, ma) :: m.powerSamples).take 10000, energyPj := m.energyPj + mv * ma * 100 }
  let l := m.powerSamples.take 1000
  let dw := fun (l : List (Nat × Nat)) => min (mean (l.map fun s => s.1 * s.2) / 100000) 65535
  let p := dw l
  let m := (m.setFld PWR_IN PWR_IN_iin_ma (min (mean (l.map (·.2))) 65535)).setFld PWR_IN PWR_IN_vin_10mv
    (min (mean (l.map (·.1)) / 10) 65535)
  let m := (m.setFld PWR_IN_P PWR_IN_P_p_100ms_dw p).setFld PWR_IN_P PWR_IN_P_p_1s_dw (dw m.powerSamples)
  let m := m.wr PWR_RAIL_P rails
  { m with jobsGated := if m.jobsGated then decide (m.cap ≤ p + 50) else decide (m.cap < p) }

/-- Integers in rising order. -/
def insertInt (l : List Int) (v : Int) : List Int :=
  match l with
  | [] => [v]
  | x :: t => if v ≤ x then v :: x :: t else x :: insertInt t v
def sortInt (l : List Int) : List Int := l.foldl insertInt []

/-- The median: of an even number of values the round_mean of the two in the middle (DESIGN CHOICE, assumption log 78). -/
def medianInt (l : List Int) : Int :=
  let s := sortInt l
  let n := s.length
  let hi := (s[n / 2]?).getD 0
  if n % 2 = 1 then hi else roundMean ((s[n / 2 - 1]?).getD 0 + hi) 2

/-- The 8 thermal monitors with their factory trims, in 1/16 °C (R159): what they read is measured, free values of 16 bits. -/
def Module.thermRead (m : Module) : List Int × Module :=
  ((List.range 8).map fun i => signedOf 16 (Config.value (m.draws + i)).toNat + (m.otp.thermTrim[i]?).getD 0,
    { m with draws := m.draws + 8 })

/-- The 8 voltage monitors with their factory trims, and the in-package reference, in mV (R159): measured, free values. -/
def Module.voltRead (m : Module) : List Int × Int × Module :=
  ((List.range 8).map fun i => (((Config.value (m.draws + i)).toNat % 65536 : Nat) : Int) + (m.otp.voltTrim[i]?).getD 0,
    (((Config.value (m.draws + 8)).toNat % 65536 : Nat) : Int), { m with draws := m.draws + 9 })

/-- The median and the hottest of the thermal monitors that have not failed (R159, R461). -/
def Module.dieReport (m : Module) (t : List Int) : Module :=
  let ok := m.fld CAL_MON_STAT CAL_MON_STAT_therm_ok
  match (List.range 8).filterMap fun i => if ok.testBit i then t[i]? else none with
  | [] => m
  | x :: r =>
    (m.setFld CAL_MON_STAT CAL_MON_STAT_die_temp (twos 16 (medianInt (x :: r)))).setFld PWR_TEMP PWR_TEMP_die_max
      (twos 16 (r.foldl max x))

/-- The die temperature is sampled (R159, R461). -/
def Module.dieSample (m : Module) : Module :=
  let (t, m) := m.thermRead
  m.dieReport t

/-- COLD_PLATE_SAMPLE: the higher valid reading, in 1/16 °C; a warning for 85 °C and each further whole degree it rises
through; PLAN_AT_RISK (R461, R462, R372). -/
def coldPlateSample (bp0 bp1 : Int) (m : Module) : Module :=
  let m := m.dieSample
  let ok0 := m.bit PWR_TEMP_STAT PWR_TEMP_STAT_bp0_ok
  let ok1 := m.bit PWR_TEMP_STAT PWR_TEMP_STAT_bp1_ok
  if !ok0 && !ok1 then m
  else
    let t := if !ok1 then bp0 else if !ok0 then bp1 else max bp0 bp1
    let old := m.coldPlate
    let m := (m.setFld PWR_TEMP PWR_TEMP_cold_plate (twos 16 t)).setFld PWR_TEMP_STAT PWR_TEMP_STAT_over_85
      (decide (85 * 16 < t)).toNat
    let m := ((List.range 64).filter fun i => old < (85 + i : Nat) * 16 && ((85 + i : Nat) : Int) * 16 ≤ t).foldl
      (fun m _ => m.fault 13 0x0A03 0 (twos 32 t) 0 0) m
    m.checkRisk

/-- TEMP_SENSOR_CHECK: a base-plate sensor that reads open or shorted (none), or more than 3 °C away from the other, is left
out; with both out the thermal cap is held at its 85 °C value (R461). A sensor is reported when it fails for the first
time after a check that it passed. -/
def tempSensorCheck (bp0 bp1 : Option Int) (m : Module) : Module :=
  let far := match bp0, bp1 with
    | some a, some b => decide (48 < (a - b).natAbs)
    | _, _ => false
  let ok0 := bp0.isSome && !far
  let ok1 := bp1.isSome && !far
  let was := fun (m : Module) b => m.bit PWR_TEMP_STAT b
  let fresh := !was m PWR_TEMP_STAT_bp0_ok && !was m PWR_TEMP_STAT_bp1_ok && !was m PWR_TEMP_STAT_cap_held
  let report := fun (m : Module) (k : Nat) (now : Bool) (b : Bits) (r other : Option Int) =>
    let m' := m.setFld PWR_TEMP_STAT b now.toNat
    if now || !(fresh || was m b) then m'
    else
      let (v, m') := m'.open_
      m'.fault 15 0x0403 k ((r.map (twos 32)).getD v.toNat) ((other.map (twos 32)).getD v.toNat) 0
  let m := report m 0 ok0 PWR_TEMP_STAT_bp0_ok bp0 bp1
  let m := report m 1 ok1 PWR_TEMP_STAT_bp1_ok bp1 bp0
  let held := !ok0 && !ok1
  if held = was m PWR_TEMP_STAT_cap_held then m
  else (m.setFld PWR_TEMP_STAT PWR_TEMP_STAT_cap_held held.toNat).updateCap

/-- THERMAL_TRIP is counted, and the module enters STANDBY (R455, R459, R463): an entry in progress becomes that of the trip, a
wake or another move is given up, a boot first reaches READY. An entry to OFF goes on, and in boot failure nothing else happens
(assumption log 85). -/
def thermalTrip (m : Module) : Module :=
  let m := m.count PWR_CNT_TRIP 1
  if m.boot = .failure then m.silentFault 13
  else match m.transition with
    | none => if m.power = 1 then
        { m.setFld PWR_CAUSE PWR_CAUSE_standby_cause 1 with tripped := true }.silentFault 13
      else m.leave 1 .thermal
    | some t =>
      if t.target = 0 then m.silentFault 13
      else if t.target = 1 then
        let m := { m with transition := some { t with cause := .thermal } }
        if t.announced then m.silentFault 13 else m
      else m.leave 1 .thermal

/-- HARD_THERMAL_TRIP: OFF at once, as for a brown-out (R463). -/
def hardThermalTrip (m : Module) : Module := (m.silentFault 13).goOff 5 false

/-! ### The commands -/

def execReleaseComplete (c : PortId) (s : State) := ok s (releaseComplete c s.toModule)
def execWake (x : WakeMsg) (s : State) := ok s (wake x.hdr x.payload s.toModule)
def execStandbyDrainTimeout (s : State) := ok s (standbyDrainTimeout s.toModule)
def execPowerTransitionDone (s : State) := ok s (powerTransitionDone s.toModule)
def execWakeReady (s : State) := ok s (wakeReady s.toModule)

/-- A supply command: beyond the absolute rating of VIN nothing is stated (R520). -/
def supplyRow (mv : Nat) (f : Module → Module) (s : State) : Host.Outcome State Fault Refusal :=
  if 100000 < mv then .fault .beyondRatings else ok s (f s.toModule)

def execSupplyLowEnter (vinMv : Nat) (s : State) := supplyRow vinMv (supplyLowEnter vinMv) s
def execSupplyHighEnter (vinMv : Nat) (s : State) := supplyRow vinMv (supplyHighEnter vinMv) s
def execHighVoltageTimeout (vinMv : Nat) (s : State) := supplyRow vinMv (highVoltageTimeout vinMv) s
def execHoldupEnter (vinMv : Nat) (s : State) := supplyRow vinMv (holdupEnter vinMv) s
def execHoldupReconnect (vinMv : Nat) (s : State) := supplyRow vinMv (holdupReconnect vinMv) s
def execSupplyNormal (vinMv : Nat) (s : State) := supplyRow vinMv (supplyNormal vinMv) s
def execBrownOut (s : State) := ok s (brownOut s.toModule)
def execSupplyLost (s : State) := okInput s (supplyLost s.toModule)
def execEnOff (s : State) := okInput s (enOff s.toModule)
def execAutoIdleSample (s : State) := ok s (autoIdleSample s.toModule)
def execPowerSample (vinMv iinMa : Nat) (rails : Word) (s : State) := ok s (powerSample vinMv iinMa rails s.toModule)
def execColdPlateSample (bp0 bp1 : Int) (s : State) := ok s (coldPlateSample bp0 bp1 s.toModule)
def execTempSensorCheck (bp0 bp1 : Option Int) (s : State) := ok s (tempSensorCheck bp0 bp1 s.toModule)
def execThermalTrip (s : State) := ok s (thermalTrip s.toModule)
def execHardThermalTrip (s : State) := ok s (hardThermalTrip s.toModule)

end Sys2Proof.Machine
end

