-- ==== Sys2Proof/Machine/Security.lean ====
section
/-!
DEFINITION. The security core: debug operations, opening a level, the fill before FULL, life cycle, identity
(16_security_debug R465 to R487). Register operations through debug stand with the register bus.
-/
namespace Sys2Proof.Machine

/-! ### Who is heard, and what the level and the power state permit (R476, R477, R486) -/

/-- A debug path is heard: JTAG and UART always, a port while DEBUG messages are accepted; in STANDBY on a port with link and
wake enabled (R477, R486, R492). -/
def Module.pathHeard (m : Module) (p : Nat) : Bool :=
  2 ≤ p || ((m.bit DBG_CFG DBG_CFG_net_en || m.otp.lc = 0) &&
    (m.power ≠ 1 || (m.wakeOn p && m.bit (NET_PORT_STAT p) NET_PORT_STAT_link)))

/-- The instruction that the TAP decodes: EXTEST is BYPASS while a stream is admitted (R479). -/
def Module.tapNow (m : Module) : TapInstr :=
  match m.tap with
  | .extest pins => if m.streams.isEmpty then .extest pins else .bypass
  | t => t

/-- A request is heard: on a port in an accepted form (R441), addressed to the module and with session field 0 (R378, R439,
R477); through the TAP while it selects DBGMSG (R476). -/
def Module.debugHeard (m : Module) (d : DbgHdr) : Bool :=
  m.pathHeard d.path.val &&
    if d.path.val < 2 then
      m.formOn d.peer.udp && m.macFor d.path.val d.dmac false && d.dst = m.node && d.dst ≠ 0xFFFF && d.session = 0
    else d.path.val = 3 || m.tapNow = .dbgmsg

/-- Before READY a debug operation is answered with NOT_READY, on a port at most once per source node every 10 ms (R409). -/
def Module.debugNotReady (m : Module) (d : DbgHdr) (op : Nat) : Module :=
  let (e, m) := m.estimate
  if 2 ≤ d.path.val then m.debugAnswer d op stNotReady e []
  else match m.limited m.notReadyAt d.node with
    | (true, m) => { m with notReadyAt := m.notReadyAt.insert d.node.toNat m.now }.debugAnswer d op stNotReady e []
    | (false, m) => m

/-- A debug operation: heard; before READY NOT_READY (R409), also for what the boot failure state does not serve (R471); then
the level (R476), then what STANDBY serves (R486). -/
def Module.debugOp (m : Module) (d : DbgHdr) (op need : Nat) (standby failure : Bool) (k : Module → Module) : Module :=
  if !m.debugHeard d then m
  else if m.power ≠ 1 && m.boot ≠ .ready && m.boot ≠ .failure then m.debugNotReady d op
  else if m.boot = .failure && !failure then m.debugAnswer d op stNotReady 1000 []
  else if m.level < need then m.debugAnswer d op stAuthFailed 0 []
  else if m.power = 1 && !standby then m.debugAnswer d op stNotReady 0 []
  else k m

/-- The device ID (R468). -/
def Module.deviceId (m : Module) : List Byte := m.otp.deviceId

/-- Back-off left at the last sample, in ms (R482). -/
def Module.backoffLeft (m : Module) : Nat :=
  if m.backoff then max 1 ((m.backoffEnd - m.now + 999999) / 1000000) else 0

/-! ### STATUS, PASSWORD, CHALLENGE, RESPONSE, LOCK (R478, R480 to R484) -/

/-- STATUS (R478). -/
def status (d : DbgHdr) (m : Module) : Module :=
  m.debugOp d 0 0 true true fun m =>
    let m := m.tick
    m.debugAnswer d 0 stOk 0 (leBytes 1 m.otp.lc ++ leBytes 1 m.level ++ leBytes 1 m.baseline
      ++ leBytes 1 (m.fld DBG_LEVEL DBG_LEVEL_failures) ++ leBytes 4 m.backoffLeft ++ m.deviceId ++ leBytes 4 m.epoch.toNat)

/-- Store the back-off count (R482, R500). -/
def Module.storeBackoff (m : Module) (n : Nat) : Module :=
  m.storeFlash fun f => { f with backoff := recStore f.backoff n }

/-- A failed PASSWORD or RESPONSE (R482): counted, AUTH_FAILURE raised, the back-off held and the count stored from the third
on; it completes with AUTH_FAILED. -/
def Module.authFail (m : Module) (d : DbgHdr) (op : Nat) : Module :=
  let n := min (m.fld DBG_LEVEL DBG_LEVEL_failures + 1) 255
  let m := (m.setFld DBG_LEVEL DBG_LEVEL_failures n).count DBG_CNT_FAIL 1
  let m := m.tick.holdBackoff n
  let m := if n < 3 then m else m.storeBackoff n
  (m.raise 0x0B03 n (if n < 3 then 0 else backoffMs n) 0 0).debugAnswer d op stAuthFailed 0 []

/-- A success clears the count (R482). -/
def Module.authPass (m : Module) : Module :=
  let m := if recValue m.flash.backoff = some 0 then m else m.storeBackoff 0
  m.setFld DBG_LEVEL DBG_LEVEL_failures 0

/-- Open a level (R483, R492). -/
def Module.openLevel (m : Module) (d : DbgHdr) (op v : Nat) : Module :=
  let m := ((m.setLevel d.path v).count DBG_CNT_OPEN 1)
  m.debugAnswer d op stOk 0 (leBytes 1 m.level)

/-- PASSWORD and RESPONSE complete with BUSY during a fill or a back-off (R482, R484). -/
def Module.authBusy (m : Module) (d : DbgHdr) (op : Nat) (k : Module → Module) : Module :=
  if m.fullFill.isSome then m.debugAnswer d op stBusy 0 []
  else if m.backoff then
    let m := m.tick
    m.debugAnswer d op stBusy m.backoffLeft []
  else k m

/-- PASSWORD opens OBSERVE in FIELD at LOCKED (R480). -/
def password (d : DbgHdr) (pw : List Byte) (m : Module) : Module :=
  m.debugOp d 1 0 true true fun m => m.authBusy d 1 fun m =>
    if m.otp.lc ≠ 2 || m.level ≠ 0 || pw.length < 8 || 64 < pw.length then m.debugAnswer d 1 stRefused 0 []
    else
      match m.otp.passwords.getLast? with
      | none => m.authFail d 1
      | some (salt, hash) =>
        if Config.sha384 (salt ++ pw) = hash then m.authPass.openLevel d 1 1 else m.authFail d 1

/-- CHALLENGE returns a fresh nonce, which replaces any earlier one (R481); level 3 and above is reserved (R378, R476). -/
def challenge (d : DbgHdr) (level : Byte) (m : Module) : Module :=
  m.debugOp d 2 0 true true fun m => if 3 ≤ level.toNat then m.debugAnswer d 2 stRefused 0 [] else
    let (r, m) := m.draw
    let n := leBytes 32 r
    ({ m with nonce := some (level.toNat, n) }.setFld DBG_LEVEL DBG_LEVEL_nonce 1).debugAnswer d 2 stOk 0 (m.deviceId ++ n)

/-- A key that may open a level (R465): in OPEN and FIELD the owner's, in OPEN and RETURNED the vendor's. -/
def Module.keyAllowed (m : Module) (level : Nat) (key : List Byte) : Bool :=
  let h := Config.sha384 key
  let owner := m.otp.ownerWritten && h = m.otp.ownerHash
  let vendor := decide (h = m.otp.vendorHash)
  if m.otp.lc = 1 then level = 2 && (owner || vendor)
  else if m.otp.lc = 2 then (level = 1 || level = 2) && owner
  else if m.otp.lc = 3 then (level = 1 || level = 2) && vendor
  else false

/-- "KLN-DBG1" in ASCII. -/
def dbgTag : List Byte := [0x4B, 0x4C, 0x4E, 0x2D, 0x44, 0x42, 0x47, 0x31]

/-- A RESPONSE passes (R481). -/
def Module.responsePasses (m : Module) (level : Nat) (key signature : List Byte) : Bool :=
  match m.nonce with
  | none => false
  | some (l, n) =>
    l = level && m.keyAllowed level key &&
      Config.ecdsaVerify key
        (Config.sha384 (dbgTag ++ m.deviceId ++ n ++ leBytes 1 level ++ leBytes 1 m.otp.lc)) signature

/-- The fill before FULL begins (R484 steps 1 to 5): the module enters RUN, rings are held, streams are released. -/
def Module.startFill (m : Module) (d : DbgHdr) : Module :=
  let m := { m with fullFill := some d }.setFld DBG_LEVEL DBG_LEVEL_filling 1
  let m := if m.power = 2 && !m.moving then m.startMove 3 .request else
    match m.transition with
    | some t => if t.target = 2 then { m with transition := some { t with thenRun := true } } else m
    | none => m
  let m := (m.streams : List (Nat × Stream)).foldl (fun m e =>
    if e.2.phase = .releasing then m else m.beginRelease e.1 e.2 none) m
  m.fillWork

/-- RESPONSE opens the level wanted, begins the fill before FULL, or in boot failure restarts the module (R471, R481,
R484). -/
def response (d : DbgHdr) (level : Byte) (key signature : List Byte) (m : Module) : Module :=
  m.debugOp d 3 0 true true fun m => if 3 ≤ level.toNat then m.debugAnswer d 3 stRefused 0 [] else m.authBusy d 3 fun m =>
    let v := level.toNat
    let pass := m.responsePasses v key signature
    let m := m.dropNonce
    if v < m.level then m.debugAnswer d 3 stOk 0 (leBytes 1 m.level)
    else if !pass then m.authFail d 3
    else
      let m := m.authPass
      if v = 2 && m.boot = .failure then (m.debugAnswer d 3 stOk 0 (leBytes 1 m.level)).closeLinks.restart 1 true
      else if v = 2 && m.level < 2 && 2 ≤ m.otp.lc then
        if m.power ≤ 1 || m.leaving then m.debugAnswer d 3 stNotReady 0 [] else m.startFill d
      else m.openLevel d 3 v

/-- LOCK returns to the baseline (R483). -/
def lock (d : DbgHdr) (m : Module) : Module :=
  m.debugOp d 4 0 true true fun m =>
    let m := m.setLevel d.path m.baseline
    m.debugAnswer d 4 stOk 0 (leBytes 1 m.level)

/-- NONCE_EXPIRY: 30 s after its CHALLENGE (R481). -/
def nonceExpiry (m : Module) : Module := if m.nonce.isSome then m.dropNonce else m

/-- BACKOFF_EXPIRY (R482). -/
def backoffExpiry (m : Module) : Module := { m with backoff := false }

/-- ZERO_FILL_DONE: every region is released with zero fill, and all of SPM is zero: FULL opens, the RESPONSE completes, rings
are served (R484 steps 6 and 7). -/
def zeroFillDone (m : Module) : Module := m.firmware fun m =>
  match m.fullFill with
  | none => m
  | some d =>
    if m.power ≠ 3 || m.moving || !m.streams.isEmpty || !m.jobs.isEmpty || !m.enginesIdle ||
        !m.dma.all (fun e => e.2.phase = .idle) || !m.regions.isEmpty then m
    else
      let m := { m.zero 0 spmSize with fullFill := none }.setFld DBG_LEVEL DBG_LEVEL_filling 0
      (m.raise 0x0B02 0 0 0 0).openLevel d 3 2

/-! ### Memory, objects, halts, the trace (R478, R479) -/

/-- Why a debug access to memory fails (R23, R285, R434, R478, R486): its status. -/
def Module.memStatus (m : Module) (a n : Nat) : Option Nat :=
  match m.spaceOf a, m.spaceOf (a + n - 1) with
  | .window w o, .window w' _ => if w ≠ w' || m.coreBad w.val o n then some stBusError else none
  | .spm, .spm => if m.spmOff a n then some stNotReady else none
  | .dram, .dram => if m.dramOn then none else some stNotReady
  | _, _ => some stBusError

/-- The answer of a remote node to a read of `n` bytes through a window: its status and data (R385, R432). -/
def remoteRead (n : Nat) (rec : Remote) : Nat × List Byte :=
  match rec with
  | .data b => if b.length = n then (stOk, b) else (stBusError, [])
  | .status c => (if c.toNat = stWindowClosed then stWindowClosed else stBusError, [])
  | .unanswered => (stBusError, [])

/-- MEM_READ: of a window, what the read brings back. A bad word gives BUS_ERROR (R294, R321); a stack that is being zero
filled lets the access wait (R296, R527). -/
def memRead (d : DbgHdr) (addr : W64) (len : Word) (rec : Remote) (m : Module) : Module :=
  m.debugOp d 7 2 false false fun m =>
    let a := addr.toNat
    let n := len.toNat
    if n = 0 || 1024 < n then m.debugAnswer d 7 stRefused 0 []
    else match m.memStatus a n with
      | some st => m.debugAnswer d 7 st 0 []
      | none => if m.spmBusy a n then m else match m.spaceOf a with
        | .window w o =>
          let (st, b) := remoteRead n rec
          (m.askWindow w o n (rec ≠ .unanswered)).debugAnswer d 7 st 0 b
        | _ =>
          let (bad, m) := m.readMeets 1 a n
          if bad then m.debugAnswer d 7 stBusError 0 [] else m.debugAnswer d 7 stOk 0 (m.bytes a n)

/-- MEM_WRITE: of a window, answered when the write is (R432); it is no narrow write (R290). Over part of a bad word or sector
it changes nothing and completes with BUS_ERROR (R294, R321, R478). One that overlaps a write not acknowledged waits (R432). -/
def memWrite (d : DbgHdr) (addr : W64) (data : List Byte) (m : Module) : Module :=
  m.debugOp d 8 2 false false fun m =>
    let a := addr.toNat
    let n := data.length
    if n = 0 || 1024 < n then m.debugAnswer d 8 stRefused 0 []
    else match m.memStatus a n with
      | some st => m.debugAnswer d 8 st 0 []
      | none => if m.spmBusy a n then m else match m.spaceOf a with
        | .window w o => if m.winOverlap w o n then m else m.winWriteTo w o data false (.debug d)
        | _ =>
          let m := (m.flushSpan a n).meetPartly 1 a n
          if (m.badPartly a n).isEmpty then (m.write a data).debugAnswer d 8 stOk 0 []
          else (m.reportPartly a n).debugAnswer d 8 stBusError 0 []

/-- SYNC_RESET follows the rules of any other writer (R308, R478). -/
def syncReset (d : DbgHdr) (obj : W16) (value : Word) (m : Module) : Module :=
  m.debugOp d 9 2 false false fun m =>
    if 8192 ≤ obj.toNat then m.debugAnswer d 9 stRefused 0 []
    else if m.owned obj.toNat then (m.count SYN_CNT_REFUSED 1).debugAnswer d 9 stRefused 0 []
    else (m.setSync obj.toNat value).debugAnswer d 9 stOk 0 []

/-- The engine position that a target of HALT and RESUME names (R478). -/
def haltPos (target : W16) : Option EngPos :=
  let t := target.toNat
  if 0x100 ≤ t then
    if h : (t - 0x100) / 32 < 8 ∧ (t - 0x100) % 32 < 17 then some ⟨⟨_, h.1⟩, ⟨_, h.2⟩⟩ else none
  else none

/-- HALT of both control pairs, or of an engine position that no plan uses (R479). -/
def halt (d : DbgHdr) (target : W16) (m : Module) : Module :=
  m.debugOp d 10 2 true false fun m =>
    if target = 0 then { m with cpHalted := true }.debugAnswer d 10 stOk 0 []
    else match haltPos target with
      | none => m.debugAnswer d 10 stRefused 0 []
      | some e =>
        if 3 ≤ m.engState e || m.streams.isEmpty then
          { m with engHalted := m.engHalted.filter (· ≠ posKey e) ++ [posKey e] }.debugAnswer d 10 stOk 0 []
        else m.debugAnswer d 10 stRefused 0 []

/-- RESUME: of the control pairs, events that arose during the halt are delivered (R479). -/
def resume (d : DbgHdr) (target : W16) (m : Module) : Module :=
  m.debugOp d 11 2 true false fun m =>
    if target = 0 then
      let l := m.heldEvents
      (l.foldl Module.deliver { m with cpHalted := false, heldEvents := [] }).debugAnswer d 11 stOk 0 []
    else match haltPos target with
      | none => m.debugAnswer d 11 stRefused 0 []
      | some e => { m with engHalted := m.engHalted.filter (· ≠ posKey e) }.debugAnswer d 11 stOk 0 []

/-- TRACE_READ: entries from the later of `start` and the oldest (R478). -/
def traceRead (d : DbgHdr) (start : Word) (max : Byte) (m : Module) : Module :=
  m.debugOp d 12 1 true true fun m =>
    let n := max.toNat
    if n = 0 || 32 < n then m.debugAnswer d 12 stRefused 0 []
    else
      let oldest := (m.trace.head?.map (·.number)).getD m.evNext
      let skip := (start - oldest).toNat
      let l := if skip < m.trace.length then m.trace.drop skip else if skip < 2 ^ 31 then [] else m.trace
      let l := l.take n
      m.debugAnswer d 12 stOk 0 (leBytes 4 oldest.toNat ++ leBytes 4 m.evNext.toNat ++ leBytes 1 l.length ++ leBytes 3 0
        ++ l.flatMap fun e => eventBytes e 0)

/-- JOURNAL_READ through debug, as R408. -/
def debugJournalRead (d : DbgHdr) (start : Word) (max : Byte) (m : Module) : Module :=
  m.debugOp d 13 1 false true fun m =>
    if max.toNat = 0 || 16 < max.toNat then m.debugAnswer d 13 stRefused 0 []
    else m.debugAnswer d 13 stOk 0 (m.journalAnswer start max.toNat)

/-! ### Identity, attestation, provisioning, life cycle (R466, R467, R472, R473, R480) -/

/-- The report of ATTEST without its signature (R473), with a firmware hash. -/
def Module.attestBody (m : Module) (nonce fwHash : List Byte) : List Byte :=
  let st := m.stamp 0
  let pk := Config.sha384 (m.packages.flatMap fun p => Config.sha384 (m.bytes p.2.addr p.2.size))
  leBytes 2 1 ++ leBytes 1 m.otp.lc ++ leBytes 1 m.level ++ leBytes 4 (m.rd SYS_ID).toNat
    ++ leBytes 4 (m.rd SYS_FW_VER).toNat ++ leBytes 4 (m.rd SYS_LIB_VER).toNat ++ leBytes 4 (m.rd NIS_RES_VER).toNat
    ++ leBytes 4 m.epoch.toNat ++ m.deviceId ++ nonce ++ fwHash ++ pk ++ leBytes 2 m.packages.length
    ++ leBytes 1 (m.fld SEC_PKG_POLICY SEC_PKG_POLICY_policy) ++ leBytes 1 m.otp.fuses ++ leBytes 4 (m.rd JNL_NEXT).toNat
    ++ leBytes 6 st.sec ++ leBytes 1 st.valid.toNat ++ leBytes 1 0 ++ leBytes 4 (if st.valid then st.ns.toNat else 0)
    ++ leBytes 4 0

/-- ATTEST: the report signed with the identity key over SHA-384 of its first 192 bytes (R473). Where no slot runs (R471)
there is no firmware hash: its 48 bytes are free. -/
def attest (d : DbgHdr) (nonce : List Byte) (m : Module) : Module :=
  m.debugOp d 14 0 false true fun m =>
    let (r, m) := m.tick.draw
    let b := m.attestBody nonce (if m.fwHash.isEmpty then leBytes 48 r else m.fwHash)
    m.debugAnswer d 14 stOk 0 (b ++ fit 96 (Config.ecdsaSign (m.otp.identity.getD []) (Config.sha384 (b.take 192))))

/-- IDENTITY: device ID and identity public key (R472); before PROVISION there is no key, and its bytes are free. -/
def identity (d : DbgHdr) (m : Module) : Module :=
  m.debugOp d 15 0 true true fun m =>
    let (r, m) := m.draw
    m.debugAnswer d 15 stOk 0 (m.deviceId ++ m.otp.identity.getD (leBytes 96 r))

/-- PROVISION, in BLANK only, at any level (R467, R476): it burns the owner's items and an identity; the next boot is in OPEN. -/
def provision (d : DbgHdr) (ownerHash salt pwHash : List Byte) (floor : Byte) (m : Module) : Module :=
  m.debugOp d 16 0 false false fun m =>
    if m.otp.lc ≠ 0 || m.otp.lcNext ≠ 0 || 3 ≤ floor.toNat then m.debugAnswer d 16 stRefused 0 []
    else
      let (_, m') := m.draw
      let key := fit 96 (Config.identityKey m.draws)
      let m := { m' with otp := { m'.otp with
        ownerHash := ownerHash, ownerWritten := true, passwords := (m'.otp.passwords ++ [(salt, pwHash)]).take 4
        floor := floor.toNat, identity := some key, lcNext := 1 } }
      (m.reportKeys.setFld SEC_LC SEC_LC_next 1).debugAnswer d 16 stOk 0 key

/-- LIFECYCLE, along the arrows of R465 (R466). -/
def lifecycle (d : DbgHdr) (target : Byte) (m : Module) : Module :=
  m.debugOp d 17 2 false false fun m =>
    let t := target.toNat
    let lc := m.otp.lc
    if !((lc = 1 && (t = 2 || t = 3)) || (lc = 2 && t = 3)) || t ≤ m.otp.lcNext || !m.streams.isEmpty then
      m.debugAnswer d 17 stRefused 0 []
    else
      let m := { m with otp := { m.otp with lcNext := t } }.setFld SEC_LC SEC_LC_next t
      (m.journalEntry 4 d.path 0 0 lc t).debugAnswer d 17 stOk 0 []

/-- SET_PASSWORD writes the next free slot (R480). -/
def setPassword (d : DbgHdr) (salt hash : List Byte) (m : Module) : Module :=
  m.debugOp d 18 2 true false fun m =>
    let n := m.otp.passwords.length
    if 4 ≤ n then m.debugAnswer d 18 stBusy 0 []
    else
      let m := { m with otp := { m.otp with passwords := m.otp.passwords ++ [(salt, hash)] } }.reportKeys
      (m.journalEntry 5 d.path 0 0 (n - 1) n).debugAnswer d 18 stOk 0 (leBytes 1 n)

/-- A reserved op (R478). -/
def debugReservedOp (d : DbgHdr) (op : Byte) (m : Module) : Module :=
  m.debugOp d op.toNat 0 true true fun m => m.debugAnswer d op.toNat stRefused 0 []

/-- The payload of a frame of the UART or of DBGMSG: its mark, length and CRC-32C are right (R477). -/
def uartPayload (f : List Byte) : Option (List Byte) :=
  let n := fieldAt f 2 2
  let p := (f.drop 4).take n
  if f.take 2 = [0x59, 0x57] && f.length = 8 + n && fieldAt f (4 + n) 4 = (crc32c p).toNat then some p else none

/-- A debug payload has the length of its operation's layout (R378, R467, R478). -/
def debugLength (p : List Byte) : Bool :=
  let n := p.length
  match fieldAt p 0 1 with
  | 1 => 5 ≤ n && n = 5 + fieldAt p 4 1
  | 2 | 17 => n = 5
  | 3 => n = 200
  | 5 | 6 => 8 ≤ n && n = 8 + 8 * fieldAt p 4 1
  | 7 => n = 16
  | 8 => 16 ≤ n && n = 16 + fieldAt p 12 4
  | 9 | 13 => n = 12
  | 10 | 11 => n = 6
  | 12 => n = 9
  | 14 => n = 36
  | 16 => n = 117
  | 18 => n = 68
  | _ => 4 ≤ n

/-- A frame with a bad mark, length or CRC is discarded (R477). One that stands, with a payload whose length is not that of its
operation, is answered with BAD_MESSAGE (R378); any other is a command of its own. -/
def debugFrameDiscard (frame : List Byte) (m : Module) : Module :=
  match uartPayload frame with
  | none => m
  | some p =>
    if debugLength p then m
    else
      let op := fieldAt p 0 1
      let d : DbgHdr := ⟨3, .mac 0, 0, 0, 0, 0, 0, 0⟩
      m.debugOp d op 0 true true fun m => m.debugAnswer d op stBadMessage 0 []

/-! ### The TAP (R476, R479, R494) -/

/-- The TAP takes an instruction: IDCODE, BYPASS and DBGMSG at every level, SAMPLE/PRELOAD and EXTEST at FULL (R476); what
EXTEST is decoded as says `tapNow` (R479). -/
def extest (d : DbgHdr) (instruction : TapInstr) (m : Module) : Module :=
  let open_ := match instruction with
    | .sample | .extest _ => false
    | _ => true
  if open_ || 2 ≤ m.level then { m with tap := instruction } else m.debugSend d stAuthFailed 0 []

/-- TAP_RESET reaches the TAP controller only; it then decodes IDCODE (PRESUMED, IEEE 1149.1; assumption log 86). -/
def tapReset (m : Module) : Module := { m with tap := .idcode }

/-! ### The commands -/

def execStatus (d : DbgHdr) (s : State) := ok s (status d s.toModule)
def execPassword (d : DbgHdr) (pw : List Byte) (s : State) := ok s (password d pw s.toModule)
def execChallenge (d : DbgHdr) (level : Byte) (s : State) := ok s (challenge d level s.toModule)
def execResponse (d : DbgHdr) (level : Byte) (key signature : List Byte) (s : State) :=
  ok s (response d level key signature s.toModule)
def execLock (d : DbgHdr) (s : State) := ok s (lock d s.toModule)
def execMemRead (d : DbgHdr) (addr : W64) (len : Word) (rec : Remote) (s : State) := ok s (memRead d addr len rec s.toModule)
def execMemWrite (d : DbgHdr) (addr : W64) (data : List Byte) (s : State) := ok s (memWrite d addr data s.toModule)
def execSyncReset (d : DbgHdr) (obj : W16) (value : Word) (s : State) := ok s (syncReset d obj value s.toModule)
def execHalt (d : DbgHdr) (target : W16) (s : State) := ok s (halt d target s.toModule)
def execResume (d : DbgHdr) (target : W16) (s : State) := ok s (resume d target s.toModule)
def execTraceRead (d : DbgHdr) (start : Word) (max : Byte) (s : State) := ok s (traceRead d start max s.toModule)
def execDebugJournalRead (d : DbgHdr) (start : Word) (max : Byte) (s : State) := ok s (debugJournalRead d start max s.toModule)
def execAttest (d : DbgHdr) (nonce : List Byte) (s : State) := ok s (attest d nonce s.toModule)
def execIdentity (d : DbgHdr) (s : State) := ok s (identity d s.toModule)
def execProvision (d : DbgHdr) (ownerHash salt pwHash : List Byte) (floor : Byte) (s : State) :=
  ok s (provision d ownerHash salt pwHash floor s.toModule)
def execLifecycle (d : DbgHdr) (target : Byte) (s : State) := ok s (lifecycle d target s.toModule)
def execSetPassword (d : DbgHdr) (salt hash : List Byte) (s : State) := ok s (setPassword d salt hash s.toModule)
def execDebugReservedOp (d : DbgHdr) (op : Byte) (s : State) := ok s (debugReservedOp d op s.toModule)
def execDebugFrameDiscard (frame : List Byte) (s : State) := ok s (debugFrameDiscard frame s.toModule)
def execNonceExpiry (s : State) := ok s (nonceExpiry s.toModule)
def execBackoffExpiry (s : State) := ok s (backoffExpiry s.toModule)
def execZeroFillDone (s : State) := ok s (zeroFillDone s.toModule)
def execExtest (d : DbgHdr) (instruction : TapInstr) (s : State) := ok s (extest d instruction s.toModule)
def execTapReset (s : State) := ok s (tapReset s.toModule)

end Sys2Proof.Machine
end

