-- ==== Sys2Proof/Machine/Boot.lean ====
section
/-!
DEFINITION. Boot, control faults and the fault log (17_boot_reset_faults R494 to R512; R317, R470).
-/
namespace Sys2Proof.Machine

/-! ### From OFF to READY (R443, R454, R498) -/

/-- START_CONDITION: VIN has stayed between 9.5 V and 60 V with EN on for 50 ms: power good, and steps 1 to 4 of the boot
(R443, R494). After an OFF request EN or VIN must have gone first (R454). -/
def startCondition (mv : Nat) (m : Module) : Module :=
  if m.boot ≠ .off || m.offHeld || mv < 9500 || 60000 < mv then m
  else
    let cause := m.fld PWR_CAUSE PWR_CAUSE_off_cause
    let x := { Module.reset with
      regs := [], otp := m.otp, flash := m.flash, outbox := m.outbox, now := m.now, draws := m.draws }
    (x.setFld PWR_CAUSE PWR_CAUSE_off_cause cause).readOtp

/-- The data rates that a training covers: 9 600 and 6 400 MT/s (R315, R317). -/
def trainRates : List Nat := [96, 64]

/-- The bytes of a training record that its CRC covers (their order is the model's, assumption log 76). -/
def TrainRec.bytes (r : TrainRec) : List Byte :=
  leBytes 4 r.generation ++ leBytes 2 r.part ++ leBytes 1 r.issue ++ r.rates.flatMap (leBytes 1) ++
    leBytes 2 (twos 16 r.temp)

/-- A copy's CRC, part and issue, and data rates match (R317). -/
def Module.trainGood (m : Module) (r : TrainRec) : Bool :=
  r.crc = crc32c r.bytes && r.part = m.fld SYS_ID SYS_ID_part && r.issue = m.fld SYS_ID SYS_ID_issue &&
    r.rates = trainRates

/-- A copy of the training record, when it is good. -/
def Module.trainCopy (m : Module) (i : Nat) : Option TrainRec := (m.flash.train.find? i).filter m.trainGood

/-- The newer good copy, and the place of the older copy, which a store overwrites (R317). -/
def Module.trainNewest (m : Module) : Option TrainRec := newestCopy m.trainCopy (·.generation)
def Module.trainOlder (m : Module) : Nat := olderCopy m.trainCopy (·.generation)

/-- Store the record of a full training at a die temperature. -/
def Module.storeTraining (m : Module) (dieTemp : Int) : Module :=
  let r : TrainRec := ⟨nextCopyGen m.trainCopy (·.generation), m.fld SYS_ID SYS_ID_part, m.fld SYS_ID SYS_ID_issue,
    trainRates, dieTemp, 0⟩
  { m with flash := { m.flash with train := m.flash.train.insert m.trainOlder { r with crc := crc32c r.bytes } } }

/-- The stored record serves a boot at a die temperature: within 25 °C of its own (R317). -/
def Module.trainServes (m : Module) (dieTemp : Int) : Bool :=
  match m.trainNewest with
  | some r => decide ((dieTemp - r.temp).natAbs ≤ 25 * 16)
  | none => false

/-- DRAM_TRAINING_DONE (R317): the stored record, when it reads back well, is used when it matches and the die is within
25 °C of its temperature (in 1/16 °C); otherwise full training stores a new one over the older copy. -/
def dramTrainingDone (recordOk : Bool) (dieTemp : Int) (ms : Nat) (m : Module) : Module :=
  if m.dramReady || m.boot = .ready || m.boot = .failure then m
  else
    let stored := recordOk && m.trainServes dieTemp
    let m := (m.setFld DDR_STAT DDR_STAT_train_src (if stored then 1 else 2)).setFld DDR_STAT DDR_STAT_train_ms
      (min ms 65535)
    { (if stored then m else m.storeTraining dieTemp) with dramReady := true }

/-- The first check of an image that fails (R470), as SEC_BOOT.result codes it. -/
def Module.imageFail (m : Module) (type : Nat) (i : Image) : Option Nat :=
  let h := i.header
  let key := (h.drop 64).take 96
  if h.take 4 ≠ [0x4B, 0x46, 0x57, 0x31] || fieldAt h 4 1 ≠ type then some 1
  else if Config.sha384 key ≠ m.otp.vendorHash then some 2
  else if !Config.ecdsaVerify key (Config.sha384 (h.take 160)) ((h.drop 160).take 96) then some 3
  else if i.body.length < fieldAt h 12 4 || (h.drop 16).take 48 ≠ Config.sha384 (i.body.take (fieldAt h 12 4)) then some 4
  else if fieldAt h 5 1 < m.otp.fuses then some 5
  else none

/-- The first failing check of a slot (R470). -/
def Module.slotFail (m : Module) (s : SlotImage) : Option Nat :=
  match m.imageFail 0 s.sc, m.imageFail 1 s.pmc, m.imageFail 2 s.control with
  | some e, _, _ => some e
  | none, some e, _ => some e
  | none, none, r => r

/-- The smallest security version of a slot (R470). -/
def slotSvn (s : SlotImage) : Nat :=
  min (fieldAt s.sc.header 5 1) (min (fieldAt s.pmc.header 5 1) (fieldAt s.control.header 5 1))

/-- The level returns to the baseline (R483, R485); the source in the journal entry is a free choice. -/
def Module.toBaseline (m : Module) : Module :=
  if m.level = m.baseline then m
  else
    let (src, m) := m.pick 4
    m.setLevel (BitVec.ofNat 2 src).toFin m.baseline

/-- The boot failure state (R471, R485): AON and NET stay on, the level is the baseline; a move to OFF goes on (R459). -/
def Module.bootFail (m : Module) : Module :=
  let off := m.goingOff
  let m := (m.wr PWR_STATE (if off then 0x02 else 0x22)).setFld PWR_DOM_STAT PWR_DOM_STAT_ctl 0
  let m := (m.setFld PWR_DOM_STAT PWR_DOM_STAT_ddr 0).toBaseline
  { m with boot := .failure, transition := if off then m.transition else none }

/-- What a thermal monitor is compared with: the median of the others (R159). -/
def thermOthers (t : List Int) (i : Nat) : Int := medianInt (t.take i ++ t.drop (i + 1))

/-- Bits set where a test holds for the 8 monitors. -/
def monitorMask (ok : Nat → Bool) : Nat := ((List.range 8).map fun i => if ok i then 2 ^ i else 0).sum

/-- The monitors are checked (R159): a thermal one may read up to 4 °C from the median of the others, a voltage one up to 2 %
from the in-package reference; a failed one is cleared and reported, a fault of class MONITOR. -/
def Module.monitorCheck (m : Module) : Module :=
  let (t, m) := m.thermRead
  let (v, ref, m) := m.voltRead
  let th := fun i => ((t[i]?).getD 0 - thermOthers t i).natAbs ≤ 4 * 16
  let vo := fun i => ((v[i]?).getD 0 - ref).natAbs * 50 ≤ ref.natAbs
  let m := ((m.setFld CAL_MON_STAT CAL_MON_STAT_therm_ok (monitorMask fun i => th i)).setFld CAL_MON_STAT
    CAL_MON_STAT_volt_ok (monitorMask fun i => vo i)).dieReport t
  let m := ((List.range 8).filter fun i => !th i).foldl (fun m i =>
    m.fault 15 0x0403 i (twos 32 ((t[i]?).getD 0)) (twos 32 (thermOthers t i)) 0) m
  ((List.range 8).filter fun i => !vo i).foldl (fun m i =>
    m.fault 15 0x0403 (8 + i) (twos 32 ((v[i]?).getD 0)) (twos 32 ref) 0) m

/-- The two slots that flash holds (R469): what is in them is known from the first boot that reads them on. -/
def Module.slotsOf (m : Module) (a b : SlotImage) : SlotImage × SlotImage := m.flash.slots.getD (a, b)

/-- FIRMWARE_VERIFIED: the slot with the higher smallest svn is tried first, A on a tie, and the other when it fails (R470);
a wake goes on to its end (R457), a boot to the PMC firmware and the control pairs (R498 step 8). A boot that finds the storm
count at 3 stops here (R497). -/
def firmwareVerified (a b : SlotImage) (m : Module) : Module :=
  if m.boot ≠ .verifying then m
  else
    let (a, b) := m.slotsOf a b
    let m := { m with flash := { m.flash with slots := some (a, b) } }
    let waking := m.power = 1
    let m := if waking then m else m.monitorCheck
    let firstB := decide (slotSvn a < slotSvn b)
    let (p, q) := if firstB then (b, a) else (a, b)
    let r := m.slotFail p
    let useB := if r.isNone then firstB else !firstB
    let res := if r.isNone then none else m.slotFail q
    let s := if useB then b else a
    let m := (m.setFld SEC_BOOT SEC_BOOT_slot useB.toNat).setFld SEC_BOOT SEC_BOOT_fallback r.isSome.toNat
    let m := (m.setFld SEC_BOOT SEC_BOOT_other_ok 0).setFld SEC_BOOT SEC_BOOT_result (res.getD 0)
    if res.isSome then m.bootFail
    else
      let hs := s.sc.header ++ s.pmc.header ++ s.control.header
      let m : Module := { m.setFld SEC_BOOT SEC_BOOT_svn_image (slotSvn s) with
        fwHash := Config.sha384 hs, fwVersion := BitVec.ofNat 32 (fieldAt s.control.header 8 4) }
      if waking then { m with boot := .init }
      else
        let m := m.updateCap
        if m.fld SYS_BOOT_STAT SYS_BOOT_STAT_storm = 3 then (m.setFld SYS_BOOT_STAT SYS_BOOT_STAT_halted 1).bootFail
        else { m with boot := .selfTest }

/-- The settings record (R319, R438, R500): node ID, inline ECC and the fault log; the defaults when no copy reads back well
and passes its check. -/
def Module.readSettings (m : Module) (good : Bool) : Module :=
  let stored := if good then recValue m.flash.settings else none
  let m := if stored.isSome then m
    else { m with flash := { m.flash with faultLog := [] } }
  let m := m.setFld SYS_BOOT_STAT SYS_BOOT_STAT_settings_default stored.isNone.toNat
  let v := stored.getD 0
  let ecc := v.testBit 16
  let m := (m.setFld NET_NODE NET_NODE_node (v % 65536)).setFld DDR_CFG DDR_CFG_inline_ecc_next ecc.toNat
  { m.setFld DDR_STAT DDR_STAT_inline_ecc ecc.toNat with
    dramFillDue := ecc != m.flash.eccUsed, flash := { m.flash with eccUsed := ecc } }

/-- A random generation from 1 to 65 535 for every exported window (R428). -/
def Module.drawGenerations (m : Module) : Module :=
  (List.range 256).foldl (fun m n =>
    let (r, m) := m.draw
    m.setFld (YWP_EXP_GEN n) YWP_EXP_GEN_gen (1 + r % 65535)) m

/-- CP_SELF_TEST_DONE: a pair that fails is OFFLINE; when both fail the boot stops. Firmware then reads the settings, empties
its tables, loads the library memories (R193), enters a control reset in the fault log, chooses the epoch and writes the versions (R498 steps 9 and 10, R508,
R510). -/
def cpSelfTestDone (cp0 cp1 settingsOk : Bool) (m : Module) : Module :=
  if m.boot ≠ .selfTest then m
  else
    let m := (m.setFld SYS_CP_STAT SYS_CP_STAT_cp0 (if cp0 then 0 else 2)).setFld SYS_CP_STAT SYS_CP_STAT_cp1
      (if cp1 then 0 else 2)
    if !cp0 && !cp1 then m.bootFail
    else
      let m := (m.readSettings settingsOk).drawGenerations
      let m := if m.doubleRecord then { m with doubleRecord := false }.silentFault 10 else m
      let (e, m) := m.draw
      let (lib, m) := m.open_
      let (res, m) := m.open_
      let m := ((m.wr SYS_LIB_VER lib).wr SYS_FW_VER m.fwVersion).wr NIS_RES_VER res
      let (code, aps) := Config.libraryImage m.fwHash
      { m with epoch := BitVec.ofNat 32 (1 + e % 0xFFFFFFFF), library := (code.take 8192, aps.take 64), boot := .init }

/-- BOOT_READY: with DRAM ready, and filled when inline ECC has changed, READY is reached in IDLE; the SC blows rollback
fuses (R470, R498 steps 11 to 13). A boot that goes to OFF ends before it (R459). -/
def bootReady (m : Module) : Module :=
  if m.boot ≠ .init || m.power ≠ 2 || !m.dramReady || m.goingOff then m
  else
    let m := if m.dramFillDue then { m with mem := m.mem.filter fun c => c.1 < dramBase, dramFillDue := false } else m
    { m.blowFuses.setFld SYS_BOOT_STAT SYS_BOOT_STAT_ready 1 with boot := .ready }

/-! ### Control pairs (R507, R508) -/

/-- The state of a control pair (R512): 0 RUNNING, 1 RECOVERING, 2 OFFLINE. -/
def Module.cpState (m : Module) (pair : Nat) : Nat :=
  m.fld SYS_CP_STAT (if pair = 0 then SYS_CP_STAT_cp0 else SYS_CP_STAT_cp1)
def Module.setCpState (m : Module) (pair v : Nat) : Module :=
  m.setFld SYS_CP_STAT (if pair = 0 then SYS_CP_STAT_cp0 else SYS_CP_STAT_cp1) v

/-- A control fault of a running pair: the other takes over its duties, and no command is lost (R507); the second since
power good makes it OFFLINE. With the other pair stopped or OFFLINE it is CONTROL_DOUBLE: a control reset, recorded in AON
and counted in the storm count (R494, R497, R508). -/
def Module.controlFault (m : Module) (pair : Fin 2) (cls : Nat) : Module :=
  if (m.boot ≠ .ready && m.boot ≠ .init) || !m.bit PWR_DOM_STAT PWR_DOM_STAT_ctl || m.cpState pair.val ≠ 0 then m
  else
    let m := m.satAdd SYS_CP_STAT SYS_CP_STAT_faults 1
    let (a, b) := m.cpFaults
    let old := if pair = 0 then a else b
    let m := { m with cpFaults := if pair = 0 then (a + 1, b) else (a, b + 1) }
    if m.cpState (1 - pair.val) ≠ 0 then
      ({ m with doubleRecord := true }.satAdd SYS_BOOT_STAT SYS_BOOT_STAT_storm 1).restart 2 false
    else (m.setCpState pair.val (if old = 0 then 1 else 2)).fault cls 0x0C01 pair.val cls 0 0

def controlMismatch (pair : Fin 2) (m : Module) : Module := m.controlFault pair 8
def controlWatchdog (pair : Fin 2) (m : Module) : Module := m.controlFault pair 9

/-- CP_RESUME_DUTIES: 10 ms after its fault a pair that passes its self-test takes back its duties (R507 step 4). -/
def cpResumeDuties (pair : Fin 2) (pass : Bool) (m : Module) : Module :=
  if m.cpState pair.val = 1 then m.setCpState pair.val (if pass then 0 else 2) else m

/-- STORM_COUNT_CLEAR (R497). -/
def stormCountClear (m : Module) : Module := m.setFld SYS_BOOT_STAT SYS_BOOT_STAT_storm 0

/-- FAULT_LOG_FLUSH: a batch of logged faults is written to flash; a store that fails is a fault of class FLASH, and what was
written before stays (R509, R510). -/
def faultLogFlush (good : Bool) (m : Module) : Module :=
  if m.flogPending.isEmpty then m
  else if good then { m with flash := m.flash.addFaults m.flogPending, flogPending := [] }
  else m.silentFault 16

def execStartCondition (vinMv : Nat) (s : State) : Host.Outcome State Fault Refusal :=
  if 100000 < vinMv then .fault .beyondRatings else okInput s (startCondition vinMv s.toModule)
def execDramTrainingDone (recordOk : Bool) (dieTemp : Int) (ms : Nat) (s : State) :=
  ok s (dramTrainingDone recordOk dieTemp ms s.toModule)
def execFirmwareVerified (a b : SlotImage) (s : State) := ok s (firmwareVerified a b s.toModule)
def execCpSelfTestDone (cp0 cp1 settingsOk : Bool) (s : State) := ok s (cpSelfTestDone cp0 cp1 settingsOk s.toModule)
def execBootReady (s : State) := ok s (bootReady s.toModule)
def execControlMismatch (pair : Fin 2) (s : State) := ok s (controlMismatch pair s.toModule)
def execControlWatchdog (pair : Fin 2) (s : State) := ok s (controlWatchdog pair s.toModule)
def execCpResumeDuties (pair : Fin 2) (pass : Bool) (s : State) := ok s (cpResumeDuties pair pass s.toModule)
def execStormCountClear (s : State) := ok s (stormCountClear s.toModule)
def execFaultLogFlush (good : Bool) (s : State) := ok s (faultLogFlush good s.toModule)

end Sys2Proof.Machine
end

