-- ==== Sys2Proof/Machine/RegWrite.lean ====
section
/-!
DEFINITION. Register accesses (R9, R26 to R30, R406, R488, R526): the checks in the order of R26, what a write of each
register does, what a read of each register answers, and the entry in the change journal. The answer of the last access
stands in `busStatus` and `busValue`.
-/
namespace Sys2Proof

/-! ### Register rows (R9, R526) -/

/-- A field takes a value: within the range its table states; shadow fields and the entry fields of the sensor queue take
any (R526). -/
def FieldRow.takes (f : FieldRow) (v : Word) : Bool :=
  match f.acc with
  | .rw | .wo => f.kind = .shadow || f.kind = .free || (f.lo ≤ f.bits.of v && f.bits.of v ≤ f.hi)
  | _ => true

/-- What the register holds after a write of `v` (R9). -/
def RegRow.merge (r : RegRow) (old v : Word) : Word :=
  r.fields.foldl (fun (w : Word) f =>
    match f.acc with
    | .rw => f.bits.put w (f.bits.of v)
    | .w1c => f.bits.put w (f.bits.of old - f.bits.of v)
    | _ => w) old

/-- The fields that a session can write. -/
def RegRow.writable (r : RegRow) : List FieldRow := r.fields.filter fun f => f.acc ≠ .ro

/-- The written bits of the WO fields (R489: the value written for WO). -/
def RegRow.woBits (r : RegRow) (v : Word) : Word :=
  r.fields.foldl (fun (w : Word) f => if f.acc = .wo then f.bits.put w (f.bits.of v) else w) 0

namespace Machine

/-! ### What a register reads as -/

/-- Word k of SYN_OWN: bit i is set when object 32 k + i is plan-owned (R314). -/
def Module.ownWord (m : Module) (k : Nat) : Word :=
  BitVec.ofNat 32 (((List.range 32).filter fun i => m.owned (32 * k + i)).map (2 ^ ·)).sum

/-- The words of the fault-log entry that SYS_FLOG_IDX.index names, 0 beyond the log (R510, R512). -/
def Module.flogWord (m : Module) (index k : Nat) : Word :=
  match m.flash.faultLog[index]? with
  | some e => BitVec.ofNat 32 (fieldAt (eventBytes e 0) (4 * k) 4)
  | none => 0

/-- Input energy in mJ (R460, R464). -/
def Module.energyMj (m : Module) : Nat := m.energyPj / 1000000000

/-- What the register of row `r` and indices i, j at `off` reads as; WO fields and reserved bits are never stored (R9).
Some registers show state that is held elsewhere. -/
def Module.readAs (m : Module) (r : RegRow) (i : Nat) (off : Nat) : Word :=
  let w := m.rd off
  if r.base = SYN_PEEK_VAL then m.sync (m.fld SYN_PEEK_SEL SYN_PEEK_SEL_obj)
  else if r.base = SYN_STAT then SYN_STAT_owned.put w m.syncOwner.length
  else if r.base = SYN_OWN 0 then m.ownWord i
  else if r.base = ENG_ACLK then ENG_ACLK_aclk_mhz.put w (if m.mode = 2 then 675 else 900)
  else if r.base = DDR_STAT then DDR_STAT_rate_100mt.put w (if m.mode = 2 then 64 else 96)
  else if r.base = DBG_LEVEL then DBG_LEVEL_backoff_ms.put w (min m.backoffLeft 65535)
  else if r.base = SYS_FLOG_IDX then SYS_FLOG_IDX_count.put w m.flash.faultLog.length
  else if r.base = PWR_ENERGY_LO then BitVec.ofNat 32 m.energyMj
  else if r.base = FE_TBL_DATA 0 then ((m.feTable i none).map (·.1)).getD 0
  else if r.base = NIS_TBL_DATA 0 then ((m.nisTable i none).map (·.1)).getD 0
  else w

/-- The word at a register-space offset as a read would show it, nothing changed; 0 where there is no register (R26). -/
def Module.peek (m : Module) (off : Nat) : Word :=
  match findReg off with
  | some (r, i, _) => m.readAs r i off
  | none => 0

/-- NET_TIME_NS samples the clock and copies its seconds (R440). -/
def Module.timeCopy (m : Module) : Module :=
  let m := m.tick
  let t := m.ptp
  let m := (m.wr NET_TIME_NS (BitVec.ofNat 32 (t % 1000000000))).wr NET_TIME_SL (BitVec.ofNat 32 (t / 1000000000))
  m.wr NET_TIME_SH (NET_TIME_SH_valid.put (NET_TIME_SH_s_hi.put 0 (t / 1000000000 / 2 ^ 32)) m.timeValid.toNat)

/-- What a read of a register does beside answering: status, word and state (R53, R107, R137, R440, R464). -/
def Module.readReg (m : Module) (r : RegRow) (i : Nat) (off : Nat) : Nat × Word × Module :=
  if r.base = FE_TBL_DATA 0 then
    match m.feTable i none with
    | some (w, m) => (stOk, w, m)
    | none => (stBusError, 0, m)
  else if r.base = NIS_TBL_DATA 0 then
    match m.nisTable i none with
    | some (w, m) => (stOk, w, m)
    | none => (stBusError, 0, m)
  else
    let m := if r.base = CAP_MEAS_SEQ 0 then m.measCopy i
      else if r.base = NET_TIME_NS then m.timeCopy
      else if r.base = PWR_ENERGY_LO then m.wr PWR_ENERGY_HI (BitVec.ofNat 32 (m.energyMj / 2 ^ 32))
      else if r.base = DBG_LEVEL then m.tick
      else if r.base = SPM_ST_CONFLICT 0 then m.lostCycles
      else m
    (stOk, m.readAs r i off, m)

/-! ### The checks of a write (R82, R427, R526) -/

/-- A write of set-up fields is refused outside DISABLED and READY and while a stream is admitted: of a register that holds only set-up fields whatever
it writes, of another when it would change one (R82, R351). -/
def Module.setupHeld (m : Module) (r : RegRow) (i : Nat) (old new : Word) : Bool :=
  let w := r.writable
  (w.any fun f => f.kind = .setup) && !m.setupOpen i &&
    ((w.all fun f => f.kind = .setup) || w.any fun f => f.kind = .setup && f.bits.of old ≠ f.bits.of new)

/-! ### What a write of each register does: the status and the state -/

/-- CAP_ registers (R42, R46, R47, R56, R62, R65). -/
def Module.writeCap (m : Module) (r : RegRow) (p off : Nat) (v new : Word) : Nat × Module :=
  let geom := r.base = CAP_GEOM 0 || r.base = CAP_GEOM_OFS 0
  if r.base = CAP_PORT_CFG 0 then m.portCfgWrite p new
  else if geom && new ≠ m.rd off && !m.setupOpen p then (stRefused, m)
  else if r.base = CAP_GEOM 0 && m.bit (CAP_PORT_CFG p) CAP_PORT_CFG_ddr && CAP_GEOM_width.of new % 2 = 1 then (stRefused, m)
  else if r.base = CAP_TRAIN_CTL 0 then m.trainCtl p v
  else if r.base = CAP_TRIG_CFG 0 then 
    if m.trigWidthBad p new then (stRefused, m) else (stOk, m.trigCfgWrite p new)
  else if r.base = CAP_SQ_PUSH 0 then if CAP_SQ_PUSH_push.of v = 1 then m.sqPush p else (stOk, m)
  else if r.base = CAP_CNT_CLR 0 then (stOk, m.clearCounters (CAP_CNT_SHORT_FRAME p) 8 v.toNat)
  else if geom || r.base = CAP_DESKEW 0 0 || r.base = CAP_DESKEW4 0 then (stOk, (m.wr off new).reportStored p)
  else (stOk, m.wr off new)

/-- FE_ and NIS_ registers (R76, R107, R126, R135, R137). -/
def Module.writeCtx (m : Module) (r : RegRow) (c k off : Nat) (v new : Word) : Nat × Module :=
  if r.base = FE_COMMIT 0 then
    if FE_COMMIT_commit.of v = 1 then m.feCommit c (FE_COMMIT_next.of v = 1) (FE_COMMIT_with_exposure.of v = 1)
    else (stOk, m)
  else if r.base = FE_TBL_DATA 0 then
    match m.feTable c (some v) with
    | some (_, m) => (stOk, m)
    | none => (stBusError, m)
  else if r.base = NIS_TBL_DATA 0 then
    match m.nisTable c (some v) with
    | some (_, m) => (stOk, m)
    | none => (stBusError, m)
  else if r.base = NIS_HIST_CTL 0 then
    (stOk, if NIS_HIST_CTL_reset.of v = 1 then m.setCtx c { m.ctx c with histReset := true } else m)
  else if r.base = NIS_OUT_CTL 0 0 then (stOk, if NIS_OUT_CTL_resume.of v = 1 then m.resumeOutput c k else m)
  else (stOk, m.wr off new)

/-- Store the settings record: the node ID and the inline ECC setting for the next boot, as their registers have them
(R319, R438, R500). -/
def Module.storeSettings (m : Module) : Module :=
  let v := m.fld NET_NODE NET_NODE_node + 65536 * m.fld DDR_CFG DDR_CFG_inline_ecc_next
  m.storeFlash fun f => { f with settings := recStore f.settings v }

/-- CAL_, ENG_, SPM_, SYN_, DDR_ and DMA_ registers (R160, R192, R297, R314, R319, R336, R341). -/
def Module.writeCore (m : Module) (r : RegRow) (i j off : Nat) (v new : Word) : Nat × Module :=
  if r.base = CAL_CTX_CTL 0 then m.calCtl i v
  else if r.base = CAL_CNT_CLR 0 then (stOk, m.clearCounters (CAL_CNT_RUN i) 6 v.toNat)
  else if r.base = ENG_X_CNT_CLR 0 0 then (stOk, m.clearCounters (ENG_X_CNT_TASK i j) 5 v.toNat)
  else if r.base = SPM_ST_CNT_CLR 0 then (stOk, m.clearCounters (SPM_ST_CE i) 3 v.toNat)
  else if r.base = SYN_CNT_CLR then (stOk, m.clearCounters SYN_CNT_TIMEOUT 2 v.toNat)
  else if r.base = DDR_CFG then
    (stOk, (m.wr off new).storeSettings)
  else if r.base = DMA_CH_CTL 0 then
    match m.chanAction (BitVec.ofNat 6 i).toFin (DMA_CH_CTL_action.of v) with
    | some m => (stOk, m)
    | none => (stRefused, m)
  else if r.base = DMA_CH_PACE 0 && DMA_CH_PACE_high.of new ≤ DMA_CH_PACE_low.of new then (stRefused, m)
  else (stOk, m.wr off new)

/-- An admitted stream sends frames on port p (R419). -/
def Module.streamOn (m : Module) (p : Nat) : Bool := m.streams.any fun e => e.2.plan.net.any (·.1 = p)

/-- Class `cl` of port p carries the frames of an admitted stream (R418). -/
def Module.classUsed (m : Module) (p cl : Nat) : Bool :=
  m.streams.any fun e => e.2.setup.tclass = cl && e.2.plan.net.any (·.1 = p)

/-- A write of a port's max_frame, cycle_ns, PCP map or class modes changes a field that an admitted stream relies on
(R440): the class that a PCP has, where a stream travels in it, and the mode of that class. -/
def Module.portRelied (m : Module) (r : RegRow) (p : Nat) (old new : Word) : Bool :=
  if r.base = NET_PORT_CFG 0 then NET_PORT_CFG_max_frame.of old ≠ NET_PORT_CFG_max_frame.of new && m.streamOn p
  else if r.base = NET_QBV_CYCLE 0 then old ≠ new && m.streamOn p
  else if r.base = NET_PCP_MAP 0 then (List.range 8).any fun k =>
    let a := bitsOf old.toNat (3 * k + 2) (3 * k)
    a ≠ bitsOf new.toNat (3 * k + 2) (3 * k) && m.classUsed p a
  else if r.base = NET_TC_CFG 0 then (List.range 7).any fun k =>
    bitsOf old.toNat (2 * k + 1) (2 * k) ≠ bitsOf new.toNat (2 * k + 1) (2 * k) && m.classUsed p k
  else false

/-- An output of an admitted stream names talker t (R424). -/
def Module.talkerUsed (m : Module) (t : Nat) : Bool :=
  (m.streams.find? (t / 4)).isSome && m.bit (NIS_OUT_CFG (t / 4) (t % 4)) NIS_OUT_CFG_en &&
    m.bit (NIS_OUT_DEST (t / 4) (t % 4)) NIS_OUT_DEST_avtp

/-- NET_ registers (R416, R424, R439, R440). -/
def Module.writeNet (m : Module) (r : RegRow) (i off : Nat) (v new : Word) : Nat × Module :=
  let old := m.rd off
  let talker := r.base = NET_TLK_DMAC_LO 0 || r.base = NET_TLK_DMAC_HI 0 || r.base = NET_TLK_CFG 0 || r.base = NET_TLK_PRES 0
  if m.portRelied r i old new then (stRefused, m)
  else if r.base = NET_TC_CFG 0 && (List.range 7).any (fun k => bitsOf new.toNat (2 * k + 1) (2 * k) = 3) then (stRefused, m)
  else if r.base = NET_NODE then
    if m.sessions.isEmpty && m.binds.isEmpty then
      (stOk, (m.wr off new).storeSettings)
    else (stRefused, m)
  else if talker then
    if m.talkerUsed i || (r.base = NET_TLK_CFG 0 && NET_TLK_CFG_replicate.of new = 1 && NET_TLK_CFG_ports.of new ≠ 3) then
      (stRefused, m)
    else (stOk, (m.wr off new).setFld (NET_TLK_GEN i) NET_TLK_GEN_gen (nextGen (m.fld (NET_TLK_GEN i) NET_TLK_GEN_gen)))
  else if r.base = NET_CNT_CLR 0 then (stOk, m.clearCounters (NET_CNT_RX_DROP i 0) 11 v.toNat)
  else (stOk, m.wr off new)

/-- The span that exported window n would have with CTL word `ctl` lies inside its region (R427). -/
def Module.spanInside (m : Module) (n : Nat) (ctl : Word) : Bool :=
  match m.region? (m.rd (YWP_EXP_REGION n)) with
  | some r => (m.rd (YWP_EXP_OFS n)).toNat * 4096 + (YWP_EXP_CTL_size_m1.of ctl + 1) * 4096 ≤ r.size
  | none => false

/-- A write of YWP_EXP_CTL (R427, R428): opening needs a span inside its region; while open, only `open` may change. -/
def Module.expCtl (m : Module) (n off : Nat) (new : Word) : Nat × Module :=
  if m.bit (YWP_EXP_CTL n) YWP_EXP_CTL_open then
    if new ||| 1 ≠ m.rd off ||| 1 then (stRefused, m)
    else (stOk, if YWP_EXP_CTL_open.of new = 0 then m.closeWindow n else m)
  else if YWP_EXP_CTL_open.of new = 1 && !m.spanInside n new then (stRefused, m)
  else (stOk, m.wr off new)

/-- YWP_ registers (R427, R428, R441). -/
def Module.writeYwp (m : Module) (r : RegRow) (i off : Nat) (v new : Word) : Nat × Module :=
  let exp := r.base = YWP_EXP_REGION 0 || r.base = YWP_EXP_OFS 0 || r.base = YWP_EXP_SYNC 0 || r.base = YWP_EXP_ARRIVE 0
  if r.base = YWP_EXP_CTL 0 then m.expCtl i off new
  else if exp && m.bit (YWP_EXP_CTL i) YWP_EXP_CTL_open then (stRefused, m)
  else if r.base = YWP_EXP_SYNC 0 && 8192 < YWP_EXP_SYNC_first.of new + YWP_EXP_SYNC_count.of new then (stRefused, m)
  else if r.base = YWP_CREDIT_WIN && new.toNat % 1024 ≠ 0 then (stRefused, m)
  else if r.base = YWP_CNT_CLR then (stOk, m.clearCounters YWP_CNT_CLOSED 4 v.toNat)
  else (stOk, m.wr off new)

/-- A system reset (R496): the move to OFF begins; what follows the answer is `settleMove`. A move to OFF that is under way
goes on (R449). -/
def Module.sysReset (m : Module) (byDebug : Bool) (v : Word) : Nat × Module :=
  if SYS_RESET_key.of v ≠ 0xB007 || !m.streams.isEmpty then (stRefused, m)
  else if SYS_RESET_go.of v = 0 || m.goingOff then (stOk, m)
  else (stOk, m.beginLeave 0 (.reset byDebug))

/-- After the answer to an access that began a move to STANDBY or OFF: POWER_STATE is raised (R455 steps 1 and 3, R496); a
system reset in the boot failure state, where no control firmware runs, is made at once (R471). `before` is the transition as
the access found it. -/
def Module.settleMove (m : Module) (before : Option Transition) : Module :=
  match m.transition with
  | none => m
  | some t =>
    if before = some t then m
    else match t.cause with
      | .reset d => if m.boot = .failure then m.closeLinks.restart 1 d else m.announce
      | _ => m.announce

/-- A write of SYS_FLOG_IDX (R510): clear from debug at FULL alone; the entry at index is copied to SYS_FLOG_DATA. -/
def Module.flogWrite (m : Module) (full : Bool) (off : Nat) (v new : Word) : Nat × Module :=
  if SYS_FLOG_IDX_clear.of v = 1 && !full then (stAuthFailed, m)
  else
    let m := if SYS_FLOG_IDX_clear.of v = 1 then { m with flash := { m.flash with faultLog := [] }, flogPending := [] } else m
    let index := SYS_FLOG_IDX_index.of new
    (stOk, (List.range 8).foldl (fun m k => m.wr (SYS_FLOG_DATA k) (m.flogWord index k)) (m.wr off new))

/-- PWR_ registers (R370, R452, R454, R464). -/
def Module.writePwr (m : Module) (r : RegRow) (off : Nat) (v new : Word) : Nat × Module :=
  if r.base = PWR_STATE_REQ then m.powerRequest (PWR_STATE_REQ_target.of v)
  else if r.base = PWR_MODE then m.modeRequest (PWR_MODE_request.of v)
  else if r.base = PWR_DOM_CFG then
    if !m.streams.isEmpty then (stRefused, m)
    else
      let m := m.wr off new
      (stOk, if m.power = 3 then m.switchTo 3 else m)
  else if r.base = PWR_CNT_CLR then (stOk, m.clearCounters PWR_CNT_HOLDUP 3 v.toNat)
  else (stOk, m.wr off new)

/-- SYS_, SEC_ and DBG_ registers (R374, R475, R491, R492, R496, R510, R512). -/
def Module.writeSys (m : Module) (src : BusSource) (r : RegRow) (off : Nat) (v new : Word) : Nat × Module :=
  let byDebug := match src with | .debug _ => true | _ => false
  if r.base = SYS_RESET then m.sysReset byDebug v
  else if r.base = SYS_FLOG_IDX then m.flogWrite (byDebug && 2 ≤ m.level) off v new
  else if r.base = SYS_FLT_CNT_CLR then (stOk, m.clearCounters (SYS_FLT_CNT 0) 16 v.toNat)
  else if r.base = SYS_ADM_CNT_CLR then (stOk, m.clearCounters SYS_ADM_CNT_REFUSED 4 v.toNat)
  else if r.base = SEC_PKG_POLICY && SEC_PKG_POLICY_policy.of new < SEC_PKG_POLICY_floor.of new then (stRefused, m)
  else if r.base = DBG_CNT_CLR then (stOk, m.clearCounters DBG_CNT_FAIL 2 v.toNat)
  else (stOk, m.wr off new)

/-- What a write does that has passed the checks of R526 and R82; `new` is the register with `v` merged into it. -/
def Module.writeReg (m : Module) (src : BusSource) (r : RegRow) (i j off : Nat) (v new : Word) : Nat × Module :=
  if off < 0x010000 then m.writeSys src r off v new
  else if off < 0x040000 then m.writeCap r i off v new
  else if off < 0x0A0000 then m.writeCtx r i j off v new
  else if off < 0x600000 then m.writeCore r i j off v new
  else if off < 0x680000 then m.writeNet r i off v new
  else if off < 0x700000 then m.writeYwp r i off v new
  else if off < 0x780000 then m.writePwr r off v new
  else m.writeSys src r off v new

/-! ### The change journal (R488, R489) -/

/-- Source and session field of a journal entry; the control cores' own writes are not entered (R488). -/
def Module.journalSource (m : Module) (src : BusSource) : Option (Fin 4 × W16) :=
  match src with
  | .session n p => some (⟨p.val, by omega⟩, match m.sessions.find? n.val with
      | some s => sessionField n.val s
      | none => 0)
  | .debug path => some (path, 0)
  | .control => none

/-- Enter a register write that has taken effect: of a register with an RW, WO or W1C field (R488). -/
def Module.journalWrite (m : Module) (src : Option (Fin 4 × W16)) (r : RegRow) (off : Nat) (old new : Word) : Module :=
  match src with
  | none => m
  | some (s, f) => if r.writable.isEmpty then m else m.journalEntry 0 s f off old.toNat new.toNat

/-! ### An access (R26, R28, R526) -/

/-- Latch the answer of an access. -/
def Module.busAnswer (m : Module) (status : Nat) (value : Word) : Module :=
  { m with busStatus := BitVec.ofNat 16 status, busValue := value }

/-- The checks of R26 before the register itself: size and alignment, the reserved range, the domain. -/
def Module.busCheck (m : Module) (off size : Nat) : Option Nat :=
  if size ≠ 4 ∨ off % 4 ≠ 0 ∨ 0x800000 ≤ off then some stBusError
  else if m.blockOn off then none else some stNotReady

/-- A read. -/
def Module.busRead (m : Module) (off size : Nat) : Module :=
  match m.busCheck off size with
  | some st => m.busAnswer st 0
  | none =>
    match findReg off with
    | none => m.busAnswer stOk 0
    | some (r, i, _) =>
      let (st, w, m) := m.readReg r i off
      m.busAnswer st w

/-- A write. Its answer carries the register's value after the write; a refused one changes nothing and is not entered in
the change journal (R406, R488, R526). -/
def Module.busWrite (m : Module) (src : BusSource) (off size : Nat) (v : Word) : Module :=
  match m.busCheck off size with
  | some st => m.busAnswer st 0
  | none =>
    match findReg off with
    | none => m.busAnswer stOk 0
    | some (r, i, j) =>
      let old := m.readAs r i off
      let new := r.merge (m.rd off) v
      if !(r.fields.all fun f => f.takes v) || m.setupHeld r i (m.rd off) new then m.busAnswer stRefused old
      else if r.writable.isEmpty then m.busAnswer stOk old
      else
        let js := m.journalSource src
        let (st, m) := m.writeReg src r i j off v new
        if st ≠ stOk then m.busAnswer st (m.readAs r i off)
        else
          let after := if r.base = FE_TBL_DATA 0 || r.base = NIS_TBL_DATA 0 then v else m.readAs r i off
          (m.journalWrite js r off old (after ||| r.woBits v)).busAnswer stOk after

/-! ### Who may access (R30, R471, R476, R479, R486) -/

/-- What becomes of an access before R26: it reaches the register, is answered, or there is nobody to make it. -/
inductive BusGate
  | pass | answer (status : Nat) | silent
deriving DecidableEq, Repr

/-- The gate of an access: a session that is attached while the module is ready, NOT_READY while the control pairs are
halted; a debug path that is heard, at OBSERVE for a read and FULL for a write (in boot failure SYS_RESET in BLANK alone);
the control cores while their domain is on. -/
def Module.busGate (m : Module) (src : BusSource) (write : Bool) (off : Nat) : BusGate :=
  match src with
  | .session n _ =>
    if !m.ready || (m.sessions.find? n.val).isNone then .silent
    else if m.cpHalted then .answer stNotReady
    else .pass
  | .debug path =>
    if !m.pathHeard path.val then .silent
    else if m.power ≠ 1 && m.boot ≠ .ready && m.boot ≠ .failure then .answer stNotReady
    else if m.boot = .failure && write && !(m.otp.lc = 0 && off = SYS_RESET) then .answer stNotReady
    else if m.level < (if write then 2 else 1) then .answer stAuthFailed
    else .pass
  | .control => if m.bit PWR_DOM_STAT PWR_DOM_STAT_ctl && !m.cpHalted then .pass else .silent

/-- A register read by `src`. -/
def Module.accessRead (m : Module) (src : BusSource) (off size : Nat) : Module :=
  match m.busGate src false off with
  | .silent => m
  | .answer st => m.busAnswer st 0
  | .pass => m.busRead off size

/-- A register write by `src`. -/
def Module.accessWrite (m : Module) (src : BusSource) (off size : Nat) (v : Word) : Module :=
  match m.busGate src true off with
  | .silent => m
  | .answer st => m.busAnswer st 0
  | .pass => (m.busWrite src off size v).settleMove m.transition

/-! ### REG_ACCESS and the debug register operations (R406, R407, R478) -/

/-- One operation of a request: its offset, op and value. -/
def regOp (b : List Byte) (i : Nat) : Nat × Nat × Word :=
  (fieldAt b (4 + 8 * i) 3, fieldAt b (7 + 8 * i) 1, BitVec.ofNat 32 (fieldAt b (8 + 8 * i) 4))

/-- A request of the right length: a count and so many operations. -/
def regLength (b : List Byte) : Bool := 4 ≤ b.length && b.length = 4 + 8 * fieldAt b 0 1

/-- Execute one operation; a reserved op, or one that the path does not allow, is REFUSED. -/
def Module.doRegOp (m : Module) (src : BusSource) (writes : Bool) (o : Nat × Nat × Word) : Module :=
  if 1 < o.2.1 || (o.2.1 = 1 && !writes) then m.busAnswer stRefused 0
  else match m.busGate src (o.2.1 = 1) o.1 with
    | .silent => m.busAnswer stNotReady 0
    | .answer st => m.busAnswer st 0
    | .pass => if o.2.1 = 0 then m.busRead o.1 4 else m.busWrite src o.1 4 o.2.2

/-- Execute the operations of a request in order, all of them, and give the answer of R406. -/
def Module.regOps (m : Module) (src : BusSource) (writes : Bool) (b : List Byte) : List Byte × Module :=
  let n := fieldAt b 0 1
  (List.range n).foldl (fun (a : List Byte × Module) i =>
    let o := regOp b i
    let m := a.2.doRegOp src writes o
    (a.1 ++ leBytes 3 o.1 ++ leBytes 1 m.busStatus.toNat ++ leBytes 4 m.busValue.toNat, m)) (leBytes 4 n, m)

/-- REG_ACCESS: a repeated seq is answered with the kept response and not executed again (R407). -/
def regAccess (h : Hdr) (b : List Byte) (m : Module) : Module :=
  m.gateSession h 0x04 true fun n s m =>
    match s.lastReg.filter fun e => e.1 = h.seq with
    | some e => m.answer h 0x04 e.2.1 0 e.2.2
    | none =>
      let keep := fun (m : Module) (st : Nat) (resp : List Byte) =>
        { m with sessions := m.sessions.adjust n fun s => { s with lastReg := some (h.seq, st, resp) } }.answer h 0x04 st 0 resp
      if !regLength b then keep m stBadMessage []
      else if fieldAt b 0 1 = 0 || 32 < fieldAt b 0 1 then keep m stRefused []
      else
        let (resp, m') := m.regOps (.session (BitVec.ofNat 8 n).toFin h.port) true b
        (keep m' stOk resp).settleMove m.transition

/-- The operations of a request write SYS_RESET, and no other register (R471). -/
def resetWrites (b : List Byte) : Bool :=
  let l := ((List.range (fieldAt b 0 1)).map (regOp b)).filter (·.2.1 = 1)
  !l.isEmpty && l.all (·.1 = SYS_RESET)

/-- A debug register operation (R478): op 5 reads alone, at OBSERVE; op 6, at FULL. In boot failure op 6 is served in BLANK for
SYS_RESET alone (R471). -/
def Module.debugRegs (m : Module) (d : DbgHdr) (op : Nat) (b : List Byte) : Module :=
  m.debugOp d op (if op = 6 then 2 else 1) true (op = 5 || m.otp.lc = 0 && resetWrites b) fun m =>
    if !regLength b || fieldAt b 0 1 = 0 || 32 < fieldAt b 0 1 then m.debugAnswer d op stRefused 0 []
    else
      let (resp, m') := m.regOps (.debug d.path) (op = 6) b
      (m'.debugAnswer d op stOk 0 resp).settleMove m.transition

/-- Debug REG_READ. -/
def regRead (d : DbgHdr) (b : List Byte) (m : Module) : Module := m.debugRegs d 5 b

/-- Debug REG_WRITE; in boot failure SYS_RESET in BLANK is the one write served (R471). -/
def regWrite (d : DbgHdr) (b : List Byte) (m : Module) : Module := m.debugRegs d 6 b

end Machine
end Sys2Proof
end

