-- ==== Sys2Proof/Machine/BusRows.lean ====
section
/-!
DEFINITION. The rows of the table that are an access to one register: each is the access of RegWrite.lean with the
register and the word that its row names. A row whose words do not spell its trigger changes nothing.
-/
namespace Sys2Proof.Machine

/-- REGISTER_WRITE: any register write (R26, R526). -/
def registerWrite (src : BusSource) (off size : Nat) (value : Word) (m : Module) : Module :=
  m.accessWrite src off size value

/-- PORT_ENABLE: a write of CAP_PORT_CFG with enable set (R46). -/
def portEnable (src : BusSource) (p : PortId) (cfg : Word) (m : Module) : Module :=
  if CAP_PORT_CFG_enable.of cfg = 1 then m.accessWrite src (CAP_PORT_CFG p) 4 cfg else m

/-- PORT_DISABLE: a write of CAP_PORT_CFG with enable clear (R46, R47). -/
def portDisable (src : BusSource) (p : PortId) (cfg : Word) (m : Module) : Module :=
  if CAP_PORT_CFG_enable.of cfg = 0 then m.accessWrite src (CAP_PORT_CFG p) 4 cfg else m

/-- TRAIN_START (R42, R43). -/
def trainStart (src : BusSource) (p : PortId) (m : Module) : Module :=
  m.accessWrite src (CAP_TRAIN_CTL p) 4 (CAP_TRAIN_CTL_start.put 0 1)

/-- TRAIN_ABORT (R43). -/
def trainAbortWrite (src : BusSource) (p : PortId) (m : Module) : Module :=
  m.accessWrite src (CAP_TRAIN_CTL p) 4 (CAP_TRAIN_CTL_abort.put 0 1)

/-- TRIG_MODE_WRITE (R56). -/
def trigModeWrite (src : BusSource) (p : PortId) (cfg : Word) (m : Module) : Module :=
  m.accessWrite src (CAP_TRIG_CFG p) 4 cfg

/-- SQ_PUSH (R62). -/
def sqPushWrite (src : BusSource) (p : PortId) (m : Module) : Module :=
  m.accessWrite src (CAP_SQ_PUSH p) 4 (CAP_SQ_PUSH_push.put 0 1)

/-- MEAS_SNAPSHOT (R53). -/
def measSnapshot (src : BusSource) (p : PortId) (m : Module) : Module :=
  m.accessRead src (CAP_MEAS_SEQ p) 4

/-- CAP_CNT_CLR (R65). -/
def capCntClr (src : BusSource) (p : PortId) (mask : Word) (m : Module) : Module :=
  m.accessWrite src (CAP_CNT_CLR p) 4 mask

/-- FE_COMMIT (R76). -/
def feCommitWrite (src : BusSource) (c : PortId) (next withExposure : Bool) (m : Module) : Module :=
  m.accessWrite src (FE_COMMIT c) 4 (FE_COMMIT_commit.put (FE_COMMIT_next.put (FE_COMMIT_with_exposure.put 0 withExposure.toNat) next.toNat) 1)

/-- FE_TBL_DATA_ACCESS (R107). -/
def feTblDataAccess (src : BusSource) (c : PortId) (write : Option Word) (m : Module) : Module :=
  match write with
  | some v => m.accessWrite src (FE_TBL_DATA c) 4 v
  | none => m.accessRead src (FE_TBL_DATA c) 4

/-- HIST_RESET_WRITE (R126). -/
def histResetWrite (src : BusSource) (c : PortId) (m : Module) : Module :=
  m.accessWrite src (NIS_HIST_CTL c) 4 (NIS_HIST_CTL_reset.put 0 1)

/-- NIS_TBL_DATA_ACCESS (R137). -/
def nisTblDataAccess (src : BusSource) (c : PortId) (write : Option Word) (m : Module) : Module :=
  match write with
  | some v => m.accessWrite src (NIS_TBL_DATA c) 4 v
  | none => m.accessRead src (NIS_TBL_DATA c) 4

/-- OUTPUT_RESUME (R135). -/
def outputResume (src : BusSource) (c : PortId) (k : Fin 4) (m : Module) : Module :=
  m.accessWrite src (NIS_OUT_CTL c k) 4 (NIS_OUT_CTL_resume.put 0 1)

/-- CAL_START: a write of CAL_CTX_CTL with start set (R141). -/
def calStartWrite (src : BusSource) (c : PortId) (ctl : Word) (m : Module) : Module :=
  if CAL_CTX_CTL_start.of ctl = 1 then m.accessWrite src (CAL_CTX_CTL c) 4 ctl else m

/-- CAL_ABORT (R155). -/
def calAbortWrite (src : BusSource) (c : PortId) (m : Module) : Module :=
  m.accessWrite src (CAL_CTX_CTL c) 4 (CAL_CTX_CTL_abort.put 0 1)

/-- CAL_STORE (R157). -/
def calStoreWrite (src : BusSource) (c : PortId) (m : Module) : Module :=
  m.accessWrite src (CAL_CTX_CTL c) 4 (CAL_CTX_CTL_store.put 0 1)

/-- CAL_CNT_CLR (R160). -/
def calCntClr (src : BusSource) (c : PortId) (mask : Word) (m : Module) : Module :=
  m.accessWrite src (CAL_CNT_CLR c) 4 mask

/-- ENG_X_CNT_CLR (R192). -/
def engXCntClr (src : BusSource) (e : EngPos) (mask : Word) (m : Module) : Module :=
  m.accessWrite src (ENG_X_CNT_CLR e.cl e.x) 4 mask

/-- SPM_ST_CNT_CLR (R297). -/
def spmStCntClr (src : BusSource) (stack : Fin 8) (mask : Word) (m : Module) : Module :=
  m.accessWrite src (SPM_ST_CNT_CLR stack) 4 mask

/-- SYN_CNT_CLR (R314). -/
def synCntClr (src : BusSource) (mask : Word) (m : Module) : Module :=
  m.accessWrite src (SYN_CNT_CLR) 4 mask

/-- DMA_RETRY (R336). -/
def dmaRetry (src : BusSource) (ch : Fin 64) (m : Module) : Module :=
  m.accessWrite src (DMA_CH_CTL ch) 4 1

/-- DMA_SKIP (R336). -/
def dmaSkip (src : BusSource) (ch : Fin 64) (m : Module) : Module :=
  m.accessWrite src (DMA_CH_CTL ch) 4 2

/-- DMA_ABORT (R336). -/
def dmaAbort (src : BusSource) (ch : Fin 64) (m : Module) : Module :=
  m.accessWrite src (DMA_CH_CTL ch) 4 3

/-- MODE_CHANGE_REQUEST (R370). -/
def modeChangeRequest (src : BusSource) (mode : Fin 4) (m : Module) : Module :=
  m.accessWrite src (PWR_MODE) 4 (PWR_MODE_request.put 0 mode.val)

/-- SYS_ADM_CNT_CLR (R374). -/
def sysAdmCntClr (src : BusSource) (mask : Word) (m : Module) : Module :=
  m.accessWrite src (SYS_ADM_CNT_CLR) 4 mask

/-- WINDOW_OPEN: a write of YWP_EXP_CTL with open set (R427). -/
def windowOpen (src : BusSource) (n : Fin 256) (ctl : Word) (m : Module) : Module :=
  if YWP_EXP_CTL_open.of ctl = 1 then m.accessWrite src (YWP_EXP_CTL n) 4 ctl else m

/-- WINDOW_CLOSE: a write of YWP_EXP_CTL with open clear (R428). -/
def windowClose (src : BusSource) (n : Fin 256) (ctl : Word) (m : Module) : Module :=
  if YWP_EXP_CTL_open.of ctl = 0 then m.accessWrite src (YWP_EXP_CTL n) 4 ctl else m

/-- TALKER_CONFIG_WRITE: a write of one of the four NET_TLK_ registers of a talker (R424). -/
def talkerConfigWrite (src : BusSource) (t : Fin 144) (reg : Fin 4) (value : Word) (m : Module) : Module :=
  m.accessWrite src (NET_TLK_DMAC_LO t + 4 * reg.val) 4 value

/-- NET_TIME_SNAPSHOT (R440). -/
def netTimeSnapshot (src : BusSource) (m : Module) : Module :=
  m.accessRead src (NET_TIME_NS) 4

/-- NET_CNT_CLR (R440). -/
def netCntClr (src : BusSource) (port : Fin 2) (mask : Word) (m : Module) : Module :=
  m.accessWrite src (NET_CNT_CLR port) 4 mask

/-- YWP_CNT_CLR (R441). -/
def ywpCntClr (src : BusSource) (mask : Word) (m : Module) : Module :=
  m.accessWrite src (YWP_CNT_CLR) 4 mask

/-- REQUEST_RUN: a write of PWR_STATE_REQ with target RUN (R454). -/
def requestRun (src : BusSource) (m : Module) : Module :=
  m.accessWrite src (PWR_STATE_REQ) 4 3

/-- REQUEST_IDLE: a write of PWR_STATE_REQ with target IDLE (R454). -/
def requestIdle (src : BusSource) (m : Module) : Module :=
  m.accessWrite src (PWR_STATE_REQ) 4 2

/-- REQUEST_STANDBY: a write of PWR_STATE_REQ with target STANDBY (R454). -/
def requestStandby (src : BusSource) (m : Module) : Module :=
  m.accessWrite src (PWR_STATE_REQ) 4 1

/-- REQUEST_OFF: a write of PWR_STATE_REQ with target OFF (R454). -/
def requestOff (src : BusSource) (m : Module) : Module :=
  m.accessWrite src (PWR_STATE_REQ) 4 0

/-- ENERGY_SNAPSHOT (R464). -/
def energySnapshot (src : BusSource) (m : Module) : Module :=
  m.accessRead src (PWR_ENERGY_LO) 4

/-- PWR_CNT_CLR (R464). -/
def pwrCntClr (src : BusSource) (mask : Word) (m : Module) : Module :=
  m.accessWrite src (PWR_CNT_CLR) 4 mask

/-- DBG_CNT_CLR (R492). -/
def dbgCntClr (src : BusSource) (mask : Word) (m : Module) : Module :=
  m.accessWrite src (DBG_CNT_CLR) 4 mask

/-- SYS_RESET (R496). -/
def sysResetWrite (src : BusSource) (value : Word) (m : Module) : Module :=
  m.accessWrite src (SYS_RESET) 4 value

/-- FLOG_INDEX_SELECT: a write of SYS_FLOG_IDX without clear (R510). -/
def flogIndexSelect (src : BusSource) (value : Word) (m : Module) : Module :=
  if SYS_FLOG_IDX_clear.of value = 0 then m.accessWrite src (SYS_FLOG_IDX) 4 value else m

/-- FLOG_CLEAR: a write of SYS_FLOG_IDX.clear (R510). -/
def flogClear (src : BusSource) (m : Module) : Module :=
  m.accessWrite src (SYS_FLOG_IDX) 4 (SYS_FLOG_IDX_clear.put 0 1)

/-- SYS_FLT_CNT_CLR (R509, R512). -/
def sysFltCntClr (src : BusSource) (mask : Word) (m : Module) : Module :=
  m.accessWrite src (SYS_FLT_CNT_CLR) 4 mask

def execRegisterWrite (src : BusSource) (off size : Nat) (value : Word) (s : State) := ok s (registerWrite src off size value s.toModule)
def execPortEnable (src : BusSource) (p : PortId) (cfg : Word) (s : State) := ok s (portEnable src p cfg s.toModule)
def execPortDisable (src : BusSource) (p : PortId) (cfg : Word) (s : State) := ok s (portDisable src p cfg s.toModule)
def execTrainStart (src : BusSource) (p : PortId) (s : State) := ok s (trainStart src p s.toModule)
def execTrainAbort (src : BusSource) (p : PortId) (s : State) := ok s (trainAbortWrite src p s.toModule)
def execTrigModeWrite (src : BusSource) (p : PortId) (cfg : Word) (s : State) := ok s (trigModeWrite src p cfg s.toModule)
def execSqPush (src : BusSource) (p : PortId) (s : State) := ok s (sqPushWrite src p s.toModule)
def execMeasSnapshot (src : BusSource) (p : PortId) (s : State) := ok s (measSnapshot src p s.toModule)
def execCapCntClr (src : BusSource) (p : PortId) (mask : Word) (s : State) := ok s (capCntClr src p mask s.toModule)
def execFeCommit (src : BusSource) (c : PortId) (next withExposure : Bool) (s : State) := ok s (feCommitWrite src c next withExposure s.toModule)
def execFeTblDataAccess (src : BusSource) (c : PortId) (write : Option Word) (s : State) := ok s (feTblDataAccess src c write s.toModule)
def execHistResetWrite (src : BusSource) (c : PortId) (s : State) := ok s (histResetWrite src c s.toModule)
def execNisTblDataAccess (src : BusSource) (c : PortId) (write : Option Word) (s : State) := ok s (nisTblDataAccess src c write s.toModule)
def execOutputResume (src : BusSource) (c : PortId) (k : Fin 4) (s : State) := ok s (outputResume src c k s.toModule)
def execCalStart (src : BusSource) (c : PortId) (ctl : Word) (s : State) := ok s (calStartWrite src c ctl s.toModule)
def execCalAbort (src : BusSource) (c : PortId) (s : State) := ok s (calAbortWrite src c s.toModule)
def execCalStore (src : BusSource) (c : PortId) (s : State) := ok s (calStoreWrite src c s.toModule)
def execCalCntClr (src : BusSource) (c : PortId) (mask : Word) (s : State) := ok s (calCntClr src c mask s.toModule)
def execEngXCntClr (src : BusSource) (e : EngPos) (mask : Word) (s : State) := ok s (engXCntClr src e mask s.toModule)
def execSpmStCntClr (src : BusSource) (stack : Fin 8) (mask : Word) (s : State) := ok s (spmStCntClr src stack mask s.toModule)
def execSynCntClr (src : BusSource) (mask : Word) (s : State) := ok s (synCntClr src mask s.toModule)
def execDmaRetry (src : BusSource) (ch : Fin 64) (s : State) := ok s (dmaRetry src ch s.toModule)
def execDmaSkip (src : BusSource) (ch : Fin 64) (s : State) := ok s (dmaSkip src ch s.toModule)
def execDmaAbort (src : BusSource) (ch : Fin 64) (s : State) := ok s (dmaAbort src ch s.toModule)
def execModeChangeRequest (src : BusSource) (mode : Fin 4) (s : State) := ok s (modeChangeRequest src mode s.toModule)
def execSysAdmCntClr (src : BusSource) (mask : Word) (s : State) := ok s (sysAdmCntClr src mask s.toModule)
def execWindowOpen (src : BusSource) (n : Fin 256) (ctl : Word) (s : State) := ok s (windowOpen src n ctl s.toModule)
def execWindowClose (src : BusSource) (n : Fin 256) (ctl : Word) (s : State) := ok s (windowClose src n ctl s.toModule)
def execTalkerConfigWrite (src : BusSource) (t : Fin 144) (reg : Fin 4) (value : Word) (s : State) := ok s (talkerConfigWrite src t reg value s.toModule)
def execNetTimeSnapshot (src : BusSource) (s : State) := ok s (netTimeSnapshot src s.toModule)
def execNetCntClr (src : BusSource) (port : Fin 2) (mask : Word) (s : State) := ok s (netCntClr src port mask s.toModule)
def execYwpCntClr (src : BusSource) (mask : Word) (s : State) := ok s (ywpCntClr src mask s.toModule)
def execRequestRun (src : BusSource) (s : State) := ok s (requestRun src s.toModule)
def execRequestIdle (src : BusSource) (s : State) := ok s (requestIdle src s.toModule)
def execRequestStandby (src : BusSource) (s : State) := ok s (requestStandby src s.toModule)
def execRequestOff (src : BusSource) (s : State) := ok s (requestOff src s.toModule)
def execEnergySnapshot (src : BusSource) (s : State) := ok s (energySnapshot src s.toModule)
def execPwrCntClr (src : BusSource) (mask : Word) (s : State) := ok s (pwrCntClr src mask s.toModule)
def execDbgCntClr (src : BusSource) (mask : Word) (s : State) := ok s (dbgCntClr src mask s.toModule)
def execSysReset (src : BusSource) (value : Word) (s : State) := ok s (sysResetWrite src value s.toModule)
def execFlogIndexSelect (src : BusSource) (value : Word) (s : State) := ok s (flogIndexSelect src value s.toModule)
def execFlogClear (src : BusSource) (s : State) := ok s (flogClear src s.toModule)
def execSysFltCntClr (src : BusSource) (mask : Word) (s : State) := ok s (sysFltCntClr src mask s.toModule)
def execRegAccess (m : Hdr) (payload : List Byte) (s : State) := ok s (regAccess m payload s.toModule)
def execRegRead (d : DbgHdr) (payload : List Byte) (s : State) := ok s (regRead d payload s.toModule)
def execRegWrite (d : DbgHdr) (payload : List Byte) (s : State) := ok s (regWrite d payload s.toModule)

end Sys2Proof.Machine
end

