-- ==== Sys2Proof/Machine/Sync.lean ====
section
/-!
DEFINITION. The SYNC_OP command and the host WAITs (10_sync_objects).
-/
namespace Sys2Proof.Machine

/-- SIGNAL, ADD and RESET of a session: refused for a number above 8 191, discarded and refused for a plan-owned object,
otherwise applied and completed with OK (R300, R308). -/
def syncUpdate (obj : W16) (f : Word → Word) (c : CmdRef) (m : Module) : Module :=
  if 8192 ≤ obj.toNat then m.complete c stRefused 0
  else if m.owned obj.toNat then (m.count SYN_CNT_REFUSED 1).complete c stRefused 0
  else (m.setSync obj.toNat (f (m.sync obj.toNat))).complete c stOk 0

/-- SYNC_OP SIGNAL adds 1 (R298). -/
def syncOpSignal (h : CmdHdr) (obj : W16) (m : Module) : Module :=
  m.command h 0x0B (entryHas [(8, 2, obj.toNat), (10, 1, 0)]) (syncUpdate obj (· + 1))

/-- SYNC_OP ADD adds a value (R298). -/
def syncOpAdd (h : CmdHdr) (obj : W16) (value : Word) (m : Module) : Module :=
  m.command h 0x0B (entryHas [(8, 2, obj.toNat), (10, 1, 1), (12, 4, value.toNat)]) (syncUpdate obj (· + value))

/-- SYNC_OP RESET sets a value (R298, R303). -/
def syncOpReset (h : CmdHdr) (obj : W16) (value : Word) (m : Module) : Module :=
  m.command h 0x0B (entryHas [(8, 2, obj.toNat), (10, 1, 2), (12, 4, value.toNat)]) (syncUpdate obj fun _ => value)

/-- The outstanding host WAITs, as SYN_STAT reports them (R301, R314). -/
def Module.setWaits (m : Module) (l : List HostWait) : Module :=
  { m with hostWaits := l }.setFld SYN_STAT SYN_STAT_host_waits l.length

/-- SYNC_OP WAIT: refused for a bad object or a timeout of 0 (R300); an object that meets the threshold completes it at
once (R302); at 512 outstanding waits BUSY (R301); otherwise it waits. -/
def syncWaitStart (obj : W16) (threshold timeout : Word) (c : CmdRef) (m : Module) : Module :=
  if 8192 ≤ obj.toNat ∨ timeout = 0 then m.complete c stRefused 0
  else if meets (m.sync obj.toNat) threshold then m.complete c stOk 0
  else if 512 ≤ m.hostWaits.length then m.complete c stBusy 0
  else m.setWaits (m.hostWaits ++ [⟨c.session, c.tag, obj.toNat, threshold⟩])

/-- SYNC_OP WAIT (R300). -/
def syncOpWait (h : CmdHdr) (obj : W16) (threshold timeout : Word) (m : Module) : Module :=
  m.command h 0x0B (entryHas [(8, 2, obj.toNat), (10, 1, 3), (16, 4, threshold.toNat), (20, 4, timeout.toNat)])
    (syncWaitStart obj threshold timeout)

/-- The host WAIT of a session with a tag. -/
def Module.hostWait? (m : Module) (session : Fin 256) (tag : Word) : Option HostWait :=
  m.hostWaits.find? fun w => w.session = session ∧ w.tag = tag

/-- The command a host WAIT came from. -/
def Module.waitCmd (m : Module) (w : HostWait) : CmdRef :=
  ⟨w.session, ((m.sessions.find? w.session.val).map (·.gen)).getD 0, w.tag, 0x0B⟩

/-- A host WAIT whose object meets its threshold completes with OK (R300, R302). -/
def syncWaitMet (session : Fin 256) (tag : Word) (m : Module) : Module :=
  match m.hostWait? session tag with
  | none => m
  | some w =>
    if meets (m.sync w.obj) w.thr then (m.setWaits (m.hostWaits.erase w)).complete (m.waitCmd w) stOk 0 else m

/-- A host WAIT that times out completes with WAIT_TIMEOUT; one that is met in the same cycle is met (R310). -/
def syncWaitTimeout (session : Fin 256) (tag : Word) (m : Module) : Module :=
  match m.hostWait? session tag with
  | none => m
  | some w =>
    if meets (m.sync w.obj) w.thr then m
    else ((m.setWaits (m.hostWaits.erase w)).count SYN_CNT_TIMEOUT 1).complete (m.waitCmd w) stWaitTimeout 0

def execSyncOpSignal (h : CmdHdr) (obj : W16) (s : State) := ok s (syncOpSignal h obj s.toModule)
def execSyncOpAdd (h : CmdHdr) (obj : W16) (value : Word) (s : State) := ok s (syncOpAdd h obj value s.toModule)
def execSyncOpReset (h : CmdHdr) (obj : W16) (value : Word) (s : State) := ok s (syncOpReset h obj value s.toModule)
def execSyncOpWait (h : CmdHdr) (obj : W16) (threshold timeout : Word) (s : State) :=
  ok s (syncOpWait h obj threshold timeout s.toModule)
def execSyncWaitMet (session : Fin 256) (tag : Word) (s : State) := ok s (syncWaitMet session tag s.toModule)
def execSyncWaitTimeout (session : Fin 256) (tag : Word) (s : State) := ok s (syncWaitTimeout session tag s.toModule)

end Sys2Proof.Machine
end

