-- ==== Sys2Proof/Machine/Dispatch.lean ====
section
/-! DEFINITION. The meaning of each command: one arm per constructor of Instr. -/
namespace Sys2Proof.Machine
open Sys2Proof

def exec (i : Instr) (s : State) : Host.Outcome State Fault Refusal :=
  match i with
  | .registerWrite src off size value => Sys2Proof.Machine.execRegisterWrite src off size value s
  | .portEnable src p cfg => Sys2Proof.Machine.execPortEnable src p cfg s
  | .portDisable src p cfg => Sys2Proof.Machine.execPortDisable src p cfg s
  | .rstLowExpiry p => Sys2Proof.Machine.execRstLowExpiry p s
  | .rstSettleExpiry p => Sys2Proof.Machine.execRstSettleExpiry p s
  | .frameStart p t tail => Sys2Proof.Machine.execFrameStart p t tail s
  | .frameEnd p t tail => Sys2Proof.Machine.execFrameEnd p t tail s
  | .portLineStart p t hblank tail => Sys2Proof.Machine.execPortLineStart p t hblank tail s
  | .portLineEnd p t pixels => Sys2Proof.Machine.execPortLineEnd p t pixels s
  | .pclkLossTimeout p t pixels => Sys2Proof.Machine.execPclkLossTimeout p t pixels s
  | .frameEndTimeout p t tail => Sys2Proof.Machine.execFrameEndTimeout p t tail s
  | .trainStart src p => Sys2Proof.Machine.execTrainStart src p s
  | .trainAbort src p => Sys2Proof.Machine.execTrainAbort src p s
  | .trainNoSignalTimeout p => Sys2Proof.Machine.execTrainNoSignalTimeout p s
  | .trainDone p sweep verify => Sys2Proof.Machine.execTrainDone p sweep verify s
  | .trigModeWrite src p cfg => Sys2Proof.Machine.execTrigModeWrite src p cfg s
  | .trigFreeRunPulse p => Sys2Proof.Machine.execTrigFreeRunPulse p s
  | .trigNetTimePulse p => Sys2Proof.Machine.execTrigNetTimePulse p s
  | .trigPulseEnd p => Sys2Proof.Machine.execTrigPulseEnd p s
  | .strobeEdge p => Sys2Proof.Machine.execStrobeEdge p s
  | .sqPush src p => Sys2Proof.Machine.execSqPush src p s
  | .sensorTransactionStart p => Sys2Proof.Machine.execSensorTransactionStart p s
  | .sensorTransactionDone p ack rdata => Sys2Proof.Machine.execSensorTransactionDone p ack rdata s
  | .sensorBusTimeout p => Sys2Proof.Machine.execSensorBusTimeout p s
  | .inBandInterrupt p => Sys2Proof.Machine.execInBandInterrupt p s
  | .measSnapshot src p => Sys2Proof.Machine.execMeasSnapshot src p s
  | .capCntClr src p mask => Sys2Proof.Machine.execCapCntClr src p mask s
  | .laneLineStart c => Sys2Proof.Machine.execLaneLineStart c s
  | .laneOutputLine c => Sys2Proof.Machine.execLaneOutputLine c s
  | .stripeReady c => Sys2Proof.Machine.execStripeReady c s
  | .feCommit src c next withExposure => Sys2Proof.Machine.execFeCommit src c next withExposure s
  | .feTblDataAccess src c write => Sys2Proof.Machine.execFeTblDataAccess src c write s
  | .statsRecordDone c => Sys2Proof.Machine.execStatsRecordDone c s
  | .aeUpdate c => Sys2Proof.Machine.execAeUpdate c s
  | .awbUpdate c => Sys2Proof.Machine.execAwbUpdate c s
  | .trimUpdate c => Sys2Proof.Machine.execTrimUpdate c s
  | .histResetWrite src c => Sys2Proof.Machine.execHistResetWrite src c s
  | .nisTblDataAccess src c write => Sys2Proof.Machine.execNisTblDataAccess src c write s
  | .outputResume src c k => Sys2Proof.Machine.execOutputResume src c k s
  | .calStart src c ctl => Sys2Proof.Machine.execCalStart src c ctl s
  | .calAbort src c => Sys2Proof.Machine.execCalAbort src c s
  | .calStore src c => Sys2Proof.Machine.execCalStore src c s
  | .calStoreDone c ok => Sys2Proof.Machine.execCalStoreDone c ok s
  | .calResultReady c => Sys2Proof.Machine.execCalResultReady c s
  | .calCntClr src c mask => Sys2Proof.Machine.execCalCntClr src c mask s
  | .taskStart cl logical task => Sys2Proof.Machine.execTaskStart cl logical task s
  | .engineNop e w => Sys2Proof.Machine.execEngineNop e w s
  | .endOp e w => Sys2Proof.Machine.execEndOp e w s
  | .loop e w => Sys2Proof.Machine.execLoop e w s
  | .setp e w => Sys2Proof.Machine.execSetp e w s
  | .alu e w => Sys2Proof.Machine.execAlu e w s
  | .ldp e w => Sys2Proof.Machine.execLdp e w s
  | .slot e w => Sys2Proof.Machine.execSlot e w s
  | .fetch e w errs => Sys2Proof.Machine.execFetch e w errs s
  | .tileArrived e queue => Sys2Proof.Machine.execTileArrived e queue s
  | .wload e w => Sys2Proof.Machine.execWload e w s
  | .mm e w => Sys2Proof.Machine.execMm e w s
  | .mmf e w => Sys2Proof.Machine.execMmf e w s
  | .rfu e w => Sys2Proof.Machine.execRfu e w s
  | .tload e w => Sys2Proof.Machine.execTload e w s
  | .wb e w => Sys2Proof.Machine.execWb e w s
  | .writeAcknowledged writer => Sys2Proof.Machine.execWriteAcknowledged writer s
  | .gate e w => Sys2Proof.Machine.execGate e w s
  | .swait e w => Sys2Proof.Machine.execSwait e w s
  | .swaitTimeout e => Sys2Proof.Machine.execSwaitTimeout e s
  | .ssig e w => Sys2Proof.Machine.execSsig e w s
  | .fence e w => Sys2Proof.Machine.execFence e w s
  | .conv2d e w => Sys2Proof.Machine.execConv2d e w s
  | .gemm e w => Sys2Proof.Machine.execGemm e w s
  | .pool e w => Sys2Proof.Machine.execPool e w s
  | .resize e w => Sys2Proof.Machine.execResize e w s
  | .eltwise e w => Sys2Proof.Machine.execEltwise e w s
  | .norm e w => Sys2Proof.Machine.execNorm e w s
  | .softmax e w => Sys2Proof.Machine.execSoftmax e w s
  | .attention e w => Sys2Proof.Machine.execAttention e w s
  | .libCopy e w => Sys2Proof.Machine.execLibCopy e w s
  | .argmax e w => Sys2Proof.Machine.execArgmax e w s
  | .topk e w => Sys2Proof.Machine.execTopk e w s
  | .nms e w => Sys2Proof.Machine.execNms e w s
  | .taskComplete e => Sys2Proof.Machine.execTaskComplete e s
  | .engineFaultDetected e check => Sys2Proof.Machine.execEngineFaultDetected e check s
  | .engineWatchdog e => Sys2Proof.Machine.execEngineWatchdog e s
  | .abortComplete e => Sys2Proof.Machine.execAbortComplete e s
  | .rerunStart e => Sys2Proof.Machine.execRerunStart e s
  | .residentSetLoad cl logical c stage => Sys2Proof.Machine.execResidentSetLoad cl logical c stage s
  | .rotationGroupExchange c stage => Sys2Proof.Machine.execRotationGroupExchange c stage s
  | .cancellationComplete e => Sys2Proof.Machine.execCancellationComplete e s
  | .rotationDue cl => Sys2Proof.Machine.execRotationDue cl s
  | .rotation cl => Sys2Proof.Machine.execRotation cl s
  | .rotationSkip cl => Sys2Proof.Machine.execRotationSkip cl s
  | .sweepDone e pass full => Sys2Proof.Machine.execSweepDone e pass full s
  | .engXCntClr src e mask => Sys2Proof.Machine.execEngXCntClr src e mask s
  | .alloc h memory kind stack size => Sys2Proof.Machine.execAlloc h memory kind stack size s
  | .free h region => Sys2Proof.Machine.execFree h region s
  | .releaseZeroFill region => Sys2Proof.Machine.execReleaseZeroFill region s
  | .releaseDone region => Sys2Proof.Machine.execReleaseDone region s
  | .fill h dst dstOff len pattern waitObj sigObj waitThr waitTimeout => Sys2Proof.Machine.execFill h dst dstOff len pattern waitObj sigObj waitThr waitTimeout s
  | .copy h dst srcRegion dstOff len srcOff waitObj sigObj waitThr waitTimeout => Sys2Proof.Machine.execCopy h dst srcRegion dstOff len srcOff waitObj sigObj waitThr waitTimeout s
  | .fillCopyWriteStart stack => Sys2Proof.Machine.execFillCopyWriteStart stack s
  | .fillCopyWaitTimeout stack => Sys2Proof.Machine.execFillCopyWaitTimeout stack s
  | .fillCopyDone stack => Sys2Proof.Machine.execFillCopyDone stack s
  | .narrowWrite addr bytes => Sys2Proof.Machine.execNarrowWrite addr bytes s
  | .gatherIdleFlush line => Sys2Proof.Machine.execGatherIdleFlush line s
  | .scrubVisit stack errs => Sys2Proof.Machine.execScrubVisit stack errs s
  | .stackZeroingDone stack => Sys2Proof.Machine.execStackZeroingDone stack s
  | .spmStCntClr src stack mask => Sys2Proof.Machine.execSpmStCntClr src stack mask s
  | .syncOpSignal h obj => Sys2Proof.Machine.execSyncOpSignal h obj s
  | .syncOpAdd h obj value => Sys2Proof.Machine.execSyncOpAdd h obj value s
  | .syncOpReset h obj value => Sys2Proof.Machine.execSyncOpReset h obj value s
  | .syncOpWait h obj threshold timeout => Sys2Proof.Machine.execSyncOpWait h obj threshold timeout s
  | .syncWaitMet session tag => Sys2Proof.Machine.execSyncWaitMet session tag s
  | .syncWaitTimeout session tag => Sys2Proof.Machine.execSyncWaitTimeout session tag s
  | .synCntClr src mask => Sys2Proof.Machine.execSynCntClr src mask s
  | .dramWckTrack ch => Sys2Proof.Machine.execDramWckTrack ch s
  | .dramZqCalibrate ch => Sys2Proof.Machine.execDramZqCalibrate ch s
  | .dramSlotAdvance ch used => Sys2Proof.Machine.execDramSlotAdvance ch used s
  | .dma h addr => Sys2Proof.Machine.execDma h addr s
  | .dmaDescriptorRun ch desc errs fill => Sys2Proof.Machine.execDmaDescriptorRun ch desc errs fill s
  | .dmaWaitMet ch errs fill => Sys2Proof.Machine.execDmaWaitMet ch errs fill s
  | .dmaWaitTimeout ch => Sys2Proof.Machine.execDmaWaitTimeout ch s
  | .dmaDescriptorDone ch => Sys2Proof.Machine.execDmaDescriptorDone ch s
  | .dmaPaceResume ch fill => Sys2Proof.Machine.execDmaPaceResume ch fill s
  | .dmaTransferFail ch => Sys2Proof.Machine.execDmaTransferFail ch s
  | .dmaHalted ch => Sys2Proof.Machine.execDmaHalted ch s
  | .dmaRetry src ch => Sys2Proof.Machine.execDmaRetry src ch s
  | .dmaSkip src ch => Sys2Proof.Machine.execDmaSkip src ch s
  | .dmaAbort src ch => Sys2Proof.Machine.execDmaAbort src ch s
  | .planChannelSkip ch => Sys2Proof.Machine.execPlanChannelSkip ch s
  | .clipFrameCopy c k => Sys2Proof.Machine.execClipFrameCopy c k s
  | .clipHeaderUpdate c k => Sys2Proof.Machine.execClipHeaderUpdate c k s
  | .freeze h region after => Sys2Proof.Machine.execFreeze h region after s
  | .thaw h region => Sys2Proof.Machine.execThaw h region s
  | .admitStream h setup report reportLen rec => Sys2Proof.Machine.execAdmitStream h setup report reportLen rec s
  | .admitComplete c => Sys2Proof.Machine.execAdmitComplete c s
  | .release h stream => Sys2Proof.Machine.execRelease h stream s
  | .releaseComplete c => Sys2Proof.Machine.execReleaseComplete c s
  | .deadlineMissed c subject frameIndex stripe lateness => Sys2Proof.Machine.execDeadlineMissed c subject frameIndex stripe lateness s
  | .deliveryCopy c j => Sys2Proof.Machine.execDeliveryCopy c j s
  | .resumeDelivery h stream delivery => Sys2Proof.Machine.execResumeDelivery h stream delivery s
  | .job h record rec => Sys2Proof.Machine.execJob h record rec s
  | .jobDispatch job stage task cl logical => Sys2Proof.Machine.execJobDispatch job stage task cl logical s
  | .jobPreempt e => Sys2Proof.Machine.execJobPreempt e s
  | .withdraw h jobTag => Sys2Proof.Machine.execWithdraw h jobTag s
  | .modeChangeRequest src mode => Sys2Proof.Machine.execModeChangeRequest src mode s
  | .modeReplanDone => Sys2Proof.Machine.execModeReplanDone s
  | .modeClockSwitch => Sys2Proof.Machine.execModeClockSwitch s
  | .modeChanged => Sys2Proof.Machine.execModeChanged s
  | .thermalCapUpdate => Sys2Proof.Machine.execThermalCapUpdate s
  | .planOverCap => Sys2Proof.Machine.execPlanOverCap s
  | .sysAdmCntClr src mask => Sys2Proof.Machine.execSysAdmCntClr src mask s
  | .ywpFrameDiscard port frame => Sys2Proof.Machine.execYwpFrameDiscard port frame s
  | .arpRequest port target sender => Sys2Proof.Machine.execArpRequest port target sender s
  | .netRxFrame port frame => Sys2Proof.Machine.execNetRxFrame port frame s
  | .attach m payload => Sys2Proof.Machine.execAttach m payload s
  | .attachServe probe => Sys2Proof.Machine.execAttachServe probe s
  | .detach m payload => Sys2Proof.Machine.execDetach m payload s
  | .keepalive m payload => Sys2Proof.Machine.execKeepalive m payload s
  | .sessionKeepaliveTimeout session => Sys2Proof.Machine.execSessionKeepaliveTimeout session s
  | .regAccess m payload => Sys2Proof.Machine.execRegAccess m payload s
  | .doorbell m payload => Sys2Proof.Machine.execDoorbell m payload s
  | .submissionEntryTake session entry => Sys2Proof.Machine.execSubmissionEntryTake session entry s
  | .nop h => Sys2Proof.Machine.execNop h s
  | .reservedOpcode h opcode => Sys2Proof.Machine.execReservedOpcode h opcode s
  | .loadPkg h region offset size => Sys2Proof.Machine.execLoadPkg h region offset size s
  | .unloadPkg h package => Sys2Proof.Machine.execUnloadPkg h package s
  | .setEvents h mask => Sys2Proof.Machine.execSetEvents h mask s
  | .completionWrite session => Sys2Proof.Machine.execCompletionWrite session s
  | .eventsLost session => Sys2Proof.Machine.execEventsLost session s
  | .notify session => Sys2Proof.Machine.execNotify session s
  | .journalRead m payload => Sys2Proof.Machine.execJournalRead m payload s
  | .wake m => Sys2Proof.Machine.execWake m s
  | .winWrite m payload => Sys2Proof.Machine.execWinWrite m payload s
  | .winRead m payload => Sys2Proof.Machine.execWinRead m payload s
  | .winSync m payload => Sys2Proof.Machine.execWinSync m payload s
  | .winCredit m payload => Sys2Proof.Machine.execWinCredit m payload s
  | .winBind m payload probes => Sys2Proof.Machine.execWinBind m payload probes s
  | .winUnbind m payload => Sys2Proof.Machine.execWinUnbind m payload s
  | .winRefresh m payload probes => Sys2Proof.Machine.execWinRefresh m payload probes s
  | .windowResponse m status data => Sys2Proof.Machine.execWindowResponse m status data s
  | .winRetryTimeout node session seq => Sys2Proof.Machine.execWinRetryTimeout node session seq s
  | .multicastResend w receiver => Sys2Proof.Machine.execMulticastResend w receiver s
  | .receiverDropped w receiver => Sys2Proof.Machine.execReceiverDropped w receiver s
  | .windowOpen src n ctl => Sys2Proof.Machine.execWindowOpen src n ctl s
  | .windowClose src n ctl => Sys2Proof.Machine.execWindowClose src n ctl s
  | .talkerConfigWrite src t reg value => Sys2Proof.Machine.execTalkerConfigWrite src t reg value s
  | .netTimeSnapshot src => Sys2Proof.Machine.execNetTimeSnapshot src s
  | .linkUp port fast => Sys2Proof.Machine.execLinkUp port fast s
  | .linkDown port => Sys2Proof.Machine.execLinkDown port s
  | .gptpSyncReceive port domain offsetNs => Sys2Proof.Machine.execGptpSyncReceive port domain offsetNs s
  | .gptpSyncTimeout port => Sys2Proof.Machine.execGptpSyncTimeout port s
  | .gptpHoldoverExpiry => Sys2Proof.Machine.execGptpHoldoverExpiry s
  | .gptpClockStep => Sys2Proof.Machine.execGptpClockStep s
  | .qbvCycleStart port => Sys2Proof.Machine.execQbvCycleStart port s
  | .planWindowOpen port c => Sys2Proof.Machine.execPlanWindowOpen port c s
  | .planWindowEnd port c => Sys2Proof.Machine.execPlanWindowEnd port c s
  | .netCntClr src port mask => Sys2Proof.Machine.execNetCntClr src port mask s
  | .ywpCntClr src mask => Sys2Proof.Machine.execYwpCntClr src mask s
  | .startCondition vinMv => Sys2Proof.Machine.execStartCondition vinMv s
  | .supplyLowEnter vinMv => Sys2Proof.Machine.execSupplyLowEnter vinMv s
  | .supplyHighEnter vinMv => Sys2Proof.Machine.execSupplyHighEnter vinMv s
  | .highVoltageTimeout vinMv => Sys2Proof.Machine.execHighVoltageTimeout vinMv s
  | .holdupEnter vinMv => Sys2Proof.Machine.execHoldupEnter vinMv s
  | .holdupReconnect vinMv => Sys2Proof.Machine.execHoldupReconnect vinMv s
  | .brownOut => Sys2Proof.Machine.execBrownOut s
  | .enOff => Sys2Proof.Machine.execEnOff s
  | .requestRun src => Sys2Proof.Machine.execRequestRun src s
  | .requestIdle src => Sys2Proof.Machine.execRequestIdle src s
  | .requestStandby src => Sys2Proof.Machine.execRequestStandby src s
  | .requestOff src => Sys2Proof.Machine.execRequestOff src s
  | .standbyDrainTimeout => Sys2Proof.Machine.execStandbyDrainTimeout s
  | .powerTransitionDone => Sys2Proof.Machine.execPowerTransitionDone s
  | .wakeReady => Sys2Proof.Machine.execWakeReady s
  | .autoIdleSample => Sys2Proof.Machine.execAutoIdleSample s
  | .powerSample vinMv iinMa rails => Sys2Proof.Machine.execPowerSample vinMv iinMa rails s
  | .coldPlateSample bp0 bp1 => Sys2Proof.Machine.execColdPlateSample bp0 bp1 s
  | .tempSensorCheck bp0 bp1 => Sys2Proof.Machine.execTempSensorCheck bp0 bp1 s
  | .thermalTrip => Sys2Proof.Machine.execThermalTrip s
  | .hardThermalTrip => Sys2Proof.Machine.execHardThermalTrip s
  | .energySnapshot src => Sys2Proof.Machine.execEnergySnapshot src s
  | .pwrCntClr src mask => Sys2Proof.Machine.execPwrCntClr src mask s
  | .status d => Sys2Proof.Machine.execStatus d s
  | .password d pw => Sys2Proof.Machine.execPassword d pw s
  | .challenge d level => Sys2Proof.Machine.execChallenge d level s
  | .response d level key signature => Sys2Proof.Machine.execResponse d level key signature s
  | .lock d => Sys2Proof.Machine.execLock d s
  | .regRead d payload => Sys2Proof.Machine.execRegRead d payload s
  | .regWrite d payload => Sys2Proof.Machine.execRegWrite d payload s
  | .memRead d addr len rec => Sys2Proof.Machine.execMemRead d addr len rec s
  | .memWrite d addr data => Sys2Proof.Machine.execMemWrite d addr data s
  | .syncReset d obj value => Sys2Proof.Machine.execSyncReset d obj value s
  | .halt d target => Sys2Proof.Machine.execHalt d target s
  | .resume d target => Sys2Proof.Machine.execResume d target s
  | .traceRead d start max => Sys2Proof.Machine.execTraceRead d start max s
  | .debugJournalRead d start max => Sys2Proof.Machine.execDebugJournalRead d start max s
  | .attest d nonce => Sys2Proof.Machine.execAttest d nonce s
  | .identity d => Sys2Proof.Machine.execIdentity d s
  | .provision d ownerHash salt pwHash floor => Sys2Proof.Machine.execProvision d ownerHash salt pwHash floor s
  | .lifecycle d target => Sys2Proof.Machine.execLifecycle d target s
  | .setPassword d salt hash => Sys2Proof.Machine.execSetPassword d salt hash s
  | .debugReservedOp d op => Sys2Proof.Machine.execDebugReservedOp d op s
  | .debugFrameDiscard frame => Sys2Proof.Machine.execDebugFrameDiscard frame s
  | .nonceExpiry => Sys2Proof.Machine.execNonceExpiry s
  | .backoffExpiry => Sys2Proof.Machine.execBackoffExpiry s
  | .zeroFillDone => Sys2Proof.Machine.execZeroFillDone s
  | .dbgCntClr src mask => Sys2Proof.Machine.execDbgCntClr src mask s
  | .sysReset src value => Sys2Proof.Machine.execSysReset src value s
  | .tapReset => Sys2Proof.Machine.execTapReset s
  | .dramTrainingDone recordOk dieTemp ms => Sys2Proof.Machine.execDramTrainingDone recordOk dieTemp ms s
  | .firmwareVerified a b => Sys2Proof.Machine.execFirmwareVerified a b s
  | .cpSelfTestDone cp0 cp1 settingsOk => Sys2Proof.Machine.execCpSelfTestDone cp0 cp1 settingsOk s
  | .bootReady => Sys2Proof.Machine.execBootReady s
  | .controlMismatch pair => Sys2Proof.Machine.execControlMismatch pair s
  | .controlWatchdog pair => Sys2Proof.Machine.execControlWatchdog pair s
  | .cpResumeDuties pair pass => Sys2Proof.Machine.execCpResumeDuties pair pass s
  | .stormCountClear => Sys2Proof.Machine.execStormCountClear s
  | .faultLogFlush ok => Sys2Proof.Machine.execFaultLogFlush ok s
  | .flogIndexSelect src value => Sys2Proof.Machine.execFlogIndexSelect src value s
  | .flogClear src => Sys2Proof.Machine.execFlogClear src s
  | .sysFltCntClr src mask => Sys2Proof.Machine.execSysFltCntClr src mask s
  | .supplyNormal vinMv => Sys2Proof.Machine.execSupplyNormal vinMv s
  | .supplyLost => Sys2Proof.Machine.execSupplyLost s
  | .perBankRefresh ch bank => Sys2Proof.Machine.execPerBankRefresh ch bank s
  | .preemptionVerification port ok => Sys2Proof.Machine.execPreemptionVerification port ok s
  | .sequenceRecoveryReset stream => Sys2Proof.Machine.execSequenceRecoveryReset stream s
  | .peerDelayMeasurement port delayNs => Sys2Proof.Machine.execPeerDelayMeasurement port delayNs s
  | .extest d instruction => Sys2Proof.Machine.execExtest d instruction s

end Sys2Proof.Machine
end

