-- ==== Sys2Proof/Safety.lean ====
section
/-!
DEFINITION. The words that claims about the module are stated in: the invariant of a state, what a command answers, the
conditions under which an access or a ring command executes, and what a report (an event, a completion, a journal entry,
an answer) may change beside a command's own effect.
-/
namespace Sys2Proof.Machine
open Sys2Proof

/-- The memory of the module is in its canonical form: addresses strictly rising, no byte listed that reads as zero
anyway. -/
def State.Inv (s : State) : Prop := Memory.wf s.mem = true

/-- The command answers a next state with the queue untouched, whose module meets `Q`. -/
def Answers (i : Instr) (s : State) (Q : Module → Prop) : Prop :=
  ∃ m : Module, exec i s = .next { s with toModule := m } ∧ Q m

/-- An access by `src` to the register at `off` is made and not turned away (R26, R28, R30, R471, R479): its path is open
for a read or a write, its domain is on, and the module has not failed its boot. -/
def Admits (s : State) (src : BusSource) (write : Bool) (off : Nat) : Prop :=
  s.boot ≠ .off ∧ s.boot ≠ .failure ∧ s.busGate src write off = .pass ∧ s.blockOn off = true

/-- A ring command of session `h.session` may start (R390, R392, R479): its session `x` is attached, the command is taken
with the operands and not started, a FENCE finds it the oldest, and the control pairs serve rings. -/
def Startable (s : State) (h : CmdHdr) (op : Nat) (operands : List Byte → Bool) (x : Session) : Prop :=
  s.boot ≠ .off ∧ s.sessions.find? h.session.val = some x ∧
    canStart x.taken h.tag (BitVec.ofNat 8 op) operands = true ∧
    s.cpHalted = false ∧ s.fullFill = none

/-- The same for a command that needs RUN (R458): the module is in RUN and no move is in progress. -/
def StartableRun (s : State) (h : CmdHdr) (op : Nat) (operands : List Byte → Bool) (x : Session) : Prop :=
  Startable s h op operands x ∧ s.power = 3 ∧ s.moving = false

/-- The command of session `x` has completed with this status and result (R397 to R399): its entry is written to the
completion ring by one window write when a place is free and the control pairs serve rings (R479), and waits in order
otherwise. -/
def Completes (m : Module) (h : CmdHdr) (op : Nat) (x : Session) (status result : Nat) : Prop :=
  ∃ y, m.sessions.find? h.session.val = some y ∧
    if cqRoom x = true ∧ m.cpHalted = false then
      y.cqTail = x.cqTail + 1 ∧ ∃ w ∈ m.winOut, w.use = .completion h.session ∧
        w.msg.payload = winWritePayload x.ringWindow.toNat x.ringGen.toNat 0 0 0
          (x.cqOff + x.cqTail.toNat % x.cqN * 16)
          (complBytes ⟨h.tag, BitVec.ofNat 8 status, false, BitVec.ofNat 8 op, BitVec.ofNat 64 result⟩
            (phaseBit x.cqTail x.cqN))
    else y.cqTail = x.cqTail ∧
      ⟨h.tag, BitVec.ofNat 8 status, false, BitVec.ofNat 8 op, BitVec.ofNat 64 result⟩ ∈ y.cqWait

/-- The command is being carried out and will complete later: it has started and stays among the session's commands. -/
def Underway (m : Module) (h : CmdHdr) (op : Nat) : Prop :=
  ∃ y, m.sessions.find? h.session.val = some y ∧
    ∃ t ∈ y.taken, t.tag = h.tag ∧ t.opcode = BitVec.ofNat 8 op ∧ t.started = true

/-- An event with this code, context and fields is the last that has been made (R401, R402): the EVENTS_LOST entries that
are due are made before it (R405). -/
def Raised (m : Module) (code ctx p0 p1 p2 p3 : Nat) : Prop :=
  ∃ e, m.trace.getLast? = some e ∧ e.code = BitVec.ofNat 16 code ∧ e.ctx = BitVec.ofNat 8 ctx ∧
    e.p0 = BitVec.ofNat 16 p0 ∧ e.p1 = BitVec.ofNat 32 p1 ∧ e.p2 = BitVec.ofNat 32 p2 ∧ e.p3 = BitVec.ofNat 32 p3

/-- The module with everything erased that reporting may change: time and free draws, events and their trace, sessions'
rings and the messages to hosts, when each node was last told NOT_READY, the change journal, the answer of the last
access, and the registers, whose frame is stated by offset. -/
def Module.core (m : Module) : Module :=
  { m with
    regs := [], now := 0, draws := 0, busStatus := 0, busValue := 0, outbox := [], evNext := 0, trace := []
    heldEvents := [], journal := [], sessions := [], winOut := [], flogPending := [], cbNext := []
    notReadyAt := [] }

/-- The registers that reporting may change: the event number, the journal's numbers, the fault counters. -/
def reportRegs : List Nat := [DBG_TRACE, JNL_NEXT, JNL_OLDEST] ++ (List.range 16).map SYS_FLT_CNT

/-- Beside reporting, nothing has changed but the registers listed, and whether a system reset has been announced. -/
def OnlyRegs (s : State) (m : Module) (offs : List Nat) : Prop :=
  (∀ off, off ∉ offs → off ∉ reportRegs → m.rd off = s.rd off) ∧
    { m.core with transition := none } = { s.toModule.core with transition := none }

/-- The fields of the register at `off` take the value (R526). -/
def takesWord (off : Nat) (v : Word) : Bool :=
  match findReg off with
  | some (r, _, _) => r.fields.all (·.takes v)
  | none => true

end Sys2Proof.Machine
end

