-- ==== Sys2Proof/Certificates/Slice0/Obligations.lean ====
section
/-!
DEFINITION. The statements about the model that are to be proved.
-/
open Sys2Proof Sys2Proof.Machine

/-! ### The machine as a whole -/

/-- A step with a command at the front of the queue is exec of that command on the state with the queue's rest. -/
def Obligations.StepRunsFrontCommand : Prop :=
  ∀ (c : Instr) (rest : List Instr) (s : State), s.pending = c :: rest → step s = exec c { s with pending := rest }

/-- Only taking a command changes the queue: with no command waiting a step answers the same state (the model's choice,
assumption log 1), and no command touches the commands that wait behind it, whatever it does to the rest of the
module. -/
def Obligations.OnlyStepsTouchTheQueue : Prop :=
  (∀ s : State, s.pending = [] → step s = .next s) ∧
  (∀ (c : Instr) (s t : State), exec c s = .next t → t.pending = s.pending)

/-- Every command answers a next state, but for the supply commands above the absolute rating of VIN (R520), which stop
with a fault of their own name; no command is refused. In OFF only the input stage works (R450): every command but the
start condition, the loss of EN and the loss of the supply leaves the state as it is. -/
def Obligations.CommandsComplete : Prop :=
  (∀ (c : Instr) (s : State), (∃ t, exec c s = .next t) ∨
      (exec c s = .fault .beyondRatings ∧ ∃ mv, 100000 < mv ∧
        (c = .startCondition mv ∨ c = .supplyLowEnter mv ∨ c = .supplyHighEnter mv ∨ c = .highVoltageTimeout mv ∨
          c = .holdupEnter mv ∨ c = .holdupReconnect mv ∨ c = .supplyNormal mv))) ∧
  (∀ (c : Instr) (s : State), s.boot = .off → (∀ mv, c ≠ .startCondition mv) → c ≠ .enOff → c ≠ .supplyLost →
      exec c s = .next s ∨ exec c s = .fault .beyondRatings)

/-- The state after reset is in the invariant: its memory lists nothing. -/
def Obligations.ResetMeetsInvariant : Prop := State.reset.Inv

/-- Every step that answers a next state keeps the memory in its canonical form, from every state that has it: addresses
strictly rising, and no byte listed that an unlisted address reads as. Equal memories are therefore equal data after any
command, whichever unit stored to them. -/
def Obligations.StepKeepsMemoryCanonical : Prop := ∀ s t : State, s.Inv → step s = .next t → t.Inv

/-- What has been burnt into one-time-programmable memory stays, across every command of any source, every power state
and every reset (R466, R470, R480): the device ID, the MAC addresses and the vendor's key hash never change, the life cycle
only goes forward and the rollback fuses only up; the owner's key hash, the policy floor and the identity key change only
by PROVISION, the life cycle only by PROVISION and LIFECYCLE, the passwords only by PROVISION and SET_PASSWORD. -/
def Obligations.OtpOnlyBurnsForward : Prop :=
  ∀ (c : Instr) (s t : State), exec c s = .next t →
    (t.otp.deviceId = s.otp.deviceId ∧ t.otp.vendorHash = s.otp.vendorHash ∧ t.otp.macA = s.otp.macA ∧
      t.otp.macB = s.otp.macB ∧ s.otp.lcNext ≤ t.otp.lcNext ∧ s.otp.fuses ≤ t.otp.fuses) ∧
    ((∀ d o a b f, c ≠ .provision d o a b f) →
      t.otp.ownerHash = s.otp.ownerHash ∧ t.otp.ownerWritten = s.otp.ownerWritten ∧ t.otp.floor = s.otp.floor ∧
        t.otp.identity = s.otp.identity ∧
      ((∀ d x, c ≠ .lifecycle d x) → t.otp.lcNext = s.otp.lcNext) ∧
      ((∀ d a b, c ≠ .setPassword d a b) → t.otp.passwords = s.otp.passwords))

/-- The state after a reset where the spec gives it: the identification and feature registers at their values (R34), every
camera port DISABLED with RST_N low (R45), the engine map the identity (R162), every sync object 0 (R298), the mode ASSURED
(R369), no session, stream, job, region or command, and the firmware about to be verified (R498). -/
def Obligations.ResetLeavesStatedValues : Prop :=
  let s := State.reset
  s.fld SYS_ID SYS_ID_part = 0x7236 ∧ s.fld SYS_FEAT_ENG SYS_FEAT_ENG_engines_physical = 136 ∧
    s.fld SYS_FEAT_ENG SYS_FEAT_ENG_engines_per_cluster = 17 ∧ s.fld SYS_FEAT_MEM SYS_FEAT_MEM_spm_mib = 512 ∧
    s.fld SYS_FEAT_MEM SYS_FEAT_MEM_dram_gib = 64 ∧ s.fld SYS_FEAT_IO SYS_FEAT_IO_ports = 36 ∧
    s.fld SYS_FEAT_IO SYS_FEAT_IO_sessions_max = 256 ∧ s.fld SYS_FEAT_CTL SYS_FEAT_CTL_sync_objects = 8192 ∧
    (∀ p : PortId, s.portState p = 0 ∧ (s.port p).rstHigh = false ∧ s.rd (CAP_CNT_SHORT_FRAME p) = 0) ∧
    (∀ (cl : Fin 8) (n : Fin 17), s.physOf cl n = n) ∧ (∀ o, s.sync o = 0) ∧ s.mode = 0 ∧
    s.sessions = [] ∧ s.streams = [] ∧ s.jobs = [] ∧ s.pending = [] ∧ s.regions = [] ∧ s.boot = .verifying

/-! ### Register accesses -/

/-- A counter-clear row has its effect: the access is answered OK, counter k of the `n` counters at `base` is zero where bit
k of the mask is set and as before where it is clear, and nothing else changes but what reporting may change. -/
def ClearsCounters (i : Instr) (s : State) (base n : Nat) (mask : Word) : Prop :=
  Answers i s fun m =>
    m.busStatus = 0 ∧ (∀ k < n, m.rd (base + 4 * k) = if mask.getLsbD k then 0 else s.rd (base + 4 * k)) ∧
    OnlyRegs s m ((List.range n).map fun k => base + 4 * k)

/-- The counter-clear registers (R9: WO, cleared by their mask): an admitted write answers OK, clears exactly the counters whose
mask bit is set and leaves every other register, memory and all other state alone. SYS_FLT_CNT_CLR clears fault counters,
which are report registers themselves. -/
def Obligations.CounterClearsComplete : Prop :=
  ∀ (src : BusSource) (mask : Word) (s : State),
    (∀ p : PortId, Admits s src true (CAP_CNT_CLR p) →
      ClearsCounters (.capCntClr src p mask) s (CAP_CNT_SHORT_FRAME p) 8 mask) ∧
    (∀ c : PortId, Admits s src true (CAL_CNT_CLR c) → ClearsCounters (.calCntClr src c mask) s (CAL_CNT_RUN c) 6 mask) ∧
    (∀ e : EngPos, Admits s src true (ENG_X_CNT_CLR e.cl e.x) →
      ClearsCounters (.engXCntClr src e mask) s (ENG_X_CNT_TASK e.cl e.x) 5 mask) ∧
    (∀ st : Fin 8, Admits s src true (SPM_ST_CNT_CLR st) →
      ClearsCounters (.spmStCntClr src st mask) s (SPM_ST_CE st) 3 mask) ∧
    (Admits s src true SYN_CNT_CLR → ClearsCounters (.synCntClr src mask) s SYN_CNT_TIMEOUT 2 mask) ∧
    (Admits s src true SYS_ADM_CNT_CLR → ClearsCounters (.sysAdmCntClr src mask) s SYS_ADM_CNT_REFUSED 4 mask) ∧
    (∀ p : Fin 2, Admits s src true (NET_CNT_CLR p) → ClearsCounters (.netCntClr src p mask) s (NET_CNT_RX_DROP p 0) 11 mask) ∧
    (Admits s src true YWP_CNT_CLR → ClearsCounters (.ywpCntClr src mask) s YWP_CNT_CLOSED 4 mask) ∧
    (Admits s src true PWR_CNT_CLR → ClearsCounters (.pwrCntClr src mask) s PWR_CNT_HOLDUP 3 mask) ∧
    (Admits s src true DBG_CNT_CLR → ClearsCounters (.dbgCntClr src mask) s DBG_CNT_FAIL 2 mask) ∧
    (Admits s src true SYS_FLT_CNT_CLR → ClearsCounters (.sysFltCntClr src mask) s (SYS_FLT_CNT 0) 16 mask)

/-- REGISTER_WRITE (R26, R526), with each of its outcomes. An access of another size than 4 bytes, one that is not aligned
and one to the reserved range end with BUS_ERROR; a domain that is off answers NOT_READY; none of these changes anything.
A value outside a field's range is refused and the register keeps its value; a value within the ranges is stored, and the
answer carries it. TRIG_PERIOD, YWP_EXP_OFS (of a closed window) and PWR_CFG stand for the registers that hold plain fields
alone. -/
def Obligations.RegisterWriteOutcomes : Prop :=
  ∀ (src : BusSource) (off size : Nat) (v : Word) (s : State), s.boot ≠ .off → s.boot ≠ .failure →
    s.busGate src true off = .pass →
    (size ≠ 4 ∨ off % 4 ≠ 0 ∨ 0x800000 ≤ off →
      Answers (.registerWrite src off size v) s fun m => m.busStatus = 10 ∧ OnlyRegs s m []) ∧
    (size = 4 → off % 4 = 0 → off < 0x800000 → s.blockOn off = false →
      Answers (.registerWrite src off size v) s fun m => m.busStatus = 1 ∧ OnlyRegs s m []) ∧
    (∀ p : PortId, off = CAP_TRIG_PERIOD p → size = 4 → s.blockOn off = true →
      Answers (.registerWrite src off size v) s fun m =>
        if 100000 ≤ v.toNat then m.busStatus = 0 ∧ m.busValue = v ∧ m.rd off = v ∧ OnlyRegs s m [off]
        else m.busStatus = 3 ∧ m.busValue = s.rd off ∧ OnlyRegs s m []) ∧
    (∀ n : Fin 256, off = YWP_EXP_OFS n → size = 4 → s.blockOn off = true →
      Answers (.registerWrite src off size v) s fun m =>
        if s.bit (YWP_EXP_CTL n) YWP_EXP_CTL_open then m.busStatus = 3 ∧ OnlyRegs s m []
        else m.busStatus = 0 ∧ m.busValue = v ∧ m.rd off = v ∧ OnlyRegs s m [off]) ∧
    (off = PWR_CFG → size = 4 →
      Answers (.registerWrite src off size v) s fun m =>
        m.busStatus = 0 ∧ m.fld off PWR_CFG_auto_idle_ms = PWR_CFG_auto_idle_ms.of v ∧
        m.bit off PWR_CFG_standby_spm = decide (PWR_CFG_standby_spm.of v = 1) ∧
        m.bit off PWR_CFG_auto_run = decide (PWR_CFG_auto_run.of v = 1) ∧ OnlyRegs s m [off])

/-- The registers whose read samples something (R53, R440, R464): MEAS_SNAPSHOT copies the measurements of the last frame
that has ended, NET_TIME_SNAPSHOT one instant of the 802.1AS clock into its four registers, ENERGY_SNAPSHOT the 64-bit
energy count; each answers the register that was read, and every other register and all other state stay. Table
accesses (R107, R137): FE_TBL_DATA reads and writes the word of the defect map, of a lens-shading channel or of the
tone table that the address register names, and moves the index on by one; an index beyond the table ends with
BUS_ERROR and changes nothing. A word that has been written reads back from its index. -/
def Obligations.SnapshotsAndTablesComplete : Prop :=
  (∀ (src : BusSource) (s : State),
      (∀ (p : PortId) (e : Meas), Admits s src false (CAP_MEAS_SEQ p) → (s.port p).meas = some e →
        Answers (.measSnapshot src p) s fun m =>
          m.busStatus = 0 ∧ m.busValue = e.frame.seq ∧ m.rd (CAP_MEAS_SEQ p) = e.frame.seq ∧
          m.rd (CAP_MEAS_PERIOD p) = BitVec.ofNat 32 (min e.frame.period 0xFFFFFFFF) ∧
          m.rd (CAP_MEAS_VBLANK p) = BitVec.ofNat 32 (min e.frame.vblank 0xFFFFFFFF) ∧
          OnlyRegs s m ([CAP_MEAS_SEQ p, CAP_MEAS_LINE p, CAP_MEAS_FRAME p, CAP_MEAS_PERIOD p, CAP_MEAS_LPERIOD p,
            CAP_MEAS_BLANK p, CAP_MEAS_VBLANK p] ++
            (List.range 4).flatMap fun i => [CAP_MEAS_STAMP_NS p i, CAP_MEAS_STAMP_SL p i, CAP_MEAS_STAMP_SH p i])) ∧
      (Admits s src false NET_TIME_NS →
        Answers (.netTimeSnapshot src) s fun m =>
          m.busStatus = 0 ∧ m.busValue = BitVec.ofNat 32 (m.ptp % 1000000000) ∧
          m.rd NET_TIME_NS = BitVec.ofNat 32 (m.ptp % 1000000000) ∧
          m.rd NET_TIME_SL = BitVec.ofNat 32 (m.ptp / 1000000000) ∧
          m.fld NET_TIME_SH NET_TIME_SH_s_hi = m.ptp / 1000000000 / 2 ^ 32 % 2 ^ 16 ∧
          m.bit NET_TIME_SH NET_TIME_SH_valid = s.timeValid ∧ OnlyRegs s m [NET_TIME_NS, NET_TIME_SL, NET_TIME_SH]) ∧
      (Admits s src false PWR_ENERGY_LO →
        Answers (.energySnapshot src) s fun m =>
          m.busStatus = 0 ∧ m.busValue = BitVec.ofNat 32 (s.energyPj / 1000000000) ∧
          m.rd PWR_ENERGY_HI = BitVec.ofNat 32 (s.energyPj / 1000000000 / 2 ^ 32) ∧ OnlyRegs s m [PWR_ENERGY_HI])) ∧
  (∀ (src : BusSource) (c : PortId) (v : Word) (s : State),
      (Admits s src true (FE_TBL_DATA c) → s.fld (FE_TBL_ADDR c) FE_TBL_ADDR_table = 0 →
        let i := s.fld (FE_TBL_ADDR c) FE_TBL_ADDR_index
        (i < 4096 → Answers (.feTblDataAccess src c (some v)) s fun m =>
          m.busStatus = 0 ∧ m.busValue = v ∧ SMap.get 0 (m.ctx c).dpc i = v ∧
          m.fld (FE_TBL_ADDR c) FE_TBL_ADDR_index = (i + 1) % 8192 ∧
          (∀ j, j ≠ i → SMap.get 0 (m.ctx c).dpc j = SMap.get 0 (s.ctx c).dpc j) ∧
          ∀ d : PortId, d ≠ c → m.ctx d = s.ctx d) ∧
        (4096 ≤ i → Answers (.feTblDataAccess src c (some v)) s fun m => m.busStatus = 10 ∧ OnlyRegs s m [])) ∧
      (Admits s src false (FE_TBL_DATA c) →
        let t := s.fld (FE_TBL_ADDR c) FE_TBL_ADDR_table
        let i := s.fld (FE_TBL_ADDR c) FE_TBL_ADDR_index
        1 ≤ t → t ≤ 4 → i < 413 → Answers (.feTblDataAccess src c none) s fun m =>
          m.busStatus = 0 ∧ m.busValue = SMap.get 0 (s.ctx c).lsc (512 * (t - 1) + i) ∧
          m.fld (FE_TBL_ADDR c) FE_TBL_ADDR_index = i + 1 ∧ OnlyRegs s m [FE_TBL_ADDR c]) ∧
      (Admits s src true (NIS_TBL_DATA c) → s.fld (NIS_TBL_ADDR c) NIS_TBL_ADDR_table = 0 →
        let i := s.fld (NIS_TBL_ADDR c) NIS_TBL_ADDR_index
        i ≤ 128 → Answers (.nisTblDataAccess src c (some v)) s fun m =>
          m.busStatus = 0 ∧ m.busValue = v ∧ SMap.get 0 (m.ctx c).tone i = v ∧
          m.fld (NIS_TBL_ADDR c) NIS_TBL_ADDR_index = i + 1) ∧
      (Admits s src false (NIS_TBL_DATA c) → s.fld (NIS_TBL_ADDR c) NIS_TBL_ADDR_table = 0 →
        let i := s.fld (NIS_TBL_ADDR c) NIS_TBL_ADDR_index
        i ≤ 128 → Answers (.nisTblDataAccess src c none) s fun m =>
          m.busStatus = 0 ∧ m.busValue = SMap.get 0 (s.ctx c).tone i ∧
          m.fld (NIS_TBL_ADDR c) NIS_TBL_ADDR_index = i + 1 ∧ OnlyRegs s m [NIS_TBL_ADDR c]))

/-! ### Camera ports (02_camera_ports) -/

/-- Enabling, training and disabling a port (R42 to R47): PORT_ENABLE takes a disabled port to RESETTING and clears its frame
numbers; RST_LOW_EXPIRY drives RST_N high; RST_SETTLE_EXPIRY then enters READY; TRAIN_START takes READY to TRAINING, which
TRAIN_ABORT ends with ABORTED and its old taps, TRAIN_NO_SIGNAL_TIMEOUT with FAIL_NO_SIGNAL and TRAIN_DONE with its result, all
back to READY; PORT_DISABLE takes an enabled port that is not ACTIVE to DISABLED and is refused in ACTIVE. -/
def Obligations.PortLifeCompletes : Prop :=
  ∀ (src : BusSource) (p : PortId) (s : State), s.boot ≠ .off →
    (∀ cfg, Admits s src true (CAP_PORT_CFG p) → s.portState p = 0 → s.bit (CAP_PORT_CFG p) CAP_PORT_CFG_enable = false →
      takesWord (CAP_PORT_CFG p) cfg = true → CAP_PORT_CFG_enable.of cfg = 1 →
      (s.streams.find? p = none ∨ cfg = CAP_PORT_CFG_enable.put (s.rd (CAP_PORT_CFG p)) 1) →
      (CAP_PORT_CFG_ddr.of cfg = 1 → CAP_PORT_CFG_signalling.of cfg ≠ 0 ∧ (s.geom p).1 % 2 = 0) →
      Answers (.portEnable src p cfg) s fun m =>
        m.busStatus = 0 ∧ m.portState p = 1 ∧ SMap.get 0 m.seqNext p = 0 ∧ m.seqLast.find? p = none) ∧
    (s.portState p = 1 → Answers (.rstLowExpiry p) s fun m =>
      m = s.toModule.setPort p { s.port p with rstHigh := true }) ∧
    (s.portState p = 1 → (s.port p).rstHigh = true → Answers (.rstSettleExpiry p) s fun m =>
      m.portState p = 2 ∧ m.port p = { s.port p with trigFrom := m.now } ∧
      { m with regs := [], outbox := [], ports := [], now := 0, draws := 0 } =
        { s.toModule with regs := [], outbox := [], ports := [], now := 0, draws := 0 } ∧
      m.outbox = s.outbox ++ if s.fld (CAP_BUS_CFG p) CAP_BUS_CFG_protocol = 3 then
        [.sensor p 2 0x7E [0x06] [] 0, .sensor p 2 0x7E [0x01] [0x09] 0] else []) ∧
    (Admits s src true (CAP_TRAIN_CTL p) → Answers (.trainStart src p) s fun m =>
      if s.portState p = 2 then m.busStatus = 0 ∧ m.portState p = 3 ∧
        m.fld (CAP_TRAIN_STAT p) CAP_TRAIN_STAT_result = 1
      else m.busStatus = 3 ∧ OnlyRegs s m []) ∧
    (Admits s src true (CAP_TRAIN_CTL p) → s.portState p = 3 → Answers (.trainAbort src p) s fun m =>
      m.busStatus = 0 ∧ m.portState p = 2 ∧ m.fld (CAP_TRAIN_STAT p) CAP_TRAIN_STAT_result = 6 ∧
      (∀ k < 4, m.rd (CAP_DESKEW p k) = s.rd (CAP_DESKEW p k)) ∧ m.rd (CAP_DESKEW4 p) = s.rd (CAP_DESKEW4 p)) ∧
    (s.portState p = 3 → Answers (.trainNoSignalTimeout p) s fun m =>
      m.portState p = 2 ∧ m.fld (CAP_TRAIN_STAT p) CAP_TRAIN_STAT_result = 5 ∧
      (∀ k < 4, m.rd (CAP_DESKEW p k) = s.rd (CAP_DESKEW p k)) ∧ m.rd (CAP_DESKEW4 p) = s.rd (CAP_DESKEW4 p)) ∧
    (∀ sweep verify, s.portState p = 3 → sweep.length = 128 → (∀ px ∈ sweep, 4096 ≤ px.length) → verify.length = 65536 →
      let w := dataBits (s.fld (CAP_PORT_CFG p) CAP_PORT_CFG_width)
      let want := fun (odd : Bool) =>
        s.fld (CAP_TRAIN_PAT p) (if odd then CAP_TRAIN_PAT_pattern_b else CAP_TRAIN_PAT_pattern_a)
      let passes := fun (j : Nat) (px : List (Bool × W16)) => px.all fun x => x.2.getLsbD j = (want x.1).testBit j
      let table := (List.range w).map fun j => sweep.map fun px => passes j (px.take 4096)
      Answers (.trainDone p sweep verify) s fun m =>
        m.portState p = 2 ∧
        m.fld (CAP_TRAIN_STAT p) CAP_TRAIN_STAT_result =
          (if (trainSweep w table).1.isSome then 3
            else if (List.range w).all fun j => passes j (verify.take 65536) then 2 else 4) ∧
        m.fld (CAP_TRAIN_STAT p) CAP_TRAIN_STAT_min_eye = (trainSweep w table).2.2 ∧
        (m.fld (CAP_TRAIN_STAT p) CAP_TRAIN_STAT_result ≠ 2 → ∀ k < 4, m.rd (CAP_DESKEW p k) = s.rd (CAP_DESKEW p k))) ∧
    (∀ cfg, Admits s src true (CAP_PORT_CFG p) → cfg = CAP_PORT_CFG_enable.put (s.rd (CAP_PORT_CFG p)) 0 →
      takesWord (CAP_PORT_CFG p) cfg = true → s.bit (CAP_PORT_CFG p) CAP_PORT_CFG_enable = true →
      (CAP_PORT_CFG_ddr.of cfg = 1 → CAP_PORT_CFG_signalling.of cfg ≠ 0 ∧ (s.geom p).1 % 2 = 0) →
      Answers (.portDisable src p cfg) s fun m =>
        if s.portState p = 4 then m.busStatus = 3 ∧ OnlyRegs s m []
        else m.busStatus = 0 ∧ m.portState p = 0 ∧ (m.port p).rstHigh = false ∧ (m.port p).frame = none ∧
          (m.port p).queue = [] ∧ (m.port p).batches = [])

/-- The trigger (R56, R57, R59): a write of CAP_TRIG_CFG stores the mode; entering NET_TIME latches the start time and ends a
pulse; a pulse of a mode drives TRIG and its end returns it; a strobe edge is stamped on the frame being received while
the port is enabled for strobes. -/
def Obligations.TriggerAndStrobeComplete : Prop :=
  ∀ (src : BusSource) (p : PortId) (s : State), s.boot ≠ .off →
    (∀ cfg, Admits s src true (CAP_TRIG_CFG p) → takesWord (CAP_TRIG_CFG p) cfg = true → s.trigWidthBad p cfg = false →
      Answers (.trigModeWrite src p cfg) s fun m =>
        m.busStatus = 0 ∧ m.fld (CAP_TRIG_CFG p) CAP_TRIG_CFG_mode = CAP_TRIG_CFG_mode.of cfg ∧
        if CAP_TRIG_CFG_mode.of cfg = s.fld (CAP_TRIG_CFG p) CAP_TRIG_CFG_mode then m.port p = s.port p
        else (m.port p).trigHigh = false ∧ (m.port p).trigNet = none ∧ (m.port p).trigFrom = m.now ∧
          (CAP_TRIG_CFG_mode.of cfg = 2 → (m.port p).trigStart =
            ((s.rd (CAP_TRIG_START_SL p)).toNat + s.fld (CAP_TRIG_START_SH p) CAP_TRIG_START_SH_s_hi * 2 ^ 32) * 1000000000
              + (s.rd (CAP_TRIG_START_NS p)).toNat)) ∧
    (2 ≤ s.portState p → s.fld (CAP_TRIG_CFG p) CAP_TRIG_CFG_mode = 1 → Answers (.trigFreeRunPulse p) s fun m =>
      m = s.toModule.tick.setPort p { s.port p with trigHigh := true, trigLast := some s.toModule.tick.now }) ∧
    (2 ≤ s.portState p → s.fld (CAP_TRIG_CFG p) CAP_TRIG_CFG_mode = 2 → s.timeValid = true →
      let u := s.toModule.tick
      let x := s.port p
      let period := max 1 (s.rd (CAP_TRIG_PERIOD p)).toNat
      let last := x.trigStart + (u.ptp - x.trigStart) / period * period
      x.trigStart ≤ u.ptp → x.trigNet = none → (x.trigFrom : Int) + u.ptpOffset < (last : Int) →
      (∀ l, x.trigLast = some l → (l : Int) + u.ptpOffset + period ≤ (last : Int)) →
      Answers (.trigNetTimePulse p) s fun m =>
        (m.port p).trigHigh = true ∧ (m.port p).trigNet = some last ∧ last ≤ m.ptp ∧ m.ptp < last + period) ∧
    (∀ a, 2 ≤ s.portState p → s.fld (CAP_TRIG_CFG p) CAP_TRIG_CFG_mode = 2 → (s.port p).trigNet = some a →
      let u := s.toModule.tick
      let period := max 1 (s.rd (CAP_TRIG_PERIOD p)).toNat
      (s.port p).trigStart ≤ a → a + period ≤ u.ptp → (a - (s.port p).trigStart) % period = 0 →
      Answers (.trigNetTimePulse p) s fun m =>
        (m.port p).trigHigh = true ∧ ∃ b, (m.port p).trigNet = some b ∧ a < b ∧ b ≤ m.ptp ∧
          (b - (s.port p).trigStart) % period = 0) ∧
    (Answers (.trigPulseEnd p) s fun m => m = s.toModule.setPort p { s.port p with trigHigh := false }) ∧
    (∀ f, 2 ≤ s.portState p → s.bit (CAP_PORT_CFG p) CAP_PORT_CFG_strobe_en = true → (s.port p).frame = some f →
      Answers (.strobeEdge p) s fun m => ∃ st g, m = s.toModule.tick.setPort p { s.port p with frame := some g } ∧
        g = if f.strobes.length < 2 then { f with strobes := f.strobes ++ [st] } else f.flag flStrobeOvf)

/-- Receiving a frame (R39, R40, R48, R49, R54, R55): a frame start gives the frame the next number of the port and its start
time; a line start opens a line; a line end counts an active line, SHORT_LINES where it fell short; the frame end leaves the
frame as the measurement set; the timeouts close what was being received, and count SIGNAL_LOST. -/
def Obligations.FrameReceptionCompletes : Prop :=
  ∀ (p : PortId) (t : Nat) (tail : List W16) (s : State), s.boot ≠ .off →
    (2 ≤ s.portState p → Answers (.frameStart p t tail) s fun m =>
      SMap.get 0 m.seqNext p = SMap.get 0 s.seqNext p + 1 ∧ m.lastSeq p = SMap.get 0 s.seqNext p ∧
      ∃ f, (m.port p).frame = some f ∧ f.seq = SMap.get 0 s.seqNext p ∧ f.start = t ∧ f.lines = 0 ∧ f.open_ = none) ∧
    (∀ f hblank, (s.port p).frame = some f → f.open_ = none →
      Answers (.portLineStart p t hblank tail) s fun m =>
        ∃ g, (m.port p).frame = some g ∧ g.seq = f.seq ∧ g.lines = f.lines ∧ g.edges = f.edges + 1 ∧
          if s.bit (CAP_PORT_CFG p) CAP_PORT_CFG_vsync_mode = true ∧
            (f.edges + 1 < s.fld (CAP_GEOM_OFS p) CAP_GEOM_OFS_v_offset ∨ (s.geom p).2 ≤ f.lines) then
            g.open_ = none ∧ g.lineAt = f.lineAt
          else g.lineAt = some t ∧ g.open_.isSome) ∧
    (∀ f o, (s.port p).frame = some f → f.open_ = some o → f.lines < (s.geom p).2 → o.overrun = false →
      s.bit (CAP_PORT_CFG p) CAP_PORT_CFG_hsync_mode = false → Answers (.portLineEnd p t tail) s fun m =>
        ∃ g, (m.port p).frame = some g ∧ g.lines = f.lines + 1 ∧ g.open_ = none ∧
          g.flags = f.flags ||| (if tail.length < (s.geom p).1 then flShortLines
            else if (s.geom p).1 < tail.length then flLongLines else 0)) ∧
    (∀ f o, (s.port p).frame = some f → f.open_ = some o → f.lines < (s.geom p).2 → o.overrun = false →
      s.bit (CAP_PORT_CFG p) CAP_PORT_CFG_hsync_mode = true →
      let skip := s.fld (CAP_GEOM_OFS p) CAP_GEOM_OFS_h_offset * if s.bit (CAP_PORT_CFG p) CAP_PORT_CFG_ddr then 2 else 1
      Answers (.portLineEnd p t tail) s fun m =>
        if tail.length - skip < (s.geom p).1 then m = s.toModule
        else ∃ g, (m.port p).frame = some g ∧ g.lines = f.lines + 1 ∧ g.open_ = none ∧ g.flags = f.flags) ∧
    (∀ f, (s.port p).frame = some f → f.open_ = none → f.lines = (s.geom p).2 → Answers (.frameEnd p t tail) s fun m =>
      (m.port p).frame = none ∧ (m.port p).lastEnd = some t ∧
      ∃ e, (m.port p).meas = some e ∧ e.frame.seq = f.seq ∧ e.frame.flags = f.flags ||| (if 0 < f.extra then flLong else 0)) ∧
    (∀ f, (s.port p).frame = some f → f.open_.isSome → Answers (.pclkLossTimeout p t tail) s fun m =>
      (m.port p).frame = none ∧ (m.rd (CAP_CNT_SIGNAL_LOST p)).toNat = min ((s.rd (CAP_CNT_SIGNAL_LOST p)).toNat + 1) 0xFFFFFFFF ∧
      ∃ e, (m.port p).meas = some e ∧ e.frame.seq = f.seq) ∧
    (∀ f, (s.port p).frame = some f → s.portState p = 4 → f.start + 2 * (s.rd (CAP_FRAME_PERIOD p)).toNat ≤ t →
      Answers (.frameEndTimeout p t tail) s fun m =>
        (m.port p).frame = none ∧
        (m.rd (CAP_CNT_SIGNAL_LOST p)).toNat = min ((s.rd (CAP_CNT_SIGNAL_LOST p)).toNat + 1) 0xFFFFFFFF ∧
        ∃ e, (m.port p).meas = some e ∧ e.frame.seq = f.seq)

/-- The sensor bus (R61 to R64): a push queues the entry of CAP_SQ_W0 to CAP_SQ_W3; a transaction starts with the next entry of
the first released batch; an acknowledged one is done and a READ leaves its data; a failed try is made again while retries
are left, and the last is counted and reported; an in-band interrupt in I3C mode is counted. -/
def Obligations.SensorBusCompletes : Prop :=
  ∀ (src : BusSource) (p : PortId) (s : State), s.boot ≠ .off →
    (Admits s src true (CAP_SQ_PUSH p) → s.sqBad p = false → s.portState p ≠ 0 → (s.port p).fill < 256 →
      s.sqLate p (s.sqEntry p) = false → Answers (.sqPush src p) s fun m =>
        m.busStatus = 0 ∧ (m.port p).queue = (s.port p).queue ++ [s.sqEntry p]) ∧
    (∀ b r e es, 2 ≤ s.portState p → (s.port p).xfer = none → (s.port p).batches = b :: r → b.entries = e :: es →
      Answers (.sensorTransactionStart p) s fun m => (m.port p).xfer = some ⟨e, true, 0⟩ ∧
        m.outbox = s.outbox ++ [.sensor p e.op e.target e.address e.payload (if e.op = 1 then e.nbytes else 0)] ∧
        { m with ports := [], outbox := [] } = { s.toModule with ports := [], outbox := [] }) ∧
    (∀ x rdata, (s.port p).xfer = some x → x.inBatch = false → Answers (.sensorTransactionDone p true rdata) s fun m =>
      (m.port p).xfer = none ∧ (m.port p).batches = (s.port p).batches ∧
      (x.entry.op = 1 → m.rd (CAP_SQ_RDATA p) = BitVec.ofNat 32 (ofBe (rdata.take x.entry.nbytes)) ∧
        m.bit (CAP_SQ_STAT p) CAP_SQ_STAT_read_valid = true) ∧
      (x.entry.op ≠ 1 → m.rd (CAP_SQ_RDATA p) = s.rd (CAP_SQ_RDATA p))) ∧
    (∀ x, (s.port p).xfer = some x → x.tries < s.fld (CAP_BUS_CFG p) CAP_BUS_CFG_retries →
      Answers (.sensorBusTimeout p) s fun m => (m.port p).xfer = some { x with tries := x.tries + 1 } ∧
        m.outbox = s.outbox ++ [.sensor p x.entry.op x.entry.target x.entry.address x.entry.payload
          (if x.entry.op = 1 then x.entry.nbytes else 0)]) ∧
    (∀ e : SqEntry, e.address = (if e.op ≠ 2 ∧ e.reg16 then [BitVec.ofNat 8 (e.reg / 256), BitVec.ofNat 8 e.reg]
        else [BitVec.ofNat 8 e.reg]) ∧
      (e.op = 0 → e.nbytes ≤ 4 → e.payload.length = e.nbytes ∧ ofBe e.payload = e.data.toNat % 2 ^ (8 * e.nbytes))) ∧
    (∀ x, (s.port p).xfer = some x → s.fld (CAP_BUS_CFG p) CAP_BUS_CFG_retries ≤ x.tries → x.inBatch = false →
      Answers (.sensorBusTimeout p) s fun m => (m.port p).xfer = none ∧
        m.fld (CAP_SQ_STAT p) CAP_SQ_STAT_last_error = 2 ∧
        (m.rd (CAP_CNT_BUS_ERROR p)).toNat = min ((s.rd (CAP_CNT_BUS_ERROR p)).toNat + 1) 0xFFFFFFFF) ∧
    (2 ≤ s.portState p → s.fld (CAP_BUS_CFG p) CAP_BUS_CFG_protocol = 3 → Answers (.inBandInterrupt p) s fun m =>
      m = s.toModule.count (CAP_CNT_BUS_ERROR p) 1)

/-- What the events of a camera port leave alone: nothing but its port, its context, its calibration run and, at a frame start,
its frame numbers and its stream changes beside reports; no register of another block, no region, engine, DMA channel,
sync object, flash or OTP content, and no other port. Memory changes only where a calibration takes its buffer, so the
line, trigger and bus events leave every byte. -/
def Obligations.CameraEventsFrame : Prop :=
  ∀ (p : PortId) (c : Instr) (s t : State), exec c s = .next t →
    ((∃ a b, c = .frameStart p a b) ∨ (∃ a b, c = .frameEnd p a b) ∨ (∃ a b, c = .pclkLossTimeout p a b) ∨
        (∃ a b, c = .frameEndTimeout p a b) → 
      { t.toModule.core with ports := [], ctxs := [], cals := [], seqNext := [], seqLast := [], streams := [], mem := [],
                             gather := [], poison := [], ueSectors := [], latent := [] } =
        { s.toModule.core with ports := [], ctxs := [], cals := [], seqNext := [], seqLast := [], streams := [], mem := [],
                               gather := [], poison := [], ueSectors := [], latent := [] } ∧
      ∀ q, q ≠ p.val → t.port q = s.port q) ∧
    ((∃ a b d, c = .portLineStart p a b d) ∨ (∃ a b, c = .portLineEnd p a b) ∨ c = .strobeEdge p ∨ c = .rstLowExpiry p ∨
        c = .rstSettleExpiry p ∨ c = .trigFreeRunPulse p ∨ c = .trigNetTimePulse p ∨ c = .trigPulseEnd p ∨
        c = .sensorTransactionStart p ∨ (∃ a b, c = .sensorTransactionDone p a b) ∨ c = .sensorBusTimeout p ∨
        c = .inBandInterrupt p →
      { t.toModule.core with ports := [], ctxs := [] } = { s.toModule.core with ports := [], ctxs := [] } ∧
      (∀ a, t.byte a = s.byte a) ∧ ∀ q, q ≠ p.val → t.port q = s.port q)

/-! ### Contexts, the front end and calibration (03_contexts_front_end, 05_calibration) -/

/-- The lane of a resident context (R69, R73, R83, R110, R111): a line that enters counts in its lane, and the first of a
frame changes the bank; a crop line leaves the lane when the lines that its window needs are in; a stripe whose lines
are out adds one to its object, the last of a frame also to the frame object. No memory changes but by the line that
leaves. Statistics and the loops (R101 to R106): a finished record is what the loops take next, and its object
advances; AE takes it once and forms the next exposure set from it unless its flags tell it to skip; AWB moves its
loop gains a quarter of the way; the trim code follows the optical black by at most its step. The loops are firmware's and wait while the control pairs are halted (R479,
R506), as do the results of a calibration. A line and a record wait for a stack that is being zero filled (R296). -/
def Obligations.LaneAndLoopsComplete : Prop :=
  (∀ (c : PortId) (s : State), s.boot ≠ .off →
      (∀ f, s.resident c = true → (s.ctx c).frames.find? (fun f => f.passed < f.lines.length) = some f → (s.cal c).run = none →
        (∀ g ∈ (s.ctx c).frames, g.seq = f.seq → g = f) →
        Answers (.laneLineStart c) s fun m =>
          m.rd (FE_LANE_LINES (laneOf c (s.fld (FE_CTX_STAT c) FE_CTX_STAT_lane))) =
            s.rd (FE_LANE_LINES (laneOf c (s.fld (FE_CTX_STAT c) FE_CTX_STAT_lane))) + 1 ∧
          (f.passed = 0 → m.fld (FE_CTX_STAT c) FE_CTX_STAT_bank = (1 - s.fld (FE_CTX_STAT c) FE_CTX_STAT_bank) % 2) ∧
          (∀ g ∈ (m.ctx c).frames, g.seq = f.seq → g.passed = f.passed + 1) ∧
          ∀ a, m.byte a = s.byte a) ∧
      (∀ f, s.resident c = true → (s.streams.find? c.val).isSome →
        (s.ctx c).frames.find? (fun f => f.out.length < (s.stripes c).lines) = some f →
        (s.laneIn c f.set ((f.lines.take f.passed).map LaneLine.px)).due f.out.length ≤ f.passed →
        (∀ r, s.region? (s.rd (NIS_IN_REGION c)) = some r → s.slotBusy (s.stripes c) r.base f f.out.length = false) →
        Answers (.laneOutputLine c) s fun m => ∃ g ∈ (m.ctx c).frames, g.seq = f.seq ∧
          g.out = f.out ++ [(s.laneIn c f.set ((f.lines.take f.passed).map LaneLine.px)).cropLine f.out.length]) ∧
      (∀ f, (s.streams.find? c.val).isSome →
        (s.ctx c).frames.find? (fun f => f.signalled < (s.stripes c).count) = some f →
        (s.stripes c).need f.signalled ≤ f.out.length → Answers (.stripeReady c) s fun m =>
          let o := s.fld (NIS_IN_SYNC c) NIS_IN_SYNC_stripe_obj
          let fo := s.fld (NIS_IN_SYNC c) NIS_IN_SYNC_frame_obj
          (f.signalled + 1 = (s.stripes c).count ∧ s.bit (NIS_IN_SYNC c) NIS_IN_SYNC_frame_en = true →
            m.syncs = ((s.toModule.addSync o 1).addSync fo 1).syncs) ∧
          (¬ (f.signalled + 1 = (s.stripes c).count ∧ s.bit (NIS_IN_SYNC c) NIS_IN_SYNC_frame_en = true) →
            m.syncs = (s.toModule.addSync o 1).syncs) ∧
          m.mem = s.mem ∧ ∀ q, q ≠ c.val → m.ctx q = s.ctx q)) ∧
  (∀ (c : PortId) (s : State), s.boot ≠ .off →
      (∀ f e, (s.ctx c).frames.find? (fun f => !f.recorded) = some f → f.ended = some e →
        s.fld (FE_CROP_WH c) FE_CROP_WH_h ≤ f.out.length →
        (s.bit (FE_STAT_CFG c) FE_STAT_CFG_en = true → ∀ r, s.region? (s.rd (FE_STAT_DEST c)) = some r →
          s.spmBusy r.base r.size = false) → Answers (.statsRecordDone c) s fun m =>
          (∃ r, (m.ctx c).lastRec = some r ∧ r.seq = f.seq ∧ r.aeDone = false ∧ r.awbDone = false) ∧
          (s.bit (FE_STAT_CFG c) FE_STAT_CFG_en = true → s.bit (FE_STAT_CFG c) FE_STAT_CFG_sync_en = true →
            m.sync (s.fld (FE_STAT_CFG c) FE_STAT_CFG_sync_obj) = s.sync (s.fld (FE_STAT_CFG c) FE_STAT_CFG_sync_obj) + 1) ∧
          (s.bit (FE_STAT_CFG c) FE_STAT_CFG_en = false → m.mem = s.mem ∧ m.syncs = s.syncs)) ∧
      (∀ r, s.cpHalted = false → (s.ctx c).lastRec = some r → r.aeDone = false → s.bit (FE_EXP_CFG c) FE_EXP_CFG_ae_en = true →
        Answers (.aeUpdate c) s fun m =>
          (∃ r', (m.ctx c).lastRec = some r' ∧ r'.aeDone = true ∧ r'.seq = r.seq) ∧
          (aeSkips r.flags = true → (m.ctx c).aeNext = (s.ctx c).aeNext) ∧
          (aeSkips r.flags = false → ∃ v, (m.ctx c).aeNext = some v ∧
            1 ≤ v.lines ∧ v.lines ≤ max 1 ((s.ctx c).current.fld (FE_AE_CFG c) FE_AE_CFG_lines_max) ∧
            v.again ≤ max 1 ((s.ctx c).current.fld (FE_AE_GAIN c) FE_AE_GAIN_again_max) ∧
            v.dgain ≤ max 1 ((s.ctx c).current.fld (FE_AE_GAIN c) FE_AE_GAIN_dgain_max) ∧ v.trim = r.vals.trim) ∧
          { m with ctxs := [] } = { s.toModule with ctxs := [] }) ∧
      (∀ r g0 g1 g2, s.cpHalted = false → (s.ctx c).lastRec = some r → r.awbDone = false → s.bit (FE_EXP_CFG c) FE_EXP_CFG_awb_en = true →
        (s.ctx c).loopWb = [g0, g1, g2] → Answers (.awbUpdate c) s fun m =>
          (m.ctx c).loopWb = [awbStep g0 (awbTarget r.sums.2.1 r.sums.1), 4096, awbStep g2 (awbTarget r.sums.2.1 r.sums.2.2)] ∧
          { m with ctxs := [] } = { s.toModule with ctxs := [] }) ∧
      (∀ ob, s.cpHalted = false → (s.ctx c).trimDue = some ob → 0 < (s.ctx c).current.fld (FE_TRIM_CFG c) FE_TRIM_CFG_step →
        Answers (.trimUpdate c) s fun m =>
          (m.ctx c).trimDue = none ∧ (m.ctx c).trimNext = some (m.ctx c).trim ∧ (m.ctx c).trim ≤ 65535 ∧
          ((s.ctx c).trim ≤ 65535 →
            (m.ctx c).trim ≤ (s.ctx c).trim + (s.ctx c).current.fld (FE_TRIM_CFG c) FE_TRIM_CFG_max_step ∧
            (s.ctx c).trim ≤ (m.ctx c).trim + (s.ctx c).current.fld (FE_TRIM_CFG c) FE_TRIM_CFG_max_step) ∧
          { m with ctxs := [] } = { s.toModule with ctxs := [] }))

/-- Commits and the control writes of a context (R76, R126, R135): a commit that nothing refuses takes the shadow
registers for its target frame under the next psid; a commit that one refuses changes nothing but last_error; a history
reset is due at the next frame; a halted window destination is to go on from the next frame start. -/
def Obligations.ContextControlCompletes : Prop :=
  ∀ (src : BusSource) (c : PortId) (s : State),
    (∀ next we, Admits s src true (FE_COMMIT c) →
      let t := if next then s.earliestTarget c we else s.rd (FE_COMMIT_FRAME c)
      let set := s.shadowSet c ((s.ctx c).psid + 1)
      (s.commitError c t we set = none → Answers (.feCommit src c next we) s fun m =>
        m.busStatus = 0 ∧ (m.ctx c).pending = some ⟨t, set⟩ ∧ (m.ctx c).psid = (s.ctx c).psid + 1 ∧
        (m.ctx c).current = (s.ctx c).current ∧ m.rd (FE_COMMIT_PSID c) = (s.ctx c).psid + 1 ∧
        m.rd (FE_COMMIT_APPLY c) = t ∧ m.bit (FE_COMMIT_STAT c) FE_COMMIT_STAT_pending = true) ∧
      (∀ e, s.commitError c t we set = some e → Answers (.feCommit src c next we) s fun m =>
        m.busStatus = (if e = 5 then 1 else 3) ∧ m.fld (FE_COMMIT_STAT c) FE_COMMIT_STAT_last_error = e ∧
        OnlyRegs s m [FE_COMMIT_STAT c])) ∧
    (Admits s src true (NIS_HIST_CTL c) → Answers (.histResetWrite src c) s fun m =>
      m.busStatus = 0 ∧ (m.ctx c).histReset = true ∧ ∀ q, q ≠ c.val → m.ctx q = s.ctx q) ∧
    (∀ (k : Fin 4) x, Admits s src true (NIS_OUT_CTL c k) → s.bit (NIS_OUT_STAT c k) NIS_OUT_STAT_window_halted = true →
      s.streams.find? c.val = some x → Answers (.outputResume src c k) s fun m =>
        m.busStatus = 0 ∧ ∃ y, m.streams.find? c.val = some y ∧ k.val ∈ y.outResume ∧ y.setup = x.setup)

/-- Calibration (R140 to R157): a start that nothing refuses begins a run and counts it, a refused one reports why and counts
that; an abort ends the run with ABORTED; a store is made in the background and its end, good or bad, is reported: a good one
overwrites one of the two copies in flash and gives the start values, a bad one leaves both; a run whose region is gone
ends with BAD_REF; a result of a single run ends it as passed or as implausible. -/
def Obligations.CalibrationCompletes : Prop :=
  ∀ (src : BusSource) (c : PortId) (s : State), s.boot ≠ .off →
    (∀ ctl, Admits s src true (CAL_CTX_CTL c) → takesWord (CAL_CTX_CTL c) ctl = true → CAL_CTX_CTL_start.of ctl = 1 →
      CAL_CTX_CTL_abort.of ctl = 0 → CAL_CTX_CTL_store.of ctl = 0 → CAL_CTX_CTL_kind.of ctl ≤ 4 →
      let kind := CAL_CTX_CTL_kind.of ctl
      let region := CAL_CTX_CTL_source.of ctl = 1 && darkKind kind
      (s.calRefuse c kind (CAL_CTX_CTL_purpose.of ctl) region = none →
        (region = true → (s.calRef c).isSome) → (darkKind kind = true → region = false → (s.calBuf c).isSome) →
        Answers (.calStart src c ctl) s fun m =>
          m.busStatus = 0 ∧ (∃ r, (m.cal c).run = some r ∧ r.kind = kind ∧ r.purpose = CAL_CTX_CTL_purpose.of ctl ∧ r.usable = 0) ∧
          m.bit (CAL_CTX_STAT c) CAL_CTX_STAT_running = true ∧
          (m.rd (CAL_CNT_RUN c)).toNat = min ((s.rd (CAL_CNT_RUN c)).toNat + 1) 0xFFFFFFFF) ∧
      (∀ e, s.calRefuse c kind (CAL_CTX_CTL_purpose.of ctl) region = some e → Answers (.calStart src c ctl) s fun m =>
          m.busStatus = 3 ∧ (m.cal c).run = (s.cal c).run ∧
          (m.rd (CAL_CNT_REFUSED c)).toNat = min ((s.rd (CAL_CNT_REFUSED c)).toNat + 1) 0xFFFFFFFF ∧
          OnlyRegs s m [CAL_CTX_STAT c, CAL_CNT_REFUSED c])) ∧
    (∀ r, Admits s src true (CAL_CTX_CTL c) → (s.cal c).run = some r → Answers (.calAbort src c) s fun m =>
      m.busStatus = 0 ∧ (m.cal c).run = none ∧ m.bit (CAL_CTX_STAT c) CAL_CTX_STAT_running = false ∧
      m.fld (CAL_CTX_STAT c) CAL_CTX_STAT_last_error = calAborted ∧ m.flash = s.flash) ∧
    (Admits s src true (CAL_CTX_CTL c) → Answers (.calStore src c) s fun m =>
      m.busStatus = 0 ∧ (m.cal c).storing.isSome ∧ m.flash = s.flash) ∧
    (∀ r, (s.cal c).storing = some r → Answers (.calStoreDone c true) s fun m =>
      (m.cal c).storing = none ∧ m.fld CAL_FLASH_STAT CAL_FLASH_STAT_last = 1 ∧
      (∃ i, i < 2 ∧ m.flash.cal = s.flash.cal.insert (2 * c.val + i) r) ∧
      (m.ctx c).start = r.start ∧ (m.ctx c).startWb = r.startWb) ∧
    (∀ r, (s.cal c).storing = some r → Answers (.calStoreDone c false) s fun m =>
      (m.cal c).storing = none ∧ m.fld CAL_FLASH_STAT CAL_FLASH_STAT_last = 2 ∧ m.flash = s.flash ∧
      (m.rd (SYS_FLT_CNT 15)).toNat = min ((s.rd (SYS_FLT_CNT 15)).toNat + 1) 0xFFFFFFFF) ∧
    (∀ r, s.cpHalted = false → (s.cal c).run = some r → s.calReady c r = true → s.calNoRegion c r = true →
      Answers (.calResultReady c) s fun m =>
        (m.cal c).run = none ∧ m.fld (CAL_CTX_STAT c) CAL_CTX_STAT_last_error = calBadRef ∧ m.flash = s.flash ∧
        m.rd (CAL_CNT_PASS c) = s.rd (CAL_CNT_PASS c) ∧ m.mem = s.mem) ∧
    (∀ r, s.cpHalted = false → (s.cal c).run = some r → s.calReady c r = true → s.calNoRegion c r = false →
      r.purpose = 0 →
      Answers (.calResultReady c) s fun m =>
      (m.cal c).run = none ∧ m.flash = s.flash ∧
      (((m.rd (CAL_CNT_PASS c)).toNat = min ((s.rd (CAL_CNT_PASS c)).toNat + 1) 0xFFFFFFFF ∧
          m.rd (CAL_CNT_IMPLAUSIBLE c) = s.rd (CAL_CNT_IMPLAUSIBLE c)) ∨
        ((m.rd (CAL_CNT_IMPLAUSIBLE c)).toNat = min ((s.rd (CAL_CNT_IMPLAUSIBLE c)).toNat + 1) 0xFFFFFFFF ∧
          m.rd (CAL_CNT_PASS c) = s.rd (CAL_CNT_PASS c))))

/-! ### Engines and their programs (06_engines_arithmetic, 07_engine_programs, 08_streaming_tiling) -/

/-- The instruction word `i` with opcode `op` stands at the pc of walker `w` of the task `t` that runs on `e`, and that walker
may run it (R195, R241): it has not ended, the task is not being aborted, and a badger is not held at a gate. -/
def AtInstr (s : State) (e : EngPos) (w : Walker) (op : Nat) (t : EngTask) (i : Nat) : Prop :=
  s.boot ≠ .off ∧ (s.eng e).task = some t ∧ t.abort = none ∧ (t.walk w).ended = false ∧
    t.code[(t.walk w).pc]? = some i ∧ opnd i 0 1 = op ∧ (w = .badger → t.gateOpen = true)

/-- The command leaves the task `t'` on `e`, of which `Q` holds, and nothing else in the module changes: no other position, no
register, no memory, no sync object. -/
def TaskBecomes (c : Instr) (s : State) (e : EngPos) (Q : EngTask → Prop) : Prop :=
  Answers c s fun m => ∃ t', m = s.toModule.putTask e t' ∧ Q t'

/-- The same but for the sticky arithmetic flags of the position, of which none is lost. -/
def TaskBecomesArith (c : Instr) (s : State) (e : EngPos) (Q : EngTask → Prop) : Prop :=
  Answers c s fun m => ∃ t' fl, m = (s.toModule.arith e fl).putTask e t' ∧ Q t'

/-- The scalar and control instructions (R201 to R208, R294), for both walkers. NOP passes; END ends the walker; SETP, ALU and
LDP write their destination register alone (LDP of a poisoned word stops the task instead); SLOT binds an address program with
the registers of that moment; LOOP enters its body with counter 0, or passes over it when the count is 0. Each advances its walker alone and leaves the rest of the task,
and everything outside the position, as it was. -/
def Obligations.EngineScalarInstructionsComplete : Prop :=
  ∀ (e : EngPos) (w : Walker) (t : EngTask) (i : Nat) (s : State),
    let k := (t.walk w).leaveGate
    (AtInstr s e w 0 t i → TaskBecomes (.engineNop e w) s e fun t' => t' = t.setWalk w k.advance) ∧
    (AtInstr s e w 1 t i → TaskBecomes (.endOp e w) s e fun t' => (t'.walk w).ended = true ∧
      (w = .badger → t' = t.setWalk w { k with ended := true }) ∧
      (w = .execute → t'.qa = [] ∧ t'.qb = [] ∧ t'.qx = [] ∧ t'.badger = t.badger ∧ t'.acc = t.acc)) ∧
    (AtInstr s e w 3 t i → k.regs.length = 16 → opnd i 2 1 < 16 → TaskBecomes (.setp e w) s e fun t' =>
      ∃ k' : WalkerSt, t' = t.setWalk w k'.advance ∧ k'.reg (opnd i 2 1) = BitVec.ofNat 32 (opnd i 4 4) ∧
        (∀ r, r ≠ opnd i 2 1 → k'.reg r = k.reg r) ∧ { k' with regs := [] } = { k with regs := [] }) ∧
    (AtInstr s e w 5 t i → s.latent = [] → s.badIn (t.args + opnd i 4 2) 4 ≠ [] →
      s.spmBusy (t.args + opnd i 4 2) 4 = false → Answers (.ldp e w) s fun m =>
      ∃ t', (m.eng e).task = some t' ∧ (t'.abort.map (·.status)) = some 5 ∧ t'.acc = [] ∧ m.mem = s.mem ∧ m.syncs = s.syncs) ∧
    (AtInstr s e w 5 t i → s.latent = [] → s.badIn (t.args + opnd i 4 2) 4 = [] →
      s.spmBusy (t.args + opnd i 4 2) 4 = false → k.regs.length = 16 → opnd i 2 1 < 16 →
      TaskBecomes (.ldp e w) s e fun t' =>
      ∃ k' : WalkerSt, t' = t.setWalk w k'.advance ∧
        k'.reg (opnd i 2 1) = BitVec.ofNat 32 (ofLe (s.bytes (t.args + opnd i 4 2) 4)) ∧
        (∀ r, r ≠ opnd i 2 1 → k'.reg r = k.reg r) ∧ { k' with regs := [] } = { k with regs := [] }) ∧
    (AtInstr s e w 6 t i → k.slots.length = 4 → opnd i 2 1 < 4 → TaskBecomes (.slot e w) s e fun t' =>
      ∃ k' : WalkerSt, t' = t.setWalk w k'.advance ∧
        k'.slots[opnd i 2 1]? = some ((t.aps[opnd i 4 2]?).map fun p => SlotBind.mk p k.regs) ∧
        (∀ r, r ≠ opnd i 2 1 → k'.slots[r]? = k.slots[r]?) ∧ { k' with slots := [] } = { k with slots := [] }) ∧
    (AtInstr s e w 2 t i → TaskBecomes (.loop e w) s e fun t' =>
      let n := if (opnd i 1 1).testBit 0 then (k.reg (opnd i 3 1)).toNat else opnd i 4 4
      (n = 0 → t' = t.setWalk w { k with pc := k.pc + opnd i 8 2 }.advance) ∧
      (n ≠ 0 → (t'.walk w).pc = k.pc + 1 ∧ ∃ l, (t'.walk w).loops = l :: k.loops ∧ l.level = opnd i 2 1 ∧ l.count = n ∧
        l.i = 0 ∧ l.top = k.pc + 1 ∧ l.last = k.pc + opnd i 8 2 ∧ (t'.walk w).regs = k.regs))

/-- R205: every ALU operation, in the arithmetic of numbers: the destination register takes the result modulo 2^32, the operands
being registers, loop counters (R203) or the immediate, and no other register changes. -/
def Obligations.AluOperationsWrap : Prop :=
  ∀ (e : EngPos) (w : Walker) (t : EngTask) (i : Nat) (s : State),
    let k := (t.walk w).leaveGate
    let a := k.source (opnd i 4 1)
    let b := if (opnd i 1 1).testBit 0 then BitVec.ofNat 32 (opnd i 8 4) else k.source (opnd i 5 1)
    AtInstr s e w 4 t i → k.regs.length = 16 → opnd i 3 1 < 16 → TaskBecomes (.alu e w) s e fun t' =>
      ∃ k' : WalkerSt, t' = t.setWalk w k'.advance ∧ (∀ r, r ≠ opnd i 3 1 → k'.reg r = k.reg r) ∧
        { k' with regs := [] } = { k with regs := [] } ∧
        let d := k'.reg (opnd i 3 1)
        (opnd i 2 1 = 0 → d.toNat = (a.toNat + b.toNat) % 2 ^ 32) ∧
        (opnd i 2 1 = 1 → (d.toNat : Int) = ((a.toNat : Int) - b.toNat) % 2 ^ 32) ∧
        (opnd i 2 1 = 2 → d.toNat = a.toNat * b.toNat % 2 ^ 32) ∧
        (opnd i 2 1 = 3 → d.toNat = a.toNat * 2 ^ (b.toNat % 32) % 2 ^ 32) ∧
        (opnd i 2 1 = 4 → d.toNat = a.toNat / 2 ^ (b.toNat % 32)) ∧
        (opnd i 2 1 = 5 → d.toInt = a.toInt / 2 ^ (b.toNat % 32)) ∧
        (opnd i 2 1 = 6 → ∀ j, d.getLsbD j = (a.getLsbD j && b.getLsbD j)) ∧
        (opnd i 2 1 = 7 → ∀ j, d.getLsbD j = (a.getLsbD j || b.getLsbD j)) ∧
        (opnd i 2 1 = 8 → d.toNat = min a.toNat b.toNat) ∧
        (opnd i 2 1 = 9 → d.toNat = max a.toNat b.toNat) ∧
        (opnd i 2 1 = 10 → d.toInt = min a.toInt b.toInt) ∧
        (opnd i 2 1 = 11 → d.toInt = max a.toInt b.toInt) ∧
        (opnd i 2 1 = 12 → d.toNat = if b = 0 then 0 else (a.toNat + b.toNat - 1) / b.toNat)

/-- The tile-consuming instructions (R196, R210 to R216, R219, R220): each takes the tile at the head of its queue when that
has arrived, computes, and advances the execute walker; the badger passes them. WLOAD fills the bank that the last MM did
not read; MM and MMF change accumulator rows of their range alone, and no column from n on; MMF waits for its A tile and takes
its blocks one by one before it computes; RFU pops its vectors and keeps to its rows; TLOAD fills one of the four tables. Nothing outside the position
changes but its sticky arithmetic flags. -/
def Obligations.EngineTileInstructionsComplete : Prop :=
  ∀ (e : EngPos) (t : EngTask) (i : Nat) (s : State),
    let k := t.exec.leaveGate
    (∀ x, AtInstr s e .execute 0x11 t i → (opnd i 1 1).testBit 0 = false → t.head 1 = some x →
      TaskBecomes (.wload e .execute) s e fun t' =>
        t'.exec = k.advance ∧ t'.qb = t.qb.drop 1 ∧ t'.qa = t.qa ∧ t'.qx = t.qx ∧ t'.acc = t.acc ∧
        (t.readBank = 0 → t'.bank1 = bankOfTile (opnd i 2 1) (opnd i 3 1) (opnd i 4 1) x ∧ t'.bank0 = t.bank0 ∧ t'.filled = 1) ∧
        (t.readBank ≠ 0 → t'.bank0 = bankOfTile (opnd i 2 1) (opnd i 3 1) (opnd i 4 1) x ∧ t'.bank1 = t.bank1 ∧
          t'.filled = 0)) ∧
    (∀ x r0, AtInstr s e .execute 0x12 t i → t.head 0 = some x →
      rowRange k (opnd i 10 2) (opnd i 13 1) (opnd i 4 2) = some r0 →
      TaskBecomesArith (.mm e .execute) s e fun t' =>
        t'.exec = k.advance ∧ t'.qa = t.qa.drop 1 ∧ t'.qb = t.qb ∧ t'.readBank = t.filled ∧
        (∀ r, r < r0 ∨ r0 + opnd i 4 2 ≤ r → t'.accRow r = t.accRow r) ∧
        (isInt (opnd i 2 1) = true → ∀ j c, j < opnd i 4 2 → c < 48 → opnd i 7 1 ≤ c → (t.accRow (r0 + j)).fp = false →
          (t.accRow (r0 + j)).cells.length = 48 → (t'.accRow (r0 + j)).cells[c]? = (t.accRow (r0 + j)).cells[c]?)) ∧
    (∀ b r0, AtInstr s e .execute 0x13 t i → rowRange k (opnd i 14 2) 0xFF (opnd i 8 2) = some r0 → t.head 1 = some b →
      (t.head 0).isSome → t.blocks = [] → 0 < opnd i 12 1 → 0 < opnd i 10 2 → 0 < kMax (opnd i 2 1) (opnd i 3 1) →
      TaskBecomes (.mmf e .execute) s e fun t' => t'.blocks = [b] ∧ t'.qb = t.qb.drop 1 ∧ t'.exec = t.exec ∧ t'.acc = t.acc) ∧
    (∀ x f r0, AtInstr s e .execute 0x13 t i → rowRange k (opnd i 14 2) 0xFF (opnd i 8 2) = some r0 →
      (opnd i 1 1).testBit 3 = false → t.head 0 = some x → t.head 2 = some f →
      (opnd i 12 1 + kMax (opnd i 2 1) (opnd i 3 1) - 1) / kMax (opnd i 2 1) (opnd i 3 1) * ((opnd i 10 2 + 47) / 48) +
        (opnd i 10 2 + kMax (opnd i 5 1) (opnd i 4 1) - 1) / kMax (opnd i 5 1) (opnd i 4 1) ≤ t.blocks.length →
      TaskBecomesArith (.mmf e .execute) s e fun t' =>
        t'.exec = k.advance ∧ t'.qa = t.qa.drop 1 ∧ t'.qx = t.qx.drop 1 ∧ t'.blocks = [] ∧ t'.keepF = some f ∧
        (∀ r, r < r0 ∨ r0 + opnd i 8 2 ≤ r → t'.accRow r = t.accRow r) ∧
        ∀ j c, j < opnd i 8 2 → c < 48 → opnd i 13 1 ≤ c → (t.accRow (r0 + j)).fp = true →
          (t.accRow (r0 + j)).cells.length = 48 → (t'.accRow (r0 + j)).cells[c]? = (t.accRow (r0 + j)).cells[c]?) ∧
    (AtInstr s e .execute 0x13 t i → (∃ r0, rowRange k (opnd i 14 2) 0xFF (opnd i 8 2) = some r0) → t.head 0 = none →
      exec (.mmf e .execute) s = .next s) ∧
    (∀ vy vz pops, AtInstr s e .execute 0x14 t i → opnd i 4 2 + opnd i 6 2 * opnd i 3 1 ≤ 512 →
      t.vectors ((opnd i 1 1).testBit 0) (opnd i 10 1 % 16 = 1) (opnd i 10 1 / 16 = 1) = some (vy, vz, pops) →
      TaskBecomesArith (.rfu e .execute) s e fun t' =>
        t'.exec = k.advance ∧ t'.qx = t.qx.drop pops ∧ t'.qa = t.qa ∧ t'.qb = t.qb ∧
        (opnd i 2 1 = 17 ∨ opnd i 2 1 = 18 ∨ opnd i 2 1 = 19 → t'.acc = t.acc)) ∧
    (∀ x, AtInstr s e .execute 0x15 t i → t.head 2 = some x → TaskBecomes (.tload e .execute) s e fun t' =>
      t'.exec = k.advance ∧ t'.qx = t.qx.drop 1 ∧ t'.tables = t.tables.insert (opnd i 2 1 % 4) x.words) ∧
    (AtInstr s e .badger 0x12 t i → TaskBecomes (.mm e .badger) s e fun t' =>
      t' = t.setWalk .badger t.badger.leaveGate.advance) ∧
    (∀ q : Fin 3, s.boot ≠ .off → (s.eng e).task = some t → (∀ x ∈ t.tiles, x.todo = []) → TaskBecomes (.tileArrived e ⟨q.val, by omega⟩) s e fun t' =>
      t'.queue q.val = arriveFirst (t.queue q.val) ∧ t'.exec = t.exec ∧ t'.badger = t.badger ∧ t'.acc = t.acc)

/-- Reads of some spans find no stack that is being zero filled and no bad word (R294, R296). -/
def Clear (s : State) (l : List (Nat × Nat)) : Prop :=
  s.latent = [] ∧ s.anyBusy l = false ∧ ∀ x ∈ l, s.badIn x.1 x.2 = []

/-- A read of `n` bytes at `a` that the engine may make and that brings them all: inside the access set, in SPM or DRAM, in no
stack that is being zero filled, with no bad word (R243, R265, R294, R296). -/
def ReadsWell (s : State) (t : EngTask) (a n : Nat) : Prop :=
  t.mayAccess false a n = true ∧ (s.spaceOf a = .spm ∨ s.spaceOf a = .dram) ∧ s.spmBusy a n = false ∧ s.badIn a n = []

/-- FETCH, WB and GATE, which touch memory (R210, R221, R222, R225, R239 to R243). A badger's FETCH waits while its queue holds
three tiles, six reads are outstanding or reads of an earlier tile wait to be issued; otherwise it adds one tile to its
queue, which, where its reads lie in memory of the access set, holds the bytes that they read; the execute walker passes
it. WB queues the write transfers of its rows while 16 are outstanding, and otherwise issues them in order: the walker
advances unless a transfer stops the task, which a task with an abort shows. GATE is a no-op in a task that does not run
gated; in one that does, the execute walker decides the row from words that it can read, counts it, and enters the body or passes
over it. Evaluating a slot reads the views that it names. -/
def Obligations.EngineMemoryInstructionsComplete : Prop :=
  ∀ (e : EngPos) (t : EngTask) (i : Nat) (errs : List MemErr) (s : State),
    let k := t.exec.leaveGate
    let kb := t.badger.leaveGate
    let q := opnd i 3 1
    (AtInstr s e .execute 0x10 t i → q < 3 → TaskBecomes (.fetch e .execute errs) s e fun t' =>
      t' = t.setWalk .execute k.advance) ∧
    (∀ b, AtInstr s e .badger 0x10 t i → q < 3 → kb.slots[opnd i 2 1]? = some (some b) →
      (3 ≤ (t.queue q).length ∨ 6 ≤ t.readsOut ∨ ∃ x ∈ t.tiles, x.todo ≠ []) →
      exec (.fetch e .badger errs) s = .next s) ∧
    (∀ b, AtInstr s e .badger 0x10 t i → q < 3 → (opnd i 1 1).testBit 0 = false →
      kb.slots[opnd i 2 1]? = some (some b) → (t.queue q).length < 3 → t.readsOut < 6 → (∀ x ∈ t.tiles, x.todo = []) →
      let v := s.slotView t kb b
      let data := transfers v.spans
      let scale := transfers (v.scaleSpans (q = 1))
      Clear s (b.words t.args) → (∀ l ∈ data ++ scale, ReadsWell s t (transferSpan l).1 (transferSpan l).2) →
      TaskBecomes (.fetch e .badger []) s e fun t' => ∃ x,
        t'.queue q = t.queue q ++ [x] ∧ x.arrived = false ∧ x.complete = true ∧
        x.raw = data.foldl s.readPieces (List.replicate v.rows (List.replicate v.rowBytes 0)) ∧
        x.scale = scale.foldl s.readPieces
          (List.replicate v.rows (List.replicate (max 1 (v.rowBytes * 8 / fmtBits v.fmt)) 0x7F)) ∧
        t'.badger = kb.advance ∧ t'.exec = t.exec) ∧
    (∀ b r0, AtInstr s e .execute 0x16 t i → k.slots[opnd i 2 1]? = some (some b) →
      rowRange k (opnd i 4 2) (opnd i 14 1) (opnd i 6 2) = some r0 → 2 ≤ opnd i 9 1 → opnd i 9 1 ≠ 3 →
      t.gate = none → t.issued = 16 → Clear s (b.words t.args) →
      let w := fun g => { s.slotView t k b with fmt := q }.writes (opnd i 6 2) (opnd i 8 1) g
      (∀ g, ∀ x ∈ w g, t.mayAccess true x.addr x.bytes.length = true ∧ (s.spaceOf x.addr = .spm ∨ s.spaceOf x.addr = .dram)) →
      TaskBecomesArith (.wb e .execute) s e fun t' => ∃ g,
        t'.exec = k.advance ∧ t'.acc = t.acc ∧ t'.abort = none ∧ t'.writes = t.writes ++ w g ∧
        (opnd i 9 1 = 2 → ∀ j c, g j c =
          let r := t.accRow (r0 + j)
          let v := (r.cells[c]?).getD 0
          (floatStore q ((opnd i 1 1).testBit 1) (if r.fp then v else intToF32 v)).1)) ∧
    (∀ b r0, AtInstr s e .execute 0x16 t i → k.slots[opnd i 2 1]? = some (some b) →
      rowRange k (opnd i 4 2) (opnd i 14 1) (opnd i 6 2) = some r0 → 2 ≤ opnd i 9 1 → s.anyBusy (b.words t.args) = false →
      Answers (.wb e .execute) s fun m => ∃ t', (m.eng e).task = some t' ∧ (t'.abort = none → t'.exec = k.advance ∧
        t'.acc = t.acc ∧ t'.qx = t.qx)) ∧
    (∀ w, AtInstr s e w 0x17 t i → t.gate = none → TaskBecomes (.gate e w) s e fun t' =>
      t' = t.setWalk w (t.walk w).leaveGate.advance) ∧
    (∀ g, AtInstr s e .badger 0x17 t i → t.gate = some g → t.decisions[kb.gates]? = some false →
      TaskBecomes (.gate e .badger) s e fun t' => t' = t.setWalk .badger { kb with gates := kb.gates + 1 }.advance) ∧
    (∀ g, AtInstr s e .execute 0x17 t i → t.gate = some g →
      let r := (k.reg (opnd i 2 1)).toInt
      Clear s (s.gateSpans t.args g r) →
      (s.gateReuse t.args g r = false → Answers (.gate e .execute) s fun m =>
        ∃ t', m = (s.toModule.count (ENG_X_CNT_ROWS_GATED e.cl e.x) 1).putTask e t' ∧
          t'.decisions = t.decisions ++ [false] ∧ t'.gate = some { g with rows := g.rows ++ [(r, false)] } ∧
          t'.exec = { k with gate := some (t.decisions.length, k.pc, k.pc + opnd i 4 2) }.advance) ∧
      (s.gateReuse t.args g r = true → Answers (.gate e .execute) s fun m =>
        ∃ t', (m.eng e).task = some t' ∧ t'.decisions = t.decisions ++ [true] ∧
          t'.gate = some { g with rows := g.rows ++ [(r, true)] } ∧
          (t'.abort = none → t'.exec = k.skipBody k.pc (k.pc + opnd i 4 2))))

/-- Synchronisation instructions (R195, R198, R227, R228, R265, R310). SWAIT passes once its object meets the threshold and
stands still until then; its timeout counts and stops the task with WAIT_TIMEOUT; SSIG adds to its object once every earlier
write is acknowledged, a stream's task without the guests' check; FENCE passes once every write is acknowledged. An
object number above 8 191 stops the task. -/
def Obligations.EngineSyncInstructionsComplete : Prop :=
  ∀ (e : EngPos) (t : EngTask) (i : Nat) (s : State),
    let k := t.exec.leaveGate
    let k1 := { k with barriers := k.barriers + 1 }
    (AtInstr s e .execute 0x20 t i → syncObj t k1 i < 8192 → meets (s.sync (syncObj t k1 i)) (syncNum k1 i) = true →
      TaskBecomes (.swait e .execute) s e fun t' => t' = t.setWalk .execute k1.advance) ∧
    (AtInstr s e .execute 0x20 t i → syncObj t k1 i < 8192 → meets (s.sync (syncObj t k1 i)) (syncNum k1 i) = false →
      exec (.swait e .execute) s = .next s) ∧
    (AtInstr s e .execute 0x20 t i → 8192 ≤ syncObj t k1 i → Answers (.swait e .execute) s fun m =>
      ∃ t', (m.eng e).task = some t' ∧ (t'.abort.map (·.status)) = some 10 ∧ t'.qa = [] ∧ t'.acc = [] ∧ m.syncs = s.syncs) ∧
    (AtInstr s e .execute 0x20 t i → opnd i 8 4 ≠ 0 → syncObj t k i < 8192 →
      meets (s.sync (syncObj t k i)) (syncNum k i) = false → Answers (.swaitTimeout e) s fun m =>
        (∃ t', (m.eng e).task = some t' ∧ (t'.abort.map (·.status)) = some 6) ∧ m.syncs = s.syncs ∧
        (m.rd SYN_CNT_TIMEOUT).toNat = min ((s.rd SYN_CNT_TIMEOUT).toNat + 1) 0xFFFFFFFF) ∧
    (AtInstr s e .execute 0x21 t i → t.acked = true → t.skip ≤ t.sigs → syncObj t k i < 8192 → refIsJob t.ref = false →
      Answers (.ssig e .execute) s fun m =>
        m.sync (syncObj t k i) = s.sync (syncObj t k i) + syncNum k i ∧
        (∀ o, o ≠ syncObj t k i → m.sync o = s.sync o) ∧ m.mem = s.mem ∧
        ∃ t', (m.eng e).task = some t' ∧ t'.exec = k.advance ∧ t'.sigs = t.sigs + 1) ∧
    (AtInstr s e .execute 0x21 t i → t.acked = true → t.sigs < t.skip → syncObj t k i < 8192 →
      TaskBecomes (.ssig e .execute) s e fun t' => t'.exec = k.advance ∧ t'.sigs = t.sigs + 1) ∧
    (AtInstr s e .execute 0x22 t i → t.acked = true → TaskBecomes (.fence e .execute) s e fun t' =>
      t' = t.setWalk .execute k1.advance) ∧
    (AtInstr s e .execute 0x22 t i → t.acked = false → exec (.fence e .execute) s = .next s)

/-- A write of `n` bytes at `a` that the engine may make: inside the access set, in SPM or DRAM (R243, R265). -/
def WritesWell (s : State) (t : EngTask) (a n : Nat) : Prop :=
  t.mayAccess true a n = true ∧ (s.spaceOf a = .spm ∨ s.spaceOf a = .dram)

/-- CALL of a routine runs to its end (R230, R252): both walkers stand at the CALL, nothing that it reads is missing or waits, no
read stops it, and its writes can be queued behind 16 that are outstanding. Both walkers go on with S0 the status: 1 when a
view is empty, 2 for a record that the routine refuses, and then nothing but the record is read, else 0; the queues and keep
tiles are gone, S8 to S15 stay, and the write transfers of its tiles are queued. -/
def RoutineCompletes (c : Instr) (s : State) (e : EngPos) (t : EngTask) (i id views : Nat) (f : LibCall → LibOut) : Prop :=
  AtInstr s e .execute 0x30 t i → opnd i 2 2 = id → t.badger.pc = t.exec.leaveGate.pc →
    t.badger.barriers = t.exec.barriers → t.gate = none → t.issued = 16 → (∀ l, t.lib = some l → l.2.complete = true) →
    let k := { t.exec.leaveGate with barriers := t.exec.barriers + 1 }
    let v := fun n => s.libView t ((k.reg 0).toNat / 16 ^ n)
    let a := devAddr (((v 3).base : Int) + (k.reg 1).toNat)
    let x0 : LibCall := ⟨s.toModule, t, v 0, v 1, v 2, v 3, v 4, s.libRec t a, []⟩
    let empty := [(0, v 0), (1, v 2), (2, v 3), (3, v 4)].any fun y =>
      views.testBit y.1 && (y.2.width = 0 || y.2.lines = 0)
    let first : LibOut := if empty then ⟨false, [], 0, []⟩ else f x0
    let spans := (a, 64) :: ((first.tiles.flatMap (·.reads)).eraseDups.flatMap (·.spans)).eraseDups
    let x : LibCall := { x0 with key := spans.flatMap fun y => (List.range y.2).map fun j => s.libByte t (y.1 + j) }
    let o : LibOut := if empty then first else f x
    let rows := (s.libTiles e t [(a, 64)] (if o.bad then [] else o.tiles)).1
    Clear s (callWords t k views) → s.anyBusy spans = false → s.libMissing t [(a, 64)] = [] → s.libMissing t spans.tail = [] →
    (s.libCheck e t [(a, 64)]).1 = none →
    (∀ y ∈ rows, y.stop = none ∧ WritesWell s t y.addr y.bytes.length) →
    Answers c s fun m => ∃ t', (m.eng e).task = some t' ∧ t'.abort = none ∧
      t'.exec.pc = (k.advance).pc ∧ t'.badger.pc = t.badger.advance.pc ∧
      t'.exec.reg 0 = (if empty then 1 else if o.bad then 2 else 0) ∧ t'.badger.reg 0 = t'.exec.reg 0 ∧
      (∀ j, 8 ≤ j → j < 16 → t'.exec.reg j = k.reg j) ∧ t'.qa = [] ∧ t'.qb = [] ∧ t'.qx = [] ∧ t'.lib = none ∧
      t'.writes = t.writes ++ rows

/-- The library routines (R229 to R232): each CALL of CONV2D, GEMM, POOL, RESIZE, ELTWISE, NORM, SOFTMAX, ATTENTION, COPY, ARGMAX,
TOPK and NMS runs to its end as `RoutineCompletes` says. -/
def Obligations.LibraryRoutinesComplete : Prop :=
  ∀ (e : EngPos) (t : EngTask) (i : Nat) (s : State),
    RoutineCompletes (.conv2d e .execute) s e t i 1 0b0111 libConv ∧
    RoutineCompletes (.gemm e .execute) s e t i 2 0b0111 libGemm ∧
    RoutineCompletes (.pool e .execute) s e t i 3 0b0001 libPool ∧
    RoutineCompletes (.resize e .execute) s e t i 4 0b0001 libResize ∧
    RoutineCompletes (.eltwise e .execute) s e t i 5 0b1001 libEltwise ∧
    RoutineCompletes (.norm e .execute) s e t i 6 0b0101 libNorm ∧
    RoutineCompletes (.softmax e .execute) s e t i 7 0b0001 libSoftmax ∧
    RoutineCompletes (.attention e .execute) s e t i 8 0b1111 libAttention ∧
    RoutineCompletes (.libCopy e .execute) s e t i 9 0b0001 Sys2Proof.Machine.libCopy ∧
    RoutineCompletes (.argmax e .execute) s e t i 10 0b0001 libArgmax ∧
    RoutineCompletes (.topk e .execute) s e t i 11 0b0001 libTopk ∧
    RoutineCompletes (.nms e .execute) s e t i 12 0b0001 libNms

/-- The life of a task (R189, R194, R202, R236, R267 to R272): a start whose plan's waits are met puts the task on the position and
that into RUNNING; a finished task leaves it idle and counts; a fault that a check finds aborts the running task, keeps its
code and counts; the watchdog tells a program fault from an engine fault; an abort of a stream's task that no fault caused
frees the position once its transfers are in and the firmware runs; a re-run starts on the position that took the name; what cancelled reads of a
task hold is held until their cancellation completes (R266, R273). -/
def Obligations.TaskLifeCompletes : Prop :=
  ∀ (e : EngPos) (s : State), s.boot ≠ .off →
    (∀ (cl : Fin 8) (n : Fin 17) (c : PortId) (i : Fin 12) u idx x st p y, s.posOf cl n = some e → s.free e = true →
      (n.val = 16 → s.tests = false) → (s.eng e).assigned = none → i.val < 8 → s.streams.find? c.val = some x →
      s.planStart e cl n c x i u idx = some y → x.setup.stages[i.val]? = some st → x.plan.stages[i.val]? = some p →
      s.spmBusy (s.stageArgs st u idx) 256 = false →
      Answers (.taskStart cl n (.stream c i u idx)) s fun m => m.engState e = 2 ∧
        ∃ t, (m.eng e).task = some t ∧ t.ref = .stream c i u idx ∧ t.issued = 0 ∧ t.sigs = 0 ∧ t.code = p.code ∧
          t.access = s.stageAccess st ++ (match s.package? st.package with
            | some k => [(p.weights, (s.pkgSec k.addr secWeights).2, false)] | none => [])) ∧
    (∀ t, (s.eng e).task = some t → t.exec.ended = true → t.acked = true → t.abort = none → t.late = none →
      s.engWindow e = [] → (s.engReads e (s.pictureReads t)).1 = false → Answers (.taskComplete e) s fun m => (m.eng e).task = none ∧ m.engState e = 1 ∧
        (m.eng e).drain = (if t.cancelled = 0 then (s.eng e).drain else (s.eng e).drain ++ t.access) ∧
        (m.rd (ENG_X_CNT_TASK e.cl e.x)).toNat = min ((s.rd (ENG_X_CNT_TASK e.cl e.x)).toNat + 1) 0xFFFFFFFF) ∧
    (∀ t check, (s.eng e).task = some t → t.exec.ended = false → t.abort = none →
      Answers (.engineFaultDetected e check) s fun m =>
        (∃ t' a, (m.eng e).task = some t' ∧ t'.abort = some a ∧ a.engine = true ∧ a.status = 5 ∧ t'.qa = [] ∧ t'.acc = [] ∧
          t'.writes = [] ∧ t'.issued = t.issued) ∧ (m.eng e).sets = [] ∧
        m.fld (ENG_X_STAT e.cl e.x) ENG_X_STAT_last_fault = (match check with | .residue => 1 | .parity => 2 | .sequencer => 3) ∧
        (m.rd (ENG_X_CNT_FAULT e.cl e.x)).toNat = min ((s.rd (ENG_X_CNT_FAULT e.cl e.x)).toNat + 1) 0xFFFFFFFF) ∧
    (∀ t, (s.eng e).task = some t → t.exec.ended = false → t.abort = none → t.waitsToPop = true → t.badger.ended = true →
      t.cancelled = 0 → t.qa = [] → t.qb = [] → t.qx = [] → t.res = [] → (∀ x ∈ t.writes, x.needs = []) → Answers (.engineWatchdog e) s fun m =>
        ∃ t', (m.eng e).task = some t' ∧ (t'.abort.map fun a => (a.engine, a.code)) = some (false, 4)) ∧
    (∀ t, (s.eng e).task = some t → t.exec.ended = false → t.abort = none → t.waitsToPop = false →
      Answers (.engineWatchdog e) s fun m =>
        ∃ t', (m.eng e).task = some t' ∧ (t'.abort.map fun a => (a.engine, a.code)) = some (true, 4)) ∧
    (∀ t a c i u idx, s.cpHalted = false → (s.eng e).task = some t → t.abort = some a → a.engine = false → t.late = none →
      t.issued = 0 → t.cancelled = 0 →
      s.engWindow e = [] → t.ref = .stream c i u idx → Answers (.abortComplete e) s fun m =>
        (m.eng e).task = none ∧ m.engState e = 1 ∧ (m.eng e).faults = (s.eng e).faults) ∧
    (∀ (c : PortId) (i : Fin 12) u idx n x st p, s.free e = true → (s.eng e).assigned = some (.stream c i u idx, n, true) →
      i.val < 8 → s.streams.find? c.val = some x → x.setup.stages[i.val]? = some st → x.plan.stages[i.val]? = some p →
      p.resBytes = 0 → s.spmBusy (s.stageArgs st u idx) 256 = false → Answers (.rerunStart e) s fun m => m.engState e = 2 ∧ (m.eng e).assigned = none ∧
        ∃ t, (m.eng e).task = some t ∧ t.ref = .stream c i u idx ∧ t.skip = n ∧ t.rerun = true) ∧
    (∀ t, (s.eng e).task = some t → (∀ x ∈ t.tiles, x.todo = []) → (t.abort = none ∨ s.engWindow e = []) →
      Answers (.cancellationComplete e) s fun m =>
      m = s.toModule.setEng e { s.eng e with drain := [], task := some { t with cancelled := 0 } })

/-- Resident sets, rotation and sweeps (R163, R164, R255 to R259, R502 to R504): a set is loaded from its package's bytes; a
rotation group passes its shares on; a rotation that is due gives the name of the outgoing engine to the tested spare with
its resident sets, and is counted; a skip counts nothing; a passing sweep is counted and, after sixteen, a quarantined position
is a spare again; one that fails is quarantined, and OFFLINE if it was quarantined already. -/
def Obligations.ResidencyRotationSweepsComplete : Prop :=
  ∀ (cl : Fin 8) (s : State), s.boot ≠ .off →
    (∀ (n : Fin 17) (c : PortId) (i : Fin 12) e x p k, s.streams.find? c.val = some x → s.posOf cl n = some e →
      x.plan.stageOf i.val = some p → p.member cl n = some k → p.resBytes ≠ 0 → (s.eng e).task = none →
      s.areaTaken (s.eng e) = false → s.latent = [] →
      s.badIn (p.resFrom + s.shareNow c i p k * p.resBytes) p.resBytes = [] →
      (s.eng e).holds c i (s.shareNow c i p k) = false → s.engOn e.cl e.x = true →
      Answers (.residentSetLoad cl n c i) s fun m =>
        (∃ r ∈ (m.eng e).sets, r.c = c.val ∧ r.stage = i.val ∧ r.share = s.shareNow c i p k ∧
          r.bytes = s.bytes (p.resFrom + s.shareNow c i p k * p.resBytes) p.resBytes) ∧
        { m with engines := [] } = { s.toModule with engines := [] } ∧ ∀ f, f ≠ e → m.eng f = s.eng f) ∧
    (∀ (c : PortId) (i : Fin 8) x p, s.streams.find? c.val = some x → x.plan.stages[i.val]? = some p → 2 ≤ p.group →
      (s.ctx c).exchanges i / p.group < (SMap.get (0, []) (s.ctx c).ended i.val).1 →
      Answers (.rotationGroupExchange c i) s fun m => (m.ctx c).exchanges i = (s.ctx c).exchanges i + 1 ∧
        { m with engines := [], ctxs := [] } = { s.toModule with engines := [], ctxs := [] }) ∧
    ((s.workingSpare cl).isSome → s.power = 3 → cl.val ∉ s.rotDue → Answers (.rotationDue cl) s fun m =>
      m = { s.toModule with rotDue := s.rotDue ++ [cl.val] }) ∧
    (∀ sp e, s.workingSpare cl = some sp → s.posOf cl (s.rotationName cl) = some e → sp ≠ e → e.cl = cl → sp.cl = cl →
      cl.val ∈ s.rotDue →
      s.free e = true → (s.eng e).assigned = none → 0 < (s.eng sp).passed → Answers (.rotation cl) s fun m =>
        m.nameOf sp = s.nameOf e ∧ m.nameOf e = 16 ∧ m.engState sp = 1 ∧ m.engState e = 3 ∧
        (m.eng sp).sets = (s.eng e).sets ∧ (m.eng e).sets = [] ∧ cl.val ∉ m.rotDue) ∧
    (Answers (.rotationSkip cl) s fun m => m = { s.toModule with rotDue := s.rotDue.filter (· ≠ cl.val) }) ∧
    (∀ e full, s.entersRun = false → s.engOn e.cl e.x = true → (s.eng e).task = none → s.engState e = 3 → s.nameOf e = 16 → s.tests = true →
      Answers (.sweepDone e true full) s fun m => (m.eng e).passed = (s.eng e).passed + (if full then 1 else 0) ∧
        m.bit (ENG_X_ST e.cl e.x) ENG_X_ST_last_ok = true ∧ m.engState e = 3) ∧
    (∀ e, s.entersRun = false → s.engOn e.cl e.x = true → (s.eng e).task = none → s.engState e = 4 → s.nameOf e = 16 →
      s.tests = true →
      (s.eng e).passed = 15 → Answers (.sweepDone e true true) s fun m => m.engState e = 3 ∧ (m.eng e).passed = 16) ∧
    (∀ e, s.entersRun = false → s.engOn e.cl e.x = true → (s.eng e).task = none → (s.engState e = 3 ∨ s.engState e = 4) → s.nameOf e = 16 →
      s.tests = true → Answers (.sweepDone e false true) s fun m =>
        m.engState e = (if s.engState e = 4 then 5 else 4) ∧ (m.eng e).passed = 0 ∧
        m.bit (ENG_X_ST e.cl e.x) ENG_X_ST_last_ok = false)

/-- What an engine instruction leaves alone: whatever instruction a walker runs, no other position, no register of another
block than the engines', the SPM's, the DRAM's and the sync counters', no stream, port, region, package, DMA channel or
OTP content changes. The instructions that do not touch memory or sync objects leave every byte and every object. -/
def Obligations.EngineInstructionsFrame : Prop :=
  ∀ (e : EngPos) (w : Walker) (c : Instr) (s t : State), exec c s = .next t →
    (c = .engineNop e w ∨ c = .endOp e w ∨ c = .loop e w ∨ c = .setp e w ∨ c = .alu e w ∨ c = .slot e w ∨
        c = .wload e w ∨ c = .mm e w ∨ c = .mmf e w ∨ c = .rfu e w ∨ c = .tload e w ∨ c = .swait e w ∨ c = .swaitTimeout e ∨
        c = .fence e w ∨ c = .engineWatchdog e →
      { t.toModule with regs := [], engines := [] } = { s.toModule with regs := [], engines := [] } ∧
      (∀ a, t.byte a = s.byte a) ∧ (∀ o, t.sync o = s.sync o) ∧ (∀ f, f ≠ e → t.eng f = s.eng f) ∧
      ∀ off, off ≠ ENG_X_ARITH e.cl e.x → off ≠ ENG_X_STAT e.cl e.x → off ≠ ENG_X_CNT_FAULT e.cl e.x →
        off ≠ SYN_CNT_TIMEOUT → t.rd off = s.rd off) ∧
    (c = .ssig e w →
      { t.toModule with regs := [], engines := [], syncs := [] } = { s.toModule with regs := [], engines := [], syncs := [] } ∧
      ∀ f, f ≠ e → t.eng f = s.eng f) ∧
    (c = .ldp e w ∨ c = .cancellationComplete e ∨ (∃ q, c = .tileArrived e q) → ∀ a, t.byte a = s.byte a) ∧
    (c = .ldp e w ∨ c = .cancellationComplete e ∨ (∃ q, c = .tileArrived e q) ∨ (∃ l, c = .fetch e w l) ∨ c = .wb e w ∨
        c = .gate e w ∨ c = .conv2d e w ∨ c = .softmax e w ∨ c = .nms e w →
      (∀ o, t.sync o = s.sync o) ∧ (∀ f, f ≠ e → t.eng f = s.eng f) ∧ t.regions = s.regions ∧ t.streams = s.streams ∧
        t.ports = s.ports ∧ t.dma = s.dma ∧ t.packages = s.packages ∧ t.otp = s.otp ∧ t.flash = s.flash)

/-! ### The scratchpad, sync objects and DRAM (09_scratchpad, 10_sync_objects, 11_dram_dma) -/

/-- The completion of the command `c` of a session that is still attached as it was (R338, R397). -/
def CompletesRef (s : State) (m : Module) (c : CmdRef) (status result : Nat) : Prop :=
  ∀ x, s.sessions.find? c.session.val = some x → x.gen = c.gen →
    Completes m ⟨c.session, c.tag, false⟩ c.opcode.toNat x status result

/-- ALLOC of a well-formed request that fits a gap places a live region of the size rounded up to 4 KiB within a gap, zeroed,
under a number that was free, and completes with its handle (R281); one with operands that name no memory is refused.
FREE of a region that nothing holds begins its release and completes later; the fill clears every byte of the region and
no other; at its end the region is gone and the command completes with OK (R284). -/
def Obligations.RegionsAllocateAndFree : Prop :=
  ∀ (h : CmdHdr) (x : Session) (s : State),
    (∀ kind stack size, s.serialTurn h 7 = true →
      StartableRun s h 7 (entryHas [(8, 1, 0), (9, 1, kind.toNat), (10, 1, stack.toNat), (16, 8, size.toNat)]) x →
      allocForm 0 kind.toNat stack.toNat = true →
      let n := (size.toNat + 4095) / 4096 * 4096
      0 < n → n ≤ 2 ^ 26 → (∃ g ∈ s.allocGaps false (kind.toNat = 1) stack.toNat, n ≤ g.2) →
      (∃ k, 1 ≤ k ∧ k < 16384 ∧ s.regions.find? k = none) →
      Answers (.alloc h 0 kind stack size) s fun m => ∃ k r, s.regions.find? k = none ∧ m.regions.find? k = some r ∧
        r.size = n ∧ r.phase = .live ∧ r.spread = decide (kind.toNat = 1) ∧
        (∃ g ∈ s.allocGaps false (kind.toNat = 1) stack.toNat, g.1 ≤ r.base ∧ r.base + n ≤ g.1 + g.2) ∧
        (∀ a, r.base ≤ a → a < r.base + n → m.byte a = 0) ∧ (∀ j, j ≠ k → m.regions.find? j = s.regions.find? j) ∧
        Completes m h 7 x 0 (handleOf k r.gen)) ∧
    (∀ memory kind stack size, s.serialTurn h 7 = true → memory ≠ 0 → Startable s h 7 (entryHas
        [(8, 1, memory.toNat), (9, 1, kind.toNat), (10, 1, stack.toNat), (16, 8, size.toNat)]) x →
      allocForm memory.toNat kind.toNat stack.toNat = false → Answers (.alloc h memory kind stack size) s fun m =>
        Completes m h 7 x 3 0 ∧ m.mem = s.mem ∧ m.regions = s.regions) ∧
    (∀ region r, s.serialTurn h 8 = true → StartableRun s h 8 (entryHas [(8, 4, region.toNat)]) x → s.region? region = some r → s.regionHeld region = false →
      Answers (.free h region) s fun m => Underway m h 8 ∧ m.mem = s.mem ∧
        ∃ r', m.regions.find? (handleKey region) = some r' ∧ r'.phase = .waiting ∧ r'.base = r.base ∧ r'.size = r.size) ∧
    (∀ region r, s.boot ≠ .off → s.cpHalted = false → s.region? region = some r → r.phase = .waiting →
      s.regionUsed r = false → s.spmOff r.base r.size = false → s.spmBusy r.base r.size = false →
      (∀ g e, s.gather.find? g = some e → e.bytes.length = 64) →
      Answers (.releaseZeroFill region) s fun m => (∀ a, r.base ≤ a → a < r.base + r.size → m.byte a = 0) ∧
        (r.base % 64 = 0 → r.size % 64 = 0 → ∀ a, a < r.base ∨ r.base + r.size ≤ a → m.byte a = s.byte a) ∧
        (∃ r', m.regions.find? (handleKey region) = some r' ∧ r'.phase = .zeroing) ∧ m.region? region = none) ∧
    (∀ region r c, s.boot ≠ .off → s.cpHalted = false → s.regions.find? (handleKey region) = some r → r.phase = .zeroing →
      r.gen = region.toNat / 65536 → r.freeBy = some c → Answers (.releaseDone region) s fun m =>
        m.regions.find? (handleKey region) = none ∧ (∀ j, j ≠ handleKey region → m.regions.find? j = s.regions.find? j) ∧
        m.mem = s.mem ∧ CompletesRef s m c 0 0)

/-- What the take of a FILL or COPY entry `b` checks (R286, R287): current SPM handles, multiples of 8, spans inside their
regions, objects, and a timeout for a wait. -/
def FillFits (s : State) (copy : Bool) (b : List Byte) : Prop :=
  ∃ d r, s.spmRegion? (BitVec.ofNat 32 (fieldAt b 8 4)) = some d ∧
    s.spmRegion? (BitVec.ofNat 32 (fieldAt b (if copy then 12 else 8) 4)) = some r ∧
    fieldAt b 16 8 % 8 = 0 ∧ fieldAt b 24 8 % 8 = 0 ∧ (copy = true → fieldAt b 32 8 % 8 = 0) ∧
    (∀ o ∈ [fieldAt b 40 2, fieldAt b 42 2], o < 8192 ∨ o = 0xFFFF) ∧ (fieldAt b 40 2 ≠ 0xFFFF → fieldAt b 48 4 ≠ 0) ∧
    (fieldAt b 24 8 ≠ 0 → fieldAt b 16 8 + fieldAt b 24 8 ≤ d.size ∧
      (copy = true → fieldAt b 32 8 + fieldAt b 24 8 ≤ r.size))

/-- FILL and COPY (R286 to R288, R308, R310). The check at the take of the entry passes exactly an entry that fits. A command
that passed it, with its operands, joins the queue of its destination stack in its turn; one that did not completes with
the check's status, one of length 0 with OK. At the front it writes when its wait object meets the threshold: a FILL the
pattern in every word, a COPY the bytes of its source as they were; nothing outside the destination changes where no open
gather entry touches it. A wait that times out takes it from the queue with WAIT_TIMEOUT and writes nothing; its end advances
its signal object, unless a stream owns that, and completes it. A command leaves its queue once its completion does not wait. -/
def Obligations.FillAndCopyComplete : Prop :=
  ∀ (h : CmdHdr) (x : Session) (s : State),
    (∀ copy b, s.fillCheck copy b = 0 ↔ FillFits s copy b) ∧
    (∀ dst off len pat wo so thr tmo t, StartableRun s h 9 (entryHas (fillOperands dst off len pat wo so thr tmo)) x →
      s.toStart h 9 = some t → s.fillTurn t = true →
      (t.check ≠ 0 → Answers (.fill h dst off len pat wo so thr tmo) s fun m =>
        Completes m h 9 x t.check 0 ∧ m.mem = s.mem ∧ m.syncs = s.syncs ∧ m.fills = s.fills) ∧
      (t.check = 0 → len = 0 → so = 0xFFFF → Answers (.fill h dst off len pat wo so thr tmo) s fun m =>
        Completes m h 9 x 0 0 ∧ m.mem = s.mem ∧ m.fills = s.fills) ∧
      (∀ d, t.check = 0 → len ≠ 0 → s.spmRegion? dst = some d → Answers (.fill h dst off len pat wo so thr tmo) s fun m =>
        Underway m h 9 ∧ m.mem = s.mem ∧
        ∃ f, m.fillQueue (d.base / 2 ^ 26) = s.fillQueue (d.base / 2 ^ 26) ++ [f] ∧ f.copy = false ∧ f.writing = false ∧
          f.dstAddr = d.base + off.toNat ∧ f.len = len.toNat ∧ f.pattern = pat ∧ f.waitObj = wo ∧ f.waitThr = thr ∧
          f.sigObj = so)) ∧
    (∀ dst src off len sof wo so thr tmo t d r,
      StartableRun s h 10 (entryHas ((12, 4, src.toNat) :: fillOperands dst off len sof wo so thr tmo)) x →
      s.toStart h 10 = some t → s.fillTurn t = true → t.check = 0 → len ≠ 0 → s.spmRegion? dst = some d →
      s.spmRegion? src = some r → Answers (.copy h dst src off len sof wo so thr tmo) s fun m =>
        Underway m h 10 ∧ m.mem = s.mem ∧
        ∃ f, m.fillQueue (d.base / 2 ^ 26) = s.fillQueue (d.base / 2 ^ 26) ++ [f] ∧ f.copy = true ∧
          f.dstAddr = d.base + off.toNat ∧ f.srcAddr = r.base + sof.toNat ∧ f.len = len.toNat) ∧
    (∀ (k : Fin 8) f q, s.boot ≠ .off → s.fillQueue k = f :: q → f.writing = false →
      (f.waitObj = 0xFFFF ∨ meets (s.sync f.waitObj.toNat) f.waitThr = true) → s.poison = [] → s.ueSectors = [] →
      s.latent = [] → s.fillBusy f = false →
      Answers (.fillCopyWriteStart k) s fun m =>
        m.fillQueue k = { f with writing := true, status := 0 } :: q ∧ m.syncs = s.syncs ∧
        (f.copy = false → f.len % 8 = 0 → ∀ i < f.len, m.byte (f.dstAddr + i) = (leBytes 8 f.pattern.toNat)[i % 8]?.getD 0) ∧
        (f.copy = true → ∀ i < f.len, m.byte (f.dstAddr + i) = s.byte (f.srcAddr + i)) ∧
        ((∀ g e, s.gather.find? g = some e → g * 64 + 64 ≤ f.dstAddr ∨ f.dstAddr + f.len ≤ g * 64) →
          ∀ a, a < f.dstAddr ∨ f.dstAddr + f.len ≤ a → (f.copy = false → f.len % 8 = 0) → m.byte a = s.byte a)) ∧
    (∀ (k : Fin 8) f q, s.boot ≠ .off → s.fillQueue k = f :: q → f.writing = false → f.waitObj ≠ 0xFFFF →
      meets (s.sync f.waitObj.toNat) f.waitThr = false → Answers (.fillCopyWaitTimeout k) s fun m =>
        m.fillQueue k = (if s.complWaits f.cmd then { f with writing := true, finished := true } :: q else q) ∧
        m.mem = s.mem ∧ m.syncs = s.syncs ∧
        (m.rd SYN_CNT_TIMEOUT).toNat = min ((s.rd SYN_CNT_TIMEOUT).toNat + 1) 0xFFFFFFFF ∧ CompletesRef s m f.cmd 6 0) ∧
    (∀ (k : Fin 8) f q, s.boot ≠ .off → s.fillQueue k = f :: q → f.writing = true → f.finished = false → f.status = 0 →
      Answers (.fillCopyDone k) s fun m => m.mem = s.mem ∧ CompletesRef s m f.cmd 0 0 ∧
        m.fillQueue k = (if s.complWaits f.cmd then { f with writing := true, finished := true } :: q else q) ∧
        (f.sigObj ≠ 0xFFFF → s.owned f.sigObj.toNat = false →
          m.sync f.sigObj.toNat = s.sync f.sigObj.toNat + 1 ∧ ∀ o, o ≠ f.sigObj.toNat → m.sync o = s.sync o) ∧
        (f.sigObj ≠ 0xFFFF → s.owned f.sigObj.toNat = true → m.syncs = s.syncs))

/-- The gather buffer, the scrubber and switching a stack on (R290 to R296): a narrow write to a line without an open
entry reads back at once while the banks keep their bytes, and one to a stack that is off answers NOT_READY (R527); writing
an entry out changes what no read returns; a scrub visit moves its row on, without errors does nothing else, and counts a
correctable error that it meets; a stack that has been zero filled grants requests and
every byte that lies in it is zero. DRAM (R317, R322, R323, R340): a slot advance moves the wheel of its channel on by one of
ten, and counts the slot unless a transfer of the share that owns the position used it; tracking, calibration and refresh change no state at all. -/
def Obligations.MemoryUpkeepCompletes : Prop :=
  (∀ (s : State), s.boot ≠ .off →
      (∀ addr l, addr + l.length ≤ spmSize → s.spmBusy addr l.length = false → s.spmOff addr l.length = true →
        Answers (.narrowWrite addr l) s fun m => m = { s.toModule with busStatus := 1, busValue := 0 }) ∧
      (∀ addr l, addr + l.length ≤ spmSize → s.spmBusy addr l.length = false → s.spmOff addr l.length = false →
        0 < l.length → l.length < 64 →
        addr % 64 + l.length ≤ 64 → s.gather.find? (addr / 64) = none → s.gatherCount (s.stackOf addr) < 64 →
        Answers (.narrowWrite addr l) s fun m => m.mem = s.mem ∧
          (∀ i < l.length, some (m.byte (addr + i)) = l[i]?) ∧
          ∀ a, a < addr ∨ addr + l.length ≤ a → m.byte a = s.byte a) ∧
      (∀ line e, s.gather.find? line = some e → e.bytes.length = 64 → s.poison = [] → s.ueSectors = [] →
        s.latent = [] → Answers (.gatherIdleFlush line) s fun m => m.gather.find? line = none ∧ (∀ a, m.byte a = s.byte a) ∧
          ∀ g, g ≠ line → m.gather.find? g = s.gather.find? g) ∧
      (∀ k : Fin 8, s.bit SPM_SCRUB_CFG SPM_SCRUB_CFG_en = true → s.spmOn k = true →
        s.fld (SPM_ST_STAT k) SPM_ST_STAT_state = 2 → s.latent = [] →
        (Answers (.scrubVisit k []) s fun m =>
          m.fld (SPM_ST_SCRUB k) SPM_ST_SCRUB_row = (s.fld (SPM_ST_SCRUB k) SPM_ST_SCRUB_row + 1) % 16384 ∧
          OnlyRegs s m [SPM_ST_SCRUB k]) ∧
        (∀ e : MemErr, e.addr < spmSize → e.uncorrectable = false → s.stackOf e.addr = k.val →
          rowOf (e.addr % 2 ^ 26) = s.fld (SPM_ST_SCRUB k) SPM_ST_SCRUB_row → s.poison = [] →
          Answers (.scrubVisit k [e]) s fun m =>
            (m.rd (SPM_ST_CE k)).toNat = min ((s.rd (SPM_ST_CE k)).toNat + 1) 0xFFFFFFFF ∧ m.latent = [] ∧ m.poison = [] ∧
            (∀ a, m.byte a = s.byte a))) ∧
      (∀ k : Fin 8, s.spmOn k = true → s.fld (SPM_ST_STAT k) SPM_ST_STAT_state = 1 → s.entersRun = false →
        (∀ ch, (s.chan ch).phase ≠ .moving) → s.mcSend = [] →
        (∀ e t, (s.eng e).task = some t → t.writes = [] ∧ ∀ x ∈ t.tiles, x.todo = []) →
        Answers (.stackZeroingDone k) s fun m => m.fld (SPM_ST_STAT k) SPM_ST_STAT_state = 2 ∧
        ∀ a, s.gathered a = none →
          m.byte a = if a < spmSize ∧ s.stackOf a = k.val then 0 else s.byte a)) ∧
  (∀ (ch bank : Fin 16) (s : State), s.boot ≠ .off →
      (∀ by_, s.dramOn = true → Answers (.dramSlotAdvance ch by_) s fun m =>
        SMap.get 0 m.wheel ch.val = (SMap.get 0 s.wheel ch.val + 1) % 10 ∧
        (∀ q, q ≠ ch.val → SMap.get 0 m.wheel q = SMap.get 0 s.wheel q) ∧
        m.rd (DDR_CH_SLOTS ch) = (if by_ = some (slotShare (SMap.get 0 s.wheel ch.val)) then s.rd (DDR_CH_SLOTS ch)
          else s.rd (DDR_CH_SLOTS ch) + 1) ∧
        { m with wheel := [], regs := [] } = { s.toModule with wheel := [], regs := [] }) ∧
      exec (.dramWckTrack ch) s = .next s ∧ exec (.dramZqCalibrate ch) s = .next s ∧ exec (.perBankRefresh ch bank) s = .next s)

/-- R298, by the operations of a session: every object is 0 at power-up. SIGNAL adds 1 and ADD a value, modulo 2^32, RESET sets
one, and each completes with OK; a number above 8 191 and a plan-owned object are refused and change no object. A WAIT whose
object meets its threshold completes at once, and otherwise waits until it is met, which completes it with OK, or times out. -/
def Obligations.SyncOperationsComplete : Prop :=
  (∀ o, State.reset.sync o = 0) ∧ ∀ (h : CmdHdr) (obj : W16) (v t tmo : Word) (x : Session) (s : State),
    (obj.toNat < 8192 → s.owned obj.toNat = false →
      (Startable s h 11 (entryHas [(8, 2, obj.toNat), (10, 1, 0)]) x → Answers (.syncOpSignal h obj) s fun m => (m.sync obj.toNat).toNat = ((s.sync obj.toNat).toNat + 1) % 2 ^ 32 ∧
        (∀ o, o ≠ obj.toNat → m.sync o = s.sync o) ∧ m.core.mem = s.mem ∧ Completes m h 11 x 0 0) ∧
      (Startable s h 11 (entryHas [(8, 2, obj.toNat), (10, 1, 1), (12, 4, v.toNat)]) x → Answers (.syncOpAdd h obj v) s fun m => (m.sync obj.toNat).toNat = ((s.sync obj.toNat).toNat + v.toNat) % 2 ^ 32 ∧
        (∀ o, o ≠ obj.toNat → m.sync o = s.sync o) ∧ Completes m h 11 x 0 0) ∧
      (Startable s h 11 (entryHas [(8, 2, obj.toNat), (10, 1, 2), (12, 4, v.toNat)]) x →
        Answers (.syncOpReset h obj v) s fun m => m.sync obj.toNat = v ∧ (∀ o, o ≠ obj.toNat → m.sync o = s.sync o) ∧
        Completes m h 11 x 0 0)) ∧
    (8192 ≤ obj.toNat ∨ s.owned obj.toNat = true → ∀ c k, (k = 0 ∧ c = .syncOpSignal h obj) ∨ (k = 1 ∧ c = .syncOpAdd h obj v) ∨
      (k = 2 ∧ c = .syncOpReset h obj v) →
      Startable s h 11 (entryHas ([(8, 2, obj.toNat), (10, 1, k)] ++ if k = 0 then [] else [(12, 4, v.toNat)])) x → Answers c s fun m => m.syncs = s.syncs ∧ Completes m h 11 x 3 0) ∧
    (Startable s h 11 (entryHas [(8, 2, obj.toNat), (10, 1, 3), (16, 4, t.toNat), (20, 4, tmo.toNat)]) x →
      obj.toNat < 8192 → tmo ≠ 0 →
      (meets (s.sync obj.toNat) t = true → Answers (.syncOpWait h obj t tmo) s fun m =>
        m.syncs = s.syncs ∧ m.hostWaits = s.hostWaits ∧ Completes m h 11 x 0 0) ∧
      (meets (s.sync obj.toNat) t = false → s.hostWaits.length < 512 → Answers (.syncOpWait h obj t tmo) s fun m =>
        m.syncs = s.syncs ∧ m.hostWaits = s.hostWaits ++ [⟨h.session, h.tag, obj.toNat, t⟩] ∧ Underway m h 11) ∧
      (meets (s.sync obj.toNat) t = false → 512 ≤ s.hostWaits.length → Answers (.syncOpWait h obj t tmo) s fun m =>
        m.hostWaits = s.hostWaits ∧ Completes m h 11 x 2 0)) ∧
    (∀ w, s.boot ≠ .off → s.hostWait? h.session h.tag = some w → s.sessions.find? h.session.val = some x →
      (meets (s.sync w.obj) w.thr = true → Answers (.syncWaitMet h.session h.tag) s fun m =>
        m.hostWaits = s.hostWaits.erase w ∧ m.syncs = s.syncs ∧ Completes m h 11 x 0 0) ∧
      (meets (s.sync w.obj) w.thr = false → Answers (.syncWaitTimeout h.session h.tag) s fun m =>
        m.hostWaits = s.hostWaits.erase w ∧ m.syncs = s.syncs ∧ Completes m h 11 x 6 0 ∧
        (m.rd SYN_CNT_TIMEOUT).toNat = min ((s.rd SYN_CNT_TIMEOUT).toNat + 1) 0xFFFFFFFF))

/-- R302: a value meets a threshold exactly when their difference modulo 2^32 is below 2^31, so a count may wrap past its
threshold's value: a value that meets a threshold still meets it after fewer than 2^31 additions of 1 in all. -/
def Obligations.ThresholdComparisonWraps : Prop :=
  ∀ v t : Word, (meets v t = true ↔ ((v.toNat : Int) - t.toNat) % 2 ^ 32 < 2 ^ 31) ∧
    (meets t t = true) ∧ (∀ n : Nat, n < 2 ^ 31 → meets (t + BitVec.ofNat 32 n) t = true) ∧
    (meets v t = true → ∀ n : Nat, ((v.toNat : Int) - t.toNat) % 2 ^ 32 + n < 2 ^ 31 → meets (v + BitVec.ofNat 32 n) t = true)

/-! ### DMA, clips and deliveries (11_dram_dma, 06_vision_isp, 12_admission) -/

/-- A byte that a local transfer may touch (R333, R335): in a region, in an SPM stack that is on and not being zero filled or
in DRAM that is on. -/
def LocalByte (s : State) (a : Nat) : Prop :=
  s.inRegion1 a = true ∧
    (a < spmSize ∧ s.spmOn (s.stackOf a) = true ∧ s.fld (SPM_ST_STAT (s.stackOf a)) SPM_ST_STAT_state ≠ 1 ∨
      dramBase ≤ a ∧ a < s.dramEnd ∧ s.dramOn = true)

/-- A descriptor of one row between local memories that no transfer fails on, in a state without bad words, errors not met yet
and open gather entries. -/
def RowLocal (s : State) (d : Desc) : Prop :=
  d.op ≤ 1 ∧ d.rows = 1 ∧ 0 < d.rowBytes ∧ s.poison = [] ∧ s.ueSectors = [] ∧ s.latent = [] ∧ s.gather = [] ∧
    (∀ i < d.rowBytes, LocalByte s (d.dst + i)) ∧ (d.op = 0 → ∀ i < d.rowBytes, LocalByte s (d.src + i))

/-- The channel has moved the whole of a one-row descriptor: the destination holds the source's bytes, or the pattern, every
other byte is as before, and the descriptor waits for its end. -/
def RowMoved (s : State) (m : Module) (ch : Fin 64) (d : Desc) : Prop :=
  (m.chan ch.val).phase = .moving ∧ (m.chan ch.val).desc = some d ∧ (m.chan ch.val).todo = d.rowBytes ∧
    (m.chan ch.val).fail = none ∧ (m.chan ch.val).outstanding = 0 ∧
    (∀ i < d.rowBytes, m.byte (d.dst + i) =
      if d.op = 1 then BitVec.ofNat 8 (d.pattern.toNat >>> (8 * (i % 8))) else s.byte (d.src + i)) ∧
    (∀ a, a < d.dst ∨ d.dst + d.rowBytes ≤ a → m.byte a = s.byte a) ∧ m.syncs = s.syncs ∧
    ∀ j, j ≠ ch.val → m.chan j = s.chan j

/-- The row goes: it is moved whole, or, to DRAM and with transfers behind the one that the command lets through, up to one that
finds its queue at the high mark, where the channel waits (R334); without that let through, so may the first. -/
def RowGoes (s : State) (m : Module) (ch : Fin 64) (d : Desc) (first : Bool) : Prop :=
  RowMoved s m ch d ∨ spmSize ≤ d.dst ∧ (first = true → d.chunk 0 < d.rowBytes ∧ d.chunk 0 ≤ (m.chan ch.val).todo) ∧
    (m.chan ch.val).paced = true ∧ (m.chan ch.val).phase = .moving ∧ (m.chan ch.val).desc = some d

/-- DMA (R329 to R331, R334): the command takes the lowest free channel and stands before its first descriptor, with no data moved.
A descriptor address that is not 64-byte aligned and a descriptor that fails its checks end the list with REFUSED; one whose
wait is not met waits; a copy or a fill of one row between local memories moves its bytes exactly and nothing else; a wait
that times out ends the list with WAIT_TIMEOUT; the end of a descriptor advances its signal object, writes the completion
it asks for, and goes on to the next descriptor or frees the channel. -/
def Obligations.DmaListsComplete : Prop :=
  (∀ (h : CmdHdr) (addr : W64) (x : Session) (ch : Nat) (s : State), StartableRun s h 12 (entryHas [(8, 8, addr.toNat)]) x →
    s.freeChan = some ch →
    Answers (.dma h addr) s fun m => Underway m h 12 ∧ m.mem = s.mem ∧
      m.chan ch = { DmaCh.rest with owner := .session ⟨h.session, x.gen, h.tag, 12⟩, phase := .fetch, addr := addr.toNat } ∧
      ∀ j, j ≠ ch → m.chan j = s.chan j) ∧
  ∀ (ch : Fin 64) (c : CmdRef) (s : State), s.boot ≠ .off → (s.chan ch.val).owner = .session c →
    (s.chan ch.val).planOwned = false → (s.chan ch.val).fail = none → (s.chan ch.val).outstanding = 0 →
    (∀ desc errs fill, (s.chan ch.val).phase = .fetch → (∀ x, s.cmdSession c = some x → x.cqWait = []) →
      let a := (s.chan ch.val).addr
      let d := descOf (s.bytes a 64)
      (a % 64 ≠ 0 → Answers (.dmaDescriptorRun ch desc errs fill) s fun m =>
        (m.chan ch.val) = DmaCh.rest ∧ m.mem = s.mem ∧ CompletesRef s m c 3 (ch.val * 2 ^ 32)) ∧
      (a % 64 = 0 → errs = [] → s.latent = [] → s.poison = [] → s.ueSectors = [] → LocalByte s a →
        (descForm d false = false → Answers (.dmaDescriptorRun ch desc errs fill) s fun m =>
          (m.chan ch.val) = DmaCh.rest ∧ m.mem = s.mem ∧ CompletesRef s m c 3 (d.tag.toNat + ch.val * 2 ^ 32)) ∧
        (descForm d false = true → d.wait = true → meets (s.sync d.waitObj) d.waitThr = false →
          Answers (.dmaDescriptorRun ch desc errs fill) s fun m =>
            (m.chan ch.val).phase = .waiting ∧ (m.chan ch.val).desc = some d ∧ m.mem = s.mem) ∧
        (descForm d false = true → (d.wait = true → meets (s.sync d.waitObj) d.waitThr = true) → RowLocal s d →
          (s.chan ch.val).paced = false →
          (d.dst < spmSize ∨ fill < s.fld (DMA_CH_PACE ch.val) DMA_CH_PACE_high) → s.dmaOutstanding < 512 →
          Answers (.dmaDescriptorRun ch desc errs fill) s fun m => RowGoes s m ch d true))) ∧
    (∀ d fill, (s.chan ch.val).phase = .waiting → (s.chan ch.val).desc = some d → (s.chan ch.val).todo = 0 →
      (meets (s.sync d.waitObj) d.waitThr = true → RowLocal s d → (s.chan ch.val).paced = false →
        (d.dst < spmSize ∨ fill < (s.chan ch.val).paceHigh) → s.dmaOutstanding < 512 →
        Answers (.dmaWaitMet ch [] fill) s fun m => RowGoes s m ch d true) ∧
      (meets (s.sync d.waitObj) d.waitThr = false → Answers (.dmaWaitTimeout ch) s fun m =>
        m.chan ch.val = DmaCh.rest ∧ m.mem = s.mem ∧ m.syncs = s.syncs ∧
        (m.rd SYN_CNT_TIMEOUT).toNat = min ((s.rd SYN_CNT_TIMEOUT).toNat + 1) 0xFFFFFFFF ∧
        CompletesRef s m c 6 (d.tag.toNat + ch.val * 2 ^ 32))) ∧
    (∀ d fill, (s.chan ch.val).phase = .moving → (s.chan ch.val).desc = some d → (s.chan ch.val).todo = 0 →
      (s.chan ch.val).paced = true → fill ≤ (s.chan ch.val).paceLow → RowLocal s d → s.dmaOutstanding < 512 →
      Answers (.dmaPaceResume ch fill) s fun m => RowGoes s m ch d true) ∧
    (∀ d, (s.chan ch.val).phase = .moving → (s.chan ch.val).desc = some d → d.total ≤ (s.chan ch.val).todo →
      Answers (.dmaDescriptorDone ch) s fun m => m.mem = s.mem ∧
        (if d.last then m.chan ch.val = DmaCh.rest ∧ CompletesRef s m c 0 (d.tag.toNat + ch.val * 2 ^ 32)
          else (m.chan ch.val).phase = .fetch ∧ (m.chan ch.val).addr = d.next ∧ (m.chan ch.val).desc = none ∧
            (d.complete = false → ∀ n, (m.sessions.find? n).map (·.taken) = (s.sessions.find? n).map (·.taken))) ∧
        (d.signal = true ∧ s.owned d.sigObj = false → m.sync d.sigObj = s.sync d.sigObj + 1) ∧
        (d.signal = false ∨ s.owned d.sigObj = true → m.syncs = s.syncs) ∧ ∀ o, o ≠ d.sigObj → m.sync o = s.sync o)

/-- DMA halts and their recovery (R335 to R337): the first failing transfer makes its channel halt, with the failure latched in
the channel's registers; when its last transfer has returned it is HALTED and DMA_HALTED says so. RETRY runs the descriptor
again, SKIP completes it with the halt's code and goes on, ABORT completes it and frees the channel; each is refused for a
channel that is not HALTED and for a plan's, which firmware alone skips, with its signal applied. -/
def Obligations.DmaHaltsComplete : Prop :=
  ∀ (ch : Fin 64) (f : DmaFail) (s : State), s.boot ≠ .off → (s.chan ch.val).fail = some f →
    f.addr < 2 ^ 48 → f.direction < 4 → f.cause < 8 →
    (∀ c, (s.chan ch.val).owner = .session c → (s.chan ch.val).phase = .moving → Answers (.dmaTransferFail ch) s fun m =>
      (m.chan ch.val).phase = .halting ∧ (m.chan ch.val).paced = false ∧
      m.rd (DMA_CH_ERR_ADDR_LO ch.val) = BitVec.ofNat 32 f.addr ∧
      m.rd (DMA_CH_ERR_ADDR_HI ch.val) = BitVec.ofNat 32 (f.addr / 2 ^ 32) ∧
      m.fld (DMA_CH_STAT ch.val) DMA_CH_STAT_cause = f.cause ∧
      m.fld (DMA_CH_STAT ch.val) DMA_CH_STAT_direction = f.direction ∧
      (m.rd (DMA_CH_DONE ch.val)).toNat = min (prefixDone (s.chan ch.val).acked) 0xFFFFFFFF ∧
      { m with regs := [], dma := [] } = { s.toModule with regs := [], dma := [] }) ∧
    ((s.chan ch.val).phase = .halting → (s.chan ch.val).outstanding = 0 → Answers (.dmaHalted ch) s fun m =>
      (m.chan ch.val).phase = .halted ∧ m.fld (DMA_CH_STAT ch.val) DMA_CH_STAT_state = 3 ∧
      (m.rd DMA_CNT_HALT).toNat = min ((s.rd DMA_CNT_HALT).toNat + 1) 0xFFFFFFFF ∧ m.mem = s.mem ∧
      ∃ e, m.trace.getLast? = some e ∧ e.code = 0x0701 ∧
        e.p0 = BitVec.ofNat 16 (ch.val + 64 * f.direction + 256 * f.cause + 2048 * (s.chan ch.val).planOwned.toNat) ∧
        e.p1 = BitVec.ofNat 32 f.addr) ∧
    (∀ src c, Admits s src true (DMA_CH_CTL ch.val) → (s.chan ch.val).owner = .session c →
      (s.chan ch.val).planOwned = false → (s.chan ch.val).phase = .halted →
      ((s.chan ch.val).desc = none → Answers (.dmaRetry src ch) s fun m => m.busStatus = 0 ∧
        (m.chan ch.val).phase = .fetch ∧ (m.chan ch.val).fail = none ∧ (m.chan ch.val).addr = (s.chan ch.val).addr) ∧
      (∀ d, (s.chan ch.val).desc = some d → RowLocal s d → (s.chan ch.val).acked = [] → (s.chan ch.val).paced = false →
        (s.chan ch.val).outstanding = 0 → s.dmaOutstanding < 512 →
        Answers (.dmaRetry src ch) s fun m => m.busStatus = 0 ∧ RowGoes s m ch d false) ∧
      (∀ d, (s.chan ch.val).desc = some d → d.last = true → Answers (.dmaSkip src ch) s fun m => m.busStatus = 0 ∧
        m.chan ch.val = DmaCh.rest ∧ m.syncs = s.syncs ∧ m.mem = s.mem ∧
        CompletesRef s m c (if f.cause = 4 then 9 else 10) (d.tag.toNat + ch.val * 2 ^ 32)) ∧
      (∀ d, (s.chan ch.val).desc = some d → d.last = false → Answers (.dmaSkip src ch) s fun m => m.busStatus = 0 ∧
        (m.chan ch.val).phase = .fetch ∧ (m.chan ch.val).addr = d.next ∧ m.syncs = s.syncs ∧ m.mem = s.mem) ∧
      (∀ d, (s.chan ch.val).desc = some d → Answers (.dmaAbort src ch) s fun m => m.busStatus = 0 ∧
        m.chan ch.val = DmaCh.rest ∧ m.syncs = s.syncs ∧ m.mem = s.mem ∧
        CompletesRef s m c (if f.cause = 4 then 9 else 10) (d.tag.toNat + ch.val * 2 ^ 32))) ∧
    (∀ src c, Admits s src true (DMA_CH_CTL ch.val) →
      (s.chan ch.val).planOwned = true ∨ (s.chan ch.val).phase ≠ .halted →
      c = .dmaRetry src ch ∨ c = .dmaSkip src ch ∨ c = .dmaAbort src ch →
      Answers c s fun m => m.busStatus = 3 ∧ OnlyRegs s m []) ∧
    (∀ mv d, (s.chan ch.val).owner = .plan mv → (s.chan ch.val).planOwned = true → (s.chan ch.val).phase = .halted →
      (s.chan ch.val).desc = some d → s.cpHalted = false → d.last = true → s.planMoves = [] →
      Answers (.planChannelSkip ch) s fun m => m.chan ch.val = { DmaCh.rest with planOwned := true } ∧ m.mem = s.mem ∧
        (d.signal = true → m.sync d.sigObj = s.sync d.sigObj + 1) ∧ (d.signal = false → m.syncs = s.syncs))

/-- Clip rings (R325, R326, R328): a complete frame's copy is queued on its plan channel, or counted as skipped while the
ring is FROZEN; the end of a copy writes its number into the ring's header; FREEZE stops the ring at once or after the
frames it counts, and THAW lets it run again; a handle that names no clip ring is refused. Deliveries (R349, R350):
the end of a unit queues its copy on the delivery's channel; a suspended delivery counts the unit instead;
RESUME_DELIVERY asks a suspended delivery to go on and answers with its count, which starts again at 0. -/
def Obligations.ClipsAndDeliveriesComplete : Prop :=
  (∀ (c : PortId) (k : Fin 4) (y : Clip) (r : Region) (s : State), s.boot ≠ .off →
      s.clips.find? (4 * c.val + k.val) = some y → s.region? (s.rd (NIS_OUT_CLIP c k)) = some r → s.poison = [] →
      s.ueSectors = [] → s.latent = [] → s.gather = [] →
      (∀ st, s.streams.find? c.val = some st → s.outDest c k NIS_OUT_DEST_clip = true →
        (s.ctx c).unitsEnded (48 + k.val) < s.framesOut c st →
        (y.frozen = true → Answers (.clipFrameCopy c k) s fun m => m.planMoves = s.planMoves ∧
          m.clips.find? (4 * c.val + k.val) = some { y with dropped := min (y.dropped + 1) 0xFFFFFFFF } ∧
          (∀ i < 4, m.byte (r.base + 20 + i) = (leBytes 4 (min (y.dropped + 1) 0xFFFFFFFF))[i]?.getD 0) ∧
          ∀ a, a < r.base ∨ r.base + 64 ≤ a → m.byte a = s.byte a) ∧
        (∀ ch, y.frozen = false → st.plan.channels[k.val % max 1 st.plan.channels.length]? = some ch →
          (s.chan ch).phase ≠ .idle → Answers (.clipFrameCopy c k) s fun m => m.clips = s.clips ∧ m.mem = s.mem ∧
            ∃ j, m.planMoves = s.planMoves ++ [j] ∧ j.ch.val = ch % 64 ∧
              j.mv = .clip c k (BitVec.ofNat 32 ((s.ctx c).unitsEnded (48 + k.val))) ∧
              j.desc.rowBytes = (s.outGeom c k).slotBytes ∧
              j.desc.dst = r.base + 256 + (s.ctx c).unitsEnded (48 + k.val) % max 1 (s.clipSlots c k r).2 *
                (s.clipSlots c k r).1)) ∧
      (∀ f l, y.done = f :: l → Answers (.clipHeaderUpdate c k) s fun m =>
        (∃ z, m.clips.find? (4 * c.val + k.val) = some z ∧ z.newest = f ∧ z.done = l ∧
          z.frozen = (y.frozen || y.pend && y.left = 1 || y.pend && y.left = 0)) ∧
        (s.planMoves = [] → (∀ i < 4, m.byte (r.base + 8 + i) = (leBytes 4 f.toNat)[i]?.getD 0) ∧
          ∀ a, a < r.base ∨ r.base + 64 ≤ a → m.byte a = s.byte a)) ∧
      (∀ h x region after, s.clipsOf region = [(c.val, k.val)] →
        let freezes := Startable s h 13 (entryHas [(8, 4, region.toNat), (12, 1, 0), (16, 4, after.toNat)]) x
        (freezes → after = 0 → Answers (.freeze h region after) s fun m =>
          (∃ z, m.clips.find? (4 * c.val + k.val) = some z ∧ z.frozen = true ∧ z.pend = false ∧ z.left = 0) ∧
          Completes m h 13 x 0 0) ∧
        (freezes → after ≠ 0 → Answers (.freeze h region after) s fun m =>
          m.clips.find? (4 * c.val + k.val) = some { y with pend := true, left := after.toNat } ∧ Completes m h 13 x 0 0) ∧
        (Startable s h 13 (entryHas [(8, 4, region.toNat), (12, 1, 1)]) x → Answers (.thaw h region) s fun m =>
          m.clips.find? (4 * c.val + k.val) = some { y with frozen := false, pend := false, left := 0 } ∧
          (m.byte (r.base + 6)).getLsbD 0 = false ∧ Completes m h 13 x 0 0)) ∧
      (∀ h x region after i op, s.clipsOf region = [] →
        (op = [(12, 1, 0), (16, 4, after.toNat)] ∧ i = .freeze h region after) ∨ (op = [(12, 1, 1)] ∧ i = .thaw h region) →
        Startable s h 13 (entryHas ((8, 4, region.toNat) :: op)) x → Answers i s fun m => m.clips = s.clips ∧ m.mem = s.mem ∧ Completes m h 13 x 3 0)) ∧
  (∀ (c : PortId) (j : Fin 4) (st : Stream) (d : Delivery) (s : State), s.boot ≠ .off → s.streams.find? c.val = some st →
      st.setup.deliveries[j.val]? = some d →
      ((s.ctx c).unitsEnded (32 + j.val) < (s.ctx c).unitsEnded d.after →
        (d.suspended = true → Answers (.deliveryCopy c j) s fun m => m.planMoves = s.planMoves ∧ m.mem = s.mem ∧
          (m.ctx c).unitsEnded (32 + j.val) = (s.ctx c).unitsEnded (32 + j.val) + 1 ∧
          (m.streams.find? c.val).bind (fun t => t.setup.deliveries[j.val]?) =
            some { d with notCopied := BitVec.ofNat 32 (min (d.notCopied.toNat + 1) 0xFFFFFFFF) }) ∧
        (∀ ch, d.suspended = false →
          st.plan.channels[(st.plan.channels.length - st.setup.deliveries.length + j.val) %
            max 1 st.plan.channels.length]? = some ch → (s.chan ch).phase ≠ .idle →
          Answers (.deliveryCopy c j) s fun m => m.streams = s.streams ∧ m.mem = s.mem ∧
            (m.ctx c).unitsEnded (32 + j.val) = (s.ctx c).unitsEnded (32 + j.val) + 1 ∧
            ∃ q, m.planMoves = s.planMoves ++ [q] ∧ q.desc.rowBytes = d.bytes ∧ q.desc.dst = s.apertureOf d.window +
              (s.ctx c).unitsEnded (32 + j.val) % max 1 d.slots * d.bytes)) ∧
      (∀ h x stream, Startable s h 15 (entryHas [(8, 4, stream.toNat), (12, 1, j.val)]) x →
        s.streamOf stream = some (c, st) →
        Answers (.resumeDelivery h stream (BitVec.ofNat 8 j.val)) s fun m =>
          if d.suspended then Completes m h 15 x 0 d.notCopied.toNat ∧
            (m.streams.find? c.val).bind (fun t => t.setup.deliveries[j.val]?) =
              some { d with resume := true, notCopied := 0 }
          else Completes m h 15 x 0 0 ∧ m.streams = s.streams) ∧
      (∀ h x stream (i : Byte), Startable s h 15 (entryHas [(8, 4, stream.toNat), (12, 1, i.toNat)]) x →
        s.streamOf stream = none → Answers (.resumeDelivery h stream i) s fun m =>
        Completes m h 15 x 3 0 ∧ m.streams = s.streams))

/-! ### Streams, modes and jobs (12_admission_modes) -/

/-- The operands of an ADMIT (R345). -/
def admitOperands (setup report : W64) (len : Word) : List Byte → Bool :=
  entryHas [(8, 8, setup.toNat), (16, 8, report.toNat), (24, 4, len.toNat)]

/-- The ADMIT has completed, or its report is on its way through a window, and its acknowledgement completes it (R21, R360). -/
def Reported (s : State) (m : Module) (q : AdmitReq) (status result : Nat) : Prop :=
  CompletesRef s m q.cmd status result ∨ inWindows q.report = true ∧
    ∃ w ∈ m.winOut, w.use = .report q.cmd (BitVec.ofNat 8 status) (BitVec.ofNat 64 result)

/-- ADMIT and RELEASE (R343, R345, R352, R356 to R361): an ADMIT whose set-up can be read waits in the fox's hands; one whose
record is not aligned is refused. The fox finishes it: a set-up that fails FORM is refused with the number of its check
and books nothing; so is one that fails checks 2 to 10, with the lowest number; one that passes every check becomes a waiting
stream with that plan under the context's handle; every other stream stays as before. The command completes once a report that it
asks for has been written; where the weights to be copied hold a bad word it ends with BUS_ERROR (the model's choice, assumption
log 88). RELEASE starts the end of the stream its handle names; when all of its work has
drained the stream is gone, plan-owned objects keep their values, and the command completes. -/
def Obligations.AdmissionCompletes : Prop :=
  ∀ (h : CmdHdr) (x : Session) (s : State),
    (∀ setup report len rec hd b, StartableRun s h 1 (admitOperands setup report len) x → s.serialTurn h 1 = true →
      s.latent = [] → s.modeChange = none → s.recordBusy setup.toNat setupLen = false → setup.toNat % 64 = 0 →
      (report = 0 ∨ 64 ≤ len.toNat) → s.recordRead setup.toNat 64 rec = .ok hd →
      s.recordRead setup.toNat (setupLen hd) rec = .ok b → Answers (.admitStream h setup report len rec) s fun m =>
        Underway m h 1 ∧ m.streams = s.streams ∧ m.mem = s.mem ∧ ∃ q, m.admitting = some q ∧
          q.cmd = ⟨h.session, x.gen, h.tag, 1⟩ ∧ q.addr = setup.toNat ∧ q.setup = setupOf b ∧ q.malformed = setupBad b ∧
          q.report = report.toNat ∧ q.reportLen = len.toNat) ∧
    (∀ setup report len rec, StartableRun s h 1 (admitOperands setup report len) x → s.serialTurn h 1 = true →
      s.modeChange = none → s.recordBusy setup.toNat setupLen = false → setup.toNat % 64 ≠ 0 →
      Answers (.admitStream h setup report len rec) s fun m => m.streams = s.streams ∧ m.admitting = none ∧
        (m.rd SYS_ADM_CNT_REFUSED).toNat = min ((s.rd SYS_ADM_CNT_REFUSED).toNat + 1) 0xFFFFFFFF ∧
        Completes m h 1 x 3 0) ∧
    (∀ (c : PortId) q, s.boot ≠ .off → s.cpHalted = false → s.fullFill = none → s.leaving = false → s.admitting = some q →
      q.setup.ctx = c.val → s.reportWaits q = false → (∀ w ∈ s.winOut, ∀ r st n, w.use ≠ .report r st n) →
      let m0 : Module := { s.toModule with admitting := none }
      (∀ l, m0.form q = some l → Answers (.admitComplete c) s fun m => m.admitting = none ∧ m.streams = s.streams ∧
        m.dma = s.dma ∧ m.regions = s.regions ∧ m.syncOwner = s.syncOwner ∧ (q.report = 0 → m.mem = s.mem) ∧
        Reported s m q 3 (lowestCheck l * 2 ^ 32)) ∧
      (m0.form q = none → Answers (.admitComplete c) s fun m => m.admitting = none ∧
        (∀ l out m1, m0.makePlan (m0.formIn q.setup) = (.error l, out, m1) → m.streams = s.streams ∧ m.dma = s.dma ∧
          m.regions = s.regions ∧ m.syncOwner = s.syncOwner ∧ (q.report = 0 → m.mem = s.mem) ∧
          Reported s m q 3 (lowestCheck l * 2 ^ 32)) ∧
        (∀ p out m1, m0.makePlan (m0.formIn q.setup) = (.ok p, out, m1) →
          ((m1.meetCopies (m1.weightCopies q.setup p)).1 = false → ∃ st, m.streams.find? c.val = some st ∧
            st.setup = q.setup ∧ st.plan = p ∧ st.phase = .waiting ∧ st.gen = SMap.get 1 s.streamGen c.val ∧
            (∀ o ∈ p.objects, m.sync o = 0 ∧ m.owned o = true) ∧ Reported s m q 0 (st.gen * 65536 + c.val)) ∧
          ((m1.meetCopies (m1.weightCopies q.setup p)).1 = true → m.streams = s.streams ∧
            CompletesRef s m q.cmd 10 0)) ∧
        ∀ d, d ≠ c.val → m.streams.find? d = s.streams.find? d)) ∧
    (∀ stream, Startable s h 2 (entryHas [(8, 4, stream.toNat)]) x → s.serialTurn h 2 = true → s.modeChange = none →
      (∀ c st, s.streamOf stream = some (c, st) → Answers (.release h stream) s fun m => Underway m h 2 ∧
        (∃ t, m.streams.find? c.val = some t ∧ t.phase = .releasing ∧ t.plan = st.plan ∧ t.gen = st.gen) ∧
        ∀ d, d ≠ c.val → m.streams.find? d = s.streams.find? d) ∧
      (s.streamOf stream = none → Answers (.release h stream) s fun m => m.streams = s.streams ∧
        Completes m h 2 x 3 0)) ∧
    (∀ (c : PortId) st r p, s.boot ≠ .off → s.cpHalted = false → s.streams.find? c.val = some st → st.phase = .releasing →
      s.streamDrained c st = true → st.releaseBy = some (r, p) → s.transition = none → s.fullFill = none →
      Answers (.releaseComplete c) s fun m => m.streams.find? c.val = none ∧
        (∀ d, d ≠ c.val → m.streams.find? d = s.streams.find? d) ∧ m.syncs = s.syncs ∧
        (∀ o, m.syncOwner.find? o ≠ some c.val) ∧ CompletesRef s m r 0 0)

/-- Deadlines and the cap (R355, R371 to R373, R446): a unit that is late is counted and reported once; the cap in force is the
smaller of the thermal and the supply cap; plans that exceed it alone are reported and run on, no stream changed. -/
def Obligations.DeadlinesAndCapComplete : Prop :=
  ∀ (s : State), s.boot ≠ .off →
    (∀ (c : PortId) subject frame stripe late st, s.streams.find? c.val = some st → s.hasDeadline c st subject = true →
      frame.toNat < (s.ctx c).index.toNat → s.sentDark c st subject frame stripe = false →
      (st.late.contains (subject, frame, stripe) = false → Answers (.deadlineMissed c subject frame stripe late) s fun m =>
        (m.rd SYS_ADM_CNT_MISSED).toNat = min ((s.rd SYS_ADM_CNT_MISSED).toNat + 1) 0xFFFFFFFF ∧
        Raised m 0x0801 c.val subject frame.toNat (stripe.toNat + 65536 * st.gen) (min late 0xFFFFFFFF) ∧
        (∀ t, m.streams.find? c.val = some t → t.late.contains (subject, frame, stripe) = true ∧ t.plan = st.plan)) ∧
      (st.late.contains (subject, frame, stripe) = true →
        exec (.deadlineMissed c subject frame stripe late) s = .next s)) ∧
    (s.bit PWR_TEMP_STAT PWR_TEMP_STAT_cap_held = false → Answers .thermalCapUpdate s fun m =>
      m.fld PWR_CAP PWR_CAP_thermal_dw = thermalCap s.mode s.coldPlate ∧
      m.cap = min (thermalCap s.mode s.coldPlate) (supplyCap ((s.powerSamples.take 10000).map (·.1))) ∧
      m.streams = s.streams ∧ m.jobs = s.jobs ∧ m.engines = s.engines) ∧
    (s.cap < s.fld SYS_ADM_POWER SYS_ADM_POWER_planned_dw → Answers .planOverCap s fun m =>
      Raised m 0x0805 255 0 (s.fld PWR_IN_P PWR_IN_P_p_100ms_dw) (s.fld SYS_ADM_POWER SYS_ADM_POWER_planned_dw) s.cap ∧
      m.core = s.toModule.core)

/-- R371: the thermal cap in 0.1 W at a cold plate of t sixteenths of a degree is the mode's cap to 70 °C, its value at 85 °C from
there on, and between them the greatest multiple of 0.5 W that is not above the straight line, so it never rises with the
temperature. The three lines are the table's. The PMC's update works the cap out from the cold plate it measures, and the cap
in force is the result where the supply allows as much. -/
def Obligations.ThermalCapFallsLinearly : Prop :=
  (∀ (mode base low fall : Nat), (mode, base, low, fall) ∈ [(0, 1500, 1050, 30), (1, 1850, 1250, 40), (2, 950, 800, 10)] →
    ∀ t : Int, thermalCap mode t % 5 = 0 ∧ (t ≤ 70 * 16 → thermalCap mode t = base) ∧
      (85 * 16 ≤ t → thermalCap mode t = low) ∧
      (70 * 16 ≤ t → t ≤ 85 * 16 → (thermalCap mode t : Int) * 16 ≤ base * 16 - fall * (t - 70 * 16) ∧
        (base * 16 - fall * (t - 70 * 16) : Int) < (thermalCap mode t + 5) * 16) ∧
      ∀ u, t ≤ u → thermalCap mode u ≤ thermalCap mode t) ∧
  ∀ s : State, s.boot ≠ .off → s.bit PWR_TEMP_STAT PWR_TEMP_STAT_cap_held = false →
    Answers .thermalCapUpdate s fun m =>
      m.fld PWR_CAP PWR_CAP_thermal_dw = thermalCap s.mode s.coldPlate ∧
      (thermalCap s.mode s.coldPlate ≤ supplyCap ((s.powerSamples.take 10000).map (·.1)) →
        m.cap = thermalCap s.mode s.coldPlate)

/-- Mode changes (R369, R370): a request for another mode starts the re-planning, one for the mode in use changes nothing, one
for mode 3 is refused, one during a change is BUSY. A stream that cannot be planned refuses the change and leaves every stream
as it is; otherwise the streams stop with their plans for the new mode; the clocks switch when all have stopped, and the new
plans are installed; MODE_CHANGED says that every stream is ACTIVE again, and PWR_MODE shows the new mode from then on. -/
def Obligations.ModeChangesComplete : Prop :=
  ∀ (s : State), s.boot ≠ .off →
    (∀ src (mode : Fin 4), Admits s src true PWR_MODE → s.fullFill = none → Answers (.modeChangeRequest src mode) s fun m =>
      m.streams = s.streams ∧ m.fld PWR_MODE PWR_MODE_mode = s.fld PWR_MODE PWR_MODE_mode ∧
      if mode.val = 3 then m.busStatus = 3 ∧ m.modeChange = s.modeChange
      else if s.modeChange.isSome then m.busStatus = 2 ∧ m.modeChange = s.modeChange
      else if mode.val = s.mode then m.busStatus = 0 ∧ m.modeChange = none
      else m.busStatus = 0 ∧ m.modeChange = some ⟨mode.val, .replanning, []⟩ ∧
        m.fld SYS_ADM_STAT SYS_ADM_STAT_changing = 1) ∧
    (∀ x, s.cpHalted = false → s.modeChange = some x → x.target < 3 → x.phase = .replanning → s.admitting = none →
      let r := planAll (s.byAdmission.filter fun e => e.2.phase ≠ .releasing) (s.inMode x.target).unplanned
      (r.2.1 ≠ 0 → Answers .modeReplanDone s fun m => m.modeChange = none ∧ m.streams = s.streams ∧
        m.fld SYS_ADM_STAT SYS_ADM_STAT_changing = 0 ∧ Raised m 0x0802 255 x.target r.2.1 0 0) ∧
      (r.2.1 = 0 → Answers .modeReplanDone s fun m =>
        m.modeChange = some { x with phase := .stopping, plans := r.2.2.1 } ∧ m.mode = s.mode ∧
        ∀ d st, s.streams.find? d = some st → m.streams.find? d =
          some (if st.phase = .releasing then st else { st with phase := .stopped }))) ∧
    (∀ x, s.cpHalted = false → s.modeChange = some x → x.phase = .stopping → s.enginesIdle = true →
      (s.streams.all fun e => e.2.phase = .stopped && s.streamDrained e.1 e.2) = true →
      x.plans.Pairwise (fun a b => a.1 ≠ b.1) → Answers .modeClockSwitch s fun m =>
        m.modeChange = some { x with phase := .starting } ∧ m.mode = x.target ∧
        (∀ d p st, (d, p) ∈ x.plans → s.streams.find? d = some st →
          m.streams.find? d = some { st with plan := p, phase := .waiting, late := [] })) ∧
    (∀ x, s.cpHalted = false → s.modeChange = some x → x.target < 3 → x.phase = .starting → s.streams.any (·.2.phase = .waiting) = false →
      Answers .modeChanged s fun m => m.modeChange = none ∧ m.mode = x.target ∧
        m.fld PWR_MODE PWR_MODE_mode = x.target ∧ m.streams = s.streams ∧
        m.fld SYS_ADM_STAT SYS_ADM_STAT_changing = 0 ∧
        Raised m 0x0803 255 x.target (s.fld PWR_MODE PWR_MODE_mode) x.plans.length 0)

/-- Jobs (R364 to R368, R396): a job whose record is well formed is queued with its tasks; a malformed one is refused and one
past its expiry completes with EXPIRED; a queued task of a job that is handed to it is placed on a free engine that has room for its program, and one that is run
again in its own cluster with the variant it had; a preempted task stops
and will be queued again; WITHDRAW of a job not yet dispatched ends it with WITHDRAWN before the command completes with OK, and
one that names no job completes with OK at once. -/
def Obligations.JobsComplete : Prop :=
  ∀ (h : CmdHdr) (x : Session) (s : State),
    (∀ record rec hd b, StartableRun s h 3 (entryHas [(8, 8, record.toNat)]) x → s.latent = [] → record.toNat % 64 = 0 →
      s.recordBusy record.toNat jobLen = false → s.recordRead record.toNat 64 rec = .ok hd →
      s.recordRead record.toNat (jobLen hd) rec = .ok b → fieldAt b 1 1 = 0 →
      (jobForm b = true → (jobStages b).all s.jobStageOk = true → s.jobChainOk (jobStages b) (arrayAt b 20 2 7) = true →
        Answers (.job h record rec) s fun m => Underway m h 3 ∧ m.mem = s.mem ∧
          ∃ j, m.jobs = s.jobs ++ [j] ∧ j.id = s.nextJob ∧ j.cmd = ⟨h.session, x.gen, h.tag, 3⟩ ∧ j.stages = jobStages b ∧
            j.dispatched = false ∧ j.expiry = .none ∧
            j.tasks = (jobStages b).map fun st => List.replicate st.tasks (.queued, 0, false)) ∧
      (jobForm b = false → Answers (.job h record rec) s fun m => m.jobs = s.jobs ∧ Completes m h 3 x 3 0)) ∧
    (∀ record rec, StartableRun s h 3 (entryHas [(8, 8, record.toNat)]) x → record.toNat % 64 ≠ 0 →
      s.recordBusy record.toNat jobLen = false → Answers (.job h record rec) s fun m =>
      m.jobs = s.jobs ∧ Completes m h 3 x 3 0) ∧
    (∀ (j : Job) stage task (cl : Fin 8) (logical : Fin 17) e n again st, s.boot ≠ .off → s.job? j.id = some j →
      s.posOf cl logical = some e → j.task? stage task = some (.queued, n, again) → j.stages[stage]? = some st →
      s.dispatching = true → j.withdrawing = false → j.outcome = none → s.handed j stage = true →
      s.takesJob e (s.stageRes st) = true → (logical.val ≠ 16 ∨ s.tests = false) →
      s.jobFits j st stage task (17 * cl.val + logical.val) = true → j.expiry = .none → s.argsBusy st 1 = false →
      (if SMap.get 0 j.clusters (jobKey stage task) = 0 then s.rerunWaits cl e = false ∧
          s.jobAhead e cl (17 * cl.val + logical.val) j.id (s.jobCost st task) = false
        else SMap.get 0 j.clusters (jobKey stage task) = cl.val + 1) →
      Answers (.jobDispatch j.id stage task cl logical) s fun m =>
        (m.eng e).assigned = some (.job j.id stage task, n, again) ∧
        (∃ k, m.job? j.id = some k ∧ k.dispatched = true ∧ k.task? stage task = some (.running e, n, again) ∧
          (∀ v, j.variants.find? (jobKey stage task) = some v → k.variants.find? (jobKey stage task) = some v)) ∧
        ∀ f, f ≠ e → m.eng f = s.eng f) ∧
    (∀ (e : EngPos) t, s.boot ≠ .off → s.cpHalted = false → (s.eng e).task = some t → refIsJob t.ref = true → t.abort = none →
      t.exec.ended = false → Answers (.jobPreempt e) s fun m =>
        (∃ u, (m.eng e).task = some u ∧ u.abort = some ⟨255, 0, false⟩ ∧ u.ref = t.ref ∧ u.qa = [] ∧ u.writes = []) ∧
        m.mem = s.mem ∧ m.syncs = s.syncs ∧ (∀ f, f ≠ e → m.eng f = s.eng f) ∧
        (m.rd SYS_ADM_CNT_PREEMPT).toNat = min ((s.rd SYS_ADM_CNT_PREEMPT).toNat + 1) 0xFFFFFFFF) ∧
    (∀ tag, Startable s h 4 (entryHas [(8, 4, tag.toNat)]) x →
      (s.jobs.all (fun j => !(j.cmd.session = h.session && j.cmd.gen = x.gen && j.cmd.tag = tag)) = true →
        Answers (.withdraw h tag) s fun m => m.jobs = s.jobs ∧ Completes m h 4 x 0 0) ∧
      (∀ j, s.jobs.filter (fun j => j.cmd.session = h.session && j.cmd.gen = x.gen && j.cmd.tag = tag) = [j] →
        s.job? j.id = some j → j.dispatched = false → j.held = false → j.cmd.opcode = 3 → s.withdraws = [] →
        Answers (.withdraw h tag) s fun m => m.withdraws = [] ∧ (cqRoom x = true → m.job? j.id = none) ∧
          (cqRoom x = false → ∃ k, m.job? j.id = some k ∧ k.held = true) ∧
          (x.cqWait = [] → ringUsed x.cqTail x.cqHead + 1 < x.cqN → ∃ y, m.sessions.find? h.session.val = some y ∧
            (y.taken.filter fun t => t.tag = h.tag && t.opcode = 4).length + 1 =
              (x.taken.filter fun t => t.tag = h.tag && t.opcode = 4).length)))

/-- Packages and plain ring commands (R235, R237, R393, R395, R403): NOP completes with OK and a reserved opcode with REFUSED;
SET_EVENTS sets the mask of its session alone; LOAD_PKG enters a package the loader accepts under a free number and refuses
another with the loader's error and index; UNLOAD_PKG removes a package that no stream and no job names, and refuses one that is
in use. -/
def Obligations.PackagesAndPlainCommandsComplete : Prop :=
  ∀ (h : CmdHdr) (x : Session) (s : State),
    (Startable s h 0 (entryHas []) x → Answers (.nop h) s fun m => Completes m h 0 x 0 0 ∧
      m.core = s.toModule.core) ∧
    (∀ op : Byte, Startable s h op.toNat reservedEntry x → 16 ≤ op.toNat ∨ op = 11 ∨ op = 13 → Answers (.reservedOpcode h op) s fun m =>
      Completes m h op.toNat x 3 0 ∧ m.core = s.toModule.core) ∧
    (∀ mask, Startable s h 14 (entryHas [(8, 4, mask.toNat)]) x → Answers (.setEvents h mask) s fun m => Completes m h 14 x 0 0 ∧
      (∃ y, m.sessions.find? h.session.val = some y ∧ y.mask = mask) ∧
      (∀ n, n ≠ h.session.val → (m.sessions.find? n).map (·.mask) = (s.sessions.find? n).map (·.mask)) ∧
      m.core = s.toModule.core) ∧
    (∀ region off size r, StartableRun s h 5 (entryHas [(8, 4, region.toNat), (16, 8, off.toNat), (24, 8, size.toNat)]) x →
      s.serialTurn h 5 = true → s.latent = [] → s.region? region = some r → off.toNat % 64 = 0 →
      off.toNat + size.toNat ≤ r.size → s.packages.length < 1023 → s.poison = [] → s.ueSectors = [] →
      let v := s.loaderError (r.base + off.toNat) size.toNat
      (v.1 ≠ 0 → Answers (.loadPkg h region off size) s fun m => m.packages = s.packages ∧ m.mem = s.mem ∧
        Completes m h 5 x 3 (v.2 + v.1 * 2 ^ 32)) ∧
      (v.1 = 0 → (∃ k, 1 ≤ k ∧ k ≤ 1023 ∧ s.packages.find? k = none) → Answers (.loadPkg h region off size) s fun m =>
        ∃ k p, s.packages.find? k = none ∧ m.packages.find? k = some p ∧ p.addr = r.base + off.toNat ∧
          p.size = size.toNat ∧ p.gen = SMap.get 1 s.packageGen k ∧ m.mem = s.mem ∧
          (∀ j, j ≠ k → m.packages.find? j = s.packages.find? j) ∧ Completes m h 5 x 0 (p.gen * 65536 + k))) ∧
    (∀ package p, Startable s h 6 (entryHas [(8, 4, package.toNat)]) x → s.serialTurn h 6 = true → s.package? package = some p →
      Answers (.unloadPkg h package) s fun m =>
        if (s.streams.any fun e => s.streamNames e.1 e.2 package) ||
            s.jobs.any (·.stages.any fun st => samePkg st.package package) then
          m.packages = s.packages ∧ Completes m h 6 x 3 0
        else m.packages.find? (package.toNat % 1024) = none ∧ Completes m h 6 x 0 0 ∧
          ∀ j, j ≠ package.toNat % 1024 → m.packages.find? j = s.packages.find? j)

/-! ### The host link (13_host_link) -/

/-- The last message that has left is this answer to `h` (R375 to R377): its own type with RESP, its seq, back to its sender; the
epoch is 0 in an answer to WAKE. -/
def Answered (m : Module) (h : Hdr) (type status retry : Nat) (payload : List Byte) : Prop :=
  ∃ port vid rtag cl, m.outbox.getLast? = some (.ywp port h.peer vid rtag cl ⟨h.version, BitVec.ofNat 8 type, true, false,
    h.src, h.session, h.seq, BitVec.ofNat 16 status, BitVec.ofNat 16 retry, if type = 8 then 0 else m.epoch, payload⟩)

/-- A message of session `n` passes the gate (R378): addressed to a ready module, of an attached session with the right
generation, epoch and version. -/
def Served (s : State) (h : Hdr) (n : Nat) (x : Session) : Prop :=
  s.addressed h false = true ∧ s.ready = true ∧ s.sessionOf h.session = some (n, x) ∧ h.epoch = s.epoch ∧
    h.version = x.version

/-- Every session but `n` is as attached as before. -/
def OthersStay (s : State) (m : Module) (n : Nat) : Prop :=
  ∀ k, k ≠ n → (m.sessions.find? k).map (·.gen) = (s.sessions.find? k).map (·.gen)

/-- Sessions (R381 to R385, R410): an ATTACH waits to be served, or is answered SESSION_LIMIT with 256 sessions attached and
BAD_MESSAGE with a payload of another length; serving it gives the lowest free number a new session, or refuses it with
the offset of its bad field; a DETACH whose reason is no reserved code, an expired keepalive and a ring that cannot be read end the session, and no other. -/
def Obligations.SessionsComplete : Prop :=
  ∀ (h : Hdr) (b : List Byte) (s : State),
    (s.addressed h false = true → s.ready = true →
      s.attachDone = [] → (s.attachWait.all fun a => !(a.m.src = h.src && a.m.seq = h.seq)) = true → (b.length = 64 →
        (s.sessions.length < 256 → s.attachWait.length < 64 → Answers (.attach h b) s fun m =>
          m.attachWait = s.attachWait ++ [⟨h, b⟩] ∧ m.outbox = s.outbox ∧ m.sessions = s.sessions) ∧
        (256 ≤ s.sessions.length → Answers (.attach h b) s fun m => Answered m h 1 35 0 [] ∧ m.sessions = s.sessions ∧
          m.attachWait = s.attachWait)) ∧
      (b.length ≠ 64 → Answers (.attach h b) s fun m => Answered m h 1 34 0 [] ∧ m.attachWait = s.attachWait)) ∧
    (∀ a rest d, s.attachWait = a :: rest → s.ready = true → s.cpHalted = false → 16 ≤ fieldAt a.payload 1 1 → fieldAt a.payload 0 1 ≤ 16 →
      (attachBad a.payload = none → (∃ k < 256, s.sessions.find? k = none) → Answers (.attachServe (.data d)) s fun m =>
        m.attachWait = rest ∧ ∃ n < 256, s.sessions.find? n = none ∧ (∀ k < n, s.sessions.find? k ≠ none) ∧
          m.sessions.find? n = some (newSession a.m a.payload (nextSessionGen (SMap.get 0 s.sessionGen n))) ∧
          ∀ k, k ≠ n → m.sessions.find? k = s.sessions.find? k) ∧
      (∀ o probe, attachBad a.payload = some o → Answers (.attachServe probe) s fun m =>
        m.attachWait = rest ∧ m.sessions = s.sessions ∧ ∃ vid x,
          m.outbox.getLast? = some (.ywp a.m.port a.m.peer vid none 0 x) ∧
          x.status = 3 ∧ x.seq = a.m.seq ∧ x.payload = s.attachPayload 0 o)) ∧
    (∀ n x, Served s h n x → b.length = 4 →
      (reservedStatus (fieldAt b 0 4) = false → Answers (.detach h b) s fun m => m.sessions.find? n = none ∧
        OthersStay s m n ∧ Answered m h 2 0 0 [] ∧ Raised m 0x0D02 255 (sessionField n x).toNat (fieldAt b 0 4) 0 0) ∧
      (reservedStatus (fieldAt b 0 4) = true → Answers (.detach h b) s fun m => m.sessions = s.sessions ∧
        Answered m h 2 3 0 [])) ∧
    (∀ (n : Fin 256) x, s.boot ≠ .off → s.sessions.find? n.val = some x → Answers (.sessionKeepaliveTimeout n) s fun m =>
      m.sessions.find? n.val = none ∧ OthersStay s m n.val ∧ m.mem = s.mem) ∧
    (∀ (n : Fin 256) x, s.serving = true → s.nextTurn = some n.val → s.sessions.find? n.val = some x →
      x.inline.find? (·.1 = x.sqHead) = none → Answers (.submissionEntryTake n .unanswered) s fun m =>
        m.sessions.find? n.val = none ∧ OthersStay s m n.val)

/-- The messages of a session (R376, R389, R391, R406 to R408): KEEPALIVE is answered with the counts when an answer is
asked; DOORBELL moves the counts that lie ahead, or is turned away whole when a ring would overflow; JOURNAL_READ
answers with the entries asked for; REG_ACCESS reads and writes registers in order, and a repeated one gets the kept
response and executes nothing. Rings (R389 to R392, R399, R405): the entry of the session whose turn it is is taken,
from its inline copy first, otherwise from the bytes of one read of the ring, and keeps its place in the order of takes and what
its check found (R287), unless it is a JOB or a DMA that waits in its ring; a completion that waits is written in order when an entry
is free, and its job leaves the queue; the EVENTS_LOST entry
says how many were lost and starts the count again; a NOTIFY carries the counts. -/
def Obligations.SessionMessagesAndRingsComplete : Prop :=
  (∀ (h : Hdr) (b : List Byte) (n : Nat) (x : Session) (s : State), Served s h n x →
      (b = [] → Answers (.keepalive h b) s fun m => m.sessions = s.sessions ∧ m.regs = s.regs ∧ m.mem = s.mem ∧
        if h.ackReq then Answered m h 3 0 0 (notifyPayload x) else m.outbox = s.outbox) ∧
      (b.length = 16 + 64 * fieldAt b 12 1 → fieldAt b 12 1 ≤ 16 →
        let sq := advance (BitVec.ofNat 32 (fieldAt b 0 4)) x.sqTail
        let cq := advance (BitVec.ofNat 32 (fieldAt b 4 4)) x.cqHead
        let eq := advance (BitVec.ofNat 32 (fieldAt b 8 4)) x.eqHead
        (ringUsed sq x.sqHead ≤ x.sqN ∧ ringUsed x.cqTail cq ≤ x.cqN ∧ ringUsed x.eqTail eq ≤ x.eqN →
          Answers (.doorbell h b) s fun m => (∃ y, m.sessions.find? n = some y ∧ y.sqTail = sq ∧ y.cqHead = cq ∧
            y.eqHead = eq ∧ y.sqHead = x.sqHead ∧ y.taken = x.taken) ∧ ∀ k, k ≠ n → m.sessions.find? k = s.sessions.find? k) ∧
        (x.sqN < ringUsed sq x.sqHead ∨ x.cqN < ringUsed x.cqTail cq ∨ x.eqN < ringUsed x.eqTail eq →
          Answers (.doorbell h b) s fun m => m.sessions = s.sessions ∧ Answered m h 5 34 0 [])) ∧
      (b.length = 8 → Answers (.journalRead h b) s fun m => m.journal = s.journal ∧ m.regs = s.regs ∧
        if s.cpHalted then Answered m h 7 1 0 []
        else if 1 ≤ fieldAt b 4 1 ∧ fieldAt b 4 1 ≤ 16 then
          Answered m h 7 0 0 (s.journalAnswer (BitVec.ofNat 32 (fieldAt b 0 4)) (fieldAt b 4 1))
        else Answered m h 7 3 0 []) ∧
      (∀ st r, x.lastReg = some (h.seq, st, r) → Answers (.regAccess h b) s fun m => Answered m h 4 st 0 r ∧ m.regs = s.regs ∧
        m.mem = s.mem ∧ m.sessions = s.sessions) ∧
      (∀ (p : PortId) (o : Nat), (∀ st r, x.lastReg ≠ some (h.seq, st, r)) → b.length = 12 → fieldAt b 0 1 = 1 →
        regOp b 0 = (CAP_TRIG_PERIOD p, o, BitVec.ofNat 32 (fieldAt b 8 4)) → s.transition = none →
        (o = 0 → Admits s (.session (BitVec.ofNat 8 n).toFin h.port) false (CAP_TRIG_PERIOD p) →
          Answers (.regAccess h b) s fun m => m.rd (CAP_TRIG_PERIOD p) = s.rd (CAP_TRIG_PERIOD p) ∧
            Answered m h 4 0 0 (leBytes 4 1 ++ leBytes 3 (CAP_TRIG_PERIOD p) ++ [0] ++
              leBytes 4 (s.rd (CAP_TRIG_PERIOD p)).toNat)) ∧
        (o = 1 → Admits s (.session (BitVec.ofNat 8 n).toFin h.port) true (CAP_TRIG_PERIOD p) → 100000 ≤ fieldAt b 8 4 →
          Answers (.regAccess h b) s fun m => (m.rd (CAP_TRIG_PERIOD p)).toNat = fieldAt b 8 4 ∧
            Answered m h 4 0 0 (leBytes 4 1 ++ leBytes 3 (CAP_TRIG_PERIOD p) ++ [0] ++ leBytes 4 (fieldAt b 8 4))))) ∧
  (∀ (n : Fin 256) (x : Session) (s : State), s.boot ≠ .off → s.sessions.find? n.val = some x →
      (∀ b e, s.serving = true → s.nextTurn = some n.val →
        (match x.inline.find? (·.1 = x.sqHead) with
          | some (_, c) => c = b
          | none => ∃ d, e = .data d ∧ d.length = 64 * readCount x ∧ b = d.take 64) →
        Answers (.submissionEntryTake n e) s fun m =>
          (s.entryWaits b = false → (∃ y, m.sessions.find? n.val = some y ∧ y.sqHead = x.sqHead + 1 ∧
            y.taken = x.taken ++ [⟨b.take 64, false, s.takeNo, s.takeCheck b⟩] ∧
            ∀ c ∈ y.inline, c.1 ≠ x.sqHead) ∧ m.takeNo = s.takeNo + 1) ∧
          (s.entryWaits b = true → ∃ y, m.sessions.find? n.val = some y ∧ y.sqHead = x.sqHead ∧ y.taken = x.taken) ∧
          m.lastTurn = n.val ∧ (∀ k, k ≠ n.val → m.sessions.find? k = s.sessions.find? k)) ∧
      (∀ e t, x.cqWait = e :: t → s.cpHalted = false → ringUsed x.cqTail x.cqHead < x.cqN → Answers (.completionWrite n) s fun m =>
        (∃ y, m.sessions.find? n.val = some y ∧ y.cqWait = t ∧ y.cqTail = x.cqTail + 1) ∧
        (∃ w ∈ m.winOut, w.use = .completion n ∧ w.msg.payload = winWritePayload x.ringWindow.toNat x.ringGen.toNat 0 0 0
          (x.cqOff + x.cqTail.toNat % x.cqN * 16) (complBytes e (phaseBit x.cqTail x.cqN))) ∧
        { m.core with jobs := [], fills := [] } = { s.toModule.core with jobs := [], fills := [] } ∧
        (e.more = true → m.core = s.toModule.core)) ∧
      (x.lost ≠ 0 → 2 ≤ eqFree x → s.cpHalted = false → Answers (.eventsLost n) s fun m =>
        (∃ y, m.sessions.find? n.val = some y ∧ y.lost = 0 ∧ y.eqTail = x.eqTail + 1) ∧
        (∃ e, m.trace.getLast? = some e ∧ e.code = 0x0D01 ∧ e.p1 = BitVec.ofNat 32 x.lost ∧ e.p2 = x.firstLost) ∧
        m.core = s.toModule.core) ∧
      (x.ackPending = true → s.cpHalted = false → (x.sqHead, x.cqTail, x.eqTail) ≠ x.lastNotify → x.notifyAt = 0 →
          s.formOn x.peer.udp = true → Answers (.notify n) s fun m =>
        (∃ y, m.sessions.find? n.val = some y ∧ y.ackPending = false ∧ y.lastNotify = (x.sqHead, x.cqTail, x.eqTail)) ∧
        (∃ port vid rtag cl g, m.outbox.getLast? = some (.ywp port x.peer vid rtag cl g) ∧ g.type = 6 ∧ g.resp = false ∧
          g.payload = notifyPayload x) ∧ m.core = s.toModule.core))

/-- What arrives without a session (R14, R375, R378, R409, R411, R414, R416): a frame for the module waits in its port's
receive queue, or is counted as dropped when it is too long or the queue is full; a frame that carries no message in an
accepted form, and a message that is too short, addressed to another node or MAC or of a reserved type, is discarded; a discarded one and an ARP request leave the queue, and only a request for the port's own address is answered; WAKE is answered OK by a ready module, and in STANDBY it
starts a wake. -/
def Obligations.ReceptionCompletes : Prop :=
  ∀ (port : Fin 2) (s : State), s.boot ≠ .off →
    (∀ f : RxFrame, s.bit PWR_DOM_STAT PWR_DOM_STAT_net = true → s.bit (NET_PORT_CFG port) NET_PORT_CFG_enable = true →
      let cnt := NET_CNT_RX_DROP port (s.frameClass port f)
      (s.fld (NET_PORT_CFG port) NET_PORT_CFG_max_frame < f.bytes → Answers (.netRxFrame port f) s fun m =>
        (m.rd cnt).toNat = min ((s.rd cnt).toNat + 1) 0xFFFFFFFF ∧ m.netPorts = s.netPorts) ∧
      (f.bytes ≤ s.fld (NET_PORT_CFG port) NET_PORT_CFG_max_frame → f.tag = none → f.rtag = none →
        s.macAccepts port f = true → s.filterOf port f = none → (s.netPort port).rxq.sum + f.bytes ≤ 65536 →
        Answers (.netRxFrame port f) s fun m => (m.netPort port).rxq = (s.netPort port).rxq ++ [f.bytes] ∧
          { m with netPorts := [] } = { s.toModule with netPorts := [] })) ∧
    (∀ l, (s.discards port l = true → Answers (.ywpFrameDiscard port l) s fun m =>
        (m.netPort port).rxq = (s.netPort port).rxq.drop 1 ∧
        { m with netPorts := [] } = { s.toModule with netPorts := [] }) ∧
      (s.discards port l = false → exec (.ywpFrameDiscard port l) s = .next s) ∧
      (s.ywpIn port l = none → s.discards port l = true) ∧
      (∀ p b, s.ywpIn port l = some (p, b) → b.length < 24 ∨ (headAt b 6 2 ≠ s.node.toNat ∧ headAt b 6 2 ≠ 0xFFFF) ∨
        reservedType (headAt b 1 1) = true ∨ s.macFor port.val (headAt l 0 6) (headAt b 1 1 = 8) = false →
          s.discards port l = true)) ∧
    (∀ target sender, Answers (.arpRequest port target sender) s fun m =>
      let own := s.rd (if port = 0 then YWP_IPV4_A else YWP_IPV4_B)
      m.outbox = s.outbox ++ (if target = own ∧ own ≠ 0 then [.arp port own sender] else []) ∧
      { m with netPorts := [], outbox := [] } = { s.toModule with netPorts := [], outbox := [] }) ∧
    (∀ h : Hdr, s.addressed h true = true → s.transition = none →
      (∀ b, b ≠ [] → s.ready = true ∨ s.power = 1 → Answers (.wake ⟨h, b⟩) s fun m => Answered m h 8 34 0 [] ∧
        m.power = s.power ∧ m.boot = s.boot ∧ m.transition = none) ∧
      (s.ready = true → Answers (.wake ⟨h, []⟩) s fun m => Answered m h 8 0 0 [] ∧ m.power = s.power ∧ m.boot = s.boot) ∧
      (s.power = 1 → s.wakeOn h.port.val = true → s.tooHot = false → s.notReadyAt.find? h.src.toNat = none →
        Answers (.wake ⟨h, []⟩) s fun m => Answered m h 8 1 200 [] ∧ m.boot = .verifying ∧
          (m.transition.map (·.target)) = some 2 ∧ m.dramOn = true) ∧
      (s.power = 1 → s.wakeOn h.port.val = false → s.notReadyAt.find? h.src.toNat = none → Answers (.wake ⟨h, []⟩) s fun m =>
        Answered m h 8 3 0 [] ∧ m.boot = s.boot ∧ m.transition = none))

/-! ### Windows and the network (14_network_peers) -/

/-- An answer is made exactly when the sender asks for one (R376). -/
def AnsweredIf (s : State) (m : Module) (h : Hdr) (type status : Nat) (payload : List Byte) : Prop :=
  if h.ackReq then Answered m h type status 0 payload else m.outbox = s.outbox

/-- Exported windows (R427 to R429, R431, R432): opening a window whose span lies in its region sets open, another is refused;
closing it advances its generation. A write that passes every check stores exactly its bytes and a read answers with the bytes
that are there; a sync operation is applied once, a repeat of it answered again without effect; what fails a check is
answered with its status and touches no memory and no object. -/
def Obligations.ExportedWindowsComplete : Prop :=
  ∀ (h : Hdr) (b : List Byte) (s : State),
    (∀ src (n : Fin 256) ctl, Admits s src true (YWP_EXP_CTL n) → takesWord (YWP_EXP_CTL n) ctl = true →
      (s.bit (YWP_EXP_CTL n) YWP_EXP_CTL_open = false → YWP_EXP_CTL_open.of ctl = 1 →
        Answers (.windowOpen src n ctl) s fun m => if s.spanInside n ctl then m.busStatus = 0 ∧
            m.bit (YWP_EXP_CTL n) YWP_EXP_CTL_open = true ∧ OnlyRegs s m [YWP_EXP_CTL n]
          else m.busStatus = 3 ∧ OnlyRegs s m []) ∧
      (s.bit (YWP_EXP_CTL n) YWP_EXP_CTL_open = true → ctl = YWP_EXP_CTL_open.put (s.rd (YWP_EXP_CTL n)) 0 →
        Answers (.windowClose src n ctl) s fun m => m.busStatus = 0 ∧
          m.bit (YWP_EXP_CTL n) YWP_EXP_CTL_open = false ∧
          m.fld (YWP_EXP_GEN n) YWP_EXP_GEN_gen = nextGen (s.fld (YWP_EXP_GEN n) YWP_EXP_GEN_gen) ∧
          OnlyRegs s m [YWP_EXP_CTL n, YWP_EXP_GEN n])) ∧
    (s.addressed h false = true → s.ready = true →
      let w := fieldAt b 0 2
      let gen := fieldAt b 2 2
      (24 ≤ b.length → b.length = 24 + fieldAt b 6 2 → 0 < fieldAt b 6 2 → fieldAt b 6 2 ≤ 1024 →
        let n := fieldAt b 6 2
        let a := s.expBase w + fieldAt b 16 8
        (s.winCheck h w gen .write (fieldAt b 16 8) n = none → (fieldAt b 4 2) % 4 = 0 → s.poison = [] → s.ueSectors = [] →
          s.latent = [] → s.gather = [] → s.winWaits h .write w gen (fieldAt b 16 8) n = false → Answers (.winWrite h b) s fun m => (∀ i < n, some (m.byte (a + i)) = b[24 + i]?) ∧
            (∀ x, x < a ∨ a + n ≤ x → m.byte x = s.byte x) ∧ m.syncs = s.syncs ∧ AnsweredIf s m h 16 0 []) ∧
        (∀ st, s.winCheck h w gen .write (fieldAt b 16 8) n = some st → Answers (.winWrite h b) s fun m =>
          m.mem = s.mem ∧ m.syncs = s.syncs ∧ AnsweredIf s m h 16 st [])) ∧
      (b.length = 16 → fieldAt b 4 4 ≤ 1024 →
        (s.winCheck h w gen .read (fieldAt b 8 8) (fieldAt b 4 4) = none → s.poison = [] → s.ueSectors = [] →
          s.latent = [] → s.winWaits h .read w gen (fieldAt b 8 8) (fieldAt b 4 4) = false →
          Answers (.winRead h b) s fun m => m.mem = s.mem ∧
            AnsweredIf s m h 17 0 (s.bytes (s.expBase w + fieldAt b 8 8) (fieldAt b 4 4))) ∧
        (∀ st, s.winCheck h w gen .read (fieldAt b 8 8) (fieldAt b 4 4) = some st → Answers (.winRead h b) s fun m =>
          m.mem = s.mem ∧ AnsweredIf s m h 17 st [])) ∧
      (b.length = 12 →
        (∀ x, s.syncSeen.find? (fun x => x.node = h.src ∧ x.seq = h.seq) = some x → Answers (.winSync h b) s fun m =>
          m.syncs = s.syncs ∧ m.syncSeen = s.syncSeen ∧ AnsweredIf s m h 18 x.status.toNat []) ∧
        (s.syncSeen.find? (fun x => x.node = h.src ∧ x.seq = h.seq) = none →
          s.winCheck h w gen .sync (fieldAt b 6 2) 0 = none → fieldAt b 4 1 ≤ 1 →
          let o := s.fld (YWP_EXP_SYNC w) YWP_EXP_SYNC_first + fieldAt b 6 2
          Answers (.winSync h b) s fun m => (∃ x ∈ m.syncSeen, x.node = h.src ∧ x.seq = h.seq) ∧
            if s.owned o then m.syncs = s.syncs ∧ AnsweredIf s m h 18 3 []
            else m.sync o = s.sync o + (if fieldAt b 4 1 = 0 then 1 else BitVec.ofNat 32 (fieldAt b 8 4)) ∧
              (∀ q, q ≠ o → m.sync q = s.sync q) ∧ AnsweredIf s m h 18 0 [])))

/-- Local windows (R430): BIND of a free window whose receivers all answer makes a binding, and a receiver that fails leaves it
unbound; UNBIND of a binding that no stream names and nothing uses frees it and advances its generation; REFRESH gives the
receivers their new generations under the same handle; what does not fit is refused. A binding holds the epochs that the probes'
answers tell (R431). While the control pairs are halted a BIND is answered NOT_READY (the model's choice, assumption log 85). -/
def Obligations.BindingsComplete : Prop :=
  ∀ (h : Hdr) (b : List Byte) (n : Nat) (x : Session) (s : State), Served s h n x → 16 ≤ b.length →
    b.length = 16 + 16 * fieldAt b 8 1 →
    (s.cpHalted = true → fieldAt b 0 1 = 0 → ∀ probes, Answers (.winBind h b probes) s fun m => m.binds = s.binds ∧
      Answered m h 20 1 0 []) ∧ (s.cpHalted = false →
    let w := fieldAt b 1 1
    let rs := s.receiversOf b (fieldAt b 8 1)
    (∀ probes, fieldAt b 0 1 = 0 → bindForm b = true → s.binds.find? w = none →
      (probeFail (fieldAt b 8 1) probes = none → Answers (.winBind h b probes) s fun m =>
        m.binds.find? w = some ⟨BitVec.ofNat 8 (fieldAt b 2 1), fieldAt b 3 1, fieldAt b 4 4, learnProbes rs probes, none, 0⟩ ∧
        m.fld (YWP_BIND_STAT w) YWP_BIND_STAT_bind_gen = nextGen (s.fld (YWP_BIND_STAT w) YWP_BIND_STAT_bind_gen) ∧
        Answered m h 20 0 0 (bindPayload (bindHandle (m.fld (YWP_BIND_STAT w) YWP_BIND_STAT_bind_gen) w) none) ∧
        ∀ v, v ≠ w → m.binds.find? v = s.binds.find? v) ∧
      (∀ i st, probeFail (fieldAt b 8 1) probes = some (i, st) → Answers (.winBind h b probes) s fun m =>
        m.binds = s.binds ∧ Answered m h 20 st 0 (bindPayload 0 ((rs[i]?).map fun r => (r, i))))) ∧
    (fieldAt b 0 1 = 0 → bindForm b = false ∨ (s.binds.find? w).isSome = true → ∀ probes,
      Answers (.winBind h b probes) s fun m => m.binds = s.binds ∧ Answered m h 20 3 0 (bindPayload 0 none)) ∧
    (fieldAt b 0 1 = 1 →
      (∀ bd, s.binding? w = some bd → w < 64 → s.streamNamesBinding (s.bindHandleOf w) = false → bd.transfers = 0 →
        s.mcSend = [] → Answers (.winUnbind h b) s fun m => m.binds.find? w = none ∧
          (∀ v, v ≠ w → m.binds.find? v = s.binds.find? v) ∧ m.rd (YWP_BIND_SIZE w) = 0 ∧
          Answered m h 20 0 0 (bindPayload (s.bindHandleOf w) none)) ∧
      (s.binding? w = none → Answers (.winUnbind h b) s fun m => m.binds = s.binds ∧
        Answered m h 20 3 0 (bindPayload 0 none))) ∧
    (∀ probes bd, fieldAt b 0 1 = 2 → s.binding? w = some bd → bindForm b = true → refreshMatches bd b rs = true →
      probeFail (fieldAt b 8 1) probes = none → Answers (.winRefresh h b probes) s fun m =>
        m.binds.find? w = some { bd with receivers := learnProbes rs probes } ∧ (∀ v, v ≠ w → m.binds.find? v = s.binds.find? v) ∧
        m.fld (YWP_BIND_STAT w) YWP_BIND_STAT_bind_gen = s.fld (YWP_BIND_STAT w) YWP_BIND_STAT_bind_gen))

/-- Accesses through windows (R385, R391, R432, R436, R437): the OK answer to a completion write lets NOTIFY follow, another ends
the session; a message without answer is sent again until its last try, by its stream's queue where it is a stream's; an answer to nothing outstanding only leaves the
receive queue. A receiver's credit moves its applied and limit on; a receiver that stands still is sent its bytes again
and is dropped in the end; an acknowledged write of an engine makes room for the next. -/
def Obligations.WindowAccessesComplete : Prop :=
  ∀ (s : State), s.boot ≠ .off →
    (∀ (h : Hdr) (status : W16) data x (k : Fin 256) y, h.resp = true → s.formOn h.peer.udp = true → h.dst = s.node →
      s.winFind h.src h.session h.seq = some x → x.use = .completion k → x.msg.type ≠ 0x11 → x.window = none →
      s.sessions.find? k.val = some y →
      (status = 0 → Answers (.windowResponse h status data) s fun m => m.winOut = s.winOut.erase x ∧
        ∃ z, m.sessions.find? k.val = some z ∧ z.ackPending = true ∧ z.cqTail = y.cqTail) ∧
      (status ≠ 0 → Answers (.windowResponse h status data) s fun m => m.sessions.find? k.val = none ∧
        OthersStay s m k.val)) ∧
    (∀ (h : Hdr) status data, s.winFind h.src h.session h.seq = none → Answers (.windowResponse h status data) s fun m =>
      { m with netPorts := [] } = { s.toModule with netPorts := [] }) ∧
    (∀ node session seq x, s.winFind node session seq = some x →
      (x.tries < s.fld YWP_WIN_CFG YWP_WIN_CFG_retries → s.formOn x.peer.udp = true →
        s.winRoom x.use x.port x.peer (s.winReplicates x) x.tclass x.msg = true → Answers (.winRetryTimeout node session seq) s fun m =>
        { x with tries := x.tries + 1 } ∈ m.winOut ∧ m.winOut.length = s.winOut.length ∧
        (m.rd YWP_CNT_RESENT).toNat = min ((s.rd YWP_CNT_RESENT).toNat + 1) 0xFFFFFFFF ∧
        (s.useStream x.use = none →
          ∃ port vid rtag, m.outbox.getLast? = some (.ywp port x.peer vid rtag x.tclass x.msg)) ∧
        (∀ c, s.useStream x.use = some c → m.outbox = s.outbox)) ∧
      (∀ k : Fin 256, s.fld YWP_WIN_CFG YWP_WIN_CFG_retries ≤ x.tries → x.use = .completion k → x.window = none →
        Answers (.winRetryTimeout node session seq) s fun m => m.sessions.find? k.val = none ∧ OthersStay s m k.val)) ∧
    (∀ (e : EngPos) t, (s.eng e).task = some t → t.writes = [] →
      s.engWritesOut e < t.issued → Answers (.writeAcknowledged (.engine e)) s fun m =>
        (m.eng e).task = some { t with issued := t.issued - 1 } ∧ m.mem = s.mem ∧ m.regs = s.regs) ∧
    (∀ (t : McSend) bd r x, s.mcSend = [t] → s.binding? t.window.val = some bd → t.recv = [r] → bd.receivers = [x] →
      r.dropped = false → (∀ i y, t.chunks[i]? = some y → y.src = none ∧ s.mcBad t i y = none) →
      (∀ (h : Hdr) b, s.addressed h false = true → s.ready = true → b.length = 20 → (fieldAt b 4 2) % 2 = 0 →
        BitVec.ofNat 32 (fieldAt b 8 4) = t.number → x.node = h.src → x.window.toNat = fieldAt b 0 2 →
        x.gen.toNat = fieldAt b 2 2 → max r.applied (fieldAt b 12 4) < chunkPos t.chunks t.chunks.length →
        Answers (.winCredit h b) s fun m => ∃ u q, m.mcSend = [u] ∧ u.window = t.window ∧ u.number = t.number ∧
          u.recv = [q] ∧ q.applied = max r.applied (fieldAt b 12 4) ∧ q.limit = max r.limit (fieldAt b 16 4) ∧
          q.dropped = false) ∧
      (s.useStream (.dmaWrite t.ch 0 0) = none → r.applied < r.sent → r.resends < s.fld YWP_WIN_CFG YWP_WIN_CFG_retries →
        r.applied < chunkPos t.chunks t.chunks.length → Answers (.multicastResend t.window 0) s fun m =>
          m.mcSend = [{ t with recv := [{ r with resends := r.resends + 1 }] }] ∧
          (s.rd YWP_CNT_RESENT).toNat ≤ (m.rd YWP_CNT_RESENT).toNat)) ∧
    (∀ (t : McSend) bd r q x l, s.mcSend = [t] → s.binding? t.window.val = some bd → t.recv = [r, q] →
      bd.receivers = x :: l → r.dropped = false → q.dropped = false →
      r.applied < chunkPos t.chunks t.chunks.length → q.applied < chunkPos t.chunks t.chunks.length →
      Answers (.receiverDropped t.window 0) s fun m => m.mcSend = [{ t with recv := [{ r with dropped := true }, q] }] ∧
        (m.rd YWP_CNT_DROPPED).toNat = min ((s.rd YWP_CNT_DROPPED).toNat + 1) 0xFFFFFFFF ∧
        Raised m 0x0905 255 t.window.val x.node.toNat t.number.toNat 0)

/-- Links and talkers (R413, R420, R424): a link that comes up is reported with its speed, one that goes down is a LINK
fault; a talker register is written when no stream uses the talker, which gives the talker a new generation, and is
refused otherwise; preemption is active once it is verified and enabled; a recovery history that is reset knows no
number; a peer delay is kept. Time and gates (R415, R417, R418, R421 to R423): Sync messages below the threshold are
counted, the eighth in a row makes a port synchronised and the slave; an offset beyond 1 µs is to be stepped, one within it slews the
clock; the loss of Sync hands the time to the other
port, or begins HOLDOVER, whose expiry leaves the clock free running; a step moves the clock by its offset once; the
next gate list applies from a cycle start; a PLAN window takes the frames that waited for it; at its end all of them have left at
the planned speed and none without link, and those that did not are counted. -/
def Obligations.LinksAndNetworkTimeComplete : Prop :=
  (∀ (port : Fin 2) (s : State), s.boot ≠ .off →
      (∀ fast, s.bit PWR_DOM_STAT PWR_DOM_STAT_net = true → s.bit (NET_PORT_CFG port) NET_PORT_CFG_enable = true →
        s.bit (NET_PORT_CFG port) (if fast then NET_PORT_CFG_adv_2g5 else NET_PORT_CFG_adv_1g) = true →
        Answers (.linkUp port fast) s fun m => m.bit (NET_PORT_STAT port) NET_PORT_STAT_link = true ∧
          m.fld (NET_PORT_STAT port) NET_PORT_STAT_speed = (if fast then 2 else 1) ∧ Raised m 0x0901 255 port.val 0 0 0 ∧
          OnlyRegs s m [NET_PORT_STAT port]) ∧
      (s.bit (NET_PORT_STAT port) NET_PORT_STAT_link = true → Answers (.linkDown port) s fun m =>
        m.bit (NET_PORT_STAT port) NET_PORT_STAT_link = false ∧ m.fld (NET_PORT_STAT port) NET_PORT_STAT_speed = 0 ∧
        (m.rd (SYS_FLT_CNT 10)).toNat = min ((s.rd (SYS_FLT_CNT 10)).toNat + 1) 0xFFFFFFFF ∧
        Raised m 0x0902 255 port.val 0 0 0 ∧
        ((s.netPort port).windowOpen = none → OnlyRegs s m [NET_PORT_STAT port]) ∧
        ∀ c l, (s.netPort port).windowOpen = some (c, l) → ∃ n k, m.outbox = s.outbox ++ (l.take n).map (·.out) ++ k ∧
          (m.netPort port).windowOpen = some (c, l.drop n)) ∧
      (∀ src (t : Fin 144) v, Admits s src true (NET_TLK_DMAC_LO t) → Answers (.talkerConfigWrite src t 0 v) s fun m =>
        if s.talkerUsed t then m.busStatus = 3 ∧ OnlyRegs s m []
        else m.busStatus = 0 ∧ m.rd (NET_TLK_DMAC_LO t) = v ∧
          m.fld (NET_TLK_GEN t) NET_TLK_GEN_gen = nextGen (s.fld (NET_TLK_GEN t) NET_TLK_GEN_gen) ∧
          OnlyRegs s m [NET_TLK_DMAC_LO t, NET_TLK_GEN t]) ∧
      (∀ good, Answers (.preemptionVerification port good) s fun m =>
        m.bit (NET_PORT_STAT port) NET_PORT_STAT_preempt_active =
          (good && s.bit (NET_PORT_CFG port) NET_PORT_CFG_preempt_en) ∧ OnlyRegs s m [NET_PORT_STAT port]) ∧
      (∀ k : Fin 128, Answers (.sequenceRecoveryReset k) s fun m => m.recovery.find? k.val = none ∧
        { m with recovery := [] } = { s.toModule with recovery := [] }) ∧
      (∀ d, Answers (.peerDelayMeasurement port d) s fun m => (m.netPort port).delayNs = d ∧
        (m.netPort port).rxq = (s.netPort port).rxq ∧ { m with netPorts := [] } = { s.toModule with netPorts := [] })) ∧
  (∀ (port : Fin 2) (s : State), s.boot ≠ .off →
      (∀ o : Int, s.bit PWR_DOM_STAT PWR_DOM_STAT_net = true → s.fld NET_GPTP_STAT NET_GPTP_STAT_slave_port = port.val →
        Answers (.gptpSyncReceive port (s.fld NET_GPTP_CFG NET_GPTP_CFG_domain) o) s fun m =>
          let good := if o.natAbs < s.fld NET_GPTP_CFG NET_GPTP_CFG_sync_thresh * 10 then (s.netPort port).good + 1 else 0
          (m.netPort port).good = good ∧ (m.netPort port).synced = ((s.netPort port).synced || decide (8 ≤ good)) ∧
          m.fld NET_GPTP_STAT NET_GPTP_STAT_offset_ns = satOffset o ∧
          (if 1000 < o.natAbs then m.clockStep = some o ∧ m.ptpOffset = s.ptpOffset
            else m.clockStep = none ∧ if 0 ≤ o then s.ptpOffset - o ≤ m.ptpOffset ∧ m.ptpOffset ≤ s.ptpOffset
              else s.ptpOffset ≤ m.ptpOffset ∧ m.ptpOffset ≤ s.ptpOffset - o) ∧
          (8 ≤ good → m.fld NET_GPTP_STAT NET_GPTP_STAT_state = 1) ∧
          (s.fld NET_GPTP_STAT NET_GPTP_STAT_state ≠ 1 → 8 ≤ good → Raised m 0x0903 255 port.val 0 0 0)) ∧
      (s.fld NET_GPTP_STAT NET_GPTP_STAT_state = 1 → s.fld NET_GPTP_STAT NET_GPTP_STAT_slave_port = port.val →
        Answers (.gptpSyncTimeout port) s fun m => (m.netPort port).synced = false ∧
          if (s.netPort (1 - port.val)).synced then m.fld NET_GPTP_STAT NET_GPTP_STAT_state = 1 ∧
            m.fld NET_GPTP_STAT NET_GPTP_STAT_slave_port = 1 - port.val ∧ Raised m 0x0903 255 (1 - port.val) 0 0 0
          else m.fld NET_GPTP_STAT NET_GPTP_STAT_state = 2 ∧ Raised m 0x0904 255 port.val 0 0 0 ∧
            (m.rd (SYS_FLT_CNT 11)).toNat = min ((s.rd (SYS_FLT_CNT 11)).toNat + 1) 0xFFFFFFFF) ∧
      (s.fld NET_GPTP_STAT NET_GPTP_STAT_state = 2 → Answers .gptpHoldoverExpiry s fun m =>
        m.fld NET_GPTP_STAT NET_GPTP_STAT_state = 0 ∧ OnlyRegs s m [NET_GPTP_STAT]) ∧
      (∀ o, s.clockStep = some o → Answers .gptpClockStep s fun m =>
        m = { s.toModule with clockStep := none, ptpOffset := s.ptpOffset - o }) ∧
      Answers (.qbvCycleStart port) s (fun m => (m.netPort port).gates = (s.netPort port).nextGates ∧
        (m.netPort port).txq = (s.netPort port).txq ∧ { m with netPorts := [] } = { s.toModule with netPorts := [] }) ∧
      (∀ c : PortId, (s.netPort port).gates.any (·.ctx = c) = true → Answers (.planWindowOpen port c) s fun m =>
          (m.netPort port).txq = (s.netPort port).txq.filter (·.ctx ≠ c) ∧
          (m.netPort port).windowOpen = some (c, (s.netPort port).txq.filter (·.ctx = c)) ∧
          { m with netPorts := [] } = { s.toModule with netPorts := [] }) ∧
      (∀ (c : PortId) l, (s.netPort port).windowOpen = some (c, l) → (∀ ch, (s.chan ch).phase ≠ .moving) → s.mcSend = [] →
        let n := s.framesGo port.val c l
        (s.bit (NET_PORT_STAT port) NET_PORT_STAT_link = false → n = 0) ∧
        (s.bit (NET_PORT_STAT port) NET_PORT_STAT_link = true → s.fld (NET_PORT_STAT port) NET_PORT_STAT_speed = 2 →
          n = l.length) ∧
        Answers (.planWindowEnd port c) s fun m => (m.netPort port).windowOpen = none ∧
          m.outbox = s.outbox ++ (l.take n).map (·.out) ∧ (m.rd (NET_CNT_TX_LATE port)).toNat =
            min ((s.rd (NET_CNT_TX_LATE port)).toNat + (l.length - n)) 0xFFFFFFFF))

/-! ### Power (15_power) -/

/-- The supply (R443 to R449, R464): each supply condition is entered in its range of VIN, with a warning that carries VIN; an
episode of hold-up that ends in reconnection is counted; the start condition begins a boot from OFF with flash and OTP
as they were; EN off begins the way to OFF, gives its cause to one that is under way, and in OFF ends the hold of an OFF request; a brown-out is OFF at once, with
nothing but flash and OTP kept. Above 100 V, where the spec states nothing (R520), a supply command stops with a fault. -/
def Obligations.SupplyCompletes : Prop :=
  ∀ (mv : Nat) (s : State),
    (s.boot ≠ .off → mv ≤ 100000 →
      (s.supply = 0 ∨ s.supply = 2 → 8000 ≤ mv → mv < 9000 → Answers (.supplyLowEnter mv) s fun m => m.supply = 1 ∧
        Raised m 0x0A02 255 0 mv 0 0 ∧ OnlyRegs s m [PWR_SUPPLY_STAT]) ∧
      (s.supply ≤ 1 → 60000 < mv → mv ≤ 70000 → Answers (.supplyHighEnter mv) s fun m => m.supply = 2 ∧
        Raised m 0x0A02 255 0 mv 0 0 ∧ OnlyRegs s m [PWR_SUPPLY_STAT]) ∧
      (s.supply = 2 → 60000 < mv → Answers (.highVoltageTimeout mv) s fun m => m.supply = 3 ∧ m.holdupHigh = true ∧
        Raised m 0x0A02 255 0 mv 0 0) ∧
      (s.supply ≠ 3 → mv < 8000 ∨ 70000 < mv → Answers (.holdupEnter mv) s fun m => m.supply = 3 ∧
        m.holdupHigh = decide (60000 < mv) ∧ Raised m 0x0A02 255 0 mv 0 0) ∧
      (s.supply = 3 → 8000 ≤ mv → mv ≤ 60000 → Answers (.holdupReconnect mv) s fun m =>
        m.supply = (if mv < 9000 then 1 else 0) ∧ m.holdupHigh = false ∧
        (m.rd PWR_CNT_HOLDUP).toNat = min ((s.rd PWR_CNT_HOLDUP).toNat + 1) 0xFFFFFFFF) ∧
      (s.supply = 1 ∨ s.supply = 2 → 9000 ≤ mv → mv ≤ 60000 → Answers (.supplyNormal mv) s fun m => m.supply = 0 ∧
        OnlyRegs s m [PWR_SUPPLY_STAT])) ∧
    (s.boot = .off → s.offHeld = false → 9500 ≤ mv → mv ≤ 60000 → Answers (.startCondition mv) s fun m =>
      m.boot = State.reset.boot ∧ m.mem = [] ∧ m.sessions = [] ∧ m.streams = [] ∧ m.flash = s.flash ∧
      m.otp = { s.otp with lc := s.otp.lcNext } ∧
      m.fld PWR_CAUSE PWR_CAUSE_off_cause = s.fld PWR_CAUSE PWR_CAUSE_off_cause) ∧
    (s.boot ≠ .off → Answers .brownOut s fun m => m.boot = .off ∧ m.mem = [] ∧ m.sessions = [] ∧ m.otp = s.otp ∧
      m.offHeld = false ∧ m.fld PWR_CAUSE PWR_CAUSE_off_cause = (if s.supply = 3 ∧ s.holdupHigh = true then 4 else 3)) ∧
    (s.boot ≠ .off → s.streams = [] → s.transition = none → s.modeChange = none → s.fullFill = none →
      Answers .enOff s fun m => m.bit PWR_SUPPLY_STAT PWR_SUPPLY_STAT_en = false ∧
        m.fld PWR_STATE PWR_STATE_target = 0 ∧ m.power = s.power ∧ m.transition.map (fun t => (t.target, t.cause)) =
          some (0, .enOff) ∧ Raised m 0x0A01 255 (16 * s.power) 0 0 0) ∧
    (∀ t, s.boot ≠ .off → s.transition = some t → t.target = 0 → Answers .enOff s fun m =>
      m.transition = some { t with cause := .enOff, thenRun := false, thenWake := false } ∧
        OnlyRegs s m [PWR_SUPPLY_STAT]) ∧
    (s.boot = .off → Answers .enOff s (fun m => m = { s.toModule with offHeld := false }) ∧
      Answers .supplyLost s fun m => m.offHeld = false ∧ m.boot = .off ∧ m.fld PWR_CAUSE PWR_CAUSE_off_cause = 0) ∧
    (100000 < mv → ∀ c, c = .startCondition mv ∨ c = .supplyLowEnter mv ∨ c = .supplyHighEnter mv ∨
      c = .highVoltageTimeout mv ∨ c = .holdupEnter mv ∨ c = .holdupReconnect mv ∨ c = .supplyNormal mv →
      exec c s = .fault .beyondRatings)

/-- Power states (R451 to R459): a request for a listed state begins the move when nothing stands against it, one for the state
held changes nothing, one during a move is BUSY, every other is refused. The end of a move shows the new state and says so;
STANDBY ends every session and is counted; OFF keeps flash and OTP; WAKE_READY is READY in IDLE under an epoch that is not 0.
Fifty milliseconds into an entry, ports that are still ACTIVE leave it. The automatic move to IDLE begins when the module
has been quiet for its number of samples. -/
def Obligations.PowerStatesComplete : Prop :=
  ∀ (s : State), s.boot ≠ .off →
    (∀ src c t, Admits s src true PWR_STATE_REQ → (c = .requestRun src ∧ t = 3) ∨ (c = .requestIdle src ∧ t = 2) ∨
      (c = .requestStandby src ∧ t = 1) ∨ (c = .requestOff src ∧ t = 0) → Answers c s fun m => m.power = s.power ∧
        if t ≠ s.power ∧ requestListed s.power t = false then m.busStatus = 3 ∧ OnlyRegs s m []
        else if s.moving = true ∨ s.fullFill.isSome = true then m.busStatus = 2 ∧ OnlyRegs s m []
        else if t = s.power then m.busStatus = 0 ∧ OnlyRegs s m []
        else if (t = 2 ∧ s.quiet = false) ∨ (t ≤ 1 ∧ s.streams ≠ []) then m.busStatus = 3 ∧ OnlyRegs s m []
        else m.busStatus = 0 ∧ m.transition.map (·.target) = some t ∧ m.moving = true ∧ m.mem = s.mem ∧
          ∀ n, (m.sessions.find? n).map (·.gen) = (s.sessions.find? n).map (·.gen)) ∧
    (∀ t, s.transition = some t → s.boot = .ready →
      (t.target = 3 → s.power = 2 → Answers .powerTransitionDone s fun m => m.power = 3 ∧ m.transition = none ∧
        m.fld PWR_DOM_STAT PWR_DOM_STAT_spm = 255 ∧ Raised m 0x0A01 255 35 0 0 0) ∧
      (t.target = 2 → s.power = 3 → t.thenRun = false → Answers .powerTransitionDone s fun m => m.power = 2 ∧
        m.transition = none ∧ m.fld PWR_DOM_STAT PWR_DOM_STAT_spm = 0 ∧ m.fld PWR_DOM_STAT PWR_DOM_STAT_eng = 0 ∧
        Raised m 0x0A01 255 50 0 0 0) ∧
      (t.target = 1 → s.streams = [] → s.enginesIdle = true → s.dma = [] → s.fills = [] → t.thenWake = false →
        Answers .powerTransitionDone s fun m => m.power = 1 ∧ m.transition = none ∧ m.sessions = [] ∧ m.streams = [] ∧
          m.binds = [] ∧ (m.rd PWR_CNT_STANDBY).toNat = min ((s.rd PWR_CNT_STANDBY).toNat + 1) 0xFFFFFFFF ∧
          m.fld PWR_CAUSE PWR_CAUSE_standby_cause = (if t.cause = .thermal then 1 else 0)) ∧
      (t.target = 0 → t.cause = .request ∨ t.cause = .enOff → s.streams = [] → s.enginesIdle = true → s.dma = [] →
        s.fills = [] → Answers .powerTransitionDone s fun m => m.boot = .off ∧ m.mem = [] ∧ m.otp = s.otp ∧
          m.offHeld = decide (t.cause = .request) ∧
          m.fld PWR_CAUSE PWR_CAUSE_off_cause = (if t.cause = .request then 2 else 1)) ∧
      (t.target ≤ 1 → s.streams = [] → s.jobs = [] → Answers .standbyDrainTimeout s fun m =>
        m.transition = some { t with drained := true } ∧ m.mem = s.mem) ∧
      (∀ (c : PortId) st, t.target ≤ 1 → s.streams = [(c.val, st)] → s.portState c = 4 →
        Answers .standbyDrainTimeout s fun m => m.portState c = 2 ∧ (m.ctx c).frames = [] ∧ m.streams = s.streams ∧
          m.transition = s.transition)) ∧
    (s.power = 1 → s.boot = .init → s.leaving = false → s.cpHalted = false → Answers .wakeReady s fun m => m.boot = .ready ∧ m.power = 2 ∧ m.epoch ≠ 0 ∧
      m.transition = none ∧ m.bit SYS_BOOT_STAT SYS_BOOT_STAT_ready = true) ∧
    (s.power = 3 → s.moving = false → Answers .autoIdleSample s fun m =>
      let ms := s.fld PWR_CFG PWR_CFG_auto_idle_ms
      if ms = 0 ∨ s.quiet = false ∨ s.fullFill.isSome = true then m = { s.toModule with idleSamples := 0 }
      else if ms < s.idleSamples + 1 then m.idleSamples = 0 ∧ m.transition.map (·.target) = some 2
      else m = { s.toModule with idleSamples := s.idleSamples + 1 })

/-- Measurement and temperature (R373, R460 to R463): a power sample enters the means and the energy, and gates the jobs with a
hysteresis of 5 W below the cap; the cold plate reads the higher sensor; a sensor that is open, shorted or too far from the
other is left out, and with both out the cap is held at its 85 °C value; a thermal trip begins the way to STANDBY, in STANDBY and on
its way it becomes the cause (in STANDBY the model's choice, assumption log 85), a hard one is OFF at once. -/
def Obligations.MeasurementCompletes : Prop :=
  ∀ (s : State), s.boot ≠ .off →
    (∀ mv ma rails, Answers (.powerSample mv ma rails) s fun m =>
      let l := ((mv, ma) :: s.powerSamples).take 10000
      let p := min (mean ((l.take 1000).map fun x => x.1 * x.2) / 100000) 65535
      m.powerSamples = l ∧ m.energyPj = s.energyPj + mv * ma * 100 ∧ m.fld PWR_IN_P PWR_IN_P_p_100ms_dw = p ∧
      m.rd PWR_RAIL_P = rails ∧ m.jobsGated = (if s.jobsGated then decide (s.cap ≤ p + 50) else decide (s.cap < p)) ∧
      m.streams = s.streams ∧ m.jobs = s.jobs ∧ m.engines = s.engines) ∧
    (∀ bp0 bp1 : Int, s.bit PWR_TEMP_STAT PWR_TEMP_STAT_bp0_ok = true → s.bit PWR_TEMP_STAT PWR_TEMP_STAT_bp1_ok = true →
      -32768 ≤ max bp0 bp1 → max bp0 bp1 < 32768 → Answers (.coldPlateSample bp0 bp1) s fun m =>
        m.coldPlate = max bp0 bp1 ∧ m.bit PWR_TEMP_STAT PWR_TEMP_STAT_over_85 = decide (85 * 16 < max bp0 bp1) ∧
        m.power = s.power ∧ m.streams = s.streams) ∧
    (∀ a b : Option Int, Answers (.tempSensorCheck a b) s fun m =>
      let far := ∃ x y, a = some x ∧ b = some y ∧ 48 < (x - y).natAbs
      (m.bit PWR_TEMP_STAT PWR_TEMP_STAT_bp0_ok = true ↔ a ≠ none ∧ ¬ far) ∧
      (m.bit PWR_TEMP_STAT PWR_TEMP_STAT_bp1_ok = true ↔ b ≠ none ∧ ¬ far) ∧
      (m.bit PWR_TEMP_STAT PWR_TEMP_STAT_cap_held = true ↔ (a = none ∧ b = none) ∨ far) ∧
      (s.bit PWR_TEMP_STAT PWR_TEMP_STAT_cap_held = false → (a = none ∧ b = none) ∨ far →
        m.fld PWR_CAP PWR_CAP_thermal_dw = thermalCap s.mode (85 * 16)) ∧ m.streams = s.streams) ∧
    (2 ≤ s.power → s.boot = .ready → s.streams = [] → s.transition = none → s.modeChange = none → s.fullFill = none →
      Answers .thermalTrip s fun m => (m.rd PWR_CNT_TRIP).toNat = min ((s.rd PWR_CNT_TRIP).toNat + 1) 0xFFFFFFFF ∧
        m.transition.map (fun t => (t.target, t.cause)) = some (1, .thermal) ∧
        (m.rd (SYS_FLT_CNT 12)).toNat = min ((s.rd (SYS_FLT_CNT 12)).toNat + 1) 0xFFFFFFFF ∧
        Raised m 0x0A01 255 (1 + 16 * s.power) 0 0 0) ∧
    (s.power = 1 → s.boot ≠ .failure → s.transition = none → Answers .thermalTrip s fun m => m.tripped = true ∧
      m.fld PWR_CAUSE PWR_CAUSE_standby_cause = 1 ∧ m.power = 1 ∧ m.transition = none ∧
      (m.rd PWR_CNT_TRIP).toNat = min ((s.rd PWR_CNT_TRIP).toNat + 1) 0xFFFFFFFF) ∧
    (∀ t, s.boot ≠ .failure → s.transition = some t → t.target = 1 → Answers .thermalTrip s fun m =>
      m.transition = some { t with cause := .thermal } ∧
      (m.rd PWR_CNT_TRIP).toNat = min ((s.rd PWR_CNT_TRIP).toNat + 1) 0xFFFFFFFF) ∧
    Answers .hardThermalTrip s fun m => m.boot = .off ∧ m.mem = [] ∧ m.sessions = [] ∧ m.otp = s.otp ∧
      m.offHeld = false ∧ m.fld PWR_CAUSE PWR_CAUSE_off_cause = 5

/-! ### Debug and security (16_security_debug) -/

/-- A debug operation is heard by a ready module that is awake, at a level that permits it (R476, R477, R486). -/
def Debugged (s : State) (d : DbgHdr) (need : Nat) : Prop :=
  s.boot = .ready ∧ s.power ≠ 1 ∧ s.debugHeard d = true ∧ need ≤ s.level

/-- The last thing that has left is the answer to the debug operation, on the path it came by (R477, R478). -/
def DbgAnswered (m : Module) (d : DbgHdr) (op status retry : Nat) (body : List Byte) : Prop :=
  if d.path.val < 2 then ∃ port vid rtag cl, m.outbox.getLast? = some (.ywp port d.peer vid rtag cl ⟨d.version, 0x20, true,
    false, d.node, 0, d.seq, BitVec.ofNat 16 status, BitVec.ofNat 16 retry, 0, leBytes 4 op ++ body⟩)
  else m.outbox.getLast? = some (.debug d.path (uartFrame (leBytes 2 status ++ (leBytes 4 op ++ body))))

/-- What debug may ask (R408, R472, R473, R477, R478, R481, R483): STATUS, IDENTITY, ATTEST and CHALLENGE at any level, the trace
and the journal from OBSERVE on; each answers on its path and changes nothing but the nonce that CHALLENGE draws and NONCE_EXPIRY
drops. LOCK returns to the baseline. An operation above the level is answered AUTH_FAILED; a reserved one, and a CHALLENGE
for a reserved level, is refused; a frame that is bad is discarded, one with a payload of another length answered BAD_MESSAGE; the
expiry of a back-off and a TAP reset touch nothing else. -/
def Obligations.DebugInquiriesComplete : Prop :=
  ∀ (d : DbgHdr) (s : State),
    (Debugged s d 0 →
      (s.backoff = false → Answers (.status d) s fun m => OnlyRegs s m [] ∧ DbgAnswered m d 0 0 0 (leBytes 1 s.otp.lc ++
        leBytes 1 s.level ++ leBytes 1 s.baseline ++ leBytes 1 (s.fld DBG_LEVEL DBG_LEVEL_failures) ++ leBytes 4 0 ++
        s.deviceId ++ leBytes 4 s.epoch.toNat)) ∧
      (∀ level : Byte, (level.toNat < 3 → Answers (.challenge d level) s fun m => ∃ n, n.length = 32 ∧
        m.nonce = some (level.toNat, n) ∧ m.bit DBG_LEVEL DBG_LEVEL_nonce = true ∧ DbgAnswered m d 2 0 0 (s.deviceId ++ n)) ∧
        (3 ≤ level.toNat → Answers (.challenge d level) s fun m => OnlyRegs s m [] ∧ DbgAnswered m d 2 3 0 [])) ∧
      (Answers (.lock d) s fun m => m.level = s.baseline ∧ DbgAnswered m d 4 0 0 (leBytes 1 s.baseline) ∧
        OnlyRegs s m [DBG_LEVEL]) ∧
      (∀ k, s.otp.identity = some k → Answers (.identity d) s fun m => OnlyRegs s m [] ∧
        DbgAnswered m d 15 0 0 (s.deviceId ++ k)) ∧
      (∀ nonce, Answers (.attest d nonce) s fun m => OnlyRegs s m [] ∧ ∃ b, b.take 4 = leBytes 2 1 ++ leBytes 1 s.otp.lc ++
        leBytes 1 s.level ∧ DbgAnswered m d 14 0 0 (b ++ fit 96 (Config.ecdsaSign
          (s.otp.identity.getD []) (Config.sha384 (b.take 192))))) ∧
      (∀ op : Byte, Answers (.debugReservedOp d op) s fun m => OnlyRegs s m [] ∧ DbgAnswered m d op.toNat 3 0 []) ∧
      (s.level = 0 → ∀ start max, Answers (.traceRead d start max) s fun m => OnlyRegs s m [] ∧
        DbgAnswered m d 12 13 0 [])) ∧
    (Debugged s d 1 →
      (∀ e l max, s.trace = e :: l → 1 ≤ max.toNat → max.toNat ≤ 32 → Answers (.traceRead d e.number max) s fun m =>
        OnlyRegs s m [] ∧ DbgAnswered m d 12 0 0 (leBytes 4 e.number.toNat ++ leBytes 4 s.evNext.toNat ++
          leBytes 1 (min max.toNat s.trace.length) ++ leBytes 3 0 ++
          (s.trace.take max.toNat).flatMap fun e => eventBytes e 0)) ∧
      (∀ start max, 1 ≤ max.toNat → max.toNat ≤ 16 → Answers (.debugJournalRead d start max) s fun m =>
        OnlyRegs s m [] ∧ DbgAnswered m d 13 0 0 (s.journalAnswer start max.toNat))) ∧
    (s.boot ≠ .off →
      (s.nonce.isSome = true → Answers .nonceExpiry s fun m => m.nonce = none ∧
        m.bit DBG_LEVEL DBG_LEVEL_nonce = false ∧ { m with regs := [], nonce := none } =
          { s.toModule with regs := [], nonce := none }) ∧
      (Answers .backoffExpiry s fun m => m = { s.toModule with backoff := false }) ∧
      (∀ f, (∀ p, uartPayload f = some p → debugLength p = true) → exec (.debugFrameDiscard f) s = .next s) ∧
      (∀ f p, uartPayload f = some p → debugLength p = false → s.boot = .ready → s.power ≠ 1 →
        Answers (.debugFrameDiscard f) s fun m => OnlyRegs s m [] ∧
          m.outbox = s.outbox ++ [.debug 3 (uartFrame (leBytes 2 34 ++ leBytes 4 (fieldAt p 0 1)))]) ∧
      Answers .tapReset s fun m => m = { s.toModule with tap := .idcode })

/-- Opening a level (R465, R471, R480 to R485): the newest password opens OBSERVE in FIELD, another counts a failure, which from
the third on is held back; a RESPONSE that passes opens OBSERVE, and FULL in OPEN at once; in FIELD and RETURNED it begins
the fill before FULL: every stream is being released, and with none left the packages are unloaded and every region is being
released; one that does not pass counts a failure; either consumes the nonce; a reserved level is refused. The fill ends when every region is gone: all of
SPM reads as zero, and FULL is open. -/
def Obligations.LevelsOpenAsStated : Prop :=
  ∀ (d : DbgHdr) (s : State), s.fullFill = none → s.backoff = false →
    (∀ pw salt hash, Debugged s d 0 → s.otp.lc = 2 → s.level = 0 → 8 ≤ pw.length → pw.length ≤ 64 →
      s.otp.passwords.getLast? = some (salt, hash) →
      (Config.sha384 (salt ++ pw) = hash → Answers (.password d pw) s fun m => m.level = 1 ∧
        m.fld DBG_LEVEL DBG_LEVEL_failures = 0 ∧ DbgAnswered m d 1 0 0 [1] ∧ Raised m 0x0B01 255 1 0 0 0) ∧
      (Config.sha384 (salt ++ pw) ≠ hash → Answers (.password d pw) s fun m =>
        let n := min (s.fld DBG_LEVEL DBG_LEVEL_failures + 1) 255
        m.level = 0 ∧ m.fld DBG_LEVEL DBG_LEVEL_failures = n ∧ DbgAnswered m d 1 13 0 [] ∧
        (m.rd DBG_CNT_FAIL).toNat = min ((s.rd DBG_CNT_FAIL).toNat + 1) 0xFFFFFFFF ∧
        m.backoff = decide (3 ≤ n) ∧ Raised m 0x0B03 255 n (if n < 3 then 0 else backoffMs n) 0 0)) ∧
    (∀ (level : Byte) key sig, Debugged s d 0 → s.level ≤ level.toNat →
      (s.responsePasses level.toNat key sig = true → s.level < level.toNat → level.toNat ≤ 2 →
        (level.toNat = 1 ∨ s.otp.lc = 1 → Answers (.response d level key sig) s fun m => m.level = level.toNat ∧
          m.nonce = none ∧ m.fld DBG_LEVEL DBG_LEVEL_failures = 0 ∧ DbgAnswered m d 3 0 0 [level]) ∧
        (level.toNat = 2 → 2 ≤ s.otp.lc → 2 ≤ s.power → s.transition = none → s.streams.all (·.1 < 36) = true → Answers (.response d level key sig) s fun m =>
          m.fullFill = some d ∧ m.level = s.level ∧ m.nonce = none ∧ m.bit DBG_LEVEL DBG_LEVEL_filling = true ∧
          (∀ k st, m.streams.find? k = some st → st.phase = .releasing) ∧
          (s.streams = [] → m.packages = [] ∧ ∀ k r, m.regions.find? k = some r → r.phase ≠ .live))) ∧
      (3 ≤ level.toNat → Answers (.response d level key sig) s fun m => OnlyRegs s m [] ∧ m.nonce = s.nonce ∧
        DbgAnswered m d 3 3 0 []) ∧
      (s.responsePasses level.toNat key sig = false → level.toNat ≤ 2 → Answers (.response d level key sig) s fun m =>
        m.level = s.level ∧ m.nonce = none ∧ m.fullFill = none ∧ DbgAnswered m d 3 13 0 [])) ∧
    (∀ f, s.boot ≠ .off → s.cpHalted = false → (∀ g e, s.gather.find? g = some e → e.bytes.length = 64) → s.power = 3 → s.moving = false → s.streams = [] → s.jobs = [] → s.enginesIdle = true →
      s.dma = [] → s.regions = [] → Answers .zeroFillDone { s with fullFill := some f } fun m => m.level = 2 ∧
        m.fullFill = none ∧ m.regions = [] ∧ (∀ a < spmSize, m.byte a = 0) ∧ (∀ a, spmSize ≤ a → m.byte a = s.byte a) ∧
        DbgAnswered m f 3 0 0 [2])

/-- Debug access (R23, R308, R478, R479): REG_READ from OBSERVE on and REG_WRITE at FULL act as any register access; MEM_READ
answers with the bytes of memory and MEM_WRITE stores its bytes and no other; SYNC_RESET sets an object that no stream owns
and is refused for one that is owned; HALT stops both control pairs, or a position that no plan uses, and RESUME ends it;
the TAP takes every instruction at FULL and below it those that drive and sample no pin; EXTEST is decoded while no stream is
admitted. -/
def Obligations.DebugAccessesComplete : Prop :=
  ∀ (d : DbgHdr) (s : State),
    (∀ (p : PortId) b (o : Nat), b.length = 12 → fieldAt b 0 1 = 1 → regOp b 0 = (CAP_TRIG_PERIOD p, o,
      BitVec.ofNat 32 (fieldAt b 8 4)) → s.transition = none →
      (o = 0 → Debugged s d 1 → Admits s (.debug d.path) false (CAP_TRIG_PERIOD p) → Answers (.regRead d b) s fun m =>
        OnlyRegs s m [] ∧ DbgAnswered m d 5 0 0 (leBytes 4 1 ++ leBytes 3 (CAP_TRIG_PERIOD p) ++ [0] ++
          leBytes 4 (s.rd (CAP_TRIG_PERIOD p)).toNat)) ∧
      (o = 1 → Debugged s d 2 → Admits s (.debug d.path) true (CAP_TRIG_PERIOD p) → 100000 ≤ fieldAt b 8 4 →
        Answers (.regWrite d b) s fun m => (m.rd (CAP_TRIG_PERIOD p)).toNat = fieldAt b 8 4 ∧
          OnlyRegs s m [CAP_TRIG_PERIOD p] ∧ DbgAnswered m d 6 0 0 (leBytes 4 1 ++ leBytes 3 (CAP_TRIG_PERIOD p) ++ [0] ++
            leBytes 4 (fieldAt b 8 4)))) ∧
    (Debugged s d 2 →
      (∀ (addr : W64) (len : Word) rec, 0 < len.toNat → len.toNat ≤ 1024 → s.memStatus addr.toNat len.toNat = none →
        (∀ w o, s.spaceOf addr.toNat ≠ .window w o) → s.latent = [] → s.badIn addr.toNat len.toNat = [] →
        s.spmBusy addr.toNat len.toNat = false → Answers (.memRead d addr len rec) s fun m => OnlyRegs s m [] ∧
          DbgAnswered m d 7 0 0 (s.bytes addr.toNat len.toNat)) ∧
      (∀ (addr : W64) data, 0 < data.length → data.length ≤ 1024 → s.memStatus addr.toNat data.length = none →
        (∀ w o, s.spaceOf addr.toNat ≠ .window w o) → s.poison = [] → s.ueSectors = [] → s.gather = [] →
        s.latent = [] → s.spmBusy addr.toNat data.length = false → Answers (.memWrite d addr data) s fun m => DbgAnswered m d 8 0 0 [] ∧
          (∀ i < data.length, some (m.byte (addr.toNat + i)) = data[i]?) ∧ (∀ a, a < addr.toNat ∨
            addr.toNat + data.length ≤ a → m.byte a = s.byte a) ∧ m.syncs = s.syncs) ∧
      (∀ (obj : W16) v, Answers (.syncReset d obj v) s fun m =>
        if obj.toNat < 8192 ∧ s.owned obj.toNat = false then m.sync obj.toNat = v ∧
          (∀ o, o ≠ obj.toNat → m.sync o = s.sync o) ∧ DbgAnswered m d 9 0 0 []
        else m.syncs = s.syncs ∧ DbgAnswered m d 9 3 0 []) ∧
      (Answers (.halt d 0) s fun m => m.cpHalted = true ∧ DbgAnswered m d 10 0 0 [] ∧
        { m.core with cpHalted := false } = { s.toModule.core with cpHalted := false }) ∧
      (Answers (.resume d 0) s fun m => m.cpHalted = false ∧ m.heldEvents = [] ∧ DbgAnswered m d 11 0 0 []) ∧
      (∀ target e, haltPos target = some e →
        (Answers (.halt d target) s fun m => if 3 ≤ s.engState e ∨ s.streams = [] then posKey e ∈ m.engHalted ∧
            DbgAnswered m d 10 0 0 [] else m.engHalted = s.engHalted ∧ DbgAnswered m d 10 3 0 []) ∧
        Answers (.resume d target) s fun m => posKey e ∉ m.engHalted ∧ DbgAnswered m d 11 0 0 []) ∧
      (∀ i, Answers (.extest d i) s fun m => m = { s.toModule with tap := i })) ∧
    (∀ pins, s.tap = .extest pins → s.tapNow = if s.streams = [] then .extest pins else .bypass) ∧
    (s.boot ≠ .off → s.level < 2 → ∀ i,
      (i = .sample ∨ (∃ pins, i = .extest pins) → Answers (.extest d i) s fun m => m.tap = s.tap ∧ OnlyRegs s m []) ∧
      (i = .idcode ∨ i = .bypass ∨ i = .dbgmsg → Answers (.extest d i) s fun m => m = { s.toModule with tap := i }))

/-- The life of a unit (R465 to R468, R472, R480): PROVISION, in BLANK alone, burns the owner's key hash, the first password, the
floor and an identity, and names OPEN as the next state; LIFECYCLE moves along an arrow of the table at the next boot and is
refused elsewhere and while a stream is admitted; SET_PASSWORD fills the next of four slots and is BUSY when all are written. -/
def Obligations.UnitLifeCompletes : Prop :=
  ∀ (d : DbgHdr) (s : State), (Debugged s d 0 → ∀ owner salt hash (floor : Byte),
      (s.otp.lc = 0 → s.otp.lcNext = 0 → floor.toNat < 3 → s.otp.passwords = [] →
        Answers (.provision d owner salt hash floor) s fun m => ∃ k, m.otp = { s.otp with
          ownerHash := owner, ownerWritten := true, passwords := [(salt, hash)], floor := floor.toNat, identity := some k
          lcNext := 1 } ∧ m.fld SEC_LC SEC_LC_next = 1 ∧ DbgAnswered m d 16 0 0 k) ∧
      (s.otp.lc ≠ 0 → Answers (.provision d owner salt hash floor) s fun m => OnlyRegs s m [] ∧
        DbgAnswered m d 16 3 0 [])) ∧
    (Debugged s d 2 → ∀ target : Byte,
      (((s.otp.lc = 1 ∧ (target = 2 ∨ target = 3)) ∨ (s.otp.lc = 2 ∧ target = 3)) ∧ s.otp.lcNext < target.toNat ∧
        s.streams = [] → Answers (.lifecycle d target) s fun m => m.otp = { s.otp with lcNext := target.toNat } ∧
          m.fld SEC_LC SEC_LC_next = target.toNat ∧ DbgAnswered m d 17 0 0 []) ∧
      (¬ (((s.otp.lc = 1 ∧ (target = 2 ∨ target = 3)) ∨ (s.otp.lc = 2 ∧ target = 3)) ∧ s.otp.lcNext < target.toNat ∧
        s.streams = []) → Answers (.lifecycle d target) s fun m => OnlyRegs s m [] ∧ DbgAnswered m d 17 3 0 [])) ∧
    (Debugged s d 2 → ∀ salt hash, Answers (.setPassword d salt hash) s fun m =>
      if s.otp.passwords.length < 4 then m.otp = { s.otp with passwords := s.otp.passwords ++ [(salt, hash)] } ∧
        DbgAnswered m d 18 0 0 (leBytes 1 s.otp.passwords.length)
      else m.otp = s.otp ∧ DbgAnswered m d 18 2 0 [])

/-! ### Boot, reset and faults (17_boot_reset_faults) -/

/-- The boot (R159, R469, R470, R494, R498): training uses the newest stored record that is intact and was made for
this part within 25 °C, and otherwise stores a new one over the older copy; a slot that
passes is taken, the higher security version first, and with none the boot fails at the baseline level; the slots that flash
holds are known from then on; a control pair that fails its test is OFFLINE, and the library memories are loaded; READY is reached in IDLE, with as many of the 64 rollback fuses blown as the running slot's version; a
wake goes past the self-test. -/
def Obligations.BootCompletes : Prop :=
  ∀ (s : State),
    (∀ ok (t : Int) ms, s.boot = .verifying ∨ s.boot = .selfTest ∨ s.boot = .init → s.dramReady = false →
      Answers (.dramTrainingDone ok t ms) s fun m => m.dramReady = true ∧
        if ok = true ∧ ∃ r, s.trainNewest = some r ∧ (t - r.temp).natAbs ≤ 25 * 16 then
          m.fld DDR_STAT DDR_STAT_train_src = 1 ∧ m.flash = s.flash
        else m.fld DDR_STAT DDR_STAT_train_src = 2 ∧ (∃ r, m.flash.train.find? s.trainOlder = some r ∧ r.temp = t ∧
            r.crc = crc32c r.bytes ∧ r.generation = nextCopyGen s.trainCopy (·.generation)) ∧
          (∀ i, i ≠ s.trainOlder → m.flash.train.find? i = s.flash.train.find? i) ∧
          { m.flash with train := [] } = { s.flash with train := [] }) ∧
    (∀ a b : SlotImage, s.boot = .verifying → s.slotsOf a b = (a, b) →
      (s.power = 1 → slotSvn b ≤ slotSvn a → s.slotFail a = none → Answers (.firmwareVerified a b) s fun m =>
        m.boot = .init ∧ m.fld SEC_BOOT SEC_BOOT_slot = 0 ∧ m.fld SEC_BOOT SEC_BOOT_fallback = 0 ∧
        m.fld SEC_BOOT SEC_BOOT_svn_image = slotSvn a ∧
        m.fwHash = Config.sha384 (a.sc.header ++ a.pmc.header ++ a.control.header) ∧
        m.flash = { s.flash with slots := some (a, b) }) ∧
      (s.power = 1 → slotSvn a < slotSvn b → s.slotFail b ≠ none → s.slotFail a = none →
        Answers (.firmwareVerified a b) s fun m => m.boot = .init ∧ m.fld SEC_BOOT SEC_BOOT_slot = 0 ∧
          m.fld SEC_BOOT SEC_BOOT_fallback = 1) ∧
      (s.power ≠ 1 → slotSvn b ≤ slotSvn a → s.slotFail a = none → s.fld SYS_BOOT_STAT SYS_BOOT_STAT_storm ≠ 3 →
        Answers (.firmwareVerified a b) s fun m => m.boot = .selfTest ∧ m.fld SEC_BOOT SEC_BOOT_slot = 0) ∧
      (s.slotFail a ≠ none → s.slotFail b ≠ none → Answers (.firmwareVerified a b) s fun m => m.boot = .failure ∧
        m.level = s.baseline ∧ m.power = 2 ∧ m.dramOn = false)) ∧
    (∀ cp0 cp1, s.boot = .selfTest → (cp0 || cp1) = true → Answers (.cpSelfTestDone cp0 cp1 true) s fun m =>
      m.boot = .init ∧ m.epoch ≠ 0 ∧ m.cpState 0 = (if cp0 then 0 else 2) ∧ m.cpState 1 = (if cp1 then 0 else 2) ∧
      m.node = BitVec.ofNat 16 ((recValue s.flash.settings).getD 0) ∧ (∀ n < 256, m.fld (YWP_EXP_GEN n) YWP_EXP_GEN_gen ≠ 0) ∧
      m.library.1.length ≤ 8192 ∧ m.library.2.length ≤ 64) ∧
    (s.boot = .selfTest → Answers (.cpSelfTestDone false false true) s fun m => m.boot = .failure) ∧
    (s.boot = .init → s.power = 2 → s.dramReady = true → s.goingOff = false → Answers .bootReady s fun m => m.boot = .ready ∧ m.power = 2 ∧
      m.bit SYS_BOOT_STAT SYS_BOOT_STAT_ready = true ∧
      m.otp = { s.otp with fuses := max s.otp.fuses (min 64 (s.fld SEC_BOOT SEC_BOOT_svn_image)) } ∧
      (∀ a < dramBase, m.byte a = s.byte a) ∧ (s.dramFillDue = false → m.mem = s.mem))

/-- Control faults (R494, R497, R507, R508): the other pair takes over and no command is lost; the second fault of a pair makes it
OFFLINE; a fault without another pair is recorded, counted in the storm count and resets every domain but AON; a pair that
passes its self-test takes back its duties; the storm count is cleared. -/
def Obligations.ControlFaultsComplete : Prop :=
  ∀ (pair : Fin 2) (s : State), s.boot = .ready → s.bit PWR_DOM_STAT PWR_DOM_STAT_ctl = true →
    (∀ c cls, (c = .controlMismatch pair ∧ cls = 8) ∨ (c = .controlWatchdog pair ∧ cls = 9) → s.cpState pair.val = 0 →
      let old := if pair = 0 then s.cpFaults.1 else s.cpFaults.2
      (s.cpState (1 - pair.val) = 0 → Answers c s fun m => m.cpState pair.val = (if old = 0 then 1 else 2) ∧
        m.cpState (1 - pair.val) = 0 ∧ (if pair = 0 then m.cpFaults.1 else m.cpFaults.2) = old + 1 ∧
        Raised m 0x0C01 255 pair.val cls 0 0 ∧ m.mem = s.mem ∧ m.streams = s.streams ∧ m.jobs = s.jobs ∧
        (m.rd (SYS_FLT_CNT (cls - 1))).toNat = min ((s.rd (SYS_FLT_CNT (cls - 1))).toNat + 1) 0xFFFFFFFF ∧
        ∀ n, (m.sessions.find? n).map (·.taken) = (s.sessions.find? n).map (·.taken)) ∧
      (s.cpState (1 - pair.val) ≠ 0 → Answers c s fun m => m.boot = .verifying ∧ m.doubleRecord = true ∧ m.mem = [] ∧
        m.sessions = [] ∧ m.fld SYS_BOOT_STAT SYS_BOOT_STAT_cause = 2 ∧ m.otp.fuses = s.otp.fuses ∧
        m.fld SYS_BOOT_STAT SYS_BOOT_STAT_storm = min (s.fld SYS_BOOT_STAT SYS_BOOT_STAT_storm + 1) 3 ∧
        ∀ i < 16, m.rd (SYS_FLT_CNT i) = s.rd (SYS_FLT_CNT i))) ∧
    (∀ pass, s.cpState pair.val = 1 → Answers (.cpResumeDuties pair pass) s fun m =>
      m.cpState pair.val = (if pass then 0 else 2) ∧ m.cpState (1 - pair.val) = s.cpState (1 - pair.val) ∧
      OnlyRegs s m [SYS_CP_STAT]) ∧
    (Answers .stormCountClear s fun m => m.fld SYS_BOOT_STAT SYS_BOOT_STAT_storm = 0 ∧ OnlyRegs s m [SYS_BOOT_STAT])

/-- The fault log and the system reset (R496, R509, R510, R512): a batch that is stored goes to the front of the log, the newest
first, at most 256; a store that fails is counted as a FLASH fault and loses nothing that was written; the selected entry is
copied to SYS_FLOG_DATA, zero beyond the log; only debug at FULL clears the log. SYS_RESET with its key and no stream begins
the way to a restart, and is refused otherwise. -/
def Obligations.FaultLogAndResetComplete : Prop :=
  ∀ (s : State), s.boot ≠ .off →
    (s.flogPending ≠ [] → Answers (.faultLogFlush true) s (fun m => m.flogPending = [] ∧
        m.flash.faultLog = (s.flogPending.reverse ++ s.flash.faultLog).take 256 ∧
        { m with flash := s.flash, flogPending := s.flogPending } = s.toModule) ∧
      Answers (.faultLogFlush false) s fun m => m.flash = s.flash ∧ s.flogPending <+: m.flogPending ∧
        (m.rd (SYS_FLT_CNT 15)).toNat = min ((s.rd (SYS_FLT_CNT 15)).toNat + 1) 0xFFFFFFFF) ∧
    (∀ src v, Admits s src true SYS_FLOG_IDX → SYS_FLOG_IDX_clear.of v = 0 → Answers (.flogIndexSelect src v) s fun m =>
      m.busStatus = 0 ∧ m.fld SYS_FLOG_IDX SYS_FLOG_IDX_index = SYS_FLOG_IDX_index.of v ∧ m.flash = s.flash ∧
      (∀ k < 8, m.rd (SYS_FLOG_DATA k) = match s.flash.faultLog[SYS_FLOG_IDX_index.of v]? with
        | some e => BitVec.ofNat 32 (fieldAt (eventBytes e 0) (4 * k) 4)
        | none => 0) ∧
      OnlyRegs s m (SYS_FLOG_IDX :: (List.range 8).map SYS_FLOG_DATA)) ∧
    (∀ path, Admits s (.debug path) true SYS_FLOG_IDX → Answers (.flogClear (.debug path)) s fun m => m.busStatus = 0 ∧
      m.flash = { s.flash with faultLog := [] } ∧ m.flogPending = [] ∧ ∀ k < 8, m.rd (SYS_FLOG_DATA k) = 0) ∧
    (∀ n p, Admits s (.session n p) true SYS_FLOG_IDX → Answers (.flogClear (.session n p)) s fun m =>
      m.busStatus = 13 ∧ OnlyRegs s m []) ∧
    (∀ src v, Admits s src true SYS_RESET → s.transition = none → s.modeChange = none → s.fullFill = none →
      Answers (.sysReset src v) s fun m =>
        if SYS_RESET_key.of v ≠ 0xB007 ∨ s.streams ≠ [] then m.busStatus = 3 ∧ OnlyRegs s m []
        else if SYS_RESET_go.of v = 0 then m.busStatus = 0 ∧ OnlyRegs s m []
        else m.busStatus = 0 ∧ m.transition.map (·.target) = some 0 ∧ m.fld PWR_STATE PWR_STATE_target = 0 ∧
          m.power = s.power ∧ m.mem = s.mem ∧ Raised m 0x0A01 255 (16 * s.power) 0 0 0)

/-! ### Frames over families -/

/-- The commands that change registers and reports alone. -/
def reportsOnly : Instr → Prop
  | .inBandInterrupt _ | .dramWckTrack _ | .dramZqCalibrate _ | .planOverCap | .nop _
    | .reservedOpcode _ _ | .setEvents _ _ | .eventsLost _ | .notify _ | .linkUp _ _
    | .gptpHoldoverExpiry | .supplyLowEnter _ | .supplyHighEnter _ | .tempSensorCheck _ _
    | .status _ | .lock _ | .traceRead _ _ _ | .debugJournalRead _ _ _ | .attest _ _
    | .identity _ | .debugReservedOp _ _ | .debugFrameDiscard _ | .cpResumeDuties _ _ | .stormCountClear
    | .supplyNormal _ | .perBankRefresh _ _ | .preemptionVerification _ _ => True
  | _ => False

/-- The commands that beside these change the network ports, the clock, the recovery histories and the meters. -/
def networkOnly : Instr → Prop
  | .ywpFrameDiscard _ _ | .arpRequest _ _ _ | .gptpSyncTimeout _ | .qbvCycleStart _
    | .peerDelayMeasurement _ _ | .gptpSyncReceive _ _ _ | .gptpClockStep | .sequenceRecoveryReset _
    | .netRxFrame _ _ | .linkDown _ | .planWindowOpen _ _ => True
  | _ => False

/-- The commands that beside these change sync objects and the waits of sessions for them. -/
def syncsOnly : Instr → Prop
  | .syncOpSignal _ _ | .syncOpAdd _ _ _ | .syncOpReset _ _ _ | .syncOpWait _ _ _ _ | .syncWaitMet _ _
    | .syncWaitTimeout _ _ | .syncReset _ _ _ => True
  | _ => False

/-- The commands that beside these change engines, the pictures' rotation and the bad words a resident set's load meets. -/
def engineUpkeep : Instr → Prop
  | .engineFaultDetected _ _ | .engineWatchdog _ | .residentSetLoad _ _ _ _
    | .jobPreempt _ | .rotationDue _ | .rotation _ | .rotationSkip _ | .sweepDone _ _ _ => True
  | _ => False

/-- The commands of regions, fills, scrubbing, DMA channels, DRAM slots and debug reads that store nothing. -/
def memoryUnits : Instr → Prop
  | .free _ _ | .releaseDone _ | .fill _ _ _ _ _ _ _ _ _ | .copy _ _ _ _ _ _ _ _ _ _ | .fillCopyWaitTimeout _
    | .fillCopyDone _ | .scrubVisit _ _ | .dramSlotAdvance _ _ | .dma _ _ | .dmaWaitTimeout _ | .dmaHalted _
    | .dmaTransferFail _ | .memRead _ _ _ _ => True
  | _ => False

/-- The commands that admit streams, load packages, queue jobs and write the completions of these and of fills. -/
def workAdmission : Instr → Prop
  | .admitStream _ _ _ _ _ | .loadPkg _ _ _ _ | .unloadPkg _ _ | .job _ _ _ | .withdraw _ _
    | .deadlineMissed _ _ _ _ _ | .resumeDelivery _ _ _ | .modeChanged
    | .completionWrite _ => True
  | _ => False

/-- The commands of the supply and its measurement that leave the power state. -/
def supplyOnly : Instr → Prop
  | .highVoltageTimeout _ | .holdupEnter _ | .holdupReconnect _ | .supplyLost | .powerSample _ _ _
    | .autoIdleSample => True
  | _ => False

/-- The commands of the debug controller that change secrets, back-off, taps and flash records. -/
def securityOnly : Instr → Prop
  | .password _ _ | .challenge _ _ | .nonceExpiry | .backoffExpiry | .provision _ _ _ _ _ | .lifecycle _ _
    | .setPassword _ _ _ | .tapReset | .extest _ _ | .faultLogFlush _ => True
  | _ => False

/-- What the commands of a family leave unchanged, whatever state they meet: everything but registers, reports and the
state of their own unit. Each clause erases that state and says that the rest is the same, so no memory, no stream, no
engine, no session's work and no fuse changes where it does not name it. -/
def Obligations.UnitCommandsFrame : Prop :=
  ∀ (c : Instr) (s t : State), exec c s = .next t →
    (reportsOnly c → t.toModule.core = s.toModule.core) ∧
    (networkOnly c → { t.toModule.core with
        netPorts := s.netPorts, clockStep := s.clockStep, ptpOffset := s.ptpOffset
        recovery := s.recovery, meters := s.meters } = s.toModule.core) ∧
    (syncsOnly c → { t.toModule.core with
        syncs := s.syncs, hostWaits := s.hostWaits } = s.toModule.core) ∧
    (engineUpkeep c → { t.toModule.core with
        engines := s.engines, rotDue := s.rotDue, sweepNo := s.sweepNo, poison := s.poison
        ueSectors := s.ueSectors, latent := s.latent } = s.toModule.core) ∧
    (memoryUnits c → { t.toModule.core with
        regions := s.regions, regionGen := s.regionGen, fills := s.fills, syncs := s.syncs
        wheel := s.wheel, poison := s.poison, ueSectors := s.ueSectors, latent := s.latent, dma := s.dma
        planMoves := s.planMoves, winSeq := s.winSeq
        streams := s.streams, transition := s.transition } = s.toModule.core) ∧
    (workAdmission c → { t.toModule.core with
        admitting := s.admitting, packages := s.packages, packageGen := s.packageGen, jobs := s.jobs
        nextJob := s.nextJob, withdraws := s.withdraws, engines := s.engines, streams := s.streams
        modeChange := s.modeChange, transition := s.transition, poison := s.poison, ueSectors := s.ueSectors
        latent := s.latent, winSeq := s.winSeq, fills := s.fills } = s.toModule.core) ∧
    (supplyOnly c → { t.toModule.core with
        holdupHigh := s.holdupHigh, offHeld := s.offHeld, jobsGated := s.jobsGated
        powerSamples := s.powerSamples, energyPj := s.energyPj, idleSamples := s.idleSamples
        transition := s.transition } = s.toModule.core) ∧
    (securityOnly c → { t.toModule.core with
        nonce := s.nonce, backoff := s.backoff, backoffEnd := s.backoffEnd, flash := s.flash
        otp := s.otp, tap := s.tap } = s.toModule.core)

/-- The commands that store no byte: every one whose effect the spec gives no write of memory. -/
def storesNothing : Instr → Prop
  | .rstLowExpiry _ | .rstSettleExpiry _ | .portLineStart _ _ _ _ | .portLineEnd _ _ _
    | .trainNoSignalTimeout _ | .trainDone _ _ _ | .trigFreeRunPulse _ | .trigNetTimePulse _ | .trigPulseEnd _
    | .strobeEdge _ | .sensorTransactionStart _ | .sensorTransactionDone _ _ _ | .sensorBusTimeout _
    | .inBandInterrupt _ | .measSnapshot _ _ | .stripeReady _ | .aeUpdate _ | .awbUpdate _ | .trimUpdate _
    | .calStoreDone _ _ | .tileArrived _ _ | .engineFaultDetected _ _ | .engineWatchdog _
    | .residentSetLoad _ _ _ _ | .rotationGroupExchange _ _ | .cancellationComplete _ | .rotationDue _
    | .rotation _ | .rotationSkip _ | .sweepDone _ _ _ | .free _ _ | .releaseDone _ | .fill _ _ _ _ _ _ _ _ _
    | .copy _ _ _ _ _ _ _ _ _ _ | .fillCopyWaitTimeout _ | .fillCopyDone _ | .scrubVisit _ _
    | .syncOpSignal _ _ | .syncOpAdd _ _ _ | .syncOpReset _ _ _ | .syncOpWait _ _ _ _ | .syncWaitMet _ _
    | .syncWaitTimeout _ _ | .dramWckTrack _ | .dramZqCalibrate _ | .dramSlotAdvance _ _ | .dma _ _
    | .dmaWaitTimeout _ | .dmaTransferFail _ | .dmaHalted _ | .admitStream _ _ _ _ _ | .release _ _
    | .releaseComplete _ | .deadlineMissed _ _ _ _ _ | .resumeDelivery _ _ _ | .job _ _ _ | .jobPreempt _
    | .withdraw _ _ | .modeChanged | .planOverCap | .ywpFrameDiscard _ _ | .arpRequest _ _ _ | .netRxFrame _ _
    | .attach _ _ | .attachServe _ | .detach _ _ | .keepalive _ _ | .sessionKeepaliveTimeout _ | .doorbell _ _
    | .submissionEntryTake _ _ | .nop _ | .reservedOpcode _ _ | .loadPkg _ _ _ _ | .unloadPkg _ _
    | .setEvents _ _ | .completionWrite _ | .eventsLost _ | .notify _ | .journalRead _ _ | .wake _
    | .winBind _ _ _ | .winUnbind _ _ | .winRefresh _ _ _ | .netTimeSnapshot _ | .linkUp _ _ | .linkDown _
    | .winRead _ _ | .winSync _ _ | .planWindowOpen _ _
    | .gptpSyncReceive _ _ _ | .gptpSyncTimeout _ | .gptpHoldoverExpiry | .gptpClockStep | .qbvCycleStart _
    | .supplyLowEnter _ | .supplyHighEnter _ | .highVoltageTimeout _ | .holdupEnter _ | .holdupReconnect _
    | .enOff | .standbyDrainTimeout | .autoIdleSample | .powerSample _ _ _ | .tempSensorCheck _ _
    | .thermalTrip | .energySnapshot _ | .status _ | .password _ _ | .challenge _ _ | .lock _
    | .memRead _ _ _ _ | .syncReset _ _ _ | .halt _ _ | .resume _ _ | .traceRead _ _ _
    | .debugJournalRead _ _ _ | .attest _ _ | .identity _ | .provision _ _ _ _ _ | .lifecycle _ _
    | .setPassword _ _ _ | .debugReservedOp _ _ | .debugFrameDiscard _ | .nonceExpiry | .backoffExpiry
    | .tapReset | .dramTrainingDone _ _ _ | .firmwareVerified _ _ | .cpSelfTestDone _ _ _ | .cpResumeDuties _ _
    | .stormCountClear | .faultLogFlush _ | .supplyNormal _ | .supplyLost | .perBankRefresh _ _
    | .preemptionVerification _ _ | .sequenceRecoveryReset _ | .peerDelayMeasurement _ _ | .extest _ _ => True
  | _ => False

/-- The frame of memory: a command that stores nothing leaves every byte of the scratchpad and of DRAM as it was, and every
open gather entry. -/
def Obligations.MemoryFrame : Prop :=
  ∀ (c : Instr) (s t : State), exec c s = .next t → storesNothing c →
    t.mem = s.mem ∧ t.gather = s.gather ∧ ∀ a, t.byte a = s.byte a
end

