-- ==== Sys2Proof/Laws/Maps.lean ====
section
/-!
SUPPORT. The laws of sparse maps: a read after a write, other keys, and the canonical form that every operation keeps.
-/
namespace Sys2Proof

variable {α : Type}

/-! ### Read after write -/

theorem SMap.find?_insert_same (m : SMap α) (k : Nat) (v : α) : (SMap.insert m k v).find? k = some v := by
  induction m with
  | nil => simp [SMap.insert, SMap.find?]
  | cons e t ih =>
    obtain ⟨k', v'⟩ := e
    simp only [SMap.insert]
    split
    · simp [SMap.find?]
    · split
      · simp [SMap.find?]
      · have : k' ≠ k := fun h => by simp_all
        simp [SMap.find?, this, ih]

theorem SMap.find?_insert_ne (m : SMap α) {k j : Nat} (v : α) (h : j ≠ k) :
    (SMap.insert m k v).find? j = SMap.find? m j := by
  induction m with
  | nil => simp [SMap.insert, SMap.find?, h.symm]
  | cons e t ih =>
    obtain ⟨k', v'⟩ := e
    simp only [SMap.insert]
    split
    · simp [SMap.find?, h.symm]
    · split
      · next hk => subst hk; simp [SMap.find?, h.symm]
      · by_cases hj : k' = j <;> simp [SMap.find?, hj, ih]

theorem SMap.find?_filter (m : SMap α) (p : Nat → Bool) (j : Nat) (h : p j = true) :
    SMap.find? (List.filter (fun e => p e.1) m) j = SMap.find? m j := by
  induction m with
  | nil => rfl
  | cons e t ih =>
    obtain ⟨k', v'⟩ := e
    by_cases hp : p k' = true
    · simp [List.filter, hp, SMap.find?, ih]
    · have : k' ≠ j := fun he => hp (he ▸ h)
      simp [List.filter, hp, SMap.find?, ih, this]

theorem SMap.find?_filter_none (m : SMap α) (p : Nat → Bool) (j : Nat) (h : p j = false) :
    SMap.find? (List.filter (fun e => p e.1) m) j = none := by
  induction m with
  | nil => rfl
  | cons e t ih =>
    obtain ⟨k', v'⟩ := e
    by_cases hp : p k' = true
    · have : k' ≠ j := fun he => by simp [he, h] at hp
      simp [List.filter, hp, SMap.find?, ih, this]
    · simp [List.filter, hp, ih]

theorem SMap.find?_erase_same (m : SMap α) (k : Nat) : (SMap.erase m k).find? k = none :=
  SMap.find?_filter_none m (fun j => j != k) k (by simp)

theorem SMap.find?_erase_ne (m : SMap α) {k j : Nat} (h : j ≠ k) : (SMap.erase m k).find? j = SMap.find? m j :=
  SMap.find?_filter m (fun i => i != k) j (by simp [h])

@[simp] theorem SMap.get_set_same [DecidableEq α] (d : α) (m : SMap α) (k : Nat) (v : α) :
    SMap.get d (SMap.set d m k v) k = v := by
  unfold SMap.set
  split
  · next h => simp [SMap.get, SMap.find?_erase_same, h]
  · simp [SMap.get, SMap.find?_insert_same]

theorem SMap.get_set_ne [DecidableEq α] (d d' : α) (m : SMap α) {k j : Nat} (v : α) (h : j ≠ k) :
    SMap.get d' (SMap.set d m k v) j = SMap.get d' m j := by
  unfold SMap.set
  split
  · simp [SMap.get, SMap.find?_erase_ne m h]
  · simp [SMap.get, SMap.find?_insert_ne m v h]

/-! ### The canonical form -/

/-- Keys strictly rising. -/
abbrev SMap.Rising (m : SMap α) : Prop := List.Pairwise (fun a b : Nat × α => a.1 < b.1) m

/-- Keys strictly rising and no entry equal to what an unlisted key reads as. -/
def SMap.Canon [DecidableEq α] (d : α) (m : SMap α) : Prop := SMap.Rising m ∧ ∀ e ∈ m, e.2 ≠ d

theorem SMap.mem_insert {m : SMap α} {k : Nat} {v : α} {e : Nat × α} (h : e ∈ SMap.insert m k v) :
    e = (k, v) ∨ e ∈ m := by
  induction m with
  | nil => simpa [SMap.insert] using h
  | cons x t ih =>
    obtain ⟨k', v'⟩ := x
    simp only [SMap.insert] at h
    split at h
    · simpa using h
    · split at h
      · rcases List.mem_cons.1 h with h | h
        · exact .inl h
        · exact .inr (List.mem_cons_of_mem _ h)
      · rcases List.mem_cons.1 h with h | h
        · exact .inr (h ▸ List.mem_cons_self)
        · rcases ih h with h | h
          · exact .inl h
          · exact .inr (List.mem_cons_of_mem _ h)

theorem SMap.rising_insert {m : SMap α} (h : SMap.Rising m) (k : Nat) (v : α) : SMap.Rising (SMap.insert m k v) := by
  induction m with
  | nil => simp [SMap.insert, SMap.Rising]
  | cons x t ih =>
    obtain ⟨k', v'⟩ := x
    have hx := (List.pairwise_cons.1 h).1
    have ht := (List.pairwise_cons.1 h).2
    simp only [SMap.insert]
    split
    · next hk =>
      refine List.pairwise_cons.2 ⟨fun b hb => ?_, h⟩
      rcases List.mem_cons.1 hb with hb | hb
      · simpa [hb] using hk
      · exact Nat.lt_trans hk (hx b hb)
    · next hk =>
      split
      · next he => subst he; exact List.pairwise_cons.2 ⟨hx, ht⟩
      · next he =>
        refine List.pairwise_cons.2 ⟨fun b hb => ?_, ih ht⟩
        rcases SMap.mem_insert hb with hb | hb
        · simp only [hb]; omega
        · exact hx b hb

theorem SMap.canon_nil [DecidableEq α] (d : α) : SMap.Canon d ([] : SMap α) := by simp [SMap.Canon, SMap.Rising]

theorem SMap.canon_filter [DecidableEq α] {d : α} {m : SMap α} (h : SMap.Canon d m) (p : Nat × α → Bool) :
    SMap.Canon d (List.filter p m) :=
  ⟨List.Pairwise.sublist List.filter_sublist h.1, fun e he => h.2 e ((List.mem_filter.1 he).1)⟩

theorem SMap.canon_set [DecidableEq α] {d : α} {m : SMap α} (h : SMap.Canon d m) (k : Nat) (v : α) :
    SMap.Canon d (SMap.set d m k v) := by
  unfold SMap.set
  split
  · exact SMap.canon_filter h _
  · next hv =>
    refine ⟨SMap.rising_insert h.1 k v, fun e he => ?_⟩
    rcases SMap.mem_insert he with he | he
    · rw [he]; exact hv
    · exact h.2 e he

end Sys2Proof
end

