-- ==== Sys2Proof/Laws/Kept/Base.lean ====
section
/-!
SUPPORT. The canonical form of memory under stores, branches and folds.
-/
namespace Sys2Proof.Machine

theorem Memory.wf_iff (l : List Host.Cell) : Memory.wf l = true ↔ SMap.Canon (0 : Byte) l := by
  simp [Memory.wf, SMap.Canon, SMap.Rising, List.all_eq_true]

theorem Memory.wf_nil : Memory.wf [] = true := rfl

theorem Memory.wf_filter {l : List Host.Cell} (h : Memory.wf l = true) (p : Host.Cell → Bool) :
    Memory.wf (List.filter p l) = true :=
  (Memory.wf_iff _).2 (SMap.canon_filter ((Memory.wf_iff _).1 h) p)

theorem Memory.wf_set {l : List Host.Cell} (h : Memory.wf l = true) (k : Nat) (v : Byte) :
    Memory.wf (SMap.set 0 l k v) = true :=
  (Memory.wf_iff _).2 (SMap.canon_set ((Memory.wf_iff _).1 h) k v)

theorem reset_kept : Memory.wf Module.reset.mem = true := rfl

theorem ite_kept {c : Prop} [Decidable c] {a b : Module} (ha : Memory.wf a.mem = true) (hb : Memory.wf b.mem = true) :
    Memory.wf (ite c a b).mem = true := by split <;> assumption

/-- A fold keeps what every step keeps. -/
theorem foldl_keeps {β γ : Type} {P : γ → Prop} {a : γ} (l : List β) (f : γ → β → γ) (ha : P a)
    (hf : ∀ x b, P x → P (f x b)) : P (List.foldl f a l) := by
  induction l generalizing a with
  | nil => exact ha
  | cons b t ih => exact ih (hf a b ha)

theorem foldl_kept {β : Type} {m : Module} (l : List β) (f : Module → β → Module) (hm : Memory.wf m.mem = true)
    (hf : ∀ x b, Memory.wf x.mem = true → Memory.wf (f x b).mem = true) : Memory.wf (List.foldl f m l).mem = true := by
  induction l generalizing m with
  | nil => exact hm
  | cons b t ih => exact ih (hf m b hm)

theorem foldl_kept2 {β γ : Type} {a : γ × Module} (l : List β) (f : γ × Module → β → γ × Module)
    (hm : Memory.wf a.2.mem = true) (hf : ∀ x b, Memory.wf x.2.mem = true → Memory.wf (f x b).2.mem = true) :
    Memory.wf (List.foldl f a l).2.mem = true := by
  induction l generalizing a with
  | nil => exact hm
  | cons b t ih => exact ih (hf a b hm)

theorem foldl_kept22 {β γ δ : Type} {a : γ × δ × Module} (l : List β) (f : γ × δ × Module → β → γ × δ × Module)
    (hm : Memory.wf a.2.2.mem = true) (hf : ∀ x b, Memory.wf x.2.2.mem = true → Memory.wf (f x b).2.2.mem = true) :
    Memory.wf (List.foldl f a l).2.2.mem = true := by
  induction l generalizing a with
  | nil => exact hm
  | cons b t ih => exact ih (hf a b hm)

theorem foldl_kept222 {β γ δ ε : Type} {a : γ × δ × ε × Module} (l : List β)
    (f : γ × δ × ε × Module → β → γ × δ × ε × Module) (hm : Memory.wf a.2.2.2.mem = true)
    (hf : ∀ x b, Memory.wf x.2.2.2.mem = true → Memory.wf (f x b).2.2.2.mem = true) :
    Memory.wf (List.foldl f a l).2.2.2.mem = true := by
  induction l generalizing a with
  | nil => exact hm
  | cons b t ih => exact ih (hf a b hm)

end Sys2Proof.Machine
end

