-- ==== Sys2Proof/Laws/Kept/Ops.lean ====
section
/-!
SUPPORT. Every operation of Machine/Ops.lean keeps the canonical form of memory.
-/
namespace Sys2Proof.Machine

theorem Module.wr_kept (m : Module) (off : Nat) (v : Word) (hm : Memory.wf m.mem = true) :
    Memory.wf (Module.wr m off v).mem = true := by
  unfold Module.wr
  repeat' (first
    | with_reducible assumption)

theorem Module.setFld_kept (m : Module) (off : Nat) (b : Bits) (v : Nat) (hm : Memory.wf m.mem = true) :
    Memory.wf (Module.setFld m off b v).mem = true := by
  unfold Module.setFld
  repeat' (first
    | with_reducible assumption
    | with_reducible first | refine ite_kept ?_ ?_ | refine foldl_kept _ _ ?_ ?_ | refine foldl_kept2 _ _ ?_ ?_ | refine foldl_kept22 _ _ ?_ ?_ | refine foldl_kept222 _ _ ?_ ?_
    | intro _
    | simp (maxDischargeDepth := 99) (maxSteps := 1000000) +contextual only [Module.wr_kept, *])

theorem Module.satAdd_kept (m : Module) (off : Nat) (b : Bits) (n : Nat) (hm : Memory.wf m.mem = true) :
    Memory.wf (Module.satAdd m off b n).mem = true := by
  unfold Module.satAdd
  repeat' (first
    | with_reducible assumption
    | with_reducible first | refine ite_kept ?_ ?_ | refine foldl_kept _ _ ?_ ?_ | refine foldl_kept2 _ _ ?_ ?_ | refine foldl_kept22 _ _ ?_ ?_ | refine foldl_kept222 _ _ ?_ ?_
    | intro _
    | simp (maxDischargeDepth := 99) (maxSteps := 1000000) +contextual only [Module.setFld_kept, *])

theorem Module.count_kept (m : Module) (off : Nat) (n : Nat) (hm : Memory.wf m.mem = true) :
    Memory.wf (Module.count m off n).mem = true := by
  unfold Module.count
  repeat' (first
    | with_reducible assumption
    | with_reducible first | refine ite_kept ?_ ?_ | refine foldl_kept _ _ ?_ ?_ | refine foldl_kept2 _ _ ?_ ?_ | refine foldl_kept22 _ _ ?_ ?_ | refine foldl_kept222 _ _ ?_ ?_
    | intro _
    | simp (maxDischargeDepth := 99) (maxSteps := 1000000) +contextual only [Module.wr_kept, *])

theorem Module.clearCounters_kept (m : Module) (base : Nat) (n : Nat) (mask : Nat) (hm : Memory.wf m.mem = true) :
    Memory.wf (Module.clearCounters m base n mask).mem = true := by
  unfold Module.clearCounters
  repeat' (first
    | with_reducible assumption
    | with_reducible first | refine ite_kept ?_ ?_ | refine foldl_kept _ _ ?_ ?_ | refine foldl_kept2 _ _ ?_ ?_ | refine foldl_kept22 _ _ ?_ ?_ | refine foldl_kept222 _ _ ?_ ?_
    | intro _
    | simp (maxDischargeDepth := 99) (maxSteps := 1000000) +contextual only [Module.wr_kept, *])

theorem Module.draw_kept (m : Module) (hm : Memory.wf m.mem = true) :
    Memory.wf (Module.draw m).2.mem = true := by
  unfold Module.draw
  repeat' (first
    | with_reducible assumption)

theorem Module.pick_kept (m : Module) (n : Nat) (hm : Memory.wf m.mem = true) :
    Memory.wf (Module.pick m n).2.mem = true := by
  unfold Module.pick
  repeat' (first
    | with_reducible assumption)

theorem Module.open__kept (m : Module) (hm : Memory.wf m.mem = true) :
    Memory.wf (Module.open_ m).2.mem = true := by
  unfold Module.open_
  repeat' (first
    | with_reducible assumption)

theorem Module.tick_kept (m : Module) (hm : Memory.wf m.mem = true) :
    Memory.wf (Module.tick m).mem = true := by
  unfold Module.tick
  repeat' (first
    | with_reducible assumption)

theorem Module.setSync_kept (m : Module) (o : Nat) (v : Word) (hm : Memory.wf m.mem = true) :
    Memory.wf (Module.setSync m o v).mem = true := by
  unfold Module.setSync
  repeat' (first
    | with_reducible assumption)

theorem Module.addSync_kept (m : Module) (o : Nat) (v : Word) (hm : Memory.wf m.mem = true) :
    Memory.wf (Module.addSync m o v).mem = true := by
  unfold Module.addSync
  repeat' (first
    | with_reducible assumption
    | with_reducible first | refine ite_kept ?_ ?_ | refine foldl_kept _ _ ?_ ?_ | refine foldl_kept2 _ _ ?_ ?_ | refine foldl_kept22 _ _ ?_ ?_ | refine foldl_kept222 _ _ ?_ ?_
    | intro _
    | simp (maxDischargeDepth := 99) (maxSteps := 1000000) +contextual only [Module.setSync_kept, *])

theorem Module.guestAdd_kept (m : Module) (o : Nat) (v : Word) (hm : Memory.wf m.mem = true) :
    Memory.wf (Module.guestAdd m o v).mem = true := by
  unfold Module.guestAdd
  repeat' (first
    | with_reducible assumption
    | with_reducible first | refine ite_kept ?_ ?_ | refine foldl_kept _ _ ?_ ?_ | refine foldl_kept2 _ _ ?_ ?_ | refine foldl_kept22 _ _ ?_ ?_ | refine foldl_kept222 _ _ ?_ ?_
    | intro _
    | simp (maxDischargeDepth := 99) (maxSteps := 1000000) +contextual only [Module.count_kept, Module.addSync_kept, *])

theorem Module.emit_kept (m : Module) (o : Out) (hm : Memory.wf m.mem = true) :
    Memory.wf (Module.emit m o).mem = true := by
  unfold Module.emit
  repeat' (first
    | with_reducible assumption)

theorem Module.frames_kept (m : Module) (port : Fin 2) (dest : Peer) (replicate : Bool) (tclass : Nat) (x : Msg) (hm : Memory.wf m.mem = true) :
    Memory.wf (Module.frames m port dest replicate tclass x).2.mem = true := by
  unfold Module.frames
  repeat' (first
    | with_reducible assumption
    | with_reducible first | refine ite_kept ?_ ?_ | refine foldl_kept _ _ ?_ ?_ | refine foldl_kept2 _ _ ?_ ?_ | refine foldl_kept22 _ _ ?_ ?_ | refine foldl_kept222 _ _ ?_ ?_
    | intro _
    | simp (maxDischargeDepth := 99) (maxSteps := 1000000) +contextual only [*]
    | split)

theorem Module.send_kept (m : Module) (port : Fin 2) (dest : Peer) (replicate : Bool) (tclass : Nat) (x : Msg) (hm : Memory.wf m.mem = true) :
    Memory.wf (Module.send m port dest replicate tclass x).mem = true := by
  unfold Module.send
  repeat' (first
    | with_reducible assumption
    | with_reducible first | refine ite_kept ?_ ?_ | refine foldl_kept _ _ ?_ ?_ | refine foldl_kept2 _ _ ?_ ?_ | refine foldl_kept22 _ _ ?_ ?_ | refine foldl_kept222 _ _ ?_ ?_
    | intro _
    | simp (maxDischargeDepth := 99) (maxSteps := 1000000) +contextual only [Module.frames_kept, Module.emit_kept, *])

theorem Module.originate_kept (m : Module) (port : Fin 2) (dest : Peer) (replicate : Bool) (tclass : Nat) (x : Msg) (hm : Memory.wf m.mem = true) :
    Memory.wf (Module.originate m port dest replicate tclass x).mem = true := by
  unfold Module.originate
  repeat' (first
    | with_reducible assumption
    | with_reducible first | refine ite_kept ?_ ?_ | refine foldl_kept _ _ ?_ ?_ | refine foldl_kept2 _ _ ?_ ?_ | refine foldl_kept22 _ _ ?_ ?_ | refine foldl_kept222 _ _ ?_ ?_
    | intro _
    | simp (maxDischargeDepth := 99) (maxSteps := 1000000) +contextual only [Module.send_kept, *])

theorem Module.request_kept (m : Module) (port : Fin 2) (dest : Peer) (replicate : Bool) (tclass : Nat) (x : Msg) (answered : Bool) (hm : Memory.wf m.mem = true) :
    Memory.wf (Module.request m port dest replicate tclass x answered).mem = true := by
  unfold Module.request
  repeat' (first
    | with_reducible assumption
    | with_reducible first | refine ite_kept ?_ ?_ | refine foldl_kept _ _ ?_ ?_ | refine foldl_kept2 _ _ ?_ ?_ | refine foldl_kept22 _ _ ?_ ?_ | refine foldl_kept222 _ _ ?_ ?_
    | intro _
    | simp (maxDischargeDepth := 99) (maxSteps := 1000000) +contextual only [Module.originate_kept, Module.count_kept, implies_true, foldl_kept, *])

theorem Module.answer_kept (m : Module) (h : Hdr) (type : Nat) (status : Nat) (retry : Nat) (payload : List Byte) (hm : Memory.wf m.mem = true) :
    Memory.wf (Module.answer m h type status retry payload).mem = true := by
  unfold Module.answer
  repeat' (first
    | with_reducible assumption
    | with_reducible first | refine ite_kept ?_ ?_ | refine foldl_kept _ _ ?_ ?_ | refine foldl_kept2 _ _ ?_ ?_ | refine foldl_kept22 _ _ ?_ ?_ | refine foldl_kept222 _ _ ?_ ?_
    | intro _
    | simp (maxDischargeDepth := 99) (maxSteps := 1000000) +contextual only [Module.send_kept, *]
    | with_reducible apply Module.send_kept
    | split)

theorem Module.answerIf_kept (m : Module) (h : Hdr) (type : Nat) (status : Nat) (retry : Nat) (payload : List Byte) (hm : Memory.wf m.mem = true) :
    Memory.wf (Module.answerIf m h type status retry payload).mem = true := by
  unfold Module.answerIf
  repeat' (first
    | with_reducible assumption
    | with_reducible first | refine ite_kept ?_ ?_ | refine foldl_kept _ _ ?_ ?_ | refine foldl_kept2 _ _ ?_ ?_ | refine foldl_kept22 _ _ ?_ ?_ | refine foldl_kept222 _ _ ?_ ?_
    | intro _
    | simp (maxDischargeDepth := 99) (maxSteps := 1000000) +contextual only [Module.answer_kept, *])

theorem Module.debugSend_kept (m : Module) (d : DbgHdr) (status : Nat) (retry : Nat) (p : List Byte) (hm : Memory.wf m.mem = true) :
    Memory.wf (Module.debugSend m d status retry p).mem = true := by
  unfold Module.debugSend
  repeat' (first
    | with_reducible assumption
    | with_reducible first | refine ite_kept ?_ ?_ | refine foldl_kept _ _ ?_ ?_ | refine foldl_kept2 _ _ ?_ ?_ | refine foldl_kept22 _ _ ?_ ?_ | refine foldl_kept222 _ _ ?_ ?_
    | intro _
    | simp (maxDischargeDepth := 99) (maxSteps := 1000000) +contextual only [Module.answer_kept, Module.emit_kept, *]
    | with_reducible first | apply Module.answer_kept | apply Module.emit_kept
    | split)

theorem Module.debugAnswer_kept (m : Module) (d : DbgHdr) (op : Nat) (status : Nat) (retry : Nat) (body : List Byte) (hm : Memory.wf m.mem = true) :
    Memory.wf (Module.debugAnswer m d op status retry body).mem = true := by
  unfold Module.debugAnswer
  repeat' (first
    | with_reducible assumption
    | with_reducible first | refine ite_kept ?_ ?_ | refine foldl_kept _ _ ?_ ?_ | refine foldl_kept2 _ _ ?_ ?_ | refine foldl_kept22 _ _ ?_ ?_ | refine foldl_kept222 _ _ ?_ ?_
    | intro _
    | simp (maxDischargeDepth := 99) (maxSteps := 1000000) +contextual only [Module.debugSend_kept, *])

theorem Module.sendSession_kept (m : Module) (n : Nat) (type : Nat) (ackReq : Bool) (payload : List Byte) (hm : Memory.wf m.mem = true) :
    Memory.wf (Module.sendSession m n type ackReq payload).mem = true := by
  unfold Module.sendSession
  repeat' (first
    | with_reducible assumption
    | with_reducible first | refine ite_kept ?_ ?_ | refine foldl_kept _ _ ?_ ?_ | refine foldl_kept2 _ _ ?_ ?_ | refine foldl_kept22 _ _ ?_ ?_ | refine foldl_kept222 _ _ ?_ ?_
    | intro _
    | simp (maxDischargeDepth := 99) (maxSteps := 1000000) +contextual only [Module.originate_kept, *]
    | with_reducible apply Module.originate_kept
    | split)

theorem Module.ringWrite_kept (m : Module) (n : Nat) (offset : Nat) (data : List Byte) (use : WinUse) (hm : Memory.wf m.mem = true) :
    Memory.wf (Module.ringWrite m n offset data use).mem = true := by
  unfold Module.ringWrite
  repeat' (first
    | with_reducible assumption
    | with_reducible first | refine ite_kept ?_ ?_ | refine foldl_kept _ _ ?_ ?_ | refine foldl_kept2 _ _ ?_ ?_ | refine foldl_kept22 _ _ ?_ ?_ | refine foldl_kept222 _ _ ?_ ?_
    | intro _
    | simp (maxDischargeDepth := 99) (maxSteps := 1000000) +contextual only [Module.originate_kept, *]
    | with_reducible apply Module.originate_kept
    | split)

theorem Module.writeEvent_kept (m : Module) (n : Nat) (e : Event) (hm : Memory.wf m.mem = true) :
    Memory.wf (Module.writeEvent m n e).mem = true := by
  unfold Module.writeEvent
  repeat' (first
    | with_reducible assumption
    | with_reducible first | refine ite_kept ?_ ?_ | refine foldl_kept _ _ ?_ ?_ | refine foldl_kept2 _ _ ?_ ?_ | refine foldl_kept22 _ _ ?_ ?_ | refine foldl_kept222 _ _ ?_ ?_
    | intro _
    | simp (maxDischargeDepth := 99) (maxSteps := 1000000) +contextual only [Module.ringWrite_kept, *]
    | with_reducible apply Module.ringWrite_kept
    | split)

theorem Module.makeEvent_kept (m : Module) (code : Nat) (ctx : Nat) (seq : Word) (p0 : Nat) (p1 : Nat) (p2 : Nat) (p3 : Nat) (hm : Memory.wf m.mem = true) :
    Memory.wf (Module.makeEvent m code ctx seq p0 p1 p2 p3).2.mem = true := by
  unfold Module.makeEvent
  repeat' (first
    | with_reducible assumption
    | with_reducible first | refine ite_kept ?_ ?_ | refine foldl_kept _ _ ?_ ?_ | refine foldl_kept2 _ _ ?_ ?_ | refine foldl_kept22 _ _ ?_ ?_ | refine foldl_kept222 _ _ ?_ ?_
    | intro _
    | simp (maxDischargeDepth := 99) (maxSteps := 1000000) +contextual only [Module.tick_kept, Module.wr_kept, *])

theorem Module.writeLost_kept (m : Module) (n : Nat) (hm : Memory.wf m.mem = true) :
    Memory.wf (Module.writeLost m n).mem = true := by
  unfold Module.writeLost
  repeat' (first
    | with_reducible assumption
    | with_reducible first | refine ite_kept ?_ ?_ | refine foldl_kept _ _ ?_ ?_ | refine foldl_kept2 _ _ ?_ ?_ | refine foldl_kept22 _ _ ?_ ?_ | refine foldl_kept222 _ _ ?_ ?_
    | intro _
    | simp (maxDischargeDepth := 99) (maxSteps := 1000000) +contextual only [Module.makeEvent_kept, Module.writeEvent_kept, *]
    | with_reducible first | apply Module.makeEvent_kept | apply Module.writeEvent_kept
    | split)

theorem Module.deliverTo_kept (m : Module) (e : Event) (n : Nat) (hm : Memory.wf m.mem = true) :
    Memory.wf (Module.deliverTo m e n).mem = true := by
  unfold Module.deliverTo
  repeat' (first
    | with_reducible assumption
    | with_reducible first | refine ite_kept ?_ ?_ | refine foldl_kept _ _ ?_ ?_ | refine foldl_kept2 _ _ ?_ ?_ | refine foldl_kept22 _ _ ?_ ?_ | refine foldl_kept222 _ _ ?_ ?_
    | intro _
    | simp (maxDischargeDepth := 99) (maxSteps := 1000000) +contextual only [Module.writeEvent_kept, *]
    | with_reducible apply Module.writeEvent_kept
    | split)

theorem Module.writeAllLost_kept (m : Module) (hm : Memory.wf m.mem = true) :
    Memory.wf (Module.writeAllLost m).mem = true := by
  unfold Module.writeAllLost
  repeat' (first
    | with_reducible assumption
    | with_reducible first | refine ite_kept ?_ ?_ | refine foldl_kept _ _ ?_ ?_ | refine foldl_kept2 _ _ ?_ ?_ | refine foldl_kept22 _ _ ?_ ?_ | refine foldl_kept222 _ _ ?_ ?_
    | intro _
    | simp (maxDischargeDepth := 99) (maxSteps := 1000000) +contextual only [Module.writeLost_kept, *])

theorem Module.deliver_kept (m : Module) (e : Event) (hm : Memory.wf m.mem = true) :
    Memory.wf (Module.deliver m e).mem = true := by
  unfold Module.deliver
  repeat' (first
    | with_reducible assumption
    | with_reducible first | refine ite_kept ?_ ?_ | refine foldl_kept _ _ ?_ ?_ | refine foldl_kept2 _ _ ?_ ?_ | refine foldl_kept22 _ _ ?_ ?_ | refine foldl_kept222 _ _ ?_ ?_
    | intro _
    | simp (maxDischargeDepth := 99) (maxSteps := 1000000) +contextual only [Module.deliverTo_kept, *])

theorem Module.raiseSeq_kept (m : Module) (code : Nat) (ctx : Nat) (seq : Word) (p0 : Nat) (p1 : Nat) (p2 : Nat) (p3 : Nat) (hm : Memory.wf m.mem = true) :
    Memory.wf (Module.raiseSeq m code ctx seq p0 p1 p2 p3).mem = true := by
  unfold Module.raiseSeq
  repeat' (first
    | with_reducible assumption
    | with_reducible first | refine ite_kept ?_ ?_ | refine foldl_kept _ _ ?_ ?_ | refine foldl_kept2 _ _ ?_ ?_ | refine foldl_kept22 _ _ ?_ ?_ | refine foldl_kept222 _ _ ?_ ?_
    | intro _
    | simp (maxDischargeDepth := 99) (maxSteps := 1000000) +contextual only [Module.writeAllLost_kept, Module.makeEvent_kept, Module.deliver_kept, *])

theorem Module.raise_kept (m : Module) (code : Nat) (p0 : Nat) (p1 : Nat) (p2 : Nat) (p3 : Nat) (hm : Memory.wf m.mem = true) :
    Memory.wf (Module.raise m code p0 p1 p2 p3).mem = true := by
  unfold Module.raise
  repeat' (first
    | with_reducible assumption
    | with_reducible first | refine ite_kept ?_ ?_ | refine foldl_kept _ _ ?_ ?_ | refine foldl_kept2 _ _ ?_ ?_ | refine foldl_kept22 _ _ ?_ ?_ | refine foldl_kept222 _ _ ?_ ?_
    | intro _
    | simp (maxDischargeDepth := 99) (maxSteps := 1000000) +contextual only [Module.raiseSeq_kept, *])

theorem Module.raiseCtx_kept (m : Module) (code : Nat) (c : Nat) (p0 : Nat) (p1 : Nat) (p2 : Nat) (p3 : Nat) (hm : Memory.wf m.mem = true) :
    Memory.wf (Module.raiseCtx m code c p0 p1 p2 p3).mem = true := by
  unfold Module.raiseCtx
  repeat' (first
    | with_reducible assumption
    | with_reducible first | refine ite_kept ?_ ?_ | refine foldl_kept _ _ ?_ ?_ | refine foldl_kept2 _ _ ?_ ?_ | refine foldl_kept22 _ _ ?_ ?_ | refine foldl_kept222 _ _ ?_ ?_
    | intro _
    | simp (maxDischargeDepth := 99) (maxSteps := 1000000) +contextual only [Module.raiseSeq_kept, *])

theorem Module.countFault_kept (m : Module) (cls : Nat) (hm : Memory.wf m.mem = true) :
    Memory.wf (Module.countFault m cls).mem = true := by
  unfold Module.countFault
  repeat' (first
    | with_reducible assumption
    | with_reducible first | refine ite_kept ?_ ?_ | refine foldl_kept _ _ ?_ ?_ | refine foldl_kept2 _ _ ?_ ?_ | refine foldl_kept22 _ _ ?_ ?_ | refine foldl_kept222 _ _ ?_ ?_
    | intro _
    | simp (maxDischargeDepth := 99) (maxSteps := 1000000) +contextual only [Module.count_kept, *])

theorem Module.faultSeq_kept (m : Module) (cls : Nat) (code : Nat) (ctx : Nat) (seq : Word) (p0 : Nat) (p1 : Nat) (p2 : Nat) (p3 : Nat) (hm : Memory.wf m.mem = true) :
    Memory.wf (Module.faultSeq m cls code ctx seq p0 p1 p2 p3).mem = true := by
  unfold Module.faultSeq
  repeat' (first
    | with_reducible assumption
    | with_reducible first | refine ite_kept ?_ ?_ | refine foldl_kept _ _ ?_ ?_ | refine foldl_kept2 _ _ ?_ ?_ | refine foldl_kept22 _ _ ?_ ?_ | refine foldl_kept222 _ _ ?_ ?_
    | intro _
    | simp (maxDischargeDepth := 99) (maxSteps := 1000000) +contextual only [Module.countFault_kept, Module.writeAllLost_kept, Module.makeEvent_kept, Module.deliver_kept, *])

theorem Module.fault_kept (m : Module) (cls : Nat) (code : Nat) (p0 : Nat) (p1 : Nat) (p2 : Nat) (p3 : Nat) (hm : Memory.wf m.mem = true) :
    Memory.wf (Module.fault m cls code p0 p1 p2 p3).mem = true := by
  unfold Module.fault
  repeat' (first
    | with_reducible assumption
    | with_reducible first | refine ite_kept ?_ ?_ | refine foldl_kept _ _ ?_ ?_ | refine foldl_kept2 _ _ ?_ ?_ | refine foldl_kept22 _ _ ?_ ?_ | refine foldl_kept222 _ _ ?_ ?_
    | intro _
    | simp (maxDischargeDepth := 99) (maxSteps := 1000000) +contextual only [Module.faultSeq_kept, *])

theorem Module.silentFault_kept (m : Module) (cls : Nat) (hm : Memory.wf m.mem = true) :
    Memory.wf (Module.silentFault m cls).mem = true := by
  unfold Module.silentFault
  repeat' (first
    | with_reducible assumption
    | with_reducible first | refine ite_kept ?_ ?_ | refine foldl_kept _ _ ?_ ?_ | refine foldl_kept2 _ _ ?_ ?_ | refine foldl_kept22 _ _ ?_ ?_ | refine foldl_kept222 _ _ ?_ ?_
    | intro _
    | simp (maxDischargeDepth := 99) (maxSteps := 1000000) +contextual only [Module.countFault_kept, Module.tick_kept, *])

theorem Module.storeFlash_kept (m : Module) (f : Flash → Flash) (hm : Memory.wf m.mem = true) :
    Memory.wf (Module.storeFlash m f).mem = true := by
  unfold Module.storeFlash
  repeat' (first
    | with_reducible assumption
    | with_reducible first | refine ite_kept ?_ ?_ | refine foldl_kept _ _ ?_ ?_ | refine foldl_kept2 _ _ ?_ ?_ | refine foldl_kept22 _ _ ?_ ?_ | refine foldl_kept222 _ _ ?_ ?_
    | intro _
    | simp (maxDischargeDepth := 99) (maxSteps := 1000000) +contextual only [Module.pick_kept, Module.silentFault_kept, *])

theorem Module.writeCompl_kept (m : Module) (n : Nat) (c : Compl) (hm : Memory.wf m.mem = true) :
    Memory.wf (Module.writeCompl m n c).mem = true := by
  unfold Module.writeCompl
  repeat' (first
    | with_reducible assumption
    | with_reducible first | refine ite_kept ?_ ?_ | refine foldl_kept _ _ ?_ ?_ | refine foldl_kept2 _ _ ?_ ?_ | refine foldl_kept22 _ _ ?_ ?_ | refine foldl_kept222 _ _ ?_ ?_
    | intro _
    | simp (maxDischargeDepth := 99) (maxSteps := 1000000) +contextual only [Module.ringWrite_kept, *]
    | with_reducible apply Module.ringWrite_kept
    | split)

theorem Module.completeMore_kept (m : Module) (c : CmdRef) (status : Nat) (more : Bool) (result : Nat) (tag : Word) (hm : Memory.wf m.mem = true) :
    Memory.wf (Module.completeMore m c status more result tag).mem = true := by
  unfold Module.completeMore
  repeat' (first
    | with_reducible assumption
    | with_reducible first | refine ite_kept ?_ ?_ | refine foldl_kept _ _ ?_ ?_ | refine foldl_kept2 _ _ ?_ ?_ | refine foldl_kept22 _ _ ?_ ?_ | refine foldl_kept222 _ _ ?_ ?_
    | intro _
    | simp (maxDischargeDepth := 99) (maxSteps := 1000000) +contextual only [Module.writeCompl_kept, *]
    | with_reducible apply Module.writeCompl_kept
    | split)

theorem Module.complete_kept (m : Module) (c : CmdRef) (status : Nat) (result : Nat) (hm : Memory.wf m.mem = true) :
    Memory.wf (Module.complete m c status result).mem = true := by
  unfold Module.complete
  repeat' (first
    | with_reducible assumption
    | with_reducible first | refine ite_kept ?_ ?_ | refine foldl_kept _ _ ?_ ?_ | refine foldl_kept2 _ _ ?_ ?_ | refine foldl_kept22 _ _ ?_ ?_ | refine foldl_kept222 _ _ ?_ ?_
    | intro _
    | simp (maxDischargeDepth := 99) (maxSteps := 1000000) +contextual only [Module.completeMore_kept, *])

theorem Module.command_kept (m : Module) (h : CmdHdr) (op : Nat) (operands : List Byte → Bool) (f : CmdRef → Module → Module) (hm : Memory.wf m.mem = true) (hf : ∀ (x0 : CmdRef) (x1 : Module), Memory.wf x1.mem = true → Memory.wf (f x0 x1).mem = true) :
    Memory.wf (Module.command m h op operands f).mem = true := by
  unfold Module.command
  repeat' (first
    | with_reducible assumption
    | with_reducible first | refine ite_kept ?_ ?_ | refine foldl_kept _ _ ?_ ?_ | refine foldl_kept2 _ _ ?_ ?_ | refine foldl_kept22 _ _ ?_ ?_ | refine foldl_kept222 _ _ ?_ ?_
    | intro _
    | simp (maxDischargeDepth := 99) (maxSteps := 1000000) +contextual only [*]
    | split)

theorem Module.journalEntry_kept (m : Module) (kind : Nat) (source : Fin 4) (session : W16) (object : Nat) (old : Nat) (new : Nat) (hm : Memory.wf m.mem = true) :
    Memory.wf (Module.journalEntry m kind source session object old new).mem = true := by
  simp only [Module.journalEntry, Module.wr]
  exact Module.tick_kept m hm

theorem Module.lostCycles_kept (m : Module) (hm : Memory.wf m.mem = true) :
    Memory.wf (Module.lostCycles m).mem = true := by
  unfold Module.lostCycles
  repeat' (first
    | with_reducible assumption
    | with_reducible first | refine ite_kept ?_ ?_ | refine foldl_kept _ _ ?_ ?_ | refine foldl_kept2 _ _ ?_ ?_ | refine foldl_kept22 _ _ ?_ ?_ | refine foldl_kept222 _ _ ?_ ?_
    | intro _
    | simp (maxDischargeDepth := 99) (maxSteps := 1000000) +contextual only [Module.open__kept, Module.wr_kept, *])

theorem Module.rampSpm_kept (m : Module) (hm : Memory.wf m.mem = true) :
    Memory.wf (Module.rampSpm m).mem = true := by
  unfold Module.rampSpm
  repeat' (first
    | with_reducible assumption
    | with_reducible first | refine ite_kept ?_ ?_ | refine foldl_kept _ _ ?_ ?_ | refine foldl_kept2 _ _ ?_ ?_ | refine foldl_kept22 _ _ ?_ ?_ | refine foldl_kept222 _ _ ?_ ?_
    | intro _
    | simp (maxDischargeDepth := 99) (maxSteps := 1000000) +contextual only [Module.setFld_kept, *])

theorem Module.firmware_kept (m : Module) (k : Module → Module) (hm : Memory.wf m.mem = true) (hk : ∀ (x0 : Module), Memory.wf x0.mem = true → Memory.wf (k x0).mem = true) :
    Memory.wf (Module.firmware m k).mem = true := by
  unfold Module.firmware
  repeat' (first
    | with_reducible assumption
    | with_reducible first | refine ite_kept ?_ ?_ | refine foldl_kept _ _ ?_ ?_ | refine foldl_kept2 _ _ ?_ ?_ | refine foldl_kept22 _ _ ?_ ?_ | refine foldl_kept222 _ _ ?_ ?_
    | intro _
    | simp (maxDischargeDepth := 99) (maxSteps := 1000000) +contextual only [*])

theorem Module.startMove_kept (m : Module) (target : Nat) (cause : PowerCause) (hm : Memory.wf m.mem = true) :
    Memory.wf (Module.startMove m target cause).mem = true := by
  unfold Module.startMove
  repeat' (first
    | with_reducible assumption
    | with_reducible first | refine ite_kept ?_ ?_ | refine foldl_kept _ _ ?_ ?_ | refine foldl_kept2 _ _ ?_ ?_ | refine foldl_kept22 _ _ ?_ ?_ | refine foldl_kept222 _ _ ?_ ?_
    | intro _
    | simp (maxDischargeDepth := 99) (maxSteps := 1000000) +contextual only [Module.setFld_kept, *])

theorem Module.commandRun_kept (m : Module) (h : CmdHdr) (op : Nat) (operands : List Byte → Bool) (f : CmdRef → Module → Module) (hm : Memory.wf m.mem = true) (hf : ∀ (x0 : CmdRef) (x1 : Module), Memory.wf x1.mem = true → Memory.wf (f x0 x1).mem = true) :
    Memory.wf (Module.commandRun m h op operands f).mem = true := by
  unfold Module.commandRun
  split
  · split
    · split <;> exact hm
    · exact hm
  · split
    · exact Module.command_kept _ _ _ _ _ hm hf
    · split
      · refine Module.command_kept _ _ _ _ _ hm fun c m' h => ?_
        exact ite_kept (Module.startMove_kept _ _ _ hm) (Module.complete_kept _ _ _ _ h)
      · exact hm


theorem Module.admitEnd_kept (m : Module) (c : CmdRef) (status : Nat) (result : Nat) (hm : Memory.wf m.mem = true) :
    Memory.wf (Module.admitEnd m c status result).mem = true := by
  unfold Module.admitEnd
  repeat' (first
    | with_reducible assumption
    | with_reducible first | refine ite_kept ?_ ?_ | refine foldl_kept _ _ ?_ ?_ | refine foldl_kept2 _ _ ?_ ?_ | refine foldl_kept22 _ _ ?_ ?_ | refine foldl_kept222 _ _ ?_ ?_
    | intro _
    | simp (maxDischargeDepth := 99) (maxSteps := 1000000) +contextual only [Module.raiseCtx_kept, Module.complete_kept, ite_kept, *])

end Sys2Proof.Machine
end

