-- ==== Sys2Proof/Laws/Kept/Memory.lean ====
section
/-!
SUPPORT. Every operation of Machine/Memory.lean keeps the canonical form of memory.
-/
namespace Sys2Proof.Machine

theorem Module.putByte_kept (m : Module) (a : Nat) (b : Byte) (hm : Memory.wf m.mem = true) :
    Memory.wf (Module.putByte m a b).mem = true := by
  unfold Module.putByte
  repeat' (first
    | with_reducible assumption
    | with_reducible first | refine ite_kept ?_ ?_ | refine foldl_kept _ _ ?_ ?_ | refine foldl_kept2 _ _ ?_ ?_ | refine foldl_kept22 _ _ ?_ ?_ | refine foldl_kept222 _ _ ?_ ?_
    | intro _
    | simp (maxDischargeDepth := 99) (maxSteps := 1000000) +contextual only [Memory.wf_set, *])

theorem Module.putBytes_kept (m : Module) (a : Nat) (l : List Byte) (hm : Memory.wf m.mem = true) :
    Memory.wf (Module.putBytes m a l).mem = true := by
  induction l generalizing m a with
  | nil => exact hm
  | cons b t ih => exact ih _ _ (Module.putByte_kept _ _ _ hm)

theorem Module.clearBad_kept (m : Module) (a : Nat) (n : Nat) (hm : Memory.wf m.mem = true) :
    Memory.wf (Module.clearBad m a n).mem = true := by
  unfold Module.clearBad
  repeat' (first
    | with_reducible assumption
    | with_reducible first | refine ite_kept ?_ ?_ | refine foldl_kept _ _ ?_ ?_ | refine foldl_kept2 _ _ ?_ ?_ | refine foldl_kept22 _ _ ?_ ?_ | refine foldl_kept222 _ _ ?_ ?_
    | intro _
    | simp (maxDischargeDepth := 99) (maxSteps := 1000000) +contextual only [Module.setFld_kept, *])

theorem Module.spmCorrected_kept (m : Module) (a : Nat) (hm : Memory.wf m.mem = true) :
    Memory.wf (Module.spmCorrected m a).mem = true := by
  unfold Module.spmCorrected
  repeat' (first
    | with_reducible assumption
    | with_reducible first | refine ite_kept ?_ ?_ | refine foldl_kept _ _ ?_ ?_ | refine foldl_kept2 _ _ ?_ ?_ | refine foldl_kept22 _ _ ?_ ?_ | refine foldl_kept222 _ _ ?_ ?_
    | intro _
    | simp (maxDischargeDepth := 99) (maxSteps := 1000000) +contextual only [Module.count_kept, Module.countFault_kept, Module.raise_kept, *])

theorem Module.spmPoison_kept (m : Module) (source : Nat) (a : Nat) (hm : Memory.wf m.mem = true) :
    Memory.wf (Module.spmPoison m source a).mem = true := by
  unfold Module.spmPoison
  repeat' (first
    | with_reducible assumption
    | with_reducible first | refine ite_kept ?_ ?_ | refine foldl_kept _ _ ?_ ?_ | refine foldl_kept2 _ _ ?_ ?_ | refine foldl_kept22 _ _ ?_ ?_ | refine foldl_kept222 _ _ ?_ ?_
    | intro _
    | simp (maxDischargeDepth := 99) (maxSteps := 1000000) +contextual only [Module.count_kept, Module.satAdd_kept, Module.setFld_kept, Module.fault_kept, *])

theorem Module.dramMet_kept (m : Module) (a : Nat) (hm : Memory.wf m.mem = true) :
    Memory.wf (Module.dramMet m a).mem = true := by
  unfold Module.dramMet
  repeat' (first
    | with_reducible assumption
    | with_reducible first | refine ite_kept ?_ ?_ | refine foldl_kept _ _ ?_ ?_ | refine foldl_kept2 _ _ ?_ ?_ | refine foldl_kept22 _ _ ?_ ?_ | refine foldl_kept222 _ _ ?_ ?_
    | intro _
    | simp (maxDischargeDepth := 99) (maxSteps := 1000000) +contextual only [Module.count_kept, Module.wr_kept, Module.setFld_kept, Module.fault_kept, *])

theorem Module.meetErr_kept (m : Module) (source : Nat) (e : MemErr) (hm : Memory.wf m.mem = true) :
    Memory.wf (Module.meetErr m source e).mem = true := by
  unfold Module.meetErr
  repeat' (first
    | with_reducible assumption
    | with_reducible first | refine ite_kept ?_ ?_ | refine foldl_kept _ _ ?_ ?_ | refine foldl_kept2 _ _ ?_ ?_ | refine foldl_kept22 _ _ ?_ ?_ | refine foldl_kept222 _ _ ?_ ?_
    | intro _
    | simp (maxDischargeDepth := 99) (maxSteps := 1000000) +contextual only [Module.spmPoison_kept, Module.spmCorrected_kept, Module.count_kept, Module.countFault_kept, *]
    | with_reducible first | apply Module.spmPoison_kept | apply Module.spmCorrected_kept | apply Module.count_kept | apply Module.countFault_kept
    | split)

theorem Module.upset_kept (m : Module) (errs : List MemErr) (hm : Memory.wf m.mem = true) :
    Memory.wf (Module.upset m errs).mem = true := by
  unfold Module.upset
  repeat' (first
    | with_reducible assumption)

theorem Module.meetWhere_kept (m : Module) (source : Nat) (hit : MemErr → Bool) (hm : Memory.wf m.mem = true) :
    Memory.wf (Module.meetWhere m source hit).mem = true := by
  unfold Module.meetWhere
  repeat' (first
    | with_reducible assumption
    | with_reducible first | refine ite_kept ?_ ?_ | refine foldl_kept _ _ ?_ ?_ | refine foldl_kept2 _ _ ?_ ?_ | refine foldl_kept22 _ _ ?_ ?_ | refine foldl_kept222 _ _ ?_ ?_
    | intro _
    | simp (maxDischargeDepth := 99) (maxSteps := 1000000) +contextual only [Module.meetErr_kept, *])

theorem Module.meet_kept (m : Module) (source : Nat) (spans : List (Nat × Nat)) (hm : Memory.wf m.mem = true) :
    Memory.wf (Module.meet m source spans).mem = true := by
  unfold Module.meet
  repeat' (first
    | with_reducible assumption
    | with_reducible first | refine ite_kept ?_ ?_ | refine foldl_kept _ _ ?_ ?_ | refine foldl_kept2 _ _ ?_ ?_ | refine foldl_kept22 _ _ ?_ ?_ | refine foldl_kept222 _ _ ?_ ?_
    | intro _
    | simp (maxDischargeDepth := 99) (maxSteps := 1000000) +contextual only [Module.meetWhere_kept, *])

theorem Module.meetLines_kept (m : Module) (source : Nat) (spans : List (Nat × Nat)) (hm : Memory.wf m.mem = true) :
    Memory.wf (Module.meetLines m source spans).mem = true := by
  unfold Module.meetLines
  repeat' (first
    | with_reducible assumption
    | with_reducible first | refine ite_kept ?_ ?_ | refine foldl_kept _ _ ?_ ?_ | refine foldl_kept2 _ _ ?_ ?_ | refine foldl_kept22 _ _ ?_ ?_ | refine foldl_kept222 _ _ ?_ ?_
    | intro _
    | simp (maxDischargeDepth := 99) (maxSteps := 1000000) +contextual only [Module.meet_kept, *])

theorem Module.meetLink_kept (m : Module) (a : Nat) (n : Nat) (hm : Memory.wf m.mem = true) :
    Memory.wf (Module.meetLink m a n).mem = true := by
  unfold Module.meetLink
  repeat' (first
    | with_reducible assumption
    | with_reducible first | refine ite_kept ?_ ?_ | refine foldl_kept _ _ ?_ ?_ | refine foldl_kept2 _ _ ?_ ?_ | refine foldl_kept22 _ _ ?_ ?_ | refine foldl_kept222 _ _ ?_ ?_
    | intro _
    | simp (maxDischargeDepth := 99) (maxSteps := 1000000) +contextual only [Module.meetWhere_kept, *])

theorem Module.meetPartly_kept (m : Module) (source : Nat) (a : Nat) (n : Nat) (hm : Memory.wf m.mem = true) :
    Memory.wf (Module.meetPartly m source a n).mem = true := by
  unfold Module.meetPartly
  repeat' (first
    | with_reducible assumption
    | with_reducible first | refine ite_kept ?_ ?_ | refine foldl_kept _ _ ?_ ?_ | refine foldl_kept2 _ _ ?_ ?_ | refine foldl_kept22 _ _ ?_ ?_ | refine foldl_kept222 _ _ ?_ ?_
    | intro _
    | simp (maxDischargeDepth := 99) (maxSteps := 1000000) +contextual only [Module.meet_kept, *])

theorem Module.reportBad_kept (m : Module) (a : Nat) (n : Nat) (hm : Memory.wf m.mem = true) :
    Memory.wf (Module.reportBad m a n).mem = true := by
  unfold Module.reportBad
  repeat' (first
    | with_reducible assumption
    | with_reducible first | refine ite_kept ?_ ?_ | refine foldl_kept _ _ ?_ ?_ | refine foldl_kept2 _ _ ?_ ?_ | refine foldl_kept22 _ _ ?_ ?_ | refine foldl_kept222 _ _ ?_ ?_
    | intro _
    | simp (maxDischargeDepth := 99) (maxSteps := 1000000) +contextual only [Module.dramMet_kept, *])

theorem Module.reportPartly_kept (m : Module) (a : Nat) (n : Nat) (hm : Memory.wf m.mem = true) :
    Memory.wf (Module.reportPartly m a n).mem = true := by
  unfold Module.reportPartly
  repeat' (first
    | with_reducible assumption
    | with_reducible first | refine ite_kept ?_ ?_ | refine foldl_kept _ _ ?_ ?_ | refine foldl_kept2 _ _ ?_ ?_ | refine foldl_kept22 _ _ ?_ ?_ | refine foldl_kept222 _ _ ?_ ?_
    | intro _
    | simp (maxDischargeDepth := 99) (maxSteps := 1000000) +contextual only [Module.dramMet_kept, *])

theorem Module.readBad_kept (m : Module) (a : Nat) (n : Nat) (hm : Memory.wf m.mem = true) :
    Memory.wf (Module.readBad m a n).2.mem = true := by
  unfold Module.readBad
  repeat' (first
    | with_reducible assumption
    | with_reducible first | refine ite_kept ?_ ?_ | refine foldl_kept _ _ ?_ ?_ | refine foldl_kept2 _ _ ?_ ?_ | refine foldl_kept22 _ _ ?_ ?_ | refine foldl_kept222 _ _ ?_ ?_
    | intro _
    | simp (maxDischargeDepth := 99) (maxSteps := 1000000) +contextual only [Module.reportBad_kept, *])

theorem Module.readMeets_kept (m : Module) (source : Nat) (a : Nat) (n : Nat) (hm : Memory.wf m.mem = true) :
    Memory.wf (Module.readMeets m source a n).2.mem = true := by
  unfold Module.readMeets
  repeat' (first
    | with_reducible assumption
    | with_reducible first | refine ite_kept ?_ ?_ | refine foldl_kept _ _ ?_ ?_ | refine foldl_kept2 _ _ ?_ ?_ | refine foldl_kept22 _ _ ?_ ?_ | refine foldl_kept222 _ _ ?_ ?_
    | intro _
    | simp (maxDischargeDepth := 99) (maxSteps := 1000000) +contextual only [Module.meetLines_kept, Module.readBad_kept, *])

theorem Module.reportGather_kept (m : Module) (s : Nat) (hm : Memory.wf m.mem = true) :
    Memory.wf (Module.reportGather m s).mem = true := by
  unfold Module.reportGather
  repeat' (first
    | with_reducible assumption
    | with_reducible first | refine ite_kept ?_ ?_ | refine foldl_kept _ _ ?_ ?_ | refine foldl_kept2 _ _ ?_ ?_ | refine foldl_kept22 _ _ ?_ ?_ | refine foldl_kept222 _ _ ?_ ?_
    | intro _
    | simp (maxDischargeDepth := 99) (maxSteps := 1000000) +contextual only [Module.setFld_kept, *])

theorem Module.putSome_kept (m : Module) (a : Nat) (l : List (Option Byte)) (bad : List Nat) (hm : Memory.wf m.mem = true) :
    Memory.wf (Module.putSome m a l bad).mem = true := by
  induction l generalizing m a with
  | nil => exact hm
  | cons o t ih =>
    cases o with
    | none => exact ih _ _ hm
    | some b =>
      simp only [Module.putSome]
      split
      · exact ih _ _ hm
      · exact ih _ _ (Module.putByte_kept _ _ _ hm)

theorem Module.flushLine_kept (m : Module) (line : Nat) (hm : Memory.wf m.mem = true) :
    Memory.wf (Module.flushLine m line).mem = true := by
  unfold Module.flushLine
  repeat' (first
    | with_reducible assumption
    | with_reducible first | refine ite_kept ?_ ?_ | refine foldl_kept _ _ ?_ ?_ | refine foldl_kept2 _ _ ?_ ?_ | refine foldl_kept22 _ _ ?_ ?_ | refine foldl_kept222 _ _ ?_ ?_
    | intro _
    | simp (maxDischargeDepth := 99) (maxSteps := 1000000) +contextual only [Module.clearBad_kept, Module.meet_kept, Module.putSome_kept, Module.reportGather_kept, implies_true, ite_kept, foldl_kept, *]
    | with_reducible first | apply Module.clearBad_kept | apply Module.meet_kept | apply Module.putSome_kept | apply Module.reportGather_kept
    | split)

theorem Module.flushSpan_kept (m : Module) (a : Nat) (n : Nat) (hm : Memory.wf m.mem = true) :
    Memory.wf (Module.flushSpan m a n).mem = true := by
  unfold Module.flushSpan
  repeat' (first
    | with_reducible assumption
    | with_reducible first | refine ite_kept ?_ ?_ | refine foldl_kept _ _ ?_ ?_ | refine foldl_kept2 _ _ ?_ ?_ | refine foldl_kept22 _ _ ?_ ?_ | refine foldl_kept222 _ _ ?_ ?_
    | intro _
    | simp (maxDischargeDepth := 99) (maxSteps := 1000000) +contextual only [Module.flushLine_kept, *])

theorem Module.write_kept (m : Module) (a : Nat) (l : List Byte) (hm : Memory.wf m.mem = true) :
    Memory.wf (Module.write m a l).mem = true := by
  unfold Module.write
  repeat' (first
    | with_reducible assumption
    | with_reducible first | refine ite_kept ?_ ?_ | refine foldl_kept _ _ ?_ ?_ | refine foldl_kept2 _ _ ?_ ?_ | refine foldl_kept22 _ _ ?_ ?_ | refine foldl_kept222 _ _ ?_ ?_
    | intro _
    | simp (maxDischargeDepth := 99) (maxSteps := 1000000) +contextual only [Module.flushSpan_kept, Module.meetLink_kept, Module.meetPartly_kept, Module.reportPartly_kept, Module.clearBad_kept, Module.putSome_kept, *])

theorem Module.zero_kept (m : Module) (a : Nat) (n : Nat) (hm : Memory.wf m.mem = true) :
    Memory.wf (Module.zero m a n).mem = true := by
  unfold Module.zero
  repeat' (first
    | with_reducible assumption
    | with_reducible first | refine ite_kept ?_ ?_ | refine foldl_kept _ _ ?_ ?_ | refine foldl_kept2 _ _ ?_ ?_ | refine foldl_kept22 _ _ ?_ ?_ | refine foldl_kept222 _ _ ?_ ?_
    | intro _
    | simp (maxDischargeDepth := 99) (maxSteps := 1000000) +contextual only [Module.flushSpan_kept, Module.clearBad_kept, Memory.wf_filter, *])

theorem Module.zeroStack_kept (m : Module) (s : Nat) (hm : Memory.wf m.mem = true) :
    Memory.wf (Module.zeroStack m s).mem = true := by
  unfold Module.zeroStack
  repeat' (first
    | with_reducible assumption
    | with_reducible first | refine ite_kept ?_ ?_ | refine foldl_kept _ _ ?_ ?_ | refine foldl_kept2 _ _ ?_ ?_ | refine foldl_kept22 _ _ ?_ ?_ | refine foldl_kept222 _ _ ?_ ?_
    | intro _
    | simp (maxDischargeDepth := 99) (maxSteps := 1000000) +contextual only [Memory.wf_filter, *])

theorem Module.narrowLine_kept (m : Module) (a : Nat) (l : List Byte) (hm : Memory.wf m.mem = true) :
    Memory.wf (Module.narrowLine m a l).mem = true := by
  unfold Module.narrowLine
  repeat' (first
    | with_reducible assumption
    | with_reducible first | refine ite_kept ?_ ?_ | refine foldl_kept _ _ ?_ ?_ | refine foldl_kept2 _ _ ?_ ?_ | refine foldl_kept22 _ _ ?_ ?_ | refine foldl_kept222 _ _ ?_ ?_
    | intro _
    | simp (maxDischargeDepth := 99) (maxSteps := 1000000) +contextual only [Module.flushLine_kept, *]
    | with_reducible first | apply Module.flushLine_kept | apply Module.reportGather_kept
    | split)

theorem Module.spmWriteGo_kept (fuel : Nat) (m : Module) (a : Nat) (l : List Byte) (hm : Memory.wf m.mem = true) :
    Memory.wf (Module.spmWriteGo fuel m a l).mem = true := by
  induction fuel generalizing m a l with
  | zero => exact hm
  | succ k ih =>
    simp only [Module.spmWriteGo]
    split
    · exact hm
    · split
      · exact ih _ _ _ (Module.write_kept _ _ _ hm)
      · exact ih _ _ _ (Module.narrowLine_kept _ _ _ hm)

theorem Module.store_kept (m : Module) (a : Nat) (l : List Byte) (hm : Memory.wf m.mem = true) :
    Memory.wf (Module.store m a l).mem = true := by
  unfold Module.store
  repeat' (first
    | with_reducible assumption
    | with_reducible first | refine ite_kept ?_ ?_ | refine foldl_kept _ _ ?_ ?_ | refine foldl_kept2 _ _ ?_ ?_ | refine foldl_kept22 _ _ ?_ ?_ | refine foldl_kept222 _ _ ?_ ?_
    | intro _
    | simp (maxDischargeDepth := 99) (maxSteps := 1000000) +contextual only [Module.spmWriteGo_kept, Module.write_kept, *])

theorem Module.place_kept (m : Module) (gaps : List (Nat × Nat)) (n : Nat) (hm : Memory.wf m.mem = true) :
    Memory.wf (Module.place m gaps n).2.mem = true := by
  unfold Module.place
  repeat' (first
    | with_reducible assumption
    | with_reducible first | refine ite_kept ?_ ?_ | refine foldl_kept _ _ ?_ ?_ | refine foldl_kept2 _ _ ?_ ?_ | refine foldl_kept22 _ _ ?_ ?_ | refine foldl_kept222 _ _ ?_ ?_
    | intro _
    | simp (maxDischargeDepth := 99) (maxSteps := 1000000) +contextual only [Module.pick_kept, *]
    | with_reducible apply Module.pick_kept
    | split)

theorem Module.reportRegions_kept (m : Module) (hm : Memory.wf m.mem = true) :
    Memory.wf (Module.reportRegions m).mem = true := by
  unfold Module.reportRegions
  repeat' (first
    | with_reducible assumption
    | with_reducible first | refine ite_kept ?_ ?_ | refine foldl_kept _ _ ?_ ?_ | refine foldl_kept2 _ _ ?_ ?_ | refine foldl_kept22 _ _ ?_ ?_ | refine foldl_kept222 _ _ ?_ ?_
    | intro _
    | simp (maxDischargeDepth := 99) (maxSteps := 1000000) +contextual only [Module.setFld_kept, implies_true, foldl_kept, *])

theorem Module.zoneSpan_kept (m : Module) (base : Nat) (size : Nat) (spread : Bool) (hm : Memory.wf m.mem = true) :
    Memory.wf (Module.zoneSpan m base size spread).mem = true := by
  unfold Module.zoneSpan
  repeat' (first
    | with_reducible assumption
    | with_reducible first | refine ite_kept ?_ ?_ | refine foldl_kept _ _ ?_ ?_ | refine foldl_kept2 _ _ ?_ ?_ | refine foldl_kept22 _ _ ?_ ?_ | refine foldl_kept222 _ _ ?_ ?_
    | intro _
    | simp (maxDischargeDepth := 99) (maxSteps := 1000000) +contextual only [Module.setFld_kept, *])

theorem Module.freeFrom_kept {α : Type} (m : Module) (t : SMap α) (lo : Nat) (n : Nat) (hm : Memory.wf m.mem = true) :
    Memory.wf (Module.freeFrom m t lo n).2.mem = true := by
  unfold Module.freeFrom
  repeat' (first
    | with_reducible assumption
    | with_reducible first | refine ite_kept ?_ ?_ | refine foldl_kept _ _ ?_ ?_ | refine foldl_kept2 _ _ ?_ ?_ | refine foldl_kept22 _ _ ?_ ?_ | refine foldl_kept222 _ _ ?_ ?_
    | intro _
    | simp (maxDischargeDepth := 99) (maxSteps := 1000000) +contextual only [Module.pick_kept, *]
    | with_reducible apply Module.pick_kept
    | split)

theorem Module.enterRegion_kept (m : Module) (dram : Bool) (base : Nat) (size : Nat) (spread : Bool) (hm : Memory.wf m.mem = true) :
    Memory.wf (Module.enterRegion m dram base size spread).2.mem = true := by
  unfold Module.enterRegion
  simp only
  split <;>
  · next heq =>
    have hq := congrArg Prod.snd heq
    simp only at hq
    subst hq
    simp (maxDischargeDepth := 99) only [Module.zero_kept, Module.zoneSpan_kept, Module.reportRegions_kept,
      Module.freeFrom_kept, ite_kept, hm]

end Sys2Proof.Machine
end

