-- ==== Sys2Proof/Laws/Kept/Sync.lean ====
section
/-!
SUPPORT. Every operation of Machine/Sync.lean keeps the canonical form of memory.
-/
namespace Sys2Proof.Machine

theorem syncUpdate_kept (obj : W16) (f : Word → Word) (c : CmdRef) (m : Module) (hm : Memory.wf m.mem = true) :
    Memory.wf (syncUpdate obj f c m).mem = true := by
  unfold syncUpdate
  repeat' (first
    | with_reducible assumption
    | with_reducible first | refine ite_kept ?_ ?_ | refine foldl_kept _ _ ?_ ?_ | refine foldl_kept2 _ _ ?_ ?_ | refine foldl_kept22 _ _ ?_ ?_ | refine foldl_kept222 _ _ ?_ ?_
    | intro _
    | simp (maxDischargeDepth := 99) (maxSteps := 1000000) +contextual only [Module.complete_kept, Module.count_kept, Module.setSync_kept, *])

theorem syncOpSignal_kept (h : CmdHdr) (obj : W16) (m : Module) (hm : Memory.wf m.mem = true) :
    Memory.wf (syncOpSignal h obj m).mem = true := by
  unfold syncOpSignal
  repeat' (first
    | with_reducible assumption
    | with_reducible first | refine ite_kept ?_ ?_ | refine foldl_kept _ _ ?_ ?_ | refine foldl_kept2 _ _ ?_ ?_ | refine foldl_kept22 _ _ ?_ ?_ | refine foldl_kept222 _ _ ?_ ?_
    | intro _
    | with_reducible apply Module.command_kept
    | simp (maxDischargeDepth := 99) (maxSteps := 1000000) +contextual only [syncUpdate_kept, *])

theorem syncOpAdd_kept (h : CmdHdr) (obj : W16) (value : Word) (m : Module) (hm : Memory.wf m.mem = true) :
    Memory.wf (syncOpAdd h obj value m).mem = true := by
  unfold syncOpAdd
  repeat' (first
    | with_reducible assumption
    | with_reducible first | refine ite_kept ?_ ?_ | refine foldl_kept _ _ ?_ ?_ | refine foldl_kept2 _ _ ?_ ?_ | refine foldl_kept22 _ _ ?_ ?_ | refine foldl_kept222 _ _ ?_ ?_
    | intro _
    | with_reducible apply Module.command_kept
    | simp (maxDischargeDepth := 99) (maxSteps := 1000000) +contextual only [syncUpdate_kept, *])

theorem syncOpReset_kept (h : CmdHdr) (obj : W16) (value : Word) (m : Module) (hm : Memory.wf m.mem = true) :
    Memory.wf (syncOpReset h obj value m).mem = true := by
  unfold syncOpReset
  repeat' (first
    | with_reducible assumption
    | with_reducible first | refine ite_kept ?_ ?_ | refine foldl_kept _ _ ?_ ?_ | refine foldl_kept2 _ _ ?_ ?_ | refine foldl_kept22 _ _ ?_ ?_ | refine foldl_kept222 _ _ ?_ ?_
    | intro _
    | with_reducible apply Module.command_kept
    | simp (maxDischargeDepth := 99) (maxSteps := 1000000) +contextual only [syncUpdate_kept, *])

theorem Module.setWaits_kept (m : Module) (l : List HostWait) (hm : Memory.wf m.mem = true) :
    Memory.wf (Module.setWaits m l).mem = true := by
  unfold Module.setWaits
  repeat' (first
    | with_reducible assumption
    | with_reducible first | refine ite_kept ?_ ?_ | refine foldl_kept _ _ ?_ ?_ | refine foldl_kept2 _ _ ?_ ?_ | refine foldl_kept22 _ _ ?_ ?_ | refine foldl_kept222 _ _ ?_ ?_
    | intro _
    | simp (maxDischargeDepth := 99) (maxSteps := 1000000) +contextual only [Module.setFld_kept, *])

theorem syncWaitStart_kept (obj : W16) (threshold : Word) (timeout : Word) (c : CmdRef) (m : Module) (hm : Memory.wf m.mem = true) :
    Memory.wf (syncWaitStart obj threshold timeout c m).mem = true := by
  unfold syncWaitStart
  repeat' (first
    | with_reducible assumption
    | with_reducible first | refine ite_kept ?_ ?_ | refine foldl_kept _ _ ?_ ?_ | refine foldl_kept2 _ _ ?_ ?_ | refine foldl_kept22 _ _ ?_ ?_ | refine foldl_kept222 _ _ ?_ ?_
    | intro _
    | simp (maxDischargeDepth := 99) (maxSteps := 1000000) +contextual only [Module.complete_kept, Module.setWaits_kept, *])

theorem syncOpWait_kept (h : CmdHdr) (obj : W16) (threshold : Word) (timeout : Word) (m : Module) (hm : Memory.wf m.mem = true) :
    Memory.wf (syncOpWait h obj threshold timeout m).mem = true := by
  unfold syncOpWait
  repeat' (first
    | with_reducible assumption
    | with_reducible first | refine ite_kept ?_ ?_ | refine foldl_kept _ _ ?_ ?_ | refine foldl_kept2 _ _ ?_ ?_ | refine foldl_kept22 _ _ ?_ ?_ | refine foldl_kept222 _ _ ?_ ?_
    | intro _
    | with_reducible apply Module.command_kept
    | simp (maxDischargeDepth := 99) (maxSteps := 1000000) +contextual only [syncWaitStart_kept, *])

theorem syncWaitMet_kept (session : Fin 256) (tag : Word) (m : Module) (hm : Memory.wf m.mem = true) :
    Memory.wf (syncWaitMet session tag m).mem = true := by
  unfold syncWaitMet
  repeat' (first
    | with_reducible assumption
    | with_reducible first | refine ite_kept ?_ ?_ | refine foldl_kept _ _ ?_ ?_ | refine foldl_kept2 _ _ ?_ ?_ | refine foldl_kept22 _ _ ?_ ?_ | refine foldl_kept222 _ _ ?_ ?_
    | intro _
    | simp (maxDischargeDepth := 99) (maxSteps := 1000000) +contextual only [Module.setWaits_kept, Module.complete_kept, *]
    | with_reducible first | apply Module.setWaits_kept | apply Module.complete_kept
    | split)

theorem syncWaitTimeout_kept (session : Fin 256) (tag : Word) (m : Module) (hm : Memory.wf m.mem = true) :
    Memory.wf (syncWaitTimeout session tag m).mem = true := by
  unfold syncWaitTimeout
  repeat' (first
    | with_reducible assumption
    | with_reducible first | refine ite_kept ?_ ?_ | refine foldl_kept _ _ ?_ ?_ | refine foldl_kept2 _ _ ?_ ?_ | refine foldl_kept22 _ _ ?_ ?_ | refine foldl_kept222 _ _ ?_ ?_
    | intro _
    | simp (maxDischargeDepth := 99) (maxSteps := 1000000) +contextual only [Module.setWaits_kept, Module.count_kept, Module.complete_kept, *]
    | with_reducible first | apply Module.setWaits_kept | apply Module.count_kept | apply Module.complete_kept
    | split)

end Sys2Proof.Machine
end

