-- ==== Sys2Proof/Laws/Kept/Spm.lean ====
section
/-!
SUPPORT. Every operation of Machine/Spm.lean keeps the canonical form of memory.
-/
namespace Sys2Proof.Machine

theorem allocStart_kept (memory : Byte) (kind : Byte) (stack : Byte) (size : W64) (c : CmdRef) (m : Module) (hm : Memory.wf m.mem = true) :
    Memory.wf (allocStart memory kind stack size c m).mem = true := by
  unfold allocStart
  simp only
  split
  · exact Module.complete_kept _ _ _ _ hm
  · split
    · exact Module.complete_kept _ _ _ _ hm
    · split
      · next heq =>
        have hq := congrArg Prod.snd heq
        simp only at hq
        subst hq
        exact Module.complete_kept _ _ _ _ (Module.place_kept _ _ _ hm)
      · next heq =>
        have hq := congrArg Prod.snd heq
        simp only at hq
        subst hq
        split <;>
        · next heq =>
          have hq := congrArg Prod.snd heq
          simp only at hq
          subst hq
          exact Module.complete_kept _ _ _ _ (Module.enterRegion_kept _ _ _ _ _ (Module.place_kept _ _ _ hm))

theorem allocCmd_kept (h : CmdHdr) (memory : Byte) (kind : Byte) (stack : Byte) (size : W64) (m : Module) (hm : Memory.wf m.mem = true) :
    Memory.wf (allocCmd h memory kind stack size m).mem = true := by
  unfold allocCmd
  repeat' (first
    | with_reducible assumption
    | with_reducible first | refine ite_kept ?_ ?_ | refine foldl_kept _ _ ?_ ?_ | refine foldl_kept2 _ _ ?_ ?_ | refine foldl_kept22 _ _ ?_ ?_ | refine foldl_kept222 _ _ ?_ ?_
    | intro _
    | with_reducible apply Module.commandRun_kept
    | with_reducible apply Module.command_kept
    | simp (maxDischargeDepth := 99) (maxSteps := 1000000) +contextual only [allocStart_kept, *])

theorem Module.setFills_kept (m : Module) (s : Nat) (l : List FillCmd) (hm : Memory.wf m.mem = true) :
    Memory.wf (Module.setFills m s l).mem = true := by
  unfold Module.setFills
  repeat' (first
    | with_reducible assumption)

theorem fillStart_kept (copy : Bool) (dst : Word) (src : Word) (dstOff : W64) (len : W64) (pattern : W64) (waitObj : W16) (sigObj : W16) (waitThr : Word) (check : Nat) (c : CmdRef) (m : Module) (hm : Memory.wf m.mem = true) :
    Memory.wf (fillStart copy dst src dstOff len pattern waitObj sigObj waitThr check c m).mem = true := by
  unfold fillStart
  repeat' (first
    | with_reducible assumption
    | with_reducible first | refine ite_kept ?_ ?_ | refine foldl_kept _ _ ?_ ?_ | refine foldl_kept2 _ _ ?_ ?_ | refine foldl_kept22 _ _ ?_ ?_ | refine foldl_kept222 _ _ ?_ ?_
    | intro _
    | simp (maxDischargeDepth := 99) (maxSteps := 1000000) +contextual only [Module.complete_kept, Module.guestAdd_kept, Module.setFills_kept, ite_kept, *]
    | with_reducible first | apply Module.complete_kept | apply Module.guestAdd_kept | apply Module.setFills_kept
    | split)

theorem Module.fillCommand_kept (m : Module) (h : CmdHdr) (op : Nat) (operands : List Byte → Bool) (f : Nat → CmdRef → Module → Module) (hm : Memory.wf m.mem = true) (hf : ∀ (x0 : Nat) (x1 : CmdRef) (x2 : Module), Memory.wf x2.mem = true → Memory.wf (f x0 x1 x2).mem = true) :
    Memory.wf (Module.fillCommand m h op operands f).mem = true := by
  unfold Module.fillCommand
  repeat' (first
    | with_reducible assumption
    | with_reducible first | refine ite_kept ?_ ?_ | refine foldl_kept _ _ ?_ ?_ | refine foldl_kept2 _ _ ?_ ?_ | refine foldl_kept22 _ _ ?_ ?_ | refine foldl_kept222 _ _ ?_ ?_
    | intro _
    | with_reducible apply Module.commandRun_kept
    | simp (maxDischargeDepth := 99) (maxSteps := 1000000) +contextual only [*]
    | with_reducible apply Module.commandRun_kept
    | split)

theorem fillCmd_kept (h : CmdHdr) (dst : Word) (dstOff : W64) (len : W64) (pattern : W64) (waitObj : W16) (sigObj : W16) (waitThr : Word) (waitTimeout : Word) (m : Module) (hm : Memory.wf m.mem = true) :
    Memory.wf (fillCmd h dst dstOff len pattern waitObj sigObj waitThr waitTimeout m).mem = true := by
  unfold fillCmd
  repeat' (first
    | with_reducible assumption
    | with_reducible first | refine ite_kept ?_ ?_ | refine foldl_kept _ _ ?_ ?_ | refine foldl_kept2 _ _ ?_ ?_ | refine foldl_kept22 _ _ ?_ ?_ | refine foldl_kept222 _ _ ?_ ?_
    | intro _
    | with_reducible apply Module.fillCommand_kept
    | simp (maxDischargeDepth := 99) (maxSteps := 1000000) +contextual only [fillStart_kept, *])

theorem copyCmd_kept (h : CmdHdr) (dst : Word) (src : Word) (dstOff : W64) (len : W64) (srcOff : W64) (waitObj : W16) (sigObj : W16) (waitThr : Word) (waitTimeout : Word) (m : Module) (hm : Memory.wf m.mem = true) :
    Memory.wf (copyCmd h dst src dstOff len srcOff waitObj sigObj waitThr waitTimeout m).mem = true := by
  unfold copyCmd
  repeat' (first
    | with_reducible assumption
    | with_reducible first | refine ite_kept ?_ ?_ | refine foldl_kept _ _ ?_ ?_ | refine foldl_kept2 _ _ ?_ ?_ | refine foldl_kept22 _ _ ?_ ?_ | refine foldl_kept222 _ _ ?_ ?_
    | intro _
    | with_reducible apply Module.fillCommand_kept
    | simp (maxDischargeDepth := 99) (maxSteps := 1000000) +contextual only [fillStart_kept, *])

theorem Module.fillWrite_kept (m : Module) (f : FillCmd) (hm : Memory.wf m.mem = true) :
    Memory.wf (Module.fillWrite m f).2.mem = true := by
  unfold Module.fillWrite
  repeat' (first
    | with_reducible assumption
    | with_reducible first | refine ite_kept ?_ ?_ | refine foldl_kept _ _ ?_ ?_ | refine foldl_kept2 _ _ ?_ ?_ | refine foldl_kept22 _ _ ?_ ?_ | refine foldl_kept222 _ _ ?_ ?_
    | intro _
    | simp (maxDischargeDepth := 99) (maxSteps := 1000000) +contextual only [Module.meet_kept, Module.write_kept, *]
    | with_reducible first | apply Module.meet_kept | apply Module.write_kept
    | split)

theorem fillCopyWriteStart_kept (s : Fin 8) (m : Module) (hm : Memory.wf m.mem = true) :
    Memory.wf (fillCopyWriteStart s m).mem = true := by
  unfold fillCopyWriteStart
  repeat' (first
    | with_reducible assumption
    | with_reducible first | refine ite_kept ?_ ?_ | refine foldl_kept _ _ ?_ ?_ | refine foldl_kept2 _ _ ?_ ?_ | refine foldl_kept22 _ _ ?_ ?_ | refine foldl_kept222 _ _ ?_ ?_
    | intro _
    | simp (maxDischargeDepth := 99) (maxSteps := 1000000) +contextual only [Module.fillWrite_kept, Module.setFills_kept, *]
    | with_reducible first | apply Module.fillWrite_kept | apply Module.setFills_kept
    | split)

theorem Module.endFill_kept (m : Module) (s : Nat) (f : FillCmd) (rest : List FillCmd) (status : Nat) (hm : Memory.wf m.mem = true) :
    Memory.wf (Module.endFill m s f rest status).mem = true := by
  unfold Module.endFill
  repeat' (first
    | with_reducible assumption
    | with_reducible first | refine ite_kept ?_ ?_ | refine foldl_kept _ _ ?_ ?_ | refine foldl_kept2 _ _ ?_ ?_ | refine foldl_kept22 _ _ ?_ ?_ | refine foldl_kept222 _ _ ?_ ?_
    | intro _
    | simp (maxDischargeDepth := 99) (maxSteps := 1000000) +contextual only [Module.setFills_kept, Module.complete_kept, *])

theorem fillCopyWaitTimeout_kept (s : Fin 8) (m : Module) (hm : Memory.wf m.mem = true) :
    Memory.wf (fillCopyWaitTimeout s m).mem = true := by
  unfold fillCopyWaitTimeout
  repeat' (first
    | with_reducible assumption
    | with_reducible first | refine ite_kept ?_ ?_ | refine foldl_kept _ _ ?_ ?_ | refine foldl_kept2 _ _ ?_ ?_ | refine foldl_kept22 _ _ ?_ ?_ | refine foldl_kept222 _ _ ?_ ?_
    | intro _
    | simp (maxDischargeDepth := 99) (maxSteps := 1000000) +contextual only [Module.count_kept, Module.endFill_kept, *]
    | with_reducible first | apply Module.count_kept | apply Module.endFill_kept
    | split)

theorem fillCopyDone_kept (s : Fin 8) (m : Module) (hm : Memory.wf m.mem = true) :
    Memory.wf (fillCopyDone s m).mem = true := by
  unfold fillCopyDone
  repeat' (first
    | with_reducible assumption
    | with_reducible first | refine ite_kept ?_ ?_ | refine foldl_kept _ _ ?_ ?_ | refine foldl_kept2 _ _ ?_ ?_ | refine foldl_kept22 _ _ ?_ ?_ | refine foldl_kept222 _ _ ?_ ?_
    | intro _
    | simp (maxDischargeDepth := 99) (maxSteps := 1000000) +contextual only [Module.lostCycles_kept, Module.guestAdd_kept, Module.endFill_kept, ite_kept, *]
    | with_reducible first | apply Module.lostCycles_kept | apply Module.guestAdd_kept | apply Module.endFill_kept
    | split)

theorem narrowWrite_kept (addr : Nat) (l : List Byte) (m : Module) (hm : Memory.wf m.mem = true) :
    Memory.wf (narrowWrite addr l m).mem = true := by
  unfold narrowWrite
  repeat' (first
    | with_reducible assumption
    | with_reducible first | refine ite_kept ?_ ?_ | refine foldl_kept _ _ ?_ ?_ | refine foldl_kept2 _ _ ?_ ?_ | refine foldl_kept22 _ _ ?_ ?_ | refine foldl_kept222 _ _ ?_ ?_
    | intro _
    | simp (maxDischargeDepth := 99) (maxSteps := 1000000) +contextual only [Module.store_kept, *])

theorem gatherIdleFlush_kept (line : Nat) (m : Module) (hm : Memory.wf m.mem = true) :
    Memory.wf (gatherIdleFlush line m).mem = true := by
  unfold gatherIdleFlush
  repeat' (first
    | with_reducible assumption
    | with_reducible first | refine ite_kept ?_ ?_ | refine foldl_kept _ _ ?_ ?_ | refine foldl_kept2 _ _ ?_ ?_ | refine foldl_kept22 _ _ ?_ ?_ | refine foldl_kept222 _ _ ?_ ?_
    | intro _
    | simp (maxDischargeDepth := 99) (maxSteps := 1000000) +contextual only [Module.flushLine_kept, *])

theorem scrubVisit_kept (s : Fin 8) (errs : List MemErr) (m : Module) (hm : Memory.wf m.mem = true) :
    Memory.wf (scrubVisit s errs m).mem = true := by
  unfold scrubVisit
  repeat' (first
    | with_reducible assumption
    | with_reducible first | refine ite_kept ?_ ?_ | refine foldl_kept _ _ ?_ ?_ | refine foldl_kept2 _ _ ?_ ?_ | refine foldl_kept22 _ _ ?_ ?_ | refine foldl_kept222 _ _ ?_ ?_
    | intro _
    | simp (maxDischargeDepth := 99) (maxSteps := 1000000) +contextual only [Module.upset_kept, Module.meetWhere_kept, Module.satAdd_kept, Module.setFld_kept, ite_kept, *])

end Sys2Proof.Machine
end

