-- ==== Sys2Proof/Laws/Kept/Window.lean ====
section
/-!
SUPPORT. Every operation of Machine/Window.lean keeps the canonical form of memory.
-/
namespace Sys2Proof.Machine

theorem Module.setNetPort_kept (m : Module) (p : Nat) (x : NetPort) (hm : Memory.wf m.mem = true) :
    Memory.wf (Module.setNetPort m p x).mem = true := by
  unfold Module.setNetPort
  repeat' (first
    | with_reducible assumption)

theorem Module.txQueue_kept (m : Module) (c : PortId) (l : List (Fin 2 × Out)) (hm : Memory.wf m.mem = true) :
    Memory.wf (Module.txQueue m c l).mem = true := by
  unfold Module.txQueue
  repeat' (first
    | with_reducible assumption
    | with_reducible first | refine ite_kept ?_ ?_ | refine foldl_kept _ _ ?_ ?_ | refine foldl_kept2 _ _ ?_ ?_ | refine foldl_kept22 _ _ ?_ ?_ | refine foldl_kept222 _ _ ?_ ?_
    | intro _
    | simp (maxDischargeDepth := 99) (maxSteps := 1000000) +contextual only [Module.setNetPort_kept, *])

theorem Module.winHand_kept (m : Module) (use : WinUse) (port : Fin 2) (dest : Peer) (replicate : Bool) (tclass : Nat) (x : Msg) (hm : Memory.wf m.mem = true) :
    Memory.wf (Module.winHand m use port dest replicate tclass x).mem = true := by
  unfold Module.winHand
  repeat' (first
    | with_reducible assumption
    | with_reducible first | refine ite_kept ?_ ?_ | refine foldl_kept _ _ ?_ ?_ | refine foldl_kept2 _ _ ?_ ?_ | refine foldl_kept22 _ _ ?_ ?_ | refine foldl_kept222 _ _ ?_ ?_
    | intro _
    | simp (maxDischargeDepth := 99) (maxSteps := 1000000) +contextual only [Module.originate_kept, Module.frames_kept, Module.txQueue_kept, *]
    | with_reducible first | apply Module.originate_kept | apply Module.frames_kept | apply Module.txQueue_kept
    | split)

theorem Module.winSend_kept (m : Module) (w : Fin 64) (b : Binding) (r : Receiver) (type : Nat) (off : Nat) (len : Nat) (payload : List Byte) (use : WinUse) (hm : Memory.wf m.mem = true) :
    Memory.wf (Module.winSend m w b r type off len payload use).mem = true := by
  unfold Module.winSend
  repeat' (first
    | with_reducible assumption
    | with_reducible first | refine ite_kept ?_ ?_ | refine foldl_kept _ _ ?_ ?_ | refine foldl_kept2 _ _ ?_ ?_ | refine foldl_kept22 _ _ ?_ ?_ | refine foldl_kept222 _ _ ?_ ?_
    | intro _
    | simp (maxDischargeDepth := 99) (maxSteps := 1000000) +contextual only [Module.winHand_kept, *])

theorem Module.winWriteTo_kept (m : Module) (w : Fin 64) (off : Nat) (data : List Byte) (arrive : Bool) (use : WinUse) (hm : Memory.wf m.mem = true) :
    Memory.wf (Module.winWriteTo m w off data arrive use).mem = true := by
  unfold Module.winWriteTo
  repeat' (first
    | with_reducible assumption
    | with_reducible first | refine ite_kept ?_ ?_ | refine foldl_kept _ _ ?_ ?_ | refine foldl_kept2 _ _ ?_ ?_ | refine foldl_kept22 _ _ ?_ ?_ | refine foldl_kept222 _ _ ?_ ?_
    | intro _
    | simp (maxDischargeDepth := 99) (maxSteps := 1000000) +contextual only [Module.winSend_kept, *]
    | with_reducible first | apply Module.winSend_kept | apply Module.write_kept
    | split)

theorem Module.winReadFrom_kept (m : Module) (w : Fin 64) (off : Nat) (len : Nat) (use : WinUse) (hm : Memory.wf m.mem = true) :
    Memory.wf (Module.winReadFrom m w off len use).mem = true := by
  unfold Module.winReadFrom
  repeat' (first
    | with_reducible assumption
    | with_reducible first | refine ite_kept ?_ ?_ | refine foldl_kept _ _ ?_ ?_ | refine foldl_kept2 _ _ ?_ ?_ | refine foldl_kept22 _ _ ?_ ?_ | refine foldl_kept222 _ _ ?_ ?_
    | intro _
    | simp (maxDischargeDepth := 99) (maxSteps := 1000000) +contextual only [Module.winSend_kept, *]
    | with_reducible apply Module.winSend_kept
    | split)

theorem Module.askWindow_kept (m : Module) (w : Fin 64) (off : Nat) (len : Nat) (answered : Bool) (hm : Memory.wf m.mem = true) :
    Memory.wf (Module.askWindow m w off len answered).mem = true := by
  unfold Module.askWindow
  repeat' (first
    | with_reducible assumption
    | with_reducible first | refine ite_kept ?_ ?_ | refine foldl_kept _ _ ?_ ?_ | refine foldl_kept2 _ _ ?_ ?_ | refine foldl_kept22 _ _ ?_ ?_ | refine foldl_kept222 _ _ ?_ ?_
    | intro _
    | simp (maxDischargeDepth := 99) (maxSteps := 1000000) +contextual only [Module.request_kept, *]
    | with_reducible apply Module.request_kept
    | split)

theorem Module.winDrop_kept (m : Module) (x : WinOut) (hm : Memory.wf m.mem = true) :
    Memory.wf (Module.winDrop m x).mem = true := by
  unfold Module.winDrop
  repeat' (first
    | with_reducible assumption
    | with_reducible first | refine ite_kept ?_ ?_ | refine foldl_kept _ _ ?_ ?_ | refine foldl_kept2 _ _ ?_ ?_ | refine foldl_kept22 _ _ ?_ ?_ | refine foldl_kept222 _ _ ?_ ?_
    | intro _
    | simp (maxDischargeDepth := 99) (maxSteps := 1000000) +contextual only [*]
    | split)

end Sys2Proof.Machine
end

