-- ==== Sys2Proof/Laws/Kept/Dma.lean ====
section
/-!
SUPPORT. Every operation of Machine/Dma.lean keeps the canonical form of memory.
-/
namespace Sys2Proof.Machine

theorem Module.setChan_kept (m : Module) (ch : Nat) (c : DmaCh) (hm : Memory.wf m.mem = true) :
    Memory.wf (Module.setChan m ch c).mem = true := by
  unfold Module.setChan
  repeat' (first
    | with_reducible assumption
    | with_reducible first | refine ite_kept ?_ ?_ | refine foldl_kept _ _ ?_ ?_ | refine foldl_kept2 _ _ ?_ ?_ | refine foldl_kept22 _ _ ?_ ?_ | refine foldl_kept222 _ _ ?_ ?_
    | intro _
    | simp (maxDischargeDepth := 99) (maxSteps := 1000000) +contextual only [Module.setFld_kept, *])

theorem Module.wrAddr_kept (m : Module) (lo : Nat) (hi : Nat) (a : Nat) (hm : Memory.wf m.mem = true) :
    Memory.wf (Module.wrAddr m lo hi a).mem = true := by
  unfold Module.wrAddr
  repeat' (first
    | with_reducible assumption
    | with_reducible first | refine ite_kept ?_ ?_ | refine foldl_kept _ _ ?_ ?_ | refine foldl_kept2 _ _ ?_ ?_ | refine foldl_kept22 _ _ ?_ ?_ | refine foldl_kept222 _ _ ?_ ?_
    | intro _
    | simp (maxDischargeDepth := 99) (maxSteps := 1000000) +contextual only [Module.wr_kept, *])

theorem Module.startList_kept (m : Module) (ch : Nat) (c : CmdRef) (addr : Nat) (hm : Memory.wf m.mem = true) :
    Memory.wf (Module.startList m ch c addr).mem = true := by
  unfold Module.startList
  repeat' (first
    | with_reducible assumption
    | with_reducible first | refine ite_kept ?_ ?_ | refine foldl_kept _ _ ?_ ?_ | refine foldl_kept2 _ _ ?_ ?_ | refine foldl_kept22 _ _ ?_ ?_ | refine foldl_kept222 _ _ ?_ ?_
    | intro _
    | simp (maxDischargeDepth := 99) (maxSteps := 1000000) +contextual only [Module.setChan_kept, Module.wrAddr_kept, *])

theorem Module.freeChannel_kept (m : Module) (ch : Nat) (hm : Memory.wf m.mem = true) :
    Memory.wf (Module.freeChannel m ch).mem = true := by
  unfold Module.freeChannel
  repeat' (first
    | with_reducible assumption
    | with_reducible first | refine ite_kept ?_ ?_ | refine foldl_kept _ _ ?_ ?_ | refine foldl_kept2 _ _ ?_ ?_ | refine foldl_kept22 _ _ ?_ ?_ | refine foldl_kept222 _ _ ?_ ?_
    | intro _
    | simp (maxDischargeDepth := 99) (maxSteps := 1000000) +contextual only [Module.setChan_kept, *])

theorem dmaCmd_kept (h : CmdHdr) (addr : W64) (m : Module) (hm : Memory.wf m.mem = true) :
    Memory.wf (dmaCmd h addr m).mem = true := by
  unfold dmaCmd
  repeat' (first
    | with_reducible assumption
    | with_reducible first | refine ite_kept ?_ ?_ | refine foldl_kept _ _ ?_ ?_ | refine foldl_kept2 _ _ ?_ ?_ | refine foldl_kept22 _ _ ?_ ?_ | refine foldl_kept222 _ _ ?_ ?_
    | intro _
    | with_reducible apply Module.command_kept
    | with_reducible apply Module.commandRun_kept
    | simp (maxDischargeDepth := 99) (maxSteps := 1000000) +contextual only [Module.startList_kept, *]
    | with_reducible first | apply Module.startList_kept | apply Module.command_kept | apply Module.commandRun_kept
    | split)

theorem Module.endList_kept (m : Module) (ch : Nat) (code : Nat) (tag : Word) (hm : Memory.wf m.mem = true) :
    Memory.wf (Module.endList m ch code tag).mem = true := by
  unfold Module.endList
  repeat' (first
    | with_reducible assumption
    | with_reducible first | refine ite_kept ?_ ?_ | refine foldl_kept _ _ ?_ ?_ | refine foldl_kept2 _ _ ?_ ?_ | refine foldl_kept22 _ _ ?_ ?_ | refine foldl_kept222 _ _ ?_ ?_
    | intro _
    | simp (maxDischargeDepth := 99) (maxSteps := 1000000) +contextual only [Module.freeChannel_kept, Module.completeMore_kept, *]
    | with_reducible first | apply Module.freeChannel_kept | apply Module.completeMore_kept
    | split)

theorem Module.failReport_kept (m : Module) (f : DmaFail) (n : Nat) (hm : Memory.wf m.mem = true) :
    Memory.wf (Module.failReport m f n).mem = true := by
  unfold Module.failReport
  repeat' (first
    | with_reducible assumption
    | with_reducible first | refine ite_kept ?_ ?_ | refine foldl_kept _ _ ?_ ?_ | refine foldl_kept2 _ _ ?_ ?_ | refine foldl_kept22 _ _ ?_ ?_ | refine foldl_kept222 _ _ ?_ ?_
    | intro _
    | simp (maxDischargeDepth := 99) (maxSteps := 1000000) +contextual only [Module.reportBad_kept, Module.reportPartly_kept, *])

theorem Module.dmaMeets_kept (m : Module) (d : Desc) (p : Nat) (n : Nat) (hm : Memory.wf m.mem = true) :
    Memory.wf (Module.dmaMeets m d p n).mem = true := by
  unfold Module.dmaMeets
  repeat' (first
    | with_reducible assumption
    | with_reducible first | refine ite_kept ?_ ?_ | refine foldl_kept _ _ ?_ ?_ | refine foldl_kept2 _ _ ?_ ?_ | refine foldl_kept22 _ _ ?_ ?_ | refine foldl_kept222 _ _ ?_ ?_
    | intro _
    | simp (maxDischargeDepth := 99) (maxSteps := 1000000) +contextual only [Module.meetLines_kept, Module.meetPartly_kept, ite_kept, *])

theorem Module.fillNow_kept (m : Module) (queued : Bool) (told : Option Nat) (hm : Memory.wf m.mem = true) :
    Memory.wf (Module.fillNow m queued told).2.mem = true := by
  unfold Module.fillNow
  repeat' (first
    | with_reducible assumption
    | with_reducible first | refine ite_kept ?_ ?_ | refine foldl_kept _ _ ?_ ?_ | refine foldl_kept2 _ _ ?_ ?_ | refine foldl_kept22 _ _ ?_ ?_ | refine foldl_kept222 _ _ ?_ ?_
    | intro _
    | simp (maxDischargeDepth := 99) (maxSteps := 1000000) +contextual only [Module.pick_kept, *]
    | with_reducible apply Module.pick_kept
    | split)

/-- The transfers of a row only meet errors and report failures. -/
theorem DmaCh.rowRun_kept (c : DmaCh) (d : Desc) (fuel : Nat) (x : RowRun) (hx : Memory.wf x.m.mem = true) :
    Memory.wf (c.rowRun d fuel x).m.mem = true := by
  induction fuel generalizing x with
  | zero => exact hx
  | succ k ih =>
    have hf := fun q => Module.fillNow_kept x.m q none hx
    unfold DmaCh.rowRun
    dsimp only
    split
    · exact hx
    · split
      · exact hf _
      · split
        · exact Module.failReport_kept _ _ _ (Module.dmaMeets_kept _ _ _ _ (hf _))
        · exact ih _ (Module.dmaMeets_kept _ _ _ _ (hf _))

theorem Module.moveRow_kept (m : Module) (ch : Nat) (c : DmaCh) (d : Desc) (hm : Memory.wf m.mem = true) :
    Memory.wf (Module.moveRow m ch c d).2.mem = true := by
  exact Module.setChan_kept _ _ _ (Module.store_kept _ _ _ (DmaCh.rowRun_kept _ _ _ _ hm))


/-- A write of a multicast transfer keeps the canonical form. -/
theorem McTurn.send_kept (x : McTurn) (b : Binding) (i k : Nat) (hx : Memory.wf x.m.mem = true) :
    Memory.wf (x.send b i k).m.mem = true := by
  unfold McTurn.send
  split
  · next r y e _ _ _ =>
    have hm : Memory.wf (match y.src with | some a => x.m.meetLines 5 [(a, y.len)] | none => x.m).mem = true := by
      split
      · exact Module.meetLines_kept _ _ _ hx
      · exact hx
    dsimp only
    split
    · exact hx
    · split
      · exact hx
      · split
        · exact Module.failReport_kept _ _ _ hm
        · exact Module.winHand_kept _ _ _ _ _ _ _ hm
  · exact hx

theorem Module.mcPump_kept (m : Module) (t : McSend) (hm : Memory.wf m.mem = true) :
    Memory.wf (m.mcPump t).m.mem = true := by
  unfold Module.mcPump
  split
  · exact hm
  · next b _ =>
    refine foldl_keeps (P := fun x : McTurn => Memory.wf x.m.mem = true) _ _ hm fun x i hx => ?_
    refine foldl_keeps (P := fun x : McTurn => Memory.wf x.m.mem = true) _ _ hx fun x k hx => ?_
    split
    · split
      · exact McTurn.send_kept _ _ _ _ hx
      · exact hx
    · exact hx

theorem Module.mcSpan_kept (m : Module) (t : McSend) (k lo hi : Nat) (hm : Memory.wf m.mem = true) :
    Memory.wf (m.mcSpan t k lo hi).m.mem = true := by
  unfold Module.mcSpan
  split
  · exact hm
  · refine foldl_keeps (P := fun x : McTurn => Memory.wf x.m.mem = true) _ _ hm fun x i hx => ?_
    split
    · exact McTurn.send_kept _ _ _ _ hx
    · exact hx

theorem Module.mcBegin_kept (m : Module) (ch : Fin 64) (c : DmaCh) (d : Desc) (w : Fin 64) (l : List McChunk) (hm : Memory.wf m.mem = true) :
    Memory.wf (Module.mcBegin m ch c d w l).mem = true := by
  have h : ∀ t : McSend, Memory.wf (Module.mcPump { m with mcNext := SMap.set 0 m.mcNext w.val (SMap.get 0 m.mcNext w.val + 1) } t).m.mem = true :=
    fun t => Module.mcPump_kept _ _ hm
  unfold Module.mcBegin
  dsimp only
  split
  · exact h _
  · exact h _


theorem Module.avtpStep_kept (m : Module) (ch : Fin 64) (c : DmaCh) (d : Desc) (x : AvtpMove) (hm : Memory.wf m.mem = true) :
    Memory.wf (Module.avtpStep m ch c d x).2.mem = true := by
  unfold Module.avtpStep
  repeat' (first
    | with_reducible assumption
    | with_reducible first | refine ite_kept ?_ ?_ | refine foldl_kept _ _ ?_ ?_ | refine foldl_kept2 _ _ ?_ ?_ | refine foldl_kept22 _ _ ?_ ?_ | refine foldl_kept222 _ _ ?_ ?_
    | intro _
    | simp (maxDischargeDepth := 99) (maxSteps := 1000000) +contextual only [Module.setChan_kept, Module.meetLines_kept, Module.failReport_kept, Module.txQueue_kept, *]
    | with_reducible first | apply Module.setChan_kept | apply Module.meetLines_kept | apply Module.failReport_kept | apply Module.txQueue_kept
    | split)

theorem Module.windowStep_kept (m : Module) (ch : Fin 64) (c : DmaCh) (d : Desc) (hm : Memory.wf m.mem = true) :
    Memory.wf (Module.windowStep m ch c d).2.mem = true := by
  unfold Module.windowStep
  repeat' (first
    | with_reducible assumption
    | with_reducible first | refine ite_kept ?_ ?_ | refine foldl_kept _ _ ?_ ?_ | refine foldl_kept2 _ _ ?_ ?_ | refine foldl_kept22 _ _ ?_ ?_ | refine foldl_kept222 _ _ ?_ ?_
    | intro _
    | simp (maxDischargeDepth := 99) (maxSteps := 1000000) +contextual only [Module.setChan_kept, Module.winReadFrom_kept, Module.mcBegin_kept, Module.dmaMeets_kept, Module.failReport_kept, Module.winWriteTo_kept, *]
    | with_reducible first | apply Module.setChan_kept | apply Module.winReadFrom_kept | apply Module.mcBegin_kept | apply Module.dmaMeets_kept | apply Module.failReport_kept | apply Module.winWriteTo_kept
    | split)

theorem Module.dmaStep_kept (m : Module) (ch : Fin 64) (c : DmaCh) (d : Desc) (told : Option Nat) (hm : Memory.wf m.mem = true) :
    Memory.wf (Module.dmaStep m ch c d told).2.mem = true := by
  unfold Module.dmaStep
  repeat' (first
    | with_reducible assumption
    | with_reducible first | refine ite_kept ?_ ?_ | refine foldl_kept _ _ ?_ ?_ | refine foldl_kept2 _ _ ?_ ?_ | refine foldl_kept22 _ _ ?_ ?_ | refine foldl_kept222 _ _ ?_ ?_
    | intro _
    | simp (maxDischargeDepth := 99) (maxSteps := 1000000) +contextual only [Module.fillNow_kept, Module.setChan_kept, Module.avtpStep_kept, Module.moveRow_kept, Module.windowStep_kept, *]
    | with_reducible first | apply Module.fillNow_kept | apply Module.setChan_kept | apply Module.avtpStep_kept | apply Module.moveRow_kept | apply Module.windowStep_kept
    | split)

theorem Module.dmaIssue_kept (m : Module) (fuel : Nat) (ch : Fin 64) (told : Option Nat) (hm : Memory.wf m.mem = true) :
    Memory.wf (Module.dmaIssue m fuel ch told).mem = true := by
  induction fuel generalizing m told with
  | zero => exact hm
  | succ k ih =>
    unfold Module.dmaIssue
    simp only
    split
    · exact hm
    · split
      · exact hm
      · split <;>
        · next heq =>
          have hq := congrArg Prod.snd heq
          simp only at hq
          subst hq
          first
            | exact Module.dmaStep_kept _ _ _ _ _ hm
            | exact ih _ _ (Module.dmaStep_kept _ _ _ _ _ hm)


theorem Module.dmaGo_kept (m : Module) (ch : Fin 64) (told : Option Nat) (hm : Memory.wf m.mem = true) :
    Memory.wf (Module.dmaGo m ch told).mem = true := by
  unfold Module.dmaGo
  repeat' (first
    | with_reducible assumption
    | with_reducible first | refine ite_kept ?_ ?_ | refine foldl_kept _ _ ?_ ?_ | refine foldl_kept2 _ _ ?_ ?_ | refine foldl_kept22 _ _ ?_ ?_ | refine foldl_kept222 _ _ ?_ ?_
    | intro _
    | simp (maxDischargeDepth := 99) (maxSteps := 1000000) +contextual only [Module.dmaIssue_kept, *])

theorem Module.dmaMove_kept (m : Module) (ch : Fin 64) (told : Option Nat) (hm : Memory.wf m.mem = true) :
    Memory.wf (Module.dmaMove m ch told).mem = true := by
  unfold Module.dmaMove
  repeat' (first
    | with_reducible assumption
    | with_reducible first | refine ite_kept ?_ ?_ | refine foldl_kept _ _ ?_ ?_ | refine foldl_kept2 _ _ ?_ ?_ | refine foldl_kept22 _ _ ?_ ?_ | refine foldl_kept222 _ _ ?_ ?_
    | intro _
    | simp (maxDischargeDepth := 99) (maxSteps := 1000000) +contextual only [Module.setChan_kept, Module.dmaGo_kept, *])

theorem Module.dmaRead_kept (m : Module) (ch : Fin 64) (b : List Byte) (fill : Nat) (hm : Memory.wf m.mem = true) :
    Memory.wf (Module.dmaRead m ch b fill).mem = true := by
  unfold Module.dmaRead
  repeat' (first
    | with_reducible assumption
    | with_reducible first | refine ite_kept ?_ ?_ | refine foldl_kept _ _ ?_ ?_ | refine foldl_kept2 _ _ ?_ ?_ | refine foldl_kept22 _ _ ?_ ?_ | refine foldl_kept222 _ _ ?_ ?_
    | intro _
    | simp (maxDischargeDepth := 99) (maxSteps := 1000000) +contextual only [Module.endList_kept, Module.setChan_kept, Module.dmaMove_kept, *])

theorem Module.fetchFail_kept (m : Module) (ch : Nat) (a : Nat) (hm : Memory.wf m.mem = true) :
    Memory.wf (Module.fetchFail m ch a).mem = true := by
  unfold Module.fetchFail
  repeat' (first
    | with_reducible assumption
    | with_reducible first | refine ite_kept ?_ ?_ | refine foldl_kept _ _ ?_ ?_ | refine foldl_kept2 _ _ ?_ ?_ | refine foldl_kept22 _ _ ?_ ?_ | refine foldl_kept222 _ _ ?_ ?_
    | intro _
    | simp (maxDischargeDepth := 99) (maxSteps := 1000000) +contextual only [Module.setChan_kept, *])

theorem dmaDescriptorRun_kept (ch : Fin 64) (desc : Remote) (errs : List MemErr) (fill : Nat) (m : Module) (hm : Memory.wf m.mem = true) :
    Memory.wf (dmaDescriptorRun ch desc errs fill m).mem = true := by
  unfold dmaDescriptorRun
  repeat' (first
    | with_reducible assumption
    | with_reducible first | refine ite_kept ?_ ?_ | refine foldl_kept _ _ ?_ ?_ | refine foldl_kept2 _ _ ?_ ?_ | refine foldl_kept22 _ _ ?_ ?_ | refine foldl_kept222 _ _ ?_ ?_
    | intro _
    | simp (maxDischargeDepth := 99) (maxSteps := 1000000) +contextual only [Module.endList_kept, Module.upset_kept, Module.meetLines_kept, Module.askWindow_kept, Module.dmaRead_kept, Module.fetchFail_kept, Module.reportBad_kept, ite_kept, *]
    | with_reducible first | apply Module.endList_kept | apply Module.upset_kept | apply Module.meetLines_kept | apply Module.askWindow_kept | apply Module.dmaRead_kept | apply Module.fetchFail_kept | apply Module.reportBad_kept
    | split)

theorem dmaWaitMet_kept (ch : Fin 64) (errs : List MemErr) (fill : Nat) (m : Module) (hm : Memory.wf m.mem = true) :
    Memory.wf (dmaWaitMet ch errs fill m).mem = true := by
  unfold dmaWaitMet
  repeat' (first
    | with_reducible assumption
    | with_reducible first | refine ite_kept ?_ ?_ | refine foldl_kept _ _ ?_ ?_ | refine foldl_kept2 _ _ ?_ ?_ | refine foldl_kept22 _ _ ?_ ?_ | refine foldl_kept222 _ _ ?_ ?_
    | intro _
    | simp (maxDischargeDepth := 99) (maxSteps := 1000000) +contextual only [Module.upset_kept, Module.dmaMove_kept, *]
    | with_reducible first | apply Module.upset_kept | apply Module.dmaMove_kept
    | split)

theorem dmaWaitTimeout_kept (ch : Fin 64) (m : Module) (hm : Memory.wf m.mem = true) :
    Memory.wf (dmaWaitTimeout ch m).mem = true := by
  unfold dmaWaitTimeout
  repeat' (first
    | with_reducible assumption
    | with_reducible first | refine ite_kept ?_ ?_ | refine foldl_kept _ _ ?_ ?_ | refine foldl_kept2 _ _ ?_ ?_ | refine foldl_kept22 _ _ ?_ ?_ | refine foldl_kept222 _ _ ?_ ?_
    | intro _
    | simp (maxDischargeDepth := 99) (maxSteps := 1000000) +contextual only [Module.count_kept, Module.endList_kept, *]
    | with_reducible first | apply Module.count_kept | apply Module.endList_kept
    | split)

theorem Module.planNext_kept (m : Module) (ch : Nat) (hm : Memory.wf m.mem = true) :
    Memory.wf (Module.planNext m ch).mem = true := by
  unfold Module.planNext
  repeat' (first
    | with_reducible assumption
    | with_reducible first | refine ite_kept ?_ ?_ | refine foldl_kept _ _ ?_ ?_ | refine foldl_kept2 _ _ ?_ ?_ | refine foldl_kept22 _ _ ?_ ?_ | refine foldl_kept222 _ _ ?_ ?_
    | intro _
    | simp (maxDischargeDepth := 99) (maxSteps := 1000000) +contextual only [Module.setChan_kept, Module.dmaMove_kept, *]
    | with_reducible first | apply Module.setChan_kept | apply Module.dmaMove_kept
    | split)

theorem Module.nextDesc_kept (m : Module) (ch : Nat) (d : Desc) (hm : Memory.wf m.mem = true) :
    Memory.wf (Module.nextDesc m ch d).mem = true := by
  unfold Module.nextDesc
  repeat' (first
    | with_reducible assumption
    | with_reducible first | refine ite_kept ?_ ?_ | refine foldl_kept _ _ ?_ ?_ | refine foldl_kept2 _ _ ?_ ?_ | refine foldl_kept22 _ _ ?_ ?_ | refine foldl_kept222 _ _ ?_ ?_
    | intro _
    | simp (maxDischargeDepth := 99) (maxSteps := 1000000) +contextual only [Module.freeChannel_kept, Module.planNext_kept, Module.setChan_kept, Module.wrAddr_kept, *])

theorem Module.clipCopied_kept (m : Module) (o : DmaOwner) (hm : Memory.wf m.mem = true) :
    Memory.wf (Module.clipCopied m o).mem = true := by
  unfold Module.clipCopied
  repeat' (first
    | with_reducible assumption
    | with_reducible first | refine ite_kept ?_ ?_ | refine foldl_kept _ _ ?_ ?_ | refine foldl_kept2 _ _ ?_ ?_ | refine foldl_kept22 _ _ ?_ ?_ | refine foldl_kept222 _ _ ?_ ?_
    | intro _
    | simp (maxDischargeDepth := 99) (maxSteps := 1000000) +contextual only [*]
    | split)

theorem Module.descEntry_kept (m : Module) (ch : Nat) (d : Desc) (code : Nat) (ends : Bool) (hm : Memory.wf m.mem = true) :
    Memory.wf (Module.descEntry m ch d code ends).mem = true := by
  unfold Module.descEntry
  repeat' (first
    | with_reducible assumption
    | with_reducible first | refine ite_kept ?_ ?_ | refine foldl_kept _ _ ?_ ?_ | refine foldl_kept2 _ _ ?_ ?_ | refine foldl_kept22 _ _ ?_ ?_ | refine foldl_kept222 _ _ ?_ ?_
    | intro _
    | simp (maxDischargeDepth := 99) (maxSteps := 1000000) +contextual only [Module.completeMore_kept, *]
    | with_reducible first | apply Module.complete_kept | apply Module.completeMore_kept
    | split)

theorem Module.descSignal_kept (m : Module) (ch : Nat) (d : Desc) (hm : Memory.wf m.mem = true) :
    Memory.wf (Module.descSignal m ch d).mem = true := by
  unfold Module.descSignal
  repeat' (first
    | with_reducible assumption
    | with_reducible first | refine ite_kept ?_ ?_ | refine foldl_kept _ _ ?_ ?_ | refine foldl_kept2 _ _ ?_ ?_ | refine foldl_kept22 _ _ ?_ ?_ | refine foldl_kept222 _ _ ?_ ?_
    | intro _
    | simp (maxDischargeDepth := 99) (maxSteps := 1000000) +contextual only [Module.addSync_kept, Module.guestAdd_kept, *]
    | with_reducible first | apply Module.addSync_kept | apply Module.guestAdd_kept
    | split)

theorem dmaDescriptorDone_kept (ch : Fin 64) (m : Module) (hm : Memory.wf m.mem = true) :
    Memory.wf (dmaDescriptorDone ch m).mem = true := by
  unfold dmaDescriptorDone
  repeat' (first
    | with_reducible assumption
    | with_reducible first | refine ite_kept ?_ ?_ | refine foldl_kept _ _ ?_ ?_ | refine foldl_kept2 _ _ ?_ ?_ | refine foldl_kept22 _ _ ?_ ?_ | refine foldl_kept222 _ _ ?_ ?_
    | intro _
    | simp (maxDischargeDepth := 99) (maxSteps := 1000000) +contextual only [Module.lostCycles_kept, Module.descSignal_kept, Module.clipCopied_kept, Module.descEntry_kept, Module.nextDesc_kept, *]
    | with_reducible first | apply Module.lostCycles_kept | apply Module.descSignal_kept | apply Module.clipCopied_kept | apply Module.descEntry_kept | apply Module.nextDesc_kept
    | split)

theorem dmaPaceResume_kept (ch : Fin 64) (fill : Nat) (m : Module) (hm : Memory.wf m.mem = true) :
    Memory.wf (dmaPaceResume ch fill m).mem = true := by
  unfold dmaPaceResume
  repeat' (first
    | with_reducible assumption
    | with_reducible first | refine ite_kept ?_ ?_ | refine foldl_kept _ _ ?_ ?_ | refine foldl_kept2 _ _ ?_ ?_ | refine foldl_kept22 _ _ ?_ ?_ | refine foldl_kept222 _ _ ?_ ?_
    | intro _
    | simp (maxDischargeDepth := 99) (maxSteps := 1000000) +contextual only [Module.dmaGo_kept, *])

theorem Module.latchHalt_kept (m : Module) (ch : Nat) (c : DmaCh) (f : DmaFail) (hm : Memory.wf m.mem = true) :
    Memory.wf (Module.latchHalt m ch c f).mem = true := by
  unfold Module.latchHalt
  repeat' (first
    | with_reducible assumption
    | with_reducible first | refine ite_kept ?_ ?_ | refine foldl_kept _ _ ?_ ?_ | refine foldl_kept2 _ _ ?_ ?_ | refine foldl_kept22 _ _ ?_ ?_ | refine foldl_kept222 _ _ ?_ ?_
    | intro _
    | simp (maxDischargeDepth := 99) (maxSteps := 1000000) +contextual only [Module.wrAddr_kept, Module.setFld_kept, Module.wr_kept, *])

theorem Module.suspendDelivery_kept (m : Module) (c : PortId) (j : Fin 4) (frame : Nat) (stripe : Nat) (code : Nat) (hm : Memory.wf m.mem = true) :
    Memory.wf (Module.suspendDelivery m c j frame stripe code).mem = true := by
  unfold Module.suspendDelivery
  repeat' (first
    | with_reducible assumption
    | with_reducible first | refine ite_kept ?_ ?_ | refine foldl_kept _ _ ?_ ?_ | refine foldl_kept2 _ _ ?_ ?_ | refine foldl_kept22 _ _ ?_ ?_ | refine foldl_kept222 _ _ ?_ ?_
    | intro _
    | simp (maxDischargeDepth := 99) (maxSteps := 1000000) +contextual only [Module.raiseCtx_kept, *])

theorem Module.suspendOutput_kept (m : Module) (c : PortId) (k : Fin 4) (frame : Nat) (stripe : Nat) (code : Nat) (hm : Memory.wf m.mem = true) :
    Memory.wf (Module.suspendOutput m c k frame stripe code).mem = true := by
  unfold Module.suspendOutput
  repeat' (first
    | with_reducible assumption
    | with_reducible first | refine ite_kept ?_ ?_ | refine foldl_kept _ _ ?_ ?_ | refine foldl_kept2 _ _ ?_ ?_ | refine foldl_kept22 _ _ ?_ ?_ | refine foldl_kept222 _ _ ?_ ?_
    | intro _
    | simp (maxDischargeDepth := 99) (maxSteps := 1000000) +contextual only [Module.satAdd_kept, Module.setFld_kept, Module.raiseCtx_kept, *])

theorem dmaTransferFail_kept (ch : Fin 64) (m : Module) (hm : Memory.wf m.mem = true) :
    Memory.wf (dmaTransferFail ch m).mem = true := by
  unfold dmaTransferFail
  repeat' (first
    | with_reducible assumption
    | with_reducible first | refine ite_kept ?_ ?_ | refine foldl_kept _ _ ?_ ?_ | refine foldl_kept2 _ _ ?_ ?_ | refine foldl_kept22 _ _ ?_ ?_ | refine foldl_kept222 _ _ ?_ ?_
    | intro _
    | simp (maxDischargeDepth := 99) (maxSteps := 1000000) +contextual only [Module.setChan_kept, Module.latchHalt_kept, Module.suspendDelivery_kept, Module.suspendOutput_kept, *]
    | with_reducible first | apply Module.setChan_kept | apply Module.latchHalt_kept | apply Module.suspendDelivery_kept | apply Module.suspendOutput_kept
    | split)

theorem dmaHalted_kept (ch : Fin 64) (m : Module) (hm : Memory.wf m.mem = true) :
    Memory.wf (dmaHalted ch m).mem = true := by
  unfold dmaHalted
  repeat' (first
    | with_reducible assumption
    | with_reducible first | refine ite_kept ?_ ?_ | refine foldl_kept _ _ ?_ ?_ | refine foldl_kept2 _ _ ?_ ?_ | refine foldl_kept22 _ _ ?_ ?_ | refine foldl_kept222 _ _ ?_ ?_
    | intro _
    | simp (maxDischargeDepth := 99) (maxSteps := 1000000) +contextual only [Module.setChan_kept, Module.latchHalt_kept, Module.count_kept, Module.raise_kept, *]
    | with_reducible first | apply Module.setChan_kept | apply Module.latchHalt_kept | apply Module.count_kept | apply Module.raise_kept
    | split)

theorem Module.unhalt_kept (m : Module) (ch : Nat) (hm : Memory.wf m.mem = true) :
    Memory.wf (Module.unhalt m ch).mem = true := by
  unfold Module.unhalt
  repeat' (first
    | with_reducible assumption
    | with_reducible first | refine ite_kept ?_ ?_ | refine foldl_kept _ _ ?_ ?_ | refine foldl_kept2 _ _ ?_ ?_ | refine foldl_kept22 _ _ ?_ ?_ | refine foldl_kept222 _ _ ?_ ?_
    | intro _
    | simp (maxDischargeDepth := 99) (maxSteps := 1000000) +contextual only [Module.setFld_kept, *])

theorem Module.retryChan_kept (m : Module) (ch : Fin 64) (c : DmaCh) (hm : Memory.wf m.mem = true) :
    Memory.wf (Module.retryChan m ch c).mem = true := by
  unfold Module.retryChan
  repeat' (first
    | with_reducible assumption
    | with_reducible first | refine ite_kept ?_ ?_ | refine foldl_kept _ _ ?_ ?_ | refine foldl_kept2 _ _ ?_ ?_ | refine foldl_kept22 _ _ ?_ ?_ | refine foldl_kept222 _ _ ?_ ?_
    | intro _
    | simp (maxDischargeDepth := 99) (maxSteps := 1000000) +contextual only [Module.unhalt_kept, Module.setChan_kept, Module.dmaMove_kept, *]
    | with_reducible first | apply Module.unhalt_kept | apply Module.setChan_kept | apply Module.dmaMove_kept
    | split)

theorem Module.skipChan_kept (m : Module) (ch : Nat) (c : DmaCh) (cause : Nat) (hm : Memory.wf m.mem = true) :
    Memory.wf (Module.skipChan m ch c cause).mem = true := by
  unfold Module.skipChan
  repeat' (first
    | with_reducible assumption
    | with_reducible first | refine ite_kept ?_ ?_ | refine foldl_kept _ _ ?_ ?_ | refine foldl_kept2 _ _ ?_ ?_ | refine foldl_kept22 _ _ ?_ ?_ | refine foldl_kept222 _ _ ?_ ?_
    | intro _
    | simp (maxDischargeDepth := 99) (maxSteps := 1000000) +contextual only [Module.unhalt_kept, Module.endList_kept, Module.descEntry_kept, Module.nextDesc_kept, *]
    | with_reducible first | apply Module.unhalt_kept | apply Module.endList_kept | apply Module.descEntry_kept | apply Module.nextDesc_kept
    | split)

theorem Module.abortChan_kept (m : Module) (ch : Nat) (c : DmaCh) (cause : Nat) (hm : Memory.wf m.mem = true) :
    Memory.wf (Module.abortChan m ch c cause).mem = true := by
  unfold Module.abortChan
  repeat' (first
    | with_reducible assumption
    | with_reducible first | refine ite_kept ?_ ?_ | refine foldl_kept _ _ ?_ ?_ | refine foldl_kept2 _ _ ?_ ?_ | refine foldl_kept22 _ _ ?_ ?_ | refine foldl_kept222 _ _ ?_ ?_
    | intro _
    | simp (maxDischargeDepth := 99) (maxSteps := 1000000) +contextual only [Module.unhalt_kept, Module.endList_kept, Module.descEntry_kept, Module.freeChannel_kept, *]
    | with_reducible first | apply Module.unhalt_kept | apply Module.endList_kept | apply Module.descEntry_kept | apply Module.freeChannel_kept
    | split)

theorem planChannelSkip_kept (ch : Fin 64) (m : Module) (hm : Memory.wf m.mem = true) :
    Memory.wf (planChannelSkip ch m).mem = true := by
  unfold planChannelSkip
  repeat' (first
    | with_reducible assumption
    | with_reducible first | refine ite_kept ?_ ?_ | refine foldl_kept _ _ ?_ ?_ | refine foldl_kept2 _ _ ?_ ?_ | refine foldl_kept22 _ _ ?_ ?_ | refine foldl_kept222 _ _ ?_ ?_
    | intro _
    | simp (maxDischargeDepth := 99) (maxSteps := 1000000) +contextual only [Module.unhalt_kept, Module.descSignal_kept, Module.nextDesc_kept, *]
    | with_reducible first | apply Module.unhalt_kept | apply Module.descSignal_kept | apply Module.nextDesc_kept
    | split)

theorem Module.dmaReturn_kept (m : Module) (ch : Fin 64) (lo : Nat) (n : Nat) (cause : Option (DmaFail)) (hm : Memory.wf m.mem = true) :
    Memory.wf (Module.dmaReturn m ch lo n cause).mem = true := by
  unfold Module.dmaReturn
  repeat' (first
    | with_reducible assumption
    | with_reducible first | refine ite_kept ?_ ?_ | refine foldl_kept _ _ ?_ ?_ | refine foldl_kept2 _ _ ?_ ?_ | refine foldl_kept22 _ _ ?_ ?_ | refine foldl_kept222 _ _ ?_ ?_
    | intro _
    | simp (maxDischargeDepth := 99) (maxSteps := 1000000) +contextual only [Module.setChan_kept, Module.dmaGo_kept, *]
    | with_reducible first | apply Module.setChan_kept | apply Module.dmaGo_kept
    | split)

theorem Module.dmaData_kept (m : Module) (ch : Fin 64) (lo : Nat) (n : Nat) (data : List Byte) (hm : Memory.wf m.mem = true) :
    Memory.wf (Module.dmaData m ch lo n data).mem = true := by
  unfold Module.dmaData
  repeat' (first
    | with_reducible assumption
    | with_reducible first | refine ite_kept ?_ ?_ | refine foldl_kept _ _ ?_ ?_ | refine foldl_kept2 _ _ ?_ ?_ | refine foldl_kept22 _ _ ?_ ?_ | refine foldl_kept222 _ _ ?_ ?_
    | intro _
    | simp (maxDischargeDepth := 99) (maxSteps := 1000000) +contextual only [Module.dmaReturn_kept, Module.setChan_kept, Module.meetPartly_kept, Module.failReport_kept, Module.mcBegin_kept, Module.dmaGo_kept, Module.winWriteTo_kept, Module.store_kept, ite_kept, *]
    | with_reducible first | apply Module.dmaReturn_kept | apply Module.setChan_kept | apply Module.meetPartly_kept | apply Module.failReport_kept | apply Module.mcBegin_kept | apply Module.dmaGo_kept | apply Module.winWriteTo_kept | apply Module.store_kept
    | split)

theorem Module.detachDma_kept (m : Module) (n : Nat) (gen : Nat) (hm : Memory.wf m.mem = true) :
    Memory.wf (Module.detachDma m n gen).mem = true := by
  unfold Module.detachDma
  repeat' (first
    | with_reducible assumption
    | with_reducible first | refine ite_kept ?_ ?_ | refine foldl_kept _ _ ?_ ?_ | refine foldl_kept2 _ _ ?_ ?_ | refine foldl_kept22 _ _ ?_ ?_ | refine foldl_kept222 _ _ ?_ ?_
    | intro _
    | simp (maxDischargeDepth := 99) (maxSteps := 1000000) +contextual only [Module.unhalt_kept, Module.freeChannel_kept, *]
    | with_reducible first | apply Module.unhalt_kept | apply Module.freeChannel_kept
    | split)

theorem Module.abortAllDma_kept (m : Module) (hm : Memory.wf m.mem = true) :
    Memory.wf (Module.abortAllDma m).mem = true := by
  unfold Module.abortAllDma
  repeat' (first
    | with_reducible assumption
    | with_reducible first | refine ite_kept ?_ ?_ | refine foldl_kept _ _ ?_ ?_ | refine foldl_kept2 _ _ ?_ ?_ | refine foldl_kept22 _ _ ?_ ?_ | refine foldl_kept222 _ _ ?_ ?_
    | intro _
    | simp (maxDischargeDepth := 99) (maxSteps := 1000000) +contextual only [Module.open__kept, Module.unhalt_kept, Module.endList_kept, *]
    | with_reducible first | apply Module.open__kept | apply Module.unhalt_kept | apply Module.endList_kept
    | split)

theorem McTurn.keep_kept (x : McTurn) (hx : Memory.wf x.m.mem = true) : Memory.wf x.keep.mem = true := by
  unfold McTurn.keep
  split
  · exact Module.dmaReturn_kept _ _ _ _ _ hx
  · exact hx

theorem Module.dmaGoOn_kept (m : Module) (hm : Memory.wf m.mem = true) :
    Memory.wf (Module.dmaGoOn m).mem = true := by
  unfold Module.dmaGoOn
  refine foldl_kept _ _ ?_ fun x t hx => McTurn.keep_kept _ (Module.mcPump_kept _ _ hx)
  refine foldl_kept _ _ hm fun x ch hx => ?_
  split
  · exact Module.dmaGo_kept _ _ _ hx
  · exact hx


theorem dramWckTrack_kept (_chx : Fin 16) (m : Module) (hm : Memory.wf m.mem = true) :
    Memory.wf (dramWckTrack _chx m).mem = true := by
  unfold dramWckTrack
  repeat' (first
    | with_reducible assumption)

theorem dramZqCalibrate_kept (_chx : Fin 16) (m : Module) (hm : Memory.wf m.mem = true) :
    Memory.wf (dramZqCalibrate _chx m).mem = true := by
  unfold dramZqCalibrate
  repeat' (first
    | with_reducible assumption)

theorem perBankRefresh_kept (_chx : Fin 16) (_bankx : Fin 16) (m : Module) (hm : Memory.wf m.mem = true) :
    Memory.wf (perBankRefresh _chx _bankx m).mem = true := by
  unfold perBankRefresh
  repeat' (first
    | with_reducible assumption)

theorem dramSlotAdvance_kept (ch : Fin 16) (by_ : Option SlotShare) (m : Module) (hm : Memory.wf m.mem = true) :
    Memory.wf (dramSlotAdvance ch by_ m).mem = true := by
  unfold dramSlotAdvance
  repeat' (first
    | with_reducible assumption
    | with_reducible first | refine ite_kept ?_ ?_ | refine foldl_kept _ _ ?_ ?_ | refine foldl_kept2 _ _ ?_ ?_ | refine foldl_kept22 _ _ ?_ ?_ | refine foldl_kept222 _ _ ?_ ?_
    | intro _
    | simp (maxDischargeDepth := 99) (maxSteps := 1000000) +contextual only [Module.wr_kept, *])

end Sys2Proof.Machine
end

