-- ==== Sys2Proof/Laws/Kept/HostLink.lean ====
section
/-!
SUPPORT. Every operation of Machine/HostLink.lean keeps the canonical form of memory.
-/
namespace Sys2Proof.Machine

theorem Module.popRx_kept (m : Module) (port : Fin 2) (hm : Memory.wf m.mem = true) :
    Memory.wf (Module.popRx m port).mem = true := by
  unfold Module.popRx
  repeat' (first
    | with_reducible assumption)

theorem Module.limited_kept (m : Module) (times : SMap Nat) (node : W16) (hm : Memory.wf m.mem = true) :
    Memory.wf (Module.limited m times node).2.mem = true := by
  unfold Module.limited
  repeat' (first
    | with_reducible assumption
    | with_reducible first | refine ite_kept ?_ ?_ | refine foldl_kept _ _ ?_ ?_ | refine foldl_kept2 _ _ ?_ ?_ | refine foldl_kept22 _ _ ?_ ?_ | refine foldl_kept222 _ _ ?_ ?_
    | intro _
    | simp (maxDischargeDepth := 99) (maxSteps := 1000000) +contextual only [Module.tick_kept, *]
    | with_reducible apply Module.tick_kept
    | split)

theorem Module.answerNotReady_kept (m : Module) (h : Hdr) (type : Nat) (status : Nat) (retry : Nat) (hm : Memory.wf m.mem = true) :
    Memory.wf (Module.answerNotReady m h type status retry).mem = true := by
  unfold Module.answerNotReady
  split <;>
  · next heq =>
    have hq := congrArg Prod.snd heq
    simp only at hq
    subst hq
    first
      | exact Module.answer_kept _ _ _ _ _ _ (Module.limited_kept _ _ _ hm)
      | exact Module.limited_kept _ _ _ hm

theorem Module.answerNoSession_kept (m : Module) (h : Hdr) (type : Nat) (hm : Memory.wf m.mem = true) :
    Memory.wf (Module.answerNoSession m h type).mem = true := by
  unfold Module.answerNoSession
  split <;>
  · next heq =>
    have hq := congrArg Prod.snd heq
    simp only at hq
    subst hq
    first
      | exact Module.answer_kept _ _ _ _ _ _ (Module.limited_kept _ _ _ hm)
      | exact Module.limited_kept _ _ _ hm

theorem Module.estimate_kept (m : Module) (hm : Memory.wf m.mem = true) :
    Memory.wf (Module.estimate m).2.mem = true := by
  unfold Module.estimate
  repeat' (first
    | with_reducible assumption
    | with_reducible first | refine ite_kept ?_ ?_ | refine foldl_kept _ _ ?_ ?_ | refine foldl_kept2 _ _ ?_ ?_ | refine foldl_kept22 _ _ ?_ ?_ | refine foldl_kept222 _ _ ?_ ?_
    | intro _
    | simp (maxDischargeDepth := 99) (maxSteps := 1000000) +contextual only [Module.pick_kept, *]
    | with_reducible apply Module.pick_kept
    | split)

theorem Module.notReadyAnswer_kept (m : Module) (h : Hdr) (type : Nat) (always : Bool) (hm : Memory.wf m.mem = true) :
    Memory.wf (Module.notReadyAnswer m h type always).mem = true := by
  unfold Module.notReadyAnswer
  repeat' (first
    | with_reducible assumption
    | with_reducible first | refine ite_kept ?_ ?_ | refine foldl_kept _ _ ?_ ?_ | refine foldl_kept2 _ _ ?_ ?_ | refine foldl_kept22 _ _ ?_ ?_ | refine foldl_kept222 _ _ ?_ ?_
    | intro _
    | simp (maxDischargeDepth := 99) (maxSteps := 1000000) +contextual only [Module.answerNotReady_kept, Module.estimate_kept, *])

theorem Module.gate_kept (m : Module) (h : Hdr) (type : Nat) (always : Bool) (lenOk : Bool) (k : Module → Module) (hm : Memory.wf m.mem = true) (hk : ∀ (x0 : Module), Memory.wf x0.mem = true → Memory.wf (k x0).mem = true) :
    Memory.wf (Module.gate m h type always lenOk k).mem = true := by
  unfold Module.gate
  repeat' (first
    | with_reducible assumption
    | with_reducible first | refine ite_kept ?_ ?_ | refine foldl_kept _ _ ?_ ?_ | refine foldl_kept2 _ _ ?_ ?_ | refine foldl_kept22 _ _ ?_ ?_ | refine foldl_kept222 _ _ ?_ ?_
    | intro _
    | simp (maxDischargeDepth := 99) (maxSteps := 1000000) +contextual only [Module.popRx_kept, Module.notReadyAnswer_kept, Module.answer_kept, *])

theorem Module.gateSession_kept (m : Module) (h : Hdr) (type : Nat) (lenOk : Bool) (k : Nat → Session → Module → Module) (hm : Memory.wf m.mem = true) (hk : ∀ (x0 : Nat) (x1 : Session) (x2 : Module), Memory.wf x2.mem = true → Memory.wf (k x0 x1 x2).mem = true) :
    Memory.wf (Module.gateSession m h type lenOk k).mem = true := by
  unfold Module.gateSession
  repeat' (first
    | with_reducible assumption
    | with_reducible first | refine ite_kept ?_ ?_ | refine foldl_kept _ _ ?_ ?_ | refine foldl_kept2 _ _ ?_ ?_ | refine foldl_kept22 _ _ ?_ ?_ | refine foldl_kept222 _ _ ?_ ?_
    | intro _
    | simp (maxDischargeDepth := 99) (maxSteps := 1000000) +contextual only [Module.popRx_kept, Module.notReadyAnswer_kept, Module.answerNoSession_kept, Module.answer_kept, *]
    | with_reducible first | apply Module.popRx_kept | apply Module.notReadyAnswer_kept | apply Module.answerNoSession_kept | apply Module.answer_kept
    | split)

theorem Module.setSession_kept (m : Module) (n : Nat) (s : Session) (hm : Memory.wf m.mem = true) :
    Memory.wf (Module.setSession m n s).mem = true := by
  unfold Module.setSession
  repeat' (first
    | with_reducible assumption)

theorem Module.setJobs_kept (m : Module) (l : List Job) (hm : Memory.wf m.mem = true) :
    Memory.wf (Module.setJobs m l).mem = true := by
  unfold Module.setJobs
  repeat' (first
    | with_reducible assumption
    | with_reducible first | refine ite_kept ?_ ?_ | refine foldl_kept _ _ ?_ ?_ | refine foldl_kept2 _ _ ?_ ?_ | refine foldl_kept22 _ _ ?_ ?_ | refine foldl_kept222 _ _ ?_ ?_
    | intro _
    | simp (maxDischargeDepth := 99) (maxSteps := 1000000) +contextual only [Module.setFld_kept, *])

theorem Module.dropCommands_kept (m : Module) (n : Nat) (gen : Nat) (hm : Memory.wf m.mem = true) :
    Memory.wf (Module.dropCommands m n gen).mem = true := by
  unfold Module.dropCommands
  repeat' (first
    | with_reducible assumption
    | with_reducible first | refine ite_kept ?_ ?_ | refine foldl_kept _ _ ?_ ?_ | refine foldl_kept2 _ _ ?_ ?_ | refine foldl_kept22 _ _ ?_ ?_ | refine foldl_kept222 _ _ ?_ ?_
    | intro _
    | simp (maxDischargeDepth := 99) (maxSteps := 1000000) +contextual only [Module.setJobs_kept, Module.setFld_kept, Module.setFills_kept, Module.detachDma_kept, implies_true, foldl_kept, *])

theorem Module.endSession_kept (m : Module) (n : Nat) (reason : Nat) (byHost : Bool) (hm : Memory.wf m.mem = true) :
    Memory.wf (Module.endSession m n reason byHost).mem = true := by
  unfold Module.endSession
  repeat' (first
    | with_reducible assumption
    | with_reducible first | refine ite_kept ?_ ?_ | refine foldl_kept _ _ ?_ ?_ | refine foldl_kept2 _ _ ?_ ?_ | refine foldl_kept22 _ _ ?_ ?_ | refine foldl_kept222 _ _ ?_ ?_
    | intro _
    | simp (maxDischargeDepth := 99) (maxSteps := 1000000) +contextual only [Module.sendSession_kept, Module.dropCommands_kept, Module.raise_kept, ite_kept, *]
    | with_reducible first | apply Module.sendSession_kept | apply Module.dropCommands_kept | apply Module.raise_kept
    | split)

theorem Module.endAllSessions_kept (m : Module) (reason : Nat) (hm : Memory.wf m.mem = true) :
    Memory.wf (Module.endAllSessions m reason).mem = true := by
  unfold Module.endAllSessions
  repeat' (first
    | with_reducible assumption
    | with_reducible first | refine ite_kept ?_ ?_ | refine foldl_kept _ _ ?_ ?_ | refine foldl_kept2 _ _ ?_ ?_ | refine foldl_kept22 _ _ ?_ ?_ | refine foldl_kept222 _ _ ?_ ?_
    | intro _
    | simp (maxDischargeDepth := 99) (maxSteps := 1000000) +contextual only [Module.endSession_kept, *])

theorem Module.attachAnswer_kept (m : Module) (h : Hdr) (version : Byte) (status : Nat) (retry : Nat) (payload : List Byte) (hm : Memory.wf m.mem = true) :
    Memory.wf (Module.attachAnswer m h version status retry payload).mem = true := by
  unfold Module.attachAnswer
  repeat' (first
    | with_reducible assumption
    | with_reducible first | refine ite_kept ?_ ?_ | refine foldl_kept _ _ ?_ ?_ | refine foldl_kept2 _ _ ?_ ?_ | refine foldl_kept22 _ _ ?_ ?_ | refine foldl_kept222 _ _ ?_ ?_
    | intro _
    | simp (maxDischargeDepth := 99) (maxSteps := 1000000) +contextual only [Module.tick_kept, Module.emit_kept, *])

theorem attach_kept (h : Hdr) (payload : List Byte) (m : Module) (hm : Memory.wf m.mem = true) :
    Memory.wf (attach h payload m).mem = true := by
  unfold attach
  repeat' (first
    | with_reducible assumption
    | with_reducible first | refine ite_kept ?_ ?_ | refine foldl_kept _ _ ?_ ?_ | refine foldl_kept2 _ _ ?_ ?_ | refine foldl_kept22 _ _ ?_ ?_ | refine foldl_kept222 _ _ ?_ ?_
    | intro _
    | with_reducible apply Module.gate_kept
    | simp (maxDischargeDepth := 99) (maxSteps := 1000000) +contextual only [Module.tick_kept, Module.emit_kept, Module.attachAnswer_kept, Module.draw_kept, *]
    | with_reducible first | apply Module.gate_kept | apply Module.tick_kept | apply Module.emit_kept | apply Module.attachAnswer_kept | apply Module.draw_kept
    | split)

theorem Module.probeRead_kept (m : Module) (h : Hdr) (b : List Byte) (answered : Bool) (hm : Memory.wf m.mem = true) :
    Memory.wf (Module.probeRead m h b answered).mem = true := by
  unfold Module.probeRead
  repeat' (first
    | with_reducible assumption
    | with_reducible first | refine ite_kept ?_ ?_ | refine foldl_kept _ _ ?_ ?_ | refine foldl_kept2 _ _ ?_ ?_ | refine foldl_kept22 _ _ ?_ ?_ | refine foldl_kept222 _ _ ?_ ?_
    | intro _
    | simp (maxDischargeDepth := 99) (maxSteps := 1000000) +contextual only [Module.request_kept, *])

theorem attachServe_kept (probe : Remote) (m : Module) (hm : Memory.wf m.mem = true) :
    Memory.wf (attachServe probe m).mem = true := by
  unfold attachServe
  repeat' (first
    | with_reducible assumption
    | with_reducible first | refine ite_kept ?_ ?_ | refine foldl_kept _ _ ?_ ?_ | refine foldl_kept2 _ _ ?_ ?_ | refine foldl_kept22 _ _ ?_ ?_ | refine foldl_kept222 _ _ ?_ ?_
    | intro _
    | with_reducible apply Module.firmware_kept
    | simp (maxDischargeDepth := 99) (maxSteps := 1000000) +contextual only [Module.attachAnswer_kept, Module.probeRead_kept, *]
    | with_reducible first | apply Module.firmware_kept | apply Module.attachAnswer_kept | apply Module.probeRead_kept
    | split)

theorem detach_kept (h : Hdr) (payload : List Byte) (m : Module) (hm : Memory.wf m.mem = true) :
    Memory.wf (detach h payload m).mem = true := by
  unfold detach
  repeat' (first
    | with_reducible assumption
    | with_reducible first | refine ite_kept ?_ ?_ | refine foldl_kept _ _ ?_ ?_ | refine foldl_kept2 _ _ ?_ ?_ | refine foldl_kept22 _ _ ?_ ?_ | refine foldl_kept222 _ _ ?_ ?_
    | intro _
    | with_reducible apply Module.gateSession_kept
    | simp (maxDischargeDepth := 99) (maxSteps := 1000000) +contextual only [Module.answer_kept, Module.endSession_kept, Module.send_kept, *])

theorem keepalive_kept (h : Hdr) (payload : List Byte) (m : Module) (hm : Memory.wf m.mem = true) :
    Memory.wf (keepalive h payload m).mem = true := by
  unfold keepalive
  repeat' (first
    | with_reducible assumption
    | with_reducible first | refine ite_kept ?_ ?_ | refine foldl_kept _ _ ?_ ?_ | refine foldl_kept2 _ _ ?_ ?_ | refine foldl_kept22 _ _ ?_ ?_ | refine foldl_kept222 _ _ ?_ ?_
    | intro _
    | with_reducible apply Module.gateSession_kept
    | simp (maxDischargeDepth := 99) (maxSteps := 1000000) +contextual only [Module.answerIf_kept, *])

theorem sessionKeepaliveTimeout_kept (n : Fin 256) (m : Module) (hm : Memory.wf m.mem = true) :
    Memory.wf (sessionKeepaliveTimeout n m).mem = true := by
  unfold sessionKeepaliveTimeout
  repeat' (first
    | with_reducible assumption
    | with_reducible first | refine ite_kept ?_ ?_ | refine foldl_kept _ _ ?_ ?_ | refine foldl_kept2 _ _ ?_ ?_ | refine foldl_kept22 _ _ ?_ ?_ | refine foldl_kept222 _ _ ?_ ?_
    | intro _
    | simp (maxDischargeDepth := 99) (maxSteps := 1000000) +contextual only [Module.open__kept, Module.endSession_kept, *])

theorem doorbell_kept (h : Hdr) (b : List Byte) (m : Module) (hm : Memory.wf m.mem = true) :
    Memory.wf (doorbell h b m).mem = true := by
  unfold doorbell
  repeat' (first
    | with_reducible assumption
    | with_reducible first | refine ite_kept ?_ ?_ | refine foldl_kept _ _ ?_ ?_ | refine foldl_kept2 _ _ ?_ ?_ | refine foldl_kept22 _ _ ?_ ?_ | refine foldl_kept222 _ _ ?_ ?_
    | intro _
    | with_reducible apply Module.gateSession_kept
    | simp (maxDischargeDepth := 99) (maxSteps := 1000000) +contextual only [Module.answer_kept, Module.setSession_kept, Module.answerIf_kept, *])

theorem Module.takeEntry_kept (m : Module) (n : Nat) (s : Session) (b : List Byte) (hm : Memory.wf m.mem = true) :
    Memory.wf (Module.takeEntry m n s b).mem = true := by
  unfold Module.takeEntry
  repeat' (first
    | with_reducible assumption
    | with_reducible first | refine ite_kept ?_ ?_ | refine foldl_kept _ _ ?_ ?_ | refine foldl_kept2 _ _ ?_ ?_ | refine foldl_kept22 _ _ ?_ ?_ | refine foldl_kept222 _ _ ?_ ?_
    | intro _
    | simp (maxDischargeDepth := 99) (maxSteps := 1000000) +contextual only [Module.setSession_kept, *])

theorem Module.ringRead_kept (m : Module) (n : Nat) (s : Session) (answered : Bool) (hm : Memory.wf m.mem = true) :
    Memory.wf (Module.ringRead m n s answered).mem = true := by
  unfold Module.ringRead
  repeat' (first
    | with_reducible assumption
    | with_reducible first | refine ite_kept ?_ ?_ | refine foldl_kept _ _ ?_ ?_ | refine foldl_kept2 _ _ ?_ ?_ | refine foldl_kept22 _ _ ?_ ?_ | refine foldl_kept222 _ _ ?_ ?_
    | intro _
    | simp (maxDischargeDepth := 99) (maxSteps := 1000000) +contextual only [Module.setSession_kept, Module.request_kept, *])

theorem submissionEntryTake_kept (n : Fin 256) (entry : Remote) (m : Module) (hm : Memory.wf m.mem = true) :
    Memory.wf (submissionEntryTake n entry m).mem = true := by
  unfold submissionEntryTake
  repeat' (first
    | with_reducible assumption
    | with_reducible first | refine ite_kept ?_ ?_ | refine foldl_kept _ _ ?_ ?_ | refine foldl_kept2 _ _ ?_ ?_ | refine foldl_kept22 _ _ ?_ ?_ | refine foldl_kept222 _ _ ?_ ?_
    | intro _
    | simp (maxDischargeDepth := 99) (maxSteps := 1000000) +contextual only [Module.takeEntry_kept, Module.ringRead_kept, Module.setSession_kept, Module.endSession_kept, *]
    | with_reducible first | apply Module.takeEntry_kept | apply Module.ringRead_kept | apply Module.setSession_kept | apply Module.endSession_kept
    | split)

theorem nop_kept (h : CmdHdr) (m : Module) (hm : Memory.wf m.mem = true) :
    Memory.wf (nop h m).mem = true := by
  unfold nop
  repeat' (first
    | with_reducible assumption
    | with_reducible first | refine ite_kept ?_ ?_ | refine foldl_kept _ _ ?_ ?_ | refine foldl_kept2 _ _ ?_ ?_ | refine foldl_kept22 _ _ ?_ ?_ | refine foldl_kept222 _ _ ?_ ?_
    | intro _
    | with_reducible apply Module.command_kept
    | simp (maxDischargeDepth := 99) (maxSteps := 1000000) +contextual only [Module.complete_kept, *])

theorem reservedOpcode_kept (h : CmdHdr) (opcode : Byte) (m : Module) (hm : Memory.wf m.mem = true) :
    Memory.wf (reservedOpcode h opcode m).mem = true := by
  unfold reservedOpcode
  repeat' (first
    | with_reducible assumption
    | with_reducible first | refine ite_kept ?_ ?_ | refine foldl_kept _ _ ?_ ?_ | refine foldl_kept2 _ _ ?_ ?_ | refine foldl_kept22 _ _ ?_ ?_ | refine foldl_kept222 _ _ ?_ ?_
    | intro _
    | with_reducible apply Module.command_kept
    | simp (maxDischargeDepth := 99) (maxSteps := 1000000) +contextual only [Module.complete_kept, *])

theorem setEvents_kept (h : CmdHdr) (mask : Word) (m : Module) (hm : Memory.wf m.mem = true) :
    Memory.wf (setEvents h mask m).mem = true := by
  unfold setEvents
  repeat' (first
    | with_reducible assumption
    | with_reducible first | refine ite_kept ?_ ?_ | refine foldl_kept _ _ ?_ ?_ | refine foldl_kept2 _ _ ?_ ?_ | refine foldl_kept22 _ _ ?_ ?_ | refine foldl_kept222 _ _ ?_ ?_
    | intro _
    | with_reducible apply Module.command_kept
    | simp (maxDischargeDepth := 99) (maxSteps := 1000000) +contextual only [Module.complete_kept, *])

theorem Module.settleCompl_kept (m : Module) (n : Nat) (s : Session) (e : Compl) (hm : Memory.wf m.mem = true) :
    Memory.wf (Module.settleCompl m n s e).mem = true := by
  unfold Module.settleCompl
  repeat' (first
    | with_reducible assumption
    | with_reducible first | refine ite_kept ?_ ?_ | refine foldl_kept _ _ ?_ ?_ | refine foldl_kept2 _ _ ?_ ?_ | refine foldl_kept22 _ _ ?_ ?_ | refine foldl_kept222 _ _ ?_ ?_
    | intro _
    | simp (maxDischargeDepth := 99) (maxSteps := 1000000) +contextual only [Module.setJobs_kept, Module.setFills_kept, *]
    | with_reducible first | apply Module.setJobs_kept | apply Module.setFills_kept
    | split)

theorem completionWrite_kept (n : Fin 256) (m : Module) (hm : Memory.wf m.mem = true) :
    Memory.wf (completionWrite n m).mem = true := by
  unfold completionWrite
  repeat' (first
    | with_reducible assumption
    | with_reducible first | refine ite_kept ?_ ?_ | refine foldl_kept _ _ ?_ ?_ | refine foldl_kept2 _ _ ?_ ?_ | refine foldl_kept22 _ _ ?_ ?_ | refine foldl_kept222 _ _ ?_ ?_
    | intro _
    | with_reducible apply Module.firmware_kept
    | simp (maxDischargeDepth := 99) (maxSteps := 1000000) +contextual only [Module.setSession_kept, Module.settleCompl_kept, Module.writeCompl_kept, ite_kept, *]
    | with_reducible first | apply Module.firmware_kept | apply Module.setSession_kept | apply Module.settleCompl_kept | apply Module.writeCompl_kept
    | split)

theorem eventsLost_kept (n : Fin 256) (m : Module) (hm : Memory.wf m.mem = true) :
    Memory.wf (eventsLost n m).mem = true := by
  unfold eventsLost
  repeat' (first
    | with_reducible assumption
    | with_reducible first | refine ite_kept ?_ ?_ | refine foldl_kept _ _ ?_ ?_ | refine foldl_kept2 _ _ ?_ ?_ | refine foldl_kept22 _ _ ?_ ?_ | refine foldl_kept222 _ _ ?_ ?_
    | intro _
    | simp (maxDischargeDepth := 99) (maxSteps := 1000000) +contextual only [Module.writeLost_kept, *])

theorem notify_kept (n : Fin 256) (m : Module) (hm : Memory.wf m.mem = true) :
    Memory.wf (notify n m).mem = true := by
  unfold notify
  repeat' (first
    | with_reducible assumption
    | with_reducible first | refine ite_kept ?_ ?_ | refine foldl_kept _ _ ?_ ?_ | refine foldl_kept2 _ _ ?_ ?_ | refine foldl_kept22 _ _ ?_ ?_ | refine foldl_kept222 _ _ ?_ ?_
    | intro _
    | with_reducible apply Module.firmware_kept
    | simp (maxDischargeDepth := 99) (maxSteps := 1000000) +contextual only [Module.tick_kept, Module.setSession_kept, Module.sendSession_kept, *]
    | with_reducible first | apply Module.firmware_kept | apply Module.tick_kept | apply Module.setSession_kept | apply Module.sendSession_kept
    | split)

theorem journalRead_kept (h : Hdr) (b : List Byte) (m : Module) (hm : Memory.wf m.mem = true) :
    Memory.wf (journalRead h b m).mem = true := by
  unfold journalRead
  repeat' (first
    | with_reducible assumption
    | with_reducible first | refine ite_kept ?_ ?_ | refine foldl_kept _ _ ?_ ?_ | refine foldl_kept2 _ _ ?_ ?_ | refine foldl_kept22 _ _ ?_ ?_ | refine foldl_kept222 _ _ ?_ ?_
    | intro _
    | with_reducible apply Module.gateSession_kept
    | simp (maxDischargeDepth := 99) (maxSteps := 1000000) +contextual only [Module.answer_kept, *])

theorem ywpFrameDiscard_kept (port : Fin 2) (frame : List Byte) (m : Module) (hm : Memory.wf m.mem = true) :
    Memory.wf (ywpFrameDiscard port frame m).mem = true := by
  unfold ywpFrameDiscard
  repeat' (first
    | with_reducible assumption
    | with_reducible first | refine ite_kept ?_ ?_ | refine foldl_kept _ _ ?_ ?_ | refine foldl_kept2 _ _ ?_ ?_ | refine foldl_kept22 _ _ ?_ ?_ | refine foldl_kept222 _ _ ?_ ?_
    | intro _
    | simp (maxDischargeDepth := 99) (maxSteps := 1000000) +contextual only [Module.popRx_kept, *])

theorem arpRequest_kept (port : Fin 2) (target : Word) (sender : Word) (m : Module) (hm : Memory.wf m.mem = true) :
    Memory.wf (arpRequest port target sender m).mem = true := by
  unfold arpRequest
  repeat' (first
    | with_reducible assumption
    | with_reducible first | refine ite_kept ?_ ?_ | refine foldl_kept _ _ ?_ ?_ | refine foldl_kept2 _ _ ?_ ?_ | refine foldl_kept22 _ _ ?_ ?_ | refine foldl_kept222 _ _ ?_ ?_
    | intro _
    | simp (maxDischargeDepth := 99) (maxSteps := 1000000) +contextual only [Module.popRx_kept, Module.emit_kept, *])

end Sys2Proof.Machine
end

