-- ==== Sys2Proof/Laws/Kept/Network.lean ====
section
/-!
SUPPORT. Every operation of Machine/Network.lean keeps the canonical form of memory.
-/
namespace Sys2Proof.Machine

theorem Module.filterPass_kept (m : Module) (i : Nat) (f : RxFrame) (hm : Memory.wf m.mem = true) :
    Memory.wf (Module.filterPass m i f).2.mem = true := by
  unfold Module.filterPass
  repeat' (first
    | with_reducible assumption
    | with_reducible first | refine ite_kept ?_ ?_ | refine foldl_kept _ _ ?_ ?_ | refine foldl_kept2 _ _ ?_ ?_ | refine foldl_kept22 _ _ ?_ ?_ | refine foldl_kept222 _ _ ?_ ?_
    | intro _
    | simp (maxDischargeDepth := 99) (maxSteps := 1000000) +contextual only [Module.tick_kept, *]
    | with_reducible apply Module.tick_kept
    | split)

theorem Module.recover_kept (m : Module) (f : RxFrame) (hm : Memory.wf m.mem = true) :
    Memory.wf (Module.recover m f).2.mem = true := by
  unfold Module.recover
  repeat' (first
    | with_reducible assumption
    | with_reducible first | refine ite_kept ?_ ?_ | refine foldl_kept _ _ ?_ ?_ | refine foldl_kept2 _ _ ?_ ?_ | refine foldl_kept22 _ _ ?_ ?_ | refine foldl_kept222 _ _ ?_ ?_
    | intro _
    | simp (maxDischargeDepth := 99) (maxSteps := 1000000) +contextual only [*]
    | split)

theorem netRxFrame_kept (port : Fin 2) (f : RxFrame) (m : Module) (hm : Memory.wf m.mem = true) :
    Memory.wf (netRxFrame port f m).mem = true := by
  unfold netRxFrame
  repeat' (first
    | with_reducible assumption
    | with_reducible first | refine ite_kept ?_ ?_ | refine foldl_kept _ _ ?_ ?_ | refine foldl_kept2 _ _ ?_ ?_ | refine foldl_kept22 _ _ ?_ ?_ | refine foldl_kept222 _ _ ?_ ?_
    | intro _
    | (rename_i heq; have hq := congrArg (fun z => z.2.2) heq; dsimp only at hq; subst hq; clear heq)
    | (rename_i heq; have hq := congrArg Prod.snd heq; dsimp only at hq; subst hq; clear heq)
    | simp (maxDischargeDepth := 99) (maxSteps := 1000000) +contextual only [Module.count_kept, Module.filterPass_kept, *]
    | with_reducible first | apply Module.count_kept | apply Module.filterPass_kept | apply Module.recover_kept | apply Module.setNetPort_kept
    | split)

theorem linkUp_kept (port : Fin 2) (fast : Bool) (m : Module) (hm : Memory.wf m.mem = true) :
    Memory.wf (linkUp port fast m).mem = true := by
  unfold linkUp
  repeat' (first
    | with_reducible assumption
    | with_reducible first | refine ite_kept ?_ ?_ | refine foldl_kept _ _ ?_ ?_ | refine foldl_kept2 _ _ ?_ ?_ | refine foldl_kept22 _ _ ?_ ?_ | refine foldl_kept222 _ _ ?_ ?_
    | intro _
    | simp (maxDischargeDepth := 99) (maxSteps := 1000000) +contextual only [Module.setFld_kept, Module.raise_kept, *])

theorem Module.emitFrames_kept (m : Module) (l : List PlanFrame) (hm : Memory.wf m.mem = true) :
    Memory.wf (Module.emitFrames m l).mem = true := by
  unfold Module.emitFrames
  repeat' (first
    | with_reducible assumption
    | with_reducible first | refine ite_kept ?_ ?_ | refine foldl_kept _ _ ?_ ?_ | refine foldl_kept2 _ _ ?_ ?_ | refine foldl_kept22 _ _ ?_ ?_ | refine foldl_kept222 _ _ ?_ ?_
    | intro _
    | simp (maxDischargeDepth := 99) (maxSteps := 1000000) +contextual only [Module.emit_kept, *])

theorem linkDown_kept (port : Fin 2) (m : Module) (hm : Memory.wf m.mem = true) :
    Memory.wf (linkDown port m).mem = true := by
  unfold linkDown
  repeat' (first
    | with_reducible assumption
    | with_reducible first | refine ite_kept ?_ ?_ | refine foldl_kept _ _ ?_ ?_ | refine foldl_kept2 _ _ ?_ ?_ | refine foldl_kept22 _ _ ?_ ?_ | refine foldl_kept222 _ _ ?_ ?_
    | intro _
    | simp (maxDischargeDepth := 99) (maxSteps := 1000000) +contextual only [Module.pick_kept, Module.emitFrames_kept, Module.setNetPort_kept, *]
    | with_reducible first | apply Module.pick_kept | apply Module.emitFrames_kept | apply Module.setNetPort_kept | apply Module.setFld_kept | apply Module.fault_kept
    | split)

theorem preemptionVerification_kept (port : Fin 2) (good : Bool) (m : Module) (hm : Memory.wf m.mem = true) :
    Memory.wf (preemptionVerification port good m).mem = true := by
  unfold preemptionVerification
  repeat' (first
    | with_reducible assumption
    | with_reducible first | refine ite_kept ?_ ?_ | refine foldl_kept _ _ ?_ ?_ | refine foldl_kept2 _ _ ?_ ?_ | refine foldl_kept22 _ _ ?_ ?_ | refine foldl_kept222 _ _ ?_ ?_
    | intro _
    | simp (maxDischargeDepth := 99) (maxSteps := 1000000) +contextual only [Module.setFld_kept, *])

theorem sequenceRecoveryReset_kept (k : Fin 128) (m : Module) (hm : Memory.wf m.mem = true) :
    Memory.wf (sequenceRecoveryReset k m).mem = true := by
  unfold sequenceRecoveryReset
  repeat' (first
    | with_reducible assumption)

theorem peerDelayMeasurement_kept (port : Fin 2) (delay : Nat) (m : Module) (hm : Memory.wf m.mem = true) :
    Memory.wf (peerDelayMeasurement port delay m).mem = true := by
  unfold peerDelayMeasurement
  repeat' (first
    | with_reducible assumption
    | with_reducible first | refine ite_kept ?_ ?_ | refine foldl_kept _ _ ?_ ?_ | refine foldl_kept2 _ _ ?_ ?_ | refine foldl_kept22 _ _ ?_ ?_ | refine foldl_kept222 _ _ ?_ ?_
    | intro _
    | simp (maxDischargeDepth := 99) (maxSteps := 1000000) +contextual only [Module.setNetPort_kept, *])

theorem Module.setRole_kept (m : Module) (p : Nat) (r : Nat) (hm : Memory.wf m.mem = true) :
    Memory.wf (Module.setRole m p r).mem = true := by
  unfold Module.setRole
  repeat' (first
    | with_reducible assumption
    | with_reducible first | refine ite_kept ?_ ?_ | refine foldl_kept _ _ ?_ ?_ | refine foldl_kept2 _ _ ?_ ?_ | refine foldl_kept22 _ _ ?_ ?_ | refine foldl_kept222 _ _ ?_ ?_
    | intro _
    | simp (maxDischargeDepth := 99) (maxSteps := 1000000) +contextual only [Module.setFld_kept, *])

theorem Module.becomeSlave_kept (m : Module) (p : Nat) (hm : Memory.wf m.mem = true) :
    Memory.wf (Module.becomeSlave m p).mem = true := by
  unfold Module.becomeSlave
  repeat' (first
    | with_reducible assumption
    | with_reducible first | refine ite_kept ?_ ?_ | refine foldl_kept _ _ ?_ ?_ | refine foldl_kept2 _ _ ?_ ?_ | refine foldl_kept22 _ _ ?_ ?_ | refine foldl_kept222 _ _ ?_ ?_
    | intro _
    | simp (maxDischargeDepth := 99) (maxSteps := 1000000) +contextual only [Module.setFld_kept, Module.setRole_kept, Module.raise_kept, *])

theorem Module.slew_kept (m : Module) (o : Int) (hm : Memory.wf m.mem = true) :
    Memory.wf (Module.slew m o).mem = true := by
  unfold Module.slew
  repeat' (first
    | with_reducible assumption
    | with_reducible first | refine ite_kept ?_ ?_ | refine foldl_kept _ _ ?_ ?_ | refine foldl_kept2 _ _ ?_ ?_ | refine foldl_kept22 _ _ ?_ ?_ | refine foldl_kept222 _ _ ?_ ?_
    | intro _
    | simp (maxDischargeDepth := 99) (maxSteps := 1000000) +contextual only [Module.tick_kept, *])

theorem gptpSyncReceive_kept (port : Fin 2) (domain : Nat) (o : Int) (m : Module) (hm : Memory.wf m.mem = true) :
    Memory.wf (gptpSyncReceive port domain o m).mem = true := by
  unfold gptpSyncReceive
  repeat' (first
    | with_reducible assumption
    | with_reducible first | refine ite_kept ?_ ?_ | refine foldl_kept _ _ ?_ ?_ | refine foldl_kept2 _ _ ?_ ?_ | refine foldl_kept22 _ _ ?_ ?_ | refine foldl_kept222 _ _ ?_ ?_
    | intro _
    | simp (maxDischargeDepth := 99) (maxSteps := 1000000) +contextual only [Module.setNetPort_kept, Module.setFld_kept, Module.slew_kept, Module.setRole_kept, Module.becomeSlave_kept, ite_kept, *])

theorem gptpSyncTimeout_kept (port : Fin 2) (m : Module) (hm : Memory.wf m.mem = true) :
    Memory.wf (gptpSyncTimeout port m).mem = true := by
  unfold gptpSyncTimeout
  repeat' (first
    | with_reducible assumption
    | with_reducible first | refine ite_kept ?_ ?_ | refine foldl_kept _ _ ?_ ?_ | refine foldl_kept2 _ _ ?_ ?_ | refine foldl_kept22 _ _ ?_ ?_ | refine foldl_kept222 _ _ ?_ ?_
    | intro _
    | simp (maxDischargeDepth := 99) (maxSteps := 1000000) +contextual only [Module.setNetPort_kept, Module.becomeSlave_kept, Module.setRole_kept, Module.setFld_kept, Module.fault_kept, *])

theorem gptpHoldoverExpiry_kept (m : Module) (hm : Memory.wf m.mem = true) :
    Memory.wf (gptpHoldoverExpiry m).mem = true := by
  unfold gptpHoldoverExpiry
  repeat' (first
    | with_reducible assumption
    | with_reducible first | refine ite_kept ?_ ?_ | refine foldl_kept _ _ ?_ ?_ | refine foldl_kept2 _ _ ?_ ?_ | refine foldl_kept22 _ _ ?_ ?_ | refine foldl_kept222 _ _ ?_ ?_
    | intro _
    | simp (maxDischargeDepth := 99) (maxSteps := 1000000) +contextual only [Module.setFld_kept, *])

theorem gptpClockStep_kept (m : Module) (hm : Memory.wf m.mem = true) :
    Memory.wf (gptpClockStep m).mem = true := by
  unfold gptpClockStep
  repeat' (first
    | with_reducible assumption
    | with_reducible first | refine ite_kept ?_ ?_ | refine foldl_kept _ _ ?_ ?_ | refine foldl_kept2 _ _ ?_ ?_ | refine foldl_kept22 _ _ ?_ ?_ | refine foldl_kept222 _ _ ?_ ?_
    | intro _
    | simp (maxDischargeDepth := 99) (maxSteps := 1000000) +contextual only [implies_true, reset_kept, Memory.wf_set, Memory.wf_filter, Memory.wf_nil, ite_kept, foldl_kept, foldl_kept2, foldl_kept22, foldl_kept222, *]
    | split)

theorem qbvCycleStart_kept (port : Fin 2) (m : Module) (hm : Memory.wf m.mem = true) :
    Memory.wf (qbvCycleStart port m).mem = true := by
  unfold qbvCycleStart
  repeat' (first
    | with_reducible assumption
    | with_reducible first | refine ite_kept ?_ ?_ | refine foldl_kept _ _ ?_ ?_ | refine foldl_kept2 _ _ ?_ ?_ | refine foldl_kept22 _ _ ?_ ?_ | refine foldl_kept222 _ _ ?_ ?_
    | intro _
    | simp (maxDischargeDepth := 99) (maxSteps := 1000000) +contextual only [Module.setNetPort_kept, *])

theorem planWindowOpen_kept (port : Fin 2) (c : PortId) (m : Module) (hm : Memory.wf m.mem = true) :
    Memory.wf (planWindowOpen port c m).mem = true := by
  unfold planWindowOpen
  repeat' (first
    | with_reducible assumption
    | with_reducible first | refine ite_kept ?_ ?_ | refine foldl_kept _ _ ?_ ?_ | refine foldl_kept2 _ _ ?_ ?_ | refine foldl_kept22 _ _ ?_ ?_ | refine foldl_kept222 _ _ ?_ ?_
    | intro _
    | simp (maxDischargeDepth := 99) (maxSteps := 1000000) +contextual only [Module.setNetPort_kept, *])

theorem planWindowEnd_kept (port : Fin 2) (c : PortId) (m : Module) (hm : Memory.wf m.mem = true) :
    Memory.wf (planWindowEnd port c m).mem = true := by
  unfold planWindowEnd
  repeat' (first
    | with_reducible assumption
    | with_reducible first | refine ite_kept ?_ ?_ | refine foldl_kept _ _ ?_ ?_ | refine foldl_kept2 _ _ ?_ ?_ | refine foldl_kept22 _ _ ?_ ?_ | refine foldl_kept222 _ _ ?_ ?_
    | intro _
    | simp (maxDischargeDepth := 99) (maxSteps := 1000000) +contextual only [Module.emitFrames_kept, Module.setNetPort_kept, Module.count_kept, Module.dmaGoOn_kept, *]
    | with_reducible first | apply Module.emitFrames_kept | apply Module.setNetPort_kept | apply Module.count_kept | apply Module.dmaGoOn_kept
    | split)

theorem Module.closeWindow_kept (m : Module) (n : Nat) (hm : Memory.wf m.mem = true) :
    Memory.wf (Module.closeWindow m n).mem = true := by
  unfold Module.closeWindow
  repeat' (first
    | with_reducible assumption
    | with_reducible first | refine ite_kept ?_ ?_ | refine foldl_kept _ _ ?_ ?_ | refine foldl_kept2 _ _ ?_ ?_ | refine foldl_kept22 _ _ ?_ ?_ | refine foldl_kept222 _ _ ?_ ?_
    | intro _
    | simp (maxDischargeDepth := 99) (maxSteps := 1000000) +contextual only [Module.setFld_kept, *])

theorem Module.closeAllWindows_kept (m : Module) (hm : Memory.wf m.mem = true) :
    Memory.wf (Module.closeAllWindows m).mem = true := by
  unfold Module.closeAllWindows
  repeat' (first
    | with_reducible assumption
    | with_reducible first | refine ite_kept ?_ ?_ | refine foldl_kept _ _ ?_ ?_ | refine foldl_kept2 _ _ ?_ ?_ | refine foldl_kept22 _ _ ?_ ?_ | refine foldl_kept222 _ _ ?_ ?_
    | intro _
    | simp (maxDischargeDepth := 99) (maxSteps := 1000000) +contextual only [Module.closeWindow_kept, *])

theorem Module.winClosedCount_kept (m : Module) (h : Hdr) (w : Nat) (gen : Nat) (hm : Memory.wf m.mem = true) :
    Memory.wf (Module.winClosedCount m h w gen).mem = true := by
  unfold Module.winClosedCount
  repeat' (first
    | with_reducible assumption
    | with_reducible first | refine ite_kept ?_ ?_ | refine foldl_kept _ _ ?_ ?_ | refine foldl_kept2 _ _ ?_ ?_ | refine foldl_kept22 _ _ ?_ ?_ | refine foldl_kept222 _ _ ?_ ?_
    | intro _
    | simp (maxDischargeDepth := 99) (maxSteps := 1000000) +contextual only [Module.count_kept, *])

theorem Module.arriveAt_kept (m : Module) (w : Nat) (arrive : Bool) (hm : Memory.wf m.mem = true) :
    Memory.wf (Module.arriveAt m w arrive).mem = true := by
  unfold Module.arriveAt
  repeat' (first
    | with_reducible assumption
    | with_reducible first | refine ite_kept ?_ ?_ | refine foldl_kept _ _ ?_ ?_ | refine foldl_kept2 _ _ ?_ ?_ | refine foldl_kept22 _ _ ?_ ?_ | refine foldl_kept222 _ _ ?_ ?_
    | intro _
    | simp (maxDischargeDepth := 99) (maxSteps := 1000000) +contextual only [Module.guestAdd_kept, *])

theorem Module.sendCredit_kept (m : Module) (port : Fin 2) (dest : Peer) (dst : W16) (w : Nat) (gen : Nat) (flags : Nat) (transfer : Word) (applied : Nat) (limit : Nat) (hm : Memory.wf m.mem = true) :
    Memory.wf (Module.sendCredit m port dest dst w gen flags transfer applied limit).mem = true := by
  unfold Module.sendCredit
  repeat' (first
    | with_reducible assumption
    | with_reducible first | refine ite_kept ?_ ?_ | refine foldl_kept _ _ ?_ ?_ | refine foldl_kept2 _ _ ?_ ?_ | refine foldl_kept22 _ _ ?_ ?_ | refine foldl_kept222 _ _ ?_ ?_
    | intro _
    | simp (maxDischargeDepth := 99) (maxSteps := 1000000) +contextual only [Module.originate_kept, *])

theorem Module.mcReceive_kept (m : Module) (h : Hdr) (w : Nat) (gen : Nat) (flags : Nat) (transfer : Word) (pos : Nat) (addr : Nat) (data : List Byte) (hm : Memory.wf m.mem = true) :
    Memory.wf (Module.mcReceive m h w gen flags transfer pos addr data).mem = true := by
  unfold Module.mcReceive
  repeat' (first
    | with_reducible assumption
    | with_reducible first | refine ite_kept ?_ ?_ | refine foldl_kept _ _ ?_ ?_ | refine foldl_kept2 _ _ ?_ ?_ | refine foldl_kept22 _ _ ?_ ?_ | refine foldl_kept222 _ _ ?_ ?_
    | intro _
    | simp (maxDischargeDepth := 99) (maxSteps := 1000000) +contextual only [Module.store_kept, Module.arriveAt_kept, Module.sendCredit_kept, ite_kept, *])

theorem winWrite_kept (h : Hdr) (b : List Byte) (m : Module) (hm : Memory.wf m.mem = true) :
    Memory.wf (winWrite h b m).mem = true := by
  unfold winWrite
  repeat' (first
    | with_reducible assumption
    | with_reducible first | refine ite_kept ?_ ?_ | refine foldl_kept _ _ ?_ ?_ | refine foldl_kept2 _ _ ?_ ?_ | refine foldl_kept22 _ _ ?_ ?_ | refine foldl_kept222 _ _ ?_ ?_
    | intro _
    | with_reducible apply Module.gate_kept
    | simp (maxDischargeDepth := 99) (maxSteps := 1000000) +contextual only [Module.answerIf_kept, Module.winClosedCount_kept, Module.mcReceive_kept, Module.meetPartly_kept, Module.reportPartly_kept, Module.store_kept, Module.arriveAt_kept, ite_kept, *]
    | with_reducible first | apply Module.write_kept | apply Module.gate_kept | apply Module.answerIf_kept | apply Module.winClosedCount_kept | apply Module.mcReceive_kept | apply Module.meetPartly_kept | apply Module.reportPartly_kept | apply Module.store_kept | apply Module.arriveAt_kept
    | split)

theorem winRead_kept (h : Hdr) (b : List Byte) (m : Module) (hm : Memory.wf m.mem = true) :
    Memory.wf (winRead h b m).mem = true := by
  unfold winRead
  repeat' (first
    | with_reducible assumption
    | with_reducible first | refine ite_kept ?_ ?_ | refine foldl_kept _ _ ?_ ?_ | refine foldl_kept2 _ _ ?_ ?_ | refine foldl_kept22 _ _ ?_ ?_ | refine foldl_kept222 _ _ ?_ ?_
    | intro _
    | with_reducible apply Module.gate_kept
    | simp (maxDischargeDepth := 99) (maxSteps := 1000000) +contextual only [Module.answerIf_kept, Module.winClosedCount_kept, Module.readMeets_kept, ite_kept, *]
    | with_reducible first | apply Module.gate_kept | apply Module.answerIf_kept | apply Module.winClosedCount_kept | apply Module.readMeets_kept
    | split)

theorem Module.syncRemember_kept (m : Module) (h : Hdr) (st : Nat) (hm : Memory.wf m.mem = true) :
    Memory.wf (Module.syncRemember m h st).mem = true := by
  unfold Module.syncRemember
  repeat' (first
    | with_reducible assumption)

theorem winSync_kept (h : Hdr) (b : List Byte) (m : Module) (hm : Memory.wf m.mem = true) :
    Memory.wf (winSync h b m).mem = true := by
  unfold winSync
  repeat' (first
    | with_reducible assumption
    | with_reducible first | refine ite_kept ?_ ?_ | refine foldl_kept _ _ ?_ ?_ | refine foldl_kept2 _ _ ?_ ?_ | refine foldl_kept22 _ _ ?_ ?_ | refine foldl_kept222 _ _ ?_ ?_
    | intro _
    | with_reducible apply Module.gate_kept
    | simp (maxDischargeDepth := 99) (maxSteps := 1000000) +contextual only [Module.count_kept, Module.answerIf_kept, Module.winClosedCount_kept, Module.syncRemember_kept, Module.addSync_kept, ite_kept, *]
    | with_reducible first | apply Module.gate_kept | apply Module.count_kept | apply Module.answerIf_kept | apply Module.winClosedCount_kept | apply Module.syncRemember_kept | apply Module.addSync_kept
    | split)

theorem Module.bindRefuse_kept (m : Module) (h : Hdr) (hm : Memory.wf m.mem = true) :
    Memory.wf (Module.bindRefuse m h).mem = true := by
  unfold Module.bindRefuse
  repeat' (first
    | with_reducible assumption
    | with_reducible first | refine ite_kept ?_ ?_ | refine foldl_kept _ _ ?_ ?_ | refine foldl_kept2 _ _ ?_ ?_ | refine foldl_kept22 _ _ ?_ ?_ | refine foldl_kept222 _ _ ?_ ?_
    | intro _
    | simp (maxDischargeDepth := 99) (maxSteps := 1000000) +contextual only [Module.answer_kept, *])

theorem Module.sendProbes_kept (m : Module) (b : List Byte) (rs : List Receiver) (probes : List Probe) (hm : Memory.wf m.mem = true) :
    Memory.wf (Module.sendProbes m b rs probes).mem = true := by
  unfold Module.sendProbes
  repeat' (first
    | with_reducible assumption
    | with_reducible first | refine ite_kept ?_ ?_ | refine foldl_kept _ _ ?_ ?_ | refine foldl_kept2 _ _ ?_ ?_ | refine foldl_kept22 _ _ ?_ ?_ | refine foldl_kept222 _ _ ?_ ?_
    | intro _
    | simp (maxDischargeDepth := 99) (maxSteps := 1000000) +contextual only [Module.request_kept, *]
    | with_reducible apply Module.request_kept
    | split)

theorem Module.reportBinding_kept (m : Module) (w : Nat) (hm : Memory.wf m.mem = true) :
    Memory.wf (Module.reportBinding m w).mem = true := by
  unfold Module.reportBinding
  repeat' (first
    | with_reducible assumption
    | with_reducible first | refine ite_kept ?_ ?_ | refine foldl_kept _ _ ?_ ?_ | refine foldl_kept2 _ _ ?_ ?_ | refine foldl_kept22 _ _ ?_ ?_ | refine foldl_kept222 _ _ ?_ ?_
    | intro _
    | simp (maxDischargeDepth := 99) (maxSteps := 1000000) +contextual only [Module.wr_kept, Module.setFld_kept, *]
    | with_reducible first | apply Module.wr_kept | apply Module.setFld_kept
    | split)

theorem Module.bumpBind_kept (m : Module) (w : Nat) (hm : Memory.wf m.mem = true) :
    Memory.wf (Module.bumpBind m w).mem = true := by
  unfold Module.bumpBind
  repeat' (first
    | with_reducible assumption
    | with_reducible first | refine ite_kept ?_ ?_ | refine foldl_kept _ _ ?_ ?_ | refine foldl_kept2 _ _ ?_ ?_ | refine foldl_kept22 _ _ ?_ ?_ | refine foldl_kept222 _ _ ?_ ?_
    | intro _
    | simp (maxDischargeDepth := 99) (maxSteps := 1000000) +contextual only [Module.setFld_kept, *])

theorem Module.gateBind_kept (m : Module) (h : Hdr) (lenOk : Bool) (k : Module → Module) (hm : Memory.wf m.mem = true) (hk : ∀ (x0 : Module), Memory.wf x0.mem = true → Memory.wf (k x0).mem = true) :
    Memory.wf (Module.gateBind m h lenOk k).mem = true := by
  unfold Module.gateBind
  repeat' (first
    | with_reducible assumption
    | with_reducible first | refine ite_kept ?_ ?_ | refine foldl_kept _ _ ?_ ?_ | refine foldl_kept2 _ _ ?_ ?_ | refine foldl_kept22 _ _ ?_ ?_ | refine foldl_kept222 _ _ ?_ ?_
    | intro _
    | with_reducible apply Module.gateSession_kept
    | simp (maxDischargeDepth := 99) (maxSteps := 1000000) +contextual only [Module.answer_kept, *])

theorem winBind_kept (h : Hdr) (b : List Byte) (probes : List Probe) (m : Module) (hm : Memory.wf m.mem = true) :
    Memory.wf (winBind h b probes m).mem = true := by
  unfold winBind
  repeat' (first
    | with_reducible assumption
    | with_reducible first | refine ite_kept ?_ ?_ | refine foldl_kept _ _ ?_ ?_ | refine foldl_kept2 _ _ ?_ ?_ | refine foldl_kept22 _ _ ?_ ?_ | refine foldl_kept222 _ _ ?_ ?_
    | intro _
    | with_reducible apply Module.gateBind_kept
    | simp (maxDischargeDepth := 99) (maxSteps := 1000000) +contextual only [Module.bindRefuse_kept, Module.sendProbes_kept, Module.answer_kept, Module.bumpBind_kept, Module.reportBinding_kept, *]
    | with_reducible first | apply Module.gateBind_kept | apply Module.bindRefuse_kept | apply Module.sendProbes_kept | apply Module.answer_kept | apply Module.bumpBind_kept | apply Module.reportBinding_kept
    | split)

theorem Module.finishUnbind_kept (m : Module) (w : Nat) (hm : Memory.wf m.mem = true) :
    Memory.wf (Module.finishUnbind m w).mem = true := by
  unfold Module.finishUnbind
  repeat' (first
    | with_reducible assumption
    | with_reducible first | refine ite_kept ?_ ?_ | refine foldl_kept _ _ ?_ ?_ | refine foldl_kept2 _ _ ?_ ?_ | refine foldl_kept22 _ _ ?_ ?_ | refine foldl_kept222 _ _ ?_ ?_
    | intro _
    | simp (maxDischargeDepth := 99) (maxSteps := 1000000) +contextual only [Module.bumpBind_kept, Module.reportBinding_kept, Module.answer_kept, *]
    | with_reducible first | apply Module.bumpBind_kept | apply Module.reportBinding_kept | apply Module.answer_kept
    | split)

theorem McTurn.settle_kept (x : McTurn) (hx : Memory.wf x.m.mem = true) : Memory.wf x.settle.mem = true := by
  unfold McTurn.settle
  dsimp only
  split
  · exact Module.finishUnbind_kept _ _ (McTurn.keep_kept _ hx)
  · split
    · exact Module.finishUnbind_kept _ _ (Module.dmaReturn_kept _ _ _ _ _ hx)
    · split
      · exact Module.finishUnbind_kept _ _ (Module.dmaReturn_kept _ _ _ _ _ hx)
      · exact McTurn.keep_kept _ hx

theorem winCredit_kept (h : Hdr) (b : List Byte) (m : Module) (hm : Memory.wf m.mem = true) :
    Memory.wf (winCredit h b m).mem = true := by
  unfold winCredit
  repeat' (first
    | with_reducible assumption
    | with_reducible first | refine ite_kept ?_ ?_ | refine foldl_kept _ _ ?_ ?_ | refine foldl_kept2 _ _ ?_ ?_ | refine foldl_kept22 _ _ ?_ ?_ | refine foldl_kept222 _ _ ?_ ?_
    | intro _
    | with_reducible apply Module.gate_kept
    | simp (maxDischargeDepth := 99) (maxSteps := 1000000) +contextual only [McTurn.settle_kept, Module.mcPump_kept, *]
    | with_reducible first | apply McTurn.settle_kept | apply Module.mcPump_kept | apply Module.gate_kept
    | split)

theorem multicastResend_kept (w : Fin 64) (rx : Fin 16) (m : Module) (hm : Memory.wf m.mem = true) :
    Memory.wf (multicastResend w rx m).mem = true := by
  unfold multicastResend
  repeat' (first
    | with_reducible assumption
    | with_reducible first | refine ite_kept ?_ ?_ | refine foldl_kept _ _ ?_ ?_ | refine foldl_kept2 _ _ ?_ ?_ | refine foldl_kept22 _ _ ?_ ?_ | refine foldl_kept222 _ _ ?_ ?_
    | intro _
    | simp (maxDischargeDepth := 99) (maxSteps := 1000000) +contextual only [McTurn.settle_kept, Module.mcSpan_kept, Module.count_kept, *]
    | with_reducible first | apply McTurn.settle_kept | apply Module.mcSpan_kept | apply Module.count_kept
    | split)

theorem receiverDropped_kept (w : Fin 64) (rx : Fin 16) (m : Module) (hm : Memory.wf m.mem = true) :
    Memory.wf (receiverDropped w rx m).mem = true := by
  unfold receiverDropped
  repeat' (first
    | with_reducible assumption
    | with_reducible first | refine ite_kept ?_ ?_ | refine foldl_kept _ _ ?_ ?_ | refine foldl_kept2 _ _ ?_ ?_ | refine foldl_kept22 _ _ ?_ ?_ | refine foldl_kept222 _ _ ?_ ?_
    | intro _
    | simp (maxDischargeDepth := 99) (maxSteps := 1000000) +contextual only [McTurn.settle_kept, Module.sendCredit_kept, Module.count_kept, Module.raise_kept, *]
    | with_reducible first | apply McTurn.settle_kept | apply Module.sendCredit_kept | apply Module.count_kept | apply Module.raise_kept
    | split)

theorem winUnbind_kept (h : Hdr) (b : List Byte) (m : Module) (hm : Memory.wf m.mem = true) :
    Memory.wf (winUnbind h b m).mem = true := by
  unfold winUnbind
  repeat' (first
    | with_reducible assumption
    | with_reducible first | refine ite_kept ?_ ?_ | refine foldl_kept _ _ ?_ ?_ | refine foldl_kept2 _ _ ?_ ?_ | refine foldl_kept22 _ _ ?_ ?_ | refine foldl_kept222 _ _ ?_ ?_
    | intro _
    | with_reducible apply Module.gateBind_kept
    | simp (maxDischargeDepth := 99) (maxSteps := 1000000) +contextual only [Module.bindRefuse_kept, Module.finishUnbind_kept, *]
    | with_reducible first | apply Module.gateBind_kept | apply Module.bindRefuse_kept | apply Module.finishUnbind_kept
    | split)

theorem winRefresh_kept (h : Hdr) (b : List Byte) (probes : List Probe) (m : Module) (hm : Memory.wf m.mem = true) :
    Memory.wf (winRefresh h b probes m).mem = true := by
  unfold winRefresh
  repeat' (first
    | with_reducible assumption
    | with_reducible first | refine ite_kept ?_ ?_ | refine foldl_kept _ _ ?_ ?_ | refine foldl_kept2 _ _ ?_ ?_ | refine foldl_kept22 _ _ ?_ ?_ | refine foldl_kept222 _ _ ?_ ?_
    | intro _
    | with_reducible apply Module.gateBind_kept
    | simp (maxDischargeDepth := 99) (maxSteps := 1000000) +contextual only [Module.bindRefuse_kept, Module.sendProbes_kept, Module.answer_kept, Module.reportBinding_kept, *]
    | with_reducible first | apply Module.gateBind_kept | apply Module.bindRefuse_kept | apply Module.sendProbes_kept | apply Module.answer_kept | apply Module.reportBinding_kept
    | split)

end Sys2Proof.Machine
end

