-- ==== Sys2Proof/Laws/Kept/Report.lean ====
section
/-!
SUPPORT. Every operation of Machine/Report.lean keeps the canonical form of memory.
-/
namespace Sys2Proof.Machine

theorem Module.updateCap_kept (m : Module) (hm : Memory.wf m.mem = true) :
    Memory.wf (Module.updateCap m).mem = true := by
  unfold Module.updateCap
  repeat' (first
    | with_reducible assumption
    | with_reducible first | refine ite_kept ?_ ?_ | refine foldl_kept _ _ ?_ ?_ | refine foldl_kept2 _ _ ?_ ?_ | refine foldl_kept22 _ _ ?_ ?_ | refine foldl_kept222 _ _ ?_ ?_
    | intro _
    | simp (maxDischargeDepth := 99) (maxSteps := 1000000) +contextual only [Module.setFld_kept, *])

theorem Module.reportPlanned_kept (m : Module) (hm : Memory.wf m.mem = true) :
    Memory.wf (Module.reportPlanned m).mem = true := by
  unfold Module.reportPlanned
  repeat' (first
    | with_reducible assumption
    | with_reducible first | refine ite_kept ?_ ?_ | refine foldl_kept _ _ ?_ ?_ | refine foldl_kept2 _ _ ?_ ?_ | refine foldl_kept22 _ _ ?_ ?_ | refine foldl_kept222 _ _ ?_ ?_
    | intro _
    | simp (maxDischargeDepth := 99) (maxSteps := 1000000) +contextual only [Module.setFld_kept, *])

theorem Module.writeReport_kept (m : Module) (b : Nat → List Byte) (hm : Memory.wf m.mem = true) :
    Memory.wf (Module.writeReport m b).mem = true := by
  unfold Module.writeReport
  repeat' (first
    | with_reducible assumption
    | with_reducible first | refine ite_kept ?_ ?_ | refine foldl_kept _ _ ?_ ?_ | refine foldl_kept2 _ _ ?_ ?_ | refine foldl_kept22 _ _ ?_ ?_ | refine foldl_kept222 _ _ ?_ ?_
    | intro _
    | simp (maxDischargeDepth := 99) (maxSteps := 1000000) +contextual only [Module.store_kept, *]
    | with_reducible apply Module.store_kept
    | split)

theorem Module.thermalReport_kept (m : Module) (hm : Memory.wf m.mem = true) :
    Memory.wf (Module.thermalReport m).mem = true := by
  unfold Module.thermalReport
  repeat' (first
    | with_reducible assumption
    | with_reducible first | refine ite_kept ?_ ?_ | refine foldl_kept _ _ ?_ ?_ | refine foldl_kept2 _ _ ?_ ?_ | refine foldl_kept22 _ _ ?_ ?_ | refine foldl_kept222 _ _ ?_ ?_
    | intro _
    | simp (maxDischargeDepth := 99) (maxSteps := 1000000) +contextual only [Module.writeReport_kept, *])

theorem Module.checkRisk_kept (m : Module) (hm : Memory.wf m.mem = true) :
    Memory.wf (Module.checkRisk m).mem = true := by
  unfold Module.checkRisk
  repeat' (first
    | with_reducible assumption
    | with_reducible first | refine ite_kept ?_ ?_ | refine foldl_kept _ _ ?_ ?_ | refine foldl_kept2 _ _ ?_ ?_ | refine foldl_kept22 _ _ ?_ ?_ | refine foldl_kept222 _ _ ?_ ?_
    | intro _
    | simp (maxDischargeDepth := 99) (maxSteps := 1000000) +contextual only [Module.fault_kept, Module.thermalReport_kept, *]
    | with_reducible first | apply Module.fault_kept | apply Module.thermalReport_kept
    | split)

end Sys2Proof.Machine
end

