-- ==== Sys2Proof/Laws/Kept/Sensor.lean ====
section
/-!
SUPPORT. Every operation of Machine/Sensor.lean keeps the canonical form of memory.
-/
namespace Sys2Proof.Machine

theorem Module.setPort_kept (m : Module) (p : Nat) (x : Port) (hm : Memory.wf m.mem = true) :
    Memory.wf (Module.setPort m p x).mem = true := by
  unfold Module.setPort
  repeat' (first
    | with_reducible assumption)

theorem Module.setPortState_kept (m : Module) (p : Nat) (st : Nat) (hm : Memory.wf m.mem = true) :
    Memory.wf (Module.setPortState m p st).mem = true := by
  unfold Module.setPortState
  repeat' (first
    | with_reducible assumption
    | with_reducible first | refine ite_kept ?_ ?_ | refine foldl_kept _ _ ?_ ?_ | refine foldl_kept2 _ _ ?_ ?_ | refine foldl_kept22 _ _ ?_ ?_ | refine foldl_kept222 _ _ ?_ ?_
    | intro _
    | simp (maxDischargeDepth := 99) (maxSteps := 1000000) +contextual only [Module.setFld_kept, *])

theorem Module.setCtx_kept (m : Module) (c : Nat) (x : Ctx) (hm : Memory.wf m.mem = true) :
    Memory.wf (Module.setCtx m c x).mem = true := by
  unfold Module.setCtx
  repeat' (first
    | with_reducible assumption)

theorem Module.reportEsid_kept (m : Module) (c : Nat) (k : Word) (hm : Memory.wf m.mem = true) :
    Memory.wf (Module.reportEsid m c k).mem = true := by
  unfold Module.reportEsid
  repeat' (first
    | with_reducible assumption
    | with_reducible first | refine ite_kept ?_ ?_ | refine foldl_kept _ _ ?_ ?_ | refine foldl_kept2 _ _ ?_ ?_ | refine foldl_kept22 _ _ ?_ ?_ | refine foldl_kept222 _ _ ?_ ?_
    | intro _
    | simp (maxDischargeDepth := 99) (maxSteps := 1000000) +contextual only [Module.setFld_kept, *])

theorem Module.reportFill_kept (m : Module) (p : Nat) (hm : Memory.wf m.mem = true) :
    Memory.wf (Module.reportFill m p).mem = true := by
  unfold Module.reportFill
  repeat' (first
    | with_reducible assumption
    | with_reducible first | refine ite_kept ?_ ?_ | refine foldl_kept _ _ ?_ ?_ | refine foldl_kept2 _ _ ?_ ?_ | refine foldl_kept22 _ _ ?_ ?_ | refine foldl_kept222 _ _ ?_ ?_
    | intro _
    | simp (maxDischargeDepth := 99) (maxSteps := 1000000) +contextual only [Module.setFld_kept, *])

theorem Module.sqError_kept (m : Module) (p : Nat) (e : Nat) (hm : Memory.wf m.mem = true) :
    Memory.wf (Module.sqError m p e).mem = true := by
  unfold Module.sqError
  repeat' (first
    | with_reducible assumption
    | with_reducible first | refine ite_kept ?_ ?_ | refine foldl_kept _ _ ?_ ?_ | refine foldl_kept2 _ _ ?_ ?_ | refine foldl_kept22 _ _ ?_ ?_ | refine foldl_kept222 _ _ ?_ ?_
    | intro _
    | simp (maxDischargeDepth := 99) (maxSteps := 1000000) +contextual only [Module.setFld_kept, *])

theorem Module.sqPush_kept (m : Module) (p : Nat) (hm : Memory.wf m.mem = true) :
    Memory.wf (Module.sqPush m p).2.mem = true := by
  unfold Module.sqPush
  repeat' (first
    | with_reducible assumption
    | with_reducible first | refine ite_kept ?_ ?_ | refine foldl_kept _ _ ?_ ?_ | refine foldl_kept2 _ _ ?_ ?_ | refine foldl_kept22 _ _ ?_ ?_ | refine foldl_kept222 _ _ ?_ ?_
    | intro _
    | simp (maxDischargeDepth := 99) (maxSteps := 1000000) +contextual only [Module.sqError_kept, Module.setPort_kept, Module.reportFill_kept, Module.setFld_kept, *]
    | with_reducible first | apply Module.sqError_kept | apply Module.setPort_kept | apply Module.reportFill_kept | apply Module.setFld_kept
    | split)

theorem Module.releaseBatches_kept (m : Module) (p : Nat) (atStart : Bool) (n : Word) (exposure : List SqEntry) (hm : Memory.wf m.mem = true) :
    Memory.wf (Module.releaseBatches m p atStart n exposure).mem = true := by
  unfold Module.releaseBatches
  repeat' (first
    | with_reducible assumption
    | with_reducible first | refine ite_kept ?_ ?_ | refine foldl_kept _ _ ?_ ?_ | refine foldl_kept2 _ _ ?_ ?_ | refine foldl_kept22 _ _ ?_ ?_ | refine foldl_kept222 _ _ ?_ ?_
    | intro _
    | simp (maxDischargeDepth := 99) (maxSteps := 1000000) +contextual only [Module.setPort_kept, Module.reportFill_kept, *])

theorem Module.exposureMark_kept (m : Module) (p : Nat) (n : Word) (failed : Bool) (hm : Memory.wf m.mem = true) :
    Memory.wf (Module.exposureMark m p n failed).mem = true := by
  unfold Module.exposureMark
  repeat' (first
    | with_reducible assumption
    | with_reducible first | refine ite_kept ?_ ?_ | refine foldl_kept _ _ ?_ ?_ | refine foldl_kept2 _ _ ?_ ?_ | refine foldl_kept22 _ _ ?_ ?_ | refine foldl_kept222 _ _ ?_ ?_
    | intro _
    | simp (maxDischargeDepth := 99) (maxSteps := 1000000) +contextual only [Module.setCtx_kept, Module.reportEsid_kept, *])

theorem Module.busSend_kept (m : Module) (p : PortId) (e : SqEntry) (hm : Memory.wf m.mem = true) :
    Memory.wf (Module.busSend m p e).mem = true := by
  unfold Module.busSend
  repeat' (first
    | with_reducible assumption
    | with_reducible first | refine ite_kept ?_ ?_ | refine foldl_kept _ _ ?_ ?_ | refine foldl_kept2 _ _ ?_ ?_ | refine foldl_kept22 _ _ ?_ ?_ | refine foldl_kept222 _ _ ?_ ?_
    | intro _
    | simp (maxDischargeDepth := 99) (maxSteps := 1000000) +contextual only [Module.emit_kept, *])

theorem sensorTransactionStart_kept (p : PortId) (m : Module) (hm : Memory.wf m.mem = true) :
    Memory.wf (sensorTransactionStart p m).mem = true := by
  unfold sensorTransactionStart
  repeat' (first
    | with_reducible assumption
    | with_reducible first | refine ite_kept ?_ ?_ | refine foldl_kept _ _ ?_ ?_ | refine foldl_kept2 _ _ ?_ ?_ | refine foldl_kept22 _ _ ?_ ?_ | refine foldl_kept222 _ _ ?_ ?_
    | intro _
    | simp (maxDischargeDepth := 99) (maxSteps := 1000000) +contextual only [Module.setPort_kept, Module.busSend_kept, *]
    | with_reducible first | apply Module.setPort_kept | apply Module.busSend_kept
    | split)

theorem Module.sqFinish_kept (m : Module) (p : Nat) (t : SqXfer) (hm : Memory.wf m.mem = true) :
    Memory.wf (Module.sqFinish m p t).mem = true := by
  unfold Module.sqFinish
  repeat' (first
    | with_reducible assumption
    | with_reducible first | refine ite_kept ?_ ?_ | refine foldl_kept _ _ ?_ ?_ | refine foldl_kept2 _ _ ?_ ?_ | refine foldl_kept22 _ _ ?_ ?_ | refine foldl_kept222 _ _ ?_ ?_
    | intro _
    | simp (maxDischargeDepth := 99) (maxSteps := 1000000) +contextual only [Module.setPort_kept, Module.reportFill_kept, *])

theorem Module.sqFail_kept (m : Module) (p : Nat) (t : SqXfer) (err : Nat) (hm : Memory.wf m.mem = true) :
    Memory.wf (Module.sqFail m p t err).mem = true := by
  unfold Module.sqFail
  repeat' (first
    | with_reducible assumption
    | with_reducible first | refine ite_kept ?_ ?_ | refine foldl_kept _ _ ?_ ?_ | refine foldl_kept2 _ _ ?_ ?_ | refine foldl_kept22 _ _ ?_ ?_ | refine foldl_kept222 _ _ ?_ ?_
    | intro _
    | simp (maxDischargeDepth := 99) (maxSteps := 1000000) +contextual only [Module.setPort_kept, Module.reportFill_kept, Module.count_kept, Module.sqError_kept, Module.raiseCtx_kept, Module.exposureMark_kept, ite_kept, *]
    | with_reducible first | apply Module.setPort_kept | apply Module.reportFill_kept | apply Module.count_kept | apply Module.sqError_kept | apply Module.raiseCtx_kept | apply Module.exposureMark_kept
    | split)

theorem Module.sqTryFailed_kept (m : Module) (p : PortId) (err : Nat) (hm : Memory.wf m.mem = true) :
    Memory.wf (Module.sqTryFailed m p err).mem = true := by
  unfold Module.sqTryFailed
  repeat' (first
    | with_reducible assumption
    | with_reducible first | refine ite_kept ?_ ?_ | refine foldl_kept _ _ ?_ ?_ | refine foldl_kept2 _ _ ?_ ?_ | refine foldl_kept22 _ _ ?_ ?_ | refine foldl_kept222 _ _ ?_ ?_
    | intro _
    | simp (maxDischargeDepth := 99) (maxSteps := 1000000) +contextual only [Module.setPort_kept, Module.busSend_kept, Module.sqFail_kept, *]
    | with_reducible first | apply Module.setPort_kept | apply Module.busSend_kept | apply Module.sqFail_kept
    | split)

theorem sensorTransactionDone_kept (p : PortId) (ack : Bool) (rdata : List Byte) (m : Module) (hm : Memory.wf m.mem = true) :
    Memory.wf (sensorTransactionDone p ack rdata m).mem = true := by
  unfold sensorTransactionDone
  repeat' (first
    | with_reducible assumption
    | with_reducible first | refine ite_kept ?_ ?_ | refine foldl_kept _ _ ?_ ?_ | refine foldl_kept2 _ _ ?_ ?_ | refine foldl_kept22 _ _ ?_ ?_ | refine foldl_kept222 _ _ ?_ ?_
    | intro _
    | simp (maxDischargeDepth := 99) (maxSteps := 1000000) +contextual only [Module.sqTryFailed_kept, Module.wr_kept, Module.setFld_kept, Module.sqFinish_kept, ite_kept, *]
    | with_reducible first | apply Module.sqTryFailed_kept | apply Module.wr_kept | apply Module.setFld_kept | apply Module.sqFinish_kept
    | split)

theorem sensorBusTimeout_kept (p : PortId) (m : Module) (hm : Memory.wf m.mem = true) :
    Memory.wf (sensorBusTimeout p m).mem = true := by
  unfold sensorBusTimeout
  repeat' (first
    | with_reducible assumption
    | with_reducible first | refine ite_kept ?_ ?_ | refine foldl_kept _ _ ?_ ?_ | refine foldl_kept2 _ _ ?_ ?_ | refine foldl_kept22 _ _ ?_ ?_ | refine foldl_kept222 _ _ ?_ ?_
    | intro _
    | simp (maxDischargeDepth := 99) (maxSteps := 1000000) +contextual only [Module.sqTryFailed_kept, *])

theorem inBandInterrupt_kept (p : PortId) (m : Module) (hm : Memory.wf m.mem = true) :
    Memory.wf (inBandInterrupt p m).mem = true := by
  unfold inBandInterrupt
  repeat' (first
    | with_reducible assumption
    | with_reducible first | refine ite_kept ?_ ?_ | refine foldl_kept _ _ ?_ ?_ | refine foldl_kept2 _ _ ?_ ?_ | refine foldl_kept22 _ _ ?_ ?_ | refine foldl_kept222 _ _ ?_ ?_
    | intro _
    | simp (maxDischargeDepth := 99) (maxSteps := 1000000) +contextual only [Module.count_kept, *])

end Sys2Proof.Machine
end

