-- ==== Sys2Proof/Laws/Kept/Context.lean ====
section
/-!
SUPPORT. Every operation of Machine/Context.lean keeps the canonical form of memory.
-/
namespace Sys2Proof.Machine

theorem Module.feCommit_kept (m : Module) (c : Nat) (next : Bool) (withExp : Bool) (hm : Memory.wf m.mem = true) :
    Memory.wf (Module.feCommit m c next withExp).2.mem = true := by
  unfold Module.feCommit
  repeat' (first
    | with_reducible assumption
    | with_reducible first | refine ite_kept ?_ ?_ | refine foldl_kept _ _ ?_ ?_ | refine foldl_kept2 _ _ ?_ ?_ | refine foldl_kept22 _ _ ?_ ?_ | refine foldl_kept222 _ _ ?_ ?_
    | intro _
    | simp (maxDischargeDepth := 99) (maxSteps := 1000000) +contextual only [Module.setFld_kept, Module.setCtx_kept, Module.wr_kept, ite_kept, *]
    | with_reducible first | apply Module.setFld_kept | apply Module.setCtx_kept | apply Module.wr_kept
    | split)

theorem Module.copySet_kept (m : Module) (c : Nat) (t : Word) (hm : Memory.wf m.mem = true) :
    Memory.wf (Module.copySet m c t).mem = true := by
  unfold Module.copySet
  repeat' (first
    | with_reducible assumption
    | with_reducible first | refine ite_kept ?_ ?_ | refine foldl_kept _ _ ?_ ?_ | refine foldl_kept2 _ _ ?_ ?_ | refine foldl_kept22 _ _ ?_ ?_ | refine foldl_kept222 _ _ ?_ ?_
    | intro _
    | simp (maxDischargeDepth := 99) (maxSteps := 1000000) +contextual only [Module.setCtx_kept, Module.setFld_kept, *])

theorem Module.issueExposure_kept (m : Module) (c : Nat) (n : Word) (hm : Memory.wf m.mem = true) :
    Memory.wf (Module.issueExposure m c n).2.mem = true := by
  unfold Module.issueExposure
  repeat' (first
    | with_reducible assumption
    | with_reducible first | refine ite_kept ?_ ?_ | refine foldl_kept _ _ ?_ ?_ | refine foldl_kept2 _ _ ?_ ?_ | refine foldl_kept22 _ _ ?_ ?_ | refine foldl_kept222 _ _ ?_ ?_
    | intro _
    | simp (maxDischargeDepth := 99) (maxSteps := 1000000) +contextual only [Module.setCtx_kept, *]
    | with_reducible apply Module.setCtx_kept
    | split)

theorem Module.bindLane_kept (m : Module) (c : Nat) (lane : Nat) (slot : Nat) (hm : Memory.wf m.mem = true) :
    Memory.wf (Module.bindLane m c lane slot).mem = true := by
  unfold Module.bindLane
  repeat' (first
    | with_reducible assumption
    | with_reducible first | refine ite_kept ?_ ?_ | refine foldl_kept _ _ ?_ ?_ | refine foldl_kept2 _ _ ?_ ?_ | refine foldl_kept22 _ _ ?_ ?_ | refine foldl_kept222 _ _ ?_ ?_
    | intro _
    | simp (maxDischargeDepth := 99) (maxSteps := 1000000) +contextual only [Module.wr_kept, Module.setCtx_kept, Module.setFld_kept, *])

theorem Module.unbindLane_kept (m : Module) (c : Nat) (hm : Memory.wf m.mem = true) :
    Memory.wf (Module.unbindLane m c).mem = true := by
  unfold Module.unbindLane
  repeat' (first
    | with_reducible assumption
    | with_reducible first | refine ite_kept ?_ ?_ | refine foldl_kept _ _ ?_ ?_ | refine foldl_kept2 _ _ ?_ ?_ | refine foldl_kept22 _ _ ?_ ?_ | refine foldl_kept222 _ _ ?_ ?_
    | intro _
    | simp (maxDischargeDepth := 99) (maxSteps := 1000000) +contextual only [Module.wr_kept, Module.setFld_kept, *])

theorem Module.startContext_kept (m : Module) (c : Nat) (hm : Memory.wf m.mem = true) :
    Memory.wf (Module.startContext m c).mem = true := by
  unfold Module.startContext
  repeat' (first
    | with_reducible assumption
    | with_reducible first | refine ite_kept ?_ ?_ | refine foldl_kept _ _ ?_ ?_ | refine foldl_kept2 _ _ ?_ ?_ | refine foldl_kept22 _ _ ?_ ?_ | refine foldl_kept222 _ _ ?_ ?_
    | intro _
    | simp (maxDischargeDepth := 99) (maxSteps := 1000000) +contextual only [Module.setCtx_kept, Module.wr_kept, *])

end Sys2Proof.Machine
end

