-- ==== Sys2Proof/Laws/Kept/Calib.lean ====
section
/-!
SUPPORT. Every operation of Machine/Calib.lean keeps the canonical form of memory.
-/
namespace Sys2Proof.Machine

theorem Module.setCal_kept (m : Module) (c : Nat) (x : Cal) (hm : Memory.wf m.mem = true) :
    Memory.wf (Module.setCal m c x).mem = true := by
  unfold Module.setCal
  repeat' (first
    | with_reducible assumption)

theorem Module.reportValid_kept (m : Module) (c : Nat) (hm : Memory.wf m.mem = true) :
    Memory.wf (Module.reportValid m c).mem = true := by
  unfold Module.reportValid
  repeat' (first
    | with_reducible assumption
    | with_reducible first | refine ite_kept ?_ ?_ | refine foldl_kept _ _ ?_ ?_ | refine foldl_kept2 _ _ ?_ ?_ | refine foldl_kept22 _ _ ?_ ?_ | refine foldl_kept222 _ _ ?_ ?_
    | intro _
    | simp (maxDischargeDepth := 99) (maxSteps := 1000000) +contextual only [Module.setFld_kept, *])

theorem Module.calMark_kept (m : Module) (c : Nat) (n : Word) (hm : Memory.wf m.mem = true) :
    Memory.wf (Module.calMark m c n).mem = true := by
  unfold Module.calMark
  repeat' (first
    | with_reducible assumption
    | with_reducible first | refine ite_kept ?_ ?_ | refine foldl_kept _ _ ?_ ?_ | refine foldl_kept2 _ _ ?_ ?_ | refine foldl_kept22 _ _ ?_ ?_ | refine foldl_kept222 _ _ ?_ ?_
    | intro _
    | simp (maxDischargeDepth := 99) (maxSteps := 1000000) +contextual only [Module.setCal_kept, Module.wr_kept, *]
    | with_reducible first | apply Module.setCal_kept | apply Module.wr_kept
    | split)

theorem Module.calAddLine_kept (m : Module) (c : Nat) (y : Nat) (px : List Nat) (add : Bool) (hm : Memory.wf m.mem = true) :
    Memory.wf (Module.calAddLine m c y px add).mem = true := by
  unfold Module.calAddLine
  repeat' (first
    | with_reducible assumption
    | with_reducible first | refine ite_kept ?_ ?_ | refine foldl_kept _ _ ?_ ?_ | refine foldl_kept2 _ _ ?_ ?_ | refine foldl_kept22 _ _ ?_ ?_ | refine foldl_kept222 _ _ ?_ ?_
    | intro _
    | simp (maxDischargeDepth := 99) (maxSteps := 1000000) +contextual only [Module.write_kept, *]
    | with_reducible apply Module.write_kept
    | split)

theorem Module.calEvent_kept (m : Module) (c : Nat) (r : CalRun) (err : Nat) (status : Nat) (hm : Memory.wf m.mem = true) :
    Memory.wf (Module.calEvent m c r err status).mem = true := by
  unfold Module.calEvent
  repeat' (first
    | with_reducible assumption
    | with_reducible first | refine ite_kept ?_ ?_ | refine foldl_kept _ _ ?_ ?_ | refine foldl_kept2 _ _ ?_ ?_ | refine foldl_kept22 _ _ ?_ ?_ | refine foldl_kept222 _ _ ?_ ?_
    | intro _
    | simp (maxDischargeDepth := 99) (maxSteps := 1000000) +contextual only [Module.raiseCtx_kept, *])

theorem Module.calReport_kept (m : Module) (c : Nat) (running : Bool) (runs : Nat) (kind : Nat) (err : Nat) (hm : Memory.wf m.mem = true) :
    Memory.wf (Module.calReport m c running runs kind err).mem = true := by
  unfold Module.calReport
  repeat' (first
    | with_reducible assumption
    | with_reducible first | refine ite_kept ?_ ?_ | refine foldl_kept _ _ ?_ ?_ | refine foldl_kept2 _ _ ?_ ?_ | refine foldl_kept22 _ _ ?_ ?_ | refine foldl_kept222 _ _ ?_ ?_
    | intro _
    | simp (maxDischargeDepth := 99) (maxSteps := 1000000) +contextual only [Module.setFld_kept, *])

theorem Module.trainAbort_kept (m : Module) (p : Nat) (hm : Memory.wf m.mem = true) :
    Memory.wf (Module.trainAbort m p).mem = true := by
  unfold Module.trainAbort
  repeat' (first
    | with_reducible assumption
    | with_reducible first | refine ite_kept ?_ ?_ | refine foldl_kept _ _ ?_ ?_ | refine foldl_kept2 _ _ ?_ ?_ | refine foldl_kept22 _ _ ?_ ?_ | refine foldl_kept222 _ _ ?_ ?_
    | intro _
    | simp (maxDischargeDepth := 99) (maxSteps := 1000000) +contextual only [Module.setFld_kept, Module.setPortState_kept, *])

theorem Module.calEnd_kept (m : Module) (c : Nat) (err : Nat) (status : Option Nat) (hm : Memory.wf m.mem = true) :
    Memory.wf (Module.calEnd m c err status).mem = true := by
  unfold Module.calEnd
  repeat' (first
    | with_reducible assumption
    | with_reducible first | refine ite_kept ?_ ?_ | refine foldl_kept _ _ ?_ ?_ | refine foldl_kept2 _ _ ?_ ?_ | refine foldl_kept22 _ _ ?_ ?_ | refine foldl_kept222 _ _ ?_ ?_
    | intro _
    | simp (maxDischargeDepth := 99) (maxSteps := 1000000) +contextual only [Module.setCal_kept, Module.unbindLane_kept, Module.setCtx_kept, Module.setPort_kept, Module.trainAbort_kept, Module.calReport_kept, Module.calEvent_kept, Module.open__kept, ite_kept, *]
    | with_reducible first | apply Module.setCal_kept | apply Module.unbindLane_kept | apply Module.setCtx_kept | apply Module.setPort_kept | apply Module.trainAbort_kept | apply Module.calReport_kept | apply Module.calEvent_kept | apply Module.open__kept
    | split)

theorem Module.calAbort_kept (m : Module) (c : Nat) (hm : Memory.wf m.mem = true) :
    Memory.wf (Module.calAbort m c).mem = true := by
  unfold Module.calAbort
  repeat' (first
    | with_reducible assumption
    | with_reducible first | refine ite_kept ?_ ?_ | refine foldl_kept _ _ ?_ ?_ | refine foldl_kept2 _ _ ?_ ?_ | refine foldl_kept22 _ _ ?_ ?_ | refine foldl_kept222 _ _ ?_ ?_
    | intro _
    | simp (maxDischargeDepth := 99) (maxSteps := 1000000) +contextual only [Module.calEnd_kept, *])

theorem Module.calBegin_kept (m : Module) (c : Nat) (r : CalRun) (hm : Memory.wf m.mem = true) :
    Memory.wf (Module.calBegin m c r).mem = true := by
  unfold Module.calBegin
  repeat' (first
    | with_reducible assumption
    | with_reducible first | refine ite_kept ?_ ?_ | refine foldl_kept _ _ ?_ ?_ | refine foldl_kept2 _ _ ?_ ?_ | refine foldl_kept22 _ _ ?_ ?_ | refine foldl_kept222 _ _ ?_ ?_
    | intro _
    | simp (maxDischargeDepth := 99) (maxSteps := 1000000) +contextual only [Module.setCal_kept, Module.calEnd_kept, Module.count_kept, Module.setPortState_kept, Module.wr_kept, Module.setPort_kept, Module.calMark_kept, Module.write_kept, *]
    | with_reducible first | apply Module.setCal_kept | apply Module.calEnd_kept | apply Module.count_kept | apply Module.setPortState_kept | apply Module.wr_kept | apply Module.setPort_kept | apply Module.calMark_kept | apply Module.write_kept
    | split)

theorem Module.calStart_kept (m : Module) (c : Nat) (kind : Nat) (purpose : Nat) (region : Bool) (hm : Memory.wf m.mem = true) :
    Memory.wf (Module.calStart m c kind purpose region).2.mem = true := by
  unfold Module.calStart
  repeat' (first
    | with_reducible assumption
    | with_reducible first | refine ite_kept ?_ ?_ | refine foldl_kept _ _ ?_ ?_ | refine foldl_kept2 _ _ ?_ ?_ | refine foldl_kept22 _ _ ?_ ?_ | refine foldl_kept222 _ _ ?_ ?_
    | intro _
    | simp (maxDischargeDepth := 99) (maxSteps := 1000000) +contextual only [Module.setFld_kept, Module.count_kept, Module.pick_kept, Module.bindLane_kept, Module.setCal_kept, Module.calReport_kept, Module.wr_kept, Module.calEnd_kept, Module.calBegin_kept, *]
    | with_reducible first | apply Module.setFld_kept | apply Module.count_kept | apply Module.pick_kept | apply Module.bindLane_kept | apply Module.setCal_kept | apply Module.calReport_kept | apply Module.wr_kept | apply Module.calEnd_kept | apply Module.calBegin_kept
    | split)

theorem Module.calTakeBack_kept (m : Module) (c : Nat) (f : LaneFrame) (hm : Memory.wf m.mem = true) :
    Memory.wf (Module.calTakeBack m c f).mem = true := by
  unfold Module.calTakeBack
  repeat' (first
    | with_reducible assumption
    | with_reducible first | refine ite_kept ?_ ?_ | refine foldl_kept _ _ ?_ ?_ | refine foldl_kept2 _ _ ?_ ?_ | refine foldl_kept22 _ _ ?_ ?_ | refine foldl_kept222 _ _ ?_ ?_
    | intro _
    | simp (maxDischargeDepth := 99) (maxSteps := 1000000) +contextual only [Module.calAddLine_kept, *]
    | with_reducible apply Module.calAddLine_kept
    | split)

theorem Module.calFrame_kept (m : Module) (c : Nat) (f : PortFrame) (lane : Option LaneFrame) (esid : Nat) (ob : List Nat) (hm : Memory.wf m.mem = true) :
    Memory.wf (Module.calFrame m c f lane esid ob).mem = true := by
  unfold Module.calFrame
  repeat' (first
    | with_reducible assumption
    | with_reducible first | refine ite_kept ?_ ?_ | refine foldl_kept _ _ ?_ ?_ | refine foldl_kept2 _ _ ?_ ?_ | refine foldl_kept22 _ _ ?_ ?_ | refine foldl_kept222 _ _ ?_ ?_
    | intro _
    | simp (maxDischargeDepth := 99) (maxSteps := 1000000) +contextual only [Module.calTakeBack_kept, *]
    | with_reducible first | apply Module.calTakeBack_kept | apply Module.setCtx_kept | apply Module.setCal_kept | apply Module.wr_kept | apply Module.calEnd_kept | apply Module.count_kept
    | split)

theorem Module.writeTaps_kept (m : Module) (c : Nat) (data : List Nat) (sync : Nat) (hm : Memory.wf m.mem = true) :
    Memory.wf (Module.writeTaps m c data sync).mem = true := by
  unfold Module.writeTaps
  repeat' (first
    | with_reducible assumption
    | with_reducible first | refine ite_kept ?_ ?_ | refine foldl_kept _ _ ?_ ?_ | refine foldl_kept2 _ _ ?_ ?_ | refine foldl_kept22 _ _ ?_ ?_ | refine foldl_kept222 _ _ ?_ ?_
    | intro _
    | simp (maxDischargeDepth := 99) (maxSteps := 1000000) +contextual only [Module.setFld_kept, implies_true, foldl_kept, *])

theorem Module.shadowBl_kept (m : Module) (c : Nat) (bl : List Nat) (hm : Memory.wf m.mem = true) :
    Memory.wf (Module.shadowBl m c bl).mem = true := by
  unfold Module.shadowBl
  repeat' (first
    | with_reducible assumption
    | with_reducible first | refine ite_kept ?_ ?_ | refine foldl_kept _ _ ?_ ?_ | refine foldl_kept2 _ _ ?_ ?_ | refine foldl_kept22 _ _ ?_ ?_ | refine foldl_kept222 _ _ ?_ ?_
    | intro _
    | simp (maxDischargeDepth := 99) (maxSteps := 1000000) +contextual only [Module.setFld_kept, *])

theorem Module.shadowDefects_kept (m : Module) (c : Nat) (l : List Word) (hm : Memory.wf m.mem = true) :
    Memory.wf (Module.shadowDefects m c l).mem = true := by
  unfold Module.shadowDefects
  repeat' (first
    | with_reducible assumption
    | with_reducible first | refine ite_kept ?_ ?_ | refine foldl_kept _ _ ?_ ?_ | refine foldl_kept2 _ _ ?_ ?_ | refine foldl_kept22 _ _ ?_ ?_ | refine foldl_kept222 _ _ ?_ ?_
    | intro _
    | simp (maxDischargeDepth := 99) (maxSteps := 1000000) +contextual only [Module.setCtx_kept, Module.setFld_kept, *])

theorem Module.calLast_kept (m : Module) (c : Nat) (r : CalRun) (hm : Memory.wf m.mem = true) :
    Memory.wf (Module.calLast m c r).mem = true := by
  unfold Module.calLast
  repeat' (first
    | with_reducible assumption
    | with_reducible first | refine ite_kept ?_ ?_ | refine foldl_kept _ _ ?_ ?_ | refine foldl_kept2 _ _ ?_ ?_ | refine foldl_kept22 _ _ ?_ ?_ | refine foldl_kept222 _ _ ?_ ?_
    | intro _
    | simp (maxDischargeDepth := 99) (maxSteps := 1000000) +contextual only [Module.setCal_kept, Module.wr_kept, Module.setFld_kept, *]
    | with_reducible first | apply Module.setCal_kept | apply Module.wr_kept | apply Module.setFld_kept
    | split)

theorem Module.applyBl_kept (m : Module) (c : Nat) (r : CalRun) (bl : List Nat) (hm : Memory.wf m.mem = true) :
    Memory.wf (Module.applyBl m c r bl).mem = true := by
  unfold Module.applyBl
  repeat' (first
    | with_reducible assumption
    | with_reducible first | refine ite_kept ?_ ?_ | refine foldl_kept _ _ ?_ ?_ | refine foldl_kept2 _ _ ?_ ?_ | refine foldl_kept22 _ _ ?_ ?_ | refine foldl_kept222 _ _ ?_ ?_
    | intro _
    | simp (maxDischargeDepth := 99) (maxSteps := 1000000) +contextual only [Module.shadowBl_kept, Module.setCtx_kept, Module.setCal_kept, Module.setFld_kept, Module.calLast_kept, ite_kept, *])

theorem Module.applyMap_kept (m : Module) (c : Nat) (r : CalRun) (l : List Word) (hm : Memory.wf m.mem = true) :
    Memory.wf (Module.applyMap m c r l).mem = true := by
  unfold Module.applyMap
  repeat' (first
    | with_reducible assumption
    | with_reducible first | refine ite_kept ?_ ?_ | refine foldl_kept _ _ ?_ ?_ | refine foldl_kept2 _ _ ?_ ?_ | refine foldl_kept22 _ _ ?_ ?_ | refine foldl_kept222 _ _ ?_ ?_
    | intro _
    | simp (maxDischargeDepth := 99) (maxSteps := 1000000) +contextual only [Module.shadowDefects_kept, Module.calLast_kept, Module.setCtx_kept, Module.setCal_kept, *])

theorem Module.applyAtCopy_kept (m : Module) (c : Nat) (hm : Memory.wf m.mem = true) :
    Memory.wf (Module.applyAtCopy m c).mem = true := by
  unfold Module.applyAtCopy
  repeat' (first
    | with_reducible assumption
    | with_reducible first | refine ite_kept ?_ ?_ | refine foldl_kept _ _ ?_ ?_ | refine foldl_kept2 _ _ ?_ ?_ | refine foldl_kept22 _ _ ?_ ?_ | refine foldl_kept222 _ _ ?_ ?_
    | intro _
    | simp (maxDischargeDepth := 99) (maxSteps := 1000000) +contextual only [Module.setCtx_kept, Module.setCal_kept, *])

theorem Module.reportStored_kept (m : Module) (c : Nat) (hm : Memory.wf m.mem = true) :
    Memory.wf (Module.reportStored m c).mem = true := by
  unfold Module.reportStored
  repeat' (first
    | with_reducible assumption
    | with_reducible first | refine ite_kept ?_ ?_ | refine foldl_kept _ _ ?_ ?_ | refine foldl_kept2 _ _ ?_ ?_ | refine foldl_kept22 _ _ ?_ ?_ | refine foldl_kept222 _ _ ?_ ?_
    | intro _
    | simp (maxDischargeDepth := 99) (maxSteps := 1000000) +contextual only [Module.setFld_kept, *])

theorem Module.calStoreStart_kept (m : Module) (c : Nat) (hm : Memory.wf m.mem = true) :
    Memory.wf (Module.calStoreStart m c).mem = true := by
  unfold Module.calStoreStart
  repeat' (first
    | with_reducible assumption
    | with_reducible first | refine ite_kept ?_ ?_ | refine foldl_kept _ _ ?_ ?_ | refine foldl_kept2 _ _ ?_ ?_ | refine foldl_kept22 _ _ ?_ ?_ | refine foldl_kept222 _ _ ?_ ?_
    | intro _
    | simp (maxDischargeDepth := 99) (maxSteps := 1000000) +contextual only [Module.setCal_kept, *])

theorem calStoreDone_kept (c : PortId) (good : Bool) (m : Module) (hm : Memory.wf m.mem = true) :
    Memory.wf (calStoreDone c good m).mem = true := by
  unfold calStoreDone
  repeat' (first
    | with_reducible assumption
    | with_reducible first | refine ite_kept ?_ ?_ | refine foldl_kept _ _ ?_ ?_ | refine foldl_kept2 _ _ ?_ ?_ | refine foldl_kept22 _ _ ?_ ?_ | refine foldl_kept222 _ _ ?_ ?_
    | intro _
    | simp (maxDischargeDepth := 99) (maxSteps := 1000000) +contextual only [Module.setCal_kept, Module.satAdd_kept, Module.setCtx_kept, Module.setFld_kept, Module.reportStored_kept, Module.open__kept, Module.faultSeq_kept, *]
    | with_reducible first | apply Module.setCal_kept | apply Module.satAdd_kept | apply Module.setCtx_kept | apply Module.setFld_kept | apply Module.reportStored_kept | apply Module.open__kept | apply Module.faultSeq_kept
    | split)

theorem Module.tornStores_kept (m : Module) (hm : Memory.wf m.mem = true) :
    Memory.wf (Module.tornStores m).mem = true := by
  unfold Module.tornStores
  repeat' (first
    | with_reducible assumption)

theorem Module.calPass_kept (m : Module) (c : Nat) (r : CalRun) (x : CalResult) (hm : Memory.wf m.mem = true) :
    Memory.wf (Module.calPass m c r x).mem = true := by
  unfold Module.calPass
  repeat' (first
    | with_reducible assumption
    | with_reducible first | refine ite_kept ?_ ?_ | refine foldl_kept _ _ ?_ ?_ | refine foldl_kept2 _ _ ?_ ?_ | refine foldl_kept22 _ _ ?_ ?_ | refine foldl_kept222 _ _ ?_ ?_
    | intro _
    | simp (maxDischargeDepth := 99) (maxSteps := 1000000) +contextual only [Module.setCal_kept, Module.applyBl_kept, Module.writeTaps_kept, Module.calLast_kept, Module.applyMap_kept, Module.count_kept, Module.reportValid_kept, Module.reportStored_kept, Module.calStoreStart_kept, ite_kept, *])

theorem Module.calShow_kept (m : Module) (c : Nat) (r : CalRun) (x : CalResult) (hm : Memory.wf m.mem = true) :
    Memory.wf (Module.calShow m c r x).mem = true := by
  unfold Module.calShow
  repeat' (first
    | with_reducible assumption
    | with_reducible first | refine ite_kept ?_ ?_ | refine foldl_kept _ _ ?_ ?_ | refine foldl_kept2 _ _ ?_ ?_ | refine foldl_kept22 _ _ ?_ ?_ | refine foldl_kept222 _ _ ?_ ?_
    | intro _
    | simp (maxDischargeDepth := 99) (maxSteps := 1000000) +contextual only [Module.wr_kept, Module.setFld_kept, Module.write_kept, *]
    | with_reducible first | apply Module.wr_kept | apply Module.setFld_kept | apply Module.write_kept
    | split)

theorem calResultReady_kept (c : PortId) (m : Module) (hm : Memory.wf m.mem = true) :
    Memory.wf (calResultReady c m).mem = true := by
  unfold calResultReady
  repeat' (first
    | with_reducible assumption
    | with_reducible first | refine ite_kept ?_ ?_ | refine foldl_kept _ _ ?_ ?_ | refine foldl_kept2 _ _ ?_ ?_ | refine foldl_kept22 _ _ ?_ ?_ | refine foldl_kept222 _ _ ?_ ?_
    | intro _
    | with_reducible apply Module.firmware_kept
    | simp (maxDischargeDepth := 99) (maxSteps := 1000000) +contextual only [Module.calEnd_kept, Module.setCal_kept, Module.calShow_kept, Module.count_kept, Module.calPass_kept, Module.setFld_kept, Module.calBegin_kept, *]
    | with_reducible first | apply Module.firmware_kept | apply Module.calEnd_kept | apply Module.setCal_kept | apply Module.calShow_kept | apply Module.count_kept | apply Module.calPass_kept | apply Module.setFld_kept | apply Module.calBegin_kept
    | split)

theorem Module.track_kept (m : Module) (c : Nat) (s : ParamSet) (ob : List Nat) (hm : Memory.wf m.mem = true) :
    Memory.wf (Module.track m c s ob).mem = true := by
  unfold Module.track
  repeat' (first
    | with_reducible assumption
    | with_reducible first | refine ite_kept ?_ ?_ | refine foldl_kept _ _ ?_ ?_ | refine foldl_kept2 _ _ ?_ ?_ | refine foldl_kept22 _ _ ?_ ?_ | refine foldl_kept222 _ _ ?_ ?_
    | intro _
    | simp (maxDischargeDepth := 99) (maxSteps := 1000000) +contextual only [Module.setCtx_kept, Module.count_kept, Module.raiseCtx_kept, *])

theorem trimUpdate_kept (c : PortId) (m : Module) (hm : Memory.wf m.mem = true) :
    Memory.wf (trimUpdate c m).mem = true := by
  unfold trimUpdate
  repeat' (first
    | with_reducible assumption
    | with_reducible first | refine ite_kept ?_ ?_ | refine foldl_kept _ _ ?_ ?_ | refine foldl_kept2 _ _ ?_ ?_ | refine foldl_kept22 _ _ ?_ ?_ | refine foldl_kept222 _ _ ?_ ?_
    | intro _
    | with_reducible apply Module.firmware_kept
    | simp (maxDischargeDepth := 99) (maxSteps := 1000000) +contextual only [Module.setCtx_kept, *]
    | with_reducible first | apply Module.firmware_kept | apply Module.setCtx_kept
    | split)

theorem Module.calLoad_kept (m : Module) (c : Nat) (r : CalCopy) (hm : Memory.wf m.mem = true) :
    Memory.wf (Module.calLoad m c r).mem = true := by
  unfold Module.calLoad
  repeat' (first
    | with_reducible assumption
    | with_reducible first | refine ite_kept ?_ ?_ | refine foldl_kept _ _ ?_ ?_ | refine foldl_kept2 _ _ ?_ ?_ | refine foldl_kept22 _ _ ?_ ?_ | refine foldl_kept222 _ _ ?_ ?_
    | intro _
    | simp (maxDischargeDepth := 99) (maxSteps := 1000000) +contextual only [Module.wr_kept, Module.setFld_kept, Module.shadowBl_kept, Module.shadowDefects_kept, Module.setCtx_kept, Module.setCal_kept, Module.reportStored_kept, implies_true, foldl_kept, *])

theorem Module.calRestore_kept (m : Module) (c : Nat) (hm : Memory.wf m.mem = true) :
    Memory.wf (Module.calRestore m c).mem = true := by
  unfold Module.calRestore
  repeat' (first
    | with_reducible assumption
    | with_reducible first | refine ite_kept ?_ ?_ | refine foldl_kept _ _ ?_ ?_ | refine foldl_kept2 _ _ ?_ ?_ | refine foldl_kept22 _ _ ?_ ?_ | refine foldl_kept222 _ _ ?_ ?_
    | intro _
    | simp (maxDischargeDepth := 99) (maxSteps := 1000000) +contextual only [Module.setCal_kept, Module.setFld_kept, Module.calLoad_kept, *]
    | with_reducible first | apply Module.setCal_kept | apply Module.setFld_kept | apply Module.calLoad_kept
    | split)

theorem Module.calTrigger_kept (m : Module) (c : Nat) (hm : Memory.wf m.mem = true) :
    Memory.wf (Module.calTrigger m c).mem = true := by
  unfold Module.calTrigger
  repeat' (first
    | with_reducible assumption
    | with_reducible first | refine ite_kept ?_ ?_ | refine foldl_kept _ _ ?_ ?_ | refine foldl_kept2 _ _ ?_ ?_ | refine foldl_kept22 _ _ ?_ ?_ | refine foldl_kept222 _ _ ?_ ?_
    | intro _
    | simp (maxDischargeDepth := 99) (maxSteps := 1000000) +contextual only [Module.calStart_kept, Module.raiseCtx_kept, *])

theorem Module.calCtl_kept (m : Module) (c : Nat) (v : Word) (hm : Memory.wf m.mem = true) :
    Memory.wf (Module.calCtl m c v).2.mem = true := by
  unfold Module.calCtl
  repeat' (first
    | with_reducible assumption
    | with_reducible first | refine ite_kept ?_ ?_ | refine foldl_kept _ _ ?_ ?_ | refine foldl_kept2 _ _ ?_ ?_ | refine foldl_kept22 _ _ ?_ ?_ | refine foldl_kept222 _ _ ?_ ?_
    | intro _
    | simp (maxDischargeDepth := 99) (maxSteps := 1000000) +contextual only [Module.calAbort_kept, Module.calStoreStart_kept, Module.calStart_kept, ite_kept, *]
    | with_reducible first | apply Module.calAbort_kept | apply Module.calStoreStart_kept | apply Module.calStart_kept
    | split)

end Sys2Proof.Machine
end

