-- ==== Sys2Proof/Laws/Kept/Capture.lean ====
section
/-!
SUPPORT. Every operation of Machine/Capture.lean keeps the canonical form of memory.
-/
namespace Sys2Proof.Machine

theorem Module.setFrame_kept (m : Module) (p : Nat) (f : Option PortFrame) (hm : Memory.wf m.mem = true) :
    Memory.wf (Module.setFrame m p f).mem = true := by
  unfold Module.setFrame
  repeat' (first
    | with_reducible assumption
    | with_reducible first | refine ite_kept ?_ ?_ | refine foldl_kept _ _ ?_ ?_ | refine foldl_kept2 _ _ ?_ ?_ | refine foldl_kept22 _ _ ?_ ?_ | refine foldl_kept222 _ _ ?_ ?_
    | intro _
    | simp (maxDischargeDepth := 99) (maxSteps := 1000000) +contextual only [Module.setPort_kept, *])

theorem Module.adjustLane_kept (m : Module) (c : Nat) (n : Word) (f : LaneFrame → LaneFrame) (hm : Memory.wf m.mem = true) :
    Memory.wf (Module.adjustLane m c n f).mem = true := by
  unfold Module.adjustLane
  repeat' (first
    | with_reducible assumption
    | with_reducible first | refine ite_kept ?_ ?_ | refine foldl_kept _ _ ?_ ?_ | refine foldl_kept2 _ _ ?_ ?_ | refine foldl_kept22 _ _ ?_ ?_ | refine foldl_kept222 _ _ ?_ ?_
    | intro _
    | simp (maxDischargeDepth := 99) (maxSteps := 1000000) +contextual only [Module.setCtx_kept, *])

theorem Module.disablePort_kept (m : Module) (p : Nat) (hm : Memory.wf m.mem = true) :
    Memory.wf (Module.disablePort m p).mem = true := by
  unfold Module.disablePort
  repeat' (first
    | with_reducible assumption
    | with_reducible first | refine ite_kept ?_ ?_ | refine foldl_kept _ _ ?_ ?_ | refine foldl_kept2 _ _ ?_ ?_ | refine foldl_kept22 _ _ ?_ ?_ | refine foldl_kept222 _ _ ?_ ?_
    | intro _
    | simp (maxDischargeDepth := 99) (maxSteps := 1000000) +contextual only [Module.calAbort_kept, Module.setPort_kept, Module.wr_kept, Module.reportFill_kept, Module.setFld_kept, *])

theorem Module.enablePort_kept (m : Module) (p : Nat) (hm : Memory.wf m.mem = true) :
    Memory.wf (Module.enablePort m p).mem = true := by
  unfold Module.enablePort
  repeat' (first
    | with_reducible assumption
    | with_reducible first | refine ite_kept ?_ ?_ | refine foldl_kept _ _ ?_ ?_ | refine foldl_kept2 _ _ ?_ ?_ | refine foldl_kept22 _ _ ?_ ?_ | refine foldl_kept222 _ _ ?_ ?_
    | intro _
    | simp (maxDischargeDepth := 99) (maxSteps := 1000000) +contextual only [Module.setCtx_kept, Module.setPortState_kept, Module.calRestore_kept, *])

theorem Module.portCfgWrite_kept (m : Module) (p : Nat) (v : Word) (hm : Memory.wf m.mem = true) :
    Memory.wf (Module.portCfgWrite m p v).2.mem = true := by
  unfold Module.portCfgWrite
  repeat' (first
    | with_reducible assumption
    | with_reducible first | refine ite_kept ?_ ?_ | refine foldl_kept _ _ ?_ ?_ | refine foldl_kept2 _ _ ?_ ?_ | refine foldl_kept22 _ _ ?_ ?_ | refine foldl_kept222 _ _ ?_ ?_
    | intro _
    | simp (maxDischargeDepth := 99) (maxSteps := 1000000) +contextual only [Module.wr_kept, Module.enablePort_kept, Module.trainAbort_kept, Module.disablePort_kept, Module.reportValid_kept, Module.reportStored_kept, *]
    | with_reducible first | apply Module.wr_kept | apply Module.enablePort_kept | apply Module.trainAbort_kept | apply Module.disablePort_kept | apply Module.reportValid_kept | apply Module.reportStored_kept
    | split)

theorem rstLowExpiry_kept (p : PortId) (m : Module) (hm : Memory.wf m.mem = true) :
    Memory.wf (rstLowExpiry p m).mem = true := by
  unfold rstLowExpiry
  repeat' (first
    | with_reducible assumption
    | with_reducible first | refine ite_kept ?_ ?_ | refine foldl_kept _ _ ?_ ?_ | refine foldl_kept2 _ _ ?_ ?_ | refine foldl_kept22 _ _ ?_ ?_ | refine foldl_kept222 _ _ ?_ ?_
    | intro _
    | simp (maxDischargeDepth := 99) (maxSteps := 1000000) +contextual only [Module.setPort_kept, *])

theorem rstSettleExpiry_kept (p : PortId) (m : Module) (hm : Memory.wf m.mem = true) :
    Memory.wf (rstSettleExpiry p m).mem = true := by
  unfold rstSettleExpiry
  repeat' (first
    | with_reducible assumption
    | with_reducible first | refine ite_kept ?_ ?_ | refine foldl_kept _ _ ?_ ?_ | refine foldl_kept2 _ _ ?_ ?_ | refine foldl_kept22 _ _ ?_ ?_ | refine foldl_kept222 _ _ ?_ ?_
    | intro _
    | simp (maxDischargeDepth := 99) (maxSteps := 1000000) +contextual only [Module.emit_kept, Module.tick_kept, Module.setPort_kept, Module.setPortState_kept, ite_kept, *])

theorem Module.closeLine_kept (m : Module) (p : Nat) (pixels : List W16) (lost : Bool) (cut : Bool) (hm : Memory.wf m.mem = true) :
    Memory.wf (Module.closeLine m p pixels lost cut).mem = true := by
  unfold Module.closeLine
  repeat' (first
    | with_reducible assumption
    | with_reducible first | refine ite_kept ?_ ?_ | refine foldl_kept _ _ ?_ ?_ | refine foldl_kept2 _ _ ?_ ?_ | refine foldl_kept22 _ _ ?_ ?_ | refine foldl_kept222 _ _ ?_ ?_
    | intro _
    | simp (maxDischargeDepth := 99) (maxSteps := 1000000) +contextual only [Module.setFrame_kept, Module.adjustLane_kept, Module.count_kept, *]
    | with_reducible first | apply Module.open__kept | apply Module.setFrame_kept | apply Module.adjustLane_kept | apply Module.count_kept
    | split)

theorem Module.driftCheck_kept (m : Module) (p : Nat) (f : PortFrame) (hm : Memory.wf m.mem = true) :
    Memory.wf (Module.driftCheck m p f).mem = true := by
  unfold Module.driftCheck
  repeat' (first
    | with_reducible assumption
    | with_reducible first | refine ite_kept ?_ ?_ | refine foldl_kept _ _ ?_ ?_ | refine foldl_kept2 _ _ ?_ ?_ | refine foldl_kept22 _ _ ?_ ?_ | refine foldl_kept222 _ _ ?_ ?_
    | intro _
    | simp (maxDischargeDepth := 99) (maxSteps := 1000000) +contextual only [Module.setFld_kept, Module.raiseCtx_kept, *])

theorem Module.contextFrameEnd_kept (m : Module) (c : Nat) (e : Meas) (hm : Memory.wf m.mem = true) :
    Memory.wf (Module.contextFrameEnd m c e).mem = true := by
  unfold Module.contextFrameEnd
  repeat' (first
    | with_reducible assumption
    | with_reducible first | refine ite_kept ?_ ?_ | refine foldl_kept _ _ ?_ ?_ | refine foldl_kept2 _ _ ?_ ?_ | refine foldl_kept22 _ _ ?_ ?_ | refine foldl_kept222 _ _ ?_ ?_
    | intro _
    | simp (maxDischargeDepth := 99) (maxSteps := 1000000) +contextual only [Module.track_kept, Module.calFrame_kept, Module.adjustLane_kept, ite_kept, *]
    | with_reducible first | apply Module.track_kept | apply Module.calFrame_kept | apply Module.adjustLane_kept | apply Module.setCtx_kept | apply Module.applyAtCopy_kept | apply Module.copySet_kept | apply Module.reportValid_kept | apply Module.reportStored_kept | apply Module.calTrigger_kept
    | split)

theorem Module.leaveActive_kept (m : Module) (p : Nat) (hm : Memory.wf m.mem = true) :
    Memory.wf (Module.leaveActive m p).mem = true := by
  unfold Module.leaveActive
  repeat' (first
    | with_reducible assumption
    | with_reducible first | refine ite_kept ?_ ?_ | refine foldl_kept _ _ ?_ ?_ | refine foldl_kept2 _ _ ?_ ?_ | refine foldl_kept22 _ _ ?_ ?_ | refine foldl_kept222 _ _ ?_ ?_
    | intro _
    | simp (maxDischargeDepth := 99) (maxSteps := 1000000) +contextual only [Module.setPortState_kept, Module.wr_kept, Module.setPort_kept, *]
    | with_reducible first | apply Module.setPortState_kept | apply Module.wr_kept | apply Module.setPort_kept
    | split)

theorem Module.closeFrame_kept (m : Module) (p : Nat) (t : Nat) (pixels : List W16) (lost : Bool) (cut : Bool) (hm : Memory.wf m.mem = true) :
    Memory.wf (Module.closeFrame m p t pixels lost cut).mem = true := by
  unfold Module.closeFrame
  repeat' (first
    | with_reducible assumption
    | with_reducible first | refine ite_kept ?_ ?_ | refine foldl_kept _ _ ?_ ?_ | refine foldl_kept2 _ _ ?_ ?_ | refine foldl_kept22 _ _ ?_ ?_ | refine foldl_kept222 _ _ ?_ ?_
    | intro _
    | simp (maxDischargeDepth := 99) (maxSteps := 1000000) +contextual only [Module.closeLine_kept, Module.count_kept, Module.adjustLane_kept, Module.tick_kept, Module.setPort_kept, Module.setFld_kept, Module.driftCheck_kept, Module.contextFrameEnd_kept, Module.releaseBatches_kept, Module.leaveActive_kept, ite_kept, *]
    | with_reducible first | apply Module.closeLine_kept | apply Module.count_kept | apply Module.adjustLane_kept | apply Module.tick_kept | apply Module.setPort_kept | apply Module.setFld_kept | apply Module.driftCheck_kept | apply Module.contextFrameEnd_kept | apply Module.releaseBatches_kept | apply Module.leaveActive_kept
    | split)

theorem frameEnd_kept (p : PortId) (t : Nat) (tail : List W16) (m : Module) (hm : Memory.wf m.mem = true) :
    Memory.wf (frameEnd p t tail m).mem = true := by
  unfold frameEnd
  repeat' (first
    | with_reducible assumption
    | with_reducible first | refine ite_kept ?_ ?_ | refine foldl_kept _ _ ?_ ?_ | refine foldl_kept2 _ _ ?_ ?_ | refine foldl_kept22 _ _ ?_ ?_ | refine foldl_kept222 _ _ ?_ ?_
    | intro _
    | simp (maxDischargeDepth := 99) (maxSteps := 1000000) +contextual only [Module.closeFrame_kept, *]
    | with_reducible first | apply Module.open__kept | apply Module.closeFrame_kept
    | split)

theorem Module.signalLost_kept (m : Module) (p : Nat) (t : Nat) (pixels : List W16) (hm : Memory.wf m.mem = true) :
    Memory.wf (Module.signalLost m p t pixels).mem = true := by
  unfold Module.signalLost
  repeat' (first
    | with_reducible assumption
    | with_reducible first | refine ite_kept ?_ ?_ | refine foldl_kept _ _ ?_ ?_ | refine foldl_kept2 _ _ ?_ ?_ | refine foldl_kept22 _ _ ?_ ?_ | refine foldl_kept222 _ _ ?_ ?_
    | intro _
    | simp (maxDischargeDepth := 99) (maxSteps := 1000000) +contextual only [Module.closeLine_kept, Module.setFrame_kept, Module.count_kept, Module.setFld_kept, Module.raiseCtx_kept, Module.closeFrame_kept, *]
    | with_reducible first | apply Module.closeLine_kept | apply Module.setFrame_kept | apply Module.count_kept | apply Module.setFld_kept | apply Module.raiseCtx_kept | apply Module.closeFrame_kept
    | split)

theorem pclkLossTimeout_kept (p : PortId) (t : Nat) (pixels : List W16) (m : Module) (hm : Memory.wf m.mem = true) :
    Memory.wf (pclkLossTimeout p t pixels m).mem = true := by
  unfold pclkLossTimeout
  repeat' (first
    | with_reducible assumption
    | with_reducible first | refine ite_kept ?_ ?_ | refine foldl_kept _ _ ?_ ?_ | refine foldl_kept2 _ _ ?_ ?_ | refine foldl_kept22 _ _ ?_ ?_ | refine foldl_kept222 _ _ ?_ ?_
    | intro _
    | simp (maxDischargeDepth := 99) (maxSteps := 1000000) +contextual only [Module.signalLost_kept, *]
    | with_reducible first | apply Module.open__kept | apply Module.signalLost_kept
    | split)

theorem frameEndTimeout_kept (p : PortId) (t : Nat) (tail : List W16) (m : Module) (hm : Memory.wf m.mem = true) :
    Memory.wf (frameEndTimeout p t tail m).mem = true := by
  unfold frameEndTimeout
  repeat' (first
    | with_reducible assumption
    | with_reducible first | refine ite_kept ?_ ?_ | refine foldl_kept _ _ ?_ ?_ | refine foldl_kept2 _ _ ?_ ?_ | refine foldl_kept22 _ _ ?_ ?_ | refine foldl_kept222 _ _ ?_ ?_
    | intro _
    | simp (maxDischargeDepth := 99) (maxSteps := 1000000) +contextual only [Module.signalLost_kept, *]
    | with_reducible apply Module.signalLost_kept
    | split)

theorem Module.enterActive_kept (m : Module) (p : Nat) (hm : Memory.wf m.mem = true) :
    Memory.wf (Module.enterActive m p).mem = true := by
  unfold Module.enterActive
  repeat' (first
    | with_reducible assumption
    | with_reducible first | refine ite_kept ?_ ?_ | refine foldl_kept _ _ ?_ ?_ | refine foldl_kept2 _ _ ?_ ?_ | refine foldl_kept22 _ _ ?_ ?_ | refine foldl_kept222 _ _ ?_ ?_
    | intro _
    | simp (maxDischargeDepth := 99) (maxSteps := 1000000) +contextual only [Module.setPortState_kept, Module.setPort_kept, Module.wr_kept, *]
    | with_reducible first | apply Module.setPortState_kept | apply Module.setPort_kept | apply Module.wr_kept
    | split)

theorem Module.zeroCounts_kept (m : Module) (c : Nat) (hm : Memory.wf m.mem = true) :
    Memory.wf (Module.zeroCounts m c).mem = true := by
  unfold Module.zeroCounts
  repeat' (first
    | with_reducible assumption
    | with_reducible first | refine ite_kept ?_ ?_ | refine foldl_kept _ _ ?_ ?_ | refine foldl_kept2 _ _ ?_ ?_ | refine foldl_kept22 _ _ ?_ ?_ | refine foldl_kept222 _ _ ?_ ?_
    | intro _
    | simp (maxDischargeDepth := 99) (maxSteps := 1000000) +contextual only [Module.zero_kept, *]
    | with_reducible first | apply Module.zero_kept | apply Module.count_kept
    | split)

theorem Module.historyStart_kept (m : Module) (c : Nat) (hm : Memory.wf m.mem = true) :
    Memory.wf (Module.historyStart m c).mem = true := by
  unfold Module.historyStart
  repeat' (first
    | with_reducible assumption
    | with_reducible first | refine ite_kept ?_ ?_ | refine foldl_kept _ _ ?_ ?_ | refine foldl_kept2 _ _ ?_ ?_ | refine foldl_kept22 _ _ ?_ ?_ | refine foldl_kept222 _ _ ?_ ?_
    | intro _
    | simp (maxDischargeDepth := 99) (maxSteps := 1000000) +contextual only [Module.setCtx_kept, Module.zeroCounts_kept, Module.setFld_kept, ite_kept, *])

theorem Module.writeBlocks_kept (m : Module) (c : Nat) (f : Nat) (set : ParamSet) (hm : Memory.wf m.mem = true) :
    Memory.wf (Module.writeBlocks m c f set).mem = true := by
  unfold Module.writeBlocks
  repeat' (first
    | with_reducible assumption
    | with_reducible first | refine ite_kept ?_ ?_ | refine foldl_kept _ _ ?_ ?_ | refine foldl_kept2 _ _ ?_ ?_ | refine foldl_kept22 _ _ ?_ ?_ | refine foldl_kept222 _ _ ?_ ?_
    | intro _
    | simp (maxDischargeDepth := 99) (maxSteps := 1000000) +contextual only [Module.write_kept, *]
    | with_reducible apply Module.write_kept
    | split)

theorem Module.laneStart_kept (m : Module) (c : Nat) (n : Word) (sof : Stamp) (hm : Memory.wf m.mem = true) :
    Memory.wf (Module.laneStart m c n sof).mem = true := by
  unfold Module.laneStart
  repeat' (first
    | with_reducible assumption
    | with_reducible first | refine ite_kept ?_ ?_ | refine foldl_kept _ _ ?_ ?_ | refine foldl_kept2 _ _ ?_ ?_ | refine foldl_kept22 _ _ ?_ ?_ | refine foldl_kept222 _ _ ?_ ?_
    | intro _
    | simp (maxDischargeDepth := 99) (maxSteps := 1000000) +contextual only [Module.setCtx_kept, Module.wr_kept, Module.writeBlocks_kept, Module.historyStart_kept, *])

theorem Module.resumeAtStart_kept (m : Module) (c : Nat) (hm : Memory.wf m.mem = true) :
    Memory.wf (Module.resumeAtStart m c).mem = true := by
  unfold Module.resumeAtStart
  repeat' (first
    | with_reducible assumption
    | with_reducible first | refine ite_kept ?_ ?_ | refine foldl_kept _ _ ?_ ?_ | refine foldl_kept2 _ _ ?_ ?_ | refine foldl_kept22 _ _ ?_ ?_ | refine foldl_kept222 _ _ ?_ ?_
    | intro _
    | simp (maxDischargeDepth := 99) (maxSteps := 1000000) +contextual only [Module.setFld_kept, *]
    | with_reducible apply Module.setFld_kept
    | split)

theorem Module.copyFirst_kept (m : Module) (c : Nat) (n : Word) (hm : Memory.wf m.mem = true) :
    Memory.wf (Module.copyFirst m c n).mem = true := by
  unfold Module.copyFirst
  repeat' (first
    | with_reducible assumption
    | with_reducible first | refine ite_kept ?_ ?_ | refine foldl_kept _ _ ?_ ?_ | refine foldl_kept2 _ _ ?_ ?_ | refine foldl_kept22 _ _ ?_ ?_ | refine foldl_kept222 _ _ ?_ ?_
    | intro _
    | simp (maxDischargeDepth := 99) (maxSteps := 1000000) +contextual only [Module.copySet_kept, *]
    | with_reducible apply Module.copySet_kept
    | split)

theorem frameStart_kept (p : PortId) (t : Nat) (tail : List W16) (m : Module) (hm : Memory.wf m.mem = true) :
    Memory.wf (frameStart p t tail m).mem = true := by
  unfold frameStart
  simp (maxDischargeDepth := 99) (maxSteps := 1000000) only [Module.closeFrame_kept, Module.enterActive_kept, Module.tick_kept, Module.setPort_kept, Module.setFld_kept, Module.count_kept, Module.raiseCtx_kept, Module.copyFirst_kept, Module.laneStart_kept, Module.resumeAtStart_kept, Module.issueExposure_kept, Module.releaseBatches_kept, Module.reportEsid_kept, Module.calMark_kept, ite_kept, hm]

theorem portLineStart_kept (p : PortId) (t : Nat) (hblank : Nat) (tail : List W16) (m : Module) (hm : Memory.wf m.mem = true) :
    Memory.wf (portLineStart p t hblank tail m).mem = true := by
  unfold portLineStart
  repeat' (first
    | with_reducible assumption
    | with_reducible first | refine ite_kept ?_ ?_ | refine foldl_kept _ _ ?_ ?_ | refine foldl_kept2 _ _ ?_ ?_ | refine foldl_kept22 _ _ ?_ ?_ | refine foldl_kept222 _ _ ?_ ?_
    | intro _
    | simp (maxDischargeDepth := 99) (maxSteps := 1000000) +contextual only [Module.closeLine_kept, Module.setFrame_kept, Module.adjustLane_kept, Module.exposureMark_kept, Module.raiseCtx_kept, ite_kept, *]
    | with_reducible first | apply Module.closeLine_kept | apply Module.setFrame_kept | apply Module.adjustLane_kept | apply Module.exposureMark_kept | apply Module.raiseCtx_kept | apply Module.open__kept
    | split)

theorem portLineEnd_kept (p : PortId) (_tx : Nat) (pixels : List W16) (m : Module) (hm : Memory.wf m.mem = true) :
    Memory.wf (portLineEnd p _tx pixels m).mem = true := by
  unfold portLineEnd
  repeat' (first
    | with_reducible assumption
    | with_reducible first | refine ite_kept ?_ ?_ | refine foldl_kept _ _ ?_ ?_ | refine foldl_kept2 _ _ ?_ ?_ | refine foldl_kept22 _ _ ?_ ?_ | refine foldl_kept222 _ _ ?_ ?_
    | intro _
    | simp (maxDischargeDepth := 99) (maxSteps := 1000000) +contextual only [Module.closeLine_kept, *])

theorem Module.wrStamp_kept (m : Module) (p : Nat) (i : Nat) (s : Option Stamp) (hm : Memory.wf m.mem = true) :
    Memory.wf (Module.wrStamp m p i s).mem = true := by
  unfold Module.wrStamp
  repeat' (first
    | with_reducible assumption
    | with_reducible first | refine ite_kept ?_ ?_ | refine foldl_kept _ _ ?_ ?_ | refine foldl_kept2 _ _ ?_ ?_ | refine foldl_kept22 _ _ ?_ ?_ | refine foldl_kept222 _ _ ?_ ?_
    | intro _
    | simp (maxDischargeDepth := 99) (maxSteps := 1000000) +contextual only [Module.wr_kept, *]
    | with_reducible apply Module.wr_kept
    | split)

theorem Module.measCopy_kept (m : Module) (p : Nat) (hm : Memory.wf m.mem = true) :
    Memory.wf (Module.measCopy m p).mem = true := by
  unfold Module.measCopy
  repeat' (first
    | with_reducible assumption
    | with_reducible first | refine ite_kept ?_ ?_ | refine foldl_kept _ _ ?_ ?_ | refine foldl_kept2 _ _ ?_ ?_ | refine foldl_kept22 _ _ ?_ ?_ | refine foldl_kept222 _ _ ?_ ?_
    | intro _
    | simp (maxDischargeDepth := 99) (maxSteps := 1000000) +contextual only [Module.wr_kept, Module.wrStamp_kept, *]
    | with_reducible first | apply Module.wr_kept | apply Module.wrStamp_kept
    | split)

theorem strobeEdge_kept (p : PortId) (m : Module) (hm : Memory.wf m.mem = true) :
    Memory.wf (strobeEdge p m).mem = true := by
  unfold strobeEdge
  repeat' (first
    | with_reducible assumption
    | with_reducible first | refine ite_kept ?_ ?_ | refine foldl_kept _ _ ?_ ?_ | refine foldl_kept2 _ _ ?_ ?_ | refine foldl_kept22 _ _ ?_ ?_ | refine foldl_kept222 _ _ ?_ ?_
    | intro _
    | simp (maxDischargeDepth := 99) (maxSteps := 1000000) +contextual only [Module.tick_kept, Module.setFrame_kept, Module.setPort_kept, Module.adjustLane_kept, *]
    | with_reducible first | apply Module.tick_kept | apply Module.setFrame_kept | apply Module.setPort_kept | apply Module.adjustLane_kept
    | split)

theorem Module.trigCfgWrite_kept (m : Module) (p : Nat) (v : Word) (hm : Memory.wf m.mem = true) :
    Memory.wf (Module.trigCfgWrite m p v).mem = true := by
  unfold Module.trigCfgWrite
  repeat' (first
    | with_reducible assumption
    | with_reducible first | refine ite_kept ?_ ?_ | refine foldl_kept _ _ ?_ ?_ | refine foldl_kept2 _ _ ?_ ?_ | refine foldl_kept22 _ _ ?_ ?_ | refine foldl_kept222 _ _ ?_ ?_
    | intro _
    | simp (maxDischargeDepth := 99) (maxSteps := 1000000) +contextual only [Module.wr_kept, Module.tick_kept, Module.setPort_kept, *])

theorem trigFreeRunPulse_kept (p : PortId) (m : Module) (hm : Memory.wf m.mem = true) :
    Memory.wf (trigFreeRunPulse p m).mem = true := by
  unfold trigFreeRunPulse
  repeat' (first
    | with_reducible assumption
    | with_reducible first | refine ite_kept ?_ ?_ | refine foldl_kept _ _ ?_ ?_ | refine foldl_kept2 _ _ ?_ ?_ | refine foldl_kept22 _ _ ?_ ?_ | refine foldl_kept222 _ _ ?_ ?_
    | intro _
    | simp (maxDischargeDepth := 99) (maxSteps := 1000000) +contextual only [Module.tick_kept, Module.setPort_kept, *])

theorem trigNetTimePulse_kept (p : PortId) (m : Module) (hm : Memory.wf m.mem = true) :
    Memory.wf (trigNetTimePulse p m).mem = true := by
  unfold trigNetTimePulse
  repeat' (first
    | with_reducible assumption
    | with_reducible first | refine ite_kept ?_ ?_ | refine foldl_kept _ _ ?_ ?_ | refine foldl_kept2 _ _ ?_ ?_ | refine foldl_kept22 _ _ ?_ ?_ | refine foldl_kept222 _ _ ?_ ?_
    | intro _
    | simp (maxDischargeDepth := 99) (maxSteps := 1000000) +contextual only [Module.tick_kept, Module.setPort_kept, *])

theorem trigPulseEnd_kept (p : PortId) (m : Module) (hm : Memory.wf m.mem = true) :
    Memory.wf (trigPulseEnd p m).mem = true := by
  unfold trigPulseEnd
  repeat' (first
    | with_reducible assumption
    | with_reducible first | refine ite_kept ?_ ?_ | refine foldl_kept _ _ ?_ ?_ | refine foldl_kept2 _ _ ?_ ?_ | refine foldl_kept22 _ _ ?_ ?_ | refine foldl_kept222 _ _ ?_ ?_
    | intro _
    | simp (maxDischargeDepth := 99) (maxSteps := 1000000) +contextual only [Module.setPort_kept, *])

theorem Module.trainCtl_kept (m : Module) (p : Nat) (v : Word) (hm : Memory.wf m.mem = true) :
    Memory.wf (Module.trainCtl m p v).2.mem = true := by
  unfold Module.trainCtl
  repeat' (first
    | with_reducible assumption
    | with_reducible first | refine ite_kept ?_ ?_ | refine foldl_kept _ _ ?_ ?_ | refine foldl_kept2 _ _ ?_ ?_ | refine foldl_kept22 _ _ ?_ ?_ | refine foldl_kept222 _ _ ?_ ?_
    | intro _
    | simp (maxDischargeDepth := 99) (maxSteps := 1000000) +contextual only [Module.calAbort_kept, Module.setPortState_kept, Module.wr_kept, Module.trainAbort_kept, *]
    | with_reducible first | apply Module.calAbort_kept | apply Module.setPortState_kept | apply Module.wr_kept | apply Module.trainAbort_kept
    | split)

theorem Module.trainEnd_kept (m : Module) (p : Nat) (result : Nat) (line : Nat) (eye : Nat) (hm : Memory.wf m.mem = true) :
    Memory.wf (Module.trainEnd m p result line eye).mem = true := by
  unfold Module.trainEnd
  repeat' (first
    | with_reducible assumption
    | with_reducible first | refine ite_kept ?_ ?_ | refine foldl_kept _ _ ?_ ?_ | refine foldl_kept2 _ _ ?_ ?_ | refine foldl_kept22 _ _ ?_ ?_ | refine foldl_kept222 _ _ ?_ ?_
    | intro _
    | simp (maxDischargeDepth := 99) (maxSteps := 1000000) +contextual only [Module.wr_kept, Module.setPortState_kept, *])

theorem Module.trainResult_kept (m : Module) (p : Nat) (x : List Nat × Nat × Nat) (hm : Memory.wf m.mem = true) :
    Memory.wf (Module.trainResult m p x).mem = true := by
  unfold Module.trainResult
  repeat' (first
    | with_reducible assumption
    | with_reducible first | refine ite_kept ?_ ?_ | refine foldl_kept _ _ ?_ ?_ | refine foldl_kept2 _ _ ?_ ?_ | refine foldl_kept22 _ _ ?_ ?_ | refine foldl_kept222 _ _ ?_ ?_
    | intro _
    | simp (maxDischargeDepth := 99) (maxSteps := 1000000) +contextual only [Module.setCal_kept, *]
    | with_reducible apply Module.setCal_kept
    | split)

theorem trainNoSignalTimeout_kept (p : PortId) (m : Module) (hm : Memory.wf m.mem = true) :
    Memory.wf (trainNoSignalTimeout p m).mem = true := by
  unfold trainNoSignalTimeout
  repeat' (first
    | with_reducible assumption
    | with_reducible first | refine ite_kept ?_ ?_ | refine foldl_kept _ _ ?_ ?_ | refine foldl_kept2 _ _ ?_ ?_ | refine foldl_kept22 _ _ ?_ ?_ | refine foldl_kept222 _ _ ?_ ?_
    | intro _
    | simp (maxDischargeDepth := 99) (maxSteps := 1000000) +contextual only [Module.trainEnd_kept, Module.trainResult_kept, *])

theorem trainDone_kept (p : PortId) (sweep : List (List (Bool × W16))) (verify : List (Bool × W16)) (m : Module) (hm : Memory.wf m.mem = true) :
    Memory.wf (trainDone p sweep verify m).mem = true := by
  unfold trainDone
  repeat' (first
    | with_reducible assumption
    | with_reducible first | refine ite_kept ?_ ?_ | refine foldl_kept _ _ ?_ ?_ | refine foldl_kept2 _ _ ?_ ?_ | refine foldl_kept22 _ _ ?_ ?_ | refine foldl_kept222 _ _ ?_ ?_
    | intro _
    | simp (maxDischargeDepth := 99) (maxSteps := 1000000) +contextual only [Module.trainEnd_kept, Module.trainResult_kept, Module.writeTaps_kept, Module.reportStored_kept, *]
    | with_reducible first | apply Module.trainEnd_kept | apply Module.trainResult_kept | apply Module.writeTaps_kept | apply Module.reportStored_kept
    | split)

end Sys2Proof.Machine
end

