-- ==== Sys2Proof/Laws/Kept/Lane.lean ====
section
/-!
SUPPORT. Every operation of Machine/Lane.lean keeps the canonical form of memory.
-/
namespace Sys2Proof.Machine

theorem Module.edgeLine_kept (m : Module) (c : Nat) (g : StripeGeom) (hm : Memory.wf m.mem = true) :
    Memory.wf (Module.edgeLine m c g).2.mem = true := by
  unfold Module.edgeLine
  repeat' (first
    | with_reducible assumption
    | with_reducible first | refine ite_kept ?_ ?_ | refine foldl_kept _ _ ?_ ?_ | refine foldl_kept2 _ _ ?_ ?_ | refine foldl_kept22 _ _ ?_ ?_ | refine foldl_kept222 _ _ ?_ ?_
    | intro _
    | simp (maxDischargeDepth := 99) (maxSteps := 1000000) +contextual only [*]
    | split)

theorem Module.laneTidy_kept (m : Module) (c : Nat) (hm : Memory.wf m.mem = true) :
    Memory.wf (Module.laneTidy m c).mem = true := by
  unfold Module.laneTidy
  repeat' (first
    | with_reducible assumption
    | with_reducible first | refine ite_kept ?_ ?_ | refine foldl_kept _ _ ?_ ?_ | refine foldl_kept2 _ _ ?_ ?_ | refine foldl_kept22 _ _ ?_ ?_ | refine foldl_kept222 _ _ ?_ ?_
    | intro _
    | simp (maxDischargeDepth := 99) (maxSteps := 1000000) +contextual only [Module.setCtx_kept, *])

theorem Module.putLane_kept (m : Module) (c : Nat) (f : LaneFrame) (hm : Memory.wf m.mem = true) :
    Memory.wf (Module.putLane m c f).mem = true := by
  unfold Module.putLane
  repeat' (first
    | with_reducible assumption
    | with_reducible first | refine ite_kept ?_ ?_ | refine foldl_kept _ _ ?_ ?_ | refine foldl_kept2 _ _ ?_ ?_ | refine foldl_kept22 _ _ ?_ ?_ | refine foldl_kept222 _ _ ?_ ?_
    | intro _
    | simp (maxDischargeDepth := 99) (maxSteps := 1000000) +contextual only [Module.adjustLane_kept, *])

theorem laneLineStart_kept (c : PortId) (m : Module) (hm : Memory.wf m.mem = true) :
    Memory.wf (laneLineStart c m).mem = true := by
  unfold laneLineStart
  repeat' (first
    | with_reducible assumption
    | with_reducible first | refine ite_kept ?_ ?_ | refine foldl_kept _ _ ?_ ?_ | refine foldl_kept2 _ _ ?_ ?_ | refine foldl_kept22 _ _ ?_ ?_ | refine foldl_kept222 _ _ ?_ ?_
    | intro _
    | simp (maxDischargeDepth := 99) (maxSteps := 1000000) +contextual only [Module.setFld_kept, Module.wr_kept, Module.calEnd_kept, Module.calAddLine_kept, ite_kept, *]
    | with_reducible first | apply Module.setFld_kept | apply Module.wr_kept | apply Module.calEnd_kept | apply Module.calAddLine_kept | apply Module.adjustLane_kept | apply Module.laneTidy_kept
    | split)

theorem Module.writeEdge_kept (m : Module) (c : Nat) (g : StripeGeom) (base : Nat) (k : Nat) (j : Nat) (out : List (List Pix)) (hm : Memory.wf m.mem = true) :
    Memory.wf (Module.writeEdge m c g base k j out).mem = true := by
  unfold Module.writeEdge
  repeat' (first
    | with_reducible assumption
    | with_reducible first | refine ite_kept ?_ ?_ | refine foldl_kept _ _ ?_ ?_ | refine foldl_kept2 _ _ ?_ ?_ | refine foldl_kept22 _ _ ?_ ?_ | refine foldl_kept222 _ _ ?_ ?_
    | intro _
    | simp (maxDischargeDepth := 99) (maxSteps := 1000000) +contextual only [Module.write_kept, Module.edgeLine_kept, *]
    | with_reducible first | apply Module.write_kept | apply Module.edgeLine_kept
    | split)

theorem Module.writeStripe_kept (m : Module) (c : Nat) (g : StripeGeom) (region : Nat) (f : LaneFrame) (bal : List (List Pix)) (y : Nat) (k : Nat) (hm : Memory.wf m.mem = true) :
    Memory.wf (Module.writeStripe m c g region f bal y k).mem = true := by
  unfold Module.writeStripe
  repeat' (first
    | with_reducible assumption
    | with_reducible first | refine ite_kept ?_ ?_ | refine foldl_kept _ _ ?_ ?_ | refine foldl_kept2 _ _ ?_ ?_ | refine foldl_kept22 _ _ ?_ ?_ | refine foldl_kept222 _ _ ?_ ?_
    | intro _
    | simp (maxDischargeDepth := 99) (maxSteps := 1000000) +contextual only [Module.write_kept, Module.writeEdge_kept, implies_true, foldl_kept, *])

theorem laneOutputLine_kept (c : PortId) (m : Module) (hm : Memory.wf m.mem = true) :
    Memory.wf (laneOutputLine c m).mem = true := by
  unfold laneOutputLine
  repeat' (first
    | with_reducible assumption
    | with_reducible first | refine ite_kept ?_ ?_ | refine foldl_kept _ _ ?_ ?_ | refine foldl_kept2 _ _ ?_ ?_ | refine foldl_kept22 _ _ ?_ ?_ | refine foldl_kept222 _ _ ?_ ?_
    | intro _
    | simp (maxDischargeDepth := 99) (maxSteps := 1000000) +contextual only [Module.putLane_kept, Module.writeStripe_kept, *]
    | with_reducible first | apply Module.frames_kept | apply Module.putLane_kept | apply Module.count_kept | apply Module.writeStripe_kept
    | split)

theorem stripeReady_kept (c : PortId) (m : Module) (hm : Memory.wf m.mem = true) :
    Memory.wf (stripeReady c m).mem = true := by
  unfold stripeReady
  repeat' (first
    | with_reducible assumption
    | with_reducible first | refine ite_kept ?_ ?_ | refine foldl_kept _ _ ?_ ?_ | refine foldl_kept2 _ _ ?_ ?_ | refine foldl_kept22 _ _ ?_ ?_ | refine foldl_kept222 _ _ ?_ ?_
    | intro _
    | simp (maxDischargeDepth := 99) (maxSteps := 1000000) +contextual only [Module.addSync_kept, Module.putLane_kept, Module.laneTidy_kept, ite_kept, *]
    | with_reducible first | apply Module.count_kept | apply Module.addSync_kept | apply Module.putLane_kept | apply Module.laneTidy_kept
    | split)

theorem statsRecordDone_kept (c : PortId) (m : Module) (hm : Memory.wf m.mem = true) :
    Memory.wf (statsRecordDone c m).mem = true := by
  unfold statsRecordDone
  repeat' (first
    | with_reducible assumption
    | with_reducible first | refine ite_kept ?_ ?_ | refine foldl_kept _ _ ?_ ?_ | refine foldl_kept2 _ _ ?_ ?_ | refine foldl_kept22 _ _ ?_ ?_ | refine foldl_kept222 _ _ ?_ ?_
    | intro _
    | simp (maxDischargeDepth := 99) (maxSteps := 1000000) +contextual only [Module.setCtx_kept, Module.putLane_kept, Module.laneTidy_kept, Module.write_kept, *]
    | with_reducible first | apply Module.frames_kept | apply Module.setCtx_kept | apply Module.putLane_kept | apply Module.laneTidy_kept | apply Module.write_kept | apply Module.addSync_kept | apply Module.raiseCtx_kept
    | split)

theorem aeUpdate_kept (c : PortId) (m : Module) (hm : Memory.wf m.mem = true) :
    Memory.wf (aeUpdate c m).mem = true := by
  unfold aeUpdate
  repeat' (first
    | with_reducible assumption
    | with_reducible first | refine ite_kept ?_ ?_ | refine foldl_kept _ _ ?_ ?_ | refine foldl_kept2 _ _ ?_ ?_ | refine foldl_kept22 _ _ ?_ ?_ | refine foldl_kept222 _ _ ?_ ?_
    | intro _
    | with_reducible apply Module.firmware_kept
    | simp (maxDischargeDepth := 99) (maxSteps := 1000000) +contextual only [Module.setCtx_kept, *]
    | with_reducible first | apply Module.firmware_kept | apply Module.setCtx_kept
    | split)

theorem awbUpdate_kept (c : PortId) (m : Module) (hm : Memory.wf m.mem = true) :
    Memory.wf (awbUpdate c m).mem = true := by
  unfold awbUpdate
  repeat' (first
    | with_reducible assumption
    | with_reducible first | refine ite_kept ?_ ?_ | refine foldl_kept _ _ ?_ ?_ | refine foldl_kept2 _ _ ?_ ?_ | refine foldl_kept22 _ _ ?_ ?_ | refine foldl_kept222 _ _ ?_ ?_
    | intro _
    | with_reducible apply Module.firmware_kept
    | simp (maxDischargeDepth := 99) (maxSteps := 1000000) +contextual only [Module.setCtx_kept, *]
    | with_reducible first | apply Module.firmware_kept | apply Module.setCtx_kept
    | split)

end Sys2Proof.Machine
end

