-- ==== Sys2Proof/Laws/Kept/Engine.lean ====
section
/-!
SUPPORT. Every operation of Machine/Engine.lean keeps the canonical form of memory.
-/
namespace Sys2Proof.Machine

theorem Module.setEng_kept (m : Module) (e : EngPos) (x : Eng) (hm : Memory.wf m.mem = true) :
    Memory.wf (Module.setEng m e x).mem = true := by
  unfold Module.setEng
  repeat' (first
    | with_reducible assumption)

theorem Module.putTask_kept (m : Module) (e : EngPos) (t : EngTask) (hm : Memory.wf m.mem = true) :
    Memory.wf (Module.putTask m e t).mem = true := by
  unfold Module.putTask
  repeat' (first
    | with_reducible assumption
    | with_reducible first | refine ite_kept ?_ ?_ | refine foldl_kept _ _ ?_ ?_ | refine foldl_kept2 _ _ ?_ ?_ | refine foldl_kept22 _ _ ?_ ?_ | refine foldl_kept222 _ _ ?_ ?_
    | intro _
    | simp (maxDischargeDepth := 99) (maxSteps := 1000000) +contextual only [Module.setEng_kept, *])

theorem Module.setEngState_kept (m : Module) (e : EngPos) (v : Nat) (hm : Memory.wf m.mem = true) :
    Memory.wf (Module.setEngState m e v).mem = true := by
  unfold Module.setEngState
  repeat' (first
    | with_reducible assumption
    | with_reducible first | refine ite_kept ?_ ?_ | refine foldl_kept _ _ ?_ ?_ | refine foldl_kept2 _ _ ?_ ?_ | refine foldl_kept22 _ _ ?_ ?_ | refine foldl_kept222 _ _ ?_ ?_
    | intro _
    | simp (maxDischargeDepth := 99) (maxSteps := 1000000) +contextual only [Module.setFld_kept, *])

theorem Module.arith_kept (m : Module) (e : EngPos) (f : Nat) (hm : Memory.wf m.mem = true) :
    Memory.wf (Module.arith m e f).mem = true := by
  unfold Module.arith
  repeat' (first
    | with_reducible assumption
    | with_reducible first | refine ite_kept ?_ ?_ | refine foldl_kept _ _ ?_ ?_ | refine foldl_kept2 _ _ ?_ ?_ | refine foldl_kept22 _ _ ?_ ?_ | refine foldl_kept222 _ _ ?_ ?_
    | intro _
    | simp (maxDischargeDepth := 99) (maxSteps := 1000000) +contextual only [Module.wr_kept, *])

theorem Module.abortTask_kept (m : Module) (e : EngPos) (a : Abort) (hm : Memory.wf m.mem = true) :
    Memory.wf (Module.abortTask m e a).mem = true := by
  unfold Module.abortTask
  repeat' (first
    | with_reducible assumption
    | with_reducible first | refine ite_kept ?_ ?_ | refine foldl_kept _ _ ?_ ?_ | refine foldl_kept2 _ _ ?_ ?_ | refine foldl_kept22 _ _ ?_ ?_ | refine foldl_kept222 _ _ ?_ ?_
    | intro _
    | simp (maxDischargeDepth := 99) (maxSteps := 1000000) +contextual only [Module.setEng_kept, Module.setFld_kept, Module.count_kept, *]
    | with_reducible first | apply Module.setEng_kept | apply Module.setFld_kept | apply Module.count_kept
    | split)

theorem Module.instr_kept (m : Module) (e : EngPos) (w : Walker) (op : Nat) (f : Module → EngTask → WalkerSt → Nat → Module) (hm : Memory.wf m.mem = true) (hf : ∀ (x0 : Module) (x1 : EngTask) (x2 : WalkerSt) (x3 : Nat), Memory.wf x0.mem = true → Memory.wf (f x0 x1 x2 x3).mem = true) :
    Memory.wf (Module.instr m e w op f).mem = true := by
  unfold Module.instr
  repeat' (first
    | with_reducible assumption
    | with_reducible first | refine ite_kept ?_ ?_ | refine foldl_kept _ _ ?_ ?_ | refine foldl_kept2 _ _ ?_ ?_ | refine foldl_kept22 _ _ ?_ ?_ | refine foldl_kept222 _ _ ?_ ?_
    | intro _
    | simp (maxDischargeDepth := 99) (maxSteps := 1000000) +contextual only [*]
    | split)

theorem Module.pass_kept (m : Module) (e : EngPos) (w : Walker) (t : EngTask) (s : WalkerSt) (hm : Memory.wf m.mem = true) :
    Memory.wf (Module.pass m e w t s).mem = true := by
  unfold Module.pass
  repeat' (first
    | with_reducible assumption
    | with_reducible first | refine ite_kept ?_ ?_ | refine foldl_kept _ _ ?_ ?_ | refine foldl_kept2 _ _ ?_ ?_ | refine foldl_kept22 _ _ ?_ ?_ | refine foldl_kept222 _ _ ?_ ?_
    | intro _
    | simp (maxDischargeDepth := 99) (maxSteps := 1000000) +contextual only [Module.putTask_kept, *])

theorem Module.execOnly_kept (m : Module) (e : EngPos) (w : Walker) (op : Nat) (f : Module → EngTask → WalkerSt → Nat → Module) (hm : Memory.wf m.mem = true) (hf : ∀ (x0 : Module) (x1 : EngTask) (x2 : WalkerSt) (x3 : Nat), Memory.wf x0.mem = true → Memory.wf (f x0 x1 x2 x3).mem = true) :
    Memory.wf (Module.execOnly m e w op f).mem = true := by
  unfold Module.execOnly
  repeat' (first
    | with_reducible assumption
    | with_reducible first | refine ite_kept ?_ ?_ | refine foldl_kept _ _ ?_ ?_ | refine foldl_kept2 _ _ ?_ ?_ | refine foldl_kept22 _ _ ?_ ?_ | refine foldl_kept222 _ _ ?_ ?_
    | intro _
    | with_reducible apply Module.instr_kept
    | simp (maxDischargeDepth := 99) (maxSteps := 1000000) +contextual only [Module.pass_kept, *]
    | with_reducible first | apply Module.instr_kept | apply Module.pass_kept
    | split)

theorem Module.barrier_kept (m : Module) (e : EngPos) (w : Walker) (op : Nat) (f : Module → EngTask → WalkerSt → Nat → Module) (hm : Memory.wf m.mem = true) (hf : ∀ (x0 : Module) (x1 : EngTask) (x2 : WalkerSt) (x3 : Nat), Memory.wf x0.mem = true → Memory.wf (f x0 x1 x2 x3).mem = true) :
    Memory.wf (Module.barrier m e w op f).mem = true := by
  unfold Module.barrier
  repeat' (first
    | with_reducible assumption
    | with_reducible first | refine ite_kept ?_ ?_ | refine foldl_kept _ _ ?_ ?_ | refine foldl_kept2 _ _ ?_ ?_ | refine foldl_kept22 _ _ ?_ ?_ | refine foldl_kept222 _ _ ?_ ?_
    | intro _
    | with_reducible apply Module.instr_kept
    | simp (maxDischargeDepth := 99) (maxSteps := 1000000) +contextual only [Module.pass_kept, *]
    | with_reducible first | apply Module.instr_kept | apply Module.pass_kept
    | split)

theorem engineNop_kept (e : EngPos) (w : Walker) (m : Module) (hm : Memory.wf m.mem = true) :
    Memory.wf (engineNop e w m).mem = true := by
  unfold engineNop
  repeat' (first
    | with_reducible assumption
    | with_reducible first | refine ite_kept ?_ ?_ | refine foldl_kept _ _ ?_ ?_ | refine foldl_kept2 _ _ ?_ ?_ | refine foldl_kept22 _ _ ?_ ?_ | refine foldl_kept222 _ _ ?_ ?_
    | intro _
    | with_reducible apply Module.instr_kept
    | simp (maxDischargeDepth := 99) (maxSteps := 1000000) +contextual only [Module.pass_kept, *])

theorem endOp_kept (e : EngPos) (w : Walker) (m : Module) (hm : Memory.wf m.mem = true) :
    Memory.wf (endOp e w m).mem = true := by
  unfold endOp
  repeat' (first
    | with_reducible assumption
    | with_reducible first | refine ite_kept ?_ ?_ | refine foldl_kept _ _ ?_ ?_ | refine foldl_kept2 _ _ ?_ ?_ | refine foldl_kept22 _ _ ?_ ?_ | refine foldl_kept222 _ _ ?_ ?_
    | intro _
    | with_reducible apply Module.instr_kept
    | simp (maxDischargeDepth := 99) (maxSteps := 1000000) +contextual only [Module.putTask_kept, *]
    | with_reducible first | apply Module.instr_kept | apply Module.putTask_kept
    | split)

theorem loop_kept (e : EngPos) (w : Walker) (m : Module) (hm : Memory.wf m.mem = true) :
    Memory.wf (loop e w m).mem = true := by
  unfold loop
  repeat' (first
    | with_reducible assumption
    | with_reducible first | refine ite_kept ?_ ?_ | refine foldl_kept _ _ ?_ ?_ | refine foldl_kept2 _ _ ?_ ?_ | refine foldl_kept22 _ _ ?_ ?_ | refine foldl_kept222 _ _ ?_ ?_
    | intro _
    | with_reducible apply Module.instr_kept
    | simp (maxDischargeDepth := 99) (maxSteps := 1000000) +contextual only [Module.putTask_kept, *])

theorem setp_kept (e : EngPos) (w : Walker) (m : Module) (hm : Memory.wf m.mem = true) :
    Memory.wf (setp e w m).mem = true := by
  unfold setp
  repeat' (first
    | with_reducible assumption
    | with_reducible first | refine ite_kept ?_ ?_ | refine foldl_kept _ _ ?_ ?_ | refine foldl_kept2 _ _ ?_ ?_ | refine foldl_kept22 _ _ ?_ ?_ | refine foldl_kept222 _ _ ?_ ?_
    | intro _
    | with_reducible apply Module.instr_kept
    | simp (maxDischargeDepth := 99) (maxSteps := 1000000) +contextual only [Module.pass_kept, *])

theorem alu_kept (e : EngPos) (w : Walker) (m : Module) (hm : Memory.wf m.mem = true) :
    Memory.wf (alu e w m).mem = true := by
  unfold alu
  repeat' (first
    | with_reducible assumption
    | with_reducible first | refine ite_kept ?_ ?_ | refine foldl_kept _ _ ?_ ?_ | refine foldl_kept2 _ _ ?_ ?_ | refine foldl_kept22 _ _ ?_ ?_ | refine foldl_kept222 _ _ ?_ ?_
    | intro _
    | with_reducible apply Module.instr_kept
    | simp (maxDischargeDepth := 99) (maxSteps := 1000000) +contextual only [Module.pass_kept, *])

theorem Module.engRead_kept (m : Module) (e : EngPos) (a : Nat) (n : Nat) (hm : Memory.wf m.mem = true) :
    Memory.wf (Module.engRead m e a n).2.mem = true := by
  unfold Module.engRead
  repeat' (first
    | with_reducible assumption
    | with_reducible first | refine ite_kept ?_ ?_ | refine foldl_kept _ _ ?_ ?_ | refine foldl_kept2 _ _ ?_ ?_ | refine foldl_kept22 _ _ ?_ ?_ | refine foldl_kept222 _ _ ?_ ?_
    | intro _
    | simp (maxDischargeDepth := 99) (maxSteps := 1000000) +contextual only [Module.meet_kept, Module.readBad_kept, *])

theorem Module.engReads_kept (m : Module) (e : EngPos) (l : List (Nat × Nat)) (hm : Memory.wf m.mem = true) :
    Memory.wf (Module.engReads m e l).2.mem = true := by
  unfold Module.engReads
  repeat' (first
    | with_reducible assumption
    | with_reducible first | refine ite_kept ?_ ?_ | refine foldl_kept _ _ ?_ ?_ | refine foldl_kept2 _ _ ?_ ?_ | refine foldl_kept22 _ _ ?_ ?_ | refine foldl_kept222 _ _ ?_ ?_
    | intro _
    | simp (maxDischargeDepth := 99) (maxSteps := 1000000) +contextual only [Module.engRead_kept, *])

theorem ldp_kept (e : EngPos) (w : Walker) (m : Module) (hm : Memory.wf m.mem = true) :
    Memory.wf (ldp e w m).mem = true := by
  unfold ldp
  repeat' (first
    | with_reducible assumption
    | with_reducible first | refine ite_kept ?_ ?_ | refine foldl_kept _ _ ?_ ?_ | refine foldl_kept2 _ _ ?_ ?_ | refine foldl_kept22 _ _ ?_ ?_ | refine foldl_kept222 _ _ ?_ ?_
    | intro _
    | with_reducible apply Module.instr_kept
    | simp (maxDischargeDepth := 99) (maxSteps := 1000000) +contextual only [Module.engRead_kept, Module.abortTask_kept, Module.pass_kept, *])

theorem slotOp_kept (e : EngPos) (w : Walker) (m : Module) (hm : Memory.wf m.mem = true) :
    Memory.wf (slotOp e w m).mem = true := by
  unfold slotOp
  repeat' (first
    | with_reducible assumption
    | with_reducible first | refine ite_kept ?_ ?_ | refine foldl_kept _ _ ?_ ?_ | refine foldl_kept2 _ _ ?_ ?_ | refine foldl_kept22 _ _ ?_ ?_ | refine foldl_kept222 _ _ ?_ ?_
    | intro _
    | with_reducible apply Module.instr_kept
    | simp (maxDischargeDepth := 99) (maxSteps := 1000000) +contextual only [Module.pass_kept, *])

theorem Module.engAsk_kept (m : Module) (e : EngPos) (w : Fin 64) (off : Nat) (n : Nat) (hm : Memory.wf m.mem = true) :
    Memory.wf (Module.engAsk m e w off n).2.mem = true := by
  unfold Module.engAsk
  repeat' (first
    | with_reducible assumption
    | with_reducible first | refine ite_kept ?_ ?_ | refine foldl_kept _ _ ?_ ?_ | refine foldl_kept2 _ _ ?_ ?_ | refine foldl_kept22 _ _ ?_ ?_ | refine foldl_kept222 _ _ ?_ ?_
    | intro _
    | simp (maxDischargeDepth := 99) (maxSteps := 1000000) +contextual only [Module.winReadFrom_kept, *])

theorem Module.issueRead_kept (m : Module) (e : EngPos) (t : EngTask) (sc : Bool) (x : Tile) (l : List Piece) (hm : Memory.wf m.mem = true) :
    Memory.wf (Module.issueRead m e t sc x l).2.mem = true := by
  unfold Module.issueRead
  repeat' (first
    | with_reducible assumption
    | with_reducible first | refine ite_kept ?_ ?_ | refine foldl_kept _ _ ?_ ?_ | refine foldl_kept2 _ _ ?_ ?_ | refine foldl_kept22 _ _ ?_ ?_ | refine foldl_kept222 _ _ ?_ ?_
    | intro _
    | simp (maxDischargeDepth := 99) (maxSteps := 1000000) +contextual only [Module.engAsk_kept, Module.engRead_kept, *]
    | with_reducible first | apply Module.engAsk_kept | apply Module.engRead_kept
    | split)

theorem Module.pumpReads_kept (m : Module) (fuel : Nat) (e : EngPos) (hm : Memory.wf m.mem = true) :
    Memory.wf (Module.pumpReads m fuel e).mem = true := by
  induction fuel generalizing m with
  | zero => exact hm
  | succ k ih =>
    unfold Module.pumpReads
    repeat' split
    all_goals first
      | exact hm
      | contradiction
      | (next heq =>
          have hq := congrArg (fun z => Memory.wf z.2.mem) heq
          simp only [Module.issueRead_kept _ _ _ _ _ _ hm] at hq
          dsimp only
          refine ite_kept hm ?_
          first
            | exact Module.abortTask_kept _ _ _ hq.symm
            | (injections; subst_vars; exact ih _ (Module.putTask_kept _ _ _ hq.symm)))


theorem Module.gateCopy_kept (m : Module) (g : GateBuf) (l : List Piece) (hm : Memory.wf m.mem = true) :
    Memory.wf (Module.gateCopy m g l).mem = true := by
  unfold Module.gateCopy
  repeat' (first
    | with_reducible assumption
    | with_reducible first | refine ite_kept ?_ ?_ | refine foldl_kept _ _ ?_ ?_ | refine foldl_kept2 _ _ ?_ ?_ | refine foldl_kept22 _ _ ?_ ?_ | refine foldl_kept222 _ _ ?_ ?_
    | intro _
    | simp (maxDischargeDepth := 99) (maxSteps := 1000000) +contextual only [Module.write_kept, *])

theorem fetchWith_kept (gate : EngPos → EngTask → Module → Option GateBuf) (e : EngPos) (w : Walker) (errs : List MemErr) (m : Module) (hm : Memory.wf m.mem = true) :
    Memory.wf (fetchWith gate e w errs m).mem = true := by
  unfold fetchWith
  repeat' (first
    | with_reducible assumption
    | with_reducible first | refine ite_kept ?_ ?_ | refine foldl_kept _ _ ?_ ?_ | refine foldl_kept2 _ _ ?_ ?_ | refine foldl_kept22 _ _ ?_ ?_ | refine foldl_kept222 _ _ ?_ ?_
    | intro _
    | with_reducible apply Module.instr_kept
    | with_reducible apply Module.gate_kept
    | simp (maxDischargeDepth := 99) (maxSteps := 1000000) +contextual only [Module.pass_kept, Module.engReads_kept, Module.abortTask_kept, Module.gateCopy_kept, *]
    | with_reducible first | apply Module.instr_kept | apply Module.pass_kept | apply Module.engReads_kept | apply Module.abortTask_kept | apply Module.gate_kept | apply Module.gateCopy_kept | apply Module.upset_kept | apply Module.pumpReads_kept
    | split)

theorem tileArrived_kept (e : EngPos) (queue : Fin 4) (m : Module) (hm : Memory.wf m.mem = true) :
    Memory.wf (tileArrived e queue m).mem = true := by
  unfold tileArrived
  repeat' (first
    | with_reducible assumption
    | with_reducible first | refine ite_kept ?_ ?_ | refine foldl_kept _ _ ?_ ?_ | refine foldl_kept2 _ _ ?_ ?_ | refine foldl_kept22 _ _ ?_ ?_ | refine foldl_kept222 _ _ ?_ ?_
    | intro _
    | simp (maxDischargeDepth := 99) (maxSteps := 1000000) +contextual only [Module.putTask_kept, Module.pumpReads_kept, *]
    | with_reducible first | apply Module.complete_kept | apply Module.putTask_kept | apply Module.pumpReads_kept
    | split)

theorem Module.meetMasked_kept (m : Module) (e : EngPos) (a : Nat) (l : List (Byte × Byte)) (hm : Memory.wf m.mem = true) :
    Memory.wf (Module.meetMasked m e a l).mem = true := by
  unfold Module.meetMasked
  repeat' (first
    | with_reducible assumption
    | with_reducible first | refine ite_kept ?_ ?_ | refine foldl_kept _ _ ?_ ?_ | refine foldl_kept2 _ _ ?_ ?_ | refine foldl_kept22 _ _ ?_ ?_ | refine foldl_kept222 _ _ ?_ ?_
    | intro _
    | simp (maxDischargeDepth := 99) (maxSteps := 1000000) +contextual only [Module.meet_kept, *])

theorem Module.writeMasked_kept (m : Module) (a : Nat) (l : List (Byte × Byte)) (bad : List Nat) (hm : Memory.wf m.mem = true) :
    Memory.wf (Module.writeMasked m a l bad).mem = true := by
  unfold Module.writeMasked
  repeat' (first
    | with_reducible assumption
    | with_reducible first | refine ite_kept ?_ ?_ | refine foldl_kept _ _ ?_ ?_ | refine foldl_kept2 _ _ ?_ ?_ | refine foldl_kept22 _ _ ?_ ?_ | refine foldl_kept222 _ _ ?_ ?_
    | intro _
    | simp (maxDischargeDepth := 99) (maxSteps := 1000000) +contextual only [Module.flushSpan_kept, Module.clearBad_kept, Module.putSome_kept, implies_true, foldl_kept, *])

theorem Module.issueWrite_kept (m : Module) (e : EngPos) (x : EngWrite) (hm : Memory.wf m.mem = true) :
    Memory.wf (Module.issueWrite m e x).2.mem = true := by
  unfold Module.issueWrite
  repeat' (first
    | with_reducible assumption
    | with_reducible first | refine ite_kept ?_ ?_ | refine foldl_kept _ _ ?_ ?_ | refine foldl_kept2 _ _ ?_ ?_ | refine foldl_kept22 _ _ ?_ ?_ | refine foldl_kept222 _ _ ?_ ?_
    | intro _
    | simp (maxDischargeDepth := 99) (maxSteps := 1000000) +contextual only [Module.winWriteTo_kept, Module.meetMasked_kept, Module.write_kept, Module.dramMet_kept, Module.writeMasked_kept, *]
    | with_reducible first | apply Module.winWriteTo_kept | apply Module.meetMasked_kept | apply Module.write_kept | apply Module.dramMet_kept | apply Module.writeMasked_kept
    | split)

theorem Module.pump_kept (m : Module) (fuel : Nat) (e : EngPos) (hm : Memory.wf m.mem = true) :
    Memory.wf (Module.pump m fuel e).mem = true := by
  induction fuel generalizing m e with
  | zero =>
    unfold Module.pump
    repeat' (first
      | with_reducible assumption
      | with_reducible first | refine ite_kept ?_ ?_ | refine foldl_kept _ _ ?_ ?_ | refine foldl_kept2 _ _ ?_ ?_ | refine foldl_kept22 _ _ ?_ ?_ | refine foldl_kept222 _ _ ?_ ?_
      | intro _
      | (rename_i heq; have hq := congrArg (fun z => z.2.2) heq; dsimp only at hq; subst hq; clear heq)
      | (rename_i heq; have hq := congrArg Prod.snd heq; dsimp only at hq; subst hq; clear heq)
      | simp (maxDischargeDepth := 99) (maxSteps := 1000000) +contextual only [Module.abortTask_kept, Module.engAsk_kept, Module.putTask_kept, Module.issueWrite_kept, implies_true, reset_kept, Memory.wf_set, Memory.wf_filter, Memory.wf_nil, ite_kept, foldl_kept, foldl_kept2, foldl_kept22, foldl_kept222, *]
      | with_reducible first | apply Module.abortTask_kept | apply Module.engAsk_kept | apply Module.putTask_kept | apply Module.issueWrite_kept
      | split)
  | succ k ih =>
    unfold Module.pump
    repeat' (first
      | with_reducible assumption
      | with_reducible first | refine ite_kept ?_ ?_ | refine foldl_kept _ _ ?_ ?_ | refine foldl_kept2 _ _ ?_ ?_ | refine foldl_kept22 _ _ ?_ ?_ | refine foldl_kept222 _ _ ?_ ?_
      | intro _
      | (rename_i heq; have hq := congrArg (fun z => z.2.2) heq; dsimp only at hq; subst hq; clear heq)
      | (rename_i heq; have hq := congrArg Prod.snd heq; dsimp only at hq; subst hq; clear heq)
      | simp (maxDischargeDepth := 99) (maxSteps := 1000000) +contextual only [Module.abortTask_kept, Module.engAsk_kept, Module.putTask_kept, Module.issueWrite_kept, *]
      | with_reducible first | apply Module.abortTask_kept | apply Module.engAsk_kept | apply Module.putTask_kept | apply Module.issueWrite_kept
      | split)

theorem Module.ackWrite_kept (m : Module) (e : EngPos) (hm : Memory.wf m.mem = true) :
    Memory.wf (Module.ackWrite m e).mem = true := by
  unfold Module.ackWrite
  repeat' (first
    | with_reducible assumption
    | with_reducible first | refine ite_kept ?_ ?_ | refine foldl_kept _ _ ?_ ?_ | refine foldl_kept2 _ _ ?_ ?_ | refine foldl_kept22 _ _ ?_ ?_ | refine foldl_kept222 _ _ ?_ ?_
    | intro _
    | simp (maxDischargeDepth := 99) (maxSteps := 1000000) +contextual only [Module.putTask_kept, Module.pump_kept, *]
    | with_reducible first | apply Module.putTask_kept | apply Module.pump_kept
    | split)

theorem Module.pumpAll_kept (m : Module) (hm : Memory.wf m.mem = true) :
    Memory.wf (Module.pumpAll m).mem = true := by
  unfold Module.pumpAll
  repeat' (first
    | with_reducible assumption
    | with_reducible first | refine ite_kept ?_ ?_ | refine foldl_kept _ _ ?_ ?_ | refine foldl_kept2 _ _ ?_ ?_ | refine foldl_kept22 _ _ ?_ ?_ | refine foldl_kept222 _ _ ?_ ?_
    | intro _
    | simp (maxDischargeDepth := 99) (maxSteps := 1000000) +contextual only [Module.pump_kept, Module.pumpReads_kept, *]
    | with_reducible first | apply Module.pump_kept | apply Module.pumpReads_kept
    | split)

theorem Module.engineAck_kept (m : Module) (e : EngPos) (hm : Memory.wf m.mem = true) :
    Memory.wf (Module.engineAck m e).mem = true := by
  unfold Module.engineAck
  repeat' (first
    | with_reducible assumption
    | with_reducible first | refine ite_kept ?_ ?_ | refine foldl_kept _ _ ?_ ?_ | refine foldl_kept2 _ _ ?_ ?_ | refine foldl_kept22 _ _ ?_ ?_ | refine foldl_kept222 _ _ ?_ ?_
    | intro _
    | simp (maxDischargeDepth := 99) (maxSteps := 1000000) +contextual only [Module.ackWrite_kept, *]
    | with_reducible apply Module.ackWrite_kept
    | split)

theorem Module.queueWrite_kept (m : Module) (t : EngTask) (x : EngWrite) (hm : Memory.wf m.mem = true) :
    Memory.wf (Module.queueWrite m t x).2.2.mem = true := by
  unfold Module.queueWrite
  repeat' (first
    | with_reducible assumption
    | with_reducible first | refine ite_kept ?_ ?_ | refine foldl_kept _ _ ?_ ?_ | refine foldl_kept2 _ _ ?_ ?_ | refine foldl_kept22 _ _ ?_ ?_ | refine foldl_kept222 _ _ ?_ ?_
    | intro _
    | simp (maxDischargeDepth := 99) (maxSteps := 1000000) +contextual only [*]
    | split)

theorem Module.queueWrites_kept (m : Module) (t : EngTask) (l : List EngWrite) (hm : Memory.wf m.mem = true) :
    Memory.wf (Module.queueWrites m t l).2.mem = true := by
  induction l generalizing m t with
  | nil =>
    unfold Module.queueWrites
    repeat' (first
      | with_reducible assumption
      | with_reducible first | refine ite_kept ?_ ?_ | refine foldl_kept _ _ ?_ ?_ | refine foldl_kept2 _ _ ?_ ?_ | refine foldl_kept22 _ _ ?_ ?_ | refine foldl_kept222 _ _ ?_ ?_
      | intro _
      | (rename_i heq; have hq := congrArg (fun z => z.2.2) heq; dsimp only at hq; subst hq; clear heq)
      | (rename_i heq; have hq := congrArg Prod.snd heq; dsimp only at hq; subst hq; clear heq)
      | simp (maxDischargeDepth := 99) (maxSteps := 1000000) +contextual only [Module.queueWrite_kept, implies_true, reset_kept, Memory.wf_set, Memory.wf_filter, Memory.wf_nil, ite_kept, foldl_kept, foldl_kept2, foldl_kept22, foldl_kept222, *]
      | with_reducible first | apply Module.queueWrite_kept
      | split)
  | cons hd tl ih =>
    unfold Module.queueWrites
    repeat' (first
      | with_reducible assumption
      | with_reducible first | refine ite_kept ?_ ?_ | refine foldl_kept _ _ ?_ ?_ | refine foldl_kept2 _ _ ?_ ?_ | refine foldl_kept22 _ _ ?_ ?_ | refine foldl_kept222 _ _ ?_ ?_
      | intro _
      | (rename_i heq; have hq := congrArg (fun z => z.2.2) heq; dsimp only at hq; subst hq; clear heq)
      | (rename_i heq; have hq := congrArg Prod.snd heq; dsimp only at hq; subst hq; clear heq)
      | simp (maxDischargeDepth := 99) (maxSteps := 1000000) +contextual only [Module.queueWrite_kept, *]
      | with_reducible first | apply Module.queueWrite_kept
      | split)

theorem fence_kept (e : EngPos) (w : Walker) (m : Module) (hm : Memory.wf m.mem = true) :
    Memory.wf (fence e w m).mem = true := by
  unfold fence
  repeat' (first
    | with_reducible assumption
    | with_reducible first | refine ite_kept ?_ ?_ | refine foldl_kept _ _ ?_ ?_ | refine foldl_kept2 _ _ ?_ ?_ | refine foldl_kept22 _ _ ?_ ?_ | refine foldl_kept222 _ _ ?_ ?_
    | intro _
    | with_reducible apply Module.barrier_kept
    | simp (maxDischargeDepth := 99) (maxSteps := 1000000) +contextual only [Module.pass_kept, *])

theorem swait_kept (e : EngPos) (w : Walker) (m : Module) (hm : Memory.wf m.mem = true) :
    Memory.wf (swait e w m).mem = true := by
  unfold swait
  repeat' (first
    | with_reducible assumption
    | with_reducible first | refine ite_kept ?_ ?_ | refine foldl_kept _ _ ?_ ?_ | refine foldl_kept2 _ _ ?_ ?_ | refine foldl_kept22 _ _ ?_ ?_ | refine foldl_kept222 _ _ ?_ ?_
    | intro _
    | with_reducible apply Module.barrier_kept
    | simp (maxDischargeDepth := 99) (maxSteps := 1000000) +contextual only [Module.abortTask_kept, Module.pass_kept, *])

theorem swaitTimeout_kept (e : EngPos) (m : Module) (hm : Memory.wf m.mem = true) :
    Memory.wf (swaitTimeout e m).mem = true := by
  unfold swaitTimeout
  repeat' (first
    | with_reducible assumption
    | with_reducible first | refine ite_kept ?_ ?_ | refine foldl_kept _ _ ?_ ?_ | refine foldl_kept2 _ _ ?_ ?_ | refine foldl_kept22 _ _ ?_ ?_ | refine foldl_kept222 _ _ ?_ ?_
    | intro _
    | with_reducible apply Module.instr_kept
    | simp (maxDischargeDepth := 99) (maxSteps := 1000000) +contextual only [Module.count_kept, Module.abortTask_kept, *])

theorem ssig_kept (e : EngPos) (w : Walker) (m : Module) (hm : Memory.wf m.mem = true) :
    Memory.wf (ssig e w m).mem = true := by
  unfold ssig
  repeat' (first
    | with_reducible assumption
    | with_reducible first | refine ite_kept ?_ ?_ | refine foldl_kept _ _ ?_ ?_ | refine foldl_kept2 _ _ ?_ ?_ | refine foldl_kept22 _ _ ?_ ?_ | refine foldl_kept222 _ _ ?_ ?_
    | intro _
    | with_reducible apply Module.execOnly_kept
    | simp (maxDischargeDepth := 99) (maxSteps := 1000000) +contextual only [Module.abortTask_kept, Module.guestAdd_kept, Module.addSync_kept, Module.pass_kept, ite_kept, *])

end Sys2Proof.Machine
end

