-- ==== Sys2Proof/Laws/Kept/Compute.lean ====
section
/-!
SUPPORT. Every operation of Machine/Compute.lean keeps the canonical form of memory.
-/
namespace Sys2Proof.Machine

theorem wload_kept (e : EngPos) (w : Walker) (m : Module) (hm : Memory.wf m.mem = true) :
    Memory.wf (wload e w m).mem = true := by
  unfold wload
  repeat' (first
    | with_reducible assumption
    | with_reducible first | refine ite_kept ?_ ?_ | refine foldl_kept _ _ ?_ ?_ | refine foldl_kept2 _ _ ?_ ?_ | refine foldl_kept22 _ _ ?_ ?_ | refine foldl_kept222 _ _ ?_ ?_
    | intro _
    | with_reducible apply Module.instr_kept
    | simp (maxDischargeDepth := 99) (maxSteps := 1000000) +contextual only [Module.pass_kept, *]
    | with_reducible first | apply Module.instr_kept | apply Module.pass_kept
    | split)

theorem mm_kept (e : EngPos) (w : Walker) (m : Module) (hm : Memory.wf m.mem = true) :
    Memory.wf (mm e w m).mem = true := by
  unfold mm
  repeat' (first
    | with_reducible assumption
    | with_reducible first | refine ite_kept ?_ ?_ | refine foldl_kept _ _ ?_ ?_ | refine foldl_kept2 _ _ ?_ ?_ | refine foldl_kept22 _ _ ?_ ?_ | refine foldl_kept222 _ _ ?_ ?_
    | intro _
    | with_reducible apply Module.execOnly_kept
    | simp (maxDischargeDepth := 99) (maxSteps := 1000000) +contextual only [Module.abortTask_kept, Module.arith_kept, Module.pass_kept, *]
    | with_reducible first | apply Module.execOnly_kept | apply Module.abortTask_kept | apply Module.arith_kept | apply Module.pass_kept
    | split)

theorem mmf_kept (e : EngPos) (w : Walker) (m : Module) (hm : Memory.wf m.mem = true) :
    Memory.wf (mmf e w m).mem = true := by
  unfold mmf
  repeat' (first
    | with_reducible assumption
    | with_reducible first | refine ite_kept ?_ ?_ | refine foldl_kept _ _ ?_ ?_ | refine foldl_kept2 _ _ ?_ ?_ | refine foldl_kept22 _ _ ?_ ?_ | refine foldl_kept222 _ _ ?_ ?_
    | intro _
    | with_reducible apply Module.execOnly_kept
    | simp (maxDischargeDepth := 99) (maxSteps := 1000000) +contextual only [Module.abortTask_kept, Module.putTask_kept, Module.arith_kept, Module.pass_kept, *]
    | with_reducible first | apply Module.execOnly_kept | apply Module.abortTask_kept | apply Module.putTask_kept | apply Module.arith_kept | apply Module.pass_kept
    | split)

theorem rfu_kept (e : EngPos) (w : Walker) (m : Module) (hm : Memory.wf m.mem = true) :
    Memory.wf (rfu e w m).mem = true := by
  unfold rfu
  repeat' (first
    | with_reducible assumption
    | with_reducible first | refine ite_kept ?_ ?_ | refine foldl_kept _ _ ?_ ?_ | refine foldl_kept2 _ _ ?_ ?_ | refine foldl_kept22 _ _ ?_ ?_ | refine foldl_kept222 _ _ ?_ ?_
    | intro _
    | with_reducible apply Module.execOnly_kept
    | simp (maxDischargeDepth := 99) (maxSteps := 1000000) +contextual only [Module.abortTask_kept, Module.arith_kept, Module.pass_kept, *]
    | with_reducible first | apply Module.execOnly_kept | apply Module.abortTask_kept | apply Module.arith_kept | apply Module.pass_kept
    | split)

theorem tload_kept (e : EngPos) (w : Walker) (m : Module) (hm : Memory.wf m.mem = true) :
    Memory.wf (tload e w m).mem = true := by
  unfold tload
  repeat' (first
    | with_reducible assumption
    | with_reducible first | refine ite_kept ?_ ?_ | refine foldl_kept _ _ ?_ ?_ | refine foldl_kept2 _ _ ?_ ?_ | refine foldl_kept22 _ _ ?_ ?_ | refine foldl_kept222 _ _ ?_ ?_
    | intro _
    | with_reducible apply Module.execOnly_kept
    | simp (maxDischargeDepth := 99) (maxSteps := 1000000) +contextual only [Module.pass_kept, *]
    | with_reducible first | apply Module.execOnly_kept | apply Module.pass_kept
    | split)

theorem Module.storeRows_kept (m : Module) (e : EngPos) (w : Walker) (t : EngTask) (s : WalkerSt) (l : List EngWrite) (hm : Memory.wf m.mem = true) :
    Memory.wf (Module.storeRows m e w t s l).mem = true := by
  unfold Module.storeRows
  repeat' (first
    | with_reducible assumption
    | with_reducible first | refine ite_kept ?_ ?_ | refine foldl_kept _ _ ?_ ?_ | refine foldl_kept2 _ _ ?_ ?_ | refine foldl_kept22 _ _ ?_ ?_ | refine foldl_kept222 _ _ ?_ ?_
    | intro _
    | simp (maxDischargeDepth := 99) (maxSteps := 1000000) +contextual only [Module.queueWrites_kept, Module.pass_kept, Module.pump_kept, *])

theorem wb_kept (e : EngPos) (w : Walker) (m : Module) (hm : Memory.wf m.mem = true) :
    Memory.wf (wb e w m).mem = true := by
  unfold wb
  repeat' (first
    | with_reducible assumption
    | with_reducible first | refine ite_kept ?_ ?_ | refine foldl_kept _ _ ?_ ?_ | refine foldl_kept2 _ _ ?_ ?_ | refine foldl_kept22 _ _ ?_ ?_ | refine foldl_kept222 _ _ ?_ ?_
    | intro _
    | with_reducible apply Module.execOnly_kept
    | simp (maxDischargeDepth := 99) (maxSteps := 1000000) +contextual only [Module.abortTask_kept, Module.pass_kept, Module.engReads_kept, Module.arith_kept, Module.storeRows_kept, *]
    | with_reducible first | apply Module.execOnly_kept | apply Module.abortTask_kept | apply Module.pass_kept | apply Module.engReads_kept | apply Module.arith_kept | apply Module.storeRows_kept
    | split)

theorem gate_kept (e : EngPos) (w : Walker) (m : Module) (hm : Memory.wf m.mem = true) :
    Memory.wf (gate e w m).mem = true := by
  unfold gate
  repeat' (first
    | with_reducible assumption
    | with_reducible first | refine ite_kept ?_ ?_ | refine foldl_kept _ _ ?_ ?_ | refine foldl_kept2 _ _ ?_ ?_ | refine foldl_kept22 _ _ ?_ ?_ | refine foldl_kept222 _ _ ?_ ?_
    | intro _
    | with_reducible apply Module.instr_kept
    | with_reducible apply Module.gate_kept
    | simp (maxDischargeDepth := 99) (maxSteps := 1000000) +contextual only [Module.pass_kept, Module.putTask_kept, Module.engReads_kept, Module.abortTask_kept, Module.count_kept, Module.queueWrites_kept, Module.pump_kept, *]
    | with_reducible first | apply Module.instr_kept | apply Module.gate_kept | apply Module.pass_kept | apply Module.putTask_kept | apply Module.engReads_kept | apply Module.abortTask_kept | apply Module.count_kept | apply Module.queueWrites_kept | apply Module.pump_kept
    | split)

theorem fetch_kept (e : EngPos) (w : Walker) (errs : List MemErr) (m : Module) (hm : Memory.wf m.mem = true) :
    Memory.wf (fetch e w errs m).mem = true := by
  unfold fetch
  repeat' (first
    | with_reducible assumption
    | with_reducible first | refine ite_kept ?_ ?_ | refine foldl_kept _ _ ?_ ?_ | refine foldl_kept2 _ _ ?_ ?_ | refine foldl_kept22 _ _ ?_ ?_ | refine foldl_kept222 _ _ ?_ ?_
    | intro _
    | simp (maxDischargeDepth := 99) (maxSteps := 1000000) +contextual only [fetchWith_kept, *])

theorem cancellationComplete_kept (e : EngPos) (m : Module) (hm : Memory.wf m.mem = true) :
    Memory.wf (cancellationComplete e m).mem = true := by
  unfold cancellationComplete
  repeat' (first
    | with_reducible assumption
    | with_reducible first | refine ite_kept ?_ ?_ | refine foldl_kept _ _ ?_ ?_ | refine foldl_kept2 _ _ ?_ ?_ | refine foldl_kept22 _ _ ?_ ?_ | refine foldl_kept222 _ _ ?_ ?_
    | intro _
    | simp (maxDischargeDepth := 99) (maxSteps := 1000000) +contextual only [Module.setEng_kept, Module.pumpReads_kept, *]
    | with_reducible first | apply Module.setEng_kept | apply Module.pumpReads_kept
    | split)

end Sys2Proof.Machine
end

