-- ==== Sys2Proof/Laws/Kept/Library.lean ====
section
/-!
SUPPORT. Every operation of Machine/Library.lean keeps the canonical form of memory.
-/
namespace Sys2Proof.Machine

theorem Module.libCheck_kept (m : Module) (e : EngPos) (t : EngTask) (l : List (Nat × Nat)) (hm : Memory.wf m.mem = true) :
    Memory.wf (Module.libCheck m e t l).2.mem = true := by
  induction l generalizing m e t with
  | nil =>
    unfold Module.libCheck
    repeat' (first
      | with_reducible assumption
      | with_reducible first | refine ite_kept ?_ ?_ | refine foldl_kept _ _ ?_ ?_ | refine foldl_kept2 _ _ ?_ ?_ | refine foldl_kept22 _ _ ?_ ?_ | refine foldl_kept222 _ _ ?_ ?_
      | intro _
      | (rename_i heq; have hq := congrArg (fun z => z.2.2) heq; dsimp only at hq; subst hq; clear heq)
      | (rename_i heq; have hq := congrArg Prod.snd heq; dsimp only at hq; subst hq; clear heq)
      | simp (maxDischargeDepth := 99) (maxSteps := 1000000) +contextual only [Module.engRead_kept, implies_true, reset_kept, Memory.wf_set, Memory.wf_filter, Memory.wf_nil, ite_kept, foldl_kept, foldl_kept2, foldl_kept22, foldl_kept222, *]
      | with_reducible first | apply Module.engRead_kept
      | split)
  | cons hd tl ih =>
    unfold Module.libCheck
    repeat' (first
      | with_reducible assumption
      | with_reducible first | refine ite_kept ?_ ?_ | refine foldl_kept _ _ ?_ ?_ | refine foldl_kept2 _ _ ?_ ?_ | refine foldl_kept22 _ _ ?_ ?_ | refine foldl_kept222 _ _ ?_ ?_
      | intro _
      | (rename_i heq; have hq := congrArg (fun z => z.2.2) heq; dsimp only at hq; subst hq; clear heq)
      | (rename_i heq; have hq := congrArg Prod.snd heq; dsimp only at hq; subst hq; clear heq)
      | simp (maxDischargeDepth := 99) (maxSteps := 1000000) +contextual only [Module.engRead_kept, *]
      | with_reducible first | apply Module.engRead_kept
      | split)

theorem Module.libTiles_kept (m : Module) (e : EngPos) (t : EngTask) (done : List (Nat × Nat)) (l : List LibTile) (hm : Memory.wf m.mem = true) :
    Memory.wf (Module.libTiles m e t done l).2.mem = true := by
  induction l generalizing m e t done with
  | nil =>
    unfold Module.libTiles
    repeat' (first
      | with_reducible assumption
      | with_reducible first | refine ite_kept ?_ ?_ | refine foldl_kept _ _ ?_ ?_ | refine foldl_kept2 _ _ ?_ ?_ | refine foldl_kept22 _ _ ?_ ?_ | refine foldl_kept222 _ _ ?_ ?_
      | intro _
      | (rename_i heq; have hq := congrArg (fun z => z.2.2) heq; dsimp only at hq; subst hq; clear heq)
      | (rename_i heq; have hq := congrArg Prod.snd heq; dsimp only at hq; subst hq; clear heq)
      | simp (maxDischargeDepth := 99) (maxSteps := 1000000) +contextual only [Module.libCheck_kept, implies_true, reset_kept, Memory.wf_set, Memory.wf_filter, Memory.wf_nil, ite_kept, foldl_kept, foldl_kept2, foldl_kept22, foldl_kept222, *]
      | with_reducible first | apply Module.libCheck_kept
      | split)
  | cons hd tl ih =>
    unfold Module.libTiles
    repeat' (first
      | with_reducible assumption
      | with_reducible first | refine ite_kept ?_ ?_ | refine foldl_kept _ _ ?_ ?_ | refine foldl_kept2 _ _ ?_ ?_ | refine foldl_kept22 _ _ ?_ ?_ | refine foldl_kept222 _ _ ?_ ?_
      | intro _
      | (rename_i heq; have hq := congrArg (fun z => z.2.2) heq; dsimp only at hq; subst hq; clear heq)
      | (rename_i heq; have hq := congrArg Prod.snd heq; dsimp only at hq; subst hq; clear heq)
      | simp (maxDischargeDepth := 99) (maxSteps := 1000000) +contextual only [Module.libCheck_kept, *]
      | with_reducible first | apply Module.libCheck_kept
      | split)

theorem Module.libCall_kept (m : Module) (e : EngPos) (w : Walker) (id : Nat) (views : Nat) (f : LibCall → LibOut) (hm : Memory.wf m.mem = true) :
    Memory.wf (Module.libCall m e w id views f).mem = true := by
  unfold Module.libCall
  repeat' (first
    | with_reducible assumption
    | with_reducible first | refine ite_kept ?_ ?_ | refine foldl_kept _ _ ?_ ?_ | refine foldl_kept2 _ _ ?_ ?_ | refine foldl_kept22 _ _ ?_ ?_ | refine foldl_kept222 _ _ ?_ ?_
    | intro _
    | with_reducible apply Module.barrier_kept
    | (rename_i heq; have hq := congrArg (fun z => z.2.2) heq; dsimp only at hq; subst hq; clear heq)
    | (rename_i heq; have hq := congrArg Prod.snd heq; dsimp only at hq; subst hq; clear heq)
    | simp (maxDischargeDepth := 99) (maxSteps := 1000000) +contextual only [Module.putTask_kept, Module.pumpReads_kept, Module.engReads_kept, Module.abortTask_kept, Module.libCheck_kept, Module.libTiles_kept, Module.arith_kept, Module.storeRows_kept, *]
    | with_reducible first | apply Module.barrier_kept | apply Module.complete_kept | apply Module.putTask_kept | apply Module.pumpReads_kept | apply Module.engReads_kept | apply Module.abortTask_kept | apply Module.libCheck_kept | apply Module.libTiles_kept | apply Module.arith_kept | apply Module.storeRows_kept
    | split)

theorem conv2d_kept (e : EngPos) (w : Walker) (m : Module) (hm : Memory.wf m.mem = true) :
    Memory.wf (conv2d e w m).mem = true := by
  unfold conv2d
  repeat' (first
    | with_reducible assumption
    | with_reducible first | refine ite_kept ?_ ?_ | refine foldl_kept _ _ ?_ ?_ | refine foldl_kept2 _ _ ?_ ?_ | refine foldl_kept22 _ _ ?_ ?_ | refine foldl_kept222 _ _ ?_ ?_
    | intro _
    | simp (maxDischargeDepth := 99) (maxSteps := 1000000) +contextual only [Module.libCall_kept, *])

theorem gemm_kept (e : EngPos) (w : Walker) (m : Module) (hm : Memory.wf m.mem = true) :
    Memory.wf (gemm e w m).mem = true := by
  unfold gemm
  repeat' (first
    | with_reducible assumption
    | with_reducible first | refine ite_kept ?_ ?_ | refine foldl_kept _ _ ?_ ?_ | refine foldl_kept2 _ _ ?_ ?_ | refine foldl_kept22 _ _ ?_ ?_ | refine foldl_kept222 _ _ ?_ ?_
    | intro _
    | simp (maxDischargeDepth := 99) (maxSteps := 1000000) +contextual only [Module.libCall_kept, *])

theorem pool_kept (e : EngPos) (w : Walker) (m : Module) (hm : Memory.wf m.mem = true) :
    Memory.wf (pool e w m).mem = true := by
  unfold pool
  repeat' (first
    | with_reducible assumption
    | with_reducible first | refine ite_kept ?_ ?_ | refine foldl_kept _ _ ?_ ?_ | refine foldl_kept2 _ _ ?_ ?_ | refine foldl_kept22 _ _ ?_ ?_ | refine foldl_kept222 _ _ ?_ ?_
    | intro _
    | simp (maxDischargeDepth := 99) (maxSteps := 1000000) +contextual only [Module.libCall_kept, *])

theorem resize_kept (e : EngPos) (w : Walker) (m : Module) (hm : Memory.wf m.mem = true) :
    Memory.wf (resize e w m).mem = true := by
  unfold resize
  repeat' (first
    | with_reducible assumption
    | with_reducible first | refine ite_kept ?_ ?_ | refine foldl_kept _ _ ?_ ?_ | refine foldl_kept2 _ _ ?_ ?_ | refine foldl_kept22 _ _ ?_ ?_ | refine foldl_kept222 _ _ ?_ ?_
    | intro _
    | simp (maxDischargeDepth := 99) (maxSteps := 1000000) +contextual only [Module.libCall_kept, *])

theorem eltwise_kept (e : EngPos) (w : Walker) (m : Module) (hm : Memory.wf m.mem = true) :
    Memory.wf (eltwise e w m).mem = true := by
  unfold eltwise
  repeat' (first
    | with_reducible assumption
    | with_reducible first | refine ite_kept ?_ ?_ | refine foldl_kept _ _ ?_ ?_ | refine foldl_kept2 _ _ ?_ ?_ | refine foldl_kept22 _ _ ?_ ?_ | refine foldl_kept222 _ _ ?_ ?_
    | intro _
    | simp (maxDischargeDepth := 99) (maxSteps := 1000000) +contextual only [Module.libCall_kept, *])

theorem norm_kept (e : EngPos) (w : Walker) (m : Module) (hm : Memory.wf m.mem = true) :
    Memory.wf (norm e w m).mem = true := by
  unfold norm
  repeat' (first
    | with_reducible assumption
    | with_reducible first | refine ite_kept ?_ ?_ | refine foldl_kept _ _ ?_ ?_ | refine foldl_kept2 _ _ ?_ ?_ | refine foldl_kept22 _ _ ?_ ?_ | refine foldl_kept222 _ _ ?_ ?_
    | intro _
    | simp (maxDischargeDepth := 99) (maxSteps := 1000000) +contextual only [Module.libCall_kept, *])

theorem softmax_kept (e : EngPos) (w : Walker) (m : Module) (hm : Memory.wf m.mem = true) :
    Memory.wf (softmax e w m).mem = true := by
  unfold softmax
  repeat' (first
    | with_reducible assumption
    | with_reducible first | refine ite_kept ?_ ?_ | refine foldl_kept _ _ ?_ ?_ | refine foldl_kept2 _ _ ?_ ?_ | refine foldl_kept22 _ _ ?_ ?_ | refine foldl_kept222 _ _ ?_ ?_
    | intro _
    | simp (maxDischargeDepth := 99) (maxSteps := 1000000) +contextual only [Module.libCall_kept, *])

theorem attention_kept (e : EngPos) (w : Walker) (m : Module) (hm : Memory.wf m.mem = true) :
    Memory.wf (attention e w m).mem = true := by
  unfold attention
  repeat' (first
    | with_reducible assumption
    | with_reducible first | refine ite_kept ?_ ?_ | refine foldl_kept _ _ ?_ ?_ | refine foldl_kept2 _ _ ?_ ?_ | refine foldl_kept22 _ _ ?_ ?_ | refine foldl_kept222 _ _ ?_ ?_
    | intro _
    | simp (maxDischargeDepth := 99) (maxSteps := 1000000) +contextual only [Module.libCall_kept, *])

theorem copyRoutine_kept (e : EngPos) (w : Walker) (m : Module) (hm : Memory.wf m.mem = true) :
    Memory.wf (copyRoutine e w m).mem = true := by
  unfold copyRoutine
  repeat' (first
    | with_reducible assumption
    | with_reducible first | refine ite_kept ?_ ?_ | refine foldl_kept _ _ ?_ ?_ | refine foldl_kept2 _ _ ?_ ?_ | refine foldl_kept22 _ _ ?_ ?_ | refine foldl_kept222 _ _ ?_ ?_
    | intro _
    | simp (maxDischargeDepth := 99) (maxSteps := 1000000) +contextual only [Module.libCall_kept, *])

theorem argmax_kept (e : EngPos) (w : Walker) (m : Module) (hm : Memory.wf m.mem = true) :
    Memory.wf (argmax e w m).mem = true := by
  unfold argmax
  repeat' (first
    | with_reducible assumption
    | with_reducible first | refine ite_kept ?_ ?_ | refine foldl_kept _ _ ?_ ?_ | refine foldl_kept2 _ _ ?_ ?_ | refine foldl_kept22 _ _ ?_ ?_ | refine foldl_kept222 _ _ ?_ ?_
    | intro _
    | simp (maxDischargeDepth := 99) (maxSteps := 1000000) +contextual only [Module.libCall_kept, *])

theorem topk_kept (e : EngPos) (w : Walker) (m : Module) (hm : Memory.wf m.mem = true) :
    Memory.wf (topk e w m).mem = true := by
  unfold topk
  repeat' (first
    | with_reducible assumption
    | with_reducible first | refine ite_kept ?_ ?_ | refine foldl_kept _ _ ?_ ?_ | refine foldl_kept2 _ _ ?_ ?_ | refine foldl_kept22 _ _ ?_ ?_ | refine foldl_kept222 _ _ ?_ ?_
    | intro _
    | simp (maxDischargeDepth := 99) (maxSteps := 1000000) +contextual only [Module.libCall_kept, *])

theorem nms_kept (e : EngPos) (w : Walker) (m : Module) (hm : Memory.wf m.mem = true) :
    Memory.wf (nms e w m).mem = true := by
  unfold nms
  repeat' (first
    | with_reducible assumption
    | with_reducible first | refine ite_kept ?_ ?_ | refine foldl_kept _ _ ?_ ?_ | refine foldl_kept2 _ _ ?_ ?_ | refine foldl_kept22 _ _ ?_ ?_ | refine foldl_kept222 _ _ ?_ ?_
    | intro _
    | simp (maxDischargeDepth := 99) (maxSteps := 1000000) +contextual only [Module.libCall_kept, *])

end Sys2Proof.Machine
end

