-- ==== Sys2Proof/Laws/Kept/Package.lean ====
section
/-!
SUPPORT. Every operation of Machine/Package.lean keeps the canonical form of memory.
-/
namespace Sys2Proof.Machine

theorem loadStart_kept (region : Word) (offset : W64) (size : W64) (c : CmdRef) (m : Module) (hm : Memory.wf m.mem = true) :
    Memory.wf (loadStart region offset size c m).mem = true := by
  unfold loadStart
  repeat' (first
    | with_reducible assumption
    | with_reducible first | refine ite_kept ?_ ?_ | refine foldl_kept _ _ ?_ ?_ | refine foldl_kept2 _ _ ?_ ?_ | refine foldl_kept22 _ _ ?_ ?_ | refine foldl_kept222 _ _ ?_ ?_
    | intro _
    | (rename_i heq; have hq := congrArg (fun z => z.2.2) heq; dsimp only at hq; subst hq; clear heq)
    | (rename_i heq; have hq := congrArg Prod.snd heq; dsimp only at hq; subst hq; clear heq)
    | simp (maxDischargeDepth := 99) (maxSteps := 1000000) +contextual only [Module.complete_kept, Module.readMeets_kept, Module.freeFrom_kept, *]
    | with_reducible first | apply Module.complete_kept | apply Module.readMeets_kept | apply Module.freeFrom_kept
    | split)

theorem loadPkg_kept (h : CmdHdr) (region : Word) (offset : W64) (size : W64) (m : Module) (hm : Memory.wf m.mem = true) :
    Memory.wf (loadPkg h region offset size m).mem = true := by
  unfold loadPkg
  repeat' (first
    | with_reducible assumption
    | with_reducible first | refine ite_kept ?_ ?_ | refine foldl_kept _ _ ?_ ?_ | refine foldl_kept2 _ _ ?_ ?_ | refine foldl_kept22 _ _ ?_ ?_ | refine foldl_kept222 _ _ ?_ ?_
    | intro _
    | with_reducible apply Module.command_kept
    | with_reducible apply Module.commandRun_kept
    | simp (maxDischargeDepth := 99) (maxSteps := 1000000) +contextual only [loadStart_kept, *])

theorem Module.dropPackage_kept (m : Module) (k : Nat) (hm : Memory.wf m.mem = true) :
    Memory.wf (Module.dropPackage m k).mem = true := by
  unfold Module.dropPackage
  repeat' (first
    | with_reducible assumption
    | with_reducible first | refine ite_kept ?_ ?_ | refine foldl_kept _ _ ?_ ?_ | refine foldl_kept2 _ _ ?_ ?_ | refine foldl_kept22 _ _ ?_ ?_ | refine foldl_kept222 _ _ ?_ ?_
    | intro _
    | simp (maxDischargeDepth := 99) (maxSteps := 1000000) +contextual only [implies_true, reset_kept, Memory.wf_set, Memory.wf_filter, Memory.wf_nil, ite_kept, foldl_kept, foldl_kept2, foldl_kept22, foldl_kept222, *]
    | split)

theorem unloadStart_kept (package : Word) (c : CmdRef) (m : Module) (hm : Memory.wf m.mem = true) :
    Memory.wf (unloadStart package c m).mem = true := by
  unfold unloadStart
  repeat' (first
    | with_reducible assumption
    | with_reducible first | refine ite_kept ?_ ?_ | refine foldl_kept _ _ ?_ ?_ | refine foldl_kept2 _ _ ?_ ?_ | refine foldl_kept22 _ _ ?_ ?_ | refine foldl_kept222 _ _ ?_ ?_
    | intro _
    | simp (maxDischargeDepth := 99) (maxSteps := 1000000) +contextual only [Module.complete_kept, Module.dropPackage_kept, *]
    | with_reducible first | apply Module.complete_kept | apply Module.dropPackage_kept
    | split)

theorem unloadPkg_kept (h : CmdHdr) (package : Word) (m : Module) (hm : Memory.wf m.mem = true) :
    Memory.wf (unloadPkg h package m).mem = true := by
  unfold unloadPkg
  repeat' (first
    | with_reducible assumption
    | with_reducible first | refine ite_kept ?_ ?_ | refine foldl_kept _ _ ?_ ?_ | refine foldl_kept2 _ _ ?_ ?_ | refine foldl_kept22 _ _ ?_ ?_ | refine foldl_kept222 _ _ ?_ ?_
    | intro _
    | with_reducible apply Module.command_kept
    | simp (maxDischargeDepth := 99) (maxSteps := 1000000) +contextual only [unloadStart_kept, *])

end Sys2Proof.Machine
end

