-- ==== Sys2Proof/Laws/Kept/Picture.lean ====
section
/-!
SUPPORT. Every operation of Machine/Picture.lean keeps the canonical form of memory.
-/
namespace Sys2Proof.Machine

theorem Module.edgeOut_kept (m : Module) (c : Nat) (u : Nat) (p : PicPlan) (hm : Memory.wf m.mem = true) :
    Memory.wf (Module.edgeOut m c u p).mem = true := by
  unfold Module.edgeOut
  repeat' (first
    | with_reducible assumption
    | with_reducible first | refine ite_kept ?_ ?_ | refine foldl_kept _ _ ?_ ?_ | refine foldl_kept2 _ _ ?_ ?_ | refine foldl_kept22 _ _ ?_ ?_ | refine foldl_kept222 _ _ ?_ ?_
    | intro _
    | simp (maxDischargeDepth := 99) (maxSteps := 1000000) +contextual only [Module.write_kept, *]
    | with_reducible first | apply Module.count_kept | apply Module.write_kept
    | split)

theorem Module.outLines_kept (m : Module) (o : OutGeom) (s : ParamSet) (c : Nat) (k : Nat) (v : PicView) (g : StripeGeom) (st : Nat) (slot : Nat) (hm : Memory.wf m.mem = true) :
    Memory.wf (Module.outLines m o s c k v g st slot).mem = true := by
  unfold Module.outLines
  repeat' (first
    | with_reducible assumption
    | with_reducible first | refine ite_kept ?_ ?_ | refine foldl_kept _ _ ?_ ?_ | refine foldl_kept2 _ _ ?_ ?_ | refine foldl_kept22 _ _ ?_ ?_ | refine foldl_kept222 _ _ ?_ ?_
    | intro _
    | simp (maxDischargeDepth := 99) (maxSteps := 1000000) +contextual only [Module.write_kept, *])

theorem Module.outHeader_kept (m : Module) (c : Nat) (o : OutGeom) (g : StripeGeom) (slot : Nat) (st : Nat) (head : List Byte) (flags : Nat) (reused : Nat) (hm : Memory.wf m.mem = true) :
    Memory.wf (Module.outHeader m c o g slot st head flags reused).mem = true := by
  unfold Module.outHeader
  repeat' (first
    | with_reducible assumption
    | with_reducible first | refine ite_kept ?_ ?_ | refine foldl_kept _ _ ?_ ?_ | refine foldl_kept2 _ _ ?_ ?_ | refine foldl_kept22 _ _ ?_ ?_ | refine foldl_kept222 _ _ ?_ ?_
    | intro _
    | simp (maxDischargeDepth := 99) (maxSteps := 1000000) +contextual only [Module.write_kept, *])

theorem Module.planMove_kept (m : Module) (s : Stream) (i : Nat) (mv : PlanMove) (d : Desc) (hm : Memory.wf m.mem = true) :
    Memory.wf (Module.planMove m s i mv d).mem = true := by
  unfold Module.planMove
  repeat' (first
    | with_reducible assumption
    | with_reducible first | refine ite_kept ?_ ?_ | refine foldl_kept _ _ ?_ ?_ | refine foldl_kept2 _ _ ?_ ?_ | refine foldl_kept22 _ _ ?_ ?_ | refine foldl_kept222 _ _ ?_ ?_
    | intro _
    | simp (maxDischargeDepth := 99) (maxSteps := 1000000) +contextual only [Module.planNext_kept, *]
    | with_reducible apply Module.planNext_kept
    | split)

theorem Module.avtpStripe_kept (m : Module) (c : PortId) (k : Fin 4) (s : Stream) (o : OutGeom) (g : StripeGeom) (slot : Nat) (st : Nat) (head : List Byte) (hm : Memory.wf m.mem = true) :
    Memory.wf (Module.avtpStripe m c k s o g slot st head).mem = true := by
  unfold Module.avtpStripe
  repeat' (first
    | with_reducible assumption
    | with_reducible first | refine ite_kept ?_ ?_ | refine foldl_kept _ _ ?_ ?_ | refine foldl_kept2 _ _ ?_ ?_ | refine foldl_kept22 _ _ ?_ ?_ | refine foldl_kept222 _ _ ?_ ?_
    | intro _
    | simp (maxDischargeDepth := 99) (maxSteps := 1000000) +contextual only [Module.planMove_kept, *])

theorem Module.windowStripe_kept (m : Module) (c : PortId) (k : Fin 4) (s : Stream) (o : OutGeom) (g : StripeGeom) (base : Nat) (slot : Nat) (st : Nat) (f : Word) (hm : Memory.wf m.mem = true) :
    Memory.wf (Module.windowStripe m c k s o g base slot st f).mem = true := by
  unfold Module.windowStripe
  repeat' (first
    | with_reducible assumption
    | with_reducible first | refine ite_kept ?_ ?_ | refine foldl_kept _ _ ?_ ?_ | refine foldl_kept2 _ _ ?_ ?_ | refine foldl_kept22 _ _ ?_ ?_ | refine foldl_kept222 _ _ ?_ ?_
    | intro _
    | simp (maxDischargeDepth := 99) (maxSteps := 1000000) +contextual only [Module.satAdd_kept, Module.planMove_kept, implies_true, ite_kept, foldl_kept, *])

theorem Module.outStripe_kept (m : Module) (c : PortId) (k : Fin 4) (s : Stream) (v : PicView) (u : Nat) (head : List Byte) (flags : Nat) (reused : Nat) (missed : Bool) (hm : Memory.wf m.mem = true) :
    Memory.wf (Module.outStripe m c k s v u head flags reused missed).mem = true := by
  unfold Module.outStripe
  repeat' (first
    | with_reducible assumption
    | with_reducible first | refine ite_kept ?_ ?_ | refine foldl_kept _ _ ?_ ?_ | refine foldl_kept2 _ _ ?_ ?_ | refine foldl_kept22 _ _ ?_ ?_ | refine foldl_kept222 _ _ ?_ ?_
    | intro _
    | simp (maxDischargeDepth := 99) (maxSteps := 1000000) +contextual only [Module.outLines_kept, Module.outHeader_kept, Module.addSync_kept, Module.avtpStripe_kept, Module.windowStripe_kept, ite_kept, *])

theorem Module.outputs_kept (m : Module) (c : PortId) (s : Stream) (v : PicView) (u : Nat) (head : List Byte) (flags : Nat) (reused : Nat) (missed : Bool) (hm : Memory.wf m.mem = true) :
    Memory.wf (Module.outputs m c s v u head flags reused missed).mem = true := by
  unfold Module.outputs
  repeat' (first
    | with_reducible assumption
    | with_reducible first | refine ite_kept ?_ ?_ | refine foldl_kept _ _ ?_ ?_ | refine foldl_kept2 _ _ ?_ ?_ | refine foldl_kept22 _ _ ?_ ?_ | refine foldl_kept222 _ _ ?_ ?_
    | intro _
    | simp (maxDischargeDepth := 99) (maxSteps := 1000000) +contextual only [Module.outStripe_kept, *])

end Sys2Proof.Machine
end

