-- ==== Sys2Proof/Laws/Kept/Resident.lean ====
section
/-!
SUPPORT. Every operation of Machine/Resident.lean keeps the canonical form of memory.
-/
namespace Sys2Proof.Machine

theorem Module.residentHistory_kept (m : Module) (r : ResIn) (v : PicView) (slot : Nat) (hm : Memory.wf m.mem = true) :
    Memory.wf (Module.residentHistory m r v slot).mem = true := by
  unfold Module.residentHistory
  repeat' (first
    | with_reducible assumption
    | with_reducible first | refine ite_kept ?_ ?_ | refine foldl_kept _ _ ?_ ?_ | refine foldl_kept2 _ _ ?_ ?_ | refine foldl_kept22 _ _ ?_ ?_ | refine foldl_kept222 _ _ ?_ ?_
    | intro _
    | simp (maxDischargeDepth := 99) (maxSteps := 1000000) +contextual only [Module.write_kept, *])

theorem Module.keepInput_kept (m : Module) (r : ResIn) (t : GateTask) (hm : Memory.wf m.mem = true) :
    Memory.wf (Module.keepInput m r t).mem = true := by
  unfold Module.keepInput
  repeat' (first
    | with_reducible assumption
    | with_reducible first | refine ite_kept ?_ ?_ | refine foldl_kept _ _ ?_ ?_ | refine foldl_kept2 _ _ ?_ ?_ | refine foldl_kept22 _ _ ?_ ?_ | refine foldl_kept222 _ _ ?_ ?_
    | intro _
    | simp (maxDischargeDepth := 99) (maxSteps := 1000000) +contextual only [Module.write_kept, *]
    | with_reducible apply Module.write_kept
    | split)

theorem Module.residentGate_kept (m : Module) (r : ResIn) (args : Nat) (t : GateTask) (hm : Memory.wf m.mem = true) :
    Memory.wf (Module.residentGate m r args t).2.mem = true := by
  unfold Module.residentGate
  repeat' (first
    | with_reducible assumption
    | with_reducible first | refine ite_kept ?_ ?_ | refine foldl_kept _ _ ?_ ?_ | refine foldl_kept2 _ _ ?_ ?_ | refine foldl_kept22 _ _ ?_ ?_ | refine foldl_kept222 _ _ ?_ ?_
    | intro _
    | simp (maxDischargeDepth := 99) (maxSteps := 1000000) +contextual only [Module.write_kept, Module.keepInput_kept, implies_true, foldl_kept, *])

theorem Module.residentOut_kept (m : Module) (r : ResIn) (gate : Option GateTask) (hm : Memory.wf m.mem = true) :
    Memory.wf (Module.residentOut m r gate).mem = true := by
  unfold Module.residentOut
  repeat' (first
    | with_reducible assumption
    | with_reducible first | refine ite_kept ?_ ?_ | refine foldl_kept _ _ ?_ ?_ | refine foldl_kept2 _ _ ?_ ?_ | refine foldl_kept22 _ _ ?_ ?_ | refine foldl_kept222 _ _ ?_ ?_
    | intro _
    | with_reducible apply Module.gate_kept
    | simp (maxDischargeDepth := 99) (maxSteps := 1000000) +contextual only [Module.write_kept, *]
    | with_reducible first | apply Module.gate_kept | apply gate_kept | apply Module.write_kept | apply Module.residentHistory_kept
    | split)

end Sys2Proof.Machine
end

