-- ==== Sys2Proof/Laws/Kept/Tasks.lean ====
section
/-!
SUPPORT. Every operation of Machine/Tasks.lean keeps the canonical form of memory.
-/
namespace Sys2Proof.Machine

theorem Module.beginTask_kept (m : Module) (e : EngPos) (x : TaskStart) (hm : Memory.wf m.mem = true) :
    Memory.wf (Module.beginTask m e x).mem = true := by
  unfold Module.beginTask
  repeat' (first
    | with_reducible assumption
    | with_reducible first | refine ite_kept ?_ ?_ | refine foldl_kept _ _ ?_ ?_ | refine foldl_kept2 _ _ ?_ ?_ | refine foldl_kept22 _ _ ?_ ?_ | refine foldl_kept222 _ _ ?_ ?_
    | intro _
    | simp (maxDischargeDepth := 99) (maxSteps := 1000000) +contextual only [Module.engReads_kept, Module.setEng_kept, Module.setEngState_kept, Module.abortTask_kept, *])

theorem residentSetLoad_kept (cl : Fin 8) (logical : Fin 17) (c : PortId) (stage : Fin 12) (m : Module) (hm : Memory.wf m.mem = true) :
    Memory.wf (residentSetLoad cl logical c stage m).mem = true := by
  unfold residentSetLoad
  repeat' (first
    | with_reducible assumption
    | with_reducible first | refine ite_kept ?_ ?_ | refine foldl_kept _ _ ?_ ?_ | refine foldl_kept2 _ _ ?_ ?_ | refine foldl_kept22 _ _ ?_ ?_ | refine foldl_kept222 _ _ ?_ ?_
    | intro _
    | simp (maxDischargeDepth := 99) (maxSteps := 1000000) +contextual only [Module.readMeets_kept, Module.setEng_kept, *]
    | with_reducible first | apply Module.readMeets_kept | apply Module.setEng_kept
    | split)

theorem rotationGroupExchange_kept (c : PortId) (stage : Fin 8) (m : Module) (hm : Memory.wf m.mem = true) :
    Memory.wf (rotationGroupExchange c stage m).mem = true := by
  unfold rotationGroupExchange
  split
  · exact hm
  · split
    · exact hm
    · simp only
      refine ite_kept hm (Module.setCtx_kept _ _ _ (foldl_kept _ _ hm fun x k hx => ?_))
      split
      · exact Module.setEng_kept _ _ _ hx
      · exact hx

theorem Module.pictureStart_kept (m : Module) (c : PortId) (s : Stream) (i : Fin 12) (p : PicPlan) (u : Nat) (skip : Nat) (rerun : Bool) (hm : Memory.wf m.mem = true) :
    Memory.wf (Module.pictureStart m c s i p u skip rerun).2.mem = true := by
  unfold Module.pictureStart
  repeat' (first
    | with_reducible assumption
    | with_reducible first | refine ite_kept ?_ ?_ | refine foldl_kept _ _ ?_ ?_ | refine foldl_kept2 _ _ ?_ ?_ | refine foldl_kept22 _ _ ?_ ?_ | refine foldl_kept222 _ _ ?_ ?_
    | intro _
    | simp (maxDischargeDepth := 99) (maxSteps := 1000000) +contextual only [Module.write_kept, *])

theorem Module.startStream_kept (m : Module) (e : EngPos) (s : Stream) (c : PortId) (i : Fin 12) (u : Nat) (idx : Nat) (skip : Nat) (rerun : Bool) (hm : Memory.wf m.mem = true) :
    Memory.wf (Module.startStream m e s c i u idx skip rerun).mem = true := by
  unfold Module.startStream
  repeat' (first
    | with_reducible assumption
    | with_reducible first | refine ite_kept ?_ ?_ | refine foldl_kept _ _ ?_ ?_ | refine foldl_kept2 _ _ ?_ ?_ | refine foldl_kept22 _ _ ?_ ?_ | refine foldl_kept222 _ _ ?_ ?_
    | intro _
    | simp (maxDischargeDepth := 99) (maxSteps := 1000000) +contextual only [Module.beginTask_kept, Module.pictureStart_kept, *]
    | with_reducible first | apply Module.beginTask_kept | apply Module.pictureStart_kept
    | split)

theorem Module.adjustJob_kept (m : Module) (id : Nat) (f : Job → Job) (hm : Memory.wf m.mem = true) :
    Memory.wf (Module.adjustJob m id f).mem = true := by
  unfold Module.adjustJob
  repeat' (first
    | with_reducible assumption)

theorem Module.startJob_kept (m : Module) (e : EngPos) (id : Nat) (i : Nat) (k : Nat) (skip : Nat) (rerun : Bool) (hm : Memory.wf m.mem = true) :
    Memory.wf (Module.startJob m e id i k skip rerun).mem = true := by
  unfold Module.startJob
  repeat' (first
    | with_reducible assumption
    | with_reducible first | refine ite_kept ?_ ?_ | refine foldl_kept _ _ ?_ ?_ | refine foldl_kept2 _ _ ?_ ?_ | refine foldl_kept22 _ _ ?_ ?_ | refine foldl_kept222 _ _ ?_ ?_
    | intro _
    | simp (maxDischargeDepth := 99) (maxSteps := 1000000) +contextual only [Module.beginTask_kept, *]
    | with_reducible apply Module.beginTask_kept
    | split)

theorem Module.orWait_kept (m' : Module) (m : Module) (e : EngPos) (hm' : Memory.wf m'.mem = true) (hm : Memory.wf m.mem = true) :
    Memory.wf (Module.orWait m' m e).mem = true := by
  unfold Module.orWait
  repeat' (first
    | with_reducible assumption
    | with_reducible refine ite_kept ?_ ?_)

theorem taskStart_kept (cl : Fin 8) (logical : Fin 17) (task : TaskRef) (m : Module) (hm : Memory.wf m.mem = true) :
    Memory.wf (taskStart cl logical task m).mem = true := by
  unfold taskStart
  repeat' (first
    | with_reducible assumption
    | with_reducible first | refine ite_kept ?_ ?_ | refine foldl_kept _ _ ?_ ?_ | refine foldl_kept2 _ _ ?_ ?_ | refine foldl_kept22 _ _ ?_ ?_ | refine foldl_kept222 _ _ ?_ ?_
    | intro _
    | simp (maxDischargeDepth := 99) (maxSteps := 1000000) +contextual only [Module.setCtx_kept, Module.startStream_kept, Module.orWait_kept, Module.startJob_kept, *]
    | with_reducible first | apply Module.setCtx_kept | apply Module.startStream_kept | apply Module.orWait_kept | apply Module.startJob_kept
    | split)

theorem rerunStart_kept (e : EngPos) (m : Module) (hm : Memory.wf m.mem = true) :
    Memory.wf (rerunStart e m).mem = true := by
  unfold rerunStart
  repeat' (first
    | with_reducible assumption
    | with_reducible first | refine ite_kept ?_ ?_ | refine foldl_kept _ _ ?_ ?_ | refine foldl_kept2 _ _ ?_ ?_ | refine foldl_kept22 _ _ ?_ ?_ | refine foldl_kept222 _ _ ?_ ?_
    | intro _
    | simp (maxDischargeDepth := 99) (maxSteps := 1000000) +contextual only [Module.setEng_kept, Module.startStream_kept, Module.orWait_kept, Module.startJob_kept, *]
    | with_reducible first | apply Module.setEng_kept | apply Module.startStream_kept | apply Module.orWait_kept | apply Module.startJob_kept
    | split)

theorem Module.withdrawDone_kept (m : Module) (id : Nat) (hm : Memory.wf m.mem = true) :
    Memory.wf (Module.withdrawDone m id).mem = true := by
  unfold Module.withdrawDone
  repeat' (first
    | with_reducible assumption
    | with_reducible first | refine ite_kept ?_ ?_ | refine foldl_kept _ _ ?_ ?_ | refine foldl_kept2 _ _ ?_ ?_ | refine foldl_kept22 _ _ ?_ ?_ | refine foldl_kept222 _ _ ?_ ?_
    | intro _
    | simp (maxDischargeDepth := 99) (maxSteps := 1000000) +contextual only [Module.complete_kept, *])

theorem Module.endJob_kept (m : Module) (j : Job) (status : Nat) (result : Nat) (hm : Memory.wf m.mem = true) :
    Memory.wf (Module.endJob m j status result).mem = true := by
  unfold Module.endJob
  repeat' (first
    | with_reducible assumption
    | with_reducible first | refine ite_kept ?_ ?_ | refine foldl_kept _ _ ?_ ?_ | refine foldl_kept2 _ _ ?_ ?_ | refine foldl_kept22 _ _ ?_ ?_ | refine foldl_kept222 _ _ ?_ ?_
    | intro _
    | simp (maxDischargeDepth := 99) (maxSteps := 1000000) +contextual only [Module.adjustJob_kept, Module.setFld_kept, Module.complete_kept, Module.withdrawDone_kept, ite_kept, *])

theorem Module.settleJob_kept (m : Module) (id : Nat) (hm : Memory.wf m.mem = true) :
    Memory.wf (Module.settleJob m id).mem = true := by
  unfold Module.settleJob
  repeat' (first
    | with_reducible assumption
    | with_reducible first | refine ite_kept ?_ ?_ | refine foldl_kept _ _ ?_ ?_ | refine foldl_kept2 _ _ ?_ ?_ | refine foldl_kept22 _ _ ?_ ?_ | refine foldl_kept222 _ _ ?_ ?_
    | intro _
    | simp (maxDischargeDepth := 99) (maxSteps := 1000000) +contextual only [Module.endJob_kept, *]
    | with_reducible apply Module.endJob_kept
    | split)

theorem Module.writeCounts_kept (m : Module) (g : StripeGeom) (p : PicPlan) (k : Nat) (gate : Option GateTask) (hm : Memory.wf m.mem = true) :
    Memory.wf (Module.writeCounts m g p k gate).mem = true := by
  unfold Module.writeCounts
  repeat' (first
    | with_reducible assumption
    | with_reducible first | refine ite_kept ?_ ?_ | refine foldl_kept _ _ ?_ ?_ | refine foldl_kept2 _ _ ?_ ?_ | refine foldl_kept22 _ _ ?_ ?_ | refine foldl_kept222 _ _ ?_ ?_
    | intro _
    | with_reducible apply Module.gate_kept
    | simp (maxDischargeDepth := 99) (maxSteps := 1000000) +contextual only [Module.write_kept, *]
    | with_reducible first | apply Module.gate_kept | apply gate_kept | apply Module.write_kept
    | split)

theorem Module.decideRows_kept (m : Module) (e : EngPos) (t : EngTask) (hm : Memory.wf m.mem = true) :
    Memory.wf (Module.decideRows m e t).2.mem = true := by
  unfold Module.decideRows
  repeat' (first
    | with_reducible assumption
    | with_reducible first | refine ite_kept ?_ ?_ | refine foldl_kept _ _ ?_ ?_ | refine foldl_kept2 _ _ ?_ ?_ | refine foldl_kept22 _ _ ?_ ?_ | refine foldl_kept222 _ _ ?_ ?_
    | intro _
    | with_reducible apply Module.gate_kept
    | simp (maxDischargeDepth := 99) (maxSteps := 1000000) +contextual only [Module.residentGate_kept, Module.count_kept, *]
    | with_reducible first | apply Module.gate_kept | apply gate_kept | apply Module.residentGate_kept | apply Module.count_kept
    | split)

theorem Module.pictureEnd_kept (m : Module) (c : PortId) (s : Stream) (stage : Nat) (u : Nat) (gate : Option GateTask) (idle : Bool) (missed : Bool) (hm : Memory.wf m.mem = true) :
    Memory.wf (Module.pictureEnd m c s stage u gate idle missed).mem = true := by
  unfold Module.pictureEnd
  split
  · exact hm
  simp (maxDischargeDepth := 99) (maxSteps := 1000000) only [Module.count_kept, Module.edgeOut_kept,
    Module.residentOut_kept, Module.writeCounts_kept, Module.setCtx_kept, Module.outputs_kept, ite_kept, hm]


theorem Module.planSignals_kept (m : Module) (t : EngTask) (missed : Bool) (hm : Memory.wf m.mem = true) :
    Memory.wf (Module.planSignals m t missed).mem = true := by
  unfold Module.planSignals
  repeat' (first
    | with_reducible assumption
    | with_reducible first | refine ite_kept ?_ ?_ | refine foldl_kept _ _ ?_ ?_ | refine foldl_kept2 _ _ ?_ ?_ | refine foldl_kept22 _ _ ?_ ?_ | refine foldl_kept222 _ _ ?_ ?_
    | intro _
    | with_reducible apply Module.gate_kept
    | simp (maxDischargeDepth := 99) (maxSteps := 1000000) +contextual only [Module.guestAdd_kept, Module.pictureEnd_kept, Module.addSync_kept, Module.setCtx_kept, ite_kept, *]
    | with_reducible first | apply Module.guestAdd_kept | apply Module.adjustJob_kept | apply Module.settleJob_kept | apply Module.pictureEnd_kept | apply Module.gate_kept | apply gate_kept | apply Module.addSync_kept | apply Module.setCtx_kept
    | split)

theorem Module.setMap_kept (m : Module) (cl : Fin 8) (n : Nat) (p : Nat) (hm : Memory.wf m.mem = true) :
    Memory.wf (Module.setMap m cl n p).mem = true := by
  unfold Module.setMap
  repeat' (first
    | with_reducible assumption
    | with_reducible first | refine ite_kept ?_ ?_ | refine foldl_kept _ _ ?_ ?_ | refine foldl_kept2 _ _ ?_ ?_ | refine foldl_kept22 _ _ ?_ ?_ | refine foldl_kept222 _ _ ?_ ?_
    | intro _
    | simp (maxDischargeDepth := 99) (maxSteps := 1000000) +contextual only [Module.setFld_kept, *])

theorem Module.setName_kept (m : Module) (e : EngPos) (n : Nat) (hm : Memory.wf m.mem = true) :
    Memory.wf (Module.setName m e n).mem = true := by
  unfold Module.setName
  repeat' (first
    | with_reducible assumption
    | with_reducible first | refine ite_kept ?_ ?_ | refine foldl_kept _ _ ?_ ?_ | refine foldl_kept2 _ _ ?_ ?_ | refine foldl_kept22 _ _ ?_ ?_ | refine foldl_kept222 _ _ ?_ ?_
    | intro _
    | simp (maxDischargeDepth := 99) (maxSteps := 1000000) +contextual only [Module.setFld_kept, *])

theorem Module.mapEvent_kept (m : Module) (cl : Fin 8) (cause : Nat) (n : Nat) (old : Nat) (new : Nat) (hm : Memory.wf m.mem = true) :
    Memory.wf (Module.mapEvent m cl cause n old new).mem = true := by
  unfold Module.mapEvent
  repeat' (first
    | with_reducible assumption
    | with_reducible first | refine ite_kept ?_ ?_ | refine foldl_kept _ _ ?_ ?_ | refine foldl_kept2 _ _ ?_ ?_ | refine foldl_kept22 _ _ ?_ ?_ | refine foldl_kept222 _ _ ?_ ?_
    | intro _
    | simp (maxDischargeDepth := 99) (maxSteps := 1000000) +contextual only [Module.raise_kept, *])

theorem Module.setSpare_kept (m : Module) (cl : Fin 8) (v : Nat) (hm : Memory.wf m.mem = true) :
    Memory.wf (Module.setSpare m cl v).mem = true := by
  unfold Module.setSpare
  repeat' (first
    | with_reducible assumption
    | with_reducible first | refine ite_kept ?_ ?_ | refine foldl_kept _ _ ?_ ?_ | refine foldl_kept2 _ _ ?_ ?_ | refine foldl_kept22 _ _ ?_ ?_ | refine foldl_kept222 _ _ ?_ ?_
    | intro _
    | simp (maxDischargeDepth := 99) (maxSteps := 1000000) +contextual only [Module.setFld_kept, *])

theorem Module.swapSpare_kept (m : Module) (e : EngPos) (sp : EngPos) (cause : Nat) (state : Nat) (spare : Nat) (hm : Memory.wf m.mem = true) :
    Memory.wf (Module.swapSpare m e sp cause state spare).mem = true := by
  unfold Module.swapSpare
  repeat' (first
    | with_reducible assumption
    | with_reducible first | refine ite_kept ?_ ?_ | refine foldl_kept _ _ ?_ ?_ | refine foldl_kept2 _ _ ?_ ?_ | refine foldl_kept22 _ _ ?_ ?_ | refine foldl_kept222 _ _ ?_ ?_
    | intro _
    | simp (maxDischargeDepth := 99) (maxSteps := 1000000) +contextual only [Module.setMap_kept, Module.setName_kept, Module.setEngState_kept, Module.setSpare_kept, Module.satAdd_kept, Module.setEng_kept, Module.setFld_kept, Module.mapEvent_kept, *])

theorem Module.loseName_kept (m : Module) (e : EngPos) (hm : Memory.wf m.mem = true) :
    Memory.wf (Module.loseName m e).mem = true := by
  unfold Module.loseName
  repeat' (first
    | with_reducible assumption
    | with_reducible first | refine ite_kept ?_ ?_ | refine foldl_kept _ _ ?_ ?_ | refine foldl_kept2 _ _ ?_ ?_ | refine foldl_kept22 _ _ ?_ ?_ | refine foldl_kept222 _ _ ?_ ?_
    | intro _
    | simp (maxDischargeDepth := 99) (maxSteps := 1000000) +contextual only [Module.setMap_kept, Module.setEngState_kept, Module.satAdd_kept, Module.setEng_kept, Module.mapEvent_kept, *])

theorem Module.faultEvent_kept (m : Module) (e : EngPos) (n : Nat) (code : Nat) (t : EngTask) (rerun : Bool) (quarantined : Bool) (logged : Bool) (hm : Memory.wf m.mem = true) :
    Memory.wf (Module.faultEvent m e n code t rerun quarantined logged).mem = true := by
  unfold Module.faultEvent
  repeat' (first
    | with_reducible assumption
    | with_reducible first | refine ite_kept ?_ ?_ | refine foldl_kept _ _ ?_ ?_ | refine foldl_kept2 _ _ ?_ ?_ | refine foldl_kept22 _ _ ?_ ?_ | refine foldl_kept222 _ _ ?_ ?_
    | intro _
    | simp (maxDischargeDepth := 99) (maxSteps := 1000000) +contextual only [Module.faultSeq_kept, Module.raiseSeq_kept, *]
    | with_reducible first | apply Module.faultSeq_kept | apply Module.raiseSeq_kept
    | split)

theorem Module.faultPosition_kept (m : Module) (e : EngPos) (hm : Memory.wf m.mem = true) :
    Memory.wf (Module.faultPosition m e).2.mem = true := by
  unfold Module.faultPosition
  repeat' (first
    | with_reducible assumption
    | with_reducible first | refine ite_kept ?_ ?_ | refine foldl_kept _ _ ?_ ?_ | refine foldl_kept2 _ _ ?_ ?_ | refine foldl_kept22 _ _ ?_ ?_ | refine foldl_kept222 _ _ ?_ ?_
    | intro _
    | simp (maxDischargeDepth := 99) (maxSteps := 1000000) +contextual only [Module.setEng_kept, Module.loseName_kept, Module.swapSpare_kept, *]
    | with_reducible first | apply Module.setEng_kept | apply Module.loseName_kept | apply Module.swapSpare_kept
    | split)

theorem Module.leaveTask_kept (m : Module) (e : EngPos) (hm : Memory.wf m.mem = true) :
    Memory.wf (Module.leaveTask m e).mem = true := by
  unfold Module.leaveTask
  repeat' (first
    | with_reducible assumption
    | with_reducible first | refine ite_kept ?_ ?_ | refine foldl_kept _ _ ?_ ?_ | refine foldl_kept2 _ _ ?_ ?_ | refine foldl_kept22 _ _ ?_ ?_ | refine foldl_kept222 _ _ ?_ ?_
    | intro _
    | simp (maxDischargeDepth := 99) (maxSteps := 1000000) +contextual only [Module.open__kept, Module.setEng_kept, Module.setEngState_kept, Module.wr_kept, Module.satAdd_kept, Module.lostCycles_kept, *])

theorem taskComplete_kept (e : EngPos) (m : Module) (hm : Memory.wf m.mem = true) :
    Memory.wf (taskComplete e m).mem = true := by
  unfold taskComplete
  repeat' (first
    | with_reducible assumption
    | with_reducible first | refine ite_kept ?_ ?_ | refine foldl_kept _ _ ?_ ?_ | refine foldl_kept2 _ _ ?_ ?_ | refine foldl_kept22 _ _ ?_ ?_ | refine foldl_kept222 _ _ ?_ ?_
    | intro _
    | simp (maxDischargeDepth := 99) (maxSteps := 1000000) +contextual only [Module.engReads_kept, Module.abortTask_kept, Module.decideRows_kept, Module.leaveTask_kept, Module.count_kept, Module.planSignals_kept, Module.faultEvent_kept, Module.faultPosition_kept, *]
    | with_reducible first | apply Module.engReads_kept | apply Module.abortTask_kept | apply Module.decideRows_kept | apply Module.leaveTask_kept | apply Module.count_kept | apply Module.planSignals_kept | apply Module.faultEvent_kept | apply Module.faultPosition_kept
    | split)

theorem Module.engineFault_kept (m : Module) (e : EngPos) (code : Nat) (hm : Memory.wf m.mem = true) :
    Memory.wf (Module.engineFault m e code).mem = true := by
  unfold Module.engineFault
  repeat' (first
    | with_reducible assumption
    | with_reducible first | refine ite_kept ?_ ?_ | refine foldl_kept _ _ ?_ ?_ | refine foldl_kept2 _ _ ?_ ?_ | refine foldl_kept22 _ _ ?_ ?_ | refine foldl_kept222 _ _ ?_ ?_
    | intro _
    | simp (maxDischargeDepth := 99) (maxSteps := 1000000) +contextual only [Module.putTask_kept, Module.setFld_kept, Module.count_kept, Module.abortTask_kept, *]
    | with_reducible first | apply Module.putTask_kept | apply Module.setFld_kept | apply Module.count_kept | apply Module.abortTask_kept
    | split)

theorem Module.sweepFailed_kept (m : Module) (e : EngPos) (hm : Memory.wf m.mem = true) :
    Memory.wf (Module.sweepFailed m e).mem = true := by
  unfold Module.sweepFailed
  repeat' (first
    | with_reducible assumption
    | with_reducible first | refine ite_kept ?_ ?_ | refine foldl_kept _ _ ?_ ?_ | refine foldl_kept2 _ _ ?_ ?_ | refine foldl_kept22 _ _ ?_ ?_ | refine foldl_kept222 _ _ ?_ ?_
    | intro _
    | simp (maxDischargeDepth := 99) (maxSteps := 1000000) +contextual only [Module.setFld_kept, Module.setEng_kept, Module.faultSeq_kept, Module.setEngState_kept, Module.setSpare_kept, Module.swapSpare_kept, *]
    | with_reducible first | apply Module.setFld_kept | apply Module.setEng_kept | apply Module.faultSeq_kept | apply Module.setEngState_kept | apply Module.setSpare_kept | apply Module.swapSpare_kept
    | split)

theorem engineFaultDetected_kept (e : EngPos) (check : EngCheck) (m : Module) (hm : Memory.wf m.mem = true) :
    Memory.wf (engineFaultDetected e check m).mem = true := by
  unfold engineFaultDetected
  repeat' (first
    | with_reducible assumption
    | with_reducible first | refine ite_kept ?_ ?_ | refine foldl_kept _ _ ?_ ?_ | refine foldl_kept2 _ _ ?_ ?_ | refine foldl_kept22 _ _ ?_ ?_ | refine foldl_kept222 _ _ ?_ ?_
    | intro _
    | simp (maxDischargeDepth := 99) (maxSteps := 1000000) +contextual only [Module.engineFault_kept, Module.count_kept, Module.sweepFailed_kept, *]
    | with_reducible first | apply Module.engineFault_kept | apply Module.count_kept | apply Module.sweepFailed_kept
    | split)

theorem engineWatchdog_kept (e : EngPos) (m : Module) (hm : Memory.wf m.mem = true) :
    Memory.wf (engineWatchdog e m).mem = true := by
  unfold engineWatchdog
  repeat' (first
    | with_reducible assumption
    | with_reducible first | refine ite_kept ?_ ?_ | refine foldl_kept _ _ ?_ ?_ | refine foldl_kept2 _ _ ?_ ?_ | refine foldl_kept22 _ _ ?_ ?_ | refine foldl_kept222 _ _ ?_ ?_
    | intro _
    | simp (maxDischargeDepth := 99) (maxSteps := 1000000) +contextual only [Module.abortTask_kept, Module.engineFault_kept, *]
    | with_reducible first | apply Module.abortTask_kept | apply Module.engineFault_kept
    | split)

theorem Module.missTask_kept (m : Module) (e : EngPos) (n : Nat) (status : Nat) (t : EngTask) (hm : Memory.wf m.mem = true) :
    Memory.wf (Module.missTask m e n status t).mem = true := by
  unfold Module.missTask
  repeat' (first
    | with_reducible assumption
    | with_reducible first | refine ite_kept ?_ ?_ | refine foldl_kept _ _ ?_ ?_ | refine foldl_kept2 _ _ ?_ ?_ | refine foldl_kept22 _ _ ?_ ?_ | refine foldl_kept222 _ _ ?_ ?_
    | intro _
    | simp (maxDischargeDepth := 99) (maxSteps := 1000000) +contextual only [Module.raiseCtx_kept, Module.planSignals_kept, *]
    | with_reducible first | apply Module.raiseCtx_kept | apply Module.planSignals_kept
    | split)

theorem Module.failJobTask_kept (m : Module) (e : EngPos) (n : Nat) (status : Nat) (t : EngTask) (hm : Memory.wf m.mem = true) :
    Memory.wf (Module.failJobTask m e n status t).mem = true := by
  unfold Module.failJobTask
  repeat' (first
    | with_reducible assumption
    | with_reducible first | refine ite_kept ?_ ?_ | refine foldl_kept _ _ ?_ ?_ | refine foldl_kept2 _ _ ?_ ?_ | refine foldl_kept22 _ _ ?_ ?_ | refine foldl_kept222 _ _ ?_ ?_
    | intro _
    | simp (maxDischargeDepth := 99) (maxSteps := 1000000) +contextual only [Module.raise_kept, Module.adjustJob_kept, Module.settleJob_kept, *]
    | with_reducible first | apply Module.raise_kept | apply Module.adjustJob_kept | apply Module.settleJob_kept
    | split)

theorem Module.rerunTask_kept (m : Module) (cl : Fin 8) (sp : Option EngPos) (t : EngTask) (hm : Memory.wf m.mem = true) :
    Memory.wf (Module.rerunTask m cl sp t).mem = true := by
  unfold Module.rerunTask
  repeat' (first
    | with_reducible assumption
    | with_reducible first | refine ite_kept ?_ ?_ | refine foldl_kept _ _ ?_ ?_ | refine foldl_kept2 _ _ ?_ ?_ | refine foldl_kept22 _ _ ?_ ?_ | refine foldl_kept222 _ _ ?_ ?_
    | intro _
    | simp (maxDischargeDepth := 99) (maxSteps := 1000000) +contextual only [Module.setEng_kept, Module.adjustJob_kept, *]
    | with_reducible first | apply Module.setEng_kept | apply Module.adjustJob_kept
    | split)

theorem abortComplete_kept (e : EngPos) (m : Module) (hm : Memory.wf m.mem = true) :
    Memory.wf (abortComplete e m).mem = true := by
  unfold abortComplete
  repeat' (first
    | with_reducible assumption
    | with_reducible first | refine ite_kept ?_ ?_ | refine foldl_kept _ _ ?_ ?_ | refine foldl_kept2 _ _ ?_ ?_ | refine foldl_kept22 _ _ ?_ ?_ | refine foldl_kept222 _ _ ?_ ?_
    | intro _
    | with_reducible apply Module.firmware_kept
    | simp (maxDischargeDepth := 99) (maxSteps := 1000000) +contextual only [Module.leaveTask_kept, Module.faultEvent_kept, Module.faultPosition_kept, *]
    | with_reducible first | apply Module.firmware_kept | apply Module.leaveTask_kept | apply Module.faultEvent_kept | apply Module.faultPosition_kept | apply Module.rerunTask_kept | apply Module.missTask_kept | apply Module.adjustJob_kept | apply Module.settleJob_kept | apply Module.failJobTask_kept
    | split)

theorem rotationDue_kept (cl : Fin 8) (m : Module) (hm : Memory.wf m.mem = true) :
    Memory.wf (rotationDue cl m).mem = true := by
  unfold rotationDue
  repeat' (first
    | with_reducible assumption
    | with_reducible refine ite_kept ?_ ?_)

theorem rotation_kept (cl : Fin 8) (m : Module) (hm : Memory.wf m.mem = true) :
    Memory.wf (rotation cl m).mem = true := by
  unfold rotation
  repeat' (first
    | with_reducible assumption
    | with_reducible first | refine ite_kept ?_ ?_ | refine foldl_kept _ _ ?_ ?_ | refine foldl_kept2 _ _ ?_ ?_ | refine foldl_kept22 _ _ ?_ ?_ | refine foldl_kept222 _ _ ?_ ?_
    | intro _
    | simp (maxDischargeDepth := 99) (maxSteps := 1000000) +contextual only [Module.setEng_kept, Module.swapSpare_kept, *]
    | with_reducible first | apply Module.setEng_kept | apply Module.swapSpare_kept
    | split)

theorem rotationSkip_kept (cl : Fin 8) (m : Module) (hm : Memory.wf m.mem = true) :
    Memory.wf (rotationSkip cl m).mem = true := by
  unfold rotationSkip
  repeat' (first
    | with_reducible assumption)

theorem Module.testSpares_kept (m : Module) (old : Nat) (eng : Nat) (hm : Memory.wf m.mem = true) :
    Memory.wf (Module.testSpares m old eng).mem = true := by
  unfold Module.testSpares
  repeat' (first
    | with_reducible assumption
    | with_reducible first | refine ite_kept ?_ ?_ | refine foldl_kept _ _ ?_ ?_ | refine foldl_kept2 _ _ ?_ ?_ | refine foldl_kept22 _ _ ?_ ?_ | refine foldl_kept222 _ _ ?_ ?_
    | intro _
    | simp (maxDischargeDepth := 99) (maxSteps := 1000000) +contextual only [Module.setSpare_kept, *])

theorem Module.rampEng_kept (m : Module) (e : EngPos) (hm : Memory.wf m.mem = true) :
    Memory.wf (Module.rampEng m e).mem = true := by
  unfold Module.rampEng
  repeat' (first
    | with_reducible assumption
    | with_reducible first | refine ite_kept ?_ ?_ | refine foldl_kept _ _ ?_ ?_ | refine foldl_kept2 _ _ ?_ ?_ | refine foldl_kept22 _ _ ?_ ?_ | refine foldl_kept222 _ _ ?_ ?_
    | intro _
    | simp (maxDischargeDepth := 99) (maxSteps := 1000000) +contextual only [Module.rampSpm_kept, Module.setFld_kept, Module.testSpares_kept, *])

theorem sweepDone_kept (e : EngPos) (pass : Bool) (full : Bool) (m : Module) (hm : Memory.wf m.mem = true) :
    Memory.wf (sweepDone e pass full m).mem = true := by
  unfold sweepDone
  repeat' (first
    | with_reducible assumption
    | with_reducible first | refine ite_kept ?_ ?_ | refine foldl_kept _ _ ?_ ?_ | refine foldl_kept2 _ _ ?_ ?_ | refine foldl_kept22 _ _ ?_ ?_ | refine foldl_kept222 _ _ ?_ ?_
    | intro _
    | simp (maxDischargeDepth := 99) (maxSteps := 1000000) +contextual only [Module.rampEng_kept, Module.setFld_kept, Module.sweepFailed_kept, Module.setEng_kept, Module.satAdd_kept, Module.setEngState_kept, Module.setSpare_kept, ite_kept, *])

theorem writeAcknowledged_kept (writer : Writer) (m : Module) (hm : Memory.wf m.mem = true) :
    Memory.wf (writeAcknowledged writer m).mem = true := by
  unfold writeAcknowledged
  repeat' (first
    | with_reducible assumption
    | with_reducible first | refine ite_kept ?_ ?_ | refine foldl_kept _ _ ?_ ?_ | refine foldl_kept2 _ _ ?_ ?_ | refine foldl_kept22 _ _ ?_ ?_ | refine foldl_kept222 _ _ ?_ ?_
    | intro _
    | simp (maxDischargeDepth := 99) (maxSteps := 1000000) +contextual only [Module.engineAck_kept, Module.dmaGo_kept, *]
    | with_reducible first | apply Module.engineAck_kept | apply Module.dmaGo_kept
    | split)

end Sys2Proof.Machine
end

