-- ==== Sys2Proof/Laws/Kept/Remote.lean ====
section
/-!
SUPPORT. Every operation of Machine/Remote.lean keeps the canonical form of memory.
-/
namespace Sys2Proof.Machine

theorem Module.engineData_kept (m : Module) (e : EngPos) (seq : Word) (data : List Byte) (hm : Memory.wf m.mem = true) :
    Memory.wf (Module.engineData m e seq data).mem = true := by
  unfold Module.engineData
  repeat' (first
    | with_reducible assumption
    | with_reducible first | refine ite_kept ?_ ?_ | refine foldl_kept _ _ ?_ ?_ | refine foldl_kept2 _ _ ?_ ?_ | refine foldl_kept22 _ _ ?_ ?_ | refine foldl_kept222 _ _ ?_ ?_
    | intro _
    | simp (maxDischargeDepth := 99) (maxSteps := 1000000) +contextual only [Module.putTask_kept, Module.pump_kept, Module.pumpReads_kept, *]
    | with_reducible first | apply Module.putTask_kept | apply Module.pump_kept | apply Module.pumpReads_kept
    | split)

theorem Module.engineWrote_kept (m : Module) (x : WinOut) (e : EngPos) (hm : Memory.wf m.mem = true) :
    Memory.wf (Module.engineWrote m x e).mem = true := by
  unfold Module.engineWrote
  repeat' (first
    | with_reducible assumption
    | with_reducible first | refine ite_kept ?_ ?_ | refine foldl_kept _ _ ?_ ?_ | refine foldl_kept2 _ _ ?_ ?_ | refine foldl_kept22 _ _ ?_ ?_ | refine foldl_kept222 _ _ ?_ ?_
    | intro _
    | simp (maxDischargeDepth := 99) (maxSteps := 1000000) +contextual only [Module.ackWrite_kept, *])

theorem Module.engineFailed_kept (m : Module) (x : WinOut) (e : EngPos) (status : Nat) (hm : Memory.wf m.mem = true) :
    Memory.wf (Module.engineFailed m x e status).mem = true := by
  unfold Module.engineFailed
  repeat' (first
    | with_reducible assumption
    | with_reducible first | refine ite_kept ?_ ?_ | refine foldl_kept _ _ ?_ ?_ | refine foldl_kept2 _ _ ?_ ?_ | refine foldl_kept22 _ _ ?_ ?_ | refine foldl_kept222 _ _ ?_ ?_
    | intro _
    | simp (maxDischargeDepth := 99) (maxSteps := 1000000) +contextual only [Module.abortTask_kept, Module.engineWrote_kept, *]
    | with_reducible first | apply Module.abortTask_kept | apply Module.engineWrote_kept
    | split)

theorem Module.reportDone_kept (m : Module) (x : WinOut) (c : CmdRef) (status : Nat) (result : Nat) (hm : Memory.wf m.mem = true) :
    Memory.wf (Module.reportDone m x c status result).mem = true := by
  unfold Module.reportDone
  repeat' (first
    | with_reducible assumption
    | with_reducible first | refine ite_kept ?_ ?_ | refine foldl_kept _ _ ?_ ?_ | refine foldl_kept2 _ _ ?_ ?_ | refine foldl_kept22 _ _ ?_ ?_ | refine foldl_kept222 _ _ ?_ ?_
    | intro _
    | simp (maxDischargeDepth := 99) (maxSteps := 1000000) +contextual only [Module.admitEnd_kept, *])

theorem Module.winFailed_kept (m : Module) (x : WinOut) (status : Nat) (hm : Memory.wf m.mem = true) :
    Memory.wf (Module.winFailed m x status).mem = true := by
  unfold Module.winFailed
  repeat' (first
    | with_reducible assumption
    | with_reducible first | refine ite_kept ?_ ?_ | refine foldl_kept _ _ ?_ ?_ | refine foldl_kept2 _ _ ?_ ?_ | refine foldl_kept22 _ _ ?_ ?_ | refine foldl_kept222 _ _ ?_ ?_
    | intro _
    | simp (maxDischargeDepth := 99) (maxSteps := 1000000) +contextual only [Module.endSession_kept, Module.debugAnswer_kept, Module.dmaReturn_kept, Module.engineFailed_kept, Module.reportDone_kept, *]
    | with_reducible first | apply Module.endSession_kept | apply Module.debugAnswer_kept | apply Module.dmaReturn_kept | apply Module.dmaRead_kept | apply Module.engineFailed_kept | apply Module.reportDone_kept
    | split)

theorem Module.winDone_kept (m : Module) (x : WinOut) (data : List Byte) (hm : Memory.wf m.mem = true) :
    Memory.wf (Module.winDone m x data).mem = true := by
  unfold Module.winDone
  repeat' (first
    | with_reducible assumption
    | with_reducible first | refine ite_kept ?_ ?_ | refine foldl_kept _ _ ?_ ?_ | refine foldl_kept2 _ _ ?_ ?_ | refine foldl_kept22 _ _ ?_ ?_ | refine foldl_kept222 _ _ ?_ ?_
    | intro _
    | simp (maxDischargeDepth := 99) (maxSteps := 1000000) +contextual only [Module.debugAnswer_kept, Module.dmaReturn_kept, Module.dmaData_kept, Module.engineWrote_kept, Module.engineData_kept, Module.reportDone_kept, *]
    | with_reducible first | apply Module.debugAnswer_kept | apply Module.dmaReturn_kept | apply Module.dmaRead_kept | apply Module.dmaData_kept | apply Module.engineWrote_kept | apply Module.engineData_kept | apply Module.reportDone_kept
    | split)

theorem Module.learnEpoch_kept (m : Module) (x : WinOut) (epoch : Word) (hm : Memory.wf m.mem = true) :
    Memory.wf (Module.learnEpoch m x epoch).mem = true := by
  unfold Module.learnEpoch
  repeat' (first
    | with_reducible assumption
    | with_reducible first | refine ite_kept ?_ ?_ | refine foldl_kept _ _ ?_ ?_ | refine foldl_kept2 _ _ ?_ ?_ | refine foldl_kept22 _ _ ?_ ?_ | refine foldl_kept222 _ _ ?_ ?_
    | intro _
    | simp (maxDischargeDepth := 99) (maxSteps := 1000000) +contextual only [Module.setSession_kept, *]
    | with_reducible apply Module.setSession_kept
    | split)

theorem Module.afterReturn_kept (m : Module) (x : WinOut) (hm : Memory.wf m.mem = true) :
    Memory.wf (Module.afterReturn m x).mem = true := by
  unfold Module.afterReturn
  repeat' (first
    | with_reducible assumption
    | with_reducible first | refine ite_kept ?_ ?_ | refine foldl_kept _ _ ?_ ?_ | refine foldl_kept2 _ _ ?_ ?_ | refine foldl_kept22 _ _ ?_ ?_ | refine foldl_kept222 _ _ ?_ ?_
    | intro _
    | simp (maxDischargeDepth := 99) (maxSteps := 1000000) +contextual only [Module.pumpAll_kept, Module.finishUnbind_kept, *]
    | with_reducible first | apply Module.pumpAll_kept | apply Module.finishUnbind_kept
    | split)

theorem windowResponse_kept (h : Hdr) (status : W16) (data : List Byte) (m : Module) (hm : Memory.wf m.mem = true) :
    Memory.wf (windowResponse h status data m).mem = true := by
  unfold windowResponse
  repeat' (first
    | with_reducible assumption
    | with_reducible first | refine ite_kept ?_ ?_ | refine foldl_kept _ _ ?_ ?_ | refine foldl_kept2 _ _ ?_ ?_ | refine foldl_kept22 _ _ ?_ ?_ | refine foldl_kept222 _ _ ?_ ?_
    | intro _
    | simp (maxDischargeDepth := 99) (maxSteps := 1000000) +contextual only [Module.popRx_kept, Module.winDrop_kept, Module.learnEpoch_kept, Module.winDone_kept, Module.winFailed_kept, Module.afterReturn_kept, ite_kept, *]
    | with_reducible first | apply Module.popRx_kept | apply Module.winDrop_kept | apply Module.learnEpoch_kept | apply Module.winDone_kept | apply Module.winFailed_kept | apply Module.afterReturn_kept
    | split)

theorem Module.winResend_kept (m : Module) (x : WinOut) (hm : Memory.wf m.mem = true) :
    Memory.wf (Module.winResend m x).mem = true := by
  unfold Module.winResend
  repeat' (first
    | with_reducible assumption
    | with_reducible first | refine ite_kept ?_ ?_ | refine foldl_kept _ _ ?_ ?_ | refine foldl_kept2 _ _ ?_ ?_ | refine foldl_kept22 _ _ ?_ ?_ | refine foldl_kept222 _ _ ?_ ?_
    | intro _
    | simp (maxDischargeDepth := 99) (maxSteps := 1000000) +contextual only [Module.count_kept, Module.winHand_kept, *])

theorem winRetryTimeout_kept (node : W16) (session : W16) (seq : Word) (m : Module) (hm : Memory.wf m.mem = true) :
    Memory.wf (winRetryTimeout node session seq m).mem = true := by
  unfold winRetryTimeout
  repeat' (first
    | with_reducible assumption
    | with_reducible first | refine ite_kept ?_ ?_ | refine foldl_kept _ _ ?_ ?_ | refine foldl_kept2 _ _ ?_ ?_ | refine foldl_kept22 _ _ ?_ ?_ | refine foldl_kept222 _ _ ?_ ?_
    | intro _
    | simp (maxDischargeDepth := 99) (maxSteps := 1000000) +contextual only [Module.winResend_kept, Module.winDrop_kept, Module.winFailed_kept, Module.afterReturn_kept, *]
    | with_reducible first | apply Module.winResend_kept | apply Module.winDrop_kept | apply Module.winFailed_kept | apply Module.afterReturn_kept
    | split)

theorem stackZeroingDone_kept (s : Fin 8) (m : Module) (hm : Memory.wf m.mem = true) :
    Memory.wf (stackZeroingDone s m).mem = true := by
  unfold stackZeroingDone
  repeat' (first
    | with_reducible assumption
    | with_reducible first | refine ite_kept ?_ ?_ | refine foldl_kept _ _ ?_ ?_ | refine foldl_kept2 _ _ ?_ ?_ | refine foldl_kept22 _ _ ?_ ?_ | refine foldl_kept222 _ _ ?_ ?_
    | intro _
    | simp (maxDischargeDepth := 99) (maxSteps := 1000000) +contextual only [Module.rampSpm_kept, Module.zeroStack_kept, Module.setFld_kept, Module.dmaGoOn_kept, Module.pumpAll_kept, *])

end Sys2Proof.Machine
end

