-- ==== Sys2Proof/Laws/Kept/Planner.lean ====
section
/-!
SUPPORT. Every operation of Machine/Planner.lean keeps the canonical form of memory.
-/
namespace Sys2Proof.Machine

theorem Module.freeEntry_kept (m : Module) (check : Nat) (reason : Nat) (resource : Nat) (subject : Nat) (hm : Memory.wf m.mem = true) :
    Memory.wf (Module.freeEntry m check reason resource subject).2.mem = true := by
  unfold Module.freeEntry
  repeat' (first
    | with_reducible assumption
    | with_reducible first | refine ite_kept ?_ ?_ | refine foldl_kept _ _ ?_ ?_ | refine foldl_kept2 _ _ ?_ ?_ | refine foldl_kept22 _ _ ?_ ?_ | refine foldl_kept222 _ _ ?_ ?_
    | intro _
    | simp (maxDischargeDepth := 99) (maxSteps := 1000000) +contextual only [Module.open__kept, *])

theorem Module.chooseEngines_kept (m : Module) (l : List Nat) (n : Nat) (group : Nat) (ok : List Nat → Nat → Bool) (hm : Memory.wf m.mem = true) :
    Memory.wf (Module.chooseEngines m l n group ok).2.mem = true := by
  unfold Module.chooseEngines
  repeat' (first
    | with_reducible assumption
    | with_reducible first | refine ite_kept ?_ ?_ | refine foldl_kept _ _ ?_ ?_ | refine foldl_kept2 _ _ ?_ ?_ | refine foldl_kept22 _ _ ?_ ?_ | refine foldl_kept222 _ _ ?_ ?_
    | intro _
    | simp (maxDischargeDepth := 99) (maxSteps := 1000000) +contextual only [Module.pick_kept, *]
    | with_reducible apply Module.pick_kept
    | split)

theorem Module.placeStage_kept (m : Module) (i : Nat) (tasks : Nat) (p : StagePlan) (before : List StagePlan) (hm : Memory.wf m.mem = true) :
    Memory.wf (Module.placeStage m i tasks p before).2.mem = true := by
  unfold Module.placeStage
  repeat' (first
    | with_reducible assumption
    | with_reducible first | refine ite_kept ?_ ?_ | refine foldl_kept _ _ ?_ ?_ | refine foldl_kept2 _ _ ?_ ?_ | refine foldl_kept22 _ _ ?_ ?_ | refine foldl_kept222 _ _ ?_ ?_
    | intro _
    | simp (maxDischargeDepth := 99) (maxSteps := 1000000) +contextual only [Module.chooseEngines_kept, *]
    | with_reducible apply Module.chooseEngines_kept
    | split)

theorem Module.placeStages_kept (m : Module) (l : List (Nat × Nat × StagePlan)) (hm : Memory.wf m.mem = true) :
    Memory.wf (Module.placeStages m l).2.mem = true := by
  unfold Module.placeStages
  repeat' (first
    | with_reducible assumption
    | with_reducible first | refine ite_kept ?_ ?_ | refine foldl_kept _ _ ?_ ?_ | refine foldl_kept2 _ _ ?_ ?_ | refine foldl_kept22 _ _ ?_ ?_ | refine foldl_kept222 _ _ ?_ ?_
    | intro _
    | (rename_i heq; have hq := congrArg (fun z => z.2.2) heq; dsimp only at hq; subst hq; clear heq)
    | (rename_i heq; have hq := congrArg Prod.snd heq; dsimp only at hq; subst hq; clear heq)
    | simp (maxDischargeDepth := 99) (maxSteps := 1000000) +contextual only [Module.placeStage_kept, *]
    | with_reducible apply Module.placeStage_kept
    | split)

theorem Module.reserve_kept (m : Module) (c : Nat) (i : Nat) (size : Nat) (hm : Memory.wf m.mem = true) :
    Memory.wf (Module.reserve m c i size).2.mem = true := by
  unfold Module.reserve
  repeat' (first
    | with_reducible assumption
    | with_reducible first | refine ite_kept ?_ ?_ | refine foldl_kept _ _ ?_ ?_ | refine foldl_kept2 _ _ ?_ ?_ | refine foldl_kept22 _ _ ?_ ?_ | refine foldl_kept222 _ _ ?_ ?_
    | intro _
    | (rename_i heq; have hq := congrArg (fun z => z.2.2) heq; dsimp only at hq; subst hq; clear heq)
    | (rename_i heq; have hq := congrArg Prod.snd heq; dsimp only at hq; subst hq; clear heq)
    | simp (maxDischargeDepth := 99) (maxSteps := 1000000) +contextual only [Module.place_kept, Module.zoneSpan_kept, Module.reportRegions_kept, *]
    | with_reducible first | apply Module.place_kept | apply Module.zoneSpan_kept | apply Module.reportRegions_kept
    | split)

theorem Module.unreserve_kept (m : Module) (c : Nat) (hm : Memory.wf m.mem = true) :
    Memory.wf (Module.unreserve m c).mem = true := by
  unfold Module.unreserve
  repeat' (first
    | with_reducible assumption
    | with_reducible first | refine ite_kept ?_ ?_ | refine foldl_kept _ _ ?_ ?_ | refine foldl_kept2 _ _ ?_ ?_ | refine foldl_kept22 _ _ ?_ ?_ | refine foldl_kept222 _ _ ?_ ?_
    | intro _
    | simp (maxDischargeDepth := 99) (maxSteps := 1000000) +contextual only [Module.reportRegions_kept, *])

theorem Module.reserveAll_kept (m : Module) (c : Nat) (l : List (Nat × Nat)) (hm : Memory.wf m.mem = true) :
    Memory.wf (Module.reserveAll m c l).2.mem = true := by
  unfold Module.reserveAll
  repeat' (first
    | with_reducible assumption
    | with_reducible first | refine ite_kept ?_ ?_ | refine foldl_kept _ _ ?_ ?_ | refine foldl_kept2 _ _ ?_ ?_ | refine foldl_kept22 _ _ ?_ ?_ | refine foldl_kept222 _ _ ?_ ?_
    | intro _
    | (rename_i heq; have hq := congrArg (fun z => z.2.2) heq; dsimp only at hq; subst hq; clear heq)
    | (rename_i heq; have hq := congrArg Prod.snd heq; dsimp only at hq; subst hq; clear heq)
    | simp (maxDischargeDepth := 99) (maxSteps := 1000000) +contextual only [Module.reserve_kept, *]
    | with_reducible apply Module.reserve_kept
    | split)

theorem Module.reservePlan_kept (m : Module) (x : FormIn) (out : List Nat) (hm : Memory.wf m.mem = true) :
    Memory.wf (Module.reservePlan m x out).2.mem = true := by
  unfold Module.reservePlan
  repeat' (first
    | with_reducible assumption
    | with_reducible first | refine ite_kept ?_ ?_ | refine foldl_kept _ _ ?_ ?_ | refine foldl_kept2 _ _ ?_ ?_ | refine foldl_kept22 _ _ ?_ ?_ | refine foldl_kept222 _ _ ?_ ?_
    | intro _
    | simp (maxDischargeDepth := 99) (maxSteps := 1000000) +contextual only [Module.reserveAll_kept, *])

theorem Module.meetCopies_kept (m : Module) (l : List (Nat × Nat × Nat)) (hm : Memory.wf m.mem = true) :
    Memory.wf (Module.meetCopies m l).2.mem = true := by
  unfold Module.meetCopies
  repeat' (first
    | with_reducible assumption
    | with_reducible first | refine ite_kept ?_ ?_ | refine foldl_kept _ _ ?_ ?_ | refine foldl_kept2 _ _ ?_ ?_ | refine foldl_kept22 _ _ ?_ ?_ | refine foldl_kept222 _ _ ?_ ?_
    | intro _
    | simp (maxDischargeDepth := 99) (maxSteps := 1000000) +contextual only [Module.readMeets_kept, *])

theorem Module.fillPlan_kept (m : Module) (c : Nat) (s : Setup) (p : Plan) (hm : Memory.wf m.mem = true) :
    Memory.wf (Module.fillPlan m c s p).mem = true := by
  unfold Module.fillPlan
  repeat' (first
    | with_reducible assumption
    | with_reducible first | refine ite_kept ?_ ?_ | refine foldl_kept _ _ ?_ ?_ | refine foldl_kept2 _ _ ?_ ?_ | refine foldl_kept22 _ _ ?_ ?_ | refine foldl_kept222 _ _ ?_ ?_
    | intro _
    | simp (maxDischargeDepth := 99) (maxSteps := 1000000) +contextual only [Module.zero_kept, Module.write_kept, *])

theorem Module.placePlan_kept (m : Module) (x : FormIn) (stages : List StagePlan) (pics : List PicPlan) (hm : Memory.wf m.mem = true) :
    Memory.wf (Module.placePlan m x stages pics).2.mem = true := by
  unfold Module.placePlan
  repeat' (first
    | with_reducible assumption
    | with_reducible first | refine ite_kept ?_ ?_ | refine foldl_kept _ _ ?_ ?_ | refine foldl_kept2 _ _ ?_ ?_ | refine foldl_kept22 _ _ ?_ ?_ | refine foldl_kept222 _ _ ?_ ?_
    | intro _
    | (rename_i heq; have hq := congrArg (fun z => z.2.2) heq; dsimp only at hq; subst hq; clear heq)
    | (rename_i heq; have hq := congrArg Prod.snd heq; dsimp only at hq; subst hq; clear heq)
    | simp (maxDischargeDepth := 99) (maxSteps := 1000000) +contextual only [Module.placeStages_kept, *]
    | with_reducible apply Module.placeStages_kept
    | split)

theorem Module.judge_kept (m : Module) (limit : Nat) (t : Nat × Nat) (hm : Memory.wf m.mem = true) :
    Memory.wf (Module.judge m limit t).2.mem = true := by
  unfold Module.judge
  repeat' (first
    | with_reducible assumption
    | with_reducible first | refine ite_kept ?_ ?_ | refine foldl_kept _ _ ?_ ?_ | refine foldl_kept2 _ _ ?_ ?_ | refine foldl_kept22 _ _ ?_ ?_ | refine foldl_kept222 _ _ ?_ ?_
    | intro _
    | simp (maxDischargeDepth := 99) (maxSteps := 1000000) +contextual only [Module.pick_kept, *]
    | with_reducible apply Module.pick_kept
    | split)

theorem Module.judgeAll_kept (m : Module) (l : List (Nat × Nat × Nat × Nat)) (hm : Memory.wf m.mem = true) :
    Memory.wf (Module.judgeAll m l).2.mem = true := by
  unfold Module.judgeAll
  repeat' (first
    | with_reducible assumption
    | with_reducible first | refine ite_kept ?_ ?_ | refine foldl_kept _ _ ?_ ?_ | refine foldl_kept2 _ _ ?_ ?_ | refine foldl_kept22 _ _ ?_ ?_ | refine foldl_kept222 _ _ ?_ ?_
    | intro _
    | (rename_i heq; have hq := congrArg (fun z => z.2.2) heq; dsimp only at hq; subst hq; clear heq)
    | (rename_i heq; have hq := congrArg Prod.snd heq; dsimp only at hq; subst hq; clear heq)
    | simp (maxDischargeDepth := 99) (maxSteps := 1000000) +contextual only [Module.judge_kept, *]
    | with_reducible apply Module.judge_kept
    | split)

theorem Module.checkDeadline_kept (m : Module) (x : FormIn) (p : Plan) (hm : Memory.wf m.mem = true) :
    Memory.wf (Module.checkDeadline m x p).2.2.mem = true := by
  unfold Module.checkDeadline
  repeat' (first
    | with_reducible assumption
    | with_reducible first | refine ite_kept ?_ ?_ | refine foldl_kept _ _ ?_ ?_ | refine foldl_kept2 _ _ ?_ ?_ | refine foldl_kept22 _ _ ?_ ?_ | refine foldl_kept222 _ _ ?_ ?_
    | intro _
    | simp (maxDischargeDepth := 99) (maxSteps := 1000000) +contextual only [Module.pick_kept, Module.judgeAll_kept, implies_true, foldl_kept2, *]
    | with_reducible first | apply Module.pick_kept | apply Module.judgeAll_kept | apply Module.count_kept
    | split)

theorem Module.checkMargin_kept (m : Module) (x : FormIn) (p : Plan) (hm : Memory.wf m.mem = true) :
    Memory.wf (Module.checkMargin m x p).2.mem = true := by
  unfold Module.checkMargin
  repeat' (first
    | with_reducible assumption
    | with_reducible first | refine ite_kept ?_ ?_ | refine foldl_kept _ _ ?_ ?_ | refine foldl_kept2 _ _ ?_ ?_ | refine foldl_kept22 _ _ ?_ ?_ | refine foldl_kept222 _ _ ?_ ?_
    | intro _
    | simp (maxDischargeDepth := 99) (maxSteps := 1000000) +contextual only [Module.judgeAll_kept, Module.open__kept, *]
    | with_reducible first | apply Module.judgeAll_kept | apply Module.open__kept
    | split)

theorem Module.placedChecks_kept (m : Module) (x : FormIn) (p : Plan) (hm : Memory.wf m.mem = true) :
    Memory.wf (Module.placedChecks m x p).2.2.mem = true := by
  unfold Module.placedChecks
  repeat' (first
    | with_reducible assumption
    | with_reducible first | refine ite_kept ?_ ?_ | refine foldl_kept _ _ ?_ ?_ | refine foldl_kept2 _ _ ?_ ?_ | refine foldl_kept22 _ _ ?_ ?_ | refine foldl_kept222 _ _ ?_ ?_
    | intro _
    | simp (maxDischargeDepth := 99) (maxSteps := 1000000) +contextual only [Module.checkDeadline_kept, Module.checkMargin_kept, *]
    | with_reducible first | apply Module.checkDeadline_kept | apply Module.checkMargin_kept
    | split)

theorem Module.writeWeights_kept (m : Module) (st : StageSetup) (sets : Nat) (addr : Nat) (hm : Memory.wf m.mem = true) :
    Memory.wf (Module.writeWeights m st sets addr).mem = true := by
  unfold Module.writeWeights
  repeat' (first
    | with_reducible assumption
    | with_reducible first | refine ite_kept ?_ ?_ | refine foldl_kept _ _ ?_ ?_ | refine foldl_kept2 _ _ ?_ ?_ | refine foldl_kept22 _ _ ?_ ?_ | refine foldl_kept222 _ _ ?_ ?_
    | intro _
    | simp (maxDischargeDepth := 99) (maxSteps := 1000000) +contextual only [Module.store_kept, *]
    | with_reducible apply Module.store_kept
    | split)

theorem Module.makePlan_kept (m : Module) (x : FormIn) (hm : Memory.wf m.mem = true) :
    Memory.wf (Module.makePlan m x).2.2.mem = true := by
  unfold Module.makePlan
  repeat' (first
    | with_reducible assumption
    | with_reducible first | refine ite_kept ?_ ?_ | refine foldl_kept _ _ ?_ ?_ | refine foldl_kept2 _ _ ?_ ?_ | refine foldl_kept22 _ _ ?_ ?_ | refine foldl_kept222 _ _ ?_ ?_
    | intro _
    | (rename_i heq; have hq := congrArg (fun z => z.2.2) heq; dsimp only at hq; subst hq; clear heq)
    | simp (maxDischargeDepth := 99) (maxSteps := 1000000) +contextual only [Module.reservePlan_kept, Module.placePlan_kept, Module.pick_kept, Module.placedChecks_kept, *]
    | with_reducible first | apply Module.reservePlan_kept | apply wb_kept | apply Module.placePlan_kept | apply Module.pick_kept | apply Module.placedChecks_kept
    | split)

end Sys2Proof.Machine
end

