-- ==== Sys2Proof/Laws/Kept/Admission.lean ====
section
/-!
SUPPORT. Every operation of Machine/Admission.lean keeps the canonical form of memory.
-/
namespace Sys2Proof.Machine

theorem Module.recordFetch_kept (m : Module) (a : Nat) (n : Nat) (rec : Remote) (hm : Memory.wf m.mem = true) :
    Memory.wf (Module.recordFetch m a n rec).2.mem = true := by
  unfold Module.recordFetch
  repeat' (first
    | with_reducible assumption
    | with_reducible first | refine ite_kept ?_ ?_ | refine foldl_kept _ _ ?_ ?_ | refine foldl_kept2 _ _ ?_ ?_ | refine foldl_kept22 _ _ ?_ ?_ | refine foldl_kept222 _ _ ?_ ?_
    | intro _
    | simp (maxDischargeDepth := 99) (maxSteps := 1000000) +contextual only [Module.readMeets_kept, Module.askWindow_kept, *]
    | with_reducible first | apply Module.readMeets_kept | apply Module.askWindow_kept
    | split)

theorem Module.writeOut_kept (m : Module) (a : Nat) (l : List Byte) (use : WinUse) (hm : Memory.wf m.mem = true) :
    Memory.wf (Module.writeOut m a l use).mem = true := by
  unfold Module.writeOut
  repeat' (first
    | with_reducible assumption
    | with_reducible first | refine ite_kept ?_ ?_ | refine foldl_kept _ _ ?_ ?_ | refine foldl_kept2 _ _ ?_ ?_ | refine foldl_kept22 _ _ ?_ ?_ | refine foldl_kept222 _ _ ?_ ?_
    | intro _
    | simp (maxDischargeDepth := 99) (maxSteps := 1000000) +contextual only [Module.winWriteTo_kept, Module.store_kept, *]
    | with_reducible first | apply Module.winWriteTo_kept | apply Module.store_kept
    | split)

theorem admitStart_kept (setup : W64) (report : W64) (reportLen : Word) (rec : Remote) (c : CmdRef) (m : Module) (hm : Memory.wf m.mem = true) :
    Memory.wf (admitStart setup report reportLen rec c m).mem = true := by
  unfold admitStart
  repeat' (first
    | with_reducible assumption
    | with_reducible first | refine ite_kept ?_ ?_ | refine foldl_kept _ _ ?_ ?_ | refine foldl_kept2 _ _ ?_ ?_ | refine foldl_kept22 _ _ ?_ ?_ | refine foldl_kept222 _ _ ?_ ?_
    | intro _
    | (rename_i heq; have hq := congrArg (fun z => z.2.2) heq; dsimp only at hq; subst hq; clear heq)
    | (rename_i heq; have hq := congrArg Prod.snd heq; dsimp only at hq; subst hq; clear heq)
    | simp (maxDischargeDepth := 99) (maxSteps := 1000000) +contextual only [Module.count_kept, Module.complete_kept, Module.recordFetch_kept, *]
    | with_reducible first | apply Module.count_kept | apply Module.complete_kept | apply Module.recordFetch_kept
    | split)

theorem admitStream_kept (h : CmdHdr) (setup : W64) (report : W64) (reportLen : Word) (rec : Remote) (m : Module) (hm : Memory.wf m.mem = true) :
    Memory.wf (admitStream h setup report reportLen rec m).mem = true := by
  unfold admitStream
  repeat' (first
    | with_reducible assumption
    | with_reducible first | refine ite_kept ?_ ?_ | refine foldl_kept _ _ ?_ ?_ | refine foldl_kept2 _ _ ?_ ?_ | refine foldl_kept22 _ _ ?_ ?_ | refine foldl_kept222 _ _ ?_ ?_
    | intro _
    | with_reducible apply Module.commandRun_kept
    | simp (maxDischargeDepth := 99) (maxSteps := 1000000) +contextual only [admitStart_kept, *])

theorem Module.admitReport_kept (m : Module) (q : AdmitReq) (failed : Nat) (tried : Bool) (stream : Nat) (l : List RepEntry) (status : Nat) (result : Nat) (hm : Memory.wf m.mem = true) :
    Memory.wf (Module.admitReport m q failed tried stream l status result).mem = true := by
  unfold Module.admitReport
  repeat' (first
    | with_reducible assumption
    | with_reducible first | refine ite_kept ?_ ?_ | refine foldl_kept _ _ ?_ ?_ | refine foldl_kept2 _ _ ?_ ?_ | refine foldl_kept22 _ _ ?_ ?_ | refine foldl_kept222 _ _ ?_ ?_
    | intro _
    | simp (maxDischargeDepth := 99) (maxSteps := 1000000) +contextual only [Module.writeOut_kept, Module.admitEnd_kept, ite_kept, *])

theorem Module.refuseAdmit_kept (m : Module) (q : AdmitReq) (tried : Bool) (l : List RepEntry) (hm : Memory.wf m.mem = true) :
    Memory.wf (Module.refuseAdmit m q tried l).mem = true := by
  unfold Module.refuseAdmit
  repeat' (first
    | with_reducible assumption
    | with_reducible first | refine ite_kept ?_ ?_ | refine foldl_kept _ _ ?_ ?_ | refine foldl_kept2 _ _ ?_ ?_ | refine foldl_kept22 _ _ ?_ ?_ | refine foldl_kept222 _ _ ?_ ?_
    | intro _
    | simp (maxDischargeDepth := 99) (maxSteps := 1000000) +contextual only [Module.count_kept, Module.admitReport_kept, *])

theorem Module.buildGates_kept (m : Module) (hm : Memory.wf m.mem = true) :
    Memory.wf (Module.buildGates m).mem = true := by
  unfold Module.buildGates
  repeat' (first
    | with_reducible assumption
    | with_reducible first | refine ite_kept ?_ ?_ | refine foldl_kept _ _ ?_ ?_ | refine foldl_kept2 _ _ ?_ ?_ | refine foldl_kept22 _ _ ?_ ?_ | refine foldl_kept222 _ _ ?_ ?_
    | intro _
    | simp (maxDischargeDepth := 99) (maxSteps := 1000000) +contextual only [Module.setNetPort_kept, *])

theorem Module.clipHeader_kept (m : Module) (c : Nat) (k : Nat) (hm : Memory.wf m.mem = true) :
    Memory.wf (Module.clipHeader m c k).mem = true := by
  unfold Module.clipHeader
  repeat' (first
    | with_reducible assumption
    | with_reducible first | refine ite_kept ?_ ?_ | refine foldl_kept _ _ ?_ ?_ | refine foldl_kept2 _ _ ?_ ?_ | refine foldl_kept22 _ _ ?_ ?_ | refine foldl_kept222 _ _ ?_ ?_
    | intro _
    | simp (maxDischargeDepth := 99) (maxSteps := 1000000) +contextual only [Module.store_kept, *]
    | with_reducible apply Module.store_kept
    | split)

theorem Module.installStream_kept (m : Module) (c : Nat) (s : Stream) (hm : Memory.wf m.mem = true) :
    Memory.wf (Module.installStream m c s).mem = true := by
  unfold Module.installStream
  repeat' (first
    | with_reducible assumption
    | with_reducible first | refine ite_kept ?_ ?_ | refine foldl_kept _ _ ?_ ?_ | refine foldl_kept2 _ _ ?_ ?_ | refine foldl_kept22 _ _ ?_ ?_ | refine foldl_kept222 _ _ ?_ ?_
    | intro _
    | simp (maxDischargeDepth := 99) (maxSteps := 1000000) +contextual only [Module.wr_kept, Module.setSync_kept, Module.startContext_kept, Module.writeWeights_kept, Module.clipHeader_kept, implies_true, foldl_kept, *])

theorem Module.handLane_kept (m : Module) (c : Nat) (hm : Memory.wf m.mem = true) :
    Memory.wf (Module.handLane m c).mem = true := by
  unfold Module.handLane
  repeat' (first
    | with_reducible assumption
    | with_reducible first | refine ite_kept ?_ ?_ | refine foldl_kept _ _ ?_ ?_ | refine foldl_kept2 _ _ ?_ ?_ | refine foldl_kept22 _ _ ?_ ?_ | refine foldl_kept222 _ _ ?_ ?_
    | intro _
    | simp (maxDischargeDepth := 99) (maxSteps := 1000000) +contextual only [Module.unbindLane_kept, Module.setCal_kept, *]
    | with_reducible first | apply Module.unbindLane_kept | apply Module.setCal_kept
    | split)

theorem Module.ownChannels_kept (m : Module) (l : List Nat) (hm : Memory.wf m.mem = true) :
    Memory.wf (Module.ownChannels m l).mem = true := by
  unfold Module.ownChannels
  repeat' (first
    | with_reducible assumption
    | with_reducible first | refine ite_kept ?_ ?_ | refine foldl_kept _ _ ?_ ?_ | refine foldl_kept2 _ _ ?_ ?_ | refine foldl_kept22 _ _ ?_ ?_ | refine foldl_kept222 _ _ ?_ ?_
    | intro _
    | simp (maxDischargeDepth := 99) (maxSteps := 1000000) +contextual only [Module.setChan_kept, *])

theorem Module.takePlan_kept (m : Module) (c : Nat) (s : Stream) (hm : Memory.wf m.mem = true) :
    Memory.wf (Module.takePlan m c s).mem = true := by
  unfold Module.takePlan
  repeat' (first
    | with_reducible assumption
    | with_reducible first | refine ite_kept ?_ ?_ | refine foldl_kept _ _ ?_ ?_ | refine foldl_kept2 _ _ ?_ ?_ | refine foldl_kept22 _ _ ?_ ?_ | refine foldl_kept222 _ _ ?_ ?_
    | intro _
    | simp (maxDischargeDepth := 99) (maxSteps := 1000000) +contextual only [Module.handLane_kept, Module.bindLane_kept, Module.ownChannels_kept, *])

theorem Module.enterStream_kept (m : Module) (q : AdmitReq) (x : FormIn) (p : Plan) (tried : Bool) (l : List RepEntry) (hm : Memory.wf m.mem = true) :
    Memory.wf (Module.enterStream m q x p tried l).mem = true := by
  unfold Module.enterStream
  repeat' (first
    | with_reducible assumption
    | with_reducible first | refine ite_kept ?_ ?_ | refine foldl_kept _ _ ?_ ?_ | refine foldl_kept2 _ _ ?_ ?_ | refine foldl_kept22 _ _ ?_ ?_ | refine foldl_kept222 _ _ ?_ ?_
    | intro _
    | simp (maxDischargeDepth := 99) (maxSteps := 1000000) +contextual only [Module.takePlan_kept, Module.fillPlan_kept, Module.wr_kept, Module.setFld_kept, Module.installStream_kept, Module.buildGates_kept, Module.reportPlanned_kept, Module.journalEntry_kept, Module.admitReport_kept, implies_true, foldl_kept, *])

theorem admitComplete_kept (c : PortId) (m : Module) (hm : Memory.wf m.mem = true) :
    Memory.wf (admitComplete c m).mem = true := by
  unfold admitComplete
  repeat' (first
    | with_reducible assumption
    | with_reducible first | refine ite_kept ?_ ?_ | refine foldl_kept _ _ ?_ ?_ | refine foldl_kept2 _ _ ?_ ?_ | refine foldl_kept22 _ _ ?_ ?_ | refine foldl_kept222 _ _ ?_ ?_
    | intro _
    | with_reducible apply Module.firmware_kept
    | (rename_i heq; have hq := congrArg (fun z => z.2.2) heq; dsimp only at hq; subst hq; clear heq)
    | simp (maxDischargeDepth := 99) (maxSteps := 1000000) +contextual only [Module.complete_kept, Module.refuseAdmit_kept, Module.makePlan_kept, Module.meetCopies_kept, Module.unreserve_kept, Module.enterStream_kept, *]
    | with_reducible first | apply Module.firmware_kept | apply Module.complete_kept | apply Module.refuseAdmit_kept | apply Module.makePlan_kept | apply Module.meetCopies_kept | apply Module.unreserve_kept | apply Module.enterStream_kept
    | split)

theorem Module.beginRelease_kept (m : Module) (c : Nat) (s : Stream) (by_ : Option (CmdRef × Fin 2)) (hm : Memory.wf m.mem = true) :
    Memory.wf (Module.beginRelease m c s by_).mem = true := by
  unfold Module.beginRelease
  repeat' (first
    | with_reducible assumption
    | with_reducible first | refine ite_kept ?_ ?_ | refine foldl_kept _ _ ?_ ?_ | refine foldl_kept2 _ _ ?_ ?_ | refine foldl_kept22 _ _ ?_ ?_ | refine foldl_kept222 _ _ ?_ ?_
    | intro _
    | simp (maxDischargeDepth := 99) (maxSteps := 1000000) +contextual only [Module.calAbort_kept, *])

theorem releaseStart_kept (stream : Word) (c : CmdRef) (m : Module) (hm : Memory.wf m.mem = true) :
    Memory.wf (releaseStart stream c m).mem = true := by
  unfold releaseStart
  repeat' (first
    | with_reducible assumption
    | with_reducible first | refine ite_kept ?_ ?_ | refine foldl_kept _ _ ?_ ?_ | refine foldl_kept2 _ _ ?_ ?_ | refine foldl_kept22 _ _ ?_ ?_ | refine foldl_kept222 _ _ ?_ ?_
    | intro _
    | simp (maxDischargeDepth := 99) (maxSteps := 1000000) +contextual only [Module.complete_kept, Module.beginRelease_kept, *]
    | with_reducible first | apply Module.complete_kept | apply Module.beginRelease_kept
    | split)

theorem release_kept (h : CmdHdr) (stream : Word) (m : Module) (hm : Memory.wf m.mem = true) :
    Memory.wf (release h stream m).mem = true := by
  unfold release
  repeat' (first
    | with_reducible assumption
    | with_reducible first | refine ite_kept ?_ ?_ | refine foldl_kept _ _ ?_ ?_ | refine foldl_kept2 _ _ ?_ ?_ | refine foldl_kept22 _ _ ?_ ?_ | refine foldl_kept222 _ _ ?_ ?_
    | intro _
    | with_reducible apply Module.command_kept
    | simp (maxDischargeDepth := 99) (maxSteps := 1000000) +contextual only [releaseStart_kept, *])

theorem Module.dropStream_kept (m : Module) (c : Nat) (s : Stream) (hm : Memory.wf m.mem = true) :
    Memory.wf (Module.dropStream m c s).mem = true := by
  unfold Module.dropStream
  repeat' (first
    | with_reducible assumption
    | with_reducible first | refine ite_kept ?_ ?_ | refine foldl_kept _ _ ?_ ?_ | refine foldl_kept2 _ _ ?_ ?_ | refine foldl_kept22 _ _ ?_ ?_ | refine foldl_kept222 _ _ ?_ ?_
    | intro _
    | simp (maxDischargeDepth := 99) (maxSteps := 1000000) +contextual only [Module.setChan_kept, Module.unbindLane_kept, Module.unreserve_kept, Module.wr_kept, Module.setCtx_kept, Module.buildGates_kept, Module.reportPlanned_kept, implies_true, foldl_kept, *])

theorem Module.endRelease_kept (m : Module) (c : Nat) (s : Stream) (hm : Memory.wf m.mem = true) :
    Memory.wf (Module.endRelease m c s).mem = true := by
  unfold Module.endRelease
  repeat' (first
    | with_reducible assumption
    | with_reducible first | refine ite_kept ?_ ?_ | refine foldl_kept _ _ ?_ ?_ | refine foldl_kept2 _ _ ?_ ?_ | refine foldl_kept22 _ _ ?_ ?_ | refine foldl_kept222 _ _ ?_ ?_
    | intro _
    | simp (maxDischargeDepth := 99) (maxSteps := 1000000) +contextual only [Module.dropStream_kept, Module.raiseCtx_kept, Module.journalEntry_kept, Module.complete_kept, *]
    | with_reducible first | apply Module.dropStream_kept | apply Module.raiseCtx_kept | apply Module.journalEntry_kept | apply Module.complete_kept
    | split)

theorem deadlineMissed_kept (c : PortId) (subject : Nat) (frame : Word) (stripe : W16) (lateness : Nat) (m : Module) (hm : Memory.wf m.mem = true) :
    Memory.wf (deadlineMissed c subject frame stripe lateness m).mem = true := by
  unfold deadlineMissed
  repeat' (first
    | with_reducible assumption
    | with_reducible first | refine ite_kept ?_ ?_ | refine foldl_kept _ _ ?_ ?_ | refine foldl_kept2 _ _ ?_ ?_ | refine foldl_kept22 _ _ ?_ ?_ | refine foldl_kept222 _ _ ?_ ?_
    | intro _
    | simp (maxDischargeDepth := 99) (maxSteps := 1000000) +contextual only [Module.count_kept, Module.raiseCtx_kept, *]
    | with_reducible first | apply Module.count_kept | apply Module.raiseCtx_kept
    | split)

theorem deliveryCopy_kept (c : PortId) (j : Fin 4) (m : Module) (hm : Memory.wf m.mem = true) :
    Memory.wf (deliveryCopy c j m).mem = true := by
  unfold deliveryCopy
  repeat' (first
    | with_reducible assumption
    | with_reducible first | refine ite_kept ?_ ?_ | refine foldl_kept _ _ ?_ ?_ | refine foldl_kept2 _ _ ?_ ?_ | refine foldl_kept22 _ _ ?_ ?_ | refine foldl_kept222 _ _ ?_ ?_
    | intro _
    | simp (maxDischargeDepth := 99) (maxSteps := 1000000) +contextual only [Module.setCtx_kept, Module.planMove_kept, *]
    | with_reducible first | apply Module.setCtx_kept | apply Module.planMove_kept
    | split)

theorem resumeStart_kept (stream : Word) (delivery : Nat) (c : CmdRef) (m : Module) (hm : Memory.wf m.mem = true) :
    Memory.wf (resumeStart stream delivery c m).mem = true := by
  unfold resumeStart
  repeat' (first
    | with_reducible assumption
    | with_reducible first | refine ite_kept ?_ ?_ | refine foldl_kept _ _ ?_ ?_ | refine foldl_kept2 _ _ ?_ ?_ | refine foldl_kept22 _ _ ?_ ?_ | refine foldl_kept222 _ _ ?_ ?_
    | intro _
    | simp (maxDischargeDepth := 99) (maxSteps := 1000000) +contextual only [Module.complete_kept, *]
    | with_reducible apply Module.complete_kept
    | split)

theorem resumeDelivery_kept (h : CmdHdr) (stream : Word) (delivery : Byte) (m : Module) (hm : Memory.wf m.mem = true) :
    Memory.wf (resumeDelivery h stream delivery m).mem = true := by
  unfold resumeDelivery
  repeat' (first
    | with_reducible assumption
    | with_reducible first | refine ite_kept ?_ ?_ | refine foldl_kept _ _ ?_ ?_ | refine foldl_kept2 _ _ ?_ ?_ | refine foldl_kept22 _ _ ?_ ?_ | refine foldl_kept222 _ _ ?_ ?_
    | intro _
    | with_reducible apply Module.command_kept
    | simp (maxDischargeDepth := 99) (maxSteps := 1000000) +contextual only [resumeStart_kept, *])

theorem Module.resumeOutput_kept (m : Module) (c : Nat) (k : Nat) (hm : Memory.wf m.mem = true) :
    Memory.wf (Module.resumeOutput m c k).mem = true := by
  unfold Module.resumeOutput
  repeat' (first
    | with_reducible assumption)

theorem Module.clipFreeze_kept (m : Module) (c : Nat) (k : Nat) (hm : Memory.wf m.mem = true) :
    Memory.wf (Module.clipFreeze m c k).mem = true := by
  unfold Module.clipFreeze
  repeat' (first
    | with_reducible assumption)

theorem clipFrameCopy_kept (c : PortId) (k : Fin 4) (m : Module) (hm : Memory.wf m.mem = true) :
    Memory.wf (clipFrameCopy c k m).mem = true := by
  unfold clipFrameCopy
  repeat' (first
    | with_reducible assumption
    | with_reducible first | refine ite_kept ?_ ?_ | refine foldl_kept _ _ ?_ ?_ | refine foldl_kept2 _ _ ?_ ?_ | refine foldl_kept22 _ _ ?_ ?_ | refine foldl_kept222 _ _ ?_ ?_
    | intro _
    | simp (maxDischargeDepth := 99) (maxSteps := 1000000) +contextual only [Module.setCtx_kept, Module.clipHeader_kept, Module.planMove_kept, *]
    | with_reducible first | apply Module.setCtx_kept | apply Module.clipHeader_kept | apply Module.planMove_kept
    | split)

theorem clipHeaderUpdate_kept (c : PortId) (k : Fin 4) (m : Module) (hm : Memory.wf m.mem = true) :
    Memory.wf (clipHeaderUpdate c k m).mem = true := by
  unfold clipHeaderUpdate
  repeat' (first
    | with_reducible assumption
    | with_reducible first | refine ite_kept ?_ ?_ | refine foldl_kept _ _ ?_ ?_ | refine foldl_kept2 _ _ ?_ ?_ | refine foldl_kept22 _ _ ?_ ?_ | refine foldl_kept222 _ _ ?_ ?_
    | intro _
    | simp (maxDischargeDepth := 99) (maxSteps := 1000000) +contextual only [Module.clipFreeze_kept, Module.clipHeader_kept, Module.planNext_kept, ite_kept, *]
    | with_reducible first | apply Module.clipFreeze_kept | apply Module.clipHeader_kept | apply Module.planNext_kept
    | split)

theorem clipCtl_kept (region : Word) (f : Module → Nat → Nat → Module) (c : CmdRef) (m : Module) (hf : ∀ (x0 : Module) (x1 : Nat) (x2 : Nat), Memory.wf x0.mem = true → Memory.wf (f x0 x1 x2).mem = true) (hm : Memory.wf m.mem = true) :
    Memory.wf (clipCtl region f c m).mem = true := by
  unfold clipCtl
  repeat' (first
    | with_reducible assumption
    | with_reducible first | refine ite_kept ?_ ?_ | refine foldl_kept _ _ ?_ ?_ | refine foldl_kept2 _ _ ?_ ?_ | refine foldl_kept22 _ _ ?_ ?_ | refine foldl_kept222 _ _ ?_ ?_
    | intro _
    | simp (maxDischargeDepth := 99) (maxSteps := 1000000) +contextual only [Module.complete_kept, Module.clipHeader_kept, implies_true, foldl_kept, *])

theorem freeze_kept (h : CmdHdr) (region : Word) (after : Word) (m : Module) (hm : Memory.wf m.mem = true) :
    Memory.wf (freeze h region after m).mem = true := by
  unfold freeze
  repeat' (first
    | with_reducible assumption
    | with_reducible first | refine ite_kept ?_ ?_ | refine foldl_kept _ _ ?_ ?_ | refine foldl_kept2 _ _ ?_ ?_ | refine foldl_kept22 _ _ ?_ ?_ | refine foldl_kept222 _ _ ?_ ?_
    | intro _
    | with_reducible apply Module.command_kept
    | with_reducible apply clipCtl_kept
    | simp (maxDischargeDepth := 99) (maxSteps := 1000000) +contextual only [Module.clipFreeze_kept, *])

theorem thaw_kept (h : CmdHdr) (region : Word) (m : Module) (hm : Memory.wf m.mem = true) :
    Memory.wf (thaw h region m).mem = true := by
  unfold thaw
  repeat' (first
    | with_reducible assumption
    | with_reducible first | refine ite_kept ?_ ?_ | refine foldl_kept _ _ ?_ ?_ | refine foldl_kept2 _ _ ?_ ?_ | refine foldl_kept22 _ _ ?_ ?_ | refine foldl_kept222 _ _ ?_ ?_
    | intro _
    | with_reducible apply Module.command_kept
    | with_reducible apply clipCtl_kept)

end Sys2Proof.Machine
end

