-- ==== Sys2Proof/Laws/Kept/Mode.lean ====
section
/-!
SUPPORT. Every operation of Machine/Mode.lean keeps the canonical form of memory.
-/
namespace Sys2Proof.Machine

theorem Module.setModeChange_kept (m : Module) (x : Option ModeChange) (hm : Memory.wf m.mem = true) :
    Memory.wf (Module.setModeChange m x).mem = true := by
  unfold Module.setModeChange
  repeat' (first
    | with_reducible assumption
    | with_reducible first | refine ite_kept ?_ ?_ | refine foldl_kept _ _ ?_ ?_ | refine foldl_kept2 _ _ ?_ ?_ | refine foldl_kept22 _ _ ?_ ?_ | refine foldl_kept222 _ _ ?_ ?_
    | intro _
    | simp (maxDischargeDepth := 99) (maxSteps := 1000000) +contextual only [Module.setFld_kept, *])

theorem Module.modeRequest_kept (m : Module) (mode : Nat) (hm : Memory.wf m.mem = true) :
    Memory.wf (Module.modeRequest m mode).2.mem = true := by
  unfold Module.modeRequest
  repeat' (first
    | with_reducible assumption
    | with_reducible first | refine ite_kept ?_ ?_ | refine foldl_kept _ _ ?_ ?_ | refine foldl_kept2 _ _ ?_ ?_ | refine foldl_kept22 _ _ ?_ ?_ | refine foldl_kept222 _ _ ?_ ?_
    | intro _
    | simp (maxDischargeDepth := 99) (maxSteps := 1000000) +contextual only [Module.setModeChange_kept, *]
    | with_reducible apply Module.setModeChange_kept
    | split)

theorem Module.inMode_kept (m : Module) (mode : Nat) (hm : Memory.wf m.mem = true) :
    Memory.wf (Module.inMode m mode).mem = true := by
  unfold Module.inMode
  repeat' (first
    | with_reducible assumption
    | with_reducible first | refine ite_kept ?_ ?_ | refine foldl_kept _ _ ?_ ?_ | refine foldl_kept2 _ _ ?_ ?_ | refine foldl_kept22 _ _ ?_ ?_ | refine foldl_kept222 _ _ ?_ ?_
    | intro _
    | simp (maxDischargeDepth := 99) (maxSteps := 1000000) +contextual only [Module.setFld_kept, Module.updateCap_kept, *])

theorem Module.unplanned_kept (m : Module) (hm : Memory.wf m.mem = true) :
    Memory.wf (Module.unplanned m).mem = true := by
  unfold Module.unplanned
  repeat' (first
    | with_reducible assumption
    | with_reducible first | refine ite_kept ?_ ?_ | refine foldl_kept _ _ ?_ ?_ | refine foldl_kept2 _ _ ?_ ?_ | refine foldl_kept22 _ _ ?_ ?_ | refine foldl_kept222 _ _ ?_ ?_
    | intro _
    | simp (maxDischargeDepth := 99) (maxSteps := 1000000) +contextual only [Module.dropStream_kept, Module.calAbort_kept, *])

theorem Module.replan_kept (m : Module) (s : Stream) (hm : Memory.wf m.mem = true) :
    Memory.wf (Module.replan m s).2.mem = true := by
  unfold Module.replan
  repeat' (first
    | with_reducible assumption
    | with_reducible first | refine ite_kept ?_ ?_ | refine foldl_kept _ _ ?_ ?_ | refine foldl_kept2 _ _ ?_ ?_ | refine foldl_kept22 _ _ ?_ ?_ | refine foldl_kept222 _ _ ?_ ?_
    | intro _
    | (rename_i heq; have hq := congrArg (fun z => z.2.2) heq; dsimp only at hq; subst hq; clear heq)
    | simp (maxDischargeDepth := 99) (maxSteps := 1000000) +contextual only [Module.makePlan_kept, *]
    | with_reducible apply Module.makePlan_kept
    | split)

theorem planAll_kept (l : List (Nat × Stream)) (m : Module) (hm : Memory.wf m.mem = true) :
    Memory.wf (planAll l m).2.2.2.mem = true := by
  unfold planAll
  repeat' (first
    | with_reducible assumption
    | with_reducible first | refine ite_kept ?_ ?_ | refine foldl_kept _ _ ?_ ?_ | refine foldl_kept2 _ _ ?_ ?_ | refine foldl_kept22 _ _ ?_ ?_ | refine foldl_kept222 _ _ ?_ ?_
    | intro _
    | (rename_i heq; have hq := congrArg (fun z => z.2.2) heq; dsimp only at hq; subst hq; clear heq)
    | (rename_i heq; have hq := congrArg Prod.snd heq; dsimp only at hq; subst hq; clear heq)
    | simp (maxDischargeDepth := 99) (maxSteps := 1000000) +contextual only [Module.replan_kept, Module.takePlan_kept, *]
    | with_reducible first | apply Module.replan_kept | apply Module.takePlan_kept
    | split)

theorem Module.holdPlans_kept (m : Module) (plans : List (Nat × Plan)) (regions : SMap Region) (hm : Memory.wf m.mem = true) :
    Memory.wf (Module.holdPlans m plans regions).mem = true := by
  unfold Module.holdPlans
  repeat' (first
    | with_reducible assumption
    | with_reducible first | refine ite_kept ?_ ?_ | refine foldl_kept _ _ ?_ ?_ | refine foldl_kept2 _ _ ?_ ?_ | refine foldl_kept22 _ _ ?_ ?_ | refine foldl_kept222 _ _ ?_ ?_
    | intro _
    | simp (maxDischargeDepth := 99) (maxSteps := 1000000) +contextual only [Module.zoneSpan_kept, Module.ownChannels_kept, *])

theorem Module.dropHeld_kept (m : Module) (plans : List (Nat × Plan)) (hm : Memory.wf m.mem = true) :
    Memory.wf (Module.dropHeld m plans).mem = true := by
  unfold Module.dropHeld
  repeat' (first
    | with_reducible assumption
    | with_reducible first | refine ite_kept ?_ ?_ | refine foldl_kept _ _ ?_ ?_ | refine foldl_kept2 _ _ ?_ ?_ | refine foldl_kept22 _ _ ?_ ?_ | refine foldl_kept222 _ _ ?_ ?_
    | intro _
    | simp (maxDischargeDepth := 99) (maxSteps := 1000000) +contextual only [Module.setChan_kept, Module.reportRegions_kept, implies_true, foldl_kept, *])

theorem Module.swapPlans_kept (m : Module) (plans : List (Nat × Plan)) (hm : Memory.wf m.mem = true) :
    Memory.wf (Module.swapPlans m plans).mem = true := by
  unfold Module.swapPlans
  repeat' (first
    | with_reducible assumption
    | with_reducible first | refine ite_kept ?_ ?_ | refine foldl_kept _ _ ?_ ?_ | refine foldl_kept2 _ _ ?_ ?_ | refine foldl_kept22 _ _ ?_ ?_ | refine foldl_kept222 _ _ ?_ ?_
    | intro _
    | simp (maxDischargeDepth := 99) (maxSteps := 1000000) +contextual only [Module.setChan_kept, Module.reportRegions_kept, Module.unbindLane_kept, Module.takePlan_kept, Module.fillPlan_kept, Module.installStream_kept, implies_true, foldl_kept, *]
    | with_reducible first | apply Module.setChan_kept | apply Module.reportRegions_kept | apply Module.unbindLane_kept | apply Module.takePlan_kept | apply Module.fillPlan_kept | apply Module.installStream_kept
    | split)

theorem Module.preemptAll_kept (m : Module) (hm : Memory.wf m.mem = true) :
    Memory.wf (Module.preemptAll m).mem = true := by
  unfold Module.preemptAll
  repeat' (first
    | with_reducible assumption
    | with_reducible first | refine ite_kept ?_ ?_ | refine foldl_kept _ _ ?_ ?_ | refine foldl_kept2 _ _ ?_ ?_ | refine foldl_kept22 _ _ ?_ ?_ | refine foldl_kept222 _ _ ?_ ?_
    | intro _
    | simp (maxDischargeDepth := 99) (maxSteps := 1000000) +contextual only [Module.setEng_kept, Module.adjustJob_kept, Module.count_kept, *]
    | with_reducible first | apply Module.setEng_kept | apply Module.adjustJob_kept | apply Module.count_kept | apply Module.abortTask_kept
    | split)

theorem modeReplanDone_kept (m : Module) (hm : Memory.wf m.mem = true) :
    Memory.wf (modeReplanDone m).mem = true := by
  unfold modeReplanDone
  repeat' (first
    | with_reducible assumption
    | with_reducible first | refine ite_kept ?_ ?_ | refine foldl_kept _ _ ?_ ?_ | refine foldl_kept2 _ _ ?_ ?_ | refine foldl_kept22 _ _ ?_ ?_ | refine foldl_kept222 _ _ ?_ ?_
    | intro _
    | with_reducible apply Module.firmware_kept
    | simp (maxDischargeDepth := 99) (maxSteps := 1000000) +contextual only [Module.writeReport_kept, Module.setModeChange_kept, Module.raise_kept, Module.preemptAll_kept, Module.holdPlans_kept, Module.calAbort_kept, *]
    | with_reducible first | apply Module.firmware_kept | apply planAll_kept | apply Module.inMode_kept | apply Module.unplanned_kept | apply Module.writeReport_kept | apply Module.setModeChange_kept | apply Module.raise_kept | apply Module.preemptAll_kept | apply Module.holdPlans_kept | apply Module.calAbort_kept
    | split)

theorem Module.spareRole_kept (m : Module) (cl : Fin 8) (hm : Memory.wf m.mem = true) :
    Memory.wf (Module.spareRole m cl).mem = true := by
  unfold Module.spareRole
  repeat' (first
    | with_reducible assumption
    | with_reducible first | refine ite_kept ?_ ?_ | refine foldl_kept _ _ ?_ ?_ | refine foldl_kept2 _ _ ?_ ?_ | refine foldl_kept22 _ _ ?_ ?_ | refine foldl_kept222 _ _ ?_ ?_
    | intro _
    | simp (maxDischargeDepth := 99) (maxSteps := 1000000) +contextual only [Module.setSpare_kept, Module.setEngState_kept, Module.setMap_kept, Module.setName_kept, Module.satAdd_kept, Module.mapEvent_kept, Module.setEng_kept, Module.setFld_kept, *]
    | with_reducible first | apply Module.setSpare_kept | apply Module.setEngState_kept | apply Module.setMap_kept | apply Module.setName_kept | apply Module.satAdd_kept | apply Module.mapEvent_kept | apply Module.setEng_kept | apply Module.setFld_kept
    | split)

theorem modeClockSwitch_kept (m : Module) (hm : Memory.wf m.mem = true) :
    Memory.wf (modeClockSwitch m).mem = true := by
  unfold modeClockSwitch
  repeat' (first
    | with_reducible assumption
    | with_reducible first | refine ite_kept ?_ ?_ | refine foldl_kept _ _ ?_ ?_ | refine foldl_kept2 _ _ ?_ ?_ | refine foldl_kept22 _ _ ?_ ?_ | refine foldl_kept222 _ _ ?_ ?_
    | intro _
    | with_reducible apply Module.firmware_kept
    | simp (maxDischargeDepth := 99) (maxSteps := 1000000) +contextual only [Module.updateCap_kept, Module.spareRole_kept, Module.swapPlans_kept, Module.buildGates_kept, Module.reportPlanned_kept, implies_true, foldl_kept, *]
    | with_reducible first | apply Module.firmware_kept | apply Module.updateCap_kept | apply Module.spareRole_kept | apply Module.swapPlans_kept | apply Module.buildGates_kept | apply Module.reportPlanned_kept
    | split)

theorem modeChanged_kept (m : Module) (hm : Memory.wf m.mem = true) :
    Memory.wf (modeChanged m).mem = true := by
  unfold modeChanged
  repeat' (first
    | with_reducible assumption
    | with_reducible first | refine ite_kept ?_ ?_ | refine foldl_kept _ _ ?_ ?_ | refine foldl_kept2 _ _ ?_ ?_ | refine foldl_kept22 _ _ ?_ ?_ | refine foldl_kept222 _ _ ?_ ?_
    | intro _
    | with_reducible apply Module.firmware_kept
    | simp (maxDischargeDepth := 99) (maxSteps := 1000000) +contextual only [Module.setFld_kept, Module.setModeChange_kept, Module.raise_kept, *]
    | with_reducible first | apply Module.firmware_kept | apply Module.setFld_kept | apply Module.setModeChange_kept | apply Module.raise_kept
    | split)

theorem Module.stopModeChange_kept (m : Module) (hm : Memory.wf m.mem = true) :
    Memory.wf (Module.stopModeChange m).mem = true := by
  unfold Module.stopModeChange
  repeat' (first
    | with_reducible assumption
    | with_reducible first | refine ite_kept ?_ ?_ | refine foldl_kept _ _ ?_ ?_ | refine foldl_kept2 _ _ ?_ ?_ | refine foldl_kept22 _ _ ?_ ?_ | refine foldl_kept222 _ _ ?_ ?_
    | intro _
    | simp (maxDischargeDepth := 99) (maxSteps := 1000000) +contextual only [Module.dropHeld_kept, Module.setModeChange_kept, Module.setFld_kept, *]
    | with_reducible first | apply Module.dropHeld_kept | apply Module.setModeChange_kept | apply Module.setFld_kept
    | split)

theorem thermalCapUpdate_kept (m : Module) (hm : Memory.wf m.mem = true) :
    Memory.wf (thermalCapUpdate m).mem = true := by
  unfold thermalCapUpdate
  repeat' (first
    | with_reducible assumption
    | with_reducible first | refine ite_kept ?_ ?_ | refine foldl_kept _ _ ?_ ?_ | refine foldl_kept2 _ _ ?_ ?_ | refine foldl_kept22 _ _ ?_ ?_ | refine foldl_kept222 _ _ ?_ ?_
    | intro _
    | simp (maxDischargeDepth := 99) (maxSteps := 1000000) +contextual only [Module.updateCap_kept, Module.checkRisk_kept, *])

theorem planOverCap_kept (m : Module) (hm : Memory.wf m.mem = true) :
    Memory.wf (planOverCap m).mem = true := by
  unfold planOverCap
  repeat' (first
    | with_reducible assumption
    | with_reducible first | refine ite_kept ?_ ?_ | refine foldl_kept _ _ ?_ ?_ | refine foldl_kept2 _ _ ?_ ?_ | refine foldl_kept22 _ _ ?_ ?_ | refine foldl_kept222 _ _ ?_ ?_
    | intro _
    | simp (maxDischargeDepth := 99) (maxSteps := 1000000) +contextual only [Module.fault_kept, *])

end Sys2Proof.Machine
end

