-- ==== Sys2Proof/Laws/Kept/Jobs.lean ====
section
/-!
SUPPORT. Every operation of Machine/Jobs.lean keeps the canonical form of memory.
-/
namespace Sys2Proof.Machine

theorem freeStart_kept (region : Word) (c : CmdRef) (m : Module) (hm : Memory.wf m.mem = true) :
    Memory.wf (freeStart region c m).mem = true := by
  unfold freeStart
  repeat' (first
    | with_reducible assumption
    | with_reducible first | refine ite_kept ?_ ?_ | refine foldl_kept _ _ ?_ ?_ | refine foldl_kept2 _ _ ?_ ?_ | refine foldl_kept22 _ _ ?_ ?_ | refine foldl_kept222 _ _ ?_ ?_
    | intro _
    | simp (maxDischargeDepth := 99) (maxSteps := 1000000) +contextual only [Module.complete_kept, *]
    | with_reducible apply Module.complete_kept
    | split)

theorem freeCmd_kept (h : CmdHdr) (region : Word) (m : Module) (hm : Memory.wf m.mem = true) :
    Memory.wf (freeCmd h region m).mem = true := by
  unfold freeCmd
  repeat' (first
    | with_reducible assumption
    | with_reducible first | refine ite_kept ?_ ?_ | refine foldl_kept _ _ ?_ ?_ | refine foldl_kept2 _ _ ?_ ?_ | refine foldl_kept22 _ _ ?_ ?_ | refine foldl_kept222 _ _ ?_ ?_
    | intro _
    | with_reducible apply Module.command_kept
    | with_reducible apply Module.commandRun_kept
    | simp (maxDischargeDepth := 99) (maxSteps := 1000000) +contextual only [freeStart_kept, *])

theorem releaseZeroFill_kept (region : Word) (m : Module) (hm : Memory.wf m.mem = true) :
    Memory.wf (releaseZeroFill region m).mem = true := by
  unfold releaseZeroFill
  repeat' (first
    | with_reducible assumption
    | with_reducible first | refine ite_kept ?_ ?_ | refine foldl_kept _ _ ?_ ?_ | refine foldl_kept2 _ _ ?_ ?_ | refine foldl_kept22 _ _ ?_ ?_ | refine foldl_kept222 _ _ ?_ ?_
    | intro _
    | with_reducible apply Module.firmware_kept
    | simp (maxDischargeDepth := 99) (maxSteps := 1000000) +contextual only [Module.zero_kept, *]
    | with_reducible first | apply Module.firmware_kept | apply Module.zero_kept
    | split)

theorem releaseDone_kept (region : Word) (m : Module) (hm : Memory.wf m.mem = true) :
    Memory.wf (releaseDone region m).mem = true := by
  unfold releaseDone
  repeat' (first
    | with_reducible assumption
    | with_reducible first | refine ite_kept ?_ ?_ | refine foldl_kept _ _ ?_ ?_ | refine foldl_kept2 _ _ ?_ ?_ | refine foldl_kept22 _ _ ?_ ?_ | refine foldl_kept222 _ _ ?_ ?_
    | intro _
    | with_reducible apply Module.firmware_kept
    | simp (maxDischargeDepth := 99) (maxSteps := 1000000) +contextual only [Module.reportRegions_kept, Module.complete_kept, *]
    | with_reducible first | apply Module.firmware_kept | apply Module.reportRegions_kept | apply Module.complete_kept
    | split)

theorem Module.jobAccept_kept (m : Module) (c : CmdRef) (b : List Byte) (hm : Memory.wf m.mem = true) :
    Memory.wf (Module.jobAccept m c b).mem = true := by
  unfold Module.jobAccept
  repeat' (first
    | with_reducible assumption
    | with_reducible first | refine ite_kept ?_ ?_ | refine foldl_kept _ _ ?_ ?_ | refine foldl_kept2 _ _ ?_ ?_ | refine foldl_kept22 _ _ ?_ ?_ | refine foldl_kept222 _ _ ?_ ?_
    | intro _
    | simp (maxDischargeDepth := 99) (maxSteps := 1000000) +contextual only [Module.tick_kept, Module.count_kept, Module.complete_kept, Module.setJobs_kept, *])

theorem jobRead_kept (record : W64) (rec : Remote) (c : CmdRef) (m : Module) (hm : Memory.wf m.mem = true) :
    Memory.wf (jobRead record rec c m).mem = true := by
  unfold jobRead
  repeat' (first
    | with_reducible assumption
    | with_reducible first | refine ite_kept ?_ ?_ | refine foldl_kept _ _ ?_ ?_ | refine foldl_kept2 _ _ ?_ ?_ | refine foldl_kept22 _ _ ?_ ?_ | refine foldl_kept222 _ _ ?_ ?_
    | intro _
    | (rename_i heq; have hq := congrArg (fun z => z.2.2) heq; dsimp only at hq; subst hq; clear heq)
    | (rename_i heq; have hq := congrArg Prod.snd heq; dsimp only at hq; subst hq; clear heq)
    | simp (maxDischargeDepth := 99) (maxSteps := 1000000) +contextual only [Module.count_kept, Module.complete_kept, Module.recordFetch_kept, Module.jobAccept_kept, *]
    | with_reducible first | apply Module.count_kept | apply Module.complete_kept | apply Module.recordFetch_kept | apply Module.jobAccept_kept
    | split)

theorem jobCmd_kept (h : CmdHdr) (record : W64) (rec : Remote) (m : Module) (hm : Memory.wf m.mem = true) :
    Memory.wf (jobCmd h record rec m).mem = true := by
  unfold jobCmd
  repeat' (first
    | with_reducible assumption
    | with_reducible first | refine ite_kept ?_ ?_ | refine foldl_kept _ _ ?_ ?_ | refine foldl_kept2 _ _ ?_ ?_ | refine foldl_kept22 _ _ ?_ ?_ | refine foldl_kept222 _ _ ?_ ?_
    | intro _
    | with_reducible apply Module.commandRun_kept
    | simp (maxDischargeDepth := 99) (maxSteps := 1000000) +contextual only [jobRead_kept, *])

theorem jobDispatch_kept (job : Nat) (stage : Nat) (task : Nat) (cl : Fin 8) (logical : Fin 17) (m : Module) (hm : Memory.wf m.mem = true) :
    Memory.wf (jobDispatch job stage task cl logical m).mem = true := by
  unfold jobDispatch
  repeat' (first
    | with_reducible assumption
    | with_reducible first | refine ite_kept ?_ ?_ | refine foldl_kept _ _ ?_ ?_ | refine foldl_kept2 _ _ ?_ ?_ | refine foldl_kept22 _ _ ?_ ?_ | refine foldl_kept222 _ _ ?_ ?_
    | intro _
    | simp (maxDischargeDepth := 99) (maxSteps := 1000000) +contextual only [Module.tick_kept, Module.count_kept, Module.endJob_kept, Module.writeWeights_kept, *]
    | with_reducible first | apply Module.tick_kept | apply Module.count_kept | apply Module.endJob_kept | apply Module.writeWeights_kept | apply Module.setEng_kept | apply Module.adjustJob_kept
    | split)

theorem jobPreempt_kept (e : EngPos) (m : Module) (hm : Memory.wf m.mem = true) :
    Memory.wf (jobPreempt e m).mem = true := by
  unfold jobPreempt
  repeat' (first
    | with_reducible assumption
    | with_reducible first | refine ite_kept ?_ ?_ | refine foldl_kept _ _ ?_ ?_ | refine foldl_kept2 _ _ ?_ ?_ | refine foldl_kept22 _ _ ?_ ?_ | refine foldl_kept222 _ _ ?_ ?_
    | intro _
    | with_reducible apply Module.firmware_kept
    | simp (maxDischargeDepth := 99) (maxSteps := 1000000) +contextual only [Module.abortTask_kept, Module.count_kept, *]
    | with_reducible first | apply Module.firmware_kept | apply Module.abortTask_kept | apply Module.count_kept
    | split)

theorem Module.stopJob_kept (m : Module) (id : Nat) (status : Nat) (hm : Memory.wf m.mem = true) :
    Memory.wf (Module.stopJob m id status).mem = true := by
  unfold Module.stopJob
  repeat' (first
    | with_reducible assumption
    | with_reducible first | refine ite_kept ?_ ?_ | refine foldl_kept _ _ ?_ ?_ | refine foldl_kept2 _ _ ?_ ?_ | refine foldl_kept22 _ _ ?_ ?_ | refine foldl_kept222 _ _ ?_ ?_
    | intro _
    | simp (maxDischargeDepth := 99) (maxSteps := 1000000) +contextual only [Module.setEng_kept, Module.adjustJob_kept, *]
    | with_reducible first | apply Module.setEng_kept | apply Module.adjustJob_kept | apply Module.abortTask_kept
    | split)

theorem Module.withdrawJob_kept (m : Module) (id : Nat) (hm : Memory.wf m.mem = true) :
    Memory.wf (Module.withdrawJob m id).mem = true := by
  unfold Module.withdrawJob
  repeat' (first
    | with_reducible assumption
    | with_reducible first | refine ite_kept ?_ ?_ | refine foldl_kept _ _ ?_ ?_ | refine foldl_kept2 _ _ ?_ ?_ | refine foldl_kept22 _ _ ?_ ?_ | refine foldl_kept222 _ _ ?_ ?_
    | intro _
    | simp (maxDischargeDepth := 99) (maxSteps := 1000000) +contextual only [Module.endJob_kept, Module.adjustJob_kept, Module.stopJob_kept, Module.settleJob_kept, *]
    | with_reducible first | apply Module.endJob_kept | apply Module.adjustJob_kept | apply Module.stopJob_kept | apply Module.settleJob_kept
    | split)

theorem withdrawStart_kept (tag : Word) (c : CmdRef) (m : Module) (hm : Memory.wf m.mem = true) :
    Memory.wf (withdrawStart tag c m).mem = true := by
  unfold withdrawStart
  repeat' (first
    | with_reducible assumption
    | with_reducible first | refine ite_kept ?_ ?_ | refine foldl_kept _ _ ?_ ?_ | refine foldl_kept2 _ _ ?_ ?_ | refine foldl_kept22 _ _ ?_ ?_ | refine foldl_kept222 _ _ ?_ ?_
    | intro _
    | simp (maxDischargeDepth := 99) (maxSteps := 1000000) +contextual only [Module.complete_kept, Module.withdrawJob_kept, *])

theorem withdraw_kept (h : CmdHdr) (jobTag : Word) (m : Module) (hm : Memory.wf m.mem = true) :
    Memory.wf (withdraw h jobTag m).mem = true := by
  unfold withdraw
  repeat' (first
    | with_reducible assumption
    | with_reducible first | refine ite_kept ?_ ?_ | refine foldl_kept _ _ ?_ ?_ | refine foldl_kept2 _ _ ?_ ?_ | refine foldl_kept22 _ _ ?_ ?_ | refine foldl_kept222 _ _ ?_ ?_
    | intro _
    | with_reducible apply Module.command_kept
    | simp (maxDischargeDepth := 99) (maxSteps := 1000000) +contextual only [withdrawStart_kept, *])

end Sys2Proof.Machine
end

