-- ==== Sys2Proof/Laws/Kept/Level.lean ====
section
/-!
SUPPORT. Every operation of Machine/Level.lean keeps the canonical form of memory.
-/
namespace Sys2Proof.Machine

theorem Module.setLevel_kept (m : Module) (source : Fin 4) (v : Nat) (hm : Memory.wf m.mem = true) :
    Memory.wf (Module.setLevel m source v).mem = true := by
  unfold Module.setLevel
  repeat' (first
    | with_reducible assumption
    | with_reducible first | refine ite_kept ?_ ?_ | refine foldl_kept _ _ ?_ ?_ | refine foldl_kept2 _ _ ?_ ?_ | refine foldl_kept22 _ _ ?_ ?_ | refine foldl_kept222 _ _ ?_ ?_
    | intro _
    | simp (maxDischargeDepth := 99) (maxSteps := 1000000) +contextual only [Module.setFld_kept, Module.journalEntry_kept, Module.raise_kept, *])

theorem Module.stopFill_kept (m : Module) (hm : Memory.wf m.mem = true) :
    Memory.wf (Module.stopFill m).mem = true := by
  unfold Module.stopFill
  repeat' (first
    | with_reducible assumption
    | with_reducible first | refine ite_kept ?_ ?_ | refine foldl_kept _ _ ?_ ?_ | refine foldl_kept2 _ _ ?_ ?_ | refine foldl_kept22 _ _ ?_ ?_ | refine foldl_kept222 _ _ ?_ ?_
    | intro _
    | simp (maxDischargeDepth := 99) (maxSteps := 1000000) +contextual only [Module.setFld_kept, Module.debugAnswer_kept, *]
    | with_reducible first | apply Module.setFld_kept | apply Module.debugAnswer_kept
    | split)

theorem Module.abortFills_kept (m : Module) (hm : Memory.wf m.mem = true) :
    Memory.wf (Module.abortFills m).mem = true := by
  unfold Module.abortFills
  repeat' (first
    | with_reducible assumption
    | with_reducible first | refine ite_kept ?_ ?_ | refine foldl_kept _ _ ?_ ?_ | refine foldl_kept2 _ _ ?_ ?_ | refine foldl_kept22 _ _ ?_ ?_ | refine foldl_kept222 _ _ ?_ ?_
    | intro _
    | simp (maxDischargeDepth := 99) (maxSteps := 1000000) +contextual only [Module.open__kept, Module.complete_kept, Module.setFills_kept, *])

theorem Module.fillWork_kept (m : Module) (hm : Memory.wf m.mem = true) :
    Memory.wf (Module.fillWork m).mem = true := by
  unfold Module.fillWork
  repeat' (first
    | with_reducible assumption
    | with_reducible first | refine ite_kept ?_ ?_ | refine foldl_kept _ _ ?_ ?_ | refine foldl_kept2 _ _ ?_ ?_ | refine foldl_kept22 _ _ ?_ ?_ | refine foldl_kept222 _ _ ?_ ?_
    | intro _
    | simp (maxDischargeDepth := 99) (maxSteps := 1000000) +contextual only [Module.withdrawJob_kept, Module.abortFills_kept, Module.abortAllDma_kept, Module.closeAllWindows_kept, Module.dropPackage_kept, implies_true, foldl_kept, *])

end Sys2Proof.Machine
end

