-- ==== Sys2Proof/Laws/Kept/Power.lean ====
section
/-!
SUPPORT. Every operation of Machine/Power.lean keeps the canonical form of memory.
-/
namespace Sys2Proof.Machine

theorem Module.dropOff_kept (m : Module) (hm : Memory.wf m.mem = true) :
    Memory.wf (Module.dropOff m).mem = true := by
  unfold Module.dropOff
  repeat' (first
    | with_reducible assumption)

theorem Module.feOff_kept (m : Module) (half : Nat) (hm : Memory.wf m.mem = true) :
    Memory.wf (Module.feOff m half).mem = true := by
  unfold Module.feOff
  repeat' (first
    | with_reducible assumption
    | with_reducible first | refine ite_kept ?_ ?_ | refine foldl_kept _ _ ?_ ?_ | refine foldl_kept2 _ _ ?_ ?_ | refine foldl_kept22 _ _ ?_ ?_ | refine foldl_kept222 _ _ ?_ ?_
    | intro _
    | simp (maxDischargeDepth := 99) (maxSteps := 1000000) +contextual only [Module.disablePort_kept, Module.setPort_kept, Module.setCtx_kept, Module.setCal_kept, Module.setFld_kept, Module.reportStored_kept, *])

theorem Module.requeue_kept (m : Module) (e : EngPos) (hm : Memory.wf m.mem = true) :
    Memory.wf (Module.requeue m e).mem = true := by
  unfold Module.requeue
  repeat' (first
    | with_reducible assumption
    | with_reducible first | refine ite_kept ?_ ?_ | refine foldl_kept _ _ ?_ ?_ | refine foldl_kept2 _ _ ?_ ?_ | refine foldl_kept22 _ _ ?_ ?_ | refine foldl_kept222 _ _ ?_ ?_
    | intro _
    | simp (maxDischargeDepth := 99) (maxSteps := 1000000) +contextual only [Module.adjustJob_kept, Module.settleJob_kept, *]
    | with_reducible first | apply Module.adjustJob_kept | apply Module.settleJob_kept
    | split)

theorem Module.engOff_kept (m : Module) (eng : Nat) (hm : Memory.wf m.mem = true) :
    Memory.wf (Module.engOff m eng).mem = true := by
  unfold Module.engOff
  repeat' (first
    | with_reducible assumption
    | with_reducible first | refine ite_kept ?_ ?_ | refine foldl_kept _ _ ?_ ?_ | refine foldl_kept2 _ _ ?_ ?_ | refine foldl_kept22 _ _ ?_ ?_ | refine foldl_kept222 _ _ ?_ ?_
    | intro _
    | simp (maxDischargeDepth := 99) (maxSteps := 1000000) +contextual only [Module.requeue_kept, Module.setEng_kept, *])

theorem Module.loseSpm_kept (m : Module) (hm : Memory.wf m.mem = true) :
    Memory.wf (Module.loseSpm m).mem = true := by
  unfold Module.loseSpm
  repeat' (first
    | with_reducible assumption
    | with_reducible first | refine ite_kept ?_ ?_ | refine foldl_kept _ _ ?_ ?_ | refine foldl_kept2 _ _ ?_ ?_ | refine foldl_kept22 _ _ ?_ ?_ | refine foldl_kept222 _ _ ?_ ?_
    | intro _
    | simp (maxDischargeDepth := 99) (maxSteps := 1000000) +contextual only [Module.dropPackage_kept, implies_true, Memory.wf_filter, foldl_kept, *])

theorem Module.switchTo_kept (m : Module) (st : Nat) (hm : Memory.wf m.mem = true) :
    Memory.wf (Module.switchTo m st).mem = true := by
  unfold Module.switchTo
  repeat' (first
    | with_reducible assumption
    | with_reducible first | refine ite_kept ?_ ?_ | refine foldl_kept _ _ ?_ ?_ | refine foldl_kept2 _ _ ?_ ?_ | refine foldl_kept22 _ _ ?_ ?_ | refine foldl_kept222 _ _ ?_ ?_
    | intro _
    | simp (maxDischargeDepth := 99) (maxSteps := 1000000) +contextual only [Module.feOff_kept, Module.engOff_kept, Module.loseSpm_kept, Module.setFld_kept, Module.dropOff_kept, Module.testSpares_kept, implies_true, ite_kept, foldl_kept, *])

theorem Module.announce_kept (m : Module) (hm : Memory.wf m.mem = true) :
    Memory.wf (Module.announce m).mem = true := by
  unfold Module.announce
  repeat' (first
    | with_reducible assumption
    | with_reducible first | refine ite_kept ?_ ?_ | refine foldl_kept _ _ ?_ ?_ | refine foldl_kept2 _ _ ?_ ?_ | refine foldl_kept22 _ _ ?_ ?_ | refine foldl_kept222 _ _ ?_ ?_
    | intro _
    | simp (maxDischargeDepth := 99) (maxSteps := 1000000) +contextual only [Module.fault_kept, Module.raise_kept, *]
    | with_reducible first | apply Module.fault_kept | apply Module.raise_kept
    | split)

theorem Module.beginLeave_kept (m : Module) (target : Nat) (cause : PowerCause) (hm : Memory.wf m.mem = true) :
    Memory.wf (Module.beginLeave m target cause).mem = true := by
  unfold Module.beginLeave
  repeat' (first
    | with_reducible assumption
    | with_reducible first | refine ite_kept ?_ ?_ | refine foldl_kept _ _ ?_ ?_ | refine foldl_kept2 _ _ ?_ ?_ | refine foldl_kept22 _ _ ?_ ?_ | refine foldl_kept222 _ _ ?_ ?_
    | intro _
    | simp (maxDischargeDepth := 99) (maxSteps := 1000000) +contextual only [Module.stopModeChange_kept, Module.stopFill_kept, Module.startMove_kept, *])

theorem Module.leave_kept (m : Module) (target : Nat) (cause : PowerCause) (hm : Memory.wf m.mem = true) :
    Memory.wf (Module.leave m target cause).mem = true := by
  unfold Module.leave
  repeat' (first
    | with_reducible assumption
    | with_reducible first | refine ite_kept ?_ ?_ | refine foldl_kept _ _ ?_ ?_ | refine foldl_kept2 _ _ ?_ ?_ | refine foldl_kept22 _ _ ?_ ?_ | refine foldl_kept222 _ _ ?_ ?_
    | intro _
    | simp (maxDischargeDepth := 99) (maxSteps := 1000000) +contextual only [Module.beginLeave_kept, Module.beginRelease_kept, Module.announce_kept, implies_true, ite_kept, foldl_kept, *])

theorem Module.powerRequest_kept (m : Module) (target : Nat) (hm : Memory.wf m.mem = true) :
    Memory.wf (Module.powerRequest m target).2.mem = true := by
  unfold Module.powerRequest
  repeat' (first
    | with_reducible assumption
    | with_reducible first | refine ite_kept ?_ ?_ | refine foldl_kept _ _ ?_ ?_ | refine foldl_kept2 _ _ ?_ ?_ | refine foldl_kept22 _ _ ?_ ?_ | refine foldl_kept222 _ _ ?_ ?_
    | intro _
    | simp (maxDischargeDepth := 99) (maxSteps := 1000000) +contextual only [Module.startMove_kept, Module.beginLeave_kept, *]
    | with_reducible first | apply Module.startMove_kept | apply Module.request_kept | apply Module.beginLeave_kept
    | split)

theorem Module.closeLinks_kept (m : Module) (hm : Memory.wf m.mem = true) :
    Memory.wf (Module.closeLinks m).mem = true := by
  unfold Module.closeLinks
  repeat' (first
    | with_reducible assumption
    | with_reducible first | refine ite_kept ?_ ?_ | refine foldl_kept _ _ ?_ ?_ | refine foldl_kept2 _ _ ?_ ?_ | refine foldl_kept22 _ _ ?_ ?_ | refine foldl_kept222 _ _ ?_ ?_
    | intro _
    | simp (maxDischargeDepth := 99) (maxSteps := 1000000) +contextual only [Module.endAllSessions_kept, Module.closeAllWindows_kept, Module.reportBinding_kept, *])

theorem Module.loseCtl_kept (m : Module) (hm : Memory.wf m.mem = true) :
    Memory.wf (Module.loseCtl m).mem = true := by
  unfold Module.loseCtl
  repeat' (first
    | with_reducible assumption
    | with_reducible first | refine ite_kept ?_ ?_ | refine foldl_kept _ _ ?_ ?_ | refine foldl_kept2 _ _ ?_ ?_ | refine foldl_kept22 _ _ ?_ ?_ | refine foldl_kept222 _ _ ?_ ?_
    | intro _
    | simp (maxDischargeDepth := 99) (maxSteps := 1000000) +contextual only [Module.tornStores_kept, Module.setJobs_kept, Module.reportPlanned_kept, *])

theorem Module.dropNonce_kept (m : Module) (hm : Memory.wf m.mem = true) :
    Memory.wf (Module.dropNonce m).mem = true := by
  unfold Module.dropNonce
  repeat' (first
    | with_reducible assumption
    | with_reducible first | refine ite_kept ?_ ?_ | refine foldl_kept _ _ ?_ ?_ | refine foldl_kept2 _ _ ?_ ?_ | refine foldl_kept22 _ _ ?_ ?_ | refine foldl_kept222 _ _ ?_ ?_
    | intro _
    | simp (maxDischargeDepth := 99) (maxSteps := 1000000) +contextual only [Module.setFld_kept, *])

theorem Module.goOff_kept (m : Module) (cause : Nat) (held : Bool) (hm : Memory.wf m.mem = true) :
    Memory.wf (Module.goOff m cause held).mem = true := by
  unfold Module.goOff
  repeat' (first
    | with_reducible assumption
    | with_reducible first | refine ite_kept ?_ ?_ | refine foldl_kept _ _ ?_ ?_ | refine foldl_kept2 _ _ ?_ ?_ | refine foldl_kept22 _ _ ?_ ?_ | refine foldl_kept222 _ _ ?_ ?_
    | intro _
    | simp (maxDischargeDepth := 99) (maxSteps := 1000000) +contextual only [reset_kept, *]
    | with_reducible first | apply Module.tornStores_kept | apply Module.pick_kept | apply Module.wr_kept | apply Module.setFld_kept)

theorem Module.beginWake_kept (m : Module) (hm : Memory.wf m.mem = true) :
    Memory.wf (Module.beginWake m).mem = true := by
  unfold Module.beginWake
  repeat' (first
    | with_reducible assumption
    | with_reducible first | refine ite_kept ?_ ?_ | refine foldl_kept _ _ ?_ ?_ | refine foldl_kept2 _ _ ?_ ?_ | refine foldl_kept22 _ _ ?_ ?_ | refine foldl_kept222 _ _ ?_ ?_
    | intro _
    | simp (maxDischargeDepth := 99) (maxSteps := 1000000) +contextual only [Module.startMove_kept, Module.setFld_kept, *])

theorem Module.standbyLevel_kept (m : Module) (hm : Memory.wf m.mem = true) :
    Memory.wf (Module.standbyLevel m).mem = true := by
  unfold Module.standbyLevel
  repeat' (first
    | with_reducible assumption
    | with_reducible first | refine ite_kept ?_ ?_ | refine foldl_kept _ _ ?_ ?_ | refine foldl_kept2 _ _ ?_ ?_ | refine foldl_kept22 _ _ ?_ ?_ | refine foldl_kept222 _ _ ?_ ?_
    | intro _
    | simp (maxDischargeDepth := 99) (maxSteps := 1000000) +contextual only [Module.pick_kept, Module.setLevel_kept, *])

theorem Module.enterStandby_kept (m : Module) (t : Transition) (hm : Memory.wf m.mem = true) :
    Memory.wf (Module.enterStandby m t).mem = true := by
  unfold Module.enterStandby
  have h1 := Module.standbyLevel_kept _ (Module.dropNonce_kept _ (Module.closeLinks_kept _ hm))
  have h2 := Module.setFld_kept _ PWR_STATE PWR_STATE_state 1 (Module.switchTo_kept _ 1 (Module.loseCtl_kept _ h1))
  have h3 : ∀ y : Module, Memory.wf y.mem = true → Memory.wf { y with boot := BootPhase.ready }.mem = true := fun _ h => h
  have h4 : ∀ (y : Module) (v : Nat), Memory.wf y.mem = true →
      Memory.wf ((y.setFld PWR_CAUSE PWR_CAUSE_standby_cause v).count PWR_CNT_STANDBY 1).mem = true :=
    fun y v h => Module.count_kept _ _ _ (Module.setFld_kept _ _ _ _ h)
  have h5 : ∀ (y : Module) (b : Bool), Memory.wf y.mem = true →
      Memory.wf (if t.thenWake = true then
        ({ y with transition := none, idleSamples := 0, tripped := b } : Module).beginWake
        else { y with transition := none, idleSamples := 0, tripped := b }).mem = true :=
    fun y b h => ite_kept (Module.beginWake_kept _ h) h
  exact h5 _ _ (h4 _ _ (h3 _ h2))


theorem Module.arrive_kept (m : Module) (t : Transition) (hm : Memory.wf m.mem = true) :
    Memory.wf (Module.arrive m t).mem = true := by
  unfold Module.arrive
  repeat' (first
    | with_reducible assumption
    | with_reducible first | refine ite_kept ?_ ?_ | refine foldl_kept _ _ ?_ ?_ | refine foldl_kept2 _ _ ?_ ?_ | refine foldl_kept22 _ _ ?_ ?_ | refine foldl_kept222 _ _ ?_ ?_
    | intro _
    | simp (maxDischargeDepth := 99) (maxSteps := 1000000) +contextual only [Module.switchTo_kept, Module.setFld_kept, Module.reportRegions_kept, Module.raise_kept, Module.startMove_kept, ite_kept, *])

theorem Module.reportKeys_kept (m : Module) (hm : Memory.wf m.mem = true) :
    Memory.wf (Module.reportKeys m).mem = true := by
  unfold Module.reportKeys
  repeat' (first
    | with_reducible assumption
    | with_reducible first | refine ite_kept ?_ ?_ | refine foldl_kept _ _ ?_ ?_ | refine foldl_kept2 _ _ ?_ ?_ | refine foldl_kept22 _ _ ?_ ?_ | refine foldl_kept222 _ _ ?_ ?_
    | intro _
    | simp (maxDischargeDepth := 99) (maxSteps := 1000000) +contextual only [Module.setFld_kept, *])

theorem Module.holdBackoff_kept (m : Module) (n : Nat) (hm : Memory.wf m.mem = true) :
    Memory.wf (Module.holdBackoff m n).mem = true := by
  unfold Module.holdBackoff
  repeat' (first
    | with_reducible assumption
    | with_reducible refine ite_kept ?_ ?_)

theorem Module.readOtp_kept (m : Module) (hm : Memory.wf m.mem = true) :
    Memory.wf (Module.readOtp m).mem = true := by
  unfold Module.readOtp
  repeat' (first
    | with_reducible assumption
    | with_reducible first | refine ite_kept ?_ ?_ | refine foldl_kept _ _ ?_ ?_ | refine foldl_kept2 _ _ ?_ ?_ | refine foldl_kept22 _ _ ?_ ?_ | refine foldl_kept222 _ _ ?_ ?_
    | intro _
    | simp (maxDischargeDepth := 99) (maxSteps := 1000000) +contextual only [Module.reportKeys_kept, Module.setFld_kept, Module.wr_kept, Module.pick_kept, Module.holdBackoff_kept, implies_true, foldl_kept, *])

theorem Module.restart_kept (m : Module) (cause : Nat) (byDebug : Bool) (hm : Memory.wf m.mem = true) :
    Memory.wf (Module.restart m cause byDebug).mem = true := by
  unfold Module.restart
  have h1 := Module.pick_kept m (m.flogPending.length + 1) hm
  generalize m.pick (m.flogPending.length + 1) = r at h1 ⊢
  obtain ⟨k, x⟩ := r
  have w := @Module.wr_kept
  have f := @Module.setFld_kept
  refine Module.readOtp_kept _ (f _ _ _ _ (f _ _ _ _ (ite_kept (f _ _ _ _ ?_) ?_))) <;>
    exact f _ _ _ _ (f _ _ _ _ (f _ _ _ _ (f _ _ _ _ (w _ _ _ (w _ _ _ (w _ _ _ (w _ _ _ (w _ _ _ rfl))))))))

theorem powerTransitionDone_kept (m : Module) (hm : Memory.wf m.mem = true) :
    Memory.wf (powerTransitionDone m).mem = true := by
  unfold powerTransitionDone
  repeat' (first
    | with_reducible assumption
    | with_reducible first | refine ite_kept ?_ ?_ | refine foldl_kept _ _ ?_ ?_ | refine foldl_kept2 _ _ ?_ ?_ | refine foldl_kept22 _ _ ?_ ?_ | refine foldl_kept222 _ _ ?_ ?_
    | intro _
    | simp (maxDischargeDepth := 99) (maxSteps := 1000000) +contextual only [Module.arrive_kept, Module.announce_kept, Module.enterStandby_kept, Module.closeLinks_kept, Module.restart_kept, Module.goOff_kept, *]
    | with_reducible first | apply Module.arrive_kept | apply Module.announce_kept | apply Module.enterStandby_kept | apply Module.closeLinks_kept | apply Module.restart_kept | apply Module.goOff_kept
    | split)

theorem Module.cutStreams_kept (m : Module) (hm : Memory.wf m.mem = true) :
    Memory.wf (Module.cutStreams m).mem = true := by
  unfold Module.cutStreams
  repeat' (first
    | with_reducible assumption
    | with_reducible first | refine ite_kept ?_ ?_ | refine foldl_kept _ _ ?_ ?_ | refine foldl_kept2 _ _ ?_ ?_ | refine foldl_kept22 _ _ ?_ ?_ | refine foldl_kept222 _ _ ?_ ?_
    | intro _
    | simp (maxDischargeDepth := 99) (maxSteps := 1000000) +contextual only [Module.setPort_kept, Module.setCtx_kept, Module.setPortState_kept, Module.wr_kept, *])

theorem standbyDrainTimeout_kept (m : Module) (hm : Memory.wf m.mem = true) :
    Memory.wf (standbyDrainTimeout m).mem = true := by
  unfold standbyDrainTimeout
  repeat' (first
    | with_reducible assumption
    | with_reducible first | refine ite_kept ?_ ?_ | refine foldl_kept _ _ ?_ ?_ | refine foldl_kept2 _ _ ?_ ?_ | refine foldl_kept22 _ _ ?_ ?_ | refine foldl_kept222 _ _ ?_ ?_
    | intro _
    | simp (maxDischargeDepth := 99) (maxSteps := 1000000) +contextual only [Module.cutStreams_kept, Module.stopJob_kept, Module.abortAllDma_kept, implies_true, foldl_kept, *]
    | with_reducible first | apply Module.cutStreams_kept | apply Module.stopJob_kept | apply Module.abortAllDma_kept
    | split)

theorem releaseComplete_kept (c : PortId) (m : Module) (hm : Memory.wf m.mem = true) :
    Memory.wf (releaseComplete c m).mem = true := by
  unfold releaseComplete
  repeat' (first
    | with_reducible assumption
    | with_reducible first | refine ite_kept ?_ ?_ | refine foldl_kept _ _ ?_ ?_ | refine foldl_kept2 _ _ ?_ ?_ | refine foldl_kept22 _ _ ?_ ?_ | refine foldl_kept222 _ _ ?_ ?_
    | intro _
    | with_reducible apply Module.firmware_kept
    | simp (maxDischargeDepth := 99) (maxSteps := 1000000) +contextual only [Module.endRelease_kept, Module.announce_kept, Module.fillWork_kept, *]
    | with_reducible first | apply Module.firmware_kept | apply Module.endRelease_kept | apply Module.announce_kept | apply Module.fillWork_kept
    | split)

theorem wake_kept (h : Hdr) (payload : List Byte) (m : Module) (hm : Memory.wf m.mem = true) :
    Memory.wf (wake h payload m).mem = true := by
  unfold wake
  repeat' (first
    | with_reducible assumption
    | with_reducible first | refine ite_kept ?_ ?_ | refine foldl_kept _ _ ?_ ?_ | refine foldl_kept2 _ _ ?_ ?_ | refine foldl_kept22 _ _ ?_ ?_ | refine foldl_kept222 _ _ ?_ ?_
    | intro _
    | simp (maxDischargeDepth := 99) (maxSteps := 1000000) +contextual only [Module.popRx_kept, Module.answer_kept, Module.answerNotReady_kept, Module.notReadyAnswer_kept, Module.beginWake_kept, *]
    | with_reducible first | apply Module.popRx_kept | apply Module.answer_kept | apply Module.answerNotReady_kept | apply Module.notReadyAnswer_kept | apply Module.beginWake_kept
    | split)

theorem Module.blowFuses_kept (m : Module) (hm : Memory.wf m.mem = true) :
    Memory.wf (Module.blowFuses m).mem = true := by
  unfold Module.blowFuses
  repeat' (first
    | with_reducible assumption
    | with_reducible first | refine ite_kept ?_ ?_ | refine foldl_kept _ _ ?_ ?_ | refine foldl_kept2 _ _ ?_ ?_ | refine foldl_kept22 _ _ ?_ ?_ | refine foldl_kept222 _ _ ?_ ?_
    | intro _
    | simp (maxDischargeDepth := 99) (maxSteps := 1000000) +contextual only [Module.setFld_kept, *])

theorem wakeReady_kept (m : Module) (hm : Memory.wf m.mem = true) :
    Memory.wf (wakeReady m).mem = true := by
  unfold wakeReady
  split
  · exact hm
  · have h1 := Module.draw_kept m hm
    revert h1
    generalize m.draw = r
    intro h1
    obtain ⟨e, x⟩ := r
    dsimp only at h1
    simp only
    exact Module.setFld_kept _ _ _ _ (Module.blowFuses_kept _ (Module.setFld_kept _ _ _ _ (Module.switchTo_kept _ _ h1)))


theorem Module.setSupply_kept (m : Module) (v : Nat) (hm : Memory.wf m.mem = true) :
    Memory.wf (Module.setSupply m v).mem = true := by
  unfold Module.setSupply
  repeat' (first
    | with_reducible assumption
    | with_reducible first | refine ite_kept ?_ ?_ | refine foldl_kept _ _ ?_ ?_ | refine foldl_kept2 _ _ ?_ ?_ | refine foldl_kept22 _ _ ?_ ?_ | refine foldl_kept222 _ _ ?_ ?_
    | intro _
    | simp (maxDischargeDepth := 99) (maxSteps := 1000000) +contextual only [Module.setFld_kept, *])

theorem Module.supplyEnter_kept (m : Module) (v : Nat) (mv : Nat) (hm : Memory.wf m.mem = true) :
    Memory.wf (Module.supplyEnter m v mv).mem = true := by
  unfold Module.supplyEnter
  repeat' (first
    | with_reducible assumption
    | with_reducible first | refine ite_kept ?_ ?_ | refine foldl_kept _ _ ?_ ?_ | refine foldl_kept2 _ _ ?_ ?_ | refine foldl_kept22 _ _ ?_ ?_ | refine foldl_kept222 _ _ ?_ ?_
    | intro _
    | simp (maxDischargeDepth := 99) (maxSteps := 1000000) +contextual only [Module.setSupply_kept, Module.fault_kept, *])

theorem supplyLowEnter_kept (mv : Nat) (m : Module) (hm : Memory.wf m.mem = true) :
    Memory.wf (supplyLowEnter mv m).mem = true := by
  unfold supplyLowEnter
  repeat' (first
    | with_reducible assumption
    | with_reducible first | refine ite_kept ?_ ?_ | refine foldl_kept _ _ ?_ ?_ | refine foldl_kept2 _ _ ?_ ?_ | refine foldl_kept22 _ _ ?_ ?_ | refine foldl_kept222 _ _ ?_ ?_
    | intro _
    | simp (maxDischargeDepth := 99) (maxSteps := 1000000) +contextual only [Module.supplyEnter_kept, *])

theorem supplyHighEnter_kept (mv : Nat) (m : Module) (hm : Memory.wf m.mem = true) :
    Memory.wf (supplyHighEnter mv m).mem = true := by
  unfold supplyHighEnter
  repeat' (first
    | with_reducible assumption
    | with_reducible first | refine ite_kept ?_ ?_ | refine foldl_kept _ _ ?_ ?_ | refine foldl_kept2 _ _ ?_ ?_ | refine foldl_kept22 _ _ ?_ ?_ | refine foldl_kept222 _ _ ?_ ?_
    | intro _
    | simp (maxDischargeDepth := 99) (maxSteps := 1000000) +contextual only [Module.supplyEnter_kept, *])

theorem supplyNormal_kept (mv : Nat) (m : Module) (hm : Memory.wf m.mem = true) :
    Memory.wf (supplyNormal mv m).mem = true := by
  unfold supplyNormal
  repeat' (first
    | with_reducible assumption
    | with_reducible first | refine ite_kept ?_ ?_ | refine foldl_kept _ _ ?_ ?_ | refine foldl_kept2 _ _ ?_ ?_ | refine foldl_kept22 _ _ ?_ ?_ | refine foldl_kept222 _ _ ?_ ?_
    | intro _
    | simp (maxDischargeDepth := 99) (maxSteps := 1000000) +contextual only [Module.setSupply_kept, *])

theorem highVoltageTimeout_kept (mv : Nat) (m : Module) (hm : Memory.wf m.mem = true) :
    Memory.wf (highVoltageTimeout mv m).mem = true := by
  unfold highVoltageTimeout
  repeat' (first
    | with_reducible assumption
    | with_reducible first | refine ite_kept ?_ ?_ | refine foldl_kept _ _ ?_ ?_ | refine foldl_kept2 _ _ ?_ ?_ | refine foldl_kept22 _ _ ?_ ?_ | refine foldl_kept222 _ _ ?_ ?_
    | intro _
    | simp (maxDischargeDepth := 99) (maxSteps := 1000000) +contextual only [Module.supplyEnter_kept, *])

theorem holdupEnter_kept (mv : Nat) (m : Module) (hm : Memory.wf m.mem = true) :
    Memory.wf (holdupEnter mv m).mem = true := by
  unfold holdupEnter
  repeat' (first
    | with_reducible assumption
    | with_reducible first | refine ite_kept ?_ ?_ | refine foldl_kept _ _ ?_ ?_ | refine foldl_kept2 _ _ ?_ ?_ | refine foldl_kept22 _ _ ?_ ?_ | refine foldl_kept222 _ _ ?_ ?_
    | intro _
    | simp (maxDischargeDepth := 99) (maxSteps := 1000000) +contextual only [Module.supplyEnter_kept, *])

theorem holdupReconnect_kept (mv : Nat) (m : Module) (hm : Memory.wf m.mem = true) :
    Memory.wf (holdupReconnect mv m).mem = true := by
  unfold holdupReconnect
  repeat' (first
    | with_reducible assumption
    | with_reducible first | refine ite_kept ?_ ?_ | refine foldl_kept _ _ ?_ ?_ | refine foldl_kept2 _ _ ?_ ?_ | refine foldl_kept22 _ _ ?_ ?_ | refine foldl_kept222 _ _ ?_ ?_
    | intro _
    | simp (maxDischargeDepth := 99) (maxSteps := 1000000) +contextual only [Module.count_kept, Module.supplyEnter_kept, Module.setSupply_kept, *])

theorem brownOut_kept (m : Module) (hm : Memory.wf m.mem = true) :
    Memory.wf (brownOut m).mem = true := by
  unfold brownOut
  repeat' (first
    | with_reducible assumption
    | with_reducible first | refine ite_kept ?_ ?_ | refine foldl_kept _ _ ?_ ?_ | refine foldl_kept2 _ _ ?_ ?_ | refine foldl_kept22 _ _ ?_ ?_ | refine foldl_kept222 _ _ ?_ ?_
    | intro _
    | simp (maxDischargeDepth := 99) (maxSteps := 1000000) +contextual only [Module.silentFault_kept, Module.goOff_kept, *])

theorem supplyLost_kept (m : Module) (hm : Memory.wf m.mem = true) :
    Memory.wf (supplyLost m).mem = true := by
  unfold supplyLost
  repeat' (first
    | with_reducible assumption
    | with_reducible first | refine ite_kept ?_ ?_ | refine foldl_kept _ _ ?_ ?_ | refine foldl_kept2 _ _ ?_ ?_ | refine foldl_kept22 _ _ ?_ ?_ | refine foldl_kept222 _ _ ?_ ?_
    | intro _
    | simp (maxDischargeDepth := 99) (maxSteps := 1000000) +contextual only [Module.setFld_kept, *])

theorem enOff_kept (m : Module) (hm : Memory.wf m.mem = true) :
    Memory.wf (enOff m).mem = true := by
  unfold enOff
  repeat' (first
    | with_reducible assumption
    | with_reducible first | refine ite_kept ?_ ?_ | refine foldl_kept _ _ ?_ ?_ | refine foldl_kept2 _ _ ?_ ?_ | refine foldl_kept22 _ _ ?_ ?_ | refine foldl_kept222 _ _ ?_ ?_
    | intro _
    | simp (maxDischargeDepth := 99) (maxSteps := 1000000) +contextual only [Module.setFld_kept, Module.leave_kept, *])

theorem autoIdleSample_kept (m : Module) (hm : Memory.wf m.mem = true) :
    Memory.wf (autoIdleSample m).mem = true := by
  unfold autoIdleSample
  repeat' (first
    | with_reducible assumption
    | with_reducible first | refine ite_kept ?_ ?_ | refine foldl_kept _ _ ?_ ?_ | refine foldl_kept2 _ _ ?_ ?_ | refine foldl_kept22 _ _ ?_ ?_ | refine foldl_kept222 _ _ ?_ ?_
    | intro _
    | simp (maxDischargeDepth := 99) (maxSteps := 1000000) +contextual only [Module.startMove_kept, *])

theorem powerSample_kept (mv : Nat) (ma : Nat) (rails : Word) (m : Module) (hm : Memory.wf m.mem = true) :
    Memory.wf (powerSample mv ma rails m).mem = true := by
  unfold powerSample
  repeat' (first
    | with_reducible assumption
    | with_reducible first | refine ite_kept ?_ ?_ | refine foldl_kept _ _ ?_ ?_ | refine foldl_kept2 _ _ ?_ ?_ | refine foldl_kept22 _ _ ?_ ?_ | refine foldl_kept222 _ _ ?_ ?_
    | intro _
    | simp (maxDischargeDepth := 99) (maxSteps := 1000000) +contextual only [Module.setFld_kept, Module.wr_kept, *])

theorem Module.thermRead_kept (m : Module) (hm : Memory.wf m.mem = true) :
    Memory.wf (Module.thermRead m).2.mem = true := by
  unfold Module.thermRead
  repeat' (first
    | with_reducible assumption)

theorem Module.voltRead_kept (m : Module) (hm : Memory.wf m.mem = true) :
    Memory.wf (Module.voltRead m).2.2.mem = true := by
  unfold Module.voltRead
  repeat' (first
    | with_reducible assumption)

theorem Module.dieReport_kept (m : Module) (t : List Int) (hm : Memory.wf m.mem = true) :
    Memory.wf (Module.dieReport m t).mem = true := by
  unfold Module.dieReport
  repeat' (first
    | with_reducible assumption
    | with_reducible first | refine ite_kept ?_ ?_ | refine foldl_kept _ _ ?_ ?_ | refine foldl_kept2 _ _ ?_ ?_ | refine foldl_kept22 _ _ ?_ ?_ | refine foldl_kept222 _ _ ?_ ?_
    | intro _
    | simp (maxDischargeDepth := 99) (maxSteps := 1000000) +contextual only [Module.setFld_kept, *]
    | with_reducible apply Module.setFld_kept
    | split)

theorem Module.dieSample_kept (m : Module) (hm : Memory.wf m.mem = true) :
    Memory.wf (Module.dieSample m).mem = true := by
  unfold Module.dieSample
  repeat' (first
    | with_reducible assumption
    | with_reducible first | refine ite_kept ?_ ?_ | refine foldl_kept _ _ ?_ ?_ | refine foldl_kept2 _ _ ?_ ?_ | refine foldl_kept22 _ _ ?_ ?_ | refine foldl_kept222 _ _ ?_ ?_
    | intro _
    | simp (maxDischargeDepth := 99) (maxSteps := 1000000) +contextual only [Module.thermRead_kept, Module.dieReport_kept, *])

theorem coldPlateSample_kept (bp0 : Int) (bp1 : Int) (m : Module) (hm : Memory.wf m.mem = true) :
    Memory.wf (coldPlateSample bp0 bp1 m).mem = true := by
  unfold coldPlateSample
  repeat' (first
    | with_reducible assumption
    | with_reducible first | refine ite_kept ?_ ?_ | refine foldl_kept _ _ ?_ ?_ | refine foldl_kept2 _ _ ?_ ?_ | refine foldl_kept22 _ _ ?_ ?_ | refine foldl_kept222 _ _ ?_ ?_
    | intro _
    | simp (maxDischargeDepth := 99) (maxSteps := 1000000) +contextual only [Module.dieSample_kept, Module.setFld_kept, Module.fault_kept, Module.checkRisk_kept, implies_true, foldl_kept, *])

theorem tempSensorCheck_kept (bp0 : Option Int) (bp1 : Option Int) (m : Module) (hm : Memory.wf m.mem = true) :
    Memory.wf (tempSensorCheck bp0 bp1 m).mem = true := by
  unfold tempSensorCheck
  repeat' (first
    | with_reducible assumption
    | with_reducible first | refine ite_kept ?_ ?_ | refine foldl_kept _ _ ?_ ?_ | refine foldl_kept2 _ _ ?_ ?_ | refine foldl_kept22 _ _ ?_ ?_ | refine foldl_kept222 _ _ ?_ ?_
    | intro _
    | simp (maxDischargeDepth := 99) (maxSteps := 1000000) +contextual only [Module.setFld_kept, Module.open__kept, Module.fault_kept, Module.updateCap_kept, ite_kept, *])

theorem thermalTrip_kept (m : Module) (hm : Memory.wf m.mem = true) :
    Memory.wf (thermalTrip m).mem = true := by
  unfold thermalTrip
  repeat' (first
    | with_reducible assumption
    | with_reducible first | refine ite_kept ?_ ?_ | refine foldl_kept _ _ ?_ ?_ | refine foldl_kept2 _ _ ?_ ?_ | refine foldl_kept22 _ _ ?_ ?_ | refine foldl_kept222 _ _ ?_ ?_
    | intro _
    | simp (maxDischargeDepth := 99) (maxSteps := 1000000) +contextual only [Module.count_kept, Module.silentFault_kept, Module.setFld_kept, Module.leave_kept, *]
    | with_reducible first | apply Module.count_kept | apply Module.silentFault_kept | apply Module.setFld_kept | apply Module.leave_kept
    | split)

theorem hardThermalTrip_kept (m : Module) (hm : Memory.wf m.mem = true) :
    Memory.wf (hardThermalTrip m).mem = true := by
  unfold hardThermalTrip
  repeat' (first
    | with_reducible assumption
    | with_reducible first | refine ite_kept ?_ ?_ | refine foldl_kept _ _ ?_ ?_ | refine foldl_kept2 _ _ ?_ ?_ | refine foldl_kept22 _ _ ?_ ?_ | refine foldl_kept222 _ _ ?_ ?_
    | intro _
    | simp (maxDischargeDepth := 99) (maxSteps := 1000000) +contextual only [Module.silentFault_kept, Module.goOff_kept, *])

end Sys2Proof.Machine
end

