-- ==== Sys2Proof/Laws/Kept/Security.lean ====
section
/-!
SUPPORT. Every operation of Machine/Security.lean keeps the canonical form of memory.
-/
namespace Sys2Proof.Machine

theorem Module.debugNotReady_kept (m : Module) (d : DbgHdr) (op : Nat) (hm : Memory.wf m.mem = true) :
    Memory.wf (Module.debugNotReady m d op).mem = true := by
  unfold Module.debugNotReady
  repeat' (first
    | with_reducible assumption
    | with_reducible first | refine ite_kept ?_ ?_ | refine foldl_kept _ _ ?_ ?_ | refine foldl_kept2 _ _ ?_ ?_ | refine foldl_kept22 _ _ ?_ ?_ | refine foldl_kept222 _ _ ?_ ?_
    | intro _
    | (rename_i heq; have hq := congrArg (fun z => z.2.2) heq; dsimp only at hq; subst hq; clear heq)
    | (rename_i heq; have hq := congrArg Prod.snd heq; dsimp only at hq; subst hq; clear heq)
    | simp (maxDischargeDepth := 99) (maxSteps := 1000000) +contextual only [Module.estimate_kept, Module.debugAnswer_kept, Module.limited_kept, *]
    | with_reducible first | apply Module.estimate_kept | apply Module.debugAnswer_kept | apply Module.limited_kept
    | split)

theorem Module.debugOp_kept (m : Module) (d : DbgHdr) (op : Nat) (need : Nat) (standby : Bool) (failure : Bool) (k : Module → Module) (hm : Memory.wf m.mem = true) (hk : ∀ (x0 : Module), Memory.wf x0.mem = true → Memory.wf (k x0).mem = true) :
    Memory.wf (Module.debugOp m d op need standby failure k).mem = true := by
  unfold Module.debugOp
  repeat' (first
    | with_reducible assumption
    | with_reducible first | refine ite_kept ?_ ?_ | refine foldl_kept _ _ ?_ ?_ | refine foldl_kept2 _ _ ?_ ?_ | refine foldl_kept22 _ _ ?_ ?_ | refine foldl_kept222 _ _ ?_ ?_
    | intro _
    | simp (maxDischargeDepth := 99) (maxSteps := 1000000) +contextual only [Module.debugNotReady_kept, Module.debugAnswer_kept, *])

theorem status_kept (d : DbgHdr) (m : Module) (hm : Memory.wf m.mem = true) :
    Memory.wf (status d m).mem = true := by
  unfold status
  repeat' (first
    | with_reducible assumption
    | with_reducible first | refine ite_kept ?_ ?_ | refine foldl_kept _ _ ?_ ?_ | refine foldl_kept2 _ _ ?_ ?_ | refine foldl_kept22 _ _ ?_ ?_ | refine foldl_kept222 _ _ ?_ ?_
    | intro _
    | with_reducible apply Module.debugOp_kept
    | simp (maxDischargeDepth := 99) (maxSteps := 1000000) +contextual only [Module.tick_kept, Module.debugAnswer_kept, *])

theorem Module.storeBackoff_kept (m : Module) (n : Nat) (hm : Memory.wf m.mem = true) :
    Memory.wf (Module.storeBackoff m n).mem = true := by
  unfold Module.storeBackoff
  repeat' (first
    | with_reducible assumption
    | with_reducible first | refine ite_kept ?_ ?_ | refine foldl_kept _ _ ?_ ?_ | refine foldl_kept2 _ _ ?_ ?_ | refine foldl_kept22 _ _ ?_ ?_ | refine foldl_kept222 _ _ ?_ ?_
    | intro _
    | simp (maxDischargeDepth := 99) (maxSteps := 1000000) +contextual only [Module.storeFlash_kept, *])

theorem Module.authFail_kept (m : Module) (d : DbgHdr) (op : Nat) (hm : Memory.wf m.mem = true) :
    Memory.wf (Module.authFail m d op).mem = true := by
  unfold Module.authFail
  repeat' (first
    | with_reducible assumption
    | with_reducible first | refine ite_kept ?_ ?_ | refine foldl_kept _ _ ?_ ?_ | refine foldl_kept2 _ _ ?_ ?_ | refine foldl_kept22 _ _ ?_ ?_ | refine foldl_kept222 _ _ ?_ ?_
    | intro _
    | simp (maxDischargeDepth := 99) (maxSteps := 1000000) +contextual only [Module.setFld_kept, Module.count_kept, Module.tick_kept, Module.holdBackoff_kept, Module.storeBackoff_kept, Module.raise_kept, Module.debugAnswer_kept, ite_kept, *])

theorem Module.authPass_kept (m : Module) (hm : Memory.wf m.mem = true) :
    Memory.wf (Module.authPass m).mem = true := by
  unfold Module.authPass
  repeat' (first
    | with_reducible assumption
    | with_reducible first | refine ite_kept ?_ ?_ | refine foldl_kept _ _ ?_ ?_ | refine foldl_kept2 _ _ ?_ ?_ | refine foldl_kept22 _ _ ?_ ?_ | refine foldl_kept222 _ _ ?_ ?_
    | intro _
    | simp (maxDischargeDepth := 99) (maxSteps := 1000000) +contextual only [Module.storeBackoff_kept, Module.setFld_kept, ite_kept, *])

theorem Module.openLevel_kept (m : Module) (d : DbgHdr) (op : Nat) (v : Nat) (hm : Memory.wf m.mem = true) :
    Memory.wf (Module.openLevel m d op v).mem = true := by
  unfold Module.openLevel
  repeat' (first
    | with_reducible assumption
    | with_reducible first | refine ite_kept ?_ ?_ | refine foldl_kept _ _ ?_ ?_ | refine foldl_kept2 _ _ ?_ ?_ | refine foldl_kept22 _ _ ?_ ?_ | refine foldl_kept222 _ _ ?_ ?_
    | intro _
    | simp (maxDischargeDepth := 99) (maxSteps := 1000000) +contextual only [Module.setLevel_kept, Module.count_kept, Module.debugAnswer_kept, *])

theorem Module.authBusy_kept (m : Module) (d : DbgHdr) (op : Nat) (k : Module → Module) (hm : Memory.wf m.mem = true) (hk : ∀ (x0 : Module), Memory.wf x0.mem = true → Memory.wf (k x0).mem = true) :
    Memory.wf (Module.authBusy m d op k).mem = true := by
  unfold Module.authBusy
  repeat' (first
    | with_reducible assumption
    | with_reducible first | refine ite_kept ?_ ?_ | refine foldl_kept _ _ ?_ ?_ | refine foldl_kept2 _ _ ?_ ?_ | refine foldl_kept22 _ _ ?_ ?_ | refine foldl_kept222 _ _ ?_ ?_
    | intro _
    | simp (maxDischargeDepth := 99) (maxSteps := 1000000) +contextual only [Module.debugAnswer_kept, Module.tick_kept, *])

theorem password_kept (d : DbgHdr) (pw : List Byte) (m : Module) (hm : Memory.wf m.mem = true) :
    Memory.wf (password d pw m).mem = true := by
  unfold password
  repeat' (first
    | with_reducible assumption
    | with_reducible first | refine ite_kept ?_ ?_ | refine foldl_kept _ _ ?_ ?_ | refine foldl_kept2 _ _ ?_ ?_ | refine foldl_kept22 _ _ ?_ ?_ | refine foldl_kept222 _ _ ?_ ?_
    | intro _
    | with_reducible apply Module.debugOp_kept
    | with_reducible apply Module.authBusy_kept
    | simp (maxDischargeDepth := 99) (maxSteps := 1000000) +contextual only [Module.debugAnswer_kept, Module.authFail_kept, Module.authPass_kept, Module.openLevel_kept, *]
    | with_reducible first | apply Module.debugOp_kept | apply Module.authBusy_kept | apply Module.debugAnswer_kept | apply Module.authFail_kept | apply Module.authPass_kept | apply Module.openLevel_kept
    | split)

theorem challenge_kept (d : DbgHdr) (level : Byte) (m : Module) (hm : Memory.wf m.mem = true) :
    Memory.wf (challenge d level m).mem = true := by
  unfold challenge
  repeat' (first
    | with_reducible assumption
    | with_reducible first | refine ite_kept ?_ ?_ | refine foldl_kept _ _ ?_ ?_ | refine foldl_kept2 _ _ ?_ ?_ | refine foldl_kept22 _ _ ?_ ?_ | refine foldl_kept222 _ _ ?_ ?_
    | intro _
    | with_reducible apply Module.debugOp_kept
    | simp (maxDischargeDepth := 99) (maxSteps := 1000000) +contextual only [Module.debugAnswer_kept, Module.draw_kept, Module.setFld_kept, *])

theorem Module.startFill_kept (m : Module) (d : DbgHdr) (hm : Memory.wf m.mem = true) :
    Memory.wf (Module.startFill m d).mem = true := by
  unfold Module.startFill
  repeat' (first
    | with_reducible assumption
    | with_reducible first | refine ite_kept ?_ ?_ | refine foldl_kept _ _ ?_ ?_ | refine foldl_kept2 _ _ ?_ ?_ | refine foldl_kept22 _ _ ?_ ?_ | refine foldl_kept222 _ _ ?_ ?_
    | intro _
    | simp (maxDischargeDepth := 99) (maxSteps := 1000000) +contextual only [Module.setFld_kept, Module.startMove_kept, Module.beginRelease_kept, *]
    | with_reducible first | apply Module.setFld_kept | apply Module.startMove_kept | apply Module.beginRelease_kept | apply Module.fillWork_kept
    | split)

theorem response_kept (d : DbgHdr) (level : Byte) (key : List Byte) (signature : List Byte) (m : Module) (hm : Memory.wf m.mem = true) :
    Memory.wf (response d level key signature m).mem = true := by
  unfold response
  repeat' (first
    | with_reducible assumption
    | with_reducible first | refine ite_kept ?_ ?_ | refine foldl_kept _ _ ?_ ?_ | refine foldl_kept2 _ _ ?_ ?_ | refine foldl_kept22 _ _ ?_ ?_ | refine foldl_kept222 _ _ ?_ ?_
    | intro _
    | with_reducible apply Module.debugOp_kept
    | with_reducible apply Module.authBusy_kept
    | simp (maxDischargeDepth := 99) (maxSteps := 1000000) +contextual only [Module.debugAnswer_kept, Module.dropNonce_kept, Module.authFail_kept, Module.authPass_kept, Module.closeLinks_kept, Module.restart_kept, Module.startFill_kept, Module.openLevel_kept, *])

theorem lock_kept (d : DbgHdr) (m : Module) (hm : Memory.wf m.mem = true) :
    Memory.wf (lock d m).mem = true := by
  unfold lock
  repeat' (first
    | with_reducible assumption
    | with_reducible first | refine ite_kept ?_ ?_ | refine foldl_kept _ _ ?_ ?_ | refine foldl_kept2 _ _ ?_ ?_ | refine foldl_kept22 _ _ ?_ ?_ | refine foldl_kept222 _ _ ?_ ?_
    | intro _
    | with_reducible apply Module.debugOp_kept
    | simp (maxDischargeDepth := 99) (maxSteps := 1000000) +contextual only [Module.setLevel_kept, Module.debugAnswer_kept, *])

theorem nonceExpiry_kept (m : Module) (hm : Memory.wf m.mem = true) :
    Memory.wf (nonceExpiry m).mem = true := by
  unfold nonceExpiry
  repeat' (first
    | with_reducible assumption
    | with_reducible first | refine ite_kept ?_ ?_ | refine foldl_kept _ _ ?_ ?_ | refine foldl_kept2 _ _ ?_ ?_ | refine foldl_kept22 _ _ ?_ ?_ | refine foldl_kept222 _ _ ?_ ?_
    | intro _
    | simp (maxDischargeDepth := 99) (maxSteps := 1000000) +contextual only [Module.dropNonce_kept, *])

theorem backoffExpiry_kept (m : Module) (hm : Memory.wf m.mem = true) :
    Memory.wf (backoffExpiry m).mem = true := by
  unfold backoffExpiry
  repeat' (first
    | with_reducible assumption)

theorem zeroFillDone_kept (m : Module) (hm : Memory.wf m.mem = true) :
    Memory.wf (zeroFillDone m).mem = true := by
  unfold zeroFillDone
  repeat' (first
    | with_reducible assumption
    | with_reducible first | refine ite_kept ?_ ?_ | refine foldl_kept _ _ ?_ ?_ | refine foldl_kept2 _ _ ?_ ?_ | refine foldl_kept22 _ _ ?_ ?_ | refine foldl_kept222 _ _ ?_ ?_
    | intro _
    | with_reducible apply Module.firmware_kept
    | simp (maxDischargeDepth := 99) (maxSteps := 1000000) +contextual only [Module.zero_kept, Module.setFld_kept, Module.raise_kept, Module.openLevel_kept, *]
    | with_reducible first | apply Module.firmware_kept | apply Module.zero_kept | apply Module.setFld_kept | apply Module.raise_kept | apply Module.openLevel_kept
    | split)

theorem memRead_kept (d : DbgHdr) (addr : W64) (len : Word) (rec : Remote) (m : Module) (hm : Memory.wf m.mem = true) :
    Memory.wf (memRead d addr len rec m).mem = true := by
  unfold memRead
  repeat' (first
    | with_reducible assumption
    | with_reducible first | refine ite_kept ?_ ?_ | refine foldl_kept _ _ ?_ ?_ | refine foldl_kept2 _ _ ?_ ?_ | refine foldl_kept22 _ _ ?_ ?_ | refine foldl_kept222 _ _ ?_ ?_
    | intro _
    | with_reducible apply Module.debugOp_kept
    | simp (maxDischargeDepth := 99) (maxSteps := 1000000) +contextual only [Module.debugAnswer_kept, Module.askWindow_kept, Module.readMeets_kept, *]
    | with_reducible first | apply Module.debugOp_kept | apply Module.debugAnswer_kept | apply Module.askWindow_kept | apply Module.readMeets_kept
    | split)

theorem memWrite_kept (d : DbgHdr) (addr : W64) (data : List Byte) (m : Module) (hm : Memory.wf m.mem = true) :
    Memory.wf (memWrite d addr data m).mem = true := by
  unfold memWrite
  repeat' (first
    | with_reducible assumption
    | with_reducible first | refine ite_kept ?_ ?_ | refine foldl_kept _ _ ?_ ?_ | refine foldl_kept2 _ _ ?_ ?_ | refine foldl_kept22 _ _ ?_ ?_ | refine foldl_kept222 _ _ ?_ ?_
    | intro _
    | with_reducible apply Module.debugOp_kept
    | simp (maxDischargeDepth := 99) (maxSteps := 1000000) +contextual only [Module.debugAnswer_kept, Module.winWriteTo_kept, Module.flushSpan_kept, Module.meetPartly_kept, Module.write_kept, Module.reportPartly_kept, *]
    | with_reducible first | apply Module.debugOp_kept | apply Module.debugAnswer_kept | apply Module.winWriteTo_kept | apply Module.flushSpan_kept | apply Module.meetPartly_kept | apply Module.write_kept | apply Module.reportPartly_kept
    | split)

theorem syncReset_kept (d : DbgHdr) (obj : W16) (value : Word) (m : Module) (hm : Memory.wf m.mem = true) :
    Memory.wf (syncReset d obj value m).mem = true := by
  unfold syncReset
  repeat' (first
    | with_reducible assumption
    | with_reducible first | refine ite_kept ?_ ?_ | refine foldl_kept _ _ ?_ ?_ | refine foldl_kept2 _ _ ?_ ?_ | refine foldl_kept22 _ _ ?_ ?_ | refine foldl_kept222 _ _ ?_ ?_
    | intro _
    | with_reducible apply Module.debugOp_kept
    | simp (maxDischargeDepth := 99) (maxSteps := 1000000) +contextual only [Module.debugAnswer_kept, Module.count_kept, Module.setSync_kept, *])

theorem halt_kept (d : DbgHdr) (target : W16) (m : Module) (hm : Memory.wf m.mem = true) :
    Memory.wf (halt d target m).mem = true := by
  unfold halt
  repeat' (first
    | with_reducible assumption
    | with_reducible first | refine ite_kept ?_ ?_ | refine foldl_kept _ _ ?_ ?_ | refine foldl_kept2 _ _ ?_ ?_ | refine foldl_kept22 _ _ ?_ ?_ | refine foldl_kept222 _ _ ?_ ?_
    | intro _
    | with_reducible apply Module.debugOp_kept
    | simp (maxDischargeDepth := 99) (maxSteps := 1000000) +contextual only [Module.debugAnswer_kept, *]
    | with_reducible first | apply Module.debugOp_kept | apply Module.debugAnswer_kept
    | split)

theorem resume_kept (d : DbgHdr) (target : W16) (m : Module) (hm : Memory.wf m.mem = true) :
    Memory.wf (resume d target m).mem = true := by
  unfold resume
  repeat' (first
    | with_reducible assumption
    | with_reducible first | refine ite_kept ?_ ?_ | refine foldl_kept _ _ ?_ ?_ | refine foldl_kept2 _ _ ?_ ?_ | refine foldl_kept22 _ _ ?_ ?_ | refine foldl_kept222 _ _ ?_ ?_
    | intro _
    | with_reducible apply Module.debugOp_kept
    | simp (maxDischargeDepth := 99) (maxSteps := 1000000) +contextual only [Module.deliver_kept, Module.debugAnswer_kept, implies_true, foldl_kept, *]
    | with_reducible first | apply Module.debugOp_kept | apply Module.deliver_kept | apply Module.debugAnswer_kept
    | split)

theorem traceRead_kept (d : DbgHdr) (start : Word) (max : Byte) (m : Module) (hm : Memory.wf m.mem = true) :
    Memory.wf (traceRead d start max m).mem = true := by
  unfold traceRead
  repeat' (first
    | with_reducible assumption
    | with_reducible first | refine ite_kept ?_ ?_ | refine foldl_kept _ _ ?_ ?_ | refine foldl_kept2 _ _ ?_ ?_ | refine foldl_kept22 _ _ ?_ ?_ | refine foldl_kept222 _ _ ?_ ?_
    | intro _
    | with_reducible apply Module.debugOp_kept
    | simp (maxDischargeDepth := 99) (maxSteps := 1000000) +contextual only [Module.debugAnswer_kept, *])

theorem debugJournalRead_kept (d : DbgHdr) (start : Word) (max : Byte) (m : Module) (hm : Memory.wf m.mem = true) :
    Memory.wf (debugJournalRead d start max m).mem = true := by
  unfold debugJournalRead
  repeat' (first
    | with_reducible assumption
    | with_reducible first | refine ite_kept ?_ ?_ | refine foldl_kept _ _ ?_ ?_ | refine foldl_kept2 _ _ ?_ ?_ | refine foldl_kept22 _ _ ?_ ?_ | refine foldl_kept222 _ _ ?_ ?_
    | intro _
    | with_reducible apply Module.debugOp_kept
    | simp (maxDischargeDepth := 99) (maxSteps := 1000000) +contextual only [Module.debugAnswer_kept, *])

theorem attest_kept (d : DbgHdr) (nonce : List Byte) (m : Module) (hm : Memory.wf m.mem = true) :
    Memory.wf (attest d nonce m).mem = true := by
  unfold attest
  repeat' (first
    | with_reducible assumption
    | with_reducible first | refine ite_kept ?_ ?_ | refine foldl_kept _ _ ?_ ?_ | refine foldl_kept2 _ _ ?_ ?_ | refine foldl_kept22 _ _ ?_ ?_ | refine foldl_kept222 _ _ ?_ ?_
    | intro _
    | with_reducible apply Module.debugOp_kept
    | simp (maxDischargeDepth := 99) (maxSteps := 1000000) +contextual only [Module.tick_kept, Module.draw_kept, Module.debugAnswer_kept, *])

theorem identity_kept (d : DbgHdr) (m : Module) (hm : Memory.wf m.mem = true) :
    Memory.wf (identity d m).mem = true := by
  unfold identity
  repeat' (first
    | with_reducible assumption
    | with_reducible first | refine ite_kept ?_ ?_ | refine foldl_kept _ _ ?_ ?_ | refine foldl_kept2 _ _ ?_ ?_ | refine foldl_kept22 _ _ ?_ ?_ | refine foldl_kept222 _ _ ?_ ?_
    | intro _
    | with_reducible apply Module.debugOp_kept
    | simp (maxDischargeDepth := 99) (maxSteps := 1000000) +contextual only [Module.draw_kept, Module.debugAnswer_kept, *])

theorem provision_kept (d : DbgHdr) (ownerHash : List Byte) (salt : List Byte) (pwHash : List Byte) (floor : Byte) (m : Module) (hm : Memory.wf m.mem = true) :
    Memory.wf (provision d ownerHash salt pwHash floor m).mem = true := by
  unfold provision
  repeat' (first
    | with_reducible assumption
    | with_reducible first | refine ite_kept ?_ ?_ | refine foldl_kept _ _ ?_ ?_ | refine foldl_kept2 _ _ ?_ ?_ | refine foldl_kept22 _ _ ?_ ?_ | refine foldl_kept222 _ _ ?_ ?_
    | intro _
    | with_reducible apply Module.debugOp_kept
    | simp (maxDischargeDepth := 99) (maxSteps := 1000000) +contextual only [Module.debugAnswer_kept, Module.draw_kept, Module.reportKeys_kept, Module.setFld_kept, *])

theorem lifecycle_kept (d : DbgHdr) (target : Byte) (m : Module) (hm : Memory.wf m.mem = true) :
    Memory.wf (lifecycle d target m).mem = true := by
  unfold lifecycle
  repeat' (first
    | with_reducible assumption
    | with_reducible first | refine ite_kept ?_ ?_ | refine foldl_kept _ _ ?_ ?_ | refine foldl_kept2 _ _ ?_ ?_ | refine foldl_kept22 _ _ ?_ ?_ | refine foldl_kept222 _ _ ?_ ?_
    | intro _
    | with_reducible apply Module.debugOp_kept
    | simp (maxDischargeDepth := 99) (maxSteps := 1000000) +contextual only [Module.debugAnswer_kept, Module.setFld_kept, Module.journalEntry_kept, *])

theorem setPassword_kept (d : DbgHdr) (salt : List Byte) (hash : List Byte) (m : Module) (hm : Memory.wf m.mem = true) :
    Memory.wf (setPassword d salt hash m).mem = true := by
  unfold setPassword
  repeat' (first
    | with_reducible assumption
    | with_reducible first | refine ite_kept ?_ ?_ | refine foldl_kept _ _ ?_ ?_ | refine foldl_kept2 _ _ ?_ ?_ | refine foldl_kept22 _ _ ?_ ?_ | refine foldl_kept222 _ _ ?_ ?_
    | intro _
    | with_reducible apply Module.debugOp_kept
    | simp (maxDischargeDepth := 99) (maxSteps := 1000000) +contextual only [Module.debugAnswer_kept, Module.reportKeys_kept, Module.journalEntry_kept, *])

theorem debugReservedOp_kept (d : DbgHdr) (op : Byte) (m : Module) (hm : Memory.wf m.mem = true) :
    Memory.wf (debugReservedOp d op m).mem = true := by
  unfold debugReservedOp
  repeat' (first
    | with_reducible assumption
    | with_reducible first | refine ite_kept ?_ ?_ | refine foldl_kept _ _ ?_ ?_ | refine foldl_kept2 _ _ ?_ ?_ | refine foldl_kept22 _ _ ?_ ?_ | refine foldl_kept222 _ _ ?_ ?_
    | intro _
    | with_reducible apply Module.debugOp_kept
    | simp (maxDischargeDepth := 99) (maxSteps := 1000000) +contextual only [Module.debugAnswer_kept, *])

theorem debugFrameDiscard_kept (frame : List Byte) (m : Module) (hm : Memory.wf m.mem = true) :
    Memory.wf (debugFrameDiscard frame m).mem = true := by
  unfold debugFrameDiscard
  repeat' (first
    | with_reducible assumption
    | with_reducible first | refine ite_kept ?_ ?_ | refine foldl_kept _ _ ?_ ?_ | refine foldl_kept2 _ _ ?_ ?_ | refine foldl_kept22 _ _ ?_ ?_ | refine foldl_kept222 _ _ ?_ ?_
    | intro _
    | with_reducible apply Module.debugOp_kept
    | simp (maxDischargeDepth := 99) (maxSteps := 1000000) +contextual only [Module.debugAnswer_kept, *]
    | with_reducible first | apply Module.debugOp_kept | apply Module.debugAnswer_kept
    | split)

theorem extest_kept (d : DbgHdr) (instruction : TapInstr) (m : Module) (hm : Memory.wf m.mem = true) :
    Memory.wf (extest d instruction m).mem = true := by
  unfold extest
  repeat' (first
    | with_reducible assumption
    | with_reducible first | refine ite_kept ?_ ?_ | refine foldl_kept _ _ ?_ ?_ | refine foldl_kept2 _ _ ?_ ?_ | refine foldl_kept22 _ _ ?_ ?_ | refine foldl_kept222 _ _ ?_ ?_
    | intro _
    | simp (maxDischargeDepth := 99) (maxSteps := 1000000) +contextual only [Module.debugSend_kept, *])

theorem tapReset_kept (m : Module) (hm : Memory.wf m.mem = true) :
    Memory.wf (tapReset m).mem = true := by
  unfold tapReset
  repeat' (first
    | with_reducible assumption)

end Sys2Proof.Machine
end

