-- ==== Sys2Proof/Laws/Kept/Boot.lean ====
section
/-!
SUPPORT. Every operation of Machine/Boot.lean keeps the canonical form of memory.
-/
namespace Sys2Proof.Machine

theorem startCondition_kept (mv : Nat) (m : Module) (hm : Memory.wf m.mem = true) :
    Memory.wf (startCondition mv m).mem = true := by
  unfold startCondition
  repeat' (first
    | with_reducible assumption
    | with_reducible first | refine ite_kept ?_ ?_ | refine foldl_kept _ _ ?_ ?_ | refine foldl_kept2 _ _ ?_ ?_ | refine foldl_kept22 _ _ ?_ ?_ | refine foldl_kept222 _ _ ?_ ?_
    | intro _
    | simp (maxDischargeDepth := 99) (maxSteps := 1000000) +contextual only [reset_kept, *]
    | with_reducible first | apply Module.setFld_kept | apply Module.readOtp_kept)

theorem Module.storeTraining_kept (m : Module) (dieTemp : Int) (hm : Memory.wf m.mem = true) :
    Memory.wf (Module.storeTraining m dieTemp).mem = true := by
  unfold Module.storeTraining
  repeat' (first
    | with_reducible assumption)

theorem dramTrainingDone_kept (recordOk : Bool) (dieTemp : Int) (ms : Nat) (m : Module) (hm : Memory.wf m.mem = true) :
    Memory.wf (dramTrainingDone recordOk dieTemp ms m).mem = true := by
  unfold dramTrainingDone
  repeat' (first
    | with_reducible assumption
    | with_reducible first | refine ite_kept ?_ ?_ | refine foldl_kept _ _ ?_ ?_ | refine foldl_kept2 _ _ ?_ ?_ | refine foldl_kept22 _ _ ?_ ?_ | refine foldl_kept222 _ _ ?_ ?_
    | intro _
    | simp (maxDischargeDepth := 99) (maxSteps := 1000000) +contextual only [Module.setFld_kept, Module.storeTraining_kept, *])

theorem Module.toBaseline_kept (m : Module) (hm : Memory.wf m.mem = true) :
    Memory.wf (Module.toBaseline m).mem = true := by
  unfold Module.toBaseline
  repeat' (first
    | with_reducible assumption
    | with_reducible first | refine ite_kept ?_ ?_ | refine foldl_kept _ _ ?_ ?_ | refine foldl_kept2 _ _ ?_ ?_ | refine foldl_kept22 _ _ ?_ ?_ | refine foldl_kept222 _ _ ?_ ?_
    | intro _
    | simp (maxDischargeDepth := 99) (maxSteps := 1000000) +contextual only [Module.pick_kept, Module.setLevel_kept, *])

theorem Module.bootFail_kept (m : Module) (hm : Memory.wf m.mem = true) :
    Memory.wf (Module.bootFail m).mem = true := by
  unfold Module.bootFail
  repeat' (first
    | with_reducible assumption
    | with_reducible first | refine ite_kept ?_ ?_ | refine foldl_kept _ _ ?_ ?_ | refine foldl_kept2 _ _ ?_ ?_ | refine foldl_kept22 _ _ ?_ ?_ | refine foldl_kept222 _ _ ?_ ?_
    | intro _
    | simp (maxDischargeDepth := 99) (maxSteps := 1000000) +contextual only [Module.wr_kept, Module.setFld_kept, Module.toBaseline_kept, *])

theorem Module.monitorCheck_kept (m : Module) (hm : Memory.wf m.mem = true) :
    Memory.wf (Module.monitorCheck m).mem = true := by
  unfold Module.monitorCheck
  repeat' (first
    | with_reducible assumption
    | with_reducible first | refine ite_kept ?_ ?_ | refine foldl_kept _ _ ?_ ?_ | refine foldl_kept2 _ _ ?_ ?_ | refine foldl_kept22 _ _ ?_ ?_ | refine foldl_kept222 _ _ ?_ ?_
    | intro _
    | simp (maxDischargeDepth := 99) (maxSteps := 1000000) +contextual only [Module.thermRead_kept, Module.voltRead_kept, Module.setFld_kept, Module.dieReport_kept, Module.fault_kept, *])

theorem firmwareVerified_kept (a : SlotImage) (b : SlotImage) (m : Module) (hm : Memory.wf m.mem = true) :
    Memory.wf (firmwareVerified a b m).mem = true := by
  unfold firmwareVerified
  repeat' (first
    | with_reducible assumption
    | with_reducible first | refine ite_kept ?_ ?_ | refine foldl_kept _ _ ?_ ?_ | refine foldl_kept2 _ _ ?_ ?_ | refine foldl_kept22 _ _ ?_ ?_ | refine foldl_kept222 _ _ ?_ ?_
    | intro _
    | simp (maxDischargeDepth := 99) (maxSteps := 1000000) +contextual only [Module.monitorCheck_kept, Module.setFld_kept, Module.bootFail_kept, Module.updateCap_kept, ite_kept, *])

theorem Module.readSettings_kept (m : Module) (good : Bool) (hm : Memory.wf m.mem = true) :
    Memory.wf (Module.readSettings m good).mem = true := by
  unfold Module.readSettings
  repeat' (first
    | with_reducible assumption
    | with_reducible first | refine ite_kept ?_ ?_ | refine foldl_kept _ _ ?_ ?_ | refine foldl_kept2 _ _ ?_ ?_ | refine foldl_kept22 _ _ ?_ ?_ | refine foldl_kept222 _ _ ?_ ?_
    | intro _
    | simp (maxDischargeDepth := 99) (maxSteps := 1000000) +contextual only [Module.setFld_kept, ite_kept, *])

theorem Module.drawGenerations_kept (m : Module) (hm : Memory.wf m.mem = true) :
    Memory.wf (Module.drawGenerations m).mem = true := by
  unfold Module.drawGenerations
  repeat' (first
    | with_reducible assumption
    | with_reducible first | refine ite_kept ?_ ?_ | refine foldl_kept _ _ ?_ ?_ | refine foldl_kept2 _ _ ?_ ?_ | refine foldl_kept22 _ _ ?_ ?_ | refine foldl_kept222 _ _ ?_ ?_
    | intro _
    | simp (maxDischargeDepth := 99) (maxSteps := 1000000) +contextual only [Module.draw_kept, Module.setFld_kept, *])

theorem cpSelfTestDone_kept (cp0 : Bool) (cp1 : Bool) (settingsOk : Bool) (m : Module) (hm : Memory.wf m.mem = true) :
    Memory.wf (cpSelfTestDone cp0 cp1 settingsOk m).mem = true := by
  unfold cpSelfTestDone
  repeat' (first
    | with_reducible assumption
    | with_reducible first | refine ite_kept ?_ ?_ | refine foldl_kept _ _ ?_ ?_ | refine foldl_kept2 _ _ ?_ ?_ | refine foldl_kept22 _ _ ?_ ?_ | refine foldl_kept222 _ _ ?_ ?_
    | intro _
    | simp (maxDischargeDepth := 99) (maxSteps := 1000000) +contextual only [Module.setFld_kept, Module.bootFail_kept, Module.readSettings_kept, Module.drawGenerations_kept, Module.silentFault_kept, Module.draw_kept, Module.open__kept, Module.wr_kept, ite_kept, *])

theorem bootReady_kept (m : Module) (hm : Memory.wf m.mem = true) :
    Memory.wf (bootReady m).mem = true := by
  unfold bootReady
  repeat' (first
    | with_reducible assumption
    | with_reducible first | refine ite_kept ?_ ?_ | refine foldl_kept _ _ ?_ ?_ | refine foldl_kept2 _ _ ?_ ?_ | refine foldl_kept22 _ _ ?_ ?_ | refine foldl_kept222 _ _ ?_ ?_
    | intro _
    | simp (maxDischargeDepth := 99) (maxSteps := 1000000) +contextual only [Module.blowFuses_kept, Module.setFld_kept, Memory.wf_filter, ite_kept, *])

theorem Module.setCpState_kept (m : Module) (pair : Nat) (v : Nat) (hm : Memory.wf m.mem = true) :
    Memory.wf (Module.setCpState m pair v).mem = true := by
  unfold Module.setCpState
  repeat' (first
    | with_reducible assumption
    | with_reducible first | refine ite_kept ?_ ?_ | refine foldl_kept _ _ ?_ ?_ | refine foldl_kept2 _ _ ?_ ?_ | refine foldl_kept22 _ _ ?_ ?_ | refine foldl_kept222 _ _ ?_ ?_
    | intro _
    | simp (maxDischargeDepth := 99) (maxSteps := 1000000) +contextual only [Module.setFld_kept, *])

theorem Module.controlFault_kept (m : Module) (pair : Fin 2) (cls : Nat) (hm : Memory.wf m.mem = true) :
    Memory.wf (Module.controlFault m pair cls).mem = true := by
  unfold Module.controlFault
  repeat' (first
    | with_reducible assumption
    | with_reducible first | refine ite_kept ?_ ?_ | refine foldl_kept _ _ ?_ ?_ | refine foldl_kept2 _ _ ?_ ?_ | refine foldl_kept22 _ _ ?_ ?_ | refine foldl_kept222 _ _ ?_ ?_
    | intro _
    | simp (maxDischargeDepth := 99) (maxSteps := 1000000) +contextual only [Module.satAdd_kept, Module.restart_kept, Module.setCpState_kept, Module.fault_kept, *])

theorem controlMismatch_kept (pair : Fin 2) (m : Module) (hm : Memory.wf m.mem = true) :
    Memory.wf (controlMismatch pair m).mem = true := by
  unfold controlMismatch
  repeat' (first
    | with_reducible assumption
    | with_reducible first | refine ite_kept ?_ ?_ | refine foldl_kept _ _ ?_ ?_ | refine foldl_kept2 _ _ ?_ ?_ | refine foldl_kept22 _ _ ?_ ?_ | refine foldl_kept222 _ _ ?_ ?_
    | intro _
    | simp (maxDischargeDepth := 99) (maxSteps := 1000000) +contextual only [Module.controlFault_kept, *])

theorem controlWatchdog_kept (pair : Fin 2) (m : Module) (hm : Memory.wf m.mem = true) :
    Memory.wf (controlWatchdog pair m).mem = true := by
  unfold controlWatchdog
  repeat' (first
    | with_reducible assumption
    | with_reducible first | refine ite_kept ?_ ?_ | refine foldl_kept _ _ ?_ ?_ | refine foldl_kept2 _ _ ?_ ?_ | refine foldl_kept22 _ _ ?_ ?_ | refine foldl_kept222 _ _ ?_ ?_
    | intro _
    | simp (maxDischargeDepth := 99) (maxSteps := 1000000) +contextual only [Module.controlFault_kept, *])

theorem cpResumeDuties_kept (pair : Fin 2) (pass : Bool) (m : Module) (hm : Memory.wf m.mem = true) :
    Memory.wf (cpResumeDuties pair pass m).mem = true := by
  unfold cpResumeDuties
  repeat' (first
    | with_reducible assumption
    | with_reducible first | refine ite_kept ?_ ?_ | refine foldl_kept _ _ ?_ ?_ | refine foldl_kept2 _ _ ?_ ?_ | refine foldl_kept22 _ _ ?_ ?_ | refine foldl_kept222 _ _ ?_ ?_
    | intro _
    | simp (maxDischargeDepth := 99) (maxSteps := 1000000) +contextual only [Module.setCpState_kept, *])

theorem stormCountClear_kept (m : Module) (hm : Memory.wf m.mem = true) :
    Memory.wf (stormCountClear m).mem = true := by
  unfold stormCountClear
  repeat' (first
    | with_reducible assumption
    | with_reducible first | refine ite_kept ?_ ?_ | refine foldl_kept _ _ ?_ ?_ | refine foldl_kept2 _ _ ?_ ?_ | refine foldl_kept22 _ _ ?_ ?_ | refine foldl_kept222 _ _ ?_ ?_
    | intro _
    | simp (maxDischargeDepth := 99) (maxSteps := 1000000) +contextual only [Module.setFld_kept, *])

theorem faultLogFlush_kept (good : Bool) (m : Module) (hm : Memory.wf m.mem = true) :
    Memory.wf (faultLogFlush good m).mem = true := by
  unfold faultLogFlush
  repeat' (first
    | with_reducible assumption
    | with_reducible first | refine ite_kept ?_ ?_ | refine foldl_kept _ _ ?_ ?_ | refine foldl_kept2 _ _ ?_ ?_ | refine foldl_kept22 _ _ ?_ ?_ | refine foldl_kept222 _ _ ?_ ?_
    | intro _
    | simp (maxDischargeDepth := 99) (maxSteps := 1000000) +contextual only [Module.silentFault_kept, *])

end Sys2Proof.Machine
end

