-- ==== Sys2Proof/Laws/Kept/RegWrite.lean ====
section
/-!
SUPPORT. Every operation of Machine/RegWrite.lean keeps the canonical form of memory.
-/
namespace Sys2Proof.Machine

theorem Module.feTable_kept {m x : Module} {c : Nat} {w : Option Word} {v : Word} (hm : Memory.wf m.mem = true)
    (h : m.feTable c w = some (v, x)) : Memory.wf x.mem = true := by
  unfold Module.feTable at h
  simp only at h
  repeat' (split at h)
  all_goals simp only [Option.some.injEq, Prod.mk.injEq, reduceCtorEq] at h
  all_goals
    obtain ⟨-, rfl⟩ := h
    simp (maxDischargeDepth := 99) only [Module.setCtx_kept, Module.setFld_kept, hm]

theorem Module.nisTable_kept {m x : Module} {c : Nat} {w : Option Word} {v : Word} (hm : Memory.wf m.mem = true)
    (h : m.nisTable c w = some (v, x)) : Memory.wf x.mem = true := by
  unfold Module.nisTable at h
  simp only at h
  repeat' (split at h)
  all_goals simp only [Option.some.injEq, Prod.mk.injEq, reduceCtorEq] at h
  all_goals
    obtain ⟨-, rfl⟩ := h
    simp (maxDischargeDepth := 99) only [Module.setCtx_kept, Module.setFld_kept, hm]

theorem Module.chanAction_kept {m x : Module} {ch : Fin 64} {a : Nat} (hm : Memory.wf m.mem = true)
    (h : m.chanAction ch a = some x) : Memory.wf x.mem = true := by
  unfold Module.chanAction at h
  simp only at h
  repeat' (split at h)
  all_goals simp only [Option.some.injEq, reduceCtorEq] at h
  all_goals
    subst h
    simp (maxDischargeDepth := 99) only [Module.retryChan_kept, Module.skipChan_kept, Module.abortChan_kept, hm]


theorem Module.timeCopy_kept (m : Module) (hm : Memory.wf m.mem = true) :
    Memory.wf (Module.timeCopy m).mem = true := by
  unfold Module.timeCopy
  repeat' (first
    | with_reducible assumption
    | with_reducible first | refine ite_kept ?_ ?_ | refine foldl_kept _ _ ?_ ?_ | refine foldl_kept2 _ _ ?_ ?_ | refine foldl_kept22 _ _ ?_ ?_ | refine foldl_kept222 _ _ ?_ ?_
    | intro _
    | simp (maxDischargeDepth := 99) (maxSteps := 1000000) +contextual only [Module.tick_kept, Module.wr_kept, *])

theorem Module.readReg_kept (m : Module) (r : RegRow) (i : Nat) (off : Nat) (hm : Memory.wf m.mem = true) :
    Memory.wf (Module.readReg m r i off).2.2.mem = true := by
  unfold Module.readReg
  split
  · split
    · next h => exact Module.feTable_kept hm h
    · exact hm
  · split
    · split
      · next h => exact Module.nisTable_kept hm h
      · exact hm
    · simp (maxDischargeDepth := 99) only [Module.measCopy_kept, Module.timeCopy_kept, Module.wr_kept, Module.tick_kept, Module.lostCycles_kept,
        ite_kept, hm]


theorem Module.writeCap_kept (m : Module) (r : RegRow) (p : Nat) (off : Nat) (v : Word) (new : Word) (hm : Memory.wf m.mem = true) :
    Memory.wf (Module.writeCap m r p off v new).2.mem = true := by
  unfold Module.writeCap
  repeat' (first
    | with_reducible assumption
    | with_reducible first | refine ite_kept ?_ ?_ | refine foldl_kept _ _ ?_ ?_ | refine foldl_kept2 _ _ ?_ ?_ | refine foldl_kept22 _ _ ?_ ?_ | refine foldl_kept222 _ _ ?_ ?_
    | intro _
    | simp (maxDischargeDepth := 99) (maxSteps := 1000000) +contextual only [Module.portCfgWrite_kept, Module.trainCtl_kept, Module.trigCfgWrite_kept, Module.sqPush_kept, Module.clearCounters_kept, Module.wr_kept, Module.reportStored_kept, *]
    | with_reducible first | apply Module.portCfgWrite_kept | apply Module.trainCtl_kept | apply Module.trigCfgWrite_kept | apply Module.sqPush_kept | apply Module.clearCounters_kept | apply Module.wr_kept | apply Module.reportStored_kept
    | split)

theorem Module.writeCtx_kept (m : Module) (r : RegRow) (c : Nat) (k : Nat) (off : Nat) (v : Word) (new : Word) (hm : Memory.wf m.mem = true) :
    Memory.wf (Module.writeCtx m r c k off v new).2.mem = true := by
  unfold Module.writeCtx
  split
  · split
    · exact Module.feCommit_kept _ _ _ _ hm
    · exact hm
  · split
    · split
      · next h => exact Module.feTable_kept hm h
      · exact hm
    · split
      · split
        · next h => exact Module.nisTable_kept hm h
        · exact hm
      · split
        · exact ite_kept (Module.setCtx_kept _ _ _ hm) hm
        · split
          · exact ite_kept (Module.resumeOutput_kept _ _ _ hm) hm
          · exact Module.wr_kept _ _ _ hm

theorem Module.storeSettings_kept (m : Module) (hm : Memory.wf m.mem = true) :
    Memory.wf (Module.storeSettings m).mem = true := by
  unfold Module.storeSettings
  repeat' (first
    | with_reducible assumption
    | with_reducible first | refine ite_kept ?_ ?_ | refine foldl_kept _ _ ?_ ?_ | refine foldl_kept2 _ _ ?_ ?_ | refine foldl_kept22 _ _ ?_ ?_ | refine foldl_kept222 _ _ ?_ ?_
    | intro _
    | simp (maxDischargeDepth := 99) (maxSteps := 1000000) +contextual only [Module.storeFlash_kept, *])

theorem Module.writeCore_kept (m : Module) (r : RegRow) (i : Nat) (j : Nat) (off : Nat) (v : Word) (new : Word) (hm : Memory.wf m.mem = true) :
    Memory.wf (Module.writeCore m r i j off v new).2.mem = true := by
  unfold Module.writeCore
  repeat' split
  all_goals first
    | exact Module.calCtl_kept _ _ _ hm
    | exact Module.clearCounters_kept _ _ _ _ hm
    | exact Module.wr_kept _ _ _ hm
    | exact Module.chanAction_kept hm (by assumption)
    | exact Module.storeSettings_kept _ (Module.wr_kept _ _ _ hm)
    | exact hm

theorem Module.writeNet_kept (m : Module) (r : RegRow) (i : Nat) (off : Nat) (v : Word) (new : Word) (hm : Memory.wf m.mem = true) :
    Memory.wf (Module.writeNet m r i off v new).2.mem = true := by
  unfold Module.writeNet
  repeat' (first
    | with_reducible assumption
    | with_reducible first | refine ite_kept ?_ ?_ | refine foldl_kept _ _ ?_ ?_ | refine foldl_kept2 _ _ ?_ ?_ | refine foldl_kept22 _ _ ?_ ?_ | refine foldl_kept222 _ _ ?_ ?_
    | intro _
    | simp (maxDischargeDepth := 99) (maxSteps := 1000000) +contextual only [Module.wr_kept, Module.storeSettings_kept, Module.setFld_kept, Module.clearCounters_kept, *]
    | with_reducible first | apply Module.wr_kept | apply Module.storeSettings_kept | apply Module.setFld_kept | apply Module.clearCounters_kept
    | split)

theorem Module.expCtl_kept (m : Module) (n : Nat) (off : Nat) (new : Word) (hm : Memory.wf m.mem = true) :
    Memory.wf (Module.expCtl m n off new).2.mem = true := by
  unfold Module.expCtl
  repeat' (first
    | with_reducible assumption
    | with_reducible first | refine ite_kept ?_ ?_ | refine foldl_kept _ _ ?_ ?_ | refine foldl_kept2 _ _ ?_ ?_ | refine foldl_kept22 _ _ ?_ ?_ | refine foldl_kept222 _ _ ?_ ?_
    | intro _
    | simp (maxDischargeDepth := 99) (maxSteps := 1000000) +contextual only [Module.closeWindow_kept, Module.wr_kept, *]
    | with_reducible first | apply Module.closeWindow_kept | apply Module.wr_kept
    | split)

theorem Module.writeYwp_kept (m : Module) (r : RegRow) (i : Nat) (off : Nat) (v : Word) (new : Word) (hm : Memory.wf m.mem = true) :
    Memory.wf (Module.writeYwp m r i off v new).2.mem = true := by
  unfold Module.writeYwp
  repeat' (first
    | with_reducible assumption
    | with_reducible first | refine ite_kept ?_ ?_ | refine foldl_kept _ _ ?_ ?_ | refine foldl_kept2 _ _ ?_ ?_ | refine foldl_kept22 _ _ ?_ ?_ | refine foldl_kept222 _ _ ?_ ?_
    | intro _
    | simp (maxDischargeDepth := 99) (maxSteps := 1000000) +contextual only [Module.expCtl_kept, Module.clearCounters_kept, Module.wr_kept, *]
    | with_reducible first | apply Module.expCtl_kept | apply Module.clearCounters_kept | apply Module.wr_kept
    | split)

theorem Module.sysReset_kept (m : Module) (byDebug : Bool) (v : Word) (hm : Memory.wf m.mem = true) :
    Memory.wf (Module.sysReset m byDebug v).2.mem = true := by
  unfold Module.sysReset
  repeat' (first
    | with_reducible assumption
    | with_reducible first | refine ite_kept ?_ ?_ | refine foldl_kept _ _ ?_ ?_ | refine foldl_kept2 _ _ ?_ ?_ | refine foldl_kept22 _ _ ?_ ?_ | refine foldl_kept222 _ _ ?_ ?_
    | intro _
    | simp (maxDischargeDepth := 99) (maxSteps := 1000000) +contextual only [Module.beginLeave_kept, *]
    | with_reducible apply Module.beginLeave_kept
    | split)

theorem Module.settleMove_kept (m : Module) (before : Option Transition) (hm : Memory.wf m.mem = true) :
    Memory.wf (Module.settleMove m before).mem = true := by
  unfold Module.settleMove
  repeat' (first
    | with_reducible assumption
    | with_reducible first | refine ite_kept ?_ ?_ | refine foldl_kept _ _ ?_ ?_ | refine foldl_kept2 _ _ ?_ ?_ | refine foldl_kept22 _ _ ?_ ?_ | refine foldl_kept222 _ _ ?_ ?_
    | intro _
    | simp (maxDischargeDepth := 99) (maxSteps := 1000000) +contextual only [Module.closeLinks_kept, Module.restart_kept, Module.announce_kept, *]
    | with_reducible first | apply Module.closeLinks_kept | apply Module.restart_kept | apply Module.announce_kept
    | split)

theorem Module.flogWrite_kept (m : Module) (full : Bool) (off : Nat) (v : Word) (new : Word) (hm : Memory.wf m.mem = true) :
    Memory.wf (Module.flogWrite m full off v new).2.mem = true := by
  unfold Module.flogWrite
  repeat' (first
    | with_reducible assumption
    | with_reducible first | refine ite_kept ?_ ?_ | refine foldl_kept _ _ ?_ ?_ | refine foldl_kept2 _ _ ?_ ?_ | refine foldl_kept22 _ _ ?_ ?_ | refine foldl_kept222 _ _ ?_ ?_
    | intro _
    | simp (maxDischargeDepth := 99) (maxSteps := 1000000) +contextual only [Module.wr_kept, ite_kept, *]
    | with_reducible apply Module.wr_kept
    | split)

theorem Module.writePwr_kept (m : Module) (r : RegRow) (off : Nat) (v : Word) (new : Word) (hm : Memory.wf m.mem = true) :
    Memory.wf (Module.writePwr m r off v new).2.mem = true := by
  unfold Module.writePwr
  repeat' (first
    | with_reducible assumption
    | with_reducible first | refine ite_kept ?_ ?_ | refine foldl_kept _ _ ?_ ?_ | refine foldl_kept2 _ _ ?_ ?_ | refine foldl_kept22 _ _ ?_ ?_ | refine foldl_kept222 _ _ ?_ ?_
    | intro _
    | simp (maxDischargeDepth := 99) (maxSteps := 1000000) +contextual only [Module.powerRequest_kept, Module.modeRequest_kept, Module.wr_kept, Module.switchTo_kept, Module.clearCounters_kept, *]
    | with_reducible first | apply Module.powerRequest_kept | apply Module.modeRequest_kept | apply Module.wr_kept | apply Module.switchTo_kept | apply Module.clearCounters_kept
    | split)

theorem Module.writeSys_kept (m : Module) (src : BusSource) (r : RegRow) (off : Nat) (v : Word) (new : Word) (hm : Memory.wf m.mem = true) :
    Memory.wf (Module.writeSys m src r off v new).2.mem = true := by
  unfold Module.writeSys
  repeat' (first
    | with_reducible assumption
    | with_reducible first | refine ite_kept ?_ ?_ | refine foldl_kept _ _ ?_ ?_ | refine foldl_kept2 _ _ ?_ ?_ | refine foldl_kept22 _ _ ?_ ?_ | refine foldl_kept222 _ _ ?_ ?_
    | intro _
    | simp (maxDischargeDepth := 99) (maxSteps := 1000000) +contextual only [Module.sysReset_kept, Module.flogWrite_kept, Module.clearCounters_kept, Module.wr_kept, *]
    | with_reducible first | apply Module.sysReset_kept | apply Module.flogWrite_kept | apply Module.clearCounters_kept | apply Module.wr_kept
    | split)

theorem Module.writeReg_kept (m : Module) (src : BusSource) (r : RegRow) (i : Nat) (j : Nat) (off : Nat) (v : Word) (new : Word) (hm : Memory.wf m.mem = true) :
    Memory.wf (Module.writeReg m src r i j off v new).2.mem = true := by
  unfold Module.writeReg
  repeat' (first
    | with_reducible assumption
    | with_reducible first | refine ite_kept ?_ ?_ | refine foldl_kept _ _ ?_ ?_ | refine foldl_kept2 _ _ ?_ ?_ | refine foldl_kept22 _ _ ?_ ?_ | refine foldl_kept222 _ _ ?_ ?_
    | intro _
    | simp (maxDischargeDepth := 99) (maxSteps := 1000000) +contextual only [Module.writeSys_kept, Module.writeCap_kept, Module.writeCtx_kept, Module.writeCore_kept, Module.writeNet_kept, Module.writeYwp_kept, Module.writePwr_kept, *]
    | with_reducible first | apply Module.writeSys_kept | apply Module.writeCap_kept | apply Module.writeCtx_kept | apply Module.writeCore_kept | apply Module.writeNet_kept | apply Module.writeYwp_kept | apply Module.writePwr_kept
    | split)

theorem Module.journalWrite_kept (m : Module) (src : Option (Fin 4 × W16)) (r : RegRow) (off : Nat) (old : Word) (new : Word) (hm : Memory.wf m.mem = true) :
    Memory.wf (Module.journalWrite m src r off old new).mem = true := by
  unfold Module.journalWrite
  repeat' (first
    | with_reducible assumption
    | with_reducible first | refine ite_kept ?_ ?_ | refine foldl_kept _ _ ?_ ?_ | refine foldl_kept2 _ _ ?_ ?_ | refine foldl_kept22 _ _ ?_ ?_ | refine foldl_kept222 _ _ ?_ ?_
    | intro _
    | simp (maxDischargeDepth := 99) (maxSteps := 1000000) +contextual only [Module.journalEntry_kept, *]
    | with_reducible apply Module.journalEntry_kept
    | split)

theorem Module.busAnswer_kept (m : Module) (status : Nat) (value : Word) (hm : Memory.wf m.mem = true) :
    Memory.wf (Module.busAnswer m status value).mem = true := by
  unfold Module.busAnswer
  repeat' (first
    | with_reducible assumption)

theorem Module.busRead_kept (m : Module) (off : Nat) (size : Nat) (hm : Memory.wf m.mem = true) :
    Memory.wf (Module.busRead m off size).mem = true := by
  unfold Module.busRead
  repeat' (first
    | with_reducible assumption
    | with_reducible first | refine ite_kept ?_ ?_ | refine foldl_kept _ _ ?_ ?_ | refine foldl_kept2 _ _ ?_ ?_ | refine foldl_kept22 _ _ ?_ ?_ | refine foldl_kept222 _ _ ?_ ?_
    | intro _
    | simp (maxDischargeDepth := 99) (maxSteps := 1000000) +contextual only [Module.busAnswer_kept, Module.readReg_kept, *]
    | with_reducible first | apply Module.busAnswer_kept | apply Module.readReg_kept
    | split)

theorem Module.busWrite_kept (m : Module) (src : BusSource) (off : Nat) (size : Nat) (v : Word) (hm : Memory.wf m.mem = true) :
    Memory.wf (Module.busWrite m src off size v).mem = true := by
  unfold Module.busWrite
  repeat' (first
    | with_reducible assumption
    | with_reducible first | refine ite_kept ?_ ?_ | refine foldl_kept _ _ ?_ ?_ | refine foldl_kept2 _ _ ?_ ?_ | refine foldl_kept22 _ _ ?_ ?_ | refine foldl_kept222 _ _ ?_ ?_
    | intro _
    | simp (maxDischargeDepth := 99) (maxSteps := 1000000) +contextual only [Module.busAnswer_kept, Module.writeReg_kept, Module.journalWrite_kept, *]
    | with_reducible first | apply Module.busAnswer_kept | apply Module.writeReg_kept | apply Module.journalWrite_kept
    | split)

theorem Module.accessRead_kept (m : Module) (src : BusSource) (off : Nat) (size : Nat) (hm : Memory.wf m.mem = true) :
    Memory.wf (Module.accessRead m src off size).mem = true := by
  unfold Module.accessRead
  repeat' (first
    | with_reducible assumption
    | with_reducible first | refine ite_kept ?_ ?_ | refine foldl_kept _ _ ?_ ?_ | refine foldl_kept2 _ _ ?_ ?_ | refine foldl_kept22 _ _ ?_ ?_ | refine foldl_kept222 _ _ ?_ ?_
    | intro _
    | simp (maxDischargeDepth := 99) (maxSteps := 1000000) +contextual only [Module.busAnswer_kept, Module.busRead_kept, *]
    | with_reducible first | apply Module.answer_kept | apply Module.busAnswer_kept | apply Module.pass_kept | apply Module.busRead_kept
    | split)

theorem Module.accessWrite_kept (m : Module) (src : BusSource) (off : Nat) (size : Nat) (v : Word) (hm : Memory.wf m.mem = true) :
    Memory.wf (Module.accessWrite m src off size v).mem = true := by
  unfold Module.accessWrite
  repeat' (first
    | with_reducible assumption
    | with_reducible first | refine ite_kept ?_ ?_ | refine foldl_kept _ _ ?_ ?_ | refine foldl_kept2 _ _ ?_ ?_ | refine foldl_kept22 _ _ ?_ ?_ | refine foldl_kept222 _ _ ?_ ?_
    | intro _
    | simp (maxDischargeDepth := 99) (maxSteps := 1000000) +contextual only [Module.busAnswer_kept, Module.busWrite_kept, Module.settleMove_kept, *]
    | with_reducible first | apply Module.answer_kept | apply Module.busAnswer_kept | apply Module.pass_kept | apply Module.busWrite_kept | apply Module.settleMove_kept
    | split)

theorem Module.doRegOp_kept (m : Module) (src : BusSource) (writes : Bool) (o : Nat × Nat × Word) (hm : Memory.wf m.mem = true) :
    Memory.wf (Module.doRegOp m src writes o).mem = true := by
  unfold Module.doRegOp
  repeat' (first
    | with_reducible assumption
    | with_reducible first | refine ite_kept ?_ ?_ | refine foldl_kept _ _ ?_ ?_ | refine foldl_kept2 _ _ ?_ ?_ | refine foldl_kept22 _ _ ?_ ?_ | refine foldl_kept222 _ _ ?_ ?_
    | intro _
    | simp (maxDischargeDepth := 99) (maxSteps := 1000000) +contextual only [Module.busAnswer_kept, Module.busRead_kept, Module.busWrite_kept, *]
    | with_reducible first | apply Module.busAnswer_kept | apply Module.answer_kept | apply Module.pass_kept | apply Module.busRead_kept | apply Module.busWrite_kept
    | split)

theorem Module.regOps_kept (m : Module) (src : BusSource) (writes : Bool) (b : List Byte) (hm : Memory.wf m.mem = true) :
    Memory.wf (Module.regOps m src writes b).2.mem = true := by
  unfold Module.regOps
  repeat' (first
    | with_reducible assumption
    | with_reducible first | refine ite_kept ?_ ?_ | refine foldl_kept _ _ ?_ ?_ | refine foldl_kept2 _ _ ?_ ?_ | refine foldl_kept22 _ _ ?_ ?_ | refine foldl_kept222 _ _ ?_ ?_
    | intro _
    | simp (maxDischargeDepth := 99) (maxSteps := 1000000) +contextual only [Module.doRegOp_kept, *])

theorem regAccess_kept (h : Hdr) (b : List Byte) (m : Module) (hm : Memory.wf m.mem = true) :
    Memory.wf (regAccess h b m).mem = true := by
  unfold regAccess
  repeat' (first
    | with_reducible assumption
    | with_reducible first | refine ite_kept ?_ ?_ | refine foldl_kept _ _ ?_ ?_ | refine foldl_kept2 _ _ ?_ ?_ | refine foldl_kept22 _ _ ?_ ?_ | refine foldl_kept222 _ _ ?_ ?_
    | intro _
    | with_reducible apply Module.gateSession_kept
    | simp (maxDischargeDepth := 99) (maxSteps := 1000000) +contextual only [Module.answer_kept, Module.regOps_kept, Module.settleMove_kept, *]
    | with_reducible first | apply Module.gateSession_kept | apply Module.answer_kept | apply Module.regOps_kept | apply Module.settleMove_kept
    | split)

theorem Module.debugRegs_kept (m : Module) (d : DbgHdr) (op : Nat) (b : List Byte) (hm : Memory.wf m.mem = true) :
    Memory.wf (Module.debugRegs m d op b).mem = true := by
  unfold Module.debugRegs
  repeat' (first
    | with_reducible assumption
    | with_reducible first | refine ite_kept ?_ ?_ | refine foldl_kept _ _ ?_ ?_ | refine foldl_kept2 _ _ ?_ ?_ | refine foldl_kept22 _ _ ?_ ?_ | refine foldl_kept222 _ _ ?_ ?_
    | intro _
    | with_reducible apply Module.debugOp_kept
    | simp (maxDischargeDepth := 99) (maxSteps := 1000000) +contextual only [Module.debugAnswer_kept, Module.regOps_kept, Module.settleMove_kept, *])

theorem regRead_kept (d : DbgHdr) (b : List Byte) (m : Module) (hm : Memory.wf m.mem = true) :
    Memory.wf (regRead d b m).mem = true := by
  unfold regRead
  repeat' (first
    | with_reducible assumption
    | with_reducible first | refine ite_kept ?_ ?_ | refine foldl_kept _ _ ?_ ?_ | refine foldl_kept2 _ _ ?_ ?_ | refine foldl_kept22 _ _ ?_ ?_ | refine foldl_kept222 _ _ ?_ ?_
    | intro _
    | simp (maxDischargeDepth := 99) (maxSteps := 1000000) +contextual only [Module.debugRegs_kept, *])

theorem regWrite_kept (d : DbgHdr) (b : List Byte) (m : Module) (hm : Memory.wf m.mem = true) :
    Memory.wf (regWrite d b m).mem = true := by
  unfold regWrite
  repeat' (first
    | with_reducible assumption
    | with_reducible first | refine ite_kept ?_ ?_ | refine foldl_kept _ _ ?_ ?_ | refine foldl_kept2 _ _ ?_ ?_ | refine foldl_kept22 _ _ ?_ ?_ | refine foldl_kept222 _ _ ?_ ?_
    | intro _
    | simp (maxDischargeDepth := 99) (maxSteps := 1000000) +contextual only [Module.debugRegs_kept, *])

end Sys2Proof.Machine
end

