-- ==== Sys2Proof/Laws/Kept/BusRows.lean ====
section
/-!
SUPPORT. Every operation of Machine/BusRows.lean keeps the canonical form of memory.
-/
namespace Sys2Proof.Machine

theorem registerWrite_kept (src : BusSource) (off : Nat) (size : Nat) (value : Word) (m : Module) (hm : Memory.wf m.mem = true) :
    Memory.wf (registerWrite src off size value m).mem = true := by
  unfold registerWrite
  repeat' (first
    | with_reducible assumption
    | with_reducible first | refine ite_kept ?_ ?_ | refine foldl_kept _ _ ?_ ?_ | refine foldl_kept2 _ _ ?_ ?_ | refine foldl_kept22 _ _ ?_ ?_ | refine foldl_kept222 _ _ ?_ ?_
    | intro _
    | simp (maxDischargeDepth := 99) (maxSteps := 1000000) +contextual only [Module.accessWrite_kept, *])

theorem portEnable_kept (src : BusSource) (p : PortId) (cfg : Word) (m : Module) (hm : Memory.wf m.mem = true) :
    Memory.wf (portEnable src p cfg m).mem = true := by
  unfold portEnable
  repeat' (first
    | with_reducible assumption
    | with_reducible first | refine ite_kept ?_ ?_ | refine foldl_kept _ _ ?_ ?_ | refine foldl_kept2 _ _ ?_ ?_ | refine foldl_kept22 _ _ ?_ ?_ | refine foldl_kept222 _ _ ?_ ?_
    | intro _
    | simp (maxDischargeDepth := 99) (maxSteps := 1000000) +contextual only [Module.accessWrite_kept, *])

theorem portDisable_kept (src : BusSource) (p : PortId) (cfg : Word) (m : Module) (hm : Memory.wf m.mem = true) :
    Memory.wf (portDisable src p cfg m).mem = true := by
  unfold portDisable
  repeat' (first
    | with_reducible assumption
    | with_reducible first | refine ite_kept ?_ ?_ | refine foldl_kept _ _ ?_ ?_ | refine foldl_kept2 _ _ ?_ ?_ | refine foldl_kept22 _ _ ?_ ?_ | refine foldl_kept222 _ _ ?_ ?_
    | intro _
    | simp (maxDischargeDepth := 99) (maxSteps := 1000000) +contextual only [Module.accessWrite_kept, *])

theorem trainStart_kept (src : BusSource) (p : PortId) (m : Module) (hm : Memory.wf m.mem = true) :
    Memory.wf (trainStart src p m).mem = true := by
  unfold trainStart
  repeat' (first
    | with_reducible assumption
    | with_reducible first | refine ite_kept ?_ ?_ | refine foldl_kept _ _ ?_ ?_ | refine foldl_kept2 _ _ ?_ ?_ | refine foldl_kept22 _ _ ?_ ?_ | refine foldl_kept222 _ _ ?_ ?_
    | intro _
    | simp (maxDischargeDepth := 99) (maxSteps := 1000000) +contextual only [Module.accessWrite_kept, *])

theorem trainAbortWrite_kept (src : BusSource) (p : PortId) (m : Module) (hm : Memory.wf m.mem = true) :
    Memory.wf (trainAbortWrite src p m).mem = true := by
  unfold trainAbortWrite
  repeat' (first
    | with_reducible assumption
    | with_reducible first | refine ite_kept ?_ ?_ | refine foldl_kept _ _ ?_ ?_ | refine foldl_kept2 _ _ ?_ ?_ | refine foldl_kept22 _ _ ?_ ?_ | refine foldl_kept222 _ _ ?_ ?_
    | intro _
    | simp (maxDischargeDepth := 99) (maxSteps := 1000000) +contextual only [Module.accessWrite_kept, *])

theorem trigModeWrite_kept (src : BusSource) (p : PortId) (cfg : Word) (m : Module) (hm : Memory.wf m.mem = true) :
    Memory.wf (trigModeWrite src p cfg m).mem = true := by
  unfold trigModeWrite
  repeat' (first
    | with_reducible assumption
    | with_reducible first | refine ite_kept ?_ ?_ | refine foldl_kept _ _ ?_ ?_ | refine foldl_kept2 _ _ ?_ ?_ | refine foldl_kept22 _ _ ?_ ?_ | refine foldl_kept222 _ _ ?_ ?_
    | intro _
    | simp (maxDischargeDepth := 99) (maxSteps := 1000000) +contextual only [Module.accessWrite_kept, *])

theorem sqPushWrite_kept (src : BusSource) (p : PortId) (m : Module) (hm : Memory.wf m.mem = true) :
    Memory.wf (sqPushWrite src p m).mem = true := by
  unfold sqPushWrite
  repeat' (first
    | with_reducible assumption
    | with_reducible first | refine ite_kept ?_ ?_ | refine foldl_kept _ _ ?_ ?_ | refine foldl_kept2 _ _ ?_ ?_ | refine foldl_kept22 _ _ ?_ ?_ | refine foldl_kept222 _ _ ?_ ?_
    | intro _
    | simp (maxDischargeDepth := 99) (maxSteps := 1000000) +contextual only [Module.accessWrite_kept, *])

theorem measSnapshot_kept (src : BusSource) (p : PortId) (m : Module) (hm : Memory.wf m.mem = true) :
    Memory.wf (measSnapshot src p m).mem = true := by
  unfold measSnapshot
  repeat' (first
    | with_reducible assumption
    | with_reducible first | refine ite_kept ?_ ?_ | refine foldl_kept _ _ ?_ ?_ | refine foldl_kept2 _ _ ?_ ?_ | refine foldl_kept22 _ _ ?_ ?_ | refine foldl_kept222 _ _ ?_ ?_
    | intro _
    | simp (maxDischargeDepth := 99) (maxSteps := 1000000) +contextual only [Module.accessRead_kept, *])

theorem capCntClr_kept (src : BusSource) (p : PortId) (mask : Word) (m : Module) (hm : Memory.wf m.mem = true) :
    Memory.wf (capCntClr src p mask m).mem = true := by
  unfold capCntClr
  repeat' (first
    | with_reducible assumption
    | with_reducible first | refine ite_kept ?_ ?_ | refine foldl_kept _ _ ?_ ?_ | refine foldl_kept2 _ _ ?_ ?_ | refine foldl_kept22 _ _ ?_ ?_ | refine foldl_kept222 _ _ ?_ ?_
    | intro _
    | simp (maxDischargeDepth := 99) (maxSteps := 1000000) +contextual only [Module.accessWrite_kept, *])

theorem feCommitWrite_kept (src : BusSource) (c : PortId) (next : Bool) (withExposure : Bool) (m : Module) (hm : Memory.wf m.mem = true) :
    Memory.wf (feCommitWrite src c next withExposure m).mem = true := by
  unfold feCommitWrite
  repeat' (first
    | with_reducible assumption
    | with_reducible first | refine ite_kept ?_ ?_ | refine foldl_kept _ _ ?_ ?_ | refine foldl_kept2 _ _ ?_ ?_ | refine foldl_kept22 _ _ ?_ ?_ | refine foldl_kept222 _ _ ?_ ?_
    | intro _
    | simp (maxDischargeDepth := 99) (maxSteps := 1000000) +contextual only [Module.accessWrite_kept, *])

theorem feTblDataAccess_kept (src : BusSource) (c : PortId) (write : Option Word) (m : Module) (hm : Memory.wf m.mem = true) :
    Memory.wf (feTblDataAccess src c write m).mem = true := by
  unfold feTblDataAccess
  repeat' (first
    | with_reducible assumption
    | with_reducible first | refine ite_kept ?_ ?_ | refine foldl_kept _ _ ?_ ?_ | refine foldl_kept2 _ _ ?_ ?_ | refine foldl_kept22 _ _ ?_ ?_ | refine foldl_kept222 _ _ ?_ ?_
    | intro _
    | simp (maxDischargeDepth := 99) (maxSteps := 1000000) +contextual only [Module.accessWrite_kept, Module.accessRead_kept, *]
    | with_reducible first | apply Module.write_kept | apply Module.accessWrite_kept | apply Module.accessRead_kept
    | split)

theorem histResetWrite_kept (src : BusSource) (c : PortId) (m : Module) (hm : Memory.wf m.mem = true) :
    Memory.wf (histResetWrite src c m).mem = true := by
  unfold histResetWrite
  repeat' (first
    | with_reducible assumption
    | with_reducible first | refine ite_kept ?_ ?_ | refine foldl_kept _ _ ?_ ?_ | refine foldl_kept2 _ _ ?_ ?_ | refine foldl_kept22 _ _ ?_ ?_ | refine foldl_kept222 _ _ ?_ ?_
    | intro _
    | simp (maxDischargeDepth := 99) (maxSteps := 1000000) +contextual only [Module.accessWrite_kept, *])

theorem nisTblDataAccess_kept (src : BusSource) (c : PortId) (write : Option Word) (m : Module) (hm : Memory.wf m.mem = true) :
    Memory.wf (nisTblDataAccess src c write m).mem = true := by
  unfold nisTblDataAccess
  repeat' (first
    | with_reducible assumption
    | with_reducible first | refine ite_kept ?_ ?_ | refine foldl_kept _ _ ?_ ?_ | refine foldl_kept2 _ _ ?_ ?_ | refine foldl_kept22 _ _ ?_ ?_ | refine foldl_kept222 _ _ ?_ ?_
    | intro _
    | simp (maxDischargeDepth := 99) (maxSteps := 1000000) +contextual only [Module.accessWrite_kept, Module.accessRead_kept, *]
    | with_reducible first | apply Module.write_kept | apply Module.accessWrite_kept | apply Module.accessRead_kept
    | split)

theorem outputResume_kept (src : BusSource) (c : PortId) (k : Fin 4) (m : Module) (hm : Memory.wf m.mem = true) :
    Memory.wf (outputResume src c k m).mem = true := by
  unfold outputResume
  repeat' (first
    | with_reducible assumption
    | with_reducible first | refine ite_kept ?_ ?_ | refine foldl_kept _ _ ?_ ?_ | refine foldl_kept2 _ _ ?_ ?_ | refine foldl_kept22 _ _ ?_ ?_ | refine foldl_kept222 _ _ ?_ ?_
    | intro _
    | simp (maxDischargeDepth := 99) (maxSteps := 1000000) +contextual only [Module.accessWrite_kept, *])

theorem calStartWrite_kept (src : BusSource) (c : PortId) (ctl : Word) (m : Module) (hm : Memory.wf m.mem = true) :
    Memory.wf (calStartWrite src c ctl m).mem = true := by
  unfold calStartWrite
  repeat' (first
    | with_reducible assumption
    | with_reducible first | refine ite_kept ?_ ?_ | refine foldl_kept _ _ ?_ ?_ | refine foldl_kept2 _ _ ?_ ?_ | refine foldl_kept22 _ _ ?_ ?_ | refine foldl_kept222 _ _ ?_ ?_
    | intro _
    | simp (maxDischargeDepth := 99) (maxSteps := 1000000) +contextual only [Module.accessWrite_kept, *])

theorem calAbortWrite_kept (src : BusSource) (c : PortId) (m : Module) (hm : Memory.wf m.mem = true) :
    Memory.wf (calAbortWrite src c m).mem = true := by
  unfold calAbortWrite
  repeat' (first
    | with_reducible assumption
    | with_reducible first | refine ite_kept ?_ ?_ | refine foldl_kept _ _ ?_ ?_ | refine foldl_kept2 _ _ ?_ ?_ | refine foldl_kept22 _ _ ?_ ?_ | refine foldl_kept222 _ _ ?_ ?_
    | intro _
    | simp (maxDischargeDepth := 99) (maxSteps := 1000000) +contextual only [Module.accessWrite_kept, *])

theorem calStoreWrite_kept (src : BusSource) (c : PortId) (m : Module) (hm : Memory.wf m.mem = true) :
    Memory.wf (calStoreWrite src c m).mem = true := by
  unfold calStoreWrite
  repeat' (first
    | with_reducible assumption
    | with_reducible first | refine ite_kept ?_ ?_ | refine foldl_kept _ _ ?_ ?_ | refine foldl_kept2 _ _ ?_ ?_ | refine foldl_kept22 _ _ ?_ ?_ | refine foldl_kept222 _ _ ?_ ?_
    | intro _
    | simp (maxDischargeDepth := 99) (maxSteps := 1000000) +contextual only [Module.accessWrite_kept, *])

theorem calCntClr_kept (src : BusSource) (c : PortId) (mask : Word) (m : Module) (hm : Memory.wf m.mem = true) :
    Memory.wf (calCntClr src c mask m).mem = true := by
  unfold calCntClr
  repeat' (first
    | with_reducible assumption
    | with_reducible first | refine ite_kept ?_ ?_ | refine foldl_kept _ _ ?_ ?_ | refine foldl_kept2 _ _ ?_ ?_ | refine foldl_kept22 _ _ ?_ ?_ | refine foldl_kept222 _ _ ?_ ?_
    | intro _
    | simp (maxDischargeDepth := 99) (maxSteps := 1000000) +contextual only [Module.accessWrite_kept, *])

theorem engXCntClr_kept (src : BusSource) (e : EngPos) (mask : Word) (m : Module) (hm : Memory.wf m.mem = true) :
    Memory.wf (engXCntClr src e mask m).mem = true := by
  unfold engXCntClr
  repeat' (first
    | with_reducible assumption
    | with_reducible first | refine ite_kept ?_ ?_ | refine foldl_kept _ _ ?_ ?_ | refine foldl_kept2 _ _ ?_ ?_ | refine foldl_kept22 _ _ ?_ ?_ | refine foldl_kept222 _ _ ?_ ?_
    | intro _
    | simp (maxDischargeDepth := 99) (maxSteps := 1000000) +contextual only [Module.accessWrite_kept, *])

theorem spmStCntClr_kept (src : BusSource) (stack : Fin 8) (mask : Word) (m : Module) (hm : Memory.wf m.mem = true) :
    Memory.wf (spmStCntClr src stack mask m).mem = true := by
  unfold spmStCntClr
  repeat' (first
    | with_reducible assumption
    | with_reducible first | refine ite_kept ?_ ?_ | refine foldl_kept _ _ ?_ ?_ | refine foldl_kept2 _ _ ?_ ?_ | refine foldl_kept22 _ _ ?_ ?_ | refine foldl_kept222 _ _ ?_ ?_
    | intro _
    | simp (maxDischargeDepth := 99) (maxSteps := 1000000) +contextual only [Module.accessWrite_kept, *])

theorem synCntClr_kept (src : BusSource) (mask : Word) (m : Module) (hm : Memory.wf m.mem = true) :
    Memory.wf (synCntClr src mask m).mem = true := by
  unfold synCntClr
  repeat' (first
    | with_reducible assumption
    | with_reducible first | refine ite_kept ?_ ?_ | refine foldl_kept _ _ ?_ ?_ | refine foldl_kept2 _ _ ?_ ?_ | refine foldl_kept22 _ _ ?_ ?_ | refine foldl_kept222 _ _ ?_ ?_
    | intro _
    | simp (maxDischargeDepth := 99) (maxSteps := 1000000) +contextual only [Module.accessWrite_kept, *])

theorem dmaRetry_kept (src : BusSource) (ch : Fin 64) (m : Module) (hm : Memory.wf m.mem = true) :
    Memory.wf (dmaRetry src ch m).mem = true := by
  unfold dmaRetry
  repeat' (first
    | with_reducible assumption
    | with_reducible first | refine ite_kept ?_ ?_ | refine foldl_kept _ _ ?_ ?_ | refine foldl_kept2 _ _ ?_ ?_ | refine foldl_kept22 _ _ ?_ ?_ | refine foldl_kept222 _ _ ?_ ?_
    | intro _
    | simp (maxDischargeDepth := 99) (maxSteps := 1000000) +contextual only [Module.accessWrite_kept, *])

theorem dmaSkip_kept (src : BusSource) (ch : Fin 64) (m : Module) (hm : Memory.wf m.mem = true) :
    Memory.wf (dmaSkip src ch m).mem = true := by
  unfold dmaSkip
  repeat' (first
    | with_reducible assumption
    | with_reducible first | refine ite_kept ?_ ?_ | refine foldl_kept _ _ ?_ ?_ | refine foldl_kept2 _ _ ?_ ?_ | refine foldl_kept22 _ _ ?_ ?_ | refine foldl_kept222 _ _ ?_ ?_
    | intro _
    | simp (maxDischargeDepth := 99) (maxSteps := 1000000) +contextual only [Module.accessWrite_kept, *])

theorem dmaAbort_kept (src : BusSource) (ch : Fin 64) (m : Module) (hm : Memory.wf m.mem = true) :
    Memory.wf (dmaAbort src ch m).mem = true := by
  unfold dmaAbort
  repeat' (first
    | with_reducible assumption
    | with_reducible first | refine ite_kept ?_ ?_ | refine foldl_kept _ _ ?_ ?_ | refine foldl_kept2 _ _ ?_ ?_ | refine foldl_kept22 _ _ ?_ ?_ | refine foldl_kept222 _ _ ?_ ?_
    | intro _
    | simp (maxDischargeDepth := 99) (maxSteps := 1000000) +contextual only [Module.accessWrite_kept, *])

theorem modeChangeRequest_kept (src : BusSource) (mode : Fin 4) (m : Module) (hm : Memory.wf m.mem = true) :
    Memory.wf (modeChangeRequest src mode m).mem = true := by
  unfold modeChangeRequest
  repeat' (first
    | with_reducible assumption
    | with_reducible first | refine ite_kept ?_ ?_ | refine foldl_kept _ _ ?_ ?_ | refine foldl_kept2 _ _ ?_ ?_ | refine foldl_kept22 _ _ ?_ ?_ | refine foldl_kept222 _ _ ?_ ?_
    | intro _
    | simp (maxDischargeDepth := 99) (maxSteps := 1000000) +contextual only [Module.accessWrite_kept, *])

theorem sysAdmCntClr_kept (src : BusSource) (mask : Word) (m : Module) (hm : Memory.wf m.mem = true) :
    Memory.wf (sysAdmCntClr src mask m).mem = true := by
  unfold sysAdmCntClr
  repeat' (first
    | with_reducible assumption
    | with_reducible first | refine ite_kept ?_ ?_ | refine foldl_kept _ _ ?_ ?_ | refine foldl_kept2 _ _ ?_ ?_ | refine foldl_kept22 _ _ ?_ ?_ | refine foldl_kept222 _ _ ?_ ?_
    | intro _
    | simp (maxDischargeDepth := 99) (maxSteps := 1000000) +contextual only [Module.accessWrite_kept, *])

theorem windowOpen_kept (src : BusSource) (n : Fin 256) (ctl : Word) (m : Module) (hm : Memory.wf m.mem = true) :
    Memory.wf (windowOpen src n ctl m).mem = true := by
  unfold windowOpen
  repeat' (first
    | with_reducible assumption
    | with_reducible first | refine ite_kept ?_ ?_ | refine foldl_kept _ _ ?_ ?_ | refine foldl_kept2 _ _ ?_ ?_ | refine foldl_kept22 _ _ ?_ ?_ | refine foldl_kept222 _ _ ?_ ?_
    | intro _
    | simp (maxDischargeDepth := 99) (maxSteps := 1000000) +contextual only [Module.accessWrite_kept, *])

theorem windowClose_kept (src : BusSource) (n : Fin 256) (ctl : Word) (m : Module) (hm : Memory.wf m.mem = true) :
    Memory.wf (windowClose src n ctl m).mem = true := by
  unfold windowClose
  repeat' (first
    | with_reducible assumption
    | with_reducible first | refine ite_kept ?_ ?_ | refine foldl_kept _ _ ?_ ?_ | refine foldl_kept2 _ _ ?_ ?_ | refine foldl_kept22 _ _ ?_ ?_ | refine foldl_kept222 _ _ ?_ ?_
    | intro _
    | simp (maxDischargeDepth := 99) (maxSteps := 1000000) +contextual only [Module.accessWrite_kept, *])

theorem talkerConfigWrite_kept (src : BusSource) (t : Fin 144) (reg : Fin 4) (value : Word) (m : Module) (hm : Memory.wf m.mem = true) :
    Memory.wf (talkerConfigWrite src t reg value m).mem = true := by
  unfold talkerConfigWrite
  repeat' (first
    | with_reducible assumption
    | with_reducible first | refine ite_kept ?_ ?_ | refine foldl_kept _ _ ?_ ?_ | refine foldl_kept2 _ _ ?_ ?_ | refine foldl_kept22 _ _ ?_ ?_ | refine foldl_kept222 _ _ ?_ ?_
    | intro _
    | simp (maxDischargeDepth := 99) (maxSteps := 1000000) +contextual only [Module.accessWrite_kept, *])

theorem netTimeSnapshot_kept (src : BusSource) (m : Module) (hm : Memory.wf m.mem = true) :
    Memory.wf (netTimeSnapshot src m).mem = true := by
  unfold netTimeSnapshot
  repeat' (first
    | with_reducible assumption
    | with_reducible first | refine ite_kept ?_ ?_ | refine foldl_kept _ _ ?_ ?_ | refine foldl_kept2 _ _ ?_ ?_ | refine foldl_kept22 _ _ ?_ ?_ | refine foldl_kept222 _ _ ?_ ?_
    | intro _
    | simp (maxDischargeDepth := 99) (maxSteps := 1000000) +contextual only [Module.accessRead_kept, *])

theorem netCntClr_kept (src : BusSource) (port : Fin 2) (mask : Word) (m : Module) (hm : Memory.wf m.mem = true) :
    Memory.wf (netCntClr src port mask m).mem = true := by
  unfold netCntClr
  repeat' (first
    | with_reducible assumption
    | with_reducible first | refine ite_kept ?_ ?_ | refine foldl_kept _ _ ?_ ?_ | refine foldl_kept2 _ _ ?_ ?_ | refine foldl_kept22 _ _ ?_ ?_ | refine foldl_kept222 _ _ ?_ ?_
    | intro _
    | simp (maxDischargeDepth := 99) (maxSteps := 1000000) +contextual only [Module.accessWrite_kept, *])

theorem ywpCntClr_kept (src : BusSource) (mask : Word) (m : Module) (hm : Memory.wf m.mem = true) :
    Memory.wf (ywpCntClr src mask m).mem = true := by
  unfold ywpCntClr
  repeat' (first
    | with_reducible assumption
    | with_reducible first | refine ite_kept ?_ ?_ | refine foldl_kept _ _ ?_ ?_ | refine foldl_kept2 _ _ ?_ ?_ | refine foldl_kept22 _ _ ?_ ?_ | refine foldl_kept222 _ _ ?_ ?_
    | intro _
    | simp (maxDischargeDepth := 99) (maxSteps := 1000000) +contextual only [Module.accessWrite_kept, *])

theorem requestRun_kept (src : BusSource) (m : Module) (hm : Memory.wf m.mem = true) :
    Memory.wf (requestRun src m).mem = true := by
  unfold requestRun
  repeat' (first
    | with_reducible assumption
    | with_reducible first | refine ite_kept ?_ ?_ | refine foldl_kept _ _ ?_ ?_ | refine foldl_kept2 _ _ ?_ ?_ | refine foldl_kept22 _ _ ?_ ?_ | refine foldl_kept222 _ _ ?_ ?_
    | intro _
    | simp (maxDischargeDepth := 99) (maxSteps := 1000000) +contextual only [Module.accessWrite_kept, *])

theorem requestIdle_kept (src : BusSource) (m : Module) (hm : Memory.wf m.mem = true) :
    Memory.wf (requestIdle src m).mem = true := by
  unfold requestIdle
  repeat' (first
    | with_reducible assumption
    | with_reducible first | refine ite_kept ?_ ?_ | refine foldl_kept _ _ ?_ ?_ | refine foldl_kept2 _ _ ?_ ?_ | refine foldl_kept22 _ _ ?_ ?_ | refine foldl_kept222 _ _ ?_ ?_
    | intro _
    | simp (maxDischargeDepth := 99) (maxSteps := 1000000) +contextual only [Module.accessWrite_kept, *])

theorem requestStandby_kept (src : BusSource) (m : Module) (hm : Memory.wf m.mem = true) :
    Memory.wf (requestStandby src m).mem = true := by
  unfold requestStandby
  repeat' (first
    | with_reducible assumption
    | with_reducible first | refine ite_kept ?_ ?_ | refine foldl_kept _ _ ?_ ?_ | refine foldl_kept2 _ _ ?_ ?_ | refine foldl_kept22 _ _ ?_ ?_ | refine foldl_kept222 _ _ ?_ ?_
    | intro _
    | simp (maxDischargeDepth := 99) (maxSteps := 1000000) +contextual only [Module.accessWrite_kept, *])

theorem requestOff_kept (src : BusSource) (m : Module) (hm : Memory.wf m.mem = true) :
    Memory.wf (requestOff src m).mem = true := by
  unfold requestOff
  repeat' (first
    | with_reducible assumption
    | with_reducible first | refine ite_kept ?_ ?_ | refine foldl_kept _ _ ?_ ?_ | refine foldl_kept2 _ _ ?_ ?_ | refine foldl_kept22 _ _ ?_ ?_ | refine foldl_kept222 _ _ ?_ ?_
    | intro _
    | simp (maxDischargeDepth := 99) (maxSteps := 1000000) +contextual only [Module.accessWrite_kept, *])

theorem energySnapshot_kept (src : BusSource) (m : Module) (hm : Memory.wf m.mem = true) :
    Memory.wf (energySnapshot src m).mem = true := by
  unfold energySnapshot
  repeat' (first
    | with_reducible assumption
    | with_reducible first | refine ite_kept ?_ ?_ | refine foldl_kept _ _ ?_ ?_ | refine foldl_kept2 _ _ ?_ ?_ | refine foldl_kept22 _ _ ?_ ?_ | refine foldl_kept222 _ _ ?_ ?_
    | intro _
    | simp (maxDischargeDepth := 99) (maxSteps := 1000000) +contextual only [Module.accessRead_kept, *])

theorem pwrCntClr_kept (src : BusSource) (mask : Word) (m : Module) (hm : Memory.wf m.mem = true) :
    Memory.wf (pwrCntClr src mask m).mem = true := by
  unfold pwrCntClr
  repeat' (first
    | with_reducible assumption
    | with_reducible first | refine ite_kept ?_ ?_ | refine foldl_kept _ _ ?_ ?_ | refine foldl_kept2 _ _ ?_ ?_ | refine foldl_kept22 _ _ ?_ ?_ | refine foldl_kept222 _ _ ?_ ?_
    | intro _
    | simp (maxDischargeDepth := 99) (maxSteps := 1000000) +contextual only [Module.accessWrite_kept, *])

theorem dbgCntClr_kept (src : BusSource) (mask : Word) (m : Module) (hm : Memory.wf m.mem = true) :
    Memory.wf (dbgCntClr src mask m).mem = true := by
  unfold dbgCntClr
  repeat' (first
    | with_reducible assumption
    | with_reducible first | refine ite_kept ?_ ?_ | refine foldl_kept _ _ ?_ ?_ | refine foldl_kept2 _ _ ?_ ?_ | refine foldl_kept22 _ _ ?_ ?_ | refine foldl_kept222 _ _ ?_ ?_
    | intro _
    | simp (maxDischargeDepth := 99) (maxSteps := 1000000) +contextual only [Module.accessWrite_kept, *])

theorem sysResetWrite_kept (src : BusSource) (value : Word) (m : Module) (hm : Memory.wf m.mem = true) :
    Memory.wf (sysResetWrite src value m).mem = true := by
  unfold sysResetWrite
  repeat' (first
    | with_reducible assumption
    | with_reducible first | refine ite_kept ?_ ?_ | refine foldl_kept _ _ ?_ ?_ | refine foldl_kept2 _ _ ?_ ?_ | refine foldl_kept22 _ _ ?_ ?_ | refine foldl_kept222 _ _ ?_ ?_
    | intro _
    | simp (maxDischargeDepth := 99) (maxSteps := 1000000) +contextual only [Module.accessWrite_kept, *])

theorem flogIndexSelect_kept (src : BusSource) (value : Word) (m : Module) (hm : Memory.wf m.mem = true) :
    Memory.wf (flogIndexSelect src value m).mem = true := by
  unfold flogIndexSelect
  repeat' (first
    | with_reducible assumption
    | with_reducible first | refine ite_kept ?_ ?_ | refine foldl_kept _ _ ?_ ?_ | refine foldl_kept2 _ _ ?_ ?_ | refine foldl_kept22 _ _ ?_ ?_ | refine foldl_kept222 _ _ ?_ ?_
    | intro _
    | simp (maxDischargeDepth := 99) (maxSteps := 1000000) +contextual only [Module.accessWrite_kept, *])

theorem flogClear_kept (src : BusSource) (m : Module) (hm : Memory.wf m.mem = true) :
    Memory.wf (flogClear src m).mem = true := by
  unfold flogClear
  repeat' (first
    | with_reducible assumption
    | with_reducible first | refine ite_kept ?_ ?_ | refine foldl_kept _ _ ?_ ?_ | refine foldl_kept2 _ _ ?_ ?_ | refine foldl_kept22 _ _ ?_ ?_ | refine foldl_kept222 _ _ ?_ ?_
    | intro _
    | simp (maxDischargeDepth := 99) (maxSteps := 1000000) +contextual only [Module.accessWrite_kept, *])

theorem sysFltCntClr_kept (src : BusSource) (mask : Word) (m : Module) (hm : Memory.wf m.mem = true) :
    Memory.wf (sysFltCntClr src mask m).mem = true := by
  unfold sysFltCntClr
  repeat' (first
    | with_reducible assumption
    | with_reducible first | refine ite_kept ?_ ?_ | refine foldl_kept _ _ ?_ ?_ | refine foldl_kept2 _ _ ?_ ?_ | refine foldl_kept22 _ _ ?_ ?_ | refine foldl_kept222 _ _ ?_ ?_
    | intro _
    | simp (maxDischargeDepth := 99) (maxSteps := 1000000) +contextual only [Module.accessWrite_kept, *])

end Sys2Proof.Machine
end

