-- ==== Sys2Proof/Laws/Regs.lean ====
section
/-!
SUPPORT. The laws of registers and their fields: what a field reads as after a write of it, of another field of its
register, and of another register.
-/
namespace Sys2Proof

/-! ### Bit fields -/

theorem Bits.getLsbD_put (b : Bits) (w : Word) (v i : Nat) (hi : i < 32) :
    (b.put w v).getLsbD i = if b.lo ≤ i ∧ i < b.lo + (b.hi - b.lo + 1) then v.testBit (i - b.lo) else w.getLsbD i := by
  simp only [Bits.put, BitVec.getLsbD_or, BitVec.getLsbD_and, BitVec.getLsbD_not, BitVec.getLsbD_ofNat,
    Nat.testBit_shiftLeft, Nat.testBit_two_pow_sub_one, hi, decide_true, Bool.true_and]
  by_cases h1 : b.lo ≤ i <;> by_cases h2 : i < b.lo + (b.hi - b.lo + 1)
  · have : i - b.lo < b.hi - b.lo + 1 := by omega
    simp [h1, h2, this]
  · have : ¬ i - b.lo < b.hi - b.lo + 1 := by omega
    simp [h1, h2, this]
  · simp [h1]
  · simp [h1]

theorem Bits.testBit_of (b : Bits) (w : Word) (i : Nat) :
    (b.of w).testBit i = (decide (i < b.hi - b.lo + 1) && w.getLsbD (b.lo + i)) := by
  simp [Bits.of, Nat.testBit_mod_two_pow, Nat.testBit_shiftRight, BitVec.getLsbD]

/-- A field reads as what was written to it, its width at most. -/
theorem Bits.of_put_mod (b : Bits) (w : Word) (v : Nat) (h : b.lo ≤ b.hi) (h' : b.hi < 32) :
    b.of (b.put w v) = v % 2 ^ (b.hi - b.lo + 1) := by
  apply Nat.eq_of_testBit_eq
  intro i
  rw [Bits.testBit_of, Nat.testBit_mod_two_pow]
  by_cases hi : i < b.hi - b.lo + 1
  · rw [Bits.getLsbD_put b w v _ (by omega)]
    simp [hi]
  · simp [hi]

theorem Bits.of_put (b : Bits) (w : Word) (v : Nat) (h : b.lo ≤ b.hi) (h' : b.hi < 32)
    (hv : v < 2 ^ (b.hi - b.lo + 1)) : b.of (b.put w v) = v := by
  rw [Bits.of_put_mod b w v h h', Nat.mod_eq_of_lt hv]

/-- Another field of the word is left as it was. -/
theorem Bits.of_put_ne (b c : Bits) (w : Word) (v : Nat) (h : c.hi < 32) (hc : c.lo ≤ c.hi)
    (hd : c.hi < b.lo ∨ b.lo + (b.hi - b.lo + 1) ≤ c.lo) : c.of (b.put w v) = c.of w := by
  apply Nat.eq_of_testBit_eq
  intro i
  rw [Bits.testBit_of, Bits.testBit_of]
  by_cases hi : i < c.hi - c.lo + 1
  · rw [Bits.getLsbD_put b w v _ (by omega)]
    have : ¬ (b.lo ≤ c.lo + i ∧ c.lo + i < b.lo + (b.hi - b.lo + 1)) := by omega
    simp [this]
  · simp [hi]

theorem Bits.of_lt (b : Bits) (w : Word) : b.of w < 2 ^ (b.hi - b.lo + 1) := Nat.mod_lt _ (Nat.two_pow_pos _)

namespace Machine

/-! ### Registers -/

@[simp] theorem Module.rd_wr_same (m : Module) (off : Nat) (v : Word) : (m.wr off v).rd off = v := by
  simp [Module.rd, Module.wr]

theorem Module.rd_wr_ne (m : Module) {off o : Nat} (v : Word) (h : o ≠ off) : (m.wr off v).rd o = m.rd o := by
  simp [Module.rd, Module.wr, SMap.get_set_ne _ _ _ _ h]

/-- A field reads as what was written to it. -/
theorem Module.fld_setFld (m : Module) (off : Nat) (b : Bits) (v : Nat) (h : b.lo ≤ b.hi) (h' : b.hi < 32)
    (hv : v < 2 ^ (b.hi - b.lo + 1)) : (m.setFld off b v).fld off b = v := by
  simp [Module.fld, Module.setFld, Bits.of_put b _ v h h' hv]

/-- Another field of the register is left as it was. -/
theorem Module.fld_setFld_ne (m : Module) (off : Nat) (b c : Bits) (v : Nat) (h : c.hi < 32) (hc : c.lo ≤ c.hi)
    (hd : c.hi < b.lo ∨ b.lo + (b.hi - b.lo + 1) ≤ c.lo) : (m.setFld off b v).fld off c = m.fld off c := by
  simp [Module.fld, Module.setFld, Bits.of_put_ne b c _ v h hc hd]

/-- Another register is left as it was. -/
theorem Module.rd_setFld_ne (m : Module) {off o : Nat} (b : Bits) (v : Nat) (h : o ≠ off) :
    (m.setFld off b v).rd o = m.rd o := Module.rd_wr_ne m _ h

theorem Module.fld_setFld_other (m : Module) {off o : Nat} (b c : Bits) (v : Nat) (h : o ≠ off) :
    (m.setFld off b v).fld o c = m.fld o c := by
  simp [Module.fld, Module.rd_setFld_ne m b v h]

theorem Module.fld_wr_other (m : Module) {off o : Nat} (c : Bits) (v : Word) (h : o ≠ off) :
    (m.wr off v).fld o c = m.fld o c := by
  simp [Module.fld, Module.rd_wr_ne m v h]

@[simp] theorem Module.fld_wr_same (m : Module) (off : Nat) (c : Bits) (v : Word) :
    (m.wr off v).fld off c = c.of v := by
  simp [Module.fld]

/-! ### Sync objects -/

@[simp] theorem Module.sync_setSync_same (m : Module) (o : Nat) (v : Word) : (m.setSync o v).sync o = v := by
  simp [Module.sync, Module.setSync]

theorem Module.sync_setSync_ne (m : Module) {o p : Nat} (v : Word) (h : p ≠ o) : (m.setSync o v).sync p = m.sync p := by
  simp [Module.sync, Module.setSync, SMap.get_set_ne _ _ _ _ h]

end Machine
end Sys2Proof
end

