-- ==== Sys2Proof/Laws/State.lean ====
section
/-!
SUPPORT. What each named update of the module leaves alone, field by field, and what the queue of commands sees of an
outcome.
-/
namespace Sys2Proof.Machine
open Sys2Proof

variable (m : Module) (o n : Nat) (v : Word) (b : Bits) (x : Out) (y : Byte) (p : Port) (c : Ctx) (e : EngPos)
  (g : Eng) (q : NetPort) (s : Session)

/-! ### Outcomes -/

/-- Outside OFF a command's outcome is its module, with the queue untouched. -/
theorem ok_on (t : State) (h : t.boot ≠ .off) : ok t m = .next { t with toModule := m } := by simp [ok, h]

/-- In OFF a command changes nothing. -/
theorem ok_off (t : State) (h : t.boot = .off) : ok t m = .next t := by simp [ok, h]

/-- A command's outcome is always a next state with the queue untouched. -/
theorem ok_pending (t u : State) (h : ok t m = .next u) : u.pending = t.pending := by
  unfold ok at h; cases h; split <;> rfl

/-- A command's outcome is the state before, or its module. -/
theorem ok_cases (t u : State) (h : ok t m = .next u) : u = t ∨ u = { t with toModule := m } := by
  unfold ok at h; cases h; split
  · exact .inl rfl
  · exact .inr rfl

/-! ### wr -/

@[simp] theorem Module.wr_mem : (m.wr o v).mem = m.mem := rfl
@[simp] theorem Module.wr_now : (m.wr o v).now = m.now := rfl
@[simp] theorem Module.wr_ptpOffset : (m.wr o v).ptpOffset = m.ptpOffset := rfl
@[simp] theorem Module.wr_draws : (m.wr o v).draws = m.draws := rfl
@[simp] theorem Module.wr_busStatus : (m.wr o v).busStatus = m.busStatus := rfl
@[simp] theorem Module.wr_busValue : (m.wr o v).busValue = m.busValue := rfl
@[simp] theorem Module.wr_outbox : (m.wr o v).outbox = m.outbox := rfl
@[simp] theorem Module.wr_seqNext : (m.wr o v).seqNext = m.seqNext := rfl
@[simp] theorem Module.wr_seqLast : (m.wr o v).seqLast = m.seqLast := rfl
@[simp] theorem Module.wr_evNext : (m.wr o v).evNext = m.evNext := rfl
@[simp] theorem Module.wr_trace : (m.wr o v).trace = m.trace := rfl
@[simp] theorem Module.wr_heldEvents : (m.wr o v).heldEvents = m.heldEvents := rfl
@[simp] theorem Module.wr_journal : (m.wr o v).journal = m.journal := rfl
@[simp] theorem Module.wr_sessions : (m.wr o v).sessions = m.sessions := rfl
@[simp] theorem Module.wr_lastTurn : (m.wr o v).lastTurn = m.lastTurn := rfl
@[simp] theorem Module.wr_takeNo : (m.wr o v).takeNo = m.takeNo := rfl
@[simp] theorem Module.wr_sessionGen : (m.wr o v).sessionGen = m.sessionGen := rfl
@[simp] theorem Module.wr_attachWait : (m.wr o v).attachWait = m.attachWait := rfl
@[simp] theorem Module.wr_attachDone : (m.wr o v).attachDone = m.attachDone := rfl
@[simp] theorem Module.wr_noSessionAt : (m.wr o v).noSessionAt = m.noSessionAt := rfl
@[simp] theorem Module.wr_notReadyAt : (m.wr o v).notReadyAt = m.notReadyAt := rfl
@[simp] theorem Module.wr_epoch : (m.wr o v).epoch = m.epoch := rfl
@[simp] theorem Module.wr_packages : (m.wr o v).packages = m.packages := rfl
@[simp] theorem Module.wr_packageGen : (m.wr o v).packageGen = m.packageGen := rfl
@[simp] theorem Module.wr_binds : (m.wr o v).binds = m.binds := rfl
@[simp] theorem Module.wr_winOut : (m.wr o v).winOut = m.winOut := rfl
@[simp] theorem Module.wr_winSeq : (m.wr o v).winSeq = m.winSeq := rfl
@[simp] theorem Module.wr_mcNext : (m.wr o v).mcNext = m.mcNext := rfl
@[simp] theorem Module.wr_mcSend : (m.wr o v).mcSend = m.mcSend := rfl
@[simp] theorem Module.wr_mcRx : (m.wr o v).mcRx = m.mcRx := rfl
@[simp] theorem Module.wr_syncSeen : (m.wr o v).syncSeen = m.syncSeen := rfl
@[simp] theorem Module.wr_netPorts : (m.wr o v).netPorts = m.netPorts := rfl
@[simp] theorem Module.wr_recovery : (m.wr o v).recovery = m.recovery := rfl
@[simp] theorem Module.wr_meters : (m.wr o v).meters = m.meters := rfl
@[simp] theorem Module.wr_rtags : (m.wr o v).rtags = m.rtags := rfl
@[simp] theorem Module.wr_cbNext : (m.wr o v).cbNext = m.cbNext := rfl
@[simp] theorem Module.wr_avtpSeq : (m.wr o v).avtpSeq = m.avtpSeq := rfl
@[simp] theorem Module.wr_clockStep : (m.wr o v).clockStep = m.clockStep := rfl
@[simp] theorem Module.wr_ports : (m.wr o v).ports = m.ports := rfl
@[simp] theorem Module.wr_ctxs : (m.wr o v).ctxs = m.ctxs := rfl
@[simp] theorem Module.wr_cals : (m.wr o v).cals = m.cals := rfl
@[simp] theorem Module.wr_engines : (m.wr o v).engines = m.engines := rfl
@[simp] theorem Module.wr_rotDue : (m.wr o v).rotDue = m.rotDue := rfl
@[simp] theorem Module.wr_sweepNo : (m.wr o v).sweepNo = m.sweepNo := rfl
@[simp] theorem Module.wr_regions : (m.wr o v).regions = m.regions := rfl
@[simp] theorem Module.wr_regionGen : (m.wr o v).regionGen = m.regionGen := rfl
@[simp] theorem Module.wr_gather : (m.wr o v).gather = m.gather := rfl
@[simp] theorem Module.wr_gatherAge : (m.wr o v).gatherAge = m.gatherAge := rfl
@[simp] theorem Module.wr_poison : (m.wr o v).poison = m.poison := rfl
@[simp] theorem Module.wr_ueSectors : (m.wr o v).ueSectors = m.ueSectors := rfl
@[simp] theorem Module.wr_latent : (m.wr o v).latent = m.latent := rfl
@[simp] theorem Module.wr_fills : (m.wr o v).fills = m.fills := rfl
@[simp] theorem Module.wr_dma : (m.wr o v).dma = m.dma := rfl
@[simp] theorem Module.wr_planMoves : (m.wr o v).planMoves = m.planMoves := rfl
@[simp] theorem Module.wr_clips : (m.wr o v).clips = m.clips := rfl
@[simp] theorem Module.wr_wheel : (m.wr o v).wheel = m.wheel := rfl
@[simp] theorem Module.wr_syncs : (m.wr o v).syncs = m.syncs := rfl
@[simp] theorem Module.wr_syncOwner : (m.wr o v).syncOwner = m.syncOwner := rfl
@[simp] theorem Module.wr_hostWaits : (m.wr o v).hostWaits = m.hostWaits := rfl
@[simp] theorem Module.wr_streams : (m.wr o v).streams = m.streams := rfl
@[simp] theorem Module.wr_streamGen : (m.wr o v).streamGen = m.streamGen := rfl
@[simp] theorem Module.wr_admitting : (m.wr o v).admitting = m.admitting := rfl
@[simp] theorem Module.wr_jobs : (m.wr o v).jobs = m.jobs := rfl
@[simp] theorem Module.wr_nextJob : (m.wr o v).nextJob = m.nextJob := rfl
@[simp] theorem Module.wr_withdraws : (m.wr o v).withdraws = m.withdraws := rfl
@[simp] theorem Module.wr_modeChange : (m.wr o v).modeChange = m.modeChange := rfl
@[simp] theorem Module.wr_jobsGated : (m.wr o v).jobsGated = m.jobsGated := rfl
@[simp] theorem Module.wr_transition : (m.wr o v).transition = m.transition := rfl
@[simp] theorem Module.wr_offHeld : (m.wr o v).offHeld = m.offHeld := rfl
@[simp] theorem Module.wr_holdupHigh : (m.wr o v).holdupHigh = m.holdupHigh := rfl
@[simp] theorem Module.wr_idleSamples : (m.wr o v).idleSamples = m.idleSamples := rfl
@[simp] theorem Module.wr_powerSamples : (m.wr o v).powerSamples = m.powerSamples := rfl
@[simp] theorem Module.wr_energyPj : (m.wr o v).energyPj = m.energyPj := rfl
@[simp] theorem Module.wr_atRisk : (m.wr o v).atRisk = m.atRisk := rfl
@[simp] theorem Module.wr_tripped : (m.wr o v).tripped = m.tripped := rfl
@[simp] theorem Module.wr_otp : (m.wr o v).otp = m.otp := rfl
@[simp] theorem Module.wr_flash : (m.wr o v).flash = m.flash := rfl
@[simp] theorem Module.wr_nonce : (m.wr o v).nonce = m.nonce := rfl
@[simp] theorem Module.wr_backoff : (m.wr o v).backoff = m.backoff := rfl
@[simp] theorem Module.wr_backoffEnd : (m.wr o v).backoffEnd = m.backoffEnd := rfl
@[simp] theorem Module.wr_fullFill : (m.wr o v).fullFill = m.fullFill := rfl
@[simp] theorem Module.wr_cpHalted : (m.wr o v).cpHalted = m.cpHalted := rfl
@[simp] theorem Module.wr_engHalted : (m.wr o v).engHalted = m.engHalted := rfl
@[simp] theorem Module.wr_tap : (m.wr o v).tap = m.tap := rfl
@[simp] theorem Module.wr_boot : (m.wr o v).boot = m.boot := rfl
@[simp] theorem Module.wr_dramReady : (m.wr o v).dramReady = m.dramReady := rfl
@[simp] theorem Module.wr_dramFillDue : (m.wr o v).dramFillDue = m.dramFillDue := rfl
@[simp] theorem Module.wr_fwHash : (m.wr o v).fwHash = m.fwHash := rfl
@[simp] theorem Module.wr_library : (m.wr o v).library = m.library := rfl
@[simp] theorem Module.wr_fwVersion : (m.wr o v).fwVersion = m.fwVersion := rfl
@[simp] theorem Module.wr_flogPending : (m.wr o v).flogPending = m.flogPending := rfl
@[simp] theorem Module.wr_cpFaults : (m.wr o v).cpFaults = m.cpFaults := rfl
@[simp] theorem Module.wr_doubleRecord : (m.wr o v).doubleRecord = m.doubleRecord := rfl

/-! ### setFld -/

@[simp] theorem Module.setFld_mem : (m.setFld o b n).mem = m.mem := rfl
@[simp] theorem Module.setFld_now : (m.setFld o b n).now = m.now := rfl
@[simp] theorem Module.setFld_ptpOffset : (m.setFld o b n).ptpOffset = m.ptpOffset := rfl
@[simp] theorem Module.setFld_draws : (m.setFld o b n).draws = m.draws := rfl
@[simp] theorem Module.setFld_busStatus : (m.setFld o b n).busStatus = m.busStatus := rfl
@[simp] theorem Module.setFld_busValue : (m.setFld o b n).busValue = m.busValue := rfl
@[simp] theorem Module.setFld_outbox : (m.setFld o b n).outbox = m.outbox := rfl
@[simp] theorem Module.setFld_seqNext : (m.setFld o b n).seqNext = m.seqNext := rfl
@[simp] theorem Module.setFld_seqLast : (m.setFld o b n).seqLast = m.seqLast := rfl
@[simp] theorem Module.setFld_evNext : (m.setFld o b n).evNext = m.evNext := rfl
@[simp] theorem Module.setFld_trace : (m.setFld o b n).trace = m.trace := rfl
@[simp] theorem Module.setFld_heldEvents : (m.setFld o b n).heldEvents = m.heldEvents := rfl
@[simp] theorem Module.setFld_journal : (m.setFld o b n).journal = m.journal := rfl
@[simp] theorem Module.setFld_sessions : (m.setFld o b n).sessions = m.sessions := rfl
@[simp] theorem Module.setFld_lastTurn : (m.setFld o b n).lastTurn = m.lastTurn := rfl
@[simp] theorem Module.setFld_takeNo : (m.setFld o b n).takeNo = m.takeNo := rfl
@[simp] theorem Module.setFld_sessionGen : (m.setFld o b n).sessionGen = m.sessionGen := rfl
@[simp] theorem Module.setFld_attachWait : (m.setFld o b n).attachWait = m.attachWait := rfl
@[simp] theorem Module.setFld_attachDone : (m.setFld o b n).attachDone = m.attachDone := rfl
@[simp] theorem Module.setFld_noSessionAt : (m.setFld o b n).noSessionAt = m.noSessionAt := rfl
@[simp] theorem Module.setFld_notReadyAt : (m.setFld o b n).notReadyAt = m.notReadyAt := rfl
@[simp] theorem Module.setFld_epoch : (m.setFld o b n).epoch = m.epoch := rfl
@[simp] theorem Module.setFld_packages : (m.setFld o b n).packages = m.packages := rfl
@[simp] theorem Module.setFld_packageGen : (m.setFld o b n).packageGen = m.packageGen := rfl
@[simp] theorem Module.setFld_binds : (m.setFld o b n).binds = m.binds := rfl
@[simp] theorem Module.setFld_winOut : (m.setFld o b n).winOut = m.winOut := rfl
@[simp] theorem Module.setFld_winSeq : (m.setFld o b n).winSeq = m.winSeq := rfl
@[simp] theorem Module.setFld_mcNext : (m.setFld o b n).mcNext = m.mcNext := rfl
@[simp] theorem Module.setFld_mcSend : (m.setFld o b n).mcSend = m.mcSend := rfl
@[simp] theorem Module.setFld_mcRx : (m.setFld o b n).mcRx = m.mcRx := rfl
@[simp] theorem Module.setFld_syncSeen : (m.setFld o b n).syncSeen = m.syncSeen := rfl
@[simp] theorem Module.setFld_netPorts : (m.setFld o b n).netPorts = m.netPorts := rfl
@[simp] theorem Module.setFld_recovery : (m.setFld o b n).recovery = m.recovery := rfl
@[simp] theorem Module.setFld_meters : (m.setFld o b n).meters = m.meters := rfl
@[simp] theorem Module.setFld_rtags : (m.setFld o b n).rtags = m.rtags := rfl
@[simp] theorem Module.setFld_cbNext : (m.setFld o b n).cbNext = m.cbNext := rfl
@[simp] theorem Module.setFld_avtpSeq : (m.setFld o b n).avtpSeq = m.avtpSeq := rfl
@[simp] theorem Module.setFld_clockStep : (m.setFld o b n).clockStep = m.clockStep := rfl
@[simp] theorem Module.setFld_ports : (m.setFld o b n).ports = m.ports := rfl
@[simp] theorem Module.setFld_ctxs : (m.setFld o b n).ctxs = m.ctxs := rfl
@[simp] theorem Module.setFld_cals : (m.setFld o b n).cals = m.cals := rfl
@[simp] theorem Module.setFld_engines : (m.setFld o b n).engines = m.engines := rfl
@[simp] theorem Module.setFld_rotDue : (m.setFld o b n).rotDue = m.rotDue := rfl
@[simp] theorem Module.setFld_sweepNo : (m.setFld o b n).sweepNo = m.sweepNo := rfl
@[simp] theorem Module.setFld_regions : (m.setFld o b n).regions = m.regions := rfl
@[simp] theorem Module.setFld_regionGen : (m.setFld o b n).regionGen = m.regionGen := rfl
@[simp] theorem Module.setFld_gather : (m.setFld o b n).gather = m.gather := rfl
@[simp] theorem Module.setFld_gatherAge : (m.setFld o b n).gatherAge = m.gatherAge := rfl
@[simp] theorem Module.setFld_poison : (m.setFld o b n).poison = m.poison := rfl
@[simp] theorem Module.setFld_ueSectors : (m.setFld o b n).ueSectors = m.ueSectors := rfl
@[simp] theorem Module.setFld_latent : (m.setFld o b n).latent = m.latent := rfl
@[simp] theorem Module.setFld_fills : (m.setFld o b n).fills = m.fills := rfl
@[simp] theorem Module.setFld_dma : (m.setFld o b n).dma = m.dma := rfl
@[simp] theorem Module.setFld_planMoves : (m.setFld o b n).planMoves = m.planMoves := rfl
@[simp] theorem Module.setFld_clips : (m.setFld o b n).clips = m.clips := rfl
@[simp] theorem Module.setFld_wheel : (m.setFld o b n).wheel = m.wheel := rfl
@[simp] theorem Module.setFld_syncs : (m.setFld o b n).syncs = m.syncs := rfl
@[simp] theorem Module.setFld_syncOwner : (m.setFld o b n).syncOwner = m.syncOwner := rfl
@[simp] theorem Module.setFld_hostWaits : (m.setFld o b n).hostWaits = m.hostWaits := rfl
@[simp] theorem Module.setFld_streams : (m.setFld o b n).streams = m.streams := rfl
@[simp] theorem Module.setFld_streamGen : (m.setFld o b n).streamGen = m.streamGen := rfl
@[simp] theorem Module.setFld_admitting : (m.setFld o b n).admitting = m.admitting := rfl
@[simp] theorem Module.setFld_jobs : (m.setFld o b n).jobs = m.jobs := rfl
@[simp] theorem Module.setFld_nextJob : (m.setFld o b n).nextJob = m.nextJob := rfl
@[simp] theorem Module.setFld_withdraws : (m.setFld o b n).withdraws = m.withdraws := rfl
@[simp] theorem Module.setFld_modeChange : (m.setFld o b n).modeChange = m.modeChange := rfl
@[simp] theorem Module.setFld_jobsGated : (m.setFld o b n).jobsGated = m.jobsGated := rfl
@[simp] theorem Module.setFld_transition : (m.setFld o b n).transition = m.transition := rfl
@[simp] theorem Module.setFld_offHeld : (m.setFld o b n).offHeld = m.offHeld := rfl
@[simp] theorem Module.setFld_holdupHigh : (m.setFld o b n).holdupHigh = m.holdupHigh := rfl
@[simp] theorem Module.setFld_idleSamples : (m.setFld o b n).idleSamples = m.idleSamples := rfl
@[simp] theorem Module.setFld_powerSamples : (m.setFld o b n).powerSamples = m.powerSamples := rfl
@[simp] theorem Module.setFld_energyPj : (m.setFld o b n).energyPj = m.energyPj := rfl
@[simp] theorem Module.setFld_atRisk : (m.setFld o b n).atRisk = m.atRisk := rfl
@[simp] theorem Module.setFld_tripped : (m.setFld o b n).tripped = m.tripped := rfl
@[simp] theorem Module.setFld_otp : (m.setFld o b n).otp = m.otp := rfl
@[simp] theorem Module.setFld_flash : (m.setFld o b n).flash = m.flash := rfl
@[simp] theorem Module.setFld_nonce : (m.setFld o b n).nonce = m.nonce := rfl
@[simp] theorem Module.setFld_backoff : (m.setFld o b n).backoff = m.backoff := rfl
@[simp] theorem Module.setFld_backoffEnd : (m.setFld o b n).backoffEnd = m.backoffEnd := rfl
@[simp] theorem Module.setFld_fullFill : (m.setFld o b n).fullFill = m.fullFill := rfl
@[simp] theorem Module.setFld_cpHalted : (m.setFld o b n).cpHalted = m.cpHalted := rfl
@[simp] theorem Module.setFld_engHalted : (m.setFld o b n).engHalted = m.engHalted := rfl
@[simp] theorem Module.setFld_tap : (m.setFld o b n).tap = m.tap := rfl
@[simp] theorem Module.setFld_boot : (m.setFld o b n).boot = m.boot := rfl
@[simp] theorem Module.setFld_dramReady : (m.setFld o b n).dramReady = m.dramReady := rfl
@[simp] theorem Module.setFld_dramFillDue : (m.setFld o b n).dramFillDue = m.dramFillDue := rfl
@[simp] theorem Module.setFld_fwHash : (m.setFld o b n).fwHash = m.fwHash := rfl
@[simp] theorem Module.setFld_library : (m.setFld o b n).library = m.library := rfl
@[simp] theorem Module.setFld_fwVersion : (m.setFld o b n).fwVersion = m.fwVersion := rfl
@[simp] theorem Module.setFld_flogPending : (m.setFld o b n).flogPending = m.flogPending := rfl
@[simp] theorem Module.setFld_cpFaults : (m.setFld o b n).cpFaults = m.cpFaults := rfl
@[simp] theorem Module.setFld_doubleRecord : (m.setFld o b n).doubleRecord = m.doubleRecord := rfl

/-! ### count -/

@[simp] theorem Module.count_mem : (m.count o n).mem = m.mem := rfl
@[simp] theorem Module.count_now : (m.count o n).now = m.now := rfl
@[simp] theorem Module.count_ptpOffset : (m.count o n).ptpOffset = m.ptpOffset := rfl
@[simp] theorem Module.count_draws : (m.count o n).draws = m.draws := rfl
@[simp] theorem Module.count_busStatus : (m.count o n).busStatus = m.busStatus := rfl
@[simp] theorem Module.count_busValue : (m.count o n).busValue = m.busValue := rfl
@[simp] theorem Module.count_outbox : (m.count o n).outbox = m.outbox := rfl
@[simp] theorem Module.count_seqNext : (m.count o n).seqNext = m.seqNext := rfl
@[simp] theorem Module.count_seqLast : (m.count o n).seqLast = m.seqLast := rfl
@[simp] theorem Module.count_evNext : (m.count o n).evNext = m.evNext := rfl
@[simp] theorem Module.count_trace : (m.count o n).trace = m.trace := rfl
@[simp] theorem Module.count_heldEvents : (m.count o n).heldEvents = m.heldEvents := rfl
@[simp] theorem Module.count_journal : (m.count o n).journal = m.journal := rfl
@[simp] theorem Module.count_sessions : (m.count o n).sessions = m.sessions := rfl
@[simp] theorem Module.count_lastTurn : (m.count o n).lastTurn = m.lastTurn := rfl
@[simp] theorem Module.count_takeNo : (m.count o n).takeNo = m.takeNo := rfl
@[simp] theorem Module.count_sessionGen : (m.count o n).sessionGen = m.sessionGen := rfl
@[simp] theorem Module.count_attachWait : (m.count o n).attachWait = m.attachWait := rfl
@[simp] theorem Module.count_attachDone : (m.count o n).attachDone = m.attachDone := rfl
@[simp] theorem Module.count_noSessionAt : (m.count o n).noSessionAt = m.noSessionAt := rfl
@[simp] theorem Module.count_notReadyAt : (m.count o n).notReadyAt = m.notReadyAt := rfl
@[simp] theorem Module.count_epoch : (m.count o n).epoch = m.epoch := rfl
@[simp] theorem Module.count_packages : (m.count o n).packages = m.packages := rfl
@[simp] theorem Module.count_packageGen : (m.count o n).packageGen = m.packageGen := rfl
@[simp] theorem Module.count_binds : (m.count o n).binds = m.binds := rfl
@[simp] theorem Module.count_winOut : (m.count o n).winOut = m.winOut := rfl
@[simp] theorem Module.count_winSeq : (m.count o n).winSeq = m.winSeq := rfl
@[simp] theorem Module.count_mcNext : (m.count o n).mcNext = m.mcNext := rfl
@[simp] theorem Module.count_mcSend : (m.count o n).mcSend = m.mcSend := rfl
@[simp] theorem Module.count_mcRx : (m.count o n).mcRx = m.mcRx := rfl
@[simp] theorem Module.count_syncSeen : (m.count o n).syncSeen = m.syncSeen := rfl
@[simp] theorem Module.count_netPorts : (m.count o n).netPorts = m.netPorts := rfl
@[simp] theorem Module.count_recovery : (m.count o n).recovery = m.recovery := rfl
@[simp] theorem Module.count_meters : (m.count o n).meters = m.meters := rfl
@[simp] theorem Module.count_rtags : (m.count o n).rtags = m.rtags := rfl
@[simp] theorem Module.count_cbNext : (m.count o n).cbNext = m.cbNext := rfl
@[simp] theorem Module.count_avtpSeq : (m.count o n).avtpSeq = m.avtpSeq := rfl
@[simp] theorem Module.count_clockStep : (m.count o n).clockStep = m.clockStep := rfl
@[simp] theorem Module.count_ports : (m.count o n).ports = m.ports := rfl
@[simp] theorem Module.count_ctxs : (m.count o n).ctxs = m.ctxs := rfl
@[simp] theorem Module.count_cals : (m.count o n).cals = m.cals := rfl
@[simp] theorem Module.count_engines : (m.count o n).engines = m.engines := rfl
@[simp] theorem Module.count_rotDue : (m.count o n).rotDue = m.rotDue := rfl
@[simp] theorem Module.count_sweepNo : (m.count o n).sweepNo = m.sweepNo := rfl
@[simp] theorem Module.count_regions : (m.count o n).regions = m.regions := rfl
@[simp] theorem Module.count_regionGen : (m.count o n).regionGen = m.regionGen := rfl
@[simp] theorem Module.count_gather : (m.count o n).gather = m.gather := rfl
@[simp] theorem Module.count_gatherAge : (m.count o n).gatherAge = m.gatherAge := rfl
@[simp] theorem Module.count_poison : (m.count o n).poison = m.poison := rfl
@[simp] theorem Module.count_ueSectors : (m.count o n).ueSectors = m.ueSectors := rfl
@[simp] theorem Module.count_latent : (m.count o n).latent = m.latent := rfl
@[simp] theorem Module.count_fills : (m.count o n).fills = m.fills := rfl
@[simp] theorem Module.count_dma : (m.count o n).dma = m.dma := rfl
@[simp] theorem Module.count_planMoves : (m.count o n).planMoves = m.planMoves := rfl
@[simp] theorem Module.count_clips : (m.count o n).clips = m.clips := rfl
@[simp] theorem Module.count_wheel : (m.count o n).wheel = m.wheel := rfl
@[simp] theorem Module.count_syncs : (m.count o n).syncs = m.syncs := rfl
@[simp] theorem Module.count_syncOwner : (m.count o n).syncOwner = m.syncOwner := rfl
@[simp] theorem Module.count_hostWaits : (m.count o n).hostWaits = m.hostWaits := rfl
@[simp] theorem Module.count_streams : (m.count o n).streams = m.streams := rfl
@[simp] theorem Module.count_streamGen : (m.count o n).streamGen = m.streamGen := rfl
@[simp] theorem Module.count_admitting : (m.count o n).admitting = m.admitting := rfl
@[simp] theorem Module.count_jobs : (m.count o n).jobs = m.jobs := rfl
@[simp] theorem Module.count_nextJob : (m.count o n).nextJob = m.nextJob := rfl
@[simp] theorem Module.count_withdraws : (m.count o n).withdraws = m.withdraws := rfl
@[simp] theorem Module.count_modeChange : (m.count o n).modeChange = m.modeChange := rfl
@[simp] theorem Module.count_jobsGated : (m.count o n).jobsGated = m.jobsGated := rfl
@[simp] theorem Module.count_transition : (m.count o n).transition = m.transition := rfl
@[simp] theorem Module.count_offHeld : (m.count o n).offHeld = m.offHeld := rfl
@[simp] theorem Module.count_holdupHigh : (m.count o n).holdupHigh = m.holdupHigh := rfl
@[simp] theorem Module.count_idleSamples : (m.count o n).idleSamples = m.idleSamples := rfl
@[simp] theorem Module.count_powerSamples : (m.count o n).powerSamples = m.powerSamples := rfl
@[simp] theorem Module.count_energyPj : (m.count o n).energyPj = m.energyPj := rfl
@[simp] theorem Module.count_atRisk : (m.count o n).atRisk = m.atRisk := rfl
@[simp] theorem Module.count_tripped : (m.count o n).tripped = m.tripped := rfl
@[simp] theorem Module.count_otp : (m.count o n).otp = m.otp := rfl
@[simp] theorem Module.count_flash : (m.count o n).flash = m.flash := rfl
@[simp] theorem Module.count_nonce : (m.count o n).nonce = m.nonce := rfl
@[simp] theorem Module.count_backoff : (m.count o n).backoff = m.backoff := rfl
@[simp] theorem Module.count_backoffEnd : (m.count o n).backoffEnd = m.backoffEnd := rfl
@[simp] theorem Module.count_fullFill : (m.count o n).fullFill = m.fullFill := rfl
@[simp] theorem Module.count_cpHalted : (m.count o n).cpHalted = m.cpHalted := rfl
@[simp] theorem Module.count_engHalted : (m.count o n).engHalted = m.engHalted := rfl
@[simp] theorem Module.count_tap : (m.count o n).tap = m.tap := rfl
@[simp] theorem Module.count_boot : (m.count o n).boot = m.boot := rfl
@[simp] theorem Module.count_dramReady : (m.count o n).dramReady = m.dramReady := rfl
@[simp] theorem Module.count_dramFillDue : (m.count o n).dramFillDue = m.dramFillDue := rfl
@[simp] theorem Module.count_fwHash : (m.count o n).fwHash = m.fwHash := rfl
@[simp] theorem Module.count_library : (m.count o n).library = m.library := rfl
@[simp] theorem Module.count_fwVersion : (m.count o n).fwVersion = m.fwVersion := rfl
@[simp] theorem Module.count_flogPending : (m.count o n).flogPending = m.flogPending := rfl
@[simp] theorem Module.count_cpFaults : (m.count o n).cpFaults = m.cpFaults := rfl
@[simp] theorem Module.count_doubleRecord : (m.count o n).doubleRecord = m.doubleRecord := rfl

/-! ### draw -/

@[simp] theorem Module.draw_regs : m.draw.2.regs = m.regs := rfl
@[simp] theorem Module.draw_mem : m.draw.2.mem = m.mem := rfl
@[simp] theorem Module.draw_now : m.draw.2.now = m.now := rfl
@[simp] theorem Module.draw_ptpOffset : m.draw.2.ptpOffset = m.ptpOffset := rfl
@[simp] theorem Module.draw_busStatus : m.draw.2.busStatus = m.busStatus := rfl
@[simp] theorem Module.draw_busValue : m.draw.2.busValue = m.busValue := rfl
@[simp] theorem Module.draw_outbox : m.draw.2.outbox = m.outbox := rfl
@[simp] theorem Module.draw_seqNext : m.draw.2.seqNext = m.seqNext := rfl
@[simp] theorem Module.draw_seqLast : m.draw.2.seqLast = m.seqLast := rfl
@[simp] theorem Module.draw_evNext : m.draw.2.evNext = m.evNext := rfl
@[simp] theorem Module.draw_trace : m.draw.2.trace = m.trace := rfl
@[simp] theorem Module.draw_heldEvents : m.draw.2.heldEvents = m.heldEvents := rfl
@[simp] theorem Module.draw_journal : m.draw.2.journal = m.journal := rfl
@[simp] theorem Module.draw_sessions : m.draw.2.sessions = m.sessions := rfl
@[simp] theorem Module.draw_lastTurn : m.draw.2.lastTurn = m.lastTurn := rfl
@[simp] theorem Module.draw_takeNo : m.draw.2.takeNo = m.takeNo := rfl
@[simp] theorem Module.draw_sessionGen : m.draw.2.sessionGen = m.sessionGen := rfl
@[simp] theorem Module.draw_attachWait : m.draw.2.attachWait = m.attachWait := rfl
@[simp] theorem Module.draw_attachDone : m.draw.2.attachDone = m.attachDone := rfl
@[simp] theorem Module.draw_noSessionAt : m.draw.2.noSessionAt = m.noSessionAt := rfl
@[simp] theorem Module.draw_notReadyAt : m.draw.2.notReadyAt = m.notReadyAt := rfl
@[simp] theorem Module.draw_epoch : m.draw.2.epoch = m.epoch := rfl
@[simp] theorem Module.draw_packages : m.draw.2.packages = m.packages := rfl
@[simp] theorem Module.draw_packageGen : m.draw.2.packageGen = m.packageGen := rfl
@[simp] theorem Module.draw_binds : m.draw.2.binds = m.binds := rfl
@[simp] theorem Module.draw_winOut : m.draw.2.winOut = m.winOut := rfl
@[simp] theorem Module.draw_winSeq : m.draw.2.winSeq = m.winSeq := rfl
@[simp] theorem Module.draw_mcNext : m.draw.2.mcNext = m.mcNext := rfl
@[simp] theorem Module.draw_mcSend : m.draw.2.mcSend = m.mcSend := rfl
@[simp] theorem Module.draw_mcRx : m.draw.2.mcRx = m.mcRx := rfl
@[simp] theorem Module.draw_syncSeen : m.draw.2.syncSeen = m.syncSeen := rfl
@[simp] theorem Module.draw_netPorts : m.draw.2.netPorts = m.netPorts := rfl
@[simp] theorem Module.draw_recovery : m.draw.2.recovery = m.recovery := rfl
@[simp] theorem Module.draw_meters : m.draw.2.meters = m.meters := rfl
@[simp] theorem Module.draw_rtags : m.draw.2.rtags = m.rtags := rfl
@[simp] theorem Module.draw_cbNext : m.draw.2.cbNext = m.cbNext := rfl
@[simp] theorem Module.draw_avtpSeq : m.draw.2.avtpSeq = m.avtpSeq := rfl
@[simp] theorem Module.draw_clockStep : m.draw.2.clockStep = m.clockStep := rfl
@[simp] theorem Module.draw_ports : m.draw.2.ports = m.ports := rfl
@[simp] theorem Module.draw_ctxs : m.draw.2.ctxs = m.ctxs := rfl
@[simp] theorem Module.draw_cals : m.draw.2.cals = m.cals := rfl
@[simp] theorem Module.draw_engines : m.draw.2.engines = m.engines := rfl
@[simp] theorem Module.draw_rotDue : m.draw.2.rotDue = m.rotDue := rfl
@[simp] theorem Module.draw_sweepNo : m.draw.2.sweepNo = m.sweepNo := rfl
@[simp] theorem Module.draw_regions : m.draw.2.regions = m.regions := rfl
@[simp] theorem Module.draw_regionGen : m.draw.2.regionGen = m.regionGen := rfl
@[simp] theorem Module.draw_gather : m.draw.2.gather = m.gather := rfl
@[simp] theorem Module.draw_gatherAge : m.draw.2.gatherAge = m.gatherAge := rfl
@[simp] theorem Module.draw_poison : m.draw.2.poison = m.poison := rfl
@[simp] theorem Module.draw_ueSectors : m.draw.2.ueSectors = m.ueSectors := rfl
@[simp] theorem Module.draw_latent : m.draw.2.latent = m.latent := rfl
@[simp] theorem Module.draw_fills : m.draw.2.fills = m.fills := rfl
@[simp] theorem Module.draw_dma : m.draw.2.dma = m.dma := rfl
@[simp] theorem Module.draw_planMoves : m.draw.2.planMoves = m.planMoves := rfl
@[simp] theorem Module.draw_clips : m.draw.2.clips = m.clips := rfl
@[simp] theorem Module.draw_wheel : m.draw.2.wheel = m.wheel := rfl
@[simp] theorem Module.draw_syncs : m.draw.2.syncs = m.syncs := rfl
@[simp] theorem Module.draw_syncOwner : m.draw.2.syncOwner = m.syncOwner := rfl
@[simp] theorem Module.draw_hostWaits : m.draw.2.hostWaits = m.hostWaits := rfl
@[simp] theorem Module.draw_streams : m.draw.2.streams = m.streams := rfl
@[simp] theorem Module.draw_streamGen : m.draw.2.streamGen = m.streamGen := rfl
@[simp] theorem Module.draw_admitting : m.draw.2.admitting = m.admitting := rfl
@[simp] theorem Module.draw_jobs : m.draw.2.jobs = m.jobs := rfl
@[simp] theorem Module.draw_nextJob : m.draw.2.nextJob = m.nextJob := rfl
@[simp] theorem Module.draw_withdraws : m.draw.2.withdraws = m.withdraws := rfl
@[simp] theorem Module.draw_modeChange : m.draw.2.modeChange = m.modeChange := rfl
@[simp] theorem Module.draw_jobsGated : m.draw.2.jobsGated = m.jobsGated := rfl
@[simp] theorem Module.draw_transition : m.draw.2.transition = m.transition := rfl
@[simp] theorem Module.draw_offHeld : m.draw.2.offHeld = m.offHeld := rfl
@[simp] theorem Module.draw_holdupHigh : m.draw.2.holdupHigh = m.holdupHigh := rfl
@[simp] theorem Module.draw_idleSamples : m.draw.2.idleSamples = m.idleSamples := rfl
@[simp] theorem Module.draw_powerSamples : m.draw.2.powerSamples = m.powerSamples := rfl
@[simp] theorem Module.draw_energyPj : m.draw.2.energyPj = m.energyPj := rfl
@[simp] theorem Module.draw_atRisk : m.draw.2.atRisk = m.atRisk := rfl
@[simp] theorem Module.draw_tripped : m.draw.2.tripped = m.tripped := rfl
@[simp] theorem Module.draw_otp : m.draw.2.otp = m.otp := rfl
@[simp] theorem Module.draw_flash : m.draw.2.flash = m.flash := rfl
@[simp] theorem Module.draw_nonce : m.draw.2.nonce = m.nonce := rfl
@[simp] theorem Module.draw_backoff : m.draw.2.backoff = m.backoff := rfl
@[simp] theorem Module.draw_backoffEnd : m.draw.2.backoffEnd = m.backoffEnd := rfl
@[simp] theorem Module.draw_fullFill : m.draw.2.fullFill = m.fullFill := rfl
@[simp] theorem Module.draw_cpHalted : m.draw.2.cpHalted = m.cpHalted := rfl
@[simp] theorem Module.draw_engHalted : m.draw.2.engHalted = m.engHalted := rfl
@[simp] theorem Module.draw_tap : m.draw.2.tap = m.tap := rfl
@[simp] theorem Module.draw_boot : m.draw.2.boot = m.boot := rfl
@[simp] theorem Module.draw_dramReady : m.draw.2.dramReady = m.dramReady := rfl
@[simp] theorem Module.draw_dramFillDue : m.draw.2.dramFillDue = m.dramFillDue := rfl
@[simp] theorem Module.draw_fwHash : m.draw.2.fwHash = m.fwHash := rfl
@[simp] theorem Module.draw_library : m.draw.2.library = m.library := rfl
@[simp] theorem Module.draw_fwVersion : m.draw.2.fwVersion = m.fwVersion := rfl
@[simp] theorem Module.draw_flogPending : m.draw.2.flogPending = m.flogPending := rfl
@[simp] theorem Module.draw_cpFaults : m.draw.2.cpFaults = m.cpFaults := rfl
@[simp] theorem Module.draw_doubleRecord : m.draw.2.doubleRecord = m.doubleRecord := rfl

/-! ### pick -/

@[simp] theorem Module.pick_regs : (m.pick n).2.regs = m.regs := rfl
@[simp] theorem Module.pick_mem : (m.pick n).2.mem = m.mem := rfl
@[simp] theorem Module.pick_now : (m.pick n).2.now = m.now := rfl
@[simp] theorem Module.pick_ptpOffset : (m.pick n).2.ptpOffset = m.ptpOffset := rfl
@[simp] theorem Module.pick_busStatus : (m.pick n).2.busStatus = m.busStatus := rfl
@[simp] theorem Module.pick_busValue : (m.pick n).2.busValue = m.busValue := rfl
@[simp] theorem Module.pick_outbox : (m.pick n).2.outbox = m.outbox := rfl
@[simp] theorem Module.pick_seqNext : (m.pick n).2.seqNext = m.seqNext := rfl
@[simp] theorem Module.pick_seqLast : (m.pick n).2.seqLast = m.seqLast := rfl
@[simp] theorem Module.pick_evNext : (m.pick n).2.evNext = m.evNext := rfl
@[simp] theorem Module.pick_trace : (m.pick n).2.trace = m.trace := rfl
@[simp] theorem Module.pick_heldEvents : (m.pick n).2.heldEvents = m.heldEvents := rfl
@[simp] theorem Module.pick_journal : (m.pick n).2.journal = m.journal := rfl
@[simp] theorem Module.pick_sessions : (m.pick n).2.sessions = m.sessions := rfl
@[simp] theorem Module.pick_lastTurn : (m.pick n).2.lastTurn = m.lastTurn := rfl
@[simp] theorem Module.pick_takeNo : (m.pick n).2.takeNo = m.takeNo := rfl
@[simp] theorem Module.pick_sessionGen : (m.pick n).2.sessionGen = m.sessionGen := rfl
@[simp] theorem Module.pick_attachWait : (m.pick n).2.attachWait = m.attachWait := rfl
@[simp] theorem Module.pick_attachDone : (m.pick n).2.attachDone = m.attachDone := rfl
@[simp] theorem Module.pick_noSessionAt : (m.pick n).2.noSessionAt = m.noSessionAt := rfl
@[simp] theorem Module.pick_notReadyAt : (m.pick n).2.notReadyAt = m.notReadyAt := rfl
@[simp] theorem Module.pick_epoch : (m.pick n).2.epoch = m.epoch := rfl
@[simp] theorem Module.pick_packages : (m.pick n).2.packages = m.packages := rfl
@[simp] theorem Module.pick_packageGen : (m.pick n).2.packageGen = m.packageGen := rfl
@[simp] theorem Module.pick_binds : (m.pick n).2.binds = m.binds := rfl
@[simp] theorem Module.pick_winOut : (m.pick n).2.winOut = m.winOut := rfl
@[simp] theorem Module.pick_winSeq : (m.pick n).2.winSeq = m.winSeq := rfl
@[simp] theorem Module.pick_mcNext : (m.pick n).2.mcNext = m.mcNext := rfl
@[simp] theorem Module.pick_mcSend : (m.pick n).2.mcSend = m.mcSend := rfl
@[simp] theorem Module.pick_mcRx : (m.pick n).2.mcRx = m.mcRx := rfl
@[simp] theorem Module.pick_syncSeen : (m.pick n).2.syncSeen = m.syncSeen := rfl
@[simp] theorem Module.pick_netPorts : (m.pick n).2.netPorts = m.netPorts := rfl
@[simp] theorem Module.pick_recovery : (m.pick n).2.recovery = m.recovery := rfl
@[simp] theorem Module.pick_meters : (m.pick n).2.meters = m.meters := rfl
@[simp] theorem Module.pick_rtags : (m.pick n).2.rtags = m.rtags := rfl
@[simp] theorem Module.pick_cbNext : (m.pick n).2.cbNext = m.cbNext := rfl
@[simp] theorem Module.pick_avtpSeq : (m.pick n).2.avtpSeq = m.avtpSeq := rfl
@[simp] theorem Module.pick_clockStep : (m.pick n).2.clockStep = m.clockStep := rfl
@[simp] theorem Module.pick_ports : (m.pick n).2.ports = m.ports := rfl
@[simp] theorem Module.pick_ctxs : (m.pick n).2.ctxs = m.ctxs := rfl
@[simp] theorem Module.pick_cals : (m.pick n).2.cals = m.cals := rfl
@[simp] theorem Module.pick_engines : (m.pick n).2.engines = m.engines := rfl
@[simp] theorem Module.pick_rotDue : (m.pick n).2.rotDue = m.rotDue := rfl
@[simp] theorem Module.pick_sweepNo : (m.pick n).2.sweepNo = m.sweepNo := rfl
@[simp] theorem Module.pick_regions : (m.pick n).2.regions = m.regions := rfl
@[simp] theorem Module.pick_regionGen : (m.pick n).2.regionGen = m.regionGen := rfl
@[simp] theorem Module.pick_gather : (m.pick n).2.gather = m.gather := rfl
@[simp] theorem Module.pick_gatherAge : (m.pick n).2.gatherAge = m.gatherAge := rfl
@[simp] theorem Module.pick_poison : (m.pick n).2.poison = m.poison := rfl
@[simp] theorem Module.pick_ueSectors : (m.pick n).2.ueSectors = m.ueSectors := rfl
@[simp] theorem Module.pick_latent : (m.pick n).2.latent = m.latent := rfl
@[simp] theorem Module.pick_fills : (m.pick n).2.fills = m.fills := rfl
@[simp] theorem Module.pick_dma : (m.pick n).2.dma = m.dma := rfl
@[simp] theorem Module.pick_planMoves : (m.pick n).2.planMoves = m.planMoves := rfl
@[simp] theorem Module.pick_clips : (m.pick n).2.clips = m.clips := rfl
@[simp] theorem Module.pick_wheel : (m.pick n).2.wheel = m.wheel := rfl
@[simp] theorem Module.pick_syncs : (m.pick n).2.syncs = m.syncs := rfl
@[simp] theorem Module.pick_syncOwner : (m.pick n).2.syncOwner = m.syncOwner := rfl
@[simp] theorem Module.pick_hostWaits : (m.pick n).2.hostWaits = m.hostWaits := rfl
@[simp] theorem Module.pick_streams : (m.pick n).2.streams = m.streams := rfl
@[simp] theorem Module.pick_streamGen : (m.pick n).2.streamGen = m.streamGen := rfl
@[simp] theorem Module.pick_admitting : (m.pick n).2.admitting = m.admitting := rfl
@[simp] theorem Module.pick_jobs : (m.pick n).2.jobs = m.jobs := rfl
@[simp] theorem Module.pick_nextJob : (m.pick n).2.nextJob = m.nextJob := rfl
@[simp] theorem Module.pick_withdraws : (m.pick n).2.withdraws = m.withdraws := rfl
@[simp] theorem Module.pick_modeChange : (m.pick n).2.modeChange = m.modeChange := rfl
@[simp] theorem Module.pick_jobsGated : (m.pick n).2.jobsGated = m.jobsGated := rfl
@[simp] theorem Module.pick_transition : (m.pick n).2.transition = m.transition := rfl
@[simp] theorem Module.pick_offHeld : (m.pick n).2.offHeld = m.offHeld := rfl
@[simp] theorem Module.pick_holdupHigh : (m.pick n).2.holdupHigh = m.holdupHigh := rfl
@[simp] theorem Module.pick_idleSamples : (m.pick n).2.idleSamples = m.idleSamples := rfl
@[simp] theorem Module.pick_powerSamples : (m.pick n).2.powerSamples = m.powerSamples := rfl
@[simp] theorem Module.pick_energyPj : (m.pick n).2.energyPj = m.energyPj := rfl
@[simp] theorem Module.pick_atRisk : (m.pick n).2.atRisk = m.atRisk := rfl
@[simp] theorem Module.pick_tripped : (m.pick n).2.tripped = m.tripped := rfl
@[simp] theorem Module.pick_otp : (m.pick n).2.otp = m.otp := rfl
@[simp] theorem Module.pick_flash : (m.pick n).2.flash = m.flash := rfl
@[simp] theorem Module.pick_nonce : (m.pick n).2.nonce = m.nonce := rfl
@[simp] theorem Module.pick_backoff : (m.pick n).2.backoff = m.backoff := rfl
@[simp] theorem Module.pick_backoffEnd : (m.pick n).2.backoffEnd = m.backoffEnd := rfl
@[simp] theorem Module.pick_fullFill : (m.pick n).2.fullFill = m.fullFill := rfl
@[simp] theorem Module.pick_cpHalted : (m.pick n).2.cpHalted = m.cpHalted := rfl
@[simp] theorem Module.pick_engHalted : (m.pick n).2.engHalted = m.engHalted := rfl
@[simp] theorem Module.pick_tap : (m.pick n).2.tap = m.tap := rfl
@[simp] theorem Module.pick_boot : (m.pick n).2.boot = m.boot := rfl
@[simp] theorem Module.pick_dramReady : (m.pick n).2.dramReady = m.dramReady := rfl
@[simp] theorem Module.pick_dramFillDue : (m.pick n).2.dramFillDue = m.dramFillDue := rfl
@[simp] theorem Module.pick_fwHash : (m.pick n).2.fwHash = m.fwHash := rfl
@[simp] theorem Module.pick_library : (m.pick n).2.library = m.library := rfl
@[simp] theorem Module.pick_fwVersion : (m.pick n).2.fwVersion = m.fwVersion := rfl
@[simp] theorem Module.pick_flogPending : (m.pick n).2.flogPending = m.flogPending := rfl
@[simp] theorem Module.pick_cpFaults : (m.pick n).2.cpFaults = m.cpFaults := rfl
@[simp] theorem Module.pick_doubleRecord : (m.pick n).2.doubleRecord = m.doubleRecord := rfl

/-! ### tick -/

@[simp] theorem Module.tick_regs : m.tick.regs = m.regs := rfl
@[simp] theorem Module.tick_mem : m.tick.mem = m.mem := rfl
@[simp] theorem Module.tick_ptpOffset : m.tick.ptpOffset = m.ptpOffset := rfl
@[simp] theorem Module.tick_busStatus : m.tick.busStatus = m.busStatus := rfl
@[simp] theorem Module.tick_busValue : m.tick.busValue = m.busValue := rfl
@[simp] theorem Module.tick_outbox : m.tick.outbox = m.outbox := rfl
@[simp] theorem Module.tick_seqNext : m.tick.seqNext = m.seqNext := rfl
@[simp] theorem Module.tick_seqLast : m.tick.seqLast = m.seqLast := rfl
@[simp] theorem Module.tick_evNext : m.tick.evNext = m.evNext := rfl
@[simp] theorem Module.tick_trace : m.tick.trace = m.trace := rfl
@[simp] theorem Module.tick_heldEvents : m.tick.heldEvents = m.heldEvents := rfl
@[simp] theorem Module.tick_journal : m.tick.journal = m.journal := rfl
@[simp] theorem Module.tick_sessions : m.tick.sessions = m.sessions := rfl
@[simp] theorem Module.tick_lastTurn : m.tick.lastTurn = m.lastTurn := rfl
@[simp] theorem Module.tick_takeNo : m.tick.takeNo = m.takeNo := rfl
@[simp] theorem Module.tick_sessionGen : m.tick.sessionGen = m.sessionGen := rfl
@[simp] theorem Module.tick_attachWait : m.tick.attachWait = m.attachWait := rfl
@[simp] theorem Module.tick_attachDone : m.tick.attachDone = m.attachDone := rfl
@[simp] theorem Module.tick_noSessionAt : m.tick.noSessionAt = m.noSessionAt := rfl
@[simp] theorem Module.tick_notReadyAt : m.tick.notReadyAt = m.notReadyAt := rfl
@[simp] theorem Module.tick_epoch : m.tick.epoch = m.epoch := rfl
@[simp] theorem Module.tick_packages : m.tick.packages = m.packages := rfl
@[simp] theorem Module.tick_packageGen : m.tick.packageGen = m.packageGen := rfl
@[simp] theorem Module.tick_binds : m.tick.binds = m.binds := rfl
@[simp] theorem Module.tick_winOut : m.tick.winOut = m.winOut := rfl
@[simp] theorem Module.tick_winSeq : m.tick.winSeq = m.winSeq := rfl
@[simp] theorem Module.tick_mcNext : m.tick.mcNext = m.mcNext := rfl
@[simp] theorem Module.tick_mcSend : m.tick.mcSend = m.mcSend := rfl
@[simp] theorem Module.tick_mcRx : m.tick.mcRx = m.mcRx := rfl
@[simp] theorem Module.tick_syncSeen : m.tick.syncSeen = m.syncSeen := rfl
@[simp] theorem Module.tick_netPorts : m.tick.netPorts = m.netPorts := rfl
@[simp] theorem Module.tick_recovery : m.tick.recovery = m.recovery := rfl
@[simp] theorem Module.tick_meters : m.tick.meters = m.meters := rfl
@[simp] theorem Module.tick_rtags : m.tick.rtags = m.rtags := rfl
@[simp] theorem Module.tick_cbNext : m.tick.cbNext = m.cbNext := rfl
@[simp] theorem Module.tick_avtpSeq : m.tick.avtpSeq = m.avtpSeq := rfl
@[simp] theorem Module.tick_clockStep : m.tick.clockStep = m.clockStep := rfl
@[simp] theorem Module.tick_ports : m.tick.ports = m.ports := rfl
@[simp] theorem Module.tick_ctxs : m.tick.ctxs = m.ctxs := rfl
@[simp] theorem Module.tick_cals : m.tick.cals = m.cals := rfl
@[simp] theorem Module.tick_engines : m.tick.engines = m.engines := rfl
@[simp] theorem Module.tick_rotDue : m.tick.rotDue = m.rotDue := rfl
@[simp] theorem Module.tick_sweepNo : m.tick.sweepNo = m.sweepNo := rfl
@[simp] theorem Module.tick_regions : m.tick.regions = m.regions := rfl
@[simp] theorem Module.tick_regionGen : m.tick.regionGen = m.regionGen := rfl
@[simp] theorem Module.tick_gather : m.tick.gather = m.gather := rfl
@[simp] theorem Module.tick_gatherAge : m.tick.gatherAge = m.gatherAge := rfl
@[simp] theorem Module.tick_poison : m.tick.poison = m.poison := rfl
@[simp] theorem Module.tick_ueSectors : m.tick.ueSectors = m.ueSectors := rfl
@[simp] theorem Module.tick_latent : m.tick.latent = m.latent := rfl
@[simp] theorem Module.tick_fills : m.tick.fills = m.fills := rfl
@[simp] theorem Module.tick_dma : m.tick.dma = m.dma := rfl
@[simp] theorem Module.tick_planMoves : m.tick.planMoves = m.planMoves := rfl
@[simp] theorem Module.tick_clips : m.tick.clips = m.clips := rfl
@[simp] theorem Module.tick_wheel : m.tick.wheel = m.wheel := rfl
@[simp] theorem Module.tick_syncs : m.tick.syncs = m.syncs := rfl
@[simp] theorem Module.tick_syncOwner : m.tick.syncOwner = m.syncOwner := rfl
@[simp] theorem Module.tick_hostWaits : m.tick.hostWaits = m.hostWaits := rfl
@[simp] theorem Module.tick_streams : m.tick.streams = m.streams := rfl
@[simp] theorem Module.tick_streamGen : m.tick.streamGen = m.streamGen := rfl
@[simp] theorem Module.tick_admitting : m.tick.admitting = m.admitting := rfl
@[simp] theorem Module.tick_jobs : m.tick.jobs = m.jobs := rfl
@[simp] theorem Module.tick_nextJob : m.tick.nextJob = m.nextJob := rfl
@[simp] theorem Module.tick_withdraws : m.tick.withdraws = m.withdraws := rfl
@[simp] theorem Module.tick_modeChange : m.tick.modeChange = m.modeChange := rfl
@[simp] theorem Module.tick_jobsGated : m.tick.jobsGated = m.jobsGated := rfl
@[simp] theorem Module.tick_transition : m.tick.transition = m.transition := rfl
@[simp] theorem Module.tick_offHeld : m.tick.offHeld = m.offHeld := rfl
@[simp] theorem Module.tick_holdupHigh : m.tick.holdupHigh = m.holdupHigh := rfl
@[simp] theorem Module.tick_idleSamples : m.tick.idleSamples = m.idleSamples := rfl
@[simp] theorem Module.tick_powerSamples : m.tick.powerSamples = m.powerSamples := rfl
@[simp] theorem Module.tick_energyPj : m.tick.energyPj = m.energyPj := rfl
@[simp] theorem Module.tick_atRisk : m.tick.atRisk = m.atRisk := rfl
@[simp] theorem Module.tick_tripped : m.tick.tripped = m.tripped := rfl
@[simp] theorem Module.tick_otp : m.tick.otp = m.otp := rfl
@[simp] theorem Module.tick_flash : m.tick.flash = m.flash := rfl
@[simp] theorem Module.tick_nonce : m.tick.nonce = m.nonce := rfl
@[simp] theorem Module.tick_backoff : m.tick.backoff = m.backoff := rfl
@[simp] theorem Module.tick_backoffEnd : m.tick.backoffEnd = m.backoffEnd := rfl
@[simp] theorem Module.tick_fullFill : m.tick.fullFill = m.fullFill := rfl
@[simp] theorem Module.tick_cpHalted : m.tick.cpHalted = m.cpHalted := rfl
@[simp] theorem Module.tick_engHalted : m.tick.engHalted = m.engHalted := rfl
@[simp] theorem Module.tick_tap : m.tick.tap = m.tap := rfl
@[simp] theorem Module.tick_boot : m.tick.boot = m.boot := rfl
@[simp] theorem Module.tick_dramReady : m.tick.dramReady = m.dramReady := rfl
@[simp] theorem Module.tick_dramFillDue : m.tick.dramFillDue = m.dramFillDue := rfl
@[simp] theorem Module.tick_fwHash : m.tick.fwHash = m.fwHash := rfl
@[simp] theorem Module.tick_library : m.tick.library = m.library := rfl
@[simp] theorem Module.tick_fwVersion : m.tick.fwVersion = m.fwVersion := rfl
@[simp] theorem Module.tick_flogPending : m.tick.flogPending = m.flogPending := rfl
@[simp] theorem Module.tick_cpFaults : m.tick.cpFaults = m.cpFaults := rfl
@[simp] theorem Module.tick_doubleRecord : m.tick.doubleRecord = m.doubleRecord := rfl

/-! ### setSync -/

@[simp] theorem Module.setSync_regs : (m.setSync o v).regs = m.regs := rfl
@[simp] theorem Module.setSync_mem : (m.setSync o v).mem = m.mem := rfl
@[simp] theorem Module.setSync_now : (m.setSync o v).now = m.now := rfl
@[simp] theorem Module.setSync_ptpOffset : (m.setSync o v).ptpOffset = m.ptpOffset := rfl
@[simp] theorem Module.setSync_draws : (m.setSync o v).draws = m.draws := rfl
@[simp] theorem Module.setSync_busStatus : (m.setSync o v).busStatus = m.busStatus := rfl
@[simp] theorem Module.setSync_busValue : (m.setSync o v).busValue = m.busValue := rfl
@[simp] theorem Module.setSync_outbox : (m.setSync o v).outbox = m.outbox := rfl
@[simp] theorem Module.setSync_seqNext : (m.setSync o v).seqNext = m.seqNext := rfl
@[simp] theorem Module.setSync_seqLast : (m.setSync o v).seqLast = m.seqLast := rfl
@[simp] theorem Module.setSync_evNext : (m.setSync o v).evNext = m.evNext := rfl
@[simp] theorem Module.setSync_trace : (m.setSync o v).trace = m.trace := rfl
@[simp] theorem Module.setSync_heldEvents : (m.setSync o v).heldEvents = m.heldEvents := rfl
@[simp] theorem Module.setSync_journal : (m.setSync o v).journal = m.journal := rfl
@[simp] theorem Module.setSync_sessions : (m.setSync o v).sessions = m.sessions := rfl
@[simp] theorem Module.setSync_lastTurn : (m.setSync o v).lastTurn = m.lastTurn := rfl
@[simp] theorem Module.setSync_takeNo : (m.setSync o v).takeNo = m.takeNo := rfl
@[simp] theorem Module.setSync_sessionGen : (m.setSync o v).sessionGen = m.sessionGen := rfl
@[simp] theorem Module.setSync_attachWait : (m.setSync o v).attachWait = m.attachWait := rfl
@[simp] theorem Module.setSync_attachDone : (m.setSync o v).attachDone = m.attachDone := rfl
@[simp] theorem Module.setSync_noSessionAt : (m.setSync o v).noSessionAt = m.noSessionAt := rfl
@[simp] theorem Module.setSync_notReadyAt : (m.setSync o v).notReadyAt = m.notReadyAt := rfl
@[simp] theorem Module.setSync_epoch : (m.setSync o v).epoch = m.epoch := rfl
@[simp] theorem Module.setSync_packages : (m.setSync o v).packages = m.packages := rfl
@[simp] theorem Module.setSync_packageGen : (m.setSync o v).packageGen = m.packageGen := rfl
@[simp] theorem Module.setSync_binds : (m.setSync o v).binds = m.binds := rfl
@[simp] theorem Module.setSync_winOut : (m.setSync o v).winOut = m.winOut := rfl
@[simp] theorem Module.setSync_winSeq : (m.setSync o v).winSeq = m.winSeq := rfl
@[simp] theorem Module.setSync_mcNext : (m.setSync o v).mcNext = m.mcNext := rfl
@[simp] theorem Module.setSync_mcSend : (m.setSync o v).mcSend = m.mcSend := rfl
@[simp] theorem Module.setSync_mcRx : (m.setSync o v).mcRx = m.mcRx := rfl
@[simp] theorem Module.setSync_syncSeen : (m.setSync o v).syncSeen = m.syncSeen := rfl
@[simp] theorem Module.setSync_netPorts : (m.setSync o v).netPorts = m.netPorts := rfl
@[simp] theorem Module.setSync_recovery : (m.setSync o v).recovery = m.recovery := rfl
@[simp] theorem Module.setSync_meters : (m.setSync o v).meters = m.meters := rfl
@[simp] theorem Module.setSync_rtags : (m.setSync o v).rtags = m.rtags := rfl
@[simp] theorem Module.setSync_cbNext : (m.setSync o v).cbNext = m.cbNext := rfl
@[simp] theorem Module.setSync_avtpSeq : (m.setSync o v).avtpSeq = m.avtpSeq := rfl
@[simp] theorem Module.setSync_clockStep : (m.setSync o v).clockStep = m.clockStep := rfl
@[simp] theorem Module.setSync_ports : (m.setSync o v).ports = m.ports := rfl
@[simp] theorem Module.setSync_ctxs : (m.setSync o v).ctxs = m.ctxs := rfl
@[simp] theorem Module.setSync_cals : (m.setSync o v).cals = m.cals := rfl
@[simp] theorem Module.setSync_engines : (m.setSync o v).engines = m.engines := rfl
@[simp] theorem Module.setSync_rotDue : (m.setSync o v).rotDue = m.rotDue := rfl
@[simp] theorem Module.setSync_sweepNo : (m.setSync o v).sweepNo = m.sweepNo := rfl
@[simp] theorem Module.setSync_regions : (m.setSync o v).regions = m.regions := rfl
@[simp] theorem Module.setSync_regionGen : (m.setSync o v).regionGen = m.regionGen := rfl
@[simp] theorem Module.setSync_gather : (m.setSync o v).gather = m.gather := rfl
@[simp] theorem Module.setSync_gatherAge : (m.setSync o v).gatherAge = m.gatherAge := rfl
@[simp] theorem Module.setSync_poison : (m.setSync o v).poison = m.poison := rfl
@[simp] theorem Module.setSync_ueSectors : (m.setSync o v).ueSectors = m.ueSectors := rfl
@[simp] theorem Module.setSync_latent : (m.setSync o v).latent = m.latent := rfl
@[simp] theorem Module.setSync_fills : (m.setSync o v).fills = m.fills := rfl
@[simp] theorem Module.setSync_dma : (m.setSync o v).dma = m.dma := rfl
@[simp] theorem Module.setSync_planMoves : (m.setSync o v).planMoves = m.planMoves := rfl
@[simp] theorem Module.setSync_clips : (m.setSync o v).clips = m.clips := rfl
@[simp] theorem Module.setSync_wheel : (m.setSync o v).wheel = m.wheel := rfl
@[simp] theorem Module.setSync_syncOwner : (m.setSync o v).syncOwner = m.syncOwner := rfl
@[simp] theorem Module.setSync_hostWaits : (m.setSync o v).hostWaits = m.hostWaits := rfl
@[simp] theorem Module.setSync_streams : (m.setSync o v).streams = m.streams := rfl
@[simp] theorem Module.setSync_streamGen : (m.setSync o v).streamGen = m.streamGen := rfl
@[simp] theorem Module.setSync_admitting : (m.setSync o v).admitting = m.admitting := rfl
@[simp] theorem Module.setSync_jobs : (m.setSync o v).jobs = m.jobs := rfl
@[simp] theorem Module.setSync_nextJob : (m.setSync o v).nextJob = m.nextJob := rfl
@[simp] theorem Module.setSync_withdraws : (m.setSync o v).withdraws = m.withdraws := rfl
@[simp] theorem Module.setSync_modeChange : (m.setSync o v).modeChange = m.modeChange := rfl
@[simp] theorem Module.setSync_jobsGated : (m.setSync o v).jobsGated = m.jobsGated := rfl
@[simp] theorem Module.setSync_transition : (m.setSync o v).transition = m.transition := rfl
@[simp] theorem Module.setSync_offHeld : (m.setSync o v).offHeld = m.offHeld := rfl
@[simp] theorem Module.setSync_holdupHigh : (m.setSync o v).holdupHigh = m.holdupHigh := rfl
@[simp] theorem Module.setSync_idleSamples : (m.setSync o v).idleSamples = m.idleSamples := rfl
@[simp] theorem Module.setSync_powerSamples : (m.setSync o v).powerSamples = m.powerSamples := rfl
@[simp] theorem Module.setSync_energyPj : (m.setSync o v).energyPj = m.energyPj := rfl
@[simp] theorem Module.setSync_atRisk : (m.setSync o v).atRisk = m.atRisk := rfl
@[simp] theorem Module.setSync_tripped : (m.setSync o v).tripped = m.tripped := rfl
@[simp] theorem Module.setSync_otp : (m.setSync o v).otp = m.otp := rfl
@[simp] theorem Module.setSync_flash : (m.setSync o v).flash = m.flash := rfl
@[simp] theorem Module.setSync_nonce : (m.setSync o v).nonce = m.nonce := rfl
@[simp] theorem Module.setSync_backoff : (m.setSync o v).backoff = m.backoff := rfl
@[simp] theorem Module.setSync_backoffEnd : (m.setSync o v).backoffEnd = m.backoffEnd := rfl
@[simp] theorem Module.setSync_fullFill : (m.setSync o v).fullFill = m.fullFill := rfl
@[simp] theorem Module.setSync_cpHalted : (m.setSync o v).cpHalted = m.cpHalted := rfl
@[simp] theorem Module.setSync_engHalted : (m.setSync o v).engHalted = m.engHalted := rfl
@[simp] theorem Module.setSync_tap : (m.setSync o v).tap = m.tap := rfl
@[simp] theorem Module.setSync_boot : (m.setSync o v).boot = m.boot := rfl
@[simp] theorem Module.setSync_dramReady : (m.setSync o v).dramReady = m.dramReady := rfl
@[simp] theorem Module.setSync_dramFillDue : (m.setSync o v).dramFillDue = m.dramFillDue := rfl
@[simp] theorem Module.setSync_fwHash : (m.setSync o v).fwHash = m.fwHash := rfl
@[simp] theorem Module.setSync_library : (m.setSync o v).library = m.library := rfl
@[simp] theorem Module.setSync_fwVersion : (m.setSync o v).fwVersion = m.fwVersion := rfl
@[simp] theorem Module.setSync_flogPending : (m.setSync o v).flogPending = m.flogPending := rfl
@[simp] theorem Module.setSync_cpFaults : (m.setSync o v).cpFaults = m.cpFaults := rfl
@[simp] theorem Module.setSync_doubleRecord : (m.setSync o v).doubleRecord = m.doubleRecord := rfl

/-! ### addSync -/

@[simp] theorem Module.addSync_regs : (m.addSync o v).regs = m.regs := rfl
@[simp] theorem Module.addSync_mem : (m.addSync o v).mem = m.mem := rfl
@[simp] theorem Module.addSync_now : (m.addSync o v).now = m.now := rfl
@[simp] theorem Module.addSync_ptpOffset : (m.addSync o v).ptpOffset = m.ptpOffset := rfl
@[simp] theorem Module.addSync_draws : (m.addSync o v).draws = m.draws := rfl
@[simp] theorem Module.addSync_busStatus : (m.addSync o v).busStatus = m.busStatus := rfl
@[simp] theorem Module.addSync_busValue : (m.addSync o v).busValue = m.busValue := rfl
@[simp] theorem Module.addSync_outbox : (m.addSync o v).outbox = m.outbox := rfl
@[simp] theorem Module.addSync_seqNext : (m.addSync o v).seqNext = m.seqNext := rfl
@[simp] theorem Module.addSync_seqLast : (m.addSync o v).seqLast = m.seqLast := rfl
@[simp] theorem Module.addSync_evNext : (m.addSync o v).evNext = m.evNext := rfl
@[simp] theorem Module.addSync_trace : (m.addSync o v).trace = m.trace := rfl
@[simp] theorem Module.addSync_heldEvents : (m.addSync o v).heldEvents = m.heldEvents := rfl
@[simp] theorem Module.addSync_journal : (m.addSync o v).journal = m.journal := rfl
@[simp] theorem Module.addSync_sessions : (m.addSync o v).sessions = m.sessions := rfl
@[simp] theorem Module.addSync_lastTurn : (m.addSync o v).lastTurn = m.lastTurn := rfl
@[simp] theorem Module.addSync_takeNo : (m.addSync o v).takeNo = m.takeNo := rfl
@[simp] theorem Module.addSync_sessionGen : (m.addSync o v).sessionGen = m.sessionGen := rfl
@[simp] theorem Module.addSync_attachWait : (m.addSync o v).attachWait = m.attachWait := rfl
@[simp] theorem Module.addSync_attachDone : (m.addSync o v).attachDone = m.attachDone := rfl
@[simp] theorem Module.addSync_noSessionAt : (m.addSync o v).noSessionAt = m.noSessionAt := rfl
@[simp] theorem Module.addSync_notReadyAt : (m.addSync o v).notReadyAt = m.notReadyAt := rfl
@[simp] theorem Module.addSync_epoch : (m.addSync o v).epoch = m.epoch := rfl
@[simp] theorem Module.addSync_packages : (m.addSync o v).packages = m.packages := rfl
@[simp] theorem Module.addSync_packageGen : (m.addSync o v).packageGen = m.packageGen := rfl
@[simp] theorem Module.addSync_binds : (m.addSync o v).binds = m.binds := rfl
@[simp] theorem Module.addSync_winOut : (m.addSync o v).winOut = m.winOut := rfl
@[simp] theorem Module.addSync_winSeq : (m.addSync o v).winSeq = m.winSeq := rfl
@[simp] theorem Module.addSync_mcNext : (m.addSync o v).mcNext = m.mcNext := rfl
@[simp] theorem Module.addSync_mcSend : (m.addSync o v).mcSend = m.mcSend := rfl
@[simp] theorem Module.addSync_mcRx : (m.addSync o v).mcRx = m.mcRx := rfl
@[simp] theorem Module.addSync_syncSeen : (m.addSync o v).syncSeen = m.syncSeen := rfl
@[simp] theorem Module.addSync_netPorts : (m.addSync o v).netPorts = m.netPorts := rfl
@[simp] theorem Module.addSync_recovery : (m.addSync o v).recovery = m.recovery := rfl
@[simp] theorem Module.addSync_meters : (m.addSync o v).meters = m.meters := rfl
@[simp] theorem Module.addSync_rtags : (m.addSync o v).rtags = m.rtags := rfl
@[simp] theorem Module.addSync_cbNext : (m.addSync o v).cbNext = m.cbNext := rfl
@[simp] theorem Module.addSync_avtpSeq : (m.addSync o v).avtpSeq = m.avtpSeq := rfl
@[simp] theorem Module.addSync_clockStep : (m.addSync o v).clockStep = m.clockStep := rfl
@[simp] theorem Module.addSync_ports : (m.addSync o v).ports = m.ports := rfl
@[simp] theorem Module.addSync_ctxs : (m.addSync o v).ctxs = m.ctxs := rfl
@[simp] theorem Module.addSync_cals : (m.addSync o v).cals = m.cals := rfl
@[simp] theorem Module.addSync_engines : (m.addSync o v).engines = m.engines := rfl
@[simp] theorem Module.addSync_rotDue : (m.addSync o v).rotDue = m.rotDue := rfl
@[simp] theorem Module.addSync_sweepNo : (m.addSync o v).sweepNo = m.sweepNo := rfl
@[simp] theorem Module.addSync_regions : (m.addSync o v).regions = m.regions := rfl
@[simp] theorem Module.addSync_regionGen : (m.addSync o v).regionGen = m.regionGen := rfl
@[simp] theorem Module.addSync_gather : (m.addSync o v).gather = m.gather := rfl
@[simp] theorem Module.addSync_gatherAge : (m.addSync o v).gatherAge = m.gatherAge := rfl
@[simp] theorem Module.addSync_poison : (m.addSync o v).poison = m.poison := rfl
@[simp] theorem Module.addSync_ueSectors : (m.addSync o v).ueSectors = m.ueSectors := rfl
@[simp] theorem Module.addSync_latent : (m.addSync o v).latent = m.latent := rfl
@[simp] theorem Module.addSync_fills : (m.addSync o v).fills = m.fills := rfl
@[simp] theorem Module.addSync_dma : (m.addSync o v).dma = m.dma := rfl
@[simp] theorem Module.addSync_planMoves : (m.addSync o v).planMoves = m.planMoves := rfl
@[simp] theorem Module.addSync_clips : (m.addSync o v).clips = m.clips := rfl
@[simp] theorem Module.addSync_wheel : (m.addSync o v).wheel = m.wheel := rfl
@[simp] theorem Module.addSync_syncOwner : (m.addSync o v).syncOwner = m.syncOwner := rfl
@[simp] theorem Module.addSync_hostWaits : (m.addSync o v).hostWaits = m.hostWaits := rfl
@[simp] theorem Module.addSync_streams : (m.addSync o v).streams = m.streams := rfl
@[simp] theorem Module.addSync_streamGen : (m.addSync o v).streamGen = m.streamGen := rfl
@[simp] theorem Module.addSync_admitting : (m.addSync o v).admitting = m.admitting := rfl
@[simp] theorem Module.addSync_jobs : (m.addSync o v).jobs = m.jobs := rfl
@[simp] theorem Module.addSync_nextJob : (m.addSync o v).nextJob = m.nextJob := rfl
@[simp] theorem Module.addSync_withdraws : (m.addSync o v).withdraws = m.withdraws := rfl
@[simp] theorem Module.addSync_modeChange : (m.addSync o v).modeChange = m.modeChange := rfl
@[simp] theorem Module.addSync_jobsGated : (m.addSync o v).jobsGated = m.jobsGated := rfl
@[simp] theorem Module.addSync_transition : (m.addSync o v).transition = m.transition := rfl
@[simp] theorem Module.addSync_offHeld : (m.addSync o v).offHeld = m.offHeld := rfl
@[simp] theorem Module.addSync_holdupHigh : (m.addSync o v).holdupHigh = m.holdupHigh := rfl
@[simp] theorem Module.addSync_idleSamples : (m.addSync o v).idleSamples = m.idleSamples := rfl
@[simp] theorem Module.addSync_powerSamples : (m.addSync o v).powerSamples = m.powerSamples := rfl
@[simp] theorem Module.addSync_energyPj : (m.addSync o v).energyPj = m.energyPj := rfl
@[simp] theorem Module.addSync_atRisk : (m.addSync o v).atRisk = m.atRisk := rfl
@[simp] theorem Module.addSync_tripped : (m.addSync o v).tripped = m.tripped := rfl
@[simp] theorem Module.addSync_otp : (m.addSync o v).otp = m.otp := rfl
@[simp] theorem Module.addSync_flash : (m.addSync o v).flash = m.flash := rfl
@[simp] theorem Module.addSync_nonce : (m.addSync o v).nonce = m.nonce := rfl
@[simp] theorem Module.addSync_backoff : (m.addSync o v).backoff = m.backoff := rfl
@[simp] theorem Module.addSync_backoffEnd : (m.addSync o v).backoffEnd = m.backoffEnd := rfl
@[simp] theorem Module.addSync_fullFill : (m.addSync o v).fullFill = m.fullFill := rfl
@[simp] theorem Module.addSync_cpHalted : (m.addSync o v).cpHalted = m.cpHalted := rfl
@[simp] theorem Module.addSync_engHalted : (m.addSync o v).engHalted = m.engHalted := rfl
@[simp] theorem Module.addSync_tap : (m.addSync o v).tap = m.tap := rfl
@[simp] theorem Module.addSync_boot : (m.addSync o v).boot = m.boot := rfl
@[simp] theorem Module.addSync_dramReady : (m.addSync o v).dramReady = m.dramReady := rfl
@[simp] theorem Module.addSync_dramFillDue : (m.addSync o v).dramFillDue = m.dramFillDue := rfl
@[simp] theorem Module.addSync_fwHash : (m.addSync o v).fwHash = m.fwHash := rfl
@[simp] theorem Module.addSync_library : (m.addSync o v).library = m.library := rfl
@[simp] theorem Module.addSync_fwVersion : (m.addSync o v).fwVersion = m.fwVersion := rfl
@[simp] theorem Module.addSync_flogPending : (m.addSync o v).flogPending = m.flogPending := rfl
@[simp] theorem Module.addSync_cpFaults : (m.addSync o v).cpFaults = m.cpFaults := rfl
@[simp] theorem Module.addSync_doubleRecord : (m.addSync o v).doubleRecord = m.doubleRecord := rfl

/-! ### emit -/

@[simp] theorem Module.emit_regs : (m.emit x).regs = m.regs := rfl
@[simp] theorem Module.emit_mem : (m.emit x).mem = m.mem := rfl
@[simp] theorem Module.emit_now : (m.emit x).now = m.now := rfl
@[simp] theorem Module.emit_ptpOffset : (m.emit x).ptpOffset = m.ptpOffset := rfl
@[simp] theorem Module.emit_draws : (m.emit x).draws = m.draws := rfl
@[simp] theorem Module.emit_busStatus : (m.emit x).busStatus = m.busStatus := rfl
@[simp] theorem Module.emit_busValue : (m.emit x).busValue = m.busValue := rfl
@[simp] theorem Module.emit_seqNext : (m.emit x).seqNext = m.seqNext := rfl
@[simp] theorem Module.emit_seqLast : (m.emit x).seqLast = m.seqLast := rfl
@[simp] theorem Module.emit_evNext : (m.emit x).evNext = m.evNext := rfl
@[simp] theorem Module.emit_trace : (m.emit x).trace = m.trace := rfl
@[simp] theorem Module.emit_heldEvents : (m.emit x).heldEvents = m.heldEvents := rfl
@[simp] theorem Module.emit_journal : (m.emit x).journal = m.journal := rfl
@[simp] theorem Module.emit_sessions : (m.emit x).sessions = m.sessions := rfl
@[simp] theorem Module.emit_lastTurn : (m.emit x).lastTurn = m.lastTurn := rfl
@[simp] theorem Module.emit_takeNo : (m.emit x).takeNo = m.takeNo := rfl
@[simp] theorem Module.emit_sessionGen : (m.emit x).sessionGen = m.sessionGen := rfl
@[simp] theorem Module.emit_attachWait : (m.emit x).attachWait = m.attachWait := rfl
@[simp] theorem Module.emit_attachDone : (m.emit x).attachDone = m.attachDone := rfl
@[simp] theorem Module.emit_noSessionAt : (m.emit x).noSessionAt = m.noSessionAt := rfl
@[simp] theorem Module.emit_notReadyAt : (m.emit x).notReadyAt = m.notReadyAt := rfl
@[simp] theorem Module.emit_epoch : (m.emit x).epoch = m.epoch := rfl
@[simp] theorem Module.emit_packages : (m.emit x).packages = m.packages := rfl
@[simp] theorem Module.emit_packageGen : (m.emit x).packageGen = m.packageGen := rfl
@[simp] theorem Module.emit_binds : (m.emit x).binds = m.binds := rfl
@[simp] theorem Module.emit_winOut : (m.emit x).winOut = m.winOut := rfl
@[simp] theorem Module.emit_winSeq : (m.emit x).winSeq = m.winSeq := rfl
@[simp] theorem Module.emit_mcNext : (m.emit x).mcNext = m.mcNext := rfl
@[simp] theorem Module.emit_mcSend : (m.emit x).mcSend = m.mcSend := rfl
@[simp] theorem Module.emit_mcRx : (m.emit x).mcRx = m.mcRx := rfl
@[simp] theorem Module.emit_syncSeen : (m.emit x).syncSeen = m.syncSeen := rfl
@[simp] theorem Module.emit_netPorts : (m.emit x).netPorts = m.netPorts := rfl
@[simp] theorem Module.emit_recovery : (m.emit x).recovery = m.recovery := rfl
@[simp] theorem Module.emit_meters : (m.emit x).meters = m.meters := rfl
@[simp] theorem Module.emit_rtags : (m.emit x).rtags = m.rtags := rfl
@[simp] theorem Module.emit_cbNext : (m.emit x).cbNext = m.cbNext := rfl
@[simp] theorem Module.emit_avtpSeq : (m.emit x).avtpSeq = m.avtpSeq := rfl
@[simp] theorem Module.emit_clockStep : (m.emit x).clockStep = m.clockStep := rfl
@[simp] theorem Module.emit_ports : (m.emit x).ports = m.ports := rfl
@[simp] theorem Module.emit_ctxs : (m.emit x).ctxs = m.ctxs := rfl
@[simp] theorem Module.emit_cals : (m.emit x).cals = m.cals := rfl
@[simp] theorem Module.emit_engines : (m.emit x).engines = m.engines := rfl
@[simp] theorem Module.emit_rotDue : (m.emit x).rotDue = m.rotDue := rfl
@[simp] theorem Module.emit_sweepNo : (m.emit x).sweepNo = m.sweepNo := rfl
@[simp] theorem Module.emit_regions : (m.emit x).regions = m.regions := rfl
@[simp] theorem Module.emit_regionGen : (m.emit x).regionGen = m.regionGen := rfl
@[simp] theorem Module.emit_gather : (m.emit x).gather = m.gather := rfl
@[simp] theorem Module.emit_gatherAge : (m.emit x).gatherAge = m.gatherAge := rfl
@[simp] theorem Module.emit_poison : (m.emit x).poison = m.poison := rfl
@[simp] theorem Module.emit_ueSectors : (m.emit x).ueSectors = m.ueSectors := rfl
@[simp] theorem Module.emit_latent : (m.emit x).latent = m.latent := rfl
@[simp] theorem Module.emit_fills : (m.emit x).fills = m.fills := rfl
@[simp] theorem Module.emit_dma : (m.emit x).dma = m.dma := rfl
@[simp] theorem Module.emit_planMoves : (m.emit x).planMoves = m.planMoves := rfl
@[simp] theorem Module.emit_clips : (m.emit x).clips = m.clips := rfl
@[simp] theorem Module.emit_wheel : (m.emit x).wheel = m.wheel := rfl
@[simp] theorem Module.emit_syncs : (m.emit x).syncs = m.syncs := rfl
@[simp] theorem Module.emit_syncOwner : (m.emit x).syncOwner = m.syncOwner := rfl
@[simp] theorem Module.emit_hostWaits : (m.emit x).hostWaits = m.hostWaits := rfl
@[simp] theorem Module.emit_streams : (m.emit x).streams = m.streams := rfl
@[simp] theorem Module.emit_streamGen : (m.emit x).streamGen = m.streamGen := rfl
@[simp] theorem Module.emit_admitting : (m.emit x).admitting = m.admitting := rfl
@[simp] theorem Module.emit_jobs : (m.emit x).jobs = m.jobs := rfl
@[simp] theorem Module.emit_nextJob : (m.emit x).nextJob = m.nextJob := rfl
@[simp] theorem Module.emit_withdraws : (m.emit x).withdraws = m.withdraws := rfl
@[simp] theorem Module.emit_modeChange : (m.emit x).modeChange = m.modeChange := rfl
@[simp] theorem Module.emit_jobsGated : (m.emit x).jobsGated = m.jobsGated := rfl
@[simp] theorem Module.emit_transition : (m.emit x).transition = m.transition := rfl
@[simp] theorem Module.emit_offHeld : (m.emit x).offHeld = m.offHeld := rfl
@[simp] theorem Module.emit_holdupHigh : (m.emit x).holdupHigh = m.holdupHigh := rfl
@[simp] theorem Module.emit_idleSamples : (m.emit x).idleSamples = m.idleSamples := rfl
@[simp] theorem Module.emit_powerSamples : (m.emit x).powerSamples = m.powerSamples := rfl
@[simp] theorem Module.emit_energyPj : (m.emit x).energyPj = m.energyPj := rfl
@[simp] theorem Module.emit_atRisk : (m.emit x).atRisk = m.atRisk := rfl
@[simp] theorem Module.emit_tripped : (m.emit x).tripped = m.tripped := rfl
@[simp] theorem Module.emit_otp : (m.emit x).otp = m.otp := rfl
@[simp] theorem Module.emit_flash : (m.emit x).flash = m.flash := rfl
@[simp] theorem Module.emit_nonce : (m.emit x).nonce = m.nonce := rfl
@[simp] theorem Module.emit_backoff : (m.emit x).backoff = m.backoff := rfl
@[simp] theorem Module.emit_backoffEnd : (m.emit x).backoffEnd = m.backoffEnd := rfl
@[simp] theorem Module.emit_fullFill : (m.emit x).fullFill = m.fullFill := rfl
@[simp] theorem Module.emit_cpHalted : (m.emit x).cpHalted = m.cpHalted := rfl
@[simp] theorem Module.emit_engHalted : (m.emit x).engHalted = m.engHalted := rfl
@[simp] theorem Module.emit_tap : (m.emit x).tap = m.tap := rfl
@[simp] theorem Module.emit_boot : (m.emit x).boot = m.boot := rfl
@[simp] theorem Module.emit_dramReady : (m.emit x).dramReady = m.dramReady := rfl
@[simp] theorem Module.emit_dramFillDue : (m.emit x).dramFillDue = m.dramFillDue := rfl
@[simp] theorem Module.emit_fwHash : (m.emit x).fwHash = m.fwHash := rfl
@[simp] theorem Module.emit_library : (m.emit x).library = m.library := rfl
@[simp] theorem Module.emit_fwVersion : (m.emit x).fwVersion = m.fwVersion := rfl
@[simp] theorem Module.emit_flogPending : (m.emit x).flogPending = m.flogPending := rfl
@[simp] theorem Module.emit_cpFaults : (m.emit x).cpFaults = m.cpFaults := rfl
@[simp] theorem Module.emit_doubleRecord : (m.emit x).doubleRecord = m.doubleRecord := rfl

/-! ### putByte -/

@[simp] theorem Module.putByte_regs : (m.putByte o y).regs = m.regs := rfl
@[simp] theorem Module.putByte_now : (m.putByte o y).now = m.now := rfl
@[simp] theorem Module.putByte_ptpOffset : (m.putByte o y).ptpOffset = m.ptpOffset := rfl
@[simp] theorem Module.putByte_draws : (m.putByte o y).draws = m.draws := rfl
@[simp] theorem Module.putByte_busStatus : (m.putByte o y).busStatus = m.busStatus := rfl
@[simp] theorem Module.putByte_busValue : (m.putByte o y).busValue = m.busValue := rfl
@[simp] theorem Module.putByte_outbox : (m.putByte o y).outbox = m.outbox := rfl
@[simp] theorem Module.putByte_seqNext : (m.putByte o y).seqNext = m.seqNext := rfl
@[simp] theorem Module.putByte_seqLast : (m.putByte o y).seqLast = m.seqLast := rfl
@[simp] theorem Module.putByte_evNext : (m.putByte o y).evNext = m.evNext := rfl
@[simp] theorem Module.putByte_trace : (m.putByte o y).trace = m.trace := rfl
@[simp] theorem Module.putByte_heldEvents : (m.putByte o y).heldEvents = m.heldEvents := rfl
@[simp] theorem Module.putByte_journal : (m.putByte o y).journal = m.journal := rfl
@[simp] theorem Module.putByte_sessions : (m.putByte o y).sessions = m.sessions := rfl
@[simp] theorem Module.putByte_lastTurn : (m.putByte o y).lastTurn = m.lastTurn := rfl
@[simp] theorem Module.putByte_takeNo : (m.putByte o y).takeNo = m.takeNo := rfl
@[simp] theorem Module.putByte_sessionGen : (m.putByte o y).sessionGen = m.sessionGen := rfl
@[simp] theorem Module.putByte_attachWait : (m.putByte o y).attachWait = m.attachWait := rfl
@[simp] theorem Module.putByte_attachDone : (m.putByte o y).attachDone = m.attachDone := rfl
@[simp] theorem Module.putByte_noSessionAt : (m.putByte o y).noSessionAt = m.noSessionAt := rfl
@[simp] theorem Module.putByte_notReadyAt : (m.putByte o y).notReadyAt = m.notReadyAt := rfl
@[simp] theorem Module.putByte_epoch : (m.putByte o y).epoch = m.epoch := rfl
@[simp] theorem Module.putByte_packages : (m.putByte o y).packages = m.packages := rfl
@[simp] theorem Module.putByte_packageGen : (m.putByte o y).packageGen = m.packageGen := rfl
@[simp] theorem Module.putByte_binds : (m.putByte o y).binds = m.binds := rfl
@[simp] theorem Module.putByte_winOut : (m.putByte o y).winOut = m.winOut := rfl
@[simp] theorem Module.putByte_winSeq : (m.putByte o y).winSeq = m.winSeq := rfl
@[simp] theorem Module.putByte_mcNext : (m.putByte o y).mcNext = m.mcNext := rfl
@[simp] theorem Module.putByte_mcSend : (m.putByte o y).mcSend = m.mcSend := rfl
@[simp] theorem Module.putByte_mcRx : (m.putByte o y).mcRx = m.mcRx := rfl
@[simp] theorem Module.putByte_syncSeen : (m.putByte o y).syncSeen = m.syncSeen := rfl
@[simp] theorem Module.putByte_netPorts : (m.putByte o y).netPorts = m.netPorts := rfl
@[simp] theorem Module.putByte_recovery : (m.putByte o y).recovery = m.recovery := rfl
@[simp] theorem Module.putByte_meters : (m.putByte o y).meters = m.meters := rfl
@[simp] theorem Module.putByte_rtags : (m.putByte o y).rtags = m.rtags := rfl
@[simp] theorem Module.putByte_cbNext : (m.putByte o y).cbNext = m.cbNext := rfl
@[simp] theorem Module.putByte_avtpSeq : (m.putByte o y).avtpSeq = m.avtpSeq := rfl
@[simp] theorem Module.putByte_clockStep : (m.putByte o y).clockStep = m.clockStep := rfl
@[simp] theorem Module.putByte_ports : (m.putByte o y).ports = m.ports := rfl
@[simp] theorem Module.putByte_ctxs : (m.putByte o y).ctxs = m.ctxs := rfl
@[simp] theorem Module.putByte_cals : (m.putByte o y).cals = m.cals := rfl
@[simp] theorem Module.putByte_engines : (m.putByte o y).engines = m.engines := rfl
@[simp] theorem Module.putByte_rotDue : (m.putByte o y).rotDue = m.rotDue := rfl
@[simp] theorem Module.putByte_sweepNo : (m.putByte o y).sweepNo = m.sweepNo := rfl
@[simp] theorem Module.putByte_regions : (m.putByte o y).regions = m.regions := rfl
@[simp] theorem Module.putByte_regionGen : (m.putByte o y).regionGen = m.regionGen := rfl
@[simp] theorem Module.putByte_gather : (m.putByte o y).gather = m.gather := rfl
@[simp] theorem Module.putByte_gatherAge : (m.putByte o y).gatherAge = m.gatherAge := rfl
@[simp] theorem Module.putByte_poison : (m.putByte o y).poison = m.poison := rfl
@[simp] theorem Module.putByte_ueSectors : (m.putByte o y).ueSectors = m.ueSectors := rfl
@[simp] theorem Module.putByte_latent : (m.putByte o y).latent = m.latent := rfl
@[simp] theorem Module.putByte_fills : (m.putByte o y).fills = m.fills := rfl
@[simp] theorem Module.putByte_dma : (m.putByte o y).dma = m.dma := rfl
@[simp] theorem Module.putByte_planMoves : (m.putByte o y).planMoves = m.planMoves := rfl
@[simp] theorem Module.putByte_clips : (m.putByte o y).clips = m.clips := rfl
@[simp] theorem Module.putByte_wheel : (m.putByte o y).wheel = m.wheel := rfl
@[simp] theorem Module.putByte_syncs : (m.putByte o y).syncs = m.syncs := rfl
@[simp] theorem Module.putByte_syncOwner : (m.putByte o y).syncOwner = m.syncOwner := rfl
@[simp] theorem Module.putByte_hostWaits : (m.putByte o y).hostWaits = m.hostWaits := rfl
@[simp] theorem Module.putByte_streams : (m.putByte o y).streams = m.streams := rfl
@[simp] theorem Module.putByte_streamGen : (m.putByte o y).streamGen = m.streamGen := rfl
@[simp] theorem Module.putByte_admitting : (m.putByte o y).admitting = m.admitting := rfl
@[simp] theorem Module.putByte_jobs : (m.putByte o y).jobs = m.jobs := rfl
@[simp] theorem Module.putByte_nextJob : (m.putByte o y).nextJob = m.nextJob := rfl
@[simp] theorem Module.putByte_withdraws : (m.putByte o y).withdraws = m.withdraws := rfl
@[simp] theorem Module.putByte_modeChange : (m.putByte o y).modeChange = m.modeChange := rfl
@[simp] theorem Module.putByte_jobsGated : (m.putByte o y).jobsGated = m.jobsGated := rfl
@[simp] theorem Module.putByte_transition : (m.putByte o y).transition = m.transition := rfl
@[simp] theorem Module.putByte_offHeld : (m.putByte o y).offHeld = m.offHeld := rfl
@[simp] theorem Module.putByte_holdupHigh : (m.putByte o y).holdupHigh = m.holdupHigh := rfl
@[simp] theorem Module.putByte_idleSamples : (m.putByte o y).idleSamples = m.idleSamples := rfl
@[simp] theorem Module.putByte_powerSamples : (m.putByte o y).powerSamples = m.powerSamples := rfl
@[simp] theorem Module.putByte_energyPj : (m.putByte o y).energyPj = m.energyPj := rfl
@[simp] theorem Module.putByte_atRisk : (m.putByte o y).atRisk = m.atRisk := rfl
@[simp] theorem Module.putByte_tripped : (m.putByte o y).tripped = m.tripped := rfl
@[simp] theorem Module.putByte_otp : (m.putByte o y).otp = m.otp := rfl
@[simp] theorem Module.putByte_flash : (m.putByte o y).flash = m.flash := rfl
@[simp] theorem Module.putByte_nonce : (m.putByte o y).nonce = m.nonce := rfl
@[simp] theorem Module.putByte_backoff : (m.putByte o y).backoff = m.backoff := rfl
@[simp] theorem Module.putByte_backoffEnd : (m.putByte o y).backoffEnd = m.backoffEnd := rfl
@[simp] theorem Module.putByte_fullFill : (m.putByte o y).fullFill = m.fullFill := rfl
@[simp] theorem Module.putByte_cpHalted : (m.putByte o y).cpHalted = m.cpHalted := rfl
@[simp] theorem Module.putByte_engHalted : (m.putByte o y).engHalted = m.engHalted := rfl
@[simp] theorem Module.putByte_tap : (m.putByte o y).tap = m.tap := rfl
@[simp] theorem Module.putByte_boot : (m.putByte o y).boot = m.boot := rfl
@[simp] theorem Module.putByte_dramReady : (m.putByte o y).dramReady = m.dramReady := rfl
@[simp] theorem Module.putByte_dramFillDue : (m.putByte o y).dramFillDue = m.dramFillDue := rfl
@[simp] theorem Module.putByte_fwHash : (m.putByte o y).fwHash = m.fwHash := rfl
@[simp] theorem Module.putByte_library : (m.putByte o y).library = m.library := rfl
@[simp] theorem Module.putByte_fwVersion : (m.putByte o y).fwVersion = m.fwVersion := rfl
@[simp] theorem Module.putByte_flogPending : (m.putByte o y).flogPending = m.flogPending := rfl
@[simp] theorem Module.putByte_cpFaults : (m.putByte o y).cpFaults = m.cpFaults := rfl
@[simp] theorem Module.putByte_doubleRecord : (m.putByte o y).doubleRecord = m.doubleRecord := rfl

/-! ### setPort -/

@[simp] theorem Module.setPort_regs : (m.setPort o p).regs = m.regs := rfl
@[simp] theorem Module.setPort_mem : (m.setPort o p).mem = m.mem := rfl
@[simp] theorem Module.setPort_now : (m.setPort o p).now = m.now := rfl
@[simp] theorem Module.setPort_ptpOffset : (m.setPort o p).ptpOffset = m.ptpOffset := rfl
@[simp] theorem Module.setPort_draws : (m.setPort o p).draws = m.draws := rfl
@[simp] theorem Module.setPort_busStatus : (m.setPort o p).busStatus = m.busStatus := rfl
@[simp] theorem Module.setPort_busValue : (m.setPort o p).busValue = m.busValue := rfl
@[simp] theorem Module.setPort_outbox : (m.setPort o p).outbox = m.outbox := rfl
@[simp] theorem Module.setPort_seqNext : (m.setPort o p).seqNext = m.seqNext := rfl
@[simp] theorem Module.setPort_seqLast : (m.setPort o p).seqLast = m.seqLast := rfl
@[simp] theorem Module.setPort_evNext : (m.setPort o p).evNext = m.evNext := rfl
@[simp] theorem Module.setPort_trace : (m.setPort o p).trace = m.trace := rfl
@[simp] theorem Module.setPort_heldEvents : (m.setPort o p).heldEvents = m.heldEvents := rfl
@[simp] theorem Module.setPort_journal : (m.setPort o p).journal = m.journal := rfl
@[simp] theorem Module.setPort_sessions : (m.setPort o p).sessions = m.sessions := rfl
@[simp] theorem Module.setPort_lastTurn : (m.setPort o p).lastTurn = m.lastTurn := rfl
@[simp] theorem Module.setPort_takeNo : (m.setPort o p).takeNo = m.takeNo := rfl
@[simp] theorem Module.setPort_sessionGen : (m.setPort o p).sessionGen = m.sessionGen := rfl
@[simp] theorem Module.setPort_attachWait : (m.setPort o p).attachWait = m.attachWait := rfl
@[simp] theorem Module.setPort_attachDone : (m.setPort o p).attachDone = m.attachDone := rfl
@[simp] theorem Module.setPort_noSessionAt : (m.setPort o p).noSessionAt = m.noSessionAt := rfl
@[simp] theorem Module.setPort_notReadyAt : (m.setPort o p).notReadyAt = m.notReadyAt := rfl
@[simp] theorem Module.setPort_epoch : (m.setPort o p).epoch = m.epoch := rfl
@[simp] theorem Module.setPort_packages : (m.setPort o p).packages = m.packages := rfl
@[simp] theorem Module.setPort_packageGen : (m.setPort o p).packageGen = m.packageGen := rfl
@[simp] theorem Module.setPort_binds : (m.setPort o p).binds = m.binds := rfl
@[simp] theorem Module.setPort_winOut : (m.setPort o p).winOut = m.winOut := rfl
@[simp] theorem Module.setPort_winSeq : (m.setPort o p).winSeq = m.winSeq := rfl
@[simp] theorem Module.setPort_mcNext : (m.setPort o p).mcNext = m.mcNext := rfl
@[simp] theorem Module.setPort_mcSend : (m.setPort o p).mcSend = m.mcSend := rfl
@[simp] theorem Module.setPort_mcRx : (m.setPort o p).mcRx = m.mcRx := rfl
@[simp] theorem Module.setPort_syncSeen : (m.setPort o p).syncSeen = m.syncSeen := rfl
@[simp] theorem Module.setPort_netPorts : (m.setPort o p).netPorts = m.netPorts := rfl
@[simp] theorem Module.setPort_recovery : (m.setPort o p).recovery = m.recovery := rfl
@[simp] theorem Module.setPort_meters : (m.setPort o p).meters = m.meters := rfl
@[simp] theorem Module.setPort_rtags : (m.setPort o p).rtags = m.rtags := rfl
@[simp] theorem Module.setPort_cbNext : (m.setPort o p).cbNext = m.cbNext := rfl
@[simp] theorem Module.setPort_avtpSeq : (m.setPort o p).avtpSeq = m.avtpSeq := rfl
@[simp] theorem Module.setPort_clockStep : (m.setPort o p).clockStep = m.clockStep := rfl
@[simp] theorem Module.setPort_ctxs : (m.setPort o p).ctxs = m.ctxs := rfl
@[simp] theorem Module.setPort_cals : (m.setPort o p).cals = m.cals := rfl
@[simp] theorem Module.setPort_engines : (m.setPort o p).engines = m.engines := rfl
@[simp] theorem Module.setPort_rotDue : (m.setPort o p).rotDue = m.rotDue := rfl
@[simp] theorem Module.setPort_sweepNo : (m.setPort o p).sweepNo = m.sweepNo := rfl
@[simp] theorem Module.setPort_regions : (m.setPort o p).regions = m.regions := rfl
@[simp] theorem Module.setPort_regionGen : (m.setPort o p).regionGen = m.regionGen := rfl
@[simp] theorem Module.setPort_gather : (m.setPort o p).gather = m.gather := rfl
@[simp] theorem Module.setPort_gatherAge : (m.setPort o p).gatherAge = m.gatherAge := rfl
@[simp] theorem Module.setPort_poison : (m.setPort o p).poison = m.poison := rfl
@[simp] theorem Module.setPort_ueSectors : (m.setPort o p).ueSectors = m.ueSectors := rfl
@[simp] theorem Module.setPort_latent : (m.setPort o p).latent = m.latent := rfl
@[simp] theorem Module.setPort_fills : (m.setPort o p).fills = m.fills := rfl
@[simp] theorem Module.setPort_dma : (m.setPort o p).dma = m.dma := rfl
@[simp] theorem Module.setPort_planMoves : (m.setPort o p).planMoves = m.planMoves := rfl
@[simp] theorem Module.setPort_clips : (m.setPort o p).clips = m.clips := rfl
@[simp] theorem Module.setPort_wheel : (m.setPort o p).wheel = m.wheel := rfl
@[simp] theorem Module.setPort_syncs : (m.setPort o p).syncs = m.syncs := rfl
@[simp] theorem Module.setPort_syncOwner : (m.setPort o p).syncOwner = m.syncOwner := rfl
@[simp] theorem Module.setPort_hostWaits : (m.setPort o p).hostWaits = m.hostWaits := rfl
@[simp] theorem Module.setPort_streams : (m.setPort o p).streams = m.streams := rfl
@[simp] theorem Module.setPort_streamGen : (m.setPort o p).streamGen = m.streamGen := rfl
@[simp] theorem Module.setPort_admitting : (m.setPort o p).admitting = m.admitting := rfl
@[simp] theorem Module.setPort_jobs : (m.setPort o p).jobs = m.jobs := rfl
@[simp] theorem Module.setPort_nextJob : (m.setPort o p).nextJob = m.nextJob := rfl
@[simp] theorem Module.setPort_withdraws : (m.setPort o p).withdraws = m.withdraws := rfl
@[simp] theorem Module.setPort_modeChange : (m.setPort o p).modeChange = m.modeChange := rfl
@[simp] theorem Module.setPort_jobsGated : (m.setPort o p).jobsGated = m.jobsGated := rfl
@[simp] theorem Module.setPort_transition : (m.setPort o p).transition = m.transition := rfl
@[simp] theorem Module.setPort_offHeld : (m.setPort o p).offHeld = m.offHeld := rfl
@[simp] theorem Module.setPort_holdupHigh : (m.setPort o p).holdupHigh = m.holdupHigh := rfl
@[simp] theorem Module.setPort_idleSamples : (m.setPort o p).idleSamples = m.idleSamples := rfl
@[simp] theorem Module.setPort_powerSamples : (m.setPort o p).powerSamples = m.powerSamples := rfl
@[simp] theorem Module.setPort_energyPj : (m.setPort o p).energyPj = m.energyPj := rfl
@[simp] theorem Module.setPort_atRisk : (m.setPort o p).atRisk = m.atRisk := rfl
@[simp] theorem Module.setPort_tripped : (m.setPort o p).tripped = m.tripped := rfl
@[simp] theorem Module.setPort_otp : (m.setPort o p).otp = m.otp := rfl
@[simp] theorem Module.setPort_flash : (m.setPort o p).flash = m.flash := rfl
@[simp] theorem Module.setPort_nonce : (m.setPort o p).nonce = m.nonce := rfl
@[simp] theorem Module.setPort_backoff : (m.setPort o p).backoff = m.backoff := rfl
@[simp] theorem Module.setPort_backoffEnd : (m.setPort o p).backoffEnd = m.backoffEnd := rfl
@[simp] theorem Module.setPort_fullFill : (m.setPort o p).fullFill = m.fullFill := rfl
@[simp] theorem Module.setPort_cpHalted : (m.setPort o p).cpHalted = m.cpHalted := rfl
@[simp] theorem Module.setPort_engHalted : (m.setPort o p).engHalted = m.engHalted := rfl
@[simp] theorem Module.setPort_tap : (m.setPort o p).tap = m.tap := rfl
@[simp] theorem Module.setPort_boot : (m.setPort o p).boot = m.boot := rfl
@[simp] theorem Module.setPort_dramReady : (m.setPort o p).dramReady = m.dramReady := rfl
@[simp] theorem Module.setPort_dramFillDue : (m.setPort o p).dramFillDue = m.dramFillDue := rfl
@[simp] theorem Module.setPort_fwHash : (m.setPort o p).fwHash = m.fwHash := rfl
@[simp] theorem Module.setPort_library : (m.setPort o p).library = m.library := rfl
@[simp] theorem Module.setPort_fwVersion : (m.setPort o p).fwVersion = m.fwVersion := rfl
@[simp] theorem Module.setPort_flogPending : (m.setPort o p).flogPending = m.flogPending := rfl
@[simp] theorem Module.setPort_cpFaults : (m.setPort o p).cpFaults = m.cpFaults := rfl
@[simp] theorem Module.setPort_doubleRecord : (m.setPort o p).doubleRecord = m.doubleRecord := rfl

/-! ### setCtx -/

@[simp] theorem Module.setCtx_regs : (m.setCtx o c).regs = m.regs := rfl
@[simp] theorem Module.setCtx_mem : (m.setCtx o c).mem = m.mem := rfl
@[simp] theorem Module.setCtx_now : (m.setCtx o c).now = m.now := rfl
@[simp] theorem Module.setCtx_ptpOffset : (m.setCtx o c).ptpOffset = m.ptpOffset := rfl
@[simp] theorem Module.setCtx_draws : (m.setCtx o c).draws = m.draws := rfl
@[simp] theorem Module.setCtx_busStatus : (m.setCtx o c).busStatus = m.busStatus := rfl
@[simp] theorem Module.setCtx_busValue : (m.setCtx o c).busValue = m.busValue := rfl
@[simp] theorem Module.setCtx_outbox : (m.setCtx o c).outbox = m.outbox := rfl
@[simp] theorem Module.setCtx_seqNext : (m.setCtx o c).seqNext = m.seqNext := rfl
@[simp] theorem Module.setCtx_seqLast : (m.setCtx o c).seqLast = m.seqLast := rfl
@[simp] theorem Module.setCtx_evNext : (m.setCtx o c).evNext = m.evNext := rfl
@[simp] theorem Module.setCtx_trace : (m.setCtx o c).trace = m.trace := rfl
@[simp] theorem Module.setCtx_heldEvents : (m.setCtx o c).heldEvents = m.heldEvents := rfl
@[simp] theorem Module.setCtx_journal : (m.setCtx o c).journal = m.journal := rfl
@[simp] theorem Module.setCtx_sessions : (m.setCtx o c).sessions = m.sessions := rfl
@[simp] theorem Module.setCtx_lastTurn : (m.setCtx o c).lastTurn = m.lastTurn := rfl
@[simp] theorem Module.setCtx_takeNo : (m.setCtx o c).takeNo = m.takeNo := rfl
@[simp] theorem Module.setCtx_sessionGen : (m.setCtx o c).sessionGen = m.sessionGen := rfl
@[simp] theorem Module.setCtx_attachWait : (m.setCtx o c).attachWait = m.attachWait := rfl
@[simp] theorem Module.setCtx_attachDone : (m.setCtx o c).attachDone = m.attachDone := rfl
@[simp] theorem Module.setCtx_noSessionAt : (m.setCtx o c).noSessionAt = m.noSessionAt := rfl
@[simp] theorem Module.setCtx_notReadyAt : (m.setCtx o c).notReadyAt = m.notReadyAt := rfl
@[simp] theorem Module.setCtx_epoch : (m.setCtx o c).epoch = m.epoch := rfl
@[simp] theorem Module.setCtx_packages : (m.setCtx o c).packages = m.packages := rfl
@[simp] theorem Module.setCtx_packageGen : (m.setCtx o c).packageGen = m.packageGen := rfl
@[simp] theorem Module.setCtx_binds : (m.setCtx o c).binds = m.binds := rfl
@[simp] theorem Module.setCtx_winOut : (m.setCtx o c).winOut = m.winOut := rfl
@[simp] theorem Module.setCtx_winSeq : (m.setCtx o c).winSeq = m.winSeq := rfl
@[simp] theorem Module.setCtx_mcNext : (m.setCtx o c).mcNext = m.mcNext := rfl
@[simp] theorem Module.setCtx_mcSend : (m.setCtx o c).mcSend = m.mcSend := rfl
@[simp] theorem Module.setCtx_mcRx : (m.setCtx o c).mcRx = m.mcRx := rfl
@[simp] theorem Module.setCtx_syncSeen : (m.setCtx o c).syncSeen = m.syncSeen := rfl
@[simp] theorem Module.setCtx_netPorts : (m.setCtx o c).netPorts = m.netPorts := rfl
@[simp] theorem Module.setCtx_recovery : (m.setCtx o c).recovery = m.recovery := rfl
@[simp] theorem Module.setCtx_meters : (m.setCtx o c).meters = m.meters := rfl
@[simp] theorem Module.setCtx_rtags : (m.setCtx o c).rtags = m.rtags := rfl
@[simp] theorem Module.setCtx_cbNext : (m.setCtx o c).cbNext = m.cbNext := rfl
@[simp] theorem Module.setCtx_avtpSeq : (m.setCtx o c).avtpSeq = m.avtpSeq := rfl
@[simp] theorem Module.setCtx_clockStep : (m.setCtx o c).clockStep = m.clockStep := rfl
@[simp] theorem Module.setCtx_ports : (m.setCtx o c).ports = m.ports := rfl
@[simp] theorem Module.setCtx_cals : (m.setCtx o c).cals = m.cals := rfl
@[simp] theorem Module.setCtx_engines : (m.setCtx o c).engines = m.engines := rfl
@[simp] theorem Module.setCtx_rotDue : (m.setCtx o c).rotDue = m.rotDue := rfl
@[simp] theorem Module.setCtx_sweepNo : (m.setCtx o c).sweepNo = m.sweepNo := rfl
@[simp] theorem Module.setCtx_regions : (m.setCtx o c).regions = m.regions := rfl
@[simp] theorem Module.setCtx_regionGen : (m.setCtx o c).regionGen = m.regionGen := rfl
@[simp] theorem Module.setCtx_gather : (m.setCtx o c).gather = m.gather := rfl
@[simp] theorem Module.setCtx_gatherAge : (m.setCtx o c).gatherAge = m.gatherAge := rfl
@[simp] theorem Module.setCtx_poison : (m.setCtx o c).poison = m.poison := rfl
@[simp] theorem Module.setCtx_ueSectors : (m.setCtx o c).ueSectors = m.ueSectors := rfl
@[simp] theorem Module.setCtx_latent : (m.setCtx o c).latent = m.latent := rfl
@[simp] theorem Module.setCtx_fills : (m.setCtx o c).fills = m.fills := rfl
@[simp] theorem Module.setCtx_dma : (m.setCtx o c).dma = m.dma := rfl
@[simp] theorem Module.setCtx_planMoves : (m.setCtx o c).planMoves = m.planMoves := rfl
@[simp] theorem Module.setCtx_clips : (m.setCtx o c).clips = m.clips := rfl
@[simp] theorem Module.setCtx_wheel : (m.setCtx o c).wheel = m.wheel := rfl
@[simp] theorem Module.setCtx_syncs : (m.setCtx o c).syncs = m.syncs := rfl
@[simp] theorem Module.setCtx_syncOwner : (m.setCtx o c).syncOwner = m.syncOwner := rfl
@[simp] theorem Module.setCtx_hostWaits : (m.setCtx o c).hostWaits = m.hostWaits := rfl
@[simp] theorem Module.setCtx_streams : (m.setCtx o c).streams = m.streams := rfl
@[simp] theorem Module.setCtx_streamGen : (m.setCtx o c).streamGen = m.streamGen := rfl
@[simp] theorem Module.setCtx_admitting : (m.setCtx o c).admitting = m.admitting := rfl
@[simp] theorem Module.setCtx_jobs : (m.setCtx o c).jobs = m.jobs := rfl
@[simp] theorem Module.setCtx_nextJob : (m.setCtx o c).nextJob = m.nextJob := rfl
@[simp] theorem Module.setCtx_withdraws : (m.setCtx o c).withdraws = m.withdraws := rfl
@[simp] theorem Module.setCtx_modeChange : (m.setCtx o c).modeChange = m.modeChange := rfl
@[simp] theorem Module.setCtx_jobsGated : (m.setCtx o c).jobsGated = m.jobsGated := rfl
@[simp] theorem Module.setCtx_transition : (m.setCtx o c).transition = m.transition := rfl
@[simp] theorem Module.setCtx_offHeld : (m.setCtx o c).offHeld = m.offHeld := rfl
@[simp] theorem Module.setCtx_holdupHigh : (m.setCtx o c).holdupHigh = m.holdupHigh := rfl
@[simp] theorem Module.setCtx_idleSamples : (m.setCtx o c).idleSamples = m.idleSamples := rfl
@[simp] theorem Module.setCtx_powerSamples : (m.setCtx o c).powerSamples = m.powerSamples := rfl
@[simp] theorem Module.setCtx_energyPj : (m.setCtx o c).energyPj = m.energyPj := rfl
@[simp] theorem Module.setCtx_atRisk : (m.setCtx o c).atRisk = m.atRisk := rfl
@[simp] theorem Module.setCtx_tripped : (m.setCtx o c).tripped = m.tripped := rfl
@[simp] theorem Module.setCtx_otp : (m.setCtx o c).otp = m.otp := rfl
@[simp] theorem Module.setCtx_flash : (m.setCtx o c).flash = m.flash := rfl
@[simp] theorem Module.setCtx_nonce : (m.setCtx o c).nonce = m.nonce := rfl
@[simp] theorem Module.setCtx_backoff : (m.setCtx o c).backoff = m.backoff := rfl
@[simp] theorem Module.setCtx_backoffEnd : (m.setCtx o c).backoffEnd = m.backoffEnd := rfl
@[simp] theorem Module.setCtx_fullFill : (m.setCtx o c).fullFill = m.fullFill := rfl
@[simp] theorem Module.setCtx_cpHalted : (m.setCtx o c).cpHalted = m.cpHalted := rfl
@[simp] theorem Module.setCtx_engHalted : (m.setCtx o c).engHalted = m.engHalted := rfl
@[simp] theorem Module.setCtx_tap : (m.setCtx o c).tap = m.tap := rfl
@[simp] theorem Module.setCtx_boot : (m.setCtx o c).boot = m.boot := rfl
@[simp] theorem Module.setCtx_dramReady : (m.setCtx o c).dramReady = m.dramReady := rfl
@[simp] theorem Module.setCtx_dramFillDue : (m.setCtx o c).dramFillDue = m.dramFillDue := rfl
@[simp] theorem Module.setCtx_fwHash : (m.setCtx o c).fwHash = m.fwHash := rfl
@[simp] theorem Module.setCtx_library : (m.setCtx o c).library = m.library := rfl
@[simp] theorem Module.setCtx_fwVersion : (m.setCtx o c).fwVersion = m.fwVersion := rfl
@[simp] theorem Module.setCtx_flogPending : (m.setCtx o c).flogPending = m.flogPending := rfl
@[simp] theorem Module.setCtx_cpFaults : (m.setCtx o c).cpFaults = m.cpFaults := rfl
@[simp] theorem Module.setCtx_doubleRecord : (m.setCtx o c).doubleRecord = m.doubleRecord := rfl

/-! ### setEng -/

@[simp] theorem Module.setEng_regs : (m.setEng e g).regs = m.regs := rfl
@[simp] theorem Module.setEng_mem : (m.setEng e g).mem = m.mem := rfl
@[simp] theorem Module.setEng_now : (m.setEng e g).now = m.now := rfl
@[simp] theorem Module.setEng_ptpOffset : (m.setEng e g).ptpOffset = m.ptpOffset := rfl
@[simp] theorem Module.setEng_draws : (m.setEng e g).draws = m.draws := rfl
@[simp] theorem Module.setEng_busStatus : (m.setEng e g).busStatus = m.busStatus := rfl
@[simp] theorem Module.setEng_busValue : (m.setEng e g).busValue = m.busValue := rfl
@[simp] theorem Module.setEng_outbox : (m.setEng e g).outbox = m.outbox := rfl
@[simp] theorem Module.setEng_seqNext : (m.setEng e g).seqNext = m.seqNext := rfl
@[simp] theorem Module.setEng_seqLast : (m.setEng e g).seqLast = m.seqLast := rfl
@[simp] theorem Module.setEng_evNext : (m.setEng e g).evNext = m.evNext := rfl
@[simp] theorem Module.setEng_trace : (m.setEng e g).trace = m.trace := rfl
@[simp] theorem Module.setEng_heldEvents : (m.setEng e g).heldEvents = m.heldEvents := rfl
@[simp] theorem Module.setEng_journal : (m.setEng e g).journal = m.journal := rfl
@[simp] theorem Module.setEng_sessions : (m.setEng e g).sessions = m.sessions := rfl
@[simp] theorem Module.setEng_lastTurn : (m.setEng e g).lastTurn = m.lastTurn := rfl
@[simp] theorem Module.setEng_takeNo : (m.setEng e g).takeNo = m.takeNo := rfl
@[simp] theorem Module.setEng_sessionGen : (m.setEng e g).sessionGen = m.sessionGen := rfl
@[simp] theorem Module.setEng_attachWait : (m.setEng e g).attachWait = m.attachWait := rfl
@[simp] theorem Module.setEng_attachDone : (m.setEng e g).attachDone = m.attachDone := rfl
@[simp] theorem Module.setEng_noSessionAt : (m.setEng e g).noSessionAt = m.noSessionAt := rfl
@[simp] theorem Module.setEng_notReadyAt : (m.setEng e g).notReadyAt = m.notReadyAt := rfl
@[simp] theorem Module.setEng_epoch : (m.setEng e g).epoch = m.epoch := rfl
@[simp] theorem Module.setEng_packages : (m.setEng e g).packages = m.packages := rfl
@[simp] theorem Module.setEng_packageGen : (m.setEng e g).packageGen = m.packageGen := rfl
@[simp] theorem Module.setEng_binds : (m.setEng e g).binds = m.binds := rfl
@[simp] theorem Module.setEng_winOut : (m.setEng e g).winOut = m.winOut := rfl
@[simp] theorem Module.setEng_winSeq : (m.setEng e g).winSeq = m.winSeq := rfl
@[simp] theorem Module.setEng_mcNext : (m.setEng e g).mcNext = m.mcNext := rfl
@[simp] theorem Module.setEng_mcSend : (m.setEng e g).mcSend = m.mcSend := rfl
@[simp] theorem Module.setEng_mcRx : (m.setEng e g).mcRx = m.mcRx := rfl
@[simp] theorem Module.setEng_syncSeen : (m.setEng e g).syncSeen = m.syncSeen := rfl
@[simp] theorem Module.setEng_netPorts : (m.setEng e g).netPorts = m.netPorts := rfl
@[simp] theorem Module.setEng_recovery : (m.setEng e g).recovery = m.recovery := rfl
@[simp] theorem Module.setEng_meters : (m.setEng e g).meters = m.meters := rfl
@[simp] theorem Module.setEng_rtags : (m.setEng e g).rtags = m.rtags := rfl
@[simp] theorem Module.setEng_cbNext : (m.setEng e g).cbNext = m.cbNext := rfl
@[simp] theorem Module.setEng_avtpSeq : (m.setEng e g).avtpSeq = m.avtpSeq := rfl
@[simp] theorem Module.setEng_clockStep : (m.setEng e g).clockStep = m.clockStep := rfl
@[simp] theorem Module.setEng_ports : (m.setEng e g).ports = m.ports := rfl
@[simp] theorem Module.setEng_ctxs : (m.setEng e g).ctxs = m.ctxs := rfl
@[simp] theorem Module.setEng_cals : (m.setEng e g).cals = m.cals := rfl
@[simp] theorem Module.setEng_rotDue : (m.setEng e g).rotDue = m.rotDue := rfl
@[simp] theorem Module.setEng_sweepNo : (m.setEng e g).sweepNo = m.sweepNo := rfl
@[simp] theorem Module.setEng_regions : (m.setEng e g).regions = m.regions := rfl
@[simp] theorem Module.setEng_regionGen : (m.setEng e g).regionGen = m.regionGen := rfl
@[simp] theorem Module.setEng_gather : (m.setEng e g).gather = m.gather := rfl
@[simp] theorem Module.setEng_gatherAge : (m.setEng e g).gatherAge = m.gatherAge := rfl
@[simp] theorem Module.setEng_poison : (m.setEng e g).poison = m.poison := rfl
@[simp] theorem Module.setEng_ueSectors : (m.setEng e g).ueSectors = m.ueSectors := rfl
@[simp] theorem Module.setEng_latent : (m.setEng e g).latent = m.latent := rfl
@[simp] theorem Module.setEng_fills : (m.setEng e g).fills = m.fills := rfl
@[simp] theorem Module.setEng_dma : (m.setEng e g).dma = m.dma := rfl
@[simp] theorem Module.setEng_planMoves : (m.setEng e g).planMoves = m.planMoves := rfl
@[simp] theorem Module.setEng_clips : (m.setEng e g).clips = m.clips := rfl
@[simp] theorem Module.setEng_wheel : (m.setEng e g).wheel = m.wheel := rfl
@[simp] theorem Module.setEng_syncs : (m.setEng e g).syncs = m.syncs := rfl
@[simp] theorem Module.setEng_syncOwner : (m.setEng e g).syncOwner = m.syncOwner := rfl
@[simp] theorem Module.setEng_hostWaits : (m.setEng e g).hostWaits = m.hostWaits := rfl
@[simp] theorem Module.setEng_streams : (m.setEng e g).streams = m.streams := rfl
@[simp] theorem Module.setEng_streamGen : (m.setEng e g).streamGen = m.streamGen := rfl
@[simp] theorem Module.setEng_admitting : (m.setEng e g).admitting = m.admitting := rfl
@[simp] theorem Module.setEng_jobs : (m.setEng e g).jobs = m.jobs := rfl
@[simp] theorem Module.setEng_nextJob : (m.setEng e g).nextJob = m.nextJob := rfl
@[simp] theorem Module.setEng_withdraws : (m.setEng e g).withdraws = m.withdraws := rfl
@[simp] theorem Module.setEng_modeChange : (m.setEng e g).modeChange = m.modeChange := rfl
@[simp] theorem Module.setEng_jobsGated : (m.setEng e g).jobsGated = m.jobsGated := rfl
@[simp] theorem Module.setEng_transition : (m.setEng e g).transition = m.transition := rfl
@[simp] theorem Module.setEng_offHeld : (m.setEng e g).offHeld = m.offHeld := rfl
@[simp] theorem Module.setEng_holdupHigh : (m.setEng e g).holdupHigh = m.holdupHigh := rfl
@[simp] theorem Module.setEng_idleSamples : (m.setEng e g).idleSamples = m.idleSamples := rfl
@[simp] theorem Module.setEng_powerSamples : (m.setEng e g).powerSamples = m.powerSamples := rfl
@[simp] theorem Module.setEng_energyPj : (m.setEng e g).energyPj = m.energyPj := rfl
@[simp] theorem Module.setEng_atRisk : (m.setEng e g).atRisk = m.atRisk := rfl
@[simp] theorem Module.setEng_tripped : (m.setEng e g).tripped = m.tripped := rfl
@[simp] theorem Module.setEng_otp : (m.setEng e g).otp = m.otp := rfl
@[simp] theorem Module.setEng_flash : (m.setEng e g).flash = m.flash := rfl
@[simp] theorem Module.setEng_nonce : (m.setEng e g).nonce = m.nonce := rfl
@[simp] theorem Module.setEng_backoff : (m.setEng e g).backoff = m.backoff := rfl
@[simp] theorem Module.setEng_backoffEnd : (m.setEng e g).backoffEnd = m.backoffEnd := rfl
@[simp] theorem Module.setEng_fullFill : (m.setEng e g).fullFill = m.fullFill := rfl
@[simp] theorem Module.setEng_cpHalted : (m.setEng e g).cpHalted = m.cpHalted := rfl
@[simp] theorem Module.setEng_engHalted : (m.setEng e g).engHalted = m.engHalted := rfl
@[simp] theorem Module.setEng_tap : (m.setEng e g).tap = m.tap := rfl
@[simp] theorem Module.setEng_boot : (m.setEng e g).boot = m.boot := rfl
@[simp] theorem Module.setEng_dramReady : (m.setEng e g).dramReady = m.dramReady := rfl
@[simp] theorem Module.setEng_dramFillDue : (m.setEng e g).dramFillDue = m.dramFillDue := rfl
@[simp] theorem Module.setEng_fwHash : (m.setEng e g).fwHash = m.fwHash := rfl
@[simp] theorem Module.setEng_library : (m.setEng e g).library = m.library := rfl
@[simp] theorem Module.setEng_fwVersion : (m.setEng e g).fwVersion = m.fwVersion := rfl
@[simp] theorem Module.setEng_flogPending : (m.setEng e g).flogPending = m.flogPending := rfl
@[simp] theorem Module.setEng_cpFaults : (m.setEng e g).cpFaults = m.cpFaults := rfl
@[simp] theorem Module.setEng_doubleRecord : (m.setEng e g).doubleRecord = m.doubleRecord := rfl

/-! ### setNetPort -/

@[simp] theorem Module.setNetPort_regs : (m.setNetPort o q).regs = m.regs := rfl
@[simp] theorem Module.setNetPort_mem : (m.setNetPort o q).mem = m.mem := rfl
@[simp] theorem Module.setNetPort_now : (m.setNetPort o q).now = m.now := rfl
@[simp] theorem Module.setNetPort_ptpOffset : (m.setNetPort o q).ptpOffset = m.ptpOffset := rfl
@[simp] theorem Module.setNetPort_draws : (m.setNetPort o q).draws = m.draws := rfl
@[simp] theorem Module.setNetPort_busStatus : (m.setNetPort o q).busStatus = m.busStatus := rfl
@[simp] theorem Module.setNetPort_busValue : (m.setNetPort o q).busValue = m.busValue := rfl
@[simp] theorem Module.setNetPort_outbox : (m.setNetPort o q).outbox = m.outbox := rfl
@[simp] theorem Module.setNetPort_seqNext : (m.setNetPort o q).seqNext = m.seqNext := rfl
@[simp] theorem Module.setNetPort_seqLast : (m.setNetPort o q).seqLast = m.seqLast := rfl
@[simp] theorem Module.setNetPort_evNext : (m.setNetPort o q).evNext = m.evNext := rfl
@[simp] theorem Module.setNetPort_trace : (m.setNetPort o q).trace = m.trace := rfl
@[simp] theorem Module.setNetPort_heldEvents : (m.setNetPort o q).heldEvents = m.heldEvents := rfl
@[simp] theorem Module.setNetPort_journal : (m.setNetPort o q).journal = m.journal := rfl
@[simp] theorem Module.setNetPort_sessions : (m.setNetPort o q).sessions = m.sessions := rfl
@[simp] theorem Module.setNetPort_lastTurn : (m.setNetPort o q).lastTurn = m.lastTurn := rfl
@[simp] theorem Module.setNetPort_takeNo : (m.setNetPort o q).takeNo = m.takeNo := rfl
@[simp] theorem Module.setNetPort_sessionGen : (m.setNetPort o q).sessionGen = m.sessionGen := rfl
@[simp] theorem Module.setNetPort_attachWait : (m.setNetPort o q).attachWait = m.attachWait := rfl
@[simp] theorem Module.setNetPort_attachDone : (m.setNetPort o q).attachDone = m.attachDone := rfl
@[simp] theorem Module.setNetPort_noSessionAt : (m.setNetPort o q).noSessionAt = m.noSessionAt := rfl
@[simp] theorem Module.setNetPort_notReadyAt : (m.setNetPort o q).notReadyAt = m.notReadyAt := rfl
@[simp] theorem Module.setNetPort_epoch : (m.setNetPort o q).epoch = m.epoch := rfl
@[simp] theorem Module.setNetPort_packages : (m.setNetPort o q).packages = m.packages := rfl
@[simp] theorem Module.setNetPort_packageGen : (m.setNetPort o q).packageGen = m.packageGen := rfl
@[simp] theorem Module.setNetPort_binds : (m.setNetPort o q).binds = m.binds := rfl
@[simp] theorem Module.setNetPort_winOut : (m.setNetPort o q).winOut = m.winOut := rfl
@[simp] theorem Module.setNetPort_winSeq : (m.setNetPort o q).winSeq = m.winSeq := rfl
@[simp] theorem Module.setNetPort_mcNext : (m.setNetPort o q).mcNext = m.mcNext := rfl
@[simp] theorem Module.setNetPort_mcSend : (m.setNetPort o q).mcSend = m.mcSend := rfl
@[simp] theorem Module.setNetPort_mcRx : (m.setNetPort o q).mcRx = m.mcRx := rfl
@[simp] theorem Module.setNetPort_syncSeen : (m.setNetPort o q).syncSeen = m.syncSeen := rfl
@[simp] theorem Module.setNetPort_recovery : (m.setNetPort o q).recovery = m.recovery := rfl
@[simp] theorem Module.setNetPort_meters : (m.setNetPort o q).meters = m.meters := rfl
@[simp] theorem Module.setNetPort_rtags : (m.setNetPort o q).rtags = m.rtags := rfl
@[simp] theorem Module.setNetPort_cbNext : (m.setNetPort o q).cbNext = m.cbNext := rfl
@[simp] theorem Module.setNetPort_avtpSeq : (m.setNetPort o q).avtpSeq = m.avtpSeq := rfl
@[simp] theorem Module.setNetPort_clockStep : (m.setNetPort o q).clockStep = m.clockStep := rfl
@[simp] theorem Module.setNetPort_ports : (m.setNetPort o q).ports = m.ports := rfl
@[simp] theorem Module.setNetPort_ctxs : (m.setNetPort o q).ctxs = m.ctxs := rfl
@[simp] theorem Module.setNetPort_cals : (m.setNetPort o q).cals = m.cals := rfl
@[simp] theorem Module.setNetPort_engines : (m.setNetPort o q).engines = m.engines := rfl
@[simp] theorem Module.setNetPort_rotDue : (m.setNetPort o q).rotDue = m.rotDue := rfl
@[simp] theorem Module.setNetPort_sweepNo : (m.setNetPort o q).sweepNo = m.sweepNo := rfl
@[simp] theorem Module.setNetPort_regions : (m.setNetPort o q).regions = m.regions := rfl
@[simp] theorem Module.setNetPort_regionGen : (m.setNetPort o q).regionGen = m.regionGen := rfl
@[simp] theorem Module.setNetPort_gather : (m.setNetPort o q).gather = m.gather := rfl
@[simp] theorem Module.setNetPort_gatherAge : (m.setNetPort o q).gatherAge = m.gatherAge := rfl
@[simp] theorem Module.setNetPort_poison : (m.setNetPort o q).poison = m.poison := rfl
@[simp] theorem Module.setNetPort_ueSectors : (m.setNetPort o q).ueSectors = m.ueSectors := rfl
@[simp] theorem Module.setNetPort_latent : (m.setNetPort o q).latent = m.latent := rfl
@[simp] theorem Module.setNetPort_fills : (m.setNetPort o q).fills = m.fills := rfl
@[simp] theorem Module.setNetPort_dma : (m.setNetPort o q).dma = m.dma := rfl
@[simp] theorem Module.setNetPort_planMoves : (m.setNetPort o q).planMoves = m.planMoves := rfl
@[simp] theorem Module.setNetPort_clips : (m.setNetPort o q).clips = m.clips := rfl
@[simp] theorem Module.setNetPort_wheel : (m.setNetPort o q).wheel = m.wheel := rfl
@[simp] theorem Module.setNetPort_syncs : (m.setNetPort o q).syncs = m.syncs := rfl
@[simp] theorem Module.setNetPort_syncOwner : (m.setNetPort o q).syncOwner = m.syncOwner := rfl
@[simp] theorem Module.setNetPort_hostWaits : (m.setNetPort o q).hostWaits = m.hostWaits := rfl
@[simp] theorem Module.setNetPort_streams : (m.setNetPort o q).streams = m.streams := rfl
@[simp] theorem Module.setNetPort_streamGen : (m.setNetPort o q).streamGen = m.streamGen := rfl
@[simp] theorem Module.setNetPort_admitting : (m.setNetPort o q).admitting = m.admitting := rfl
@[simp] theorem Module.setNetPort_jobs : (m.setNetPort o q).jobs = m.jobs := rfl
@[simp] theorem Module.setNetPort_nextJob : (m.setNetPort o q).nextJob = m.nextJob := rfl
@[simp] theorem Module.setNetPort_withdraws : (m.setNetPort o q).withdraws = m.withdraws := rfl
@[simp] theorem Module.setNetPort_modeChange : (m.setNetPort o q).modeChange = m.modeChange := rfl
@[simp] theorem Module.setNetPort_jobsGated : (m.setNetPort o q).jobsGated = m.jobsGated := rfl
@[simp] theorem Module.setNetPort_transition : (m.setNetPort o q).transition = m.transition := rfl
@[simp] theorem Module.setNetPort_offHeld : (m.setNetPort o q).offHeld = m.offHeld := rfl
@[simp] theorem Module.setNetPort_holdupHigh : (m.setNetPort o q).holdupHigh = m.holdupHigh := rfl
@[simp] theorem Module.setNetPort_idleSamples : (m.setNetPort o q).idleSamples = m.idleSamples := rfl
@[simp] theorem Module.setNetPort_powerSamples : (m.setNetPort o q).powerSamples = m.powerSamples := rfl
@[simp] theorem Module.setNetPort_energyPj : (m.setNetPort o q).energyPj = m.energyPj := rfl
@[simp] theorem Module.setNetPort_atRisk : (m.setNetPort o q).atRisk = m.atRisk := rfl
@[simp] theorem Module.setNetPort_tripped : (m.setNetPort o q).tripped = m.tripped := rfl
@[simp] theorem Module.setNetPort_otp : (m.setNetPort o q).otp = m.otp := rfl
@[simp] theorem Module.setNetPort_flash : (m.setNetPort o q).flash = m.flash := rfl
@[simp] theorem Module.setNetPort_nonce : (m.setNetPort o q).nonce = m.nonce := rfl
@[simp] theorem Module.setNetPort_backoff : (m.setNetPort o q).backoff = m.backoff := rfl
@[simp] theorem Module.setNetPort_backoffEnd : (m.setNetPort o q).backoffEnd = m.backoffEnd := rfl
@[simp] theorem Module.setNetPort_fullFill : (m.setNetPort o q).fullFill = m.fullFill := rfl
@[simp] theorem Module.setNetPort_cpHalted : (m.setNetPort o q).cpHalted = m.cpHalted := rfl
@[simp] theorem Module.setNetPort_engHalted : (m.setNetPort o q).engHalted = m.engHalted := rfl
@[simp] theorem Module.setNetPort_tap : (m.setNetPort o q).tap = m.tap := rfl
@[simp] theorem Module.setNetPort_boot : (m.setNetPort o q).boot = m.boot := rfl
@[simp] theorem Module.setNetPort_dramReady : (m.setNetPort o q).dramReady = m.dramReady := rfl
@[simp] theorem Module.setNetPort_dramFillDue : (m.setNetPort o q).dramFillDue = m.dramFillDue := rfl
@[simp] theorem Module.setNetPort_fwHash : (m.setNetPort o q).fwHash = m.fwHash := rfl
@[simp] theorem Module.setNetPort_library : (m.setNetPort o q).library = m.library := rfl
@[simp] theorem Module.setNetPort_fwVersion : (m.setNetPort o q).fwVersion = m.fwVersion := rfl
@[simp] theorem Module.setNetPort_flogPending : (m.setNetPort o q).flogPending = m.flogPending := rfl
@[simp] theorem Module.setNetPort_cpFaults : (m.setNetPort o q).cpFaults = m.cpFaults := rfl
@[simp] theorem Module.setNetPort_doubleRecord : (m.setNetPort o q).doubleRecord = m.doubleRecord := rfl

/-! ### setSession -/

@[simp] theorem Module.setSession_regs : (m.setSession o s).regs = m.regs := rfl
@[simp] theorem Module.setSession_mem : (m.setSession o s).mem = m.mem := rfl
@[simp] theorem Module.setSession_now : (m.setSession o s).now = m.now := rfl
@[simp] theorem Module.setSession_ptpOffset : (m.setSession o s).ptpOffset = m.ptpOffset := rfl
@[simp] theorem Module.setSession_draws : (m.setSession o s).draws = m.draws := rfl
@[simp] theorem Module.setSession_busStatus : (m.setSession o s).busStatus = m.busStatus := rfl
@[simp] theorem Module.setSession_busValue : (m.setSession o s).busValue = m.busValue := rfl
@[simp] theorem Module.setSession_outbox : (m.setSession o s).outbox = m.outbox := rfl
@[simp] theorem Module.setSession_seqNext : (m.setSession o s).seqNext = m.seqNext := rfl
@[simp] theorem Module.setSession_seqLast : (m.setSession o s).seqLast = m.seqLast := rfl
@[simp] theorem Module.setSession_evNext : (m.setSession o s).evNext = m.evNext := rfl
@[simp] theorem Module.setSession_trace : (m.setSession o s).trace = m.trace := rfl
@[simp] theorem Module.setSession_heldEvents : (m.setSession o s).heldEvents = m.heldEvents := rfl
@[simp] theorem Module.setSession_journal : (m.setSession o s).journal = m.journal := rfl
@[simp] theorem Module.setSession_lastTurn : (m.setSession o s).lastTurn = m.lastTurn := rfl
@[simp] theorem Module.setSession_takeNo : (m.setSession o s).takeNo = m.takeNo := rfl
@[simp] theorem Module.setSession_sessionGen : (m.setSession o s).sessionGen = m.sessionGen := rfl
@[simp] theorem Module.setSession_attachWait : (m.setSession o s).attachWait = m.attachWait := rfl
@[simp] theorem Module.setSession_attachDone : (m.setSession o s).attachDone = m.attachDone := rfl
@[simp] theorem Module.setSession_noSessionAt : (m.setSession o s).noSessionAt = m.noSessionAt := rfl
@[simp] theorem Module.setSession_notReadyAt : (m.setSession o s).notReadyAt = m.notReadyAt := rfl
@[simp] theorem Module.setSession_epoch : (m.setSession o s).epoch = m.epoch := rfl
@[simp] theorem Module.setSession_packages : (m.setSession o s).packages = m.packages := rfl
@[simp] theorem Module.setSession_packageGen : (m.setSession o s).packageGen = m.packageGen := rfl
@[simp] theorem Module.setSession_binds : (m.setSession o s).binds = m.binds := rfl
@[simp] theorem Module.setSession_winOut : (m.setSession o s).winOut = m.winOut := rfl
@[simp] theorem Module.setSession_winSeq : (m.setSession o s).winSeq = m.winSeq := rfl
@[simp] theorem Module.setSession_mcNext : (m.setSession o s).mcNext = m.mcNext := rfl
@[simp] theorem Module.setSession_mcSend : (m.setSession o s).mcSend = m.mcSend := rfl
@[simp] theorem Module.setSession_mcRx : (m.setSession o s).mcRx = m.mcRx := rfl
@[simp] theorem Module.setSession_syncSeen : (m.setSession o s).syncSeen = m.syncSeen := rfl
@[simp] theorem Module.setSession_netPorts : (m.setSession o s).netPorts = m.netPorts := rfl
@[simp] theorem Module.setSession_recovery : (m.setSession o s).recovery = m.recovery := rfl
@[simp] theorem Module.setSession_meters : (m.setSession o s).meters = m.meters := rfl
@[simp] theorem Module.setSession_rtags : (m.setSession o s).rtags = m.rtags := rfl
@[simp] theorem Module.setSession_cbNext : (m.setSession o s).cbNext = m.cbNext := rfl
@[simp] theorem Module.setSession_avtpSeq : (m.setSession o s).avtpSeq = m.avtpSeq := rfl
@[simp] theorem Module.setSession_clockStep : (m.setSession o s).clockStep = m.clockStep := rfl
@[simp] theorem Module.setSession_ports : (m.setSession o s).ports = m.ports := rfl
@[simp] theorem Module.setSession_ctxs : (m.setSession o s).ctxs = m.ctxs := rfl
@[simp] theorem Module.setSession_cals : (m.setSession o s).cals = m.cals := rfl
@[simp] theorem Module.setSession_engines : (m.setSession o s).engines = m.engines := rfl
@[simp] theorem Module.setSession_rotDue : (m.setSession o s).rotDue = m.rotDue := rfl
@[simp] theorem Module.setSession_sweepNo : (m.setSession o s).sweepNo = m.sweepNo := rfl
@[simp] theorem Module.setSession_regions : (m.setSession o s).regions = m.regions := rfl
@[simp] theorem Module.setSession_regionGen : (m.setSession o s).regionGen = m.regionGen := rfl
@[simp] theorem Module.setSession_gather : (m.setSession o s).gather = m.gather := rfl
@[simp] theorem Module.setSession_gatherAge : (m.setSession o s).gatherAge = m.gatherAge := rfl
@[simp] theorem Module.setSession_poison : (m.setSession o s).poison = m.poison := rfl
@[simp] theorem Module.setSession_ueSectors : (m.setSession o s).ueSectors = m.ueSectors := rfl
@[simp] theorem Module.setSession_latent : (m.setSession o s).latent = m.latent := rfl
@[simp] theorem Module.setSession_fills : (m.setSession o s).fills = m.fills := rfl
@[simp] theorem Module.setSession_dma : (m.setSession o s).dma = m.dma := rfl
@[simp] theorem Module.setSession_planMoves : (m.setSession o s).planMoves = m.planMoves := rfl
@[simp] theorem Module.setSession_clips : (m.setSession o s).clips = m.clips := rfl
@[simp] theorem Module.setSession_wheel : (m.setSession o s).wheel = m.wheel := rfl
@[simp] theorem Module.setSession_syncs : (m.setSession o s).syncs = m.syncs := rfl
@[simp] theorem Module.setSession_syncOwner : (m.setSession o s).syncOwner = m.syncOwner := rfl
@[simp] theorem Module.setSession_hostWaits : (m.setSession o s).hostWaits = m.hostWaits := rfl
@[simp] theorem Module.setSession_streams : (m.setSession o s).streams = m.streams := rfl
@[simp] theorem Module.setSession_streamGen : (m.setSession o s).streamGen = m.streamGen := rfl
@[simp] theorem Module.setSession_admitting : (m.setSession o s).admitting = m.admitting := rfl
@[simp] theorem Module.setSession_jobs : (m.setSession o s).jobs = m.jobs := rfl
@[simp] theorem Module.setSession_nextJob : (m.setSession o s).nextJob = m.nextJob := rfl
@[simp] theorem Module.setSession_withdraws : (m.setSession o s).withdraws = m.withdraws := rfl
@[simp] theorem Module.setSession_modeChange : (m.setSession o s).modeChange = m.modeChange := rfl
@[simp] theorem Module.setSession_jobsGated : (m.setSession o s).jobsGated = m.jobsGated := rfl
@[simp] theorem Module.setSession_transition : (m.setSession o s).transition = m.transition := rfl
@[simp] theorem Module.setSession_offHeld : (m.setSession o s).offHeld = m.offHeld := rfl
@[simp] theorem Module.setSession_holdupHigh : (m.setSession o s).holdupHigh = m.holdupHigh := rfl
@[simp] theorem Module.setSession_idleSamples : (m.setSession o s).idleSamples = m.idleSamples := rfl
@[simp] theorem Module.setSession_powerSamples : (m.setSession o s).powerSamples = m.powerSamples := rfl
@[simp] theorem Module.setSession_energyPj : (m.setSession o s).energyPj = m.energyPj := rfl
@[simp] theorem Module.setSession_atRisk : (m.setSession o s).atRisk = m.atRisk := rfl
@[simp] theorem Module.setSession_tripped : (m.setSession o s).tripped = m.tripped := rfl
@[simp] theorem Module.setSession_otp : (m.setSession o s).otp = m.otp := rfl
@[simp] theorem Module.setSession_flash : (m.setSession o s).flash = m.flash := rfl
@[simp] theorem Module.setSession_nonce : (m.setSession o s).nonce = m.nonce := rfl
@[simp] theorem Module.setSession_backoff : (m.setSession o s).backoff = m.backoff := rfl
@[simp] theorem Module.setSession_backoffEnd : (m.setSession o s).backoffEnd = m.backoffEnd := rfl
@[simp] theorem Module.setSession_fullFill : (m.setSession o s).fullFill = m.fullFill := rfl
@[simp] theorem Module.setSession_cpHalted : (m.setSession o s).cpHalted = m.cpHalted := rfl
@[simp] theorem Module.setSession_engHalted : (m.setSession o s).engHalted = m.engHalted := rfl
@[simp] theorem Module.setSession_tap : (m.setSession o s).tap = m.tap := rfl
@[simp] theorem Module.setSession_boot : (m.setSession o s).boot = m.boot := rfl
@[simp] theorem Module.setSession_dramReady : (m.setSession o s).dramReady = m.dramReady := rfl
@[simp] theorem Module.setSession_dramFillDue : (m.setSession o s).dramFillDue = m.dramFillDue := rfl
@[simp] theorem Module.setSession_fwHash : (m.setSession o s).fwHash = m.fwHash := rfl
@[simp] theorem Module.setSession_library : (m.setSession o s).library = m.library := rfl
@[simp] theorem Module.setSession_fwVersion : (m.setSession o s).fwVersion = m.fwVersion := rfl
@[simp] theorem Module.setSession_flogPending : (m.setSession o s).flogPending = m.flogPending := rfl
@[simp] theorem Module.setSession_cpFaults : (m.setSession o s).cpFaults = m.cpFaults := rfl
@[simp] theorem Module.setSession_doubleRecord : (m.setSession o s).doubleRecord = m.doubleRecord := rfl

end Sys2Proof.Machine
end

