-- ==== Sys2Proof/WellFormed.lean ====
section
/-!
DEFINITION. Well-formed commands: operands that can arrive (R22, R26, R42, R376, R469, R478). A command outside these
bounds is no command of the spec; nothing in the machine depends on the check.
-/
namespace Sys2Proof

/-- A payload is at most 1 448 bytes (R375, R376). -/
def payloadOk (b : List Byte) : Bool := b.length ≤ 1448

/-- Memory errors lie in the 48-bit address space (R22). -/
def errsOk (l : List MemErr) : Bool := l.all (·.addr < 2 ^ 48)

/-- An image carries 256 header bytes (R469). -/
def imageOk (i : Image) : Bool := i.header.length = 256

/-- The three images of a slot. -/
def slotOk (s : SlotImage) : Bool := imageOk s.sc && imageOk s.pmc && imageOk s.control

/-- The operands of a command are ones that can arrive. -/
def Instr.WellFormed (i : Instr) : Bool :=
  match i with
  | .registerWrite _ off size _ => off < 2 ^ 24 && 0 < size && size ≤ 8
  | .trainDone _ sweep verify => sweep.length = 128 && sweep.all (4096 ≤ ·.length) && verify.length ≤ 65536
  | .sensorTransactionDone _ _ rdata => rdata.length ≤ 4
  | .fetch _ _ errs => errsOk errs
  | .narrowWrite addr bytes => addr < 2 ^ 48 && 0 < bytes.length && bytes.length < 64 && addr % 64 + bytes.length ≤ 64
  | .gatherIdleFlush line => line < 2 ^ 23
  | .scrubVisit _ errs => errsOk errs
  | .dmaDescriptorRun _ _ errs _ => errsOk errs
  | .dmaWaitMet _ errs _ => errsOk errs
  | .deadlineMissed _ subject _ _ _ => subject < 36
  | .jobDispatch _ stage _ _ _ => stage < 8
  | .ywpFrameDiscard _ b => b.length ≤ 9216
  | .netRxFrame _ f => 64 ≤ f.bytes && f.dmac < 2 ^ 48 && f.smac < 2 ^ 48 && (match f.tag with | some t => t.2 < 4096 | none => true)
  | .attach _ b => payloadOk b
  | .detach _ b => payloadOk b
  | .keepalive _ b => payloadOk b
  | .regAccess _ b => payloadOk b
  | .doorbell _ b => payloadOk b
  | .journalRead _ b => payloadOk b
  | .wake x => payloadOk x.payload
  | .winWrite _ b => payloadOk b
  | .winRead _ b => payloadOk b
  | .winSync _ b => payloadOk b
  | .winCredit _ b => payloadOk b
  | .winBind _ b probes => payloadOk b && probes.length ≤ 16
  | .winUnbind _ b => payloadOk b
  | .winRefresh _ b probes => payloadOk b && probes.length ≤ 16
  | .windowResponse _ _ b => payloadOk b
  | .gptpSyncReceive _ domain _ => domain < 256
  | .password _ pw => pw.length < 256
  | .response _ _ key signature => key.length = 96 && signature.length = 96
  | .regRead _ b => payloadOk b
  | .regWrite _ b => payloadOk b
  | .memWrite _ _ b => payloadOk b
  | .attest _ nonce => nonce.length = 32
  | .provision _ ownerHash salt pwHash _ => ownerHash.length = 48 && salt.length = 16 && pwHash.length = 48
  | .setPassword _ salt hash => salt.length = 16 && hash.length = 48
  | .debugFrameDiscard b => b.length < 8 + 65536
  | .firmwareVerified a b => slotOk a && slotOk b
  | .portEnable .. | .portDisable .. | .rstLowExpiry .. | .rstSettleExpiry .. | .frameStart .. | .frameEnd ..
  | .portLineStart .. | .portLineEnd .. | .pclkLossTimeout .. | .frameEndTimeout .. | .trainStart .. | .trainAbort ..
  | .trainNoSignalTimeout .. | .trigModeWrite .. | .trigFreeRunPulse .. | .trigNetTimePulse .. | .trigPulseEnd ..
  | .strobeEdge .. | .sqPush .. | .sensorTransactionStart .. | .sensorBusTimeout .. | .inBandInterrupt ..
  | .measSnapshot .. | .capCntClr .. | .laneLineStart .. | .laneOutputLine .. | .stripeReady .. | .feCommit ..
  | .feTblDataAccess .. | .statsRecordDone .. | .aeUpdate .. | .awbUpdate .. | .trimUpdate .. | .histResetWrite ..
  | .nisTblDataAccess .. | .outputResume .. | .calStart .. | .calAbort .. | .calStore .. | .calStoreDone ..
  | .calResultReady .. | .calCntClr .. | .taskStart .. | .engineNop .. | .endOp .. | .loop .. | .setp .. | .alu ..
  | .ldp .. | .slot .. | .tileArrived .. | .wload .. | .mm .. | .mmf .. | .rfu .. | .tload .. | .wb ..
  | .writeAcknowledged .. | .gate .. | .swait .. | .swaitTimeout .. | .ssig .. | .fence .. | .conv2d .. | .gemm ..
  | .pool .. | .resize .. | .eltwise .. | .norm .. | .softmax .. | .attention .. | .libCopy .. | .argmax ..
  | .topk .. | .nms .. | .taskComplete .. | .engineFaultDetected .. | .engineWatchdog .. | .abortComplete ..
  | .rerunStart .. | .residentSetLoad .. | .rotationGroupExchange .. | .cancellationComplete .. | .rotationDue ..
  | .rotation .. | .rotationSkip .. | .sweepDone .. | .engXCntClr .. | .alloc .. | .free .. | .releaseZeroFill ..
  | .releaseDone .. | .fill .. | .copy .. | .fillCopyWriteStart .. | .fillCopyWaitTimeout .. | .fillCopyDone ..
  | .stackZeroingDone .. | .spmStCntClr .. | .syncOpSignal .. | .syncOpAdd .. | .syncOpReset .. | .syncOpWait ..
  | .syncWaitMet .. | .syncWaitTimeout .. | .synCntClr .. | .dramWckTrack .. | .dramZqCalibrate ..
  | .dramSlotAdvance .. | .dma .. | .dmaWaitTimeout .. | .dmaDescriptorDone .. | .dmaPaceResume ..
  | .dmaTransferFail .. | .dmaHalted .. | .dmaRetry .. | .dmaSkip .. | .dmaAbort .. | .planChannelSkip ..
  | .clipFrameCopy .. | .clipHeaderUpdate .. | .freeze .. | .thaw .. | .admitStream .. | .admitComplete .. | .release ..
  | .releaseComplete .. | .deliveryCopy .. | .resumeDelivery .. | .job .. | .jobPreempt .. | .withdraw ..
  | .modeChangeRequest .. | .modeReplanDone .. | .modeClockSwitch .. | .modeChanged .. | .thermalCapUpdate ..
  | .planOverCap .. | .sysAdmCntClr .. | .arpRequest .. | .attachServe .. | .sessionKeepaliveTimeout ..
  | .submissionEntryTake .. | .nop .. | .reservedOpcode .. | .loadPkg .. | .unloadPkg .. | .setEvents ..
  | .completionWrite .. | .eventsLost .. | .notify .. | .winRetryTimeout .. | .multicastResend ..
  | .receiverDropped .. | .windowOpen .. | .windowClose .. | .talkerConfigWrite .. | .netTimeSnapshot .. | .linkUp ..
  | .linkDown .. | .gptpSyncTimeout .. | .gptpHoldoverExpiry .. | .gptpClockStep .. | .qbvCycleStart ..
  | .planWindowOpen .. | .planWindowEnd .. | .netCntClr .. | .ywpCntClr .. | .startCondition .. | .supplyLowEnter ..
  | .supplyHighEnter .. | .highVoltageTimeout .. | .holdupEnter .. | .holdupReconnect .. | .brownOut .. | .enOff ..
  | .requestRun .. | .requestIdle .. | .requestStandby .. | .requestOff .. | .standbyDrainTimeout ..
  | .powerTransitionDone .. | .wakeReady .. | .autoIdleSample .. | .powerSample .. | .coldPlateSample ..
  | .tempSensorCheck .. | .thermalTrip .. | .hardThermalTrip .. | .energySnapshot .. | .pwrCntClr .. | .status ..
  | .challenge .. | .lock .. | .memRead .. | .syncReset .. | .halt .. | .resume .. | .traceRead ..
  | .debugJournalRead .. | .identity .. | .lifecycle .. | .debugReservedOp .. | .nonceExpiry .. | .backoffExpiry ..
  | .zeroFillDone .. | .dbgCntClr .. | .sysReset .. | .tapReset .. | .dramTrainingDone .. | .cpSelfTestDone ..
  | .bootReady .. | .controlMismatch .. | .controlWatchdog .. | .cpResumeDuties .. | .stormCountClear ..
  | .faultLogFlush .. | .flogIndexSelect .. | .flogClear .. | .sysFltCntClr .. | .supplyNormal .. | .supplyLost ..
  | .perBankRefresh .. | .preemptionVerification .. | .sequenceRecoveryReset .. | .peerDelayMeasurement ..
  | .extest .. => true

end Sys2Proof
end

