-- ==== Sys2Proof/Tests/Slice0.lean ====
section
/-!
SUPPORT. Tests of the model against the spec's own words, the smoke test of WellFormed, and for every statement with
hypotheses states and operands that meet them.
-/
namespace Sys2Proof.Tests
open Sys2Proof Sys2Proof.Machine
set_option Elab.async false

/-! ### Small states -/

/-- A module in RUN with every domain on, READY, its SPM zero filled, otherwise as after reset: its debug level is FULL
(BLANK). -/
def base : Module :=
  { Module.reset with
    boot := .ready
    regs := [(PWR_STATE, 0x33), (PWR_DOM_STAT, 0x3FFFFFFF), (SYS_BOOT_STAT, 0x100), (DBG_LEVEL, 0b1010)] ++
      (List.range 8).map fun k => (SPM_ST_STAT k, SPM_ST_STAT_state.put 0 2) }

/-- The module with some registers set as well. -/
def withRegs (l : List (Nat × Word)) (m : Module) : Module := { m with regs := m.regs ++ l }

/-- The state of a module with nothing waiting. -/
def st (m : Module) : State := { toModule := m, pending := [] }

def p0 : PortId := 0
def p35 : PortId := 35

/-- An attached session with rings of 16, generation 1, that has taken the commands given. -/
def sess (l : List Taken) : Session :=
  { newSession ⟨0, .mac 0x02_00_00_00_00_07, 0, 0x10, false, true, 7, 1, 0, 5, 0⟩ [] 1 with
    sqN := 16, cqN := 16, eqN := 16, taken := l, ringWindow := 3, ringGen := 9 }

/-- The header of a ring command of session 0 with tag 5. -/
def hd : CmdHdr := ⟨0, 5, false⟩

/-- The 64 bytes of a submission entry with this opcode, tag 5 and the operands (offset, size, value) given (R394). -/
def entry (op : Byte) (l : List (Nat × Nat × Nat)) : List Byte :=
  (List.range 64).map fun i =>
    if i = 0 then op else if i = 4 then 5 else
      BitVec.ofNat 8 (l.foldl (fun a x => if x.1 ≤ i ∧ i < x.1 + x.2.1 then x.2.2 / 2 ^ (8 * (i - x.1)) else a) 0)

/-- A command that has been taken and not started, first in the order of takes. -/
def tk (op : Byte) (l : List (Nat × Nat × Nat)) : Taken := ⟨entry op l, false, 0, 0⟩

/-- The base module with session 0 attached, which has taken one command with this opcode and these operands. -/
def takenWith (op : Byte) (l : List (Nat × Nat × Nat)) (m : Module) : Module :=
  { m with sessions := [(0, sess [tk op l])] }

/-- The same with operands of zero. -/
def taken (op : Byte) (m : Module) : Module := takenWith op [] m

/-- A debug header on the UART of connector X20. -/
def dh : DbgHdr := ⟨3, .mac 0x02_00_00_00_00_08, 0, 0x10, 0, 0, 0, 0⟩

/-- An instruction task of a stream with the code given, on the position CL0.X0. -/
def task (code : List Nat) : EngTask :=
  EngTask.begin ⟨.stream 0 0 0 0, 0x1000, code, [], 0, [], [(0, 2 ^ 29, true)], 0, 0, [], none, 0, false, 0⟩

def e00 : EngPos := ⟨0, 0⟩

def running (t : EngTask) (m : Module) : Module :=
  (m.setEng e00 { Eng.rest with task := some t }).wr (ENG_X_STAT 0 0) 2

/-! ### The machine and its registers -/

theorem witness_StepRunsFrontCommand : ({ st base with pending := [Instr.backoffExpiry] } : State).pending = .backoffExpiry :: [] := rfl

theorem witness_OnlyStepsTouchTheQueue : State.reset.pending = [] ∧
    ∃ t, exec (.tapReset) (st base) = .next t := ⟨rfl, _, rfl⟩

theorem witness_CommandsComplete : ({ st base with boot := .off } : State).boot = .off ∧
    (∀ mv, Instr.backoffExpiry ≠ .startCondition mv) ∧ Instr.backoffExpiry ≠ .enOff ∧ Instr.backoffExpiry ≠ .supplyLost :=
  ⟨rfl, by simp, by simp, by simp⟩

theorem witness_StepKeepsMemoryCanonical : State.reset.Inv ∧
    ∃ t, step { st base with pending := [.backoffExpiry] } = .next t := ⟨by unfold State.Inv; decide, _, rfl⟩

theorem witness_OtpOnlyBurnsForward : (∃ t, exec .backoffExpiry (st base) = .next t) ∧
    (∀ d o a b f, Instr.backoffExpiry ≠ .provision d o a b f) ∧ (∀ d x, Instr.backoffExpiry ≠ .lifecycle d x) ∧
    (∀ d a b, Instr.backoffExpiry ≠ .setPassword d a b) := ⟨⟨_, rfl⟩, by simp, by simp, by simp⟩

theorem witness_CounterClearsComplete :
    Admits (st base) (.debug 2) true (CAP_CNT_CLR p35) ∧ Admits (st base) (.debug 2) true (CAL_CNT_CLR p35) ∧
    Admits (st base) (.debug 2) true (ENG_X_CNT_CLR 7 16) ∧ Admits (st base) (.debug 2) true (SPM_ST_CNT_CLR 7) ∧
    Admits (st base) (.debug 2) true SYN_CNT_CLR ∧ Admits (st base) (.debug 2) true SYS_ADM_CNT_CLR ∧
    Admits (st base) (.debug 2) true (NET_CNT_CLR 1) ∧ Admits (st base) (.debug 2) true YWP_CNT_CLR ∧
    Admits (st base) (.debug 2) true PWR_CNT_CLR ∧ Admits (st base) (.debug 2) true DBG_CNT_CLR ∧
    Admits (st base) (.debug 2) true SYS_FLT_CNT_CLR := by
  unfold Admits; decide

theorem witness_RegisterWriteOutcomes :
    ((st base).busGate (.debug 2) true 0x7FFFFC = .pass ∧ (st base).busGate (.debug 2) true 0x800000 = .pass) ∧
    (({ st base with regs := [(PWR_STATE, 0x22), (PWR_DOM_STAT, 0), (DBG_LEVEL, 0b1010)] } : State).blockOn
        (CAP_TRIG_PERIOD p0) = false) ∧
    (st base).blockOn (CAP_TRIG_PERIOD p35) = true ∧ (st base).blockOn (YWP_EXP_OFS 255) = true := by decide

theorem witness_SnapshotsAndTablesComplete (e : Meas) :
    (Admits (st base) (.debug 2) false (CAP_MEAS_SEQ p35) ∧
      ((st (base.setPort 35 { Port.rest with meas := some e })).port 35).meas = some e) ∧
    Admits (st base) (.debug 2) false NET_TIME_NS ∧ Admits (st base) (.debug 2) false PWR_ENERGY_LO ∧
    Admits (st base) (.debug 2) true (FE_TBL_DATA p35) ∧
    ((st base).fld (FE_TBL_ADDR p0) FE_TBL_ADDR_table = 0 ∧ (st base).fld (FE_TBL_ADDR p0) FE_TBL_ADDR_index < 4096) ∧
    (let s := st (withRegs [(FE_TBL_ADDR 0, FE_TBL_ADDR_index.put 0 4095)] base)
     s.fld (FE_TBL_ADDR p0) FE_TBL_ADDR_table = 0 ∧ s.fld (FE_TBL_ADDR p0) FE_TBL_ADDR_index < 4096) ∧
    (let s := st (withRegs [(FE_TBL_ADDR 0, FE_TBL_ADDR_index.put 0 4096)] base)
     s.fld (FE_TBL_ADDR p0) FE_TBL_ADDR_table = 0 ∧ 4096 ≤ s.fld (FE_TBL_ADDR p0) FE_TBL_ADDR_index) ∧
    (Admits (st base) (.debug 2) false (FE_TBL_DATA p35) ∧
      let s := st (withRegs [(FE_TBL_ADDR 0, FE_TBL_ADDR_table.put (FE_TBL_ADDR_index.put 0 412) 4)] base)
      1 ≤ s.fld (FE_TBL_ADDR p0) FE_TBL_ADDR_table ∧ s.fld (FE_TBL_ADDR p0) FE_TBL_ADDR_table ≤ 4 ∧
        s.fld (FE_TBL_ADDR p0) FE_TBL_ADDR_index < 413) ∧
    (Admits (st base) (.debug 2) true (NIS_TBL_DATA p35) ∧ Admits (st base) (.debug 2) false (NIS_TBL_DATA p35) ∧
      let s := st (withRegs [(NIS_TBL_ADDR 0, NIS_TBL_ADDR_index.put 0 128)] base)
      s.fld (NIS_TBL_ADDR p0) NIS_TBL_ADDR_table = 0 ∧ s.fld (NIS_TBL_ADDR p0) NIS_TBL_ADDR_index ≤ 128) := by
  refine ⟨⟨by unfold Admits; decide, rfl⟩, ?_⟩
  unfold Admits; decide

/-! ### Camera ports -/

/-- Port 0 in a state, with its parts. -/
def camera (state : Nat) (x : Port) (m : Module) : Module :=
  (m.setPort 0 x).setFld (CAP_PORT_STATE 0) CAP_PORT_STATE_state state

def fr (lines : Nat) (o : Option OpenLine) : PortFrame :=
  { seq := 0, flags := 0, dropped := false, cal := false, sof := ⟨false, 0, 0⟩, strobes := [], start := 0, period := 0, vblank := 0
    lines := lines, extra := 0, edges := 0, widths := none, periods := none, hblank := none, lineAt := none, open_ := o }

def sq (op : Nat) : SqEntry := ⟨.immediate, false, 0, op, 0x10, false, 0, 1, 0⟩

theorem witness_PortLifeCompletes :
    (Admits (st base) (.debug 2) true (CAP_PORT_CFG p35) ∧ (st base).portState p35 = 0 ∧
      (st base).bit (CAP_PORT_CFG p35) CAP_PORT_CFG_enable = false ∧
      takesWord (CAP_PORT_CFG p35) (CAP_PORT_CFG_enable.put ((st base).rd (CAP_PORT_CFG p35)) 1) = true ∧
      CAP_PORT_CFG_enable.of (CAP_PORT_CFG_enable.put ((st base).rd (CAP_PORT_CFG p35)) 1) = 1 ∧
      CAP_PORT_CFG_ddr.of (CAP_PORT_CFG_enable.put ((st base).rd (CAP_PORT_CFG p35)) 1) = 0 ∧
      (st base).streams.find? p35.val = none) ∧
    (st (camera 1 Port.rest base)).portState p0 = 1 ∧
    ((st (camera 1 { Port.rest with rstHigh := true } base)).portState p0 = 1 ∧
      ((st (camera 1 { Port.rest with rstHigh := true } base)).port p0).rstHigh = true) ∧
    (Admits (st (camera 2 Port.rest base)) (.debug 2) true (CAP_TRAIN_CTL p0) ∧
      (st (camera 2 Port.rest base)).portState p0 = 2) ∧
    (Admits (st (camera 3 Port.rest base)) (.debug 2) true (CAP_TRAIN_CTL p0) ∧
      (st (camera 3 Port.rest base)).portState p0 = 3) ∧
    (let s := st ((camera 2 Port.rest base).setFld (CAP_PORT_CFG 0) CAP_PORT_CFG_enable 1)
     let cfg := CAP_PORT_CFG_enable.put (s.rd (CAP_PORT_CFG p0)) 0
     Admits s (.debug 2) true (CAP_PORT_CFG p0) ∧ takesWord (CAP_PORT_CFG p0) cfg = true ∧
      s.bit (CAP_PORT_CFG p0) CAP_PORT_CFG_enable = true ∧ CAP_PORT_CFG_ddr.of cfg = 0) := by
  unfold Admits; decide

theorem witness_PortLifeCompletes_train :
    (st (camera 3 Port.rest base)).portState p0 = 3 ∧
    (List.replicate 128 (List.replicate 4096 (false, (0 : W16)))).length = 128 ∧
    (∀ px ∈ List.replicate 128 (List.replicate 4096 (false, (0 : W16))), 4096 ≤ px.length) ∧
    (List.replicate 65536 (false, (0 : W16))).length = 65536 := 
  ⟨by decide, List.length_replicate,
    fun _ h => by rw [List.eq_of_mem_replicate h, List.length_replicate], List.length_replicate⟩

theorem witness_TriggerAndStrobeComplete :
    (let s := st (withRegs [(CAP_TRIG_PERIOD 35, 16666667)] base)
     let cfg := CAP_TRIG_CFG_mode.put (s.rd (CAP_TRIG_CFG p35)) 2
     Admits s (.debug 2) true (CAP_TRIG_CFG p35) ∧ takesWord (CAP_TRIG_CFG p35) cfg = true ∧
      s.trigWidthBad p35 cfg = false) ∧
    (let s := st ((camera 2 Port.rest base).setFld (CAP_TRIG_CFG 0) CAP_TRIG_CFG_mode 1)
     2 ≤ s.portState p0 ∧ s.fld (CAP_TRIG_CFG p0) CAP_TRIG_CFG_mode = 1) ∧
    (let s := st ((camera 2 { Port.rest with frame := some (fr 0 none) } base).setFld (CAP_PORT_CFG 0) CAP_PORT_CFG_strobe_en 1)
     2 ≤ s.portState p0 ∧ s.bit (CAP_PORT_CFG p0) CAP_PORT_CFG_strobe_en = true ∧
      (s.port p0).frame = some (fr 0 none)) := by
  unfold Admits; decide

/-- Port 0 in NET_TIME with a period of 1 ns, at some time of 1 ns or later. -/
def netTime (x : Port) : State :=
  st { (((camera 2 x base).setFld (CAP_TRIG_CFG 0) CAP_TRIG_CFG_mode 2).setFld NET_GPTP_STAT NET_GPTP_STAT_state 1).wr
    (CAP_TRIG_PERIOD 0) 1 with now := 1 }

theorem netTime_ptp (x : Port) : 1 ≤ (netTime x).toModule.tick.ptp := by
  show 1 ≤ (((1 + Config.elapsedNs 0 : Nat) : Int) + 0).toNat
  omega

theorem witness_TriggerAndStrobeComplete_net :
    let s := netTime Port.rest
    let u := s.toModule.tick
    let x := s.port p0
    let period := max 1 (s.rd (CAP_TRIG_PERIOD p0)).toNat
    let last := x.trigStart + (u.ptp - x.trigStart) / period * period
    2 ≤ s.portState p0 ∧ s.fld (CAP_TRIG_CFG p0) CAP_TRIG_CFG_mode = 2 ∧ s.timeValid = true ∧ x.trigStart ≤ u.ptp ∧
      x.trigNet = none ∧ (x.trigFrom : Int) + u.ptpOffset < (last : Int) ∧ x.trigLast = none := by
  refine ⟨by decide, by decide, by decide, Nat.zero_le _, by decide, ?_, by decide⟩
  have h := netTime_ptp Port.rest
  show (0 : Int) + 0 < ((0 + ((netTime Port.rest).toModule.tick.ptp - 0) / 1 * 1 : Nat) : Int)
  omega

theorem witness_TriggerAndStrobeComplete_netAgain :
    let s := netTime { Port.rest with trigNet := some 0 }
    let period := max 1 (s.rd (CAP_TRIG_PERIOD p0)).toNat
    2 ≤ s.portState p0 ∧ s.fld (CAP_TRIG_CFG p0) CAP_TRIG_CFG_mode = 2 ∧ (s.port p0).trigNet = some 0 ∧
      (s.port p0).trigStart ≤ 0 ∧ 0 + period ≤ s.toModule.tick.ptp ∧ (0 - (s.port p0).trigStart) % period = 0 :=
  ⟨by decide, by decide, by decide, by decide, netTime_ptp _, by decide⟩

theorem witness_FrameReceptionCompletes :
    (2 ≤ (st (camera 2 Port.rest base)).portState p0) ∧
    (let s := st ((camera 4 { Port.rest with frame := some (fr 0 none) } base).wr (CAP_GEOM 0) (BitVec.ofNat 32 (1080 * 65536 + 1920)))
     (s.port p0).frame = some (fr 0 none) ∧ (fr 0 none).open_ = none) ∧
    (let f := fr 1079 (some ⟨false⟩)
     let s := st ((camera 4 { Port.rest with frame := some f } base).wr (CAP_GEOM 0) (BitVec.ofNat 32 (1080 * 65536 + 1920)))
     (s.port p0).frame = some f ∧ f.open_ = some ⟨false⟩ ∧ f.lines < (s.geom p0).2 ∧
      s.bit (CAP_PORT_CFG p0) CAP_PORT_CFG_hsync_mode = false) ∧
    (let f := fr 1079 (some ⟨false⟩)
     let s := st (((camera 4 { Port.rest with frame := some f } base).wr (CAP_GEOM 0)
       (BitVec.ofNat 32 (1080 * 65536 + 1920))).setFld (CAP_PORT_CFG 0) CAP_PORT_CFG_hsync_mode 1)
     (s.port p0).frame = some f ∧ f.open_ = some ⟨false⟩ ∧ f.lines < (s.geom p0).2 ∧
      s.bit (CAP_PORT_CFG p0) CAP_PORT_CFG_hsync_mode = true) ∧
    (let f := fr 1080 none
     let s := st ((camera 4 { Port.rest with frame := some f } base).wr (CAP_GEOM 0) (BitVec.ofNat 32 (1080 * 65536 + 1920)))
     (s.port p0).frame = some f ∧ f.open_ = none ∧ f.lines = (s.geom p0).2) ∧
    (let f := fr 3 (some ⟨false⟩)
     let s := st (camera 4 { Port.rest with frame := some f } base)
     (s.port p0).frame = some f ∧ f.open_.isSome) ∧
    (let f := fr 3 none
     let s := st (camera 4 { Port.rest with frame := some f } base)
     (s.port p0).frame = some f ∧ s.portState p0 = 4 ∧ f.start + 2 * (s.rd (CAP_FRAME_PERIOD p0)).toNat ≤ 2 ^ 33) := by
  decide

theorem witness_SensorBusCompletes :
    (let s := st (camera 2 Port.rest base)
     Admits s (.debug 2) true (CAP_SQ_PUSH p0) ∧ s.sqBad p0 = false ∧ s.portState p0 ≠ 0 ∧ (s.port p0).fill < 256 ∧
      s.sqLate p0 (s.sqEntry p0) = false) ∧
    (let s := st (camera 2 { Port.rest with batches := [⟨true, true, 0, [sq 0]⟩] } base)
     2 ≤ s.portState p0 ∧ (s.port p0).xfer = none ∧ (s.port p0).batches = [⟨true, true, 0, [sq 0]⟩]) ∧
    ((st (camera 2 { Port.rest with xfer := some ⟨sq 1, false, 0⟩ } base)).port p0).xfer = some ⟨sq 1, false, 0⟩ ∧
    (let s := st ((camera 2 { Port.rest with xfer := some ⟨sq 1, false, 0⟩ } base).setFld (CAP_BUS_CFG 0) CAP_BUS_CFG_retries 1)
     (s.port p0).xfer = some ⟨sq 1, false, 0⟩ ∧ 0 < s.fld (CAP_BUS_CFG p0) CAP_BUS_CFG_retries) ∧
    (let s := st ((camera 2 { Port.rest with xfer := some ⟨sq 1, false, 1⟩ } base).setFld (CAP_BUS_CFG 0) CAP_BUS_CFG_retries 1)
     (s.port p0).xfer = some ⟨sq 1, false, 1⟩ ∧ s.fld (CAP_BUS_CFG p0) CAP_BUS_CFG_retries ≤ 1) ∧
    (let s := st ((camera 2 Port.rest base).setFld (CAP_BUS_CFG 0) CAP_BUS_CFG_protocol 3)
     2 ≤ s.portState p0 ∧ s.fld (CAP_BUS_CFG p0) CAP_BUS_CFG_protocol = 3) := by
  unfold Admits; decide

theorem witness_CameraEventsFrame : (∃ t, exec (.strobeEdge p0) (st base) = .next t) ∧
    ∃ t, exec (.frameStart p0 0 []) (st base) = .next t := ⟨⟨_, rfl⟩, _, rfl⟩

/-! ### Contexts, statistics and calibration -/

def pl : Plan := ⟨0, 0, [], [], [], ⟨0, [], 0, 0⟩, [], [], [], [], ⟨0, 0, 0⟩⟩

/-- A stream of the context 0 in a phase. -/
def strm (ph : StreamPhase) : Stream := ⟨1, 0, setupOf [], pl, ph, none, [], []⟩

def set0 : ParamSet := ParamSet.rest

/-- A lane frame with its lines in, those that have passed and those that are out. -/
def lf (lines passed : Nat) (out : List (List Pix)) : LaneFrame :=
  ⟨0, 0, set0, ⟨false, 0, 0⟩, false, List.replicate lines ⟨[0], false, false⟩, passed, out, 0, none, false, false⟩

/-- Context 0 is resident with a frame in its lane and an active stream. -/
def context (f : List LaneFrame) (m : Module) : Module :=
  ({ m.setCtx 0 { Ctx.rest with frames := f } with streams := [(0, strm .active)] }).setFld (FE_CTX_STAT 0)
    FE_CTX_STAT_resident 1

def meas0 : Meas := ⟨fr 0 none, ⟨false, 0, 0⟩⟩

def rec0 (flags : Nat) : StatRec := ⟨0, flags, set0, ExpVals.zero, 0, (1, 1, 1), false, false⟩

theorem witness_LaneAndLoopsComplete :
    (let s := st (context [lf 1 0 []] base)
     s.resident p0 = true ∧ (s.ctx p0).frames.find? (fun f => f.passed < f.lines.length) = some (lf 1 0 []) ∧
      (s.cal p0).run = none ∧ ∀ g ∈ (s.ctx p0).frames, g.seq = (lf 1 0 []).seq → g = lf 1 0 []) ∧
    (let s := st (withRegs [(FE_CROP_WH 0, BitVec.ofNat 32 (16 * 65536 + 16)), (CAP_GEOM 0, 0)] (context [lf 0 0 []] base))
     s.resident p0 = true ∧ (s.streams.find? p0.val).isSome ∧
      (s.ctx p0).frames.find? (fun f => f.out.length < (s.stripes p0).lines) = some (lf 0 0 []) ∧
      (s.laneIn p0 set0 []).due 0 ≤ 0 ∧ s.region? (s.rd (NIS_IN_REGION p0)) = none) ∧
    (let f := lf 0 0 (List.replicate 16 [])
     let s := st (withRegs [(FE_CROP_WH 0, BitVec.ofNat 32 (16 * 65536 + 16))] (context [f] base))
     (s.streams.find? p0.val).isSome ∧ (s.ctx p0).frames.find? (fun f => f.signalled < (s.stripes p0).count) = some f ∧
      (s.stripes p0).need f.signalled ≤ f.out.length) ∧
    (let f := { lf 0 0 [] with ended := some meas0 }
     let s := st (withRegs [(FE_CROP_WH 0, 0)] (context [f] base))
     (s.ctx p0).frames.find? (fun f => !f.recorded) = some f ∧ f.ended = some meas0 ∧
      s.fld (FE_CROP_WH p0) FE_CROP_WH_h ≤ f.out.length ∧ s.region? (s.rd (FE_STAT_DEST p0)) = none) := by
  decide

theorem witness_LaneAndLoopsComplete_loops :
    (let s := st ((base.setCtx 0 { Ctx.rest with lastRec := some (rec0 0) }).setFld (FE_EXP_CFG 0) FE_EXP_CFG_ae_en 1)
     s.cpHalted = false ∧ (s.ctx p0).lastRec = some (rec0 0) ∧ (rec0 0).aeDone = false ∧ s.bit (FE_EXP_CFG p0) FE_EXP_CFG_ae_en = true ∧
      aeSkips (rec0 0).flags = false ∧ aeSkips (rec0 1).flags = true) ∧
    (let s := st ((base.setCtx 0 { Ctx.rest with lastRec := some (rec0 0) }).setFld (FE_EXP_CFG 0) FE_EXP_CFG_awb_en 1)
     s.cpHalted = false ∧ (s.ctx p0).lastRec = some (rec0 0) ∧ (rec0 0).awbDone = false ∧ s.bit (FE_EXP_CFG p0) FE_EXP_CFG_awb_en = true ∧
      (s.ctx p0).loopWb = [4096, 4096, 4096]) ∧
    (let s := st (base.setCtx 0 { Ctx.rest with
       trimDue := some [0, 0, 0, 0], current := { set0 with regs := [(FE_TRIM_CFG 0, 0xFFFFFFFF)] } })
     s.cpHalted = false ∧ (s.ctx p0).trimDue = some [0, 0, 0, 0] ∧ 0 < (s.ctx p0).current.fld (FE_TRIM_CFG p0) FE_TRIM_CFG_step) := by
  decide

theorem witness_ContextControlCompletes :
    (let s := st (withRegs [(CAP_GEOM 0, BitVec.ofNat 32 (16 * 65536 + 16))] (camera 2 Port.rest base))
     Admits s (.debug 2) true (FE_COMMIT p0) ∧
      s.commitError p0 (s.earliestTarget p0 false) false (s.shadowSet p0 ((s.ctx p0).psid + 1)) = none) ∧
    (Admits (st base) (.debug 2) true (FE_COMMIT p35) ∧
      (st base).commitError p35 0 true ((st base).shadowSet p35 (((st base).ctx p35).psid + 1)) = some 5) ∧
    Admits (st base) (.debug 2) true (NIS_HIST_CTL p35) ∧
    (let s := st ((context [] base).setFld (NIS_OUT_STAT 0 3) NIS_OUT_STAT_window_halted 1)
     Admits s (.debug 2) true (NIS_OUT_CTL p0 3) ∧
      s.bit (NIS_OUT_STAT p0 3) NIS_OUT_STAT_window_halted = true ∧ s.streams.find? p0.val = some (strm .active)) := by
  unfold Admits; decide

/-- A calibration run of a kind in a purpose, with a supplied reference. -/
def run (kind purpose : Nat) : CalRun :=
  ⟨kind, purpose, true, 0, none, 0, none, 0, [0, 0, 0, 0], none, none, none, none, true, false⟩

/-- A geometry of 16 by 16 pixels with a reference region of 4 KiB for it. -/
def reference (m : Module) : Module :=
  withRegs [(CAP_GEOM 0, BitVec.ofNat 32 (16 * 65536 + 16)), (CAL_CTX_REF 0, 0x10001)]
    { m with regions := [(1, ⟨1, 0, 4096, false, .live, none⟩)] }

theorem witness_CalibrationCompletes :
    (let s := st ((camera 2 Port.rest base).setFld (CAP_PORT_CFG 0) CAP_PORT_CFG_signalling 1)
     let ctl := CAL_CTX_CTL_start.put (CAL_CTX_CTL_kind.put 0 4) 1
     Admits s (.debug 2) true (CAL_CTX_CTL p0) ∧ takesWord (CAL_CTX_CTL p0) ctl = true ∧ CAL_CTX_CTL_start.of ctl = 1 ∧
      CAL_CTX_CTL_abort.of ctl = 0 ∧ CAL_CTX_CTL_store.of ctl = 0 ∧ CAL_CTX_CTL_kind.of ctl = 4 ∧ darkKind 4 = false ∧
      s.calRefuse p0 4 (CAL_CTX_CTL_purpose.of ctl) false = none) ∧
    (let ctl := CAL_CTX_CTL_start.put (CAL_CTX_CTL_kind.put 0 4) 1
     Admits (st base) (.debug 2) true (CAL_CTX_CTL p0) ∧ (st base).calRefuse p0 4 (CAL_CTX_CTL_purpose.of ctl) false ≠ none) ∧
    (let s := st (reference (base.setCal 0 { Cal.rest with run := some (run 1 0) }))
     Admits s (.debug 2) true (CAL_CTX_CTL p0) ∧ (s.cal p0).run = some (run 1 0) ∧ s.calReady p0 (run 1 0) = true ∧
      s.calNoRegion p0 (run 1 0) = false ∧ (run 1 0).purpose = 0) ∧
    (let s := st (base.setCal 0 { Cal.rest with run := some (run 1 0) })
     s.cpHalted = false ∧ (s.cal p0).run = some (run 1 0) ∧ s.calReady p0 (run 1 0) = true ∧ s.calNoRegion p0 (run 1 0) = true) ∧
    Admits (st base) (.debug 2) true (CAL_CTX_CTL p35) := by
  unfold Admits; decide

theorem witness_CalibrationCompletes_store :
    let r := (base.calRecord 0 1)
    ((st (base.setCal 0 { Cal.rest with storing := some r })).cal p0).storing = some r := rfl

/-! ### Engines -/

/-- An instruction word from its bytes. -/
def ins (l : List Nat) : Nat := l.foldr (fun b a => b % 256 + 256 * a) 0

def tile0 : Tile :=
  { bits := 8, raw := [[0]], scale := [], j0 := 0, j1 := 0, e0 := 0, e1 := 0, pad := 0, holes := [], todo := [], arrived := true
    gate := none }

/-- A state in which CL0.X0 runs the task whose code is one instruction. -/
def at1 (l : List Nat) (f : EngTask → EngTask) : State := st (running (f (task [ins l])) base)

theorem witness_EngineScalarInstructionsComplete :
    AtInstr (at1 [0] id) e00 .badger 0 (task [ins [0]]) (ins [0]) ∧
    AtInstr (at1 [1] id) e00 .execute 1 (task [ins [1]]) (ins [1]) ∧
    AtInstr (at1 [2, 0, 5, 0, 0, 0, 0, 0, 1] id) e00 .execute 2 (task [ins [2, 0, 5, 0, 0, 0, 0, 0, 1]])
      (ins [2, 0, 5, 0, 0, 0, 0, 0, 1]) ∧
    (AtInstr (at1 [3, 0, 15] id) e00 .execute 3 (task [ins [3, 0, 15]]) (ins [3, 0, 15]) ∧ opnd (ins [3, 0, 15]) 2 1 < 16 ∧
      ((task [ins [3, 0, 15]]).walk .execute).leaveGate.regs.length = 16) ∧
    (let s := at1 [5, 0, 15] id
     let t := task [ins [5, 0, 15]]
     AtInstr s e00 .badger 5 t (ins [5, 0, 15]) ∧ s.latent = [] ∧ s.badIn (t.args + opnd (ins [5, 0, 15]) 4 2) 4 = [] ∧
      s.spmBusy (t.args + opnd (ins [5, 0, 15]) 4 2) 4 = false ∧
      (t.walk .badger).leaveGate.regs.length = 16 ∧ opnd (ins [5, 0, 15]) 2 1 < 16) ∧
    (let s := st { running (task [ins [5, 0, 15]]) base with poison := [0x200] }
     let t := task [ins [5, 0, 15]]
     AtInstr s e00 .badger 5 t (ins [5, 0, 15]) ∧ s.latent = [] ∧ s.badIn (t.args + opnd (ins [5, 0, 15]) 4 2) 4 ≠ [] ∧
      s.spmBusy (t.args + opnd (ins [5, 0, 15]) 4 2) 4 = false) ∧
    (AtInstr (at1 [6, 0, 3] id) e00 .badger 6 (task [ins [6, 0, 3]]) (ins [6, 0, 3]) ∧ opnd (ins [6, 0, 3]) 2 1 < 4 ∧
      ((task [ins [6, 0, 3]]).walk .badger).leaveGate.slots.length = 4) := by
  unfold AtInstr
  (repeat' apply And.intro) <;> decide

theorem witness_AluOperationsWrap :
    AtInstr (at1 [4, 1, 12, 15] id) e00 .execute 4 (task [ins [4, 1, 12, 15]]) (ins [4, 1, 12, 15]) ∧
      ((task [ins [4, 1, 12, 15]]).walk .execute).leaveGate.regs.length = 16 ∧ opnd (ins [4, 1, 12, 15]) 3 1 < 16 := by
  unfold AtInstr
  (repeat' apply And.intro) <;> decide

theorem witness_EngineTileInstructionsComplete :
    (let t := { task [ins [0x11]] with qb := [tile0] }
     AtInstr (st (running t base)) e00 .execute 0x11 t (ins [0x11]) ∧ t.head 1 = some tile0) ∧
    (let i := ins [0x12, 0, 0, 0, 1, 0, 0, 0, 0, 0, 0xFF, 1, 0, 0xFF]
     let t := { task [i] with qa := [tile0] }
     AtInstr (st (running t base)) e00 .execute 0x12 t i ∧ t.head 0 = some tile0 ∧
      rowRange t.exec.leaveGate (opnd i 10 2) (opnd i 13 1) (opnd i 4 2) = some 511 ∧ isInt (opnd i 2 1) = true) ∧
    (let i := ins [0x13, 0, 0, 0, 0, 0, 0, 0, 1, 0, 1, 0, 1, 0, 0xFF, 1]
     let t := { task [i] with qa := [tile0], qb := [tile0] }
     AtInstr (st (running t base)) e00 .execute 0x13 t i ∧ rowRange t.exec.leaveGate (opnd i 14 2) 0xFF (opnd i 8 2) = some 511 ∧
      t.head 1 = some tile0 ∧ (t.head 0).isSome ∧ t.blocks = [] ∧ 0 < opnd i 12 1 ∧ 0 < opnd i 10 2 ∧ 0 < kMax (opnd i 2 1) (opnd i 3 1)) ∧
    (let i := ins [0x13, 0, 0, 0, 0, 0, 0, 0, 1, 0, 1, 0, 1, 0, 0xFF, 1]
     let t := { task [i] with qa := [tile0], qx := [tile0], blocks := [tile0, tile0] }
     AtInstr (st (running t base)) e00 .execute 0x13 t i ∧ rowRange t.exec.leaveGate (opnd i 14 2) 0xFF (opnd i 8 2) = some 511 ∧
      (opnd i 1 1).testBit 3 = false ∧ t.head 0 = some tile0 ∧ t.head 2 = some tile0 ∧
      (opnd i 12 1 + kMax (opnd i 2 1) (opnd i 3 1) - 1) / kMax (opnd i 2 1) (opnd i 3 1) * ((opnd i 10 2 + 47) / 48) +
        (opnd i 10 2 + kMax (opnd i 5 1) (opnd i 4 1) - 1) / kMax (opnd i 5 1) (opnd i 4 1) ≤ t.blocks.length) ∧
    (let i := ins [0x13, 0, 0, 0, 0, 0, 0, 0, 1, 0, 1, 0, 1, 0, 0xFF, 1]
     let t := { task [i] with qb := [tile0] }
     AtInstr (st (running t base)) e00 .execute 0x13 t i ∧ t.head 0 = none ∧
      rowRange t.exec.leaveGate (opnd i 14 2) 0xFF (opnd i 8 2) = some 511) ∧
    (let i := ins [0x14, 0, 17, 1, 0xFF, 1, 1]
     let t := task [i]
     AtInstr (st (running t base)) e00 .execute 0x14 t i ∧ opnd i 4 2 + opnd i 6 2 * opnd i 3 1 = 512 ∧
      t.vectors ((opnd i 1 1).testBit 0) (opnd i 10 1 % 16 = 1) (opnd i 10 1 / 16 = 1) = some (none, none, 0)) ∧
    (let t := { task [ins [0x15, 0, 3]] with qx := [tile0] }
     AtInstr (st (running t base)) e00 .execute 0x15 t (ins [0x15, 0, 3]) ∧ t.head 2 = some tile0) ∧
    AtInstr (at1 [0x12] id) e00 .badger 0x12 (task [ins [0x12]]) (ins [0x12]) := by
  unfold AtInstr
  (repeat' apply And.intro) <;> decide

/-- One row of 4 bytes at 0x1000 (R223). -/
def row4 : SlotBind := ⟨[⟨1, 0, 0x1000⟩, ⟨5, 0, 4 * 65536 + 1⟩], []⟩

/-- The slot 0 bound to that row. -/
def bound (t : EngTask) : EngTask :=
  { t with exec := { t.exec with slots := [some row4, none, none, none] }
           badger := { t.badger with slots := [some row4, none, none, none] } }

def gate0 (allow : Bool) : GateTask := ⟨0, 1, 0, allow, 0, [], 0, 0, 0, 0, 0, 0, [0]⟩

theorem witness_EngineMemoryInstructionsComplete :
    (AtInstr (at1 [0x10, 0, 0, 2] id) e00 .execute 0x10 (task [ins [0x10, 0, 0, 2]]) (ins [0x10, 0, 0, 2]) ∧
      opnd (ins [0x10, 0, 0, 2]) 3 1 < 3) ∧
    (let i := ins [0x10, 0, 0, 2]
     let t := { bound (task [i]) with qx := [tile0, tile0, tile0] }
     AtInstr (st (running t base)) e00 .badger 0x10 t i ∧
      t.badger.leaveGate.slots[opnd i 2 1]? = some (some row4) ∧ 3 ≤ (t.queue (opnd i 3 1)).length) ∧
    AtInstr (at1 [0x17] id) e00 .badger 0x17 (task [ins [0x17]]) (ins [0x17]) ∧
    (let t := { task [ins [0x17]] with gate := some (gate0 true), decisions := [false] }
     AtInstr (st (running t base)) e00 .badger 0x17 t (ins [0x17]) ∧ t.decisions[t.badger.leaveGate.gates]? = some false) ∧
    (let t := { task [ins [0x17]] with gate := some (gate0 false) }
     AtInstr (st (running t base)) e00 .execute 0x17 t (ins [0x17]) ∧
      Clear (st (running t base)) ((st (running t base)).gateSpans t.args (gate0 false) 0) ∧
      (st (running t base)).gateReuse t.args (gate0 false) 0 = false) ∧
    (let t := { task [ins [0x17]] with gate := some (gate0 true) }
     AtInstr (st (running t base)) e00 .execute 0x17 t (ins [0x17]) ∧
      Clear (st (running t base)) ((st (running t base)).gateSpans t.args (gate0 true) 0) ∧
      (st (running t base)).gateReuse t.args (gate0 true) 0 = true) := by
  unfold AtInstr Clear
  (repeat' apply And.intro) <;> decide

theorem witness_EngineMemoryInstructionsComplete_fetch :
    let i := ins [0x10, 0, 0, 2]
    let t := bound (task [i])
    let s := st (running t base)
    let v := s.slotView t t.badger.leaveGate row4
    AtInstr s e00 .badger 0x10 t i ∧ (opnd i 1 1).testBit 0 = false ∧
      t.badger.leaveGate.slots[opnd i 2 1]? = some (some row4) ∧ (t.queue (opnd i 3 1)).length < 3 ∧ t.readsOut < 6 ∧
      (∀ x ∈ t.tiles, x.todo = []) ∧ Clear s (row4.words t.args) ∧ (transfers v.spans).map transferSpan = [(0x1000, 4)] ∧
      ∀ l ∈ transfers v.spans ++ transfers (v.scaleSpans (opnd i 3 1 = 1)),
        ReadsWell s t (transferSpan l).1 (transferSpan l).2 := by
  unfold AtInstr ReadsWell Clear
  (repeat' apply And.intro) <;> decide

theorem witness_EngineMemoryInstructionsComplete_wb :
    let i := ins [0x16, 0, 0, 2, 0xFF, 1, 1, 0, 1, 2, 0, 0, 0, 0, 0xFF]
    let t := { bound (task [i]) with issued := 16 }
    let s := st (running t base)
    AtInstr s e00 .execute 0x16 t i ∧ t.exec.leaveGate.slots[opnd i 2 1]? = some (some row4) ∧
      rowRange t.exec.leaveGate (opnd i 4 2) (opnd i 14 1) (opnd i 6 2) = some 511 ∧ 2 ≤ opnd i 9 1 ∧ opnd i 9 1 ≠ 3 ∧
      t.gate = none ∧ t.issued = 16 ∧ Clear s (row4.words t.args) ∧
      ∀ g, ∀ x ∈ ({ s.slotView t t.exec.leaveGate row4 with fmt := opnd i 3 1 } : SlotView).writes (opnd i 6 2) (opnd i 8 1) g,
        t.mayAccess true x.addr x.bytes.length = true ∧ (s.spaceOf x.addr = .spm ∨ s.spaceOf x.addr = .dram) := by
  refine ⟨by unfold AtInstr; decide, by decide, by decide, by decide, by decide, rfl, rfl, by unfold Clear; decide,
    fun g x hx => ?_⟩
  have h := List.mem_map_of_mem (f := fun x : EngWrite => (x.addr, x.bytes.length)) hx
  have hw : x.addr = 0x1000 ∧ x.bytes.length = 1 := Prod.mk.inj (List.mem_singleton.mp h)
  obtain ⟨ha, hb⟩ := hw
  rw [ha, hb]
  decide

theorem witness_EngineSyncInstructionsComplete :
    (let i := ins [0x20, 1, 0, 0, 0, 0, 0, 0, 1]
     let t := task [i]
     let k1 := { t.exec.leaveGate with barriers := t.exec.leaveGate.barriers + 1 }
     AtInstr (at1 [0x20, 1, 0, 0, 0, 0, 0, 0, 1] id) e00 .execute 0x20 t i ∧ syncObj t k1 i < 8192 ∧
      meets ((at1 [0x20, 1, 0, 0, 0, 0, 0, 0, 1] id).sync (syncObj t k1 i)) (syncNum k1 i) = true) ∧
    (let i := ins [0x20, 0, 0, 0, 1, 0, 0, 0, 1]
     let t := { task [i] with sync := [8191] }
     let s := st (running t base)
     let k1 := { t.exec.leaveGate with barriers := t.exec.leaveGate.barriers + 1 }
     AtInstr s e00 .execute 0x20 t i ∧ syncObj t k1 i < 8192 ∧ opnd i 8 4 ≠ 0 ∧ syncObj t t.exec.leaveGate i < 8192 ∧
      meets (s.sync (syncObj t k1 i)) (syncNum k1 i) = false) ∧
    (let i := ins [0x20]
     let t := { task [i] with sync := [8192] }
     let k1 := { t.exec.leaveGate with barriers := t.exec.leaveGate.barriers + 1 }
     AtInstr (st (running t base)) e00 .execute 0x20 t i ∧ 8192 ≤ syncObj t k1 i) ∧
    (let i := ins [0x21]
     let t := { task [i] with sync := [8191] }
     AtInstr (st (running t base)) e00 .execute 0x21 t i ∧ t.acked = true ∧ t.skip ≤ t.sigs ∧
      syncObj t t.exec.leaveGate i < 8192 ∧ refIsJob t.ref = false) ∧
    (let i := ins [0x21]
     let t := { task [i] with sync := [8191], skip := 1 }
     AtInstr (st (running t base)) e00 .execute 0x21 t i ∧ t.acked = true ∧ t.sigs < t.skip) ∧
    (AtInstr (at1 [0x22] id) e00 .execute 0x22 (task [ins [0x22]]) (ins [0x22]) ∧ (task [ins [0x22]]).acked = true) ∧
    (let t := { task [ins [0x22]] with issued := 1 }
     AtInstr (st (running t base)) e00 .execute 0x22 t (ins [0x22]) ∧ t.acked = false) := by
  unfold AtInstr
  (repeat' apply And.intro) <;> decide

/-! ### Library routines, tasks, residency, rotation -/

/-- A task at the CALL of a routine, with 16 writes outstanding; its argument block is all zero, so its views are empty. -/
def callTask (id : Nat) : EngTask := { task [ins [0x30, 0, id]] with issued := 16 }

/-- The views, the record and the outcome of the call over a memory, as `RoutineCompletes` takes them. -/
def callSt (mem : List (Host.Cell)) (id : Nat) : State := st (running (callTask id) { base with mem := mem })
def callWalk (id : Nat) : WalkerSt := { (callTask id).exec.leaveGate with barriers := (callTask id).exec.barriers + 1 }
def callView (mem : List (Host.Cell)) (id n : Nat) : LibView :=
  (callSt mem id).libView (callTask id) (((callWalk id).reg 0).toNat / 16 ^ n)
def callAddr (mem : List (Host.Cell)) (id : Nat) : Nat :=
  devAddr (((callView mem id 3).base : Int) + ((callWalk id).reg 1).toNat)
def callOf (mem : List (Host.Cell)) (id : Nat) (key : List Byte) : LibCall :=
  let v := callView mem id
  ⟨(callSt mem id).toModule, callTask id, v 0, v 1, v 2, v 3, v 4, (callSt mem id).libRec (callTask id) (callAddr mem id), key⟩
def callEmpty (mem : List (Host.Cell)) (id views : Nat) : Bool :=
  let v := callView mem id
  [(0, v 0), (1, v 2), (2, v 3), (3, v 4)].any fun y => views.testBit y.1 && (y.2.width = 0 || y.2.lines = 0)

/-- The conditions of `RoutineCompletes` for the routine's views and result. -/
def CallOk (mem : List (Host.Cell)) (id views : Nat) (f : LibCall → LibOut) : Prop :=
  let s := callSt mem id
  let t := callTask id
  let a := callAddr mem id
  let empty := callEmpty mem id views
  let first : LibOut := if empty then ⟨false, [], 0, []⟩ else f (callOf mem id [])
  let spans := (a, 64) :: ((first.tiles.flatMap (·.reads)).eraseDups.flatMap (·.spans)).eraseDups
  let x := callOf mem id (spans.flatMap fun y => (List.range y.2).map fun j => s.libByte t (y.1 + j))
  let o : LibOut := if empty then first else f x
  let rows := (s.libTiles e00 t [(a, 64)] (if o.bad then [] else o.tiles)).1
  AtInstr s e00 .execute 0x30 t (ins [0x30, 0, id]) ∧ opnd (ins [0x30, 0, id]) 2 2 = id ∧
    t.badger.pc = t.exec.leaveGate.pc ∧ t.badger.barriers = t.exec.barriers ∧ t.gate = none ∧ t.issued = 16 ∧ t.lib = none ∧
    Clear s (callWords t (callWalk id) views) ∧ s.anyBusy spans = false ∧ s.libMissing t [(a, 64)] = [] ∧
    s.libMissing t spans.tail = [] ∧ (s.libCheck e00 t [(a, 64)]).1 = none ∧
    ∀ y ∈ rows, y.stop = none ∧ WritesWell s t y.addr y.bytes.length

theorem callOk_intro (id views : Nat) (f : LibCall → LibOut)
    (h1 : AtInstr (callSt [] id) e00 .execute 0x30 (callTask id) (ins [0x30, 0, id]))
    (h2 : opnd (ins [0x30, 0, id]) 2 2 = id)
    (h3 : ((callSt [] id).libCheck e00 (callTask id) [(callAddr [] id, 64)]).1 = none)
    (h4 : callEmpty [] id views = true)
    (h5 : Clear (callSt [] id) (callWords (callTask id) (callWalk id) views))
    (h6 : (callSt [] id).anyBusy [(callAddr [] id, 64)] = false)
    (h7 : (callSt [] id).libMissing (callTask id) [(callAddr [] id, 64)] = []) : CallOk [] id views f := by
  unfold CallOk
  simp only [h4]
  exact ⟨h1, h2, rfl, rfl, rfl, rfl, rfl, h5, h6, h7, rfl, h3, fun y hy => by simp [Module.libTiles] at hy⟩

theorem witness_LibraryRoutinesComplete :
    CallOk [] 1 0b0111 libConv ∧ CallOk [] 2 0b0111 libGemm ∧ CallOk [] 3 0b0001 libPool ∧
    CallOk [] 4 0b0001 libResize ∧ CallOk [] 5 0b1001 libEltwise ∧ CallOk [] 6 0b0101 libNorm ∧
    CallOk [] 7 0b0001 libSoftmax ∧ CallOk [] 8 0b1111 libAttention ∧ CallOk [] 9 0b0001 Sys2Proof.Machine.libCopy ∧
    CallOk [] 10 0b0001 libArgmax ∧ CallOk [] 11 0b0001 libTopk ∧ CallOk [] 12 0b0001 libNms := by
  refine ⟨?_, ?_, ?_, ?_, ?_, ?_, ?_, ?_, ?_, ?_, ?_, ?_⟩ <;>
    exact callOk_intro _ _ _ (by unfold AtInstr; decide +kernel) (by decide +kernel) (by decide +kernel)
      (by decide +kernel) (by unfold Clear; decide +kernel) (by decide +kernel) (by decide +kernel)

/-- The view 0 of the argument block is one element at 0x2000, where the record of zeros lies as well. -/
def oneElement : List Host.Cell := [(0x1001, 0x20), (0x1008, 0x40), (0x100C, 1), (0x100E, 1)]

theorem witness_LibraryRoutinesComplete_copy :
    CallOk oneElement 9 0b0001 Sys2Proof.Machine.libCopy ∧ callEmpty oneElement 9 0b0001 = false := by
  unfold CallOk AtInstr WritesWell Clear
  refine ⟨?_, by decide +kernel⟩
  (repeat' apply And.intro) <;> decide +kernel

/-- A stage of one task per unit, and its plan on CL0.E0 with a resident set of `res` bytes in a group of `group`. -/
def stage0 : StageSetup := ⟨0, 0, false, 1, 0, 0, 0, 0, 0, [], [], 0, 0⟩
def splan (res group : Nat) : StagePlan := ⟨[0, 1], [], [], 0, 0, [], 0, res, 0, [], group, 0, ⟨0, 0, 0, 0, ⟨0, 0, 0⟩⟩, []⟩

/-- A stream of the context 0 with two stages that hand over through the object 8 191. -/
def staged (res group : Nat) : Stream :=
  { strm .active with setup := { setupOf [] with stages := [stage0, stage0], handover := [8191] }
                      plan := { pl with stages := [splan res group, splan res group] } }

/-- CL0.X0 has passed its power-on sweep and is idle. -/
def idle00 (m : Module) : Module := ((m.setEng e00 Eng.rest).setFld (ENG_X_STAT 0 0) ENG_X_STAT_state 1).setFld (ENG_X_ST 0 0) ENG_X_ST_last_ok 1

theorem witness_TaskLifeCompletes :
    (let s := st (idle00 { base with streams := [(0, staged 0 1)], syncs := [(8191, 1)] })
     s.posOf 0 0 = some e00 ∧ s.free e00 = true ∧ (s.eng e00).assigned = none ∧ s.streams.find? p0.val = some (staged 0 1) ∧
      (s.planStart e00 0 0 p0 (staged 0 1) 1 0 0).isSome = true ∧ (staged 0 1).setup.stages[1]? = some stage0 ∧
      (staged 0 1).plan.stages[1]? = some (splan 0 1) ∧ s.spmBusy (s.stageArgs stage0 0 0) 256 = false) ∧
    (let t := (task [ins [0]]).noOp
     let s := st (running t base)
     (s.eng e00).task = some t ∧ t.exec.ended = true ∧ t.acked = true ∧ t.abort = none ∧ t.late = none ∧
      s.engWindow e00 = [] ∧ (s.engReads e00 (s.pictureReads t)).1 = false) ∧
    (let t := task [ins [0]]
     ((at1 [0] id).eng e00).task = some t ∧ t.exec.ended = false ∧ t.abort = none ∧ t.waitsToPop = false ∧
      ∀ x ∈ t.tiles, x.todo = []) ∧
    (let t := { task [ins [0x12]] with badger := { WalkerSt.begin 0 with ended := true } }
     let s := st (running t base)
     (s.eng e00).task = some t ∧ t.exec.ended = false ∧ t.abort = none ∧ t.waitsToPop = true ∧ t.badger.ended = true ∧
      t.cancelled = 0 ∧ t.qa = [] ∧ t.qb = [] ∧ t.qx = [] ∧ t.res = [] ∧
      ∀ x ∈ t.writes, x.needs = []) ∧
    (let t := { task [ins [0]] with abort := some ⟨10, 0, false⟩ }
     let s := st (running t base)
     s.cpHalted = false ∧ (s.eng e00).task = some t ∧ t.abort = some ⟨10, 0, false⟩ ∧ t.late = none ∧ t.issued = 0 ∧
      t.cancelled = 0 ∧ s.engWindow e00 = [] ∧
      t.ref = .stream 0 0 0 0) ∧
    (let s := st ((idle00 { base with streams := [(0, staged 0 1)] }).setEng e00
       { Eng.rest with assigned := some (.stream 0 1 0 0, 2, true) })
     s.free e00 = true ∧ (s.eng e00).assigned = some (.stream 0 1 0 0, 2, true) ∧
      s.streams.find? p0.val = some (staged 0 1) ∧ (staged 0 1).setup.stages[1]? = some stage0 ∧
      (staged 0 1).plan.stages[1]? = some (splan 0 1) ∧ (splan 0 1).resBytes = 0 ∧
      s.spmBusy (s.stageArgs stage0 0 0) 256 = false) := by
  decide

/-- CL0 with its spare X16 tested, and X0 under the name E0. -/
def spare (state : Nat) (x : Eng) (m : Module) : Module :=
  (m.setEng ⟨0, 16⟩ x).setFld (ENG_X_STAT 0 16) ENG_X_STAT_state state

theorem witness_ResidencyRotationSweepsComplete :
    (let s := st (idle00 { base with streams := [(0, staged 64 1)] })
     s.streams.find? p0.val = some (staged 64 1) ∧ s.posOf 0 0 = some e00 ∧
      (staged 64 1).plan.stageOf 0 = some (splan 64 1) ∧ (splan 64 1).member 0 0 = some 0 ∧ (splan 64 1).resBytes ≠ 0 ∧
      (s.eng e00).task = none ∧ s.areaTaken (s.eng e00) = false ∧ s.latent = [] ∧
      s.badIn ((splan 64 1).resFrom + s.shareNow 0 0 (splan 64 1) 0 * (splan 64 1).resBytes) (splan 64 1).resBytes = [] ∧
      (s.eng e00).holds 0 0 (s.shareNow 0 0 (splan 64 1) 0) = false ∧ s.engOn 0 0 = true) ∧
    (let s := st ({ base with streams := [(0, staged 64 2)] }.setCtx 0 { Ctx.rest with ended := [(0, (2, []))] })
     s.streams.find? p0.val = some (staged 64 2) ∧ (staged 64 2).plan.stages[0]? = some (splan 64 2) ∧ 2 ≤ (splan 64 2).group ∧
      (s.ctx p0).exchanges 0 / (splan 64 2).group < (SMap.get (0, []) (s.ctx p0).ended 0).1) ∧
    (let s := st (idle00 (spare 3 { Eng.rest with passed := 1 } base))
     (s.workingSpare 0).isSome ∧ s.power = 3 ∧ 0 ∉ s.rotDue) ∧
    (let s := st { idle00 (spare 3 { Eng.rest with passed := 1 } base) with rotDue := [0] }
     s.workingSpare 0 = some ⟨0, 16⟩ ∧ s.posOf 0 (s.rotationName 0) = some e00 ∧ 0 ∈ s.rotDue ∧ s.free e00 = true ∧
      (s.eng e00).assigned = none ∧ 0 < (s.eng ⟨0, 16⟩).passed) ∧
    (let s := st (spare 3 Eng.rest base)
     s.entersRun = false ∧ s.engOn 0 16 = true ∧ (s.eng ⟨0, 16⟩).task = none ∧ s.engState ⟨0, 16⟩ = 3 ∧ s.nameOf ⟨0, 16⟩ = 16 ∧ s.tests = true) ∧
    (let s := st (spare 4 { Eng.rest with passed := 15 } base)
     s.entersRun = false ∧ s.engOn 0 16 = true ∧ (s.eng ⟨0, 16⟩).task = none ∧ s.engState ⟨0, 16⟩ = 4 ∧ s.nameOf ⟨0, 16⟩ = 16 ∧ s.tests = true ∧
      (s.eng ⟨0, 16⟩).passed = 15) := by
  decide +kernel

theorem witness_EngineInstructionsFrame : (∃ t, exec (.engineNop e00 .badger) (at1 [0] id) = .next t) ∧
    (∃ t, exec (.ssig e00 .execute) (at1 [0x21] id) = .next t) ∧
    ∃ t, exec (.fetch e00 .badger []) (at1 [0x10] id) = .next t := ⟨⟨_, rfl⟩, ⟨_, rfl⟩, _, rfl⟩

/-! ### Memory, sync objects, DMA -/

def region (base size : Nat) (ph : RegionPhase) (by_ : Option CmdRef) : Region := ⟨1, base, size, false, ph, by_⟩

def ref0 (op : Byte) : CmdRef := ⟨0, 1, 5, op⟩

theorem witness_RegionsAllocateAndFree :
    (let l := [(8, 1, 0), (9, 1, 0), (10, 1, 7), (16, 8, 2 ^ 26)]
     let s := st (takenWith 7 l base)
     s.serialTurn hd 7 = true ∧ StartableRun s hd 7 (entryHas l) (sess [tk 7 l]) ∧ allocForm 0 0 7 = true ∧
      (s.allocGaps false false 7).any (fun g => 2 ^ 26 ≤ g.2) = true ∧ s.regions.find? 16383 = none) ∧
    (let l := [(8, 1, 2), (9, 1, 0), (10, 1, 8), (16, 8, 0)]
     let s := st (takenWith 7 l base)
     s.serialTurn hd 7 = true ∧ Startable s hd 7 (entryHas l) (sess [tk 7 l]) ∧ allocForm 2 0 8 = false) ∧
    (let s := st (withRegs ((List.range 256).map fun n => (YWP_EXP_CTL n, 0))
       { takenWith 8 [(8, 4, 0x10001)] base with regions := [(1, region 4096 4096 .live none)] })
     s.serialTurn hd 8 = true ∧ StartableRun s hd 8 (entryHas [(8, 4, 0x10001)]) (sess [tk 8 [(8, 4, 0x10001)]]) ∧
      s.region? 0x10001 = some (region 4096 4096 .live none) ∧ s.regionHeld 0x10001 = false) ∧
    (let s := st { base with regions := [(1, region 4096 4096 .waiting (some (ref0 8)))] }
     s.cpHalted = false ∧ s.gather = [] ∧ s.region? 0x10001 = some (region 4096 4096 .waiting (some (ref0 8))) ∧
      s.regionUsed (region 4096 4096 .waiting (some (ref0 8))) = false ∧ s.spmOff 4096 4096 = false ∧
      s.spmBusy 4096 4096 = false) ∧
    (let s := st { base with regions := [(1, region 4096 4096 .zeroing (some (ref0 8)))] }
     s.regions.find? (handleKey 0x10001) = some (region 4096 4096 .zeroing (some (ref0 8)))) := by
  unfold StartableRun Startable
  (repeat' apply And.intro) <;> decide +kernel

def fill0 (copy writing : Bool) (wo so : W16) : FillCmd :=
  ⟨ref0 9, copy, 0x10001, 0x10001, 4096, 8192, 8, 1, wo, 1, so, false, writing, 0, false⟩

/-- The operands of a FILL or COPY of `n` bytes at the end of the region 1. -/
def fillOps (n : W64) : List (Nat × Nat × Nat) := fillOperands 0x10001 4088 n 8 8191 0xFFFF 1 1

theorem witness_FillAndCopyComplete_take :
    FillFits (st { base with regions := [(1, region 4096 4096 .live none)] }) true
      (entry 10 ((12, 4, 0x10001) :: fillOps 8)) ∧
    ¬ FillFits (st { base with regions := [(1, region 4096 4096 .live none)] }) false (entry 9 (fillOps 16)) := by
  refine ⟨⟨region 4096 4096 .live none, region 4096 4096 .live none, by decide +kernel⟩, fun ⟨d, r, h, hr⟩ => ?_⟩
  cases (Option.some.inj (show some (region 4096 4096 .live none) = some d from h))
  exact absurd (hr.2.2.2.2.2.2 (by decide +kernel)).1 (by decide +kernel)

theorem witness_FillAndCopyComplete :
    (let s := st { takenWith 9 (fillOps 8) base with regions := [(1, region 4096 4096 .live none)] }
     StartableRun s hd 9 (entryHas (fillOps 8)) (sess [tk 9 (fillOps 8)]) ∧ s.toStart hd 9 = some (tk 9 (fillOps 8)) ∧
      s.fillTurn (tk 9 (fillOps 8)) = true ∧ (tk 9 (fillOps 8)).check = 0 ∧ (8 : W64) ≠ 0 ∧
      s.spmRegion? 0x10001 = some (region 4096 4096 .live none)) ∧
    (let t := { tk 9 (fillOps 16) with check := 3 }
     let s := st { base with sessions := [(0, sess [t])] }
     StartableRun s hd 9 (entryHas (fillOps 16)) (sess [t]) ∧ s.toStart hd 9 = some t ∧ s.fillTurn t = true ∧ t.check ≠ 0) ∧
    (let l := (12, 4, 0x10001) :: fillOps 8
     let s := st { takenWith 10 l base with regions := [(1, region 4096 4096 .live none)] }
     StartableRun s hd 10 (entryHas l) (sess [tk 10 l]) ∧ s.toStart hd 10 = some (tk 10 l) ∧ s.fillTurn (tk 10 l) = true ∧
      (tk 10 l).check = 0 ∧ s.spmRegion? 0x10001 = some (region 4096 4096 .live none)) ∧
    (let s := st { base with fills := [(7, [fill0 false false 0xFFFF 0xFFFF])] }
     s.fillQueue 7 = [fill0 false false 0xFFFF 0xFFFF] ∧ s.poison = [] ∧ s.ueSectors = [] ∧ s.latent = [] ∧
      s.fillBusy (fill0 false false 0xFFFF 0xFFFF) = false) ∧
    (let s := st { base with fills := [(7, [fill0 true false 8191 0xFFFF])] }
     s.fillQueue 7 = [fill0 true false 8191 0xFFFF] ∧ meets (s.sync 8191) 1 = false) ∧
    (let s := st { base with fills := [(7, [fill0 true true 0xFFFF 8191])] }
     s.fillQueue 7 = [fill0 true true 0xFFFF 8191] ∧ (fill0 true true 0xFFFF 8191).finished = false ∧
      s.owned 8191 = false) := by
  unfold StartableRun Startable
  (repeat' apply And.intro) <;> decide +kernel

theorem witness_MemoryUpkeepCompletes :
    (let s := st base
     spmSize - 63 + 63 ≤ spmSize ∧ s.spmBusy (spmSize - 63) 63 = false ∧ s.spmOff (spmSize - 63) 63 = false ∧
      (spmSize - 63) % 64 + 63 ≤ 64 ∧
      s.gather.find? ((spmSize - 63) / 64) = none ∧ s.gatherCount (s.stackOf (spmSize - 63)) < 64) ∧
    (let s := st (withRegs [] { base with regs := [(PWR_STATE, 0x22), (PWR_DOM_STAT, 0)] })
     s.spmBusy (spmSize - 63) 63 = false ∧ s.spmOff (spmSize - 63) 63 = true) ∧
    (let e : GatherEntry := ⟨List.replicate 64 none, 0⟩
     (st { base with gather := [(3, e)] }).gather.find? 3 = some e ∧ e.bytes.length = 64) ∧
    (let s := st ((base.setFld SPM_SCRUB_CFG SPM_SCRUB_CFG_en 1).setFld (SPM_ST_STAT 7) SPM_ST_STAT_state 2)
     s.bit SPM_SCRUB_CFG SPM_SCRUB_CFG_en = true ∧ s.spmOn 7 = true ∧ s.fld (SPM_ST_STAT 7) SPM_ST_STAT_state = 2 ∧
      s.latent = [] ∧ s.stackOf (7 * 2 ^ 26) = 7 ∧ rowOf (7 * 2 ^ 26 % 2 ^ 26) = s.fld (SPM_ST_SCRUB 7) SPM_ST_SCRUB_row) ∧
    (let s := st (base.setFld (SPM_ST_STAT 7) SPM_ST_STAT_state 1)
     s.spmOn 7 = true ∧ s.fld (SPM_ST_STAT 7) SPM_ST_STAT_state = 1 ∧ s.entersRun = false ∧ s.mcSend = []) ∧
    (st base).dramOn = true := by
  decide +kernel

theorem witness_MemoryUpkeepCompletes_zeroing :
    let s := st (base.setFld (SPM_ST_STAT 7) SPM_ST_STAT_state 1)
    (∀ ch, (s.chan ch).phase ≠ .moving) ∧
      ∀ e t, (s.eng e).task = some t → t.writes = [] ∧ ∀ x ∈ t.tiles, x.todo = [] :=
  ⟨fun _ h => (nomatch h), fun _ _ h => (nomatch h)⟩

/-- The operands of a SYNC_OP on the object 8 191 and one past the last. -/
def syncOps (op obj : Nat) : List (Nat × Nat × Nat) :=
  (8, 2, obj) :: (10, 1, op) :: if op = 3 then [(16, 4, 1), (20, 4, 9)] else if op = 0 then [] else [(12, 4, 2)]

theorem witness_SyncOperationsComplete :
    (∀ op ∈ [0, 1, 2, 3], let s := st (takenWith 11 (syncOps op 8191) base)
      Startable s hd 11 (entryHas (syncOps op 8191)) (sess [tk 11 (syncOps op 8191)]) ∧ (8191 : W16).toNat < 8192 ∧
      s.owned 8191 = false ∧ meets (s.sync 8191) 0 = true ∧ meets (s.sync 8191) 1 = false ∧ s.hostWaits.length < 512) ∧
    (∀ op ∈ [0, 1, 2], let s := st { takenWith 11 (syncOps op 8191) base with syncOwner := [(8191, 0)] }
      Startable s hd 11 (entryHas (syncOps op 8191)) (sess [tk 11 (syncOps op 8191)]) ∧ s.owned 8191 = true) ∧
    (∀ op ∈ [0, 1, 2], let s := st (takenWith 11 (syncOps op 8192) base)
      Startable s hd 11 (entryHas (syncOps op 8192)) (sess [tk 11 (syncOps op 8192)]) ∧ 8192 ≤ (8192 : W16).toNat) ∧
    (let s := st { takenWith 11 (syncOps 3 8191) base with hostWaits := List.replicate 512 ⟨0, 5, 8191, 1⟩ }
     Startable s hd 11 (entryHas (syncOps 3 8191)) (sess [tk 11 (syncOps 3 8191)]) ∧ 512 ≤ s.hostWaits.length) ∧
    (let w : HostWait := ⟨0, 5, 8191, 0⟩
     let s := st { taken 11 base with hostWaits := [w] }
     s.hostWait? 0 5 = some w ∧ s.sessions.find? 0 = some (sess [tk 11 []]) ∧ meets (s.sync w.obj) w.thr = true) ∧
    (let w : HostWait := ⟨0, 5, 8191, 1⟩
     let s := st { taken 11 base with hostWaits := [w] }
     s.hostWait? 0 5 = some w ∧ meets (s.sync w.obj) w.thr = false) := by
  unfold Startable
  (repeat' apply And.intro) <;> decide +kernel

theorem witness_ThresholdComparisonWraps : meets 0x7FFFFFFF 0 = true ∧ 2 ^ 31 - 1 < 2 ^ 31 ∧
    ((0 : Word).toNat - (0 : Int)) % 2 ^ 32 + (2 ^ 31 - 1 : Nat) < 2 ^ 31 := by decide

/-- A one-row fill of 8 bytes in SPM, and a one-row copy. -/
def desc0 (op : Nat) (wait last : Bool) : Desc :=
  { descOf [] with op := op, wait := wait, last := last, waitObj := 8191, waitThr := 1, src := 8192, dst := 4096
                   rowBytes := 8, rows := 1, waitTimeout := 1 }

/-- Channel 63 carries a command of session 0 in a phase; the region 1 covers the first 64 KiB. -/
def channel (ph : DmaPhase) (d : Option Desc) (f : Option DmaFail) : State :=
  st { taken 12 base with
    regions := [(1, region 0 65536 .live none)]
    dma := [(63, { DmaCh.rest with owner := .session (ref0 12), phase := ph, desc := d, fail := f, addr := 64
                                   paceHigh := 1, paced := false })] }

theorem witness_DmaListsComplete :
    (StartableRun (st (taken 12 base)) hd 12 (entryHas [(8, 8, 0)]) (sess [tk 12 []]) ∧ (st (taken 12 base)).freeChan.isSome) ∧
    (let s := channel .fetch none none
     (s.chan 63).owner = .session (ref0 12) ∧ (s.chan 63).planOwned = false ∧ (s.chan 63).fail = none ∧
      (s.chan 63).outstanding = 0 ∧ (s.chan 63).phase = .fetch ∧ (s.cmdSession (ref0 12)).map (·.cqWait) = some [] ∧
      (s.chan 63).addr % 64 = 0 ∧ s.dmaOutstanding < 512 ∧ s.latent = [] ∧ s.poison = [] ∧ s.ueSectors = [] ∧ LocalByte s (s.chan 63).addr) ∧
    descForm { desc0 1 true false with op := 2 } false = false ∧
    descForm (desc0 1 true false) false = true ∧ meets ((channel .fetch none none).sync 8191) 1 = false ∧
    RowLocal (channel .fetch none none) (desc0 1 false false) ∧ RowLocal (channel .fetch none none) (desc0 0 false true) ∧
    (let s := channel .waiting (some (desc0 1 true false)) none
     (s.chan 63).phase = .waiting ∧ (s.chan 63).desc = some (desc0 1 true false) ∧ (s.chan 63).todo = 0 ∧
      meets (s.sync 8191) 1 = false ∧ meets (s.sync 8191) 0 = true ∧ (s.chan 63).paced = false ∧ s.dmaOutstanding < 512) ∧
    (let s := channel .moving (some { desc0 1 false false with rowBytes := 0 }) none
     (s.chan 63).phase = .moving ∧ ({ desc0 1 false false with rowBytes := 0 } : Desc).total ≤ (s.chan 63).todo) := by
  unfold StartableRun Startable RowLocal LocalByte
  (repeat' apply And.intro) <;> decide +kernel

theorem witness_DmaListsComplete_paced :
    let s := st { taken 12 base with dma := [(63, { DmaCh.rest with
      owner := .session (ref0 12), phase := .moving, desc := some (desc0 1 false true), paced := true })] }
    (s.chan 63).phase = .moving ∧ (s.chan 63).desc = some (desc0 1 false true) ∧ (s.chan 63).todo = 0 ∧
      (s.chan 63).paced = true ∧ 0 ≤ (s.chan 63).paceLow ∧ s.dmaOutstanding < 512 := by decide +kernel

def fail0 : DmaFail := ⟨2 ^ 48 - 1, 3, 7⟩

theorem witness_DmaHaltsComplete :
    (let s := channel .moving none (some fail0)
     (s.chan 63).fail = some fail0 ∧ fail0.addr < 2 ^ 48 ∧ fail0.direction < 4 ∧ fail0.cause < 8 ∧
      (s.chan 63).owner = .session (ref0 12) ∧ (s.chan 63).phase = .moving) ∧
    (let s := channel .halting none (some fail0)
     (s.chan 63).phase = .halting ∧ (s.chan 63).outstanding = 0) ∧
    (let s := channel .halted none (some fail0)
     Admits s (.debug 2) true (DMA_CH_CTL 63) ∧ (s.chan 63).owner = .session (ref0 12) ∧ (s.chan 63).planOwned = false ∧
      (s.chan 63).phase = .halted ∧ (s.chan 63).desc = none) ∧
    (let s := channel .halted (some (desc0 1 false true)) (some fail0)
     Admits s (.debug 2) true (DMA_CH_CTL 63) ∧ (s.chan 63).desc = some (desc0 1 false true) ∧
      RowLocal s (desc0 1 false true) ∧ (s.chan 63).acked = [] ∧ (s.chan 63).paced = false) ∧
    (let s := channel .moving none (some fail0)
     Admits s (.debug 2) true (DMA_CH_CTL 63) ∧ (s.chan 63).phase ≠ .halted) ∧
    (let s := st { base with dma := [(63, { DmaCh.rest with
       owner := .plan (.clip 0 0 0), planOwned := true, phase := .halted, desc := some (desc0 1 false true), fail := some fail0 })] }
     (s.chan 63).owner = .plan (.clip 0 0 0) ∧ (s.chan 63).planOwned = true ∧ (s.chan 63).phase = .halted ∧
      (s.chan 63).desc = some (desc0 1 false true) ∧ s.cpHalted = false ∧ s.planMoves = []) := by
  unfold Admits RowLocal LocalByte
  (repeat' apply And.intro) <;> decide +kernel

def clip0 (frozen : Bool) (done : List Word) : Clip := { Clip.rest with frozen := frozen, done := done }

/-- Context 0 with output 3 copied to a clip ring in region 1, one frame out and none copied. -/
def clipSt (c : Clip) (m : Module) : State :=
  st (withRegs [(NIS_OUT_CLIP 0 3, 0x10001)] ({ m with
    regions := [(1, region 0 65536 .live none)], clips := [(3, c)] }))

theorem witness_ClipsAndDeliveriesComplete :
    (let s := clipSt (clip0 true [0]) base
     s.clips.find? (4 * p0.val + 3) = some (clip0 true [0]) ∧
      s.region? (s.rd (NIS_OUT_CLIP p0 3)) = some (region 0 65536 .live none) ∧ s.poison = [] ∧ s.ueSectors = [] ∧ s.latent = [] ∧
      s.gather = [] ∧      (clip0 true [0]).done = [0]) ∧
    (let l := [(8, 4, 0x20001), (12, 1, 1)]
     let s := clipSt (clip0 false []) (takenWith 13 l base)
     Startable s hd 13 (entryHas l) (sess [tk 13 l]) ∧ s.clipsOf 0x20001 = []) := by
  unfold Startable
  (repeat' apply And.intro) <;> decide +kernel

/-! ### Clips, deliveries, streams, modes, jobs, packages -/

/-- Context 0 with one picture stage whose first frame has ended; its output 3 goes to the clip ring in region 1 and to
a delivery on the plan channel 62. -/
def outStream (suspended : Bool) : Stream :=
  { strm .active with
    setup := { setupOf [] with deliveries := [⟨8, 1, 0, 0, 64, 0, 0, suspended, false, 7⟩] }
    plan := { pl with channels := [62], pics := [⟨8, 0, [], [], 0, 0, 0, 0, 0, 0, 0, 0, 1, 1, false, [], 0, 0, 0, 0, ⟨0, 0, 0, 0, ⟨0, 0, 0⟩⟩⟩] } }

def outSt (c : Clip) (suspended : Bool) (m : Module) : State :=
  st (withRegs [(NIS_OUT_CLIP 0 3, 0x10001), (NIS_OUT_CFG 0 3, NIS_OUT_CFG_en.put 0 1),
      (NIS_OUT_DEST 0 3, NIS_OUT_DEST_clip.put 0 1), (FE_CROP_WH 0, BitVec.ofNat 32 (16 * 65536 + 16))]
    ({ m with regions := [(1, region 0 65536 .live none)], clips := [(3, c)], streams := [(0, outStream suspended)]
              dma := [(62, { DmaCh.rest with planOwned := true, phase := .moving })] }.setCtx 0
      { Ctx.rest with ended := [(8, (2, []))] }))

theorem witness_ClipsAndDeliveriesComplete_frames :
    (let s := outSt (clip0 true [0]) false base
     s.streams.find? p0.val = some (outStream false) ∧ s.outDest p0 3 NIS_OUT_DEST_clip = true ∧
      (s.ctx p0).unitsEnded (48 + 3) < s.framesOut p0 (outStream false) ∧ (clip0 true [0]).frozen = true) ∧
    (let s := outSt (clip0 false []) false base
     (outStream false).plan.channels[3 % max 1 (outStream false).plan.channels.length]? = some 62 ∧
      (s.chan 62).phase ≠ .idle) ∧
    (∀ l ∈ [[(8, 4, 0x10001), (12, 1, 0), (16, 4, 0)], [(8, 4, 0x10001), (12, 1, 0), (16, 4, 7)], [(8, 4, 0x10001), (12, 1, 1)]],
      let s := outSt (clip0 false []) false (takenWith 13 l base)
      Startable s hd 13 (entryHas l) (sess [tk 13 l]) ∧ s.clipsOf 0x10001 = [(0, 3)]) ∧
    (let l := [(8, 4, 0x20000), (12, 1, 0)]
     let s := outSt (clip0 false []) true (takenWith 15 l base)
     Startable s hd 15 (entryHas l) (sess [tk 15 l]) ∧ s.streamOf 0x20000 = none) ∧
    (let l := [(8, 4, 0x10000), (12, 1, 0)]
     let s := outSt (clip0 false []) true (takenWith 15 l base)
     (outStream true).setup.deliveries[0]? = some ⟨8, 1, 0, 0, 64, 0, 0, true, false, 7⟩ ∧
      (s.ctx p0).unitsEnded (32 + 0) < (s.ctx p0).unitsEnded 8 ∧ Startable s hd 15 (entryHas l) (sess [tk 15 l]) ∧
      s.streamOf 0x10000 = some (p0, outStream true)) ∧
    (outStream false).plan.channels[((outStream false).plan.channels.length - (outStream false).setup.deliveries.length + 0) %
      max 1 (outStream false).plan.channels.length]? = some 62 := by
  unfold Startable
  (repeat' apply And.intro) <;> decide +kernel

/-- An ADMIT that waits for the fox, of a set-up without analysis stages for the context 0. -/
def admit0 (bad : Option Nat) : AdmitReq := ⟨ref0 1, 0, 0, setupOf [], bad, 0, 0⟩

/-- Context 0 calibrated, with a 16 × 16 crop and an input region. -/
def planned (bad : Option Nat) : State :=
  st (withRegs [(NIS_IN_REGION 0, 0x10001), (CAP_GEOM 0, BitVec.ofNat 32 (16 * 65536 + 16)),
      (FE_CROP_WH 0, BitVec.ofNat 32 (16 * 65536 + 16))]
    ({ taken 1 base with regions := [(1, region 0 65536 .live none)], admitting := some (admit0 bad) }.setCal 0
      { Cal.rest with blOk := true }))

theorem witness_AdmissionCompletes :
    (let s := st { takenWith 1 [(8, 8, 65472)] base with regions := [(1, region 0 65536 .live none)] }
     StartableRun s hd 1 (admitOperands 65472 0 0) (sess [tk 1 [(8, 8, 65472)]]) ∧ s.serialTurn hd 1 = true ∧
      s.latent = [] ∧ s.modeChange = none ∧ s.recordBusy (65472 : W64).toNat setupLen = false ∧
      65472 % 64 = 0 ∧ (s.recordRead 65472 64 (.data [])).toOption = some (s.bytes 65472 64) ∧
      setupLen (s.bytes 65472 64) = 64) ∧
    (let s := st (takenWith 1 [(8, 8, 65)] base)
     StartableRun s hd 1 (admitOperands 65 0 0) (sess [tk 1 [(8, 8, 65)]]) ∧ s.serialTurn hd 1 = true ∧
      s.modeChange = none ∧ s.recordBusy (65 : W64).toNat setupLen = false ∧ (65 : W64).toNat % 64 ≠ 0) ∧
    ((planned (some 2)).cpHalted = false ∧ (planned (some 2)).fullFill = none ∧ (planned (some 2)).leaving = false ∧
      (planned (some 2)).reportWaits (admit0 (some 2)) = false ∧ (planned (some 2)).winOut = [] ∧
      (planned (some 2)).admitting = some (admit0 (some 2)) ∧ (admit0 (some 2)).setup.ctx = p0.val ∧
      (({ (planned (some 2)).toModule with admitting := none }.form (admit0 (some 2))).isSome = true)) ∧
    (({ (planned none).toModule with admitting := none }.form (admit0 none)).isNone = true) ∧
    (∀ l ∈ [[(8, 4, 0x10000)], [(8, 4, 0x20000)]],
      let s := st { takenWith 2 l base with streams := [(0, strm .active)] }
      Startable s hd 2 (entryHas l) (sess [tk 2 l]) ∧ s.serialTurn hd 2 = true ∧
        s.streamOf 0x10000 = some (p0, strm .active) ∧ s.streamOf 0x20000 = none) ∧
    (let r : Stream := { strm .releasing with releaseBy := some (ref0 2, 0) }
     let s := st { base with streams := [(0, r)] }
     s.cpHalted = false ∧ s.streams.find? p0.val = some r ∧ r.phase = .releasing ∧ s.streamDrained p0 r = true ∧ s.transition = none ∧
      s.fullFill = none) := by
  unfold StartableRun Startable
  (repeat' apply And.intro) <;> decide +kernel

theorem witness_DeadlinesAndCapComplete :
    (let x : Stream := { strm .active with setup := { setupOf [] with stages := [{ stage0 with deadline := 1 }] } }
     let s := st ({ base with streams := [(0, x)] }.setCtx 0 { Ctx.rest with index := 1 })
     s.streams.find? p0.val = some x ∧ s.hasDeadline p0 x 0 = true ∧ (0 : Word).toNat < (s.ctx p0).index.toNat ∧
      s.sentDark p0 x 0 0 0 = false ∧
      x.late.contains (0, 0, 0) = false) ∧
    (st base).bit PWR_TEMP_STAT PWR_TEMP_STAT_cap_held = false ∧
    (let s := st (base.setFld SYS_ADM_POWER SYS_ADM_POWER_planned_dw 1)
     s.cap < s.fld SYS_ADM_POWER SYS_ADM_POWER_planned_dw) := by
  decide +kernel

theorem witness_ThermalCapFallsLinearly : (2, 950, 800, 10) ∈ [(0, 1500, 1050, 30), (1, 1850, 1250, 40), (2, 950, 800, 10)] ∧
    ((70 * 16 : Int) ≤ 70 * 16 ∧ (85 * 16 : Int) ≤ 85 * 16) ∧ (st base).bit PWR_TEMP_STAT PWR_TEMP_STAT_cap_held = false := by
  decide +kernel

theorem witness_ModeChangesComplete :
    (Admits (st base) (.debug 2) true PWR_MODE ∧ (st base).fullFill = none) ∧
    (let x : ModeChange := ⟨2, .replanning, []⟩
     let s := st { base with modeChange := some x }
     s.cpHalted = false ∧ s.modeChange = some x ∧ x.target < 3 ∧ s.admitting = none ∧
      (planAll (s.byAdmission.filter fun e => e.2.phase ≠ .releasing) (s.inMode 2).unplanned).2.1 = 0) ∧
    (let x : ModeChange := ⟨2, .stopping, [(0, pl)]⟩
     let s := st { base with modeChange := some x, streams := [(0, strm .stopped)] }
     s.cpHalted = false ∧ s.modeChange = some x ∧ s.enginesIdle = true ∧
      (s.streams.all fun e => e.2.phase = .stopped && s.streamDrained e.1 e.2) = true ∧
      x.plans.Pairwise (fun a b => a.1 ≠ b.1)) ∧
    (let x : ModeChange := ⟨2, .starting, [(0, pl)]⟩
     let s := st { base with modeChange := some x, streams := [(0, strm .active)] }
     s.cpHalted = false ∧ s.modeChange = some x ∧ x.target < 3 ∧ s.streams.any (·.2.phase = .waiting) = false) := by
  unfold Admits
  (repeat' apply And.intro) <;> decide +kernel

/-- The non-zero bytes of a package at 4096 with one template, whose variant 0 costs its base of `base` cycles. -/
def pkgMem : List Host.Cell :=
  [(4096, 0x4B), (4097, 0x4D), (4098, 0x50), (4099, 0x31), (4100, 1), (4104, 1), (4112, 0x60), (4113, 1),
   (4160, 3), (4168, 128), (4172, 224), (4224, 1), (4352, 1), (4376, 255), (4380, 255)]

/-- A job record of one stage with template 0 of the package 1 and one task per unit, for a region at 0. -/
def pkg0 : Package := ⟨1, 0x10001, 4096, 352⟩
def pkgSt (m : Module) : Module :=
  { m with mem := pkgMem, regions := [(1, region 0 65536 .live none)], packages := [(1, pkg0)] }
def pstage : StageSetup := { stage0 with package := 0x10001, frameUnit := true, argsRegion := 0x10001 }

/-- A stream with an analysis stage cannot be planned while every cluster is off. -/
theorem witness_ModeChangesComplete_refused :
    (let x : ModeChange := ⟨1, .replanning, []⟩
     let s := st { pkgSt base with modeChange := some x, regs := [(PWR_STATE, 0x33), (CAP_GEOM 0, 0)],
                                   streams := [(0, { strm .active with setup := { setupOf [] with stages := [pstage] } })] }
     s.cpHalted = false ∧ x.phase = .replanning ∧ s.admitting = none ∧
       (planAll (s.byAdmission.filter fun e => e.2.phase ≠ .releasing) (s.inMode 1).unplanned).2.1 ≠ 0) := by
  decide +kernel

/-- The bytes of a job record of one stage at 8192: a template of the package 1, one task. -/
def jobMem : List Host.Cell :=
  pkgMem ++ [(8192, 1), (8256, 1), (8258, 1), (8263, 1), (8268, 255), (8271, 1), (8304, 1), (8306, 1)]

def job0 (dispatched : Bool) : Job :=
  ⟨1, ⟨0, 1, 9, 3⟩, [pstage], [], [], .none, dispatched, [[(.queued, 0, false)]], false, false, none, [], []⟩

theorem witness_JobsComplete :
    (let s := st { pkgSt (takenWith 3 [(8, 8, 8192)] base) with mem := jobMem }
     let b := s.bytes 8192 128
     StartableRun s hd 3 (entryHas [(8, 8, 8192)]) (sess [tk 3 [(8, 8, 8192)]]) ∧ s.latent = [] ∧ 8192 % 64 = 0 ∧
      s.recordBusy (8192 : W64).toNat jobLen = false ∧
      (s.recordRead 8192 64 (.data [])).toOption = some (s.bytes 8192 64) ∧ jobLen (s.bytes 8192 64) = 128 ∧
      (s.recordRead 8192 128 (.data [])).toOption = some b ∧ fieldAt b 1 1 = 0 ∧
      jobForm b = true ∧ (jobStages b).all s.jobStageOk = true ∧ s.jobChainOk (jobStages b) (arrayAt b 20 2 7) = true) ∧
    (let s := st (pkgSt (takenWith 3 [(8, 8, 8192)] base))
     StartableRun s hd 3 (entryHas [(8, 8, 8192)]) (sess [tk 3 [(8, 8, 8192)]]) ∧
      (s.recordRead 8192 64 (.data [])).toOption = some (s.bytes 8192 64) ∧ jobLen (s.bytes 8192 64) = 64 ∧
      fieldAt (s.bytes 8192 64) 1 1 = 0 ∧ jobForm (s.bytes 8192 64) = false) ∧
    (StartableRun (st (takenWith 3 [(8, 8, 65)] base)) hd 3 (entryHas [(8, 8, 65)]) (sess [tk 3 [(8, 8, 65)]]) ∧
      (65 : W64).toNat % 64 ≠ 0 ∧
      (st (takenWith 3 [(8, 8, 65)] base)).recordBusy (65 : W64).toNat jobLen = false) ∧
    (let s := st (idle00 { pkgSt base with jobs := [job0 false] })
     s.job? 1 = some (job0 false) ∧ s.posOf 0 0 = some e00 ∧ (job0 false).task? 0 0 = some (.queued, 0, false) ∧
      (job0 false).stages[0]? = some pstage ∧ s.dispatching = true ∧ s.handed (job0 false) 0 = true ∧ s.takesJob e00 (s.stageRes pstage) = true ∧
      s.jobFits (job0 false) pstage 0 0 0 = true ∧ (job0 false).expiry = .none ∧
      SMap.get 0 (job0 false).clusters (jobKey 0 0) = 0 ∧ s.rerunWaits 0 e00 = false ∧
      s.argsBusy pstage 1 = false ∧ s.jobAhead e00 0 0 1 (s.jobCost pstage 0) = false) ∧
    (let j := { job0 true with tasks := [[(.queued, 2, true)]], clusters := [(0, 1)] }
     let s := st (idle00 { pkgSt base with jobs := [j] })
     s.job? 1 = some j ∧ j.task? 0 0 = some (.queued, 2, true) ∧ s.handed j 0 = true ∧
      s.takesJob e00 (s.stageRes pstage) = true ∧ s.jobFits j pstage 0 0 0 = true ∧
      s.argsBusy pstage 1 = false ∧
      SMap.get 0 j.clusters (jobKey 0 0) = 0 + 1) ∧
    (let t := { task [ins [0]] with ref := .job 1 0 0 }
     let s := st (running t base)
     s.cpHalted = false ∧ (s.eng e00).task = some t ∧ refIsJob t.ref = true ∧ t.abort = none ∧ t.exec.ended = false) ∧
    (let s := st { takenWith 4 [(8, 4, 9)] base with jobs := [job0 false] }
     Startable s hd 4 (entryHas [(8, 4, 9)]) (sess [tk 4 [(8, 4, 9)]]) ∧
      s.jobs.all (fun j => !(j.cmd.session = (hd : CmdHdr).session && j.cmd.gen = 1 && j.cmd.tag = 8)) = true ∧
      Startable (st (takenWith 4 [(8, 4, 8)] base)) hd 4 (entryHas [(8, 4, 8)]) (sess [tk 4 [(8, 4, 8)]]) ∧
      s.jobs.filter (fun j => j.cmd.session = (hd : CmdHdr).session && j.cmd.gen = 1 && j.cmd.tag = 9) = [job0 false] ∧
      s.job? 1 = some (job0 false) ∧ (job0 false).held = false ∧ (job0 false).cmd.opcode = 3 ∧ s.withdraws = []) := by
  unfold StartableRun Startable
  (repeat' apply And.intro) <;> decide +kernel

theorem witness_PackagesAndPlainCommandsComplete :
    Startable (st (taken 0 base)) hd 0 (entryHas []) (sess [tk 0 []]) ∧
    (Startable (st (taken 255 base)) hd (255 : Byte).toNat reservedEntry (sess [tk 255 []]) ∧ 16 ≤ (255 : Byte).toNat) ∧
    Startable (st (takenWith 11 [(10, 1, 4)] base)) hd 11 reservedEntry (sess [tk 11 [(10, 1, 4)]]) ∧
    Startable (st (takenWith 13 [(12, 1, 2)] base)) hd 13 reservedEntry (sess [tk 13 [(12, 1, 2)]]) ∧
    Startable (st (takenWith 14 [(8, 4, 6)] base)) hd 14 (entryHas [(8, 4, 6)]) (sess [tk 14 [(8, 4, 6)]]) ∧
    (let l := [(8, 4, 0x10001), (16, 8, 4096), (24, 8, 352)]
     let s := st { pkgSt (takenWith 5 l base) with packages := [] }
     StartableRun s hd 5 (entryHas l) (sess [tk 5 l]) ∧ s.serialTurn hd 5 = true ∧ s.latent = [] ∧ s.poison = [] ∧
      s.ueSectors = [] ∧
      s.region? 0x10001 = some (region 0 65536 .live none) ∧ 4096 % 64 = 0 ∧ 4096 + 352 ≤ 65536 ∧ s.packages.length < 1023 ∧
      (s.loaderError (0 + 4096) 352).1 ≠ 0 ∧ s.packages.find? 1023 = none) ∧
    (let s := st { taken 5 base with mem := [(64, 0x4B), (65, 0x4D), (66, 0x50), (67, 0x31), (68, 1), (80, 64)] }
     (s.loaderError (0 + 64) 64).1 = 0) ∧
    (let l := [(8, 4, 0x10001)]
     let s := st (pkgSt (takenWith 6 l base))
     Startable s hd 6 (entryHas l) (sess [tk 6 l]) ∧ s.serialTurn hd 6 = true ∧ s.package? 0x10001 = some pkg0) := by
  unfold StartableRun Startable
  (repeat' apply And.intro) <;> decide +kernel

/-! ### The host link -/

/-- A message header of node 7 for the module: session 0, generation 1. -/
def mh : Hdr := ⟨0, .mac 0x02_00_00_00_00_07, nodeMac 0, 0x10, false, true, 7, 0, 0x100, 5, 0⟩

/-- An ATTACH payload with three rings of 64 that lie one after another. -/
def attach0 : List Byte :=
  [16, 16, 3, 0, 9, 0, 0xE8, 3] ++ List.replicate 8 0 ++ [0, 16, 0, 0, 0, 0, 0, 0] ++ [0, 20, 0, 0, 0, 0, 0, 0] ++
    [64, 0, 0, 0, 64, 0, 0, 0, 64, 0, 0, 0] ++ List.replicate 20 0

/-- The same with a keepalive of 1 ms, which is out of range. -/
def attach1 : List Byte := attach0.set 6 1 |>.set 7 0

/-- The base module with session 0 attached and nothing taken. -/
def attached (x : Session) : Module := { base with sessions := [(0, x)] }

theorem witness_SessionsComplete :
    (let s := st base
     s.addressed mh false = true ∧ s.ready = true ∧ attach0.length = 64 ∧ s.attachDone = [] ∧
      (s.attachWait.all fun a => !(a.m.src = mh.src && a.m.seq = mh.seq)) = true ∧ s.sessions.length < 256 ∧
      s.attachWait.length < 64) ∧
    (let s := st { base with sessions := (List.range 256).map fun n => (n, sess []) }
     s.addressed mh false = true ∧ s.ready = true ∧ 256 ≤ s.sessions.length) ∧
    (let s := st { base with attachWait := [⟨mh, attach0⟩] }
     s.ready = true ∧ s.cpHalted = false ∧ 16 ≤ fieldAt attach0 1 1 ∧ fieldAt attach0 0 1 ≤ 16 ∧ attachBad attach0 = none ∧
      s.sessions.find? 0 = none) ∧
    (16 ≤ fieldAt attach1 1 1 ∧ fieldAt attach1 0 1 ≤ 16 ∧ attachBad attach1 = some 6) ∧
    (let s := st (attached (sess []))
     s.addressed mh false = true ∧ s.ready = true ∧ s.sessionOf mh.session = some (0, sess []) ∧ mh.epoch = s.epoch ∧
      mh.version = (sess []).version ∧ ([1, 0, 0, 0] : List Byte).length = 4 ∧
      reservedStatus (fieldAt [1, 0, 0, 0] 0 4) = false ∧ reservedStatus (fieldAt [15, 0, 0, 0] 0 4) = true ∧ s.boot ≠ .off ∧
      s.sessions.find? (0 : Fin 256).val = some (sess [])) ∧
    (let x := { sess [] with sqTail := 1 }
     let s := st (attached x)
     s.serving = true ∧ s.nextTurn = some (0 : Fin 256).val ∧ s.sessions.find? (0 : Fin 256).val = some x ∧
      x.inline.find? (·.1 = x.sqHead) = none) := by
  (repeat' apply And.intro) <;> decide +kernel

/-- A DOORBELL with a submission count of n and no entries. -/
def doorbell0 (n : Byte) : List Byte := [n, 0, 0, 0] ++ List.replicate 12 0

/-- A REG_ACCESS of one operation on port 0's CAP_TRIG_PERIOD. -/
def regAcc (op : Byte) : List Byte :=
  [1, 0, 0, 0] ++ leBytes 3 (CAP_TRIG_PERIOD p0) ++ [op] ++ leBytes 4 100000

def cmpl0 : Compl := ⟨5, 0, false, 1, 0⟩

theorem witness_SessionMessagesAndRingsComplete :
    (let s := st (attached (sess []))
     Served s mh 0 (sess []) ∧ (doorbell0 1).length = 16 + 64 * fieldAt (doorbell0 1) 12 1 ∧
      fieldAt (doorbell0 1) 12 1 ≤ 16 ∧
      (ringUsed (advance (BitVec.ofNat 32 (fieldAt (doorbell0 1) 0 4)) 0) 0 ≤ 16 ∧ ringUsed 0 (advance 0 0) ≤ 16) ∧
      16 < ringUsed (advance (BitVec.ofNat 32 (fieldAt (doorbell0 17) 0 4)) 0) 0 ∧
      ([0, 0, 0, 0, 1, 0, 0, 0] : List Byte).length = 8 ∧
      (∀ k r, (sess []).lastReg ≠ some (mh.seq, k, r)) ∧ (regAcc 0).length = 12 ∧ fieldAt (regAcc 0) 0 1 = 1 ∧
      regOp (regAcc 0) 0 = (CAP_TRIG_PERIOD p0, 0, BitVec.ofNat 32 (fieldAt (regAcc 0) 8 4)) ∧
      regOp (regAcc 1) 0 = (CAP_TRIG_PERIOD p0, 1, BitVec.ofNat 32 (fieldAt (regAcc 1) 8 4)) ∧ s.transition = none ∧
      Admits s (.session (BitVec.ofNat 8 0).toFin mh.port) false (CAP_TRIG_PERIOD p0) ∧
      Admits s (.session (BitVec.ofNat 8 0).toFin mh.port) true (CAP_TRIG_PERIOD p0) ∧ 100000 ≤ fieldAt (regAcc 1) 8 4) ∧
    (let x := { sess [] with lastReg := some (5, 0, [1]) }
     Served (st (attached x)) mh 0 x ∧ x.lastReg = some (mh.seq, 0, [1])) ∧
    (let x := { sess [] with sqTail := 1 }
     let s := st (attached x)
     let b : List Byte := List.replicate 64 0
     s.boot ≠ .off ∧ s.sessions.find? (0 : Fin 256).val = some x ∧ s.serving = true ∧
      s.nextTurn = some (0 : Fin 256).val ∧ x.inline.find? (·.1 = x.sqHead) = none ∧ b.length = 64 * readCount x ∧ b = b.take 64 ∧
      s.entryWaits b = false) ∧
    (let s := st { attached (sess []) with jobs := List.replicate 1024 (job0 false) }
     s.entryWaits (entry 3 []) = true) ∧
    (let x := { sess [] with sqTail := 1, inline := [(0, List.replicate 64 0)] }
     x.inline.find? (·.1 = x.sqHead) = some (0, List.replicate 64 0)) ∧
    (let x := { sess [] with cqWait := [cmpl0], lost := 3, ackPending := true, sqHead := 1, sqTail := 1 }
     let s := st (attached x)
     s.boot ≠ .off ∧ s.cpHalted = false ∧ s.sessions.find? (0 : Fin 256).val = some x ∧ x.cqWait = cmpl0 :: [] ∧
      ringUsed x.cqTail x.cqHead < x.cqN ∧ x.lost ≠ 0 ∧ 2 ≤ eqFree x ∧ x.ackPending = true ∧
      (x.sqHead, x.cqTail, x.eqTail) ≠ x.lastNotify ∧ x.notifyAt = 0 ∧ s.formOn x.peer.udp = true) := by
  unfold Served Admits
  (repeat' apply And.intro) <;> first | decide +kernel | (intro k r; simp [sess, newSession])

/-- A broadcast frame of the given length, untagged. -/
def rx (n : Nat) : RxFrame := ⟨n, 0xFFFFFFFFFFFF, 2, none, none, 0x88B5⟩

/-- A frame from node 7's MAC to the node's that carries a message in the Ethernet form. -/
def frame0 (l : List Byte) : List Byte := [2, 0x59, 0x57, 0, 0, 0, 2, 0, 0, 0, 0, 7, 0x88, 0xB5] ++ l

theorem witness_ReceptionCompletes :
    (let s := st (withRegs [(NET_PORT_CFG 0, NET_PORT_CFG_enable.put (regReset (NET_PORT_CFG 0)) 1)] base)
     s.boot ≠ .off ∧ s.bit PWR_DOM_STAT PWR_DOM_STAT_net = true ∧
      s.bit (NET_PORT_CFG (0 : Fin 2)) NET_PORT_CFG_enable = true ∧
      s.fld (NET_PORT_CFG (0 : Fin 2)) NET_PORT_CFG_max_frame < (rx 100000).bytes ∧
      (rx 64).bytes ≤ s.fld (NET_PORT_CFG (0 : Fin 2)) NET_PORT_CFG_max_frame ∧ (rx 64).tag = none ∧
      (rx 64).rtag = none ∧ s.macAccepts 0 (rx 64) = true ∧ s.filterOf 0 (rx 64) = none ∧
      (s.netPort 0).rxq.sum + (rx 64).bytes ≤ 65536) ∧
    (let s := st base
     s.ywpIn 0 (frame0 [] |>.take 13) = none ∧ s.discards 0 (frame0 ([0x10, 5] ++ List.replicate 22 0)) = false ∧
      s.ywpIn 0 (frame0 (List.replicate 23 0)) = some (.mac 0x02_00_00_00_00_07, List.replicate 23 0) ∧
      reservedType (headAt ([0x10, 9] ++ List.replicate 22 0) 1 1) = true ∧
      s.macFor 0 0x02_00_00_00_00_07 false = false) ∧
    (let s := st base
     s.addressed { mh with dst := 0xFFFF } true = true ∧ s.transition = none ∧ s.ready = true) ∧
    (let s := st { base with regs := [(PWR_STATE, 0x11), (PWR_CFG, PWR_CFG_wake_a.put 0 1)] }
     s.addressed mh true = true ∧ s.transition = none ∧ s.power = 1 ∧ s.wakeOn mh.port.val = true ∧ s.tooHot = false ∧
      s.notReadyAt.find? mh.src.toNat = none ∧ s.wakeOn 1 = false ∧
      ([1] : List Byte) ≠ []) := by
  (repeat' apply And.intro) <;> decide +kernel

/-! ### Windows and the network -/

/-- The control word of an exported window of 4096 bytes that grants everything. -/
def expCtl (isOpen : Nat) : Word :=
  YWP_EXP_CTL_open.put (YWP_EXP_CTL_write.put (YWP_EXP_CTL_read.put (YWP_EXP_CTL_sync.put 0 1) 1) 1) isOpen

/-- The base module with region 1 and exported window 0 over it, of generation 1. -/
def exported (isOpen : Nat) (m : Module) : Module :=
  withRegs [(YWP_EXP_CTL 0, expCtl isOpen), (YWP_EXP_GEN 0, 1), (YWP_EXP_REGION 0, 0x10001),
    (YWP_EXP_SYNC 0, YWP_EXP_SYNC_count.put 0 4)] { m with regions := [(1, region 0 65536 .live none)] }

/-- A WIN_WRITE of 4 bytes at offset 0, with a span of n in its header. -/
def winWr (n : Byte) : List Byte := [0, 0, 1, 0, 0, 0, n, 0] ++ List.replicate 16 0 ++ [1, 2, 3, 4]
/-- A WIN_READ of 4 bytes at the given 256 B offset. -/
def winRd (o : Byte) : List Byte := [0, 0, 1, 0, 4, 0, 0, 0, 0, o, 0, 0, 0, 0, 0, 0]
/-- A WIN_SYNC that adds 1 to object 2 of window 0. -/
def winSy : List Byte := [0, 0, 1, 0, 0, 0, 2, 0, 0, 0, 0, 0]

theorem witness_ExportedWindowsComplete :
    (let s := st (exported 0 base)
     Admits s (.debug 2) true (YWP_EXP_CTL (0 : Fin 256)) ∧ takesWord (YWP_EXP_CTL (0 : Fin 256)) (expCtl 1) = true ∧
      s.bit (YWP_EXP_CTL (0 : Fin 256)) YWP_EXP_CTL_open = false ∧ YWP_EXP_CTL_open.of (expCtl 1) = 1 ∧
      s.spanInside 0 (expCtl 1) = true) ∧
    (let s := st (exported 1 base)
     Admits s (.debug 2) true (YWP_EXP_CTL (0 : Fin 256)) ∧ takesWord (YWP_EXP_CTL (0 : Fin 256)) (expCtl 0) = true ∧
      s.bit (YWP_EXP_CTL (0 : Fin 256)) YWP_EXP_CTL_open = true ∧
      expCtl 0 = YWP_EXP_CTL_open.put (s.rd (YWP_EXP_CTL (0 : Fin 256))) 0) ∧
    (let s := st (exported 1 base)
     s.addressed mh false = true ∧ s.ready = true ∧ 24 ≤ (winWr 4).length ∧
      (winWr 4).length = 24 + fieldAt (winWr 4) 6 2 ∧ 0 < fieldAt (winWr 4) 6 2 ∧ fieldAt (winWr 4) 6 2 ≤ 1024 ∧
      s.winCheck mh (fieldAt (winWr 4) 0 2) (fieldAt (winWr 4) 2 2) .write (fieldAt (winWr 4) 16 8)
        (fieldAt (winWr 4) 6 2) = none ∧ (fieldAt (winWr 4) 4 2) % 4 = 0 ∧ s.poison = [] ∧ s.ueSectors = [] ∧
      s.latent = [] ∧ s.gather = [] ∧
      s.winWaits mh .write (fieldAt (winWr 4) 0 2) (fieldAt (winWr 4) 2 2) (fieldAt (winWr 4) 16 8) 4 = false ∧
      s.winWaits mh .read (fieldAt (winRd 0) 0 2) (fieldAt (winRd 0) 2 2) (fieldAt (winRd 0) 8 8) 4 = false ∧ (winRd 0).length = 16 ∧ fieldAt (winRd 0) 4 4 ≤ 1024 ∧
      s.winCheck mh (fieldAt (winRd 0) 0 2) (fieldAt (winRd 0) 2 2) .read (fieldAt (winRd 0) 8 8)
        (fieldAt (winRd 0) 4 4) = none ∧
      s.winCheck mh (fieldAt (winRd 16) 0 2) (fieldAt (winRd 16) 2 2) .read (fieldAt (winRd 16) 8 8)
        (fieldAt (winRd 16) 4 4) = some 10 ∧
      winSy.length = 12 ∧ s.syncSeen.find? (fun x => x.node = mh.src ∧ x.seq = mh.seq) = none ∧
      s.winCheck mh (fieldAt winSy 0 2) (fieldAt winSy 2 2) .sync (fieldAt winSy 6 2) 0 = none ∧
      fieldAt winSy 4 1 ≤ 1 ∧ s.owned (s.fld (YWP_EXP_SYNC (fieldAt winSy 0 2)) YWP_EXP_SYNC_first +
        fieldAt winSy 6 2) = false) ∧
    (let s := st (exported 0 base)
     s.winCheck mh (fieldAt (winWr 4) 0 2) (fieldAt (winWr 4) 2 2) .write (fieldAt (winWr 4) 16 8)
        (fieldAt (winWr 4) 6 2) = some 9) ∧
    (let s := st { exported 1 base with syncSeen := [⟨7, 5, 0⟩] }
     s.syncSeen.find? (fun x => x.node = mh.src ∧ x.seq = mh.seq) = some ⟨7, 5, 0⟩) := by
  unfold Admits
  (repeat' apply And.intro) <;> decide +kernel

/-- A WIN_BIND of local window 2 of 4096 bytes to one receiver. -/
def bind0 (op : Byte) : List Byte :=
  [op, 2, 0, 0, 0, 16, 0, 0, 1, 0, 0, 0, 0, 0, 0, 0] ++ [9, 0, 3, 0, 4, 0, 0, 0, 0, 0, 0, 0, 0, 0, 0, 0]

def recv0 : Receiver := ⟨9, 3, 4, 0, 0⟩
def bd0 : Binding := ⟨0, 0, 4096, [recv0], none, 0⟩

theorem witness_BindingsComplete :
    (let s := st (attached (sess []))
     Served s mh 0 (sess []) ∧ s.cpHalted = false ∧ 16 ≤ (bind0 0).length ∧ (bind0 0).length = 16 + 16 * fieldAt (bind0 0) 8 1 ∧
      fieldAt (bind0 0) 0 1 = 0 ∧ bindForm (bind0 0) = true ∧ s.binds.find? (fieldAt (bind0 0) 1 1) = none ∧
      probeFail (fieldAt (bind0 0) 8 1) [⟨0, 3⟩] = none ∧ probeFail (fieldAt (bind0 0) 8 1) [⟨9, 0⟩] = some (0, 9) ∧
      fieldAt (bind0 1) 0 1 = 1 ∧ s.binding? (fieldAt (bind0 1) 1 1) = none) ∧
    (let s := st { attached (sess []) with binds := [(2, bd0)] }
     Served s mh 0 (sess []) ∧ (s.binds.find? (fieldAt (bind0 0) 1 1)).isSome = true ∧
      s.binding? (fieldAt (bind0 1) 1 1) = some bd0 ∧ fieldAt (bind0 1) 1 1 < 64 ∧
      s.streamNamesBinding (s.bindHandleOf 2) = false ∧ bd0.transfers = 0 ∧ s.mcSend = [] ∧
      fieldAt (bind0 2) 0 1 = 2 ∧ bindForm (bind0 2) = true ∧
      refreshMatches bd0 (bind0 2) (s.receiversOf (bind0 2) (fieldAt (bind0 2) 8 1)) = true) := by
  unfold Served
  (repeat' apply And.intro) <;> decide +kernel

/-- A message of the module through a window to node 7. -/
def winOut0 (use : WinUse) : WinOut :=
  ⟨7, 0x100, 5, 0, .mac 0x02_00_00_00_00_07, 0, none, 0, 16, ⟨0x10, 0x10, false, true, 7, 0x100, 5, 0, 0, 0, []⟩, 0, use⟩

def mcr (sent : Nat) : McRecv := ⟨0, 4096, sent, 0, false⟩
/-- A transfer of 8 bytes through local window 2. -/
def send0 (l : List McRecv) : McSend := ⟨2, 1, 0, [⟨0, 8, none, List.replicate 8 1⟩], l⟩
/-- A credit of node 9's window 3, generation 4, for transfer 1: 4 bytes applied. -/
def credit0 : List Byte := [3, 0, 4, 0, 0, 0, 0, 0, 1, 0, 0, 0, 4, 0, 0, 0, 0, 32, 0, 0]

theorem witness_WindowAccessesComplete :
    (let x := winOut0 (.completion 0)
     let h := { mh with resp := true }
     let s := st { attached (sess []) with winOut := [x] }
     s.boot ≠ .off ∧ h.resp = true ∧ s.formOn h.peer.udp = true ∧ h.dst = s.node ∧
      s.winFind h.src h.session h.seq = some x ∧ x.use = .completion 0 ∧ x.msg.type ≠ 0x11 ∧ x.window = none ∧
      s.sessions.find? (0 : Fin 256).val = some (sess []) ∧ s.winFind 1 h.session h.seq = none ∧
      x.tries < s.fld YWP_WIN_CFG YWP_WIN_CFG_retries ∧ s.formOn x.peer.udp = true ∧
      s.winRoom x.use x.port x.peer (s.winReplicates x) x.tclass x.msg = true ∧ s.useStream x.use = none ∧
      s.fld YWP_WIN_CFG YWP_WIN_CFG_retries ≤ { x with tries := 15 }.tries) ∧
    (let t := { task [ins [0]] with issued := 1 }
     let s := st (running t base)
     (s.eng e00).task = some t ∧ t.writes = [] ∧ s.engWritesOut e00 < t.issued) ∧
    (let t := send0 [mcr 8]
     let h := { mh with src := 9 }
     let s := st { base with mcSend := [t], binds := [(2, bd0)], dma := [(0, { DmaCh.rest with
       phase := .moving, desc := some { desc0 1 false true with dst := windowBase + 2 * 0x40000000 } })] }
     s.mcSend = [t] ∧ s.binding? t.window.val = some bd0 ∧ t.recv = [mcr 8] ∧ bd0.receivers = [recv0] ∧
      (mcr 8).dropped = false ∧ s.mcBad t 0 ⟨0, 8, none, List.replicate 8 1⟩ = none ∧ s.addressed h false = true ∧ s.ready = true ∧ credit0.length = 20 ∧
      (fieldAt credit0 4 2) % 2 = 0 ∧ BitVec.ofNat 32 (fieldAt credit0 8 4) = t.number ∧ recv0.node = h.src ∧
      recv0.window.toNat = fieldAt credit0 0 2 ∧ recv0.gen.toNat = fieldAt credit0 2 2 ∧
      max (mcr 8).applied (fieldAt credit0 12 4) < chunkPos t.chunks t.chunks.length ∧
      s.useStream (.dmaWrite t.ch 0 0) = none ∧ (mcr 8).applied < (mcr 8).sent ∧ (mcr 8).resends < s.fld YWP_WIN_CFG YWP_WIN_CFG_retries ∧
      (mcr 8).applied < chunkPos t.chunks t.chunks.length) ∧
    (let t := send0 [mcr 8, mcr 0]
     let bd := { bd0 with receivers := [recv0, ⟨10, 3, 4, 0, 0⟩] }
     let s := st { base with mcSend := [t], binds := [(2, bd)] }
     s.mcSend = [t] ∧ s.binding? t.window.val = some bd ∧ t.recv = [mcr 8, mcr 0] ∧
      bd.receivers = recv0 :: [⟨10, 3, 4, 0, 0⟩] ∧ (mcr 0).dropped = false ∧
      (mcr 0).applied < chunkPos t.chunks t.chunks.length) := by
  (repeat' apply And.intro) <;> decide +kernel

/-- Port A enabled, advertising 1G, up at 2.5G; the time slave on port A. -/
def linked (state : Nat) (m : Module) : Module :=
  withRegs [(NET_PORT_CFG 0, NET_PORT_CFG_adv_1g.put (NET_PORT_CFG_enable.put (regReset (NET_PORT_CFG 0)) 1) 1),
    (NET_PORT_STAT 0, NET_PORT_STAT_speed.put (NET_PORT_STAT_link.put 0 1) 2), (NET_GPTP_STAT, BitVec.ofNat 32 state)] m

theorem witness_LinksAndNetworkTimeComplete :
    (let s := st (linked 1 { base with netPorts := [(0, { NetPort.rest with gates := [⟨0, 0, 1000⟩] })] })
     s.boot ≠ .off ∧ s.bit PWR_DOM_STAT PWR_DOM_STAT_net = true ∧
      s.bit (NET_PORT_CFG (0 : Fin 2)) NET_PORT_CFG_enable = true ∧
      s.bit (NET_PORT_CFG (0 : Fin 2)) (if (false : Bool) then NET_PORT_CFG_adv_2g5 else NET_PORT_CFG_adv_1g) = true ∧
      s.bit (NET_PORT_STAT (0 : Fin 2)) NET_PORT_STAT_link = true ∧
      Admits s (.debug 2) true (NET_TLK_DMAC_LO (0 : Fin 144)) ∧
      s.fld NET_GPTP_STAT NET_GPTP_STAT_slave_port = (0 : Fin 2).val ∧ (-1000 : Int).natAbs ≤ 1000 ∧
      s.fld NET_GPTP_STAT NET_GPTP_STAT_state = 1 ∧
      (s.netPort (0 : Fin 2)).gates.any (·.ctx = p0) = true ∧
      s.fld (NET_PORT_STAT (0 : Fin 2)) NET_PORT_STAT_speed = 2) ∧
    (let s := st (linked 2 { base with netPorts := [(0, { NetPort.rest with windowOpen := some (p0, []) })] })
     s.fld NET_GPTP_STAT NET_GPTP_STAT_state = 2 ∧ (s.netPort (0 : Fin 2)).windowOpen = some (p0, []) ∧
      s.mcSend = []) ∧
    (st { base with clockStep := some 5 }).clockStep = some 5 := by
  unfold Admits
  (repeat' apply And.intro) <;> decide +kernel

theorem witness_LinksAndNetworkTimeComplete_end :
    let s := st (linked 2 { base with netPorts := [(0, { NetPort.rest with windowOpen := some (p0, []) })] })
    s.bit (NET_PORT_STAT (0 : Fin 2)) NET_PORT_STAT_link = true ∧ ∀ ch, (s.chan ch).phase ≠ .moving :=
  ⟨by decide +kernel, fun _ h => (nomatch h)⟩

/-! ### Power -/

/-- The base module in another power state. -/
def inPower (p : Nat) (m : Module) : Module :=
  { m with regs := (PWR_STATE, BitVec.ofNat 32 (p * 17)) :: m.regs.drop 1 }

/-- The base module in a supply condition. -/
def supplied (x : Nat) : State := st (withRegs [(PWR_SUPPLY_STAT, PWR_SUPPLY_STAT_supply.put 0 x)] base)

theorem witness_SupplyCompletes :
    (base.boot ≠ .off ∧ (supplied 0).supply = 0 ∧ (supplied 1).supply = 1 ∧ (supplied 2).supply = 2 ∧
      (supplied 3).supply = 3 ∧ 8000 ≤ 8999 ∧ 60000 < 70000 ∧ 70000 ≤ 100000) ∧
    (let s := st { base with boot := .off }
     s.boot = .off ∧ s.offHeld = false ∧ 9500 ≤ 24000 ∧ 24000 ≤ 60000) ∧
    (let s := st base
     s.boot ≠ .off ∧ s.streams = [] ∧ s.transition = none ∧ s.modeChange = none ∧ s.fullFill = none) ∧
    100000 < 100001 := by
  (repeat' apply And.intro) <;> decide +kernel

/-- A transition under way. -/
def trans0 (target : Nat) (cause : PowerCause) : Transition := ⟨target, cause, true, false, false, false⟩

theorem witness_PowerStatesComplete :
    (let s := st base
     s.boot ≠ .off ∧ Admits s (.debug 2) true PWR_STATE_REQ ∧ s.power = 3 ∧ requestListed 3 2 = true ∧
      requestListed 3 1 = true ∧ s.moving = false ∧ s.fullFill = none ∧ s.quiet = true ∧ s.streams = []) ∧
    (requestListed 2 3 = true ∧ (st (inPower 2 base)).power = 2 ∧ Admits (st (inPower 2 base)) (.debug 2) true PWR_STATE_REQ) ∧
    (let s := st { inPower 2 base with transition := some (trans0 3 .request) }
     s.transition = some (trans0 3 .request) ∧ s.boot = .ready ∧ s.power = 2) ∧
    (let s := st { base with transition := some (trans0 2 .request) }
     s.transition = some (trans0 2 .request) ∧ s.power = 3 ∧ (trans0 2 .request).thenRun = false) ∧
    (let s := st { base with transition := some (trans0 1 .request) }
     s.streams = [] ∧ s.enginesIdle = true ∧ s.dma = [] ∧ s.fills = [] ∧ s.jobs = [] ∧ (trans0 1 .request).thenWake = false) ∧
    (let s := st { base with transition := some (trans0 0 .enOff) }
     s.boot ≠ .off ∧ s.streams = [] ∧ s.enginesIdle = true ∧ s.dma = [] ∧ s.fills = [] ∧ (trans0 0 .enOff).cause = .enOff) ∧
    (let s := st { camera 4 Port.rest base with
                   transition := some (trans0 1 .request)
                   streams := [(0, strm .active)] }
     (trans0 1 .request).target ≤ 1 ∧ s.streams = [(p0.val, strm .active)] ∧ s.portState p0 = 4) ∧
    (let s := st { inPower 1 base with boot := .init }
     s.power = 1 ∧ s.boot = .init ∧ s.leaving = false ∧ s.cpHalted = false) := by
  unfold Admits
  (repeat' apply And.intro) <;> decide +kernel

theorem witness_MeasurementCompletes :
    (let s := st (withRegs [(PWR_TEMP_STAT, PWR_TEMP_STAT_bp1_ok.put (PWR_TEMP_STAT_bp0_ok.put 0 1) 1)] base)
     s.boot ≠ .off ∧ s.bit PWR_TEMP_STAT PWR_TEMP_STAT_bp0_ok = true ∧
      s.bit PWR_TEMP_STAT PWR_TEMP_STAT_bp1_ok = true ∧ -32768 ≤ max (-640 : Int) 1360 ∧ max (-640 : Int) 1360 < 32768 ∧
      s.bit PWR_TEMP_STAT PWR_TEMP_STAT_cap_held = false) ∧
    (let s := st base
     2 ≤ s.power ∧ s.boot = .ready ∧ s.streams = [] ∧ s.transition = none ∧ s.modeChange = none ∧ s.fullFill = none) ∧
    (let s := st (inPower 1 base)
     s.power = 1 ∧ s.boot ≠ .failure ∧ s.transition = none) ∧
    (st { base with transition := some (trans0 1 .request) }).boot ≠ .failure ∧ (trans0 1 .request).target = 1 := by
  (repeat' apply And.intro) <;> decide +kernel

/-! ### Debug and security -/

/-- The base module with a debug level, a life cycle, and its failures at 0. -/
def secured (level lc : Nat) (m : Module) : State :=
  st { m with
    regs := (DBG_LEVEL, DBG_LEVEL_level.put 0 level) :: m.regs.take 3
    otp := { m.otp with lc := lc, lcNext := lc } }

def ev0 : Event := { number := 4, code := 0x0701, ctx := 0, stamp := ⟨true, 0, 0⟩, p0 := 0, p1 := 0, p2 := 0, p3 := 0 }

theorem witness_DebugInquiriesComplete :
    Debugged (secured 0 2 base) dh 0 ∧ (secured 0 2 base).backoff = false ∧ (secured 0 2 base).level = 0 ∧
    (secured 0 2 { base with otp := { base.otp with identity := some [1] } }).otp.identity = some [1] ∧
    (let s := secured 1 2 { base with trace := [ev0] }
     Debugged s dh 1 ∧ s.trace = ev0 :: [] ∧ 1 ≤ (32 : Byte).toNat ∧ (32 : Byte).toNat ≤ 32 ∧ (16 : Byte).toNat ≤ 16) ∧
    (st { base with nonce := some (1, [2]) }).nonce.isSome = true ∧ base.boot ≠ .off ∧
    uartPayload [0x59, 0x57, 1, 0, 0, 0, 0, 0, 0] = none ∧ uartPayload (uartFrame [2, 0, 0, 0, 1, 0]) = some [2, 0, 0, 0, 1, 0] ∧
    debugLength [2, 0, 0, 0, 1, 0] = false ∧ (st base).power ≠ 1 := by
  unfold Debugged
  (repeat' apply And.intro) <;> decide +kernel

/-- A password hash is opaque to the kernel: the right password's is itself, for any other the statement is of those whose
hash differs. -/
theorem witness_LevelsOpenAsStated :
    (let pw : List Byte := List.replicate 8 1
     let s := secured 0 2 { base with otp := { base.otp with passwords := [([7], Config.sha384 ([7] ++ pw))] } }
     s.fullFill = none ∧ s.backoff = false ∧ Debugged s dh 0 ∧ s.otp.lc = 2 ∧ s.level = 0 ∧ 8 ≤ pw.length ∧
      pw.length ≤ 64 ∧ s.otp.passwords.getLast? = some ([7], Config.sha384 ([7] ++ pw)) ∧
      Config.sha384 ([7] ++ pw) = Config.sha384 ([7] ++ pw)) ∧
    (let pw : List Byte := List.replicate 64 1
     ∃ hash, Config.sha384 ([7] ++ pw) ≠ hash ∧
      let s := secured 0 2 { base with otp := { base.otp with passwords := [([7], hash)] } }
      Debugged s dh 0 ∧ s.otp.passwords.getLast? = some ([7], hash)) ∧
    (∀ key sig, (secured 0 2 base).responsePasses 1 key sig = false) ∧
    Debugged (secured 0 2 base) dh 0 ∧ (secured 0 2 base).level ≤ (1 : Byte).toNat ∧
    (let s := secured 2 2 base
     s.boot ≠ .off ∧ s.power = 3 ∧ s.moving = false ∧ s.streams = [] ∧ s.jobs = [] ∧ s.enginesIdle = true ∧ s.dma = [] ∧
      s.regions = [] ∧ s.cpHalted = false ∧ s.gather = [] ∧ s.fullFill = none ∧ s.backoff = false) := by
  refine ⟨?_, ⟨0 :: Config.sha384 ([7] ++ List.replicate 64 1), ?_, ?_⟩, fun _ _ => rfl, ?_⟩
  · unfold Debugged
    (repeat' apply And.intro) <;> first | rfl | decide +kernel
  · exact fun h => absurd (congrArg List.length h) (by simp)
  · unfold Debugged
    (repeat' apply And.intro) <;> first | rfl | decide +kernel
  · unfold Debugged
    (repeat' apply And.intro) <;> decide +kernel

/-- A signature check is opaque to the kernel: every key and signature that it passes meet the statement's other conditions, in
the field for OBSERVE and in OPEN for FULL at once. -/
theorem witness_LevelsOpenAsStated_response (key sig : List Byte) (lc : Nat) (h : lc = 1 ∨ lc = 2)
    (hv : Config.ecdsaVerify key (Config.sha384 (dbgTag ++ base.deviceId ++ [9] ++ leBytes 1 2 ++ leBytes 1 lc)) sig =
      true) :
    let s := secured 1 lc { base with
      nonce := some (2, [9])
      otp := { base.otp with ownerWritten := true, ownerHash := Config.sha384 key } }
    Debugged s dh 0 ∧ s.responsePasses (2 : Byte).toNat key sig = true ∧ s.level < (2 : Byte).toNat ∧
      (2 : Byte).toNat ≤ 2 ∧ s.otp.lc = lc ∧ 2 ≤ s.power ∧ s.transition = none ∧ s.streams.all (·.1 < 36) = true ∧
      s.fullFill = none ∧ s.backoff = false := by
  intro s
  have hd : s.deviceId = base.deviceId := rfl
  refine ⟨?_, ?_, ?_, by decide, rfl, ?_, rfl, rfl, rfl, rfl⟩
  · have h1 : Debugged (secured 1 1 base) dh 0 := by
      unfold Debugged
      (repeat' apply And.intro) <;> decide +kernel
    have h2 : Debugged (secured 1 2 base) dh 0 := by
      unfold Debugged
      (repeat' apply And.intro) <;> decide +kernel
    rcases h with rfl | rfl
    · exact h1
    · exact h2
  · rcases h with rfl | rfl <;>
      simpa [Module.responsePasses, Module.keyAllowed, s, secured, st, Module.deviceId] using hv
  · show (secured 1 1 base).level < 2
    decide +kernel
  · show 2 ≤ (secured 1 1 base).power
    decide +kernel

theorem witness_DebugAccessesComplete :
    (let s := st base
     (regAcc 0).length = 12 ∧ fieldAt (regAcc 0) 0 1 = 1 ∧
      regOp (regAcc 0) 0 = (CAP_TRIG_PERIOD p0, 0, BitVec.ofNat 32 (fieldAt (regAcc 0) 8 4)) ∧
      regOp (regAcc 1) 0 = (CAP_TRIG_PERIOD p0, 1, BitVec.ofNat 32 (fieldAt (regAcc 1) 8 4)) ∧ s.transition = none ∧
      Debugged s dh 1 ∧ Debugged s dh 2 ∧ Admits s (.debug dh.path) false (CAP_TRIG_PERIOD p0) ∧
      Admits s (.debug dh.path) true (CAP_TRIG_PERIOD p0) ∧ 100000 ≤ fieldAt (regAcc 1) 8 4) ∧
    (let s := st base
     0 < (1024 : Word).toNat ∧ (1024 : Word).toNat ≤ 1024 ∧ s.memStatus (4096 : W64).toNat (1024 : Word).toNat = none ∧
      (∀ w o, s.spaceOf (4096 : W64).toNat ≠ .window w o) ∧ s.memStatus (4096 : W64).toNat ([1] : List Byte).length = none ∧
      s.poison = [] ∧ s.ueSectors = [] ∧ s.gather = [] ∧ s.latent = [] ∧
      s.badIn (4096 : W64).toNat (1024 : Word).toNat = [] ∧ s.spmBusy (4096 : W64).toNat (1024 : Word).toNat = false) ∧
    (haltPos 0x100 = some e00 ∧ haltPos 0x1F0 = some ⟨7, 16⟩ ∧ haltPos 0x111 = none) ∧
    (let s := secured 1 1 base
     s.boot ≠ .off ∧ s.level < 2) := by
  have hs : (st base).spaceOf (4096 : W64).toNat = .spm := by decide +kernel
  unfold Debugged Admits
  (repeat' apply And.intro) <;> first | decide +kernel | (intro w o; rw [hs]; simp)

theorem witness_UnitLifeCompletes :
    (Debugged (secured 2 0 base) dh 2 ∧ (secured 2 0 base).otp.lc = 0 ∧ (secured 2 0 base).otp.lcNext = 0 ∧
      (2 : Byte).toNat < 3 ∧ (secured 2 0 base).otp.passwords = []) ∧
    (let s := secured 2 1 base
     Debugged s dh 2 ∧ s.otp.lc ≠ 0 ∧ (s.otp.lc = 1 ∧ s.otp.lcNext < (2 : Byte).toNat ∧ s.streams = [])) ∧
    (let s := secured 2 2 base
     Debugged s dh 2 ∧ s.otp.lc = 2 ∧ s.otp.lcNext < (3 : Byte).toNat) := by
  unfold Debugged
  (repeat' apply And.intro) <;> decide +kernel

/-! ### Boot, reset and faults -/

/-- A firmware image of the given type and security version without a body, its key, signature and body hash all zero. -/
def image (type svn : Byte) : Image :=
  ⟨[0x4B, 0x46, 0x57, 0x31, type, svn] ++ List.replicate 250 0, []⟩
def slot (svn : Byte) : SlotImage := ⟨image 0 svn, image 1 svn, image 2 svn⟩
/-- A slot whose first image has the wrong type. -/
def badSlot (svn : Byte) : SlotImage := ⟨image 2 svn, image 1 svn, image 2 svn⟩

def booting (power : Nat) (ph : BootPhase) : State :=
  st { inPower power base with
    boot := ph
    otp := { base.otp with vendorHash := Config.sha384 (List.replicate 96 0) } }

/-- A training record of this part at 25 °C. -/
def trainRec0 : TrainRec :=
  let r : TrainRec := ⟨3, base.fld SYS_ID SYS_ID_part, base.fld SYS_ID SYS_ID_issue, trainRates, 400, 0⟩
  { r with crc := crc32c r.bytes }

theorem witness_BootCompletes :
    (let s := booting 2 .init
     s.boot = .init ∧ s.dramReady = false ∧ s.power = 2) ∧
    (let s := { booting 2 .init with flash := { Flash.blank with train := [(1, trainRec0)] } }
     s.boot = .init ∧ s.dramReady = false ∧ s.trainNewest = some trainRec0 ∧ s.trainOlder = 0 ∧
      ((800 : Int) - trainRec0.temp).natAbs ≤ 25 * 16 ∧ ¬ ((801 : Int) - trainRec0.temp).natAbs ≤ 25 * 16) ∧
    (slotSvn (slot 3) ≤ slotSvn (slot 3) ∧ slotSvn (slot 2) < slotSvn (badSlot 3)) ∧
    (let s := booting 2 .verifying
     s.boot = .verifying ∧ s.slotsOf (slot 3) (badSlot 3) = (slot 3, badSlot 3) ∧ s.power ≠ 1 ∧ s.slotFail (badSlot 3) ≠ none ∧
      s.fld SYS_BOOT_STAT SYS_BOOT_STAT_storm ≠ 3) ∧
    (booting 1 .verifying).power = 1 ∧ (booting 2 .selfTest).boot = .selfTest ∧
    (let s := st { inPower 2 base with boot := .init, dramReady := true }
     s.boot = .init ∧ s.power = 2 ∧ s.dramReady = true ∧ s.goingOff = false ∧ s.dramFillDue = false) := by
  (repeat' apply And.intro) <;> decide +kernel

/-- Hash and signature checks are opaque to the kernel: where they pass, the slot passes. -/
theorem witness_BootCompletes_slot (p : Nat)
    (hh : Config.sha384 [] = List.replicate 48 0)
    (hv : ∀ d, Config.ecdsaVerify (List.replicate 96 0) d (List.replicate 96 0) = true) :
    (booting p .verifying).slotFail (slot 3) = none := by
  have hk : ∀ t svn, ((image t svn).header.drop 64).take 96 = List.replicate 96 0 := fun _ _ => rfl
  have hs : ∀ t svn, ((image t svn).header.drop 160).take 96 = List.replicate 96 0 := fun _ _ => rfl
  have hi : ∀ t ∈ [0, 1, 2], (booting p .verifying).imageFail t (image (BitVec.ofNat 8 t) 3) = none := by
    intro t ht
    have h1 : (image (BitVec.ofNat 8 t) 3).header.take 4 = [0x4B, 0x46, 0x57, 0x31] := rfl
    have h2 : fieldAt (image (BitVec.ofNat 8 t) 3).header 4 1 = t := by
      revert t; decide +kernel
    have h3 : ((image (BitVec.ofNat 8 t) 3).header.drop 16).take 48 = List.replicate 48 0 := rfl
    have h6 : fieldAt (image (BitVec.ofNat 8 t) 3).header 12 4 = 0 := rfl
    have h7 : (image (BitVec.ofNat 8 t) 3).body = [] := rfl
    have h4 : (booting p .verifying).otp.vendorHash = Config.sha384 (List.replicate 96 0) := rfl
    have h5 : (booting p .verifying).otp.fuses = 0 := rfl
    simp only [Module.imageFail, hk, hs, h1, h2, h3, h4, h5, h6, h7, List.take_nil, hh, hv]
    simp
  simp only [Module.slotFail, slot]
  rw [show image 0 3 = image (BitVec.ofNat 8 0) 3 from rfl, show image 1 3 = image (BitVec.ofNat 8 1) 3 from rfl,
    show image 2 3 = image (BitVec.ofNat 8 2) 3 from rfl, hi 0 (by simp), hi 1 (by simp), hi 2 (by simp)]

/-- The base module with the states of its control pairs. -/
def pairs (a b : Nat) : State :=
  st (withRegs [(SYS_CP_STAT, SYS_CP_STAT_cp1.put (SYS_CP_STAT_cp0.put 0 a) b)] base)

theorem witness_ControlFaultsComplete :
    (base.boot = .ready ∧ base.bit PWR_DOM_STAT PWR_DOM_STAT_ctl = true) ∧
    ((pairs 0 0).cpState 0 = 0 ∧ (pairs 0 0).cpState 1 = 0) ∧ ((pairs 2 0).cpState 0 ≠ 0 ∧ (pairs 2 0).cpState 1 = 0) ∧
    (pairs 1 0).cpState 0 = 1 := by
  (repeat' apply And.intro) <;> decide +kernel

theorem witness_FaultLogAndResetComplete :
    (st { base with flogPending := [ev0] }).flogPending ≠ [] ∧
    (let s := st base
     s.boot ≠ .off ∧ Admits s (.debug 2) true SYS_FLOG_IDX ∧ SYS_FLOG_IDX_clear.of 255 = 0 ∧
      Admits s (.debug 2) true SYS_RESET ∧ s.transition = none ∧ s.modeChange = none ∧ s.fullFill = none ∧
      s.streams = []) ∧
    (SYS_RESET_key.of (SYS_RESET_go.put (SYS_RESET_key.put 0 0xB007) 1) = 0xB007 ∧
      SYS_RESET_go.of (SYS_RESET_go.put (SYS_RESET_key.put 0 0xB007) 1) = 1) ∧
    Admits (st (attached (sess []))) (.session 0 0) true SYS_FLOG_IDX := by
  unfold Admits
  (repeat' apply And.intro) <;> decide +kernel

/-! ### Frames -/

theorem witness_UnitCommandsFrame :
    (∃ t, exec .stormCountClear (st base) = .next t ∧ reportsOnly .stormCountClear) ∧
    (∃ t, exec .gptpClockStep (st base) = .next t ∧ networkOnly .gptpClockStep) ∧
    (∃ t, exec (.syncOpSignal hd 3) (st (taken 11 base)) = .next t ∧ syncsOnly (.syncOpSignal hd 3)) ∧
    (∃ t, exec (.rotationDue 0) (st base) = .next t ∧ engineUpkeep (.rotationDue 0)) ∧
    (∃ t, exec (.dramSlotAdvance 0 none) (st base) = .next t ∧ memoryUnits (.dramSlotAdvance 0 none)) ∧
    (∃ t, exec .modeChanged (st base) = .next t ∧ workAdmission .modeChanged) ∧
    (∃ t, exec .autoIdleSample (st base) = .next t ∧ supplyOnly .autoIdleSample) ∧
    (∃ t, exec .tapReset (st base) = .next t ∧ securityOnly .tapReset) :=
  ⟨⟨_, rfl, trivial⟩, ⟨_, rfl, trivial⟩, ⟨_, rfl, trivial⟩, ⟨_, rfl, trivial⟩, ⟨_, rfl, trivial⟩, ⟨_, rfl, trivial⟩,
    ⟨_, rfl, trivial⟩, ⟨_, rfl, trivial⟩⟩

theorem witness_MemoryFrame :
    ∃ t, exec .stormCountClear (st base) = .next t ∧ storesNothing .stormCountClear := ⟨_, rfl, trivial⟩

/-! ### Well-formed commands: one that each check refuses -/

def badErr : List MemErr := [⟨2 ^ 48, false, false⟩]
def long : List Byte := List.replicate 1449 0

theorem test_wellFormed_accepts : (Instr.registerWrite .control 0x7FFFFC 4 0).WellFormed = true ∧
    (Instr.memWrite dh 0 [1]).WellFormed = true ∧ (Instr.netRxFrame 0 (rx 64)).WellFormed = true := by decide

theorem test_wellFormed_registerWrite : (Instr.registerWrite .control (2 ^ 24) 4 0).WellFormed = false ∧
    (Instr.registerWrite .control 0 0 0).WellFormed = false ∧ (Instr.registerWrite .control 0 9 0).WellFormed = false := by
  decide

theorem test_wellFormed_camera : (Instr.trainDone 0 (List.replicate 127 []) []).WellFormed = false ∧
    (Instr.trainDone 0 (List.replicate 128 []) []).WellFormed = false ∧
    (Instr.sensorTransactionDone 0 true [0, 0, 0, 0, 0]).WellFormed = false := by decide +kernel

theorem test_wellFormed_verify (l : List (List (Bool × W16))) (v : List (Bool × W16)) (h : 65536 < v.length) :
    (Instr.trainDone 0 l v).WellFormed = false := by
  have hv : decide (v.length ≤ 65536) = false := decide_eq_false (by omega)
  show ((_ && _) && decide (v.length ≤ 65536)) = false
  rw [hv, Bool.and_false]

theorem test_wellFormed_memory : (Instr.fetch e00 .badger badErr).WellFormed = false ∧
    (Instr.scrubVisit 0 badErr).WellFormed = false ∧ (Instr.dmaDescriptorRun 0 (.data []) badErr 0).WellFormed = false ∧
    (Instr.dmaWaitMet 0 badErr 0).WellFormed = false ∧ (Instr.gatherIdleFlush (2 ^ 23)).WellFormed = false ∧
    (Instr.narrowWrite (2 ^ 48) [0]).WellFormed = false ∧ (Instr.narrowWrite 0 []).WellFormed = false ∧
    (Instr.narrowWrite 0 (List.replicate 64 0)).WellFormed = false ∧ (Instr.narrowWrite 63 [0, 0]).WellFormed = false := by
  decide +kernel

theorem test_wellFormed_work : (Instr.deadlineMissed 0 36 0 0 0).WellFormed = false ∧
    (Instr.jobDispatch 0 8 0 0 0).WellFormed = false := by decide

theorem test_wellFormed_payloads : payloadOk (long.drop 1) = true ∧
    (∀ i ∈ [Instr.attach mh long, .detach mh long, .keepalive mh long, .regAccess mh long, .doorbell mh long,
      .journalRead mh long, .wake ⟨mh, long⟩, .winWrite mh long, .winRead mh long, .winSync mh long, .winCredit mh long,
      .winBind mh long [], .winUnbind mh long, .winRefresh mh long [], .windowResponse mh 0 long, .regRead dh long,
      .regWrite dh long, .memWrite dh 0 long], i.WellFormed = false) ∧
    (Instr.winBind mh [] (List.replicate 17 ⟨0, 0⟩)).WellFormed = false ∧
    (Instr.winRefresh mh [] (List.replicate 17 ⟨0, 0⟩)).WellFormed = false ∧
    (Instr.ywpFrameDiscard 0 (List.replicate 9217 0)).WellFormed = false := by decide +kernel

theorem test_wellFormed_uart (f : List Byte) (h : 65544 ≤ f.length) : (Instr.debugFrameDiscard f).WellFormed = false :=
  decide_eq_false (by omega)

theorem test_wellFormed_frames : (Instr.netRxFrame 0 (rx 63)).WellFormed = false ∧
    (Instr.netRxFrame 0 { rx 64 with dmac := 2 ^ 48 }).WellFormed = false ∧
    (Instr.netRxFrame 0 { rx 64 with smac := 2 ^ 48 }).WellFormed = false ∧
    (Instr.netRxFrame 0 { rx 64 with tag := some (0, 4096) }).WellFormed = false ∧
    (Instr.gptpSyncReceive 0 256 0).WellFormed = false := by decide

theorem test_wellFormed_security : (Instr.password dh (List.replicate 256 0)).WellFormed = false ∧
    (Instr.response dh 1 [] (List.replicate 96 0)).WellFormed = false ∧
    (Instr.response dh 1 (List.replicate 96 0) []).WellFormed = false ∧ (Instr.attest dh []).WellFormed = false ∧
    (Instr.provision dh [] (List.replicate 16 0) (List.replicate 48 0) 0).WellFormed = false ∧
    (Instr.provision dh (List.replicate 48 0) [] (List.replicate 48 0) 0).WellFormed = false ∧
    (Instr.provision dh (List.replicate 48 0) (List.replicate 16 0) [] 0).WellFormed = false ∧
    (Instr.setPassword dh [] (List.replicate 48 0)).WellFormed = false ∧
    (Instr.setPassword dh (List.replicate 16 0) []).WellFormed = false ∧
    (Instr.firmwareVerified ⟨⟨[], []⟩, image 1 0, image 2 0⟩ (slot 0)).WellFormed = false ∧
    (Instr.firmwareVerified (slot 0) ⟨image 0 0, image 1 0, ⟨(image 2 0).header.drop 1, []⟩⟩).WellFormed = false := by
  decide +kernel

/-! ### The spec's own examples, and values worked out from its words -/

/-- 06_engines_arithmetic: "one requantised output". -/
theorem test_requant_example : requant 12345 (BitVec.ofInt 32 (-345)) 1518500250 38 (-3) (-128) 127 = (63, 0) := by decide

/-- R176: the sum saturates in INT32 and the output is clamped; both set their flag. -/
theorem test_requant_saturates :
    requant 0x7FFFFFFF 1 0x40000000 30 0 (-128) 127 = (127, arIntSat ||| arInt32Sat) := by decide

/-- 05_calibration: "a saloon camera warming up". -/
theorem test_roundMean_example : roundMean 16656 4 = 4164 := by decide

/-- 09_scratchpad: "two row pitches in a LOCAL region". -/
theorem test_bank_example : bankOf (47 * 4096) = 47 ∧ bankOf (47 * 4160) = 0 := by decide

/-- 10_sync_objects: "a counting job waiting on a door camera across the wrap". -/
theorem test_meets_example : meets 0xFFFFFFFE 0xFFFFFFFF = false ∧ meets 0xFFFFFFFF 0xFFFFFFFF = true ∧
    meets 0xFFFFFFFF 1 = false ∧ meets 1 1 = true := by decide

/-- R371 and the example after R373: 3 W a degree from 150 W; 132.0 W is met at 76 °C. -/
theorem test_thermal_example : thermalCap 0 (70 * 16) = 1500 ∧ thermalCap 0 (85 * 16) = 1050 ∧
    thermalCap 1 (85 * 16) = 1250 ∧ thermalCap 2 (85 * 16) = 800 ∧ thermalCap 0 (90 * 16) = 1050 ∧
    (withRegs [(SYS_ADM_POWER, SYS_ADM_POWER_planned_dw.put 0 1320)] base).tLimit = some (76 * 16) := by decide

/-- R446: an average VIN of 14 666.67 mV allows 176.0 W. -/
theorem test_supplyCap : supplyCap [14667, 14667, 14666] = 1760 := by decide

/-- R387: entries of the first pass carry phase 1. -/
theorem test_phase : phaseBit 0 64 = 1 ∧ phaseBit 63 64 = 1 ∧ phaseBit 64 64 = 0 := by decide

/-- R428: a generation skips 0. -/
theorem test_generation : nextGen 65535 = 1 ∧ nextGen 1 = 2 := by decide

/-- R205: shifts by the low five bits; CDIV rounds up and gives 0 for a divisor of 0. -/
theorem test_alu : aluOp 0 0xFFFFFFFF 2 = 1 ∧ aluOp 3 1 33 = 2 ∧ aluOp 5 0x80000000 31 = 0xFFFFFFFF ∧
    aluOp 12 500 240 = 3 ∧ aluOp 12 7 0 = 0 := by decide

/-- R173, R177: E4M3 has no infinity and ends at 448; halves go to even. -/
theorem test_float_store : e4m3.maxCode = 0x7E ∧ rne 5 1 = 2 ∧ rne 7 1 = 4 ∧ (ofInt 3).toF32 = 0x40400000 ∧
    (floatStore 3 true 0x44000000).1 = 0x7E := by decide

/-- R157, R500: CRC-32C, by its check value; the copies of a blank flash are good ones. -/
theorem test_crc32c : crc32c [0x31, 0x32, 0x33, 0x34, 0x35, 0x36, 0x37, 0x38, 0x39] = 0xE3069283 ∧
    recValue Flash.blank.settings = some 0 ∧ recValue Flash.blank.backoff = some 0 := by decide +kernel

/-- R482: the back-off begins at 1 s with the third failure and ends at 64 s. -/
theorem test_backoff : backoffMs 3 = 1000 ∧ backoffMs 4 = 2000 ∧ backoffMs 20 = 64000 := by decide

/-- The table of commands gives no bits: a word spells none. -/
theorem test_decode : decodeTableWord 32 0 = none ∧ (State.reset.withFetchWord 32 7) = State.reset := by decide

/-- 17_boot_reset_faults, "a transient fault and the spare's return": in ASSURED the spare takes the name of the position at
fault, which is left QUARANTINED (R270). -/
theorem test_fault_absorbed :
    (let m := (idle00 (spare 3 { Eng.rest with passed := 1 } base)).faultPosition e00
     (m.1, m.2.physOf 0 0, m.2.engState e00)) = (some ⟨0, 16⟩, 16, 4) := by decide +kernel

/-- R26 and R526: an offset in the reserved range answers BUS_ERROR, one without a register ignores the write, and a value
outside a field's range is REFUSED. -/
theorem test_register_refusals :
    (match exec (.registerWrite (.debug 2) 0x800000 4 1) (st base) with | .next t => t.busStatus | _ => 0) = 10 ∧
    (match exec (.registerWrite (.debug 2) 0x7FFFFC 4 1) (st base) with
      | .next t => (t.busStatus, decide (t.regs = base.regs)) | _ => (1, false)) = (0, true) ∧
    (match exec (.registerWrite (.debug 2) (CAP_TRIG_PERIOD p0) 4 99999) (st base) with
      | .next t => (t.busStatus, decide (t.rd (CAP_TRIG_PERIOD p0) = base.rd (CAP_TRIG_PERIOD p0))) | _ => (1, false)) =
        (3, true) := by
  decide +kernel

/-- Step 3 of "a host attaches": session number and generation 1, version 0x10. -/
theorem test_attach_example :
    (match exec (.attachServe (.data (List.replicate 64 0))) (st { base with attachWait := [⟨mh, attach0⟩] }) with
      | .next t => match t.outbox.getLast? with
        | some (.ywp _ _ _ _ _ m) => (m.version, m.status, m.payload.take 2)
        | _ => (0, 1, [])
      | _ => (0, 1, [])) = (0x10, 0, [0, 1]) := by decide +kernel

end Sys2Proof.Tests
end

section
/-!
The ALU instruction (R204, R205): what a walker's registers hold after a write, what an instruction that passes leaves
behind, and the operations of R205 in the arithmetic of numbers.
-/
namespace Sys2Proof.Machine
open Sys2Proof

/-! ### A walker's registers -/

/-- The model's list update is the library's. -/
theorem setAt_eq_set {α : Type} (l : List α) (i : Nat) (v : α) : setAt l i v = l.set i v := by
  induction l generalizing i with
  | nil => rfl
  | cons x t ih =>
    cases i with
    | zero => rfl
    | succ i => simp [setAt, ih]

@[simp] theorem WalkerSt.reg_setReg_same (k : WalkerSt) (i : Nat) (v : Word) (h : i < k.regs.length) :
    (k.setReg i v).reg i = v := by
  simp [WalkerSt.reg, WalkerSt.setReg, setAt_eq_set, h]

theorem WalkerSt.reg_setReg_ne (k : WalkerSt) (i r : Nat) (v : Word) (h : r ≠ i) :
    (k.setReg i v).reg r = k.reg r := by
  simp [WalkerSt.reg, WalkerSt.setReg, setAt_eq_set, h.symm]

/-- A register write leaves the walker as it was but for its registers. -/
theorem WalkerSt.setReg_frame (k : WalkerSt) (i : Nat) (v : Word) :
    { k.setReg i v with regs := [] } = { k with regs := [] } := rfl

/-! ### Instructions that pass -/

/-- Where an instruction word stands before a walker that may run it, the guard of the instruction opens. -/
theorem instr_of_atInstr {s : State} {e : EngPos} {w : Walker} {op i : Nat} {t : EngTask} (h : AtInstr s e w op t i)
    (f : Module → EngTask → WalkerSt → Nat → Module) :
    s.toModule.instr e w op f = f s.toModule t (t.walk w).leaveGate i := by
  obtain ⟨-, htask, habort, hended, hword, hop, hgate⟩ := h
  have hheld : (decide (w = .badger) && !t.gateOpen) = false := by
    cases w with
    | execute => rfl
    | badger => simp [hgate rfl]
  simp [Module.instr, htask, habort, hended, hword, hop, hheld]

/-- A command that passes its instruction with the walker `k` leaves the task with `k` advanced. -/
theorem taskBecomes_of_pass {s : State} {e : EngPos} {w : Walker} {op i : Nat} {t : EngTask}
    (h : AtInstr s e w op t i) {c : Instr} {f : Module → EngTask → WalkerSt → Nat → Module} {k : WalkerSt}
    {Q : EngTask → Prop} (hexec : exec c s = ok s (s.toModule.instr e w op f))
    (hpass : f s.toModule t (t.walk w).leaveGate i = s.toModule.pass e w t k) (hQ : Q (t.setWalk w k.advance)) :
    TaskBecomes c s e Q :=
  ⟨s.toModule.pass e w t k, by rw [hexec, instr_of_atInstr h, hpass, ok_on _ _ h.1], _, rfl, hQ⟩

/-! ### The operations of R205 -/

variable (a b : Word)

theorem aluOp_add_toNat : (aluOp 0 a b).toNat = (a.toNat + b.toNat) % 2 ^ 32 := BitVec.toNat_add a b

theorem aluOp_sub_toNat : ((aluOp 1 a b).toNat : Int) = ((a.toNat : Int) - b.toNat) % 2 ^ 32 := by
  have hd : (aluOp 1 a b).toNat = (2 ^ 32 - b.toNat + a.toNat) % 2 ^ 32 := BitVec.toNat_sub a b
  have hb : b.toNat < 2 ^ 32 := b.isLt
  omega

theorem aluOp_mul_toNat : (aluOp 2 a b).toNat = a.toNat * b.toNat % 2 ^ 32 := BitVec.toNat_mul a b

theorem aluOp_shl_toNat : (aluOp 3 a b).toNat = a.toNat * 2 ^ (b.toNat % 32) % 2 ^ 32 := by
  simp only [aluOp, BitVec.toNat_shiftLeft, Nat.shiftLeft_eq]

theorem aluOp_shr_toNat : (aluOp 4 a b).toNat = a.toNat / 2 ^ (b.toNat % 32) := by
  simp only [aluOp, BitVec.toNat_ushiftRight, Nat.shiftRight_eq_div_pow]

theorem aluOp_sar_toInt : (aluOp 5 a b).toInt = a.toInt / 2 ^ (b.toNat % 32) := by
  simp only [aluOp, BitVec.toInt_sshiftRight, Int.shiftRight_eq_div_pow, Nat.cast_pow, Nat.cast_ofNat]

theorem aluOp_and_getLsbD (j : Nat) : (aluOp 6 a b).getLsbD j = (a.getLsbD j && b.getLsbD j) := BitVec.getLsbD_and

theorem aluOp_or_getLsbD (j : Nat) : (aluOp 7 a b).getLsbD j = (a.getLsbD j || b.getLsbD j) := BitVec.getLsbD_or

theorem aluOp_minu_toNat : (aluOp 8 a b).toNat = min a.toNat b.toNat := by
  rw [aluOp, apply_ite BitVec.toNat, min_def]

theorem aluOp_maxu_toNat : (aluOp 9 a b).toNat = max a.toNat b.toNat := by
  rw [aluOp, apply_ite BitVec.toNat, max_def]

theorem aluOp_mins_toInt : (aluOp 10 a b).toInt = min a.toInt b.toInt := by
  rw [aluOp, apply_ite BitVec.toInt, min_def]

theorem aluOp_maxs_toInt : (aluOp 11 a b).toInt = max a.toInt b.toInt := by
  rw [aluOp, apply_ite BitVec.toInt, max_def]

/-- A quotient rounded up exceeds neither its dividend nor the 32 bits, although the sum under the division may. -/
theorem ceilDiv_lt_two_pow (hb : b ≠ 0) : (a.toNat + b.toNat - 1) / b.toNat < 2 ^ 32 := by
  have hpos : 0 < b.toNat := Nat.pos_of_ne_zero fun h0 => hb (BitVec.eq_of_toNat_eq h0)
  have hle : (a.toNat + b.toNat - 1) / b.toNat ≤ a.toNat := by
    rw [Nat.div_le_iff_le_mul_add_pred hpos]
    have hmul : a.toNat ≤ b.toNat * a.toNat := Nat.le_mul_of_pos_left _ hpos
    omega
  exact hle.trans_lt a.isLt

theorem aluOp_cdiv_toNat :
    (aluOp 12 a b).toNat = if b = 0 then 0 else (a.toNat + b.toNat - 1) / b.toNat := by
  by_cases hb : b = 0
  · simp [aluOp, hb]
  · simp only [aluOp, if_neg hb, BitVec.toNat_ofNat, Nat.mod_eq_of_lt (ceilDiv_lt_two_pow a b hb)]

end Sys2Proof.Machine

namespace Sys2Proof
open Sys2Proof.Machine

/-- Settles O20: the instruction passes with the result in its destination register alone, and each operation's result is the
number R205 gives. -/
theorem aluOperationsWrap : Obligations.AluOperationsWrap := by
  unfold Obligations.AluOperationsWrap
  intro e w t i s k a b hat hregs hdst
  have hreg : (k.setReg (opnd i 3 1) (aluOp (opnd i 2 1) a b)).reg (opnd i 3 1) = aluOp (opnd i 2 1) a b :=
    k.reg_setReg_same _ _ (hregs ▸ hdst)
  refine taskBecomes_of_pass hat rfl rfl
    ⟨k.setReg (opnd i 3 1) (aluOp (opnd i 2 1) a b), rfl, fun r => k.reg_setReg_ne _ r _, k.setReg_frame _ _, ?_⟩
  rw [hreg]
  generalize opnd i 2 1 = op
  exact ⟨fun h => h ▸ aluOp_add_toNat a b, fun h => h ▸ aluOp_sub_toNat a b, fun h => h ▸ aluOp_mul_toNat a b,
    fun h => h ▸ aluOp_shl_toNat a b, fun h => h ▸ aluOp_shr_toNat a b, fun h => h ▸ aluOp_sar_toInt a b,
    fun h => h ▸ aluOp_and_getLsbD a b, fun h => h ▸ aluOp_or_getLsbD a b, fun h => h ▸ aluOp_minu_toNat a b,
    fun h => h ▸ aluOp_maxu_toNat a b, fun h => h ▸ aluOp_mins_toInt a b, fun h => h ▸ aluOp_maxs_toInt a b,
    fun h => h ▸ aluOp_cdiv_toNat a b⟩

end Sys2Proof
end

section
/-!
Ring commands from their start to their completion (R390, R392, R397 to R399): what sending a message leaves alone, the
entry that a completion writes or leaves waiting, and what a command that may start does.
-/
namespace Sys2Proof.Machine
open Sys2Proof

/-! ### Answers and counters -/

theorem Answers.imp {c : Instr} {s : State} {P Q : Module → Prop} (h : Answers c s P) (hPQ : ∀ m, P m → Q m) :
    Answers c s Q := by
  obtain ⟨m, hexec, hP⟩ := h
  exact ⟨m, hexec, hPQ m hP⟩

theorem Module.rd_count_same_toNat (m : Module) (off n : Nat) :
    ((m.count off n).rd off).toNat = min ((m.rd off).toNat + n) 0xFFFFFFFF := by
  have hlt : min ((m.rd off).toNat + n) 0xFFFFFFFF < 2 ^ 32 := by omega
  rw [Module.count, Module.rd_wr_same, BitVec.toNat_ofNat, Nat.mod_eq_of_lt hlt]

/-! ### What messages leave alone -/

/-- The module with everything erased that sending a frame may change. -/
def Module.unsent (m : Module) : Module := { m with outbox := [], cbNext := [] }

/-- The module with everything erased that a session's own messages may change: also the sessions and the window messages
that are not answered. -/
def Module.unserved (m : Module) : Module := { m.unsent with sessions := [], winOut := [] }

theorem Module.emit_unsent (m : Module) (o : Out) : (m.emit o).unsent = m.unsent := rfl

theorem Module.frames_unsent (m : Module) (port : Fin 2) (dest : Peer) (replicate : Bool) (tclass : Nat) (x : Msg) :
    (m.frames port dest replicate tclass x).2.unsent = m.unsent := by
  cases replicate <;> rfl

theorem Module.send_unsent (m : Module) (port : Fin 2) (dest : Peer) (replicate : Bool) (tclass : Nat) (x : Msg) :
    (m.send port dest replicate tclass x).unsent = m.unsent :=
  foldl_keeps (P := fun m' : Module => m'.unsent = m.unsent) _ _ (m.frames_unsent port dest replicate tclass x)
    fun m' o h => (m'.emit_unsent o.2).trans h

theorem Module.originate_unsent (m : Module) (port : Fin 2) (dest : Peer) (replicate : Bool) (tclass : Nat) (x : Msg) :
    (m.originate port dest replicate tclass x).unsent = m.unsent := by
  unfold Module.originate
  split
  · exact m.send_unsent port dest replicate tclass x
  · rfl

section
variable (m : Module) (port : Fin 2) (dest : Peer) (replicate : Bool) (tclass : Nat) (x : Msg)

@[simp] theorem Module.originate_unserved :
    (m.originate port dest replicate tclass x).unserved = m.unserved := by
  simp only [Module.unserved, Module.originate_unsent]

@[simp] theorem Module.originate_sessions : (m.originate port dest replicate tclass x).sessions = m.sessions :=
  (congrArg Module.sessions (m.originate_unsent port dest replicate tclass x) :)

@[simp] theorem Module.originate_winOut : (m.originate port dest replicate tclass x).winOut = m.winOut :=
  (congrArg Module.winOut (m.originate_unsent port dest replicate tclass x) :)

end

/-- The message that writes `data` at `off` of the ring window of session `n` (R386, R431). -/
def ringMsg (n : Nat) (s : Session) (off : Nat) (data : List Byte) : Msg :=
  ⟨s.version, 0x10, false, true, s.node, sessionField n s, s.txSeq, 0, 0, s.ringEpoch,
    winWritePayload s.ringWindow.toNat s.ringGen.toNat 0 0 0 off data⟩

/-- The write as it waits for its answer (R432). -/
def ringOut (n : Nat) (s : Session) (off : Nat) (data : List Byte) (use : WinUse) : WinOut :=
  ⟨s.node, sessionField n s, s.txSeq, s.port, s.peer, s.tclass, none, off, data.length, ringMsg n s off data, 0, use⟩

/-- A write into the rings of an attached session takes the session's next sequence number, waits for its answer and is sent. -/
theorem Module.ringWrite_attached {m : Module} {n : Nat} {s : Session} (hs : m.sessions.find? n = some s) (off : Nat)
    (data : List Byte) (use : WinUse) :
    m.ringWrite n off data use =
      ({ m with sessions := m.sessions.insert n { s with txSeq := s.txSeq + 1 }
                winOut := m.winOut ++ [ringOut n s off data use] } : Module).originate s.port s.peer s.replicate s.tclass
        (ringMsg n s off data) := by
  simp only [Module.ringWrite, hs, ringOut, ringMsg]

theorem Module.ringWrite_unserved (m : Module) (n off : Nat) (data : List Byte) (use : WinUse) :
    (m.ringWrite n off data use).unserved = m.unserved := by
  cases hs : m.sessions.find? n with
  | none => simp only [Module.ringWrite, hs]
  | some s =>
    rw [Module.ringWrite_attached hs, Module.originate_unserved]
    rfl

theorem Module.writeCompl_unserved (m : Module) (n : Nat) (e : Compl) : (m.writeCompl n e).unserved = m.unserved := by
  unfold Module.writeCompl
  split
  · rfl
  · exact Module.ringWrite_unserved _ _ _ _ _

theorem Module.complete_unserved (m : Module) (c : CmdRef) (status result : Nat) :
    (m.complete c status result).unserved = m.unserved := by
  unfold Module.complete Module.completeMore
  split
  · rfl
  · split
    · rfl
    · exact Module.writeCompl_unserved _ _ _

section
variable (m : Module) (c : CmdRef) (status result : Nat)

@[simp] theorem Module.complete_mem : (m.complete c status result).mem = m.mem :=
  (congrArg Module.mem (m.complete_unserved c status result) :)

@[simp] theorem Module.complete_syncs : (m.complete c status result).syncs = m.syncs :=
  (congrArg Module.syncs (m.complete_unserved c status result) :)

@[simp] theorem Module.complete_sync (o : Nat) : (m.complete c status result).sync o = m.sync o :=
  (congrArg (Module.sync · o) (m.complete_unserved c status result) :)

@[simp] theorem Module.complete_hostWaits : (m.complete c status result).hostWaits = m.hostWaits :=
  (congrArg Module.hostWaits (m.complete_unserved c status result) :)

@[simp] theorem Module.complete_rd (off : Nat) : (m.complete c status result).rd off = m.rd off :=
  (congrArg (Module.rd · off) (m.complete_unserved c status result) :)

@[simp] theorem Module.complete_cpHalted : (m.complete c status result).cpHalted = m.cpHalted :=
  (congrArg Module.cpHalted (m.complete_unserved c status result) :)

end

/-! ### The completion entry -/

/-- Where a completion entry goes in the ring window of its session (R387). -/
def complOff (s : Session) : Nat := s.cqOff + s.cqTail.toNat % s.cqN * 16

theorem Module.writeCompl_attached {m : Module} {n : Nat} {s : Session} (hs : m.sessions.find? n = some s) (e : Compl) :
    m.writeCompl n e =
      ({ m with sessions := m.sessions.insert n { s with cqTail := s.cqTail + 1 } } : Module).ringWrite n (complOff s)
        (complBytes e (phaseBit s.cqTail s.cqN)) (.completion (BitVec.ofNat 8 n).toFin) := by
  simp only [Module.writeCompl, hs, complOff]

section
variable {m : Module} {c : CmdRef} {s : Session} (hs : m.sessions.find? c.session.val = some s) (hgen : s.gen = c.gen)
include hs hgen

/-- The completion of an attached session's command waits when no place is free or the control pairs are halted. -/
theorem Module.complete_waiting (status result : Nat) (hwait : ¬ (cqRoom s = true ∧ m.cpHalted = false)) :
    m.complete c status result =
      { m with sessions := m.sessions.insert c.session.val { s with cqWait := s.cqWait ++
          [⟨c.tag, BitVec.ofNat 8 status, false, c.opcode, BitVec.ofNat 64 result⟩] } } := by
  have hwaits : m.complWaits c = true := by
    rw [not_and_or] at hwait
    simpa [Module.complWaits, Module.cmdSession, hs, hgen] using hwait
  simp [Module.complete, Module.completeMore, Module.cmdSession, hs, hgen, hwaits]

/-- Otherwise it is written, and the command leaves the session's list. -/
theorem Module.complete_written (status result : Nat) (hroom : cqRoom s = true) (hserved : m.cpHalted = false) :
    m.complete c status result =
      ({ m with sessions := m.sessions.insert c.session.val { s with taken := dropTaken s.taken c.tag c.opcode } }
        : Module).writeCompl c.session.val
          ⟨c.tag, BitVec.ofNat 8 status, false, c.opcode, BitVec.ofNat 64 result⟩ := by
  have hwaits : m.complWaits c = false := by
    simp [Module.complWaits, Module.cmdSession, hs, hgen, hroom, hserved]
  simp [Module.complete, Module.completeMore, Module.cmdSession, hs, hgen, hwaits]

end

/-- The completion of an attached session's command leaves its entry as R397 to R399 state. -/
theorem Module.complete_completes {m : Module} {h : CmdHdr} {x : Session}
    (hx : m.sessions.find? h.session.val = some x) (op status result : Nat) :
    Completes (m.complete ⟨h.session, x.gen, h.tag, BitVec.ofNat 8 op⟩ status result) h op x status result := by
  unfold Completes
  rw [Module.complete_cpHalted]
  by_cases hserved : cqRoom x = true ∧ m.cpHalted = false
  · obtain ⟨hroom, hon⟩ := hserved
    have hnum : (BitVec.ofNat 8 h.session.val).toFin = h.session := by simp
    rw [Module.complete_written hx rfl status result hroom hon,
      Module.writeCompl_attached (SMap.find?_insert_same _ _ _), Module.ringWrite_attached (SMap.find?_insert_same _ _ _)]
    simp only [hroom, hon, Module.originate_sessions, Module.originate_winOut, hnum]
    refine ⟨_, SMap.find?_insert_same _ _ _, ?_⟩
    rw [if_pos ⟨trivial, trivial⟩]
    exact ⟨rfl, _, List.mem_append_right _ (List.mem_singleton_self _), rfl, rfl⟩
  · rw [Module.complete_waiting hx rfl status result hserved]
    refine ⟨_, SMap.find?_insert_same _ _ _, ?_⟩
    rw [if_neg hserved]
    exact ⟨rfl, List.mem_append_right _ (List.mem_singleton_self _)⟩

/-! ### The start of a command -/

theorem exists_of_canStart {l : List Taken} {tag : Word} {op : Byte} {operands : List Byte → Bool}
    (h : canStart l tag op operands = true) : ∃ t ∈ l, t.tag = tag ∧ t.opcode = op ∧ ¬ t.started := by
  by_contra hnone
  have hfind : l.findIdx? (fun t => t.tag = tag ∧ t.opcode = op ∧ ¬ t.started) = none := by
    rw [List.findIdx?_eq_none_iff]
    intro t ht
    exact decide_eq_false fun hp => hnone ⟨t, ht, hp⟩
  simp only [canStart, hfind, Bool.false_eq_true] at h

theorem exists_started_markStarted {l : List Taken} {tag : Word} {op : Byte}
    (h : ∃ t ∈ l, t.tag = tag ∧ t.opcode = op ∧ ¬ t.started) :
    ∃ t ∈ markStarted l tag op, t.tag = tag ∧ t.opcode = op ∧ t.started = true := by
  induction l with
  | nil => simp at h
  | cons a l ih =>
    by_cases ha : a.tag = tag ∧ a.opcode = op ∧ ¬ a.started
    · rw [markStarted, if_pos ha]
      obtain ⟨htag, hop, -⟩ := ha
      exact ⟨{ a with started := true }, List.mem_cons_self, htag, hop, rfl⟩
    · rw [markStarted, if_neg ha]
      obtain ⟨t, ht, hp⟩ := h
      have htl : t ∈ l := (List.mem_cons.1 ht).resolve_left fun he => ha (he ▸ hp)
      obtain ⟨u, hu, hq⟩ := ih ⟨t, htl, hp⟩
      exact ⟨u, List.mem_cons_of_mem _ hu, hq⟩

/-- The session with a command of its list started. -/
def begunSession (h : CmdHdr) (op : Nat) (x : Session) : Session :=
  { x with taken := markStarted x.taken h.tag (BitVec.ofNat 8 op) }

/-- The module with a command of session `x` started. -/
def Module.begun (m : Module) (h : CmdHdr) (op : Nat) (x : Session) : Module :=
  { m with sessions := m.sessions.insert h.session.val (begunSession h op x) }

theorem Module.begun_find (m : Module) (h : CmdHdr) (op : Nat) (x : Session) :
    (m.begun h op x).sessions.find? h.session.val = some (begunSession h op x) := SMap.find?_insert_same _ _ _

section
variable (m : Module) (h : CmdHdr) (op : Nat) (x : Session)

@[simp] theorem Module.begun_syncs : (m.begun h op x).syncs = m.syncs := rfl
@[simp] theorem Module.begun_sync (o : Nat) : (m.begun h op x).sync o = m.sync o := rfl
@[simp] theorem Module.begun_hostWaits : (m.begun h op x).hostWaits = m.hostWaits := rfl

end

section
variable {s : State} {h : CmdHdr} {op : Nat} {operands : List Byte → Bool} {x : Session}

/-- A ring command that may start runs with itself started. -/
theorem Startable.command_eq (hst : Startable s h op operands x) (f : CmdRef → Module → Module) :
    s.toModule.command h op operands f =
      f ⟨h.session, x.gen, h.tag, BitVec.ofNat 8 op⟩ (s.toModule.begun h op x) := by
  obtain ⟨-, hx, hcan, hserved, hfill⟩ := hst
  have hnow : s.toModule.startsNow x h.tag op operands = true := by simp [Module.startsNow, hcan, hserved, hfill]
  simp only [Module.command, hx, hnow, if_true, Module.begun, begunSession]

/-- A module that keeps the sessions as the start of the command left them has it under way. -/
theorem Startable.underway (hst : Startable s h op operands x) {m : Module}
    (hm : m.sessions = (s.toModule.begun h op x).sessions) : Underway m h op := by
  obtain ⟨-, -, hcan, -⟩ := hst
  exact ⟨_, by rw [hm, Module.begun_find], exists_started_markStarted (exists_of_canStart hcan)⟩

/-- The completion of a command from a module that keeps the sessions as its start left them. -/
theorem completes_of_begun {m : Module} (k : Module) (hm : m.sessions = (k.begun h op x).sessions) (status result : Nat) :
    Completes (m.complete ⟨h.session, x.gen, h.tag, BitVec.ofNat 8 op⟩ status result) h op x status result :=
  have hx : m.sessions.find? h.session.val = some (begunSession h op x) := by rw [hm, Module.begun_find]
  Module.complete_completes hx op status result

/-- A row that runs as a ring command answers with what the command does once it is started. -/
theorem Startable.answers (hst : Startable s h op operands x) {c : Instr} {f : CmdRef → Module → Module}
    (hexec : exec c s = ok s (s.toModule.command h op operands f)) {Q : Module → Prop}
    (hQ : Q (f ⟨h.session, x.gen, h.tag, BitVec.ofNat 8 op⟩ (s.toModule.begun h op x))) : Answers c s Q :=
  ⟨_, by rw [hexec, hst.command_eq, ok_on _ _ hst.1], hQ⟩

end

end Sys2Proof.Machine
end

section
/-!
The sync operations of a session (R298, R300 to R303, R308, R310): what an update and a WAIT do to the objects and the
outstanding waits, and how each completes.
-/
namespace Sys2Proof.Machine
open Sys2Proof

/-! ### Updates of an object -/

theorem syncUpdate_of_free {obj : W16} (m : Module) (hobj : obj.toNat < 8192) (hfree : m.owned obj.toNat = false)
    (f : Word → Word) (c : CmdRef) :
    syncUpdate obj f c m = (m.setSync obj.toNat (f (m.sync obj.toNat))).complete c stOk 0 := by
  simp [syncUpdate, hobj, hfree]

/-- An update of a number past the last or of a plan-owned object completes with REFUSED from a module with the same objects,
the latter counted (R300, R308). -/
theorem syncUpdate_of_refused {obj : W16} (m : Module) (hbad : 8192 ≤ obj.toNat ∨ m.owned obj.toNat = true)
    (f : Word → Word) (c : CmdRef) :
    ∃ m' : Module, syncUpdate obj f c m = m'.complete c stRefused 0 ∧ m'.syncs = m.syncs ∧ m'.sessions = m.sessions := by
  by_cases hobj : 8192 ≤ obj.toNat
  · exact ⟨m, by simp [syncUpdate, hobj], rfl, rfl⟩
  · exact ⟨m.count SYN_CNT_REFUSED 1, by simp [syncUpdate, hobj, hbad.resolve_left hobj], rfl, rfl⟩

section
variable {s : State} {h : CmdHdr} {operands : List Byte → Bool} {x : Session} {c : Instr} {obj : W16} {f : Word → Word}
  (hst : Startable s h 11 operands x)
  (hexec : exec c s = ok s (s.toModule.command h 11 operands (syncUpdate obj f)))
include hst hexec

/-- SIGNAL, ADD and RESET of an object that no plan owns set it alone, touch no memory and complete with OK. -/
theorem syncUpdate_answers (hobj : obj.toNat < 8192) (hfree : s.owned obj.toNat = false) :
    Answers c s fun m => m.sync obj.toNat = f (s.sync obj.toNat) ∧ (∀ o, o ≠ obj.toNat → m.sync o = s.sync o) ∧
      m.core.mem = s.mem ∧ Completes m h 11 x 0 0 := by
  refine hst.answers hexec ?_
  rw [syncUpdate_of_free (s.toModule.begun h 11 x) hobj hfree]
  refine ⟨by simp, fun o ho => ?_, ?_, completes_of_begun s.toModule (by simp) _ _⟩
  · rw [Module.complete_sync, Module.sync_setSync_ne _ _ ho, Module.begun_sync]
  · exact Module.complete_mem _ _ _ _

/-- Of a number past the last or of a plan-owned object they are refused and change no object. -/
theorem syncUpdate_refused_answers (hbad : 8192 ≤ obj.toNat ∨ s.owned obj.toNat = true) :
    Answers c s fun m => m.syncs = s.syncs ∧ Completes m h 11 x 3 0 := by
  refine hst.answers hexec ?_
  obtain ⟨m', heq, hsyncs, hsess⟩ := syncUpdate_of_refused (s.toModule.begun h 11 x) hbad f
    ⟨h.session, x.gen, h.tag, BitVec.ofNat 8 11⟩
  rw [heq]
  exact ⟨by rw [Module.complete_syncs, hsyncs, Module.begun_syncs], completes_of_begun s.toModule hsess _ _⟩

end

/-! ### Outstanding waits -/

@[simp] theorem Module.setWaits_syncs (m : Module) (l : List HostWait) : (m.setWaits l).syncs = m.syncs := rfl
@[simp] theorem Module.setWaits_sessions (m : Module) (l : List HostWait) : (m.setWaits l).sessions = m.sessions := rfl
@[simp] theorem Module.setWaits_hostWaits (m : Module) (l : List HostWait) : (m.setWaits l).hostWaits = l := rfl

theorem Module.rd_setWaits_ne (m : Module) (l : List HostWait) {off : Nat} (h : off ≠ SYN_STAT) :
    (m.setWaits l).rd off = m.rd off := Module.rd_setFld_ne _ _ _ h

/-- A WAIT with an object number and a timeout of R300 completes at once, finds no room (R301), or waits. -/
theorem syncWaitStart_of_form {obj : W16} {tmo : Word} (hobj : obj.toNat < 8192) (htmo : tmo ≠ 0) (t : Word) (c : CmdRef)
    (m : Module) :
    syncWaitStart obj t tmo c m =
      if meets (m.sync obj.toNat) t then m.complete c stOk 0
      else if 512 ≤ m.hostWaits.length then m.complete c stBusy 0
      else m.setWaits (m.hostWaits ++ [⟨c.session, c.tag, obj.toNat, t⟩]) :=
  if_neg (not_or_intro (Nat.not_le_of_lt hobj) htmo)

section
variable {s : State} {h : CmdHdr} {x : Session} {obj : W16} {t tmo : Word}
  (hst : Startable s h 11 (entryHas [(8, 2, obj.toNat), (10, 1, 3), (16, 4, t.toNat), (20, 4, tmo.toNat)]) x)
  (hobj : obj.toNat < 8192) (htmo : tmo ≠ 0)
include hst hobj htmo

theorem syncOpWait_answers_of_meets (hmeets : meets (s.sync obj.toNat) t = true) :
    Answers (.syncOpWait h obj t tmo) s fun m =>
      m.syncs = s.syncs ∧ m.hostWaits = s.hostWaits ∧ Completes m h 11 x 0 0 := by
  refine hst.answers rfl ?_
  rw [syncWaitStart_of_form hobj htmo, Module.begun_sync, if_pos hmeets]
  exact ⟨by simp, by simp, completes_of_begun s.toModule (by rfl) _ _⟩

theorem syncOpWait_answers_of_room (hmeets : meets (s.sync obj.toNat) t = false) (hroom : s.hostWaits.length < 512) :
    Answers (.syncOpWait h obj t tmo) s fun m =>
      m.syncs = s.syncs ∧ m.hostWaits = s.hostWaits ++ [⟨h.session, h.tag, obj.toNat, t⟩] ∧ Underway m h 11 := by
  refine hst.answers rfl ?_
  rw [syncWaitStart_of_form hobj htmo, Module.begun_sync, if_neg (ne_true_of_eq_false hmeets),
    Module.begun_hostWaits, if_neg (Nat.not_le_of_lt hroom)]
  exact ⟨by simp, by simp, hst.underway (by simp)⟩

theorem syncOpWait_answers_of_full (hmeets : meets (s.sync obj.toNat) t = false) (hfull : 512 ≤ s.hostWaits.length) :
    Answers (.syncOpWait h obj t tmo) s fun m => m.hostWaits = s.hostWaits ∧ Completes m h 11 x 2 0 := by
  refine hst.answers rfl ?_
  rw [syncWaitStart_of_form hobj htmo, Module.begun_sync, if_neg (ne_true_of_eq_false hmeets),
    Module.begun_hostWaits, if_pos hfull]
  exact ⟨by simp, completes_of_begun s.toModule (by rfl) _ _⟩

end

/-! ### The end of a wait -/

section
variable {s : State} {h : CmdHdr} {x : Session} {w : HostWait} (hon : s.boot ≠ .off)
  (hw : s.hostWait? h.session h.tag = some w) (hx : s.sessions.find? h.session.val = some x)
include hw hx

/-- A wait of an attached session comes from the session's command with the wait's tag. -/
theorem waitCmd_of_hostWait : s.waitCmd w = ⟨h.session, x.gen, h.tag, BitVec.ofNat 8 11⟩ := by
  have hfound := List.find?_some hw
  obtain ⟨hsession, htag⟩ := of_decide_eq_true hfound
  simp [Module.waitCmd, hsession, htag, hx]

include hon

theorem syncWaitMet_answers (hmeets : meets (s.sync w.obj) w.thr = true) :
    Answers (.syncWaitMet h.session h.tag) s fun m =>
      m.hostWaits = s.hostWaits.erase w ∧ m.syncs = s.syncs ∧ Completes m h 11 x 0 0 := by
  refine ⟨_, ok_on _ _ hon, ?_⟩
  simp only [syncWaitMet, hw, hmeets, if_true, waitCmd_of_hostWait hw hx]
  exact ⟨by simp, by simp, Module.complete_completes (by exact hx) _ _ _⟩

theorem syncWaitTimeout_answers (hmeets : meets (s.sync w.obj) w.thr = false) :
    Answers (.syncWaitTimeout h.session h.tag) s fun m =>
      m.hostWaits = s.hostWaits.erase w ∧ m.syncs = s.syncs ∧ Completes m h 11 x 6 0 ∧
        (m.rd SYN_CNT_TIMEOUT).toNat = min ((s.rd SYN_CNT_TIMEOUT).toNat + 1) 0xFFFFFFFF := by
  refine ⟨_, ok_on _ _ hon, ?_⟩
  simp only [syncWaitTimeout, hw, hmeets, Bool.false_eq_true, if_false, waitCmd_of_hostWait hw hx]
  refine ⟨by simp, by simp, Module.complete_completes (by exact hx) _ _ _, ?_⟩
  rw [Module.complete_rd, Module.rd_count_same_toNat, Module.rd_setWaits_ne _ _ (by decide)]

end

end Sys2Proof.Machine

namespace Sys2Proof
open Sys2Proof.Machine

/-- Settles O31: an update by the session sets its object alone or is refused, and a WAIT completes at once, waits or finds
no room, until it is met or times out. -/
theorem syncOperationsComplete : Obligations.SyncOperationsComplete := by
  unfold Obligations.SyncOperationsComplete
  refine ⟨fun o => rfl, fun h obj v t tmo x s => ⟨fun hobj hfree => ⟨fun hst => ?_, fun hst => ?_, fun hst => ?_⟩,
    ?_, fun hst hobj htmo => ⟨?_, ?_, ?_⟩, fun w hon hw hx => ⟨?_, ?_⟩⟩⟩
  · exact (syncUpdate_answers hst rfl hobj hfree).imp fun m ⟨hval, hother, hmem, hcompl⟩ =>
      ⟨hval ▸ BitVec.toNat_add _ 1, hother, hmem, hcompl⟩
  · exact (syncUpdate_answers hst rfl hobj hfree).imp fun m ⟨hval, hother, _, hcompl⟩ =>
      ⟨hval ▸ BitVec.toNat_add _ v, hother, hcompl⟩
  · exact (syncUpdate_answers hst rfl hobj hfree).imp fun m ⟨hval, hother, _, hcompl⟩ => ⟨hval, hother, hcompl⟩
  · rintro hbad c k (⟨rfl, rfl⟩ | ⟨rfl, rfl⟩ | ⟨rfl, rfl⟩) hst <;> exact syncUpdate_refused_answers hst rfl hbad
  · exact syncOpWait_answers_of_meets hst hobj htmo
  · exact syncOpWait_answers_of_room hst hobj htmo
  · exact syncOpWait_answers_of_full hst hobj htmo
  · exact syncWaitMet_answers hon hw hx
  · exact syncWaitTimeout_answers hon hw hx

end Sys2Proof
end

section
/-!
The thermal cap (R371): the line of a mode with its rounding, what the PMC's update writes to the two registers that show the
cap, and what reporting PLAN_AT_RISK (R372) leaves of them.
-/
namespace Sys2Proof.Machine
open Sys2Proof

/-! ### The line of a mode -/

/-- The sixteenths of a degree above 70 °C, held from 85 °C on. -/
def overheat (t : Int) : Nat := (max 0 (min t (85 * 16) - 70 * 16)).toNat

theorem overheat_of_le {t : Int} (h : t ≤ 70 * 16) : overheat t = 0 := by
  unfold overheat
  omega

theorem overheat_of_ge {t : Int} (h : 85 * 16 ≤ t) : overheat t = 240 := by
  unfold overheat
  omega

theorem overheat_cast {t : Int} (hlo : 70 * 16 ≤ t) (hhi : t ≤ 85 * 16) : (overheat t : Int) = t - 70 * 16 := by
  unfold overheat
  omega

theorem overheat_le (t : Int) : overheat t ≤ 240 := by
  unfold overheat
  omega

theorem overheat_mono {t u : Int} (h : t ≤ u) : overheat t ≤ overheat u := by
  unfold overheat
  omega

theorem thermalCap_eq (mode : Nat) (t : Int) :
    thermalCap mode t = (capBase mode * 16 - capFall mode * overheat t) / 80 * 5 := rfl

theorem thermalCap_mod_five (mode : Nat) (t : Int) : thermalCap mode t % 5 = 0 := Nat.mul_mod_left _ _

theorem thermalCap_antitone (mode : Nat) {t u : Int} (h : t ≤ u) : thermalCap mode u ≤ thermalCap mode t := by
  rw [thermalCap_eq, thermalCap_eq]
  have hfall : capFall mode * overheat t ≤ capFall mode * overheat u := Nat.mul_le_mul_left _ (overheat_mono h)
  gcongr

theorem capBase_le (mode : Nat) : capBase mode ≤ 1850 := by
  unfold capBase
  split_ifs <;> omega

/-- The thermal cap fits the 16 bits of the fields that show it. -/
theorem thermalCap_lt (mode : Nat) (t : Int) : thermalCap mode t < 2 ^ 16 := by
  have hbase := capBase_le mode
  rw [thermalCap_eq]
  omega

/-- A row of R371's table: the cap at 70 °C and at 85 °C and the fall per degree. -/
structure CapRow (mode base low fall : Nat) : Prop where
  base_eq : capBase mode = base
  fall_eq : capFall mode = fall
  base_mod : base % 5 = 0
  low_mod : low % 5 = 0
  low_eq : low * 16 + fall * 240 = base * 16

theorem capRow_of_mem {mode base low fall : Nat}
    (h : (mode, base, low, fall) ∈ [(0, 1500, 1050, 30), (1, 1850, 1250, 40), (2, 950, 800, 10)]) :
    CapRow mode base low fall := by
  simp only [List.mem_cons, List.not_mem_nil, or_false, Prod.mk.injEq] at h
  rcases h with ⟨rfl, rfl, rfl, rfl⟩ | ⟨rfl, rfl, rfl, rfl⟩ | ⟨rfl, rfl, rfl, rfl⟩ <;>
    exact ⟨rfl, rfl, rfl, rfl, rfl⟩

section
variable {mode base low fall : Nat} (hrow : CapRow mode base low fall)
include hrow

theorem CapRow.thermalCap_eq (t : Int) : thermalCap mode t = (base * 16 - fall * overheat t) / 80 * 5 := by
  rw [Machine.thermalCap_eq, hrow.base_eq, hrow.fall_eq]

theorem CapRow.thermalCap_of_le {t : Int} (h : t ≤ 70 * 16) : thermalCap mode t = base := by
  have hmod := hrow.base_mod
  rw [hrow.thermalCap_eq, overheat_of_le h]
  omega

theorem CapRow.thermalCap_of_ge {t : Int} (h : 85 * 16 ≤ t) : thermalCap mode t = low := by
  have hmod := hrow.low_mod
  have hlow := hrow.low_eq
  rw [hrow.thermalCap_eq, overheat_of_ge h]
  omega

/-- Between 70 °C and 85 °C the cap is the line's value rounded down to a multiple of 0.5 W. -/
theorem CapRow.thermalCap_line {t : Int} (hlo : 70 * 16 ≤ t) (hhi : t ≤ 85 * 16) :
    (thermalCap mode t : Int) * 16 ≤ base * 16 - fall * (t - 70 * 16) ∧
      (base * 16 - fall * (t - 70 * 16) : Int) < (thermalCap mode t + 5) * 16 := by
  have hfall : fall * overheat t ≤ fall * 240 := Nat.mul_le_mul_left _ (overheat_le t)
  have hlow := hrow.low_eq
  rw [← overheat_cast hlo hhi, hrow.thermalCap_eq, ← Nat.cast_mul fall]
  omega

end

/-! ### The registers that show the cap -/

/-- The registers that show the caps and the cap in force (R446, R374). -/
def Module.capRegs (m : Module) : Word × Word := (m.rd PWR_CAP, m.rd SYS_ADM_POWER)

/-- Modules that show the same caps show the same thermal cap and the same cap in force. -/
theorem Module.caps_of_capRegs {m k : Module} (h : m.capRegs = k.capRegs) :
    m.fld PWR_CAP PWR_CAP_thermal_dw = k.fld PWR_CAP PWR_CAP_thermal_dw ∧ m.cap = k.cap := by
  obtain ⟨hcap, hadm⟩ := Prod.mk.inj h
  simp only [Module.cap, Module.fld, hcap, hadm, and_self]

theorem Module.capRegs_congr {m k : Module} (h : m.regs = k.regs) : m.capRegs = k.capRegs := by
  simp only [Module.capRegs, Module.rd, h]

/-- The register shows no cap. -/
def ShowsNoCap (off : Nat) : Prop := off ≠ PWR_CAP ∧ off ≠ SYS_ADM_POWER

theorem showsNoCap_stack {j : Nat} (hj : j < 0x20) (s : Nat) : ShowsNoCap (0x400000 + j + s * 0x8000) := by
  unfold ShowsNoCap PWR_CAP SYS_ADM_POWER
  omega

theorem showsNoCap_channel {j : Nat} (hj : j < 0x10) (c : Nat) : ShowsNoCap (0x501000 + j + c * 0x100) := by
  unfold ShowsNoCap PWR_CAP SYS_ADM_POWER
  omega

theorem showsNoCap_fltCnt {i : Nat} (hi : i < 16) : ShowsNoCap (SYS_FLT_CNT i) := by
  unfold ShowsNoCap SYS_FLT_CNT PWR_CAP SYS_ADM_POWER
  omega

theorem showsNoCap_trace : ShowsNoCap DBG_TRACE := by
  unfold ShowsNoCap
  decide

@[simp] theorem showsNoCap_SPM_ST_CE (s : Nat) : ShowsNoCap (SPM_ST_CE s) := showsNoCap_stack (j := 0x04) (by decide) s
@[simp] theorem showsNoCap_SPM_ST_UE (s : Nat) : ShowsNoCap (SPM_ST_UE s) := showsNoCap_stack (j := 0x08) (by decide) s
@[simp] theorem showsNoCap_SPM_ST_UE_ADDR (s : Nat) : ShowsNoCap (SPM_ST_UE_ADDR s) :=
  showsNoCap_stack (j := 0x10) (by decide) s
@[simp] theorem showsNoCap_SPM_ST_POISONED (s : Nat) : ShowsNoCap (SPM_ST_POISONED s) :=
  showsNoCap_stack (j := 0x14) (by decide) s
@[simp] theorem showsNoCap_SPM_ST_GATHER (s : Nat) : ShowsNoCap (SPM_ST_GATHER s) :=
  showsNoCap_stack (j := 0x1C) (by decide) s
@[simp] theorem showsNoCap_DDR_CH_CE (c : Nat) : ShowsNoCap (DDR_CH_CE c) := showsNoCap_channel (j := 0x0) (by decide) c
@[simp] theorem showsNoCap_DDR_CH_UE (c : Nat) : ShowsNoCap (DDR_CH_UE c) := showsNoCap_channel (j := 0x4) (by decide) c
@[simp] theorem showsNoCap_DDR_CH_UE_ADDR_LO (c : Nat) : ShowsNoCap (DDR_CH_UE_ADDR_LO c) :=
  showsNoCap_channel (j := 0x8) (by decide) c
@[simp] theorem showsNoCap_DDR_CH_UE_ADDR_HI (c : Nat) : ShowsNoCap (DDR_CH_UE_ADDR_HI c) :=
  showsNoCap_channel (j := 0xC) (by decide) c

section
variable (m : Module) {off : Nat} (h : ShowsNoCap off)
include h

@[simp] theorem Module.wr_capRegs (v : Word) : (m.wr off v).capRegs = m.capRegs := by
  unfold Module.capRegs
  rw [Module.rd_wr_ne m v h.1.symm, Module.rd_wr_ne m v h.2.symm]

@[simp] theorem Module.setFld_capRegs (b : Bits) (v : Nat) : (m.setFld off b v).capRegs = m.capRegs :=
  m.wr_capRegs h _

@[simp] theorem Module.satAdd_capRegs (b : Bits) (n : Nat) : (m.satAdd off b n).capRegs = m.capRegs :=
  m.setFld_capRegs h b _

@[simp] theorem Module.count_capRegs (n : Nat) : (m.count off n).capRegs = m.capRegs := m.wr_capRegs h _

end

theorem foldl_capRegs {β : Type} {f : Module → β → Module} (hf : ∀ m b, (f m b).capRegs = m.capRegs) (l : List β)
    (m : Module) : (l.foldl f m).capRegs = m.capRegs :=
  foldl_keeps (P := fun m' : Module => m'.capRegs = m.capRegs) l f rfl fun m' b h => (hf m' b).trans h

/-! ### Events and faults show no cap -/

theorem Module.makeEvent_capRegs (m : Module) (code ctx : Nat) (seq : Word) (p0 p1 p2 p3 : Nat) :
    (m.makeEvent code ctx seq p0 p1 p2 p3).2.capRegs = m.capRegs :=
  Module.wr_capRegs _ showsNoCap_trace _

theorem Module.ringWrite_capRegs (m : Module) (n off : Nat) (data : List Byte) (use : WinUse) :
    (m.ringWrite n off data use).capRegs = m.capRegs :=
  Module.capRegs_congr (congrArg Module.regs (m.ringWrite_unserved n off data use) :)

theorem Module.writeEvent_capRegs (m : Module) (n : Nat) (e : Event) : (m.writeEvent n e).capRegs = m.capRegs := by
  unfold Module.writeEvent
  split
  · rfl
  · exact (Module.ringWrite_capRegs _ _ _ _ _).trans (Module.capRegs_congr rfl)

theorem Module.writeLost_capRegs (m : Module) (n : Nat) : (m.writeLost n).capRegs = m.capRegs := by
  unfold Module.writeLost
  split
  · rfl
  · next s _ =>
    split
    · rfl
    · have hmade := m.makeEvent_capRegs 0x0D01 0xFF 0 0 s.lost s.firstLost.toNat 0
      generalize m.makeEvent 0x0D01 0xFF 0 0 s.lost s.firstLost.toNat 0 = made at hmade ⊢
      exact (Module.writeEvent_capRegs _ n made.1).trans ((Module.capRegs_congr rfl).trans hmade)

theorem Module.deliverTo_capRegs (m : Module) (e : Event) (n : Nat) : (m.deliverTo e n).capRegs = m.capRegs := by
  unfold Module.deliverTo
  split
  · rfl
  · split
    · split
      · exact m.writeEvent_capRegs _ _
      · rfl
    · rfl

theorem Module.writeAllLost_capRegs (m : Module) : m.writeAllLost.capRegs = m.capRegs :=
  foldl_capRegs Module.writeLost_capRegs _ m

theorem Module.deliver_capRegs (m : Module) (e : Event) : (m.deliver e).capRegs = m.capRegs := by
  unfold Module.deliver
  split
  · rfl
  · exact foldl_capRegs (fun m n => m.deliverTo_capRegs e n) _ m

@[simp] theorem Module.raise_capRegs (m : Module) (code p0 p1 p2 p3 : Nat) :
    (m.raise code p0 p1 p2 p3).capRegs = m.capRegs :=
  (Module.deliver_capRegs _ _).trans ((Module.makeEvent_capRegs _ _ _ _ _ _ _ _).trans m.writeAllLost_capRegs)

section
variable (m : Module) {cls : Nat} (h : cls ≤ 16)
include h

@[simp] theorem Module.countFault_capRegs : (m.countFault cls).capRegs = m.capRegs :=
  m.count_capRegs (showsNoCap_fltCnt (by omega)) 1

@[simp] theorem Module.fault_capRegs (code p0 p1 p2 p3 : Nat) : (m.fault cls code p0 p1 p2 p3).capRegs = m.capRegs :=
  calc (m.fault cls code p0 p1 p2 p3).capRegs
    _ = ((m.countFault cls).writeAllLost.makeEvent code 0xFF 0 p0 p1 p2 p3).2.capRegs :=
      (Module.deliver_capRegs _ _).trans (Module.capRegs_congr rfl)
    _ = (m.countFault cls).writeAllLost.capRegs := Module.makeEvent_capRegs _ _ _ _ _ _ _ _
    _ = (m.countFault cls).capRegs := Module.writeAllLost_capRegs _
    _ = m.capRegs := m.countFault_capRegs h

end

/-! ### Memory errors and stores show no cap -/

@[simp] theorem Module.clearBad_capRegs (m : Module) (a n : Nat) : (m.clearBad a n).capRegs = m.capRegs :=
  foldl_capRegs (fun m _ => m.setFld_capRegs (showsNoCap_SPM_ST_POISONED _) _ _) _ _

theorem Module.spmCorrected_capRegs (m : Module) (a : Nat) : (m.spmCorrected a).capRegs = m.capRegs := by
  simp only [Module.spmCorrected]
  split <;> simp

theorem Module.spmPoison_capRegs (m : Module) (source a : Nat) : (m.spmPoison source a).capRegs = m.capRegs := by
  unfold Module.spmPoison
  extract_lets s m₀ m₁ m₂
  have h₁ : m₁.capRegs = m.capRegs := by
    simp only [m₁, Module.satAdd_capRegs, Module.count_capRegs, showsNoCap_SPM_ST_UE, showsNoCap_SPM_ST_POISONED]
    exact Module.capRegs_congr rfl
  simp [m₂, h₁]

theorem Module.dramMet_capRegs (m : Module) (a : Nat) : (m.dramMet a).capRegs = m.capRegs := by
  simp [Module.dramMet]

theorem Module.meetErr_capRegs (m : Module) (source : Nat) (e : MemErr) :
    (m.meetErr source e).capRegs = m.capRegs := by
  unfold Module.meetErr
  split
  · split_ifs
    · rfl
    · exact m.spmPoison_capRegs source _
    · exact m.spmCorrected_capRegs _
  · split_ifs
    · rfl
    · rfl
    · simp
  · rfl

theorem Module.meetWhere_capRegs (m : Module) (source : Nat) (hit : MemErr → Bool) :
    (m.meetWhere source hit).capRegs = m.capRegs :=
  foldl_capRegs (fun m e => m.meetErr_capRegs source e) _ _

@[simp] theorem Module.meet_capRegs (m : Module) (source : Nat) (spans : List (Nat × Nat)) :
    (m.meet source spans).capRegs = m.capRegs := m.meetWhere_capRegs source _

@[simp] theorem Module.meetLink_capRegs (m : Module) (a n : Nat) : (m.meetLink a n).capRegs = m.capRegs :=
  m.meetWhere_capRegs 1 _

@[simp] theorem Module.meetPartly_capRegs (m : Module) (source a n : Nat) :
    (m.meetPartly source a n).capRegs = m.capRegs := m.meet_capRegs source _

@[simp] theorem Module.reportPartly_capRegs (m : Module) (a n : Nat) : (m.reportPartly a n).capRegs = m.capRegs :=
  foldl_capRegs Module.dramMet_capRegs _ m

@[simp] theorem Module.putSome_capRegs (m : Module) (a : Nat) (l : List (Option Byte)) (bad : List Nat) :
    (m.putSome a l bad).capRegs = m.capRegs := by
  induction l generalizing m a with
  | nil => rfl
  | cons o t ih =>
    cases o with
    | none => exact ih m (a + 1)
    | some b =>
      simp only [Module.putSome]
      split
      · exact ih m (a + 1)
      · exact ih (m.putByte a b) (a + 1)

@[simp] theorem Module.reportGather_capRegs (m : Module) (s : Nat) : (m.reportGather s).capRegs = m.capRegs :=
  m.setFld_capRegs (showsNoCap_SPM_ST_GATHER s) _ _

theorem Module.flushLine_capRegs (m : Module) (line : Nat) : (m.flushLine line).capRegs = m.capRegs := by
  unfold Module.flushLine
  split
  · rfl
  · rw [Module.reportGather_capRegs, Module.putSome_capRegs]
    refine foldl_capRegs (fun m w => ?_) _ _
    split_ifs <;> simp

@[simp] theorem Module.flushSpan_capRegs (m : Module) (a n : Nat) : (m.flushSpan a n).capRegs = m.capRegs :=
  foldl_capRegs Module.flushLine_capRegs _ m

theorem Module.write_capRegs (m : Module) (a : Nat) (l : List Byte) : (m.write a l).capRegs = m.capRegs := by
  simp [Module.write]

theorem Module.narrowLine_capRegs (m : Module) (a : Nat) (l : List Byte) : (m.narrowLine a l).capRegs = m.capRegs := by
  unfold Module.narrowLine
  extract_lets line s evicted old bytes entered
  have hevicted : evicted.capRegs = m.capRegs := by
    simp only [evicted]
    split_ifs
    · split
      · exact m.flushLine_capRegs _
      · rfl
    · rfl
  have hentered : entered.capRegs = m.capRegs :=
    (Module.reportGather_capRegs _ s).trans ((Module.capRegs_congr rfl).trans hevicted)
  split_ifs
  · exact (entered.flushLine_capRegs line).trans hentered
  · exact hentered

theorem Module.spmWriteGo_capRegs (fuel : Nat) (m : Module) (a : Nat) (l : List Byte) :
    (Module.spmWriteGo fuel m a l).capRegs = m.capRegs := by
  induction fuel generalizing m a l with
  | zero => rfl
  | succ fuel ih =>
    simp only [Module.spmWriteGo]
    split_ifs
    · rfl
    · exact (ih _ _ _).trans (m.write_capRegs _ _)
    · exact (ih _ _ _).trans (m.narrowLine_capRegs _ _)

theorem Module.store_capRegs (m : Module) (a : Nat) (l : List Byte) : (m.store a l).capRegs = m.capRegs := by
  unfold Module.store
  split
  · exact Module.spmWriteGo_capRegs _ m a l
  · exact m.write_capRegs a l

/-! ### The PMC's update -/

theorem Module.thermalReport_capRegs (m : Module) : m.thermalReport.capRegs = m.capRegs := by
  unfold Module.thermalReport Module.writeReport
  split
  · rfl
  · exact m.store_capRegs _ _

theorem Module.checkRisk_capRegs (m : Module) : m.checkRisk.capRegs = m.capRegs := by
  unfold Module.checkRisk
  split
  · rfl
  · split
    · split
      · rfl
      · exact (Module.thermalReport_capRegs _).trans (Module.fault_capRegs _ (by decide) _ _ _ _ _)
    · rfl

section
variable (m : Module) (hfree : m.bit PWR_TEMP_STAT PWR_TEMP_STAT_cap_held = false)
include hfree

/-- While a base-plate sensor works, the thermal cap is that of the cold plate (R371, R461). -/
theorem Module.thermalNow_of_free : m.thermalNow = thermalCap m.mode m.coldPlate := by
  simp [Module.thermalNow, hfree]

theorem Module.updateCap_thermal : m.updateCap.fld PWR_CAP PWR_CAP_thermal_dw = thermalCap m.mode m.coldPlate := by
  have hne : PWR_CAP ≠ SYS_ADM_POWER := by decide
  rw [Module.updateCap, Module.fld_setFld_other _ _ _ _ hne,
    Module.fld_setFld_ne _ _ _ _ _ (by decide) (by decide) (by decide), m.thermalNow_of_free hfree]
  exact Module.fld_setFld _ _ _ _ (by decide) (by decide) (thermalCap_lt _ _)

theorem Module.updateCap_cap :
    m.updateCap.cap = min (thermalCap m.mode m.coldPlate) (supplyCap ((m.powerSamples.take 10000).map (·.1))) := by
  rw [Module.updateCap, m.thermalNow_of_free hfree]
  exact Module.fld_setFld _ _ _ _ (by decide) (by decide) ((min_le_left _ _).trans_lt (thermalCap_lt _ _))

end

/-- THERMAL_CAP_UPDATE shows the thermal cap of the cold plate, and as the cap in force the smaller of it and the supply
cap. -/
theorem thermalCapUpdate_caps (m : Module) (hfree : m.bit PWR_TEMP_STAT PWR_TEMP_STAT_cap_held = false) :
    (thermalCapUpdate m).fld PWR_CAP PWR_CAP_thermal_dw = thermalCap m.mode m.coldPlate ∧
      (thermalCapUpdate m).cap =
        min (thermalCap m.mode m.coldPlate) (supplyCap ((m.powerSamples.take 10000).map (·.1))) := by
  obtain ⟨hthermal, hcap⟩ := Module.caps_of_capRegs m.updateCap.checkRisk_capRegs
  exact ⟨hthermal.trans (m.updateCap_thermal hfree), hcap.trans (m.updateCap_cap hfree)⟩

end Sys2Proof.Machine

namespace Sys2Proof
open Sys2Proof.Machine

/-- Settles O38: the mode's line, rounded down to 0.5 W, and the PMC's update that shows it. -/
theorem thermalCapFallsLinearly : Obligations.ThermalCapFallsLinearly := by
  unfold Obligations.ThermalCapFallsLinearly
  refine ⟨fun mode base low fall hmem t => ?_, fun s hon hfree => ?_⟩
  · have hrow := capRow_of_mem hmem
    exact ⟨thermalCap_mod_five mode t, hrow.thermalCap_of_le, hrow.thermalCap_of_ge, hrow.thermalCap_line,
      fun u => thermalCap_antitone mode⟩
  · obtain ⟨hthermal, hcap⟩ := thermalCapUpdate_caps s.toModule hfree
    exact ⟨_, ok_on _ _ hon, hthermal, fun hle => hcap.trans (min_eq_left hle)⟩

end Sys2Proof
end

section
set_option Elab.async false
/-!
What a command does, apart from how its outcome is told: the change of the module that it makes, and the outcomes of a step.
-/
namespace Sys2Proof.Machine
open Sys2Proof

/-- The change that a command makes to the module where its outcome is a next state and the module is not in OFF. -/
def effect (c : Instr) (m : Module) : Module :=
  match c with
  | .registerWrite src off size value => Machine.registerWrite src off size value m
  | .portEnable src p cfg => Machine.portEnable src p cfg m
  | .portDisable src p cfg => Machine.portDisable src p cfg m
  | .rstLowExpiry p => Machine.rstLowExpiry p m
  | .rstSettleExpiry p => Machine.rstSettleExpiry p m
  | .frameStart p t tail => Machine.frameStart p t tail m
  | .frameEnd p t tail => Machine.frameEnd p t tail m
  | .portLineStart p t hblank tail => Machine.portLineStart p t hblank tail m
  | .portLineEnd p t pixels => Machine.portLineEnd p t pixels m
  | .pclkLossTimeout p t pixels => Machine.pclkLossTimeout p t pixels m
  | .frameEndTimeout p t tail => Machine.frameEndTimeout p t tail m
  | .trainStart src p => Machine.trainStart src p m
  | .trainAbort src p => Machine.trainAbortWrite src p m
  | .trainNoSignalTimeout p => Machine.trainNoSignalTimeout p m
  | .trainDone p sweep verify => Machine.trainDone p sweep verify m
  | .trigModeWrite src p cfg => Machine.trigModeWrite src p cfg m
  | .trigFreeRunPulse p => Machine.trigFreeRunPulse p m
  | .trigNetTimePulse p => Machine.trigNetTimePulse p m
  | .trigPulseEnd p => Machine.trigPulseEnd p m
  | .strobeEdge p => Machine.strobeEdge p m
  | .sqPush src p => Machine.sqPushWrite src p m
  | .sensorTransactionStart p => Machine.sensorTransactionStart p m
  | .sensorTransactionDone p ack rdata => Machine.sensorTransactionDone p ack rdata m
  | .sensorBusTimeout p => Machine.sensorBusTimeout p m
  | .inBandInterrupt p => Machine.inBandInterrupt p m
  | .measSnapshot src p => Machine.measSnapshot src p m
  | .capCntClr src p mask => Machine.capCntClr src p mask m
  | .laneLineStart c => Machine.laneLineStart c m
  | .laneOutputLine c => Machine.laneOutputLine c m
  | .stripeReady c => Machine.stripeReady c m
  | .feCommit src c next withExposure => Machine.feCommitWrite src c next withExposure m
  | .feTblDataAccess src c write => Machine.feTblDataAccess src c write m
  | .statsRecordDone c => Machine.statsRecordDone c m
  | .aeUpdate c => Machine.aeUpdate c m
  | .awbUpdate c => Machine.awbUpdate c m
  | .trimUpdate c => Machine.trimUpdate c m
  | .histResetWrite src c => Machine.histResetWrite src c m
  | .nisTblDataAccess src c write => Machine.nisTblDataAccess src c write m
  | .outputResume src c k => Machine.outputResume src c k m
  | .calStart src c ctl => Machine.calStartWrite src c ctl m
  | .calAbort src c => Machine.calAbortWrite src c m
  | .calStore src c => Machine.calStoreWrite src c m
  | .calStoreDone c ok => Machine.calStoreDone c ok m
  | .calResultReady c => Machine.calResultReady c m
  | .calCntClr src c mask => Machine.calCntClr src c mask m
  | .taskStart cl logical task => Machine.taskStart cl logical task m
  | .engineNop e w => Machine.engineNop e w m
  | .endOp e w => Machine.endOp e w m
  | .loop e w => Machine.loop e w m
  | .setp e w => Machine.setp e w m
  | .alu e w => Machine.alu e w m
  | .ldp e w => Machine.ldp e w m
  | .slot e w => Machine.slotOp e w m
  | .fetch e w errs => Machine.fetch e w errs m
  | .tileArrived e queue => Machine.tileArrived e queue m
  | .wload e w => Machine.wload e w m
  | .mm e w => Machine.mm e w m
  | .mmf e w => Machine.mmf e w m
  | .rfu e w => Machine.rfu e w m
  | .tload e w => Machine.tload e w m
  | .wb e w => Machine.wb e w m
  | .writeAcknowledged writer => Machine.writeAcknowledged writer m
  | .gate e w => Machine.gate e w m
  | .swait e w => Machine.swait e w m
  | .swaitTimeout e => Machine.swaitTimeout e m
  | .ssig e w => Machine.ssig e w m
  | .fence e w => Machine.fence e w m
  | .conv2d e w => Machine.conv2d e w m
  | .gemm e w => Machine.gemm e w m
  | .pool e w => Machine.pool e w m
  | .resize e w => Machine.resize e w m
  | .eltwise e w => Machine.eltwise e w m
  | .norm e w => Machine.norm e w m
  | .softmax e w => Machine.softmax e w m
  | .attention e w => Machine.attention e w m
  | .libCopy e w => Machine.copyRoutine e w m
  | .argmax e w => Machine.argmax e w m
  | .topk e w => Machine.topk e w m
  | .nms e w => Machine.nms e w m
  | .taskComplete e => Machine.taskComplete e m
  | .engineFaultDetected e check => Machine.engineFaultDetected e check m
  | .engineWatchdog e => Machine.engineWatchdog e m
  | .abortComplete e => Machine.abortComplete e m
  | .rerunStart e => Machine.rerunStart e m
  | .residentSetLoad cl logical c stage => Machine.residentSetLoad cl logical c stage m
  | .rotationGroupExchange c stage => Machine.rotationGroupExchange c stage m
  | .cancellationComplete e => Machine.cancellationComplete e m
  | .rotationDue cl => Machine.rotationDue cl m
  | .rotation cl => Machine.rotation cl m
  | .rotationSkip cl => Machine.rotationSkip cl m
  | .sweepDone e pass full => Machine.sweepDone e pass full m
  | .engXCntClr src e mask => Machine.engXCntClr src e mask m
  | .alloc h memory kind stack size => Machine.allocCmd h memory kind stack size m
  | .free h region => Machine.freeCmd h region m
  | .releaseZeroFill region => Machine.releaseZeroFill region m
  | .releaseDone region => Machine.releaseDone region m
  | .fill h dst dstOff len pattern waitObj sigObj waitThr waitTimeout => Machine.fillCmd h dst dstOff len pattern waitObj sigObj waitThr waitTimeout m
  | .copy h dst srcRegion dstOff len srcOff waitObj sigObj waitThr waitTimeout => Machine.copyCmd h dst srcRegion dstOff len srcOff waitObj sigObj waitThr waitTimeout m
  | .fillCopyWriteStart stack => Machine.fillCopyWriteStart stack m
  | .fillCopyWaitTimeout stack => Machine.fillCopyWaitTimeout stack m
  | .fillCopyDone stack => Machine.fillCopyDone stack m
  | .narrowWrite addr bytes => Machine.narrowWrite addr bytes m
  | .gatherIdleFlush line => Machine.gatherIdleFlush line m
  | .scrubVisit stack errs => Machine.scrubVisit stack errs m
  | .stackZeroingDone stack => Machine.stackZeroingDone stack m
  | .spmStCntClr src stack mask => Machine.spmStCntClr src stack mask m
  | .syncOpSignal h obj => Machine.syncOpSignal h obj m
  | .syncOpAdd h obj value => Machine.syncOpAdd h obj value m
  | .syncOpReset h obj value => Machine.syncOpReset h obj value m
  | .syncOpWait h obj threshold timeout => Machine.syncOpWait h obj threshold timeout m
  | .syncWaitMet session tag => Machine.syncWaitMet session tag m
  | .syncWaitTimeout session tag => Machine.syncWaitTimeout session tag m
  | .synCntClr src mask => Machine.synCntClr src mask m
  | .dramWckTrack ch => Machine.dramWckTrack ch m
  | .dramZqCalibrate ch => Machine.dramZqCalibrate ch m
  | .dramSlotAdvance ch used => Machine.dramSlotAdvance ch used m
  | .dma h addr => Machine.dmaCmd h addr m
  | .dmaDescriptorRun ch desc errs fill => Machine.dmaDescriptorRun ch desc errs fill m
  | .dmaWaitMet ch errs fill => Machine.dmaWaitMet ch errs fill m
  | .dmaWaitTimeout ch => Machine.dmaWaitTimeout ch m
  | .dmaDescriptorDone ch => Machine.dmaDescriptorDone ch m
  | .dmaPaceResume ch fill => Machine.dmaPaceResume ch fill m
  | .dmaTransferFail ch => Machine.dmaTransferFail ch m
  | .dmaHalted ch => Machine.dmaHalted ch m
  | .dmaRetry src ch => Machine.dmaRetry src ch m
  | .dmaSkip src ch => Machine.dmaSkip src ch m
  | .dmaAbort src ch => Machine.dmaAbort src ch m
  | .planChannelSkip ch => Machine.planChannelSkip ch m
  | .clipFrameCopy c k => Machine.clipFrameCopy c k m
  | .clipHeaderUpdate c k => Machine.clipHeaderUpdate c k m
  | .freeze h region after => Machine.freeze h region after m
  | .thaw h region => Machine.thaw h region m
  | .admitStream h setup report reportLen rec => Machine.admitStream h setup report reportLen rec m
  | .admitComplete c => Machine.admitComplete c m
  | .release h stream => Machine.release h stream m
  | .releaseComplete c => Machine.releaseComplete c m
  | .deadlineMissed c subject frameIndex stripe lateness => Machine.deadlineMissed c subject frameIndex stripe lateness m
  | .deliveryCopy c j => Machine.deliveryCopy c j m
  | .resumeDelivery h stream delivery => Machine.resumeDelivery h stream delivery m
  | .job h record rec => Machine.jobCmd h record rec m
  | .jobDispatch job stage task cl logical => Machine.jobDispatch job stage task cl logical m
  | .jobPreempt e => Machine.jobPreempt e m
  | .withdraw h jobTag => Machine.withdraw h jobTag m
  | .modeChangeRequest src mode => Machine.modeChangeRequest src mode m
  | .modeReplanDone => Machine.modeReplanDone m
  | .modeClockSwitch => Machine.modeClockSwitch m
  | .modeChanged => Machine.modeChanged m
  | .thermalCapUpdate => Machine.thermalCapUpdate m
  | .planOverCap => Machine.planOverCap m
  | .sysAdmCntClr src mask => Machine.sysAdmCntClr src mask m
  | .ywpFrameDiscard port frame => Machine.ywpFrameDiscard port frame m
  | .arpRequest port target sender => Machine.arpRequest port target sender m
  | .netRxFrame port frame => Machine.netRxFrame port frame m
  | .attach x payload => Machine.attach x payload m
  | .attachServe probe => Machine.attachServe probe m
  | .detach x payload => Machine.detach x payload m
  | .keepalive x payload => Machine.keepalive x payload m
  | .sessionKeepaliveTimeout session => Machine.sessionKeepaliveTimeout session m
  | .regAccess x payload => Machine.regAccess x payload m
  | .doorbell x payload => Machine.doorbell x payload m
  | .submissionEntryTake session entry => Machine.submissionEntryTake session entry m
  | .nop h => Machine.nop h m
  | .reservedOpcode h opcode => Machine.reservedOpcode h opcode m
  | .loadPkg h region offset size => Machine.loadPkg h region offset size m
  | .unloadPkg h package => Machine.unloadPkg h package m
  | .setEvents h mask => Machine.setEvents h mask m
  | .completionWrite session => Machine.completionWrite session m
  | .eventsLost session => Machine.eventsLost session m
  | .notify session => Machine.notify session m
  | .journalRead x payload => Machine.journalRead x payload m
  | .wake x => Machine.wake x.hdr x.payload m
  | .winWrite x payload => Machine.winWrite x payload m
  | .winRead x payload => Machine.winRead x payload m
  | .winSync x payload => Machine.winSync x payload m
  | .winCredit x payload => Machine.winCredit x payload m
  | .winBind x payload probes => Machine.winBind x payload probes m
  | .winUnbind x payload => Machine.winUnbind x payload m
  | .winRefresh x payload probes => Machine.winRefresh x payload probes m
  | .windowResponse x status data => Machine.windowResponse x status data m
  | .winRetryTimeout node session seq => Machine.winRetryTimeout node session seq m
  | .multicastResend w receiver => Machine.multicastResend w receiver m
  | .receiverDropped w receiver => Machine.receiverDropped w receiver m
  | .windowOpen src n ctl => Machine.windowOpen src n ctl m
  | .windowClose src n ctl => Machine.windowClose src n ctl m
  | .talkerConfigWrite src t reg value => Machine.talkerConfigWrite src t reg value m
  | .netTimeSnapshot src => Machine.netTimeSnapshot src m
  | .linkUp port fast => Machine.linkUp port fast m
  | .linkDown port => Machine.linkDown port m
  | .gptpSyncReceive port domain offsetNs => Machine.gptpSyncReceive port domain offsetNs m
  | .gptpSyncTimeout port => Machine.gptpSyncTimeout port m
  | .gptpHoldoverExpiry => Machine.gptpHoldoverExpiry m
  | .gptpClockStep => Machine.gptpClockStep m
  | .qbvCycleStart port => Machine.qbvCycleStart port m
  | .planWindowOpen port c => Machine.planWindowOpen port c m
  | .planWindowEnd port c => Machine.planWindowEnd port c m
  | .netCntClr src port mask => Machine.netCntClr src port mask m
  | .ywpCntClr src mask => Machine.ywpCntClr src mask m
  | .startCondition vinMv => Machine.startCondition vinMv m
  | .supplyLowEnter vinMv => Machine.supplyLowEnter vinMv m
  | .supplyHighEnter vinMv => Machine.supplyHighEnter vinMv m
  | .highVoltageTimeout vinMv => Machine.highVoltageTimeout vinMv m
  | .holdupEnter vinMv => Machine.holdupEnter vinMv m
  | .holdupReconnect vinMv => Machine.holdupReconnect vinMv m
  | .brownOut => Machine.brownOut m
  | .enOff => Machine.enOff m
  | .requestRun src => Machine.requestRun src m
  | .requestIdle src => Machine.requestIdle src m
  | .requestStandby src => Machine.requestStandby src m
  | .requestOff src => Machine.requestOff src m
  | .standbyDrainTimeout => Machine.standbyDrainTimeout m
  | .powerTransitionDone => Machine.powerTransitionDone m
  | .wakeReady => Machine.wakeReady m
  | .autoIdleSample => Machine.autoIdleSample m
  | .powerSample vinMv iinMa rails => Machine.powerSample vinMv iinMa rails m
  | .coldPlateSample bp0 bp1 => Machine.coldPlateSample bp0 bp1 m
  | .tempSensorCheck bp0 bp1 => Machine.tempSensorCheck bp0 bp1 m
  | .thermalTrip => Machine.thermalTrip m
  | .hardThermalTrip => Machine.hardThermalTrip m
  | .energySnapshot src => Machine.energySnapshot src m
  | .pwrCntClr src mask => Machine.pwrCntClr src mask m
  | .status d => Machine.status d m
  | .password d pw => Machine.password d pw m
  | .challenge d level => Machine.challenge d level m
  | .response d level key signature => Machine.response d level key signature m
  | .lock d => Machine.lock d m
  | .regRead d payload => Machine.regRead d payload m
  | .regWrite d payload => Machine.regWrite d payload m
  | .memRead d addr len rec => Machine.memRead d addr len rec m
  | .memWrite d addr data => Machine.memWrite d addr data m
  | .syncReset d obj value => Machine.syncReset d obj value m
  | .halt d target => Machine.halt d target m
  | .resume d target => Machine.resume d target m
  | .traceRead d start max => Machine.traceRead d start max m
  | .debugJournalRead d start max => Machine.debugJournalRead d start max m
  | .attest d nonce => Machine.attest d nonce m
  | .identity d => Machine.identity d m
  | .provision d ownerHash salt pwHash floor => Machine.provision d ownerHash salt pwHash floor m
  | .lifecycle d target => Machine.lifecycle d target m
  | .setPassword d salt hash => Machine.setPassword d salt hash m
  | .debugReservedOp d op => Machine.debugReservedOp d op m
  | .debugFrameDiscard frame => Machine.debugFrameDiscard frame m
  | .nonceExpiry => Machine.nonceExpiry m
  | .backoffExpiry => Machine.backoffExpiry m
  | .zeroFillDone => Machine.zeroFillDone m
  | .dbgCntClr src mask => Machine.dbgCntClr src mask m
  | .sysReset src value => Machine.sysResetWrite src value m
  | .tapReset => Machine.tapReset m
  | .dramTrainingDone recordOk dieTemp ms => Machine.dramTrainingDone recordOk dieTemp ms m
  | .firmwareVerified a b => Machine.firmwareVerified a b m
  | .cpSelfTestDone cp0 cp1 settingsOk => Machine.cpSelfTestDone cp0 cp1 settingsOk m
  | .bootReady => Machine.bootReady m
  | .controlMismatch pair => Machine.controlMismatch pair m
  | .controlWatchdog pair => Machine.controlWatchdog pair m
  | .cpResumeDuties pair pass => Machine.cpResumeDuties pair pass m
  | .stormCountClear => Machine.stormCountClear m
  | .faultLogFlush ok => Machine.faultLogFlush ok m
  | .flogIndexSelect src value => Machine.flogIndexSelect src value m
  | .flogClear src => Machine.flogClear src m
  | .sysFltCntClr src mask => Machine.sysFltCntClr src mask m
  | .supplyNormal vinMv => Machine.supplyNormal vinMv m
  | .supplyLost => Machine.supplyLost m
  | .perBankRefresh ch bank => Machine.perBankRefresh ch bank m
  | .preemptionVerification port ok => Machine.preemptionVerification port ok m
  | .sequenceRecoveryReset stream => Machine.sequenceRecoveryReset stream m
  | .peerDelayMeasurement port delayNs => Machine.peerDelayMeasurement port delayNs m
  | .extest d instruction => Machine.extest d instruction m

theorem supplyRow_cases {mv : Nat} {f : Module → Module} {s t : State} (h : supplyRow mv f s = .next t) :
    t = s ∨ t = { s with toModule := f s.toModule } := by
  unfold supplyRow at h
  split at h
  · cases h
  · exact ok_cases _ _ _ h

/-- A command that answers a next state leaves the state as it is, or makes its change and leaves the queue. -/
theorem exec_next {c : Instr} {s t : State} (h : exec c s = .next t) :
    t = s ∨ t = { s with toModule := effect c s.toModule } := by
  cases c
  case startCondition mv =>
    simp only [exec, execStartCondition] at h
    split at h
    · cases h
    · exact .inr (by cases h; rfl)
  case enOff | supplyLost => exact .inr (by cases h; rfl)
  case supplyLowEnter | supplyHighEnter | highVoltageTimeout | holdupEnter | holdupReconnect | supplyNormal =>
    exact supplyRow_cases h
  all_goals exact ok_cases _ _ _ h

theorem exec_pending {c : Instr} {s t : State} (h : exec c s = .next t) : t.pending = s.pending := by
  rcases exec_next h with rfl | rfl <;> rfl

theorem ok_next (s : State) (m : Module) : ∃ t, ok s m = .next t := ⟨_, rfl⟩

/-- The commands of the supply that carry VIN. -/
def carriesVin (mv : Nat) (c : Instr) : Prop :=
  c = .startCondition mv ∨ c = .supplyLowEnter mv ∨ c = .supplyHighEnter mv ∨ c = .highVoltageTimeout mv ∨
    c = .holdupEnter mv ∨ c = .holdupReconnect mv ∨ c = .supplyNormal mv

theorem supplyRow_outcome (mv : Nat) (f : Module → Module) (s : State) :
    (∃ t, supplyRow mv f s = .next t) ∨ (supplyRow mv f s = .fault .beyondRatings ∧ 100000 < mv) := by
  unfold supplyRow
  split
  · next hmv => exact .inr ⟨rfl, hmv⟩
  · exact .inl (ok_next _ _)

/-- A command answers a next state, or it is one of the supply with VIN above the absolute rating. -/
theorem exec_outcome (c : Instr) (s : State) :
    (∃ t, exec c s = .next t) ∨ (exec c s = .fault .beyondRatings ∧ ∃ mv, 100000 < mv ∧ carriesVin mv c) := by
  have row {mv : Nat} {f : Module → Module} (hc : carriesVin mv c) (hrow : exec c s = supplyRow mv f s) :
      (∃ t, exec c s = .next t) ∨ (exec c s = .fault .beyondRatings ∧ ∃ mv, 100000 < mv ∧ carriesVin mv c) :=
    (supplyRow_outcome mv f s).imp (fun ⟨t, h⟩ => ⟨t, hrow.trans h⟩) fun ⟨h, hmv⟩ => ⟨hrow.trans h, mv, hmv, hc⟩
  cases c
  case startCondition mv =>
    simp only [exec, execStartCondition]
    split
    · next hmv => exact .inr ⟨rfl, mv, hmv, .inl rfl⟩
    · exact .inl ⟨_, rfl⟩
  case supplyLowEnter | supplyHighEnter | highVoltageTimeout | holdupEnter | holdupReconnect | supplyNormal =>
    exact row (by simp [carriesVin]) rfl
  all_goals exact .inl ⟨_, rfl⟩

theorem supplyRow_off {s : State} (hoff : s.boot = .off) (mv : Nat) (f : Module → Module) :
    supplyRow mv f s = .next s ∨ supplyRow mv f s = .fault .beyondRatings := by
  unfold supplyRow
  split
  · exact .inr rfl
  · exact .inl (ok_off _ _ hoff)

/-- In OFF every command but those of the input stage leaves the state as it is (R450). -/
theorem exec_off {c : Instr} {s : State} (hoff : s.boot = .off) (hstart : ∀ mv, c ≠ .startCondition mv)
    (hen : c ≠ .enOff) (hlost : c ≠ .supplyLost) : exec c s = .next s ∨ exec c s = .fault .beyondRatings := by
  cases c
  case startCondition mv => exact absurd rfl (hstart mv)
  case enOff => exact absurd rfl hen
  case supplyLost => exact absurd rfl hlost
  case supplyLowEnter | supplyHighEnter | highVoltageTimeout | holdupEnter | holdupReconnect | supplyNormal =>
    exact supplyRow_off hoff _ _
  all_goals exact .inl (ok_off _ _ hoff)

/-- The change that a command makes keeps the memory in its canonical form. -/
theorem effect_kept (c : Instr) (m : Module) (hm : Memory.wf m.mem = true) : Memory.wf (effect c m).mem = true := by
  cases c with
  | registerWrite src off size value => exact registerWrite_kept src off size value m hm
  | portEnable src p cfg => exact portEnable_kept src p cfg m hm
  | portDisable src p cfg => exact portDisable_kept src p cfg m hm
  | rstLowExpiry p => exact rstLowExpiry_kept p m hm
  | rstSettleExpiry p => exact rstSettleExpiry_kept p m hm
  | frameStart p t tail => exact frameStart_kept p t tail m hm
  | frameEnd p t tail => exact frameEnd_kept p t tail m hm
  | portLineStart p t hblank tail => exact portLineStart_kept p t hblank tail m hm
  | portLineEnd p t pixels => exact portLineEnd_kept p t pixels m hm
  | pclkLossTimeout p t pixels => exact pclkLossTimeout_kept p t pixels m hm
  | frameEndTimeout p t tail => exact frameEndTimeout_kept p t tail m hm
  | trainStart src p => exact trainStart_kept src p m hm
  | trainAbort src p => exact trainAbortWrite_kept src p m hm
  | trainNoSignalTimeout p => exact trainNoSignalTimeout_kept p m hm
  | trainDone p sweep verify => exact trainDone_kept p sweep verify m hm
  | trigModeWrite src p cfg => exact trigModeWrite_kept src p cfg m hm
  | trigFreeRunPulse p => exact trigFreeRunPulse_kept p m hm
  | trigNetTimePulse p => exact trigNetTimePulse_kept p m hm
  | trigPulseEnd p => exact trigPulseEnd_kept p m hm
  | strobeEdge p => exact strobeEdge_kept p m hm
  | sqPush src p => exact sqPushWrite_kept src p m hm
  | sensorTransactionStart p => exact sensorTransactionStart_kept p m hm
  | sensorTransactionDone p ack rdata => exact sensorTransactionDone_kept p ack rdata m hm
  | sensorBusTimeout p => exact sensorBusTimeout_kept p m hm
  | inBandInterrupt p => exact inBandInterrupt_kept p m hm
  | measSnapshot src p => exact measSnapshot_kept src p m hm
  | capCntClr src p mask => exact capCntClr_kept src p mask m hm
  | laneLineStart c => exact laneLineStart_kept c m hm
  | laneOutputLine c => exact laneOutputLine_kept c m hm
  | stripeReady c => exact stripeReady_kept c m hm
  | feCommit src c next withExposure => exact feCommitWrite_kept src c next withExposure m hm
  | feTblDataAccess src c write => exact feTblDataAccess_kept src c write m hm
  | statsRecordDone c => exact statsRecordDone_kept c m hm
  | aeUpdate c => exact aeUpdate_kept c m hm
  | awbUpdate c => exact awbUpdate_kept c m hm
  | trimUpdate c => exact trimUpdate_kept c m hm
  | histResetWrite src c => exact histResetWrite_kept src c m hm
  | nisTblDataAccess src c write => exact nisTblDataAccess_kept src c write m hm
  | outputResume src c k => exact outputResume_kept src c k m hm
  | calStart src c ctl => exact calStartWrite_kept src c ctl m hm
  | calAbort src c => exact calAbortWrite_kept src c m hm
  | calStore src c => exact calStoreWrite_kept src c m hm
  | calStoreDone c ok => exact calStoreDone_kept c ok m hm
  | calResultReady c => exact calResultReady_kept c m hm
  | calCntClr src c mask => exact calCntClr_kept src c mask m hm
  | taskStart cl logical task => exact taskStart_kept cl logical task m hm
  | engineNop e w => exact engineNop_kept e w m hm
  | endOp e w => exact endOp_kept e w m hm
  | loop e w => exact loop_kept e w m hm
  | setp e w => exact setp_kept e w m hm
  | alu e w => exact alu_kept e w m hm
  | ldp e w => exact ldp_kept e w m hm
  | slot e w => exact slotOp_kept e w m hm
  | fetch e w errs => exact fetch_kept e w errs m hm
  | tileArrived e queue => exact tileArrived_kept e queue m hm
  | wload e w => exact wload_kept e w m hm
  | mm e w => exact mm_kept e w m hm
  | mmf e w => exact mmf_kept e w m hm
  | rfu e w => exact rfu_kept e w m hm
  | tload e w => exact tload_kept e w m hm
  | wb e w => exact wb_kept e w m hm
  | writeAcknowledged writer => exact writeAcknowledged_kept writer m hm
  | gate e w => exact gate_kept e w m hm
  | swait e w => exact swait_kept e w m hm
  | swaitTimeout e => exact swaitTimeout_kept e m hm
  | ssig e w => exact ssig_kept e w m hm
  | fence e w => exact fence_kept e w m hm
  | conv2d e w => exact conv2d_kept e w m hm
  | gemm e w => exact gemm_kept e w m hm
  | pool e w => exact pool_kept e w m hm
  | resize e w => exact resize_kept e w m hm
  | eltwise e w => exact eltwise_kept e w m hm
  | norm e w => exact norm_kept e w m hm
  | softmax e w => exact softmax_kept e w m hm
  | attention e w => exact attention_kept e w m hm
  | libCopy e w => exact copyRoutine_kept e w m hm
  | argmax e w => exact argmax_kept e w m hm
  | topk e w => exact topk_kept e w m hm
  | nms e w => exact nms_kept e w m hm
  | taskComplete e => exact taskComplete_kept e m hm
  | engineFaultDetected e check => exact engineFaultDetected_kept e check m hm
  | engineWatchdog e => exact engineWatchdog_kept e m hm
  | abortComplete e => exact abortComplete_kept e m hm
  | rerunStart e => exact rerunStart_kept e m hm
  | residentSetLoad cl logical c stage => exact residentSetLoad_kept cl logical c stage m hm
  | rotationGroupExchange c stage => exact rotationGroupExchange_kept c stage m hm
  | cancellationComplete e => exact cancellationComplete_kept e m hm
  | rotationDue cl => exact rotationDue_kept cl m hm
  | rotation cl => exact rotation_kept cl m hm
  | rotationSkip cl => exact rotationSkip_kept cl m hm
  | sweepDone e pass full => exact sweepDone_kept e pass full m hm
  | engXCntClr src e mask => exact engXCntClr_kept src e mask m hm
  | alloc h memory kind stack size => exact allocCmd_kept h memory kind stack size m hm
  | free h region => exact freeCmd_kept h region m hm
  | releaseZeroFill region => exact releaseZeroFill_kept region m hm
  | releaseDone region => exact releaseDone_kept region m hm
  | fill h dst dstOff len pattern waitObj sigObj waitThr waitTimeout => exact fillCmd_kept h dst dstOff len pattern waitObj sigObj waitThr waitTimeout m hm
  | copy h dst srcRegion dstOff len srcOff waitObj sigObj waitThr waitTimeout => exact copyCmd_kept h dst srcRegion dstOff len srcOff waitObj sigObj waitThr waitTimeout m hm
  | fillCopyWriteStart stack => exact fillCopyWriteStart_kept stack m hm
  | fillCopyWaitTimeout stack => exact fillCopyWaitTimeout_kept stack m hm
  | fillCopyDone stack => exact fillCopyDone_kept stack m hm
  | narrowWrite addr bytes => exact narrowWrite_kept addr bytes m hm
  | gatherIdleFlush line => exact gatherIdleFlush_kept line m hm
  | scrubVisit stack errs => exact scrubVisit_kept stack errs m hm
  | stackZeroingDone stack => exact stackZeroingDone_kept stack m hm
  | spmStCntClr src stack mask => exact spmStCntClr_kept src stack mask m hm
  | syncOpSignal h obj => exact syncOpSignal_kept h obj m hm
  | syncOpAdd h obj value => exact syncOpAdd_kept h obj value m hm
  | syncOpReset h obj value => exact syncOpReset_kept h obj value m hm
  | syncOpWait h obj threshold timeout => exact syncOpWait_kept h obj threshold timeout m hm
  | syncWaitMet session tag => exact syncWaitMet_kept session tag m hm
  | syncWaitTimeout session tag => exact syncWaitTimeout_kept session tag m hm
  | synCntClr src mask => exact synCntClr_kept src mask m hm
  | dramWckTrack ch => exact dramWckTrack_kept ch m hm
  | dramZqCalibrate ch => exact dramZqCalibrate_kept ch m hm
  | dramSlotAdvance ch used => exact dramSlotAdvance_kept ch used m hm
  | dma h addr => exact dmaCmd_kept h addr m hm
  | dmaDescriptorRun ch desc errs fill => exact dmaDescriptorRun_kept ch desc errs fill m hm
  | dmaWaitMet ch errs fill => exact dmaWaitMet_kept ch errs fill m hm
  | dmaWaitTimeout ch => exact dmaWaitTimeout_kept ch m hm
  | dmaDescriptorDone ch => exact dmaDescriptorDone_kept ch m hm
  | dmaPaceResume ch fill => exact dmaPaceResume_kept ch fill m hm
  | dmaTransferFail ch => exact dmaTransferFail_kept ch m hm
  | dmaHalted ch => exact dmaHalted_kept ch m hm
  | dmaRetry src ch => exact dmaRetry_kept src ch m hm
  | dmaSkip src ch => exact dmaSkip_kept src ch m hm
  | dmaAbort src ch => exact dmaAbort_kept src ch m hm
  | planChannelSkip ch => exact planChannelSkip_kept ch m hm
  | clipFrameCopy c k => exact clipFrameCopy_kept c k m hm
  | clipHeaderUpdate c k => exact clipHeaderUpdate_kept c k m hm
  | freeze h region after => exact freeze_kept h region after m hm
  | thaw h region => exact thaw_kept h region m hm
  | admitStream h setup report reportLen rec => exact admitStream_kept h setup report reportLen rec m hm
  | admitComplete c => exact admitComplete_kept c m hm
  | release h stream => exact release_kept h stream m hm
  | releaseComplete c => exact releaseComplete_kept c m hm
  | deadlineMissed c subject frameIndex stripe lateness => exact deadlineMissed_kept c subject frameIndex stripe lateness m hm
  | deliveryCopy c j => exact deliveryCopy_kept c j m hm
  | resumeDelivery h stream delivery => exact resumeDelivery_kept h stream delivery m hm
  | job h record rec => exact jobCmd_kept h record rec m hm
  | jobDispatch job stage task cl logical => exact jobDispatch_kept job stage task cl logical m hm
  | jobPreempt e => exact jobPreempt_kept e m hm
  | withdraw h jobTag => exact withdraw_kept h jobTag m hm
  | modeChangeRequest src mode => exact modeChangeRequest_kept src mode m hm
  | modeReplanDone => exact modeReplanDone_kept m hm
  | modeClockSwitch => exact modeClockSwitch_kept m hm
  | modeChanged => exact modeChanged_kept m hm
  | thermalCapUpdate => exact thermalCapUpdate_kept m hm
  | planOverCap => exact planOverCap_kept m hm
  | sysAdmCntClr src mask => exact sysAdmCntClr_kept src mask m hm
  | ywpFrameDiscard port frame => exact ywpFrameDiscard_kept port frame m hm
  | arpRequest port target sender => exact arpRequest_kept port target sender m hm
  | netRxFrame port frame => exact netRxFrame_kept port frame m hm
  | attach x payload => exact attach_kept x payload m hm
  | attachServe probe => exact attachServe_kept probe m hm
  | detach x payload => exact detach_kept x payload m hm
  | keepalive x payload => exact keepalive_kept x payload m hm
  | sessionKeepaliveTimeout session => exact sessionKeepaliveTimeout_kept session m hm
  | regAccess x payload => exact regAccess_kept x payload m hm
  | doorbell x payload => exact doorbell_kept x payload m hm
  | submissionEntryTake session entry => exact submissionEntryTake_kept session entry m hm
  | nop h => exact nop_kept h m hm
  | reservedOpcode h opcode => exact reservedOpcode_kept h opcode m hm
  | loadPkg h region offset size => exact loadPkg_kept h region offset size m hm
  | unloadPkg h package => exact unloadPkg_kept h package m hm
  | setEvents h mask => exact setEvents_kept h mask m hm
  | completionWrite session => exact completionWrite_kept session m hm
  | eventsLost session => exact eventsLost_kept session m hm
  | notify session => exact notify_kept session m hm
  | journalRead x payload => exact journalRead_kept x payload m hm
  | wake x => exact wake_kept x.hdr x.payload m hm
  | winWrite x payload => exact winWrite_kept x payload m hm
  | winRead x payload => exact winRead_kept x payload m hm
  | winSync x payload => exact winSync_kept x payload m hm
  | winCredit x payload => exact winCredit_kept x payload m hm
  | winBind x payload probes => exact winBind_kept x payload probes m hm
  | winUnbind x payload => exact winUnbind_kept x payload m hm
  | winRefresh x payload probes => exact winRefresh_kept x payload probes m hm
  | windowResponse x status data => exact windowResponse_kept x status data m hm
  | winRetryTimeout node session seq => exact winRetryTimeout_kept node session seq m hm
  | multicastResend w receiver => exact multicastResend_kept w receiver m hm
  | receiverDropped w receiver => exact receiverDropped_kept w receiver m hm
  | windowOpen src n ctl => exact windowOpen_kept src n ctl m hm
  | windowClose src n ctl => exact windowClose_kept src n ctl m hm
  | talkerConfigWrite src t reg value => exact talkerConfigWrite_kept src t reg value m hm
  | netTimeSnapshot src => exact netTimeSnapshot_kept src m hm
  | linkUp port fast => exact linkUp_kept port fast m hm
  | linkDown port => exact linkDown_kept port m hm
  | gptpSyncReceive port domain offsetNs => exact gptpSyncReceive_kept port domain offsetNs m hm
  | gptpSyncTimeout port => exact gptpSyncTimeout_kept port m hm
  | gptpHoldoverExpiry => exact gptpHoldoverExpiry_kept m hm
  | gptpClockStep => exact gptpClockStep_kept m hm
  | qbvCycleStart port => exact qbvCycleStart_kept port m hm
  | planWindowOpen port c => exact planWindowOpen_kept port c m hm
  | planWindowEnd port c => exact planWindowEnd_kept port c m hm
  | netCntClr src port mask => exact netCntClr_kept src port mask m hm
  | ywpCntClr src mask => exact ywpCntClr_kept src mask m hm
  | startCondition vinMv => exact startCondition_kept vinMv m hm
  | supplyLowEnter vinMv => exact supplyLowEnter_kept vinMv m hm
  | supplyHighEnter vinMv => exact supplyHighEnter_kept vinMv m hm
  | highVoltageTimeout vinMv => exact highVoltageTimeout_kept vinMv m hm
  | holdupEnter vinMv => exact holdupEnter_kept vinMv m hm
  | holdupReconnect vinMv => exact holdupReconnect_kept vinMv m hm
  | brownOut => exact brownOut_kept m hm
  | enOff => exact enOff_kept m hm
  | requestRun src => exact requestRun_kept src m hm
  | requestIdle src => exact requestIdle_kept src m hm
  | requestStandby src => exact requestStandby_kept src m hm
  | requestOff src => exact requestOff_kept src m hm
  | standbyDrainTimeout => exact standbyDrainTimeout_kept m hm
  | powerTransitionDone => exact powerTransitionDone_kept m hm
  | wakeReady => exact wakeReady_kept m hm
  | autoIdleSample => exact autoIdleSample_kept m hm
  | powerSample vinMv iinMa rails => exact powerSample_kept vinMv iinMa rails m hm
  | coldPlateSample bp0 bp1 => exact coldPlateSample_kept bp0 bp1 m hm
  | tempSensorCheck bp0 bp1 => exact tempSensorCheck_kept bp0 bp1 m hm
  | thermalTrip => exact thermalTrip_kept m hm
  | hardThermalTrip => exact hardThermalTrip_kept m hm
  | energySnapshot src => exact energySnapshot_kept src m hm
  | pwrCntClr src mask => exact pwrCntClr_kept src mask m hm
  | status d => exact status_kept d m hm
  | password d pw => exact password_kept d pw m hm
  | challenge d level => exact challenge_kept d level m hm
  | response d level key signature => exact response_kept d level key signature m hm
  | lock d => exact lock_kept d m hm
  | regRead d payload => exact regRead_kept d payload m hm
  | regWrite d payload => exact regWrite_kept d payload m hm
  | memRead d addr len rec => exact memRead_kept d addr len rec m hm
  | memWrite d addr data => exact memWrite_kept d addr data m hm
  | syncReset d obj value => exact syncReset_kept d obj value m hm
  | halt d target => exact halt_kept d target m hm
  | resume d target => exact resume_kept d target m hm
  | traceRead d start max => exact traceRead_kept d start max m hm
  | debugJournalRead d start max => exact debugJournalRead_kept d start max m hm
  | attest d nonce => exact attest_kept d nonce m hm
  | identity d => exact identity_kept d m hm
  | provision d ownerHash salt pwHash floor => exact provision_kept d ownerHash salt pwHash floor m hm
  | lifecycle d target => exact lifecycle_kept d target m hm
  | setPassword d salt hash => exact setPassword_kept d salt hash m hm
  | debugReservedOp d op => exact debugReservedOp_kept d op m hm
  | debugFrameDiscard frame => exact debugFrameDiscard_kept frame m hm
  | nonceExpiry => exact nonceExpiry_kept m hm
  | backoffExpiry => exact backoffExpiry_kept m hm
  | zeroFillDone => exact zeroFillDone_kept m hm
  | dbgCntClr src mask => exact dbgCntClr_kept src mask m hm
  | sysReset src value => exact sysResetWrite_kept src value m hm
  | tapReset => exact tapReset_kept m hm
  | dramTrainingDone recordOk dieTemp ms => exact dramTrainingDone_kept recordOk dieTemp ms m hm
  | firmwareVerified a b => exact firmwareVerified_kept a b m hm
  | cpSelfTestDone cp0 cp1 settingsOk => exact cpSelfTestDone_kept cp0 cp1 settingsOk m hm
  | bootReady => exact bootReady_kept m hm
  | controlMismatch pair => exact controlMismatch_kept pair m hm
  | controlWatchdog pair => exact controlWatchdog_kept pair m hm
  | cpResumeDuties pair pass => exact cpResumeDuties_kept pair pass m hm
  | stormCountClear => exact stormCountClear_kept m hm
  | faultLogFlush ok => exact faultLogFlush_kept ok m hm
  | flogIndexSelect src value => exact flogIndexSelect_kept src value m hm
  | flogClear src => exact flogClear_kept src m hm
  | sysFltCntClr src mask => exact sysFltCntClr_kept src mask m hm
  | supplyNormal vinMv => exact supplyNormal_kept vinMv m hm
  | supplyLost => exact supplyLost_kept m hm
  | perBankRefresh ch bank => exact perBankRefresh_kept ch bank m hm
  | preemptionVerification port ok => exact preemptionVerification_kept port ok m hm
  | sequenceRecoveryReset stream => exact sequenceRecoveryReset_kept stream m hm
  | peerDelayMeasurement port delayNs => exact peerDelayMeasurement_kept port delayNs m hm
  | extest d instruction => exact extest_kept d instruction m hm

theorem exec_keeps_inv {c : Instr} {s t : State} (hs : s.Inv) (h : exec c s = .next t) : t.Inv := by
  rcases exec_next h with rfl | rfl
  · exact hs
  · exact effect_kept c s.toModule hs

theorem step_of_empty {s : State} (h : s.pending = []) : step s = .next s := by
  unfold step
  rw [h]

theorem step_of_front {s : State} {c : Instr} {rest : List Instr} (h : s.pending = c :: rest) :
    step s = exec c { s with pending := rest } := by
  unfold step
  rw [h]

theorem step_keeps_inv {s t : State} (hs : s.Inv) (h : step s = .next t) : t.Inv := by
  cases hp : s.pending with
  | nil =>
    rw [step_of_empty hp] at h
    cases h
    exact hs
  | cons c rest =>
    rw [step_of_front hp] at h
    exact exec_keeps_inv (s := { s with pending := rest }) hs h

theorem meets_iff_mod (v t : Word) : meets v t = true ↔ ((v.toNat : Int) - t.toNat) % 2 ^ 32 < 2 ^ 31 := by
  have hd : (v - t).toNat = (2 ^ 32 - t.toNat + v.toNat) % 2 ^ 32 := BitVec.toNat_sub v t
  have ht : t.toNat < 2 ^ 32 := t.isLt
  rw [meets, decide_eq_true_iff]
  omega

theorem diff_add_mod (v t : Word) (n : Nat) (h : ((v.toNat : Int) - t.toNat) % 2 ^ 32 + n < 2 ^ 31) :
    (((v + BitVec.ofNat 32 n).toNat : Int) - t.toNat) % 2 ^ 32 = ((v.toNat : Int) - t.toNat) % 2 ^ 32 + n := by
  have hv : (v + BitVec.ofNat 32 n).toNat = (v.toNat + n % 2 ^ 32) % 2 ^ 32 := by
    rw [BitVec.toNat_add, BitVec.toNat_ofNat]
  omega

/-! ### The state after reset -/

theorem reset_portState : ∀ p : PortId, State.reset.portState p = 0 ∧ (State.reset.port p).rstHigh = false ∧
    State.reset.rd (CAP_CNT_SHORT_FRAME p) = 0 := by decide +kernel

theorem reset_physOf : ∀ (cl : Fin 8) (n : Fin 17), State.reset.physOf cl n = n := by decide +kernel

theorem reset_sync (o : Nat) : State.reset.sync o = 0 := rfl

end Sys2Proof.Machine

namespace Sys2Proof
open Sys2Proof.Machine

/-- Settles O1, by the definition of a step with a command at the front. -/
theorem stepRunsFrontCommand : Obligations.StepRunsFrontCommand := fun _ _ _ h => step_of_front h

/-- Settles O2: a step without a command idles, and an outcome carries the queue that it found. -/
theorem onlyStepsTouchTheQueue : Obligations.OnlyStepsTouchTheQueue :=
  ⟨fun _ h => step_of_empty h, fun _ _ _ h => exec_pending h⟩

/-- Settles O3, by the outcomes of the commands in OFF and outside it. -/
theorem commandsComplete : Obligations.CommandsComplete :=
  ⟨exec_outcome, fun _ _ hoff hstart hen hlost => exec_off hoff hstart hen hlost⟩

/-- Settles O4: memory is empty after reset. -/
theorem resetMeetsInvariant : Obligations.ResetMeetsInvariant := reset_kept

/-- Settles O5: the change of every command keeps the canonical form, and so does every step. -/
theorem stepKeepsMemoryCanonical : Obligations.StepKeepsMemoryCanonical := fun _ _ hs h => step_keeps_inv hs h

/-- Settles O32, by the difference modulo 2^32 and what an addition makes of it. -/
theorem thresholdComparisonWraps : Obligations.ThresholdComparisonWraps := by
  intro v t
  have grows (v : Word) (hmeets : meets v t = true) (n : Nat)
      (hn : ((v.toNat : Int) - t.toNat) % 2 ^ 32 + n < 2 ^ 31) : meets (v + BitVec.ofNat 32 n) t = true := by
    rw [meets_iff_mod, diff_add_mod v t n hn]
    exact hn
  have hself : meets t t = true := by simp [meets]
  refine ⟨meets_iff_mod v t, hself, fun n hn => grows t hself n ?_, grows v⟩
  simpa using hn

/-- Settles O7: the fields of the state after reset, and the reset values of the registers named. -/
theorem resetLeavesStatedValues : Obligations.ResetLeavesStatedValues := by
  unfold Obligations.ResetLeavesStatedValues
  refine ⟨?_, ?_, ?_, ?_, ?_, ?_, ?_, ?_, reset_portState, reset_physOf, reset_sync, ?_, rfl, rfl, rfl, rfl, rfl, rfl⟩
  all_goals decide +kernel

end Sys2Proof
end

section
/-! One proof after another: the rules below are many and short, and side by side each takes a thread. -/
set_option Elab.async false
namespace Sys2Proof.Machine
open Sys2Proof
namespace Fld
def regs : Nat := 2 ^ 0
def mem : Nat := 2 ^ 1
def now : Nat := 2 ^ 2
def ptpOffset : Nat := 2 ^ 3
def draws : Nat := 2 ^ 4
def busStatus : Nat := 2 ^ 5
def busValue : Nat := 2 ^ 6
def outbox : Nat := 2 ^ 7
def seqNext : Nat := 2 ^ 8
def seqLast : Nat := 2 ^ 9
def evNext : Nat := 2 ^ 10
def trace : Nat := 2 ^ 11
def heldEvents : Nat := 2 ^ 12
def journal : Nat := 2 ^ 13
def sessions : Nat := 2 ^ 14
def lastTurn : Nat := 2 ^ 15
def takeNo : Nat := 2 ^ 16
def sessionGen : Nat := 2 ^ 17
def attachWait : Nat := 2 ^ 18
def attachDone : Nat := 2 ^ 19
def noSessionAt : Nat := 2 ^ 20
def notReadyAt : Nat := 2 ^ 21
def epoch : Nat := 2 ^ 22
def packages : Nat := 2 ^ 23
def packageGen : Nat := 2 ^ 24
def binds : Nat := 2 ^ 25
def winOut : Nat := 2 ^ 26
def winSeq : Nat := 2 ^ 27
def mcNext : Nat := 2 ^ 28
def mcSend : Nat := 2 ^ 29
def mcRx : Nat := 2 ^ 30
def syncSeen : Nat := 2 ^ 31
def netPorts : Nat := 2 ^ 32
def recovery : Nat := 2 ^ 33
def meters : Nat := 2 ^ 34
def rtags : Nat := 2 ^ 35
def cbNext : Nat := 2 ^ 36
def avtpSeq : Nat := 2 ^ 37
def clockStep : Nat := 2 ^ 38
def ports : Nat := 2 ^ 39
def ctxs : Nat := 2 ^ 40
def cals : Nat := 2 ^ 41
def engines : Nat := 2 ^ 42
def rotDue : Nat := 2 ^ 43
def sweepNo : Nat := 2 ^ 44
def regions : Nat := 2 ^ 45
def regionGen : Nat := 2 ^ 46
def gather : Nat := 2 ^ 47
def gatherAge : Nat := 2 ^ 48
def poison : Nat := 2 ^ 49
def ueSectors : Nat := 2 ^ 50
def latent : Nat := 2 ^ 51
def fills : Nat := 2 ^ 52
def dma : Nat := 2 ^ 53
def planMoves : Nat := 2 ^ 54
def clips : Nat := 2 ^ 55
def wheel : Nat := 2 ^ 56
def syncs : Nat := 2 ^ 57
def syncOwner : Nat := 2 ^ 58
def hostWaits : Nat := 2 ^ 59
def streams : Nat := 2 ^ 60
def streamGen : Nat := 2 ^ 61
def admitting : Nat := 2 ^ 62
def jobs : Nat := 2 ^ 63
def nextJob : Nat := 2 ^ 64
def withdraws : Nat := 2 ^ 65
def modeChange : Nat := 2 ^ 66
def jobsGated : Nat := 2 ^ 67
def transition : Nat := 2 ^ 68
def offHeld : Nat := 2 ^ 69
def holdupHigh : Nat := 2 ^ 70
def idleSamples : Nat := 2 ^ 71
def powerSamples : Nat := 2 ^ 72
def energyPj : Nat := 2 ^ 73
def atRisk : Nat := 2 ^ 74
def tripped : Nat := 2 ^ 75
def otp : Nat := 2 ^ 76
def flash : Nat := 2 ^ 77
def nonce : Nat := 2 ^ 78
def backoff : Nat := 2 ^ 79
def backoffEnd : Nat := 2 ^ 80
def fullFill : Nat := 2 ^ 81
def cpHalted : Nat := 2 ^ 82
def engHalted : Nat := 2 ^ 83
def tap : Nat := 2 ^ 84
def boot : Nat := 2 ^ 85
def dramReady : Nat := 2 ^ 86
def dramFillDue : Nat := 2 ^ 87
def fwHash : Nat := 2 ^ 88
def library : Nat := 2 ^ 89
def fwVersion : Nat := 2 ^ 90
def flogPending : Nat := 2 ^ 91
def cpFaults : Nat := 2 ^ 92
def doubleRecord : Nat := 2 ^ 93
/-! What the shared operations may change. -/
def send : Nat := outbox ||| cbNext
def ring : Nat := send ||| sessions ||| winOut
def event : Nat := ring ||| regs ||| now ||| draws ||| evNext ||| trace ||| heldEvents
def fault : Nat := event ||| flogPending
def badWords : Nat := poison ||| ueSectors ||| latent
def meet : Nat := fault ||| badWords
def store : Nat := mem ||| gather
def write : Nat := meet ||| store
def answer : Nat := send ||| now ||| draws ||| notReadyAt
def bus : Nat := busStatus ||| busValue
def camera : Nat := ports ||| ctxs ||| cals
def job : Nat := jobs ||| withdraws
def window : Nat := binds ||| winSeq ||| netPorts
def walk : Nat := write ||| window ||| engines
def plan : Nat := planMoves ||| dma
def move : Nat := walk ||| plan ||| mcSend ||| mcNext ||| avtpSeq
def dmaMove : Nat := write ||| window ||| mcNext ||| mcSend ||| rtags ||| avtpSeq ||| gatherAge ||| dma
def lost : Nat := event ||| camera ||| store ||| job ||| seqNext ||| seqLast ||| packages ||| packageGen ||| engines ||| regions ||| regionGen ||| poison ||| latent
def all : Nat := 2 ^ 94 - 1
def notOtp : Nat := all - otp
end Fld
noncomputable def Module.erase (F : Nat) (m : Module) : Module :=
  { regs := (F.testBit 0).rec m.regs Module.reset.regs
    mem := (F.testBit 1).rec m.mem Module.reset.mem
    now := (F.testBit 2).rec m.now Module.reset.now
    ptpOffset := (F.testBit 3).rec m.ptpOffset Module.reset.ptpOffset
    draws := (F.testBit 4).rec m.draws Module.reset.draws
    busStatus := (F.testBit 5).rec m.busStatus Module.reset.busStatus
    busValue := (F.testBit 6).rec m.busValue Module.reset.busValue
    outbox := (F.testBit 7).rec m.outbox Module.reset.outbox
    seqNext := (F.testBit 8).rec m.seqNext Module.reset.seqNext
    seqLast := (F.testBit 9).rec m.seqLast Module.reset.seqLast
    evNext := (F.testBit 10).rec m.evNext Module.reset.evNext
    trace := (F.testBit 11).rec m.trace Module.reset.trace
    heldEvents := (F.testBit 12).rec m.heldEvents Module.reset.heldEvents
    journal := (F.testBit 13).rec m.journal Module.reset.journal
    sessions := (F.testBit 14).rec m.sessions Module.reset.sessions
    lastTurn := (F.testBit 15).rec m.lastTurn Module.reset.lastTurn
    takeNo := (F.testBit 16).rec m.takeNo Module.reset.takeNo
    sessionGen := (F.testBit 17).rec m.sessionGen Module.reset.sessionGen
    attachWait := (F.testBit 18).rec m.attachWait Module.reset.attachWait
    attachDone := (F.testBit 19).rec m.attachDone Module.reset.attachDone
    noSessionAt := (F.testBit 20).rec m.noSessionAt Module.reset.noSessionAt
    notReadyAt := (F.testBit 21).rec m.notReadyAt Module.reset.notReadyAt
    epoch := (F.testBit 22).rec m.epoch Module.reset.epoch
    packages := (F.testBit 23).rec m.packages Module.reset.packages
    packageGen := (F.testBit 24).rec m.packageGen Module.reset.packageGen
    binds := (F.testBit 25).rec m.binds Module.reset.binds
    winOut := (F.testBit 26).rec m.winOut Module.reset.winOut
    winSeq := (F.testBit 27).rec m.winSeq Module.reset.winSeq
    mcNext := (F.testBit 28).rec m.mcNext Module.reset.mcNext
    mcSend := (F.testBit 29).rec m.mcSend Module.reset.mcSend
    mcRx := (F.testBit 30).rec m.mcRx Module.reset.mcRx
    syncSeen := (F.testBit 31).rec m.syncSeen Module.reset.syncSeen
    netPorts := (F.testBit 32).rec m.netPorts Module.reset.netPorts
    recovery := (F.testBit 33).rec m.recovery Module.reset.recovery
    meters := (F.testBit 34).rec m.meters Module.reset.meters
    rtags := (F.testBit 35).rec m.rtags Module.reset.rtags
    cbNext := (F.testBit 36).rec m.cbNext Module.reset.cbNext
    avtpSeq := (F.testBit 37).rec m.avtpSeq Module.reset.avtpSeq
    clockStep := (F.testBit 38).rec m.clockStep Module.reset.clockStep
    ports := (F.testBit 39).rec m.ports Module.reset.ports
    ctxs := (F.testBit 40).rec m.ctxs Module.reset.ctxs
    cals := (F.testBit 41).rec m.cals Module.reset.cals
    engines := (F.testBit 42).rec m.engines Module.reset.engines
    rotDue := (F.testBit 43).rec m.rotDue Module.reset.rotDue
    sweepNo := (F.testBit 44).rec m.sweepNo Module.reset.sweepNo
    regions := (F.testBit 45).rec m.regions Module.reset.regions
    regionGen := (F.testBit 46).rec m.regionGen Module.reset.regionGen
    gather := (F.testBit 47).rec m.gather Module.reset.gather
    gatherAge := (F.testBit 48).rec m.gatherAge Module.reset.gatherAge
    poison := (F.testBit 49).rec m.poison Module.reset.poison
    ueSectors := (F.testBit 50).rec m.ueSectors Module.reset.ueSectors
    latent := (F.testBit 51).rec m.latent Module.reset.latent
    fills := (F.testBit 52).rec m.fills Module.reset.fills
    dma := (F.testBit 53).rec m.dma Module.reset.dma
    planMoves := (F.testBit 54).rec m.planMoves Module.reset.planMoves
    clips := (F.testBit 55).rec m.clips Module.reset.clips
    wheel := (F.testBit 56).rec m.wheel Module.reset.wheel
    syncs := (F.testBit 57).rec m.syncs Module.reset.syncs
    syncOwner := (F.testBit 58).rec m.syncOwner Module.reset.syncOwner
    hostWaits := (F.testBit 59).rec m.hostWaits Module.reset.hostWaits
    streams := (F.testBit 60).rec m.streams Module.reset.streams
    streamGen := (F.testBit 61).rec m.streamGen Module.reset.streamGen
    admitting := (F.testBit 62).rec m.admitting Module.reset.admitting
    jobs := (F.testBit 63).rec m.jobs Module.reset.jobs
    nextJob := (F.testBit 64).rec m.nextJob Module.reset.nextJob
    withdraws := (F.testBit 65).rec m.withdraws Module.reset.withdraws
    modeChange := (F.testBit 66).rec m.modeChange Module.reset.modeChange
    jobsGated := (F.testBit 67).rec m.jobsGated Module.reset.jobsGated
    transition := (F.testBit 68).rec m.transition Module.reset.transition
    offHeld := (F.testBit 69).rec m.offHeld Module.reset.offHeld
    holdupHigh := (F.testBit 70).rec m.holdupHigh Module.reset.holdupHigh
    idleSamples := (F.testBit 71).rec m.idleSamples Module.reset.idleSamples
    powerSamples := (F.testBit 72).rec m.powerSamples Module.reset.powerSamples
    energyPj := (F.testBit 73).rec m.energyPj Module.reset.energyPj
    atRisk := (F.testBit 74).rec m.atRisk Module.reset.atRisk
    tripped := (F.testBit 75).rec m.tripped Module.reset.tripped
    otp := (F.testBit 76).rec m.otp Module.reset.otp
    flash := (F.testBit 77).rec m.flash Module.reset.flash
    nonce := (F.testBit 78).rec m.nonce Module.reset.nonce
    backoff := (F.testBit 79).rec m.backoff Module.reset.backoff
    backoffEnd := (F.testBit 80).rec m.backoffEnd Module.reset.backoffEnd
    fullFill := (F.testBit 81).rec m.fullFill Module.reset.fullFill
    cpHalted := (F.testBit 82).rec m.cpHalted Module.reset.cpHalted
    engHalted := (F.testBit 83).rec m.engHalted Module.reset.engHalted
    tap := (F.testBit 84).rec m.tap Module.reset.tap
    boot := (F.testBit 85).rec m.boot Module.reset.boot
    dramReady := (F.testBit 86).rec m.dramReady Module.reset.dramReady
    dramFillDue := (F.testBit 87).rec m.dramFillDue Module.reset.dramFillDue
    fwHash := (F.testBit 88).rec m.fwHash Module.reset.fwHash
    library := (F.testBit 89).rec m.library Module.reset.library
    fwVersion := (F.testBit 90).rec m.fwVersion Module.reset.fwVersion
    flogPending := (F.testBit 91).rec m.flogPending Module.reset.flogPending
    cpFaults := (F.testBit 92).rec m.cpFaults Module.reset.cpFaults
    doubleRecord := (F.testBit 93).rec m.doubleRecord Module.reset.doubleRecord }

def Keeps (F : Nat) (m k : Module) : Prop := k.erase F = m.erase F

theorem Keeps.refl {F : Nat} {m : Module} : Keeps F m m := rfl

theorem Keeps.trans {F : Nat} {b k l : Module} (h : Keeps F b k) (h' : Keeps F k l) : Keeps F b l := Eq.trans h' h

theorem rec_sub {a b : Bool} (h : (a && b) = a) {α : Type} (x y : α) :
    (b.rec (a.rec y x : α) x : α) = b.rec y x := by
  cases a <;> cases b <;> first | rfl | cases h

theorem erase_erase {F G : Nat} (h : F &&& G = F) (m : Module) : (m.erase F).erase G = m.erase G := by
  have hb (i : Nat) : (F.testBit i && G.testBit i) = F.testBit i := by rw [← Nat.testBit_land, h]
  simp only [Module.erase, rec_sub (hb _)]

theorem Keeps.mono {F G : Nat} {m k : Module} (h : Keeps F m k) (hs : F &&& G = F) : Keeps G m k := by
  have := congrArg (Module.erase G) h
  rwa [erase_erase hs, erase_erase hs] at this

theorem Keeps.after {F G : Nat} {b k l : Module} (hg : Keeps G k l) (hs : G &&& F = G) (h : Keeps F b k) : Keeps F b l :=
  h.trans (hg.mono hs)

theorem Fld.within {F G H : Nat} (h : F &&& G = F) (hs : G &&& H = G) : F &&& H = F := by
  rw [← h, Nat.land_assoc, hs]

theorem Keeps.upd {F : Nat} {b k l : Module} (h : Keeps F b k)
    (he : l.doubleRecord = k.doubleRecord ∧ l.erase F = k.erase F := by constructor; dsimp only; delta Module.erase; dsimp only; rfl) : Keeps F b l :=
  Eq.trans he.2 h

theorem Keeps.upd' {F : Nat} {b k l : Module} (h : Keeps F b k)
    (he : l.mem = k.mem ∧ l.erase F = k.erase F := by constructor; dsimp only; delta Module.erase; dsimp only; rfl) : Keeps F b l :=
  Eq.trans he.2 h

theorem Keeps.ite {F : Nat} {c : Prop} [Decidable c] {b k l : Module} (hk : c → Keeps F b k) (hl : ¬ c → Keeps F b l) :
    Keeps F b (if c then k else l) := by
  split
  · exact hk ‹_›
  · exact hl ‹_›

theorem Keeps.foldl {β : Type} {F : Nat} {f : Module → β → Module} (hf : ∀ m x, Keeps F m (f m x)) {b m : Module}
    (l : List β) (h : Keeps F b m) : Keeps F b (l.foldl f m) :=
  foldl_keeps l f h fun m x hm => hm.trans (hf m x)

theorem Keeps.foldlOn {β γ : Type} (π : γ → Module) {F : Nat} {f : γ → β → γ} (hf : ∀ p x, Keeps F (π p) (π (f p x)))
    {b : Module} {p : γ} (l : List β) (h : Keeps F b (π p)) : Keeps F b (π (l.foldl f p)) :=
  foldl_keeps (P := fun p : γ => Keeps F b (π p)) l f h fun p x hp => hp.trans (hf p x)

theorem Keeps.foldl2 {β γ : Type} {F : Nat} {f : γ × Module → β → γ × Module} (hf : ∀ p x, Keeps F p.2 (f p x).2)
    {b : Module} {p : γ × Module} (l : List β) (h : Keeps F b p.2) : Keeps F b (l.foldl f p).2 :=
  foldl_keeps (P := fun p : γ × Module => Keeps F b p.2) l f h fun p x hp => hp.trans (hf p x)

theorem Keeps.snd {α : Type} {F : Nat} {b m : Module} {p : α × Module} {x : α} (hp : p = (x, m)) (h : Keeps F b p.2) : Keeps F b m := by
  subst hp
  exact h

theorem Keeps.snd2 {α β : Type} {F : Nat} {b m : Module} {p : α × β × Module} {x : α} {y : β} (hp : p = (x, y, m))
    (h : Keeps F b p.2.2) : Keeps F b m := by
  subst hp
  exact h

theorem Module.orWait_keeps {F : Nat} {b m' m : Module} {e : EngPos} (h' : Keeps F b m') (h : Keeps F b m) : Keeps F b (m'.orWait m e) := by
  unfold Module.orWait
  split
  · exact h
  · exact h'

theorem Module.wr_keeps (m : Module) (off : Nat) (v : Word) : Keeps Fld.regs m (Module.wr m off v) := by
  unfold Module.wr
  exact .upd .refl

theorem Module.setFld_keeps (m : Module) (off : Nat) (b : Bits) (v : Nat) : Keeps Fld.regs m (Module.setFld m off b v) := by
  unfold Module.setFld
  exact .after (Module.wr_keeps ..) rfl .refl

theorem Module.satAdd_keeps (m : Module) (off : Nat) (b : Bits) (n : Nat) : Keeps Fld.regs m (Module.satAdd m off b n) := by
  unfold Module.satAdd
  exact .after (Module.setFld_keeps ..) rfl .refl

theorem Module.count_keeps (m : Module) (off n : Nat) : Keeps Fld.regs m (Module.count m off n) := by
  unfold Module.count
  exact .after (Module.wr_keeps ..) rfl .refl

theorem Module.clearCounters_keeps (m : Module) (base n mask : Nat) :
    Keeps Fld.regs m (Module.clearCounters m base n mask) := by
  unfold Module.clearCounters
  exact .foldl (fun _ _ => .ite (fun _ => .after (Module.wr_keeps ..) rfl .refl) fun _ => .refl) _ .refl

theorem Module.draw_keeps (m : Module) : Keeps Fld.draws m (Module.draw m).2 := by
  unfold Module.draw
  dsimp only
  exact .upd .refl

theorem Module.pick_keeps (m : Module) (n : Nat) : Keeps Fld.draws m (Module.pick m n).2 := by
  unfold Module.pick
  dsimp only
  exact .upd .refl

theorem Module.open__keeps (m : Module) : Keeps Fld.draws m (Module.open_ m).2 := by
  unfold Module.open_
  dsimp only
  exact .upd .refl

theorem Module.tick_keeps (m : Module) : Keeps (Fld.now ||| Fld.draws) m (Module.tick m) := by
  unfold Module.tick
  exact .upd .refl

theorem Module.setSync_keeps (m : Module) (o : Nat) (v : Word) : Keeps Fld.syncs m (Module.setSync m o v) := by
  unfold Module.setSync
  exact .upd .refl

theorem Module.addSync_keeps (m : Module) (o : Nat) (v : Word) : Keeps Fld.syncs m (Module.addSync m o v) := by
  unfold Module.addSync
  exact .after (Module.setSync_keeps ..) rfl .refl

theorem Module.guestAdd_keeps (m : Module) (o : Nat) (v : Word) :
    Keeps (Fld.regs ||| Fld.syncs) m (Module.guestAdd m o v) := by
  unfold Module.guestAdd
  refine .ite (fun _ => .after (Module.count_keeps ..) rfl .refl) fun _ => ?_
  exact .after (Module.addSync_keeps ..) rfl .refl

theorem Module.emit_keeps (m : Module) (o : Out) : Keeps Fld.outbox m (Module.emit m o) := by
  unfold Module.emit
  exact .upd .refl

theorem Module.frames_keeps (m : Module) (port : Fin 2) (dest : Peer) (replicate : Bool) (tclass : Nat) (x : Msg) :
    Keeps Fld.cbNext m (Module.frames m port dest replicate tclass x).2 := by
  unfold Module.frames
  split
  · dsimp only
    exact .upd .refl
  · dsimp only
    exact .refl

theorem Module.send_keeps (m : Module) (port : Fin 2) (dest : Peer) (replicate : Bool) (tclass : Nat) (x : Msg) :
    Keeps Fld.send m (Module.send m port dest replicate tclass x) := by
  unfold Module.send
  dsimp only
  exact .foldl (fun _ _ => .after (Module.emit_keeps ..) rfl .refl) _ (.after (Module.frames_keeps ..) rfl .refl)

theorem Module.originate_keeps (m : Module) (port : Fin 2) (dest : Peer) (replicate : Bool) (tclass : Nat) (x : Msg) :
    Keeps Fld.send m (Module.originate m port dest replicate tclass x) := by
  unfold Module.originate
  exact .ite (fun _ => .after (Module.send_keeps ..) rfl .refl) fun _ => .refl

theorem Module.request_keeps (m : Module) (port : Fin 2) (dest : Peer) (replicate : Bool) (tclass : Nat) (x : Msg) (answered : Bool) :
    Keeps (Fld.send ||| Fld.regs) m (Module.request m port dest replicate tclass x answered) := by
  unfold Module.request
  refine .ite (fun _ => .after (Module.originate_keeps ..) rfl .refl) fun _ => ?_
  refine .after (Module.count_keeps ..) rfl ?_
  exact .foldl (fun _ _ => .after (Module.originate_keeps ..) rfl .refl) _ (.after (Module.originate_keeps ..) rfl .refl)

theorem Module.answer_keeps (m : Module) (h : Hdr) (type status retry : Nat) (payload : List Byte) :
    Keeps Fld.send m (Module.answer m h type status retry payload) := by
  unfold Module.answer
  dsimp only
  split
  · exact .after (Module.send_keeps ..) rfl .refl
  · exact .after (Module.send_keeps ..) rfl .refl

theorem Module.answerIf_keeps (m : Module) (h : Hdr) (type status retry : Nat) (payload : List Byte) :
    Keeps Fld.send m (Module.answerIf m h type status retry payload) := by
  unfold Module.answerIf
  exact .ite (fun _ => .after (Module.answer_keeps ..) rfl .refl) fun _ => .refl

theorem Module.debugSend_keeps (m : Module) (d : DbgHdr) (status retry : Nat) (p : List Byte) :
    Keeps Fld.send m (Module.debugSend m d status retry p) := by
  unfold Module.debugSend
  split
  · exact .after (Module.answer_keeps ..) rfl .refl
  · exact .after (Module.emit_keeps ..) rfl .refl

theorem Module.debugAnswer_keeps (m : Module) (d : DbgHdr) (op status retry : Nat) (body : List Byte) :
    Keeps Fld.send m (Module.debugAnswer m d op status retry body) := by
  unfold Module.debugAnswer
  exact .after (Module.debugSend_keeps ..) rfl .refl

theorem Module.sendSession_keeps (m : Module) (n type : Nat) (ackReq : Bool) (payload : List Byte) :
    Keeps (Fld.send ||| Fld.sessions) m (Module.sendSession m n type ackReq payload) := by
  unfold Module.sendSession
  dsimp only
  split
  · exact .refl
  · exact .after (Module.originate_keeps ..) rfl <| .upd .refl

theorem Module.ringWrite_keeps (m : Module) (n offset : Nat) (data : List Byte) (use : WinUse) :
    Keeps Fld.ring m (Module.ringWrite m n offset data use) := by
  unfold Module.ringWrite
  dsimp only
  split
  · exact .refl
  · exact .after (Module.originate_keeps ..) rfl <| .upd .refl

theorem Module.writeEvent_keeps (m : Module) (n : Nat) (e : Event) : Keeps Fld.ring m (Module.writeEvent m n e) := by
  unfold Module.writeEvent
  dsimp only
  split
  · exact .refl
  · exact .after (Module.ringWrite_keeps ..) rfl <| .upd .refl

theorem Module.makeEvent_keeps (m : Module) (code ctx : Nat) (seq : Word) (p0 p1 p2 p3 : Nat) :
    Keeps (Fld.regs ||| Fld.now ||| Fld.draws ||| Fld.evNext ||| Fld.trace) m (Module.makeEvent m code ctx seq p0 p1 p2
      p3).2 := by
  unfold Module.makeEvent
  dsimp only
  refine .after (Module.wr_keeps ..) rfl ?_
  refine .upd ?_
  exact .after (Module.tick_keeps ..) rfl .refl

theorem Module.writeLost_keeps (m : Module) (n : Nat) :
    Keeps (Fld.ring ||| Fld.regs ||| Fld.now ||| Fld.draws ||| Fld.evNext ||| Fld.trace) m (Module.writeLost m n) := by
  unfold Module.writeLost
  dsimp only
  split
  · exact .refl
  · refine .ite (fun _ => .refl) fun _ => ?_
    refine .after (Module.writeEvent_keeps ..) rfl ?_
    refine .upd ?_
    exact .after (Module.makeEvent_keeps ..) rfl .refl

theorem Module.deliverTo_keeps (m : Module) (e : Event) (n : Nat) : Keeps Fld.ring m (Module.deliverTo m e n) := by
  unfold Module.deliverTo
  dsimp only
  split
  · exact .refl
  · refine .ite (fun _ => ?_) fun _ => .refl
    exact .ite (fun _ => .after (Module.writeEvent_keeps ..) rfl .refl) fun _ => .upd .refl

theorem Module.writeAllLost_keeps (m : Module) :
    Keeps (Fld.ring ||| Fld.regs ||| Fld.now ||| Fld.draws ||| Fld.evNext ||| Fld.trace) m (Module.writeAllLost m) := by
  unfold Module.writeAllLost
  exact .foldl (fun _ _ => .after (Module.writeLost_keeps ..) rfl .refl) _ .refl

theorem Module.deliver_keeps (m : Module) (e : Event) : Keeps (Fld.ring ||| Fld.heldEvents) m (Module.deliver m e) := by
  unfold Module.deliver
  refine .ite (fun _ => .upd .refl) fun _ => ?_
  exact .foldl (fun _ _ => .after (Module.deliverTo_keeps ..) rfl .refl) _ .refl

theorem Module.raiseSeq_keeps (m : Module) (code ctx : Nat) (seq : Word) (p0 p1 p2 p3 : Nat) :
    Keeps Fld.event m (Module.raiseSeq m code ctx seq p0 p1 p2 p3) := by
  unfold Module.raiseSeq
  dsimp only
  refine .after (Module.deliver_keeps ..) rfl ?_
  exact .after (Module.makeEvent_keeps ..) rfl <| .after (Module.writeAllLost_keeps ..) rfl .refl

theorem Module.raise_keeps (m : Module) (code p0 p1 p2 p3 : Nat) : Keeps Fld.event m (Module.raise m code p0 p1 p2 p3) := by
  unfold Module.raise
  exact .after (Module.raiseSeq_keeps ..) rfl .refl

theorem Module.raiseCtx_keeps (m : Module) (code c p0 p1 p2 p3 : Nat) :
    Keeps Fld.event m (Module.raiseCtx m code c p0 p1 p2 p3) := by
  unfold Module.raiseCtx
  exact .after (Module.raiseSeq_keeps ..) rfl .refl

theorem Module.countFault_keeps (m : Module) (cls : Nat) : Keeps Fld.regs m (Module.countFault m cls) := by
  unfold Module.countFault
  exact .after (Module.count_keeps ..) rfl .refl

theorem Module.faultSeq_keeps (m : Module) (cls code ctx : Nat) (seq : Word) (p0 p1 p2 p3 : Nat) :
    Keeps Fld.fault m (Module.faultSeq m cls code ctx seq p0 p1 p2 p3) := by
  unfold Module.faultSeq
  dsimp only
  refine .after (Module.deliver_keeps ..) rfl ?_
  refine .upd ?_
  refine .after (Module.makeEvent_keeps ..) rfl ?_
  exact .after (Module.writeAllLost_keeps ..) rfl <| .after (Module.countFault_keeps ..) rfl .refl

theorem Module.fault_keeps (m : Module) (cls code p0 p1 p2 p3 : Nat) :
    Keeps Fld.fault m (Module.fault m cls code p0 p1 p2 p3) := by
  unfold Module.fault
  exact .after (Module.faultSeq_keeps ..) rfl .refl

theorem Module.silentFault_keeps (m : Module) (cls : Nat) :
    Keeps (Fld.regs ||| Fld.now ||| Fld.draws ||| Fld.flogPending) m (Module.silentFault m cls) := by
  unfold Module.silentFault
  refine .upd ?_
  exact .after (Module.tick_keeps ..) rfl <| .after (Module.countFault_keeps ..) rfl .refl

theorem Module.storeFlash_keeps (m : Module) (f : Flash → Flash) :
    Keeps (Fld.regs ||| Fld.now ||| Fld.draws ||| Fld.flash ||| Fld.flogPending) m (Module.storeFlash m f) := by
  unfold Module.storeFlash
  dsimp only
  refine .ite (fun _ => ?_) fun _ => ?_
  · exact .after (Module.silentFault_keeps ..) rfl <| .after (Module.pick_keeps ..) rfl .refl
  · refine .upd ?_
    exact .after (Module.pick_keeps ..) rfl .refl

theorem Module.writeCompl_keeps (m : Module) (n : Nat) (c : Compl) : Keeps Fld.ring m (Module.writeCompl m n c) := by
  unfold Module.writeCompl
  dsimp only
  split
  · exact .refl
  · exact .after (Module.ringWrite_keeps ..) rfl <| .upd .refl

theorem Module.completeMore_keeps (m : Module) (c : CmdRef) (status : Nat) (more : Bool) (result : Nat) (tag : Word) :
    Keeps Fld.ring m (Module.completeMore m c status more result tag) := by
  unfold Module.completeMore
  dsimp only
  split
  · exact .refl
  · exact .ite (fun _ => .upd .refl) fun _ => .after (Module.writeCompl_keeps ..) rfl <| .upd .refl

theorem Module.complete_keeps (m : Module) (c : CmdRef) (status result : Nat) :
    Keeps Fld.ring m (Module.complete m c status result) := by
  unfold Module.complete
  exact .after (Module.completeMore_keeps ..) rfl .refl

theorem Module.command_keeps {F : Nat} {b : Module} (m : Module) (h : CmdHdr) (op : Nat) (operands : List Byte → Bool) (f :
      CmdRef → Module → Module)
    (hb : Keeps F b m) (hf : ∀ c k, Keeps F b k → Keeps F b (f c k)) (hs : Fld.sessions &&& F = Fld.sessions) : Keeps F b
      (Module.command m h op operands f) := by
  unfold Module.command
  dsimp only
  split
  · exact hb
  · exact .ite (fun _ => hf _ _ (.after (G := Fld.sessions) (.upd .refl) hs hb)) fun _ => hb

theorem Module.journalEntry_keeps (m : Module) (kind : Nat) (source : Fin 4) (session : W16) (object old new : Nat) :
    Keeps (Fld.regs ||| Fld.now ||| Fld.draws ||| Fld.journal) m (Module.journalEntry m kind source session object old new)
      := by
  unfold Module.journalEntry
  refine .after (Module.wr_keeps ..) rfl <| .after (Module.wr_keeps ..) rfl ?_
  refine .upd ?_
  exact .after (Module.tick_keeps ..) rfl .refl

theorem Module.lostCycles_keeps (m : Module) : Keeps (Fld.regs ||| Fld.draws) m (Module.lostCycles m) := by
  unfold Module.lostCycles
  refine .foldl (fun _ _ => ?_) _ .refl
  refine .ite (fun _ => ?_) fun _ => .refl
  dsimp only
  exact .after (Module.wr_keeps ..) rfl <| .after (Module.open__keeps ..) rfl .refl

theorem Module.rampSpm_keeps (m : Module) : Keeps Fld.regs m (Module.rampSpm m) := by
  unfold Module.rampSpm
  refine .ite (fun _ => ?_) fun _ => .refl
  refine .after (Module.setFld_keeps ..) rfl ?_
  exact .after (Module.setFld_keeps ..) rfl <| .after (Module.setFld_keeps ..) rfl .refl

theorem Module.firmware_keeps {F : Nat} {b : Module} (m : Module) (k : Module → Module)
    (hb : Keeps F b m) (hf : ∀ x, Keeps F b x → Keeps F b (k x)) (hs : 0 &&& F = 0) : Keeps F b (Module.firmware m k) := by
  unfold Module.firmware
  exact .ite (fun _ => hb) fun _ => hf _ hb

theorem Module.startMove_keeps (m : Module) (target : Nat) (cause : PowerCause) :
    Keeps (Fld.regs ||| Fld.transition) m (Module.startMove m target cause) := by
  unfold Module.startMove
  refine .upd ?_
  exact .after (Module.setFld_keeps ..) rfl .refl

theorem Module.commandRun_keeps {F : Nat} {b : Module} (m : Module) (h : CmdHdr) (op : Nat) (operands : List Byte → Bool) (f
      : CmdRef → Module → Module)
    (hb : Keeps F b m) (hf : ∀ c k, Keeps F b k → Keeps F b (f c k)) (hs : (Fld.ring ||| Fld.regs ||| Fld.transition) &&& F
      = (Fld.ring ||| Fld.regs ||| Fld.transition)) : Keeps F b (Module.commandRun m h op operands f) := by
  unfold Module.commandRun
  refine .ite (fun _ => ?_) fun _ => .ite (fun _ => ?_) fun _ => .ite (fun _ => ?_) fun _ => hb
  · split
    · exact .ite (fun _ => .after (G := Fld.transition) (.upd .refl) (Fld.within rfl hs) hb) fun _ => hb
    · exact hb
  · exact Module.command_keeps (hb := hb) (hf := fun _ _ => hf _ _) (hs := Fld.within rfl hs) ..
  · refine Module.command_keeps (hb := hb) (hf := fun _ _ hk => ?_) (hs := Fld.within rfl hs) ..
    exact .ite (fun _ => .after (Module.startMove_keeps ..) (Fld.within rfl hs) hb) fun _ =>
      .after (Module.complete_keeps ..) (Fld.within rfl hs) hk

theorem Module.admitEnd_keeps (m : Module) (c : CmdRef) (status result : Nat) :
    Keeps Fld.event m (Module.admitEnd m c status result) := by
  unfold Module.admitEnd
  exact .after (Module.complete_keeps ..) rfl <| .ite (fun _ => .after (Module.raiseCtx_keeps ..) rfl .refl) fun _ => .refl

theorem Module.putByte_keeps (m : Module) (a : Nat) (b : Byte) : Keeps Fld.mem m (Module.putByte m a b) := by
  unfold Module.putByte
  exact .upd .refl

theorem Module.clearBad_keeps (m : Module) (a n : Nat) : Keeps (Fld.badWords ||| Fld.regs) m (Module.clearBad m a n) := by
  unfold Module.clearBad
  exact .foldl (fun _ _ => .after (Module.setFld_keeps ..) rfl .refl) _ (.upd .refl)

theorem Module.spmCorrected_keeps (m : Module) (a : Nat) : Keeps Fld.event m (Module.spmCorrected m a) := by
  unfold Module.spmCorrected
  refine .ite (fun _ => ?_) fun _ => ?_
  · refine .after (Module.raise_keeps ..) rfl ?_
    exact .after (Module.countFault_keeps ..) rfl <| .after (Module.count_keeps ..) rfl .refl
  · exact .after (Module.countFault_keeps ..) rfl <| .after (Module.count_keeps ..) rfl .refl

theorem Module.spmPoison_keeps (m : Module) (source a : Nat) :
    Keeps (Fld.fault ||| Fld.poison) m (Module.spmPoison m source a) := by
  unfold Module.spmPoison
  refine .after (Module.fault_keeps ..) rfl <| .after (Module.setFld_keeps ..) rfl ?_
  refine .after (Module.setFld_keeps ..) rfl <| .after (Module.setFld_keeps ..) rfl ?_
  exact .after (Module.satAdd_keeps ..) rfl <| .after (Module.count_keeps ..) rfl <| .upd .refl

theorem Module.dramMet_keeps (m : Module) (a : Nat) : Keeps Fld.fault m (Module.dramMet m a) := by
  unfold Module.dramMet
  refine .after (Module.fault_keeps ..) rfl <| .after (Module.setFld_keeps ..) rfl ?_
  exact .after (Module.setFld_keeps ..) rfl <| .after (Module.wr_keeps ..) rfl <| .after (Module.count_keeps ..) rfl .refl

theorem Module.meetErr_keeps (m : Module) (source : Nat) (e : MemErr) :
    Keeps (Fld.fault ||| Fld.poison ||| Fld.ueSectors) m (Module.meetErr m source e) := by
  unfold Module.meetErr
  split
  · refine .ite (fun _ => .refl) fun _ => ?_
    refine .ite (fun _ => .after (Module.spmPoison_keeps ..) rfl .refl) fun _ => ?_
    exact .after (Module.spmCorrected_keeps ..) rfl .refl
  · refine .ite (fun _ => .refl) fun _ => ?_
    refine .ite (fun _ => .upd .refl) fun _ => ?_
    exact .after (Module.countFault_keeps ..) rfl <| .after (Module.count_keeps ..) rfl .refl
  · exact .refl

theorem Module.upset_keeps (m : Module) (errs : List MemErr) : Keeps Fld.latent m (Module.upset m errs) := by
  unfold Module.upset
  exact .upd .refl

theorem Module.meetWhere_keeps (m : Module) (source : Nat) (hit : MemErr → Bool) :
    Keeps Fld.meet m (Module.meetWhere m source hit) := by
  unfold Module.meetWhere
  exact .foldl (fun _ _ => .after (Module.meetErr_keeps ..) rfl .refl) _ (.upd .refl)

theorem Module.meet_keeps (m : Module) (source : Nat) (spans : List (Nat × Nat)) :
    Keeps Fld.meet m (Module.meet m source spans) := by
  unfold Module.meet
  exact .after (Module.meetWhere_keeps ..) rfl .refl

theorem Module.meetLines_keeps (m : Module) (source : Nat) (spans : List (Nat × Nat)) :
    Keeps Fld.meet m (Module.meetLines m source spans) := by
  unfold Module.meetLines
  exact .after (Module.meet_keeps ..) rfl .refl

theorem Module.meetLink_keeps (m : Module) (a n : Nat) : Keeps Fld.meet m (Module.meetLink m a n) := by
  unfold Module.meetLink
  exact .after (Module.meetWhere_keeps ..) rfl .refl

theorem Module.meetPartly_keeps (m : Module) (source a n : Nat) : Keeps Fld.meet m (Module.meetPartly m source a n) := by
  unfold Module.meetPartly
  exact .after (Module.meet_keeps ..) rfl .refl

theorem Module.reportBad_keeps (m : Module) (a n : Nat) : Keeps Fld.fault m (Module.reportBad m a n) := by
  unfold Module.reportBad
  exact .foldl (fun _ _ => .after (Module.dramMet_keeps ..) rfl .refl) _ .refl

theorem Module.reportPartly_keeps (m : Module) (a n : Nat) : Keeps Fld.fault m (Module.reportPartly m a n) := by
  unfold Module.reportPartly
  exact .foldl (fun _ _ => .after (Module.dramMet_keeps ..) rfl .refl) _ .refl

theorem Module.readBad_keeps (m : Module) (a n : Nat) : Keeps Fld.fault m (Module.readBad m a n).2 := by
  unfold Module.readBad
  dsimp only
  exact .ite (fun _ => .after (Module.reportBad_keeps ..) rfl .refl) fun _ => .refl

theorem Module.readMeets_keeps (m : Module) (source a n : Nat) : Keeps Fld.meet m (Module.readMeets m source a n).2 := by
  unfold Module.readMeets
  exact .after (Module.readBad_keeps ..) rfl <| .after (Module.meetLines_keeps ..) rfl .refl

theorem Module.reportGather_keeps (m : Module) (s : Nat) : Keeps Fld.regs m (Module.reportGather m s) := by
  unfold Module.reportGather
  exact .after (Module.setFld_keeps ..) rfl .refl

theorem Module.putSome_keeps (m : Module) (a : Nat) (l : List (Option Byte)) (bad : List Nat) :
    Keeps Fld.mem m (Module.putSome m a l bad) := by
  induction l generalizing m a with
  | nil => exact .refl
  | cons x t ih =>
    cases x with
    | none =>
      unfold Module.putSome
      exact ih ..
    | some y =>
      unfold Module.putSome
      exact .ite (fun _ => ih ..) fun _ => .trans (Module.putByte_keeps ..) (ih ..)

theorem Module.flushLine_keeps (m : Module) (line : Nat) : Keeps Fld.write m (Module.flushLine m line) := by
  unfold Module.flushLine
  dsimp only
  split
  · exact .refl
  · refine .after (Module.reportGather_keeps ..) rfl <| .after (Module.putSome_keeps ..) rfl ?_
    refine .foldl (fun _ _ => ?_) _ (.upd .refl)
    refine .ite (fun _ => .after (Module.clearBad_keeps ..) rfl .refl) fun _ => ?_
    exact .ite (fun _ => .after (Module.meet_keeps ..) rfl .refl) fun _ => .refl

theorem Module.flushSpan_keeps (m : Module) (a n : Nat) : Keeps Fld.write m (Module.flushSpan m a n) := by
  unfold Module.flushSpan
  exact .foldl (fun _ _ => .after (Module.flushLine_keeps ..) rfl .refl) _ .refl

theorem Module.write_keeps (m : Module) (a : Nat) (l : List Byte) : Keeps Fld.write m (Module.write m a l) := by
  unfold Module.write
  refine .after (Module.putSome_keeps ..) rfl <| .after (Module.clearBad_keeps ..) rfl ?_
  refine .after (Module.reportPartly_keeps ..) rfl <| .after (Module.meetPartly_keeps ..) rfl ?_
  exact .after (Module.meetLink_keeps ..) rfl <| .after (Module.flushSpan_keeps ..) rfl .refl

theorem Module.zero_keeps (m : Module) (a n : Nat) : Keeps Fld.write m (Module.zero m a n) := by
  unfold Module.zero
  refine .after (Module.clearBad_keeps ..) rfl ?_
  refine .upd ?_
  exact .after (Module.flushSpan_keeps ..) rfl .refl

theorem Module.zeroStack_keeps (m : Module) (s : Nat) : Keeps Fld.mem m (Module.zeroStack m s) := by
  unfold Module.zeroStack
  exact .upd .refl

theorem Module.narrowLine_keeps (m : Module) (a : Nat) (l : List Byte) :
    Keeps (Fld.write ||| Fld.gatherAge) m (Module.narrowLine m a l) := by
  unfold Module.narrowLine
  refine .ite (fun _ => ?_) fun _ => ?_
  · refine .after (Module.flushLine_keeps ..) rfl <| .after (Module.reportGather_keeps ..) rfl ?_
    refine .upd ?_
    refine .ite (fun _ => ?_) fun _ => .refl
    split
    · exact .after (Module.flushLine_keeps ..) rfl .refl
    · exact .refl
  · refine .after (Module.reportGather_keeps ..) rfl ?_
    refine .upd ?_
    refine .ite (fun _ => ?_) fun _ => .refl
    split
    · exact .after (Module.flushLine_keeps ..) rfl .refl
    · exact .refl

theorem Module.spmWriteGo_keeps (fuel : Nat) (m : Module) (a : Nat) (l : List Byte) :
    Keeps (Fld.write ||| Fld.gatherAge) m (Module.spmWriteGo fuel m a l) := by
  induction fuel generalizing m a l with
  | zero => exact .refl
  | succ fuel ih =>
    unfold Module.spmWriteGo
    dsimp only
    exact .ite (fun _ => .refl) fun _ => .ite (fun _ => .trans (.after (Module.write_keeps ..) rfl .refl) (ih ..))
      fun _ => .trans (.after (Module.narrowLine_keeps ..) rfl .refl) (ih ..)

theorem Module.store_keeps (m : Module) (a : Nat) (l : List Byte) :
    Keeps (Fld.write ||| Fld.gatherAge) m (Module.store m a l) := by
  unfold Module.store
  refine .ite (fun _ => .after (Module.spmWriteGo_keeps ..) rfl .refl) fun _ => ?_
  exact .after (Module.write_keeps ..) rfl .refl

theorem Module.place_keeps (m : Module) (gaps : List (Nat × Nat)) (n : Nat) :
    Keeps Fld.draws m (Module.place m gaps n).2 := by
  unfold Module.place
  dsimp only
  split
  · dsimp only
    exact .refl
  · dsimp only
    exact .after (Module.pick_keeps ..) rfl <| .after (Module.pick_keeps ..) rfl .refl

theorem Module.reportRegions_keeps (m : Module) : Keeps Fld.regs m (Module.reportRegions m) := by
  unfold Module.reportRegions
  exact .after (Module.setFld_keeps ..) rfl <| .foldl (fun _ _ => .after (Module.setFld_keeps ..) rfl .refl) _ .refl

theorem Module.zoneSpan_keeps (m : Module) (base size : Nat) (spread : Bool) :
    Keeps Fld.regs m (Module.zoneSpan m base size spread) := by
  unfold Module.zoneSpan
  exact .foldl (fun _ _ => .after (Module.setFld_keeps ..) rfl .refl) _ .refl

theorem Module.freeFrom_keeps {α : Type} (m : Module) (t : SMap α) (lo n : Nat) :
    Keeps Fld.draws m (Module.freeFrom m t lo n).2 := by
  unfold Module.freeFrom
  dsimp only
  split
  · dsimp only
    exact .after (Module.pick_keeps ..) rfl .refl
  · dsimp only
    exact .after (Module.pick_keeps ..) rfl .refl

theorem Module.enterRegion_keeps (m : Module) (dram : Bool) (base size : Nat) (spread : Bool) :
    Keeps (Fld.write ||| Fld.regions) m (Module.enterRegion m dram base size spread).2 := by
  unfold Module.enterRegion
  dsimp only
  split
  · dsimp only
    refine .snd (by assumption) ?_
    exact .after (Module.freeFrom_keeps ..) rfl .refl
  · dsimp only
    refine .after (Module.reportRegions_keeps ..) rfl ?_
    refine .upd ?_
    refine .after (Module.zero_keeps ..) rfl ?_
    refine .ite (fun _ => ?_) fun _ => ?_
    · refine .snd (by assumption) ?_
      exact .after (Module.freeFrom_keeps ..) rfl .refl
    · refine .after (Module.zoneSpan_keeps ..) rfl ?_
      refine .snd (by assumption) ?_
      exact .after (Module.freeFrom_keeps ..) rfl .refl

theorem syncUpdate_keeps (obj : W16) (f : Word → Word) (c : CmdRef) (m : Module) :
    Keeps (Fld.ring ||| Fld.regs ||| Fld.syncs) m (syncUpdate obj f c m) := by
  unfold syncUpdate
  refine .ite (fun _ => .after (Module.complete_keeps ..) rfl .refl) fun _ => ?_
  refine .ite (fun _ => ?_) fun _ => ?_
  · exact .after (Module.complete_keeps ..) rfl <| .after (Module.count_keeps ..) rfl .refl
  · exact .after (Module.complete_keeps ..) rfl <| .after (Module.setSync_keeps ..) rfl .refl

theorem syncOpSignal_keeps (h : CmdHdr) (obj : W16) (m : Module) :
    Keeps (Fld.ring ||| Fld.regs ||| Fld.syncs) m (syncOpSignal h obj m) := by
  unfold syncOpSignal
  refine Module.command_keeps (hb := .refl) (hf := fun _ _ _ => ?_) (hs := rfl) ..
  exact .after (syncUpdate_keeps ..) rfl (by assumption)

theorem syncOpAdd_keeps (h : CmdHdr) (obj : W16) (value : Word) (m : Module) :
    Keeps (Fld.ring ||| Fld.regs ||| Fld.syncs) m (syncOpAdd h obj value m) := by
  unfold syncOpAdd
  refine Module.command_keeps (hb := .refl) (hf := fun _ _ _ => ?_) (hs := rfl) ..
  exact .after (syncUpdate_keeps ..) rfl (by assumption)

theorem syncOpReset_keeps (h : CmdHdr) (obj : W16) (value : Word) (m : Module) :
    Keeps (Fld.ring ||| Fld.regs ||| Fld.syncs) m (syncOpReset h obj value m) := by
  unfold syncOpReset
  refine Module.command_keeps (hb := .refl) (hf := fun _ _ _ => ?_) (hs := rfl) ..
  exact .after (syncUpdate_keeps ..) rfl (by assumption)

theorem Module.setWaits_keeps (m : Module) (l : List HostWait) :
    Keeps (Fld.regs ||| Fld.hostWaits) m (Module.setWaits m l) := by
  unfold Module.setWaits
  exact .after (Module.setFld_keeps ..) rfl <| .upd .refl

theorem syncWaitStart_keeps (obj : W16) (threshold timeout : Word) (c : CmdRef) (m : Module) :
    Keeps (Fld.ring ||| Fld.regs ||| Fld.hostWaits) m (syncWaitStart obj threshold timeout c m) := by
  unfold syncWaitStart
  refine .ite (fun _ => .after (Module.complete_keeps ..) rfl .refl) fun _ => ?_
  refine .ite (fun _ => .after (Module.complete_keeps ..) rfl .refl) fun _ => ?_
  refine .ite (fun _ => .after (Module.complete_keeps ..) rfl .refl) fun _ => ?_
  exact .after (Module.setWaits_keeps ..) rfl .refl

theorem syncOpWait_keeps (h : CmdHdr) (obj : W16) (threshold timeout : Word) (m : Module) :
    Keeps (Fld.ring ||| Fld.regs ||| Fld.hostWaits) m (syncOpWait h obj threshold timeout m) := by
  unfold syncOpWait
  refine Module.command_keeps (hb := .refl) (hf := fun _ _ _ => ?_) (hs := rfl) ..
  exact .after (syncWaitStart_keeps ..) rfl (by assumption)

theorem syncWaitMet_keeps (session : Fin 256) (tag : Word) (m : Module) :
    Keeps (Fld.ring ||| Fld.regs ||| Fld.hostWaits) m (syncWaitMet session tag m) := by
  unfold syncWaitMet
  split
  · exact .refl
  · refine .ite (fun _ => ?_) fun _ => .refl
    exact .after (Module.complete_keeps ..) rfl <| .after (Module.setWaits_keeps ..) rfl .refl

theorem syncWaitTimeout_keeps (session : Fin 256) (tag : Word) (m : Module) :
    Keeps (Fld.ring ||| Fld.regs ||| Fld.hostWaits) m (syncWaitTimeout session tag m) := by
  unfold syncWaitTimeout
  split
  · exact .refl
  · refine .ite (fun _ => .refl) fun _ => ?_
    refine .after (Module.complete_keeps ..) rfl ?_
    exact .after (Module.count_keeps ..) rfl <| .after (Module.setWaits_keeps ..) rfl .refl

theorem allocStart_keeps (memory kind stack : Byte) (size : W64) (c : CmdRef) (m : Module) :
    Keeps (Fld.write ||| Fld.regions) m (allocStart memory kind stack size c m) := by
  unfold allocStart
  refine .ite (fun _ => .after (Module.complete_keeps ..) rfl .refl) fun _ => ?_
  refine .ite (fun _ => .after (Module.complete_keeps ..) rfl .refl) fun _ => ?_
  dsimp only
  split
  · refine .after (Module.complete_keeps ..) rfl ?_
    refine .snd (by assumption) ?_
    exact .after (Module.place_keeps ..) rfl .refl
  · split
    · refine .after (Module.complete_keeps ..) rfl ?_
      refine .snd (by assumption) ?_
      refine .after (Module.enterRegion_keeps ..) rfl ?_
      refine .snd (by assumption) ?_
      exact .after (Module.place_keeps ..) rfl .refl
    · refine .after (Module.complete_keeps ..) rfl ?_
      refine .snd (by assumption) ?_
      refine .after (Module.enterRegion_keeps ..) rfl ?_
      refine .snd (by assumption) ?_
      exact .after (Module.place_keeps ..) rfl .refl

theorem allocCmd_keeps (h : CmdHdr) (memory kind stack : Byte) (size : W64) (m : Module) :
    Keeps (Fld.write ||| Fld.regions ||| Fld.transition) m (allocCmd h memory kind stack size m) := by
  unfold allocCmd
  refine .ite (fun _ => .refl) fun _ => ?_
  refine .ite (fun _ => ?_) fun _ => ?_
  · refine Module.commandRun_keeps (hb := .refl) (hf := fun _ _ _ => ?_) (hs := rfl) ..
    exact .after (allocStart_keeps ..) rfl (by assumption)
  · refine Module.command_keeps (hb := .refl) (hf := fun _ _ _ => ?_) (hs := rfl) ..
    exact .after (allocStart_keeps ..) rfl (by assumption)

theorem Module.setFills_keeps (m : Module) (s : Nat) (l : List FillCmd) : Keeps Fld.fills m (Module.setFills m s l) := by
  unfold Module.setFills
  exact .upd .refl

theorem fillStart_keeps (copy : Bool) (dst src : Word) (dstOff len pattern : W64) (waitObj sigObj : W16) (waitThr : Word) (check : Nat) (c : CmdRef) (m : Module) :
    Keeps (Fld.ring ||| Fld.regs ||| Fld.fills ||| Fld.syncs) m (fillStart copy dst src dstOff len pattern waitObj sigObj
      waitThr check c m) := by
  unfold fillStart
  refine .ite (fun _ => .after (Module.complete_keeps ..) rfl .refl) fun _ => ?_
  refine .ite (fun _ => ?_) fun _ => ?_
  · exact .after (Module.complete_keeps ..) rfl <| .ite (fun _ => .refl) fun _ => .after (Module.guestAdd_keeps ..) rfl .refl
  · dsimp only
    split
    · exact .after (Module.setFills_keeps ..) rfl .refl
    · exact .after (Module.complete_keeps ..) rfl .refl

theorem Module.fillCommand_keeps {F : Nat} {b : Module} (m : Module) (h : CmdHdr) (op : Nat) (operands : List Byte → Bool)
      (f : Nat → CmdRef → Module → Module)
    (hb : Keeps F b m) (hf : ∀ n c k, Keeps F b k → Keeps F b (f n c k)) (hs : (Fld.ring ||| Fld.regs ||| Fld.transition)
      &&& F = (Fld.ring ||| Fld.regs ||| Fld.transition)) : Keeps F b (Module.fillCommand m h op operands f) := by
  unfold Module.fillCommand
  split
  · exact hb
  · exact .ite (fun _ => Module.commandRun_keeps (hb := hb) (hf := fun _ _ => hf _ _ _) (hs := hs) ..) fun _ => hb

theorem fillCmd_keeps (h : CmdHdr) (dst : Word) (dstOff len pattern : W64) (waitObj sigObj : W16) (waitThr waitTimeout : Word) (m : Module) :
    Keeps (Fld.ring ||| Fld.regs ||| Fld.fills ||| Fld.syncs ||| Fld.transition) m (fillCmd h dst dstOff len pattern waitObj
      sigObj waitThr waitTimeout m) := by
  unfold fillCmd
  refine Module.fillCommand_keeps (hb := .refl) (hf := fun _ _ _ _ => ?_) (hs := rfl) ..
  exact .after (fillStart_keeps ..) rfl (by assumption)

theorem copyCmd_keeps (h : CmdHdr) (dst src : Word) (dstOff len srcOff : W64) (waitObj sigObj : W16) (waitThr waitTimeout : Word) (m : Module) :
    Keeps (Fld.ring ||| Fld.regs ||| Fld.fills ||| Fld.syncs ||| Fld.transition) m (copyCmd h dst src dstOff len srcOff
      waitObj sigObj waitThr waitTimeout m) := by
  unfold copyCmd
  refine Module.fillCommand_keeps (hb := .refl) (hf := fun _ _ _ _ => ?_) (hs := rfl) ..
  exact .after (fillStart_keeps ..) rfl (by assumption)

theorem Module.fillWrite_keeps (m : Module) (f : FillCmd) : Keeps Fld.write m (Module.fillWrite m f).2 := by
  unfold Module.fillWrite
  split
  · dsimp only
    split
    · dsimp only
      exact .after (Module.write_keeps ..) rfl <| .after (Module.meet_keeps ..) rfl .refl
    · dsimp only
      refine .ite (fun _ => .after (Module.meet_keeps ..) rfl .refl) fun _ => ?_
      exact .after (Module.write_keeps ..) rfl <| .after (Module.meet_keeps ..) rfl .refl
  · dsimp only
    exact .after (Module.write_keeps ..) rfl .refl

theorem fillCopyWriteStart_keeps (s : Fin 8) (m : Module) : Keeps (Fld.write ||| Fld.fills) m (fillCopyWriteStart s m) := by
  unfold fillCopyWriteStart
  dsimp only
  split
  · refine .ite (fun _ => ?_) fun _ => .refl
    exact .after (Module.setFills_keeps ..) rfl <| .after (Module.fillWrite_keeps ..) rfl .refl
  · exact .refl

theorem Module.endFill_keeps (m : Module) (s : Nat) (f : FillCmd) (rest : List FillCmd) (status : Nat) :
    Keeps (Fld.ring ||| Fld.fills) m (Module.endFill m s f rest status) := by
  unfold Module.endFill
  exact .after (Module.complete_keeps ..) rfl <| .after (Module.setFills_keeps ..) rfl .refl

theorem fillCopyWaitTimeout_keeps (s : Fin 8) (m : Module) :
    Keeps (Fld.ring ||| Fld.regs ||| Fld.fills) m (fillCopyWaitTimeout s m) := by
  unfold fillCopyWaitTimeout
  split
  · refine .ite (fun _ => ?_) fun _ => .refl
    exact .after (Module.endFill_keeps ..) rfl <| .after (Module.count_keeps ..) rfl .refl
  · exact .refl

theorem fillCopyDone_keeps (s : Fin 8) (m : Module) :
    Keeps (Fld.ring ||| Fld.regs ||| Fld.draws ||| Fld.fills ||| Fld.syncs) m (fillCopyDone s m) := by
  unfold fillCopyDone
  dsimp only
  split
  · refine .ite (fun _ => ?_) fun _ => .refl
    refine .after (Module.endFill_keeps ..) rfl ?_
    refine .ite (fun _ => ?_) fun _ => .after (Module.lostCycles_keeps ..) rfl .refl
    exact .after (Module.guestAdd_keeps ..) rfl <| .after (Module.lostCycles_keeps ..) rfl .refl
  · exact .refl

theorem narrowWrite_keeps (addr : Nat) (l : List Byte) (m : Module) :
    Keeps (Fld.write ||| Fld.bus ||| Fld.gatherAge) m (narrowWrite addr l m) := by
  unfold narrowWrite
  refine .ite (fun _ => .refl) fun _ => ?_
  exact .ite (fun _ => .upd .refl) fun _ => .after (Module.store_keeps ..) rfl .refl

theorem gatherIdleFlush_keeps (line : Nat) (m : Module) : Keeps Fld.write m (gatherIdleFlush line m) := by
  unfold gatherIdleFlush
  exact .after (Module.flushLine_keeps ..) rfl .refl

theorem scrubVisit_keeps (s : Fin 8) (errs : List MemErr) (m : Module) : Keeps Fld.meet m (scrubVisit s errs m) := by
  unfold scrubVisit
  refine .ite (fun _ => ?_) fun _ => .refl
  refine .after (Module.setFld_keeps ..) rfl ?_
  refine .ite (fun _ => ?_) fun _ => ?_
  · refine .after (Module.satAdd_keeps ..) rfl ?_
    exact .after (Module.meetWhere_keeps ..) rfl <| .after (Module.upset_keeps ..) rfl .refl
  · exact .after (Module.meetWhere_keeps ..) rfl <| .after (Module.upset_keeps ..) rfl .refl

theorem Module.setNetPort_keeps (m : Module) (p : Nat) (x : NetPort) : Keeps Fld.netPorts m (Module.setNetPort m p x) := by
  unfold Module.setNetPort
  exact .upd .refl

theorem Module.txQueue_keeps (m : Module) (c : PortId) (l : List (Fin 2 × Out)) :
    Keeps Fld.netPorts m (Module.txQueue m c l) := by
  unfold Module.txQueue
  exact .foldl (fun _ _ => .after (Module.setNetPort_keeps ..) rfl .refl) _ .refl

theorem Module.winHand_keeps (m : Module) (use : WinUse) (port : Fin 2) (dest : Peer) (replicate : Bool) (tclass : Nat) (x : Msg) :
    Keeps (Fld.send ||| Fld.netPorts) m (Module.winHand m use port dest replicate tclass x) := by
  unfold Module.winHand
  dsimp only
  split
  · exact .after (Module.originate_keeps ..) rfl .refl
  · refine .ite (fun _ => ?_) fun _ => .refl
    exact .after (Module.txQueue_keeps ..) rfl <| .after (Module.frames_keeps ..) rfl .refl

theorem Module.winSend_keeps (m : Module) (w : Fin 64) (b : Binding) (r : Receiver) (type off len : Nat) (payload : List Byte) (use : WinUse) :
    Keeps (Fld.window ||| Fld.send ||| Fld.winOut) m (Module.winSend m w b r type off len payload use) := by
  unfold Module.winSend
  exact .after (Module.winHand_keeps ..) rfl <| .upd .refl

theorem Module.winWriteTo_keeps (m : Module) (w : Fin 64) (off : Nat) (data : List Byte) (arrive : Bool) (use : WinUse) :
    Keeps (Fld.window ||| Fld.send ||| Fld.winOut) m (Module.winWriteTo m w off data arrive use) := by
  unfold Module.winWriteTo
  split
  · exact .refl
  · split
    · exact .refl
    · exact .after (Module.winSend_keeps ..) rfl .refl

theorem Module.winReadFrom_keeps (m : Module) (w : Fin 64) (off len : Nat) (use : WinUse) :
    Keeps (Fld.window ||| Fld.send ||| Fld.winOut) m (Module.winReadFrom m w off len use) := by
  unfold Module.winReadFrom
  split
  · exact .refl
  · split
    · exact .refl
    · exact .after (Module.winSend_keeps ..) rfl .refl

theorem Module.askWindow_keeps (m : Module) (w : Fin 64) (off len : Nat) (answered : Bool) :
    Keeps (Fld.send ||| Fld.regs ||| Fld.winSeq) m (Module.askWindow m w off len answered) := by
  unfold Module.askWindow
  split
  · exact .refl
  · split
    · exact .refl
    · exact .after (Module.request_keeps ..) rfl <| .upd .refl

theorem Module.winDrop_keeps (m : Module) (x : WinOut) : Keeps (Fld.binds ||| Fld.winOut) m (Module.winDrop m x) := by
  unfold Module.winDrop
  dsimp only
  split
  · exact .upd .refl
  · exact .upd .refl

theorem Module.setChan_keeps (m : Module) (ch : Nat) (c : DmaCh) :
    Keeps (Fld.regs ||| Fld.dma) m (Module.setChan m ch c) := by
  unfold Module.setChan
  refine .after (Module.setFld_keeps ..) rfl ?_
  exact .after (Module.setFld_keeps ..) rfl <| .after (Module.setFld_keeps ..) rfl <| .upd .refl

theorem Module.wrAddr_keeps (m : Module) (lo hi a : Nat) : Keeps Fld.regs m (Module.wrAddr m lo hi a) := by
  unfold Module.wrAddr
  exact .after (Module.wr_keeps ..) rfl <| .after (Module.wr_keeps ..) rfl .refl

theorem Module.startList_keeps (m : Module) (ch : Nat) (c : CmdRef) (addr : Nat) :
    Keeps (Fld.regs ||| Fld.dma) m (Module.startList m ch c addr) := by
  unfold Module.startList
  exact .after (Module.wrAddr_keeps ..) rfl <| .after (Module.setChan_keeps ..) rfl .refl

theorem Module.freeChannel_keeps (m : Module) (ch : Nat) : Keeps (Fld.regs ||| Fld.dma) m (Module.freeChannel m ch) := by
  unfold Module.freeChannel
  exact .after (Module.setChan_keeps ..) rfl .refl

theorem dmaCmd_keeps (h : CmdHdr) (addr : W64) (m : Module) :
    Keeps (Fld.ring ||| Fld.regs ||| Fld.dma ||| Fld.transition) m (dmaCmd h addr m) := by
  unfold dmaCmd
  dsimp only
  split
  · exact .refl
  · refine .ite (fun _ => ?_) fun _ => ?_
    · refine Module.command_keeps (hb := .refl) (hf := fun _ _ _ => ?_) (hs := rfl) ..
      exact .after (Module.startList_keeps ..) rfl (by assumption)
    · refine Module.commandRun_keeps (hb := .refl) (hf := fun _ _ _ => ?_) (hs := rfl) ..
      exact .after (Module.startList_keeps ..) rfl (by assumption)

theorem Module.endList_keeps (m : Module) (ch code : Nat) (tag : Word) :
    Keeps (Fld.ring ||| Fld.regs ||| Fld.dma) m (Module.endList m ch code tag) := by
  unfold Module.endList
  split
  · exact .after (Module.completeMore_keeps ..) rfl <| .after (Module.freeChannel_keeps ..) rfl .refl
  · exact .after (Module.freeChannel_keeps ..) rfl .refl

theorem Module.failReport_keeps (m : Module) (f : DmaFail) (n : Nat) : Keeps Fld.fault m (Module.failReport m f n) := by
  unfold Module.failReport
  refine .ite (fun _ => .refl) fun _ => ?_
  refine .ite (fun _ => .after (Module.reportBad_keeps ..) rfl .refl) fun _ => ?_
  exact .after (Module.reportPartly_keeps ..) rfl .refl

theorem Module.dmaMeets_keeps (m : Module) (d : Desc) (p n : Nat) : Keeps Fld.meet m (Module.dmaMeets m d p n) := by
  unfold Module.dmaMeets
  refine .ite (fun _ => ?_) fun _ => ?_
  · exact .ite (fun _ => .refl) fun _ => .after (Module.meetLines_keeps ..) rfl .refl
  · refine .after (Module.meetPartly_keeps ..) rfl ?_
    exact .ite (fun _ => .refl) fun _ => .after (Module.meetLines_keeps ..) rfl .refl

theorem Module.fillNow_keeps (m : Module) (queued : Bool) (told : Option Nat) :
    Keeps Fld.draws m (Module.fillNow m queued told).2 := by
  unfold Module.fillNow
  split
  · dsimp only
    exact .refl
  · dsimp only
    exact .refl
  · exact .after (Module.pick_keeps ..) rfl .refl

theorem DmaCh.rowRun_keeps (c : DmaCh) (d : Desc) (fuel : Nat) (x : RowRun) : Keeps Fld.meet x.m (c.rowRun d fuel x).m := by
  induction fuel generalizing x with
  | zero => exact .refl
  | succ fuel ih =>
    unfold DmaCh.rowRun
    dsimp only
    split
    · exact .refl
    · split
      · exact .after (Module.fillNow_keeps ..) rfl .refl
      · split
        · exact .after (Module.failReport_keeps ..) rfl <| .after (Module.dmaMeets_keeps ..) rfl <|
            .after (Module.fillNow_keeps ..) rfl .refl
        · exact .trans (.after (Module.dmaMeets_keeps ..) rfl <| .after (Module.fillNow_keeps ..) rfl .refl) (ih ..)

theorem Module.moveRow_keeps (m : Module) (ch : Nat) (c : DmaCh) (d : Desc) :
    Keeps (Fld.write ||| Fld.gatherAge ||| Fld.dma) m (Module.moveRow m ch c d).2 := by
  unfold Module.moveRow
  dsimp only
  refine .after (Module.setChan_keeps ..) rfl <| .after (Module.store_keeps ..) rfl ?_
  refine .after (DmaCh.rowRun_keeps ..) rfl ?_
  dsimp only
  exact .refl

theorem McTurn.send_keeps (x : McTurn) (b : Binding) (i k : Nat) :
    Keeps (Fld.meet ||| Fld.winSeq ||| Fld.netPorts) x.m (x.send b i k).m := by
  unfold McTurn.send
  split
  case h_2 => exact .refl
  next r y e _ _ _ =>
    dsimp only
    split
    · exact .refl
    · split
      · exact .refl
      · have hm : Keeps (Fld.meet ||| Fld.winSeq ||| Fld.netPorts) x.m (match y.src with
            | some a => x.m.meetLines 5 [(a, y.len)]
            | none => x.m) := by
          split
          · exact .after (Module.meetLines_keeps ..) rfl .refl
          · exact .refl
        split
        · exact .after (Module.failReport_keeps ..) rfl hm
        · refine .after (Module.winHand_keeps ..) rfl ?_
          refine .upd ?_
          exact hm

theorem Module.mcPump_keeps (m : Module) (t : McSend) :
    Keeps (Fld.meet ||| Fld.winSeq ||| Fld.netPorts) m (m.mcPump t).m := by
  unfold Module.mcPump
  split
  · dsimp only
    exact .refl
  · refine .foldlOn McTurn.m (fun _ _ => ?_) _ ?_
    · refine .foldlOn McTurn.m (fun _ _ => ?_) _ .refl
      split
      · split
        · exact .after (McTurn.send_keeps ..) rfl .refl
        · exact .refl
      · exact .refl
    · dsimp only
      exact .refl

theorem Module.mcSpan_keeps (m : Module) (t : McSend) (k lo hi : Nat) :
    Keeps (Fld.meet ||| Fld.winSeq ||| Fld.netPorts) m (m.mcSpan t k lo hi).m := by
  unfold Module.mcSpan
  split
  · dsimp only
    exact .refl
  · refine .foldlOn McTurn.m (fun _ _ => ?_) _ ?_
    · split
      · exact .after (McTurn.send_keeps ..) rfl .refl
      · exact .refl
    · dsimp only
      exact .refl

theorem Module.mcBegin_keeps (m : Module) (ch : Fin 64) (c : DmaCh) (d : Desc) (w : Fin 64) (l : List McChunk) :
    Keeps (Fld.meet ||| Fld.winSeq ||| Fld.mcNext ||| Fld.mcSend ||| Fld.netPorts ||| Fld.dma) m (Module.mcBegin m ch c d w
      l) := by
  unfold Module.mcBegin
  dsimp only
  split
  · exact .after (Module.setChan_keeps ..) rfl <| .after (Module.mcPump_keeps ..) rfl <| .upd .refl
  · refine .after (Module.setChan_keeps ..) rfl ?_
    refine .upd ?_
    exact .after (Module.mcPump_keeps ..) rfl <| .upd .refl

theorem Module.avtpStep_keeps (m : Module) (ch : Fin 64) (c : DmaCh) (d : Desc) (x : AvtpMove) :
    Keeps (Fld.meet ||| Fld.netPorts ||| Fld.rtags ||| Fld.avtpSeq ||| Fld.dma) m (Module.avtpStep m ch c d x).2 := by
  unfold Module.avtpStep
  dsimp only
  split
  · dsimp only
    exact .after (Module.setChan_keeps ..) rfl .refl
  · split
    · dsimp only
      refine .after (Module.setChan_keeps ..) rfl ?_
      exact .after (Module.failReport_keeps ..) rfl <| .after (Module.meetLines_keeps ..) rfl .refl
    · dsimp only
      refine .after (Module.setChan_keeps ..) rfl ?_
      exact .after (Module.failReport_keeps ..) rfl <| .after (Module.meetLines_keeps ..) rfl .refl
    · dsimp only
      refine .after (Module.setChan_keeps ..) rfl ?_
      refine .upd ?_
      exact .after (Module.txQueue_keeps ..) rfl <| .after (Module.meetLines_keeps ..) rfl .refl

theorem Module.windowStep_keeps (m : Module) (ch : Fin 64) (c : DmaCh) (d : Desc) :
    Keeps (Fld.meet ||| Fld.window ||| Fld.mcNext ||| Fld.mcSend ||| Fld.dma) m (Module.windowStep m ch c d).2 := by
  unfold Module.windowStep
  dsimp only
  split
  · split
    · split
      · dsimp only
        exact .after (Module.setChan_keeps ..) rfl .refl
      · dsimp only
        exact .after (Module.winReadFrom_keeps ..) rfl <| .after (Module.setChan_keeps ..) rfl .refl
    · dsimp only
      exact .after (Module.setChan_keeps ..) rfl .refl
  · split
    · split
      · split
        · dsimp only
          exact .after (Module.mcBegin_keeps ..) rfl .refl
        · dsimp only
          exact .after (Module.setChan_keeps ..) rfl .refl
      · split
        · dsimp only
          exact .after (Module.setChan_keeps ..) rfl .refl
        · split
          · dsimp only
            refine .after (Module.setChan_keeps ..) rfl ?_
            exact .after (Module.failReport_keeps ..) rfl <| .after (Module.dmaMeets_keeps ..) rfl .refl
          · dsimp only
            refine .after (Module.winWriteTo_keeps ..) rfl ?_
            exact .after (Module.setChan_keeps ..) rfl <| .after (Module.dmaMeets_keeps ..) rfl .refl
    · dsimp only
      exact .after (Module.setChan_keeps ..) rfl .refl

theorem Module.dmaStep_keeps (m : Module) (ch : Fin 64) (c : DmaCh) (d : Desc) (told : Option Nat) :
    Keeps Fld.dmaMove m (Module.dmaStep m ch c d told).2 := by
  unfold Module.dmaStep
  dsimp only
  split
  · dsimp only
    exact .after (Module.setChan_keeps ..) rfl <| .after (Module.fillNow_keeps ..) rfl .refl
  · split
    · exact .after (Module.avtpStep_keeps ..) rfl <| .after (Module.fillNow_keeps ..) rfl .refl
    · split
      · split
        · dsimp only
          exact .after (Module.setChan_keeps ..) rfl <| .after (Module.fillNow_keeps ..) rfl .refl
        · exact .after (Module.moveRow_keeps ..) rfl <| .after (Module.fillNow_keeps ..) rfl .refl
      · split
        · dsimp only
          exact .after (Module.setChan_keeps ..) rfl <| .after (Module.fillNow_keeps ..) rfl .refl
        · exact .after (Module.windowStep_keeps ..) rfl <| .after (Module.fillNow_keeps ..) rfl .refl

theorem Module.dmaIssue_keeps (m : Module) (fuel : Nat) (ch : Fin 64) (told : Option Nat) :
    Keeps Fld.dmaMove m (Module.dmaIssue m fuel ch told) := by
  induction fuel generalizing m told with
  | zero => exact .refl
  | succ fuel ih =>
    unfold Module.dmaIssue
    dsimp only
    split
    · exact .refl
    · refine .ite (fun _ => .refl) fun _ => ?_
      split
      · exact .snd ‹_› <| .after (Module.dmaStep_keeps ..) rfl .refl
      · exact .trans (.snd ‹_› <| .after (Module.dmaStep_keeps ..) rfl .refl) (ih ..)

theorem Module.dmaGo_keeps (m : Module) (ch : Fin 64) (told : Option Nat) :
    Keeps Fld.dmaMove m (Module.dmaGo m ch told) := by
  unfold Module.dmaGo
  exact .after (Module.dmaIssue_keeps ..) rfl .refl

theorem Module.dmaMove_keeps (m : Module) (ch : Fin 64) (told : Option Nat) :
    Keeps Fld.dmaMove m (Module.dmaMove m ch told) := by
  unfold Module.dmaMove
  exact .after (Module.dmaGo_keeps ..) rfl <| .after (Module.setChan_keeps ..) rfl .refl

theorem Module.dmaRead_keeps (m : Module) (ch : Fin 64) (b : List Byte) (fill : Nat) :
    Keeps Fld.dmaMove m (Module.dmaRead m ch b fill) := by
  unfold Module.dmaRead
  refine .ite (fun _ => .after (Module.endList_keeps ..) rfl .refl) fun _ => ?_
  refine .ite (fun _ => .after (Module.setChan_keeps ..) rfl .refl) fun _ => ?_
  exact .after (Module.dmaMove_keeps ..) rfl <| .after (Module.setChan_keeps ..) rfl .refl

theorem Module.fetchFail_keeps (m : Module) (ch a : Nat) : Keeps (Fld.regs ||| Fld.dma) m (Module.fetchFail m ch a) := by
  unfold Module.fetchFail
  exact .after (Module.setChan_keeps ..) rfl .refl

theorem dmaDescriptorRun_keeps (ch : Fin 64) (desc : Remote) (errs : List MemErr) (fill : Nat) (m : Module) :
    Keeps Fld.dmaMove m (dmaDescriptorRun ch desc errs fill m) := by
  unfold dmaDescriptorRun
  refine .ite (fun _ => .refl) fun _ => ?_
  refine .ite (fun _ => .after (Module.endList_keeps ..) rfl .refl) fun _ => ?_
  refine .ite (fun _ => .refl) fun _ => ?_
  dsimp only
  split
  · refine .after (Module.dmaRead_keeps ..) rfl <| .after (Module.askWindow_keeps ..) rfl ?_
    exact .after (Module.meetLines_keeps ..) rfl <| .after (Module.upset_keeps ..) rfl .refl
  · refine .after (Module.fetchFail_keeps ..) rfl <| .after (Module.askWindow_keeps ..) rfl ?_
    exact .after (Module.meetLines_keeps ..) rfl <| .after (Module.upset_keeps ..) rfl .refl
  · refine .after (Module.dmaRead_keeps ..) rfl ?_
    exact .after (Module.meetLines_keeps ..) rfl <| .after (Module.upset_keeps ..) rfl .refl
  · refine .after (Module.fetchFail_keeps ..) rfl ?_
    refine .ite (fun _ => ?_) fun _ => ?_
    · refine .after (Module.reportBad_keeps ..) rfl ?_
      exact .after (Module.meetLines_keeps ..) rfl <| .after (Module.upset_keeps ..) rfl .refl
    · exact .after (Module.meetLines_keeps ..) rfl <| .after (Module.upset_keeps ..) rfl .refl

theorem dmaWaitMet_keeps (ch : Fin 64) (errs : List MemErr) (fill : Nat) (m : Module) :
    Keeps Fld.dmaMove m (dmaWaitMet ch errs fill m) := by
  unfold dmaWaitMet
  dsimp only
  split
  · refine .ite (fun _ => ?_) fun _ => .refl
    exact .after (Module.dmaMove_keeps ..) rfl <| .after (Module.upset_keeps ..) rfl .refl
  · exact .refl

theorem dmaWaitTimeout_keeps (ch : Fin 64) (m : Module) :
    Keeps (Fld.ring ||| Fld.regs ||| Fld.dma) m (dmaWaitTimeout ch m) := by
  unfold dmaWaitTimeout
  dsimp only
  split
  · refine .ite (fun _ => .refl) fun _ => ?_
    exact .after (Module.endList_keeps ..) rfl <| .after (Module.count_keeps ..) rfl .refl
  · exact .refl

theorem Module.planNext_keeps (m : Module) (ch : Nat) : Keeps (Fld.dmaMove ||| Fld.planMoves) m (Module.planNext m ch) := by
  unfold Module.planNext
  refine .ite (fun _ => .refl) fun _ => ?_
  dsimp only
  split
  · exact .refl
  · refine .ite (fun _ => .refl) fun _ => ?_
    exact .after (Module.dmaMove_keeps ..) rfl <| .after (Module.setChan_keeps ..) rfl <| .upd .refl

theorem Module.nextDesc_keeps (m : Module) (ch : Nat) (d : Desc) :
    Keeps (Fld.dmaMove ||| Fld.planMoves) m (Module.nextDesc m ch d) := by
  unfold Module.nextDesc
  refine .ite (fun _ => ?_) fun _ => ?_
  · exact .after (Module.planNext_keeps ..) rfl <| .after (Module.freeChannel_keeps ..) rfl .refl
  · exact .after (Module.wrAddr_keeps ..) rfl <| .after (Module.setChan_keeps ..) rfl .refl

theorem Module.clipCopied_keeps (m : Module) (o : DmaOwner) : Keeps Fld.clips m (Module.clipCopied m o) := by
  unfold Module.clipCopied
  dsimp only
  split
  · exact .upd .refl
  · exact .refl

theorem Module.descEntry_keeps (m : Module) (ch : Nat) (d : Desc) (code : Nat) (ends : Bool) :
    Keeps Fld.ring m (Module.descEntry m ch d code ends) := by
  unfold Module.descEntry
  split
  · exact .ite (fun _ => .after (Module.completeMore_keeps ..) rfl .refl) fun _ => .refl
  · exact .refl

theorem Module.descSignal_keeps (m : Module) (ch : Nat) (d : Desc) :
    Keeps (Fld.regs ||| Fld.syncs) m (Module.descSignal m ch d) := by
  unfold Module.descSignal
  refine .ite (fun _ => .refl) fun _ => ?_
  split
  · exact .after (Module.addSync_keeps ..) rfl .refl
  · exact .after (Module.guestAdd_keeps ..) rfl .refl

theorem dmaDescriptorDone_keeps (ch : Fin 64) (m : Module) :
    Keeps (Fld.dmaMove ||| Fld.planMoves ||| Fld.clips ||| Fld.syncs) m (dmaDescriptorDone ch m) := by
  unfold dmaDescriptorDone
  dsimp only
  split
  · refine .ite (fun _ => ?_) fun _ => .refl
    refine .after (Module.nextDesc_keeps ..) rfl <| .after (Module.descEntry_keeps ..) rfl ?_
    refine .after (Module.clipCopied_keeps ..) rfl ?_
    exact .after (Module.descSignal_keeps ..) rfl <| .after (Module.lostCycles_keeps ..) rfl .refl
  · exact .refl

theorem dmaPaceResume_keeps (ch : Fin 64) (fill : Nat) (m : Module) : Keeps Fld.dmaMove m (dmaPaceResume ch fill m) := by
  unfold dmaPaceResume
  exact .ite (fun _ => .after (Module.dmaGo_keeps ..) rfl .refl) fun _ => .refl

theorem Module.latchHalt_keeps (m : Module) (ch : Nat) (c : DmaCh) (f : DmaFail) :
    Keeps Fld.regs m (Module.latchHalt m ch c f) := by
  unfold Module.latchHalt
  refine .after (Module.wr_keeps ..) rfl <| .after (Module.wrAddr_keeps ..) rfl ?_
  refine .after (Module.setFld_keeps ..) rfl ?_
  exact .after (Module.setFld_keeps ..) rfl <| .after (Module.wrAddr_keeps ..) rfl .refl

theorem Module.suspendDelivery_keeps (m : Module) (c : PortId) (j : Fin 4) (frame stripe code : Nat) :
    Keeps (Fld.event ||| Fld.planMoves ||| Fld.streams) m (Module.suspendDelivery m c j frame stripe code) := by
  unfold Module.suspendDelivery
  exact .after (Module.raiseCtx_keeps ..) rfl <| .upd .refl

theorem Module.suspendOutput_keeps (m : Module) (c : PortId) (k : Fin 4) (frame stripe code : Nat) :
    Keeps (Fld.event ||| Fld.planMoves ||| Fld.streams) m (Module.suspendOutput m c k frame stripe code) := by
  unfold Module.suspendOutput
  refine .after (Module.raiseCtx_keeps ..) rfl ?_
  refine .upd ?_
  exact .after (Module.setFld_keeps ..) rfl <| .after (Module.satAdd_keeps ..) rfl <| .upd .refl

theorem dmaTransferFail_keeps (ch : Fin 64) (m : Module) :
    Keeps (Fld.event ||| Fld.plan ||| Fld.streams) m (dmaTransferFail ch m) := by
  unfold dmaTransferFail
  dsimp only
  split
  · exact .refl
  · refine .ite (fun _ => .refl) fun _ => ?_
    split
    · refine .after (Module.suspendDelivery_keeps ..) rfl ?_
      exact .after (Module.latchHalt_keeps ..) rfl <| .after (Module.setChan_keeps ..) rfl .refl
    · refine .after (Module.suspendOutput_keeps ..) rfl ?_
      exact .after (Module.latchHalt_keeps ..) rfl <| .after (Module.setChan_keeps ..) rfl .refl
    · exact .after (Module.latchHalt_keeps ..) rfl <| .after (Module.setChan_keeps ..) rfl .refl

theorem dmaHalted_keeps (ch : Fin 64) (m : Module) : Keeps (Fld.event ||| Fld.dma) m (dmaHalted ch m) := by
  unfold dmaHalted
  dsimp only
  split
  · refine .ite (fun _ => ?_) fun _ => .refl
    refine .after (Module.raise_keeps ..) rfl <| .after (Module.count_keeps ..) rfl ?_
    exact .after (Module.latchHalt_keeps ..) rfl <| .after (Module.setChan_keeps ..) rfl .refl
  · exact .refl

theorem Module.unhalt_keeps (m : Module) (ch : Nat) : Keeps Fld.regs m (Module.unhalt m ch) := by
  unfold Module.unhalt
  exact .after (Module.setFld_keeps ..) rfl .refl

theorem Module.retryChan_keeps (m : Module) (ch : Fin 64) (c : DmaCh) : Keeps Fld.dmaMove m (Module.retryChan m ch c) := by
  unfold Module.retryChan
  dsimp only
  split
  · exact .after (Module.setChan_keeps ..) rfl <| .after (Module.unhalt_keeps ..) rfl .refl
  · refine .after (Module.dmaMove_keeps ..) rfl ?_
    exact .after (Module.setChan_keeps ..) rfl <| .after (Module.unhalt_keeps ..) rfl .refl

theorem Module.skipChan_keeps (m : Module) (ch : Nat) (c : DmaCh) (cause : Nat) :
    Keeps (Fld.dmaMove ||| Fld.planMoves) m (Module.skipChan m ch c cause) := by
  unfold Module.skipChan
  dsimp only
  split
  · exact .after (Module.endList_keeps ..) rfl <| .after (Module.unhalt_keeps ..) rfl .refl
  · refine .after (Module.nextDesc_keeps ..) rfl ?_
    exact .after (Module.descEntry_keeps ..) rfl <| .after (Module.unhalt_keeps ..) rfl .refl

theorem Module.abortChan_keeps (m : Module) (ch : Nat) (c : DmaCh) (cause : Nat) :
    Keeps (Fld.ring ||| Fld.regs ||| Fld.dma) m (Module.abortChan m ch c cause) := by
  unfold Module.abortChan
  dsimp only
  split
  · exact .after (Module.endList_keeps ..) rfl <| .after (Module.unhalt_keeps ..) rfl .refl
  · refine .after (Module.freeChannel_keeps ..) rfl ?_
    exact .after (Module.descEntry_keeps ..) rfl <| .after (Module.unhalt_keeps ..) rfl .refl

theorem Module.chanAction_keeps {m x : Module} {ch : Fin 64} {a : Nat} (h : m.chanAction ch a = some x) :
    Keeps (Fld.dmaMove ||| Fld.planMoves) m x := by
  unfold Module.chanAction at h
  dsimp only at h
  split at h
  · cases h
    exact .refl
  · split at h
    · cases h
    · split at h
      · split at h
        · cases h
          exact .after (Module.retryChan_keeps ..) rfl .refl
        · split at h
          · cases h
            exact .after (Module.skipChan_keeps ..) rfl .refl
          · cases h
            exact .after (Module.abortChan_keeps ..) rfl .refl
      · cases h

theorem planChannelSkip_keeps (ch : Fin 64) (m : Module) :
    Keeps (Fld.dmaMove ||| Fld.planMoves ||| Fld.syncs) m (planChannelSkip ch m) := by
  unfold planChannelSkip
  dsimp only
  split
  · refine .ite (fun _ => ?_) fun _ => .refl
    refine .after (Module.nextDesc_keeps ..) rfl ?_
    exact .after (Module.descSignal_keeps ..) rfl <| .after (Module.unhalt_keeps ..) rfl .refl
  · exact .refl

theorem Module.dmaReturn_keeps (m : Module) (ch : Fin 64) (lo n : Nat) (cause : Option (DmaFail)) :
    Keeps Fld.dmaMove m (Module.dmaReturn m ch lo n cause) := by
  unfold Module.dmaReturn
  dsimp only
  split
  · refine .ite (fun _ => .after (Module.setChan_keeps ..) rfl .refl) fun _ => ?_
    exact .after (Module.dmaGo_keeps ..) rfl <| .after (Module.setChan_keeps ..) rfl .refl
  · exact .after (Module.setChan_keeps ..) rfl .refl

theorem Module.dmaData_keeps (m : Module) (ch : Fin 64) (lo n : Nat) (data : List Byte) :
    Keeps Fld.dmaMove m (Module.dmaData m ch lo n data) := by
  unfold Module.dmaData
  dsimp only
  split
  · exact .after (Module.dmaReturn_keeps ..) rfl .refl
  · refine .ite (fun _ => .after (Module.setChan_keeps ..) rfl .refl) fun _ => ?_
    split
    · refine .after (Module.dmaReturn_keeps ..) rfl <| .after (Module.failReport_keeps ..) rfl ?_
      exact .ite (fun _ => .refl) fun _ => .after (Module.meetPartly_keeps ..) rfl .refl
    · split
      · refine .ite (fun _ => ?_) fun _ => ?_
        · refine .ite (fun _ => ?_) fun _ => ?_
          · refine .after (Module.dmaReturn_keeps ..) rfl ?_
            exact .ite (fun _ => .refl) fun _ => .after (Module.meetPartly_keeps ..) rfl .refl
          · refine .ite (fun _ => ?_) fun _ => ?_
            · exact .after (Module.mcBegin_keeps ..) rfl <|
                .ite (fun _ => .refl) fun _ => .after (Module.meetPartly_keeps ..) rfl .refl
            · refine .after (Module.dmaGo_keeps ..) rfl ?_
              exact .after (Module.setChan_keeps ..) rfl <|
                .ite (fun _ => .refl) fun _ => .after (Module.meetPartly_keeps ..) rfl .refl
        · refine .ite (fun _ => ?_) fun _ => ?_
          · exact .after (Module.setChan_keeps ..) rfl <|
              .ite (fun _ => .refl) fun _ => .after (Module.meetPartly_keeps ..) rfl .refl
          · refine .after (Module.winWriteTo_keeps ..) rfl ?_
            exact .ite (fun _ => .refl) fun _ => .after (Module.meetPartly_keeps ..) rfl .refl
      · refine .after (Module.dmaReturn_keeps ..) rfl ?_
        exact .after (Module.store_keeps ..) rfl <|
          .ite (fun _ => .refl) fun _ => .after (Module.meetPartly_keeps ..) rfl .refl

theorem Module.detachDma_keeps (m : Module) (n gen : Nat) : Keeps (Fld.regs ||| Fld.dma) m (Module.detachDma m n gen) := by
  unfold Module.detachDma
  refine .foldl (fun _ _ => ?_) _ .refl
  dsimp only
  split
  · refine .ite (fun _ => ?_) fun _ => .refl
    exact .after (Module.freeChannel_keeps ..) rfl <| .after (Module.unhalt_keeps ..) rfl .refl
  · exact .refl

theorem Module.abortAllDma_keeps (m : Module) :
    Keeps (Fld.ring ||| Fld.regs ||| Fld.draws ||| Fld.dma) m (Module.abortAllDma m) := by
  unfold Module.abortAllDma
  refine .foldl (fun _ _ => ?_) _ .refl
  dsimp only
  split
  · refine .after (Module.endList_keeps ..) rfl ?_
    exact .after (Module.unhalt_keeps ..) rfl <| .after (Module.open__keeps ..) rfl .refl
  · exact .refl

theorem McTurn.keep_keeps (x : McTurn) : Keeps Fld.dmaMove x.m x.keep := by
  unfold McTurn.keep
  dsimp only
  split
  · exact .after (Module.dmaReturn_keeps ..) rfl <| .upd .refl
  · exact .upd .refl

theorem Module.dmaGoOn_keeps (m : Module) : Keeps Fld.dmaMove m (Module.dmaGoOn m) := by
  unfold Module.dmaGoOn
  exact .foldl (fun _ _ => .after (McTurn.keep_keeps ..) rfl <|
    .after (Module.mcPump_keeps ..) rfl .refl) _ (.foldl (fun _ _ => .ite (fun _ => .after (Module.dmaGo_keeps ..) rfl .refl) fun _ => .refl) _ .refl)

theorem dramWckTrack_keeps (_chx : Fin 16) (m : Module) : Keeps 0 m (dramWckTrack _chx m) := by
  unfold dramWckTrack
  exact .refl

theorem dramZqCalibrate_keeps (_chx : Fin 16) (m : Module) : Keeps 0 m (dramZqCalibrate _chx m) := by
  unfold dramZqCalibrate
  exact .refl

theorem perBankRefresh_keeps (_chx _bankx : Fin 16) (m : Module) : Keeps 0 m (perBankRefresh _chx _bankx m) := by
  unfold perBankRefresh
  exact .refl

theorem dramSlotAdvance_keeps (ch : Fin 16) (by_ : Option SlotShare) (m : Module) :
    Keeps (Fld.regs ||| Fld.wheel) m (dramSlotAdvance ch by_ m) := by
  unfold dramSlotAdvance
  refine .ite (fun _ => .refl) fun _ => ?_
  exact .ite (fun _ => .upd .refl) fun _ => .after (Module.wr_keeps ..) rfl <| .upd .refl

theorem Module.popRx_keeps (m : Module) (port : Fin 2) : Keeps Fld.netPorts m (Module.popRx m port) := by
  unfold Module.popRx
  exact .upd .refl

theorem Module.limited_keeps (m : Module) (times : SMap Nat) (node : W16) :
    Keeps (Fld.now ||| Fld.draws) m (Module.limited m times node).2 := by
  unfold Module.limited
  dsimp only
  split
  · dsimp only
    exact .after (Module.tick_keeps ..) rfl .refl
  · dsimp only
    exact .after (Module.tick_keeps ..) rfl .refl

theorem Module.answerNotReady_keeps (m : Module) (h : Hdr) (type status retry : Nat) :
    Keeps Fld.answer m (Module.answerNotReady m h type status retry) := by
  unfold Module.answerNotReady
  split
  · refine .after (Module.answer_keeps ..) rfl ?_
    refine .upd ?_
    refine .snd (by assumption) ?_
    exact .after (Module.limited_keeps ..) rfl .refl
  · refine .snd (by assumption) ?_
    exact .after (Module.limited_keeps ..) rfl .refl

theorem Module.answerNoSession_keeps (m : Module) (h : Hdr) (type : Nat) :
    Keeps (Fld.send ||| Fld.now ||| Fld.draws ||| Fld.noSessionAt) m (Module.answerNoSession m h type) := by
  unfold Module.answerNoSession
  split
  · refine .after (Module.answer_keeps ..) rfl ?_
    refine .upd ?_
    refine .snd (by assumption) ?_
    exact .after (Module.limited_keeps ..) rfl .refl
  · refine .snd (by assumption) ?_
    exact .after (Module.limited_keeps ..) rfl .refl

theorem Module.estimate_keeps (m : Module) : Keeps Fld.draws m (Module.estimate m).2 := by
  unfold Module.estimate
  split
  · dsimp only
    exact .refl
  · dsimp only
    exact .after (Module.pick_keeps ..) rfl .refl

theorem Module.notReadyAnswer_keeps (m : Module) (h : Hdr) (type : Nat) (always : Bool) :
    Keeps Fld.answer m (Module.notReadyAnswer m h type always) := by
  unfold Module.notReadyAnswer
  refine .ite (fun _ => .refl) fun _ => ?_
  refine .ite (fun _ => .after (Module.answerNotReady_keeps ..) rfl .refl) fun _ => ?_
  dsimp only
  exact .after (Module.answerNotReady_keeps ..) rfl <| .after (Module.estimate_keeps ..) rfl .refl

theorem Module.gate_keeps {F : Nat} {b : Module} (m : Module) (h : Hdr) (type : Nat) (always lenOk : Bool) (k : Module →
      Module)
    (hb : Keeps F b m) (hf : ∀ x, Keeps F b x → Keeps F b (k x)) (hs : (Fld.answer ||| Fld.netPorts) &&& F = (Fld.answer |||
      Fld.netPorts)) : Keeps F b (Module.gate m h type always lenOk k) := by
  unfold Module.gate
  refine .ite (fun _ => .after (Module.popRx_keeps ..) (Fld.within rfl hs) hb) fun _ => ?_
  refine .ite (fun _ => ?_) fun _ => ?_
  · exact .after (Module.notReadyAnswer_keeps ..) (Fld.within rfl hs) <| .after (Module.popRx_keeps ..) (Fld.within rfl hs) hb
  · refine .ite (fun _ => ?_) fun _ => hf _ <| .after (Module.popRx_keeps ..) (Fld.within rfl hs) hb
    exact .after (Module.answer_keeps ..) (Fld.within rfl hs) <| .after (Module.popRx_keeps ..) (Fld.within rfl hs) hb

theorem Module.gateSession_keeps {F : Nat} {b : Module} (m : Module) (h : Hdr) (type : Nat) (lenOk : Bool) (k : Nat →
      Session → Module → Module)
    (hb : Keeps F b m) (hf : ∀ n s x, Keeps F b x → Keeps F b (k n s x)) (hs : (Fld.answer ||| Fld.noSessionAt |||
      Fld.netPorts) &&& F = (Fld.answer ||| Fld.noSessionAt ||| Fld.netPorts)) : Keeps F b (Module.gateSession m h type
      lenOk k) := by
  unfold Module.gateSession
  refine .ite (fun _ => .after (Module.popRx_keeps ..) (Fld.within rfl hs) hb) fun _ => ?_
  refine .ite (fun _ => ?_) fun _ => ?_
  · exact .after (Module.notReadyAnswer_keeps ..) (Fld.within rfl hs) <| .after (Module.popRx_keeps ..) (Fld.within rfl hs) hb
  · split
    · exact .after (Module.answerNoSession_keeps ..) (Fld.within rfl hs) <| .after (Module.popRx_keeps ..) (Fld.within rfl hs) hb
    · refine .ite (fun _ => ?_) fun _ => ?_
      · exact .after (Module.answerNoSession_keeps ..) (Fld.within rfl hs) <| .after (Module.popRx_keeps ..) (Fld.within rfl hs) hb
      · refine .ite (fun _ => ?_) fun _ => ?_
        · exact .after (Module.answer_keeps ..) (Fld.within rfl hs) <| .after (Module.popRx_keeps ..) (Fld.within rfl hs) hb
        · refine .ite (fun _ => ?_) fun _ => hf _ _ _ <| .after (Module.popRx_keeps ..) (Fld.within rfl hs) hb
          exact .after (Module.answer_keeps ..) (Fld.within rfl hs) <| .after (Module.popRx_keeps ..) (Fld.within rfl hs) hb

theorem Module.setSession_keeps (m : Module) (n : Nat) (s : Session) : Keeps Fld.sessions m (Module.setSession m n s) := by
  unfold Module.setSession
  exact .upd .refl

theorem Module.setJobs_keeps (m : Module) (l : List Job) : Keeps (Fld.regs ||| Fld.jobs) m (Module.setJobs m l) := by
  unfold Module.setJobs
  exact .after (Module.setFld_keeps ..) rfl <| .upd .refl

theorem Module.dropCommands_keeps (m : Module) (n gen : Nat) :
    Keeps (Fld.job ||| Fld.regs ||| Fld.fills ||| Fld.dma ||| Fld.hostWaits) m (Module.dropCommands m n gen) := by
  unfold Module.dropCommands
  refine .after (Module.detachDma_keeps ..) rfl ?_
  refine .foldl (fun _ _ => .after (Module.setFills_keeps ..) rfl .refl) _ ?_
  refine .after (Module.setJobs_keeps ..) rfl ?_
  refine .upd ?_
  refine .after (Module.setFld_keeps ..) rfl ?_
  refine .upd ?_
  exact .after (Module.setJobs_keeps ..) rfl .refl

theorem Module.endSession_keeps (m : Module) (n reason : Nat) (byHost : Bool) :
    Keeps (Fld.event ||| Fld.job ||| Fld.fills ||| Fld.dma ||| Fld.hostWaits) m (Module.endSession m n reason byHost) := by
  unfold Module.endSession
  dsimp only
  split
  · exact .refl
  · refine .after (Module.raise_keeps ..) rfl ?_
    refine .upd ?_
    refine .after (Module.dropCommands_keeps ..) rfl ?_
    exact .ite (fun _ => .refl) fun _ => .after (Module.sendSession_keeps ..) rfl .refl

theorem Module.endAllSessions_keeps (m : Module) (reason : Nat) :
    Keeps (Fld.event ||| Fld.job ||| Fld.fills ||| Fld.dma ||| Fld.hostWaits) m (Module.endAllSessions m reason) := by
  unfold Module.endAllSessions
  exact .foldl (fun _ _ => .after (Module.endSession_keeps ..) rfl .refl) _ .refl

theorem Module.attachAnswer_keeps (m : Module) (h : Hdr) (version : Byte) (status retry : Nat) (payload : List Byte) :
    Keeps (Fld.now ||| Fld.draws ||| Fld.outbox ||| Fld.attachDone) m (Module.attachAnswer m h version status retry payload)
      := by
  unfold Module.attachAnswer
  refine .after (Module.emit_keeps ..) rfl ?_
  refine .upd ?_
  exact .after (Module.tick_keeps ..) rfl .refl

theorem attach_keeps (h : Hdr) (payload : List Byte) (m : Module) :
    Keeps (Fld.answer ||| Fld.attachWait ||| Fld.attachDone ||| Fld.netPorts) m (attach h payload m) := by
  unfold attach
  refine Module.gate_keeps (hb := .refl) (hf := fun _ _ => ?_) (hs := rfl) ..
  dsimp only
  split
  · exact .after (Module.emit_keeps ..) rfl <| .after (Module.tick_keeps ..) rfl (by assumption)
  · refine .ite (fun _ => .after (Module.tick_keeps ..) rfl (by assumption)) fun _ => ?_
    refine .ite (fun _ => ?_) fun _ => ?_
    · exact .after (Module.attachAnswer_keeps ..) rfl <| .after (Module.tick_keeps ..) rfl (by assumption)
    · refine .ite (fun _ => ?_) fun _ => ?_
      · exact .after (Module.attachAnswer_keeps ..) rfl <| .after (Module.tick_keeps ..) rfl (by assumption)
      · refine .ite (fun _ => ?_) fun _ => ?_
        · refine .after (Module.attachAnswer_keeps ..) rfl ?_
          exact .after (Module.draw_keeps ..) rfl <| .after (Module.tick_keeps ..) rfl (by assumption)
        · refine .upd ?_
          exact .after (Module.tick_keeps ..) rfl (by assumption)

theorem Module.probeRead_keeps (m : Module) (h : Hdr) (b : List Byte) (answered : Bool) :
    Keeps (Fld.send ||| Fld.regs ||| Fld.winSeq) m (Module.probeRead m h b answered) := by
  unfold Module.probeRead
  exact .after (Module.request_keeps ..) rfl <| .upd .refl

theorem attachServe_keeps (probe : Remote) (m : Module) :
    Keeps (Fld.send ||| Fld.regs ||| Fld.now ||| Fld.draws ||| Fld.sessions ||| Fld.sessionGen ||| Fld.attachWait |||
      Fld.attachDone ||| Fld.winSeq) m (attachServe probe m) := by
  unfold attachServe
  refine Module.firmware_keeps (hb := .refl) (hf := fun _ _ => ?_) (hs := rfl) ..
  dsimp only
  split
  · assumption
  · refine .ite (fun _ => (by assumption)) fun _ => ?_
    refine .ite (fun _ => ?_) fun _ => ?_
    · refine .after (Module.attachAnswer_keeps ..) rfl ?_
      refine .upd ?_
      exact (by assumption)
    · split
      · refine .after (Module.attachAnswer_keeps ..) rfl ?_
        refine .upd ?_
        exact (by assumption)
      · split
        · split
          · refine .after (Module.attachAnswer_keeps ..) rfl <| .after (Module.probeRead_keeps ..) rfl ?_
            refine .upd ?_
            exact (by assumption)
          · refine .after (Module.attachAnswer_keeps ..) rfl ?_
            refine .upd ?_
            refine .after (Module.probeRead_keeps ..) rfl ?_
            refine .upd ?_
            exact (by assumption)
        · refine .after (Module.attachAnswer_keeps ..) rfl <| .after (Module.probeRead_keeps ..) rfl ?_
          refine .upd ?_
          exact (by assumption)
        · refine .after (Module.attachAnswer_keeps ..) rfl <| .after (Module.probeRead_keeps ..) rfl ?_
          refine .upd ?_
          exact (by assumption)

theorem detach_keeps (h : Hdr) (payload : List Byte) (m : Module) :
    Keeps (Fld.event ||| Fld.job ||| Fld.noSessionAt ||| Fld.notReadyAt ||| Fld.netPorts ||| Fld.fills ||| Fld.dma |||
      Fld.hostWaits) m (detach h payload m) := by
  unfold detach
  refine Module.gateSession_keeps (hb := .refl) (hf := fun _ _ _ _ => ?_) (hs := rfl) ..
  refine .ite (fun _ => .after (Module.answer_keeps ..) rfl (by assumption)) fun _ => ?_
  exact .after (Module.send_keeps ..) rfl <| .after (Module.endSession_keeps ..) rfl (by assumption)

theorem keepalive_keeps (h : Hdr) (payload : List Byte) (m : Module) :
    Keeps (Fld.answer ||| Fld.noSessionAt ||| Fld.netPorts) m (keepalive h payload m) := by
  unfold keepalive
  refine Module.gateSession_keeps (hb := .refl) (hf := fun _ _ _ _ => ?_) (hs := rfl) ..
  exact .after (Module.answerIf_keeps ..) rfl (by assumption)

theorem sessionKeepaliveTimeout_keeps (n : Fin 256) (m : Module) :
    Keeps (Fld.event ||| Fld.job ||| Fld.fills ||| Fld.dma ||| Fld.hostWaits) m (sessionKeepaliveTimeout n m) := by
  unfold sessionKeepaliveTimeout
  dsimp only
  exact .after (Module.endSession_keeps ..) rfl <| .after (Module.open__keeps ..) rfl .refl

theorem doorbell_keeps (h : Hdr) (b : List Byte) (m : Module) :
    Keeps (Fld.answer ||| Fld.sessions ||| Fld.noSessionAt ||| Fld.netPorts) m (doorbell h b m) := by
  unfold doorbell
  refine Module.gateSession_keeps (hb := .refl) (hf := fun _ _ _ _ => ?_) (hs := rfl) ..
  refine .ite (fun _ => .after (Module.answer_keeps ..) rfl (by assumption)) fun _ => ?_
  refine .ite (fun _ => .after (Module.answer_keeps ..) rfl (by assumption)) fun _ => ?_
  exact .after (Module.answerIf_keeps ..) rfl <| .after (Module.setSession_keeps ..) rfl (by assumption)

theorem Module.takeEntry_keeps (m : Module) (n : Nat) (s : Session) (b : List Byte) :
    Keeps (Fld.sessions ||| Fld.lastTurn ||| Fld.takeNo) m (Module.takeEntry m n s b) := by
  unfold Module.takeEntry
  refine .ite (fun _ => .upd .refl) fun _ => ?_
  refine .upd ?_
  exact .after (Module.setSession_keeps ..) rfl .refl

theorem Module.ringRead_keeps (m : Module) (n : Nat) (s : Session) (answered : Bool) :
    Keeps (Fld.send ||| Fld.regs ||| Fld.sessions) m (Module.ringRead m n s answered) := by
  unfold Module.ringRead
  exact .after (Module.request_keeps ..) rfl <| .after (Module.setSession_keeps ..) rfl .refl

theorem submissionEntryTake_keeps (n : Fin 256) (entry : Remote) (m : Module) :
    Keeps (Fld.event ||| Fld.job ||| Fld.lastTurn ||| Fld.takeNo ||| Fld.fills ||| Fld.dma ||| Fld.hostWaits) m
      (submissionEntryTake n entry m) := by
  unfold submissionEntryTake
  dsimp only
  split
  · exact .refl
  · refine .ite (fun _ => .refl) fun _ => ?_
    split
    · exact .after (Module.takeEntry_keeps ..) rfl .refl
    · split
      · refine .ite (fun _ => ?_) fun _ => ?_
        · refine .after (Module.takeEntry_keeps ..) rfl ?_
          exact .after (Module.setSession_keeps ..) rfl <| .after (Module.ringRead_keeps ..) rfl .refl
        · exact .after (Module.endSession_keeps ..) rfl <| .after (Module.ringRead_keeps ..) rfl .refl
      · exact .after (Module.endSession_keeps ..) rfl <| .after (Module.ringRead_keeps ..) rfl .refl
      · exact .after (Module.endSession_keeps ..) rfl <| .after (Module.ringRead_keeps ..) rfl .refl

theorem nop_keeps (h : CmdHdr) (m : Module) : Keeps Fld.ring m (nop h m) := by
  unfold nop
  refine Module.command_keeps (hb := .refl) (hf := fun _ _ _ => ?_) (hs := rfl) ..
  exact .after (Module.complete_keeps ..) rfl (by assumption)

theorem reservedOpcode_keeps (h : CmdHdr) (opcode : Byte) (m : Module) : Keeps Fld.ring m (reservedOpcode h opcode m) := by
  unfold reservedOpcode
  refine Module.command_keeps (hb := .refl) (hf := fun _ _ _ => ?_) (hs := rfl) ..
  exact .after (Module.complete_keeps ..) rfl (by assumption)

theorem setEvents_keeps (h : CmdHdr) (mask : Word) (m : Module) : Keeps Fld.ring m (setEvents h mask m) := by
  unfold setEvents
  refine Module.command_keeps (hb := .refl) (hf := fun _ _ _ => ?_) (hs := rfl) ..
  refine .after (Module.complete_keeps ..) rfl ?_
  refine .upd ?_
  exact (by assumption)

theorem Module.settleCompl_keeps (m : Module) (n : Nat) (s : Session) (e : Compl) :
    Keeps (Fld.regs ||| Fld.fills ||| Fld.jobs) m (Module.settleCompl m n s e) := by
  unfold Module.settleCompl
  refine .foldl (fun _ _ => ?_) _ ?_
  · dsimp only
    split
    · exact .ite (fun _ => .after (Module.setFills_keeps ..) rfl .refl) fun _ => .refl
    · exact .refl
  · dsimp only
    split
    · exact .after (Module.setJobs_keeps ..) rfl .refl
    · exact .refl

theorem completionWrite_keeps (n : Fin 256) (m : Module) :
    Keeps (Fld.ring ||| Fld.regs ||| Fld.fills ||| Fld.jobs) m (completionWrite n m) := by
  unfold completionWrite
  refine Module.firmware_keeps (hb := .refl) (hf := fun _ _ => ?_) (hs := rfl) ..
  dsimp only
  split
  · assumption
  · split
    · assumption
    · refine .ite (fun _ => ?_) fun _ => by assumption
      refine .after (Module.writeCompl_keeps ..) rfl ?_
      refine .ite (fun _ => .after (Module.setSession_keeps ..) rfl (by assumption)) fun _ => ?_
      exact .after (Module.settleCompl_keeps ..) rfl <| .after (Module.setSession_keeps ..) rfl (by assumption)

theorem eventsLost_keeps (n : Fin 256) (m : Module) :
    Keeps (Fld.ring ||| Fld.regs ||| Fld.now ||| Fld.draws ||| Fld.evNext ||| Fld.trace) m (eventsLost n m) := by
  unfold eventsLost
  exact .after (Module.writeLost_keeps ..) rfl .refl

theorem notify_keeps (n : Fin 256) (m : Module) :
    Keeps (Fld.send ||| Fld.now ||| Fld.draws ||| Fld.sessions) m (notify n m) := by
  unfold notify
  refine Module.firmware_keeps (hb := .refl) (hf := fun _ _ => ?_) (hs := rfl) ..
  dsimp only
  split
  · exact .after (Module.tick_keeps ..) rfl (by assumption)
  · refine .ite (fun _ => ?_) fun _ => .after (Module.tick_keeps ..) rfl (by assumption)
    refine .after (Module.sendSession_keeps ..) rfl ?_
    exact .after (Module.setSession_keeps ..) rfl <| .after (Module.tick_keeps ..) rfl (by assumption)

theorem journalRead_keeps (h : Hdr) (b : List Byte) (m : Module) :
    Keeps (Fld.answer ||| Fld.noSessionAt ||| Fld.netPorts) m (journalRead h b m) := by
  unfold journalRead
  refine Module.gateSession_keeps (hb := .refl) (hf := fun _ _ _ _ => ?_) (hs := rfl) ..
  refine .ite (fun _ => .after (Module.answer_keeps ..) rfl (by assumption)) fun _ => ?_
  refine .ite (fun _ => .after (Module.answer_keeps ..) rfl (by assumption)) fun _ => ?_
  exact .after (Module.answer_keeps ..) rfl (by assumption)

theorem ywpFrameDiscard_keeps (port : Fin 2) (frame : List Byte) (m : Module) :
    Keeps Fld.netPorts m (ywpFrameDiscard port frame m) := by
  unfold ywpFrameDiscard
  exact .ite (fun _ => .after (Module.popRx_keeps ..) rfl .refl) fun _ => .refl

theorem arpRequest_keeps (port : Fin 2) (target sender : Word) (m : Module) :
    Keeps (Fld.outbox ||| Fld.netPorts) m (arpRequest port target sender m) := by
  unfold arpRequest
  refine .ite (fun _ => ?_) fun _ => .after (Module.popRx_keeps ..) rfl .refl
  exact .after (Module.emit_keeps ..) rfl <| .after (Module.popRx_keeps ..) rfl .refl

theorem Module.filterPass_keeps (m : Module) (i : Nat) (f : RxFrame) :
    Keeps (Fld.now ||| Fld.draws ||| Fld.meters) m (Module.filterPass m i f).2 := by
  unfold Module.filterPass
  split
  · dsimp only
    exact .refl
  · dsimp only
    split
    · dsimp only
      exact .refl
    · split
      · split
        · dsimp only
          refine .upd ?_
          exact .after (Module.tick_keeps ..) rfl .refl
        · dsimp only
          refine .upd ?_
          exact .after (Module.tick_keeps ..) rfl .refl
      · split
        · dsimp only
          refine .upd ?_
          exact .after (Module.tick_keeps ..) rfl .refl
        · dsimp only
          refine .upd ?_
          exact .after (Module.tick_keeps ..) rfl .refl

theorem Module.recover_keeps (m : Module) (f : RxFrame) : Keeps Fld.recovery m (Module.recover m f).2 := by
  unfold Module.recover
  dsimp only
  split
  · dsimp only
    exact .refl
  · split
    · dsimp only
      exact .upd .refl
    · dsimp only
      exact .refl
    · dsimp only
      exact .upd .refl

theorem netRxFrame_keeps (port : Fin 2) (f : RxFrame) (m : Module) :
    Keeps (Fld.regs ||| Fld.now ||| Fld.draws ||| Fld.netPorts ||| Fld.recovery ||| Fld.meters) m (netRxFrame port f m) := by
  unfold netRxFrame
  refine .ite (fun _ => .refl) fun _ => ?_
  refine .ite (fun _ => .after (Module.count_keeps ..) rfl .refl) fun _ => ?_
  refine .ite (fun _ => .refl) fun _ => ?_
  refine .ite (fun _ => .refl) fun _ => ?_
  dsimp only
  refine .ite (fun _ => ?_) fun _ => ?_
  · refine .after (Module.count_keeps ..) rfl ?_
    split
    · dsimp only
      exact .refl
    · exact .after (Module.filterPass_keeps ..) rfl .refl
  · split
    · refine .after (Module.count_keeps ..) rfl ?_
      refine .snd (by assumption) ?_
      refine .after (Module.recover_keeps ..) rfl ?_
      split
      · dsimp only
        exact .refl
      · exact .after (Module.filterPass_keeps ..) rfl .refl
    · refine .ite (fun _ => ?_) fun _ => ?_
      · refine .after (Module.count_keeps ..) rfl ?_
        refine .snd (by assumption) ?_
        refine .after (Module.recover_keeps ..) rfl ?_
        split
        · dsimp only
          exact .refl
        · exact .after (Module.filterPass_keeps ..) rfl .refl
      · refine .after (Module.setNetPort_keeps ..) rfl ?_
        refine .snd (by assumption) ?_
        refine .after (Module.recover_keeps ..) rfl ?_
        split
        · dsimp only
          exact .refl
        · exact .after (Module.filterPass_keeps ..) rfl .refl

theorem linkUp_keeps (port : Fin 2) (fast : Bool) (m : Module) : Keeps Fld.event m (linkUp port fast m) := by
  unfold linkUp
  refine .ite (fun _ => ?_) fun _ => .refl
  refine .after (Module.raise_keeps ..) rfl ?_
  exact .after (Module.setFld_keeps ..) rfl <| .after (Module.setFld_keeps ..) rfl .refl

theorem Module.emitFrames_keeps (m : Module) (l : List PlanFrame) : Keeps Fld.outbox m (Module.emitFrames m l) := by
  unfold Module.emitFrames
  exact .foldl (fun _ _ => .after (Module.emit_keeps ..) rfl .refl) _ .refl

theorem linkDown_keeps (port : Fin 2) (m : Module) : Keeps (Fld.fault ||| Fld.netPorts) m (linkDown port m) := by
  unfold linkDown
  refine .ite (fun _ => ?_) fun _ => .refl
  refine .after (Module.fault_keeps ..) rfl <| .after (Module.setFld_keeps ..) rfl ?_
  refine .after (Module.setFld_keeps ..) rfl <| .after (Module.setFld_keeps ..) rfl ?_
  dsimp only
  split
  · exact .refl
  · refine .after (Module.setNetPort_keeps ..) rfl ?_
    exact .after (Module.emitFrames_keeps ..) rfl <| .after (Module.pick_keeps ..) rfl .refl

theorem preemptionVerification_keeps (port : Fin 2) (good : Bool) (m : Module) :
    Keeps Fld.regs m (preemptionVerification port good m) := by
  unfold preemptionVerification
  exact .after (Module.setFld_keeps ..) rfl .refl

theorem sequenceRecoveryReset_keeps (k : Fin 128) (m : Module) : Keeps Fld.recovery m (sequenceRecoveryReset k m) := by
  unfold sequenceRecoveryReset
  exact .upd .refl

theorem peerDelayMeasurement_keeps (port : Fin 2) (delay : Nat) (m : Module) :
    Keeps Fld.netPorts m (peerDelayMeasurement port delay m) := by
  unfold peerDelayMeasurement
  exact .after (Module.setNetPort_keeps ..) rfl .refl

theorem Module.setRole_keeps (m : Module) (p r : Nat) : Keeps Fld.regs m (Module.setRole m p r) := by
  unfold Module.setRole
  exact .after (Module.setFld_keeps ..) rfl .refl

theorem Module.becomeSlave_keeps (m : Module) (p : Nat) : Keeps Fld.event m (Module.becomeSlave m p) := by
  unfold Module.becomeSlave
  refine .after (Module.raise_keeps ..) rfl <| .after (Module.setRole_keeps ..) rfl ?_
  exact .after (Module.setRole_keeps ..) rfl <| .after (Module.setFld_keeps ..) rfl .refl

theorem Module.slew_keeps (m : Module) (o : Int) :
    Keeps (Fld.now ||| Fld.ptpOffset ||| Fld.draws ||| Fld.clockStep) m (Module.slew m o) := by
  unfold Module.slew
  refine .upd ?_
  exact .after (Module.tick_keeps ..) rfl .refl

theorem gptpSyncReceive_keeps (port : Fin 2) (domain : Nat) (o : Int) (m : Module) :
    Keeps (Fld.event ||| Fld.ptpOffset ||| Fld.netPorts ||| Fld.clockStep) m (gptpSyncReceive port domain o m) := by
  unfold gptpSyncReceive
  refine .ite (fun _ => .refl) fun _ => ?_
  refine .ite (fun _ => ?_) fun _ => ?_
  · refine .after (Module.becomeSlave_keeps ..) rfl <| .after (Module.setFld_keeps ..) rfl ?_
    refine .ite (fun _ => ?_) fun _ => ?_
    · refine .ite (fun _ => ?_) fun _ => ?_
      · refine .upd ?_
        exact .after (Module.setFld_keeps ..) rfl <| .after (Module.setNetPort_keeps ..) rfl .refl
      · refine .after (Module.slew_keeps ..) rfl ?_
        exact .after (Module.setFld_keeps ..) rfl <| .after (Module.setNetPort_keeps ..) rfl .refl
    · exact .after (Module.setRole_keeps ..) rfl <| .after (Module.setNetPort_keeps ..) rfl .refl
  · refine .ite (fun _ => ?_) fun _ => ?_
    · refine .ite (fun _ => ?_) fun _ => ?_
      · refine .upd ?_
        exact .after (Module.setFld_keeps ..) rfl <| .after (Module.setNetPort_keeps ..) rfl .refl
      · refine .after (Module.slew_keeps ..) rfl ?_
        exact .after (Module.setFld_keeps ..) rfl <| .after (Module.setNetPort_keeps ..) rfl .refl
    · exact .after (Module.setRole_keeps ..) rfl <| .after (Module.setNetPort_keeps ..) rfl .refl

theorem gptpSyncTimeout_keeps (port : Fin 2) (m : Module) :
    Keeps (Fld.fault ||| Fld.netPorts) m (gptpSyncTimeout port m) := by
  unfold gptpSyncTimeout
  refine .ite (fun _ => ?_) fun _ => ?_
  · refine .ite (fun _ => ?_) fun _ => ?_
    · exact .after (Module.becomeSlave_keeps ..) rfl <| .after (Module.setNetPort_keeps ..) rfl .refl
    · refine .after (Module.fault_keeps ..) rfl <| .after (Module.setFld_keeps ..) rfl ?_
      exact .after (Module.setRole_keeps ..) rfl <| .after (Module.setNetPort_keeps ..) rfl .refl
  · exact .after (Module.setRole_keeps ..) rfl <| .after (Module.setNetPort_keeps ..) rfl .refl

theorem gptpHoldoverExpiry_keeps (m : Module) : Keeps Fld.regs m (gptpHoldoverExpiry m) := by
  unfold gptpHoldoverExpiry
  refine .ite (fun _ => ?_) fun _ => .refl
  exact .after (Module.setFld_keeps ..) rfl <| .after (Module.setFld_keeps ..) rfl .refl

theorem gptpClockStep_keeps (m : Module) : Keeps (Fld.ptpOffset ||| Fld.clockStep) m (gptpClockStep m) := by
  unfold gptpClockStep
  split
  · exact .refl
  · exact .upd .refl

theorem qbvCycleStart_keeps (port : Fin 2) (m : Module) : Keeps Fld.netPorts m (qbvCycleStart port m) := by
  unfold qbvCycleStart
  exact .after (Module.setNetPort_keeps ..) rfl .refl

theorem planWindowOpen_keeps (port : Fin 2) (c : PortId) (m : Module) : Keeps Fld.netPorts m (planWindowOpen port c m) := by
  unfold planWindowOpen
  exact .ite (fun _ => .refl) fun _ => .after (Module.setNetPort_keeps ..) rfl .refl

theorem planWindowEnd_keeps (port : Fin 2) (c : PortId) (m : Module) : Keeps Fld.dmaMove m (planWindowEnd port c m) := by
  unfold planWindowEnd
  dsimp only
  split
  · refine .ite (fun _ => ?_) fun _ => .refl
    refine .after (Module.dmaGoOn_keeps ..) rfl <| .after (Module.count_keeps ..) rfl ?_
    exact .after (Module.setNetPort_keeps ..) rfl <| .after (Module.emitFrames_keeps ..) rfl .refl
  · exact .refl

theorem Module.closeWindow_keeps (m : Module) (n : Nat) : Keeps Fld.regs m (Module.closeWindow m n) := by
  unfold Module.closeWindow
  refine .ite (fun _ => ?_) fun _ => .refl
  exact .after (Module.setFld_keeps ..) rfl <| .after (Module.setFld_keeps ..) rfl .refl

theorem Module.closeAllWindows_keeps (m : Module) : Keeps Fld.regs m (Module.closeAllWindows m) := by
  unfold Module.closeAllWindows
  exact .foldl (fun _ _ => .after (Module.closeWindow_keeps ..) rfl .refl) _ .refl

theorem Module.winClosedCount_keeps (m : Module) (h : Hdr) (w gen : Nat) :
    Keeps Fld.regs m (Module.winClosedCount m h w gen) := by
  unfold Module.winClosedCount
  exact .ite (fun _ => .after (Module.count_keeps ..) rfl .refl) fun _ => .refl

theorem Module.arriveAt_keeps (m : Module) (w : Nat) (arrive : Bool) :
    Keeps (Fld.regs ||| Fld.syncs) m (Module.arriveAt m w arrive) := by
  unfold Module.arriveAt
  exact .ite (fun _ => .after (Module.guestAdd_keeps ..) rfl .refl) fun _ => .refl

theorem Module.sendCredit_keeps (m : Module) (port : Fin 2) (dest : Peer) (dst : W16) (w gen flags : Nat) (transfer : Word) (applied limit : Nat) :
    Keeps (Fld.send ||| Fld.winSeq) m (Module.sendCredit m port dest dst w gen flags transfer applied limit) := by
  unfold Module.sendCredit
  exact .after (Module.originate_keeps ..) rfl <| .upd .refl

theorem Module.mcReceive_keeps (m : Module) (h : Hdr) (w gen flags : Nat) (transfer : Word) (pos addr : Nat) (data : List Byte) :
    Keeps (Fld.write ||| Fld.winSeq ||| Fld.mcRx ||| Fld.gatherAge ||| Fld.syncs) m (Module.mcReceive m h w gen flags
      transfer pos addr data) := by
  unfold Module.mcReceive
  refine .ite (fun _ => .refl) fun _ => ?_
  refine .ite (fun _ => ?_) fun _ => ?_
  · refine .after (Module.sendCredit_keeps ..) rfl ?_
    refine .upd ?_
    refine .ite (fun _ => ?_) fun _ => ?_
    · exact .after (Module.arriveAt_keeps ..) rfl <| .ite (fun _ => .after (Module.store_keeps ..) rfl .refl) fun _ => .refl
    · exact .ite (fun _ => .after (Module.store_keeps ..) rfl .refl) fun _ => .refl
  · refine .upd ?_
    refine .ite (fun _ => ?_) fun _ => ?_
    · exact .after (Module.arriveAt_keeps ..) rfl <| .ite (fun _ => .after (Module.store_keeps ..) rfl .refl) fun _ => .refl
    · exact .ite (fun _ => .after (Module.store_keeps ..) rfl .refl) fun _ => .refl

theorem winWrite_keeps (h : Hdr) (b : List Byte) (m : Module) :
    Keeps (Fld.write ||| Fld.notReadyAt ||| Fld.winSeq ||| Fld.mcRx ||| Fld.netPorts ||| Fld.gatherAge ||| Fld.syncs) m
      (winWrite h b m) := by
  unfold winWrite
  refine .ite (fun _ => .refl) fun _ => ?_
  refine Module.gate_keeps (hb := .refl) (hf := fun _ _ => ?_) (hs := rfl) ..
  refine .ite (fun _ => .after (Module.answerIf_keeps ..) rfl (by assumption)) fun _ => ?_
  dsimp only
  split
  · refine .after (Module.answerIf_keeps ..) rfl ?_
    exact .ite (fun _ => .after (Module.winClosedCount_keeps ..) rfl (by assumption)) fun _ => by assumption
  · refine .ite (fun _ => .after (Module.mcReceive_keeps ..) rfl (by assumption)) fun _ => ?_
    refine .ite (fun _ => ?_) fun _ => ?_
    · refine .after (Module.answerIf_keeps ..) rfl <| .after (Module.reportPartly_keeps ..) rfl ?_
      exact .ite (fun _ => (by assumption)) fun _ => .after (Module.meetPartly_keeps ..) rfl (by assumption)
    · refine .after (Module.answerIf_keeps ..) rfl <| .after (Module.arriveAt_keeps ..) rfl ?_
      refine .after (Module.store_keeps ..) rfl ?_
      exact .ite (fun _ => (by assumption)) fun _ => .after (Module.meetPartly_keeps ..) rfl (by assumption)

theorem winRead_keeps (h : Hdr) (b : List Byte) (m : Module) :
    Keeps (Fld.meet ||| Fld.notReadyAt ||| Fld.netPorts) m (winRead h b m) := by
  unfold winRead
  refine .ite (fun _ => .refl) fun _ => ?_
  refine Module.gate_keeps (hb := .refl) (hf := fun _ _ => ?_) (hs := rfl) ..
  refine .ite (fun _ => .after (Module.answerIf_keeps ..) rfl (by assumption)) fun _ => ?_
  dsimp only
  split
  · refine .after (Module.answerIf_keeps ..) rfl ?_
    exact .ite (fun _ => .after (Module.winClosedCount_keeps ..) rfl (by assumption)) fun _ => by assumption
  · refine .ite (fun _ => ?_) fun _ => ?_
    · exact .after (Module.answerIf_keeps ..) rfl <| .after (Module.readMeets_keeps ..) rfl (by assumption)
    · exact .after (Module.answerIf_keeps ..) rfl <| .after (Module.readMeets_keeps ..) rfl (by assumption)

theorem Module.syncRemember_keeps (m : Module) (h : Hdr) (st : Nat) : Keeps Fld.syncSeen m (Module.syncRemember m h st) := by
  unfold Module.syncRemember
  exact .upd .refl

theorem winSync_keeps (h : Hdr) (b : List Byte) (m : Module) :
    Keeps (Fld.answer ||| Fld.regs ||| Fld.syncSeen ||| Fld.netPorts ||| Fld.syncs) m (winSync h b m) := by
  unfold winSync
  refine Module.gate_keeps (hb := .refl) (hf := fun _ _ => ?_) (hs := rfl) ..
  dsimp only
  split
  · exact .after (Module.answerIf_keeps ..) rfl <| .after (Module.count_keeps ..) rfl (by assumption)
  · split
    · refine .after (Module.answerIf_keeps ..) rfl <| .after (Module.syncRemember_keeps ..) rfl ?_
      exact .ite (fun _ => .after (Module.winClosedCount_keeps ..) rfl (by assumption)) fun _ => by assumption
    · refine .ite (fun _ => ?_) fun _ => ?_
      · refine .after (Module.answerIf_keeps ..) rfl ?_
        exact .after (Module.syncRemember_keeps ..) rfl <| .after (Module.count_keeps ..) rfl (by assumption)
      · refine .ite (fun _ => ?_) fun _ => ?_
        · exact .after (Module.answerIf_keeps ..) rfl <| .after (Module.syncRemember_keeps ..) rfl (by assumption)
        · refine .after (Module.answerIf_keeps ..) rfl ?_
          exact .after (Module.syncRemember_keeps ..) rfl <| .after (Module.addSync_keeps ..) rfl (by assumption)

theorem Module.bindRefuse_keeps (m : Module) (h : Hdr) : Keeps Fld.send m (Module.bindRefuse m h) := by
  unfold Module.bindRefuse
  exact .after (Module.answer_keeps ..) rfl .refl

theorem Module.sendProbes_keeps (m : Module) (b : List Byte) (rs : List Receiver) (probes : List Probe) :
    Keeps (Fld.send ||| Fld.regs ||| Fld.winSeq) m (Module.sendProbes m b rs probes) := by
  unfold Module.sendProbes
  refine .foldl (fun _ _ => ?_) _ .refl
  split
  · exact .refl
  · exact .after (Module.request_keeps ..) rfl <| .upd .refl

theorem Module.reportBinding_keeps (m : Module) (w : Nat) : Keeps Fld.regs m (Module.reportBinding m w) := by
  unfold Module.reportBinding
  dsimp only
  split
  · refine .after (Module.setFld_keeps ..) rfl <| .after (Module.setFld_keeps ..) rfl ?_
    exact .after (Module.setFld_keeps ..) rfl <| .after (Module.wr_keeps ..) rfl <| .after (Module.wr_keeps ..) rfl .refl
  · refine .after (Module.setFld_keeps ..) rfl <| .after (Module.setFld_keeps ..) rfl ?_
    refine .after (Module.setFld_keeps ..) rfl ?_
    exact .after (Module.wr_keeps ..) rfl <| .after (Module.setFld_keeps ..) rfl <| .after (Module.setFld_keeps ..) rfl .refl

theorem Module.bumpBind_keeps (m : Module) (w : Nat) : Keeps Fld.regs m (Module.bumpBind m w) := by
  unfold Module.bumpBind
  exact .after (Module.setFld_keeps ..) rfl .refl

theorem Module.gateBind_keeps {F : Nat} {b : Module} (m : Module) (h : Hdr) (lenOk : Bool) (k : Module → Module)
    (hb : Keeps F b m) (hf : ∀ x, Keeps F b x → Keeps F b (k x)) (hs : (Fld.answer ||| Fld.noSessionAt ||| Fld.netPorts) &&&
      F = (Fld.answer ||| Fld.noSessionAt ||| Fld.netPorts)) : Keeps F b (Module.gateBind m h lenOk k) := by
  unfold Module.gateBind
  refine Module.gateSession_keeps (hb := hb) (hf := fun _ _ _ _ => ?_) (hs := Fld.within rfl hs) ..
  exact .ite (fun _ => .after (Module.answer_keeps ..) (Fld.within rfl hs) (by assumption)) fun _ => hf _ (by assumption)

theorem winBind_keeps (h : Hdr) (b : List Byte) (probes : List Probe) (m : Module) :
    Keeps (Fld.answer ||| Fld.window ||| Fld.regs ||| Fld.noSessionAt) m (winBind h b probes m) := by
  unfold winBind
  refine .ite (fun _ => .refl) fun _ => ?_
  refine Module.gateBind_keeps (hb := .refl) (hf := fun _ _ => ?_) (hs := rfl) ..
  refine .ite (fun _ => .after (Module.bindRefuse_keeps ..) rfl (by assumption)) fun _ => ?_
  dsimp only
  split
  · exact .after (Module.answer_keeps ..) rfl <| .after (Module.sendProbes_keeps ..) rfl (by assumption)
  · refine .after (Module.answer_keeps ..) rfl <| .after (Module.reportBinding_keeps ..) rfl ?_
    refine .after (Module.bumpBind_keeps ..) rfl ?_
    refine .upd ?_
    exact .after (Module.sendProbes_keeps ..) rfl (by assumption)

theorem Module.finishUnbind_keeps (m : Module) (w : Nat) :
    Keeps (Fld.send ||| Fld.regs ||| Fld.binds) m (Module.finishUnbind m w) := by
  unfold Module.finishUnbind
  dsimp only
  split
  · exact .refl
  · split
    · exact .refl
    · refine .ite (fun _ => ?_) fun _ => .refl
      refine .after (Module.answer_keeps ..) rfl ?_
      exact .after (Module.reportBinding_keeps ..) rfl <| .after (Module.bumpBind_keeps ..) rfl <| .upd .refl

theorem McTurn.settle_keeps (x : McTurn) : Keeps Fld.dmaMove x.m x.settle := by
  unfold McTurn.settle
  refine .ite (fun _ => ?_) fun _ => ?_
  · exact .after (Module.finishUnbind_keeps ..) rfl <| .after (McTurn.keep_keeps ..) rfl .refl
  · refine .ite (fun _ => ?_) fun _ => ?_
    · exact .after (Module.finishUnbind_keeps ..) rfl <| .after (Module.dmaReturn_keeps ..) rfl <| .upd .refl
    · refine .ite (fun _ => ?_) fun _ => .after (McTurn.keep_keeps ..) rfl .refl
      exact .after (Module.finishUnbind_keeps ..) rfl <| .after (Module.dmaReturn_keeps ..) rfl <| .upd .refl

theorem winCredit_keeps (h : Hdr) (b : List Byte) (m : Module) :
    Keeps (Fld.dmaMove ||| Fld.notReadyAt ||| Fld.mcRx) m (winCredit h b m) := by
  unfold winCredit
  refine Module.gate_keeps (hb := .refl) (hf := fun _ _ => ?_) (hs := rfl) ..
  refine .ite (fun _ => ?_) fun _ => ?_
  · refine .upd ?_
    exact (by assumption)
  · dsimp only
    split
    · assumption
    · split
      · assumption
      · refine .ite (fun _ => (by assumption)) fun _ => ?_
        exact .after (McTurn.settle_keeps ..) rfl <| .after (Module.mcPump_keeps ..) rfl (by assumption)

theorem multicastResend_keeps (w : Fin 64) (rx : Fin 16) (m : Module) : Keeps Fld.dmaMove m (multicastResend w rx m) := by
  unfold multicastResend
  dsimp only
  split
  · exact .refl
  · split
    · exact .refl
    · refine .ite (fun _ => .refl) fun _ => ?_
      refine .ite (fun _ => .refl) fun _ => ?_
      refine .after (McTurn.settle_keeps ..) rfl ?_
      dsimp only
      exact .after (Module.count_keeps ..) rfl <| .after (Module.mcSpan_keeps ..) rfl .refl

theorem receiverDropped_keeps (w : Fin 64) (rx : Fin 16) (m : Module) : Keeps Fld.dmaMove m (receiverDropped w rx m) := by
  unfold receiverDropped
  dsimp only
  split
  · split
    · refine .ite (fun _ => .refl) fun _ => ?_
      refine .after (McTurn.settle_keeps ..) rfl ?_
      dsimp only
      refine .after (Module.raise_keeps ..) rfl ?_
      exact .after (Module.count_keeps ..) rfl <| .after (Module.sendCredit_keeps ..) rfl .refl
    · exact .refl
  · exact .refl

theorem winUnbind_keeps (h : Hdr) (b : List Byte) (m : Module) :
    Keeps (Fld.answer ||| Fld.regs ||| Fld.noSessionAt ||| Fld.binds ||| Fld.netPorts) m (winUnbind h b m) := by
  unfold winUnbind
  refine .ite (fun _ => .refl) fun _ => ?_
  refine Module.gateBind_keeps (hb := .refl) (hf := fun _ _ => ?_) (hs := rfl) ..
  dsimp only
  split
  · exact .after (Module.bindRefuse_keeps ..) rfl (by assumption)
  · refine .ite (fun _ => .after (Module.bindRefuse_keeps ..) rfl (by assumption)) fun _ => ?_
    refine .after (Module.finishUnbind_keeps ..) rfl ?_
    refine .upd ?_
    exact (by assumption)

theorem winRefresh_keeps (h : Hdr) (b : List Byte) (probes : List Probe) (m : Module) :
    Keeps (Fld.answer ||| Fld.window ||| Fld.regs ||| Fld.noSessionAt) m (winRefresh h b probes m) := by
  unfold winRefresh
  refine .ite (fun _ => .refl) fun _ => ?_
  refine Module.gateBind_keeps (hb := .refl) (hf := fun _ _ => ?_) (hs := rfl) ..
  dsimp only
  split
  · exact .after (Module.bindRefuse_keeps ..) rfl (by assumption)
  · refine .ite (fun _ => .after (Module.bindRefuse_keeps ..) rfl (by assumption)) fun _ => ?_
    split
    · exact .after (Module.answer_keeps ..) rfl <| .after (Module.sendProbes_keeps ..) rfl (by assumption)
    · refine .after (Module.answer_keeps ..) rfl <| .after (Module.reportBinding_keeps ..) rfl ?_
      refine .upd ?_
      exact .after (Module.sendProbes_keeps ..) rfl (by assumption)

theorem Module.updateCap_keeps (m : Module) : Keeps Fld.regs m (Module.updateCap m) := by
  unfold Module.updateCap
  refine .after (Module.setFld_keeps ..) rfl ?_
  exact .after (Module.setFld_keeps ..) rfl <| .after (Module.setFld_keeps ..) rfl .refl

theorem Module.reportPlanned_keeps (m : Module) : Keeps Fld.regs m (Module.reportPlanned m) := by
  unfold Module.reportPlanned
  exact .after (Module.setFld_keeps ..) rfl <| .after (Module.setFld_keeps ..) rfl .refl

theorem Module.writeReport_keeps (m : Module) (b : Nat → List Byte) :
    Keeps (Fld.write ||| Fld.gatherAge) m (Module.writeReport m b) := by
  unfold Module.writeReport
  split
  · exact .refl
  · exact .after (Module.store_keeps ..) rfl .refl

theorem Module.thermalReport_keeps (m : Module) : Keeps (Fld.write ||| Fld.gatherAge) m (Module.thermalReport m) := by
  unfold Module.thermalReport
  exact .after (Module.writeReport_keeps ..) rfl .refl

theorem Module.checkRisk_keeps (m : Module) : Keeps (Fld.write ||| Fld.gatherAge ||| Fld.atRisk) m (Module.checkRisk m) := by
  unfold Module.checkRisk
  dsimp only
  split
  · exact .upd .refl
  · refine .ite (fun _ => ?_) fun _ => .upd .refl
    refine .ite (fun _ => .refl) fun _ => ?_
    exact .after (Module.thermalReport_keeps ..) rfl <| .after (Module.fault_keeps ..) rfl <| .upd .refl

theorem Module.setPort_keeps (m : Module) (p : Nat) (x : Port) : Keeps Fld.ports m (Module.setPort m p x) := by
  unfold Module.setPort
  exact .upd .refl

theorem Module.setPortState_keeps (m : Module) (p st : Nat) : Keeps Fld.regs m (Module.setPortState m p st) := by
  unfold Module.setPortState
  exact .after (Module.setFld_keeps ..) rfl .refl

theorem Module.setCtx_keeps (m : Module) (c : Nat) (x : Ctx) : Keeps Fld.ctxs m (Module.setCtx m c x) := by
  unfold Module.setCtx
  exact .upd .refl

theorem some_pair_keeps {F : Nat} {b k x : Module} {w v : Word} (h : some (w, k) = some (v, x)) (hk : Keeps F b k) :
    Keeps F b x := by
  obtain ⟨-, rfl⟩ := Prod.mk.injEq .. ▸ Option.some.inj h
  exact hk

theorem Module.feTable_keeps {m x : Module} {c : Nat} {w : Option Word} {v : Word} (h : m.feTable c w = some (v, x)) :
    Keeps (Fld.regs ||| Fld.ctxs) m x := by
  unfold Module.feTable at h
  dsimp only at h
  split at h
  · split at h
    · cases h
    · split at h
      · exact some_pair_keeps h <| .after (Module.setFld_keeps ..) rfl .refl
      · exact some_pair_keeps h <| .after (Module.setCtx_keeps ..) rfl <| .after (Module.setFld_keeps ..) rfl .refl
  · split at h
    · cases h
    · split at h
      · exact some_pair_keeps h <| .after (Module.setFld_keeps ..) rfl .refl
      · exact some_pair_keeps h <| .after (Module.setCtx_keeps ..) rfl <| .after (Module.setFld_keeps ..) rfl .refl

theorem Module.nisTable_keeps {m x : Module} {c : Nat} {w : Option Word} {v : Word} (h : m.nisTable c w = some (v, x)) :
    Keeps (Fld.regs ||| Fld.ctxs) m x := by
  unfold Module.nisTable at h
  dsimp only at h
  split at h
  · cases h
  · split at h
    · exact some_pair_keeps h <| .after (Module.setFld_keeps ..) rfl .refl
    · exact some_pair_keeps h <| .after (Module.setCtx_keeps ..) rfl <| .after (Module.setFld_keeps ..) rfl .refl

theorem Module.reportEsid_keeps (m : Module) (c : Nat) (k : Word) : Keeps Fld.regs m (Module.reportEsid m c k) := by
  unfold Module.reportEsid
  dsimp only
  refine .after (Module.setFld_keeps ..) rfl ?_
  exact .after (Module.setFld_keeps ..) rfl <| .after (Module.setFld_keeps ..) rfl .refl

theorem Module.reportFill_keeps (m : Module) (p : Nat) : Keeps Fld.regs m (Module.reportFill m p) := by
  unfold Module.reportFill
  exact .after (Module.setFld_keeps ..) rfl .refl

theorem Module.sqError_keeps (m : Module) (p e : Nat) : Keeps Fld.regs m (Module.sqError m p e) := by
  unfold Module.sqError
  exact .after (Module.setFld_keeps ..) rfl .refl

theorem Module.sqPush_keeps (m : Module) (p : Nat) : Keeps (Fld.regs ||| Fld.ports) m (Module.sqPush m p).2 := by
  unfold Module.sqPush
  dsimp only
  split
  · dsimp only
    exact .after (Module.sqError_keeps ..) rfl .refl
  · split
    · dsimp only
      exact .after (Module.sqError_keeps ..) rfl .refl
    · split
      · dsimp only
        exact .after (Module.sqError_keeps ..) rfl .refl
      · split
        · dsimp only
          exact .after (Module.sqError_keeps ..) rfl .refl
        · dsimp only
          refine .ite (fun _ => ?_) fun _ => ?_
          · refine .after (Module.setFld_keeps ..) rfl ?_
            exact .after (Module.reportFill_keeps ..) rfl <| .after (Module.setPort_keeps ..) rfl .refl
          · exact .after (Module.reportFill_keeps ..) rfl <| .after (Module.setPort_keeps ..) rfl .refl

theorem Module.releaseBatches_keeps (m : Module) (p : Nat) (atStart : Bool) (n : Word) (exposure : List SqEntry) :
    Keeps (Fld.regs ||| Fld.ports) m (Module.releaseBatches m p atStart n exposure) := by
  unfold Module.releaseBatches
  exact .after (Module.reportFill_keeps ..) rfl <| .after (Module.setPort_keeps ..) rfl .refl

theorem Module.exposureMark_keeps (m : Module) (p : Nat) (n : Word) (failed : Bool) :
    Keeps (Fld.regs ||| Fld.ctxs) m (Module.exposureMark m p n failed) := by
  unfold Module.exposureMark
  exact .after (Module.reportEsid_keeps ..) rfl <| .after (Module.setCtx_keeps ..) rfl .refl

theorem Module.busSend_keeps (m : Module) (p : PortId) (e : SqEntry) : Keeps Fld.outbox m (Module.busSend m p e) := by
  unfold Module.busSend
  exact .after (Module.emit_keeps ..) rfl .refl

theorem sensorTransactionStart_keeps (p : PortId) (m : Module) :
    Keeps (Fld.outbox ||| Fld.ports) m (sensorTransactionStart p m) := by
  unfold sensorTransactionStart
  refine .ite (fun _ => .refl) fun _ => ?_
  dsimp only
  split
  · split
    · exact .after (Module.busSend_keeps ..) rfl <| .after (Module.setPort_keeps ..) rfl .refl
    · exact .refl
  · split
    · exact .after (Module.busSend_keeps ..) rfl <| .after (Module.setPort_keeps ..) rfl .refl
    · exact .refl

theorem Module.sqFinish_keeps (m : Module) (p : Nat) (t : SqXfer) :
    Keeps (Fld.regs ||| Fld.ports) m (Module.sqFinish m p t) := by
  unfold Module.sqFinish
  exact .after (Module.reportFill_keeps ..) rfl <| .after (Module.setPort_keeps ..) rfl .refl

theorem Module.sqFail_keeps (m : Module) (p : Nat) (t : SqXfer) (err : Nat) :
    Keeps (Fld.event ||| Fld.ports ||| Fld.ctxs) m (Module.sqFail m p t err) := by
  unfold Module.sqFail
  refine .ite (fun _ => ?_) fun _ => ?_
  · dsimp only
    split
    · refine .after (Module.raiseCtx_keeps ..) rfl <| .after (Module.sqError_keeps ..) rfl ?_
      refine .after (Module.count_keeps ..) rfl <| .after (Module.reportFill_keeps ..) rfl ?_
      refine .after (Module.setPort_keeps ..) rfl ?_
      exact .ite (fun _ => .after (Module.exposureMark_keeps ..) rfl .refl) fun _ => .refl
    · refine .after (Module.raiseCtx_keeps ..) rfl <| .after (Module.sqError_keeps ..) rfl ?_
      refine .after (Module.count_keeps ..) rfl ?_
      exact .after (Module.reportFill_keeps ..) rfl <| .after (Module.setPort_keeps ..) rfl .refl
  · refine .after (Module.raiseCtx_keeps ..) rfl <| .after (Module.sqError_keeps ..) rfl ?_
    refine .after (Module.count_keeps ..) rfl ?_
    exact .after (Module.reportFill_keeps ..) rfl <| .after (Module.setPort_keeps ..) rfl .refl

theorem Module.sqTryFailed_keeps (m : Module) (p : PortId) (err : Nat) :
    Keeps (Fld.event ||| Fld.ports ||| Fld.ctxs) m (Module.sqTryFailed m p err) := by
  unfold Module.sqTryFailed
  dsimp only
  split
  · exact .refl
  · refine .ite (fun _ => ?_) fun _ => .after (Module.sqFail_keeps ..) rfl .refl
    exact .after (Module.busSend_keeps ..) rfl <| .after (Module.setPort_keeps ..) rfl .refl

theorem sensorTransactionDone_keeps (p : PortId) (ack : Bool) (rdata : List Byte) (m : Module) :
    Keeps (Fld.event ||| Fld.ports ||| Fld.ctxs) m (sensorTransactionDone p ack rdata m) := by
  unfold sensorTransactionDone
  dsimp only
  split
  · exact .refl
  · refine .ite (fun _ => .after (Module.sqTryFailed_keeps ..) rfl .refl) fun _ => ?_
    refine .after (Module.sqFinish_keeps ..) rfl ?_
    refine .ite (fun _ => ?_) fun _ => .refl
    exact .after (Module.setFld_keeps ..) rfl <| .after (Module.wr_keeps ..) rfl .refl

theorem sensorBusTimeout_keeps (p : PortId) (m : Module) :
    Keeps (Fld.event ||| Fld.ports ||| Fld.ctxs) m (sensorBusTimeout p m) := by
  unfold sensorBusTimeout
  exact .after (Module.sqTryFailed_keeps ..) rfl .refl

theorem inBandInterrupt_keeps (p : PortId) (m : Module) : Keeps Fld.regs m (inBandInterrupt p m) := by
  unfold inBandInterrupt
  exact .ite (fun _ => .after (Module.count_keeps ..) rfl .refl) fun _ => .refl

theorem Module.feCommit_keeps (m : Module) (c : Nat) (next withExp : Bool) :
    Keeps (Fld.regs ||| Fld.ctxs) m (Module.feCommit m c next withExp).2 := by
  unfold Module.feCommit
  dsimp only
  split
  · dsimp only
    exact .after (Module.setFld_keeps ..) rfl .refl
  · dsimp only
    refine .after (Module.wr_keeps ..) rfl <| .after (Module.wr_keeps ..) rfl ?_
    refine .after (Module.setFld_keeps ..) rfl <| .after (Module.setFld_keeps ..) rfl ?_
    exact .after (Module.setCtx_keeps ..) rfl <| .ite (fun _ => .after (Module.setFld_keeps ..) rfl .refl) fun _ => .refl

theorem Module.copySet_keeps (m : Module) (c : Nat) (t : Word) : Keeps (Fld.regs ||| Fld.ctxs) m (Module.copySet m c t) := by
  unfold Module.copySet
  refine .ite (fun _ => ?_) fun _ => .after (Module.setCtx_keeps ..) rfl .refl
  exact .after (Module.setFld_keeps ..) rfl <| .after (Module.setCtx_keeps ..) rfl .refl

theorem Module.issueExposure_keeps (m : Module) (c : Nat) (n : Word) : Keeps Fld.ctxs m (Module.issueExposure m c n).2 := by
  unfold Module.issueExposure
  dsimp only
  split
  · dsimp only
    exact .refl
  · dsimp only
    exact .after (Module.setCtx_keeps ..) rfl .refl

theorem Module.bindLane_keeps (m : Module) (c lane slot : Nat) :
    Keeps (Fld.regs ||| Fld.ctxs) m (Module.bindLane m c lane slot) := by
  unfold Module.bindLane
  exact .after (Module.setFld_keeps ..) rfl <| .after (Module.setCtx_keeps ..) rfl <| .after (Module.wr_keeps ..) rfl .refl

theorem Module.unbindLane_keeps (m : Module) (c : Nat) : Keeps Fld.regs m (Module.unbindLane m c) := by
  unfold Module.unbindLane
  refine .ite (fun _ => ?_) fun _ => .refl
  exact .after (Module.setFld_keeps ..) rfl <| .after (Module.wr_keeps ..) rfl .refl

theorem Module.startContext_keeps (m : Module) (c : Nat) : Keeps (Fld.regs ||| Fld.ctxs) m (Module.startContext m c) := by
  unfold Module.startContext
  exact .after (Module.wr_keeps ..) rfl <| .after (Module.wr_keeps ..) rfl <| .after (Module.setCtx_keeps ..) rfl .refl

theorem Module.setCal_keeps (m : Module) (c : Nat) (x : Cal) : Keeps Fld.cals m (Module.setCal m c x) := by
  unfold Module.setCal
  exact .upd .refl

theorem Module.reportValid_keeps (m : Module) (c : Nat) : Keeps Fld.regs m (Module.reportValid m c) := by
  unfold Module.reportValid
  exact .after (Module.setFld_keeps ..) rfl .refl

theorem Module.calMark_keeps (m : Module) (c : Nat) (n : Word) : Keeps (Fld.regs ||| Fld.cals) m (Module.calMark m c n) := by
  unfold Module.calMark
  dsimp only
  split
  · refine .ite (fun _ => ?_) fun _ => .refl
    exact .after (Module.wr_keeps ..) rfl <| .after (Module.wr_keeps ..) rfl <| .after (Module.setCal_keeps ..) rfl .refl
  · exact .refl

theorem Module.calAddLine_keeps (m : Module) (c y : Nat) (px : List Nat) (add : Bool) :
    Keeps Fld.write m (Module.calAddLine m c y px add) := by
  unfold Module.calAddLine
  dsimp only
  split
  · exact .refl
  · exact .foldl (fun _ _ => .after (Module.write_keeps ..) rfl .refl) _ .refl

theorem Module.calEvent_keeps (m : Module) (c : Nat) (r : CalRun) (err status : Nat) :
    Keeps Fld.event m (Module.calEvent m c r err status) := by
  unfold Module.calEvent
  exact .after (Module.raiseCtx_keeps ..) rfl .refl

theorem Module.calReport_keeps (m : Module) (c : Nat) (running : Bool) (runs kind err : Nat) :
    Keeps Fld.regs m (Module.calReport m c running runs kind err) := by
  unfold Module.calReport
  refine .after (Module.setFld_keeps ..) rfl <| .after (Module.setFld_keeps ..) rfl ?_
  exact .after (Module.setFld_keeps ..) rfl <| .after (Module.setFld_keeps ..) rfl .refl

theorem Module.trainAbort_keeps (m : Module) (p : Nat) : Keeps Fld.regs m (Module.trainAbort m p) := by
  unfold Module.trainAbort
  refine .ite (fun _ => ?_) fun _ => .refl
  exact .after (Module.setPortState_keeps ..) rfl <| .after (Module.setFld_keeps ..) rfl .refl

theorem Module.calEnd_keeps (m : Module) (c err : Nat) (status : Option Nat) :
    Keeps (Fld.event ||| Fld.camera) m (Module.calEnd m c err status) := by
  unfold Module.calEnd
  dsimp only
  split
  · exact .refl
  · split
    · refine .after (Module.calEvent_keeps ..) rfl <| .after (Module.calReport_keeps ..) rfl ?_
      refine .ite (fun _ => ?_) fun _ => ?_
      · refine .after (Module.trainAbort_keeps ..) rfl <| .after (Module.setPort_keeps ..) rfl ?_
        refine .after (Module.setCtx_keeps ..) rfl ?_
        refine .ite (fun _ => ?_) fun _ => .after (Module.setCal_keeps ..) rfl .refl
        exact .after (Module.unbindLane_keeps ..) rfl <| .after (Module.setCal_keeps ..) rfl .refl
      · refine .after (Module.setPort_keeps ..) rfl <| .after (Module.setCtx_keeps ..) rfl ?_
        refine .ite (fun _ => ?_) fun _ => .after (Module.setCal_keeps ..) rfl .refl
        exact .after (Module.unbindLane_keeps ..) rfl <| .after (Module.setCal_keeps ..) rfl .refl
    · refine .after (Module.calEvent_keeps ..) rfl <| .after (Module.open__keeps ..) rfl ?_
      refine .after (Module.calReport_keeps ..) rfl ?_
      refine .ite (fun _ => ?_) fun _ => ?_
      · refine .after (Module.trainAbort_keeps ..) rfl <| .after (Module.setPort_keeps ..) rfl ?_
        refine .after (Module.setCtx_keeps ..) rfl ?_
        refine .ite (fun _ => ?_) fun _ => .after (Module.setCal_keeps ..) rfl .refl
        exact .after (Module.unbindLane_keeps ..) rfl <| .after (Module.setCal_keeps ..) rfl .refl
      · refine .after (Module.setPort_keeps ..) rfl <| .after (Module.setCtx_keeps ..) rfl ?_
        refine .ite (fun _ => ?_) fun _ => .after (Module.setCal_keeps ..) rfl .refl
        exact .after (Module.unbindLane_keeps ..) rfl <| .after (Module.setCal_keeps ..) rfl .refl

theorem Module.calAbort_keeps (m : Module) (c : Nat) : Keeps (Fld.event ||| Fld.camera) m (Module.calAbort m c) := by
  unfold Module.calAbort
  exact .after (Module.calEnd_keeps ..) rfl .refl

theorem Module.calBegin_keeps (m : Module) (c : Nat) (r : CalRun) :
    Keeps (Fld.write ||| Fld.camera) m (Module.calBegin m c r) := by
  unfold Module.calBegin
  refine .ite (fun _ => ?_) fun _ => ?_
  · exact .after (Module.calEnd_keeps ..) rfl <| .after (Module.setCal_keeps ..) rfl .refl
  · refine .ite (fun _ => ?_) fun _ => ?_
    · dsimp only
      split
      · refine .after (Module.calMark_keeps ..) rfl <| .after (Module.setPort_keeps ..) rfl ?_
        refine .after (Module.wr_keeps ..) rfl <| .after (Module.setPortState_keeps ..) rfl ?_
        exact .after (Module.count_keeps ..) rfl <| .after (Module.setCal_keeps ..) rfl .refl
      · refine .after (Module.wr_keeps ..) rfl <| .after (Module.setPortState_keeps ..) rfl ?_
        exact .after (Module.count_keeps ..) rfl <| .after (Module.setCal_keeps ..) rfl .refl
    · refine .ite (fun _ => ?_) fun _ => ?_
      · dsimp only
        split
        · exact .after (Module.write_keeps ..) rfl <| .after (Module.count_keeps ..) rfl <|
            .after (Module.setCal_keeps ..) rfl .refl
        · exact .after (Module.count_keeps ..) rfl <| .after (Module.setCal_keeps ..) rfl .refl
      · exact .after (Module.count_keeps ..) rfl <| .after (Module.setCal_keeps ..) rfl .refl

theorem Module.calStart_keeps (m : Module) (c kind purpose : Nat) (region : Bool) :
    Keeps (Fld.write ||| Fld.camera) m (Module.calStart m c kind purpose region).2 := by
  unfold Module.calStart
  dsimp only
  split
  · dsimp only
    exact .refl
  · split
    · dsimp only
      exact .after (Module.count_keeps ..) rfl <| .after (Module.setFld_keeps ..) rfl .refl
    · split
      · split
        · split
          · dsimp only
            refine .after (Module.calEnd_keeps ..) rfl <| .after (Module.wr_keeps ..) rfl ?_
            refine .after (Module.wr_keeps ..) rfl <| .after (Module.calReport_keeps ..) rfl ?_
            refine .after (Module.setCal_keeps ..) rfl ?_
            exact .after (Module.bindLane_keeps ..) rfl <| .after (Module.pick_keeps ..) rfl .refl
          · dsimp only
            refine .after (Module.calBegin_keeps ..) rfl <| .after (Module.wr_keeps ..) rfl ?_
            refine .after (Module.wr_keeps ..) rfl <| .after (Module.calReport_keeps ..) rfl ?_
            refine .after (Module.setCal_keeps ..) rfl ?_
            exact .after (Module.bindLane_keeps ..) rfl <| .after (Module.pick_keeps ..) rfl .refl
        · split
          · dsimp only
            refine .after (Module.calEnd_keeps ..) rfl <| .after (Module.wr_keeps ..) rfl ?_
            refine .after (Module.wr_keeps ..) rfl <| .after (Module.calReport_keeps ..) rfl ?_
            exact .after (Module.setCal_keeps ..) rfl <| .after (Module.pick_keeps ..) rfl .refl
          · dsimp only
            refine .after (Module.calBegin_keeps ..) rfl <| .after (Module.wr_keeps ..) rfl ?_
            refine .after (Module.wr_keeps ..) rfl <| .after (Module.calReport_keeps ..) rfl ?_
            exact .after (Module.setCal_keeps ..) rfl <| .after (Module.pick_keeps ..) rfl .refl
      · split
        · dsimp only
          refine .after (Module.calEnd_keeps ..) rfl <| .after (Module.wr_keeps ..) rfl ?_
          refine .after (Module.wr_keeps ..) rfl ?_
          exact .after (Module.calReport_keeps ..) rfl <| .after (Module.setCal_keeps ..) rfl .refl
        · dsimp only
          refine .after (Module.calBegin_keeps ..) rfl <| .after (Module.wr_keeps ..) rfl ?_
          refine .after (Module.wr_keeps ..) rfl ?_
          exact .after (Module.calReport_keeps ..) rfl <| .after (Module.setCal_keeps ..) rfl .refl

theorem Module.calTakeBack_keeps (m : Module) (c : Nat) (f : LaneFrame) : Keeps Fld.write m (Module.calTakeBack m c f) := by
  unfold Module.calTakeBack
  refine .foldl (fun _ _ => ?_) _ .refl
  split
  · exact .after (Module.calAddLine_keeps ..) rfl .refl
  · exact .refl

theorem Module.calFrame_keeps (m : Module) (c : Nat) (f : PortFrame) (lane : Option LaneFrame) (esid : Nat) (ob : List Nat) :
    Keeps (Fld.write ||| Fld.camera) m (Module.calFrame m c f lane esid ob) := by
  unfold Module.calFrame
  dsimp only
  split
  · exact .refl
  · refine .ite (fun _ => .refl) fun _ => ?_
    refine .ite (fun _ => ?_) fun _ => ?_
    · refine .after (Module.count_keeps ..) rfl <| .after (Module.calEnd_keeps ..) rfl ?_
      refine .ite (fun _ => ?_) fun _ => ?_
      · refine .after (Module.wr_keeps ..) rfl <| .after (Module.wr_keeps ..) rfl ?_
        refine .after (Module.setCal_keeps ..) rfl ?_
        refine .ite (fun _ => ?_) fun _ => ?_
        · split
          · exact .ite (fun _ => .refl) fun _ => .after (Module.calTakeBack_keeps ..) rfl .refl
          · exact .refl
        · refine .after (Module.setCtx_keeps ..) rfl ?_
          split
          · exact .ite (fun _ => .refl) fun _ => .after (Module.calTakeBack_keeps ..) rfl .refl
          · exact .refl
      · refine .after (Module.setCal_keeps ..) rfl ?_
        refine .ite (fun _ => ?_) fun _ => ?_
        · split
          · exact .ite (fun _ => .refl) fun _ => .after (Module.calTakeBack_keeps ..) rfl .refl
          · exact .refl
        · refine .after (Module.setCtx_keeps ..) rfl ?_
          split
          · exact .ite (fun _ => .refl) fun _ => .after (Module.calTakeBack_keeps ..) rfl .refl
          · exact .refl
    · refine .ite (fun _ => ?_) fun _ => ?_
      · refine .after (Module.wr_keeps ..) rfl <| .after (Module.wr_keeps ..) rfl ?_
        refine .after (Module.setCal_keeps ..) rfl ?_
        refine .ite (fun _ => ?_) fun _ => ?_
        · split
          · exact .ite (fun _ => .refl) fun _ => .after (Module.calTakeBack_keeps ..) rfl .refl
          · exact .refl
        · refine .after (Module.setCtx_keeps ..) rfl ?_
          split
          · exact .ite (fun _ => .refl) fun _ => .after (Module.calTakeBack_keeps ..) rfl .refl
          · exact .refl
      · refine .after (Module.setCal_keeps ..) rfl ?_
        refine .ite (fun _ => ?_) fun _ => ?_
        · split
          · exact .ite (fun _ => .refl) fun _ => .after (Module.calTakeBack_keeps ..) rfl .refl
          · exact .refl
        · refine .after (Module.setCtx_keeps ..) rfl ?_
          split
          · exact .ite (fun _ => .refl) fun _ => .after (Module.calTakeBack_keeps ..) rfl .refl
          · exact .refl

theorem Module.writeTaps_keeps (m : Module) (c : Nat) (data : List Nat) (sync : Nat) :
    Keeps Fld.regs m (Module.writeTaps m c data sync) := by
  unfold Module.writeTaps
  refine .after (Module.setFld_keeps ..) rfl ?_
  exact .after (Module.setFld_keeps ..) rfl <| .foldl (fun _ _ => .after (Module.setFld_keeps ..) rfl .refl) _ .refl

theorem Module.shadowBl_keeps (m : Module) (c : Nat) (bl : List Nat) : Keeps Fld.regs m (Module.shadowBl m c bl) := by
  unfold Module.shadowBl
  refine .after (Module.setFld_keeps ..) rfl <| .after (Module.setFld_keeps ..) rfl ?_
  exact .after (Module.setFld_keeps ..) rfl <| .after (Module.setFld_keeps ..) rfl .refl

theorem Module.shadowDefects_keeps (m : Module) (c : Nat) (l : List Word) :
    Keeps (Fld.regs ||| Fld.ctxs) m (Module.shadowDefects m c l) := by
  unfold Module.shadowDefects
  exact .after (Module.setFld_keeps ..) rfl <| .after (Module.setCtx_keeps ..) rfl .refl

theorem Module.calLast_keeps (m : Module) (c : Nat) (r : CalRun) :
    Keeps (Fld.regs ||| Fld.cals) m (Module.calLast m c r) := by
  unfold Module.calLast
  dsimp only
  split
  · exact .refl
  · refine .after (Module.setFld_keeps ..) rfl <| .after (Module.setFld_keeps ..) rfl ?_
    refine .after (Module.wr_keeps ..) rfl ?_
    exact .after (Module.wr_keeps ..) rfl <| .after (Module.wr_keeps ..) rfl <| .after (Module.setCal_keeps ..) rfl .refl

theorem Module.applyBl_keeps (m : Module) (c : Nat) (r : CalRun) (bl : List Nat) :
    Keeps (Fld.regs ||| Fld.ctxs ||| Fld.cals) m (Module.applyBl m c r bl) := by
  unfold Module.applyBl
  refine .after (Module.calLast_keeps ..) rfl <| .after (Module.setFld_keeps ..) rfl ?_
  refine .ite (fun _ => ?_) fun _ => ?_
  · refine .ite (fun _ => ?_) fun _ => .refl
    exact .after (Module.setCtx_keeps ..) rfl <| .after (Module.shadowBl_keeps ..) rfl .refl
  · refine .after (Module.setCal_keeps ..) rfl ?_
    refine .ite (fun _ => ?_) fun _ => .refl
    exact .after (Module.setCtx_keeps ..) rfl <| .after (Module.shadowBl_keeps ..) rfl .refl

theorem Module.applyMap_keeps (m : Module) (c : Nat) (r : CalRun) (l : List Word) :
    Keeps (Fld.regs ||| Fld.ctxs ||| Fld.cals) m (Module.applyMap m c r l) := by
  unfold Module.applyMap
  refine .after (Module.setCal_keeps ..) rfl <| .after (Module.setCtx_keeps ..) rfl ?_
  exact .after (Module.calLast_keeps ..) rfl <| .after (Module.shadowDefects_keeps ..) rfl .refl

theorem Module.applyAtCopy_keeps (m : Module) (c : Nat) : Keeps (Fld.ctxs ||| Fld.cals) m (Module.applyAtCopy m c) := by
  unfold Module.applyAtCopy
  refine .ite (fun _ => .refl) fun _ => ?_
  exact .after (Module.setCal_keeps ..) rfl <| .after (Module.setCtx_keeps ..) rfl .refl

theorem Module.reportStored_keeps (m : Module) (c : Nat) : Keeps Fld.regs m (Module.reportStored m c) := by
  unfold Module.reportStored
  exact .after (Module.setFld_keeps ..) rfl .refl

theorem Module.calStoreStart_keeps (m : Module) (c : Nat) : Keeps Fld.cals m (Module.calStoreStart m c) := by
  unfold Module.calStoreStart
  exact .after (Module.setCal_keeps ..) rfl .refl

theorem calStoreDone_keeps (c : PortId) (good : Bool) (m : Module) :
    Keeps (Fld.fault ||| Fld.ctxs ||| Fld.cals ||| Fld.flash) m (calStoreDone c good m) := by
  unfold calStoreDone
  dsimp only
  split
  · exact .refl
  · refine .ite (fun _ => ?_) fun _ => ?_
    · refine .after (Module.reportStored_keeps ..) rfl <| .after (Module.setFld_keeps ..) rfl ?_
      refine .after (Module.setCtx_keeps ..) rfl ?_
      refine .upd ?_
      exact .after (Module.satAdd_keeps ..) rfl <| .after (Module.setCal_keeps ..) rfl .refl
    · refine .after (Module.faultSeq_keeps ..) rfl <| .after (Module.open__keeps ..) rfl ?_
      refine .after (Module.setFld_keeps ..) rfl <| .after (Module.setFld_keeps ..) rfl ?_
      exact .after (Module.satAdd_keeps ..) rfl <| .after (Module.setCal_keeps ..) rfl .refl

theorem Module.tornStores_keeps (m : Module) : Keeps (Fld.draws ||| Fld.flash) m (Module.tornStores m) := by
  unfold Module.tornStores
  exact .upd .refl

theorem Module.calPass_keeps (m : Module) (c : Nat) (r : CalRun) (x : CalResult) :
    Keeps (Fld.regs ||| Fld.ctxs ||| Fld.cals) m (Module.calPass m c r x) := by
  unfold Module.calPass
  refine .ite (fun _ => ?_) fun _ => ?_
  · refine .after (Module.calStoreStart_keeps ..) rfl <| .after (Module.reportStored_keeps ..) rfl ?_
    refine .after (Module.reportValid_keeps ..) rfl <| .after (Module.count_keeps ..) rfl ?_
    refine .ite (fun _ => ?_) fun _ => ?_
    · refine .ite (fun _ => ?_) fun _ => .after (Module.setCal_keeps ..) rfl .refl
      refine .after (Module.applyBl_keeps ..) rfl ?_
      exact .after (Module.setCal_keeps ..) rfl <| .after (Module.setCal_keeps ..) rfl .refl
    · refine .ite (fun _ => ?_) fun _ => ?_
      · refine .ite (fun _ => ?_) fun _ => .after (Module.setCal_keeps ..) rfl .refl
        refine .after (Module.calLast_keeps ..) rfl ?_
        exact .after (Module.writeTaps_keeps ..) rfl <| .after (Module.setCal_keeps ..) rfl .refl
      · exact .ite (fun _ => .after (Module.applyMap_keeps ..) rfl .refl) fun _ => .refl
  · refine .after (Module.reportStored_keeps ..) rfl <| .after (Module.reportValid_keeps ..) rfl ?_
    refine .after (Module.count_keeps ..) rfl ?_
    refine .ite (fun _ => ?_) fun _ => ?_
    · refine .ite (fun _ => ?_) fun _ => .after (Module.setCal_keeps ..) rfl .refl
      refine .after (Module.applyBl_keeps ..) rfl ?_
      exact .after (Module.setCal_keeps ..) rfl <| .after (Module.setCal_keeps ..) rfl .refl
    · refine .ite (fun _ => ?_) fun _ => ?_
      · refine .ite (fun _ => ?_) fun _ => .after (Module.setCal_keeps ..) rfl .refl
        refine .after (Module.calLast_keeps ..) rfl ?_
        exact .after (Module.writeTaps_keeps ..) rfl <| .after (Module.setCal_keeps ..) rfl .refl
      · exact .ite (fun _ => .after (Module.applyMap_keeps ..) rfl .refl) fun _ => .refl

theorem Module.calShow_keeps (m : Module) (c : Nat) (r : CalRun) (x : CalResult) :
    Keeps Fld.write m (Module.calShow m c r x) := by
  unfold Module.calShow
  refine .ite (fun _ => ?_) fun _ => ?_
  · refine .ite (fun _ => ?_) fun _ => ?_
    · exact .after (Module.wr_keeps ..) rfl <| .after (Module.wr_keeps ..) rfl .refl
    · refine .after (Module.wr_keeps ..) rfl ?_
      exact .after (Module.wr_keeps ..) rfl <| .after (Module.wr_keeps ..) rfl <| .after (Module.wr_keeps ..) rfl .refl
  · refine .ite (fun _ => .refl) fun _ => ?_
    dsimp only
    split
    · refine .ite (fun _ => ?_) fun _ => ?_
      · refine .after (Module.write_keeps ..) rfl ?_
        exact .after (Module.setFld_keeps ..) rfl <| .after (Module.setFld_keeps ..) rfl .refl
      · exact .after (Module.setFld_keeps ..) rfl <| .after (Module.setFld_keeps ..) rfl .refl
    · exact .after (Module.setFld_keeps ..) rfl <| .after (Module.setFld_keeps ..) rfl .refl

theorem calResultReady_keeps (c : PortId) (m : Module) : Keeps (Fld.write ||| Fld.camera) m (calResultReady c m) := by
  unfold calResultReady
  refine Module.firmware_keeps (hb := .refl) (hf := fun _ _ => ?_) (hs := rfl) ..
  dsimp only
  split
  · assumption
  · refine .ite (fun _ => (by assumption)) fun _ => ?_
    refine .ite (fun _ => .after (Module.calEnd_keeps ..) rfl (by assumption)) fun _ => ?_
    refine .ite (fun _ => ?_) fun _ => ?_
    · refine .after (Module.count_keeps ..) rfl <| .after (Module.calEnd_keeps ..) rfl ?_
      exact .after (Module.calShow_keeps ..) rfl <| .after (Module.setCal_keeps ..) rfl (by assumption)
    · refine .ite (fun _ => ?_) fun _ => ?_
      · refine .after (Module.calEnd_keeps ..) rfl <| .after (Module.calPass_keeps ..) rfl ?_
        exact .after (Module.calShow_keeps ..) rfl <| .after (Module.setCal_keeps ..) rfl (by assumption)
      · refine .ite (fun _ => ?_) fun _ => ?_
        · refine .after (Module.count_keeps ..) rfl <| .after (Module.calEnd_keeps ..) rfl ?_
          exact .after (Module.calShow_keeps ..) rfl <| .after (Module.setCal_keeps ..) rfl (by assumption)
        · refine .ite (fun _ => ?_) fun _ => ?_
          · refine .after (Module.count_keeps ..) rfl <| .after (Module.calEnd_keeps ..) rfl ?_
            exact .after (Module.calShow_keeps ..) rfl <| .after (Module.setCal_keeps ..) rfl (by assumption)
          · refine .after (Module.calBegin_keeps ..) rfl <| .after (Module.setFld_keeps ..) rfl ?_
            exact .after (Module.calShow_keeps ..) rfl <| .after (Module.setCal_keeps ..) rfl (by assumption)

theorem Module.track_keeps (m : Module) (c : Nat) (s : ParamSet) (ob : List Nat) :
    Keeps (Fld.event ||| Fld.ctxs) m (Module.track m c s ob) := by
  unfold Module.track
  refine .ite (fun _ => .refl) fun _ => ?_
  refine .ite (fun _ => ?_) fun _ => ?_
  · refine .ite (fun _ => .after (Module.setCtx_keeps ..) rfl .refl) fun _ => ?_
    exact .after (Module.setCtx_keeps ..) rfl .refl
  · refine .ite (fun _ => ?_) fun _ => ?_
    · refine .after (Module.raiseCtx_keeps ..) rfl ?_
      exact .after (Module.count_keeps ..) rfl <| .after (Module.setCtx_keeps ..) rfl .refl
    · exact .after (Module.count_keeps ..) rfl <| .after (Module.setCtx_keeps ..) rfl .refl

theorem trimUpdate_keeps (c : PortId) (m : Module) : Keeps Fld.ctxs m (trimUpdate c m) := by
  unfold trimUpdate
  refine Module.firmware_keeps (hb := .refl) (hf := fun _ _ => ?_) (hs := rfl) ..
  dsimp only
  split
  · assumption
  · refine .ite (fun _ => .after (Module.setCtx_keeps ..) rfl (by assumption)) fun _ => ?_
    exact .after (Module.setCtx_keeps ..) rfl (by assumption)

theorem Module.calLoad_keeps (m : Module) (c : Nat) (r : CalCopy) :
    Keeps (Fld.regs ||| Fld.ctxs ||| Fld.cals) m (Module.calLoad m c r) := by
  unfold Module.calLoad
  refine .after (Module.setFld_keeps ..) rfl <| .after (Module.reportStored_keeps ..) rfl ?_
  refine .after (Module.setFld_keeps ..) rfl <| .after (Module.setCal_keeps ..) rfl ?_
  refine .after (Module.setCtx_keeps ..) rfl <| .after (Module.setFld_keeps ..) rfl ?_
  refine .after (Module.setFld_keeps ..) rfl <| .after (Module.setFld_keeps ..) rfl ?_
  refine .after (Module.setFld_keeps ..) rfl <| .after (Module.setFld_keeps ..) rfl ?_
  refine .after (Module.setFld_keeps ..) rfl <| .after (Module.setFld_keeps ..) rfl ?_
  refine .after (Module.shadowDefects_keeps ..) rfl <| .after (Module.shadowBl_keeps ..) rfl ?_
  refine .after (Module.setFld_keeps ..) rfl ?_
  exact .after (Module.wr_keeps ..) rfl <| .foldl (fun _ _ => .after (Module.wr_keeps ..) rfl .refl) _ .refl

theorem Module.calRestore_keeps (m : Module) (c : Nat) :
    Keeps (Fld.regs ||| Fld.ctxs ||| Fld.cals) m (Module.calRestore m c) := by
  unfold Module.calRestore
  dsimp only
  split
  · refine .ite (fun _ => ?_) fun _ => ?_
    · refine .after (Module.calLoad_keeps ..) rfl <| .after (Module.setFld_keeps ..) rfl ?_
      exact .after (Module.setFld_keeps ..) rfl <| .after (Module.setCal_keeps ..) rfl .refl
    · refine .after (Module.setFld_keeps ..) rfl ?_
      exact .after (Module.setFld_keeps ..) rfl <| .after (Module.setCal_keeps ..) rfl .refl
  · refine .after (Module.setFld_keeps ..) rfl ?_
    exact .after (Module.setFld_keeps ..) rfl <| .after (Module.setCal_keeps ..) rfl .refl

theorem Module.calTrigger_keeps (m : Module) (c : Nat) : Keeps (Fld.write ||| Fld.camera) m (Module.calTrigger m c) := by
  unfold Module.calTrigger
  refine .ite (fun _ => .refl) fun _ => ?_
  refine .ite (fun _ => .refl) fun _ => ?_
  refine .ite (fun _ => .after (Module.calStart_keeps ..) rfl .refl) fun _ => ?_
  exact .after (Module.raiseCtx_keeps ..) rfl .refl

theorem Module.calCtl_keeps (m : Module) (c : Nat) (v : Word) :
    Keeps (Fld.write ||| Fld.camera) m (Module.calCtl m c v).2 := by
  unfold Module.calCtl
  dsimp only
  split
  · refine .after (Module.calStart_keeps ..) rfl ?_
    refine .ite (fun _ => ?_) fun _ => ?_
    · refine .after (Module.calStoreStart_keeps ..) rfl ?_
      exact .ite (fun _ => .after (Module.calAbort_keeps ..) rfl .refl) fun _ => .refl
    · exact .ite (fun _ => .after (Module.calAbort_keeps ..) rfl .refl) fun _ => .refl
  · dsimp only
    refine .ite (fun _ => ?_) fun _ => ?_
    · refine .after (Module.calStoreStart_keeps ..) rfl ?_
      exact .ite (fun _ => .after (Module.calAbort_keeps ..) rfl .refl) fun _ => .refl
    · exact .ite (fun _ => .after (Module.calAbort_keeps ..) rfl .refl) fun _ => .refl

theorem Module.setFrame_keeps (m : Module) (p : Nat) (f : Option PortFrame) : Keeps Fld.ports m (Module.setFrame m p f) := by
  unfold Module.setFrame
  exact .after (Module.setPort_keeps ..) rfl .refl

theorem Module.adjustLane_keeps (m : Module) (c : Nat) (n : Word) (f : LaneFrame → LaneFrame) :
    Keeps Fld.ctxs m (Module.adjustLane m c n f) := by
  unfold Module.adjustLane
  exact .ite (fun _ => .after (Module.setCtx_keeps ..) rfl .refl) fun _ => .refl

theorem Module.disablePort_keeps (m : Module) (p : Nat) : Keeps (Fld.event ||| Fld.camera) m (Module.disablePort m p) := by
  unfold Module.disablePort
  refine .after (Module.setFld_keeps ..) rfl <| .after (Module.reportFill_keeps ..) rfl ?_
  refine .after (Module.wr_keeps ..) rfl <| .after (Module.wr_keeps ..) rfl ?_
  exact .after (Module.setPort_keeps ..) rfl <| .after (Module.calAbort_keeps ..) rfl .refl

theorem Module.enablePort_keeps (m : Module) (p : Nat) :
    Keeps (Fld.regs ||| Fld.seqNext ||| Fld.seqLast ||| Fld.ctxs ||| Fld.cals) m (Module.enablePort m p) := by
  unfold Module.enablePort
  refine .after (Module.calRestore_keeps ..) rfl ?_
  exact .after (Module.setPortState_keeps ..) rfl <| .after (Module.setCtx_keeps ..) rfl <| .upd .refl

theorem Module.portCfgWrite_keeps (m : Module) (p : Nat) (v : Word) :
    Keeps (Fld.event ||| Fld.camera ||| Fld.seqNext ||| Fld.seqLast) m (Module.portCfgWrite m p v).2 := by
  unfold Module.portCfgWrite
  dsimp only
  split
  · dsimp only
    exact .refl
  · split
    · dsimp only
      exact .after (Module.enablePort_keeps ..) rfl <| .after (Module.wr_keeps ..) rfl .refl
    · split
      · dsimp only
        refine .after (Module.disablePort_keeps ..) rfl ?_
        exact .after (Module.trainAbort_keeps ..) rfl <| .after (Module.wr_keeps ..) rfl .refl
      · dsimp only
        refine .after (Module.reportStored_keeps ..) rfl ?_
        exact .after (Module.reportValid_keeps ..) rfl <| .after (Module.wr_keeps ..) rfl .refl

theorem rstLowExpiry_keeps (p : PortId) (m : Module) : Keeps Fld.ports m (rstLowExpiry p m) := by
  unfold rstLowExpiry
  exact .ite (fun _ => .after (Module.setPort_keeps ..) rfl .refl) fun _ => .refl

theorem rstSettleExpiry_keeps (p : PortId) (m : Module) :
    Keeps (Fld.regs ||| Fld.now ||| Fld.draws ||| Fld.outbox ||| Fld.ports) m (rstSettleExpiry p m) := by
  unfold rstSettleExpiry
  refine .ite (fun _ => ?_) fun _ => .refl
  refine .after (Module.setPortState_keeps ..) rfl <| .after (Module.setPort_keeps ..) rfl ?_
  refine .after (Module.tick_keeps ..) rfl ?_
  refine .ite (fun _ => ?_) fun _ => .refl
  exact .after (Module.emit_keeps ..) rfl <| .after (Module.emit_keeps ..) rfl .refl

theorem Module.closeLine_keeps (m : Module) (p : Nat) (pixels : List W16) (lost cut : Bool) :
    Keeps (Fld.regs ||| Fld.ports ||| Fld.ctxs) m (Module.closeLine m p pixels lost cut) := by
  unfold Module.closeLine
  dsimp only
  split
  · exact .refl
  · split
    · exact .refl
    · refine .ite (fun _ => .after (Module.setFrame_keeps ..) rfl .refl) fun _ => ?_
      exact .foldl (fun _ _ => .after (Module.count_keeps ..) rfl .refl) _ (.after (Module.setFrame_keeps ..) rfl <|
        .after (Module.adjustLane_keeps ..) rfl .refl)

theorem Module.driftCheck_keeps (m : Module) (p : Nat) (f : PortFrame) : Keeps Fld.event m (Module.driftCheck m p f) := by
  unfold Module.driftCheck
  refine .ite (fun _ => ?_) fun _ => ?_
  · refine .ite (fun _ => ?_) fun _ => .after (Module.setFld_keeps ..) rfl .refl
    refine .after (Module.raiseCtx_keeps ..) rfl ?_
    exact .after (Module.setFld_keeps ..) rfl <| .after (Module.setFld_keeps ..) rfl .refl
  · exact .after (Module.setFld_keeps ..) rfl <| .after (Module.setFld_keeps ..) rfl .refl

theorem Module.contextFrameEnd_keeps (m : Module) (c : Nat) (e : Meas) :
    Keeps (Fld.write ||| Fld.camera) m (Module.contextFrameEnd m c e) := by
  unfold Module.contextFrameEnd
  refine .after (Module.calTrigger_keeps ..) rfl <| .after (Module.reportStored_keeps ..) rfl ?_
  refine .after (Module.reportValid_keeps ..) rfl <| .after (Module.copySet_keeps ..) rfl ?_
  refine .after (Module.applyAtCopy_keeps ..) rfl <| .after (Module.setCtx_keeps ..) rfl ?_
  refine .ite (fun _ => ?_) fun _ => ?_
  · refine .after (Module.calFrame_keeps ..) rfl ?_
    dsimp only
    split
    · exact .refl
    · refine .after (Module.adjustLane_keeps ..) rfl ?_
      refine .ite (fun _ => ?_) fun _ => ?_
      · exact .after (Module.calFrame_keeps ..) rfl <|
          .ite (fun _ => .after (Module.track_keeps ..) rfl .refl) fun _ => .refl
      · exact .ite (fun _ => .after (Module.track_keeps ..) rfl .refl) fun _ => .refl
  · dsimp only
    split
    · exact .refl
    · refine .after (Module.adjustLane_keeps ..) rfl ?_
      refine .ite (fun _ => ?_) fun _ => ?_
      · exact .after (Module.calFrame_keeps ..) rfl <|
          .ite (fun _ => .after (Module.track_keeps ..) rfl .refl) fun _ => .refl
      · exact .ite (fun _ => .after (Module.track_keeps ..) rfl .refl) fun _ => .refl

theorem Module.leaveActive_keeps (m : Module) (p : Nat) : Keeps (Fld.regs ||| Fld.ports) m (Module.leaveActive m p) := by
  unfold Module.leaveActive
  dsimp only
  split
  · refine .ite (fun _ => ?_) fun _ => .refl
    refine .after (Module.setPort_keeps ..) rfl ?_
    exact .after (Module.wr_keeps ..) rfl <| .after (Module.setPortState_keeps ..) rfl .refl
  · exact .refl

theorem Module.closeFrame_keeps (m : Module) (p t : Nat) (pixels : List W16) (lost cut : Bool) :
    Keeps (Fld.write ||| Fld.camera) m (Module.closeFrame m p t pixels lost cut) := by
  unfold Module.closeFrame
  dsimp only
  split
  · exact .after (Module.closeLine_keeps ..) rfl .refl
  · refine .after (Module.leaveActive_keeps ..) rfl <| .after (Module.releaseBatches_keeps ..) rfl ?_
    refine .after (Module.contextFrameEnd_keeps ..) rfl <| .after (Module.driftCheck_keeps ..) rfl ?_
    refine .after (Module.setFld_keeps ..) rfl <| .after (Module.setPort_keeps ..) rfl ?_
    refine .after (Module.tick_keeps ..) rfl <| .after (Module.adjustLane_keeps ..) rfl ?_
    refine .ite (fun _ => ?_) fun _ => ?_
    · refine .after (Module.count_keeps ..) rfl ?_
      refine .ite (fun _ => ?_) fun _ => .after (Module.closeLine_keeps ..) rfl .refl
      exact .after (Module.count_keeps ..) rfl <| .after (Module.closeLine_keeps ..) rfl .refl
    · refine .ite (fun _ => ?_) fun _ => .after (Module.closeLine_keeps ..) rfl .refl
      exact .after (Module.count_keeps ..) rfl <| .after (Module.closeLine_keeps ..) rfl .refl

theorem frameEnd_keeps (p : PortId) (t : Nat) (tail : List W16) (m : Module) :
    Keeps (Fld.write ||| Fld.camera) m (frameEnd p t tail m) := by
  unfold frameEnd
  dsimp only
  split
  · exact .refl
  · exact .ite (fun _ => .refl) fun _ => .after (Module.closeFrame_keeps ..) rfl .refl

theorem Module.signalLost_keeps (m : Module) (p t : Nat) (pixels : List W16) :
    Keeps (Fld.write ||| Fld.camera) m (Module.signalLost m p t pixels) := by
  unfold Module.signalLost
  dsimp only
  split
  · exact .after (Module.closeLine_keeps ..) rfl .refl
  · refine .after (Module.closeFrame_keeps ..) rfl <| .after (Module.raiseCtx_keeps ..) rfl ?_
    refine .after (Module.setFld_keeps ..) rfl <| .after (Module.count_keeps ..) rfl ?_
    exact .after (Module.setFrame_keeps ..) rfl <| .after (Module.closeLine_keeps ..) rfl .refl

theorem pclkLossTimeout_keeps (p : PortId) (t : Nat) (pixels : List W16) (m : Module) :
    Keeps (Fld.write ||| Fld.camera) m (pclkLossTimeout p t pixels m) := by
  unfold pclkLossTimeout
  split
  · exact .ite (fun _ => .after (Module.signalLost_keeps ..) rfl .refl) fun _ => .refl
  · exact .refl

theorem frameEndTimeout_keeps (p : PortId) (t : Nat) (tail : List W16) (m : Module) :
    Keeps (Fld.write ||| Fld.camera) m (frameEndTimeout p t tail m) := by
  unfold frameEndTimeout
  split
  · exact .ite (fun _ => .after (Module.signalLost_keeps ..) rfl .refl) fun _ => .refl
  · exact .refl

theorem Module.enterActive_keeps (m : Module) (p : Nat) :
    Keeps (Fld.regs ||| Fld.ports ||| Fld.streams) m (Module.enterActive m p) := by
  unfold Module.enterActive
  dsimp only
  split
  · refine .ite (fun _ => ?_) fun _ => .refl
    refine .after (Module.setPort_keeps ..) rfl ?_
    refine .upd ?_
    exact .after (Module.wr_keeps ..) rfl <| .after (Module.setPortState_keeps ..) rfl .refl
  · exact .refl

theorem Module.zeroCounts_keeps (m : Module) (c : Nat) : Keeps Fld.write m (Module.zeroCounts m c) := by
  unfold Module.zeroCounts
  dsimp only
  split
  · exact .refl
  · exact .foldl (fun _ _ => .ite (fun _ => .after (Module.zero_keeps ..) rfl .refl) fun _ => .refl) _ .refl

theorem Module.historyStart_keeps (m : Module) (c : Nat) : Keeps (Fld.write ||| Fld.ctxs) m (Module.historyStart m c) := by
  unfold Module.historyStart
  refine .after (Module.setFld_keeps ..) rfl <| .after (Module.setFld_keeps ..) rfl ?_
  refine .ite (fun _ => ?_) fun _ => .after (Module.setCtx_keeps ..) rfl .refl
  exact .after (Module.zeroCounts_keeps ..) rfl <| .after (Module.setCtx_keeps ..) rfl .refl

theorem Module.writeBlocks_keeps (m : Module) (c f : Nat) (set : ParamSet) :
    Keeps Fld.write m (Module.writeBlocks m c f set) := by
  unfold Module.writeBlocks
  split
  · exact .refl
  · exact .foldl (fun _ _ => .after (Module.write_keeps ..) rfl .refl) _ .refl

theorem Module.laneStart_keeps (m : Module) (c : Nat) (n : Word) (sof : Stamp) :
    Keeps (Fld.write ||| Fld.ctxs) m (Module.laneStart m c n sof) := by
  unfold Module.laneStart
  refine .ite (fun _ => ?_) fun _ => .after (Module.setCtx_keeps ..) rfl .refl
  refine .after (Module.setCtx_keeps ..) rfl <| .after (Module.historyStart_keeps ..) rfl ?_
  refine .after (Module.writeBlocks_keeps ..) rfl ?_
  exact .after (Module.wr_keeps ..) rfl <| .after (Module.setCtx_keeps ..) rfl <| .after (Module.setCtx_keeps ..) rfl .refl

theorem Module.resumeAtStart_keeps (m : Module) (c : Nat) :
    Keeps (Fld.regs ||| Fld.streams) m (Module.resumeAtStart m c) := by
  unfold Module.resumeAtStart
  dsimp only
  split
  · exact .refl
  · refine .upd ?_
    exact .foldl (fun _ _ => .after (Module.setFld_keeps ..) rfl .refl) _ .refl

theorem Module.copyFirst_keeps (m : Module) (c : Nat) (n : Word) :
    Keeps (Fld.regs ||| Fld.ctxs) m (Module.copyFirst m c n) := by
  unfold Module.copyFirst
  split
  · exact .ite (fun _ => .after (Module.copySet_keeps ..) rfl .refl) fun _ => .refl
  · exact .refl

theorem frameStart_keeps (p : PortId) (t : Nat) (tail : List W16) (m : Module) :
    Keeps (Fld.write ||| Fld.camera ||| Fld.seqNext ||| Fld.seqLast ||| Fld.streams) m (frameStart p t tail m) := by
  unfold frameStart
  refine .ite (fun _ => .refl) fun _ => ?_
  dsimp only
  refine .after (Module.reportEsid_keeps ..) rfl <| .after (Module.releaseBatches_keeps ..) rfl ?_
  refine .after (Module.issueExposure_keeps ..) rfl ?_
  refine .ite (fun _ => ?_) fun _ => ?_
  · refine .ite (fun _ => ?_) fun _ => ?_
    · refine .after (Module.laneStart_keeps ..) rfl <| .after (Module.copyFirst_keeps ..) rfl ?_
      refine .ite (fun _ => ?_) fun _ => ?_
      · refine .ite (fun _ => ?_) fun _ => ?_
        · refine .after (Module.count_keeps ..) rfl <| .after (Module.calMark_keeps ..) rfl ?_
          refine .after (Module.setFld_keeps ..) rfl <| .after (Module.setFld_keeps ..) rfl ?_
          refine .after (Module.setPort_keeps ..) rfl <| .after (Module.tick_keeps ..) rfl ?_
          refine .after (Module.enterActive_keeps ..) rfl ?_
          refine .upd ?_
          exact .after (Module.closeFrame_keeps ..) rfl .refl
        · refine .after (Module.raiseCtx_keeps ..) rfl <| .after (Module.count_keeps ..) rfl ?_
          refine .after (Module.calMark_keeps ..) rfl <| .after (Module.setFld_keeps ..) rfl ?_
          refine .after (Module.setFld_keeps ..) rfl <| .after (Module.setPort_keeps ..) rfl ?_
          refine .after (Module.tick_keeps ..) rfl <| .after (Module.enterActive_keeps ..) rfl ?_
          refine .upd ?_
          exact .after (Module.closeFrame_keeps ..) rfl .refl
      · refine .after (Module.calMark_keeps ..) rfl <| .after (Module.setFld_keeps ..) rfl ?_
        refine .after (Module.setFld_keeps ..) rfl <| .after (Module.setPort_keeps ..) rfl ?_
        refine .after (Module.tick_keeps ..) rfl <| .after (Module.enterActive_keeps ..) rfl ?_
        refine .upd ?_
        exact .after (Module.closeFrame_keeps ..) rfl .refl
    · refine .after (Module.copyFirst_keeps ..) rfl ?_
      refine .ite (fun _ => ?_) fun _ => ?_
      · refine .ite (fun _ => ?_) fun _ => ?_
        · refine .after (Module.count_keeps ..) rfl <| .after (Module.calMark_keeps ..) rfl ?_
          refine .after (Module.setFld_keeps ..) rfl <| .after (Module.setFld_keeps ..) rfl ?_
          refine .after (Module.setPort_keeps ..) rfl <| .after (Module.tick_keeps ..) rfl ?_
          refine .after (Module.enterActive_keeps ..) rfl ?_
          refine .upd ?_
          exact .after (Module.closeFrame_keeps ..) rfl .refl
        · refine .after (Module.raiseCtx_keeps ..) rfl <| .after (Module.count_keeps ..) rfl ?_
          refine .after (Module.calMark_keeps ..) rfl <| .after (Module.setFld_keeps ..) rfl ?_
          refine .after (Module.setFld_keeps ..) rfl <| .after (Module.setPort_keeps ..) rfl ?_
          refine .after (Module.tick_keeps ..) rfl <| .after (Module.enterActive_keeps ..) rfl ?_
          refine .upd ?_
          exact .after (Module.closeFrame_keeps ..) rfl .refl
      · refine .after (Module.calMark_keeps ..) rfl <| .after (Module.setFld_keeps ..) rfl ?_
        refine .after (Module.setFld_keeps ..) rfl <| .after (Module.setPort_keeps ..) rfl ?_
        refine .after (Module.tick_keeps ..) rfl <| .after (Module.enterActive_keeps ..) rfl ?_
        refine .upd ?_
        exact .after (Module.closeFrame_keeps ..) rfl .refl
  · refine .after (Module.resumeAtStart_keeps ..) rfl ?_
    refine .ite (fun _ => ?_) fun _ => ?_
    · refine .after (Module.laneStart_keeps ..) rfl <| .after (Module.copyFirst_keeps ..) rfl ?_
      refine .ite (fun _ => ?_) fun _ => ?_
      · refine .ite (fun _ => ?_) fun _ => ?_
        · refine .after (Module.count_keeps ..) rfl <| .after (Module.calMark_keeps ..) rfl ?_
          refine .after (Module.setFld_keeps ..) rfl <| .after (Module.setFld_keeps ..) rfl ?_
          refine .after (Module.setPort_keeps ..) rfl <| .after (Module.tick_keeps ..) rfl ?_
          refine .after (Module.enterActive_keeps ..) rfl ?_
          refine .upd ?_
          exact .after (Module.closeFrame_keeps ..) rfl .refl
        · refine .after (Module.raiseCtx_keeps ..) rfl <| .after (Module.count_keeps ..) rfl ?_
          refine .after (Module.calMark_keeps ..) rfl <| .after (Module.setFld_keeps ..) rfl ?_
          refine .after (Module.setFld_keeps ..) rfl <| .after (Module.setPort_keeps ..) rfl ?_
          refine .after (Module.tick_keeps ..) rfl <| .after (Module.enterActive_keeps ..) rfl ?_
          refine .upd ?_
          exact .after (Module.closeFrame_keeps ..) rfl .refl
      · refine .after (Module.calMark_keeps ..) rfl <| .after (Module.setFld_keeps ..) rfl ?_
        refine .after (Module.setFld_keeps ..) rfl <| .after (Module.setPort_keeps ..) rfl ?_
        refine .after (Module.tick_keeps ..) rfl <| .after (Module.enterActive_keeps ..) rfl ?_
        refine .upd ?_
        exact .after (Module.closeFrame_keeps ..) rfl .refl
    · refine .after (Module.copyFirst_keeps ..) rfl ?_
      refine .ite (fun _ => ?_) fun _ => ?_
      · refine .ite (fun _ => ?_) fun _ => ?_
        · refine .after (Module.count_keeps ..) rfl <| .after (Module.calMark_keeps ..) rfl ?_
          refine .after (Module.setFld_keeps ..) rfl <| .after (Module.setFld_keeps ..) rfl ?_
          refine .after (Module.setPort_keeps ..) rfl <| .after (Module.tick_keeps ..) rfl ?_
          refine .after (Module.enterActive_keeps ..) rfl ?_
          refine .upd ?_
          exact .after (Module.closeFrame_keeps ..) rfl .refl
        · refine .after (Module.raiseCtx_keeps ..) rfl <| .after (Module.count_keeps ..) rfl ?_
          refine .after (Module.calMark_keeps ..) rfl <| .after (Module.setFld_keeps ..) rfl ?_
          refine .after (Module.setFld_keeps ..) rfl <| .after (Module.setPort_keeps ..) rfl ?_
          refine .after (Module.tick_keeps ..) rfl <| .after (Module.enterActive_keeps ..) rfl ?_
          refine .upd ?_
          exact .after (Module.closeFrame_keeps ..) rfl .refl
      · refine .after (Module.calMark_keeps ..) rfl <| .after (Module.setFld_keeps ..) rfl ?_
        refine .after (Module.setFld_keeps ..) rfl <| .after (Module.setPort_keeps ..) rfl ?_
        refine .after (Module.tick_keeps ..) rfl <| .after (Module.enterActive_keeps ..) rfl ?_
        refine .upd ?_
        exact .after (Module.closeFrame_keeps ..) rfl .refl

theorem portLineStart_keeps (p : PortId) (t hblank : Nat) (tail : List W16) (m : Module) :
    Keeps (Fld.event ||| Fld.ports ||| Fld.ctxs) m (portLineStart p t hblank tail m) := by
  unfold portLineStart
  dsimp only
  split
  · exact .after (Module.closeLine_keeps ..) rfl .refl
  · refine .ite (fun _ => ?_) fun _ => ?_
    · exact .after (Module.setFrame_keeps ..) rfl <| .after (Module.closeLine_keeps ..) rfl .refl
    · split
      · refine .ite (fun _ => ?_) fun _ => ?_
        · refine .after (Module.raiseCtx_keeps ..) rfl ?_
          refine .ite (fun _ => ?_) fun _ => ?_
          · refine .after (Module.adjustLane_keeps ..) rfl <| .after (Module.setFrame_keeps ..) rfl ?_
            exact .after (Module.setFrame_keeps ..) rfl <| .after (Module.closeLine_keeps ..) rfl .refl
          · refine .after (Module.exposureMark_keeps ..) rfl <| .after (Module.adjustLane_keeps ..) rfl ?_
            refine .after (Module.setFrame_keeps ..) rfl ?_
            exact .after (Module.setFrame_keeps ..) rfl <| .after (Module.closeLine_keeps ..) rfl .refl
        · exact .after (Module.setFrame_keeps ..) rfl <| .after (Module.closeLine_keeps ..) rfl .refl
      · refine .after (Module.setFrame_keeps ..) rfl ?_
        refine .ite (fun _ => ?_) fun _ => ?_
        · refine .after (Module.raiseCtx_keeps ..) rfl ?_
          refine .ite (fun _ => ?_) fun _ => ?_
          · refine .after (Module.adjustLane_keeps ..) rfl <| .after (Module.setFrame_keeps ..) rfl ?_
            exact .after (Module.setFrame_keeps ..) rfl <| .after (Module.closeLine_keeps ..) rfl .refl
          · refine .after (Module.exposureMark_keeps ..) rfl <| .after (Module.adjustLane_keeps ..) rfl ?_
            refine .after (Module.setFrame_keeps ..) rfl ?_
            exact .after (Module.setFrame_keeps ..) rfl <| .after (Module.closeLine_keeps ..) rfl .refl
        · exact .after (Module.setFrame_keeps ..) rfl <| .after (Module.closeLine_keeps ..) rfl .refl

theorem portLineEnd_keeps (p : PortId) (_tx : Nat) (pixels : List W16) (m : Module) :
    Keeps (Fld.regs ||| Fld.ports ||| Fld.ctxs) m (portLineEnd p _tx pixels m) := by
  unfold portLineEnd
  exact .ite (fun _ => .refl) fun _ => .after (Module.closeLine_keeps ..) rfl .refl

theorem Module.wrStamp_keeps (m : Module) (p i : Nat) (s : Option Stamp) : Keeps Fld.regs m (Module.wrStamp m p i s) := by
  unfold Module.wrStamp
  split
  · exact .after (Module.wr_keeps ..) rfl <| .after (Module.wr_keeps ..) rfl <| .after (Module.wr_keeps ..) rfl .refl
  · exact .after (Module.wr_keeps ..) rfl <| .after (Module.wr_keeps ..) rfl <| .after (Module.wr_keeps ..) rfl .refl

theorem Module.measCopy_keeps (m : Module) (p : Nat) : Keeps Fld.regs m (Module.measCopy m p) := by
  unfold Module.measCopy
  dsimp only
  split
  · exact .refl
  · refine .after (Module.wrStamp_keeps ..) rfl <| .after (Module.wrStamp_keeps ..) rfl ?_
    refine .after (Module.wrStamp_keeps ..) rfl <| .after (Module.wrStamp_keeps ..) rfl ?_
    refine .after (Module.wr_keeps ..) rfl <| .after (Module.wr_keeps ..) rfl ?_
    refine .after (Module.wr_keeps ..) rfl <| .after (Module.wr_keeps ..) rfl ?_
    exact .after (Module.wr_keeps ..) rfl <| .after (Module.wr_keeps ..) rfl <| .after (Module.wr_keeps ..) rfl .refl

theorem strobeEdge_keeps (p : PortId) (m : Module) :
    Keeps (Fld.now ||| Fld.draws ||| Fld.ports ||| Fld.ctxs) m (strobeEdge p m) := by
  unfold strobeEdge
  refine .ite (fun _ => .refl) fun _ => ?_
  dsimp only
  split
  · exact .after (Module.setFrame_keeps ..) rfl <| .after (Module.tick_keeps ..) rfl .refl
  · split
    · exact .after (Module.tick_keeps ..) rfl .refl
    · refine .ite (fun _ => .after (Module.tick_keeps ..) rfl .refl) fun _ => ?_
      refine .after (Module.adjustLane_keeps ..) rfl ?_
      exact .after (Module.setPort_keeps ..) rfl <| .after (Module.tick_keeps ..) rfl .refl

theorem Module.trigCfgWrite_keeps (m : Module) (p : Nat) (v : Word) :
    Keeps (Fld.regs ||| Fld.now ||| Fld.draws ||| Fld.ports) m (Module.trigCfgWrite m p v) := by
  unfold Module.trigCfgWrite
  refine .ite (fun _ => .after (Module.wr_keeps ..) rfl .refl) fun _ => ?_
  exact .after (Module.setPort_keeps ..) rfl <| .after (Module.tick_keeps ..) rfl <| .after (Module.wr_keeps ..) rfl .refl

theorem trigFreeRunPulse_keeps (p : PortId) (m : Module) :
    Keeps (Fld.now ||| Fld.draws ||| Fld.ports) m (trigFreeRunPulse p m) := by
  unfold trigFreeRunPulse
  refine .ite (fun _ => ?_) fun _ => .refl
  exact .after (Module.setPort_keeps ..) rfl <| .after (Module.tick_keeps ..) rfl .refl

theorem trigNetTimePulse_keeps (p : PortId) (m : Module) :
    Keeps (Fld.now ||| Fld.draws ||| Fld.ports) m (trigNetTimePulse p m) := by
  unfold trigNetTimePulse
  refine .ite (fun _ => .refl) fun _ => ?_
  refine .ite (fun _ => ?_) fun _ => .after (Module.tick_keeps ..) rfl .refl
  exact .after (Module.setPort_keeps ..) rfl <| .after (Module.tick_keeps ..) rfl .refl

theorem trigPulseEnd_keeps (p : PortId) (m : Module) : Keeps Fld.ports m (trigPulseEnd p m) := by
  unfold trigPulseEnd
  exact .after (Module.setPort_keeps ..) rfl .refl

theorem Module.trainCtl_keeps (m : Module) (p : Nat) (v : Word) :
    Keeps (Fld.event ||| Fld.camera) m (Module.trainCtl m p v).2 := by
  unfold Module.trainCtl
  split
  · split
    · dsimp only
      refine .after (Module.wr_keeps ..) rfl ?_
      exact .after (Module.setPortState_keeps ..) rfl <| .after (Module.calAbort_keeps ..) rfl .refl
    · dsimp only
      exact .refl
  · split
    · dsimp only
      exact .after (Module.calAbort_keeps ..) rfl <| .after (Module.trainAbort_keeps ..) rfl .refl
    · dsimp only
      exact .refl

theorem Module.trainEnd_keeps (m : Module) (p result line eye : Nat) :
    Keeps Fld.regs m (Module.trainEnd m p result line eye) := by
  unfold Module.trainEnd
  exact .after (Module.setPortState_keeps ..) rfl <| .after (Module.wr_keeps ..) rfl .refl

theorem Module.trainResult_keeps (m : Module) (p : Nat) (x : List Nat × Nat × Nat) :
    Keeps Fld.cals m (Module.trainResult m p x) := by
  unfold Module.trainResult
  dsimp only
  split
  · exact .ite (fun _ => .after (Module.setCal_keeps ..) rfl .refl) fun _ => .refl
  · exact .refl

theorem trainNoSignalTimeout_keeps (p : PortId) (m : Module) :
    Keeps (Fld.regs ||| Fld.cals) m (trainNoSignalTimeout p m) := by
  unfold trainNoSignalTimeout
  refine .ite (fun _ => ?_) fun _ => .refl
  exact .after (Module.trainResult_keeps ..) rfl <| .after (Module.trainEnd_keeps ..) rfl .refl

theorem trainDone_keeps (p : PortId) (sweep : List (List (Bool × W16))) (verify : List (Bool × W16)) (m : Module) :
    Keeps (Fld.regs ||| Fld.cals) m (trainDone p sweep verify m) := by
  unfold trainDone
  refine .ite (fun _ => .refl) fun _ => ?_
  dsimp only
  split
  · exact .after (Module.trainResult_keeps ..) rfl <| .after (Module.trainEnd_keeps ..) rfl .refl
  · refine .ite (fun _ => .refl) fun _ => ?_
    refine .ite (fun _ => ?_) fun _ => ?_
    · exact .after (Module.trainResult_keeps ..) rfl <| .after (Module.trainEnd_keeps ..) rfl .refl
    · refine .ite (fun _ => ?_) fun _ => ?_
      · exact .after (Module.trainResult_keeps ..) rfl <| .after (Module.trainEnd_keeps ..) rfl .refl
      · refine .after (Module.reportStored_keeps ..) rfl <| .after (Module.writeTaps_keeps ..) rfl ?_
        exact .after (Module.trainResult_keeps ..) rfl <| .after (Module.trainEnd_keeps ..) rfl .refl

theorem Module.edgeLine_keeps (m : Module) (c : Nat) (g : StripeGeom) : Keeps Fld.draws m (Module.edgeLine m c g).2 := by
  unfold Module.edgeLine
  dsimp only
  split
  · dsimp only
    exact .upd .refl
  · dsimp only
    exact .refl

theorem Module.laneTidy_keeps (m : Module) (c : Nat) : Keeps Fld.ctxs m (Module.laneTidy m c) := by
  unfold Module.laneTidy
  exact .after (Module.setCtx_keeps ..) rfl .refl

theorem Module.putLane_keeps (m : Module) (c : Nat) (f : LaneFrame) : Keeps Fld.ctxs m (Module.putLane m c f) := by
  unfold Module.putLane
  exact .after (Module.adjustLane_keeps ..) rfl .refl

theorem laneLineStart_keeps (c : PortId) (m : Module) : Keeps (Fld.write ||| Fld.camera) m (laneLineStart c m) := by
  unfold laneLineStart
  refine .ite (fun _ => .refl) fun _ => ?_
  dsimp only
  split
  · exact .refl
  · refine .after (Module.laneTidy_keeps ..) rfl <| .after (Module.adjustLane_keeps ..) rfl ?_
    split
    · refine .ite (fun _ => ?_) fun _ => ?_
      · exact .after (Module.wr_keeps ..) rfl <| .ite (fun _ => .after (Module.setFld_keeps ..) rfl .refl) fun _ => .refl
      · refine .ite (fun _ => ?_) fun _ => ?_
        · refine .after (Module.calEnd_keeps ..) rfl ?_
          exact .after (Module.wr_keeps ..) rfl <| .ite (fun _ => .after (Module.setFld_keeps ..) rfl .refl) fun _ => .refl
        · refine .after (Module.calAddLine_keeps ..) rfl ?_
          exact .after (Module.wr_keeps ..) rfl <| .ite (fun _ => .after (Module.setFld_keeps ..) rfl .refl) fun _ => .refl
    · exact .after (Module.wr_keeps ..) rfl <| .ite (fun _ => .after (Module.setFld_keeps ..) rfl .refl) fun _ => .refl

theorem Module.writeEdge_keeps (m : Module) (c : Nat) (g : StripeGeom) (base k j : Nat) (out : List (List Pix)) :
    Keeps Fld.write m (Module.writeEdge m c g base k j out) := by
  unfold Module.writeEdge
  refine .ite (fun _ => .refl) fun _ => ?_
  dsimp only
  split
  · exact .after (Module.write_keeps ..) rfl .refl
  · exact .after (Module.write_keeps ..) rfl <| .after (Module.edgeLine_keeps ..) rfl .refl

theorem Module.writeStripe_keeps (m : Module) (c : Nat) (g : StripeGeom) (region : Nat) (f : LaneFrame) (bal : List (List Pix)) (y k : Nat) :
    Keeps Fld.write m (Module.writeStripe m c g region f bal y k) := by
  unfold Module.writeStripe
  refine .ite (fun _ => .refl) fun _ => ?_
  refine .ite (fun _ => ?_) fun _ => .after (Module.write_keeps ..) rfl .refl
  refine .after (Module.write_keeps ..) rfl ?_
  exact .foldl (fun _ _ => .after (Module.writeEdge_keeps ..) rfl .refl) _ (.after (Module.write_keeps ..) rfl .refl)

theorem laneOutputLine_keeps (c : PortId) (m : Module) : Keeps (Fld.write ||| Fld.ctxs) m (laneOutputLine c m) := by
  unfold laneOutputLine
  refine .ite (fun _ => .refl) fun _ => ?_
  dsimp only
  split
  · exact .refl
  · refine .ite (fun _ => .refl) fun _ => ?_
    split
    · exact .after (Module.putLane_keeps ..) rfl .refl
    · refine .ite (fun _ => .refl) fun _ => ?_
      exact .foldl (fun _ _ => .after (Module.writeStripe_keeps ..) rfl .refl) _ (.after (Module.putLane_keeps ..) rfl .refl)

theorem stripeReady_keeps (c : PortId) (m : Module) : Keeps (Fld.ctxs ||| Fld.syncs) m (stripeReady c m) := by
  unfold stripeReady
  refine .ite (fun _ => .refl) fun _ => ?_
  dsimp only
  split
  · exact .refl
  · refine .ite (fun _ => .refl) fun _ => ?_
    refine .after (Module.laneTidy_keeps ..) rfl <| .after (Module.putLane_keeps ..) rfl ?_
    refine .ite (fun _ => ?_) fun _ => .after (Module.addSync_keeps ..) rfl .refl
    exact .after (Module.addSync_keeps ..) rfl <| .after (Module.addSync_keeps ..) rfl .refl

theorem statsRecordDone_keeps (c : PortId) (m : Module) :
    Keeps (Fld.write ||| Fld.ctxs ||| Fld.syncs) m (statsRecordDone c m) := by
  unfold statsRecordDone
  dsimp only
  split
  · exact .refl
  · split
    · exact .refl
    · refine .ite (fun _ => .refl) fun _ => ?_
      refine .ite (fun _ => ?_) fun _ => ?_
      · refine .after (Module.laneTidy_keeps ..) rfl ?_
        exact .after (Module.putLane_keeps ..) rfl <| .after (Module.setCtx_keeps ..) rfl .refl
      · refine .ite (fun _ => ?_) fun _ => ?_
        · refine .after (Module.raiseCtx_keeps ..) rfl ?_
          refine .ite (fun _ => ?_) fun _ => ?_
          · refine .after (Module.addSync_keeps ..) rfl ?_
            split
            · refine .ite (fun _ => ?_) fun _ => ?_
              · refine .after (Module.write_keeps ..) rfl <| .after (Module.laneTidy_keeps ..) rfl ?_
                exact .after (Module.putLane_keeps ..) rfl <| .after (Module.setCtx_keeps ..) rfl .refl
              · refine .after (Module.laneTidy_keeps ..) rfl ?_
                exact .after (Module.putLane_keeps ..) rfl <| .after (Module.setCtx_keeps ..) rfl .refl
            · refine .after (Module.laneTidy_keeps ..) rfl ?_
              exact .after (Module.putLane_keeps ..) rfl <| .after (Module.setCtx_keeps ..) rfl .refl
          · split
            · refine .ite (fun _ => ?_) fun _ => ?_
              · refine .after (Module.write_keeps ..) rfl <| .after (Module.laneTidy_keeps ..) rfl ?_
                exact .after (Module.putLane_keeps ..) rfl <| .after (Module.setCtx_keeps ..) rfl .refl
              · refine .after (Module.laneTidy_keeps ..) rfl ?_
                exact .after (Module.putLane_keeps ..) rfl <| .after (Module.setCtx_keeps ..) rfl .refl
            · refine .after (Module.laneTidy_keeps ..) rfl ?_
              exact .after (Module.putLane_keeps ..) rfl <| .after (Module.setCtx_keeps ..) rfl .refl
        · refine .ite (fun _ => ?_) fun _ => ?_
          · refine .after (Module.addSync_keeps ..) rfl ?_
            split
            · refine .ite (fun _ => ?_) fun _ => ?_
              · refine .after (Module.write_keeps ..) rfl <| .after (Module.laneTidy_keeps ..) rfl ?_
                exact .after (Module.putLane_keeps ..) rfl <| .after (Module.setCtx_keeps ..) rfl .refl
              · refine .after (Module.laneTidy_keeps ..) rfl ?_
                exact .after (Module.putLane_keeps ..) rfl <| .after (Module.setCtx_keeps ..) rfl .refl
            · refine .after (Module.laneTidy_keeps ..) rfl ?_
              exact .after (Module.putLane_keeps ..) rfl <| .after (Module.setCtx_keeps ..) rfl .refl
          · split
            · refine .ite (fun _ => ?_) fun _ => ?_
              · refine .after (Module.write_keeps ..) rfl <| .after (Module.laneTidy_keeps ..) rfl ?_
                exact .after (Module.putLane_keeps ..) rfl <| .after (Module.setCtx_keeps ..) rfl .refl
              · refine .after (Module.laneTidy_keeps ..) rfl ?_
                exact .after (Module.putLane_keeps ..) rfl <| .after (Module.setCtx_keeps ..) rfl .refl
            · refine .after (Module.laneTidy_keeps ..) rfl ?_
              exact .after (Module.putLane_keeps ..) rfl <| .after (Module.setCtx_keeps ..) rfl .refl

theorem aeUpdate_keeps (c : PortId) (m : Module) : Keeps Fld.ctxs m (aeUpdate c m) := by
  unfold aeUpdate
  refine Module.firmware_keeps (hb := .refl) (hf := fun _ _ => ?_) (hs := rfl) ..
  dsimp only
  split
  · assumption
  · refine .ite (fun _ => (by assumption)) fun _ => ?_
    refine .ite (fun _ => .after (Module.setCtx_keeps ..) rfl (by assumption)) fun _ => ?_
    exact .after (Module.setCtx_keeps ..) rfl (by assumption)

theorem awbUpdate_keeps (c : PortId) (m : Module) : Keeps Fld.ctxs m (awbUpdate c m) := by
  unfold awbUpdate
  refine Module.firmware_keeps (hb := .refl) (hf := fun _ _ => ?_) (hs := rfl) ..
  dsimp only
  split
  · assumption
  · exact .ite (fun _ => (by assumption)) fun _ => .after (Module.setCtx_keeps ..) rfl (by assumption)

theorem Module.setEng_keeps (m : Module) (e : EngPos) (x : Eng) : Keeps Fld.engines m (Module.setEng m e x) := by
  unfold Module.setEng
  exact .upd .refl

theorem Module.putTask_keeps (m : Module) (e : EngPos) (t : EngTask) : Keeps Fld.engines m (Module.putTask m e t) := by
  unfold Module.putTask
  exact .after (Module.setEng_keeps ..) rfl .refl

theorem Module.setEngState_keeps (m : Module) (e : EngPos) (v : Nat) : Keeps Fld.regs m (Module.setEngState m e v) := by
  unfold Module.setEngState
  exact .after (Module.setFld_keeps ..) rfl .refl

theorem Module.arith_keeps (m : Module) (e : EngPos) (f : Nat) : Keeps Fld.regs m (Module.arith m e f) := by
  unfold Module.arith
  exact .after (Module.wr_keeps ..) rfl .refl

theorem Module.abortTask_keeps (m : Module) (e : EngPos) (a : Abort) :
    Keeps (Fld.regs ||| Fld.engines) m (Module.abortTask m e a) := by
  unfold Module.abortTask
  dsimp only
  split
  · exact .refl
  · refine .ite (fun _ => .refl) fun _ => ?_
    refine .ite (fun _ => .after (Module.setEng_keeps ..) rfl .refl) fun _ => ?_
    refine .after (Module.count_keeps ..) rfl ?_
    exact .after (Module.setFld_keeps ..) rfl <| .after (Module.setEng_keeps ..) rfl .refl

theorem Module.instr_keeps {F : Nat} {b : Module} (m : Module) (e : EngPos) (w : Walker) (op : Nat) (f : Module → EngTask →
      WalkerSt → Nat → Module)
    (hb : Keeps F b m) (hf : ∀ x t s n, Keeps F b x → Keeps F b (f x t s n)) (hs : 0 &&& F = 0) : Keeps F b (Module.instr m
      e w op f) := by
  unfold Module.instr
  dsimp only
  split
  · exact hb
  · exact .ite (fun _ => hb) fun _ => hf _ _ _ _ hb

theorem Module.pass_keeps (m : Module) (e : EngPos) (w : Walker) (t : EngTask) (s : WalkerSt) :
    Keeps Fld.engines m (Module.pass m e w t s) := by
  unfold Module.pass
  exact .after (Module.putTask_keeps ..) rfl .refl

theorem Module.execOnly_keeps {F : Nat} {b : Module} (m : Module) (e : EngPos) (w : Walker) (op : Nat) (f : Module → EngTask
      → WalkerSt → Nat → Module)
    (hb : Keeps F b m) (hf : ∀ x t s n, Keeps F b x → Keeps F b (f x t s n)) (hs : Fld.engines &&& F = Fld.engines) : Keeps
      F b (Module.execOnly m e w op f) := by
  unfold Module.execOnly
  refine Module.instr_keeps (hb := hb) (hf := fun _ _ _ _ _ => ?_) (hs := Fld.within rfl hs) ..
  split
  · exact .after (Module.pass_keeps ..) (Fld.within rfl hs) (by assumption)
  · exact hf _ _ _ _ (by assumption)

theorem Module.barrier_keeps {F : Nat} {b : Module} (m : Module) (e : EngPos) (w : Walker) (op : Nat) (f : Module → EngTask
      → WalkerSt → Nat → Module)
    (hb : Keeps F b m) (hf : ∀ x t s n, Keeps F b x → Keeps F b (f x t s n)) (hs : Fld.engines &&& F = Fld.engines) : Keeps
      F b (Module.barrier m e w op f) := by
  unfold Module.barrier
  refine Module.instr_keeps (hb := hb) (hf := fun _ _ _ _ _ => ?_) (hs := Fld.within rfl hs) ..
  split
  · exact .ite (fun _ => .after (Module.pass_keeps ..) (Fld.within rfl hs) (by assumption)) fun _ => by assumption
  · exact hf _ _ _ _ (by assumption)

theorem engineNop_keeps (e : EngPos) (w : Walker) (m : Module) : Keeps Fld.engines m (engineNop e w m) := by
  unfold engineNop
  refine Module.instr_keeps (hb := .refl) (hf := fun _ _ _ _ _ => ?_) (hs := rfl) ..
  exact .after (Module.pass_keeps ..) rfl (by assumption)

theorem endOp_keeps (e : EngPos) (w : Walker) (m : Module) : Keeps Fld.engines m (endOp e w m) := by
  unfold endOp
  refine Module.instr_keeps (hb := .refl) (hf := fun _ _ _ _ _ => ?_) (hs := rfl) ..
  dsimp only
  split
  · exact .after (Module.putTask_keeps ..) rfl (by assumption)
  · exact .after (Module.putTask_keeps ..) rfl (by assumption)

theorem loop_keeps (e : EngPos) (w : Walker) (m : Module) : Keeps Fld.engines m (loop e w m) := by
  unfold loop
  refine Module.instr_keeps (hb := .refl) (hf := fun _ _ _ _ _ => ?_) (hs := rfl) ..
  exact .after (Module.putTask_keeps ..) rfl (by assumption)

theorem setp_keeps (e : EngPos) (w : Walker) (m : Module) : Keeps Fld.engines m (setp e w m) := by
  unfold setp
  refine Module.instr_keeps (hb := .refl) (hf := fun _ _ _ _ _ => ?_) (hs := rfl) ..
  exact .after (Module.pass_keeps ..) rfl (by assumption)

theorem alu_keeps (e : EngPos) (w : Walker) (m : Module) : Keeps Fld.engines m (alu e w m) := by
  unfold alu
  refine Module.instr_keeps (hb := .refl) (hf := fun _ _ _ _ _ => ?_) (hs := rfl) ..
  exact .after (Module.pass_keeps ..) rfl (by assumption)

theorem Module.engRead_keeps (m : Module) (e : EngPos) (a n : Nat) : Keeps Fld.meet m (Module.engRead m e a n).2 := by
  unfold Module.engRead
  exact .after (Module.readBad_keeps ..) rfl <| .after (Module.meet_keeps ..) rfl .refl

theorem Module.engReads_keeps (m : Module) (e : EngPos) (l : List (Nat × Nat)) :
    Keeps Fld.meet m (Module.engReads m e l).2 := by
  unfold Module.engReads
  refine .foldl2 (fun _ _ => ?_) _ ?_
  · dsimp only
    exact .after (Module.engRead_keeps ..) rfl .refl
  · dsimp only
    exact .refl

theorem ldp_keeps (e : EngPos) (w : Walker) (m : Module) : Keeps (Fld.meet ||| Fld.engines) m (ldp e w m) := by
  unfold ldp
  refine Module.instr_keeps (hb := .refl) (hf := fun _ _ _ _ _ => ?_) (hs := rfl) ..
  refine .ite (fun _ => (by assumption)) fun _ => ?_
  dsimp only
  refine .ite (fun _ => ?_) fun _ => ?_
  · exact .after (Module.abortTask_keeps ..) rfl <| .after (Module.engRead_keeps ..) rfl (by assumption)
  · exact .after (Module.pass_keeps ..) rfl <| .after (Module.engRead_keeps ..) rfl (by assumption)

theorem slotOp_keeps (e : EngPos) (w : Walker) (m : Module) : Keeps Fld.engines m (slotOp e w m) := by
  unfold slotOp
  refine Module.instr_keeps (hb := .refl) (hf := fun _ _ _ _ _ => ?_) (hs := rfl) ..
  exact .after (Module.pass_keeps ..) rfl (by assumption)

theorem Module.engAsk_keeps (m : Module) (e : EngPos) (w : Fin 64) (off n : Nat) :
    Keeps (Fld.window ||| Fld.send ||| Fld.winOut) m (Module.engAsk m e w off n).2 := by
  unfold Module.engAsk
  dsimp only
  refine .foldl2 (fun _ _ => ?_) _ ?_
  · dsimp only
    exact .after (Module.winReadFrom_keeps ..) rfl .refl
  · dsimp only
    exact .refl

theorem Module.issueRead_keeps (m : Module) (e : EngPos) (t : EngTask) (sc : Bool) (x : Tile) (l : List Piece) :
    Keeps (Fld.meet ||| Fld.window) m (Module.issueRead m e t sc x l).2 := by
  unfold Module.issueRead
  dsimp only
  split
  · dsimp only
    exact .refl
  · split
    · split
      · dsimp only
        exact .refl
      · dsimp only
        exact .after (Module.engAsk_keeps ..) rfl .refl
    · split
      · dsimp only
        exact .after (Module.engRead_keeps ..) rfl .refl
      · split
        · dsimp only
          exact .after (Module.engRead_keeps ..) rfl .refl
        · dsimp only
          exact .after (Module.engRead_keeps ..) rfl .refl
    · split
      · dsimp only
        exact .after (Module.engRead_keeps ..) rfl .refl
      · split
        · dsimp only
          exact .after (Module.engRead_keeps ..) rfl .refl
        · dsimp only
          exact .after (Module.engRead_keeps ..) rfl .refl
    · dsimp only
      exact .refl

theorem Module.pumpReads_keeps (m : Module) (fuel : Nat) (e : EngPos) :
    Keeps (Fld.meet ||| Fld.window ||| Fld.engines) m (Module.pumpReads m fuel e) := by
  induction fuel generalizing m with
  | zero => exact .refl
  | succ fuel ih =>
    unfold Module.pumpReads
    generalize (m.eng e).task = task
    cases task with
    | none => exact .refl
    | some t =>
      dsimp only
      split
      · exact .refl
      · split
        · exact .refl
        · refine .ite (fun _ => .refl) fun _ => ?_
          split
          · exact .after (Module.abortTask_keeps ..) rfl <| .snd ‹_› <| .after (Module.issueRead_keeps ..) rfl .refl
          · exact .trans (.after (Module.putTask_keeps ..) rfl <| .snd ‹_› <|
              .after (Module.issueRead_keeps ..) rfl .refl) (ih ..)

theorem Module.gateCopy_keeps (m : Module) (g : GateBuf) (l : List Piece) : Keeps Fld.write m (Module.gateCopy m g l) := by
  unfold Module.gateCopy
  refine .foldl (fun _ _ => ?_) _ .refl
  refine .foldl (fun _ _ => ?_) _ .refl
  dsimp only
  exact .ite (fun _ => .refl) fun _ => .after (Module.write_keeps ..) rfl .refl

theorem fetchWith_keeps (gate : EngPos → EngTask → Module → Option GateBuf) (e : EngPos) (w : Walker) (errs : List MemErr) (m : Module) :
    Keeps Fld.walk m (fetchWith gate e w errs m) := by
  unfold fetchWith
  refine Module.instr_keeps (hb := .refl) (hf := fun _ _ _ _ _ => ?_) (hs := rfl) ..
  dsimp only
  split
  · exact .after (Module.pass_keeps ..) rfl (by assumption)
  · split
    · exact .after (Module.pass_keeps ..) rfl (by assumption)
    · refine .ite (fun _ => (by assumption)) fun _ => ?_
      refine .ite (fun _ => ?_) fun _ => ?_
      · exact .after (Module.abortTask_keeps ..) rfl <| .after (Module.engReads_keeps ..) rfl (by assumption)
      · refine .after (Module.pumpReads_keeps ..) rfl <| .after (Module.pass_keeps ..) rfl ?_
        refine .after (Module.upset_keeps ..) rfl ?_
        refine .ite (fun _ => ?_) fun _ => .after (Module.engReads_keeps ..) rfl (by assumption)
        split
        · exact .after (Module.gateCopy_keeps ..) rfl <| .after (Module.engReads_keeps ..) rfl (by assumption)
        · exact .after (Module.engReads_keeps ..) rfl (by assumption)

theorem tileArrived_keeps (e : EngPos) (queue : Fin 4) (m : Module) :
    Keeps (Fld.meet ||| Fld.window ||| Fld.engines) m (tileArrived e queue m) := by
  unfold tileArrived
  dsimp only
  split
  · exact .refl
  · exact .after (Module.pumpReads_keeps ..) rfl <| .after (Module.putTask_keeps ..) rfl .refl

theorem Module.meetMasked_keeps (m : Module) (e : EngPos) (a : Nat) (l : List (Byte × Byte)) :
    Keeps Fld.meet m (Module.meetMasked m e a l) := by
  unfold Module.meetMasked
  exact .after (Module.meet_keeps ..) rfl .refl

theorem Module.writeMasked_keeps (m : Module) (a : Nat) (l : List (Byte × Byte)) (bad : List Nat) :
    Keeps Fld.write m (Module.writeMasked m a l bad) := by
  unfold Module.writeMasked
  refine .after (Module.putSome_keeps ..) rfl ?_
  exact .foldl (fun _ _ => .after (Module.clearBad_keeps ..) rfl .refl) _ (.after (Module.flushSpan_keeps ..) rfl .refl)

theorem Module.issueWrite_keeps (m : Module) (e : EngPos) (x : EngWrite) :
    Keeps (Fld.write ||| Fld.window) m (Module.issueWrite m e x).2 := by
  unfold Module.issueWrite
  dsimp only
  split
  · split
    · dsimp only
      exact .refl
    · dsimp only
      exact .foldl (fun _ _ => .after (Module.winWriteTo_keeps ..) rfl .refl) _ .refl
  · split
    · dsimp only
      exact .after (Module.write_keeps ..) rfl <| .after (Module.meetMasked_keeps ..) rfl .refl
    · dsimp only
      exact .foldl (fun _ _ => .after (Module.dramMet_keeps ..) rfl .refl) _ (.after (Module.writeMasked_keeps ..) rfl <|
        .after (Module.meetMasked_keeps ..) rfl .refl)
  · split
    · dsimp only
      exact .after (Module.write_keeps ..) rfl <| .after (Module.meetMasked_keeps ..) rfl .refl
    · dsimp only
      exact .foldl (fun _ _ => .after (Module.dramMet_keeps ..) rfl .refl) _ (.after (Module.writeMasked_keeps ..) rfl <|
        .after (Module.meetMasked_keeps ..) rfl .refl)
  · dsimp only
    exact .refl

theorem Module.pump_keeps (m : Module) (fuel : Nat) (e : EngPos) : Keeps Fld.walk m (Module.pump m fuel e) := by
  induction fuel generalizing m with
  | zero => exact .refl
  | succ fuel ih =>
    unfold Module.pump
    dsimp only
    split
    · exact .refl
    · split
      · exact .refl
      · refine .ite (fun _ => .refl) fun _ => .ite (fun _ => .after (Module.abortTask_keeps ..) rfl .refl) fun _ =>
          .ite (fun _ => ?_) fun _ => ?_
        · split
          · exact .ite (fun _ => .refl) fun _ => .ite (fun _ => .after (Module.abortTask_keeps ..) rfl .refl) fun _ =>
              .after (Module.putTask_keeps ..) rfl <| .after (Module.engAsk_keeps ..) rfl .refl
          · exact .after (Module.abortTask_keeps ..) rfl .refl
        · split
          · exact .after (Module.abortTask_keeps ..) rfl <| .after (Module.putTask_keeps ..) rfl <| .snd ‹_› <|
              .after (Module.issueWrite_keeps ..) rfl <| .after (Module.putTask_keeps ..) rfl .refl
          · exact .trans (.snd ‹_› <| .after (Module.issueWrite_keeps ..) rfl <|
              .after (Module.putTask_keeps ..) rfl .refl) (ih ..)

theorem Module.ackWrite_keeps (m : Module) (e : EngPos) : Keeps Fld.walk m (Module.ackWrite m e) := by
  unfold Module.ackWrite
  split
  · exact .refl
  · exact .after (Module.pump_keeps ..) rfl <| .after (Module.putTask_keeps ..) rfl .refl

theorem Module.pumpAll_keeps (m : Module) : Keeps Fld.walk m (Module.pumpAll m) := by
  unfold Module.pumpAll
  refine .foldl (fun _ _ => ?_) _ .refl
  dsimp only
  split
  · exact .refl
  · exact .after (Module.pumpReads_keeps ..) rfl <| .after (Module.pump_keeps ..) rfl .refl

theorem Module.engineAck_keeps (m : Module) (e : EngPos) : Keeps Fld.walk m (Module.engineAck m e) := by
  unfold Module.engineAck
  split
  · exact .refl
  · exact .ite (fun _ => .after (Module.ackWrite_keeps ..) rfl .refl) fun _ => .refl

theorem Module.queueWrite_keeps (m : Module) (t : EngTask) (x : EngWrite) : Keeps 0 m (Module.queueWrite m t x).2.2 := by
  unfold Module.queueWrite
  dsimp only
  split
  · dsimp only
    exact .refl
  · split
    · split
      · dsimp only
        exact .refl
      · split
        · dsimp only
          exact .refl
        · split
          · dsimp only
            exact .refl
          · dsimp only
            exact .refl
    · dsimp only
      exact .refl

theorem Module.queueWrites_keeps (m : Module) (t : EngTask) (l : List EngWrite) :
    Keeps 0 m (Module.queueWrites m t l).2 := by
  induction l generalizing m t with
  | nil => exact .refl
  | cons x r ih =>
    unfold Module.queueWrites
    split
    · exact .trans (.snd2 ‹_› <| .after (Module.queueWrite_keeps ..) rfl .refl) (ih ..)
    · exact .snd2 ‹_› <| .after (Module.queueWrite_keeps ..) rfl .refl

theorem fence_keeps (e : EngPos) (w : Walker) (m : Module) : Keeps Fld.engines m (fence e w m) := by
  unfold fence
  refine Module.barrier_keeps (hb := .refl) (hf := fun _ _ _ _ _ => ?_) (hs := rfl) ..
  exact .ite (fun _ => .after (Module.pass_keeps ..) rfl (by assumption)) fun _ => by assumption

theorem swait_keeps (e : EngPos) (w : Walker) (m : Module) : Keeps (Fld.regs ||| Fld.engines) m (swait e w m) := by
  unfold swait
  refine Module.barrier_keeps (hb := .refl) (hf := fun _ _ _ _ _ => ?_) (hs := rfl) ..
  refine .ite (fun _ => .after (Module.abortTask_keeps ..) rfl (by assumption)) fun _ => ?_
  exact .ite (fun _ => .after (Module.pass_keeps ..) rfl (by assumption)) fun _ => by assumption

theorem swaitTimeout_keeps (e : EngPos) (m : Module) : Keeps (Fld.regs ||| Fld.engines) m (swaitTimeout e m) := by
  unfold swaitTimeout
  refine Module.instr_keeps (hb := .refl) (hf := fun _ _ _ _ _ => ?_) (hs := rfl) ..
  refine .ite (fun _ => (by assumption)) fun _ => ?_
  exact .after (Module.abortTask_keeps ..) rfl <| .after (Module.count_keeps ..) rfl (by assumption)

theorem ssig_keeps (e : EngPos) (w : Walker) (m : Module) :
    Keeps (Fld.regs ||| Fld.engines ||| Fld.syncs) m (ssig e w m) := by
  unfold ssig
  refine Module.execOnly_keeps (hb := .refl) (hf := fun _ _ _ _ _ => ?_) (hs := rfl) ..
  refine .ite (fun _ => (by assumption)) fun _ => ?_
  refine .ite (fun _ => .after (Module.abortTask_keeps ..) rfl (by assumption)) fun _ => ?_
  refine .after (Module.pass_keeps ..) rfl ?_
  refine .ite (fun _ => (by assumption)) fun _ => ?_
  refine .ite (fun _ => .after (Module.guestAdd_keeps ..) rfl (by assumption)) fun _ => ?_
  exact .after (Module.addSync_keeps ..) rfl (by assumption)

theorem wload_keeps (e : EngPos) (w : Walker) (m : Module) : Keeps Fld.engines m (wload e w m) := by
  unfold wload
  refine Module.instr_keeps (hb := .refl) (hf := fun _ _ _ _ _ => ?_) (hs := rfl) ..
  dsimp only
  split
  · exact .after (Module.pass_keeps ..) rfl (by assumption)
  · refine .ite (fun _ => ?_) fun _ => ?_
    · split
      · exact .ite (fun _ => .after (Module.pass_keeps ..) rfl (by assumption)) fun _ => by assumption
      · exact .ite (fun _ => (by assumption)) fun _ => .after (Module.pass_keeps ..) rfl (by assumption)
    · split
      · assumption
      · exact .after (Module.pass_keeps ..) rfl (by assumption)

theorem mm_keeps (e : EngPos) (w : Walker) (m : Module) : Keeps (Fld.regs ||| Fld.engines) m (mm e w m) := by
  unfold mm
  refine Module.execOnly_keeps (hb := .refl) (hf := fun _ _ _ _ _ => ?_) (hs := rfl) ..
  dsimp only
  split
  · assumption
  · split
    · exact .after (Module.abortTask_keeps ..) rfl (by assumption)
    · exact .after (Module.pass_keeps ..) rfl <| .after (Module.arith_keeps ..) rfl (by assumption)

theorem mmf_keeps (e : EngPos) (w : Walker) (m : Module) : Keeps (Fld.regs ||| Fld.engines) m (mmf e w m) := by
  unfold mmf
  refine Module.execOnly_keeps (hb := .refl) (hf := fun _ _ _ _ _ => ?_) (hs := rfl) ..
  dsimp only
  split
  · exact .after (Module.abortTask_keeps ..) rfl (by assumption)
  · refine .ite (fun _ => (by assumption)) fun _ => ?_
    refine .ite (fun _ => ?_) fun _ => ?_
    · split
      · assumption
      · exact .after (Module.putTask_keeps ..) rfl (by assumption)
    · split
      · exact .after (Module.pass_keeps ..) rfl <| .after (Module.arith_keeps ..) rfl (by assumption)
      · assumption

theorem rfu_keeps (e : EngPos) (w : Walker) (m : Module) : Keeps (Fld.regs ||| Fld.engines) m (rfu e w m) := by
  unfold rfu
  refine Module.execOnly_keeps (hb := .refl) (hf := fun _ _ _ _ _ => ?_) (hs := rfl) ..
  refine .ite (fun _ => .after (Module.abortTask_keeps ..) rfl (by assumption)) fun _ => ?_
  dsimp only
  split
  · assumption
  · exact .after (Module.pass_keeps ..) rfl <| .after (Module.arith_keeps ..) rfl (by assumption)

theorem tload_keeps (e : EngPos) (w : Walker) (m : Module) : Keeps Fld.engines m (tload e w m) := by
  unfold tload
  refine Module.execOnly_keeps (hb := .refl) (hf := fun _ _ _ _ _ => ?_) (hs := rfl) ..
  dsimp only
  split
  · assumption
  · exact .after (Module.pass_keeps ..) rfl (by assumption)

theorem Module.storeRows_keeps (m : Module) (e : EngPos) (w : Walker) (t : EngTask) (s : WalkerSt) (l : List EngWrite) :
    Keeps Fld.walk m (Module.storeRows m e w t s l) := by
  unfold Module.storeRows
  dsimp only
  refine .after (Module.pump_keeps ..) rfl ?_
  exact .after (Module.pass_keeps ..) rfl <| .after (Module.queueWrites_keeps ..) rfl .refl

theorem wb_keeps (e : EngPos) (w : Walker) (m : Module) : Keeps Fld.walk m (wb e w m) := by
  unfold wb
  refine Module.execOnly_keeps (hb := .refl) (hf := fun _ _ _ _ _ => ?_) (hs := rfl) ..
  dsimp only
  split
  · exact .after (Module.abortTask_keeps ..) rfl (by assumption)
  · exact .after (Module.pass_keeps ..) rfl (by assumption)
  · refine .ite (fun _ => (by assumption)) fun _ => ?_
    split
    · assumption
    · refine .ite (fun _ => ?_) fun _ => ?_
      · exact .after (Module.abortTask_keeps ..) rfl <| .after (Module.engReads_keeps ..) rfl (by assumption)
      · refine .after (Module.storeRows_keeps ..) rfl ?_
        exact .after (Module.arith_keeps ..) rfl <| .after (Module.engReads_keeps ..) rfl (by assumption)

theorem gate_keeps (e : EngPos) (w : Walker) (m : Module) : Keeps Fld.walk m (gate e w m) := by
  unfold gate
  refine Module.instr_keeps (hb := .refl) (hf := fun _ _ _ _ _ => ?_) (hs := rfl) ..
  dsimp only
  split
  · exact .after (Module.pass_keeps ..) rfl (by assumption)
  · split
    · split
      · exact .after (Module.putTask_keeps ..) rfl (by assumption)
      · exact .after (Module.pass_keeps ..) rfl (by assumption)
      · exact .after (Module.pass_keeps ..) rfl (by assumption)
    · refine .ite (fun _ => (by assumption)) fun _ => ?_
      refine .ite (fun _ => ?_) fun _ => ?_
      · exact .after (Module.abortTask_keeps ..) rfl <| .after (Module.engReads_keeps ..) rfl (by assumption)
      · refine .ite (fun _ => ?_) fun _ => ?_
        · refine .after (Module.pass_keeps ..) rfl ?_
          exact .after (Module.count_keeps ..) rfl <| .after (Module.engReads_keeps ..) rfl (by assumption)
        · refine .after (Module.pump_keeps ..) rfl <| .after (Module.putTask_keeps ..) rfl ?_
          refine .after (Module.queueWrites_keeps ..) rfl <| .after (Module.count_keeps ..) rfl ?_
          exact .after (Module.count_keeps ..) rfl <| .after (Module.engReads_keeps ..) rfl (by assumption)

theorem fetch_keeps (e : EngPos) (w : Walker) (errs : List MemErr) (m : Module) : Keeps Fld.walk m (fetch e w errs m) := by
  unfold fetch
  exact .after (fetchWith_keeps ..) rfl .refl

theorem cancellationComplete_keeps (e : EngPos) (m : Module) :
    Keeps (Fld.meet ||| Fld.window ||| Fld.engines) m (cancellationComplete e m) := by
  unfold cancellationComplete
  refine .ite (fun _ => .refl) fun _ => ?_
  dsimp only
  split
  · exact .after (Module.setEng_keeps ..) rfl .refl
  · exact .after (Module.pumpReads_keeps ..) rfl <| .after (Module.setEng_keeps ..) rfl .refl

theorem Module.libCheck_keeps (m : Module) (e : EngPos) (t : EngTask) (l : List (Nat × Nat)) :
    Keeps Fld.meet m (Module.libCheck m e t l).2 := by
  induction l generalizing m with
  | nil => exact .refl
  | cons x r ih =>
    have engRead_then (n : Nat) : Keeps Fld.meet m ((if (m.engRead e x.1 n).1 then (some abPoison, (m.engRead e x.1 n).2)
        else (m.engRead e x.1 n).2.libCheck e t r).2 : Module) := by
      split
      · exact .after (Module.engRead_keeps ..) rfl .refl
      · exact .trans (.after (Module.engRead_keeps ..) rfl .refl) (ih ..)
    unfold Module.libCheck
    dsimp only
    split
    · exact ih ..
    · split
      · exact .refl
      · split
        · split
          · exact .refl
          · exact ih ..
        · exact engRead_then _
        · exact engRead_then _
        · exact .refl

theorem Module.libTiles_keeps (m : Module) (e : EngPos) (t : EngTask) (done : List (Nat × Nat)) (l : List LibTile) :
    Keeps Fld.meet m (Module.libTiles m e t done l).2 := by
  induction l generalizing m done with
  | nil => exact .refl
  | cons x r ih =>
    unfold Module.libTiles
    dsimp only
    split
    · exact .snd ‹_› <| .after (Module.libCheck_keeps ..) rfl .refl
    · exact .trans (.snd ‹_› <| .after (Module.libCheck_keeps ..) rfl .refl) (ih ..)

theorem Module.libCall_keeps (m : Module) (e : EngPos) (w : Walker) (id views : Nat) (f : LibCall → LibOut) :
    Keeps Fld.walk m (Module.libCall m e w id views f) := by
  unfold Module.libCall
  refine Module.barrier_keeps (hb := .refl) (hf := fun _ _ _ _ _ => ?_) (hs := rfl) ..
  refine .ite (fun _ => (by assumption)) fun _ => ?_
  refine .ite (fun _ => ?_) fun _ => ?_
  · exact .after (Module.pumpReads_keeps ..) rfl <| .after (Module.putTask_keeps ..) rfl (by assumption)
  · refine .ite (fun _ => ?_) fun _ => ?_
    · exact .after (Module.pumpReads_keeps ..) rfl <| .after (Module.putTask_keeps ..) rfl (by assumption)
    · refine .ite (fun _ => (by assumption)) fun _ => ?_
      dsimp only
      refine .ite (fun _ => ?_) fun _ => ?_
      · exact .after (Module.abortTask_keeps ..) rfl <| .after (Module.engReads_keeps ..) rfl (by assumption)
      · split
        · refine .after (Module.abortTask_keeps ..) rfl ?_
          refine .snd (by assumption) ?_
          exact .after (Module.libCheck_keeps ..) rfl <| .after (Module.engReads_keeps ..) rfl (by assumption)
        · refine .after (Module.storeRows_keeps ..) rfl <| .after (Module.arith_keeps ..) rfl ?_
          refine .after (Module.libTiles_keeps ..) rfl ?_
          refine .snd (by assumption) ?_
          exact .after (Module.libCheck_keeps ..) rfl <| .after (Module.engReads_keeps ..) rfl (by assumption)

theorem conv2d_keeps (e : EngPos) (w : Walker) (m : Module) : Keeps Fld.walk m (conv2d e w m) := by
  unfold conv2d
  exact .after (Module.libCall_keeps ..) rfl .refl

theorem gemm_keeps (e : EngPos) (w : Walker) (m : Module) : Keeps Fld.walk m (gemm e w m) := by
  unfold gemm
  exact .after (Module.libCall_keeps ..) rfl .refl

theorem pool_keeps (e : EngPos) (w : Walker) (m : Module) : Keeps Fld.walk m (pool e w m) := by
  unfold pool
  exact .after (Module.libCall_keeps ..) rfl .refl

theorem resize_keeps (e : EngPos) (w : Walker) (m : Module) : Keeps Fld.walk m (resize e w m) := by
  unfold resize
  exact .after (Module.libCall_keeps ..) rfl .refl

theorem eltwise_keeps (e : EngPos) (w : Walker) (m : Module) : Keeps Fld.walk m (eltwise e w m) := by
  unfold eltwise
  exact .after (Module.libCall_keeps ..) rfl .refl

theorem norm_keeps (e : EngPos) (w : Walker) (m : Module) : Keeps Fld.walk m (norm e w m) := by
  unfold norm
  exact .after (Module.libCall_keeps ..) rfl .refl

theorem softmax_keeps (e : EngPos) (w : Walker) (m : Module) : Keeps Fld.walk m (softmax e w m) := by
  unfold softmax
  exact .after (Module.libCall_keeps ..) rfl .refl

theorem attention_keeps (e : EngPos) (w : Walker) (m : Module) : Keeps Fld.walk m (attention e w m) := by
  unfold attention
  exact .after (Module.libCall_keeps ..) rfl .refl

theorem copyRoutine_keeps (e : EngPos) (w : Walker) (m : Module) : Keeps Fld.walk m (copyRoutine e w m) := by
  unfold copyRoutine
  exact .after (Module.libCall_keeps ..) rfl .refl

theorem argmax_keeps (e : EngPos) (w : Walker) (m : Module) : Keeps Fld.walk m (argmax e w m) := by
  unfold argmax
  exact .after (Module.libCall_keeps ..) rfl .refl

theorem topk_keeps (e : EngPos) (w : Walker) (m : Module) : Keeps Fld.walk m (topk e w m) := by
  unfold topk
  exact .after (Module.libCall_keeps ..) rfl .refl

theorem nms_keeps (e : EngPos) (w : Walker) (m : Module) : Keeps Fld.walk m (nms e w m) := by
  unfold nms
  exact .after (Module.libCall_keeps ..) rfl .refl

theorem loadStart_keeps (region : Word) (offset size : W64) (c : CmdRef) (m : Module) :
    Keeps (Fld.meet ||| Fld.packages) m (loadStart region offset size c m) := by
  unfold loadStart
  dsimp only
  split
  · exact .after (Module.complete_keeps ..) rfl .refl
  · refine .ite (fun _ => .after (Module.complete_keeps ..) rfl .refl) fun _ => ?_
    refine .ite (fun _ => .after (Module.complete_keeps ..) rfl .refl) fun _ => ?_
    refine .ite (fun _ => ?_) fun _ => ?_
    · exact .after (Module.complete_keeps ..) rfl <| .after (Module.readMeets_keeps ..) rfl .refl
    · refine .ite (fun _ => ?_) fun _ => ?_
      · exact .after (Module.complete_keeps ..) rfl <| .after (Module.readMeets_keeps ..) rfl .refl
      · refine .ite (fun _ => ?_) fun _ => ?_
        · refine .after (Module.complete_keeps ..) rfl ?_
          exact .after (Module.readMeets_keeps ..) rfl <| .after (Module.readMeets_keeps ..) rfl .refl
        · refine .ite (fun _ => ?_) fun _ => ?_
          · refine .after (Module.complete_keeps ..) rfl ?_
            exact .after (Module.readMeets_keeps ..) rfl <| .after (Module.readMeets_keeps ..) rfl .refl
          · split
            · refine .after (Module.complete_keeps ..) rfl ?_
              refine .snd (by assumption) ?_
              refine .after (Module.freeFrom_keeps ..) rfl ?_
              exact .after (Module.readMeets_keeps ..) rfl <| .after (Module.readMeets_keeps ..) rfl .refl
            · refine .after (Module.complete_keeps ..) rfl ?_
              refine .upd ?_
              refine .snd (by assumption) ?_
              refine .after (Module.freeFrom_keeps ..) rfl ?_
              exact .after (Module.readMeets_keeps ..) rfl <| .after (Module.readMeets_keeps ..) rfl .refl

theorem loadPkg_keeps (h : CmdHdr) (region : Word) (offset size : W64) (m : Module) :
    Keeps (Fld.meet ||| Fld.packages ||| Fld.transition) m (loadPkg h region offset size m) := by
  unfold loadPkg
  refine .ite (fun _ => .refl) fun _ => ?_
  refine .ite (fun _ => ?_) fun _ => ?_
  · refine Module.command_keeps (hb := .refl) (hf := fun _ _ _ => ?_) (hs := rfl) ..
    exact .after (loadStart_keeps ..) rfl (by assumption)
  · refine Module.commandRun_keeps (hb := .refl) (hf := fun _ _ _ => ?_) (hs := rfl) ..
    exact .after (loadStart_keeps ..) rfl (by assumption)

theorem Module.dropPackage_keeps (m : Module) (k : Nat) :
    Keeps (Fld.packages ||| Fld.packageGen) m (Module.dropPackage m k) := by
  unfold Module.dropPackage
  split
  · exact .refl
  · exact .upd .refl

theorem unloadStart_keeps (package : Word) (c : CmdRef) (m : Module) :
    Keeps (Fld.ring ||| Fld.packages ||| Fld.packageGen) m (unloadStart package c m) := by
  unfold unloadStart
  split
  · exact .after (Module.complete_keeps ..) rfl .refl
  · refine .ite (fun _ => .after (Module.complete_keeps ..) rfl .refl) fun _ => ?_
    exact .after (Module.complete_keeps ..) rfl <| .after (Module.dropPackage_keeps ..) rfl .refl

theorem unloadPkg_keeps (h : CmdHdr) (package : Word) (m : Module) :
    Keeps (Fld.ring ||| Fld.packages ||| Fld.packageGen) m (unloadPkg h package m) := by
  unfold unloadPkg
  refine .ite (fun _ => ?_) fun _ => .refl
  refine Module.command_keeps (hb := .refl) (hf := fun _ _ _ => ?_) (hs := rfl) ..
  exact .after (unloadStart_keeps ..) rfl (by assumption)

theorem Module.edgeOut_keeps (m : Module) (c u : Nat) (p : PicPlan) : Keeps Fld.write m (Module.edgeOut m c u p) := by
  unfold Module.edgeOut
  refine .foldl (fun _ _ => .after (Module.write_keeps ..) rfl <| .after (Module.write_keeps ..) rfl .refl) _ ?_
  refine .foldl (fun _ _ => ?_) _ .refl
  refine .ite (fun _ => .refl) fun _ => ?_
  dsimp only
  split
  · split
    · exact .after (Module.write_keeps ..) rfl .refl
    · exact .refl
  · exact .ite (fun _ => .after (Module.write_keeps ..) rfl .refl) fun _ => .refl

theorem Module.outLines_keeps (m : Module) (o : OutGeom) (s : ParamSet) (c k : Nat) (v : PicView) (g : StripeGeom) (st slot : Nat) :
    Keeps Fld.write m (Module.outLines m o s c k v g st slot) := by
  unfold Module.outLines
  dsimp only
  exact .foldl (fun _ _ => .foldl (fun _ _ => .after (Module.write_keeps ..) rfl .refl) _ .refl) _ .refl

theorem Module.outHeader_keeps (m : Module) (c : Nat) (o : OutGeom) (g : StripeGeom) (slot st : Nat) (head : List Byte) (flags reused : Nat) :
    Keeps Fld.write m (Module.outHeader m c o g slot st head flags reused) := by
  unfold Module.outHeader
  exact .after (Module.write_keeps ..) rfl .refl

theorem Module.planMove_keeps (m : Module) (s : Stream) (i : Nat) (mv : PlanMove) (d : Desc) :
    Keeps (Fld.dmaMove ||| Fld.planMoves) m (Module.planMove m s i mv d) := by
  unfold Module.planMove
  split
  · exact .refl
  · exact .after (Module.planNext_keeps ..) rfl <| .upd .refl

theorem Module.avtpStripe_keeps (m : Module) (c : PortId) (k : Fin 4) (s : Stream) (o : OutGeom) (g : StripeGeom) (slot st : Nat) (head : List Byte) :
    Keeps (Fld.dmaMove ||| Fld.planMoves) m (Module.avtpStripe m c k s o g slot st head) := by
  unfold Module.avtpStripe
  dsimp only
  exact .ite (fun _ => .refl) fun _ => .after (Module.planMove_keeps ..) rfl .refl

theorem Module.windowStripe_keeps (m : Module) (c : PortId) (k : Fin 4) (s : Stream) (o : OutGeom) (g : StripeGeom) (base slot st : Nat) (f : Word) :
    Keeps (Fld.dmaMove ||| Fld.planMoves) m (Module.windowStripe m c k s o g base slot st f) := by
  unfold Module.windowStripe
  refine .ite (fun _ => .after (Module.satAdd_keeps ..) rfl .refl) fun _ => ?_
  dsimp only
  refine .after (Module.planMove_keeps ..) rfl ?_
  exact .foldl (fun _ _ => .ite (fun _ => .refl) fun _ => .after (Module.planMove_keeps ..) rfl .refl) _ .refl

theorem Module.outStripe_keeps (m : Module) (c : PortId) (k : Fin 4) (s : Stream) (v : PicView) (u : Nat) (head : List Byte) (flags reused : Nat) (missed : Bool) :
    Keeps (Fld.dmaMove ||| Fld.planMoves ||| Fld.syncs) m (Module.outStripe m c k s v u head flags reused missed) := by
  unfold Module.outStripe
  refine .ite (fun _ => .refl) fun _ => ?_
  refine .ite (fun _ => ?_) fun _ => ?_
  · refine .after (Module.windowStripe_keeps ..) rfl ?_
    refine .ite (fun _ => ?_) fun _ => ?_
    · refine .after (Module.avtpStripe_keeps ..) rfl ?_
      refine .ite (fun _ => ?_) fun _ => ?_
      · refine .after (Module.addSync_keeps ..) rfl ?_
        refine .ite (fun _ => .refl) fun _ => ?_
        exact .after (Module.outHeader_keeps ..) rfl <| .after (Module.outLines_keeps ..) rfl .refl
      · refine .ite (fun _ => .refl) fun _ => ?_
        exact .after (Module.outHeader_keeps ..) rfl <| .after (Module.outLines_keeps ..) rfl .refl
    · refine .ite (fun _ => ?_) fun _ => ?_
      · refine .after (Module.addSync_keeps ..) rfl ?_
        refine .ite (fun _ => .refl) fun _ => ?_
        exact .after (Module.outHeader_keeps ..) rfl <| .after (Module.outLines_keeps ..) rfl .refl
      · refine .ite (fun _ => .refl) fun _ => ?_
        exact .after (Module.outHeader_keeps ..) rfl <| .after (Module.outLines_keeps ..) rfl .refl
  · refine .ite (fun _ => ?_) fun _ => ?_
    · refine .after (Module.avtpStripe_keeps ..) rfl ?_
      refine .ite (fun _ => ?_) fun _ => ?_
      · refine .after (Module.addSync_keeps ..) rfl ?_
        refine .ite (fun _ => .refl) fun _ => ?_
        exact .after (Module.outHeader_keeps ..) rfl <| .after (Module.outLines_keeps ..) rfl .refl
      · refine .ite (fun _ => .refl) fun _ => ?_
        exact .after (Module.outHeader_keeps ..) rfl <| .after (Module.outLines_keeps ..) rfl .refl
    · refine .ite (fun _ => ?_) fun _ => ?_
      · refine .after (Module.addSync_keeps ..) rfl ?_
        refine .ite (fun _ => .refl) fun _ => ?_
        exact .after (Module.outHeader_keeps ..) rfl <| .after (Module.outLines_keeps ..) rfl .refl
      · refine .ite (fun _ => .refl) fun _ => ?_
        exact .after (Module.outHeader_keeps ..) rfl <| .after (Module.outLines_keeps ..) rfl .refl

theorem Module.outputs_keeps (m : Module) (c : PortId) (s : Stream) (v : PicView) (u : Nat) (head : List Byte) (flags reused : Nat) (missed : Bool) :
    Keeps (Fld.dmaMove ||| Fld.planMoves ||| Fld.syncs) m (Module.outputs m c s v u head flags reused missed) := by
  unfold Module.outputs
  exact .foldl (fun _ _ => .after (Module.outStripe_keeps ..) rfl .refl) _ .refl

theorem Module.residentHistory_keeps (m : Module) (r : ResIn) (v : PicView) (slot : Nat) :
    Keeps Fld.write m (Module.residentHistory m r v slot) := by
  unfold Module.residentHistory
  dsimp only
  exact .foldl (fun _ _ => .after (Module.write_keeps ..) rfl .refl) _ .refl

theorem Module.keepInput_keeps (m : Module) (r : ResIn) (t : GateTask) : Keeps Fld.write m (Module.keepInput m r t) := by
  unfold Module.keepInput
  refine .foldl (fun _ _ => ?_) _ .refl
  dsimp only
  split
  · exact .after (Module.write_keeps ..) rfl .refl
  · exact .refl

theorem Module.residentGate_keeps (m : Module) (r : ResIn) (args : Nat) (t : GateTask) :
    Keeps Fld.write m (Module.residentGate m r args t).2 := by
  unfold Module.residentGate
  dsimp only
  refine .after (Module.keepInput_keeps ..) rfl ?_
  exact .foldl (fun _ _ => .foldl (fun _ _ => .after (Module.write_keeps ..) rfl .refl) _ .refl) _ .refl

theorem Module.residentOut_keeps (m : Module) (r : ResIn) (gate : Option GateTask) :
    Keeps Fld.write m (Module.residentOut m r gate) := by
  unfold Module.residentOut
  dsimp only
  split
  · refine .after (Module.residentHistory_keeps ..) rfl ?_
    refine .foldl (fun _ _ => ?_) _ .refl
    split
    · exact .after (Module.write_keeps ..) rfl <| .after (Module.write_keeps ..) rfl .refl
    · exact .after (Module.write_keeps ..) rfl .refl
  · refine .after (Module.residentHistory_keeps ..) rfl ?_
    refine .foldl (fun _ _ => ?_) _ .refl
    split
    · exact .after (Module.write_keeps ..) rfl <| .after (Module.write_keeps ..) rfl .refl
    · exact .after (Module.write_keeps ..) rfl .refl
  · refine .foldl (fun _ _ => ?_) _ .refl
    split
    · exact .after (Module.write_keeps ..) rfl <| .after (Module.write_keeps ..) rfl .refl
    · exact .after (Module.write_keeps ..) rfl .refl

theorem Module.beginTask_keeps (m : Module) (e : EngPos) (x : TaskStart) :
    Keeps (Fld.meet ||| Fld.engines) m (Module.beginTask m e x) := by
  unfold Module.beginTask
  dsimp only
  refine .ite (fun _ => ?_) fun _ => ?_
  · refine .after (Module.abortTask_keeps ..) rfl <| .after (Module.setEngState_keeps ..) rfl ?_
    exact .after (Module.setEng_keeps ..) rfl <| .after (Module.engReads_keeps ..) rfl .refl
  · refine .ite (fun _ => ?_) fun _ => ?_
    · refine .after (Module.abortTask_keeps ..) rfl <| .after (Module.setEngState_keeps ..) rfl ?_
      exact .after (Module.setEng_keeps ..) rfl <| .after (Module.engReads_keeps ..) rfl .refl
    · refine .after (Module.setEngState_keeps ..) rfl ?_
      exact .after (Module.setEng_keeps ..) rfl <| .after (Module.engReads_keeps ..) rfl .refl

theorem residentSetLoad_keeps (cl : Fin 8) (logical : Fin 17) (c : PortId) (stage : Fin 12) (m : Module) :
    Keeps (Fld.meet ||| Fld.engines) m (residentSetLoad cl logical c stage m) := by
  unfold residentSetLoad
  dsimp only
  split
  · split
    · exact .refl
    · split
      · exact .refl
      · refine .ite (fun _ => .refl) fun _ => ?_
        refine .ite (fun _ => .after (Module.readMeets_keeps ..) rfl .refl) fun _ => ?_
        exact .after (Module.setEng_keeps ..) rfl <| .after (Module.readMeets_keeps ..) rfl .refl
  · exact .refl

theorem rotationGroupExchange_keeps (c : PortId) (stage : Fin 8) (m : Module) :
    Keeps (Fld.ctxs ||| Fld.engines) m (rotationGroupExchange c stage m) := by
  unfold rotationGroupExchange
  dsimp only
  split
  · exact .refl
  · split
    · exact .refl
    · refine .ite (fun _ => .refl) fun _ => ?_
      refine .after (Module.setCtx_keeps ..) rfl ?_
      refine .foldl (fun _ _ => ?_) _ .refl
      split
      · exact .after (Module.setEng_keeps ..) rfl .refl
      · exact .refl

theorem Module.pictureStart_keeps (m : Module) (c : PortId) (s : Stream) (i : Fin 12) (p : PicPlan) (u skip : Nat) (rerun : Bool) :
    Keeps Fld.write m (Module.pictureStart m c s i p u skip rerun).2 := by
  unfold Module.pictureStart
  dsimp only
  exact .after (Module.write_keeps ..) rfl .refl

theorem Module.startStream_keeps (m : Module) (e : EngPos) (s : Stream) (c : PortId) (i : Fin 12) (u idx skip : Nat) (rerun : Bool) :
    Keeps (Fld.write ||| Fld.engines) m (Module.startStream m e s c i u idx skip rerun) := by
  unfold Module.startStream
  refine .ite (fun _ => ?_) fun _ => ?_
  · split
    · exact .refl
    · exact .after (Module.beginTask_keeps ..) rfl .refl
  · dsimp only
    split
    · exact .refl
    · exact .after (Module.beginTask_keeps ..) rfl <| .after (Module.pictureStart_keeps ..) rfl .refl

theorem Module.adjustJob_keeps (m : Module) (id : Nat) (f : Job → Job) : Keeps Fld.jobs m (Module.adjustJob m id f) := by
  unfold Module.adjustJob
  exact .upd .refl

theorem Module.startJob_keeps (m : Module) (e : EngPos) (id i k skip : Nat) (rerun : Bool) :
    Keeps (Fld.meet ||| Fld.engines) m (Module.startJob m e id i k skip rerun) := by
  unfold Module.startJob
  split
  · exact .refl
  · split
    · exact .refl
    · exact .after (Module.beginTask_keeps ..) rfl .refl

theorem taskStart_keeps (cl : Fin 8) (logical : Fin 17) (task : TaskRef) (m : Module) :
    Keeps (Fld.write ||| Fld.ctxs ||| Fld.engines) m (taskStart cl logical task m) := by
  unfold taskStart
  split
  · exact .refl
  · refine .ite (fun _ => .refl) fun _ => ?_
    split
    · split
      · exact .refl
      · split
        · exact .refl
        · refine Module.orWait_keeps ?_ ?_
          · exact .after (Module.startStream_keeps ..) rfl <| .after (Module.setCtx_keeps ..) rfl .refl
          · exact .refl
    · refine .ite (fun _ => ?_) fun _ => .refl
      refine Module.orWait_keeps ?_ ?_
      · exact .after (Module.startJob_keeps ..) rfl .refl
      · exact .refl
    · exact .refl

theorem rerunStart_keeps (e : EngPos) (m : Module) : Keeps (Fld.write ||| Fld.engines) m (rerunStart e m) := by
  unfold rerunStart
  refine .ite (fun _ => .refl) fun _ => ?_
  dsimp only
  split
  · split
    · exact .after (Module.setEng_keeps ..) rfl .refl
    · refine .ite (fun _ => ?_) fun _ => .refl
      refine Module.orWait_keeps ?_ ?_
      · exact .after (Module.startStream_keeps ..) rfl .refl
      · exact .refl
  · refine Module.orWait_keeps ?_ ?_
    · exact .after (Module.startJob_keeps ..) rfl .refl
    · exact .refl
  · exact .refl

theorem Module.withdrawDone_keeps (m : Module) (id : Nat) :
    Keeps (Fld.ring ||| Fld.withdraws) m (Module.withdrawDone m id) := by
  unfold Module.withdrawDone
  exact .foldl (fun _ _ => .after (Module.complete_keeps ..) rfl .refl) _ (.upd .refl)

theorem Module.endJob_keeps (m : Module) (j : Job) (status result : Nat) :
    Keeps (Fld.ring ||| Fld.job ||| Fld.regs) m (Module.endJob m j status result) := by
  unfold Module.endJob
  refine .after (Module.withdrawDone_keeps ..) rfl <| .after (Module.complete_keeps ..) rfl ?_
  refine .ite (fun _ => .after (Module.adjustJob_keeps ..) rfl .refl) fun _ => ?_
  exact .after (Module.setFld_keeps ..) rfl <| .upd .refl

theorem Module.settleJob_keeps (m : Module) (id : Nat) :
    Keeps (Fld.ring ||| Fld.job ||| Fld.regs) m (Module.settleJob m id) := by
  unfold Module.settleJob
  dsimp only
  split
  · exact .refl
  · refine .ite (fun _ => .refl) fun _ => ?_
    refine .ite (fun _ => .refl) fun _ => ?_
    refine .ite (fun _ => .after (Module.endJob_keeps ..) rfl .refl) fun _ => ?_
    split
    · exact .after (Module.endJob_keeps ..) rfl .refl
    · exact .ite (fun _ => .after (Module.endJob_keeps ..) rfl .refl) fun _ => .refl

theorem Module.writeCounts_keeps (m : Module) (g : StripeGeom) (p : PicPlan) (k : Nat) (gate : Option GateTask) :
    Keeps Fld.write m (Module.writeCounts m g p k gate) := by
  unfold Module.writeCounts
  split
  · exact .refl
  · exact .after (Module.write_keeps ..) rfl .refl

theorem Module.decideRows_keeps (m : Module) (e : EngPos) (t : EngTask) : Keeps Fld.write m (Module.decideRows m e t).2 := by
  unfold Module.decideRows
  dsimp only
  split
  · split
    · dsimp only
      exact .refl
    · split
      · dsimp only
        exact .refl
      · split
        · dsimp only
          exact .refl
        · dsimp only
          refine .after (Module.count_keeps ..) rfl ?_
          exact .after (Module.count_keeps ..) rfl <| .after (Module.residentGate_keeps ..) rfl .refl
  · dsimp only
    exact .refl

theorem Module.pictureEnd_keeps (m : Module) (c : PortId) (s : Stream) (stage u : Nat) (gate : Option GateTask) (idle missed : Bool) :
    Keeps (Fld.dmaMove ||| Fld.ctxs ||| Fld.planMoves ||| Fld.syncs) m (Module.pictureEnd m c s stage u gate idle missed) :=
      by
  unfold Module.pictureEnd
  dsimp only
  split
  · exact .refl
  · refine .ite (fun _ => ?_) fun _ => ?_
    · refine .ite (fun _ => ?_) fun _ => ?_
      · refine .ite (fun _ => ?_) fun _ => ?_
        · refine .after (Module.setCtx_keeps ..) rfl ?_
          refine .ite (fun _ => .refl) fun _ => ?_
          exact .after (Module.edgeOut_keeps ..) rfl <|
            .ite (fun _ => .after (Module.residentOut_keeps ..) rfl .refl) fun _ => .refl
        · refine .after (Module.count_keeps ..) rfl <| .after (Module.count_keeps ..) rfl ?_
          refine .after (Module.setCtx_keeps ..) rfl ?_
          refine .ite (fun _ => .refl) fun _ => ?_
          exact .after (Module.edgeOut_keeps ..) rfl <|
            .ite (fun _ => .after (Module.residentOut_keeps ..) rfl .refl) fun _ => .refl
      · refine .after (Module.outputs_keeps ..) rfl ?_
        refine .ite (fun _ => ?_) fun _ => ?_
        · refine .after (Module.setCtx_keeps ..) rfl ?_
          refine .ite (fun _ => .refl) fun _ => ?_
          exact .after (Module.edgeOut_keeps ..) rfl <|
            .ite (fun _ => .after (Module.residentOut_keeps ..) rfl .refl) fun _ => .refl
        · refine .after (Module.count_keeps ..) rfl <| .after (Module.count_keeps ..) rfl ?_
          refine .after (Module.setCtx_keeps ..) rfl ?_
          refine .ite (fun _ => .refl) fun _ => ?_
          exact .after (Module.edgeOut_keeps ..) rfl <|
            .ite (fun _ => .after (Module.residentOut_keeps ..) rfl .refl) fun _ => .refl
    · refine .after (Module.writeCounts_keeps ..) rfl ?_
      refine .ite (fun _ => ?_) fun _ => ?_
      · refine .ite (fun _ => ?_) fun _ => ?_
        · refine .after (Module.setCtx_keeps ..) rfl ?_
          refine .ite (fun _ => .refl) fun _ => ?_
          exact .after (Module.edgeOut_keeps ..) rfl <|
            .ite (fun _ => .after (Module.residentOut_keeps ..) rfl .refl) fun _ => .refl
        · refine .after (Module.count_keeps ..) rfl <| .after (Module.count_keeps ..) rfl ?_
          refine .after (Module.setCtx_keeps ..) rfl ?_
          refine .ite (fun _ => .refl) fun _ => ?_
          exact .after (Module.edgeOut_keeps ..) rfl <|
            .ite (fun _ => .after (Module.residentOut_keeps ..) rfl .refl) fun _ => .refl
      · refine .after (Module.outputs_keeps ..) rfl ?_
        refine .ite (fun _ => ?_) fun _ => ?_
        · refine .after (Module.setCtx_keeps ..) rfl ?_
          refine .ite (fun _ => .refl) fun _ => ?_
          exact .after (Module.edgeOut_keeps ..) rfl <|
            .ite (fun _ => .after (Module.residentOut_keeps ..) rfl .refl) fun _ => .refl
        · refine .after (Module.count_keeps ..) rfl <| .after (Module.count_keeps ..) rfl ?_
          refine .after (Module.setCtx_keeps ..) rfl ?_
          refine .ite (fun _ => .refl) fun _ => ?_
          exact .after (Module.edgeOut_keeps ..) rfl <|
            .ite (fun _ => .after (Module.residentOut_keeps ..) rfl .refl) fun _ => .refl

theorem Module.planSignals_keeps (m : Module) (t : EngTask) (missed : Bool) :
    Keeps (Fld.dmaMove ||| Fld.job ||| Fld.ctxs ||| Fld.planMoves ||| Fld.syncs) m (Module.planSignals m t missed) := by
  unfold Module.planSignals
  dsimp only
  split
  · refine .after (Module.settleJob_keeps ..) rfl <| .after (Module.adjustJob_keeps ..) rfl ?_
    split
    · exact .after (Module.guestAdd_keeps ..) rfl .refl
    · exact .refl
  · split
    · exact .refl
    · refine .ite (fun _ => .after (Module.pictureEnd_keeps ..) rfl .refl) fun _ => ?_
      split
      · exact .refl
      · exact .after (Module.setCtx_keeps ..) rfl <|
          .ite (fun _ => .after (Module.addSync_keeps ..) rfl .refl) fun _ => .refl

theorem Module.setMap_keeps (m : Module) (cl : Fin 8) (n p : Nat) : Keeps Fld.regs m (Module.setMap m cl n p) := by
  unfold Module.setMap
  exact .after (Module.setFld_keeps ..) rfl .refl

theorem Module.setName_keeps (m : Module) (e : EngPos) (n : Nat) : Keeps Fld.regs m (Module.setName m e n) := by
  unfold Module.setName
  exact .after (Module.setFld_keeps ..) rfl .refl

theorem Module.mapEvent_keeps (m : Module) (cl : Fin 8) (cause n old new : Nat) :
    Keeps Fld.event m (Module.mapEvent m cl cause n old new) := by
  unfold Module.mapEvent
  exact .after (Module.raise_keeps ..) rfl .refl

theorem Module.setSpare_keeps (m : Module) (cl : Fin 8) (v : Nat) : Keeps Fld.regs m (Module.setSpare m cl v) := by
  unfold Module.setSpare
  exact .after (Module.setFld_keeps ..) rfl .refl

theorem Module.swapSpare_keeps (m : Module) (e sp : EngPos) (cause state spare : Nat) :
    Keeps (Fld.event ||| Fld.engines) m (Module.swapSpare m e sp cause state spare) := by
  unfold Module.swapSpare
  refine .after (Module.mapEvent_keeps ..) rfl <| .after (Module.mapEvent_keeps ..) rfl ?_
  refine .after (Module.setFld_keeps ..) rfl <| .after (Module.setEng_keeps ..) rfl ?_
  refine .after (Module.satAdd_keeps ..) rfl <| .after (Module.setSpare_keeps ..) rfl ?_
  refine .after (Module.setEngState_keeps ..) rfl <| .after (Module.setEngState_keeps ..) rfl ?_
  refine .after (Module.setName_keeps ..) rfl <| .after (Module.setName_keeps ..) rfl ?_
  exact .after (Module.setMap_keeps ..) rfl <| .after (Module.setMap_keeps ..) rfl .refl

theorem Module.loseName_keeps (m : Module) (e : EngPos) : Keeps (Fld.event ||| Fld.engines) m (Module.loseName m e) := by
  unfold Module.loseName
  refine .after (Module.mapEvent_keeps ..) rfl <| .after (Module.setEng_keeps ..) rfl ?_
  refine .after (Module.satAdd_keeps ..) rfl ?_
  exact .after (Module.setEngState_keeps ..) rfl <| .after (Module.setMap_keeps ..) rfl .refl

theorem Module.faultEvent_keeps (m : Module) (e : EngPos) (n code : Nat) (t : EngTask) (rerun quarantined logged : Bool) :
    Keeps Fld.fault m (Module.faultEvent m e n code t rerun quarantined logged) := by
  unfold Module.faultEvent
  dsimp only
  split
  · refine .ite (fun _ => .after (Module.faultSeq_keeps ..) rfl .refl) fun _ => ?_
    exact .after (Module.raiseSeq_keeps ..) rfl .refl
  · refine .ite (fun _ => .after (Module.faultSeq_keeps ..) rfl .refl) fun _ => ?_
    exact .after (Module.raiseSeq_keeps ..) rfl .refl

theorem Module.faultPosition_keeps (m : Module) (e : EngPos) :
    Keeps (Fld.event ||| Fld.engines) m (Module.faultPosition m e).2 := by
  unfold Module.faultPosition
  dsimp only
  split
  · split
    · dsimp only
      exact .after (Module.loseName_keeps ..) rfl <| .after (Module.setEng_keeps ..) rfl .refl
    · dsimp only
      exact .after (Module.swapSpare_keeps ..) rfl <| .after (Module.setEng_keeps ..) rfl .refl
  · dsimp only
    exact .after (Module.loseName_keeps ..) rfl <| .after (Module.setEng_keeps ..) rfl .refl

theorem Module.leaveTask_keeps (m : Module) (e : EngPos) :
    Keeps (Fld.regs ||| Fld.draws ||| Fld.engines) m (Module.leaveTask m e) := by
  unfold Module.leaveTask
  dsimp only
  refine .after (Module.lostCycles_keeps ..) rfl <| .after (Module.satAdd_keeps ..) rfl ?_
  refine .after (Module.wr_keeps ..) rfl <| .after (Module.setEngState_keeps ..) rfl ?_
  exact .after (Module.setEng_keeps ..) rfl <| .after (Module.open__keeps ..) rfl <| .after (Module.open__keeps ..) rfl .refl

theorem taskComplete_keeps (e : EngPos) (m : Module) :
    Keeps (Fld.move ||| Fld.dmaMove ||| Fld.job ||| Fld.ctxs ||| Fld.syncs) m (taskComplete e m) := by
  unfold taskComplete
  dsimp only
  split
  · exact .refl
  · refine .ite (fun _ => .refl) fun _ => ?_
    refine .ite (fun _ => ?_) fun _ => ?_
    · exact .after (Module.abortTask_keeps ..) rfl <| .after (Module.engReads_keeps ..) rfl .refl
    · split
      · refine .after (Module.planSignals_keeps ..) rfl <| .after (Module.count_keeps ..) rfl ?_
        refine .after (Module.leaveTask_keeps ..) rfl ?_
        exact .after (Module.decideRows_keeps ..) rfl <| .after (Module.engReads_keeps ..) rfl .refl
      · refine .after (Module.faultPosition_keeps ..) rfl <| .after (Module.faultEvent_keeps ..) rfl ?_
        refine .after (Module.planSignals_keeps ..) rfl <| .after (Module.count_keeps ..) rfl ?_
        refine .after (Module.leaveTask_keeps ..) rfl ?_
        exact .after (Module.decideRows_keeps ..) rfl <| .after (Module.engReads_keeps ..) rfl .refl

theorem Module.engineFault_keeps (m : Module) (e : EngPos) (code : Nat) :
    Keeps (Fld.regs ||| Fld.engines) m (Module.engineFault m e code) := by
  unfold Module.engineFault
  dsimp only
  split
  · exact .refl
  · refine .ite (fun _ => ?_) fun _ => .after (Module.abortTask_keeps ..) rfl .refl
    refine .ite (fun _ => .refl) fun _ => ?_
    refine .after (Module.count_keeps ..) rfl ?_
    exact .after (Module.setFld_keeps ..) rfl <| .after (Module.putTask_keeps ..) rfl .refl

theorem Module.sweepFailed_keeps (m : Module) (e : EngPos) :
    Keeps (Fld.fault ||| Fld.engines) m (Module.sweepFailed m e) := by
  unfold Module.sweepFailed
  refine .ite (fun _ => ?_) fun _ => ?_
  · refine .after (Module.setEngState_keeps ..) rfl <| .after (Module.faultSeq_keeps ..) rfl ?_
    refine .after (Module.setFld_keeps ..) rfl ?_
    exact .after (Module.setEng_keeps ..) rfl <| .after (Module.setFld_keeps ..) rfl .refl
  · refine .ite (fun _ => ?_) fun _ => ?_
    · refine .after (Module.setSpare_keeps ..) rfl <| .after (Module.setEngState_keeps ..) rfl ?_
      refine .after (Module.faultSeq_keeps ..) rfl <| .after (Module.setFld_keeps ..) rfl ?_
      exact .after (Module.setEng_keeps ..) rfl <| .after (Module.setFld_keeps ..) rfl .refl
    · dsimp only
      split
      · refine .after (Module.swapSpare_keeps ..) rfl <| .after (Module.faultSeq_keeps ..) rfl ?_
        refine .after (Module.setFld_keeps ..) rfl ?_
        exact .after (Module.setEng_keeps ..) rfl <| .after (Module.setFld_keeps ..) rfl .refl
      · refine .after (Module.setEngState_keeps ..) rfl <| .after (Module.faultSeq_keeps ..) rfl ?_
        refine .after (Module.setFld_keeps ..) rfl ?_
        exact .after (Module.setEng_keeps ..) rfl <| .after (Module.setFld_keeps ..) rfl .refl

theorem engineFaultDetected_keeps (e : EngPos) (check : EngCheck) (m : Module) :
    Keeps (Fld.fault ||| Fld.engines) m (engineFaultDetected e check m) := by
  unfold engineFaultDetected
  dsimp only
  split
  · exact .after (Module.engineFault_keeps ..) rfl .refl
  · refine .ite (fun _ => ?_) fun _ => .refl
    exact .after (Module.sweepFailed_keeps ..) rfl <| .after (Module.count_keeps ..) rfl .refl

theorem engineWatchdog_keeps (e : EngPos) (m : Module) : Keeps (Fld.regs ||| Fld.engines) m (engineWatchdog e m) := by
  unfold engineWatchdog
  dsimp only
  split
  · exact .refl
  · refine .ite (fun _ => .after (Module.abortTask_keeps ..) rfl .refl) fun _ => ?_
    exact .after (Module.engineFault_keeps ..) rfl .refl

theorem Module.missTask_keeps (m : Module) (e : EngPos) (n status : Nat) (t : EngTask) :
    Keeps (Fld.dmaMove ||| Fld.job ||| Fld.ctxs ||| Fld.planMoves ||| Fld.syncs) m (Module.missTask m e n status t) := by
  unfold Module.missTask
  dsimp only
  split
  · exact .refl
  · exact .after (Module.planSignals_keeps ..) rfl <| .after (Module.raiseCtx_keeps ..) rfl .refl

theorem Module.failJobTask_keeps (m : Module) (e : EngPos) (n status : Nat) (t : EngTask) :
    Keeps (Fld.event ||| Fld.job) m (Module.failJobTask m e n status t) := by
  unfold Module.failJobTask
  dsimp only
  split
  · exact .refl
  · split
    · exact .refl
    · refine .after (Module.settleJob_keeps ..) rfl ?_
      exact .after (Module.adjustJob_keeps ..) rfl <| .after (Module.raise_keeps ..) rfl .refl

theorem Module.rerunTask_keeps (m : Module) (cl : Fin 8) (sp : Option EngPos) (t : EngTask) :
    Keeps (Fld.engines ||| Fld.jobs) m (Module.rerunTask m cl sp t) := by
  unfold Module.rerunTask
  dsimp only
  split
  · exact .after (Module.setEng_keeps ..) rfl .refl
  · exact .refl
  · split
    · exact .after (Module.adjustJob_keeps ..) rfl <| .after (Module.setEng_keeps ..) rfl .refl
    · exact .after (Module.adjustJob_keeps ..) rfl .refl

theorem abortComplete_keeps (e : EngPos) (m : Module) :
    Keeps (Fld.move ||| Fld.dmaMove ||| Fld.job ||| Fld.ctxs ||| Fld.syncs) m (abortComplete e m) := by
  unfold abortComplete
  refine Module.firmware_keeps (hb := .refl) (hf := fun _ _ => ?_) (hs := rfl) ..
  dsimp only
  split
  · assumption
  · split
    · assumption
    · refine .ite (fun _ => (by assumption)) fun _ => ?_
      refine .ite (fun _ => ?_) fun _ => ?_
      · refine .after (Module.rerunTask_keeps ..) rfl ?_
        split
        · refine .after (Module.faultPosition_keeps ..) rfl ?_
          dsimp only
          exact .after (Module.faultEvent_keeps ..) rfl <| .after (Module.leaveTask_keeps ..) rfl (by assumption)
        · dsimp only
          refine .ite (fun _ => ?_) fun _ => .after (Module.leaveTask_keeps ..) rfl (by assumption)
          exact .after (Module.faultEvent_keeps ..) rfl <| .after (Module.leaveTask_keeps ..) rfl (by assumption)
      · split
        · refine .after (Module.missTask_keeps ..) rfl ?_
          split
          · refine .after (Module.faultPosition_keeps ..) rfl ?_
            dsimp only
            exact .after (Module.faultEvent_keeps ..) rfl <| .after (Module.leaveTask_keeps ..) rfl (by assumption)
          · dsimp only
            refine .ite (fun _ => ?_) fun _ => .after (Module.leaveTask_keeps ..) rfl (by assumption)
            exact .after (Module.faultEvent_keeps ..) rfl <| .after (Module.leaveTask_keeps ..) rfl (by assumption)
        · refine .ite (fun _ => ?_) fun _ => ?_
          · refine .after (Module.settleJob_keeps ..) rfl <| .after (Module.adjustJob_keeps ..) rfl ?_
            split
            · refine .after (Module.faultPosition_keeps ..) rfl ?_
              dsimp only
              exact .after (Module.faultEvent_keeps ..) rfl <| .after (Module.leaveTask_keeps ..) rfl (by assumption)
            · dsimp only
              refine .ite (fun _ => ?_) fun _ => .after (Module.leaveTask_keeps ..) rfl (by assumption)
              exact .after (Module.faultEvent_keeps ..) rfl <| .after (Module.leaveTask_keeps ..) rfl (by assumption)
          · refine .after (Module.failJobTask_keeps ..) rfl ?_
            split
            · refine .after (Module.faultPosition_keeps ..) rfl ?_
              dsimp only
              exact .after (Module.faultEvent_keeps ..) rfl <| .after (Module.leaveTask_keeps ..) rfl (by assumption)
            · dsimp only
              refine .ite (fun _ => ?_) fun _ => .after (Module.leaveTask_keeps ..) rfl (by assumption)
              exact .after (Module.faultEvent_keeps ..) rfl <| .after (Module.leaveTask_keeps ..) rfl (by assumption)

theorem rotationDue_keeps (cl : Fin 8) (m : Module) : Keeps Fld.rotDue m (rotationDue cl m) := by
  unfold rotationDue
  exact .ite (fun _ => .refl) fun _ => .upd .refl

theorem rotation_keeps (cl : Fin 8) (m : Module) : Keeps (Fld.event ||| Fld.engines ||| Fld.rotDue) m (rotation cl m) := by
  unfold rotation
  dsimp only
  split
  · refine .ite (fun _ => .refl) fun _ => ?_
    refine .after (Module.swapSpare_keeps ..) rfl ?_
    exact .after (Module.setEng_keeps ..) rfl <| .after (Module.setEng_keeps ..) rfl <| .upd .refl
  · exact .refl

theorem rotationSkip_keeps (cl : Fin 8) (m : Module) : Keeps Fld.rotDue m (rotationSkip cl m) := by
  unfold rotationSkip
  exact .upd .refl

theorem Module.testSpares_keeps (m : Module) (old eng : Nat) : Keeps Fld.regs m (Module.testSpares m old eng) := by
  unfold Module.testSpares
  exact .foldl (fun _ _ => .ite (fun _ => .after (Module.setSpare_keeps ..) rfl .refl) fun _ => .refl) _ .refl

theorem Module.rampEng_keeps (m : Module) (e : EngPos) : Keeps Fld.regs m (Module.rampEng m e) := by
  unfold Module.rampEng
  refine .ite (fun _ => .refl) fun _ => ?_
  refine .after (Module.testSpares_keeps ..) rfl ?_
  exact .after (Module.setFld_keeps ..) rfl <| .after (Module.rampSpm_keeps ..) rfl .refl

theorem sweepDone_keeps (e : EngPos) (pass full : Bool) (m : Module) :
    Keeps (Fld.fault ||| Fld.engines ||| Fld.sweepNo) m (sweepDone e pass full m) := by
  unfold sweepDone
  refine .ite (fun _ => .after (Module.rampEng_keeps ..) rfl .refl) fun _ => ?_
  refine .ite (fun _ => ?_) fun _ => ?_
  · refine .after (Module.sweepFailed_keeps ..) rfl <| .after (Module.setFld_keeps ..) rfl ?_
    refine .ite (fun _ => ?_) fun _ => .after (Module.rampEng_keeps ..) rfl .refl
    exact .after (Module.setFld_keeps ..) rfl <| .after (Module.rampEng_keeps ..) rfl .refl
  · refine .ite (fun _ => ?_) fun _ => ?_
    · refine .ite (fun _ => ?_) fun _ => ?_
      · refine .after (Module.setSpare_keeps ..) rfl <| .after (Module.setEngState_keeps ..) rfl ?_
        refine .after (Module.satAdd_keeps ..) rfl <| .after (Module.setEng_keeps ..) rfl ?_
        refine .upd ?_
        refine .after (Module.setFld_keeps ..) rfl ?_
        refine .ite (fun _ => ?_) fun _ => .after (Module.rampEng_keeps ..) rfl .refl
        exact .after (Module.setFld_keeps ..) rfl <| .after (Module.rampEng_keeps ..) rfl .refl
      · refine .after (Module.satAdd_keeps ..) rfl <| .after (Module.setEng_keeps ..) rfl ?_
        refine .upd ?_
        refine .after (Module.setFld_keeps ..) rfl ?_
        refine .ite (fun _ => ?_) fun _ => .after (Module.rampEng_keeps ..) rfl .refl
        exact .after (Module.setFld_keeps ..) rfl <| .after (Module.rampEng_keeps ..) rfl .refl
    · refine .ite (fun _ => ?_) fun _ => ?_
      · refine .after (Module.setSpare_keeps ..) rfl <| .after (Module.satAdd_keeps ..) rfl ?_
        refine .after (Module.setEng_keeps ..) rfl ?_
        refine .upd ?_
        refine .after (Module.setFld_keeps ..) rfl ?_
        refine .ite (fun _ => ?_) fun _ => .after (Module.rampEng_keeps ..) rfl .refl
        exact .after (Module.setFld_keeps ..) rfl <| .after (Module.rampEng_keeps ..) rfl .refl
      · refine .ite (fun _ => ?_) fun _ => ?_
        · refine .after (Module.setSpare_keeps ..) rfl <| .after (Module.setEngState_keeps ..) rfl ?_
          refine .after (Module.satAdd_keeps ..) rfl <| .after (Module.setEng_keeps ..) rfl ?_
          refine .upd ?_
          refine .after (Module.setFld_keeps ..) rfl ?_
          refine .ite (fun _ => ?_) fun _ => .after (Module.rampEng_keeps ..) rfl .refl
          exact .after (Module.setFld_keeps ..) rfl <| .after (Module.rampEng_keeps ..) rfl .refl
        · refine .after (Module.satAdd_keeps ..) rfl <| .after (Module.setEng_keeps ..) rfl ?_
          refine .upd ?_
          refine .after (Module.setFld_keeps ..) rfl ?_
          refine .ite (fun _ => ?_) fun _ => .after (Module.rampEng_keeps ..) rfl .refl
          exact .after (Module.setFld_keeps ..) rfl <| .after (Module.rampEng_keeps ..) rfl .refl

theorem writeAcknowledged_keeps (writer : Writer) (m : Module) :
    Keeps (Fld.dmaMove ||| Fld.engines) m (writeAcknowledged writer m) := by
  unfold writeAcknowledged
  split
  · exact .after (Module.engineAck_keeps ..) rfl .refl
  · exact .ite (fun _ => .refl) fun _ => .after (Module.dmaGo_keeps ..) rfl .refl

theorem Module.engineData_keeps (m : Module) (e : EngPos) (seq : Word) (data : List Byte) :
    Keeps Fld.walk m (Module.engineData m e seq data) := by
  unfold Module.engineData
  dsimp only
  split
  · exact .refl
  · refine .after (Module.pumpReads_keeps ..) rfl ?_
    exact .after (Module.pump_keeps ..) rfl <| .after (Module.putTask_keeps ..) rfl .refl

theorem Module.engineWrote_keeps (m : Module) (x : WinOut) (e : EngPos) : Keeps Fld.walk m (Module.engineWrote m x e) := by
  unfold Module.engineWrote
  exact .ite (fun _ => .refl) fun _ => .after (Module.ackWrite_keeps ..) rfl .refl

theorem Module.engineFailed_keeps (m : Module) (x : WinOut) (e : EngPos) (status : Nat) :
    Keeps Fld.walk m (Module.engineFailed m x e status) := by
  unfold Module.engineFailed
  dsimp only
  split
  · exact .refl
  · refine .ite (fun _ => ?_) fun _ => .after (Module.abortTask_keeps ..) rfl .refl
    exact .after (Module.engineWrote_keeps ..) rfl <| .after (Module.abortTask_keeps ..) rfl .refl

theorem Module.reportDone_keeps (m : Module) (x : WinOut) (c : CmdRef) (status result : Nat) :
    Keeps Fld.event m (Module.reportDone m x c status result) := by
  unfold Module.reportDone
  exact .ite (fun _ => .refl) fun _ => .after (Module.admitEnd_keeps ..) rfl .refl

theorem Module.winFailed_keeps (m : Module) (x : WinOut) (status : Nat) :
    Keeps (Fld.dmaMove ||| Fld.job ||| Fld.engines ||| Fld.fills ||| Fld.hostWaits) m (Module.winFailed m x status) := by
  unfold Module.winFailed
  dsimp only
  split
  · exact .after (Module.endSession_keeps ..) rfl .refl
  · exact .after (Module.endSession_keeps ..) rfl .refl
  · exact .after (Module.debugAnswer_keeps ..) rfl .refl
  · exact .after (Module.dmaReturn_keeps ..) rfl .refl
  · exact .after (Module.dmaReturn_keeps ..) rfl .refl
  · exact .after (Module.engineFailed_keeps ..) rfl .refl
  · exact .after (Module.reportDone_keeps ..) rfl .refl
  · exact .refl

theorem Module.winDone_keeps (m : Module) (x : WinOut) (data : List Byte) :
    Keeps (Fld.dmaMove ||| Fld.engines) m (Module.winDone m x data) := by
  unfold Module.winDone
  dsimp only
  split
  · exact .upd .refl
  · exact .upd .refl
  · exact .after (Module.debugAnswer_keeps ..) rfl .refl
  · exact .after (Module.dmaReturn_keeps ..) rfl .refl
  · exact .after (Module.dmaData_keeps ..) rfl .refl
  · refine .ite (fun _ => .after (Module.engineWrote_keeps ..) rfl .refl) fun _ => ?_
    exact .after (Module.engineData_keeps ..) rfl .refl
  · exact .after (Module.reportDone_keeps ..) rfl .refl
  · exact .refl

theorem Module.learnEpoch_keeps (m : Module) (x : WinOut) (epoch : Word) :
    Keeps (Fld.sessions ||| Fld.binds) m (Module.learnEpoch m x epoch) := by
  unfold Module.learnEpoch
  split
  · exact .upd .refl
  · split
    · exact .after (Module.setSession_keeps ..) rfl .refl
    · exact .refl

theorem Module.afterReturn_keeps (m : Module) (x : WinOut) : Keeps Fld.walk m (Module.afterReturn m x) := by
  unfold Module.afterReturn
  split
  · exact .after (Module.finishUnbind_keeps ..) rfl <| .after (Module.pumpAll_keeps ..) rfl .refl
  · exact .refl

theorem windowResponse_keeps (h : Hdr) (status : W16) (data : List Byte) (m : Module) :
    Keeps (Fld.dmaMove ||| Fld.job ||| Fld.engines ||| Fld.fills ||| Fld.hostWaits) m (windowResponse h status data m) := by
  unfold windowResponse
  refine .ite (fun _ => .after (Module.popRx_keeps ..) rfl .refl) fun _ => ?_
  dsimp only
  split
  · exact .after (Module.popRx_keeps ..) rfl .refl
  · refine .after (Module.afterReturn_keeps ..) rfl ?_
    refine .ite (fun _ => ?_) fun _ => ?_
    · refine .after (Module.winDone_keeps ..) rfl <| .after (Module.learnEpoch_keeps ..) rfl ?_
      exact .after (Module.winDrop_keeps ..) rfl <| .after (Module.popRx_keeps ..) rfl .refl
    · refine .after (Module.winFailed_keeps ..) rfl <| .after (Module.learnEpoch_keeps ..) rfl ?_
      exact .after (Module.winDrop_keeps ..) rfl <| .after (Module.popRx_keeps ..) rfl .refl

theorem Module.winResend_keeps (m : Module) (x : WinOut) :
    Keeps (Fld.send ||| Fld.regs ||| Fld.winOut ||| Fld.netPorts) m (Module.winResend m x) := by
  unfold Module.winResend
  refine .ite (fun _ => .refl) fun _ => ?_
  exact .after (Module.winHand_keeps ..) rfl <| .after (Module.count_keeps ..) rfl <| .upd .refl

theorem winRetryTimeout_keeps (node session : W16) (seq : Word) (m : Module) :
    Keeps (Fld.dmaMove ||| Fld.job ||| Fld.engines ||| Fld.fills ||| Fld.hostWaits) m (winRetryTimeout node session seq m)
      := by
  unfold winRetryTimeout
  split
  · exact .refl
  · refine .ite (fun _ => .after (Module.winResend_keeps ..) rfl .refl) fun _ => ?_
    refine .after (Module.afterReturn_keeps ..) rfl ?_
    exact .after (Module.winFailed_keeps ..) rfl <| .after (Module.winDrop_keeps ..) rfl .refl

theorem stackZeroingDone_keeps (s : Fin 8) (m : Module) : Keeps (Fld.dmaMove ||| Fld.engines) m (stackZeroingDone s m) := by
  unfold stackZeroingDone
  refine .ite (fun _ => ?_) fun _ => .after (Module.rampSpm_keeps ..) rfl .refl
  refine .after (Module.pumpAll_keeps ..) rfl <| .after (Module.dmaGoOn_keeps ..) rfl ?_
  refine .after (Module.setFld_keeps ..) rfl ?_
  exact .after (Module.zeroStack_keeps ..) rfl <| .after (Module.rampSpm_keeps ..) rfl .refl

theorem Module.chooseEngines_keeps (m : Module) (l : List Nat) (n group : Nat) (ok : List Nat → Nat → Bool) :
    Keeps Fld.draws m (Module.chooseEngines m l n group ok).2 := by
  unfold Module.chooseEngines
  split
  · refine .foldl2 (fun _ _ => ?_) _ ?_
    · dsimp only
      exact .after (Module.pick_keeps ..) rfl .refl
    · dsimp only
      exact .refl
  · dsimp only
    split
    · dsimp only
      exact .after (Module.pick_keeps ..) rfl .refl
    · dsimp only
      exact .after (Module.pick_keeps ..) rfl .refl

theorem Module.placeStage_keeps (m : Module) (i tasks : Nat) (p : StagePlan) (before : List StagePlan) :
    Keeps Fld.draws m (Module.placeStage m i tasks p before).2 := by
  unfold Module.placeStage
  dsimp only
  split
  · split
    · dsimp only
      exact .after (Module.chooseEngines_keeps ..) rfl .refl
    · split
      · dsimp only
        exact .after (Module.chooseEngines_keeps ..) rfl .refl
      · dsimp only
        exact .after (Module.chooseEngines_keeps ..) rfl .refl
  · split
    · dsimp only
      exact .after (Module.chooseEngines_keeps ..) rfl .refl
    · split
      · dsimp only
        exact .after (Module.chooseEngines_keeps ..) rfl .refl
      · dsimp only
        exact .after (Module.chooseEngines_keeps ..) rfl .refl

theorem Module.placeStages_keeps (m : Module) (l : List (Nat × Nat × StagePlan)) :
    Keeps Fld.draws m (Module.placeStages m l).2 := by
  unfold Module.placeStages
  refine .foldl2 (fun _ _ => ?_) _ ?_
  · split
    · exact .refl
    · dsimp only
      split
      · dsimp only
        refine .snd (by assumption) ?_
        exact .after (Module.placeStage_keeps ..) rfl .refl
      · dsimp only
        refine .snd (by assumption) ?_
        exact .after (Module.placeStage_keeps ..) rfl .refl
  · dsimp only
    exact .refl

theorem Module.reserve_keeps (m : Module) (c i size : Nat) :
    Keeps (Fld.regs ||| Fld.draws ||| Fld.regions) m (Module.reserve m c i size).2 := by
  unfold Module.reserve
  split
  · dsimp only
    exact .refl
  · dsimp only
    split
    · dsimp only
      refine .snd (by assumption) ?_
      exact .after (Module.place_keeps ..) rfl .refl
    · dsimp only
      refine .after (Module.reportRegions_keeps ..) rfl ?_
      refine .upd ?_
      refine .after (Module.zoneSpan_keeps ..) rfl ?_
      refine .snd (by assumption) ?_
      exact .after (Module.place_keeps ..) rfl .refl

theorem Module.unreserve_keeps (m : Module) (c : Nat) : Keeps (Fld.regs ||| Fld.regions) m (Module.unreserve m c) := by
  unfold Module.unreserve
  exact .after (Module.reportRegions_keeps ..) rfl <| .upd .refl

theorem Module.reserveAll_keeps (m : Module) (c : Nat) (l : List (Nat × Nat)) :
    Keeps (Fld.regs ||| Fld.draws ||| Fld.regions) m (Module.reserveAll m c l).2 := by
  unfold Module.reserveAll
  refine .foldl2 (fun _ _ => ?_) _ ?_
  · split
    · exact .refl
    · dsimp only
      split
      · dsimp only
        refine .snd (by assumption) ?_
        exact .after (Module.reserve_keeps ..) rfl .refl
      · dsimp only
        refine .snd (by assumption) ?_
        exact .after (Module.reserve_keeps ..) rfl .refl
  · dsimp only
    exact .refl

theorem Module.reservePlan_keeps (m : Module) (x : FormIn) (out : List Nat) :
    Keeps (Fld.regs ||| Fld.draws ||| Fld.regions) m (Module.reservePlan m x out).2 := by
  unfold Module.reservePlan
  dsimp only
  exact .after (Module.reserveAll_keeps ..) rfl .refl

theorem Module.meetCopies_keeps (m : Module) (l : List (Nat × Nat × Nat)) : Keeps Fld.meet m (Module.meetCopies m l).2 := by
  unfold Module.meetCopies
  refine .foldl2 (fun _ _ => ?_) _ ?_
  · dsimp only
    exact .after (Module.readMeets_keeps ..) rfl .refl
  · dsimp only
    exact .refl

theorem Module.fillPlan_keeps (m : Module) (c : Nat) (s : Setup) (p : Plan) :
    Keeps Fld.write m (Module.fillPlan m c s p) := by
  unfold Module.fillPlan
  exact .foldl (fun _ _ => .foldl (fun _ _ => .after (Module.write_keeps ..) rfl .refl) _ .refl) _ (.foldl (fun _ _ => .after (Module.write_keeps ..) rfl .refl) _ (.foldl (fun _ _ => .after (Module.zero_keeps ..) rfl .refl) _ .refl))

theorem Module.placePlan_keeps (m : Module) (x : FormIn) (stages : List StagePlan) (pics : List PicPlan) :
    Keeps Fld.draws m (Module.placePlan m x stages pics).2 := by
  unfold Module.placePlan
  dsimp only
  split
  · dsimp only
    refine .snd (by assumption) ?_
    exact .after (Module.placeStages_keeps ..) rfl .refl
  · dsimp only
    refine .snd (by assumption) ?_
    exact .after (Module.placeStages_keeps ..) rfl .refl

theorem Module.judge_keeps (m : Module) (limit : Nat) (t : Nat × Nat) : Keeps Fld.draws m (Module.judge m limit t).2 := by
  unfold Module.judge
  split
  · dsimp only
    exact .refl
  · dsimp only
    split
    · split
      · dsimp only
        exact .after (Module.pick_keeps ..) rfl .refl
      · dsimp only
        exact .after (Module.pick_keeps ..) rfl <| .after (Module.pick_keeps ..) rfl .refl
    · split
      · dsimp only
        exact .refl
      · dsimp only
        exact .after (Module.pick_keeps ..) rfl .refl

theorem Module.judgeAll_keeps (m : Module) (l : List (Nat × Nat × Nat × Nat)) :
    Keeps Fld.draws m (Module.judgeAll m l).2 := by
  unfold Module.judgeAll
  refine .foldl2 (fun _ _ => ?_) _ ?_
  · split
    · dsimp only
      refine .snd (by assumption) ?_
      exact .after (Module.judge_keeps ..) rfl .refl
    · dsimp only
      refine .snd (by assumption) ?_
      exact .after (Module.judge_keeps ..) rfl .refl
  · dsimp only
    exact .refl

theorem Module.checkDeadline_keeps (m : Module) (x : FormIn) (p : Plan) :
    Keeps Fld.draws m (Module.checkDeadline m x p).2.2 := by
  unfold Module.checkDeadline
  dsimp only
  split
  · refine .after (Module.judgeAll_keeps ..) rfl <| .after (Module.judgeAll_keeps ..) rfl ?_
    refine .foldl2 (fun _ _ => ?_) _ ?_
    · dsimp only
      exact .after (Module.pick_keeps ..) rfl .refl
    · dsimp only
      exact .refl
  · dsimp only
    refine .after (Module.judgeAll_keeps ..) rfl ?_
    refine .foldl2 (fun _ _ => ?_) _ ?_
    · dsimp only
      exact .after (Module.pick_keeps ..) rfl .refl
    · dsimp only
      exact .refl

theorem Module.checkMargin_keeps (m : Module) (x : FormIn) (p : Plan) : Keeps Fld.draws m (Module.checkMargin m x p).2 := by
  unfold Module.checkMargin
  dsimp only
  split
  · dsimp only
    exact .after (Module.open__keeps ..) rfl <| .after (Module.judgeAll_keeps ..) rfl .refl
  · split
    · dsimp only
      exact .after (Module.judgeAll_keeps ..) rfl .refl
    · dsimp only
      exact .after (Module.judgeAll_keeps ..) rfl .refl

theorem Module.placedChecks_keeps (m : Module) (x : FormIn) (p : Plan) :
    Keeps Fld.draws m (Module.placedChecks m x p).2.2 := by
  unfold Module.placedChecks
  dsimp only
  split
  · exact .after (Module.checkMargin_keeps ..) rfl <| .after (Module.checkDeadline_keeps ..) rfl .refl
  · dsimp only
    exact .after (Module.checkDeadline_keeps ..) rfl .refl

theorem Module.writeWeights_keeps (m : Module) (st : StageSetup) (sets addr : Nat) :
    Keeps (Fld.write ||| Fld.gatherAge) m (Module.writeWeights m st sets addr) := by
  unfold Module.writeWeights
  refine .ite (fun _ => .refl) fun _ => ?_
  dsimp only
  split
  · exact .refl
  · exact .foldl (fun _ _ => .ite (fun _ => .after (Module.store_keeps ..) rfl .refl) fun _ => .refl) _ .refl

theorem Module.makePlan_keeps (m : Module) (x : FormIn) :
    Keeps (Fld.regs ||| Fld.draws ||| Fld.regions) m (Module.makePlan m x).2.2 := by
  unfold Module.makePlan
  dsimp only
  split
  · split
    · dsimp only
      refine .snd2 (by assumption) ?_
      refine .after (Module.placedChecks_keeps ..) rfl <| .after (Module.pick_keeps ..) rfl ?_
      exact .after (Module.placePlan_keeps ..) rfl <| .after (Module.reservePlan_keeps ..) rfl .refl
    · dsimp only
      refine .snd2 (by assumption) ?_
      refine .after (Module.placedChecks_keeps ..) rfl <| .after (Module.pick_keeps ..) rfl ?_
      exact .after (Module.placePlan_keeps ..) rfl <| .after (Module.reservePlan_keeps ..) rfl .refl
  · dsimp only
    exact .after (Module.placePlan_keeps ..) rfl <| .after (Module.reservePlan_keeps ..) rfl .refl

theorem Module.recordFetch_keeps (m : Module) (a n : Nat) (rec : Remote) :
    Keeps (Fld.meet ||| Fld.winSeq) m (Module.recordFetch m a n rec).2 := by
  unfold Module.recordFetch
  dsimp only
  split
  · refine .ite (fun _ => .after (Module.readMeets_keeps ..) rfl .refl) fun _ => ?_
    exact .foldl (fun _ _ => .after (Module.askWindow_keeps ..) rfl .refl) _ (.after (Module.readMeets_keeps ..) rfl .refl)
  · exact .after (Module.readMeets_keeps ..) rfl .refl

theorem Module.writeOut_keeps (m : Module) (a : Nat) (l : List Byte) (use : WinUse) :
    Keeps (Fld.write ||| Fld.window ||| Fld.gatherAge) m (Module.writeOut m a l use) := by
  unfold Module.writeOut
  split
  · exact .foldl (fun _ _ => .ite (fun _ => .refl) fun _ => .after (Module.winWriteTo_keeps ..) rfl .refl) _ .refl
  · exact .ite (fun _ => .after (Module.store_keeps ..) rfl .refl) fun _ => .refl

theorem admitStart_keeps (setup report : W64) (reportLen : Word) (rec : Remote) (c : CmdRef) (m : Module) :
    Keeps (Fld.meet ||| Fld.winSeq ||| Fld.admitting) m (admitStart setup report reportLen rec c m) := by
  unfold admitStart
  refine .ite (fun _ => ?_) fun _ => ?_
  · exact .after (Module.complete_keeps ..) rfl <| .after (Module.count_keeps ..) rfl .refl
  · split
    · refine .after (Module.complete_keeps ..) rfl ?_
      refine .snd (by assumption) ?_
      exact .after (Module.recordFetch_keeps ..) rfl .refl
    · split
      · refine .after (Module.complete_keeps ..) rfl ?_
        refine .snd (by assumption) ?_
        refine .after (Module.recordFetch_keeps ..) rfl ?_
        refine .snd (by assumption) ?_
        exact .after (Module.recordFetch_keeps ..) rfl .refl
      · refine .upd ?_
        refine .snd (by assumption) ?_
        refine .after (Module.recordFetch_keeps ..) rfl ?_
        refine .snd (by assumption) ?_
        exact .after (Module.recordFetch_keeps ..) rfl .refl

theorem admitStream_keeps (h : CmdHdr) (setup report : W64) (reportLen : Word) (rec : Remote) (m : Module) :
    Keeps (Fld.meet ||| Fld.winSeq ||| Fld.admitting ||| Fld.transition) m (admitStream h setup report reportLen rec m) := by
  unfold admitStream
  refine .ite (fun _ => .refl) fun _ => ?_
  refine Module.commandRun_keeps (hb := .refl) (hf := fun _ _ _ => ?_) (hs := rfl) ..
  exact .after (admitStart_keeps ..) rfl (by assumption)

theorem Module.admitReport_keeps (m : Module) (q : AdmitReq) (failed : Nat) (tried : Bool) (stream : Nat) (l : List RepEntry) (status result : Nat) :
    Keeps (Fld.write ||| Fld.window ||| Fld.gatherAge) m (Module.admitReport m q failed tried stream l status result) := by
  unfold Module.admitReport
  refine .ite (fun _ => ?_) fun _ => ?_
  · exact .ite (fun _ => .refl) fun _ => .after (Module.writeOut_keeps ..) rfl .refl
  · exact .after (Module.admitEnd_keeps ..) rfl <| .ite (fun _ => .refl) fun _ => .after (Module.writeOut_keeps ..) rfl .refl

theorem Module.refuseAdmit_keeps (m : Module) (q : AdmitReq) (tried : Bool) (l : List RepEntry) :
    Keeps (Fld.write ||| Fld.window ||| Fld.gatherAge) m (Module.refuseAdmit m q tried l) := by
  unfold Module.refuseAdmit
  exact .after (Module.admitReport_keeps ..) rfl <| .after (Module.count_keeps ..) rfl .refl

theorem Module.buildGates_keeps (m : Module) : Keeps Fld.netPorts m (Module.buildGates m) := by
  unfold Module.buildGates
  exact .after (Module.setNetPort_keeps ..) rfl <| .after (Module.setNetPort_keeps ..) rfl .refl

theorem Module.clipHeader_keeps (m : Module) (c k : Nat) :
    Keeps (Fld.write ||| Fld.gatherAge) m (Module.clipHeader m c k) := by
  unfold Module.clipHeader
  dsimp only
  split
  · exact .refl
  · exact .after (Module.store_keeps ..) rfl .refl

theorem Module.installStream_keeps (m : Module) (c : Nat) (s : Stream) :
    Keeps (Fld.write ||| Fld.ctxs ||| Fld.gatherAge ||| Fld.clips ||| Fld.syncs ||| Fld.syncOwner) m (Module.installStream m
      c s) := by
  unfold Module.installStream
  refine .foldl (fun _ _ => .ite (fun _ => .after (Module.clipHeader_keeps ..) rfl <| .upd .refl) fun _ => .refl) _ ?_
  refine .foldl (fun _ _ => ?_) _ ?_
  · dsimp only
    exact .after (Module.writeWeights_keeps ..) rfl .refl
  · refine .after (Module.startContext_keeps ..) rfl ?_
    exact .foldl (fun _ _ => .after (Module.setSync_keeps ..) rfl <|
      .upd .refl) _ (.foldl (fun _ _ => .after (Module.wr_keeps ..) rfl .refl) _ .refl)

theorem Module.handLane_keeps (m : Module) (c : Nat) : Keeps (Fld.regs ||| Fld.cals) m (Module.handLane m c) := by
  unfold Module.handLane
  dsimp only
  split
  · exact .after (Module.setCal_keeps ..) rfl <| .after (Module.unbindLane_keeps ..) rfl .refl
  · exact .refl

theorem Module.ownChannels_keeps (m : Module) (l : List Nat) : Keeps (Fld.regs ||| Fld.dma) m (Module.ownChannels m l) := by
  unfold Module.ownChannels
  exact .foldl (fun _ _ => .after (Module.setChan_keeps ..) rfl .refl) _ .refl

theorem Module.takePlan_keeps (m : Module) (c : Nat) (s : Stream) :
    Keeps (Fld.regs ||| Fld.ctxs ||| Fld.cals ||| Fld.dma ||| Fld.syncOwner ||| Fld.streams) m (Module.takePlan m c s) := by
  unfold Module.takePlan
  refine .upd ?_
  refine .foldl (fun _ _ => .upd .refl) _ ?_
  refine .after (Module.ownChannels_keeps ..) rfl ?_
  exact .after (Module.bindLane_keeps ..) rfl <| .after (Module.handLane_keeps ..) rfl .refl

theorem Module.enterStream_keeps (m : Module) (q : AdmitReq) (x : FormIn) (p : Plan) (tried : Bool) (l : List RepEntry) :
    Keeps (Fld.write ||| Fld.window ||| Fld.journal ||| Fld.ctxs ||| Fld.cals ||| Fld.gatherAge ||| Fld.dma ||| Fld.clips
      ||| Fld.syncs ||| Fld.syncOwner ||| Fld.streams) m (Module.enterStream m q x p tried l) := by
  unfold Module.enterStream
  refine .after (Module.admitReport_keeps ..) rfl <| .after (Module.journalEntry_keeps ..) rfl ?_
  refine .after (Module.reportPlanned_keeps ..) rfl <| .after (Module.buildGates_keeps ..) rfl ?_
  refine .after (Module.installStream_keeps ..) rfl ?_
  refine .foldl (fun _ _ => .after (Module.setFld_keeps ..) rfl .refl) _ ?_
  refine .after (Module.wr_keeps ..) rfl ?_
  exact .after (Module.fillPlan_keeps ..) rfl <| .after (Module.takePlan_keeps ..) rfl .refl

theorem admitComplete_keeps (c : PortId) (m : Module) :
    Keeps (Fld.write ||| Fld.window ||| Fld.journal ||| Fld.ctxs ||| Fld.cals ||| Fld.regions ||| Fld.gatherAge ||| Fld.dma
      ||| Fld.clips ||| Fld.syncs ||| Fld.syncOwner ||| Fld.streams ||| Fld.admitting) m (admitComplete c m) := by
  unfold admitComplete
  refine Module.firmware_keeps (hb := .refl) (hf := fun _ _ => ?_) (hs := rfl) ..
  dsimp only
  split
  · assumption
  · refine .ite (fun _ => (by assumption)) fun _ => ?_
    refine .ite (fun _ => ?_) fun _ => ?_
    · refine .after (Module.complete_keeps ..) rfl ?_
      refine .upd ?_
      exact (by assumption)
    · split
      · refine .after (Module.refuseAdmit_keeps ..) rfl ?_
        refine .upd ?_
        exact (by assumption)
      · split
        · refine .after (Module.refuseAdmit_keeps ..) rfl ?_
          refine .upd ?_
          exact (by assumption)
        · refine .ite (fun _ => ?_) fun _ => ?_
          · refine .after (Module.complete_keeps ..) rfl <| .after (Module.unreserve_keeps ..) rfl ?_
            refine .after (Module.meetCopies_keeps ..) rfl ?_
            refine .snd2 (by assumption) ?_
            refine .after (Module.makePlan_keeps ..) rfl ?_
            refine .upd ?_
            exact (by assumption)
          · refine .after (Module.enterStream_keeps ..) rfl <| .after (Module.meetCopies_keeps ..) rfl ?_
            refine .snd2 (by assumption) ?_
            refine .after (Module.makePlan_keeps ..) rfl ?_
            refine .upd ?_
            exact (by assumption)

theorem Module.beginRelease_keeps (m : Module) (c : Nat) (s : Stream) (by_ : Option (CmdRef × Fin 2)) :
    Keeps (Fld.event ||| Fld.camera ||| Fld.streams) m (Module.beginRelease m c s by_) := by
  unfold Module.beginRelease
  exact .after (Module.calAbort_keeps ..) rfl <| .upd .refl

theorem releaseStart_keeps (stream : Word) (c : CmdRef) (m : Module) :
    Keeps (Fld.event ||| Fld.camera ||| Fld.streams) m (releaseStart stream c m) := by
  unfold releaseStart
  split
  · exact .after (Module.complete_keeps ..) rfl .refl
  · exact .after (Module.beginRelease_keeps ..) rfl .refl

theorem release_keeps (h : CmdHdr) (stream : Word) (m : Module) :
    Keeps (Fld.event ||| Fld.camera ||| Fld.streams) m (release h stream m) := by
  unfold release
  refine .ite (fun _ => .refl) fun _ => ?_
  refine Module.command_keeps (hb := .refl) (hf := fun _ _ _ => ?_) (hs := rfl) ..
  exact .after (releaseStart_keeps ..) rfl (by assumption)

theorem Module.dropStream_keeps (m : Module) (c : Nat) (s : Stream) :
    Keeps (Fld.plan ||| Fld.regs ||| Fld.netPorts ||| Fld.ctxs ||| Fld.engines ||| Fld.regions ||| Fld.clips |||
      Fld.syncOwner ||| Fld.streams ||| Fld.streamGen) m (Module.dropStream m c s) := by
  unfold Module.dropStream
  refine .after (Module.reportPlanned_keeps ..) rfl <| .after (Module.buildGates_keeps ..) rfl ?_
  refine .after (Module.setCtx_keeps ..) rfl ?_
  refine .foldl (fun _ _ => .after (Module.wr_keeps ..) rfl .refl) _ ?_
  refine .after (Module.wr_keeps ..) rfl ?_
  refine .upd ?_
  refine .after (Module.unreserve_keeps ..) rfl ?_
  exact .after (Module.unbindLane_keeps ..) rfl <| .foldl (fun _ _ => .after (Module.setChan_keeps ..) rfl .refl) _ .refl

theorem Module.endRelease_keeps (m : Module) (c : Nat) (s : Stream) :
    Keeps (Fld.event ||| Fld.plan ||| Fld.journal ||| Fld.netPorts ||| Fld.ctxs ||| Fld.engines ||| Fld.regions |||
      Fld.clips ||| Fld.syncOwner ||| Fld.streams ||| Fld.streamGen) m (Module.endRelease m c s) := by
  unfold Module.endRelease
  dsimp only
  split
  · exact .after (Module.raiseCtx_keeps ..) rfl <| .after (Module.dropStream_keeps ..) rfl .refl
  · refine .after (Module.complete_keeps ..) rfl <| .after (Module.raiseCtx_keeps ..) rfl ?_
    exact .after (Module.journalEntry_keeps ..) rfl <| .after (Module.dropStream_keeps ..) rfl .refl

theorem deadlineMissed_keeps (c : PortId) (subject : Nat) (frame : Word) (stripe : W16) (lateness : Nat) (m : Module) :
    Keeps (Fld.event ||| Fld.streams) m (deadlineMissed c subject frame stripe lateness m) := by
  unfold deadlineMissed
  dsimp only
  split
  · exact .refl
  · refine .ite (fun _ => .refl) fun _ => ?_
    exact .after (Module.raiseCtx_keeps ..) rfl <| .after (Module.count_keeps ..) rfl <| .upd .refl

theorem deliveryCopy_keeps (c : PortId) (j : Fin 4) (m : Module) :
    Keeps (Fld.dmaMove ||| Fld.ctxs ||| Fld.planMoves ||| Fld.streams) m (deliveryCopy c j m) := by
  unfold deliveryCopy
  dsimp only
  split
  · exact .refl
  · split
    · exact .refl
    · refine .ite (fun _ => .refl) fun _ => ?_
      refine .ite (fun _ => ?_) fun _ => ?_
      · refine .upd ?_
        exact .after (Module.setCtx_keeps ..) rfl .refl
      · exact .after (Module.planMove_keeps ..) rfl <| .after (Module.setCtx_keeps ..) rfl .refl

theorem resumeStart_keeps (stream : Word) (delivery : Nat) (c : CmdRef) (m : Module) :
    Keeps (Fld.ring ||| Fld.streams) m (resumeStart stream delivery c m) := by
  unfold resumeStart
  split
  · exact .after (Module.complete_keeps ..) rfl .refl
  · split
    · exact .after (Module.complete_keeps ..) rfl .refl
    · refine .ite (fun _ => .after (Module.complete_keeps ..) rfl .refl) fun _ => ?_
      exact .after (Module.complete_keeps ..) rfl <| .upd .refl

theorem resumeDelivery_keeps (h : CmdHdr) (stream : Word) (delivery : Byte) (m : Module) :
    Keeps (Fld.ring ||| Fld.streams) m (resumeDelivery h stream delivery m) := by
  unfold resumeDelivery
  refine Module.command_keeps (hb := .refl) (hf := fun _ _ _ => ?_) (hs := rfl) ..
  exact .after (resumeStart_keeps ..) rfl (by assumption)

theorem Module.resumeOutput_keeps (m : Module) (c k : Nat) : Keeps Fld.streams m (Module.resumeOutput m c k) := by
  unfold Module.resumeOutput
  exact .upd .refl

theorem Module.clipFreeze_keeps (m : Module) (c k : Nat) :
    Keeps (Fld.planMoves ||| Fld.clips) m (Module.clipFreeze m c k) := by
  unfold Module.clipFreeze
  exact .upd .refl

theorem clipFrameCopy_keeps (c : PortId) (k : Fin 4) (m : Module) :
    Keeps (Fld.dmaMove ||| Fld.ctxs ||| Fld.planMoves ||| Fld.clips) m (clipFrameCopy c k m) := by
  unfold clipFrameCopy
  dsimp only
  split
  · refine .ite (fun _ => .refl) fun _ => ?_
    refine .ite (fun _ => ?_) fun _ => ?_
    · refine .after (Module.clipHeader_keeps ..) rfl ?_
      refine .upd ?_
      exact .after (Module.setCtx_keeps ..) rfl .refl
    · exact .after (Module.planMove_keeps ..) rfl <| .after (Module.setCtx_keeps ..) rfl .refl
  · exact .refl

theorem clipHeaderUpdate_keeps (c : PortId) (k : Fin 4) (m : Module) :
    Keeps (Fld.dmaMove ||| Fld.planMoves ||| Fld.clips) m (clipHeaderUpdate c k m) := by
  unfold clipHeaderUpdate
  dsimp only
  split
  · split
    · exact .refl
    · refine .foldl (fun _ _ => .after (Module.planNext_keeps ..) rfl .refl) _ ?_
      refine .after (Module.clipHeader_keeps ..) rfl ?_
      exact .ite (fun _ => .after (Module.clipFreeze_keeps ..) rfl <| .upd .refl) fun _ => .upd .refl
  · exact .refl

/-- CLIP_CTL does to each ring of the region what its operation f does, and stores the ring's header. -/
theorem clipCtl_keeps {F : Nat} (region : Word) (f : Module → Nat → Nat → Module) (c : CmdRef) (m : Module)
    (hf : ∀ x n k, Keeps F x (f x n k)) (hs : (Fld.write ||| Fld.gatherAge) &&& F = (Fld.write ||| Fld.gatherAge)) : Keeps F m (clipCtl region f c m) := by
  unfold clipCtl
  dsimp only
  refine .ite (fun _ => .after (Module.complete_keeps ..) (Fld.within rfl hs) .refl) fun _ => ?_
  refine .after (Module.complete_keeps ..) (Fld.within rfl hs) (.foldl (fun _ _ => ?_) _ .refl)
  exact .after (Module.clipHeader_keeps ..) (Fld.within rfl hs) (hf ..)

theorem freeze_keeps (h : CmdHdr) (region after : Word) (m : Module) :
    Keeps (Fld.write ||| Fld.gatherAge ||| Fld.planMoves ||| Fld.clips) m (freeze h region after m) := by
  refine Module.command_keeps (hb := .refl) (hf := fun _ _ hk => hk.trans (clipCtl_keeps _ _ _ _ (fun _ _ _ => ?_) rfl)) (hs := rfl) ..
  exact .ite (fun _ => .after (Module.clipFreeze_keeps ..) rfl .refl) fun _ => .upd .refl

theorem thaw_keeps (h : CmdHdr) (region : Word) (m : Module) :
    Keeps (Fld.write ||| Fld.gatherAge ||| Fld.clips) m (thaw h region m) := by
  refine Module.command_keeps (hb := .refl) (hf := fun _ _ hk => hk.trans (clipCtl_keeps _ _ _ _ (fun _ _ _ => ?_) rfl)) (hs := rfl) ..
  exact .upd .refl

theorem Module.setModeChange_keeps (m : Module) (x : Option ModeChange) :
    Keeps (Fld.regs ||| Fld.modeChange) m (Module.setModeChange m x) := by
  unfold Module.setModeChange
  exact .after (Module.setFld_keeps ..) rfl <| .upd .refl

theorem Module.modeRequest_keeps (m : Module) (mode : Nat) :
    Keeps (Fld.regs ||| Fld.modeChange) m (Module.modeRequest m mode).2 := by
  unfold Module.modeRequest
  split
  · dsimp only
    exact .refl
  · split
    · dsimp only
      exact .refl
    · split
      · dsimp only
        exact .refl
      · dsimp only
        exact .after (Module.setModeChange_keeps ..) rfl .refl

theorem Module.holdPlans_keeps (m : Module) (plans : List (Nat × Plan)) (regions : SMap Region) :
    Keeps (Fld.regs ||| Fld.regions ||| Fld.dma) m (Module.holdPlans m plans regions) := by
  unfold Module.holdPlans
  refine .foldl (fun _ _ => .after (Module.ownChannels_keeps ..) rfl .refl) _ ?_
  refine .foldl (fun _ _ => ?_) _ .refl
  refine .upd ?_
  exact .after (Module.zoneSpan_keeps ..) rfl .refl

theorem Module.dropHeld_keeps (m : Module) (plans : List (Nat × Plan)) :
    Keeps (Fld.regs ||| Fld.regions ||| Fld.dma) m (Module.dropHeld m plans) := by
  unfold Module.dropHeld
  refine .after (Module.reportRegions_keeps ..) rfl ?_
  refine .upd ?_
  exact .foldl (fun _ _ => .after (Module.setChan_keeps ..) rfl .refl) _ .refl

theorem Module.swapPlans_keeps (m : Module) (plans : List (Nat × Plan)) :
    Keeps (Fld.write ||| Fld.ctxs ||| Fld.cals ||| Fld.regions ||| Fld.gatherAge ||| Fld.dma ||| Fld.clips ||| Fld.syncs |||
      Fld.syncOwner ||| Fld.streams) m (Module.swapPlans m plans) := by
  unfold Module.swapPlans
  refine .foldl (fun _ _ => ?_) _ ?_
  · dsimp only
    split
    · exact .refl
    · refine .after (Module.installStream_keeps ..) rfl ?_
      exact .after (Module.fillPlan_keeps ..) rfl <| .after (Module.takePlan_keeps ..) rfl .refl
  · refine .foldl (fun _ _ => .after (Module.unbindLane_keeps ..) rfl .refl) _ ?_
    refine .after (Module.reportRegions_keeps ..) rfl ?_
    refine .upd ?_
    exact .foldl (fun _ _ => .after (Module.setChan_keeps ..) rfl .refl) _ .refl

theorem Module.preemptAll_keeps (m : Module) : Keeps (Fld.regs ||| Fld.engines ||| Fld.jobs) m (Module.preemptAll m) := by
  unfold Module.preemptAll
  refine .foldl (fun _ _ => ?_) _ .refl
  dsimp only
  split
  · refine .ite (fun _ => ?_) fun _ => ?_
    · refine .after (Module.count_keeps ..) rfl <| .after (Module.abortTask_keeps ..) rfl ?_
      split
      · refine .after (Module.count_keeps ..) rfl ?_
        exact .after (Module.adjustJob_keeps ..) rfl <| .after (Module.setEng_keeps ..) rfl .refl
      · exact .refl
    · split
      · refine .after (Module.count_keeps ..) rfl ?_
        exact .after (Module.adjustJob_keeps ..) rfl <| .after (Module.setEng_keeps ..) rfl .refl
      · exact .refl
  · split
    · refine .after (Module.count_keeps ..) rfl ?_
      exact .after (Module.adjustJob_keeps ..) rfl <| .after (Module.setEng_keeps ..) rfl .refl
    · exact .refl

theorem modeReplanDone_keeps (m : Module) :
    Keeps (Fld.write ||| Fld.camera ||| Fld.engines ||| Fld.regions ||| Fld.gatherAge ||| Fld.dma ||| Fld.streams |||
      Fld.jobs ||| Fld.modeChange) m (modeReplanDone m) := by
  unfold modeReplanDone
  refine Module.firmware_keeps (hb := .refl) (hf := fun _ _ => ?_) (hs := rfl) ..
  dsimp only
  split
  · assumption
  · refine .ite (fun _ => (by assumption)) fun _ => ?_
    refine .ite (fun _ => ?_) fun _ => ?_
    · refine .after (Module.raise_keeps ..) rfl <| .after (Module.setModeChange_keeps ..) rfl ?_
      refine .after (Module.writeReport_keeps ..) rfl ?_
      refine .upd ?_
      exact (by assumption)
    · refine .upd ?_
      refine .foldl (fun _ _ => .after (Module.calAbort_keeps ..) rfl .refl) _ ?_
      refine .after (Module.holdPlans_keeps ..) rfl <| .after (Module.preemptAll_keeps ..) rfl ?_
      refine .upd ?_
      exact (by assumption)

theorem Module.spareRole_keeps (m : Module) (cl : Fin 8) : Keeps (Fld.event ||| Fld.engines) m (Module.spareRole m cl) := by
  unfold Module.spareRole
  dsimp only
  split
  · exact .after (Module.setSpare_keeps ..) rfl .refl
  · refine .ite (fun _ => .after (Module.setSpare_keeps ..) rfl .refl) fun _ => ?_
    refine .ite (fun _ => ?_) fun _ => ?_
    · exact .after (Module.setSpare_keeps ..) rfl <| .after (Module.setEngState_keeps ..) rfl .refl
    · split
      · refine .after (Module.mapEvent_keeps ..) rfl <| .after (Module.mapEvent_keeps ..) rfl ?_
        refine .after (Module.satAdd_keeps ..) rfl <| .after (Module.setSpare_keeps ..) rfl ?_
        refine .after (Module.setEngState_keeps ..) rfl <| .after (Module.setName_keeps ..) rfl ?_
        exact .after (Module.setMap_keeps ..) rfl <| .after (Module.setMap_keeps ..) rfl .refl
      · refine .ite (fun _ => .refl) fun _ => ?_
        refine .after (Module.setSpare_keeps ..) rfl <| .after (Module.setEngState_keeps ..) rfl ?_
        exact .after (Module.setFld_keeps ..) rfl <| .after (Module.setEng_keeps ..) rfl .refl

theorem modeClockSwitch_keeps (m : Module) :
    Keeps (Fld.write ||| Fld.netPorts ||| Fld.ctxs ||| Fld.cals ||| Fld.engines ||| Fld.regions ||| Fld.gatherAge |||
      Fld.dma ||| Fld.clips ||| Fld.syncs ||| Fld.syncOwner ||| Fld.streams ||| Fld.modeChange) m (modeClockSwitch m) := by
  unfold modeClockSwitch
  refine Module.firmware_keeps (hb := .refl) (hf := fun _ _ => ?_) (hs := rfl) ..
  dsimp only
  split
  · assumption
  · refine .ite (fun _ => (by assumption)) fun _ => ?_
    refine .after (Module.reportPlanned_keeps ..) rfl <| .after (Module.buildGates_keeps ..) rfl ?_
    refine .after (Module.swapPlans_keeps ..) rfl ?_
    refine .foldl (fun _ _ => .after (Module.spareRole_keeps ..) rfl .refl) _ ?_
    refine .upd ?_
    refine .after (Module.updateCap_keeps ..) rfl ?_
    refine .upd ?_
    exact (by assumption)

theorem modeChanged_keeps (m : Module) : Keeps (Fld.event ||| Fld.modeChange) m (modeChanged m) := by
  unfold modeChanged
  refine Module.firmware_keeps (hb := .refl) (hf := fun _ _ => ?_) (hs := rfl) ..
  dsimp only
  split
  · assumption
  · refine .ite (fun _ => (by assumption)) fun _ => ?_
    refine .after (Module.raise_keeps ..) rfl <| .after (Module.setModeChange_keeps ..) rfl ?_
    exact .after (Module.setFld_keeps ..) rfl <| .after (Module.setFld_keeps ..) rfl (by assumption)

theorem Module.stopModeChange_keeps (m : Module) :
    Keeps (Fld.regs ||| Fld.regions ||| Fld.dma ||| Fld.modeChange) m (Module.stopModeChange m) := by
  unfold Module.stopModeChange
  dsimp only
  split
  · exact .refl
  · refine .after (Module.setFld_keeps ..) rfl <| .after (Module.setFld_keeps ..) rfl ?_
    exact .after (Module.setModeChange_keeps ..) rfl <| .after (Module.dropHeld_keeps ..) rfl .refl

theorem thermalCapUpdate_keeps (m : Module) : Keeps (Fld.write ||| Fld.gatherAge ||| Fld.atRisk) m (thermalCapUpdate m) := by
  unfold thermalCapUpdate
  exact .after (Module.checkRisk_keeps ..) rfl <| .after (Module.updateCap_keeps ..) rfl .refl

theorem planOverCap_keeps (m : Module) : Keeps Fld.fault m (planOverCap m) := by
  unfold planOverCap
  exact .ite (fun _ => .refl) fun _ => .after (Module.fault_keeps ..) rfl .refl

theorem freeStart_keeps (region : Word) (c : CmdRef) (m : Module) :
    Keeps (Fld.ring ||| Fld.regions) m (freeStart region c m) := by
  unfold freeStart
  split
  · exact .after (Module.complete_keeps ..) rfl .refl
  · exact .ite (fun _ => .after (Module.complete_keeps ..) rfl .refl) fun _ => .upd .refl

theorem freeCmd_keeps (h : CmdHdr) (region : Word) (m : Module) :
    Keeps (Fld.ring ||| Fld.regs ||| Fld.regions ||| Fld.transition) m (freeCmd h region m) := by
  unfold freeCmd
  refine .ite (fun _ => .refl) fun _ => ?_
  refine .ite (fun _ => ?_) fun _ => ?_
  · refine Module.command_keeps (hb := .refl) (hf := fun _ _ _ => ?_) (hs := rfl) ..
    exact .after (freeStart_keeps ..) rfl (by assumption)
  · refine Module.commandRun_keeps (hb := .refl) (hf := fun _ _ _ => ?_) (hs := rfl) ..
    exact .after (freeStart_keeps ..) rfl (by assumption)

theorem releaseZeroFill_keeps (region : Word) (m : Module) :
    Keeps (Fld.write ||| Fld.regions) m (releaseZeroFill region m) := by
  unfold releaseZeroFill
  refine Module.firmware_keeps (hb := .refl) (hf := fun _ _ => ?_) (hs := rfl) ..
  dsimp only
  split
  · assumption
  · refine .ite (fun _ => (by assumption)) fun _ => ?_
    refine .upd ?_
    exact .after (Module.zero_keeps ..) rfl (by assumption)

theorem releaseDone_keeps (region : Word) (m : Module) :
    Keeps (Fld.ring ||| Fld.regs ||| Fld.regions ||| Fld.regionGen) m (releaseDone region m) := by
  unfold releaseDone
  refine Module.firmware_keeps (hb := .refl) (hf := fun _ _ => ?_) (hs := rfl) ..
  dsimp only
  split
  · assumption
  · refine .ite (fun _ => (by assumption)) fun _ => ?_
    split
    · refine .after (Module.complete_keeps ..) rfl <| .after (Module.reportRegions_keeps ..) rfl ?_
      refine .upd ?_
      exact (by assumption)
    · refine .after (Module.reportRegions_keeps ..) rfl ?_
      refine .upd ?_
      exact (by assumption)

theorem Module.jobAccept_keeps (m : Module) (c : CmdRef) (b : List Byte) :
    Keeps (Fld.ring ||| Fld.regs ||| Fld.now ||| Fld.draws ||| Fld.jobs ||| Fld.nextJob) m (Module.jobAccept m c b) := by
  unfold Module.jobAccept
  refine .ite (fun _ => ?_) fun _ => ?_
  · refine .after (Module.complete_keeps ..) rfl ?_
    exact .after (Module.count_keeps ..) rfl <| .after (Module.tick_keeps ..) rfl .refl
  · refine .ite (fun _ => ?_) fun _ => ?_
    · refine .after (Module.complete_keeps ..) rfl ?_
      exact .after (Module.count_keeps ..) rfl <| .after (Module.tick_keeps ..) rfl .refl
    · refine .after (Module.setJobs_keeps ..) rfl ?_
      refine .upd ?_
      exact .after (Module.tick_keeps ..) rfl .refl

theorem jobRead_keeps (record : W64) (rec : Remote) (c : CmdRef) (m : Module) :
    Keeps (Fld.meet ||| Fld.winSeq ||| Fld.jobs ||| Fld.nextJob) m (jobRead record rec c m) := by
  unfold jobRead
  refine .ite (fun _ => ?_) fun _ => ?_
  · exact .after (Module.complete_keeps ..) rfl <| .after (Module.count_keeps ..) rfl .refl
  · split
    · refine .after (Module.complete_keeps ..) rfl ?_
      refine .snd (by assumption) ?_
      exact .after (Module.recordFetch_keeps ..) rfl .refl
    · split
      · refine .after (Module.complete_keeps ..) rfl ?_
        refine .snd (by assumption) ?_
        refine .after (Module.recordFetch_keeps ..) rfl ?_
        refine .snd (by assumption) ?_
        exact .after (Module.recordFetch_keeps ..) rfl .refl
      · refine .after (Module.jobAccept_keeps ..) rfl ?_
        refine .snd (by assumption) ?_
        refine .after (Module.recordFetch_keeps ..) rfl ?_
        refine .snd (by assumption) ?_
        exact .after (Module.recordFetch_keeps ..) rfl .refl

theorem jobCmd_keeps (h : CmdHdr) (record : W64) (rec : Remote) (m : Module) :
    Keeps (Fld.meet ||| Fld.winSeq ||| Fld.jobs ||| Fld.nextJob ||| Fld.transition) m (jobCmd h record rec m) := by
  unfold jobCmd
  refine .ite (fun _ => .refl) fun _ => ?_
  refine Module.commandRun_keeps (hb := .refl) (hf := fun _ _ _ => ?_) (hs := rfl) ..
  exact .after (jobRead_keeps ..) rfl (by assumption)

theorem jobDispatch_keeps (job stage task : Nat) (cl : Fin 8) (logical : Fin 17) (m : Module) :
    Keeps (Fld.write ||| Fld.job ||| Fld.engines ||| Fld.gatherAge) m (jobDispatch job stage task cl logical m) := by
  unfold jobDispatch
  dsimp only
  split
  · split
    · refine .ite (fun _ => .refl) fun _ => ?_
      refine .ite (fun _ => ?_) fun _ => ?_
      · exact .after (Module.endJob_keeps ..) rfl <| .after (Module.count_keeps ..) rfl <|
          .after (Module.tick_keeps ..) rfl .refl
      · refine .after (Module.adjustJob_keeps ..) rfl <| .after (Module.setEng_keeps ..) rfl ?_
        split
        · refine .ite (fun _ => ?_) fun _ => .after (Module.tick_keeps ..) rfl .refl
          exact .after (Module.writeWeights_keeps ..) rfl <| .after (Module.tick_keeps ..) rfl .refl
        · exact .after (Module.tick_keeps ..) rfl .refl
    · exact .refl
  · exact .refl

theorem jobPreempt_keeps (e : EngPos) (m : Module) : Keeps (Fld.regs ||| Fld.engines) m (jobPreempt e m) := by
  unfold jobPreempt
  refine Module.firmware_keeps (hb := .refl) (hf := fun _ _ => ?_) (hs := rfl) ..
  split
  · assumption
  · refine .ite (fun _ => ?_) fun _ => by assumption
    exact .after (Module.count_keeps ..) rfl <| .after (Module.abortTask_keeps ..) rfl (by assumption)

theorem Module.stopJob_keeps (m : Module) (id status : Nat) :
    Keeps (Fld.regs ||| Fld.engines ||| Fld.jobs) m (Module.stopJob m id status) := by
  unfold Module.stopJob
  refine .foldl (fun _ _ => ?_) _ .refl
  dsimp only
  split
  · split
    · refine .ite (fun _ => ?_) fun _ => ?_
      · refine .after (Module.abortTask_keeps ..) rfl ?_
        split
        · refine .ite (fun _ => ?_) fun _ => .refl
          exact .after (Module.adjustJob_keeps ..) rfl <| .after (Module.setEng_keeps ..) rfl .refl
        · exact .refl
      · split
        · refine .ite (fun _ => ?_) fun _ => .refl
          exact .after (Module.adjustJob_keeps ..) rfl <| .after (Module.setEng_keeps ..) rfl .refl
        · exact .refl
    · split
      · refine .ite (fun _ => ?_) fun _ => .refl
        exact .after (Module.adjustJob_keeps ..) rfl <| .after (Module.setEng_keeps ..) rfl .refl
      · exact .refl
  · split
    · refine .ite (fun _ => ?_) fun _ => .refl
      exact .after (Module.adjustJob_keeps ..) rfl <| .after (Module.setEng_keeps ..) rfl .refl
    · exact .refl

theorem Module.withdrawJob_keeps (m : Module) (id : Nat) :
    Keeps (Fld.ring ||| Fld.job ||| Fld.regs ||| Fld.engines) m (Module.withdrawJob m id) := by
  unfold Module.withdrawJob
  split
  · exact .refl
  · refine .ite (fun _ => .refl) fun _ => ?_
    refine .ite (fun _ => .after (Module.endJob_keeps ..) rfl .refl) fun _ => ?_
    refine .after (Module.settleJob_keeps ..) rfl ?_
    exact .after (Module.stopJob_keeps ..) rfl <| .after (Module.adjustJob_keeps ..) rfl .refl

theorem withdrawStart_keeps (tag : Word) (c : CmdRef) (m : Module) :
    Keeps (Fld.ring ||| Fld.job ||| Fld.regs ||| Fld.engines) m (withdrawStart tag c m) := by
  unfold withdrawStart
  refine .ite (fun _ => .after (Module.complete_keeps ..) rfl .refl) fun _ => ?_
  exact .foldl (fun _ _ => .after (Module.withdrawJob_keeps ..) rfl .refl) _ (.upd .refl)

theorem withdraw_keeps (h : CmdHdr) (jobTag : Word) (m : Module) :
    Keeps (Fld.ring ||| Fld.job ||| Fld.regs ||| Fld.engines) m (withdraw h jobTag m) := by
  unfold withdraw
  refine Module.command_keeps (hb := .refl) (hf := fun _ _ _ => ?_) (hs := rfl) ..
  exact .after (withdrawStart_keeps ..) rfl (by assumption)

theorem Module.setLevel_keeps (m : Module) (source : Fin 4) (v : Nat) :
    Keeps (Fld.event ||| Fld.journal) m (Module.setLevel m source v) := by
  unfold Module.setLevel
  refine .ite (fun _ => .refl) fun _ => ?_
  refine .after (Module.raise_keeps ..) rfl ?_
  exact .after (Module.journalEntry_keeps ..) rfl <| .after (Module.setFld_keeps ..) rfl .refl

theorem Module.stopFill_keeps (m : Module) :
    Keeps (Fld.send ||| Fld.regs ||| Fld.regions ||| Fld.fullFill) m (Module.stopFill m) := by
  unfold Module.stopFill
  dsimp only
  split
  · exact .refl
  · exact .after (Module.debugAnswer_keeps ..) rfl <| .after (Module.setFld_keeps ..) rfl <| .upd .refl

theorem Module.abortFills_keeps (m : Module) : Keeps (Fld.ring ||| Fld.draws ||| Fld.fills) m (Module.abortFills m) := by
  unfold Module.abortFills
  refine .foldl (fun _ _ => ?_) _ .refl
  refine .foldl (fun _ _ => ?_) _ (.after (Module.setFills_keeps ..) rfl .refl)
  dsimp only
  refine .ite (fun _ => .after (Module.open__keeps ..) rfl .refl) fun _ => ?_
  exact .after (Module.complete_keeps ..) rfl <| .after (Module.open__keeps ..) rfl .refl

theorem Module.fillWork_keeps (m : Module) :
    Keeps (Fld.ring ||| Fld.job ||| Fld.regs ||| Fld.draws ||| Fld.packages ||| Fld.packageGen ||| Fld.engines |||
      Fld.regions ||| Fld.fills ||| Fld.dma) m (Module.fillWork m) := by
  unfold Module.fillWork
  refine .ite (fun _ => .refl) fun _ => ?_
  refine .upd ?_
  refine .foldl (fun _ _ => .after (Module.dropPackage_keeps ..) rfl .refl) _ ?_
  refine .after (Module.closeAllWindows_keeps ..) rfl <| .after (Module.abortAllDma_keeps ..) rfl ?_
  exact .after (Module.abortFills_keeps ..) rfl <| .foldl (fun _ _ => .after (Module.withdrawJob_keeps ..) rfl .refl) _ .refl

theorem Module.dropOff_keeps (m : Module) : Keeps Fld.regs m (Module.dropOff m) := by
  unfold Module.dropOff
  exact .upd .refl

theorem Module.feOff_keeps (m : Module) (half : Nat) :
    Keeps (Fld.event ||| Fld.camera ||| Fld.seqNext ||| Fld.seqLast) m (Module.feOff m half) := by
  unfold Module.feOff
  refine .foldl (fun _ _ => ?_) _ .refl
  refine .after (Module.reportStored_keeps ..) rfl <| .after (Module.setFld_keeps ..) rfl ?_
  refine .after (Module.setCal_keeps ..) rfl <| .after (Module.setCtx_keeps ..) rfl ?_
  refine .after (Module.setPort_keeps ..) rfl ?_
  refine .upd ?_
  exact .after (Module.disablePort_keeps ..) rfl .refl

theorem Module.requeue_keeps (m : Module) (e : EngPos) :
    Keeps (Fld.ring ||| Fld.job ||| Fld.regs) m (Module.requeue m e) := by
  unfold Module.requeue
  dsimp only
  split
  · split
    · exact .after (Module.settleJob_keeps ..) rfl <| .after (Module.adjustJob_keeps ..) rfl .refl
    · exact .refl
  · split
    · exact .after (Module.settleJob_keeps ..) rfl <| .after (Module.adjustJob_keeps ..) rfl .refl
    · exact .refl
  · exact .refl

theorem Module.engOff_keeps (m : Module) (eng : Nat) :
    Keeps (Fld.ring ||| Fld.job ||| Fld.regs ||| Fld.engines) m (Module.engOff m eng) := by
  unfold Module.engOff
  refine .foldl (fun _ _ => ?_) _ .refl
  refine .ite (fun _ => .refl) fun _ => ?_
  exact .after (Module.setEng_keeps ..) rfl <| .after (Module.requeue_keeps ..) rfl .refl

theorem Module.loseSpm_keeps (m : Module) :
    Keeps (Fld.store ||| Fld.packages ||| Fld.packageGen ||| Fld.regions ||| Fld.regionGen ||| Fld.poison ||| Fld.latent) m
      (Module.loseSpm m) := by
  unfold Module.loseSpm
  refine .upd ?_
  exact .foldl (fun _ _ => .after (Module.dropPackage_keeps ..) rfl .refl) _ .refl

theorem Module.switchTo_keeps (m : Module) (st : Nat) : Keeps Fld.lost m (Module.switchTo m st) := by
  unfold Module.switchTo
  refine .after (Module.testSpares_keeps ..) rfl <| .after (Module.dropOff_keeps ..) rfl ?_
  refine .after (Module.setFld_keeps ..) rfl <| .after (Module.setFld_keeps ..) rfl ?_
  refine .after (Module.setFld_keeps ..) rfl <| .after (Module.setFld_keeps ..) rfl ?_
  refine .after (Module.setFld_keeps ..) rfl <| .after (Module.setFld_keeps ..) rfl ?_
  refine .after (Module.setFld_keeps ..) rfl ?_
  refine .ite (fun _ => ?_) fun _ => ?_
  · refine .after (Module.loseSpm_keeps ..) rfl <| .after (Module.engOff_keeps ..) rfl ?_
    exact .foldl (fun _ _ => .ite (fun _ => .after (Module.feOff_keeps ..) rfl .refl) fun _ => .refl) _ .refl
  · refine .after (Module.engOff_keeps ..) rfl ?_
    exact .foldl (fun _ _ => .ite (fun _ => .after (Module.feOff_keeps ..) rfl .refl) fun _ => .refl) _ .refl

theorem Module.announce_keeps (m : Module) : Keeps (Fld.fault ||| Fld.transition) m (Module.announce m) := by
  unfold Module.announce
  dsimp only
  split
  · exact .refl
  · refine .ite (fun _ => .refl) fun _ => ?_
    refine .ite (fun _ => .after (Module.fault_keeps ..) rfl <| .upd .refl) fun _ => ?_
    exact .after (Module.raise_keeps ..) rfl <| .upd .refl

theorem Module.beginLeave_keeps (m : Module) (target : Nat) (cause : PowerCause) :
    Keeps (Fld.send ||| Fld.regs ||| Fld.regions ||| Fld.dma ||| Fld.modeChange ||| Fld.transition ||| Fld.fullFill) m
      (Module.beginLeave m target cause) := by
  unfold Module.beginLeave
  refine .after (Module.startMove_keeps ..) rfl ?_
  exact .after (Module.stopFill_keeps ..) rfl <| .after (Module.stopModeChange_keeps ..) rfl .refl

theorem Module.leave_keeps (m : Module) (target : Nat) (cause : PowerCause) :
    Keeps (Fld.fault ||| Fld.camera ||| Fld.regions ||| Fld.dma ||| Fld.streams ||| Fld.modeChange ||| Fld.transition |||
      Fld.fullFill) m (Module.leave m target cause) := by
  unfold Module.leave
  refine .after (Module.announce_keeps ..) rfl ?_
  exact .foldl (fun _ _ => .ite (fun _ => .refl) fun _ => .after (Module.beginRelease_keeps ..) rfl .refl) _ (.after (Module.beginLeave_keeps ..) rfl .refl)

theorem Module.powerRequest_keeps (m : Module) (target : Nat) :
    Keeps (Fld.send ||| Fld.regs ||| Fld.regions ||| Fld.dma ||| Fld.modeChange ||| Fld.transition ||| Fld.fullFill) m
      (Module.powerRequest m target).2 := by
  unfold Module.powerRequest
  dsimp only
  split
  · dsimp only
    exact .refl
  · split
    · dsimp only
      exact .refl
    · split
      · dsimp only
        exact .refl
      · split
        · dsimp only
          exact .after (Module.startMove_keeps ..) rfl .refl
        · split
          · split
            · dsimp only
              exact .after (Module.startMove_keeps ..) rfl .refl
            · dsimp only
              exact .refl
          · split
            · dsimp only
              exact .after (Module.beginLeave_keeps ..) rfl .refl
            · dsimp only
              exact .refl

theorem Module.closeLinks_keeps (m : Module) :
    Keeps (Fld.event ||| Fld.job ||| Fld.attachWait ||| Fld.attachDone ||| Fld.binds ||| Fld.mcSend ||| Fld.mcRx |||
      Fld.syncSeen ||| Fld.fills ||| Fld.dma ||| Fld.hostWaits) m (Module.closeLinks m) := by
  unfold Module.closeLinks
  refine .foldl (fun _ _ => .after (Module.reportBinding_keeps ..) rfl .refl) _ ?_
  refine .upd ?_
  exact .after (Module.closeAllWindows_keeps ..) rfl <| .after (Module.endAllSessions_keeps ..) rfl .refl

theorem Module.loseCtl_keeps (m : Module) :
    Keeps (Fld.camera ||| Fld.job ||| Fld.plan ||| Fld.regs ||| Fld.draws ||| Fld.heldEvents ||| Fld.sessions ||| Fld.rotDue
      ||| Fld.fills ||| Fld.clips ||| Fld.syncs ||| Fld.syncOwner ||| Fld.hostWaits ||| Fld.streams ||| Fld.admitting |||
      Fld.modeChange ||| Fld.flash) m (Module.loseCtl m) := by
  unfold Module.loseCtl
  refine .after (Module.reportPlanned_keeps ..) rfl <| .after (Module.setJobs_keeps ..) rfl ?_
  refine .upd ?_
  exact .after (Module.tornStores_keeps ..) rfl .refl

theorem Module.dropNonce_keeps (m : Module) : Keeps (Fld.regs ||| Fld.nonce) m (Module.dropNonce m) := by
  unfold Module.dropNonce
  exact .after (Module.setFld_keeps ..) rfl <| .upd .refl

theorem Module.beginWake_keeps (m : Module) :
    Keeps (Fld.regs ||| Fld.transition ||| Fld.boot ||| Fld.dramReady) m (Module.beginWake m) := by
  unfold Module.beginWake
  refine .upd ?_
  refine .after (Module.setFld_keeps ..) rfl <| .after (Module.setFld_keeps ..) rfl ?_
  refine .after (Module.setFld_keeps ..) rfl ?_
  exact .after (Module.setFld_keeps ..) rfl <| .after (Module.startMove_keeps ..) rfl .refl

theorem Module.standbyLevel_keeps (m : Module) : Keeps (Fld.event ||| Fld.journal) m (Module.standbyLevel m) := by
  unfold Module.standbyLevel
  dsimp only
  refine .ite (fun _ => ?_) fun _ => .after (Module.pick_keeps ..) rfl .refl
  exact .after (Module.setLevel_keeps ..) rfl <| .after (Module.pick_keeps ..) rfl .refl

theorem Module.enterStandby_keeps (m : Module) (t : Transition) : Keeps Fld.notOtp m (Module.enterStandby m t) := by
  have boot_ready (k : Module) (hk : Keeps Fld.notOtp m k) : Keeps Fld.notOtp m { k with boot := .ready } := .upd hk
  have move_done (k : Module) (hot : Bool) (hk : Keeps Fld.notOtp m k) :
      Keeps Fld.notOtp m { k with transition := none, idleSamples := 0, tripped := hot } := .upd hk
  unfold Module.enterStandby
  extract_lets _ b c hot d e
  have hb : Keeps Fld.notOtp m b := .after (Module.setFld_keeps ..) rfl <| .after (Module.switchTo_keeps ..) rfl <|
    .after (Module.loseCtl_keeps ..) rfl <| .after (Module.standbyLevel_keeps ..) rfl <|
    .after (Module.dropNonce_keeps ..) rfl <| .after (Module.closeLinks_keeps ..) rfl .refl
  have hd : Keeps Fld.notOtp m d := .after (Module.count_keeps ..) rfl <| .after (Module.setFld_keeps ..) rfl <|
    boot_ready b hb
  have he : Keeps Fld.notOtp m e := move_done d hot hd
  exact .ite (fun _ => .after (Module.beginWake_keeps ..) rfl he) fun _ => he

theorem Module.arrive_keeps (m : Module) (t : Transition) :
    Keeps (Fld.lost ||| Fld.rotDue ||| Fld.transition ||| Fld.idleSamples) m (Module.arrive m t) := by
  unfold Module.arrive
  refine .ite (fun _ => ?_) fun _ => ?_
  · refine .after (Module.startMove_keeps ..) rfl <| .after (Module.raise_keeps ..) rfl ?_
    refine .ite (fun _ => ?_) fun _ => ?_
    · refine .after (Module.reportRegions_keeps ..) rfl ?_
      refine .upd ?_
      exact .after (Module.setFld_keeps ..) rfl <| .after (Module.switchTo_keeps ..) rfl .refl
    · refine .upd ?_
      exact .after (Module.setFld_keeps ..) rfl <| .after (Module.switchTo_keeps ..) rfl .refl
  · refine .after (Module.raise_keeps ..) rfl ?_
    refine .ite (fun _ => ?_) fun _ => ?_
    · refine .after (Module.reportRegions_keeps ..) rfl ?_
      refine .upd ?_
      exact .after (Module.setFld_keeps ..) rfl <| .after (Module.switchTo_keeps ..) rfl .refl
    · refine .upd ?_
      exact .after (Module.setFld_keeps ..) rfl <| .after (Module.switchTo_keeps ..) rfl .refl

theorem Module.reportKeys_keeps (m : Module) : Keeps Fld.regs m (Module.reportKeys m) := by
  unfold Module.reportKeys
  refine .after (Module.setFld_keeps ..) rfl ?_
  exact .after (Module.setFld_keeps ..) rfl <| .after (Module.setFld_keeps ..) rfl .refl

theorem Module.holdBackoff_keeps (m : Module) (n : Nat) :
    Keeps (Fld.backoff ||| Fld.backoffEnd) m (Module.holdBackoff m n) := by
  unfold Module.holdBackoff
  exact .ite (fun _ => .refl) fun _ => .upd .refl

theorem Module.cutStreams_keeps (m : Module) : Keeps (Fld.regs ||| Fld.ports ||| Fld.ctxs) m (Module.cutStreams m) := by
  unfold Module.cutStreams
  refine .foldl (fun _ _ => ?_) _ .refl
  refine .ite (fun _ => ?_) fun _ => .refl
  refine .after (Module.wr_keeps ..) rfl <| .after (Module.setPortState_keeps ..) rfl ?_
  exact .after (Module.setCtx_keeps ..) rfl <| .after (Module.setPort_keeps ..) rfl .refl

theorem standbyDrainTimeout_keeps (m : Module) :
    Keeps (Fld.ring ||| Fld.regs ||| Fld.draws ||| Fld.ports ||| Fld.ctxs ||| Fld.engines ||| Fld.dma ||| Fld.jobs |||
      Fld.transition) m (standbyDrainTimeout m) := by
  unfold standbyDrainTimeout
  dsimp only
  split
  · exact .ite (fun _ => .after (Module.cutStreams_keeps ..) rfl .refl) fun _ => .refl
  · refine .ite (fun _ => ?_) fun _ => ?_
    · exact .ite (fun _ => .after (Module.cutStreams_keeps ..) rfl .refl) fun _ => .refl
    · refine .ite (fun _ => .after (Module.cutStreams_keeps ..) rfl .refl) fun _ => ?_
      refine .after (Module.abortAllDma_keeps ..) rfl ?_
      exact .foldl (fun _ _ => .after (Module.stopJob_keeps ..) rfl .refl) _ (.upd .refl)

theorem releaseComplete_keeps (c : PortId) (m : Module) :
    Keeps (Fld.fault ||| Fld.job ||| Fld.plan ||| Fld.journal ||| Fld.packages ||| Fld.packageGen ||| Fld.netPorts |||
      Fld.ctxs ||| Fld.engines ||| Fld.regions ||| Fld.fills ||| Fld.clips ||| Fld.syncOwner ||| Fld.streams |||
      Fld.streamGen ||| Fld.transition) m (releaseComplete c m) := by
  unfold releaseComplete
  refine Module.firmware_keeps (hb := .refl) (hf := fun _ _ => ?_) (hs := rfl) ..
  split
  · assumption
  · refine .ite (fun _ => ?_) fun _ => by assumption
    refine .after (Module.fillWork_keeps ..) rfl ?_
    exact .after (Module.announce_keeps ..) rfl <| .after (Module.endRelease_keeps ..) rfl (by assumption)

theorem wake_keeps (h : Hdr) (payload : List Byte) (m : Module) :
    Keeps (Fld.answer ||| Fld.regs ||| Fld.netPorts ||| Fld.transition ||| Fld.boot ||| Fld.dramReady) m (wake h payload m)
      := by
  unfold wake
  refine .ite (fun _ => .after (Module.popRx_keeps ..) rfl .refl) fun _ => ?_
  refine .ite (fun _ => ?_) fun _ => ?_
  · exact .after (Module.answer_keeps ..) rfl <| .after (Module.popRx_keeps ..) rfl .refl
  · refine .ite (fun _ => ?_) fun _ => ?_
    · exact .after (Module.answerNotReady_keeps ..) rfl <| .after (Module.popRx_keeps ..) rfl .refl
    · split
      · refine .ite (fun _ => ?_) fun _ => ?_
        · refine .ite (fun _ => ?_) fun _ => ?_
          · exact .after (Module.answerNotReady_keeps ..) rfl <| .after (Module.popRx_keeps ..) rfl .refl
          · refine .ite (fun _ => ?_) fun _ => ?_
            · exact .after (Module.answerNotReady_keeps ..) rfl <| .after (Module.popRx_keeps ..) rfl .refl
            · refine .after (Module.answerNotReady_keeps ..) rfl ?_
              refine .upd ?_
              exact .after (Module.popRx_keeps ..) rfl .refl
        · refine .ite (fun _ => ?_) fun _ => ?_
          · exact .after (Module.answer_keeps ..) rfl <| .after (Module.popRx_keeps ..) rfl .refl
          · exact .after (Module.notReadyAnswer_keeps ..) rfl <| .after (Module.popRx_keeps ..) rfl .refl
      · refine .ite (fun _ => ?_) fun _ => ?_
        · exact .after (Module.answer_keeps ..) rfl <| .after (Module.popRx_keeps ..) rfl .refl
        · refine .ite (fun _ => ?_) fun _ => ?_
          · refine .ite (fun _ => ?_) fun _ => ?_
            · exact .after (Module.answerNotReady_keeps ..) rfl <| .after (Module.popRx_keeps ..) rfl .refl
            · refine .ite (fun _ => ?_) fun _ => ?_
              · exact .after (Module.answerNotReady_keeps ..) rfl <| .after (Module.popRx_keeps ..) rfl .refl
              · refine .after (Module.beginWake_keeps ..) rfl ?_
                exact .after (Module.answerNotReady_keeps ..) rfl <| .after (Module.popRx_keeps ..) rfl .refl
          · exact .after (Module.notReadyAnswer_keeps ..) rfl <| .after (Module.popRx_keeps ..) rfl .refl

theorem Module.blowFuses_keeps (m : Module) : Keeps (Fld.regs ||| Fld.otp) m (Module.blowFuses m) := by
  unfold Module.blowFuses
  refine .upd ?_
  exact .after (Module.setFld_keeps ..) rfl .refl

theorem wakeReady_keeps (m : Module) :
    Keeps (Fld.lost ||| Fld.epoch ||| Fld.transition ||| Fld.tripped ||| Fld.otp ||| Fld.boot) m (wakeReady m) := by
  unfold wakeReady
  refine .ite (fun _ => .refl) fun _ => ?_
  dsimp only
  refine .upd ?_
  refine .after (Module.setFld_keeps ..) rfl <| .after (Module.blowFuses_keeps ..) rfl ?_
  refine .after (Module.setFld_keeps ..) rfl ?_
  exact .after (Module.switchTo_keeps ..) rfl <| .after (Module.draw_keeps ..) rfl .refl

theorem Module.setSupply_keeps (m : Module) (v : Nat) : Keeps Fld.regs m (Module.setSupply m v) := by
  unfold Module.setSupply
  exact .after (Module.setFld_keeps ..) rfl .refl

theorem Module.supplyEnter_keeps (m : Module) (v mv : Nat) : Keeps Fld.fault m (Module.supplyEnter m v mv) := by
  unfold Module.supplyEnter
  exact .after (Module.fault_keeps ..) rfl <| .after (Module.setSupply_keeps ..) rfl .refl

theorem supplyLowEnter_keeps (mv : Nat) (m : Module) : Keeps Fld.fault m (supplyLowEnter mv m) := by
  unfold supplyLowEnter
  exact .ite (fun _ => .after (Module.supplyEnter_keeps ..) rfl .refl) fun _ => .refl

theorem supplyHighEnter_keeps (mv : Nat) (m : Module) : Keeps Fld.fault m (supplyHighEnter mv m) := by
  unfold supplyHighEnter
  exact .ite (fun _ => .after (Module.supplyEnter_keeps ..) rfl .refl) fun _ => .refl

theorem supplyNormal_keeps (mv : Nat) (m : Module) : Keeps Fld.regs m (supplyNormal mv m) := by
  unfold supplyNormal
  exact .ite (fun _ => .after (Module.setSupply_keeps ..) rfl .refl) fun _ => .refl

theorem highVoltageTimeout_keeps (mv : Nat) (m : Module) :
    Keeps (Fld.fault ||| Fld.holdupHigh) m (highVoltageTimeout mv m) := by
  unfold highVoltageTimeout
  exact .ite (fun _ => .after (Module.supplyEnter_keeps ..) rfl <| .upd .refl) fun _ => .refl

theorem holdupEnter_keeps (mv : Nat) (m : Module) : Keeps (Fld.fault ||| Fld.holdupHigh) m (holdupEnter mv m) := by
  unfold holdupEnter
  exact .ite (fun _ => .after (Module.supplyEnter_keeps ..) rfl <| .upd .refl) fun _ => .refl

theorem holdupReconnect_keeps (mv : Nat) (m : Module) : Keeps (Fld.fault ||| Fld.holdupHigh) m (holdupReconnect mv m) := by
  unfold holdupReconnect
  refine .ite (fun _ => ?_) fun _ => .refl
  refine .ite (fun _ => ?_) fun _ => ?_
  · exact .after (Module.supplyEnter_keeps ..) rfl <| .after (Module.count_keeps ..) rfl <| .upd .refl
  · exact .after (Module.setSupply_keeps ..) rfl <| .after (Module.count_keeps ..) rfl <| .upd .refl

theorem supplyLost_keeps (m : Module) : Keeps (Fld.regs ||| Fld.offHeld) m (supplyLost m) := by
  unfold supplyLost
  exact .ite (fun _ => .after (Module.setFld_keeps ..) rfl <| .upd .refl) fun _ => .refl

theorem enOff_keeps (m : Module) :
    Keeps (Fld.fault ||| Fld.camera ||| Fld.regions ||| Fld.dma ||| Fld.streams ||| Fld.modeChange ||| Fld.transition |||
      Fld.offHeld ||| Fld.fullFill) m (enOff m) := by
  unfold enOff
  refine .ite (fun _ => .upd .refl) fun _ => ?_
  refine .ite (fun _ => ?_) fun _ => ?_
  · refine .upd ?_
    exact .after (Module.setFld_keeps ..) rfl .refl
  · exact .after (Module.leave_keeps ..) rfl <| .after (Module.setFld_keeps ..) rfl .refl

theorem autoIdleSample_keeps (m : Module) :
    Keeps (Fld.regs ||| Fld.transition ||| Fld.idleSamples) m (autoIdleSample m) := by
  unfold autoIdleSample
  refine .ite (fun _ => .refl) fun _ => ?_
  refine .ite (fun _ => .upd .refl) fun _ => ?_
  exact .ite (fun _ => .after (Module.startMove_keeps ..) rfl <| .upd .refl) fun _ => .upd .refl

theorem powerSample_keeps (mv ma : Nat) (rails : Word) (m : Module) :
    Keeps (Fld.regs ||| Fld.jobsGated ||| Fld.powerSamples ||| Fld.energyPj) m (powerSample mv ma rails m) := by
  unfold powerSample
  refine .upd ?_
  refine .after (Module.wr_keeps ..) rfl <| .after (Module.setFld_keeps ..) rfl ?_
  refine .after (Module.setFld_keeps ..) rfl ?_
  exact .after (Module.setFld_keeps ..) rfl <| .after (Module.setFld_keeps ..) rfl <| .upd .refl

theorem Module.thermRead_keeps (m : Module) : Keeps Fld.draws m (Module.thermRead m).2 := by
  unfold Module.thermRead
  dsimp only
  exact .upd .refl

theorem Module.voltRead_keeps (m : Module) : Keeps Fld.draws m (Module.voltRead m).2.2 := by
  unfold Module.voltRead
  dsimp only
  exact .upd .refl

theorem Module.dieReport_keeps (m : Module) (t : List Int) : Keeps Fld.regs m (Module.dieReport m t) := by
  unfold Module.dieReport
  dsimp only
  split
  · exact .refl
  · exact .after (Module.setFld_keeps ..) rfl <| .after (Module.setFld_keeps ..) rfl .refl

theorem Module.dieSample_keeps (m : Module) : Keeps (Fld.regs ||| Fld.draws) m (Module.dieSample m) := by
  unfold Module.dieSample
  dsimp only
  exact .after (Module.dieReport_keeps ..) rfl <| .after (Module.thermRead_keeps ..) rfl .refl

theorem coldPlateSample_keeps (bp0 bp1 : Int) (m : Module) :
    Keeps (Fld.write ||| Fld.gatherAge ||| Fld.atRisk) m (coldPlateSample bp0 bp1 m) := by
  unfold coldPlateSample
  refine .ite (fun _ => .after (Module.dieSample_keeps ..) rfl .refl) fun _ => ?_
  refine .after (Module.checkRisk_keeps ..) rfl ?_
  refine .foldl (fun _ _ => .after (Module.fault_keeps ..) rfl .refl) _ ?_
  refine .after (Module.setFld_keeps ..) rfl ?_
  exact .after (Module.setFld_keeps ..) rfl <| .after (Module.dieSample_keeps ..) rfl .refl

theorem tempSensorCheck_keeps (bp0 bp1 : Option Int) (m : Module) : Keeps Fld.fault m (tempSensorCheck bp0 bp1 m) := by
  unfold tempSensorCheck
  refine .ite (fun _ => ?_) fun _ => ?_
  · refine .ite (fun _ => ?_) fun _ => ?_
    · refine .after (Module.setFld_keeps ..) rfl ?_
      refine .ite (fun _ => .after (Module.setFld_keeps ..) rfl .refl) fun _ => ?_
      dsimp only
      exact .after (Module.fault_keeps ..) rfl <| .after (Module.open__keeps ..) rfl <|
        .after (Module.setFld_keeps ..) rfl .refl
    · dsimp only
      refine .after (Module.fault_keeps ..) rfl <| .after (Module.open__keeps ..) rfl ?_
      refine .after (Module.setFld_keeps ..) rfl ?_
      refine .ite (fun _ => .after (Module.setFld_keeps ..) rfl .refl) fun _ => ?_
      exact .after (Module.fault_keeps ..) rfl <| .after (Module.open__keeps ..) rfl <|
        .after (Module.setFld_keeps ..) rfl .refl
  · refine .after (Module.updateCap_keeps ..) rfl <| .after (Module.setFld_keeps ..) rfl ?_
    refine .ite (fun _ => ?_) fun _ => ?_
    · refine .after (Module.setFld_keeps ..) rfl ?_
      refine .ite (fun _ => .after (Module.setFld_keeps ..) rfl .refl) fun _ => ?_
      dsimp only
      exact .after (Module.fault_keeps ..) rfl <| .after (Module.open__keeps ..) rfl <|
        .after (Module.setFld_keeps ..) rfl .refl
    · dsimp only
      refine .after (Module.fault_keeps ..) rfl <| .after (Module.open__keeps ..) rfl ?_
      refine .after (Module.setFld_keeps ..) rfl ?_
      refine .ite (fun _ => .after (Module.setFld_keeps ..) rfl .refl) fun _ => ?_
      exact .after (Module.fault_keeps ..) rfl <| .after (Module.open__keeps ..) rfl <|
        .after (Module.setFld_keeps ..) rfl .refl

theorem thermalTrip_keeps (m : Module) :
    Keeps (Fld.fault ||| Fld.camera ||| Fld.regions ||| Fld.dma ||| Fld.streams ||| Fld.modeChange ||| Fld.transition |||
      Fld.tripped ||| Fld.fullFill) m (thermalTrip m) := by
  unfold thermalTrip
  refine .ite (fun _ => ?_) fun _ => ?_
  · exact .after (Module.silentFault_keeps ..) rfl <| .after (Module.count_keeps ..) rfl .refl
  · dsimp only
    split
    · refine .ite (fun _ => ?_) fun _ => ?_
      · refine .after (Module.silentFault_keeps ..) rfl ?_
        refine .upd ?_
        exact .after (Module.setFld_keeps ..) rfl <| .after (Module.count_keeps ..) rfl .refl
      · exact .after (Module.leave_keeps ..) rfl <| .after (Module.count_keeps ..) rfl .refl
    · refine .ite (fun _ => ?_) fun _ => ?_
      · exact .after (Module.silentFault_keeps ..) rfl <| .after (Module.count_keeps ..) rfl .refl
      · refine .ite (fun _ => ?_) fun _ => ?_
        · refine .ite (fun _ => ?_) fun _ => ?_
          · refine .after (Module.silentFault_keeps ..) rfl ?_
            refine .upd ?_
            exact .after (Module.count_keeps ..) rfl .refl
          · refine .upd ?_
            exact .after (Module.count_keeps ..) rfl .refl
        · exact .after (Module.leave_keeps ..) rfl <| .after (Module.count_keeps ..) rfl .refl

theorem Module.debugNotReady_keeps (m : Module) (d : DbgHdr) (op : Nat) :
    Keeps Fld.answer m (Module.debugNotReady m d op) := by
  unfold Module.debugNotReady
  dsimp only
  refine .ite (fun _ => ?_) fun _ => ?_
  · exact .after (Module.debugAnswer_keeps ..) rfl <| .after (Module.estimate_keeps ..) rfl .refl
  · split
    · refine .after (Module.debugAnswer_keeps ..) rfl ?_
      refine .upd ?_
      refine .snd (by assumption) ?_
      exact .after (Module.limited_keeps ..) rfl <| .after (Module.estimate_keeps ..) rfl .refl
    · refine .snd (by assumption) ?_
      exact .after (Module.limited_keeps ..) rfl <| .after (Module.estimate_keeps ..) rfl .refl

theorem Module.debugOp_keeps {F : Nat} {b : Module} (m : Module) (d : DbgHdr) (op need : Nat) (standby failure : Bool) (k :
      Module → Module)
    (hb : Keeps F b m) (hf : ∀ x, Keeps F b x → Keeps F b (k x)) (hs : Fld.answer &&& F = Fld.answer) : Keeps F b
      (Module.debugOp m d op need standby failure k) := by
  unfold Module.debugOp
  refine .ite (fun _ => hb) fun _ => ?_
  refine .ite (fun _ => .after (Module.debugNotReady_keeps ..) (Fld.within rfl hs) hb) fun _ => ?_
  refine .ite (fun _ => .after (Module.debugAnswer_keeps ..) (Fld.within rfl hs) hb) fun _ => ?_
  refine .ite (fun _ => .after (Module.debugAnswer_keeps ..) (Fld.within rfl hs) hb) fun _ => ?_
  exact .ite (fun _ => .after (Module.debugAnswer_keeps ..) (Fld.within rfl hs) hb) fun _ => hf _ hb

theorem status_keeps (d : DbgHdr) (m : Module) : Keeps Fld.answer m (status d m) := by
  unfold status
  refine Module.debugOp_keeps (hb := .refl) (hf := fun _ _ => ?_) (hs := rfl) ..
  exact .after (Module.debugAnswer_keeps ..) rfl <| .after (Module.tick_keeps ..) rfl (by assumption)

theorem Module.storeBackoff_keeps (m : Module) (n : Nat) :
    Keeps (Fld.regs ||| Fld.now ||| Fld.draws ||| Fld.flash ||| Fld.flogPending) m (Module.storeBackoff m n) := by
  unfold Module.storeBackoff
  exact .after (Module.storeFlash_keeps ..) rfl .refl

theorem Module.authFail_keeps (m : Module) (d : DbgHdr) (op : Nat) :
    Keeps (Fld.fault ||| Fld.flash ||| Fld.backoff ||| Fld.backoffEnd) m (Module.authFail m d op) := by
  unfold Module.authFail
  refine .after (Module.debugAnswer_keeps ..) rfl <| .after (Module.raise_keeps ..) rfl ?_
  refine .ite (fun _ => ?_) fun _ => ?_
  · refine .after (Module.holdBackoff_keeps ..) rfl ?_
    exact .after (Module.tick_keeps ..) rfl <| .after (Module.count_keeps ..) rfl <|
      .after (Module.setFld_keeps ..) rfl .refl
  · refine .after (Module.storeBackoff_keeps ..) rfl <| .after (Module.holdBackoff_keeps ..) rfl ?_
    exact .after (Module.tick_keeps ..) rfl <| .after (Module.count_keeps ..) rfl <|
      .after (Module.setFld_keeps ..) rfl .refl

theorem Module.authPass_keeps (m : Module) :
    Keeps (Fld.regs ||| Fld.now ||| Fld.draws ||| Fld.flash ||| Fld.flogPending) m (Module.authPass m) := by
  unfold Module.authPass
  exact .after (Module.setFld_keeps ..) rfl <| .ite (fun _ => .refl) fun _ => .after (Module.storeBackoff_keeps ..) rfl .refl

theorem Module.openLevel_keeps (m : Module) (d : DbgHdr) (op v : Nat) :
    Keeps (Fld.event ||| Fld.journal) m (Module.openLevel m d op v) := by
  unfold Module.openLevel
  refine .after (Module.debugAnswer_keeps ..) rfl ?_
  exact .after (Module.count_keeps ..) rfl <| .after (Module.setLevel_keeps ..) rfl .refl

theorem Module.authBusy_keeps {F : Nat} {b : Module} (m : Module) (d : DbgHdr) (op : Nat) (k : Module → Module)
    (hb : Keeps F b m) (hf : ∀ x, Keeps F b x → Keeps F b (k x)) (hs : (Fld.send ||| Fld.now ||| Fld.draws) &&& F =
      (Fld.send ||| Fld.now ||| Fld.draws)) : Keeps F b (Module.authBusy m d op k) := by
  unfold Module.authBusy
  refine .ite (fun _ => .after (Module.debugAnswer_keeps ..) (Fld.within rfl hs) hb) fun _ => ?_
  refine .ite (fun _ => ?_) fun _ => hf _ hb
  exact .after (Module.debugAnswer_keeps ..) (Fld.within rfl hs) <| .after (Module.tick_keeps ..) (Fld.within rfl hs) hb

theorem password_keeps (d : DbgHdr) (pw : List Byte) (m : Module) :
    Keeps (Fld.fault ||| Fld.journal ||| Fld.notReadyAt ||| Fld.flash ||| Fld.backoff ||| Fld.backoffEnd) m (password d pw
      m) := by
  unfold password
  refine Module.debugOp_keeps (hb := .refl) (hf := fun _ _ => ?_) (hs := rfl) ..
  refine Module.authBusy_keeps (hb := (by assumption)) (hf := fun _ _ => ?_) (hs := rfl) ..
  refine .ite (fun _ => .after (Module.debugAnswer_keeps ..) rfl (by assumption)) fun _ => ?_
  split
  · exact .after (Module.authFail_keeps ..) rfl (by assumption)
  · refine .ite (fun _ => ?_) fun _ => .after (Module.authFail_keeps ..) rfl (by assumption)
    exact .after (Module.openLevel_keeps ..) rfl <| .after (Module.authPass_keeps ..) rfl (by assumption)

theorem challenge_keeps (d : DbgHdr) (level : Byte) (m : Module) :
    Keeps (Fld.answer ||| Fld.regs ||| Fld.nonce) m (challenge d level m) := by
  unfold challenge
  refine Module.debugOp_keeps (hb := .refl) (hf := fun _ _ => ?_) (hs := rfl) ..
  refine .ite (fun _ => .after (Module.debugAnswer_keeps ..) rfl (by assumption)) fun _ => ?_
  dsimp only
  refine .after (Module.debugAnswer_keeps ..) rfl <| .after (Module.setFld_keeps ..) rfl ?_
  refine .upd ?_
  exact .after (Module.draw_keeps ..) rfl (by assumption)

theorem Module.startFill_keeps (m : Module) (d : DbgHdr) :
    Keeps (Fld.event ||| Fld.camera ||| Fld.job ||| Fld.packages ||| Fld.packageGen ||| Fld.engines ||| Fld.regions |||
      Fld.fills ||| Fld.dma ||| Fld.streams ||| Fld.transition ||| Fld.fullFill) m (Module.startFill m d) := by
  unfold Module.startFill
  refine .after (Module.fillWork_keeps ..) rfl ?_
  refine .foldl (fun _ _ => .ite (fun _ => .refl) fun _ => .after (Module.beginRelease_keeps ..) rfl .refl) _ ?_
  refine .ite (fun _ => ?_) fun _ => ?_
  · exact .after (Module.startMove_keeps ..) rfl <| .after (Module.setFld_keeps ..) rfl <| .upd .refl
  · split
    · refine .ite (fun _ => ?_) fun _ => .after (Module.setFld_keeps ..) rfl <| .upd .refl
      refine .upd ?_
      exact .after (Module.setFld_keeps ..) rfl <| .upd .refl
    · exact .after (Module.setFld_keeps ..) rfl <| .upd .refl

theorem lock_keeps (d : DbgHdr) (m : Module) : Keeps (Fld.event ||| Fld.journal ||| Fld.notReadyAt) m (lock d m) := by
  unfold lock
  refine Module.debugOp_keeps (hb := .refl) (hf := fun _ _ => ?_) (hs := rfl) ..
  exact .after (Module.debugAnswer_keeps ..) rfl <| .after (Module.setLevel_keeps ..) rfl (by assumption)

theorem nonceExpiry_keeps (m : Module) : Keeps (Fld.regs ||| Fld.nonce) m (nonceExpiry m) := by
  unfold nonceExpiry
  exact .ite (fun _ => .after (Module.dropNonce_keeps ..) rfl .refl) fun _ => .refl

theorem backoffExpiry_keeps (m : Module) : Keeps Fld.backoff m (backoffExpiry m) := by
  unfold backoffExpiry
  exact .upd .refl

theorem zeroFillDone_keeps (m : Module) : Keeps (Fld.write ||| Fld.journal ||| Fld.fullFill) m (zeroFillDone m) := by
  unfold zeroFillDone
  refine Module.firmware_keeps (hb := .refl) (hf := fun _ _ => ?_) (hs := rfl) ..
  dsimp only
  split
  · assumption
  · refine .ite (fun _ => (by assumption)) fun _ => ?_
    refine .after (Module.openLevel_keeps ..) rfl <| .after (Module.raise_keeps ..) rfl ?_
    refine .after (Module.setFld_keeps ..) rfl ?_
    refine .upd ?_
    exact .after (Module.zero_keeps ..) rfl (by assumption)

theorem memRead_keeps (d : DbgHdr) (addr : W64) (len : Word) (rec : Remote) (m : Module) :
    Keeps (Fld.meet ||| Fld.notReadyAt ||| Fld.winSeq) m (memRead d addr len rec m) := by
  unfold memRead
  refine Module.debugOp_keeps (hb := .refl) (hf := fun _ _ => ?_) (hs := rfl) ..
  refine .ite (fun _ => .after (Module.debugAnswer_keeps ..) rfl (by assumption)) fun _ => ?_
  dsimp only
  split
  · exact .after (Module.debugAnswer_keeps ..) rfl (by assumption)
  · refine .ite (fun _ => (by assumption)) fun _ => ?_
    split
    · exact .after (Module.debugAnswer_keeps ..) rfl <| .after (Module.askWindow_keeps ..) rfl (by assumption)
    · refine .ite (fun _ => ?_) fun _ => ?_
      · exact .after (Module.debugAnswer_keeps ..) rfl <| .after (Module.readMeets_keeps ..) rfl (by assumption)
      · exact .after (Module.debugAnswer_keeps ..) rfl <| .after (Module.readMeets_keeps ..) rfl (by assumption)

theorem memWrite_keeps (d : DbgHdr) (addr : W64) (data : List Byte) (m : Module) :
    Keeps (Fld.write ||| Fld.window ||| Fld.notReadyAt) m (memWrite d addr data m) := by
  unfold memWrite
  refine Module.debugOp_keeps (hb := .refl) (hf := fun _ _ => ?_) (hs := rfl) ..
  refine .ite (fun _ => .after (Module.debugAnswer_keeps ..) rfl (by assumption)) fun _ => ?_
  dsimp only
  split
  · exact .after (Module.debugAnswer_keeps ..) rfl (by assumption)
  · refine .ite (fun _ => (by assumption)) fun _ => ?_
    split
    · exact .ite (fun _ => (by assumption)) fun _ => .after (Module.winWriteTo_keeps ..) rfl (by assumption)
    · refine .ite (fun _ => ?_) fun _ => ?_
      · refine .after (Module.debugAnswer_keeps ..) rfl <| .after (Module.write_keeps ..) rfl ?_
        exact .after (Module.meetPartly_keeps ..) rfl <| .after (Module.flushSpan_keeps ..) rfl (by assumption)
      · refine .after (Module.debugAnswer_keeps ..) rfl <| .after (Module.reportPartly_keeps ..) rfl ?_
        exact .after (Module.meetPartly_keeps ..) rfl <| .after (Module.flushSpan_keeps ..) rfl (by assumption)

theorem syncReset_keeps (d : DbgHdr) (obj : W16) (value : Word) (m : Module) :
    Keeps (Fld.answer ||| Fld.regs ||| Fld.syncs) m (syncReset d obj value m) := by
  unfold syncReset
  refine Module.debugOp_keeps (hb := .refl) (hf := fun _ _ => ?_) (hs := rfl) ..
  refine .ite (fun _ => .after (Module.debugAnswer_keeps ..) rfl (by assumption)) fun _ => ?_
  refine .ite (fun _ => ?_) fun _ => ?_
  · exact .after (Module.debugAnswer_keeps ..) rfl <| .after (Module.count_keeps ..) rfl (by assumption)
  · exact .after (Module.debugAnswer_keeps ..) rfl <| .after (Module.setSync_keeps ..) rfl (by assumption)

theorem halt_keeps (d : DbgHdr) (target : W16) (m : Module) :
    Keeps (Fld.answer ||| Fld.cpHalted ||| Fld.engHalted) m (halt d target m) := by
  unfold halt
  refine Module.debugOp_keeps (hb := .refl) (hf := fun _ _ => ?_) (hs := rfl) ..
  refine .ite (fun _ => ?_) fun _ => ?_
  · refine .after (Module.debugAnswer_keeps ..) rfl ?_
    refine .upd ?_
    exact (by assumption)
  · split
    · exact .after (Module.debugAnswer_keeps ..) rfl (by assumption)
    · refine .ite (fun _ => ?_) fun _ => .after (Module.debugAnswer_keeps ..) rfl (by assumption)
      refine .after (Module.debugAnswer_keeps ..) rfl ?_
      refine .upd ?_
      exact (by assumption)

theorem resume_keeps (d : DbgHdr) (target : W16) (m : Module) :
    Keeps (Fld.answer ||| Fld.ring ||| Fld.heldEvents ||| Fld.cpHalted ||| Fld.engHalted) m (resume d target m) := by
  unfold resume
  refine Module.debugOp_keeps (hb := .refl) (hf := fun _ _ => ?_) (hs := rfl) ..
  refine .ite (fun _ => ?_) fun _ => ?_
  · refine .after (Module.debugAnswer_keeps ..) rfl ?_
    refine .foldl (fun _ _ => .after (Module.deliver_keeps ..) rfl .refl) _ ?_
    refine .upd ?_
    exact (by assumption)
  · split
    · exact .after (Module.debugAnswer_keeps ..) rfl (by assumption)
    · refine .after (Module.debugAnswer_keeps ..) rfl ?_
      refine .upd ?_
      exact (by assumption)

theorem traceRead_keeps (d : DbgHdr) (start : Word) (max : Byte) (m : Module) :
    Keeps Fld.answer m (traceRead d start max m) := by
  unfold traceRead
  refine Module.debugOp_keeps (hb := .refl) (hf := fun _ _ => ?_) (hs := rfl) ..
  refine .ite (fun _ => .after (Module.debugAnswer_keeps ..) rfl (by assumption)) fun _ => ?_
  exact .after (Module.debugAnswer_keeps ..) rfl (by assumption)

theorem debugJournalRead_keeps (d : DbgHdr) (start : Word) (max : Byte) (m : Module) :
    Keeps Fld.answer m (debugJournalRead d start max m) := by
  unfold debugJournalRead
  refine Module.debugOp_keeps (hb := .refl) (hf := fun _ _ => ?_) (hs := rfl) ..
  refine .ite (fun _ => .after (Module.debugAnswer_keeps ..) rfl (by assumption)) fun _ => ?_
  exact .after (Module.debugAnswer_keeps ..) rfl (by assumption)

theorem attest_keeps (d : DbgHdr) (nonce : List Byte) (m : Module) : Keeps Fld.answer m (attest d nonce m) := by
  unfold attest
  refine Module.debugOp_keeps (hb := .refl) (hf := fun _ _ => ?_) (hs := rfl) ..
  dsimp only
  refine .after (Module.debugAnswer_keeps ..) rfl ?_
  exact .after (Module.draw_keeps ..) rfl <| .after (Module.tick_keeps ..) rfl (by assumption)

theorem identity_keeps (d : DbgHdr) (m : Module) : Keeps Fld.answer m (identity d m) := by
  unfold identity
  refine Module.debugOp_keeps (hb := .refl) (hf := fun _ _ => ?_) (hs := rfl) ..
  dsimp only
  exact .after (Module.debugAnswer_keeps ..) rfl <| .after (Module.draw_keeps ..) rfl (by assumption)

theorem provision_keeps (d : DbgHdr) (ownerHash salt pwHash : List Byte) (floor : Byte) (m : Module) :
    Keeps (Fld.answer ||| Fld.regs ||| Fld.otp) m (provision d ownerHash salt pwHash floor m) := by
  unfold provision
  refine Module.debugOp_keeps (hb := .refl) (hf := fun _ _ => ?_) (hs := rfl) ..
  refine .ite (fun _ => .after (Module.debugAnswer_keeps ..) rfl (by assumption)) fun _ => ?_
  dsimp only
  refine .after (Module.debugAnswer_keeps ..) rfl <| .after (Module.setFld_keeps ..) rfl ?_
  refine .after (Module.reportKeys_keeps ..) rfl ?_
  refine .upd ?_
  exact .after (Module.draw_keeps ..) rfl (by assumption)

theorem lifecycle_keeps (d : DbgHdr) (target : Byte) (m : Module) :
    Keeps (Fld.answer ||| Fld.regs ||| Fld.journal ||| Fld.otp) m (lifecycle d target m) := by
  unfold lifecycle
  refine Module.debugOp_keeps (hb := .refl) (hf := fun _ _ => ?_) (hs := rfl) ..
  refine .ite (fun _ => .after (Module.debugAnswer_keeps ..) rfl (by assumption)) fun _ => ?_
  refine .after (Module.debugAnswer_keeps ..) rfl <| .after (Module.journalEntry_keeps ..) rfl ?_
  refine .after (Module.setFld_keeps ..) rfl ?_
  refine .upd ?_
  exact (by assumption)

theorem setPassword_keeps (d : DbgHdr) (salt hash : List Byte) (m : Module) :
    Keeps (Fld.answer ||| Fld.regs ||| Fld.journal ||| Fld.otp) m (setPassword d salt hash m) := by
  unfold setPassword
  refine Module.debugOp_keeps (hb := .refl) (hf := fun _ _ => ?_) (hs := rfl) ..
  refine .ite (fun _ => .after (Module.debugAnswer_keeps ..) rfl (by assumption)) fun _ => ?_
  refine .after (Module.debugAnswer_keeps ..) rfl <| .after (Module.journalEntry_keeps ..) rfl ?_
  refine .after (Module.reportKeys_keeps ..) rfl ?_
  refine .upd ?_
  exact (by assumption)

theorem debugReservedOp_keeps (d : DbgHdr) (op : Byte) (m : Module) : Keeps Fld.answer m (debugReservedOp d op m) := by
  unfold debugReservedOp
  refine Module.debugOp_keeps (hb := .refl) (hf := fun _ _ => ?_) (hs := rfl) ..
  exact .after (Module.debugAnswer_keeps ..) rfl (by assumption)

theorem debugFrameDiscard_keeps (frame : List Byte) (m : Module) : Keeps Fld.answer m (debugFrameDiscard frame m) := by
  unfold debugFrameDiscard
  dsimp only
  split
  · exact .refl
  · refine .ite (fun _ => .refl) fun _ => ?_
    refine Module.debugOp_keeps (hb := .refl) (hf := fun _ _ => ?_) (hs := rfl) ..
    exact .after (Module.debugAnswer_keeps ..) rfl (by assumption)

theorem extest_keeps (d : DbgHdr) (instruction : TapInstr) (m : Module) :
    Keeps (Fld.send ||| Fld.tap) m (extest d instruction m) := by
  unfold extest
  exact .ite (fun _ => .upd .refl) fun _ => .after (Module.debugSend_keeps ..) rfl .refl

theorem tapReset_keeps (m : Module) : Keeps Fld.tap m (tapReset m) := by
  unfold tapReset
  exact .upd .refl

theorem Module.storeTraining_keeps (m : Module) (dieTemp : Int) : Keeps Fld.flash m (Module.storeTraining m dieTemp) := by
  unfold Module.storeTraining
  exact .upd .refl

theorem dramTrainingDone_keeps (recordOk : Bool) (dieTemp : Int) (ms : Nat) (m : Module) :
    Keeps (Fld.regs ||| Fld.flash ||| Fld.dramReady) m (dramTrainingDone recordOk dieTemp ms m) := by
  unfold dramTrainingDone
  refine .ite (fun _ => .refl) fun _ => ?_
  refine .upd ?_
  refine .ite (fun _ => ?_) fun _ => ?_
  · exact .after (Module.setFld_keeps ..) rfl <| .after (Module.setFld_keeps ..) rfl .refl
  · refine .after (Module.storeTraining_keeps ..) rfl ?_
    exact .after (Module.setFld_keeps ..) rfl <| .after (Module.setFld_keeps ..) rfl .refl

theorem Module.toBaseline_keeps (m : Module) : Keeps (Fld.event ||| Fld.journal) m (Module.toBaseline m) := by
  unfold Module.toBaseline
  refine .ite (fun _ => .refl) fun _ => ?_
  dsimp only
  exact .after (Module.setLevel_keeps ..) rfl <| .after (Module.pick_keeps ..) rfl .refl

theorem Module.bootFail_keeps (m : Module) :
    Keeps (Fld.event ||| Fld.journal ||| Fld.transition ||| Fld.boot) m (Module.bootFail m) := by
  unfold Module.bootFail
  refine .upd ?_
  refine .after (Module.toBaseline_keeps ..) rfl ?_
  exact .after (Module.setFld_keeps ..) rfl <| .after (Module.setFld_keeps ..) rfl <| .after (Module.wr_keeps ..) rfl .refl

theorem Module.monitorCheck_keeps (m : Module) : Keeps Fld.fault m (Module.monitorCheck m) := by
  unfold Module.monitorCheck
  dsimp only
  refine .foldl (fun _ _ => .after (Module.fault_keeps ..) rfl .refl) _ ?_
  refine .foldl (fun _ _ => .after (Module.fault_keeps ..) rfl .refl) _ ?_
  refine .after (Module.dieReport_keeps ..) rfl <| .after (Module.setFld_keeps ..) rfl ?_
  refine .after (Module.setFld_keeps ..) rfl ?_
  exact .after (Module.voltRead_keeps ..) rfl <| .after (Module.thermRead_keeps ..) rfl .refl

theorem firmwareVerified_keeps (a b : SlotImage) (m : Module) :
    Keeps (Fld.fault ||| Fld.journal ||| Fld.transition ||| Fld.flash ||| Fld.boot ||| Fld.fwHash ||| Fld.fwVersion) m
      (firmwareVerified a b m) := by
  unfold firmwareVerified
  refine .ite (fun _ => .refl) fun _ => ?_
  dsimp only
  refine .ite (fun _ => ?_) fun _ => ?_
  · refine .after (Module.bootFail_keeps ..) rfl <| .after (Module.setFld_keeps ..) rfl ?_
    refine .after (Module.setFld_keeps ..) rfl <| .after (Module.setFld_keeps ..) rfl ?_
    refine .after (Module.setFld_keeps ..) rfl ?_
    exact .ite (fun _ => .upd .refl) fun _ => .after (Module.monitorCheck_keeps ..) rfl <| .upd .refl
  · refine .ite (fun _ => ?_) fun _ => ?_
    · refine .upd ?_
      refine .after (Module.setFld_keeps ..) rfl <| .after (Module.setFld_keeps ..) rfl ?_
      refine .after (Module.setFld_keeps ..) rfl <| .after (Module.setFld_keeps ..) rfl ?_
      refine .after (Module.setFld_keeps ..) rfl ?_
      exact .ite (fun _ => .upd .refl) fun _ => .after (Module.monitorCheck_keeps ..) rfl <| .upd .refl
    · refine .ite (fun _ => ?_) fun _ => ?_
      · refine .after (Module.bootFail_keeps ..) rfl <| .after (Module.setFld_keeps ..) rfl ?_
        refine .after (Module.updateCap_keeps ..) rfl ?_
        refine .upd ?_
        refine .after (Module.setFld_keeps ..) rfl <| .after (Module.setFld_keeps ..) rfl ?_
        refine .after (Module.setFld_keeps ..) rfl <| .after (Module.setFld_keeps ..) rfl ?_
        refine .after (Module.setFld_keeps ..) rfl ?_
        exact .ite (fun _ => .upd .refl) fun _ => .after (Module.monitorCheck_keeps ..) rfl <| .upd .refl
      · refine .upd ?_
        refine .after (Module.updateCap_keeps ..) rfl ?_
        refine .upd ?_
        refine .after (Module.setFld_keeps ..) rfl <| .after (Module.setFld_keeps ..) rfl ?_
        refine .after (Module.setFld_keeps ..) rfl <| .after (Module.setFld_keeps ..) rfl ?_
        refine .after (Module.setFld_keeps ..) rfl ?_
        exact .ite (fun _ => .upd .refl) fun _ => .after (Module.monitorCheck_keeps ..) rfl <| .upd .refl

theorem Module.readSettings_keeps (m : Module) (good : Bool) :
    Keeps (Fld.regs ||| Fld.flash ||| Fld.dramFillDue) m (Module.readSettings m good) := by
  unfold Module.readSettings
  refine .upd ?_
  refine .after (Module.setFld_keeps ..) rfl <| .after (Module.setFld_keeps ..) rfl ?_
  refine .after (Module.setFld_keeps ..) rfl ?_
  exact .after (Module.setFld_keeps ..) rfl <| .ite (fun _ => .refl) fun _ => .upd .refl

theorem Module.drawGenerations_keeps (m : Module) : Keeps (Fld.regs ||| Fld.draws) m (Module.drawGenerations m) := by
  unfold Module.drawGenerations
  refine .foldl (fun _ _ => ?_) _ .refl
  dsimp only
  exact .after (Module.setFld_keeps ..) rfl <| .after (Module.draw_keeps ..) rfl .refl

theorem cpSelfTestDone_keeps (cp0 cp1 settingsOk : Bool) (m : Module) :
    Keeps (Fld.fault ||| Fld.journal ||| Fld.epoch ||| Fld.transition ||| Fld.flash ||| Fld.boot ||| Fld.dramFillDue |||
      Fld.library ||| Fld.doubleRecord) m (cpSelfTestDone cp0 cp1 settingsOk m) := by
  unfold cpSelfTestDone
  refine .ite (fun _ => .refl) fun _ => ?_
  refine .ite (fun _ => ?_) fun _ => ?_
  · refine .after (Module.bootFail_keeps ..) rfl ?_
    exact .after (Module.setFld_keeps ..) rfl <| .after (Module.setFld_keeps ..) rfl .refl
  · dsimp only
    refine .upd ?_
    refine .after (Module.wr_keeps ..) rfl <| .after (Module.wr_keeps ..) rfl ?_
    refine .after (Module.wr_keeps ..) rfl <| .after (Module.open__keeps ..) rfl ?_
    refine .after (Module.open__keeps ..) rfl <| .after (Module.draw_keeps ..) rfl ?_
    refine .ite (fun _ => ?_) fun _ => ?_
    · refine .after (Module.silentFault_keeps ..) rfl ?_
      refine .upd' ?_
      refine .after (Module.drawGenerations_keeps ..) rfl <| .after (Module.readSettings_keeps ..) rfl ?_
      exact .after (Module.setFld_keeps ..) rfl <| .after (Module.setFld_keeps ..) rfl .refl
    · refine .after (Module.drawGenerations_keeps ..) rfl <| .after (Module.readSettings_keeps ..) rfl ?_
      exact .after (Module.setFld_keeps ..) rfl <| .after (Module.setFld_keeps ..) rfl .refl

theorem bootReady_keeps (m : Module) :
    Keeps (Fld.regs ||| Fld.mem ||| Fld.otp ||| Fld.boot ||| Fld.dramFillDue) m (bootReady m) := by
  unfold bootReady
  refine .ite (fun _ => .refl) fun _ => ?_
  refine .upd ?_
  refine .after (Module.setFld_keeps ..) rfl ?_
  exact .after (Module.blowFuses_keeps ..) rfl <| .ite (fun _ => .upd .refl) fun _ => .refl

theorem Module.setCpState_keeps (m : Module) (pair v : Nat) : Keeps Fld.regs m (Module.setCpState m pair v) := by
  unfold Module.setCpState
  exact .after (Module.setFld_keeps ..) rfl .refl

theorem cpResumeDuties_keeps (pair : Fin 2) (pass : Bool) (m : Module) : Keeps Fld.regs m (cpResumeDuties pair pass m) := by
  unfold cpResumeDuties
  exact .ite (fun _ => .after (Module.setCpState_keeps ..) rfl .refl) fun _ => .refl

theorem stormCountClear_keeps (m : Module) : Keeps Fld.regs m (stormCountClear m) := by
  unfold stormCountClear
  exact .after (Module.setFld_keeps ..) rfl .refl

theorem faultLogFlush_keeps (good : Bool) (m : Module) :
    Keeps (Fld.regs ||| Fld.now ||| Fld.draws ||| Fld.flash ||| Fld.flogPending) m (faultLogFlush good m) := by
  unfold faultLogFlush
  refine .ite (fun _ => .refl) fun _ => ?_
  exact .ite (fun _ => .upd .refl) fun _ => .after (Module.silentFault_keeps ..) rfl .refl

theorem Module.timeCopy_keeps (m : Module) : Keeps (Fld.regs ||| Fld.now ||| Fld.draws) m (Module.timeCopy m) := by
  unfold Module.timeCopy
  refine .after (Module.wr_keeps ..) rfl ?_
  exact .after (Module.wr_keeps ..) rfl <| .after (Module.wr_keeps ..) rfl <| .after (Module.tick_keeps ..) rfl .refl

theorem Module.readReg_keeps (m : Module) (r : RegRow) (i off : Nat) :
    Keeps (Fld.regs ||| Fld.now ||| Fld.draws ||| Fld.ctxs) m (Module.readReg m r i off).2.2 := by
  unfold Module.readReg
  split
  · split
    · dsimp only
      exact .after (Module.feTable_keeps (by assumption)) rfl .refl
    · dsimp only
      exact .refl
  · split
    · split
      · dsimp only
        exact .after (Module.nisTable_keeps (by assumption)) rfl .refl
      · dsimp only
        exact .refl
    · dsimp only
      refine .ite (fun _ => .after (Module.measCopy_keeps ..) rfl .refl) fun _ => ?_
      refine .ite (fun _ => .after (Module.timeCopy_keeps ..) rfl .refl) fun _ => ?_
      refine .ite (fun _ => .after (Module.wr_keeps ..) rfl .refl) fun _ => ?_
      refine .ite (fun _ => .after (Module.tick_keeps ..) rfl .refl) fun _ => ?_
      exact .ite (fun _ => .after (Module.lostCycles_keeps ..) rfl .refl) fun _ => .refl

theorem Module.writeCap_keeps (m : Module) (r : RegRow) (p off : Nat) (v new : Word) :
    Keeps (Fld.event ||| Fld.camera ||| Fld.seqNext ||| Fld.seqLast) m (Module.writeCap m r p off v new).2 := by
  unfold Module.writeCap
  dsimp only
  split
  · exact .after (Module.portCfgWrite_keeps ..) rfl .refl
  · split
    · dsimp only
      exact .refl
    · split
      · dsimp only
        exact .refl
      · split
        · exact .after (Module.trainCtl_keeps ..) rfl .refl
        · split
          · split
            · dsimp only
              exact .refl
            · dsimp only
              exact .after (Module.trigCfgWrite_keeps ..) rfl .refl
          · split
            · split
              · exact .after (Module.sqPush_keeps ..) rfl .refl
              · dsimp only
                exact .refl
            · split
              · dsimp only
                exact .after (Module.clearCounters_keeps ..) rfl .refl
              · split
                · dsimp only
                  exact .after (Module.reportStored_keeps ..) rfl <| .after (Module.wr_keeps ..) rfl .refl
                · dsimp only
                  exact .after (Module.wr_keeps ..) rfl .refl

theorem Module.writeCtx_keeps (m : Module) (r : RegRow) (c k off : Nat) (v new : Word) :
    Keeps (Fld.regs ||| Fld.ctxs ||| Fld.streams) m (Module.writeCtx m r c k off v new).2 := by
  unfold Module.writeCtx
  split
  · split
    · exact .after (Module.feCommit_keeps ..) rfl .refl
    · dsimp only
      exact .refl
  · split
    · split
      · dsimp only
        exact .after (Module.feTable_keeps (by assumption)) rfl .refl
      · dsimp only
        exact .refl
    · split
      · split
        · dsimp only
          exact .after (Module.nisTable_keeps (by assumption)) rfl .refl
        · dsimp only
          exact .refl
      · split
        · dsimp only
          exact .ite (fun _ => .after (Module.setCtx_keeps ..) rfl .refl) fun _ => .refl
        · split
          · dsimp only
            exact .ite (fun _ => .after (Module.resumeOutput_keeps ..) rfl .refl) fun _ => .refl
          · dsimp only
            exact .after (Module.wr_keeps ..) rfl .refl

theorem Module.storeSettings_keeps (m : Module) :
    Keeps (Fld.regs ||| Fld.now ||| Fld.draws ||| Fld.flash ||| Fld.flogPending) m (Module.storeSettings m) := by
  unfold Module.storeSettings
  exact .after (Module.storeFlash_keeps ..) rfl .refl

theorem Module.writeCore_keeps (m : Module) (r : RegRow) (i j off : Nat) (v new : Word) :
    Keeps (Fld.dmaMove ||| Fld.camera ||| Fld.planMoves ||| Fld.flash) m (Module.writeCore m r i j off v new).2 := by
  unfold Module.writeCore
  split
  · exact .after (Module.calCtl_keeps ..) rfl .refl
  · split
    · dsimp only
      exact .after (Module.clearCounters_keeps ..) rfl .refl
    · split
      · dsimp only
        exact .after (Module.clearCounters_keeps ..) rfl .refl
      · split
        · dsimp only
          exact .after (Module.clearCounters_keeps ..) rfl .refl
        · split
          · dsimp only
            exact .after (Module.clearCounters_keeps ..) rfl .refl
          · split
            · dsimp only
              exact .after (Module.storeSettings_keeps ..) rfl <| .after (Module.wr_keeps ..) rfl .refl
            · split
              · split
                · dsimp only
                  exact .after (Module.chanAction_keeps (by assumption)) rfl .refl
                · dsimp only
                  exact .refl
              · split
                · dsimp only
                  exact .refl
                · dsimp only
                  exact .after (Module.wr_keeps ..) rfl .refl

theorem Module.writeNet_keeps (m : Module) (r : RegRow) (i off : Nat) (v new : Word) :
    Keeps (Fld.regs ||| Fld.now ||| Fld.draws ||| Fld.flash ||| Fld.flogPending) m (Module.writeNet m r i off v new).2 := by
  unfold Module.writeNet
  dsimp only
  split
  · dsimp only
    exact .refl
  · split
    · dsimp only
      exact .refl
    · split
      · split
        · dsimp only
          exact .after (Module.storeSettings_keeps ..) rfl <| .after (Module.wr_keeps ..) rfl .refl
        · dsimp only
          exact .refl
      · split
        · split
          · dsimp only
            exact .refl
          · dsimp only
            exact .after (Module.setFld_keeps ..) rfl <| .after (Module.wr_keeps ..) rfl .refl
        · split
          · dsimp only
            exact .after (Module.clearCounters_keeps ..) rfl .refl
          · dsimp only
            exact .after (Module.wr_keeps ..) rfl .refl

theorem Module.expCtl_keeps (m : Module) (n off : Nat) (new : Word) : Keeps Fld.regs m (Module.expCtl m n off new).2 := by
  unfold Module.expCtl
  split
  · split
    · dsimp only
      exact .refl
    · dsimp only
      exact .ite (fun _ => .after (Module.closeWindow_keeps ..) rfl .refl) fun _ => .refl
  · split
    · dsimp only
      exact .refl
    · dsimp only
      exact .after (Module.wr_keeps ..) rfl .refl

theorem Module.writeYwp_keeps (m : Module) (r : RegRow) (i off : Nat) (v new : Word) :
    Keeps Fld.regs m (Module.writeYwp m r i off v new).2 := by
  unfold Module.writeYwp
  dsimp only
  split
  · exact .after (Module.expCtl_keeps ..) rfl .refl
  · split
    · dsimp only
      exact .refl
    · split
      · dsimp only
        exact .refl
      · split
        · dsimp only
          exact .refl
        · split
          · dsimp only
            exact .after (Module.clearCounters_keeps ..) rfl .refl
          · dsimp only
            exact .after (Module.wr_keeps ..) rfl .refl

theorem Module.sysReset_keeps (m : Module) (byDebug : Bool) (v : Word) :
    Keeps (Fld.send ||| Fld.regs ||| Fld.regions ||| Fld.dma ||| Fld.modeChange ||| Fld.transition ||| Fld.fullFill) m
      (Module.sysReset m byDebug v).2 := by
  unfold Module.sysReset
  split
  · dsimp only
    exact .refl
  · split
    · dsimp only
      exact .refl
    · dsimp only
      exact .after (Module.beginLeave_keeps ..) rfl .refl

theorem Module.flogWrite_keeps (m : Module) (full : Bool) (off : Nat) (v new : Word) :
    Keeps (Fld.regs ||| Fld.flash ||| Fld.flogPending) m (Module.flogWrite m full off v new).2 := by
  unfold Module.flogWrite
  split
  · dsimp only
    exact .refl
  · dsimp only
    exact .foldl (fun _ _ => .after (Module.wr_keeps ..) rfl .refl) _ (.after (Module.wr_keeps ..) rfl <|
      .ite (fun _ => .upd .refl) fun _ => .refl)

theorem Module.writePwr_keeps (m : Module) (r : RegRow) (off : Nat) (v new : Word) :
    Keeps (Fld.lost ||| Fld.dma ||| Fld.modeChange ||| Fld.transition ||| Fld.fullFill) m (Module.writePwr m r off v new).2
      := by
  unfold Module.writePwr
  split
  · exact .after (Module.powerRequest_keeps ..) rfl .refl
  · split
    · exact .after (Module.modeRequest_keeps ..) rfl .refl
    · split
      · split
        · dsimp only
          exact .refl
        · dsimp only
          refine .ite (fun _ => ?_) fun _ => .after (Module.wr_keeps ..) rfl .refl
          exact .after (Module.switchTo_keeps ..) rfl <| .after (Module.wr_keeps ..) rfl .refl
      · split
        · dsimp only
          exact .after (Module.clearCounters_keeps ..) rfl .refl
        · dsimp only
          exact .after (Module.wr_keeps ..) rfl .refl

theorem Module.writeSys_keeps (m : Module) (src : BusSource) (r : RegRow) (off : Nat) (v new : Word) :
    Keeps (Fld.send ||| Fld.regs ||| Fld.regions ||| Fld.dma ||| Fld.modeChange ||| Fld.transition ||| Fld.flash |||
      Fld.fullFill ||| Fld.flogPending) m (Module.writeSys m src r off v new).2 := by
  unfold Module.writeSys
  dsimp only
  split
  · exact .after (Module.sysReset_keeps ..) rfl .refl
  · split
    · exact .after (Module.flogWrite_keeps ..) rfl .refl
    · split
      · dsimp only
        exact .after (Module.clearCounters_keeps ..) rfl .refl
      · split
        · dsimp only
          exact .after (Module.clearCounters_keeps ..) rfl .refl
        · split
          · dsimp only
            exact .refl
          · split
            · dsimp only
              exact .after (Module.clearCounters_keeps ..) rfl .refl
            · dsimp only
              exact .after (Module.wr_keeps ..) rfl .refl

theorem Module.writeReg_keeps (m : Module) (src : BusSource) (r : RegRow) (i j off : Nat) (v new : Word) :
    Keeps (Fld.lost ||| Fld.move ||| Fld.dmaMove ||| Fld.streams ||| Fld.modeChange ||| Fld.transition ||| Fld.flash |||
      Fld.fullFill) m (Module.writeReg m src r i j off v new).2 := by
  unfold Module.writeReg
  split
  · exact .after (Module.writeSys_keeps ..) rfl .refl
  · split
    · exact .after (Module.writeCap_keeps ..) rfl .refl
    · split
      · exact .after (Module.writeCtx_keeps ..) rfl .refl
      · split
        · exact .after (Module.writeCore_keeps ..) rfl .refl
        · split
          · exact .after (Module.writeNet_keeps ..) rfl .refl
          · split
            · exact .after (Module.writeYwp_keeps ..) rfl .refl
            · split
              · exact .after (Module.writePwr_keeps ..) rfl .refl
              · exact .after (Module.writeSys_keeps ..) rfl .refl

theorem Module.journalWrite_keeps (m : Module) (src : Option (Fin 4 × W16)) (r : RegRow) (off : Nat) (old new : Word) :
    Keeps (Fld.regs ||| Fld.now ||| Fld.draws ||| Fld.journal) m (Module.journalWrite m src r off old new) := by
  unfold Module.journalWrite
  split
  · exact .refl
  · exact .ite (fun _ => .refl) fun _ => .after (Module.journalEntry_keeps ..) rfl .refl

theorem Module.busAnswer_keeps (m : Module) (status : Nat) (value : Word) :
    Keeps Fld.bus m (Module.busAnswer m status value) := by
  unfold Module.busAnswer
  exact .upd .refl

theorem Module.busRead_keeps (m : Module) (off size : Nat) :
    Keeps (Fld.bus ||| Fld.regs ||| Fld.now ||| Fld.draws ||| Fld.ctxs) m (Module.busRead m off size) := by
  unfold Module.busRead
  dsimp only
  split
  · exact .after (Module.busAnswer_keeps ..) rfl .refl
  · split
    · exact .after (Module.busAnswer_keeps ..) rfl .refl
    · exact .after (Module.busAnswer_keeps ..) rfl <| .after (Module.readReg_keeps ..) rfl .refl

theorem Module.busWrite_keeps (m : Module) (src : BusSource) (off size : Nat) (v : Word) :
    Keeps (Fld.lost ||| Fld.move ||| Fld.dmaMove ||| Fld.bus ||| Fld.journal ||| Fld.streams ||| Fld.modeChange |||
      Fld.transition ||| Fld.flash ||| Fld.fullFill) m (Module.busWrite m src off size v) := by
  unfold Module.busWrite
  dsimp only
  split
  · exact .after (Module.busAnswer_keeps ..) rfl .refl
  · split
    · exact .after (Module.busAnswer_keeps ..) rfl .refl
    · refine .ite (fun _ => .after (Module.busAnswer_keeps ..) rfl .refl) fun _ => ?_
      refine .ite (fun _ => .after (Module.busAnswer_keeps ..) rfl .refl) fun _ => ?_
      refine .ite (fun _ => ?_) fun _ => ?_
      · exact .after (Module.busAnswer_keeps ..) rfl <| .after (Module.writeReg_keeps ..) rfl .refl
      · refine .after (Module.busAnswer_keeps ..) rfl ?_
        exact .after (Module.journalWrite_keeps ..) rfl <| .after (Module.writeReg_keeps ..) rfl .refl

theorem Module.accessRead_keeps (m : Module) (src : BusSource) (off size : Nat) :
    Keeps (Fld.bus ||| Fld.regs ||| Fld.now ||| Fld.draws ||| Fld.ctxs) m (Module.accessRead m src off size) := by
  unfold Module.accessRead
  split
  · exact .refl
  · exact .after (Module.busAnswer_keeps ..) rfl .refl
  · exact .after (Module.busRead_keeps ..) rfl .refl

theorem Module.doRegOp_keeps (m : Module) (src : BusSource) (writes : Bool) (o : Nat × Nat × Word) :
    Keeps (Fld.lost ||| Fld.move ||| Fld.dmaMove ||| Fld.bus ||| Fld.journal ||| Fld.streams ||| Fld.modeChange |||
      Fld.transition ||| Fld.flash ||| Fld.fullFill) m (Module.doRegOp m src writes o) := by
  unfold Module.doRegOp
  refine .ite (fun _ => .after (Module.busAnswer_keeps ..) rfl .refl) fun _ => ?_
  split
  · exact .after (Module.busAnswer_keeps ..) rfl .refl
  · exact .after (Module.busAnswer_keeps ..) rfl .refl
  · refine .ite (fun _ => .after (Module.busRead_keeps ..) rfl .refl) fun _ => ?_
    exact .after (Module.busWrite_keeps ..) rfl .refl

theorem Module.regOps_keeps (m : Module) (src : BusSource) (writes : Bool) (b : List Byte) :
    Keeps (Fld.lost ||| Fld.move ||| Fld.dmaMove ||| Fld.bus ||| Fld.journal ||| Fld.streams ||| Fld.modeChange |||
      Fld.transition ||| Fld.flash ||| Fld.fullFill) m (Module.regOps m src writes b).2 := by
  unfold Module.regOps
  dsimp only
  refine .foldl2 (fun _ _ => ?_) _ ?_
  · dsimp only
    exact .after (Module.doRegOp_keeps ..) rfl .refl
  · dsimp only
    exact .refl

theorem measSnapshot_keeps (src : BusSource) (p : PortId) (m : Module) :
    Keeps (Fld.bus ||| Fld.regs ||| Fld.now ||| Fld.draws ||| Fld.ctxs) m (measSnapshot src p m) := by
  unfold measSnapshot
  exact .after (Module.accessRead_keeps ..) rfl .refl

theorem netTimeSnapshot_keeps (src : BusSource) (m : Module) :
    Keeps (Fld.bus ||| Fld.regs ||| Fld.now ||| Fld.draws ||| Fld.ctxs) m (netTimeSnapshot src m) := by
  unfold netTimeSnapshot
  exact .after (Module.accessRead_keeps ..) rfl .refl

theorem energySnapshot_keeps (src : BusSource) (m : Module) :
    Keeps (Fld.bus ||| Fld.regs ||| Fld.now ||| Fld.draws ||| Fld.ctxs) m (energySnapshot src m) := by
  unfold energySnapshot
  exact .after (Module.accessRead_keeps ..) rfl .refl
end Sys2Proof.Machine
end

section
set_option Elab.async false
namespace Sys2Proof.Machine
open Sys2Proof
/-- What a command may change, in any state: the footprint of its effect. -/
def footprint : Instr → Nat
  | .registerWrite _ _ _ _ | .portEnable _ _ _ | .portDisable _ _ _ | .trainStart _ _ | .trainAbort _ _
    | .trigModeWrite _ _ _ | .sqPush _ _ | .capCntClr _ _ _ | .feCommit _ _ _ _ | .feTblDataAccess _ _ _
    | .histResetWrite _ _ | .nisTblDataAccess _ _ _ | .outputResume _ _ _ | .calStart _ _ _ | .calAbort _ _
    | .calStore _ _ | .calCntClr _ _ _ | .engXCntClr _ _ _ | .spmStCntClr _ _ _ | .synCntClr _ _ | .dmaRetry _ _
    | .dmaSkip _ _ | .dmaAbort _ _ | .modeChangeRequest _ _ | .sysAdmCntClr _ _ | .regAccess _ _ | .windowOpen _ _ _
    | .windowClose _ _ _ | .talkerConfigWrite _ _ _ _ | .netCntClr _ _ _ | .ywpCntClr _ _ | .startCondition _
    | .brownOut | .requestRun _ | .requestIdle _ | .requestStandby _ | .requestOff _ | .powerTransitionDone
    | .hardThermalTrip | .pwrCntClr _ _ | .response _ _ _ _ | .regRead _ _ | .regWrite _ _ | .dbgCntClr _ _
    | .sysReset _ _ | .controlMismatch _ | .controlWatchdog _ | .flogIndexSelect _ _ | .flogClear _
    | .sysFltCntClr _ _ => Fld.all
  | .rstLowExpiry _ | .trigPulseEnd _ => Fld.ports
  | .rstSettleExpiry _ => Fld.regs ||| Fld.now ||| Fld.draws ||| Fld.outbox ||| Fld.ports
  | .frameStart _ _ _ => Fld.write ||| Fld.camera ||| Fld.seqNext ||| Fld.seqLast ||| Fld.streams
  | .frameEnd _ _ _ | .pclkLossTimeout _ _ _ | .frameEndTimeout _ _ _ | .laneLineStart _ | .calResultReady _
    => Fld.write ||| Fld.camera
  | .portLineStart _ _ _ _ | .sensorTransactionDone _ _ _ | .sensorBusTimeout _ => Fld.event ||| Fld.ports ||| Fld.ctxs
  | .portLineEnd _ _ _ => Fld.regs ||| Fld.ports ||| Fld.ctxs
  | .trainNoSignalTimeout _ | .trainDone _ _ _ => Fld.regs ||| Fld.cals
  | .trigFreeRunPulse _ | .trigNetTimePulse _ => Fld.now ||| Fld.draws ||| Fld.ports
  | .strobeEdge _ => Fld.now ||| Fld.draws ||| Fld.ports ||| Fld.ctxs
  | .sensorTransactionStart _ => Fld.outbox ||| Fld.ports
  | .inBandInterrupt _ | .gptpHoldoverExpiry | .cpResumeDuties _ _ | .stormCountClear | .supplyNormal _
    | .preemptionVerification _ _ => Fld.regs
  | .measSnapshot _ _ | .netTimeSnapshot _ | .energySnapshot _
    => Fld.bus ||| Fld.regs ||| Fld.now ||| Fld.draws ||| Fld.ctxs
  | .laneOutputLine _ => Fld.write ||| Fld.ctxs
  | .stripeReady _ => Fld.ctxs ||| Fld.syncs
  | .statsRecordDone _ => Fld.write ||| Fld.ctxs ||| Fld.syncs
  | .aeUpdate _ | .awbUpdate _ | .trimUpdate _ => Fld.ctxs
  | .calStoreDone _ _ => Fld.fault ||| Fld.ctxs ||| Fld.cals ||| Fld.flash
  | .taskStart _ _ _ => Fld.write ||| Fld.ctxs ||| Fld.engines
  | .engineNop _ _ | .endOp _ _ | .loop _ _ | .setp _ _ | .alu _ _ | .slot _ _ | .wload _ _ | .tload _ _ | .fence _ _
    => Fld.engines
  | .ldp _ _ | .residentSetLoad _ _ _ _ => Fld.meet ||| Fld.engines
  | .fetch _ _ _ | .wb _ _ | .gate _ _ | .conv2d _ _ | .gemm _ _ | .pool _ _ | .resize _ _ | .eltwise _ _ | .norm _ _
    | .softmax _ _ | .attention _ _ | .libCopy _ _ | .argmax _ _ | .topk _ _ | .nms _ _ => Fld.walk
  | .tileArrived _ _ | .cancellationComplete _ => Fld.meet ||| Fld.window ||| Fld.engines
  | .mm _ _ | .mmf _ _ | .rfu _ _ | .swait _ _ | .swaitTimeout _ | .engineWatchdog _ | .jobPreempt _
    => Fld.regs ||| Fld.engines
  | .writeAcknowledged _ | .stackZeroingDone _ => Fld.dmaMove ||| Fld.engines
  | .ssig _ _ => Fld.regs ||| Fld.engines ||| Fld.syncs
  | .taskComplete _ | .abortComplete _ => Fld.move ||| Fld.dmaMove ||| Fld.job ||| Fld.ctxs ||| Fld.syncs
  | .engineFaultDetected _ _ => Fld.fault ||| Fld.engines
  | .rerunStart _ => Fld.write ||| Fld.engines
  | .rotationGroupExchange _ _ => Fld.ctxs ||| Fld.engines
  | .rotationDue _ | .rotationSkip _ => Fld.rotDue
  | .rotation _ => Fld.event ||| Fld.engines ||| Fld.rotDue
  | .sweepDone _ _ _ => Fld.fault ||| Fld.engines ||| Fld.sweepNo
  | .alloc _ _ _ _ _ => Fld.write ||| Fld.regions ||| Fld.transition
  | .free _ _ => Fld.ring ||| Fld.regs ||| Fld.regions ||| Fld.transition
  | .releaseZeroFill _ => Fld.write ||| Fld.regions
  | .releaseDone _ => Fld.ring ||| Fld.regs ||| Fld.regions ||| Fld.regionGen
  | .fill _ _ _ _ _ _ _ _ _ | .copy _ _ _ _ _ _ _ _ _ _
    => Fld.ring ||| Fld.regs ||| Fld.fills ||| Fld.syncs ||| Fld.transition
  | .fillCopyWriteStart _ => Fld.write ||| Fld.fills
  | .fillCopyWaitTimeout _ => Fld.ring ||| Fld.regs ||| Fld.fills
  | .fillCopyDone _ => Fld.ring ||| Fld.regs ||| Fld.draws ||| Fld.fills ||| Fld.syncs
  | .narrowWrite _ _ => Fld.write ||| Fld.bus ||| Fld.gatherAge
  | .gatherIdleFlush _ => Fld.write
  | .scrubVisit _ _ => Fld.meet
  | .syncOpSignal _ _ | .syncOpAdd _ _ _ | .syncOpReset _ _ _ => Fld.ring ||| Fld.regs ||| Fld.syncs
  | .syncOpWait _ _ _ _ | .syncWaitMet _ _ | .syncWaitTimeout _ _ => Fld.ring ||| Fld.regs ||| Fld.hostWaits
  | .dramWckTrack _ | .dramZqCalibrate _ | .perBankRefresh _ _ => 0
  | .dramSlotAdvance _ _ => Fld.regs ||| Fld.wheel
  | .dma _ _ => Fld.ring ||| Fld.regs ||| Fld.dma ||| Fld.transition
  | .dmaDescriptorRun _ _ _ _ | .dmaWaitMet _ _ _ | .dmaPaceResume _ _ | .multicastResend _ _ | .receiverDropped _ _
    | .planWindowEnd _ _ => Fld.dmaMove
  | .dmaWaitTimeout _ => Fld.ring ||| Fld.regs ||| Fld.dma
  | .dmaDescriptorDone _ => Fld.dmaMove ||| Fld.planMoves ||| Fld.clips ||| Fld.syncs
  | .dmaTransferFail _ => Fld.event ||| Fld.plan ||| Fld.streams
  | .dmaHalted _ => Fld.event ||| Fld.dma
  | .planChannelSkip _ => Fld.dmaMove ||| Fld.planMoves ||| Fld.syncs
  | .clipFrameCopy _ _ => Fld.dmaMove ||| Fld.ctxs ||| Fld.planMoves ||| Fld.clips
  | .clipHeaderUpdate _ _ => Fld.dmaMove ||| Fld.planMoves ||| Fld.clips
  | .freeze _ _ _ => Fld.write ||| Fld.gatherAge ||| Fld.planMoves ||| Fld.clips
  | .thaw _ _ => Fld.write ||| Fld.gatherAge ||| Fld.clips
  | .admitStream _ _ _ _ _ => Fld.meet ||| Fld.winSeq ||| Fld.admitting ||| Fld.transition
  | .admitComplete _
    => Fld.write ||| Fld.window ||| Fld.journal ||| Fld.ctxs ||| Fld.cals ||| Fld.regions ||| Fld.gatherAge |||
      Fld.dma ||| Fld.clips ||| Fld.syncs ||| Fld.syncOwner ||| Fld.streams ||| Fld.admitting
  | .release _ _ => Fld.event ||| Fld.camera ||| Fld.streams
  | .releaseComplete _
    => Fld.fault ||| Fld.job ||| Fld.plan ||| Fld.journal ||| Fld.packages ||| Fld.packageGen ||| Fld.netPorts |||
      Fld.ctxs ||| Fld.engines ||| Fld.regions ||| Fld.fills ||| Fld.clips ||| Fld.syncOwner ||| Fld.streams |||
      Fld.streamGen ||| Fld.transition
  | .deadlineMissed _ _ _ _ _ => Fld.event ||| Fld.streams
  | .deliveryCopy _ _ => Fld.dmaMove ||| Fld.ctxs ||| Fld.planMoves ||| Fld.streams
  | .resumeDelivery _ _ _ => Fld.ring ||| Fld.streams
  | .job _ _ _ => Fld.meet ||| Fld.winSeq ||| Fld.jobs ||| Fld.nextJob ||| Fld.transition
  | .jobDispatch _ _ _ _ _ => Fld.write ||| Fld.job ||| Fld.engines ||| Fld.gatherAge
  | .withdraw _ _ => Fld.ring ||| Fld.job ||| Fld.regs ||| Fld.engines
  | .modeReplanDone
    => Fld.write ||| Fld.camera ||| Fld.engines ||| Fld.regions ||| Fld.gatherAge ||| Fld.dma ||| Fld.streams |||
      Fld.jobs ||| Fld.modeChange
  | .modeClockSwitch
    => Fld.write ||| Fld.netPorts ||| Fld.ctxs ||| Fld.cals ||| Fld.engines ||| Fld.regions ||| Fld.gatherAge |||
      Fld.dma ||| Fld.clips ||| Fld.syncs ||| Fld.syncOwner ||| Fld.streams ||| Fld.modeChange
  | .modeChanged => Fld.event ||| Fld.modeChange
  | .thermalCapUpdate | .coldPlateSample _ _ => Fld.write ||| Fld.gatherAge ||| Fld.atRisk
  | .planOverCap | .supplyLowEnter _ | .supplyHighEnter _ | .tempSensorCheck _ _ => Fld.fault
  | .ywpFrameDiscard _ _ | .qbvCycleStart _ | .planWindowOpen _ _ | .peerDelayMeasurement _ _ => Fld.netPorts
  | .arpRequest _ _ _ => Fld.outbox ||| Fld.netPorts
  | .netRxFrame _ _ => Fld.regs ||| Fld.now ||| Fld.draws ||| Fld.netPorts ||| Fld.recovery ||| Fld.meters
  | .attach _ _ => Fld.answer ||| Fld.attachWait ||| Fld.attachDone ||| Fld.netPorts
  | .attachServe _
    => Fld.send ||| Fld.regs ||| Fld.now ||| Fld.draws ||| Fld.sessions ||| Fld.sessionGen ||| Fld.attachWait |||
      Fld.attachDone ||| Fld.winSeq
  | .detach _ _
    => Fld.event ||| Fld.job ||| Fld.noSessionAt ||| Fld.notReadyAt ||| Fld.netPorts ||| Fld.fills ||| Fld.dma |||
      Fld.hostWaits
  | .keepalive _ _ | .journalRead _ _ => Fld.answer ||| Fld.noSessionAt ||| Fld.netPorts
  | .sessionKeepaliveTimeout _ => Fld.event ||| Fld.job ||| Fld.fills ||| Fld.dma ||| Fld.hostWaits
  | .doorbell _ _ => Fld.answer ||| Fld.sessions ||| Fld.noSessionAt ||| Fld.netPorts
  | .submissionEntryTake _ _
    => Fld.event ||| Fld.job ||| Fld.lastTurn ||| Fld.takeNo ||| Fld.fills ||| Fld.dma ||| Fld.hostWaits
  | .nop _ | .reservedOpcode _ _ | .setEvents _ _ => Fld.ring
  | .loadPkg _ _ _ _ => Fld.meet ||| Fld.packages ||| Fld.transition
  | .unloadPkg _ _ => Fld.ring ||| Fld.packages ||| Fld.packageGen
  | .completionWrite _ => Fld.ring ||| Fld.regs ||| Fld.fills ||| Fld.jobs
  | .eventsLost _ => Fld.ring ||| Fld.regs ||| Fld.now ||| Fld.draws ||| Fld.evNext ||| Fld.trace
  | .notify _ => Fld.send ||| Fld.now ||| Fld.draws ||| Fld.sessions
  | .wake _ => Fld.answer ||| Fld.regs ||| Fld.netPorts ||| Fld.transition ||| Fld.boot ||| Fld.dramReady
  | .winWrite _ _
    => Fld.write ||| Fld.notReadyAt ||| Fld.winSeq ||| Fld.mcRx ||| Fld.netPorts ||| Fld.gatherAge ||| Fld.syncs
  | .winRead _ _ => Fld.meet ||| Fld.notReadyAt ||| Fld.netPorts
  | .winSync _ _ => Fld.answer ||| Fld.regs ||| Fld.syncSeen ||| Fld.netPorts ||| Fld.syncs
  | .winCredit _ _ => Fld.dmaMove ||| Fld.notReadyAt ||| Fld.mcRx
  | .winBind _ _ _ | .winRefresh _ _ _ => Fld.answer ||| Fld.window ||| Fld.regs ||| Fld.noSessionAt
  | .winUnbind _ _ => Fld.answer ||| Fld.regs ||| Fld.noSessionAt ||| Fld.binds ||| Fld.netPorts
  | .windowResponse _ _ _ | .winRetryTimeout _ _ _
    => Fld.dmaMove ||| Fld.job ||| Fld.engines ||| Fld.fills ||| Fld.hostWaits
  | .linkUp _ _ => Fld.event
  | .linkDown _ | .gptpSyncTimeout _ => Fld.fault ||| Fld.netPorts
  | .gptpSyncReceive _ _ _ => Fld.event ||| Fld.ptpOffset ||| Fld.netPorts ||| Fld.clockStep
  | .gptpClockStep => Fld.ptpOffset ||| Fld.clockStep
  | .highVoltageTimeout _ | .holdupEnter _ | .holdupReconnect _ => Fld.fault ||| Fld.holdupHigh
  | .enOff
    => Fld.fault ||| Fld.camera ||| Fld.regions ||| Fld.dma ||| Fld.streams ||| Fld.modeChange ||| Fld.transition |||
      Fld.offHeld ||| Fld.fullFill
  | .standbyDrainTimeout
    => Fld.ring ||| Fld.regs ||| Fld.draws ||| Fld.ports ||| Fld.ctxs ||| Fld.engines ||| Fld.dma ||| Fld.jobs |||
      Fld.transition
  | .wakeReady => Fld.lost ||| Fld.epoch ||| Fld.transition ||| Fld.tripped ||| Fld.otp ||| Fld.boot
  | .autoIdleSample => Fld.regs ||| Fld.transition ||| Fld.idleSamples
  | .powerSample _ _ _ => Fld.regs ||| Fld.jobsGated ||| Fld.powerSamples ||| Fld.energyPj
  | .thermalTrip
    => Fld.fault ||| Fld.camera ||| Fld.regions ||| Fld.dma ||| Fld.streams ||| Fld.modeChange ||| Fld.transition |||
      Fld.tripped ||| Fld.fullFill
  | .status _ | .traceRead _ _ _ | .debugJournalRead _ _ _ | .attest _ _ | .identity _ | .debugReservedOp _ _
    | .debugFrameDiscard _ => Fld.answer
  | .password _ _ => Fld.fault ||| Fld.journal ||| Fld.notReadyAt ||| Fld.flash ||| Fld.backoff ||| Fld.backoffEnd
  | .challenge _ _ => Fld.answer ||| Fld.regs ||| Fld.nonce
  | .lock _ => Fld.event ||| Fld.journal ||| Fld.notReadyAt
  | .memRead _ _ _ _ => Fld.meet ||| Fld.notReadyAt ||| Fld.winSeq
  | .memWrite _ _ _ => Fld.write ||| Fld.window ||| Fld.notReadyAt
  | .syncReset _ _ _ => Fld.answer ||| Fld.regs ||| Fld.syncs
  | .halt _ _ => Fld.answer ||| Fld.cpHalted ||| Fld.engHalted
  | .resume _ _ => Fld.answer ||| Fld.ring ||| Fld.heldEvents ||| Fld.cpHalted ||| Fld.engHalted
  | .provision _ _ _ _ _ => Fld.answer ||| Fld.regs ||| Fld.otp
  | .lifecycle _ _ | .setPassword _ _ _ => Fld.answer ||| Fld.regs ||| Fld.journal ||| Fld.otp
  | .nonceExpiry => Fld.regs ||| Fld.nonce
  | .backoffExpiry => Fld.backoff
  | .zeroFillDone => Fld.write ||| Fld.journal ||| Fld.fullFill
  | .tapReset => Fld.tap
  | .dramTrainingDone _ _ _ => Fld.regs ||| Fld.flash ||| Fld.dramReady
  | .firmwareVerified _ _
    => Fld.fault ||| Fld.journal ||| Fld.transition ||| Fld.flash ||| Fld.boot ||| Fld.fwHash ||| Fld.fwVersion
  | .cpSelfTestDone _ _ _
    => Fld.fault ||| Fld.journal ||| Fld.epoch ||| Fld.transition ||| Fld.flash ||| Fld.boot ||| Fld.dramFillDue |||
      Fld.library ||| Fld.doubleRecord
  | .bootReady => Fld.regs ||| Fld.mem ||| Fld.otp ||| Fld.boot ||| Fld.dramFillDue
  | .faultLogFlush _ => Fld.regs ||| Fld.now ||| Fld.draws ||| Fld.flash ||| Fld.flogPending
  | .supplyLost => Fld.regs ||| Fld.offHeld
  | .sequenceRecoveryReset _ => Fld.recovery
  | .extest _ _ => Fld.send ||| Fld.tap

theorem Keeps.all {m k : Module} : Keeps Fld.all m k := rfl

/-- A command changes nothing outside its footprint. -/
theorem effect_keeps (c : Instr) (m : Module) : Keeps (footprint c) m (effect c m) := by
  cases c with
  | registerWrite _ _ _ _ => exact .all
  | portEnable _ _ _ => exact .all
  | portDisable _ _ _ => exact .all
  | rstLowExpiry _ => exact rstLowExpiry_keeps ..
  | rstSettleExpiry _ => exact rstSettleExpiry_keeps ..
  | frameStart _ _ _ => exact frameStart_keeps ..
  | frameEnd _ _ _ => exact frameEnd_keeps ..
  | portLineStart _ _ _ _ => exact portLineStart_keeps ..
  | portLineEnd p t pixels => exact portLineEnd_keeps p t pixels m
  | pclkLossTimeout _ _ _ => exact pclkLossTimeout_keeps ..
  | frameEndTimeout _ _ _ => exact frameEndTimeout_keeps ..
  | trainStart _ _ => exact .all
  | trainAbort _ _ => exact .all
  | trainNoSignalTimeout _ => exact trainNoSignalTimeout_keeps ..
  | trainDone _ _ _ => exact trainDone_keeps ..
  | trigModeWrite _ _ _ => exact .all
  | trigFreeRunPulse _ => exact trigFreeRunPulse_keeps ..
  | trigNetTimePulse _ => exact trigNetTimePulse_keeps ..
  | trigPulseEnd _ => exact trigPulseEnd_keeps ..
  | strobeEdge _ => exact strobeEdge_keeps ..
  | sqPush _ _ => exact .all
  | sensorTransactionStart _ => exact sensorTransactionStart_keeps ..
  | sensorTransactionDone _ _ _ => exact sensorTransactionDone_keeps ..
  | sensorBusTimeout _ => exact sensorBusTimeout_keeps ..
  | inBandInterrupt _ => exact inBandInterrupt_keeps ..
  | measSnapshot _ _ => exact measSnapshot_keeps ..
  | capCntClr _ _ _ => exact .all
  | laneLineStart _ => exact laneLineStart_keeps ..
  | laneOutputLine _ => exact laneOutputLine_keeps ..
  | stripeReady _ => exact stripeReady_keeps ..
  | feCommit _ _ _ _ => exact .all
  | feTblDataAccess _ _ _ => exact .all
  | statsRecordDone _ => exact statsRecordDone_keeps ..
  | aeUpdate _ => exact aeUpdate_keeps ..
  | awbUpdate _ => exact awbUpdate_keeps ..
  | trimUpdate _ => exact trimUpdate_keeps ..
  | histResetWrite _ _ => exact .all
  | nisTblDataAccess _ _ _ => exact .all
  | outputResume _ _ _ => exact .all
  | calStart _ _ _ => exact .all
  | calAbort _ _ => exact .all
  | calStore _ _ => exact .all
  | calStoreDone _ _ => exact calStoreDone_keeps ..
  | calResultReady _ => exact calResultReady_keeps ..
  | calCntClr _ _ _ => exact .all
  | taskStart _ _ _ => exact taskStart_keeps ..
  | engineNop _ _ => exact engineNop_keeps ..
  | endOp _ _ => exact endOp_keeps ..
  | loop _ _ => exact loop_keeps ..
  | setp _ _ => exact setp_keeps ..
  | alu _ _ => exact alu_keeps ..
  | ldp _ _ => exact ldp_keeps ..
  | slot _ _ => exact slotOp_keeps ..
  | fetch _ _ _ => exact fetch_keeps ..
  | tileArrived _ _ => exact tileArrived_keeps ..
  | wload _ _ => exact wload_keeps ..
  | mm _ _ => exact mm_keeps ..
  | mmf _ _ => exact mmf_keeps ..
  | rfu _ _ => exact rfu_keeps ..
  | tload _ _ => exact tload_keeps ..
  | wb _ _ => exact wb_keeps ..
  | writeAcknowledged _ => exact writeAcknowledged_keeps ..
  | gate _ _ => exact gate_keeps ..
  | swait _ _ => exact swait_keeps ..
  | swaitTimeout _ => exact swaitTimeout_keeps ..
  | ssig _ _ => exact ssig_keeps ..
  | fence _ _ => exact fence_keeps ..
  | conv2d _ _ => exact conv2d_keeps ..
  | gemm _ _ => exact gemm_keeps ..
  | pool _ _ => exact pool_keeps ..
  | resize _ _ => exact resize_keeps ..
  | eltwise _ _ => exact eltwise_keeps ..
  | norm _ _ => exact norm_keeps ..
  | softmax _ _ => exact softmax_keeps ..
  | attention _ _ => exact attention_keeps ..
  | libCopy _ _ => exact copyRoutine_keeps ..
  | argmax _ _ => exact argmax_keeps ..
  | topk _ _ => exact topk_keeps ..
  | nms _ _ => exact nms_keeps ..
  | taskComplete _ => exact taskComplete_keeps ..
  | engineFaultDetected _ _ => exact engineFaultDetected_keeps ..
  | engineWatchdog _ => exact engineWatchdog_keeps ..
  | abortComplete _ => exact abortComplete_keeps ..
  | rerunStart _ => exact rerunStart_keeps ..
  | residentSetLoad _ _ _ _ => exact residentSetLoad_keeps ..
  | rotationGroupExchange _ _ => exact rotationGroupExchange_keeps ..
  | cancellationComplete _ => exact cancellationComplete_keeps ..
  | rotationDue _ => exact rotationDue_keeps ..
  | rotation _ => exact rotation_keeps ..
  | rotationSkip _ => exact rotationSkip_keeps ..
  | sweepDone _ _ _ => exact sweepDone_keeps ..
  | engXCntClr _ _ _ => exact .all
  | alloc _ _ _ _ _ => exact allocCmd_keeps ..
  | free _ _ => exact freeCmd_keeps ..
  | releaseZeroFill _ => exact releaseZeroFill_keeps ..
  | releaseDone _ => exact releaseDone_keeps ..
  | fill _ _ _ _ _ _ _ _ _ => exact fillCmd_keeps ..
  | copy _ _ _ _ _ _ _ _ _ _ => exact copyCmd_keeps ..
  | fillCopyWriteStart _ => exact fillCopyWriteStart_keeps ..
  | fillCopyWaitTimeout _ => exact fillCopyWaitTimeout_keeps ..
  | fillCopyDone _ => exact fillCopyDone_keeps ..
  | narrowWrite _ _ => exact narrowWrite_keeps ..
  | gatherIdleFlush _ => exact gatherIdleFlush_keeps ..
  | scrubVisit _ _ => exact scrubVisit_keeps ..
  | stackZeroingDone _ => exact stackZeroingDone_keeps ..
  | spmStCntClr _ _ _ => exact .all
  | syncOpSignal _ _ => exact syncOpSignal_keeps ..
  | syncOpAdd _ _ _ => exact syncOpAdd_keeps ..
  | syncOpReset _ _ _ => exact syncOpReset_keeps ..
  | syncOpWait _ _ _ _ => exact syncOpWait_keeps ..
  | syncWaitMet _ _ => exact syncWaitMet_keeps ..
  | syncWaitTimeout _ _ => exact syncWaitTimeout_keeps ..
  | synCntClr _ _ => exact .all
  | dramWckTrack ch => exact dramWckTrack_keeps ch m
  | dramZqCalibrate ch => exact dramZqCalibrate_keeps ch m
  | dramSlotAdvance _ _ => exact dramSlotAdvance_keeps ..
  | dma _ _ => exact dmaCmd_keeps ..
  | dmaDescriptorRun _ _ _ _ => exact dmaDescriptorRun_keeps ..
  | dmaWaitMet _ _ _ => exact dmaWaitMet_keeps ..
  | dmaWaitTimeout _ => exact dmaWaitTimeout_keeps ..
  | dmaDescriptorDone _ => exact dmaDescriptorDone_keeps ..
  | dmaPaceResume _ _ => exact dmaPaceResume_keeps ..
  | dmaTransferFail _ => exact dmaTransferFail_keeps ..
  | dmaHalted _ => exact dmaHalted_keeps ..
  | dmaRetry _ _ => exact .all
  | dmaSkip _ _ => exact .all
  | dmaAbort _ _ => exact .all
  | planChannelSkip _ => exact planChannelSkip_keeps ..
  | clipFrameCopy _ _ => exact clipFrameCopy_keeps ..
  | clipHeaderUpdate _ _ => exact clipHeaderUpdate_keeps ..
  | freeze _ _ _ => exact freeze_keeps ..
  | thaw _ _ => exact thaw_keeps ..
  | admitStream _ _ _ _ _ => exact admitStream_keeps ..
  | admitComplete _ => exact admitComplete_keeps ..
  | release _ _ => exact release_keeps ..
  | releaseComplete _ => exact releaseComplete_keeps ..
  | deadlineMissed _ _ _ _ _ => exact deadlineMissed_keeps ..
  | deliveryCopy _ _ => exact deliveryCopy_keeps ..
  | resumeDelivery _ _ _ => exact resumeDelivery_keeps ..
  | job _ _ _ => exact jobCmd_keeps ..
  | jobDispatch _ _ _ _ _ => exact jobDispatch_keeps ..
  | jobPreempt _ => exact jobPreempt_keeps ..
  | withdraw _ _ => exact withdraw_keeps ..
  | modeChangeRequest _ _ => exact .all
  | modeReplanDone => exact modeReplanDone_keeps ..
  | modeClockSwitch => exact modeClockSwitch_keeps ..
  | modeChanged => exact modeChanged_keeps ..
  | thermalCapUpdate => exact thermalCapUpdate_keeps ..
  | planOverCap => exact planOverCap_keeps ..
  | sysAdmCntClr _ _ => exact .all
  | ywpFrameDiscard _ _ => exact ywpFrameDiscard_keeps ..
  | arpRequest _ _ _ => exact arpRequest_keeps ..
  | netRxFrame _ _ => exact netRxFrame_keeps ..
  | attach _ _ => exact attach_keeps ..
  | attachServe _ => exact attachServe_keeps ..
  | detach _ _ => exact detach_keeps ..
  | keepalive _ _ => exact keepalive_keeps ..
  | sessionKeepaliveTimeout _ => exact sessionKeepaliveTimeout_keeps ..
  | regAccess _ _ => exact .all
  | doorbell _ _ => exact doorbell_keeps ..
  | submissionEntryTake _ _ => exact submissionEntryTake_keeps ..
  | nop _ => exact nop_keeps ..
  | reservedOpcode _ _ => exact reservedOpcode_keeps ..
  | loadPkg _ _ _ _ => exact loadPkg_keeps ..
  | unloadPkg _ _ => exact unloadPkg_keeps ..
  | setEvents _ _ => exact setEvents_keeps ..
  | completionWrite _ => exact completionWrite_keeps ..
  | eventsLost _ => exact eventsLost_keeps ..
  | notify _ => exact notify_keeps ..
  | journalRead _ _ => exact journalRead_keeps ..
  | wake _ => exact wake_keeps ..
  | winWrite _ _ => exact winWrite_keeps ..
  | winRead _ _ => exact winRead_keeps ..
  | winSync _ _ => exact winSync_keeps ..
  | winCredit _ _ => exact winCredit_keeps ..
  | winBind _ _ _ => exact winBind_keeps ..
  | winUnbind _ _ => exact winUnbind_keeps ..
  | winRefresh _ _ _ => exact winRefresh_keeps ..
  | windowResponse _ _ _ => exact windowResponse_keeps ..
  | winRetryTimeout _ _ _ => exact winRetryTimeout_keeps ..
  | multicastResend _ _ => exact multicastResend_keeps ..
  | receiverDropped _ _ => exact receiverDropped_keeps ..
  | windowOpen _ _ _ => exact .all
  | windowClose _ _ _ => exact .all
  | talkerConfigWrite _ _ _ _ => exact .all
  | netTimeSnapshot _ => exact netTimeSnapshot_keeps ..
  | linkUp _ _ => exact linkUp_keeps ..
  | linkDown _ => exact linkDown_keeps ..
  | gptpSyncReceive _ _ _ => exact gptpSyncReceive_keeps ..
  | gptpSyncTimeout _ => exact gptpSyncTimeout_keeps ..
  | gptpHoldoverExpiry => exact gptpHoldoverExpiry_keeps ..
  | gptpClockStep => exact gptpClockStep_keeps ..
  | qbvCycleStart _ => exact qbvCycleStart_keeps ..
  | planWindowOpen _ _ => exact planWindowOpen_keeps ..
  | planWindowEnd _ _ => exact planWindowEnd_keeps ..
  | netCntClr _ _ _ => exact .all
  | ywpCntClr _ _ => exact .all
  | startCondition _ => exact .all
  | supplyLowEnter _ => exact supplyLowEnter_keeps ..
  | supplyHighEnter _ => exact supplyHighEnter_keeps ..
  | highVoltageTimeout _ => exact highVoltageTimeout_keeps ..
  | holdupEnter _ => exact holdupEnter_keeps ..
  | holdupReconnect _ => exact holdupReconnect_keeps ..
  | brownOut => exact .all
  | enOff => exact enOff_keeps ..
  | requestRun _ => exact .all
  | requestIdle _ => exact .all
  | requestStandby _ => exact .all
  | requestOff _ => exact .all
  | standbyDrainTimeout => exact standbyDrainTimeout_keeps ..
  | powerTransitionDone => exact .all
  | wakeReady => exact wakeReady_keeps ..
  | autoIdleSample => exact autoIdleSample_keeps ..
  | powerSample _ _ _ => exact powerSample_keeps ..
  | coldPlateSample _ _ => exact coldPlateSample_keeps ..
  | tempSensorCheck _ _ => exact tempSensorCheck_keeps ..
  | thermalTrip => exact thermalTrip_keeps ..
  | hardThermalTrip => exact .all
  | energySnapshot _ => exact energySnapshot_keeps ..
  | pwrCntClr _ _ => exact .all
  | status _ => exact status_keeps ..
  | password _ _ => exact password_keeps ..
  | challenge _ _ => exact challenge_keeps ..
  | response _ _ _ _ => exact .all
  | lock _ => exact lock_keeps ..
  | regRead _ _ => exact .all
  | regWrite _ _ => exact .all
  | memRead _ _ _ _ => exact memRead_keeps ..
  | memWrite _ _ _ => exact memWrite_keeps ..
  | syncReset _ _ _ => exact syncReset_keeps ..
  | halt _ _ => exact halt_keeps ..
  | resume _ _ => exact resume_keeps ..
  | traceRead _ _ _ => exact traceRead_keeps ..
  | debugJournalRead _ _ _ => exact debugJournalRead_keeps ..
  | attest _ _ => exact attest_keeps ..
  | identity _ => exact identity_keeps ..
  | provision _ _ _ _ _ => exact provision_keeps ..
  | lifecycle _ _ => exact lifecycle_keeps ..
  | setPassword _ _ _ => exact setPassword_keeps ..
  | debugReservedOp _ _ => exact debugReservedOp_keeps ..
  | debugFrameDiscard _ => exact debugFrameDiscard_keeps ..
  | nonceExpiry => exact nonceExpiry_keeps ..
  | backoffExpiry => exact backoffExpiry_keeps ..
  | zeroFillDone => exact zeroFillDone_keeps ..
  | dbgCntClr _ _ => exact .all
  | sysReset _ _ => exact .all
  | tapReset => exact tapReset_keeps ..
  | dramTrainingDone _ _ _ => exact dramTrainingDone_keeps ..
  | firmwareVerified _ _ => exact firmwareVerified_keeps ..
  | cpSelfTestDone _ _ _ => exact cpSelfTestDone_keeps ..
  | bootReady => exact bootReady_keeps ..
  | controlMismatch _ => exact .all
  | controlWatchdog _ => exact .all
  | cpResumeDuties _ _ => exact cpResumeDuties_keeps ..
  | stormCountClear => exact stormCountClear_keeps ..
  | faultLogFlush _ => exact faultLogFlush_keeps ..
  | flogIndexSelect _ _ => exact .all
  | flogClear _ => exact .all
  | sysFltCntClr _ _ => exact .all
  | supplyNormal _ => exact supplyNormal_keeps ..
  | supplyLost => exact supplyLost_keeps ..
  | perBankRefresh ch bank => exact perBankRefresh_keeps ch bank m
  | preemptionVerification _ _ => exact preemptionVerification_keeps ..
  | sequenceRecoveryReset _ => exact sequenceRecoveryReset_keeps ..
  | peerDelayMeasurement _ _ => exact peerDelayMeasurement_keeps ..
  | extest _ _ => exact extest_keeps ..

theorem exec_keeps {c : Instr} {s t : State} (h : exec c s = .next t) : Keeps (footprint c) s.toModule t.toModule := by
  rcases exec_next h with rfl | rfl
  · exact .refl
  · exact effect_keeps c _

/-! ### The frame of memory -/

theorem storesNothing_footprint {c : Instr} (h : storesNothing c) :
    footprint c &&& (Fld.all - Fld.store) = footprint c := by
  cases c
  all_goals first | exact False.elim h | dsimp only [footprint]
  all_goals decide

theorem byte_congr {m k : Module} (hmem : k.mem = m.mem) (hgather : k.gather = m.gather) (a : Nat) : k.byte a = m.byte a := by
  unfold Module.byte Module.gathered
  rw [hmem, hgather]

/-! ### The frame of a unit's commands -/

/-- The fields that reports and answers change: those that `Module.core` erases. -/
def Fld.reports : Nat :=
  event ||| bus ||| fault ||| journal ||| notReadyAt

theorem reportsOnly_footprint {c : Instr} (h : reportsOnly c) : footprint c &&& Fld.reports = footprint c := by
  cases c
  all_goals first | exact False.elim h | dsimp only [footprint]
  all_goals decide

def Fld.network : Nat := reports ||| netPorts ||| clockStep ||| ptpOffset ||| recovery ||| meters

theorem networkOnly_footprint {c : Instr} (h : networkOnly c) : footprint c &&& Fld.network = footprint c := by
  cases c
  all_goals first | exact False.elim h | dsimp only [footprint]
  all_goals decide

def Fld.syncUnit : Nat := reports ||| syncs ||| hostWaits

theorem syncsOnly_footprint {c : Instr} (h : syncsOnly c) : footprint c &&& Fld.syncUnit = footprint c := by
  cases c
  all_goals first | exact False.elim h | dsimp only [footprint]
  all_goals decide

def Fld.upkeep : Nat := reports ||| engines ||| rotDue ||| sweepNo ||| badWords

theorem engineUpkeep_footprint {c : Instr} (h : engineUpkeep c) : footprint c &&& Fld.upkeep = footprint c := by
  cases c
  all_goals first | exact False.elim h | dsimp only [footprint]
  all_goals decide

def Fld.memory : Nat :=
  reports ||| regions ||| regionGen ||| fills ||| syncs ||| wheel ||| badWords ||| dma ||| planMoves ||| winSeq ||| streams |||
    transition

theorem memoryUnits_footprint {c : Instr} (h : memoryUnits c) : footprint c &&& Fld.memory = footprint c := by
  cases c
  all_goals first | exact False.elim h | dsimp only [footprint]
  all_goals decide

def Fld.work : Nat :=
  reports ||| admitting ||| packages ||| packageGen ||| jobs ||| nextJob ||| withdraws ||| engines ||| streams ||| modeChange |||
    transition ||| badWords ||| winSeq ||| fills

theorem workAdmission_footprint {c : Instr} (h : workAdmission c) : footprint c &&& Fld.work = footprint c := by
  cases c
  all_goals first | exact False.elim h | dsimp only [footprint]
  all_goals decide

def Fld.supply : Nat :=
  reports ||| holdupHigh ||| offHeld ||| jobsGated ||| powerSamples ||| energyPj ||| idleSamples ||| transition

theorem supplyOnly_footprint {c : Instr} (h : supplyOnly c) : footprint c &&& Fld.supply = footprint c := by
  cases c
  all_goals first | exact False.elim h | dsimp only [footprint]
  all_goals decide

def Fld.security : Nat := reports ||| nonce ||| backoff ||| backoffEnd ||| flash ||| otp ||| tap

theorem securityOnly_footprint {c : Instr} (h : securityOnly c) : footprint c &&& Fld.security = footprint c := by
  cases c
  all_goals first | exact False.elim h | dsimp only [footprint]
  all_goals decide

end Sys2Proof.Machine
namespace Sys2Proof
open Machine

/-- Settles O60: the footprint of a command that stores nothing holds neither the memory nor the gather buffer. -/
theorem memoryFrame : Obligations.MemoryFrame := by
  unfold Obligations.MemoryFrame
  intro c s t h hc
  have kept : Keeps (Fld.all - Fld.store) s.toModule t.toModule := (exec_keeps h).mono (storesNothing_footprint hc)
  have hmem : t.mem = s.mem := congrArg (·.mem) kept
  have hgather : t.gather = s.gather := congrArg (·.gather) kept
  exact ⟨hmem, hgather, byte_congr hmem hgather⟩

/-- Settles O59: the footprint of each command of a family holds only reports and the state of the family's unit, so the
state with these erased is the same before and after. -/
theorem unitCommandsFrame : Obligations.UnitCommandsFrame := by
  unfold Obligations.UnitCommandsFrame
  intro c s t h
  have kept := exec_keeps h
  refine ⟨fun hc => ?_, fun hc => ?_, fun hc => ?_, fun hc => ?_, fun hc => ?_, fun hc => ?_, fun hc => ?_, fun hc => ?_⟩
  · exact congrArg (·.core) (kept.mono (reportsOnly_footprint hc))
  · exact congrArg (fun k : Module => { k.core with
        netPorts := s.netPorts, clockStep := s.clockStep, ptpOffset := s.ptpOffset, recovery := s.recovery
        meters := s.meters }) (kept.mono (networkOnly_footprint hc))
  · exact congrArg (fun k : Module => { k.core with syncs := s.syncs, hostWaits := s.hostWaits })
      (kept.mono (syncsOnly_footprint hc))
  · exact congrArg (fun k : Module => { k.core with
        engines := s.engines, rotDue := s.rotDue, sweepNo := s.sweepNo, poison := s.poison, ueSectors := s.ueSectors
        latent := s.latent }) (kept.mono (engineUpkeep_footprint hc))
  · exact congrArg (fun k : Module => { k.core with
        regions := s.regions, regionGen := s.regionGen, fills := s.fills, syncs := s.syncs, wheel := s.wheel
        poison := s.poison, ueSectors := s.ueSectors, latent := s.latent, dma := s.dma, planMoves := s.planMoves
        winSeq := s.winSeq, streams := s.streams, transition := s.transition }) (kept.mono (memoryUnits_footprint hc))
  · exact congrArg (fun k : Module => { k.core with
        admitting := s.admitting, packages := s.packages, packageGen := s.packageGen, jobs := s.jobs, nextJob := s.nextJob
        withdraws := s.withdraws, engines := s.engines, streams := s.streams, modeChange := s.modeChange
        transition := s.transition, poison := s.poison, ueSectors := s.ueSectors, latent := s.latent, winSeq := s.winSeq
        fills := s.fills }) (kept.mono (workAdmission_footprint hc))
  · exact congrArg (fun k : Module => { k.core with
        holdupHigh := s.holdupHigh, offHeld := s.offHeld, jobsGated := s.jobsGated, powerSamples := s.powerSamples
        energyPj := s.energyPj, idleSamples := s.idleSamples, transition := s.transition })
      (kept.mono (supplyOnly_footprint hc))
  · exact congrArg (fun k : Module => { k.core with
        nonce := s.nonce, backoff := s.backoff, backoffEnd := s.backoffEnd, flash := s.flash, otp := s.otp
        tap := s.tap }) (kept.mono (securityOnly_footprint hc))

end Sys2Proof
end

section
set_option Elab.async false
namespace Sys2Proof.Machine
open Sys2Proof

/-! ### One-time-programmable memory (section 16) -/

/-- What boots, wakes and resets may do to OTP: take the life-cycle state it names and blow rollback fuses. -/
structure Burnt (a b : Otp) : Prop where
  deviceId : b.deviceId = a.deviceId
  vendorHash : b.vendorHash = a.vendorHash
  ownerHash : b.ownerHash = a.ownerHash
  ownerWritten : b.ownerWritten = a.ownerWritten
  floor : b.floor = a.floor
  identity : b.identity = a.identity
  passwords : b.passwords = a.passwords
  macA : b.macA = a.macA
  macB : b.macB = a.macB
  lcNext : b.lcNext = a.lcNext
  fuses : a.fuses ≤ b.fuses

theorem Burnt.refl (a : Otp) : Burnt a a := ⟨rfl, rfl, rfl, rfl, rfl, rfl, rfl, rfl, rfl, rfl, Nat.le_refl _⟩

theorem Burnt.of_eq {a b : Otp} (h : b = a) : Burnt a b := h ▸ .refl a

theorem Burnt.trans {a b c : Otp} (h : Burnt a b) (k : Burnt b c) : Burnt a c :=
  ⟨k.deviceId.trans h.deviceId, k.vendorHash.trans h.vendorHash, k.ownerHash.trans h.ownerHash,
    k.ownerWritten.trans h.ownerWritten, k.floor.trans h.floor, k.identity.trans h.identity, k.passwords.trans h.passwords,
    k.macA.trans h.macA, k.macB.trans h.macB, k.lcNext.trans h.lcNext, Nat.le_trans h.fuses k.fuses⟩

theorem Burnt.ite {c : Prop} [Decidable c] {a : Otp} {k l : Module} (hk : c → Burnt a k.otp) (hl : ¬ c → Burnt a l.otp) :
    Burnt a (if c then k else l).otp := by
  split
  · exact hk ‹_›
  · exact hl ‹_›

theorem Keeps.otp {m k : Module} (h : Keeps Fld.notOtp m k) : k.otp = m.otp := congrArg (·.otp) h

theorem Keeps.burnt {m k : Module} (h : Keeps Fld.notOtp m k) : Burnt m.otp k.otp := .of_eq h.otp

theorem Module.readOtp_burnt (m : Module) : Burnt m.otp m.readOtp.otp := by
  have h : Keeps Fld.notOtp { m with otp := { m.otp with lc := m.otp.lcNext } } m.readOtp := by
    unfold Module.readOtp
    dsimp only
    refine .after (Module.wr_keeps ..) rfl <| .after (Module.wr_keeps ..) rfl <| .after (Module.wr_keeps ..) rfl <|
      .after (Module.wr_keeps ..) rfl <| .after (Module.holdBackoff_keeps ..) rfl <| .after (Module.setFld_keeps ..) rfl <|
      .after (Module.setFld_keeps ..) rfl <| .after (Module.pick_keeps ..) rfl <| .after (Module.setFld_keeps ..) rfl <|
      .after (Module.setFld_keeps ..) rfl <| .after (Module.setFld_keeps ..) rfl <| .after (Module.setFld_keeps ..) rfl <|
      .after (Module.setFld_keeps ..) rfl ?_
    refine .foldl (fun _ _ => .after (Module.wr_keeps ..) rfl .refl) _ ?_
    exact .after (Module.setFld_keeps ..) rfl <| .after (Module.setFld_keeps ..) rfl <|
      .after (Module.setFld_keeps ..) rfl <| .after (Module.reportKeys_keeps ..) rfl .refl
  rw [h.otp]
  exact ⟨rfl, rfl, rfl, rfl, rfl, rfl, rfl, rfl, rfl, rfl, Nat.le_refl _⟩

theorem Module.goOff_otp (m : Module) (cause : Nat) (held : Bool) : (m.goOff cause held).otp = m.otp := by
  have h : Keeps Fld.notOtp m (m.tornStores.pick (m.tornStores.flogPending.length + 1)).2 :=
    .after (Module.pick_keeps ..) rfl <| .after (Module.tornStores_keeps ..) rfl .refl
  exact h.otp

theorem Module.restart_burnt (m : Module) (cause : Nat) (byDebug : Bool) : Burnt m.otp (m.restart cause byDebug).otp := by
  have h : Keeps Fld.notOtp m (m.tornStores.pick (m.tornStores.flogPending.length + 1)).2 :=
    .after (Module.pick_keeps ..) rfl <| .after (Module.tornStores_keeps ..) rfl .refl
  unfold Module.restart
  dsimp only
  refine .trans (.of_eq ?_) (Module.readOtp_burnt _)
  split <;> exact h.otp

theorem startCondition_burnt (mv : Nat) (m : Module) : Burnt m.otp (startCondition mv m).otp := by
  unfold startCondition
  split
  · exact .refl _
  · refine .trans ?_ (Module.readOtp_burnt _)
    exact .of_eq rfl

theorem brownOut_burnt (m : Module) : Burnt m.otp (brownOut m).otp :=
  .of_eq ((Module.goOff_otp ..).trans (Keeps.otp (.after (Module.silentFault_keeps ..) rfl .refl)))

theorem hardThermalTrip_burnt (m : Module) : Burnt m.otp (hardThermalTrip m).otp :=
  .of_eq ((Module.goOff_otp ..).trans (Keeps.otp (.after (Module.silentFault_keeps ..) rfl .refl)))

theorem Module.closeLinks_restart_burnt (m : Module) (cause : Nat) (byDebug : Bool) :
    Burnt m.otp (m.closeLinks.restart cause byDebug).otp :=
  (Keeps.burnt (.after (Module.closeLinks_keeps ..) rfl .refl)).trans (Module.restart_burnt ..)

theorem powerTransitionDone_burnt (m : Module) : Burnt m.otp (powerTransitionDone m).otp := by
  have announced : Burnt m.otp m.announce.otp := Keeps.burnt (.after (Module.announce_keeps ..) rfl .refl)
  have closed_goOff (cause : Nat) (held : Bool) : Burnt m.otp (m.announce.closeLinks.goOff cause held).otp :=
    .of_eq ((Module.goOff_otp ..).trans
      (Keeps.otp (.after (Module.closeLinks_keeps ..) rfl <| .after (Module.announce_keeps ..) rfl .refl)))
  unfold powerTransitionDone
  split
  · exact .refl _
  · split
    · split
      · exact .refl _
      · exact Keeps.burnt (.after (Module.arrive_keeps ..) rfl .refl)
    · split
      · exact .refl _
      · split
        · exact .refl _
        · split
          · exact Keeps.burnt (.after (Module.enterStandby_keeps ..) rfl <| .after (Module.announce_keeps ..) rfl .refl)
          · split
            · exact announced.trans (Module.closeLinks_restart_burnt ..)
            · exact closed_goOff ..
            · exact closed_goOff ..

theorem Module.blowFuses_burnt (m : Module) : Burnt m.otp m.blowFuses.otp :=
  ⟨rfl, rfl, rfl, rfl, rfl, rfl, rfl, rfl, rfl, rfl, Nat.le_max_left ..⟩

theorem wakeReady_burnt (m : Module) : Burnt m.otp (wakeReady m).otp := by
  unfold wakeReady
  split
  · exact .refl _
  · have h : Keeps Fld.notOtp m ((m.draw.2.switchTo 2).setFld PWR_STATE PWR_STATE_state 2) :=
      .after (Module.setFld_keeps ..) rfl <| .after (Module.switchTo_keeps ..) rfl <| .after (Module.draw_keeps ..) rfl .refl
    exact h.burnt.trans (Module.blowFuses_burnt _)

theorem bootReady_burnt (m : Module) : Burnt m.otp (bootReady m).otp := by
  unfold bootReady
  dsimp only
  split
  · exact .refl _
  · split <;> exact Module.blowFuses_burnt _

theorem Module.controlFault_burnt (m : Module) (pair : Fin 2) (cls : Nat) : Burnt m.otp (m.controlFault pair cls).otp := by
  unfold Module.controlFault
  refine .ite (fun _ => .refl _) fun _ => ?_
  have counted : Keeps Fld.notOtp m (m.satAdd SYS_CP_STAT SYS_CP_STAT_faults 1) := .after (Module.satAdd_keeps ..) rfl .refl
  revert counted
  generalize m.satAdd SYS_CP_STAT SYS_CP_STAT_faults 1 = k
  intro counted
  refine .ite (fun _ => ?_) fun _ => ?_
  · refine .trans ?_ (Module.restart_burnt ..)
    exact counted.burnt
  · refine .trans ?_ (Keeps.burnt (.after (Module.fault_keeps ..) rfl <| .after (Module.setCpState_keeps ..) rfl .refl))
    exact counted.burnt

theorem Module.settleMove_burnt (m : Module) (before : Option Transition) : Burnt m.otp (m.settleMove before).otp := by
  have announced : Burnt m.otp m.announce.otp := Keeps.burnt (.after (Module.announce_keeps ..) rfl .refl)
  unfold Module.settleMove
  split
  · exact .refl _
  · split
    · exact .refl _
    · split
      · split
        · exact Module.closeLinks_restart_burnt ..
        · exact announced
      · exact announced

theorem Module.accessWrite_burnt (m : Module) (src : BusSource) (off size : Nat) (v : Word) :
    Burnt m.otp (m.accessWrite src off size v).otp := by
  unfold Module.accessWrite
  split
  · exact .refl _
  · exact Keeps.burnt (.after (Module.busAnswer_keeps ..) rfl .refl)
  · exact (Keeps.burnt (.after (Module.busWrite_keeps ..) rfl .refl)).trans (Module.settleMove_burnt ..)

theorem Module.accessWrite_or_burnt (m : Module) (src : BusSource) (off size : Nat) (v : Word) {p : Prop} [Decidable p] :
    Burnt m.otp (if p then m.accessWrite src off size v else m).otp :=
  .ite (fun _ => Module.accessWrite_burnt ..) fun _ => .refl _

section
variable {m : Module} {a : Otp}

theorem Module.debugOp_burnt {d : DbgHdr} {op need : Nat} {standby failure : Bool} {k : Module → Module}
    (hm : Burnt a m.otp) (hk : Burnt a (k m).otp) : Burnt a (m.debugOp d op need standby failure k).otp := by
  have answered (st retry : Nat) (l : List Byte) : Burnt a (m.debugAnswer d op st retry l).otp :=
    hm.trans (Keeps.burnt (.after (Module.debugAnswer_keeps ..) rfl .refl))
  unfold Module.debugOp
  exact .ite (fun _ => hm) fun _ =>
    .ite (fun _ => hm.trans (Keeps.burnt (.after (Module.debugNotReady_keeps ..) rfl .refl))) fun _ =>
    .ite (fun _ => answered ..) fun _ => .ite (fun _ => answered ..) fun _ => .ite (fun _ => answered ..) fun _ => hk

theorem Module.authBusy_burnt {d : DbgHdr} {op : Nat} {k : Module → Module}
    (hm : Burnt a m.otp) (hk : Burnt a (k m).otp) : Burnt a (m.authBusy d op k).otp := by
  unfold Module.authBusy
  exact .ite (fun _ => hm.trans (Keeps.burnt (.after (Module.debugAnswer_keeps ..) rfl .refl))) fun _ =>
    .ite (fun _ => hm.trans (Keeps.burnt (.after (Module.debugAnswer_keeps ..) rfl <| .after (Module.tick_keeps ..) rfl .refl)))
      fun _ => hk

theorem Module.gateSession_burnt {h : Hdr} {type : Nat} {lenOk : Bool} {k : Nat → Session → Module → Module}
    (hm : Burnt a m.otp) (hk : ∀ n s x, Burnt a x.otp → Burnt a (k n s x).otp) :
    Burnt a (m.gateSession h type lenOk k).otp := by
  have popped : Burnt a (m.popRx h.port).otp := hm.trans (Keeps.burnt (.after (Module.popRx_keeps ..) rfl .refl))
  have answered (st : Nat) : Burnt a ((m.popRx h.port).answer h type st 0 []).otp :=
    popped.trans (Keeps.burnt (.after (Module.answer_keeps ..) rfl .refl))
  have noSession : Burnt a ((m.popRx h.port).answerNoSession h type).otp :=
    popped.trans (Keeps.burnt (.after (Module.answerNoSession_keeps ..) rfl .refl))
  unfold Module.gateSession
  refine .ite (fun _ => popped) fun _ =>
    .ite (fun _ => popped.trans (Keeps.burnt (.after (Module.notReadyAnswer_keeps ..) rfl .refl))) fun _ => ?_
  split
  · exact noSession
  · exact .ite (fun _ => noSession) fun _ => .ite (fun _ => answered ..) fun _ =>
      .ite (fun _ => answered ..) fun _ => hk _ _ _ popped
end

theorem regAccess_burnt (h : Hdr) (b : List Byte) (m : Module) : Burnt m.otp (regAccess h b m).otp := by
  unfold regAccess
  refine Module.gateSession_burnt (.refl _) fun n s x hx => ?_
  have kept (k : Module) (st : Nat) (r : List Byte) (hk : Burnt m.otp k.otp) :
      Burnt m.otp ({ k with sessions := k.sessions.adjust n fun s => { s with lastReg := some (h.seq, st, r) } }.answer
        h 0x04 st 0 r).otp :=
    hk.trans (Keeps.burnt (.after (Module.answer_keeps ..) rfl (.upd .refl)))
  dsimp only
  split
  · exact hx.trans (Keeps.burnt (.after (Module.answer_keeps ..) rfl .refl))
  · refine .ite (fun _ => kept _ _ _ hx) fun _ => .ite (fun _ => kept _ _ _ hx) fun _ => ?_
    refine .trans (kept _ _ _ ?_) (Module.settleMove_burnt ..)
    exact hx.trans (Keeps.burnt (.after (Module.regOps_keeps ..) rfl .refl))

theorem Module.debugRegs_burnt (m : Module) (d : DbgHdr) (op : Nat) (b : List Byte) :
    Burnt m.otp (m.debugRegs d op b).otp := by
  unfold Module.debugRegs
  refine Module.debugOp_burnt (.refl _) ?_
  refine .ite (fun _ => Keeps.burnt (.after (Module.debugAnswer_keeps ..) rfl .refl)) fun _ => ?_
  refine .trans ?_ (Module.settleMove_burnt ..)
  exact Keeps.burnt (.after (Module.debugAnswer_keeps ..) rfl <| .after (Module.regOps_keeps ..) rfl .refl)

theorem response_burnt (d : DbgHdr) (level : Byte) (key signature : List Byte) (m : Module) :
    Burnt m.otp (response d level key signature m).otp := by
  have dropped : Keeps Fld.notOtp m m.dropNonce := .after (Module.dropNonce_keeps ..) rfl .refl
  have passed : Keeps Fld.notOtp m m.dropNonce.authPass := .after (Module.authPass_keeps ..) rfl dropped
  unfold response
  refine Module.debugOp_burnt (.refl _) (.ite (fun _ => Keeps.burnt (.after (Module.debugAnswer_keeps ..) rfl .refl))
    fun _ => Module.authBusy_burnt (.refl _) ?_)
  refine .ite (fun _ => Keeps.burnt (.after (Module.debugAnswer_keeps ..) rfl dropped)) fun _ =>
    .ite (fun _ => Keeps.burnt (.after (Module.authFail_keeps ..) rfl dropped)) fun _ =>
    .ite (fun _ => ?_) fun _ => .ite (fun _ => .ite (fun _ => ?_) fun _ => ?_) fun _ => ?_
  · exact .trans (Keeps.burnt (.after (Module.debugAnswer_keeps ..) rfl passed)) (Module.closeLinks_restart_burnt ..)
  · exact Keeps.burnt (.after (Module.debugAnswer_keeps ..) rfl passed)
  · exact Keeps.burnt (.after (Module.startFill_keeps ..) rfl passed)
  · exact Keeps.burnt (.after (Module.openLevel_keeps ..) rfl passed)

/-- The commands that burn something beside the rollback fuses. -/
def burns : Instr → Bool
  | .provision .. | .lifecycle .. | .setPassword .. => true
  | _ => false

theorem effect_burnt (c : Instr) (m : Module) (hc : burns c = false) : Burnt m.otp (effect c m).otp := by
  cases c
  case provision | lifecycle | setPassword => cases hc
  case registerWrite | trainStart | trainAbort | trigModeWrite | sqPush | capCntClr | feCommit | histResetWrite |
      outputResume | calAbort | calStore | calCntClr | engXCntClr | spmStCntClr | synCntClr | dmaRetry | dmaSkip | dmaAbort |
      modeChangeRequest | sysAdmCntClr | talkerConfigWrite | netCntClr | ywpCntClr | requestRun | requestIdle |
      requestStandby | requestOff | pwrCntClr | dbgCntClr | sysReset | flogClear | sysFltCntClr =>
    exact Module.accessWrite_burnt ..
  case portEnable | portDisable | calStart | windowOpen | windowClose | flogIndexSelect =>
    exact Module.accessWrite_or_burnt ..
  case feTblDataAccess src c write | nisTblDataAccess src c write =>
    cases write with
    | none => exact Keeps.burnt (.after (Module.accessRead_keeps ..) rfl .refl)
    | some v => exact Module.accessWrite_burnt ..
  case regAccess => exact regAccess_burnt ..
  case regRead | regWrite => exact Module.debugRegs_burnt ..
  case response => exact response_burnt ..
  case startCondition => exact startCondition_burnt ..
  case brownOut => exact brownOut_burnt _
  case hardThermalTrip => exact hardThermalTrip_burnt _
  case powerTransitionDone => exact powerTransitionDone_burnt _
  case wakeReady => exact wakeReady_burnt _
  case bootReady => exact bootReady_burnt _
  case controlMismatch | controlWatchdog => exact Module.controlFault_burnt ..
  all_goals exact Keeps.burnt ((effect_keeps _ m).mono (by dsimp only [footprint]; decide))

/-- A debug operation answers without effect, or is carried out. -/
theorem Module.debugOp_runs (m : Module) (d : DbgHdr) (op need : Nat) (standby failure : Bool) (k : Module → Module) :
    (m.debugOp d op need standby failure k).otp = m.otp ∨ m.debugOp d op need standby failure k = k m := by
  have answered (st retry : Nat) (l : List Byte) : (m.debugAnswer d op st retry l).otp = m.otp :=
    Keeps.otp (.after (Module.debugAnswer_keeps ..) rfl .refl)
  unfold Module.debugOp
  split
  · exact .inl rfl
  · split
    · exact .inl (Keeps.otp (.after (Module.debugNotReady_keeps ..) rfl .refl))
    · split
      · exact .inl (answered ..)
      · split
        · exact .inl (answered ..)
        · split
          · exact .inl (answered ..)
          · exact .inr rfl

/-- PROVISION burns nothing, or everything that it names, and OPEN as the next state of a unit that named BLANK. -/
theorem provision_otp (d : DbgHdr) (ownerHash salt pwHash : List Byte) (floor : Byte) (m : Module) :
    (provision d ownerHash salt pwHash floor m).otp = m.otp ∨
      m.otp.lcNext = 0 ∧ (provision d ownerHash salt pwHash floor m).otp = { m.otp with
        ownerHash := ownerHash, ownerWritten := true, passwords := (m.otp.passwords ++ [(salt, pwHash)]).take 4
        floor := floor.toNat, identity := some (fit 96 (Config.identityKey m.draws)), lcNext := 1 } := by
  unfold provision
  rcases Module.debugOp_runs m d 16 0 false false _ with h | h
  · exact .inl h
  · rw [h]
    split
    · exact .inl (Keeps.otp (.after (Module.debugAnswer_keeps ..) rfl .refl))
    · next hc =>
      refine .inr ⟨by simp_all, ?_⟩
      exact Keeps.otp (m := { m.draw.2 with otp := _ }) (.after (Module.debugAnswer_keeps ..) rfl <|
        .after (Module.setFld_keeps ..) rfl <| .after (Module.reportKeys_keeps ..) rfl .refl)

/-- LIFECYCLE burns nothing, or a later state than the one named. -/
theorem lifecycle_otp (d : DbgHdr) (target : Byte) (m : Module) :
    (lifecycle d target m).otp = m.otp ∨
      m.otp.lcNext ≤ target.toNat ∧ (lifecycle d target m).otp = { m.otp with lcNext := target.toNat } := by
  unfold lifecycle
  rcases Module.debugOp_runs m d 17 2 false false _ with h | h
  · exact .inl h
  · rw [h]
    dsimp only
    split
    · exact .inl (Keeps.otp (.after (Module.debugAnswer_keeps ..) rfl .refl))
    · next hc =>
      have later : ¬ target.toNat ≤ m.otp.lcNext := by
        intro hle
        simp [hle] at hc
      refine .inr ⟨by omega, ?_⟩
      exact Keeps.otp (m := { m with otp := { m.otp with lcNext := target.toNat } })
        (.after (Module.debugAnswer_keeps ..) rfl <| .after (Module.journalEntry_keeps ..) rfl <|
          .after (Module.setFld_keeps ..) rfl .refl)

/-- SET_PASSWORD burns nothing, or the next password slot. -/
theorem setPassword_otp (d : DbgHdr) (salt hash : List Byte) (m : Module) :
    ∃ l, (setPassword d salt hash m).otp = { m.otp with passwords := l } := by
  unfold setPassword
  rcases Module.debugOp_runs m d 18 2 true false _ with h | h
  · exact ⟨_, h⟩
  · rw [h]
    dsimp only
    split
    · exact ⟨_, Keeps.otp (.after (Module.debugAnswer_keeps ..) rfl .refl)⟩
    · exact ⟨_, Keeps.otp (m := { m with otp := { m.otp with passwords := m.otp.passwords ++ [(salt, hash)] } })
        (.after (Module.debugAnswer_keeps ..) rfl <| .after (Module.journalEntry_keeps ..) rfl <|
          .after (Module.reportKeys_keeps ..) rfl .refl)⟩

end Sys2Proof.Machine
namespace Sys2Proof
open Machine

/-- Settles O6: only PROVISION, LIFECYCLE and SET_PASSWORD write OTP beside the fuses that a boot or wake blows and the
state that a restart takes; each of the three adds to what has been burnt. -/
theorem otpOnlyBurnsForward : Obligations.OtpOnlyBurnsForward := by
  unfold Obligations.OtpOnlyBurnsForward
  intro c s t h
  rcases exec_next h with rfl | rfl
  · simp
  · cases hc : burns c
    case false =>
      have burnt := effect_burnt c s.toModule hc
      refine ⟨⟨burnt.deviceId, burnt.vendorHash, burnt.macA, burnt.macB, burnt.lcNext.ge, burnt.fuses⟩, fun _ => ?_⟩
      exact ⟨burnt.ownerHash, burnt.ownerWritten, burnt.floor, burnt.identity, fun _ => burnt.lcNext, fun _ => burnt.passwords⟩
    case true =>
      cases c
      case provision d ownerHash salt pwHash floor =>
        refine ⟨?_, fun hp => (hp _ _ _ _ _ rfl).elim⟩
        rcases provision_otp d ownerHash salt pwHash floor s.toModule with h' | ⟨blank, h'⟩
        · simp [effect, h']
        · simp [effect, h', blank]
      case lifecycle d target =>
        rcases lifecycle_otp d target s.toModule with h' | ⟨later, h'⟩
        · simp [effect, h']
        · simp [effect, h', later]
      case setPassword d salt hash =>
        obtain ⟨l, h'⟩ := setPassword_otp d salt hash s.toModule
        simp [effect, h']
      all_goals cases hc

end Sys2Proof
end

section
set_option Elab.async false
namespace Sys2Proof.Machine
open Sys2Proof

/-! ### Views of the state

`Agree π m k`: the view π shows the same of m and of k. The views below leave out one position, one port or some registers,
where `Keeps` speaks of whole fields. -/

def Agree {α : Type} (π : Module → α) (m k : Module) : Prop := π k = π m

section
variable {α : Type} {π : Module → α} {b k l m : Module}

theorem Agree.refl : Agree π m m := rfl

theorem Agree.trans (h : Agree π b k) (h' : Agree π k l) : Agree π b l := Eq.trans h' h

theorem Agree.after (hg : Agree π k l) (h : Agree π b k) : Agree π b l := h.trans hg

theorem Keeps.view {G : Nat} (hg : Keeps G k l) (π : Module → α) (hG : ∀ x, π (x.erase G) = π x) : π l = π k :=
  (hG l).symm.trans ((congrArg π hg).trans (hG k))

theorem Agree.kept {G : Nat} (hg : Keeps G k l) (hG : ∀ x, π (x.erase G) = π x) (h : Agree π b k) : Agree π b l :=
  h.trans (hg.view π hG)

theorem Agree.upd (h : Agree π b k)
    (he : l.doubleRecord = k.doubleRecord ∧ π l = π k := by constructor; dsimp only; rfl) : Agree π b l :=
  Eq.trans he.2 h

theorem Agree.ite {c : Prop} [Decidable c] (hk : c → Agree π b k) (hl : ¬ c → Agree π b l) :
    Agree π b (if c then k else l) := by
  split
  · exact hk ‹_›
  · exact hl ‹_›

theorem Agree.snd {β : Type} {p : β × Module} {x : β} (hp : p = (x, m)) (h : Agree π b p.2) : Agree π b m := by
  subst hp
  exact h

theorem Agree.foldl {β : Type} {f : Module → β → Module} (hf : ∀ m x, Agree π m (f m x)) (l : List β) (h : Agree π b m) :
    Agree π b (l.foldl f m) :=
  foldl_keeps l f h fun m x hm => hm.trans (hf m x)

theorem Module.orWait_agree {m' : Module} {e : EngPos} (h' : Agree π b m') (h : Agree π b m) :
    Agree π b (m'.orWait m e) := by
  unfold Module.orWait
  split
  · exact h
  · exact h'
end

/-- The positions other than e. -/
def Module.engBut (e : EngPos) (m : Module) (f : EngPos) : Eng := if f = e then Eng.rest else m.eng f

/-- The ports other than p. -/
def Module.portBut (p : Nat) (m : Module) (q : Nat) : Port := if q = p then Port.rest else m.port q

/-- The registers other than those at offs. -/
def Module.regsBut (offs : List Nat) (m : Module) (off : Nat) : Word := if off ∈ offs then 0 else m.rd off

theorem Agree.eng {e f : EngPos} {m k : Module} (h : Agree (Module.engBut e) m k) (hf : f ≠ e) : k.eng f = m.eng f := by
  have := congrFun h f
  simpa [Module.engBut, hf] using this

theorem Agree.port {p q : Nat} {m k : Module} (h : Agree (Module.portBut p) m k) (hq : q ≠ p) : k.port q = m.port q := by
  have := congrFun h q
  simpa [Module.portBut, hq] using this

theorem Agree.rd {offs : List Nat} {off : Nat} {m k : Module} (h : Agree (Module.regsBut offs) m k) (hoff : off ∉ offs) :
    k.rd off = m.rd off := by
  have := congrFun h off
  simpa [Module.regsBut, hoff] using this

theorem Module.wr_regsBut {offs : List Nat} (m : Module) {off : Nat} (v : Word) (h : off ∈ offs) :
    Agree (Module.regsBut offs) m (m.wr off v) := by
  funext o
  unfold Module.regsBut
  split
  · rfl
  · exact rd_wr_ne _ _ fun ho => ‹o ∉ offs› (ho ▸ h)

theorem Module.setFld_regsBut {offs : List Nat} (m : Module) {off : Nat} (b : Bits) (v : Nat) (h : off ∈ offs) :
    Agree (Module.regsBut offs) m (m.setFld off b v) := m.wr_regsBut _ h

theorem Module.count_regsBut {offs : List Nat} (m : Module) {off : Nat} (n : Nat) (h : off ∈ offs) :
    Agree (Module.regsBut offs) m (m.count off n) := m.wr_regsBut _ h

theorem posKey_inj {e f : EngPos} (h : posKey e = posKey f) : e = f := by
  obtain ⟨cl, x⟩ := e
  obtain ⟨cl', x'⟩ := f
  simp only [posKey] at h
  have hcl : cl = cl' := Fin.ext (by omega)
  have hx : x = x' := Fin.ext (by omega)
  rw [hcl, hx]

@[simp] theorem Module.eng_setEng_same (m : Module) (e : EngPos) (x : Eng) : (m.setEng e x).eng e = x := by
  simp [Module.eng, Module.setEng]

theorem Module.eng_setEng_ne (m : Module) {e f : EngPos} (x : Eng) (h : f ≠ e) : (m.setEng e x).eng f = m.eng f := by
  simp [Module.eng, Module.setEng, SMap.get_set_ne _ _ _ _ fun hk => h (posKey_inj hk)]

@[simp] theorem Module.port_setPort_same (m : Module) (p : Nat) (x : Port) : (m.setPort p x).port p = x := by
  simp [Module.port, Module.setPort]

theorem Module.port_setPort_ne (m : Module) {p q : Nat} (x : Port) (h : q ≠ p) : (m.setPort p x).port q = m.port q := by
  simp [Module.port, Module.setPort, SMap.get_set_ne _ _ _ _ h]

theorem Module.setEng_engBut (m : Module) (e : EngPos) (x : Eng) : Agree (Module.engBut e) m (m.setEng e x) := by
  funext f
  unfold Module.engBut
  split
  · rfl
  · exact Module.eng_setEng_ne _ _ ‹_›

theorem Module.setPort_portBut (m : Module) (p : Nat) (x : Port) : Agree (Module.portBut p) m (m.setPort p x) := by
  funext q
  unfold Module.portBut
  split
  · rfl
  · exact Module.port_setPort_ne _ _ ‹_›

theorem Module.instr_engBut {b : Module} (m : Module) (e : EngPos) (w : Walker) (op : Nat) (f : Module → EngTask → WalkerSt
      → Nat → Module)
    (hb : Agree (Module.engBut e) b m) (hf : ∀ x t s n, Agree (Module.engBut e) b x → Agree (Module.engBut e) b (f x t s n)) :
    Agree (Module.engBut e) b (Module.instr m e w op f) := by
  unfold Module.instr
  dsimp only
  split
  · exact hb
  · exact .ite (fun _ => hb) fun _ => hf _ _ _ _ hb

theorem Module.putTask_engBut (m : Module) (e : EngPos) (t : EngTask) :
    Agree (Module.engBut e) m (Module.putTask m e t) := by
  unfold Module.putTask
  exact .after (Module.setEng_engBut ..) .refl

theorem Module.abortTask_engBut (m : Module) (e : EngPos) (a : Abort) :
    Agree (Module.engBut e) m (Module.abortTask m e a) := by
  unfold Module.abortTask
  dsimp only
  split
  · exact .refl
  · refine .ite (fun _ => .refl) fun _ => ?_
    refine .ite (fun _ => .after (Module.setEng_engBut ..) .refl) fun _ => ?_
    refine .kept (Module.count_keeps ..) (fun _ => rfl) ?_
    exact .kept (Module.setFld_keeps ..) (fun _ => rfl) <| .after (Module.setEng_engBut ..) .refl

theorem Module.pass_engBut (m : Module) (e : EngPos) (w : Walker) (t : EngTask) (s : WalkerSt) :
    Agree (Module.engBut e) m (Module.pass m e w t s) := by
  unfold Module.pass
  exact .after (Module.putTask_engBut ..) .refl

theorem Module.execOnly_engBut {b : Module} (m : Module) (e : EngPos) (w : Walker) (op : Nat) (f : Module → EngTask →
      WalkerSt → Nat → Module)
    (hb : Agree (Module.engBut e) b m) (hf : ∀ x t s n, Agree (Module.engBut e) b x → Agree (Module.engBut e) b (f x t s n)) :
    Agree (Module.engBut e) b (Module.execOnly m e w op f) := by
  unfold Module.execOnly
  refine Module.instr_engBut (hb := hb) (hf := fun _ _ _ _ _ => ?_) ..
  split
  · exact .after (Module.pass_engBut ..) (by assumption)
  · exact hf _ _ _ _ (by assumption)

theorem Module.barrier_engBut {b : Module} (m : Module) (e : EngPos) (w : Walker) (op : Nat) (f : Module → EngTask →
      WalkerSt → Nat → Module)
    (hb : Agree (Module.engBut e) b m) (hf : ∀ x t s n, Agree (Module.engBut e) b x → Agree (Module.engBut e) b (f x t s n)) :
    Agree (Module.engBut e) b (Module.barrier m e w op f) := by
  unfold Module.barrier
  refine Module.instr_engBut (hb := hb) (hf := fun _ _ _ _ _ => ?_) ..
  split
  · exact .ite (fun _ => .after (Module.pass_engBut ..) (by assumption)) fun _ => by assumption
  · exact hf _ _ _ _ (by assumption)

theorem engineNop_engBut (e : EngPos) (w : Walker) (m : Module) : Agree (Module.engBut e) m (engineNop e w m) := by
  unfold engineNop
  refine Module.instr_engBut (hb := .refl) (hf := fun _ _ _ _ _ => ?_) ..
  exact .after (Module.pass_engBut ..) (by assumption)

theorem endOp_engBut (e : EngPos) (w : Walker) (m : Module) : Agree (Module.engBut e) m (endOp e w m) := by
  unfold endOp
  refine Module.instr_engBut (hb := .refl) (hf := fun _ _ _ _ _ => ?_) ..
  dsimp only
  split
  · exact .after (Module.putTask_engBut ..) (by assumption)
  · exact .after (Module.putTask_engBut ..) (by assumption)

theorem loop_engBut (e : EngPos) (w : Walker) (m : Module) : Agree (Module.engBut e) m (loop e w m) := by
  unfold loop
  refine Module.instr_engBut (hb := .refl) (hf := fun _ _ _ _ _ => ?_) ..
  exact .after (Module.putTask_engBut ..) (by assumption)

theorem setp_engBut (e : EngPos) (w : Walker) (m : Module) : Agree (Module.engBut e) m (setp e w m) := by
  unfold setp
  refine Module.instr_engBut (hb := .refl) (hf := fun _ _ _ _ _ => ?_) ..
  exact .after (Module.pass_engBut ..) (by assumption)

theorem alu_engBut (e : EngPos) (w : Walker) (m : Module) : Agree (Module.engBut e) m (alu e w m) := by
  unfold alu
  refine Module.instr_engBut (hb := .refl) (hf := fun _ _ _ _ _ => ?_) ..
  exact .after (Module.pass_engBut ..) (by assumption)

theorem ldp_engBut (e : EngPos) (w : Walker) (m : Module) : Agree (Module.engBut e) m (ldp e w m) := by
  unfold ldp
  refine Module.instr_engBut (hb := .refl) (hf := fun _ _ _ _ _ => ?_) ..
  refine .ite (fun _ => (by assumption)) fun _ => ?_
  dsimp only
  refine .ite (fun _ => ?_) fun _ => ?_
  · exact .after (Module.abortTask_engBut ..) <| .kept (Module.engRead_keeps ..) (fun _ => rfl) (by assumption)
  · exact .after (Module.pass_engBut ..) <| .kept (Module.engRead_keeps ..) (fun _ => rfl) (by assumption)

theorem slotOp_engBut (e : EngPos) (w : Walker) (m : Module) : Agree (Module.engBut e) m (slotOp e w m) := by
  unfold slotOp
  refine Module.instr_engBut (hb := .refl) (hf := fun _ _ _ _ _ => ?_) ..
  exact .after (Module.pass_engBut ..) (by assumption)

theorem Module.pumpReads_engBut (m : Module) (fuel : Nat) (e : EngPos) :
    Agree (Module.engBut e) m (Module.pumpReads m fuel e) := by
  induction fuel generalizing m with
  | zero => exact .refl
  | succ fuel ih =>
    unfold Module.pumpReads
    generalize (m.eng e).task = task
    cases task with
    | none => exact .refl
    | some t =>
      dsimp only
      split
      · exact .refl
      · split
        · exact .refl
        · refine .ite (fun _ => .refl) fun _ => ?_
          split
          · refine .after (Module.abortTask_engBut ..) ?_
            exact .snd ‹_› <| .kept (Module.issueRead_keeps ..) (fun _ => rfl) .refl
          · refine .trans (.after (Module.putTask_engBut ..) ?_) (ih ..)
            exact .snd ‹_› <| .kept (Module.issueRead_keeps ..) (fun _ => rfl) .refl

theorem fetchWith_engBut (gate : EngPos → EngTask → Module → Option GateBuf) (e : EngPos) (w : Walker) (errs : List MemErr) (m : Module) :
    Agree (Module.engBut e) m (fetchWith gate e w errs m) := by
  unfold fetchWith
  refine Module.instr_engBut (hb := .refl) (hf := fun _ _ _ _ _ => ?_) ..
  dsimp only
  split
  · exact .after (Module.pass_engBut ..) (by assumption)
  · split
    · exact .after (Module.pass_engBut ..) (by assumption)
    · refine .ite (fun _ => (by assumption)) fun _ => ?_
      refine .ite (fun _ => ?_) fun _ => ?_
      · exact .after (Module.abortTask_engBut ..) <| .kept (Module.engReads_keeps ..) (fun _ => rfl) (by assumption)
      · refine .after (Module.pumpReads_engBut ..) <| .after (Module.pass_engBut ..) ?_
        refine .kept (Module.upset_keeps ..) (fun _ => rfl) ?_
        refine .ite (fun _ => ?_) fun _ => ?_
        · split
          · exact .kept (Module.gateCopy_keeps ..) (fun _ => rfl) <|
              .kept (Module.engReads_keeps ..) (fun _ => rfl) (by assumption)
          · exact .kept (Module.engReads_keeps ..) (fun _ => rfl) (by assumption)
        · exact .kept (Module.engReads_keeps ..) (fun _ => rfl) (by assumption)

theorem tileArrived_engBut (e : EngPos) (queue : Fin 4) (m : Module) :
    Agree (Module.engBut e) m (tileArrived e queue m) := by
  unfold tileArrived
  dsimp only
  split
  · exact .refl
  · exact .after (Module.pumpReads_engBut ..) <| .after (Module.putTask_engBut ..) .refl

theorem Module.pump_engBut (m : Module) (fuel : Nat) (e : EngPos) : Agree (Module.engBut e) m (Module.pump m fuel e) := by
  induction fuel generalizing m with
  | zero => exact .refl
  | succ fuel ih =>
    unfold Module.pump
    dsimp only
    split
    · exact .refl
    · split
      · exact .refl
      · refine .ite (fun _ => .refl) fun _ => .ite (fun _ => .after (Module.abortTask_engBut ..) .refl) fun _ =>
          .ite (fun _ => ?_) fun _ => ?_
        · split
          · exact .ite (fun _ => .refl) fun _ => .ite (fun _ => .after (Module.abortTask_engBut ..) .refl) fun _ =>
              .after (Module.putTask_engBut ..) <| .kept (Module.engAsk_keeps ..) (fun _ => rfl) .refl
          · exact .after (Module.abortTask_engBut ..) .refl
        · split
          · refine .after (Module.abortTask_engBut ..) <| .after (Module.putTask_engBut ..) ?_
            exact .snd ‹_› <| .kept (Module.issueWrite_keeps ..) (fun _ => rfl) <| .after (Module.putTask_engBut ..) .refl
          · refine .trans ?_ (ih ..)
            exact .snd ‹_› <| .kept (Module.issueWrite_keeps ..) (fun _ => rfl) <| .after (Module.putTask_engBut ..) .refl

theorem fence_engBut (e : EngPos) (w : Walker) (m : Module) : Agree (Module.engBut e) m (fence e w m) := by
  unfold fence
  refine Module.barrier_engBut (hb := .refl) (hf := fun _ _ _ _ _ => ?_) ..
  exact .ite (fun _ => .after (Module.pass_engBut ..) (by assumption)) fun _ => by assumption

theorem swait_engBut (e : EngPos) (w : Walker) (m : Module) : Agree (Module.engBut e) m (swait e w m) := by
  unfold swait
  refine Module.barrier_engBut (hb := .refl) (hf := fun _ _ _ _ _ => ?_) ..
  refine .ite (fun _ => .after (Module.abortTask_engBut ..) (by assumption)) fun _ => ?_
  exact .ite (fun _ => .after (Module.pass_engBut ..) (by assumption)) fun _ => by assumption

theorem swaitTimeout_engBut (e : EngPos) (m : Module) : Agree (Module.engBut e) m (swaitTimeout e m) := by
  unfold swaitTimeout
  refine Module.instr_engBut (hb := .refl) (hf := fun _ _ _ _ _ => ?_) ..
  refine .ite (fun _ => (by assumption)) fun _ => ?_
  exact .after (Module.abortTask_engBut ..) <| .kept (Module.count_keeps ..) (fun _ => rfl) (by assumption)

theorem ssig_engBut (e : EngPos) (w : Walker) (m : Module) : Agree (Module.engBut e) m (ssig e w m) := by
  unfold ssig
  refine Module.execOnly_engBut (hb := .refl) (hf := fun _ _ _ _ _ => ?_) ..
  refine .ite (fun _ => (by assumption)) fun _ => ?_
  refine .ite (fun _ => .after (Module.abortTask_engBut ..) (by assumption)) fun _ => ?_
  refine .after (Module.pass_engBut ..) ?_
  refine .ite (fun _ => (by assumption)) fun _ => ?_
  refine .ite (fun _ => ?_) fun _ => ?_
  · exact .kept (Module.guestAdd_keeps ..) (fun _ => rfl) (by assumption)
  · exact .kept (Module.addSync_keeps ..) (fun _ => rfl) (by assumption)

theorem wload_engBut (e : EngPos) (w : Walker) (m : Module) : Agree (Module.engBut e) m (wload e w m) := by
  unfold wload
  refine Module.instr_engBut (hb := .refl) (hf := fun _ _ _ _ _ => ?_) ..
  dsimp only
  split
  · exact .after (Module.pass_engBut ..) (by assumption)
  · refine .ite (fun _ => ?_) fun _ => ?_
    · split
      · exact .ite (fun _ => .after (Module.pass_engBut ..) (by assumption)) fun _ => by assumption
      · exact .ite (fun _ => (by assumption)) fun _ => .after (Module.pass_engBut ..) (by assumption)
    · split
      · assumption
      · exact .after (Module.pass_engBut ..) (by assumption)

theorem mm_engBut (e : EngPos) (w : Walker) (m : Module) : Agree (Module.engBut e) m (mm e w m) := by
  unfold mm
  refine Module.execOnly_engBut (hb := .refl) (hf := fun _ _ _ _ _ => ?_) ..
  dsimp only
  split
  · assumption
  · split
    · exact .after (Module.abortTask_engBut ..) (by assumption)
    · exact .after (Module.pass_engBut ..) <| .kept (Module.arith_keeps ..) (fun _ => rfl) (by assumption)

theorem mmf_engBut (e : EngPos) (w : Walker) (m : Module) : Agree (Module.engBut e) m (mmf e w m) := by
  unfold mmf
  refine Module.execOnly_engBut (hb := .refl) (hf := fun _ _ _ _ _ => ?_) ..
  dsimp only
  split
  · exact .after (Module.abortTask_engBut ..) (by assumption)
  · refine .ite (fun _ => (by assumption)) fun _ => ?_
    refine .ite (fun _ => ?_) fun _ => ?_
    · split
      · assumption
      · exact .after (Module.putTask_engBut ..) (by assumption)
    · split
      · exact .after (Module.pass_engBut ..) <| .kept (Module.arith_keeps ..) (fun _ => rfl) (by assumption)
      · assumption

theorem rfu_engBut (e : EngPos) (w : Walker) (m : Module) : Agree (Module.engBut e) m (rfu e w m) := by
  unfold rfu
  refine Module.execOnly_engBut (hb := .refl) (hf := fun _ _ _ _ _ => ?_) ..
  refine .ite (fun _ => .after (Module.abortTask_engBut ..) (by assumption)) fun _ => ?_
  dsimp only
  split
  · assumption
  · exact .after (Module.pass_engBut ..) <| .kept (Module.arith_keeps ..) (fun _ => rfl) (by assumption)

theorem tload_engBut (e : EngPos) (w : Walker) (m : Module) : Agree (Module.engBut e) m (tload e w m) := by
  unfold tload
  refine Module.execOnly_engBut (hb := .refl) (hf := fun _ _ _ _ _ => ?_) ..
  dsimp only
  split
  · assumption
  · exact .after (Module.pass_engBut ..) (by assumption)

theorem Module.storeRows_engBut (m : Module) (e : EngPos) (w : Walker) (t : EngTask) (s : WalkerSt) (l : List EngWrite) :
    Agree (Module.engBut e) m (Module.storeRows m e w t s l) := by
  unfold Module.storeRows
  dsimp only
  refine .after (Module.pump_engBut ..) ?_
  exact .after (Module.pass_engBut ..) <| .kept (Module.queueWrites_keeps ..) (fun _ => rfl) .refl

theorem wb_engBut (e : EngPos) (w : Walker) (m : Module) : Agree (Module.engBut e) m (wb e w m) := by
  unfold wb
  refine Module.execOnly_engBut (hb := .refl) (hf := fun _ _ _ _ _ => ?_) ..
  dsimp only
  split
  · exact .after (Module.abortTask_engBut ..) (by assumption)
  · exact .after (Module.pass_engBut ..) (by assumption)
  · refine .ite (fun _ => (by assumption)) fun _ => ?_
    split
    · assumption
    · refine .ite (fun _ => ?_) fun _ => ?_
      · exact .after (Module.abortTask_engBut ..) <| .kept (Module.engReads_keeps ..) (fun _ => rfl) (by assumption)
      · refine .after (Module.storeRows_engBut ..) ?_
        exact .kept (Module.arith_keeps ..) (fun _ => rfl) <| .kept (Module.engReads_keeps ..) (fun _ => rfl) (by assumption)

theorem gate_engBut (e : EngPos) (w : Walker) (m : Module) : Agree (Module.engBut e) m (gate e w m) := by
  unfold gate
  refine Module.instr_engBut (hb := .refl) (hf := fun _ _ _ _ _ => ?_) ..
  dsimp only
  split
  · exact .after (Module.pass_engBut ..) (by assumption)
  · split
    · split
      · exact .after (Module.putTask_engBut ..) (by assumption)
      · exact .after (Module.pass_engBut ..) (by assumption)
      · exact .after (Module.pass_engBut ..) (by assumption)
    · refine .ite (fun _ => (by assumption)) fun _ => ?_
      refine .ite (fun _ => ?_) fun _ => ?_
      · exact .after (Module.abortTask_engBut ..) <| .kept (Module.engReads_keeps ..) (fun _ => rfl) (by assumption)
      · refine .ite (fun _ => ?_) fun _ => ?_
        · refine .after (Module.pass_engBut ..) ?_
          exact .kept (Module.count_keeps ..) (fun _ => rfl) <|
            .kept (Module.engReads_keeps ..) (fun _ => rfl) (by assumption)
        · refine .after (Module.pump_engBut ..) <| .after (Module.putTask_engBut ..) ?_
          refine .kept (Module.queueWrites_keeps ..) (fun _ => rfl) ?_
          refine .kept (Module.count_keeps ..) (fun _ => rfl) ?_
          exact .kept (Module.count_keeps ..) (fun _ => rfl) <|
            .kept (Module.engReads_keeps ..) (fun _ => rfl) (by assumption)

theorem fetch_engBut (e : EngPos) (w : Walker) (errs : List MemErr) (m : Module) :
    Agree (Module.engBut e) m (fetch e w errs m) := by
  unfold fetch
  exact .after (fetchWith_engBut ..) .refl

theorem cancellationComplete_engBut (e : EngPos) (m : Module) : Agree (Module.engBut e) m (cancellationComplete e m) := by
  unfold cancellationComplete
  refine .ite (fun _ => .refl) fun _ => ?_
  dsimp only
  split
  · exact .after (Module.setEng_engBut ..) .refl
  · exact .after (Module.pumpReads_engBut ..) <| .after (Module.setEng_engBut ..) .refl

theorem Module.libCall_engBut (m : Module) (e : EngPos) (w : Walker) (id views : Nat) (f : LibCall → LibOut) :
    Agree (Module.engBut e) m (Module.libCall m e w id views f) := by
  unfold Module.libCall
  refine Module.barrier_engBut (hb := .refl) (hf := fun _ _ _ _ _ => ?_) ..
  refine .ite (fun _ => (by assumption)) fun _ => ?_
  refine .ite (fun _ => ?_) fun _ => ?_
  · exact .after (Module.pumpReads_engBut ..) <| .after (Module.putTask_engBut ..) (by assumption)
  · refine .ite (fun _ => ?_) fun _ => ?_
    · exact .after (Module.pumpReads_engBut ..) <| .after (Module.putTask_engBut ..) (by assumption)
    · refine .ite (fun _ => (by assumption)) fun _ => ?_
      dsimp only
      refine .ite (fun _ => ?_) fun _ => ?_
      · exact .after (Module.abortTask_engBut ..) <| .kept (Module.engReads_keeps ..) (fun _ => rfl) (by assumption)
      · split
        · refine .after (Module.abortTask_engBut ..) ?_
          refine .snd (by assumption) ?_
          exact .kept (Module.libCheck_keeps ..) (fun _ => rfl) <|
            .kept (Module.engReads_keeps ..) (fun _ => rfl) (by assumption)
        · refine .after (Module.storeRows_engBut ..) <| .kept (Module.arith_keeps ..) (fun _ => rfl) ?_
          refine .kept (Module.libTiles_keeps ..) (fun _ => rfl) ?_
          refine .snd (by assumption) ?_
          exact .kept (Module.libCheck_keeps ..) (fun _ => rfl) <|
            .kept (Module.engReads_keeps ..) (fun _ => rfl) (by assumption)

theorem conv2d_engBut (e : EngPos) (w : Walker) (m : Module) : Agree (Module.engBut e) m (conv2d e w m) := by
  unfold conv2d
  exact .after (Module.libCall_engBut ..) .refl

theorem softmax_engBut (e : EngPos) (w : Walker) (m : Module) : Agree (Module.engBut e) m (softmax e w m) := by
  unfold softmax
  exact .after (Module.libCall_engBut ..) .refl

theorem nms_engBut (e : EngPos) (w : Walker) (m : Module) : Agree (Module.engBut e) m (nms e w m) := by
  unfold nms
  exact .after (Module.libCall_engBut ..) .refl

theorem Module.engineFault_engBut (m : Module) (e : EngPos) (code : Nat) :
    Agree (Module.engBut e) m (Module.engineFault m e code) := by
  unfold Module.engineFault
  dsimp only
  split
  · exact .refl
  · refine .ite (fun _ => ?_) fun _ => .after (Module.abortTask_engBut ..) .refl
    refine .ite (fun _ => .refl) fun _ => ?_
    refine .kept (Module.count_keeps ..) (fun _ => rfl) ?_
    exact .kept (Module.setFld_keeps ..) (fun _ => rfl) <| .after (Module.putTask_engBut ..) .refl

theorem engineWatchdog_engBut (e : EngPos) (m : Module) : Agree (Module.engBut e) m (engineWatchdog e m) := by
  unfold engineWatchdog
  dsimp only
  split
  · exact .refl
  · refine .ite (fun _ => .after (Module.abortTask_engBut ..) .refl) fun _ => ?_
    exact .after (Module.engineFault_engBut ..) .refl

theorem Module.releaseBatches_portBut (m : Module) (p : Nat) (atStart : Bool) (n : Word) (exposure : List SqEntry) :
    Agree (Module.portBut p) m (Module.releaseBatches m p atStart n exposure) := by
  unfold Module.releaseBatches
  exact .kept (Module.reportFill_keeps ..) (fun _ => rfl) <| .after (Module.setPort_portBut ..) .refl

theorem sensorTransactionStart_portBut (p : PortId) (m : Module) :
    Agree (Module.portBut p.val) m (sensorTransactionStart p m) := by
  unfold sensorTransactionStart
  refine .ite (fun _ => .refl) fun _ => ?_
  dsimp only
  split
  · split
    · exact .kept (Module.busSend_keeps ..) (fun _ => rfl) <| .after (Module.setPort_portBut ..) .refl
    · exact .refl
  · split
    · exact .kept (Module.busSend_keeps ..) (fun _ => rfl) <| .after (Module.setPort_portBut ..) .refl
    · exact .refl

theorem Module.sqFinish_portBut (m : Module) (p : Nat) (t : SqXfer) :
    Agree (Module.portBut p) m (Module.sqFinish m p t) := by
  unfold Module.sqFinish
  exact .kept (Module.reportFill_keeps ..) (fun _ => rfl) <| .after (Module.setPort_portBut ..) .refl

theorem Module.sqFail_portBut (m : Module) (p : Nat) (t : SqXfer) (err : Nat) :
    Agree (Module.portBut p) m (Module.sqFail m p t err) := by
  unfold Module.sqFail
  refine .ite (fun _ => ?_) fun _ => ?_
  · dsimp only
    split
    · refine .kept (Module.raiseCtx_keeps ..) (fun _ => rfl) ?_
      refine .kept (Module.sqError_keeps ..) (fun _ => rfl) ?_
      refine .kept (Module.count_keeps ..) (fun _ => rfl) ?_
      refine .kept (Module.reportFill_keeps ..) (fun _ => rfl) <| .after (Module.setPort_portBut ..) ?_
      exact .ite (fun _ => .kept (Module.exposureMark_keeps ..) (fun _ => rfl) .refl) fun _ => .refl
    · refine .kept (Module.raiseCtx_keeps ..) (fun _ => rfl) ?_
      refine .kept (Module.sqError_keeps ..) (fun _ => rfl) ?_
      refine .kept (Module.count_keeps ..) (fun _ => rfl) ?_
      exact .kept (Module.reportFill_keeps ..) (fun _ => rfl) <| .after (Module.setPort_portBut ..) .refl
  · refine .kept (Module.raiseCtx_keeps ..) (fun _ => rfl) ?_
    refine .kept (Module.sqError_keeps ..) (fun _ => rfl) ?_
    refine .kept (Module.count_keeps ..) (fun _ => rfl) ?_
    exact .kept (Module.reportFill_keeps ..) (fun _ => rfl) <| .after (Module.setPort_portBut ..) .refl

theorem Module.sqTryFailed_portBut (m : Module) (p : PortId) (err : Nat) :
    Agree (Module.portBut p.val) m (Module.sqTryFailed m p err) := by
  unfold Module.sqTryFailed
  dsimp only
  split
  · exact .refl
  · refine .ite (fun _ => ?_) fun _ => .after (Module.sqFail_portBut ..) .refl
    exact .kept (Module.busSend_keeps ..) (fun _ => rfl) <| .after (Module.setPort_portBut ..) .refl

theorem sensorTransactionDone_portBut (p : PortId) (ack : Bool) (rdata : List Byte) (m : Module) :
    Agree (Module.portBut p.val) m (sensorTransactionDone p ack rdata m) := by
  unfold sensorTransactionDone
  dsimp only
  split
  · exact .refl
  · refine .ite (fun _ => .after (Module.sqTryFailed_portBut ..) .refl) fun _ => ?_
    refine .after (Module.sqFinish_portBut ..) ?_
    refine .ite (fun _ => ?_) fun _ => .refl
    exact .kept (Module.setFld_keeps ..) (fun _ => rfl) <| .kept (Module.wr_keeps ..) (fun _ => rfl) .refl

theorem sensorBusTimeout_portBut (p : PortId) (m : Module) : Agree (Module.portBut p.val) m (sensorBusTimeout p m) := by
  unfold sensorBusTimeout
  exact .after (Module.sqTryFailed_portBut ..) .refl

theorem Module.calEnd_portBut (m : Module) (c err : Nat) (status : Option Nat) :
    Agree (Module.portBut c) m (Module.calEnd m c err status) := by
  unfold Module.calEnd
  dsimp only
  split
  · exact .refl
  · split
    · refine .kept (Module.calEvent_keeps ..) (fun _ => rfl) ?_
      refine .kept (Module.calReport_keeps ..) (fun _ => rfl) ?_
      refine .ite (fun _ => ?_) fun _ => ?_
      · refine .kept (Module.trainAbort_keeps ..) (fun _ => rfl) <| .after (Module.setPort_portBut ..) ?_
        refine .kept (Module.setCtx_keeps ..) (fun _ => rfl) ?_
        refine .ite (fun _ => ?_) fun _ => .kept (Module.setCal_keeps ..) (fun _ => rfl) .refl
        exact .kept (Module.unbindLane_keeps ..) (fun _ => rfl) <| .kept (Module.setCal_keeps ..) (fun _ => rfl) .refl
      · refine .after (Module.setPort_portBut ..) <| .kept (Module.setCtx_keeps ..) (fun _ => rfl) ?_
        refine .ite (fun _ => ?_) fun _ => .kept (Module.setCal_keeps ..) (fun _ => rfl) .refl
        exact .kept (Module.unbindLane_keeps ..) (fun _ => rfl) <| .kept (Module.setCal_keeps ..) (fun _ => rfl) .refl
    · refine .kept (Module.calEvent_keeps ..) (fun _ => rfl) ?_
      refine .kept (Module.open__keeps ..) (fun _ => rfl) ?_
      refine .kept (Module.calReport_keeps ..) (fun _ => rfl) ?_
      refine .ite (fun _ => ?_) fun _ => ?_
      · refine .kept (Module.trainAbort_keeps ..) (fun _ => rfl) <| .after (Module.setPort_portBut ..) ?_
        refine .kept (Module.setCtx_keeps ..) (fun _ => rfl) ?_
        refine .ite (fun _ => ?_) fun _ => .kept (Module.setCal_keeps ..) (fun _ => rfl) .refl
        exact .kept (Module.unbindLane_keeps ..) (fun _ => rfl) <| .kept (Module.setCal_keeps ..) (fun _ => rfl) .refl
      · refine .after (Module.setPort_portBut ..) <| .kept (Module.setCtx_keeps ..) (fun _ => rfl) ?_
        refine .ite (fun _ => ?_) fun _ => .kept (Module.setCal_keeps ..) (fun _ => rfl) .refl
        exact .kept (Module.unbindLane_keeps ..) (fun _ => rfl) <| .kept (Module.setCal_keeps ..) (fun _ => rfl) .refl

theorem Module.calBegin_portBut (m : Module) (c : Nat) (r : CalRun) :
    Agree (Module.portBut c) m (Module.calBegin m c r) := by
  unfold Module.calBegin
  refine .ite (fun _ => ?_) fun _ => ?_
  · exact .after (Module.calEnd_portBut ..) <| .kept (Module.setCal_keeps ..) (fun _ => rfl) .refl
  · refine .ite (fun _ => ?_) fun _ => ?_
    · dsimp only
      split
      · refine .kept (Module.calMark_keeps ..) (fun _ => rfl) <| .after (Module.setPort_portBut ..) ?_
        refine .kept (Module.wr_keeps ..) (fun _ => rfl) ?_
        refine .kept (Module.setPortState_keeps ..) (fun _ => rfl) ?_
        exact .kept (Module.count_keeps ..) (fun _ => rfl) <| .kept (Module.setCal_keeps ..) (fun _ => rfl) .refl
      · refine .kept (Module.wr_keeps ..) (fun _ => rfl) ?_
        refine .kept (Module.setPortState_keeps ..) (fun _ => rfl) ?_
        exact .kept (Module.count_keeps ..) (fun _ => rfl) <| .kept (Module.setCal_keeps ..) (fun _ => rfl) .refl
    · refine .ite (fun _ => ?_) fun _ => ?_
      · dsimp only
        split
        · refine .kept (Module.write_keeps ..) (fun _ => rfl) ?_
          exact .kept (Module.count_keeps ..) (fun _ => rfl) <| .kept (Module.setCal_keeps ..) (fun _ => rfl) .refl
        · exact .kept (Module.count_keeps ..) (fun _ => rfl) <| .kept (Module.setCal_keeps ..) (fun _ => rfl) .refl
      · exact .kept (Module.count_keeps ..) (fun _ => rfl) <| .kept (Module.setCal_keeps ..) (fun _ => rfl) .refl

theorem Module.calStart_portBut (m : Module) (c kind purpose : Nat) (region : Bool) :
    Agree (Module.portBut c) m (Module.calStart m c kind purpose region).2 := by
  unfold Module.calStart
  dsimp only
  split
  · dsimp only
    exact .refl
  · split
    · dsimp only
      exact .kept (Module.count_keeps ..) (fun _ => rfl) <| .kept (Module.setFld_keeps ..) (fun _ => rfl) .refl
    · split
      · split
        · split
          · dsimp only
            refine .after (Module.calEnd_portBut ..) <| .kept (Module.wr_keeps ..) (fun _ => rfl) ?_
            refine .kept (Module.wr_keeps ..) (fun _ => rfl) <| .kept (Module.calReport_keeps ..) (fun _ => rfl) ?_
            refine .kept (Module.setCal_keeps ..) (fun _ => rfl) ?_
            exact .kept (Module.bindLane_keeps ..) (fun _ => rfl) <| .kept (Module.pick_keeps ..) (fun _ => rfl) .refl
          · dsimp only
            refine .after (Module.calBegin_portBut ..) <| .kept (Module.wr_keeps ..) (fun _ => rfl) ?_
            refine .kept (Module.wr_keeps ..) (fun _ => rfl) <| .kept (Module.calReport_keeps ..) (fun _ => rfl) ?_
            refine .kept (Module.setCal_keeps ..) (fun _ => rfl) ?_
            exact .kept (Module.bindLane_keeps ..) (fun _ => rfl) <| .kept (Module.pick_keeps ..) (fun _ => rfl) .refl
        · split
          · dsimp only
            refine .after (Module.calEnd_portBut ..) <| .kept (Module.wr_keeps ..) (fun _ => rfl) ?_
            refine .kept (Module.wr_keeps ..) (fun _ => rfl) <| .kept (Module.calReport_keeps ..) (fun _ => rfl) ?_
            exact .kept (Module.setCal_keeps ..) (fun _ => rfl) <| .kept (Module.pick_keeps ..) (fun _ => rfl) .refl
          · dsimp only
            refine .after (Module.calBegin_portBut ..) <| .kept (Module.wr_keeps ..) (fun _ => rfl) ?_
            refine .kept (Module.wr_keeps ..) (fun _ => rfl) <| .kept (Module.calReport_keeps ..) (fun _ => rfl) ?_
            exact .kept (Module.setCal_keeps ..) (fun _ => rfl) <| .kept (Module.pick_keeps ..) (fun _ => rfl) .refl
      · split
        · dsimp only
          refine .after (Module.calEnd_portBut ..) <| .kept (Module.wr_keeps ..) (fun _ => rfl) ?_
          refine .kept (Module.wr_keeps ..) (fun _ => rfl) ?_
          exact .kept (Module.calReport_keeps ..) (fun _ => rfl) <| .kept (Module.setCal_keeps ..) (fun _ => rfl) .refl
        · dsimp only
          refine .after (Module.calBegin_portBut ..) <| .kept (Module.wr_keeps ..) (fun _ => rfl) ?_
          refine .kept (Module.wr_keeps ..) (fun _ => rfl) ?_
          exact .kept (Module.calReport_keeps ..) (fun _ => rfl) <| .kept (Module.setCal_keeps ..) (fun _ => rfl) .refl

theorem Module.calFrame_portBut (m : Module) (c : Nat) (f : PortFrame) (lane : Option LaneFrame) (esid : Nat) (ob : List Nat) :
    Agree (Module.portBut c) m (Module.calFrame m c f lane esid ob) := by
  unfold Module.calFrame
  dsimp only
  split
  · exact .refl
  · refine .ite (fun _ => .refl) fun _ => ?_
    refine .ite (fun _ => ?_) fun _ => ?_
    · refine .kept (Module.count_keeps ..) (fun _ => rfl) <| .after (Module.calEnd_portBut ..) ?_
      refine .ite (fun _ => ?_) fun _ => ?_
      · refine .kept (Module.wr_keeps ..) (fun _ => rfl) <| .kept (Module.wr_keeps ..) (fun _ => rfl) ?_
        refine .kept (Module.setCal_keeps ..) (fun _ => rfl) ?_
        refine .ite (fun _ => ?_) fun _ => ?_
        · split
          · exact .ite (fun _ => .refl) fun _ => .kept (Module.calTakeBack_keeps ..) (fun _ => rfl) .refl
          · exact .refl
        · refine .kept (Module.setCtx_keeps ..) (fun _ => rfl) ?_
          split
          · exact .ite (fun _ => .refl) fun _ => .kept (Module.calTakeBack_keeps ..) (fun _ => rfl) .refl
          · exact .refl
      · refine .kept (Module.setCal_keeps ..) (fun _ => rfl) ?_
        refine .ite (fun _ => ?_) fun _ => ?_
        · split
          · exact .ite (fun _ => .refl) fun _ => .kept (Module.calTakeBack_keeps ..) (fun _ => rfl) .refl
          · exact .refl
        · refine .kept (Module.setCtx_keeps ..) (fun _ => rfl) ?_
          split
          · exact .ite (fun _ => .refl) fun _ => .kept (Module.calTakeBack_keeps ..) (fun _ => rfl) .refl
          · exact .refl
    · refine .ite (fun _ => ?_) fun _ => ?_
      · refine .kept (Module.wr_keeps ..) (fun _ => rfl) <| .kept (Module.wr_keeps ..) (fun _ => rfl) ?_
        refine .kept (Module.setCal_keeps ..) (fun _ => rfl) ?_
        refine .ite (fun _ => ?_) fun _ => ?_
        · split
          · exact .ite (fun _ => .refl) fun _ => .kept (Module.calTakeBack_keeps ..) (fun _ => rfl) .refl
          · exact .refl
        · refine .kept (Module.setCtx_keeps ..) (fun _ => rfl) ?_
          split
          · exact .ite (fun _ => .refl) fun _ => .kept (Module.calTakeBack_keeps ..) (fun _ => rfl) .refl
          · exact .refl
      · refine .kept (Module.setCal_keeps ..) (fun _ => rfl) ?_
        refine .ite (fun _ => ?_) fun _ => ?_
        · split
          · exact .ite (fun _ => .refl) fun _ => .kept (Module.calTakeBack_keeps ..) (fun _ => rfl) .refl
          · exact .refl
        · refine .kept (Module.setCtx_keeps ..) (fun _ => rfl) ?_
          split
          · exact .ite (fun _ => .refl) fun _ => .kept (Module.calTakeBack_keeps ..) (fun _ => rfl) .refl
          · exact .refl

theorem Module.calTrigger_portBut (m : Module) (c : Nat) : Agree (Module.portBut c) m (Module.calTrigger m c) := by
  unfold Module.calTrigger
  refine .ite (fun _ => .refl) fun _ => ?_
  refine .ite (fun _ => .refl) fun _ => ?_
  refine .ite (fun _ => .after (Module.calStart_portBut ..) .refl) fun _ => ?_
  exact .kept (Module.raiseCtx_keeps ..) (fun _ => rfl) .refl

theorem Module.setFrame_portBut (m : Module) (p : Nat) (f : Option PortFrame) :
    Agree (Module.portBut p) m (Module.setFrame m p f) := by
  unfold Module.setFrame
  exact .after (Module.setPort_portBut ..) .refl

theorem rstLowExpiry_portBut (p : PortId) (m : Module) : Agree (Module.portBut p.val) m (rstLowExpiry p m) := by
  unfold rstLowExpiry
  exact .ite (fun _ => .after (Module.setPort_portBut ..) .refl) fun _ => .refl

theorem rstSettleExpiry_portBut (p : PortId) (m : Module) : Agree (Module.portBut p.val) m (rstSettleExpiry p m) := by
  unfold rstSettleExpiry
  refine .ite (fun _ => ?_) fun _ => .refl
  refine .kept (Module.setPortState_keeps ..) (fun _ => rfl) <| .after (Module.setPort_portBut ..) ?_
  refine .kept (Module.tick_keeps ..) (fun _ => rfl) ?_
  refine .ite (fun _ => ?_) fun _ => .refl
  exact .kept (Module.emit_keeps ..) (fun _ => rfl) <| .kept (Module.emit_keeps ..) (fun _ => rfl) .refl

theorem Module.closeLine_portBut (m : Module) (p : Nat) (pixels : List W16) (lost cut : Bool) :
    Agree (Module.portBut p) m (Module.closeLine m p pixels lost cut) := by
  unfold Module.closeLine
  dsimp only
  split
  · exact .refl
  · split
    · exact .refl
    · refine .ite (fun _ => .after (Module.setFrame_portBut ..) .refl) fun _ => ?_
      exact .foldl (fun _ _ => .kept (Module.count_keeps ..) (fun _ => rfl) .refl) _ (.after (Module.setFrame_portBut ..) <|
        .kept (Module.adjustLane_keeps ..) (fun _ => rfl) .refl)

theorem Module.contextFrameEnd_portBut (m : Module) (c : Nat) (e : Meas) :
    Agree (Module.portBut c) m (Module.contextFrameEnd m c e) := by
  unfold Module.contextFrameEnd
  refine .after (Module.calTrigger_portBut ..) <| .kept (Module.reportStored_keeps ..) (fun _ => rfl) ?_
  refine .kept (Module.reportValid_keeps ..) (fun _ => rfl) ?_
  refine .kept (Module.copySet_keeps ..) (fun _ => rfl) ?_
  refine .kept (Module.applyAtCopy_keeps ..) (fun _ => rfl) ?_
  refine .kept (Module.setCtx_keeps ..) (fun _ => rfl) ?_
  refine .ite (fun _ => ?_) fun _ => ?_
  · refine .after (Module.calFrame_portBut ..) ?_
    dsimp only
    split
    · exact .refl
    · refine .kept (Module.adjustLane_keeps ..) (fun _ => rfl) ?_
      refine .ite (fun _ => ?_) fun _ => ?_
      · refine .after (Module.calFrame_portBut ..) ?_
        exact .ite (fun _ => .kept (Module.track_keeps ..) (fun _ => rfl) .refl) fun _ => .refl
      · exact .ite (fun _ => .kept (Module.track_keeps ..) (fun _ => rfl) .refl) fun _ => .refl
  · dsimp only
    split
    · exact .refl
    · refine .kept (Module.adjustLane_keeps ..) (fun _ => rfl) ?_
      refine .ite (fun _ => ?_) fun _ => ?_
      · refine .after (Module.calFrame_portBut ..) ?_
        exact .ite (fun _ => .kept (Module.track_keeps ..) (fun _ => rfl) .refl) fun _ => .refl
      · exact .ite (fun _ => .kept (Module.track_keeps ..) (fun _ => rfl) .refl) fun _ => .refl

theorem Module.leaveActive_portBut (m : Module) (p : Nat) : Agree (Module.portBut p) m (Module.leaveActive m p) := by
  unfold Module.leaveActive
  dsimp only
  split
  · refine .ite (fun _ => ?_) fun _ => .refl
    refine .after (Module.setPort_portBut ..) ?_
    exact .kept (Module.wr_keeps ..) (fun _ => rfl) <| .kept (Module.setPortState_keeps ..) (fun _ => rfl) .refl
  · exact .refl

theorem Module.closeFrame_portBut (m : Module) (p t : Nat) (pixels : List W16) (lost cut : Bool) :
    Agree (Module.portBut p) m (Module.closeFrame m p t pixels lost cut) := by
  unfold Module.closeFrame
  dsimp only
  split
  · exact .after (Module.closeLine_portBut ..) .refl
  · refine .after (Module.leaveActive_portBut ..) <| .after (Module.releaseBatches_portBut ..) ?_
    refine .after (Module.contextFrameEnd_portBut ..) ?_
    refine .kept (Module.driftCheck_keeps ..) (fun _ => rfl) ?_
    refine .kept (Module.setFld_keeps ..) (fun _ => rfl) <| .after (Module.setPort_portBut ..) ?_
    refine .kept (Module.tick_keeps ..) (fun _ => rfl) ?_
    refine .kept (Module.adjustLane_keeps ..) (fun _ => rfl) ?_
    refine .ite (fun _ => ?_) fun _ => ?_
    · refine .kept (Module.count_keeps ..) (fun _ => rfl) ?_
      refine .ite (fun _ => ?_) fun _ => .after (Module.closeLine_portBut ..) .refl
      exact .kept (Module.count_keeps ..) (fun _ => rfl) <| .after (Module.closeLine_portBut ..) .refl
    · refine .ite (fun _ => ?_) fun _ => .after (Module.closeLine_portBut ..) .refl
      exact .kept (Module.count_keeps ..) (fun _ => rfl) <| .after (Module.closeLine_portBut ..) .refl

theorem frameEnd_portBut (p : PortId) (t : Nat) (tail : List W16) (m : Module) :
    Agree (Module.portBut p.val) m (frameEnd p t tail m) := by
  unfold frameEnd
  dsimp only
  split
  · exact .refl
  · exact .ite (fun _ => .refl) fun _ => .after (Module.closeFrame_portBut ..) .refl

theorem Module.signalLost_portBut (m : Module) (p t : Nat) (pixels : List W16) :
    Agree (Module.portBut p) m (Module.signalLost m p t pixels) := by
  unfold Module.signalLost
  dsimp only
  split
  · exact .after (Module.closeLine_portBut ..) .refl
  · refine .after (Module.closeFrame_portBut ..) <| .kept (Module.raiseCtx_keeps ..) (fun _ => rfl) ?_
    refine .kept (Module.setFld_keeps ..) (fun _ => rfl) <| .kept (Module.count_keeps ..) (fun _ => rfl) ?_
    exact .after (Module.setFrame_portBut ..) <| .after (Module.closeLine_portBut ..) .refl

theorem pclkLossTimeout_portBut (p : PortId) (t : Nat) (pixels : List W16) (m : Module) :
    Agree (Module.portBut p.val) m (pclkLossTimeout p t pixels m) := by
  unfold pclkLossTimeout
  split
  · exact .ite (fun _ => .after (Module.signalLost_portBut ..) .refl) fun _ => .refl
  · exact .refl

theorem frameEndTimeout_portBut (p : PortId) (t : Nat) (tail : List W16) (m : Module) :
    Agree (Module.portBut p.val) m (frameEndTimeout p t tail m) := by
  unfold frameEndTimeout
  split
  · exact .ite (fun _ => .after (Module.signalLost_portBut ..) .refl) fun _ => .refl
  · exact .refl

theorem Module.enterActive_portBut (m : Module) (p : Nat) : Agree (Module.portBut p) m (Module.enterActive m p) := by
  unfold Module.enterActive
  dsimp only
  split
  · refine .ite (fun _ => ?_) fun _ => .refl
    refine .after (Module.setPort_portBut ..) ?_
    refine .upd ?_
    exact .kept (Module.wr_keeps ..) (fun _ => rfl) <| .kept (Module.setPortState_keeps ..) (fun _ => rfl) .refl
  · exact .refl

theorem frameStart_portBut (p : PortId) (t : Nat) (tail : List W16) (m : Module) :
    Agree (Module.portBut p.val) m (frameStart p t tail m) := by
  unfold frameStart
  refine .ite (fun _ => .refl) fun _ => ?_
  dsimp only
  refine .kept (Module.reportEsid_keeps ..) (fun _ => rfl) ?_
  refine .after (Module.releaseBatches_portBut ..) ?_
  refine .kept (Module.issueExposure_keeps ..) (fun _ => rfl) ?_
  refine .ite (fun _ => ?_) fun _ => ?_
  · refine .ite (fun _ => ?_) fun _ => ?_
    · refine .kept (Module.laneStart_keeps ..) (fun _ => rfl) ?_
      refine .kept (Module.copyFirst_keeps ..) (fun _ => rfl) ?_
      refine .ite (fun _ => ?_) fun _ => ?_
      · refine .ite (fun _ => ?_) fun _ => ?_
        · refine .kept (Module.count_keeps ..) (fun _ => rfl) ?_
          refine .kept (Module.calMark_keeps ..) (fun _ => rfl) ?_
          refine .kept (Module.setFld_keeps ..) (fun _ => rfl) ?_
          refine .kept (Module.setFld_keeps ..) (fun _ => rfl) <| .after (Module.setPort_portBut ..) ?_
          refine .kept (Module.tick_keeps ..) (fun _ => rfl) <| .after (Module.enterActive_portBut ..) ?_
          refine .upd ?_
          exact .after (Module.closeFrame_portBut ..) .refl
        · refine .kept (Module.raiseCtx_keeps ..) (fun _ => rfl) ?_
          refine .kept (Module.count_keeps ..) (fun _ => rfl) ?_
          refine .kept (Module.calMark_keeps ..) (fun _ => rfl) ?_
          refine .kept (Module.setFld_keeps ..) (fun _ => rfl) ?_
          refine .kept (Module.setFld_keeps ..) (fun _ => rfl) <| .after (Module.setPort_portBut ..) ?_
          refine .kept (Module.tick_keeps ..) (fun _ => rfl) <| .after (Module.enterActive_portBut ..) ?_
          refine .upd ?_
          exact .after (Module.closeFrame_portBut ..) .refl
      · refine .kept (Module.calMark_keeps ..) (fun _ => rfl) ?_
        refine .kept (Module.setFld_keeps ..) (fun _ => rfl) ?_
        refine .kept (Module.setFld_keeps ..) (fun _ => rfl) <| .after (Module.setPort_portBut ..) ?_
        refine .kept (Module.tick_keeps ..) (fun _ => rfl) <| .after (Module.enterActive_portBut ..) ?_
        refine .upd ?_
        exact .after (Module.closeFrame_portBut ..) .refl
    · refine .kept (Module.copyFirst_keeps ..) (fun _ => rfl) ?_
      refine .ite (fun _ => ?_) fun _ => ?_
      · refine .ite (fun _ => ?_) fun _ => ?_
        · refine .kept (Module.count_keeps ..) (fun _ => rfl) ?_
          refine .kept (Module.calMark_keeps ..) (fun _ => rfl) ?_
          refine .kept (Module.setFld_keeps ..) (fun _ => rfl) ?_
          refine .kept (Module.setFld_keeps ..) (fun _ => rfl) <| .after (Module.setPort_portBut ..) ?_
          refine .kept (Module.tick_keeps ..) (fun _ => rfl) <| .after (Module.enterActive_portBut ..) ?_
          refine .upd ?_
          exact .after (Module.closeFrame_portBut ..) .refl
        · refine .kept (Module.raiseCtx_keeps ..) (fun _ => rfl) ?_
          refine .kept (Module.count_keeps ..) (fun _ => rfl) ?_
          refine .kept (Module.calMark_keeps ..) (fun _ => rfl) ?_
          refine .kept (Module.setFld_keeps ..) (fun _ => rfl) ?_
          refine .kept (Module.setFld_keeps ..) (fun _ => rfl) <| .after (Module.setPort_portBut ..) ?_
          refine .kept (Module.tick_keeps ..) (fun _ => rfl) <| .after (Module.enterActive_portBut ..) ?_
          refine .upd ?_
          exact .after (Module.closeFrame_portBut ..) .refl
      · refine .kept (Module.calMark_keeps ..) (fun _ => rfl) ?_
        refine .kept (Module.setFld_keeps ..) (fun _ => rfl) ?_
        refine .kept (Module.setFld_keeps ..) (fun _ => rfl) <| .after (Module.setPort_portBut ..) ?_
        refine .kept (Module.tick_keeps ..) (fun _ => rfl) <| .after (Module.enterActive_portBut ..) ?_
        refine .upd ?_
        exact .after (Module.closeFrame_portBut ..) .refl
  · refine .kept (Module.resumeAtStart_keeps ..) (fun _ => rfl) ?_
    refine .ite (fun _ => ?_) fun _ => ?_
    · refine .kept (Module.laneStart_keeps ..) (fun _ => rfl) ?_
      refine .kept (Module.copyFirst_keeps ..) (fun _ => rfl) ?_
      refine .ite (fun _ => ?_) fun _ => ?_
      · refine .ite (fun _ => ?_) fun _ => ?_
        · refine .kept (Module.count_keeps ..) (fun _ => rfl) ?_
          refine .kept (Module.calMark_keeps ..) (fun _ => rfl) ?_
          refine .kept (Module.setFld_keeps ..) (fun _ => rfl) ?_
          refine .kept (Module.setFld_keeps ..) (fun _ => rfl) <| .after (Module.setPort_portBut ..) ?_
          refine .kept (Module.tick_keeps ..) (fun _ => rfl) <| .after (Module.enterActive_portBut ..) ?_
          refine .upd ?_
          exact .after (Module.closeFrame_portBut ..) .refl
        · refine .kept (Module.raiseCtx_keeps ..) (fun _ => rfl) ?_
          refine .kept (Module.count_keeps ..) (fun _ => rfl) ?_
          refine .kept (Module.calMark_keeps ..) (fun _ => rfl) ?_
          refine .kept (Module.setFld_keeps ..) (fun _ => rfl) ?_
          refine .kept (Module.setFld_keeps ..) (fun _ => rfl) <| .after (Module.setPort_portBut ..) ?_
          refine .kept (Module.tick_keeps ..) (fun _ => rfl) <| .after (Module.enterActive_portBut ..) ?_
          refine .upd ?_
          exact .after (Module.closeFrame_portBut ..) .refl
      · refine .kept (Module.calMark_keeps ..) (fun _ => rfl) ?_
        refine .kept (Module.setFld_keeps ..) (fun _ => rfl) ?_
        refine .kept (Module.setFld_keeps ..) (fun _ => rfl) <| .after (Module.setPort_portBut ..) ?_
        refine .kept (Module.tick_keeps ..) (fun _ => rfl) <| .after (Module.enterActive_portBut ..) ?_
        refine .upd ?_
        exact .after (Module.closeFrame_portBut ..) .refl
    · refine .kept (Module.copyFirst_keeps ..) (fun _ => rfl) ?_
      refine .ite (fun _ => ?_) fun _ => ?_
      · refine .ite (fun _ => ?_) fun _ => ?_
        · refine .kept (Module.count_keeps ..) (fun _ => rfl) ?_
          refine .kept (Module.calMark_keeps ..) (fun _ => rfl) ?_
          refine .kept (Module.setFld_keeps ..) (fun _ => rfl) ?_
          refine .kept (Module.setFld_keeps ..) (fun _ => rfl) <| .after (Module.setPort_portBut ..) ?_
          refine .kept (Module.tick_keeps ..) (fun _ => rfl) <| .after (Module.enterActive_portBut ..) ?_
          refine .upd ?_
          exact .after (Module.closeFrame_portBut ..) .refl
        · refine .kept (Module.raiseCtx_keeps ..) (fun _ => rfl) ?_
          refine .kept (Module.count_keeps ..) (fun _ => rfl) ?_
          refine .kept (Module.calMark_keeps ..) (fun _ => rfl) ?_
          refine .kept (Module.setFld_keeps ..) (fun _ => rfl) ?_
          refine .kept (Module.setFld_keeps ..) (fun _ => rfl) <| .after (Module.setPort_portBut ..) ?_
          refine .kept (Module.tick_keeps ..) (fun _ => rfl) <| .after (Module.enterActive_portBut ..) ?_
          refine .upd ?_
          exact .after (Module.closeFrame_portBut ..) .refl
      · refine .kept (Module.calMark_keeps ..) (fun _ => rfl) ?_
        refine .kept (Module.setFld_keeps ..) (fun _ => rfl) ?_
        refine .kept (Module.setFld_keeps ..) (fun _ => rfl) <| .after (Module.setPort_portBut ..) ?_
        refine .kept (Module.tick_keeps ..) (fun _ => rfl) <| .after (Module.enterActive_portBut ..) ?_
        refine .upd ?_
        exact .after (Module.closeFrame_portBut ..) .refl

theorem portLineStart_portBut (p : PortId) (t hblank : Nat) (tail : List W16) (m : Module) :
    Agree (Module.portBut p.val) m (portLineStart p t hblank tail m) := by
  unfold portLineStart
  dsimp only
  split
  · exact .after (Module.closeLine_portBut ..) .refl
  · refine .ite (fun _ => ?_) fun _ => ?_
    · exact .after (Module.setFrame_portBut ..) <| .after (Module.closeLine_portBut ..) .refl
    · split
      · refine .ite (fun _ => ?_) fun _ => ?_
        · refine .kept (Module.raiseCtx_keeps ..) (fun _ => rfl) ?_
          refine .ite (fun _ => ?_) fun _ => ?_
          · refine .kept (Module.adjustLane_keeps ..) (fun _ => rfl) <| .after (Module.setFrame_portBut ..) ?_
            exact .after (Module.setFrame_portBut ..) <| .after (Module.closeLine_portBut ..) .refl
          · refine .kept (Module.exposureMark_keeps ..) (fun _ => rfl) ?_
            refine .kept (Module.adjustLane_keeps ..) (fun _ => rfl) <| .after (Module.setFrame_portBut ..) ?_
            exact .after (Module.setFrame_portBut ..) <| .after (Module.closeLine_portBut ..) .refl
        · exact .after (Module.setFrame_portBut ..) <| .after (Module.closeLine_portBut ..) .refl
      · refine .after (Module.setFrame_portBut ..) ?_
        refine .ite (fun _ => ?_) fun _ => ?_
        · refine .kept (Module.raiseCtx_keeps ..) (fun _ => rfl) ?_
          refine .ite (fun _ => ?_) fun _ => ?_
          · refine .kept (Module.adjustLane_keeps ..) (fun _ => rfl) <| .after (Module.setFrame_portBut ..) ?_
            exact .after (Module.setFrame_portBut ..) <| .after (Module.closeLine_portBut ..) .refl
          · refine .kept (Module.exposureMark_keeps ..) (fun _ => rfl) ?_
            refine .kept (Module.adjustLane_keeps ..) (fun _ => rfl) <| .after (Module.setFrame_portBut ..) ?_
            exact .after (Module.setFrame_portBut ..) <| .after (Module.closeLine_portBut ..) .refl
        · exact .after (Module.setFrame_portBut ..) <| .after (Module.closeLine_portBut ..) .refl

theorem portLineEnd_portBut (p : PortId) (_tx : Nat) (pixels : List W16) (m : Module) :
    Agree (Module.portBut p.val) m (portLineEnd p _tx pixels m) := by
  unfold portLineEnd
  exact .ite (fun _ => .refl) fun _ => .after (Module.closeLine_portBut ..) .refl

theorem strobeEdge_portBut (p : PortId) (m : Module) : Agree (Module.portBut p.val) m (strobeEdge p m) := by
  unfold strobeEdge
  refine .ite (fun _ => .refl) fun _ => ?_
  dsimp only
  split
  · exact .after (Module.setFrame_portBut ..) <| .kept (Module.tick_keeps ..) (fun _ => rfl) .refl
  · split
    · exact .kept (Module.tick_keeps ..) (fun _ => rfl) .refl
    · refine .ite (fun _ => .kept (Module.tick_keeps ..) (fun _ => rfl) .refl) fun _ => ?_
      refine .kept (Module.adjustLane_keeps ..) (fun _ => rfl) ?_
      exact .after (Module.setPort_portBut ..) <| .kept (Module.tick_keeps ..) (fun _ => rfl) .refl

theorem trigFreeRunPulse_portBut (p : PortId) (m : Module) : Agree (Module.portBut p.val) m (trigFreeRunPulse p m) := by
  unfold trigFreeRunPulse
  refine .ite (fun _ => ?_) fun _ => .refl
  exact .after (Module.setPort_portBut ..) <| .kept (Module.tick_keeps ..) (fun _ => rfl) .refl

theorem trigNetTimePulse_portBut (p : PortId) (m : Module) : Agree (Module.portBut p.val) m (trigNetTimePulse p m) := by
  unfold trigNetTimePulse
  refine .ite (fun _ => .refl) fun _ => ?_
  refine .ite (fun _ => ?_) fun _ => .kept (Module.tick_keeps ..) (fun _ => rfl) .refl
  exact .after (Module.setPort_portBut ..) <| .kept (Module.tick_keeps ..) (fun _ => rfl) .refl

theorem trigPulseEnd_portBut (p : PortId) (m : Module) : Agree (Module.portBut p.val) m (trigPulseEnd p m) := by
  unfold trigPulseEnd
  exact .after (Module.setPort_portBut ..) .refl

end Sys2Proof.Machine
end

section
set_option Elab.async false
namespace Sys2Proof.Machine
open Sys2Proof

/-! ### What engine instructions leave alone (section 07) -/

/-- The registers that instructions of the task at e may write: its flags, its fault and the count of timeouts. -/
def engRegs (e : EngPos) : List Nat := [ENG_X_ARITH e.cl e.x, ENG_X_STAT e.cl e.x, ENG_X_CNT_FAULT e.cl e.x, SYN_CNT_TIMEOUT]

theorem Module.arith_regsBut (m : Module) (e : EngPos) (f : Nat) : Agree (Module.regsBut (engRegs e)) m (m.arith e f) :=
  m.wr_regsBut _ (by simp [engRegs])

theorem Module.faultCount_regsBut (m : Module) (e : EngPos) (code : Nat) : Agree (Module.regsBut (engRegs e)) m
    ((m.setFld (ENG_X_STAT e.cl e.x) ENG_X_STAT_last_fault code).count (ENG_X_CNT_FAULT e.cl e.x) 1) :=
  .after (Module.count_regsBut _ _ (by simp [engRegs])) (Module.setFld_regsBut _ _ _ (by simp [engRegs]))

theorem Module.abortTask_regsBut (m : Module) (e : EngPos) (a : Abort) :
    Agree (Module.regsBut (engRegs e)) m (m.abortTask e a) := by
  unfold Module.abortTask
  split
  · exact .refl
  · dsimp only
    refine .ite (fun _ => .refl) fun _ => .ite (fun _ => ?_) fun _ => .after (Module.faultCount_regsBut ..) ?_
    · exact .kept (Module.setEng_keeps ..) (fun _ => rfl) .refl
    · exact .kept (Module.setEng_keeps ..) (fun _ => rfl) .refl

theorem Module.engineFault_regsBut (m : Module) (e : EngPos) (code : Nat) :
    Agree (Module.regsBut (engRegs e)) m (m.engineFault e code) := by
  unfold Module.engineFault
  split
  · exact .refl
  · refine .ite (fun _ => .ite (fun _ => .refl) fun _ => .after (Module.faultCount_regsBut ..) ?_) fun _ =>
      .after (Module.abortTask_regsBut ..) .refl
    exact .kept (Module.putTask_keeps ..) (fun _ => rfl) .refl

theorem Module.instr_regsBut {b : Module} (m : Module) (e : EngPos) (w : Walker) (op : Nat) (f : Module → EngTask → WalkerSt
      → Nat → Module)
    (hb : Agree (Module.regsBut (engRegs e)) b m) (hf : ∀ x t s n, Agree (Module.regsBut (engRegs e)) b x → Agree (Module.regsBut (engRegs e)) b (f x t s n)) :
    Agree (Module.regsBut (engRegs e)) b (Module.instr m e w op f) := by
  unfold Module.instr
  dsimp only
  split
  · exact hb
  · exact .ite (fun _ => hb) fun _ => hf _ _ _ _ hb

theorem Module.execOnly_regsBut {b : Module} (m : Module) (e : EngPos) (w : Walker) (op : Nat) (f : Module → EngTask →
      WalkerSt → Nat → Module)
    (hb : Agree (Module.regsBut (engRegs e)) b m) (hf : ∀ x t s n, Agree (Module.regsBut (engRegs e)) b x → Agree (Module.regsBut (engRegs e)) b (f x t s n)) :
    Agree (Module.regsBut (engRegs e)) b (Module.execOnly m e w op f) := by
  unfold Module.execOnly
  refine Module.instr_regsBut (hb := hb) (hf := fun _ _ _ _ _ => ?_) ..
  split
  · exact .kept (Module.pass_keeps ..) (fun _ => rfl) (by assumption)
  · exact hf _ _ _ _ (by assumption)

theorem Module.barrier_regsBut {b : Module} (m : Module) (e : EngPos) (w : Walker) (op : Nat) (f : Module → EngTask →
      WalkerSt → Nat → Module)
    (hb : Agree (Module.regsBut (engRegs e)) b m) (hf : ∀ x t s n, Agree (Module.regsBut (engRegs e)) b x → Agree (Module.regsBut (engRegs e)) b (f x t s n)) :
    Agree (Module.regsBut (engRegs e)) b (Module.barrier m e w op f) := by
  unfold Module.barrier
  refine Module.instr_regsBut (hb := hb) (hf := fun _ _ _ _ _ => ?_) ..
  split
  · exact .ite (fun _ => .kept (Module.pass_keeps ..) (fun _ => rfl) (by assumption)) fun _ => by assumption
  · exact hf _ _ _ _ (by assumption)

theorem swait_regsBut (e : EngPos) (w : Walker) (m : Module) : Agree (Module.regsBut (engRegs e)) m (swait e w m) := by
  unfold swait
  refine Module.barrier_regsBut (hb := .refl) (hf := fun _ _ _ _ _ => ?_) ..
  refine .ite (fun _ => .after (Module.abortTask_regsBut ..) (by assumption)) fun _ => ?_
  exact .ite (fun _ => .kept (Module.pass_keeps ..) (fun _ => rfl) (by assumption)) fun _ => by assumption

theorem mm_regsBut (e : EngPos) (w : Walker) (m : Module) : Agree (Module.regsBut (engRegs e)) m (mm e w m) := by
  unfold mm
  refine Module.execOnly_regsBut (hb := .refl) (hf := fun _ _ _ _ _ => ?_) ..
  dsimp only
  split
  · assumption
  · split
    · exact .after (Module.abortTask_regsBut ..) (by assumption)
    · exact .kept (Module.pass_keeps ..) (fun _ => rfl) <| .after (Module.arith_regsBut ..) (by assumption)

theorem mmf_regsBut (e : EngPos) (w : Walker) (m : Module) : Agree (Module.regsBut (engRegs e)) m (mmf e w m) := by
  unfold mmf
  refine Module.execOnly_regsBut (hb := .refl) (hf := fun _ _ _ _ _ => ?_) ..
  dsimp only
  split
  · exact .after (Module.abortTask_regsBut ..) (by assumption)
  · refine .ite (fun _ => (by assumption)) fun _ => ?_
    refine .ite (fun _ => ?_) fun _ => ?_
    · split
      · assumption
      · exact .kept (Module.putTask_keeps ..) (fun _ => rfl) (by assumption)
    · split
      · exact .kept (Module.pass_keeps ..) (fun _ => rfl) <| .after (Module.arith_regsBut ..) (by assumption)
      · assumption

theorem rfu_regsBut (e : EngPos) (w : Walker) (m : Module) : Agree (Module.regsBut (engRegs e)) m (rfu e w m) := by
  unfold rfu
  refine Module.execOnly_regsBut (hb := .refl) (hf := fun _ _ _ _ _ => ?_) ..
  refine .ite (fun _ => .after (Module.abortTask_regsBut ..) (by assumption)) fun _ => ?_
  dsimp only
  split
  · assumption
  · exact .kept (Module.pass_keeps ..) (fun _ => rfl) <| .after (Module.arith_regsBut ..) (by assumption)

theorem engineWatchdog_regsBut (e : EngPos) (m : Module) : Agree (Module.regsBut (engRegs e)) m (engineWatchdog e m) := by
  unfold engineWatchdog
  dsimp only
  split
  · exact .refl
  · refine .ite (fun _ => .after (Module.abortTask_regsBut ..) .refl) fun _ => ?_
    exact .after (Module.engineFault_regsBut ..) .refl

theorem swaitTimeout_regsBut (e : EngPos) (m : Module) : Agree (Module.regsBut (engRegs e)) m (swaitTimeout e m) := by
  unfold swaitTimeout
  refine Module.instr_regsBut (hb := .refl) (hf := fun _ _ _ _ hx => ?_) ..
  refine .ite (fun _ => hx) fun _ => .after (Module.abortTask_regsBut ..) ?_
  exact .after (Module.count_regsBut _ _ (by simp [engRegs])) hx

/-- What an instruction does that works on its position alone. -/
structure AtPosition (e : EngPos) (m k : Module) : Prop where
  keeps : Keeps (Fld.regs ||| Fld.engines) m k
  engBut : Agree (Module.engBut e) m k
  regsBut : Agree (Module.regsBut (engRegs e)) m k

theorem AtPosition.of_engines {e : EngPos} {m k : Module} (h : Keeps Fld.engines m k) (h' : Agree (Module.engBut e) m k) :
    AtPosition e m k :=
  ⟨h.mono rfl, h', .kept h (fun _ => rfl) .refl⟩

theorem atPosition_of_positionOp {e : EngPos} {w : Walker} {c : Instr} (m : Module)
    (h : c = .engineNop e w ∨ c = .endOp e w ∨ c = .loop e w ∨ c = .setp e w ∨ c = .alu e w ∨ c = .slot e w ∨
      c = .wload e w ∨ c = .mm e w ∨ c = .mmf e w ∨ c = .rfu e w ∨ c = .tload e w ∨ c = .swait e w ∨ c = .swaitTimeout e ∨
      c = .fence e w ∨ c = .engineWatchdog e) : AtPosition e m (effect c m) := by
  rcases h with rfl | rfl | rfl | rfl | rfl | rfl | rfl | rfl | rfl | rfl | rfl | rfl | rfl | rfl | rfl
  · exact .of_engines (engineNop_keeps ..) (engineNop_engBut ..)
  · exact .of_engines (endOp_keeps ..) (endOp_engBut ..)
  · exact .of_engines (loop_keeps ..) (loop_engBut ..)
  · exact .of_engines (setp_keeps ..) (setp_engBut ..)
  · exact .of_engines (alu_keeps ..) (alu_engBut ..)
  · exact .of_engines (slotOp_keeps ..) (slotOp_engBut ..)
  · exact .of_engines (wload_keeps ..) (wload_engBut ..)
  · exact ⟨mm_keeps .., mm_engBut .., mm_regsBut ..⟩
  · exact ⟨mmf_keeps .., mmf_engBut .., mmf_regsBut ..⟩
  · exact ⟨rfu_keeps .., rfu_engBut .., rfu_regsBut ..⟩
  · exact .of_engines (tload_keeps ..) (tload_engBut ..)
  · exact ⟨swait_keeps .., swait_engBut .., swait_regsBut ..⟩
  · exact ⟨swaitTimeout_keeps .., swaitTimeout_engBut .., swaitTimeout_regsBut ..⟩
  · exact .of_engines (fence_keeps ..) (fence_engBut ..)
  · exact ⟨engineWatchdog_keeps .., engineWatchdog_engBut .., engineWatchdog_regsBut ..⟩

/-- The fields of memory-reading instructions: beside them these change the memory, reports and window traffic. -/
theorem engBut_of_memoryOp {e : EngPos} {w : Walker} {c : Instr} (m : Module)
    (h : c = .ldp e w ∨ c = .cancellationComplete e ∨ (∃ q, c = .tileArrived e q) ∨ (∃ l, c = .fetch e w l) ∨ c = .wb e w ∨
      c = .gate e w ∨ c = .conv2d e w ∨ c = .softmax e w ∨ c = .nms e w) :
    Keeps Fld.walk m (effect c m) ∧ Agree (Module.engBut e) m (effect c m) := by
  rcases h with rfl | rfl | ⟨q, rfl⟩ | ⟨l, rfl⟩ | rfl | rfl | rfl | rfl | rfl
  · exact ⟨(ldp_keeps ..).mono rfl, ldp_engBut ..⟩
  · exact ⟨(cancellationComplete_keeps ..).mono rfl, cancellationComplete_engBut ..⟩
  · exact ⟨(tileArrived_keeps ..).mono rfl, tileArrived_engBut ..⟩
  · exact ⟨(fetch_keeps ..).mono rfl, fetch_engBut ..⟩
  · exact ⟨(wb_keeps ..).mono rfl, wb_engBut ..⟩
  · exact ⟨(gate_keeps ..).mono rfl, gate_engBut ..⟩
  · exact ⟨(conv2d_keeps ..).mono rfl, conv2d_engBut ..⟩
  · exact ⟨(softmax_keeps ..).mono rfl, softmax_engBut ..⟩
  · exact ⟨(nms_keeps ..).mono rfl, nms_engBut ..⟩

/-- What holds of a state and of what each command makes of it holds of a state and the next one. -/
theorem exec_frame {P : Module → Module → Prop} {c : Instr} {s t : State} (h : exec c s = .next t) (hs : P s.toModule s.toModule)
    (he : P s.toModule (effect c s.toModule)) : P s.toModule t.toModule := by
  rcases exec_next h with rfl | rfl
  · exact hs
  · exact he
end Sys2Proof.Machine
namespace Sys2Proof
open Machine

/-- Settles O27: an instruction changes its position, the position's registers and, as it reaches memory, what its
transfers change, all of it in its footprint; the other positions show the same before and after. -/
theorem engineInstructionsFrame : Obligations.EngineInstructionsFrame := by
  unfold Obligations.EngineInstructionsFrame
  intro e w c s t h
  refine ⟨fun hc => ?_, fun hc => ?_, fun hc => ?_, fun hc => ?_⟩
  · obtain ⟨kept, others, regs⟩ : AtPosition e s.toModule t.toModule :=
      exec_frame h ⟨.refl, .refl, .refl⟩ (atPosition_of_positionOp _ hc)
    refine ⟨congrArg (fun k : Module => { k with regs := [], engines := [] }) kept,
      byte_congr (congrArg (·.mem) kept) (congrArg (·.gather) kept), fun o => ?_, fun f hf => others.eng hf,
      fun off ha hs hf ht => regs.rd (by simp [engRegs, ha, hs, hf, ht])⟩
    exact kept.view (Module.sync · o) fun _ => rfl
  · subst hc
    have kept : Keeps (Fld.regs ||| Fld.engines ||| Fld.syncs) s.toModule t.toModule :=
      exec_frame h .refl (ssig_keeps ..)
    have others : Agree (Module.engBut e) s.toModule t.toModule := exec_frame h .refl (ssig_engBut ..)
    exact ⟨congrArg (fun k : Module => { k with regs := [], engines := [], syncs := [] }) kept, fun f hf => others.eng hf⟩
  · have kept : Keeps (Fld.all - Fld.store) s.toModule t.toModule := by
      refine (exec_keeps h).mono ?_
      rcases hc with rfl | rfl | ⟨q, rfl⟩ <;> dsimp only [footprint] <;> decide
    exact byte_congr (congrArg (·.mem) kept) (congrArg (·.gather) kept)
  · obtain ⟨kept, others⟩ : Keeps Fld.walk s.toModule t.toModule ∧ Agree (Module.engBut e) s.toModule t.toModule :=
      exec_frame (P := fun m k => Keeps Fld.walk m k ∧ Agree (Module.engBut e) m k) h ⟨.refl, .refl⟩ (engBut_of_memoryOp _ hc)
    exact ⟨fun o => kept.view (Module.sync · o) fun _ => rfl, fun f hf => others.eng hf, congrArg (·.regions) kept,
      congrArg (·.streams) kept, congrArg (·.ports) kept, congrArg (·.dma) kept, congrArg (·.packages) kept,
      congrArg (·.otp) kept, congrArg (·.flash) kept⟩

end Sys2Proof
end

section
set_option Elab.async false
namespace Sys2Proof.Machine
open Sys2Proof

/-! ### What the events of a camera port leave alone (section 02) -/

/-- What a frame event may change: its port, contexts and calibration runs, frame numbers, streams and the memory that a
calibration takes its buffer from. -/
def Fld.frameEvent : Nat := write ||| camera ||| seqNext ||| seqLast ||| streams

theorem frameEvent_effect {p : PortId} {c : Instr} (m : Module)
    (h : (∃ a b, c = .frameStart p a b) ∨ (∃ a b, c = .frameEnd p a b) ∨ (∃ a b, c = .pclkLossTimeout p a b) ∨
      (∃ a b, c = .frameEndTimeout p a b)) :
    Keeps Fld.frameEvent m (effect c m) ∧ Agree (Module.portBut p) m (effect c m) := by
  rcases h with ⟨a, b, rfl⟩ | ⟨a, b, rfl⟩ | ⟨a, b, rfl⟩ | ⟨a, b, rfl⟩
  · exact ⟨(frameStart_keeps ..).mono rfl, frameStart_portBut ..⟩
  · exact ⟨(frameEnd_keeps ..).mono rfl, frameEnd_portBut ..⟩
  · exact ⟨(pclkLossTimeout_keeps ..).mono rfl, pclkLossTimeout_portBut ..⟩
  · exact ⟨(frameEndTimeout_keeps ..).mono rfl, frameEndTimeout_portBut ..⟩

/-- What a line, trigger or bus event may change. -/
def Fld.lineEvent : Nat := event ||| ports ||| ctxs

theorem lineEvent_effect {p : PortId} {c : Instr} (m : Module)
    (h : (∃ a b d, c = .portLineStart p a b d) ∨ (∃ a b, c = .portLineEnd p a b) ∨ c = .strobeEdge p ∨ c = .rstLowExpiry p ∨
      c = .rstSettleExpiry p ∨ c = .trigFreeRunPulse p ∨ c = .trigNetTimePulse p ∨ c = .trigPulseEnd p ∨
      c = .sensorTransactionStart p ∨ (∃ a b, c = .sensorTransactionDone p a b) ∨ c = .sensorBusTimeout p ∨
      c = .inBandInterrupt p) :
    Keeps Fld.lineEvent m (effect c m) ∧ Agree (Module.portBut p) m (effect c m) := by
  rcases h with ⟨a, b, d, rfl⟩ | ⟨a, b, rfl⟩ | rfl | rfl | rfl | rfl | rfl | rfl | rfl | ⟨a, b, rfl⟩ | rfl | rfl
  · exact ⟨(portLineStart_keeps ..).mono rfl, portLineStart_portBut ..⟩
  · exact ⟨(portLineEnd_keeps p a b m).mono rfl, portLineEnd_portBut p a b m⟩
  · exact ⟨(strobeEdge_keeps ..).mono rfl, strobeEdge_portBut ..⟩
  · exact ⟨(rstLowExpiry_keeps ..).mono rfl, rstLowExpiry_portBut ..⟩
  · exact ⟨(rstSettleExpiry_keeps ..).mono rfl, rstSettleExpiry_portBut ..⟩
  · exact ⟨(trigFreeRunPulse_keeps ..).mono rfl, trigFreeRunPulse_portBut ..⟩
  · exact ⟨(trigNetTimePulse_keeps ..).mono rfl, trigNetTimePulse_portBut ..⟩
  · exact ⟨(trigPulseEnd_keeps ..).mono rfl, trigPulseEnd_portBut ..⟩
  · exact ⟨(sensorTransactionStart_keeps ..).mono rfl, sensorTransactionStart_portBut ..⟩
  · exact ⟨(sensorTransactionDone_keeps ..).mono rfl, sensorTransactionDone_portBut ..⟩
  · exact ⟨(sensorBusTimeout_keeps ..).mono rfl, sensorBusTimeout_portBut ..⟩
  · exact ⟨(inBandInterrupt_keeps ..).mono rfl, .kept (inBandInterrupt_keeps ..) (fun _ => rfl) .refl⟩
end Sys2Proof.Machine
namespace Sys2Proof
open Machine

/-- Settles O15: the footprints of a port's events name what they may change, and every port but theirs shows the same
before and after. -/
theorem cameraEventsFrame : Obligations.CameraEventsFrame := by
  unfold Obligations.CameraEventsFrame
  intro p c s t h
  refine ⟨fun hc => ?_, fun hc => ?_⟩
  · obtain ⟨kept, others⟩ : Keeps Fld.frameEvent s.toModule t.toModule ∧ Agree (Module.portBut p) s.toModule t.toModule :=
      exec_frame (P := fun m k => Keeps Fld.frameEvent m k ∧ Agree (Module.portBut p) m k) h ⟨.refl, .refl⟩
        (frameEvent_effect _ hc)
    exact ⟨congrArg (fun k : Module => { k.core with
      ports := [], ctxs := [], cals := [], seqNext := [], seqLast := [], streams := [], mem := []
      gather := [], poison := [], ueSectors := [], latent := [] }) kept, fun q hq => others.port hq⟩
  · obtain ⟨kept, others⟩ : Keeps Fld.lineEvent s.toModule t.toModule ∧ Agree (Module.portBut p) s.toModule t.toModule :=
      exec_frame (P := fun m k => Keeps Fld.lineEvent m k ∧ Agree (Module.portBut p) m k) h ⟨.refl, .refl⟩
        (lineEvent_effect _ hc)
    exact ⟨congrArg (fun k : Module => { k.core with ports := [], ctxs := [] }) kept,
      byte_congr (congrArg (·.mem) kept) (congrArg (·.gather) kept), fun q hq => others.port hq⟩

end Sys2Proof
end

section
set_option Elab.async false
/-!
What a command answers, and the registers that a report leaves: every register but the event number, the journal's numbers
and the fault counters.
-/
namespace Sys2Proof.Machine
open Sys2Proof

/-- A command that runs where the module is not in OFF answers with what it makes of the module. -/
theorem Answers.of_ok {i : Instr} {s : State} {m : Module} {Q : Module → Prop} (hboot : s.boot ≠ .off)
    (h : exec i s = ok s m) (hQ : Q m) : Answers i s Q := ⟨m, h.trans (ok_on _ _ hboot), hQ⟩

/-! ### Registers beside the reports -/

/-- The registers other than those listed and those that reporting may change. -/
def Module.unreported (offs : List Nat) : Module → Nat → Word := Module.regsBut (offs ++ reportRegs)

section
variable {offs : List Nat} {b m k : Module}

theorem Agree.unreported_rd {off : Nat} (h : Agree (Module.unreported offs) m k) (hoff : off ∉ offs)
    (hrep : off ∉ reportRegs) : k.rd off = m.rd off := Agree.rd h (by simp [hoff, hrep])

theorem Module.regsBut_congr {l : Module} (h : l.regs = k.regs) : Module.regsBut offs l = Module.regsBut offs k := by
  have hrd : l.rd = k.rd := funext fun off => congrArg (fun r => SMap.get (regReset off) r off) h
  unfold Module.regsBut
  rw [hrd]

theorem Agree.sameRegs {l : Module} (h : Agree (Module.regsBut offs) b k)
    (he : l.doubleRecord = k.doubleRecord ∧ l.regs = k.regs := by constructor; dsimp only; rfl) :
    Agree (Module.regsBut offs) b l := Eq.trans (Module.regsBut_congr he.2) h

theorem Agree.regsBut_mono {more : List Nat} (h : Agree (Module.regsBut offs) m k) (hsub : offs ⊆ more) :
    Agree (Module.regsBut more) m k := by
  funext o
  unfold Module.regsBut
  split
  · rfl
  · exact h.rd fun ho => ‹o ∉ more› (hsub ho)

theorem Module.wr_unreported (m : Module) {off : Nat} (v : Word) (h : off ∈ offs) :
    Agree (Module.unreported offs) m (m.wr off v) := m.wr_regsBut v (List.mem_append_left _ h)

theorem Module.wr_report (m : Module) {off : Nat} (v : Word) (h : off ∈ reportRegs) :
    Agree (Module.unreported offs) m (m.wr off v) := m.wr_regsBut v (List.mem_append_right _ h)

theorem Module.setFld_unreported (m : Module) {off : Nat} (f : Bits) (v : Nat) (h : off ∈ offs) :
    Agree (Module.unreported offs) m (m.setFld off f v) := m.wr_unreported _ h

theorem Module.satAdd_unreported (m : Module) {off : Nat} (f : Bits) (n : Nat) (h : off ∈ offs) :
    Agree (Module.unreported offs) m (m.satAdd off f n) := m.wr_unreported _ h

theorem Module.count_unreported (m : Module) {off : Nat} (n : Nat) (h : off ∈ offs) :
    Agree (Module.unreported offs) m (m.count off n) := m.wr_unreported _ h

theorem Module.makeEvent_unreported (m : Module) (code ctx : Nat) (seq : Word) (p0 p1 p2 p3 : Nat) :
    Agree (Module.unreported offs) m (m.makeEvent code ctx seq p0 p1 p2 p3).2 := by
  unfold Module.makeEvent
  dsimp only
  exact .after (Module.wr_report _ _ (by decide)) <| .sameRegs <| .kept (Module.tick_keeps ..) (fun _ => rfl) .refl

theorem Module.writeLost_unreported (m : Module) (n : Nat) : Agree (Module.unreported offs) m (m.writeLost n) := by
  unfold Module.writeLost
  dsimp only
  split
  · exact .refl
  · refine .ite (fun _ => .refl) fun _ => ?_
    exact .kept (Module.writeEvent_keeps ..) (fun _ => rfl) <| .sameRegs <| .after (Module.makeEvent_unreported ..) .refl

theorem Module.writeAllLost_unreported (m : Module) : Agree (Module.unreported offs) m m.writeAllLost := by
  unfold Module.writeAllLost
  exact .foldl (fun _ _ => Module.writeLost_unreported ..) _ .refl

theorem Module.raiseSeq_unreported (m : Module) (code ctx : Nat) (seq : Word) (p0 p1 p2 p3 : Nat) :
    Agree (Module.unreported offs) m (m.raiseSeq code ctx seq p0 p1 p2 p3) := by
  unfold Module.raiseSeq
  dsimp only
  exact .kept (Module.deliver_keeps ..) (fun _ => rfl) <| .after (Module.makeEvent_unreported ..) <|
    .after (Module.writeAllLost_unreported ..) .refl

theorem Module.raise_unreported (m : Module) (code p0 p1 p2 p3 : Nat) :
    Agree (Module.unreported offs) m (m.raise code p0 p1 p2 p3) := m.raiseSeq_unreported ..

theorem Module.raiseCtx_unreported (m : Module) (code c p0 p1 p2 p3 : Nat) :
    Agree (Module.unreported offs) m (m.raiseCtx code c p0 p1 p2 p3) := m.raiseSeq_unreported ..

theorem fltCnt_mem_reportRegs {i : Nat} (h : i < 16) : SYS_FLT_CNT i ∈ reportRegs :=
  List.mem_append_right _ (List.mem_map_of_mem (List.mem_range.2 h))

theorem Module.countFault_unreported (m : Module) {cls : Nat} (h : cls ≤ 16) :
    Agree (Module.unreported offs) m (m.countFault cls) :=
  m.wr_report _ (fltCnt_mem_reportRegs (by omega))

theorem Module.faultSeq_unreported (m : Module) {cls : Nat} (h : cls ≤ 16) (code ctx : Nat) (seq : Word)
    (p0 p1 p2 p3 : Nat) : Agree (Module.unreported offs) m (m.faultSeq cls code ctx seq p0 p1 p2 p3) := by
  unfold Module.faultSeq
  dsimp only
  exact .kept (Module.deliver_keeps ..) (fun _ => rfl) <| .sameRegs <| .after (Module.makeEvent_unreported ..) <|
    .after (Module.writeAllLost_unreported ..) <| .after (Module.countFault_unreported _ h) .refl

theorem Module.fault_unreported (m : Module) {cls : Nat} (h : cls ≤ 16) (code p0 p1 p2 p3 : Nat) :
    Agree (Module.unreported offs) m (m.fault cls code p0 p1 p2 p3) := m.faultSeq_unreported h ..

theorem Module.silentFault_unreported (m : Module) {cls : Nat} (h : cls ≤ 16) :
    Agree (Module.unreported offs) m (m.silentFault cls) := by
  unfold Module.silentFault
  dsimp only
  exact .sameRegs <| .kept (Module.tick_keeps ..) (fun _ => rfl) <| .after (Module.countFault_unreported _ h) .refl

theorem Module.storeFlash_unreported (m : Module) (f : Flash → Flash) :
    Agree (Module.unreported offs) m (m.storeFlash f) := by
  unfold Module.storeFlash
  dsimp only
  refine .ite (fun _ => ?_) fun _ => ?_
  · exact .after (Module.silentFault_unreported _ (by decide)) <| .kept (Module.pick_keeps ..) (fun _ => rfl) .refl
  · exact .sameRegs <| .kept (Module.pick_keeps ..) (fun _ => rfl) .refl

theorem Module.journalEntry_unreported (m : Module) (kind : Nat) (source : Fin 4) (session : W16) (object old new : Nat) :
    Agree (Module.unreported offs) m (m.journalEntry kind source session object old new) := by
  unfold Module.journalEntry
  dsimp only
  exact .after (Module.wr_report _ _ (by decide)) <| .after (Module.wr_report _ _ (by decide)) <| .sameRegs <|
    .kept (Module.tick_keeps ..) (fun _ => rfl) .refl

theorem Module.journalWrite_unreported (m : Module) (src : Option (Fin 4 × W16)) (r : RegRow) (off : Nat) (old new : Word) :
    Agree (Module.unreported offs) m (m.journalWrite src r off old new) := by
  unfold Module.journalWrite
  split
  · exact .refl
  · exact .ite (fun _ => .refl) fun _ => .after (Module.journalEntry_unreported ..) .refl
end

/-- What reporting may change beside registers, and whether a system reset has been announced. -/
def Fld.besideRegs : Nat :=
  regs ||| now ||| draws ||| busStatus ||| busValue ||| outbox ||| evNext ||| trace ||| heldEvents ||| journal ||| sessions |||
    winOut ||| flogPending ||| cbNext ||| notReadyAt ||| transition

/-- A command that changes the registers listed, and beside them only what reporting may change. -/
theorem onlyRegs_of {s : State} {m : Module} {offs : List Nat} {G : Nat} (hr : Agree (Module.unreported offs) s.toModule m)
    (hk : Keeps G s.toModule m) (hG : G &&& Fld.besideRegs = G) : OnlyRegs s m offs :=
  ⟨fun _ h h' => hr.unreported_rd h h',
    congrArg (fun x : Module => { x.core with transition := none }) (hk.mono hG)⟩

end Sys2Proof.Machine
end

section
set_option Elab.async false
/-!
Register accesses: where a register lies, and what becomes of an admitted access by the outcome of the register's own rule.
-/
namespace Sys2Proof.Machine
open Sys2Proof

/-- The register at `off` is the one of row `r` with indices i and j, as a test. -/
def regAt (off : Nat) (r : RegRow) (i j : Nat) : Bool :=
  off % 4 = 0 && off < 0x800000 && findReg off = some (r, i, j)

section
variable {s : State} {m k : Module} {src : BusSource} {off i j st : Nat} {v : Word} {r : RegRow}

theorem findReg_of_regAt (h : regAt off r i j = true) : findReg off = some (r, i, j) := by
  simp only [regAt, Bool.and_eq_true, decide_eq_true_eq] at h
  exact h.2

/-- The row may hold an offset of [lo, hi). -/
def rowMeets (lo hi : Nat) (r : RegRow) : Bool := r.s1 = 0 || (r.base < hi && lo < r.base + r.s1 * r.c1)

theorem at?_of_not_meets {lo hi : Nat} (h : rowMeets lo hi r = false) (hlo : lo ≤ off) (hhi : off < hi) :
    r.at? off = none := by
  simp only [rowMeets, Bool.or_eq_false_iff, Bool.and_eq_false_iff, decide_eq_false_iff_not, Nat.not_lt] at h
  unfold RegRow.at?
  split
  · rfl
  · have hbase : r.base + r.s1 * r.c1 ≤ off := by omega
    have hrow : ¬ (off - r.base) / r.s1 < r.c1 :=
      Nat.not_lt.2 ((Nat.le_div_iff_mul_le (Nat.pos_of_ne_zero h.1)).2 (by rw [Nat.mul_comm]; omega))
    simp [hrow]

/-- The register at `off` of [lo, hi), sought in the rows that meet the range, is the one of row `r`, as a test. -/
def regWithin (lo hi off : Nat) (r : RegRow) (i j : Nat) : Bool :=
  off % 4 = 0 && off < 0x800000 && lo ≤ off && off < hi &&
    (regRows.filter (rowMeets lo hi)).findSome? (fun r => (r.at? off).map fun ij => (r, ij.1, ij.2)) = some (r, i, j)

theorem regAt_of_regWithin {lo hi : Nat} (h : regWithin lo hi off r i j = true) : regAt off r i j = true := by
  simp only [regWithin, Bool.and_eq_true, decide_eq_true_eq] at h
  obtain ⟨⟨⟨⟨hal, hin⟩, hlo⟩, hhi⟩, hfind⟩ := h
  have hskip (l : List RegRow) : (l.filter (rowMeets lo hi)).findSome? (fun r => (r.at? off).map fun ij => (r, ij.1, ij.2)) =
      l.findSome? fun r => (r.at? off).map fun ij => (r, ij.1, ij.2) := by
    induction l with
    | nil => rfl
    | cons x l ih =>
      rw [List.filter_cons]
      split
      · rw [List.findSome?_cons, List.findSome?_cons, ih]
      · next hx => rw [ih, List.findSome?_cons, at?_of_not_meets (r := x) (by simpa using hx) hlo hhi]; rfl
  unfold regAt findReg
  rw [← hskip, hfind]
  simp [hal, hin]

theorem busCheck_of_regAt (h : regAt off r i j = true) (hon : m.blockOn off = true) : m.busCheck off 4 = none := by
  simp only [regAt, Bool.and_eq_true, decide_eq_true_eq] at h
  obtain ⟨⟨hal, hin⟩, -⟩ := h
  simp [Module.busCheck, hal, hon, Nat.not_le.2 hin]

/-- A register without set-up fields is never held by an admitted stream. -/
theorem Module.setupHeld_of_plain (h : r.writable.any (fun f => f.kind = .setup) = false) (old new : Word) :
    m.setupHeld r i old new = false := by
  simp [Module.setupHeld, h]

/-- A field whose range is all its bits hold takes any value. -/
theorem FieldRow.takes_of_full {f : FieldRow} (hlo : f.lo = 0) (hhi : f.hi = 2 ^ (f.bits.hi - f.bits.lo + 1) - 1) (v : Word) :
    f.takes v = true := by
  have := f.bits.of_lt v
  unfold FieldRow.takes
  split <;> simp [hlo, hhi] <;> omega

theorem Module.settleMove_of_same {before : Option Transition} (h : m.transition = before) : m.settleMove before = m := by
  unfold Module.settleMove
  split
  · rfl
  · next t ht => simp [← h, ht]

/-- The value that the answer to a write carries. -/
def Module.written (k : Module) (r : RegRow) (i off : Nat) (v : Word) : Word :=
  if r.base = FE_TBL_DATA 0 || r.base = NIS_TBL_DATA 0 then v else k.readAs r i off

/-- The answer to a write that its register's rule has made of m the state k. -/
def Module.writeAnswer (m k : Module) (src : BusSource) (r : RegRow) (i off : Nat) (v : Word) : Module :=
  (k.journalWrite (m.journalSource src) r off (m.readAs r i off) (k.written r i off v ||| r.woBits v)).busAnswer stOk
    (k.written r i off v)

theorem Module.busWrite_eq (hat : regAt off r i j = true) (hon : m.blockOn off = true)
    (htakes : r.fields.all (·.takes v) = true) (hheld : m.setupHeld r i (m.rd off) (r.merge (m.rd off) v) = false)
    (hw : r.writable ≠ []) (hwr : m.writeReg src r i j off v (r.merge (m.rd off) v) = (st, k)) :
    m.busWrite src off 4 v = if st ≠ stOk then k.busAnswer st (k.readAs r i off) else m.writeAnswer k src r i off v := by
  simp only [Module.busWrite, busCheck_of_regAt hat hon, findReg_of_regAt hat, htakes, hheld, hwr, Module.writeAnswer,
    Module.written]
  simp [hw]

/-- A write that its register's rule carries out. -/
theorem Module.accessWrite_done (hgate : m.busGate src true off = .pass) (hat : regAt off r i j = true)
    (hon : m.blockOn off = true) (htakes : r.fields.all (·.takes v) = true)
    (hheld : m.setupHeld r i (m.rd off) (r.merge (m.rd off) v) = false) (hw : r.writable ≠ [])
    (hwr : m.writeReg src r i j off v (r.merge (m.rd off) v) = (stOk, k)) :
    m.accessWrite src off 4 v = (m.writeAnswer k src r i off v).settleMove m.transition := by
  simp only [Module.accessWrite, hgate, Module.busWrite_eq hat hon htakes hheld hw hwr]
  rfl

/-- A write that its register's rule refuses. -/
theorem Module.accessWrite_turned (hgate : m.busGate src true off = .pass) (hat : regAt off r i j = true)
    (hon : m.blockOn off = true) (htakes : r.fields.all (·.takes v) = true)
    (hheld : m.setupHeld r i (m.rd off) (r.merge (m.rd off) v) = false) (hw : r.writable ≠ [])
    (hwr : m.writeReg src r i j off v (r.merge (m.rd off) v) = (st, k)) (hst : st ≠ stOk) (hk : k.transition = m.transition) :
    m.accessWrite src off 4 v = k.busAnswer st (k.readAs r i off) := by
  simp only [Module.accessWrite, hgate, Module.busWrite_eq hat hon htakes hheld hw hwr, if_pos hst]
  exact Module.settleMove_of_same hk

/-- A value that the register does not take, or that an admitted stream holds. -/
theorem Module.accessWrite_refused (hgate : m.busGate src true off = .pass) (hat : regAt off r i j = true)
    (hon : m.blockOn off = true)
    (hno : r.fields.all (·.takes v) = false ∨ m.setupHeld r i (m.rd off) (r.merge (m.rd off) v) = true) :
    m.accessWrite src off 4 v = m.busAnswer stRefused (m.readAs r i off) := by
  have h : (!(r.fields.all (·.takes v)) || m.setupHeld r i (m.rd off) (r.merge (m.rd off) v)) = true := by
    rcases hno with h | h <;> simp [h]
  simp only [Module.accessWrite, hgate, Module.busWrite, busCheck_of_regAt hat hon, findReg_of_regAt hat, h, if_true]
  exact Module.settleMove_of_same rfl

theorem Module.journalWrite_transition (js : Option (Fin 4 × W16)) (old new : Word) :
    (k.journalWrite js r off old new).transition = k.transition :=
  (Module.journalWrite_keeps k js r off old new).view (·.transition) fun _ => rfl

theorem Module.writeAnswer_keeps :
    Keeps (Fld.regs ||| Fld.now ||| Fld.draws ||| Fld.journal ||| Fld.bus) k (m.writeAnswer k src r i off v) := by
  unfold Module.writeAnswer
  exact .after (Module.busAnswer_keeps ..) rfl <| .after (Module.journalWrite_keeps ..) rfl .refl

theorem Module.writeAnswer_unreported {offs : List Nat} :
    Agree (Module.unreported offs) k (m.writeAnswer k src r i off v) := by
  unfold Module.writeAnswer
  exact .kept (Module.busAnswer_keeps ..) (fun _ => rfl) <| .after (Module.journalWrite_unreported ..) .refl

theorem Module.settleMove_writeAnswer (hk : k.transition = m.transition) :
    (m.writeAnswer k src r i off v).settleMove m.transition = m.writeAnswer k src r i off v :=
  Module.settleMove_of_same <| (Module.writeAnswer_keeps.view (·.transition) fun _ => rfl).trans hk

@[simp] theorem Module.writeAnswer_busStatus : (m.writeAnswer k src r i off v).busStatus = 0 := rfl
@[simp] theorem Module.writeAnswer_busValue : (m.writeAnswer k src r i off v).busValue = k.written r i off v := rfl

theorem Module.journalWrite_regsBut (js : Option (Fin 4 × W16)) (old new : Word) :
    Agree (Module.regsBut [JNL_NEXT, JNL_OLDEST]) k (k.journalWrite js r off old new) := by
  unfold Module.journalWrite
  split
  · exact .refl
  · refine .ite (fun _ => .refl) fun _ => ?_
    unfold Module.journalEntry
    exact .after (Module.wr_regsBut _ _ (by decide)) <| .after (Module.wr_regsBut _ _ (by decide)) <| .sameRegs <|
      .kept (Module.tick_keeps ..) (fun _ => rfl) .refl

theorem Module.writeAnswer_rd {o : Nat} (ho : o ∉ [JNL_NEXT, JNL_OLDEST]) : (m.writeAnswer k src r i off v).rd o = k.rd o :=
  (Module.journalWrite_regsBut ..).rd ho

/-- An admitted write that changes the registers listed and no state beside registers. -/
theorem Admits.writes {c : Instr} {offs : List Nat} {G : Nat} {Q : Module → Prop} (ha : Admits s src true off)
    (hc : exec c s = ok s (s.accessWrite src off 4 v)) (hat : regAt off r i j = true)
    (htakes : r.fields.all (·.takes v) = true)
    (hheld : s.setupHeld r i (s.rd off) (r.merge (s.rd off) v) = false) (hw : r.writable ≠ [])
    (hwr : s.writeReg src r i j off v (r.merge (s.rd off) v) = (stOk, k)) (hr : Agree (Module.unreported offs) s.toModule k)
    (hk : Keeps G s.toModule k) (hG : G &&& Fld.besideRegs = G) (ht : k.transition = s.transition)
    (hQ : ∀ m : Module, m = s.writeAnswer k src r i off v → OnlyRegs s m offs → Q m) : Answers c s Q := by
  obtain ⟨hboot, -, hgate, hon⟩ := ha
  refine .of_ok hboot (hc.trans (congrArg _ (Module.accessWrite_done hgate hat hon htakes hheld hw hwr))) ?_
  rw [Module.settleMove_writeAnswer ht]
  exact hQ _ rfl <| onlyRegs_of (G := Fld.besideRegs) (.after Module.writeAnswer_unreported hr)
    (.after Module.writeAnswer_keeps rfl (hk.mono hG)) rfl

/-- An answer that changes nothing else. -/
theorem onlyRegs_busAnswer (s : State) (st : Nat) (w : Word) : OnlyRegs s (s.busAnswer st w) [] :=
  onlyRegs_of (.kept (Module.busAnswer_keeps ..) (fun _ => rfl) .refl) (Module.busAnswer_keeps ..) (by decide)
end

/-! ### Which rule a write comes to -/

section
variable (m : Module) (src : BusSource) {off : Nat} (r : RegRow) (i j : Nat) (v new : Word)

theorem Module.writeReg_sys (h : off < 0x010000 ∨ 0x780000 ≤ off) :
    m.writeReg src r i j off v new = m.writeSys src r off v new := by
  unfold Module.writeReg
  rcases h with h | h
  · rw [if_pos h]
  · rw [if_neg (by omega), if_neg (by omega), if_neg (by omega), if_neg (by omega), if_neg (by omega), if_neg (by omega),
      if_neg (by omega)]

theorem Module.writeReg_cap (h : 0x010000 ≤ off) (h' : off < 0x040000) :
    m.writeReg src r i j off v new = m.writeCap r i off v new := by
  unfold Module.writeReg
  rw [if_neg (by omega), if_pos h']

theorem Module.writeReg_ctx (h : 0x040000 ≤ off) (h' : off < 0x0A0000) :
    m.writeReg src r i j off v new = m.writeCtx r i j off v new := by
  unfold Module.writeReg
  rw [if_neg (by omega), if_neg (by omega), if_pos h']

theorem Module.writeReg_core (h : 0x0A0000 ≤ off) (h' : off < 0x600000) :
    m.writeReg src r i j off v new = m.writeCore r i j off v new := by
  unfold Module.writeReg
  rw [if_neg (by omega), if_neg (by omega), if_neg (by omega), if_pos h']

theorem Module.writeReg_net (h : 0x600000 ≤ off) (h' : off < 0x680000) :
    m.writeReg src r i j off v new = m.writeNet r i off v new := by
  unfold Module.writeReg
  rw [if_neg (by omega), if_neg (by omega), if_neg (by omega), if_neg (by omega), if_pos h']

theorem Module.writeReg_ywp (h : 0x680000 ≤ off) (h' : off < 0x700000) :
    m.writeReg src r i j off v new = m.writeYwp r i off v new := by
  unfold Module.writeReg
  rw [if_neg (by omega), if_neg (by omega), if_neg (by omega), if_neg (by omega), if_neg (by omega), if_pos h']

theorem Module.writeReg_pwr (h : 0x700000 ≤ off) (h' : off < 0x780000) :
    m.writeReg src r i j off v new = m.writePwr r off v new := by
  unfold Module.writeReg
  rw [if_neg (by omega), if_neg (by omega), if_neg (by omega), if_neg (by omega), if_neg (by omega), if_neg (by omega),
    if_pos h']
end

/-! ### The counter-clear registers -/

/-- The row of a counter-clear register: one WO field that takes any value. -/
def clearRow (base s1 c1 s2 c2 : Nat) (b : Bits) : RegRow :=
  ⟨base, s1, c1, s2, c2, [⟨b, .wo, 0, 0, 2 ^ (b.hi - b.lo + 1) - 1, .plain⟩]⟩

/-- The registers of n counters from base on. -/
def countersAt (base n : Nat) : List Nat := (List.range n).map fun k => base + 4 * k

theorem mem_countersAt {base n o : Nat} : o ∈ countersAt base n ↔ ∃ k < n, base + 4 * k = o := by
  simp [countersAt]

theorem Module.clearCounters_succ (m : Module) (base n mask : Nat) :
    m.clearCounters base (n + 1) mask =
      if mask.testBit n then (m.clearCounters base n mask).wr (base + 4 * n) 0 else m.clearCounters base n mask := by
  simp [Module.clearCounters, List.range_succ]

theorem Module.clearCounters_regsBut (m : Module) (base n mask : Nat) :
    Agree (Module.regsBut (countersAt base n)) m (m.clearCounters base n mask) := by
  unfold Module.clearCounters
  refine List.foldlRecOn (motive := fun k => Agree (Module.regsBut (countersAt base n)) m k) _ _ .refl fun k hk i hi => ?_
  exact .ite (fun _ => .after (Module.wr_regsBut _ _ (mem_countersAt.2 ⟨i, by simpa using hi, rfl⟩)) hk) fun _ => hk

theorem Module.clearCounters_rd (m : Module) (base mask : Nat) {n k : Nat} (hk : k < n) :
    (m.clearCounters base n mask).rd (base + 4 * k) = if mask.testBit k then 0 else m.rd (base + 4 * k) := by
  induction n with
  | zero => exact absurd hk (Nat.not_lt_zero _)
  | succ n ih =>
    have hne (h : k ≠ n) : base + 4 * k ≠ base + 4 * n := by omega
    rw [Module.clearCounters_succ]
    rcases Nat.lt_succ_iff_lt_or_eq.1 hk with hlt | rfl
    · split
      · rw [Module.rd_wr_ne _ _ (hne (Nat.ne_of_lt hlt)), ih hlt]
      · exact ih hlt
    · have hk : (m.clearCounters base k mask).rd (base + 4 * k) = m.rd (base + 4 * k) :=
        (m.clearCounters_regsBut base k mask).rd fun h => by
          obtain ⟨i, hi, ho⟩ := mem_countersAt.1 h
          omega
      split
      · exact Module.rd_wr_same ..
      · exact hk

section
variable {s : State} {c : Instr} {src : BusSource} {off base s1 c1 s2 c2 i j first n : Nat} {b : Bits} {mask : Word}

/-- A write of a clear register that comes to its rule clears the counters from `first` on. -/
theorem clearsCounters_of (ha : Admits s src true off) (hc : exec c s = ok s (s.accessWrite src off 4 mask))
    (hat : regAt off (clearRow base s1 c1 s2 c2 b) i j = true)
    (hwr : ∀ new, s.writeReg src (clearRow base s1 c1 s2 c2 b) i j off mask new =
      (stOk, s.clearCounters first n mask.toNat))
    (hbelow : first + 4 * n ≤ JNL_NEXT) : ClearsCounters c s first n mask := by
  refine ha.writes (offs := countersAt first n) (G := Fld.regs) hc hat ?_ (Module.setupHeld_of_plain rfl _ _)
    (List.cons_ne_nil _ _) (hwr _) ?_ (Module.clearCounters_keeps ..) (by decide)
    ((Module.clearCounters_keeps ..).view (·.transition) fun _ => rfl) ?_
  · simp only [clearRow, List.all_cons, List.all_nil, Bool.and_true]
    exact FieldRow.takes_of_full rfl rfl _
  · exact (Module.clearCounters_regsBut ..).regsBut_mono (List.subset_append_left _ _)
  · rintro m rfl honly
    refine ⟨rfl, fun k hk => ?_, honly⟩
    have hlt : first + 4 * k < JNL_NEXT ∧ JNL_NEXT < JNL_OLDEST := ⟨by omega, by decide⟩
    rw [Module.writeAnswer_rd (by simp only [List.mem_cons, List.not_mem_nil, or_false, not_or]; omega), Module.clearCounters_rd _ _ _ hk]
    rfl
end

theorem regAt_CAP_CNT_CLR : ∀ p : Fin 36,
    regAt (CAP_CNT_CLR p) (clearRow (CAP_CNT_CLR 0) 0x1000 36 4 1 CAP_CNT_CLR_clear) p 0 = true := by decide +kernel

theorem regAt_CAL_CNT_CLR : ∀ c : Fin 36,
    regAt (CAL_CNT_CLR c) (clearRow (CAL_CNT_CLR 0) 0x100 36 4 1 CAL_CNT_CLR_clear) c 0 = true := by decide +kernel

theorem regAt_ENG_X_CNT_CLR (cl : Fin 8) (x : Fin 17) :
    regAt (ENG_X_CNT_CLR cl x) (clearRow (ENG_X_CNT_CLR 0 0) 0x40000 8 0x2000 17 ENG_X_CNT_CLR_clear) cl x = true := by
  have h : ∀ (cl : Fin 8) (x : Fin 17), regWithin 0x100000 0x300000 (ENG_X_CNT_CLR cl x)
      (clearRow (ENG_X_CNT_CLR 0 0) 0x40000 8 0x2000 17 ENG_X_CNT_CLR_clear) cl x = true := by decide +kernel
  exact regAt_of_regWithin (h cl x)

theorem regAt_SPM_ST_CNT_CLR : ∀ st : Fin 8,
    regAt (SPM_ST_CNT_CLR st) (clearRow (SPM_ST_CNT_CLR 0) 0x8000 8 4 1 SPM_ST_CNT_CLR_clear) st 0 = true := by
  decide +kernel

theorem regAt_SYN_CNT_CLR : regAt SYN_CNT_CLR (clearRow SYN_CNT_CLR 4 1 4 1 SYN_CNT_CLR_clear) 0 0 = true := by
  decide +kernel

theorem regAt_SYS_ADM_CNT_CLR :
    regAt SYS_ADM_CNT_CLR (clearRow SYS_ADM_CNT_CLR 4 1 4 1 SYS_ADM_CNT_CLR_clear) 0 0 = true := by decide +kernel

theorem regAt_NET_CNT_CLR : ∀ p : Fin 2,
    regAt (NET_CNT_CLR p) (clearRow (NET_CNT_CLR 0) 0x1000 2 4 1 NET_CNT_CLR_clear) p 0 = true := by decide +kernel

theorem regAt_YWP_CNT_CLR : regAt YWP_CNT_CLR (clearRow YWP_CNT_CLR 4 1 4 1 YWP_CNT_CLR_clear) 0 0 = true := by
  decide +kernel

theorem regAt_PWR_CNT_CLR : regAt PWR_CNT_CLR (clearRow PWR_CNT_CLR 4 1 4 1 PWR_CNT_CLR_clear) 0 0 = true := by
  decide +kernel

theorem regAt_DBG_CNT_CLR : regAt DBG_CNT_CLR (clearRow DBG_CNT_CLR 4 1 4 1 DBG_CNT_CLR_clear) 0 0 = true := by
  decide +kernel

theorem regAt_SYS_FLT_CNT_CLR :
    regAt SYS_FLT_CNT_CLR (clearRow SYS_FLT_CNT_CLR 4 1 4 1 SYS_FLT_CNT_CLR_clear) 0 0 = true := by decide +kernel

end Sys2Proof.Machine
end

section
set_option Elab.async false
namespace Sys2Proof
open Machine

section
variable {src : BusSource} {s : State}

theorem capCntClr_clears (p : PortId) (mask : Word) (ha : Admits s src true (CAP_CNT_CLR p)) :
    ClearsCounters (.capCntClr src p mask) s (CAP_CNT_SHORT_FRAME p) 8 mask :=
  clearsCounters_of ha rfl (regAt_CAP_CNT_CLR p)
    (fun _ => (s.writeReg_cap src _ _ _ _ _ (by unfold CAP_CNT_CLR; omega) (by unfold CAP_CNT_CLR; omega)).trans rfl)
    (by unfold CAP_CNT_SHORT_FRAME JNL_NEXT; omega)

theorem calCntClr_clears (c : PortId) (mask : Word) (ha : Admits s src true (CAL_CNT_CLR c)) :
    ClearsCounters (.calCntClr src c mask) s (CAL_CNT_RUN c) 6 mask :=
  clearsCounters_of ha rfl (regAt_CAL_CNT_CLR c)
    (fun _ => (s.writeReg_core src _ _ _ _ _ (by unfold CAL_CNT_CLR; omega) (by unfold CAL_CNT_CLR; omega)).trans rfl)
    (by unfold CAL_CNT_RUN JNL_NEXT; omega)

theorem engXCntClr_clears (e : EngPos) (mask : Word) (ha : Admits s src true (ENG_X_CNT_CLR e.cl e.x)) :
    ClearsCounters (.engXCntClr src e mask) s (ENG_X_CNT_TASK e.cl e.x) 5 mask :=
  clearsCounters_of ha rfl (regAt_ENG_X_CNT_CLR e.cl e.x)
    (fun _ => (s.writeReg_core src _ _ _ _ _ (by unfold ENG_X_CNT_CLR; omega) (by unfold ENG_X_CNT_CLR; omega)).trans rfl)
    (by unfold ENG_X_CNT_TASK JNL_NEXT; omega)

theorem spmStCntClr_clears (st : Fin 8) (mask : Word) (ha : Admits s src true (SPM_ST_CNT_CLR st)) :
    ClearsCounters (.spmStCntClr src st mask) s (SPM_ST_CE st) 3 mask :=
  clearsCounters_of ha rfl (regAt_SPM_ST_CNT_CLR st)
    (fun _ => (s.writeReg_core src _ _ _ _ _ (by unfold SPM_ST_CNT_CLR; omega) (by unfold SPM_ST_CNT_CLR; omega)).trans rfl)
    (by unfold SPM_ST_CE JNL_NEXT; omega)

theorem synCntClr_clears (mask : Word) (ha : Admits s src true SYN_CNT_CLR) :
    ClearsCounters (.synCntClr src mask) s SYN_CNT_TIMEOUT 2 mask :=
  clearsCounters_of ha rfl regAt_SYN_CNT_CLR
    (fun _ => (s.writeReg_core src _ _ _ _ _ (by decide) (by decide)).trans rfl)
    (by decide)

theorem sysAdmCntClr_clears (mask : Word) (ha : Admits s src true SYS_ADM_CNT_CLR) :
    ClearsCounters (.sysAdmCntClr src mask) s SYS_ADM_CNT_REFUSED 4 mask :=
  clearsCounters_of ha rfl regAt_SYS_ADM_CNT_CLR
    (fun _ => (s.writeReg_sys src _ _ _ _ _ (by decide)).trans rfl)
    (by decide)

theorem netCntClr_clears (p : Fin 2) (mask : Word) (ha : Admits s src true (NET_CNT_CLR p)) :
    ClearsCounters (.netCntClr src p mask) s (NET_CNT_RX_DROP p 0) 11 mask :=
  clearsCounters_of ha rfl (regAt_NET_CNT_CLR p)
    (fun _ => (s.writeReg_net src _ _ _ _ _ (by unfold NET_CNT_CLR; omega) (by unfold NET_CNT_CLR; omega)).trans rfl)
    (by unfold NET_CNT_RX_DROP JNL_NEXT; omega)

theorem ywpCntClr_clears (mask : Word) (ha : Admits s src true YWP_CNT_CLR) :
    ClearsCounters (.ywpCntClr src mask) s YWP_CNT_CLOSED 4 mask :=
  clearsCounters_of ha rfl regAt_YWP_CNT_CLR
    (fun _ => (s.writeReg_ywp src _ _ _ _ _ (by decide) (by decide)).trans rfl)
    (by decide)

theorem pwrCntClr_clears (mask : Word) (ha : Admits s src true PWR_CNT_CLR) :
    ClearsCounters (.pwrCntClr src mask) s PWR_CNT_HOLDUP 3 mask :=
  clearsCounters_of ha rfl regAt_PWR_CNT_CLR
    (fun _ => (s.writeReg_pwr src _ _ _ _ _ (by decide) (by decide)).trans rfl)
    (by decide)

theorem dbgCntClr_clears (mask : Word) (ha : Admits s src true DBG_CNT_CLR) :
    ClearsCounters (.dbgCntClr src mask) s DBG_CNT_FAIL 2 mask :=
  clearsCounters_of ha rfl regAt_DBG_CNT_CLR
    (fun _ => (s.writeReg_sys src _ _ _ _ _ (by decide)).trans rfl)
    (by decide)

theorem sysFltCntClr_clears (mask : Word) (ha : Admits s src true SYS_FLT_CNT_CLR) :
    ClearsCounters (.sysFltCntClr src mask) s (SYS_FLT_CNT 0) 16 mask :=
  clearsCounters_of ha rfl regAt_SYS_FLT_CNT_CLR
    (fun _ => (s.writeReg_sys src _ _ _ _ _ (by decide)).trans rfl)
    (by decide)

end

/-- Settles O8: each counter-clear register has one WO field, which takes any value, and its rule clears the counters of its
own row. -/
theorem counterClearsComplete : Obligations.CounterClearsComplete := by
  intro src mask s
  exact ⟨fun p ha => capCntClr_clears p mask ha,
    fun c ha => calCntClr_clears c mask ha,
    fun e ha => engXCntClr_clears e mask ha,
    fun st ha => spmStCntClr_clears st mask ha,
    synCntClr_clears mask,
    sysAdmCntClr_clears mask,
    fun p ha => netCntClr_clears p mask ha,
    ywpCntClr_clears mask,
    pwrCntClr_clears mask,
    dbgCntClr_clears mask,
    sysFltCntClr_clears mask⟩

end Sys2Proof
end

section
set_option Elab.async false
namespace Sys2Proof

/-- The field that takes a whole register. -/
theorem Bits.put_of_full (w v : Word) : (⟨31, 0⟩ : Bits).put w ((⟨31, 0⟩ : Bits).of v) = v := by
  refine BitVec.eq_of_getLsbD_eq fun i hi => ?_
  rw [Bits.getLsbD_put _ _ _ _ hi, Bits.testBit_of]
  simp [Nat.le_of_lt_succ hi, hi]

/-! ### What a write leaves in the fields of a register -/

/-- What a field of the register holds after a write of v: w is the register as the fields before have left it. -/
def FieldRow.merged (old v w : Word) (f : FieldRow) : Word :=
  match f.acc with
  | .rw => f.bits.put w (f.bits.of v)
  | .w1c => f.bits.put w (f.bits.of old - f.bits.of v)
  | _ => w

theorem RegRow.merge_eq (r : RegRow) (old v : Word) : r.merge old v = r.fields.foldl (FieldRow.merged old v) old := rfl

/-- The bits of c lie within the word and beside those of b. -/
def Bits.beside (b c : Bits) : Bool := c.lo ≤ c.hi && c.hi < 32 && b.lo ≤ b.hi && (c.hi < b.lo || b.hi < c.lo)

theorem Bits.of_put_beside {b c : Bits} (h : b.beside c = true) (w : Word) (v : Nat) : c.of (b.put w v) = c.of w := by
  simp only [Bits.beside, Bool.and_eq_true, Bool.or_eq_true, decide_eq_true_eq] at h
  obtain ⟨⟨⟨hc, hc'⟩, hb⟩, hd⟩ := h
  exact Bits.of_put_ne b c w v hc' hc (by omega)

theorem of_merged_beside {c : Bits} {f : FieldRow} (h : f.bits.beside c = true) (old v w : Word) :
    c.of (f.merged old v w) = c.of w := by
  unfold FieldRow.merged
  split
  · exact Bits.of_put_beside h _ _
  · exact Bits.of_put_beside h _ _
  · rfl

theorem of_foldl_merged {c : Bits} {l : List FieldRow} (h : l.all (·.bits.beside c) = true) (old v w : Word) :
    c.of (l.foldl (FieldRow.merged old v) w) = c.of w := by
  induction l generalizing w with
  | nil => rfl
  | cons f t ih =>
    simp only [List.all_cons, Bool.and_eq_true] at h
    exact (ih h.2 _).trans (of_merged_beside h.1 _ _ _)

/-- The n-th field of the row is the RW field b, and the fields after it lie beside it. -/
def RegRow.stores (r : RegRow) (n : Nat) (b : Bits) : Bool :=
  match r.fields.drop n with
  | f :: l => f.bits = b && f.acc = .rw && b.lo ≤ b.hi && b.hi < 32 && l.all (·.bits.beside b)
  | [] => false

theorem RegRow.of_merge {r : RegRow} {n : Nat} {b : Bits} (h : r.stores n b = true) (old v : Word) :
    b.of (r.merge old v) = b.of v := by
  unfold RegRow.stores at h
  split at h
  · next f l hdrop =>
    simp only [Bool.and_eq_true, decide_eq_true_eq] at h
    obtain ⟨⟨⟨⟨rfl, hacc⟩, hlo⟩, hhi⟩, hl⟩ := h
    rw [RegRow.merge_eq, ← List.take_append_drop n r.fields, hdrop, List.foldl_append, List.foldl_cons, of_foldl_merged hl]
    simp only [FieldRow.merged, hacc]
    exact Bits.of_put _ _ _ hlo hhi (Bits.of_lt _ _)
  · cases h

namespace Machine

section
variable {s : State} {src : BusSource} {off size : Nat} {v : Word}

/-- An access that the checks before the register turn away. -/
theorem registerWrite_checked {st : Nat} (hboot : s.boot ≠ .off) (hgate : s.busGate src true off = .pass)
    (hck : s.busCheck off size = some st) {Q : Module → Prop}
    (hQ : Q (s.busAnswer st 0)) : Answers (.registerWrite src off size v) s Q := by
  refine .of_ok hboot (show _ = ok s (s.accessWrite src off size v) from rfl) ?_
  simp only [Module.accessWrite, hgate, Module.busWrite, hck]
  rwa [Module.settleMove_of_same (m := s.busAnswer st 0) (before := s.transition) rfl]

/-- The row of a register that is one plain field of 32 bits. -/
def wordRow (base s1 c1 s2 c2 : Nat) (b : Bits) (reset lo : Nat) : RegRow :=
  ⟨base, s1, c1, s2, c2, [⟨b, .rw, reset, lo, 4294967295, .plain⟩]⟩

theorem regAt_CAP_TRIG_PERIOD : ∀ p : Fin 36, regAt (CAP_TRIG_PERIOD p)
    (wordRow (CAP_TRIG_PERIOD 0) 0x1000 36 4 1 CAP_TRIG_PERIOD_period_ns 33333333 100000) p 0 = true := by decide +kernel

theorem regAt_YWP_EXP_OFS (n : Fin 256) : regAt (YWP_EXP_OFS n)
    (wordRow (YWP_EXP_OFS 0) 0x20 256 4 1 YWP_EXP_OFS_ofs_4k 0 0) n 0 = true := by
  have h : ∀ n : Fin 256, regWithin 0x680000 0x700000 (YWP_EXP_OFS n)
      (wordRow (YWP_EXP_OFS 0) 0x20 256 4 1 YWP_EXP_OFS_ofs_4k 0 0) n 0 = true := by decide +kernel
  exact regAt_of_regWithin (h n)

/-- The row of PWR_CFG. -/
def pwrCfgRow : RegRow :=
  ⟨PWR_CFG, 4, 1, 4, 1, [⟨PWR_CFG_auto_idle_ms, .rw, 0, 0, 65535, .plain⟩, ⟨PWR_CFG_standby_spm, .rw, 0, 0, 1, .plain⟩,
    ⟨PWR_CFG_wake_b, .rw, 1, 0, 1, .plain⟩, ⟨PWR_CFG_wake_a, .rw, 1, 0, 1, .plain⟩, ⟨PWR_CFG_auto_run, .rw, 1, 0, 1, .plain⟩]⟩

theorem regAt_PWR_CFG : regAt PWR_CFG pwrCfgRow 0 0 = true := by decide +kernel

/-- The new value of a plain 32-bit register is stored and answered. -/
theorem wordRow_written {base s1 c1 s2 c2 reset lo i j : Nat} (ha : Admits s src true off)
    (hat : regAt off (wordRow base s1 c1 s2 c2 ⟨31, 0⟩ reset lo) i j = true) (hlo : lo ≤ v.toNat)
    (hwr : ∀ new, s.writeReg src (wordRow base s1 c1 s2 c2 ⟨31, 0⟩ reset lo) i j off v new = (stOk, s.wr off new))
    (hread : (s.wr off v).written (wordRow base s1 c1 s2 c2 ⟨31, 0⟩ reset lo) i off v = v)
    (hjnl : off < JNL_NEXT) :
    Answers (.registerWrite src off 4 v) s fun m => m.busStatus = 0 ∧ m.busValue = v ∧ m.rd off = v ∧ OnlyRegs s m [off] := by
  have hmerge : (wordRow base s1 c1 s2 c2 ⟨31, 0⟩ reset lo).merge (s.rd off) v = v := Bits.put_of_full _ _
  have hlast : JNL_NEXT < JNL_OLDEST := by decide
  refine ha.writes (G := Fld.regs) rfl hat ?_ (Module.setupHeld_of_plain rfl _ _) (List.cons_ne_nil _ _)
    (hwr _) (Module.wr_unreported _ _ (List.mem_singleton_self _)) (Module.wr_keeps ..) (by decide) rfl ?_
  · have := v.isLt
    simp [wordRow, FieldRow.takes, Bits.of]
    omega
  · rw [hmerge]
    rintro m rfl honly
    refine ⟨rfl, hread, ?_, honly⟩
    rw [Module.writeAnswer_rd (by simp only [List.mem_cons, List.not_mem_nil, or_false, not_or]; omega), Module.rd_wr_same]
end
end Machine
open Machine

/-- Settles O9: the checks before the register answer without a change, the fields' ranges refuse, and a value within them is
stored by the register's own rule. -/
theorem registerWriteOutcomes : Obligations.RegisterWriteOutcomes := by
  intro src off size v s hboot hfail hgate
  refine ⟨fun h => ?_, fun hsize hal hin hon => ?_, fun p hoff hsize hon => ?_, fun n hoff hsize hon => ?_, fun hoff hsize => ?_⟩
  · exact registerWrite_checked hboot hgate (if_pos h) ⟨rfl, onlyRegs_busAnswer ..⟩
  · exact registerWrite_checked hboot hgate (st := stNotReady) ((if_neg (by omega)).trans (by simp [hon])) ⟨rfl, onlyRegs_busAnswer ..⟩
  · subst hoff hsize
    split
    · next hlo =>
      exact wordRow_written ⟨hboot, hfail, hgate, hon⟩ (regAt_CAP_TRIG_PERIOD p) hlo
        (fun _ => (s.writeReg_cap src _ _ _ _ _ (by unfold CAP_TRIG_PERIOD; omega) (by unfold CAP_TRIG_PERIOD; omega)).trans rfl)
        (Module.rd_wr_same ..) (by unfold CAP_TRIG_PERIOD JNL_NEXT; omega)
    · next hlo =>
      refine .of_ok hboot rfl ?_
      rw [show registerWrite src (CAP_TRIG_PERIOD p) 4 v s.toModule = s.busAnswer stRefused (s.rd (CAP_TRIG_PERIOD p)) from
        Module.accessWrite_refused hgate (regAt_CAP_TRIG_PERIOD p) hon (.inl (by
          simp [wordRow, FieldRow.takes, Bits.of, CAP_TRIG_PERIOD_period_ns]; omega))]
      exact ⟨rfl, rfl, onlyRegs_busAnswer ..⟩
  · subst hoff hsize
    have hreg (new : Word) : s.writeReg src (wordRow (YWP_EXP_OFS 0) 0x20 256 4 1 YWP_EXP_OFS_ofs_4k 0 0) n 0 (YWP_EXP_OFS n)
        v new = if s.bit (YWP_EXP_CTL n) YWP_EXP_CTL_open then (stRefused, s.toModule) else (stOk, s.wr (YWP_EXP_OFS n) new) :=
      (s.writeReg_ywp src _ _ _ _ _ (by unfold YWP_EXP_OFS; omega) (by unfold YWP_EXP_OFS; omega)).trans rfl
    split
    · next hopen =>
      refine .of_ok hboot rfl ?_
      rw [show registerWrite src (YWP_EXP_OFS n) 4 v s.toModule = s.busAnswer stRefused (s.rd (YWP_EXP_OFS n)) from
        Module.accessWrite_turned hgate (regAt_YWP_EXP_OFS n) hon (by
          have := v.isLt; simp [wordRow, FieldRow.takes, Bits.of, YWP_EXP_OFS_ofs_4k]; omega)
          (Module.setupHeld_of_plain rfl _ _) (List.cons_ne_nil _ _) ((hreg _).trans (if_pos hopen)) (by decide) rfl]
      exact ⟨rfl, onlyRegs_busAnswer ..⟩
    · next hopen =>
      exact wordRow_written ⟨hboot, hfail, hgate, hon⟩ (regAt_YWP_EXP_OFS n) (Nat.zero_le _)
        (fun _ => (hreg _).trans (if_neg hopen)) (Module.rd_wr_same ..) (by unfold YWP_EXP_OFS JNL_NEXT; omega)
  · subst hoff hsize
    refine Admits.writes (offs := [PWR_CFG]) (G := Fld.regs) ⟨hboot, hfail, hgate, rfl⟩ rfl regAt_PWR_CFG ?_
      (Module.setupHeld_of_plain rfl _ _) (by decide) ((s.writeReg_pwr src _ _ _ _ _ (by decide) (by decide)).trans rfl)
      (Module.wr_unreported _ _ (List.mem_singleton_self _)) (Module.wr_keeps ..) (by decide) rfl ?_
    · simp only [pwrCfgRow, List.all_cons, List.all_nil, Bool.and_true, Bool.and_eq_true]
      exact ⟨FieldRow.takes_of_full rfl rfl _, FieldRow.takes_of_full rfl rfl _, FieldRow.takes_of_full rfl rfl _,
        FieldRow.takes_of_full rfl rfl _, FieldRow.takes_of_full rfl rfl _⟩
    · rintro m rfl honly
      have hfld {n : Nat} {b : Bits} (h : pwrCfgRow.stores n b = true) :
          (s.writeAnswer (s.wr PWR_CFG (pwrCfgRow.merge (s.rd PWR_CFG) v)) src pwrCfgRow 0 PWR_CFG v).fld PWR_CFG b = b.of v := by
        rw [Module.fld, Module.writeAnswer_rd (by decide), Module.rd_wr_same, RegRow.of_merge h]
      exact ⟨rfl, hfld (n := 0) (by decide), congrArg (fun x : Nat => decide (x = 1)) (hfld (n := 1) (by decide)),
        congrArg (fun x : Nat => decide (x = 1)) (hfld (n := 4) (by decide)), honly⟩

end Sys2Proof
end

section
set_option Elab.async false
namespace Sys2Proof.Machine
open Sys2Proof

section
variable {s : State} {m k : Module} {src : BusSource} {off i j st : Nat} {w : Word} {r : RegRow}

/-! ### Reads -/

theorem Module.accessRead_eq (hgate : m.busGate src false off = .pass) (hat : regAt off r i j = true)
    (hon : m.blockOn off = true) (hrd : m.readReg r i off = (st, w, k)) : m.accessRead src off 4 = k.busAnswer st w := by
  simp only [Module.accessRead, hgate, Module.busRead, busCheck_of_regAt hat hon, findReg_of_regAt hat, hrd]

/-- An admitted read that changes the registers listed and no state beside registers. -/
theorem Admits.reads {c : Instr} {offs : List Nat} {G : Nat} {Q : Module → Prop} (ha : Admits s src false off)
    (hc : exec c s = ok s (s.accessRead src off 4)) (hat : regAt off r i j = true)
    (hrd : s.readReg r i off = (st, w, k)) (hr : Agree (Module.unreported offs) s.toModule k) (hk : Keeps G s.toModule k)
    (hG : G &&& Fld.besideRegs = G) (hQ : ∀ m : Module, m = k.busAnswer st w → OnlyRegs s m offs → Q m) : Answers c s Q := by
  obtain ⟨hboot, -, hgate, hon⟩ := ha
  refine .of_ok hboot (hc.trans (congrArg _ (Module.accessRead_eq hgate hat hon hrd))) ?_
  exact hQ _ rfl <| onlyRegs_of (G := Fld.besideRegs) (.kept (Module.busAnswer_keeps ..) (fun _ => rfl) hr)
    (.after (Module.busAnswer_keeps ..) rfl (hk.mono hG)) rfl

/-- The row of a register that is one field of 32 bits which only reads. -/
def readRow (base s1 c1 : Nat) (b : Bits) : RegRow := ⟨base, s1, c1, 4, 1, [⟨b, .ro, 0, 0, 4294967295, .plain⟩]⟩

theorem regAt_CAP_MEAS_SEQ : ∀ p : Fin 36,
    regAt (CAP_MEAS_SEQ p) (readRow (CAP_MEAS_SEQ 0) 0x1000 36 CAP_MEAS_SEQ_seq) p 0 = true := by decide +kernel

theorem regAt_NET_TIME_NS : regAt NET_TIME_NS (readRow NET_TIME_NS 4 1 NET_TIME_NS_ns) 0 0 = true := by decide +kernel

theorem regAt_PWR_ENERGY_LO : regAt PWR_ENERGY_LO (readRow PWR_ENERGY_LO 4 1 PWR_ENERGY_LO_mj) 0 0 = true := by
  decide +kernel

/-! ### The measurement set -/

/-- The registers of the measurement set of port p. -/
def measRegs (p : Nat) : List Nat :=
  [CAP_MEAS_SEQ p, CAP_MEAS_LINE p, CAP_MEAS_FRAME p, CAP_MEAS_PERIOD p, CAP_MEAS_LPERIOD p, CAP_MEAS_BLANK p,
    CAP_MEAS_VBLANK p] ++
    (List.range 4).flatMap fun i => [CAP_MEAS_STAMP_NS p i, CAP_MEAS_STAMP_SL p i, CAP_MEAS_STAMP_SH p i]

theorem stamp_mem_measRegs {p i o : Nat} (hi : i < 4)
    (ho : o = CAP_MEAS_STAMP_NS p i ∨ o = CAP_MEAS_STAMP_SL p i ∨ o = CAP_MEAS_STAMP_SH p i) : o ∈ measRegs p :=
  List.mem_append_right _ <| List.mem_flatMap.2 ⟨i, List.mem_range.2 hi, by simpa using ho⟩

theorem Module.wrStamp_unreported (m : Module) (p : Nat) {i : Nat} (x : Option Stamp) (hi : i < 4) :
    Agree (Module.unreported (measRegs p)) m (m.wrStamp p i x) := by
  unfold Module.wrStamp
  split
  · exact .after (Module.wr_unreported _ _ (stamp_mem_measRegs hi (by simp))) <|
      .after (Module.wr_unreported _ _ (stamp_mem_measRegs hi (by simp))) <|
      .after (Module.wr_unreported _ _ (stamp_mem_measRegs hi (by simp))) .refl
  · exact .after (Module.wr_unreported _ _ (stamp_mem_measRegs hi (by simp))) <|
      .after (Module.wr_unreported _ _ (stamp_mem_measRegs hi (by simp))) <|
      .after (Module.wr_unreported _ _ (stamp_mem_measRegs hi (by simp))) .refl

theorem Module.rd_wrStamp_below (m : Module) (p i : Nat) (x : Option Stamp) {o : Nat} (h : o < CAP_MEAS_STAMP_NS p 0) :
    (m.wrStamp p i x).rd o = m.rd o := by
  have hns : o ≠ CAP_MEAS_STAMP_NS p i := by unfold CAP_MEAS_STAMP_NS at *; omega
  have hsl : o ≠ CAP_MEAS_STAMP_SL p i := by unfold CAP_MEAS_STAMP_NS CAP_MEAS_STAMP_SL at *; omega
  have hsh : o ≠ CAP_MEAS_STAMP_SH p i := by unfold CAP_MEAS_STAMP_NS CAP_MEAS_STAMP_SH at *; omega
  unfold Module.wrStamp
  split <;> rw [Module.rd_wr_ne _ _ hsh, Module.rd_wr_ne _ _ hsl, Module.rd_wr_ne _ _ hns]

theorem Module.measCopy_unreported (m : Module) (p : Nat) : Agree (Module.unreported (measRegs p)) m (m.measCopy p) := by
  have hmem {o : Nat} (h : o ∈ [CAP_MEAS_SEQ p, CAP_MEAS_LINE p, CAP_MEAS_FRAME p, CAP_MEAS_PERIOD p, CAP_MEAS_LPERIOD p,
      CAP_MEAS_BLANK p, CAP_MEAS_VBLANK p]) : o ∈ measRegs p := List.mem_append_left _ h
  unfold Module.measCopy
  split
  · exact .refl
  · refine .after (Module.wrStamp_unreported _ _ _ (by decide)) <| .after (Module.wrStamp_unreported _ _ _ (by decide)) <|
      .after (Module.wrStamp_unreported _ _ _ (by decide)) <| .after (Module.wrStamp_unreported _ _ _ (by decide)) ?_
    exact .after (Module.wr_unreported _ _ (hmem (by simp))) <| .after (Module.wr_unreported _ _ (hmem (by simp))) <|
      .after (Module.wr_unreported _ _ (hmem (by simp))) <| .after (Module.wr_unreported _ _ (hmem (by simp))) <|
      .after (Module.wr_unreported _ _ (hmem (by simp))) <| .after (Module.wr_unreported _ _ (hmem (by simp))) <|
      .after (Module.wr_unreported _ _ (hmem (by simp))) .refl

theorem Module.measCopy_rd {p : Nat} {e : Meas} (h : (m.port p).meas = some e) :
    (m.measCopy p).rd (CAP_MEAS_SEQ p) = e.frame.seq ∧
      (m.measCopy p).rd (CAP_MEAS_PERIOD p) = BitVec.ofNat 32 (min e.frame.period 0xFFFFFFFF) ∧
      (m.measCopy p).rd (CAP_MEAS_VBLANK p) = BitVec.ofNat 32 (min e.frame.vblank 0xFFFFFFFF) := by
  unfold Module.measCopy
  rw [h]
  dsimp only
  refine ⟨?_, ?_, ?_⟩
  · repeat rw [Module.rd_wrStamp_below _ _ _ _ (by unfold CAP_MEAS_SEQ CAP_MEAS_STAMP_NS; omega)]
    rw [Module.rd_wr_ne _ _ (by unfold CAP_MEAS_SEQ CAP_MEAS_VBLANK; omega),
      Module.rd_wr_ne _ _ (by unfold CAP_MEAS_SEQ CAP_MEAS_BLANK; omega),
      Module.rd_wr_ne _ _ (by unfold CAP_MEAS_SEQ CAP_MEAS_LPERIOD; omega),
      Module.rd_wr_ne _ _ (by unfold CAP_MEAS_SEQ CAP_MEAS_PERIOD; omega),
      Module.rd_wr_ne _ _ (by unfold CAP_MEAS_SEQ CAP_MEAS_FRAME; omega),
      Module.rd_wr_ne _ _ (by unfold CAP_MEAS_SEQ CAP_MEAS_LINE; omega), Module.rd_wr_same]
  · repeat rw [Module.rd_wrStamp_below _ _ _ _ (by unfold CAP_MEAS_PERIOD CAP_MEAS_STAMP_NS; omega)]
    rw [Module.rd_wr_ne _ _ (by unfold CAP_MEAS_PERIOD CAP_MEAS_VBLANK; omega),
      Module.rd_wr_ne _ _ (by unfold CAP_MEAS_PERIOD CAP_MEAS_BLANK; omega),
      Module.rd_wr_ne _ _ (by unfold CAP_MEAS_PERIOD CAP_MEAS_LPERIOD; omega), Module.rd_wr_same]
  · repeat rw [Module.rd_wrStamp_below _ _ _ _ (by unfold CAP_MEAS_VBLANK CAP_MEAS_STAMP_NS; omega)]
    rw [Module.rd_wr_same]

/-! ### The copy of the network time -/

/-- The registers of the copy of the network time. -/
def timeRegs : List Nat := [NET_TIME_NS, NET_TIME_SL, NET_TIME_SH]

theorem Module.timeCopy_unreported (m : Module) : Agree (Module.unreported timeRegs) m m.timeCopy := by
  unfold Module.timeCopy
  exact .after (Module.wr_unreported _ _ (by decide)) <| .after (Module.wr_unreported _ _ (by decide)) <|
    .after (Module.wr_unreported _ _ (by decide)) <| .kept (Module.tick_keeps ..) (fun _ => rfl) .refl

theorem Module.timeCopy_ns (m : Module) : m.timeCopy.rd NET_TIME_NS = BitVec.ofNat 32 (m.timeCopy.ptp % 1000000000) := by
  unfold Module.timeCopy
  rw [Module.rd_wr_ne _ _ (by decide), Module.rd_wr_ne _ _ (by decide), Module.rd_wr_same]
  rfl

theorem Module.timeCopy_sl (m : Module) : m.timeCopy.rd NET_TIME_SL = BitVec.ofNat 32 (m.timeCopy.ptp / 1000000000) := by
  unfold Module.timeCopy
  rw [Module.rd_wr_ne _ _ (by decide), Module.rd_wr_same]
  rfl

theorem Module.timeCopy_sh (m : Module) :
    m.timeCopy.fld NET_TIME_SH NET_TIME_SH_s_hi = m.timeCopy.ptp / 1000000000 / 2 ^ 32 % 2 ^ 16 ∧
      m.timeCopy.bit NET_TIME_SH NET_TIME_SH_valid = m.timeValid := by
  have hvalid (v w : Word) : ((m.tick.wr NET_TIME_NS v).wr NET_TIME_SL w).timeValid = m.timeValid := by
    unfold Module.timeValid
    rw [Module.fld_wr_other _ _ _ (by decide), Module.fld_wr_other _ _ _ (by decide)]
    rfl
  have hlt : m.timeValid.toNat < 2 ^ 1 := by cases m.timeValid <;> decide
  unfold Module.bit Module.timeCopy
  dsimp only
  rw [Module.fld_wr_same, Module.fld_wr_same]
  constructor
  · rw [Bits.of_put_beside (by decide), Bits.of_put_mod _ _ _ (by decide) (by decide)]
    rfl
  · rw [hvalid, Bits.of_put _ _ _ (by decide) (by decide) hlt]
    cases m.timeValid <;> rfl
end

/-! ### The table ports -/

section
variable {m k : Module} {c i t : Nat} {v : Word}

@[simp] theorem Module.ctx_setCtx_same (m : Module) (c : Nat) (x : Ctx) : (m.setCtx c x).ctx c = x := by
  simp [Module.ctx, Module.setCtx]

theorem Module.ctx_setCtx_ne (m : Module) {c d : Nat} (x : Ctx) (h : d ≠ c) : (m.setCtx c x).ctx d = m.ctx d := by
  simp [Module.ctx, Module.setCtx, SMap.get_set_ne _ _ _ _ h]

@[simp] theorem Module.ctx_setFld (m : Module) (off : Nat) (b : Bits) (v c : Nat) : (m.setFld off b v).ctx c = m.ctx c := rfl

@[simp] theorem Module.fld_setCtx (m : Module) (c : Nat) (x : Ctx) (off : Nat) (b : Bits) :
    (m.setCtx c x).fld off b = m.fld off b := rfl

theorem Module.writeAnswer_ctx {r : RegRow} {src : BusSource} {off : Nat} :
    (m.writeAnswer k src r i off v).ctx c = k.ctx c :=
  Module.writeAnswer_keeps.view (fun x : Module => x.ctx c) fun _ => rfl

theorem regAt_FE_TBL_DATA : ∀ c : Fin 36,
    regAt (FE_TBL_DATA c) (wordRow (FE_TBL_DATA 0) 0x400 36 4 1 FE_TBL_DATA_data 0 0) c 0 = true := by decide +kernel

theorem regAt_NIS_TBL_DATA : ∀ c : Fin 36,
    regAt (NIS_TBL_DATA c) (wordRow (NIS_TBL_DATA 0) 0x400 36 4 1 NIS_TBL_DATA_data 0 0) c 0 = true := by decide +kernel

theorem wordRow_takes {base s1 c1 s2 c2 reset : Nat} (v : Word) :
    (wordRow base s1 c1 s2 c2 ⟨31, 0⟩ reset 0).fields.all (·.takes v) = true := by
  simp only [wordRow, List.all_cons, List.all_nil, Bool.and_true]
  exact FieldRow.takes_of_full rfl rfl _

/-- The index of FE_TBL_DATA moved on. -/
def Module.feNext (m : Module) (c : Nat) : Module :=
  m.setFld (FE_TBL_ADDR c) FE_TBL_ADDR_index ((m.fld (FE_TBL_ADDR c) FE_TBL_ADDR_index + 1) % 8192)

/-- The index of NIS_TBL_DATA moved on. -/
def Module.nisNext (m : Module) (c : Nat) : Module :=
  m.setFld (NIS_TBL_ADDR c) NIS_TBL_ADDR_index ((m.fld (NIS_TBL_ADDR c) NIS_TBL_ADDR_index + 1) % 256)

theorem Module.feNext_index (m : Module) (c : Nat) : (m.feNext c).fld (FE_TBL_ADDR c) FE_TBL_ADDR_index =
    (m.fld (FE_TBL_ADDR c) FE_TBL_ADDR_index + 1) % 8192 :=
  Module.fld_setFld _ _ _ _ (by decide) (by decide) (Nat.mod_lt _ (by decide))

theorem Module.nisNext_index (m : Module) (c : Nat) : (m.nisNext c).fld (NIS_TBL_ADDR c) NIS_TBL_ADDR_index =
    (m.fld (NIS_TBL_ADDR c) NIS_TBL_ADDR_index + 1) % 256 :=
  Module.fld_setFld _ _ _ _ (by decide) (by decide) (Nat.mod_lt _ (by decide))

theorem Module.feTable_dpc_write (ht : m.fld (FE_TBL_ADDR c) FE_TBL_ADDR_table = 0)
    (hi : m.fld (FE_TBL_ADDR c) FE_TBL_ADDR_index < 4096) (v : Word) :
    m.feTable c (some v) = some (v, (m.feNext c).setCtx c { m.ctx c with
      dpc := SMap.set 0 (m.ctx c).dpc (m.fld (FE_TBL_ADDR c) FE_TBL_ADDR_index) v }) := by
  unfold Module.feTable
  simp only [ht, if_true, if_neg (Nat.not_le.2 hi)]
  rfl

theorem Module.feTable_dpc_beyond (ht : m.fld (FE_TBL_ADDR c) FE_TBL_ADDR_table = 0)
    (hi : 4096 ≤ m.fld (FE_TBL_ADDR c) FE_TBL_ADDR_index) (w : Option Word) : m.feTable c w = none := by
  unfold Module.feTable
  simp only [ht, if_true, if_pos hi]

theorem Module.feTable_lsc_read (ht : 1 ≤ m.fld (FE_TBL_ADDR c) FE_TBL_ADDR_table)
    (ht' : m.fld (FE_TBL_ADDR c) FE_TBL_ADDR_table ≤ 4) (hi : m.fld (FE_TBL_ADDR c) FE_TBL_ADDR_index < 413) :
    m.feTable c none = some (SMap.get 0 (m.ctx c).lsc
      (512 * (m.fld (FE_TBL_ADDR c) FE_TBL_ADDR_table - 1) + m.fld (FE_TBL_ADDR c) FE_TBL_ADDR_index), m.feNext c) := by
  unfold Module.feTable
  simp only [if_neg (Nat.ne_of_gt ht), if_neg (not_or.2 ⟨Nat.not_lt.2 ht', Nat.not_le.2 hi⟩)]
  rfl

theorem Module.nisTable_write (ht : m.fld (NIS_TBL_ADDR c) NIS_TBL_ADDR_table = 0)
    (hi : m.fld (NIS_TBL_ADDR c) NIS_TBL_ADDR_index ≤ 128) (v : Word) :
    m.nisTable c (some v) = some (v, (m.nisNext c).setCtx c { m.ctx c with
      tone := SMap.set 0 (m.ctx c).tone (m.fld (NIS_TBL_ADDR c) NIS_TBL_ADDR_index) v }) := by
  unfold Module.nisTable
  simp only [ht, if_neg (not_or.2 ⟨not_not.2 rfl, Nat.not_lt.2 hi⟩)]
  rfl

theorem Module.nisTable_read (ht : m.fld (NIS_TBL_ADDR c) NIS_TBL_ADDR_table = 0)
    (hi : m.fld (NIS_TBL_ADDR c) NIS_TBL_ADDR_index ≤ 128) :
    m.nisTable c none = some (SMap.get 0 (m.ctx c).tone (m.fld (NIS_TBL_ADDR c) NIS_TBL_ADDR_index), m.nisNext c) := by
  unfold Module.nisTable
  simp only [ht, if_neg (not_or.2 ⟨not_not.2 rfl, Nat.not_lt.2 hi⟩)]
  rfl
end

end Sys2Proof.Machine
namespace Sys2Proof
open Machine

theorem Module.writeReg_feTable {m k : Module} {c : PortId} {v w : Word} (h : m.feTable c (some v) = some (w, k)) (src : BusSource)
    (new : Word) :
    m.writeReg src (wordRow (FE_TBL_DATA 0) 0x400 36 4 1 FE_TBL_DATA_data 0 0) c 0 (FE_TBL_DATA c) v new = (stOk, k) := by
  rw [Module.writeReg_ctx _ _ _ _ _ _ _ (by unfold FE_TBL_DATA; omega) (by unfold FE_TBL_DATA; omega)]
  change (match m.feTable c (some v) with | some (_, k) => (stOk, k) | none => (stBusError, m)) = _
  rw [h]

theorem Module.writeReg_nisTable {m k : Module} {c : PortId} {v w : Word} (h : m.nisTable c (some v) = some (w, k)) (src : BusSource)
    (new : Word) :
    m.writeReg src (wordRow (NIS_TBL_DATA 0) 0x400 36 4 1 NIS_TBL_DATA_data 0 0) c 0 (NIS_TBL_DATA c) v new = (stOk, k) := by
  rw [Module.writeReg_ctx _ _ _ _ _ _ _ (by unfold NIS_TBL_DATA; omega) (by unfold NIS_TBL_DATA; omega)]
  change (match m.nisTable c (some v) with | some (_, k) => (stOk, k) | none => (stBusError, m)) = _
  rw [h]

theorem Module.readReg_feTable {m k : Module} {c : PortId} {w : Word} (h : m.feTable c none = some (w, k)) :
    m.readReg (wordRow (FE_TBL_DATA 0) 0x400 36 4 1 FE_TBL_DATA_data 0 0) c (FE_TBL_DATA c) = (stOk, w, k) := by
  change (match m.feTable c none with | some (w, k) => (stOk, w, k) | none => (stBusError, 0, m)) = _
  rw [h]

theorem Module.readReg_nisTable {m k : Module} {c : PortId} {w : Word} (h : m.nisTable c none = some (w, k)) :
    m.readReg (wordRow (NIS_TBL_DATA 0) 0x400 36 4 1 NIS_TBL_DATA_data 0 0) c (NIS_TBL_DATA c) = (stOk, w, k) := by
  change (match m.nisTable c none with | some (w, k) => (stOk, w, k) | none => (stBusError, 0, m)) = _
  rw [h]

theorem Module.writeReg_feTable_beyond {m : Module} {c : PortId} {v : Word} (h : m.feTable c (some v) = none)
    (src : BusSource) (new : Word) :
    m.writeReg src (wordRow (FE_TBL_DATA 0) 0x400 36 4 1 FE_TBL_DATA_data 0 0) c 0 (FE_TBL_DATA c) v new = (stBusError, m) := by
  rw [Module.writeReg_ctx _ _ _ _ _ _ _ (by unfold FE_TBL_DATA; omega) (by unfold FE_TBL_DATA; omega)]
  change (match m.feTable c (some v) with | some (_, k) => (stOk, k) | none => (stBusError, m)) = _
  rw [h]

/-- A write of a table word that its port stores: the answer carries the word, and the state is the table's. -/
theorem tableWrite_answers {s : State} {c : Instr} {src : BusSource} {off base i : Nat} {v : Word} {k : Module}
    {Q : Module → Prop} (ha : Admits s src true off) (hc : exec c s = ok s (s.accessWrite src off 4 v))
    (hat : regAt off (wordRow base 0x400 36 4 1 ⟨31, 0⟩ 0 0) i 0 = true)
    (hwr : ∀ new, s.writeReg src (wordRow base 0x400 36 4 1 ⟨31, 0⟩ 0 0) i 0 off v new = (stOk, k))
    (hk : Keeps (Fld.regs ||| Fld.ctxs) s.toModule k) 
    (hQ : Q (s.writeAnswer k src (wordRow base 0x400 36 4 1 ⟨31, 0⟩ 0 0) i off v)) : Answers c s Q := by
  obtain ⟨hboot, -, hgate, hon⟩ := ha
  refine .of_ok hboot (hc.trans (congrArg _ (Module.accessWrite_done hgate hat hon (wordRow_takes v)
    (Module.setupHeld_of_plain rfl _ _) (List.cons_ne_nil _ _) (hwr _)))) ?_
  rwa [Module.settleMove_writeAnswer (hk.view (·.transition) fun _ => rfl)]

/-- Settles O10: each sampling read copies what it stands for before its answer, and a table port stores or reads the word
that its index names. -/
theorem snapshotsAndTablesComplete : Obligations.SnapshotsAndTablesComplete := by
  refine ⟨fun src s => ⟨fun p e ha he => ?_, fun ha => ?_, fun ha => ?_⟩, fun src c v s => ⟨fun ha ht => ⟨fun hi => ?_,
    fun hi => ?_⟩, fun ha ht ht' hi => ?_, fun ha ht hi => ?_, fun ha ht hi => ?_⟩⟩
  · obtain ⟨hseq, hperiod, hvblank⟩ := Module.measCopy_rd he
    refine ha.reads (offs := measRegs p) rfl (regAt_CAP_MEAS_SEQ p) rfl (Module.measCopy_unreported ..)
      (Module.measCopy_keeps ..) (by decide) ?_
    rintro m rfl honly
    exact ⟨rfl, hseq, hseq, hperiod, hvblank, honly⟩
  · refine ha.reads (offs := timeRegs) rfl regAt_NET_TIME_NS rfl (Module.timeCopy_unreported ..) (Module.timeCopy_keeps ..)
      (by decide) ?_
    rintro m rfl honly
    exact ⟨rfl, Module.timeCopy_ns _, Module.timeCopy_ns _, Module.timeCopy_sl _, (Module.timeCopy_sh _).1,
      (Module.timeCopy_sh _).2, honly⟩
  · refine ha.reads (offs := [PWR_ENERGY_HI]) rfl regAt_PWR_ENERGY_LO rfl
      (Module.wr_unreported _ _ (List.mem_singleton_self _)) (Module.wr_keeps ..) (by decide) ?_
    rintro m rfl honly
    exact ⟨rfl, rfl, Module.rd_wr_same .., honly⟩
  · have htab := Module.feTable_dpc_write ht hi v
    refine tableWrite_answers ha rfl (regAt_FE_TBL_DATA c) (Module.writeReg_feTable htab src)
      (Module.feTable_keeps htab) ⟨rfl, rfl, ?_, ?_, fun j hj => ?_, fun d hd => ?_⟩
    · rw [Module.writeAnswer_ctx, Module.ctx_setCtx_same, SMap.get_set_same]
    · rw [Module.fld, Module.writeAnswer_rd (by unfold FE_TBL_ADDR JNL_NEXT JNL_OLDEST; simp; omega)]
      exact Module.feNext_index ..
    · rw [Module.writeAnswer_ctx, Module.ctx_setCtx_same, SMap.get_set_ne _ _ _ _ hj]
    · rw [Module.writeAnswer_ctx, Module.ctx_setCtx_ne _ _ fun h => hd (Fin.ext h)]
      rfl
  · refine .of_ok ha.1 rfl ?_
    rw [show feTblDataAccess src c (some v) s.toModule = s.busAnswer stBusError _ from
      Module.accessWrite_turned ha.2.2.1 (regAt_FE_TBL_DATA c) ha.2.2.2 (wordRow_takes v) (Module.setupHeld_of_plain rfl _ _)
        (List.cons_ne_nil _ _) (Module.writeReg_feTable_beyond (Module.feTable_dpc_beyond ht hi _) src _) (by decide) rfl]
    exact ⟨rfl, onlyRegs_busAnswer ..⟩
  · refine ha.reads (offs := [FE_TBL_ADDR c]) rfl (regAt_FE_TBL_DATA c)
      (Module.readReg_feTable (Module.feTable_lsc_read ht ht' hi))
      (Module.setFld_unreported _ _ _ (List.mem_singleton_self _)) (Module.setFld_keeps ..) (by decide) ?_
    rintro m rfl honly
    exact ⟨rfl, rfl, (Module.feNext_index ..).trans (Nat.mod_eq_of_lt (by omega)), honly⟩
  · have htab := Module.nisTable_write ht hi v
    refine tableWrite_answers ha rfl (regAt_NIS_TBL_DATA c) (Module.writeReg_nisTable htab src)
      (Module.nisTable_keeps htab) ⟨rfl, rfl, ?_, ?_⟩
    · rw [Module.writeAnswer_ctx, Module.ctx_setCtx_same, SMap.get_set_same]
    · rw [Module.fld, Module.writeAnswer_rd (by unfold NIS_TBL_ADDR JNL_NEXT JNL_OLDEST; simp; omega)]
      exact (Module.nisNext_index ..).trans (Nat.mod_eq_of_lt (by omega))
  · refine ha.reads (offs := [NIS_TBL_ADDR c]) rfl (regAt_NIS_TBL_DATA c)
      (Module.readReg_nisTable (Module.nisTable_read ht hi))
      (Module.setFld_unreported _ _ _ (List.mem_singleton_self _)) (Module.setFld_keeps ..) (by decide) ?_
    rintro m rfl honly
    exact ⟨rfl, rfl, (Module.nisNext_index ..).trans (Nat.mod_eq_of_lt (by omega)), honly⟩

end Sys2Proof
end

section
set_option Elab.async false
/-!
The registers of the camera ports: what a calibration's end, its restoring and the training leave of them.
-/
namespace Sys2Proof.Machine
open Sys2Proof

/-! ### A block of registers -/

/-- The registers from lo on, below hi. -/
def Module.regsIn (lo hi : Nat) (m : Module) (off : Nat) : Word := if lo ≤ off ∧ off < hi then m.rd off else 0

/-- The registers of the camera ports. -/
def Module.portBlock : Module → Nat → Word := Module.regsIn 0x010000 0x040000

section
variable {lo hi off o : Nat} {b m k : Module}

theorem Agree.regsIn_rd (h : Agree (Module.regsIn lo hi) m k) (hlo : lo ≤ o) (hhi : o < hi) : k.rd o = m.rd o := by
  have := congrFun h o
  simpa [Module.regsIn, hlo, hhi] using this

theorem Agree.portBlock_rd (h : Agree Module.portBlock m k) (hlo : 0x010000 ≤ o) (hhi : o < 0x040000) : k.rd o = m.rd o :=
  Agree.regsIn_rd h hlo hhi

theorem Module.wr_portBlock (m : Module) (v : Word) (h : 0x040000 ≤ off) : Agree Module.portBlock m (m.wr off v) := by
  funext o
  unfold Module.portBlock Module.regsIn
  split
  · exact Module.rd_wr_ne _ _ (by omega)
  · rfl

theorem Module.setFld_portBlock (m : Module) (f : Bits) (v : Nat) (h : 0x040000 ≤ off) :
    Agree Module.portBlock m (m.setFld off f v) := m.wr_portBlock _ h

/-- What leaves every register but those of reports leaves the ports' registers. -/
theorem Agree.portBlock_of (h : Agree (Module.unreported []) m k) : Agree Module.portBlock m k := by
  have hout : ∀ r ∈ reportRegs, ¬ (0x010000 ≤ r ∧ r < 0x040000) := by decide
  funext o
  unfold Module.portBlock Module.regsIn
  split
  · next ho => exact h.unreported_rd List.not_mem_nil fun hr => hout o hr ho
  · rfl

theorem Agree.portState {p : Nat} (h : Agree Module.portBlock m k) (hp : p < 36) : k.portState p = m.portState p :=
  congrArg CAP_PORT_STATE_state.of <|
    h.portBlock_rd (by unfold CAP_PORT_STATE; omega) (by unfold CAP_PORT_STATE; omega)

theorem Module.portState_setPortState (m : Module) (p : Nat) {st : Nat} (h : st < 8) : (m.setPortState p st).portState p = st :=
  Module.fld_setFld _ _ _ _ (by decide) (by decide) h

theorem Module.trainAbort_of_ne {p : Nat} (h : m.portState p ≠ 3) : m.trainAbort p = m := if_neg h

/-! ### The end of a calibration run -/

theorem Module.unbindLane_portBlock (m : Module) (c : Nat) : Agree Module.portBlock m (m.unbindLane c) := by
  unfold Module.unbindLane
  refine .ite (fun _ => ?_) fun _ => .refl
  exact .after (Module.setFld_portBlock _ _ _ (by unfold FE_LANE_STAT; omega)) <|
    .after (Module.wr_portBlock _ _ (by unfold FE_CTX_STAT; omega)) .refl

theorem Module.calReport_portBlock (m : Module) (c : Nat) (running : Bool) (runs kind err : Nat) :
    Agree Module.portBlock m (m.calReport c running runs kind err) := by
  have h : 0x040000 ≤ CAL_CTX_STAT c := by unfold CAL_CTX_STAT; omega
  unfold Module.calReport
  exact .after (Module.setFld_portBlock _ _ _ h) <| .after (Module.setFld_portBlock _ _ _ h) <|
    .after (Module.setFld_portBlock _ _ _ h) <| .after (Module.setFld_portBlock _ _ _ h) .refl

theorem Module.calEvent_portBlock (m : Module) (c : Nat) (r : CalRun) (err status : Nat) :
    Agree Module.portBlock m (m.calEvent c r err status) := by
  unfold Module.calEvent
  exact .portBlock_of (Module.raiseCtx_unreported ..)

theorem Agree.trainAbort_portBlock {p : Nat} (h : Agree Module.portBlock b m) (hp : p < 36) (hs : b.portState p ≠ 3) :
    Agree Module.portBlock b (m.trainAbort p) := by
  rw [Module.trainAbort_of_ne (by rwa [h.portState hp])]
  exact h

/-- Outside a training the end of a run leaves the registers of the ports. -/
theorem Module.calEnd_portBlock (m : Module) {c : Nat} (err : Nat) (status : Option Nat) (hc : c < 36)
    (hs : m.portState c ≠ 3) : Agree Module.portBlock m (m.calEnd c err status) := by
  unfold Module.calEnd
  split
  · exact .refl
  · next r _ =>
    dsimp only
    have hlane : Agree Module.portBlock m (if r.grant = true then (m.setCal c { m.cal c with run := none }).unbindLane c
        else m.setCal c { m.cal c with run := none }) :=
      .ite (fun _ => .after (Module.unbindLane_portBlock ..) <| .kept (Module.setCal_keeps ..) (fun _ => rfl) .refl)
        fun _ => .kept (Module.setCal_keeps ..) (fun _ => rfl) .refl
    have hrun {x : Module} (h : Agree Module.portBlock m x) :
        Agree Module.portBlock m (if r.kind = 4 then x.trainAbort c else x) :=
      .ite (fun _ => h.trainAbort_portBlock hc hs) fun _ => h
    split
    · exact .after (Module.calEvent_portBlock ..) <| .after (Module.calReport_portBlock ..) <| hrun <|
        .kept (Module.setPort_keeps ..) (fun _ => rfl) <| .kept (Module.setCtx_keeps ..) (fun _ => rfl) hlane
    · exact .after (Module.calEvent_portBlock ..) <| .kept (Module.open__keeps ..) (fun _ => rfl) <|
        .after (Module.calReport_portBlock ..) <| hrun <|
        .kept (Module.setPort_keeps ..) (fun _ => rfl) <| .kept (Module.setCtx_keeps ..) (fun _ => rfl) hlane

theorem Module.calAbort_portBlock (m : Module) {c : Nat} (hc : c < 36) (hs : m.portState c ≠ 3) :
    Agree Module.portBlock m (m.calAbort c) := m.calEnd_portBlock _ _ hc hs

/-! ### Restoring a calibration -/

theorem Module.reportStored_portBlock (m : Module) (c : Nat) : Agree Module.portBlock m (m.reportStored c) := by
  unfold Module.reportStored
  exact .after (Module.setFld_portBlock _ _ _ (by unfold CAL_CTX_STAT; omega)) .refl

theorem Module.reportValid_portBlock (m : Module) (c : Nat) : Agree Module.portBlock m (m.reportValid c) := by
  unfold Module.reportValid
  exact .after (Module.setFld_portBlock _ _ _ (by unfold CAL_CTX_STAT; omega)) .refl

/-- The states of the ports. -/
def Module.portStates (m : Module) (p : Fin 36) : Nat := m.portState p

theorem Agree.portStates (h : Agree Module.portBlock m k) : Agree Module.portStates m k := funext fun p => h.portState p.isLt

theorem Module.wr_portStates (m : Module) (v : Word) (h : ∀ p : Fin 36, CAP_PORT_STATE p ≠ off) :
    Agree Module.portStates m (m.wr off v) := funext fun p => Module.fld_wr_other _ _ _ (h p)
theorem Module.setFld_portStates (m : Module) (f : Bits) (v : Nat)
    (h : ∀ p : Fin 36, CAP_PORT_STATE p ≠ off ∨ f.beside CAP_PORT_STATE_state = true) :
    Agree Module.portStates m (m.setFld off f v) := by
  funext p
  rcases h p with hne | hbeside
  · exact Module.fld_setFld_other _ _ _ _ hne
  · by_cases ho : CAP_PORT_STATE p = off
    · subst ho
      exact (Module.fld_wr_same ..).trans (Bits.of_put_beside hbeside _ _)
    · exact Module.fld_setFld_other _ _ _ _ ho

theorem Module.shadowBl_portBlock (m : Module) (c : Nat) (bl : List Nat) : Agree Module.portBlock m (m.shadowBl c bl) := by
  unfold Module.shadowBl
  exact .after (Module.setFld_portBlock _ _ _ (by unfold FE_BL_FIXED_B; omega)) <|
    .after (Module.setFld_portBlock _ _ _ (by unfold FE_BL_FIXED_B; omega)) <|
    .after (Module.setFld_portBlock _ _ _ (by unfold FE_BL_FIXED_A; omega)) <|
    .after (Module.setFld_portBlock _ _ _ (by unfold FE_BL_FIXED_A; omega)) .refl

theorem Module.shadowDefects_portBlock (m : Module) (c : Nat) (l : List Word) :
    Agree Module.portBlock m (m.shadowDefects c l) := by
  unfold Module.shadowDefects
  exact .after (Module.setFld_portBlock _ _ _ (by unfold FE_DPC_CFG; omega)) <|
    .kept (Module.setCtx_keeps ..) (fun _ => rfl) .refl

theorem deskew_ne_portState (c k : Nat) (hk : k < 4) (p : Fin 36) : CAP_PORT_STATE p ≠ CAP_DESKEW c k := by
  unfold CAP_PORT_STATE CAP_DESKEW
  omega

theorem deskew4_ne_portState (c : Nat) (p : Fin 36) : CAP_PORT_STATE p ≠ CAP_DESKEW4 c := by
  unfold CAP_PORT_STATE CAP_DESKEW4
  omega

theorem Module.calLoad_portStates (m : Module) (c : Nat) (r : CalCopy) : Agree Module.portStates m (m.calLoad c r) := by
  have far {x : Module} {o : Nat} (f : Bits) (v : Nat) (h : 0x040000 ≤ o) (hx : Agree Module.portStates m x) :
      Agree Module.portStates m (x.setFld o f v) := .after (x.setFld_portBlock f v h).portStates hx
  unfold Module.calLoad
  refine far _ _ (by unfold CAL_CTX_STAT; omega) <| .after (Module.reportStored_portBlock ..).portStates <|
    far _ _ (by unfold CAL_CTX_TEMP; omega) <| .kept (Module.setCal_keeps ..) (fun _ => rfl) <|
    .kept (Module.setCtx_keeps ..) (fun _ => rfl) ?_
  refine far _ _ (by unfold FE_WB_GAIN_B; omega) <| far _ _ (by unfold FE_WB_GAIN_A; omega) <|
    far _ _ (by unfold FE_WB_GAIN_A; omega) <| far _ _ (by unfold FE_EXP_VAL_B; omega) <|
    far _ _ (by unfold FE_EXP_VAL_B; omega) <| far _ _ (by unfold FE_EXP_VAL_A; omega) <|
    far _ _ (by unfold FE_EXP_VAL_A; omega) <| .after (Module.shadowDefects_portBlock ..).portStates <|
    .after (Module.shadowBl_portBlock ..).portStates <|
    .after (Module.setFld_portStates _ _ _ fun _ => .inr (by decide)) <|
    .after (Module.wr_portStates _ _ (deskew4_ne_portState c)) ?_
  refine List.foldlRecOn (motive := fun x => Agree Module.portStates m x) _ _ .refl fun x hx k hk => ?_
  exact .after (Module.wr_portStates _ _ (deskew_ne_portState c k (by simpa using hk))) hx

theorem Module.calRestore_portStates (m : Module) (c : Nat) : Agree Module.portStates m (m.calRestore c) := by
  have hstat : 0x040000 ≤ CAL_CTX_STAT c := by unfold CAL_CTX_STAT; omega
  have h : Agree Module.portStates m (((m.setCal c { m.cal c with blOk := false, blSet := false, tapsOk := false }).setFld
      (CAL_CTX_STAT c) CAL_CTX_STAT_valid 0).setFld (CAL_CTX_STAT c) CAL_CTX_STAT_stored 0) :=
    .after (Module.setFld_portBlock _ _ _ hstat).portStates <| .after (Module.setFld_portBlock _ _ _ hstat).portStates <|
      .kept (Module.setCal_keeps ..) (fun _ => rfl) .refl
  unfold Module.calRestore
  dsimp only
  split
  · exact .ite (fun _ => .after (Module.calLoad_portStates ..) h) fun _ => h
  · exact h

/-! ### Enabling and disabling a port -/

theorem Module.enablePort_portState (m : Module) (p : Fin 36) : (m.enablePort p).portState p = 1 := by
  unfold Module.enablePort
  exact (congrFun (Module.calRestore_portStates ..) p).trans (Module.portState_setPortState _ _ (by decide))

theorem Module.enablePort_seq (m : Module) (p : Nat) :
    (m.enablePort p).seqNext = m.seqNext.erase p ∧ (m.enablePort p).seqLast = m.seqLast.erase p := by
  unfold Module.enablePort
  exact ⟨(Module.calRestore_keeps ..).view (·.seqNext) fun _ => rfl, (Module.calRestore_keeps ..).view (·.seqLast) fun _ => rfl⟩

theorem Module.disablePort_portState (m : Module) (p : Fin 36) : (m.disablePort p).portState p = 0 := by
  unfold Module.disablePort Module.reportFill
  rw [Module.portState, Module.fld_setFld_other _ _ _ _ (by unfold CAP_PORT_STATE CAP_SQ_STAT; omega),
    Module.fld_setFld_other _ _ _ _ (by unfold CAP_PORT_STATE CAP_SQ_STAT; omega),
    Module.fld_wr_other _ _ _ (by unfold CAP_PORT_STATE CAP_FRAME_PERIOD; omega), Module.fld_wr_same]
  rfl

theorem Module.disablePort_port (m : Module) (p : Nat) : (m.disablePort p).port p =
    { ((m.calAbort p).port p).clearQueue with
      rstHigh := false, trigHigh := false, trigNet := none, trigLast := none, frame := none, lastStart := none
      lastEnd := none, lastAccepted := none, dropRun := false } :=
  Module.port_setPort_same ..
end

end Sys2Proof.Machine
end

section
set_option Elab.async false
/-!
The life of a camera port: enabling, training and disabling (R42 to R47).
-/
namespace Sys2Proof

/-- Where a value agrees with the register, a write of it leaves the register. -/
theorem RegRow.merge_getLsbD {r : RegRow} {old v : Word} {i : Nat} (hacc : r.fields.all (fun f => f.acc ≠ .w1c) = true)
    (hi : i < 32) (h : v.getLsbD i = old.getLsbD i) : (r.merge old v).getLsbD i = old.getLsbD i := by
  rw [RegRow.merge_eq]
  refine List.foldlRecOn (motive := fun w : Word => w.getLsbD i = old.getLsbD i) _ _ rfl fun w hw f hf => ?_
  unfold FieldRow.merged
  split
  · rw [Bits.getLsbD_put _ _ _ _ hi]
    split
    · next hin =>
      rw [Bits.testBit_of, Nat.add_sub_cancel' hin.1, decide_eq_true (by omega), Bool.true_and, h]
    · exact hw
  · next hw1 => exact absurd hw1 (by simpa using List.all_eq_true.1 hacc f hf)
  · exact hw

theorem getLsbD_zero (w : Word) : w.getLsbD 0 = decide ((⟨0, 0⟩ : Bits).of w = 1) := by
  have h := Bits.testBit_of ⟨0, 0⟩ w 0
  have hlt := Bits.of_lt ⟨0, 0⟩ w
  simp only [Nat.sub_self, Nat.zero_add, Nat.lt_one_iff, decide_true, Bool.true_and, Nat.pow_one] at h hlt
  rw [← h]
  rcases Nat.lt_succ_iff_lt_or_eq.1 hlt with h0 | h1
  · rw [Nat.lt_one_iff.1 h0]; rfl
  · rw [h1]; rfl

/-- Words that agree but for bit 0. -/
theorem or_one_eq {v w : Word} (h : ∀ i, 0 < i → i < 32 → v.getLsbD i = w.getLsbD i) : v ||| 1 = w ||| 1 := by
  refine BitVec.eq_of_getLsbD_eq fun i hi => ?_
  rw [BitVec.getLsbD_or, BitVec.getLsbD_or]
  rcases Nat.eq_zero_or_pos i with rfl | hpos
  · simp
  · rw [h i hpos hi]

/-- A register with one of its RW fields put anew differs from it in that field alone. -/
theorem merge_put_or_one {r : RegRow} (hacc : r.fields.all (fun f => f.acc ≠ .w1c) = true) (old : Word) (n : Nat) :
    old ||| 1 = r.merge old ((⟨0, 0⟩ : Bits).put old n) ||| 1 := by
  refine or_one_eq fun i hpos hi => (RegRow.merge_getLsbD hacc hi ?_).symm
  rw [Bits.getLsbD_put _ _ _ _ hi, if_neg (by simp; omega)]

namespace Machine

section
variable {s : State} {m k : Module} {c : Instr} {src : BusSource} {off i j st : Nat} {v : Word} {r : RegRow}
  {Q : Module → Prop}

theorem takesWord_of_regAt (hat : regAt off r i j = true) : takesWord off v = r.fields.all (·.takes v) := by
  simp [takesWord, findReg_of_regAt hat]

/-- An admitted write that its register's rule carries out. -/
theorem Admits.runs (ha : Admits s src true off) (hc : exec c s = ok s (s.accessWrite src off 4 v))
    (hat : regAt off r i j = true) (htakes : r.fields.all (·.takes v) = true)
    (hheld : s.setupHeld r i (s.rd off) (r.merge (s.rd off) v) = false) (hw : r.writable ≠ [])
    (hwr : s.writeReg src r i j off v (r.merge (s.rd off) v) = (stOk, k)) (ht : k.transition = s.transition)
    (hQ : Q (s.writeAnswer k src r i off v)) : Answers c s Q := by
  obtain ⟨hboot, -, hgate, hon⟩ := ha
  refine .of_ok hboot (hc.trans (congrArg _ (Module.accessWrite_done hgate hat hon htakes hheld hw hwr))) ?_
  rwa [Module.settleMove_writeAnswer ht]

/-- An admitted write that its register's rule turns away without a change. -/
theorem Admits.turned (ha : Admits s src true off) (hc : exec c s = ok s (s.accessWrite src off 4 v))
    (hat : regAt off r i j = true) (htakes : r.fields.all (·.takes v) = true)
    (hheld : s.setupHeld r i (s.rd off) (r.merge (s.rd off) v) = false) (hw : r.writable ≠ [])
    (hwr : s.writeReg src r i j off v (r.merge (s.rd off) v) = (st, s.toModule)) (hst : st ≠ stOk)
    (hQ : Q (s.busAnswer st (s.readAs r i off))) : Answers c s Q := by
  obtain ⟨hboot, -, hgate, hon⟩ := ha
  exact .of_ok hboot (hc.trans (congrArg _ (Module.accessWrite_turned hgate hat hon htakes hheld hw hwr hst rfl))) hQ

theorem Module.writeAnswer_portBlock : Agree Module.portBlock k (m.writeAnswer k src r i off v) :=
  .portBlock_of Module.writeAnswer_unreported

theorem Module.writeAnswer_port (p : Nat) : (m.writeAnswer k src r i off v).port p = k.port p :=
  Module.writeAnswer_keeps.view (fun x : Module => x.port p) fun _ => rfl

/-! ### CAP_PORT_CFG -/

/-- The row of CAP_PORT_CFG. -/
def portCfgRow : RegRow :=
  ⟨CAP_PORT_CFG 0, 0x1000, 36, 4, 1,
    [⟨CAP_PORT_CFG_strobe_pol, .rw, 0, 0, 1, .plain⟩, ⟨CAP_PORT_CFG_strobe_en, .rw, 0, 0, 1, .plain⟩,
      ⟨CAP_PORT_CFG_pclk_edge, .rw, 0, 0, 1, .plain⟩, ⟨CAP_PORT_CFG_vsync_pol, .rw, 0, 0, 1, .plain⟩,
      ⟨CAP_PORT_CFG_hsync_pol, .rw, 0, 0, 1, .plain⟩, ⟨CAP_PORT_CFG_vsync_mode, .rw, 0, 0, 1, .plain⟩,
      ⟨CAP_PORT_CFG_hsync_mode, .rw, 0, 0, 1, .plain⟩, ⟨CAP_PORT_CFG_mosaic, .rw, 0, 0, 5, .plain⟩,
      ⟨CAP_PORT_CFG_width, .rw, 0, 0, 4, .plain⟩, ⟨CAP_PORT_CFG_ddr, .rw, 0, 0, 1, .plain⟩,
      ⟨CAP_PORT_CFG_signalling, .rw, 0, 0, 1, .plain⟩, ⟨CAP_PORT_CFG_enable, .rw, 0, 0, 1, .plain⟩]⟩

theorem regAt_CAP_PORT_CFG : ∀ p : Fin 36, regAt (CAP_PORT_CFG p) portCfgRow p 0 = true := by decide +kernel

theorem Module.writeReg_portCfg (m : Module) (src : BusSource) (p : PortId) (v new : Word) :
    m.writeReg src portCfgRow p 0 (CAP_PORT_CFG p) v new = m.portCfgWrite p new :=
  (m.writeReg_cap src _ _ _ _ _ (by unfold CAP_PORT_CFG; omega) (by unfold CAP_PORT_CFG; omega)).trans rfl

/-- What a value that is written to CAP_PORT_CFG asks of DDR, seen on the register as the write leaves it. -/
theorem ddr_of_merge {s : State} {p : PortId} {cfg : Word}
    (h : CAP_PORT_CFG_ddr.of cfg = 1 → CAP_PORT_CFG_signalling.of cfg ≠ 0 ∧ (s.geom p).1 % 2 = 0) :
    (CAP_PORT_CFG_ddr.of (portCfgRow.merge (s.rd (CAP_PORT_CFG p)) cfg) = 1 &&
      (CAP_PORT_CFG_signalling.of (portCfgRow.merge (s.rd (CAP_PORT_CFG p)) cfg) = 0 || (s.geom p).1 % 2 = 1)) = false := by
  rw [RegRow.of_merge (n := 9) (b := CAP_PORT_CFG_ddr) (by decide),
    RegRow.of_merge (n := 10) (b := CAP_PORT_CFG_signalling) (by decide)]
  by_cases hddr : CAP_PORT_CFG_ddr.of cfg = 1
  · obtain ⟨hsig, hgeom⟩ := h hddr
    simp [hsig, hgeom]
  · simp [hddr]

theorem enable_of_merge (old cfg : Word) :
    (portCfgRow.merge old cfg).getLsbD 0 = decide (CAP_PORT_CFG_enable.of cfg = 1) := by
  rw [getLsbD_zero, show (⟨0, 0⟩ : Bits) = CAP_PORT_CFG_enable from rfl,
    RegRow.of_merge (n := 11) (b := CAP_PORT_CFG_enable) (by decide)]

theorem bit_enable (m : Module) (p : Nat) :
    (m.rd (CAP_PORT_CFG p)).getLsbD 0 = m.bit (CAP_PORT_CFG p) CAP_PORT_CFG_enable := getLsbD_zero _

theorem Module.portCfgWrite_enables {p : Nat} {v : Word}
    (hddr : (CAP_PORT_CFG_ddr.of v = 1 && (CAP_PORT_CFG_signalling.of v = 0 || (m.geom p).1 % 2 = 1)) = false)
    (hon : v.getLsbD 0 = true) (hoff : (m.rd (CAP_PORT_CFG p)).getLsbD 0 = false)
    (hopen : m.setupOpen p = true ∨ m.rd (CAP_PORT_CFG p) ||| 1 = v ||| 1) :
    m.portCfgWrite p v = (stOk, (m.wr (CAP_PORT_CFG p) v).enablePort p) := by
  have hno : ¬ (!m.setupOpen p && !decide (m.rd (CAP_PORT_CFG p) ||| 1 = v ||| 1)) = true := by
    rcases hopen with h | h
    · simp [h]
    · rw [decide_eq_true h, Bool.not_true, Bool.and_false]
      decide
  simp only [Bool.not_eq_true] at hno
  simp only [Module.portCfgWrite, hddr, hon, hoff, hno]
  simp

theorem Module.portCfgWrite_disables {p : Nat} {v : Word}
    (hddr : (CAP_PORT_CFG_ddr.of v = 1 && (CAP_PORT_CFG_signalling.of v = 0 || (m.geom p).1 % 2 = 1)) = false)
    (hon : v.getLsbD 0 = false) (hoff : (m.rd (CAP_PORT_CFG p)).getLsbD 0 = true)
    (hsame : m.rd (CAP_PORT_CFG p) ||| 1 = v ||| 1) (hst : m.portState p ≠ 4) :
    m.portCfgWrite p v = (stOk, ((m.wr (CAP_PORT_CFG p) v).trainAbort p).disablePort p) := by
  simp only [Module.portCfgWrite, hddr, hon, hoff, decide_eq_true hsame, decide_eq_false hst]
  simp

theorem Module.portCfgWrite_active {p : Nat} {v : Word} (hon : v.getLsbD 0 = false) (hst : m.portState p = 4) :
    m.portCfgWrite p v = (stRefused, m) := by
  simp only [Module.portCfgWrite, hon, decide_eq_true hst]
  simp

theorem Module.portCfgWrite_transition (m : Module) (p : Nat) (v : Word) :
    (m.portCfgWrite p v).2.transition = m.transition :=
  (Module.portCfgWrite_keeps m p v).view (·.transition) fun _ => rfl

end

section
variable {s : State} {src : BusSource} {p : PortId} {cfg : Word}

theorem portEnable_answers (ha : Admits s src true (CAP_PORT_CFG p)) (hst : s.portState p = 0)
    (hoff : s.bit (CAP_PORT_CFG p) CAP_PORT_CFG_enable = false) (htakes : takesWord (CAP_PORT_CFG p) cfg = true)
    (hon : CAP_PORT_CFG_enable.of cfg = 1)
    (hopen : s.streams.find? p = none ∨ cfg = CAP_PORT_CFG_enable.put (s.rd (CAP_PORT_CFG p)) 1)
    (hddr : CAP_PORT_CFG_ddr.of cfg = 1 → CAP_PORT_CFG_signalling.of cfg ≠ 0 ∧ (s.geom p).1 % 2 = 0) :
    Answers (.portEnable src p cfg) s fun m =>
      m.busStatus = 0 ∧ m.portState p = 1 ∧ SMap.get 0 m.seqNext p = 0 ∧ m.seqLast.find? p = none := by
  have hwr := Module.portCfgWrite_enables (m := s.toModule) (p := p) (ddr_of_merge hddr)
    ((enable_of_merge _ _).trans (decide_eq_true hon)) ((bit_enable _ _).trans hoff) <| hopen.imp
      (fun h => by simp [Module.setupOpen, hst, h]) fun h => by rw [h]; exact merge_put_or_one (by decide) _ _
  have ht := Module.portCfgWrite_transition s.toModule p (portCfgRow.merge (s.rd (CAP_PORT_CFG p)) cfg)
  rw [hwr] at ht
  obtain ⟨hnext, hlast⟩ := (s.wr (CAP_PORT_CFG p) (portCfgRow.merge (s.rd (CAP_PORT_CFG p)) cfg)).enablePort_seq p
  refine ha.runs (congrArg (ok s) (if_pos hon)) (regAt_CAP_PORT_CFG p)
    ((takesWord_of_regAt (regAt_CAP_PORT_CFG p)).symm.trans htakes) (Module.setupHeld_of_plain rfl _ _) (List.cons_ne_nil _ _)
    ((Module.writeReg_portCfg ..).trans hwr) ht ⟨rfl, ?_, ?_, ?_⟩
  · exact (Module.writeAnswer_portBlock.portState p.isLt).trans (Module.enablePort_portState _ p)
  · rw [SMap.get, Module.writeAnswer_keeps.view (·.seqNext) fun _ => rfl, hnext, SMap.find?_erase_same]
    rfl
  · rw [Module.writeAnswer_keeps.view (·.seqLast) fun _ => rfl, hlast, SMap.find?_erase_same]

theorem portDisable_answers (ha : Admits s src true (CAP_PORT_CFG p))
    (hcfg : cfg = CAP_PORT_CFG_enable.put (s.rd (CAP_PORT_CFG p)) 0) (htakes : takesWord (CAP_PORT_CFG p) cfg = true)
    (hen : s.bit (CAP_PORT_CFG p) CAP_PORT_CFG_enable = true)
    (hddr : CAP_PORT_CFG_ddr.of cfg = 1 → CAP_PORT_CFG_signalling.of cfg ≠ 0 ∧ (s.geom p).1 % 2 = 0) :
    Answers (.portDisable src p cfg) s fun m =>
      if s.portState p = 4 then m.busStatus = 3 ∧ OnlyRegs s m []
      else m.busStatus = 0 ∧ m.portState p = 0 ∧ (m.port p).rstHigh = false ∧ (m.port p).frame = none ∧
        (m.port p).queue = [] ∧ (m.port p).batches = [] := by
  have hoff : CAP_PORT_CFG_enable.of cfg = 0 := hcfg ▸ Bits.of_put _ _ _ (by decide) (by decide) (by decide)
  have hclear : (portCfgRow.merge (s.rd (CAP_PORT_CFG p)) cfg).getLsbD 0 = false := by
    rw [enable_of_merge, hoff]
    rfl
  have hexec : exec (.portDisable src p cfg) s = ok s (s.accessWrite src (CAP_PORT_CFG p) 4 cfg) :=
    congrArg (ok s) (if_pos hoff)
  have hfits := (takesWord_of_regAt (regAt_CAP_PORT_CFG p)).symm.trans htakes
  split
  · next hst =>
    exact ha.turned hexec (regAt_CAP_PORT_CFG p) hfits (Module.setupHeld_of_plain rfl _ _) (List.cons_ne_nil _ _)
      ((Module.writeReg_portCfg ..).trans (Module.portCfgWrite_active hclear hst)) (by decide) ⟨rfl, onlyRegs_busAnswer ..⟩
  · next hst =>
    have hwr := Module.portCfgWrite_disables (ddr_of_merge hddr) hclear ((bit_enable _ _).trans hen)
      (by rw [hcfg]; exact merge_put_or_one (by decide) _ _) hst
    have ht := Module.portCfgWrite_transition s.toModule p (portCfgRow.merge (s.rd (CAP_PORT_CFG p)) cfg)
    rw [hwr] at ht
    refine ha.runs hexec (regAt_CAP_PORT_CFG p) hfits (Module.setupHeld_of_plain rfl _ _) (List.cons_ne_nil _ _)
      ((Module.writeReg_portCfg ..).trans hwr) ht ⟨rfl, ?_, ?_⟩
    · exact (Module.writeAnswer_portBlock.portState p.isLt).trans (Module.disablePort_portState _ p)
    · rw [Module.writeAnswer_port, Module.disablePort_port]
      exact ⟨rfl, rfl, rfl, rfl⟩
end
end Machine
end Sys2Proof
end

section
set_option Elab.async false
/-!
Training a camera port, and the settling of its reset (R42, R43, R46).
-/
namespace Sys2Proof.Machine
open Sys2Proof

section
variable {s : State} {m k b : Module} {src : BusSource} {p : PortId} {v : Word}

/-- The taps of port p are as they were. -/
def KeepsTaps (m k : Module) (p : Nat) : Prop :=
  (∀ j < 4, k.rd (CAP_DESKEW p j) = m.rd (CAP_DESKEW p j)) ∧ k.rd (CAP_DESKEW4 p) = m.rd (CAP_DESKEW4 p)

theorem KeepsTaps.trans {l : Module} {p : Nat} (h : KeepsTaps m k p) (h' : KeepsTaps k l p) : KeepsTaps m l p :=
  ⟨fun j hj => (h'.1 j hj).trans (h.1 j hj), h'.2.trans h.2⟩

theorem Agree.keepsTaps (h : Agree Module.portBlock m k) (p : PortId) : KeepsTaps m k p :=
  ⟨fun _ hj => h.portBlock_rd (by unfold CAP_DESKEW; omega) (by unfold CAP_DESKEW; omega),
    h.portBlock_rd (by unfold CAP_DESKEW4; omega) (by unfold CAP_DESKEW4; omega)⟩

theorem keepsTaps_wr {off p : Nat} (m : Module) (v : Word) (h : off < CAP_DESKEW p 0) : KeepsTaps m (m.wr off v) p :=
  ⟨fun _ _ => Module.rd_wr_ne _ _ (by unfold CAP_DESKEW at *; omega),
    Module.rd_wr_ne _ _ (by unfold CAP_DESKEW at h; unfold CAP_DESKEW4; omega)⟩

theorem trainStat_lt_deskew (p : Nat) : CAP_TRAIN_STAT p < CAP_DESKEW p 0 := by
  unfold CAP_TRAIN_STAT CAP_DESKEW
  omega

theorem portState_lt_deskew (p : Nat) : CAP_PORT_STATE p < CAP_DESKEW p 0 := by
  unfold CAP_PORT_STATE CAP_DESKEW
  omega

theorem trainStat_ne_portState (p : Nat) : CAP_TRAIN_STAT p ≠ CAP_PORT_STATE p := by
  unfold CAP_TRAIN_STAT CAP_PORT_STATE
  omega

/-- What CAP_TRAIN_STAT shows. -/
theorem Agree.trainStat (h : Agree Module.portBlock m k) (p : PortId) : k.rd (CAP_TRAIN_STAT p) = m.rd (CAP_TRAIN_STAT p) :=
  h.portBlock_rd (by unfold CAP_TRAIN_STAT; omega) (by unfold CAP_TRAIN_STAT; omega)

/-! ### CAP_TRAIN_CTL -/

/-- The row of CAP_TRAIN_CTL. -/
def trainCtlRow : RegRow :=
  ⟨CAP_TRAIN_CTL 0, 0x1000, 36, 4, 1, [⟨CAP_TRAIN_CTL_abort, .wo, 0, 0, 1, .plain⟩, ⟨CAP_TRAIN_CTL_start, .wo, 0, 0, 1, .plain⟩]⟩

theorem regAt_CAP_TRAIN_CTL : ∀ p : Fin 36, regAt (CAP_TRAIN_CTL p) trainCtlRow p 0 = true := by decide +kernel

theorem Module.writeReg_trainCtl (m : Module) (src : BusSource) (p : PortId) (v new : Word) :
    m.writeReg src trainCtlRow p 0 (CAP_TRAIN_CTL p) v new = m.trainCtl p v :=
  (m.writeReg_cap src _ _ _ _ _ (by unfold CAP_TRAIN_CTL; omega) (by unfold CAP_TRAIN_CTL; omega)).trans rfl

/-- The state of a port whose training has begun. -/
def Module.trainBegun (m : Module) (p : Nat) : Module :=
  ((m.calAbort p).setPortState p 3).wr (CAP_TRAIN_STAT p) (CAP_TRAIN_STAT_result.put 0 1)

theorem Module.trainCtl_start (m : Module) (p : Nat) : m.trainCtl p (CAP_TRAIN_CTL_start.put 0 1) =
    if m.portState p = 2 then (stOk, m.trainBegun p) else (stRefused, m) := rfl

theorem Module.trainCtl_abort {p : Nat} (h : m.portState p = 3) :
    m.trainCtl p (CAP_TRAIN_CTL_abort.put 0 1) = (stOk, (m.trainAbort p).calAbort p) := by
  unfold Module.trainCtl
  rw [if_neg (by decide), if_pos (by rw [h]; decide)]

theorem Module.trainCtl_transition (m : Module) (p : Nat) (v : Word) : (m.trainCtl p v).2.transition = m.transition :=
  (Module.trainCtl_keeps m p v).view (·.transition) fun _ => rfl

theorem Module.trainBegun_portState (m : Module) (p : Nat) : (m.trainBegun p).portState p = 3 :=
  (Module.fld_wr_other _ _ _ (trainStat_ne_portState p).symm).trans (Module.portState_setPortState _ _ (by decide))

theorem Module.trainBegun_result (m : Module) (p : Nat) :
    (m.trainBegun p).fld (CAP_TRAIN_STAT p) CAP_TRAIN_STAT_result = 1 := (Module.fld_wr_same ..).trans (by decide)

theorem Module.trainAbort_eq {p : Nat} (h : m.portState p = 3) :
    m.trainAbort p = (m.setFld (CAP_TRAIN_STAT p) CAP_TRAIN_STAT_result 6).setPortState p 2 := if_pos h

theorem trainStart_answers (ha : Admits s src true (CAP_TRAIN_CTL p)) : Answers (.trainStart src p) s fun m =>
    if s.portState p = 2 then m.busStatus = 0 ∧ m.portState p = 3 ∧ m.fld (CAP_TRAIN_STAT p) CAP_TRAIN_STAT_result = 1
    else m.busStatus = 3 ∧ OnlyRegs s m [] := by
  have hwr := Module.trainCtl_start s.toModule p
  have ht := Module.trainCtl_transition s.toModule p (CAP_TRAIN_CTL_start.put 0 1)
  split
  · next hst =>
    rw [if_pos hst] at hwr
    rw [hwr] at ht
    refine ha.runs rfl (regAt_CAP_TRAIN_CTL p) (by decide) (Module.setupHeld_of_plain rfl _ _) (List.cons_ne_nil _ _)
      ((Module.writeReg_trainCtl ..).trans hwr) ht ⟨rfl, ?_, ?_⟩
    · exact (Module.writeAnswer_portBlock.portState p.isLt).trans (Module.trainBegun_portState ..)
    · exact (congrArg _ (Module.writeAnswer_portBlock.trainStat p)).trans (Module.trainBegun_result ..)
  · next hst =>
    rw [if_neg hst] at hwr
    exact ha.turned rfl (regAt_CAP_TRAIN_CTL p) (by decide) (Module.setupHeld_of_plain rfl _ _) (List.cons_ne_nil _ _)
      ((Module.writeReg_trainCtl ..).trans hwr) (by decide) ⟨rfl, onlyRegs_busAnswer ..⟩

theorem trainAbort_answers (ha : Admits s src true (CAP_TRAIN_CTL p)) (hst : s.portState p = 3) :
    Answers (.trainAbort src p) s fun m =>
      m.busStatus = 0 ∧ m.portState p = 2 ∧ m.fld (CAP_TRAIN_STAT p) CAP_TRAIN_STAT_result = 6 ∧
      (∀ k < 4, m.rd (CAP_DESKEW p k) = s.rd (CAP_DESKEW p k)) ∧ m.rd (CAP_DESKEW4 p) = s.rd (CAP_DESKEW4 p) := by
  have hwr := Module.trainCtl_abort hst
  have ht := Module.trainCtl_transition s.toModule p (CAP_TRAIN_CTL_abort.put 0 1)
  rw [hwr] at ht
  have hab := Module.trainAbort_eq hst
  have hready : (s.trainAbort p).portState p = 2 := hab ▸ Module.portState_setPortState _ _ (by decide)
  have hkept : Agree Module.portBlock (s.trainAbort p)
      (s.writeAnswer ((s.trainAbort p).calAbort p) src trainCtlRow p (CAP_TRAIN_CTL p) (CAP_TRAIN_CTL_abort.put 0 1)) :=
    .after Module.writeAnswer_portBlock <| Module.calAbort_portBlock _ p.isLt (by rw [hready]; decide)
  have hresult : (s.trainAbort p).fld (CAP_TRAIN_STAT p) CAP_TRAIN_STAT_result = 6 := by
    rw [hab, Module.setPortState, Module.fld_setFld_other _ _ _ _ (trainStat_ne_portState p)]
    exact Module.fld_setFld _ _ _ _ (by decide) (by decide) (by decide)
  have htaps : KeepsTaps s.toModule (s.trainAbort p) p := by
    rw [hab]
    exact (keepsTaps_wr _ _ (trainStat_lt_deskew p)).trans (keepsTaps_wr _ _ (portState_lt_deskew p))
  exact ha.runs rfl (regAt_CAP_TRAIN_CTL p) (by decide) (Module.setupHeld_of_plain rfl _ _) (List.cons_ne_nil _ _)
    ((Module.writeReg_trainCtl ..).trans hwr) ht
    ⟨rfl, (hkept.portState p.isLt).trans hready, (congrArg _ (hkept.trainStat p)).trans hresult, htaps.trans (hkept.keepsTaps p)⟩

/-! ### The end of a training -/

theorem Module.trainEnd_portState (m : Module) (p result line eye : Nat) : (m.trainEnd p result line eye).portState p = 2 :=
  Module.portState_setPortState _ _ (by decide)

theorem Module.trainEnd_result (m : Module) (p line eye : Nat) {result : Nat} (h : result < 8) :
    (m.trainEnd p result line eye).fld (CAP_TRAIN_STAT p) CAP_TRAIN_STAT_result = result := by
  unfold Module.trainEnd
  rw [Module.setPortState, Module.fld_setFld_other _ _ _ _ (trainStat_ne_portState p), Module.fld_wr_same,
    Bits.of_put_beside (by decide), Bits.of_put_beside (by decide)]
  exact Bits.of_put _ _ _ (by decide) (by decide) h

theorem Module.trainEnd_eye (m : Module) (p result line : Nat) {eye : Nat} (h : eye < 256) :
    (m.trainEnd p result line eye).fld (CAP_TRAIN_STAT p) CAP_TRAIN_STAT_min_eye = eye := by
  unfold Module.trainEnd
  rw [Module.setPortState, Module.fld_setFld_other _ _ _ _ (trainStat_ne_portState p), Module.fld_wr_same]
  exact Bits.of_put _ _ _ (by decide) (by decide) h

theorem Module.trainEnd_taps (m : Module) (p result line eye : Nat) : KeepsTaps m (m.trainEnd p result line eye) p :=
  (keepsTaps_wr _ _ (trainStat_lt_deskew p)).trans (keepsTaps_wr _ _ (portState_lt_deskew p))

theorem Module.trainResult_portBlock (m : Module) (p : Nat) (x : List Nat × Nat × Nat) :
    Agree Module.portBlock m (m.trainResult p x) := .kept (Module.trainResult_keeps ..) (fun _ => rfl) .refl

theorem trainNoSignalTimeout_answers (hboot : s.boot ≠ .off) (hst : s.portState p = 3) :
    Answers (.trainNoSignalTimeout p) s fun m =>
      m.portState p = 2 ∧ m.fld (CAP_TRAIN_STAT p) CAP_TRAIN_STAT_result = 5 ∧
      (∀ k < 4, m.rd (CAP_DESKEW p k) = s.rd (CAP_DESKEW p k)) ∧ m.rd (CAP_DESKEW4 p) = s.rd (CAP_DESKEW4 p) := by
  have hkept := Module.trainResult_portBlock (s.trainEnd p 5 0 0) p ([], 0, 0)
  exact .of_ok hboot (congrArg (ok s) (if_pos hst))
    ⟨(hkept.portState p.isLt).trans (Module.trainEnd_portState ..),
      (congrArg _ (hkept.trainStat p)).trans (Module.trainEnd_result _ _ _ _ (by decide)),
      (Module.trainEnd_taps ..).trans (hkept.keepsTaps p)⟩

/-! ### What the sweep and the verification find -/

/-- A line's pixels show the wanted bit. -/
def linePasses (s : Module) (p j : Nat) (px : List (Bool × W16)) : Bool :=
  px.all fun x => x.2.getLsbD j =
    (s.fld (CAP_TRAIN_PAT p) (if x.1 then CAP_TRAIN_PAT_pattern_b else CAP_TRAIN_PAT_pattern_a)).testBit j

theorem Module.tapOk_eq (m : Module) (p j : Nat) (px : List (Bool × W16)) : m.tapOk p j px = linePasses m p j px := by
  have hbit (odd : Bool) : (m.trainWant p odd).getLsbD j =
      (m.fld (CAP_TRAIN_PAT p) (if odd then CAP_TRAIN_PAT_pattern_b else CAP_TRAIN_PAT_pattern_a)).testBit j := by
    have hlt : m.fld (CAP_TRAIN_PAT p) (if odd then CAP_TRAIN_PAT_pattern_b else CAP_TRAIN_PAT_pattern_a) < 2 ^ 16 := by
      cases odd <;> exact Bits.of_lt _ _
    rw [Module.trainWant, BitVec.getLsbD_ofNat]
    by_cases hj : j < 16
    · simp [hj]
    · rw [Nat.testBit_eq_false_of_lt (hlt.trans_le (Nat.pow_le_pow_right (by decide) (Nat.not_lt.1 hj))), Bool.and_false]
  simp only [Module.tapOk, linePasses, hbit]

/-- The table of a sweep of 128 taps. -/
def sweepTable (s : Module) (p w : Nat) (sweep : List (List (Bool × W16))) : List (List Bool) :=
  (List.range w).map fun j => sweep.map fun px => linePasses s p j (px.take 4096)

theorem Module.trainTable_eq (m : Module) (p w : Nat) {sweep : List (List (Bool × W16))} (h : sweep.length = 128) :
    m.trainTable p w (sweep.take 128) = sweepTable m p w sweep := by
  simp only [Module.trainTable, Module.tapOk_eq, sweepTable, List.take_of_length_le h.le]

theorem trainSweep_eye_lt (w : Nat) (table : List (List Bool)) : (trainSweep w table).2.2 < 256 := by
  have hmin (l : List (Nat × Nat)) : l.foldl (fun a r => min a r.2) 128 ≤ 128 :=
    foldl_keeps (P := (· ≤ 128)) l _ (Nat.le_refl _) fun a _ ha => (Nat.min_le_left ..).trans ha
  exact Nat.lt_of_le_of_lt (hmin _) (by decide)

theorem verify_errors {m : Module} {p w : Nat} {l : List (Bool × W16)} :
    ((List.range w).filter fun j => !m.tapOk p j l).length ≠ 0 ↔ ((List.range w).all fun j => linePasses m p j l) = false := by
  simp [Module.tapOk_eq, List.filter_eq_nil_iff]

/-! ### The taps of a training that has passed -/

theorem Module.rd_writeTaps (m : Module) (p : Nat) (data : List Nat) (sync : Nat) {o : Nat} (h : o < CAP_DESKEW p 0)
    (hs : o ≠ CAP_PORT_STATE p) : (m.writeTaps p data sync).rd o = m.rd o := by
  have hd (k : Nat) : o ≠ CAP_DESKEW p k := by unfold CAP_DESKEW at *; omega
  have hd4 : o ≠ CAP_DESKEW4 p := by unfold CAP_DESKEW at h; unfold CAP_DESKEW4; omega
  unfold Module.writeTaps
  rw [Module.rd_setFld_ne _ _ _ hs, Module.rd_setFld_ne _ _ _ hd4]
  exact foldl_keeps (P := fun x : Module => x.rd o = m.rd o) _ _ rfl fun x i hx => (Module.rd_setFld_ne _ _ _ (hd _)).trans hx

theorem Module.writeTaps_portState (m : Module) (p : PortId) (data : List Nat) (sync : Nat) :
    (m.writeTaps p data sync).portState p = m.portState p := by
  have hd (k : Nat) : CAP_PORT_STATE p ≠ CAP_DESKEW p k := by unfold CAP_PORT_STATE CAP_DESKEW; omega
  unfold Module.writeTaps
  refine (Module.fld_setFld_ne _ _ _ _ _ (by decide) (by decide) (by decide)).trans ?_
  rw [Module.fld_setFld_other _ _ _ _ (deskew4_ne_portState p p)]
  exact foldl_keeps (P := fun x : Module => x.portState p = m.portState p) _ _ rfl fun x i hx =>
    (Module.fld_setFld_other _ _ _ _ (hd _)).trans hx

/-- A training that has come to its end: the port is READY and CAP_TRAIN_STAT shows the result and the narrowest eye. -/
def TrainEnded (m k : Module) (p result eye : Nat) : Prop :=
  k.portState p = 2 ∧ k.fld (CAP_TRAIN_STAT p) CAP_TRAIN_STAT_result = result ∧
    k.fld (CAP_TRAIN_STAT p) CAP_TRAIN_STAT_min_eye = eye ∧ (result ≠ 2 → KeepsTaps m k p)

theorem trainEnded_of_trainEnd (m : Module) (p : PortId) {result eye : Nat} (line : Nat) (x : List Nat × Nat × Nat)
    (hr : result < 8) (he : eye < 256) : TrainEnded m ((m.trainEnd p result line eye).trainResult p x) p result eye := by
  have hkept := Module.trainResult_portBlock (m.trainEnd p result line eye) p x
  exact ⟨(hkept.portState p.isLt).trans (Module.trainEnd_portState ..),
    (congrArg _ (hkept.trainStat p)).trans (Module.trainEnd_result _ _ _ _ hr),
    (congrArg _ (hkept.trainStat p)).trans (Module.trainEnd_eye _ _ _ _ he),
    fun _ => (Module.trainEnd_taps ..).trans (hkept.keepsTaps p)⟩

theorem TrainEnded.writeTaps {eye : Nat} (h : TrainEnded m k p 2 eye) (data : List Nat) (sync : Nat) :
    TrainEnded m ((k.writeTaps p data sync).reportStored p) p 2 eye := by
  obtain ⟨hst, hresult, heye, -⟩ := h
  have hkept := (k.writeTaps p data sync).reportStored_portBlock p
  have hrd : ((k.writeTaps p data sync).reportStored p).rd (CAP_TRAIN_STAT p) = k.rd (CAP_TRAIN_STAT p) :=
    (hkept.trainStat p).trans (Module.rd_writeTaps _ _ _ _ (trainStat_lt_deskew p) (trainStat_ne_portState p))
  exact ⟨(hkept.portState p.isLt).trans ((Module.writeTaps_portState ..).trans hst), (congrArg _ hrd).trans hresult,
    (congrArg _ hrd).trans heye, fun h2 => absurd rfl h2⟩

/-- What a training finds. -/
theorem trainDone_ended {sweep : List (List (Bool × W16))} {verify : List (Bool × W16)} (m : Module) (hst : m.portState p = 3)
    (hsweep : sweep.length = 128) (hpx : ∀ px ∈ sweep, 4096 ≤ px.length) (hverify : verify.length = 65536) {w : Nat}
    (hw : w = dataBits (m.fld (CAP_PORT_CFG p) CAP_PORT_CFG_width)) :
    TrainEnded m (trainDone p sweep verify m) p
      (if (trainSweep w (sweepTable m p w sweep)).1.isSome then 3
        else if (List.range w).all fun j => linePasses m p j (verify.take 65536) then 2 else 4)
      (trainSweep w (sweepTable m p w sweep)).2.2 := by
  have hguard : (decide (m.portState p ≠ 3) || decide (sweep.length < 128) || sweep.any fun x => decide (x.length < 4096)) =
      false := by
    simpa [hst, hsweep] using hpx
  have heye := trainSweep_eye_lt w (sweepTable m p w sweep)
  unfold trainDone
  rw [if_neg (by rw [hguard]; decide)]
  simp only [← hw, Module.trainTable_eq _ _ _ hsweep]
  generalize trainSweep w (sweepTable m p w sweep) = found at heye ⊢
  obtain ⟨bad, taps, eye⟩ := found
  cases bad with
  | some j => exact trainEnded_of_trainEnd _ _ _ _ (by decide) heye
  | none =>
    dsimp only
    rw [if_neg (by omega)]
    simp only [Option.isSome_none, Bool.false_eq_true, if_false]
    by_cases herr : ((List.range w).all fun j => linePasses m p j (verify.take 65536)) = true
    · have hno : ¬ ((List.range w).filter fun j => !m.tapOk p j (verify.take 65536)).length ≠ 0 := by
        rw [verify_errors, herr]
        decide
      rw [if_neg hno, if_pos herr]
      split
      · exact trainEnded_of_trainEnd _ _ _ _ (by decide) heye
      · exact (trainEnded_of_trainEnd _ _ _ _ (by decide) heye).writeTaps _ _
    · rw [if_pos (verify_errors.2 (Bool.eq_false_of_not_eq_true herr)), if_neg herr]
      exact trainEnded_of_trainEnd _ _ _ _ (by decide) heye
end

end Sys2Proof.Machine
namespace Sys2Proof
open Machine

/-- Settles O11: each event of the port's life is taken through the rule of its register or timer; the calibration run that
ends or is restored with it leaves the state of the port. -/
theorem portLifeCompletes : Obligations.PortLifeCompletes := by
  intro src p s hboot
  refine ⟨fun cfg ha hst hoff htakes hon hopen hddr => portEnable_answers ha hst hoff htakes hon hopen hddr, fun hst => ?_,
    fun hst hhigh => ?_, fun ha => trainStart_answers ha, fun ha hst => trainAbort_answers ha hst,
    fun hst => trainNoSignalTimeout_answers hboot hst, fun sweep verify hst hsweep hpx hverify => ?_,
    fun cfg ha hcfg htakes hen hddr => portDisable_answers ha hcfg htakes hen hddr⟩
  · exact .of_ok hboot (congrArg (ok s) (if_pos hst)) rfl
  · refine .of_ok hboot (congrArg (ok s) (if_pos (by rw [hst, hhigh]; decide))) ?_
    split
    · exact ⟨Module.portState_setPortState _ _ (by decide), Module.port_setPort_same .., rfl, List.append_assoc ..⟩
    · exact ⟨Module.portState_setPortState _ _ (by decide), Module.port_setPort_same .., rfl, (List.append_nil _).symm⟩
  · obtain ⟨hready, hresult, heye, htaps⟩ := trainDone_ended s.toModule hst hsweep hpx hverify rfl
    refine .of_ok hboot rfl ⟨hready, hresult, heye, fun h => (htaps ?_).1⟩
    rwa [← hresult]

end Sys2Proof
end

section
set_option Elab.async false
/-!
The instructions of an engine program that work on registers, slots and loops (R201 to R208), and what a read of an engine
reports.
-/
namespace Sys2Proof.Machine
open Sys2Proof

section
variable {s : State} {m : Module} {e : EngPos} {w : Walker} {op i a n : Nat} {t : EngTask} {c : Instr}

@[simp] theorem EngTask.walk_setWalk (t : EngTask) (w : Walker) (k : WalkerSt) : (t.setWalk w k).walk w = k := by
  cases w <;> rfl

/-- An instruction that leaves a task. -/
theorem taskBecomes_of_put {f : Module → EngTask → WalkerSt → Nat → Module} {t' : EngTask} {Q : EngTask → Prop}
    (h : AtInstr s e w op t i) (hexec : exec c s = ok s (s.toModule.instr e w op f))
    (hput : f s.toModule t (t.walk w).leaveGate i = s.toModule.putTask e t') (hQ : Q t') : TaskBecomes c s e Q :=
  ⟨s.toModule.putTask e t', by rw [hexec, instr_of_atInstr h, hput, ok_on _ _ h.1], _, rfl, hQ⟩

/-! ### What a read meets -/

theorem Module.meet_of_none (h : m.latent = []) (source : Nat) (spans : List (Nat × Nat)) : m.meet source spans = m := by
  unfold Module.meet Module.meetWhere
  simp only [h, List.filter_nil, List.foldl_nil]
  rw [← h]

theorem Module.readBad_of_clean (h : m.badIn a n = []) : m.readBad a n = (false, m) := by
  simp [Module.readBad, h]

theorem Module.readBad_of_bad (h : m.badIn a n ≠ []) : m.readBad a n = (true, m.reportBad a n) := by
  simp [Module.readBad, h]

theorem Module.engRead_of_clean (hl : m.latent = []) (h : m.badIn a n = []) : m.engRead e a n = (false, m) := by
  rw [Module.engRead, Module.meet_of_none hl, Module.readBad_of_clean h]

theorem Module.engRead_of_bad (hl : m.latent = []) (h : m.badIn a n ≠ []) : m.engRead e a n = (true, m.reportBad a n) := by
  rw [Module.engRead, Module.meet_of_none hl, Module.readBad_of_bad h]

/-! ### A task that is stopped -/

/-- What an abort leaves of a task. -/
def EngTask.stopped (t : EngTask) (a : Abort) : EngTask :=
  { t with abort := some a, writes := [], qa := [], qb := [], qx := [], res := [], acc := [], ra := [], rb := [], lib := none
           cancelled := t.cancelled + t.tilesOut }

/-- An engine stops the task that runs: no other state than the position's and its registers'. -/
theorem Module.abortTask_task (ht : (m.eng e).task = some t) (hab : t.abort = none) (a : Abort) :
    ((m.abortTask e a).eng e).task = some (t.stopped a) := by
  unfold Module.abortTask
  simp only [ht, hab, Option.isSome_none, Bool.false_eq_true, if_false]
  split
  · rw [Module.eng_setEng_same]
    rfl
  · rw [(Module.count_keeps ..).view (fun x : Module => x.eng e) fun _ => rfl,
      (Module.setFld_keeps ..).view (fun x : Module => x.eng e) fun _ => rfl, Module.eng_setEng_same]
    rfl

theorem ldp_poisoned (h : AtInstr s e w 5 t i) (hl : s.latent = []) (hbad : s.badIn (t.args + opnd i 4 2) 4 ≠ [])
    (hbusy : s.spmBusy (t.args + opnd i 4 2) 4 = false) : Answers (.ldp e w) s fun m =>
      ∃ t', (m.eng e).task = some t' ∧ (t'.abort.map (·.status)) = some 5 ∧ t'.acc = [] ∧ m.mem = s.mem ∧ m.syncs = s.syncs := by
  have hrun : ldp e w s.toModule = (s.reportBad (t.args + opnd i 4 2) 4).abortTask e abPoison := by
    unfold ldp
    rw [instr_of_atInstr h]
    simp only [hbusy, Module.engRead_of_bad hl hbad, Bool.false_eq_true, if_false, if_true]
  have hkept := (Module.abortTask_keeps (s.reportBad (t.args + opnd i 4 2) 4) e abPoison).after rfl
    ((s.reportBad_keeps (t.args + opnd i 4 2) 4).mono (G := Fld.fault ||| Fld.engines) rfl)
  have htask : ((s.reportBad (t.args + opnd i 4 2) 4).eng e).task = some t :=
    ((s.reportBad_keeps _ _).view (fun x : Module => (x.eng e).task) fun _ => rfl).trans h.2.1
  refine .of_ok h.1 (congrArg (ok s) hrun) ⟨_, Module.abortTask_task htask h.2.2.1 _, rfl, rfl, ?_, ?_⟩
  · exact hkept.view (·.mem) fun _ => rfl
  · exact hkept.view (·.syncs) fun _ => rfl

end
end Sys2Proof.Machine
namespace Sys2Proof
open Machine

/-- Settles O19: each instruction passes its walker with one component changed; a poisoned LDP stops the task. -/
theorem engineScalarInstructionsComplete : Obligations.EngineScalarInstructionsComplete := by
  intro e w t i s k
  refine ⟨fun h => taskBecomes_of_pass h rfl rfl rfl, fun h => ?_, fun h hregs hdst => ?_,
    fun h hl hbad hbusy => ldp_poisoned h hl hbad hbusy, fun h hl hbad hbusy hregs hdst => ?_, fun h hslots hdst => ?_, fun h => ?_⟩
  · cases w with
    | execute =>
      exact taskBecomes_of_put h rfl rfl ⟨rfl, fun hw => (nomatch hw), fun _ => ⟨rfl, rfl, rfl, rfl, rfl⟩⟩
    | badger => exact taskBecomes_of_put h rfl rfl ⟨rfl, fun _ => rfl, fun hw => (nomatch hw)⟩
  · exact taskBecomes_of_pass h rfl rfl ⟨_, rfl, k.reg_setReg_same _ _ (hregs ▸ hdst), fun r => k.reg_setReg_ne _ r _,
      k.setReg_frame _ _⟩
  · refine taskBecomes_of_pass h rfl (k := k.setReg (opnd i 2 1) (BitVec.ofNat 32 (s.num (t.args + opnd i 4 2) 4))) ?_
      ⟨_, rfl, k.reg_setReg_same _ _ (hregs ▸ hdst), fun r => k.reg_setReg_ne _ r _, k.setReg_frame _ _⟩
    simp only [hbusy, Module.engRead_of_clean hl hbad, Bool.false_eq_true, if_false]
    rfl
  · refine taskBecomes_of_pass h rfl rfl ⟨_, rfl, ?_, fun r hr => ?_, rfl⟩
    · rw [setAt_eq_set]
      exact List.getElem?_set_self (hslots ▸ hdst)
    · rw [setAt_eq_set]
      exact List.getElem?_set_ne (Ne.symm hr)
  · refine taskBecomes_of_put h rfl rfl ⟨fun hn => ?_, fun hn => ?_⟩
    · rw [if_pos hn]
    · rw [if_neg hn, EngTask.walk_setWalk]
      exact ⟨rfl, _, rfl, rfl, rfl, rfl, rfl, rfl, rfl⟩

end Sys2Proof
end

section
set_option Elab.async false
/-!
The instructions of an engine program that work on tiles, blocks and accumulator rows (R196, R210 to R220).
-/
namespace Sys2Proof.Machine
open Sys2Proof

section
variable {s : State} {m : Module} {e : EngPos} {w : Walker} {op i a n : Nat} {t : EngTask} {c : Instr}

theorem TaskBecomes.mono {P Q : EngTask → Prop} (h : TaskBecomes c s e P) (hPQ : ∀ t', P t' → Q t') : TaskBecomes c s e Q := by
  obtain ⟨m, hm, t', ht', hP⟩ := h
  exact ⟨m, hm, t', ht', hPQ _ hP⟩

theorem TaskBecomesArith.mono {P Q : EngTask → Prop} (h : TaskBecomesArith c s e P) (hPQ : ∀ t', P t' → Q t') :
    TaskBecomesArith c s e Q := by
  obtain ⟨m, hm, t', fl, ht', hP⟩ := h
  exact ⟨m, hm, t', fl, ht', hPQ _ hP⟩

/-- An instruction of the execute walker alone, at the instruction. -/
theorem execOnly_of_atInstr (h : AtInstr s e .execute op t i) (f : Module → EngTask → WalkerSt → Nat → Module) :
    s.toModule.execOnly e .execute op f = f s.toModule t t.exec.leaveGate i :=
  (instr_of_atInstr h _).trans rfl

/-- An instruction of the execute walker alone that leaves a task. -/
theorem taskBecomes_of_execOnly {f : Module → EngTask → WalkerSt → Nat → Module} {t' : EngTask} {Q : EngTask → Prop}
    (h : AtInstr s e .execute op t i) (hexec : exec c s = ok s (s.toModule.execOnly e .execute op f))
    (hput : f s.toModule t t.exec.leaveGate i = s.toModule.putTask e t') (hQ : Q t') : TaskBecomes c s e Q :=
  ⟨s.toModule.putTask e t', by rw [hexec, execOnly_of_atInstr h, hput, ok_on _ _ h.1], _, rfl, hQ⟩

/-- An instruction of the execute walker alone that sets arithmetic flags and leaves a task. -/
theorem taskBecomesArith_of_execOnly {f : Module → EngTask → WalkerSt → Nat → Module} {t' : EngTask} {fl : Nat}
    {Q : EngTask → Prop} (h : AtInstr s e .execute op t i) (hexec : exec c s = ok s (s.toModule.execOnly e .execute op f))
    (hput : f s.toModule t t.exec.leaveGate i = (s.arith e fl).putTask e t') (hQ : Q t') : TaskBecomesArith c s e Q :=
  ⟨(s.arith e fl).putTask e t', by rw [hexec, execOnly_of_atInstr h, hput, ok_on _ _ h.1], _, _, rfl, hQ⟩

/-! ### Accumulator rows -/

@[simp] theorem EngTask.accRow_setRow_same (t : EngTask) (r : Nat) (x : AccRow) : (t.setRow r x).accRow r = x := by
  simp [EngTask.accRow, EngTask.setRow]

theorem EngTask.accRow_setRow_ne (t : EngTask) {r q : Nat} (x : AccRow) (h : q ≠ r) : (t.setRow r x).accRow q = t.accRow q := by
  simp [EngTask.accRow, EngTask.setRow, SMap.get_set_ne _ _ _ _ h]

/-- From t to t' only the n accumulator rows from r0 on change, each as P tells. -/
structure RowsChange (r0 n : Nat) (P : AccRow → AccRow → Prop) (t t' : EngTask) : Prop where
  rest : { t' with acc := [] } = { t with acc := [] }
  out : ∀ r, r < r0 ∨ r0 + n ≤ r → t'.accRow r = t.accRow r
  inside : ∀ j, j < n → P (t.accRow (r0 + j)) (t'.accRow (r0 + j))

/-- A loop that stores a new row in place of each row of a range. -/
theorem rowsChange_foldl {P : AccRow → AccRow → Prop} {F : EngTask → Nat → EngTask} {r0 : Nat}
    (hF : ∀ t j, ∃ x, F t j = t.setRow (r0 + j) x ∧ P (t.accRow (r0 + j)) x) (n : Nat) (t : EngTask) :
    RowsChange r0 n P t ((List.range n).foldl F t) := by
  induction n with
  | zero => exact ⟨rfl, fun _ _ => rfl, fun _ h => absurd h (Nat.not_lt_zero _)⟩
  | succ n ih =>
    rw [List.range_succ, List.foldl_append, List.foldl_cons, List.foldl_nil]
    obtain ⟨x, hx, hP⟩ := hF ((List.range n).foldl F t) n
    rw [hx]
    refine ⟨ih.rest, fun r hr => ?_, fun j hj => ?_⟩
    · rw [EngTask.accRow_setRow_ne _ _ (by omega), ih.out r (by omega)]
    · rcases Nat.lt_succ_iff_lt_or_eq.1 hj with hlt | rfl
      · rw [EngTask.accRow_setRow_ne _ _ (by omega)]
        exact ih.inside j hlt
      · rw [EngTask.accRow_setRow_same, ← ih.out (r0 + j) (.inr (Nat.le_refl _))]
        exact hP

/-- The columns of a row from n on are those of another. -/
def SameColumns (n : Nat) (r r' : AccRow) : Prop := ∀ c, c < 48 → n ≤ c → r'.cells[c]? = r.cells[c]?

/-- A row of 48 cells formed column by column shows in a column what was formed for it. -/
theorem cell_map_range {f : Nat → Word} {c : Nat} (hc : c < 48) : ((List.range 48).map f)[c]? = some (f c) := by
  simp [hc]

theorem cell_getD {l : List Word} (hl : l.length = 48) {c : Nat} (hc : c < 48) : some ((l[c]?).getD 0) = l[c]? := by
  simp [hl, hc]

theorem AccRow.accumulate_int_columns {r : AccRow} (hfp : r.fp = false) (hlen : r.cells.length = 48) {f : AccFlags} {n k : Nat}
    {pi : Nat → List Int} {pf : Nat → List Fv} : SameColumns n r (r.accumulate true f n k pi pf) := by
  intro c hc hn
  have hint : r.toInt = r := by simp [AccRow.toInt, hfp]
  simp only [AccRow.accumulate, if_true, cell_map_range hc, if_neg (Nat.not_lt.2 hn), hint]
  cases f.clear <;> exact cell_getD hlen hc

theorem AccRow.accumulate_fp_columns {r : AccRow} (hfp : r.fp = true) (hlen : r.cells.length = 48) {f : AccFlags} {n k : Nat}
    {pi : Nat → List Int} {pf : Nat → List Fv} : SameColumns n r (r.accumulate false f n k pi pf) := by
  intro c hc hn
  have hto : r.toFp = r := by simp [AccRow.toFp, hfp]
  simp only [AccRow.accumulate, Bool.false_eq_true, if_false, List.map_map, cell_map_range hc, Function.comp,
    if_neg (Nat.not_lt.2 hn), hto]
  cases f.clear <;> exact cell_getD hlen hc

theorem AccRow.fusedInt_columns {r : AccRow} (hfp : r.fp = true) (hlen : r.cells.length = 48) {f : AccFlags} {n : Nat}
    {pi : Nat → List Int} : SameColumns n r (r.fusedInt f n pi) := by
  intro c hc hn
  have hto : r.toFp = r := by simp [AccRow.toFp, hfp]
  simp only [AccRow.fusedInt, cell_map_range hc, if_neg (Nat.not_lt.2 hn), hto]
  cases f.clear <;> exact cell_getD hlen hc

/-- A row whose first n cells are scaled. -/
def AccRow.scaled (r : AccRow) (n : Nat) (scale : Word) : AccRow :=
  { r with cells := (List.range 48).map fun c =>
      let v := (r.cells[c]?).getD 0
      if c < n then fMul v scale else v }

theorem AccRow.scaled_columns {r : AccRow} (hlen : r.cells.length = 48) {n : Nat} {scale : Word} :
    SameColumns n r (r.scaled n scale) := by
  intro c hc hn
  simp only [AccRow.scaled, cell_map_range hc, if_neg (Nat.not_lt.2 hn)]
  exact cell_getD hlen hc

theorem SameColumns.trans {n : Nat} {r r' r'' : AccRow} (h : SameColumns n r r') (h' : SameColumns n r' r'') :
    SameColumns n r r'' := fun c hc hn => (h' c hc hn).trans (h c hc hn)

theorem SameColumns.scaledIf {n : Nat} {r r' : AccRow} (h : SameColumns n r r') (hlen : r'.cells.length = 48) {p : Prop}
    [Decidable p] {scale : Word} : SameColumns n r (if p then r'.scaled n scale else r') := by
  split
  · exact h.trans (AccRow.scaled_columns hlen)
  · exact h

/-! ### The instructions -/

theorem wload_pass {x : Tile} (h : AtInstr s e .execute 0x11 t i) (hqueue : (opnd i 1 1).testBit 0 = false)
    (hx : t.head 1 = some x) {Q : EngTask → Prop}
    (hQ : Q (((t.drop 1).fillBank (bankOfTile (opnd i 2 1) (opnd i 3 1) (opnd i 4 1) x)).setWalk .execute
      t.exec.leaveGate.advance)) : TaskBecomes (.wload e .execute) s e Q := by
  refine taskBecomes_of_put h rfl ?_ hQ
  dsimp only
  rw [hqueue, hx]
  rfl

/-- The columns that MM leaves in the rows of its range. -/
theorem mm_rows {x : Tile} {r0 : Nat} (h : AtInstr s e .execute 0x12 t i) (hx : t.head 0 = some x)
    (hr : rowRange t.exec.leaveGate (opnd i 10 2) (opnd i 13 1) (opnd i 4 2) = some r0) :
    TaskBecomesArith (.mm e .execute) s e fun t' => ∃ u, RowsChange r0 (opnd i 4 2)
      (fun r r' => isInt (opnd i 2 1) = true → r.fp = false → r.cells.length = 48 → SameColumns (opnd i 7 1) r r') t u ∧
      t' = { u.drop 0 with readBank := u.filled, exec := t.exec.leaveGate.advance } := by
  refine taskBecomesArith_of_execOnly (t' := ?task) (fl := ?flags) h rfl ?run ?left
  case run =>
    dsimp only
    rw [hx]
    dsimp only
    rw [hr]
    rfl
  case left =>
    generalize hu : List.foldl _ t (List.range (opnd i 4 2)) = u
    refine ⟨u, hu ▸ rowsChange_foldl (fun t j => ⟨_, rfl, fun hint hfp hlen => ?_⟩) _ _, rfl⟩
    rw [hint]
    exact AccRow.accumulate_int_columns hfp hlen

/-- The blocks that MMF needs, when its products have any. -/
theorem mmfBlocks_pos (h1 : 0 < opnd i 12 1) (h2 : 0 < opnd i 10 2) (hk : 0 < kMax (opnd i 2 1) (opnd i 3 1)) :
    0 < (mmfBlocks i).1 + (mmfBlocks i).2 := by
  refine Nat.add_pos_left (Nat.mul_pos ?_ ?_) _
  · exact Nat.div_pos (by omega) hk
  · exact Nat.div_pos (by omega) (by decide)

theorem mmf_pop {b : Tile} {r0 : Nat} (h : AtInstr s e .execute 0x13 t i)
    (hr : rowRange t.exec.leaveGate (opnd i 14 2) 0xFF (opnd i 8 2) = some r0) (hb : t.head 1 = some b)
    (hx : (t.head 0).isSome = true) (hlt : t.blocks.length < (mmfBlocks i).1 + (mmfBlocks i).2) {Q : EngTask → Prop}
    (hQ : Q { t.drop 1 with blocks := t.blocks ++ [b] }) : TaskBecomes (.mmf e .execute) s e Q := by
  refine taskBecomes_of_execOnly h rfl ?_ hQ
  dsimp only
  rw [hr, Option.isNone_eq_false_iff.2 hx]
  dsimp only
  rw [if_neg Bool.false_ne_true, if_pos hlt, hb]

theorem mmf_waits {r0 : Nat} (h : AtInstr s e .execute 0x13 t i)
    (hr : rowRange t.exec.leaveGate (opnd i 14 2) 0xFF (opnd i 8 2) = some r0) (hx : t.head 0 = none) :
    exec (.mmf e .execute) s = .next s := by
  have hrun : mmf e .execute s.toModule = s.toModule := by
    unfold mmf
    rw [execOnly_of_atInstr h]
    dsimp only
    rw [hr, hx]
    rfl
  exact (congrArg (ok s) hrun).trans (ok_on _ _ h.1)

/-- The columns that MMF leaves in the rows of its range. -/
theorem mmf_rows {x f : Tile} {r0 : Nat} (h : AtInstr s e .execute 0x13 t i)
    (hr : rowRange t.exec.leaveGate (opnd i 14 2) 0xFF (opnd i 8 2) = some r0) (hkeep : (opnd i 1 1).testBit 3 = false)
    (hx : t.head 0 = some x) (hf : t.head 2 = some f) (hle : (mmfBlocks i).1 + (mmfBlocks i).2 ≤ t.blocks.length) :
    TaskBecomesArith (.mmf e .execute) s e fun t' => ∃ u, RowsChange r0 (opnd i 8 2)
      (fun r r' => r.fp = true → r.cells.length = 48 → SameColumns (opnd i 13 1) r r') t u ∧
      t' = { (({ u.drop 0 with blocks := [], keepF := some f } : EngTask).drop 2) with exec := t.exec.leaveGate.advance } := by
  refine taskBecomesArith_of_execOnly (t' := ?task) (fl := ?flags) h rfl ?run ?left
  case run =>
    dsimp only
    rw [hr]
    dsimp only
    rw [hx, hf, hkeep]
    dsimp only [Option.isNone_some]
    rw [if_neg Bool.false_ne_true, if_neg (Nat.not_lt.2 hle)]
    rfl
  case left =>
    generalize hu : List.foldl _ t (List.range (opnd i 8 2)) = u
    refine ⟨u, hu ▸ rowsChange_foldl (fun t j => ⟨_, rfl, fun hfp hlen => ?_⟩) _ _, rfl⟩
    refine SameColumns.scaledIf (p := opnd i 6 1 = 20) ?_ ?_
    · split
      · exact AccRow.fusedInt_columns hfp hlen
      · exact AccRow.accumulate_fp_columns hfp hlen
    · split <;> simp [AccRow.fusedInt, AccRow.accumulate]

theorem EngTask.setLogical_rest (t : EngTask) (row span len q : Nat) (l : List Word) :
    { t.setLogical row span len q l with acc := [] } = { t with acc := [] } := by
  unfold EngTask.setLogical
  induction List.range ((len + 47) / 48) generalizing t with
  | nil => rfl
  | cons k ks ih => rw [List.foldl_cons, ih]; rfl

/-- A row of RFU changes accumulator rows and row registers alone. -/
theorem EngTask.rfuRow_rest (t : EngTask) (fn row span len q : Nat) (tbl : List Word) (imm : Word) (y z : Nat → Word) :
    { t.rfuRow fn row span len q tbl imm y z with acc := [], ra := [], rb := [] } =
      { t with acc := [], ra := [], rb := [] } := by
  unfold EngTask.rfuRow
  split
  case h_1 | h_2 | h_3 => rfl
  case h_4 | h_5 =>
    exact congrArg (fun x : EngTask => { x with ra := [], rb := [] }) (EngTask.setLogical_rest ..)

/-- A sum, maximum or norm of a row leaves the accumulator. -/
theorem EngTask.rfuRow_acc {fn : Nat} (hfn : fn = 17 ∨ fn = 18 ∨ fn = 19) (t : EngTask) (row span len q : Nat) (tbl : List Word)
    (imm : Word) (y z : Nat → Word) : (t.rfuRow fn row span len q tbl imm y z).acc = t.acc := by
  rcases hfn with rfl | rfl | rfl <;> rfl

theorem rfuRows_rest {F : EngTask → Nat → EngTask}
    (hF : ∀ t q, { F t q with acc := [], ra := [], rb := [] } = { t with acc := [], ra := [], rb := [] }) (l : List Nat) (t : EngTask) :
    { l.foldl F t with acc := [], ra := [], rb := [] } = { t with acc := [], ra := [], rb := [] } := by
  induction l generalizing t with
  | nil => rfl
  | cons q l ih => rw [List.foldl_cons, ih, hF]

theorem rfuRows_acc {F : EngTask → Nat → EngTask} (hF : ∀ t q, (F t q).acc = t.acc) (l : List Nat) (t : EngTask) :
    (l.foldl F t).acc = t.acc := by
  induction l generalizing t with
  | nil => rfl
  | cons q l ih => rw [List.foldl_cons, ih, hF]

/-- What RFU pops and what its rows leave. -/
theorem rfu_rows {vy vz : Option Tile} {pops : Nat} (h : AtInstr s e .execute 0x14 t i)
    (hin : opnd i 4 2 + opnd i 6 2 * opnd i 3 1 ≤ 512)
    (hv : t.vectors ((opnd i 1 1).testBit 0) (opnd i 10 1 % 16 = 1) (opnd i 10 1 / 16 = 1) = some (vy, vz, pops)) :
    TaskBecomesArith (.rfu e .execute) s e fun t' => ∃ u : EngTask,
      { u with acc := [], ra := [], rb := [] } = { t with acc := [], ra := [], rb := [] } ∧
      (opnd i 2 1 = 17 ∨ opnd i 2 1 = 18 ∨ opnd i 2 1 = 19 → u.acc = t.acc) ∧
      ∃ v, t' = { u with qx := u.qx.drop pops, exec := t.exec.leaveGate.advance, keepV := v } := by
  refine taskBecomesArith_of_execOnly (t' := ?task) (fl := ?flags) h rfl ?run ?left
  case run =>
    dsimp only
    rw [if_neg (Nat.not_lt.2 hin), hv]
    rfl
  case left =>
    generalize hu : List.foldl _ t (List.range (opnd i 6 2)) = u
    refine ⟨u, hu ▸ rfuRows_rest (fun t q => EngTask.rfuRow_rest ..) _ _,
      fun hfn => hu ▸ rfuRows_acc (fun t q => EngTask.rfuRow_acc hfn ..) _ _, ?_⟩
    by_cases hp : pops = 0
    · subst hp
      exact ⟨u.keepV, rfl⟩
    · simp only [hp, if_false]
      exact ⟨_, rfl⟩

theorem tload_pass {x : Tile} (h : AtInstr s e .execute 0x15 t i) (hx : t.head 2 = some x) {Q : EngTask → Prop}
    (hQ : Q { t.drop 2 with tables := t.tables.insert (opnd i 2 1 % 4) x.words, exec := t.exec.leaveGate.advance }) :
    TaskBecomes (.tload e .execute) s e Q := by
  refine taskBecomes_of_execOnly h rfl ?_ hQ
  dsimp only
  rw [hx]
  rfl

theorem mm_badger (h : AtInstr s e .badger 0x12 t i) :
    TaskBecomes (.mm e .badger) s e fun t' => t' = t.setWalk .badger t.badger.leaveGate.advance := by
  refine ⟨s.toModule.pass e .badger t t.badger.leaveGate, ?_, _, rfl, rfl⟩
  have hrun : mm e .badger s.toModule = s.toModule.pass e .badger t t.badger.leaveGate := by
    unfold mm Module.execOnly
    rw [instr_of_atInstr h]
    rfl
  exact (congrArg (ok s) hrun).trans (ok_on _ _ h.1)

/-! ### A tile that has arrived -/

theorem arriveFirst_todo {l : List Tile} (h : ∀ x ∈ l, x.todo = []) : ∀ x ∈ arriveFirst l, x.todo = [] := by
  induction l with
  | nil => exact h
  | cons x l ih =>
    obtain ⟨hx, hl⟩ := List.forall_mem_cons.1 h
    unfold arriveFirst
    split
    · exact List.forall_mem_cons.2 ⟨hx, ih hl⟩
    · split <;> exact List.forall_mem_cons.2 ⟨hx, hl⟩

theorem EngTask.arriveFirst_tiles {q : Nat} (h : ∀ x ∈ t.tiles, x.todo = []) :
    ∀ x ∈ (t.setQueue q (arriveFirst (t.queue q))).tiles, x.todo = [] := by
  simp only [EngTask.tiles, List.forall_mem_append] at h ⊢
  obtain ⟨⟨⟨⟨ha, hb⟩, hx⟩, hr⟩, hl⟩ := h
  match q with
  | 0 => exact ⟨⟨⟨⟨arriveFirst_todo ha, hb⟩, hx⟩, hr⟩, hl⟩
  | 1 => exact ⟨⟨⟨⟨ha, arriveFirst_todo hb⟩, hx⟩, hr⟩, hl⟩
  | _ + 2 => exact ⟨⟨⟨⟨ha, hb⟩, arriveFirst_todo hx⟩, hr⟩, hl⟩

theorem eng_putTask_task (m : Module) (e : EngPos) (t : EngTask) : ((m.putTask e t).eng e).task = some t := by
  rw [Module.putTask, Module.eng_setEng_same]

/-- With every read issued there is none to issue. -/
theorem Module.pumpReads_of_issued (ht : (m.eng e).task = some t) (h : ∀ x ∈ t.tiles, x.todo = []) (fuel : Nat) :
    m.pumpReads fuel e = m := by
  cases fuel with
  | zero => rfl
  | succ fuel =>
    have hnone : t.tiles.find? (!·.todo.isEmpty) = none := by
      refine List.find?_eq_none.2 fun x hx => ?_
      simp [h x hx]
    rw [Module.pumpReads.eq_def]
    simp only [ht, hnone]

theorem tileArrived_issued (hon : s.boot ≠ .off) (ht : (s.eng e).task = some t) (h : ∀ x ∈ t.tiles, x.todo = []) (q : Fin 3) :
    TaskBecomes (.tileArrived e ⟨q.val, by omega⟩) s e fun t' => t' = t.setQueue q.val (arriveFirst (t.queue q.val)) := by
  have hq : q.val ≠ 3 := by omega
  have hrun : tileArrived e ⟨q.val, by omega⟩ s.toModule =
      s.toModule.putTask e (t.setQueue q.val (arriveFirst (t.queue q.val))) := by
    unfold tileArrived
    simp only [ht, if_neg hq]
    exact Module.pumpReads_of_issued (eng_putTask_task ..) (EngTask.arriveFirst_tiles h) _
  exact ⟨_, (congrArg (ok s) hrun).trans (ok_on _ _ hon), _, rfl, rfl⟩

end
end Sys2Proof.Machine
namespace Sys2Proof
open Machine

/-- Settles O21: each instruction leaves one task, whose rows outside its range and columns from n on are the old ones. -/
theorem engineTileInstructionsComplete : Obligations.EngineTileInstructionsComplete := by
  intro e t i s k
  refine ⟨fun x h hqueue hx => wload_pass h hqueue hx ?_, fun x r0 h hx hr => ?_,
    fun b r0 h hr hb hx hblocks h1 h2 hk => mmf_pop h hr hb hx (by rw [hblocks]; exact mmfBlocks_pos h1 h2 hk) ?_,
    fun x f r0 h hr hkeep hx hf hle => ?_, fun h ⟨r0, hr⟩ hx => mmf_waits h hr hx, fun vy vz pops h hin hv => ?_,
    fun x h hx => tload_pass h hx ⟨rfl, rfl, rfl⟩, fun h => mm_badger h,
    fun q hon ht htodo => ?_⟩
  · by_cases hb : t.readBank = 0 <;> simp [EngTask.fillBank, EngTask.drop, EngTask.setQueue, EngTask.queue, EngTask.setWalk, hb, k]
  · refine (mm_rows h hx hr).mono fun t' ⟨u, hu, ht'⟩ => ?_
    subst ht'
    exact ⟨rfl, congrArg (·.drop 1) (congrArg EngTask.qa hu.rest :), congrArg (·.qb) hu.rest, congrArg (·.filled) hu.rest, hu.out,
      fun hint j c hj hc hn hfp hlen => hu.inside j hj hint hfp hlen c hc hn⟩
  · exact ⟨by rw [hblocks]; rfl, rfl, rfl, rfl⟩
  · refine (mmf_rows h hr hkeep hx hf hle).mono fun t' ⟨u, hu, ht'⟩ => ?_
    subst ht'
    exact ⟨rfl, congrArg (·.drop 1) (congrArg EngTask.qa hu.rest :), congrArg (·.drop 1) (congrArg EngTask.qx hu.rest :), rfl, rfl,
      hu.out, fun j c hj hc hn hfp hlen => hu.inside j hj hfp hlen c hc hn⟩
  · refine (rfu_rows h hin hv).mono fun t' ⟨u, hu, hacc, v, ht'⟩ => ?_
    subst ht'
    exact ⟨rfl, congrArg (·.drop pops) (congrArg EngTask.qx hu :), congrArg (·.qa) hu, congrArg (·.qb) hu, hacc⟩
  · refine (tileArrived_issued hon ht htodo q).mono fun t' ht' => ?_
    subst ht'
    match q with
    | 0 | 1 | 2 => exact ⟨rfl, rfl, rfl, rfl⟩

end Sys2Proof
end

section
set_option Elab.async false
/-!
The instructions of an engine program that touch memory (R210, R221, R222, R239 to R243).
-/
namespace Sys2Proof.Machine
open Sys2Proof

section
variable {s : State} {m : Module} {e : EngPos} {w : Walker} {op i a n : Nat} {t : EngTask} {c : Instr}

/-! ### Reads that meet nothing -/

theorem Module.engReads_of_clean (hl : m.latent = []) {l : List (Nat × Nat)} (h : ∀ x ∈ l, m.badIn x.1 x.2 = []) :
    m.engReads e l = (false, m) := by
  unfold Module.engReads
  induction l with
  | nil => rfl
  | cons x l ih =>
    obtain ⟨hx, hrest⟩ := List.forall_mem_cons.1 h
    rw [List.foldl_cons, Module.engRead_of_clean hl hx]
    exact ih hrest

theorem engReads_of_clear {l : List (Nat × Nat)} (h : Clear s l) (e : EngPos) : s.engReads e l = (false, s.toModule) :=
  Module.engReads_of_clean h.1 h.2.2

theorem Module.engReads_task (ht : (m.eng e).task = some t) (f : EngPos) (l : List (Nat × Nat)) :
    ((m.engReads f l).2.eng e).task = some t :=
  ((Module.engReads_keeps ..).view (fun x : Module => (x.eng e).task) fun _ => rfl).trans ht

/-! ### Write transfers that are issued -/

/-- A task without its write transfers. -/
def EngTask.issuing (t : EngTask) : EngTask := { t with writes := [], issued := 0 }

/-- A task without its write transfers and what a stop discards. -/
def EngTask.core (t : EngTask) : EngTask :=
  { t.issuing with
    abort := none
    qa := []
    qb := []
    qx := []
    res := []
    acc := []
    ra := []
    rb := []
    lib := none
    cancelled := 0 }

/-- Issuing transfers leaves of a task all but its transfers, or stops it. -/
structure Pumped (t t' : EngTask) : Prop where
  core : t'.core = t.core
  running : t'.abort = none → t'.issuing = t.issuing

theorem Pumped.refl (t : EngTask) : Pumped t t := ⟨rfl, fun _ => rfl⟩

theorem Pumped.after {t t' t'' : EngTask} (h' : Pumped t' t'') (h : t'.issuing = t.issuing) : Pumped t t'' := by
  have hcore : t'.core = t.core := (congrArg EngTask.core h :)
  exact ⟨h'.core.trans hcore, fun hn => (h'.running hn).trans h⟩

theorem Pumped.stopped (t : EngTask) (a : Abort) : Pumped t (t.stopped a) := ⟨rfl, fun h => (nomatch h)⟩

theorem Module.pump_task (ht : (m.eng e).task = some t) (fuel : Nat) :
    ∃ t', ((m.pump fuel e).eng e).task = some t' ∧ Pumped t t' := by
  induction fuel generalizing m t with
  | zero => exact ⟨t, ht, .refl t⟩
  | succ fuel ih =>
    unfold Module.pump
    simp only [ht]
    split
    · exact ⟨t, ht, .refl t⟩
    · next x r hw =>
      split
      · exact ⟨t, ht, .refl t⟩
      next hgo =>
      have hab : t.abort = none := by simp_all
      have hstop : ∀ {u : EngTask} {k : Module} (a : Abort), (k.eng e).task = some u → u.abort = none → u.issuing = t.issuing →
          ∃ t', ((k.abortTask e a).eng e).task = some t' ∧ Pumped t t' := fun a hk hu hi =>
        ⟨_, Module.abortTask_task hk hu a, (Pumped.stopped _ a).after hi⟩
      split
      · exact hstop _ ht hab rfl
      split
      · split
        · split
          · exact ⟨t, ht, .refl t⟩
          · split
            · exact hstop _ ht hab rfl
            · exact ⟨_, eng_putTask_task .., rfl, fun _ => rfl⟩
        · exact hstop _ ht hab rfl
      · split
        · exact hstop _ (eng_putTask_task ..) hab rfl
        · next k hk =>
          have hkeep := (Module.issueWrite_keeps (m.putTask e { t with writes := r, issued := t.issued + 1 }) e x)
          rw [hk] at hkeep
          obtain ⟨t', ht', hp⟩ := ih ((hkeep.view (fun x : Module => (x.eng e).task) fun _ => rfl).trans (eng_putTask_task ..))
          exact ⟨t', ht', hp.after rfl⟩

/-- With 16 transfers outstanding none is issued. -/
theorem Module.pump_full (ht : (m.eng e).task = some t) (h : 16 ≤ t.issued) (fuel : Nat) : m.pump fuel e = m := by
  cases fuel with
  | zero => rfl
  | succ fuel =>
    unfold Module.pump
    simp only [ht]
    split
    · rfl
    · simp [h]

theorem Module.queueWrite_task (m : Module) (t : EngTask) (x : EngWrite) :
    ∃ l, (m.queueWrite t x).2 = ({ t with writes := l }, m) := by
  unfold Module.queueWrite
  dsimp only
  split
  · exact ⟨_, rfl⟩
  split
  · split
    · exact ⟨_, rfl⟩
    split
    · exact ⟨_, rfl⟩
    split <;> exact ⟨_, rfl⟩
  · exact ⟨_, rfl⟩

/-- Queueing writes changes no state but the transfers that wait. -/
theorem Module.queueWrites_task (m : Module) (t : EngTask) (l : List EngWrite) :
    ∃ r, m.queueWrites t l = ({ t with writes := r }, m) := by
  induction l generalizing t with
  | nil => exact ⟨_, rfl⟩
  | cons x l ih =>
    obtain ⟨r, hr⟩ := m.queueWrite_task t x
    unfold Module.queueWrites
    split
    · next hq =>
      rw [hq] at hr
      cases hr
      obtain ⟨r', hr'⟩ := ih { t with writes := r }
      exact ⟨r', hr'⟩
    · next hq =>
      rw [hq] at hr
      cases hr
      exact ⟨r, rfl⟩

/-- Writes to memory of the access set are queued in order. -/
theorem Module.queueWrites_of_memory {l : List EngWrite}
    (h : ∀ x ∈ l, t.mayAccess true x.addr x.bytes.length = true ∧ (m.spaceOf x.addr = .spm ∨ m.spaceOf x.addr = .dram)) :
    m.queueWrites t l = ({ t with writes := t.writes ++ l }, m) := by
  induction l generalizing t with
  | nil => simp [Module.queueWrites]
  | cons x l ih =>
    obtain ⟨⟨hmay, hspace⟩, hl⟩ := List.forall_mem_cons.1 h
    have hx : m.queueWrite t x = (true, { t with writes := t.writes ++ [x] }, m) := by
      rcases hspace with hs | hs <;> simp [Module.queueWrite, hmay, hs]
    unfold Module.queueWrites
    rw [hx]
    dsimp only
    rw [ih (t := { t with writes := t.writes ++ [x] }) hl, List.append_assoc, List.singleton_append]

theorem Module.storeRows_task (m : Module) (e : EngPos) (w : Walker) (t : EngTask) (k : WalkerSt) (l : List EngWrite) :
    ∃ t', ((m.storeRows e w t k l).eng e).task = some t' ∧ Pumped (t.setWalk w k.advance) t' := by
  obtain ⟨r, hr⟩ := m.queueWrites_task t (l ++ m.gateMirror t k l)
  unfold Module.storeRows
  rw [hr]
  obtain ⟨t', ht', hp⟩ := Module.pump_task (m := m.pass e w { t with writes := r } k) (eng_putTask_task ..) 17
  exact ⟨t', ht', hp.after (by cases w <;> rfl)⟩

theorem Module.storeRows_full {k : WalkerSt} {l : List EngWrite} (hgate : t.gate = none) (hissued : t.issued = 16)
    (h : ∀ x ∈ l, t.mayAccess true x.addr x.bytes.length = true ∧ (m.spaceOf x.addr = .spm ∨ m.spaceOf x.addr = .dram)) :
    m.storeRows e .execute t k l = m.putTask e { t with writes := t.writes ++ l, exec := k.advance } := by
  have hmirror : m.gateMirror t k l = [] := by simp [Module.gateMirror, hgate]
  unfold Module.storeRows
  rw [hmirror, List.append_nil, Module.queueWrites_of_memory h]
  exact Module.pump_full (m := m.pass e .execute { t with writes := t.writes ++ l } k) (eng_putTask_task ..)
    (Nat.le_of_eq hissued.symm) 17

/-! ### WB -/

theorem Module.spaceOf_congr {k : Module} (h : k.rd DDR_STAT = m.rd DDR_STAT) (a : Nat) : k.spaceOf a = m.spaceOf a := by
  have hbit : k.bit DDR_STAT DDR_STAT_inline_ecc = m.bit DDR_STAT DDR_STAT_inline_ecc := by
    unfold Module.bit Module.fld
    rw [h]
  have hend : k.dramEnd = m.dramEnd := by rw [Module.dramEnd, Module.dramEnd, hbit]
  unfold Module.spaceOf
  rw [hend]

theorem Module.spaceOf_arith (m : Module) (e : EngPos) (f a : Nat) : (m.arith e f).spaceOf a = m.spaceOf a := by
  have hcl := e.cl.isLt
  have hx := e.x.isLt
  exact Module.spaceOf_congr (Module.rd_wr_ne _ _ (by unfold DDR_STAT ENG_X_ARITH; omega)) a

/-- A store that needs no tile queues the transfers of its rows. -/
theorem wb_full {b : SlotBind} {r0 : Nat} (h : AtInstr s e .execute 0x16 t i)
    (hslot : t.exec.leaveGate.slots[opnd i 2 1]? = some (some b))
    (hr : rowRange t.exec.leaveGate (opnd i 4 2) (opnd i 14 1) (opnd i 6 2) = some r0) (hmode : 2 ≤ opnd i 9 1)
    (hmx : opnd i 9 1 ≠ 3) (hgate : t.gate = none) (hissued : t.issued = 16) (hclear : Clear s (b.words t.args))
    (hw : ∀ g, ∀ x ∈ { s.slotView t t.exec.leaveGate b with fmt := opnd i 3 1 }.writes (opnd i 6 2) (opnd i 8 1) g,
      t.mayAccess true x.addr x.bytes.length = true ∧ (s.spaceOf x.addr = .spm ∨ s.spaceOf x.addr = .dram)) :
    TaskBecomesArith (.wb e .execute) s e fun t' => ∃ tile : List Byte,
      t' = { t with
        exec := t.exec.leaveGate.advance
        writes := t.writes ++ { s.slotView t t.exec.leaveGate b with fmt := opnd i 3 1 }.writes (opnd i 6 2) (opnd i 8 1)
          fun j c => (wbCell (opnd i 9 1) (opnd i 3 1) ((opnd i 1 1).testBit 1) (signedOf 16 (opnd i 10 2))
            (wbBound (opnd i 3 1) (opnd i 12 1)) (wbBound (opnd i 3 1) (opnd i 13 1)) tile (t.accRow (r0 + j)) c).1 } := by
  refine taskBecomesArith_of_execOnly (t' := ?task) (fl := ?flags) h rfl ?run ?left
  case run =>
    dsimp only
    rw [hr, hslot]
    dsimp only [Option.getD_some]
    rw [hclear.2.1, if_neg Bool.false_ne_true, if_neg (by simp; omega)]
    dsimp only
    rw [engReads_of_clear hclear]
    simp only [hmx, if_false, List.append_nil, Bool.false_eq_true, Nat.not_le.2 hmode]
    refine Module.storeRows_full hgate hissued fun x hx => ?_
    rw [Module.spaceOf_arith]
    exact hw _ x hx
  case left => exact ⟨_, rfl⟩

theorem Pumped.of_stopped {a : Abort} (h : (t.stopped a).abort = none) : False := nomatch h

/-- A store that needs no tile passes, or the task is stopped. -/
theorem wb_passes {b : SlotBind} {r0 : Nat} (h : AtInstr s e .execute 0x16 t i)
    (hslot : t.exec.leaveGate.slots[opnd i 2 1]? = some (some b))
    (hr : rowRange t.exec.leaveGate (opnd i 4 2) (opnd i 14 1) (opnd i 6 2) = some r0) (hmode : 2 ≤ opnd i 9 1)
    (hbusy : s.anyBusy (b.words t.args) = false) : Answers (.wb e .execute) s fun m => ∃ t', (m.eng e).task = some t' ∧
      (t'.abort = none → t'.issuing = { t with exec := t.exec.leaveGate.advance }.issuing) := by
  have hrun : ∃ t', ((wb e .execute s.toModule).eng e).task = some t' ∧
      (t'.abort = none → t'.issuing = { t with exec := t.exec.leaveGate.advance }.issuing) := by
    unfold wb
    rw [execOnly_of_atInstr h]
    dsimp only
    rw [hr, hslot]
    dsimp only [Option.getD_some]
    rw [hbusy, if_neg Bool.false_ne_true, if_neg (by simp; omega)]
    dsimp only
    split
    · exact ⟨_, Module.abortTask_task (Module.engReads_task h.2.1 ..) h.2.2.1 _, fun hn => (nomatch hn)⟩
    · rw [if_neg (by simp; omega)]
      obtain ⟨t', ht', hp⟩ := Module.storeRows_task _ _ _ _ _ _
      exact ⟨t', ht', hp.running⟩
  exact .of_ok h.1 rfl hrun

/-! ### GATE -/

theorem gate_pass (h : AtInstr s e w 0x17 t i) (hg : t.gate = none) :
    TaskBecomes (.gate e w) s e fun t' => t' = t.setWalk w (t.walk w).leaveGate.advance := by
  refine taskBecomes_of_pass h rfl ?_ rfl
  dsimp only
  rw [hg]

theorem gate_badger_runs {g : GateTask} (h : AtInstr s e .badger 0x17 t i) (hg : t.gate = some g)
    (hd : t.decisions[t.badger.leaveGate.gates]? = some false) : TaskBecomes (.gate e .badger) s e fun t' =>
      t' = t.setWalk .badger { t.badger.leaveGate with gates := t.badger.leaveGate.gates + 1 }.advance := by
  refine taskBecomes_of_pass h rfl ?_ rfl
  dsimp only [EngTask.walk]
  rw [hg]
  dsimp only
  rw [hd]

/-- A row that is computed: the decision is counted and kept. -/
theorem gate_computes {g : GateTask} (h : AtInstr s e .execute 0x17 t i) (hg : t.gate = some g)
    (hclear : Clear s (s.gateSpans t.args g (t.exec.leaveGate.reg (opnd i 2 1)).toInt))
    (hreuse : s.gateReuse t.args g (t.exec.leaveGate.reg (opnd i 2 1)).toInt = false) : Answers (.gate e .execute) s fun m =>
      m = (s.toModule.count (ENG_X_CNT_ROWS_GATED e.cl e.x) 1).putTask e
        { t with
          decisions := t.decisions ++ [false]
          gate := some { g with rows := g.rows ++ [((t.exec.leaveGate.reg (opnd i 2 1)).toInt, false)] }
          exec := { t.exec.leaveGate with
            gate := some (t.decisions.length, t.exec.leaveGate.pc, t.exec.leaveGate.pc + opnd i 4 2) }.advance } := by
  refine .of_ok h.1 rfl ?_
  unfold gate
  rw [instr_of_atInstr h]
  dsimp only [EngTask.walk]
  rw [hg]
  dsimp only
  rw [hclear.2.1, engReads_of_clear hclear]
  simp only [hreuse, Bool.false_eq_true, if_false, Bool.not_false, if_true]
  rfl

theorem EngTask.badgerSkip_frame (t : EngTask) (no : Nat) :
    (t.badgerSkip no).exec = t.exec ∧ (t.badgerSkip no).decisions = t.decisions ∧ (t.badgerSkip no).gate = t.gate := by
  unfold EngTask.badgerSkip
  split
  · split
    · split <;> exact ⟨rfl, rfl, rfl⟩
    · exact ⟨rfl, rfl, rfl⟩
  · exact ⟨rfl, rfl, rfl⟩

/-- A row that is reused: the decision is kept, and the walker goes on after the body unless the task is stopped. -/
theorem gate_reuses {g : GateTask} (h : AtInstr s e .execute 0x17 t i) (hg : t.gate = some g)
    (hclear : Clear s (s.gateSpans t.args g (t.exec.leaveGate.reg (opnd i 2 1)).toInt))
    (hreuse : s.gateReuse t.args g (t.exec.leaveGate.reg (opnd i 2 1)).toInt = true) : Answers (.gate e .execute) s fun m =>
      ∃ t', (m.eng e).task = some t' ∧ t'.decisions = t.decisions ++ [true] ∧
        t'.gate = some { g with rows := g.rows ++ [((t.exec.leaveGate.reg (opnd i 2 1)).toInt, true)] } ∧
        (t'.abort = none →
          t'.exec = t.exec.leaveGate.skipBody t.exec.leaveGate.pc (t.exec.leaveGate.pc + opnd i 4 2)) := by
  refine .of_ok h.1 rfl ?_
  unfold gate
  rw [instr_of_atInstr h]
  dsimp only [EngTask.walk]
  rw [hg]
  dsimp only
  rw [hclear.2.1, engReads_of_clear hclear]
  simp only [hreuse, Bool.false_eq_true, if_false, Bool.not_true]
  generalize hu : EngTask.badgerSkip _ _ = u
  obtain ⟨-, hdec, hgate⟩ := hu ▸ EngTask.badgerSkip_frame _ _
  obtain ⟨r, hq⟩ := Module.queueWrites_task _ u _
  rw [hq]
  obtain ⟨t', ht', hp⟩ := Module.pump_task (eng_putTask_task ..) 17
  refine ⟨t', ht', ?_, ?_, fun hn => ?_⟩
  · exact ((congrArg EngTask.decisions hp.core :)).trans hdec
  · exact ((congrArg EngTask.gate hp.core :)).trans hgate
  · exact (congrArg EngTask.exec (hp.running hn) :)

/-! ### FETCH -/

theorem SMap.insert_insert {α : Type} (l : SMap α) (k : Nat) (x y : α) : (l.insert k x).insert k y = l.insert k y := by
  induction l with
  | nil => simp [SMap.insert]
  | cons p l ih =>
    obtain ⟨k', v⟩ := p
    rcases Nat.lt_trichotomy k k' with hlt | rfl | hgt
    · simp [SMap.insert, hlt]
    · simp [SMap.insert]
    · simp [SMap.insert, Nat.not_lt.2 (Nat.le_of_lt hgt), Nat.ne_of_gt hgt, ih]

theorem Module.putTask_putTask (m : Module) (e : EngPos) (t u : EngTask) : (m.putTask e t).putTask e u = m.putTask e u := by
  have hne (u : EngTask) : { m.eng e with task := some u } ≠ Eng.rest := fun h => nomatch congrArg Eng.task h
  unfold Module.putTask
  rw [Module.eng_setEng_same]
  simp only [Module.setEng, SMap.set, if_neg (hne _), SMap.insert_insert]

/-- A tile at the end of a queue. -/
def EngTask.push (t : EngTask) (q : Nat) (x : Tile) : EngTask := t.setQueue q (t.queue q ++ [x])

/-- Of a task whose other tiles have no reads left, the new tile is the one whose reads are issued. -/
theorem EngTask.push_issuing {q : Nat} (h : ∀ x ∈ t.tiles, x.todo = []) {x : Tile} (hx : x.todo ≠ []) :
    (t.push q x).tiles.find? (!·.todo.isEmpty) = some x := by
  have hnone (l : List Tile) (hl : ∀ x ∈ l, x.todo = []) : l.find? (!·.todo.isEmpty) = none :=
    List.find?_eq_none.2 fun x hx => by simp [hl x hx]
  have hnonex : (!x.todo.isEmpty) = true := by cases hd : x.todo with | nil => exact absurd hd hx | cons => rfl
  simp only [EngTask.tiles, List.forall_mem_append] at h
  obtain ⟨⟨⟨⟨ha, hb⟩, hc⟩, hr⟩, hl⟩ := h
  have hsingle : List.find? (fun y : Tile => !y.todo.isEmpty) [x] = some x := by
    simp only [List.find?_cons, hnonex]
  match q with
  | 0 | 1 | _ + 2 =>
    simp only [EngTask.push, EngTask.tiles, EngTask.setQueue, EngTask.queue, List.find?_append, hnone _ ha, hnone _ hb,
      hnone _ hc, hnone _ hr, hnone _ hl, hsingle, Option.none_or, Option.some_or]

/-- Storing a tile in place of the new one leaves the others. -/
theorem EngTask.push_putIssuing {q : Nat} (h : ∀ x ∈ t.tiles, x.todo = []) {x : Tile} (hx : x.todo ≠ []) (y : Tile) :
    (t.push q x).putIssuing y = t.push q y := by
  have hsame {α : Type} (f : α → α) (l : List α) (hf : ∀ z ∈ l, f z = z) : l.map f = l :=
    (List.map_congr_left hf).trans (List.map_id l)
  have hkept (z : Tile) (hz : z.todo = []) : (if z.todo.isEmpty then z else y) = z := by simp [hz]
  have hnew : (if x.todo.isEmpty then x else y) = y := by simp [hx]
  simp only [EngTask.tiles, List.forall_mem_append, List.forall_mem_map] at h
  obtain ⟨⟨⟨⟨ha, hb⟩, hc⟩, hr⟩, hl⟩ := h
  have hres : (t.res.map fun r => (r.1, if r.2.todo.isEmpty then r.2 else y)) = t.res :=
    hsame _ _ fun z hz => Prod.ext rfl (hkept _ (hr z hz))
  have hlib : (t.lib.map fun r => (r.1, if r.2.todo.isEmpty then r.2 else y)) = t.lib := by
    cases hlib : t.lib with
    | none => rfl
    | some r => exact congrArg some (Prod.ext rfl (hkept _ (hl r.2 (by simp [hlib]))))
  match q with
  | 0 | 1 | _ + 2 =>
    simp only [EngTask.push, EngTask.putIssuing, EngTask.mapTiles, EngTask.setQueue, EngTask.queue, List.map_append,
      List.map_cons, List.map_nil, hnew, hsame _ _ fun z hz => hkept z (ha z hz), hsame _ _ fun z hz => hkept z (hb z hz),
      hsame _ _ fun z hz => hkept z (hc z hz), hres, hlib]

/-- The reads outstanding of the other tiles are those of the task. -/
theorem EngTask.push_readsOut (t : EngTask) (q : Nat) (x : Tile) :
    (t.push q x).readsOut - x.outstanding = t.readsOut := by
  have htiles : (t.push q x).tilesOut = t.tilesOut + x.outstanding := by
    match q with
    | 0 | 1 | _ + 2 =>
      simp only [EngTask.push, EngTask.tilesOut, EngTask.tiles, EngTask.setQueue, EngTask.queue, List.map_append,
        List.sum_append, List.map_cons, List.map_nil, List.sum_cons, List.sum_nil]
      omega
  have hrest : (t.push q x).cancelled = t.cancelled ∧ (t.push q x).writes = t.writes := by
    match q with
    | 0 | 1 | _ + 2 => exact ⟨rfl, rfl⟩
  rw [EngTask.readsOut, htiles, hrest.1, hrest.2, EngTask.readsOut]
  omega

/-- What the read transfers of a tile bring. -/
def Module.readAll (m : Module) (x : Tile) (l : List (Bool × List Piece)) : Tile :=
  match l with
  | [] => x
  | (true, p) :: r => m.readAll { x with scale := m.readPieces x.scale p } r
  | (false, p) :: r => m.readAll { x with raw := m.readPieces x.raw p } r

/-- A read that the engine may make brings its bytes. -/
theorem Module.issueRead_of_readsWell (hl : s.latent = []) {l : List Piece}
    (h : ReadsWell s t (transferSpan l).1 (transferSpan l).2) (u v : EngTask) (hv : v.access = t.access) (sc : Bool) (x : Tile) :
    (s.putTask e u).issueRead e v sc x l = (.ok (if sc then { x with scale := s.readPieces x.scale l }
      else { x with raw := s.readPieces x.raw l }), s.putTask e u) := by
  obtain ⟨hmay, hspace, -, hbad⟩ := h
  have hmay' : v.mayAccess false (transferSpan l).1 (transferSpan l).2 = true := by rw [← hmay, EngTask.mayAccess, hv]; rfl
  have hread := Module.engRead_of_clean (m := s.putTask e u) (e := e) hl hbad
  unfold Module.issueRead
  have hsp : (s.putTask e u).spaceOf (transferSpan l).1 = s.spaceOf (transferSpan l).1 := rfl
  simp only [hmay', hsp, hread, Bool.not_true, Bool.false_eq_true, if_false]
  rcases hspace with hs | hs <;> rw [hs] <;> cases sc <;> rfl

theorem EngTask.push_issued {q : Nat} (h : ∀ x ∈ t.tiles, x.todo = []) {x : Tile} (hx : x.todo = []) :
    ∀ y ∈ (t.push q x).tiles, y.todo = [] := by
  simp only [EngTask.tiles, List.forall_mem_append] at h
  obtain ⟨⟨⟨⟨ha, hb⟩, hc⟩, hr⟩, hl⟩ := h
  have hone : ∀ y ∈ [x], y.todo = [] := by simp [hx]
  match q with
  | 0 | 1 | _ + 2 =>
    simp only [EngTask.push, EngTask.tiles, EngTask.setQueue, EngTask.queue, List.forall_mem_append]
    tauto

/-- The reads of the new tile are issued one after another. -/
theorem Module.pumpReads_push {q : Nat} (hl : s.latent = []) (hall : ∀ x ∈ t.tiles, x.todo = []) (hout : t.readsOut < 6)
    (x : Tile) (hholes : x.holes = []) (hread : ∀ p ∈ x.todo, ReadsWell s t (transferSpan p.2).1 (transferSpan p.2).2)
    {fuel : Nat} (hfuel : x.todo.length ≤ fuel) :
    (s.putTask e (t.push q x)).pumpReads fuel e = s.putTask e (t.push q (s.readAll { x with todo := [] } x.todo)) := by
  induction fuel generalizing x with
  | zero =>
    have htodo : x.todo = [] := List.length_eq_zero_iff.1 (Nat.le_zero.1 hfuel)
    rw [Module.pumpReads_of_issued (eng_putTask_task ..) (EngTask.push_issued hall htodo), htodo, Module.readAll, ← htodo]
  | succ fuel ih =>
    cases htodo : x.todo with
    | nil => rw [Module.pumpReads_of_issued (eng_putTask_task ..) (EngTask.push_issued hall htodo), Module.readAll, ← htodo]
    | cons p r =>
      obtain ⟨sc, l⟩ := p
      have hne : x.todo ≠ [] := by simp [htodo]
      rw [htodo] at hread hfuel
      obtain ⟨hp, hr⟩ := List.forall_mem_cons.1 hread
      have hacc : (t.push q x).access = t.access := by
        match q with
        | 0 | 1 | _ + 2 => rfl
      have hbusy : (s.putTask e (t.push q x)).spmBusy (transferSpan l).1 (transferSpan l).2 = false := hp.2.2.1
      rw [Module.pumpReads.eq_def]
      simp only [eng_putTask_task, EngTask.push_issuing hall hne, htodo, EngTask.push_readsOut, hholes, List.map_nil,
        List.eraseDups_nil, List.length_nil, Nat.add_zero, hbusy, Nat.not_le.2 hout, decide_false, Bool.or_false,
        Bool.false_eq_true, if_false, Module.issueRead_of_readsWell hl hp _ _ hacc, EngTask.push_putIssuing hall hne,
        Module.putTask_putTask]
      have hlen : r.length ≤ fuel := Nat.le_of_succ_le_succ hfuel
      cases sc with
      | true => exact ih { x with scale := s.readPieces x.scale l, todo := r, holes := [] } rfl hr hlen
      | false => exact ih { x with raw := s.readPieces x.raw l, todo := r, holes := [] } rfl hr hlen

theorem Module.readAll_data (m : Module) (x : Tile) (d c : List (List Piece)) :
    m.readAll x (d.map (fun l => (false, l)) ++ c.map fun l => (true, l)) =
      { x with raw := d.foldl m.readPieces x.raw, scale := c.foldl m.readPieces x.scale } := by
  induction d generalizing x with
  | nil =>
    induction c generalizing x with
    | nil => rfl
    | cons p c ih => exact ih _
  | cons p d ih => exact ih _

theorem EngTask.push_setWalk (t : EngTask) (q : Nat) (x : Tile) (w : Walker) (k : WalkerSt) :
    (t.push q x).setWalk w k = (t.setWalk w k).push q x := by
  match q with
  | 0 | 1 | _ + 2 => cases w <;> rfl

theorem Module.upset_nil (m : Module) : m.upset [] = m := by
  unfold Module.upset
  rw [List.append_nil]

/-- The tile that a fetch adds to its queue. -/
def fetchTile (t : EngTask) (v : SlotView) (down : Bool) : Tile :=
  ⟨fmtBits v.fmt, List.replicate v.rows (List.replicate v.rowBytes 0),
    List.replicate v.rows (List.replicate (max 1 (v.rowBytes * 8 / fmtBits v.fmt)) 0x7F), v.inside.1.1, v.inside.1.2, v.inside.2.1,
    v.inside.2.2, v.pad, [], (transfers v.spans).map (fun l => (false, l)) ++ (transfers (v.scaleSpans down)).map fun l => (true, l),
    false, t.badger.gate.map (·.1)⟩

theorem EngTask.exec_push (t : EngTask) (q : Nat) (x : Tile) : (t.push q x).exec = t.exec := by
  match q with
  | 0 | 1 | _ + 2 => rfl

theorem EngTask.queue_push (t : EngTask) (q : Nat) (x : Tile) : (t.push q x).queue q = t.queue q ++ [x] := by
  match q with
  | 0 | 1 | _ + 2 => rfl

theorem fetch_execute {errs : List MemErr} (h : AtInstr s e .execute 0x10 t i) (hq : opnd i 3 1 < 3) :
    TaskBecomes (.fetch e .execute errs) s e fun t' => t' = t.setWalk .execute t.exec.leaveGate.advance := by
  have hrun : fetch e .execute errs s.toModule = s.toModule.putTask e (t.setWalk .execute t.exec.leaveGate.advance) := by
    unfold fetch fetchWith
    rw [instr_of_atInstr h]
    dsimp only [EngTask.walk]
    rw [if_neg (Nat.ne_of_lt hq)]
    rfl
  exact .of_ok h.1 (congrArg (ok s) hrun) ⟨_, rfl, rfl⟩

/-- A fetch without room waits. -/
theorem fetch_waits {b : SlotBind} {errs : List MemErr} (h : AtInstr s e .badger 0x10 t i) (hq : opnd i 3 1 < 3)
    (hslot : t.badger.leaveGate.slots[opnd i 2 1]? = some (some b))
    (hwait : 3 ≤ (t.queue (opnd i 3 1)).length ∨ 6 ≤ t.readsOut ∨ ∃ x ∈ t.tiles, x.todo ≠ []) :
    exec (.fetch e .badger errs) s = .next s := by
  have hbusy : (decide (3 ≤ (t.queue (opnd i 3 1)).length) || decide (6 ≤ t.readsOut) || t.tiles.any (!·.todo.isEmpty) ||
      s.anyBusy (b.words t.args)) = true := by
    rcases hwait with hl | ho | ⟨x, hx, htodo⟩
    · simp [hl]
    · simp [ho]
    · have hany : t.tiles.any (!·.todo.isEmpty) = true := List.any_eq_true.2 ⟨x, hx, by simpa using htodo⟩
      simp [hany]
  have hrun : fetch e .badger errs s.toModule = s.toModule := by
    unfold fetch fetchWith
    rw [instr_of_atInstr h]
    dsimp only [EngTask.walk]
    rw [hslot]
    simp only [Option.getD_some, if_neg (Nat.ne_of_lt hq), hbusy, if_true]
  exact (congrArg (ok s) hrun).trans (ok_on _ _ h.1)

/-- A fetch that has room issues every read of its tile. -/
theorem fetch_issues {b : SlotBind} (h : AtInstr s e .badger 0x10 t i) (hq : opnd i 3 1 < 3)
    (hplain : (opnd i 1 1).testBit 0 = false) (hslot : t.badger.leaveGate.slots[opnd i 2 1]? = some (some b))
    (hroom : (t.queue (opnd i 3 1)).length < 3) (hout : t.readsOut < 6) (hall : ∀ x ∈ t.tiles, x.todo = [])
    (hclear : Clear s (b.words t.args))
    (hread : ∀ l ∈ transfers (s.slotView t t.badger.leaveGate b).spans ++
      transfers ((s.slotView t t.badger.leaveGate b).scaleSpans (opnd i 3 1 = 1)),
      ReadsWell s t (transferSpan l).1 (transferSpan l).2) :
    TaskBecomes (.fetch e .badger []) s e fun t' => ∃ x, t' = { t.push (opnd i 3 1) x with badger := t.badger.leaveGate.advance } ∧
      x.arrived = false ∧ x.holes = [] ∧ x.todo = [] ∧
      x.raw = (transfers (s.slotView t t.badger.leaveGate b).spans).foldl s.readPieces
        (List.replicate (s.slotView t t.badger.leaveGate b).rows
          (List.replicate (s.slotView t t.badger.leaveGate b).rowBytes 0)) ∧
      x.scale = (transfers ((s.slotView t t.badger.leaveGate b).scaleSpans (opnd i 3 1 = 1))).foldl s.readPieces
        (List.replicate (s.slotView t t.badger.leaveGate b).rows (List.replicate (max 1
          ((s.slotView t t.badger.leaveGate b).rowBytes * 8 / fmtBits (s.slotView t t.badger.leaveGate b).fmt)) 0x7F)) := by
  have hidle : (decide (3 ≤ (t.queue (opnd i 3 1)).length) || decide (6 ≤ t.readsOut) || t.tiles.any (!·.todo.isEmpty) ||
      s.anyBusy (b.words t.args)) = false := by
    have hnone : t.tiles.any (!·.todo.isEmpty) = false := List.any_eq_false.2 fun x hx => by simp [hall x hx]
    simp [hnone, hclear.2.1, Nat.not_le.2 hroom, Nat.not_le.2 hout]
  have hq3 : opnd i 3 1 ≠ 3 := Nat.ne_of_lt hq
  have hrun : fetch e .badger [] s.toModule = (s.putTask e ((t.setWalk .badger t.badger.leaveGate.advance).push (opnd i 3 1)
      (fetchTile t (s.slotView t t.badger.leaveGate b) (opnd i 3 1 = 1)))).pumpReads
        ((fetchTile t (s.slotView t t.badger.leaveGate b) (opnd i 3 1 = 1)).todo.length + 1) e := by
    unfold fetch fetchWith
    rw [instr_of_atInstr h]
    dsimp only [EngTask.walk]
    rw [hslot]
    simp only [Option.getD_some, if_neg hq3, hidle, Bool.false_eq_true, if_false, engReads_of_clear hclear, hplain,
      Module.upset_nil, hq3, decide_false, Bool.or_false]
    rw [← EngTask.push_setWalk]
    rfl
  have hdata : ∀ p ∈ (fetchTile t (s.slotView t t.badger.leaveGate b) (opnd i 3 1 = 1)).todo,
      ReadsWell s (t.setWalk .badger t.badger.leaveGate.advance) (transferSpan p.2).1 (transferSpan p.2).2 := by
    intro p hp
    rcases List.mem_append.1 hp with hp | hp <;> obtain ⟨l, hl, rfl⟩ := List.mem_map.1 hp
    · exact hread l (List.mem_append_left _ hl)
    · exact hread l (List.mem_append_right _ hl)
  have hfetched := hrun.trans (Module.pumpReads_push (t := t.setWalk .badger t.badger.leaveGate.advance) (e := e) hclear.1 hall hout
    _ rfl hdata (Nat.le_succ _))
  refine .of_ok h.1 (congrArg (ok s) hfetched) ⟨_, rfl, _, (EngTask.push_setWalk _ _ _ .badger _).symm, ?_⟩
  simp only [fetchTile, Module.readAll_data, and_self]

end
end Sys2Proof.Machine
namespace Sys2Proof
open Machine

/-- Settles O22: reads that meet nothing leave the module, so a fetch reads its tile whole; a store or a copied row queues its
transfers, and issuing them leaves of the task all but those, or stops it. -/
theorem engineMemoryInstructionsComplete : Obligations.EngineMemoryInstructionsComplete := by
  intro e t i errs s k kb q
  refine ⟨fun h hq => ?_, fun b h hq hslot hwait => ?_, fun b h hq hplain hslot hroom hout hall => ?_,
    fun b r0 h hslot hr hmode hmx hgate hissued hclear => ?_, fun b r0 h hslot hr hmode hbusy => ?_,
    fun w h hg => gate_pass h hg, fun g h hg hd => gate_badger_runs h hg hd, fun g h hg => ?_⟩
  · exact fetch_execute h hq
  · exact fetch_waits h hq hslot hwait
  · intro v data scale hclear hread
    refine (fetch_issues h hq hplain hslot hroom hout hall hclear hread).mono fun t' ⟨x, ht', harr, hholes, htodo, hraw, hscale⟩ => ?_
    subst ht'
    refine ⟨x, ?_, harr, by simp [Tile.complete, hholes, htodo], hraw, hscale, rfl, ?_⟩
    · exact EngTask.queue_push t q x
    · exact EngTask.exec_push t q x
  · intro w hw
    refine (wb_full h hslot hr hmode hmx hgate hissued hclear hw).mono fun t' ⟨tile, ht'⟩ => ?_
    subst ht'
    refine ⟨_, rfl, rfl, h.2.2.1, rfl, fun hfloat j c => ?_⟩
    rw [hfloat]
    rfl
  · refine (wb_passes h hslot hr hmode hbusy).imp fun m ⟨t', ht', hp⟩ => ⟨t', ht', fun hn => ?_⟩
    have hi := hp hn
    exact ⟨(congrArg EngTask.exec hi :), (congrArg EngTask.acc hi :), (congrArg EngTask.qx hi :)⟩
  · intro r hclear
    refine ⟨fun hreuse => (gate_computes h hg hclear hreuse).imp fun m hm => ⟨_, hm, rfl, rfl, rfl⟩, fun hreuse => gate_reuses h hg hclear hreuse⟩

end Sys2Proof
end

section
set_option Elab.async false
/-!
The instructions of an engine program that wait, signal and fence (R195, R198, R227, R228).
-/
namespace Sys2Proof.Machine
open Sys2Proof

section
variable {s : State} {m : Module} {e : EngPos} {op i : Nat} {t : EngTask} {c : Instr}

/-- The execute walker at a barrier, which it counts. -/
def EngTask.atBarrier (t : EngTask) : WalkerSt := { t.exec.leaveGate with barriers := t.exec.leaveGate.barriers + 1 }

theorem barrier_of_atInstr (h : AtInstr s e .execute op t i) (f : Module → EngTask → WalkerSt → Nat → Module) :
    s.toModule.barrier e .execute op f =
      f s.toModule t t.atBarrier i :=
  (instr_of_atInstr h _).trans rfl

/-- A barrier that leaves the module. -/
theorem waits_of_barrier {f : Module → EngTask → WalkerSt → Nat → Module} (h : AtInstr s e .execute op t i)
    (hexec : exec c s = ok s (s.toModule.barrier e .execute op f))
    (hwait : f s.toModule t t.atBarrier i = s.toModule) :
    exec c s = .next s := by
  rw [hexec, barrier_of_atInstr h, hwait, ok_on _ _ h.1]

/-- A barrier that passes. -/
theorem passes_of_barrier {f : Module → EngTask → WalkerSt → Nat → Module} (h : AtInstr s e .execute op t i)
    (hexec : exec c s = ok s (s.toModule.barrier e .execute op f))
    (hpass : f s.toModule t t.atBarrier i =
      s.toModule.pass e .execute t t.atBarrier) :
    TaskBecomes c s e fun t' =>
      t' = t.setWalk .execute t.atBarrier.advance :=
  ⟨s.toModule.pass e .execute t t.atBarrier, by rw [hexec, barrier_of_atInstr h, hpass, ok_on _ _ h.1], _, rfl, rfl⟩

/-- A stop without a fault code changes the position alone. -/
theorem Module.abortTask_eq (ht : (m.eng e).task = some t) (hab : t.abort = none) {a : Abort} (hcode : a.code = 0) :
    m.abortTask e a = m.setEng e { m.eng e with task := some (t.stopped a), sets := [] } := by
  unfold Module.abortTask
  simp only [ht, hab, Option.isSome_none, Bool.false_eq_true, if_false, hcode, if_true]
  rfl

/-! ### SWAIT -/

theorem swait_passes (h : AtInstr s e .execute 0x20 t i)
    (hobj : syncObj t t.atBarrier i < 8192)
    (hmeets : meets (s.sync (syncObj t t.atBarrier i))
      (syncNum t.atBarrier i) = true) :
    TaskBecomes (.swait e .execute) s e fun t' =>
      t' = t.setWalk .execute t.atBarrier.advance := by
  refine passes_of_barrier h rfl ?_
  rw [if_neg (Nat.not_le.2 hobj), if_pos hmeets]

theorem swait_waits (h : AtInstr s e .execute 0x20 t i)
    (hobj : syncObj t t.atBarrier i < 8192)
    (hmeets : meets (s.sync (syncObj t t.atBarrier i))
      (syncNum t.atBarrier i) = false) :
    exec (.swait e .execute) s = .next s := by
  refine waits_of_barrier h rfl ?_
  rw [if_neg (Nat.not_le.2 hobj), hmeets, if_neg Bool.false_ne_true]

theorem swait_stops (h : AtInstr s e .execute 0x20 t i)
    (hobj : 8192 ≤ syncObj t t.atBarrier i) :
    Answers (.swait e .execute) s fun m =>
      m = s.setEng e { s.eng e with task := some (t.stopped ⟨stBusError, 0, false⟩), sets := [] } := by
  refine .of_ok h.1 rfl ?_
  unfold swait
  rw [barrier_of_atInstr h]
  dsimp only
  rw [if_pos hobj]
  exact Module.abortTask_eq h.2.1 h.2.2.1 rfl

theorem swaitTimeout_stops (h : AtInstr s e .execute 0x20 t i) (htime : opnd i 8 4 ≠ 0)
    (hobj : syncObj t t.exec.leaveGate i < 8192)
    (hmeets : meets (s.sync (syncObj t t.exec.leaveGate i)) (syncNum t.exec.leaveGate i) = false) :
    Answers (.swaitTimeout e) s fun m => m = (s.count SYN_CNT_TIMEOUT 1).setEng e
      { s.eng e with task := some (t.stopped ⟨stWaitTimeout, 0, false⟩), sets := [] } := by
  refine .of_ok h.1 rfl ?_
  have hheld : (decide (opnd i 8 4 = 0) || decide (8192 ≤ syncObj t t.exec.leaveGate i) ||
      meets (s.sync (syncObj t t.exec.leaveGate i)) (syncNum t.exec.leaveGate i)) = false := by
    simp [htime, Nat.not_le.2 hobj, hmeets]
  unfold swaitTimeout
  rw [instr_of_atInstr h]
  refine (if_neg fun hc => Bool.false_ne_true (hheld.symm.trans hc)).trans ?_
  exact Module.abortTask_eq (m := s.count SYN_CNT_TIMEOUT 1) (a := ⟨stWaitTimeout, 0, false⟩) h.2.1 h.2.2.1 rfl

/-! ### SSIG and FENCE -/

theorem ssig_adds (h : AtInstr s e .execute 0x21 t i) (hack : t.acked = true) (hsigs : t.skip ≤ t.sigs)
    (hobj : syncObj t t.exec.leaveGate i < 8192) (hjob : refIsJob t.ref = false) :
    Answers (.ssig e .execute) s fun m =>
      m = (s.addSync (syncObj t t.exec.leaveGate i) (syncNum t.exec.leaveGate i)).putTask e
        { t with sigs := t.sigs + 1, exec := t.exec.leaveGate.advance } := by
  refine .of_ok h.1 rfl ?_
  unfold ssig
  rw [execOnly_of_atInstr h]
  simp only [hack, Bool.not_true, Bool.false_eq_true, if_false, Nat.not_le.2 hobj, Nat.not_lt.2 hsigs, hjob]
  rfl

theorem ssig_skips (h : AtInstr s e .execute 0x21 t i) (hack : t.acked = true) (hsigs : t.sigs < t.skip)
    (hobj : syncObj t t.exec.leaveGate i < 8192) : TaskBecomes (.ssig e .execute) s e fun t' =>
      t' = { t with sigs := t.sigs + 1, exec := t.exec.leaveGate.advance } := by
  refine taskBecomes_of_execOnly (t' := { t with sigs := t.sigs + 1, exec := t.exec.leaveGate.advance }) h rfl ?_ rfl
  simp only [hack, Bool.not_true, Bool.false_eq_true, if_false, Nat.not_le.2 hobj, hsigs, if_true]
  rfl

theorem fence_passes (h : AtInstr s e .execute 0x22 t i) (hack : t.acked = true) :
    TaskBecomes (.fence e .execute) s e fun t' =>
      t' = t.setWalk .execute t.atBarrier.advance :=
  passes_of_barrier h rfl (if_pos hack)

theorem fence_waits (h : AtInstr s e .execute 0x22 t i) (hack : t.acked = false) : exec (.fence e .execute) s = .next s :=
  waits_of_barrier h rfl (if_neg (by simp [hack]))

end
end Sys2Proof.Machine
namespace Sys2Proof
open Machine

/-- Settles O23: a wait or fence passes or leaves the module, by its condition; a stop and a signal change what they name. -/
theorem engineSyncInstructionsComplete : Obligations.EngineSyncInstructionsComplete := by
  intro e t i s k k1
  refine ⟨swait_passes, swait_waits, fun h hobj => ?_, fun h htime hobj hmeets => ?_, fun h hack hsigs hobj hjob => ?_,
    fun h hack hsigs hobj => ?_, fence_passes, fence_waits⟩
  · refine (swait_stops h hobj).imp fun m hm => ?_
    subst hm
    exact ⟨_, by rw [Module.eng_setEng_same], rfl, rfl, rfl, rfl⟩
  · refine (swaitTimeout_stops h htime hobj hmeets).imp fun m hm => ?_
    subst hm
    exact ⟨⟨_, by rw [Module.eng_setEng_same], rfl⟩, rfl, s.toModule.rd_count_same_toNat SYN_CNT_TIMEOUT 1⟩
  · refine (ssig_adds h hack hsigs hobj hjob).imp fun m hm => ?_
    subst hm
    exact ⟨Module.sync_setSync_same .., fun o ho => Module.sync_setSync_ne _ _ ho, rfl, _, eng_putTask_task .., rfl, rfl⟩
  · exact (ssig_skips h hack hsigs hobj).mono fun t' ht' => ht' ▸ ⟨rfl, rfl⟩

end Sys2Proof
end

section
set_option Elab.async false
/-!
What an event leaves in the trace (R401, R478), and the deadlines and caps that raise one (R355, R371 to R373).
-/
namespace Sys2Proof.Machine
open Sys2Proof

/-- The trace keeps what was put last. -/
theorem getLast?_drop_append {α : Type} (l : List α) (x : α) {n : Nat} (hn : n < (l ++ [x]).length) :
    ((l ++ [x]).drop n).getLast? = some x := by
  rw [List.getLast?_drop, if_neg (Nat.not_le.2 hn), List.getLast?_concat]

theorem Module.makeEvent_raised (m : Module) (code ctx : Nat) (seq : Word) (p0 p1 p2 p3 : Nat) :
    Raised (m.makeEvent code ctx seq p0 p1 p2 p3).2 code ctx p0 p1 p2 p3 := by
  have hlast (l : List Event) (e : Event) : ((l ++ [e]).drop ((l ++ [e]).length - 512)).getLast? = some e := by
    refine getLast?_drop_append _ _ ?_
    rw [List.length_append, List.length_singleton]
    omega
  unfold Module.makeEvent Raised
  dsimp only [Module.wr]
  exact ⟨_, hlast _ _, rfl, rfl, rfl, rfl, rfl, rfl⟩

theorem Raised.of_trace {m k : Module} {code ctx p0 p1 p2 p3 : Nat} (h : Raised m code ctx p0 p1 p2 p3)
    (ht : k.trace = m.trace) : Raised k code ctx p0 p1 p2 p3 := by
  unfold Raised
  rwa [ht]

theorem Module.deliver_trace (m : Module) (e : Event) : (m.deliver e).trace = m.trace :=
  (m.deliver_keeps e).view (·.trace) fun _ => rfl

theorem Module.raiseSeq_raised (m : Module) (code ctx : Nat) (seq : Word) (p0 p1 p2 p3 : Nat) :
    Raised (m.raiseSeq code ctx seq p0 p1 p2 p3) code ctx p0 p1 p2 p3 :=
  (m.writeAllLost.makeEvent_raised code ctx seq p0 p1 p2 p3).of_trace (Module.deliver_trace _ _)

theorem Module.raise_raised (m : Module) (code p0 p1 p2 p3 : Nat) : Raised (m.raise code p0 p1 p2 p3) code 255 p0 p1 p2 p3 :=
  m.raiseSeq_raised code 0xFF 0 p0 p1 p2 p3

theorem Module.raiseCtx_raised (m : Module) (code c p0 p1 p2 p3 : Nat) :
    Raised (m.raiseCtx code c p0 p1 p2 p3) code c p0 p1 p2 p3 := m.raiseSeq_raised code c _ p0 p1 p2 p3

theorem Module.faultSeq_raised (m : Module) (cls code ctx : Nat) (seq : Word) (p0 p1 p2 p3 : Nat) :
    Raised (m.faultSeq cls code ctx seq p0 p1 p2 p3) code ctx p0 p1 p2 p3 := by
  unfold Module.faultSeq
  dsimp only
  have hmade := (m.countFault cls).writeAllLost.makeEvent_raised code ctx seq p0 p1 p2 p3
  generalize (m.countFault cls).writeAllLost.makeEvent code ctx seq p0 p1 p2 p3 = made at hmade ⊢
  exact hmade.of_trace (Module.deliver_trace _ _)

theorem Module.fault_raised (m : Module) (cls code p0 p1 p2 p3 : Nat) :
    Raised (m.fault cls code p0 p1 p2 p3) code 255 p0 p1 p2 p3 := m.faultSeq_raised cls code 0xFF 0 p0 p1 p2 p3

/-! ### Deadlines and the cap -/

/-- A stream after it has missed the deadline of one more unit: the last 64 are kept (R355). -/
def missed (st : Stream) (u : Nat × Word × W16) : Stream :=
  { st with late := (st.late ++ [u]).drop ((st.late ++ [u]).length - 64) }

theorem mem_missed (st : Stream) (u : Nat × Word × W16) : (missed st u).late.contains u = true := by
  refine List.contains_iff_mem.2 (List.mem_of_getLast? (getLast?_drop_append _ _ ?_))
  rw [List.length_append, List.length_singleton]
  omega

/-- Store a stream. -/
def Module.putStream (m : Module) (c : Nat) (st : Stream) : Module := { m with streams := m.streams.insert c st }

section
variable {s : State} {c : PortId} {subject : Nat} {frame : Word} {stripe : W16} {st : Stream}

/-- A unit that is late for the first time is kept, counted and reported. -/
theorem deadlineMissed_first (hst : s.streams.find? c.val = some st) (hdue : s.hasDeadline c st subject = true)
    (hframe : frame.toNat < (s.ctx c).index.toNat) (hsent : s.sentDark c st subject frame stripe = false)
    (hlate : st.late.contains (subject, frame, stripe) = false) (late : Nat) :
    deadlineMissed c subject frame stripe late s.toModule =
      ((s.putStream c.val (missed st (subject, frame, stripe))).count SYS_ADM_CNT_MISSED 1).raiseCtx 0x0801 c subject
        frame.toNat (stripe.toNat + 65536 * st.gen) (min late 0xFFFFFFFF) := by
  have hgo : (!s.hasDeadline c st subject || decide ((s.ctx c).index.toNat ≤ frame.toNat) ||
      st.late.contains (subject, frame, stripe) || s.sentDark c st subject frame stripe) = false := by
    rw [hdue, hlate, hsent, decide_eq_false (Nat.not_le.2 hframe)]
    rfl
  unfold deadlineMissed
  simp only [hst, hgo, Bool.false_eq_true, if_false]
  rfl

theorem deadlineMissed_again (hst : s.streams.find? c.val = some st) (hlate : st.late.contains (subject, frame, stripe) = true)
    (late : Nat) : deadlineMissed c subject frame stripe late s.toModule = s.toModule := by
  unfold deadlineMissed
  simp only [hst, hlate, Bool.or_true, Bool.true_or, if_true]

end
end Sys2Proof.Machine
namespace Sys2Proof
open Machine

/-- Settles O37: a late unit is kept among the last 64, counted and reported; the caps' registers are the updates'; a report
changes nothing else. -/
theorem deadlinesAndCapComplete : Obligations.DeadlinesAndCapComplete := by
  intro s hon
  refine ⟨fun c subject frame stripe late st hst hdue hframe hsent => ⟨fun hlate => ?_, fun hlate => ?_⟩, fun hfree => ?_,
    fun hover => ?_⟩
  · refine .of_ok hon (congrArg (ok s) (deadlineMissed_first hst hdue hframe hsent hlate late)) ⟨?_, Module.raiseCtx_raised .., ?_⟩
    · rw [Agree.unreported_rd (offs := []) (Module.raiseCtx_unreported ..) (by decide) (by decide), Module.rd_count_same_toNat]
      rfl
    · intro t ht
      rw [(Module.raiseCtx_keeps ..).view (·.streams) fun _ => rfl] at ht
      cases (SMap.find?_insert_same ..).symm.trans ht
      exact ⟨mem_missed _ _, rfl⟩
  · exact (congrArg (ok s) (deadlineMissed_again hst hlate late)).trans (ok_on _ _ hon)
  · obtain ⟨hthermal, hcap⟩ := thermalCapUpdate_caps s.toModule hfree
    have hkeeps := thermalCapUpdate_keeps s.toModule
    exact .of_ok hon rfl ⟨hthermal, hcap, hkeeps.view (·.streams) fun _ => rfl, hkeeps.view (·.jobs) fun _ => rfl,
      hkeeps.view (·.engines) fun _ => rfl⟩
  · have hrun : planOverCap s.toModule = s.toModule.fault 13 0x0805 0 (s.fld PWR_IN_P PWR_IN_P_p_100ms_dw)
        (s.fld SYS_ADM_POWER SYS_ADM_POWER_planned_dw) s.cap := if_neg (Nat.not_le.2 hover)
    exact .of_ok hon (congrArg (ok s) hrun)
      ⟨Module.fault_raised .., (Module.fault_keeps ..).view (·.core) fun _ => rfl⟩

end Sys2Proof
end

section
set_option Elab.async false
/-!
The supply (R443 to R449, R464) and the way to OFF.
-/
namespace Sys2Proof.Machine
open Sys2Proof

section
variable {s : State} {m k : Module} {off mv v : Nat}

theorem Module.fld_congr (h : k.rd off = m.rd off) (b : Bits) : k.fld off b = m.fld off b := congrArg b.of h

theorem Module.bit_congr (h : k.rd off = m.rd off) (b : Bits) : k.bit off b = m.bit off b := by
  unfold Module.bit
  rw [Module.fld_congr h]

theorem Module.bit_of_fld_zero {b : Bits} (h : m.fld off b = 0) : m.bit off b = false := by
  simp [Module.bit, h]

theorem Module.bit_of_fld_one {b : Bits} (h : m.fld off b = 1) : m.bit off b = true := by
  simp [Module.bit, h]

/-- A report leaves a register that is no report register. -/
theorem Module.rd_raise (m : Module) (code p0 p1 p2 p3 : Nat) (h : off ∉ reportRegs := by decide) :
    (m.raise code p0 p1 p2 p3).rd off = m.rd off :=
  Agree.unreported_rd (offs := []) (m.raise_unreported ..) List.not_mem_nil h

theorem Module.rd_fault (m : Module) {cls : Nat} (code p0 p1 p2 p3 : Nat) (hcls : cls ≤ 16 := by decide)
    (h : off ∉ reportRegs := by decide) : (m.fault cls code p0 p1 p2 p3).rd off = m.rd off :=
  Agree.unreported_rd (offs := []) (m.fault_unreported hcls ..) List.not_mem_nil h

theorem Module.rd_silentFault (m : Module) {cls : Nat} (hcls : cls ≤ 16 := by decide) (h : off ∉ reportRegs := by decide) :
    (m.silentFault cls).rd off = m.rd off :=
  Agree.unreported_rd (offs := []) (m.silentFault_unreported hcls) List.not_mem_nil h

/-! ### The states of the supply -/

theorem Module.supply_setSupply (m : Module) (hv : v < 4) : (m.setSupply v).supply = v :=
  Module.fld_setFld _ _ _ _ (by decide) (by decide) hv

theorem Module.supply_supplyEnter (m : Module) (hv : v < 4) (mv : Nat) : (m.supplyEnter v mv).supply = v :=
  (Module.fld_congr (Module.rd_fault ..) _).trans (m.supply_setSupply hv)

theorem Module.supplyEnter_raised (m : Module) (v mv : Nat) : Raised (m.supplyEnter v mv) 0x0A02 255 0 mv 0 0 :=
  Module.fault_raised ..

theorem onlyRegs_supplyEnter (s : State) (v mv : Nat) : OnlyRegs s (s.supplyEnter v mv) [PWR_SUPPLY_STAT] := by
  refine onlyRegs_of (G := Fld.fault) ?_ (Module.supplyEnter_keeps ..) (by decide)
  exact .after (Module.fault_unreported _ (by decide) ..) (Module.setFld_unreported _ _ _ (List.mem_singleton_self _))

theorem onlyRegs_setSupply (s : State) (v : Nat) : OnlyRegs s (s.setSupply v) [PWR_SUPPLY_STAT] :=
  onlyRegs_of (G := Fld.regs) (Module.setFld_unreported _ _ _ (List.mem_singleton_self _)) (Module.setSupply_keeps ..) (by decide)

theorem holdupReconnect_supply (hs : m.supply = 3) (hlo : 8000 ≤ mv) (hhi : mv ≤ 60000) :
    (holdupReconnect mv m).supply = (if mv < 9000 then 1 else 0) ∧ (holdupReconnect mv m).holdupHigh = false ∧
      (holdupReconnect mv m).rd PWR_CNT_HOLDUP = ({ m with holdupHigh := false }.count PWR_CNT_HOLDUP 1).rd PWR_CNT_HOLDUP := by
  unfold holdupReconnect
  rw [if_pos (by simp [hs, hlo, hhi])]
  dsimp only
  split
  · exact ⟨Module.supply_supplyEnter _ (by decide) _, (Module.supplyEnter_keeps ..).view (·.holdupHigh) fun _ => rfl,
      (Module.rd_fault ..).trans (Module.rd_setFld_ne _ _ _ (by decide))⟩
  · exact ⟨Module.supply_setSupply _ (by decide), rfl, Module.rd_setFld_ne _ _ _ (by decide)⟩

/-! ### The boot from OFF -/

/-- The registers that show what OTP and the stored back-off hold. -/
def otpRegs : List Nat :=
  [SEC_KEYS, SEC_LC, SEC_PKG_POLICY, SEC_BOOT, DBG_LEVEL, SYS_BOOT_STAT, NET_MAC_LO 0, NET_MAC_HI 0, NET_MAC_LO 1, NET_MAC_HI 1] ++
    (List.range 4).map SEC_DEVID

theorem Module.readOtp_regsBut (m : Module) : Agree (Module.regsBut otpRegs) m m.readOtp := by
  have hwr (x : Module) {o : Nat} (v : Word) (h : o ∈ otpRegs := by decide) : Agree (Module.regsBut otpRegs) x (x.wr o v) :=
    Module.wr_regsBut _ _ h
  have hfld (x : Module) {o : Nat} (b : Bits) (v : Nat) (h : o ∈ otpRegs := by decide) :
      Agree (Module.regsBut otpRegs) x (x.setFld o b v) := Module.setFld_regsBut _ _ _ h
  have hkeys (x : Module) : Agree (Module.regsBut otpRegs) x x.reportKeys :=
    .after (hfld ..) <| .after (hfld ..) <| .after (hfld ..) .refl
  have hids (x : Module) : Agree (Module.regsBut otpRegs) x
      ((List.range 4).foldl (fun m k => m.wr (SEC_DEVID k) (BitVec.ofNat 32 (fieldAt m.otp.deviceId (4 * k) 4))) x) := by
    refine List.foldlRecOn (motive := Agree (Module.regsBut otpRegs) x) _ _ .refl fun k hk i hi => .after (hwr _ _ ?_) hk
    exact List.mem_append_right _ (List.mem_map_of_mem hi)
  unfold Module.readOtp
  dsimp only
  refine .after (hwr ..) <| .after (hwr ..) <| .after (hwr ..) <| .after (hwr ..) ?_
  refine .kept (Module.holdBackoff_keeps ..) (fun _ => rfl) <| .after (hfld ..) <| .after (hfld ..) ?_
  refine .kept (Module.pick_keeps ..) (fun _ => rfl) <| .after (hfld ..) <| .after (hfld ..) <| .after (hfld ..) ?_
  refine .after (hfld ..) <| .after (hfld ..) <| .after (hids ..) <| .after (hfld ..) <| .after (hfld ..) <| .after (hfld ..) ?_
  exact .after (hkeys ..) rfl

/-- What reading OTP may change beside the life-cycle state. -/
def Fld.otpReports : Nat := Fld.regs ||| Fld.draws ||| Fld.backoff ||| Fld.backoffEnd

theorem Module.readOtp_keeps (m : Module) :
    Keeps Fld.otpReports { m with otp := { m.otp with lc := m.otp.lcNext } } m.readOtp := by
  unfold Module.readOtp
  dsimp only
  refine .after (Module.wr_keeps ..) rfl <| .after (Module.wr_keeps ..) rfl <| .after (Module.wr_keeps ..) rfl <|
    .after (Module.wr_keeps ..) rfl ?_
  refine .after (Module.holdBackoff_keeps ..) rfl <| .after (Module.setFld_keeps ..) rfl <| .after (Module.setFld_keeps ..) rfl ?_
  refine .after (Module.pick_keeps ..) rfl <| .after (Module.setFld_keeps ..) rfl <| .after (Module.setFld_keeps ..) rfl <|
    .after (Module.setFld_keeps ..) rfl ?_
  refine .after (Module.setFld_keeps ..) rfl <| .after (Module.setFld_keeps ..) rfl ?_
  refine .foldl (fun _ _ => .after (Module.wr_keeps ..) rfl .refl) _ ?_
  refine .after (Module.setFld_keeps ..) rfl <| .after (Module.setFld_keeps ..) rfl <| .after (Module.setFld_keeps ..) rfl ?_
  exact .after (Module.reportKeys_keeps ..) rfl .refl

/-- The module of a start condition before its first reads: OFF's state behind a reset, under the cause of the last OFF. -/
def Module.started (m : Module) : Module :=
  { Module.reset with
    regs := []
    otp := m.otp
    flash := m.flash
    outbox := m.outbox
    now := m.now
    draws := m.draws }.setFld PWR_CAUSE PWR_CAUSE_off_cause (m.fld PWR_CAUSE PWR_CAUSE_off_cause)

theorem startCondition_boots (hoff : m.boot = .off) (hheld : m.offHeld = false) (hlo : 9500 ≤ mv) (hhi : mv ≤ 60000) :
    startCondition mv m = m.started.readOtp := by
  unfold startCondition
  rw [if_neg (by simp [hoff, hheld]; omega)]
  rfl

theorem Module.started_cause (m : Module) :
    m.started.readOtp.fld PWR_CAUSE PWR_CAUSE_off_cause = m.fld PWR_CAUSE PWR_CAUSE_off_cause :=
  (Module.fld_congr (m.started.readOtp_regsBut.rd (by decide)) _).trans
    (Module.fld_setFld _ _ _ _ (by decide) (by decide) (Bits.of_lt ..))

/-! ### The ways to OFF -/

theorem Module.goOff_cause (m : Module) {cause : Nat} (held : Bool) (h : cause < 256) :
    (m.goOff cause held).fld PWR_CAUSE PWR_CAUSE_off_cause = cause :=
  Module.fld_setFld _ _ _ _ (by decide) (by decide) h

theorem Module.goOff_state (m : Module) (cause : Nat) (held : Bool) : (m.goOff cause held).boot = .off ∧
    (m.goOff cause held).mem = [] ∧ (m.goOff cause held).sessions = [] ∧ (m.goOff cause held).otp = m.otp ∧
    (m.goOff cause held).offHeld = held :=
  ⟨rfl, rfl, rfl, rfl, rfl⟩

theorem Module.beginLeave_of_still (hmode : m.modeChange = none) (hfill : m.fullFill = none) (target : Nat) (cause : PowerCause) :
    m.beginLeave target cause = m.startMove target cause := by
  unfold Module.beginLeave Module.stopModeChange
  rw [hmode]
  dsimp only
  unfold Module.stopFill
  rw [hfill]

/-- With no stream left a move to STANDBY or OFF is announced at once. -/
theorem Module.leave_of_still (hmode : m.modeChange = none) (hfill : m.fullFill = none) (hstreams : m.streams = [])
    (target : Nat) (cause : PowerCause) : m.leave target cause = (m.startMove target cause).announce := by
  unfold Module.leave
  rw [Module.beginLeave_of_still hmode hfill]
  dsimp only
  have hs : (m.startMove target cause).streams = [] := hstreams
  rw [hs, List.foldl_nil]

theorem Module.power_startMove (m : Module) (target : Nat) (cause : PowerCause) : (m.startMove target cause).power = m.power :=
  Module.fld_setFld_ne _ _ _ _ _ (by decide) (by decide) (by decide)

theorem Module.announce_startMove (hstreams : m.streams = []) {target : Nat} (htarget : target < 2) {cause : PowerCause}
    (hcause : cause ≠ .thermal) : (m.startMove target cause).announce =
      { m.startMove target cause with transition := some ⟨target, cause, true, false, false, false⟩ }.raise 0x0A01
        (target + 16 * m.power) 0 0 0 := by
  have hs : (m.startMove target cause).streams = [] := hstreams
  unfold Module.announce
  have ht : (m.startMove target cause).transition = some ⟨target, cause, false, false, false, false⟩ := rfl
  simp only [ht, hs, List.isEmpty_nil, Nat.not_le.2 htarget, hcause, Module.power_startMove, decide_false, Bool.not_true,
    Bool.or_false, Bool.false_eq_true, if_false]

theorem Module.goingOff_of_none (h : m.transition = none) : m.goingOff = false := by
  unfold Module.goingOff
  rw [h]

theorem Module.goingOff_of_some {t : Transition} (h : m.transition = some t) : m.goingOff = decide (t.target = 0) := by
  unfold Module.goingOff
  rw [h]

theorem enOff_leaves (hon : m.boot ≠ .off) (hstreams : m.streams = []) (htrans : m.transition = none)
    (hmode : m.modeChange = none) (hfill : m.fullFill = none) : enOff m =
      { (m.setFld PWR_SUPPLY_STAT PWR_SUPPLY_STAT_en 0).startMove 0 .enOff with
        transition := some ⟨0, .enOff, true, false, false, false⟩ }.raise 0x0A01 (16 * m.power) 0 0 0 := by
  have hstill : (m.setFld PWR_SUPPLY_STAT PWR_SUPPLY_STAT_en 0).goingOff = false :=
    Module.goingOff_of_none htrans
  have hpower : (m.setFld PWR_SUPPLY_STAT PWR_SUPPLY_STAT_en 0).power = m.power := Module.fld_setFld_other _ _ _ _ (by decide)
  unfold enOff
  rw [if_neg hon]
  dsimp only
  rw [hstill, if_neg Bool.false_ne_true,
    Module.leave_of_still (m := m.setFld PWR_SUPPLY_STAT PWR_SUPPLY_STAT_en 0) hmode hfill hstreams,
    Module.announce_startMove (m := m.setFld PWR_SUPPLY_STAT PWR_SUPPLY_STAT_en 0) hstreams (by decide) (by decide), hpower,
    Nat.zero_add]

theorem enOff_joins {t : Transition} (hon : m.boot ≠ .off) (htrans : m.transition = some t) (htarget : t.target = 0) :
    enOff m = { m.setFld PWR_SUPPLY_STAT PWR_SUPPLY_STAT_en 0 with
      transition := some { t with cause := .enOff, thenRun := false, thenWake := false } } := by
  have ht : (m.setFld PWR_SUPPLY_STAT PWR_SUPPLY_STAT_en 0).transition = some t := htrans
  have hgoing : (m.setFld PWR_SUPPLY_STAT PWR_SUPPLY_STAT_en 0).goingOff = true :=
    (Module.goingOff_of_some ht).trans (decide_eq_true htarget)
  unfold enOff
  rw [if_neg hon]
  dsimp only
  rw [hgoing, if_pos rfl, ht]
  rfl

/-- The input stage answers in OFF as elsewhere. -/
theorem Answers.of_input {c : Instr} {Q : Module → Prop} (h : exec c s = okInput s m) (hQ : Q m) : Answers c s Q := ⟨m, h, hQ⟩

/-- A supply command within the rating. -/
theorem Answers.of_supplyRow {c : Instr} {f : Module → Module} {Q : Module → Prop} (hon : s.boot ≠ .off) (hmv : mv ≤ 100000)
    (h : exec c s = supplyRow mv f s) (hQ : Q (f s.toModule)) : Answers c s Q := by
  refine .of_ok hon (h.trans ?_) hQ
  unfold supplyRow
  rw [if_neg (Nat.not_lt.2 hmv)]

end
end Sys2Proof.Machine
namespace Sys2Proof
open Machine

/-- Settles O49: each supply command enters its state in its range; a start condition boots from what OTP and flash hold; EN off
and a brown-out leave by the ways to OFF. -/
theorem supplyCompletes : Obligations.SupplyCompletes := by
  intro mv s
  refine ⟨fun hon hmv => ⟨fun hs hlo hhi => ?_, fun hs hlo hhi => ?_, fun hs hhi => ?_, fun hs hv => ?_, fun hs hlo hhi => ?_,
    fun hs hlo hhi => ?_⟩, fun hoff hheld hlo hhi => ?_, fun hon => ?_, fun hon hstreams htrans hmode hfill => ?_,
    fun t hon htrans htarget => ?_, fun hoff => ⟨?_, ?_⟩, fun hmv c hc => ?_⟩
  · refine .of_supplyRow hon hmv rfl ?_
    have hrun : supplyLowEnter mv s.toModule = s.supplyEnter 1 mv := if_pos (by simp [hs, hlo, hhi])
    exact hrun ▸ ⟨Module.supply_supplyEnter _ (by decide) _, Module.supplyEnter_raised .., onlyRegs_supplyEnter ..⟩
  · refine .of_supplyRow hon hmv rfl ?_
    have hrun : supplyHighEnter mv s.toModule = s.supplyEnter 2 mv := if_pos (by simp [hs, hlo, hhi])
    exact hrun ▸ ⟨Module.supply_supplyEnter _ (by decide) _, Module.supplyEnter_raised .., onlyRegs_supplyEnter ..⟩
  · refine .of_supplyRow hon hmv rfl ?_
    have hrun : highVoltageTimeout mv s.toModule = { s.toModule with holdupHigh := true }.supplyEnter 3 mv :=
      if_pos (by simp [hs, hhi])
    exact hrun ▸ ⟨Module.supply_supplyEnter _ (by decide) _, (Module.supplyEnter_keeps ..).view (·.holdupHigh) fun _ => rfl,
      Module.supplyEnter_raised ..⟩
  · refine .of_supplyRow hon hmv rfl ?_
    have hrun : holdupEnter mv s.toModule = { s.toModule with holdupHigh := decide (60000 < mv) }.supplyEnter 3 mv :=
      if_pos (by simp [hs, hv])
    exact hrun ▸ ⟨Module.supply_supplyEnter _ (by decide) _, (Module.supplyEnter_keeps ..).view (·.holdupHigh) fun _ => rfl,
      Module.supplyEnter_raised ..⟩
  · obtain ⟨hsupply, hhigh, hcount⟩ := holdupReconnect_supply (m := s.toModule) hs hlo hhi
    refine .of_supplyRow hon hmv rfl ⟨hsupply, hhigh, ?_⟩
    rw [hcount, Module.rd_count_same_toNat]
    rfl
  · refine .of_supplyRow hon hmv rfl ?_
    have hrun : supplyNormal mv s.toModule = s.setSupply 0 := if_pos (by simp [hs, hlo, hhi])
    exact hrun ▸ ⟨Module.supply_setSupply _ (by decide), onlyRegs_setSupply ..⟩
  · have hrun : execStartCondition mv s = okInput s s.started.readOtp := by
      rw [execStartCondition, if_neg (by omega), startCondition_boots hoff hheld hlo hhi]
    have hk := s.started.readOtp_keeps
    exact .of_input hrun ⟨hk.view (·.boot) fun _ => rfl, hk.view (·.mem) fun _ => rfl, hk.view (·.sessions) fun _ => rfl,
      hk.view (·.streams) fun _ => rfl, hk.view (·.flash) fun _ => rfl, hk.view (·.otp) fun _ => rfl, s.started_cause⟩
  · have hk := s.silentFault_keeps 14
    have hsupply : (s.silentFault 14).supply = s.supply := Module.fld_congr (Module.rd_silentFault s.toModule) _
    have hhigh : (s.silentFault 14).holdupHigh = s.holdupHigh := hk.view (·.holdupHigh) fun _ => rfl
    have hotp : (s.silentFault 14).otp = s.otp := hk.view (·.otp) fun _ => rfl
    refine .of_ok hon rfl ⟨rfl, rfl, rfl, hotp, rfl, ?_⟩
    unfold brownOut
    dsimp only
    rw [hsupply, hhigh, Module.goOff_cause _ _ (by split <;> decide)]
    simp
  · have hrun := enOff_leaves (m := s.toModule) hon hstreams htrans hmode hfill
    refine .of_input (congrArg (okInput s) hrun) ⟨?_, ?_, ?_, ?_, Module.raise_raised ..⟩
    · refine (Module.bit_congr (Module.rd_raise ..) _).trans (Module.bit_of_fld_zero ?_)
      exact (Module.fld_setFld_other _ _ _ _ (by decide)).trans (Module.fld_setFld _ _ _ _ (by decide) (by decide) (by decide))
    · exact (Module.fld_congr (Module.rd_raise ..) _).trans (Module.fld_setFld _ _ _ _ (by decide) (by decide) (by decide))
    · refine (Module.fld_congr (Module.rd_raise ..) _).trans ((Module.power_startMove (s.setFld PWR_SUPPLY_STAT PWR_SUPPLY_STAT_en 0) 0
        .enOff).trans (Module.fld_setFld_other _ _ _ _ (by decide)))
    · rw [(Module.raise_keeps ..).view (·.transition) fun _ => rfl]
      rfl
  · have hrun := enOff_joins (m := s.toModule) hon htrans htarget
    refine .of_input (congrArg (okInput s) hrun) ⟨rfl, ?_⟩
    exact onlyRegs_of (G := Fld.regs ||| Fld.transition) (Module.setFld_unreported s.toModule _ _ (List.mem_singleton_self _))
      (.upd (Module.setFld_keeps s.toModule PWR_SUPPLY_STAT PWR_SUPPLY_STAT_en 0 |>.mono (by decide))) (by decide)
  · exact .of_input (congrArg (okInput s) (if_pos hoff)) rfl
  · exact .of_input (congrArg (okInput s) (if_pos hoff))
      ⟨rfl, hoff, Module.fld_setFld _ _ _ _ (by decide) (by decide) (by decide)⟩
  · rcases hc with rfl | rfl | rfl | rfl | rfl | rfl | rfl <;> exact if_pos hmv

end Sys2Proof
end

section
set_option Elab.async false
/-!
The registers beside those of memory and of reports: whatever is read, stored, reported or found bad leaves them.
-/
namespace Sys2Proof.Machine
open Sys2Proof

/-- Whether a register counts or tells what memory met, or what reporting counts. -/
def memoryReg (off : Nat) : Bool := decide (0x400000 ≤ off ∧ off < 0x580000) || decide (off ∈ reportRegs)

/-- The registers beside those of memory and of reports. -/
def Module.besideMemory (m : Module) (off : Nat) : Word := if memoryReg off then 0 else m.rd off

section
variable {b m k : Module} {off : Nat}

theorem memoryReg_of_block (hlo : 0x400000 ≤ off) (hhi : off < 0x580000) : memoryReg off = true := by
  simp [memoryReg, hlo, hhi]

theorem memoryReg_of_report (h : off ∈ reportRegs) : memoryReg off = true := by simp [memoryReg, h]

theorem Agree.besideMemory_rd (h : Agree Module.besideMemory m k) (hoff : memoryReg off = false) : k.rd off = m.rd off := by
  have := congrFun h off
  simpa [Module.besideMemory, hoff] using this

theorem Agree.besideMemory_of (h : Agree (Module.unreported []) m k) : Agree Module.besideMemory m k := by
  funext o
  unfold Module.besideMemory
  split
  · rfl
  · next ho => exact h.unreported_rd List.not_mem_nil fun hr => ho (memoryReg_of_report hr)

theorem Module.wr_besideMemory (m : Module) (v : Word) (h : memoryReg off = true) :
    Agree Module.besideMemory m (m.wr off v) := by
  funext o
  unfold Module.besideMemory
  split
  · rfl
  · next ho => exact Module.rd_wr_ne _ _ fun he => ho (he ▸ h)

theorem Module.setFld_besideMemory (m : Module) (f : Bits) (v : Nat) (h : memoryReg off = true) :
    Agree Module.besideMemory m (m.setFld off f v) := m.wr_besideMemory _ h

theorem Module.satAdd_besideMemory (m : Module) (f : Bits) (n : Nat) (h : memoryReg off = true) :
    Agree Module.besideMemory m (m.satAdd off f n) := m.wr_besideMemory _ h

theorem Module.count_besideMemory (m : Module) (n : Nat) (h : memoryReg off = true) :
    Agree Module.besideMemory m (m.count off n) := m.wr_besideMemory _ h

/-! ### Reports -/

theorem Module.raiseSeq_besideMemory (m : Module) (code ctx : Nat) (seq : Word) (p0 p1 p2 p3 : Nat) :
    Agree Module.besideMemory m (m.raiseSeq code ctx seq p0 p1 p2 p3) := .besideMemory_of (m.raiseSeq_unreported ..)

theorem Module.raise_besideMemory (m : Module) (code p0 p1 p2 p3 : Nat) :
    Agree Module.besideMemory m (m.raise code p0 p1 p2 p3) := m.raiseSeq_besideMemory ..

theorem Module.raiseCtx_besideMemory (m : Module) (code c p0 p1 p2 p3 : Nat) :
    Agree Module.besideMemory m (m.raiseCtx code c p0 p1 p2 p3) := m.raiseSeq_besideMemory ..

theorem Module.writeAllLost_besideMemory (m : Module) : Agree Module.besideMemory m m.writeAllLost :=
  .besideMemory_of m.writeAllLost_unreported

theorem Module.countFault_besideMemory (m : Module) {cls : Nat} (h : cls ≤ 16) :
    Agree Module.besideMemory m (m.countFault cls) := .besideMemory_of (m.countFault_unreported h)

theorem Module.faultSeq_besideMemory (m : Module) {cls : Nat} (h : cls ≤ 16) (code ctx : Nat) (seq : Word)
    (p0 p1 p2 p3 : Nat) : Agree Module.besideMemory m (m.faultSeq cls code ctx seq p0 p1 p2 p3) :=
  .besideMemory_of (m.faultSeq_unreported h ..)

theorem Module.fault_besideMemory (m : Module) {cls : Nat} (h : cls ≤ 16) (code p0 p1 p2 p3 : Nat) :
    Agree Module.besideMemory m (m.fault cls code p0 p1 p2 p3) := m.faultSeq_besideMemory h ..

theorem Module.silentFault_besideMemory (m : Module) {cls : Nat} (h : cls ≤ 16) :
    Agree Module.besideMemory m (m.silentFault cls) := .besideMemory_of (m.silentFault_unreported h)

theorem Module.storeFlash_besideMemory (m : Module) (f : Flash → Flash) :
    Agree Module.besideMemory m (m.storeFlash f) := .besideMemory_of (m.storeFlash_unreported f)

theorem Module.journalEntry_besideMemory (m : Module) (kind : Nat) (source : Fin 4) (session : W16) (object old new : Nat) :
    Agree Module.besideMemory m (m.journalEntry kind source session object old new) :=
  .besideMemory_of (m.journalEntry_unreported ..)

theorem Module.journalWrite_besideMemory (m : Module) (src : Option (Fin 4 × W16)) (r : RegRow) (off : Nat) (old new : Word) :
    Agree Module.besideMemory m (m.journalWrite src r off old new) := .besideMemory_of (m.journalWrite_unreported ..)

/-! ### Memory -/

theorem bitsOf_lt (a hi lo : Nat) : bitsOf a hi lo < 2 ^ (hi + 1 - lo) := Nat.mod_lt _ (by positivity)

theorem stackHash_lt (a : Nat) : stackHash a < 8 := by
  have hb : ∀ b : Bool, b.toNat ≤ 1 := by decide
  have h₀ := hb (xorBits a [6, 9, 12, 15, 18, 21, 24])
  have h₁ := hb (xorBits a [7, 10, 13, 16, 19, 22, 25])
  have h₂ := hb (xorBits a [8, 11, 14, 17, 20, 23])
  unfold stackHash
  omega

theorem Module.stackOf_lt (m : Module) (a : Nat) : m.stackOf a < 8 := by
  unfold Module.stackOf
  split
  · exact Nat.xor_lt_two_pow (n := 3) (bitsOf_lt a 28 26) (stackHash_lt a)
  · exact bitsOf_lt a 28 26

theorem channelOf_lt (a : Nat) : channelOf a < 16 :=
  Nat.xor_lt_two_pow (n := 4) (Nat.xor_lt_two_pow (Nat.xor_lt_two_pow (bitsOf_lt _ 11 8) (bitsOf_lt _ 15 12))
    (bitsOf_lt _ 19 16)) (bitsOf_lt _ 23 20)

theorem memoryReg_stack {s o : Nat} (hs : s < 8) (ho : o < 0x8000) : memoryReg (0x400000 + o + s * 0x8000) = true :=
  memoryReg_of_block (by omega) (by omega)

theorem memoryReg_channel {c o : Nat} (hc : c < 16) (ho : o < 0x100) : memoryReg (0x501000 + o + c * 0x100) = true :=
  memoryReg_of_block (by omega) (by omega)

theorem Module.clearBad_besideMemory (m : Module) (a n : Nat) : Agree Module.besideMemory m (m.clearBad a n) := by
  unfold Module.clearBad
  refine .foldl (fun m w => ?_) _ (.upd .refl)
  exact Module.setFld_besideMemory _ _ _ (memoryReg_stack (o := 0x14) (m.stackOf_lt _) (by decide))

theorem Module.spmCorrected_besideMemory (m : Module) (a : Nat) : Agree Module.besideMemory m (m.spmCorrected a) := by
  have hcount : Agree Module.besideMemory m ((m.count (SPM_ST_CE (m.stackOf a)) 1).countFault 4) :=
    .after (Module.countFault_besideMemory _ (by decide)) <|
      Module.count_besideMemory _ _ (memoryReg_stack (o := 0x04) (m.stackOf_lt _) (by decide))
  unfold Module.spmCorrected
  exact .ite (fun _ => .after (Module.raise_besideMemory ..) hcount) fun _ => hcount

theorem Module.spmPoison_besideMemory (m : Module) (source a : Nat) : Agree Module.besideMemory m (m.spmPoison source a) := by
  have hs := m.stackOf_lt a
  have haddr : memoryReg (SPM_ST_UE_ADDR (m.stackOf a)) = true := memoryReg_stack (o := 0x10) hs (by decide)
  unfold Module.spmPoison
  exact .after (Module.fault_besideMemory _ (by decide) ..) <| .after (Module.setFld_besideMemory _ _ _ haddr) <|
    .after (Module.setFld_besideMemory _ _ _ haddr) <| .after (Module.setFld_besideMemory _ _ _ haddr) <|
    .after (Module.satAdd_besideMemory _ _ _ (memoryReg_stack (o := 0x14) hs (by decide))) <|
    .after (Module.count_besideMemory _ _ (memoryReg_stack (o := 0x08) hs (by decide))) <| .upd .refl

theorem Module.dramMet_besideMemory (m : Module) (a : Nat) : Agree Module.besideMemory m (m.dramMet a) := by
  have hc := channelOf_lt a
  have hhi : memoryReg (DDR_CH_UE_ADDR_HI (channelOf a)) = true := memoryReg_channel (o := 0x0C) hc (by decide)
  unfold Module.dramMet
  exact .after (Module.fault_besideMemory _ (by decide) ..) <| .after (Module.setFld_besideMemory _ _ _ hhi) <|
    .after (Module.setFld_besideMemory _ _ _ hhi) <|
    .after (Module.wr_besideMemory _ _ (memoryReg_channel (o := 0x08) hc (by decide))) <|
    Module.count_besideMemory _ _ (memoryReg_channel (o := 0x04) hc (by decide))

theorem Module.meetErr_besideMemory (m : Module) (source : Nat) (e : MemErr) :
    Agree Module.besideMemory m (m.meetErr source e) := by
  unfold Module.meetErr
  split
  · exact .ite (fun _ => .refl) fun _ => .ite (fun _ => Module.spmPoison_besideMemory ..) fun _ =>
      Module.spmCorrected_besideMemory ..
  · refine .ite (fun _ => .refl) fun _ => .ite (fun _ => .upd .refl) fun _ => ?_
    exact .after (Module.countFault_besideMemory _ (by decide)) <|
      Module.count_besideMemory _ _ (memoryReg_channel (o := 0x00) (channelOf_lt _) (by decide))
  · exact .refl

theorem Module.reportGather_besideMemory (m : Module) {s : Nat} (h : s < 8) :
    Agree Module.besideMemory m (m.reportGather s) :=
  Module.setFld_besideMemory _ _ _ (memoryReg_of_block (by unfold SPM_ST_GATHER; omega) (by unfold SPM_ST_GATHER; omega))

theorem Module.meetWhere_besideMemory (m : Module) (source : Nat) (hit : MemErr → Bool) :
    Agree Module.besideMemory m (m.meetWhere source hit) := by
  unfold Module.meetWhere
  exact .foldl (fun _ _ => Module.meetErr_besideMemory ..) _ (.upd .refl)

theorem Module.meet_besideMemory (m : Module) (source : Nat) (spans : List (Nat × Nat)) :
    Agree Module.besideMemory m (m.meet source spans) := m.meetWhere_besideMemory ..

theorem Module.meetLines_besideMemory (m : Module) (source : Nat) (spans : List (Nat × Nat)) :
    Agree Module.besideMemory m (m.meetLines source spans) := m.meet_besideMemory ..

theorem Module.meetLink_besideMemory (m : Module) (a n : Nat) : Agree Module.besideMemory m (m.meetLink a n) :=
  m.meetWhere_besideMemory ..

theorem Module.meetPartly_besideMemory (m : Module) (source a n : Nat) :
    Agree Module.besideMemory m (m.meetPartly source a n) := m.meet_besideMemory ..

theorem Module.reportBad_besideMemory (m : Module) (a n : Nat) : Agree Module.besideMemory m (m.reportBad a n) :=
  .foldl (fun _ _ => Module.dramMet_besideMemory ..) _ .refl

theorem Module.reportPartly_besideMemory (m : Module) (a n : Nat) : Agree Module.besideMemory m (m.reportPartly a n) :=
  .foldl (fun _ _ => Module.dramMet_besideMemory ..) _ .refl

theorem Module.flushLine_besideMemory (m : Module) (line : Nat) : Agree Module.besideMemory m (m.flushLine line) := by
  unfold Module.flushLine
  split
  · exact .refl
  · refine .after (Module.reportGather_besideMemory _ (m.stackOf_lt _)) <| .kept (Module.putSome_keeps ..) (fun _ => rfl) <|
      .foldl (fun m w => ?_) _ (.upd .refl)
    exact .ite (fun _ => Module.clearBad_besideMemory ..) fun _ => .ite (fun _ => Module.meet_besideMemory ..) fun _ => .refl

theorem Module.flushSpan_besideMemory (m : Module) (a n : Nat) : Agree Module.besideMemory m (m.flushSpan a n) :=
  .foldl (fun _ _ => Module.flushLine_besideMemory ..) _ .refl

theorem Module.write_besideMemory (m : Module) (a : Nat) (l : List Byte) : Agree Module.besideMemory m (m.write a l) := by
  unfold Module.write
  exact .kept (Module.putSome_keeps ..) (fun _ => rfl) <| .after (Module.clearBad_besideMemory ..) <|
    .after (Module.reportPartly_besideMemory ..) <| .after (Module.meetPartly_besideMemory ..) <|
    .after (Module.meetLink_besideMemory ..) <| Module.flushSpan_besideMemory ..

theorem Module.zero_besideMemory (m : Module) (a n : Nat) : Agree Module.besideMemory m (m.zero a n) := by
  unfold Module.zero
  exact .after (Module.clearBad_besideMemory ..) <| .upd <| Module.flushSpan_besideMemory ..

theorem Module.narrowLine_besideMemory (m : Module) (a : Nat) (l : List Byte) :
    Agree Module.besideMemory m (m.narrowLine a l) := by
  unfold Module.narrowLine
  extract_lets line s evicted old e entered
  have hevicted : Agree Module.besideMemory m evicted := by
    refine .ite (fun _ => ?_) fun _ => .refl
    split
    · exact Module.flushLine_besideMemory ..
    · exact .refl
  have hentered : Agree Module.besideMemory m entered :=
    .after (Module.reportGather_besideMemory _ (m.stackOf_lt a)) (.upd hevicted)
  exact .ite (fun _ => .after (Module.flushLine_besideMemory ..) hentered) fun _ => hentered

theorem Module.spmWriteGo_besideMemory (fuel : Nat) (m : Module) (a : Nat) (l : List Byte) :
    Agree Module.besideMemory m (Module.spmWriteGo fuel m a l) := by
  induction fuel generalizing m a l with
  | zero => exact .refl
  | succ fuel ih =>
    unfold Module.spmWriteGo
    exact .ite (fun _ => .refl) fun _ => .ite (fun _ => .after (ih ..) (Module.write_besideMemory ..)) fun _ =>
      .after (ih ..) (Module.narrowLine_besideMemory ..)

theorem Module.store_besideMemory (m : Module) (a : Nat) (l : List Byte) : Agree Module.besideMemory m (m.store a l) :=
  .ite (fun _ => Module.spmWriteGo_besideMemory ..) fun _ => Module.write_besideMemory ..

theorem Module.writeReport_besideMemory (m : Module) (b : Nat → List Byte) :
    Agree Module.besideMemory m (m.writeReport b) := by
  unfold Module.writeReport
  split
  · exact .refl
  · exact Module.store_besideMemory ..

theorem Module.thermalReport_besideMemory (m : Module) : Agree Module.besideMemory m m.thermalReport := by
  unfold Module.thermalReport
  exact Module.writeReport_besideMemory ..

theorem Module.checkRisk_besideMemory (m : Module) : Agree Module.besideMemory m m.checkRisk := by
  unfold Module.checkRisk
  split
  · exact .upd .refl
  · dsimp only
    split
    · split
      · exact .refl
      · exact .after (Module.thermalReport_besideMemory ..) <| .after (Module.fault_besideMemory _ (by decide) ..) (.upd .refl)
    · exact .upd .refl

end
end Sys2Proof.Machine
end

section
set_option Elab.async false
/-!
Measurement and temperature (R459 to R463, R371 to R373).
-/
namespace Sys2Proof.Machine
open Sys2Proof

section
variable {s : State} {b m k : Module} {off o : Nat}

theorem Module.bit_setFld (m : Module) (off : Nat) (b : Bits) (c : Bool) (h : b.lo ≤ b.hi) (h' : b.hi < 32) :
    (m.setFld off b c.toNat).bit off b = c := by
  have hv : c.toNat < 2 ^ (b.hi - b.lo + 1) :=
    (Bool.toNat_lt c).trans_le
      (Nat.le_self_pow (by omega) 2)
  rw [Module.bit, Module.fld_setFld _ _ _ _ h h' hv]
  cases c <;> rfl

theorem Module.bit_setFld_ne (m : Module) (off : Nat) (b c : Bits) (v : Nat) (h : c.hi < 32) (hc : c.lo ≤ c.hi)
    (hd : c.hi < b.lo ∨ b.lo + (b.hi - b.lo + 1) ≤ c.lo) : (m.setFld off b v).bit off c = m.bit off c := by
  rw [Module.bit, Module.fld_setFld_ne _ _ _ _ _ h hc hd]
  rfl

theorem Module.bit_setFld_other (m : Module) (b c : Bits) (v : Nat) (h : o ≠ off) :
    (m.setFld off b v).bit o c = m.bit o c := Module.bit_congr (Module.rd_setFld_ne _ _ _ h) _

theorem twos_lt (n : Nat) (i : Int) : twos n i < 2 ^ n := by
  have hpos : (0 : Int) < (2 ^ n : Nat) := by positivity
  have hlt := Int.emod_lt_of_pos i hpos
  have hge := Int.emod_nonneg i hpos.ne'
  unfold twos
  omega

theorem signedOf_twos {i : Int} (hlo : -32768 ≤ i) (hhi : i < 32768) : signedOf 16 (twos 16 i) = i := by
  unfold signedOf twos
  split <;> omega

/-! ### Power -/

theorem powerSample_power (mv ma : Nat) (rails : Word) (m : Module) :
    let l := ((mv, ma) :: m.powerSamples).take 10000
    let p := min (mean ((l.take 1000).map fun x => x.1 * x.2) / 100000) 65535
    (powerSample mv ma rails m).fld PWR_IN_P PWR_IN_P_p_100ms_dw = p ∧ (powerSample mv ma rails m).rd PWR_RAIL_P = rails ∧
      (powerSample mv ma rails m).jobsGated = (if m.jobsGated then decide (m.cap ≤ p + 50) else decide (m.cap < p)) := by
  intro l p
  have hp : p < 2 ^ (PWR_IN_P_p_100ms_dw.hi - PWR_IN_P_p_100ms_dw.lo + 1) := (min_le_right _ _).trans_lt (by decide)
  have hcap (x : Module) {o : Nat} (b : Bits) (v : Nat) (h : SYS_ADM_POWER ≠ o) : (x.setFld o b v).cap = x.cap :=
    Module.fld_setFld_other _ _ _ _ h
  unfold powerSample
  extract_lets m₀ l₁ dw p₁ m₁ m₂ m₃
  have hcap₃ : m₃.cap = m.cap :=
    calc m₃.cap = m₂.cap := Module.fld_wr_other _ _ _ (by decide)
      _ = m₁.cap := (hcap _ _ _ (by decide)).trans (hcap _ _ _ (by decide))
      _ = m.cap := (hcap _ _ _ (by decide)).trans (hcap m₀ _ _ (by decide))
  refine ⟨?_, Module.rd_wr_same .., ?_⟩
  · refine (Module.fld_wr_other m₂ _ _ (by decide)).trans ((Module.fld_setFld_ne _ _ _ _ _ (by decide) (by decide)
      (by decide)).trans (Module.fld_setFld _ _ _ _ (by decide) (by decide) hp))
  · change (if m.jobsGated = true then decide (m₃.cap ≤ p + 50) else decide (m₃.cap < p)) = _
    rw [hcap₃]

/-! ### The cold plate -/

/-- The registers that a sample of the die temperature writes. -/
def dieRegs : List Nat := [CAL_MON_STAT, PWR_TEMP]

theorem Module.dieSample_regsBut (m : Module) : Agree (Module.regsBut dieRegs) m m.dieSample := by
  unfold Module.dieSample Module.dieReport
  dsimp only
  split
  · exact .sameRegs .refl (he := ⟨rfl, rfl⟩)
  · exact .after (Module.setFld_regsBut _ _ _ (by decide)) <| .after (Module.setFld_regsBut _ _ _ (by decide)) <|
      .sameRegs .refl (he := ⟨rfl, rfl⟩)

/-- The module of a cold-plate sample before it warns. -/
def Module.plateAt (m : Module) (t : Int) : Module :=
  (m.dieSample.setFld PWR_TEMP PWR_TEMP_cold_plate (twos 16 t)).setFld PWR_TEMP_STAT PWR_TEMP_STAT_over_85
    (decide (85 * 16 < t)).toNat

/-- The warnings of a sample and PLAN_AT_RISK leave the registers beside those of memory and reports. -/
theorem coldPlateSample_besideMemory (bp0 bp1 : Int) (h₀ : m.bit PWR_TEMP_STAT PWR_TEMP_STAT_bp0_ok = true)
    (h₁ : m.bit PWR_TEMP_STAT PWR_TEMP_STAT_bp1_ok = true) :
    Agree Module.besideMemory (m.plateAt (max bp0 bp1)) (coldPlateSample bp0 bp1 m) := by
  have hstat : m.dieSample.rd PWR_TEMP_STAT = m.rd PWR_TEMP_STAT := m.dieSample_regsBut.rd (by decide)
  unfold coldPlateSample
  dsimp only
  rw [Module.bit_congr hstat, Module.bit_congr hstat, h₀, h₁]
  refine .after (Module.checkRisk_besideMemory ..) ?_
  exact .foldl (fun _ _ => Module.fault_besideMemory _ (by decide) ..) _ .refl

theorem Module.coldPlate_plateAt {t : Int} (hlo : -32768 ≤ t) (hhi : t < 32768) : (m.plateAt t).coldPlate = t := by
  unfold Module.coldPlate Module.plateAt
  rw [Module.fld_setFld_other _ _ _ _ (by decide), Module.fld_setFld _ _ _ _ (by decide) (by decide) (twos_lt 16 t),
    signedOf_twos hlo hhi]

theorem Module.power_plateAt (m : Module) (t : Int) : (m.plateAt t).power = m.power := by
  refine (Module.fld_setFld_other _ _ _ _ (by decide)).trans ((Module.fld_setFld_other _ _ _ _ (by decide)).trans ?_)
  exact Module.fld_congr (m.dieSample_regsBut.rd (by decide)) _

/-! ### The base-plate sensors -/

/-- The verdict on sensor i, and its report (`tempSensorCheck`'s own). -/
def Module.sensorReport (m : Module) (fresh : Bool) (i : Nat) (now : Bool) (b : Bits) (r other : Option Int) : Module :=
  let m' := m.setFld PWR_TEMP_STAT b now.toNat
  if now || !(fresh || m.bit PWR_TEMP_STAT b) then m'
  else
    let (v, m') := m'.open_
    m'.fault 15 0x0403 i ((r.map (twos 32)).getD v.toNat) ((other.map (twos 32)).getD v.toNat) 0

theorem Module.sensorReport_rd (m : Module) (fresh : Bool) (i : Nat) (now : Bool) (b : Bits) (r other : Option Int)
    (h : off ∉ reportRegs) : (m.sensorReport fresh i now b r other).rd off = (m.setFld PWR_TEMP_STAT b now.toNat).rd off := by
  unfold Module.sensorReport
  dsimp only
  split
  · rfl
  · exact Module.rd_fault _ _ _ _ _ _ (by decide) h

theorem Module.sensorReport_keeps (m : Module) (fresh : Bool) (i : Nat) (now : Bool) (b : Bits) (r other : Option Int) :
    Keeps Fld.fault m (m.sensorReport fresh i now b r other) := by
  unfold Module.sensorReport
  dsimp only
  refine .ite (fun _ => (Module.setFld_keeps ..).mono rfl) fun _ => ?_
  exact .after (Module.fault_keeps ..) rfl <| .after (Module.open__keeps ..) rfl <| (Module.setFld_keeps ..).mono rfl

/-- Whether the readings lie too far apart. -/
def platesFar (x y : Option Int) : Bool :=
  match x, y with
  | some x, some y => decide (48 < (x - y).natAbs)
  | _, _ => false

theorem platesFar_iff (x y : Option Int) :
    platesFar x y = true ↔ ∃ u v, x = some u ∧ y = some v ∧ 48 < (u - v).natAbs := by
  cases x <;> cases y <;> simp [platesFar]

/-- The module once both sensors have their verdict. -/
def Module.sensorsJudged (m : Module) (x y : Option Int) : Module :=
  let fresh := !m.bit PWR_TEMP_STAT PWR_TEMP_STAT_bp0_ok && !m.bit PWR_TEMP_STAT PWR_TEMP_STAT_bp1_ok &&
    !m.bit PWR_TEMP_STAT PWR_TEMP_STAT_cap_held
  (m.sensorReport fresh 0 (x.isSome && !platesFar x y) PWR_TEMP_STAT_bp0_ok x y).sensorReport fresh 1
    (y.isSome && !platesFar x y) PWR_TEMP_STAT_bp1_ok y x

theorem tempSensorCheck_eq (x y : Option Int) (m : Module) : tempSensorCheck x y m =
    let held := !(x.isSome && !platesFar x y) && !(y.isSome && !platesFar x y)
    if held = (m.sensorsJudged x y).bit PWR_TEMP_STAT PWR_TEMP_STAT_cap_held then m.sensorsJudged x y
    else ((m.sensorsJudged x y).setFld PWR_TEMP_STAT PWR_TEMP_STAT_cap_held held.toNat).updateCap := rfl

theorem Module.updateCap_rd (m : Module) (h : off ∉ [PWR_CAP, SYS_ADM_POWER]) : m.updateCap.rd off = m.rd off := by
  simp only [List.mem_cons, List.not_mem_nil, or_false, not_or] at h
  unfold Module.updateCap
  rw [Module.rd_setFld_ne _ _ _ h.2, Module.rd_setFld_ne _ _ _ h.1, Module.rd_setFld_ne _ _ _ h.1]

theorem Module.updateCap_held (h : m.bit PWR_TEMP_STAT PWR_TEMP_STAT_cap_held = true) :
    m.updateCap.fld PWR_CAP PWR_CAP_thermal_dw = thermalCap m.mode (85 * 16) := by
  have hnow : m.thermalNow = thermalCap m.mode (85 * 16) := if_pos h
  rw [Module.updateCap, Module.fld_setFld_other _ _ _ _ (by decide),
    Module.fld_setFld_ne _ _ _ _ _ (by decide) (by decide) (by decide), hnow]
  exact Module.fld_setFld _ _ _ _ (by decide) (by decide) (thermalCap_lt _ _)

theorem Module.mode_congr (hc : k.modeChange = m.modeChange) (hr : k.rd PWR_MODE = m.rd PWR_MODE) : k.mode = m.mode := by
  unfold Module.mode
  rw [hc, Module.fld_congr hr]

/-- The verdicts, and that the last of them left the hold as it was. -/
theorem Module.sensorsJudged_bits (m : Module) (x y : Option Int) :
    (m.sensorsJudged x y).bit PWR_TEMP_STAT PWR_TEMP_STAT_bp0_ok = (x.isSome && !platesFar x y) ∧
      (m.sensorsJudged x y).bit PWR_TEMP_STAT PWR_TEMP_STAT_bp1_ok = (y.isSome && !platesFar x y) ∧
      (m.sensorsJudged x y).bit PWR_TEMP_STAT PWR_TEMP_STAT_cap_held = m.bit PWR_TEMP_STAT PWR_TEMP_STAT_cap_held := by
  have hrd (x : Module) (fresh : Bool) (i : Nat) (now : Bool) (b c : Bits) (r o : Option Int) :
      (x.sensorReport fresh i now b r o).bit PWR_TEMP_STAT c = (x.setFld PWR_TEMP_STAT b now.toNat).bit PWR_TEMP_STAT c :=
    Module.bit_congr (x.sensorReport_rd fresh i now b r o (by decide)) c
  unfold Module.sensorsJudged
  refine ⟨?_, ?_, ?_⟩ <;> rw [hrd]
  · rw [Module.bit_setFld_ne _ _ _ _ _ (by decide) (by decide) (by decide), hrd, Module.bit_setFld _ _ _ _ (by decide) (by decide)]
  · rw [Module.bit_setFld _ _ _ _ (by decide) (by decide)]
  · rw [Module.bit_setFld_ne _ _ _ _ _ (by decide) (by decide) (by decide), hrd,
      Module.bit_setFld_ne _ _ _ _ _ (by decide) (by decide) (by decide)]

theorem Module.sensorsJudged_keeps (m : Module) (x y : Option Int) : Keeps Fld.fault m (m.sensorsJudged x y) :=
  .after (Module.sensorReport_keeps ..) rfl (Module.sensorReport_keeps ..)

theorem Module.sensorsJudged_mode (m : Module) (x y : Option Int) : (m.sensorsJudged x y).mode = m.mode := by
  refine Module.mode_congr ((m.sensorsJudged_keeps x y).view (·.modeChange) fun _ => rfl) ?_
  unfold Module.sensorsJudged
  rw [Module.sensorReport_rd _ _ _ _ _ _ _ (by decide), Module.rd_setFld_ne _ _ _ (by decide),
    Module.sensorReport_rd _ _ _ _ _ _ _ (by decide), Module.rd_setFld_ne _ _ _ (by decide)]

/-- What the verdicts show, the hold among them. -/
theorem tempSensorCheck_bits (x y : Option Int) (m : Module) :
    (tempSensorCheck x y m).bit PWR_TEMP_STAT PWR_TEMP_STAT_bp0_ok = (x.isSome && !platesFar x y) ∧
      (tempSensorCheck x y m).bit PWR_TEMP_STAT PWR_TEMP_STAT_bp1_ok = (y.isSome && !platesFar x y) ∧
      (tempSensorCheck x y m).bit PWR_TEMP_STAT PWR_TEMP_STAT_cap_held =
        (!(x.isSome && !platesFar x y) && !(y.isSome && !platesFar x y)) := by
  obtain ⟨h₀, h₁, -⟩ := m.sensorsJudged_bits x y
  have hup (z : Module) (c : Bits) : z.updateCap.bit PWR_TEMP_STAT c = z.bit PWR_TEMP_STAT c :=
    Module.bit_congr (z.updateCap_rd (by decide)) c
  rw [tempSensorCheck_eq]
  dsimp only
  split
  · next hsame => exact ⟨h₀, h₁, hsame.symm⟩
  · rw [hup, hup, hup, Module.bit_setFld_ne _ _ _ _ _ (by decide) (by decide) (by decide),
      Module.bit_setFld_ne _ _ _ _ _ (by decide) (by decide) (by decide), Module.bit_setFld _ _ _ _ (by decide) (by decide)]
    exact ⟨h₀, h₁, rfl⟩

/-- The hold begins. -/
theorem tempSensorCheck_holds {x y : Option Int} (hfree : m.bit PWR_TEMP_STAT PWR_TEMP_STAT_cap_held = false)
    (hheld : (!(x.isSome && !platesFar x y) && !(y.isSome && !platesFar x y)) = true) :
    (tempSensorCheck x y m).fld PWR_CAP PWR_CAP_thermal_dw = thermalCap m.mode (85 * 16) := by
  obtain ⟨-, -, hwas⟩ := m.sensorsJudged_bits x y
  have hmode : ((m.sensorsJudged x y).setFld PWR_TEMP_STAT PWR_TEMP_STAT_cap_held (true).toNat).mode = m.mode :=
    (Module.mode_congr (m := m.sensorsJudged x y)
      (k := (m.sensorsJudged x y).setFld PWR_TEMP_STAT PWR_TEMP_STAT_cap_held (true).toNat) rfl
      (Module.rd_setFld_ne _ _ _ (by decide))).trans (m.sensorsJudged_mode x y)
  rw [tempSensorCheck_eq, hwas, hfree, hheld, if_neg (by decide),
    Module.updateCap_held (Module.bit_setFld _ _ _ _ (by decide) (by decide)), hmode]

/-! ### Thermal trips -/

theorem Module.makeEvent_regsBut (m : Module) (code ctx : Nat) (seq : Word) (p0 p1 p2 p3 : Nat) :
    Agree (Module.regsBut [DBG_TRACE]) m (m.makeEvent code ctx seq p0 p1 p2 p3).2 := by
  unfold Module.makeEvent
  dsimp only
  exact .after (Module.wr_regsBut _ _ (by decide)) <| .sameRegs <| .kept (Module.tick_keeps ..) (fun _ => rfl) .refl

theorem Module.writeAllLost_regsBut (m : Module) : Agree (Module.regsBut [DBG_TRACE]) m m.writeAllLost := by
  unfold Module.writeAllLost
  refine .foldl (fun m n => ?_) _ .refl
  unfold Module.writeLost
  dsimp only
  split
  · exact .refl
  · refine .ite (fun _ => .refl) fun _ => ?_
    exact .kept (Module.writeEvent_keeps ..) (fun _ => rfl) <| .sameRegs <| .after (Module.makeEvent_regsBut ..) .refl

/-- A fault is counted in its class. -/
theorem Module.faultSeq_counted (m : Module) (cls code ctx : Nat) (seq : Word) (p0 p1 p2 p3 : Nat)
    (h : SYS_FLT_CNT (cls - 1) ∉ [DBG_TRACE]) : ((m.faultSeq cls code ctx seq p0 p1 p2 p3).rd (SYS_FLT_CNT (cls - 1))).toNat =
      min ((m.rd (SYS_FLT_CNT (cls - 1))).toNat + 1) 0xFFFFFFFF := by
  have ha : Agree (Module.regsBut [DBG_TRACE]) (m.countFault cls) (m.faultSeq cls code ctx seq p0 p1 p2 p3) := by
    unfold Module.faultSeq
    dsimp only
    exact .kept (Module.deliver_keeps ..) (fun _ => rfl) <| .sameRegs <| .after (Module.makeEvent_regsBut ..) <|
      Module.writeAllLost_regsBut _
  rw [ha.rd h]
  exact m.rd_count_same_toNat ..

theorem thermalTrip_leaves (hpower : 2 ≤ m.power) (hboot : m.boot = .ready) (hstreams : m.streams = [])
    (htrans : m.transition = none) (hmode : m.modeChange = none) (hfill : m.fullFill = none) : thermalTrip m =
      { (m.count PWR_CNT_TRIP 1).startMove 1 .thermal with transition := some ⟨1, .thermal, true, false, false, false⟩ }.fault
        13 0x0A01 (1 + 16 * m.power) 0 0 0 := by
  have hp : (m.count PWR_CNT_TRIP 1).power = m.power := Module.fld_wr_other _ _ _ (by decide)
  have hb : (m.count PWR_CNT_TRIP 1).boot ≠ .failure := by
    change m.boot ≠ _
    simp [hboot]
  have ht : (m.count PWR_CNT_TRIP 1).transition = none := htrans
  unfold thermalTrip
  dsimp only
  rw [if_neg hb, ht]
  dsimp only
  rw [if_neg (by omega), Module.leave_of_still (m := m.count PWR_CNT_TRIP 1) hmode hfill hstreams]
  have hs : ((m.count PWR_CNT_TRIP 1).startMove 1 .thermal).streams = [] := hstreams
  unfold Module.announce
  have ht : ((m.count PWR_CNT_TRIP 1).startMove 1 .thermal).transition = some ⟨1, .thermal, false, false, false, false⟩ := rfl
  simp only [ht, hs, List.isEmpty_nil, Module.power_startMove, hp, Nat.not_le.2 (by decide : 1 < 2), decide_false, Bool.not_true,
    Bool.or_false, Bool.false_eq_true, if_false, if_true]

theorem thermalTrip_standby (hpower : m.power = 1) (hboot : m.boot ≠ .failure) (htrans : m.transition = none) :
    thermalTrip m = { (m.count PWR_CNT_TRIP 1).setFld PWR_CAUSE PWR_CAUSE_standby_cause 1 with tripped := true }.silentFault 13 := by
  have hp : (m.count PWR_CNT_TRIP 1).power = 1 := (Module.fld_wr_other _ _ _ (by decide)).trans hpower
  have ht : (m.count PWR_CNT_TRIP 1).transition = none := htrans
  unfold thermalTrip
  dsimp only
  rw [if_neg (show (m.count PWR_CNT_TRIP 1).boot ≠ .failure from hboot), ht]
  dsimp only
  rw [if_pos hp]

theorem thermalTrip_joins {t : Transition} (hboot : m.boot ≠ .failure) (htrans : m.transition = some t) (htarget : t.target = 1) :
    thermalTrip m =
      let k := { m.count PWR_CNT_TRIP 1 with transition := some { t with cause := .thermal } }
      if t.announced then k.silentFault 13 else k := by
  have ht : (m.count PWR_CNT_TRIP 1).transition = some t := htrans
  unfold thermalTrip
  dsimp only
  rw [if_neg (show (m.count PWR_CNT_TRIP 1).boot ≠ .failure from hboot), ht]
  dsimp only
  rw [if_neg (by omega), if_pos htarget]

end
end Sys2Proof.Machine
namespace Sys2Proof
open Machine

/-- Settles O51: each measurement by the fields it writes, the check of the sensors by its verdicts, a trip by where it meets the
module. -/
theorem measurementCompletes : Obligations.MeasurementCompletes := by
  intro s hon
  have hcnt (x : Module) : ((x.count PWR_CNT_TRIP 1).rd PWR_CNT_TRIP).toNat = min ((x.rd PWR_CNT_TRIP).toNat + 1) 0xFFFFFFFF :=
    x.rd_count_same_toNat ..
  refine ⟨fun mv ma rails => ?_, fun bp0 bp1 h₀ h₁ hlo hhi => ?_, fun x y => ?_, fun hpower hboot hstreams htrans hmode hfill => ?_,
    fun hpower hboot htrans => ?_, fun t hboot htrans htarget => ?_, ?_⟩
  · obtain ⟨hp, hrails, hgated⟩ := powerSample_power mv ma rails s.toModule
    have hk := powerSample_keeps mv ma rails s.toModule
    exact .of_ok hon rfl ⟨rfl, rfl, hp, hrails, hgated, hk.view (·.streams) fun _ => rfl, hk.view (·.jobs) fun _ => rfl,
      hk.view (·.engines) fun _ => rfl⟩
  · have ha := coldPlateSample_besideMemory bp0 bp1 h₀ h₁
    refine .of_ok hon rfl ⟨?_, ?_, ?_, (coldPlateSample_keeps ..).view (·.streams) fun _ => rfl⟩
    · exact (congrArg (signedOf 16) (Module.fld_congr (ha.besideMemory_rd (by decide)) _)).trans
        (Module.coldPlate_plateAt hlo hhi)
    · exact (Module.bit_congr (ha.besideMemory_rd (by decide)) _).trans (Module.bit_setFld _ _ _ _ (by decide) (by decide))
    · exact (Module.fld_congr (ha.besideMemory_rd (by decide)) _).trans (Module.power_plateAt ..)
  · obtain ⟨h₀, h₁, hheld⟩ := tempSensorCheck_bits x y s.toModule
    have hfar := platesFar_iff x y
    have hboth : ((x = none ∧ y = none) ∨ platesFar x y = true) ↔
        (!(x.isSome && !platesFar x y) && !(y.isSome && !platesFar x y)) = true := by
      cases x <;> cases y <;> simp [platesFar]
    refine .of_ok hon rfl ⟨?_, ?_, ?_, fun hfree hout => ?_, (tempSensorCheck_keeps ..).view (·.streams) fun _ => rfl⟩
    · rw [h₀, ← hfar]
      simp [Option.isSome_iff_ne_none]
    · rw [h₁, ← hfar]
      simp [Option.isSome_iff_ne_none]
    · rw [hheld, ← hfar, hboth]
    · exact tempSensorCheck_holds hfree (hboth.1 (by rwa [hfar]))
  · have hrun := thermalTrip_leaves (m := s.toModule) hpower hboot hstreams htrans hmode hfill
    refine .of_ok hon (congrArg (ok s) hrun) ⟨?_, ?_, ?_, Module.fault_raised ..⟩
    · rw [Module.rd_fault, ← hcnt]
      exact congrArg BitVec.toNat (Module.rd_setFld_ne _ _ _ (by decide))
    · rw [(Module.fault_keeps ..).view (·.transition) fun _ => rfl]
      rfl
    · refine (Module.faultSeq_counted _ 13 _ _ _ _ _ _ _ (by decide)).trans ?_
      refine congrArg (fun w : Word => min (w.toNat + 1) 0xFFFFFFFF) ?_
      exact (Module.rd_setFld_ne _ _ _ (by decide)).trans (Module.rd_wr_ne _ _ (by decide))
  · have hrun := thermalTrip_standby (m := s.toModule) hpower hboot htrans
    have hk := Module.silentFault_keeps
      { (s.count PWR_CNT_TRIP 1).setFld PWR_CAUSE PWR_CAUSE_standby_cause 1 with tripped := true } 13
    refine .of_ok hon (congrArg (ok s) hrun) ⟨hk.view (·.tripped) fun _ => rfl, ?_, ?_, ?_, ?_⟩
    · exact (Module.fld_congr (Module.rd_silentFault _) _).trans (Module.fld_setFld _ _ _ _ (by decide) (by decide) (by decide))
    · refine (Module.fld_congr (Module.rd_silentFault _) _).trans ?_
      exact (Module.fld_setFld_other _ _ _ _ (by decide)).trans ((Module.fld_wr_other _ _ _ (by decide)).trans hpower)
    · exact (hk.view (·.transition) fun _ => rfl).trans htrans
    · rw [Module.rd_silentFault, ← hcnt]
      exact congrArg BitVec.toNat (Module.rd_setFld_ne _ _ _ (by decide))
  · have hrun := thermalTrip_joins (m := s.toModule) hboot htrans htarget
    refine .of_ok hon (congrArg (ok s) hrun) ?_
    dsimp only
    split
    · exact ⟨(Module.silentFault_keeps ..).view (·.transition) fun _ => rfl,
        (congrArg BitVec.toNat (Module.rd_silentFault _)).trans (hcnt _)⟩
    · exact ⟨rfl, hcnt _⟩
  · exact .of_ok hon rfl ⟨rfl, rfl, rfl, (Module.silentFault_keeps s.toModule 13).view (·.otp) fun _ => rfl, rfl,
      Module.goOff_cause _ _ (by decide)⟩

end Sys2Proof
end

section
set_option Elab.async false
/-!
Debug operations: what answers them, and what the inquiries and the burns of a unit's life do (R465 to R483).
-/
namespace Sys2Proof.Machine
open Sys2Proof

section
variable {s : State} {b m k : Module} {d : DbgHdr} {op need status retry : Nat} {body : List Byte}

/-! ### Answers of debug operations -/

theorem Module.frames_getLast? (m : Module) (port : Fin 2) (dest : Peer) (replicate : Bool) (tclass : Nat) (x : Msg) :
    ∃ p vid rtag q, (m.frames port dest replicate tclass x).1.getLast? = some (q, .ywp p dest vid rtag tclass x) := by
  unfold Module.frames
  split <;> exact ⟨_, _, _, _, rfl⟩

theorem foldl_emit_outbox (l : List (Fin 2 × Out)) (m : Module) :
    (l.foldl (fun (m : Module) o => m.emit o.2) m).outbox = m.outbox ++ l.map (·.2) := by
  induction l generalizing m with
  | nil => simp
  | cons o l ih =>
    rw [List.foldl_cons, ih, List.map_cons]
    simp [Module.emit]

/-- A message that is sent is the last thing that has left. -/
theorem Module.send_getLast? (m : Module) (port : Fin 2) (dest : Peer) (replicate : Bool) (tclass : Nat) (x : Msg) :
    ∃ p vid rtag, (m.send port dest replicate tclass x).outbox.getLast? = some (.ywp p dest vid rtag tclass x) := by
  obtain ⟨p, vid, rtag, q, hlast⟩ := m.frames_getLast? port dest replicate tclass x
  refine ⟨p, vid, rtag, ?_⟩
  unfold Module.send
  rw [foldl_emit_outbox, List.getLast?_append, List.getLast?_map, hlast]
  rfl

theorem Module.answer_getLast? (m : Module) (h : Hdr) (type status retry : Nat) (payload : List Byte) :
    ∃ p vid rtag cl, (m.answer h type status retry payload).outbox.getLast? = some (.ywp p h.peer vid rtag cl ⟨h.version,
      BitVec.ofNat 8 type, true, false, h.src, h.session, h.seq, BitVec.ofNat 16 status, BitVec.ofNat 16 retry,
      m.epochOf type, payload⟩) := by
  unfold Module.answer
  dsimp only
  split
  · obtain ⟨p, vid, rtag, hlast⟩ := Module.send_getLast? m _ _ _ _ _
    exact ⟨p, vid, rtag, _, hlast⟩
  · obtain ⟨p, vid, rtag, hlast⟩ := Module.send_getLast? m _ _ _ _ _
    exact ⟨p, vid, rtag, _, hlast⟩

theorem Module.debugAnswer_answered (m : Module) (d : DbgHdr) (op status retry : Nat) (body : List Byte) :
    DbgAnswered (m.debugAnswer d op status retry body) d op status retry body := by
  unfold DbgAnswered Module.debugAnswer Module.debugSend
  split
  · next h => exact m.answer_getLast? _ 0x20 status retry _
  · simp [Module.emit]

theorem Module.debugAnswer_regs (m : Module) (d : DbgHdr) (op status retry : Nat) (body : List Byte) :
    (m.debugAnswer d op status retry body).regs = m.regs := (m.debugAnswer_keeps ..).view (·.regs) fun _ => rfl

theorem Module.rd_congr (h : k.regs = m.regs) (off : Nat) : k.rd off = m.rd off := by
  unfold Module.rd
  rw [h]

/-- An answer leaves every register. -/
theorem Module.rd_debugAnswer (m : Module) (d : DbgHdr) (op status retry : Nat) (body : List Byte) (off : Nat) :
    (m.debugAnswer d op status retry body).rd off = m.rd off := Module.rd_congr (m.debugAnswer_regs ..) off

/-- An answer alone leaves every register and all else but what has left. -/
theorem OnlyRegs.debugAnswer {offs : List Nat} (h : OnlyRegs s m offs) : OnlyRegs s (m.debugAnswer d op status retry body) offs := by
  obtain ⟨hrd, hcore⟩ := h
  refine ⟨fun off ho hr => (m.rd_debugAnswer ..).trans (hrd off ho hr), Eq.trans ?_ hcore⟩
  exact (m.debugAnswer_keeps d op status retry body).view (fun x : Module => { x.core with transition := none }) fun _ => rfl

theorem OnlyRegs.refl (s : State) : OnlyRegs s s.toModule [] := ⟨fun _ _ _ => rfl, rfl⟩

/-- A report begins with its version, the life-cycle state and the level. -/
theorem Module.attestBody_take (m : Module) (nonce fwHash : List Byte) :
    (m.attestBody nonce fwHash).take 4 = leBytes 2 1 ++ leBytes 1 m.otp.lc ++ leBytes 1 m.level := by
  have hlen : (leBytes 2 1 ++ leBytes 1 m.otp.lc ++ leBytes 1 m.level).length = 4 := by simp [leBytes]
  unfold Module.attestBody
  dsimp only
  rw [List.append_assoc, List.append_assoc, List.append_assoc, List.append_assoc, List.append_assoc, List.append_assoc,
    List.append_assoc, List.append_assoc, List.append_assoc, List.append_assoc, List.append_assoc, List.append_assoc,
    List.append_assoc, List.append_assoc, List.append_assoc, List.append_assoc, List.append_assoc, List.append_assoc,
    List.append_assoc, List.append_assoc]
  exact List.take_left' hlen

/-! ### The level -/

theorem Bits.of_lt_two_pow (f : Bits) (w : Word) : f.of w < 2 ^ (f.hi - f.lo + 1) := Nat.mod_lt _ (by positivity)

theorem Module.baseline_lt (m : Module) : m.baseline < 4 := Bits.of_lt_two_pow DBG_LEVEL_baseline _

theorem Module.level_setLevel (m : Module) (source : Fin 4) {v : Nat} (hv : v < 4) : (m.setLevel source v).level = v := by
  unfold Module.setLevel
  dsimp only
  split
  · next h => exact h.symm
  · refine (Module.fld_congr ((Module.rd_raise ..).trans ?_) _).trans (m.fld_setFld DBG_LEVEL DBG_LEVEL_level v (by decide)
      (by decide) hv)
    exact Agree.unreported_rd (offs := []) (Module.journalEntry_unreported ..) List.not_mem_nil (by decide)

theorem onlyRegs_setLevel (s : State) (source : Fin 4) (v : Nat) : OnlyRegs s (s.setLevel source v) [DBG_LEVEL] := by
  refine onlyRegs_of ?_ (Module.setLevel_keeps ..) (by decide)
  unfold Module.setLevel
  exact .ite (fun _ => .refl) fun _ => .after (Module.raise_unreported ..) <| .after (Module.journalEntry_unreported ..) <|
    Module.setFld_unreported _ _ _ (List.mem_singleton_self _)

end
end Sys2Proof.Machine
section
open Sys2Proof Sys2Proof.Machine
variable {s : State} {d : DbgHdr} {op need : Nat}

/-! ### Operations that are heard -/

/-- An operation that is heard at its level runs. -/
theorem Debugged.runs (h : Debugged s d need) {need' : Nat} (hneed : need' ≤ need) (op : Nat) (standby failure : Bool)
    (f : Module → Module) : s.toModule.debugOp d op need' standby failure f = f s.toModule := by
  obtain ⟨hboot, hpower, hheard, hlevel⟩ := h
  unfold Module.debugOp
  simp [hboot, hpower, hheard, hneed.trans hlevel]

theorem Debugged.on (h : Debugged s d need) : s.boot ≠ .off := by
  simp [h.1]

/-- A debug operation that runs ends with the answer it makes. -/
theorem Debugged.answers (h : Debugged s d need) {i : Instr} {f : Module → Module} {need' : Nat} {standby failure : Bool}
    {Q : Module → Prop} (he : exec i s = ok s (s.toModule.debugOp d op need' standby failure f)) (hQ : Q (f s.toModule))
    (hneed : need' ≤ need := by decide) : Answers i s Q :=
  .of_ok h.on (he.trans (congrArg (ok s) (h.runs hneed op standby failure f))) hQ

/-- An operation above the level is answered AUTH_FAILED. -/
theorem Debugged.fails (h : Debugged s d 0) (hlevel : s.level < need) (op : Nat) (standby failure : Bool)
    (f : Module → Module) : s.toModule.debugOp d op need standby failure f = s.toModule.debugAnswer d op 13 0 [] := by
  obtain ⟨hboot, hpower, hheard, -⟩ := h
  unfold Module.debugOp
  simp [hboot, hpower, hheard, hlevel, stAuthFailed]

end
namespace Sys2Proof
open Machine

/-! ### Inquiries -/

/-- Settles O52: an inquiry that is heard at its level ends with its answer, and the answer leaves what it found. -/
theorem debugInquiriesComplete : Obligations.DebugInquiriesComplete := by
  intro d s
  have htick : OnlyRegs s s.tick [] :=
    onlyRegs_of (.kept (Module.tick_keeps ..) (fun _ => rfl) .refl) (Module.tick_keeps ..) (by decide)
  refine ⟨fun h => ⟨fun hoff => ?_, fun level => ⟨fun hlevel => ?_, fun hlevel => ?_⟩, ?_, fun k hk => ?_, fun nonce => ?_,
    fun op => ?_, fun hlocked start max => ?_⟩, fun h => ⟨fun e l max htrace hlo hhi => ?_, fun start max hlo hhi => ?_⟩,
    fun hon => ⟨fun hnonce => ?_, .of_ok hon rfl rfl, fun f hf => ?_, fun f p hp hlen hboot hpower => ?_, .of_ok hon rfl rfl⟩⟩
  · have hleft : s.tick.backoffLeft = 0 := if_neg (by
      change ¬ s.backoff = true
      simp [hoff])
    refine h.answers rfl ⟨htick.debugAnswer, ?_⟩
    dsimp only
    rw [hleft]
    exact Module.debugAnswer_answered ..
  · refine h.answers rfl ?_
    dsimp only
    rw [if_neg (Nat.not_le.2 hlevel)]
    refine ⟨leBytes 32 s.draw.1, by simp [leBytes], (Module.debugAnswer_keeps ..).view (·.nonce) fun _ => rfl, ?_,
      Module.debugAnswer_answered ..⟩
    exact (Module.bit_congr (Module.rd_debugAnswer ..) _).trans (Module.bit_setFld _ _ _ true (by decide) (by decide))
  · refine h.answers rfl ?_
    dsimp only
    rw [if_pos hlevel]
    exact ⟨(OnlyRegs.refl s).debugAnswer, Module.debugAnswer_answered ..⟩
  · have hlevel : (s.setLevel d.path s.baseline).level = s.baseline := s.toModule.level_setLevel d.path s.toModule.baseline_lt
    refine h.answers rfl ⟨?_, ?_, (onlyRegs_setLevel ..).debugAnswer⟩
    · exact (Module.fld_congr (Module.rd_debugAnswer ..) _).trans hlevel
    · dsimp only
      rw [hlevel]
      exact Module.debugAnswer_answered ..
  · have hdraw : OnlyRegs s s.draw.2 [] :=
      onlyRegs_of (.kept (Module.draw_keeps ..) (fun _ => rfl) .refl) (Module.draw_keeps ..) (by decide)
    have hkey : ∀ r, s.deviceId ++ s.otp.identity.getD r = s.deviceId ++ k := fun r => by rw [hk, Option.getD_some]
    exact h.answers rfl ⟨hdraw.debugAnswer, hkey (leBytes 96 s.draw.1) ▸ Module.debugAnswer_answered ..⟩
  · have hdraw : OnlyRegs s s.tick.draw.2 [] :=
      onlyRegs_of (.kept (Module.draw_keeps ..) (fun _ => rfl) <| .kept (Module.tick_keeps ..) (fun _ => rfl) .refl)
        (.after (Module.draw_keeps ..) rfl (Module.tick_keeps ..)) (by decide)
    refine h.answers rfl ⟨hdraw.debugAnswer, s.tick.draw.2.attestBody nonce
      (if s.tick.draw.2.fwHash.isEmpty then leBytes 48 s.tick.draw.1 else s.tick.draw.2.fwHash), Module.attestBody_take .., ?_⟩
    exact Module.debugAnswer_answered ..
  · exact h.answers rfl ⟨(OnlyRegs.refl s).debugAnswer, Module.debugAnswer_answered ..⟩
  · refine .of_ok h.on (congrArg (ok s) (h.fails (need := 1) (by omega) 12 true true _))
      ⟨(OnlyRegs.refl s).debugAnswer, Module.debugAnswer_answered ..⟩
  · have hrange : (decide (max.toNat = 0) || decide (32 < max.toNat)) = false := by simp; omega
    refine h.answers rfl ?_
    dsimp only
    rw [hrange, if_neg Bool.false_ne_true]
    refine ⟨(OnlyRegs.refl s).debugAnswer, ?_⟩
    simp only [htrace, List.head?_cons, Option.map_some, Option.getD_some, sub_self, List.length_take]
    exact Module.debugAnswer_answered ..
  · have hrange : (decide (max.toNat = 0) || decide (16 < max.toNat)) = false := by simp; omega
    refine h.answers rfl ?_
    rw [hrange, if_neg Bool.false_ne_true]
    exact ⟨(OnlyRegs.refl s).debugAnswer, Module.debugAnswer_answered ..⟩
  · refine .of_ok hon (congrArg (ok s) (if_pos hnonce)) ⟨rfl, ?_, rfl⟩
    exact Module.bit_setFld _ _ _ false (by decide) (by decide)
  · have hsame : debugFrameDiscard f s.toModule = s.toModule := by
      unfold debugFrameDiscard
      split
      · rfl
      · next p hp => rw [if_pos (hf p hp)]
    exact (congrArg (ok s) hsame).trans (ok_on _ _ hon)
  · have hrun : debugFrameDiscard f s.toModule = s.debugAnswer ⟨3, .mac 0, 0, 0, 0, 0, 0, 0⟩ (fieldAt p 0 1) 34 0 [] := by
      have hd : Debugged s ⟨3, .mac 0, 0, 0, 0, 0, 0, 0⟩ 0 := ⟨hboot, hpower, rfl, Nat.zero_le _⟩
      unfold debugFrameDiscard
      simp only [hp, hlen, Bool.false_eq_true, if_false]
      exact hd.runs (Nat.le_refl 0) _ _ _ _
    refine .of_ok hon (congrArg (ok s) hrun) ⟨(OnlyRegs.refl s).debugAnswer, ?_⟩
    rw [← List.append_nil (leBytes 4 _)]
    rfl

end Sys2Proof
end

section
set_option Elab.async false
/-!
The life of a unit: what PROVISION, LIFECYCLE and SET_PASSWORD burn (R465 to R468, R472, R480).
-/
namespace Sys2Proof.Machine
open Sys2Proof

section
variable {m : Module} {d : DbgHdr}

/-- An answer leaves what OTP holds. -/
theorem Module.otp_debugAnswer (m : Module) (d : DbgHdr) (op status retry : Nat) (body : List Byte) :
    (m.debugAnswer d op status retry body).otp = m.otp := (m.debugAnswer_keeps ..).view (·.otp) fun _ => rfl

theorem Module.otp_journalEntry (m : Module) (kind : Nat) (source : Fin 4) (session : W16) (object old new : Nat) :
    (m.journalEntry kind source session object old new).otp = m.otp := (m.journalEntry_keeps ..).view (·.otp) fun _ => rfl

theorem Module.otp_reportKeys (m : Module) : m.reportKeys.otp = m.otp := m.reportKeys_keeps.view (·.otp) fun _ => rfl

/-- The module whose OTP PROVISION has burnt, before registers show it. -/
def Module.provisioned (m : Module) (owner salt hash : List Byte) (floor : Byte) : Module :=
  { m.draw.2 with otp := { m.otp with
    ownerHash := owner
    ownerWritten := true
    passwords := (m.otp.passwords ++ [(salt, hash)]).take 4
    floor := floor.toNat
    identity := some (fit 96 (Config.identityKey m.draws))
    lcNext := 1 } }

theorem Module.otp_setFld (m : Module) (off : Nat) (b : Bits) (v : Nat) : (m.setFld off b v).otp = m.otp := rfl

theorem Module.otp_provisioned (m : Module) (owner salt hash : List Byte) (floor : Byte) (hpw : m.otp.passwords = []) :
    (m.provisioned owner salt hash floor).otp = { m.otp with
      ownerHash := owner
      ownerWritten := true
      passwords := [(salt, hash)]
      floor := floor.toNat
      identity := some (fit 96 (Config.identityKey m.draws))
      lcNext := 1 } := by
  simp [Module.provisioned, hpw]

/-- The arrows of the life cycle along which LIFECYCLE moves, with no stream admitted. -/
def Module.movesTo (m : Module) (target : Byte) : Prop :=
  ((m.otp.lc = 1 ∧ (target = 2 ∨ target = 3)) ∨ (m.otp.lc = 2 ∧ target = 3)) ∧ m.otp.lcNext < target.toNat ∧ m.streams = []

theorem Module.movesTo_iff (m : Module) (target : Byte) : m.movesTo target ↔
    ¬ (!((m.otp.lc = 1 && (target.toNat = 2 || target.toNat = 3)) || (m.otp.lc = 2 && target.toNat = 3)) ||
      target.toNat ≤ m.otp.lcNext || !m.streams.isEmpty) = true := by
  have htwo : target = 2 ↔ target.toNat = 2 := by rw [← BitVec.toNat_inj]; rfl
  have hthree : target = 3 ↔ target.toNat = 3 := by rw [← BitVec.toNat_inj]; rfl
  unfold Module.movesTo
  simp only [htwo, hthree, Bool.or_eq_true, Bool.not_eq_true', not_or, Bool.not_eq_false, Bool.and_eq_true, decide_eq_true_eq,
    List.isEmpty_iff, not_le, and_assoc]

theorem Module.movesTo_lt {target : Byte} (h : m.movesTo target) : target.toNat < 4 := by
  obtain ⟨⟨-, rfl | rfl⟩ | ⟨-, rfl⟩, -, -⟩ := h <;> decide

end
end Sys2Proof.Machine
namespace Sys2Proof
open Machine

/-- Settles O55: each burn that is allowed changes OTP as it says and answers; another is answered alone. -/
theorem unitLifeCompletes : Obligations.UnitLifeCompletes := by
  intro d s
  refine ⟨fun h owner salt hash floor => ⟨fun hlc hnext hfloor hpw => ?_, fun hlc => ?_⟩, fun h target => ⟨fun hmove => ?_, fun hmove => ?_⟩,
    fun h salt hash => ?_⟩
  · have hburns : ¬ (s.otp.lc ≠ 0 || s.otp.lcNext ≠ 0 || 3 ≤ floor.toNat) = true := by simp [hlc, hnext, hfloor]
    refine h.answers rfl ?_
    rw [if_neg hburns]
    change ∃ k, (((s.provisioned owner salt hash floor).reportKeys.setFld SEC_LC SEC_LC_next 1).debugAnswer d 16 stOk 0
      (fit 96 (Config.identityKey s.draws))).otp = _ ∧ _
    refine ⟨fit 96 (Config.identityKey s.draws), ?_, ?_, Module.debugAnswer_answered ..⟩
    · rw [Module.otp_debugAnswer, Module.otp_setFld, Module.otp_reportKeys, Module.otp_provisioned _ _ _ _ _ hpw]
    · exact (Module.fld_congr (Module.rd_debugAnswer ..) _).trans
        (Module.fld_setFld (s.provisioned owner salt hash floor).reportKeys _ _ _ (by decide) (by decide) (by decide))
  · refine h.answers rfl ?_
    rw [if_pos (by simp [hlc])]
    exact ⟨(OnlyRegs.refl s).debugAnswer, Module.debugAnswer_answered ..⟩
  · refine h.answers rfl ?_
    dsimp only
    rw [if_neg ((s.movesTo_iff target).1 hmove)]
    refine ⟨?_, ?_, Module.debugAnswer_answered ..⟩
    · rw [Module.otp_debugAnswer, Module.otp_journalEntry]
      rfl
    · refine (Module.fld_congr ((Module.rd_debugAnswer ..).trans ?_) _).trans
        (Module.fld_setFld { s.toModule with otp := { s.otp with lcNext := target.toNat } } SEC_LC SEC_LC_next target.toNat
          (by decide) (by decide) (Module.movesTo_lt (m := s.toModule) hmove))
      exact Agree.unreported_rd (offs := []) (Module.journalEntry_unreported ..) List.not_mem_nil (by decide)
  · refine h.answers rfl ?_
    dsimp only
    rw [if_pos (not_not.1 fun hn => hmove ((s.movesTo_iff target).2 hn))]
    exact ⟨(OnlyRegs.refl s).debugAnswer, Module.debugAnswer_answered ..⟩
  · refine h.answers rfl ?_
    dsimp only
    by_cases hfull : s.otp.passwords.length < 4
    · rw [if_neg (Nat.not_le.2 hfull), if_pos hfull]
      refine ⟨?_, Module.debugAnswer_answered ..⟩
      rw [Module.otp_debugAnswer, Module.otp_journalEntry, Module.otp_reportKeys]
    · rw [if_pos (Nat.not_lt.1 hfull), if_neg hfull]
      exact ⟨Module.otp_debugAnswer .., Module.debugAnswer_answered ..⟩

end Sys2Proof
end

section
set_option Elab.async false
/-!
The fault log and the system reset (R496, R509, R510, R512).
-/
namespace Sys2Proof.Machine
open Sys2Proof

section
variable {s : State} {m k : Module} {src : BusSource} {off : Nat} {v : Word}

/-! ### The fault log -/

/-- The row of SYS_FLOG_IDX. -/
def flogRow : RegRow :=
  ⟨SYS_FLOG_IDX, 0x4, 1, 0x4, 1, [⟨SYS_FLOG_IDX_clear, .wo, 0, 0, 1, .plain⟩, ⟨SYS_FLOG_IDX_count, .ro, 0, 0, 511, .plain⟩,
    ⟨SYS_FLOG_IDX_index, .rw, 0, 0, 255, .plain⟩]⟩

theorem regAt_SYS_FLOG_IDX : regAt SYS_FLOG_IDX flogRow 0 0 = true := by decide +kernel

theorem flogRow_takes (v : Word) : flogRow.fields.all (·.takes v) = true := by
  simp only [flogRow, List.all_cons, List.all_nil, Bool.and_true, Bool.and_eq_true]
  exact ⟨FieldRow.takes_of_full rfl rfl _, rfl, FieldRow.takes_of_full rfl rfl _⟩

theorem flogRow_merge (old v : Word) : flogRow.merge old v = SYS_FLOG_IDX_index.put old (SYS_FLOG_IDX_index.of v) := rfl

/-- The registers that a write of SYS_FLOG_IDX writes. -/
def flogRegs : List Nat := SYS_FLOG_IDX :: (List.range 8).map SYS_FLOG_DATA

/-- The entry at an index is copied to SYS_FLOG_DATA. -/
def Module.flogShow (m : Module) (new : Word) : Module :=
  (List.range 8).foldl (fun m k => m.wr (SYS_FLOG_DATA k) (m.flogWord (SYS_FLOG_IDX_index.of new) k)) (m.wr SYS_FLOG_IDX new)

theorem Module.flogShow_keeps (m : Module) (new : Word) : Keeps Fld.regs m (m.flogShow new) :=
  .foldl (fun _ _ => .after (Module.wr_keeps ..) rfl .refl) _ (Module.wr_keeps ..)

theorem Module.flogShow_regsBut (m : Module) (new : Word) : Agree (Module.regsBut flogRegs) m (m.flogShow new) := by
  refine List.foldlRecOn (motive := Agree (Module.regsBut flogRegs) m) _ _ (m.wr_regsBut _ (by decide)) fun k hk i hi =>
    .after (Module.wr_regsBut _ _ ?_) hk
  exact List.mem_cons_of_mem _ (List.mem_map_of_mem hi)

theorem Module.flogShow_index (m : Module) (new : Word) : (m.flogShow new).rd SYS_FLOG_IDX = new := by
  unfold Module.flogShow
  refine List.foldlRecOn (motive := fun k : Module => k.rd SYS_FLOG_IDX = new) _ _ (m.rd_wr_same ..) fun k hk i _ => ?_
  rw [Module.rd_wr_ne _ _ (by unfold SYS_FLOG_IDX SYS_FLOG_DATA; omega), hk]

theorem Module.flogShow_data (m : Module) (new : Word) {k : Nat} (hk : k < 8) :
    (m.flogShow new).rd (SYS_FLOG_DATA k) = m.flogWord (SYS_FLOG_IDX_index.of new) k := by
  have hcopies (n : Nat) (hn : k < n) : ((List.range n).foldl (fun (m : Module) k =>
      m.wr (SYS_FLOG_DATA k) (m.flogWord (SYS_FLOG_IDX_index.of new) k)) (m.wr SYS_FLOG_IDX new)).rd (SYS_FLOG_DATA k) =
        m.flogWord (SYS_FLOG_IDX_index.of new) k := by
    induction n with
    | zero => omega
    | succ n ih =>
      rw [List.range_succ, List.foldl_append, List.foldl_cons, List.foldl_nil]
      by_cases hlast : k = n
      · rw [hlast, Module.rd_wr_same]
        have hkeep : Keeps Fld.regs m ((List.range n).foldl (fun (m : Module) k =>
            m.wr (SYS_FLOG_DATA k) (m.flogWord (SYS_FLOG_IDX_index.of new) k)) (m.wr SYS_FLOG_IDX new)) :=
          .foldl (fun _ _ => .after (Module.wr_keeps ..) rfl .refl) _ (Module.wr_keeps ..)
        exact hkeep.view (fun x : Module => x.flogWord (SYS_FLOG_IDX_index.of new) n) fun _ => rfl
      · rw [Module.rd_wr_ne _ _ (by unfold SYS_FLOG_DATA; omega), ih (by omega)]
  exact hcopies 8 hk

theorem Module.flogWrite_select (m : Module) (full : Bool) {v : Word} (hv : SYS_FLOG_IDX_clear.of v = 0) (new : Word) :
    m.flogWrite full SYS_FLOG_IDX v new = (stOk, m.flogShow new) := by
  unfold Module.flogWrite
  rw [hv]
  rfl

/-- The module with an empty fault log. -/
def Module.flogEmpty (m : Module) : Module :=
  { m with
    flash := { m.flash with faultLog := [] }
    flogPending := [] }

theorem clear_of_flogClear : SYS_FLOG_IDX_clear.of (SYS_FLOG_IDX_clear.put 0 1) = 1 := by decide

theorem Module.flogWrite_clear (m : Module) (new : Word) :
    m.flogWrite true SYS_FLOG_IDX (SYS_FLOG_IDX_clear.put 0 1) new = (stOk, m.flogEmpty.flogShow new) := by
  unfold Module.flogWrite
  rw [clear_of_flogClear]
  rfl

theorem Module.flogWrite_denied (m : Module) (new : Word) :
    m.flogWrite false SYS_FLOG_IDX (SYS_FLOG_IDX_clear.put 0 1) new = (stAuthFailed, m) := by
  unfold Module.flogWrite
  rw [clear_of_flogClear]
  rfl

theorem Module.writeReg_flog (m : Module) (src : BusSource) (v new : Word) :
    m.writeReg src flogRow 0 0 SYS_FLOG_IDX v new =
      m.flogWrite ((match src with | .debug _ => true | _ => false) && 2 ≤ m.level) SYS_FLOG_IDX v new :=
  (m.writeReg_sys src flogRow 0 0 v new (.inl (by decide))).trans rfl

/-- A debug write that is admitted comes at FULL. -/
theorem Admits.full {path : Fin 4} (h : Admits s (.debug path) true off) : 2 ≤ s.level := by
  obtain ⟨-, hfail, hgate, -⟩ := h
  by_contra hlevel
  unfold Module.busGate at hgate
  simp only [hfail, decide_false, Bool.false_and, Bool.false_eq_true, if_false, if_true] at hgate
  split at hgate
  · cases hgate
  · split at hgate
    · cases hgate
    · rw [if_pos (by omega)] at hgate
      cases hgate

theorem Flash.faultLog_addFaults (f : Flash) (l : List Event) : (f.addFaults l).faultLog = (l.reverse ++ f.faultLog).take 256 := rfl

theorem faultLogFlush_good (h : m.flogPending ≠ []) :
    faultLogFlush true m = { m with
      flash := m.flash.addFaults m.flogPending
      flogPending := [] } := if_neg (by simpa using h)

theorem faultLogFlush_bad (h : m.flogPending ≠ []) : faultLogFlush false m = m.silentFault 16 := if_neg (by simpa using h)

theorem Module.silentFault_pending (m : Module) (cls : Nat) : m.flogPending <+: (m.silentFault cls).flogPending :=
  List.prefix_append ..

/-- A fault without an event is counted in its class. -/
theorem Module.silentFault_counted (m : Module) (cls : Nat) : ((m.silentFault cls).rd (SYS_FLT_CNT (cls - 1))).toNat =
    min ((m.rd (SYS_FLT_CNT (cls - 1))).toNat + 1) 0xFFFFFFFF := m.rd_count_same_toNat ..

/-! ### The system reset -/

/-- The row of SYS_RESET. -/
def resetRow : RegRow :=
  ⟨SYS_RESET, 0x4, 1, 0x4, 1, [⟨SYS_RESET_key, .wo, 0, 0, 65535, .plain⟩, ⟨SYS_RESET_go, .wo, 0, 0, 1, .plain⟩]⟩

theorem regAt_SYS_RESET : regAt SYS_RESET resetRow 0 0 = true := by decide +kernel

theorem resetRow_takes (v : Word) : resetRow.fields.all (·.takes v) = true := by
  simp only [resetRow, List.all_cons, List.all_nil, Bool.and_true, Bool.and_eq_true]
  exact ⟨FieldRow.takes_of_full rfl rfl _, FieldRow.takes_of_full rfl rfl _⟩

/-- Whether an access comes by debug. -/
def byDebug (src : BusSource) : Bool :=
  match src with
  | .debug _ => true
  | _ => false

theorem Module.writeReg_reset (m : Module) (src : BusSource) (v new : Word) :
    m.writeReg src resetRow 0 0 SYS_RESET v new = m.sysReset (byDebug src) v :=
  (m.writeReg_sys src resetRow 0 0 v new (.inl (by decide))).trans rfl

/-- What the beginning of a move to OFF leaves, and what it says. -/
theorem Module.startMove_facts (m : Module) (target : Nat) (cause : PowerCause) (h : target < 16 := by decide) :
    (m.startMove target cause).power = m.power ∧
      (m.startMove target cause).transition = some ⟨target, cause, false, false, false, false⟩ ∧
      (m.startMove target cause).streams = m.streams ∧ (m.startMove target cause).boot = m.boot ∧
      (m.startMove target cause).mem = m.mem ∧ (m.startMove target cause).fld PWR_STATE PWR_STATE_target = target :=
  ⟨m.power_startMove .., rfl, rfl, rfl, rfl, Module.fld_setFld _ _ _ _ (by decide) (by decide) h⟩

/-- The move that a system reset announces after its answer. -/
theorem Module.settleMove_reset (hm : m.transition = some ⟨0, .reset d, false, false, false, false⟩) (hstreams : m.streams = [])
    (hboot : m.boot ≠ .failure) : m.settleMove none =
      { m with transition := some ⟨0, .reset d, true, false, false, false⟩ }.raise 0x0A01 (16 * m.power) 0 0 0 := by
  unfold Module.settleMove
  rw [hm]
  simp only [reduceCtorEq, if_false, hboot]
  unfold Module.announce
  simp only [hm, hstreams, List.isEmpty_nil, Nat.not_le.2 (by decide : 0 < 2), decide_false, Bool.not_true, Bool.or_false,
    Bool.false_eq_true, if_false, reduceCtorEq, Nat.zero_add]

/-- The answer to a system reset and what follows it. -/
theorem Module.reset_announced (m : Module) (d : Bool) {x : Module}
    (hkeep : Keeps (Fld.regs ||| Fld.now ||| Fld.draws ||| Fld.journal ||| Fld.bus) (m.startMove 0 (.reset d)) x)
    (hrd : ∀ o, o ∉ [JNL_NEXT, JNL_OLDEST] → x.rd o = (m.startMove 0 (.reset d)).rd o) (hstatus : x.busStatus = 0)
    (hstreams : m.streams = []) (hboot : m.boot ≠ .failure) :
    (x.settleMove none).busStatus = 0 ∧ (x.settleMove none).transition.map (·.target) = some 0 ∧
      (x.settleMove none).fld PWR_STATE PWR_STATE_target = 0 ∧ (x.settleMove none).power = m.power ∧
      (x.settleMove none).mem = m.mem ∧ Raised (x.settleMove none) 0x0A01 255 (16 * m.power) 0 0 0 := by
  obtain ⟨hkpower, hktr, hkstreams, hkboot, hkmem, hktarget⟩ := m.startMove_facts 0 (.reset d)
  generalize m.startMove 0 (.reset d) = k at hkeep hrd hkpower hktr hkstreams hkboot hkmem hktarget
  have hpower : x.power = m.power := (Module.fld_congr (hrd _ (by decide)) _).trans hkpower
  rw [Module.settleMove_reset ((hkeep.view (·.transition) fun _ => rfl).trans hktr)
    ((hkeep.view (·.streams) fun _ => rfl).trans (hkstreams.trans hstreams))
    (by rw [hkeep.view (·.boot) fun _ => rfl, hkboot]; exact hboot), hpower]
  have hraise := Module.raise_keeps { x with transition := some ⟨0, .reset d, true, false, false, false⟩ } 0x0A01
    (16 * m.power) 0 0 0
  have hreg (h : PWR_STATE ∉ reportRegs) := Module.rd_raise { x with transition := some ⟨0, .reset d, true, false, false, false⟩ }
    0x0A01 (16 * m.power) 0 0 0 h
  have hraised := Module.raise_raised { x with transition := some ⟨0, .reset d, true, false, false, false⟩ } 0x0A01
    (16 * m.power) 0 0 0
  generalize Module.raise _ _ _ _ _ _ = y at hraise hreg hraised
  have hstate : y.rd PWR_STATE = x.rd PWR_STATE := hreg (by decide)
  refine ⟨(hraise.view (·.busStatus) fun _ => rfl).trans hstatus, ?_, ?_, ?_, ?_, hraised⟩
  · rw [hraise.view (·.transition) fun _ => rfl]
    rfl
  · exact (Module.fld_congr (hstate.trans (hrd _ (by decide))) _).trans hktarget
  · exact (Module.fld_congr hstate _).trans hpower
  · exact (hraise.view (·.mem) fun _ => rfl).trans ((hkeep.view (·.mem) fun _ => rfl).trans hkmem)

end
end Sys2Proof.Machine
namespace Sys2Proof
open Machine

/-- Settles O58: a flush by whether its store is good, SYS_FLOG_IDX by its clear bit and its path, SYS_RESET by its key. -/
theorem faultLogAndResetComplete : Obligations.FaultLogAndResetComplete := by
  intro s hon
  refine ⟨fun hpend => ⟨.of_ok hon (congrArg (ok s) (faultLogFlush_good hpend)) ⟨rfl, rfl, rfl⟩,
      .of_ok hon (congrArg (ok s) (faultLogFlush_bad hpend)) ⟨?_, Module.silentFault_pending .., Module.silentFault_counted ..⟩⟩,
    fun src v ha hv => ?_, fun path ha => ?_, fun n p ha => ?_, fun src v ha htrans hmode hfill => ?_⟩
  · exact (Module.silentFault_keeps ..).view (·.flash) fun _ => rfl
  · have hnew := flogRow_merge (s.rd SYS_FLOG_IDX) v
    have hindex : SYS_FLOG_IDX_index.of (flogRow.merge (s.rd SYS_FLOG_IDX) v) = SYS_FLOG_IDX_index.of v := by
      rw [hnew, Bits.of_put _ _ _ (by decide) (by decide) (Bits.of_lt_two_pow ..)]
    have hrun : exec (.flogIndexSelect src v) s = ok s (s.accessWrite src SYS_FLOG_IDX 4 v) := congrArg (ok s) (if_pos hv)
    refine ha.writes (offs := flogRegs) (G := Fld.regs) hrun regAt_SYS_FLOG_IDX (flogRow_takes v) (Module.setupHeld_of_plain rfl _ _)
      (by decide) ((Module.writeReg_flog ..).trans (Module.flogWrite_select _ _ hv _))
      ((Module.flogShow_regsBut ..).regsBut_mono (List.subset_append_left ..)) (Module.flogShow_keeps ..) (by decide)
      ((Module.flogShow_keeps ..).view (·.transition) fun _ => rfl) ?_
    rintro m rfl honly
    refine ⟨rfl, ?_, ?_, fun k hk => ?_, honly⟩
    · rw [Module.fld_congr (Module.writeAnswer_rd (by decide)), Module.fld, Module.flogShow_index, hindex]
    · exact (Module.writeAnswer_keeps.view (·.flash) fun _ => rfl).trans ((Module.flogShow_keeps ..).view (·.flash) fun _ => rfl)
    · rw [Module.writeAnswer_rd (by unfold SYS_FLOG_DATA JNL_NEXT JNL_OLDEST; simp; omega), Module.flogShow_data _ _ hk, hindex]
      rfl
  · have hfull : (true && decide (2 ≤ s.level)) = true := by simp [ha.full]
    refine ha.runs rfl regAt_SYS_FLOG_IDX (flogRow_takes _) (Module.setupHeld_of_plain rfl _ _) (by decide)
      (((Module.writeReg_flog ..).trans (by dsimp only; rw [hfull])).trans (Module.flogWrite_clear ..)) ?_ ?_
    · exact (Module.flogShow_keeps ..).view (·.transition) fun _ => rfl
    · refine ⟨rfl, ?_, ?_, fun k hk => ?_⟩
      · exact (Module.writeAnswer_keeps.view (·.flash) fun _ => rfl).trans ((Module.flogShow_keeps ..).view (·.flash) fun _ => rfl)
      · exact (Module.writeAnswer_keeps.view (·.flogPending) fun _ => rfl).trans
          ((Module.flogShow_keeps ..).view (·.flogPending) fun _ => rfl)
      · rw [Module.writeAnswer_rd (by unfold SYS_FLOG_DATA JNL_NEXT JNL_OLDEST; simp; omega), Module.flogShow_data _ _ hk]
        rfl
  · exact ha.turned rfl regAt_SYS_FLOG_IDX (flogRow_takes _) (Module.setupHeld_of_plain rfl _ _) (by decide)
      ((Module.writeReg_flog ..).trans (Module.flogWrite_denied ..)) (by decide) ⟨rfl, onlyRegs_busAnswer ..⟩
  · have hwr := s.writeReg_reset src v (resetRow.merge (s.rd SYS_RESET) v)
    have hgoing : s.goingOff = false := Module.goingOff_of_none htrans
    unfold Module.sysReset at hwr
    split
    · next hkey =>
      rw [if_pos (by simpa [Bool.or_eq_true] using hkey)] at hwr
      exact ha.turned rfl regAt_SYS_RESET (resetRow_takes v) (Module.setupHeld_of_plain rfl _ _) (by decide) hwr (by decide)
        ⟨rfl, onlyRegs_busAnswer ..⟩
    · next hkey =>
      obtain ⟨hkey, hstreams⟩ : SYS_RESET_key.of v = 0xB007 ∧ s.streams = [] := by simpa [not_or] using hkey
      rw [hkey, hstreams, hgoing] at hwr
      split
      · next hgo =>
        rw [hgo] at hwr
        refine ha.writes (offs := []) (G := 0) rfl regAt_SYS_RESET (resetRow_takes v) (Module.setupHeld_of_plain rfl _ _) (by decide)
          hwr .refl .refl (by decide) rfl ?_
        rintro m rfl honly
        exact ⟨rfl, honly⟩
      · next hgo =>
        rw [if_neg (by simp), if_neg (by simpa using hgo), Module.beginLeave_of_still (m := s.toModule) hmode hfill] at hwr
        obtain ⟨hboot, hfail, hgate, hon'⟩ := ha
        have hrun := Module.accessWrite_done hgate regAt_SYS_RESET hon' (resetRow_takes v) (Module.setupHeld_of_plain rfl _ _)
          (by decide) hwr
        rw [htrans] at hrun
        obtain ⟨hstatus, htr, htarget, hpower, hmem, hraised⟩ :=
          s.toModule.reset_announced (byDebug src) (Module.writeAnswer_keeps (m := s.toModule) (src := src) (r := resetRow) (i := 0)
            (off := SYS_RESET) (v := v)) (fun o ho => Module.writeAnswer_rd ho) Module.writeAnswer_busStatus hstreams hfail
        exact .of_ok hboot (congrArg (ok s) hrun) ⟨hstatus, htr, htarget, hpower, hmem, hraised⟩

end Sys2Proof
end

section
set_option Elab.async false
/-!
What is stored can be read: the bytes of memory under writes, gather entries and zero fills (R290 to R294).
-/
namespace Sys2Proof.Machine
open Sys2Proof

/-- Nothing in memory is bad, and no error waits to be met. -/
structure Module.Clean (m : Module) : Prop where
  poison : m.poison = []
  ueSectors : m.ueSectors = []
  latent : m.latent = []

/-- Every open gather entry holds one line. -/
def Module.GatherWf (m : Module) : Prop := ∀ g e, m.gather.find? g = some e → e.bytes.length = 64

section
variable {m k : Module} {a x n : Nat} {l : List Byte}

/-! ### Without errors -/

theorem Module.Clean.meet (h : m.Clean) (source : Nat) (spans : List (Nat × Nat)) : m.meet source spans = m := by
  unfold Module.meet Module.meetWhere
  rw [h.latent, List.filter_nil, List.filter_nil, List.foldl_nil, ← h.latent]

theorem Module.Clean.meetWhere (h : m.Clean) (source : Nat) (p : MemErr → Bool) : m.meetWhere source p = m := by
  unfold Module.meetWhere
  rw [h.latent, List.filter_nil, List.filter_nil, List.foldl_nil, ← h.latent]

theorem Module.Clean.badIn (h : m.Clean) (a n : Nat) : m.badIn a n = [] := by
  simp [Module.badIn, h.poison, h.ueSectors]

theorem Module.Clean.badPartly (h : m.Clean) (a n : Nat) : m.badPartly a n = [] := by
  simp [Module.badPartly, h.badIn]

theorem Module.Clean.reportPartly (h : m.Clean) (a n : Nat) : m.reportPartly a n = m := by
  simp [Module.reportPartly, h.badPartly]

theorem Module.Clean.clearBad (h : m.Clean) (a n : Nat) : m.clearBad a n = m := by
  unfold Module.clearBad
  simp only [h.poison, h.ueSectors, h.latent, List.filter_nil, List.foldl_nil]
  have hsame : ∀ p u l, p = m.poison → u = m.ueSectors → l = m.latent →
      { m with poison := p, ueSectors := u, latent := l } = m := by
    rintro _ _ _ rfl rfl rfl
    rfl
  exact hsame _ _ _ h.poison.symm h.ueSectors.symm h.latent.symm

theorem Module.Clean.of_keeps {G : Nat} (h : m.Clean) (hk : Keeps G m k)
    (hG : ∀ x : Module, (x.erase G).poison = x.poison ∧ (x.erase G).ueSectors = x.ueSectors ∧ (x.erase G).latent = x.latent := by
      intro x; exact ⟨rfl, rfl, rfl⟩) : k.Clean where
  poison := (hk.view (·.poison) fun x => (hG x).1).trans h.poison
  ueSectors := (hk.view (·.ueSectors) fun x => (hG x).2.1).trans h.ueSectors
  latent := (hk.view (·.latent) fun x => (hG x).2.2).trans h.latent

/-! ### Bytes and banks -/

/-- The byte that the bank or DRAM holds for an address. -/
def Module.bank (m : Module) (a : Nat) : Byte := SMap.get 0 m.mem a

theorem Module.byte_eq (m : Module) (a : Nat) : m.byte a = (m.gathered a).getD (m.bank a) := by
  unfold Module.byte
  split
  · next b hb => rw [hb, Option.getD_some]
  · next hb => rw [hb, Option.getD_none]; rfl

theorem Module.byte_of_ungathered (h : m.gathered a = none) : m.byte a = m.bank a := by
  rw [Module.byte_eq, h, Option.getD_none]

theorem Module.gathered_of_find (e : GatherEntry) (h : m.gather.find? (a / 64) = some e) :
    m.gathered a = (e.bytes[a % 64]?).join := by
  unfold Module.gathered
  rw [h]
  dsimp only
  split
  · next b hb => rw [hb, Option.join_some]
  · next hb =>
    cases hx : e.bytes[a % 64]? with
    | none => rfl
    | some o =>
      cases o with
      | none => rfl
      | some b => exact absurd hx (hb b)

theorem Module.gathered_of_none (h : m.gather.find? (a / 64) = none) : m.gathered a = none := by
  unfold Module.gathered
  rw [h]

theorem Module.gathered_congr (h : k.gather.find? (a / 64) = m.gather.find? (a / 64)) : k.gathered a = m.gathered a := by
  unfold Module.gathered
  rw [h]

theorem Module.bank_congr (h : k.mem = m.mem) (a : Nat) : k.bank a = m.bank a := by
  unfold Module.bank
  rw [h]

theorem Module.byte_congr_at (hg : k.gather.find? (a / 64) = m.gather.find? (a / 64)) (hb : k.bank a = m.bank a) :
    k.byte a = m.byte a := by
  rw [Module.byte_eq, Module.byte_eq, Module.gathered_congr hg, hb]

theorem Module.bank_putByte_same (m : Module) (a : Nat) (b : Byte) : (m.putByte a b).bank a = b := SMap.get_set_same ..

theorem Module.bank_putByte_ne (m : Module) (b : Byte) (h : x ≠ a) : (m.putByte a b).bank x = m.bank x :=
  SMap.get_set_ne _ _ _ _ h

/-- A bad spot that is left standing covers the address. -/
def barred (bad : List Nat) (a : Nat) : Bool := bad.any fun x => x ≤ a && a < x + badUnit x

/-- Storing present bytes changes a bank where a byte is present and not barred. -/
theorem Module.bank_putSome (m : Module) (a : Nat) (l : List (Option Byte)) (bad : List Nat) (x : Nat) :
    (m.putSome a l bad).bank x =
      if a ≤ x ∧ barred bad x = false then ((l[x - a]?).join).getD (m.bank x) else m.bank x := by
  induction l generalizing m a with
  | nil => simp [Module.putSome]
  | cons o t ih =>
    have hlater (k : Module) (hne : x ≠ a → k.bank x = m.bank x) (hat : x = a →
        k.bank x = if barred bad x = false then o.getD (m.bank x) else m.bank x) : (k.putSome (a + 1) t bad).bank x =
          if a ≤ x ∧ barred bad x = false then (((o :: t)[x - a]?).join).getD (m.bank x) else m.bank x := by
      rw [ih]
      by_cases hx : x = a
      · subst hx
        rw [if_neg (by omega), hat rfl]
        simp
      · rw [hne hx]
        by_cases hlt : a + 1 ≤ x
        · obtain ⟨i, rfl⟩ : ∃ i, x = a + 1 + i := ⟨x - (a + 1), by omega⟩
          have h₁ : a + 1 + i - (a + 1) = i := by omega
          have h₂ : a + 1 + i - a = i + 1 := by omega
          simp only [h₁, h₂, List.getElem?_cons_succ, hlt, true_and, show a ≤ a + 1 + i by omega]
        · rw [if_neg (by omega), if_neg (by omega)]
    unfold Module.putSome
    cases o with
    | none => exact hlater m (fun _ => rfl) fun _ => by simp
    | some b =>
      dsimp only
      change (if barred bad a = true then m.putSome (a + 1) t bad else (m.putByte a b).putSome (a + 1) t bad).bank x = _
      by_cases hb : barred bad a = true
      · rw [if_pos hb]
        exact hlater m (fun _ => rfl) fun hx => by rw [if_neg (by rw [hx, hb]; decide)]
      · rw [if_neg hb]
        refine hlater _ (fun hx => m.bank_putByte_ne b hx) fun hx => ?_
        subst hx
        rw [Module.bank_putByte_same, if_pos (by simpa using hb), Option.getD_some]

theorem barred_nil (a : Nat) : barred [] a = false := rfl

/-- A direct store over [a, a + n) into clean banks. -/
theorem Module.bank_putSome_all (m : Module) (a : Nat) (l : List Byte) (x : Nat) :
    (m.putSome a (l.map some) []).bank x = if a ≤ x ∧ x < a + l.length then l[x - a]?.getD 0 else m.bank x := by
  rw [Module.bank_putSome]
  simp only [barred_nil, and_true, List.getElem?_map]
  by_cases hlo : a ≤ x
  · by_cases hhi : x < a + l.length
    · rw [if_pos hlo, if_pos ⟨hlo, hhi⟩, List.getElem?_eq_getElem (by omega)]
      rfl
    · rw [if_pos hlo, if_neg (by omega), List.getElem?_eq_none (by omega)]
      rfl
  · rw [if_neg hlo, if_neg (by omega)]

/-! ### Writing a gather entry out -/

theorem mem_of_keeps {G : Nat} (h : Keeps G m k) (hG : ∀ x : Module, (x.erase G).mem = x.mem := by intro x; rfl) (a : Nat) :
    k.bank a = m.bank a := Module.bank_congr (h.view (·.mem) hG) a

theorem gather_of_keeps {G : Nat} (h : Keeps G m k) (hG : ∀ x : Module, (x.erase G).gather = x.gather := by intro x; rfl) :
    k.gather = m.gather := h.view (·.gather) hG

theorem Module.flushLine_of_none (h : m.gather.find? n = none) : m.flushLine n = m := by
  unfold Module.flushLine
  rw [h]

/-- The module once an entry has left the buffer and what its words met is told, before its bytes are stored. -/
def Module.takenOut (m : Module) (line : Nat) (e : GatherEntry) : Module :=
  (List.range 8).foldl (fun m w => if wordFull e.bytes w then m.clearBad (line * 64 + 8 * w) 8
    else if wordPart e.bytes w then m.meet 2 [(line * 64 + 8 * w, 8)] else m) { m with gather := m.gather.erase line }

theorem Module.flushLine_of_some {e : GatherEntry} (h : m.gather.find? n = some e) : m.flushLine n =
    ((m.takenOut n e).putSome (n * 64) e.bytes ((m.takenOut n e).badIn (n * 64) 64)).reportGather (m.stackOf (n * 64)) := by
  unfold Module.flushLine
  rw [h]
  rfl

theorem Module.takenOut_keeps (m : Module) (line : Nat) (e : GatherEntry) :
    Keeps (Fld.meet ||| Fld.badWords) { m with gather := m.gather.erase line } (m.takenOut line e) := by
  refine .foldl (fun m w => ?_) _ .refl
  exact .ite (fun _ => .after (Module.clearBad_keeps ..) rfl .refl) fun _ =>
    .ite (fun _ => .after (Module.meet_keeps ..) rfl .refl) fun _ => .refl

theorem Module.Clean.takenOut (h : m.Clean) (line : Nat) (e : GatherEntry) :
    m.takenOut line e = { m with gather := m.gather.erase line } := by
  have hclean : Module.Clean { m with gather := m.gather.erase line } := ⟨h.poison, h.ueSectors, h.latent⟩
  unfold Module.takenOut
  refine List.foldlRecOn (motive := fun k : Module => k = { m with gather := m.gather.erase line }) _ _ rfl fun k hk w _ => ?_
  subst hk
  rw [hclean.clearBad, hclean.meet]
  simp

theorem Module.flushLine_gather (m : Module) (line : Nat) (g : Nat) :
    (m.flushLine line).gather.find? g = if g = line then none else m.gather.find? g := by
  cases he : m.gather.find? line with
  | none =>
    rw [Module.flushLine_of_none he]
    split
    · next h => rw [h, he]
    · rfl
  | some e =>
    rw [Module.flushLine_of_some he]
    rw [gather_of_keeps (Module.reportGather_keeps ..), gather_of_keeps (Module.putSome_keeps ..),
      gather_of_keeps (m.takenOut_keeps line e)]
    split
    · next h => rw [h, SMap.find?_erase_same]
    · next h => exact SMap.find?_erase_ne _ h

/-- The bank under an entry that is written out, but for what lies in bad spots. -/
theorem Module.flushLine_bank {e : GatherEntry} (he : m.gather.find? n = some e) (x : Nat) : (m.flushLine n).bank x =
    if n * 64 ≤ x ∧ barred ((m.takenOut n e).badIn (n * 64) 64) x = false then ((e.bytes[x - n * 64]?).join).getD (m.bank x)
      else m.bank x := by
  rw [Module.flushLine_of_some he, mem_of_keeps (Module.reportGather_keeps ..), Module.bank_putSome,
    mem_of_keeps (m.takenOut_keeps n e)]
  rfl

/-- Writing out an entry of one line leaves the bytes of other lines. -/
theorem Module.flushLine_byte_other (hwf : ∀ e, m.gather.find? n = some e → e.bytes.length = 64) (hx : x / 64 ≠ n) :
    (m.flushLine n).byte x = m.byte x := by
  refine Module.byte_congr_at ?_ ?_
  · rw [Module.flushLine_gather, if_neg hx]
  · cases he : m.gather.find? n with
    | none => rw [Module.flushLine_of_none he]
    | some e =>
      rw [Module.flushLine_bank he]
      split
      · next h =>
        rw [List.getElem?_eq_none (by have := hwf e he; omega)]
        rfl
      · rfl

/-- Where nothing is bad, writing an entry of one line out changes no byte. -/
theorem Module.Clean.flushLine_byte (h : m.Clean) (hwf : ∀ e, m.gather.find? n = some e → e.bytes.length = 64) (x : Nat) :
    (m.flushLine n).byte x = m.byte x := by
  by_cases hx : x / 64 = n
  · cases he : m.gather.find? n with
    | none => rw [Module.flushLine_of_none he]
    | some e =>
      have hbad : (m.takenOut n e).badIn (n * 64) 64 = [] := by
        rw [h.takenOut]
        exact Module.Clean.badIn ⟨h.poison, h.ueSectors, h.latent⟩ _ _
      have hout : (m.flushLine n).gathered x = none := Module.gathered_of_none (by rw [Module.flushLine_gather, if_pos hx])
      rw [Module.byte_of_ungathered hout, Module.flushLine_bank he, hbad, if_pos ⟨by omega, rfl⟩, Module.byte_eq,
        Module.gathered_of_find e (hx ▸ he), show x - n * 64 = x % 64 by omega]
  · exact Module.flushLine_byte_other hwf hx

theorem Module.Clean.flushLine (h : m.Clean) (line : Nat) : (m.flushLine line).Clean := by
  cases he : m.gather.find? line with
  | none => rwa [Module.flushLine_of_none he]
  | some e =>
    rw [Module.flushLine_of_some he, h.takenOut]
    have herased : Module.Clean { m with gather := m.gather.erase line } := ⟨h.poison, h.ueSectors, h.latent⟩
    exact (herased.of_keeps (Module.putSome_keeps ..)).of_keeps (Module.reportGather_keeps ..)

theorem Module.GatherWf.flushLine (h : m.GatherWf) (line : Nat) : (m.flushLine line).GatherWf := by
  intro g e he
  rw [Module.flushLine_gather] at he
  split at he
  · cases he
  · exact h g e he

/-- The lines of the entries that a span touches. -/
def Module.linesIn (m : Module) (a n : Nat) : List Nat :=
  (m.gather.map (·.1)).filter fun l => l * 64 < a + n && a < l * 64 + 64

theorem Module.flushSpan_eq (m : Module) (a n : Nat) : m.flushSpan a n = (m.linesIn a n).foldl Module.flushLine m := rfl

theorem mem_linesIn {g : Nat} (h : g ∈ m.linesIn a n) : g * 64 < a + n ∧ a < g * 64 + 64 := by
  simpa using (List.mem_filter.1 h).2

theorem mem_linesIn_of_find {g : Nat} {e : GatherEntry} (h : m.gather.find? g = some e) (hlo : g * 64 < a + n) (hhi : a < g * 64 + 64) :
    g ∈ m.linesIn a n := by
  refine List.mem_filter.2 ⟨?_, by simp [hlo, hhi]⟩
  revert h
  generalize m.gather = l
  intro h
  induction l with
  | nil => cases h
  | cons c t ih =>
    unfold SMap.find? at h
    split at h
    · next hc => exact List.mem_cons.2 (.inl hc.symm)
    · exact List.mem_cons_of_mem _ (ih h)

theorem foldl_flushLine_gather (l : List Nat) (m : Module) (g : Nat) :
    (l.foldl Module.flushLine m).gather.find? g = if g ∈ l then none else m.gather.find? g := by
  induction l generalizing m with
  | nil => simp
  | cons n l ih =>
    rw [List.foldl_cons, ih, Module.flushLine_gather]
    by_cases hl : g ∈ l
    · rw [if_pos hl, if_pos (List.mem_cons_of_mem _ hl)]
    · by_cases hn : g = n
      · rw [if_neg hl, if_pos hn, if_pos (List.mem_cons.2 (.inl hn))]
      · rw [if_neg hl, if_neg hn, if_neg (by simp [hl, hn])]

/-- After a flush no entry touches the span. -/
theorem Module.flushSpan_gathered (m : Module) (hlo : a ≤ x) (hhi : x < a + n) : (m.flushSpan a n).gathered x = none := by
  refine Module.gathered_of_none ?_
  rw [Module.flushSpan_eq, foldl_flushLine_gather]
  split
  · rfl
  · next hout =>
    cases he : m.gather.find? (x / 64) with
    | none => rfl
    | some e => exact absurd (mem_linesIn_of_find he (by omega) (by omega)) hout

theorem Module.GatherWf.flushSpan (h : m.GatherWf) (a n : Nat) : (m.flushSpan a n).GatherWf := by
  intro g e he
  rw [Module.flushSpan_eq, foldl_flushLine_gather] at he
  split at he
  · cases he
  · exact h g e he

theorem Module.Clean.flushSpan (h : m.Clean) (a n : Nat) : (m.flushSpan a n).Clean :=
  List.foldlRecOn (motive := Module.Clean) _ _ h fun _ hk _ _ => hk.flushLine _

theorem Module.Clean.flushSpan_byte (h : m.Clean) (hwf : m.GatherWf) (a n x : Nat) : (m.flushSpan a n).byte x = m.byte x := by
  refine (List.foldlRecOn (motive := fun k : Module => k.Clean ∧ k.GatherWf ∧ k.byte x = m.byte x) _ _ ⟨h, hwf, rfl⟩
    fun k hk g _ => ?_).2.2
  obtain ⟨hclean, hgwf, hbyte⟩ := hk
  exact ⟨hclean.flushLine g, hgwf.flushLine g, (hclean.flushLine_byte (hgwf g) x).trans hbyte⟩

/-- A flush over whole lines leaves the bytes outside, whatever is bad. -/
theorem Module.flushSpan_byte_outside (hwf : m.GatherWf) (ha : a % 64 = 0) (hn : n % 64 = 0) (hx : x < a ∨ a + n ≤ x) :
    (m.flushSpan a n).byte x = m.byte x := by
  refine (List.foldlRecOn (motive := fun k : Module => k.GatherWf ∧ k.byte x = m.byte x) _ _ ⟨hwf, rfl⟩ fun k hk g hg => ?_).2
  obtain ⟨hgwf, hbyte⟩ := hk
  have hin := mem_linesIn hg
  exact ⟨hgwf.flushLine g, (Module.flushLine_byte_other (hgwf g) (by omega)).trans hbyte⟩

/-- Where no entry touches a span there is nothing to write out. -/
theorem Module.flushSpan_of_apart (h : ∀ g e, m.gather.find? g = some e → g * 64 + 64 ≤ a ∨ a + n ≤ g * 64) :
    m.flushSpan a n = m := by
  rw [Module.flushSpan_eq]
  refine List.foldlRecOn (motive := fun k : Module => k = m) _ _ rfl fun k hk g hg => ?_
  subst hk
  refine Module.flushLine_of_none ?_
  have hin := mem_linesIn hg
  cases he : k.gather.find? g with
  | none => rfl
  | some e => have := h g e he; omega

/-! ### Direct writes and zero fills -/

theorem Module.Clean.write_eq (h : m.Clean) (a : Nat) (l : List Byte) :
    m.write a l = (m.flushSpan a l.length).putSome a (l.map some) [] := by
  have hf := h.flushSpan a l.length
  unfold Module.write Module.meetPartly Module.meetLink
  simp only [hf.meetWhere, hf.meet, hf.reportPartly, hf.clearBad, hf.badPartly]

/-- A direct write is read back. -/
theorem Module.Clean.write_byte_in (h : m.Clean) {l : List Byte} (hlo : a ≤ x) (hhi : x < a + l.length) :
    (m.write a l).byte x = l[x - a]?.getD 0 := by
  have hg : ((m.flushSpan a l.length).putSome a (l.map some) []).gathered x = none :=
    (Module.gathered_congr (congrArg (SMap.find? · (x / 64)) (gather_of_keeps (Module.putSome_keeps ..)))).trans
      (m.flushSpan_gathered hlo hhi)
  rw [h.write_eq, Module.byte_of_ungathered hg, Module.bank_putSome_all, if_pos ⟨hlo, hhi⟩]

/-- Outside a direct write's span nothing changes but by the flush. -/
theorem Module.Clean.write_byte_out (h : m.Clean) {l : List Byte} (hx : x < a ∨ a + l.length ≤ x) :
    (m.write a l).byte x = (m.flushSpan a l.length).byte x := by
  rw [h.write_eq]
  refine Module.byte_congr_at (congrArg (SMap.find? · (x / 64)) (gather_of_keeps (Module.putSome_keeps ..))) ?_
  rw [Module.bank_putSome_all, if_neg (by omega)]

theorem Module.Clean.write (h : m.Clean) (a : Nat) (l : List Byte) : (m.write a l).Clean := by
  rw [h.write_eq]
  exact (h.flushSpan ..).of_keeps (Module.putSome_keeps ..)

theorem Module.Clean.write_wf (h : m.Clean) (hwf : m.GatherWf) (a : Nat) (l : List Byte) : (m.write a l).GatherWf := by
  rw [h.write_eq]
  intro g e he
  rw [gather_of_keeps (Module.putSome_keeps ..)] at he
  exact hwf.flushSpan a l.length g e he

/-- What a store of l from a on makes of the bytes. -/
def Stores (m k : Module) (a : Nat) (l : List Byte) : Prop :=
  ∀ x, k.byte x = if a ≤ x ∧ x < a + l.length then l[x - a]?.getD 0 else m.byte x

theorem Module.Clean.write_stores (h : m.Clean) (hwf : m.GatherWf) (a : Nat) (l : List Byte) : Stores m (m.write a l) a l := by
  intro x
  split
  · next hx => exact h.write_byte_in hx.1 hx.2
  · next hx => exact (h.write_byte_out (by omega)).trans (h.flushSpan_byte hwf ..)

theorem Stores.get {i : Nat} (h : Stores m k a l) (hi : i < l.length) : some (k.byte (a + i)) = l[i]? := by
  rw [h, if_pos (by omega), Nat.add_sub_cancel_left, List.getElem?_eq_getElem hi]
  rfl

theorem Stores.out (h : Stores m k a l) (hx : x < a ∨ a + l.length ≤ x) : k.byte x = m.byte x := by
  rw [h, if_neg (by omega)]

/-- The module with nothing listed in a span. -/
def Module.blanked (m : Module) (a n : Nat) : Module := { m with mem := m.mem.filter fun c => !(a ≤ c.1 && c.1 < a + n) }

theorem Module.zero_eq (m : Module) (a n : Nat) : m.zero a n = ((m.flushSpan a n).blanked a n).clearBad a n := rfl

theorem Module.bank_blanked (m : Module) (a n x : Nat) :
    (m.blanked a n).bank x = if a ≤ x ∧ x < a + n then 0 else m.bank x := by
  unfold Module.bank SMap.get Module.blanked
  dsimp only
  split
  · next h =>
    rw [SMap.find?_filter_none _ (fun c => !(decide (a ≤ c) && decide (c < a + n))) _ (by simp [h.1, h.2])]
    rfl
  · next h => rw [SMap.find?_filter _ (fun c => !(decide (a ≤ c) && decide (c < a + n))) _ (by simp; omega)]

theorem Module.zero_gather (m : Module) (a n : Nat) : (m.zero a n).gather = (m.flushSpan a n).gather := by
  rw [Module.zero_eq, gather_of_keeps (Module.clearBad_keeps ..)]
  rfl

/-- Zeros fill a span. -/
theorem Module.zero_byte_in (m : Module) (hlo : a ≤ x) (hhi : x < a + n) : (m.zero a n).byte x = 0 := by
  have hg : (m.zero a n).gathered x = none :=
    (Module.gathered_congr (congrArg (SMap.find? · (x / 64)) (m.zero_gather a n))).trans (m.flushSpan_gathered hlo hhi)
  rw [Module.byte_of_ungathered hg, Module.zero_eq, mem_of_keeps (Module.clearBad_keeps ..), Module.bank_blanked,
    if_pos ⟨hlo, hhi⟩]

theorem Module.zero_byte_out (m : Module) (hx : x < a ∨ a + n ≤ x) : (m.zero a n).byte x = (m.flushSpan a n).byte x := by
  refine Module.byte_congr_at (congrArg (SMap.find? · (x / 64)) (m.zero_gather a n)) ?_
  · rw [Module.zero_eq, mem_of_keeps (Module.clearBad_keeps ..), Module.bank_blanked, if_neg (by omega)]

/-- Zeros over whole lines leave the bytes outside. -/
theorem Module.zero_byte_outside (hwf : m.GatherWf) (ha : a % 64 = 0) (hn : n % 64 = 0) (hx : x < a ∨ a + n ≤ x) :
    (m.zero a n).byte x = m.byte x := (m.zero_byte_out hx).trans (Module.flushSpan_byte_outside hwf ha hn hx)

/-! ### Narrow writes -/

theorem mergeBytes_length (e : List (Option Byte)) (o : Nat) (l : List Byte) : (mergeBytes e o l).length = e.length := by
  induction l generalizing e o with
  | nil => rfl
  | cons b t ih => rw [mergeBytes, ih, setAt_eq_set, List.length_set]

theorem mergeBytes_getElem? (e : List (Option Byte)) (o : Nat) (l : List Byte) {i : Nat} (hi : i < e.length) :
    (mergeBytes e o l)[i]? = if o ≤ i ∧ i < o + l.length then some l[i - o]? else e[i]? := by
  induction l generalizing e o with
  | nil => simp [mergeBytes]
  | cons b t ih =>
    rw [mergeBytes, ih _ _ (by rwa [setAt_eq_set, List.length_set]), setAt_eq_set, List.getElem?_set]
    by_cases ho : i = o
    · subst ho
      simp [hi]
    · by_cases hin : o + 1 ≤ i ∧ i < o + 1 + t.length
      · obtain ⟨j, rfl⟩ : ∃ j, i = o + 1 + j := ⟨i - (o + 1), by omega⟩
        rw [if_pos hin, if_pos (by simp only [List.length_cons]; omega), show o + 1 + j - o = j + 1 by omega,
          show o + 1 + j - (o + 1) = j by omega, List.getElem?_cons_succ]
      · rw [if_neg hin, if_neg (Ne.symm ho), if_neg (by simp only [List.length_cons]; omega)]

/-- What a line's entry holds, or would hold when it is opened. -/
def Module.entryBytes (m : Module) (line : Nat) : List (Option Byte) :=
  match m.gather.find? line with
  | some e => e.bytes
  | none => List.replicate 64 none

theorem Module.GatherWf.entryBytes (h : m.GatherWf) (line : Nat) : (m.entryBytes line).length = 64 := by
  unfold Module.entryBytes
  split
  · next e he => exact h line e he
  · rfl

theorem Module.gathered_eq (m : Module) (x : Nat) : m.gathered x = ((m.entryBytes (x / 64))[x % 64]?).join := by
  cases he : m.gather.find? (x / 64) with
  | none =>
    rw [Module.gathered_of_none he]
    unfold Module.entryBytes
    rw [he, List.getElem?_replicate]
    split <;> rfl
  | some e =>
    rw [Module.gathered_of_find e he]
    unfold Module.entryBytes
    rw [he]

/-- The module once a narrow write within a line has joined its entry. -/
def Module.merged (m : Module) (s a : Nat) (l : List Byte) : Module :=
  { m with
    gather := m.gather.insert (a / 64) ⟨mergeBytes (m.entryBytes (a / 64)) (a % 64) l, m.gatherAge⟩
    gatherAge := m.gatherAge + 1 }.reportGather s

theorem Module.merged_gather (m : Module) (s a : Nat) (l : List Byte) : (m.merged s a l).gather =
    m.gather.insert (a / 64) ⟨mergeBytes (m.entryBytes (a / 64)) (a % 64) l, m.gatherAge⟩ :=
  gather_of_keeps (Module.reportGather_keeps ..)

theorem Module.merged_mem (m : Module) (s a : Nat) (l : List Byte) : (m.merged s a l).mem = m.mem :=
  (Module.reportGather_keeps ..).view (·.mem) fun _ => rfl

/-- A narrow write is read back at once. -/
theorem Module.merged_stores (m : Module) (s : Nat) {a : Nat} {l : List Byte} (hlen : (m.entryBytes (a / 64)).length = 64)
    (hin : a % 64 + l.length ≤ 64) : Stores m (m.merged s a l) a l := by
  intro x
  have hbank := Module.bank_congr (m.merged_mem s a l) x
  by_cases hx : x / 64 = a / 64
  · have hfind : (m.merged s a l).gather.find? (x / 64) =
        some ⟨mergeBytes (m.entryBytes (a / 64)) (a % 64) l, m.gatherAge⟩ := by
      rw [Module.merged_gather, hx, SMap.find?_insert_same]
    rw [Module.byte_eq, Module.gathered_of_find _ hfind, mergeBytes_getElem? _ _ _ (by omega), hbank]
    by_cases hw : a ≤ x ∧ x < a + l.length
    · rw [if_pos (by omega), if_pos hw, show x % 64 - a % 64 = x - a by omega, List.getElem?_eq_getElem (by omega)]
      rfl
    · rw [if_neg (by omega), if_neg hw, Module.byte_eq, Module.gathered_eq, hx]
  · rw [if_neg (by omega)]
    refine Module.byte_congr_at ?_ hbank
    rw [Module.merged_gather, SMap.find?_insert_ne _ _ hx]

theorem Module.GatherWf.merged (h : m.GatherWf) (s a : Nat) (l : List Byte) : (m.merged s a l).GatherWf := by
  intro g e he
  rw [Module.merged_gather] at he
  by_cases hg : g = a / 64
  · rw [hg, SMap.find?_insert_same] at he
    obtain rfl := Option.some.inj he
    exact (mergeBytes_length ..).trans (h.entryBytes _)
  · rw [SMap.find?_insert_ne _ _ hg] at he
    exact h g e he

theorem Module.Clean.merged (h : m.Clean) (s a : Nat) (l : List Byte) : (m.merged s a l).Clean := by
  have hentered : Module.Clean { m with
    gather := m.gather.insert (a / 64) ⟨mergeBytes (m.entryBytes (a / 64)) (a % 64) l, m.gatherAge⟩
    gatherAge := m.gatherAge + 1 } := ⟨h.poison, h.ueSectors, h.latent⟩
  exact hentered.of_keeps (Module.reportGather_keeps ..)

/-- The module once a full buffer has made room for a narrow write. -/
def Module.evicted (m : Module) (a : Nat) : Module :=
  if (m.gather.find? (a / 64)).isNone && m.gatherCount (m.stackOf a) ≥ 64 then
    match m.oldestEntry (m.stackOf a) with
    | some o => m.flushLine o
    | none => m
  else m

theorem Module.narrowLine_eq (m : Module) (a : Nat) (l : List Byte) : m.narrowLine a l =
    let k := (m.evicted a).merged (m.stackOf a) a l
    if (mergeBytes ((m.evicted a).entryBytes (a / 64)) (a % 64) l).all Option.isSome then k.flushLine (a / 64) else k := rfl

/-- The module evicts by writing an entry out, or not at all. -/
theorem Module.evicted_eq (m : Module) (a : Nat) : m.evicted a = m ∨ ∃ o, m.evicted a = m.flushLine o := by
  unfold Module.evicted
  split
  · split
    · exact .inr ⟨_, rfl⟩
    · exact .inl rfl
  · exact .inl rfl

/-- Without errors, with whole entries: what a write keeps so. -/
structure Module.Sound (m : Module) : Prop where
  clean : m.Clean
  wf : m.GatherWf

theorem Module.Sound.flushLine (h : m.Sound) (line : Nat) : (m.flushLine line).Sound := ⟨h.clean.flushLine line, h.wf.flushLine line⟩

theorem Module.Sound.flushLine_byte (h : m.Sound) (line x : Nat) : (m.flushLine line).byte x = m.byte x :=
  h.clean.flushLine_byte (h.wf line) x

theorem Module.Sound.narrowLine (h : m.Sound) {a : Nat} {l : List Byte} (hin : a % 64 + l.length ≤ 64) :
    (m.narrowLine a l).Sound ∧ Stores m (m.narrowLine a l) a l := by
  have hevicted : (m.evicted a).Sound ∧ ∀ x, (m.evicted a).byte x = m.byte x := by
    rcases m.evicted_eq a with he | ⟨o, he⟩ <;> rw [he]
    · exact ⟨h, fun _ => rfl⟩
    · exact ⟨h.flushLine o, h.flushLine_byte o⟩
  obtain ⟨hsound, hbyte⟩ := hevicted
  have hmerged : ((m.evicted a).merged (m.stackOf a) a l).Sound := ⟨hsound.clean.merged _ _ _, hsound.wf.merged _ _ _⟩
  have hstores : Stores m ((m.evicted a).merged (m.stackOf a) a l) a l := fun x => by
    rw [Module.merged_stores _ _ (hsound.wf.entryBytes _) hin x, hbyte]
  rw [Module.narrowLine_eq]
  dsimp only
  split
  · exact ⟨hmerged.flushLine _, fun x => (hmerged.flushLine_byte ..).trans (hstores x)⟩
  · exact ⟨hmerged, hstores⟩

theorem Module.Sound.write (h : m.Sound) (a : Nat) (l : List Byte) : (m.write a l).Sound ∧ Stores m (m.write a l) a l :=
  ⟨⟨h.clean.write a l, h.clean.write_wf h.wf a l⟩, h.clean.write_stores h.wf a l⟩

theorem Stores.nil (m : Module) (a : Nat) : Stores m m a [] := fun x => by rw [if_neg (by simp)]

/-- Two stores, one behind the other. -/
theorem Stores.append {j : Module} {a b : Nat} {l t : List Byte} (h : Stores m j a l) (h' : Stores j k b t)
    (hb : b = a + l.length) : Stores m k a (l ++ t) := by
  subst hb
  intro x
  rw [h' x, h x, List.length_append]
  by_cases hl : a ≤ x ∧ x < a + l.length
  · rw [if_neg (by omega), if_pos hl, if_pos (by omega), List.getElem?_append_left (by omega)]
  · by_cases ht : a + l.length ≤ x ∧ x < a + l.length + t.length
    · rw [if_pos ht, if_pos (by omega), List.getElem?_append_right (by omega), show x - a - l.length = x - (a + l.length) by omega]
    · rw [if_neg ht, if_neg hl, if_neg (by omega)]

/-- A store to SPM line by line. -/
theorem Module.Sound.spmWriteGo (fuel : Nat) (h : m.Sound) (a : Nat) (l : List Byte) (hfuel : a % 64 + l.length ≤ 64 * fuel) :
    (Module.spmWriteGo fuel m a l).Sound ∧ Stores m (Module.spmWriteGo fuel m a l) a l := by
  induction fuel generalizing m a l with
  | zero =>
    obtain rfl := List.length_eq_zero_iff.1 (by omega : l.length = 0)
    exact ⟨h, .nil m a⟩
  | succ fuel ih =>
    unfold Module.spmWriteGo
    by_cases hl : l = []
    · subst hl
      exact ⟨h, .nil m a⟩
    · rw [if_neg (by simpa using hl)]
      have hpos : 0 < l.length := List.length_pos_of_ne_nil hl
      dsimp only
      split
      · next hline =>
        obtain ⟨hs, hst⟩ := h.write a (l.take 64)
        have hlen : (l.take 64).length = 64 := by rw [List.length_take]; omega
        obtain ⟨hs', hst'⟩ := ih hs (a + 64) (l.drop 64) (by rw [List.length_drop]; omega)
        have hcat := hst.append hst' (by rw [hlen])
        rw [List.take_append_drop] at hcat
        exact ⟨hs', hcat⟩
      · next hline =>
        have hshort : (l.take (64 - a % 64)).length ≤ 64 - a % 64 := List.length_take_le ..
        obtain ⟨hs, hst⟩ := h.narrowLine (a := a) (l := l.take (64 - a % 64)) (by omega)
        obtain ⟨hs', hst'⟩ := ih hs (a + (64 - a % 64)) (l.drop (64 - a % 64)) (by rw [List.length_drop]; omega)
        refine ⟨hs', ?_⟩
        by_cases hend : 64 - a % 64 ≤ l.length
        · have hlen : (l.take (64 - a % 64)).length = 64 - a % 64 := by rw [List.length_take]; omega
          have hcat := hst.append hst' (by rw [hlen])
          rwa [List.take_append_drop] at hcat
        · rw [List.drop_of_length_le (by omega)] at hst' ⊢
          rw [List.take_of_length_le (by omega)] at hst hst' ⊢
          intro x
          rw [hst' x, if_neg (by simp), hst x]

/-- A store is read back, and changes nothing else. -/
theorem Module.Sound.store (h : m.Sound) (a : Nat) (l : List Byte) : (m.store a l).Sound ∧ Stores m (m.store a l) a l := by
  unfold Module.store
  split
  · exact h.spmWriteGo _ a l (by omega)
  · exact h.write a l

end
end Sys2Proof.Machine
end

section
set_option Elab.async false
/-!
Debug access to registers, memory, sync objects and engines (R23, R308, R478, R479).
-/
namespace Sys2Proof.Machine
open Sys2Proof

section
variable {s : State} {m k : Module} {d : DbgHdr} {src : BusSource} {off i j : Nat} {v w : Word} {b : List Byte}

theorem ofLe_lt (b : List Byte) : ofLe b < 256 ^ b.length := by
  induction b with
  | nil => exact Nat.one_pos
  | cons x t ih =>
    have hx := x.isLt
    rw [ofLe, List.length_cons, Nat.pow_succ]
    omega

theorem fieldAt_lt (b : List Byte) (o n : Nat) : fieldAt b o n < 256 ^ n :=
  (ofLe_lt _).trans_le (Nat.pow_le_pow_right (by decide) (List.length_take_le ..))

/-! ### Register operations -/

/-- A request of one operation. -/
theorem Module.regOps_one (m : Module) (src : BusSource) (writes : Bool) {b : List Byte} (hcount : fieldAt b 0 1 = 1) :
    m.regOps src writes b = (leBytes 4 1 ++ leBytes 3 (regOp b 0).1 ++
      leBytes 1 (m.doRegOp src writes (regOp b 0)).busStatus.toNat ++
      leBytes 4 (m.doRegOp src writes (regOp b 0)).busValue.toNat, m.doRegOp src writes (regOp b 0)) := by
  unfold Module.regOps
  rw [hcount]
  rfl

/-- A debug request of one operation that leaves the transition. -/
theorem Module.debugRegs_one {op : Nat} {s : State} (hd : Debugged s d (if op = 6 then 2 else 1)) (hlen : b.length = 12)
    (hcount : fieldAt b 0 1 = 1) (hk : s.toModule.doRegOp (.debug d.path) (op = 6) (regOp b 0) = k)
    (htrans : k.transition = s.transition) : s.toModule.debugRegs d op b = k.debugAnswer d op stOk 0
      (leBytes 4 1 ++ leBytes 3 (regOp b 0).1 ++ leBytes 1 k.busStatus.toNat ++ leBytes 4 k.busValue.toNat) := by
  have hgood : (!regLength b || decide (fieldAt b 0 1 = 0) || decide (32 < fieldAt b 0 1)) = false := by
    simp [regLength, hlen, hcount]
  unfold Module.debugRegs
  rw [hd.runs (Nat.le_refl _), hgood, if_neg Bool.false_ne_true, Module.regOps_one _ _ _ hcount, hk]
  exact Module.settleMove_of_same (((Module.debugAnswer_keeps ..).view (·.transition) fun _ => rfl).trans htrans)

theorem Module.doRegOp_read (hgate : m.busGate src false off = .pass) {r : RegRow} (hat : regAt off r i j = true)
    (hon : m.blockOn off = true) (hrd : m.readReg r i off = (stOk, w, k)) (writes : Bool) :
    m.doRegOp src writes (off, 0, v) = k.busAnswer stOk w := by
  have h : (decide (1 < 0) || decide (0 = 1) && !writes) = false := rfl
  unfold Module.doRegOp
  dsimp only
  rw [h, if_neg Bool.false_ne_true, show decide (0 = 1) = false from rfl, hgate]
  simp only [if_true, Module.busRead, busCheck_of_regAt hat hon, findReg_of_regAt hat, hrd]

theorem Module.doRegOp_write (hgate : m.busGate src true off = .pass) :
    m.doRegOp src true (off, 1, v) = m.busWrite src off 4 v := by
  unfold Module.doRegOp
  dsimp only
  rw [show (decide (1 < 1) || decide (1 = 1) && !true) = false from rfl, if_neg Bool.false_ne_true,
    show decide (1 = 1) = true from rfl, hgate]
  rfl

/-- The new value of a trigger period. -/
theorem trigPeriod_written (p : Fin 36) (hon : s.blockOn (CAP_TRIG_PERIOD p) = true) (hlo : 100000 ≤ v.toNat) :
    ∃ k : Module, s.busWrite src (CAP_TRIG_PERIOD p) 4 v = k ∧ k.busStatus = 0 ∧ k.busValue = v ∧ k.rd (CAP_TRIG_PERIOD p) = v ∧
      OnlyRegs s k [CAP_TRIG_PERIOD p] ∧ k.transition = s.transition := by
  have htakes : (wordRow (CAP_TRIG_PERIOD 0) 0x1000 36 4 1 CAP_TRIG_PERIOD_period_ns 33333333 100000).fields.all (·.takes v) =
      true := by
    have := v.isLt
    simp [wordRow, FieldRow.takes, Bits.of, CAP_TRIG_PERIOD_period_ns]
    omega
  have hmerge (old : Word) : (wordRow (CAP_TRIG_PERIOD 0) 0x1000 36 4 1 CAP_TRIG_PERIOD_period_ns 33333333 100000).merge old v = v :=
    Bits.put_of_full _ _
  have hrow : CAP_TRIG_PERIOD p < JNL_NEXT ∧ JNL_NEXT < JNL_OLDEST := by
    unfold CAP_TRIG_PERIOD JNL_NEXT JNL_OLDEST
    omega
  have hwrite := Module.busWrite_eq (src := src) (regAt_CAP_TRIG_PERIOD p) hon htakes (Module.setupHeld_of_plain rfl _ _)
    (List.cons_ne_nil _ _) ((s.writeReg_cap src _ _ _ _ _ (by unfold CAP_TRIG_PERIOD; omega)
      (by unfold CAP_TRIG_PERIOD; omega)).trans rfl)
  rw [hmerge] at hwrite
  refine ⟨_, hwrite, rfl, Module.rd_wr_same .., ?_, ?_, ?_⟩
  · exact (Module.writeAnswer_rd (by simp only [List.mem_cons, List.not_mem_nil, or_false, not_or]; omega)).trans
      (Module.rd_wr_same ..)
  · exact onlyRegs_of (G := Fld.besideRegs) (.after Module.writeAnswer_unreported
      (Module.wr_unreported _ _ (List.mem_singleton_self _))) (.after Module.writeAnswer_keeps rfl ((Module.wr_keeps ..).mono rfl)) rfl
  · exact Module.writeAnswer_keeps.view (·.transition) fun _ => rfl

/-! ### Memory operations -/

theorem Module.readMeets_of_clean {a n : Nat} (hl : m.latent = []) (hb : m.badIn a n = []) (source : Nat) :
    m.readMeets source a n = (false, m) := by
  unfold Module.readMeets Module.meetLines Module.readBad
  rw [Module.meet_of_none hl, hb]
  rfl

/-- A debug read of local memory in which nothing is bad. -/
theorem memRead_local {s : State} {addr : W64} {len : Word} (hd : Debugged s d 2) (hpos : 0 < len.toNat) (hmax : len.toNat ≤ 1024)
    (hst : s.memStatus addr.toNat len.toNat = none) (hwin : ∀ w o, s.spaceOf addr.toNat ≠ .window w o) (hl : s.latent = [])
    (hbad : s.badIn addr.toNat len.toNat = []) (hbusy : s.spmBusy addr.toNat len.toNat = false) (rec : Remote) :
    memRead d addr len rec s.toModule = s.debugAnswer d 7 stOk 0 (s.bytes addr.toNat len.toNat) := by
  unfold memRead
  rw [hd.runs (Nat.le_refl 2)]
  dsimp only
  rw [if_neg (by simp; omega), hst]
  dsimp only
  rw [hbusy, if_neg Bool.false_ne_true]
  split
  · next w o hw => exact absurd hw (hwin w o)
  · rw [Module.readMeets_of_clean hl hbad]
    rfl

/-- A debug write to local memory in which nothing is bad and no entry is open. -/
theorem memWrite_local {s : State} {addr : W64} {data : List Byte} (hd : Debugged s d 2) (hpos : 0 < data.length)
    (hmax : data.length ≤ 1024) (hst : s.memStatus addr.toNat data.length = none)
    (hwin : ∀ w o, s.spaceOf addr.toNat ≠ .window w o) (hclean : s.Clean) (hg : s.gather = [])
    (hbusy : s.spmBusy addr.toNat data.length = false) :
    memWrite d addr data s.toModule = (s.write addr.toNat data).debugAnswer d 8 stOk 0 [] := by
  have hflush : s.flushSpan addr.toNat data.length = s.toModule :=
    Module.flushSpan_of_apart fun g e he => by rw [hg] at he; cases he
  unfold memWrite
  rw [hd.runs (Nat.le_refl 2)]
  dsimp only
  rw [if_neg (by simp only [Bool.or_eq_true, decide_eq_true_eq]; omega), hst]
  dsimp only
  rw [hbusy, if_neg Bool.false_ne_true]
  split
  · next w o hw => exact absurd hw (hwin w o)
  · rw [hflush, Module.meetPartly, hclean.meet, hclean.badPartly]
    rfl

/-! ### Halts -/

theorem Module.deliver_of_running (h : m.cpHalted = false) (e : Event) :
    (m.deliver e).cpHalted = false ∧ (m.deliver e).heldEvents = m.heldEvents := by
  have hk : Keeps Fld.ring m (m.deliver e) := by
    unfold Module.deliver
    rw [h, if_neg Bool.false_ne_true]
    exact .foldl (fun _ _ => .after (Module.deliverTo_keeps ..) rfl .refl) _ .refl
  exact ⟨(hk.view (·.cpHalted) fun _ => rfl).trans h, hk.view (·.heldEvents) fun _ => rfl⟩

theorem foldl_deliver_of_running (l : List Event) (h : m.cpHalted = false) :
    (l.foldl Module.deliver m).cpHalted = false ∧ (l.foldl Module.deliver m).heldEvents = m.heldEvents := by
  refine List.foldlRecOn (motive := fun k : Module => k.cpHalted = false ∧ k.heldEvents = m.heldEvents) _ _ ⟨h, rfl⟩
    fun k hk e _ => ?_
  obtain ⟨hrun, hheld⟩ := Module.deliver_of_running hk.1 e
  exact ⟨hrun, hheld.trans hk.2⟩

theorem haltPos_ne_zero {target : W16} {e : EngPos} (h : haltPos target = some e) : target ≠ 0 := by
  rintro rfl
  cases h

end
end Sys2Proof.Machine
namespace Sys2Proof
open Machine

/-- Settles O54: register operations by the register's own rule, memory by what a direct write stores, the rest by its cases. -/
theorem debugAccessesComplete : Obligations.DebugAccessesComplete := by
  intro d s
  refine ⟨fun p b o hlen hcount hop htrans => ⟨fun ho hd ha => ?_, fun ho hd ha hv => ?_⟩,
    fun hd => ⟨fun addr len rec hpos hmax hst hwin hl hbad hbusy => ?_, fun addr data hpos hmax hst hwin hp hu hg hl hbusy => ?_,
      fun obj v => ?_, ?_, ?_, fun target e he => ⟨?_, ?_⟩, fun i => ?_⟩, fun pins hpins => ?_, fun hon hlevel i => ⟨fun hi => ?_, fun hi => ?_⟩⟩
  · subst ho
    obtain ⟨hboot, hfail, hgate, hon⟩ := ha
    have hread := Module.doRegOp_read (v := BitVec.ofNat 32 (fieldAt b 8 4)) hgate (regAt_CAP_TRIG_PERIOD p) hon rfl false
    rw [← hop] at hread
    refine .of_ok hd.on (congrArg (ok s) (Module.debugRegs_one (op := 5) hd hlen hcount hread rfl))
      ⟨(onlyRegs_busAnswer s _ _).debugAnswer, ?_⟩
    rw [hop]
    exact Module.debugAnswer_answered ..
  · subst ho
    obtain ⟨hboot, hfail, hgate, hon⟩ := ha
    have hval : (BitVec.ofNat 32 (fieldAt b 8 4)).toNat = fieldAt b 8 4 := (BitVec.toNat_ofNat ..).trans
      (Nat.mod_eq_of_lt (fieldAt_lt b 8 4))
    obtain ⟨k, hk, hstatus, hvalue, hrd, honly, hktrans⟩ := trigPeriod_written (src := .debug d.path)
      (v := BitVec.ofNat 32 (fieldAt b 8 4)) p hon (by rwa [hval])
    have hwrite := (Module.doRegOp_write (v := BitVec.ofNat 32 (fieldAt b 8 4)) hgate).trans hk
    rw [← hop] at hwrite
    refine .of_ok hd.on (congrArg (ok s) (Module.debugRegs_one (op := 6) hd hlen hcount hwrite hktrans)) ⟨?_, honly.debugAnswer, ?_⟩
    · rw [Module.rd_debugAnswer, hrd, hval]
    · rw [hop, hstatus, hvalue, hval]
      exact Module.debugAnswer_answered ..
  · exact .of_ok hd.on (congrArg (ok s) (memRead_local hd hpos hmax hst hwin hl hbad hbusy rec))
      ⟨(OnlyRegs.refl s).debugAnswer, Module.debugAnswer_answered ..⟩
  · have hsound : s.toModule.Sound := ⟨⟨hp, hu, hl⟩, fun g e he => by rw [hg] at he; cases he⟩
    obtain ⟨-, hstores⟩ := hsound.write addr.toNat data
    have hans (a : Nat) : ((s.write addr.toNat data).debugAnswer d 8 stOk 0 []).byte a = (s.write addr.toNat data).byte a :=
      byte_congr ((Module.debugAnswer_keeps ..).view (·.mem) fun _ => rfl) ((Module.debugAnswer_keeps ..).view (·.gather) fun _ => rfl) a
    refine .of_ok hd.on (congrArg (ok s) (memWrite_local hd hpos hmax hst hwin hsound.clean hg hbusy)) ?_
    refine ⟨Module.debugAnswer_answered .., fun i hi => (congrArg some (hans _)).trans (hstores.get hi),
      fun a ha => (hans a).trans (hstores.out ha), ?_⟩
    exact ((Module.debugAnswer_keeps ..).view (·.syncs) fun _ => rfl).trans ((Module.write_keeps ..).view (·.syncs) fun _ => rfl)
  · refine hd.answers rfl ?_
    have hsyncs (m : Module) (st : Nat) : (m.debugAnswer d 9 st 0 []).syncs = m.syncs :=
      (Module.debugAnswer_keeps ..).view (·.syncs) fun _ => rfl
    have hsync (m : Module) (st o : Nat) : (m.debugAnswer d 9 st 0 []).sync o = m.sync o :=
      congrArg (fun x => SMap.get 0 x o) (hsyncs m st)
    by_cases hin : obj.toNat < 8192
    · rw [if_neg (Nat.not_le.2 hin)]
      cases howned : s.owned obj.toNat
      · rw [if_neg Bool.false_ne_true, if_pos ⟨hin, rfl⟩]
        exact ⟨(hsync ..).trans (Module.sync_setSync_same ..), fun o ho => (hsync ..).trans (Module.sync_setSync_ne _ _ ho),
          Module.debugAnswer_answered ..⟩
      · rw [if_pos rfl, if_neg (by simp)]
        exact ⟨hsyncs .., Module.debugAnswer_answered ..⟩
    · rw [if_pos (Nat.not_lt.1 hin), if_neg (by simp [hin])]
      exact ⟨hsyncs .., Module.debugAnswer_answered ..⟩
  · refine hd.answers rfl ?_
    rw [if_pos rfl]
    exact ⟨(Module.debugAnswer_keeps ..).view (·.cpHalted) fun _ => rfl, Module.debugAnswer_answered ..,
      (Module.debugAnswer_keeps { s.toModule with cpHalted := true } d 10 stOk 0 []).view
        (fun x : Module => { x.core with cpHalted := false }) fun _ => rfl⟩
  · obtain ⟨hrun, hheld⟩ := foldl_deliver_of_running (m := { s.toModule with cpHalted := false, heldEvents := [] }) s.heldEvents rfl
    refine hd.answers rfl ?_
    rw [if_pos rfl]
    exact ⟨((Module.debugAnswer_keeps ..).view (·.cpHalted) fun _ => rfl).trans hrun,
      ((Module.debugAnswer_keeps ..).view (·.heldEvents) fun _ => rfl).trans hheld, Module.debugAnswer_answered ..⟩
  · have hhalted (m : Module) (st : Nat) : (m.debugAnswer d 10 st 0 []).engHalted = m.engHalted :=
      (Module.debugAnswer_keeps ..).view (·.engHalted) fun _ => rfl
    refine hd.answers rfl ?_
    rw [if_neg (haltPos_ne_zero he), he]
    dsimp only
    by_cases hfree : 3 ≤ s.engState e ∨ s.streams = []
    · rw [if_pos hfree, if_pos (by simpa using hfree)]
      refine ⟨?_, Module.debugAnswer_answered ..⟩
      rw [hhalted]
      exact List.mem_append_right _ (List.mem_singleton_self _)
    · rw [if_neg hfree, if_neg (by simpa using hfree)]
      exact ⟨hhalted .., Module.debugAnswer_answered ..⟩
  · have hhalted (m : Module) (st : Nat) : (m.debugAnswer d 11 st 0 []).engHalted = m.engHalted :=
      (Module.debugAnswer_keeps ..).view (·.engHalted) fun _ => rfl
    refine hd.answers rfl ?_
    rw [if_neg (haltPos_ne_zero he), he]
    refine ⟨?_, Module.debugAnswer_answered ..⟩
    dsimp only
    rw [hhalted]
    simp
  · exact .of_ok hd.on (congrArg (ok s) (if_pos (by simp [hd.2.2.2]))) rfl
  · unfold Module.tapNow
    rw [hpins]
    simp
  · have hk := Module.debugSend_keeps s.toModule d stAuthFailed 0 []
    have honly : OnlyRegs s (s.debugSend d stAuthFailed 0 []) [] :=
      onlyRegs_of (.kept hk (fun _ => rfl) .refl) hk (by decide)
    have hrun : extest d i s.toModule = s.debugSend d stAuthFailed 0 [] := by
      refine if_neg ?_
      rcases hi with rfl | ⟨pins, rfl⟩ <;> simpa using hlevel
    exact .of_ok hon (congrArg (ok s) hrun) ⟨hk.view (·.tap) fun _ => rfl, honly⟩
  · refine .of_ok hon (congrArg (ok s) (if_pos ?_)) rfl
    rcases hi with rfl | rfl | rfl <;> rfl

end Sys2Proof
end

section
set_option Elab.async false
/-!
Exported windows (R427 to R429, R431, R432).
-/
namespace Sys2Proof.Machine
open Sys2Proof

section
variable {s : State} {m k : Module} {h : Hdr} {b : List Byte} {src : BusSource} {v w : Word} {type status retry : Nat}
  {payload : List Byte}

/-! ### What a write changes where nothing is bad -/

theorem Module.Clean.flushLine_keeps (h : m.Clean) (line : Nat) :
    Keeps (Fld.mem ||| Fld.gather ||| Fld.regs) m (m.flushLine line) := by
  cases he : m.gather.find? line with
  | none =>
    rw [Module.flushLine_of_none he]
    exact .refl
  | some e =>
    rw [Module.flushLine_of_some he, h.takenOut]
    exact .after (Module.reportGather_keeps ..) rfl <| .after (Module.putSome_keeps ..) rfl <| .upd .refl

theorem Module.Clean.flushSpan_keeps (h : m.Clean) (a n : Nat) :
    Keeps (Fld.mem ||| Fld.gather ||| Fld.regs) m (m.flushSpan a n) := by
  rw [Module.flushSpan_eq]
  refine (List.foldlRecOn (motive := fun k : Module => k.Clean ∧ Keeps (Fld.mem ||| Fld.gather ||| Fld.regs) m k) _ _
    ⟨h, .refl⟩ fun k hk g _ => ?_).2
  exact ⟨hk.1.flushLine g, .after (hk.1.flushLine_keeps g) rfl hk.2⟩

theorem Module.Clean.write_keeps (h : m.Clean) (a : Nat) (l : List Byte) :
    Keeps (Fld.mem ||| Fld.gather ||| Fld.regs) m (m.write a l) := by
  rw [h.write_eq]
  exact .after (Module.putSome_keeps ..) rfl (h.flushSpan_keeps ..)

theorem Module.Clean.evicted (h : m.Clean) (a : Nat) :
    (m.evicted a).Clean ∧ Keeps (Fld.mem ||| Fld.gather ||| Fld.regs) m (m.evicted a) := by
  rcases m.evicted_eq a with he | ⟨o, he⟩ <;> rw [he]
  · exact ⟨h, .refl⟩
  · exact ⟨h.flushLine o, h.flushLine_keeps o⟩

theorem Module.merged_keeps (m : Module) (s a : Nat) (l : List Byte) :
    Keeps (Fld.gather ||| Fld.gatherAge ||| Fld.regs) m (m.merged s a l) := by
  unfold Module.merged
  exact .after (Module.reportGather_keeps ..) rfl <| .upd .refl

theorem Module.Clean.narrowLine (h : m.Clean) (a : Nat) (l : List Byte) : (m.narrowLine a l).Clean ∧
    Keeps (Fld.mem ||| Fld.gather ||| Fld.gatherAge ||| Fld.regs) m (m.narrowLine a l) := by
  obtain ⟨hclean, hkeeps⟩ := h.evicted a
  have hmerged := hclean.merged (m.stackOf a) a l
  have hm : Keeps (Fld.mem ||| Fld.gather ||| Fld.gatherAge ||| Fld.regs) m ((m.evicted a).merged (m.stackOf a) a l) :=
    .after (Module.merged_keeps ..) rfl (hkeeps.mono rfl)
  rw [Module.narrowLine_eq]
  dsimp only
  split
  · exact ⟨hmerged.flushLine _, .after (hmerged.flushLine_keeps _) rfl hm⟩
  · exact ⟨hmerged, hm⟩

theorem Module.Clean.spmWriteGo_keeps (fuel : Nat) (h : m.Clean) (a : Nat) (l : List Byte) :
    Keeps (Fld.mem ||| Fld.gather ||| Fld.gatherAge ||| Fld.regs) m (Module.spmWriteGo fuel m a l) := by
  induction fuel generalizing m a l with
  | zero => exact .refl
  | succ fuel ih =>
    unfold Module.spmWriteGo
    dsimp only
    refine .ite (fun _ => .refl) fun _ => .ite (fun _ => ?_) fun _ => ?_
    · exact .trans ((h.write_keeps ..).mono rfl) (ih (h.write ..) ..)
    · obtain ⟨hclean, hkeeps⟩ := h.narrowLine a (l.take (64 - a % 64))
      exact .trans hkeeps (ih hclean ..)

theorem Module.Clean.store_keeps (h : m.Clean) (a : Nat) (l : List Byte) :
    Keeps (Fld.mem ||| Fld.gather ||| Fld.gatherAge ||| Fld.regs) m (m.store a l) := by
  unfold Module.store
  exact .ite (fun _ => h.spmWriteGo_keeps ..) fun _ => (h.write_keeps ..).mono rfl

/-! ### Answers to a message -/

theorem Module.answer_answered (m : Module) (h : Hdr) (type status retry : Nat) (payload : List Byte)
    (htype : type ≠ 1 ∧ type ≠ 0x20 := by decide) : Answered (m.answer h type status retry payload) h type status retry payload := by
  obtain ⟨p, vid, rtag, cl, hlast⟩ := m.answer_getLast? h type status retry payload
  have hepoch : (m.answer h type status retry payload).epoch = m.epoch :=
    (Module.answer_keeps ..).view (·.epoch) fun _ => rfl
  refine ⟨p, vid, rtag, cl, ?_⟩
  rw [hlast, hepoch]
  simp [Module.epochOf, htype.1, htype.2]

/-- The answer that a message asks for, made of a state in which no more than in s has left. -/
theorem answeredIf_answerIf (hout : m.outbox = s.outbox) (type status : Nat) (payload : List Byte)
    (htype : type ≠ 1 ∧ type ≠ 0x20 := by decide) :
    AnsweredIf s (m.answerIf h type status 0 payload) h type status payload := by
  unfold AnsweredIf Module.answerIf
  split
  · exact m.answer_answered h type status 0 payload htype
  · exact hout

theorem Module.answerIf_view {α : Type} {π : Module → α} (hπ : ∀ m : Module, π (m.erase (Fld.outbox ||| Fld.cbNext)) = π m := by
    intro m; rfl) (m : Module) (h : Hdr) (type status retry : Nat) (payload : List Byte) :
    π (m.answerIf h type status retry payload) = π m := by
  unfold Module.answerIf
  split
  · exact (Module.answer_keeps ..).view π hπ
  · rfl

/-- A message that passes the checks every message meets is taken from its queue and runs. -/
theorem Module.gate_runs (haddr : m.addressed h false = true) (hready : m.ready = true) (type : Nat) (always : Bool)
    (f : Module → Module) : m.gate h type always true f = f (m.popRx h.port) := by
  have ha : (m.popRx h.port).addressed h false = true := haddr
  have hr : (m.popRx h.port).ready = true := hready
  unfold Module.gate
  dsimp only
  rw [ha, hr]
  rfl

/-! ### Opening and closing a window -/

/-- The row of the control registers of the exported windows. -/
def expCtlRow : RegRow :=
  ⟨YWP_EXP_CTL 0, 0x20, 256, 0x4, 1, [⟨YWP_EXP_CTL_size_m1, .rw, 0, 0, 262143, .plain⟩,
    ⟨YWP_EXP_CTL_arrive, .rw, 0, 0, 1, .plain⟩, ⟨YWP_EXP_CTL_sync, .rw, 0, 0, 1, .plain⟩,
    ⟨YWP_EXP_CTL_read, .rw, 0, 0, 1, .plain⟩, ⟨YWP_EXP_CTL_write, .rw, 0, 0, 1, .plain⟩,
    ⟨YWP_EXP_CTL_open, .rw, 0, 0, 1, .plain⟩]⟩

theorem regAt_YWP_EXP_CTL (n : Fin 256) : regAt (YWP_EXP_CTL n) expCtlRow n 0 = true := by
  have h : ∀ n : Fin 256, regWithin 0x681000 0x683000 (YWP_EXP_CTL n) expCtlRow n 0 = true := by decide +kernel
  exact regAt_of_regWithin (h n)

theorem expCtlRow_open (old v : Word) : YWP_EXP_CTL_open.of (expCtlRow.merge old v) = YWP_EXP_CTL_open.of v :=
  RegRow.of_merge (n := 5) (by decide) old v

theorem expCtlRow_size (old v : Word) : YWP_EXP_CTL_size_m1.of (expCtlRow.merge old v) = YWP_EXP_CTL_size_m1.of v :=
  RegRow.of_merge (n := 0) (by decide) old v

theorem Module.spanInside_congr (m : Module) (n : Nat) (h : YWP_EXP_CTL_size_m1.of v = YWP_EXP_CTL_size_m1.of w) :
    m.spanInside n v = m.spanInside n w := by
  unfold Module.spanInside
  rw [h]

theorem nextGen_lt {g : Nat} (h : g < 65536) : nextGen g < 65536 := by
  unfold nextGen
  split <;> omega

theorem Module.writeReg_expCtl (m : Module) (n : Fin 256) (v new : Word) :
    m.writeReg src expCtlRow n 0 (YWP_EXP_CTL n) v new = m.expCtl n (YWP_EXP_CTL n) new :=
  (m.writeReg_ywp src _ _ _ _ _ (by unfold YWP_EXP_CTL; omega) (by unfold YWP_EXP_CTL; omega)).trans rfl

/-- What a write of a window's control register does to the registers of the unit. -/
theorem Module.rd_writeAnswer_exp {r : RegRow} {i off : Nat} (n : Fin 256) :
    (m.writeAnswer k src r i off v).rd (YWP_EXP_CTL n) = k.rd (YWP_EXP_CTL n) :=
  Module.writeAnswer_rd (by simp [YWP_EXP_CTL, JNL_NEXT, JNL_OLDEST]; omega)

theorem windowOpen_answers (n : Fin 256) (ha : Admits s src true (YWP_EXP_CTL n)) (htakes : takesWord (YWP_EXP_CTL n) v = true)
    (hclosed : s.bit (YWP_EXP_CTL n) YWP_EXP_CTL_open = false) (hopen : YWP_EXP_CTL_open.of v = 1) :
    Answers (.windowOpen src n v) s fun m => if s.spanInside n v then m.busStatus = 0 ∧
        m.bit (YWP_EXP_CTL n) YWP_EXP_CTL_open = true ∧ OnlyRegs s m [YWP_EXP_CTL n]
      else m.busStatus = 3 ∧ OnlyRegs s m [] := by
  have hat := regAt_YWP_EXP_CTL n
  have hc : exec (.windowOpen src n v) s = ok s (s.accessWrite src (YWP_EXP_CTL n) 4 v) :=
    congrArg (ok s) (if_pos hopen)
  rw [takesWord_of_regAt hat] at htakes
  have hspan := s.spanInside_congr n (expCtlRow_size (s.rd (YWP_EXP_CTL n)) v)
  have hwr := s.writeReg_expCtl (src := src) n v (expCtlRow.merge (s.rd (YWP_EXP_CTL n)) v)
  have hheld := Module.setupHeld_of_plain (m := s.toModule) (r := expCtlRow) (i := n) rfl (s.rd (YWP_EXP_CTL n))
    (expCtlRow.merge (s.rd (YWP_EXP_CTL n)) v)
  unfold Module.expCtl at hwr
  rw [hclosed, if_neg Bool.false_ne_true, expCtlRow_open, hopen, hspan] at hwr
  cases hin : s.spanInside n v with
  | true =>
    rw [hin] at hwr
    refine ha.writes hc hat htakes hheld (List.cons_ne_nil _ _) hwr (s.wr_unreported _ (List.mem_singleton_self _))
      (s.wr_keeps ..) rfl rfl fun m hm hregs => ⟨hm ▸ rfl, ?_, hregs⟩
    unfold Module.bit Module.fld
    rw [hm, Module.rd_writeAnswer_exp, Module.rd_wr_same, expCtlRow_open, hopen]
    rfl
  | false =>
    rw [hin] at hwr
    exact ha.turned hc hat htakes hheld (List.cons_ne_nil _ _) hwr (by decide) ⟨rfl, onlyRegs_busAnswer ..⟩

theorem windowClose_answers (n : Fin 256) (ha : Admits s src true (YWP_EXP_CTL n)) (htakes : takesWord (YWP_EXP_CTL n) v = true)
    (hopen : s.bit (YWP_EXP_CTL n) YWP_EXP_CTL_open = true) (hv : v = YWP_EXP_CTL_open.put (s.rd (YWP_EXP_CTL n)) 0) :
    Answers (.windowClose src n v) s fun m => m.busStatus = 0 ∧ m.bit (YWP_EXP_CTL n) YWP_EXP_CTL_open = false ∧
      m.fld (YWP_EXP_GEN n) YWP_EXP_GEN_gen = nextGen (s.fld (YWP_EXP_GEN n) YWP_EXP_GEN_gen) ∧
      OnlyRegs s m [YWP_EXP_CTL n, YWP_EXP_GEN n] := by
  have hat := regAt_YWP_EXP_CTL n
  have hv0 : YWP_EXP_CTL_open.of v = 0 := by
    rw [hv]
    exact Bits.of_put YWP_EXP_CTL_open _ _ (by decide) (by decide) (by decide)
  have hc : exec (.windowClose src n v) s = ok s (s.accessWrite src (YWP_EXP_CTL n) 4 v) :=
    congrArg (ok s) (if_pos hv0)
  rw [takesWord_of_regAt hat] at htakes
  have hwr := s.writeReg_expCtl (src := src) n v (expCtlRow.merge (s.rd (YWP_EXP_CTL n)) v)
  have hheld := Module.setupHeld_of_plain (m := s.toModule) (r := expCtlRow) (i := n) rfl (s.rd (YWP_EXP_CTL n))
    (expCtlRow.merge (s.rd (YWP_EXP_CTL n)) v)
  have hsame : expCtlRow.merge (s.rd (YWP_EXP_CTL n)) v ||| 1 = s.rd (YWP_EXP_CTL n) ||| 1 := by
    rw [hv]
    exact (merge_put_or_one (by decide) _ 0).symm
  have hclose : s.closeWindow n = (s.setFld (YWP_EXP_CTL n) YWP_EXP_CTL_open 0).setFld (YWP_EXP_GEN n) YWP_EXP_GEN_gen
      (nextGen (s.fld (YWP_EXP_GEN n) YWP_EXP_GEN_gen)) := if_pos hopen
  unfold Module.expCtl at hwr
  rw [hopen, if_pos rfl, if_neg (not_not.2 hsame), expCtlRow_open, hv0, if_pos rfl, hclose] at hwr
  have hne : YWP_EXP_CTL n ≠ YWP_EXP_GEN n := by unfold YWP_EXP_CTL YWP_EXP_GEN; omega
  refine ha.writes hc hat htakes hheld (List.cons_ne_nil _ _) hwr
    (.after (Module.setFld_unreported _ _ _ (by simp)) (s.setFld_unreported _ _ (by simp)))
    (.after (Module.setFld_keeps ..) rfl (s.setFld_keeps ..)) rfl rfl fun m hm hregs => ⟨hm ▸ rfl, ?_, ?_, hregs⟩
  · unfold Module.bit Module.fld
    rw [hm, Module.rd_writeAnswer_exp, Module.rd_setFld_ne _ _ _ hne]
    exact decide_eq_false (by rw [← Module.fld, Module.fld_setFld _ _ _ _ (by decide) (by decide) (by decide)]; decide)
  · rw [hm]
    unfold Module.fld
    rw [Module.writeAnswer_rd (by simp [YWP_EXP_GEN, JNL_NEXT, JNL_OLDEST]; omega)]
    exact Module.fld_setFld _ _ _ _ (by decide) (by decide) (nextGen_lt (Bits.of_lt_two_pow YWP_EXP_GEN_gen _))

/-! ### Writes, reads and sync operations through a window -/

/-- A write that passed the checks of its window. -/
def winWritten (h : Hdr) (b : List Byte) (m : Module) : Module :=
  let a := m.expBase (fieldAt b 0 2) + fieldAt b 16 8
  let n := fieldAt b 6 2
  let flags := fieldAt b 4 2
  if flags.testBit 0 then
    m.mcReceive h (fieldAt b 0 2) (fieldAt b 2 2) flags (BitVec.ofNat 32 (fieldAt b 8 4)) (fieldAt b 12 4) a (b.drop 24)
  else
    let m := if a < spmSize then m else m.meetPartly 1 a n
    if !(a < spmSize) && !(m.badPartly a n).isEmpty then (m.reportPartly a n).answerIf h 0x10 stBusError 0 []
    else ((m.store a (b.drop 24)).arriveAt (fieldAt b 0 2) (flags.testBit 1)).answerIf h 0x10 stOk 0 []

section
variable (haddr : s.addressed h false = true) (hready : s.ready = true)
include haddr hready

theorem winWrite_runs (hlen : 24 ≤ b.length) (hn : b.length = 24 + fieldAt b 6 2) (hpos : 0 < fieldAt b 6 2)
    (hmax : fieldAt b 6 2 ≤ 1024)
    (hwait : s.winWaits h .write (fieldAt b 0 2) (fieldAt b 2 2) (fieldAt b 16 8) (fieldAt b 6 2) = false) :
    winWrite h b s.toModule =
      match s.winCheck h (fieldAt b 0 2) (fieldAt b 2 2) .write (fieldAt b 16 8) (fieldAt b 6 2) with
      | some st => (if st = stWindowClosed then (s.popRx h.port).winClosedCount h (fieldAt b 0 2) (fieldAt b 2 2)
          else s.popRx h.port).answerIf h 0x10 st 0 []
      | none => winWritten h b (s.popRx h.port) := by
  unfold winWrite
  dsimp only
  rw [hwait, if_neg Bool.false_ne_true, decide_eq_true hlen, decide_eq_true hn, Bool.true_and,
    Module.gate_runs haddr hready, if_neg (by omega)]
  rfl
end

theorem winClosedCount_keeps_if (m : Module) (c : Prop) [Decidable c] (h : Hdr) (w gen : Nat) :
    Keeps Fld.regs m (if c then m.winClosedCount h w gen else m) :=
  .ite (fun _ => (m.winClosedCount_keeps ..).mono rfl) fun _ => .refl

/-- A message that fails a check of its window is answered and changes no memory and no object. -/
theorem winCheck_failed (m : Module) (hm : m.outbox = s.outbox ∧ m.mem = s.mem ∧ m.syncs = s.syncs) (c : Prop) [Decidable c]
    (h : Hdr) (w gen type st : Nat) (htype : type ≠ 1 ∧ type ≠ 0x20 := by decide) :
    ∃ k : Module, (if c then m.winClosedCount h w gen else m).answerIf h type st 0 [] = k ∧ k.mem = s.mem ∧ k.syncs = s.syncs ∧
      AnsweredIf s k h type st [] := by
  have hk := winClosedCount_keeps_if m c h w gen
  obtain ⟨hout, hmem, hsync⟩ := hm
  refine ⟨_, rfl, ?_, ?_, answeredIf_answerIf ?_ _ _ _ htype⟩
  · exact (Module.answerIf_view (π := (·.mem)) (fun _ => rfl) ..).trans ((hk.view (·.mem) fun _ => rfl).trans hmem)
  · exact (Module.answerIf_view (π := (·.syncs)) (fun _ => rfl) ..).trans ((hk.view (·.syncs) fun _ => rfl).trans hsync)
  · exact (hk.view (·.outbox) fun _ => rfl).trans hout

/-- A plain write of a window stores its bytes. -/
theorem winWritten_stores (hflags : fieldAt b 4 2 % 4 = 0) (hclean : s.Clean) (hg : s.gather = [])
    (hn : b.length = 24 + fieldAt b 6 2) : ∃ k : Module, winWritten h b (s.popRx h.port) = k ∧
      (∀ i < fieldAt b 6 2, some (k.byte (s.expBase (fieldAt b 0 2) + fieldAt b 16 8 + i)) = b[24 + i]?) ∧
      (∀ x, x < s.expBase (fieldAt b 0 2) + fieldAt b 16 8 ∨ s.expBase (fieldAt b 0 2) + fieldAt b 16 8 + fieldAt b 6 2 ≤ x →
        k.byte x = s.byte x) ∧ k.syncs = s.syncs ∧ AnsweredIf s k h 16 0 [] := by
  have hbit0 : (fieldAt b 4 2).testBit 0 = false := by rw [Nat.testBit_zero]; exact decide_eq_false (by omega)
  have hbit1 : (fieldAt b 4 2).testBit 1 = false := by
    rw [Nat.testBit_succ, Nat.testBit_zero]
    exact decide_eq_false (by omega)
  have hpop : (s.popRx h.port).Clean := ⟨hclean.poison, hclean.ueSectors, hclean.latent⟩
  have hsound : (s.popRx h.port).Sound := ⟨hpop, fun g e he => by rw [show (s.popRx h.port).gather = [] from hg] at he; cases he⟩
  have hlen : (b.drop 24).length = fieldAt b 6 2 := by rw [List.length_drop]; omega
  have hexp : (s.popRx h.port).expBase (fieldAt b 0 2) = s.expBase (fieldAt b 0 2) := rfl
  unfold winWritten
  dsimp only
  rw [hbit0, hbit1, if_neg Bool.false_ne_true, Module.meetPartly, hpop.meet, ite_self, hpop.badPartly, hexp,
    if_neg (by simp)]
  generalize s.expBase (fieldAt b 0 2) + fieldAt b 16 8 = a
  obtain ⟨-, hst⟩ := hsound.store a (b.drop 24)
  have hk := hpop.store_keeps a (b.drop 24)
  generalize (s.popRx h.port).store a (b.drop 24) = k at hst hk
  refine ⟨_, rfl, fun i hi => ?_, fun x hx => ?_, ?_, ?_⟩
  · refine (congrArg some (Module.answerIf_view (π := (·.byte (a + i))) (fun _ => rfl) ..)).trans ?_
    rw [← List.getElem?_drop]
    exact hst.get (hlen ▸ hi)
  · refine (Module.answerIf_view (π := (·.byte x)) (fun _ => rfl) ..).trans ?_
    exact hst.out (hlen ▸ hx)
  · exact (Module.answerIf_view (π := (·.syncs)) (fun _ => rfl) ..).trans (hk.view (·.syncs) fun _ => rfl)
  · exact answeredIf_answerIf (hk.view (·.outbox) fun _ => rfl) _ _ _

section
variable (haddr : s.addressed h false = true) (hready : s.ready = true)
include haddr hready

theorem winRead_runs (hlen : b.length = 16) (hmax : fieldAt b 4 4 ≤ 1024)
    (hwait : s.winWaits h .read (fieldAt b 0 2) (fieldAt b 2 2) (fieldAt b 8 8) (fieldAt b 4 4) = false) :
    winRead h b s.toModule =
      match s.winCheck h (fieldAt b 0 2) (fieldAt b 2 2) .read (fieldAt b 8 8) (fieldAt b 4 4) with
      | some st => (if st = stWindowClosed then (s.popRx h.port).winClosedCount h (fieldAt b 0 2) (fieldAt b 2 2)
          else s.popRx h.port).answerIf h 0x11 st 0 []
      | none =>
        let r := (s.popRx h.port).readMeets 1 (s.expBase (fieldAt b 0 2) + fieldAt b 8 8) (fieldAt b 4 4)
        if r.1 then r.2.answerIf h 0x11 stBusError 0 []
        else r.2.answerIf h 0x11 stOk 0 (r.2.bytes (s.expBase (fieldAt b 0 2) + fieldAt b 8 8) (fieldAt b 4 4)) := by
  unfold winRead
  dsimp only
  rw [hwait, if_neg Bool.false_ne_true, decide_eq_true hlen, Module.gate_runs haddr hready, if_neg (by omega)]
  rfl

theorem winSync_runs (hlen : b.length = 12) : winSync h b s.toModule =
    match s.syncSeen.find? fun x => x.node = h.src ∧ x.seq = h.seq with
    | some x => ((s.popRx h.port).count YWP_CNT_DUP 1).answerIf h 0x12 x.status.toNat 0 []
    | none =>
      match s.winCheck h (fieldAt b 0 2) (fieldAt b 2 2) .sync (fieldAt b 6 2) 0 with
      | some st =>
        ((if st = stWindowClosed then (s.popRx h.port).winClosedCount h (fieldAt b 0 2) (fieldAt b 2 2)
          else s.popRx h.port).syncRemember h st).answerIf h 0x12 st 0 []
      | none =>
        let o := s.fld (YWP_EXP_SYNC (fieldAt b 0 2)) YWP_EXP_SYNC_first + fieldAt b 6 2
        if s.owned o then
          (((s.popRx h.port).count SYN_CNT_REFUSED 1).syncRemember h stRefused).answerIf h 0x12 stRefused 0 []
        else if 1 < fieldAt b 4 1 then ((s.popRx h.port).syncRemember h stRefused).answerIf h 0x12 stRefused 0 []
        else (((s.popRx h.port).addSync o (if fieldAt b 4 1 = 0 then 1 else BitVec.ofNat 32 (fieldAt b 8 4))).syncRemember h
          stOk).answerIf h 0x12 stOk 0 [] := by
  unfold winSync
  rw [decide_eq_true hlen, Module.gate_runs haddr hready]
  rfl
end

/-- The answer to a node's last WIN_SYNC is remembered. -/
theorem Module.mem_syncRemember (m : Module) (h : Hdr) (st : Nat) :
    ∃ x ∈ (m.syncRemember h st).syncSeen, x.node = h.src ∧ x.seq = h.seq := by
  refine ⟨⟨h.src, h.seq, BitVec.ofNat 16 st⟩, ?_, rfl, rfl⟩
  unfold Module.syncRemember
  dsimp only
  rw [List.drop_append_of_le_length (by simp)]
  simp

theorem readMeets_of_sound (hclean : m.Clean) (source a n : Nat) : m.readMeets source a n = (false, m) :=
  Module.readMeets_of_clean hclean.latent (hclean.badIn a n) source

theorem Module.answerIf_syncs (m : Module) (h : Hdr) (type status retry : Nat) (payload : List Byte) :
    (m.answerIf h type status retry payload).syncs = m.syncs := Module.answerIf_view (π := (·.syncs)) (fun _ => rfl) ..

theorem Module.answerIf_syncSeen (m : Module) (h : Hdr) (type status retry : Nat) (payload : List Byte) :
    (m.answerIf h type status retry payload).syncSeen = m.syncSeen :=
  Module.answerIf_view (π := (·.syncSeen)) (fun _ => rfl) ..

theorem Module.sync_congr (h : k.syncs = m.syncs) (o : Nat) : k.sync o = m.sync o := by
  unfold Module.sync
  rw [h]

section
variable (haddr : s.addressed h false = true) (hready : s.ready = true)

include hready in
theorem ready_on : s.boot ≠ .off := fun hoff => by
  simp [Module.ready, hoff] at hready

include haddr hready

theorem winWrite_answers (hlen : 24 ≤ b.length) (hn : b.length = 24 + fieldAt b 6 2) (hpos : 0 < fieldAt b 6 2)
    (hmax : fieldAt b 6 2 ≤ 1024) :
    (s.winCheck h (fieldAt b 0 2) (fieldAt b 2 2) .write (fieldAt b 16 8) (fieldAt b 6 2) = none → fieldAt b 4 2 % 4 = 0 →
      s.poison = [] → s.ueSectors = [] → s.latent = [] → s.gather = [] →
      s.winWaits h .write (fieldAt b 0 2) (fieldAt b 2 2) (fieldAt b 16 8) (fieldAt b 6 2) = false →
      Answers (.winWrite h b) s fun m =>
        (∀ i < fieldAt b 6 2, some (m.byte (s.expBase (fieldAt b 0 2) + fieldAt b 16 8 + i)) = b[24 + i]?) ∧
        (∀ x, x < s.expBase (fieldAt b 0 2) + fieldAt b 16 8 ∨
          s.expBase (fieldAt b 0 2) + fieldAt b 16 8 + fieldAt b 6 2 ≤ x → m.byte x = s.byte x) ∧
        m.syncs = s.syncs ∧ AnsweredIf s m h 16 0 []) ∧
    ∀ st, s.winCheck h (fieldAt b 0 2) (fieldAt b 2 2) .write (fieldAt b 16 8) (fieldAt b 6 2) = some st →
      Answers (.winWrite h b) s fun m => m.mem = s.mem ∧ m.syncs = s.syncs ∧ AnsweredIf s m h 16 st [] := by
  have hc : exec (.winWrite h b) s = ok s (winWrite h b s.toModule) := rfl
  refine ⟨fun hcheck hflags hp hu hl hg hwait => ?_, fun st hcheck => ?_⟩
  · obtain ⟨k, hk, hQ⟩ := winWritten_stores (h := h) hflags ⟨hp, hu, hl⟩ hg hn
    have hrun := winWrite_runs haddr hready hlen hn hpos hmax hwait
    rw [hcheck] at hrun
    exact .of_ok (ready_on hready) (hc.trans (congrArg (ok s) (hrun.trans hk))) hQ
  · have hwait : s.winWaits h .write (fieldAt b 0 2) (fieldAt b 2 2) (fieldAt b 16 8) (fieldAt b 6 2) = false := by
      rw [Module.winWaits, hcheck]
      rfl
    obtain ⟨k, hk, hQ⟩ := winCheck_failed (s := s) (s.popRx h.port) ⟨rfl, rfl, rfl⟩ (st = stWindowClosed) h (fieldAt b 0 2)
      (fieldAt b 2 2) 16 st
    have hrun := winWrite_runs haddr hready hlen hn hpos hmax hwait
    rw [hcheck] at hrun
    exact .of_ok (ready_on hready) (hc.trans (congrArg (ok s) (hrun.trans hk))) hQ

theorem winRead_answers (hlen : b.length = 16) (hmax : fieldAt b 4 4 ≤ 1024) :
    (s.winCheck h (fieldAt b 0 2) (fieldAt b 2 2) .read (fieldAt b 8 8) (fieldAt b 4 4) = none → s.poison = [] →
      s.ueSectors = [] → s.latent = [] →
      s.winWaits h .read (fieldAt b 0 2) (fieldAt b 2 2) (fieldAt b 8 8) (fieldAt b 4 4) = false →
      Answers (.winRead h b) s fun m => m.mem = s.mem ∧
        AnsweredIf s m h 17 0 (s.bytes (s.expBase (fieldAt b 0 2) + fieldAt b 8 8) (fieldAt b 4 4))) ∧
    ∀ st, s.winCheck h (fieldAt b 0 2) (fieldAt b 2 2) .read (fieldAt b 8 8) (fieldAt b 4 4) = some st →
      Answers (.winRead h b) s fun m => m.mem = s.mem ∧ AnsweredIf s m h 17 st [] := by
  have hc : exec (.winRead h b) s = ok s (winRead h b s.toModule) := rfl
  refine ⟨fun hcheck hp hu hl hwait => ?_, fun st hcheck => ?_⟩
  · have hrun := winRead_runs haddr hready hlen hmax hwait
    rw [hcheck] at hrun
    dsimp only at hrun
    rw [readMeets_of_sound (m := s.popRx h.port) ⟨hp, hu, hl⟩, if_neg Bool.false_ne_true] at hrun
    exact .of_ok (ready_on hready) (hc.trans (congrArg (ok s) hrun))
      ⟨Module.answerIf_view (π := (·.mem)) (fun _ => rfl) .., answeredIf_answerIf (m := s.popRx h.port) rfl 17 0 _⟩
  · have hwait : s.winWaits h .read (fieldAt b 0 2) (fieldAt b 2 2) (fieldAt b 8 8) (fieldAt b 4 4) = false := by
      rw [Module.winWaits, hcheck]
      rfl
    obtain ⟨k, hk, hmem, -, hans⟩ := winCheck_failed (s := s) (s.popRx h.port) ⟨rfl, rfl, rfl⟩ (st = stWindowClosed) h
      (fieldAt b 0 2) (fieldAt b 2 2) 17 st
    have hrun := winRead_runs haddr hready hlen hmax hwait
    rw [hcheck] at hrun
    exact .of_ok (ready_on hready) (hc.trans (congrArg (ok s) (hrun.trans hk))) ⟨hmem, hans⟩

theorem winSync_repeated (hlen : b.length = 12) {x : SyncSeen}
    (hseen : s.syncSeen.find? (fun x => x.node = h.src ∧ x.seq = h.seq) = some x) :
    Answers (.winSync h b) s fun m =>
      m.syncs = s.syncs ∧ m.syncSeen = s.syncSeen ∧ AnsweredIf s m h 18 x.status.toNat [] := by
  have hrun := winSync_runs haddr hready hlen
  rw [hseen] at hrun
  have hk : Keeps _ (s.popRx h.port) ((s.popRx h.port).count YWP_CNT_DUP 1) := Module.count_keeps ..
  dsimp only at hrun
  generalize (s.popRx h.port).count YWP_CNT_DUP 1 = k at hrun hk
  refine .of_ok (ready_on hready) ((show exec (.winSync h b) s = ok s (winSync h b s.toModule) from rfl).trans
    (congrArg (ok s) hrun)) ⟨?_, ?_, answeredIf_answerIf (hk.view (·.outbox) fun _ => rfl) 18 _ _⟩
  · exact (Module.answerIf_syncs ..).trans (hk.view (·.syncs) fun _ => rfl)
  · exact (Module.answerIf_syncSeen ..).trans (hk.view (·.syncSeen) fun _ => rfl)

/-- A state that remembers the answer, after which it is sent. -/
theorem syncRemember_answered (hk : k.outbox = s.outbox) (st : Nat) :
    ∃ m : Module, (k.syncRemember h st).answerIf h 0x12 st 0 [] = m ∧ (∃ x ∈ m.syncSeen, x.node = h.src ∧ x.seq = h.seq) ∧
      m.syncs = k.syncs ∧ AnsweredIf s m h 18 st [] := by
  refine ⟨_, rfl, ?_, (Module.answerIf_syncs ..).trans ((Module.syncRemember_keeps k h st).view (·.syncs) fun _ => rfl),
    answeredIf_answerIf
    (((Module.syncRemember_keeps k h st).view (·.outbox) fun _ => rfl).trans hk) 18 _ _⟩
  rw [Module.answerIf_syncSeen]
  exact Module.mem_syncRemember ..

theorem winSync_applied (hlen : b.length = 12) (hseen : s.syncSeen.find? (fun x => x.node = h.src ∧ x.seq = h.seq) = none)
    (hcheck : s.winCheck h (fieldAt b 0 2) (fieldAt b 2 2) .sync (fieldAt b 6 2) 0 = none) (hop : fieldAt b 4 1 ≤ 1) {o : Nat}
    (ho : s.fld (YWP_EXP_SYNC (fieldAt b 0 2)) YWP_EXP_SYNC_first + fieldAt b 6 2 = o) :
    Answers (.winSync h b) s fun m => (∃ x ∈ m.syncSeen, x.node = h.src ∧ x.seq = h.seq) ∧
      if s.owned o then m.syncs = s.syncs ∧ AnsweredIf s m h 18 3 []
      else m.sync o = s.sync o + (if fieldAt b 4 1 = 0 then 1 else BitVec.ofNat 32 (fieldAt b 8 4)) ∧
        (∀ q, q ≠ o → m.sync q = s.sync q) ∧ AnsweredIf s m h 18 0 [] := by
  have hrun := winSync_runs haddr hready hlen
  rw [hseen] at hrun
  dsimp only at hrun
  rw [hcheck, ho] at hrun
  dsimp only at hrun
  have hc := (show exec (.winSync h b) s = ok s (winSync h b s.toModule) from rfl).trans (congrArg (ok s) hrun)
  cases howned : s.owned o with
  | true =>
    rw [howned, if_pos (show true = true from rfl)] at hc
    have hk : Keeps _ (s.popRx h.port) ((s.popRx h.port).count SYN_CNT_REFUSED 1) := Module.count_keeps ..
    generalize (s.popRx h.port).count SYN_CNT_REFUSED 1 = k at hc hk
    obtain ⟨m, hm, hmem, hsync, hans⟩ := syncRemember_answered (h := h) haddr hready (hk.view (·.outbox) fun _ => rfl) stRefused
    exact .of_ok (ready_on hready) (hc.trans (congrArg (ok s) hm))
      ⟨hmem, hsync.trans (hk.view (·.syncs) fun _ => rfl), hans⟩
  | false =>
    rw [howned, if_neg Bool.false_ne_true, if_neg (by omega)] at hc
    generalize (if fieldAt b 4 1 = 0 then 1 else BitVec.ofNat 32 (fieldAt b 8 4)) = v at hc ⊢
    obtain ⟨m, hm, hmem, hsync, hans⟩ := syncRemember_answered (h := h) (k := (s.popRx h.port).addSync o v) haddr hready rfl stOk
    exact .of_ok (ready_on hready) (hc.trans (congrArg (ok s) hm)) ⟨hmem,
      (Module.sync_congr hsync o).trans (Module.sync_setSync_same ..),
      fun q hq => (Module.sync_congr hsync q).trans (Module.sync_setSync_ne _ _ hq), hans⟩
end
end

/-- Settles O45: opening and closing rest on the rule of the control register, the messages on what remains of each once its
checks are known to pass or to fail. -/
theorem exportedWindowsComplete : Obligations.ExportedWindowsComplete := by
  intro h b s
  refine ⟨fun src n ctl ha htakes => ⟨fun hclosed hopen => windowOpen_answers n ha htakes hclosed hopen,
    fun hopen hctl => windowClose_answers n ha htakes hopen hctl⟩, fun haddr hready => ⟨?_, ?_, ?_⟩⟩
  · exact fun hlen hn hpos hmax => winWrite_answers haddr hready hlen hn hpos hmax
  · exact fun hlen hmax => winRead_answers haddr hready hlen hmax
  · exact fun hlen => ⟨fun x hseen => winSync_repeated haddr hready hlen hseen,
      fun hseen hcheck hop => winSync_applied haddr hready hlen hseen hcheck hop rfl⟩
end Sys2Proof.Machine
end

section
set_option Elab.async false
/-!
The gather buffer, the scrubber, the switching on of a stack and DRAM upkeep (R290 to R296, R317, R322, R323, R340).
-/
namespace Sys2Proof.Machine
open Sys2Proof

section
variable {s : State} {m k : Module} {a : Nat} {l : List Byte}

/-! ### A narrow write to a line without an open entry -/

theorem mergeBytes_not_full {o : Nat} (hshort : l.length < 64) (hin : o + l.length ≤ 64) :
    (mergeBytes (List.replicate 64 none) o l).all Option.isSome = false := by
  have hget {i : Nat} (hi : i < 64) (hout : ¬ (o ≤ i ∧ i < o + l.length)) :
      (mergeBytes (List.replicate 64 none) o l)[i]? = some none := by
    rw [mergeBytes_getElem? _ _ _ (by simpa using hi), if_neg hout, List.getElem?_replicate, if_pos hi]
  have hnone : none ∈ mergeBytes (List.replicate 64 none) o l := by
    rcases Nat.eq_zero_or_pos o with rfl | hpos
    · exact List.mem_of_getElem? (hget hshort (by omega))
    · exact List.mem_of_getElem? (hget (i := 0) (by decide) (by omega))
  exact List.all_eq_false.2 ⟨none, hnone, Bool.false_ne_true⟩

theorem Module.narrowLine_opens (hnone : m.gather.find? (a / 64) = none) (hroom : m.gatherCount (m.stackOf a) < 64)
    (hshort : l.length < 64) (hin : a % 64 + l.length ≤ 64) : m.narrowLine a l = m.merged (m.stackOf a) a l := by
  have hevicted : m.evicted a = m := by
    unfold Module.evicted
    rw [if_neg (by simp [hnone]; omega)]
  have hbytes : m.entryBytes (a / 64) = List.replicate 64 none := by
    unfold Module.entryBytes
    rw [hnone]
  rw [Module.narrowLine_eq]
  dsimp only
  rw [hevicted, hbytes, mergeBytes_not_full hshort hin, if_neg Bool.false_ne_true]

/-- A write of less than a line, within one line of SPM. -/
theorem Module.store_narrow (hspm : a < spmSize) (hpos : 0 < l.length) (hshort : l.length < 64) (hin : a % 64 + l.length ≤ 64) :
    m.store a l = m.narrowLine a l := by
  have hne : l ≠ [] := List.length_pos_iff.1 hpos
  unfold Module.store
  rw [if_pos hspm, Nat.div_eq_of_lt hshort]
  unfold Module.spmWriteGo
  rw [if_neg (by simpa using hne)]
  dsimp only
  rw [if_neg (by omega), List.drop_of_length_le (by omega), List.take_of_length_le (by omega)]
  rfl

theorem narrowWrite_answers (hboot : s.boot ≠ .off) (hend : a + l.length ≤ spmSize) (hbusy : s.spmBusy a l.length = false)
    (hon : s.spmOff a l.length = false) (hpos : 0 < l.length) (hshort : l.length < 64) (hin : a % 64 + l.length ≤ 64)
    (hnone : s.gather.find? (a / 64) = none) (hroom : s.gatherCount (s.stackOf a) < 64) :
    Answers (.narrowWrite a l) s fun m => m.mem = s.mem ∧ (∀ i < l.length, some (m.byte (a + i)) = l[i]?) ∧
      ∀ x, x < a ∨ a + l.length ≤ x → m.byte x = s.byte x := by
  have hwritten : narrowWrite a l s.toModule = s.merged (s.stackOf a) a l := by
    unfold narrowWrite
    rw [hbusy, hon, if_neg (by simp; omega), if_neg Bool.false_ne_true,
      Module.store_narrow (by omega) hpos hshort hin, Module.narrowLine_opens hnone hroom hshort hin]
  have hlen : (s.entryBytes (a / 64)).length = 64 := by
    unfold Module.entryBytes
    rw [hnone]
    rfl
  have hstores := s.merged_stores (s.stackOf a) hlen hin
  exact .of_ok hboot (congrArg (ok s) hwritten) ⟨s.merged_mem .., fun i hi => hstores.get hi, fun x hx => hstores.out hx⟩

theorem narrowWrite_off (hboot : s.boot ≠ .off) (hend : a + l.length ≤ spmSize) (hbusy : s.spmBusy a l.length = false)
    (hoff : s.spmOff a l.length = true) :
    Answers (.narrowWrite a l) s fun m => m = { s.toModule with busStatus := 1, busValue := 0 } := by
  refine .of_ok hboot (show exec (.narrowWrite a l) s = ok s (narrowWrite a l s.toModule) from rfl) ?_
  unfold narrowWrite
  rw [hbusy, hoff, if_neg (by simp; omega)]
  rfl

theorem gatherIdleFlush_answers (hboot : s.boot ≠ .off) {line : Nat} {e : GatherEntry} (he : s.gather.find? line = some e)
    (hlen : e.bytes.length = 64) (hclean : s.Clean) :
    Answers (.gatherIdleFlush line) s fun m => m.gather.find? line = none ∧ (∀ a, m.byte a = s.byte a) ∧
      ∀ g, g ≠ line → m.gather.find? g = s.gather.find? g := by
  refine .of_ok hboot (show exec (.gatherIdleFlush line) s = ok s (s.flushLine line) from rfl) ⟨?_, fun x => ?_, fun g hg => ?_⟩
  · rw [Module.flushLine_gather, if_pos rfl]
  · refine hclean.flushLine_byte (fun e' he' => ?_) x
    rw [he] at he'
    exact Option.some.inj he' ▸ hlen
  · rw [Module.flushLine_gather, if_neg hg]

/-! ### A visit of the scrubber -/

theorem notReport_SPM_ST_CE {st : Nat} (h : st < 8) : SPM_ST_CE st ∉ reportRegs := by
  have hall : ∀ st : Fin 8, SPM_ST_CE st ∉ reportRegs := by decide
  exact hall ⟨st, h⟩

/-- The row that a visit moves on, after what it met. -/
def Module.scrubbed (m : Module) (st : Nat) (row : Nat) : Module :=
  (if row = 16383 then m.satAdd (SPM_ST_SCRUB st) SPM_ST_SCRUB_sweeps 1 else m).setFld (SPM_ST_SCRUB st) SPM_ST_SCRUB_row
    ((row + 1) % 16384)

theorem Module.scrubbed_keeps (m : Module) (st row : Nat) : Keeps Fld.regs m (m.scrubbed st row) :=
  .after (Module.setFld_keeps ..) rfl <| .ite (fun _ => (m.satAdd_keeps ..).mono rfl) fun _ => .refl

theorem Module.scrubbed_regsBut (m : Module) (st row : Nat) : Agree (Module.regsBut [SPM_ST_SCRUB st]) m (m.scrubbed st row) := by
  refine .after (Module.wr_regsBut _ _ (List.mem_singleton_self _)) ?_
  split
  · exact m.wr_regsBut _ (List.mem_singleton_self _)
  · exact .refl

theorem Module.fld_scrubbed (m : Module) (st row : Nat) :
    (m.scrubbed st row).fld (SPM_ST_SCRUB st) SPM_ST_SCRUB_row = (row + 1) % 16384 :=
  Module.fld_setFld _ _ _ _ (by decide) (by decide) (Nat.mod_lt _ (by decide))

theorem Module.meetWhere_of_none (hl : m.latent = []) (source : Nat) (hit : MemErr → Bool) : m.meetWhere source hit = m := by
  unfold Module.meetWhere
  rw [hl]
  exact congrArg (fun l => ({ m with latent := l } : Module)) hl.symm

/-- The module once the errors that wait in memory have been met. -/
def Module.unlatent (m : Module) : Module := { m with latent := [] }

theorem Module.meetWhere_single {e : MemErr} {hit : MemErr → Bool} (hl : m.latent = [e]) (he : hit e = true) (source : Nat) :
    m.meetWhere source hit = m.unlatent.meetErr source e := by
  unfold Module.meetWhere Module.unlatent
  simp [hl, he]

/-- A correctable error of SPM, where no word is poisoned. -/
theorem Module.meetErr_corrected {e : MemErr} (hspm : e.addr < spmSize) (hcorr : e.uncorrectable = false) (hp : m.poison = [])
    (source : Nat) : m.meetErr source e = m.spmCorrected e.addr := by
  have hspace : m.spaceOf e.addr = .spm := if_pos hspm
  unfold Module.meetErr
  rw [hspace, hp, hcorr]
  rfl

theorem Module.rd_spmCorrected {st : Nat} (hstack : m.stackOf a = st) :
    (m.spmCorrected a).rd (SPM_ST_CE st) = (m.count (SPM_ST_CE st) 1).rd (SPM_ST_CE st) := by
  subst hstack
  have hlt := m.stackOf_lt a
  have hflt : ((m.count (SPM_ST_CE (m.stackOf a)) 1).countFault 4).rd (SPM_ST_CE (m.stackOf a)) =
      (m.count (SPM_ST_CE (m.stackOf a)) 1).rd (SPM_ST_CE (m.stackOf a)) :=
    Module.rd_wr_ne _ _ (by unfold SPM_ST_CE SYS_FLT_CNT; omega)
  unfold Module.spmCorrected
  dsimp only
  split
  · rw [Module.rd_raise _ _ _ _ _ _ (notReport_SPM_ST_CE hlt), hflt]
  · exact hflt

theorem scrubVisit_runs (st : Fin 8) (errs : List MemErr) (hen : m.bit SPM_SCRUB_CFG SPM_SCRUB_CFG_en = true)
    (hon : m.spmOn st = true) (hstate : m.fld (SPM_ST_STAT st) SPM_ST_STAT_state = 2) : scrubVisit st errs m =
      ((m.upset errs).meetWhere 4 fun e => e.addr < spmSize && m.stackOf e.addr = st.val &&
        rowOf (e.addr % 2 ^ 26) = m.fld (SPM_ST_SCRUB st) SPM_ST_SCRUB_row).scrubbed st (m.fld (SPM_ST_SCRUB st) SPM_ST_SCRUB_row) := by
  unfold scrubVisit
  rw [if_pos (by simp [hen, hon, hstate])]
  rfl

section
variable (hboot : s.boot ≠ .off) (st : Fin 8) (hen : s.bit SPM_SCRUB_CFG SPM_SCRUB_CFG_en = true) (hon : s.spmOn st = true)
  (hstate : s.fld (SPM_ST_STAT st) SPM_ST_STAT_state = 2) (hl : s.latent = [])
include hboot hen hon hstate hl

theorem scrubVisit_clean : Answers (.scrubVisit st []) s fun m =>
    m.fld (SPM_ST_SCRUB st) SPM_ST_SCRUB_row = (s.fld (SPM_ST_SCRUB st) SPM_ST_SCRUB_row + 1) % 16384 ∧
    OnlyRegs s m [SPM_ST_SCRUB st] := by
  have hupset : s.upset [] = s.toModule := by
    unfold Module.upset
    rw [List.append_nil]
  have hrun := scrubVisit_runs st [] hen hon hstate
  rw [hupset, Module.meetWhere_of_none hl] at hrun
  refine .of_ok hboot (congrArg (ok s) hrun) ⟨Module.fld_scrubbed .., onlyRegs_of ?_ (Module.scrubbed_keeps ..) rfl⟩
  exact Agree.regsBut_mono (Module.scrubbed_regsBut ..) (by simp)

/-- A visit that meets one correctable error of its row. -/
theorem scrubVisit_corrects {e : MemErr} (hspm : e.addr < spmSize) (hcorr : e.uncorrectable = false)
    (hstack : s.stackOf e.addr = st.val) (hrow : rowOf (e.addr % 2 ^ 26) = s.fld (SPM_ST_SCRUB st) SPM_ST_SCRUB_row)
    (hp : s.poison = []) : Answers (.scrubVisit st [e]) s fun m =>
      (m.rd (SPM_ST_CE st)).toNat = min ((s.rd (SPM_ST_CE st)).toNat + 1) 0xFFFFFFFF ∧ m.latent = [] ∧ m.poison = [] ∧
      (∀ a, m.byte a = s.byte a) := by
  have hrun := scrubVisit_runs st [e] hen hon hstate
  have hlatent : (s.upset [e]).latent = [e] := by
    unfold Module.upset
    rw [hl, List.nil_append]
  have hhit : (decide (e.addr < spmSize) && decide (s.stackOf e.addr = st.val) &&
      decide (rowOf (e.addr % 2 ^ 26) = s.fld (SPM_ST_SCRUB st) SPM_ST_SCRUB_row)) = true := by
    rw [hrow, hstack, decide_eq_true hspm, decide_eq_true rfl, decide_eq_true rfl]
    rfl
  rw [Module.meetWhere_single hlatent hhit, Module.meetErr_corrected (m := (s.upset [e]).unlatent) hspm hcorr hp] at hrun
  have hk := Module.spmCorrected_keeps (s.upset [e]).unlatent e.addr
  have hce : ((s.upset [e]).unlatent.spmCorrected e.addr).rd (SPM_ST_CE st) = (s.count (SPM_ST_CE st) 1).rd (SPM_ST_CE st) :=
    (Module.rd_spmCorrected (m := (s.upset [e]).unlatent) hstack).trans (Module.rd_congr rfl _)
  generalize (s.upset [e]).unlatent.spmCorrected e.addr = k at hrun hk hce
  have hregs := k.scrubbed_keeps st (s.fld (SPM_ST_SCRUB st) SPM_ST_SCRUB_row)
  have hne : SPM_ST_CE st ∉ [SPM_ST_SCRUB st] := by
    rw [List.mem_singleton]
    unfold SPM_ST_CE SPM_ST_SCRUB
    omega
  refine .of_ok hboot (congrArg (ok s) hrun) ⟨?_, ?_, ?_, fun x => ?_⟩
  · rw [Agree.rd (Module.scrubbed_regsBut ..) hne, hce, Module.rd_count_same_toNat]
  · exact (hregs.view (·.latent) fun _ => rfl).trans (hk.view (·.latent) fun _ => rfl)
  · exact (hregs.view (·.poison) fun _ => rfl).trans ((hk.view (·.poison) fun _ => rfl).trans hp)
  · exact (hregs.view (·.byte x) fun _ => rfl).trans (hk.view (·.byte x) fun _ => rfl)
end

/-! ### Switching a stack on, and DRAM -/

/-- Without a move on its way no descriptor goes on. -/
theorem Module.dmaGoOn_of_none (hch : ∀ ch, (m.chan ch).phase ≠ .moving) (hmc : m.mcSend = []) : m.dmaGoOn = m := by
  unfold Module.dmaGoOn
  have hfold (l : List (Fin 64)) : l.foldl (fun (m : Module) ch =>
      if (m.chan ch.val).phase = .moving && !(m.chan ch.val).paced then m.dmaGo ch none else m) m = m := by
    refine List.foldlRecOn (motive := fun k : Module => k = m) _ _ rfl fun k hk ch _ => ?_
    subst hk
    simp [hch ch]
  dsimp only
  rw [hfold, hmc]
  rfl

/-- Without a transfer that waits no position has one to issue. -/
theorem Module.pumpAll_of_none
    (he : ∀ e t, (m.eng e).task = some t → t.writes = [] ∧ ∀ x ∈ t.tiles, x.todo = []) : m.pumpAll = m := by
  have hpump (fuel : Nat) (e : EngPos) : m.pump fuel e = m := by
    cases fuel with
    | zero => rfl
    | succ fuel =>
      unfold Module.pump
      split
      · rfl
      · next t ht => rw [(he e t ht).1]
  have hreads (fuel : Nat) (e : EngPos) : m.pumpReads fuel e = m := by
    cases fuel with
    | zero => unfold Module.pumpReads; rfl
    | succ fuel =>
      unfold Module.pumpReads
      split
      · rfl
      · rfl
      · next t _ ht =>
        rw [List.find?_eq_none.2 fun x hx => by simp [(he e _ ht).2 x hx]]
  unfold Module.pumpAll
  refine List.foldlRecOn (motive := fun k : Module => k = m) _ _ rfl fun k hk x _ => ?_
  subst hk
  split
  · rfl
  · dsimp only
    rw [hpump, hreads]

theorem Module.zeroStack_byte (m : Module) (st : Nat) (hg : m.gathered a = none) :
    (m.zeroStack st).byte a = if a < spmSize ∧ m.stackOf a = st then 0 else m.byte a := by
  have hg' : (m.zeroStack st).gathered a = none := hg
  rw [Module.byte_of_ungathered hg', Module.byte_of_ungathered hg]
  unfold Module.bank SMap.get Module.zeroStack
  dsimp only
  split
  · next h =>
    rw [SMap.find?_filter_none _ (fun c => decide (spmSize ≤ c) || decide (m.stackOf c ≠ st)) _ (by simp [h.1, h.2])]
    rfl
  · next h =>
    rw [SMap.find?_filter _ (fun c => decide (spmSize ≤ c) || decide (m.stackOf c ≠ st)) _ (by simp; omega)]

theorem stackZeroingDone_answers (hboot : s.boot ≠ .off) (st : Fin 8) (hon : s.spmOn st = true)
    (hstate : s.fld (SPM_ST_STAT st) SPM_ST_STAT_state = 1) (hrun : s.entersRun = false)
    (hch : ∀ ch, (s.chan ch).phase ≠ .moving) (hmc : s.mcSend = [])
    (he : ∀ e t, (s.eng e).task = some t → t.writes = [] ∧ ∀ x ∈ t.tiles, x.todo = []) :
    Answers (.stackZeroingDone st) s fun m => m.fld (SPM_ST_STAT st) SPM_ST_STAT_state = 2 ∧
      ∀ a, s.gathered a = none → m.byte a = if a < spmSize ∧ s.stackOf a = st.val then 0 else s.byte a := by
  have hdone : stackZeroingDone st s.toModule = (s.zeroStack st).setFld (SPM_ST_STAT st) SPM_ST_STAT_state 2 := by
    unfold stackZeroingDone Module.rampSpm
    dsimp only
    rw [hrun, if_neg Bool.false_ne_true, if_pos (by simp [hon, hstate]), Module.dmaGoOn_of_none, Module.pumpAll_of_none]
    · exact he
    · exact hch
    · exact hmc
  refine .of_ok hboot (congrArg (ok s) hdone) ⟨?_, fun a hg => ?_⟩
  · exact Module.fld_setFld _ _ _ _ (by decide) (by decide) (by decide)
  · exact ((Module.setFld_keeps ..).view (·.byte a) fun _ => rfl).trans (s.zeroStack_byte st hg)

theorem dramSlotAdvance_answers (hboot : s.boot ≠ .off) (ch : Fin 16) (by_ : Option SlotShare) (hon : s.dramOn = true) :
    Answers (.dramSlotAdvance ch by_) s fun m =>
      SMap.get 0 m.wheel ch.val = (SMap.get 0 s.wheel ch.val + 1) % 10 ∧
      (∀ q, q ≠ ch.val → SMap.get 0 m.wheel q = SMap.get 0 s.wheel q) ∧
      m.rd (DDR_CH_SLOTS ch) = (if by_ = some (slotShare (SMap.get 0 s.wheel ch.val)) then s.rd (DDR_CH_SLOTS ch)
        else s.rd (DDR_CH_SLOTS ch) + 1) ∧
      { m with wheel := [], regs := [] } = { s.toModule with wheel := [], regs := [] } := by
  have hrun : dramSlotAdvance ch by_ s.toModule = if by_ = some (slotShare (SMap.get 0 s.wheel ch.val)) then
      { s.toModule with wheel := SMap.set 0 s.wheel ch.val ((SMap.get 0 s.wheel ch.val + 1) % 10) }
    else { s.toModule with wheel := SMap.set 0 s.wheel ch.val ((SMap.get 0 s.wheel ch.val + 1) % 10) }.wr (DDR_CH_SLOTS ch)
      (s.rd (DDR_CH_SLOTS ch) + 1) := by
    unfold dramSlotAdvance
    rw [hon]
    rfl
  split at hrun
  · next hby =>
    refine .of_ok hboot (congrArg (ok s) hrun) ⟨SMap.get_set_same .., fun q hq => SMap.get_set_ne _ _ _ _ hq, ?_, rfl⟩
    rw [if_pos hby]
    rfl
  · next hby =>
    refine .of_ok hboot (congrArg (ok s) hrun) ⟨SMap.get_set_same .., fun q hq => SMap.get_set_ne _ _ _ _ hq, ?_, rfl⟩
    rw [if_neg hby]
    exact Module.rd_wr_same ..
end

/-- Settles O30. -/
theorem memoryUpkeepCompletes : Obligations.MemoryUpkeepCompletes := by
  refine ⟨fun s hboot => ⟨?_, ?_, ?_, ?_, ?_⟩, fun ch bank s hboot => ⟨?_, ?_⟩⟩
  · exact fun addr l hend hbusy hoff => narrowWrite_off hboot hend hbusy hoff
  · exact fun addr l hend hbusy hon hpos hshort hin hnone hroom =>
      narrowWrite_answers hboot hend hbusy hon hpos hshort hin hnone hroom
  · exact fun line e he hlen hp hu hl => gatherIdleFlush_answers hboot he hlen ⟨hp, hu, hl⟩
  · exact fun st hen hon hstate hl => ⟨scrubVisit_clean hboot st hen hon hstate hl,
      fun e hspm hcorr hstack hrow hp => scrubVisit_corrects hboot st hen hon hstate hl hspm hcorr hstack hrow hp⟩
  · exact fun st hon hstate hrun hch hmc he => stackZeroingDone_answers hboot st hon hstate hrun hch hmc he
  · exact fun by_ hon => dramSlotAdvance_answers hboot ch by_ hon
  · exact ⟨ok_on _ _ hboot, ok_on _ _ hboot, ok_on _ _ hboot⟩
end Sys2Proof.Machine
end

section
set_option Elab.async false
/-!
FILL and COPY (R286 to R288, R308, R310).
-/
namespace Sys2Proof.Machine
open Sys2Proof

section
variable {s : State} {m k : Module} {h : CmdHdr} {op : Nat} {operands : List Byte → Bool} {x : Session}
  {copy : Bool} {dst src : Word} {off len pat : W64} {wo so : W16} {thr : Word}

/-! ### The check at the take of an entry -/

theorem objForm_iff {n : Nat} (hn : n < 65536) : objForm (BitVec.ofNat 16 n) = true ↔ n < 8192 ∨ n = 0xFFFF := by
  have htoNat : (BitVec.ofNat 16 n).toNat = n := by rw [BitVec.toNat_ofNat, Nat.mod_eq_of_lt hn]
  unfold objForm
  rw [Bool.or_eq_true, decide_eq_true_iff, decide_eq_true_iff, htoNat, ← BitVec.toNat_inj, htoNat]
  rfl

theorem Module.fillCheck_eq_zero_iff (s : State) (copy : Bool) (b : List Byte) : s.fillCheck copy b = 0 ↔ FillFits s copy b := by
  have hsrc : (if copy then BitVec.ofNat 32 (fieldAt b 12 4) else BitVec.ofNat 32 (fieldAt b 8 4)) =
      BitVec.ofNat 32 (fieldAt b (if copy then 12 else 8) 4) := by cases copy <;> rfl
  have hobj (o : Nat) : objForm (BitVec.ofNat 16 (fieldAt b o 2)) = true ↔ fieldAt b o 2 < 8192 ∨ fieldAt b o 2 = 0xFFFF :=
    objForm_iff (fieldAt_lt b o 2)
  unfold Module.fillCheck FillFits
  dsimp only
  rw [hsrc]
  cases hd : s.spmRegion? (BitVec.ofNat 32 (fieldAt b 8 4)) with
  | none => simp [stRefused]
  | some d =>
    cases hr : s.spmRegion? (BitVec.ofNat 32 (fieldAt b (if copy then 12 else 8) 4)) with
    | none => simp [stRefused]
    | some r =>
      have hform (c : Prop) [Decidable c] (e : Prop) [Decidable e] :
          (if c then stRefused else if e then stRegionOverflow else stOk) = 0 ↔ ¬ c ∧ ¬ e := by
        by_cases hc : c <;> by_cases he : e <;> simp [hc, he, stRefused, stRegionOverflow, stOk]
      dsimp only
      rw [hform]
      simp only [Option.some.injEq, ↓existsAndEq, true_and, Bool.or_eq_true, Bool.and_eq_true, Bool.not_eq_true',
        decide_eq_true_eq, not_or, not_and, ← Bool.not_eq_true, hobj, Region.holds, List.mem_cons, List.not_mem_nil, or_false,
        forall_eq_or_imp, forall_eq]
      cases copy <;> simp only [Bool.false_eq_true, false_implies, forall_const, not_not, ne_eq, and_true, true_and,
        or_iff_not_imp_left, and_assoc]

/-! ### The start of a command -/

theorem StartableRun.answers (hst : StartableRun s h op operands x) {c : Instr} {f : CmdRef → Module → Module}
    (hexec : exec c s = ok s (s.toModule.commandRun h op operands f)) {Q : Module → Prop}
    (hQ : Q (f ⟨h.session, x.gen, h.tag, BitVec.ofNat 8 op⟩ (s.toModule.begun h op x))) : Answers c s Q := by
  obtain ⟨hstart, hpower, hmoving⟩ := hst
  refine hstart.answers (hexec.trans (congrArg (ok s) ?_)) hQ
  unfold Module.commandRun
  rw [hmoving, if_neg Bool.false_ne_true, if_pos hpower]

theorem Module.fillCommand_eq {t : Taken} (ht : m.toStart h (BitVec.ofNat 8 op) = some t) (hturn : m.fillTurn t = true)
    (f : Nat → CmdRef → Module → Module) : m.fillCommand h op operands f = m.commandRun h op operands (f t.check) := by
  unfold Module.fillCommand
  rw [ht]
  exact if_pos hturn

theorem Module.fillQueue_setFills (m : Module) (st : Nat) (l : List FillCmd) : (m.setFills st l).fillQueue st = l := by
  unfold Module.fillQueue Module.setFills
  cases l with
  | nil => exact congrArg (Option.getD · []) (SMap.find?_erase_same ..)
  | cons f t => exact congrArg (Option.getD · []) (SMap.find?_insert_same ..)

theorem Module.complete_fills (m : Module) (c : CmdRef) (status result : Nat) : (m.complete c status result).fills = m.fills :=
  (Module.complete_keeps ..).view (·.fills) fun _ => rfl

theorem Module.fillQueue_congr (hf : k.fills = m.fills) (st : Nat) : k.fillQueue st = m.fillQueue st := by
  unfold Module.fillQueue
  rw [hf]

/-- A command whose check failed, or that has nothing to write, completes without a store. -/
theorem fillStart_completes {check status : Nat} (hcheck : check ≠ 0 ∧ status = check ∨ check = 0 ∧ len = 0 ∧ so = 0xFFFF ∧ status = 0) :
    fillStart copy dst src off len pat wo so thr check ⟨h.session, x.gen, h.tag, BitVec.ofNat 8 op⟩ (s.toModule.begun h op x) =
      (s.toModule.begun h op x).complete ⟨h.session, x.gen, h.tag, BitVec.ofNat 8 op⟩ status 0 := by
  unfold fillStart
  rcases hcheck with ⟨hne, rfl⟩ | ⟨rfl, rfl, rfl, rfl⟩
  · exact if_pos hne
  · rfl

/-- What a FILL or COPY that passed its check puts at the end of its stack's queue. -/
def fillEntry (c : CmdRef) (copy : Bool) (dst src : Word) (d r : Region) (off len pat : W64) (wo so : W16) (thr : Word) : FillCmd :=
  ⟨c, copy, dst, if copy then src else dst, d.base + off.toNat, r.base + pat.toNat, len.toNat, pat, wo, thr, so, false, false, 0,
    false⟩

theorem fillStart_queues {d r : Region} (hlen : len ≠ 0) (hd : s.spmRegion? dst = some d)
    (hr : s.spmRegion? (if copy then src else dst) = some r) (c : CmdRef) :
    fillStart copy dst src off len pat wo so thr 0 c (s.toModule.begun h op x) =
      (s.toModule.begun h op x).setFills (d.base / 2 ^ 26)
        (s.fillQueue (d.base / 2 ^ 26) ++ [fillEntry c copy dst src d r off len pat wo so thr]) := by
  have hd' : (s.toModule.begun h op x).spmRegion? dst = some d := hd
  have hr' : (if copy then (s.toModule.begun h op x).spmRegion? src else (s.toModule.begun h op x).spmRegion? dst) = some r := by
    cases copy <;> exact hr
  unfold fillStart
  rw [if_neg (fun hne => hne rfl), if_neg hlen, hr', hd']
  rfl

section
variable {c : Instr} {t : Taken} (hst : StartableRun s h op operands x) (ht : s.toStart h (BitVec.ofNat 8 op) = some t)
  (hturn : s.fillTurn t = true)
  (hexec : exec c s = ok s (s.toModule.fillCommand h op operands (fillStart copy dst src off len pat wo so thr)))
include hst ht hturn hexec

theorem fill_completes {status : Nat}
    (hcheck : t.check ≠ 0 ∧ status = t.check ∨ t.check = 0 ∧ len = 0 ∧ so = 0xFFFF ∧ status = 0) :
    Answers c s fun m => Completes m h op x status 0 ∧ m.mem = s.mem ∧ m.syncs = s.syncs ∧ m.fills = s.fills := by
  rw [Module.fillCommand_eq ht hturn] at hexec
  refine hst.answers hexec ?_
  rw [fillStart_completes hcheck]
  exact ⟨completes_of_begun s.toModule rfl .., Module.complete_mem .., Module.complete_syncs .., Module.complete_fills ..⟩

theorem fill_queues {d r : Region} (hcheck : t.check = 0) (hlen : len ≠ 0) (hd : s.spmRegion? dst = some d)
    (hr : s.spmRegion? (if copy then src else dst) = some r) : Answers c s fun m => Underway m h op ∧ m.mem = s.mem ∧
      m.fillQueue (d.base / 2 ^ 26) = s.fillQueue (d.base / 2 ^ 26) ++
        [fillEntry ⟨h.session, x.gen, h.tag, BitVec.ofNat 8 op⟩ copy dst src d r off len pat wo so thr] := by
  rw [Module.fillCommand_eq ht hturn] at hexec
  refine hst.answers hexec ?_
  rw [hcheck, fillStart_queues hlen hd hr]
  exact ⟨hst.1.underway rfl, rfl, Module.fillQueue_setFills ..⟩
end

/-! ### Writing -/

theorem length_leBytes (n v : Nat) : (leBytes n v).length = n := by
  unfold leBytes
  simp

theorem flatMap_const_getElem? {α : Type} (p : List α) (n i : Nat) (hi : i < n * p.length) :
    ((List.range n).flatMap fun _ => p)[i]? = p[i % p.length]? := by
  induction n with
  | zero => omega
  | succ n ih =>
    have hlen : ((List.range n).flatMap fun _ => p).length = n * p.length := by simp
    rw [List.range_succ, List.flatMap_append]
    by_cases h : i < n * p.length
    · rw [List.getElem?_append_left (by rwa [hlen]), ih h]
    · have hlt : i - n * p.length < p.length := by rw [Nat.add_mul, Nat.one_mul] at hi; omega
      have hmod : i % p.length = i - n * p.length := by
        obtain ⟨j, rfl⟩ : ∃ j, i = n * p.length + j := ⟨i - n * p.length, by omega⟩
        rw [Nat.mul_add_mod', Nat.mod_eq_of_lt (by omega), Nat.add_sub_cancel_left]
      rw [List.getElem?_append_right (by omega), hlen, hmod]
      simp

theorem patternBytes_length {n : Nat} (hn : n % 8 = 0) (p : W64) : (patternBytes p n).length = n := by
  unfold patternBytes
  simp only [List.length_flatMap, length_leBytes, List.map_const', List.length_range, List.sum_replicate, smul_eq_mul]
  omega

theorem patternBytes_getElem? {n i : Nat} (hi : i < n) (hn : n % 8 = 0) (p : W64) :
    (patternBytes p n)[i]? = (leBytes 8 p.toNat)[i % 8]? := by
  unfold patternBytes
  rw [flatMap_const_getElem? _ _ _ (by rw [length_leBytes]; omega), length_leBytes]

/-- The bytes that a started command writes. -/
def Module.fillBytes (m : Module) (f : FillCmd) : List Byte :=
  if f.copy then m.bytes f.srcAddr f.len else patternBytes f.pattern f.len

theorem Module.Clean.fillWrite_eq (hm : m.Clean) (f : FillCmd) :
    m.fillWrite f = (stOk, m.write f.dstAddr (m.fillBytes f)) := by
  unfold Module.fillWrite Module.fillBytes
  split
  · rw [hm.meet]
    dsimp only
    rw [hm.badIn]
    rfl
  · rfl

theorem Module.bytes_getElem? (m : Module) (a : Nat) {n i : Nat} (hi : i < n) : (m.bytes a n)[i]? = some (m.byte (a + i)) := by
  unfold Module.bytes
  rw [List.getElem?_map, List.getElem?_range hi]
  rfl

theorem Module.fillBytes_length (m : Module) {f : FillCmd} (hlen : f.copy = false → f.len % 8 = 0) :
    (m.fillBytes f).length = f.len := by
  unfold Module.fillBytes
  split
  · simp [Module.bytes]
  · next hc => exact patternBytes_length (hlen (by simpa using hc)) _

theorem fillCopyWriteStart_answers {st : Fin 8} {f : FillCmd} {q : List FillCmd} (hboot : s.boot ≠ .off)
    (hq : s.fillQueue st = f :: q) (hwriting : f.writing = false)
    (hmeets : f.waitObj = 0xFFFF ∨ meets (s.sync f.waitObj.toNat) f.waitThr = true) (hclean : s.Clean)
    (hbusy : s.fillBusy f = false) : Answers (.fillCopyWriteStart st) s fun m =>
      m.fillQueue st = { f with writing := true, status := 0 } :: q ∧ m.syncs = s.syncs ∧
      (f.copy = false → f.len % 8 = 0 → ∀ i < f.len, m.byte (f.dstAddr + i) = (leBytes 8 f.pattern.toNat)[i % 8]?.getD 0) ∧
      (f.copy = true → ∀ i < f.len, m.byte (f.dstAddr + i) = s.byte (f.srcAddr + i)) ∧
      ((∀ g e, s.gather.find? g = some e → g * 64 + 64 ≤ f.dstAddr ∨ f.dstAddr + f.len ≤ g * 64) →
        ∀ a, a < f.dstAddr ∨ f.dstAddr + f.len ≤ a → (f.copy = false → f.len % 8 = 0) → m.byte a = s.byte a) := by
  have hrun : fillCopyWriteStart st s.toModule = (s.write f.dstAddr (s.fillBytes f)).setFills st
      ({ f with writing := true, status := 0 } :: q) := by
    unfold fillCopyWriteStart
    rw [hq]
    dsimp only
    rw [if_pos (by simpa [hwriting, hbusy] using hmeets), hclean.fillWrite_eq]
    rfl
  have hbyte (x : Nat) : ((s.write f.dstAddr (s.fillBytes f)).setFills st
      ({ f with writing := true, status := 0 } :: q)).byte x = (s.write f.dstAddr (s.fillBytes f)).byte x := rfl
  have hsync : (s.write f.dstAddr (s.fillBytes f)).syncs = s.syncs := (hclean.write_keeps ..).view (·.syncs) fun _ => rfl
  have hin (hlen : f.copy = false → f.len % 8 = 0) {i : Nat} (hi : i < f.len) :
      (s.write f.dstAddr (s.fillBytes f)).byte (f.dstAddr + i) = (s.fillBytes f)[i]?.getD 0 := by
    have hl := s.fillBytes_length hlen
    rw [hclean.write_byte_in (by omega) (by omega), Nat.add_sub_cancel_left]
  refine .of_ok hboot (congrArg (ok s) hrun) ⟨Module.fillQueue_setFills .., hsync, ?_, ?_, ?_⟩
  · intro hc hlen i hi
    rw [hbyte, hin (fun _ => hlen) hi, Module.fillBytes, if_neg (by simp [hc]), patternBytes_getElem? hi hlen]
  · intro hc i hi
    rw [hbyte, hin (by simp [hc]) hi, Module.fillBytes, if_pos hc, Module.bytes_getElem? _ _ hi]
    rfl
  · intro hapart a ha hlen
    have hl := s.fillBytes_length hlen
    rw [hbyte, hclean.write_byte_out (by omega), hl, Module.flushSpan_of_apart hapart]

/-! ### The end of a command -/

/-- The completion of a command that still has its session. -/
theorem completesRef_complete {c : CmdRef} (hs : k.sessions = s.sessions) (status result : Nat) :
    CompletesRef s (k.complete c status result) c status result := by
  intro y hy hgen
  have hy' : k.sessions.find? c.session.val = some y := by rw [hs, hy]
  have hc := Module.complete_completes (m := k) (h := ⟨c.session, c.tag, false⟩) hy' c.opcode.toNat status result
  rw [BitVec.ofNat_toNat, BitVec.setWidth_eq, hgen] at hc
  exact hc

theorem Module.complWaits_congr (hs : k.sessions = m.sessions) (hcp : k.cpHalted = m.cpHalted) (c : CmdRef) :
    k.complWaits c = m.complWaits c := by
  unfold Module.complWaits Module.cmdSession
  rw [hs, hcp]

/-- The queue of a stack once the command at its front has ended. -/
def Module.fillsLeft (m : Module) (f : FillCmd) (q : List FillCmd) : List FillCmd :=
  if m.complWaits f.cmd then { f with writing := true, finished := true } :: q else q

theorem endFill_ends {st : Nat} {f : FillCmd} {q : List FillCmd} (hs : k.sessions = s.sessions) (hcp : k.cpHalted = s.cpHalted)
    (hmem : k.mem = s.mem) (status : Nat) : (k.endFill st f q status).mem = s.mem ∧
      (k.endFill st f q status).fillQueue st = s.fillsLeft f q ∧ CompletesRef s (k.endFill st f q status) f.cmd status 0 := by
  unfold Module.endFill Module.fillsLeft
  rw [Module.complWaits_congr hs hcp]
  refine ⟨(Module.complete_mem ..).trans hmem, ?_, completesRef_complete (k := k.setFills st _) hs status 0⟩
  rw [Module.fillQueue_congr (Module.complete_fills ..)]
  exact Module.fillQueue_setFills ..

theorem Module.endFill_syncs (m : Module) (st : Nat) (f : FillCmd) (q : List FillCmd) (status : Nat) :
    (m.endFill st f q status).syncs = m.syncs := Module.complete_syncs ..

theorem Module.endFill_rd (m : Module) (st : Nat) (f : FillCmd) (q : List FillCmd) (status off : Nat) :
    (m.endFill st f q status).rd off = m.rd off := Module.complete_rd ..

theorem fillCopyWaitTimeout_answers {st : Fin 8} {f : FillCmd} {q : List FillCmd} (hboot : s.boot ≠ .off)
    (hq : s.fillQueue st = f :: q) (hwriting : f.writing = false) (hobj : f.waitObj ≠ 0xFFFF)
    (hmeets : meets (s.sync f.waitObj.toNat) f.waitThr = false) : Answers (.fillCopyWaitTimeout st) s fun m =>
      m.fillQueue st = s.fillsLeft f q ∧ m.mem = s.mem ∧ m.syncs = s.syncs ∧
      (m.rd SYN_CNT_TIMEOUT).toNat = min ((s.rd SYN_CNT_TIMEOUT).toNat + 1) 0xFFFFFFFF ∧ CompletesRef s m f.cmd 6 0 := by
  have hrun : fillCopyWaitTimeout st s.toModule = (s.count SYN_CNT_TIMEOUT 1).endFill st f q stWaitTimeout := by
    unfold fillCopyWaitTimeout
    rw [hq]
    exact if_pos (by rw [hwriting, hmeets, decide_eq_true hobj]; rfl)
  obtain ⟨hmem, hqueue, hcompl⟩ := endFill_ends (s := s) (k := s.count SYN_CNT_TIMEOUT 1) (st := st) (f := f) (q := q) rfl rfl rfl
    stWaitTimeout
  refine .of_ok hboot (congrArg (ok s) hrun) ⟨hqueue, hmem, Module.endFill_syncs .., ?_, hcompl⟩
  rw [Module.endFill_rd, Module.rd_count_same_toNat]

theorem fillCopyDone_answers {st : Fin 8} {f : FillCmd} {q : List FillCmd} (hboot : s.boot ≠ .off)
    (hq : s.fillQueue st = f :: q) (hwriting : f.writing = true) (hfin : f.finished = false) (hstatus : f.status = 0) :
    Answers (.fillCopyDone st) s fun m => m.mem = s.mem ∧ CompletesRef s m f.cmd 0 0 ∧ m.fillQueue st = s.fillsLeft f q ∧
      (f.sigObj ≠ 0xFFFF → s.owned f.sigObj.toNat = false → m.sync f.sigObj.toNat = s.sync f.sigObj.toNat + 1 ∧
        ∀ o, o ≠ f.sigObj.toNat → m.sync o = s.sync o) ∧
      (f.sigObj ≠ 0xFFFF → s.owned f.sigObj.toNat = true → m.syncs = s.syncs) := by
  have hrun : fillCopyDone st s.toModule =
      (if f.sigObj ≠ 0xFFFF then s.lostCycles.guestAdd f.sigObj.toNat 1 else s.lostCycles).endFill st f q 0 := by
    unfold fillCopyDone
    rw [hq]
    simp [hwriting, hfin, hstatus, stOk]
  have hlost : Keeps _ s.toModule s.lostCycles := Module.lostCycles_keeps ..
  have howned : s.lostCycles.owned f.sigObj.toNat = s.owned f.sigObj.toNat :=
    hlost.view (·.owned f.sigObj.toNat) fun _ => rfl
  have hsync (o : Nat) : s.lostCycles.sync o = s.sync o := hlost.view (·.sync o) fun _ => rfl
  have hsyncs : s.lostCycles.syncs = s.syncs := hlost.view (·.syncs) fun _ => rfl
  have hk : Keeps _ s.toModule (if f.sigObj ≠ 0xFFFF then s.lostCycles.guestAdd f.sigObj.toNat 1 else s.lostCycles) :=
    .ite (fun _ => .after (Module.guestAdd_keeps ..) rfl (hlost.mono (G := Fld.regs ||| Fld.draws ||| Fld.syncs) rfl)) fun _ => hlost.mono rfl
  obtain ⟨hmem, hqueue, hcompl⟩ := endFill_ends (s := s) (st := st) (f := f) (q := q) (hk.view (·.sessions) fun _ => rfl)
    (hk.view (·.cpHalted) fun _ => rfl) (hk.view (·.mem) fun _ => rfl) 0
  refine .of_ok hboot (congrArg (ok s) hrun) ⟨hmem, hcompl, hqueue, fun hobj hown => ?_, fun hobj hown => ?_⟩
  · have hadd : (if f.sigObj ≠ 0xFFFF then s.lostCycles.guestAdd f.sigObj.toNat 1 else s.lostCycles) =
        s.lostCycles.addSync f.sigObj.toNat 1 := by
      rw [if_pos hobj, Module.guestAdd, howned, hown, if_neg Bool.false_ne_true]
    rw [hadd]
    refine ⟨?_, fun o ho => ?_⟩
    · rw [Module.sync_congr (Module.endFill_syncs ..), ← hsync]
      exact Module.sync_setSync_same ..
    · rw [Module.sync_congr (Module.endFill_syncs ..), ← hsync o]
      exact Module.sync_setSync_ne _ _ ho
  · have hsame : (if f.sigObj ≠ 0xFFFF then s.lostCycles.guestAdd f.sigObj.toNat 1 else s.lostCycles).syncs = s.syncs := by
      rw [if_pos hobj, Module.guestAdd, howned, hown, if_pos rfl, ← hsyncs]
      rfl
    exact (Module.endFill_syncs ..).trans hsame
end

/-- Settles O29: the check is an equivalence, a command in its turn completes or joins its queue, and what the front of a queue
writes is read back. -/
theorem fillAndCopyComplete : Obligations.FillAndCopyComplete := by
  intro h x s
  refine ⟨Module.fillCheck_eq_zero_iff s, ?_, ?_, ?_, ?_, ?_⟩
  · intro dst off len pat wo so thr tmo t hst ht hturn
    have hexec : exec (.fill h dst off len pat wo so thr tmo) s = ok s (s.toModule.fillCommand h 9
        (entryHas (fillOperands dst off len pat wo so thr tmo)) (fillStart false dst 0 off len pat wo so thr)) := rfl
    refine ⟨fun hcheck => ?_, fun hcheck hlen hso => ?_, fun d hcheck hlen hd => ?_⟩
    · exact fill_completes hst ht hturn hexec (.inl ⟨hcheck, rfl⟩)
    · exact (fill_completes hst ht hturn hexec (.inr ⟨hcheck, hlen, hso, rfl⟩)).imp fun m ⟨hc, hmem, _, hf⟩ => ⟨hc, hmem, hf⟩
    · refine (fill_queues hst ht hturn hexec hcheck hlen hd hd).imp fun m ⟨hu, hmem, hq⟩ => ⟨hu, hmem, _, hq, ?_⟩
      exact ⟨rfl, rfl, rfl, rfl, rfl, rfl, rfl, rfl⟩
  · intro dst src off len sof wo so thr tmo t d r hst ht hturn hcheck hlen hd hr
    have hexec : exec (.copy h dst src off len sof wo so thr tmo) s = ok s (s.toModule.fillCommand h 10
        (entryHas ((12, 4, src.toNat) :: fillOperands dst off len sof wo so thr tmo))
        (fillStart true dst src off len sof wo so thr)) := rfl
    refine (fill_queues hst ht hturn hexec hcheck hlen hd hr).imp fun m ⟨hu, hmem, hq⟩ => ⟨hu, hmem, _, hq, ?_⟩
    exact ⟨rfl, rfl, rfl, rfl⟩
  · exact fun st f q hboot hq hw hm hp hu hl hbusy => fillCopyWriteStart_answers hboot hq hw hm ⟨hp, hu, hl⟩ hbusy
  · exact fun st f q hboot hq hw ho hm => fillCopyWaitTimeout_answers hboot hq hw ho hm
  · exact fun st f q hboot hq hw hf hs => fillCopyDone_answers hboot hq hw hf hs
end Sys2Proof.Machine
end

section
set_option Elab.async false
/-!
Regions: ALLOC, FREE and their release (R281 to R284, R398). An event that memory raises on the way leaves what a completion is
made of.
-/
namespace Sys2Proof.Machine
open Sys2Proof

/-! ### Sessions beside what events change -/

/-- A session beside its event queue and the sequence of its messages. -/
def Session.unheard (x : Session) : Session := { x with eqTail := 0, lost := 0, firstLost := 0, txSeq := 0 }

/-- The sessions beside their event queues. -/
def Module.unheard (m : Module) (n : Nat) : Option Session := (m.sessions.find? n).map Session.unheard

section
variable {b m k : Module} {x y : Session}

theorem Agree.unheard_find (h : Agree Module.unheard m k) {n : Nat} (hx : m.sessions.find? n = some x) :
    ∃ y, k.sessions.find? n = some y ∧ y.unheard = x.unheard := by
  have hn := congrFun h n
  unfold Module.unheard at hn
  rw [hx, Option.map_some, Option.map_eq_some_iff] at hn
  exact hn

/-- A session that differs in its event queue alone takes its place. -/
theorem Module.unheard_insert {n : Nat} (hx : m.sessions.find? n = some x) (hy : y.unheard = x.unheard)
    (hk : k.sessions = m.sessions.insert n y) : Agree Module.unheard m k := by
  funext j
  unfold Module.unheard
  rw [hk]
  by_cases hj : j = n
  · subst hj
    rw [SMap.find?_insert_same, hx, Option.map_some, Option.map_some, hy]
  · rw [SMap.find?_insert_ne _ _ hj]

theorem Module.ringWrite_unheard (m : Module) (n offset : Nat) (data : List Byte) (use : WinUse) :
    Agree Module.unheard m (m.ringWrite n offset data use) := by
  unfold Module.ringWrite
  split
  · exact .refl
  · next s hs =>
    exact .kept (Module.originate_keeps ..) (fun _ => rfl)
      (Module.unheard_insert (y := { s with txSeq := s.txSeq + 1 }) hs rfl rfl)

theorem Module.writeEvent_unheard (m : Module) (n : Nat) (e : Event) : Agree Module.unheard m (m.writeEvent n e) := by
  unfold Module.writeEvent
  split
  · exact .refl
  · next s hs =>
    exact .after (Module.ringWrite_unheard ..) (Module.unheard_insert (y := { s with eqTail := s.eqTail + 1 }) hs rfl rfl)

theorem Module.makeEvent_unheard (m : Module) (code ctx : Nat) (seq : Word) (p0 p1 p2 p3 : Nat) :
    Agree Module.unheard m (m.makeEvent code ctx seq p0 p1 p2 p3).2 :=
  .kept (Module.makeEvent_keeps ..) (fun _ => rfl) .refl

theorem Module.writeLost_unheard (m : Module) (n : Nat) : Agree Module.unheard m (m.writeLost n) := by
  unfold Module.writeLost
  split
  · exact .refl
  · next s hs =>
    refine .ite (fun _ => .refl) fun _ => ?_
    have hmade := m.makeEvent_unheard 0x0D01 0xFF 0 0 s.lost s.firstLost.toNat 0
    have hsame : (m.makeEvent 0x0D01 0xFF 0 0 s.lost s.firstLost.toNat 0).2.sessions = m.sessions :=
      (Module.makeEvent_keeps ..).view (·.sessions) fun _ => rfl
    dsimp only
    generalize m.makeEvent 0x0D01 0xFF 0 0 s.lost s.firstLost.toNat 0 = r at hmade hsame
    refine .after (Module.writeEvent_unheard ..) (.trans hmade (Module.unheard_insert (x := s)
      (y := { s with lost := 0, firstLost := 0 }) (n := n) (by rw [hsame, hs]) rfl ?_))
    simp only [SMap.adjust, hsame, hs]

theorem Module.writeAllLost_unheard (m : Module) : Agree Module.unheard m m.writeAllLost := by
  unfold Module.writeAllLost
  exact .foldl (fun _ _ => Module.writeLost_unheard ..) _ .refl

theorem Module.deliverTo_unheard (m : Module) (e : Event) (n : Nat) : Agree Module.unheard m (m.deliverTo e n) := by
  unfold Module.deliverTo
  split
  · exact .refl
  · next s hs =>
    refine .ite (fun _ => .ite (fun _ => Module.writeEvent_unheard ..) fun _ => ?_) fun _ => .refl
    exact Module.unheard_insert (y := { s with
      lost := s.lost + 1
      firstLost := if s.lost = 0 then e.number else s.firstLost }) hs rfl rfl

theorem Module.deliver_unheard (m : Module) (e : Event) : Agree Module.unheard m (m.deliver e) := by
  unfold Module.deliver
  exact .ite (fun _ => .upd .refl) fun _ => .foldl (fun _ _ => Module.deliverTo_unheard ..) _ .refl

theorem Module.raiseSeq_unheard (m : Module) (code ctx : Nat) (seq : Word) (p0 p1 p2 p3 : Nat) :
    Agree Module.unheard m (m.raiseSeq code ctx seq p0 p1 p2 p3) := by
  unfold Module.raiseSeq
  exact .after (Module.deliver_unheard ..) <| .after (Module.makeEvent_unheard ..) <| m.writeAllLost_unheard

theorem Module.raise_unheard (m : Module) (code p0 p1 p2 p3 : Nat) :
    Agree Module.unheard m (m.raise code p0 p1 p2 p3) := m.raiseSeq_unheard ..

theorem Module.faultSeq_unheard (m : Module) (cls code ctx : Nat) (seq : Word) (p0 p1 p2 p3 : Nat) :
    Agree Module.unheard m (m.faultSeq cls code ctx seq p0 p1 p2 p3) := by
  unfold Module.faultSeq
  have hmade : Agree Module.unheard m ((m.countFault cls).writeAllLost.makeEvent code ctx seq p0 p1 p2 p3).2 :=
    .after (Module.makeEvent_unheard ..) <| .after (Module.writeAllLost_unheard _) <|
      .kept (Module.countFault_keeps ..) (fun _ => rfl) .refl
  generalize (m.countFault cls).writeAllLost.makeEvent code ctx seq p0 p1 p2 p3 = r at hmade
  exact .after (Module.deliver_unheard ..) (.upd hmade)

theorem Module.fault_unheard (m : Module) (cls code p0 p1 p2 p3 : Nat) : Agree Module.unheard m (m.fault cls code p0 p1 p2 p3) :=
  m.faultSeq_unheard ..

/-- What changes registers alone. -/
theorem Agree.unheard_of_regs (h : Keeps Fld.regs m k) : Agree Module.unheard m k := .kept h (fun _ => rfl) .refl

theorem Module.clearBad_unheard (m : Module) (a n : Nat) : Agree Module.unheard m (m.clearBad a n) :=
  .kept (Module.clearBad_keeps ..) (fun _ => rfl) .refl

theorem Module.spmCorrected_unheard (m : Module) (a : Nat) : Agree Module.unheard m (m.spmCorrected a) := by
  have hcount : Agree Module.unheard m ((m.count (SPM_ST_CE (m.stackOf a)) 1).countFault 4) :=
    .unheard_of_regs (.after (Module.countFault_keeps ..) rfl (m.count_keeps ..))
  unfold Module.spmCorrected
  exact .ite (fun _ => .after (Module.raise_unheard ..) hcount) fun _ => hcount

theorem Module.spmPoison_unheard (m : Module) (source a : Nat) : Agree Module.unheard m (m.spmPoison source a) := by
  unfold Module.spmPoison
  refine .after (Module.fault_unheard ..) (.kept (G := Fld.regs ||| Fld.poison) ?_ (fun _ => rfl) .refl)
  exact .after (Module.setFld_keeps ..) rfl <| .after (Module.setFld_keeps ..) rfl <| .after (Module.setFld_keeps ..) rfl <|
    .after (Module.satAdd_keeps ..) rfl <| .after (Module.count_keeps ..) rfl <| .upd .refl

theorem Module.dramMet_unheard (m : Module) (a : Nat) : Agree Module.unheard m (m.dramMet a) := by
  unfold Module.dramMet
  refine .after (Module.fault_unheard ..) (.unheard_of_regs ?_)
  exact .after (Module.setFld_keeps ..) rfl <| .after (Module.setFld_keeps ..) rfl <| .after (Module.wr_keeps ..) rfl <|
    m.count_keeps ..

theorem Module.meetErr_unheard (m : Module) (source : Nat) (e : MemErr) : Agree Module.unheard m (m.meetErr source e) := by
  unfold Module.meetErr
  split
  · exact .ite (fun _ => .refl) fun _ => .ite (fun _ => Module.spmPoison_unheard ..) fun _ => Module.spmCorrected_unheard ..
  · refine .ite (fun _ => .refl) fun _ => .ite (fun _ => .upd .refl) fun _ => .unheard_of_regs ?_
    exact .after (Module.countFault_keeps ..) rfl (m.count_keeps ..)
  · exact .refl

theorem Module.meetWhere_unheard (m : Module) (source : Nat) (hit : MemErr → Bool) :
    Agree Module.unheard m (m.meetWhere source hit) := by
  unfold Module.meetWhere
  exact .foldl (fun _ _ => Module.meetErr_unheard ..) _ (.upd .refl)

theorem Module.meet_unheard (m : Module) (source : Nat) (spans : List (Nat × Nat)) :
    Agree Module.unheard m (m.meet source spans) := m.meetWhere_unheard ..

theorem Module.reportPartly_unheard (m : Module) (a n : Nat) : Agree Module.unheard m (m.reportPartly a n) :=
  .foldl (fun _ _ => Module.dramMet_unheard ..) _ .refl

theorem Module.flushLine_unheard (m : Module) (line : Nat) : Agree Module.unheard m (m.flushLine line) := by
  unfold Module.flushLine
  split
  · exact .refl
  · refine .kept (Module.reportGather_keeps ..) (fun _ => rfl) <| .kept (Module.putSome_keeps ..) (fun _ => rfl) <|
      .foldl (fun m w => ?_) _ (.upd .refl)
    exact .ite (fun _ => Module.clearBad_unheard ..) fun _ => .ite (fun _ => Module.meet_unheard ..) fun _ => .refl

theorem Module.flushSpan_unheard (m : Module) (a n : Nat) : Agree Module.unheard m (m.flushSpan a n) :=
  .foldl (fun _ _ => Module.flushLine_unheard ..) _ .refl

theorem Module.write_unheard (m : Module) (a : Nat) (l : List Byte) : Agree Module.unheard m (m.write a l) := by
  unfold Module.write
  exact .kept (Module.putSome_keeps ..) (fun _ => rfl) <| .after (Module.clearBad_unheard ..) <|
    .after (Module.reportPartly_unheard ..) <| .after (Module.meet_unheard ..) <|
    .after (Module.meetWhere_unheard ..) <| Module.flushSpan_unheard ..

theorem Module.zero_unheard (m : Module) (a n : Nat) : Agree Module.unheard m (m.zero a n) := by
  unfold Module.zero
  exact .after (Module.clearBad_unheard ..) <| .upd <| Module.flushSpan_unheard ..

/-! ### Completions to a session beside its event queue -/

theorem cqRoom_congr (h : y.unheard = x.unheard) : cqRoom y = cqRoom x := by
  have h₁ : y.cqWait = x.cqWait := (congrArg Session.cqWait h :)
  have h₂ : y.cqTail = x.cqTail := (congrArg Session.cqTail h :)
  have h₃ : y.cqHead = x.cqHead := (congrArg Session.cqHead h :)
  have h₄ : y.cqN = x.cqN := (congrArg Session.cqN h :)
  unfold cqRoom
  rw [h₁, h₂, h₃, h₄]

theorem Completes.unheard {h : CmdHdr} {op status result : Nat} (hc : Completes m h op y status result)
    (hy : y.unheard = x.unheard) : Completes m h op x status result := by
  have h₁ : y.ringWindow = x.ringWindow := (congrArg Session.ringWindow hy :)
  have h₂ : y.cqTail = x.cqTail := (congrArg Session.cqTail hy :)
  have h₃ : y.ringGen = x.ringGen := (congrArg Session.ringGen hy :)
  have h₄ : y.cqN = x.cqN := (congrArg Session.cqN hy :)
  have h₅ : y.cqOff = x.cqOff := (congrArg Session.cqOff hy :)
  unfold Completes at hc ⊢
  rwa [cqRoom_congr hy, h₁, h₂, h₃, h₄, h₅] at hc

/-- The completion of a command of a session that events alone have changed. -/
theorem completes_of_unheard {h : CmdHdr} (hk : Agree Module.unheard m k) (hx : m.sessions.find? h.session.val = some x)
    (op status result : Nat) :
    Completes (k.complete ⟨h.session, x.gen, h.tag, BitVec.ofNat 8 op⟩ status result) h op x status result := by
  obtain ⟨y, hy, hyx⟩ := hk.unheard_find hx
  have hgen : y.gen = x.gen := (congrArg Session.gen hyx :)
  exact (hgen ▸ Module.complete_completes hy op status result).unheard hyx

end

/-! ### A place and a number for a region -/

section
variable {s : State} {m k : Module} {h : CmdHdr} {x : Session}

theorem Module.pick_fst_lt (m : Module) {n : Nat} (hn : 0 < n) : (m.pick n).1 < n := Nat.mod_lt _ hn

/-- A span that some gap holds is placed within a gap. -/
theorem Module.place_some (m : Module) {gaps : List (Nat × Nat)} {n : Nat} (hgap : ∃ g ∈ gaps, n ≤ g.2) :
    ∃ base, (m.place gaps n).1 = some base ∧ ∃ g ∈ gaps, g.1 ≤ base ∧ base + n ≤ g.1 + g.2 := by
  obtain ⟨g, hg, hn⟩ := hgap
  have hmem : g ∈ gaps.filter fun g => decide (n ≤ g.2) := List.mem_filter.2 ⟨hg, decide_eq_true hn⟩
  have hne : (gaps.filter fun g => decide (n ≤ g.2)) ≠ [] := List.ne_nil_of_mem hmem
  have hlt : (m.pick (gaps.filter fun g => decide (n ≤ g.2)).length).1 < (gaps.filter fun g => decide (n ≤ g.2)).length :=
    m.pick_fst_lt (List.length_pos_iff.2 hne)
  unfold Module.place
  dsimp only
  rw [if_neg (by simpa using hne)]
  generalize (m.pick (gaps.filter fun g => decide (n ≤ g.2)).length) = r at hlt
  obtain ⟨i, m₁⟩ := r
  dsimp only at hlt ⊢
  rw [List.getElem?_eq_getElem hlt, Option.getD_some]
  obtain ⟨hin, hfit⟩ := List.mem_filter.1 (List.getElem_mem hlt)
  generalize (gaps.filter fun g => decide (n ≤ g.2))[i] = g' at hin hfit
  have hj := m₁.pick_fst_lt (n := (g'.2 - n) / 4096 + 1) (Nat.succ_pos _)
  have hfit' : n ≤ g'.2 := of_decide_eq_true hfit
  exact ⟨_, rfl, g', hin, by omega, by omega⟩

theorem SMap.freeKey_some {α : Type} {t : SMap α} {lo hi j : Nat} (h : t.freeKey lo hi = some j) : t.find? j = none := by
  unfold SMap.freeKey at h
  simpa using List.find?_some h

theorem SMap.freeKey_isSome {α : Type} {t : SMap α} {lo hi j : Nat} (hlo : lo ≤ j) (hhi : j < hi) (hj : t.find? j = none) :
    (t.freeKey lo hi).isSome = true := by
  unfold SMap.freeKey
  rw [List.find?_isSome]
  exact ⟨j, List.mem_map.2 ⟨j - lo, List.mem_range.2 (by omega), by omega⟩, by simp [hj]⟩

/-- A free number is found wherever there is one. -/
theorem Module.freeFrom_some {α : Type} (m : Module) {t : SMap α} {lo n j : Nat} (hlo : lo ≤ j) (hhi : j < lo + n)
    (hj : t.find? j = none) : ∃ i, (m.freeFrom t lo n).1 = some i ∧ t.find? i = none := by
  have hlt := m.pick_fst_lt (n := n) (by omega)
  unfold Module.freeFrom
  generalize m.pick n = r at hlt
  obtain ⟨st, m₁⟩ := r
  dsimp only at hlt ⊢
  split
  · next i hi => exact ⟨i, rfl, SMap.freeKey_some hi⟩
  · next hnone =>
    have hbelow : j < lo + st := by
      by_contra hge
      have := SMap.freeKey_isSome (lo := lo + st) (hi := lo + n) (by omega) hhi hj
      rw [hnone] at this
      cases this
    obtain ⟨i, hi⟩ := Option.isSome_iff_exists.1 (SMap.freeKey_isSome hlo hbelow hj)
    exact ⟨i, hi, SMap.freeKey_some hi⟩

/-- A new region of SPM. -/
def Module.newRegion (m : Module) (i base n : Nat) (spread : Bool) : Region := ⟨SMap.get 1 m.regionGen i, base, n, spread, .live, none⟩

theorem Module.enterRegion_some (m : Module) {base n j : Nat} {spread : Bool} (hlo : 1 ≤ j) (hhi : j < 16384)
    (hj : m.regions.find? j = none) : ∃ i k, m.enterRegion false base n spread = (some (handleOf i (SMap.get 1 m.regionGen i)), k) ∧
      m.regions.find? i = none ∧ k.regions = m.regions.insert i (m.newRegion i base n spread) ∧
      (∀ a, base ≤ a → a < base + n → k.byte a = 0) ∧ Agree Module.unheard m k := by
  obtain ⟨i, hi, hfree⟩ := m.freeFrom_some (t := m.regions) (lo := 1) (n := 16383) hlo (by omega) hj
  have hk := m.freeFrom_keeps m.regions 1 16383
  unfold Module.enterRegion
  generalize hr : m.freeFrom m.regions 1 16383 = r at hi hk
  obtain ⟨i', m₁⟩ := r
  dsimp only at hi hk
  subst hi
  have hgen : m₁.regionGen = m.regionGen := hk.view (·.regionGen) fun _ => rfl
  have hregions : m₁.regions = m.regions := hk.view (·.regions) fun _ => rfl
  simp only [Bool.false_eq_true, if_false, hr, hgen, hregions]
  refine ⟨i, _, rfl, hfree, ?_, fun a hlo' hhi' => ?_, ?_⟩
  · have hzone : (m₁.zoneSpan base n spread).regions = m.regions :=
      ((Module.zoneSpan_keeps ..).view (·.regions) fun _ => rfl).trans hregions
    refine ((Module.reportRegions_keeps _).view (·.regions) fun _ => rfl).trans ?_
    dsimp only
    rw [hzone]
    rfl
  · refine ((Module.reportRegions_keeps _).view (·.byte a) fun _ => rfl).trans ?_
    exact Module.zero_byte_in _ hlo' hhi'
  · refine .kept (Module.reportRegions_keeps _) (fun _ => rfl) <| .upd <| .after (Module.zero_unheard ..) <|
      .kept (Module.zoneSpan_keeps ..) (fun _ => rfl) <| .kept hk (fun _ => rfl) .refl

/-! ### ALLOC -/

/-- ALLOC of a request that fits. -/
theorem allocStart_places {kind stack : Byte} {size : W64} (c : CmdRef) (hform : allocForm 0 kind.toNat stack.toNat = true)
    {n : Nat} (hn : (size.toNat + 4095) / 4096 * 4096 = n) (hpos : 0 < n) (hmax : n ≤ 2 ^ 26)
    (hgap : ∃ g ∈ m.allocGaps false (kind.toNat = 1) stack.toNat, n ≤ g.2)
    (hkey : ∃ j, 1 ≤ j ∧ j < 16384 ∧ m.regions.find? j = none) :
    ∃ i base k, allocStart 0 kind stack size c m = k.complete c stOk (handleOf i (SMap.get 1 m.regionGen i)) ∧
      m.regions.find? i = none ∧ k.regions = m.regions.insert i (m.newRegion i base n (decide (kind.toNat = 1))) ∧
      (∃ g ∈ m.allocGaps false (kind.toNat = 1) stack.toNat, g.1 ≤ base ∧ base + n ≤ g.1 + g.2) ∧
      (∀ a, base ≤ a → a < base + n → k.byte a = 0) ∧ Agree Module.unheard m k := by
  obtain ⟨base, hbase, hin⟩ := m.place_some hgap
  obtain ⟨j, hlo, hhi, hj⟩ := hkey
  have hplace := m.place_keeps (m.allocGaps false (kind.toNat = 1) stack.toNat) n
  have hz : (0 : Byte).toNat = 0 := rfl
  unfold allocStart
  rw [hz, hform, hn]
  dsimp only
  simp only [Bool.not_true, Bool.false_eq_true, if_false, Nat.zero_ne_one, decide_false, Bool.not_false, Bool.true_and, true_and]
  rw [if_neg (by omega)]
  generalize m.place (m.allocGaps false (kind.toNat = 1) stack.toNat) n = r at hbase hplace
  obtain ⟨base', m₁⟩ := r
  dsimp only at hbase hplace
  subst hbase
  have hgen : m₁.regionGen = m.regionGen := hplace.view (·.regionGen) fun _ => rfl
  have hregions : m₁.regions = m.regions := hplace.view (·.regions) fun _ => rfl
  obtain ⟨i, k, henter, hfree, hk, hzero, hheard⟩ := m₁.enterRegion_some (base := base) (n := n)
    (spread := decide (kind.toNat = 1)) hlo hhi (hregions ▸ hj)
  dsimp only
  rw [henter, ← hgen]
  refine ⟨i, base, k, rfl, hregions ▸ hfree, ?_, hin, hzero, .trans (.kept hplace (fun _ => rfl) .refl) hheard⟩
  rw [hk, hregions]
  unfold Module.newRegion
  rw [hgen]

theorem Module.complete_regions (m : Module) (c : CmdRef) (status result : Nat) :
    (m.complete c status result).regions = m.regions := (Module.complete_keeps ..).view (·.regions) fun _ => rfl

theorem Module.complete_byte (m : Module) (c : CmdRef) (status result a : Nat) :
    (m.complete c status result).byte a = m.byte a := (Module.complete_keeps ..).view (·.byte a) fun _ => rfl

theorem alloc_answers {kind stack : Byte} {size : W64} (hturn : s.serialTurn h 7 = true)
    (hst : StartableRun s h 7 (entryHas [(8, 1, 0), (9, 1, kind.toNat), (10, 1, stack.toNat), (16, 8, size.toNat)]) x)
    (hform : allocForm 0 kind.toNat stack.toNat = true) {n : Nat} (hn : (size.toNat + 4095) / 4096 * 4096 = n) (hpos : 0 < n)
    (hmax : n ≤ 2 ^ 26) (hgap : ∃ g ∈ s.allocGaps false (kind.toNat = 1) stack.toNat, n ≤ g.2)
    (hkey : ∃ k, 1 ≤ k ∧ k < 16384 ∧ s.regions.find? k = none) :
    Answers (.alloc h 0 kind stack size) s fun m => ∃ k r, s.regions.find? k = none ∧ m.regions.find? k = some r ∧
      r.size = n ∧ r.phase = .live ∧ r.spread = decide (kind.toNat = 1) ∧
      (∃ g ∈ s.allocGaps false (kind.toNat = 1) stack.toNat, g.1 ≤ r.base ∧ r.base + n ≤ g.1 + g.2) ∧
      (∀ a, r.base ≤ a → a < r.base + n → m.byte a = 0) ∧ (∀ j, j ≠ k → m.regions.find? j = s.regions.find? j) ∧
      Completes m h 7 x 0 (handleOf k r.gen) := by
  have hexec : exec (.alloc h 0 kind stack size) s = ok s (s.toModule.commandRun h 7
      (entryHas [(8, 1, 0), (9, 1, kind.toNat), (10, 1, stack.toNat), (16, 8, size.toNat)]) (allocStart 0 kind stack size)) := by
    refine congrArg (ok s) ?_
    unfold allocCmd
    rw [hturn]
    rfl
  refine hst.answers hexec ?_
  obtain ⟨i, base, k, hk, hfree, hregions, hin, hzero, hheard⟩ := allocStart_places (m := s.toModule.begun h 7 x)
    ⟨h.session, x.gen, h.tag, BitVec.ofNat 8 7⟩ hform hn hpos hmax hgap hkey
  rw [hk]
  refine ⟨i, (s.toModule.begun h 7 x).newRegion i base n (decide (kind.toNat = 1)), hfree, ?_, rfl, rfl, rfl, hin,
    fun a hlo hhi => ?_, fun j hj => ?_, ?_⟩
  · rw [Module.complete_regions, hregions, SMap.find?_insert_same]
  · exact (Module.complete_byte ..).trans (hzero a hlo hhi)
  · rw [Module.complete_regions, hregions, SMap.find?_insert_ne _ _ hj]
    rfl
  · obtain ⟨y, hy, hyx⟩ := hheard.unheard_find (Module.begun_find ..)
    have hgen : y.gen = x.gen := (congrArg Session.gen hyx :)
    have hc := Completes.unheard (hgen ▸ Module.complete_completes hy 7 stOk (handleOf i (SMap.get 1 s.regionGen i))) hyx
    exact hc

theorem alloc_refused {memory kind stack : Byte} {size : W64} (hturn : s.serialTurn h 7 = true) (hmem : memory ≠ 0)
    (hst : Startable s h 7 (entryHas [(8, 1, memory.toNat), (9, 1, kind.toNat), (10, 1, stack.toNat), (16, 8, size.toNat)]) x)
    (hform : allocForm memory.toNat kind.toNat stack.toNat = false) : Answers (.alloc h memory kind stack size) s fun m =>
      Completes m h 7 x 3 0 ∧ m.mem = s.mem ∧ m.regions = s.regions := by
  have hne : memory.toNat ≠ 0 := fun h0 => hmem (BitVec.eq_of_toNat_eq h0)
  have hexec : exec (.alloc h memory kind stack size) s = ok s (s.toModule.command h 7
      (entryHas [(8, 1, memory.toNat), (9, 1, kind.toNat), (10, 1, stack.toNat), (16, 8, size.toNat)])
      (allocStart memory kind stack size)) := by
    refine congrArg (ok s) ?_
    unfold allocCmd
    dsimp only
    rw [hturn, if_neg hne]
    rfl
  refine hst.answers hexec ?_
  unfold allocStart
  dsimp only
  rw [hform]
  exact ⟨completes_of_begun s.toModule rfl .., Module.complete_mem .., Module.complete_regions ..⟩

/-! ### FREE and the release of a region -/

theorem free_answers {region : Word} {r : Region} (hturn : s.serialTurn h 8 = true)
    (hst : StartableRun s h 8 (entryHas [(8, 4, region.toNat)]) x) (hr : s.region? region = some r)
    (hheld : s.regionHeld region = false) : Answers (.free h region) s fun m => Underway m h 8 ∧ m.mem = s.mem ∧
      ∃ r', m.regions.find? (handleKey region) = some r' ∧ r'.phase = .waiting ∧ r'.base = r.base ∧ r'.size = r.size := by
  have hQ : (fun m : Module => Underway m h 8 ∧ m.mem = s.mem ∧
      ∃ r', m.regions.find? (handleKey region) = some r' ∧ r'.phase = .waiting ∧ r'.base = r.base ∧ r'.size = r.size)
      (freeStart region ⟨h.session, x.gen, h.tag, BitVec.ofNat 8 8⟩ (s.toModule.begun h 8 x)) := by
    have hr' : (s.toModule.begun h 8 x).region? region = some r := hr
    have hheld' : (s.toModule.begun h 8 x).regionHeld region = false := hheld
    unfold freeStart
    rw [hr']
    dsimp only
    rw [hheld', if_neg Bool.false_ne_true]
    exact ⟨hst.1.underway rfl, rfl, _, SMap.find?_insert_same .., rfl, rfl, rfl⟩
  cases hd : isDramHandle region with
  | true =>
    refine hst.1.answers (c := .free h region) (f := freeStart region) (congrArg (ok s) ?_) hQ
    unfold freeCmd
    rw [hturn, hd]
    rfl
  | false =>
    refine hst.answers (c := .free h region) (f := freeStart region) (congrArg (ok s) ?_) hQ
    unfold freeCmd
    rw [hturn, hd]
    rfl

theorem releaseZeroFill_answers {region : Word} {r : Region} (hboot : s.boot ≠ .off) (hcp : s.cpHalted = false)
    (hr : s.region? region = some r) (hphase : r.phase = .waiting) (hused : s.regionUsed r = false)
    (hoff : s.spmOff r.base r.size = false) (hbusy : s.spmBusy r.base r.size = false) (hwf : s.GatherWf) :
    Answers (.releaseZeroFill region) s fun m => (∀ a, r.base ≤ a → a < r.base + r.size → m.byte a = 0) ∧
      (r.base % 64 = 0 → r.size % 64 = 0 → ∀ a, a < r.base ∨ r.base + r.size ≤ a → m.byte a = s.byte a) ∧
      (∃ r', m.regions.find? (handleKey region) = some r' ∧ r'.phase = .zeroing) ∧ m.region? region = none := by
  have hrun : releaseZeroFill region s.toModule = { s.zero r.base r.size with
      regions := s.regions.insert (handleKey region) { r with phase := .zeroing } } := by
    unfold releaseZeroFill Module.firmware
    rw [hcp, if_neg Bool.false_ne_true]
    dsimp only
    rw [hr]
    exact if_neg (by simp [hphase, hused, hoff, hbusy])
  refine .of_ok hboot (congrArg (ok s) hrun) ⟨fun a hlo hhi => ?_, fun hb hs a ha => ?_, ?_, ?_⟩
  · exact s.zero_byte_in hlo hhi
  · exact s.zero_byte_outside hwf hb hs ha
  · exact ⟨_, SMap.find?_insert_same .., rfl⟩
  · unfold Module.region?
    rw [SMap.find?_insert_same]
    simp

theorem releaseDone_answers {region : Word} {r : Region} {c : CmdRef} (hboot : s.boot ≠ .off) (hcp : s.cpHalted = false)
    (hr : s.regions.find? (handleKey region) = some r) (hphase : r.phase = .zeroing) (hgen : r.gen = region.toNat / 65536)
    (hby : r.freeBy = some c) : Answers (.releaseDone region) s fun m => m.regions.find? (handleKey region) = none ∧
      (∀ j, j ≠ handleKey region → m.regions.find? j = s.regions.find? j) ∧ m.mem = s.mem ∧ CompletesRef s m c 0 0 := by
  have hrun : releaseDone region s.toModule = (Module.reportRegions { s.toModule with
      regions := s.regions.erase (handleKey region)
      regionGen := SMap.set 1 s.regionGen (handleKey region) (nextGen r.gen) }).complete c stOk 0 := by
    unfold releaseDone Module.firmware
    rw [hcp, if_neg Bool.false_ne_true]
    dsimp only
    rw [hr]
    dsimp only
    rw [if_neg (by simp [hphase, hgen]), hby]
  have hk := Module.reportRegions_keeps { s.toModule with
    regions := s.regions.erase (handleKey region)
    regionGen := SMap.set 1 s.regionGen (handleKey region) (nextGen r.gen) }
  generalize Module.reportRegions { s.toModule with
    regions := s.regions.erase (handleKey region)
    regionGen := SMap.set 1 s.regionGen (handleKey region) (nextGen r.gen) } = k at hrun hk
  have hregions : k.regions = s.regions.erase (handleKey region) := hk.view (·.regions) fun _ => rfl
  refine .of_ok hboot (congrArg (ok s) hrun) ⟨?_, fun j hj => ?_, ?_, completesRef_complete (hk.view (·.sessions) fun _ => rfl) 0 0⟩
  · rw [Module.complete_regions, hregions, SMap.find?_erase_same]
  · rw [Module.complete_regions, hregions, SMap.find?_erase_ne _ hj]
  · exact (Module.complete_mem ..).trans (hk.view (·.mem) fun _ => rfl)
end

/-- Settles O28: a free choice among the gaps and numbers gives a place and a number, and a zero fill clears the span. -/
theorem regionsAllocateAndFree : Obligations.RegionsAllocateAndFree := by
  intro h x s
  refine ⟨?_, ?_, ?_, ?_, ?_⟩
  · exact fun kind stack size hturn hst hform hpos hmax hgap hkey => alloc_answers hturn hst hform rfl hpos hmax hgap hkey
  · exact fun memory kind stack size hturn hmem hst hform => alloc_refused hturn hmem hst hform
  · exact fun region r hturn hst hr hheld => free_answers hturn hst hr hheld
  · exact fun region r hboot hcp hr hphase hused hoff hbusy hwf =>
      releaseZeroFill_answers hboot hcp hr hphase hused hoff hbusy hwf
  · exact fun region r c hboot hcp hr hphase hgen hby => releaseDone_answers hboot hcp hr hphase hgen hby
end Sys2Proof.Machine
end

section
set_option Elab.async false
/-!
Control faults and the control reset (R494, R497, R507, R508).
-/
namespace Sys2Proof.Machine
open Sys2Proof

section
variable {s : State} {m k : Module} {pair : Fin 2} {cls : Nat}

/-! ### Fields of one register -/

theorem Module.fld_satAdd (m : Module) (off : Nat) (f : Bits) (n : Nat) (h : f.lo ≤ f.hi) (h' : f.hi < 32) :
    (m.satAdd off f n).fld off f = min (m.fld off f + n) (2 ^ (f.hi + 1 - f.lo) - 1) := by
  have hexp : f.hi + 1 - f.lo = f.hi - f.lo + 1 := by omega
  have hpos : 0 < 2 ^ (f.hi + 1 - f.lo) := by positivity
  refine Module.fld_setFld _ _ _ _ h h' ?_
  rw [← hexp]
  omega

/-- The cause of the last reset and the storm count. -/
def Module.bootLook (m : Module) : Nat × Nat :=
  (m.fld SYS_BOOT_STAT SYS_BOOT_STAT_cause, m.fld SYS_BOOT_STAT SYS_BOOT_STAT_storm)

theorem Module.bootLook_of_rd (h : k.rd SYS_BOOT_STAT = m.rd SYS_BOOT_STAT) : k.bootLook = m.bootLook := by
  unfold Module.bootLook Module.fld
  rw [h]

theorem Module.bootLook_setFld (m : Module) {f : Bits} (v : Nat) (hc : f.beside SYS_BOOT_STAT_cause = true := by decide)
    (hs : f.beside SYS_BOOT_STAT_storm = true := by decide) : (m.setFld SYS_BOOT_STAT f v).bootLook = m.bootLook := by
  unfold Module.bootLook Module.fld Module.setFld
  rw [Module.rd_wr_same, Bits.of_put_beside hc, Bits.of_put_beside hs]

theorem Module.readOtp_bootLook (m : Module) : m.readOtp.bootLook = m.bootLook := by
  have hwr {b : Module} (x : Module) {o : Nat} (v : Word) (hx : Agree Module.bootLook b x) (h : SYS_BOOT_STAT ≠ o := by decide) :
      Agree Module.bootLook b (x.wr o v) := .after (Module.bootLook_of_rd (Module.rd_wr_ne _ _ h)) hx
  have hfld {b : Module} (x : Module) {o : Nat} (f : Bits) (v : Nat) (hx : Agree Module.bootLook b x)
      (h : SYS_BOOT_STAT ≠ o := by decide) : Agree Module.bootLook b (x.setFld o f v) := hwr x _ hx h
  have hids (x : Module) : Agree Module.bootLook x
      ((List.range 4).foldl (fun m k => m.wr (SEC_DEVID k) (BitVec.ofNat 32 (fieldAt m.otp.deviceId (4 * k) 4))) x) :=
    .foldl (fun m i => hwr m _ .refl (by unfold SYS_BOOT_STAT SEC_DEVID; omega)) _ .refl
  unfold Module.readOtp
  dsimp only
  refine hwr _ _ <| hwr _ _ <| hwr _ _ <| hwr _ _ ?_
  refine .kept (Module.holdBackoff_keeps ..) (fun _ => rfl) <| hfld _ _ _ <| .after (Module.bootLook_setFld _ _) ?_
  refine .kept (Module.pick_keeps ..) (fun _ => rfl) <| hfld _ _ _ <| hfld _ _ _ <| hfld _ _ _ ?_
  refine hfld _ _ _ <| hfld _ _ _ <| .after (hids _) <| hfld _ _ _ <| hfld _ _ _ <| hfld _ _ _ ?_
  exact hfld _ _ _ <| hfld _ _ _ <| hfld _ _ _ rfl

/-! ### The control reset -/

/-- What a reset keeps: the registers of AON, and the state that lives there. -/
def Module.aonAlone (m : Module) (k : Nat) : Module :=
  { Module.reset with
    regs := m.regs.filter fun e => decide (e.1 < 0x010000) || (0x700000 ≤ e.1 && e.1 < 0x7E0000)
    otp := m.otp, flash := m.flash.addFaults (m.flogPending.take k), outbox := m.outbox, now := m.now, draws := m.draws
    trace := m.trace, evNext := m.evNext, powerSamples := m.powerSamples, energyPj := m.energyPj, holdupHigh := m.holdupHigh
    backoff := m.backoff, backoffEnd := m.backoffEnd, tap := m.tap, doubleRecord := m.doubleRecord, cpFaults := m.cpFaults }

/-- The registers that a reset sets anew, before OTP is read. -/
def Module.resetShown (x : Module) (cause : Nat) : Module :=
  let x := ((x.wr PWR_STATE 0x22).wr PWR_DOM_STAT (regReset PWR_DOM_STAT)).wr PWR_DOM_RET 0
  let x := ((x.wr PWR_MODE 0).wr SYS_ADM_STAT 0).setFld SYS_ADM_POWER SYS_ADM_POWER_planned_dw 0
  let x := ((x.setFld SYS_BOOT_STAT SYS_BOOT_STAT_ready 0).setFld SYS_BOOT_STAT SYS_BOOT_STAT_cause cause).setFld
    SYS_BOOT_STAT SYS_BOOT_STAT_halted 0
  (x.setFld DBG_LEVEL DBG_LEVEL_nonce 0).setFld DBG_LEVEL DBG_LEVEL_filling 0

/-- The module before a restart keeps AON: stores that are torn, faults that still reach the log. -/
def Module.torn (m : Module) : Module := (m.tornStores.pick (m.tornStores.flogPending.length + 1)).2

theorem Module.torn_keeps (m : Module) : Keeps (Fld.draws ||| Fld.flash) m m.torn :=
  .after (Module.pick_keeps ..) rfl <| .after (Module.tornStores_keeps ..) rfl .refl

theorem Module.restart_eq (m : Module) (cause : Nat) : m.restart cause false =
    ((m.torn.aonAlone (m.tornStores.pick (m.tornStores.flogPending.length + 1)).1).resetShown cause).readOtp := rfl

theorem Module.rd_aonAlone (m : Module) (n : Nat) {off : Nat} (h : off < 0x010000) : (m.aonAlone n).rd off = m.rd off := by
  unfold Module.rd SMap.get Module.aonAlone
  dsimp only
  rw [SMap.find?_filter _ (fun o => decide (o < 0x010000) || (0x700000 ≤ o && o < 0x7E0000)) _ (by simp [h])]

/-- The registers that show the state of a module after its reset. -/
def shownRegs : List Nat := [PWR_STATE, PWR_DOM_STAT, PWR_DOM_RET, PWR_MODE, SYS_ADM_STAT, SYS_ADM_POWER, SYS_BOOT_STAT, DBG_LEVEL]

theorem Module.resetShown_regsBut (x : Module) (cause : Nat) : Agree (Module.regsBut shownRegs) x (x.resetShown cause) := by
  have hwr {b : Module} (x : Module) {o : Nat} (v : Word) (hx : Agree (Module.regsBut shownRegs) b x)
      (h : o ∈ shownRegs := by decide) : Agree (Module.regsBut shownRegs) b (x.wr o v) := .after (Module.wr_regsBut _ _ h) hx
  have hfld {b : Module} (x : Module) {o : Nat} (f : Bits) (v : Nat) (hx : Agree (Module.regsBut shownRegs) b x)
      (h : o ∈ shownRegs := by decide) : Agree (Module.regsBut shownRegs) b (x.setFld o f v) := hwr x _ hx h
  unfold Module.resetShown
  exact hfld _ _ _ <| hfld _ _ _ <| hfld _ _ _ <| hfld _ _ _ <| hfld _ _ _ <| hfld _ _ _ <| hwr _ _ <| hwr _ _ <|
    hwr _ _ <| hwr _ _ <| hwr _ _ .refl

theorem Module.resetShown_keeps (x : Module) (cause : Nat) : Keeps Fld.regs x (x.resetShown cause) := by
  unfold Module.resetShown
  exact .after (Module.setFld_keeps ..) rfl <| .after (Module.setFld_keeps ..) rfl <| .after (Module.setFld_keeps ..) rfl <|
    .after (Module.setFld_keeps ..) rfl <| .after (Module.setFld_keeps ..) rfl <| .after (Module.setFld_keeps ..) rfl <|
    .after (Module.wr_keeps ..) rfl <| .after (Module.wr_keeps ..) rfl <| .after (Module.wr_keeps ..) rfl <|
    .after (Module.wr_keeps ..) rfl <| .after (Module.wr_keeps ..) rfl .refl

theorem Module.resetShown_bootLook (x : Module) {cause : Nat} (hcause : cause < 8) :
    (x.resetShown cause).bootLook = (cause, x.fld SYS_BOOT_STAT SYS_BOOT_STAT_storm) := by
  have hset (y : Module) : (y.setFld SYS_BOOT_STAT SYS_BOOT_STAT_cause cause).bootLook =
      (cause, y.fld SYS_BOOT_STAT SYS_BOOT_STAT_storm) :=
    Prod.ext (Module.fld_setFld _ _ _ _ (by decide) (by decide) hcause) (Module.fld_setFld_ne _ _ _ _ _ (by decide) (by decide) (by decide))
  have hbefore : ((((((x.wr PWR_STATE 0x22).wr PWR_DOM_STAT (regReset PWR_DOM_STAT)).wr PWR_DOM_RET 0).wr PWR_MODE 0).wr
      SYS_ADM_STAT 0).setFld SYS_ADM_POWER SYS_ADM_POWER_planned_dw 0).rd SYS_BOOT_STAT = x.rd SYS_BOOT_STAT := by
    rw [Module.rd_setFld_ne _ _ _ (by decide), Module.rd_wr_ne _ _ (by decide), Module.rd_wr_ne _ _ (by decide),
      Module.rd_wr_ne _ _ (by decide), Module.rd_wr_ne _ _ (by decide), Module.rd_wr_ne _ _ (by decide)]
  unfold Module.resetShown
  dsimp only
  generalize (((((x.wr PWR_STATE 0x22).wr PWR_DOM_STAT (regReset PWR_DOM_STAT)).wr PWR_DOM_RET 0).wr PWR_MODE 0).wr
    SYS_ADM_STAT 0).setFld SYS_ADM_POWER SYS_ADM_POWER_planned_dw 0 = y at hbefore
  refine (Module.bootLook_of_rd (m := ((y.setFld SYS_BOOT_STAT SYS_BOOT_STAT_ready 0).setFld SYS_BOOT_STAT
    SYS_BOOT_STAT_cause cause).setFld SYS_BOOT_STAT SYS_BOOT_STAT_halted 0) ?_).trans ((Module.bootLook_setFld (f := SYS_BOOT_STAT_halted) _ 0).trans ((hset _).trans (congrArg (Prod.mk cause) ?_)))
  · rw [Module.rd_setFld_ne _ _ _ (by decide), Module.rd_setFld_ne _ _ _ (by decide)]
  · rw [Module.fld_setFld_ne _ _ _ _ _ (by decide) (by decide) (by decide)]
    exact Module.fld_congr hbefore _

/-- A restart shows its cause and keeps the storm count; the fault counters stay, and nothing but AON is left. -/
theorem Module.restart_facts (m : Module) {cause : Nat} (hcause : cause < 8) :
    (m.restart cause false).bootLook = (cause, m.fld SYS_BOOT_STAT SYS_BOOT_STAT_storm) ∧
    (∀ i < 16, (m.restart cause false).rd (SYS_FLT_CNT i) = m.rd (SYS_FLT_CNT i)) ∧
    (m.restart cause false).boot = .verifying ∧ (m.restart cause false).doubleRecord = m.doubleRecord ∧
    (m.restart cause false).mem = [] ∧ (m.restart cause false).sessions = [] ∧
    (m.restart cause false).otp.fuses = m.otp.fuses := by
  have htorn := m.torn_keeps
  have hrdAll (n off : Nat) (h : off < 0x010000) : (m.torn.aonAlone n).rd off = m.rd off :=
    (m.torn.rd_aonAlone n h).trans (htorn.view (·.rd off) fun _ => rfl)
  have hdouble : m.torn.doubleRecord = m.doubleRecord := htorn.view (·.doubleRecord) fun _ => rfl
  have hfuses : m.torn.otp = m.otp := htorn.view (·.otp) fun _ => rfl
  rw [Module.restart_eq]
  generalize (m.tornStores.pick (m.tornStores.flogPending.length + 1)).1 = n
  have hrd := hrdAll n
  have hshown := (m.torn.aonAlone n).resetShown_keeps cause
  have hregs := (m.torn.aonAlone n).resetShown_regsBut cause
  have hlook := (m.torn.aonAlone n).resetShown_bootLook hcause
  have hdouble' : (m.torn.aonAlone n).doubleRecord = m.doubleRecord := hdouble
  have hfuses' : (m.torn.aonAlone n).otp = m.otp := hfuses
  have hboot : (m.torn.aonAlone n).boot = .verifying := rfl
  have hmem : (m.torn.aonAlone n).mem = [] := rfl
  have hsessions : (m.torn.aonAlone n).sessions = [] := rfl
  generalize m.torn.aonAlone n = x at hrd hshown hregs hlook hdouble' hfuses' hboot hmem hsessions ⊢
  generalize x.resetShown cause = y at hshown hregs hlook ⊢
  have hread := y.readOtp_keeps
  refine ⟨?_, fun i hi => ?_, ?_, ?_, ?_, ?_, ?_⟩
  · rw [Module.readOtp_bootLook, hlook, Module.fld_congr (hrd _ (by decide))]
  · have hout : ∀ i : Fin 16, SYS_FLT_CNT i ∉ otpRegs ∧ SYS_FLT_CNT i ∉ shownRegs := by decide
    rw [Agree.rd y.readOtp_regsBut (hout ⟨i, hi⟩).1, Agree.rd hregs (hout ⟨i, hi⟩).2, hrd _ (by unfold SYS_FLT_CNT; omega)]
  · exact (hread.view (·.boot) fun _ => rfl).trans ((hshown.view (·.boot) fun _ => rfl).trans hboot)
  · exact (hread.view (·.doubleRecord) fun _ => rfl).trans ((hshown.view (·.doubleRecord) fun _ => rfl).trans hdouble')
  · exact (hread.view (·.mem) fun _ => rfl).trans ((hshown.view (·.mem) fun _ => rfl).trans hmem)
  · exact (hread.view (·.sessions) fun _ => rfl).trans ((hshown.view (·.sessions) fun _ => rfl).trans hsessions)
  · exact (hread.view (·.otp.fuses) fun _ => rfl).trans (((hshown.view (·.otp) fun _ => rfl).trans hfuses') ▸ rfl)

/-! ### A fault of a control pair -/

/-- The field of SYS_CP_STAT that shows a pair. -/
def cpBits (pair : Nat) : Bits := if pair = 0 then SYS_CP_STAT_cp0 else SYS_CP_STAT_cp1

theorem Module.cpState_eq (m : Module) (pair : Nat) : m.cpState pair = m.fld SYS_CP_STAT (cpBits pair) := rfl

theorem Module.setCpState_eq (m : Module) (pair v : Nat) : m.setCpState pair v = m.setFld SYS_CP_STAT (cpBits pair) v := rfl

theorem Module.cpState_congr (h : k.rd SYS_CP_STAT = m.rd SYS_CP_STAT) (pair : Nat) : k.cpState pair = m.cpState pair :=
  Module.fld_congr h _

theorem Module.cpState_setCpState (m : Module) (pair : Nat) {v : Nat} (hv : v < 4) : (m.setCpState pair v).cpState pair = v := by
  have hbits : (cpBits pair).lo ≤ (cpBits pair).hi ∧ (cpBits pair).hi < 32 ∧ (cpBits pair).hi - (cpBits pair).lo + 1 = 2 := by
    unfold cpBits
    split <;> decide
  obtain ⟨hlo, hhi, hw⟩ := hbits
  exact Module.fld_setFld _ _ _ _ hlo hhi (hv.trans_eq (congrArg (2 ^ ·) hw).symm)

theorem cpBits_beside (pair : Fin 2) : (cpBits pair).beside (cpBits (1 - pair.val)) = true := by
  have h : ∀ pair : Fin 2, (cpBits pair).beside (cpBits (1 - pair.val)) = true := by decide
  exact h pair

theorem Module.cpState_setCpState_other (m : Module) (pair : Fin 2) (v : Nat) :
    (m.setCpState pair v).cpState (1 - pair.val) = m.cpState (1 - pair.val) := by
  unfold Module.cpState Module.setCpState Module.fld Module.setFld
  rw [Module.rd_wr_same]
  exact Bits.of_put_beside (cpBits_beside pair) _ _

/-- The module once the fault of a pair has been counted for it. -/
def Module.pairCounted (m : Module) (pair : Fin 2) : Module :=
  { m.satAdd SYS_CP_STAT SYS_CP_STAT_faults 1 with
    cpFaults := if pair = 0 then (m.cpFaults.1 + 1, m.cpFaults.2) else (m.cpFaults.1, m.cpFaults.2 + 1) }

theorem Module.cpState_pairCounted (m : Module) (pair : Fin 2) (p : Nat) : (m.pairCounted pair).cpState p = m.cpState p := by
  have hbeside : SYS_CP_STAT_faults.beside (cpBits p) = true := by
    unfold cpBits
    split <;> decide
  refine (Module.cpState_congr (m := m.satAdd SYS_CP_STAT SYS_CP_STAT_faults 1) (Module.rd_congr rfl _) p).trans ?_
  unfold Module.satAdd Module.setFld Module.cpState Module.fld
  rw [Module.rd_wr_same]
  exact Bits.of_put_beside hbeside _ _

theorem Module.pairCounted_faults (m : Module) (pair : Fin 2) :
    (if pair = 0 then (m.pairCounted pair).cpFaults.1 else (m.pairCounted pair).cpFaults.2) =
      (if pair = 0 then m.cpFaults.1 else m.cpFaults.2) + 1 := by
  unfold Module.pairCounted
  split <;> rfl

/-- The number of faults of a pair. -/
def Module.pairFaults (m : Module) (pair : Fin 2) : Nat := if pair = 0 then m.cpFaults.1 else m.cpFaults.2

theorem Module.controlFault_eq (hboot : m.boot = .ready) (hctl : m.bit PWR_DOM_STAT PWR_DOM_STAT_ctl = true)
    (hon : m.cpState pair = 0) (cls : Nat) : m.controlFault pair cls =
      if m.cpState (1 - pair.val) ≠ 0 then
        ({ m.pairCounted pair with doubleRecord := true }.satAdd SYS_BOOT_STAT SYS_BOOT_STAT_storm 1).restart 2 false
      else ((m.pairCounted pair).setCpState pair (if m.pairFaults pair = 0 then 1 else 2)).fault cls 0x0C01 pair cls 0 0 := by
  unfold Module.controlFault
  rw [if_neg (by simp [hboot, hctl, hon]), ← Module.cpState_pairCounted m pair (1 - pair.val)]
  rfl

theorem cpFault_takenOver (hboot : s.boot = .ready) (hctl : s.bit PWR_DOM_STAT PWR_DOM_STAT_ctl = true)
    (hon : s.cpState pair = 0) (hcls : cls = 8 ∨ cls = 9) (hother : s.cpState (1 - pair.val) = 0) :
    ∃ m : Module, s.toModule.controlFault pair cls = m ∧ m.cpState pair = (if s.pairFaults pair = 0 then 1 else 2) ∧
      m.cpState (1 - pair.val) = 0 ∧ m.pairFaults pair = s.pairFaults pair + 1 ∧ Raised m 0x0C01 255 pair cls 0 0 ∧
      m.mem = s.mem ∧ m.streams = s.streams ∧ m.jobs = s.jobs ∧
      (m.rd (SYS_FLT_CNT (cls - 1))).toNat = min ((s.rd (SYS_FLT_CNT (cls - 1))).toNat + 1) 0xFFFFFFFF ∧
      ∀ n, (m.sessions.find? n).map (·.taken) = (s.sessions.find? n).map (·.taken) := by
  rw [Module.controlFault_eq hboot hctl hon, if_neg (not_not.2 hother)]
  generalize hv : (if s.pairFaults pair = 0 then 1 else 2) = v
  have hlt : v < 4 := by rw [← hv]; split <;> decide
  have hcount : Keeps (Fld.regs ||| Fld.cpFaults) s.toModule ((s.pairCounted pair).setCpState pair v) := by
    unfold Module.pairCounted
    exact .after (Module.setFld_keeps ..) rfl <| .upd <| .after (Module.satAdd_keeps ..) rfl .refl
  have hflt : ((s.pairCounted pair).setCpState pair v).rd (SYS_FLT_CNT (cls - 1)) = s.rd (SYS_FLT_CNT (cls - 1)) := by
    have hne : SYS_FLT_CNT (cls - 1) ≠ SYS_CP_STAT := by unfold SYS_FLT_CNT SYS_CP_STAT; omega
    exact (Module.rd_wr_ne _ _ hne).trans ((Module.rd_congr (m := s.satAdd SYS_CP_STAT SYS_CP_STAT_faults 1) rfl _).trans
      (Module.rd_wr_ne _ _ hne))
  have hself := (s.pairCounted pair).cpState_setCpState pair hlt
  have hrest := (s.pairCounted pair).cpState_setCpState_other pair v
  have hfaults : ((s.pairCounted pair).setCpState pair v).pairFaults pair = s.pairFaults pair + 1 := s.pairCounted_faults pair
  rw [s.cpState_pairCounted, hother] at hrest
  generalize (s.pairCounted pair).setCpState pair v = k at hcount hflt hself hrest hfaults
  have hk : Keeps _ k (k.fault cls 0x0C01 pair cls 0 0) := Module.fault_keeps ..
  have hcp : (k.fault cls 0x0C01 pair cls 0 0).rd SYS_CP_STAT = k.rd SYS_CP_STAT := Module.rd_fault _ _ _ _ _ _ (by omega)
  refine ⟨_, rfl, (Module.cpState_congr hcp _).trans hself, (Module.cpState_congr hcp _).trans hrest,
    (hk.view (·.pairFaults pair) fun _ => rfl).trans hfaults, Module.fault_raised .., ?_, ?_, ?_, ?_, fun n => ?_⟩
  · exact (hk.view (·.mem) fun _ => rfl).trans (hcount.view (·.mem) fun _ => rfl)
  · exact (hk.view (·.streams) fun _ => rfl).trans (hcount.view (·.streams) fun _ => rfl)
  · exact (hk.view (·.jobs) fun _ => rfl).trans (hcount.view (·.jobs) fun _ => rfl)
  · exact (k.faultSeq_counted _ _ _ _ _ _ _ _ (by rcases hcls with rfl | rfl <;> decide)).trans
      (congrArg (fun w : Word => min (w.toNat + 1) 0xFFFFFFFF) hflt)
  · have hheard : Agree Module.unheard s.toModule (k.fault cls 0x0C01 pair cls 0 0) :=
      .after (Module.fault_unheard ..) (.kept hcount (fun _ => rfl) .refl)
    have hn := congrArg (Option.map Session.taken) (congrFun hheard n)
    unfold Module.unheard at hn
    rwa [Option.map_map, Option.map_map] at hn

theorem cpFault_restarts (hboot : s.boot = .ready) (hctl : s.bit PWR_DOM_STAT PWR_DOM_STAT_ctl = true)
    (hon : s.cpState pair = 0) (hother : s.cpState (1 - pair.val) ≠ 0) :
    ∃ m : Module, s.toModule.controlFault pair cls = m ∧ m.boot = .verifying ∧ m.doubleRecord = true ∧ m.mem = [] ∧
      m.sessions = [] ∧ m.fld SYS_BOOT_STAT SYS_BOOT_STAT_cause = 2 ∧ m.otp.fuses = s.otp.fuses ∧
      m.fld SYS_BOOT_STAT SYS_BOOT_STAT_storm = min (s.fld SYS_BOOT_STAT SYS_BOOT_STAT_storm + 1) 3 ∧
      ∀ i < 16, m.rd (SYS_FLT_CNT i) = s.rd (SYS_FLT_CNT i) := by
  rw [Module.controlFault_eq hboot hctl hon, if_pos hother]
  have hrd {off : Nat} (hcp : off ≠ SYS_CP_STAT) : ({ s.pairCounted pair with doubleRecord := true } : Module).rd off = s.rd off :=
    (Module.rd_congr (m := s.satAdd SYS_CP_STAT SYS_CP_STAT_faults 1) rfl _).trans (Module.rd_wr_ne _ _ hcp)
  have hstorm : (({ s.pairCounted pair with doubleRecord := true } : Module).satAdd SYS_BOOT_STAT SYS_BOOT_STAT_storm 1).fld
      SYS_BOOT_STAT SYS_BOOT_STAT_storm = min (s.fld SYS_BOOT_STAT SYS_BOOT_STAT_storm + 1) 3 := by
    rw [Module.fld_satAdd _ _ _ _ (by decide) (by decide), Module.fld_congr (hrd (by decide))]
    rfl
  have hflt : ∀ i < 16, (({ s.pairCounted pair with doubleRecord := true } : Module).satAdd SYS_BOOT_STAT SYS_BOOT_STAT_storm
      1).rd (SYS_FLT_CNT i) = s.rd (SYS_FLT_CNT i) := fun i _ =>
    (Module.rd_wr_ne _ _ (by unfold SYS_FLT_CNT SYS_BOOT_STAT; omega)).trans (hrd (by unfold SYS_FLT_CNT SYS_CP_STAT; omega))
  have hdouble : (({ s.pairCounted pair with doubleRecord := true } : Module).satAdd SYS_BOOT_STAT SYS_BOOT_STAT_storm
      1).doubleRecord = true := rfl
  have hotp : (({ s.pairCounted pair with doubleRecord := true } : Module).satAdd SYS_BOOT_STAT SYS_BOOT_STAT_storm
      1).otp = s.otp := rfl
  generalize ({ s.pairCounted pair with doubleRecord := true } : Module).satAdd SYS_BOOT_STAT SYS_BOOT_STAT_storm 1 = k
    at hstorm hflt hdouble hotp
  obtain ⟨hlook, hcounts, hphase, hrecord, hmem, hsessions, hfuses⟩ := k.restart_facts (cause := 2) (by decide)
  refine ⟨_, rfl, hphase, hrecord.trans hdouble, hmem, hsessions, congrArg Prod.fst hlook, ?_, ?_, fun i hi => ?_⟩
  · rw [hfuses, hotp]
  · exact (congrArg Prod.snd hlook).trans hstorm
  · exact (hcounts i hi).trans (hflt i hi)

/-- Settles O57. -/
theorem controlFaultsComplete : Obligations.ControlFaultsComplete := by
  intro pair s hboot hctl
  have hne : s.boot ≠ .off := by rw [hboot]; exact fun h => nomatch h
  refine ⟨fun c cls hc hon => ?_, fun pass hstate => ?_, ?_⟩
  · have hexec : exec c s = ok s (s.toModule.controlFault pair cls) := by
      rcases hc with ⟨rfl, rfl⟩ | ⟨rfl, rfl⟩ <;> rfl
    have hcls : cls = 8 ∨ cls = 9 := hc.imp And.right And.right
    refine ⟨fun hother => ?_, fun hother => ?_⟩
    · obtain ⟨m, hm, hQ⟩ := cpFault_takenOver hboot hctl hon hcls hother
      exact .of_ok hne (hexec.trans (congrArg (ok s) hm)) hQ
    · obtain ⟨m, hm, hQ⟩ := cpFault_restarts (cls := cls) hboot hctl hon hother
      exact .of_ok hne (hexec.trans (congrArg (ok s) hm)) hQ
  · have hrun : cpResumeDuties pair pass s.toModule = s.setCpState pair (if pass then 0 else 2) := if_pos hstate
    refine .of_ok hne (congrArg (ok s) hrun) ⟨Module.cpState_setCpState _ _ (by split <;> decide),
      Module.cpState_setCpState_other .., ?_⟩
    exact onlyRegs_of (G := Fld.regs) (Module.setFld_unreported _ _ _ (List.mem_singleton_self _)) (Module.setFld_keeps ..) rfl
  · refine .of_ok hne (show exec .stormCountClear s = ok s (stormCountClear s.toModule) from rfl)
      ⟨Module.fld_setFld _ _ _ _ (by decide) (by decide) (by decide), ?_⟩
    exact onlyRegs_of (G := Fld.regs) (Module.setFld_unreported _ _ _ (List.mem_singleton_self _)) (Module.setFld_keeps ..) rfl
end
end Sys2Proof.Machine
end

section
set_option Elab.async false
/-!
The boot from verification to READY (R317, R457, R469 to R471, R497, R498, R500).
-/
namespace Sys2Proof.Machine
open Sys2Proof

section
variable {s : State} {m k : Module} {a b : SlotImage} {off : Nat}

/-! ### DRAM training -/

theorem Module.trainServes_iff (m : Module) (t : Int) :
    m.trainServes t = true ↔ ∃ r, m.trainNewest = some r ∧ (t - r.temp).natAbs ≤ 25 * 16 := by
  unfold Module.trainServes
  cases m.trainNewest with
  | none => simp
  | some r => simp

/-- The training result shows in DDR_STAT. -/
def Module.trainShown (m : Module) (source ms : Nat) : Module :=
  (m.setFld DDR_STAT DDR_STAT_train_src source).setFld DDR_STAT DDR_STAT_train_ms (min ms 65535)

theorem Module.fld_trainShown (m : Module) {source : Nat} (h : source < 4) (ms : Nat) :
    (m.trainShown source ms).fld DDR_STAT DDR_STAT_train_src = source :=
  (Module.fld_setFld_ne _ _ _ _ _ (by decide) (by decide) (by decide)).trans
    (Module.fld_setFld _ _ _ _ (by decide) (by decide) h)

theorem Module.trainShown_copies (m : Module) (source ms : Nat) : (m.trainShown source ms).trainCopy = m.trainCopy := by
  have hid {f : Bits} : (m.trainShown source ms).fld SYS_ID f = m.fld SYS_ID f :=
    (Module.fld_setFld_other _ _ _ _ (by decide)).trans (Module.fld_setFld_other _ _ _ _ (by decide))
  have hgood : (m.trainShown source ms).trainGood = m.trainGood := by
    funext r
    unfold Module.trainGood
    rw [hid, hid]
  funext i
  unfold Module.trainCopy
  rw [hgood]
  rfl

/-- The record that a full training stores. -/
def Module.trainRecord (m : Module) (t : Int) : TrainRec :=
  let r : TrainRec := ⟨nextCopyGen m.trainCopy (·.generation), m.fld SYS_ID SYS_ID_part, m.fld SYS_ID SYS_ID_issue, trainRates, t, 0⟩
  { r with crc := crc32c r.bytes }

theorem Module.storeTraining_eq (m : Module) (t : Int) : m.storeTraining t =
    { m with flash := { m.flash with train := m.flash.train.insert m.trainOlder (m.trainRecord t) } } := rfl

theorem Module.trainOlder_congr (h : k.trainCopy = m.trainCopy) : k.trainOlder = m.trainOlder := by
  unfold Module.trainOlder
  rw [h]

theorem dramTrainingDone_answers (hboot : s.boot = .verifying ∨ s.boot = .selfTest ∨ s.boot = .init) (hready : s.dramReady = false)
    (ok : Bool) (t : Int) (ms : Nat) : Answers (.dramTrainingDone ok t ms) s fun m => m.dramReady = true ∧
      if ok = true ∧ ∃ r, s.trainNewest = some r ∧ (t - r.temp).natAbs ≤ 25 * 16 then
        m.fld DDR_STAT DDR_STAT_train_src = 1 ∧ m.flash = s.flash
      else m.fld DDR_STAT DDR_STAT_train_src = 2 ∧ (∃ r, m.flash.train.find? s.trainOlder = some r ∧ r.temp = t ∧
          r.crc = crc32c r.bytes ∧ r.generation = nextCopyGen s.trainCopy (·.generation)) ∧
        (∀ i, i ≠ s.trainOlder → m.flash.train.find? i = s.flash.train.find? i) ∧
        { m.flash with train := [] } = { s.flash with train := [] } := by
  have hne : s.boot ≠ .off ∧ s.boot ≠ .ready ∧ s.boot ≠ .failure := by
    rcases hboot with h | h | h <;> rw [h] <;> decide
  obtain ⟨hoff, hnotReady, hnotFailed⟩ := hne
  have hrun : dramTrainingDone ok t ms s.toModule = if (ok && s.trainServes t) = true then
      { s.trainShown 1 ms with dramReady := true } else { (s.trainShown 2 ms).storeTraining t with dramReady := true } := by
    unfold dramTrainingDone
    rw [if_neg (by simp [hready, hnotReady, hnotFailed])]
    cases ok && s.trainServes t <;> rfl
  have hserves : (ok && s.trainServes t) = true ↔ ok = true ∧ ∃ r, s.trainNewest = some r ∧ (t - r.temp).natAbs ≤ 25 * 16 := by
    rw [Bool.and_eq_true, Module.trainServes_iff]
  refine .of_ok hoff (congrArg (Sys2Proof.Machine.ok s) hrun) ?_
  by_cases hstored : (ok && s.trainServes t) = true
  · rw [if_pos hstored, if_pos (hserves.1 hstored)]
    exact ⟨rfl, s.fld_trainShown (by decide) ms, rfl⟩
  · have hcopies := s.trainShown_copies 2 ms
    rw [if_neg hstored, if_neg (mt hserves.2 hstored), Module.storeTraining_eq, Module.trainOlder_congr hcopies]
    refine ⟨rfl, s.fld_trainShown (by decide) ms, ⟨_, SMap.find?_insert_same .., rfl, rfl, ?_⟩,
      fun i hi => SMap.find?_insert_ne _ _ hi, rfl⟩
    exact congrArg (nextCopyGen · (·.generation)) hcopies

/-! ### The choice of a slot -/

theorem Module.slotFail_congr (h : k.otp = m.otp) : k.slotFail = m.slotFail := by
  have himage : k.imageFail = m.imageFail := by
    unfold Module.imageFail
    rw [h]
  unfold Module.slotFail
  rw [himage]

/-- The state in which the slots that flash holds are known, and the monitors have been checked by a boot. -/
def Module.slotsRead (m : Module) (a b : SlotImage) : Module :=
  let m := { m with flash := { m.flash with slots := some (a, b) } }
  if m.power = 1 then m else m.monitorCheck

/-- The outcome of the choice shows in SEC_BOOT. -/
def Module.slotShown (m : Module) (useB : Bool) (r res : Option Nat) : Module :=
  (((m.setFld SEC_BOOT SEC_BOOT_slot useB.toNat).setFld SEC_BOOT SEC_BOOT_fallback r.isSome.toNat).setFld SEC_BOOT
    SEC_BOOT_other_ok 0).setFld SEC_BOOT SEC_BOOT_result (res.getD 0)

/-- The firmware of a slot that passed. -/
def Module.slotRuns (m : Module) (x : SlotImage) : Module :=
  { m.setFld SEC_BOOT SEC_BOOT_svn_image (slotSvn x) with
    fwHash := Config.sha384 (x.sc.header ++ x.pmc.header ++ x.control.header)
    fwVersion := BitVec.ofNat 32 (fieldAt x.control.header 8 4) }

/-- How a boot goes on with the firmware of its slot. -/
def Module.bootsOn (m : Module) (waking : Prop) [Decidable waking] : Module :=
  if waking then { m with boot := .init }
  else if m.updateCap.fld SYS_BOOT_STAT SYS_BOOT_STAT_storm = 3 then
    (m.updateCap.setFld SYS_BOOT_STAT SYS_BOOT_STAT_halted 1).bootFail
  else { m.updateCap with boot := .selfTest }

theorem Module.slotsRead_otp (m : Module) (a b : SlotImage) : (m.slotsRead a b).otp = m.otp := by
  have hk : Keeps (Fld.fault ||| Fld.flash) m (m.slotsRead a b) :=
    .ite (fun _ => .upd .refl) fun _ => .after (Module.monitorCheck_keeps ..) rfl <| .upd .refl
  exact hk.view (·.otp) fun _ => rfl

/-- The choice of a slot, from a state in which the slots are known. -/
def Module.slotChosen (x : Module) (a b : SlotImage) (waking : Prop) [Decidable waking] : Module :=
  let firstB := decide (slotSvn a < slotSvn b)
  let r := x.slotFail (if firstB then (b, a) else (a, b)).1
  let useB := if r.isNone then firstB else !firstB
  let res := if r.isNone then none else x.slotFail (if firstB then (b, a) else (a, b)).2
  let shown := x.slotShown useB r res
  if res.isSome then shown.bootFail else (shown.slotRuns (if useB then b else a)).bootsOn waking

theorem firmwareVerified_eq (hboot : m.boot = .verifying) (hslots : m.slotsOf a b = (a, b)) :
    firmwareVerified a b m = (m.slotsRead a b).slotChosen a b (m.power = 1) := by
  unfold firmwareVerified
  rw [if_neg (by simp [hboot]), hslots]
  rfl

/-- The slot with the higher version passes. -/
theorem Module.slotChosen_first (x : Module) {waking : Prop} [Decidable waking] (hsvn : slotSvn b ≤ slotSvn a) (ha : x.slotFail a = none) :
    x.slotChosen a b waking = ((x.slotShown false none none).slotRuns a).bootsOn waking := by
  unfold Module.slotChosen
  rw [decide_eq_false (Nat.not_lt.2 hsvn)]
  dsimp only
  rw [if_neg Bool.false_ne_true]
  dsimp only
  rw [ha]
  rfl

/-- The other slot passes when it fails. -/
theorem Module.slotChosen_other (x : Module) {waking : Prop} [Decidable waking] (hsvn : slotSvn a < slotSvn b) (hb : x.slotFail b ≠ none)
    (ha : x.slotFail a = none) :
    ∃ e, x.slotChosen a b waking = ((x.slotShown false (some e) none).slotRuns a).bootsOn waking := by
  obtain ⟨e, he⟩ := Option.ne_none_iff_exists'.1 hb
  refine ⟨e, ?_⟩
  unfold Module.slotChosen
  rw [decide_eq_true hsvn]
  dsimp only
  rw [if_pos rfl]
  dsimp only
  rw [he, ha]
  rfl

/-- Both fail. -/
theorem Module.slotChosen_none (x : Module) {waking : Prop} [Decidable waking] (ha : x.slotFail a ≠ none) (hb : x.slotFail b ≠ none) :
    ∃ useB r res, x.slotChosen a b waking = (x.slotShown useB r res).bootFail := by
  obtain ⟨e, he⟩ := Option.ne_none_iff_exists'.1 ha
  obtain ⟨f, hf⟩ := Option.ne_none_iff_exists'.1 hb
  unfold Module.slotChosen
  cases decide (slotSvn a < slotSvn b) with
  | false =>
    dsimp only
    rw [if_neg Bool.false_ne_true]
    dsimp only
    rw [he, hf]
    exact ⟨_, _, _, rfl⟩
  | true =>
    dsimp only
    rw [if_pos rfl]
    dsimp only
    rw [he, hf]
    exact ⟨_, _, _, rfl⟩

theorem Module.slotShown_keeps (m : Module) (useB : Bool) (r res : Option Nat) : Keeps Fld.regs m (m.slotShown useB r res) :=
  .after (Module.setFld_keeps ..) rfl <| .after (Module.setFld_keeps ..) rfl <| .after (Module.setFld_keeps ..) rfl <|
    m.setFld_keeps ..

theorem Module.rd_slotShown (m : Module) (useB : Bool) (r res : Option Nat) {off : Nat} (h : off ≠ SEC_BOOT) :
    (m.slotShown useB r res).rd off = m.rd off := by
  unfold Module.slotShown
  rw [Module.rd_setFld_ne _ _ _ h, Module.rd_setFld_ne _ _ _ h, Module.rd_setFld_ne _ _ _ h, Module.rd_setFld_ne _ _ _ h]

theorem Module.fld_slotShown (m : Module) (r res : Option Nat) :
    (m.slotShown false r res).fld SEC_BOOT SEC_BOOT_slot = 0 ∧
      (m.slotShown false r res).fld SEC_BOOT SEC_BOOT_fallback = r.isSome.toNat := by
  unfold Module.slotShown
  constructor
  · rw [Module.fld_setFld_ne _ _ _ _ _ (by decide) (by decide) (by decide),
      Module.fld_setFld_ne _ _ _ _ _ (by decide) (by decide) (by decide),
      Module.fld_setFld_ne _ _ _ _ _ (by decide) (by decide) (by decide),
      Module.fld_setFld _ _ _ _ (by decide) (by decide) (by decide)]
    rfl
  · rw [Module.fld_setFld_ne _ _ _ _ _ (by decide) (by decide) (by decide),
      Module.fld_setFld_ne _ _ _ _ _ (by decide) (by decide) (by decide),
      Module.fld_setFld _ _ _ _ (by decide) (by decide) (by cases r with
        | none => decide
        | some e => exact Nat.one_lt_two)]

theorem slotSvn_lt (x : SlotImage) : slotSvn x < 256 :=
  (Nat.min_le_left _ _).trans_lt (fieldAt_lt _ 5 1)

/-- The fields of SEC_BOOT once the firmware of a slot has been taken. -/
theorem Module.fld_slotRuns (m : Module) (x : SlotImage) : (m.slotRuns x).fld SEC_BOOT SEC_BOOT_svn_image = slotSvn x ∧
    (m.slotRuns x).fld SEC_BOOT SEC_BOOT_slot = m.fld SEC_BOOT SEC_BOOT_slot ∧
    (m.slotRuns x).fld SEC_BOOT SEC_BOOT_fallback = m.fld SEC_BOOT SEC_BOOT_fallback :=
  ⟨Module.fld_setFld _ _ _ _ (by decide) (by decide) (slotSvn_lt x),
    Module.fld_setFld_ne _ _ _ _ _ (by decide) (by decide) (by decide),
    Module.fld_setFld_ne _ _ _ _ _ (by decide) (by decide) (by decide)⟩

theorem Module.monitorCheck_unreported (m : Module) : Agree (Module.unreported [CAL_MON_STAT, PWR_TEMP]) m m.monitorCheck := by
  have hdie (x : Module) (t : List Int) : Agree (Module.unreported [CAL_MON_STAT, PWR_TEMP]) x (x.dieReport t) := by
    unfold Module.dieReport
    dsimp only
    split
    · exact .refl
    · exact .after (Module.setFld_unreported _ _ _ (by simp)) (Module.setFld_unreported _ _ _ (by simp))
  unfold Module.monitorCheck
  dsimp only
  refine .foldl (fun _ _ => Module.fault_unreported _ (by decide) ..) _ ?_
  refine .foldl (fun _ _ => Module.fault_unreported _ (by decide) ..) _ ?_
  refine .after (hdie ..) <| .after (Module.setFld_unreported _ _ _ (by simp)) <| .after (Module.setFld_unreported _ _ _ (by simp)) ?_
  exact .kept (Module.voltRead_keeps ..) (fun _ => rfl) <| .kept (Module.thermRead_keeps ..) (fun _ => rfl) .refl

/-- The registers that the choice of a slot reads are as they were. -/
theorem Module.rd_slotsRead (m : Module) (a b : SlotImage) {off : Nat} (h : off ∉ [CAL_MON_STAT, PWR_TEMP] := by decide)
    (hr : off ∉ reportRegs := by decide) : (m.slotsRead a b).rd off = m.rd off := by
  unfold Module.slotsRead
  dsimp only
  split
  · rfl
  · exact Agree.unreported_rd (Module.monitorCheck_unreported _) h hr

theorem Module.slotFail_slotsRead (m : Module) (a b : SlotImage) : (m.slotsRead a b).slotFail = m.slotFail :=
  Module.slotFail_congr (m.slotsRead_otp a b)

/-! ### A boot that fails -/

theorem Module.toBaseline_level (m : Module) : m.toBaseline.level = m.baseline := by
  unfold Module.toBaseline
  split
  · assumption
  · exact Module.level_setLevel _ _ m.baseline_lt

theorem Module.rd_toBaseline (m : Module) {off : Nat} (h : off ≠ DBG_LEVEL) (hr : off ∉ reportRegs := by decide) :
    m.toBaseline.rd off = m.rd off := by
  have hset (x : Module) (source : Fin 4) (v : Nat) : Agree (Module.unreported [DBG_LEVEL]) x (x.setLevel source v) := by
    unfold Module.setLevel
    exact .ite (fun _ => .refl) fun _ => .after (Module.raise_unreported ..) <| .after (Module.journalEntry_unreported ..) <|
      Module.setFld_unreported _ _ _ (List.mem_singleton_self _)
  have ha : Agree (Module.unreported [DBG_LEVEL]) m m.toBaseline := by
    unfold Module.toBaseline
    exact .ite (fun _ => .refl) fun _ => .after (hset ..) (.kept (Module.pick_keeps m 4) (fun _ => rfl) .refl)
  exact ha.unreported_rd (by simpa using h) hr

theorem Module.bootFail_facts (m : Module) : m.bootFail.boot = .failure ∧ m.bootFail.level = m.baseline ∧ m.bootFail.power = 2 ∧
    m.bootFail.dramOn = false := by
  refine ⟨rfl, ?_, ?_, ?_⟩
  · have hbase : (((m.wr PWR_STATE (if m.goingOff then 0x02 else 0x22)).setFld PWR_DOM_STAT PWR_DOM_STAT_ctl 0).setFld
        PWR_DOM_STAT PWR_DOM_STAT_ddr 0).baseline = m.baseline := by
      refine Module.fld_congr ?_ _
      rw [Module.rd_setFld_ne _ _ _ (by decide), Module.rd_setFld_ne _ _ _ (by decide), Module.rd_wr_ne _ _ (by decide)]
    exact (Module.toBaseline_level _).trans hbase
  · refine (Module.fld_congr (Module.rd_toBaseline _ (by decide)) _).trans ?_
    rw [Module.fld_setFld_other _ _ _ _ (by decide), Module.fld_setFld_other _ _ _ _ (by decide), Module.fld_wr_same]
    split <;> decide
  · have hoff : m.bootFail.fld PWR_DOM_STAT PWR_DOM_STAT_ddr = 0 :=
      (Module.fld_congr (Module.rd_toBaseline _ (by decide)) _).trans
        (Module.fld_setFld _ _ _ _ (by decide) (by decide) (by decide))
    unfold Module.dramOn
    rw [hoff]
    rfl

/-! ### FIRMWARE_VERIFIED -/

section
variable (hboot : s.boot = .verifying) (hslots : s.slotsOf a b = (a, b))
include hboot hslots

theorem firmwareVerified_answers {Q : Module → Prop} (hQ : Q ((s.slotsRead a b).slotChosen a b (s.power = 1))) :
    Answers (.firmwareVerified a b) s Q := by
  have hne : s.boot ≠ .off := by rw [hboot]; decide
  exact .of_ok hne (congrArg (ok s) (firmwareVerified_eq hboot hslots)) hQ

theorem firmwareVerified_wakes (hpower : s.power = 1) (hsvn : slotSvn b ≤ slotSvn a) (ha : s.slotFail a = none) :
    Answers (.firmwareVerified a b) s fun m => m.boot = .init ∧ m.fld SEC_BOOT SEC_BOOT_slot = 0 ∧
      m.fld SEC_BOOT SEC_BOOT_fallback = 0 ∧ m.fld SEC_BOOT SEC_BOOT_svn_image = slotSvn a ∧
      m.fwHash = Config.sha384 (a.sc.header ++ a.pmc.header ++ a.control.header) ∧
      m.flash = { s.flash with slots := some (a, b) } := by
  refine firmwareVerified_answers hboot hslots ?_
  rw [Module.slotChosen_first _ hsvn (by rw [Module.slotFail_slotsRead, ha])]
  have hread : s.slotsRead a b = { s.toModule with flash := { s.flash with slots := some (a, b) } } := if_pos hpower
  obtain ⟨hslot, hfallback⟩ := (s.slotsRead a b).fld_slotShown none none
  have hflash : ((s.slotsRead a b).slotShown false none none).flash = { s.flash with slots := some (a, b) } :=
    ((Module.slotShown_keeps ..).view (·.flash) fun _ => rfl).trans (by rw [hread])
  generalize (s.slotsRead a b).slotShown false none none = y at hslot hfallback hflash
  obtain ⟨himage, hslot', hfallback'⟩ := y.fld_slotRuns a
  unfold Module.bootsOn
  rw [if_pos hpower]
  exact ⟨rfl, hslot'.trans hslot, hfallback'.trans hfallback, himage, rfl, hflash⟩

theorem firmwareVerified_falls (hpower : s.power = 1) (hsvn : slotSvn a < slotSvn b) (hb : s.slotFail b ≠ none)
    (ha : s.slotFail a = none) : Answers (.firmwareVerified a b) s fun m => m.boot = .init ∧
      m.fld SEC_BOOT SEC_BOOT_slot = 0 ∧ m.fld SEC_BOOT SEC_BOOT_fallback = 1 := by
  refine firmwareVerified_answers hboot hslots ?_
  obtain ⟨e, he⟩ := (s.slotsRead a b).slotChosen_other (waking := s.power = 1) hsvn (by rwa [Module.slotFail_slotsRead])
    (by rw [Module.slotFail_slotsRead, ha])
  rw [he]
  obtain ⟨hslot, hfallback⟩ := (s.slotsRead a b).fld_slotShown (some e) none
  generalize (s.slotsRead a b).slotShown false (some e) none = y at hslot hfallback
  obtain ⟨-, hslot', hfallback'⟩ := y.fld_slotRuns a
  unfold Module.bootsOn
  rw [if_pos hpower]
  exact ⟨rfl, hslot'.trans hslot, hfallback'.trans hfallback⟩

theorem firmwareVerified_boots (hpower : s.power ≠ 1) (hsvn : slotSvn b ≤ slotSvn a) (ha : s.slotFail a = none)
    (hstorm : s.fld SYS_BOOT_STAT SYS_BOOT_STAT_storm ≠ 3) : Answers (.firmwareVerified a b) s fun m =>
      m.boot = .selfTest ∧ m.fld SEC_BOOT SEC_BOOT_slot = 0 := by
  refine firmwareVerified_answers hboot hslots ?_
  rw [Module.slotChosen_first _ hsvn (by rw [Module.slotFail_slotsRead, ha])]
  obtain ⟨hslot, -⟩ := (s.slotsRead a b).fld_slotShown none none
  have hstat : ((s.slotsRead a b).slotShown false none none).rd SYS_BOOT_STAT = s.rd SYS_BOOT_STAT := by
    rw [Module.rd_slotShown _ _ _ _ (by decide), Module.rd_slotsRead]
  generalize (s.slotsRead a b).slotShown false none none = y at hslot hstat
  obtain ⟨-, hslot', -⟩ := y.fld_slotRuns a
  have hstorm' : (y.slotRuns a).updateCap.fld SYS_BOOT_STAT SYS_BOOT_STAT_storm ≠ 3 := by
    have hruns : (y.slotRuns a).rd SYS_BOOT_STAT = y.rd SYS_BOOT_STAT :=
      (Module.rd_congr (m := y.setFld SEC_BOOT SEC_BOOT_svn_image (slotSvn a)) rfl _).trans (Module.rd_setFld_ne _ _ _ (by decide))
    rwa [Module.fld_congr (Module.updateCap_rd _ (by decide)), Module.fld_congr (hruns.trans hstat)]
  unfold Module.bootsOn
  rw [if_neg hpower, if_neg hstorm']
  exact ⟨rfl, (Module.fld_congr (Module.updateCap_rd (y.slotRuns a) (by decide)) _).trans (hslot'.trans hslot)⟩

theorem firmwareVerified_fails (ha : s.slotFail a ≠ none) (hb : s.slotFail b ≠ none) :
    Answers (.firmwareVerified a b) s fun m => m.boot = .failure ∧ m.level = s.baseline ∧ m.power = 2 ∧ m.dramOn = false := by
  refine firmwareVerified_answers hboot hslots ?_
  obtain ⟨useB, r, res, he⟩ := (s.slotsRead a b).slotChosen_none (a := a) (b := b) (waking := s.power = 1)
    (by rwa [Module.slotFail_slotsRead]) (by rwa [Module.slotFail_slotsRead])
  rw [he]
  obtain ⟨hphase, hlevel, hpower, hdram⟩ := ((s.slotsRead a b).slotShown useB r res).bootFail_facts
  refine ⟨hphase, hlevel.trans (Module.fld_congr ?_ _), hpower, hdram⟩
  rw [Module.rd_slotShown _ _ _ _ (by decide), Module.rd_slotsRead]
end

/-! ### CP_SELF_TEST_DONE -/

/-- The control pairs once their self-tests are in. -/
def Module.cpsShown (m : Module) (cp0 cp1 : Bool) : Module :=
  (m.setFld SYS_CP_STAT SYS_CP_STAT_cp0 (if cp0 then 0 else 2)).setFld SYS_CP_STAT SYS_CP_STAT_cp1 (if cp1 then 0 else 2)

/-- The record of a control reset joins the fault log. -/
def Module.doubleLogged (m : Module) : Module := if m.doubleRecord then { m with doubleRecord := false }.silentFault 10 else m

/-- The versions that firmware writes. -/
def Module.versionsShown (m : Module) (lib res : Word) : Module :=
  ((m.wr SYS_LIB_VER lib).wr SYS_FW_VER m.fwVersion).wr NIS_RES_VER res

/-- The end of what firmware does: the epoch, the versions and the library memories. -/
def Module.libraryLoaded (m : Module) : Module :=
  let (e, m) := m.draw
  let (lib, m) := m.open_
  let (res, m) := m.open_
  let m := m.versionsShown lib res
  let (code, aps) := Config.libraryImage m.fwHash
  { m with epoch := BitVec.ofNat 32 (1 + e % 0xFFFFFFFF), library := (code.take 8192, aps.take 64), boot := .init }

/-- What firmware does between the self-tests and the end of the boot. -/
def Module.firmwareStarts (m : Module) : Module := (m.readSettings true).drawGenerations.doubleLogged.libraryLoaded

theorem cpSelfTestDone_eq (hboot : m.boot = .selfTest) (cp0 cp1 : Bool) : cpSelfTestDone cp0 cp1 true m =
    if (!cp0 && !cp1) = true then (m.cpsShown cp0 cp1).bootFail else (m.cpsShown cp0 cp1).firmwareStarts := by
  unfold cpSelfTestDone
  rw [if_neg (by simp [hboot])]
  rfl

theorem Module.cpState_cpsShown (m : Module) (cp0 cp1 : Bool) : (m.cpsShown cp0 cp1).cpState 0 = (if cp0 then 0 else 2) ∧
    (m.cpsShown cp0 cp1).cpState 1 = (if cp1 then 0 else 2) := by
  have hlt (c : Bool) : (if c then 0 else 2) < 4 := by cases c <;> decide
  exact ⟨(Module.fld_setFld_ne _ _ _ _ _ (by decide) (by decide) (by decide)).trans
      (Module.fld_setFld _ _ _ _ (by decide) (by decide) (hlt cp0)),
    Module.fld_setFld _ _ _ _ (by decide) (by decide) (hlt cp1)⟩

/-- A generation drawn for window n. -/
def Module.genDrawn (m : Module) (n : Nat) : Module := m.draw.2.setFld (YWP_EXP_GEN n) YWP_EXP_GEN_gen (1 + m.draw.1 % 65535)

theorem Module.drawGenerations_eq (m : Module) : m.drawGenerations = (List.range 256).foldl Module.genDrawn m := rfl

theorem Module.rd_genDrawn (m : Module) {n off : Nat} (h : off ≠ YWP_EXP_GEN n) : (m.genDrawn n).rd off = m.rd off :=
  (Module.rd_setFld_ne _ _ _ h).trans (Module.rd_congr rfl _)

theorem YWP_EXP_GEN_inj {i n : Nat} (h : YWP_EXP_GEN i = YWP_EXP_GEN n) : i = n := by
  unfold YWP_EXP_GEN at h
  omega

/-- Every generation drawn is at least 1. -/
theorem foldl_genDrawn (m : Module) (n : Nat) : (∀ i < n, ((List.range n).foldl Module.genDrawn m).fld (YWP_EXP_GEN i)
      YWP_EXP_GEN_gen ≠ 0) ∧
    ∀ off, (∀ i < n, off ≠ YWP_EXP_GEN i) → ((List.range n).foldl Module.genDrawn m).rd off = m.rd off := by
  induction n with
  | zero => exact ⟨fun i hi => absurd hi (Nat.not_lt_zero i), fun _ _ => rfl⟩
  | succ n ih =>
    obtain ⟨hgen, hrest⟩ := ih
    rw [List.range_succ, List.foldl_append, List.foldl_cons, List.foldl_nil]
    refine ⟨fun i hi => ?_, fun off hoff => ?_⟩
    · by_cases hin : i = n
      · subst hin
        have hlt : 1 + ((List.range i).foldl Module.genDrawn m).draw.1 % 65535 < 65536 := by omega
        unfold Module.genDrawn
        rw [Module.fld_setFld _ _ _ _ (by decide) (by decide) hlt]
        omega
      · rw [Module.fld_congr (Module.rd_genDrawn _ fun he => hin (YWP_EXP_GEN_inj he))]
        exact hgen i (by omega)
    · exact (Module.rd_genDrawn _ (hoff n (Nat.lt_succ_self n))).trans (hrest off fun i hi => hoff i (by omega))

theorem Module.rd_doubleLogged (m : Module) {off : Nat} (h : off ∉ reportRegs) : m.doubleLogged.rd off = m.rd off := by
  unfold Module.doubleLogged
  split
  · exact (Module.rd_silentFault _ (by decide) h).trans (Module.rd_congr rfl _)
  · rfl

theorem Module.rd_versionsShown (m : Module) (lib res : Word) {off : Nat} (h : off ∉ [SYS_LIB_VER, SYS_FW_VER, NIS_RES_VER]) :
    (m.versionsShown lib res).rd off = m.rd off := by
  simp only [List.mem_cons, List.not_mem_nil, or_false, not_or] at h
  obtain ⟨hlib, hfw, hres⟩ := h
  unfold Module.versionsShown
  rw [Module.rd_wr_ne _ _ hres, Module.rd_wr_ne _ _ hfw, Module.rd_wr_ne _ _ hlib]

/-- The settings show in their registers. -/
def Module.settingsShown (m : Module) (stored : Option Nat) : Module :=
  let m := m.setFld SYS_BOOT_STAT SYS_BOOT_STAT_settings_default stored.isNone.toNat
  let ecc := (stored.getD 0).testBit 16
  ((m.setFld NET_NODE NET_NODE_node (stored.getD 0 % 65536)).setFld DDR_CFG DDR_CFG_inline_ecc_next ecc.toNat).setFld
    DDR_STAT DDR_STAT_inline_ecc ecc.toNat

theorem Module.settingsShown_facts (m : Module) (stored : Option Nat) :
    (m.settingsShown stored).node = BitVec.ofNat 16 (stored.getD 0) ∧
    (m.settingsShown stored).rd SYS_CP_STAT = m.rd SYS_CP_STAT := by
  have hlt : stored.getD 0 % 65536 < 2 ^ (NET_NODE_node.hi - NET_NODE_node.lo + 1) := Nat.mod_lt _ (by decide)
  unfold Module.settingsShown
  dsimp only
  constructor
  · unfold Module.node
    rw [Module.fld_setFld_other _ _ _ _ (by decide), Module.fld_setFld_other _ _ _ _ (by decide),
      Module.fld_setFld _ _ _ _ (by decide) (by decide) hlt]
    exact BitVec.eq_of_toNat_eq (by simp)
  · rw [Module.rd_setFld_ne _ _ _ (by decide), Module.rd_setFld_ne _ _ _ (by decide), Module.rd_setFld_ne _ _ _ (by decide),
      Module.rd_setFld_ne _ _ _ (by decide)]

theorem Module.readSettings_regs (m : Module) :
    ∃ x : Module, x.regs = m.regs ∧ (m.readSettings true).regs = (x.settingsShown (recValue m.flash.settings)).regs := by
  refine ⟨if (recValue m.flash.settings).isSome then m else { m with flash := { m.flash with faultLog := [] } }, ?_, rfl⟩
  split <;> rfl

theorem Module.readSettings_facts (m : Module) : (m.readSettings true).node = BitVec.ofNat 16 ((recValue m.flash.settings).getD 0) ∧
    (m.readSettings true).rd SYS_CP_STAT = m.rd SYS_CP_STAT := by
  obtain ⟨x, hx, hregs⟩ := m.readSettings_regs
  obtain ⟨hnode, hcp⟩ := x.settingsShown_facts (recValue m.flash.settings)
  refine ⟨?_, (Module.rd_congr hregs _).trans (hcp.trans (Module.rd_congr hx _))⟩
  rw [← hnode]
  exact congrArg (BitVec.ofNat 16) (Module.fld_congr (Module.rd_congr hregs _) _)

theorem notGen (h : off ∈ [SYS_CP_STAT, NET_NODE]) : (∀ i < 256, off ≠ YWP_EXP_GEN i) ∧ off ∉ reportRegs ∧
    off ∉ [SYS_LIB_VER, SYS_FW_VER, NIS_RES_VER] := by
  have hall : ∀ off ∈ [SYS_CP_STAT, NET_NODE], off ∉ reportRegs ∧ off ∉ [SYS_LIB_VER, SYS_FW_VER, NIS_RES_VER] ∧ off < 0x681014 := by
    decide
  obtain ⟨hrep, hver, hlt⟩ := hall off h
  exact ⟨fun i _ => by unfold YWP_EXP_GEN; omega, hrep, hver⟩

theorem genReg_free {n : Nat} (hn : n < 256) : YWP_EXP_GEN n ∉ reportRegs ∧ YWP_EXP_GEN n ∉ [SYS_LIB_VER, SYS_FW_VER, NIS_RES_VER] := by
  have hall : ∀ n : Fin 256, YWP_EXP_GEN n ∉ reportRegs ∧ YWP_EXP_GEN n ∉ [SYS_LIB_VER, SYS_FW_VER, NIS_RES_VER] := by
    decide +kernel
  exact hall ⟨n, hn⟩

theorem Module.rd_libraryLoaded (m : Module) (h : off ∉ [SYS_LIB_VER, SYS_FW_VER, NIS_RES_VER]) : m.libraryLoaded.rd off = m.rd off :=
  (Module.rd_congr (m := m.draw.2.open_.2.open_.2.versionsShown m.draw.2.open_.1 m.draw.2.open_.2.open_.1) rfl off).trans
    ((Module.rd_versionsShown _ _ _ h).trans (Module.rd_congr rfl off))

theorem Module.epoch_libraryLoaded (m : Module) : m.libraryLoaded.epoch ≠ 0 := by
  intro h0
  have hz : (1 + m.draw.1 % 0xFFFFFFFF) % 2 ^ 32 = 0 := congrArg BitVec.toNat h0
  omega

/-- What firmware starts with. -/
theorem Module.firmwareStarts_facts (m : Module) : m.firmwareStarts.boot = .init ∧ m.firmwareStarts.epoch ≠ 0 ∧
    m.firmwareStarts.rd SYS_CP_STAT = m.rd SYS_CP_STAT ∧
    m.firmwareStarts.node = BitVec.ofNat 16 ((recValue m.flash.settings).getD 0) ∧
    (∀ n < 256, m.firmwareStarts.fld (YWP_EXP_GEN n) YWP_EXP_GEN_gen ≠ 0) ∧
    m.firmwareStarts.library.1.length ≤ 8192 ∧ m.firmwareStarts.library.2.length ≤ 64 := by
  obtain ⟨hnode, hcp⟩ := m.readSettings_facts
  obtain ⟨hgen, hrest⟩ := foldl_genDrawn (m.readSettings true) 256
  have hrd {off : Nat} (hrep : off ∉ reportRegs) (hver : off ∉ [SYS_LIB_VER, SYS_FW_VER, NIS_RES_VER]) :
      m.firmwareStarts.rd off = ((List.range 256).foldl Module.genDrawn (m.readSettings true)).rd off := by
    unfold Module.firmwareStarts
    rw [Module.rd_libraryLoaded _ hver, Module.rd_doubleLogged _ hrep, Module.drawGenerations_eq]
  have hsame {off : Nat} (h : off ∈ [SYS_CP_STAT, NET_NODE]) : m.firmwareStarts.rd off = (m.readSettings true).rd off := by
    obtain ⟨hne, hrep, hver⟩ := notGen h
    exact (hrd hrep hver).trans (hrest off hne)
  refine ⟨rfl, Module.epoch_libraryLoaded _, (hsame (by simp)).trans hcp, ?_, fun n hn => ?_, List.length_take_le ..,
    List.length_take_le ..⟩
  · rw [← hnode]
    exact congrArg (BitVec.ofNat 16) (Module.fld_congr (hsame (by simp)) _)
  · obtain ⟨hrep, hver⟩ := genReg_free hn
    rw [Module.fld_congr (hrd hrep hver)]
    exact hgen n hn

theorem cpSelfTestDone_answers (hboot : s.boot = .selfTest) (cp0 cp1 : Bool) :
    ((cp0 || cp1) = true → Answers (.cpSelfTestDone cp0 cp1 true) s fun m => m.boot = .init ∧ m.epoch ≠ 0 ∧
      m.cpState 0 = (if cp0 then 0 else 2) ∧ m.cpState 1 = (if cp1 then 0 else 2) ∧
      m.node = BitVec.ofNat 16 ((recValue s.flash.settings).getD 0) ∧
      (∀ n < 256, m.fld (YWP_EXP_GEN n) YWP_EXP_GEN_gen ≠ 0) ∧ m.library.1.length ≤ 8192 ∧ m.library.2.length ≤ 64) ∧
    ((cp0 || cp1) = false → Answers (.cpSelfTestDone cp0 cp1 true) s fun m => m.boot = .failure) := by
  have hne : s.boot ≠ .off := by rw [hboot]; decide
  have hrun := cpSelfTestDone_eq hboot cp0 cp1
  refine ⟨fun hon => ?_, fun hoff => ?_⟩
  · rw [if_neg (by revert hon; cases cp0 <;> cases cp1 <;> decide)] at hrun
    obtain ⟨h0, h1⟩ := s.cpState_cpsShown cp0 cp1
    have hflash : (s.cpsShown cp0 cp1).flash = s.flash := rfl
    generalize s.cpsShown cp0 cp1 = k at hrun h0 h1 hflash
    obtain ⟨hphase, hepoch, hcp, hnode, hgen, hcode, haps⟩ := k.firmwareStarts_facts
    exact .of_ok hne (congrArg (ok s) hrun) ⟨hphase, hepoch, (Module.cpState_congr hcp _).trans h0,
      (Module.cpState_congr hcp _).trans h1, hflash ▸ hnode, hgen, hcode, haps⟩
  · rw [if_pos (by revert hoff; cases cp0 <;> cases cp1 <;> decide)] at hrun
    exact .of_ok hne (congrArg (ok s) hrun) rfl

/-! ### BOOT_READY -/

/-- DRAM once the fill that is due has been made. -/
def Module.dramFilled (m : Module) : Module :=
  if m.dramFillDue then { m with mem := m.mem.filter fun c => c.1 < dramBase, dramFillDue := false } else m

/-- READY, with the rollback fuses blown. -/
def Module.readyReached (m : Module) : Module := { m.blowFuses.setFld SYS_BOOT_STAT SYS_BOOT_STAT_ready 1 with boot := .ready }

theorem Module.dramFilled_byte (m : Module) {a : Nat} (ha : a < dramBase) : m.dramFilled.byte a = m.byte a := by
  unfold Module.dramFilled
  split
  · refine Module.byte_congr_at rfl ?_
    unfold Module.bank SMap.get
    dsimp only
    rw [SMap.find?_filter _ (fun x => decide (x < dramBase)) _ (decide_eq_true ha)]
  · rfl

theorem bootReady_answers (hboot : s.boot = .init) (hpower : s.power = 2) (hdram : s.dramReady = true) (hoff : s.goingOff = false) :
    Answers .bootReady s fun m => m.boot = .ready ∧ m.power = 2 ∧ m.bit SYS_BOOT_STAT SYS_BOOT_STAT_ready = true ∧
      m.otp = { s.otp with fuses := max s.otp.fuses (min 64 (s.fld SEC_BOOT SEC_BOOT_svn_image)) } ∧
      (∀ a < dramBase, m.byte a = s.byte a) ∧ (s.dramFillDue = false → m.mem = s.mem) := by
  have hne : s.boot ≠ .off := by rw [hboot]; decide
  have hrun : bootReady s.toModule = s.dramFilled.readyReached := by
    unfold bootReady
    rw [if_neg (by simp [hboot, hpower, hdram, hoff])]
    rfl
  have hregs : s.dramFilled.regs = s.regs := by unfold Module.dramFilled; split <;> rfl
  have hotp : s.dramFilled.otp = s.otp := by unfold Module.dramFilled; split <;> rfl
  have hbyte (a : Nat) (ha : a < dramBase) : s.dramFilled.byte a = s.byte a := s.dramFilled_byte ha
  have hmem (hdue : s.dramFillDue = false) : s.dramFilled.mem = s.mem := by
    unfold Module.dramFilled
    rw [hdue]
    rfl
  generalize s.dramFilled = k at hrun hregs hotp hbyte hmem
  have himage : k.fld SEC_BOOT SEC_BOOT_svn_image = s.fld SEC_BOOT SEC_BOOT_svn_image := Module.fld_congr (Module.rd_congr hregs _) _
  refine .of_ok hne (congrArg (ok s) hrun) ⟨rfl, ?_, ?_, ?_, fun a ha => hbyte a ha, hmem⟩
  · refine (Module.fld_congr (m := s.toModule) ?_ _).trans hpower
    exact (Module.rd_setFld_ne _ _ _ (by decide)).trans ((Module.rd_setFld_ne k _ _ (by decide)).trans (Module.rd_congr hregs _))
  · exact decide_eq_true (Module.fld_setFld _ _ _ _ (by decide) (by decide) (by decide))
  · rw [← himage, ← hotp]
    rfl
end

/-- Settles O56. -/
theorem bootCompletes : Obligations.BootCompletes := by
  intro s
  refine ⟨fun ok t ms hboot hready => dramTrainingDone_answers hboot hready ok t ms, fun a b hboot hslots => ⟨?_, ?_, ?_, ?_⟩,
    ?_, ?_, ?_⟩
  · exact fun hpower hsvn ha => firmwareVerified_wakes hboot hslots hpower hsvn ha
  · exact fun hpower hsvn hb ha => firmwareVerified_falls hboot hslots hpower hsvn hb ha
  · exact fun hpower hsvn ha hstorm => firmwareVerified_boots hboot hslots hpower hsvn ha hstorm
  · exact fun ha hb => firmwareVerified_fails hboot hslots ha hb
  · exact fun cp0 cp1 hboot hon => (cpSelfTestDone_answers hboot cp0 cp1).1 hon
  · exact fun hboot => (cpSelfTestDone_answers hboot false false).2 rfl
  · exact fun hboot hpower hdram hoff => bootReady_answers hboot hpower hdram hoff
end Sys2Proof.Machine
end

section
set_option Elab.async false
/-!
The registers of the power, security and debug blocks, beside what other units write.
-/
namespace Sys2Proof.Machine
open Sys2Proof

/-- The registers of power, security and debug, but for the count of events. -/
def Module.upper (m : Module) (off : Nat) : Word :=
  if (0x700000 ≤ off ∧ off < 0x7E0000) ∧ off ≠ DBG_TRACE then m.rd off else 0

section
variable {b m k : Module} {off : Nat}

theorem Agree.upper_rd (h : Agree Module.upper m k)
    (hoff : (0x700000 ≤ off ∧ off < 0x7E0000) ∧ off ≠ DBG_TRACE := by decide) : k.rd off = m.rd off := by
  have ho := congrFun h off
  unfold Module.upper at ho
  rwa [if_pos hoff, if_pos hoff] at ho

/-- What leaves every register but those of memory and of reports leaves these. -/
theorem Agree.upper_of_memory (h : Agree Module.besideMemory m k) : Agree Module.upper m k := by
  have hout : ∀ r ∈ reportRegs, ¬ ((0x700000 ≤ r ∧ r < 0x7E0000) ∧ r ≠ DBG_TRACE) := by decide
  funext o
  unfold Module.upper
  split
  · next ho =>
    refine h.besideMemory_rd ?_
    simp only [memoryReg, Bool.or_eq_false_iff, decide_eq_false_iff_not]
    exact ⟨by omega, fun hr => hout o hr ho⟩
  · rfl

theorem Module.wr_upper (m : Module) (v : Word) (h : ¬ (0x700000 ≤ off ∧ off < 0x7E0000)) :
    Agree Module.upper m (m.wr off v) := by
  funext o
  unfold Module.upper
  split
  · next ho =>
    refine Module.rd_wr_ne _ _ fun he => h ?_
    rw [← he]
    exact ho.1
  · rfl

theorem Module.setFld_upper (m : Module) (f : Bits) (v : Nat) (h : ¬ (0x700000 ≤ off ∧ off < 0x7E0000)) :
    Agree Module.upper m (m.setFld off f v) := m.wr_upper _ h

theorem Module.count_upper (m : Module) (n : Nat) (h : ¬ (0x700000 ≤ off ∧ off < 0x7E0000)) :
    Agree Module.upper m (m.count off n) := m.wr_upper _ h

theorem Module.upper_congr (h : k.regs = m.regs) : k.upper = m.upper := by
  have hrd : k.rd = m.rd := funext (Module.rd_congr h)
  unfold Module.upper
  rw [hrd]

/-- What leaves the registers. -/
theorem Agree.upperSame {l : Module} (h : Agree Module.upper b k)
    (he : l.doubleRecord = k.doubleRecord ∧ l.regs = k.regs := by constructor; dsimp only; rfl) : Agree Module.upper b l :=
  Eq.trans (Module.upper_congr he.2) h

/-- A loop over the numbers below n. -/
theorem Agree.foldl_range {α : Type} {π : Module → α} {f : Module → Nat → Module} {n : Nat}
    (hf : ∀ m i, i < n → Agree π m (f m i)) (h : Agree π b m) : Agree π b ((List.range n).foldl f m) :=
  List.foldlRecOn (motive := Agree π b) _ _ h fun k hk i hi => .after (hf k i (List.mem_range.1 hi)) hk

/-! ### What the units below write -/

theorem Module.reportRegions_upper (m : Module) : Agree Module.upper m (Module.reportRegions m) := by
  unfold Module.reportRegions
  refine .after (Module.setFld_upper _ _ _ (by decide)) ?_
  exact .foldl_range (fun _ _ _ => .after (Module.setFld_upper _ _ _ (by unfold SPM_ST_STAT; omega)) .refl) .refl

theorem Module.setChan_upper (m : Module) (ch : Nat) (c : DmaCh) (hch : ch < 64) :
    Agree Module.upper m (Module.setChan m ch c) := by
  unfold Module.setChan
  refine .after (Module.setFld_upper _ _ _ (by unfold DMA_OWN; omega)) ?_
  refine .after (Module.setFld_upper _ _ _ (by unfold DMA_CH_STAT; omega)) ?_
  refine .after (Module.setFld_upper _ _ _ (by unfold DMA_CH_STAT; omega)) ?_
  exact .upperSame .refl

theorem Module.freeChannel_upper (m : Module) (ch : Nat) (hch : ch < 64) :
    Agree Module.upper m (Module.freeChannel m ch) := by
  unfold Module.freeChannel
  exact .after (Module.setChan_upper (hch := by omega) ..) .refl

theorem Module.endList_upper (m : Module) (ch code : Nat) (tag : Word) (hch : ch < 64) :
    Agree Module.upper m (Module.endList m ch code tag) := by
  unfold Module.endList
  split
  · exact .kept (Module.completeMore_keeps ..) (fun _ => rfl) <| .after (Module.freeChannel_upper (hch := by omega) ..) .refl
  · exact .after (Module.freeChannel_upper (hch := by omega) ..) .refl

theorem Module.unhalt_upper (m : Module) (ch : Nat) (hch : ch < 64) : Agree Module.upper m (Module.unhalt m ch) := by
  unfold Module.unhalt
  exact .after (Module.setFld_upper _ _ _ (by unfold DMA_CH_STAT; omega)) .refl

theorem Module.detachDma_upper (m : Module) (n gen : Nat) : Agree Module.upper m (Module.detachDma m n gen) := by
  unfold Module.detachDma
  refine .foldl_range (fun _ _ _ => ?_) .refl
  dsimp only
  split
  · refine .ite (fun _ => ?_) fun _ => .refl
    exact .after (Module.freeChannel_upper (hch := by omega) ..) <| .after (Module.unhalt_upper (hch := by omega) ..) .refl
  · exact .refl

theorem Module.abortAllDma_upper (m : Module) : Agree Module.upper m (Module.abortAllDma m) := by
  unfold Module.abortAllDma
  refine .foldl_range (fun _ _ _ => ?_) .refl
  dsimp only
  split
  · refine .after (Module.endList_upper (hch := by omega) ..) ?_
    exact .after (Module.unhalt_upper (hch := by omega) ..) <| .kept (Module.open__keeps ..) (fun _ => rfl) .refl
  · exact .refl

theorem Module.setJobs_upper (m : Module) (l : List Job) : Agree Module.upper m (Module.setJobs m l) := by
  unfold Module.setJobs
  refine .after (Module.setFld_upper _ _ _ (by decide)) ?_
  exact .upperSame .refl

theorem Module.dropCommands_upper (m : Module) (n gen : Nat) : Agree Module.upper m (Module.dropCommands m n gen) := by
  unfold Module.dropCommands
  refine .after (Module.detachDma_upper ..) ?_
  refine .foldl_range (fun _ _ _ => .kept (Module.setFills_keeps ..) (fun _ => rfl) .refl) ?_
  refine .after (Module.setJobs_upper ..) ?_
  refine .upperSame ?_
  refine .after (Module.setFld_upper _ _ _ (by decide)) ?_
  refine .upperSame ?_
  exact .after (Module.setJobs_upper ..) .refl

theorem Module.endSession_upper (m : Module) (n reason : Nat) (byHost : Bool) :
    Agree Module.upper m (Module.endSession m n reason byHost) := by
  unfold Module.endSession
  split
  · exact .refl
  next s _ =>
  have hdrop : Agree Module.upper m
      ((if byHost then m else m.sendSession n 0x02 false (leBytes 4 reason)).dropCommands n s.gen) :=
    .after (Module.dropCommands_upper ..) <|
      .ite (fun _ => .refl) fun _ => .kept (Module.sendSession_keeps ..) (fun _ => rfl) .refl
  dsimp only
  generalize Module.dropCommands _ _ _ = k at hdrop ⊢
  exact .after (Agree.upper_of_memory (Module.raise_besideMemory ..)) (.upperSame hdrop)

theorem Module.endAllSessions_upper (m : Module) (reason : Nat) :
    Agree Module.upper m (Module.endAllSessions m reason) := by
  unfold Module.endAllSessions
  exact .foldl (fun _ _ => .after (Module.endSession_upper ..) .refl) _ .refl

theorem Module.closeWindow_upper (m : Module) (n : Nat) (hn : n < 256) :
    Agree Module.upper m (Module.closeWindow m n) := by
  unfold Module.closeWindow
  refine .ite (fun _ => ?_) fun _ => .refl
  refine .after (Module.setFld_upper _ _ _ (by unfold YWP_EXP_GEN; omega)) ?_
  exact .after (Module.setFld_upper _ _ _ (by unfold YWP_EXP_CTL; omega)) .refl

theorem Module.closeAllWindows_upper (m : Module) : Agree Module.upper m (Module.closeAllWindows m) := by
  unfold Module.closeAllWindows
  exact .foldl_range (fun _ _ _ => .after (Module.closeWindow_upper (hn := by omega) ..) .refl) .refl

theorem Module.reportBinding_upper (m : Module) (w : Nat) (hw : w < 64) :
    Agree Module.upper m (Module.reportBinding m w) := by
  unfold Module.reportBinding
  dsimp only
  split
  · refine .after (Module.setFld_upper _ _ _ (by unfold YWP_BIND_STAT; omega)) ?_
    refine .after (Module.setFld_upper _ _ _ (by unfold YWP_BIND_STAT; omega)) ?_
    refine .after (Module.setFld_upper _ _ _ (by unfold YWP_BIND_STAT; omega)) ?_
    refine .after (Module.wr_upper _ _ (by unfold YWP_BIND_SIZE; omega)) ?_
    exact .after (Module.wr_upper _ _ (by unfold YWP_BIND_TGT; omega)) .refl
  · refine .after (Module.setFld_upper _ _ _ (by unfold YWP_BIND_STAT; omega)) ?_
    refine .after (Module.setFld_upper _ _ _ (by unfold YWP_BIND_STAT; omega)) ?_
    refine .after (Module.setFld_upper _ _ _ (by unfold YWP_BIND_STAT; omega)) ?_
    refine .after (Module.wr_upper _ _ (by unfold YWP_BIND_SIZE; omega)) ?_
    refine .after (Module.setFld_upper _ _ _ (by unfold YWP_BIND_TGT; omega)) ?_
    exact .after (Module.setFld_upper _ _ _ (by unfold YWP_BIND_TGT; omega)) .refl

theorem Module.reportPlanned_upper (m : Module) : Agree Module.upper m (Module.reportPlanned m) := by
  unfold Module.reportPlanned
  exact .after (Module.setFld_upper _ _ _ (by decide)) <| .after (Module.setFld_upper _ _ _ (by decide)) .refl

theorem Module.setPortState_upper (m : Module) (p st : Nat) (hp : p < 36) :
    Agree Module.upper m (Module.setPortState m p st) := by
  unfold Module.setPortState
  exact .after (Module.setFld_upper _ _ _ (by unfold CAP_PORT_STATE; omega)) .refl

theorem Module.reportFill_upper (m : Module) (p : Nat) (hp : p < 36) : Agree Module.upper m (Module.reportFill m p) := by
  unfold Module.reportFill
  exact .after (Module.setFld_upper _ _ _ (by unfold CAP_SQ_STAT; omega)) .refl

theorem Module.unbindLane_upper (m : Module) (c : Nat) (hc : c < 36) : Agree Module.upper m (Module.unbindLane m c) := by
  unfold Module.unbindLane
  have hlane : m.fld (FE_CTX_STAT c) FE_CTX_STAT_lane < 8 := Bits.of_lt _ _
  refine .ite (fun _ => ?_) fun _ => .refl
  refine .after (Module.setFld_upper _ _ _ (by unfold FE_LANE_STAT laneOf; split <;> omega)) ?_
  exact .after (Module.wr_upper _ _ (by unfold FE_CTX_STAT; omega)) .refl

theorem Module.calEvent_upper (m : Module) (c : Nat) (r : CalRun) (err status : Nat) :
    Agree Module.upper m (Module.calEvent m c r err status) := by
  unfold Module.calEvent
  exact .after (Agree.upper_of_memory (Module.raiseCtx_besideMemory ..)) .refl

theorem Module.calReport_upper (m : Module) (c : Nat) (running : Bool) (runs kind err : Nat) (hc : c < 36) :
    Agree Module.upper m (Module.calReport m c running runs kind err) := by
  unfold Module.calReport
  refine .after (Module.setFld_upper _ _ _ (by unfold CAL_CTX_STAT; omega)) ?_
  refine .after (Module.setFld_upper _ _ _ (by unfold CAL_CTX_STAT; omega)) ?_
  refine .after (Module.setFld_upper _ _ _ (by unfold CAL_CTX_STAT; omega)) ?_
  exact .after (Module.setFld_upper _ _ _ (by unfold CAL_CTX_STAT; omega)) .refl

theorem Module.trainAbort_upper (m : Module) (p : Nat) (hp : p < 36) : Agree Module.upper m (Module.trainAbort m p) := by
  unfold Module.trainAbort
  refine .ite (fun _ => ?_) fun _ => .refl
  refine .after (Module.setPortState_upper (hp := by omega) ..) ?_
  exact .after (Module.setFld_upper _ _ _ (by unfold CAP_TRAIN_STAT; omega)) .refl

theorem Module.calEnd_upper (m : Module) (c err : Nat) (status : Option Nat) (hc : c < 36) :
    Agree Module.upper m (Module.calEnd m c err status) := by
  unfold Module.calEnd
  dsimp only
  split
  · exact .refl
  · split
    · refine .after (Module.calEvent_upper ..) <| .after (Module.calReport_upper (hc := by omega) ..) ?_
      refine .ite (fun _ => ?_) fun _ => ?_
      · refine .after (Module.trainAbort_upper (hp := by omega) ..) ?_
        refine .kept (Module.setPort_keeps ..) (fun _ => rfl) ?_
        refine .kept (Module.setCtx_keeps ..) (fun _ => rfl) ?_
        refine .ite (fun _ => ?_) fun _ => .kept (Module.setCal_keeps ..) (fun _ => rfl) .refl
        exact .after (Module.unbindLane_upper (hc := by omega) ..) <| .kept (Module.setCal_keeps ..) (fun _ => rfl) .refl
      · refine .kept (Module.setPort_keeps ..) (fun _ => rfl) ?_
        refine .kept (Module.setCtx_keeps ..) (fun _ => rfl) ?_
        refine .ite (fun _ => ?_) fun _ => .kept (Module.setCal_keeps ..) (fun _ => rfl) .refl
        exact .after (Module.unbindLane_upper (hc := by omega) ..) <| .kept (Module.setCal_keeps ..) (fun _ => rfl) .refl
    · refine .after (Module.calEvent_upper ..) <| .kept (Module.open__keeps ..) (fun _ => rfl) ?_
      refine .after (Module.calReport_upper (hc := by omega) ..) ?_
      refine .ite (fun _ => ?_) fun _ => ?_
      · refine .after (Module.trainAbort_upper (hp := by omega) ..) ?_
        refine .kept (Module.setPort_keeps ..) (fun _ => rfl) ?_
        refine .kept (Module.setCtx_keeps ..) (fun _ => rfl) ?_
        refine .ite (fun _ => ?_) fun _ => .kept (Module.setCal_keeps ..) (fun _ => rfl) .refl
        exact .after (Module.unbindLane_upper (hc := by omega) ..) <| .kept (Module.setCal_keeps ..) (fun _ => rfl) .refl
      · refine .kept (Module.setPort_keeps ..) (fun _ => rfl) ?_
        refine .kept (Module.setCtx_keeps ..) (fun _ => rfl) ?_
        refine .ite (fun _ => ?_) fun _ => .kept (Module.setCal_keeps ..) (fun _ => rfl) .refl
        exact .after (Module.unbindLane_upper (hc := by omega) ..) <| .kept (Module.setCal_keeps ..) (fun _ => rfl) .refl

theorem Module.calAbort_upper (m : Module) (c : Nat) (hc : c < 36) : Agree Module.upper m (Module.calAbort m c) := by
  unfold Module.calAbort
  exact .after (Module.calEnd_upper (hc := by omega) ..) .refl

theorem Module.reportStored_upper (m : Module) (c : Nat) (hc : c < 36) :
    Agree Module.upper m (Module.reportStored m c) := by
  unfold Module.reportStored
  exact .after (Module.setFld_upper _ _ _ (by unfold CAL_CTX_STAT; omega)) .refl

theorem Module.disablePort_upper (m : Module) (p : Nat) (hp : p < 36) : Agree Module.upper m (Module.disablePort m p) := by
  unfold Module.disablePort
  refine .after (Module.setFld_upper _ _ _ (by unfold CAP_SQ_STAT; omega)) ?_
  refine .after (Module.reportFill_upper (hp := by omega) ..) ?_
  refine .after (Module.wr_upper _ _ (by unfold CAP_FRAME_PERIOD; omega)) ?_
  refine .after (Module.wr_upper _ _ (by unfold CAP_PORT_STATE; omega)) ?_
  exact .kept (Module.setPort_keeps ..) (fun _ => rfl) <| .after (Module.calAbort_upper (hc := by omega) ..) .refl

theorem Module.abortTask_upper (m : Module) (e : EngPos) (a : Abort) : Agree Module.upper m (Module.abortTask m e a) := by
  unfold Module.abortTask
  dsimp only
  split
  · exact .refl
  · refine .ite (fun _ => .refl) fun _ => ?_
    refine .ite (fun _ => .kept (Module.setEng_keeps ..) (fun _ => rfl) .refl) fun _ => ?_
    refine .after (Module.count_upper _ _ (by unfold ENG_X_CNT_FAULT; omega)) ?_
    refine .after (Module.setFld_upper _ _ _ (by unfold ENG_X_STAT; omega)) ?_
    exact .kept (Module.setEng_keeps ..) (fun _ => rfl) .refl

theorem Module.endJob_upper (m : Module) (j : Job) (status result : Nat) :
    Agree Module.upper m (Module.endJob m j status result) := by
  unfold Module.endJob
  refine .kept (Module.withdrawDone_keeps ..) (fun _ => rfl) ?_
  refine .kept (Module.complete_keeps ..) (fun _ => rfl) ?_
  refine .ite (fun _ => .kept (Module.adjustJob_keeps ..) (fun _ => rfl) .refl) fun _ => ?_
  refine .after (Module.setFld_upper _ _ _ (by decide)) ?_
  exact .upperSame .refl

theorem Module.adjustJob_upper (m : Module) (id : Nat) (f : Job → Job) :
    Agree Module.upper m (Module.adjustJob m id f) := by
  unfold Module.adjustJob
  exact .upperSame .refl

theorem Module.ownChannels_upper (m : Module) (l : List Nat) (hl : ∀ ch ∈ l, ch < 64) :
    Agree Module.upper m (Module.ownChannels m l) := by
  unfold Module.ownChannels
  exact List.foldlRecOn (motive := Agree Module.upper m) _ _ .refl fun k hk ch hch =>
    .after (Module.setChan_upper (hch := hl ch hch) ..) hk

theorem Module.preemptAll_upper (m : Module) : Agree Module.upper m (Module.preemptAll m) := by
  unfold Module.preemptAll
  refine .foldl (fun _ _ => ?_) _ .refl
  dsimp only
  split
  · refine .ite (fun _ => ?_) fun _ => ?_
    · refine .after (Module.count_upper _ _ (by decide)) <| .after (Module.abortTask_upper ..) ?_
      split
      · refine .after (Module.count_upper _ _ (by decide)) ?_
        exact .after (Module.adjustJob_upper ..) <| .kept (Module.setEng_keeps ..) (fun _ => rfl) .refl
      · exact .refl
    · split
      · refine .after (Module.count_upper _ _ (by decide)) ?_
        exact .after (Module.adjustJob_upper ..) <| .kept (Module.setEng_keeps ..) (fun _ => rfl) .refl
      · exact .refl
  · split
    · refine .after (Module.count_upper _ _ (by decide)) ?_
      exact .after (Module.adjustJob_upper ..) <| .kept (Module.setEng_keeps ..) (fun _ => rfl) .refl
    · exact .refl

theorem Module.settleJob_upper (m : Module) (id : Nat) : Agree Module.upper m (Module.settleJob m id) := by
  unfold Module.settleJob
  dsimp only
  split
  · exact .refl
  · refine .ite (fun _ => .refl) fun _ => ?_
    refine .ite (fun _ => .refl) fun _ => ?_
    refine .ite (fun _ => .after (Module.endJob_upper ..) .refl) fun _ => ?_
    split
    · exact .after (Module.endJob_upper ..) .refl
    · exact .ite (fun _ => .after (Module.endJob_upper ..) .refl) fun _ => .refl

theorem Module.setSpare_upper (m : Module) (cl : Fin 8) (v : Nat) : Agree Module.upper m (Module.setSpare m cl v) := by
  unfold Module.setSpare
  exact .after (Module.setFld_upper _ _ _ (by unfold ENG_CL_STAT; omega)) .refl

theorem Module.testSpares_upper (m : Module) (old eng : Nat) : Agree Module.upper m (Module.testSpares m old eng) := by
  unfold Module.testSpares
  exact .foldl (fun _ _ => .ite (fun _ => .after (Module.setSpare_upper ..) .refl) fun _ => .refl) _ .refl

theorem Module.beginRelease_upper (m : Module) (c : Nat) (s : Stream) (by_ : Option (CmdRef × Fin 2)) (hc : c < 36) :
    Agree Module.upper m (Module.beginRelease m c s by_) := by
  unfold Module.beginRelease
  refine .after (Module.calAbort_upper (hc := by omega) ..) ?_
  exact .upperSame .refl

theorem Module.stopJob_upper (m : Module) (id status : Nat) : Agree Module.upper m (Module.stopJob m id status) := by
  unfold Module.stopJob
  refine .foldl (fun _ _ => ?_) _ .refl
  dsimp only
  split
  · split
    · refine .ite (fun _ => ?_) fun _ => ?_
      · refine .after (Module.abortTask_upper ..) ?_
        split
        · refine .ite (fun _ => ?_) fun _ => .refl
          exact .after (Module.adjustJob_upper ..) <| .kept (Module.setEng_keeps ..) (fun _ => rfl) .refl
        · exact .refl
      · split
        · refine .ite (fun _ => ?_) fun _ => .refl
          exact .after (Module.adjustJob_upper ..) <| .kept (Module.setEng_keeps ..) (fun _ => rfl) .refl
        · exact .refl
    · split
      · refine .ite (fun _ => ?_) fun _ => .refl
        exact .after (Module.adjustJob_upper ..) <| .kept (Module.setEng_keeps ..) (fun _ => rfl) .refl
      · exact .refl
  · split
    · refine .ite (fun _ => ?_) fun _ => .refl
      exact .after (Module.adjustJob_upper ..) <| .kept (Module.setEng_keeps ..) (fun _ => rfl) .refl
    · exact .refl

theorem Module.withdrawJob_upper (m : Module) (id : Nat) : Agree Module.upper m (Module.withdrawJob m id) := by
  unfold Module.withdrawJob
  split
  · exact .refl
  · refine .ite (fun _ => .refl) fun _ => ?_
    refine .ite (fun _ => .after (Module.endJob_upper ..) .refl) fun _ => ?_
    exact .after (Module.settleJob_upper ..) <| .after (Module.stopJob_upper ..) <| .after (Module.adjustJob_upper ..) .refl

theorem Module.feOff_upper (m : Module) (half : Nat) : Agree Module.upper m (Module.feOff m half) := by
  unfold Module.feOff
  refine List.foldlRecOn (motive := Agree Module.upper m) _ _ .refl fun k hk c hc => .trans hk ?_
  have hc36 : c < 36 := List.mem_range.1 (List.mem_filter.1 hc).1
  refine .after (Module.reportStored_upper (hc := by omega) ..) ?_
  refine .after (Module.setFld_upper _ _ _ (by unfold CAL_CTX_STAT; omega)) ?_
  refine .kept (Module.setCal_keeps ..) (fun _ => rfl) ?_
  refine .kept (Module.setCtx_keeps ..) (fun _ => rfl) ?_
  refine .kept (Module.setPort_keeps ..) (fun _ => rfl) ?_
  refine .upperSame ?_
  exact .after (Module.disablePort_upper (hp := by omega) ..) .refl

theorem Module.requeue_upper (m : Module) (e : EngPos) : Agree Module.upper m (Module.requeue m e) := by
  unfold Module.requeue
  dsimp only
  split
  · split
    · exact .after (Module.settleJob_upper ..) <| .after (Module.adjustJob_upper ..) .refl
    · exact .refl
  · split
    · exact .after (Module.settleJob_upper ..) <| .after (Module.adjustJob_upper ..) .refl
    · exact .refl
  · exact .refl

theorem Module.engOff_upper (m : Module) (eng : Nat) : Agree Module.upper m (Module.engOff m eng) := by
  unfold Module.engOff
  refine .foldl (fun _ _ => ?_) _ .refl
  refine .ite (fun _ => .refl) fun _ => ?_
  exact .kept (Module.setEng_keeps ..) (fun _ => rfl) <| .after (Module.requeue_upper ..) .refl

theorem Module.closeLinks_upper (m : Module) : Agree Module.upper m (Module.closeLinks m) := by
  unfold Module.closeLinks
  have hends : Agree Module.upper m (m.endAllSessions stNotReady).closeAllWindows :=
    .after (Module.closeAllWindows_upper ..) <| .after (Module.endAllSessions_upper ..) .refl
  dsimp only
  generalize Module.closeAllWindows _ = k at hends ⊢
  exact .foldl_range (fun _ _ _ => .after (Module.reportBinding_upper (hw := by omega) ..) .refl)
    (.trans hends (Module.upper_congr rfl))

theorem Module.loseCtl_upper (m : Module) : Agree Module.upper m (Module.loseCtl m) := by
  unfold Module.loseCtl
  have htorn : Agree Module.upper m m.tornStores := .kept (Module.tornStores_keeps ..) (fun _ => rfl) .refl
  generalize m.tornStores = k at htorn
  refine .after (Module.reportPlanned_upper ..) <| .after (Module.setJobs_upper ..) ?_
  exact .trans htorn (Module.upper_congr rfl)

end

end Sys2Proof.Machine
end

section
set_option Elab.async false
/-!
A mode change is not always what its rule says: a region that no plan of the module makes, wider than the whole scratchpad,
marks zones beyond the zone registers, among them the bits of PWR_MODE.
-/
namespace Sys2Proof.Machine
open Sys2Proof

section
variable {m k : Module}

/-- A command answers one module. -/
theorem module_of_ok {c : Instr} {s : State} (hboot : s.boot ≠ .off) (hk : exec c s = ok s k)
    (hm : exec c s = .next { s with toModule := m }) : m = k := by
  have heq := hm.symm.trans (hk.trans (congrArg Host.Outcome.next (if_neg hboot)))
  exact congrArg State.toModule (Host.Outcome.next.inj heq)

/-- A region under a plan's key whose last zone is bit 16 of PWR_MODE, where the mode in use shows. -/
def wideRegion : Region := ⟨1, 0, 0x1600050 * 2 ^ 20 + 1, true, .live, none⟩

/-- A re-planning in a module whose one region is the wide one. -/
def wideState : State :=
  { State.reset with modeChange := some ⟨1, .replanning, []⟩, regions := [(hiddenKey, wideRegion)] }

theorem modeBit_eq (w : Word) : PWR_MODE_mode.of w % 2 = (⟨16, 16⟩ : Bits).of w := by
  simp only [Bits.of, PWR_MODE_mode]
  omega

theorem zoneSpan_wideRegion (m : Module) :
    (m.zoneSpan wideRegion.base wideRegion.size true).fld PWR_MODE PWR_MODE_mode % 2 = 1 := by
  have hlast : m.zoneSpan wideRegion.base wideRegion.size true =
      ((List.range 0x1600050).foldl (fun (k : Module) g => k.setFld (SPM_ZONE (g / 32)) ⟨g % 32, g % 32⟩ true.toNat)
        m).setFld PWR_MODE ⟨16, 16⟩ 1 := by
    unfold Module.zoneSpan
    have hlo : wideRegion.base % 2 ^ 26 / 2 ^ 20 = 0 := by decide
    have hhi : (wideRegion.base % 2 ^ 26 + wideRegion.size - 1) / 2 ^ 20 = 0x1600050 := by decide
    simp only [hlo, hhi, Nat.sub_zero, Nat.zero_add]
    rw [List.range_succ, List.foldl_append]
    rfl
  rw [hlast]
  generalize List.foldl _ _ _ = k
  have hbit : (k.setFld PWR_MODE ⟨16, 16⟩ 1).fld PWR_MODE ⟨16, 16⟩ = 1 :=
    Module.fld_setFld _ _ _ _ (by decide) (by decide) (by decide)
  exact (modeBit_eq _).trans hbit

theorem holdPlans_one (m : Module) (r : Region) (off : Nat) :
    (m.holdPlans [] [(hiddenKey, r)]).rd off = (m.zoneSpan r.base r.size true).rd off := by
  have hlist : ([(hiddenKey, r)] : List (Nat × Region)).filter (fun r => hiddenKey ≤ r.1) = [(hiddenKey, r)] :=
    List.filter_eq_self.2 (by simp)
  unfold Module.holdPlans
  rw [hlist]
  rfl

theorem calAborts_keeps (m : Module) :
    Keeps (Fld.event ||| Fld.camera) m ((List.range 36).foldl (fun m c => m.calAbort c) m) :=
  .foldl (fun _ _ => .after (Module.calAbort_keeps ..) rfl .refl) _ .refl

theorem calAborts_upper (m : Module) : Agree Module.upper m ((List.range 36).foldl (fun m c => m.calAbort c) m) :=
  .foldl_range (fun _ _ hc => Module.calAbort_upper (hc := hc) ..) .refl

theorem inMode_keeps (m : Module) (mode : Nat) : Keeps (Fld.regs ||| Fld.modeChange) m (m.inMode mode) :=
  .after (Module.updateCap_keeps ..) rfl <| .after (Module.setFld_keeps ..) rfl <| .upd .refl

theorem unplanned_regions (h : m.streams = []) : m.unplanned.regions = m.regions := by
  have hall : Keeps (Fld.event ||| Fld.camera) m m.unplanned := by
    unfold Module.unplanned
    rw [h]
    exact .foldl (fun _ _ => .after (Module.calAbort_keeps ..) rfl .refl) _ .refl
  exact hall.view Module.regions (fun _ => rfl)

/-- What a re-planning without streams leaves, before the clips of the streams. -/
def Module.replanned (m : Module) (x : ModeChange) : Module :=
  let k := { m with draws := (m.inMode x.target).unplanned.draws }
  let k := { k with modeChange := some { x with phase := .stopping, plans := [] } }.preemptAll
  k.holdPlans [] (m.inMode x.target).unplanned.regions

theorem modeReplanDone_empty {x : ModeChange} (hcp : m.cpHalted = false) (hx : m.modeChange = some x)
    (hph : x.phase = .replanning) (hadm : m.admitting = none) (hst : m.streams = []) :
    modeReplanDone m =
      let k := (List.range 36).foldl (fun m c => m.calAbort c) (m.replanned x)
      { k with streams := (k.streams : List (Nat × Stream)).map fun e =>
        (e.1, if e.2.phase = .releasing then e.2 else { e.2 with phase := .stopped }) } := by
  have hplan (k : Module) : planAll (m.byAdmission.filter fun e => e.2.phase ≠ .releasing) k = ([], 0, [], k) := by
    have hby : m.byAdmission = [] := by
      unfold Module.byAdmission
      rw [hst]
      rfl
    rw [hby]
    rfl
  unfold modeReplanDone Module.firmware
  rw [if_neg (by simp [hcp])]
  dsimp only
  rw [hx]
  dsimp only
  rw [if_neg (by simp [hph, hadm]), hplan]
  dsimp only
  rw [if_neg (fun h => h rfl)]
  unfold Module.replanned
  generalize (m.inMode x.target).unplanned = p
  rfl

theorem replanned_stops (m : Module) (x : ModeChange) :
    (m.replanned x).modeChange = some { x with phase := .stopping, plans := [] } := by
  unfold Module.replanned
  exact ((Module.holdPlans_keeps ..).view Module.modeChange (fun _ => rfl)).trans
    ((Module.preemptAll_keeps ..).view Module.modeChange (fun _ => rfl))

/-- While streams stop, PWR_MODE shows the mode in use. -/
theorem mode_of_stopping {x : ModeChange} (hx : m.modeChange = some x) (hph : x.phase = .stopping) :
    m.mode = m.fld PWR_MODE PWR_MODE_mode := by
  unfold Module.mode
  rw [hx]
  exact if_neg (by simp [hph])

theorem replanned_mode {x : ModeChange} {r : Region} (hst : m.streams = []) (hr : m.regions = [(hiddenKey, r)]) :
    ∃ k : Module, (m.replanned x).rd PWR_MODE = (k.zoneSpan r.base r.size true).rd PWR_MODE := by
  have hregions : (m.inMode x.target).unplanned.regions = [(hiddenKey, r)] :=
    (unplanned_regions (((inMode_keeps ..).view Module.streams (fun _ => rfl)).trans hst)).trans
      (((inMode_keeps ..).view Module.regions (fun _ => rfl)).trans hr)
  unfold Module.replanned
  rw [hregions]
  exact ⟨_, holdPlans_one ..⟩

theorem modeReplanDone_wide {x : ModeChange} (hcp : m.cpHalted = false) (hx : m.modeChange = some x)
    (hph : x.phase = .replanning) (hadm : m.admitting = none) (hst : m.streams = [])
    (hr : m.regions = [(hiddenKey, wideRegion)]) : (modeReplanDone m).mode % 2 = 1 := by
  rw [modeReplanDone_empty hcp hx hph hadm hst]
  have hstop := replanned_stops m x
  obtain ⟨k, hk⟩ := replanned_mode (x := x) hst hr
  generalize m.replanned x = a at hstop hk ⊢
  have hkeep := ((calAborts_keeps a).view Module.modeChange (fun _ => rfl)).trans hstop
  have hrd := (calAborts_upper a).upper_rd (off := PWR_MODE)
  generalize List.foldl _ _ _ = b at hkeep hrd ⊢
  change b.mode % 2 = 1
  rw [mode_of_stopping hkeep rfl]
  have hb : b.rd PWR_MODE = (k.zoneSpan wideRegion.base wideRegion.size true).rd PWR_MODE := hrd.trans hk
  exact (congrArg (· % 2) (congrArg PWR_MODE_mode.of hb)).trans (zoneSpan_wideRegion k)

end

end Sys2Proof.Machine

namespace Sys2Proof
open Machine

/-- Refutes O39: with `wideState`, no stream fails its new plan, and yet the mode in use does not stay while the streams stop,
since the zones of the wide region reach PWR_MODE. -/
theorem not_modeChangesComplete : ¬ Obligations.ModeChangesComplete := by
  unfold Obligations.ModeChangesComplete
  intro h
  obtain ⟨-, hreplan, -⟩ := h wideState (by decide)
  obtain ⟨-, hgood⟩ := hreplan ⟨1, .replanning, []⟩ rfl rfl (by decide) rfl rfl
  obtain ⟨m, hm, -, hmode, -⟩ := hgood rfl
  have hrun : m = modeReplanDone wideState.toModule := module_of_ok (by decide) rfl hm
  have hodd := modeReplanDone_wide (m := wideState.toModule) rfl rfl rfl rfl rfl rfl
  rw [← hrun, hmode] at hodd
  exact absurd hodd (by decide)

end Sys2Proof
end

section
set_option Elab.async false
/-!
Commits and the control writes of a context (R76, R126, R135).
-/
namespace Sys2Proof.Machine
open Sys2Proof

section
variable {s : State} {m k : Module} {src : BusSource} {c : PortId} {t : Word} {set : ParamSet} {next we : Bool}

/-! ### The rows -/

/-- The row of FE_COMMIT. -/
def commitRow : RegRow := ⟨FE_COMMIT 0, 0x400, 36, 0x4, 1, [⟨FE_COMMIT_with_exposure, .wo, 0, 0, 1, .plain⟩,
  ⟨FE_COMMIT_next, .wo, 0, 0, 1, .plain⟩, ⟨FE_COMMIT_commit, .wo, 0, 0, 1, .plain⟩]⟩

/-- The row of NIS_HIST_CTL. -/
def histCtlRow : RegRow := ⟨NIS_HIST_CTL 0, 0x400, 36, 0x4, 1, [⟨NIS_HIST_CTL_reset, .wo, 0, 0, 1, .plain⟩]⟩

/-- The row of NIS_OUT_CTL. -/
def outCtlRow : RegRow := ⟨NIS_OUT_CTL 0 0, 0x400, 36, 0x40, 4, [⟨NIS_OUT_CTL_resume, .wo, 0, 0, 1, .plain⟩]⟩

theorem regAt_FE_COMMIT : ∀ c : Fin 36, regAt (FE_COMMIT c) commitRow c 0 = true := by decide +kernel

theorem regAt_NIS_HIST_CTL : ∀ c : Fin 36, regAt (NIS_HIST_CTL c) histCtlRow c 0 = true := by decide +kernel

theorem regAt_NIS_OUT_CTL : ∀ (c : Fin 36) (k : Fin 4), regAt (NIS_OUT_CTL c k) outCtlRow c k = true := by decide +kernel

/-! ### Commits -/

/-- The word that FE_COMMIT writes. -/
def commitWord (next we : Bool) : Word :=
  FE_COMMIT_commit.put (FE_COMMIT_next.put (FE_COMMIT_with_exposure.put 0 we.toNat) next.toNat) 1

theorem commitWord_fields : ∀ next we : Bool, commitRow.fields.all (·.takes (commitWord next we)) = true ∧
    FE_COMMIT_commit.of (commitWord next we) = 1 ∧ decide (FE_COMMIT_next.of (commitWord next we) = 1) = next ∧
    decide (FE_COMMIT_with_exposure.of (commitWord next we) = 1) = we := by decide

theorem Module.writeReg_commit (m : Module) (src : BusSource) (c : PortId) (next we : Bool) (new : Word) :
    m.writeReg src commitRow c 0 (FE_COMMIT c) (commitWord next we) new = m.feCommit c next we := by
  obtain ⟨-, hcommit, hnext, hwe⟩ := commitWord_fields next we
  rw [Module.writeReg_ctx _ _ _ _ _ _ _ (by unfold FE_COMMIT; omega) (by unfold FE_COMMIT; omega)]
  unfold Module.writeCtx
  rw [if_pos (show commitRow.base = FE_COMMIT 0 from rfl), if_pos hcommit, hnext, hwe]

/-- The frame that a commit is for. -/
def Module.commitTarget (m : Module) (c : Nat) (next we : Bool) : Word :=
  if next then m.earliestTarget c we else m.rd (FE_COMMIT_FRAME c)

theorem Module.feCommit_refused {e : Nat}
    (h : m.commitError c (m.commitTarget c next we) we (m.shadowSet c ((m.ctx c).psid + 1)) = some e) :
    m.feCommit c next we =
      (if e = 5 then stNotReady else stRefused, m.setFld (FE_COMMIT_STAT c) FE_COMMIT_STAT_last_error e) := by
  unfold Module.commitTarget at h
  simp only [Module.feCommit, h]

theorem Module.commitError_le {n e : Nat} (h : m.commitError n t we set = some e) : e ≤ 5 := by
  unfold Module.commitError at h
  dsimp only at h
  repeat' split at h
  all_goals cases h
  all_goals decide

/-- What a commit leaves: the pending set in the context, and the report of it. -/
theorem Module.feCommit_taken
    (h : m.commitError c (m.commitTarget c next we) we (m.shadowSet c ((m.ctx c).psid + 1)) = none) :
    ∃ k : Module, ∃ x : Ctx, x.pending = some ⟨m.commitTarget c next we, m.shadowSet c ((m.ctx c).psid + 1)⟩ ∧
      x.psid = (m.ctx c).psid + 1 ∧ x.current = (m.ctx c).current ∧
      m.feCommit c next we = (stOk, (((((k.setCtx c x).setFld (FE_COMMIT_STAT c) FE_COMMIT_STAT_pending 1).setFld
        (FE_COMMIT_STAT c) FE_COMMIT_STAT_last_error 0).wr (FE_COMMIT_PSID c) ((m.ctx c).psid + 1)).wr (FE_COMMIT_APPLY c)
          (m.commitTarget c next we))) := by
  unfold Module.commitTarget at h ⊢
  simp only [Module.feCommit, h]
  refine ⟨_, _, ?_, ?_, ?_, rfl⟩ <;> rfl

theorem commitStat_ne : FE_COMMIT_STAT c ≠ FE_COMMIT_PSID c ∧ FE_COMMIT_STAT c ≠ FE_COMMIT_APPLY c ∧
    FE_COMMIT_PSID c ≠ FE_COMMIT_APPLY c := by
  simp [FE_COMMIT_STAT, FE_COMMIT_PSID, FE_COMMIT_APPLY]

theorem ctxReg_written {r : RegRow} {i off : Nat} {v : Word} {o : Nat} (h : o < 0x0A0000) (hlo : 0x040000 ≤ o) :
    (m.writeAnswer k src r i off v).rd o = k.rd o :=
  Module.writeAnswer_rd (by simp [JNL_NEXT, JNL_OLDEST]; omega)

theorem feCommit_transition (m : Module) (c : Nat) (next we : Bool) : (m.feCommit c next we).2.transition = m.transition :=
  (Module.feCommit_keeps ..).view (·.transition) fun _ => rfl

theorem feCommit_taken_answers (ha : Admits s src true (FE_COMMIT c))
    (h : s.commitError c (s.commitTarget c next we) we (s.shadowSet c ((s.ctx c).psid + 1)) = none) :
    Answers (.feCommit src c next we) s fun m =>
      m.busStatus = 0 ∧
      (m.ctx c).pending = some ⟨s.commitTarget c next we, s.shadowSet c ((s.ctx c).psid + 1)⟩ ∧
      (m.ctx c).psid = (s.ctx c).psid + 1 ∧ (m.ctx c).current = (s.ctx c).current ∧
      m.rd (FE_COMMIT_PSID c) = (s.ctx c).psid + 1 ∧ m.rd (FE_COMMIT_APPLY c) = s.commitTarget c next we ∧
      m.bit (FE_COMMIT_STAT c) FE_COMMIT_STAT_pending = true := by
  obtain ⟨k, x, hpending, hpsid, hcurrent, hrun⟩ := Module.feCommit_taken h
  have ht := feCommit_transition s.toModule c next we
  rw [hrun] at ht
  obtain ⟨hsp, hsa, hpa⟩ := commitStat_ne (c := c)
  have hctx (y : Module) : (((((y.setCtx c x).setFld (FE_COMMIT_STAT c) FE_COMMIT_STAT_pending 1).setFld
      (FE_COMMIT_STAT c) FE_COMMIT_STAT_last_error 0).wr (FE_COMMIT_PSID c) ((s.ctx c).psid + 1)).wr (FE_COMMIT_APPLY c)
        (s.commitTarget c next we)).ctx c = x := Module.ctx_setCtx_same y c x
  refine ha.runs rfl (regAt_FE_COMMIT c) (commitWord_fields next we).1 (Module.setupHeld_of_plain rfl _ _)
    (List.cons_ne_nil _ _) ((Module.writeReg_commit ..).trans hrun) ht ⟨rfl, ?_, ?_, ?_, ?_, ?_, ?_⟩
  · rw [Module.writeAnswer_ctx, hctx, hpending]
  · rw [Module.writeAnswer_ctx, hctx, hpsid]
  · rw [Module.writeAnswer_ctx, hctx, hcurrent]
  · rw [ctxReg_written (by unfold FE_COMMIT_PSID; omega) (by unfold FE_COMMIT_PSID; omega), Module.rd_wr_ne _ _ hpa,
      Module.rd_wr_same]
  · rw [ctxReg_written (by unfold FE_COMMIT_APPLY; omega) (by unfold FE_COMMIT_APPLY; omega), Module.rd_wr_same]
  · refine decide_eq_true ?_
    rw [Module.fld_congr (ctxReg_written (by unfold FE_COMMIT_STAT; omega) (by unfold FE_COMMIT_STAT; omega)) _,
      Module.fld_wr_other _ _ _ hsa, Module.fld_wr_other _ _ _ hsp,
      Module.fld_setFld_ne _ _ _ _ _ (by decide) (by decide) (by decide)]
    exact Module.fld_setFld _ _ _ _ (by decide) (by decide) (by decide)

theorem feCommit_refused_answers {e : Nat} (ha : Admits s src true (FE_COMMIT c))
    (h : s.commitError c (s.commitTarget c next we) we (s.shadowSet c ((s.ctx c).psid + 1)) = some e) :
    Answers (.feCommit src c next we) s fun m => m.busStatus = (if e = 5 then 1 else 3) ∧
      m.fld (FE_COMMIT_STAT c) FE_COMMIT_STAT_last_error = e ∧ OnlyRegs s m [FE_COMMIT_STAT c] := by
  obtain ⟨hboot, -, hgate, hon⟩ := ha
  have hlt : e < 2 ^ 4 := Nat.lt_of_le_of_lt (Module.commitError_le h) (by decide)
  have hst : (if e = 5 then stNotReady else stRefused) ≠ stOk := by split <;> decide
  refine .of_ok hboot (congrArg (ok s) (Module.accessWrite_turned hgate (regAt_FE_COMMIT c) hon (commitWord_fields next we).1
    (Module.setupHeld_of_plain rfl _ _) (List.cons_ne_nil _ _)
    ((Module.writeReg_commit ..).trans (Module.feCommit_refused h)) hst rfl)) ⟨?_, ?_, ?_⟩
  · by_cases h5 : e = 5
    · rw [if_pos h5, if_pos h5]
      rfl
    · rw [if_neg h5, if_neg h5]
      rfl
  · exact Module.fld_setFld _ _ _ _ (by decide) (by decide) hlt
  · exact onlyRegs_of (.kept (Module.busAnswer_keeps ..) (fun _ => rfl) <|
      .after (Module.setFld_unreported _ _ _ (List.mem_singleton.2 rfl)) .refl)
      (G := Fld.besideRegs) (.after (Module.busAnswer_keeps ..) rfl <| .after (Module.setFld_keeps ..) rfl .refl) rfl

/-! ### History resets and resumed outputs -/

theorem Module.writeReg_histCtl (m : Module) (src : BusSource) (c : PortId) (new : Word) :
    m.writeReg src histCtlRow c 0 (NIS_HIST_CTL c) (NIS_HIST_CTL_reset.put 0 1) new =
      (stOk, m.setCtx c { m.ctx c with histReset := true }) := by
  rw [Module.writeReg_ctx _ _ _ _ _ _ _ (by unfold NIS_HIST_CTL; omega) (by unfold NIS_HIST_CTL; omega)]
  rfl

theorem Module.writeReg_outCtl (m : Module) (src : BusSource) (c : PortId) (k : Fin 4) (new : Word) :
    m.writeReg src outCtlRow c k (NIS_OUT_CTL c k) (NIS_OUT_CTL_resume.put 0 1) new = (stOk, m.resumeOutput c k) := by
  rw [Module.writeReg_ctx _ _ _ _ _ _ _ (by unfold NIS_OUT_CTL; omega) (by unfold NIS_OUT_CTL; omega)]
  rfl

theorem histResetWrite_answers (ha : Admits s src true (NIS_HIST_CTL c)) : Answers (.histResetWrite src c) s fun m =>
    m.busStatus = 0 ∧ (m.ctx c).histReset = true ∧ ∀ q, q ≠ c.val → m.ctx q = s.ctx q := by
  refine ha.runs rfl (regAt_NIS_HIST_CTL c) (by decide) (Module.setupHeld_of_plain rfl _ _) (List.cons_ne_nil _ _)
    (Module.writeReg_histCtl ..) rfl ⟨rfl, ?_, fun q hq => ?_⟩
  · rw [Module.writeAnswer_ctx, Module.ctx_setCtx_same]
  · rw [Module.writeAnswer_ctx, Module.ctx_setCtx_ne _ _ hq]

/-- A stream whose halted output is to go on. -/
def Stream.resumes (x : Stream) (halted : Bool) (n : Nat) : Stream :=
  if halted && !x.outResume.contains n then { x with outResume := x.outResume ++ [n] } else x

theorem Stream.resumes_mem (x : Stream) (n : Nat) :
    n ∈ (x.resumes true n).outResume ∧ (x.resumes true n).setup = x.setup := by
  unfold Stream.resumes
  split
  · exact ⟨List.mem_append_right _ (List.mem_singleton.2 rfl), rfl⟩
  · next h => exact ⟨by simpa using h, rfl⟩

theorem Module.resumeOutput_find (m : Module) (c n : Nat) (x : Stream)
    (hhalt : m.bit (NIS_OUT_STAT c n) NIS_OUT_STAT_window_halted = true) (hx : m.streams.find? c = some x) :
    ∃ y, (m.resumeOutput c n).streams.find? c = some y ∧ n ∈ y.outResume ∧ y.setup = x.setup := by
  refine ⟨x.resumes true n, ?_, x.resumes_mem n⟩
  have hins : (m.resumeOutput c n).streams =
      m.streams.insert c (x.resumes (m.bit (NIS_OUT_STAT c n) NIS_OUT_STAT_window_halted) n) := by
    simp only [Module.resumeOutput, SMap.adjust, hx]
    rfl
  rw [hins, hhalt, SMap.find?_insert_same]

theorem outputResume_answers {k : Fin 4} {x : Stream} (ha : Admits s src true (NIS_OUT_CTL c k))
    (hhalt : s.bit (NIS_OUT_STAT c k) NIS_OUT_STAT_window_halted = true) (hx : s.streams.find? c.val = some x) :
    Answers (.outputResume src c k) s fun m =>
      m.busStatus = 0 ∧ ∃ y, m.streams.find? c.val = some y ∧ k.val ∈ y.outResume ∧ y.setup = x.setup := by
  obtain ⟨y, hy, hmem, hsetup⟩ := Module.resumeOutput_find s.toModule c k x hhalt hx
  refine ha.runs rfl (regAt_NIS_OUT_CTL c k) (by decide) (Module.setupHeld_of_plain rfl _ _) (List.cons_ne_nil _ _)
    (Module.writeReg_outCtl ..) rfl ⟨rfl, y, ?_, hmem, hsetup⟩
  exact (congrArg (SMap.find? · c.val) (Module.writeAnswer_keeps.view Module.streams fun _ => rfl)).trans hy

end

/-- Settles O17. -/
theorem contextControlCompletes : Obligations.ContextControlCompletes := by
  intro src c s
  refine ⟨fun next we ha => ⟨fun h => ?_, fun e h => ?_⟩, histResetWrite_answers, fun k x ha hhalt hx => ?_⟩
  · exact feCommit_taken_answers ha h
  · exact feCommit_refused_answers ha h
  · exact outputResume_answers ha hhalt hx

end Sys2Proof.Machine
end

section
set_option Elab.async false
/-!
A calibration's result is not always counted as its rule says: a training that leaves more taps than a port has writes
beyond the tap registers of its port, among them the counter of passed calibrations.
-/
namespace Sys2Proof.Machine
open Sys2Proof

section
variable {m k : Module} {r : CalRun} {x : CalResult}

/-- A finished training that leaves these taps. -/
def tapRun (l : List Nat) : CalRun :=
  ⟨4, 0, false, 0, none, 0, none, 0, [0, 0, 0, 0], some (l, 12, 64), none, none, none, true, false⟩

/-- Port 0 is ready, and its training has ended with these taps. -/
def tapState (l : List Nat) : State :=
  { State.reset with regs := (Module.reset.setFld (CAP_PORT_STATE 0) CAP_PORT_STATE_state 2).regs
                     cals := [(0, { Cal.rest with run := some (tapRun l) })] }

/-! ### The counter of passed calibrations of port 0 -/

/-- The counter of passed calibrations of port 0. -/
def Module.passes (m : Module) : Word := m.rd (CAL_CNT_PASS 0)

theorem Module.wr_passes (m : Module) {off : Nat} (v : Word) (h : CAL_CNT_PASS 0 ≠ off) : Agree Module.passes m (m.wr off v) :=
  Module.rd_wr_ne _ _ h

theorem Module.setFld_passes (m : Module) {off : Nat} (b : Bits) (v : Nat) (h : CAL_CNT_PASS 0 ≠ off) :
    Agree Module.passes m (m.setFld off b v) := m.wr_passes _ h

theorem Agree.passes_of (h : Agree (Module.unreported []) m k) : Agree Module.passes m k :=
  h.unreported_rd List.not_mem_nil (by decide)

theorem Module.calReport_passes (m : Module) (running : Bool) (runs kind err : Nat) :
    Agree Module.passes m (m.calReport 0 running runs kind err) :=
  .after (Module.setFld_passes _ _ _ (by decide)) <| .after (Module.setFld_passes _ _ _ (by decide)) <|
    .after (Module.setFld_passes _ _ _ (by decide)) <| .after (Module.setFld_passes _ _ _ (by decide)) .refl

theorem Module.trainAbort_passes (m : Module) : Agree Module.passes m (m.trainAbort 0) :=
  .ite (fun _ => .after (Module.setFld_passes _ _ _ (by decide)) <| .after (Module.setFld_passes _ _ _ (by decide)) .refl)
    fun _ => .refl

theorem Module.unbindLane_passes (m : Module) : Agree Module.passes m (m.unbindLane 0) := by
  have hlane : m.fld (FE_CTX_STAT 0) FE_CTX_STAT_lane < 8 := Bits.of_lt _ _
  refine .ite (fun _ => ?_) fun _ => .refl
  exact .after (Module.setFld_passes _ _ _ (by unfold FE_LANE_STAT laneOf CAL_CNT_PASS; split <;> omega)) <|
    .after (Module.wr_passes _ _ (by decide)) .refl

theorem Module.calEnd_passes (m : Module) (err st : Nat) : Agree Module.passes m (m.calEnd 0 err (some st)) := by
  unfold Module.calEnd
  split
  · exact .refl
  · next r _ =>
    have hcal : Agree Module.passes m (m.setCal 0 { m.cal 0 with run := none }) :=
      .kept (Module.setCal_keeps ..) (fun _ => rfl) .refl
    dsimp only
    refine .after (.passes_of (Module.raiseCtx_unreported ..)) <| .after (Module.calReport_passes ..) <|
      .ite (fun _ => .after (Module.trainAbort_passes ..) ?_) fun _ => ?_
    all_goals
      exact .kept (Module.setPort_keeps ..) (fun _ => rfl) <| .kept (Module.setCtx_keeps ..) (fun _ => rfl) <|
        .ite (fun _ => .after (Module.unbindLane_passes ..) hcal) fun _ => hcal

theorem Module.calLast_passes (m : Module) (r : CalRun) : Agree Module.passes m (m.calLast 0 r) := by
  unfold Module.calLast
  split
  · exact .refl
  · exact .after (Module.setFld_passes _ _ _ (by decide)) <| .after (Module.setFld_passes _ _ _ (by decide)) <|
      .after (Module.wr_passes _ _ (by decide)) <| .after (Module.wr_passes _ _ (by decide)) <|
      .after (Module.wr_passes _ _ (by decide)) <| .kept (Module.setCal_keeps ..) (fun _ => rfl) .refl

/-- The last of the taps goes into bits 6:0 of the counter. -/
theorem Module.writeTaps_passes (m : Module) :
    CAP_DESKEW_tap0.of (m.writeTaps 0 (List.replicate 589797 64) 64).passes = 64 := by
  have hlast : ∃ k : Module, m.writeTaps 0 (List.replicate 589797 64) 64 =
      ((k.setFld (CAL_CNT_PASS 0) CAP_DESKEW_tap0 64).setFld (CAP_DESKEW4 0) CAP_DESKEW4_sync_tap 64).setFld
        (CAP_PORT_STATE 0) CAP_PORT_STATE_trained 1 := by
    unfold Module.writeTaps
    dsimp only
    rw [List.length_replicate, List.range_succ, List.foldl_append]
    simp only [List.foldl_cons, List.foldl_nil]
    rw [List.getElem?_replicate_of_lt (by decide)]
    exact ⟨_, rfl⟩
  obtain ⟨k, hk⟩ := hlast
  rw [hk]
  refine (congrArg CAP_DESKEW_tap0.of ((Module.setFld_passes _ _ _ (by decide)).trans
    (Module.setFld_passes _ _ _ (by decide)))).trans ?_
  exact Module.fld_setFld _ _ _ _ (by decide) (by decide) (by decide)

/-! ### The result -/

section
variable {l : List Nat}

/-- What a training that leaves these taps gives. -/
def Module.tapResult (m : Module) (l : List Nat) : CalResult := ⟨[], [], [], (m.ctx 0).current.fullMap 0, l, 12⟩

theorem calCompute_tapRun (m : Module) (l : List Nat) : m.calCompute 0 (tapRun l) = m.tapResult l := rfl

theorem calReady_tapRun (m : Module) (l : List Nat) : m.calReady 0 (tapRun l) = true ∧ m.calNoRegion 0 (tapRun l) = false :=
  ⟨rfl, rfl⟩

/-- Taps as the port has them are plausible. -/
theorem calPlausible_tapResult (hx : x.taps = l) (heye : x.minEye = 12) (hl : l ≠ []) (hl64 : ∀ t ∈ l, t = 64) (hused : ∀ t ∈ m.tapsOf 0, t = 64) :
    m.calPlausible 0 (tapRun l) x = true := by
  have hzip : ((x.taps.zip (m.tapsOf 0)).all fun p => decide (diffNat p.1 p.2 ≤ 16)) = true := by
    refine List.all_eq_true.2 fun p hp => decide_eq_true ?_
    obtain ⟨h1, h2⟩ := List.of_mem_zip (a := p.1) (b := p.2) hp
    have h64 : p.1 = 64 := hl64 _ (hx ▸ h1)
    rw [h64, hused _ h2]
    decide
  have hsync : diffNat 64 (((m.tapsOf 0)[16]?).getD 64) ≤ 16 := by
    have h : ((m.tapsOf 0)[16]?).getD 64 = 64 := by
      cases ht : (m.tapsOf 0)[16]? with
      | none => rfl
      | some t => exact hused t (List.mem_of_getElem? ht)
    rw [h]
    decide
  have hne : x.taps.isEmpty = false := by rw [hx]; exact List.isEmpty_eq_false_iff.2 hl
  unfold Module.calPlausible
  refine (if_neg (show ¬ (4 : Nat) ≤ 1 by decide)).trans ((if_pos rfl).trans ?_)
  simp only [tapRun, Option.map_some, Option.getD_some, hne, heye, hzip, hsync]
  rfl

/-- The module whose finished training becomes its result. -/
def Module.tapped (m : Module) (l : List Nat) : Module :=
  m.setCal 0 { m.cal 0 with run := some { tapRun l with runs := 1, prev := some (m.tapResult l) } }

theorem calResultReady_tapRun (hcp : m.cpHalted = false) (hrun : (m.cal 0).run = some (tapRun l))
    (hpl : (m.tapped l).calPlausible 0 (tapRun l) (m.tapResult l) = true) :
    calResultReady 0 m = ((m.tapped l).calPass 0 { tapRun l with runs := 1, prev := some (m.tapResult l) }
      (m.tapResult l)).calEnd 0 0 (some stOk) := by
  unfold calResultReady Module.firmware
  rw [if_neg (by simp [hcp])]
  dsimp only
  simp only [show ((0 : PortId) : Nat) = 0 from rfl]
  rw [hrun]
  dsimp only
  rw [(calReady_tapRun m l).1, (calReady_tapRun m l).2, calCompute_tapRun, if_neg (by decide), if_neg (by decide)]
  refine (if_neg (ne_true_of_eq_false (congrArg (!·) hpl))).trans (if_pos rfl)

end

/-- The passed result of a training: its taps are written, and then it is counted. -/
theorem calPass_tapRun_eq {r : CalRun} (hkind : r.kind = 4) (hpurpose : r.purpose = 0) (hstate : m.portState 0 = 2)
    (htaps : (r.taps.map (·.2.2)).getD 64 = 64) : ∃ (k : Module) (q : CalRun),
    m.calPass 0 r x = ((((k.writeTaps 0 x.taps 64).calLast 0 q).count (CAL_CNT_PASS 0) 1).reportValid 0).reportStored 0 := by
  have hport (y : Cal) : (m.setCal 0 y).portState 0 = 2 := hstate
  unfold Module.calPass
  dsimp only
  rw [hkind, hpurpose, htaps]
  have hstay (b : Bool) : (decide ((0 : Nat) = 1) || decide ((0 : Nat) = 3) && b) = false := rfl
  rw [if_neg (show ¬ (4 : Nat) ≤ 1 by decide), if_pos (show (4 : Nat) = 4 from rfl), hport,
    if_pos (show (decide ((0 : Nat) ≠ 2) && decide ((2 : Nat) = 2)) = true from rfl), if_neg (ne_true_of_eq_false (hstay _))]
  exact ⟨_, _, rfl⟩

theorem calPass_tapRun {r : CalRun} (hkind : r.kind = 4) (hpurpose : r.purpose = 0) (hstate : m.portState 0 = 2)
    (hx : x.taps = List.replicate 589797 64) (htaps : (r.taps.map (·.2.2)).getD 64 = 64) :
    ∃ w : Word, CAP_DESKEW_tap0.of w = 64 ∧
      ((m.calPass 0 r x).rd (CAL_CNT_PASS 0)).toNat = min (w.toNat + 1) 0xFFFFFFFF := by
  have hshown (k : Module) : ((k.reportValid 0).reportStored 0).rd (CAL_CNT_PASS 0) = k.rd (CAL_CNT_PASS 0) :=
    (Module.setFld_passes _ _ _ (by decide)).trans (Module.setFld_passes _ _ _ (by decide))
  obtain ⟨k, q, hk⟩ := calPass_tapRun_eq (x := x) hkind hpurpose hstate htaps
  rw [hk, hx, hshown, Module.rd_count_same_toNat]
  exact ⟨_, (congrArg CAP_DESKEW_tap0.of (Module.calLast_passes ..)).trans (Module.writeTaps_passes _), rfl⟩

/-- Neither 0 nor 1 has 64 before it in the bits of a tap. -/
theorem passed_beyond {w : Word} (h : CAP_DESKEW_tap0.of w = 64) :
    min (w.toNat + 1) 0xFFFFFFFF ≠ 1 ∧ min (w.toNat + 1) 0xFFFFFFFF ≠ 0 := by
  simp only [Bits.of, CAP_DESKEW_tap0] at h
  omega

end

end Sys2Proof.Machine

namespace Sys2Proof
open Machine

theorem exists_longTaps (n : Nat) (h : 0 < n) : ∃ l : List Nat, l = List.replicate n 64 ∧ l ≠ [] ∧ ∀ t ∈ l, t = 64 :=
  ⟨_, rfl, List.ne_nil_of_length_pos (by rwa [List.length_replicate]), fun _ => List.eq_of_mem_replicate⟩

/-- What `tapState` holds, whatever its taps. -/
theorem tapState_facts (l : List Nat) : (tapState l).boot ≠ .off ∧ ((tapState l).cal 0).run = some (tapRun l) ∧
    (tapState l).portState 0 = 2 ∧ (∀ t ∈ (tapState l).tapsOf 0, t = 64) ∧ (tapState l).rd (CAL_CNT_PASS 0) = 0 := by
  have hregs : (tapState l).regs = (tapState []).regs := rfl
  have hrd : (tapState l).rd = (tapState []).rd := funext (Module.rd_congr hregs)
  have htaps : (tapState l).tapsOf 0 = (tapState []).tapsOf 0 := by
    unfold Module.tapsOf Module.fld
    rw [hrd]
  have hstate : (tapState l).portState 0 = (Module.reset.setFld (CAP_PORT_STATE 0) CAP_PORT_STATE_state 2).portState 0 :=
    Module.fld_congr (Module.rd_congr (m := Module.reset.setFld (CAP_PORT_STATE 0) CAP_PORT_STATE_state 2) rfl _) _
  have hboot : (tapState l).boot = .verifying := rfl
  rw [htaps, hrd, hstate, hboot]
  exact ⟨by decide, rfl, Module.fld_setFld _ _ _ _ (by decide) (by decide) (by decide), by decide +kernel, by decide +kernel⟩

/-- Refutes O18: with a training that leaves 589797 taps, the calibration of `tapState` ends as passed, and CAL_CNT_PASS has become
neither 1 nor 0. -/
theorem not_calibrationCompletes : ¬ Obligations.CalibrationCompletes := by
  unfold Obligations.CalibrationCompletes
  intro h
  obtain ⟨l, hl, hne, h64⟩ := exists_longTaps 589797 (by decide)
  obtain ⟨hboot, hrun, hstate, hused, hzero⟩ := tapState_facts l
  obtain ⟨-, -, -, -, -, -, hsingle⟩ := h .control 0 (tapState l) hboot
  obtain ⟨m, hm, -, -, hcount⟩ := hsingle (tapRun l) rfl hrun rfl rfl rfl
  have hres : m = calResultReady 0 (tapState l).toModule := module_of_ok hboot rfl hm
  rw [calResultReady_tapRun rfl hrun (calPlausible_tapResult rfl rfl hne h64 hused)] at hres
  obtain ⟨w, hw, hpass⟩ := calPass_tapRun (m := (tapState l).tapped l) (x := (tapState l).tapResult l)
    (r := { tapRun l with runs := 1, prev := some ((tapState l).tapResult l) }) rfl rfl hstate hl rfl
  have hend : m.rd (CAL_CNT_PASS 0) = _ := (congrArg Module.passes hres).trans (Module.calEnd_passes ..)
  have hgone : (m.rd (CAL_CNT_PASS 0)).toNat = min (w.toNat + 1) 0xFFFFFFFF := (congrArg BitVec.toNat hend).trans hpass
  obtain ⟨hone, hnone⟩ := passed_beyond hw
  rcases hcount with ⟨hadd, -⟩ | ⟨-, hsame⟩
  · exact hone (hgone.symm.trans (hadd.trans (congrArg (fun v : Word => min (v.toNat + 1) 0xFFFFFFFF) hzero)))
  · exact hnone (hgone.symm.trans (congrArg BitVec.toNat (hsame.trans hzero)))

end Sys2Proof
end

section
set_option Elab.async false
/-!
The lane of a resident context, statistics records and the loops (R69, R73, R83, R95, R96, R101 to R106, R110, R111).
-/
namespace Sys2Proof.Machine
open Sys2Proof

section
variable {s : State} {m k : Module} {c : PortId} {f g : LaneFrame}

/-! ### The frames of a lane -/

theorem Module.adjustLane_ctx (m : Module) (n : Nat) {w : Word} (h : ∃ g ∈ (m.ctx n).frames, g.seq = w)
    (F : LaneFrame → LaneFrame) :
    (m.adjustLane n w F).ctx n = { m.ctx n with frames := (m.ctx n).frames.map fun g => if g.seq = w then F g else g } := by
  obtain ⟨g, hg, hw⟩ := h
  unfold Module.adjustLane
  rw [if_pos (List.any_eq_true.2 ⟨g, hg, decide_eq_true hw⟩), Module.ctx_setCtx_same]

theorem Module.adjustLane_ctx_ne (m : Module) {n q : Nat} (w : Word) (F : LaneFrame → LaneFrame) (h : q ≠ n) :
    (m.adjustLane n w F).ctx q = m.ctx q := by
  unfold Module.adjustLane
  dsimp only
  split
  · exact Module.ctx_setCtx_ne _ _ h
  · rfl

theorem Module.laneTidy_ctx (m : Module) (n : Nat) :
    (m.laneTidy n).ctx n = { m.ctx n with frames := (m.ctx n).frames.filter fun f => !m.laneDone n f } :=
  Module.ctx_setCtx_same ..

theorem Module.laneTidy_ctx_ne (m : Module) {n q : Nat} (h : q ≠ n) : (m.laneTidy n).ctx q = m.ctx q :=
  Module.ctx_setCtx_ne _ _ h

/-- A frame put in the place of one with its number is there. -/
theorem Module.putLane_mem {n : Nat} (hg : g ∈ (m.ctx n).frames) (hw : g.seq = f.seq) :
    f ∈ ((m.putLane n f).ctx n).frames := by
  unfold Module.putLane
  rw [Module.adjustLane_ctx _ _ ⟨g, hg, hw⟩]
  exact List.mem_map.2 ⟨g, hg, if_pos hw⟩

/-! ### Lines -/

/-- The line that enters counts in its lane. -/
def Module.laneCounted (m : Module) (n : Nat) : Module :=
  let lane := laneOf n (m.fld (FE_CTX_STAT n) FE_CTX_STAT_lane)
  m.wr (FE_LANE_LINES lane) (m.rd (FE_LANE_LINES lane) + 1)

/-- The first line of a frame changes the bank. -/
def Module.bankTurned (m : Module) (n : Nat) (f : LaneFrame) : Module :=
  if f.passed = 0 then m.setFld (FE_CTX_STAT n) FE_CTX_STAT_bank (1 - m.fld (FE_CTX_STAT n) FE_CTX_STAT_bank) else m

theorem laneLineStart_eq (hres : m.resident c = true)
    (hf : (m.ctx c).frames.find? (fun f => f.passed < f.lines.length) = some f) (hrun : (m.cal c).run = none) :
    laneLineStart c m = (((m.bankTurned c f).laneCounted c).adjustLane c f.seq
      fun g => { g with passed := g.passed + 1 }).laneTidy c := by
  have hkeep : (((m.bankTurned c f).laneCounted c).cal c).run = none := by
    unfold Module.bankTurned
    split <;> exact hrun
  unfold laneLineStart
  rw [if_neg (by simp [hres]), hf]
  dsimp only
  unfold Module.laneCounted Module.bankTurned at hkeep ⊢
  dsimp only at hkeep ⊢
  rw [hkeep]

theorem Module.bankTurned_rd (m : Module) (n : Nat) (f : LaneFrame) {o : Nat} (h : o ≠ FE_CTX_STAT n) :
    (m.bankTurned n f).rd o = m.rd o := by
  unfold Module.bankTurned
  split
  · exact Module.rd_setFld_ne _ _ _ h
  · rfl

theorem Module.bankTurned_lane (m : Module) (n : Nat) (f : LaneFrame) :
    (m.bankTurned n f).fld (FE_CTX_STAT n) FE_CTX_STAT_lane = m.fld (FE_CTX_STAT n) FE_CTX_STAT_lane := by
  unfold Module.bankTurned
  split
  · exact Module.fld_setFld_ne _ _ _ _ _ (by decide) (by decide) (by decide)
  · rfl

theorem Module.bankTurned_bank (h : f.passed = 0) (n : Nat) :
    (m.bankTurned n f).fld (FE_CTX_STAT n) FE_CTX_STAT_bank = (1 - m.fld (FE_CTX_STAT n) FE_CTX_STAT_bank) % 2 := by
  unfold Module.bankTurned
  rw [if_pos h, Module.fld_setFld _ _ _ _ (by decide) (by decide) (Nat.lt_of_le_of_lt (Nat.sub_le 1 _) (by decide))]
  exact (Nat.mod_eq_of_lt (Nat.lt_of_le_of_lt (Nat.sub_le 1 _) (by decide))).symm

theorem laneLines_ne (n l : Nat) (_ : l < 12) (_ : n < 36) : FE_LANE_LINES l ≠ FE_CTX_STAT n := by
  unfold FE_LANE_LINES FE_CTX_STAT
  omega

theorem laneOf_lt (m : Module) (n : Nat) : laneOf n (m.fld (FE_CTX_STAT n) FE_CTX_STAT_lane) < 12 := by
  have hlane : m.fld (FE_CTX_STAT n) FE_CTX_STAT_lane < 8 := Bits.of_lt _ _
  unfold laneOf
  split <;> omega

theorem laneLineStart_answers (hboot : s.boot ≠ .off) (hres : s.resident c = true)
    (hf : (s.ctx c).frames.find? (fun f => f.passed < f.lines.length) = some f) (hrun : (s.cal c).run = none)
    (hone : ∀ g ∈ (s.ctx c).frames, g.seq = f.seq → g = f) : Answers (.laneLineStart c) s fun m =>
      m.rd (FE_LANE_LINES (laneOf c (s.fld (FE_CTX_STAT c) FE_CTX_STAT_lane))) =
        s.rd (FE_LANE_LINES (laneOf c (s.fld (FE_CTX_STAT c) FE_CTX_STAT_lane))) + 1 ∧
      (f.passed = 0 → m.fld (FE_CTX_STAT c) FE_CTX_STAT_bank = (1 - s.fld (FE_CTX_STAT c) FE_CTX_STAT_bank) % 2) ∧
      (∀ g ∈ (m.ctx c).frames, g.seq = f.seq → g.passed = f.passed + 1) ∧ ∀ a, m.byte a = s.byte a := by
  have hlane := s.bankTurned_lane c f
  have hlt := laneOf_lt s.toModule c
  have hframes : ((s.bankTurned c f).laneCounted c).ctx c = s.ctx c := by
    unfold Module.bankTurned
    split <;> rfl
  have hkeep : Keeps (Fld.regs ||| Fld.ctxs) s.toModule (laneLineStart c s.toModule) := by
    rw [laneLineStart_eq hres hf hrun]
    refine .after (Module.laneTidy_keeps ..) rfl <| .after (Module.adjustLane_keeps ..) rfl <|
      .after (Module.wr_keeps ..) rfl ?_
    unfold Module.bankTurned
    exact .ite (fun _ => .after (Module.setFld_keeps ..) rfl .refl) fun _ => .refl
  have hregs : (laneLineStart c s.toModule).regs = ((s.bankTurned c f).laneCounted c).regs := by
    rw [laneLineStart_eq hres hf hrun]
    exact ((Module.laneTidy_keeps ..).view Module.regs fun _ => rfl).trans
      ((Module.adjustLane_keeps ..).view Module.regs fun _ => rfl)
  have hrd := Module.rd_congr hregs
  refine .of_ok hboot rfl ⟨?_, fun h0 => ?_, fun g hg hw => ?_, fun a => ?_⟩
  · rw [hrd]
    unfold Module.laneCounted
    rw [hlane, Module.rd_wr_same, Module.bankTurned_rd _ _ _ (laneLines_ne _ _ hlt c.isLt)]
  · rw [Module.fld_congr (hrd _)]
    unfold Module.laneCounted
    rw [hlane, Module.fld_wr_other _ _ _ (laneLines_ne _ _ hlt c.isLt).symm, Module.bankTurned_bank h0]
  · rw [laneLineStart_eq hres hf hrun, Module.laneTidy_ctx] at hg
    have hg' := List.mem_of_mem_filter hg
    rw [Module.adjustLane_ctx _ _ (hframes ▸ ⟨f, List.mem_of_find?_eq_some hf, rfl⟩), hframes] at hg'
    obtain ⟨x, hx, rfl⟩ := List.mem_map.1 hg'
    by_cases hxw : x.seq = f.seq
    · rw [if_pos hxw, hone x hx hxw]
    · rw [if_neg hxw] at hw
      exact absurd hw hxw
  · exact hkeep.view (fun x : Module => x.byte a) fun _ => rfl

/-! ### Stripes -/

/-- A frame with its next crop line. -/
def Module.lineOut (m : Module) (n : Nat) (f : LaneFrame) : LaneFrame :=
  { f with out := f.out ++ [(m.laneIn n f.set ((f.lines.take f.passed).map LaneLine.px)).cropLine f.out.length] }

theorem writeStripes_ctx (m : Module) (n : Nat) (g : StripeGeom) (base : Nat) (x : LaneFrame) (bal : List (List Pix)) (y : Nat)
    (l : List Nat) : (l.foldl (fun m k => m.writeStripe n g base x bal y k) m).ctx = m.ctx := by
  have hkeep : Keeps Fld.write m (l.foldl (fun m k => m.writeStripe n g base x bal y k) m) :=
    .foldl (fun _ _ => .after (Module.writeStripe_keeps ..) rfl .refl) _ .refl
  exact hkeep.view Module.ctx fun _ => rfl

theorem laneOutputLine_ctx (hres : m.resident c = true) (hst : (m.streams.find? c.val).isSome)
    (hf : (m.ctx c).frames.find? (fun f => f.out.length < (m.stripes c).lines) = some f)
    (hdue : (m.laneIn c f.set ((f.lines.take f.passed).map LaneLine.px)).due f.out.length ≤ f.passed)
    (hfree : ∀ r, m.region? (m.rd (NIS_IN_REGION c)) = some r →
      m.slotBusy (m.stripes c) r.base f f.out.length = false) :
    (laneOutputLine c m).ctx = (m.putLane c (m.lineOut c f)).ctx := by
  have hstream : (!m.resident c || (m.streams.find? c.val).isNone) = false := by
    rw [hres, Option.isNone_eq_false_iff.2 hst]
    rfl
  unfold laneOutputLine
  rw [if_neg (ne_true_of_eq_false hstream)]
  dsimp only
  rw [hf]
  dsimp only
  rw [if_neg (Nat.not_lt.2 hdue)]
  cases hr : m.region? (m.rd (NIS_IN_REGION c)) with
  | none => rfl
  | some r =>
    exact (congrArg Module.ctx (if_neg (ne_true_of_eq_false (hfree r hr)))).trans (writeStripes_ctx ..)

theorem laneOutputLine_answers (hboot : s.boot ≠ .off) (hres : s.resident c = true)
    (hst : (s.streams.find? c.val).isSome)
    (hf : (s.ctx c).frames.find? (fun f => f.out.length < (s.stripes c).lines) = some f)
    (hdue : (s.laneIn c f.set ((f.lines.take f.passed).map LaneLine.px)).due f.out.length ≤ f.passed)
    (hfree : ∀ r, s.region? (s.rd (NIS_IN_REGION c)) = some r →
      s.slotBusy (s.stripes c) r.base f f.out.length = false) :
    Answers (.laneOutputLine c) s fun m => ∃ g ∈ (m.ctx c).frames, g.seq = f.seq ∧
      g.out = f.out ++ [(s.laneIn c f.set ((f.lines.take f.passed).map LaneLine.px)).cropLine f.out.length] := by
  refine .of_ok hboot rfl ⟨s.lineOut c f, ?_, rfl, rfl⟩
  rw [laneOutputLine_ctx hres hst hf hdue hfree]
  exact Module.putLane_mem (List.mem_of_find?_eq_some hf) rfl

/-- The objects that a stripe's end advances. -/
def Module.stripeSignals (m : Module) (n : Nat) (f : LaneFrame) : Module :=
  let k := m.addSync (m.fld (NIS_IN_SYNC n) NIS_IN_SYNC_stripe_obj) 1
  if f.signalled + 1 = (m.stripes n).count && m.bit (NIS_IN_SYNC n) NIS_IN_SYNC_frame_en then
    k.addSync (m.fld (NIS_IN_SYNC n) NIS_IN_SYNC_frame_obj) 1
  else k

theorem stripeReady_eq (hst : (m.streams.find? c.val).isSome)
    (hf : (m.ctx c).frames.find? (fun f => f.signalled < (m.stripes c).count) = some f)
    (hneed : (m.stripes c).need f.signalled ≤ f.out.length) :
    stripeReady c m = ((m.stripeSignals c f).putLane c { f with signalled := f.signalled + 1 }).laneTidy c := by
  unfold stripeReady
  rw [if_neg (ne_true_of_eq_false (Option.isNone_eq_false_iff.2 hst))]
  dsimp only
  rw [hf]
  dsimp only
  rw [if_neg (Nat.not_lt.2 hneed)]
  rfl

theorem Module.stripeSignals_keeps (m : Module) (n : Nat) (f : LaneFrame) : Keeps Fld.syncs m (m.stripeSignals n f) := by
  unfold Module.stripeSignals
  exact .ite (fun _ => .after (Module.addSync_keeps ..) rfl <| .after (Module.addSync_keeps ..) rfl .refl)
    fun _ => .after (Module.addSync_keeps ..) rfl .refl

/-- A stripe whose lines are out is signalled. -/
theorem stripeReady_answers (hboot : s.boot ≠ .off) (hst : (s.streams.find? c.val).isSome)
    (hf : (s.ctx c).frames.find? (fun f => f.signalled < (s.stripes c).count) = some f)
    (hneed : (s.stripes c).need f.signalled ≤ f.out.length) : Answers (.stripeReady c) s fun m =>
      let o := s.fld (NIS_IN_SYNC c) NIS_IN_SYNC_stripe_obj
      let fo := s.fld (NIS_IN_SYNC c) NIS_IN_SYNC_frame_obj
      (f.signalled + 1 = (s.stripes c).count ∧ s.bit (NIS_IN_SYNC c) NIS_IN_SYNC_frame_en = true →
        m.syncs = ((s.toModule.addSync o 1).addSync fo 1).syncs) ∧
      (¬ (f.signalled + 1 = (s.stripes c).count ∧ s.bit (NIS_IN_SYNC c) NIS_IN_SYNC_frame_en = true) →
        m.syncs = (s.toModule.addSync o 1).syncs) ∧
      m.mem = s.mem ∧ ∀ q, q ≠ c.val → m.ctx q = s.ctx q := by
  have hrun := stripeReady_eq hst hf hneed
  have hsig := s.stripeSignals_keeps c f
  have hsyncs : (stripeReady c s.toModule).syncs = (s.stripeSignals c f).syncs := by
    rw [hrun]
    exact ((Module.laneTidy_keeps ..).view Module.syncs fun _ => rfl).trans
      ((Module.putLane_keeps ..).view Module.syncs fun _ => rfl)
  refine .of_ok hboot rfl ⟨fun h => ?_, fun h => ?_, ?_, fun q hq => ?_⟩
  · refine hsyncs.trans (congrArg Module.syncs (if_pos ?_))
    simp [h.1, h.2]
  · refine hsyncs.trans (congrArg Module.syncs (if_neg ?_))
    simpa using h
  · rw [hrun]
    exact ((Module.laneTidy_keeps ..).view Module.mem fun _ => rfl).trans
      (((Module.putLane_keeps ..).view Module.mem fun _ => rfl).trans (hsig.view Module.mem fun _ => rfl))
  · rw [hrun, Module.laneTidy_ctx_ne _ hq]
    exact (Module.adjustLane_ctx_ne _ _ _ hq).trans (hsig.view (fun x : Module => x.ctx q) fun _ => rfl)

/-! ### Statistics records -/

/-- What the loops take of a frame's record. -/
def Module.statRec (m : Module) (n : Nat) (f : LaneFrame) (e : Meas) : StatRec :=
  let (_, v, late, failed) := m.carried n f.seq
  let l := m.laneIn n f.set (f.lines.map LaneLine.px)
  let zs := zonesOf f.out l.cw l.ch
  let sum := fun (z : Zone → Nat) => ((zs.filter (·.sat = 0)).map z).sum
  ⟨f.seq, e.frame.flags + 512 * late.toNat + 1024 * failed.toNat, f.set, v,
    (roundMean ((zs.map (·.g)).sum * 64 : Nat) (max 1 (l.cw * l.ch))).toNat, (sum (·.r), sum (·.g), sum (·.b)), false, false⟩

/-- The frame is recorded, and the loops have its record. -/
def Module.statTaken (m : Module) (n : Nat) (f : LaneFrame) (e : Meas) : Module :=
  ((m.setCtx n { m.ctx n with lastRec := some (m.statRec n f e) }).putLane n { f with recorded := true }).laneTidy n

/-- The record in its slot. -/
def Module.statWritten (m : Module) (n slot : Nat) (bytes : List Byte) : Module :=
  match m.region? (m.rd (FE_STAT_DEST n)) with
  | some r => if (slot + 1) * 8192 ≤ r.size then m.write (r.base + slot * 8192) bytes else m
  | none => m

/-- A record is written to its slot, its object advances, and the event is raised. -/
def Module.statSent (m : Module) (n slot : Nat) (bytes : List Byte) (p1 p2 p3 : Nat) : Module :=
  let cfg := FE_STAT_CFG n
  if !m.bit cfg FE_STAT_CFG_en then m
  else
    let m := m.statWritten n slot bytes
    let m := if m.bit cfg FE_STAT_CFG_sync_en then m.addSync (m.fld cfg FE_STAT_CFG_sync_obj) 1 else m
    if m.bit cfg FE_STAT_CFG_notify then m.raiseCtx 0x0201 n slot p1 p2 p3 else m

theorem statsRecordDone_eq {e : Meas} (hf : (m.ctx c).frames.find? (fun f => !f.recorded) = some f) (he : f.ended = some e)
    (hout : m.fld (FE_CROP_WH c) FE_CROP_WH_h ≤ f.out.length)
    (hfree : m.bit (FE_STAT_CFG c) FE_STAT_CFG_en = true → ∀ r, m.region? (m.rd (FE_STAT_DEST c)) = some r →
      m.spmBusy r.base r.size = false) :
    ∃ slot bytes p1 p2 p3, statsRecordDone c m = (m.statTaken c f e).statSent c slot bytes p1 p2 p3 := by
  have hgo : (decide (f.out.length < m.fld (FE_CROP_WH c) FE_CROP_WH_h) || m.bit (FE_STAT_CFG c) FE_STAT_CFG_en &&
      match m.region? (m.rd (FE_STAT_DEST c)) with
      | some r => m.spmBusy r.base r.size
      | none => false) = false := by
    rw [decide_eq_false (Nat.not_lt.2 hout), Bool.false_or]
    cases hen : m.bit (FE_STAT_CFG c) FE_STAT_CFG_en with
    | false => rfl
    | true =>
      cases hr : m.region? (m.rd (FE_STAT_DEST c)) with
      | none => rfl
      | some r => exact hfree hen r hr
  unfold statsRecordDone
  dsimp only
  rw [hf]
  unfold Module.statTaken Module.statRec
  dsimp only
  rw [he]
  rcases m.carried c f.seq with ⟨esid, v, late, failed⟩
  dsimp only
  let flags := e.frame.flags + 512 * late.toNat + 1024 * failed.toNat
  exact ⟨f.seq.toNat % max 1 (m.fld (FE_STAT_CFG c) FE_STAT_CFG_slots),
    statBytes (m.laneIn c f.set (f.lines.map LaneLine.px)) f e esid flags v, f.seq.toNat, esid + 65536 * flags, f.set.psid.toNat,
    (if_neg (ne_true_of_eq_false hgo)).trans rfl⟩

theorem Module.statWritten_keeps (m : Module) (n slot : Nat) (bytes : List Byte) :
    Keeps Fld.write m (m.statWritten n slot bytes) := by
  unfold Module.statWritten
  split
  · exact .ite (fun _ => .after (Module.write_keeps ..) rfl .refl) fun _ => .refl
  · exact .refl

theorem Module.statWritten_cfg (m : Module) (slot : Nat) (bytes : List Byte) {n : Nat} (hn : n < 36) :
    (m.statWritten n slot bytes).rd (FE_STAT_CFG n) = m.rd (FE_STAT_CFG n) := by
  have hmem : memoryReg (FE_STAT_CFG n) = false := by
    have hout : ∀ r ∈ reportRegs, ¬ (0x040000 ≤ r ∧ r < 0x0A0000) := by decide
    simp only [memoryReg, Bool.or_eq_false_iff, decide_eq_false_iff_not]
    exact ⟨by unfold FE_STAT_CFG; omega, fun hr => hout _ hr (by unfold FE_STAT_CFG; omega)⟩
  unfold Module.statWritten
  split
  · split
    · exact (Module.write_besideMemory ..).besideMemory_rd hmem
    · rfl
  · rfl

theorem statSent_off (slot : Nat) (bytes : List Byte) (p1 p2 p3 : Nat) {n : Nat}
    (h : m.bit (FE_STAT_CFG n) FE_STAT_CFG_en = false) : m.statSent n slot bytes p1 p2 p3 = m :=
  if_pos (by rw [h]; rfl)

/-- The record in its slot, and its object advanced. -/
def Module.statSynced (m : Module) (n slot : Nat) (bytes : List Byte) : Module :=
  let k := m.statWritten n slot bytes
  if k.bit (FE_STAT_CFG n) FE_STAT_CFG_sync_en then k.addSync (k.fld (FE_STAT_CFG n) FE_STAT_CFG_sync_obj) 1 else k

theorem statSent_on (slot : Nat) (bytes : List Byte) (p1 p2 p3 : Nat) {n : Nat}
    (h : m.bit (FE_STAT_CFG n) FE_STAT_CFG_en = true) :
    Keeps Fld.event (m.statSynced n slot bytes) (m.statSent n slot bytes p1 p2 p3) := by
  have hsent : m.statSent n slot bytes p1 p2 p3 = if (m.statSynced n slot bytes).bit (FE_STAT_CFG n) FE_STAT_CFG_notify then
      (m.statSynced n slot bytes).raiseCtx 0x0201 n slot p1 p2 p3 else m.statSynced n slot bytes :=
    if_neg (by rw [h]; decide)
  rw [hsent]
  exact .ite (fun _ => .after (Module.raiseCtx_keeps ..) rfl .refl) fun _ => .refl

theorem statSent_ctx (m : Module) (n slot : Nat) (bytes : List Byte) (p1 p2 p3 : Nat) :
    (m.statSent n slot bytes p1 p2 p3).ctx = m.ctx := by
  cases h : m.bit (FE_STAT_CFG n) FE_STAT_CFG_en with
  | false => rw [statSent_off _ _ _ _ _ h]
  | true =>
    refine ((statSent_on slot bytes p1 p2 p3 h).view Module.ctx fun _ => rfl).trans ?_
    refine Eq.trans ?_ ((m.statWritten_keeps n slot bytes).view Module.ctx fun _ => rfl)
    unfold Module.statSynced
    dsimp only
    split <;> rfl

theorem statSent_sync (slot : Nat) (bytes : List Byte) (p1 p2 p3 : Nat) {n : Nat} (hn : n < 36)
    (h : m.bit (FE_STAT_CFG n) FE_STAT_CFG_en = true) (hs : m.bit (FE_STAT_CFG n) FE_STAT_CFG_sync_en = true) :
    (m.statSent n slot bytes p1 p2 p3).sync (m.fld (FE_STAT_CFG n) FE_STAT_CFG_sync_obj) =
      m.sync (m.fld (FE_STAT_CFG n) FE_STAT_CFG_sync_obj) + 1 := by
  have hrd := m.statWritten_cfg slot bytes hn
  have hbit : (m.statWritten n slot bytes).bit (FE_STAT_CFG n) FE_STAT_CFG_sync_en = true := by
    rw [Module.bit_congr hrd, hs]
  have hkept : ∀ o, (m.statWritten n slot bytes).sync o = m.sync o := fun o =>
    (m.statWritten_keeps n slot bytes).view (fun x : Module => x.sync o) fun _ => rfl
  refine ((statSent_on slot bytes p1 p2 p3 h).view (fun x : Module => x.sync _) fun _ => rfl).trans ?_
  unfold Module.statSynced
  dsimp only
  rw [if_pos hbit, Module.fld_congr hrd]
  exact (Module.sync_setSync_same ..).trans (congrArg (· + 1) (hkept _))

theorem statTaken_keeps (m : Module) (n : Nat) (f : LaneFrame) (e : Meas) : Keeps Fld.ctxs m (m.statTaken n f e) := by
  unfold Module.statTaken
  exact .after (Module.laneTidy_keeps ..) rfl <| .after (Module.putLane_keeps ..) rfl <| .after (Module.setCtx_keeps ..) rfl .refl

theorem statTaken_lastRec {e : Meas} {n : Nat} (hf : f ∈ (m.ctx n).frames) :
    ((m.statTaken n f e).ctx n).lastRec = some (m.statRec n f e) := by
  unfold Module.statTaken
  rw [Module.laneTidy_ctx]
  unfold Module.putLane
  rw [Module.adjustLane_ctx _ _ ⟨f, by rwa [Module.ctx_setCtx_same], rfl⟩, Module.ctx_setCtx_same]

theorem statsRecordDone_answers {e : Meas} (hboot : s.boot ≠ .off)
    (hf : (s.ctx c).frames.find? (fun f => !f.recorded) = some f) (he : f.ended = some e)
    (hout : s.fld (FE_CROP_WH c) FE_CROP_WH_h ≤ f.out.length)
    (hfree : s.bit (FE_STAT_CFG c) FE_STAT_CFG_en = true → ∀ r, s.region? (s.rd (FE_STAT_DEST c)) = some r →
      s.spmBusy r.base r.size = false) : Answers (.statsRecordDone c) s fun m =>
      (∃ r, (m.ctx c).lastRec = some r ∧ r.seq = f.seq ∧ r.aeDone = false ∧ r.awbDone = false) ∧
      (s.bit (FE_STAT_CFG c) FE_STAT_CFG_en = true → s.bit (FE_STAT_CFG c) FE_STAT_CFG_sync_en = true →
        m.sync (s.fld (FE_STAT_CFG c) FE_STAT_CFG_sync_obj) = s.sync (s.fld (FE_STAT_CFG c) FE_STAT_CFG_sync_obj) + 1) ∧
      (s.bit (FE_STAT_CFG c) FE_STAT_CFG_en = false → m.mem = s.mem ∧ m.syncs = s.syncs) := by
  obtain ⟨slot, bytes, p1, p2, p3, hrun⟩ := statsRecordDone_eq hf he hout hfree
  have hkept := statTaken_keeps s.toModule c f e
  have hrec := statTaken_lastRec (e := e) (List.mem_of_find?_eq_some hf)
  have hcfg : (s.statTaken c f e).rd (FE_STAT_CFG c) = s.rd (FE_STAT_CFG c) := Module.rd_congr (hkept.view Module.regs fun _ => rfl) _
  have hbit : ∀ b, (s.statTaken c f e).bit (FE_STAT_CFG c) b = s.bit (FE_STAT_CFG c) b := Module.bit_congr hcfg
  have hfld : ∀ b, (s.statTaken c f e).fld (FE_STAT_CFG c) b = s.fld (FE_STAT_CFG c) b := Module.fld_congr hcfg
  refine .of_ok hboot (congrArg (ok s) hrun) ⟨⟨s.statRec c f e, ?_, rfl, rfl, rfl⟩, fun hen hs => ?_, fun hen => ?_⟩
  · rw [statSent_ctx, hrec]
  · rw [← hfld, statSent_sync _ _ _ _ _ c.isLt ((hbit _).trans hen) ((hbit _).trans hs)]
    exact congrArg (· + 1) (hkept.view (fun x : Module => x.sync _) fun _ => rfl)
  · rw [statSent_off _ _ _ _ _ ((hbit _).trans hen)]
    exact ⟨hkept.view Module.mem fun _ => rfl, hkept.view Module.syncs fun _ => rfl⟩

/-! ### The loops -/

theorem aeStep_within (target mean unit linesMax againMax dgainMax : Nat) (v : ExpVals) :
    let w := aeStep target mean unit linesMax againMax dgainMax v
    1 ≤ w.lines ∧ w.lines ≤ max 1 linesMax ∧ w.again ≤ max 1 againMax ∧ w.dgain ≤ max 1 dgainMax ∧ w.trim = v.trim := by
  unfold aeStep
  split
  exact ⟨Nat.le_max_left .., max_le_max_left _ (Nat.min_le_left ..), max_le_max_left _ (Nat.min_le_left ..),
    max_le_max_left _ (Nat.min_le_left ..), rfl⟩

theorem aeUpdate_answers {r : StatRec} (hboot : s.boot ≠ .off) (hcp : s.cpHalted = false) (hr : (s.ctx c).lastRec = some r)
    (hdone : r.aeDone = false) (hen : s.bit (FE_EXP_CFG c) FE_EXP_CFG_ae_en = true) : Answers (.aeUpdate c) s fun m =>
      (∃ r', (m.ctx c).lastRec = some r' ∧ r'.aeDone = true ∧ r'.seq = r.seq) ∧
      (aeSkips r.flags = true → (m.ctx c).aeNext = (s.ctx c).aeNext) ∧
      (aeSkips r.flags = false → ∃ v, (m.ctx c).aeNext = some v ∧
        1 ≤ v.lines ∧ v.lines ≤ max 1 ((s.ctx c).current.fld (FE_AE_CFG c) FE_AE_CFG_lines_max) ∧
        v.again ≤ max 1 ((s.ctx c).current.fld (FE_AE_GAIN c) FE_AE_GAIN_again_max) ∧
        v.dgain ≤ max 1 ((s.ctx c).current.fld (FE_AE_GAIN c) FE_AE_GAIN_dgain_max) ∧ v.trim = r.vals.trim) ∧
      { m with ctxs := [] } = { s.toModule with ctxs := [] } := by
  have hgo : (r.aeDone || !s.bit (FE_EXP_CFG c) FE_EXP_CFG_ae_en) = false := by
    rw [hdone, hen]
    rfl
  refine .of_ok hboot rfl ?_
  unfold aeUpdate Module.firmware
  rw [if_neg (by simp [hcp])]
  dsimp only
  rw [hr]
  dsimp only
  rw [if_neg (ne_true_of_eq_false hgo)]
  cases hskip : aeSkips r.flags with
  | true =>
    refine ⟨⟨{ r with aeDone := true }, ?_, rfl, rfl⟩, fun _ => ?_, nofun, rfl⟩
    · rw [if_pos rfl, Module.ctx_setCtx_same]
    · rw [if_pos rfl, Module.ctx_setCtx_same]
  | false =>
    obtain ⟨hlo, hlines, hagain, hdgain, htrim⟩ := aeStep_within ((s.ctx c).current.fld (FE_AE_CFG c) FE_AE_CFG_target) r.meanG
      (s.fld (FE_EXP_CFG c) FE_EXP_CFG_gain_unit) ((s.ctx c).current.fld (FE_AE_CFG c) FE_AE_CFG_lines_max)
      ((s.ctx c).current.fld (FE_AE_GAIN c) FE_AE_GAIN_again_max) ((s.ctx c).current.fld (FE_AE_GAIN c) FE_AE_GAIN_dgain_max) r.vals
    rw [if_neg nofun]
    refine ⟨⟨{ r with aeDone := true }, ?_, rfl, rfl⟩, nofun, fun _ => ⟨_, ?_, hlo, hlines, hagain, hdgain, htrim⟩, rfl⟩
    · rw [Module.ctx_setCtx_same]
    · rw [Module.ctx_setCtx_same]

theorem awbUpdate_answers {r : StatRec} {g0 g1 g2 : Nat} (hboot : s.boot ≠ .off) (hcp : s.cpHalted = false)
    (hr : (s.ctx c).lastRec = some r) (hdone : r.awbDone = false) (hen : s.bit (FE_EXP_CFG c) FE_EXP_CFG_awb_en = true)
    (hwb : (s.ctx c).loopWb = [g0, g1, g2]) : Answers (.awbUpdate c) s fun m =>
      (m.ctx c).loopWb = [awbStep g0 (awbTarget r.sums.2.1 r.sums.1), 4096, awbStep g2 (awbTarget r.sums.2.1 r.sums.2.2)] ∧
      { m with ctxs := [] } = { s.toModule with ctxs := [] } := by
  have hgo : (r.awbDone || !s.bit (FE_EXP_CFG c) FE_EXP_CFG_awb_en) = false := by
    rw [hdone, hen]
    rfl
  refine .of_ok hboot rfl ?_
  unfold awbUpdate Module.firmware
  rw [if_neg (by simp [hcp])]
  dsimp only
  rw [hr]
  dsimp only
  rw [if_neg (ne_true_of_eq_false hgo), Module.ctx_setCtx_same, hwb]
  exact ⟨rfl, rfl⟩

theorem clampI_mem {lo hi : Int} (h : lo ≤ hi) (v : Int) : lo ≤ clampI lo hi v ∧ clampI lo hi v ≤ hi := by
  unfold clampI
  omega

/-- The trim code moves by at most the greatest step. -/
theorem trim_within (t mx : Nat) (v : Int) : let d := clampI (-mx) mx v
    let u := (clampI 0 65535 ((t : Int) + d)).toNat
    u ≤ 65535 ∧ (t ≤ 65535 → u ≤ t + mx ∧ t ≤ u + mx) := by
  obtain ⟨hlo, hhi⟩ := clampI_mem (lo := -(mx : Int)) (hi := mx) (by omega) v
  generalize clampI (-mx) mx v = d at hlo hhi
  dsimp only
  unfold clampI
  omega

theorem trimUpdate_answers {ob : List Nat} (hboot : s.boot ≠ .off) (hcp : s.cpHalted = false)
    (hdue : (s.ctx c).trimDue = some ob) (hstep : 0 < (s.ctx c).current.fld (FE_TRIM_CFG c) FE_TRIM_CFG_step) :
    Answers (.trimUpdate c) s fun m =>
      (m.ctx c).trimDue = none ∧ (m.ctx c).trimNext = some (m.ctx c).trim ∧ (m.ctx c).trim ≤ 65535 ∧
      ((s.ctx c).trim ≤ 65535 →
        (m.ctx c).trim ≤ (s.ctx c).trim + (s.ctx c).current.fld (FE_TRIM_CFG c) FE_TRIM_CFG_max_step ∧
        (s.ctx c).trim ≤ (m.ctx c).trim + (s.ctx c).current.fld (FE_TRIM_CFG c) FE_TRIM_CFG_max_step) ∧
      { m with ctxs := [] } = { s.toModule with ctxs := [] } := by
  refine .of_ok hboot rfl ?_
  unfold trimUpdate Module.firmware
  rw [if_neg (by simp [hcp])]
  dsimp only
  rw [hdue]
  dsimp only
  rw [if_neg (Nat.pos_iff_ne_zero.1 hstep), Module.ctx_setCtx_same]
  obtain ⟨hle, hnear⟩ := trim_within (s.ctx c).trim ((s.ctx c).current.fld (FE_TRIM_CFG c) FE_TRIM_CFG_max_step) _
  exact ⟨rfl, rfl, hle, hnear, rfl⟩

end

/-- Settles O16. -/
theorem laneAndLoopsComplete : Obligations.LaneAndLoopsComplete := by
  refine ⟨fun c s hboot => ⟨?_, ?_, ?_⟩, fun c s hboot => ⟨?_, ?_, ?_, ?_⟩⟩
  · exact fun f hres hf hrun hone => laneLineStart_answers hboot hres hf hrun hone
  · exact fun f hres hst hf hdue hfree => laneOutputLine_answers hboot hres hst hf hdue hfree
  · exact fun f hst hf hneed => stripeReady_answers hboot hst hf hneed
  · exact fun f e hf he hout hfree => statsRecordDone_answers hboot hf he hout hfree
  · exact fun r hcp hr hdone hen => aeUpdate_answers hboot hcp hr hdone hen
  · exact fun r g0 g1 g2 hcp hr hdone hen hwb => awbUpdate_answers hboot hcp hr hdone hen hwb
  · exact fun ob hcp hdue hstep => trimUpdate_answers hboot hcp hdue hstep

end Sys2Proof.Machine
end

section
set_option Elab.async false
/-!
Frames, lines and lost signals of a camera port (R39, R40, R48, R49, R54, R55).
-/
namespace Sys2Proof.Machine
open Sys2Proof

section
variable {s : State} {b m k : Module} {p : Nat} {off : Nat}

/-! ### What a frame's end leaves of its port -/

/-- A frame as the port has it, whatever calibration takes of it. -/
def PortFrame.plain (f : PortFrame) : PortFrame := { f with cal := false }

/-- A port beside its bus, its admission and what calibration takes of its frame, and its count of lost signals. -/
def Module.seen (p : Nat) (m : Module) : Port × Word :=
  ({ m.port p with queue := [], batches := [], lastAccepted := none, dropRun := false
                   frame := (m.port p).frame.map PortFrame.plain }, m.rd (CAP_CNT_SIGNAL_LOST p))

theorem Module.wr_seen (m : Module) (v : Word) (h : CAP_CNT_SIGNAL_LOST p ≠ off) : Agree (Module.seen p) m (m.wr off v) :=
  congrArg (Prod.mk _) (Module.rd_wr_ne _ _ h)

theorem Module.setFld_seen (m : Module) (f : Bits) (v : Nat) (h : CAP_CNT_SIGNAL_LOST p ≠ off) :
    Agree (Module.seen p) m (m.setFld off f v) := m.wr_seen _ h

theorem Module.count_seen (m : Module) (n : Nat) (h : CAP_CNT_SIGNAL_LOST p ≠ off) :
    Agree (Module.seen p) m (m.count off n) := m.wr_seen _ h

theorem Module.setPort_seen (m : Module) (x : Port)
    (h : ({ x with queue := [], batches := [], lastAccepted := none, dropRun := false
                   frame := x.frame.map PortFrame.plain } : Port) = (m.seen p).1) :
    Agree (Module.seen p) m (m.setPort p x) := by
  unfold Agree Module.seen
  rw [Module.port_setPort_same, h]
  rfl

theorem signalLost_notReport (hp : p < 36) : CAP_CNT_SIGNAL_LOST p ∉ reportRegs := by
  have hout : ∀ r ∈ reportRegs, ¬ (0x010000 ≤ r ∧ r < 0x040000) := by decide
  exact fun hr => hout _ hr (by unfold CAP_CNT_SIGNAL_LOST; omega)

theorem Module.raiseCtx_seen (m : Module) (hp : p < 36) (code c p0 p1 p2 p3 : Nat) :
    Agree (Module.seen p) m (m.raiseCtx code c p0 p1 p2 p3) := by
  have hport : (m.raiseCtx code c p0 p1 p2 p3).port p = m.port p :=
    (Module.raiseCtx_keeps ..).view (fun x : Module => x.port p) fun _ => rfl
  have hrd : (m.raiseCtx code c p0 p1 p2 p3).rd (CAP_CNT_SIGNAL_LOST p) = m.rd (CAP_CNT_SIGNAL_LOST p) :=
    (Module.raiseCtx_unreported (offs := []) ..).unreported_rd List.not_mem_nil (signalLost_notReport hp)
  unfold Agree Module.seen
  rw [hport, hrd]

theorem Module.write_seen (m : Module) (hp : p < 36) (a : Nat) (l : List Byte) : Agree (Module.seen p) m (m.write a l) := by
  have hport : (m.write a l).port p = m.port p := (Module.write_keeps ..).view (fun x : Module => x.port p) fun _ => rfl
  have hmem : memoryReg (CAP_CNT_SIGNAL_LOST p) = false := by
    simp only [memoryReg, Bool.or_eq_false_iff, decide_eq_false_iff_not]
    exact ⟨by unfold CAP_CNT_SIGNAL_LOST; omega, signalLost_notReport hp⟩
  have hrd := (m.write_besideMemory a l).besideMemory_rd hmem
  unfold Agree Module.seen
  rw [hport, hrd]

/-! ### Calibration -/

theorem Module.calReport_seen (m : Module) (hp : p < 36) (running : Bool) (runs kind err : Nat) :
    Agree (Module.seen p) m (m.calReport p running runs kind err) := by
  have h : CAP_CNT_SIGNAL_LOST p ≠ CAL_CTX_STAT p := by unfold CAP_CNT_SIGNAL_LOST CAL_CTX_STAT; omega
  unfold Module.calReport
  exact .after (Module.setFld_seen _ _ _ h) <| .after (Module.setFld_seen _ _ _ h) <| .after (Module.setFld_seen _ _ _ h) <|
    .after (Module.setFld_seen _ _ _ h) .refl

theorem Module.setPortState_seen (m : Module) (st : Nat) : Agree (Module.seen p) m (m.setPortState p st) :=
  m.setFld_seen _ _ (by unfold CAP_CNT_SIGNAL_LOST CAP_PORT_STATE; omega)

theorem Module.trainAbort_seen (m : Module) : Agree (Module.seen p) m (m.trainAbort p) := by
  unfold Module.trainAbort
  refine .ite (fun _ => .after (Module.setPortState_seen ..) ?_) fun _ => .refl
  exact .after (Module.setFld_seen _ _ _ (by unfold CAP_CNT_SIGNAL_LOST CAP_TRAIN_STAT; omega)) .refl

theorem Module.unbindLane_seen (m : Module) (hp : p < 36) : Agree (Module.seen p) m (m.unbindLane p) := by
  unfold Module.unbindLane
  refine .ite (fun _ => ?_) fun _ => .refl
  exact .after (Module.setFld_seen _ _ _ (by unfold CAP_CNT_SIGNAL_LOST FE_LANE_STAT; omega)) <|
    .after (Module.wr_seen _ _ (by unfold CAP_CNT_SIGNAL_LOST FE_CTX_STAT; omega)) .refl

theorem Module.bindLane_seen (m : Module) (hp : p < 36) (lane slot : Nat) : Agree (Module.seen p) m (m.bindLane p lane slot) := by
  unfold Module.bindLane
  exact .after (Module.setFld_seen _ _ _ (by unfold CAP_CNT_SIGNAL_LOST FE_LANE_STAT; omega)) <|
    .kept (Module.setCtx_keeps ..) (fun _ => rfl) <|
    .after (Module.wr_seen _ _ (by unfold CAP_CNT_SIGNAL_LOST FE_CTX_STAT; omega)) .refl

/-- Calibration marks a frame. -/
theorem Module.markFrame_seen (m : Module) (v : Bool) : Agree (Module.seen p) m
    (m.setPort p { m.port p with frame := (m.port p).frame.map fun f => { f with cal := v } }) := by
  refine m.setPort_seen _ ?_
  unfold Module.seen
  cases (m.port p).frame <;> rfl

theorem Module.calEnd_seen (m : Module) (hp : p < 36) (err : Nat) (status : Option Nat) :
    Agree (Module.seen p) m (m.calEnd p err status) := by
  unfold Module.calEnd
  split
  · exact .refl
  · next r _ =>
    have hcal : Agree (Module.seen p) m (m.setCal p { m.cal p with run := none }) :=
      .kept (Module.setCal_keeps ..) (fun _ => rfl) .refl
    have hrun {x : Module} (h : Agree (Module.seen p) m x) :
        Agree (Module.seen p) m (if r.kind = 4 then x.trainAbort p else x) :=
      .ite (fun _ => .after (Module.trainAbort_seen _) h) fun _ => h
    have hlane : Agree (Module.seen p) m (if r.grant = true then (m.setCal p { m.cal p with run := none }).unbindLane p
        else m.setCal p { m.cal p with run := none }) :=
      .ite (fun _ => .after (Module.unbindLane_seen _ hp) hcal) fun _ => hcal
    dsimp only
    split
    · exact .after (Module.raiseCtx_seen _ hp ..) <| .after (Module.calReport_seen _ hp ..) <| hrun <|
        .after (Module.markFrame_seen _ false) <| .kept (Module.setCtx_keeps ..) (fun _ => rfl) hlane
    · exact .after (Module.raiseCtx_seen _ hp ..) <| .kept (Module.open__keeps ..) (fun _ => rfl) <|
        .after (Module.calReport_seen _ hp ..) <| hrun <|
        .after (Module.markFrame_seen _ false) <| .kept (Module.setCtx_keeps ..) (fun _ => rfl) hlane

theorem Module.calMark_seen (m : Module) (hp : p < 36) (n : Word) : Agree (Module.seen p) m (m.calMark p n) := by
  unfold Module.calMark
  split
  · refine .ite (fun _ => ?_) fun _ => .refl
    exact .after (Module.wr_seen _ _ (by unfold CAP_CNT_SIGNAL_LOST CAL_CAL_LAST; omega)) <|
      .after (Module.wr_seen _ _ (by unfold CAP_CNT_SIGNAL_LOST CAL_CAL_FIRST; omega)) <|
      .kept (Module.setCal_keeps ..) (fun _ => rfl) .refl
  · exact .refl

theorem Module.calBegin_seen (m : Module) (hp : p < 36) (r : CalRun) : Agree (Module.seen p) m (m.calBegin p r) := by
  unfold Module.calBegin
  refine .ite (fun _ => .after (Module.calEnd_seen _ hp ..) <| .kept (Module.setCal_keeps ..) (fun _ => rfl) .refl) fun _ => ?_
  have hcount (x : Cal) : Agree (Module.seen p) m ((m.setCal p x).count (CAL_CNT_RUN p) 1) :=
    .after (Module.count_seen _ _ (by unfold CAP_CNT_SIGNAL_LOST CAL_CNT_RUN; omega)) <|
      .kept (Module.setCal_keeps ..) (fun _ => rfl) .refl
  refine .ite (fun _ => ?_) fun _ => .ite (fun _ => ?_) fun _ => hcount _
  · have htrain (x : Cal) : Agree (Module.seen p) m ((((m.setCal p x).count (CAL_CNT_RUN p) 1).setPortState p 3).wr
        (CAP_TRAIN_STAT p) (CAP_TRAIN_STAT_result.put 0 1)) :=
      .after (Module.wr_seen _ _ (by unfold CAP_CNT_SIGNAL_LOST CAP_TRAIN_STAT; omega)) <|
        .after (Module.setPortState_seen ..) (hcount x)
    dsimp only
    split
    · next f hf =>
      refine .after (Module.calMark_seen _ hp ..) <| .after (Module.setPort_seen _ _ ?_) (htrain _)
      unfold Module.seen
      rw [hf]
      rfl
    · exact htrain _
  · dsimp only
    split
    · exact .after (Module.write_seen _ hp ..) (hcount _)
    · exact hcount _

theorem Module.calStart_seen (m : Module) (hp : p < 36) (kind purpose : Nat) (region : Bool) :
    Agree (Module.seen p) m (m.calStart p kind purpose region).2 := by
  have hlane : Agree (Module.seen p) m (if (!(region && darkKind kind) && decide (kind ≠ 4) && (m.streams.find? p).isNone) = true then
      (match (m.calLanes p)[(m.pick (m.calLanes p).length).1]? with
        | some (lane, slot) => (m.pick (m.calLanes p).length).2.bindLane p lane slot
        | none => (m.pick (m.calLanes p).length).2) else m) := by
    refine .ite (fun _ => ?_) fun _ => .refl
    split
    · exact .after (Module.bindLane_seen _ hp ..) <| .kept (Module.pick_keeps ..) (fun _ => rfl) .refl
    · exact .kept (Module.pick_keeps ..) (fun _ => rfl) .refl
  have hbegun {y : Module} (h : Agree (Module.seen p) m y) (x : Cal) : Agree (Module.seen p) m
      ((((y.setCal p x).calReport p true 0 kind 0).wr (CAL_CAL_FIRST p) 0).wr (CAL_CAL_LAST p) 0) :=
    .after (Module.wr_seen _ _ (by unfold CAP_CNT_SIGNAL_LOST CAL_CAL_LAST; omega)) <|
      .after (Module.wr_seen _ _ (by unfold CAP_CNT_SIGNAL_LOST CAL_CAL_FIRST; omega)) <|
      .after (Module.calReport_seen _ hp ..) <| .kept (Module.setCal_keeps ..) (fun _ => rfl) h
  unfold Module.calStart
  dsimp only
  split
  · exact .refl
  · split
    · exact .after (Module.count_seen _ _ (by unfold CAP_CNT_SIGNAL_LOST CAL_CNT_REFUSED; omega)) <|
        .after (Module.setFld_seen _ _ _ (by unfold CAP_CNT_SIGNAL_LOST CAL_CTX_STAT; omega)) .refl
    · rw [apply_ite Prod.snd]
      exact .ite (fun _ => .after (Module.calEnd_seen _ hp ..) (hbegun hlane _)) fun _ =>
        .after (Module.calBegin_seen _ hp ..) (hbegun hlane _)

theorem Module.calTrigger_seen (m : Module) (hp : p < 36) : Agree (Module.seen p) m (m.calTrigger p) := by
  unfold Module.calTrigger
  refine .ite (fun _ => .refl) fun _ => .ite (fun _ => .refl) fun _ => .ite (fun _ => ?_) fun _ => ?_
  · exact .after (Module.calStart_seen _ hp ..) .refl
  · exact .after (Module.raiseCtx_seen _ hp ..) .refl

theorem Module.calTakeBack_seen (m : Module) (hp : p < 36) (f : LaneFrame) : Agree (Module.seen p) m (m.calTakeBack p f) := by
  unfold Module.calTakeBack
  refine .foldl (fun m _ => ?_) _ .refl
  split
  · unfold Module.calAddLine
    split
    · exact .refl
    · exact .foldl (fun _ _ => Module.write_seen _ hp ..) _ .refl
  · exact .refl

theorem Module.calFrame_seen (m : Module) (hp : p < 36) (f : PortFrame) (lane : Option LaneFrame) (esid : Nat) (ob : List Nat) :
    Agree (Module.seen p) m (m.calFrame p f lane esid ob) := by
  unfold Module.calFrame
  split
  · exact .refl
  next r _ =>
  refine .ite (fun _ => .refl) fun _ => ?_
  have hlane (good : Bool) : Agree (Module.seen p) m (match lane with
      | some g => if (good || !r.sums) = true then m else m.calTakeBack p g
      | none => m) := by
    split
    · exact .ite (fun _ => .refl) fun _ => .after (Module.calTakeBack_seen _ hp ..) .refl
    · exact .refl
  have hctx {y : Module} (h : Agree (Module.seen p) m y) (good : Bool) (x : Ctx) :
      Agree (Module.seen p) m (if good = true then y else y.setCtx p x) :=
    .ite (fun _ => h) fun _ => .kept (Module.setCtx_keeps ..) (fun _ => rfl) h
  have hmarks {y : Module} (h : Agree (Module.seen p) m y) (x : Cal) (u v : Word) : Agree (Module.seen p) m
      (if r.marks = true then ((y.setCal p x).wr (CAL_CAL_FIRST p) u).wr (CAL_CAL_LAST p) v else y.setCal p x) :=
    .ite (fun _ => .after (Module.wr_seen _ _ (by unfold CAP_CNT_SIGNAL_LOST CAL_CAL_LAST; omega)) <|
      .after (Module.wr_seen _ _ (by unfold CAP_CNT_SIGNAL_LOST CAL_CAL_FIRST; omega)) <|
      .kept (Module.setCal_keeps ..) (fun _ => rfl) h) fun _ => .kept (Module.setCal_keeps ..) (fun _ => rfl) h
  refine .ite (fun _ => .after (Module.count_seen _ _ (by unfold CAP_CNT_SIGNAL_LOST CAL_CNT_IMPLAUSIBLE; omega)) <|
    .after (Module.calEnd_seen _ hp ..) ?_) fun _ => ?_
  · exact hmarks (hctx (hlane _) _ _) _ _ _
  · exact hmarks (hctx (hlane _) _ _) _ _ _

theorem Module.track_seen (m : Module) (hp : p < 36) (set : ParamSet) (ob : List Nat) :
    Agree (Module.seen p) m (m.track p set ob) := by
  have hcount (x : Ctx) : Agree (Module.seen p) m ((m.setCtx p x).count (CAL_CNT_TRACK_REJECT p) 1) :=
    .after (Module.count_seen _ _ (by unfold CAP_CNT_SIGNAL_LOST CAL_CNT_TRACK_REJECT; omega)) <|
      .kept (Module.setCtx_keeps ..) (fun _ => rfl) .refl
  unfold Module.track
  refine .ite (fun _ => .refl) fun _ => .ite (fun _ => ?_) fun _ => .ite (fun _ => ?_) fun _ => hcount _
  · exact .ite (fun _ => .kept (Module.setCtx_keeps ..) (fun _ => rfl) .refl) fun _ =>
      .kept (Module.setCtx_keeps ..) (fun _ => rfl) .refl
  · exact .after (Module.raiseCtx_seen _ hp ..) (hcount _)

theorem Module.copySet_seen (m : Module) (hp : p < 36) (n : Word) : Agree (Module.seen p) m (m.copySet p n) := by
  unfold Module.copySet
  refine .ite (fun _ => ?_) fun _ => .kept (Module.setCtx_keeps ..) (fun _ => rfl) .refl
  exact .after (Module.setFld_seen _ _ _ (by unfold CAP_CNT_SIGNAL_LOST FE_COMMIT_STAT; omega)) <|
    .kept (Module.setCtx_keeps ..) (fun _ => rfl) .refl

/-- The end of a frame in its context. -/
theorem Module.contextFrameEnd_seen (m : Module) (hp : p < 36) (e : Meas) :
    Agree (Module.seen p) m (m.contextFrameEnd p e) := by
  have hrun {y : Module} (h : Agree (Module.seen p) m y) (x : Ctx) : Agree (Module.seen p) m
      (((((y.setCtx p x).applyAtCopy p).copySet p (e.frame.seq + 1)).reportValid p).reportStored p) :=
    .after (Module.setFld_seen _ _ _ (by unfold CAP_CNT_SIGNAL_LOST CAL_CTX_STAT; omega)) <|
      .after (Module.setFld_seen _ _ _ (by unfold CAP_CNT_SIGNAL_LOST CAL_CTX_STAT; omega)) <|
      .after (Module.copySet_seen _ hp ..) <| .kept (Module.applyAtCopy_keeps ..) (fun _ => rfl) <|
      .kept (Module.setCtx_keeps ..) (fun _ => rfl) h
  have hframe (y : Module) (lane : Option LaneFrame) (esid : Nat) (ob : List Nat) : Agree (Module.seen p) y
      (if e.frame.cal then y.calFrame p e.frame lane esid ob else y) :=
    .ite (fun _ => Module.calFrame_seen _ hp ..) fun _ => .refl
  unfold Module.contextFrameEnd
  dsimp only
  refine .after (Module.calTrigger_seen _ hp) <| hrun ?_ _
  have hlane : Agree (Module.seen p) m (match m.laneFrame p e.frame.seq with
      | none => m
      | some g =>
        let ob := (m.laneIn p g.set (g.lines.map LaneLine.px)).ob
        let k := if (usableFlags e.frame.flags && m.resident p && (m.streams.find? p).isSome) = true then m.track p g.set ob else m
        let k := if e.frame.cal then k.calFrame p e.frame (some g) (k.carried p e.frame.seq).1 ob else k
        k.adjustLane p e.frame.seq fun g => { g with ended := some e }) := by
    split
    · exact .refl
    · exact .kept (Module.adjustLane_keeps ..) (fun _ => rfl) <| .after (hframe ..) <|
        .ite (fun _ => .after (Module.track_seen _ hp ..) .refl) fun _ => .refl
  exact .ite (fun _ => .after (Module.calFrame_seen _ hp ..) hlane) fun _ => hlane

/-! ### The port's own part -/

theorem Module.driftCheck_seen (m : Module) (hp : p < 36) (f : PortFrame) : Agree (Module.seen p) m (m.driftCheck p f) := by
  have h : CAP_CNT_SIGNAL_LOST p ≠ CAP_PORT_STATE p := by unfold CAP_CNT_SIGNAL_LOST CAP_PORT_STATE; omega
  unfold Module.driftCheck
  refine .ite (fun _ => .ite (fun _ => ?_) fun _ => ?_) fun _ => ?_
  · exact .after (Module.raiseCtx_seen _ hp ..) <| .after (Module.setFld_seen _ _ _ h) <| .after (Module.setFld_seen _ _ _ h) .refl
  · exact .after (Module.setFld_seen _ _ _ h) .refl
  · exact .after (Module.setFld_seen _ _ _ h) <| .after (Module.setFld_seen _ _ _ h) .refl

theorem Module.releaseBatches_seen (m : Module) (atStart : Bool) (n : Word) (l : List SqEntry) :
    Agree (Module.seen p) m (m.releaseBatches p atStart n l) := by
  unfold Module.releaseBatches
  exact .after (Module.setFld_seen _ _ _ (by unfold CAP_CNT_SIGNAL_LOST CAP_SQ_STAT; omega)) <|
    .after (Module.setPort_seen _ _ rfl) .refl

theorem Module.leaveActive_seen (m : Module) : Agree (Module.seen p) m (m.leaveActive p) := by
  unfold Module.leaveActive
  split
  · refine .ite (fun _ => ?_) fun _ => .refl
    have hleft : Agree (Module.seen p) m ((m.setPortState p 2).wr (CAP_FRAME_PERIOD p) 0) :=
      .after (Module.wr_seen _ _ (by unfold CAP_CNT_SIGNAL_LOST CAP_FRAME_PERIOD; omega)) <|
        .after (Module.setPortState_seen ..) .refl
    exact .after (Module.setPort_seen _ _ rfl) hleft
  · exact .refl

/-! ### Lines -/

theorem Module.closeLine_shut {f : PortFrame} (hf : (m.port p).frame = some f) (ho : f.open_ = none) (px : List W16) (lost cut : Bool) :
    m.closeLine p px lost cut = m := by
  unfold Module.closeLine
  rw [hf]
  dsimp only
  rw [ho]

/-- What is wrong with a line: the flag, and its counter. -/
def Module.lineFaults (m : Module) (p : Nat) (o : OpenLine) (px : List W16) (lost cut : Bool) : List (Bool × Nat × Nat) :=
  let w := (m.geom p).1
  let n := (m.activeOf p px).length
  let got := if m.bit (CAP_PORT_CFG p) CAP_PORT_CFG_hsync_mode then min n w else n
  [(o.overrun, flOverrun, CAP_CNT_OVERRUN p), (cut || (!o.overrun && !lost && got < w), flShortLines, CAP_CNT_SHORT_LINE p),
    (!o.overrun && w < got, flLongLines, CAP_CNT_LONG_LINE p)].filter (·.1)

/-- A frame with its line closed. -/
def Module.lineShut (m : Module) (p : Nat) (f : PortFrame) (px : List W16) : PortFrame :=
  let n := (m.activeOf p px).length
  { f with open_ := none
           widths := mergeRange f.widths (if m.bit (CAP_PORT_CFG p) CAP_PORT_CFG_hsync_mode then min n (m.geom p).1 else n) }

/-- A frame with its active line closed and counted. -/
def Module.lineCounted (m : Module) (p : Nat) (f : PortFrame) (o : OpenLine) (px : List W16) (lost cut : Bool) : PortFrame :=
  (m.lineFaults p o px lost cut).foldl (fun f k => f.flag k.2.1) { m.lineShut p f px with lines := f.lines + 1 }

theorem PortFrame.foldl_flag (l : List (Bool × Nat × Nat)) (f : PortFrame) :
    l.foldl (fun f k => f.flag k.2.1) f = { f with flags := l.foldl (fun n k => n ||| k.2.1) f.flags } := by
  induction l generalizing f with
  | nil => rfl
  | cons k l ih => exact (ih _).trans rfl

theorem Module.lineCounted_eq (m : Module) (p : Nat) (f : PortFrame) (o : OpenLine) (px : List W16) (lost cut : Bool) :
    m.lineCounted p f o px lost cut = { m.lineShut p f px with
      lines := f.lines + 1, flags := (m.lineFaults p o px lost cut).foldl (fun n k => n ||| k.2.1) f.flags } :=
  PortFrame.foldl_flag ..

theorem lineFaults_counters {o : OpenLine} {px : List W16} {lost cut : Bool} :
    ∀ x ∈ m.lineFaults p o px lost cut, CAP_CNT_SIGNAL_LOST p ≠ x.2.2 := by
  intro x hx
  unfold Module.lineFaults at hx
  have hx' := List.mem_of_mem_filter hx
  simp only [List.mem_cons, List.not_mem_nil, or_false] at hx'
  rcases hx' with rfl | rfl | rfl
  · simp [CAP_CNT_SIGNAL_LOST, CAP_CNT_OVERRUN]
  · simp [CAP_CNT_SIGNAL_LOST, CAP_CNT_SHORT_LINE]
  · simp [CAP_CNT_SIGNAL_LOST, CAP_CNT_LONG_LINE]

theorem closeLine_eq {f : PortFrame} {o : OpenLine} (hf : (m.port p).frame = some f) (ho : f.open_ = some o) (px : List W16)
    (lost cut : Bool) : ∃ line, m.closeLine p px lost cut =
      if (m.geom p).2 ≤ f.lines then m.setFrame p (some { m.lineShut p f px with extra := f.extra + 1 })
      else (m.lineFaults p o px lost cut).foldl (fun m k => m.count k.2.2 1)
        ((m.adjustLane p f.seq fun g => { g with lines := g.lines ++ [line] }).setFrame p
          (some (m.lineCounted p f o px lost cut))) := by
  unfold Module.closeLine
  rw [hf]
  dsimp only
  rw [ho]
  exact ⟨_, rfl⟩

theorem closeLine_counted {f : PortFrame} {o : OpenLine} (hf : (m.port p).frame = some f) (ho : f.open_ = some o)
    (hlines : f.lines < (m.geom p).2) (px : List W16) (lost cut : Bool) :
    ((m.closeLine p px lost cut).port p).frame = some (m.lineCounted p f o px lost cut) := by
  obtain ⟨line, hrun⟩ := closeLine_eq hf ho px lost cut
  rw [hrun, if_neg (Nat.not_le.2 hlines)]
  have hkeep (y : Module) (l : List (Bool × Nat × Nat)) : (l.foldl (fun m k => m.count k.2.2 1) y).port p = y.port p := by
    have h : Keeps Fld.regs y (l.foldl (fun m k => m.count k.2.2 1) y) :=
      .foldl (fun _ _ => .after (Module.count_keeps ..) rfl .refl) _ .refl
    exact h.view (fun x : Module => x.port p) fun _ => rfl
  rw [hkeep]
  exact congrArg Port.frame (Module.port_setPort_same ..)

/-- Whatever closes a line leaves the frame its number, with no line open, and the count of lost signals. -/
theorem closeLine_facts {f : PortFrame} (hf : (m.port p).frame = some f) (px : List W16) (lost cut : Bool) :
    (∃ g, ((m.closeLine p px lost cut).port p).frame = some g ∧ g.seq = f.seq ∧ g.open_ = none) ∧
      (m.closeLine p px lost cut).rd (CAP_CNT_SIGNAL_LOST p) = m.rd (CAP_CNT_SIGNAL_LOST p) := by
  cases ho : f.open_ with
  | none =>
    rw [Module.closeLine_shut hf ho]
    exact ⟨⟨f, hf, rfl, ho⟩, rfl⟩
  | some o =>
    by_cases hlines : f.lines < (m.geom p).2
    · refine ⟨⟨_, closeLine_counted hf ho hlines px lost cut, ?_, ?_⟩, ?_⟩
      · rw [Module.lineCounted_eq]
        rfl
      · rw [Module.lineCounted_eq]
        rfl
      · obtain ⟨line, hrun⟩ := closeLine_eq hf ho px lost cut
        rw [hrun, if_neg (Nat.not_le.2 hlines)]
        refine List.foldlRecOn (motive := fun y : Module => y.rd (CAP_CNT_SIGNAL_LOST p) = m.rd (CAP_CNT_SIGNAL_LOST p)) _ _ ?_
          fun y hy x hx => (Module.rd_wr_ne _ _ (lineFaults_counters x hx)).trans hy
        exact ((Module.setFrame_keeps ..).view (fun x : Module => x.rd _) fun _ => rfl).trans
          ((Module.adjustLane_keeps ..).view (fun x : Module => x.rd _) fun _ => rfl)
    · obtain ⟨line, hrun⟩ := closeLine_eq hf ho px lost cut
      rw [hrun, if_pos (Nat.not_lt.1 hlines)]
      exact ⟨⟨_, congrArg Port.frame (Module.port_setPort_same ..), rfl, rfl⟩, rfl⟩

theorem Module.lineTaken_iff (m : Module) (p : Nat) (px : List W16) : m.lineTaken p px = true ↔
    m.bit (CAP_PORT_CFG p) CAP_PORT_CFG_hsync_mode = true ∧ (m.geom p).1 ≤ (m.activeOf p px).length := by
  simp [Module.lineTaken]

/-- The faults of a line in LEVEL mode. -/
theorem lineFaults_level {o : OpenLine} (ho : o.overrun = false) {px : List W16}
    (hmode : m.bit (CAP_PORT_CFG p) CAP_PORT_CFG_hsync_mode = false) (n : Nat) :
    (m.lineFaults p o px false false).foldl (fun n k => n ||| k.2.1) n =
      n ||| (if px.length < (m.geom p).1 then flShortLines else if (m.geom p).1 < px.length then flLongLines else 0) := by
  have hactive : m.activeOf p px = px := if_neg (by simp [hmode])
  simp only [Module.lineFaults, ho, hmode, hactive]
  rcases Nat.lt_trichotomy px.length (m.geom p).1 with h | h | h
  · simp [h, Nat.lt_asymm h]
  · simp [h]
  · simp [h, Nat.lt_asymm h]

theorem portLineEnd_level {p : PortId} {t : Nat} {px : List W16} {f : PortFrame} {o : OpenLine} (hboot : s.boot ≠ .off)
    (hf : (s.port p).frame = some f) (ho : f.open_ = some o) (hlines : f.lines < (s.geom p).2) (hover : o.overrun = false)
    (hmode : s.bit (CAP_PORT_CFG p) CAP_PORT_CFG_hsync_mode = false) : Answers (.portLineEnd p t px) s fun m =>
      ∃ g, (m.port p).frame = some g ∧ g.lines = f.lines + 1 ∧ g.open_ = none ∧
        g.flags = f.flags ||| (if px.length < (s.geom p).1 then flShortLines
          else if (s.geom p).1 < px.length then flLongLines else 0) := by
  have hrun : portLineEnd p t px s.toModule = s.closeLine p px false false := if_neg (by simp [hmode])
  refine .of_ok hboot (congrArg (ok s) hrun) ⟨_, closeLine_counted hf ho hlines px false false, ?_⟩
  rw [Module.lineCounted_eq]
  exact ⟨rfl, rfl, lineFaults_level hover hmode _⟩

theorem portLineEnd_pulse {p : PortId} {t : Nat} {px : List W16} {f : PortFrame} {o : OpenLine} (hboot : s.boot ≠ .off)
    (hf : (s.port p).frame = some f) (ho : f.open_ = some o) (hlines : f.lines < (s.geom p).2) (hover : o.overrun = false)
    (hmode : s.bit (CAP_PORT_CFG p) CAP_PORT_CFG_hsync_mode = true) :
    let skip := s.fld (CAP_GEOM_OFS p) CAP_GEOM_OFS_h_offset * if s.bit (CAP_PORT_CFG p) CAP_PORT_CFG_ddr then 2 else 1
    Answers (.portLineEnd p t px) s fun m =>
      if px.length - skip < (s.geom p).1 then m = s.toModule
      else ∃ g, (m.port p).frame = some g ∧ g.lines = f.lines + 1 ∧ g.open_ = none ∧ g.flags = f.flags := by
  intro skip
  have hactive : (s.activeOf p px).length = px.length - skip := by
    unfold Module.activeOf
    rw [if_pos hmode, List.length_drop]
  by_cases hshort : px.length - skip < (s.geom p).1
  · have hnot : s.lineTaken p px = false := by
      rw [← Bool.not_eq_true, Module.lineTaken_iff, hactive]
      omega
    have hrun : portLineEnd p t px s.toModule = s.toModule := if_pos (by rw [hmode, hnot]; rfl)
    exact .of_ok hboot (congrArg (ok s) hrun) (by rw [if_pos hshort])
  · have htaken : s.lineTaken p px = true := (Module.lineTaken_iff ..).2 ⟨hmode, by omega⟩
    have hrun : portLineEnd p t px s.toModule = s.closeLine p px false false := if_neg (by rw [htaken]; simp)
    refine .of_ok hboot (congrArg (ok s) hrun) ?_
    rw [if_neg hshort]
    refine ⟨_, closeLine_counted hf ho hlines px false false, ?_⟩
    have hfaults : s.lineFaults p o px false false = [] := by
      have hmin : min (px.length - skip) (s.geom p).1 = (s.geom p).1 := by omega
      simp [Module.lineFaults, hover, hmode, hactive, hmin]
    rw [Module.lineCounted_eq, hfaults]
    exact ⟨rfl, rfl, rfl⟩

/-- The writes of a frame whose first line starts before they are done are late. -/
def Module.lateChecked (m : Module) (p : Nat) (f : PortFrame) : Module :=
  if f.lines = 0 && f.extra = 0 && f.lineAt.isNone && !(m.port p).batchesDone f.seq false then
    let m := m.setFrame p (some (f.flag flLateWrite))
    let m := m.adjustLane p f.seq fun g => { g with lateWrite := true }
    let m := if (m.port p).batchesDone f.seq true then m else m.exposureMark p f.seq false
    m.raiseCtx 0x0105 p 0 f.seq.toNat 0 0
  else m

theorem Module.lateChecked_frame {f : PortFrame} (hf : (m.port p).frame = some f) :
    ((m.lateChecked p f).port p).frame = some f ∨ ((m.lateChecked p f).port p).frame = some (f.flag flLateWrite) := by
  unfold Module.lateChecked
  split
  · refine .inr ?_
    have hkeep (y : Module) (e : Bool) : (((if e then y else y.exposureMark p f.seq false).raiseCtx 0x0105 p 0 f.seq.toNat 0 0).port p)
        = y.port p := by
      have h : Keeps (Fld.event ||| Fld.ctxs) y ((if e then y else y.exposureMark p f.seq false).raiseCtx 0x0105 p 0 f.seq.toNat 0 0) :=
        .after (Module.raiseCtx_keeps ..) rfl <| .ite (fun _ => .refl) fun _ => .after (Module.exposureMark_keeps ..) rfl .refl
      exact h.view (fun x : Module => x.port p) fun _ => rfl
    refine (congrArg Port.frame (hkeep ..)).trans ?_
    refine (congrArg Port.frame ((Module.adjustLane_keeps ..).view (fun x : Module => x.port p) fun _ => rfl)).trans ?_
    exact congrArg Port.frame (Module.port_setPort_same ..)
  · exact .inl hf

/-- A line opens. -/
def PortFrame.lineOpened (g : PortFrame) (t hblank : Nat) (full : Bool) : PortFrame :=
  { g with
    lineAt := some t, open_ := some ⟨full⟩
    periods := match g.lineAt with | some a => mergeRange g.periods (t - a) | none => g.periods
    hblank := if g.lineAt.isNone then g.hblank else some (match g.hblank with
      | some b => min b hblank | none => hblank) }

/-- The frame that a port receives opens a line. -/
def Module.lineOpen (m : Module) (p t hblank : Nat) : Module :=
  match (m.port p).frame with
  | none => m
  | some g => m.setFrame p (some (g.lineOpened t hblank
      ((m.laneFrame p g.seq).isSome && 2 ≤ m.queuedLines p && g.lines < (m.geom p).2)))

theorem Module.lineOpen_eq {g : PortFrame} (hg : (m.port p).frame = some g) (t hblank : Nat) :
    ∃ full, m.lineOpen p t hblank = m.setFrame p (some (g.lineOpened t hblank full)) := by
  unfold Module.lineOpen
  rw [hg]
  exact ⟨_, rfl⟩

theorem portLineStart_blank {p : PortId} {t hblank : Nat} {px : List W16} {f : PortFrame} (hf : (m.port p).frame = some f)
    (ho : f.open_ = none) (hblank' : m.bit (CAP_PORT_CFG p) CAP_PORT_CFG_vsync_mode = true ∧
      (f.edges + 1 < m.fld (CAP_GEOM_OFS p) CAP_GEOM_OFS_v_offset ∨ (m.geom p).2 ≤ f.lines)) :
    portLineStart p t hblank px m = m.setFrame p (some { f with edges := f.edges + 1 }) := by
  have hif : (m.bit (CAP_PORT_CFG p) CAP_PORT_CFG_vsync_mode && (decide (f.edges + 1 <
      m.fld (CAP_GEOM_OFS p) CAP_GEOM_OFS_v_offset) || decide ((m.geom p).2 ≤ f.lines))) = true := by
    simpa using hblank'
  unfold portLineStart
  dsimp only
  rw [Module.closeLine_shut hf ho, hf]
  exact if_pos hif

theorem portLineStart_opens {p : PortId} {t hblank : Nat} {px : List W16} {f : PortFrame} (hf : (m.port p).frame = some f)
    (ho : f.open_ = none) (hactive : ¬ (m.bit (CAP_PORT_CFG p) CAP_PORT_CFG_vsync_mode = true ∧
      (f.edges + 1 < m.fld (CAP_GEOM_OFS p) CAP_GEOM_OFS_v_offset ∨ (m.geom p).2 ≤ f.lines))) :
    ∃ (k : Module) (g : PortFrame) (full : Bool), (g = { f with edges := f.edges + 1 } ∨
        g = PortFrame.flag { f with edges := f.edges + 1 } flLateWrite) ∧
      portLineStart p t hblank px m = k.setFrame p (some (g.lineOpened t hblank full)) := by
  have hif : (m.bit (CAP_PORT_CFG p) CAP_PORT_CFG_vsync_mode && (decide (f.edges + 1 <
      m.fld (CAP_GEOM_OFS p) CAP_GEOM_OFS_v_offset) || decide ((m.geom p).2 ≤ f.lines))) = false := by
    simpa using hactive
  have hset : ((m.setFrame p (some { f with edges := f.edges + 1 })).port p).frame = some { f with edges := f.edges + 1 } :=
    congrArg Port.frame (Module.port_setPort_same ..)
  have hrun : portLineStart p t hblank px m = ((m.setFrame p (some { f with edges := f.edges + 1 })).lateChecked p
      { f with edges := f.edges + 1 }).lineOpen p t hblank := by
    unfold portLineStart
    dsimp only
    rw [Module.closeLine_shut hf ho, hf]
    exact if_neg (ne_true_of_eq_false hif)
  rcases Module.lateChecked_frame hset with h | h
  · obtain ⟨full, hopen⟩ := Module.lineOpen_eq h t hblank
    exact ⟨_, _, full, .inl rfl, hrun.trans hopen⟩
  · obtain ⟨full, hopen⟩ := Module.lineOpen_eq h t hblank
    exact ⟨_, _, full, .inr rfl, hrun.trans hopen⟩

theorem portLineStart_answers {p : PortId} {t hblank : Nat} {px : List W16} {f : PortFrame} (hboot : s.boot ≠ .off)
    (hf : (s.port p).frame = some f) (ho : f.open_ = none) : Answers (.portLineStart p t hblank px) s fun m =>
      ∃ g, (m.port p).frame = some g ∧ g.seq = f.seq ∧ g.lines = f.lines ∧ g.edges = f.edges + 1 ∧
        if s.bit (CAP_PORT_CFG p) CAP_PORT_CFG_vsync_mode = true ∧
          (f.edges + 1 < s.fld (CAP_GEOM_OFS p) CAP_GEOM_OFS_v_offset ∨ (s.geom p).2 ≤ f.lines) then
          g.open_ = none ∧ g.lineAt = f.lineAt
        else g.lineAt = some t ∧ g.open_.isSome := by
  by_cases hblank' : s.bit (CAP_PORT_CFG p) CAP_PORT_CFG_vsync_mode = true ∧
      (f.edges + 1 < s.fld (CAP_GEOM_OFS p) CAP_GEOM_OFS_v_offset ∨ (s.geom p).2 ≤ f.lines)
  · refine .of_ok hboot (congrArg (ok s) (portLineStart_blank hf ho hblank')) ⟨_, congrArg Port.frame (Module.port_setPort_same ..),
      rfl, rfl, rfl, ?_⟩
    rw [if_pos hblank']
    exact ⟨ho, rfl⟩
  · obtain ⟨k, g, full, hg, hrun⟩ := portLineStart_opens (t := t) (hblank := hblank) (px := px) hf ho hblank'
    refine .of_ok hboot (congrArg (ok s) hrun) ⟨_, congrArg Port.frame (Module.port_setPort_same ..), ?_⟩
    rw [if_neg hblank']
    rcases hg with rfl | rfl
    · exact ⟨rfl, rfl, rfl, rfl, rfl⟩
    · exact ⟨rfl, rfl, rfl, rfl, rfl⟩

/-! ### The end of a frame -/

/-- A frame as its end leaves it. -/
def Module.frameShut (m : Module) (p : Nat) (f : PortFrame) (cut : Bool) : PortFrame :=
  let f := if cut || f.lines < (m.geom p).2 then f.flag flShort else f
  if 0 < f.extra then f.flag flLong else f

/-- The counters of a frame that falls short or long. -/
def Module.frameCounted (m : Module) (p : Nat) (f : PortFrame) (lost cut : Bool) : Module :=
  let h := (m.geom p).2
  let short : Bool := cut || f.lines < h
  let g := m.frameShut p f cut
  let m := if short && !lost then m.count (CAP_CNT_SHORT_FRAME p) 1 else m
  let m := if 0 < g.extra then m.count (CAP_CNT_LONG_FRAME p) 1 else m
  (m.adjustLane p g.seq fun x => { x with lines := x.lines ++ List.replicate (h - g.lines) (m.padLine p) }).tick

theorem Module.frameCounted_seen (m : Module) (f : PortFrame) (lost cut : Bool) :
    Agree (Module.seen p) m (m.frameCounted p f lost cut) ∧ (m.frameCounted p f lost cut).port p = m.port p := by
  have hkeep : Keeps (Fld.regs ||| Fld.ctxs ||| Fld.now ||| Fld.draws) m (m.frameCounted p f lost cut) := by
    unfold Module.frameCounted
    exact .after (Module.tick_keeps ..) rfl <| .after (Module.adjustLane_keeps ..) rfl <|
      .ite (fun _ => .after (Module.count_keeps ..) rfl <| .ite (fun _ => .after (Module.count_keeps ..) rfl .refl) fun _ => .refl)
        fun _ => .ite (fun _ => .after (Module.count_keeps ..) rfl .refl) fun _ => .refl
  refine ⟨?_, hkeep.view (fun x : Module => x.port p) fun _ => rfl⟩
  have hshort : Agree (Module.seen p) m (if ((cut || decide (f.lines < (m.geom p).2)) && !lost) = true then
      m.count (CAP_CNT_SHORT_FRAME p) 1 else m) :=
    .ite (fun _ => .after (Module.count_seen _ _ (by simp [CAP_CNT_SIGNAL_LOST, CAP_CNT_SHORT_FRAME])) .refl) fun _ => .refl
  unfold Module.frameCounted
  exact .kept (Module.tick_keeps ..) (fun _ => rfl) <| .kept (Module.adjustLane_keeps ..) (fun _ => rfl) <|
    .ite (fun _ => .after (Module.count_seen _ _ (by simp [CAP_CNT_SIGNAL_LOST, CAP_CNT_LONG_FRAME])) hshort) fun _ => hshort

theorem closeFrame_eq {f : PortFrame} (hf : (m.port p).frame = some f) (ho : f.open_ = none) (t : Nat) (px : List W16)
    (lost cut : Bool) : ∃ e : Meas, e.frame = m.frameShut p f cut ∧ m.closeFrame p t px lost cut =
      (((((((m.frameCounted p f lost cut).setPort p { (m.frameCounted p f lost cut).port p with
        frame := none, meas := some e, lastEnd := some t }).setFld (CAP_PORT_STATE p) CAP_PORT_STATE_in_frame 0).driftCheck p
          (m.frameShut p f cut)).contextFrameEnd p e).releaseBatches p false (m.frameShut p f cut).seq []).leaveActive p) := by
  unfold Module.closeFrame
  rw [Module.closeLine_shut hf ho]
  dsimp only
  rw [hf]
  exact ⟨⟨m.frameShut p f cut, _⟩, rfl, rfl⟩

theorem closeFrame_facts (hp : p < 36) {f : PortFrame} (hf : (m.port p).frame = some f) (ho : f.open_ = none) (t : Nat)
    (px : List W16) (lost cut : Bool) :
    ((m.closeFrame p t px lost cut).port p).frame = none ∧ ((m.closeFrame p t px lost cut).port p).lastEnd = some t ∧
      (∃ e, ((m.closeFrame p t px lost cut).port p).meas = some e ∧ e.frame = m.frameShut p f cut) ∧
      (m.closeFrame p t px lost cut).rd (CAP_CNT_SIGNAL_LOST p) = m.rd (CAP_CNT_SIGNAL_LOST p) := by
  obtain ⟨e, he, hrun⟩ := closeFrame_eq hf ho t px lost cut
  obtain ⟨hcounted, hport⟩ := m.frameCounted_seen (p := p) f lost cut
  have hlast : Agree (Module.seen p) ((m.frameCounted p f lost cut).setPort p { (m.frameCounted p f lost cut).port p with
      frame := none, meas := some e, lastEnd := some t }) (m.closeFrame p t px lost cut) := by
    rw [hrun]
    exact .after (Module.leaveActive_seen _) <| .after (Module.releaseBatches_seen ..) <|
      .after (Module.contextFrameEnd_seen _ hp _) <| .after (Module.driftCheck_seen _ hp _) <|
      .after (Module.setFld_seen _ _ _ (by unfold CAP_CNT_SIGNAL_LOST CAP_PORT_STATE; omega)) .refl
  have hshown := congrArg Prod.fst hlast
  have hframe := congrArg Port.frame hshown
  have hend := congrArg Port.lastEnd hshown
  have hmeas := congrArg Port.meas hshown
  have hrd := congrArg Prod.snd hlast
  simp only [Module.seen, Module.port_setPort_same] at hframe hend hmeas hrd
  refine ⟨Option.map_eq_none_iff.1 hframe, hend, ⟨e, hmeas, he⟩, hrd.trans (congrArg Prod.snd hcounted)⟩

theorem Module.frameShut_seq (m : Module) (f : PortFrame) (cut : Bool) : (m.frameShut p f cut).seq = f.seq := by
  unfold Module.frameShut
  dsimp only
  split <;> split <;> rfl

theorem frameEnd_answers {p : PortId} {t : Nat} {px : List W16} {f : PortFrame} (hboot : s.boot ≠ .off)
    (hf : (s.port p).frame = some f) (ho : f.open_ = none) (hlines : f.lines = (s.geom p).2) :
    Answers (.frameEnd p t px) s fun m => (m.port p).frame = none ∧ (m.port p).lastEnd = some t ∧
      ∃ e, (m.port p).meas = some e ∧ e.frame.seq = f.seq ∧ e.frame.flags = f.flags ||| (if 0 < f.extra then flLong else 0) := by
  have hrun : frameEnd p t px s.toModule = s.closeFrame p t px false false := by
    unfold frameEnd
    rw [hf]
    exact if_neg (by simp [ho, hlines])
  obtain ⟨hframe, hend, ⟨e, hmeas, he⟩, -⟩ := closeFrame_facts p.isLt hf ho t px false false
  refine .of_ok hboot (congrArg (ok s) hrun) ⟨hframe, hend, e, hmeas, he ▸ Module.frameShut_seq .., ?_⟩
  have hshut : s.frameShut p f false = if 0 < f.extra then f.flag flLong else f := by
    simp [Module.frameShut, hlines]
  rw [he, hshut]
  split
  · rfl
  · exact (Nat.or_zero _).symm

theorem signalLost_facts (hp : p < 36) {f : PortFrame} (hf : (m.port p).frame = some f) (t : Nat) (px : List W16) :
    ((m.signalLost p t px).port p).frame = none ∧
      ((m.signalLost p t px).rd (CAP_CNT_SIGNAL_LOST p)).toNat = min ((m.rd (CAP_CNT_SIGNAL_LOST p)).toNat + 1) 0xFFFFFFFF ∧
      ∃ e, ((m.signalLost p t px).port p).meas = some e ∧ e.frame.seq = f.seq := by
  obtain ⟨⟨g, hg, hseq, hopen⟩, hrd⟩ := closeLine_facts hf px true false
  unfold Module.signalLost
  dsimp only
  rw [hg]
  dsimp only
  generalize m.closeLine p px true false = y at hg hrd
  have hcounted : Agree (Module.seen p) ((y.setFrame p (some ((g.flag flShort).flag flSignalLost))).count (CAP_CNT_SIGNAL_LOST p) 1)
      ((((y.setFrame p (some ((g.flag flShort).flag flSignalLost))).count (CAP_CNT_SIGNAL_LOST p) 1).setFld (CAP_PORT_STATE p)
        CAP_PORT_STATE_signal_lost 1).raiseCtx 0x0102 p 0 g.seq.toNat (g.lines + g.extra) 0) :=
    .after (Module.raiseCtx_seen _ hp ..) <|
      .after (Module.setFld_seen _ _ _ (by unfold CAP_CNT_SIGNAL_LOST CAP_PORT_STATE; omega)) .refl
  have hport : (((((y.setFrame p (some ((g.flag flShort).flag flSignalLost))).count (CAP_CNT_SIGNAL_LOST p) 1).setFld
      (CAP_PORT_STATE p) CAP_PORT_STATE_signal_lost 1).raiseCtx 0x0102 p 0 g.seq.toNat (g.lines + g.extra) 0).port p).frame =
        some ((g.flag flShort).flag flSignalLost) := by
    refine (congrArg Port.frame ((Module.raiseCtx_keeps ..).view (fun x : Module => x.port p) fun _ => rfl)).trans ?_
    exact congrArg Port.frame (Module.port_setPort_same ..)
  generalize Module.raiseCtx _ _ _ _ _ _ _ = z at hcounted hport ⊢
  obtain ⟨hframe, -, ⟨e, hmeas, he⟩, hlost⟩ := closeFrame_facts hp hport hopen t [] true false
  refine ⟨hframe, ?_, e, hmeas, ?_⟩
  · rw [hlost]
    refine (congrArg (fun x : Port × Word => x.2.toNat) hcounted).trans ((Module.rd_count_same_toNat ..).trans ?_)
    exact congrArg (fun v : Word => min (v.toNat + 1) 0xFFFFFFFF) hrd
  · rw [he, Module.frameShut_seq]
    exact hseq

theorem pclkLossTimeout_answers {p : PortId} {t : Nat} {px : List W16} {f : PortFrame} (hboot : s.boot ≠ .off)
    (hf : (s.port p).frame = some f) (ho : f.open_.isSome) : Answers (.pclkLossTimeout p t px) s fun m =>
      (m.port p).frame = none ∧
      (m.rd (CAP_CNT_SIGNAL_LOST p)).toNat = min ((s.rd (CAP_CNT_SIGNAL_LOST p)).toNat + 1) 0xFFFFFFFF ∧
      ∃ e, (m.port p).meas = some e ∧ e.frame.seq = f.seq := by
  have hrun : pclkLossTimeout p t px s.toModule = s.signalLost p t px := by
    unfold pclkLossTimeout
    rw [hf]
    exact if_pos ho
  exact .of_ok hboot (congrArg (ok s) hrun) (signalLost_facts p.isLt hf t px)

theorem frameEndTimeout_answers {p : PortId} {t : Nat} {px : List W16} {f : PortFrame} (hboot : s.boot ≠ .off)
    (hf : (s.port p).frame = some f) (hstate : s.portState p = 4)
    (hlate : f.start + 2 * (s.rd (CAP_FRAME_PERIOD p)).toNat ≤ t) : Answers (.frameEndTimeout p t px) s fun m =>
      (m.port p).frame = none ∧
      (m.rd (CAP_CNT_SIGNAL_LOST p)).toNat = min ((s.rd (CAP_CNT_SIGNAL_LOST p)).toNat + 1) 0xFFFFFFFF ∧
      ∃ e, (m.port p).meas = some e ∧ e.frame.seq = f.seq := by
  have hrun : frameEndTimeout p t px s.toModule = s.signalLost p t px := by
    unfold frameEndTimeout
    rw [hf]
    exact if_pos (by simp [hstate, hlate])
  exact .of_ok hboot (congrArg (ok s) hrun) (signalLost_facts p.isLt hf t px)

/-! ### The start of a frame -/

theorem Module.zero_seen (m : Module) (hp : p < 36) (a n : Nat) : Agree (Module.seen p) m (m.zero a n) := by
  have hport : (m.zero a n).port p = m.port p := (Module.zero_keeps ..).view (fun x : Module => x.port p) fun _ => rfl
  have hmem : memoryReg (CAP_CNT_SIGNAL_LOST p) = false := by
    simp only [memoryReg, Bool.or_eq_false_iff, decide_eq_false_iff_not]
    exact ⟨by unfold CAP_CNT_SIGNAL_LOST; omega, signalLost_notReport hp⟩
  have hrd := (m.zero_besideMemory a n).besideMemory_rd hmem
  unfold Agree Module.seen
  rw [hport, hrd]

theorem Module.historyStart_seen (m : Module) (hp : p < 36) : Agree (Module.seen p) m (m.historyStart p) := by
  have h : CAP_CNT_SIGNAL_LOST p ≠ NIS_HIST_STAT p := by unfold CAP_CNT_SIGNAL_LOST NIS_HIST_STAT; omega
  have hcounts (y : Module) : Agree (Module.seen p) y (y.zeroCounts p) := by
    unfold Module.zeroCounts
    split
    · exact .refl
    · exact .foldl (fun y _ => .ite (fun _ => y.zero_seen hp ..) fun _ => .refl) _ .refl
  unfold Module.historyStart
  exact .after (Module.setFld_seen _ _ _ h) <| .after (Module.setFld_seen _ _ _ h) <|
    .ite (fun _ => .after (hcounts _) <| .kept (Module.setCtx_keeps ..) (fun _ => rfl) .refl) fun _ =>
      .kept (Module.setCtx_keeps ..) (fun _ => rfl) .refl

theorem Module.laneStart_seen (m : Module) (hp : p < 36) (n : Word) (sof : Stamp) :
    Agree (Module.seen p) m (m.laneStart p n sof) := by
  have hctx (y : Module) (x : Ctx) : Agree (Module.seen p) y (y.setCtx p x) := .kept (Module.setCtx_keeps ..) (fun _ => rfl) .refl
  have hblocks (y : Module) (f : Nat) (set : ParamSet) : Agree (Module.seen p) y (y.writeBlocks p f set) := by
    unfold Module.writeBlocks
    split
    · exact .refl
    · exact .foldl (fun y _ => y.write_seen hp ..) _ .refl
  unfold Module.laneStart
  refine .ite (fun _ => ?_) fun _ => hctx _ _
  exact .after (hctx _ _) <| .after (Module.historyStart_seen _ hp) <| .after (hblocks ..) <|
    .after (Module.wr_seen _ _ (by unfold CAP_CNT_SIGNAL_LOST NIS_FRAME_INDEX; omega)) <| .after (hctx _ _) <| hctx _ _

theorem Module.resumeAtStart_seen (m : Module) (hp : p < 36) : Agree (Module.seen p) m (m.resumeAtStart p) := by
  unfold Module.resumeAtStart
  split
  · exact .refl
  · refine .upd (.foldl (fun y k => Module.setFld_seen y _ _ ?_) _ .refl)
    unfold CAP_CNT_SIGNAL_LOST NIS_OUT_STAT
    omega

theorem Module.issueExposure_seen (m : Module) (n : Word) : Agree (Module.seen p) m (m.issueExposure p n).2 := by
  unfold Module.issueExposure
  dsimp only
  split
  · exact .refl
  · exact .kept (Module.setCtx_keeps ..) (fun _ => rfl) .refl

theorem Module.reportEsid_seen (m : Module) (hp : p < 36) (n : Word) : Agree (Module.seen p) m (m.reportEsid p n) := by
  have h : CAP_CNT_SIGNAL_LOST p ≠ FE_FRAME_ESID p := by unfold CAP_CNT_SIGNAL_LOST FE_FRAME_ESID; omega
  exact .after (Module.setFld_seen _ _ _ h) <| .after (Module.setFld_seen _ _ _ h) <| .after (Module.setFld_seen _ _ _ h) .refl

/-- The exposure of a frame that starts, and the batches that it releases. -/
def Module.frameIssued (m : Module) (p : Nat) (n : Word) : Module :=
  let (batch, m) := m.issueExposure p n
  (m.releaseBatches p true n batch).reportEsid p n

theorem Module.frameIssued_eq (m : Module) (p : Nat) (n : Word) : m.frameIssued p n =
    ((m.issueExposure p n).2.releaseBatches p true n (m.issueExposure p n).1).reportEsid p n := by
  unfold Module.frameIssued
  rcases m.issueExposure p n with ⟨_, _⟩
  rfl

/-- The rest of a frame's start, once the port has the frame. -/
def Module.frameBegun (m : Module) (p : Nat) (n : Word) (sof : Stamp) (drop active first : Bool) (period : Nat) : Module :=
  let m := ((m.setFld (CAP_PORT_STATE p) CAP_PORT_STATE_signal_lost 0).setFld (CAP_PORT_STATE p)
    CAP_PORT_STATE_in_frame 1).calMark p n
  let m := if drop then
      let m := m.count (CAP_CNT_EARLY_DROP p) 1
      if first then m else m.raiseCtx 0x0103 p 0 n.toNat (min period 0xFFFFFFFF) 0
    else m
  let m := m.copyFirst p n
  let m := if !drop && m.resident p && (active || (m.streams.find? p).isNone) then m.laneStart p n sof else m
  let m := if drop then m else m.resumeAtStart p
  m.frameIssued p n

/-- The frame that starts, from the state in which its port may have become ACTIVE. -/
def Module.firstFrame (m : Module) (p t : Nat) (n : Word) : PortFrame :=
  let drop := m.early p t
  let x := m.port p
  { seq := n, flags := if drop then flEarly else 0, dropped := drop, cal := m.tick.calUses p, sof := m.tick.stamp n, strobes := []
    start := t, period := (x.lastStart.map fun a => t - a).getD 0, vblank := (x.lastEnd.map fun a => t - a).getD 0
    lines := 0, extra := 0, edges := 0, widths := none, periods := none, hblank := none, lineAt := none, open_ := none }

/-- Its port. -/
def Module.portAtStart (m : Module) (p t : Nat) (n : Word) : Port :=
  let drop := m.early p t
  let x := m.port p
  let active : Bool := decide (m.tick.portState p = 4)
  { x with frame := some (m.firstFrame p t n), lastStart := some t
           lastAccepted := if active && !drop then some t else x.lastAccepted
           dropRun := if active then drop else x.dropRun }

/-- A frame starts under a number. -/
def Module.frameNumbered (m : Module) (p t : Nat) (n : Word) : Module :=
  (m.tick.setPort p (m.portAtStart p t n)).frameBegun p n (m.tick.stamp n) (m.early p t) (decide (m.tick.portState p = 4))
    (m.port p).dropRun (m.firstFrame p t n).period

theorem Module.frameBegun_seen (m : Module) (hp : p < 36) (n : Word) (sof : Stamp) (drop active first : Bool) (period : Nat) :
    Agree (Module.seen p) m (m.frameBegun p n sof drop active first period) := by
  have h : CAP_CNT_SIGNAL_LOST p ≠ CAP_PORT_STATE p := by unfold CAP_CNT_SIGNAL_LOST CAP_PORT_STATE; omega
  have hearly {y : Module} (hy : Agree (Module.seen p) m y) : Agree (Module.seen p) m (y.count (CAP_CNT_EARLY_DROP p) 1) :=
    .after (Module.count_seen _ _ (by simp [CAP_CNT_SIGNAL_LOST, CAP_CNT_EARLY_DROP])) hy
  have hcopy (y : Module) : Agree (Module.seen p) y (y.copyFirst p n) := by
    unfold Module.copyFirst
    split
    · exact .ite (fun _ => Module.copySet_seen _ hp ..) fun _ => .refl
    · exact .refl
  have hlane {y : Module} (hy : Agree (Module.seen p) m y) (e : Bool) : Agree (Module.seen p) m (if e then y.laneStart p n sof else y) :=
    .ite (fun _ => .after (Module.laneStart_seen _ hp ..) hy) fun _ => hy
  have hresume {y : Module} (hy : Agree (Module.seen p) m y) : Agree (Module.seen p) m (if drop then y else y.resumeAtStart p) :=
    .ite (fun _ => hy) fun _ => .after (Module.resumeAtStart_seen _ hp) hy
  have hmark : Agree (Module.seen p) m (((m.setFld (CAP_PORT_STATE p) CAP_PORT_STATE_signal_lost 0).setFld (CAP_PORT_STATE p)
      CAP_PORT_STATE_in_frame 1).calMark p n) :=
    .after (Module.calMark_seen _ hp _) <| .after (Module.setFld_seen _ _ _ h) <| .after (Module.setFld_seen _ _ _ h) .refl
  unfold Module.frameBegun
  rw [Module.frameIssued_eq]
  refine .after (Module.reportEsid_seen _ hp _) <| .after (Module.releaseBatches_seen ..) <|
    .after (Module.issueExposure_seen ..) <| hresume <| hlane (.after (hcopy _) ?_) _
  exact .ite (fun _ => .ite (fun _ => hearly hmark) fun _ => .after (Module.raiseCtx_seen _ hp ..) (hearly hmark)) fun _ => hmark

/-- The numbers that frames have had. -/
def Module.numbers (m : Module) : SMap Word × SMap Word := (m.seqNext, m.seqLast)

theorem Module.frameBegun_numbers (m : Module) (p : Nat) (n : Word) (sof : Stamp) (drop active first : Bool) (period : Nat) :
    Agree Module.numbers m (m.frameBegun p n sof drop active first period) := by
  have hearly {y : Module} (hy : Agree Module.numbers m y) : Agree Module.numbers m (y.count (CAP_CNT_EARLY_DROP p) 1) :=
    .kept (Module.count_keeps ..) (fun _ => rfl) hy
  have hcopy (y : Module) : Agree Module.numbers y (y.copyFirst p n) :=
    .kept (Module.copyFirst_keeps ..) (fun _ => rfl) .refl
  have hlane {y : Module} (hy : Agree Module.numbers m y) (e : Bool) :
      Agree Module.numbers m (if e then y.laneStart p n sof else y) :=
    .ite (fun _ => .kept (Module.laneStart_keeps ..) (fun _ => rfl) hy) fun _ => hy
  have hresume {y : Module} (hy : Agree Module.numbers m y) :
      Agree Module.numbers m (if drop then y else y.resumeAtStart p) :=
    .ite (fun _ => hy) fun _ => .kept (Module.resumeAtStart_keeps ..) (fun _ => rfl) hy
  have hmark : Agree Module.numbers m (((m.setFld (CAP_PORT_STATE p) CAP_PORT_STATE_signal_lost
      0).setFld (CAP_PORT_STATE p) CAP_PORT_STATE_in_frame 1).calMark p n) :=
    .kept (Module.calMark_keeps ..) (fun _ => rfl) <| .kept (Module.setFld_keeps ..) (fun _ => rfl) <|
      .kept (Module.setFld_keeps ..) (fun _ => rfl) .refl
  have hissue (y : Module) : Agree Module.numbers y (y.issueExposure p n).2 :=
    (Module.issueExposure_keeps ..).view Module.numbers fun _ => rfl
  unfold Module.frameBegun
  rw [Module.frameIssued_eq]
  refine .kept (Module.reportEsid_keeps ..) (fun _ => rfl) <| .kept (Module.releaseBatches_keeps ..) (fun _ => rfl) <|
    .after (hissue _) <| hresume <| hlane (.after (hcopy _) ?_) _
  exact .ite (fun _ => .ite (fun _ => hearly hmark) fun _ => .kept (Module.raiseCtx_keeps ..) (fun _ => rfl) (hearly hmark))
    fun _ => hmark

theorem frameNumbered_facts (hp : p < 36) (t : Nat) (n : Word) : ∃ f, ((m.frameNumbered p t n).port p).frame = some f ∧ f.seq = n ∧
    f.start = t ∧ f.lines = 0 ∧ f.open_ = none := by
  have hseen := (m.tick.setPort p (m.portAtStart p t n)).frameBegun_seen hp n (m.tick.stamp n) (m.early p t)
    (decide (m.tick.portState p = 4)) (m.port p).dropRun (m.firstFrame p t n).period
  have hframe := congrArg (fun x : Port × Word => x.1.frame) hseen
  simp only [Module.seen, Module.port_setPort_same] at hframe
  obtain ⟨g, hg, hplain⟩ := Option.map_eq_some_iff.1 hframe
  exact ⟨g, hg, congrArg PortFrame.seq hplain, congrArg PortFrame.start hplain, congrArg PortFrame.lines hplain,
    congrArg PortFrame.open_ hplain⟩

theorem frameNumbered_numbers (t : Nat) (n : Word) : Agree Module.numbers m (m.frameNumbered p t n) :=
  .after (Module.frameBegun_numbers ..) <| .kept (Module.setPort_keeps ..) (fun _ => rfl) <|
    .kept (Module.tick_keeps ..) (fun _ => rfl) .refl

/-- The number of the frame that starts is given. -/
def Module.numbered (m : Module) (p : Nat) : Module :=
  let n := SMap.get 0 m.seqNext p
  { m with seqNext := SMap.set 0 m.seqNext p (n + 1), seqLast := m.seqLast.insert p n }

/-- Whether the start of the next frame cuts the open line. -/
def Module.cutAtStart (m : Module) (p : Nat) (px : List W16) : Bool :=
  match (m.port p).frame with
  | some f => f.open_.isSome && !m.lineTaken p px
  | none => false

theorem frameStart_eq {p : PortId} (t : Nat) (px : List W16) (hst : 2 ≤ m.portState p) :
    frameStart p t px m = (((m.closeFrame p t px false (m.cutAtStart p px)).numbered p).enterActive p).frameNumbered p t
      (SMap.get 0 (m.closeFrame p t px false (m.cutAtStart p px)).seqNext p) := by
  unfold frameStart
  rw [if_neg (Nat.not_lt.2 hst)]
  dsimp only
  generalize hy : m.closeFrame p t px false _ = y
  have hclose : m.closeFrame p t px false (m.cutAtStart p px) = y := hy
  rw [hclose]
  generalize hz : Module.enterActive _ _ = z
  have henter : (y.numbered p).enterActive p = z := hz
  rw [henter]
  generalize SMap.get 0 y.seqNext p = n
  unfold Module.frameNumbered Module.frameBegun Module.portAtStart Module.firstFrame
  generalize z.tick = x
  rfl

theorem frameStart_answers {p : PortId} {t : Nat} {px : List W16} (hboot : s.boot ≠ .off) (hst : 2 ≤ s.portState p) :
    Answers (.frameStart p t px) s fun m =>
      SMap.get 0 m.seqNext p = SMap.get 0 s.seqNext p + 1 ∧ m.lastSeq p = SMap.get 0 s.seqNext p ∧
      ∃ f, (m.port p).frame = some f ∧ f.seq = SMap.get 0 s.seqNext p ∧ f.start = t ∧ f.lines = 0 ∧ f.open_ = none := by
  have hrun := frameStart_eq (m := s.toModule) t px hst
  have hold : (s.closeFrame p t px false (s.cutAtStart p px)).seqNext = s.seqNext :=
    (Module.closeFrame_keeps ..).view (fun x : Module => x.seqNext) fun _ => rfl
  generalize s.closeFrame p t px false (s.cutAtStart p px) = y at hrun hold
  have hnumbers : (frameStart p t px s.toModule).numbers = (y.numbered p).numbers := hrun ▸
    (show Agree Module.numbers (y.numbered p) _ from .after (frameNumbered_numbers ..) ((Module.enterActive_keeps ..).view Module.numbers fun _ => rfl))
  have hnext : (frameStart p t px s.toModule).seqNext = SMap.set 0 y.seqNext p (SMap.get 0 y.seqNext p + 1) :=
    congrArg Prod.fst hnumbers
  have hlast : (frameStart p t px s.toModule).seqLast = y.seqLast.insert p (SMap.get 0 y.seqNext p) := congrArg Prod.snd hnumbers
  refine .of_ok hboot rfl ⟨?_, ?_, ?_⟩
  · rw [hnext, SMap.get_set_same, hold]
  · unfold Module.lastSeq SMap.get
    rw [hlast, SMap.find?_insert_same, hold]
    rfl
  · rw [hrun, hold]
    exact frameNumbered_facts p.isLt ..

end

/-- Settles O13: the closing of a line and of a frame is followed through what the port shows of them, whatever the context,
calibration and the sensor bus do beside it. -/
theorem frameReceptionCompletes : Obligations.FrameReceptionCompletes := by
  unfold Obligations.FrameReceptionCompletes
  intro p t tail s hboot
  exact ⟨frameStart_answers hboot, fun _ _ => portLineStart_answers hboot,
    fun _ _ => portLineEnd_level hboot, fun _ _ => portLineEnd_pulse hboot, fun _ => frameEnd_answers hboot,
    fun _ => pclkLossTimeout_answers hboot, fun _ => frameEndTimeout_answers hboot⟩

end Sys2Proof.Machine
end

section
set_option Elab.async false
/-!
The sensor bus of a camera port (R61 to R64).
-/
namespace Sys2Proof.Machine
open Sys2Proof

section
variable {s : State} {m k : Module} {p : PortId} {src : BusSource} {x : SqXfer}

/-! ### Bytes, least and most significant first -/

theorem leBytes_succ (n v : Nat) : leBytes (n + 1) v = BitVec.ofNat 8 v :: leBytes n (v / 256) := by
  unfold leBytes
  rw [List.range_succ_eq_map, List.map_cons, List.map_map]
  refine congrArg₂ List.cons (by simp) (List.map_congr_left fun i _ => ?_)
  simp only [Function.comp_apply, Nat.shiftRight_eq_div_pow, Nat.div_div_eq_div_mul]
  congr 2
  rw [Nat.mul_succ, Nat.pow_add, Nat.mul_comm]

theorem ofLe_leBytes (n v : Nat) : ofLe (leBytes n v) = v % 256 ^ n := by
  induction n generalizing v with
  | zero => simp [leBytes, ofLe, Nat.mod_one]
  | succ n ih =>
    rw [leBytes_succ, ofLe, ih, BitVec.toNat_ofNat]
    exact (Nat.mod_mul (a := 256) (b := 256 ^ n)).symm.trans (by rw [Nat.pow_succ'])

theorem ofBe_beBytes (n v : Nat) : ofBe (beBytes n v) = v % 2 ^ (8 * n) := by
  unfold ofBe beBytes
  rw [List.reverse_reverse, ofLe_leBytes, Nat.pow_mul]

theorem SqEntry.address_eq (e : SqEntry) : e.address = if e.op ≠ 2 ∧ e.reg16 then
    [BitVec.ofNat 8 (e.reg / 256), BitVec.ofNat 8 e.reg] else [BitVec.ofNat 8 e.reg] := by
  unfold SqEntry.address beBytes
  split
  · simp [leBytes_succ 1, leBytes_succ 0, show leBytes 0 _ = [] from rfl]
  · simp [leBytes_succ 0, show leBytes 0 _ = [] from rfl]

theorem SqEntry.payload_of_write {e : SqEntry} (h : e.op = 0) :
    e.payload.length = e.nbytes ∧ ofBe e.payload = e.data.toNat % 2 ^ (8 * e.nbytes) := by
  have hpay : e.payload = beBytes e.nbytes e.data.toNat := if_neg (by omega)
  rw [hpay]
  exact ⟨by simp [beBytes, length_leBytes], ofBe_beBytes ..⟩

/-! ### The queue -/

/-- The row of CAP_SQ_PUSH. -/
def sqPushRow : RegRow := ⟨CAP_SQ_PUSH 0, 0x1000, 36, 0x4, 1, [⟨CAP_SQ_PUSH_push, .wo, 0, 0, 1, .plain⟩]⟩

theorem regAt_CAP_SQ_PUSH : ∀ p : Fin 36, regAt (CAP_SQ_PUSH p) sqPushRow p 0 = true := by decide +kernel

theorem Module.writeReg_sqPush (m : Module) (src : BusSource) (p : PortId) (new : Word) :
    m.writeReg src sqPushRow p 0 (CAP_SQ_PUSH p) (CAP_SQ_PUSH_push.put 0 1) new = m.sqPush p :=
  (m.writeReg_cap src _ _ _ _ _ (by unfold CAP_SQ_PUSH; omega) (by unfold CAP_SQ_PUSH; omega)).trans rfl

/-- The state of a port that has queued its entry. -/
def Module.sqQueued (m : Module) (p : Nat) : Module :=
  let e := m.sqEntry p
  let k := (m.setPort p { m.port p with queue := (m.port p).queue ++ [e] }).reportFill p
  if e.op = 1 then k.setFld (CAP_SQ_STAT p) CAP_SQ_STAT_read_valid 0 else k

theorem Module.sqPush_queued {p : Nat} (hbad : m.sqBad p = false) (hst : m.portState p ≠ 0) (hfill : (m.port p).fill < 256)
    (hlate : m.sqLate p (m.sqEntry p) = false) : m.sqPush p = (stOk, m.sqQueued p) := by
  unfold Module.sqPush
  rw [if_neg (ne_true_of_eq_false hbad), if_neg hst, if_neg (Nat.not_le.2 hfill), if_neg (ne_true_of_eq_false hlate)]
  rfl

theorem Module.sqQueued_port (m : Module) (p : Nat) :
    (m.sqQueued p).port p = { m.port p with queue := (m.port p).queue ++ [m.sqEntry p] } := by
  have hport : ((m.setPort p { m.port p with queue := (m.port p).queue ++ [m.sqEntry p] }).reportFill p).port p =
      { m.port p with queue := (m.port p).queue ++ [m.sqEntry p] } :=
    ((Module.reportFill_keeps ..).view (fun y : Module => y.port p) fun _ => rfl).trans (Module.port_setPort_same ..)
  unfold Module.sqQueued
  dsimp only
  split
  · exact hport
  · exact hport

theorem sqPush_answers (ha : Admits s src true (CAP_SQ_PUSH p)) (hbad : s.sqBad p = false) (hst : s.portState p ≠ 0)
    (hfill : (s.port p).fill < 256) (hlate : s.sqLate p (s.sqEntry p) = false) : Answers (.sqPush src p) s fun m =>
      m.busStatus = 0 ∧ (m.port p).queue = (s.port p).queue ++ [s.sqEntry p] := by
  have hwr := Module.sqPush_queued hbad hst hfill hlate
  have ht : (s.sqQueued p).transition = s.transition :=
    (congrArg (fun x : Nat × Module => x.2.transition) hwr).symm.trans
      ((Module.sqPush_keeps s.toModule p).view (·.transition) fun _ => rfl)
  refine ha.runs rfl (regAt_CAP_SQ_PUSH p) (by decide) (Module.setupHeld_of_plain rfl _ _) (List.cons_ne_nil _ _)
    ((Module.writeReg_sqPush ..).trans hwr) ht ⟨rfl, ?_⟩
  rw [Module.writeAnswer_port, Module.sqQueued_port]

/-! ### Transactions -/

theorem sensorTransactionStart_answers {b : SqBatch} {r : List SqBatch} {e : SqEntry} {es : List SqEntry} (hboot : s.boot ≠ .off)
    (hst : 2 ≤ s.portState p) (hx : (s.port p).xfer = none) (hb : (s.port p).batches = b :: r) (he : b.entries = e :: es) :
    Answers (.sensorTransactionStart p) s fun m => (m.port p).xfer = some ⟨e, true, 0⟩ ∧
      m.outbox = s.outbox ++ [.sensor p e.op e.target e.address e.payload (if e.op = 1 then e.nbytes else 0)] ∧
      { m with ports := [], outbox := [] } = { s.toModule with ports := [], outbox := [] } := by
  have hrun : sensorTransactionStart p s.toModule = (s.setPort p { s.port p with xfer := some ⟨e, true, 0⟩ }).busSend p e := by
    unfold sensorTransactionStart
    dsimp only
    rw [if_neg (by simp [hx]; omega), hb]
    dsimp only
    rw [he]
  exact .of_ok hboot (congrArg (ok s) hrun) ⟨congrArg Port.xfer (Module.port_setPort_same ..), rfl, rfl⟩

theorem Module.sqFinish_port (m : Module) (p : Nat) (hin : x.inBatch = false) :
    (m.sqFinish p x).port p = { m.port p with xfer := none } := by
  unfold Module.sqFinish
  dsimp only
  rw [if_neg (ne_true_of_eq_false hin)]
  exact ((Module.reportFill_keeps ..).view (fun y : Module => y.port p) fun _ => rfl).trans (Module.port_setPort_same ..)

theorem sqRdata_ne_stat (p : Nat) : CAP_SQ_RDATA p ≠ CAP_SQ_STAT p := by simp [CAP_SQ_RDATA, CAP_SQ_STAT]

theorem busError_ne_stat (p : Nat) : CAP_CNT_BUS_ERROR p ≠ CAP_SQ_STAT p := by simp [CAP_CNT_BUS_ERROR, CAP_SQ_STAT]

theorem Module.sqFinish_rdata (m : Module) (p : Nat) (x : SqXfer) :
    (m.sqFinish p x).rd (CAP_SQ_RDATA p) = m.rd (CAP_SQ_RDATA p) := Module.rd_setFld_ne _ _ _ (sqRdata_ne_stat p)

theorem Module.sqFinish_readValid (m : Module) (p : Nat) (x : SqXfer) :
    (m.sqFinish p x).bit (CAP_SQ_STAT p) CAP_SQ_STAT_read_valid = m.bit (CAP_SQ_STAT p) CAP_SQ_STAT_read_valid :=
  Module.bit_setFld_ne _ _ _ _ _ (by decide) (by decide) (by decide)

theorem sensorTransactionDone_answers {rdata : List Byte} (hboot : s.boot ≠ .off) (hx : (s.port p).xfer = some x)
    (hin : x.inBatch = false) : Answers (.sensorTransactionDone p true rdata) s fun m =>
      (m.port p).xfer = none ∧ (m.port p).batches = (s.port p).batches ∧
      (x.entry.op = 1 → m.rd (CAP_SQ_RDATA p) = BitVec.ofNat 32 (ofBe (rdata.take x.entry.nbytes)) ∧
        m.bit (CAP_SQ_STAT p) CAP_SQ_STAT_read_valid = true) ∧
      (x.entry.op ≠ 1 → m.rd (CAP_SQ_RDATA p) = s.rd (CAP_SQ_RDATA p)) := by
  have hdone : sensorTransactionDone p true rdata s.toModule = (if x.entry.op = 1 then
      (s.wr (CAP_SQ_RDATA p) (BitVec.ofNat 32 (ofBe (rdata.take x.entry.nbytes)))).setFld (CAP_SQ_STAT p) CAP_SQ_STAT_read_valid 1
      else s.toModule).sqFinish p x := by
    unfold sensorTransactionDone
    rw [hx]
    rfl
  refine .of_ok hboot (congrArg (ok s) hdone) ?_
  by_cases hread : x.entry.op = 1
  · rw [if_pos hread, Module.sqFinish_port _ _ hin, Module.sqFinish_rdata, Module.sqFinish_readValid]
    refine ⟨rfl, rfl, fun _ => ⟨?_, ?_⟩, fun h => absurd hread h⟩
    · exact (Module.rd_setFld_ne _ _ _ (sqRdata_ne_stat p)).trans (Module.rd_wr_same ..)
    · exact Module.bit_setFld _ _ _ true (by decide) (by decide)
  · rw [if_neg hread, Module.sqFinish_port _ _ hin, Module.sqFinish_rdata]
    exact ⟨rfl, rfl, fun h => absurd h hread, fun _ => rfl⟩

theorem sensorBusTimeout_retried (hboot : s.boot ≠ .off) (hx : (s.port p).xfer = some x)
    (htries : x.tries < s.fld (CAP_BUS_CFG p) CAP_BUS_CFG_retries) : Answers (.sensorBusTimeout p) s fun m =>
      (m.port p).xfer = some { x with tries := x.tries + 1 } ∧
      m.outbox = s.outbox ++ [.sensor p x.entry.op x.entry.target x.entry.address x.entry.payload
        (if x.entry.op = 1 then x.entry.nbytes else 0)] := by
  have hrun : sensorBusTimeout p s.toModule =
      (s.setPort p { s.port p with xfer := some { x with tries := x.tries + 1 } }).busSend p x.entry := by
    unfold sensorBusTimeout Module.sqTryFailed
    dsimp only
    rw [hx]
    exact if_pos htries
  exact .of_ok hboot (congrArg (ok s) hrun) ⟨congrArg Port.xfer (Module.port_setPort_same ..), rfl⟩

/-- The last try of an IMMEDIATE entry has failed. -/
def Module.sqLost (m : Module) (p : Nat) (x : SqXfer) (err : Nat) : Module :=
  ((((m.setPort p { m.port p with xfer := none, batches := (m.port p).batches }).reportFill p).count (CAP_CNT_BUS_ERROR p) 1).sqError p
    err).raiseCtx 0x0104 p err (0 : Word).toNat (x.entry.reg * 65536 + x.entry.target * 512 + x.entry.op) 1

theorem sensorBusTimeout_failed (hboot : s.boot ≠ .off) (hx : (s.port p).xfer = some x)
    (htries : s.fld (CAP_BUS_CFG p) CAP_BUS_CFG_retries ≤ x.tries) (hin : x.inBatch = false) :
    Answers (.sensorBusTimeout p) s fun m => (m.port p).xfer = none ∧
      m.fld (CAP_SQ_STAT p) CAP_SQ_STAT_last_error = 2 ∧
      (m.rd (CAP_CNT_BUS_ERROR p)).toNat = min ((s.rd (CAP_CNT_BUS_ERROR p)).toNat + 1) 0xFFFFFFFF := by
  have hrun : sensorBusTimeout p s.toModule = s.sqLost p x 2 := by
    unfold sensorBusTimeout Module.sqTryFailed
    dsimp only
    rw [hx]
    refine (if_neg (Nat.not_lt.2 htries)).trans ?_
    unfold Module.sqFail
    exact if_neg (ne_true_of_eq_false hin)
  have hout : ∀ r ∈ reportRegs, ¬ (0x010000 ≤ r ∧ r < 0x040000) := by decide
  have hrd {off : Nat} (hlo : 0x010000 ≤ off) (hhi : off < 0x040000) : (s.sqLost p x 2).rd off =
      ((((s.setPort p { s.port p with xfer := none, batches := (s.port p).batches }).reportFill p).count (CAP_CNT_BUS_ERROR p) 1).sqError
        p 2).rd off :=
    (Module.raiseCtx_unreported (offs := []) ..).unreported_rd List.not_mem_nil fun h => hout _ h ⟨hlo, hhi⟩
  refine .of_ok hboot (congrArg (ok s) hrun) ⟨?_, ?_, ?_⟩
  · have hport : ((s.sqLost p x 2).port p) = (s.setPort p { s.port p with xfer := none }).port p :=
      (Module.raiseCtx_keeps ..).view (fun y : Module => y.port p) fun _ => rfl
    rw [hport, Module.port_setPort_same]
  · refine (Module.fld_congr (hrd (by unfold CAP_SQ_STAT; omega) (by unfold CAP_SQ_STAT; omega)) _).trans ?_
    exact Module.fld_setFld _ _ _ _ (by decide) (by decide) (by decide)
  · rw [hrd (by unfold CAP_CNT_BUS_ERROR; omega) (by unfold CAP_CNT_BUS_ERROR; omega)]
    refine (congrArg BitVec.toNat (Module.rd_setFld_ne _ _ _ (busError_ne_stat p))).trans ((Module.rd_count_same_toNat ..).trans ?_)
    exact congrArg (fun v : Word => min (v.toNat + 1) 0xFFFFFFFF) (Module.rd_setFld_ne _ _ _ (busError_ne_stat p))

end

/-- Settles O14: one lemma for each command of the sensor bus, on the port that it names. -/
theorem sensorBusCompletes : Obligations.SensorBusCompletes := by
  unfold Obligations.SensorBusCompletes
  intro src p s hboot
  refine ⟨sqPush_answers, fun _ _ _ _ => sensorTransactionStart_answers hboot, fun _ _ => sensorTransactionDone_answers hboot,
    fun _ => sensorBusTimeout_retried hboot, fun e => ⟨e.address_eq, fun h _ => e.payload_of_write h⟩,
    fun _ => sensorBusTimeout_failed hboot, fun hst hprotocol => ?_⟩
  exact .of_ok hboot rfl (if_pos ⟨hst, hprotocol⟩)

end Sys2Proof.Machine
end

section
set_option Elab.async false
/-!
The opening of debug levels (R465, R471, R480 to R485).
-/
namespace Sys2Proof.Machine
open Sys2Proof

section
variable {s : State} {b m k : Module} {d : DbgHdr}

/-! ### Finding in a map -/

theorem SMap.mem_of_find? {α : Type} {t : SMap α} {n : Nat} {v : α} (h : t.find? n = some v) : (n, v) ∈ t := by
  induction t with
  | nil => cases h
  | cons e t ih =>
    obtain ⟨i, w⟩ := e
    unfold SMap.find? at h
    split at h
    · next hi => exact List.mem_cons.2 (.inl (by rw [← hi, ← Option.some.inj h]))
    · exact List.mem_cons_of_mem _ (ih h)

theorem SMap.find?_isSome {α : Type} {t : SMap α} {e : Nat × α} (h : e ∈ t) : (t.find? e.1).isSome = true := by
  induction t with
  | nil => cases h
  | cons x t ih =>
    unfold SMap.find?
    split
    · rfl
    · next hne =>
      rcases List.mem_cons.1 h with rfl | h
      · exact absurd rfl hne
      · exact ih h

theorem SMap.find?_mapVal {α : Type} (t : SMap α) (f : α → α) (n : Nat) :
    SMap.find? (List.map (fun e : Nat × α => (e.1, f e.2)) t) n = (t.find? n).map f := by
  induction t with
  | nil => rfl
  | cons e t ih =>
    obtain ⟨i, w⟩ := e
    rw [List.map_cons]
    unfold SMap.find?
    split
    · rfl
    · exact ih

/-! ### Success and failure -/

theorem Module.authPass_level (m : Module) : m.authPass.level = m.level ∧ m.authPass.fld DBG_LEVEL DBG_LEVEL_failures = 0 := by
  have hstored : (if recValue m.flash.backoff = some 0 then m else m.storeBackoff 0).rd DBG_LEVEL = m.rd DBG_LEVEL := by
    split
    · rfl
    · exact Agree.unreported_rd (offs := []) (Module.storeFlash_unreported ..) List.not_mem_nil (by decide)
  refine ⟨?_, Module.fld_setFld _ _ _ _ (by decide) (by decide) (by decide)⟩
  exact (Module.fld_setFld_ne _ _ _ _ _ (by decide) (by decide) (by decide)).trans (Module.fld_congr hstored _)

theorem Module.authPass_rd (m : Module) {off : Nat} (hoff : off ∉ reportRegs) (hlevel : off ≠ DBG_LEVEL) :
    m.authPass.rd off = m.rd off := by
  unfold Module.authPass
  refine (Module.rd_setFld_ne _ _ _ hlevel).trans ?_
  split
  · rfl
  · exact Agree.unreported_rd (offs := []) (Module.storeFlash_unreported ..) List.not_mem_nil hoff

theorem Module.setLevel_failures (m : Module) (source : Fin 4) (v : Nat) :
    (m.setLevel source v).fld DBG_LEVEL DBG_LEVEL_failures = m.fld DBG_LEVEL DBG_LEVEL_failures := by
  unfold Module.setLevel
  dsimp only
  split
  · rfl
  · refine (Module.fld_congr ((Module.rd_raise ..).trans ?_) _).trans
      (m.fld_setFld_ne DBG_LEVEL DBG_LEVEL_level _ v (by decide) (by decide) (by decide))
    exact Agree.unreported_rd (offs := []) (Module.journalEntry_unreported ..) List.not_mem_nil (by decide)

/-- The register of the level, once one has been opened. -/
theorem Module.openLevel_rd (m : Module) (d : DbgHdr) (op v : Nat) :
    (m.openLevel d op v).rd DBG_LEVEL = (m.setLevel d.path v).rd DBG_LEVEL :=
  (Module.rd_debugAnswer ..).trans (Module.rd_wr_ne _ _ (by decide))

theorem Module.openLevel_level (m : Module) (d : DbgHdr) (op : Nat) {v : Nat} (hv : v < 4) : (m.openLevel d op v).level = v :=
  (Module.fld_congr (m.openLevel_rd d op v) _).trans (m.level_setLevel _ hv)

theorem Module.openLevel_failures (m : Module) (d : DbgHdr) (op v : Nat) :
    (m.openLevel d op v).fld DBG_LEVEL DBG_LEVEL_failures = m.fld DBG_LEVEL DBG_LEVEL_failures :=
  (Module.fld_congr (m.openLevel_rd d op v) _).trans (m.setLevel_failures ..)

theorem Module.openLevel_answered (m : Module) (d : DbgHdr) (op : Nat) {v : Nat} (hv : v < 4) :
    DbgAnswered (m.openLevel d op v) d op 0 0 (leBytes 1 v) := by
  have hlevel : ((m.setLevel d.path v).count DBG_CNT_OPEN 1).level = v :=
    (Module.fld_congr (Module.rd_wr_ne _ _ (by decide)) _).trans (m.level_setLevel _ hv)
  have h := Module.debugAnswer_answered ((m.setLevel d.path v).count DBG_CNT_OPEN 1) d op stOk 0
    (leBytes 1 ((m.setLevel d.path v).count DBG_CNT_OPEN 1).level)
  unfold Module.openLevel
  dsimp only
  rw [hlevel] at h ⊢
  exact h

theorem Module.openLevel_raised (m : Module) (d : DbgHdr) (op : Nat) {v : Nat} (hv : v ≠ m.level) :
    Raised (m.openLevel d op v) 0x0B01 255 (v + 4 * m.level) 0 0 0 := by
  have hset : Raised (m.setLevel d.path v) 0x0B01 255 (v + 4 * m.level) 0 0 0 := by
    unfold Module.setLevel
    dsimp only
    rw [if_neg hv]
    exact Module.raise_raised ..
  exact hset.of_trace ((Module.debugAnswer_keeps ..).view (·.trace) fun _ => rfl)

/-- A failure, but for its event and its answer. -/
def Module.failCounted (m : Module) : Module :=
  let n := min (m.fld DBG_LEVEL DBG_LEVEL_failures + 1) 255
  let m := ((m.setFld DBG_LEVEL DBG_LEVEL_failures n).count DBG_CNT_FAIL 1).tick.holdBackoff n
  if n < 3 then m else m.storeBackoff n

theorem Module.authFail_eq (m : Module) (d : DbgHdr) (op : Nat) : m.authFail d op =
    (m.failCounted.raise 0x0B03 (min (m.fld DBG_LEVEL DBG_LEVEL_failures + 1) 255)
      (if min (m.fld DBG_LEVEL DBG_LEVEL_failures + 1) 255 < 3 then 0
        else backoffMs (min (m.fld DBG_LEVEL DBG_LEVEL_failures + 1) 255)) 0 0).debugAnswer d op stAuthFailed 0 [] := rfl

theorem Module.failCounted_rd (m : Module) {off : Nat} (hoff : off ∉ reportRegs) : m.failCounted.rd off =
    ((m.setFld DBG_LEVEL DBG_LEVEL_failures (min (m.fld DBG_LEVEL DBG_LEVEL_failures + 1) 255)).count DBG_CNT_FAIL 1).rd off := by
  have hheld (y : Module) (n : Nat) : (y.tick.holdBackoff n).rd off = y.rd off := by
    unfold Module.holdBackoff
    split <;> rfl
  unfold Module.failCounted
  dsimp only
  split
  · exact hheld ..
  · exact (Agree.unreported_rd (offs := []) (Module.storeFlash_unreported ..) List.not_mem_nil hoff).trans (hheld ..)

theorem Module.failCounted_backoff {n : Nat} (hn : n = min (m.fld DBG_LEVEL DBG_LEVEL_failures + 1) 255) (h : m.backoff = false) :
    m.failCounted.backoff = decide (3 ≤ n) := by
  unfold Module.failCounted Module.holdBackoff
  dsimp only
  rw [← hn]
  by_cases hfew : n < 3
  · rw [if_pos hfew, if_pos hfew, decide_eq_false (by omega)]
    exact h
  · rw [if_neg hfew, if_neg hfew, decide_eq_true (by omega)]
    exact (Module.storeBackoff_keeps ..).view (·.backoff) fun _ => rfl

theorem Module.authFail_rd (m : Module) (d : DbgHdr) (op : Nat) {off : Nat} (hoff : off ∉ reportRegs := by decide) :
    (m.authFail d op).rd off = m.failCounted.rd off := by
  rw [Module.authFail_eq]
  exact (Module.rd_debugAnswer ..).trans (Module.rd_raise _ _ _ _ _ _ hoff)

theorem Module.authFail_level (m : Module) (d : DbgHdr) (op : Nat) : (m.authFail d op).level = m.level :=
  (Module.fld_congr ((m.authFail_rd d op).trans ((m.failCounted_rd (by decide)).trans (Module.rd_wr_ne _ _ (by decide)))) _).trans
    (Module.fld_setFld_ne _ _ _ _ _ (by decide) (by decide) (by decide))

theorem Module.authFail_failures (m : Module) (d : DbgHdr) (op : Nat) : (m.authFail d op).fld DBG_LEVEL DBG_LEVEL_failures =
    min (m.fld DBG_LEVEL DBG_LEVEL_failures + 1) 255 :=
  (Module.fld_congr ((m.authFail_rd d op).trans ((m.failCounted_rd (by decide)).trans (Module.rd_wr_ne _ _ (by decide)))) _).trans
    (Module.fld_setFld _ _ _ _ (by decide) (by decide) (lt_of_le_of_lt (Nat.min_le_right _ _) (by decide)))

theorem Module.authFail_counted (m : Module) (d : DbgHdr) (op : Nat) : ((m.authFail d op).rd DBG_CNT_FAIL).toNat =
    min ((m.rd DBG_CNT_FAIL).toNat + 1) 0xFFFFFFFF := by
  rw [m.authFail_rd d op, m.failCounted_rd (by decide), Module.rd_count_same_toNat, Module.rd_setFld_ne _ _ _ (by decide)]

theorem Module.authFail_answered (m : Module) (d : DbgHdr) (op : Nat) : DbgAnswered (m.authFail d op) d op 13 0 [] := by
  rw [Module.authFail_eq]
  exact Module.debugAnswer_answered ..

/-- An authentication that neither a fill nor a back-off holds up. -/
theorem Module.authBusy_free {op : Nat} {f : Module → Module} (hfill : m.fullFill = none) (hback : m.backoff = false) :
    m.authBusy d op f = f m := by
  unfold Module.authBusy
  rw [if_neg (by simp [hfill]), if_neg (by simp [hback])]

/-! ### PASSWORD -/

theorem password_opens {pw salt hash : List Byte} (hfill : s.fullFill = none) (hback : s.backoff = false) (hd : Debugged s d 0)
    (hlc : s.otp.lc = 2) (hlevel : s.level = 0) (hlo : 8 ≤ pw.length) (hhi : pw.length ≤ 64)
    (hlast : s.otp.passwords.getLast? = some (salt, hash)) :
    (Config.sha384 (salt ++ pw) = hash → Answers (.password d pw) s fun m => m.level = 1 ∧
        m.fld DBG_LEVEL DBG_LEVEL_failures = 0 ∧ DbgAnswered m d 1 0 0 [1] ∧ Raised m 0x0B01 255 1 0 0 0) ∧
      (Config.sha384 (salt ++ pw) ≠ hash → Answers (.password d pw) s fun m =>
        let n := min (s.fld DBG_LEVEL DBG_LEVEL_failures + 1) 255
        m.level = 0 ∧ m.fld DBG_LEVEL DBG_LEVEL_failures = n ∧ DbgAnswered m d 1 13 0 [] ∧
        (m.rd DBG_CNT_FAIL).toNat = min ((s.rd DBG_CNT_FAIL).toNat + 1) 0xFFFFFFFF ∧
        m.backoff = decide (3 ≤ n) ∧ Raised m 0x0B03 255 n (if n < 3 then 0 else backoffMs n) 0 0) := by
  have hrun : password d pw s.toModule = if Config.sha384 (salt ++ pw) = hash then s.authPass.openLevel d 1 1 else s.authFail d 1 := by
    unfold password
    rw [hd.runs (by decide), Module.authBusy_free hfill hback, if_neg (by simp [hlc, hlevel, hlo, hhi]), hlast]
  refine ⟨fun hpass => .of_ok hd.on (congrArg (ok s) hrun) ?_, fun hfail => .of_ok hd.on (congrArg (ok s) hrun) ?_⟩
  · rw [if_pos hpass]
    have hold : s.authPass.level = 0 := s.authPass_level.1.trans hlevel
    refine ⟨Module.openLevel_level _ _ _ (by decide), (Module.openLevel_failures ..).trans s.authPass_level.2,
      Module.openLevel_answered _ _ _ (by decide), ?_⟩
    have hraised := s.authPass.openLevel_raised d 1 (v := 1) (by rw [hold]; decide)
    rw [hold] at hraised
    exact hraised
  · rw [if_neg hfail]
    refine ⟨(Module.authFail_level ..).trans hlevel, Module.authFail_failures .., Module.authFail_answered ..,
      Module.authFail_counted .., ?_, ?_⟩
    · refine Eq.trans ?_ (Module.failCounted_backoff rfl hback)
      rw [Module.authFail_eq]
      exact ((Module.debugAnswer_keeps ..).view (·.backoff) fun _ => rfl).trans
        ((Module.raise_keeps ..).view (·.backoff) fun _ => rfl)
    · rw [Module.authFail_eq]
      exact (Module.raise_raised ..).of_trace ((Module.debugAnswer_keeps ..).view (·.trace) fun _ => rfl)

/-! ### The fill before FULL -/

/-- Every stream that is not being released begins its release. -/
def Module.releaseAll (m : Module) (l : List (Nat × Stream)) : Module :=
  l.foldl (fun m e => if e.2.phase = .releasing then m else m.beginRelease e.1 e.2 none) m

theorem Module.releaseAll_upper (m : Module) (l : List (Nat × Stream)) (hl : ∀ e ∈ l, e.1 < 36) :
    Agree Module.upper m (m.releaseAll l) :=
  List.foldlRecOn (motive := fun y => Agree Module.upper m y) l _ .refl fun _ hy e he =>
    .ite (fun _ => hy) fun _ => .after (Module.beginRelease_upper _ _ _ _ (hl e he)) hy

theorem Module.releaseAll_streams (l : List (Nat × Stream)) (m : Module) {n : Nat} {st : Stream}
    (h : (m.releaseAll l).streams.find? n = some st) :
    st.phase = .releasing ∨ m.streams.find? n = some st ∧ ∀ e ∈ l, e.1 = n → e.2.phase = .releasing := by
  induction l generalizing m with
  | nil => exact .inr ⟨h, by simp⟩
  | cons e l ih =>
    have hstep := ih _ h
    beta_reduce at hstep
    by_cases hrel : e.2.phase = .releasing
    · rw [if_pos hrel] at hstep
      refine hstep.imp_right fun ⟨hfind, hall⟩ => ⟨hfind, fun x hx hn => ?_⟩
      rcases List.mem_cons.1 hx with rfl | hx
      · exact hrel
      · exact hall x hx hn
    · rw [if_neg hrel] at hstep
      rcases hstep with hstep | ⟨hfind, hall⟩
      · exact .inl hstep
      · have hinsert : (m.beginRelease e.1 e.2 none).streams = m.streams.insert e.1 { e.2 with phase := .releasing, releaseBy := none } :=
          (Module.calAbort_keeps ..).view (·.streams) fun _ => rfl
        rw [hinsert] at hfind
        by_cases hn : n = e.1
        · rw [hn, SMap.find?_insert_same] at hfind
          exact .inl (by rw [← Option.some.inj hfind])
        · rw [SMap.find?_insert_ne _ _ hn] at hfind
          refine .inr ⟨hfind, fun x hx hxn => ?_⟩
          rcases List.mem_cons.1 hx with rfl | hx
          · exact absurd hxn.symm hn
          · exact hall x hx hxn

theorem Module.abortFills_upper (m : Module) : Agree Module.upper m m.abortFills :=
  .kept (Module.abortFills_keeps m) (fun _ => rfl) .refl

theorem Module.dropPackages_packages (l : List Nat) (m : Module) {n : Nat} (h : n ∈ l) :
    (l.foldl Module.dropPackage m).packages.find? n = none := by
  have hdrop (y : Module) (i : Nat) (hy : y.packages.find? n = none ∨ i = n) : (y.dropPackage i).packages.find? n = none := by
    unfold Module.dropPackage
    split
    · next hi =>
      rcases hy with hy | rfl
      · exact hy
      · exact hi
    · by_cases hi : i = n
      · rw [hi]
        exact SMap.find?_erase_same _ _
      · exact (SMap.find?_erase_ne _ (Ne.symm hi)).trans (hy.resolve_right hi)
  have hkept (l : List Nat) (y : Module) (hy : y.packages.find? n = none) : (l.foldl Module.dropPackage y).packages.find? n = none :=
    List.foldlRecOn (motive := fun y : Module => y.packages.find? n = none) l _ hy fun y hy i _ => hdrop y i (.inl hy)
  induction l generalizing m with
  | nil => cases h
  | cons i l ih =>
    rcases List.mem_cons.1 h with rfl | h
    · exact hkept l _ (hdrop m n (.inr rfl))
    · exact ih _ h

theorem Module.dropPackage_subset (m : Module) (n : Nat) : ∀ e ∈ (m.dropPackage n).packages, e ∈ m.packages := by
  intro e he
  unfold Module.dropPackage at he
  split at he
  · exact he
  · exact List.mem_of_mem_filter he

theorem Module.dropPackages_all (m : Module) : ((m.packages.map (·.1)).foldl Module.dropPackage m).packages = [] := by
  refine List.eq_nil_iff_forall_not_mem.2 fun e he => ?_
  have hold : e ∈ m.packages :=
    List.foldlRecOn (motive := fun y : Module => e ∈ y.packages → e ∈ m.packages) _ _ id
      (fun y hy n _ h => hy (y.dropPackage_subset n e h)) he
  have hnone := Module.dropPackages_packages (m.packages.map (·.1)) m (List.mem_map_of_mem hold)
  have hsome := SMap.find?_isSome he
  rw [hnone] at hsome
  exact Bool.noConfusion hsome

/-- The fill has begun: the level register says so, and in IDLE the module moves to RUN. -/
def Module.fillMoved (m : Module) (d : DbgHdr) : Module :=
  let m := { m with fullFill := some d }.setFld DBG_LEVEL DBG_LEVEL_filling 1
  if m.power = 2 && !m.moving then m.startMove 3 .request else
    match m.transition with
    | some t => if t.target = 2 then { m with transition := some { t with thenRun := true } } else m
    | none => m

theorem Module.startFill_eq (m : Module) (d : DbgHdr) :
    m.startFill d = ((m.fillMoved d).releaseAll (m.fillMoved d).streams).fillWork := rfl

theorem Module.fillMoved_facts (m : Module) (d : DbgHdr) : (m.fillMoved d).fullFill = some d ∧ (m.fillMoved d).streams = m.streams ∧
    (m.fillMoved d).rd DBG_LEVEL = (m.setFld DBG_LEVEL DBG_LEVEL_filling 1).rd DBG_LEVEL := by
  unfold Module.fillMoved
  dsimp only
  split
  · exact ⟨rfl, rfl, Module.rd_setFld_ne _ _ _ (by decide)⟩
  · split
    · split
      · exact ⟨rfl, rfl, rfl⟩
      · exact ⟨rfl, rfl, rfl⟩
    · exact ⟨rfl, rfl, rfl⟩

theorem Module.upper_withRegions (m : Module) (l : SMap Region) : ({ m with regions := l } : Module).upper = m.upper :=
  Module.upper_congr rfl

theorem Module.fillWork_upper (m : Module) : Agree Module.upper m m.fillWork := by
  have hdrop (y : Module) (l : List Nat) : Agree Module.upper y (l.foldl Module.dropPackage y) :=
    .foldl (fun _ _ => .kept (Module.dropPackage_keeps ..) (fun _ => rfl) .refl) _ .refl
  have hjobs (l : List Nat) : Agree Module.upper m (l.foldl Module.withdrawJob m) := .foldl (fun y _ => y.withdrawJob_upper _) _ .refl
  unfold Module.fillWork
  refine .ite (fun _ => .refl) fun _ => ?_
  refine Eq.trans (Module.upper_withRegions _ _) ?_
  exact Agree.after (hdrop ..) <| .after (Module.closeAllWindows_upper _) <| .after (Module.abortAllDma_upper _) <|
    .after (Module.abortFills_upper _) (hjobs _)

theorem Module.fillWork_streams (m : Module) : m.fillWork.streams = m.streams :=
  (Module.fillWork_keeps m).view (·.streams) fun _ => rfl

/-- With no stream left the packages are unloaded and no region stays live. -/
theorem Module.fillWork_empties (hfill : m.fullFill = some d) (hstreams : m.streams = []) :
    m.fillWork.packages = [] ∧ ∀ n r, m.fillWork.regions.find? n = some r → r.phase ≠ .live := by
  unfold Module.fillWork
  rw [if_neg (by simp [hfill, hstreams])]
  dsimp only
  generalize Module.closeAllWindows _ = y
  refine ⟨y.dropPackages_all, fun n r hr => ?_⟩
  obtain ⟨x, -, rfl⟩ := Option.map_eq_some_iff.1 ((SMap.find?_mapVal _ (fun r : Region =>
    if r.phase = .live then { r with phase := .waiting } else r) n).symm.trans hr)
  split
  · exact RegionPhase.noConfusion
  · assumption

theorem Module.startFill_facts (hstreams : m.streams.all (·.1 < 36) = true) (d : DbgHdr) :
    (m.startFill d).fullFill = some d ∧ (m.startFill d).rd DBG_LEVEL = (m.setFld DBG_LEVEL DBG_LEVEL_filling 1).rd DBG_LEVEL ∧
      (∀ n st, (m.startFill d).streams.find? n = some st → st.phase = .releasing) ∧
      (m.streams = [] → (m.startFill d).packages = [] ∧ ∀ n r, (m.startFill d).regions.find? n = some r → r.phase ≠ .live) := by
  obtain ⟨hfill, hkept, hrd⟩ := m.fillMoved_facts d
  have hsmall : ∀ e ∈ (m.fillMoved d).streams, e.1 < 36 := by
    rw [hkept]
    exact fun e he => of_decide_eq_true (List.all_eq_true.1 hstreams e he)
  have hreleased : ((m.fillMoved d).releaseAll (m.fillMoved d).streams).fullFill = some d := by
    refine Eq.trans (show Agree (fun x : Module => x.fullFill) (m.fillMoved d) _ from ?_) hfill
    exact .foldl (fun _ _ => .ite (fun _ => .refl) fun _ => .kept (Module.beginRelease_keeps ..) (fun _ => rfl) .refl) _ .refl
  rw [Module.startFill_eq]
  refine ⟨?_, ?_, fun n st h => ?_, fun hnone => ?_⟩
  · exact ((Module.fillWork_keeps _).view (·.fullFill) fun _ => rfl).trans hreleased
  · exact ((Module.fillWork_upper _).upper_rd).trans (((Module.releaseAll_upper _ _ hsmall).upper_rd).trans hrd)
  · rw [Module.fillWork_streams] at h
    exact (Module.releaseAll_streams _ _ h).elim id fun ⟨hfind, hall⟩ => hall _ (SMap.mem_of_find? hfind) rfl
  · refine Module.fillWork_empties hreleased ?_
    rw [hkept, hnone]
    exact hkept.trans hnone

/-! ### RESPONSE -/

theorem Module.dropNonce_rd (m : Module) : m.dropNonce.rd DBG_LEVEL = (m.setFld DBG_LEVEL DBG_LEVEL_nonce 0).rd DBG_LEVEL := rfl

theorem Module.dropNonce_level (m : Module) : m.dropNonce.level = m.level :=
  Module.fld_setFld_ne _ _ _ _ _ (by decide) (by decide) (by decide)

section
variable {level : Byte} {key sig : List Byte}

/-- What a RESPONSE that nothing holds up does. -/
theorem response_eq (hfill : s.fullFill = none) (hback : s.backoff = false) (hd : Debugged s d 0)
    (hle : s.level ≤ level.toNat) (hlevel : level.toNat ≤ 2) : response d level key sig s.toModule =
    if !s.responsePasses level.toNat key sig then s.dropNonce.authFail d 3
    else if level.toNat = 2 && s.dropNonce.authPass.level < 2 && 2 ≤ s.otp.lc then
      if s.power ≤ 1 || s.leaving then s.dropNonce.authPass.debugAnswer d 3 stNotReady 0 [] else s.dropNonce.authPass.startFill d
    else s.dropNonce.authPass.openLevel d 3 level.toNat := by
  have hboot : s.dropNonce.authPass.boot = s.boot := (Module.authPass_keeps s.dropNonce).view (fun x : Module => x.boot) fun _ => rfl
  have hotp : s.dropNonce.authPass.otp = s.otp := (Module.authPass_keeps s.dropNonce).view (fun x : Module => x.otp) fun _ => rfl
  have hleaving : s.dropNonce.authPass.leaving = s.leaving :=
    (Module.authPass_keeps s.dropNonce).view (fun x : Module => x.leaving) fun _ => rfl
  have hpower : s.dropNonce.authPass.power = s.power :=
    Module.fld_congr ((Module.authPass_rd _ (by decide) (by decide)).trans (Module.rd_setFld_ne _ _ _ (by decide))) _
  have hready : s.dropNonce.authPass.boot ≠ .failure := by
    rw [hboot]
    exact hd.1 ▸ by decide
  unfold response
  rw [hd.runs (by decide), if_neg (Nat.not_le.2 (Nat.lt_succ_of_le hlevel)), Module.authBusy_free hfill hback]
  dsimp only
  rw [if_neg (by rw [Module.dropNonce_level]; omega)]
  split
  · rfl
  · rw [if_neg (by simp [hready]), hotp, hpower, hleaving]

theorem response_opens (hfill : s.fullFill = none) (hback : s.backoff = false) (hd : Debugged s d 0)
    (hle : s.level ≤ level.toNat) (hlevel : level.toNat ≤ 2) (hpass : s.responsePasses level.toNat key sig = true)
    (hopen : level.toNat = 1 ∨ s.otp.lc = 1) : Answers (.response d level key sig) s fun m => m.level = level.toNat ∧
      m.nonce = none ∧ m.fld DBG_LEVEL DBG_LEVEL_failures = 0 ∧ DbgAnswered m d 3 0 0 [level] := by
  have hrun := response_eq (key := key) (sig := sig) hfill hback hd hle hlevel
  rw [hpass, if_neg (by decide), if_neg (by rcases hopen with h | h <;> simp [h])] at hrun
  refine .of_ok hd.on (congrArg (ok s) hrun) ⟨Module.openLevel_level _ _ _ (by omega), ?_, ?_, ?_⟩
  · exact ((Module.openLevel_keeps ..).view (·.nonce) fun _ => rfl).trans ((Module.authPass_keeps ..).view (·.nonce) fun _ => rfl)
  · exact (Module.openLevel_failures ..).trans (Module.authPass_level _).2
  · have h := Module.openLevel_answered s.dropNonce.authPass d 3 (v := level.toNat) (by omega)
    have hbody : leBytes 1 level.toNat = [level] := by
      rw [leBytes_succ, BitVec.ofNat_toNat, BitVec.setWidth_eq]
      rfl
    rwa [hbody] at h

theorem response_fills (hfill : s.fullFill = none) (hback : s.backoff = false) (hd : Debugged s d 0)
    (hpass : s.responsePasses level.toNat key sig = true) (hold : s.level < level.toNat) (hlevel : level.toNat = 2)
    (hlc : 2 ≤ s.otp.lc) (hpower : 2 ≤ s.power) (hmove : s.transition = none) (hstreams : s.streams.all (·.1 < 36) = true) :
    Answers (.response d level key sig) s fun m =>
      m.fullFill = some d ∧ m.level = s.level ∧ m.nonce = none ∧ m.bit DBG_LEVEL DBG_LEVEL_filling = true ∧
      (∀ k st, m.streams.find? k = some st → st.phase = .releasing) ∧
      (s.streams = [] → m.packages = [] ∧ ∀ k r, m.regions.find? k = some r → r.phase ≠ .live) := by
  have hrun := response_eq (key := key) (sig := sig) hfill hback hd (Nat.le_of_lt hold) (Nat.le_of_eq hlevel)
  have hbelow : s.dropNonce.authPass.level = s.level := (Module.authPass_level _).1.trans (Module.dropNonce_level _)
  have hstay : s.leaving = false := by
    unfold Module.leaving
    rw [hmove]
  rw [hpass, if_neg (by decide), if_pos (by simp [hlevel, hbelow, hlc]; omega), if_neg (by simp [hstay]; omega)] at hrun
  have hkept : s.dropNonce.authPass.streams = s.streams := (Module.authPass_keeps ..).view (·.streams) fun _ => rfl
  obtain ⟨hfilling, hrd, hreleasing, hempty⟩ := Module.startFill_facts (m := s.dropNonce.authPass) (hkept ▸ hstreams) d
  refine .of_ok hd.on (congrArg (ok s) hrun) ⟨hfilling, ?_, ?_, ?_, hreleasing, fun h => hempty (hkept.trans h)⟩
  · exact (Module.fld_congr hrd _).trans ((Module.fld_setFld_ne _ _ _ _ _ (by decide) (by decide) (by decide)).trans hbelow)
  · exact ((Module.startFill_keeps ..).view (·.nonce) fun _ => rfl).trans ((Module.authPass_keeps ..).view (·.nonce) fun _ => rfl)
  · exact (Module.bit_congr hrd _).trans (Module.bit_setFld _ _ _ true (by decide) (by decide))

theorem response_refused (hd : Debugged s d 0) (hlevel : 3 ≤ level.toNat) : Answers (.response d level key sig) s fun m =>
    OnlyRegs s m [] ∧ m.nonce = s.nonce ∧ DbgAnswered m d 3 3 0 [] := by
  have hrun : response d level key sig s.toModule = s.debugAnswer d 3 stRefused 0 [] := by
    unfold response
    rw [hd.runs (by decide), if_pos hlevel]
  exact .of_ok hd.on (congrArg (ok s) hrun) ⟨(OnlyRegs.refl s).debugAnswer,
    (Module.debugAnswer_keeps ..).view (·.nonce) fun _ => rfl, Module.debugAnswer_answered ..⟩

theorem response_fails (hfill : s.fullFill = none) (hback : s.backoff = false) (hd : Debugged s d 0)
    (hle : s.level ≤ level.toNat) (hlevel : level.toNat ≤ 2) (hfail : s.responsePasses level.toNat key sig = false) :
    Answers (.response d level key sig) s fun m =>
      m.level = s.level ∧ m.nonce = none ∧ m.fullFill = none ∧ DbgAnswered m d 3 13 0 [] := by
  have hrun := response_eq (key := key) (sig := sig) hfill hback hd hle hlevel
  rw [hfail, if_pos (by decide)] at hrun
  refine .of_ok hd.on (congrArg (ok s) hrun) ⟨(Module.authFail_level ..).trans (Module.dropNonce_level _), ?_, ?_,
    Module.authFail_answered ..⟩
  · exact (Module.authFail_keeps ..).view (·.nonce) fun _ => rfl
  · exact ((Module.authFail_keeps ..).view (·.fullFill) fun _ => rfl).trans hfill

end

/-! ### The end of the fill -/

theorem Module.zero_level (m : Module) (a n : Nat) : (m.zero a n).rd DBG_LEVEL = m.rd DBG_LEVEL :=
  (m.zero_besideMemory a n).besideMemory_rd (by decide)

theorem zeroFillDone_eq (hfill : m.fullFill = some d) (hhalt : m.cpHalted = false) (hpower : m.power = 3) (hmove : m.moving = false)
    (hstreams : m.streams = []) (hjobs : m.jobs = []) (hidle : m.enginesIdle = true) (hdma : m.dma = []) (hregions : m.regions = []) :
    zeroFillDone m = ((({ m.zero 0 spmSize with fullFill := none } : Module).setFld DBG_LEVEL DBG_LEVEL_filling 0).raise 0x0B02
      0 0 0 0).openLevel d 3 2 := by
  unfold zeroFillDone Module.firmware
  rw [if_neg (by simp [hhalt])]
  beta_reduce
  rw [hfill]
  dsimp only
  rw [if_neg (by simp [hpower, hmove, hstreams, hjobs, hidle, hdma, hregions])]

theorem zeroFillDone_opens (hboot : s.boot ≠ .off) (hhalt : s.cpHalted = false)
    (hwf : ∀ g e, s.gather.find? g = some e → e.bytes.length = 64) (hpower : s.power = 3) (hmove : s.moving = false)
    (hstreams : s.streams = []) (hjobs : s.jobs = []) (hidle : s.enginesIdle = true) (hdma : s.dma = []) (hregions : s.regions = []) :
    Answers .zeroFillDone { s with fullFill := some d } fun m => m.level = 2 ∧
        m.fullFill = none ∧ m.regions = [] ∧ (∀ a < spmSize, m.byte a = 0) ∧ (∀ a, spmSize ≤ a → m.byte a = s.byte a) ∧
        DbgAnswered m d 3 0 0 [2] := by
  have hrun := zeroFillDone_eq (m := { s.toModule with fullFill := some d }) rfl hhalt hpower hmove hstreams hjobs hidle hdma hregions
  have hlast : Keeps (Fld.event ||| Fld.journal) (({ Module.zero { s.toModule with fullFill := some d } 0 spmSize with
      fullFill := none } : Module).setFld DBG_LEVEL DBG_LEVEL_filling 0) (zeroFillDone { s.toModule with fullFill := some d }) := by
    rw [hrun]
    exact .after (Module.openLevel_keeps ..) rfl <| .after (Module.raise_keeps ..) rfl .refl
  have hbyte (a : Nat) : (zeroFillDone { s.toModule with fullFill := some d }).byte a =
      (Module.zero { s.toModule with fullFill := some d } 0 spmSize).byte a :=
    byte_congr (hlast.view (·.mem) fun _ => rfl) (hlast.view (·.gather) fun _ => rfl) a
  refine .of_ok hboot rfl ⟨?_, hlast.view (·.fullFill) fun _ => rfl, ?_, fun a ha => ?_, fun a ha => ?_, ?_⟩
  · rw [hrun]
    exact Module.openLevel_level _ _ _ (by decide)
  · exact (hlast.view (·.regions) fun _ => rfl).trans
      (((Module.zero_keeps ..).view (·.regions) fun _ => rfl).trans hregions)
  · rw [hbyte]
    exact Module.zero_byte_in _ (Nat.zero_le _) (by omega)
  · rw [hbyte, Module.zero_byte_outside (m := { s.toModule with fullFill := some d }) hwf (by decide) (by decide) (.inr (by omega))]
    rfl
  · rw [hrun]
    exact Module.openLevel_answered _ _ _ (by decide)

end

/-- Settles O53: a level opens by what authentication leaves of the level's register, and the fill before FULL by what every stream,
package and region is left as. -/
theorem levelsOpenAsStated : Obligations.LevelsOpenAsStated := by
  unfold Obligations.LevelsOpenAsStated
  intro d s hfill hback
  refine ⟨fun _ _ _ => password_opens hfill hback, fun level key sig hd hle => ⟨fun hpass hold hlevel => ⟨?_, ?_⟩, ?_, ?_⟩,
    fun _ => zeroFillDone_opens⟩
  · exact response_opens hfill hback hd hle hlevel hpass
  · exact response_fills hfill hback hd hpass hold
  · exact response_refused hd
  · exact fun hfail hlevel => response_fails hfill hback hd hle hlevel hfail

end Sys2Proof.Machine
end

section
set_option Elab.async false
/-!
The way to STANDBY is not always what its rule says: the plans of a mode change that it stops may name a channel that no module has,
whose status register is the register of the power state.
-/
namespace Sys2Proof.Machine
open Sys2Proof

/-- A plan whose one channel lies beyond the 64 of the module, at PWR_STATE. -/
def farChannelPlan : Plan := ⟨0, 0, [], [0x6000], [], ⟨0, [], 0, 0⟩, [], [], [], [], ⟨0, 0, 0⟩⟩

theorem farChannel_at_powerState : DMA_CH_STAT 0x6000 = PWR_STATE := by decide

/-- A module in RUN at debug level FULL, in a mode change whose plans name that channel. -/
def farChannelState : State :=
  { State.reset with
    boot := .ready
    regs := [(PWR_STATE, 0x33), (PWR_DOM_STAT, 0x3FFFFFFF), (SYS_BOOT_STAT, 0x100), (DBG_LEVEL, 0b1010)]
    modeChange := some ⟨1, .stopping, [(0, farChannelPlan)]⟩ }

/-- Stopping the mode change frees the channel, and shows the power state 0. -/
theorem requestStandby_farChannel : (requestStandby (.debug 2) farChannelState.toModule).power = 0 := by decide +kernel

end Sys2Proof.Machine

namespace Sys2Proof
open Machine

/-- Refutes O50: in `farChannelState` a request for STANDBY, which nothing stands against, does not leave the power state shown as it
was. -/
theorem not_powerStatesComplete : ¬ Obligations.PowerStatesComplete := by
  unfold Obligations.PowerStatesComplete
  intro h
  obtain ⟨hrequest, -⟩ := h farChannelState (by decide)
  obtain ⟨m, hm, hpower, -⟩ := hrequest (.debug 2) (.requestStandby (.debug 2)) 1
    ⟨by decide, by decide, by decide +kernel, by decide +kernel⟩ (.inr (.inr (.inl ⟨rfl, rfl⟩)))
  have hrun : m = requestStandby (.debug 2) farChannelState.toModule := module_of_ok (by decide) rfl hm
  rw [hrun, requestStandby_farChannel] at hpower
  exact absurd hpower (by decide)

end Sys2Proof
end

section
set_option Elab.async false
/-!
Frames, messages without a session, ARP and WAKE (R14, R375, R378, R409, R411, R414, R416).
-/
namespace Sys2Proof.Machine
open Sys2Proof

section
variable {s : State} {m k : Module} {port : Fin 2}

/-! ### Receive queues -/

theorem SMap.find?_adjust_same {α : Type} (t : SMap α) (n : Nat) (f : α → α) : (t.adjust n f).find? n = (t.find? n).map f := by
  unfold SMap.adjust
  cases hn : t.find? n with
  | none => exact hn
  | some v => exact SMap.find?_insert_same ..

/-- A command that leaves the state. -/
theorem exec_stays {c : Instr} (hboot : s.boot ≠ .off) (h : exec c s = ok s s.toModule) : exec c s = .next s :=
  h.trans (congrArg Host.Outcome.next (if_neg hboot))

theorem Module.popRx_rxq (m : Module) (port : Fin 2) :
    ((m.popRx port).netPort port).rxq = (m.netPort port).rxq.drop 1 := by
  unfold Module.popRx Module.netPort SMap.get
  dsimp only
  rw [SMap.find?_adjust_same]
  cases m.netPorts.find? port.val <;> rfl

theorem netRxFrame_long {f : RxFrame} (hboot : s.boot ≠ .off) (hnet : s.bit PWR_DOM_STAT PWR_DOM_STAT_net = true)
    (hon : s.bit (NET_PORT_CFG port) NET_PORT_CFG_enable = true) (hlong : s.fld (NET_PORT_CFG port) NET_PORT_CFG_max_frame < f.bytes) :
    Answers (.netRxFrame port f) s fun m => (m.rd (NET_CNT_RX_DROP port (s.frameClass port f))).toNat =
      min ((s.rd (NET_CNT_RX_DROP port (s.frameClass port f))).toNat + 1) 0xFFFFFFFF ∧ m.netPorts = s.netPorts := by
  have hrun : netRxFrame port f s.toModule = s.count (NET_CNT_RX_DROP port (s.frameClass port f)) 1 := by
    unfold netRxFrame
    dsimp only
    rw [if_neg (by simp [hnet, hon]), if_pos hlong]
  exact .of_ok hboot (congrArg (ok s) hrun) ⟨Module.rd_count_same_toNat .., rfl⟩

theorem netRxFrame_queued {f : RxFrame} (hboot : s.boot ≠ .off) (hnet : s.bit PWR_DOM_STAT PWR_DOM_STAT_net = true)
    (hon : s.bit (NET_PORT_CFG port) NET_PORT_CFG_enable = true) (hfits : f.bytes ≤ s.fld (NET_PORT_CFG port) NET_PORT_CFG_max_frame)
    (htag : f.tag = none) (hrtag : f.rtag = none) (hmac : s.macAccepts port f = true) (hfilter : s.filterOf port f = none)
    (hroom : (s.netPort port).rxq.sum + f.bytes ≤ 65536) : Answers (.netRxFrame port f) s fun m =>
      (m.netPort port).rxq = (s.netPort port).rxq ++ [f.bytes] ∧
      { m with netPorts := [] } = { s.toModule with netPorts := [] } := by
  have hvid : frameVid f = 0 := by
    unfold frameVid
    rw [htag]
  have hrec : s.recover f = (true, s.toModule) := by
    unfold Module.recover
    rw [hrtag, ite_self]
  have hrun : netRxFrame port f s.toModule = s.setNetPort port { s.netPort port with rxq := (s.netPort port).rxq ++ [f.bytes] } := by
    unfold netRxFrame
    dsimp only
    rw [if_neg (by simp [hnet, hon]), if_neg (Nat.not_lt.2 hfits), if_neg (by simp [hvid]), if_neg (by simp [hmac]), hfilter]
    dsimp only
    rw [if_neg (by decide), hrec]
    exact if_neg (Nat.not_lt.2 hroom)
  exact .of_ok hboot (congrArg (ok s) hrun) ⟨congrArg NetPort.rxq (SMap.get_set_same ..), rfl⟩

theorem ywpFrameDiscard_answers {l : List Byte} (hboot : s.boot ≠ .off) :
    (s.discards port l = true → Answers (.ywpFrameDiscard port l) s fun m =>
      (m.netPort port).rxq = (s.netPort port).rxq.drop 1 ∧ { m with netPorts := [] } = { s.toModule with netPorts := [] }) ∧
    (s.discards port l = false → exec (.ywpFrameDiscard port l) s = .next s) :=
  ⟨fun h => .of_ok hboot (congrArg (ok s) (if_pos h)) ⟨Module.popRx_rxq .., rfl⟩,
    fun h => exec_stays hboot (congrArg (ok s) (if_neg (ne_true_of_eq_false h)))⟩

theorem discards_of_bad {l b : List Byte} {p : Peer} (hin : s.ywpIn port l = some (p, b))
    (h : b.length < 24 ∨ (headAt b 6 2 ≠ s.node.toNat ∧ headAt b 6 2 ≠ 0xFFFF) ∨ reservedType (headAt b 1 1) = true ∨
      s.macFor port.val (headAt l 0 6) (headAt b 1 1 = 8) = false) : s.discards port l = true := by
  unfold Module.discards
  rw [hin]
  dsimp only
  rcases h with h | ⟨hnode, hall⟩ | h | h
  · simp [Module.discardsMsg, h]
  · simp [Module.discardsMsg, hnode, hall]
  · simp [Module.discardsMsg, h]
  · simp [h]

theorem arpRequest_answers {target sender : Word} (hboot : s.boot ≠ .off) : Answers (.arpRequest port target sender) s fun m =>
    let own := s.rd (if port = 0 then YWP_IPV4_A else YWP_IPV4_B)
    m.outbox = s.outbox ++ (if target = own ∧ own ≠ 0 then [.arp port own sender] else []) ∧
      { m with netPorts := [], outbox := [] } = { s.toModule with netPorts := [], outbox := [] } := by
  refine .of_ok hboot rfl ?_
  intro own
  have hrun : arpRequest port target sender s.toModule =
      if target = own ∧ own ≠ 0 then (s.popRx port).emit (.arp port own sender) else s.popRx port := by
    unfold arpRequest
    simp only [decide_eq_true_eq, Bool.and_eq_true]
    rfl
  rw [hrun]
  split
  · exact ⟨rfl, rfl⟩
  · exact ⟨(List.append_nil _).symm, rfl⟩

/-! ### WAKE -/

theorem Module.answer_regs (m : Module) (h : Hdr) (type status retry : Nat) (payload : List Byte) :
    (m.answer h type status retry payload).regs = m.regs := (Module.answer_keeps ..).view (·.regs) fun _ => rfl

/-- What the answer to a WAKE leaves, beside what it sends. -/
theorem popRx_answer (h : Hdr) (type status retry : Nat) (payload : List Byte) :
    ((m.popRx h.port).answer h type status retry payload).power = m.power ∧
      ((m.popRx h.port).answer h type status retry payload).boot = m.boot ∧
      ((m.popRx h.port).answer h type status retry payload).transition = m.transition :=
  ⟨Module.fld_congr (Module.rd_congr (Module.answer_regs ..) _) _, (Module.answer_keeps ..).view (·.boot) fun _ => rfl,
    (Module.answer_keeps ..).view (·.transition) fun _ => rfl⟩

section
variable {h : Hdr} (hboot : s.boot ≠ .off) (haddr : s.addressed h true = true)
include hboot haddr

theorem wake_payload {b : List Byte} (hb : b ≠ []) (hon : s.ready = true ∨ s.power = 1) (hmove : s.transition = none) :
    Answers (.wake ⟨h, b⟩) s fun m => Answered m h 8 34 0 [] ∧ m.power = s.power ∧ m.boot = s.boot ∧ m.transition = none := by
  have hrun : wake h b s.toModule = (s.popRx h.port).answer h 0x08 stBadMessage 0 [] := by
    have haddr' : (s.popRx h.port).addressed h true = true := haddr
    have hon' : (((s.popRx h.port).ready || decide ((s.popRx h.port).power = 1)) && !b.isEmpty) = true := by
      simp only [Bool.and_eq_true, Bool.or_eq_true, decide_eq_true_eq]
      exact ⟨hon, by simp [hb]⟩
    unfold wake
    dsimp only
    rw [if_neg (by simp [haddr']), if_pos hon']
  obtain ⟨hpower, hphase, htrans⟩ := popRx_answer (m := s.toModule) h 0x08 stBadMessage 0 []
  exact .of_ok hboot (congrArg (ok s) hrun) ⟨Module.answer_answered .., hpower, hphase, htrans.trans hmove⟩

/-- A WAKE without a payload, while nothing is on its way. -/
theorem wake_empty (hmove : s.transition = none) : wake h [] s.toModule =
    if s.power = 1 && s.moving && !s.wakeOn h.port.val then (s.popRx h.port).answerNotReady h 0x08 stRefused 0
    else if s.ready then (s.popRx h.port).answer h 0x08 stOk 0 []
    else if s.power = 1 then
      if !s.wakeOn h.port.val then (s.popRx h.port).answerNotReady h 0x08 stRefused 0
      else if s.tooHot then (s.popRx h.port).answerNotReady h 0x08 stNotReady 1000
      else ((s.popRx h.port).answerNotReady h 0x08 stNotReady 200).beginWake
    else (s.popRx h.port).notReadyAnswer h 0x08 true := by
  have haddr' : (s.popRx h.port).addressed h true = true := haddr
  have hstay : (s.popRx h.port).leaving = false := by
    unfold Module.leaving
    exact hmove ▸ rfl
  have hmove' : (s.popRx h.port).transition = none := hmove
  unfold wake
  dsimp only
  rw [if_neg (by simp [haddr']), if_neg (by simp), hstay, hmove']
  simp only [Bool.not_false, Bool.and_true]
  rfl

theorem wake_ready (hready : s.ready = true) (hmove : s.transition = none) : Answers (.wake ⟨h, []⟩) s fun m =>
    Answered m h 8 0 0 [] ∧ m.power = s.power ∧ m.boot = s.boot := by
  have hpower : s.power ≠ 1 := by
    intro hp
    simp [Module.ready, hp] at hready
  have hrun := wake_empty hboot haddr hmove
  rw [if_neg (by simp [hpower]), if_pos hready] at hrun
  obtain ⟨hkept, hphase, -⟩ := popRx_answer (m := s.toModule) h 0x08 stOk 0 []
  exact .of_ok hboot (congrArg (ok s) hrun) ⟨Module.answer_answered .., hkept, hphase⟩

end

/-- A node that has not been told so yet is told NOT_READY. -/
theorem answerNotReady_first {h : Hdr} (hfirst : m.notReadyAt.find? h.src.toNat = none) (type status retry : Nat)
    (htype : type ≠ 1 ∧ type ≠ 0x20 := by decide) : Answered (m.answerNotReady h type status retry) h type status retry [] := by
  have hlimit : m.limited m.notReadyAt h.src = (true, m.tick) := by
    unfold Module.limited
    dsimp only
    rw [hfirst]
  unfold Module.answerNotReady
  rw [hlimit]
  exact Module.answer_answered _ _ _ _ _ _ htype

theorem Module.beginWake_facts (m : Module) : m.beginWake.outbox = m.outbox ∧ m.beginWake.boot = .verifying ∧
    m.beginWake.transition.map (·.target) = some 2 ∧ m.beginWake.dramOn = true := by
  refine ⟨rfl, rfl, rfl, decide_eq_true ?_⟩
  refine (Module.fld_setFld_other _ _ _ _ (by decide)).trans ((Module.fld_setFld_other _ _ _ _ (by decide)).trans ?_)
  exact Module.fld_setFld _ _ _ _ (by decide) (by decide) (by decide)

section
variable {h : Hdr} (hboot : s.boot ≠ .off) (haddr : s.addressed h true = true) (hmove : s.transition = none) (hpower : s.power = 1)
  (hfirst : s.notReadyAt.find? h.src.toNat = none)
include hboot haddr hmove hpower hfirst

theorem wake_begins (hon : s.wakeOn h.port.val = true) (hhot : s.tooHot = false) : Answers (.wake ⟨h, []⟩) s fun m =>
    Answered m h 8 1 200 [] ∧ m.boot = .verifying ∧ m.transition.map (·.target) = some 2 ∧ m.dramOn = true := by
  have hrun := wake_empty hboot haddr hmove
  rw [if_neg (by simp [hon]), if_neg (by simp [Module.ready, hpower]), if_pos hpower, if_neg (by simp [hon]), if_neg (by simp [hhot])]
    at hrun
  obtain ⟨hout, hphase, htarget, hdram⟩ := ((s.popRx h.port).answerNotReady h 0x08 stNotReady 200).beginWake_facts
  refine .of_ok hboot (congrArg (ok s) hrun) ⟨?_, hphase, htarget, hdram⟩
  obtain ⟨p, vid, rtag, cl, hlast⟩ := answerNotReady_first (m := s.popRx h.port) hfirst 0x08 stNotReady 200
  exact ⟨p, vid, rtag, cl, (congrArg List.getLast? hout).trans hlast⟩

theorem wake_off (hoff : s.wakeOn h.port.val = false) : Answers (.wake ⟨h, []⟩) s fun m =>
    Answered m h 8 3 0 [] ∧ m.boot = s.boot ∧ m.transition = none := by
  have hrun : wake h [] s.toModule = (s.popRx h.port).answerNotReady h 0x08 stRefused 0 := by
    rw [wake_empty hboot haddr hmove]
    split
    · rfl
    · rw [if_neg (by simp [Module.ready, hpower]), if_pos (by simp [hoff])]
  have hkeep := (s.popRx h.port).answerNotReady_keeps h 0x08 stRefused 0
  exact .of_ok hboot (congrArg (ok s) hrun) ⟨answerNotReady_first (m := s.popRx h.port) hfirst 0x08 stRefused 0, hkeep.view (·.boot) fun _ => rfl,
    (hkeep.view (·.transition) fun _ => rfl).trans hmove⟩

end
end

/-- Settles O44: what arrives is queued, counted, discarded or answered as its first test that fails says. -/
theorem receptionCompletes : Obligations.ReceptionCompletes := by
  unfold Obligations.ReceptionCompletes
  intro port s hboot
  refine ⟨fun f hnet hon => ⟨netRxFrame_long hboot hnet hon, netRxFrame_queued hboot hnet hon⟩, fun l => ?_,
    fun _ _ => arpRequest_answers hboot, fun h haddr hmove => ?_⟩
  · obtain ⟨hgone, hstay⟩ := ywpFrameDiscard_answers (l := l) hboot
    refine ⟨hgone, hstay, fun hnone => ?_, fun _ _ => discards_of_bad⟩
    unfold Module.discards
    rw [hnone]
  · exact ⟨fun _ hb hon => wake_payload hboot haddr hb hon hmove, fun hready => wake_ready hboot haddr hready hmove,
      fun hpower hon hhot hfirst => wake_begins hboot haddr hmove hpower hfirst hon hhot,
      fun hpower hoff hfirst => wake_off hboot haddr hmove hpower hfirst hoff⟩

end Sys2Proof.Machine
end

section
set_option Elab.async false
/-!
Links, talkers, network time and transmission gates (R413, R415, R417, R418, R420 to R424).
-/
namespace Sys2Proof.Machine
open Sys2Proof

section
variable {s : State} {b m k l : Module} {port : Fin 2}

/-! ### What has left the module stays left -/

/-- What has left in one state has left in the other, which may have sent more. -/
def Grows (m k : Module) : Prop := ∃ x, k.outbox = m.outbox ++ x

theorem Grows.of_same (h : k.outbox = m.outbox) : Grows m k := ⟨[], h.trans (List.append_nil _).symm⟩

theorem Grows.refl : Grows m m := .of_same rfl

theorem Grows.trans (h : Grows m k) (h' : Grows k l) : Grows m l := by
  obtain ⟨x, hx⟩ := h
  obtain ⟨y, hy⟩ := h'
  exact ⟨x ++ y, by rw [hy, hx, List.append_assoc]⟩

theorem Grows.foldl {α : Type} {f : Module → α → Module} (hf : ∀ m x, Grows m (f m x)) (l : List α) (m : Module) :
    Grows m (l.foldl f m) :=
  List.foldlRecOn (motive := fun k => Grows m k) l _ .refl fun k hk x _ => hk.trans (hf k x)

theorem Module.frames_outbox (m : Module) (port : Fin 2) (dest : Peer) (replicate : Bool) (tclass : Nat) (x : Msg) :
    (m.frames port dest replicate tclass x).2.outbox = m.outbox := by
  unfold Module.frames
  split <;> rfl

theorem Module.send_grows (m : Module) (port : Fin 2) (dest : Peer) (replicate : Bool) (tclass : Nat) (x : Msg) :
    Grows m (m.send port dest replicate tclass x) :=
  ⟨_, (foldl_emit_outbox ..).trans (congrArg (· ++ _) (m.frames_outbox ..))⟩

theorem Module.ringWrite_grows (m : Module) (n off : Nat) (data : List Byte) (use : WinUse) :
    Grows m (m.ringWrite n off data use) := by
  unfold Module.ringWrite
  split
  · exact .refl
  · unfold Module.originate
    dsimp only
    split
    · exact (Grows.of_same rfl).trans (Module.send_grows ..)
    · exact .of_same rfl

theorem Module.writeEvent_grows (m : Module) (n : Nat) (e : Event) : Grows m (m.writeEvent n e) := by
  unfold Module.writeEvent
  split
  · exact .refl
  · exact (Grows.of_same rfl).trans (Module.ringWrite_grows ..)

theorem Module.writeAllLost_grows (m : Module) : Grows m m.writeAllLost := by
  refine Grows.foldl (fun m n => ?_) _ m
  unfold Module.writeLost
  split
  · exact .refl
  · split
    · exact .refl
    · exact (Grows.of_same rfl).trans (Module.writeEvent_grows ..)

theorem Module.deliver_grows (m : Module) (e : Event) : Grows m (m.deliver e) := by
  unfold Module.deliver
  split
  · exact .of_same rfl
  · refine Grows.foldl (fun m n => ?_) _ m
    unfold Module.deliverTo
    split
    · exact .refl
    · split
      · split
        · exact Module.writeEvent_grows ..
        · exact .of_same rfl
      · exact .refl

theorem Module.fault_grows (m : Module) (cls code p0 p1 p2 p3 : Nat) : Grows m (m.fault cls code p0 p1 p2 p3) := by
  have hmade : ((m.countFault cls).writeAllLost.makeEvent code 255 0 p0 p1 p2 p3).2.outbox = (m.countFault cls).writeAllLost.outbox :=
    (Module.makeEvent_keeps ..).view (·.outbox) fun _ => rfl
  unfold Module.fault Module.faultSeq
  generalize (m.countFault cls).writeAllLost.makeEvent code 255 0 p0 p1 p2 p3 = made at hmade ⊢
  exact ((Grows.of_same rfl).trans (Module.writeAllLost_grows (m.countFault cls))).trans
    ((Grows.of_same hmade).trans (Module.deliver_grows ..))

theorem emitFrames_outbox (l : List PlanFrame) (m : Module) : (m.emitFrames l).outbox = m.outbox ++ l.map (·.out) := by
  unfold Module.emitFrames
  induction l generalizing m with
  | nil => simp
  | cons f l ih =>
    rw [List.foldl_cons, ih, List.map_cons]
    simp [Module.emit]

/-! ### Links -/

theorem Module.netPort_setNetPort_same (m : Module) (p : Nat) (x : NetPort) : (m.setNetPort p x).netPort p = x :=
  SMap.get_set_same ..

theorem Module.netPort_setNetPort_ne (m : Module) {p q : Nat} (x : NetPort) (h : q ≠ p) :
    (m.setNetPort p x).netPort q = m.netPort q := SMap.get_set_ne _ _ _ _ h

theorem portStat_notReport (p : Fin 2) : NET_PORT_STAT p ∉ reportRegs := by
  have h : ∀ p : Fin 2, NET_PORT_STAT p ∉ reportRegs := by decide
  exact h p

theorem linkUp_answers {fast : Bool} (hboot : s.boot ≠ .off) (hnet : s.bit PWR_DOM_STAT PWR_DOM_STAT_net = true)
    (hon : s.bit (NET_PORT_CFG port) NET_PORT_CFG_enable = true)
    (hadv : s.bit (NET_PORT_CFG port) (if fast then NET_PORT_CFG_adv_2g5 else NET_PORT_CFG_adv_1g) = true) :
    Answers (.linkUp port fast) s fun m => m.bit (NET_PORT_STAT port) NET_PORT_STAT_link = true ∧
      m.fld (NET_PORT_STAT port) NET_PORT_STAT_speed = (if fast then 2 else 1) ∧ Raised m 0x0901 255 port.val 0 0 0 ∧
      OnlyRegs s m [NET_PORT_STAT port] := by
  have hadv' : (if fast then s.bit (NET_PORT_CFG port) NET_PORT_CFG_adv_2g5 else s.bit (NET_PORT_CFG port) NET_PORT_CFG_adv_1g) = true := by
    cases fast <;> exact hadv
  have hrun : linkUp port fast s.toModule = ((s.setFld (NET_PORT_STAT port) NET_PORT_STAT_link 1).setFld (NET_PORT_STAT port)
      NET_PORT_STAT_speed (if fast then 2 else 1)).raise 0x0901 port.val 0 0 0 := by
    unfold linkUp
    dsimp only
    rw [if_pos (by rw [hnet, hon]; exact hadv')]
  have hrd := Module.rd_raise ((s.setFld (NET_PORT_STAT port) NET_PORT_STAT_link 1).setFld (NET_PORT_STAT port)
    NET_PORT_STAT_speed (if fast then 2 else 1)) 0x0901 port.val 0 0 0 (portStat_notReport port)
  refine .of_ok hboot (congrArg (ok s) hrun) ⟨?_, ?_, Module.raise_raised .., ?_⟩
  · refine (Module.bit_congr hrd _).trans ((Module.bit_setFld_ne _ _ _ _ _ (by decide) (by decide) (by decide)).trans ?_)
    exact Module.bit_setFld _ _ _ true (by decide) (by decide)
  · exact (Module.fld_congr hrd _).trans (Module.fld_setFld _ _ _ _ (by decide) (by decide) (by cases fast <;> decide))
  · refine onlyRegs_of (G := Fld.event) ?_ ?_ (by decide)
    · exact .after (Module.raise_unreported ..) <| .after (Module.setFld_unreported _ _ _ (List.mem_singleton_self _)) <|
        Module.setFld_unreported _ _ _ (List.mem_singleton_self _)
    · exact .after (Module.raise_keeps ..) rfl <| .after (Module.setFld_keeps ..) rfl <| .after (Module.setFld_keeps ..) rfl .refl

/-- The registers of a link that is down, before its fault is reported. -/
def Module.linkCut (m : Module) (p : Nat) : Module :=
  ((m.setFld (NET_PORT_STAT p) NET_PORT_STAT_link 0).setFld (NET_PORT_STAT p) NET_PORT_STAT_speed 0).setFld (NET_PORT_STAT p)
    NET_PORT_STAT_preempt_active 0

/-- The part of a PLAN window's frames that have left when its link goes down. -/
def Module.windowCut (m : Module) (p : Nat) : Module :=
  match (m.netPort p).windowOpen with
  | none => m
  | some (c, l) =>
    let (n, m) := m.pick (l.length + 1)
    (m.emitFrames (l.take n)).setNetPort p { m.netPort p with windowOpen := some (c, l.drop n) }

theorem linkDown_eq (hlink : m.bit (NET_PORT_STAT port) NET_PORT_STAT_link = true) :
    linkDown port m = ((m.windowCut port).linkCut port).fault 11 0x0902 port.val 0 0 0 := if_pos hlink

theorem linkCut_shows (m : Module) (p : Nat) : (m.linkCut p).bit (NET_PORT_STAT p) NET_PORT_STAT_link = false ∧
    (m.linkCut p).fld (NET_PORT_STAT p) NET_PORT_STAT_speed = 0 := by
  refine ⟨?_, ?_⟩
  · refine (Module.bit_setFld_ne _ _ _ _ _ (by decide) (by decide) (by decide)).trans
      ((Module.bit_setFld_ne _ _ _ _ _ (by decide) (by decide) (by decide)).trans ?_)
    exact Module.bit_setFld _ _ _ false (by decide) (by decide)
  · refine (Module.fld_setFld_ne _ _ _ _ _ (by decide) (by decide) (by decide)).trans ?_
    exact Module.fld_setFld _ _ _ _ (by decide) (by decide) (by decide)

theorem Module.windowCut_regs (m : Module) (p : Nat) : (m.windowCut p).regs = m.regs := by
  unfold Module.windowCut
  split
  · rfl
  next c l _ =>
    exact ((Module.emitFrames_keeps (m.pick (l.length + 1)).2 _).view (·.regs) fun _ => rfl).trans
      ((m.pick_keeps (l.length + 1)).view (·.regs) fun _ => rfl)

theorem Module.windowCut_none {p : Nat} (h : (m.netPort p).windowOpen = none) : m.windowCut p = m := by
  unfold Module.windowCut
  rw [h]

theorem Module.windowCut_some {p : Nat} {c : PortId} {l : List PlanFrame} (h : (m.netPort p).windowOpen = some (c, l)) :
    ∃ n, (m.windowCut p).outbox = m.outbox ++ (l.take n).map (·.out) ∧
      ((m.windowCut p).netPort p).windowOpen = some (c, l.drop n) := by
  unfold Module.windowCut
  rw [h]
  refine ⟨(m.pick (l.length + 1)).1, ?_, congrArg NetPort.windowOpen (Module.netPort_setNetPort_same ..)⟩
  exact (emitFrames_outbox ..).trans (congrArg (· ++ _) ((m.pick_keeps (l.length + 1)).view (·.outbox) fun _ => rfl))

theorem linkDown_answers (hboot : s.boot ≠ .off) (hlink : s.bit (NET_PORT_STAT port) NET_PORT_STAT_link = true) :
    Answers (.linkDown port) s fun m => m.bit (NET_PORT_STAT port) NET_PORT_STAT_link = false ∧
      m.fld (NET_PORT_STAT port) NET_PORT_STAT_speed = 0 ∧
      (m.rd (SYS_FLT_CNT 10)).toNat = min ((s.rd (SYS_FLT_CNT 10)).toNat + 1) 0xFFFFFFFF ∧
      Raised m 0x0902 255 port.val 0 0 0 ∧
      ((s.netPort port).windowOpen = none → OnlyRegs s m [NET_PORT_STAT port]) ∧
      ∀ c l, (s.netPort port).windowOpen = some (c, l) → ∃ n k, m.outbox = s.outbox ++ (l.take n).map (·.out) ++ k ∧
        (m.netPort port).windowOpen = some (c, l.drop n) := by
  have hrd := Module.rd_fault ((s.windowCut port).linkCut port) (cls := 11) 0x0902 port.val 0 0 0 (by decide) (portStat_notReport port)
  obtain ⟨hdown, hspeed⟩ := linkCut_shows (s.windowCut port) port
  refine .of_ok hboot (congrArg (ok s) (linkDown_eq hlink)) ⟨(Module.bit_congr hrd _).trans hdown, (Module.fld_congr hrd _).trans hspeed,
    ?_, Module.fault_raised .., fun hnone => ?_, fun c l hopen => ?_⟩
  · refine (Module.faultSeq_counted _ 11 _ _ _ _ _ _ _ (by decide)).trans ?_
    have hne : SYS_FLT_CNT (11 - 1) ≠ NET_PORT_STAT port := by
      have h : ∀ p : Fin 2, SYS_FLT_CNT (11 - 1) ≠ NET_PORT_STAT p := by decide
      exact h port
    have hcnt : ((s.windowCut port).linkCut port).rd (SYS_FLT_CNT (11 - 1)) = s.rd (SYS_FLT_CNT 10) :=
      (Module.rd_setFld_ne _ _ _ hne).trans ((Module.rd_setFld_ne _ _ _ hne).trans ((Module.rd_setFld_ne _ _ _ hne).trans
        (Module.rd_congr (s.windowCut_regs port) _)))
    rw [hcnt]
  · rw [Module.windowCut_none hnone]
    refine onlyRegs_of (G := Fld.fault) ?_ ?_ (by decide)
    · exact .after (Module.fault_unreported (h := by decide) ..) <|
        .after (Module.setFld_unreported _ _ _ (List.mem_singleton_self _)) <|
        .after (Module.setFld_unreported _ _ _ (List.mem_singleton_self _)) <|
        Module.setFld_unreported _ _ _ (List.mem_singleton_self _)
    · exact .after (Module.fault_keeps ..) rfl <| .after (Module.setFld_keeps ..) rfl <| .after (Module.setFld_keeps ..) rfl <|
        .after (Module.setFld_keeps ..) rfl .refl
  · obtain ⟨n, hout, hwindow⟩ := Module.windowCut_some hopen
    obtain ⟨x, hx⟩ := Module.fault_grows ((s.windowCut port).linkCut port) 11 0x0902 port.val 0 0 0
    refine ⟨n, x, hx.trans (congrArg (· ++ x) hout), ?_⟩
    exact (congrArg NetPort.windowOpen ((Module.fault_keeps ..).view (fun x : Module => x.netPort port) fun _ => rfl)).trans hwindow

/-! ### Talkers -/

theorem regAt_NET_TLK_DMAC_LO : ∀ t : Fin 144, regAt (NET_TLK_DMAC_LO t)
    (wordRow (NET_TLK_DMAC_LO 0) 0x20 144 4 1 NET_TLK_DMAC_LO_dmac 0 0) t 0 = true := by
  have h : ∀ t : Fin 144, regWithin 0x600000 0x680000 (NET_TLK_DMAC_LO t)
      (wordRow (NET_TLK_DMAC_LO 0) 0x20 144 4 1 NET_TLK_DMAC_LO_dmac 0 0) t 0 = true := by decide +kernel
  exact fun t => regAt_of_regWithin (h t)

/-- A talker's register is written, and the talker has its next generation. -/
def Module.talkerSet (m : Module) (t off : Nat) (v : Word) : Module :=
  (m.wr off v).setFld (NET_TLK_GEN t) NET_TLK_GEN_gen (nextGen (m.fld (NET_TLK_GEN t) NET_TLK_GEN_gen))

theorem writeReg_talker (m : Module) (src : BusSource) (t : Fin 144) (v new : Word) :
    m.writeReg src (wordRow (NET_TLK_DMAC_LO 0) 0x20 144 4 1 NET_TLK_DMAC_LO_dmac 0 0) t 0 (NET_TLK_DMAC_LO t) v new =
      if m.talkerUsed t then (stRefused, m) else (stOk, m.talkerSet t (NET_TLK_DMAC_LO t) new) := by
  refine (m.writeReg_net _ _ _ _ _ _ (by unfold NET_TLK_DMAC_LO; omega) (by unfold NET_TLK_DMAC_LO; omega)).trans ?_
  have hrow : NET_TLK_DMAC_LO 0 ≠ NET_PORT_CFG 0 ∧ NET_TLK_DMAC_LO 0 ≠ NET_QBV_CYCLE 0 ∧ NET_TLK_DMAC_LO 0 ≠ NET_PCP_MAP 0 ∧
      NET_TLK_DMAC_LO 0 ≠ NET_TC_CFG 0 ∧ NET_TLK_DMAC_LO 0 ≠ NET_NODE ∧ NET_TLK_DMAC_LO 0 ≠ NET_TLK_CFG 0 := by decide
  obtain ⟨hport, hqbv, hpcp, htc, hnode, hcfg⟩ := hrow
  have hrelied : m.portRelied (wordRow (NET_TLK_DMAC_LO 0) 0x20 144 4 1 NET_TLK_DMAC_LO_dmac 0 0) t
      (m.rd (NET_TLK_DMAC_LO t)) new = false := by
    simp [Module.portRelied, wordRow, hport, hqbv, hpcp, htc]
  unfold Module.writeNet
  rw [if_neg (ne_true_of_eq_false hrelied)]
  cases hused : m.talkerUsed t <;> simp [wordRow, htc, hnode, hcfg, hused, Module.talkerSet]

theorem talkerConfigWrite_answers {src : BusSource} {t : Fin 144} {v : Word} (ha : Admits s src true (NET_TLK_DMAC_LO t)) :
    Answers (.talkerConfigWrite src t 0 v) s fun m =>
      if s.talkerUsed t then m.busStatus = 3 ∧ OnlyRegs s m []
      else m.busStatus = 0 ∧ m.rd (NET_TLK_DMAC_LO t) = v ∧
        m.fld (NET_TLK_GEN t) NET_TLK_GEN_gen = nextGen (s.fld (NET_TLK_GEN t) NET_TLK_GEN_gen) ∧
        OnlyRegs s m [NET_TLK_DMAC_LO t, NET_TLK_GEN t] := by
  have hmerge : (wordRow (NET_TLK_DMAC_LO 0) 0x20 144 4 1 NET_TLK_DMAC_LO_dmac 0 0).merge (s.rd (NET_TLK_DMAC_LO t)) v = v :=
    Bits.put_of_full _ _
  have htakes : (wordRow (NET_TLK_DMAC_LO 0) 0x20 144 4 1 NET_TLK_DMAC_LO_dmac 0 0).fields.all (·.takes v) = true := by
    have := v.isLt
    simp [wordRow, FieldRow.takes, Bits.of, NET_TLK_DMAC_LO_dmac]
    omega
  have hwr := writeReg_talker s.toModule src t v v
  by_cases hused : s.talkerUsed t = true
  · rw [if_pos hused] at hwr
    refine ha.turned rfl (regAt_NET_TLK_DMAC_LO t) htakes (Module.setupHeld_of_plain rfl _ _) (List.cons_ne_nil _ _)
      (by rw [hmerge]; exact hwr) (by decide) ?_
    rw [if_pos hused]
    exact ⟨rfl, onlyRegs_busAnswer ..⟩
  · rw [if_neg hused] at hwr
    have hlo : NET_TLK_DMAC_LO t ∈ [NET_TLK_DMAC_LO t, NET_TLK_GEN t] := by simp
    have hgen : NET_TLK_GEN t ∈ [NET_TLK_DMAC_LO t, NET_TLK_GEN t] := by simp
    have hne : NET_TLK_DMAC_LO t ≠ NET_TLK_GEN t := by unfold NET_TLK_DMAC_LO NET_TLK_GEN; omega
    refine ha.writes (G := Fld.regs) (offs := [NET_TLK_DMAC_LO t, NET_TLK_GEN t]) rfl (regAt_NET_TLK_DMAC_LO t) htakes
      (Module.setupHeld_of_plain rfl _ _) (List.cons_ne_nil _ _) (by rw [hmerge]; exact hwr)
      (.after (Module.setFld_unreported _ _ _ hgen) (Module.wr_unreported _ _ hlo))
      (.after (Module.setFld_keeps ..) rfl <| .after (Module.wr_keeps ..) rfl .refl) (by decide) rfl ?_
    rintro m rfl honly
    rw [if_neg hused]
    have hquiet {o : Nat} (ho : o < 0x680000) : (s.writeAnswer (s.talkerSet t (NET_TLK_DMAC_LO t) v) src (wordRow (NET_TLK_DMAC_LO 0)
        0x20 144 4 1 NET_TLK_DMAC_LO_dmac 0 0) t (NET_TLK_DMAC_LO t) v).rd o = (s.talkerSet t (NET_TLK_DMAC_LO t) v).rd o := by
      have hhigh : ∀ o ∈ [JNL_NEXT, JNL_OLDEST], 0x680000 ≤ o := by decide
      exact Module.writeAnswer_rd fun h => absurd (hhigh o h) (by omega)
    refine ⟨rfl, ?_, ?_, honly⟩
    · refine (hquiet (by unfold NET_TLK_DMAC_LO; omega)).trans ?_
      exact (Module.rd_setFld_ne _ _ _ hne).trans (Module.rd_wr_same ..)
    · refine (Module.fld_congr (hquiet (by unfold NET_TLK_GEN; omega)) _).trans ?_
      exact Module.fld_setFld _ _ _ _ (by decide) (by decide) (nextGen_lt (Bits.of_lt_two_pow NET_TLK_GEN_gen _))

theorem preemptionVerification_answers {good : Bool} (hboot : s.boot ≠ .off) : Answers (.preemptionVerification port good) s fun m =>
    m.bit (NET_PORT_STAT port) NET_PORT_STAT_preempt_active = (good && s.bit (NET_PORT_CFG port) NET_PORT_CFG_preempt_en) ∧
      OnlyRegs s m [NET_PORT_STAT port] :=
  .of_ok hboot rfl ⟨Module.bit_setFld _ _ _ _ (by decide) (by decide),
    onlyRegs_of (Module.setFld_unreported _ _ _ (List.mem_singleton_self _)) (Module.setFld_keeps ..) (by decide)⟩

/-! ### Network time -/

theorem satOffset_lt (o : Int) : satOffset o < 2 ^ 16 := twos_lt 16 _

/-- What slewing does to the clock's offset. -/
theorem Module.slew_facts (m : Module) (o : Int) : (m.slew o).clockStep = none ∧
    if 0 ≤ o then m.ptpOffset - o ≤ (m.slew o).ptpOffset ∧ (m.slew o).ptpOffset ≤ m.ptpOffset
      else m.ptpOffset ≤ (m.slew o).ptpOffset ∧ (m.slew o).ptpOffset ≤ m.ptpOffset - o := by
  refine ⟨rfl, ?_⟩
  unfold Module.slew
  dsimp only
  have hp : m.tick.ptpOffset = m.ptpOffset := rfl
  generalize (m.tick.now - m.now) / 10000 = k
  rw [hp]
  split
  · constructor <;> omega
  · constructor <;> omega

/-- What a step or a slew leaves of the clock. -/
def Stepped (m k : Module) (o : Int) : Prop :=
  if 1000 < o.natAbs then k.clockStep = some o ∧ k.ptpOffset = m.ptpOffset
  else k.clockStep = none ∧ if 0 ≤ o then m.ptpOffset - o ≤ k.ptpOffset ∧ k.ptpOffset ≤ m.ptpOffset
    else m.ptpOffset ≤ k.ptpOffset ∧ k.ptpOffset ≤ m.ptpOffset - o

/-- The offset is shown, and the clock is to be stepped or slewed. -/
def Module.offsetTaken (m : Module) (o : Int) : Module :=
  let m := m.setFld NET_GPTP_STAT NET_GPTP_STAT_offset_ns (satOffset o)
  if 1000 < o.natAbs then { m with clockStep := some o } else m.slew o

theorem Module.offsetTaken_facts (m : Module) (o : Int) : Stepped m (m.offsetTaken o) o ∧
    (m.offsetTaken o).fld NET_GPTP_STAT NET_GPTP_STAT_offset_ns = satOffset o ∧
    (m.offsetTaken o).fld NET_GPTP_STAT NET_GPTP_STAT_state = m.fld NET_GPTP_STAT NET_GPTP_STAT_state ∧
    (m.offsetTaken o).netPorts = m.netPorts := by
  have hshown : (m.setFld NET_GPTP_STAT NET_GPTP_STAT_offset_ns (satOffset o)).fld NET_GPTP_STAT NET_GPTP_STAT_offset_ns = satOffset o :=
    Module.fld_setFld _ _ _ _ (by decide) (by decide) (satOffset_lt o)
  have hstate : (m.setFld NET_GPTP_STAT NET_GPTP_STAT_offset_ns (satOffset o)).fld NET_GPTP_STAT NET_GPTP_STAT_state =
      m.fld NET_GPTP_STAT NET_GPTP_STAT_state := Module.fld_setFld_ne _ _ _ _ _ (by decide) (by decide) (by decide)
  unfold Module.offsetTaken Stepped
  dsimp only
  by_cases hfar : 1000 < o.natAbs
  · rw [if_pos hfar, if_pos hfar]
    exact ⟨⟨rfl, rfl⟩, hshown, hstate, rfl⟩
  · rw [if_neg hfar, if_neg hfar]
    exact ⟨Module.slew_facts (m.setFld NET_GPTP_STAT NET_GPTP_STAT_offset_ns (satOffset o)) o, hshown, hstate, rfl⟩

theorem portStat_ne_gptpStat (p : Nat) (hp : p < 2) : NET_GPTP_STAT ≠ NET_PORT_STAT p := by
  unfold NET_GPTP_STAT NET_PORT_STAT
  omega

/-- A port becomes the slave. -/
theorem Module.becomeSlave_facts (m : Module) (p : Nat) (hp : p < 2) :
    (m.becomeSlave p).fld NET_GPTP_STAT NET_GPTP_STAT_slave_port = p ∧
      (m.becomeSlave p).fld NET_GPTP_STAT NET_GPTP_STAT_state = m.fld NET_GPTP_STAT NET_GPTP_STAT_state ∧
      (m.becomeSlave p).fld NET_GPTP_STAT NET_GPTP_STAT_offset_ns = m.fld NET_GPTP_STAT NET_GPTP_STAT_offset_ns ∧
      Raised (m.becomeSlave p) 0x0903 255 p 0 0 0 ∧ (m.becomeSlave p).netPorts = m.netPorts ∧
      (m.becomeSlave p).clockStep = m.clockStep ∧ (m.becomeSlave p).ptpOffset = m.ptpOffset := by
  have hrd : (m.becomeSlave p).rd NET_GPTP_STAT = (m.setFld NET_GPTP_STAT NET_GPTP_STAT_slave_port p).rd NET_GPTP_STAT := by
    unfold Module.becomeSlave Module.setRole
    refine (Module.rd_raise ..).trans ?_
    exact (Module.rd_setFld_ne _ _ _ (portStat_ne_gptpStat _ (by omega))).trans (Module.rd_setFld_ne _ _ _ (portStat_ne_gptpStat _ hp))
  have hkeep : Keeps Fld.event m (m.becomeSlave p) :=
    .after (Module.raise_keeps ..) rfl <| .after (Module.setFld_keeps ..) rfl <| .after (Module.setFld_keeps ..) rfl <|
      .after (Module.setFld_keeps ..) rfl .refl
  refine ⟨(Module.fld_congr hrd _).trans ?_, (Module.fld_congr hrd _).trans ?_, (Module.fld_congr hrd _).trans ?_,
    Module.raise_raised .., hkeep.view (·.netPorts) fun _ => rfl, hkeep.view (·.clockStep) fun _ => rfl,
    hkeep.view (·.ptpOffset) fun _ => rfl⟩
  · exact Module.fld_setFld _ _ _ _ (by decide) (by decide) (show p < 4 by omega)
  · exact Module.fld_setFld_ne _ _ _ _ _ (by decide) (by decide) (by decide)
  · exact Module.fld_setFld_ne _ _ _ _ _ (by decide) (by decide) (by decide)

/-- The Sync messages below the threshold that port p has had in a row. -/
def Module.goodSyncs (m : Module) (p : Nat) (o : Int) : Nat :=
  if o.natAbs < m.fld NET_GPTP_CFG NET_GPTP_CFG_sync_thresh * 10 then (m.netPort p).good + 1 else 0

/-- The port has taken the Sync message. -/
def Module.syncTaken (m : Module) (p : Nat) (o : Int) : Module :=
  (m.setNetPort p { m.netPort p with good := m.goodSyncs p o, synced := (m.netPort p).synced || decide (8 ≤ m.goodSyncs p o) }).offsetTaken o

theorem gptpSyncReceive_eq {o : Int} (hnet : m.bit PWR_DOM_STAT PWR_DOM_STAT_net = true)
    (hslave : m.fld NET_GPTP_STAT NET_GPTP_STAT_slave_port = port.val) :
    gptpSyncReceive port (m.fld NET_GPTP_CFG NET_GPTP_CFG_domain) o m =
      if (decide (m.fld NET_GPTP_STAT NET_GPTP_STAT_state ≠ 1) && decide (8 ≤ m.goodSyncs port o)) = true then
        ((m.syncTaken port o).setFld NET_GPTP_STAT NET_GPTP_STAT_state 1).becomeSlave port
      else m.syncTaken port o := by
  have htaken : (decide (m.fld NET_GPTP_STAT NET_GPTP_STAT_slave_port = port.val) ||
      decide (m.fld NET_GPTP_STAT NET_GPTP_STAT_slave_port = 2) ||
      (decide (m.fld NET_GPTP_STAT NET_GPTP_STAT_state ≠ 1) && decide (8 ≤ m.goodSyncs port o))) = true := by simp [hslave]
  unfold gptpSyncReceive
  dsimp only
  rw [if_neg (by simp [hnet])]
  unfold Module.goodSyncs at htaken
  rw [if_pos htaken]
  rfl

theorem gptpSyncReceive_answers {o : Int} (hboot : s.boot ≠ .off) (hnet : s.bit PWR_DOM_STAT PWR_DOM_STAT_net = true)
    (hslave : s.fld NET_GPTP_STAT NET_GPTP_STAT_slave_port = port.val) :
    Answers (.gptpSyncReceive port (s.fld NET_GPTP_CFG NET_GPTP_CFG_domain) o) s fun m =>
      let good := if o.natAbs < s.fld NET_GPTP_CFG NET_GPTP_CFG_sync_thresh * 10 then (s.netPort port).good + 1 else 0
      (m.netPort port).good = good ∧ (m.netPort port).synced = ((s.netPort port).synced || decide (8 ≤ good)) ∧
      m.fld NET_GPTP_STAT NET_GPTP_STAT_offset_ns = satOffset o ∧
      (if 1000 < o.natAbs then m.clockStep = some o ∧ m.ptpOffset = s.ptpOffset
        else m.clockStep = none ∧ if 0 ≤ o then s.ptpOffset - o ≤ m.ptpOffset ∧ m.ptpOffset ≤ s.ptpOffset
          else s.ptpOffset ≤ m.ptpOffset ∧ m.ptpOffset ≤ s.ptpOffset - o) ∧
      (8 ≤ good → m.fld NET_GPTP_STAT NET_GPTP_STAT_state = 1) ∧
      (s.fld NET_GPTP_STAT NET_GPTP_STAT_state ≠ 1 → 8 ≤ good → Raised m 0x0903 255 port.val 0 0 0) := by
  obtain ⟨hstep, hshown, hstate, hports⟩ := Module.offsetTaken_facts (s.setNetPort port { s.netPort port with
    good := s.goodSyncs port o, synced := (s.netPort port).synced || decide (8 ≤ s.goodSyncs port o) }) o
  have hport : (s.syncTaken port o).netPort port = { s.netPort port with
      good := s.goodSyncs port o, synced := (s.netPort port).synced || decide (8 ≤ s.goodSyncs port o) } :=
    (congrArg (fun t => SMap.get NetPort.rest t port.val) hports).trans (Module.netPort_setNetPort_same ..)
  have hrun := gptpSyncReceive_eq (m := s.toModule) (o := o) hnet hslave
  refine .of_ok hboot (congrArg (ok s) hrun) ?_
  show let good := s.goodSyncs port o; _
  intro good
  by_cases henters : s.fld NET_GPTP_STAT NET_GPTP_STAT_state ≠ 1 ∧ 8 ≤ s.goodSyncs port o
  · have hcond : (decide (s.fld NET_GPTP_STAT NET_GPTP_STAT_state ≠ 1) && decide (8 ≤ s.goodSyncs port o)) = true := by
      simpa using henters
    rw [if_pos hcond]
    obtain ⟨-, hstay, hoffset, hraised, hkept, hclock, hptp⟩ :=
      Module.becomeSlave_facts ((s.syncTaken port o).setFld NET_GPTP_STAT NET_GPTP_STAT_state 1) port port.isLt
    have hsame : (((s.syncTaken port o).setFld NET_GPTP_STAT NET_GPTP_STAT_state 1).becomeSlave port).netPort port =
        (s.syncTaken port o).netPort port := congrArg (fun t => SMap.get NetPort.rest t port.val) hkept
    refine ⟨congrArg NetPort.good (hsame.trans hport), congrArg NetPort.synced (hsame.trans hport), ?_, ?_, fun _ => ?_, fun _ _ => hraised⟩
    · exact hoffset.trans ((Module.fld_setFld_ne _ _ _ _ _ (by decide) (by decide) (by decide)).trans hshown)
    · rw [hclock, hptp]
      exact hstep
    · exact hstay.trans (Module.fld_setFld _ _ _ _ (by decide) (by decide) (by decide))
  · have hcond : ¬(decide (s.fld NET_GPTP_STAT NET_GPTP_STAT_state ≠ 1) && decide (8 ≤ s.goodSyncs port o)) = true := by
      simpa using henters
    rw [if_neg hcond]
    refine ⟨congrArg NetPort.good hport, congrArg NetPort.synced hport, hshown, hstep, fun hgood => ?_, fun hnot hgood =>
      absurd ⟨hnot, hgood⟩ henters⟩
    refine hstate.trans (of_not_not fun hnot => henters ⟨hnot, hgood⟩)

/-- The port has lost Sync. -/
def Module.syncLost (m : Module) (p : Nat) : Module := m.setNetPort p { m.netPort p with good := 0, synced := false }

/-- The time of the slave port that has lost Sync is held over. -/
def Module.holdOver (m : Module) (p : Nat) : Module :=
  ((m.setRole p 0).setFld NET_GPTP_STAT NET_GPTP_STAT_state 2).fault 12 0x0904 p 0 0 0

theorem gptpSyncTimeout_eq (hstate : m.fld NET_GPTP_STAT NET_GPTP_STAT_state = 1)
    (hslave : m.fld NET_GPTP_STAT NET_GPTP_STAT_slave_port = port.val) :
    gptpSyncTimeout port m = if (m.netPort (1 - port.val)).synced = true then (m.syncLost port).becomeSlave (1 - port.val)
      else (m.syncLost port).holdOver port := by
  have hother : (m.syncLost port).netPort (1 - port.val) = m.netPort (1 - port.val) :=
    Module.netPort_setNetPort_ne _ _ (by have := port.isLt; omega)
  have hcond : (decide ((m.syncLost port).fld NET_GPTP_STAT NET_GPTP_STAT_state = 1) &&
      decide ((m.syncLost port).fld NET_GPTP_STAT NET_GPTP_STAT_slave_port = port.val)) = true :=
    Bool.and_eq_true_iff.mpr ⟨decide_eq_true hstate, decide_eq_true hslave⟩
  rw [← hother]
  unfold gptpSyncTimeout
  exact if_pos hcond

theorem Module.holdOver_facts (m : Module) (port : Fin 2) : (m.holdOver port).fld NET_GPTP_STAT NET_GPTP_STAT_state = 2 ∧
    Raised (m.holdOver port) 0x0904 255 port.val 0 0 0 ∧ (m.holdOver port).netPorts = m.netPorts ∧
    ((m.holdOver port).rd (SYS_FLT_CNT 11)).toNat = min ((m.rd (SYS_FLT_CNT 11)).toNat + 1) 0xFFFFFFFF := by
  have hne : ∀ p : Fin 2, SYS_FLT_CNT (12 - 1) ≠ NET_PORT_STAT p := by decide
  have hcnt : ((m.setRole port 0).setFld NET_GPTP_STAT NET_GPTP_STAT_state 2).rd (SYS_FLT_CNT (12 - 1)) = m.rd (SYS_FLT_CNT 11) :=
    (Module.rd_setFld_ne _ _ _ (by decide)).trans (Module.rd_setFld_ne _ _ _ (hne port))
  have hstate : ((m.setRole port 0).setFld NET_GPTP_STAT NET_GPTP_STAT_state 2).fld NET_GPTP_STAT NET_GPTP_STAT_state = 2 :=
    Module.fld_setFld _ _ _ _ (by decide) (by decide) (by decide)
  have hports : ((m.setRole port 0).setFld NET_GPTP_STAT NET_GPTP_STAT_state 2).netPorts = m.netPorts := rfl
  unfold Module.holdOver
  generalize (m.setRole port 0).setFld NET_GPTP_STAT NET_GPTP_STAT_state 2 = k at hcnt hstate hports
  refine ⟨(Module.fld_congr (Module.rd_fault k (cls := 12) _ _ _ _ _ (by decide) (by decide)) _).trans hstate, k.fault_raised ..,
    ((k.fault_keeps ..).view (·.netPorts) fun _ => rfl).trans hports, ?_⟩
  exact (k.faultSeq_counted 12 _ _ _ _ _ _ _ (by decide)).trans (by rw [hcnt])

theorem gptpSyncTimeout_answers (hboot : s.boot ≠ .off) (hstate : s.fld NET_GPTP_STAT NET_GPTP_STAT_state = 1)
    (hslave : s.fld NET_GPTP_STAT NET_GPTP_STAT_slave_port = port.val) :
    Answers (.gptpSyncTimeout port) s fun m => (m.netPort port).synced = false ∧
      if (s.netPort (1 - port.val)).synced then m.fld NET_GPTP_STAT NET_GPTP_STAT_state = 1 ∧
        m.fld NET_GPTP_STAT NET_GPTP_STAT_slave_port = 1 - port.val ∧ Raised m 0x0903 255 (1 - port.val) 0 0 0
      else m.fld NET_GPTP_STAT NET_GPTP_STAT_state = 2 ∧ Raised m 0x0904 255 port.val 0 0 0 ∧
        (m.rd (SYS_FLT_CNT 11)).toNat = min ((s.rd (SYS_FLT_CNT 11)).toNat + 1) 0xFFFFFFFF := by
  have hrun := gptpSyncTimeout_eq (m := s.toModule) hstate hslave
  have hlost : ((s.syncLost port).netPort port).synced = false := congrArg NetPort.synced (Module.netPort_setNetPort_same ..)
  have hsame {k : Module} (h : k.netPorts = (s.syncLost port).netPorts) : (k.netPort port).synced = false :=
    (congrArg (fun t => (SMap.get NetPort.rest t port.val).synced) h).trans hlost
  refine .of_ok hboot (congrArg (ok s) hrun) ?_
  by_cases hsynced : (s.netPort (1 - port.val)).synced = true
  · rw [if_pos hsynced, if_pos hsynced]
    obtain ⟨hnow, hstay, -, hraised, hports, -, -⟩ := (s.syncLost port).becomeSlave_facts (1 - port.val) (by omega)
    exact ⟨hsame hports, hstay.trans hstate, hnow, hraised⟩
  · rw [if_neg hsynced, if_neg hsynced]
    obtain ⟨hheld, hraised, hports, hcount⟩ := (s.syncLost port).holdOver_facts port
    exact ⟨hsame hports, hheld, hraised, hcount⟩

theorem gptpHoldoverExpiry_answers (hboot : s.boot ≠ .off) (hstate : s.fld NET_GPTP_STAT NET_GPTP_STAT_state = 2) :
    Answers .gptpHoldoverExpiry s fun m => m.fld NET_GPTP_STAT NET_GPTP_STAT_state = 0 ∧ OnlyRegs s m [NET_GPTP_STAT] := by
  have hrun : gptpHoldoverExpiry s.toModule =
      (s.setFld NET_GPTP_STAT NET_GPTP_STAT_state 0).setFld NET_GPTP_STAT NET_GPTP_STAT_slave_port 2 := if_pos hstate
  refine .of_ok hboot (congrArg (ok s) hrun) ⟨?_, onlyRegs_of (G := Fld.regs) ?_ ?_ (by decide)⟩
  · exact (Module.fld_setFld_ne _ _ _ _ _ (by decide) (by decide) (by decide)).trans
      (Module.fld_setFld _ _ _ _ (by decide) (by decide) (by decide))
  · exact .after (Module.setFld_unreported _ _ _ (List.mem_singleton_self _))
      (Module.setFld_unreported _ _ _ (List.mem_singleton_self _))
  · exact .after (Module.setFld_keeps ..) rfl (Module.setFld_keeps ..)

theorem gptpClockStep_answers {o : Int} (hboot : s.boot ≠ .off) (hstep : s.clockStep = some o) :
    Answers .gptpClockStep s fun m => m = { s.toModule with clockStep := none, ptpOffset := s.ptpOffset - o } := by
  have hrun : gptpClockStep s.toModule = { s.toModule with clockStep := none, ptpOffset := s.ptpOffset - o } := by
    unfold gptpClockStep
    rw [hstep]
  exact .of_ok hboot (congrArg (ok s) hrun) rfl

/-! ### Transmission gates -/

/-- A command that writes what one port holds, beside which everything stays. -/
theorem answers_of_setNetPort {c : Instr} (x : NetPort) {Q : NetPort → Prop} (hboot : s.boot ≠ .off)
    (hrun : exec c s = ok s (s.setNetPort port x)) (hQ : Q x) : Answers c s fun m => Q (m.netPort port) ∧
      { m with netPorts := [] } = { s.toModule with netPorts := [] } :=
  .of_ok hboot hrun ⟨(Module.netPort_setNetPort_same ..).symm ▸ hQ, rfl⟩

theorem peerDelayMeasurement_answers (d : Nat) (hboot : s.boot ≠ .off) : Answers (.peerDelayMeasurement port d) s fun m =>
    (m.netPort port).delayNs = d ∧ (m.netPort port).rxq = (s.netPort port).rxq ∧
      { m with netPorts := [] } = { s.toModule with netPorts := [] } :=
  (answers_of_setNetPort { s.netPort port with delayNs := d } (Q := fun x => x.delayNs = d ∧ x.rxq = (s.netPort port).rxq) hboot rfl ⟨rfl, rfl⟩).imp
    fun _ ⟨⟨hdelay, hrxq⟩, hrest⟩ => ⟨hdelay, hrxq, hrest⟩

theorem qbvCycleStart_answers (hboot : s.boot ≠ .off) : Answers (.qbvCycleStart port) s fun m =>
    (m.netPort port).gates = (s.netPort port).nextGates ∧ (m.netPort port).txq = (s.netPort port).txq ∧
      { m with netPorts := [] } = { s.toModule with netPorts := [] } :=
  (answers_of_setNetPort { s.netPort port with gates := (s.netPort port).nextGates } (Q := fun x => x.gates = (s.netPort port).nextGates ∧ x.txq = (s.netPort port).txq) hboot rfl ⟨rfl, rfl⟩).imp
    fun _ ⟨⟨hgates, htxq⟩, hrest⟩ => ⟨hgates, htxq, hrest⟩

theorem planWindowOpen_answers {c : PortId} (hboot : s.boot ≠ .off) (hgate : (s.netPort port).gates.any (·.ctx = c) = true) :
    Answers (.planWindowOpen port c) s fun m => (m.netPort port).txq = (s.netPort port).txq.filter (·.ctx ≠ c) ∧
      (m.netPort port).windowOpen = some (c, (s.netPort port).txq.filter (·.ctx = c)) ∧
      { m with netPorts := [] } = { s.toModule with netPorts := [] } := by
  let x := { s.netPort port with
    txq := (s.netPort port).txq.filter (·.ctx ≠ c), windowOpen := some (c, (s.netPort port).txq.filter (·.ctx = c)) }
  have hrun : planWindowOpen port c s.toModule = s.setNetPort port x := by
    unfold planWindowOpen
    exact if_neg (by simp [hgate])
  exact (answers_of_setNetPort (c := .planWindowOpen port c) (port := port) x (Q := fun x => x.txq = (s.netPort port).txq.filter (·.ctx ≠ c) ∧
    x.windowOpen = some (c, (s.netPort port).txq.filter (·.ctx = c))) hboot (congrArg (ok s) hrun) ⟨rfl, rfl⟩).imp
    fun _ ⟨⟨htxq, hwindow⟩, hrest⟩ => ⟨htxq, hwindow, hrest⟩

theorem Module.framesGo_noLink (m : Module) (p : Nat) (c : PortId) (l : List PlanFrame)
    (hlink : m.bit (NET_PORT_STAT p) NET_PORT_STAT_link = false) : m.framesGo p c l = 0 := by
  unfold Module.framesGo
  exact if_pos (by simp [hlink])

theorem Module.framesGo_planned (m : Module) (p : Nat) (c : PortId) (l : List PlanFrame)
    (hlink : m.bit (NET_PORT_STAT p) NET_PORT_STAT_link = true) (hspeed : m.fld (NET_PORT_STAT p) NET_PORT_STAT_speed = 2) :
    m.framesGo p c l = l.length := by
  unfold Module.framesGo
  exact (if_neg (by simp [hlink])).trans (if_neg (by simp [hspeed]))

theorem planWindowEnd_answers {c : PortId} {l : List PlanFrame} (hboot : s.boot ≠ .off)
    (hopen : (s.netPort port).windowOpen = some (c, l)) (hch : ∀ ch, (s.chan ch).phase ≠ .moving) (hmc : s.mcSend = []) :
    Answers (.planWindowEnd port c) s fun m => (m.netPort port).windowOpen = none ∧
      m.outbox = s.outbox ++ (l.take (s.framesGo port c l)).map (·.out) ∧
      (m.rd (NET_CNT_TX_LATE port)).toNat =
        min ((s.rd (NET_CNT_TX_LATE port)).toNat + (l.length - s.framesGo port c l)) 0xFFFFFFFF := by
  let sent := (s.emitFrames (l.take (s.framesGo port c l))).setNetPort port { s.netPort port with windowOpen := none }
  have hkeep : Keeps (Fld.outbox ||| Fld.netPorts) s.toModule sent :=
    .after (Module.setNetPort_keeps ..) rfl <| .after (Module.emitFrames_keeps ..) rfl .refl
  have hrun : planWindowEnd port c s.toModule =
      sent.count (NET_CNT_TX_LATE port) (l.length - s.framesGo port c l) := by
    unfold planWindowEnd
    dsimp only
    rw [hopen]
    refine (if_pos rfl).trans (Module.dmaGoOn_of_none (fun ch => ?_) ?_)
    · exact fun hmoving => hch ch ((hkeep.view (fun x : Module => (x.chan ch).phase) fun _ => rfl) ▸ hmoving)
    · exact (hkeep.view (·.mcSend) fun _ => rfl).trans hmc
  refine .of_ok hboot (congrArg (ok s) hrun) ⟨?_, emitFrames_outbox .., ?_⟩
  · exact congrArg NetPort.windowOpen (Module.netPort_setNetPort_same ..)
  · rw [Module.rd_count_same_toNat, Module.rd_congr (hkeep.view (·.regs) fun _ => rfl)]

end

/-- Settles O48, command by command: what a port holds is read back from its write, the registers by their fields, and a window's
frames by what has been sent. -/
theorem linksAndNetworkTimeComplete : Obligations.LinksAndNetworkTimeComplete := by
  refine ⟨fun port s hboot => ⟨fun fast hnet hon hadv => linkUp_answers hboot hnet hon hadv,
      fun hlink => linkDown_answers hboot hlink, fun src t v ha => talkerConfigWrite_answers ha,
      fun good => preemptionVerification_answers hboot, fun k => .of_ok hboot rfl ⟨SMap.find?_erase_same .., rfl⟩,
      fun d => peerDelayMeasurement_answers d hboot⟩,
    fun port s hboot => ⟨fun o hnet hslave => gptpSyncReceive_answers hboot hnet hslave,
      fun hstate hslave => gptpSyncTimeout_answers hboot hstate hslave, fun hstate => gptpHoldoverExpiry_answers hboot hstate,
      fun o hstep => gptpClockStep_answers hboot hstep, qbvCycleStart_answers hboot,
      fun c hgate => planWindowOpen_answers hboot hgate, fun c l hopen hch hmc => ?_⟩⟩
  exact ⟨fun hlink => s.framesGo_noLink _ _ _ hlink, fun hlink hspeed => s.framesGo_planned _ _ _ hlink hspeed,
    planWindowEnd_answers hboot hopen hch hmc⟩

end Sys2Proof.Machine
end

section
set_option Elab.async false
/-!
Packages and the plain ring commands (R235, R237, R393, R395, R403).
-/
namespace Sys2Proof.Machine
open Sys2Proof

section
variable {s : State} {m k : Module} {h : CmdHdr} {x : Session} {op : Nat} {operands : List Byte → Bool}

theorem SMap.find?_adjust_ne {α : Type} (t : SMap α) {n j : Nat} (f : α → α) (hj : j ≠ n) : (t.adjust n f).find? j = t.find? j := by
  unfold SMap.adjust
  cases t.find? n with
  | none => rfl
  | some v => exact SMap.find?_insert_ne _ _ hj

/-! ### Commands that complete at once -/

theorem Module.complete_core (m : Module) (c : CmdRef) (status result : Nat) : (m.complete c status result).core = m.core :=
  (m.complete_keeps c status result).view (·.core) fun _ => rfl

theorem completes_at_once (hst : Startable s h op operands x) {c : Instr} {status : Nat}
    (hexec : exec c s = ok s (s.toModule.command h op operands fun c m => m.complete c status 0)) :
    Answers c s fun m => Completes m h op x status 0 ∧ m.core = s.toModule.core :=
  hst.answers hexec ⟨completes_of_begun s.toModule rfl status 0, Module.complete_core ..⟩

/-- The mask of every session, after the completion of a command. -/
theorem Module.complete_masks {c : CmdRef} (hx : m.sessions.find? c.session.val = some x) (hgen : c.gen = x.gen)
    (status result n : Nat) :
    ((m.complete c status result).sessions.find? n).map (·.mask) = (m.sessions.find? n).map (·.mask) := by
  have hinsert {t : SMap Session} (ht : (t.find? n).map (·.mask) = (m.sessions.find? n).map (·.mask)) {x' : Session}
      (hy : x'.mask = x.mask) : ((t.insert c.session.val x').find? n).map (·.mask) = (m.sessions.find? n).map (·.mask) := by
    by_cases hn : n = c.session.val
    · subst hn
      rw [SMap.find?_insert_same, hx]
      exact congrArg some hy
    · rw [SMap.find?_insert_ne _ _ hn, ht]
  by_cases hserved : cqRoom x = true ∧ m.cpHalted = false
  · obtain ⟨hroom, hon⟩ := hserved
    rw [Module.complete_written hx hgen.symm status result hroom hon, Module.writeCompl_attached (SMap.find?_insert_same _ _ _),
      Module.ringWrite_attached (SMap.find?_insert_same _ _ _), Module.originate_sessions]
    refine hinsert (x' := { x with taken := dropTaken x.taken c.tag c.opcode, cqTail := x.cqTail + 1, txSeq := x.txSeq + 1 }) ?_ rfl
    refine hinsert (x' := { x with taken := dropTaken x.taken c.tag c.opcode, cqTail := x.cqTail + 1 }) ?_ rfl
    exact hinsert (x' := { x with taken := dropTaken x.taken c.tag c.opcode }) rfl rfl
  · rw [Module.complete_waiting hx hgen.symm status result hserved]
    exact hinsert rfl rfl

/-- The session of a command with another event mask. -/
def Module.masked (m : Module) (n : Nat) (mask : Word) : Module :=
  { m with sessions := m.sessions.adjust n fun s => { s with mask := mask } }

theorem setEvents_answers {mask : Word} (hst : Startable s h 14 (entryHas [(8, 4, mask.toNat)]) x) :
    Answers (.setEvents h mask) s fun m => Completes m h 14 x 0 0 ∧
      (∃ y, m.sessions.find? h.session.val = some y ∧ y.mask = mask) ∧
      (∀ n, n ≠ h.session.val → (m.sessions.find? n).map (·.mask) = (s.sessions.find? n).map (·.mask)) ∧
      m.core = s.toModule.core := by
  let y : Session := { begunSession h 14 x with mask := mask }
  have hy : ((s.toModule.begun h 14 x).masked h.session.val mask).sessions.find? h.session.val = some y :=
    (SMap.find?_adjust_same ..).trans (congrArg (Option.map _) (Module.begun_find ..))
  have hmask := fun n => Module.complete_masks (c := ⟨h.session, x.gen, h.tag, BitVec.ofNat 8 14⟩) hy rfl stOk 0 n
  refine hst.answers (f := fun c m => (m.masked c.session.val mask).complete c stOk 0) rfl ⟨?_, ?_, fun n hn => ?_, ?_⟩
  · exact Module.complete_completes hy 14 stOk 0
  · have hown := hmask h.session.val
    rw [hy] at hown
    obtain ⟨z, hz, hzm⟩ := Option.map_eq_some_iff.1 hown
    exact ⟨z, hz, hzm⟩
  · refine (hmask n).trans (congrArg (Option.map _) ?_)
    exact (SMap.find?_adjust_ne _ _ hn).trans (SMap.find?_insert_ne _ _ hn)
  · exact Module.complete_core ..

/-! ### LOAD_PKG -/

/-- While a serial command may start, every region is in use. -/
theorem live_of_serialTurn {n : Nat} {r : Region} {w : Word} (hturn : m.serialTurn h n = true) (hr : m.region? w = some r) : r.phase = .live := by
  have hfind : m.regions.find? (handleKey w) = some r := by
    unfold Module.region? at hr
    split at hr
    · next q hq =>
      split at hr
      · rwa [Option.some.inj hr] at hq
      · cases hr
    · cases hr
  have hfree : m.serialFree = true := (Bool.and_eq_true_iff.1 hturn).1
  simp only [Module.serialFree, Bool.and_eq_true] at hfree
  obtain ⟨⟨⟨⟨-, hlive⟩, -⟩, -⟩, -⟩ := hfree
  exact of_decide_eq_true (List.all_eq_true.1 hlive _ (SMap.mem_of_find? hfind))

theorem badIn_of_none (hp : m.poison = []) (hu : m.ueSectors = []) (a n : Nat) : m.badIn a n = [] := by
  unfold Module.badIn
  rw [hp, hu]
  rfl

/-! What is read of a package follows from the bytes that are read. -/

section
variable (hbytes : ∀ a n, k.bytes a n = m.bytes a n)
include hbytes

theorem Module.num_congr (a n : Nat) : k.num a n = m.num a n := congrArg ofLe (hbytes a n)

theorem Module.pkgDir_congr (a : Nat) : k.pkgDir a = m.pkgDir a := by
  unfold Module.pkgDir
  simp only [Module.num_congr hbytes]

theorem Module.pkgSec_congr (a type : Nat) : k.pkgSec a type = m.pkgSec a type := by
  unfold Module.pkgSec
  rw [Module.pkgDir_congr hbytes]

theorem Module.pkgCode_congr (a : Nat) : k.pkgCode a = m.pkgCode a := by
  unfold Module.pkgCode
  simp only [Module.num_congr hbytes, Module.pkgSec_congr hbytes]

theorem Module.pkgAps_congr (a : Nat) : k.pkgAps a = m.pkgAps a := by
  unfold Module.pkgAps
  simp only [hbytes, Module.pkgSec_congr hbytes]

theorem Module.stageDecl_congr (a i : Nat) : k.stageDecl a i = m.stageDecl a i := by
  unfold Module.stageDecl
  simp only [hbytes, Module.pkgSec_congr hbytes]

theorem Module.pkgTemplates_congr (a : Nat) : k.pkgTemplates a = m.pkgTemplates a := by
  unfold Module.pkgTemplates
  rw [Module.pkgSec_congr hbytes]

theorem Module.template_congr (a t : Nat) : k.template a t = m.template a t := by
  unfold Module.template
  simp only [hbytes, Module.pkgSec_congr hbytes, Module.pkgTemplates_congr hbytes]

theorem Module.secUnused_congr (a : Nat) : k.secUnused a = m.secUnused a := by
  unfold Module.secUnused
  simp only [Module.pkgCode_congr hbytes, Module.pkgDir_congr hbytes, Module.pkgTemplates_congr hbytes, Module.template_congr hbytes]

theorem Module.headerError_congr (hregs : k.regs = m.regs) (a n : Nat) : k.headerError a n = m.headerError a n := by
  unfold Module.headerError
  simp only [hbytes, Module.num_congr hbytes, Module.fld_congr (Module.rd_congr hregs _)]

theorem Module.signatureOk_congr (hotp : k.otp = m.otp) (a n o : Nat) : k.signatureOk a n o = m.signatureOk a n o := by
  unfold Module.signatureOk
  simp only [hbytes, hotp]

/-- The loader's error follows from the package's bytes, the feature and policy registers and the keys. -/
theorem Module.loaderError_congr (hregs : k.regs = m.regs) (hotp : k.otp = m.otp) (a n : Nat) : k.loaderError a n = m.loaderError a n := by
  unfold Module.loaderError
  simp only [Module.headerError_congr hbytes hregs, Module.num_congr hbytes, Module.pkgDir_congr hbytes, Module.secUnused_congr hbytes,
    Module.pkgSec_congr hbytes, Module.fld_congr (Module.rd_congr hregs _), Module.rd_congr hregs, Module.pkgAps_congr hbytes,
    Module.pkgCode_congr hbytes, Module.stageDecl_congr hbytes, Module.pkgTemplates_congr hbytes, Module.template_congr hbytes,
    Module.signatureOk_congr hbytes hotp]

end

theorem Module.loaderError_begun (m : Module) (h : CmdHdr) (op : Nat) (x : Session) (a n : Nat) :
    (m.begun h op x).loaderError a n = m.loaderError a n := by
  have hregs : (m.begun h op x).regs = m.regs := rfl
  have hotp : (m.begun h op x).otp = m.otp := rfl
  have hmem : (m.begun h op x).mem = m.mem := rfl
  have hgather : (m.begun h op x).gather = m.gather := rfl
  generalize m.begun h op x = k at *
  exact Module.loaderError_congr (fun a n => List.map_congr_left fun i _ => byte_congr hmem hgather _) hregs hotp a n

theorem loaderError_of_header {a n : Nat} (he : m.headerError a n ≠ 0) : m.loaderError a n = (m.headerError a n, 0) := if_pos he

/-- The loader's answer: its error, or a new package. -/
def Module.loadEnd (m : Module) (region : Word) (a n : Nat) (c : CmdRef) : Module :=
  if (m.loaderError a n).1 ≠ 0 then m.complete c stRefused ((m.loaderError a n).2 + (m.loaderError a n).1 * 2 ^ 32)
  else match m.freeFrom m.packages 1 1023 with
    | (none, m) => m.complete c stBusy 0
    | (some k, m) =>
      ({ m with packages := m.packages.insert k ⟨SMap.get 1 m.packageGen k, region, a, n⟩ }).complete c stOk
        (SMap.get 1 m.packageGen k * 65536 + k)

theorem loadStart_eq {region : Word} {off size : W64} {r : Region} (c : CmdRef) (hr : m.region? region = some r)
    (hlive : r.phase = .live) (halign : off.toNat % 64 = 0) (hfit : off.toNat + size.toNat ≤ r.size)
    (hroom : m.packages.length < 1023) (hl : m.latent = []) (hp : m.poison = []) (hu : m.ueSectors = []) :
    loadStart region off size c m = m.loadEnd region (r.base + off.toNat) size.toNat c := by
  have hclean (n : Nat) := Module.readMeets_of_clean (a := r.base + off.toNat) (n := n) hl (badIn_of_none hp hu _ _) 1
  have hsound : ¬(decide (off.toNat % 64 ≠ 0) || decide (r.size < off.toNat + size.toNat) || decide (r.phase ≠ .live)) = true := by
    simp [halign, hlive, hfit]
  unfold loadStart
  rw [hr]
  dsimp only
  rw [if_neg hsound, if_neg (by omega), hclean, hclean]
  dsimp only
  rw [if_neg Bool.false_ne_true, if_neg Bool.false_ne_true]
  unfold Module.loadEnd
  by_cases hhead : m.headerError (r.base + off.toNat) size.toNat ≠ 0
  · rw [if_pos hhead, loaderError_of_header hhead, if_pos hhead, Nat.zero_add]
  · refine (if_neg hhead).trans ?_
    rfl

theorem loadPkg_answers {region : Word} {off size : W64} {r : Region}
    (hst : StartableRun s h 5 (entryHas [(8, 4, region.toNat), (16, 8, off.toNat), (24, 8, size.toNat)]) x)
    (hturn : s.serialTurn h 5 = true) (hr : s.region? region = some r) (halign : off.toNat % 64 = 0)
    (hfit : off.toNat + size.toNat ≤ r.size) (hroom : s.packages.length < 1023) (hl : s.latent = []) (hp : s.poison = [])
    (hu : s.ueSectors = []) {Q : Module → Prop}
    (hQ : Q ((s.toModule.begun h 5 x).loadEnd region (r.base + off.toNat) size.toNat ⟨h.session, x.gen, h.tag, BitVec.ofNat 8 5⟩)) :
    Answers (.loadPkg h region off size) s Q := by
  have hstart := loadStart_eq (m := s.toModule.begun h 5 x) ⟨h.session, x.gen, h.tag, BitVec.ofNat 8 5⟩ hr
    (live_of_serialTurn hturn hr) halign hfit hroom hl hp hu
  have hrun : loadPkg h region off size s.toModule =
      if isDramHandle region then s.toModule.command h 5 (entryHas [(8, 4, region.toNat), (16, 8, off.toNat), (24, 8, size.toNat)])
        (loadStart region off size)
      else s.toModule.commandRun h 5 (entryHas [(8, 4, region.toNat), (16, 8, off.toNat), (24, 8, size.toNat)])
        (loadStart region off size) := if_neg (by simp [hturn])
  rw [← hstart] at hQ
  by_cases hdram : isDramHandle region = true
  · rw [if_pos hdram] at hrun
    exact hst.1.answers (c := .loadPkg h region off size) (congrArg (ok s) hrun) hQ
  · rw [if_neg hdram] at hrun
    exact hst.answers (c := .loadPkg h region off size) (congrArg (ok s) hrun) hQ

theorem loadEnd_refused {region : Word} {a n : Nat} {c : CmdRef} (he : (m.loaderError a n).1 ≠ 0) :
    m.loadEnd region a n c = m.complete c stRefused ((m.loaderError a n).2 + (m.loaderError a n).1 * 2 ^ 32) := if_pos he

theorem loadEnd_loaded {region : Word} {a n j : Nat} (c : CmdRef) (he : (m.loaderError a n).1 = 0) (hlo : 1 ≤ j) (hhi : j ≤ 1023)
    (hj : m.packages.find? j = none) : ∃ i k, m.packages.find? i = none ∧ Keeps (Fld.draws ||| Fld.packages) m k ∧
      k.packages = m.packages.insert i ⟨SMap.get 1 m.packageGen i, region, a, n⟩ ∧
      m.loadEnd region a n c = k.complete c stOk (SMap.get 1 m.packageGen i * 65536 + i) := by
  obtain ⟨i, hi, hfree⟩ := m.freeFrom_some (t := m.packages) (lo := 1) (n := 1023) hlo (by omega) hj
  have hk := m.freeFrom_keeps m.packages 1 1023
  unfold Module.loadEnd
  rw [if_neg (not_not.2 he)]
  generalize m.freeFrom m.packages 1 1023 = found at hi hk
  obtain ⟨i', m₁⟩ := found
  dsimp only at hi hk
  subst hi
  have hgen : m₁.packageGen = m.packageGen := hk.view (·.packageGen) fun _ => rfl
  have hpackages : m₁.packages = m.packages := hk.view (·.packages) fun _ => rfl
  refine ⟨i, { m₁ with packages := m₁.packages.insert i ⟨SMap.get 1 m₁.packageGen i, region, a, n⟩ }, hfree, ?_, ?_, ?_⟩
  · exact .upd (hk.mono rfl)
  · rw [← hgen, ← hpackages]
  · rw [← hgen]

/-! ### UNLOAD_PKG -/

/-- A stream or a job names the package. -/
def Module.packageNamed (m : Module) (w : Word) : Bool :=
  (m.streams.any fun e => m.streamNames e.1 e.2 w) || m.jobs.any (·.stages.any fun st => samePkg st.package w)

theorem packages_find_of_package? {w : Word} {p : Package} (hp : m.package? w = some p) : m.packages.find? (w.toNat % 1024) = some p := by
  unfold Module.package? at hp
  split at hp
  · next q hq =>
    split at hp
    · rwa [Option.some.inj hp] at hq
    · cases hp
  · cases hp

theorem unloadStart_eq {w : Word} {p : Package} (c : CmdRef) (hp : m.package? w = some p) : unloadStart w c m =
    if m.packageNamed w = true then m.complete c stRefused 0 else (m.dropPackage (w.toNat % 1024)).complete c stOk 0 := by
  unfold unloadStart
  rw [hp]
  rfl

theorem Module.dropPackage_packages {n : Nat} {p : Package} (hp : m.packages.find? n = some p) :
    (m.dropPackage n).packages = m.packages.erase n ∧ (m.dropPackage n).sessions = m.sessions := by
  unfold Module.dropPackage
  rw [hp]
  exact ⟨rfl, rfl⟩

theorem unloadPkg_answers {w : Word} {p : Package} (hst : Startable s h 6 (entryHas [(8, 4, w.toNat)]) x)
    (hturn : s.serialTurn h 6 = true) (hp : s.package? w = some p) : Answers (.unloadPkg h w) s fun m =>
      if s.packageNamed w = true then m.packages = s.packages ∧ Completes m h 6 x 3 0
      else m.packages.find? (w.toNat % 1024) = none ∧ Completes m h 6 x 0 0 ∧
        ∀ j, j ≠ w.toNat % 1024 → m.packages.find? j = s.packages.find? j := by
  have hstart := unloadStart_eq (m := s.toModule.begun h 6 x) ⟨h.session, x.gen, h.tag, BitVec.ofNat 8 6⟩ (p := p) hp
  have hkept (m : Module) (c : CmdRef) (status result : Nat) : (m.complete c status result).packages = m.packages :=
    (m.complete_keeps c status result).view (·.packages) fun _ => rfl
  have hrun : unloadPkg h w s.toModule = s.toModule.command h 6 (entryHas [(8, 4, w.toNat)]) (unloadStart w) := if_pos hturn
  refine hst.answers (c := .unloadPkg h w) (congrArg (ok s) hrun) ?_
  rw [hstart]
  by_cases hnamed : s.packageNamed w = true
  · rw [if_pos (c := (s.toModule.begun h 6 x).packageNamed w = true) hnamed, if_pos hnamed]
    exact ⟨hkept .., completes_of_begun s.toModule rfl stRefused 0⟩
  · obtain ⟨herased, hsame⟩ := Module.dropPackage_packages (m := s.toModule.begun h 6 x) (packages_find_of_package? hp)
    rw [if_neg (c := (s.toModule.begun h 6 x).packageNamed w = true) hnamed, if_neg hnamed, hkept, herased]
    exact ⟨SMap.find?_erase_same .., completes_of_begun s.toModule hsame stOk 0, fun j hj => SMap.find?_erase_ne _ hj⟩

end

/-- Settles O41: the plain commands complete at once, and the loader's answer follows from its error. -/
theorem packagesAndPlainCommandsComplete : Obligations.PackagesAndPlainCommandsComplete := by
  refine fun h x s => ⟨fun hst => completes_at_once hst rfl, fun op hst _ => completes_at_once hst rfl, fun mask hst => setEvents_answers hst,
    fun region off size r hst hturn hl hr halign hfit hroom hp hu => ?_, fun w p hst hturn hp => unloadPkg_answers hst hturn hp⟩
  have hanswers {Q : Module → Prop} := loadPkg_answers (Q := Q) hst hturn hr halign hfit hroom hl hp hu
  refine ⟨fun he => hanswers ?_, fun he ⟨j, hlo, hhi, hj⟩ => hanswers ?_⟩
  · rw [loadEnd_refused (m := s.toModule.begun h 5 x) (by rwa [s.toModule.loaderError_begun]), s.toModule.loaderError_begun]
    refine ⟨(Module.complete_keeps ..).view (·.packages) fun _ => rfl, (Module.complete_keeps ..).view (·.mem) fun _ => rfl, ?_⟩
    exact completes_of_begun s.toModule rfl stRefused _
  · obtain ⟨i, k, hfree, hk, hpackages, hrun⟩ := loadEnd_loaded (m := s.toModule.begun h 5 x) (region := region)
      ⟨h.session, x.gen, h.tag, BitVec.ofNat 8 5⟩ (by rwa [s.toModule.loaderError_begun]) hlo hhi hj
    have hkept {m : Module} (c : CmdRef) (status result : Nat) : (m.complete c status result).packages = m.packages :=
      (m.complete_keeps c status result).view (·.packages) fun _ => rfl
    rw [hrun]
    refine ⟨i, ⟨SMap.get 1 s.packageGen i, region, r.base + off.toNat, size.toNat⟩, hfree, ?_, rfl, rfl, rfl, ?_, fun j hj => ?_, ?_⟩
    · rw [hkept, hpackages]
      exact SMap.find?_insert_same ..
    · exact ((Module.complete_keeps ..).view (·.mem) fun _ => rfl).trans (hk.view (·.mem) fun _ => rfl)
    · rw [hkept, hpackages]
      exact SMap.find?_insert_ne _ _ hj
    · exact completes_of_begun s.toModule (hk.view (·.sessions) fun _ => rfl) stOk _

end Sys2Proof.Machine
end

section
set_option Elab.async false
/-!
Messages of a session (R378), and local windows (R430, R431).
-/
namespace Sys2Proof.Machine
open Sys2Proof

/-! ### The gate of a session's messages -/

section
variable {s : State} {m k : Module} {h : Hdr} {n : Nat} {x : Session}

theorem served_boot (hs : Served s h n x) : s.boot ≠ .off := by
  obtain ⟨-, hready, -⟩ := hs
  intro hoff
  simp [Module.ready, hoff] at hready

/-- A message that passes the gate is taken from its receive queue and runs. -/
theorem gateSession_runs (hs : Served s h n x) (type : Nat) (f : Nat → Session → Module → Module) :
    s.toModule.gateSession h type true f = f n x (s.popRx h.port) := by
  obtain ⟨haddr, hready, hsession, hepoch, hversion⟩ := hs
  have ha : (s.popRx h.port).addressed h false = true := haddr
  have hr : (s.popRx h.port).ready = true := hready
  have hx : (s.popRx h.port).sessionOf h.session = some (n, x) := hsession
  have he : ¬h.epoch ≠ (s.popRx h.port).epoch := not_not.2 hepoch
  unfold Module.gateSession
  dsimp only
  rw [ha, hr, hx]
  dsimp only
  rw [if_neg (by simp), if_neg (by simp), if_neg he, if_neg (not_not.2 hversion)]
  rfl

/-- A message of a wrong length is answered with BAD_MESSAGE. -/
theorem gateSession_badLength (hs : Served s h n x) (type : Nat) (f : Nat → Session → Module → Module) :
    s.toModule.gateSession h type false f = (s.popRx h.port).answer h type stBadMessage 0 [] := by
  obtain ⟨haddr, hready, hsession, hepoch, hversion⟩ := hs
  have ha : (s.popRx h.port).addressed h false = true := haddr
  have hr : (s.popRx h.port).ready = true := hready
  have hx : (s.popRx h.port).sessionOf h.session = some (n, x) := hsession
  have he : ¬h.epoch ≠ (s.popRx h.port).epoch := not_not.2 hepoch
  unfold Module.gateSession
  dsimp only
  rw [ha, hr, hx]
  dsimp only
  rw [if_neg (by simp), if_neg (by simp), if_neg he, if_neg (not_not.2 hversion)]
  rfl

/-! ### What a binding is read from -/

variable {b : List Byte} {w : Nat} {probes : List Probe} {bd : Binding}

theorem gateBind_runs (hs : Served s h n x) (hserved : s.cpHalted = false) {lenOk : Bool} (hlen : lenOk = true)
    (f : Module → Module) : s.toModule.gateBind h lenOk f = f (s.popRx h.port) := by
  have hcp : (s.popRx h.port).cpHalted = false := hserved
  unfold Module.gateBind
  rw [hlen, gateSession_runs hs, hcp]
  rfl

theorem gateBind_halted (hs : Served s h n x) (hhalted : s.cpHalted = true) {lenOk : Bool} (hlen : lenOk = true)
    (f : Module → Module) : s.toModule.gateBind h lenOk f = (s.popRx h.port).answer h 0x14 stNotReady 0 [] := by
  have hcp : (s.popRx h.port).cpHalted = true := hhalted
  unfold Module.gateBind
  rw [hlen, gateSession_runs hs, hcp]
  rfl

theorem bindLength (hlen : 16 ≤ b.length) (hn : b.length = 16 + 16 * fieldAt b 8 1) :
    (decide (16 ≤ b.length) && decide (b.length = 16 + 16 * fieldAt b 8 1)) = true := by
  rw [decide_eq_true hlen, decide_eq_true hn]
  rfl

theorem Module.answer_binds (m : Module) (h : Hdr) (type status retry : Nat) (payload : List Byte) :
    (m.answer h type status retry payload).binds = m.binds := (Module.answer_keeps ..).view (·.binds) fun _ => rfl

theorem Module.sendProbes_binds (m : Module) (b : List Byte) (rs : List Receiver) (probes : List Probe) :
    (m.sendProbes b rs probes).binds = m.binds := (Module.sendProbes_keeps ..).view (·.binds) fun _ => rfl

theorem Module.reportBinding_binds (m : Module) (w : Nat) : (m.reportBinding w).binds = m.binds :=
  (Module.reportBinding_keeps ..).view (·.binds) fun _ => rfl

theorem Module.bumpBind_binds (m : Module) (w : Nat) : (m.bumpBind w).binds = m.binds :=
  (Module.bumpBind_keeps ..).view (·.binds) fun _ => rfl

/-- Messages to other nodes count in one register. -/
theorem Module.request_regsBut (m : Module) (port : Fin 2) (dest : Peer) (replicate : Bool) (tclass : Nat) (x : Msg)
    (answered : Bool) : Agree (Module.regsBut [YWP_CNT_RESENT]) m (m.request port dest replicate tclass x answered) := by
  have horiginate (m : Module) : Agree (Module.regsBut [YWP_CNT_RESENT]) m (m.originate port dest replicate tclass x) :=
    .kept (Module.originate_keeps ..) (fun _ => rfl) .refl
  unfold Module.request
  refine .ite (fun _ => horiginate m) fun _ => ?_
  refine .after (Module.count_regsBut _ _ (List.mem_singleton_self _)) ?_
  exact .foldl (fun m _ => horiginate m) _ (horiginate m)

theorem Module.sendProbes_rd (m : Module) (b : List Byte) (rs : List Receiver) (probes : List Probe) {off : Nat}
    (hoff : off ≠ YWP_CNT_RESENT) : (m.sendProbes b rs probes).rd off = m.rd off := by
  have hagree : Agree (Module.regsBut [YWP_CNT_RESENT]) m (m.sendProbes b rs probes) := by
    unfold Module.sendProbes
    refine .foldl (fun m i => ?_) _ .refl
    split
    · exact .refl
    · exact .after (Module.request_regsBut ..) (.upd .refl)
  exact hagree.rd (by simpa using hoff)

theorem bindStat_ne (hw : w < 64) : YWP_BIND_STAT w ≠ YWP_CNT_RESENT ∧ YWP_BIND_STAT w ≠ YWP_BIND_TGT w ∧
    YWP_BIND_STAT w ≠ YWP_BIND_SIZE w ∧ YWP_BIND_SIZE w ≠ YWP_BIND_STAT w := by
  unfold YWP_BIND_STAT YWP_BIND_TGT YWP_BIND_SIZE YWP_CNT_RESENT
  omega

/-- The generation in force of a window's binding. -/
def Module.bindGen (m : Module) (w : Nat) : Nat := m.fld (YWP_BIND_STAT w) YWP_BIND_STAT_bind_gen

theorem Module.sendProbes_bindGen (m : Module) (b : List Byte) (rs : List Receiver) (probes : List Probe) (hw : w < 64) :
    (m.sendProbes b rs probes).bindGen w = m.bindGen w := by
  obtain ⟨hne, -⟩ := bindStat_ne hw
  exact Module.fld_congr (m.sendProbes_rd b rs probes hne) _

theorem Module.answer_bindGen (m : Module) (h : Hdr) (type status retry : Nat) (payload : List Byte) :
    (m.answer h type status retry payload).bindGen w = m.bindGen w := Module.fld_congr (Module.rd_congr (Module.answer_regs ..) _) _

/-- Reporting a binding leaves its generation. -/
theorem Module.reportBinding_bindGen (m : Module) (hw : w < 64) : (m.reportBinding w).bindGen w = m.bindGen w := by
  obtain ⟨-, htgt, hsize, -⟩ := bindStat_ne hw
  have hother (m : Module) {off : Nat} (hne : YWP_BIND_STAT w ≠ off) (v : Word) : (m.wr off v).bindGen w = m.bindGen w :=
    Module.fld_congr (Module.rd_wr_ne _ _ hne) _
  have hstat (m : Module) (g : Bits) (v : Nat) (hapart : 31 < g.lo ∨ g.lo + (g.hi - g.lo + 1) ≤ 16) :
      (m.setFld (YWP_BIND_STAT w) g v).bindGen w = m.bindGen w := Module.fld_setFld_ne _ _ _ _ _ (by decide) (by decide) hapart
  unfold Module.reportBinding
  split
  · refine (hstat _ _ _ (by decide)).trans ((hstat _ _ _ (by decide)).trans ((hstat _ _ _ (by decide)).trans ?_))
    exact (hother _ hsize _).trans (hother _ htgt _)
  · refine (hstat _ _ _ (by decide)).trans ((hstat _ _ _ (by decide)).trans ((hstat _ _ _ (by decide)).trans ?_))
    exact (hother _ hsize _).trans ((hother _ htgt _).trans (hother _ htgt _))

theorem Module.bumpBind_bindGen (m : Module) (w : Nat) : (m.bumpBind w).bindGen w = nextGen (m.bindGen w) :=
  Module.fld_setFld _ _ _ _ (by decide) (by decide) (nextGen_lt (Bits.of_lt_two_pow YWP_BIND_STAT_bind_gen _))

/-- The registers of a window that is not bound show no size. -/
theorem Module.reportBinding_unbound {m : Module} (hw : w < 64) (hb : m.binds.find? w = none) :
    (m.reportBinding w).rd (YWP_BIND_SIZE w) = 0 := by
  obtain ⟨-, -, -, hne⟩ := bindStat_ne hw
  unfold Module.reportBinding
  rw [hb]
  exact (Module.rd_setFld_ne _ _ _ hne).trans ((Module.rd_setFld_ne _ _ _ hne).trans ((Module.rd_setFld_ne _ _ _ hne).trans
    (Module.rd_wr_same ..)))

theorem Module.bindHandleOf_bound {m : Module} (hb : (m.binds.find? w).isSome = true) : m.bindHandleOf w = bindHandle (m.bindGen w) w :=
  if_pos hb

theorem Module.receiversOf_congr (hb : k.binds = m.binds) (b : List Byte) (n : Nat) : k.receiversOf b n = m.receiversOf b n := by
  unfold Module.receiversOf Module.epochKnown
  rw [hb]

theorem window_lt_of_bindForm (hform : bindForm b = true) : fieldAt b 1 1 < 64 := by
  simp only [bindForm, Bool.and_eq_true, decide_eq_true_eq] at hform
  obtain ⟨⟨⟨⟨⟨⟨hw, -⟩, -⟩, -⟩, -⟩, -⟩, -⟩ := hform
  exact hw

/-! ### BIND -/

/-- The binding that a BIND asks for, with the receivers that the probes told of. -/
def bindingOf (b : List Byte) (rs : List Receiver) (probes : List Probe) : Binding :=
  ⟨BitVec.ofNat 8 (fieldAt b 2 1), fieldAt b 3 1, fieldAt b 4 4, learnProbes rs probes, none, 0⟩

/-- The window with a new binding. -/
def Module.bound (m : Module) (w : Nat) (bd : Binding) : Module := ({ m with binds := m.binds.insert w bd }.bumpBind w).reportBinding w

/-- A refused BIND, UNBIND or REFRESH. -/
theorem bindRefuse_answered (m : Module) (h : Hdr) : (m.bindRefuse h).binds = m.binds ∧
    Answered (m.bindRefuse h) h 20 3 0 (bindPayload 0 none) :=
  ⟨Module.answer_binds .., Module.answer_answered ..⟩

section
variable (hs : Served s h n x) (hserved : s.cpHalted = false) (hlen : 16 ≤ b.length) (hn : b.length = 16 + 16 * fieldAt b 8 1)
include hs hlen hn

theorem winBind_halted (hhalted : s.cpHalted = true) (hop : fieldAt b 0 1 = 0) : Answers (.winBind h b probes) s fun m =>
    m.binds = s.binds ∧ Answered m h 20 1 0 [] := by
  have hrun : winBind h b probes s.toModule = (s.popRx h.port).answer h 0x14 stNotReady 0 [] := by
    unfold winBind
    dsimp only
    rw [if_neg (by omega), gateBind_halted hs hhalted (bindLength hlen hn)]
  exact .of_ok (served_boot hs) (congrArg (ok s) hrun) ⟨Module.answer_binds .., Module.answer_answered ..⟩

include hserved

theorem winBind_refused (hop : fieldAt b 0 1 = 0) (hbad : bindForm b = false ∨ (s.binds.find? (fieldAt b 1 1)).isSome = true) :
    Answers (.winBind h b probes) s fun m => m.binds = s.binds ∧ Answered m h 20 3 0 (bindPayload 0 none) := by
  have hcond : (decide (fieldAt b 0 1 ≠ 0) || !bindForm b || ((s.popRx h.port).binds.find? (fieldAt b 1 1)).isSome) = true := by
    have hsame : (s.popRx h.port).binds = s.binds := rfl
    rw [hsame]
    obtain hform | hbound := hbad
    · simp [hform]
    · simp [hbound]
  have hrun : winBind h b probes s.toModule = (s.popRx h.port).bindRefuse h := by
    unfold winBind
    dsimp only
    rw [if_neg (by omega), gateBind_runs hs hserved (bindLength hlen hn)]
    exact if_pos hcond
  exact .of_ok (served_boot hs) (congrArg (ok s) hrun) (bindRefuse_answered ..)

/-- A BIND of a free window sends its probes and is answered as they say. -/
theorem winBind_eq (hop : fieldAt b 0 1 = 0) (hform : bindForm b = true) (hfree : s.binds.find? (fieldAt b 1 1) = none) :
    winBind h b probes s.toModule =
      let rs := s.receiversOf b (fieldAt b 8 1)
      let m := (s.popRx h.port).sendProbes b rs probes
      match probeFail (fieldAt b 8 1) probes with
      | some (i, st) => m.answer h 0x14 st 0 (bindPayload 0 ((rs[i]?).map fun r => (r, i)))
      | none => (m.bound (fieldAt b 1 1) (bindingOf b rs probes)).answer h 0x14 stOk 0
          (bindPayload ((m.bound (fieldAt b 1 1) (bindingOf b rs probes)).bindHandleOf (fieldAt b 1 1)) none) := by
  have hcond : ¬(decide (fieldAt b 0 1 ≠ 0) || !bindForm b || ((s.popRx h.port).binds.find? (fieldAt b 1 1)).isSome) = true := by
    have hsame : (s.popRx h.port).binds = s.binds := rfl
    simp [hsame, hop, hform, hfree]
  unfold winBind
  dsimp only
  rw [if_neg (by omega), gateBind_runs hs hserved (bindLength hlen hn), if_neg hcond]
  rfl

theorem winBind_binds (hop : fieldAt b 0 1 = 0) (hform : bindForm b = true) (hfree : s.binds.find? (fieldAt b 1 1) = none)
    (hprobes : probeFail (fieldAt b 8 1) probes = none) : Answers (.winBind h b probes) s fun m =>
      m.binds.find? (fieldAt b 1 1) = some (bindingOf b (s.receiversOf b (fieldAt b 8 1)) probes) ∧
      m.bindGen (fieldAt b 1 1) = nextGen (s.bindGen (fieldAt b 1 1)) ∧
      Answered m h 20 0 0 (bindPayload (bindHandle (m.bindGen (fieldAt b 1 1)) (fieldAt b 1 1)) none) ∧
      ∀ v, v ≠ fieldAt b 1 1 → m.binds.find? v = s.binds.find? v := by
  have hw := window_lt_of_bindForm hform
  have hrun := winBind_eq (probes := probes) hs hserved hlen hn hop hform hfree
  rw [hprobes] at hrun
  dsimp only at hrun
  generalize fieldAt b 1 1 = w at hw hrun ⊢
  generalize bindingOf b (s.receiversOf b (fieldAt b 8 1)) probes = bd at hrun ⊢
  have hprobed := (s.popRx h.port).sendProbes_bindGen b (s.receiversOf b (fieldAt b 8 1)) probes hw
  have hbinds := (s.popRx h.port).sendProbes_binds b (s.receiversOf b (fieldAt b 8 1)) probes
  generalize (s.popRx h.port).sendProbes b (s.receiversOf b (fieldAt b 8 1)) probes = sent at hrun hprobed hbinds
  have hnow : (sent.bound w bd).binds = s.binds.insert w bd :=
    (Module.reportBinding_binds ..).trans ((Module.bumpBind_binds ..).trans (congrArg (SMap.insert · w bd) hbinds))
  have hgen : (sent.bound w bd).bindGen w = nextGen (s.bindGen w) :=
    (Module.reportBinding_bindGen _ hw).trans ((Module.bumpBind_bindGen ..).trans (congrArg nextGen hprobed))
  have hfind : (sent.bound w bd).binds.find? w = some bd := by rw [hnow, SMap.find?_insert_same]
  rw [Module.bindHandleOf_bound (by rw [hfind]; rfl)] at hrun
  refine .of_ok (served_boot hs) (congrArg (ok s) hrun) ⟨?_, ?_, ?_, fun v hv => ?_⟩
  · rw [Module.answer_binds, hfind]
  · rw [Module.answer_bindGen, hgen]
  · rw [Module.answer_bindGen]
    exact Module.answer_answered ..
  · rw [Module.answer_binds, hnow, SMap.find?_insert_ne _ _ hv]

theorem winBind_fails {i st : Nat} (hop : fieldAt b 0 1 = 0) (hform : bindForm b = true) (hfree : s.binds.find? (fieldAt b 1 1) = none)
    (hprobes : probeFail (fieldAt b 8 1) probes = some (i, st)) : Answers (.winBind h b probes) s fun m =>
      m.binds = s.binds ∧ Answered m h 20 st 0 (bindPayload 0 (((s.receiversOf b (fieldAt b 8 1))[i]?).map fun r => (r, i))) := by
  have hrun := winBind_eq (probes := probes) hs hserved hlen hn hop hform hfree
  rw [hprobes] at hrun
  refine .of_ok (served_boot hs) (congrArg (ok s) hrun) ⟨?_, Module.answer_answered ..⟩
  exact (Module.answer_binds ..).trans (Module.sendProbes_binds ..)

/-! ### UNBIND -/

theorem winUnbind_eq (hop : fieldAt b 0 1 = 1) : winUnbind h b s.toModule =
    match s.binding? (fieldAt b 1 1) with
    | none => (s.popRx h.port).bindRefuse h
    | some bd =>
      if (decide (63 < fieldAt b 1 1) || s.streamNamesBinding (s.bindHandleOf (fieldAt b 1 1))) = true then (s.popRx h.port).bindRefuse h
      else { s.popRx h.port with binds := s.binds.insert (fieldAt b 1 1) { bd with unbinding := some h } }.finishUnbind (fieldAt b 1 1) := by
  unfold winUnbind
  dsimp only
  rw [if_neg (by omega), gateBind_runs hs hserved (bindLength hlen hn)]
  rfl

theorem winUnbind_refused (hop : fieldAt b 0 1 = 1) (hnone : s.binding? (fieldAt b 1 1) = none) : Answers (.winUnbind h b) s fun m =>
    m.binds = s.binds ∧ Answered m h 20 3 0 (bindPayload 0 none) := by
  have hrun := winUnbind_eq hs hserved hlen hn hop
  rw [hnone] at hrun
  exact .of_ok (served_boot hs) (congrArg (ok s) hrun) (bindRefuse_answered ..)

omit hs hserved hlen hn in
/-- An UNBIND with no transfer outstanding frees its window. -/
theorem finishUnbind_frees {m : Module} (hw : w < 64) (hb : m.binds.find? w = some bd) (hunbind : bd.unbinding = some h)
    (hidle : bd.transfers = 0) (hmc : m.mcSend = []) : (m.finishUnbind w).binds = m.binds.erase w ∧
      (m.finishUnbind w).rd (YWP_BIND_SIZE w) = 0 ∧
      Answered (m.finishUnbind w) h 20 0 0 (bindPayload (m.bindHandleOf w) none) := by
  have hdone : (decide (bd.transfers = 0) && !m.mcSend.any (·.window.val = w)) = true := by simp [hidle, hmc]
  have hrun : m.finishUnbind w = (({ m with binds := m.binds.erase w }.bumpBind w).reportBinding w).answer h 0x14 stOk 0
      (bindPayload (m.bindHandleOf w) none) := by
    unfold Module.finishUnbind
    rw [hb]
    dsimp only
    rw [hunbind]
    exact if_pos hdone
  have hfree : ({ m with binds := m.binds.erase w }.bumpBind w).binds = m.binds.erase w := Module.bumpBind_binds ..
  have hnow : (({ m with binds := m.binds.erase w }.bumpBind w).reportBinding w).binds = m.binds.erase w :=
    (Module.reportBinding_binds ..).trans hfree
  rw [hrun]
  refine ⟨(Module.answer_binds ..).trans hnow, ?_, Module.answer_answered ..⟩
  refine (Module.rd_congr (Module.answer_regs ..) _).trans (Module.reportBinding_unbound hw ?_)
  rw [hfree]
  exact SMap.find?_erase_same ..

theorem winUnbind_frees (hop : fieldAt b 0 1 = 1) (hbound : s.binding? (fieldAt b 1 1) = some bd) (hw : fieldAt b 1 1 < 64)
    (hstream : s.streamNamesBinding (s.bindHandleOf (fieldAt b 1 1)) = false) (hidle : bd.transfers = 0) (hmc : s.mcSend = []) :
    Answers (.winUnbind h b) s fun m => m.binds.find? (fieldAt b 1 1) = none ∧
      (∀ v, v ≠ fieldAt b 1 1 → m.binds.find? v = s.binds.find? v) ∧ m.rd (YWP_BIND_SIZE (fieldAt b 1 1)) = 0 ∧
      Answered m h 20 0 0 (bindPayload (s.bindHandleOf (fieldAt b 1 1)) none) := by
  have hrun := winUnbind_eq hs hserved hlen hn hop
  rw [hbound] at hrun
  dsimp only at hrun
  rw [if_neg (by simp [hstream]; omega)] at hrun
  have hfind : (s.binds.find? (fieldAt b 1 1)).isSome = true := by
    unfold Module.binding? at hbound
    split at hbound
    · next bd' hb => rw [hb]; rfl
    · cases hbound
  generalize fieldAt b 1 1 = w at *
  have hinserted : ({ s.popRx h.port with binds := s.binds.insert w { bd with unbinding := some h } } : Module).binds.find? w =
      some { bd with unbinding := some h } := SMap.find?_insert_same ..
  have hhandle : ({ s.popRx h.port with binds := s.binds.insert w { bd with unbinding := some h } } : Module).bindHandleOf w =
      s.bindHandleOf w := by
    rw [Module.bindHandleOf_bound hfind, Module.bindHandleOf_bound (by rw [hinserted]; rfl)]
    rfl
  obtain ⟨hbinds, hsize, hanswered⟩ := finishUnbind_frees hw hinserted rfl hidle hmc
  rw [hhandle] at hanswered
  refine .of_ok (served_boot hs) (congrArg (ok s) hrun) ⟨?_, fun v hv => ?_, hsize, hanswered⟩
  · rw [hbinds]
    exact SMap.find?_erase_same ..
  · rw [hbinds]
    exact (SMap.find?_erase_ne _ hv).trans (SMap.find?_insert_ne _ _ hv)

/-! ### REFRESH -/

theorem winRefresh_eq (hop : fieldAt b 0 1 = 2) (hbound : s.binding? (fieldAt b 1 1) = some bd) (hform : bindForm b = true)
    (hmatch : refreshMatches bd b (s.receiversOf b (fieldAt b 8 1)) = true) (hprobes : probeFail (fieldAt b 8 1) probes = none) :
    ∃ payload, winRefresh h b probes s.toModule = (({ (s.popRx h.port).sendProbes b (s.receiversOf b (fieldAt b 8 1)) probes with
      binds := s.binds.insert (fieldAt b 1 1) { bd with receivers := learnProbes (s.receiversOf b (fieldAt b 8 1)) probes } } :
        Module).reportBinding (fieldAt b 1 1)).answer h 0x14 stOk 0 payload := by
  have hb : (s.popRx h.port).binding? (fieldAt b 1 1) = some bd := hbound
  have hrs : (s.popRx h.port).receiversOf b (fieldAt b 8 1) = s.receiversOf b (fieldAt b 8 1) := rfl
  have hbinds : ((s.popRx h.port).sendProbes b (s.receiversOf b (fieldAt b 8 1)) probes).binds = s.binds :=
    (s.popRx h.port).sendProbes_binds b (s.receiversOf b (fieldAt b 8 1)) probes
  unfold winRefresh
  dsimp only
  rw [if_neg (by omega), gateBind_runs hs hserved (bindLength hlen hn), hb, hrs]
  dsimp only
  rw [if_neg (by simp [hform, hmatch]), hprobes]
  dsimp only
  rw [hbinds]
  exact ⟨_, rfl⟩

theorem winRefresh_refreshes (hop : fieldAt b 0 1 = 2) (hbound : s.binding? (fieldAt b 1 1) = some bd) (hform : bindForm b = true)
    (hmatch : refreshMatches bd b (s.receiversOf b (fieldAt b 8 1)) = true) (hprobes : probeFail (fieldAt b 8 1) probes = none) :
    Answers (.winRefresh h b probes) s fun m => m.binds.find? (fieldAt b 1 1) =
        some { bd with receivers := learnProbes (s.receiversOf b (fieldAt b 8 1)) probes } ∧
      (∀ v, v ≠ fieldAt b 1 1 → m.binds.find? v = s.binds.find? v) ∧ m.bindGen (fieldAt b 1 1) = s.bindGen (fieldAt b 1 1) := by
  have hw := window_lt_of_bindForm hform
  obtain ⟨payload, hrun⟩ := winRefresh_eq hs hserved hlen hn hop hbound hform hmatch hprobes
  refine .of_ok (served_boot hs) (congrArg (ok s) hrun) ⟨?_, fun v hv => ?_, ?_⟩
  · rw [Module.answer_binds, Module.reportBinding_binds]
    exact SMap.find?_insert_same ..
  · rw [Module.answer_binds, Module.reportBinding_binds]
    exact SMap.find?_insert_ne _ _ hv
  · rw [Module.answer_bindGen, Module.reportBinding_bindGen _ hw]
    exact (s.popRx h.port).sendProbes_bindGen b (s.receiversOf b (fieldAt b 8 1)) probes hw

end
end

/-- Settles O46: each op by its own equation behind the gate of a session's messages. -/
theorem bindingsComplete : Obligations.BindingsComplete := by
  intro h b n x s hs hlen hn
  refine ⟨fun hhalted hop probes => winBind_halted hs hlen hn hhalted hop, fun hserved => ⟨fun probes hop hform hfree => ⟨fun hprobes =>
      winBind_binds hs hserved hlen hn hop hform hfree hprobes, fun i st hprobes => winBind_fails hs hserved hlen hn hop hform hfree hprobes⟩,
    fun hop hbad probes => winBind_refused hs hserved hlen hn hop hbad, fun hop => ⟨fun bd hbound hw hstream hidle hmc =>
      winUnbind_frees hs hserved hlen hn hop hbound hw hstream hidle hmc, fun hnone => winUnbind_refused hs hserved hlen hn hop hnone⟩,
    fun probes bd hop hbound hform hmatch hprobes => winRefresh_refreshes hs hserved hlen hn hop hbound hform hmatch hprobes⟩⟩

end Sys2Proof.Machine
end

section
set_option Elab.async false
/-!
Sessions (R381 to R385, R410): how they begin and end.
-/
namespace Sys2Proof.Machine
open Sys2Proof

section
variable {s : State} {m k : Module} {h : Hdr} {n : Nat} {x : Session} {b : List Byte}

/-! ### The end of a session -/

/-- The generation that is attached under each number. -/
def Module.attachedGen (m : Module) (n : Nat) : Option Nat := (m.sessions.find? n).map (·.gen)

theorem attachedGen_of_unheard (hk : Agree Module.unheard m k) : Agree Module.attachedGen m k := by
  funext n
  have hgen (m : Module) : m.attachedGen n = (m.unheard n).map (·.gen) := by
    unfold Module.attachedGen Module.unheard
    rw [Option.map_map]
    rfl
  rw [hgen, hgen, congrFun hk n]

theorem find?_none_of_attachedGen (hk : m.attachedGen n = none) : m.sessions.find? n = none := Option.map_eq_none_iff.1 hk

theorem attachedGen_insert (hx : m.sessions.find? n = some x) {y : Session} (hy : y.gen = x.gen)
    (hk : k.sessions = m.sessions.insert n y) : Agree Module.attachedGen m k := by
  funext j
  unfold Module.attachedGen
  rw [hk]
  by_cases hj : j = n
  · subst hj
    rw [SMap.find?_insert_same, hx, Option.map_some, Option.map_some, hy]
  · rw [SMap.find?_insert_ne _ _ hj]

theorem Module.sendSession_attached (m : Module) (n type : Nat) (ackReq : Bool) (payload : List Byte) :
    Agree Module.attachedGen m (m.sendSession n type ackReq payload) := by
  unfold Module.sendSession
  split
  · exact .refl
  · next y hy => exact attachedGen_insert hy (y := { y with txSeq := y.txSeq + 1 }) rfl (Module.originate_sessions ..)

/-- The session is gone from the list, with what was under way to it. -/
def Module.sessionGone (m : Module) (n : Nat) (f : W16) : Module :=
  { m with sessions := m.sessions.erase n, winOut := m.winOut.filter fun x => x.session ≠ f || f = 0 }

/-- The end of a session takes it from the list and leaves every other attached. -/
theorem Module.endSession_facts (hx : m.sessions.find? n = some x) (reason : Nat) (byHost : Bool) :
    (m.endSession n reason byHost).sessions.find? n = none ∧
      (∀ j, j ≠ n → (m.endSession n reason byHost).attachedGen j = m.attachedGen j) ∧
      Raised (m.endSession n reason byHost) 0x0D02 255 (sessionField n x).toNat reason 0 0 ∧
      (m.endSession n reason byHost).mem = m.mem := by
  have hmem : (m.endSession n reason byHost).mem = m.mem := (Module.endSession_keeps ..).view (·.mem) fun _ => rfl
  have htold : Agree Module.attachedGen m ((if byHost then m else m.sendSession n 0x02 false (leBytes 4 reason)).dropCommands n x.gen) :=
    .kept (Module.dropCommands_keeps ..) (fun _ => rfl) (.ite (fun _ => .refl) fun _ => Module.sendSession_attached ..)
  have hrun : m.endSession n reason byHost =
      (((if byHost then m else m.sendSession n 0x02 false (leBytes 4 reason)).dropCommands n x.gen).sessionGone n
        (sessionField n x)).raise 0x0D02 (sessionField n x).toNat reason 0 0 := by
    unfold Module.endSession
    rw [hx]
    rfl
  generalize (if byHost then m else m.sendSession n 0x02 false (leBytes 4 reason)).dropCommands n x.gen = told at htold hrun
  have hraise := attachedGen_of_unheard ((told.sessionGone n (sessionField n x)).raise_unheard 0x0D02 (sessionField n x).toNat reason 0 0)
  rw [← hrun] at hraise
  refine ⟨find?_none_of_attachedGen ((congrFun hraise n).trans ?_), fun j hj => (congrFun hraise j).trans ?_, ?_, hmem⟩
  · exact congrArg (Option.map _) (SMap.find?_erase_same ..)
  · exact (congrArg (Option.map _) (SMap.find?_erase_ne _ hj)).trans (congrFun htold j)
  · rw [hrun]
    exact Module.raise_raised ..

theorem find?_of_served (hs : Served s h n x) : s.sessions.find? n = some x := by
  obtain ⟨-, -, hsession, -⟩ := hs
  unfold Module.sessionOf at hsession
  split at hsession
  · next y hy =>
    split at hsession
    · obtain ⟨rfl, rfl⟩ := Prod.mk.inj (Option.some.inj hsession)
      exact hy
    · cases hsession
  · cases hsession

theorem detach_refused (hs : Served s h n x) (hlen : b.length = 4) (hreason : reservedStatus (fieldAt b 0 4) = true) :
    Answers (.detach h b) s fun m => m.sessions = s.sessions ∧ Answered m h 2 3 0 [] := by
  have hrun : detach h b s.toModule = (s.popRx h.port).answer h 0x02 stRefused 0 [] := by
    unfold detach
    rw [decide_eq_true hlen, gateSession_runs hs]
    exact if_pos hreason
  exact .of_ok (served_boot hs) (congrArg (ok s) hrun) ⟨(Module.answer_keeps ..).view (·.sessions) fun _ => rfl, Module.answer_answered ..⟩

theorem detach_ends (hs : Served s h n x) (hlen : b.length = 4) (hreason : reservedStatus (fieldAt b 0 4) = false) :
    Answers (.detach h b) s fun m => m.sessions.find? n = none ∧ OthersStay s m n ∧ Answered m h 2 0 0 [] ∧
      Raised m 0x0D02 255 (sessionField n x).toNat (fieldAt b 0 4) 0 0 := by
  have hx : (s.popRx h.port).sessions.find? n = some x := find?_of_served hs
  obtain ⟨hgone, hothers, hraised, -⟩ := Module.endSession_facts hx (fieldAt b 0 4) true
  have hrun : detach h b s.toModule = ((s.popRx h.port).endSession n (fieldAt b 0 4) true).send h.port h.peer x.replicate x.tclass
      ⟨h.version, 0x02, true, false, h.src, h.session, h.seq, 0, 0, ((s.popRx h.port).endSession n (fieldAt b 0 4) true).epoch, []⟩ := by
    unfold detach
    rw [decide_eq_true hlen, gateSession_runs hs]
    exact if_neg (ne_true_of_eq_false hreason)
  generalize (s.popRx h.port).endSession n (fieldAt b 0 4) true = ended at hrun hgone hothers hraised
  have hsent := ended.send_keeps h.port h.peer x.replicate x.tclass
    ⟨h.version, 0x02, true, false, h.src, h.session, h.seq, 0, 0, ended.epoch, []⟩
  have hepoch := hsent.view (·.epoch) fun _ => rfl
  obtain ⟨p, vid, rtag, hlast⟩ := ended.send_getLast? h.port h.peer x.replicate x.tclass
    ⟨h.version, 0x02, true, false, h.src, h.session, h.seq, 0, 0, ended.epoch, []⟩
  refine .of_ok (served_boot hs) (congrArg (ok s) hrun) ⟨?_, fun j hj => ?_, ⟨p, vid, rtag, x.tclass, ?_⟩, ?_⟩
  · exact (congrArg (SMap.find? · n) (hsent.view (·.sessions) fun _ => rfl)).trans hgone
  · exact (hsent.view (·.attachedGen j) fun _ => rfl).trans (hothers j hj)
  · rw [hlast, hepoch]
    rfl
  · exact hraised.of_trace (hsent.view (·.trace) fun _ => rfl)

theorem sessionKeepaliveTimeout_answers {n : Fin 256} (hboot : s.boot ≠ .off) (hx : s.sessions.find? n.val = some x) :
    Answers (.sessionKeepaliveTimeout n) s fun m => m.sessions.find? n.val = none ∧ OthersStay s m n.val ∧ m.mem = s.mem := by
  have hx' : s.open_.2.sessions.find? n.val = some x := hx
  obtain ⟨hgone, hothers, -, hmem⟩ := Module.endSession_facts hx' (s.open_.1.toNat % 65536) false
  exact .of_ok hboot rfl ⟨hgone, hothers, hmem⟩

/-- A ring that cannot be read ends its session. -/
theorem submissionEntryTake_unanswered {n : Fin 256} (hserving : s.serving = true) (hturn : s.nextTurn = some n.val)
    (hx : s.sessions.find? n.val = some x) (hinline : x.inline.find? (·.1 = x.sqHead) = none) :
    Answers (.submissionEntryTake n .unanswered) s fun m => m.sessions.find? n.val = none ∧ OthersStay s m n.val := by
  have hboot : s.boot ≠ .off := by
    intro hoff
    simp [Module.serving, Module.ready, hoff] at hserving
  have hrun : submissionEntryTake n .unanswered s.toModule =
      (s.toModule.ringRead n x false).endSession n stBusError false := by
    unfold submissionEntryTake
    rw [hx]
    dsimp only
    rw [if_neg (by simp [hserving, hturn]), hinline]
    rfl
  have hread : Agree Module.attachedGen s.toModule (s.toModule.ringRead n x false) := by
    unfold Module.ringRead
    exact .kept (Module.request_keeps ..) (fun _ => rfl)
      (attachedGen_insert hx (y := { x with txSeq := x.txSeq + 1 }) rfl rfl)
  have hx' : (s.toModule.ringRead n x false).sessions.find? n.val = some { x with txSeq := x.txSeq + 1 } := by
    unfold Module.ringRead
    exact (congrArg (SMap.find? · n.val) ((Module.request_keeps ..).view (·.sessions) fun _ => rfl)).trans (SMap.find?_insert_same ..)
  obtain ⟨hgone, hothers, -⟩ := Module.endSession_facts hx' stBusError false
  exact .of_ok hboot (congrArg (ok s) hrun) ⟨hgone, fun j hj => (hothers j hj).trans (congrFun hread j)⟩

/-! ### ATTACH -/

/-- The answer to an ATTACH. -/
theorem Module.attachAnswer_facts (m : Module) (h : Hdr) (version : Byte) (status retry : Nat) (payload : List Byte) :
    (m.attachAnswer h version status retry payload).sessions = m.sessions ∧
      (m.attachAnswer h version status retry payload).attachWait = m.attachWait ∧
      ∃ vid, (m.attachAnswer h version status retry payload).outbox.getLast? = some (.ywp h.port h.peer vid none 0 ⟨version, 1, true,
        false, h.src, h.session, h.seq, BitVec.ofNat 16 status, BitVec.ofNat 16 retry,
        (m.attachAnswer h version status retry payload).epoch, payload⟩) := by
  refine ⟨rfl, rfl, ?_⟩
  unfold Module.attachAnswer Module.emit Module.ywpOut
  dsimp only
  rw [List.getLast?_append]
  exact ⟨_, rfl⟩

theorem attachAnswer_answered (m : Module) (h : Hdr) (status : Nat) (payload : List Byte) :
    Answered (m.attachAnswer h h.version status 0 payload) h 1 status 0 payload := by
  obtain ⟨-, -, vid, hlast⟩ := m.attachAnswer_facts h h.version status 0 payload
  exact ⟨h.port, vid, none, 0, hlast⟩

/-- An ATTACH that has not been seen before. -/
theorem attach_eq (haddr : s.addressed h false = true) (hready : s.ready = true) (hdone : s.attachDone = [])
    (hnew : (s.attachWait.all fun a => !(a.m.src = h.src && a.m.seq = h.seq)) = true) : attach h b s.toModule =
      if b.length ≠ 64 then (s.popRx h.port).tick.attachAnswer h h.version stBadMessage 0 []
      else if 256 ≤ s.sessions.length then (s.popRx h.port).tick.attachAnswer h h.version stSessionLimit 0 []
      else if 64 ≤ s.attachWait.length then
        (s.popRx h.port).tick.draw.2.attachAnswer h h.version stBusy (50 + (s.popRx h.port).tick.draw.1 % 351) []
      else { (s.popRx h.port).tick with attachWait := s.attachWait ++ [⟨h, b⟩] } := by
  have hseen : (s.popRx h.port).tick.attachSeen h = none := by
    have hempty : (s.popRx h.port).tick.attachDone = [] := hdone
    unfold Module.attachSeen
    rw [hempty]
    rfl
  have hwaits : ¬((s.popRx h.port).tick.attachWait.any fun a => a.m.src = h.src ∧ a.m.seq = h.seq) = true := by
    have hsame : (s.popRx h.port).tick.attachWait = s.attachWait := rfl
    rw [hsame]
    simpa [← not_and_or] using hnew
  unfold attach
  rw [Module.gate_runs haddr hready]
  dsimp only
  rw [hseen]
  dsimp only
  rw [if_neg hwaits]
  rfl

theorem boot_of_ready (hready : s.ready = true) : s.boot ≠ .off := by
  intro hoff
  simp [Module.ready, hoff] at hready

/-! ### The serving of an ATTACH -/

/-- A free number that is found is the lowest. -/
theorem SMap.freeKey_lowest {α : Type} {t : SMap α} {hi j i : Nat} (h : t.freeKey 0 hi = some j) (hi : i < j) : t.find? i ≠ none := by
  unfold SMap.freeKey at h
  rw [show (fun x => x + 0) = (id : Nat → Nat) from rfl, List.map_id, List.find?_range_eq_some] at h
  obtain ⟨-, -, hbefore⟩ := h
  have hsome := hbefore i hi
  intro hnone
  rw [hnone] at hsome
  cases hsome

section
variable {a : AttachReq} {rest : List AttachReq} (hwait : s.attachWait = a :: rest) (hready : s.ready = true)
  (hserved : s.cpHalted = false) (hhigh : 16 ≤ fieldAt a.payload 1 1) (hlow : fieldAt a.payload 0 1 ≤ 16)

/-- The module without the ATTACH that is served. -/
def Module.attachTaken (m : Module) (rest : List AttachReq) : Module := { m with attachWait := rest }

/-- A new session under number n. -/
def Module.sessionAdded (m : Module) (n : Nat) (y : Session) : Module :=
  { m with sessions := m.sessions.insert n y, sessionGen := SMap.set 0 m.sessionGen n y.gen }

include hwait hready hserved hhigh hlow

theorem attachServe_refused {o : Nat} {probe : Remote} (hbad : attachBad a.payload = some o) : Answers (.attachServe probe) s fun m =>
    m.attachWait = rest ∧ m.sessions = s.sessions ∧ ∃ vid x, m.outbox.getLast? = some (.ywp a.m.port a.m.peer vid none 0 x) ∧
      x.status = 3 ∧ x.seq = a.m.seq ∧ x.payload = s.attachPayload 0 o := by
  have hrun : attachServe probe s.toModule = (s.toModule.attachTaken rest).attachAnswer a.m 0x10 stRefused 0 (s.attachPayload 0 o) := by
    unfold attachServe Module.firmware
    rw [if_neg (by simp [hserved])]
    beta_reduce
    rw [hwait]
    dsimp only
    rw [if_neg (by simp [hready]), if_neg (by omega), hbad]
    rfl
  obtain ⟨hsessions, hrest, vid, hlast⟩ :=
    (s.toModule.attachTaken rest).attachAnswer_facts a.m 0x10 stRefused 0 (s.attachPayload 0 o)
  exact .of_ok (boot_of_ready hready) (congrArg (ok s) hrun) ⟨hrest, hsessions, vid, _, hlast, rfl, rfl, rfl⟩

theorem attachServe_attaches {d : List Byte} (hgood : attachBad a.payload = none) (hfree : ∃ j < 256, s.sessions.find? j = none) :
    Answers (.attachServe (.data d)) s fun m => m.attachWait = rest ∧ ∃ n < 256, s.sessions.find? n = none ∧
      (∀ j < n, s.sessions.find? j ≠ none) ∧
      m.sessions.find? n = some (newSession a.m a.payload (nextSessionGen (SMap.get 0 s.sessionGen n))) ∧
      ∀ j, j ≠ n → m.sessions.find? j = s.sessions.find? j := by
  obtain ⟨j, hj, hnone⟩ := hfree
  obtain ⟨n, hn⟩ := Option.isSome_iff_exists.1 (SMap.freeKey_isSome (Nat.zero_le j) hj hnone)
  let y := newSession a.m a.payload (nextSessionGen (SMap.get 0 s.sessionGen n))
  have hprobed := (s.toModule.attachTaken rest).probeRead_keeps a.m a.payload true
  have hrun : ∃ version status payload, attachServe (.data d) s.toModule =
      (((s.toModule.attachTaken rest).probeRead a.m a.payload true).sessionAdded n y).attachAnswer a.m version status 0 payload := by
    have hsessions : ((s.toModule.attachTaken rest).probeRead a.m a.payload true).sessions = s.sessions :=
      hprobed.view (·.sessions) fun _ => rfl
    have hgen : ((s.toModule.attachTaken rest).probeRead a.m a.payload true).sessionGen = s.sessionGen :=
      hprobed.view (·.sessionGen) fun _ => rfl
    have htaken : { s.toModule with attachWait := rest } = s.toModule.attachTaken rest := rfl
    have hanswered : Remote.answered (.data d) = true := rfl
    unfold attachServe Module.firmware
    rw [if_neg (by simp [hserved])]
    beta_reduce
    rw [hwait]
    dsimp only
    rw [if_neg (by simp [hready]), if_neg (by omega), hgood, htaken, hanswered]
    dsimp only
    rw [hsessions, hn]
    dsimp only
    refine ⟨_, _, _, congrArg (fun k : Module => k.attachAnswer a.m 0x10 stOk 0 _) ?_⟩
    unfold Module.sessionAdded
    rw [hsessions, hgen]
    rfl
  obtain ⟨version, status, payload, hrun⟩ := hrun
  have hsessions : (((s.toModule.attachTaken rest).probeRead a.m a.payload true).sessionAdded n y).sessions = s.sessions.insert n y :=
    congrArg (SMap.insert · n y) (hprobed.view (·.sessions) fun _ => rfl)
  have hwaits : (((s.toModule.attachTaken rest).probeRead a.m a.payload true).sessionAdded n y).attachWait = rest :=
    hprobed.view (·.attachWait) fun _ => rfl
  generalize ((s.toModule.attachTaken rest).probeRead a.m a.payload true).sessionAdded n y = k at hrun hsessions hwaits
  obtain ⟨hs, hw, -⟩ := k.attachAnswer_facts a.m version status 0 payload
  refine .of_ok (boot_of_ready hready) (congrArg (ok s) hrun) ⟨hw.trans hwaits, n, ?_, SMap.freeKey_some hn, fun j hj =>
    SMap.freeKey_lowest hn hj, ?_, fun j hj => ?_⟩
  · by_contra hge
    exact SMap.freeKey_lowest hn (i := j) (by omega) hnone
  · rw [hs, hsessions]
    exact SMap.find?_insert_same ..
  · rw [hs, hsessions]
    exact SMap.find?_insert_ne _ _ hj

end
end

/-- Settles O42: an ATTACH by the outcomes of its checks, and the end of a session by what it takes from the list. -/
theorem sessionsComplete : Obligations.SessionsComplete := by
  intro h b s
  refine ⟨fun haddr hready hdone hnew => ?_, fun a rest d hwait hready hserved hhigh hlow => ⟨fun hgood hfree =>
      attachServe_attaches hwait hready hserved hhigh hlow hgood hfree, fun o probe hbad =>
      attachServe_refused hwait hready hserved hhigh hlow hbad⟩,
    fun n x hs hlen => ⟨fun hreason => detach_ends hs hlen hreason, fun hreason => detach_refused hs hlen hreason⟩,
    fun n x hboot hx => sessionKeepaliveTimeout_answers hboot hx,
    fun n x hserving hturn hx hinline => submissionEntryTake_unanswered hserving hturn hx hinline⟩
  have hrun := attach_eq (b := b) haddr hready hdone hnew
  have hboot := boot_of_ready hready
  have hanswered (status : Nat) := attachAnswer_answered (s.popRx h.port).tick h status []
  refine ⟨fun hlen => ⟨fun hfew hroom => ?_, fun hmany => ?_⟩, fun hlen => ?_⟩
  · rw [if_neg (by omega), if_neg (by omega), if_neg (by omega)] at hrun
    exact .of_ok hboot (congrArg (ok s) hrun) ⟨rfl, rfl, rfl⟩
  · rw [if_neg (by omega), if_pos hmany] at hrun
    exact .of_ok hboot (congrArg (ok s) hrun) ⟨hanswered stSessionLimit, rfl, rfl⟩
  · rw [if_pos hlen] at hrun
    exact .of_ok hboot (congrArg (ok s) hrun) ⟨hanswered stBadMessage, rfl⟩

end Sys2Proof.Machine
end

section
set_option Elab.async false
/-!
The take of a ring entry does not always follow its rule: storing a session anew counts its commands that have not started twice where
the list of sessions is not in rising order.
-/
namespace Sys2Proof.Machine
open Sys2Proof

/-- A session with one entry to take and these commands taken. -/
def takingSession (taken : List Taken) : Session :=
  { gen := 1, node := 0, port := 0, peer := .ip 0, version := 0x10, ringWindow := 0, ringGen := 0, ringEpoch := 0, keepaliveMs := 100
    sqOff := 0, cqOff := 0, eqOff := 0, sqN := 64, cqN := 64, eqN := 64, mask := 0, notifyUs := 0, replicate := false, tclass := 0
    sqTail := 1, sqHead := 0, cqTail := 0, cqHead := 0, eqTail := 0, eqHead := 0, inline := [], taken := taken, cqWait := [], lost := 0
    firstLost := 0, ackPending := false, lastNotify := (0, 0, 0), notifyAt := 0, lastReg := none, txSeq := 0 }

/-- The bytes of a JOB entry. -/
def jobEntry : List Byte := 3 :: List.replicate 63 0

/-- A session with 512 JOBs that have not started. -/
def manyJobs : Session := takingSession (List.replicate 512 ⟨jobEntry, false, 0, 0⟩)

/-- A ready module whose list of sessions is not in rising order and names one number twice. -/
def unsortedState : State :=
  { State.reset with
    boot := .ready
    regs := [(PWR_STATE, 0x33), (PWR_DOM_STAT, 0x3FFFFFFF)]
    sessions := [(5, takingSession [⟨jobEntry, false, 0, 0⟩]), (3, manyJobs), (3, takingSession [])]
    lastTurn := 2 }

theorem unsorted_turn : unsortedState.nextTurn = some 3 := by decide +kernel

theorem unsorted_room : unsortedState.entryWaits jobEntry = false := by decide +kernel

/-- The entry waits in its ring all the same. -/
theorem unsorted_waits : (((submissionEntryTake 3 (.data jobEntry) unsortedState.toModule).sessions.find? 3).map (·.sqHead)) = some 0 := by
  decide +kernel

end Sys2Proof.Machine

namespace Sys2Proof
open Machine

/-- Refutes O43: in `unsortedState` a JOB entry for which there is room is not taken from its ring. -/
theorem not_sessionMessagesAndRingsComplete : ¬ Obligations.SessionMessagesAndRingsComplete := by
  unfold Obligations.SessionMessagesAndRingsComplete
  intro hall
  obtain ⟨htake, -⟩ := hall.2 3 manyJobs unsortedState (by decide) (by decide +kernel)
  obtain ⟨m, hm, htaken, -⟩ := htake jobEntry (.data jobEntry) (by decide +kernel) unsorted_turn
    ⟨jobEntry, rfl, by decide +kernel, by decide +kernel⟩
  have hrun : m = submissionEntryTake 3 (.data jobEntry) unsortedState.toModule := module_of_ok (by decide) rfl hm
  obtain ⟨⟨y, hy, hhead, -⟩, -⟩ := htaken unsorted_room
  have hwaits := unsorted_waits
  rw [← hrun] at hwaits
  have htaken : (m.sessions.find? 3).map (·.sqHead) = some (manyJobs.sqHead + 1) := (congrArg (Option.map _) hy).trans (congrArg some hhead)
  rw [hwaits] at htaken
  exact absurd htaken (by decide +kernel)

end Sys2Proof
end

section
set_option Elab.async false
/-!
Accesses through windows (R385, R391, R432, R436, R437): answers, retries, credit and dropped receivers.
-/
namespace Sys2Proof.Machine
open Sys2Proof

section
variable {s : State} {m k : Module} {x : WinOut} {n : Fin 256}

/-! ### Answers to what is outstanding -/

theorem mem_of_winFind {node session : W16} {seq : Word} (hx : m.winFind node session seq = some x) : x ∈ m.winOut :=
  List.mem_of_find?_eq_some hx

theorem Module.winDrop_of_noWindow (hw : x.window = none) : m.winDrop x = { m with winOut := m.winOut.erase x } := by
  unfold Module.winDrop
  rw [hw]

theorem Module.afterReturn_of_noWindow (hw : x.window = none) : m.afterReturn x = m := by
  unfold Module.afterReturn
  rw [hw]

theorem find?_of_sessionOf {f : W16} {j : Nat} {y : Session} (hy : m.sessionOf f = some (j, y)) : m.sessions.find? j = some y := by
  unfold Module.sessionOf at hy
  split at hy
  · next z hz =>
    split at hy
    · obtain ⟨rfl, rfl⟩ := Prod.mk.inj (Option.some.inj hy)
      exact hz
    · cases hy
  · cases hy

/-- Learning an epoch changes no more of a session than the epoch of its rings. -/
theorem Module.learnEpoch_session (m : Module) (x : WinOut) (epoch : Word) {j : Nat} {y : Session} (hy : m.sessions.find? j = some y) :
    ∃ z, (m.learnEpoch x epoch).sessions.find? j = some z ∧ z.cqTail = y.cqTail ∧ z.gen = y.gen := by
  unfold Module.learnEpoch
  split
  · exact ⟨y, hy, rfl, rfl⟩
  · split
    · next i z hz =>
      unfold Module.setSession
      by_cases hj : j = i
      · subst hj
        obtain rfl := Option.some.inj ((find?_of_sessionOf hz).symm.trans hy)
        exact ⟨_, SMap.find?_insert_same _ _ _, rfl, rfl⟩
      · exact ⟨y, (SMap.find?_insert_ne _ _ hj).trans hy, rfl, rfl⟩
    · exact ⟨y, hy, rfl, rfl⟩

theorem Module.learnEpoch_attached (m : Module) (x : WinOut) (epoch : Word) : Agree Module.attachedGen m (m.learnEpoch x epoch) := by
  unfold Module.learnEpoch
  split
  · exact .upd .refl
  · split
    · next i z hz => exact attachedGen_insert (find?_of_sessionOf hz) (y := { z with ringEpoch := epoch }) rfl rfl
    · exact .refl

/-- The answer to an access that is outstanding. -/
theorem windowResponse_eq {h : Hdr} {status : W16} {data : List Byte} (hresp : h.resp = true) (hform : s.formOn h.peer.udp = true)
    (hdst : h.dst = s.node) (hx : s.winFind h.src h.session h.seq = some x) : windowResponse h status data s.toModule =
      (if (decide (status.toNat = stOk) && (decide (x.msg.type ≠ 0x11) || decide (data.length = x.len))) = true
        then (((s.popRx h.port).winDrop x).learnEpoch x h.epoch).winDone x data
        else (((s.popRx h.port).winDrop x).learnEpoch x h.epoch).winFailed x status.toNat).afterReturn x := by
  have hpass : ¬(!h.resp || !(s.popRx h.port).formOn h.udp || decide (h.dst ≠ (s.popRx h.port).node)) = true := by
    have hf : (s.popRx h.port).formOn h.udp = true := hform
    have hd : h.dst = (s.popRx h.port).node := hdst
    simp [hresp, hf, ← hd]
  have hfound : (s.popRx h.port).winFind h.src h.session h.seq = some x := hx
  unfold windowResponse
  dsimp only
  rw [if_neg hpass, hfound]

theorem windowResponse_completion {h : Hdr} {status : W16} {data : List Byte} {y : Session} (hboot : s.boot ≠ .off)
    (hresp : h.resp = true) (hform : s.formOn h.peer.udp = true) (hdst : h.dst = s.node)
    (hx : s.winFind h.src h.session h.seq = some x) (huse : x.use = .completion n) (htype : x.msg.type ≠ 0x11) (hw : x.window = none)
    (hy : s.sessions.find? n.val = some y) :
    (status = 0 → Answers (.windowResponse h status data) s fun m => m.winOut = s.winOut.erase x ∧
      ∃ z, m.sessions.find? n.val = some z ∧ z.ackPending = true ∧ z.cqTail = y.cqTail) ∧
    (status ≠ 0 → Answers (.windowResponse h status data) s fun m => m.sessions.find? n.val = none ∧ OthersStay s m n.val) := by
  have hrun := windowResponse_eq (status := status) (data := data) hresp hform hdst hx
  have hdropped : (s.popRx h.port).winDrop x = { s.popRx h.port with winOut := s.winOut.erase x } := Module.winDrop_of_noWindow hw
  have hsame : ((s.popRx h.port).winDrop x).sessions = s.sessions := (congrArg Module.sessions hdropped).trans rfl
  have hout : ((s.popRx h.port).winDrop x).winOut = s.winOut.erase x := congrArg Module.winOut hdropped
  generalize (s.popRx h.port).winDrop x = dropped at hrun hsame hout
  have hlearntOut : (dropped.learnEpoch x h.epoch).winOut = s.winOut.erase x :=
    ((dropped.learnEpoch_keeps x h.epoch).view (·.winOut) fun _ => rfl).trans hout
  obtain ⟨z, hz, htail, -⟩ := dropped.learnEpoch_session x h.epoch (by rw [hsame]; exact hy)
  have hgens := dropped.learnEpoch_attached x h.epoch
  generalize dropped.learnEpoch x h.epoch = learnt at hrun hlearntOut hz hgens
  rw [Module.afterReturn_of_noWindow hw] at hrun
  refine ⟨fun hstatus => ?_, fun hstatus => ?_⟩
  · have hgood : (decide (status.toNat = stOk) && (decide (x.msg.type ≠ 0x11) || decide (data.length = x.len))) = true :=
      Bool.and_eq_true_iff.mpr ⟨decide_eq_true (by rw [hstatus]; rfl), Bool.or_eq_true_iff.mpr (.inl (decide_eq_true htype))⟩
    rw [if_pos hgood] at hrun
    have hdone : learnt.winDone x data = { learnt with sessions := learnt.sessions.adjust n.val fun y => { y with ackPending := true } } := by
      unfold Module.winDone
      rw [huse]
    rw [hdone] at hrun
    refine .of_ok hboot (congrArg (ok s) hrun) ⟨hlearntOut, { z with ackPending := true }, ?_, rfl, htail⟩
    exact (SMap.find?_adjust_same ..).trans (congrArg (Option.map _) hz)
  · have hnot : status.toNat ≠ stOk := fun hzero => hstatus (BitVec.eq_of_toNat_eq hzero)
    rw [if_neg (by simp [hnot])] at hrun
    have hfailed : ∃ code, learnt.winFailed x status.toNat = learnt.endSession n code false := by
      unfold Module.winFailed
      rw [huse]
      exact ⟨_, rfl⟩
    obtain ⟨code, hfailed⟩ := hfailed
    rw [hfailed] at hrun
    obtain ⟨hgone, hothers, -⟩ := Module.endSession_facts hz code false
    refine .of_ok hboot (congrArg (ok s) hrun) ⟨hgone, fun j hj => (hothers j hj).trans ((congrFun hgens j).trans ?_)⟩
    exact congrArg (fun t : SMap Session => (t.find? j).map (·.gen)) hsame

theorem windowResponse_unknown {h : Hdr} {status : W16} {data : List Byte} (hboot : s.boot ≠ .off)
    (hx : s.winFind h.src h.session h.seq = none) : Answers (.windowResponse h status data) s fun m =>
      { m with netPorts := [] } = { s.toModule with netPorts := [] } := by
  have hfound : (s.popRx h.port).winFind h.src h.session h.seq = none := hx
  have hrun : windowResponse h status data s.toModule = s.popRx h.port := by
    unfold windowResponse
    dsimp only
    split
    · rfl
    · rw [hfound]
  exact .of_ok hboot (congrArg (ok s) hrun) rfl

/-! ### Retries -/

/-- An outstanding message with one try more. -/
def Module.triedAgain (m : Module) (x : WinOut) : Module :=
  { m with winOut := m.winOut.map fun y => if y = x then { x with tries := x.tries + 1 } else y }.count YWP_CNT_RESENT 1

theorem Module.winHand_plain {use : WinUse} {port : Fin 2} {dest : Peer} {replicate : Bool} {tclass : Nat} {y : Msg}
    (huse : m.useStream use = none) (hform : m.formOn dest.udp = true) :
    ∃ p vid rtag, (m.winHand use port dest replicate tclass y).outbox.getLast? = some (.ywp p dest vid rtag tclass y) := by
  unfold Module.winHand
  rw [huse]
  dsimp only
  unfold Module.originate
  rw [if_pos hform]
  exact Module.send_getLast? ..

theorem Module.winHand_stream {use : WinUse} {port : Fin 2} {dest : Peer} {replicate : Bool} {tclass : Nat} {y : Msg} {c : PortId}
    (huse : m.useStream use = some c) : (m.winHand use port dest replicate tclass y).outbox = m.outbox := by
  unfold Module.winHand
  rw [huse]
  dsimp only
  split
  · exact ((Module.txQueue_keeps ..).view (·.outbox) fun _ => rfl).trans (m.frames_outbox ..)
  · rfl

theorem winRetryTimeout_resends {node session : W16} {seq : Word} (hboot : s.boot ≠ .off) (hx : s.winFind node session seq = some x)
    (htries : x.tries < s.fld YWP_WIN_CFG YWP_WIN_CFG_retries) (hform : s.formOn x.peer.udp = true)
    (hroom : s.winRoom x.use x.port x.peer (s.winReplicates x) x.tclass x.msg = true) :
    Answers (.winRetryTimeout node session seq) s fun m => { x with tries := x.tries + 1 } ∈ m.winOut ∧
      m.winOut.length = s.winOut.length ∧ (m.rd YWP_CNT_RESENT).toNat = min ((s.rd YWP_CNT_RESENT).toNat + 1) 0xFFFFFFFF ∧
      (s.useStream x.use = none → ∃ port vid rtag, m.outbox.getLast? = some (.ywp port x.peer vid rtag x.tclass x.msg)) ∧
      ∀ c, s.useStream x.use = some c → m.outbox = s.outbox := by
  have hrun : winRetryTimeout node session seq s.toModule = (s.toModule.triedAgain x).winHand x.use x.port x.peer
      ((s.toModule.triedAgain x).winReplicates x) x.tclass x.msg := by
    unfold winRetryTimeout
    rw [hx]
    dsimp only
    rw [if_pos htries]
    unfold Module.winResend
    rw [if_neg (by simp [hroom])]
    rfl
  have htried : (s.toModule.triedAgain x).formOn x.peer.udp = true := by
    have hrd : (s.toModule.triedAgain x).rd YWP_CFG = s.rd YWP_CFG := Module.rd_wr_ne _ _ (by decide)
    unfold Module.formOn at hform ⊢
    rwa [Module.bit_congr hrd, Module.bit_congr hrd]
  have hkeep := (s.toModule.triedAgain x).winHand_keeps x.use x.port x.peer ((s.toModule.triedAgain x).winReplicates x) x.tclass x.msg
  refine .of_ok hboot (congrArg (ok s) hrun) ⟨?_, ?_, ?_, fun huse => ?_, fun c huse => ?_⟩
  · rw [hkeep.view (·.winOut) fun _ => rfl]
    exact List.mem_map.2 ⟨x, mem_of_winFind hx, if_pos rfl⟩
  · rw [hkeep.view (·.winOut) fun _ => rfl]
    exact List.length_map _
  · rw [Module.rd_congr (hkeep.view (·.regs) fun _ => rfl)]
    exact Module.rd_count_same_toNat ..
  · exact Module.winHand_plain huse htried
  · exact Module.winHand_stream huse

theorem winRetryTimeout_gives_up {node session : W16} {seq : Word} (hboot : s.boot ≠ .off) (hx : s.winFind node session seq = some x)
    (htries : s.fld YWP_WIN_CFG YWP_WIN_CFG_retries ≤ x.tries) (huse : x.use = .completion n) (hw : x.window = none) :
    Answers (.winRetryTimeout node session seq) s fun m => m.sessions.find? n.val = none ∧ OthersStay s m n.val := by
  have hrun : ∃ code, winRetryTimeout node session seq s.toModule =
      ({ s.toModule with winOut := s.winOut.erase x } : Module).endSession n code false := by
    unfold winRetryTimeout
    rw [hx]
    dsimp only
    rw [if_neg (by omega), Module.afterReturn_of_noWindow hw, Module.winDrop_of_noWindow hw]
    unfold Module.winFailed
    rw [huse]
    exact ⟨_, rfl⟩
  obtain ⟨code, hrun⟩ := hrun
  cases hy : s.sessions.find? n.val with
  | none =>
    have hend : ({ s.toModule with winOut := s.winOut.erase x } : Module).endSession n code false =
        { s.toModule with winOut := s.winOut.erase x } := by
      unfold Module.endSession
      dsimp only
      rw [hy]
    rw [hend] at hrun
    exact .of_ok hboot (congrArg (ok s) hrun) ⟨hy, fun _ _ => rfl⟩
  | some y =>
    obtain ⟨hgone, hothers, -⟩ := Module.endSession_facts (m := { s.toModule with winOut := s.winOut.erase x }) hy code false
    exact .of_ok hboot (congrArg (ok s) hrun) ⟨hgone, hothers⟩

/-! ### Acknowledged writes of an engine -/

theorem writeAcknowledged_engine {e : EngPos} {t : EngTask} (hboot : s.boot ≠ .off) (ht : (s.eng e).task = some t)
    (hwrites : t.writes = []) (hout : s.engWritesOut e < t.issued) : Answers (.writeAcknowledged (.engine e)) s fun m =>
      (m.eng e).task = some { t with issued := t.issued - 1 } ∧ m.mem = s.mem ∧ m.regs = s.regs := by
  have hnow : ((s.putTask e { t with issued := t.issued - 1 }).eng e).task = some { t with issued := t.issued - 1 } :=
    congrArg Eng.task (Module.eng_setEng_same ..)
  have hrun : writeAcknowledged (.engine e) s.toModule = s.putTask e { t with issued := t.issued - 1 } := by
    unfold writeAcknowledged Module.engineAck
    dsimp only
    rw [ht]
    dsimp only
    rw [if_pos hout]
    unfold Module.ackWrite
    rw [ht]
    dsimp only
    unfold Module.pump
    rw [hnow]
    dsimp only
    rw [hwrites]
  exact .of_ok hboot (congrArg (ok s) hrun) ⟨hnow, rfl, rfl⟩

/-! ### Transfers to receivers -/

/-- What sending changes of the module: its queues and what has left. -/
def Fld.sending : Nat := Fld.send ||| Fld.winSeq ||| Fld.netPorts

/-- A turn of a transfer to one receiver that has neither failed nor changed more than what the receiver has been sent. -/
structure QuietTurn (m : Module) (t : McSend) (r : McRecv) (x : McTurn) : Prop where
  turn : ∃ q : McRecv, x.t = { t with recv := [q] } ∧ { q with sent := 0 } = { r with sent := 0 }
  fail : x.fail = none
  keeps : Keeps Fld.sending m x.m

theorem Module.mcBad_congr (hk : Keeps Fld.sending m k) (t : McSend) (l : List McRecv) (i : Nat) {y : McChunk} (hsrc : y.src = none) :
    k.mcBad { t with recv := l } i y = m.mcBad t i y := by
  have hchan (ch : Nat) : k.chan ch = m.chan ch := hk.view (·.chan ch) fun _ => rfl
  have hspace (a : Nat) : k.spaceOf a = m.spaceOf a := hk.view (·.spaceOf a) fun _ => rfl
  have hwindow (w off n : Nat) (r : Bool) : k.windowBad w off n r = m.windowBad w off n r := hk.view (·.windowBad w off n r) fun _ => rfl
  unfold Module.mcBad
  simp only [hchan, hspace, hwindow, hsrc, Option.bind_none]

theorem QuietTurn.send {t : McSend} {r : McRecv} {x : McTurn} (hx : QuietTurn m t r x)
    (hchunks : ∀ i y, t.chunks[i]? = some y → y.src = none ∧ m.mcBad t i y = none) (b : Binding) (i j : Nat) :
    QuietTurn m t r (x.send b i j) := by
  obtain ⟨⟨q, hxt, hq⟩, hfail, hkeep⟩ := hx
  unfold McTurn.send
  split
  · next rc y e hrc hy he =>
    rw [hxt] at hy he
    obtain ⟨hsrc, hbad⟩ := hchunks i y hy
    have hj : j = 0 ∧ e = q := by
      cases j with
      | zero => exact ⟨rfl, (Option.some.inj he).symm⟩
      | succ j => simp at he
    obtain ⟨rfl, rfl⟩ := hj
    have hsound : x.m.mcBad x.t i y = none := by
      rw [hxt]
      exact (Module.mcBad_congr hkeep t [e] i hsrc).trans hbad
    rw [hsrc]
    dsimp only
    rw [hsound]
    dsimp only
    split
    · exact ⟨⟨e, hxt, hq⟩, hfail, hkeep⟩
    · split
      · exact ⟨⟨e, hxt, hq⟩, hfail, hkeep⟩
      · refine ⟨⟨{ e with sent := max e.sent (chunkPos x.t.chunks (i + 1)) }, ?_, hq⟩, hfail, ?_⟩
        · rw [hxt]
          rfl
        · exact .after (Module.winHand_keeps ..) rfl (.upd hkeep)
  · exact ⟨⟨q, hxt, hq⟩, hfail, hkeep⟩

/-- The sends of a transfer that no stream owns do not wait for room. -/
theorem QuietTurn.send_waits {t : McSend} {r : McRecv} {x : McTurn} (hx : QuietTurn m t r x)
    (hchunks : ∀ i y, t.chunks[i]? = some y → y.src = none ∧ m.mcBad t i y = none)
    (hstream : m.useStream (.dmaWrite t.ch 0 0) = none) (b : Binding) (i j : Nat) : (x.send b i j).waits = x.waits := by
  obtain ⟨⟨q, hxt, -⟩, -, hkeep⟩ := hx
  have hroom (port : Fin 2) (dest : Peer) (replicate : Bool) (tclass : Nat) (y : Msg) :
      x.m.winRoom (.dmaWrite x.t.ch 0 0) port dest replicate tclass y = true := by
    have hnone : x.m.useStream (.dmaWrite x.t.ch 0 0) = none := by
      rw [hxt]
      exact (hkeep.view (·.useStream (.dmaWrite t.ch 0 0)) fun _ => rfl).trans hstream
    unfold Module.winRoom
    rw [hnone]
    rfl
  unfold McTurn.send
  split
  · next rc y e hrc hy he =>
    rw [hxt] at hy
    obtain ⟨hsrc, -⟩ := hchunks i y hy
    rw [hsrc]
    dsimp only
    rw [hroom]
    split
    · rfl
    · rw [if_neg (by simp)]
      split <;> rfl
  · rfl

theorem QuietTurn.start {t : McSend} {r : McRecv} (ht : t.recv = [r]) : QuietTurn m t r ⟨t, none, false, m⟩ :=
  ⟨⟨r, by rw [← ht], rfl⟩, rfl, .refl⟩

theorem QuietTurn.foldl {α : Type} {t : McSend} {r : McRecv} {f : McTurn → α → McTurn}
    (hf : ∀ x a, QuietTurn m t r x → QuietTurn m t r (f x a)) (l : List α) {x : McTurn} (hx : QuietTurn m t r x) :
    QuietTurn m t r (l.foldl f x) := List.foldlRecOn (motive := QuietTurn m t r) l f hx fun x hx a _ => hf x a hx

theorem Module.mcPump_quiet {t : McSend} {r : McRecv} (ht : t.recv = [r])
    (hchunks : ∀ i y, t.chunks[i]? = some y → y.src = none ∧ m.mcBad t i y = none) : QuietTurn m t r (m.mcPump t) := by
  unfold Module.mcPump
  split
  · exact .start ht
  · refine .foldl (fun x i hx => .foldl (fun x j hx => ?_) _ hx) _ (.start ht)
    split
    · split
      · exact hx.send hchunks _ _ _
      · exact hx
    · exact hx

theorem Module.mcSpan_quiet {t : McSend} {r : McRecv} (ht : t.recv = [r])
    (hchunks : ∀ i y, t.chunks[i]? = some y → y.src = none ∧ m.mcBad t i y = none) (j lo hi : Nat) :
    QuietTurn m t r (m.mcSpan t j lo hi) := by
  unfold Module.mcSpan
  split
  · exact .start ht
  · refine .foldl (fun x i hx => ?_) _ (.start ht)
    split
    · exact hx.send hchunks _ _ _
    · exact hx

theorem Module.mcSpan_waits {t : McSend} {r : McRecv} (ht : t.recv = [r])
    (hchunks : ∀ i y, t.chunks[i]? = some y → y.src = none ∧ m.mcBad t i y = none)
    (hstream : m.useStream (.dmaWrite t.ch 0 0) = none) (j lo hi : Nat) : (m.mcSpan t j lo hi).waits = false := by
  unfold Module.mcSpan
  split
  · rfl
  · refine (List.foldlRecOn (motive := fun x => QuietTurn m t r x ∧ x.waits = false) _ _ ⟨.start ht, rfl⟩ fun x hx i _ => ?_).2
    obtain ⟨hquiet, hgoes⟩ := hx
    split
    · exact ⟨hquiet.send hchunks _ _ _, (hquiet.send_waits hchunks hstream _ _ _).trans hgoes⟩
    · exact ⟨hquiet, hgoes⟩

/-- A transfer that is not over goes on through its bound window. -/
theorem McTurn.settle_goes_on {x : McTurn} (hfail : x.fail = none) (hmore : x.t.finished = false)
    (hbound : (x.m.binding? x.t.window.val).isNone = false)
    (hrest : (x.m.mcSend.filter fun y => !(y.window = x.t.window && y.number = x.t.number)) = []) :
    x.settle = { x.m with mcSend := [x.t] } := by
  unfold McTurn.settle McTurn.keep
  dsimp only
  rw [hfail, hmore, hbound, hrest]
  rfl

/-- A quiet turn with a receiver that waits for more is kept, with what the turn leaves of the receiver. -/
theorem QuietTurn.settled {t : McSend} {r : McRecv} {x : McTurn} {bd : Binding} (hx : QuietTurn m t r x) (hbound : m.binding? t.window.val = some bd)
    (hmc : m.mcSend.filter (fun y => !(y.window = t.window && y.number = t.number)) = []) (hdropped : r.dropped = false)
    (hmore : r.applied < chunkPos t.chunks t.chunks.length) : ∃ q, x.settle.mcSend = [{ t with recv := [q] }] ∧
      { q with sent := 0 } = { r with sent := 0 } := by
  obtain ⟨⟨q, hxt, hq⟩, hfail, hkeep⟩ := hx
  have happlied : q.applied = r.applied := (congrArg McRecv.applied hq :)
  have hqdropped : q.dropped = r.dropped := (congrArg McRecv.dropped hq :)
  have hb : x.m.binding? t.window.val = some bd := (hkeep.view (·.binding? t.window.val) fun _ => rfl).trans hbound
  have hsend : x.m.mcSend = m.mcSend := hkeep.view (·.mcSend) fun _ => rfl
  have hsettled : x.settle = { x.m with mcSend := [x.t] } := by
    refine McTurn.settle_goes_on hfail ?_ ?_ ?_
    · rw [hxt]
      simp [McSend.finished, hqdropped, hdropped, happlied, hmore]
    · rw [hxt, hb]
      rfl
    · rw [hxt, hsend]
      exact hmc
  refine ⟨q, ?_, hq⟩
  rw [hsettled, hxt]

variable {t : McSend} {bd : Binding} {r : McRecv} {y : Receiver}

theorem filter_of_transfer (hmc : s.mcSend = [t]) (l : List McRecv) :
    s.mcSend.filter (fun y => !(y.window = { t with recv := l }.window && y.number = { t with recv := l }.number)) = [] := by
  rw [hmc]
  simp

theorem binds_find_of_binding? {w : Nat} (hbound : s.binding? w = some bd) : s.binds.find? w = some bd := by
  unfold Module.binding? at hbound
  split at hbound
  · next z hz =>
    split at hbound
    · rwa [Option.some.inj hbound] at hz
    · cases hbound
  · cases hbound

/-- The transfer and the receiver that a credit names. -/
theorem credit_hit {h : Hdr} {b : List Byte} (hmc : s.mcSend = [t]) (hbound : s.binding? t.window.val = some bd) (hrecv : bd.receivers = [y])
    (hnumber : BitVec.ofNat 32 (fieldAt b 8 4) = t.number) (hnode : y.node = h.src) (hwindow : y.window.toNat = fieldAt b 0 2)
    (hgen : y.gen.toNat = fieldAt b 2 2) : (s.mcSend.findSome? fun t =>
      if t.number = BitVec.ofNat 32 (fieldAt b 8 4) then
        match s.binds.find? t.window.val with
        | none => none
        | some bd => (bd.receivers.findIdx? fun r => r.node = h.src && r.window.toNat = fieldAt b 0 2 && r.gen.toNat = fieldAt b 2 2).map
          fun i => (t, i)
      else none) = some (t, 0) := by
  have hfind := binds_find_of_binding? hbound
  rw [hmc]
  simp [hnumber, hfind, hrecv, hnode, hwindow, hgen]

theorem winCredit_answers {h : Hdr} {b : List Byte} (hboot : s.boot ≠ .off) (hmc : s.mcSend = [t])
    (hbound : s.binding? t.window.val = some bd) (ht : t.recv = [r]) (hrecv : bd.receivers = [y]) (hdropped : r.dropped = false)
    (hchunks : ∀ i y, t.chunks[i]? = some y → y.src = none ∧ s.mcBad t i y = none) (haddr : s.addressed h false = true)
    (hready : s.ready = true) (hlen : b.length = 20) (hflags : fieldAt b 4 2 % 2 = 0)
    (hnumber : BitVec.ofNat 32 (fieldAt b 8 4) = t.number) (hnode : y.node = h.src) (hwindow : y.window.toNat = fieldAt b 0 2)
    (hgen : y.gen.toNat = fieldAt b 2 2) (hmore : max r.applied (fieldAt b 12 4) < chunkPos t.chunks t.chunks.length) :
    Answers (.winCredit h b) s fun m => ∃ u q, m.mcSend = [u] ∧ u.window = t.window ∧ u.number = t.number ∧ u.recv = [q] ∧
      q.applied = max r.applied (fieldAt b 12 4) ∧ q.limit = max r.limit (fieldAt b 16 4) ∧ q.dropped = false := by
  let r' : McRecv := { r with applied := max r.applied (fieldAt b 12 4), limit := max r.limit (fieldAt b 16 4),
                              resends := if r.applied < max r.applied (fieldAt b 12 4) then 0 else r.resends }
  have hrun : winCredit h b s.toModule = ((s.popRx h.port).mcPump { t with recv := [r'] }).settle := by
    have hhit := credit_hit (h := h) hmc hbound hrecv hnumber hnode hwindow hgen
    have hsend : (s.popRx h.port).mcSend = s.mcSend := rfl
    have hbinds : (s.popRx h.port).binds = s.binds := rfl
    have hplain : ¬(fieldAt b 4 2).testBit 0 = true := by
      rw [Nat.testBit_zero]
      simp [hflags]
    unfold winCredit
    rw [decide_eq_true hlen, Module.gate_runs haddr hready]
    dsimp only
    rw [if_neg hplain, hsend, hbinds]
    generalize hfound : (List.findSome? _ s.mcSend) = found
    have : found = some (t, 0) := hfound.symm.trans hhit
    rw [this]
    dsimp only
    rw [ht]
    dsimp only [List.getElem?_cons_zero]
    exact if_neg (ne_true_of_eq_false hdropped)
  have hquiet := Module.mcPump_quiet (m := s.popRx h.port) (t := { t with recv := [r'] }) (r := r') rfl fun i z hz =>
    ⟨(hchunks i z hz).1, (Module.mcBad_congr (m := s.toModule) (Module.popRx_keeps .. |>.mono rfl) t [r'] i (hchunks i z hz).1).trans (hchunks i z hz).2⟩
  obtain ⟨q, hkept, hq⟩ := hquiet.settled hbound (filter_of_transfer hmc [r']) hdropped hmore
  refine .of_ok hboot (congrArg (ok s) hrun) ⟨_, q, hkept, rfl, rfl, rfl, ?_, ?_, ?_⟩
  · exact (congrArg McRecv.applied hq :)
  · exact (congrArg McRecv.limit hq :)
  · exact (congrArg McRecv.dropped hq :).trans hdropped

theorem multicastResend_answers (hboot : s.boot ≠ .off) (hmc : s.mcSend = [t]) (hbound : s.binding? t.window.val = some bd) (ht : t.recv = [r])
    (hdropped : r.dropped = false) (hchunks : ∀ i y, t.chunks[i]? = some y → y.src = none ∧ s.mcBad t i y = none)
    (hstream : s.useStream (.dmaWrite t.ch 0 0) = none) (hbehind : r.applied < r.sent)
    (hretries : r.resends < s.fld YWP_WIN_CFG YWP_WIN_CFG_retries) (hmore : r.applied < chunkPos t.chunks t.chunks.length) :
    Answers (.multicastResend t.window 0) s fun m => m.mcSend = [{ t with recv := [{ r with resends := r.resends + 1 }] }] ∧
      (s.rd YWP_CNT_RESENT).toNat ≤ (m.rd YWP_CNT_RESENT).toNat := by
  have hquiet : QuietTurn s.toModule t r (s.mcSpan t 0 (chunkEnd t.chunks r.applied) r.sent) := Module.mcSpan_quiet ht hchunks ..
  have hwaits : (s.mcSpan t 0 (chunkEnd t.chunks r.applied) r.sent).waits = false := Module.mcSpan_waits ht hchunks hstream ..
  have hrun : multicastResend t.window 0 s.toModule = McTurn.settle ⟨{ (s.mcSpan t 0 (chunkEnd t.chunks r.applied) r.sent).t with
        recv := setAt (s.mcSpan t 0 (chunkEnd t.chunks r.applied) r.sent).t.recv 0 { r with resends := r.resends + 1 } },
      (s.mcSpan t 0 (chunkEnd t.chunks r.applied) r.sent).fail, (s.mcSpan t 0 (chunkEnd t.chunks r.applied) r.sent).waits,
      (s.mcSpan t 0 (chunkEnd t.chunks r.applied) r.sent).m.count YWP_CNT_RESENT
        ((s.mcSpan t 0 (chunkEnd t.chunks r.applied) r.sent).m.winSeq - s.winSeq).toNat⟩ := by
    have hof : s.mcOf t.window = some t := by
      unfold Module.mcOf
      rw [hmc]
      simp
    have hgoes : ¬((s.binding? t.window.val).isNone || r.dropped || decide (r.sent ≤ r.applied) ||
        decide (s.fld YWP_WIN_CFG YWP_WIN_CFG_retries ≤ r.resends)) = true := by
      simp [hbound, hdropped, hbehind, hretries]
    unfold multicastResend
    rw [hof]
    dsimp only
    rw [show ((0 : Fin 16).val) = 0 from rfl, ht]
    dsimp only [List.getElem?_cons_zero]
    rw [if_neg hgoes]
    exact if_neg (ne_true_of_eq_false hwaits)
  generalize s.mcSpan t 0 (chunkEnd t.chunks r.applied) r.sent = turn at hquiet hrun
  obtain ⟨⟨q, hturn, -⟩, hfail, hkeep⟩ := hquiet
  have hcounted : Keeps (Fld.sending ||| Fld.regs) s.toModule (turn.m.count YWP_CNT_RESENT (turn.m.winSeq - s.winSeq).toNat) :=
    .after (Module.count_keeps ..) rfl (hkeep.mono rfl)
  have hrecv : ({ turn.t with recv := setAt turn.t.recv 0 { r with resends := r.resends + 1 } } : McSend) =
      { t with recv := [{ r with resends := r.resends + 1 }] } := by
    rw [hturn]
    rfl
  rw [hrecv, hfail] at hrun
  rw [McTurn.settle_goes_on rfl (by simp [McSend.finished, hdropped, hmore])
    (by rw [hcounted.view (·.binding? t.window.val) fun _ => rfl, hbound]; rfl)
    (by rw [hcounted.view (·.mcSend) fun _ => rfl]; exact filter_of_transfer hmc _)] at hrun
  refine .of_ok hboot (congrArg (ok s) hrun) ⟨rfl, ?_⟩
  have hsame : turn.m.rd YWP_CNT_RESENT = s.rd YWP_CNT_RESENT := Module.rd_congr (hkeep.view (·.regs) fun _ => rfl) _
  refine Nat.le_trans ?_ (Nat.le_of_eq (Module.rd_count_same_toNat turn.m YWP_CNT_RESENT _).symm)
  rw [hsame]
  have := (s.rd YWP_CNT_RESENT).isLt
  omega

theorem receiverDropped_answers {q : McRecv} {l : List Receiver} (hboot : s.boot ≠ .off) (hmc : s.mcSend = [t])
    (hbound : s.binding? t.window.val = some bd) (ht : t.recv = [r, q]) (hrecv : bd.receivers = y :: l) (hdropped : r.dropped = false)
    (hother : q.dropped = false) (hmore : r.applied < chunkPos t.chunks t.chunks.length)
    (hrest : q.applied < chunkPos t.chunks t.chunks.length) : Answers (.receiverDropped t.window 0) s fun m =>
      m.mcSend = [{ t with recv := [{ r with dropped := true }, q] }] ∧
      (m.rd YWP_CNT_DROPPED).toNat = min ((s.rd YWP_CNT_DROPPED).toNat + 1) 0xFFFFFFFF ∧
      Raised m 0x0905 255 t.window.val y.node.toNat t.number.toNat 0 := by
  have hfind := binds_find_of_binding? hbound
  let told := s.sendCredit bd.port (bd.peer y) y.node y.window.toNat y.gen.toNat 1 t.number r.applied r.limit
  have hrun : receiverDropped t.window 0 s.toModule = McTurn.settle ⟨{ t with recv := [{ r with dropped := true }, q] }, none, false,
      (told.count YWP_CNT_DROPPED 1).raise 0x0905 t.window y.node.toNat t.number.toNat 0⟩ := by
    have hof : s.mcOf t.window = some t := by
      unfold Module.mcOf
      rw [hmc]
      simp
    have hgoes : ¬(r.dropped || decide (chunkPos t.chunks t.chunks.length ≤ r.applied)) = true := by simp [hdropped, hmore]
    unfold receiverDropped
    rw [hof, hfind]
    dsimp only
    rw [show ((0 : Fin 16).val) = 0 from rfl, ht, hrecv]
    dsimp only [List.getElem?_cons_zero]
    exact if_neg hgoes
  have hkeep : Keeps (Fld.event ||| Fld.send ||| Fld.winSeq) s.toModule
      ((told.count YWP_CNT_DROPPED 1).raise 0x0905 t.window y.node.toNat t.number.toNat 0) :=
    .after (Module.raise_keeps ..) rfl <| .after (Module.count_keeps ..) rfl <| (Module.sendCredit_keeps ..).mono rfl
  have hrd := Module.rd_raise (told.count YWP_CNT_DROPPED 1) 0x0905 t.window y.node.toNat t.number.toNat 0
    (show YWP_CNT_DROPPED ∉ reportRegs by decide)
  have hraised := (told.count YWP_CNT_DROPPED 1).raise_raised 0x0905 t.window y.node.toNat t.number.toNat 0
  generalize (told.count YWP_CNT_DROPPED 1).raise 0x0905 t.window y.node.toNat t.number.toNat 0 = raised at hrun hkeep hrd hraised
  rw [McTurn.settle_goes_on rfl (by simp [McSend.finished, hother]; omega)
    (by rw [hkeep.view (·.binding? t.window.val) fun _ => rfl, hbound]; rfl)
    (by rw [hkeep.view (·.mcSend) fun _ => rfl]; exact filter_of_transfer hmc _)] at hrun
  refine .of_ok hboot (congrArg (ok s) hrun) ⟨rfl, ?_, hraised⟩
  refine (congrArg BitVec.toNat hrd).trans ((Module.rd_count_same_toNat ..).trans ?_)
  rw [Module.rd_congr ((Module.sendCredit_keeps ..).view (·.regs) fun _ => rfl)]

end

/-- Settles O47: the answers, retries and acknowledgements by their equations, and a transfer by the turns that its sends leave. -/
theorem windowAccessesComplete : Obligations.WindowAccessesComplete := by
  intro s hboot
  refine ⟨fun h status data x n y hresp hform hdst hx huse htype hw hy =>
      windowResponse_completion hboot hresp hform hdst hx huse htype hw hy,
    fun h status data hx => windowResponse_unknown hboot hx,
    fun node session seq x hx => ⟨fun htries hform hroom => winRetryTimeout_resends hboot hx htries hform hroom,
      fun n htries huse hw => winRetryTimeout_gives_up hboot hx htries huse hw⟩,
    fun e t ht hwrites hout => writeAcknowledged_engine hboot ht hwrites hout,
    fun t bd r y hmc hbound ht hrecv hdropped hchunks => ⟨fun h b haddr hready hlen hflags hnumber hnode hwindow hgen hmore =>
      winCredit_answers hboot hmc hbound ht hrecv hdropped hchunks haddr hready hlen hflags hnumber hnode hwindow hgen hmore,
      fun hstream hbehind hretries hmore => multicastResend_answers hboot hmc hbound ht hdropped hchunks hstream hbehind hretries hmore⟩,
    fun t bd r q y l hmc hbound ht hrecv hdropped hother hmore hrest =>
      receiverDropped_answers hboot hmc hbound ht hrecv hdropped hother hmore hrest⟩

end Sys2Proof.Machine
end

section
set_option Elab.async false
/-!
Resident sets, rotation and sweeps (R164, R255 to R259, R502 to R505).
-/
namespace Sys2Proof.Machine
open Sys2Proof

section
variable {m k : Module} {e sp f : EngPos} {s : State} {cl : Fin 8}

/-! ### The registers of a position -/

theorem engineReg_notReport {off : Nat} (h : 0x100000 ≤ off) (h' : off < 0x304000) : off ∉ reportRegs := fun hmem =>
  absurd ((by decide : ∀ r ∈ reportRegs, r < 0x100000 ∨ 0x304000 ≤ r) off hmem) (by omega)

theorem engStat_notReport (e : EngPos) : ENG_X_STAT e.cl e.x ∉ reportRegs :=
  engineReg_notReport (by unfold ENG_X_STAT; omega) (by unfold ENG_X_STAT; omega)

theorem engSt_notReport (e : EngPos) : ENG_X_ST e.cl e.x ∉ reportRegs :=
  engineReg_notReport (by unfold ENG_X_ST; omega) (by unfold ENG_X_ST; omega)

theorem engStat_ne_engSt (e f : EngPos) : ENG_X_STAT e.cl e.x ≠ ENG_X_ST f.cl f.x := by
  unfold ENG_X_STAT ENG_X_ST
  omega

theorem engStat_ne_map (e : EngPos) (c : Fin 8) (n : Nat) : ENG_X_STAT e.cl e.x ≠ ENG_MAP c n := by
  unfold ENG_X_STAT ENG_MAP
  omega

theorem engStat_ne_clStat (e : EngPos) (c : Fin 8) : ENG_X_STAT e.cl e.x ≠ ENG_CL_STAT c := by
  unfold ENG_X_STAT ENG_CL_STAT
  omega

theorem engSt_ne_clStat (e : EngPos) (c : Fin 8) : ENG_X_ST e.cl e.x ≠ ENG_CL_STAT c := by
  unfold ENG_X_ST ENG_CL_STAT
  omega

theorem engStat_ne (hne : e ≠ f) : ENG_X_STAT e.cl e.x ≠ ENG_X_STAT f.cl f.x := by
  obtain ⟨c, x⟩ := e
  obtain ⟨d, y⟩ := f
  intro heq
  unfold ENG_X_STAT at heq
  dsimp only at heq
  refine hne ?_
  rw [show c = d by omega, show x = y by omega]

theorem nameOf_congr (h : k.rd (ENG_X_STAT e.cl e.x) = m.rd (ENG_X_STAT e.cl e.x)) : k.nameOf e = m.nameOf e :=
  Module.fld_congr h _

theorem engState_congr (h : k.rd (ENG_X_STAT e.cl e.x) = m.rd (ENG_X_STAT e.cl e.x)) : k.engState e = m.engState e :=
  Module.fld_congr h _

theorem nameOf_lt (m : Module) (e : EngPos) : m.nameOf e < 32 := Bits.of_lt_two_pow ..

theorem nameOf_setName_same {n : Nat} (hn : n < 32) : (m.setName e n).nameOf e = n :=
  Module.fld_setFld _ _ _ _ (by decide) (by decide) hn

theorem nameOf_setName_ne {n : Nat} (hne : f ≠ e) : (m.setName e n).nameOf f = m.nameOf f :=
  Module.fld_setFld_other _ _ _ _ (engStat_ne hne)

@[simp] theorem nameOf_setEngState {v : Nat} : (m.setEngState e v).nameOf f = m.nameOf f := by
  by_cases hne : f = e
  · rw [hne]
    exact Module.fld_setFld_ne _ _ _ _ _ (by decide) (by decide) (by decide)
  · exact Module.fld_setFld_other _ _ _ _ (engStat_ne hne)

theorem engState_setEngState_same {v : Nat} (hv : v < 8) : (m.setEngState e v).engState e = v :=
  Module.fld_setFld _ _ _ _ (by decide) (by decide) hv

theorem engState_setEngState_ne {v : Nat} (hne : f ≠ e) : (m.setEngState e v).engState f = m.engState f :=
  Module.fld_setFld_other _ _ _ _ (engStat_ne hne)

@[simp] theorem rd_engStat_setSpare {c : Fin 8} {v : Nat} : (m.setSpare c v).rd (ENG_X_STAT e.cl e.x) = m.rd (ENG_X_STAT e.cl e.x) :=
  Module.rd_setFld_ne _ _ _ (engStat_ne_clStat e c)

theorem eng_setFld {off v : Nat} {f : Bits} : (m.setFld off f v).eng e = m.eng e := rfl

theorem eng_setSpare {c : Fin 8} {v : Nat} : (m.setSpare c v).eng e = m.eng e := rfl

theorem eng_setEngState {v : Nat} : (m.setEngState f v).eng e = m.eng e := rfl

theorem rd_setEng {x : Eng} {off : Nat} : (m.setEng e x).rd off = m.rd off := rfl

/-! ### A name that changes its position -/

/-- The names and states that a spare's take-over writes. -/
def Module.renamed (m : Module) (e sp : EngPos) (n state : Nat) : Module :=
  (((m.setName sp n).setName e 16).setEngState sp 1).setEngState e state

theorem renamed_names {n state : Nat} (hne : sp ≠ e) (hn : n < 32) (hs : state < 8) :
    let k := m.renamed e sp n state
    k.nameOf sp = n ∧ k.nameOf e = 16 ∧ k.engState sp = 1 ∧ k.engState e = state := by
  unfold Module.renamed
  refine ⟨?_, ?_, ?_, engState_setEngState_same hs⟩
  · rw [nameOf_setEngState, nameOf_setEngState, nameOf_setName_ne hne, nameOf_setName_same hn]
  · rw [nameOf_setEngState, nameOf_setEngState, nameOf_setName_same (by decide)]
  · rw [engState_setEngState_ne hne, engState_setEngState_same (by decide)]

theorem rd_engStat_mapEvent {c : Fin 8} {cause n old new : Nat} :
    (m.mapEvent c cause n old new).rd (ENG_X_STAT e.cl e.x) = m.rd (ENG_X_STAT e.cl e.x) :=
  Module.rd_raise _ _ _ _ _ _ (engStat_notReport e)

/-- What a spare's take-over leaves in the names and states. -/
theorem rd_swapSpare {cause state spare : Nat} : (m.swapSpare e sp cause state spare).rd (ENG_X_STAT f.cl f.x) =
    (((m.setMap e.cl (m.nameOf e) sp.x).setMap e.cl 16 e.x).renamed e sp (m.nameOf e) state).rd (ENG_X_STAT f.cl f.x) := by
  unfold Module.swapSpare
  dsimp only
  rw [rd_engStat_mapEvent, rd_engStat_mapEvent, Module.rd_setFld_ne _ _ _ (engStat_ne_engSt f e), rd_setEng]
  unfold Module.satAdd
  rw [Module.rd_setFld_ne _ _ _ (engStat_ne_clStat f e.cl), rd_engStat_setSpare]
  rfl

theorem swapSpare_names {cause state spare : Nat} (hne : sp ≠ e) (hs : state < 8) :
    let k := m.swapSpare e sp cause state spare
    k.nameOf sp = m.nameOf e ∧ k.nameOf e = 16 ∧ k.engState sp = 1 ∧ k.engState e = state := by
  dsimp only
  rw [nameOf_congr rd_swapSpare, nameOf_congr rd_swapSpare, engState_congr rd_swapSpare, engState_congr rd_swapSpare]
  exact renamed_names hne (nameOf_lt m e) hs

theorem swapSpare_engines {cause state spare : Nat} : (m.swapSpare e sp cause state spare).engines =
    (m.setEng e { m.eng e with passed := 0 }).engines := by
  unfold Module.swapSpare Module.mapEvent
  dsimp only
  rw [(Module.raise_keeps ..).view (·.engines) fun _ => rfl, (Module.raise_keeps ..).view (·.engines) fun _ => rfl]
  rfl

theorem swapSpare_rotDue {cause state spare : Nat} : (m.swapSpare e sp cause state spare).rotDue = m.rotDue := by
  unfold Module.swapSpare Module.mapEvent
  dsimp only
  rw [(Module.raise_keeps ..).view (·.rotDue) fun _ => rfl, (Module.raise_keeps ..).view (·.rotDue) fun _ => rfl]
  rfl

theorem eng_of_engines (h : k.engines = m.engines) : k.eng e = m.eng e := congrArg (SMap.get Eng.rest · (posKey e)) h

/-! ### Resident sets -/

theorem residentSetLoad_loads {n : Fin 17} {c : PortId} {i : Fin 12} {x : Stream} {p : StagePlan} {j : Nat}
    (hx : m.streams.find? c.val = some x) (hpos : m.posOf cl n = some e) (hp : x.plan.stageOf i.val = some p)
    (hj : p.member cl n = some j) (hres : p.resBytes ≠ 0) (htask : (m.eng e).task = none) (harea : m.areaTaken (m.eng e) = false)
    (hlat : m.latent = []) (hbad : m.badIn (p.resFrom + m.shareNow c i p j * p.resBytes) p.resBytes = [])
    (hholds : (m.eng e).holds c i (m.shareNow c i p j) = false) (hon : m.engOn e.cl e.x = true) :
    residentSetLoad cl n c i m = m.setEng e { m.eng e with
      sets := ((m.eng e).sets.filter fun r => !(r.c = c.val && r.stage = i.val)) ++
        [⟨c, i, m.shareNow c i p j, p.resAt j, m.bytes (p.resFrom + m.shareNow c i p j * p.resBytes) p.resBytes⟩] } := by
  have hgo : (decide (p.resBytes = 0) || (m.eng e).task.isSome || (m.eng e).holds c i (m.shareNow c i p j) ||
      !m.engOn e.cl e.x || m.areaTaken (m.eng e)) = false := by
    rw [htask, hholds, hon, harea, decide_eq_false hres]
    rfl
  unfold residentSetLoad
  simp only [hx, hpos, hp, hj]
  rw [if_neg (ne_true_of_eq_false hgo), Module.readMeets_of_clean hlat hbad]
  rfl

/-- One pass of the shares through a rotation group, whatever the members hold. -/
def Module.passShares (m : Module) (c stage : Nat) (p : StagePlan) (pos : List (Option EngPos)) (sets : List (Option ResSet)) :
    Module :=
  (List.range p.group).foldl (fun m k =>
    match (pos[k]?).getD none, (sets[(k + 1) % p.group]?).getD none with
    | some e, some r =>
      let y := m.eng e
      let others := y.sets.filter fun q => !(q.c = c && q.stage = stage)
      m.setEng e { y with sets := others ++ [{ r with first := p.resAt k }] }
    | _, _ => m) m

theorem passShares_agree (m : Module) (c stage : Nat) (p : StagePlan) (pos : List (Option EngPos)) (sets : List (Option ResSet)) :
    { m.passShares c stage p pos sets with engines := [] } = { m with engines := [] } := by
  have hstep : Agree (fun m : Module => { m with engines := [] }) m (m.passShares c stage p pos sets) := by
    refine .foldl (fun m k => ?_) _ .refl
    dsimp only
    split
    · rfl
    · exact .refl
  exact hstep

theorem rotationGroupExchange_passes {c : PortId} {i : Fin 8} {x : Stream} {p : StagePlan}
    (hx : m.streams.find? c.val = some x) (hp : x.plan.stages[i.val]? = some p) (hgroup : 2 ≤ p.group)
    (hended : (m.ctx c).exchanges i / p.group < (SMap.get (0, []) (m.ctx c).ended i.val).1) : ∃ pos sets,
    rotationGroupExchange c i m = (m.passShares c i p pos sets).setCtx c { (m.passShares c i p pos sets).ctx c with
      ended := SMap.set (0, []) (m.ctx c).ended (64 + i.val) ((m.ctx c).exchanges i + 1, []) } := by
  have hgo : ¬(decide (p.group < 2) || !(decide ((m.ctx c).exchanges i / max 1 p.group < (SMap.get (0, []) (m.ctx c).ended i.val).1) ||
      decide ((m.ctx c).exchanges i / max 1 p.group = (SMap.get (0, []) (m.ctx c).ended i.val).1) &&
        stepEnded p.group ((m.ctx c).exchanges i % max 1 p.group) (SMap.get (0, []) (m.ctx c).ended i.val).2
          (SMap.get (0, []) (m.ctx c).ended i.val).1)) = true := by
    rw [show max 1 p.group = p.group by omega, decide_eq_true hended, decide_eq_false (by omega : ¬p.group < 2)]
    simp
  unfold rotationGroupExchange
  simp only [hx, hp]
  rw [if_neg hgo]
  exact ⟨_, _, rfl⟩

/-! ### Sweeps -/

/-- What a passing sweep leaves in the marks of its position. -/
def Module.passMarked (m : Module) (e : EngPos) (full : Bool) : Module :=
  let m₁ := if full then m.setFld (ENG_X_ST e.cl e.x) ENG_X_ST_swept 1 else m
  let m₂ := m₁.setFld (ENG_X_ST e.cl e.x) ENG_X_ST_last_ok 1
  let no := if full then m₂.sweepNo + 1 else m₂.sweepNo
  ({ m₂ with sweepNo := no }.setEng e { m₂.eng e with
    passed := (m₂.eng e).passed + if full then 1 else 0, lastPass := some no }).satAdd (ENG_X_ST e.cl e.x) ENG_X_ST_passes 1

section
variable (hrun : m.entersRun = false) (hon : m.engOn e.cl e.x = true) (htask : (m.eng e).task = none)
  (hstate : m.engState e = 3 ∨ m.engState e = 4) (hname : m.nameOf e = 16) (htests : m.tests = true)
include hrun hon htask hstate hname htests

/-- Nothing keeps a spare's sweep from being recorded. -/
theorem sweep_recorded (full : Bool) : m.rampEng e = m ∧ m.engState e ≠ 1 ∧
    ¬(!m.engOn e.cl e.x || (m.eng e).task.isSome || decide (m.engState e = 5) || full &&
      !(m.tests && decide (m.nameOf e = 16) && (decide (m.engState e = 3) || decide (m.engState e = 4)))) = true := by
  refine ⟨?_, by omega, ?_⟩
  · unfold Module.rampEng
    rw [hrun]
    rfl
  · have hst : (decide (m.engState e = 3) || decide (m.engState e = 4)) = true := by
      rcases hstate with h | h <;> rw [h] <;> rfl
    rw [hon, htask, hname, htests, hst, decide_eq_false (by omega : m.engState e ≠ 5)]
    cases full <;> decide

theorem sweepDone_partial : sweepDone e true false m = m.passMarked e false := by
  obtain ⟨hramp, hne1, hgo⟩ := sweep_recorded hrun hon htask hstate hname htests false
  unfold sweepDone
  dsimp only
  rw [hramp, if_neg hgo, decide_eq_false hne1, Bool.and_false]
  rfl

theorem sweepDone_full : sweepDone e true true m = if m.engState e = 3 then (m.passMarked e true).setSpare e.cl 0
    else if 16 ≤ (m.eng e).passed + 1 then ((m.passMarked e true).setEngState e 3).setSpare e.cl 0
    else m.passMarked e true := by
  obtain ⟨hramp, -, hgo⟩ := sweep_recorded hrun hon htask hstate hname htests true
  unfold sweepDone
  dsimp only
  rw [hramp, if_neg hgo]
  rfl

theorem sweepDone_fails : sweepDone e false true m =
    ((m.setFld (ENG_X_ST e.cl e.x) ENG_X_ST_swept 1).setFld (ENG_X_ST e.cl e.x) ENG_X_ST_last_ok 0).sweepFailed e := by
  obtain ⟨hramp, -, hgo⟩ := sweep_recorded hrun hon htask hstate hname htests true
  unfold sweepDone
  dsimp only
  rw [hramp, if_neg hgo]
  rfl

end

theorem Module.rd_faultSeq (m : Module) {cls off : Nat} (code ctx : Nat) (seq : Word) (p0 p1 p2 p3 : Nat) (hcls : cls ≤ 16)
    (h : off ∉ reportRegs) : (m.faultSeq cls code ctx seq p0 p1 p2 p3).rd off = m.rd off :=
  Agree.unreported_rd (offs := []) (m.faultSeq_unreported hcls ..) List.not_mem_nil h

/-- The marks of a failed sweep, before its report. -/
def Module.failMarked (m : Module) (e : EngPos) : Module :=
  ((m.setFld (ENG_X_STAT e.cl e.x) ENG_X_STAT_last_fault 5).setEng e
    { m.eng e with passed := 0, sets := [] }).setFld (ENG_X_ST e.cl e.x) ENG_X_ST_passes 0

theorem bit_last_ok_failMarked : (m.failMarked e).bit (ENG_X_ST e.cl e.x) ENG_X_ST_last_ok =
    m.bit (ENG_X_ST e.cl e.x) ENG_X_ST_last_ok :=
  (Module.bit_setFld_ne _ _ _ _ _ (by decide) (by decide) (by decide)).trans
    (Module.bit_setFld_other _ _ _ _ (engStat_ne_engSt e e).symm)

theorem sweepFailed_marks (hname : m.nameOf e = 16) (hstate : m.engState e = 3 ∨ m.engState e = 4) : ∃ p0,
    m.sweepFailed e = if m.engState e = 4
      then ((m.failMarked e).faultSeq 2 0x0501 0xFF 0 p0 0 0 e.x).setEngState e 5
      else (((m.failMarked e).faultSeq 2 0x0501 0xFF 0 p0 0 0 e.x).setEngState e 4).setSpare e.cl 2 := by
  unfold Module.sweepFailed
  dsimp only
  by_cases h4 : m.engState e = 4
  · exact ⟨_, (if_pos h4).trans (if_pos h4).symm⟩
  · exact ⟨_, ((if_neg h4).trans (if_pos hname)).trans (if_neg h4).symm⟩

theorem failMarked_reported {code : Nat} {p0 p2 p3 : Nat} : (((m.failMarked e).faultSeq 2 code 0xFF 0 p0 0 p2 p3).eng e).passed = 0 := by
  rw [eng_of_engines ((Module.faultSeq_keeps ..).view (·.engines) fun _ => rfl)]
  unfold Module.failMarked
  rw [eng_setFld, Module.eng_setEng_same]

theorem failMarked_reported_ok {code : Nat} {p0 p2 p3 : Nat} :
    ((m.failMarked e).faultSeq 2 code 0xFF 0 p0 0 p2 p3).bit (ENG_X_ST e.cl e.x) ENG_X_ST_last_ok =
      m.bit (ENG_X_ST e.cl e.x) ENG_X_ST_last_ok :=
  (Module.bit_congr (Module.rd_faultSeq _ _ _ _ _ _ _ _ (by decide) (engSt_notReport e)) _).trans bit_last_ok_failMarked

theorem bit_engSt_setEngState {v : Nat} : (m.setEngState f v).bit (ENG_X_ST e.cl e.x) ENG_X_ST_last_ok =
    m.bit (ENG_X_ST e.cl e.x) ENG_X_ST_last_ok := Module.bit_setFld_other _ _ _ _ (engStat_ne_engSt f e).symm

theorem bit_engSt_setSpare {c : Fin 8} {v : Nat} : (m.setSpare c v).bit (ENG_X_ST e.cl e.x) ENG_X_ST_last_ok =
    m.bit (ENG_X_ST e.cl e.x) ENG_X_ST_last_ok := Module.bit_setFld_other _ _ _ _ (engSt_ne_clStat e c)

/-- A spare that fails its sweep is quarantined, and OFFLINE when it was quarantined already (R504). -/
theorem sweepFailed_moves (hname : m.nameOf e = 16) (hstate : m.engState e = 3 ∨ m.engState e = 4) :
    (m.sweepFailed e).engState e = (if m.engState e = 4 then 5 else 4) ∧ ((m.sweepFailed e).eng e).passed = 0 ∧
      (m.sweepFailed e).bit (ENG_X_ST e.cl e.x) ENG_X_ST_last_ok = m.bit (ENG_X_ST e.cl e.x) ENG_X_ST_last_ok := by
  obtain ⟨p0, heq⟩ := sweepFailed_marks hname hstate
  rw [heq]
  have heng := failMarked_reported (m := m) (e := e) (code := 0x0501) (p0 := p0) (p2 := 0) (p3 := e.x)
  have hok := failMarked_reported_ok (m := m) (e := e) (code := 0x0501) (p0 := p0) (p2 := 0) (p3 := e.x)
  generalize (m.failMarked e).faultSeq 2 0x0501 0xFF 0 p0 0 0 e.x = k at heng hok ⊢
  by_cases h4 : m.engState e = 4
  · rw [if_pos h4, if_pos h4]
    exact ⟨engState_setEngState_same (by decide), heng, bit_engSt_setEngState.trans hok⟩
  · rw [if_neg h4, if_neg h4]
    exact ⟨(engState_congr rd_engStat_setSpare).trans (engState_setEngState_same (by decide)), heng,
      bit_engSt_setSpare.trans (bit_engSt_setEngState.trans hok)⟩

theorem eng_satAdd {off : Nat} {f : Bits} {n : Nat} : (m.satAdd off f n).eng e = m.eng e := rfl

theorem passMarked_eng {full : Bool} : ((m.passMarked e full).eng e).passed = (m.eng e).passed + if full then 1 else 0 := by
  unfold Module.passMarked
  dsimp only
  rw [eng_satAdd, Module.eng_setEng_same]
  cases full <;> rfl

theorem passMarked_ok {full : Bool} : (m.passMarked e full).bit (ENG_X_ST e.cl e.x) ENG_X_ST_last_ok = true := by
  refine (Module.bit_setFld_ne _ _ _ _ _ (by decide) (by decide) (by decide)).trans ?_
  exact Module.bit_setFld _ _ _ true (by decide) (by decide)

theorem passMarked_state {full : Bool} : (m.passMarked e full).engState e = m.engState e := by
  refine (Module.fld_setFld_other _ _ _ _ (engStat_ne_engSt e e)).trans ?_
  refine (Module.fld_setFld_other _ _ _ _ (engStat_ne_engSt e e)).trans ?_
  cases full
  · rfl
  · exact Module.fld_setFld_other _ _ _ _ (engStat_ne_engSt e e)

end

/-- Settles O26: each unit command writes its own few marks, so each clause reads them back; a spare's take-over writes the
names and states of two different positions, and its reports touch neither. -/
theorem residencyRotationSweepsComplete : Obligations.ResidencyRotationSweepsComplete := by
  unfold Obligations.ResidencyRotationSweepsComplete
  intro cl s hon
  refine ⟨?_, ?_, ?_, ?_, ?_, ?_, ?_, ?_⟩
  case refine_1 =>
    intro n c i e x p k hx hpos hp hk hres htask harea hlat hbad hholds hengOn
    refine .of_ok hon (congrArg (ok s) (residentSetLoad_loads hx hpos hp hk hres htask harea hlat hbad hholds hengOn)) ?_
    refine ⟨⟨⟨c, i, s.shareNow c i p k, p.resAt k, s.bytes (p.resFrom + s.shareNow c i p k * p.resBytes) p.resBytes⟩, ?_, rfl, rfl, rfl, rfl⟩, rfl, fun f hf => Module.eng_setEng_ne _ _ hf⟩
    rw [Module.eng_setEng_same]
    exact List.mem_append_right _ (List.mem_singleton_self _)
  case refine_2 =>
    intro c i x p hx hp hgroup hended
    obtain ⟨pos, sets, heq⟩ := rotationGroupExchange_passes hx hp hgroup hended
    refine .of_ok hon (congrArg (ok s) heq) ⟨?_, ?_⟩
    · unfold Ctx.exchanges
      rw [Module.ctx_setCtx_same, SMap.get_set_same]
    · exact congrArg (fun m : Module => { m with ctxs := [] }) (passShares_agree s.toModule c i p pos sets)
  case refine_3 =>
    intro hspare hpower hdue
    refine .of_ok hon rfl ?_
    unfold rotationDue
    exact if_neg (by simp [hdue, hpower, Option.isSome_iff_ne_none.mp hspare])
  case refine_4 =>
    intro sp e hsp hpos hne hecl hspcl hdue hfree hassigned hpassed
    let m₁ := ({ s.toModule with rotDue := s.rotDue.filter (· ≠ cl.val) }.setEng sp
      { s.eng sp with sets := (s.eng e).sets }).setEng e { s.eng e with sets := [] }
    have heq : rotation cl s.toModule = m₁.swapSpare e sp 1 3 1 := by
      have hother : ({ s.toModule with rotDue := s.rotDue.filter (· ≠ cl.val) }.setEng sp
          { s.eng sp with sets := (s.eng e).sets }).eng e = s.eng e := Module.eng_setEng_ne _ _ hne.symm
      unfold rotation
      simp only [hsp, hpos]
      rw [if_neg (by simp [hdue, hfree, hassigned]; omega), show ({ s.toModule with rotDue := s.rotDue.filter (· ≠ cl.val) } : Module).eng sp = s.eng sp from rfl, hother]
    obtain ⟨hn, hn', hs, hs'⟩ := swapSpare_names (m := m₁) (cause := 1) (spare := 1) hne (by decide : 3 < 8)
    have heng := swapSpare_engines (m := m₁) (e := e) (sp := sp) (cause := 1) (state := 3) (spare := 1)
    refine .of_ok hon (congrArg (ok s) heq) ⟨hn, hn', hs, hs', ?_, ?_, ?_⟩
    · rw [eng_of_engines heng, Module.eng_setEng_ne _ _ hne, Module.eng_setEng_ne _ _ hne, Module.eng_setEng_same]
    · rw [eng_of_engines heng, Module.eng_setEng_same, Module.eng_setEng_same]
    · rw [swapSpare_rotDue]
      simp [m₁, Module.setEng]
  case refine_5 => exact .of_ok hon rfl rfl
  case refine_6 =>
    intro e full hrun hengOn htask hstate hname htests
    cases full
    · refine .of_ok hon (congrArg (ok s) (sweepDone_partial hrun hengOn htask (.inl hstate) hname htests)) ?_
      exact ⟨passMarked_eng, passMarked_ok, passMarked_state.trans hstate⟩
    · have heq := (sweepDone_full hrun hengOn htask (.inl hstate) hname htests).trans (if_pos hstate)
      refine .of_ok hon (congrArg (ok s) heq) ⟨?_, bit_engSt_setSpare.trans passMarked_ok,
        (engState_congr rd_engStat_setSpare).trans (passMarked_state.trans hstate)⟩
      rw [eng_setSpare, passMarked_eng]
  case refine_7 =>
    intro e hrun hengOn htask hstate hname htests hpassed
    have heq : sweepDone e true true s.toModule = ((s.passMarked e true).setEngState e 3).setSpare e.cl 0 := by
      have hmany : 16 ≤ (s.eng e).passed + 1 := by omega
      refine (sweepDone_full hrun hengOn htask (.inr hstate) hname htests).trans ?_
      rw [if_neg (by omega), if_pos hmany]
    refine .of_ok hon (congrArg (ok s) heq) ⟨?_, ?_⟩
    · exact (engState_congr rd_engStat_setSpare).trans (engState_setEngState_same (by decide))
    · rw [eng_setSpare, eng_setEngState, passMarked_eng, hpassed, if_pos rfl]
  case refine_8 =>
    intro e hrun hengOn htask hstate hname htests
    let m₂ := (s.setFld (ENG_X_ST e.cl e.x) ENG_X_ST_swept 1).setFld (ENG_X_ST e.cl e.x) ENG_X_ST_last_ok 0
    have heq : sweepDone e false true s.toModule = m₂.sweepFailed e := sweepDone_fails hrun hengOn htask hstate hname htests
    have hrd : m₂.rd (ENG_X_STAT e.cl e.x) = s.rd (ENG_X_STAT e.cl e.x) :=
      (Module.rd_setFld_ne _ _ _ (engStat_ne_engSt e e)).trans (Module.rd_setFld_ne _ _ _ (engStat_ne_engSt e e))
    have hst : m₂.engState e = s.engState e := engState_congr hrd
    obtain ⟨hmoved, hpassed, hok⟩ := sweepFailed_moves (m := m₂) ((nameOf_congr hrd).trans hname) (by rw [hst]; exact hstate)
    refine .of_ok hon (congrArg (ok s) heq) ⟨hmoved.trans (by rw [hst]), hpassed, hok.trans ?_⟩
    exact Module.bit_setFld _ _ _ false (by decide) (by decide)

end Sys2Proof.Machine
end

section
set_option Elab.async false
/-!
Clip rings and deliveries (R325 to R328, R349, R350).
-/
namespace Sys2Proof.Machine
open Sys2Proof

section
variable {s : State} {m k : Module} {c j : Nat} {r : Region} {y : Clip} {h : CmdHdr} {x : Session}

/-! ### The header of a ring -/

theorem sound_of_clear (hp : m.poison = []) (hu : m.ueSectors = []) (hl : m.latent = []) (hg : m.gather = []) : m.Sound :=
  ⟨⟨hp, hu, hl⟩, fun g e he => by
    rw [hg] at he
    cases he⟩

theorem SMap.get_of_find? {α : Type} (d : α) {t : SMap α} {n : Nat} {v : α} (h : t.find? n = some v) : SMap.get d t n = v := by
  rw [SMap.get, h, Option.getD_some]

/-- The header that a ring's state stands for, with its slot size and number of slots. -/
def clipBytes (g : Nat × Nat) (x : Clip) : List Byte :=
  leBytes 4 g.1 ++ leBytes 2 g.2 ++ leBytes 2 (x.frozen.toNat + 2 * x.pend.toNat) ++
    leBytes 4 x.newest.toNat ++ leBytes 4 x.seq.toNat ++ leBytes 4 x.left ++ leBytes 4 x.dropped ++ leBytes 40 0

section
variable (g : Nat × Nat) (y : Clip)

theorem length_clipBytes : (clipBytes g y).length = 64 := by simp [clipBytes, length_leBytes]

theorem clipBytes_flags : (clipBytes g y)[6]? = (leBytes 2 (y.frozen.toNat + 2 * y.pend.toNat))[0]? := by
  unfold clipBytes
  iterate 5 rw [List.getElem?_append_left (by simp [length_leBytes])]
  rw [List.getElem?_append_right (by simp [length_leBytes])]
  simp [length_leBytes]

theorem clipBytes_newest {i : Nat} (hi : i < 4) : (clipBytes g y)[8 + i]? = (leBytes 4 y.newest.toNat)[i]? := by
  unfold clipBytes
  iterate 4 rw [List.getElem?_append_left (by simp [length_leBytes]; omega)]
  rw [List.getElem?_append_right (by simp [length_leBytes])]
  simp [length_leBytes]

theorem clipBytes_dropped {i : Nat} (hi : i < 4) : (clipBytes g y)[20 + i]? = (leBytes 4 y.dropped)[i]? := by
  unfold clipBytes
  rw [List.getElem?_append_left (by simp [length_leBytes]; omega), List.getElem?_append_right (by simp [length_leBytes])]
  simp [length_leBytes]

end

/-- The module has just written the ring's header. -/
structure HeaderWritten (m k : Module) (r : Region) (y : Clip) : Prop where
  keeps : Keeps (Fld.mem ||| Fld.gather ||| Fld.gatherAge ||| Fld.regs) m k
  stores : ∃ g, Stores m k r.base (clipBytes g y)

theorem clipHeader_written (hs : m.Sound) (hr : m.region? (m.rd (NIS_OUT_CLIP c j)) = some r)
    (hy : m.clips.find? (4 * c + j) = some y) : HeaderWritten m (m.clipHeader c j) r y := by
  have heq : m.clipHeader c j = m.store r.base (clipBytes (m.clipSlots c j r) y) := by
    unfold Module.clipHeader
    rw [hr]
    dsimp only
    rw [SMap.get_of_find? _ hy]
    rfl
  rw [heq]
  exact ⟨hs.clean.store_keeps _ _, _, (hs.store _ _).2⟩

namespace HeaderWritten

theorem byte {i : Nat} (hw : HeaderWritten m k r y) (hi : i < 64) : ∃ g, k.byte (r.base + i) = (clipBytes g y)[i]?.getD 0 := by
  obtain ⟨g, hstores⟩ := hw.stores
  refine ⟨g, ?_⟩
  rw [hstores, if_pos ⟨by omega, by rw [length_clipBytes]; omega⟩, Nat.add_sub_cancel_left]

theorem dropped {i : Nat} (hw : HeaderWritten m k r y) (hi : i < 4) : k.byte (r.base + 20 + i) = (leBytes 4 y.dropped)[i]?.getD 0 := by
  obtain ⟨g, hbyte⟩ := hw.byte (i := 20 + i) (by omega)
  rw [Nat.add_assoc, hbyte, clipBytes_dropped _ _ hi]

theorem newest {i : Nat} (hw : HeaderWritten m k r y) (hi : i < 4) :
    k.byte (r.base + 8 + i) = (leBytes 4 y.newest.toNat)[i]?.getD 0 := by
  obtain ⟨g, hbyte⟩ := hw.byte (i := 8 + i) (by omega)
  rw [Nat.add_assoc, hbyte, clipBytes_newest _ _ hi]

theorem flags (hw : HeaderWritten m k r y) (hf : y.frozen = false) (hp : y.pend = false) : k.byte (r.base + 6) = 0 := by
  obtain ⟨g, hbyte⟩ := hw.byte (i := 6) (by omega)
  rw [hbyte, clipBytes_flags, hf, hp]
  rfl

theorem outside {a : Nat} (hw : HeaderWritten m k r y) (ha : a < r.base ∨ r.base + 64 ≤ a) : k.byte a = m.byte a := by
  obtain ⟨g, hstores⟩ := hw.stores
  exact hstores.out (by rwa [length_clipBytes])

theorem clips (hw : HeaderWritten m k r y) : k.clips = m.clips := hw.keeps.view (·.clips) fun _ => rfl

theorem planMoves (hw : HeaderWritten m k r y) : k.planMoves = m.planMoves := hw.keeps.view (·.planMoves) fun _ => rfl

theorem sessions (hw : HeaderWritten m k r y) : k.sessions = m.sessions := hw.keeps.view (·.sessions) fun _ => rfl

end HeaderWritten

/-! ### Moves of a plan -/

theorem planNext_stays {ch : Nat} (hph : (m.chan ch).phase ≠ .idle) : m.planNext ch = m := by
  unfold Module.planNext
  exact if_pos (by simp [hph])

theorem planNext_of_none {ch : Nat} (hm : m.planMoves = []) : m.planNext ch = m := by
  unfold Module.planNext
  dsimp only
  rw [hm]
  exact ite_self _

theorem foldl_planNext_of_none (l : List Nat) (hm : m.planMoves = []) : l.foldl Module.planNext m = m := by
  induction l with
  | nil => rfl
  | cons ch l ih => rw [List.foldl_cons, planNext_of_none hm, ih]

theorem foldl_planNext_clips (l : List Nat) (m : Module) : (l.foldl Module.planNext m).clips = m.clips :=
  (Keeps.foldl (fun m ch => m.planNext_keeps ch) l .refl : Keeps (Fld.dmaMove ||| Fld.planMoves) m _).view (·.clips) fun _ => rfl

theorem planMove_waits {st : Stream} {i ch : Nat} {mv : PlanMove} {d : Desc}
    (hch : st.plan.channels[i % max 1 st.plan.channels.length]? = some ch) (hph : (m.chan ch).phase ≠ .idle) :
    m.planMove st i mv d = { m with planMoves := m.planMoves ++ [PlanJob.mk (BitVec.ofNat 6 ch).toFin mv d] } := by
  unfold Module.planMove
  rw [hch]
  exact planNext_stays hph

/-! ### Copies of a ring -/

section
variable {c : PortId} {j : Fin 4} {st : Stream}

theorem clipFrameCopy_runs (hst : m.streams.find? c.val = some st) (hr : m.region? (m.rd (NIS_OUT_CLIP c j)) = some r)
    (hdest : m.outDest c j NIS_OUT_DEST_clip = true) (hf : (m.ctx c).unitsEnded (48 + j.val) < m.framesOut c st)
    (hy : m.clips.find? (4 * c.val + j.val) = some y) : clipFrameCopy c j m =
      let k := m.setCtx c ((m.ctx c).progress (48 + j.val))
      let f := (m.ctx c).unitsEnded (48 + j.val)
      if y.frozen then
        { k with clips := k.clips.insert (4 * c.val + j.val) { y with dropped := min (y.dropped + 1) 0xFFFFFFFF } }.clipHeader c j
      else k.planMove st j.val (.clip c j (BitVec.ofNat 32 f))
        (planDesc (((k.region? (k.rd (NIS_OUT_REGION c j))).map (·.base)).getD 0 +
            f % max 1 (k.fld (NIS_OUT_CFG c j) NIS_OUT_CFG_slots) * (k.outGeom c j).slotBytes)
          (r.base + 256 + f % max 1 (k.clipSlots c j r).2 * (k.clipSlots c j r).1) (k.outGeom c j).slotBytes 1
          (k.outGeom c j).slotBytes (k.outGeom c j).slotBytes) := by
  have hgo : ¬(!m.outDest c j NIS_OUT_DEST_clip || decide (m.framesOut c st ≤ (m.ctx c).unitsEnded (48 + j.val))) = true := by
    simp [hdest, hf]
  have hget : SMap.get Clip.rest (m.setCtx c ((m.ctx c).progress (48 + j.val))).clips (4 * c.val + j.val) = y :=
    SMap.get_of_find? _ hy
  unfold clipFrameCopy
  rw [hst, hr]
  dsimp only
  rw [if_neg hgo, hget]

theorem clipFrameCopy_skips (hon : s.boot ≠ .off) (hs : s.Sound) (hst : s.streams.find? c.val = some st)
    (hr : s.region? (s.rd (NIS_OUT_CLIP c j)) = some r)
    (hdest : s.outDest c j NIS_OUT_DEST_clip = true) (hf : (s.ctx c).unitsEnded (48 + j.val) < s.framesOut c st)
    (hy : s.clips.find? (4 * c.val + j.val) = some y) (hfrozen : y.frozen = true) :
    Answers (.clipFrameCopy c j) s fun m => m.planMoves = s.planMoves ∧
      m.clips.find? (4 * c.val + j.val) = some { y with dropped := min (y.dropped + 1) 0xFFFFFFFF } ∧
      (∀ i < 4, m.byte (r.base + 20 + i) = (leBytes 4 (min (y.dropped + 1) 0xFFFFFFFF))[i]?.getD 0) ∧
      ∀ a, a < r.base ∨ r.base + 64 ≤ a → m.byte a = s.byte a := by
  have hrun := (clipFrameCopy_runs hst hr hdest hf hy).trans (if_pos hfrozen)
  let k : Module := { s.setCtx c ((s.ctx c).progress (48 + j.val)) with
    clips := s.clips.insert (4 * c.val + j.val) { y with dropped := min (y.dropped + 1) 0xFFFFFFFF } }
  have hw := clipHeader_written (m := k) (c := c) (j := j) ⟨⟨hs.clean.poison, hs.clean.ueSectors, hs.clean.latent⟩, hs.wf⟩ hr
    (SMap.find?_insert_same ..)
  refine .of_ok hon (congrArg (ok s) hrun) ⟨hw.planMoves, ?_, fun i hi => hw.dropped hi, fun a ha => hw.outside ha⟩
  exact (congrArg (SMap.find? · _) hw.clips).trans (SMap.find?_insert_same ..)

theorem clipFrameCopy_queues {ch : Nat} (hon : s.boot ≠ .off) (hst : s.streams.find? c.val = some st)
    (hr : s.region? (s.rd (NIS_OUT_CLIP c j)) = some r)
    (hdest : s.outDest c j NIS_OUT_DEST_clip = true) (hf : (s.ctx c).unitsEnded (48 + j.val) < s.framesOut c st)
    (hy : s.clips.find? (4 * c.val + j.val) = some y) (hfrozen : y.frozen = false)
    (hch : st.plan.channels[j.val % max 1 st.plan.channels.length]? = some ch) (hph : (s.chan ch).phase ≠ .idle) :
    Answers (.clipFrameCopy c j) s fun m => m.clips = s.clips ∧ m.mem = s.mem ∧
      ∃ q, m.planMoves = s.planMoves ++ [q] ∧ q.ch.val = ch % 64 ∧
        q.mv = .clip c j (BitVec.ofNat 32 ((s.ctx c).unitsEnded (48 + j.val))) ∧
        q.desc.rowBytes = (s.outGeom c j).slotBytes ∧
        q.desc.dst = r.base + 256 + (s.ctx c).unitsEnded (48 + j.val) % max 1 (s.clipSlots c j r).2 * (s.clipSlots c j r).1 := by
  have hrun := (clipFrameCopy_runs hst hr hdest hf hy).trans ((if_neg (by simp [hfrozen])).trans (planMove_waits hch hph))
  refine .of_ok hon (congrArg (ok s) hrun) ⟨rfl, rfl, _, rfl, ?_, rfl, rfl, rfl⟩
  exact BitVec.toNat_ofNat ..

/-- A ring whose header takes in the copy of a frame. -/
def Module.clipTaken (m : Module) (c j : Nat) (y : Clip) (f seq : Word) (rest : List Word) : Module :=
  let left := if y.pend then y.left - 1 else y.left
  let k := { m with clips := m.clips.insert (4 * c + j) { y with newest := f, seq := seq, left := left, done := rest } }
  if y.pend && left = 0 then k.clipFreeze c j else k

theorem clipTaken_find (m : Module) (y : Clip) (f seq : Word) (rest : List Word) :
    ∃ z, (m.clipTaken c j y f seq rest).clips.find? (4 * c.val + j.val) = some z ∧ z.newest = f ∧ z.done = rest ∧
      z.frozen = (y.frozen || y.pend && y.left = 1 || y.pend && y.left = 0) := by
  unfold Module.clipTaken
  dsimp only
  cases hp : y.pend with
  | false => exact ⟨_, SMap.find?_insert_same .., rfl, rfl, by simp⟩
  | true =>
    by_cases hleft : y.left - 1 = 0
    · have hend : decide (y.left = 1) = true ∨ decide (y.left = 0) = true := by
        simp only [decide_eq_true_eq]
        omega
      rw [if_pos rfl, if_pos (by simp [hleft])]
      refine ⟨_, (SMap.find?_adjust_same ..).trans (congrArg (Option.map _) (SMap.find?_insert_same ..)), rfl, rfl, ?_⟩
      rcases hend with h | h <;> simp [h]
    · rw [if_pos rfl, if_neg (by simp [hleft])]
      have h1 : decide (y.left = 1) = false := decide_eq_false (by omega)
      have h0 : decide (y.left = 0) = false := decide_eq_false (by omega)
      exact ⟨_, SMap.find?_insert_same .., rfl, rfl, by simp [h1, h0]⟩

/-- The module but for the rings' states and the moves that wait. -/
def Module.beyondClips (m : Module) : Module := { m with clips := [], planMoves := [] }

section
variable (hsame : k.beyondClips = m.beyondClips)
include hsame

theorem sound_beyond (hs : m.Sound) : k.Sound := by
  have hgather : k.gather = m.gather := (congrArg Module.gather hsame :)
  refine ⟨⟨(congrArg Module.poison hsame :).trans hs.clean.poison, (congrArg Module.ueSectors hsame :).trans hs.clean.ueSectors,
      (congrArg Module.latent hsame :).trans hs.clean.latent⟩, fun g e he => hs.wf g e ?_⟩
  rwa [hgather] at he

theorem ringRegion_beyond (off : Nat) : k.region? (k.rd off) = m.region? (m.rd off) :=
  (congrArg (fun m : Module => m.region? (m.rd off)) hsame :)

theorem byte_beyond (a : Nat) : k.byte a = m.byte a := (congrArg (fun m : Module => m.byte a) hsame :)

theorem sessions_beyond : k.sessions = m.sessions := (congrArg Module.sessions hsame :)

end

/-- Taking a copy in changes the ring's state and what waits of its moves. -/
theorem clipTaken_agrees (m : Module) (y : Clip) (f seq : Word) (rest : List Word) :
    (m.clipTaken c j y f seq rest).beyondClips = m.beyondClips ∧
      (m.planMoves = [] → (m.clipTaken c j y f seq rest).planMoves = []) := by
  unfold Module.clipTaken
  dsimp only
  generalize (if y.pend = true then y.left - 1 else y.left) = left
  by_cases hp : (y.pend && decide (left = 0)) = true
  · rw [if_pos hp]
    refine ⟨rfl, fun hm => ?_⟩
    unfold Module.clipFreeze
    dsimp only
    rw [hm]
    rfl
  · rw [if_neg hp]
    exact ⟨rfl, id⟩

theorem clipHeaderUpdate_runs {f : Word} {l : List Word} (hy : m.clips.find? (4 * c.val + j.val) = some y)
    (hr : m.region? (m.rd (NIS_OUT_CLIP c j)) = some r) (hdone : y.done = f :: l) : ∃ (seq : Word) (chans : List Nat),
    clipHeaderUpdate c j m = chans.foldl Module.planNext ((m.clipTaken c j y f seq l).clipHeader c j) := by
  unfold clipHeaderUpdate
  dsimp only
  rw [hy, hr]
  dsimp only
  rw [hdone]
  exact ⟨_, _, rfl⟩

theorem clipHeaderUpdate_answers {f : Word} {l : List Word} (hon : s.boot ≠ .off) (hs : s.Sound)
    (hy : s.clips.find? (4 * c.val + j.val) = some y) (hr : s.region? (s.rd (NIS_OUT_CLIP c j)) = some r)
    (hdone : y.done = f :: l) : Answers (.clipHeaderUpdate c j) s fun m =>
      (∃ z, m.clips.find? (4 * c.val + j.val) = some z ∧ z.newest = f ∧ z.done = l ∧
        z.frozen = (y.frozen || y.pend && y.left = 1 || y.pend && y.left = 0)) ∧
      (s.planMoves = [] → (∀ i < 4, m.byte (r.base + 8 + i) = (leBytes 4 f.toNat)[i]?.getD 0) ∧
        ∀ a, a < r.base ∨ r.base + 64 ≤ a → m.byte a = s.byte a) := by
  obtain ⟨seq, chans, hrun⟩ := clipHeaderUpdate_runs hy hr hdone
  obtain ⟨z, hz, hnewest, hrest, hfrozen⟩ := clipTaken_find (c := c) (j := j) s.toModule y f seq l
  obtain ⟨hsame, hnone⟩ := clipTaken_agrees (c := c) (j := j) s.toModule y f seq l
  have hw := clipHeader_written (c := c) (j := j) (sound_beyond hsame hs) ((ringRegion_beyond hsame _).trans hr) hz
  have hbyte := byte_beyond hsame
  generalize s.clipTaken c j y f seq l = k at hw hz hnone hbyte hrun
  generalize k.clipHeader c j = w at hw hrun
  refine .of_ok hon (congrArg (ok s) hrun) ⟨⟨z, ?_, hnewest, hrest, hfrozen⟩, fun hm => ?_⟩
  · rw [foldl_planNext_clips, hw.clips, hz]
  · rw [foldl_planNext_of_none _ (hw.planMoves.trans (hnone hm))]
    exact ⟨fun i hi => (hw.newest hi).trans (by rw [hnewest]), fun a ha => (hw.outside ha).trans (hbyte a)⟩

/-! ### CLIP_CTL -/

theorem clipCtl_single {region : Word} {f : Module → Nat → Nat → Module} {q : CmdRef} (hl : m.clipsOf region = [(c.val, j.val)]) :
    clipCtl region f q m = ((f m c j).clipHeader c j).complete q stOk 0 := by
  unfold clipCtl
  rw [hl]
  exact if_neg Bool.false_ne_true

theorem clipCtl_none {region : Word} {f : Module → Nat → Nat → Module} {q : CmdRef} (hl : m.clipsOf region = []) :
    clipCtl region f q m = m.complete q stRefused 0 := by
  unfold clipCtl
  rw [hl]
  exact if_pos rfl

/-- A change of one ring, its header and the completion. -/
theorem clipCtl_answers {region : Word} {form : List Byte → Bool} {i : Instr} {f : Module → Nat → Nat → Module} {z : Clip}
    (hst : Startable s h 13 form x) (hs : s.Sound) (hr : s.region? (s.rd (NIS_OUT_CLIP c j)) = some r)
    (hexec : exec i s = ok s (s.toModule.command h 13 form (clipCtl region f))) (hl : s.clipsOf region = [(c.val, j.val)])
    (hsame : (f (s.toModule.begun h 13 x) c j).beyondClips = (s.toModule.begun h 13 x).beyondClips)
    (hz : (f (s.toModule.begun h 13 x) c j).clips.find? (4 * c.val + j.val) = some z) : Answers i s fun m =>
      m.clips.find? (4 * c.val + j.val) = some z ∧ (z.frozen = false → z.pend = false → m.byte (r.base + 6) = 0) ∧
        Completes m h 13 x 0 0 := by
  have hrun := clipCtl_single (m := s.toModule.begun h 13 x) (f := f) (q := ⟨h.session, x.gen, h.tag, BitVec.ofNat 8 13⟩) hl
  refine hst.answers hexec ?_
  rw [hrun]
  generalize f (s.toModule.begun h 13 x) c j = k at hsame hz
  have hw := clipHeader_written (c := c) (j := j) (sound_beyond hsame ⟨⟨hs.clean.poison, hs.clean.ueSectors, hs.clean.latent⟩, hs.wf⟩)
    ((ringRegion_beyond hsame _).trans hr) hz
  refine ⟨?_, fun hf hp => ?_, completes_of_begun s.toModule (hw.sessions.trans (sessions_beyond hsame)) stOk 0⟩
  · rw [(Module.complete_keeps ..).view (·.clips) fun _ => rfl, hw.clips, hz]
  · exact (byte_congr ((Module.complete_keeps ..).view (·.mem) fun _ => rfl)
      ((Module.complete_keeps ..).view (·.gather) fun _ => rfl) _).trans (hw.flags hf hp)

theorem clipCtl_misses {region : Word} {form : List Byte → Bool} {i : Instr} {f : Module → Nat → Nat → Module}
    (hst : Startable s h 13 form x) (hexec : exec i s = ok s (s.toModule.command h 13 form (clipCtl region f)))
    (hl : s.clipsOf region = []) : Answers i s fun m => m.clips = s.clips ∧ m.mem = s.mem ∧ Completes m h 13 x 3 0 := by
  have hrun := clipCtl_none (m := s.toModule.begun h 13 x) (f := f) (q := ⟨h.session, x.gen, h.tag, BitVec.ofNat 8 13⟩) hl
  refine hst.answers hexec ?_
  rw [hrun]
  exact ⟨(Module.complete_keeps ..).view (·.clips) fun _ => rfl, (Module.complete_keeps ..).view (·.mem) fun _ => rfl,
    completes_of_begun s.toModule rfl stRefused 0⟩

/-- The waiting moves of a ring. -/
def clipMine (c : PortId) (j : Fin 4) (q : PlanJob) : Bool :=
  match q.mv with
  | .clip c' k' _ => c'.val = c.val && k'.val = j.val
  | _ => false

/-! ### Deliveries -/

end

section
variable {c : PortId} {j : Fin 4} {st : Stream} {d : Delivery}

theorem unitsEnded_progress (x : Ctx) (key : Nat) : (x.progress key).unitsEnded key = x.unitsEnded key + 1 := by
  unfold Ctx.unitsEnded Ctx.progress
  rw [SMap.get_set_same]
  rfl

theorem setDelivery_get {d' : Delivery} (hd : st.setup.deliveries[j.val]? = some d) :
    (st.setDelivery j d').setup.deliveries[j.val]? = some d' := by
  unfold Stream.setDelivery
  dsimp only
  obtain ⟨hlt, -⟩ := List.getElem?_eq_some_iff.1 hd
  rw [setAt_eq_set, List.getElem?_set_self hlt]

theorem deliveryCopy_runs (hst : m.streams.find? c.val = some st) (hd : st.setup.deliveries[j.val]? = some d)
    (hu : (m.ctx c).unitsEnded (32 + j.val) < (m.ctx c).unitsEnded d.after) : ∃ src mv, deliveryCopy c j m =
      let k := m.setCtx c ((m.ctx c).progress (32 + j.val))
      if d.suspended then { k with streams := k.streams.insert c.val (st.setDelivery j
        { d with notCopied := BitVec.ofNat 32 (min (d.notCopied.toNat + 1) 0xFFFFFFFF) }) }
      else k.planMove st (st.plan.channels.length - st.setup.deliveries.length + j.val) mv
        (planDesc src (k.apertureOf d.window + (m.ctx c).unitsEnded (32 + j.val) % max 1 d.slots * d.bytes) d.bytes 1 d.bytes d.bytes) := by
  unfold deliveryCopy
  rw [hst]
  dsimp only
  rw [hd]
  dsimp only
  rw [if_neg (by omega)]
  exact ⟨_, _, rfl⟩

theorem streamOf_find {w : Word} (hs : m.streamOf w = some (c, st)) : m.streams.find? c.val = some st := by
  unfold Module.streamOf at hs
  dsimp only at hs
  split at hs
  · split at hs
    · next q hq =>
      split at hs
      · obtain ⟨rfl, rfl⟩ := Prod.mk.injEq .. ▸ Option.some.inj hs
        exact hq
      · cases hs
    · cases hs
  · cases hs

theorem resumeStart_runs {stream : Word} {q : CmdRef} (hs : m.streamOf stream = some (c, st))
    (hd : st.setup.deliveries[j.val]? = some d) : resumeStart stream j q m = if d.suspended then
      ({ m with streams := m.streams.insert c.val (st.setDelivery j { d with resume := true, notCopied := 0 }) }).complete
        q stOk d.notCopied.toNat else m.complete q stOk 0 := by
  unfold resumeStart
  simp only [hs, hd]
  by_cases hsusp : d.suspended = true
  · rw [if_pos hsusp, if_neg (by simp [hsusp])]
  · rw [if_neg hsusp, if_pos (by simp [hsusp])]

end
end

/-- Settles O35: a ring's state changes before its header is written, a copy queues behind a busy channel, and nothing that
follows touches either. -/
theorem clipsAndDeliveriesComplete : Obligations.ClipsAndDeliveriesComplete := by
  refine ⟨?_, ?_⟩
  case refine_1 =>
    intro c k y r s hon hy hr hp hu hlat hg
    have hs : s.Sound := sound_of_clear hp hu hlat hg
    refine ⟨fun st hst hdest hf => ⟨?_, ?_⟩, ?_, fun h x region after hl => ⟨?_, ?_, ?_⟩, ?_⟩
    · exact fun hfrozen => clipFrameCopy_skips hon hs hst hr hdest hf hy hfrozen
    · exact fun ch hfrozen hch hph => clipFrameCopy_queues hon hst hr hdest hf hy hfrozen hch hph
    · exact fun f l hdone => clipHeaderUpdate_answers hon hs hy hr hdone
    · intro hst hafter
      refine (clipCtl_answers (z := { y with
        frozen := true, pend := false, left := 0
        dropped := min (y.dropped + (s.planMoves.filter (clipMine c k)).length) 0xFFFFFFFF }) hst hs hr rfl hl ?_ ?_).imp ?_
      · rw [if_pos hafter]
        rfl
      · rw [if_pos hafter]
        exact (SMap.find?_adjust_same ..).trans (congrArg (Option.map _) hy)
      · exact fun m ⟨hz, _, hc⟩ => ⟨⟨_, hz, rfl, rfl, rfl⟩, hc⟩
    · intro hst hafter
      refine (clipCtl_answers (z := { y with pend := true, left := after.toNat }) hst hs hr rfl hl ?_ ?_).imp ?_
      · rw [if_neg hafter]
        rfl
      · rw [if_neg hafter]
        exact (SMap.find?_adjust_same ..).trans (congrArg (Option.map _) hy)
      · exact fun m ⟨hz, _, hc⟩ => ⟨hz, hc⟩
    · intro hst
      refine (clipCtl_answers (z := { y with frozen := false, pend := false, left := 0 }) hst hs hr rfl hl rfl ?_).imp ?_
      · exact (SMap.find?_adjust_same ..).trans (congrArg (Option.map _) hy)
      · intro m ⟨hz, hflags, hc⟩
        rw [hflags rfl rfl]
        exact ⟨hz, rfl, hc⟩
    · rintro h x region after i op hl (⟨rfl, rfl⟩ | ⟨rfl, rfl⟩) hst
      · exact clipCtl_misses hst rfl hl
      · exact clipCtl_misses hst rfl hl
  case refine_2 =>
    intro c j st d s hon hst hd
    refine ⟨fun hu => ⟨fun hsusp => ?_, fun ch hsusp hch hph => ?_⟩, fun h x stream hstart hs => ?_, fun h x stream i hstart hs => ?_⟩
    · obtain ⟨src, mv, hrun⟩ := deliveryCopy_runs (m := s.toModule) hst hd hu
      refine .of_ok hon (congrArg (ok s) (hrun.trans (if_pos hsusp))) ⟨rfl, rfl, ?_, ?_⟩
      · exact (congrArg (Ctx.unitsEnded · _) (Module.ctx_setCtx_same ..)).trans (unitsEnded_progress ..)
      · exact (congrArg (Option.bind · _) (SMap.find?_insert_same ..)).trans (setDelivery_get hd)
    · obtain ⟨src, mv, hrun⟩ := deliveryCopy_runs (m := s.toModule) hst hd hu
      refine .of_ok hon (congrArg (ok s) (hrun.trans ((if_neg (by simp [hsusp])).trans (planMove_waits hch hph))))
        ⟨rfl, rfl, ?_, _, rfl, rfl, rfl⟩
      exact (congrArg (Ctx.unitsEnded · _) (Module.ctx_setCtx_same ..)).trans (unitsEnded_progress ..)
    · have hj : (BitVec.ofNat 8 j.val).toNat = j.val := by
        rw [BitVec.toNat_ofNat]
        omega
      have hexec : exec (.resumeDelivery h stream (BitVec.ofNat 8 j.val)) s = ok s (s.toModule.command h 15
          (entryHas [(8, 4, stream.toNat), (12, 1, j.val)]) (resumeStart stream j)) := by
        refine congrArg (ok s) ?_
        unfold resumeDelivery
        rw [hj]
      have hrun := resumeStart_runs (m := s.toModule.begun h 15 x) (q := ⟨h.session, x.gen, h.tag, BitVec.ofNat 8 15⟩) hs hd
      refine hstart.answers hexec ?_
      rw [hrun]
      by_cases hsusp : d.suspended = true
      · rw [if_pos hsusp, if_pos hsusp]
        refine ⟨completes_of_begun s.toModule (by exact rfl) stOk _, ?_⟩
        rw [(Module.complete_keeps ..).view (·.streams) fun _ => rfl]
        exact (congrArg (Option.bind · _) (SMap.find?_insert_same ..)).trans (setDelivery_get hd)
      · rw [if_neg hsusp, if_neg hsusp]
        exact ⟨completes_of_begun s.toModule rfl stOk _, (Module.complete_keeps ..).view (·.streams) fun _ => rfl⟩
    · have hrun : resumeStart stream i.toNat ⟨h.session, x.gen, h.tag, BitVec.ofNat 8 15⟩ (s.toModule.begun h 15 x) =
          (s.toModule.begun h 15 x).complete ⟨h.session, x.gen, h.tag, BitVec.ofNat 8 15⟩ stRefused 0 := by
        unfold resumeStart
        rw [show (s.toModule.begun h 15 x).streamOf stream = none from hs]
      refine hstart.answers (c := .resumeDelivery h stream i) rfl ?_
      rw [hrun]
      exact ⟨completes_of_begun s.toModule rfl stRefused _, (Module.complete_keeps ..).view (·.streams) fun _ => rfl⟩

end Sys2Proof.Machine
end

section
set_option Elab.async false
/-!
The rows that a DMA channel moves between local memories (R330 to R335, R527).
-/
namespace Sys2Proof.Machine
open Sys2Proof

section
variable {m k : Module} {a n p : Nat} {d : Desc} {ch : Nat} {c : DmaCh}

/-! ### Beside the channels -/

/-- The module beside the DMA block's channels, registers and draws. -/
def Module.ground (m : Module) : Module × (Nat → Word) :=
  ({ m with regs := [], dma := [], draws := 0 }, fun off => if 0x580000 ≤ off ∧ off < 0x5D0000 then 0 else m.rd off)

theorem Agree.ground_rd {off : Nat} (h : Agree Module.ground m k) (hoff : off < 0x580000 ∨ 0x5D0000 ≤ off) : k.rd off = m.rd off := by
  have ho := congrFun (congrArg Prod.snd h) off
  dsimp only [Module.ground] at ho
  rwa [if_neg (by omega), if_neg (by omega)] at ho

theorem ground_of_regs (h : { k with regs := [], dma := [], draws := 0 } = ({ m with regs := [], dma := [], draws := 0 } : Module))
    (hrd : ∀ off, off < 0x580000 ∨ 0x5D0000 ≤ off → k.rd off = m.rd off) : Agree Module.ground m k := by
  refine Prod.ext h (funext fun off => ?_)
  dsimp only [Module.ground]
  split
  · rfl
  · exact hrd off (by omega)

theorem Module.setFld_ground (m : Module) {off : Nat} (f : Bits) (v : Nat) (hlo : 0x580000 ≤ off) (hhi : off < 0x5D0000) :
    Agree Module.ground m (m.setFld off f v) :=
  ground_of_regs rfl fun _ ho => Module.rd_setFld_ne _ _ _ (by omega)

theorem Module.wr_ground (m : Module) {off : Nat} (v : Word) (hlo : 0x580000 ≤ off) (hhi : off < 0x5D0000) :
    Agree Module.ground m (m.wr off v) :=
  ground_of_regs rfl fun _ ho => Module.rd_wr_ne _ _ (by omega)

theorem Module.setChan_ground (m : Module) (ch : Nat) (c : DmaCh) (hch : ch < 64) : Agree Module.ground m (m.setChan ch c) := by
  unfold Module.setChan
  refine .after (Module.setFld_ground _ _ _ (by unfold DMA_OWN; omega) (by unfold DMA_OWN; omega)) ?_
  refine .after (Module.setFld_ground _ _ _ (by unfold DMA_CH_STAT; omega) (by unfold DMA_CH_STAT; omega)) ?_
  refine .after (Module.setFld_ground _ _ _ (by unfold DMA_CH_STAT; omega) (by unfold DMA_CH_STAT; omega)) ?_
  rfl

@[simp] theorem Module.chan_setChan_same (m : Module) (ch : Nat) (c : DmaCh) : (m.setChan ch c).chan ch = c := SMap.get_set_same ..

theorem Module.chan_setChan_ne (m : Module) {ch j : Nat} (c : DmaCh) (h : j ≠ ch) : (m.setChan ch c).chan j = m.chan j :=
  SMap.get_set_ne _ _ _ _ h

/-! ### Local memory -/

/-- `LocalByte` of a module. -/
def Module.localByte (m : Module) (a : Nat) : Prop :=
  m.inRegion1 a = true ∧
    (a < spmSize ∧ m.spmOn (m.stackOf a) = true ∧ m.fld (SPM_ST_STAT (m.stackOf a)) SPM_ST_STAT_state ≠ 1 ∨
      dramBase ≤ a ∧ a < m.dramEnd ∧ m.dramOn = true)

theorem stackOf_ground (h : Agree Module.ground m k) (a : Nat) : k.stackOf a = m.stackOf a := by
  have hzone : bitsOf a 25 20 / 32 < 2 := by
    have hlt : bitsOf a 25 20 < 2 ^ 6 := Nat.mod_lt _ (by decide)
    omega
  have hspread : k.spread (bitsOf a 25 20) = m.spread (bitsOf a 25 20) := by
    unfold Module.spread
    rw [h.ground_rd (by unfold SPM_ZONE; omega)]
  unfold Module.stackOf
  rw [hspread]

theorem localByte_ground (h : Agree Module.ground m k) (hm : m.localByte a) : k.localByte a := by
  have hstat : k.rd (SPM_ST_STAT (m.stackOf a)) = m.rd (SPM_ST_STAT (m.stackOf a)) := by
    have hlt := m.stackOf_lt a
    exact h.ground_rd (by unfold SPM_ST_STAT; omega)
  have hdom : k.rd PWR_DOM_STAT = m.rd PWR_DOM_STAT := h.ground_rd (by decide)
  have hddr : k.rd DDR_STAT = m.rd DDR_STAT := h.ground_rd (by decide)
  have hregion : k.inRegion1 a = m.inRegion1 a := (congrArg (fun x : Module × _ => x.1.inRegion1 a) h :)
  have hend : k.dramEnd = m.dramEnd := by
    unfold Module.dramEnd
    rw [Module.bit_congr hddr]
  have hdram : k.dramOn = m.dramOn := by
    unfold Module.dramOn
    rw [Module.fld_congr hdom]
  have hon (st : Nat) : k.spmOn st = m.spmOn st := by
    unfold Module.spmOn
    rw [Module.fld_congr hdom]
  unfold Module.localByte
  rw [hregion, stackOf_ground h, hon, Module.fld_congr hstat, hend, hdram]
  exact hm

theorem dramEnd_le (m : Module) : m.dramEnd ≤ 0x2000000000 := by
  unfold Module.dramEnd
  split <;> decide

theorem localByte_lt (h : m.localByte a) : a < 0x2000000000 ∧ (a < spmSize ∨ dramBase ≤ a) := by
  have hend := dramEnd_le m
  obtain ⟨-, ⟨hlt, -⟩ | ⟨hlo, hhi, -⟩⟩ := h
  · exact ⟨hlt.trans (by decide), .inl hlt⟩
  · exact ⟨by omega, .inr hlo⟩

theorem inWindows_of_local (h : m.localByte a) : inWindows a = false := by
  have hlt := (localByte_lt h).1
  unfold inWindows windowBase
  simp only [Bool.and_eq_false_iff, decide_eq_false_iff_not]
  omega

/-- Local bytes that begin in SPM all lie there. -/
theorem spm_of_local (h : ∀ i < n, m.localByte (a + i)) (ha : a < spmSize) : a + n ≤ spmSize := by
  by_contra hover
  have hat := localByte_lt (h (spmSize - a) (by omega))
  rw [show a + (spmSize - a) = spmSize by omega] at hat
  exact absurd hat.2 (by decide)

theorem bitsOf_line (a : Nat) {hi lo : Nat} (h : 6 ≤ lo) : bitsOf (a / 64 * 64) hi lo = bitsOf a hi lo := by
  have hshift : (a / 64 * 64) >>> lo = a >>> lo := by
    rw [show lo = 6 + (lo - 6) by omega, Nat.shiftRight_add, Nat.shiftRight_add]
    congr 1
    rw [Nat.shiftRight_eq_div_pow, Nat.shiftRight_eq_div_pow]
    omega
  unfold bitsOf
  rw [hshift]

theorem testBit_line (a : Nat) {i : Nat} (h : 6 ≤ i) : (a / 64 * 64).testBit i = a.testBit i := by
  have hshift : (a / 64 * 64) >>> 6 = a >>> 6 := by
    rw [Nat.shiftRight_eq_div_pow, Nat.shiftRight_eq_div_pow]
    omega
  rw [show i = 6 + (i - 6) by omega, ← Nat.testBit_shiftRight, ← Nat.testBit_shiftRight, hshift]

theorem xorBits_line (a : Nat) {l : List Nat} (h : ∀ i ∈ l, 6 ≤ i) : xorBits (a / 64 * 64) l = xorBits a l :=
  List.foldl_ext _ _ _ fun x i hi => by rw [testBit_line a (h i hi)]

theorem stackOf_line (m : Module) (a : Nat) : m.stackOf (a / 64 * 64) = m.stackOf a := by
  have hhash : stackHash (a / 64 * 64) = stackHash a := by
    unfold stackHash
    rw [xorBits_line a (by decide), xorBits_line a (by decide), xorBits_line a (by decide)]
  unfold Module.stackOf
  rw [hhash, bitsOf_line a (by decide), bitsOf_line a (by decide)]

/-- A span of local bytes reaches no stack that `p` holds of, where `p` holds of the stack of no local byte of SPM. -/
theorem anyStack_of_local {q : Nat → Bool} (h : ∀ i < n, m.localByte (a + i))
    (hq : ∀ x, m.localByte x → x < spmSize → q (m.stackOf x) = false) : m.anyStack a n q = false := by
  unfold Module.anyStack
  by_cases hn : n = 0
  · rw [hn]
    rfl
  by_cases ha : a < spmSize
  · have hend := spm_of_local h ha
    simp only [Bool.and_eq_false_iff, List.any_eq_false, List.mem_range, Bool.not_eq_true]
    refine .inr fun i hi => ?_
    by_cases hi0 : i = 0
    · rw [hi0, Nat.add_zero, stackOf_line]
      exact hq a (h 0 (by omega)) ha
    · have hx := h ((a / 64 + i) * 64 - a) (by omega)
      rw [show a + ((a / 64 + i) * 64 - a) = (a / 64 + i) * 64 by omega] at hx
      exact hq _ hx (by omega)
  · rw [decide_eq_false ha, Bool.and_false, Bool.false_and]

theorem spm_stack_of_local {x : Nat} (h : m.localByte x) (hx : x < spmSize) :
    m.spmOn (m.stackOf x) = true ∧ m.fld (SPM_ST_STAT (m.stackOf x)) SPM_ST_STAT_state ≠ 1 := by
  obtain ⟨-, ⟨-, hon, hstate⟩ | ⟨hlo, -⟩⟩ := h
  · exact ⟨hon, hstate⟩
  · exact absurd (hlo.trans_lt hx) (by decide)

theorem spmBusy_of_local (h : ∀ i < n, m.localByte (a + i)) : m.spmBusy a n = false :=
  anyStack_of_local h fun x hx hlt => by
    obtain ⟨hon, hstate⟩ := spm_stack_of_local hx hlt
    simp [hon, hstate]

theorem spmOff_of_local (h : ∀ i < n, m.localByte (a + i)) : m.spmOff a n = false :=
  anyStack_of_local h fun x hx hlt => by simp [(spm_stack_of_local hx hlt).1]

/-- An access that begins at a local byte, in stacks that are on and without bad words, does not fail. -/
theorem accessCause_of_on {read : Bool} (hclean : m.Clean) (h0 : m.localByte a) (hoff : m.spmOff a n = false) :
    m.accessCause read a n = none := by
  have hbad : m.badIn a n = [] := hclean.badIn a n
  have hpartly : m.badPartly a n = [] := hclean.badPartly a n
  unfold Module.accessCause Module.spaceOf
  obtain ⟨hregion, ⟨hlt, -⟩ | ⟨hlo, hhi, hon⟩⟩ := h0
  · rw [if_pos hlt]
    simp [hoff, hregion, hbad]
  · have hge : ¬a < spmSize := not_lt.2 (le_trans (by decide) hlo)
    rw [if_neg hge, if_pos ⟨hlo, hhi⟩]
    simp [hon, hregion, hbad, hpartly]

theorem accessCause_of_local {read : Bool} (hclean : m.Clean) (hn : 0 < n) (h : ∀ i < n, m.localByte (a + i)) :
    m.accessCause read a n = none := accessCause_of_on hclean (h 0 hn) (spmOff_of_local h)

/-- One line reaches the stack of its first byte. -/
theorem anyStack_line {q : Nat → Bool} (ha : a % 64 = 0) (hq : a < spmSize → q (m.stackOf a) = false) :
    m.anyStack a 64 q = false := by
  unfold Module.anyStack
  by_cases hlt : a < spmSize
  · have hone : (a + 64 - 1) / 64 - a / 64 + 1 = 1 := by omega
    rw [hone]
    simp [stackOf_line, hq hlt]
  · rw [decide_eq_false hlt, Bool.and_false, Bool.false_and]

theorem spmBusy_line (ha : a % 64 = 0) (h : m.localByte a) : m.spmBusy a 64 = false :=
  anyStack_line ha fun hlt => by
    obtain ⟨hon, hstate⟩ := spm_stack_of_local h hlt
    simp [hon, hstate]

theorem spmOff_line (ha : a % 64 = 0) (h : m.localByte a) : m.spmOff a 64 = false :=
  anyStack_line ha fun hlt => by simp [(spm_stack_of_local h hlt).1]

/-! ### Descriptors of one row -/

/-- A one-row descriptor between local memories of a module without errors. -/
structure RowReady (m : Module) (d : Desc) : Prop where
  op : d.op ≤ 1
  rows : d.rows = 1
  pos : 0 < d.rowBytes
  sound : m.Sound
  dst : ∀ i < d.rowBytes, m.localByte (d.dst + i)
  src : d.op = 0 → ∀ i < d.rowBytes, m.localByte (d.src + i)

theorem rowLocal_ready {s : State} (h : RowLocal s d) : RowReady s.toModule d := by
  obtain ⟨hop, hrows, hpos, hp, hu, hl, hg, hdst, hsrc⟩ := h
  exact ⟨hop, hrows, hpos, sound_of_clear hp hu hl hg, hdst, hsrc⟩

theorem RowReady.ground (hr : RowReady m d) (h : Agree Module.ground m k) : RowReady k d where
  op := hr.op
  rows := hr.rows
  pos := hr.pos
  sound := by
    have hgather : k.gather = m.gather := (congrArg (fun x : Module × _ => x.1.gather) h :)
    refine ⟨⟨(congrArg (fun x : Module × _ => x.1.poison) h :).trans hr.sound.clean.poison,
      (congrArg (fun x : Module × _ => x.1.ueSectors) h :).trans hr.sound.clean.ueSectors,
      (congrArg (fun x : Module × _ => x.1.latent) h :).trans hr.sound.clean.latent⟩, fun g e he => hr.sound.wf g e ?_⟩
    rwa [hgather] at he
  dst := fun i hi => localByte_ground h (hr.dst i hi)
  src := fun hop i hi => localByte_ground h (hr.src hop i hi)

namespace RowReady
variable (hr : RowReady m d)
include hr

theorem total : d.total = d.rowBytes := by
  unfold Desc.total
  rw [hr.rows, Nat.mul_one]

theorem dstAt (hp : p < d.rowBytes) : d.dstAt p = d.dst + p := by
  have hlt := (localByte_lt (hr.dst p hp)).1
  unfold Desc.dstAt
  rw [Nat.div_eq_of_lt hp, Nat.mod_eq_of_lt hp]
  omega

theorem srcAt (hop : d.op = 0) (hp : p < d.rowBytes) : d.srcAt p = d.src + p := by
  have hlt := (localByte_lt (hr.src hop p hp)).1
  unfold Desc.srcAt
  rw [Nat.div_eq_of_lt hp, Nat.mod_eq_of_lt hp]
  omega

/-- A transfer stays in the row, and ends it or reaches a boundary of 4 KiB on one side (R332). -/
theorem chunk_spec (hp : p < d.rowBytes) : 0 < d.chunk p ∧ p + d.chunk p ≤ d.rowBytes ∧
    (p + d.chunk p = d.rowBytes ∨ (d.dst + (p + d.chunk p)) % 4096 = 0 ∨ (d.src + (p + d.chunk p)) % 4096 = 0) := by
  have hdst : reach (d.dstAt p) = 4096 - (d.dst + p) % 4096 := by
    unfold reach
    rw [hr.dstAt hp, inWindows_of_local (hr.dst p hp)]
    rfl
  unfold Desc.chunk
  dsimp only
  rw [Nat.mod_eq_of_lt hp, hdst]
  by_cases hop : d.op = 1
  · rw [if_pos hop]
    omega
  · have hsrc : reach (d.srcAt p) = 4096 - (d.src + p) % 4096 := by
      have h0 : d.op = 0 := by
        have := hr.op
        omega
      unfold reach
      rw [hr.srcAt h0 hp, inWindows_of_local (hr.src h0 p hp)]
      rfl
    rw [if_neg hop, hsrc]
    omega

theorem dmaMeets (p n : Nat) : m.dmaMeets d p n = m := by
  have hmeet := fun source spans => hr.sound.clean.meet source spans
  unfold Module.dmaMeets Module.meetLines Module.meetPartly
  simp only [hmeet, ite_self]

theorem chunkFail (hp : p < d.rowBytes) : m.chunkFail d p = none := by
  obtain ⟨hpos, hend, -⟩ := hr.chunk_spec hp
  have hdst : m.accessCause false (d.dstAt p) (d.chunk p) = none := by
    rw [hr.dstAt hp]
    exact accessCause_of_local hr.sound.clean hpos fun i hi => Nat.add_assoc .. ▸ hr.dst (p + i) (by omega)
  unfold Module.chunkFail
  dsimp only
  by_cases hop : d.op = 1
  · rw [if_pos hop, hdst]
    rfl
  · have h0 : d.op = 0 := by
      have := hr.op
      omega
    have hsrc : m.accessCause true (d.srcAt p) (d.chunk p) = none := by
      rw [hr.srcAt h0 hp]
      exact accessCause_of_local hr.sound.clean hpos fun i hi => Nat.add_assoc .. ▸ hr.src h0 (p + i) (by omega)
    rw [if_neg hop, hsrc]
    dsimp only
    rw [hdst]
    rfl

end RowReady

/-! ### The transfers of a row -/

/-- The module after so many draws. -/
def Module.drawn (m : Module) (n : Nat) : Module := { m with draws := n }

theorem fillNow_draws (m : Module) (q : Bool) (told : Option Nat) : ∃ f n, m.fillNow q told = (f, m.drawn n) := by
  unfold Module.fillNow
  split
  · exact ⟨_, _, rfl⟩
  · exact ⟨_, _, rfl⟩
  · exact ⟨_, _, rfl⟩

/-- The boundaries of 4 KiB that a span of n bytes still has to cross at byte p. -/
def crossings (a n p : Nat) : Nat := (a + n - 1) / 4096 - (a + p) / 4096

/-- How the transfers of a row stand: all of it has moved, or the next waits for its queue. -/
structure RowEnd (m : Module) (d : Desc) (b : Nat) (y : RowRun) : Prop where
  draws : ∃ n, y.m = m.drawn n
  fail : y.fail = none
  moved : y.paced = false → y.bytes = d.rowBytes
  waits : y.paced = true → spmSize ≤ d.dst ∧ 0 < y.bytes ∧ y.bytes < d.rowBytes
  from_ : b ≤ y.bytes
  first : b = 0 → d.chunk 0 ≤ y.bytes

theorem rowRun_ends (hr : RowReady m d) (hc : c.todo = 0) {fuel : Nat} : ∀ {x : RowRun} {n : Nat}, x.m = m.drawn n →
    x.fail = none → x.paced = false → x.bytes = d.rowBytes ∨ x.bytes < d.rowBytes ∧
      crossings d.dst d.rowBytes x.bytes + crossings d.src d.rowBytes x.bytes < fuel →
    RowEnd m d x.bytes (c.rowRun d fuel x) := by
  induction fuel with
  | zero =>
    intro x n hm hf hp hb
    have hall : x.bytes = d.rowBytes := by omega
    exact ⟨⟨n, hm⟩, hf, fun _ => hall, fun h => absurd (h.symm.trans hp) (by decide), le_rfl, fun h0 => by have := hr.pos; omega⟩
  | succ fuel ih =>
    intro x n hm hf hp hb
    unfold DmaCh.rowRun
    dsimp only
    rw [hc, Nat.zero_mod, Nat.zero_add]
    by_cases hend : d.rowBytes ≤ x.bytes
    · rw [if_pos hend]
      have hall : x.bytes = d.rowBytes := by omega
      exact ⟨⟨n, hm⟩, hf, fun _ => hall, fun h => absurd h (by simp [hp]), le_rfl, fun h0 => by have := hr.pos; omega⟩
    · rw [if_neg hend]
      have hlt : x.bytes < d.rowBytes := by omega
      obtain ⟨f, n', hfill⟩ := fillNow_draws x.m (decide (x.bytes ≠ 0) && !decide (d.dstAt x.bytes < spmSize)) none
      rw [hfill]
      dsimp only
      split
      · next hwait =>
        simp only [Bool.and_eq_true, decide_eq_true_eq, Bool.not_eq_true', decide_eq_false_iff_not] at hwait
        obtain ⟨⟨hne, hspm⟩, -⟩ := hwait
        rw [hr.dstAt hlt] at hspm
        refine ⟨⟨n', by dsimp only; rw [hm]; rfl⟩, hf, fun h => Bool.noConfusion h, fun _ => ⟨?_, by dsimp only; omega, hlt⟩, le_rfl,
          fun h0 => absurd h0 hne⟩
        by_contra hdst
        have hin := spm_of_local hr.dst (by omega)
        omega
      · have hr' : RowReady (x.m.drawn n') d := hr.ground (by rw [hm]; rfl)
        obtain ⟨hpos, hin, hnext⟩ := hr.chunk_spec hlt
        rw [hr'.dmaMeets, hr'.chunkFail hlt]
        dsimp only
        have hgo := ih (x := { x with bytes := x.bytes + d.chunk x.bytes, m := x.m.drawn n' }) (n := n')
          (by dsimp only; rw [hm]; rfl) hf hp (by
            dsimp only
            unfold crossings at hb ⊢
            omega)
        exact ⟨hgo.draws, hgo.fail, hgo.moved, hgo.waits, (Nat.le_add_right ..).trans hgo.from_, fun h0 => by
          have hle := hgo.from_
          simp only [h0, Nat.zero_add] at hle ⊢
          exact hle⟩

/-- What a row moves of its first n bytes. -/
def Module.rowBytesOf (m : Module) (d : Desc) (n : Nat) : List Byte :=
  if d.op = 1 then d.fillBytes 0 n else m.bytes d.src n

theorem length_rowBytesOf (m : Module) (d : Desc) (n : Nat) : (m.rowBytesOf d n).length = n := by
  unfold Module.rowBytesOf Desc.fillBytes Module.bytes
  split <;> simp

theorem rowBytesOf_get {i : Nat} (hr : RowReady m d) (hi : i < n) : (m.rowBytesOf d n)[i]?.getD 0 =
    if d.op = 1 then BitVec.ofNat 8 (d.pattern.toNat >>> (8 * (i % 8))) else m.byte (d.src + i) := by
  unfold Module.rowBytesOf
  by_cases hop : d.op = 1
  · rw [if_pos hop, if_pos hop]
    unfold Desc.fillBytes
    simp [hi]
  · rw [if_neg hop, if_neg hop, Module.bytes_getElem? _ _ hi]
    rfl

/-- The channel once y bytes of its row have moved. -/
def DmaCh.rowed (c : DmaCh) (y : RowRun) : DmaCh :=
  { c with todo := c.todo + y.bytes, acked := addAcked c.acked c.todo y.bytes, fail := none, paced := y.paced }

theorem moveRow_ends (hr : RowReady m d) (hc : c.todo = 0) : ∃ y n, RowEnd m d 0 y ∧
    m.moveRow ch c d = (!y.paced, ((m.drawn n).store d.dst (m.rowBytesOf d y.bytes)).setChan ch (c.rowed y)) := by
  have hfuel : crossings d.dst d.rowBytes 0 + crossings d.src d.rowBytes 0 < d.rowBytes / 1024 + 4 := by
    unfold crossings
    omega
  have hends := rowRun_ends hr hc (x := ⟨0, none, false, m⟩) (n := m.draws) rfl rfl rfl (.inr ⟨hr.pos, hfuel⟩)
  obtain ⟨n, hn⟩ := hends.draws
  refine ⟨_, n, hends, ?_⟩
  unfold Module.moveRow
  dsimp only
  rw [hn, hends.fail, hc, hr.dstAt hr.pos]
  have hdata : (if d.op = 1 then d.fillBytes 0 (c.rowRun d (d.rowBytes / 1024 + 4) ⟨0, none, false, m⟩).bytes
      else (m.drawn n).bytes (d.srcAt 0) (c.rowRun d (d.rowBytes / 1024 + 4) ⟨0, none, false, m⟩).bytes) =
        m.rowBytesOf d (c.rowRun d (d.rowBytes / 1024 + 4) ⟨0, none, false, m⟩).bytes := by
    unfold Module.rowBytesOf
    by_cases hop : d.op = 1
    · rw [if_pos hop, if_pos hop]
    · have h0 : d.op = 0 := by
        have := hr.op
        omega
      rw [if_neg hop, if_neg hop, hr.srcAt h0 hr.pos]
      rfl
  rw [hdata]
  unfold DmaCh.rowed
  rw [hc]
  rfl

/-! ### A channel that begins its row -/

section
variable {ch : Fin 64} {q : CmdRef} {told : Option Nat}

/-- The first transfer finds its queue too full (R334). -/
def DmaCh.tooFull (c : DmaCh) (f : Nat) : Prop := c.paced = true ∧ c.paceLow < f ∨ c.paced = false ∧ c.paceHigh ≤ f

theorem dmaStep_row (hr : RowReady m d) (hc : c.todo = 0) (howner : c.owner = .session q) : ∃ n,
    m.dmaStep ch c d told = (false, (m.drawn n).setChan ch { c with paced := true }) ∧ spmSize ≤ d.dst ∧
        (∀ f, told = some f → c.tooFull f) ∨
      m.dmaStep ch c d told = (m.drawn n).moveRow ch.val { c with paced := false } d := by
  have hwin : inWindows d.dst = false := inWindows_of_local (hr.dst 0 hr.pos)
  have hop2 : d.op ≠ 2 := by
    have := hr.op
    omega
  have hqueued : (decide (d.op = 2) || inWindows d.dst || !decide (d.dst < spmSize)) = !decide (d.dst < spmSize) := by
    rw [decide_eq_false hop2, hwin]
    rfl
  have hinside : ((decide (d.op = 1) || !inWindows (d.srcAt 0)) && !inWindows d.dst) = true := by
    rw [hwin]
    by_cases hop : d.op = 1
    · rw [decide_eq_true hop]
      rfl
    · have h0 : d.op = 0 := by
        have := hr.op
        omega
      rw [hr.srcAt h0 hr.pos, inWindows_of_local (hr.src h0 0 hr.pos), decide_eq_false hop]
      rfl
  obtain ⟨f, n, hfill⟩ := fillNow_draws m (!decide (d.dst < spmSize)) told
  have hr' : RowReady (m.drawn n) d := hr.ground rfl
  have hbusy : (m.drawn n).dmaBusy d 0 d.rowBytes = false := by
    have hdst : (m.drawn n).spmBusy d.dst d.rowBytes = false := spmBusy_of_local hr'.dst
    unfold Module.dmaBusy
    rw [hr.dstAt hr.pos, Nat.add_zero, hdst, Bool.or_false]
    by_cases hop : d.op = 1
    · rw [decide_eq_false (not_not.2 hop), Bool.false_and]
    · have h0 : d.op = 0 := by
        have := hr.op
        omega
      have hsrc : (m.drawn n).spmBusy d.src d.rowBytes = false := spmBusy_of_local (hr'.src h0)
      rw [hr.srcAt h0 hr.pos, Nat.add_zero, hsrc, Bool.and_false]
  refine ⟨n, ?_⟩
  unfold Module.dmaStep
  dsimp only
  rw [hc, hr.dstAt hr.pos, Nat.add_zero, hqueued, hfill]
  dsimp only
  by_cases hfull : (!decide (d.dst < spmSize) && (c.paced && decide (c.paceLow < f) || !c.paced && decide (c.paceHigh ≤ f))) = true
  · rw [if_pos hfull]
    simp only [Bool.and_eq_true, Bool.or_eq_true, Bool.not_eq_true', decide_eq_false_iff_not, decide_eq_true_eq, not_lt] at hfull
    refine .inl ⟨rfl, hfull.1, fun g hg => ?_⟩
    have hgf : f = g := by
      rw [hg, decide_eq_false (not_lt.2 hfull.1)] at hfill
      exact (congrArg Prod.fst hfill :).symm
    exact hgf ▸ hfull.2
  · rw [if_neg hfull, howner]
    dsimp only
    rw [hinside, if_pos rfl, Nat.zero_mod, Nat.sub_zero, hbusy, if_neg Bool.false_ne_true, if_pos rfl]
    exact .inr rfl

theorem dmaIssue_done {fuel : Nat} (hdesc : (m.chan ch.val).desc = some d) (hall : d.total ≤ (m.chan ch.val).todo) :
    m.dmaIssue fuel ch told = m := by
  cases fuel with
  | zero => rfl
  | succ fuel =>
    unfold Module.dmaIssue
    dsimp only
    rw [hdesc]
    exact if_pos (.inr (.inr (.inl hall)))

/-- The channel stands before the first transfer of its descriptor. -/
structure Poised (c : DmaCh) (q : CmdRef) (d : Desc) : Prop where
  phase : c.phase = .moving
  desc : c.desc = some d
  todo : c.todo = 0
  fail : c.fail = none
  outstanding : c.outstanding = 0
  owner : c.owner = .session q

theorem dmaIssue_step {fuel : Nat} (hr : RowReady m d) (hc : Poised (m.chan ch.val) q d) (hout : m.dmaOutstanding < 512) :
    m.dmaIssue (fuel + 1) ch told = match m.dmaStep ch (m.chan ch.val) d told with
      | (false, m) => m
      | (true, m) => m.dmaIssue fuel ch none := by
  have hgo : ¬((m.chan ch.val).phase ≠ .moving ∨ (m.chan ch.val).fail.isSome ∨ d.total ≤ (m.chan ch.val).todo ∨
      16 ≤ (m.chan ch.val).outstanding ∨ 512 ≤ m.dmaOutstanding) := by
    have hpos := hr.pos
    rw [hc.phase, hc.fail, hr.total, hc.todo, hc.outstanding]
    simp
    omega
  conv_lhs => unfold Module.dmaIssue
  dsimp only
  rw [hc.desc]
  exact if_neg hgo

/-- A one-row descriptor between local memories goes (R331 to R334). -/
theorem dmaGo_rowGoes {s : State} {first : Bool} (hg : Agree Module.ground s.toModule m)
    (hothers : ∀ j, j ≠ ch.val → m.chan j = s.chan j) (hlocal : RowLocal s d) (hc : Poised (m.chan ch.val) q d)
    (hout : m.dmaOutstanding < 512)
    (hpace : first = true → ∃ f, told = some f ∧ (d.dst < spmSize ∨ ¬(m.chan ch.val).tooFull f)) :
    RowGoes s (m.dmaGo ch told) ch d first := by
  have hr : RowReady m d := (rowLocal_ready hlocal).ground hg
  have hfuel : m.dmaGo ch told = m.dmaIssue (64 + 1) ch told := by
    unfold Module.dmaGo
    rw [hc.desc, Option.map_some, Option.getD_some, hr.rows]
  have hbytes (a : Nat) : m.byte a = s.byte a := (congrArg (fun x : Module × _ => x.1.byte a) hg :)
  have hsyncs : m.syncs = s.syncs := (congrArg (fun x : Module × _ => x.1.syncs) hg :)
  rw [hfuel, dmaIssue_step hr hc hout]
  obtain ⟨n, ⟨hstep, hspm, hfull⟩ | hstep⟩ := dmaStep_row (ch := ch) (told := told) hr hc.todo hc.owner
  · rw [hstep]
    dsimp only
    refine .inr ⟨hspm, fun hf => ?_, ?_, ?_, ?_⟩
    · obtain ⟨f, htold, hlt | hroom⟩ := hpace hf
      · omega
      · exact absurd (hfull f htold) hroom
    · rw [Module.chan_setChan_same]
    · rw [Module.chan_setChan_same]
      exact hc.phase
    · rw [Module.chan_setChan_same]
      exact hc.desc
  · have hr' : RowReady (m.drawn n) d := hr.ground rfl
    obtain ⟨y, n', hy, hmove⟩ := moveRow_ends (ch := ch.val) (c := { m.chan ch.val with paced := false }) hr' hc.todo
    rw [hstep, hmove]
    have hstores := (hr'.ground (k := (m.drawn n).drawn n') rfl).sound.store d.dst ((m.drawn n).rowBytesOf d y.bytes)
    have hkeeps := (hr'.ground (k := (m.drawn n).drawn n') rfl).sound.clean.store_keeps d.dst ((m.drawn n).rowBytesOf d y.bytes)
    have hlen := length_rowBytesOf (m.drawn n) d y.bytes
    have hget {i : Nat} (hi : i < y.bytes) := rowBytesOf_get (n := y.bytes) (i := i) hr' hi
    generalize (m.drawn n).rowBytesOf d y.bytes = data at hstores hkeeps hlen hget
    generalize ((m.drawn n).drawn n').store d.dst data = w at hstores hkeeps
    have hwdma : w.dma = m.dma := hkeeps.view (·.dma) fun _ => rfl
    have htodo : ({ m.chan ch.val with paced := false }.rowed y : DmaCh).todo = y.bytes := by
      unfold DmaCh.rowed
      dsimp only
      rw [hc.todo, Nat.zero_add]
    generalize hrowed : ({ m.chan ch.val with paced := false }.rowed y : DmaCh) = c' at htodo
    have hphase : c'.phase = .moving := hrowed ▸ hc.phase
    have hdesc : c'.desc = some d := hrowed ▸ hc.desc
    cases hp : y.paced with
    | true =>
      obtain ⟨hspm, hpos, hlt⟩ := hy.waits hp
      have hfirst := hy.first rfl
      rw [Bool.not_true]
      dsimp only
      refine .inr ⟨hspm, fun _ => ?_, ?_, ?_, ?_⟩
      · rw [Module.chan_setChan_same, htodo]
        omega
      · rw [Module.chan_setChan_same, ← hrowed]
        exact hp
      · rw [Module.chan_setChan_same, hphase]
      · rw [Module.chan_setChan_same, hdesc]
    | false =>
      have hall := hy.moved hp
      rw [hall] at hlen hget htodo
      rw [Bool.not_false]
      dsimp only
      rw [dmaIssue_done (d := d) (by rw [Module.chan_setChan_same, hdesc]) (by rw [Module.chan_setChan_same, htodo, hr.total])]
      refine .inl ⟨?_, ?_, ?_, ?_, ?_, fun i hi => ?_, fun a ha => ?_, ?_, fun j hj => ?_⟩
      · rw [Module.chan_setChan_same, hphase]
      · rw [Module.chan_setChan_same, hdesc]
      · rw [Module.chan_setChan_same, htodo]
      · rw [Module.chan_setChan_same, ← hrowed]
        rfl
      · rw [Module.chan_setChan_same, ← hrowed]
        exact hc.outstanding
      · refine (hstores.2 (d.dst + i)).trans ?_
        rw [if_pos ⟨by omega, by omega⟩, Nat.add_sub_cancel_left, hget hi]
        split
        · rfl
        · exact hbytes _
      · refine (hstores.2 a).trans ?_
        rw [if_neg (by omega)]
        exact hbytes a
      · exact (hkeeps.view (·.syncs) fun _ => rfl).trans hsyncs
      · rw [Module.chan_setChan_ne _ _ hj]
        exact (congrArg (SMap.get DmaCh.rest · j) hwdma).trans (hothers j hj)

end

/-! ### Outstanding transfers -/

theorem sum_erase_le {α : Type} (l : SMap α) (n : Nat) (f : α → Nat) :
    ((l.erase n).map fun e => f e.2).sum ≤ (l.map fun e : Nat × α => f e.2).sum := by
  unfold SMap.erase
  exact (List.Sublist.map _ List.filter_sublist).sum_le_sum fun _ _ => Nat.zero_le _

theorem sum_insert_le {α : Type} (l : SMap α) (n : Nat) (v : α) (f : α → Nat) (hv : f v = 0) :
    ((l.insert n v).map fun e : Nat × α => f e.2).sum ≤ (l.map fun e : Nat × α => f e.2).sum := by
  induction l with
  | nil => simp [SMap.insert, hv]
  | cons e t ih =>
    unfold SMap.insert
    split
    · simp [hv]
    · split
      · simp [hv]
      · simp only [List.map_cons, List.sum_cons]
        exact Nat.add_le_add_left ih _

theorem dmaOutstanding_setChan_le (h : c.outstanding = 0) : (m.setChan ch c).dmaOutstanding ≤ m.dmaOutstanding := by
  change ((SMap.set DmaCh.rest m.dma ch c : List (Nat × DmaCh)).map fun e => e.2.outstanding).sum ≤ _
  unfold SMap.set
  split
  · exact sum_erase_le _ _ _
  · exact sum_insert_le _ _ _ _ h

end
end Sys2Proof.Machine
end

section
set_option Elab.async false
/-!
DMA lists (R329 to R334, R398, R399): the command, its descriptors one after another, and their ends.
-/
namespace Sys2Proof.Machine
open Sys2Proof

section
variable {s : State} {m k : Module} {d : Desc} {ch : Fin 64} {c : CmdRef} {h : CmdHdr} {x : Session}

theorem wrAddr_chan (m : Module) (lo hi a j : Nat) : (m.wrAddr lo hi a).chan j = m.chan j := rfl

/-! ### The command -/

theorem freeChan_lt {n : Nat} (hf : m.freeChan = some n) : n < 64 := List.mem_range.1 (List.mem_of_find?_eq_some hf)

theorem dma_answers {addr : W64} {n : Nat} (hst : StartableRun s h 12 (entryHas [(8, 8, addr.toNat)]) x) (hfree : s.freeChan = some n) :
    Answers (.dma h addr) s fun m => Underway m h 12 ∧ m.mem = s.mem ∧
      m.chan n = { DmaCh.rest with owner := .session ⟨h.session, x.gen, h.tag, 12⟩, phase := .fetch, addr := addr.toNat } ∧
      ∀ j, j ≠ n → m.chan j = s.chan j := by
  have hne : s.power ≠ 2 := by
    rw [hst.2.1]
    decide
  have hrun : dmaCmd h addr s.toModule = s.toModule.commandRun h 12 (entryHas [(8, 8, addr.toNat)])
      fun c m => m.startList n c addr.toNat := by
    unfold dmaCmd
    rw [hfree]
    dsimp only
    rw [decide_eq_false hne]
    rfl
  refine hst.answers (c := .dma h addr) (congrArg (ok s) hrun) ⟨hst.1.underway rfl, rfl, ?_, fun j hj => ?_⟩
  · unfold Module.startList
    rw [wrAddr_chan, Module.chan_setChan_same]
    rfl
  · unfold Module.startList
    rw [wrAddr_chan, Module.chan_setChan_ne _ _ hj]
    rfl

/-! ### The end of a list -/

/-- What a list leaves at its end: its channel is free, and its command completes. -/
structure ListEnded (s : State) (k m : Module) (ch : Fin 64) (c : CmdRef) (code : Nat) (tag : Word) : Prop where
  chan : m.chan ch.val = DmaCh.rest
  mem : m.mem = k.mem
  syncs : m.syncs = k.syncs
  completes : CompletesRef s m c code (tag.toNat + ch.val * 2 ^ 32)

theorem complete_chan (m : Module) (c : CmdRef) (status result j : Nat) : (m.complete c status result).chan j = m.chan j :=
  congrArg (SMap.get DmaCh.rest · j) ((m.complete_keeps c status result).view (·.dma) fun _ => rfl)

theorem endList_eq {code : Nat} {tag : Word} (howner : (m.chan ch.val).owner = .session c) (hplan : (m.chan ch.val).planOwned = false) :
    m.endList ch.val code tag = (m.setChan ch.val DmaCh.rest).complete c code (tag.toNat + ch.val * 2 ^ 32) := by
  unfold Module.endList Module.freeChannel
  rw [howner, hplan]
  rfl

theorem endList_ended {code : Nat} {tag : Word} (howner : (m.chan ch.val).owner = .session c)
    (hplan : (m.chan ch.val).planOwned = false) (hs : m.sessions = s.sessions) : ListEnded s m (m.endList ch.val code tag) ch c code tag := by
  rw [endList_eq howner hplan]
  refine ⟨?_, Module.complete_mem .., Module.complete_syncs .., ?_⟩
  · rw [complete_chan, Module.chan_setChan_same]
  · exact completesRef_complete (k := m.setChan ch.val DmaCh.rest) hs code _

/-! ### A descriptor is read -/

theorem upset_nil (m : Module) : m.upset [] = m := by
  unfold Module.upset
  rw [List.append_nil]

section
variable (hphase : (m.chan ch.val).phase = .fetch) (hfail : (m.chan ch.val).fail = none)
  (howner : (m.chan ch.val).owner = .session c) (hroom : ∀ x, m.cmdSession c = some x → x.cqWait = [])
include hphase hfail howner hroom

theorem fetch_goes : ¬(decide ((m.chan ch.val).phase ≠ .fetch) || (m.chan ch.val).fail.isSome ||
    match (m.chan ch.val).owner with
      | .session x => match m.cmdSession x with
        | some s => !s.cqWait.isEmpty
        | none => false
      | _ => false) = true := by
  rw [hphase, hfail, howner]
  dsimp only
  cases hq : m.cmdSession c with
  | none => decide
  | some x =>
    dsimp only
    rw [hroom x hq]
    decide

theorem dmaDescriptorRun_unaligned {desc : Remote} {errs : List MemErr} {fill : Nat} (ha : (m.chan ch.val).addr % 64 ≠ 0) :
    dmaDescriptorRun ch desc errs fill m = m.endList ch.val stRefused 0 :=
  (if_neg (fetch_goes hphase hfail howner hroom)).trans (if_pos ha)

theorem dmaDescriptorRun_reads {desc : Remote} {fill : Nat} (ha : (m.chan ch.val).addr % 64 = 0) (hclean : m.Clean)
    (hlocal : m.localByte (m.chan ch.val).addr) :
    dmaDescriptorRun ch desc [] fill m = m.dmaRead ch (m.bytes (m.chan ch.val).addr 64) fill := by
  have hbusy : ¬m.spmBusy (m.chan ch.val).addr 64 = true := ne_true_of_eq_false (spmBusy_line ha hlocal)
  have hcause : m.accessCause true (m.chan ch.val).addr 64 = none := accessCause_of_on hclean hlocal (spmOff_line ha hlocal)
  have hmeet : (m.upset []).meetLines 5 [((m.chan ch.val).addr, 64)] = m := by
    unfold Module.meetLines
    rw [upset_nil, hclean.meet]
  have hspace : ∀ w off, m.spaceOf (m.chan ch.val).addr ≠ .window w off := by
    intro w off
    unfold Module.spaceOf
    obtain ⟨-, ⟨hlt, -⟩ | ⟨hlo, hhi, -⟩⟩ := hlocal
    · rw [if_pos hlt]
      exact fun h => Space.noConfusion h
    · rw [if_neg (not_lt.2 (le_trans (by decide) hlo)), if_pos ⟨hlo, hhi⟩]
      exact fun h => Space.noConfusion h
  unfold dmaDescriptorRun
  dsimp only
  refine (if_neg (fetch_goes hphase hfail howner hroom)).trans ?_
  rw [if_neg (not_not.2 ha), if_neg hbusy, hmeet, hcause]
  cases hsp : m.spaceOf (m.chan ch.val).addr with
  | window w off => exact absurd hsp (hspace w off)
  | _ => rfl

end

/-! ### A descriptor goes -/

/-- The channel that has begun a descriptor, with its data yet to move. -/
theorem poised_begun {cc : DmaCh} (howner : cc.owner = .session c) (hout : cc.outstanding = 0) :
    Poised { m.beginDesc ch.val cc d with phase := .moving } c d := ⟨rfl, rfl, rfl, rfl, hout, howner⟩

theorem dmaMove_rowGoes {cc : DmaCh} {first : Bool} {told : Option Nat} (hg : Agree Module.ground s.toModule m)
    (hothers : ∀ j, j ≠ ch.val → m.chan j = s.chan j) (hlocal : RowLocal s d) (hcc : m.chan ch.val = cc)
    (hc : Poised { cc with phase := .moving } c d) (hout : m.dmaOutstanding < 512)
    (hpace : first = true → ∃ f, told = some f ∧ (d.dst < spmSize ∨ ¬cc.tooFull f)) : RowGoes s (m.dmaMove ch told) ch d first := by
  unfold Module.dmaMove
  rw [hcc]
  refine dmaGo_rowGoes (.after (Module.setChan_ground _ _ _ ch.isLt) hg) (fun j hj => ?_) hlocal (q := c) ?_ ?_ fun hf => ?_
  · rw [Module.chan_setChan_ne _ _ hj, hothers j hj]
  · rw [Module.chan_setChan_same]
    exact hc
  · exact (dmaOutstanding_setChan_le hc.outstanding).trans_lt hout
  · obtain ⟨f, htold, hroom⟩ := hpace hf
    rw [Module.chan_setChan_same]
    exact ⟨f, htold, hroom⟩

theorem dmaRead_rowGoes {b : List Byte} {fill : Nat} (hb : d = descOf b) (hform : descForm d false = true)
    (hmet : d.wait = true → meets (s.sync d.waitObj) d.waitThr = true) (hlocal : RowLocal s d)
    (howner : (s.chan ch.val).owner = .session c) (hpaced : (s.chan ch.val).paced = false)
    (hout0 : (s.chan ch.val).outstanding = 0) (hroom : d.dst < spmSize ∨ fill < s.fld (DMA_CH_PACE ch.val) DMA_CH_PACE_high)
    (hout : s.dmaOutstanding < 512) : RowGoes s (s.dmaRead ch b fill) ch d true := by
  let cc := s.beginDesc ch.val (s.chan ch.val) d
  have heq : s.dmaRead ch b fill = (s.setChan ch.val cc).dmaMove ch (some fill) := by
    have hgo : ¬(d.wait && !meets (s.sync d.waitObj) d.waitThr) = true := by
      cases hw : d.wait with
      | false => exact Bool.false_ne_true
      | true => simp [hmet hw]
    unfold Module.dmaRead
    dsimp only
    rw [← hb, hform, if_neg (by decide), if_neg hgo]
  rw [heq]
  refine dmaMove_rowGoes (Module.setChan_ground _ _ _ ch.isLt) (fun j hj => Module.chan_setChan_ne _ _ hj) hlocal
    (Module.chan_setChan_same ..) (poised_begun howner hout0) ((dmaOutstanding_setChan_le (c := cc) hout0).trans_lt hout)
    fun _ => ⟨fill, rfl, hroom.imp_right fun hlt => ?_⟩
  rintro (⟨hp, -⟩ | ⟨-, hhigh⟩)
  · exact absurd (hpaced.symm.trans hp) (by decide)
  · exact absurd hlt (not_lt.2 hhigh)

theorem dmaRead_refused {b : List Byte} {fill : Nat} (hform : descForm (descOf b) false = false) :
    m.dmaRead ch b fill = m.endList ch.val stRefused (descOf b).tag := by
  unfold Module.dmaRead
  dsimp only
  rw [hform]
  exact if_pos rfl

theorem dmaRead_waits {b : List Byte} {fill : Nat} (hform : descForm (descOf b) false = true) (hw : (descOf b).wait = true)
    (hmet : meets (m.sync (descOf b).waitObj) (descOf b).waitThr = false) : m.dmaRead ch b fill =
      m.setChan ch.val { m.beginDesc ch.val (m.chan ch.val) (descOf b) with phase := .waiting } := by
  unfold Module.dmaRead
  dsimp only
  rw [hform, if_neg (by decide), hw, hmet]
  exact if_pos rfl

/-! ### A descriptor ends -/

theorem lostCycles_chan (m : Module) (j : Nat) : m.lostCycles.chan j = m.chan j :=
  congrArg (SMap.get DmaCh.rest · j) ((Module.lostCycles_keeps m).view (·.dma) fun _ => rfl)

theorem descSignal_chan (m : Module) (n : Nat) (d : Desc) (j : Nat) : (m.descSignal n d).chan j = m.chan j :=
  congrArg (SMap.get DmaCh.rest · j) ((Module.descSignal_keeps m n d).view (·.dma) fun _ => rfl)

theorem descEntry_chan (m : Module) (n : Nat) (d : Desc) (code : Nat) (ends : Bool) (j : Nat) :
    (m.descEntry n d code ends).chan j = m.chan j :=
  congrArg (SMap.get DmaCh.rest · j) ((Module.descEntry_keeps m n d code ends).view (·.dma) fun _ => rfl)

/-- The completion of a list's last descriptor. -/
theorem descEntry_last {code : Nat} {ends : Bool} (howner : (m.chan ch.val).owner = .session c)
    (hl : (d.last || ends) = true) : m.descEntry ch.val d code ends = m.complete c code (d.tag.toNat + ch.val * 2 ^ 32) := by
  unfold Module.descEntry
  rw [howner]
  dsimp only
  rw [Bool.or_assoc, hl, Bool.or_true, if_pos rfl]
  rfl

theorem descEntry_silent {code : Nat} (hcomplete : d.complete = false) (hl : d.last = false) :
    m.descEntry ch.val d code false = m := by
  unfold Module.descEntry
  rw [hcomplete, hl]
  split
  · exact if_neg (by decide)
  · rfl

theorem nextDesc_last (hplan : (m.chan ch.val).planOwned = false) (hl : d.last = true) :
    m.nextDesc ch.val d = m.setChan ch.val DmaCh.rest := by
  unfold Module.nextDesc Module.freeChannel
  rw [hl, if_pos rfl, hplan]
  unfold Module.planNext
  dsimp only
  rw [Module.chan_setChan_same]
  exact if_pos rfl

/-- A list goes on to its next descriptor. -/
theorem nextDesc_on (hl : d.last = false) : ((m.nextDesc ch.val d).chan ch.val).phase = .fetch ∧
    ((m.nextDesc ch.val d).chan ch.val).addr = d.next ∧ ((m.nextDesc ch.val d).chan ch.val).desc = none ∧
    Keeps (Fld.regs ||| Fld.dma) m (m.nextDesc ch.val d) := by
  have heq : m.nextDesc ch.val d = (m.setChan ch.val { m.chan ch.val with
      phase := .fetch, addr := d.next, desc := none, fail := none, todo := 0, acked := [], outstanding := 0 }).wrAddr
        (DMA_CH_DESC_LO ch.val) (DMA_CH_DESC_HI ch.val) d.next := by
    unfold Module.nextDesc
    rw [hl]
    rfl
  have hchan : (m.nextDesc ch.val d).chan ch.val = { m.chan ch.val with
      phase := .fetch, addr := d.next, desc := none, fail := none, todo := 0, acked := [], outstanding := 0 } := by
    rw [heq, wrAddr_chan, Module.chan_setChan_same]
  rw [hchan]
  refine ⟨rfl, rfl, rfl, ?_⟩
  rw [heq]
  exact .after (Module.wrAddr_keeps ..) rfl (Module.setChan_keeps ..)

theorem descSignal_syncs (howner : (m.chan ch.val).owner = .session c) :
    (d.signal = true ∧ m.owned d.sigObj = false → (m.descSignal ch.val d).sync d.sigObj = m.sync d.sigObj + 1) ∧
      (d.signal = false ∨ m.owned d.sigObj = true → (m.descSignal ch.val d).syncs = m.syncs) ∧
      ∀ o, o ≠ d.sigObj → (m.descSignal ch.val d).sync o = m.sync o := by
  unfold Module.descSignal
  rw [howner]
  cases hsig : d.signal with
  | false => exact ⟨fun h => absurd h.1 (by decide), fun _ => rfl, fun _ _ => rfl⟩
  | true =>
    rw [Bool.not_true, if_neg Bool.false_ne_true]
    dsimp only
    unfold Module.guestAdd
    by_cases howned : m.owned d.sigObj = true
    · rw [if_pos howned]
      exact ⟨fun h => absurd (h.2.symm.trans howned) (by decide), fun _ => rfl, fun _ _ => rfl⟩
    · rw [if_neg howned]
      exact ⟨fun _ => Module.sync_setSync_same .., fun h => absurd (h.resolve_left (by decide)) howned,
        fun o ho => Module.sync_setSync_ne _ _ ho⟩

theorem dmaDescriptorDone_answers (hon : s.boot ≠ .off) (howner : (s.chan ch.val).owner = .session c)
    (hplan : (s.chan ch.val).planOwned = false) (hfail : (s.chan ch.val).fail = none) (hout : (s.chan ch.val).outstanding = 0)
    (hphase : (s.chan ch.val).phase = .moving) (hdesc : (s.chan ch.val).desc = some d) (hall : d.total ≤ (s.chan ch.val).todo) :
    Answers (.dmaDescriptorDone ch) s fun m => m.mem = s.mem ∧
      (if d.last then m.chan ch.val = DmaCh.rest ∧ CompletesRef s m c 0 (d.tag.toNat + ch.val * 2 ^ 32)
        else (m.chan ch.val).phase = .fetch ∧ (m.chan ch.val).addr = d.next ∧ (m.chan ch.val).desc = none ∧
          (d.complete = false → ∀ n, (m.sessions.find? n).map (·.taken) = (s.sessions.find? n).map (·.taken))) ∧
      (d.signal = true ∧ s.owned d.sigObj = false → m.sync d.sigObj = s.sync d.sigObj + 1) ∧
      (d.signal = false ∨ s.owned d.sigObj = true → m.syncs = s.syncs) ∧ ∀ o, o ≠ d.sigObj → m.sync o = s.sync o := by
  have hrun : dmaDescriptorDone ch s.toModule = ((s.lostCycles.descSignal ch.val d).descEntry ch.val d stOk false).nextDesc ch.val d := by
    unfold dmaDescriptorDone
    dsimp only
    rw [hphase, hdesc]
    dsimp only
    rw [if_pos ⟨by rw [hfail]; rfl, hout, hall⟩, howner]
    rfl
  have hlost := Module.lostCycles_keeps s.toModule
  obtain ⟨hadds, hsame, hothers⟩ := descSignal_syncs (m := s.lostCycles) (d := d) (ch := ch) (c := c) (by rw [lostCycles_chan, howner])
  have hchan (j : Nat) : (s.lostCycles.descSignal ch.val d).chan j = s.chan j := by rw [descSignal_chan, lostCycles_chan]
  have hsig := Module.descSignal_keeps s.lostCycles ch.val d
  have hlsync : s.lostCycles.syncs = s.syncs := hlost.view (·.syncs) fun _ => rfl
  have hlowner : s.lostCycles.syncOwner = s.syncOwner := hlost.view (·.syncOwner) fun _ => rfl
  have hsess : (s.lostCycles.descSignal ch.val d).sessions = s.sessions :=
    (hsig.view (·.sessions) fun _ => rfl).trans (hlost.view (·.sessions) fun _ => rfl)
  have hmem : (s.lostCycles.descSignal ch.val d).mem = s.mem :=
    (hsig.view (·.mem) fun _ => rfl).trans (hlost.view (·.mem) fun _ => rfl)
  have hlo (o : Nat) : s.lostCycles.sync o = s.sync o := congrArg (SMap.get 0 · o) hlsync
  have howned : s.lostCycles.owned d.sigObj = s.owned d.sigObj := congrArg (fun l : SMap Nat => (l.find? d.sigObj).isSome) hlowner
  rw [howned, hlo] at hadds
  rw [howned, hlsync] at hsame
  generalize s.lostCycles.descSignal ch.val d = k at hrun hadds hsame hothers hchan hsess hmem
  have hsync {m : Module} (hm : m.syncs = k.syncs) : (d.signal = true ∧ s.owned d.sigObj = false → m.sync d.sigObj = s.sync d.sigObj + 1) ∧
      (d.signal = false ∨ s.owned d.sigObj = true → m.syncs = s.syncs) ∧ ∀ o, o ≠ d.sigObj → m.sync o = s.sync o := by
    have ho (o : Nat) : m.sync o = k.sync o := congrArg (SMap.get 0 · o) hm
    exact ⟨fun h => (ho _).trans (hadds h), fun h => hm.trans (hsame h), fun o hne => (ho o).trans ((hothers o hne).trans (hlo o))⟩
  refine .of_ok hon (congrArg (ok s) hrun) ?_
  have hentry := Module.descEntry_keeps k ch.val d stOk false
  cases hl : d.last with
  | true =>
    rw [nextDesc_last (by rw [descEntry_chan, hchan, hplan]) hl, descEntry_last (c := c) (by rw [hchan, howner]) (by rw [hl]; rfl)]
    refine ⟨(Module.complete_mem ..).trans hmem, ⟨Module.chan_setChan_same .., ?_⟩, hsync (Module.complete_syncs ..)⟩
    exact completesRef_complete hsess stOk _
  | false =>
    obtain ⟨hp, ha, hd, hkeeps⟩ := nextDesc_on (m := k.descEntry ch.val d stOk false) (ch := ch) hl
    refine ⟨(hkeeps.view (·.mem) fun _ => rfl).trans ((hentry.view (·.mem) fun _ => rfl).trans hmem), ⟨hp, ha, hd, fun hcomplete n => ?_⟩,
      hsync ((hkeeps.view (·.syncs) fun _ => rfl).trans (hentry.view (·.syncs) fun _ => rfl))⟩
    rw [hkeeps.view (·.sessions) fun _ => rfl, descEntry_silent hcomplete hl, hsess]

end

/-- Settles O33: each command's branch is taken as its hypotheses say; the row that goes is `dmaGo_rowGoes`. -/
theorem dmaListsComplete : Obligations.DmaListsComplete := by
  refine ⟨fun h addr x ch s hst hfree => dma_answers hst hfree, ?_⟩
  intro ch c s hon howner hplan hfail hout0
  refine ⟨?_, ?_, ?_, ?_⟩
  case refine_1 =>
    intro desc errs fill hphase hroom
    refine ⟨fun ha => ?_, fun ha herrs hl hp hu hlocal => ?_⟩
    · have hended := endList_ended (s := s) (m := s.toModule) (code := stRefused) (tag := 0) howner hplan rfl
      refine .of_ok hon (congrArg (ok s) (dmaDescriptorRun_unaligned hphase hfail howner hroom ha)) ⟨hended.chan, hended.mem, ?_⟩
      have hc : CompletesRef s (s.endList ch.val stRefused 0) c stRefused (0 + ch.val * 2 ^ 32) := hended.completes
      rwa [Nat.zero_add] at hc
    · subst herrs
      have hrun := dmaDescriptorRun_reads (desc := desc) (fill := fill) hphase hfail howner hroom ha ⟨hp, hu, hl⟩ hlocal
      refine ⟨fun hform => ?_, fun hform hw hmet => ?_, fun hform hmet hrow hpaced hfill hout => ?_⟩
      · have hended := endList_ended (s := s) (m := s.toModule) (code := stRefused)
          (tag := (descOf (s.bytes (s.chan ch.val).addr 64)).tag) howner hplan rfl
        refine .of_ok hon (congrArg (ok s) (hrun.trans (dmaRead_refused hform))) ⟨hended.chan, hended.mem, hended.completes⟩
      · refine .of_ok hon (congrArg (ok s) (hrun.trans (dmaRead_waits hform hw hmet))) ⟨?_, ?_, rfl⟩
        · rw [Module.chan_setChan_same]
        · rw [Module.chan_setChan_same]
          rfl
      · exact .of_ok hon (congrArg (ok s) hrun) (dmaRead_rowGoes rfl hform hmet hrow howner hpaced hout0 hfill hout)
  case refine_2 =>
    intro d fill hphase hdesc htodo
    refine ⟨fun hmet hrow hpaced hfill hout => ?_, fun hmet => ?_⟩
    · have hrun : dmaWaitMet ch [] fill s.toModule = s.dmaMove ch (some fill) := by
        unfold dmaWaitMet
        dsimp only
        rw [hphase, hdesc, upset_nil]
        exact if_pos hmet
      refine .of_ok hon (congrArg (ok s) hrun) ?_
      refine dmaMove_rowGoes (c := c) .refl (fun _ _ => rfl) hrow rfl ⟨rfl, hdesc, htodo, hfail, hout0, howner⟩ hout
        fun _ => ⟨fill, rfl, hfill.imp_right fun hlt => ?_⟩
      rintro (⟨hp, -⟩ | ⟨-, hhigh⟩)
      · exact absurd (hpaced.symm.trans hp) (by decide)
      · exact absurd hlt (not_lt.2 hhigh)
    · have hrun : dmaWaitTimeout ch s.toModule = (s.count SYN_CNT_TIMEOUT 1).endList ch.val stWaitTimeout d.tag := by
        unfold dmaWaitTimeout
        dsimp only
        rw [hphase, hdesc]
        exact if_neg (ne_true_of_eq_false hmet)
      have hended := endList_ended (s := s) (m := s.count SYN_CNT_TIMEOUT 1) (code := stWaitTimeout) (tag := d.tag) howner hplan rfl
      refine .of_ok hon (congrArg (ok s) hrun) ⟨hended.chan, hended.mem, hended.syncs, ?_, hended.completes⟩
      rw [endList_eq (m := s.count SYN_CNT_TIMEOUT 1) howner hplan, Module.complete_rd,
        (Module.setChan_ground _ _ _ ch.isLt).ground_rd (by decide)]
      exact s.rd_count_same_toNat ..
  case refine_3 =>
    intro d fill hphase hdesc htodo hpaced hlow hrow hout
    have hrun : dmaPaceResume ch fill s.toModule = s.dmaGo ch (some fill) := if_pos ⟨hpaced, hphase, hlow⟩
    refine .of_ok hon (congrArg (ok s) hrun) ?_
    refine dmaGo_rowGoes (q := c) .refl (fun _ _ => rfl) hrow ⟨hphase, hdesc, htodo, hfail, hout0, howner⟩ hout
      fun _ => ⟨fill, rfl, .inr ?_⟩
    rintro (⟨-, hover⟩ | ⟨hp, -⟩)
    · omega
    · exact absurd (hpaced.symm.trans hp) (by decide)
  case refine_4 =>
    exact fun d hphase hdesc hall => dmaDescriptorDone_answers hon howner hplan hfail hout0 hphase hdesc hall

end Sys2Proof.Machine
end

section
set_option Elab.async false
/-!
DMA halts and their recovery (R335 to R337).
-/
namespace Sys2Proof.Machine
open Sys2Proof

section
variable {s : State} {m k : Module} {d : Desc} {ch : Fin 64} {c : CmdRef} {f : DmaFail} {src : BusSource}

/-! ### What a halt latches -/

theorem rd_latchHalt {cc : DmaCh} (ch : Fin 64) : let k := m.latchHalt ch.val cc f
    k.rd (DMA_CH_ERR_ADDR_LO ch.val) = BitVec.ofNat 32 f.addr ∧
    k.rd (DMA_CH_ERR_ADDR_HI ch.val) = BitVec.ofNat 32 (f.addr / 2 ^ 32 % 65536) ∧
    k.rd (DMA_CH_DONE ch.val) = BitVec.ofNat 32 (min (prefixDone cc.acked) 0xFFFFFFFF) ∧
    k.rd (DMA_CH_STAT ch.val) = ((m.setFld (DMA_CH_STAT ch.val) DMA_CH_STAT_direction f.direction).setFld (DMA_CH_STAT ch.val)
      DMA_CH_STAT_cause f.cause).rd (DMA_CH_STAT ch.val) := by
  unfold Module.latchHalt Module.wrAddr DMA_CH_ERR_ADDR_LO DMA_CH_ERR_ADDR_HI DMA_CH_DONE DMA_CH_STAT DMA_CH_DESC_LO DMA_CH_DESC_HI
  dsimp only
  refine ⟨?_, ?_, Module.rd_wr_same .., ?_⟩
  · rw [Module.rd_wr_ne _ _ (by omega), Module.rd_wr_ne _ _ (by omega), Module.rd_wr_ne _ _ (by omega),
      Module.rd_setFld_ne _ _ _ (by omega), Module.rd_setFld_ne _ _ _ (by omega), Module.rd_wr_ne _ _ (by omega), Module.rd_wr_same]
  · rw [Module.rd_wr_ne _ _ (by omega), Module.rd_wr_ne _ _ (by omega), Module.rd_wr_ne _ _ (by omega),
      Module.rd_setFld_ne _ _ _ (by omega), Module.rd_setFld_ne _ _ _ (by omega), Module.rd_wr_same]
  · rw [Module.rd_wr_ne _ _ (by omega), Module.rd_wr_ne _ _ (by omega), Module.rd_wr_ne _ _ (by omega)]
    unfold Module.setFld
    rw [Module.rd_wr_same, Module.rd_wr_same, Module.rd_wr_same, Module.rd_wr_same, Module.rd_wr_ne _ _ (by omega),
      Module.rd_wr_ne _ _ (by omega)]

theorem fld_setChan_state {cc : DmaCh} (ch : Fin 64) :
    (m.setChan ch.val cc).fld (DMA_CH_STAT ch.val) DMA_CH_STAT_state = cc.stat := by
  have hstat : cc.stat < 4 := by
    unfold DmaCh.stat
    split
    · decide
    · decide
    · split <;> decide
  unfold Module.setChan
  dsimp only
  rw [Module.fld_setFld_other _ _ _ _ (by unfold DMA_CH_STAT DMA_OWN; omega),
    Module.fld_setFld_ne _ _ _ _ _ (by decide) (by decide) (by decide)]
  exact Module.fld_setFld _ _ _ _ (by decide) (by decide) hstat

theorem dmaTransferFail_answers (hon : s.boot ≠ .off) (hfail : (s.chan ch.val).fail = some f) (haddr : f.addr < 2 ^ 48)
    (hdir : f.direction < 4) (hcause : f.cause < 8) (howner : (s.chan ch.val).owner = .session c)
    (hphase : (s.chan ch.val).phase = .moving) : Answers (.dmaTransferFail ch) s fun m =>
      (m.chan ch.val).phase = .halting ∧ (m.chan ch.val).paced = false ∧
      m.rd (DMA_CH_ERR_ADDR_LO ch.val) = BitVec.ofNat 32 f.addr ∧
      m.rd (DMA_CH_ERR_ADDR_HI ch.val) = BitVec.ofNat 32 (f.addr / 2 ^ 32) ∧
      m.fld (DMA_CH_STAT ch.val) DMA_CH_STAT_cause = f.cause ∧
      m.fld (DMA_CH_STAT ch.val) DMA_CH_STAT_direction = f.direction ∧
      (m.rd (DMA_CH_DONE ch.val)).toNat = min (prefixDone (s.chan ch.val).acked) 0xFFFFFFFF ∧
      { m with regs := [], dma := [] } = { s.toModule with regs := [], dma := [] } := by
  let cc : DmaCh := { s.chan ch.val with phase := .halting, paced := false }
  have hgo : ¬((s.chan ch.val).phase = .halting ∨ (s.chan ch.val).phase = .halted) := by
    rw [hphase]
    decide
  have hrun : dmaTransferFail ch s.toModule = (s.setChan ch.val cc).latchHalt ch.val (s.chan ch.val) f := by
    unfold dmaTransferFail
    dsimp only
    split
    · next h => exact absurd (h.symm.trans hfail) (by simp)
    · next g h =>
      obtain rfl : g = f := Option.some.inj (h.symm.trans hfail)
      rw [if_neg hgo]
      split
      · next h => exact absurd (h.symm.trans howner) (by simp)
      · next h => exact absurd (h.symm.trans howner) (by simp)
      · rfl
  obtain ⟨hlo, hhi, hdone, hstat⟩ := rd_latchHalt (m := s.setChan ch.val cc) (cc := s.chan ch.val) (f := f) ch
  have hchan : ((s.setChan ch.val cc).latchHalt ch.val (s.chan ch.val) f).chan ch.val = cc := Module.chan_setChan_same s.toModule ch.val cc
  refine .of_ok hon (congrArg (ok s) hrun) ⟨by rw [hchan], by rw [hchan], hlo, ?_, ?_, ?_, ?_, rfl⟩
  · rw [hhi, Nat.mod_eq_of_lt (by omega)]
  · exact (Module.fld_congr hstat _).trans (Module.fld_setFld _ _ _ _ (by decide) (by decide) hcause)
  · exact (Module.fld_congr hstat _).trans ((Module.fld_setFld_ne _ _ _ _ _ (by decide) (by decide) (by decide)).trans
      (Module.fld_setFld _ _ _ _ (by decide) (by decide) hdir))
  · rw [hdone, BitVec.toNat_ofNat]
    omega

theorem dmaHalted_answers (hon : s.boot ≠ .off) (hfail : (s.chan ch.val).fail = some f)
    (hphase : (s.chan ch.val).phase = .halting) (hout : (s.chan ch.val).outstanding = 0) : Answers (.dmaHalted ch) s fun m =>
      (m.chan ch.val).phase = .halted ∧ m.fld (DMA_CH_STAT ch.val) DMA_CH_STAT_state = 3 ∧
      (m.rd DMA_CNT_HALT).toNat = min ((s.rd DMA_CNT_HALT).toNat + 1) 0xFFFFFFFF ∧ m.mem = s.mem ∧
      ∃ e, m.trace.getLast? = some e ∧ e.code = 0x0701 ∧
        e.p0 = BitVec.ofNat 16 (ch.val + 64 * f.direction + 256 * f.cause + 2048 * (s.chan ch.val).planOwned.toNat) ∧
        e.p1 = BitVec.ofNat 32 f.addr := by
  let cc : DmaCh := { s.chan ch.val with phase := .halted }
  let k := ((s.setChan ch.val cc).latchHalt ch.val (s.chan ch.val) f).count DMA_CNT_HALT 1
  have hrun : ∃ p2 p3, dmaHalted ch s.toModule =
      k.raise 0x0701 (ch.val + 64 * f.direction + 256 * f.cause + 2048 * (s.chan ch.val).planOwned.toNat) f.addr p2 p3 := by
    unfold dmaHalted
    dsimp only
    split
    · next g _ h =>
      obtain rfl : g = f := Option.some.inj (h.symm.trans hfail)
      rw [if_pos hout]
      exact ⟨_, _, rfl⟩
    · next h => exact absurd hfail (h f hphase)
  obtain ⟨p2, p3, hrun⟩ := hrun
  obtain ⟨-, -, -, hstat⟩ := rd_latchHalt (m := s.setChan ch.val cc) (cc := s.chan ch.val) (f := f) ch
  have hnot : DMA_CH_STAT ch.val ∉ reportRegs := fun hmem =>
    absurd ((by decide : ∀ r ∈ reportRegs, r < 0x500000 ∨ 0x5D0000 ≤ r) _ hmem) (by unfold DMA_CH_STAT; omega)
  have hcnt : ((s.setChan ch.val cc).latchHalt ch.val (s.chan ch.val) f).rd DMA_CNT_HALT = s.rd DMA_CNT_HALT := by
    unfold Module.latchHalt Module.wrAddr Module.setChan DMA_CNT_HALT DMA_CH_ERR_ADDR_LO DMA_CH_ERR_ADDR_HI DMA_CH_DONE DMA_CH_STAT
      DMA_CH_DESC_LO DMA_CH_DESC_HI DMA_OWN
    dsimp only
    rw [Module.rd_wr_ne _ _ (by omega), Module.rd_wr_ne _ _ (by omega), Module.rd_wr_ne _ _ (by omega),
      Module.rd_setFld_ne _ _ _ (by omega), Module.rd_setFld_ne _ _ _ (by omega), Module.rd_wr_ne _ _ (by omega),
      Module.rd_wr_ne _ _ (by omega), Module.rd_setFld_ne _ _ _ (by omega), Module.rd_setFld_ne _ _ _ (by omega),
      Module.rd_setFld_ne _ _ _ (by omega)]
    rfl
  have hkeeps := Module.raise_keeps k 0x0701 (ch.val + 64 * f.direction + 256 * f.cause + 2048 * (s.chan ch.val).planOwned.toNat)
    f.addr p2 p3
  have hchan : k.chan ch.val = cc := Module.chan_setChan_same s.toModule ch.val cc
  obtain ⟨e, hlast, hcode, -, hp0, hp1, -⟩ := k.raise_raised 0x0701
    (ch.val + 64 * f.direction + 256 * f.cause + 2048 * (s.chan ch.val).planOwned.toNat) f.addr p2 p3
  refine .of_ok hon (congrArg (ok s) hrun) ⟨?_, ?_, ?_, hkeeps.view (·.mem) fun _ => rfl, e, hlast, hcode, hp0, hp1⟩
  · rw [show (k.raise 0x0701 _ f.addr p2 p3).chan ch.val = k.chan ch.val from
      congrArg (SMap.get DmaCh.rest · ch.val) (hkeeps.view (·.dma) fun _ => rfl), hchan]
  · refine (Module.fld_congr (Module.rd_raise _ _ _ _ _ _ hnot) _).trans ?_
    refine (Module.fld_congr ((Module.rd_wr_ne _ _ (by unfold DMA_CH_STAT DMA_CNT_HALT; omega)).trans hstat) _).trans ?_
    rw [Module.fld_setFld_ne _ _ _ _ _ (by decide) (by decide) (by decide),
      Module.fld_setFld_ne _ _ _ _ _ (by decide) (by decide) (by decide)]
    exact fld_setChan_state ch
  · rw [Module.rd_raise _ _ _ _ _ _ (by decide), Module.rd_count_same_toNat, hcnt]

/-! ### The action register -/

/-- The row of DMA_CH_CTL. -/
def dmaCtlRow : RegRow := ⟨DMA_CH_CTL 0, 0x40, 64, 0x4, 1, [⟨DMA_CH_CTL_action, .wo, 0, 0, 3, .plain⟩]⟩

theorem regAt_DMA_CH_CTL : ∀ ch : Fin 64, regAt (DMA_CH_CTL ch) dmaCtlRow ch 0 = true := by decide +kernel

theorem writeReg_dmaCtl (m : Module) (src : BusSource) (ch : Fin 64) (v new : Word) :
    m.writeReg src dmaCtlRow ch 0 (DMA_CH_CTL ch) v new = match m.chanAction ch (DMA_CH_CTL_action.of v) with
      | some m => (stOk, m)
      | none => (stRefused, m) := by
  have hch : (BitVec.ofNat 6 ch.val).toFin = ch := by simp
  refine (m.writeReg_core src _ _ _ _ _ (by unfold DMA_CH_CTL; omega) (by unfold DMA_CH_CTL; omega)).trans ?_
  refine Eq.trans (b := match m.chanAction (BitVec.ofNat 6 ch.val).toFin (DMA_CH_CTL_action.of v) with
      | some m => (stOk, m)
      | none => (stRefused, m)) rfl ?_
  rw [hch]

section
variable {i : Instr} {v : Word} {Q : Module → Prop} (ha : Admits s src true (DMA_CH_CTL ch.val))
  (hexec : exec i s = ok s (s.accessWrite src (DMA_CH_CTL ch.val) 4 v))
include ha hexec

theorem action_done (hact : s.chanAction ch (DMA_CH_CTL_action.of v) = some k) (ht : k.transition = s.transition)
    (hQ : Q (s.writeAnswer k src dmaCtlRow ch.val (DMA_CH_CTL ch.val) v)) : Answers i s Q := by
  refine ha.runs hexec (regAt_DMA_CH_CTL ch) ?_ (Module.setupHeld_of_plain rfl _ _) (List.cons_ne_nil _ _) ?_ ht hQ
  · have htakes : FieldRow.takes ⟨DMA_CH_CTL_action, .wo, 0, 0, 3, .plain⟩ v = true := FieldRow.takes_of_full rfl rfl v
    simp [dmaCtlRow, htakes]
  · rw [writeReg_dmaCtl, hact]

theorem action_refused (hact : s.chanAction ch (DMA_CH_CTL_action.of v) = none) :
    Answers i s fun m => m.busStatus = 3 ∧ OnlyRegs s m [] := by
  refine ha.turned hexec (regAt_DMA_CH_CTL ch) ?_ (Module.setupHeld_of_plain rfl _ _) (List.cons_ne_nil _ _) (st := stRefused) ?_
    (by decide) ⟨rfl, onlyRegs_busAnswer ..⟩
  · have htakes : FieldRow.takes ⟨DMA_CH_CTL_action, .wo, 0, 0, 3, .plain⟩ v = true := FieldRow.takes_of_full rfl rfl v
    simp [dmaCtlRow, htakes]
  · rw [writeReg_dmaCtl, hact]

end

theorem chanAction_none {n : Nat} (hn : n ≠ 0) (h : (m.chan ch.val).planOwned = true ∨ (m.chan ch.val).phase ≠ .halted) :
    m.chanAction ch n = none := by
  unfold Module.chanAction
  dsimp only
  rw [if_neg hn]
  by_cases hp : (m.chan ch.val).planOwned = true
  · exact if_pos hp
  · rw [if_neg hp]
    split
    · next hphase _ => exact absurd hphase (h.resolve_left hp)
    · rfl

section
variable (hplan : (m.chan ch.val).planOwned = false) (hphase : (m.chan ch.val).phase = .halted)
  (hfail : (m.chan ch.val).fail = some f)
include hplan hphase hfail

theorem chanAction_retry : m.chanAction ch 1 = some (m.retryChan ch (m.chan ch.val)) := by
  unfold Module.chanAction
  dsimp only
  rw [hplan, hphase, hfail]
  rfl

theorem chanAction_skip : m.chanAction ch 2 = some (m.skipChan ch.val (m.chan ch.val) f.cause) := by
  unfold Module.chanAction
  dsimp only
  rw [hplan, hphase, hfail]
  rfl

theorem chanAction_abort : m.chanAction ch 3 = some (m.abortChan ch.val (m.chan ch.val) f.cause) := by
  unfold Module.chanAction
  dsimp only
  rw [hplan, hphase, hfail]
  rfl

end

/-! ### RETRY, SKIP and ABORT -/

theorem unhalt_chan (m : Module) (n j : Nat) : (m.unhalt n).chan j = m.chan j := rfl

theorem unhalt_ground (m : Module) (ch : Fin 64) : Agree Module.ground m (m.unhalt ch.val) :=
  Module.setFld_ground _ _ _ (by unfold DMA_CH_STAT; omega) (by unfold DMA_CH_STAT; omega)

theorem rowGoes_congr {first : Bool} (h : RowGoes s m ch d first) (hdma : k.dma = m.dma) (hmem : k.mem = m.mem)
    (hgather : k.gather = m.gather) (hsyncs : k.syncs = m.syncs) : RowGoes s k ch d first := by
  have hchan (j : Nat) : k.chan j = m.chan j := congrArg (SMap.get DmaCh.rest · j) hdma
  have hbyte (a : Nat) : k.byte a = m.byte a := byte_congr hmem hgather a
  unfold RowGoes RowMoved at *
  simp only [hchan, hbyte, hsyncs]
  exact h

/-- The channel that moves its descriptor again (R336), with nothing acknowledged of it. -/
def DmaCh.again (c : DmaCh) : DmaCh := { c with fail := none, todo := 0, acked := [], held := [] }

theorem poised_again {cc : DmaCh} (hdesc : cc.desc = some d) (hout : cc.outstanding = 0) (howner : cc.owner = .session c) :
    Poised { cc.again with phase := .moving } c d := ⟨rfl, hdesc, rfl, rfl, hout, howner⟩

theorem retryChan_moves (hdesc : (m.chan ch.val).desc = some d) (hacked : (m.chan ch.val).acked = []) :
    m.retryChan ch (m.chan ch.val) = ((m.unhalt ch.val).setChan ch.val (m.chan ch.val).again).dmaMove ch none := by
  unfold Module.retryChan DmaCh.again
  dsimp only
  split
  · next h => exact absurd (h.symm.trans hdesc) (by simp)
  · rw [hacked]
    rfl

theorem retryChan_fetches (hdesc : (m.chan ch.val).desc = none) :
    m.retryChan ch (m.chan ch.val) = (m.unhalt ch.val).setChan ch.val { m.chan ch.val with phase := .fetch, fail := none } := by
  unfold Module.retryChan
  dsimp only
  split
  · rfl
  · next h => exact absurd (h.symm.trans hdesc) (by simp)

theorem skipChan_completes {n : Nat} (hdesc : (m.chan ch.val).desc = some d) : m.skipChan ch.val (m.chan ch.val) n =
    ((m.unhalt ch.val).descEntry ch.val d (haltCode n) false).nextDesc ch.val d := by
  unfold Module.skipChan
  dsimp only
  rw [hdesc]

theorem abortChan_completes {n : Nat} (hdesc : (m.chan ch.val).desc = some d) : m.abortChan ch.val (m.chan ch.val) n =
    ((m.unhalt ch.val).descEntry ch.val d (haltCode n) true).freeChannel ch.val := by
  unfold Module.abortChan
  dsimp only
  rw [hdesc]

theorem completesRef_congr {status result : Nat} (h : CompletesRef s m c status result) (hs : k.sessions = m.sessions)
    (hcp : k.cpHalted = m.cpHalted) (hw : k.winOut = m.winOut) : CompletesRef s k c status result := by
  intro x hx hgen
  have hc := h x hx hgen
  unfold Completes at *
  rwa [hs, hcp, hw]

/-- A list closed by SKIP or ABORT of its last descriptor. -/
def Module.closed (m : Module) (ch : Fin 64) (c : CmdRef) (code : Nat) (d : Desc) : Module :=
  ((m.unhalt ch.val).complete c code (d.tag.toNat + ch.val * 2 ^ 32)).setChan ch.val DmaCh.rest

theorem closed_ended {code : Nat} : ListEnded s s.toModule (s.closed ch c code d) ch c code d.tag := by
  have hdone := completesRef_complete (s := s) (k := s.unhalt ch.val) (c := c) rfl code (d.tag.toNat + ch.val * 2 ^ 32)
  have hmem := Module.complete_mem (m := s.unhalt ch.val) (c := c) (status := code) (result := d.tag.toNat + ch.val * 2 ^ 32)
  have hsyncs := Module.complete_syncs (m := s.unhalt ch.val) (c := c) (status := code) (result := d.tag.toNat + ch.val * 2 ^ 32)
  unfold Module.closed
  generalize (s.unhalt ch.val).complete c code (d.tag.toNat + ch.val * 2 ^ 32) = k at hdone hmem hsyncs ⊢
  exact ⟨Module.chan_setChan_same .., hmem, hsyncs, completesRef_congr hdone rfl rfl rfl⟩

theorem skipChan_closes {n : Nat} (hdesc : (m.chan ch.val).desc = some d) (howner : (m.chan ch.val).owner = .session c)
    (hplan : (m.chan ch.val).planOwned = false) (hl : d.last = true) :
    m.skipChan ch.val (m.chan ch.val) n = m.closed ch c (haltCode n) d := by
  rw [skipChan_completes hdesc, nextDesc_last (by rw [descEntry_chan, unhalt_chan, hplan]) hl,
    descEntry_last (c := c) (by rw [unhalt_chan, howner]) (by rw [hl]; rfl)]
  rfl

theorem abortChan_closes {n : Nat} (hdesc : (m.chan ch.val).desc = some d) (howner : (m.chan ch.val).owner = .session c)
    (hplan : (m.chan ch.val).planOwned = false) : m.abortChan ch.val (m.chan ch.val) n = m.closed ch c (haltCode n) d := by
  rw [abortChan_completes hdesc]
  unfold Module.freeChannel
  rw [descEntry_chan, unhalt_chan, hplan, descEntry_last (c := c) (by rw [unhalt_chan, howner]) (by simp)]
  rfl

/-- The recovery of a halted channel of a session. -/
theorem recovery_answers (ha : Admits s src true (DMA_CH_CTL ch.val)) (howner : (s.chan ch.val).owner = .session c)
    (hfail : (s.chan ch.val).fail = some f) (hplan : (s.chan ch.val).planOwned = false) (hphase : (s.chan ch.val).phase = .halted) :
    ((s.chan ch.val).desc = none → Answers (.dmaRetry src ch) s fun m => m.busStatus = 0 ∧
      (m.chan ch.val).phase = .fetch ∧ (m.chan ch.val).fail = none ∧ (m.chan ch.val).addr = (s.chan ch.val).addr) ∧
    (∀ d, (s.chan ch.val).desc = some d → RowLocal s d → (s.chan ch.val).acked = [] → (s.chan ch.val).paced = false →
      (s.chan ch.val).outstanding = 0 → s.dmaOutstanding < 512 →
      Answers (.dmaRetry src ch) s fun m => m.busStatus = 0 ∧ RowGoes s m ch d false) ∧
    (∀ d, (s.chan ch.val).desc = some d → d.last = true → Answers (.dmaSkip src ch) s fun m => m.busStatus = 0 ∧
      m.chan ch.val = DmaCh.rest ∧ m.syncs = s.syncs ∧ m.mem = s.mem ∧
      CompletesRef s m c (if f.cause = 4 then 9 else 10) (d.tag.toNat + ch.val * 2 ^ 32)) ∧
    (∀ d, (s.chan ch.val).desc = some d → d.last = false → Answers (.dmaSkip src ch) s fun m => m.busStatus = 0 ∧
      (m.chan ch.val).phase = .fetch ∧ (m.chan ch.val).addr = d.next ∧ m.syncs = s.syncs ∧ m.mem = s.mem) ∧
    (∀ d, (s.chan ch.val).desc = some d → Answers (.dmaAbort src ch) s fun m => m.busStatus = 0 ∧
      m.chan ch.val = DmaCh.rest ∧ m.syncs = s.syncs ∧ m.mem = s.mem ∧
      CompletesRef s m c (if f.cause = 4 then 9 else 10) (d.tag.toNat + ch.val * 2 ^ 32)) := by
  have hanswer (k : Module) (v : Word) := Module.writeAnswer_keeps (k := k) (m := s.toModule) (src := src) (r := dmaCtlRow)
    (i := ch.val) (off := DMA_CH_CTL ch.val) (v := v)
  have hchan (k : Module) (v : Word) (j : Nat) :
      (s.writeAnswer k src dmaCtlRow ch.val (DMA_CH_CTL ch.val) v).chan j = k.chan j :=
    congrArg (SMap.get DmaCh.rest · j) ((hanswer k v).view (·.dma) fun _ => rfl)
  have hsyncs (k : Module) (v : Word) : (s.writeAnswer k src dmaCtlRow ch.val (DMA_CH_CTL ch.val) v).syncs = k.syncs :=
    (hanswer k v).view (·.syncs) fun _ => rfl
  have hmem (k : Module) (v : Word) : (s.writeAnswer k src dmaCtlRow ch.val (DMA_CH_CTL ch.val) v).mem = k.mem :=
    (hanswer k v).view (·.mem) fun _ => rfl
  have hcompletes {k : Module} {v : Word} {status result : Nat} (hc : CompletesRef s k c status result) :
      CompletesRef s (s.writeAnswer k src dmaCtlRow ch.val (DMA_CH_CTL ch.val) v) c status result :=
    completesRef_congr hc ((hanswer k v).view (·.sessions) fun _ => rfl) ((hanswer k v).view (·.cpHalted) fun _ => rfl)
      ((hanswer k v).view (·.winOut) fun _ => rfl)
  have hretry := chanAction_retry (m := s.toModule) hplan hphase hfail
  have hskip := chanAction_skip (m := s.toModule) hplan hphase hfail
  have habort := chanAction_abort (m := s.toModule) hplan hphase hfail
  have htretry : (s.retryChan ch (s.chan ch.val)).transition = s.transition :=
    (Module.retryChan_keeps ..).view (·.transition) fun _ => rfl
  have htskip : (s.skipChan ch.val (s.chan ch.val) f.cause).transition = s.transition :=
    (Module.skipChan_keeps ..).view (·.transition) fun _ => rfl
  have htabort : (s.abortChan ch.val (s.chan ch.val) f.cause).transition = s.transition :=
    (Module.abortChan_keeps ..).view (·.transition) fun _ => rfl
  refine ⟨fun hdesc => ?_, fun d hdesc hlocal hacked hpaced hout0 hout => ?_, fun d hdesc hl => ?_, fun d hdesc hl => ?_,
    fun d hdesc => ?_⟩
  · refine action_done ha (v := 1) rfl hretry htretry ⟨rfl, ?_⟩
    rw [hchan, retryChan_fetches hdesc, Module.chan_setChan_same]
    exact ⟨rfl, rfl, rfl⟩
  · refine action_done ha (v := 1) rfl hretry htretry ⟨rfl, ?_⟩
    have hgoes : RowGoes s (s.retryChan ch (s.chan ch.val)) ch d false := by
      rw [retryChan_moves hdesc hacked]
      refine dmaMove_rowGoes (c := c) (.after (Module.setChan_ground _ _ _ ch.isLt) (unhalt_ground _ ch))
        (fun j hj => (Module.chan_setChan_ne (s.unhalt ch.val) _ hj).trans (unhalt_chan ..)) hlocal
        (Module.chan_setChan_same (s.unhalt ch.val) _ _) (poised_again hdesc hout0 howner) ((dmaOutstanding_setChan_le (m := s.unhalt ch.val) (c := (s.chan ch.val).again) hout0).trans_lt hout)
        fun h => absurd h (by decide)
    exact rowGoes_congr hgoes ((hanswer _ _).view (·.dma) fun _ => rfl) (hmem _ _) ((hanswer _ _).view (·.gather) fun _ => rfl)
      (hsyncs _ _)
  · refine action_done ha (v := 2) rfl hskip htskip ⟨rfl, ?_⟩
    have hended := closed_ended (s := s) (ch := ch) (c := c) (code := haltCode f.cause) (d := d)
    rw [hchan, hsyncs, hmem, skipChan_closes hdesc howner hplan hl]
    exact ⟨hended.chan, hended.syncs, hended.mem, hcompletes hended.completes⟩
  · refine action_done ha (v := 2) rfl hskip htskip ⟨rfl, ?_⟩
    rw [hchan, hsyncs, hmem, skipChan_completes hdesc]
    have hentry := Module.descEntry_keeps (s.unhalt ch.val) ch.val d (haltCode f.cause) false
    obtain ⟨hp, haddr, -, hkeeps⟩ := nextDesc_on (m := (s.unhalt ch.val).descEntry ch.val d (haltCode f.cause) false) (ch := ch) hl
    exact ⟨hp, haddr, (hkeeps.view (·.syncs) fun _ => rfl).trans (hentry.view (·.syncs) fun _ => rfl),
      (hkeeps.view (·.mem) fun _ => rfl).trans (hentry.view (·.mem) fun _ => rfl)⟩
  · refine action_done ha (v := 3) rfl habort htabort ⟨rfl, ?_⟩
    have hended := closed_ended (s := s) (ch := ch) (c := c) (code := haltCode f.cause) (d := d)
    rw [hchan, hsyncs, hmem, abortChan_closes hdesc howner hplan]
    exact ⟨hended.chan, hended.syncs, hended.mem, hcompletes hended.completes⟩

/-! ### A plan's channel -/

theorem sync_setChan (m : Module) (n o : Nat) (cc : DmaCh) : (m.setChan n cc).sync o = m.sync o := rfl

theorem planChannelSkip_answers {mv : PlanMove} (hon : s.boot ≠ .off) (howner : (s.chan ch.val).owner = .plan mv)
    (hplan : (s.chan ch.val).planOwned = true) (hphase : (s.chan ch.val).phase = .halted) (hdesc : (s.chan ch.val).desc = some d)
    (hcp : s.cpHalted = false) (hl : d.last = true) (hmoves : s.planMoves = []) : Answers (.planChannelSkip ch) s fun m =>
      m.chan ch.val = { DmaCh.rest with planOwned := true } ∧ m.mem = s.mem ∧
        (d.signal = true → m.sync d.sigObj = s.sync d.sigObj + 1) ∧ (d.signal = false → m.syncs = s.syncs) := by
  have hsignal : (s.unhalt ch.val).descSignal ch.val d =
      if d.signal then (s.unhalt ch.val).addSync d.sigObj 1 else s.unhalt ch.val := by
    unfold Module.descSignal
    rw [unhalt_chan, howner]
    cases d.signal <;> rfl
  have hrun : planChannelSkip ch s.toModule = ((s.unhalt ch.val).descSignal ch.val d).setChan ch.val
      { DmaCh.rest with planOwned := true } := by
    have hkeeps := Module.descSignal_keeps (s.unhalt ch.val) ch.val d
    unfold planChannelSkip
    dsimp only
    rw [hphase, hdesc]
    dsimp only
    rw [hplan, hcp]
    refine (if_pos rfl).trans ?_
    unfold Module.nextDesc Module.freeChannel
    rw [hl, if_pos rfl, descSignal_chan, unhalt_chan, hplan]
    exact planNext_of_none ((hkeeps.view (·.planMoves) fun _ => rfl).trans hmoves)
  have hmem : ((s.unhalt ch.val).descSignal ch.val d).mem = s.mem :=
    (Module.descSignal_keeps (s.unhalt ch.val) ch.val d).view (·.mem) fun _ => rfl
  have hadds : d.signal = true → ((s.unhalt ch.val).descSignal ch.val d).sync d.sigObj = s.sync d.sigObj + 1 := fun hs => by
    rw [hsignal, if_pos hs]
    exact Module.sync_setSync_same ..
  have hsame : d.signal = false → ((s.unhalt ch.val).descSignal ch.val d).syncs = s.syncs := fun hs => by
    rw [hsignal, if_neg (by simp [hs])]
    rfl
  generalize (s.unhalt ch.val).descSignal ch.val d = k at hrun hmem hadds hsame
  exact .of_ok hon (congrArg (ok s) hrun) ⟨Module.chan_setChan_same .., hmem, hadds, hsame⟩

end

/-- Settles O34: a halt's registers are read back, and each recovery ends or restarts its list as the channel's state says. -/
theorem dmaHaltsComplete : Obligations.DmaHaltsComplete := by
  intro ch f s hon hfail haddr hdir hcause
  refine ⟨fun c howner hphase => ?_, fun hphase hout => ?_, fun src c ha howner hplan hphase => ?_, fun src i ha hno hi => ?_,
    fun mv d howner hplan hphase hdesc hcp hl hmoves => ?_⟩
  · exact dmaTransferFail_answers hon hfail haddr hdir hcause howner hphase
  · exact dmaHalted_answers hon hfail hphase hout
  · exact recovery_answers ha howner hfail hplan hphase
  · rcases hi with rfl | rfl | rfl
    · exact action_refused ha (v := 1) rfl (chanAction_none (by decide) hno)
    · exact action_refused ha (v := 2) rfl (chanAction_none (by decide) hno)
    · exact action_refused ha (v := 3) rfl (chanAction_none (by decide) hno)
  · exact planChannelSkip_answers hon howner hplan hphase hdesc hcp hl hmoves

end Sys2Proof.Machine
end

section
set_option Elab.async false
/-!
Records that ring commands name (R345, R364): what reading one changes, and what its checks rest on.
-/
namespace Sys2Proof.Machine
open Sys2Proof

section
variable {m k l : Module} {a n : Nat} {rec : Remote} {b : List Byte}

/-- What reading a record changes: what it meets is told, and its window is asked. -/
structure Fetched (m k : Module) : Prop where
  keeps : Keeps (Fld.meet ||| Fld.winSeq) m k
  regs : Agree Module.besideMemory m k
  heard : Agree Module.unheard m k

theorem Fetched.refl (m : Module) : Fetched m m := ⟨.refl, .refl, .refl⟩

theorem Fetched.trans (h : Fetched m k) (h' : Fetched k l) : Fetched m l :=
  ⟨h.keeps.trans h'.keeps, h.regs.trans h'.regs, h.heard.trans h'.heard⟩

theorem readMeets_fetched (m : Module) (source a n : Nat) : Fetched m (m.readMeets source a n).2 where
  keeps := (Module.readMeets_keeps m source a n).mono rfl
  regs := by
    unfold Module.readMeets Module.readBad
    exact .ite (fun _ => .after (Module.reportBad_besideMemory ..) (m.meet_besideMemory ..)) fun _ => m.meet_besideMemory ..
  heard := by
    unfold Module.readMeets Module.readBad Module.reportBad
    exact .ite (fun _ => .after (.foldl (fun _ _ => Module.dramMet_unheard ..) _ .refl) (m.meet_unheard ..)) fun _ => m.meet_unheard ..

theorem askWindow_fetched (m : Module) (w : Fin 64) (off len : Nat) : Fetched m (m.askWindow w off len true) := by
  have hkeeps : Keeps (Fld.send ||| Fld.winSeq) m (m.askWindow w off len true) := by
    unfold Module.askWindow Module.request
    split
    · exact .refl
    · split
      · exact .refl
      · exact .ite (fun _ => .after (Module.originate_keeps ..) rfl (.upd .refl)) fun h => absurd rfl h
  exact ⟨hkeeps.mono rfl, .kept hkeeps (fun _ => rfl) .refl, .kept hkeeps (fun _ => rfl) .refl⟩

/-! ### A record in a window -/

theorem spaceOf_window (hlo : windowBase ≤ a) (hhi : a < 0x4000000000) : m.spaceOf a =
    .window (BitVec.ofNat 6 ((a - windowBase) / 0x40000000)).toFin ((a - windowBase) % 0x40000000) := by
  have hend := dramEnd_le m
  have hbase : windowBase = 0x3000000000 := rfl
  have hspm : spmSize = 0x20000000 := rfl
  unfold Module.spaceOf
  rw [if_neg (by omega), if_neg (by omega), if_neg (by omega), if_pos ⟨hlo, hhi⟩]

theorem window_of_spaceOf {w : Fin 64} {off : Nat} (h : m.spaceOf a = .window w off) : windowBase ≤ a ∧ a < 0x4000000000 := by
  unfold Module.spaceOf at h
  by_cases h1 : a < spmSize
  · rw [if_pos h1] at h
    cases h
  rw [if_neg h1] at h
  by_cases h2 : dramBase ≤ a ∧ a < m.dramEnd
  · rw [if_pos h2] at h
    cases h
  rw [if_neg h2] at h
  by_cases h3 : 0x2000000000 ≤ a ∧ a < 0x2001000000
  · rw [if_pos h3] at h
    cases h
  rw [if_neg h3] at h
  by_cases h4 : windowBase ≤ a ∧ a < 0x4000000000
  · exact h4
  · rw [if_neg h4] at h
    cases h

theorem recordRead_window (hlo : windowBase ≤ a) (hhi : a < 0x4000000000) (hbinds : k.binds = m.binds) (n : Nat) (rec : Remote) :
    k.recordRead a n rec = m.recordRead a n rec := by
  have hbad (w off n : Nat) (r : Bool) : k.windowBad w off n r = m.windowBad w off n r := by
    unfold Module.windowBad Module.binding?
    rw [hbinds]
  have hcause : k.accessCause true a n = m.accessCause true a n := by
    unfold Module.accessCause
    rw [spaceOf_window hlo hhi, spaceOf_window hlo hhi]
    dsimp only
    rw [hbad]
  unfold Module.recordRead
  rw [hcause, spaceOf_window hlo hhi, spaceOf_window hlo hhi]
  cases m.accessCause true a n with
  | some _ => rfl
  | none => cases rec <;> rfl

theorem recordRead_unanswered : m.recordRead a n .unanswered = .error stBusError ∨ m.spaceOf a = .spm ∨ m.spaceOf a = .dram := by
  unfold Module.recordRead Module.accessCause
  cases m.spaceOf a with
  | window w off =>
    refine .inl ?_
    dsimp only
    cases m.windowBad w off n true <;> rfl
  | unmapped => exact .inl rfl
  | registers => exact .inl rfl
  | spm => exact .inr (.inl rfl)
  | dram => exact .inr (.inr rfl)

/-- A record that is read from local memory meets nothing bad. -/
theorem badIn_of_recordRead (hspace : m.spaceOf a = .spm ∨ m.spaceOf a = .dram) (hok : m.recordRead a n rec = .ok b) :
    m.badIn a n = [] := by
  have hcause : m.accessCause true a n = none := by
    unfold Module.recordRead at hok
    cases hc : m.accessCause true a n with
    | none => rfl
    | some c =>
      rw [hc] at hok
      cases hok
  unfold Module.accessCause at hcause
  by_contra hbad
  have hfull : (m.badIn a n).isEmpty = false := by
    cases hb : m.badIn a n with
    | nil => exact absurd hb hbad
    | cons _ _ => rfl
  rcases hspace with h | h
  · rw [h] at hcause
    dsimp only at hcause
    rw [hfull] at hcause
    split at hcause
    · cases hcause
    · split at hcause <;> cases hcause
  · rw [h] at hcause
    dsimp only at hcause
    rw [if_pos rfl, hfull] at hcause
    split at hcause
    · cases hcause
    · split at hcause <;> cases hcause

theorem recordFetch_window (hlo : windowBase ≤ a) (hhi : a < 0x4000000000) (hok : m.recordRead a n rec = .ok b) :
    ∃ k, m.recordFetch a n rec = (.ok b, k) ∧ Fetched m k := by
  have hspace := spaceOf_window (m := m) hlo hhi
  have hrec : rec ≠ .unanswered := by
    rintro rfl
    rcases recordRead_unanswered (m := m) (a := a) (n := n) with h | h | h
    · rw [h] at hok
      cases hok
    · rw [hspace] at h
      cases h
    · rw [hspace] at h
      cases h
  have hmeets := readMeets_fetched m 1 a n
  have hbinds : (m.readMeets 1 a n).2.binds = m.binds := hmeets.keeps.view (·.binds) fun _ => rfl
  have hread := recordRead_window hlo hhi hbinds n rec
  unfold Module.recordFetch
  dsimp only
  rw [hread, hok, spaceOf_window hlo hhi, decide_eq_true hrec]
  refine ⟨_, rfl, ?_⟩
  dsimp only
  generalize (m.readMeets 1 a n).2 = k at hmeets
  split
  · exact hmeets
  · exact List.foldlRecOn (motive := fun l : Module => Fetched m l) _ _ hmeets fun l hm i _ => hm.trans (askWindow_fetched ..)

theorem recordFetch_ok (hl : m.latent = []) (hok : m.recordRead a n rec = .ok b) : ∃ k, m.recordFetch a n rec = (.ok b, k) ∧
    Fetched m k ∧ (k = m ∨ windowBase ≤ a ∧ a < 0x4000000000) := by
  have hlocal (hspace : m.spaceOf a = .spm ∨ m.spaceOf a = .dram) : ∃ k, m.recordFetch a n rec = (.ok b, k) ∧
      Fetched m k ∧ (k = m ∨ windowBase ≤ a ∧ a < 0x4000000000) := by
    refine ⟨m, ?_, .refl m, .inl rfl⟩
    unfold Module.recordFetch
    dsimp only
    rw [Module.readMeets_of_clean hl (badIn_of_recordRead hspace hok), hok]
    rcases hspace with h | h <;> rw [h]
  cases hspace : m.spaceOf a with
  | spm => exact hlocal (.inl hspace)
  | dram => exact hlocal (.inr hspace)
  | unmapped =>
    unfold Module.recordRead Module.accessCause at hok
    rw [hspace] at hok
    cases hok
  | registers =>
    unfold Module.recordRead Module.accessCause at hok
    rw [hspace] at hok
    cases hok
  | window w off =>
    obtain ⟨hlo, hhi⟩ := window_of_spaceOf hspace
    obtain ⟨k, hk, hmk⟩ := recordFetch_window hlo hhi hok
    exact ⟨k, hk, hmk, .inr ⟨hlo, hhi⟩⟩

/-- A record whose header and whole can be read is fetched. -/
theorem record_fetched {len : List Byte → Nat} {hd : List Byte} (hl : m.latent = []) (hhd : m.recordRead a n rec = .ok hd)
    (hb : m.recordRead a (len hd) rec = .ok b) : ∃ k l, m.recordFetch a n rec = (.ok hd, k) ∧
      k.recordFetch a (len hd) rec = (.ok b, l) ∧ Fetched m l := by
  obtain ⟨k, hk, hmk, hsame⟩ := recordFetch_ok hl hhd
  rcases hsame with rfl | ⟨hlo, hhi⟩
  · obtain ⟨l, hl', hkl, -⟩ := recordFetch_ok hl hb
    exact ⟨k, l, hk, hl', hkl⟩
  · have hbinds : k.binds = m.binds := hmk.keeps.view (·.binds) fun _ => rfl
    obtain ⟨l, hl', hkl⟩ := recordFetch_window hlo hhi ((recordRead_window hlo hhi hbinds _ rec).trans hb)
    exact ⟨k, l, hk, hl', hmk.trans hkl⟩

end
end Sys2Proof.Machine
end

section
set_option Elab.async false
/-!
Jobs (R364 to R367, R396).
-/
namespace Sys2Proof.Machine
open Sys2Proof

section
variable {s : State} {m k : Module} {h : CmdHdr} {x : Session} {b : List Byte} {c : CmdRef}

/-! ### What a job's checks rest on -/

/-- What leaves memory's bytes, packages, regions, bindings and owners. -/
structure SameGround (m k : Module) : Prop where
  bytes : ∀ a n, k.bytes a n = m.bytes a n
  packages : k.packages = m.packages
  regions : k.regions = m.regions
  binds : k.binds = m.binds
  owners : k.syncOwner = m.syncOwner
  regs : Agree Module.besideMemory m k

theorem Fetched.sameGround (hf : Fetched m k) : SameGround m k where
  bytes := fun a n => by
    have hbyte (a : Nat) : k.byte a = m.byte a :=
      byte_congr (hf.keeps.view (·.mem) fun _ => rfl) (hf.keeps.view (·.gather) fun _ => rfl) a
    unfold Module.bytes
    simp only [hbyte]
  packages := hf.keeps.view (·.packages) fun _ => rfl
  regions := hf.keeps.view (·.regions) fun _ => rfl
  binds := hf.keeps.view (·.binds) fun _ => rfl
  owners := hf.keeps.view (·.syncOwner) fun _ => rfl
  regs := hf.regs

namespace SameGround
variable (hs : SameGround m k)
include hs

theorem package? (w : Word) : k.package? w = m.package? w := by
  unfold Module.package?
  rw [hs.packages]

theorem region? (w : Word) : k.region? w = m.region? w := by
  unfold Module.region?
  rw [hs.regions]

theorem windowOf (w : Word) : k.windowOf w = m.windowOf w := by
  have hnot : memoryReg (YWP_BIND_STAT (w.toNat % 256)) = false := by
    have hrep : YWP_BIND_STAT (w.toNat % 256) ∉ reportRegs := fun hmem =>
      absurd ((by decide : ∀ r ∈ reportRegs, r < 0x600000 ∨ 0x700000 ≤ r) _ hmem) (by unfold YWP_BIND_STAT; omega)
    unfold memoryReg
    rw [decide_eq_false hrep, Bool.or_false, decide_eq_false (by unfold YWP_BIND_STAT; omega)]
  have hhandle : k.bindHandleOf (w.toNat % 256) = m.bindHandleOf (w.toNat % 256) := by
    unfold Module.bindHandleOf
    rw [hs.binds, Module.fld_congr (hs.regs.besideMemory_rd hnot)]
  unfold Module.windowOf
  dsimp only
  rw [hhandle]

theorem jobStageOk (st : StageSetup) : k.jobStageOk st = m.jobStageOk st := by
  unfold Module.jobStageOk
  simp only [hs.package?, hs.region?, hs.windowOf, Module.template_congr hs.bytes, Module.pkgTemplates_congr hs.bytes]

theorem stageSync (st : StageSetup) : k.stageSync st = m.stageSync st := by
  have hcode (a i : Nat) : k.templateCode a i = m.templateCode a i := by
    unfold Module.templateCode
    rw [Module.template_congr hs.bytes, Module.pkgCode_congr hs.bytes]
  unfold Module.stageSync
  simp only [hs.package?, hcode]

theorem jobChainOk (l : List StageSetup) (o : List Nat) : k.jobChainOk l o = m.jobChainOk l o := by
  have howned (o : Nat) : k.owned o = m.owned o := by
    unfold Module.owned
    rw [hs.owners]
  have hsync : k.stageSync = m.stageSync := funext hs.stageSync
  unfold Module.jobChainOk
  simp only [howned, hsync]

end SameGround

/-! ### JOB -/

/-- The job that a record without expiry stands for. -/
def Module.newJob (m : Module) (c : CmdRef) (b : List Byte) : Job :=
  ⟨m.nextJob, c, jobStages b, arrayAt b 20 2 7, (arrayAt b 20 2 7).map m.sync, .none, false,
    (jobStages b).map fun st => List.replicate st.tasks (.queued, 0, false), false, false, none, [], []⟩

theorem jobAccept_queues (hexp : fieldAt b 1 1 = 0) (hform : jobForm b = true) (hstages : (jobStages b).all m.jobStageOk = true)
    (hchain : m.jobChainOk (jobStages b) (arrayAt b 20 2 7) = true) : ∃ k, Keeps (Fld.now ||| Fld.draws ||| Fld.nextJob) m k ∧
      m.jobAccept c b = k.setJobs (m.jobs ++ [m.newJob c b]) := by
  have hgo : ¬(!jobForm b || !(jobStages b).all m.tick.jobStageOk || !m.tick.jobChainOk (jobStages b) (arrayAt b 20 2 7) ||
      decide (fieldAt b 1 1 = 1) && !m.tick.timeValid) = true := by
    have h1 : (jobStages b).all m.tick.jobStageOk = true := hstages
    have h2 : m.tick.jobChainOk (jobStages b) (arrayAt b 20 2 7) = true := hchain
    rw [hform, h1, h2, decide_eq_false (by omega : ¬fieldAt b 1 1 = 1)]
    exact Bool.false_ne_true
  have hnone : m.tick.jobExpiry b = .none := by
    unfold Module.jobExpiry
    rw [hexp]
    rfl
  refine ⟨{ m.tick with nextJob := m.nextJob + 1 }, .upd ((Module.tick_keeps m).mono rfl), ?_⟩
  unfold Module.jobAccept
  dsimp only
  rw [if_neg hgo, hnone]
  rfl

theorem jobAccept_refuses (hform : jobForm b = false) :
    m.jobAccept c b = (m.tick.count SYS_ADM_CNT_REFUSED 1).complete c stRefused 0 := by
  unfold Module.jobAccept
  dsimp only
  rw [hform]
  rfl

theorem setJobs_jobs (m : Module) (l : List Job) : (m.setJobs l).jobs = l := rfl

section
variable {record : W64} {rec : Remote} (hst : StartableRun s h 3 (entryHas [(8, 8, record.toNat)]) x)
  (hbusy : s.recordBusy record.toNat jobLen = false)
include hst hbusy

theorem job_answers {Q : Module → Prop}
    (hQ : Q (jobRead record rec ⟨h.session, x.gen, h.tag, BitVec.ofNat 8 3⟩ (s.toModule.begun h 3 x))) :
    Answers (.job h record rec) s Q :=
  hst.answers (c := .job h record rec) (congrArg (ok s) (if_neg (ne_true_of_eq_false hbusy))) hQ

theorem job_unaligned (halign : record.toNat % 64 ≠ 0) : Answers (.job h record rec) s fun m =>
    m.jobs = s.jobs ∧ Completes m h 3 x 3 0 := by
  refine job_answers hst hbusy ?_
  have hrun : jobRead record rec ⟨h.session, x.gen, h.tag, BitVec.ofNat 8 3⟩ (s.toModule.begun h 3 x) =
      ((s.toModule.begun h 3 x).count SYS_ADM_CNT_REFUSED 1).complete ⟨h.session, x.gen, h.tag, BitVec.ofNat 8 3⟩ stRefused 0 :=
    if_pos halign
  rw [hrun]
  exact ⟨(Module.complete_keeps ..).view (·.jobs) fun _ => rfl, completes_of_begun s.toModule (by exact rfl) stRefused 0⟩

omit hst hbusy in
/-- A job record that can be read is accepted or turned away as its bytes say. -/
theorem job_read {hd : List Byte} (hl : s.latent = []) (halign : record.toNat % 64 = 0)
    (hhd : s.recordRead record.toNat 64 rec = .ok hd) (hb : s.recordRead record.toNat (jobLen hd) rec = .ok b) :
    ∃ k, Fetched (s.toModule.begun h 3 x) k ∧
      jobRead record rec ⟨h.session, x.gen, h.tag, BitVec.ofNat 8 3⟩ (s.toModule.begun h 3 x) =
        k.jobAccept ⟨h.session, x.gen, h.tag, BitVec.ofNat 8 3⟩ b := by
  obtain ⟨k, l, hk, hfetch, hmet⟩ := record_fetched (m := s.toModule.begun h 3 x) (len := jobLen) hl hhd hb
  refine ⟨l, hmet, ?_⟩
  unfold jobRead
  dsimp only
  rw [if_neg (not_not.2 halign), hk]
  dsimp only
  rw [hfetch]

end

theorem underway_of_heard {op : Nat} {operands : List Byte → Bool} (hst : Startable s h op operands x)
    (hk : Agree Module.unheard (s.toModule.begun h op x) k) : Underway k h op := by
  obtain ⟨y, hy, hyx⟩ := hk.unheard_find (Module.begun_find ..)
  obtain ⟨z, hz, t, ht, htag⟩ := hst.underway (m := s.toModule.begun h op x) rfl
  have hzx : z = begunSession h op x := Option.some.inj (hz.symm.trans (Module.begun_find ..))
  refine ⟨y, hy, t, ?_, htag⟩
  rw [show y.taken = z.taken from hzx ▸ (congrArg Session.taken hyx :)]
  exact ht

theorem job_queued {record : W64} {rec : Remote} {hd : List Byte} (hst : StartableRun s h 3 (entryHas [(8, 8, record.toNat)]) x)
    (hl : s.latent = []) (halign : record.toNat % 64 = 0) (hbusy : s.recordBusy record.toNat jobLen = false)
    (hhd : s.recordRead record.toNat 64 rec = .ok hd) (hb : s.recordRead record.toNat (jobLen hd) rec = .ok b)
    (hexp : fieldAt b 1 1 = 0) (hform : jobForm b = true) (hstages : (jobStages b).all s.jobStageOk = true)
    (hchain : s.jobChainOk (jobStages b) (arrayAt b 20 2 7) = true) :
    Answers (.job h record rec) s fun m => Underway m h 3 ∧ m.mem = s.mem ∧
      ∃ j, m.jobs = s.jobs ++ [j] ∧ j.id = s.nextJob ∧ j.cmd = ⟨h.session, x.gen, h.tag, 3⟩ ∧ j.stages = jobStages b ∧
        j.dispatched = false ∧ j.expiry = .none ∧
        j.tasks = (jobStages b).map fun st => List.replicate st.tasks (.queued, 0, false) := by
  obtain ⟨k, hk, hrun⟩ := job_read (h := h) (x := x) (rec := rec) hl halign hhd hb
  have hground := hk.sameGround
  have hok : k.jobStageOk = s.jobStageOk := funext fun st => hground.jobStageOk st
  obtain ⟨l, hkl, hacc⟩ := jobAccept_queues (m := k) (c := ⟨h.session, x.gen, h.tag, BitVec.ofNat 8 3⟩) hexp hform
    (by rw [hok, hstages]) ((hground.jobChainOk _ _).trans hchain)
  have hjobs : k.jobs = s.jobs := hk.keeps.view (·.jobs) fun _ => rfl
  have hnext : k.nextJob = s.nextJob := hk.keeps.view (·.nextJob) fun _ => rfl
  have hmem : l.mem = s.mem := (hkl.view (·.mem) fun _ => rfl).trans (hk.keeps.view (·.mem) fun _ => rfl)
  have hheard : Agree Module.unheard (s.toModule.begun h 3 x) l := .kept hkl (fun _ => rfl) hk.heard
  refine job_answers hst hbusy ?_
  rw [hrun, hacc]
  refine ⟨underway_of_heard hst.1 hheard, hmem, k.newJob ⟨h.session, x.gen, h.tag, BitVec.ofNat 8 3⟩ b, ?_, hnext, rfl, rfl, rfl, rfl, rfl⟩
  rw [setJobs_jobs, hjobs]

theorem job_refused {record : W64} {rec : Remote} {hd : List Byte} (hst : StartableRun s h 3 (entryHas [(8, 8, record.toNat)]) x)
    (hl : s.latent = []) (halign : record.toNat % 64 = 0) (hbusy : s.recordBusy record.toNat jobLen = false)
    (hhd : s.recordRead record.toNat 64 rec = .ok hd) (hb : s.recordRead record.toNat (jobLen hd) rec = .ok b)
    (hform : jobForm b = false) : Answers (.job h record rec) s fun m => m.jobs = s.jobs ∧ Completes m h 3 x 3 0 := by
  obtain ⟨k, hk, hrun⟩ := job_read (h := h) (x := x) (rec := rec) hl halign hhd hb
  have hjobs : k.jobs = s.jobs := hk.keeps.view (·.jobs) fun _ => rfl
  have hheard : Agree Module.unheard (s.toModule.begun h 3 x) (k.tick.count SYS_ADM_CNT_REFUSED 1) :=
    .after (.unheard_of_regs (Module.count_keeps ..)) (.kept (Module.tick_keeps k) (fun _ => rfl) hk.heard)
  refine job_answers hst hbusy ?_
  rw [hrun, jobAccept_refuses hform]
  refine ⟨((Module.complete_keeps ..).view (·.jobs) fun _ => rfl).trans hjobs, ?_⟩
  obtain ⟨y, hy, hyx⟩ := hheard.unheard_find (Module.begun_find ..)
  have hgen : y.gen = x.gen := (congrArg Session.gen hyx :)
  have hc := Completes.unheard (hgen ▸ Module.complete_completes hy 3 stRefused 0) hyx
  exact hc

end
end Sys2Proof.Machine
end

section
set_option Elab.async false
/-!
The dispatch, the preemption and the withdrawal of jobs (R366, R396).
-/
namespace Sys2Proof.Machine
open Sys2Proof

section
variable {s : State} {m k : Module} {h : CmdHdr} {x : Session} {j : Job} {e : EngPos} {st : StageSetup}

/-! ### The queue of jobs -/

theorem job?_adjustJob {id : Nat} {f : Job → Job} (hj : m.job? id = some j) (hid : ∀ i : Job, i.id = id → (f i).id = id) :
    (m.adjustJob id f).job? id = some (f j) := by
  have hfun : ((fun i : Job => decide (i.id = id)) ∘ fun i => if i.id = id then f i else i) = fun i : Job => decide (i.id = id) := by
    funext i
    by_cases hi : i.id = id
    · simp [hi, hid i hi]
    · simp [hi]
  have hjid : j.id = id := of_decide_eq_true (List.find?_some (p := fun i : Job => decide (i.id = id)) hj)
  unfold Module.job? Module.adjustJob
  dsimp only
  rw [List.find?_map, hfun, show m.jobs.find? (fun i => decide (i.id = id)) = some j from hj]
  exact congrArg some (if_pos hjid)

theorem task?_setTask {i t : Nat} {u v : JobTaskState × Nat × Bool} (hu : j.task? i t = some u) :
    (j.setTask i t v).task? i t = some v := by
  unfold Job.task? at hu
  obtain ⟨ht, -⟩ := List.getElem?_eq_some_iff.1 hu
  have hi : i < j.tasks.length := by
    by_contra hge
    rw [List.getElem?_eq_none (Nat.not_lt.1 hge)] at ht
    exact absurd ht (Nat.not_lt_zero _)
  unfold Job.task? Job.setTask
  dsimp only
  rw [setAt_eq_set, setAt_eq_set, List.getElem?_set_self hi]
  exact List.getElem?_set_self ht

theorem setEng_job? (m : Module) (e : EngPos) (y : Eng) (id : Nat) : (m.setEng e y).job? id = m.job? id := rfl

theorem adjustJob_eng (m : Module) (id : Nat) (f : Job → Job) (e : EngPos) : (m.adjustJob id f).eng e = m.eng e := rfl

/-! ### JOB_DISPATCH -/

/-- Before a stage's first task its weights' addresses are written. -/
def Module.weighed (m : Module) (j : Job) (stage : Nat) (st : StageSetup) : Module :=
  match m.package? st.package with
  | some p => if (List.range st.tasks).all fun k => (j.variants.find? (jobKey stage k)).isNone then
      m.writeWeights st 1 (m.pkgSec p.addr secWeights).1 else m
  | none => m

theorem Module.weighed_keeps (m : Module) (j : Job) (stage : Nat) (st : StageSetup) :
    Keeps (Fld.write ||| Fld.gatherAge) m (m.weighed j stage st) := by
  unfold Module.weighed
  split
  · exact .ite (fun _ => Module.writeWeights_keeps ..) fun _ => .refl
  · exact .refl

/-- A job with one of its tasks placed. -/
def Job.placed (j : Job) (stage task v : Nat) (e : EngPos) (n : Nat) (again : Bool) : Job :=
  { j.setTask stage task (.running e, n, again) with
    dispatched := true, variants := j.variants.insert (jobKey stage task) v }

/-- The module with a task of a job placed. -/
def Module.placeJob (m : Module) (id stage task v : Nat) (e : EngPos) (n : Nat) (again : Bool) : Module :=
  (m.setEng e { m.eng e with assigned := some (.job id stage task, n, again) }).adjustJob id
    fun j => j.placed stage task v e n again

theorem jobVariant_kept {v i t : Nat} (hv : j.variants.find? (jobKey i t) = some v) : m.jobVariant j st i t = v := by
  unfold Module.jobVariant
  rw [hv]

theorem behind_of {home : Nat} {rerun ahead : Bool} {n : Nat} (h : if home = 0 then rerun = false ∧ ahead = false else home = n + 1) :
    (decide (home = 0) && (rerun || ahead)) = false ∧ (decide (home = 0) || decide (home = n + 1)) = true := by
  by_cases h0 : home = 0
  · rw [if_pos h0] at h
    simp [h0, h.1, h.2]
  · rw [if_neg h0] at h
    rw [decide_eq_false h0, decide_eq_true h]
    exact ⟨rfl, rfl⟩

/-- A task that may be placed is placed; before it only the time passes and the weights' addresses are written. -/
theorem jobDispatch_places {stage task : Nat} {cl : Fin 8} {logical : Fin 17} {n : Nat} {again : Bool}
    (hj : m.job? j.id = some j) (hpos : m.posOf cl logical = some e) (ht : j.task? stage task = some (.queued, n, again))
    (hst : j.stages[stage]? = some st) (hdis : m.dispatching = true) (hwd : j.withdrawing = false) (hout : j.outcome = none)
    (hhand : m.handed j stage = true) (htakes : m.takesJob e (m.stageRes st) = true) (htest : logical.val ≠ 16 ∨ m.tests = false)
    (hfits : m.jobFits j st stage task (17 * cl.val + logical.val) = true) (hexp : j.expiry = .none)
    (hargs : m.argsBusy st 1 = false)
    (hhome : if SMap.get 0 j.clusters (jobKey stage task) = 0 then m.rerunWaits cl e = false ∧
        m.jobAhead e cl (17 * cl.val + logical.val) j.id (m.jobCost st task) = false
      else SMap.get 0 j.clusters (jobKey stage task) = cl.val + 1) :
    ∃ k v, Keeps (Fld.now ||| Fld.draws ||| Fld.write ||| Fld.gatherAge) m k ∧
      (∀ w, j.variants.find? (jobKey stage task) = some w → v = w) ∧
      jobDispatch j.id stage task cl logical m = k.placeJob j.id stage task v e n again := by
  obtain ⟨hbehind, hcluster⟩ := behind_of hhome
  have htest' : (decide (logical.val = 16) && m.tests) = false := by
    rcases htest with hne | hoff
    · rw [decide_eq_false hne]
      rfl
    · rw [hoff, Bool.and_false]
  have hplace : m.jobMayPlace e cl (17 * cl.val + logical.val) j stage task st = true := by
    unfold Module.jobMayPlace
    dsimp only
    rw [hwd, hout, hhand, htakes, hfits, hcluster]
    rfl
  have hexpired : (!j.dispatched && m.tick.expired j.expiry) = false := by
    rw [hexp]
    exact Bool.and_false _
  unfold jobDispatch
  rw [hj, hpos]
  dsimp only
  rw [ht, hst]
  dsimp only
  rw [hdis, hplace, htest', hbehind, hargs, hexpired, Bool.and_false, if_neg (by exact Bool.false_ne_true : ¬(!true || !true || false || false || false) = true), if_neg Bool.false_ne_true]
  have htick := (Module.tick_keeps m).mono (G := Fld.now ||| Fld.draws ||| Fld.write ||| Fld.gatherAge) rfl
  exact ⟨m.tick.weighed j stage st, _, .after (Module.weighed_keeps ..) rfl htick, fun w hw => jobVariant_kept hw, rfl⟩

theorem jobDispatch_answers {stage task : Nat} {cl : Fin 8} {logical : Fin 17} {n : Nat} {again : Bool} (hon : s.boot ≠ .off)
    (hj : s.job? j.id = some j) (hpos : s.posOf cl logical = some e) (ht : j.task? stage task = some (.queued, n, again))
    (hst : j.stages[stage]? = some st) (hdis : s.dispatching = true) (hwd : j.withdrawing = false) (hout : j.outcome = none)
    (hhand : s.handed j stage = true) (htakes : s.takesJob e (s.stageRes st) = true) (htest : logical.val ≠ 16 ∨ s.tests = false)
    (hfits : s.jobFits j st stage task (17 * cl.val + logical.val) = true) (hexp : j.expiry = .none)
    (hargs : s.argsBusy st 1 = false)
    (hhome : if SMap.get 0 j.clusters (jobKey stage task) = 0 then s.rerunWaits cl e = false ∧
        s.jobAhead e cl (17 * cl.val + logical.val) j.id (s.jobCost st task) = false
      else SMap.get 0 j.clusters (jobKey stage task) = cl.val + 1) :
    Answers (.jobDispatch j.id stage task cl logical) s fun m =>
      (m.eng e).assigned = some (.job j.id stage task, n, again) ∧
      (∃ k, m.job? j.id = some k ∧ k.dispatched = true ∧ k.task? stage task = some (.running e, n, again) ∧
        (∀ v, j.variants.find? (jobKey stage task) = some v → k.variants.find? (jobKey stage task) = some v)) ∧
      ∀ f, f ≠ e → m.eng f = s.eng f := by
  obtain ⟨k, v, hk, hv, hrun⟩ := jobDispatch_places (m := s.toModule) hj hpos ht hst hdis hwd hout hhand htakes htest hfits hexp
    hargs hhome
  have hkj : k.job? j.id = some j := (hk.view (fun x : Module => x.job? j.id) fun _ => rfl).trans hj
  refine .of_ok hon (congrArg (ok s) hrun) ⟨?_, ⟨j.placed stage task v e n again, ?_, rfl, ?_, fun w hw => ?_⟩, fun f hf => ?_⟩
  · unfold Module.placeJob
    rw [adjustJob_eng, Module.eng_setEng_same]
  · exact job?_adjustJob (f := fun j => j.placed stage task v e n again) ((setEng_job? ..).trans hkj) fun _ hi => hi
  · exact task?_setTask ht
  · rw [← hv w hw]
    exact SMap.find?_insert_same ..
  · unfold Module.placeJob
    rw [adjustJob_eng, Module.eng_setEng_ne _ _ hf]
    exact hk.view (fun x : Module => x.eng f) fun _ => rfl

/-! ### JOB_PREEMPT -/

theorem preempt_elsewhere (e : EngPos) : SYS_ADM_CNT_PREEMPT ∉ engRegs e := by
  unfold engRegs SYS_ADM_CNT_PREEMPT ENG_X_ARITH ENG_X_STAT ENG_X_CNT_FAULT SYN_CNT_TIMEOUT
  simp only [List.mem_cons, List.not_mem_nil, or_false, not_or]
  omega

theorem jobPreempt_answers {t : EngTask} (hon : s.boot ≠ .off) (hcp : s.cpHalted = false) (ht : (s.eng e).task = some t)
    (hjob : refIsJob t.ref = true) (hab : t.abort = none) (hend : t.exec.ended = false) : Answers (.jobPreempt e) s fun m =>
      (∃ u, (m.eng e).task = some u ∧ u.abort = some ⟨255, 0, false⟩ ∧ u.ref = t.ref ∧ u.qa = [] ∧ u.writes = []) ∧
      m.mem = s.mem ∧ m.syncs = s.syncs ∧ (∀ f, f ≠ e → m.eng f = s.eng f) ∧
      (m.rd SYS_ADM_CNT_PREEMPT).toNat = min ((s.rd SYS_ADM_CNT_PREEMPT).toNat + 1) 0xFFFFFFFF := by
  have hrun : jobPreempt e s.toModule =
      (s.toModule.abortTask e ⟨stPreempted, 0, false⟩).count SYS_ADM_CNT_PREEMPT 1 := by
    unfold jobPreempt Module.firmware
    rw [hcp, if_neg Bool.false_ne_true]
    dsimp only
    rw [ht]
    dsimp only
    rw [hjob, hab, hend]
    rfl
  have htask := Module.abortTask_task ht hab ⟨stPreempted, 0, false⟩
  have hkeep := Module.abortTask_keeps s.toModule e ⟨stPreempted, 0, false⟩
  have hothers := Module.abortTask_engBut s.toModule e ⟨stPreempted, 0, false⟩
  have hregs := Module.abortTask_regsBut s.toModule e ⟨stPreempted, 0, false⟩
  refine .of_ok hon (congrArg (ok s) hrun) ?_
  generalize s.toModule.abortTask e ⟨stPreempted, 0, false⟩ = k at htask hkeep hothers hregs
  have hcount := Module.count_keeps k SYS_ADM_CNT_PREEMPT 1
  refine ⟨⟨t.stopped ⟨stPreempted, 0, false⟩, ?_, rfl, rfl, rfl, rfl⟩, ?_, ?_, fun f hf => ?_, ?_⟩
  · exact (hcount.view (fun x : Module => (x.eng e).task) fun _ => rfl).trans htask
  · exact (hcount.view (·.mem) fun _ => rfl).trans (hkeep.view (·.mem) fun _ => rfl)
  · exact (hcount.view (·.syncs) fun _ => rfl).trans (hkeep.view (·.syncs) fun _ => rfl)
  · exact (hcount.view (fun x : Module => x.eng f) fun _ => rfl).trans (hothers.eng hf)
  · rw [Module.rd_count_same_toNat, hregs.rd (preempt_elsewhere e)]

end
end Sys2Proof.Machine
end

section
set_option Elab.async false
/-!
WITHDRAW (R396).
-/
namespace Sys2Proof.Machine
open Sys2Proof

/-! ### The commands taken of a session -/

/-- How many of the commands taken have this tag and opcode. -/
def takenCount (l : List Taken) (tag : Word) (op : Byte) : Nat := (l.filter fun t => t.tag = tag && t.opcode = op).length

section
variable {tag tag' : Word} {op op' : Byte}

theorem takenCount_cons (t : Taken) (l : List Taken) :
    takenCount (t :: l) tag op = takenCount l tag op + if t.tag = tag ∧ t.opcode = op then 1 else 0 := by
  unfold takenCount
  by_cases ht : t.tag = tag ∧ t.opcode = op
  · obtain ⟨htag, hop⟩ := ht
    simp [htag, hop]
  · rw [if_neg ht, List.filter_cons_of_neg (by simpa using ht)]
    rfl

theorem takenCount_markStarted (l : List Taken) : takenCount (markStarted l tag' op') tag op = takenCount l tag op := by
  induction l with
  | nil => rfl
  | cons t l ih =>
    unfold markStarted
    split
    · exact (takenCount_cons ..).trans (takenCount_cons t l).symm
    · rw [takenCount_cons, takenCount_cons, ih]

/-- Dropping a command of another opcode drops none of this one. -/
theorem takenCount_dropTaken_ne (l : List Taken) (hop : op' ≠ op) : takenCount (dropTaken l tag' op') tag op = takenCount l tag op := by
  induction l with
  | nil => rfl
  | cons t l ih =>
    unfold dropTaken
    split
    · next hdrop => rw [takenCount_cons, if_neg fun hc => hop (hdrop.2.1.symm.trans hc.2), Nat.add_zero]
    · rw [takenCount_cons, takenCount_cons, ih]

theorem takenCount_dropTaken_same (l : List Taken) (hl : ∃ t ∈ l, t.tag = tag ∧ t.opcode = op ∧ t.started = true) :
    takenCount (dropTaken l tag op) tag op + 1 = takenCount l tag op := by
  induction l with
  | nil =>
    obtain ⟨t, ht, -⟩ := hl
    exact absurd ht List.not_mem_nil
  | cons t l ih =>
    obtain ⟨u, hu, hp⟩ := hl
    unfold dropTaken
    by_cases hdrop : t.tag = tag ∧ t.opcode = op ∧ t.started = true
    · rw [if_pos hdrop, takenCount_cons, if_pos ⟨hdrop.1, hdrop.2.1⟩]
    · have hul : u ∈ l := (List.mem_cons.1 hu).resolve_left fun he => hdrop (he ▸ hp)
      have := ih ⟨u, hul, hp⟩
      rw [if_neg hdrop, takenCount_cons, takenCount_cons]
      omega

theorem mem_dropTaken {t : Taken} {l : List Taken} (ht : t ∈ l) (hop : t.opcode ≠ op) : t ∈ dropTaken l tag op := by
  induction l with
  | nil => exact absurd ht List.not_mem_nil
  | cons u l ih =>
    unfold dropTaken
    split
    · next hdrop => exact (List.mem_cons.1 ht).resolve_left fun he => hop (he ▸ hdrop.2.1)
    · rcases List.mem_cons.1 ht with he | hl
      · exact he ▸ List.mem_cons_self
      · exact List.mem_cons_of_mem _ (ih hl)

end

section
variable {s : State} {m k : Module} {h : CmdHdr} {x : Session} {j : Job} {c : CmdRef} {tag : Word}

/-- The session whose command's completion has been written. -/
def writtenSession (x : Session) (tag : Word) (op : Byte) : Session :=
  { x with taken := dropTaken x.taken tag op, cqTail := x.cqTail + 1, txSeq := x.txSeq + 1 }

theorem complete_session (hx : m.sessions.find? c.session.val = some x) (hgen : x.gen = c.gen) (hroom : cqRoom x = true)
    (hon : m.cpHalted = false) (status result : Nat) :
    (m.complete c status result).sessions.find? c.session.val = some (writtenSession x c.tag c.opcode) := by
  rw [Module.complete_written hx hgen status result hroom hon, Module.writeCompl_attached (SMap.find?_insert_same _ _ _),
    Module.ringWrite_attached (SMap.find?_insert_same _ _ _), Module.originate_sessions]
  exact SMap.find?_insert_same _ _ _

theorem cqRoom_of (hwait : x.cqWait = []) (hused : ringUsed x.cqTail x.cqHead < x.cqN) : cqRoom x = true := by
  unfold cqRoom
  rw [hwait, decide_eq_true hused]
  rfl

theorem ringUsed_succ (tail head : Word) : ringUsed (tail + 1) head ≤ ringUsed tail head + 1 := by
  unfold ringUsed
  bv_omega

theorem cqRoom_written {op : Byte} (hwait : x.cqWait = []) (hused : ringUsed x.cqTail x.cqHead + 1 < x.cqN) :
    cqRoom (writtenSession x tag op) = true :=
  cqRoom_of (x := writtenSession x tag op) hwait (lt_of_le_of_lt (ringUsed_succ x.cqTail x.cqHead) hused)

/-! ### The end of a job that a WITHDRAW names -/

/-- A job that has ended leaves the queue, or waits for room for its completion (R399). -/
def Module.jobOut (m : Module) (j : Job) : Module :=
  if m.complWaits j.cmd then
    m.adjustJob j.id fun j => { j with held := true, tasks := j.tasks.map fun l => l.map fun _ => (.ended, 0, false) }
  else
    ({ m with jobs := m.jobs.filter (·.id ≠ j.id) } : Module).setFld SYS_ADM_STAT SYS_ADM_STAT_jobs (m.jobs.filter (·.id ≠ j.id)).length

theorem endJob_eq (m : Module) (j : Job) (status result : Nat) :
    m.endJob j status result = ((m.jobOut j).complete j.cmd status result).withdrawDone j.id := rfl

theorem Module.jobOut_keeps (m : Module) (j : Job) : Keeps (Fld.regs ||| Fld.jobs) m (m.jobOut j) := by
  unfold Module.jobOut
  refine .ite (fun _ => .after (Module.adjustJob_keeps ..) rfl .refl) fun _ => ?_
  exact .after (Module.setFld_keeps ..) rfl (.upd .refl)

theorem jobOut_gone (hw : m.complWaits j.cmd = false) : (m.jobOut j).job? j.id = none := by
  unfold Module.jobOut
  rw [hw, if_neg Bool.false_ne_true, show ∀ (k : Module) (off : Nat) (b : Bits) (v : Nat), (k.setFld off b v).job? = k.job? from
    fun _ _ _ _ => rfl]
  refine List.find?_eq_none.2 fun i hi => ?_
  have hne := of_decide_eq_true (List.mem_filter.1 hi).2
  exact fun he => hne (of_decide_eq_true he)

theorem jobOut_held (hw : m.complWaits j.cmd = true) (hj : m.job? j.id = some j) :
    ∃ i, (m.jobOut j).job? j.id = some i ∧ i.held = true := by
  unfold Module.jobOut
  rw [if_pos hw]
  exact ⟨_, job?_adjustJob hj fun _ hi => hi, rfl⟩

/-- The last job that a WITHDRAW waits for completes it. -/
theorem withdrawDone_last {id n : Nat} (hw : m.withdraws = [⟨c, n, [id]⟩]) :
    m.withdrawDone id = ({ m with withdraws := [] } : Module).complete c stOk n := by
  unfold Module.withdrawDone
  simp [hw]

/-! ### WITHDRAW -/

/-- The jobs of a session that carry a tag. -/
def jobsOf (m : Module) (h : CmdHdr) (x : Session) (tag : Word) : List Job :=
  m.jobs.filter fun j => j.cmd.session = h.session && j.cmd.gen = x.gen && j.cmd.tag = tag

theorem withdrawn_ids (hc : c.session = h.session) (hg : c.gen = x.gen) :
    (m.jobs.filter fun j => !j.held && j.cmd.session = c.session && j.cmd.gen = c.gen && j.cmd.tag = tag) =
      (jobsOf m h x tag).filter fun j => !j.held := by
  unfold jobsOf
  rw [List.filter_filter, hc, hg]
  exact List.filter_congr fun i _ => by simp only [Bool.and_assoc]

theorem withdrawStart_none (hc : c.session = h.session) (hg : c.gen = x.gen) (hnone : jobsOf m h x tag = []) :
    withdrawStart tag c m = m.complete c stOk 0 := by
  unfold withdrawStart
  dsimp only
  rw [withdrawn_ids hc hg, hnone]
  rfl

/-- The module with a WITHDRAW that waits for one job. -/
def Module.withdrawing (m : Module) (c : CmdRef) (id : Nat) : Module := { m with withdraws := m.withdraws ++ [⟨c, 1, [id]⟩] }

theorem withdrawStart_one (hc : c.session = h.session) (hg : c.gen = x.gen) (hone : jobsOf m h x tag = [j])
    (hj : m.job? j.id = some j) (hdis : j.dispatched = false) (hheld : j.held = false) :
    withdrawStart tag c m = (m.withdrawing c j.id).endJob j stWithdrawn 0 := by
  have hids : [j].filter (fun j => !j.held) = [j] := List.filter_cons_of_pos (by rw [hheld]; rfl)
  have hjob : (m.withdrawing c j.id).withdrawJob j.id = (m.withdrawing c j.id).endJob j stWithdrawn 0 := by
    unfold Module.withdrawJob
    rw [show (m.withdrawing c j.id).job? j.id = some j from hj]
    dsimp only
    rw [hheld, hdis]
    rfl
  unfold withdrawStart
  dsimp only
  rw [withdrawn_ids hc hg, hone, hids]
  exact hjob

/-- What a WITHDRAW of one job that is not dispatched leaves. -/
theorem withdrawn_one (hc : c.session = h.session) (hg : c.gen = x.gen) (hone : jobsOf m h x tag = [j])
    (hj : m.job? j.id = some j) (hdis : j.dispatched = false) (hheld : j.held = false) (hw : m.withdraws = []) :
    withdrawStart tag c m =
      ({ (((m.withdrawing c j.id).jobOut j).complete j.cmd stWithdrawn 0) with withdraws := [] } : Module).complete c stOk 1 := by
  have hout := Module.jobOut_keeps (m.withdrawing c j.id) j
  have hwd : ((((m.withdrawing c j.id).jobOut j).complete j.cmd stWithdrawn 0)).withdraws = [⟨c, 1, [j.id]⟩] := by
    rw [(Module.complete_keeps ..).view (·.withdraws) fun _ => rfl, hout.view (·.withdraws) fun _ => rfl]
    exact congrArg (· ++ _) hw
  rw [withdrawStart_one hc hg hone hj hdis hheld, endJob_eq, withdrawDone_last hwd]

theorem withdraw_nothing (hst : Startable s h 4 (entryHas [(8, 4, tag.toNat)]) x)
    (hall : s.jobs.all (fun j => !(j.cmd.session = h.session && j.cmd.gen = x.gen && j.cmd.tag = tag)) = true) :
    Answers (.withdraw h tag) s fun m => m.jobs = s.jobs ∧ Completes m h 4 x 0 0 := by
  have hnone : jobsOf (s.toModule.begun h 4 x) h x tag = [] :=
    List.filter_eq_nil_iff.2 fun i hi hp => by
      have := List.all_eq_true.1 hall i hi
      rw [hp] at this
      exact Bool.false_ne_true this
  refine hst.answers (c := .withdraw h tag) rfl ?_
  rw [withdrawStart_none (h := h) (x := x) rfl rfl hnone]
  exact ⟨(Module.complete_keeps ..).view (·.jobs) fun _ => rfl, completes_of_begun s.toModule (by exact rfl) stOk 0⟩

theorem withdraw_one (hst : Startable s h 4 (entryHas [(8, 4, tag.toNat)]) x) (hone : jobsOf s.toModule h x tag = [j])
    (hj : s.job? j.id = some j) (hdis : j.dispatched = false) (hheld : j.held = false) (hop : j.cmd.opcode = 3)
    (hw : s.withdraws = []) : Answers (.withdraw h tag) s fun m => m.withdraws = [] ∧ (cqRoom x = true → m.job? j.id = none) ∧
      (cqRoom x = false → ∃ k, m.job? j.id = some k ∧ k.held = true) ∧
      (x.cqWait = [] → ringUsed x.cqTail x.cqHead + 1 < x.cqN → ∃ y, m.sessions.find? h.session.val = some y ∧
        takenCount y.taken h.tag 4 + 1 = takenCount x.taken h.tag 4) := by
  have hin : j ∈ jobsOf s.toModule h x tag := hone ▸ List.mem_singleton_self j
  have hcmd := (List.mem_filter.1 hin).2
  simp only [Bool.and_eq_true, decide_eq_true_eq] at hcmd
  obtain ⟨⟨hses, hgen⟩, -⟩ := hcmd
  let c : CmdRef := ⟨h.session, x.gen, h.tag, BitVec.ofNat 8 4⟩
  let m0 := (s.toModule.begun h 4 x).withdrawing c j.id
  have hx0 : m0.sessions.find? j.cmd.session.val = some (begunSession h 4 x) := by
    rw [hses]
    exact Module.begun_find ..
  have hwaits : m0.complWaits j.cmd = !cqRoom x := by
    unfold Module.complWaits Module.cmdSession
    rw [hx0]
    dsimp only
    rw [if_pos (show (begunSession h 4 x).gen = j.cmd.gen from hgen.symm)]
    dsimp only
    rw [show m0.cpHalted = false from hst.2.2.2.1, Bool.or_false]
    rfl
  have hjob0 : m0.job? j.id = some j := hj
  have hkeep := Module.jobOut_keeps m0 j
  have hgone := jobOut_gone (m := m0) (j := j)
  have hstay := jobOut_held (m := m0) (j := j)
  have hstart := exists_started_markStarted (exists_of_canStart hst.2.2.1)
  have hon : m0.cpHalted = false := hst.2.2.2.1
  refine hst.answers (c := .withdraw h tag) rfl ?_
  have hrun : withdrawStart tag c (s.toModule.begun h 4 x) =
      ({ ((m0.jobOut j).complete j.cmd stWithdrawn 0) with withdraws := [] } : Module).complete c stOk 1 :=
    withdrawn_one (m := s.toModule.begun h 4 x) (h := h) (x := x) rfl rfl hone hj hdis hheld hw
  rw [hrun]
  generalize hk : m0.jobOut j = k at hkeep hgone hstay
  have hjobs (q : Module) : (q.complete c stOk 1).job? j.id = q.job? j.id :=
    (Module.complete_keeps ..).view (fun m : Module => m.job? j.id) fun _ => rfl
  have hjobs' : (k.complete j.cmd stWithdrawn 0).job? j.id = k.job? j.id :=
    (Module.complete_keeps ..).view (fun m : Module => m.job? j.id) fun _ => rfl
  refine ⟨(Module.complete_keeps ..).view (·.withdraws) fun _ => rfl, fun hroom => ?_, fun hroom => ?_, fun hwait hused => ?_⟩
  · exact (hjobs _).trans (hjobs'.trans (hgone (by rw [hwaits, hroom]; rfl)))
  · obtain ⟨i, hi, hih⟩ := hstay (by rw [hwaits, hroom]; rfl) hjob0
    exact ⟨i, (hjobs _).trans (hjobs'.trans hi), hih⟩
  · have hkx : k.sessions.find? j.cmd.session.val = some (begunSession h 4 x) := by
      rw [hkeep.view (·.sessions) fun _ => rfl, hx0]
    have hkon : k.cpHalted = false := (hkeep.view (·.cpHalted) fun _ => rfl).trans hon
    have hroom : cqRoom (begunSession h 4 x) = true := cqRoom_of (x := begunSession h 4 x) hwait (by
      exact Nat.lt_of_succ_lt hused)
    have h1 := complete_session hkx hgen.symm hroom hkon stWithdrawn 0
    rw [hses] at h1
    have h2 := complete_session (m := { k.complete j.cmd stWithdrawn 0 with withdraws := [] }) (c := c) h1 rfl
      (cqRoom_written (x := begunSession h 4 x) hwait hused) ((Module.complete_cpHalted ..).trans hkon) stOk 1
    refine ⟨_, h2, ?_⟩
    obtain ⟨t, ht, htag, htop, hts⟩ := hstart
    have hdrop := takenCount_dropTaken_same (dropTaken (markStarted x.taken h.tag (BitVec.ofNat 8 4)) j.cmd.tag j.cmd.opcode)
      ⟨t, mem_dropTaken ht (by rw [htop, hop]; decide), htag, htop, hts⟩
    have hother : takenCount (dropTaken (markStarted x.taken h.tag (BitVec.ofNat 8 4)) j.cmd.tag j.cmd.opcode) h.tag 4 =
        takenCount (markStarted x.taken h.tag (BitVec.ofNat 8 4)) h.tag 4 := takenCount_dropTaken_ne _ (by rw [hop]; decide)
    exact hdrop.trans (hother.trans (takenCount_markStarted _))

end
end Sys2Proof.Machine

namespace Sys2Proof
open Sys2Proof.Machine

/-- Settles O40: the record's checks rest on what its reading keeps; a placed, a preempted and a withdrawn task change their own
job and position alone, and a withdrawn job's completion makes room for that of the WITHDRAW. -/
theorem jobsComplete : Obligations.JobsComplete := by
  unfold Obligations.JobsComplete
  refine fun h x s => ⟨fun record rec hd b hst hl halign hbusy hhd hb hexp => ⟨?_, ?_⟩, ?_, ?_, ?_, fun tag hst => ⟨?_, ?_⟩⟩
  · exact job_queued hst hl halign hbusy hhd hb hexp
  · exact job_refused hst hl halign hbusy hhd hb
  · exact fun record rec hst halign hbusy => job_unaligned hst hbusy halign
  · exact fun j stage task cl logical e n again st => jobDispatch_answers
  · exact fun e t => jobPreempt_answers
  · exact withdraw_nothing hst
  · exact fun j => withdraw_one hst

end Sys2Proof
end

section
set_option Elab.async false
/-!
What the tellings of an event leave: the sessions beside their event queues, and the reports that wait for their acknowledgement.
-/
namespace Sys2Proof.Machine
open Sys2Proof

/-- A window message that writes an ADMIT's report. -/
def WinUse.isReport (u : WinUse) : Bool := match u with
  | .report .. => true
  | _ => false

/-- The reports that wait for their acknowledgement. -/
def Module.reports (m : Module) : List WinOut := m.winOut.filter (·.use.isReport)

section
variable {b m k : Module}

theorem reports_of_winOut (h : k.winOut = m.winOut) : Agree Module.reports m k := congrArg (List.filter _) h

theorem ringWrite_reports (m : Module) (n offset : Nat) (data : List Byte) {use : WinUse} (huse : use.isReport = false) :
    Agree Module.reports m (m.ringWrite n offset data use) := by
  unfold Module.ringWrite
  split
  · exact .refl
  · refine .kept (Module.originate_keeps ..) (fun _ => rfl) ?_
    unfold Agree Module.reports
    rw [List.filter_append, List.filter_cons_of_neg (by rw [huse]; exact Bool.false_ne_true)]
    exact List.append_nil _

theorem writeEvent_reports (m : Module) (n : Nat) (e : Event) : Agree Module.reports m (m.writeEvent n e) := by
  unfold Module.writeEvent
  split
  · exact .refl
  · exact .after (ringWrite_reports _ _ _ _ rfl) (reports_of_winOut rfl)

theorem writeLost_reports (m : Module) (n : Nat) : Agree Module.reports m (m.writeLost n) := by
  unfold Module.writeLost
  split
  · exact .refl
  · next s _ =>
    refine .ite (fun _ => .refl) fun _ => ?_
    have hmade : Agree Module.reports m (m.makeEvent 0x0D01 0xFF 0 0 s.lost s.firstLost.toNat 0).2 :=
      .kept (Module.makeEvent_keeps ..) (fun _ => rfl) .refl
    dsimp only
    generalize m.makeEvent 0x0D01 0xFF 0 0 s.lost s.firstLost.toNat 0 = r at hmade
    exact .after (writeEvent_reports ..) (.trans hmade (reports_of_winOut rfl))

theorem deliverTo_reports (m : Module) (e : Event) (n : Nat) : Agree Module.reports m (m.deliverTo e n) := by
  unfold Module.deliverTo
  split
  · exact .refl
  · exact .ite (fun _ => .ite (fun _ => writeEvent_reports ..) fun _ => reports_of_winOut rfl) fun _ => .refl

theorem deliver_reports (m : Module) (e : Event) : Agree Module.reports m (m.deliver e) := by
  unfold Module.deliver
  exact .ite (fun _ => .upd .refl) fun _ => .foldl (fun _ _ => deliverTo_reports ..) _ .refl

theorem writeAllLost_reports (m : Module) : Agree Module.reports m m.writeAllLost := by
  unfold Module.writeAllLost
  exact .foldl (fun _ _ => writeLost_reports ..) _ .refl

theorem raiseSeq_reports (m : Module) (code ctx : Nat) (seq : Word) (p0 p1 p2 p3 : Nat) :
    Agree Module.reports m (m.raiseSeq code ctx seq p0 p1 p2 p3) := by
  unfold Module.raiseSeq
  exact .after (deliver_reports ..) <| .after (.kept (Module.makeEvent_keeps ..) (fun _ => rfl) .refl) <| writeAllLost_reports m

theorem fault_reports (m : Module) (cls code p0 p1 p2 p3 : Nat) : Agree Module.reports m (m.fault cls code p0 p1 p2 p3) := by
  unfold Module.fault Module.faultSeq
  have hmade : Agree Module.reports m ((m.countFault cls).writeAllLost.makeEvent code 0xFF 0 p0 p1 p2 p3).2 :=
    .after (.kept (Module.makeEvent_keeps ..) (fun _ => rfl) .refl) <| .after (writeAllLost_reports _) <|
      .kept (Module.countFault_keeps ..) (fun _ => rfl) .refl
  generalize (m.countFault cls).writeAllLost.makeEvent code 0xFF 0 p0 p1 p2 p3 = r at hmade
  exact .after (deliver_reports ..) (.trans hmade (reports_of_winOut rfl))

/-! ### Both at once -/

/-- The sessions beside their event queues, and the reports that wait. -/
def Module.told (m : Module) : (Nat → Option Session) × List WinOut := (m.unheard, m.reports)

theorem Agree.told_of (h : Agree Module.unheard m k) (hr : Agree Module.reports m k) : Agree Module.told m k :=
  Prod.ext h hr

theorem Agree.told_heard (h : Agree Module.told m k) : Agree Module.unheard m k := (congrArg Prod.fst h :)

theorem Agree.told_reports (h : Agree Module.told m k) : Agree Module.reports m k := (congrArg Prod.snd h :)

theorem raiseCtx_told (m : Module) (code c p0 p1 p2 p3 : Nat) : Agree Module.told m (m.raiseCtx code c p0 p1 p2 p3) :=
  .told_of (m.raiseSeq_unheard ..) (raiseSeq_reports ..)

theorem raise_told (m : Module) (code p0 p1 p2 p3 : Nat) : Agree Module.told m (m.raise code p0 p1 p2 p3) :=
  .told_of (m.raiseSeq_unheard ..) (raiseSeq_reports ..)

theorem fault_told (m : Module) (cls code p0 p1 p2 p3 : Nat) : Agree Module.told m (m.fault cls code p0 p1 p2 p3) :=
  .told_of (m.fault_unheard ..) (fault_reports ..)

theorem dramMet_told (m : Module) (a : Nat) : Agree Module.told m (m.dramMet a) := by
  unfold Module.dramMet
  refine .after (fault_told ..) (.kept (G := Fld.regs) ?_ (fun _ => rfl) .refl)
  exact .after (Module.setFld_keeps ..) rfl <| .after (Module.setFld_keeps ..) rfl <| .after (Module.wr_keeps ..) rfl <|
    m.count_keeps ..

theorem meetErr_told (m : Module) (source : Nat) (e : MemErr) : Agree Module.told m (m.meetErr source e) := by
  have hregs {k l : Module} (h : Keeps (Fld.regs ||| Fld.poison) k l) : Agree Module.told k l := .kept h (fun _ => rfl) .refl
  unfold Module.meetErr
  split
  · refine .ite (fun _ => .refl) fun _ => .ite (fun _ => ?_) fun _ => ?_
    · unfold Module.spmPoison
      refine .after (fault_told ..) (hregs ?_)
      exact .after (Module.setFld_keeps ..) rfl <| .after (Module.setFld_keeps ..) rfl <| .after (Module.setFld_keeps ..) rfl <|
        .after (Module.satAdd_keeps ..) rfl <| .after (Module.count_keeps ..) rfl <| .upd .refl
    · unfold Module.spmCorrected
      have hcount : Agree Module.told m ((m.count (SPM_ST_CE (m.stackOf e.addr)) 1).countFault 4) :=
        hregs (.after (Module.countFault_keeps ..) rfl ((m.count_keeps ..).mono rfl))
      exact .ite (fun _ => .after (raise_told ..) hcount) fun _ => hcount
  · refine .ite (fun _ => .refl) fun _ => .ite (fun _ => .upd .refl) fun _ => hregs ?_
    exact .after (Module.countFault_keeps ..) rfl ((m.count_keeps ..).mono rfl)
  · exact .refl

theorem meetWhere_told (m : Module) (source : Nat) (hit : MemErr → Bool) : Agree Module.told m (m.meetWhere source hit) := by
  unfold Module.meetWhere
  exact .foldl (fun _ _ => meetErr_told ..) _ (.upd .refl)

theorem clearBad_told (m : Module) (a n : Nat) : Agree Module.told m (m.clearBad a n) :=
  .kept (Module.clearBad_keeps ..) (fun _ => rfl) .refl

theorem flushLine_told (m : Module) (line : Nat) : Agree Module.told m (m.flushLine line) := by
  unfold Module.flushLine
  split
  · exact .refl
  · refine .kept (Module.reportGather_keeps ..) (fun _ => rfl) <| .kept (Module.putSome_keeps ..) (fun _ => rfl) <|
      .foldl (fun m w => ?_) _ (.upd .refl)
    exact .ite (fun _ => clearBad_told ..) fun _ => .ite (fun _ => meetWhere_told ..) fun _ => .refl

theorem flushSpan_told (m : Module) (a n : Nat) : Agree Module.told m (m.flushSpan a n) :=
  .foldl (fun _ _ => flushLine_told ..) _ .refl

theorem write_told (m : Module) (a : Nat) (l : List Byte) : Agree Module.told m (m.write a l) := by
  unfold Module.write
  exact .kept (Module.putSome_keeps ..) (fun _ => rfl) <| .after (clearBad_told ..) <|
    .after (.foldl (fun _ _ => dramMet_told ..) _ .refl) <| .after (meetWhere_told ..) <|
    .after (meetWhere_told ..) <| flushSpan_told ..

theorem zero_told (m : Module) (a n : Nat) : Agree Module.told m (m.zero a n) := by
  unfold Module.zero
  exact .after (clearBad_told ..) <| .upd <| flushSpan_told ..

theorem narrowLine_told (m : Module) (a : Nat) (l : List Byte) : Agree Module.told m (m.narrowLine a l) := by
  unfold Module.narrowLine
  extract_lets line s evicted old e entered
  have hevicted : Agree Module.told m evicted := by
    refine .ite (fun _ => ?_) fun _ => .refl
    split
    · exact flushLine_told ..
    · exact .refl
  have hentered : Agree Module.told m entered := .kept (Module.reportGather_keeps ..) (fun _ => rfl) (.upd hevicted)
  exact .ite (fun _ => .after (flushLine_told ..) hentered) fun _ => hentered

theorem spmWriteGo_told (fuel : Nat) (m : Module) (a : Nat) (l : List Byte) : Agree Module.told m (Module.spmWriteGo fuel m a l) := by
  induction fuel generalizing m a l with
  | zero => exact .refl
  | succ fuel ih =>
    unfold Module.spmWriteGo
    exact .ite (fun _ => .refl) fun _ => .ite (fun _ => .after (ih ..) (write_told ..)) fun _ => .after (ih ..) (narrowLine_told ..)

theorem store_told (m : Module) (a : Nat) (l : List Byte) : Agree Module.told m (m.store a l) :=
  .ite (fun _ => spmWriteGo_told ..) fun _ => write_told ..

theorem readMeets_told (m : Module) (source a n : Nat) : Agree Module.told m (m.readMeets source a n).2 := by
  unfold Module.readMeets Module.readBad Module.reportBad
  exact .ite (fun _ => .after (.foldl (fun _ _ => dramMet_told ..) _ .refl) (meetWhere_told ..)) fun _ => meetWhere_told ..

end
end Sys2Proof.Machine
end

section
set_option Elab.async false
/-!
Admission and release of streams (R345, R351, R352, R356 to R361).
-/
namespace Sys2Proof.Machine
open Sys2Proof

section
variable {s : State} {m k : Module} {h : CmdHdr} {x : Session} {q : AdmitReq} {p : Plan} {c : CmdRef}

/-! ### ADMIT -/

section
variable {setup report : W64} {len : Word} {rec : Remote} (hst : StartableRun s h 1 (admitOperands setup report len) x)
  (hturn : s.serialTurn h 1 = true) (hmode : s.modeChange = none) (hbusy : s.recordBusy setup.toNat setupLen = false)
include hst hturn hmode hbusy

theorem admit_answers {Q : Module → Prop}
    (hQ : Q (admitStart setup report len rec ⟨h.session, x.gen, h.tag, BitVec.ofNat 8 1⟩ (s.toModule.begun h 1 x))) :
    Answers (.admitStream h setup report len rec) s Q := by
  refine hst.answers (c := .admitStream h setup report len rec) (congrArg (ok s) ?_) hQ
  unfold admitStream
  rw [hturn, hmode, hbusy]
  rfl

theorem admit_waits {hd b : List Byte} (hl : s.latent = []) (halign : setup.toNat % 64 = 0) (hlen : report = 0 ∨ 64 ≤ len.toNat)
    (hhd : s.recordRead setup.toNat 64 rec = .ok hd) (hb : s.recordRead setup.toNat (setupLen hd) rec = .ok b) :
    Answers (.admitStream h setup report len rec) s fun m =>
      Underway m h 1 ∧ m.streams = s.streams ∧ m.mem = s.mem ∧ ∃ q, m.admitting = some q ∧
        q.cmd = ⟨h.session, x.gen, h.tag, 1⟩ ∧ q.addr = setup.toNat ∧ q.setup = setupOf b ∧ q.malformed = setupBad b ∧
        q.report = report.toNat ∧ q.reportLen = len.toNat := by
  obtain ⟨k, l, hk, hfetch, hmet⟩ := record_fetched (m := s.toModule.begun h 1 x) (len := setupLen) hl hhd hb
  have hform : ¬(decide (setup.toNat % 64 ≠ 0) || decide (report ≠ 0) && decide (len.toNat < 64)) = true := by
    rw [decide_eq_false (not_not.2 halign), Bool.false_or]
    rcases hlen with rfl | hlen
    · simp
    · simp [Nat.not_lt.2 hlen]
  refine admit_answers hst hturn hmode hbusy ?_
  have hrun : admitStart setup report len rec ⟨h.session, x.gen, h.tag, BitVec.ofNat 8 1⟩ (s.toModule.begun h 1 x) =
      { l with admitting := some ⟨⟨h.session, x.gen, h.tag, BitVec.ofNat 8 1⟩, l.cmdPort ⟨h.session, x.gen, h.tag, BitVec.ofNat 8 1⟩,
        setup.toNat, setupOf b, setupBad b, report.toNat, len.toNat⟩ } := by
    unfold admitStart
    dsimp only
    rw [if_neg hform, hk]
    dsimp only
    rw [hfetch]
  rw [hrun]
  refine ⟨underway_of_heard hst.1 (.upd hmet.heard), hmet.keeps.view (·.streams) fun _ => rfl,
    hmet.keeps.view (·.mem) fun _ => rfl, _, rfl, rfl, rfl, rfl, rfl, rfl, rfl⟩

theorem admit_unaligned (halign : setup.toNat % 64 ≠ 0) : Answers (.admitStream h setup report len rec) s fun m =>
    m.streams = s.streams ∧ m.admitting = none ∧
      (m.rd SYS_ADM_CNT_REFUSED).toNat = min ((s.rd SYS_ADM_CNT_REFUSED).toNat + 1) 0xFFFFFFFF ∧ Completes m h 1 x 3 0 := by
  have hfree : s.admitting = none := by
    have hserial : s.serialFree = true := (Bool.and_eq_true_iff.1 hturn).1
    unfold Module.serialFree at hserial
    simp only [Bool.and_eq_true] at hserial
    exact Option.isNone_iff_eq_none.1 hserial.1.1.1.1
  have hform : (decide (setup.toNat % 64 ≠ 0) || decide (report ≠ 0) && decide (len.toNat < 64)) = true := by
    rw [decide_eq_true halign, Bool.true_or]
  refine admit_answers hst hturn hmode hbusy ?_
  have hrun : admitStart setup report len rec ⟨h.session, x.gen, h.tag, BitVec.ofNat 8 1⟩ (s.toModule.begun h 1 x) =
      ((s.toModule.begun h 1 x).count SYS_ADM_CNT_REFUSED 1).complete ⟨h.session, x.gen, h.tag, BitVec.ofNat 8 1⟩ stRefused 0 :=
    if_pos hform
  rw [hrun]
  refine ⟨(Module.complete_keeps ..).view (·.streams) fun _ => rfl,
    ((Module.complete_keeps ..).view (·.admitting) fun _ => rfl).trans hfree, ?_,
    completes_of_begun s.toModule (by exact rfl) stRefused 0⟩
  rw [Module.complete_rd, Module.rd_count_same_toNat]
  rfl

end

/-! ### The report of an ADMIT -/

theorem completesRef_of_heard {c : CmdRef} (hk : Agree Module.unheard s.toModule k) (status result : Nat) :
    CompletesRef s (k.complete c status result) c status result := by
  intro x hx hgen
  have hc := completes_of_unheard (h := ⟨c.session, c.tag, false⟩) hk hx c.opcode.toNat status result
  rw [BitVec.ofNat_toNat, BitVec.setWidth_eq, hgen] at hc
  exact hc

theorem admitEnd_completes (hk : Agree Module.unheard s.toModule k) (status result : Nat) :
    CompletesRef s (k.admitEnd c status result) c status result := by
  unfold Module.admitEnd
  split
  · exact completesRef_of_heard (.after (raiseCtx_told ..).told_heard hk) _ _
  · exact completesRef_of_heard hk _ _

theorem winWriteTo_heard (m : Module) (w : Fin 64) (off : Nat) (data : List Byte) (arrive : Bool) (use : WinUse) :
    Agree Module.unheard m (m.winWriteTo w off data arrive use) := .kept (Module.winWriteTo_keeps ..) (fun _ => rfl) .refl

/-- A report is written to local memory, or goes out through a window. -/
theorem writeOut_told (m : Module) (a : Nat) (l : List Byte) (use : WinUse) :
    Agree Module.unheard m (m.writeOut a l use) ∧ (inWindows a = true ∨ Agree Module.reports m (m.writeOut a l use)) := by
  unfold Module.writeOut
  cases hspace : m.spaceOf a with
  | window w off =>
    obtain ⟨hlo, hhi⟩ := window_of_spaceOf hspace
    refine ⟨.foldl (fun _ _ => .ite (fun _ => .refl) fun _ => winWriteTo_heard ..) _ .refl, .inl ?_⟩
    unfold inWindows
    rw [decide_eq_true hlo, decide_eq_true hhi]
    rfl
  | _ =>
    have htold : Agree Module.told m (if (m.accessCause false a l.length).isNone && m.inRegion a l.length then m.store a l else m) :=
      .ite (fun _ => store_told ..) fun _ => .refl
    exact ⟨htold.told_heard, .inr htold.told_reports⟩

/-- No report waits for its acknowledgement. -/
def Module.noReport (m : Module) : Prop := ∀ w ∈ m.winOut, ∀ r st n, w.use ≠ .report r st n

theorem reports_nil (hnone : m.noReport) : m.reports = [] :=
  List.filter_eq_nil_iff.2 fun w hw hrep => by
    cases huse : w.use with
    | report r st n => exact hnone w hw r st n huse
    | _ =>
      rw [huse] at hrep
      exact Bool.false_ne_true hrep

theorem reports_of_use {w : WinOut} (hw : w ∈ m.winOut) {st : Byte} {n : W64} (huse : w.use = .report c st n) : w ∈ m.reports :=
  List.mem_filter.2 ⟨hw, by rw [huse]; rfl⟩

theorem admitReport_reported (hk : Agree Module.told s.toModule k) (hnone : s.noReport) (q : AdmitReq) (failed : Nat) (tried : Bool)
    (stream : Nat) (l : List RepEntry) (status result : Nat) :
    Reported s (k.admitReport q failed tried stream l status result) q status result := by
  have hempty : k.reports = [] := Eq.trans hk.told_reports (reports_nil hnone)
  obtain ⟨hheard, hout⟩ := writeOut_told k q.report (k.admitBytes q failed tried stream l)
    (.report q.cmd (BitVec.ofNat 8 status) (BitVec.ofNat 64 result))
  have hwritten : ∃ y, (if q.report = 0 then k else k.writeOut q.report (k.admitBytes q failed tried stream l)
      (.report q.cmd (BitVec.ofNat 8 status) (BitVec.ofNat 64 result))) = y ∧ Agree Module.unheard s.toModule y ∧
      (inWindows q.report = true ∨ y.reports = []) := by
    refine ⟨_, rfl, ?_⟩
    split
    · exact ⟨hk.told_heard, .inr hempty⟩
    · exact ⟨hk.told_heard.trans hheard, hout.imp_right fun hr => Eq.trans hr hempty⟩
  obtain ⟨y, hy, hyheard, hyout⟩ := hwritten
  unfold Module.admitReport
  dsimp only
  rw [hy]
  by_cases hany : (y.winOut.any fun w => decide (w.use = .report q.cmd (BitVec.ofNat 8 status) (BitVec.ofNat 64 result))) = true
  · rw [if_pos hany]
    obtain ⟨w, hw, huse⟩ := List.any_eq_true.1 hany
    have huse := of_decide_eq_true huse
    refine .inr ⟨hyout.resolve_right fun hnil => ?_, w, hw, huse⟩
    have := reports_of_use hw huse
    rw [hnil] at this
    exact absurd this List.not_mem_nil
  · rw [if_neg hany]
    exact .inl (admitEnd_completes hyheard _ _)

theorem admitReport_mem (hrep : q.report = 0) (k : Module) (failed : Nat) (tried : Bool) (stream : Nat) (l : List RepEntry)
    (status result : Nat) : (k.admitReport q failed tried stream l status result).mem = k.mem := by
  unfold Module.admitReport
  dsimp only
  rw [if_pos hrep]
  split
  · rfl
  · exact (Module.admitEnd_keeps ..).view (·.mem) fun _ => rfl

/-! ### ADMIT_COMPLETE -/

/-- What a refused ADMIT leaves. -/
structure AdmitRefused (s : State) (m : Module) (q : AdmitReq) (l : List RepEntry) : Prop where
  streams : m.streams = s.streams
  dma : m.dma = s.dma
  regions : m.regions = s.regions
  owners : m.syncOwner = s.syncOwner
  mem : q.report = 0 → m.mem = s.mem
  reported : Reported s m q 3 (lowestCheck l * 2 ^ 32)

theorem refuseAdmit_refused (hk : Keeps (Fld.draws ||| Fld.admitting) s.toModule k) (hnone : s.noReport) (q : AdmitReq) (tried : Bool)
    (l : List RepEntry) : AdmitRefused s (k.refuseAdmit q tried l) q l := by
  have hcount := k.count_keeps SYS_ADM_CNT_REFUSED 1
  have htold : Agree Module.told s.toModule (k.count SYS_ADM_CNT_REFUSED 1) :=
    .kept hcount (fun _ => rfl) (.kept hk (fun _ => rfl) .refl)
  have hkeep := (Module.refuseAdmit_keeps k q tried l)
  exact ⟨(hkeep.view (·.streams) fun _ => rfl).trans (hk.view (·.streams) fun _ => rfl),
    (hkeep.view (·.dma) fun _ => rfl).trans (hk.view (·.dma) fun _ => rfl),
    (hkeep.view (·.regions) fun _ => rfl).trans (hk.view (·.regions) fun _ => rfl),
    (hkeep.view (·.syncOwner) fun _ => rfl).trans (hk.view (·.syncOwner) fun _ => rfl),
    fun hrep => (admitReport_mem hrep ..).trans ((hcount.view (·.mem) fun _ => rfl).trans (hk.view (·.mem) fun _ => rfl)),
    admitReport_reported htold hnone ..⟩

theorem refuseAdmit_admitting (k : Module) (q : AdmitReq) (tried : Bool) (l : List RepEntry) :
    (k.refuseAdmit q tried l).admitting = k.admitting := (Module.refuseAdmit_keeps ..).view (·.admitting) fun _ => rfl

/-! The plan of an admitted stream -/

/-- The plan's objects as the stream's own, at 0. -/
def Module.ownObjects (m : Module) (c : Nat) (l : List Nat) : Module :=
  l.foldl (fun (m : Module) o => { m with syncOwner := m.syncOwner.insert o c }.setSync o 0) m

theorem owned_insert {o o' c : Nat} : ({ m with syncOwner := m.syncOwner.insert o' c } : Module).owned o =
    (decide (o = o') || m.owned o) := by
  unfold Module.owned
  dsimp only
  by_cases ho : o = o'
  · rw [ho, SMap.find?_insert_same, decide_eq_true rfl]
    rfl
  · rw [SMap.find?_insert_ne _ _ ho, decide_eq_false ho, Bool.false_or]

theorem setSync_owned (m : Module) (o : Nat) (v : Word) (o' : Nat) : (m.setSync o v).owned o' = m.owned o' := rfl

theorem ownObjects_owned {c o : Nat} {l : List Nat} (ho : o ∈ l ∨ m.sync o = 0 ∧ m.owned o = true) :
    (m.ownObjects c l).sync o = 0 ∧ (m.ownObjects c l).owned o = true := by
  induction l generalizing m with
  | nil => exact ho.resolve_left List.not_mem_nil
  | cons a l ih =>
    refine ih (m := { m with syncOwner := m.syncOwner.insert a c }.setSync a 0) ?_
    rw [setSync_owned, owned_insert]
    by_cases hoa : o = a
    · subst hoa
      exact .inr ⟨Module.sync_setSync_same .., by rw [decide_eq_true rfl, Bool.true_or]⟩
    · rcases ho with hmem | ⟨hsync, hown⟩
      · exact .inl ((List.mem_cons.1 hmem).resolve_left hoa)
      · exact .inr ⟨(Module.sync_setSync_ne _ _ hoa).trans hsync, by rw [hown, Bool.or_true]⟩

/-- The context afresh, weights and ring headers of an admitted stream. -/
def Module.freshStream (m : Module) (c : Nat) (st : Stream) : Module :=
  (List.range 4).foldl (fun m k =>
    if m.outDest c k NIS_OUT_DEST_clip then
      { m with clips := m.clips.insert (4 * c + k) Clip.rest }.clipHeader c k
    else m) ((st.setup.stages.zip st.plan.stages).foldl (fun m (st, p) => m.writeWeights st st.argsSlots p.weights) (m.startContext c))

/-- The latencies that a stream's outputs report. -/
def Module.tellLat (m : Module) (c : Nat) (st : Stream) : Module := (List.range 4).foldl (fun m k =>
  m.wr (NIS_OUT_LAT c k) (BitVec.ofNat 32 (((st.plan.lat.find? (·.1 = k)).map (·.2)).getD 0))) m

theorem installStream_eq (m : Module) (c : Nat) (st : Stream) :
    m.installStream c st = ((m.tellLat c st).ownObjects c st.plan.objects).freshStream c st := rfl

theorem freshStream_keeps (m : Module) (c : Nat) (st : Stream) :
    Keeps (Fld.write ||| Fld.ctxs ||| Fld.gatherAge ||| Fld.clips) m (m.freshStream c st) := by
  unfold Module.freshStream
  refine .foldl (fun _ _ => .ite (fun _ => .after (Module.clipHeader_keeps ..) rfl <| .upd .refl) fun _ => .refl) _ ?_
  refine .foldl (fun _ _ => ?_) _ (.after (Module.startContext_keeps ..) rfl .refl)
  dsimp only
  exact .after (Module.writeWeights_keeps ..) rfl .refl

theorem writeWeights_told (m : Module) (st : StageSetup) (sets addr : Nat) : Agree Module.told m (m.writeWeights st sets addr) := by
  unfold Module.writeWeights
  refine .ite (fun _ => .refl) fun _ => ?_
  split
  · exact .refl
  · exact .foldl (fun _ _ => .ite (fun _ => store_told ..) fun _ => .refl) _ .refl

theorem clipHeader_told (m : Module) (c k : Nat) : Agree Module.told m (m.clipHeader c k) := by
  unfold Module.clipHeader
  split
  · exact .refl
  · exact store_told ..

theorem freshStream_told (m : Module) (c : Nat) (st : Stream) : Agree Module.told m (m.freshStream c st) := by
  unfold Module.freshStream
  refine .foldl (fun _ _ => .ite (fun _ => .after (clipHeader_told ..) (.upd .refl)) fun _ => .refl) _ ?_
  exact .foldl (fun _ _ => writeWeights_told ..) _ (.kept (Module.startContext_keeps ..) (fun _ => rfl) .refl)

theorem tellLat_keeps (m : Module) (c : Nat) (st : Stream) : Keeps Fld.regs m (m.tellLat c st) :=
  .foldl (fun _ _ => .after (Module.wr_keeps ..) rfl .refl) _ .refl

theorem ownObjects_keeps (m : Module) (c : Nat) (l : List Nat) : Keeps (Fld.syncs ||| Fld.syncOwner) m (m.ownObjects c l) :=
  .foldl (fun _ _ => .after (Module.setSync_keeps ..) rfl (.upd .refl)) _ .refl

theorem installStream_told (m : Module) (c : Nat) (st : Stream) : Agree Module.told m (m.installStream c st) := by
  rw [installStream_eq]
  exact .after (freshStream_told ..) <| .kept (ownObjects_keeps ..) (fun _ => rfl) <| .kept (tellLat_keeps ..) (fun _ => rfl) .refl

theorem installStream_owned (m : Module) (c : Nat) (st : Stream) {o : Nat} (ho : o ∈ st.plan.objects) :
    (m.installStream c st).sync o = 0 ∧ (m.installStream c st).owned o = true := by
  have hown := ownObjects_owned (m := m.tellLat c st) (c := c) (.inl ho)
  have hfresh := freshStream_keeps ((m.tellLat c st).ownObjects c st.plan.objects) c st
  rw [installStream_eq]
  exact ⟨(hfresh.view (fun m : Module => m.sync o) fun _ => rfl).trans hown.1,
    (hfresh.view (fun m : Module => m.owned o) fun _ => rfl).trans hown.2⟩

theorem fillPlan_told (m : Module) (c : Nat) (st : Setup) (p : Plan) : Agree Module.told m (m.fillPlan c st p) := by
  unfold Module.fillPlan
  exact .foldl (fun _ _ => .foldl (fun _ _ => write_told ..) _ .refl) _ <| .foldl (fun _ _ => write_told ..) _ <|
    .foldl (fun _ _ => zero_told ..) _ .refl

/-- The stream that an ADMIT enters. -/
def Module.entered (m : Module) (q : AdmitReq) (c : Nat) (p : Plan) : Stream :=
  ⟨SMap.get 1 m.streamGen c, (m.streams.map (·.2.order)).foldl max 0 + 1, q.setup, p, .waiting, none, [], []⟩

/-- The stream as it stands, before it is told of. -/
def Module.booked (m : Module) (q : AdmitReq) (c : Nat) (p : Plan) : Module :=
  (List.range 4).foldl (fun m k => m.setFld (NIS_OUT_STAT c k) NIS_OUT_STAT_window_halted 0)
    (((m.takePlan c (m.entered q c p)).fillPlan c q.setup p).wr (CAP_FRAME_PERIOD c) (m.entered q c p).fclkPeriod)

/-- The journal entry of an admitted stream. -/
def Module.journalled (m : Module) (q : AdmitReq) (handle : Nat) : Module :=
  m.journalEntry 1 (q.port.castLE (by omega)) (BitVec.ofNat 16 (m.cmdField q.cmd)) handle 0 q.addr

theorem enterStream_eq (m : Module) (q : AdmitReq) (x : FormIn) (p : Plan) (tried : Bool) (l : List RepEntry) :
    m.enterStream q x p tried l =
      (((((m.booked q x.c p).installStream x.c (m.entered q x.c p)).buildGates).reportPlanned).journalled q
        (streamHandle x.c (m.entered q x.c p))).admitReport q 0 tried (streamHandle x.c (m.entered q x.c p)) l stOk
        (streamHandle x.c (m.entered q x.c p)) := rfl

theorem takePlan_streams (m : Module) (c : Nat) (st : Stream) : (m.takePlan c st).streams = m.streams.insert c st := by
  have hkeep : Keeps (Fld.regs ||| Fld.ctxs ||| Fld.cals ||| Fld.dma ||| Fld.syncOwner) m
      (st.plan.objects.foldl (fun (m : Module) o => { m with syncOwner := m.syncOwner.insert o c })
        (((m.handLane c).bindLane c st.plan.lane st.plan.slot).ownChannels st.plan.channels)) :=
    .foldl (fun _ _ => .upd .refl) _ <| .after (Module.ownChannels_keeps ..) rfl <| .after (Module.bindLane_keeps ..) rfl <|
      .after (Module.handLane_keeps ..) rfl .refl
  have hstreams := hkeep.view (·.streams) fun _ => rfl
  exact congrArg (SMap.insert · c st) hstreams

/-- What an entered stream leaves. -/
theorem enterStream_enters (hk : Agree Module.told s.toModule k) (hnone : s.noReport) (q : AdmitReq) (x : FormIn) (p : Plan)
    (tried : Bool) (l : List RepEntry) :
    (k.enterStream q x p tried l).streams = k.streams.insert x.c (k.entered q x.c p) ∧
      (∀ o ∈ p.objects, (k.enterStream q x p tried l).sync o = 0 ∧ (k.enterStream q x p tried l).owned o = true) ∧
      Reported s (k.enterStream q x p tried l) q 0 (streamHandle x.c (k.entered q x.c p)) := by
  have hbooked : Keeps (Fld.write) (k.takePlan x.c (k.entered q x.c p)) (k.booked q x.c p) :=
    .foldl (fun _ _ => .after (Module.setFld_keeps ..) rfl .refl) _ <| .after (Module.wr_keeps ..) rfl <|
      .after (Module.fillPlan_keeps ..) rfl .refl
  have htold : Agree Module.told s.toModule (k.booked q x.c p) :=
    .foldl (fun _ _ => .kept (Module.setFld_keeps ..) (fun _ => rfl) .refl) _ <| .kept (Module.wr_keeps ..) (fun _ => rfl) <|
      .after (fillPlan_told ..) <| .kept (Module.takePlan_keeps ..) (fun _ => rfl) hk
  have hstreams : (k.booked q x.c p).streams = k.streams.insert x.c (k.entered q x.c p) :=
    (hbooked.view (·.streams) fun _ => rfl).trans (takePlan_streams ..)
  rw [enterStream_eq]
  generalize k.booked q x.c p = b at htold hstreams
  have howned := fun o => installStream_owned (o := o) b x.c (k.entered q x.c p)
  have hinst := Module.installStream_keeps b x.c (k.entered q x.c p)
  have hitold := installStream_told b x.c (k.entered q x.c p)
  generalize b.installStream x.c (k.entered q x.c p) = i at howned hinst hitold
  have hjour : Keeps (Fld.regs ||| Fld.netPorts ||| Fld.now ||| Fld.draws ||| Fld.journal) i
      ((i.buildGates.reportPlanned).journalled q (streamHandle x.c (k.entered q x.c p))) :=
    .after (Module.journalEntry_keeps ..) rfl <| .after (Module.reportPlanned_keeps ..) rfl <|
      .after (Module.buildGates_keeps ..) rfl .refl
  generalize (i.buildGates.reportPlanned).journalled q (streamHandle x.c (k.entered q x.c p)) = j at hjour
  have hreport := Module.admitReport_keeps j q 0 tried (streamHandle x.c (k.entered q x.c p)) l stOk (streamHandle x.c (k.entered q x.c p))
  refine ⟨?_, fun o ho => ⟨?_, ?_⟩, ?_⟩
  · exact (hreport.view (·.streams) fun _ => rfl).trans <| (hjour.view (·.streams) fun _ => rfl).trans <|
      (hinst.view (·.streams) fun _ => rfl).trans hstreams
  · exact (hreport.view (fun m : Module => m.sync o) fun _ => rfl).trans <|
      (hjour.view (fun m : Module => m.sync o) fun _ => rfl).trans (howned o ho).1
  · exact (hreport.view (fun m : Module => m.owned o) fun _ => rfl).trans <|
      (hjour.view (fun m : Module => m.owned o) fun _ => rfl).trans (howned o ho).2
  · exact admitReport_reported (.kept hjour (fun _ => rfl) (htold.trans hitold)) hnone ..

end
end Sys2Proof.Machine
end

section
set_option Elab.async false
/-!
The end of an ADMIT and the release of a stream (R351, R352, R360).
-/
namespace Sys2Proof.Machine
open Sys2Proof

section
variable {s : State} {m k : Module} {h : CmdHdr} {x : Session} {q : AdmitReq} {p : Plan} {c : PortId} {st : Stream}

/-! ### ADMIT_COMPLETE -/

/-- The end of an ADMIT whose turn it is. -/
def Module.admitFinish (m : Module) (q : AdmitReq) : Module :=
  match m.form q with
  | some l => m.refuseAdmit q false l
  | none => match m.makePlan (m.formIn q.setup) with
    | (.error fails, _, m') => { m with draws := m'.draws }.refuseAdmit q (m.spillTried (m.formIn q.setup)) fails
    | (.ok p, spilled, m') =>
      let (bad, m') := m'.meetCopies (m'.weightCopies q.setup p)
      if bad then (m'.unreserve q.setup.ctx).complete q.cmd stBusError 0
      else m'.enterStream q (m.formIn q.setup) p (m.spillTried (m.formIn q.setup)) (m.spillEntries (m.formIn q.setup) spilled)

theorem admitComplete_finishes (hcp : s.cpHalted = false) (hfill : s.fullFill = none) (hleave : s.leaving = false)
    (hq : s.admitting = some q) (hctx : q.setup.ctx = c.val) (hwait : s.reportWaits q = false) :
    admitComplete c s.toModule = ({ s.toModule with admitting := none } : Module).admitFinish q := by
  unfold admitComplete Module.firmware
  rw [hcp, if_neg Bool.false_ne_true]
  dsimp only
  rw [hq]
  dsimp only
  rw [hfill, hwait, hleave, decide_eq_false (not_not.2 hctx)]
  rfl

theorem admitFinish_form {l : List RepEntry} (hl : m.form q = some l) : m.admitFinish q = m.refuseAdmit q false l := by
  unfold Module.admitFinish
  rw [hl]

section
variable {out : List Nat} (hform : m.form q = none)
include hform

theorem admitFinish_error {l : List RepEntry} (hplan : m.makePlan (m.formIn q.setup) = (.error l, out, k)) :
    m.admitFinish q = ({ m with draws := k.draws } : Module).refuseAdmit q (m.spillTried (m.formIn q.setup)) l := by
  unfold Module.admitFinish
  rw [hform]
  dsimp only
  rw [hplan]

theorem admitFinish_bad (hplan : m.makePlan (m.formIn q.setup) = (.ok p, out, k))
    (hbad : (k.meetCopies (k.weightCopies q.setup p)).1 = true) :
    m.admitFinish q = ((k.meetCopies (k.weightCopies q.setup p)).2.unreserve q.setup.ctx).complete q.cmd stBusError 0 := by
  unfold Module.admitFinish
  rw [hform]
  dsimp only
  rw [hplan]
  exact if_pos hbad

theorem admitFinish_ok (hplan : m.makePlan (m.formIn q.setup) = (.ok p, out, k))
    (hgood : (k.meetCopies (k.weightCopies q.setup p)).1 = false) :
    m.admitFinish q = (k.meetCopies (k.weightCopies q.setup p)).2.enterStream q (m.formIn q.setup) p
      (m.spillTried (m.formIn q.setup)) (m.spillEntries (m.formIn q.setup) out) := by
  unfold Module.admitFinish
  rw [hform]
  dsimp only
  rw [hplan]
  exact if_neg (ne_true_of_eq_false hgood)

end

theorem meetCopies_told (m : Module) (l : List (Nat × Nat × Nat)) : Agree Module.told m (m.meetCopies l).2 := by
  unfold Module.meetCopies
  refine List.foldlRecOn (motive := fun a : Bool × Module => Agree Module.told m a.2) l _ .refl fun a ha e _ => ?_
  exact ha.trans (readMeets_told ..)

/-- What planning and the reading of the weights leave. -/
theorem planned_told (hm : Agree Module.told s.toModule m) {out : List Nat} {f : FormIn} {r : Except (List RepEntry) Plan}
    (hplan : m.makePlan f = (r, out, k)) (l : List (Nat × Nat × Nat)) : Agree Module.told s.toModule (k.meetCopies l).2 := by
  have hk := m.makePlan_keeps f
  rw [hplan] at hk
  exact .after (meetCopies_told ..) (.kept hk (fun _ => rfl) hm)

theorem planned_keeps {out : List Nat} {f : FormIn} {r : Except (List RepEntry) Plan} (hplan : m.makePlan f = (r, out, k))
    (l : List (Nat × Nat × Nat)) : Keeps (Fld.meet ||| Fld.regions) m (k.meetCopies l).2 := by
  have hk := m.makePlan_keeps f
  rw [hplan] at hk
  exact .after (Module.meetCopies_keeps ..) rfl (hk.mono rfl)

section
variable (hon : s.boot ≠ .off) (hcp : s.cpHalted = false) (hfill : s.fullFill = none) (hleave : s.leaving = false)
  (hq : s.admitting = some q) (hctx : q.setup.ctx = c.val) (hwait : s.reportWaits q = false) (hnone : s.noReport)
include hon hcp hfill hleave hq hctx hwait hnone

theorem admitComplete_form {l : List RepEntry} (hl : ({ s.toModule with admitting := none } : Module).form q = some l) :
    Answers (.admitComplete c) s fun m => m.admitting = none ∧ m.streams = s.streams ∧
      m.dma = s.dma ∧ m.regions = s.regions ∧ m.syncOwner = s.syncOwner ∧ (q.report = 0 → m.mem = s.mem) ∧
      Reported s m q 3 (lowestCheck l * 2 ^ 32) := by
  have hrun := (admitComplete_finishes hcp hfill hleave hq hctx hwait).trans (admitFinish_form hl)
  have href := refuseAdmit_refused (k := { s.toModule with admitting := none }) (.upd .refl) hnone q false l
  have hadm := refuseAdmit_admitting ({ s.toModule with admitting := none } : Module) q false l
  exact .of_ok hon (congrArg (ok s) hrun)
    ⟨hadm, href.streams, href.dma, href.regions, href.owners, href.mem, href.reported⟩

theorem admitComplete_planned (hform : ({ s.toModule with admitting := none } : Module).form q = none) :
    let m0 : Module := { s.toModule with admitting := none }
    Answers (.admitComplete c) s fun m => m.admitting = none ∧
        (∀ l out m1, m0.makePlan (m0.formIn q.setup) = (.error l, out, m1) → m.streams = s.streams ∧ m.dma = s.dma ∧
          m.regions = s.regions ∧ m.syncOwner = s.syncOwner ∧ (q.report = 0 → m.mem = s.mem) ∧
          Reported s m q 3 (lowestCheck l * 2 ^ 32)) ∧
        (∀ p out m1, m0.makePlan (m0.formIn q.setup) = (.ok p, out, m1) →
          ((m1.meetCopies (m1.weightCopies q.setup p)).1 = false → ∃ st, m.streams.find? c.val = some st ∧
            st.setup = q.setup ∧ st.plan = p ∧ st.phase = .waiting ∧ st.gen = SMap.get 1 s.streamGen c.val ∧
            (∀ o ∈ p.objects, m.sync o = 0 ∧ m.owned o = true) ∧ Reported s m q 0 (st.gen * 65536 + c.val)) ∧
          ((m1.meetCopies (m1.weightCopies q.setup p)).1 = true → m.streams = s.streams ∧
            CompletesRef s m q.cmd 10 0)) ∧
        ∀ d, d ≠ c.val → m.streams.find? d = s.streams.find? d := by
  intro m0
  have hfin := admitComplete_finishes hcp hfill hleave hq hctx hwait
  have hm0 : Agree Module.told s.toModule m0 := .upd .refl
  obtain ⟨⟨r, out, m1⟩, hplan⟩ : ∃ a, m0.makePlan (m0.formIn q.setup) = a := ⟨_, rfl⟩
  cases r with
  | error l =>
    have hrun := hfin.trans (admitFinish_error hform hplan)
    have href := refuseAdmit_refused (k := { m0 with draws := m1.draws }) (.upd .refl) hnone q (m0.spillTried (m0.formIn q.setup)) l
    have hadm := refuseAdmit_admitting { m0 with draws := m1.draws } q (m0.spillTried (m0.formIn q.setup)) l
    refine .of_ok hon (congrArg (ok s) hrun) ⟨hadm, fun l' out' m' hp => ?_, fun p' out' m' hp => ?_, fun d _ => ?_⟩
    · rw [hplan] at hp
      cases hp
      exact ⟨href.streams, href.dma, href.regions, href.owners, href.mem, href.reported⟩
    · rw [hplan] at hp
      cases hp
    · exact congrArg (SMap.find? · d) href.streams
  | ok p =>
    have htold := planned_told hm0 hplan (m1.weightCopies q.setup p)
    have hkeep := planned_keeps hplan (m1.weightCopies q.setup p)
    have hstreams : (m1.meetCopies (m1.weightCopies q.setup p)).2.streams = s.streams := hkeep.view (·.streams) fun _ => rfl
    have hadm : (m1.meetCopies (m1.weightCopies q.setup p)).2.admitting = none := hkeep.view (·.admitting) fun _ => rfl
    have hgen : (m1.meetCopies (m1.weightCopies q.setup p)).2.streamGen = s.streamGen := hkeep.view (·.streamGen) fun _ => rfl
    cases hbad : (m1.meetCopies (m1.weightCopies q.setup p)).1 with
    | true =>
      have hrun := hfin.trans (admitFinish_bad hform hplan hbad)
      generalize (m1.meetCopies (m1.weightCopies q.setup p)).2 = k at *
      have hun := k.unreserve_keeps q.setup.ctx
      have hend := (k.unreserve q.setup.ctx).complete_keeps q.cmd stBusError 0
      have hsame : ((k.unreserve q.setup.ctx).complete q.cmd stBusError 0).streams = s.streams :=
        (hend.view (·.streams) fun _ => rfl).trans ((hun.view (·.streams) fun _ => rfl).trans hstreams)
      refine .of_ok hon (congrArg (ok s) hrun) ⟨?_, fun l' out' m' hp => ?_, fun p' out' m' hp => ?_, fun d _ => ?_⟩
      · exact (hend.view (·.admitting) fun _ => rfl).trans ((hun.view (·.admitting) fun _ => rfl).trans hadm)
      · rw [hplan] at hp
        cases hp
      · rw [hplan] at hp
        cases hp
        refine ⟨fun hgood => absurd (hgood.symm.trans hbad) Bool.false_ne_true, fun _ => ⟨hsame, ?_⟩⟩
        exact completesRef_of_heard (.kept hun (fun _ => rfl) htold.told_heard) _ _
      · exact congrArg (SMap.find? · d) hsame
    | false =>
      have hrun := hfin.trans (admitFinish_ok hform hplan hbad)
      generalize (m1.meetCopies (m1.weightCopies q.setup p)).2 = k at *
      obtain ⟨hent, hobj, hrep⟩ := enterStream_enters htold hnone q (m0.formIn q.setup) p (m0.spillTried (m0.formIn q.setup))
        (m0.spillEntries (m0.formIn q.setup) out)
      have henter := k.enterStream_keeps q (m0.formIn q.setup) p (m0.spillTried (m0.formIn q.setup))
        (m0.spillEntries (m0.formIn q.setup) out)
      generalize k.enterStream q (m0.formIn q.setup) p (m0.spillTried (m0.formIn q.setup))
        (m0.spillEntries (m0.formIn q.setup) out) = l at *
      have hc : (m0.formIn q.setup).c = c.val := hctx
      rw [hc] at hent hrep
      refine .of_ok hon (congrArg (ok s) hrun) ⟨?_, fun l' out' m' hp => ?_, fun p' out' m' hp => ?_, fun d hd => ?_⟩
      · exact (henter.view (·.admitting) fun _ => rfl).trans hadm
      · rw [hplan] at hp
        cases hp
      · rw [hplan] at hp
        cases hp
        refine ⟨fun _ => ⟨k.entered q c.val p, ?_, rfl, rfl, rfl, congrArg (SMap.get 1 · c.val) hgen, hobj, hrep⟩,
          fun htrue => absurd (hbad.symm.trans htrue) Bool.false_ne_true⟩
        rw [hent]
        exact SMap.find?_insert_same ..
      · rw [hent, SMap.find?_insert_ne _ _ hd, hstreams]

end

/-! ### RELEASE -/

theorem calAbort_told (m : Module) (c : Nat) : Agree Module.told m (m.calAbort c) := by
  have hbefore {k l : Module} (h : Keeps (Fld.regs ||| Fld.camera ||| Fld.draws) k l) : Agree Module.told k l := .kept h (fun _ => rfl) .refl
  unfold Module.calAbort Module.calEnd
  split
  · exact .refl
  · unfold Module.calEvent
    refine .after (raiseCtx_told ..) (hbefore ?_)
    refine .after (Module.open__keeps ..) rfl <| .after (Module.calReport_keeps ..) rfl ?_
    refine .ite (fun _ => .after (Module.trainAbort_keeps ..) rfl ?_) fun _ => ?_
    · refine .after (Module.setPort_keeps ..) rfl <| .after (Module.setCtx_keeps ..) rfl ?_
      exact .ite (fun _ => .after (Module.unbindLane_keeps ..) rfl <| .after (Module.setCal_keeps ..) rfl .refl) fun _ =>
        .after (Module.setCal_keeps ..) rfl .refl
    · refine .after (Module.setPort_keeps ..) rfl <| .after (Module.setCtx_keeps ..) rfl ?_
      exact .ite (fun _ => .after (Module.unbindLane_keeps ..) rfl <| .after (Module.setCal_keeps ..) rfl .refl) fun _ =>
        .after (Module.setCal_keeps ..) rfl .refl

theorem find_of_streamOf {w : Word} (h : m.streamOf w = some (c, st)) : m.streams.find? c.val = some st := by
  unfold Module.streamOf at h
  dsimp only at h
  split at h
  · split at h
    · next hfind =>
      split at h
      · cases h
        exact hfind
      · cases h
    · cases h
  · cases h

section
variable {stream : Word} (hst : Startable s h 2 (entryHas [(8, 4, stream.toNat)]) x) (hturn : s.serialTurn h 2 = true)
  (hmode : s.modeChange = none)
include hst hturn hmode

theorem release_answers {Q : Module → Prop}
    (hQ : Q (releaseStart stream ⟨h.session, x.gen, h.tag, BitVec.ofNat 8 2⟩ (s.toModule.begun h 2 x))) :
    Answers (.release h stream) s Q := by
  refine hst.answers (c := .release h stream) (congrArg (ok s) ?_) hQ
  unfold release
  rw [hturn, hmode]
  rfl

theorem release_begins (hstream : s.streamOf stream = some (c, st)) : Answers (.release h stream) s fun m => Underway m h 2 ∧
    (∃ t, m.streams.find? c.val = some t ∧ t.phase = .releasing ∧ t.plan = st.plan ∧ t.gen = st.gen) ∧
    ∀ d, d ≠ c.val → m.streams.find? d = s.streams.find? d := by
  refine release_answers hst hturn hmode ?_
  unfold releaseStart
  rw [show (s.toModule.begun h 2 x).streamOf stream = some (c, st) from hstream]
  dsimp only
  unfold Module.beginRelease
  generalize hk : ({ s.toModule.begun h 2 x with streams := (s.toModule.begun h 2 x).streams.insert c.val { st with
    phase := .releasing
    releaseBy := some (⟨h.session, x.gen, h.tag, BitVec.ofNat 8 2⟩, (s.toModule.begun h 2 x).cmdPort ⟨h.session, x.gen, h.tag, BitVec.ofNat 8 2⟩) } } : Module) = k
  have hbegun : Agree Module.unheard (s.toModule.begun h 2 x) k := by
    subst hk
    exact .upd .refl
  have hstreams : k.streams = s.streams.insert c.val { st with
      phase := .releasing
      releaseBy := some (⟨h.session, x.gen, h.tag, BitVec.ofNat 8 2⟩, (s.toModule.begun h 2 x).cmdPort ⟨h.session, x.gen, h.tag, BitVec.ofNat 8 2⟩) } := by
    subst hk
    rfl
  have habort : (k.calAbort c.val).streams = k.streams := (k.calAbort_keeps c.val).view (·.streams) fun _ => rfl
  refine ⟨underway_of_heard hst (hbegun.trans (calAbort_told ..).told_heard),
    ⟨_, (congrArg (SMap.find? · c.val) (habort.trans hstreams)).trans (SMap.find?_insert_same ..), rfl, rfl, rfl⟩, fun d hd => ?_⟩
  · rw [habort, hstreams, SMap.find?_insert_ne _ _ hd]

theorem release_refused (hstream : s.streamOf stream = none) : Answers (.release h stream) s fun m => m.streams = s.streams ∧
    Completes m h 2 x 3 0 := by
  refine release_answers hst hturn hmode ?_
  unfold releaseStart
  rw [show (s.toModule.begun h 2 x).streamOf stream = none from hstream]
  exact ⟨(Module.complete_keeps ..).view (·.streams) fun _ => rfl, completes_of_begun s.toModule (by exact rfl) stRefused 0⟩

end

/-! ### RELEASE_COMPLETE -/

/-- What a released stream leaves of its plan. -/
def Module.unbooked (m : Module) (c : Nat) (st : Stream) : Module :=
  ((st.plan.channels.foldl (fun (m : Module) ch => m.setChan ch DmaCh.rest) m).unbindLane c).unreserve c

theorem dropStream_streams (m : Module) (c : Nat) (st : Stream) : (m.dropStream c st).streams = m.streams.erase c ∧
    (m.dropStream c st).syncOwner = m.syncOwner.filter (fun e => e.2 ≠ c) := by
  have hplan : Keeps (Fld.regs ||| Fld.regions ||| Fld.dma) m (m.unbooked c st) :=
    .after (Module.unreserve_keeps ..) rfl <| .after (Module.unbindLane_keeps ..) rfl <|
      .foldl (fun _ _ => .after (Module.setChan_keeps ..) rfl .refl) _ .refl
  have hstreams : (m.unbooked c st).streams = m.streams := hplan.view (·.streams) fun _ => rfl
  have howner : (m.unbooked c st).syncOwner = m.syncOwner := hplan.view (·.syncOwner) fun _ => rfl
  have hview {β : Type} (π : Module → β) (hregs : ∀ m, π (m.erase (Fld.regs ||| Fld.netPorts ||| Fld.ctxs)) = π m) (k : Module) :
      π ((((List.range 4).foldl (fun m k => m.wr (NIS_OUT_LAT c k) 0) (k.wr (CAP_FRAME_PERIOD c) 0)).setCtx c
        { ((List.range 4).foldl (fun m k => m.wr (NIS_OUT_LAT c k) 0) (k.wr (CAP_FRAME_PERIOD c) 0)).ctx c with
          frames := [] }).buildGates.reportPlanned) = π k := by
    refine Keeps.view (G := Fld.regs ||| Fld.netPorts ||| Fld.ctxs) ?_ π hregs
    exact .after (Module.reportPlanned_keeps ..) rfl <| .after (Module.buildGates_keeps ..) rfl <|
      .after (Module.setCtx_keeps ..) rfl <| .foldl (fun _ _ => .after (Module.wr_keeps ..) rfl .refl) _ <|
      .after (Module.wr_keeps ..) rfl .refl
  unfold Module.dropStream
  constructor
  · refine (hview (·.streams) (fun _ => rfl) _).trans ?_
    exact congrArg (SMap.erase · c) hstreams
  · refine (hview (·.syncOwner) (fun _ => rfl) _).trans ?_
    exact congrArg (List.filter _) howner

theorem releaseComplete_answers {r : CmdRef} {p : Fin 2} (hon : s.boot ≠ .off) (hcp : s.cpHalted = false)
    (hfind : s.streams.find? c.val = some st) (hphase : st.phase = .releasing) (hdrained : s.streamDrained c st = true)
    (hby : st.releaseBy = some (r, p)) (htrans : s.transition = none) (hfill : s.fullFill = none) :
    Answers (.releaseComplete c) s fun m => m.streams.find? c.val = none ∧
      (∀ d, d ≠ c.val → m.streams.find? d = s.streams.find? d) ∧ m.syncs = s.syncs ∧
      (∀ o, m.syncOwner.find? o ≠ some c.val) ∧ CompletesRef s m r 0 0 := by
  obtain ⟨hstreams, howner⟩ := dropStream_streams s.toModule c.val st
  have hkeep := s.toModule.dropStream_keeps c.val st
  have hrun : ∃ k, releaseComplete c s.toModule = k.complete r stOk 0 ∧
      Keeps (Fld.event ||| Fld.journal) (s.toModule.dropStream c.val st) k ∧ Agree Module.unheard (s.toModule.dropStream c.val st) k := by
    let k := ((s.toModule.dropStream c.val st).journalEntry 2 (p.castLE (by omega))
      (BitVec.ofNat 16 ((s.toModule.dropStream c.val st).cmdField r)) (streamHandle c.val st) (streamHandle c.val st) 0)
    let l := k.raiseCtx 0x0807 c.val (k.cmdField r) (streamHandle c.val st) 0 0
    have hjour := Module.journalEntry_keeps (s.toModule.dropStream c.val st) 2 (p.castLE (by omega))
      (BitVec.ofNat 16 ((s.toModule.dropStream c.val st).cmdField r)) (streamHandle c.val st) (streamHandle c.val st) 0
    have hraise := Module.raiseCtx_keeps k 0x0807 c.val (k.cmdField r) (streamHandle c.val st) 0 0
    refine ⟨l, ?_, .after hraise rfl (hjour.mono rfl), .after (raiseCtx_told ..).told_heard (.kept hjour (fun _ => rfl) .refl)⟩
    have htail : Keeps (Fld.event ||| Fld.plan ||| Fld.journal ||| Fld.netPorts ||| Fld.ctxs ||| Fld.engines ||| Fld.regions |||
        Fld.clips ||| Fld.syncOwner ||| Fld.streams ||| Fld.streamGen) s.toModule (l.complete r stOk 0) :=
      .after (Module.complete_keeps ..) rfl <| .after hraise rfl <| .after hjour rfl (hkeep.mono rfl)
    have ht : (l.complete r stOk 0).transition = none := (htail.view (·.transition) fun _ => rfl).trans htrans
    have hf : (l.complete r stOk 0).fullFill = none := (htail.view (·.fullFill) fun _ => rfl).trans hfill
    have hend : s.toModule.endRelease c.val st = l.complete r stOk 0 := by
      unfold Module.endRelease
      rw [hby]
    unfold releaseComplete Module.firmware
    rw [hcp, if_neg Bool.false_ne_true]
    dsimp only
    rw [hfind]
    dsimp only
    rw [decide_eq_true hphase, hdrained, if_pos (by exact rfl), hend]
    generalize l.complete r stOk 0 = e at ht hf
    unfold Module.announce
    rw [ht]
    unfold Module.fillWork
    rw [hf]
    rfl
  obtain ⟨k, hk, hkk, hheard⟩ := hrun
  have hend := k.complete_keeps r stOk 0
  have hst : (k.complete r stOk 0).streams = s.streams.erase c.val :=
    (hend.view (·.streams) fun _ => rfl).trans ((hkk.view (·.streams) fun _ => rfl).trans hstreams)
  have how : (k.complete r stOk 0).syncOwner = s.syncOwner.filter (fun e => e.2 ≠ c.val) :=
    (hend.view (·.syncOwner) fun _ => rfl).trans ((hkk.view (·.syncOwner) fun _ => rfl).trans howner)
  refine .of_ok hon (congrArg (ok s) hk) ⟨?_, fun d hd => ?_, ?_, fun o ho => ?_, ?_⟩
  · rw [hst]
    exact SMap.find?_erase_same ..
  · rw [hst]
    exact SMap.find?_erase_ne _ hd
  · exact (hend.view (·.syncs) fun _ => rfl).trans ((hkk.view (·.syncs) fun _ => rfl).trans (hkeep.view (·.syncs) fun _ => rfl))
  · rw [how] at ho
    have hmem := (List.mem_filter.1 (SMap.mem_of_find? ho)).2
    exact of_decide_eq_true hmem rfl
  · exact completesRef_of_heard (.trans (.kept hkeep (fun _ => rfl) .refl) hheard) _ _

end
end Sys2Proof.Machine

namespace Sys2Proof
open Sys2Proof.Machine

/-- Settles O36: what planning and entering a stream do leaves the session of the ADMIT as it was beside its events, and no report
waits but the one that it sends. -/
theorem admissionCompletes : Obligations.AdmissionCompletes := by
  unfold Obligations.AdmissionCompletes
  refine fun h x s => ⟨?_, ?_, fun c q hon hcp hfill hleave hq hctx hwait hnone => ⟨fun l hl => ?_, fun hform => ?_⟩,
    fun stream hst hturn hmode => ⟨fun c st hstream => ?_, fun hnone => ?_⟩, ?_⟩
  · exact fun setup report len rec hd b hst hturn hl hmode hbusy halign hlen hhd hb =>
      admit_waits hst hturn hmode hbusy hl halign hlen hhd hb
  · exact fun setup report len rec hst hturn hmode hbusy halign => admit_unaligned hst hturn hmode hbusy halign
  · exact admitComplete_form hon hcp hfill hleave hq hctx hwait hnone hl
  · exact admitComplete_planned hon hcp hfill hleave hq hctx hwait hnone hform
  · exact release_begins hst hturn hmode hstream
  · exact release_refused hst hturn hmode hnone
  · exact fun c st r p hon hcp hfind hphase hdrained hby htrans hfill =>
      releaseComplete_answers hon hcp hfind hphase hdrained hby htrans hfill

end Sys2Proof
end

section
set_option Elab.async false
/-!
What the end of a task leaves of the engines' registers: its plan signals, and the moves that they begin.
-/
namespace Sys2Proof.Machine
open Sys2Proof

/-- The registers of the engines' positions. -/
def Module.engBlock (m : Module) (off : Nat) : Word := if 0x100000 ≤ off ∧ off < 0x300000 then m.rd off else 0

section
variable {b m k : Module} {off : Nat}

theorem Agree.engBlock_rd (h : Agree Module.engBlock m k) (hlo : 0x100000 ≤ off) (hhi : off < 0x300000) : k.rd off = m.rd off := by
  have := congrFun h off
  simpa [Module.engBlock, hlo, hhi] using this

theorem engBlock_of_besideMemory (h : Agree Module.besideMemory m k) : Agree Module.engBlock m k := by
  funext o
  unfold Module.engBlock
  split
  · next ho =>
    have hrep : o ∉ reportRegs := fun hmem =>
      absurd ((by decide : ∀ r ∈ reportRegs, r < 0x100000 ∨ 0x300000 ≤ r) _ hmem) (by omega)
    refine h.besideMemory_rd ?_
    unfold memoryReg
    rw [decide_eq_false hrep, Bool.or_false, decide_eq_false (by omega)]
  · rfl

theorem Module.wr_engBlock (m : Module) (v : Word) (h : off < 0x100000 ∨ 0x300000 ≤ off) : Agree Module.engBlock m (m.wr off v) := by
  funext o
  unfold Module.engBlock
  split
  · exact Module.rd_wr_ne _ _ (by omega)
  · rfl

theorem Module.setFld_engBlock (m : Module) (f : Bits) (v : Nat) (h : off < 0x100000 ∨ 0x300000 ≤ off) :
    Agree Module.engBlock m (m.setFld off f v) := m.wr_engBlock _ h

theorem Module.satAdd_engBlock (m : Module) (f : Bits) (n : Nat) (h : off < 0x100000 ∨ 0x300000 ≤ off) :
    Agree Module.engBlock m (m.satAdd off f n) := m.wr_engBlock _ h

theorem Module.count_engBlock (m : Module) (n : Nat) (h : off < 0x100000 ∨ 0x300000 ≤ off) :
    Agree Module.engBlock m (m.count off n) := m.wr_engBlock _ h

theorem Module.write_engBlock (m : Module) (a : Nat) (l : List Byte) : Agree Module.engBlock m (m.write a l) :=
  engBlock_of_besideMemory (Module.write_besideMemory ..)

theorem Module.raiseCtx_engBlock (m : Module) (code c p0 p1 p2 p3 : Nat) :
    Agree Module.engBlock m (m.raiseCtx code c p0 p1 p2 p3) := engBlock_of_besideMemory (Module.raiseCtx_besideMemory ..)

/-! ### Reads of an engine -/

theorem engReads_engBlock (m : Module) (e : EngPos) (l : List (Nat × Nat)) : Agree Module.engBlock m (m.engReads e l).2 := by
  unfold Module.engReads
  refine List.foldlRecOn (motive := fun a : Bool × Module => Agree Module.engBlock m a.2) l _ .refl fun a ha x _ => ha.trans ?_
  refine engBlock_of_besideMemory ?_
  unfold Module.engRead Module.readBad
  exact .ite (fun _ => .after (Module.reportBad_besideMemory ..) (Module.meet_besideMemory ..)) fun _ => Module.meet_besideMemory ..

/-! ### Moves of a plan's channel -/

theorem setChan_engBlock (m : Module) {ch : Nat} (c : DmaCh) (hch : ch < 64) : Agree Module.engBlock m (m.setChan ch c) := by
  unfold Module.setChan
  refine .after (Module.setFld_engBlock _ _ _ (by unfold DMA_OWN; omega)) ?_
  refine .after (Module.setFld_engBlock _ _ _ (by unfold DMA_CH_STAT; omega)) ?_
  exact .after (Module.setFld_engBlock _ _ _ (by unfold DMA_CH_STAT; omega)) (.upd .refl)

theorem failReport_engBlock (m : Module) (f : DmaFail) (n : Nat) : Agree Module.engBlock m (m.failReport f n) := by
  refine engBlock_of_besideMemory ?_
  unfold Module.failReport
  exact .ite (fun _ => .refl) fun _ => .ite (fun _ => Module.reportBad_besideMemory ..) fun _ => Module.reportPartly_besideMemory ..

theorem meetLines_engBlock (m : Module) (source : Nat) (l : List (Nat × Nat)) : Agree Module.engBlock m (m.meetLines source l) :=
  engBlock_of_besideMemory (Module.meetLines_besideMemory ..)

theorem dmaMeets_engBlock (m : Module) (d : Desc) (p n : Nat) : Agree Module.engBlock m (m.dmaMeets d p n) := by
  have hread : Agree Module.engBlock m (if d.op = 1 then m else m.meetLines 5 [(d.srcAt p, n)]) :=
    .ite (fun _ => .refl) fun _ => meetLines_engBlock ..
  unfold Module.dmaMeets
  exact .ite (fun _ => hread) fun _ => .after (engBlock_of_besideMemory (Module.meetPartly_besideMemory ..)) hread

theorem fillNow_engBlock (m : Module) (queued : Bool) (told : Option Nat) : Agree Module.engBlock m (m.fillNow queued told).2 :=
  .kept (Module.fillNow_keeps ..) (fun _ => rfl) .refl

theorem rowRun_engBlock (c : DmaCh) (d : Desc) (fuel : Nat) (x : RowRun) : Agree Module.engBlock x.m (c.rowRun d fuel x).m := by
  induction fuel generalizing x with
  | zero => exact .refl
  | succ fuel ih =>
    unfold DmaCh.rowRun
    dsimp only
    split
    · exact .refl
    · split
      · exact fillNow_engBlock ..
      · split
        · exact .after (failReport_engBlock ..) <| .after (dmaMeets_engBlock ..) <| fillNow_engBlock ..
        · exact .trans (.after (dmaMeets_engBlock ..) <| fillNow_engBlock ..) (ih ..)

theorem moveRow_engBlock (m : Module) {ch : Nat} (c : DmaCh) (d : Desc) (hch : ch < 64) :
    Agree Module.engBlock m (m.moveRow ch c d).2 := by
  unfold Module.moveRow
  dsimp only
  refine .after (setChan_engBlock _ _ hch) <| .after (engBlock_of_besideMemory (Module.store_besideMemory ..)) ?_
  exact rowRun_engBlock c d _ ⟨0, none, false, m⟩

theorem send_engBlock (x : McTurn) (b : Binding) (i k : Nat) : Agree Module.engBlock x.m (x.send b i k).m := by
  unfold McTurn.send
  split
  case h_2 => exact .refl
  next r y e _ _ _ =>
    dsimp only
    split
    · exact .refl
    · split
      · exact .refl
      · have hm : Agree Module.engBlock x.m (match y.src with
            | some a => x.m.meetLines 5 [(a, y.len)]
            | none => x.m) := by
          split
          · exact meetLines_engBlock ..
          · exact .refl
        split
        · exact .after (failReport_engBlock ..) hm
        · refine .kept (Module.winHand_keeps ..) (fun _ => rfl) ?_
          refine .upd ?_
          exact hm

theorem mcPump_engBlock (m : Module) (t : McSend) : Agree Module.engBlock m (m.mcPump t).m := by
  unfold Module.mcPump
  split
  · exact .refl
  · refine List.foldlRecOn (motive := fun x : McTurn => Agree Module.engBlock m x.m) _ _ .refl fun x hx i _ => ?_
    refine List.foldlRecOn (motive := fun x : McTurn => Agree Module.engBlock m x.m) _ _ hx fun x hx k _ => ?_
    split
    · split
      · exact hx.trans (send_engBlock ..)
      · exact hx
    · exact hx

theorem mcBegin_engBlock (m : Module) (ch : Fin 64) (c : DmaCh) (d : Desc) (w : Fin 64) (l : List McChunk) :
    Agree Module.engBlock m (m.mcBegin ch c d w l) := by
  unfold Module.mcBegin
  dsimp only
  split
  · refine .after (setChan_engBlock _ _ ch.isLt) <| .after (mcPump_engBlock ..) ?_
    exact .upd .refl
  · refine .after (setChan_engBlock _ _ ch.isLt) <| .upd <| .after (mcPump_engBlock ..) ?_
    exact .upd .refl

theorem avtpStep_engBlock (m : Module) (ch : Fin 64) (c : DmaCh) (d : Desc) (x : AvtpMove) :
    Agree Module.engBlock m (m.avtpStep ch c d x).2 := by
  unfold Module.avtpStep
  dsimp only
  split
  · exact setChan_engBlock _ _ ch.isLt
  · split
    · exact .after (setChan_engBlock _ _ ch.isLt) <| .after (failReport_engBlock ..) <| meetLines_engBlock ..
    · exact .after (setChan_engBlock _ _ ch.isLt) <| .after (failReport_engBlock ..) <| meetLines_engBlock ..
    · refine .after (setChan_engBlock _ _ ch.isLt) (.upd ?_)
      exact .kept (Module.txQueue_keeps ..) (fun _ => rfl) <| meetLines_engBlock ..

theorem windowStep_engBlock (m : Module) (ch : Fin 64) (c : DmaCh) (d : Desc) : Agree Module.engBlock m (m.windowStep ch c d).2 := by
  have hstay (k : Module) (c : DmaCh) : Agree Module.engBlock k (k.setChan ch.val c) := setChan_engBlock _ _ ch.isLt
  unfold Module.windowStep
  dsimp only
  split
  · split
    · split
      · exact hstay ..
      · exact .kept (Module.winReadFrom_keeps ..) (fun _ => rfl) (hstay ..)
    · exact hstay ..
  · split
    · split
      · split
        · exact mcBegin_engBlock ..
        · exact hstay ..
      · split
        · exact hstay ..
        · split
          · exact .after (hstay ..) <| .after (failReport_engBlock ..) <| dmaMeets_engBlock ..
          · exact .kept (Module.winWriteTo_keeps ..) (fun _ => rfl) <| .after (hstay ..) <| dmaMeets_engBlock ..
    · exact hstay ..

theorem dmaStep_engBlock (m : Module) (ch : Fin 64) (c : DmaCh) (d : Desc) (told : Option Nat) :
    Agree Module.engBlock m (m.dmaStep ch c d told).2 := by
  unfold Module.dmaStep
  dsimp only
  split
  · exact .after (setChan_engBlock _ _ ch.isLt) <| fillNow_engBlock ..
  · split
    · exact .after (avtpStep_engBlock ..) <| fillNow_engBlock ..
    · split
      · split
        · exact .after (setChan_engBlock _ _ ch.isLt) <| fillNow_engBlock ..
        · exact .after (moveRow_engBlock _ _ _ ch.isLt) <| fillNow_engBlock ..
      · split
        · exact .after (setChan_engBlock _ _ ch.isLt) <| fillNow_engBlock ..
        · exact .after (windowStep_engBlock ..) <| fillNow_engBlock ..

theorem dmaIssue_engBlock (m : Module) (fuel : Nat) (ch : Fin 64) (told : Option Nat) :
    Agree Module.engBlock m (m.dmaIssue fuel ch told) := by
  induction fuel generalizing m told with
  | zero => exact .refl
  | succ fuel ih =>
    unfold Module.dmaIssue
    dsimp only
    split
    · exact .refl
    · refine .ite (fun _ => .refl) fun _ => ?_
      split
      · exact .snd ‹_› <| dmaStep_engBlock ..
      · exact .trans (.snd ‹_› <| dmaStep_engBlock ..) (ih ..)

theorem planNext_engBlock (m : Module) (ch : Nat) : Agree Module.engBlock m (m.planNext ch) := by
  unfold Module.planNext
  refine .ite (fun _ => .refl) fun _ => ?_
  split
  · exact .refl
  · next j hj =>
    have hch : ch < 64 := by
      have := of_decide_eq_true (List.find?_some (p := fun j : PlanJob => decide (j.ch.val = ch)) hj)
      omega
    refine .ite (fun _ => .refl) fun _ => ?_
    unfold Module.dmaMove Module.dmaGo
    exact .after (dmaIssue_engBlock ..) <| .after (setChan_engBlock _ _ j.ch.isLt) <| .after (setChan_engBlock _ _ hch) (.upd .refl)

theorem planMove_engBlock (m : Module) (s : Stream) (i : Nat) (mv : PlanMove) (d : Desc) :
    Agree Module.engBlock m (m.planMove s i mv d) := by
  unfold Module.planMove
  split
  · exact .refl
  · exact .after (planNext_engBlock ..) (.upd .refl)

/-! ### The outputs of a picture -/

theorem outStripe_engBlock (m : Module) (c : PortId) (k : Fin 4) (s : Stream) (v : PicView) (u : Nat) (head : List Byte)
    (flags reused : Nat) (missed : Bool) : Agree Module.engBlock m (m.outStripe c k s v u head flags reused missed) := by
  have havtp (m : Module) (o : OutGeom) (g : StripeGeom) (slot st : Nat) : Agree Module.engBlock m (m.avtpStripe c k s o g slot st head) := by
    unfold Module.avtpStripe
    exact .ite (fun _ => .refl) fun _ => planMove_engBlock ..
  have hwindow (m : Module) (o : OutGeom) (g : StripeGeom) (base slot st : Nat) (f : Word) :
      Agree Module.engBlock m (m.windowStripe c k s o g base slot st f) := by
    unfold Module.windowStripe
    refine .ite (fun _ => Module.satAdd_engBlock _ _ _ (by unfold NIS_OUT_STAT; omega)) fun _ => ?_
    exact .after (planMove_engBlock ..) <| .foldl (fun _ _ => .ite (fun _ => .refl) fun _ => planMove_engBlock ..) _ .refl
  have hwrite (m : Module) (o : OutGeom) (p : ParamSet) (g : StripeGeom) (st slot : Nat) :
      Agree Module.engBlock m ((m.outLines o p c.val k.val v g st slot).outHeader c.val o g slot st head flags reused) := by
    unfold Module.outHeader Module.outLines
    exact .after (Module.write_engBlock ..) <| .foldl (fun _ _ => .foldl (fun _ _ => Module.write_engBlock ..) _ .refl) _ .refl
  unfold Module.outStripe
  refine .ite (fun _ => .refl) fun _ => ?_
  extract_lets g o st f base slot drawn dest signalled sent
  have hdrawn : Agree Module.engBlock m drawn := .ite (fun _ => .refl) fun _ => hwrite ..
  have hsignalled : Agree Module.engBlock m signalled :=
    .ite (fun _ => .kept (Module.addSync_keeps ..) (fun _ => rfl) hdrawn) fun _ => hdrawn
  have hsent : Agree Module.engBlock m sent := .ite (fun _ => .after (havtp ..) hsignalled) fun _ => hsignalled
  exact .ite (fun _ => .after (hwindow ..) hsent) fun _ => hsent

theorem outputs_engBlock (m : Module) (c : PortId) (s : Stream) (v : PicView) (u : Nat) (head : List Byte) (flags reused : Nat)
    (missed : Bool) : Agree Module.engBlock m (m.outputs c s v u head flags reused missed) :=
  .foldl (fun _ _ => outStripe_engBlock ..) _ .refl

theorem residentOut_engBlock (m : Module) (r : ResIn) (gate : Option GateTask) : Agree Module.engBlock m (m.residentOut r gate) := by
  have hhist (m : Module) (v : PicView) (slot : Nat) : Agree Module.engBlock m (m.residentHistory r v slot) :=
    .foldl (fun _ _ => Module.write_engBlock ..) _ .refl
  unfold Module.residentOut
  extract_lets dst hist rows out drawn
  have hdrawn : Agree Module.engBlock m drawn := by
    refine .foldl (fun _ _ => ?_) _ .refl
    split
    · exact .after (Module.write_engBlock ..) <| Module.write_engBlock ..
    · exact Module.write_engBlock ..
  split
  · exact .after (hhist ..) hdrawn
  · exact .after (hhist ..) hdrawn
  · exact hdrawn

theorem edgeOut_engBlock (m : Module) (c u : Nat) (p : PicPlan) : Agree Module.engBlock m (m.edgeOut c u p) := by
  unfold Module.edgeOut
  refine .foldl (fun _ _ => .after (Module.write_engBlock ..) <| Module.write_engBlock ..) _ ?_
  refine .foldl (fun _ _ => .ite (fun _ => .refl) fun _ => ?_) _ .refl
  split
  · split
    · exact Module.write_engBlock ..
    · exact .refl
  · exact .ite (fun _ => Module.write_engBlock ..) fun _ => .refl

theorem residentGate_engBlock (m : Module) (r : ResIn) (args : Nat) (t : GateTask) :
    Agree Module.engBlock m (m.residentGate r args t).2 := by
  unfold Module.residentGate Module.keepInput
  dsimp only
  refine .foldl (fun _ _ => ?_) _ <| .foldl (fun _ _ => .foldl (fun _ _ => Module.write_engBlock ..) _ .refl) _ .refl
  split
  · exact Module.write_engBlock ..
  · exact .refl

/-! ### The plan signals -/

theorem pictureEnd_engBlock (m : Module) (c : PortId) (s : Stream) (stage u : Nat) (gate : Option GateTask) (idle missed : Bool) :
    Agree Module.engBlock m (m.pictureEnd c s stage u gate idle missed) := by
  unfold Module.pictureEnd
  split
  · exact .refl
  · extract_lets g sp f head seq e src j drawn first n x noted counted y k reused warm flags w shown
    have hdrawn : Agree Module.engBlock m drawn := by
      refine .ite (fun _ => .refl) fun _ => .after (edgeOut_engBlock ..) ?_
      exact .ite (fun _ => residentOut_engBlock ..) fun _ => .refl
    have hnoted : Agree Module.engBlock m noted := .kept (Module.setCtx_keeps ..) (fun _ => rfl) hdrawn
    have hcounted : Agree Module.engBlock m counted := by
      refine .ite (fun _ => hnoted) fun _ => ?_
      exact .after (Module.count_engBlock _ _ (by unfold NIS_CNT_ROWS_COMPUTED; omega)) <|
        .after (Module.count_engBlock _ _ (by unfold NIS_CNT_ROWS_REUSED; omega)) hnoted
    have hshown : Agree Module.engBlock m shown := .ite (fun _ => hcounted) fun _ => .after (outputs_engBlock ..) hcounted
    refine .ite (fun _ => hshown) fun _ => ?_
    unfold Module.writeCounts
    split
    · exact hshown
    · exact .after (Module.write_engBlock ..) hshown

theorem endJob_engBlock (m : Module) (j : Job) (status result : Nat) : Agree Module.engBlock m (m.endJob j status result) := by
  rw [endJob_eq]
  refine .kept (Module.withdrawDone_keeps ..) (fun _ => rfl) <| .kept (Module.complete_keeps ..) (fun _ => rfl) ?_
  unfold Module.jobOut
  refine .ite (fun _ => .kept (Module.adjustJob_keeps ..) (fun _ => rfl) .refl) fun _ => ?_
  exact .after (Module.setFld_engBlock _ _ _ (by decide)) (.upd .refl)

theorem settleJob_engBlock (m : Module) (id : Nat) : Agree Module.engBlock m (m.settleJob id) := by
  unfold Module.settleJob
  split
  · exact .refl
  · refine .ite (fun _ => .refl) fun _ => .ite (fun _ => .refl) fun _ => .ite (fun _ => endJob_engBlock ..) fun _ => ?_
    split
    · exact endJob_engBlock ..
    · exact .ite (fun _ => endJob_engBlock ..) fun _ => .refl

theorem planSignals_engBlock (m : Module) (t : EngTask) (missed : Bool) : Agree Module.engBlock m (m.planSignals t missed) := by
  unfold Module.planSignals
  split
  · refine .after (settleJob_engBlock ..) <| .kept (Module.adjustJob_keeps ..) (fun _ => rfl) ?_
    split
    · unfold Module.guestAdd
      exact .ite (fun _ => Module.count_engBlock _ _ (by decide)) fun _ => .kept (Module.addSync_keeps ..) (fun _ => rfl) .refl
    · exact .refl
  · split
    · exact .refl
    · refine .ite (fun _ => pictureEnd_engBlock ..) fun _ => ?_
      split
      · exact .refl
      · refine .kept (Module.setCtx_keeps ..) (fun _ => rfl) ?_
        exact .ite (fun _ => .kept (Module.addSync_keeps ..) (fun _ => rfl) .refl) fun _ => .refl

end
end Sys2Proof.Machine
end

section
set_option Elab.async false
/-!
The life of a task (R189, R194, R202, R236, R267 to R272).
-/
namespace Sys2Proof.Machine
open Sys2Proof

section
variable {s : State} {m k : Module} {e : EngPos} {t : EngTask}

theorem engStat_inBlock (e : EngPos) : 0x100000 ≤ ENG_X_STAT e.cl e.x ∧ ENG_X_STAT e.cl e.x < 0x300000 := by
  unfold ENG_X_STAT
  omega

theorem engState_inBlock (h : Agree Module.engBlock m k) (e : EngPos) : k.engState e = m.engState e :=
  Module.fld_congr (h.engBlock_rd (engStat_inBlock e).1 (engStat_inBlock e).2) _

theorem cntTask_congr (h : Agree Module.engBlock m k) (e : EngPos) : k.rd (ENG_X_CNT_TASK e.cl e.x) = m.rd (ENG_X_CNT_TASK e.cl e.x) :=
  h.engBlock_rd (by unfold ENG_X_CNT_TASK; omega) (by unfold ENG_X_CNT_TASK; omega)

theorem engState_wr_other (m : Module) (e : EngPos) {off : Nat} (v : Word) (h : off ≠ ENG_X_STAT e.cl e.x) :
    (m.wr off v).engState e = m.engState e := Module.fld_wr_other _ _ _ (Ne.symm h)

/-! ### A task that is stopped with a code -/

/-- The position of a task that stops. -/
def Module.stopTask (m : Module) (e : EngPos) (t : EngTask) (a : Abort) : Module :=
  m.setEng e { m.eng e with task := some (t.stopped a), sets := [] }

theorem abortTask_code (ht : (m.eng e).task = some t) (hab : t.abort = none) {a : Abort} (hcode : a.code ≠ 0) :
    m.abortTask e a = ((m.stopTask e t a).setFld (ENG_X_STAT e.cl e.x) ENG_X_STAT_last_fault a.code).count
      (ENG_X_CNT_FAULT e.cl e.x) 1 := by
  unfold Module.abortTask
  rw [ht]
  dsimp only
  rw [hab, if_neg (by exact Bool.false_ne_true), if_neg hcode]
  rfl

theorem abortTask_state (m : Module) (e : EngPos) (a : Abort) : (m.abortTask e a).engState e = m.engState e := by
  have hcnt : ENG_X_CNT_FAULT e.cl e.x ≠ ENG_X_STAT e.cl e.x := by
    unfold ENG_X_CNT_FAULT ENG_X_STAT
    omega
  unfold Module.abortTask
  split
  · rfl
  · dsimp only
    split
    · rfl
    · split
      · rfl
      · refine (engState_wr_other _ _ _ hcnt).trans ?_
        exact Module.fld_setFld_ne _ _ _ _ _ (by decide) (by decide) (by decide)

theorem abortTask_assigned (m : Module) (e : EngPos) (a : Abort) : ((m.abortTask e a).eng e).assigned = (m.eng e).assigned := by
  unfold Module.abortTask
  split
  · rfl
  · dsimp only
    split
    · rfl
    · split
      · rw [Module.eng_setEng_same]
      · rw [(Module.count_keeps ..).view (fun x : Module => x.eng e) fun _ => rfl,
          (Module.setFld_keeps ..).view (fun x : Module => x.eng e) fun _ => rfl, Module.eng_setEng_same]

theorem engineFault_aborts (ht : (m.eng e).task = some t) (hend : t.exec.ended = false) (hab : t.abort = none) (code : Nat) :
    m.engineFault e code = m.abortTask e ⟨stAbortedFault, code, true⟩ := by
  unfold Module.engineFault
  rw [ht]
  dsimp only
  rw [hend, hab]
  rfl

section
variable (hon : s.boot ≠ .off) (ht : (s.eng e).task = some t) (hend : t.exec.ended = false) (hab : t.abort = none)
include hon ht hend hab

theorem engineFault_answers {c : Instr} {code : Nat} (hpos : code ≠ 0) (hsmall : code < 16)
    (hexec : exec c s = ok s (s.toModule.engineFault e code)) : Answers c s fun m =>
      (∃ t' a, (m.eng e).task = some t' ∧ t'.abort = some a ∧ a.engine = true ∧ a.status = 5 ∧ t'.qa = [] ∧ t'.acc = [] ∧
        t'.writes = [] ∧ t'.issued = t.issued) ∧ (m.eng e).sets = [] ∧
      m.fld (ENG_X_STAT e.cl e.x) ENG_X_STAT_last_fault = code ∧
      (m.rd (ENG_X_CNT_FAULT e.cl e.x)).toNat = min ((s.rd (ENG_X_CNT_FAULT e.cl e.x)).toNat + 1) 0xFFFFFFFF := by
  have hcnt : ENG_X_STAT e.cl e.x ≠ ENG_X_CNT_FAULT e.cl e.x := by
    unfold ENG_X_CNT_FAULT ENG_X_STAT
    omega
  rw [engineFault_aborts ht hend hab, abortTask_code (a := ⟨stAbortedFault, code, true⟩) ht hab hpos] at hexec
  refine .of_ok hon hexec ?_
  have heng : (((s.toModule.stopTask e t ⟨stAbortedFault, code, true⟩).setFld (ENG_X_STAT e.cl e.x) ENG_X_STAT_last_fault code).count
      (ENG_X_CNT_FAULT e.cl e.x) 1).eng e = { s.eng e with task := some (t.stopped ⟨stAbortedFault, code, true⟩), sets := [] } := by
    rw [(Module.count_keeps ..).view (fun x : Module => x.eng e) fun _ => rfl,
      (Module.setFld_keeps ..).view (fun x : Module => x.eng e) fun _ => rfl]
    exact Module.eng_setEng_same ..
  refine ⟨⟨_, _, congrArg Eng.task heng, rfl, rfl, rfl, rfl, rfl, rfl, rfl⟩, congrArg Eng.sets heng, ?_, ?_⟩
  · exact (Module.fld_wr_other _ _ _ hcnt).trans (Module.fld_setFld _ _ _ _ (by decide) (by decide) hsmall)
  · rw [Module.rd_count_same_toNat, Module.rd_setFld_ne _ _ _ (Ne.symm hcnt)]
    rfl

theorem faultDetected_answers (check : EngCheck) : Answers (.engineFaultDetected e check) s fun m =>
    (∃ t' a, (m.eng e).task = some t' ∧ t'.abort = some a ∧ a.engine = true ∧ a.status = 5 ∧ t'.qa = [] ∧ t'.acc = [] ∧
      t'.writes = [] ∧ t'.issued = t.issued) ∧ (m.eng e).sets = [] ∧
    m.fld (ENG_X_STAT e.cl e.x) ENG_X_STAT_last_fault = (match check with | .residue => 1 | .parity => 2 | .sequencer => 3) ∧
    (m.rd (ENG_X_CNT_FAULT e.cl e.x)).toNat = min ((s.rd (ENG_X_CNT_FAULT e.cl e.x)).toNat + 1) 0xFFFFFFFF := by
  have hexec (code : Nat) (hcode : engineFaultDetected e check s.toModule = s.toModule.engineFault e code) :
      exec (.engineFaultDetected e check) s = ok s (s.toModule.engineFault e code) := congrArg (ok s) hcode
  cases check with
  | residue => exact engineFault_answers hon ht hend hab (by decide) (by decide) (hexec 1 (by unfold engineFaultDetected; dsimp only; rw [ht]))
  | parity => exact engineFault_answers hon ht hend hab (by decide) (by decide) (hexec 2 (by unfold engineFaultDetected; dsimp only; rw [ht]))
  | sequencer => exact engineFault_answers hon ht hend hab (by decide) (by decide) (hexec 3 (by unfold engineFaultDetected; dsimp only; rw [ht]))

theorem watchdog_program (hpop : t.waitsToPop = true) (hbadger : t.badger.ended = true) (hcancel : t.cancelled = 0) (hqa : t.qa = [])
    (hqb : t.qb = []) (hqx : t.qx = []) (hres : t.res = []) (hwrites : ∀ x ∈ t.writes, x.needs = []) :
    Answers (.engineWatchdog e) s fun m =>
      ∃ t', (m.eng e).task = some t' ∧ (t'.abort.map fun a => (a.engine, a.code)) = some (false, 4) := by
  have hneeds : (t.writes.any fun x => !x.needs.isEmpty) = false :=
    List.any_eq_false.2 fun x hx => by rw [hwrites x hx]; exact Bool.false_ne_true
  have hrun : engineWatchdog e s.toModule = s.toModule.abortTask e ⟨stAbortedFault, 4, false⟩ := by
    unfold engineWatchdog
    rw [ht]
    dsimp only
    rw [hend, hpop, hbadger, hcancel, hqa, hqb, hqx, hres, hneeds, hab]
    rfl
  exact .of_ok hon (congrArg (ok s) hrun) ⟨_, Module.abortTask_task ht hab _, rfl⟩

theorem watchdog_engine (hpop : t.waitsToPop = false) : Answers (.engineWatchdog e) s fun m =>
    ∃ t', (m.eng e).task = some t' ∧ (t'.abort.map fun a => (a.engine, a.code)) = some (true, 4) := by
  have hrun : engineWatchdog e s.toModule = s.toModule.abortTask e ⟨stAbortedFault, 4, true⟩ := by
    unfold engineWatchdog
    rw [ht]
    dsimp only
    rw [hpop, Bool.and_false, Bool.false_and, Bool.false_and, Bool.false_and, if_neg Bool.false_ne_true,
      engineFault_aborts ht hend hab]
  exact .of_ok hon (congrArg (ok s) hrun) ⟨_, Module.abortTask_task ht hab _, rfl⟩

end

/-! ### Cancelled reads -/

theorem pumpReads_idle (ht : (m.eng e).task = some t) (htiles : ∀ x ∈ t.tiles, x.todo = []) (fuel : Nat) : m.pumpReads fuel e = m := by
  have hnone : t.tiles.find? (!·.todo.isEmpty) = none :=
    List.find?_eq_none.2 fun x hx => by rw [htiles x hx]; exact Bool.false_ne_true
  cases fuel with
  | zero => rfl
  | succ fuel =>
    unfold Module.pumpReads
    rw [ht]
    dsimp only
    rw [hnone]

theorem cancellation_answers (hon : s.boot ≠ .off) (ht : (s.eng e).task = some t) (htiles : ∀ x ∈ t.tiles, x.todo = [])
    (hwin : t.abort = none ∨ s.engWindow e = []) : Answers (.cancellationComplete e) s fun m =>
      m = s.toModule.setEng e { s.eng e with drain := [], task := some { t with cancelled := 0 } } := by
  refine .of_ok hon (congrArg (ok s) ?_) rfl
  have hstay : (t.abort.isSome && (s.engWindow e).any (·.msg.type ≠ 0x10)) = false := by
    rcases hwin with h | h
    · rw [h]
      rfl
    · rw [h]
      exact Bool.and_false _
  unfold cancellationComplete
  dsimp only
  rw [ht, Option.map_some, Option.getD_some, hstay, if_neg Bool.false_ne_true]
  exact pumpReads_idle (t := { t with cancelled := 0 }) (congrArg Eng.task (Module.eng_setEng_same ..)) htiles _

/-! ### The start of a task -/

/-- A task as its start left it. -/
structure Started (x : TaskStart) (t : EngTask) : Prop where
  ref : t.ref = x.ref
  args : t.args = x.args
  issued : t.issued = 0
  sigs : t.sigs = 0
  code : t.code = x.code
  access : t.access = x.access
  skip : t.skip = x.skip
  rerun : t.rerun = x.rerun

theorem Started.stopped {x : TaskStart} (h : Started x t) (a : Abort) : Started x (t.stopped a) :=
  ⟨h.ref, h.args, h.issued, h.sigs, h.code, h.access, h.skip, h.rerun⟩

/-- A position that has begun a task. -/
structure Begun (m : Module) (e : EngPos) (x : TaskStart) : Prop where
  task : ∃ t, (m.eng e).task = some t ∧ t.abort = none ∧ Started x t
  assigned : (m.eng e).assigned = none
  state : m.engState e = 2

/-- A position that runs a task, which may have stopped at once. -/
structure Running (m : Module) (e : EngPos) (x : TaskStart) : Prop where
  task : ∃ t, (m.eng e).task = some t ∧ Started x t
  assigned : (m.eng e).assigned = none
  state : m.engState e = 2

theorem Begun.running {x : TaskStart} (h : Begun m e x) : Running m e x := by
  obtain ⟨t, ht, -, hx⟩ := h.task
  exact ⟨⟨t, ht, hx⟩, h.assigned, h.state⟩

theorem Begun.stopped {x : TaskStart} (h : Begun m e x) (a : Abort) : Running (m.abortTask e a) e x := by
  obtain ⟨t, ht, hab, hx⟩ := h.task
  exact ⟨⟨_, Module.abortTask_task ht hab a, hx.stopped a⟩, (abortTask_assigned ..).trans h.assigned,
    (abortTask_state ..).trans h.state⟩

theorem beginTask_running (m : Module) (e : EngPos) (x : TaskStart) : Running (m.beginTask e x) e x := by
  unfold Module.beginTask
  dsimp only
  generalize (m.engReads e (x.shapes.map fun s => (x.args + s.1, s.2.1))) = r
  obtain ⟨bad, k⟩ := r
  dsimp only
  generalize ((k.shapeVals x.args x.shapes).any (· = 0) || x.code.isEmpty) = zero
  have hx : Started x (if zero = true then (EngTask.begin x).noOp else EngTask.begin x) ∧
      (if zero = true then (EngTask.begin x).noOp else EngTask.begin x).abort = none := by
    cases zero <;> exact ⟨⟨rfl, rfl, rfl, rfl, rfl, rfl, rfl, rfl⟩, rfl⟩
  generalize (if zero = true then (EngTask.begin x).noOp else EngTask.begin x) = t at hx
  have hbegun : Begun ((k.setEng e { k.eng e with task := some t, assigned := none }).setEngState e 2) e x := by
    have heng : ((k.setEng e { k.eng e with task := some t, assigned := none }).setEngState e 2).eng e =
        { k.eng e with task := some t, assigned := none } :=
      ((Module.setEngState_keeps ..).view (fun m : Module => m.eng e) fun _ => rfl).trans (Module.eng_setEng_same ..)
    exact ⟨⟨t, congrArg Eng.task heng, hx.2, hx.1⟩, congrArg Eng.assigned heng, engState_setEngState_same (by decide)⟩
  split
  · exact hbegun.stopped _
  · split
    · exact hbegun.stopped _
    · exact hbegun.running

theorem orWait_starts {x : TaskStart} (h : Running m e x) (hbusy : k.spmBusy x.args 256 = false) : m.orWait k e = m := by
  obtain ⟨t, ht, hx⟩ := h.task
  unfold Module.orWait
  rw [ht, Option.map_some, Option.getD_some, hx.args, hbusy]
  rfl

/-- What an analysis task starts with. -/
def Module.taskOf (m : Module) (c : PortId) (i : Fin 12) (st : StageSetup) (p : StagePlan) (u idx skip : Nat) (rerun : Bool) :
    TaskStart :=
  ⟨.stream c i u idx, m.stageArgs st u idx, p.code, p.aps, p.start, st.sync.take st.syncEntries,
    m.stageAccess st ++ (match m.package? st.package with
      | some k => [(p.weights, (m.pkgSec k.addr secWeights).2, false)]
      | none => []), p.resAt idx, p.variant, p.limited (u % max 1 st.argsSlots * st.tasks + idx), none, skip, rerun, p.resUse⟩

theorem startStream_begins {x : Stream} {c : PortId} {i : Fin 12} {st : StageSetup} {p : StagePlan} (hi : i.val < 8)
    (hst : x.setup.stages[i.val]? = some st) (hp : x.plan.stages[i.val]? = some p) (m : Module) (e : EngPos) (u idx skip : Nat)
    (rerun : Bool) : m.startStream e x c i u idx skip rerun = m.beginTask e (m.taskOf c i st p u idx skip rerun) := by
  have hstart : m.analysisStart c x i u idx skip rerun = some (m.taskOf c i st p u idx skip rerun) := by
    unfold Module.analysisStart
    rw [hst, hp]
    rfl
  unfold Module.startStream
  rw [if_pos hi, hstart]

section
variable {c : PortId} {i : Fin 12} {u idx : Nat} {x : Stream} {st : StageSetup} {p : StagePlan} (hon : s.boot ≠ .off)
  (hfree : s.free e = true) (hi : i.val < 8) (hx : s.streams.find? c.val = some x) (hst : x.setup.stages[i.val]? = some st)
  (hp : x.plan.stages[i.val]? = some p) (hbusy : s.spmBusy (s.stageArgs st u idx) 256 = false)
include hon hfree hi hx hst hp hbusy

theorem taskStart_answers {cl : Fin 8} {n : Fin 17} {y : Ctx} (hpos : s.posOf cl n = some e) (htest : n.val = 16 → s.tests = false)
    (hassigned : (s.eng e).assigned = none) (hplan : s.planStart e cl n c x i u idx = some y) :
    Answers (.taskStart cl n (.stream c i u idx)) s fun m => m.engState e = 2 ∧
      ∃ t, (m.eng e).task = some t ∧ t.ref = .stream c i u idx ∧ t.issued = 0 ∧ t.sigs = 0 ∧ t.code = p.code ∧
        t.access = s.stageAccess st ++ (match s.package? st.package with
          | some k => [(p.weights, (s.pkgSec k.addr secWeights).2, false)] | none => []) := by
  have hopen : (!s.free e || decide (n.val = 16) && s.tests) = false := by
    rw [hfree]
    by_cases hn : n.val = 16
    · rw [htest hn, Bool.and_false]
      rfl
    · rw [decide_eq_false hn]
      rfl
  have hsame : (s.toModule.setCtx c y).taskOf c i st p u idx 0 false = s.toModule.taskOf c i st p u idx 0 false :=
    (Module.setCtx_keeps ..).view (fun m : Module => m.taskOf c i st p u idx 0 false) fun _ => rfl
  have hrunning := beginTask_running (s.toModule.setCtx c y) e (s.toModule.taskOf c i st p u idx 0 false)
  have hrun : taskStart cl n (.stream c i u idx) s.toModule =
      (s.toModule.setCtx c y).beginTask e (s.toModule.taskOf c i st p u idx 0 false) := by
    unfold taskStart
    rw [hpos]
    dsimp only
    rw [hopen, if_neg Bool.false_ne_true, hassigned]
    dsimp only
    rw [hx]
    dsimp only
    rw [hplan]
    dsimp only
    rw [startStream_begins hi hst hp, hsame]
    exact orWait_starts hrunning hbusy
  obtain ⟨t, ht, htx⟩ := hrunning.task
  exact .of_ok hon (congrArg (ok s) hrun) ⟨hrunning.state, t, ht, htx.ref, htx.issued, htx.sigs, htx.code, htx.access⟩

theorem rerun_answers {n : Nat} (hassigned : (s.eng e).assigned = some (.stream c i u idx, n, true)) (hres : p.resBytes = 0) :
    Answers (.rerunStart e) s fun m => m.engState e = 2 ∧ (m.eng e).assigned = none ∧
      ∃ t, (m.eng e).task = some t ∧ t.ref = .stream c i u idx ∧ t.skip = n ∧ t.rerun = true := by
  have hstage : x.plan.stageOf i.val = some p := (if_pos hi).trans hp
  have hrunning := beginTask_running s.toModule e (s.toModule.taskOf c i st p u idx n true)
  have hrun : rerunStart e s.toModule = s.toModule.beginTask e (s.toModule.taskOf c i st p u idx n true) := by
    unfold rerunStart
    rw [hfree, if_neg (by exact Bool.false_ne_true), hassigned]
    dsimp only
    rw [hx]
    dsimp only
    refine (if_pos ?_).trans ?_
    · rw [hstage]
      dsimp only
      rw [decide_eq_true hres, Bool.true_or]
    · rw [startStream_begins hi hst hp]
      exact orWait_starts hrunning hbusy
  obtain ⟨t, ht, htx⟩ := hrunning.task
  exact .of_ok hon (congrArg (ok s) hrun) ⟨hrunning.state, hrunning.assigned, t, ht, htx.ref, htx.skip, htx.rerun⟩

end

/-! ### The end of a task -/

theorem lostCycles_engBlock (m : Module) : Agree Module.engBlock m m.lostCycles := by
  unfold Module.lostCycles
  refine .foldl (fun _ _ => .ite (fun _ => ?_) fun _ => .refl) _ .refl
  exact .after (Module.wr_engBlock _ _ (by unfold SPM_ST_CONFLICT; omega)) (.upd .refl)

/-- What a position is once its task has left it. -/
structure Left (s : State) (m : Module) (e : EngPos) : Prop where
  eng : m.eng e = (s.eng e).leave
  state : m.engState e = 1
  count : m.rd (ENG_X_CNT_TASK e.cl e.x) = s.rd (ENG_X_CNT_TASK e.cl e.x)

theorem leaveTask_left (heng : k.eng e = s.eng e) (hcount : k.rd (ENG_X_CNT_TASK e.cl e.x) = s.rd (ENG_X_CNT_TASK e.cl e.x)) :
    Left s (k.leaveTask e) e := by
  let a := ((k.open_.2.open_.2.setEng e (k.eng e).leave).setEngState e 1)
  let w := a.wr (ENG_X_CNT_BUSY e.cl e.x) (a.rd (ENG_X_CNT_BUSY e.cl e.x) + k.open_.1)
  have hleave : k.leaveTask e = (w.satAdd (ENG_CL_RING e.cl) ENG_CL_RING_crc_errors k.open_.2.open_.1.toNat).lostCycles := rfl
  have htail : Agree Module.engBlock w (k.leaveTask e) := by
    rw [hleave]
    exact .after (lostCycles_engBlock _) (Module.satAdd_engBlock _ _ _ (by unfold ENG_CL_RING; omega))
  have htailEng : (k.leaveTask e).eng e = w.eng e := by
    rw [hleave]
    exact ((Module.lostCycles_keeps _).view (fun m : Module => m.eng e) fun _ => rfl).trans
      ((Module.satAdd_keeps ..).view (fun m : Module => m.eng e) fun _ => rfl)
  have haEng : a.eng e = (k.eng e).leave :=
    ((Module.setEngState_keeps ..).view (fun m : Module => m.eng e) fun _ => rfl).trans (Module.eng_setEng_same ..)
  have hbusy : ENG_X_CNT_BUSY e.cl e.x ≠ ENG_X_STAT e.cl e.x ∧ ENG_X_CNT_TASK e.cl e.x ≠ ENG_X_CNT_BUSY e.cl e.x ∧
      ENG_X_CNT_TASK e.cl e.x ≠ ENG_X_STAT e.cl e.x := by
    unfold ENG_X_CNT_BUSY ENG_X_STAT ENG_X_CNT_TASK
    omega
  refine ⟨?_, ?_, ?_⟩
  · rw [htailEng, ← heng]
    exact ((Module.wr_keeps ..).view (fun m : Module => m.eng e) fun _ => rfl).trans haEng
  · rw [engState_inBlock htail]
    exact (engState_wr_other _ _ _ hbusy.1).trans (engState_setEngState_same (by decide))
  · rw [cntTask_congr htail, ← hcount]
    exact (Module.rd_wr_ne _ _ hbusy.2.1).trans (Module.rd_setFld_ne _ _ _ hbusy.2.2)

theorem decideRows_late (m : Module) (e : EngPos) (t : EngTask) : (m.decideRows e t).1.late = t.late := by
  unfold Module.decideRows
  split
  · split
    · rfl
    · split
      · rfl
      · split <;> rfl
  · rfl

theorem decideRows_count (m : Module) (e : EngPos) (t : EngTask) :
    (m.decideRows e t).2.rd (ENG_X_CNT_TASK e.cl e.x) = m.rd (ENG_X_CNT_TASK e.cl e.x) := by
  have hother : ENG_X_CNT_TASK e.cl e.x ≠ ENG_X_CNT_ROWS_REUSED e.cl e.x ∧ ENG_X_CNT_TASK e.cl e.x ≠ ENG_X_CNT_ROWS_GATED e.cl e.x := by
    unfold ENG_X_CNT_TASK ENG_X_CNT_ROWS_REUSED ENG_X_CNT_ROWS_GATED
    omega
  unfold Module.decideRows
  split
  · split
    · rfl
    · split
      · rfl
      · split
        · rfl
        · refine (Module.rd_wr_ne _ _ hother.1).trans ((Module.rd_wr_ne _ _ hother.2).trans ?_)
          exact cntTask_congr (residentGate_engBlock ..) e
  · rfl

theorem taskComplete_answers (hon : s.boot ≠ .off) (ht : (s.eng e).task = some t) (hend : t.exec.ended = true) (hacked : t.acked = true)
    (hab : t.abort = none) (hlate : t.late = none) (hwin : s.engWindow e = [])
    (hgood : (s.engReads e (s.pictureReads t)).1 = false) : Answers (.taskComplete e) s fun m =>
      (m.eng e).task = none ∧ m.engState e = 1 ∧
      (m.eng e).drain = (if t.cancelled = 0 then (s.eng e).drain else (s.eng e).drain ++ t.access) ∧
      (m.rd (ENG_X_CNT_TASK e.cl e.x)).toNat = min ((s.rd (ENG_X_CNT_TASK e.cl e.x)).toNat + 1) 0xFFFFFFFF := by
  let r := (s.engReads e (s.pictureReads t)).2
  let d := r.decideRows e t
  let l := (d.2.leaveTask e).count (ENG_X_CNT_TASK e.cl e.x) 1
  have hreads := Module.engReads_keeps s.toModule e (s.pictureReads t)
  have hd : d.2.eng e = s.eng e := ((Module.decideRows_keeps ..).view (fun m : Module => m.eng e) fun _ => rfl).trans
    (hreads.view (fun m : Module => m.eng e) fun _ => rfl)
  have hcount : d.2.rd (ENG_X_CNT_TASK e.cl e.x) = s.rd (ENG_X_CNT_TASK e.cl e.x) :=
    (decideRows_count ..).trans (cntTask_congr (engReads_engBlock ..) e)
  have hleft := leaveTask_left hd hcount
  have hrun : taskComplete e s.toModule = l.planSignals d.1 false := by
    unfold taskComplete
    rw [ht]
    dsimp only
    rw [hend, hacked, hab, hwin, if_neg (by exact Bool.false_ne_true), hgood, if_neg Bool.false_ne_true]
    rw [show (((s.engReads e (s.pictureReads t)).2).decideRows e t).1.late = none from (decideRows_late ..).trans hlate]
  have hsig := planSignals_engBlock l d.1 false
  have heng : (l.planSignals d.1 false).eng e = (s.eng e).leave :=
    ((Module.planSignals_keeps ..).view (fun m : Module => m.eng e) fun _ => rfl).trans
      (((Module.count_keeps ..).view (fun m : Module => m.eng e) fun _ => rfl).trans hleft.eng)
  have hcnt : ENG_X_CNT_TASK e.cl e.x ≠ ENG_X_STAT e.cl e.x := by
    unfold ENG_X_STAT ENG_X_CNT_TASK
    omega
  refine .of_ok hon (congrArg (ok s) hrun) ⟨?_, ?_, ?_, ?_⟩
  · rw [heng]
    rfl
  · rw [engState_inBlock hsig]
    exact (engState_wr_other _ _ _ hcnt).trans hleft.state
  · rw [heng]
    unfold Eng.leave
    rw [ht]
    dsimp only
    by_cases hc : t.cancelled = 0
    · rw [if_neg (not_not.2 hc), if_pos hc]
    · rw [if_pos hc, if_neg hc]
  · rw [cntTask_congr hsig, Module.rd_count_same_toNat, hleft.count]

/-- A stream's task that ends without its result. -/
theorem missTask_engBlock (m : Module) (e : EngPos) (n status : Nat) (t : EngTask) : Agree Module.engBlock m (m.missTask e n status t) := by
  unfold Module.missTask
  split
  · exact .refl
  · exact .after (planSignals_engBlock ..) (Module.raiseCtx_engBlock ..)

theorem faultEvent_engBlock (m : Module) (e : EngPos) (n code : Nat) (t : EngTask) (rerun quarantined logged : Bool) :
    Agree Module.engBlock m (m.faultEvent e n code t rerun quarantined logged) := by
  refine engBlock_of_besideMemory ?_
  unfold Module.faultEvent
  dsimp only
  cases t.ref with
  | job => exact .ite (fun _ => Module.faultSeq_besideMemory _ (by decide) ..) fun _ => Module.raiseSeq_besideMemory ..
  | stream => exact .ite (fun _ => Module.faultSeq_besideMemory _ (by decide) ..) fun _ => Module.raiseSeq_besideMemory ..

theorem abortComplete_answers {a : Abort} {c : PortId} {i : Fin 12} {u idx : Nat} (hon : s.boot ≠ .off) (hcp : s.cpHalted = false)
    (ht : (s.eng e).task = some t) (hab : t.abort = some a) (hengine : a.engine = false) (hlate : t.late = none)
    (hissued : t.issued = 0) (hcancel : t.cancelled = 0) (hwin : s.engWindow e = []) (href : t.ref = .stream c i u idx) :
    Answers (.abortComplete e) s fun m => (m.eng e).task = none ∧ m.engState e = 1 ∧ (m.eng e).faults = (s.eng e).faults := by
  have hleft : Left s (s.toModule.leaveTask e) e := leaveTask_left rfl rfl
  let told := if a.code = 4 then (s.toModule.leaveTask e).faultEvent e (s.toModule.nameOf e) 4 t false false false else
    s.toModule.leaveTask e
  have hrun : abortComplete e s.toModule = told.missTask e (s.toModule.nameOf e) a.status t := by
    unfold abortComplete Module.firmware
    rw [hcp, if_neg Bool.false_ne_true]
    dsimp only
    rw [ht]
    dsimp only
    rw [hab]
    dsimp only
    rw [hissued, hcancel, hwin, hengine, hlate, href]
    rfl
  have htold : Agree Module.engBlock (s.toModule.leaveTask e) told := .ite (fun _ => faultEvent_engBlock ..) fun _ => .refl
  have htoldEng : told.eng e = (s.toModule.leaveTask e).eng e := by
    have hkeep : Keeps Fld.fault (s.toModule.leaveTask e) told := .ite (fun _ => Module.faultEvent_keeps ..) fun _ => .refl
    exact hkeep.view (fun m : Module => m.eng e) fun _ => rfl
  have heng : (told.missTask e (s.toModule.nameOf e) a.status t).eng e = (s.eng e).leave :=
    ((Module.missTask_keeps ..).view (fun m : Module => m.eng e) fun _ => rfl).trans (htoldEng.trans hleft.eng)
  refine .of_ok hon (congrArg (ok s) hrun) ⟨?_, ?_, ?_⟩
  · rw [heng]
    rfl
  · rw [engState_inBlock (htold.trans (missTask_engBlock ..)), hleft.state]
  · rw [heng]
    rfl

end
end Sys2Proof.Machine

namespace Sys2Proof
open Sys2Proof.Machine

/-- Settles O25: a start, a stop and an end change their position, and what follows them leaves the engines' registers. -/
theorem taskLifeCompletes : Obligations.TaskLifeCompletes := by
  unfold Obligations.TaskLifeCompletes
  refine fun e s hon => ⟨?_, ?_, ?_, ?_, ?_, ?_, ?_, ?_⟩
  · exact fun cl n c i u idx x st p y hpos hfree htest hassigned hi hx hplan hst hp hbusy =>
      taskStart_answers hon hfree hi hx hst hp hbusy hpos htest hassigned hplan
  · exact fun t ht hend hacked hab hlate hwin hgood => taskComplete_answers hon ht hend hacked hab hlate hwin hgood
  · exact fun t check ht hend hab => faultDetected_answers hon ht hend hab check
  · exact fun t ht hend hab hpop hbadger hcancel hqa hqb hqx hres hwrites =>
      watchdog_program hon ht hend hab hpop hbadger hcancel hqa hqb hqx hres hwrites
  · exact fun t ht hend hab hpop => watchdog_engine hon ht hend hab hpop
  · exact fun t a c i u idx hcp ht hab hengine hlate hissued hcancel hwin href =>
      abortComplete_answers hon hcp ht hab hengine hlate hissued hcancel hwin href
  · exact fun c i u idx n x st p hfree hassigned hi hx hst hp hres hbusy =>
      rerun_answers hon hfree hi hx hst hp hbusy hassigned hres
  · exact fun t ht htiles hwin => cancellation_answers hon ht htiles hwin

end Sys2Proof
end

section
set_option Elab.async false
/-!
The library routines (R229 to R232, R252).
-/
namespace Sys2Proof.Machine
open Sys2Proof

section
variable {s : State} {m : Module} {e : EngPos} {t : EngTask} {i id views : Nat} {k : WalkerSt} {f : LibCall → LibOut}

/-! ### Reads that stop nothing -/

theorem libCheck_passes (hl : m.latent = []) {l : List (Nat × Nat)} (h : (m.libCheck e t l).1 = none) :
    m.libCheck e t l = (none, m) := by
  induction l with
  | nil => rfl
  | cons x l ih =>
    obtain ⟨a, n⟩ := x
    unfold Module.libCheck at h ⊢
    by_cases hn : n = 0
    · rw [if_pos hn] at h ⊢
      exact ih h
    rw [if_neg hn] at h ⊢
    by_cases hmay : (!t.mayAccess false a n) = true
    · rw [if_pos hmay] at h
      cases h
    rw [if_neg hmay] at h ⊢
    have hread (hh : (match m.engRead e a n with
        | (bad, m) => if bad = true then (some abPoison, m) else m.libCheck e t l).1 = none) :
        (match m.engRead e a n with
          | (bad, m) => if bad = true then (some abPoison, m) else m.libCheck e t l) = (none, m) := by
      by_cases hbad : m.badIn a n = []
      · rw [Module.engRead_of_clean hl hbad] at hh ⊢
        exact ih hh
      · rw [Module.engRead_of_bad hl hbad] at hh
        cases hh
    cases hspace : m.spaceOf a with
    | window w off =>
      rw [hspace] at h
      dsimp only at h ⊢
      by_cases hbad : m.windowBad w off n true = true
      · rw [if_pos hbad] at h
        cases h
      · rw [if_neg hbad] at h ⊢
        exact ih h
    | spm =>
      rw [hspace] at h
      exact hread h
    | dram =>
      rw [hspace] at h
      exact hread h
    | registers =>
      rw [hspace] at h
      cases h
    | unmapped =>
      rw [hspace] at h
      cases h

/-- Tiles whose rows hold no stop change nothing but what they write. -/
theorem libTiles_passes (hl : m.latent = []) {l : List LibTile} {done : List (Nat × Nat)}
    (h : ∀ y ∈ (m.libTiles e t done l).1, y.stop = none) : (m.libTiles e t done l).2 = m := by
  induction l generalizing done with
  | nil => rfl
  | cons x l ih =>
    unfold Module.libTiles at h ⊢
    dsimp only at h ⊢
    generalize hspans : ((x.reads.flatMap (·.spans)).eraseDups.filter (!done.contains ·)) = spans at h ⊢
    cases hc : (m.libCheck e t spans).1 with
    | some a =>
      obtain ⟨r, hr⟩ : ∃ r, m.libCheck e t spans = (some a, r) := ⟨_, Prod.ext hc rfl⟩
      rw [hr] at h
      exact absurd (h _ (List.mem_singleton_self _)) (by simp [EngWrite.stopper])
    | none =>
      rw [libCheck_passes hl hc] at h ⊢
      exact ih fun y hy => h y (List.mem_append_right _ hy)

/-! ### A call -/

/-- The address of a call's record. -/
def Module.recordOf (m : Module) (t : EngTask) (k : WalkerSt) : Nat :=
  devAddr (((m.libView t ((k.reg 0).toNat / 16 ^ 3)).base : Int) + (k.reg 1).toNat)

/-- A call, before its key is known. -/
def Module.callAt (m : Module) (t : EngTask) (k : WalkerSt) : LibCall :=
  let v := fun n => m.libView t ((k.reg 0).toNat / 16 ^ n)
  ⟨m, t, v 0, v 1, v 2, v 3, v 4, m.libRec t (m.recordOf t k), []⟩

/-- A view that the routine needs is empty. -/
def LibCall.emptyView (c : LibCall) (views : Nat) : Bool :=
  [(0, c.inp), (1, c.wts), (2, c.par), (3, c.aux)].any fun y => views.testBit y.1 && (y.2.width = 0 || y.2.lines = 0)

/-- What a call does as far as its reads show. -/
def LibCall.first (c : LibCall) (views : Nat) (f : LibCall → LibOut) : LibOut :=
  if c.emptyView views then ⟨false, [], 0, []⟩ else f c

/-- What a call reads beside its record. -/
def LibOut.spans (o : LibOut) : List (Nat × Nat) := ((o.tiles.flatMap (·.reads)).eraseDups.flatMap (·.spans)).eraseDups

/-- A call with what it reads, the record at `a` first, as the key of its free values. -/
def LibCall.keyed (c : LibCall) (a : Nat) (o : LibOut) : LibCall :=
  { c with key := ((a, 64) :: o.spans).flatMap fun y => (List.range y.2).map fun j => c.m.libByte c.t (y.1 + j) }

/-- What a call does. -/
def LibCall.outcome (c : LibCall) (views a : Nat) (f : LibCall → LibOut) : LibOut :=
  if c.emptyView views then c.first views f else f (c.keyed a (c.first views f))

/-- The status of a call. -/
def LibCall.status (c : LibCall) (views a : Nat) (f : LibCall → LibOut) : Nat :=
  if c.emptyView views then 1 else if (c.outcome views a f).bad then 2 else 0

/-- The task of a call that has been made, before its writes. -/
def EngTask.called (t : EngTask) (key : List Byte) (res : List Tile) (status : Nat) : EngTask :=
  { t.afterCall key res with
    badger := ({ (t.afterCall key res).badger with barriers := (t.afterCall key res).badger.barriers + 1 }.afterCall key status).advance }

/-- The flags of what a call reads. -/
def LibCall.flags (c : LibCall) (o : LibOut) : Nat :=
  (o.tiles.flatMap (·.reads)).eraseDups.foldl (fun g x => g ||| c.readFlags x) o.flags

/-- A call whose argument words have been read. -/
def Module.callEnd (m : Module) (e : EngPos) (t : EngTask) (k : WalkerSt) (c : LibCall) (o : LibOut) (status a : Nat) : Module :=
  match m.libCheck e t [(a, 64)] with
  | (some b, m) => m.abortTask e b
  | (none, m) =>
    let (l, m) := m.libTiles e t [(a, 64)] (if o.bad then [] else o.tiles)
    (m.arith e (c.flags o)).storeRows e .execute (t.called c.key o.res status) (k.afterCall c.key status) l

/-- What a call needs to run to its end at once. -/
structure Runs (s : State) (e : EngPos) (t : EngTask) (k : WalkerSt) (views : Nat) (f : LibCall → LibOut) : Prop where
  clear : Clear s (callWords t k views)
  busy : s.anyBusy ((s.recordOf t k, 64) :: ((s.callAt t k).first views f).spans) = false
  record : s.libMissing t [(s.recordOf t k, 64)] = []
  spans : s.libMissing t ((s.callAt t k).first views f).spans = []
  check : (s.libCheck e t [(s.recordOf t k, 64)]).1 = none
  rows : ∀ y ∈ (s.libTiles e t [(s.recordOf t k, 64)] (if ((s.callAt t k).outcome views (s.recordOf t k) f).bad then [] else
    ((s.callAt t k).outcome views (s.recordOf t k) f).tiles)).1, y.stop = none ∧ WritesWell s t y.addr y.bytes.length

/-- A call that nothing holds up queues the writes of its tiles and passes. -/
theorem libCall_runs (h : AtInstr s e .execute 0x30 t i) (hid : opnd i 2 2 = id) (hpc : t.badger.pc = t.atBarrier.pc)
    (hbar : t.badger.barriers + 1 = t.atBarrier.barriers) (hlib : ∀ l, t.lib = some l → l.2.complete = true)
    (hruns : Runs s e t t.atBarrier views f) :
    let a := s.recordOf t t.atBarrier
    let c := s.callAt t t.atBarrier
    let o := c.outcome views a f
    let key := (c.keyed a (c.first views f)).key
    ∃ fl, s.toModule.libCall e .execute id views f =
      (s.toModule.arith e fl).storeRows e .execute (t.called key o.res (c.status views a f))
        (t.atBarrier.afterCall key (c.status views a f)) (s.libTiles e t [(a, 64)] (if o.bad then [] else o.tiles)).1 := by
  intro a c o key
  have hlatent : s.latent = [] := hruns.clear.1
  have hcheck : s.libCheck e t [(a, 64)] = (none, s.toModule) := libCheck_passes hlatent hruns.check
  have htiles : (s.libTiles e t [(a, 64)] (if o.bad then [] else o.tiles)).2 = s.toModule :=
    libTiles_passes hlatent fun y hy => (hruns.rows y hy).1
  have hwaits : (decide (opnd i 2 2 ≠ id) || decide (t.badger.pc ≠ t.atBarrier.pc) ||
      decide (t.badger.barriers + 1 ≠ t.atBarrier.barriers) || s.anyBusy (callWords t t.atBarrier views) ||
      (t.lib.map fun l => !l.2.complete).getD false) = false := by
    have hl : (t.lib.map fun l => !l.2.complete).getD false = false := by
      cases hlib' : t.lib with
      | none => rfl
      | some l => exact congrArg Bool.not (hlib l hlib')
    rw [decide_eq_false (not_not.2 hid), decide_eq_false (not_not.2 hpc), decide_eq_false (not_not.2 hbar), hruns.clear.2.1, hl]
    rfl
  have hrecord : (!(s.libMissing t [(a, 64)]).isEmpty) = false := by
    rw [hruns.record]
    rfl
  have hspans : (!(s.libMissing t (c.first views f).spans).isEmpty) = false := by
    rw [hruns.spans]
    rfl
  refine ⟨?fl, ?_⟩
  case fl => exact (c.keyed a (c.first views f)).flags o
  unfold Module.libCall
  rw [barrier_of_atInstr h]
  refine (if_neg (ne_true_of_eq_false hwaits)).trans ?_
  refine (if_neg (ne_true_of_eq_false hrecord)).trans ?_
  refine (if_neg (ne_true_of_eq_false hspans)).trans ?_
  refine (if_neg (ne_true_of_eq_false hruns.busy)).trans ?_
  dsimp only
  rw [engReads_of_clear hruns.clear]
  refine (if_neg Bool.false_ne_true).trans ?_
  change s.toModule.callEnd e t t.atBarrier (c.keyed a (c.first views f)) o (c.status views a f) a = _
  unfold Module.callEnd
  rw [hcheck]
  dsimp only
  exact congrArg (fun n : Module => (n.arith e _).storeRows e .execute _ _ _) htiles

theorem leaveGate_barriers (k : WalkerSt) : k.leaveGate.barriers = k.barriers := by
  unfold WalkerSt.leaveGate
  split
  · split <;> rfl
  · rfl

/-! ### The walkers and the task after a call -/

theorem afterCall_advance_pc (k : WalkerSt) (key : List Byte) (status : Nat) :
    (k.afterCall key status).advance.pc = k.advance.pc := rfl

theorem afterCall_advance_status (k : WalkerSt) (key : List Byte) (status : Nat) :
    (k.afterCall key status).advance.reg 0 = BitVec.ofNat 32 status := rfl

/-- S8 to S15 stay. -/
theorem afterCall_advance_reg (k : WalkerSt) (key : List Byte) (status : Nat) {j : Nat} (hj : 8 ≤ j) (hlt : j < 16) :
    (k.afterCall key status).advance.reg j = k.reg j := by
  change (((List.range 16).map fun i => if i = 0 then BitVec.ofNat 32 status else if i < 8 then libLeft key i
    else (k.regs[i]?).getD 0)[j]?).getD 0 = (k.regs[j]?).getD 0
  rw [List.getElem?_map, List.getElem?_range hlt, Option.map_some, Option.getD_some, if_neg (by omega), if_neg (by omega)]

theorem called_badger_pc (key : List Byte) (res : List Tile) (status : Nat) :
    (t.called key res status).badger.pc = t.badger.advance.pc := rfl

/-- The number of a status, in a register. -/
theorem status_word (p q : Bool) : BitVec.ofNat 32 (if p then 1 else if q then 2 else 0) = (if p then 1 else if q then 2 else 0 : Word) := by
  cases p <;> cases q <;> rfl

/-- A routine that runs to its end, by what a call of it does. -/
theorem routineCompletes {c : Instr} (hexec : exec c s = ok s (s.toModule.libCall e .execute id views f)) :
    RoutineCompletes c s e t i id views f := by
  have hk : ({ t.exec.leaveGate with barriers := t.exec.barriers + 1 } : WalkerSt) = t.atBarrier := by
    unfold EngTask.atBarrier
    rw [leaveGate_barriers]
  unfold RoutineCompletes
  rw [hk]
  intro h hid hpc hbar hgate hissued hlib k v a x0 empty first spans x o rows hclear hbusy hrecord hspans hcheck hrows
  have hruns : Runs s e t t.atBarrier views f := ⟨hclear, hbusy, hrecord, hspans, hcheck, hrows⟩
  have hbarriers : t.badger.barriers + 1 = t.atBarrier.barriers := by
    rw [hbar, ← hk]
  obtain ⟨fl, hrun⟩ := libCall_runs h hid (by exact hpc) hbarriers hlib hruns
  refine .of_ok h.1 (hexec.trans (congrArg (ok s) hrun)) ?_
  rw [Module.storeRows_full (t := t.called _ _ _) hgate hissued fun y hy => ?writes]
  case writes =>
    rw [Module.spaceOf_arith]
    exact (hrows y hy).2
  refine ⟨_, eng_putTask_task .., h.2.2.1, afterCall_advance_pc .., called_badger_pc .., ?status, rfl,
    fun j hj hlt => afterCall_advance_reg _ _ _ hj hlt, rfl, rfl, rfl, rfl, rfl⟩
  case status => exact (afterCall_advance_status ..).trans (status_word ..)

end
end Sys2Proof.Machine

namespace Sys2Proof
open Sys2Proof.Machine

/-- Settles O24: a call whose reads are at hand and stop nothing queues its writes and passes, whatever routine it runs. -/
theorem libraryRoutinesComplete : Obligations.LibraryRoutinesComplete := by
  unfold Obligations.LibraryRoutinesComplete
  exact fun e t i s => ⟨routineCompletes rfl, routineCompletes rfl, routineCompletes rfl, routineCompletes rfl,
    routineCompletes rfl, routineCompletes rfl, routineCompletes rfl, routineCompletes rfl,
    routineCompletes rfl, routineCompletes rfl, routineCompletes rfl, routineCompletes rfl⟩

end Sys2Proof
end
